-- ==== Sys2Proof/Word.lean ====
section
/-! DEFINITION. The word types of the Kraes hub: bytes, byte strings and the sparse tables the state is built from. -/
namespace Sys2Proof

/-- One byte. -/
abbrev Byte := BitVec 8

/-- A string of bytes, lowest address first (00 R6: every multi-byte field is little-endian). -/
abbrev Bytes := List Byte

/-- A sparse table: pairs (index, value), indices strictly rising.  An index that is not listed holds the default
value of the kind of table. -/
abbrev Tab (α : Type) := List (Nat × α)

end Sys2Proof
end

