-- ==== Sys2Proof/Inputs.lean ====
section
/-! DEFINITION. The operands of the commands that are more than a number: what the outside world hands the block with
a command (read results of host memory, verdicts of signature and tag checks, test outcomes, board table, pins). -/
namespace Sys2Proof

/-- How a read of host memory through the walkers ends (03 R62, Table 3-16). -/
inductive Fetch where
  | data (b : Bytes)
  | translation
  | accessError
  | poison
  /-- The data, some of whose TLPs are poisoned: their ranges, as offset and length. -/
  | partly (b : Bytes) (bad : List (Nat × Nat))
  deriving DecidableEq, Repr, Inhabited

/-- What the CP finds when it takes a command (03 R62, 15 R410). -/
structure TakeInput where
  /-- Take from the management channel instead of the mailboxes. -/
  mgmt : Bool := false
  /-- The read of a request payload given by reference. -/
  req : Fetch := .data []
  /-- The read of the owner authorisation block. -/
  auth : Fetch := .data []
  /-- REQ_DIGEST equals the SHA-384 of the payload (R410 check 5). -/
  digestOk : Bool := true
  /-- The signature verifies under the partition's owner key (R410 check 6). -/
  sigOk : Bool := true
  /-- The command will not be DONE as it commits: it stays TAKEN past its commit point until its row comes again (R66). -/
  lateDone : Bool := false
  deriving DecidableEq, Repr, Inhabited

/-- How a write of a response payload by reference ends (03 R62). -/
inductive WriteBack where
  | ok | failed
  deriving DecidableEq, Repr, Inhabited

/-- A time word as it arrives (02 Table 2-6). -/
structure TimeWord where
  txTime : Nat := 0
  seq : Nat := 0
  echoSeq : Nat := 0
  turnaround : Nat := 0xFFFFFF
  gmId : Nat := 0
  gmPriority : Nat := 0
  gmClass : Nat := 0
  hops : Nat := 0
  periodSteps : Nat := 0
  deriving DecidableEq, Repr, Inhabited

/-- An access of the host to BAR2: a read, or a write, poisoned or not (08 R235, R239). -/
inductive TlpKind where
  | read
  | write (poison : Bool)
  deriving DecidableEq, Repr, Inhabited

/-- Kinds of IEEE 1588 message of an ordinary clock with the delay request-response mechanism (02 R50). -/
inductive PtpKind where
  | sync | followUp | delayReq | delayResp
  deriving DecidableEq, Repr, Inhabited

/-- An IEEE 1588 message as it arrives: the time it carries, its correction field in time-base units, and whether a Follow_Up
brings a Sync's time. -/
structure PtpIn where
  kind : PtpKind := .sync
  seq : Nat := 0
  time : Nat := 0
  correction : Int := 0
  twoStep : Bool := false
  deriving DecidableEq, Repr, Inhabited

/-- Straps (16 Table 16-1). -/
structure Straps where
  boot : Nat := 0
  mgmtIf : Nat := 0
  smbAddr : Nat := 0
  strum : Nat := 1
  test : Bool := false
  deriving DecidableEq, Repr, Inhabited

/-- Board table section IDENTITY (16 Table 16-5). -/
structure BoardIdentity where
  nodeId : Nat := 0
  /-- Ethernet MAC per (engine × 4 + port). -/
  macs : Tab Nat := []
  ipv6 : Nat := 0
  router : Nat := 0
  deriving DecidableEq, Repr, Inhabited

/-- Coefficients of one LANE_EQ entry (13 R356, R357). -/
structure LaneEq where
  pre : Int := 0
  main : Nat := 0
  post : Int := 0
  ctle : Nat := 0
  deriving DecidableEq, Repr, Inhabited

/-- EQUALISATION entries of one physical engine: those of its lanes, in table order, as (lane × 4 + RATE, coefficients), and
its asymmetry correction (13 R356, R358). -/
structure EngineEq where
  lanes : List (Nat × LaneEq) := []
  asym : Option Int := none
  deriving DecidableEq, Repr, Inhabited

/-- A far-tier decoder of the MEMORY section (08 R232, R233), by physical port. -/
structure FarEntry where
  port : Nat := 0
  decoder : Nat := 0
  base : Nat := 0
  size : Nat := 0
  device : Nat := 0
  iw2 : Bool := false
  integrity : Bool := true
  dpaBase : Nat := 0
  deriving DecidableEq, Repr, Inhabited

/-- MEMORY section (08 R216, R232, R237). -/
structure BoardMemory where
  /-- Bit n: physical shelf n keeps MACs. -/
  integrity : Nat := 0xFFF
  windowBase : Nat := 0
  far : List FarEntry := []
  deriving DecidableEq, Repr, Inhabited

/-- A larder region that PARTITION0 names: MEMORY (base, length in 64 KiB) or SCRATCH banks. -/
structure PoolEntry where
  scratch : Bool := false
  base : Nat := 0
  length : Nat := 0
  banks : Nat := 0
  deriving DecidableEq, Repr, Inhabited

/-- PARTITION0 section (15 R413). -/
structure BoardPart0 where
  keyX : Nat := 0
  keyY : Nat := 0
  pool : List PoolEntry := []
  deriving DecidableEq, Repr, Inhabited

/-- TRUST section. -/
structure BoardTrust where
  mgmtRoot : Bool := false
  fieldDebug : Bool := false
  deriving DecidableEq, Repr, Inhabited

/-- POWER section, in 0.25 W (18 R506): package cap, HBM and attic budgets. -/
structure BoardPower where
  package : Nat := 4000
  hbm : Nat := 1200
  attic : List Nat := []
  deriving DecidableEq, Repr, Inhabited

/-- CHORD section (14 R383). -/
structure BoardChord where
  udpPort : Nat := 0xC4A1
  ethPayload : Nat := 1024
  trafficClass : Nat := 0
  deriving DecidableEq, Repr, Inhabited

/-- A copy of the board table that passed magic and signature (16 R447); a section whose CRC fails or that is missing
is none (R448). -/
structure BoardCopy where
  identity : Option BoardIdentity := none
  equalisation : Option (Tab EngineEq) := none
  trust : Option BoardTrust := none
  memory : Option BoardMemory := none
  part0 : Option BoardPart0 := none
  power : Option BoardPower := none
  chord : Option BoardChord := none
  digest : Nat := 0
  deriving DecidableEq, Repr, Inhabited

/-- What the inventory reads of a physical shelf (08 R226): geometry, the spare rows of a bank, and the banks that have other
counts: bank (bits 31:18 of its ROW_IDs), soft spares, hard spares. -/
structure ShelfInfo where
  rowBits : Nat := 16
  banksLog2 : Nat := 4
  sids : Nat := 4
  softFree : Nat := 8
  hardFree : Nat := 8
  banks : List (Nat × Nat × Nat) := []
  deriving DecidableEq, Repr, Inhabited

/-- What a far-tier port's links trained to (19 FAR_PORT_STATUS). -/
structure FarLink where
  gts : Nat := 64
  width : Nat := 16
  bifurcated : Bool := false
  devicesUp : Nat := 1
  deriving DecidableEq, Repr, Inhabited

/-- Outcomes of the start-up tests (16 Table 16-6), all by physical number. -/
structure TestInput where
  cpOk : Bool := true
  seOk : Bool := true
  larderOk : Bool := true
  /-- Bit q: the NoC of physical quadrant q fails. -/
  nocFail : Nat := 0
  /-- Bit 16q + c: NoC port, harp tap, power switch, mover or peg unit of the cellar fails. -/
  cellarFail : Nat := 0
  /-- Per physical cellar, the cores that fail. -/
  coreFail : Tab Nat := []
  /-- Cache ways that fail: (physical cellar, bank × 16 + way). -/
  cbWayFail : List (Nat × Nat) := []
  /-- Core-store ways that fail: (physical cellar, core × 16 + way). -/
  csWayFail : List (Nat × Nat) := []
  shelfFail : Nat := 0
  engineFail : Nat := 0
  shelves : Tab ShelfInfo := []
  farLinks : Tab FarLink := []
  /-- Hard repairs that the start performs without success: (physical shelf, ROW_ID). -/
  hardFail : List (Nat × Nat) := []
  deriving DecidableEq, Repr, Inhabited

/-- Everything a start takes from outside (16 R440). -/
structure StartInput where
  straps : Straps := {}
  board0 : Option BoardCopy := none
  board1 : Option BoardCopy := none
  tests : TestInput := {}
  deriving DecidableEq, Repr, Inhabited

/-- A firmware image as the boot ROM judges it (16 R442). -/
structure FwImage where
  chainOk : Bool := true
  sigOk : Bool := true
  digestOk : Bool := true
  svn : Nat := 0
  version : Nat := 0
  digest : Nat := 0
  deriving DecidableEq, Repr, Inhabited

/-- What the host link trained to (19 HOST_LINK_STATUS). -/
structure HostLink where
  gts : Nat := 64
  width : Nat := 16
  flit : Bool := true
  cxl : Bool := false
  deriving DecidableEq, Repr, Inhabited

/-- How a decode of stored check bytes ends (17 R473, R474). -/
inductive Ecc where
  | good
  | corrected
  | uncorrectable
  | macFail
  deriving DecidableEq, Repr, Inhabited

end Sys2Proof
end

