-- ==== Sys2Proof/Config.lean ====
section
/-! DEFINITION. Free values: what the spec leaves open while the machine goes on.  Each is a constant without a body,
so nothing can be proved of its value; `n` is the fresh number a step takes from the state. -/
namespace Sys2Proof.Config

/-- The filtered value of a measured link delay or partner offset (02 R47 names no filter). -/
opaque linkFilter (n : Nat) (raw : Int) : Int

/-- The smoothed round-trip time (`k` = 0) or its variation (`k` = 1) after one more sample (14 R390 names no filter). -/
opaque rttFilter (k old sample : Nat) : Nat

/-- The rate adjustment that steers the time base, before the limit of 02 R22. -/
opaque rateSteer (n : Nat) : Int

/-- Random numbers that the hub draws (keys, nonces, epochs, initial packet numbers). -/
opaque random (n : Nat) : Nat

/-- The fixed latency of a SerDes path for a rate, in time-base units: `tx` says which direction (13 R359). -/
opaque pathLatency (engine rate : Nat) (tx : Bool) : Nat

/-- The 66 bits of the `k`th link-layer block around a marker: flits, whose ciphertext nothing determines (13 R347). -/
opaque linkBlock (n k : Nat) : Nat

/-- The state of a lane's scrambler before a codeword, which the blocks sent before it determine (13 R343). -/
opaque scrambler (n : Nat) : Nat

/-- Where a lane's codewords begin against its first marker (13 R348). -/
opaque codewordPhase (engine lane : Nat) : Nat

/-- Where the larder's store holds the parts of the step in a slot (09 R263). -/
opaque partsAddr (slot : Nat) : Nat

/-- A reading of a digital power meter or a rail meter over one fret, in 0.25 W. -/
opaque meter (n : Nat) : Nat

/-- A byte that nothing determines (07 R192 and the like). -/
opaque freeByte (n k : Nat) : BitVec 8

/-- The result of a transcendental (`op`: 0 reciprocal, 1 reciprocal square root, 2 exp2, 3 log2, 4 sine, 5 cosine) of
a binary32 operand.  It is the same on every core and every run (05 R126), so it is a function of the operand. -/
opaque transcendental (op x : Nat) : Nat

/-- The result of an integer operation where the spec states none (a shift by the width or more, the absolute value of
the most negative number, a bit field that leaves the register). -/
opaque intOpen (op w a b c : Nat) : Nat

/-- The sign of the minimum or maximum of two zeros of opposite signs, the first of sign `neg`; IEEE 754 allows either. -/
opaque zeroSign (isMax neg : Bool) : Bool

/-- The upper bits of a register after a load narrower than 32 bits (04 Table 4-12 names no extension). -/
opaque loadUpper (bytes x : Nat) : Nat

/-- Where a shelf's controller places a 512-byte block (HPA / 512): ROW, BANK, PC and SID of Table 8-4, which 08 R215 leaves
to the controller. -/
opaque rowOf (block : Nat) : Nat

/-- The pages of a shelf that hold a sector of a row, as page numbers within the shelf (17 R483). -/
opaque rowPages (shelf row : Nat) : List Nat

/-- The line transfers that the power manager lets a shelf make in a fret (18 R510). -/
opaque shelfLimit (n : Nat) : Nat

/-- How the decode of the sector that a write-combining flush reads ends (08 R222). -/
opaque flushDecode (n : Nat) : Nat

/-- The set of a directory that holds a line (HPA / 128). -/
opaque dirSet (line : Nat) : Nat

/-- AES-256-XTS of a data unit under a key of 512 bits and a tweak, and AES-256-CMAC under a key of 256 bits (15 R420, R421).  The spec
names the functions by their standards and does not restate them. -/
opaque aesXts (key tweak : Nat) (b : Bytes) : Bytes
opaque aesCmac (key : Nat) (b : Bytes) : Nat

/-- AES-256-GCM: the ciphertext and tag of a plaintext under a key, an IV and additional authenticated data; and HKDF-Expand
over SHA-384 of a secret, an info string and a length (14 R374, 15 R426).  The spec names both by their standards. -/
opaque gcmSeal (key : Nat) (iv aad plain : Bytes) : Bytes × Nat
opaque hkdfExpand (secret : Nat) (info : String) (n : Nat) : Bytes

/-- What the SE makes of a key exchange: the secret S, its ephemeral public key, its signature over TH, and the certificate
chain of its alias key (15 R426). -/
opaque linkSecret (n : Nat) : Nat
opaque ephemeralKey (n : Nat) : Nat
opaque keySignature (n : Nat) : Nat
opaque aliasChain : Bytes

/-- Whether this device has the lower NODE_ID of an association's two ends, which the handshake carries (15 R428). -/
opaque assocLower (n : Nat) : Bool

/-- The payload of LL_CAP and ROUTE_ADV, whose layout the spec does not give (14 R371, R378). -/
opaque linkCtlBytes (kind value : Nat) : Bytes

/-- The SHA-384 digest of a byte string.  The spec names the function by its standard and does not restate it. -/
opaque sha384 (b : Bytes) : Nat

/-- The SHA-384 digest of the boot ROM, and the public binding key for a lifecycle of FIELD_DEBUG or not (15 R431). -/
opaque romDigest : Nat
opaque bindingKey (fieldDebug : Bool) : Nat

/-- The bytes of an SPDM response, which the SPDM standard lays out. -/
opaque spdmBytes (n : Nat) : Bytes

/-- KiB that a receive buffer of a virtual channel holds at the moment of a read (14 CHORD_RX_FILL). -/
opaque rxFill (n engine vc : Nat) : Nat

/-- The lifecycle authorisation in a limited-change request verifies for a module serial (16 R462), where a write of LC_CMD
brings no verdict of its own. -/
opaque lcSigOk (serial : Nat) (words : List Nat) : Bool

/-- The reading of a temperature or voltage sensor at the moment of a read (18 Table 18-9). -/
opaque sensor (n id : Nat) : Nat

/-- CXL_OK as HUB_CAP carries it (12 Table 12-3). -/
opaque cxlOk : Bool

/-- REQUESTER of a change-log entry: the first 8 bytes of the digest of the management leaf certificate (16 LC_LOG). -/
opaque requester : Nat

end Sys2Proof.Config
end

