-- ==== Sys2Proof/Machine/Data.lean ====
section
/-! DEFINITION. Plain data operations that the whole model shares: sparse tables, bit fields, byte order, saturation,
and the list of checks with the first failure winning (03 R546). -/
namespace Sys2Proof.Machine

/-! ### Sparse tables -/

/-- The value a table lists at `k`. -/
def tfind {α : Type} (t : Tab α) (k : Nat) : Option α :=
  match t with
  | [] => none
  | (j, v) :: r => if j = k then some v else tfind r k

/-- The value at `k`, or the default. -/
def tget {α : Type} (t : Tab α) (k : Nat) (d : α) : α := (tfind t k).getD d

/-- Set the value at `k`, keeping the indices rising. -/
def tset {α : Type} (t : Tab α) (k : Nat) (v : α) : Tab α :=
  match t with
  | [] => [(k, v)]
  | (j, w) :: r => if k < j then (k, v) :: (j, w) :: r else if k = j then (k, v) :: r else (j, w) :: tset r k v

/-- Remove the entry at `k`. -/
def tdel {α : Type} (t : Tab α) (k : Nat) : Tab α := t.filter (fun e => e.1 != k)

/-- Change the entry at `k`, which holds `d` when it is not listed. -/
def tmod {α : Type} (t : Tab α) (k : Nat) (d : α) (f : α → α) : Tab α := tset t k (f (tget t k d))

/-- Change an entry only where it is listed. -/
def tmodIf {α : Type} (t : Tab α) (k : Nat) (f : α → α) : Tab α :=
  match tfind t k with
  | none => t
  | some v => tset t k (f v)

/-- Keep the entries that satisfy `p`. -/
def tfilter {α : Type} (t : Tab α) (p : Nat → α → Bool) : Tab α := t.filter (fun e => p e.1 e.2)

/-- Change every listed entry. -/
def tmap {α β : Type} (t : Tab α) (f : Nat → α → β) : Tab β := t.map (fun e => (e.1, f e.1 e.2))

/-- The listed values. -/
def tvals {α : Type} (t : Tab α) : List α := t.map (·.2)

/-- The listed indices. -/
def tkeys {α : Type} (t : Tab α) : List Nat := t.map (·.1)

/-- The lowest index at or above `from` and below `lim` that the table does not list. -/
def tfree {α : Type} (t : Tab α) (lo lim : Nat) : Option Nat :=
  match t with
  | [] => if lo < lim then some lo else none
  | (j, _) :: r => if j < lo then tfree r lo lim else if j = lo then tfree r (lo + 1) lim
                   else if lo < lim then some lo else none

/-! ### Bit fields and byte order -/

/-- Bits [lo + w - 1 : lo] of `x`. -/
def bits (x lo w : Nat) : Nat := x / 2 ^ lo % 2 ^ w

/-- Bit `i` of `x`. -/
def bitAt (x i : Nat) : Bool := x / 2 ^ i % 2 == 1

/-- A field value placed at bit `lo`, cut to its width. -/
def field (v lo w : Nat) : Nat := v % 2 ^ w * 2 ^ lo

/-- A flag as a number. -/
def b2n (b : Bool) : Nat := if b then 1 else 0

/-- The little-endian number of a byte string (00 R6). -/
def leNat : Bytes → Nat
  | [] => 0
  | b :: r => b.toNat + 256 * leNat r

/-- The `n` bytes of a number, low byte first (00 R6). -/
def leBytes : Nat → Nat → Bytes
  | 0, _ => []
  | n + 1, x => BitVec.ofNat 8 x :: leBytes n (x / 256)

/-- `n` bytes of a string from offset `off`, as a number. -/
def leAt (b : Bytes) (off n : Nat) : Nat := leNat ((b.drop off).take n)

/-- Bits [lo + w - 1 : lo] of a byte string read as one little-endian number. -/
def bbits (b : Bytes) (lo w : Nat) : Nat :=
  let first := lo / 8
  bits (leAt b first ((lo % 8 + w + 7) / 8)) (lo % 8) w

/-- The signed value of a `w`-bit field. -/
def signed (x w : Nat) : Int := if x % 2 ^ w < 2 ^ (w - 1) then (x % 2 ^ w : Nat) else (x % 2 ^ w : Nat) - (2 ^ w : Nat)

/-- The `w`-bit field that holds a signed value. -/
def unsignedOf (x : Int) (w : Nat) : Nat := (x % (2 ^ w : Nat)).toNat

/-- Add, saturating at the largest `w`-bit value. -/
def satAdd (w a b : Nat) : Nat := min (a + b) (2 ^ w - 1)

/-- Count one more, saturating at the largest `w`-bit value. -/
def satInc (w a : Nat) : Nat := satAdd w a 1

/-- Round `x` up to a multiple of `m`. -/
def roundUp (x m : Nat) : Nat := (x + m - 1) / m * m

/-- The set bits of the low `w` bits of a mask, lowest first. -/
def maskBits (m w : Nat) : List Nat := (List.range w).filter (fun i => bitAt m i)

/-- The number of set bits among the low `w`. -/
def popCount (m w : Nat) : Nat := (maskBits m w).length

/-- The mask that holds the listed bits. -/
def maskOf (l : List Nat) : Nat := l.foldl (fun m i => if bitAt m i then m else m + 2 ^ i) 0

/-- Set one bit of a mask. -/
def setBit (m i : Nat) : Nat := if bitAt m i then m else m + 2 ^ i

/-- Clear one bit of a mask. -/
def clearBit (m i : Nat) : Nat := if bitAt m i then m - 2 ^ i else m

/-- The number of bits of a number that is a power of two: n for 2^n. -/
def log2 (x : Nat) : Nat := Nat.log2 x

/-! ### Lists -/

/-- The element at position `i`, or the default. -/
def nth {α : Type} (l : List α) (i : Nat) (d : α) : α := l.getD i d

/-- Replace the element at position `i`. -/
def setNth {α : Type} (l : List α) (i : Nat) (v : α) : List α :=
  match l, i with
  | [], _ => []
  | _ :: r, 0 => v :: r
  | x :: r, k + 1 => x :: setNth r k v

/-- Run a state change for every element, first to last. -/
def forEach {α σ : Type} (l : List α) (s : σ) (f : σ → α → σ) : σ := l.foldl f s

/-- The status of the first check that fails (03 R546: the first failing check is reported, and no later one is made). -/
def firstFail {α : Type} (l : List (Bool × α)) : Option α :=
  match l with
  | [] => none
  | (bad, st) :: r => if bad then some st else firstFail r

/-- The sum of a list. -/
def sum (l : List Nat) : Nat := l.foldl (· + ·) 0

/-- The largest element, 0 for the empty list. -/
def maxOf (l : List Nat) : Nat := l.foldl max 0

/-- No element occurs twice. -/
def distinct (l : List Nat) : Bool :=
  match l with
  | [] => true
  | x :: r => !r.contains x && distinct r

end Sys2Proof.Machine
end

