-- ==== Sys2Proof/Machine/Arith.lean ====
section
/-! DEFINITION. Number formats, FP32 and BF16 arithmetic, conversions, and integer operations (spec 05 R121–R127,
04 Table 4-12).  A finite value is held exactly as ± m × 2^e, and every result is rounded once at the end. -/
namespace Sys2Proof.Machine

/-- A number as a format gives it: finite ± m × 2^e, infinite, or NaN. -/
inductive Num where
  | fin (neg : Bool) (m : Nat) (e : Int)
  | inf (neg : Bool)
  | nan
  deriving DecidableEq, Repr, Inhabited

/-- Format codes (05 Table 5-1). -/
inductive Fmt where
  | t2 | int4 | int8 | fp4e2m1 | fp6e2m3 | fp6e3m2 | fp8e4m3 | fp8e5m2 | bf16 | fp32
  deriving DecidableEq, Repr, Inhabited

/-- The code of a format (05 Table 5-1). -/
def fmtCode : Fmt → Nat
  | .t2 => 0 | .int4 => 1 | .int8 => 2 | .fp4e2m1 => 3 | .fp6e2m3 => 4 | .fp6e3m2 => 5 | .fp8e4m3 => 6 | .fp8e5m2 => 7
  | .bf16 => 8 | .fp32 => 9

/-- Width in bits. -/
def fmtWidth : Fmt → Nat
  | .t2 => 2 | .int4 => 4 | .int8 => 8 | .fp4e2m1 => 4 | .fp6e2m3 => 6 | .fp6e3m2 => 6 | .fp8e4m3 => 8 | .fp8e5m2 => 8
  | .bf16 => 16 | .fp32 => 32

/-- A floating-point layout (05 Table 5-2): exponent and mantissa bits, bias, the code of the largest finite magnitude,
the code an overflow gives (none: it saturates), and the code of the canonical NaN (none: no NaN). -/
structure FpLayout where
  ebits : Nat
  mbits : Nat
  bias : Nat
  maxCode : Nat
  infCode : Option Nat
  nanCode : Option Nat
  deriving DecidableEq, Repr, Inhabited

/-- The layout of a floating-point format; integers and T2 have none. -/
def fpLayout : Fmt → Option FpLayout
  | .fp4e2m1 => some ⟨2, 1, 1, 0x7, none, none⟩
  | .fp6e2m3 => some ⟨2, 3, 1, 0x1F, none, none⟩
  | .fp6e3m2 => some ⟨3, 2, 3, 0x1F, none, none⟩
  | .fp8e4m3 => some ⟨4, 3, 7, 0x7E, none, some 0x7F⟩
  | .fp8e5m2 => some ⟨5, 2, 15, 0x7B, some 0x7C, some 0x7E⟩
  | .bf16 => some ⟨8, 7, 127, 0x7F7F, some 0x7F80, some 0x7FC0⟩
  | .fp32 => some ⟨8, 23, 127, 0x7F7FFFFF, some 0x7F800000, some 0x7FC00000⟩
  | _ => none

/-- Decode a floating-point code (05 R123). -/
def decodeFp (l : FpLayout) (x : Nat) : Num :=
  let mag := x % 2 ^ (l.ebits + l.mbits)
  let neg := bitAt x (l.ebits + l.mbits)
  if mag ≤ l.maxCode then
    let ef := mag / 2 ^ l.mbits
    let mf := mag % 2 ^ l.mbits
    if ef = 0 then .fin neg mf (1 - (l.bias : Int) - l.mbits)
    else .fin neg (2 ^ l.mbits + mf) ((ef : Int) - l.bias - l.mbits)
  else if l.infCode = some mag then .inf neg
  else .nan

/-- Decode an element of any format (05 R122, R123). -/
def decodeNum (f : Fmt) (x : Nat) : Num :=
  match fpLayout f with
  | some l => decodeFp l x
  | none =>
    match f with
    | .t2 => match x % 4 with
      | 1 => .fin false 1 0
      | 3 => .fin true 1 0
      | _ => .fin false 0 0
    | _ =>
      let v := signed x (fmtWidth f)
      .fin (v < 0) v.natAbs 0

/-- floor(log2 m) for m > 0. -/
def ilog2 (m : Nat) : Nat := Nat.log2 m

/-- m × 2^d as an integer, rounded down, with the part cut off as a fraction `r / 2^k`. -/
def shiftCut (m : Nat) (d : Int) : Nat × Nat × Nat :=
  if 0 ≤ d then (m * 2 ^ d.toNat, 0, 0)
  else
    let k := (-d).toNat
    (m / 2 ^ k, m % 2 ^ k, k)

/-- Round a cut value to nearest, ties to even. -/
def roundNearest (c : Nat × Nat × Nat) : Nat :=
  let (q, r, k) := c
  if 2 * r < 2 ^ k ∨ k = 0 then q
  else if 2 ^ k < 2 * r then q + 1
  else if q % 2 = 0 then q else q + 1

/-- The code of the magnitude m × 2^e in a layout, with `pick` rounding the last place; codes above `maxCode` lie past
the largest finite value. -/
def magCode (l : FpLayout) (m : Nat) (e : Int) (pick : Nat × Nat × Nat → Nat) : Nat :=
  if m = 0 then 0
  else
    let emin : Int := 1 - (l.bias : Int)
    let ex := max ((ilog2 m : Int) + e) emin
    let k := pick (shiftCut m (e - (ex - l.mbits)))
    ((ex - emin).toNat) * 2 ^ l.mbits + k

/-- Put a sign in front of a magnitude code. -/
def withSign (l : FpLayout) (neg : Bool) (mag : Nat) : Nat := (if neg then 2 ^ (l.ebits + l.mbits) else 0) + mag

/-- Round a number into a layout, nearest even (05 Table 5-3). -/
def encodeFp (l : FpLayout) (n : Num) : Nat :=
  match n with
  | .nan => match l.nanCode with
    | some c => c
    | none => 0
  | .inf neg => match l.infCode with
    | some c => withSign l neg c
    | none => match l.nanCode with
      | some c => c
      | none => 0
  | .fin neg m e =>
    let c := magCode l m e roundNearest
    if c ≤ l.maxCode then withSign l neg c
    else match l.infCode with
      | some i => withSign l neg i
      | none => withSign l neg l.maxCode

/-- Round a finite number to the nearest integer, ties to even. -/
def roundInt (neg : Bool) (m : Nat) (e : Int) : Int :=
  let k := roundNearest (shiftCut m e)
  if neg then -(k : Int) else k

/-- Saturate an integer to the range of a `w`-bit two's complement number. -/
def satInt (v : Int) (w : Nat) : Int := max (-(2 ^ (w - 1) : Nat)) (min v ((2 ^ (w - 1) : Nat) - 1))

/-- The exact comparison m × 2^e against 1/2: less, equal or greater is (-1, 0, 1). -/
def cmpHalf (m : Nat) (e : Int) : Int :=
  let (q, r, k) := shiftCut m (e + 1)
  if q = 0 then -1 else if q = 1 ∧ (r = 0 ∨ k = 0) then 0 else 1

/-- CVT to a format (05 R127, Table 5-3). -/
def encodeNum (f : Fmt) (n : Num) : Nat :=
  match fpLayout f with
  | some l => encodeFp l n
  | none =>
    match n with
    | .fin neg m e =>
      match f with
      | .t2 => if cmpHalf m e ≤ 0 then 0 else if neg then 3 else 1
      | _ => unsignedOf (satInt (roundInt neg m e) (fmtWidth f)) (fmtWidth f)
    | _ => 0

/-- Convert between formats (05 R127). -/
def convert (src dst : Fmt) (x : Nat) : Nat := encodeNum dst (decodeNum src x)

/-! ### FP32 and BF16 arithmetic (05 R126) -/

/-- The layout of binary32. -/
def fp32 : FpLayout := ⟨8, 23, 127, 0x7F7FFFFF, some 0x7F800000, some 0x7FC00000⟩

/-- The layout of BF16. -/
def bf16 : FpLayout := ⟨8, 7, 127, 0x7F7F, some 0x7F80, some 0x7FC0⟩

/-- The signed mantissa of a finite number at exponent `e`, which is at most its own. -/
def mantAt (neg : Bool) (m : Nat) (e0 e : Int) : Int :=
  let v : Int := (m * 2 ^ (e0 - e).toNat : Nat)
  if neg then -v else v

/-- Exact product. -/
def mulNum (a b : Num) : Num :=
  match a, b with
  | .nan, _ => .nan
  | _, .nan => .nan
  | .inf s, .inf t => .inf (s != t)
  | .inf s, .fin t m _ => if m = 0 then .nan else .inf (s != t)
  | .fin s m _, .inf t => if m = 0 then .nan else .inf (s != t)
  | .fin s m e, .fin t n f => .fin (s != t) (m * n) (e + f)

/-- Exact sum; a zero sum of opposite signs is +0, as round to nearest even has it. -/
def addNum (a b : Num) : Num :=
  match a, b with
  | .nan, _ => .nan
  | _, .nan => .nan
  | .inf s, .inf t => if s = t then .inf s else .nan
  | .inf s, .fin _ _ _ => .inf s
  | .fin _ _ _, .inf t => .inf t
  | .fin s m e, .fin t n f =>
    let g := min e f
    let v := mantAt s m e g + mantAt t n f g
    if v = 0 then .fin (s && t) 0 0 else .fin (v < 0) v.natAbs g

/-- Change the sign. -/
def negNum : Num → Num
  | .nan => .nan
  | .inf s => .inf !s
  | .fin s m e => .fin (!s) m e

/-- Drop the sign. -/
def absNum : Num → Num
  | .nan => .nan
  | .inf _ => .inf false
  | .fin _ m e => .fin false m e

/-- a < b for numbers that are not NaN; zeros of either sign are equal. -/
def ltNum (a b : Num) : Bool :=
  match a, b with
  | .nan, _ => false
  | _, .nan => false
  | .inf s, .inf t => s && !t
  | .inf s, .fin _ _ _ => s
  | .fin _ _ _, .inf t => !t
  | .fin s m e, .fin t n f => let g := min e f; mantAt s m e g < mantAt t n f g

/-- Equality of numbers that are not NaN. -/
def eqNum (a b : Num) : Bool :=
  match a, b with
  | .nan, _ => false
  | _, .nan => false
  | _, _ => !ltNum a b && !ltNum b a

/-- Of two equal numbers, either; of zeros of opposite signs IEEE 754 allows both, so the sign is free. -/
def tieNum (isMax : Bool) (a b : Num) : Num :=
  match a, b with
  | .fin s m e, .fin t _ _ => if s = t then a else .fin (Config.zeroSign isMax s) m e
  | _, _ => a

/-- MIN: the number when one operand is NaN. -/
def minNum (a b : Num) : Num :=
  match a, b with
  | .nan, x => x
  | x, .nan => x
  | a, b => if ltNum b a then b else if ltNum a b then a else tieNum false a b

/-- MAX, likewise. -/
def maxNum (a b : Num) : Num :=
  match a, b with
  | .nan, x => x
  | x, .nan => x
  | a, b => if ltNum a b then b else if ltNum b a then a else tieNum true a b

/-- One FP32 operation. -/
def f32 (x : Nat) : Num := decodeFp fp32 x
def addF32 (a b : Nat) : Nat := encodeFp fp32 (addNum (f32 a) (f32 b))
def mulF32 (a b : Nat) : Nat := encodeFp fp32 (mulNum (f32 a) (f32 b))
def fmaF32 (a b c : Nat) : Nat := encodeFp fp32 (addNum (mulNum (f32 a) (f32 b)) (f32 c))
def minF32 (a b : Nat) : Nat := encodeFp fp32 (minNum (f32 a) (f32 b))
def maxF32 (a b : Nat) : Nat := encodeFp fp32 (maxNum (f32 a) (f32 b))
def absF32 (a : Nat) : Nat := encodeFp fp32 (absNum (f32 a))
def negF32 (a : Nat) : Nat := encodeFp fp32 (negNum (f32 a))

/-- One half of a BF16X2 operation. -/
def b16 (x : Nat) : Num := decodeFp bf16 x
def half (f : Num → Num → Num → Num) (a b c i : Nat) : Nat :=
  let h := fun x => b16 (x / 2 ^ (16 * i) % 2 ^ 16)
  encodeFp bf16 (f (h a) (h b) (h c))
def pair16 (f : Num → Num → Num → Num) (a b c : Nat) : Nat := half f a b c 0 + half f a b c 1 * 2 ^ 16
def addB16 (a b : Nat) : Nat := pair16 (fun x y _ => addNum x y) a b 0
def mulB16 (a b : Nat) : Nat := pair16 (fun x y _ => mulNum x y) a b 0
def fmaB16 (a b c : Nat) : Nat := pair16 (fun x y z => addNum (mulNum x y) z) a b c

/-- The integer square root of `x`, bit by bit from bit `fuel - 1` of the root. -/
def isqrt : Nat → Nat → Nat → Nat
  | 0, _, r => r
  | fuel + 1, x, r =>
    let r' := r + 2 ^ fuel
    isqrt fuel x (if r' * r' ≤ x then r' else r)

/-- The quotient of two finite FP32 numbers, correctly rounded. -/
def divF32 (a b : Nat) : Nat :=
  match f32 a, f32 b with
  | .nan, _ => 0x7FC00000
  | _, .nan => 0x7FC00000
  | .inf _, .inf _ => 0x7FC00000
  | .inf n, .fin m _ _ => encodeFp fp32 (.inf (n != m))
  | .fin n _ _, .inf m => encodeFp fp32 (.fin (n != m) 0 0)
  | .fin n x e, .fin m y d =>
    if y = 0 then (if x = 0 then 0x7FC00000 else encodeFp fp32 (.inf (n != m)))
    else
      let q := x * 2 ^ 80 / y
      encodeFp fp32 (.fin (n != m) (2 * q + (if x * 2 ^ 80 % y = 0 then 0 else 1)) (e - d - 81))

/-- 2^(2^-i) as a fraction of 2^160, for i from 1 up. -/
def rootsOfTwo : Nat → Nat → List Nat
  | 0, _ => []
  | n + 1, r => let x := isqrt 162 (r * 2 ^ 160) 0; x :: rootsOfTwo n x

/-- 2 to a finite number: the integer part sets the exponent, and the fraction, cut at 2^-64, multiplies roots of two held
to 160 bits. -/
def exp2Num (neg : Bool) (m : Nat) (e : Int) : Num :=
  -- the operand in units of 2^-64, rounded down
  let v : Int := if 0 ≤ e then (m : Int) * 2 ^ (min e.toNat 200) * 2 ^ 64 else (m : Int) * 2 ^ 64 / 2 ^ (-e).toNat
  let v : Int := if neg then -v else v
  let k := v / 2 ^ 64
  let fr := (v % 2 ^ 64).toNat
  let rs := rootsOfTwo 64 (2 ^ 161)
  let p := (List.range 64).foldl (fun p i => if bitAt fr (63 - i) then p * nth rs i 0 / 2 ^ 160 else p) (2 ^ 160)
  if m = 0 then .fin false 1 0
  else if 200 < k then .inf false
  else if k < -300 then .fin false 0 0
  else .fin false (2 * p + (if fr = 0 then 0 else 1)) (k - 161)

/-- 2 to an FP32 operand, correctly rounded (06 R172). -/
def exp2F32 (a : Nat) : Nat :=
  match f32 a with
  | .nan => 0x7FC00000
  | .inf neg => if neg then 0 else 0x7F800000
  | .fin neg m e => encodeFp fp32 (exp2Num neg m e)

/-- The canonical NaN in place of any NaN (05 R126). -/
def canonF32 (x : Nat) : Nat := if f32 x = .nan then 0x7FC00000 else x % 2 ^ 32

/-! ### The limits of the transcendentals (05 R126) -/

/-- 1 / (m × 2^e), cut 64 bits below its leading bit. -/
def rcpNum (neg : Bool) (m : Nat) (e : Int) : Num := .fin neg (2 ^ (ilog2 m + 64) / m) (-e - (ilog2 m + 64 : Nat))

/-- 1 / sqrt(m × 2^e) to 64 bits. -/
def rsqrtNum (m : Nat) (e : Int) : Num :=
  let m := if e % 2 = 0 then m else 2 * m
  let r := isqrt 160 (m * 2 ^ 256) 0
  .fin false (2 ^ (ilog2 r + 64) / r) (128 - e / 2 - (ilog2 r + 64 : Nat))

/-- `n` further bits of the logarithm to base 2 of `y` / 2^256, for `y` / 2^256 in [1, 2). -/
def log2Bits : Nat → Nat → Nat → Nat
  | 0, _, acc => acc
  | n + 1, y, acc =>
    let y := y * y / 2 ^ 256
    if 2 ^ 257 ≤ y then log2Bits n (y / 2) (2 * acc + 1) else log2Bits n y (2 * acc)

/-- log2(m × 2^e) to 200 bits after the point. -/
def log2Num (m : Nat) (e : Int) : Num :=
  let v : Int := ((ilog2 m : Int) + e) * 2 ^ 200 + log2Bits 200 (m * 2 ^ 256 / 2 ^ ilog2 m) 0
  .fin (v < 0) v.natAbs (-200)

/-- π as a fraction of 2^160, rounded down. -/
def piFixed : Nat := 0x3243f6a8885a308d313198a2e03707344a4093822

/-- The sum of the series of sine or cosine at `x` / 2^160: `t` is the term of degree `k`, and the signs alternate. -/
def trigSum : Nat → Int → Int → Nat → Int → Int
  | 0, _, _, _, acc => acc
  | n + 1, x, t, k, acc => trigSum n x (-(t * x / 2 ^ 160 * x / 2 ^ 160 / ((k + 1) * (k + 2)))) (k + 2) (acc + t)

/-- Sine (or cosine) of m × 2^e, for an operand of at most 100π in magnitude. -/
def trigNum (cosine neg : Bool) (m : Nat) (e : Int) : Num :=
  let x : Int := ((shiftCut m (e + 160)).1 % (2 * piFixed) : Nat)
  let v := if cosine then trigSum 40 x (2 ^ 160) 0 0 else trigSum 40 x x 1 0
  let v := if neg && !cosine then -v else v
  .fin (v < 0) v.natAbs (-160)

/-- The value that a transcendental of a finite operand has to meet, to more bits than its limit needs; `none` where R126
sets no limit (the reciprocal of 0, a root or logarithm of what is not positive, an angle beyond 100π). -/
def exactly (op : Nat) (neg : Bool) (m : Nat) (e : Int) : Option Num :=
  match op with
  | 0 => if m = 0 then none else some (rcpNum neg m e)
  | 1 => if m = 0 ∨ neg then none else some (rsqrtNum m e)
  | 2 => some (exp2Num neg m e)
  | 3 => if m = 0 ∨ neg then none else some (log2Num m e)
  | _ => if (shiftCut m (e + 160)).1 ≤ 100 * piFixed then some (trigNum (op = 5) neg m e) else none

/-- The distance of two finite numbers as a number n × 2^e. -/
def distance (n : Bool) (a : Nat) (d : Int) (k : Bool) (b : Nat) (c : Int) : Nat × Int :=
  let e := min d c
  let x : Int := a * 2 ^ (d - e).toNat
  let y : Int := b * 2 ^ (c - e).toNat
  (((if n then -x else x) - (if k then -y else y)).natAbs, e)

/-- n × 2^e is at most b × 2^d. -/
def scaledLe (n : Nat) (e : Int) (b : Nat) (d : Int) : Bool := n * 2 ^ (e - min e d).toNat ≤ b * 2 ^ (d - min e d).toNat

/-- The limit of an operation at the value m × 2^e: 1 ulp for the reciprocals, 2 ulp for exp2 and log2, 2^-21 for sine and
cosine, each with a margin of 2^-20 of an ulp, or of the limit, for the cut of `exactly`; as b × 2^d. -/
def limitOf (op m : Nat) (e : Int) : Nat × Int :=
  let ex : Int := max (if m = 0 then -126 else (ilog2 m : Int) + e) (-126)
  if op < 2 then (2 ^ 20 + 1, ex - 43) else if op < 4 then (2 ^ 21 + 1, ex - 43) else (2 ^ 20 + 1, -41)

/-- The FP32 number r meets the limit of the operation at the value v; an infinity does where v overflows within its
limit. -/
def meets (op r : Nat) (v : Num) : Bool :=
  match v, f32 r with
  | .fin n a d, .fin k b c =>
    let x := distance n a d k b c
    let l := limitOf op a d
    scaledLe x.1 x.2 l.1 l.2
  | .fin n a d, .inf k =>
    let x := distance false (2 ^ 24) 104 false a d
    let l := limitOf op a d
    n == k && (scaledLe (2 ^ 24) 104 a d || scaledLe x.1 x.2 l.1 l.2)
  | .inf n, .inf k => n == k
  | _, _ => false

/-- Transcendentals (05 R126): a free function of the operand, held to the limit that R126 sets; where the free value does
not meet it, the nearest number stands for it.  A NaN operand gives the canonical NaN, and sine and cosine of a finite
operand are finite. -/
def transcendental (op x : Nat) : Nat :=
  let r := Config.transcendental op x % 2 ^ 32
  match f32 x with
  | .nan => 0x7FC00000
  | .inf _ => canonF32 r
  | .fin neg m e =>
    match exactly op neg m e with
    | some v => if meets op r v then r else encodeFp fp32 v
    | none => if op = 4 ∨ op = 5 then (match f32 r with | .fin _ _ _ => r | _ => 0) else canonF32 r

/-! ### Integer operations (04 Table 4-12) -/

/-- Integer operations of the INT class; each has a 32-bit form and a 64-bit form on register pairs. -/
inductive IntOp where
  | add | sub | mulLo | mulHiU | mulHiS | mad | shl | shrU | shrS | rotl | and | or | xor | not | minU | minS | maxU
  | maxS | abs | popc | clz | bfeU | bfeS | bfi | sel
  deriving DecidableEq, Repr, Inhabited

/-- Comparisons to a predicate. -/
inductive Cmp where
  | eq | ne | lt | le | gt | ge
  deriving DecidableEq, Repr, Inhabited

/-- An index of an operation, for the free results. -/
def intOpIndex : IntOp → Nat
  | .shl => 1 | .shrU => 2 | .shrS => 3 | .abs => 4 | .bfeU => 5 | .bfeS => 6 | .bfi => 7 | _ => 0

/-- Count of leading zeros of a `w`-bit value. -/
def clz (w x : Nat) : Nat := if x % 2 ^ w = 0 then w else w - 1 - ilog2 (x % 2 ^ w)

/-- Bitwise combination of two `w`-bit values. -/
def bitwise (f : Bool → Bool → Bool) (w a b : Nat) : Nat :=
  maskOf ((List.range w).filter (fun i => f (bitAt a i) (bitAt b i)))

/-- The result of an integer operation of width `w` (32 or 64).  For SEL, `c` chooses.  For BFE, `b` holds the position
in [7:0] and the length in [15:8]; for BFI, `c` does, and `b` is inserted into `a`.  A result the spec does not state is
free. -/
def intOp (op : IntOp) (w a b c : Nat) : Nat :=
  let m := 2 ^ w
  let a := a % m
  let b := b % m
  let c := c % m
  let sa := signed a w
  let sb := signed b w
  let open' := Config.intOpen (intOpIndex op) w a b c % m
  match op with
  | .add => (a + b) % m
  | .sub => (a + m - b) % m
  | .mulLo => a * b % m
  | .mulHiU => a * b / m
  | .mulHiS => unsignedOf (sa * sb / (m : Int)) w
  | .mad => (a * b + c) % m
  | .shl => if b < w then a * 2 ^ b % m else open'
  | .shrU => if b < w then a / 2 ^ b else open'
  | .shrS => if b < w then unsignedOf (sa / ((2 ^ b : Nat) : Int)) w else open'
  | .rotl => let k := b % w; (a * 2 ^ k + a / 2 ^ (w - k)) % m
  | .and => Nat.land a b
  | .or => Nat.lor a b
  | .xor => Nat.xor a b
  | .not => m - 1 - a
  | .minU => min a b
  | .minS => if sa ≤ sb then a else b
  | .maxU => max a b
  | .maxS => if sa ≤ sb then b else a
  | .abs => if a = m / 2 then open' else sa.natAbs
  | .popc => popCount a w
  | .clz => clz w a
  | .bfeU => let p := b % 256; let n := b / 256 % 256
             if p + n ≤ w then a / 2 ^ p % 2 ^ n else open'
  | .bfeS => let p := b % 256; let n := b / 256 % 256
             if p + n ≤ w ∧ 0 < n then unsignedOf (signed (a / 2 ^ p) n) w else open'
  | .bfi => let p := c % 256; let n := c / 256 % 256
            if p + n ≤ w then a % 2 ^ p + b % 2 ^ n * 2 ^ p + a / 2 ^ (p + n) * 2 ^ (p + n) else open'
  | .sel => if c = 0 then b else a

/-- An integer comparison. -/
def intCmp (k : Cmp) (sgn : Bool) (w a b : Nat) : Bool :=
  let x : Int := if sgn then signed a w else (a % 2 ^ w : Nat)
  let y : Int := if sgn then signed b w else (b % 2 ^ w : Nat)
  match k with
  | .eq => x == y | .ne => x != y | .lt => x < y | .le => x ≤ y | .gt => y < x | .ge => y ≤ x

/-- FP operations of the FP class. -/
inductive FpOp where
  | add | mul | fma | min | max | abs | neg | rcp | rsqrt | exp2 | log2 | sin | cos | addB16 | mulB16 | fmaB16
  deriving DecidableEq, Repr, Inhabited

/-- The result of an FP operation. -/
def fpOp (op : FpOp) (a b c : Nat) : Nat :=
  match op with
  | .add => addF32 a b | .mul => mulF32 a b | .fma => fmaF32 a b c | .min => minF32 a b | .max => maxF32 a b
  | .abs => absF32 a | .neg => negF32 a
  | .rcp => transcendental 0 a | .rsqrt => transcendental 1 a | .exp2 => transcendental 2 a
  | .log2 => transcendental 3 a | .sin => transcendental 4 a | .cos => transcendental 5 a
  | .addB16 => addB16 a b | .mulB16 => mulB16 a b | .fmaB16 => fmaB16 a b c

/-- An FP32 comparison: a NaN compares unequal and unordered, as IEEE 754 has it. -/
def fpCmp (k : Cmp) (a b : Nat) : Bool :=
  let x := f32 a
  let y := f32 b
  let nan := x == .nan || y == .nan
  match k with
  | .eq => eqNum x y | .ne => nan || !eqNum x y
  | .lt => ltNum x y | .le => !nan && !ltNum y x | .gt => ltNum y x | .ge => !nan && !ltNum x y

end Sys2Proof.Machine
end

