-- ==== Sys2Proof/Machine/Matrix.lean ====
section
/-! DEFINITION. The windowed accumulator: tiles, MMA, anchors, export and wide partials (spec 05 R128–R148). -/
namespace Sys2Proof.Machine

/-- The tile of a core's accumulator store and its state (05 R134, Table 5-8). -/
structure Tile where
  /-- Element (m, n) at m × 64 + n, 128 bits; an unlisted element is 0. -/
  elems : Tab Nat := []
  anchor : Int := 0
  auto : Bool := true
  margin : Nat := 0
  pendingAnchor : Bool := true
  /-- A deferred ANCHOR setting: AUTO and the requested value (R139). -/
  next : Option (Bool × Int) := none
  count : Nat := 0
  inexact : Bool := false
  overflow : Bool := false
  invalid : Bool := false
  t2Bad : Bool := false
  mixed : Bool := false
  deriving DecidableEq, Repr, Inhabited

/-- SPARSE of an MMA. -/
inductive Sparsity where
  | dense | two4 | one4
  deriving DecidableEq, Repr, Inhabited

/-- SCALE of an MMA. -/
inductive Scaling where
  | none | mx32 | b16
  deriving DecidableEq, Repr, Inhabited

/-- The fields of an MMA (04 Table 4-6). -/
structure MmaForm where
  fmtA : Fmt := .int8
  fmtB : Fmt := .int8
  sparse : Sparsity := .dense
  zskip : Bool := false
  scale : Scaling := .none
  /-- SC is not VZ: a metadata block is named. -/
  hasMeta : Bool := false
  deriving DecidableEq, Repr, Inhabited

/-- The format pairs of 05 Table 5-5. -/
def pairDefined (a b : Fmt) : Bool :=
  let narrow : List Fmt := [.fp4e2m1, .fp6e2m3, .fp6e3m2]
  let fp8 : List Fmt := [.fp8e4m3, .fp8e5m2]
  (b == .t2 && [Fmt.int8, .fp8e4m3, .fp8e5m2, .fp4e2m1].contains a)
    || ([Fmt.int4, .int8].contains a && [Fmt.int4, .int8].contains b)
    || (narrow.contains a && narrow.contains b)
    || (fp8.contains a && (fp8.contains b || narrow.contains b))
    || (narrow.contains a && fp8.contains b)
    || (a == .bf16 && b == .bf16)

/-- The MMA is a defined operation (05 R129). -/
def mmaDefined (f : MmaForm) : Bool :=
  pairDefined f.fmtA f.fmtB && !(f.fmtA == .bf16 && f.scale != .none)
    && (f.hasMeta || (f.sparse == .dense && f.scale == .none && !f.zskip))

/-- Dense cycles of a pair (05 Table 5-5). -/
def denseCycles (a b : Fmt) : Nat :=
  if b = .t2 then 64
  else if a = .bf16 then 512
  else if fmtWidth a ≤ 6 ∧ fmtWidth b ≤ 6 then 128
  else 256

/-- Element `k` of a packed row of width `w` up to 32 (05 R123). -/
def packed (rd : Nat → Nat) (row w k : Nat) : Nat :=
  let bit := k * w
  let b := row + bit / 8
  bits (rd b + 256 * rd (b + 1) + 65536 * rd (b + 2) + if 16 < w then 2 ^ 24 * rd (b + 3) else 0) (bit % 8) w

/-- Stored values per column: 64, 32 or 16 (R132). -/
def storedPerColumn : Sparsity → Nat
  | .dense => 64 | .two4 => 32 | .one4 => 16

/-- The scale of row (or column) `r` at dense position `k`, from the scale area at `base` (R124, R131). -/
def scaleAt (rd : Nat → Nat) (sc : Scaling) (base r k : Nat) : Num :=
  match sc with
  | .none => .fin false 1 0
  | .mx32 => let e := rd (base + r * 2 + k / 32)
             if e = 255 then .nan else .fin false 1 ((e : Int) - 127)
  | .b16 => decodeFp ⟨4, 3, 7, 0x7E, none, some 0x7F⟩ (rd (base + r * 4 + k / 16))

/-- The dense position that stored value `i` of column `n` stands for (R132). -/
def densePos (rd : Nat → Nat) (md : Nat) (sp : Sparsity) (n i : Nat) : Nat :=
  let idx := fun base => rd (base + i / 4) / 4 ^ (i % 4) % 4
  match sp with
  | .dense => i
  | .two4 => 4 * (i / 2) + idx (md + 0x300 + n * 8)
  | .one4 => 4 * i + idx (md + 0x300 + n * 4)

/-- The operands of an MMA as it reads them: element and scale of A at (m, k), and of B at (n, stored i). -/
structure MmaOperands where
  a : Nat → Nat → Nat
  sa : Nat → Nat → Num
  b : Nat → Nat → Nat
  sb : Nat → Nat → Num
  pos : Nat → Nat → Nat
  present : Nat → Bool

/-- Read the operands: tiles at `pa`, `pb`, metadata at `md` (R128, R131–R133). -/
def mmaOperands (rd : Nat → Nat) (f : MmaForm) (pa pb md : Nat) : MmaOperands :=
  let wa := fmtWidth f.fmtA
  let wb := fmtWidth f.fmtB
  let per := storedPerColumn f.sparse
  { a := fun m k => packed rd (pa + m * 8 * wa) wa k
    sa := fun m k => scaleAt rd f.scale (md + 0x100) m k
    b := fun n i => packed rd (pb + n * (per * wb / 8)) wb i
    sb := fun n k => scaleAt rd f.scale (md + 0x200) n k
    pos := fun n i => densePos rd md f.sparse n i
    present := fun m => !f.zskip || bitAt (rd (md + m / 8)) (m % 8) }

/-- What the products of an MMA add up to and the flags they set. -/
structure Contribution where
  sum : Int := 0
  inexact : Bool := false
  overflow : Bool := false
  invalid : Bool := false
  deriving DecidableEq, Repr, Inhabited

/-- One truncated product (R135, R137). -/
def addProduct (anchor : Int) (p : Num) (c : Contribution) : Contribution :=
  match p with
  | .fin neg m e =>
    let (q, r, _) := shiftCut m (e - (anchor - 95))
    let big := 2 ^ 100 ≤ q
    let q' : Int := if big then 2 ^ 100 - 1 else q
    { c with sum := c.sum + (if neg then -q' else q'), inexact := c.inexact || r != 0, overflow := c.overflow || big }
  | _ => { c with invalid := true }

/-- A finite number, as a product factor: infinities and NaN make the product invalid (R137). -/
def finiteOr (x : Num) : Num := match x with | .inf _ => .nan | y => y

/-- The exact product of one position. -/
def productAt (f : MmaForm) (o : MmaOperands) (m n i : Nat) : Num :=
  let k := o.pos n i
  let a := mulNum (finiteOr (decodeNum f.fmtA (o.a m k))) (finiteOr (o.sa m k))
  let b := mulNum (finiteOr (decodeNum f.fmtB (o.b n i))) (finiteOr (o.sb n k))
  mulNum a b

/-- Element (m, n)'s contribution.  DESIGN CHOICE (05 R132, R137): products are formed for the stored values of B alone; a K position
that no index names gives none, so that an infinite or NaN activation there does not set INVALID. -/
def elementSum (anchor : Int) (f : MmaForm) (o : MmaOperands) (m n : Nat) : Contribution :=
  (List.range (storedPerColumn f.sparse)).foldl (fun c i => addProduct anchor (productAt f o m n i) c) {}

/-- The rows that are present. -/
def rowsPresent (o : MmaOperands) : List Nat := (List.range 64).filter o.present

/-- Row bands that are processed: Q of R130 (R133). -/
def bandsProcessed (o : MmaOperands) : Nat :=
  ((List.range 4).filter (fun b => (List.range 16).any (fun r => o.present (16 * b + r)))).length

/-- A B element holds the T2 code 0b10 and is read (R122): B is read for any row that is present, and by a pre-scan (R140). -/
def t2Met (f : MmaForm) (o : MmaOperands) (scan : Bool) : Bool :=
  f.fmtB == .t2 && (scan || !(rowsPresent o).isEmpty) &&
    (List.range 64).any (fun n => (List.range (storedPerColumn f.sparse)).any (fun i => o.b n i == 2))

/-- floor(log2 |x|) + 1 of a nonzero finite number. -/
def exponentOf : Num → Option Int
  | .fin _ m e => if m = 0 then none else some ((ilog2 m : Int) + e + 1)
  | _ => none

/-- The largest of optional exponents. -/
def maxExp (l : List (Option Int)) : Option Int :=
  l.foldl (fun b x => match b, x with
    | none, y => y
    | y, none => y
    | some u, some v => some (max u v)) none

/-- An element times its scale, left out when the element or scale is zero, infinite or NaN (R140). -/
def scanValue (x s : Num) : Option Int :=
  match exponentOf x, exponentOf s with
  | some _, some _ => exponentOf (mulNum x s)
  | _, _ => none

/-- The pre-scan of both tiles (R140). -/
def preScan (f : MmaForm) (o : MmaOperands) : Option (Int × Int) :=
  let ea := maxExp ((rowsPresent o).flatMap (fun m => (List.range 64).map (fun k =>
    scanValue (decodeNum f.fmtA (o.a m k)) (o.sa m k))))
  let eb := maxExp ((List.range 64).flatMap (fun n => (List.range (storedPerColumn f.sparse)).map (fun i =>
    scanValue (decodeNum f.fmtB (o.b n i)) (o.sb n (o.pos n i)))))
  match ea, eb with
  | some a, some b => some (a, b)
  | _, _ => none

/-- The signed value of a 128-bit element. -/
def elemInt (x : Nat) : Int := signed x 128

/-- COUNT after `k` more products, and OVERFLOW when it passes 2^27 (R136). -/
def addCount (t : Tile) (k : Nat) : Tile :=
  let c := satAdd 32 t.count k
  { t with count := c, overflow := t.overflow || 2 ^ 27 < c }

/-- Accumulate an MMA into the tile (R135–R137). -/
def accumulate (t : Tile) (f : MmaForm) (o : MmaOperands) : Tile :=
  let t := (rowsPresent o).foldl (fun t m => (List.range 64).foldl (fun t n =>
    let c := elementSum t.anchor f o m n
    let i := m * 64 + n
    { t with
      elems := if c.sum = 0 then t.elems
               else let v := unsignedOf (elemInt (tget t.elems i 0) + c.sum) 128
                    if v = 0 then tdel t.elems i else tset t.elems i v
      inexact := t.inexact || c.inexact, overflow := t.overflow || c.overflow, invalid := t.invalid || c.invalid }) t) t
  addCount t 64

/-- Does any product set INVALID (R137)? -/
def anyInvalid (f : MmaForm) (o : MmaOperands) : Bool :=
  (rowsPresent o).any (fun m => (List.range 64).any (fun n =>
    (List.range (storedPerColumn f.sparse)).any (fun i => productAt f o m n i == .nan)))

/-- MMA on a tile (R135–R140): a pending anchor is resolved first; when it cannot be, only INVALID and T2_BAD change. -/
def mma (t : Tile) (f : MmaForm) (o : MmaOperands) : Tile :=
  let bad := t.t2Bad || t2Met f o t.pendingAnchor
  if t.pendingAnchor then
    match preScan f o with
    | none => { t with invalid := t.invalid || anyInvalid f o, t2Bad := bad }
    | some (ea, eb) =>
      let t := { t with anchor := min 511 (ea + eb + t.margin), pendingAnchor := false }
      { accumulate t f o with t2Bad := bad }
  else { accumulate t f o with t2Bad := bad }

/-- Apply an anchor request (R139). -/
def applyAnchor (t : Tile) (r : Bool × Int) : Tile :=
  if r.1 then { t with auto := true, margin := (r.2 % 16).toNat, pendingAnchor := true }
  else { t with auto := false, anchor := r.2, pendingAnchor := false }

/-- ANCHOR with AUTO and the value of SA (R139). -/
def anchorTile (t : Tile) (auto : Bool) (sa : Nat) : Tile :=
  let r : Bool × Int := (auto, if auto then (sa % 16 : Nat) else signed sa 10)
  if t.count = 0 then applyAnchor t r else { t with next := some r }

/-- MZERO (R141). -/
def mzero (t : Tile) : Tile :=
  let t := { t with elems := [], count := 0, inexact := false, overflow := false, invalid := false, t2Bad := false,
                    mixed := false }
  let t := match t.next with
    | none => t
    | some r => { applyAnchor t r with next := none }
  if t.auto then { t with pendingAnchor := true } else t

/-! ### Export (R142–R145) -/

/-- 64-bit mixing step of R143. -/
def mix (z : Nat) : Nat :=
  let m := 2 ^ 64
  let z := Nat.xor z (z / 2 ^ 30) * 0xBF58476D1CE4E5B9 % m
  let z := Nat.xor z (z / 2 ^ 27) * 0x94D049BB133111EB % m
  Nat.xor z (z / 2 ^ 31)

/-- sr_bits of R143. -/
def srBits (seed x : Nat) (anchor : Int) (fmt m n : Nat) : Nat :=
  let k := Nat.lor (Nat.lor (m * 64 + n) (unsignedOf anchor 10 * 2 ^ 12)) (fmt * 2 ^ 22)
  let h := mix (Nat.xor (seed % 2 ^ 64) (mix (Nat.xor k (mix (Nat.xor (x % 2 ^ 64) (mix (x / 2 ^ 64)))))))
  h / 2 ^ 32

/-- Stochastic rounding of a cut value: up when D > R (R143). -/
def roundStochastic (r : Nat) (c : Nat × Nat × Nat) : Nat :=
  let (q, rem, k) := c
  if r < rem * 2 ^ 32 / 2 ^ k then q + 1 else q

/-- An element's export code and whether it met the range rule (R142, R143, Table 5-9). -/
def exportElem (t : Tile) (l : FpLayout) (fmt : Nat) (stochastic : Bool) (seed m n : Nat) : Nat × Bool :=
  let x := tget t.elems (m * 64 + n) 0
  if t.invalid then (l.nanCode.getD 0, false)
  else
    let v := elemInt x
    let pick := if stochastic then roundStochastic (srBits seed x t.anchor fmt m n) else roundNearest
    let c := magCode l v.natAbs (t.anchor - 95) pick
    if c ≤ l.maxCode then (if v = 0 then 0 else withSign l (v < 0) c, false)
    else (withSign l (v < 0) (l.infCode.getD l.maxCode), true)

/-- The 64-byte trailer (R144, Table 5-10). -/
def trailer (t : Tile) (range : Bool) (fmt : Nat) (stochastic : Bool) (wide : Bool) : Bytes :=
  leBytes 64 (unsignedOf t.anchor 16 + field (b2n t.inexact) 16 1 + field (b2n t.overflow) 17 1
    + field (b2n t.invalid) 18 1 + field (b2n t.t2Bad) 19 1 + field (b2n t.mixed) 20 1 + field (b2n range) 21 1
    + field (b2n t.pendingAnchor) 22 1 + field (b2n t.auto) 23 1 + field t.count 32 32 + field fmt 64 4
    + field (b2n stochastic) 68 1 + field (if wide then 0x10 else 0) 72 8)

/-- MEXPORT: the data bytes and trailer, and whether EXPORT_RANGE is set. -/
def exportTile (t : Tile) (f : Fmt) (l : FpLayout) (stochastic : Bool) (seed : Nat) : Bytes × Bool :=
  let es := (List.range 4096).map (fun i => exportElem t l (fmtCode f) stochastic seed (i / 64) (i % 64))
  let range := es.any (·.2)
  (es.flatMap (fun e => leBytes (fmtWidth f / 8) e.1) ++ trailer t range (fmtCode f) stochastic false, range)

/-- MEXPORT.WIDE: 65,536 bytes and the trailer (R145). -/
def exportWide (t : Tile) : Bytes :=
  (List.range 4096).flatMap (fun i => leBytes 16 (tget t.elems i 0)) ++ trailer t false 0xF false true

/-! ### Joining wide partials (R146) -/

/-- A wide partial read back from its bytes. -/
def parseWide (b : Bytes) : Tile :=
  let tr := b.drop 65536
  let g := fun i => bbits tr i 1 == 1
  { elems := (List.range 4096).filterMap (fun i => let v := leAt b (16 * i) 16; if v = 0 then none else some (i, v))
    anchor := signed (leAt tr 0 2) 16, inexact := g 16, overflow := g 17, invalid := g 18, t2Bad := g 19, mixed := g 20
    pendingAnchor := g 22, auto := g 23, count := leAt tr 4 4 }

/-- Divide by 2^d, truncating toward zero; the flag says whether bits were lost. -/
def truncShift (v : Int) (d : Nat) : Int × Bool :=
  let q : Int := (v.natAbs / 2 ^ d : Nat)
  (if v < 0 then -q else q, v.natAbs % 2 ^ d != 0)

/-- Rescale a partial to a larger anchor. -/
def rescale (t : Tile) (anchor : Int) : Tile :=
  if t.pendingAnchor ∨ anchor ≤ t.anchor then { t with anchor := anchor }
  else
    let d := (anchor - t.anchor).toNat
    let l := t.elems.map (fun e => (e.1, truncShift (elemInt e.2) d))
    { t with
      elems := l.filterMap (fun e => if e.2.1 = 0 then none else some (e.1, unsignedOf e.2.1 128))
      anchor := anchor, mixed := true, inexact := t.inexact || l.any (fun e => e.2.2) }

/-- Join two partials already at one anchor.  DESIGN CHOICE (05 R146 does not say): the joined MODE is AUTO only when both are. -/
def joinTwo (a b : Tile) : Tile :=
  let es := b.elems.foldl (fun t e =>
    let v := (tget t e.1 0 + e.2) % 2 ^ 128
    if v = 0 then tdel t e.1 else tset t e.1 v) a.elems
  addCount { a with
    elems := es, inexact := a.inexact || b.inexact, overflow := a.overflow || b.overflow
    invalid := a.invalid || b.invalid, t2Bad := a.t2Bad || b.t2Bad, mixed := a.mixed || b.mixed
    pendingAnchor := a.pendingAnchor && b.pendingAnchor, auto := a.auto && b.auto } b.count

/-- Join wide partials: the largest anchor among those that are not pending (R146).  DESIGN CHOICE (05 R146 does not say): with
every partial pending, the anchor is the first partial's. -/
def joinWide (l : List Tile) : Tile :=
  let anchors := (l.filter (fun t => !t.pendingAnchor)).map (·.anchor)
  let big := match anchors with
    | [] => (l.head?.map (·.anchor)).getD 0
    | a :: r => r.foldl max a
  match l.map (fun t => rescale t big) with
  | [] => {}
  | t :: r => r.foldl joinTwo t

end Sys2Proof.Machine
end

