-- ==== Sys2Proof/Machine/StAttic.lean ====
section
/-! DEFINITION. State of the attic ports and of the coherence directories (spec 12). -/
namespace Sys2Proof.Machine

/-- ATTIC_STATUS.STATE. -/
inductive AtticState where
  | absent | training | up | retraining | down
  deriving DecidableEq, Repr, Inhabited

/-- A request message of a die (12 Table 12-4) with its byte mask and data. -/
structure AtpMsg where
  opcode : Nat := 0
  txn : Nat := 0
  len : Nat := 0
  status : Nat := 0
  urgency : Nat := 0
  host : Bool := false
  address : Nat := 0
  pasid : Nat := 0
  scope : Nat := 0
  order : Nat := 0
  aop : Nat := 0
  atype : Nat := 0
  mask : Nat := 0
  data : Bytes := []
  deriving DecidableEq, Repr, Inhabited

/-- What a die offers in DIE_CAP (12 Table 12-3). -/
structure DieCap where
  version : Nat := 0
  cxl : Bool := false
  caching : Bool := false
  staticPriority : Bool := false
  executor : Bool := false
  preempt : Bool := false
  urgency : Bool := false
  windowLog2 : Nat := 0
  maxOutstanding : Nat := 0
  powerMax : Nat := 0
  dieEpoch : Nat := 0
  dieId : Nat := 0
  deriving DecidableEq, Repr, Inhabited

/-- One module of a site (ATTIC_LANES). -/
structure AtticLanes where
  width : Nat := 0
  spares : Nat := 0
  /-- The data lanes found failed in this session, one bit each. -/
  failed : Nat := 0
  repaired : Nat := 0
  deriving DecidableEq, Repr, Inhabited

/-- A request of the hub to a die's window, by the transaction it serves. -/
structure WindowReq where
  opcode : Nat := 0
  address : Nat := 0
  /-- The transaction of a master port, or none when it has been absorbed. -/
  txn : Option Nat := none
  /-- The thread that an ATOMIC_WIN serves. -/
  lane : Nat := 0
  /-- The line is held for an atomic that the port performs (R337). -/
  holds : Bool := false
  deriving DecidableEq, Repr, Inhabited

/-- A part dispatched to a die: step slot and part index, and whether its budget or a cancel asked it to stop. -/
structure AtticPart where
  step : Nat := 0
  part : Nat := 0
  stopping : Bool := false
  deriving DecidableEq, Repr, Inhabited

/-- One attic site, by logical number. -/
structure Site where
  astate : AtticState := .absent
  present : Bool := false
  modulesUp : Nat := 0
  modulesHalf : Nat := 0
  lastReason : Nat := 0
  attempts : Nat := 0
  dieEpoch : Nat := 0
  cap : DieCap := {}
  rate : Nat := 0
  lanes : Tab AtticLanes := []
  protocolErrors : Nat := 0
  powerOver : Nat := 0
  portResets : Nat := 0
  /-- UP once in this boot session (R311); absent for good when a detect failed before. -/
  everUp : Bool := false
  unfitted : Bool := false
  linkA : Bool := false
  linkB : Bool := false
  /-- The bring-up follows a port reset, so that LANE_MAP is exchanged (R332). -/
  afterReset : Bool := false
  disagreements : Nat := 0
  /-- The maps of this attempt agree (R332), and the die's map of the last disagreement: per module WIDTH and failed lanes. -/
  lanesAgreed : Bool := false
  laneMerge : List (Nat × Nat) := []
  windowReqs : Tab WindowReq := []
  /-- Messages that wait for a retrain, in arrival order, each with what the host answers to a read of its memory. -/
  held : List (AtpMsg × Fetch) := []
  /-- Outstanding die requests still to be answered that wait on a peg. -/
  pegWaits : List Nat := []
  parts : List AtticPart := []
  urgency : Nat := 0
  /-- Consecutive reports over grant, and within it; the budget is halved (R327); a report came in this strum. -/
  surplus : Nat := 0
  within : Nat := 0
  halved : Bool := false
  reported : Bool := true
  deriving DecidableEq, Repr, Inhabited

/-- A directory entry (12 R319), by line (HPA / 128). -/
structure DirEntry where
  owner : Option Nat := none
  sharers : Nat := 0
  /-- Halves of the line that each site holds, 2 bits a site: 3 for a native die (R336). -/
  halves : Nat := 0
  /-- Allocation order. -/
  order : Nat := 0
  deriving DecidableEq, Repr, Inhabited

/-- A snoop under way on a line: who owes an answer, as site + 8 × h (h 0 for the line, 1 or 2 for a half of it), whether it
invalidates, and the transaction it is for, to which the line stays reserved when the answers are in (R319). -/
structure Snoop where
  sites : List Nat := []
  inval : Bool := true
  txn : Option Nat := none
  deriving DecidableEq, Repr, Inhabited

/-- The attic ports. -/
structure AtticSt where
  sites : Tab Site := []
  dir : Tab DirEntry := []
  snoops : Tab Snoop := []
  recalls : Tab Nat := []
  dirOrder : Nat := 0
  deriving DecidableEq, Repr, Inhabited

end Sys2Proof.Machine
end

