-- ==== Sys2Proof/Machine/StChord.lean ====
section
/-! DEFINITION. State of the Chord link layer, transport and messages (spec 14, 15 R426–R428). -/
namespace Sys2Proof.Machine

/-- CHORD_LL_STATUS.STATE. -/
inductive LlState where
  | closed | cap | keying | opened | mismatch
  deriving DecidableEq, Repr, Inhabited

/-- A packet header (14 Table 14-5) and its payload bytes as they travel. -/
structure Packet where
  version : Nat := 0x10
  ptype : Nat := 0
  vc : Nat := 0
  reserved : Bool := false
  ordered : Bool := true
  first : Bool := true
  last : Bool := true
  zsupp : Bool := false
  retx : Bool := false
  hops : Nat := 4
  timeOk : Bool := false
  opinfo : Nat := 0
  src : Nat := 0
  dst : Nat := 0
  tag : Nat := 0
  psn : Nat := 0
  ackFloor : Nat := 0
  epoch : Nat := 0
  msg : Nat := 0
  offset : Nat := 0
  zmask : Nat := 0
  pmask : Nat := 0
  txTime : Nat := 0
  addr : Nat := 0
  payload : Bytes := []
  /-- In Ethernet mode the association header's ASSOC_ID, and whether the GCM tag verifies (14 R384). -/
  assoc : Nat := 0
  tagOk : Bool := true
  /-- Its COUNTER and PATH, and whether a received datagram names this device, has no extension header and passes the UDP
  checksum (14 R383, R385). -/
  counter : Nat := 0
  path : Nat := 0
  datagramOk : Bool := true
  deriving DecidableEq, Repr, Inhabited

/-- An AES-256-GCM key and its salt (14 R374). -/
structure LinkKey where
  key : Nat := 0
  salt : Nat := 0
  deriving DecidableEq, Repr, Inhabited

/-- A flit in the retry buffer: its FLIT_COUNT, its ciphertext and its tag. -/
structure SentFlit where
  count : Nat := 0
  cipher : Bytes := []
  tag : Nat := 0
  deriving DecidableEq, Repr, Inhabited

/-- A packet in a receive buffer that is not placed yet: its peer entry and PSN, its channel and credits, and the
transactions that place it, none while it waits its turn (14 R375, R408). -/
structure RxPacket where
  peer : Nat := 0
  psn : Nat := 0
  vc : Nat := 0
  credits : Nat := 0
  txns : List Nat := []
  deriving DecidableEq, Repr, Inhabited

/-- The link layer of one engine. -/
structure LinkLayer where
  llstate : LlState := .closed
  replays : Nat := 0
  authFails : Nat := 0
  /-- Partner's NODE_ID from LL_CAP. -/
  partner : Nat := 0
  /-- The partner's packets carry TIME_OK (02 R53). -/
  timeOk : Bool := true
  helloIn : Bool := false
  /-- Flits sent, where the present key began, and the next FLIT_COUNT expected. -/
  txCount : Nat := 0
  txBase : Nat := 0
  rxNext : Nat := 0
  /-- The oldest flit not acknowledged, and how often it was replayed. -/
  txAcked : Nat := 0
  replayed : Nat := 0
  nakOwed : Bool := false
  ackOwed : Bool := false
  /-- Flits that the partner has not acknowledged, oldest first (R376). -/
  retry : List SentFlit := []
  /-- The secret S and the key of each direction: all zero until the exchange completes; this device has the lower NODE_ID;
  and the number of its KEY_HELLO (R374, 15 R426). -/
  txSecret : Nat := 0
  rxSecret : Nat := 0
  txKey : LinkKey := {}
  rxKey : LinkKey := {}
  lower : Bool := false
  hello : Nat := 0
  /-- The count at which updated keys take over, in each direction. -/
  switchTx : Option Nat := none
  switchRx : Option Nat := none
  /-- Packets in the receive buffers that are not placed yet (14 R375). -/
  rx : List RxPacket := []
  /-- Credits returned to the partner and by it, per VC, modulo 2^16, and credits used. -/
  credOut : Tab Nat := []
  credIn : Tab Nat := []
  credUsed : Tab Nat := []
  /-- INIT datagrams answered in the millisecond that began at `initAt` (15 R428). -/
  inits : Nat := 0
  initAt : Nat := 0
  fretOverrun : Nat := 0
  demoted : Nat := 0
  bank : Nat := 0
  /-- What its partner advertised: (node, hops, advertisements missed since). -/
  learned : List (Nat × Nat × Nat) := []
  /-- Bytes parked for faulting GET destinations (R400). -/
  parked : Nat := 0
  deriving DecidableEq, Repr, Inhabited

/-- A route (CHORD_ROUTE). -/
structure Route where
  node : Nat := 0
  engines : Nat := 0
  hops : Nat := 0
  deriving DecidableEq, Repr, Inhabited

/-- A peer window (14 Table 14-9). -/
structure PeerWindow where
  noWrite : Bool := false
  eth : Bool := false
  part : Nat := 0
  lengthM1 : Nat := 0
  node : Nat := 0
  remoteBase : Nat := 0
  ipv6 : Nat := 0
  deriving DecidableEq, Repr, Inhabited

/-- What an outstanding message of the hub serves. -/
inductive MsgClient where
  | mover (cellar step part : Nat)
  /-- A transaction of a core or another master. -/
  | txn (id : Nat)
  | stepPart (step part : Nat)
  | coll (cellar step part : Nat)
  | none
  deriving DecidableEq, Repr, Inhabited

/-- A message the hub has sent and that has not completed. -/
structure Message where
  ptype : Nat := 0
  client : MsgClient := .none
  window : Option Nat := none
  addr : Nat := 0
  bytes : Nat := 0
  /-- Where read data go. -/
  local_ : Nat := 0
  packets : List Packet := []
  got : Nat := 0
  retransmitted : Nat := 0
  suppressed : Nat := 0
  /-- Its packets go out in the frets reserved for it (R407). -/
  reserved : Bool := false
  /-- Packets of it that the shares of its frets have taken. -/
  handed : Nat := 0
  /-- It waits for a BUSY backoff, of so many units (R392). -/
  backoff : Nat := 0
  waiting : Bool := false
  deriving DecidableEq, Repr, Inhabited

/-- A message from a peer that is not complete yet. -/
structure Incoming where
  ptype : Nat := 0
  addr : Nat := 0
  bytes : Nat := 0
  total : Option Nat := none
  opinfo : Nat := 0
  /-- Bytes of a collective's segment, and the offsets of its poisoned blocks. -/
  data : Tab Byte := []
  bad : List Nat := []
  /-- A GET destination fault or a PUT source fault holds it. -/
  held : Bool := false
  refused : Bool := false
  deriving DecidableEq, Repr, Inhabited

/-- A packet sent and not acknowledged. -/
structure Sent where
  psn : Nat := 0
  msg : Nat := 0
  bytes : Nat := 0
  engine : Nat := 0
  at_ : Nat := 0
  reserved : Bool := false
  /-- Flits that its engine had sent with its last one: while fewer are acknowledged it sits in the retry buffer (R390). -/
  flit : Nat := 0
  /-- Packets sent after it and acknowledged (R390). -/
  passed : Nat := 0
  packet : Packet := {}
  deriving DecidableEq, Repr, Inhabited

/-- A peer entry (14 R386). -/
structure Peer where
  node : Nat := 0
  part : Nat := 0
  epoch : Nat := 0
  remote : Option Nat := none
  nextPsn : Nat := 0
  sent : List Sent := []
  /-- Packets that wait to be sent: for the window, a route or an association (R384, R391). -/
  queue : List Packet := []
  /-- Start of the receive window, and PSNs received at or above it. -/
  rxBase : Nat := 0
  rxSet : List Nat := []
  ackOwed : Nat := 0
  echo : Nat := 0
  delay : Nat := 0xFFFFFFFF
  cwnd : Nat := 262144
  base : Option Nat := none
  /-- When `base` was last reset (R391). -/
  baseAt : Nat := 0
  srtt : Nat := 0
  rttvar : Nat := 0
  lastCut : Nat := 0
  nextMsg : Nat := 0
  messages : Tab Message := []
  incoming : Tab Incoming := []
  /-- Datagrams and packets sent: PATH takes the next of 64 values, and the paths take turns (R385). -/
  path : Nat := 0
  unreachable : Bool := false
  lastTraffic : Nat := 0
  eth : Bool := false
  ipv6 : Nat := 0
  deriving DecidableEq, Repr, Inhabited

/-- State of an Ethernet association (15 R428). -/
inductive AssocState where
  | none | initSent | respSent | up
  deriving DecidableEq, Repr, Inhabited

/-- An Ethernet security association, by its own ASSOC_ID. -/
structure Assoc where
  ipv6 : Nat := 0
  astate : AssocState := .none
  remoteId : Nat := 0
  counter : Nat := 0
  /-- The keys of its two directions (R384). -/
  txKey : LinkKey := {}
  rxKey : LinkKey := {}
  tries : Nat := 0
  renewing : Bool := false
  /-- An association that was renewed is accepted until then. -/
  validTo : Option Nat := none
  deriving DecidableEq, Repr, Inhabited

/-- A posted collective (14 R402), by COLL_ID. -/
structure Collective where
  cellar : Nat := 0
  step : Nat := 0
  part : Nat := 0
  allreduce : Bool := true
  elem : Nat := 0
  length : Nat := 0
  src : Nat := 0
  dst : Nat := 0
  scratch : Nat := 0
  nodes : List Nat := []
  rank : Nat := 0
  hash : Nat := 0
  window : List Nat := []
  /-- Poison came in with a segment. -/
  poison : Bool := false
  /-- Segments received: (sender rank, step). -/
  received : List (Nat × Nat) := []
  /-- Own segments whose DONE is still due. -/
  outstanding : Nat := 0
  deriving DecidableEq, Repr, Inhabited

/-- Chord transport. -/
structure ChordSt where
  node : Nat := 0
  lls : Tab LinkLayer := []
  noTag : Nat := 0
  badVersion : Nat := 0
  hopsExpired : Nat := 0
  noRoute : Nat := 0
  evictions : Nat := 0
  createWaits : Nat := 0
  /-- Admission tags by partition × 4 + slot, with the SEND mark. -/
  tags : Tab (Nat × Bool) := []
  windows : Tab PeerWindow := []
  /-- PEER_WINDOW_CLEARs that drain: COMMIT_SEQ to (window, messages still to end, messages ended). -/
  clears : Tab (Nat × List (Nat × Nat) × Nat) := []
  routes : Tab Route := []
  peers : Tab Peer := []
  assocs : Tab Assoc := []
  colls : Tab Collective := []
  deriving DecidableEq, Repr, Inhabited

end Sys2Proof.Machine
end

