-- ==== Sys2Proof/Machine/StCells.lean ====
section
/-! DEFINITION. State of the cellars: cores, thread groups, pegs, core stores and cellar buffers (spec 04, 05, 07). -/
namespace Sys2Proof.Machine

/-- Scope of an atomic, a fence or a peg operation (04 Table 4-6). -/
inductive Scope where
  | thread | group | core | cellar | device | system
  deriving DecidableEq, Repr, Inhabited

/-- ORDER (04 Table 4-6). -/
inductive Order where
  | relaxed | acquire | release | acqRel
  deriving DecidableEq, Repr, Inhabited

/-- A cache line, at either level (07 Table 7-1).  Masks and data are by byte of the line. -/
structure CacheLine where
  /-- The line address x = HPA[47:7]. -/
  line : Nat := 0
  age : Nat := 0
  stream : Bool := false
  /-- Bytes that are valid and bytes that are dirty, 128-bit masks. -/
  valid : Nat := 0
  dirty : Nat := 0
  data : Tab Byte := []
  /-- Poisoned 32-byte sectors, 4 bits. -/
  poison : Nat := 0
  deriving DecidableEq, Repr, Inhabited

/-- What a thread waits for (04, Progress and scheduling). -/
inductive Wait where
  /-- At JOIN of a slot. -/
  | join (slot : Nat)
  /-- At a cross-lane or vote instruction, for the members of a mask. -/
  | gather (mask : Nat)
  /-- At MREGION.BEGIN: gathered or gathering, for the members of a mask. -/
  | regionBegin (mask : Nat)
  /-- At a matrix instruction or MREGION.END. -/
  | matrix
  /-- On a peg. -/
  | peg (id : Nat)
  /-- For a release to complete. -/
  | release (id : Nat)
  deriving DecidableEq, Repr, Inhabited

/-- A matrix region a group holds (04 R116). -/
structure MRegion where
  /-- Word addresses of BEGIN and END. -/
  first : Nat := 0
  last : Nat := 0
  entry : Nat := 0
  deriving DecidableEq, Repr, Inhabited

/-- A resident thread group (04 R94–R98). -/
structure Group where
  /-- Registers: v_r of thread t at r × 64 + t; unlisted 0. -/
  regs : Tab Nat := []
  /-- Predicates p0–p6: a 64-bit mask of threads each; unlisted 0. -/
  preds : Tab Nat := []
  /-- Program counters by thread, in words; unlisted: `entry`. -/
  pcs : Tab Nat := []
  entry : Nat := 0
  exited : Nat := 0
  waits : Tab Wait := []
  /-- Join slots that are not empty. -/
  joins : Tab Nat := []
  region : Option MRegion := none
  /-- By program counter: how often in a row a runnable subset there has been passed over (04 R96). -/
  passed : Tab Nat := []
  deriving DecidableEq, Repr, Inhabited

/-- A load or atomic whose data have not reached the registers (04 R93). -/
structure LoadRec where
  group : Nat := 0
  dst : Nat := 0
  bytes : Nat := 0
  /-- (thread, address) of each active thread. -/
  threads : List (Nat × Nat) := []
  streaming : Bool := false
  /-- What it still waits for: core fills by number, lines of the register space as HPA / 128, or an atomic's transactions. -/
  need : List Nat := []
  /-- Bytes gathered so far, by HPA. -/
  got : Tab Byte := []
  poison : Bool := false
  /-- Values an atomic returns instead of memory bytes: (thread, value), and the CAS successes. -/
  values : List (Nat × Nat) := []
  wins : List Nat := []
  /-- A CAS writes its outcome to this predicate; 7 discards. -/
  pdst : Nat := 7
  /-- DST receives the old values of an atomic. -/
  ret : Bool := true
  /-- The access error that ended it, as an error code. -/
  error : Option Nat := none
  errAddr : Nat := 0
  acquire : Option Scope := none
  deriving DecidableEq, Repr, Inhabited

/-- A release walk under way (07 R200): the transactions home has not acknowledged. -/
structure Release where
  core : Nat := 0
  group : Nat := 0
  threads : Nat := 0
  scope : Scope := .device
  txns : List Nat := []
  /-- Home has acknowledged: the instruction is issued again and finds its release done. -/
  done : Bool := false
  deriving DecidableEq, Repr, Inhabited

/-- A fill on its way to a core store: the line's bytes, or their absence. -/
structure Fill where
  line : Nat := 0
  /-- Until it is ready, what the next level held of the line as it was asked; then the line as it came, under those bytes. -/
  data : Tab Byte := []
  valid : Nat := 0
  poison : Nat := 0
  streaming : Bool := false
  /-- Not to be installed, and joined by no later access (07 R201, R207). -/
  suppress : Bool := false
  /-- A CLEAN met the fill: clean the line after the install (07 Table 7-5). -/
  cleanAfter : Bool := false
  /-- The fill has arrived from home (a cellar fill whose transaction has returned). -/
  ready : Bool := false
  /-- A cellar's fill: the core fills that it serves, as (core, fill). -/
  waiters : List (Nat × Nat) := []
  deriving DecidableEq, Repr, Inhabited

/-- One core. -/
structure Core where
  scratchUnits : Nat := 0
  disabledWays : Nat := 0
  failingWays : Nat := 0
  /-- Core-store cache lines, by way × 128 + set. -/
  lines : Tab CacheLine := []
  /-- Scratch bytes written since the step started; other bytes are zero, or free when `stamp` is set (07 R192). -/
  scratch : Tab Byte := []
  stamp : Option Nat := none
  scratchPoison : List Nat := []
  tile : Tile := {}
  tileOwner : Option Nat := none
  /-- Groups that have gathered at MREGION.BEGIN and wait for the accumulator store, in order (04 R116). -/
  regionQueue : List Nat := []
  groups : Tab Group := []
  /-- INEXACT, OVERFLOW, INVALID, T2_BAD, MIXED_ANCHOR, EXPORT_RANGE in bits 0–5 (05 R147). -/
  flags : Nat := 0
  /-- The step that holds the core. -/
  step : Option Nat := none
  /-- The core has stopped issuing: overrun, error or reset (02 R37). -/
  stopped : Bool := false
  /-- The preemption image is being written (02 R39). -/
  saving : Bool := false
  /-- The writes home that a save waits for. -/
  saveWrites : List Nat := []
  resetting : Bool := false
  /-- Steps that the reset under way stopped (16 Table 16-8). -/
  stepsEnded : Nat := 0
  loads : Tab LoadRec := []
  /-- Fills in flight, by number. -/
  fills : Tab Fill := []
  /-- The last kernel register count A and image, of the step's kernel. -/
  alloc : Nat := 0
  /-- Releases under way. -/
  releases : Tab Release := []
  deriving DecidableEq, Repr, Inhabited

/-- TYPE of a peg (04 Table 4-9). -/
inductive PegType where
  | none | barrier | semaphore | event
  deriving DecidableEq, Repr, Inhabited

/-- Who waits on a peg, in order of arrival (04 R107). -/
structure Waiter where
  /-- A thread of a core's group, or an attic die's PEG_OP by its TXN. -/
  core : Nat := 0
  group : Nat := 0
  threads : List Nat := []
  attic : Option (Nat × Nat) := none
  sb : Nat := 0
  pdst : Nat := 7
  acquire : Option Scope := none
  deriving DecidableEq, Repr, Inhabited

/-- One peg (04 Table 4-9). -/
structure Peg where
  ptype : PegType := .none
  count : Nat := 0
  target : Nat := 0
  generation : Nat := 0
  waiters : List Waiter := []
  deriving DecidableEq, Repr, Inhabited

/-- A sequential-store tracker (07 R198). -/
structure Tracker where
  line : Nat := 0
  advances : Nat := 0
  /-- Order of last progress: the lowest has gone longest without. -/
  stampOrder : Nat := 0
  deriving DecidableEq, Repr, Inhabited

/-- A cache or scratch bank of a cellar buffer (CB_BANK_STATUS). -/
structure Bank where
  disabledWays : Nat := 0
  failingWays : Nat := 0
  off : Bool := false
  deriving DecidableEq, Repr, Inhabited

/-- A write-through region comparator (07 R199, 19 CB_WT_REGION). -/
structure WtRegion where
  enable : Bool := false
  base : Nat := 0
  granulesM1 : Nat := 0
  deriving DecidableEq, Repr, Inhabited

/-- One cellar. -/
structure Cellar where
  /-- S_b (CB_CONFIG.SCRATCH_BANKS). -/
  scratchBanks : Nat := 16
  lockedWays : Nat := 0
  banks : Tab Bank := []
  /-- Cache lines by (bank × 16 + way) × 256 + set. -/
  lines : Tab CacheLine := []
  /-- Victim filter, by x[10:0], holding x[22:11] (07 R197). -/
  filter : Tab Nat := []
  trackers : Tab Tracker := []
  trackerClock : Nat := 0
  /-- Fills in flight, by number. -/
  fills : Tab Fill := []
  /-- Cellar epoch (16 R467). -/
  epoch : Nat := 0
  resetting : Bool := false
  stepsEnded : Nat := 0
  /-- S_b the next plan names, to take effect at fret 1 (07 R194). -/
  nextScratch : Option Nat := none
  deriving DecidableEq, Repr, Inhabited

/-- Cores, cellars and pegs. -/
structure CellsSt where
  cores : Tab Core := []
  cellars : Tab Cellar := []
  pegs : Tab Peg := []
  wtRegions : Tab WtRegion := []
  /-- The next number of a load, release or transaction. -/
  nextId : Nat := 1
  deriving DecidableEq, Repr, Inhabited

end Sys2Proof.Machine
end

