-- ==== Sys2Proof/Machine/StMem.lean ====
section
/-! DEFINITION. State of the memories: bytes, poison, write-combining buffers, shelves, far-tier decoders, and the
transactions on their way to a home (spec 08, 10). -/
namespace Sys2Proof.Machine

/-- An entry of a write-combining buffer (08 R219): a line (HPA / 128) and its masked bytes by offset. -/
structure WcbEntry where
  line : Nat := 0
  bytes : Tab Byte := []
  /-- Poisoned 64-byte halves among the buffered bytes, 2 bits. -/
  poison : Nat := 0
  /-- Its flush is outstanding: it holds no place in the buffer any more, and its bytes still lie over memory (R221). -/
  flushing : Bool := false
  deriving DecidableEq, Repr, Inhabited

/-- Spare rows of a bank (SHELF_SPARE counts a channel's). -/
structure Spare where
  softFree : Nat := 0
  hardFree : Nat := 0
  softUsed : Nat := 0
  hardQueued : Nat := 0
  deriving DecidableEq, Repr, Inhabited

/-- A soft repair in progress: its row, and whether CP firmware follows it with a HARD request (08 R228, 17 R481). -/
structure RepairJob where
  row : Nat := 0
  byCp : Bool := false
  deriving DecidableEq, Repr, Inhabited

/-- One shelf, by logical number. -/
structure Shelf where
  integrity : Bool := true
  rowBits : Nat := 0
  banksLog2 : Nat := 0
  sids : Nat := 0
  chDown : Nat := 0
  /-- Channels held for a retrain (08 R218). -/
  held : Nat := 0
  /-- The range is unmapped until a shelf woken from OFF is zeroed (18 R498). -/
  zeroing : Bool := false
  /-- Write-combining entries, oldest first. -/
  wcb : List WcbEntry := []
  corrected : Nat := 0
  uncorrected : Nat := 0
  repairBusy : Bool := false
  repairDone : Bool := false
  repairResult : Nat := 0
  repairRejected : Nat := 0
  repairRow : Nat := 0
  job : Option RepairJob := none
  /-- Spare rows by bank (bits 31:18 of a ROW_ID), and those of every bank that is not listed. -/
  spares : Tab Spare := []
  fitted : Spare := {}
  deriving DecidableEq, Repr, Inhabited

/-- An HDM decoder of a far-tier port (08 R232). -/
structure FarDecoder where
  enable : Bool := false
  iw2 : Bool := false
  device : Nat := 0
  integrity : Bool := true
  failed : Bool := false
  /-- In 256 MiB units. -/
  base : Nat := 0
  size : Nat := 0
  dpaBase : Nat := 0
  /-- The range is unmapped until its zeroing ends (16 R441). -/
  zeroing : Bool := false
  deriving DecidableEq, Repr, Inhabited

/-- A far-tier port. -/
structure FarPort where
  gts : Nat := 0
  width : Nat := 0
  bifurcated : Bool := false
  devicesUp : Nat := 0
  wcb : List WcbEntry := []
  decoders : Tab FarDecoder := []
  deriving DecidableEq, Repr, Inhabited

/-- What a transaction asks of its home. -/
inductive TxnKind where
  | read | narrow | write | atomic | peg
  deriving DecidableEq, Repr, Inhabited

/-- Operation and type of an atomic (04 Table 4-5, 4-6). -/
inductive AtomOp where
  | add | min | max | and | or | xor | exch | cas | inc
  deriving DecidableEq, Repr, Inhabited

/-- TYPE of an atomic. -/
inductive AtomType where
  | u32 | s32 | u64 | s64 | f32 | bf16x2
  deriving DecidableEq, Repr, Inhabited

/-- One thread's part of an atomic: thread, address, operand, swap value. -/
structure AtomLane where
  thread : Nat := 0
  addr : Nat := 0
  sb : Nat := 0
  sc : Nat := 0
  deriving DecidableEq, Repr, Inhabited

/-- Whom the completion of a transaction serves. -/
inductive Client where
  /-- A fill of a cellar's line. -/
  | cellarFill (cellar line : Nat)
  /-- An uncached read or a read from a scratch or core-store window for a core's load. -/
  | coreLoad (core load : Nat)
  /-- A write-back of a release walk of a core. -/
  | writeBack (core release : Nat)
  /-- A store or eviction nothing waits for. -/
  | none
  /-- An atomic of a core. -/
  | coreAtomic (core load : Nat)
  /-- A mover's read or write of an attic or peer window: step and part. -/
  | moverRead (cellar step part : Nat)
  | moverWrite (cellar step part : Nat)
  /-- An access to an attic window that a peer's message asks for: peer entry, message, offset of the data. -/
  | chord (peer msg offset : Nat)
  /-- A die's access to another site's or a peer's window: site, TXN_ID. -/
  | die (site txn : Nat)
  /-- A WB_DIRTY or EVICT_CLEAN of a die: site, TXN_ID; its home takes the site out of the directory (12 R319). -/
  | dieBack (site txn : Nat)
  /-- A read of the register block for the threads of a core's load that name its address. -/
  | coreReg (core load : Nat)
  /-- A read of the host through BAR2, by its number, and a posted write. -/
  | hostRead (read : Nat)
  | hostWrite
  deriving DecidableEq, Repr, Inhabited

/-- Where a transaction is. -/
inductive TxnPhase where
  /-- Queued at its master port. -/
  | waiting
  /-- Granted, on its way to its home. -/
  | issued
  /-- Held at a shelf's ingress by its regulator, a held channel or bank, or at a far-tier port by the limit of its device. -/
  | shelfHeld
  /-- Applied at home; the completion is on its way back. -/
  | done
  deriving DecidableEq, Repr, Inhabited

/-- What a die's read does to the directory (12 Table 12-7). -/
inductive DirAct where
  | none | shared | own
  deriving DecidableEq, Repr, Inhabited

/-- A transaction of a master port (10 R272). -/
structure Txn where
  master : Nat := 0
  kind : TxnKind := .read
  hpa : Nat := 0
  bytes : Nat := 128
  /-- Bytes to write, by offset from `hpa`, and the poisoned 32-byte sectors among them. -/
  data : Tab Byte := []
  poison : Nat := 0
  atom : Option (AtomOp × AtomType) := none
  lanes : List AtomLane := []
  dir : DirAct := .none
  units : Nat := 1
  /-- Firewall tag: partition, 16 HOST, 17 DEVICE. -/
  tag : Nat := 0
  phase : TxnPhase := .waiting
  client : Client := .none
  /-- Cellar epoch and core marks at issue (16 R467). -/
  epoch : Nat := 0
  /-- It has waited past MISS_THRESHOLD once, for its port and for its shelf (10 R286). -/
  missed : Bool := false
  shelfMissed : Bool := false
  /-- Under guarantee at its arrival, at its port and at its shelf (10 R286). -/
  underPort : Bool := false
  underShelf : Bool := false
  /-- Charged units of its port and of its shelf regulator. -/
  charged : Bool := false
  shelfCharged : Option Nat := none
  result : Tab Byte := []
  resultPoison : Nat := 0
  values : List (Nat × Nat) := []
  /-- Threads whose CAS succeeded. -/
  wins : List Nat := []
  error : Option Nat := none
  /-- It ended without its effect: a failed home or a lost flit absorbed it (17 Table 17-2, 04 R115). -/
  absorbed : Bool := false
  /-- Its NoC header flit was discarded (17 Table 17-2). -/
  lost : Bool := false
  /-- The peer entry and message, or the die's TXN, that carries it beyond the hub. -/
  remote : Option (Nat × Nat) := none
  /-- Order of arrival at its home. -/
  arrived : Nat := 0
  /-- Its target queue has accepted it: it takes part in no arbitration any more (10 R275, R286). -/
  accepted : Bool := false
  /-- Part of a reserved transfer that a Chord receive path carries in its fret (10 R278). -/
  reserved : Bool := false
  /-- Core whose access it serves, if any (16 R467: dropped when the core or cellar was reset). -/
  core : Option Nat := none
  deriving DecidableEq, Repr, Inhabited

/-- A read of the host through BAR2 that has not completed (08 R239). -/
structure HostRead where
  /-- Bus address, HPA and length. -/
  bus : Nat := 0
  hpa : Nat := 0
  bytes : Nat := 0
  /-- Posted writes before it that are not at home yet, and its own line reads. -/
  after : List Nat := []
  lines : List Nat := []
  data : Tab Byte := []
  /-- Poisoned 32-byte units, as HPA / 32. -/
  bad : List Nat := []
  /-- A line of it was refused at its home. -/
  unsupported : Bool := false
  deriving DecidableEq, Repr, Inhabited

/-- The memories. -/
structure MemSt where
  /-- Bytes of shelves, far tier and scratch windows by HPA; an unlisted byte is zero. -/
  bytes : List Host.Cell := []
  /-- Poisoned 32-byte units, as HPA / 32, rising. -/
  poison : Tab Unit := []
  shelves : Tab Shelf := []
  far : Tab FarPort := []
  txns : Tab Txn := []
  /-- The host's reads under way, and its register writes from a doorbell on that follows posted writes not at home yet:
  offset, size, value (08 R239). -/
  hostReads : Tab HostRead := []
  heldDoorbells : List (Nat × Nat × Nat) := []
  deriving DecidableEq, Repr, Inhabited

end Sys2Proof.Machine
end

