-- ==== Sys2Proof/Syntax.lean ====
section
/-! DEFINITION. The commands of the hub, one constructor per row of the table, with the operands each row carries. -/
namespace Sys2Proof

open Machine

/-! ### Operands of kernel instructions (spec 04) -/

/-- Which core and group issue an instruction, from which word address, and its guard (04 Table 4-3). -/
structure Issue where
  core : Nat := 0
  group : Nat := 0
  pc : Nat := 0
  pneg : Bool := false
  pred : Nat := 7
  deriving DecidableEq, Repr, Inhabited

/-- The MOD fields of a SHFL (04 Table 4-6). -/
structure ShflForm where
  imm : Option Nat := none
  seg : Nat := 6
  deriving DecidableEq, Repr, Inhabited

/-- The MOD fields of an atomic. -/
structure AtomForm where
  atype : AtomType := .u32
  scope : Scope := .device
  ret : Bool := false
  order : Order := .relaxed
  pdst : Nat := 7
  deriving DecidableEq, Repr, Inhabited

/-- The MOD fields of a peg operation. -/
structure PegForm where
  once : Bool := false
  scope : Scope := .device
  order : Order := .relaxed
  pdst : Nat := 7
  deriving DecidableEq, Repr, Inhabited

/-- An INT-class operation: a result in DST, or a comparison to predicate DST[2:0]. -/
inductive IntForm where
  | op (o : IntOp)
  | cmp (k : Cmp) (sgn : Bool)
  deriving DecidableEq, Repr, Inhabited

/-- An FP-class operation. -/
inductive FpForm where
  | op (o : FpOp)
  | cmp (k : Cmp)
  deriving DecidableEq, Repr, Inhabited

/-- MOV of a register, or MOVI (04 Table 4-12). -/
inductive MovSrc where
  | reg (sa : Nat)
  | imm (x : Nat)
  deriving DecidableEq, Repr, Inhabited

/-- Special registers (04 Table 4-13). -/
inductive SpecialReg where
  | thread | group | core | cellar | strum | fret | stepArg
  deriving DecidableEq, Repr, Inhabited

/-- A load or store: bytes per thread, offset, streaming hint, and the scope of an ACQUIRE or RELEASE. -/
structure MemForm where
  bytes : Nat := 4
  offset : Int := 0
  streaming : Bool := false
  ordered : Option Scope := none
  deriving DecidableEq, Repr, Inhabited

/-! ### Operands of the other commands -/

/-- Which cache a fill arrives at (07 R207). -/
inductive FillAt where
  | cellar (cellar line : Nat)
  | core (core line : Nat)
  deriving DecidableEq, Repr, Inhabited

/-- Which memory home a command names. -/
inductive Home where
  | shelf (n : Nat)
  | far (p : Nat)
  deriving DecidableEq, Repr, Inhabited

/-- Verdicts on a kernel image (16 R457): its signature under SIGNER_KEY, and whether its words of the INT, FP, CVT, MEM and SPECIAL
classes, for whose operations the spec gives no codes, are defined instructions (04 R95). -/
structure ImageInput where
  sigOk : Bool := true
  codeOk : Bool := true
  deriving DecidableEq, Repr, Inhabited

/-- Outcome of the SE's work on a MODEL_BIND (15 R431): the plaintext of each range, or what failed. -/
inductive SeOutcome where
  | ok (plain : List Bytes)
  | digest
  | notInRoster
  | unwrap
  | tag (range chunk : Nat)
  deriving DecidableEq, Repr, Inhabited

/-- How a page-table entry read ends (11 R292, R295). -/
inductive EntryRead where
  | data (x : Nat)
  | failed
  deriving DecidableEq, Repr, Inhabited

/-- An alignment marker as it arrives (13 Table 13-4).  Where `line` holds the codewords received, as PAM4 symbols, the
marker is decoded from them at the position `pos`; where it is empty the fields are those of the decoded marker. -/
structure Marker where
  lane : Nat := 0
  good : Bool := true
  offset : Nat := 0
  rate : Nat := 2
  laneState : Nat := 1
  rxMask : Nat := 0
  txMask : Nat := 0
  time : Option TimeWord := none
  line : List (List Int) := []
  pos : Nat := 0
  /-- Time-base units since the first bit of the marker entered the SerDes (02 R44). -/
  age : Nat := 0
  /-- Skew against the earliest lane, in nanoseconds; correctable codewords since the CDR locked. -/
  skew : Nat := 0
  codewords : Nat := 64
  /-- Codewords uncorrectable, and symbols corrected, in the interval. -/
  uncorrected : Nat := 0
  corrected : Nat := 0
  deriving DecidableEq, Repr, Inhabited

/-- A flit as it arrives (14 Table 14-2, 14-3). -/
structure FlitIn where
  count : Nat := 0
  errored : Bool := false
  tagOk : Bool := true
  ack : Nat := 0
  nak : Bool := false
  cred : List Nat := [0, 0, 0, 0]
  /-- Packets in it of a TYPE that Table 14-6 does not list, or of an unknown VERSION major. -/
  badPackets : Nat := 0
  deriving DecidableEq, Repr, Inhabited

/-- LL_CAP of a partner (14 R371). -/
structure LlCap where
  node : Nat := 0
  ll : Nat := 0x10
  tp : Nat := 0x10
  deriving DecidableEq, Repr, Inhabited

/-- Verdicts on a partner's key exchange message (15 R426). -/
structure KeyVerdict where
  certOk : Bool := true
  lifecycleOk : Bool := true
  sigOk : Bool := true
  deriving DecidableEq, Repr, Inhabited

/-- A transport acknowledgement (14 Table 14-8). -/
structure AckIn where
  cum : Nat := 0
  sack : Nat := 0
  echo : Nat := 0
  delay : Nat := 0xFFFFFFFF
  hold : Bool := false
  deriving DecidableEq, Repr, Inhabited

/-- An SPDM message on a transport (0 host DOE, 1 MCTP) with what its check found (15 R433). -/
structure SpdmIn where
  transport : Nat := 0
  version : Nat := 0x13
  ok : Bool := true
  mutualAuth : Bool := false
  /-- Slot or index asked for, and a caller's nonce. -/
  param : Nat := 0
  deriving DecidableEq, Repr, Inhabited

/-- What an error of an SRAM structure hits (17 Tables 17-1 and 17-2); `sectors` marks the 32-byte sectors of a line that
hold a failing word. -/
inductive SramUnit where
  /-- Register file, accumulator store or instruction store of a core. -/
  | coreControl (core : Nat)
  | coreLine (core way set sectors : Nat)
  | coreTag (core way set : Nat)
  | coreScratch (core off : Nat)
  | cellarLine (cellar bank way set sectors : Nat)
  | cellarTag (cellar bank way set : Nat)
  | cellarScratch (cellar off : Nat)
  /-- Mover buffers, peg state and other control structures of a cellar. -/
  | cellarControl (cellar : Nat)
  | directory (quadrant line : Nat)
  | nocHeader (txn : Nat)
  | nocData (txn sector : Nat)
  deriving DecidableEq, Repr, Inhabited

/-- What a patrol-scrub read looks at (17 Table 17-9). -/
inductive ScrubAt where
  | memory (hpa : Nat)
  | sram (u : SramUnit)
  deriving DecidableEq, Repr, Inhabited

/-- A request over the host's configuration space (08 R237). -/
inductive ConfigWrite where
  | bar0 (base : Nat)
  | bar2 (base : Nat)
  | bar2Size (log2 : Nat)
  | dState (d3hot : Bool)
  | atomicEnable (on : Bool)
  | busMaster (on : Bool)
  | ide (link : Bool) (selective : Nat)
  /-- The HDM decoder of the CXL endpoint: its base on the bus, and its commit. -/
  | hdm (base : Nat) (on : Bool)
  /-- Status bits of Advanced Error Reporting that are cleared: Unsupported Request, poisoned TLP. -/
  | aerClear (unsupported poisoned : Bool)
  deriving DecidableEq, Repr, Inhabited

/-- A lane map as a die sends it (12 R332): per module WIDTH, FAILED lanes mask, in order of modules. -/
structure LaneMapIn where
  modules : List (Nat × Nat) := []
  deriving DecidableEq, Repr, Inhabited

/-- The result of a lane test and parameter exchange of a site: per module the failed-lane mask, and the rate. -/
structure LaneTest where
  failed : List Nat := [0, 0, 0, 0, 0, 0, 0, 0]
  rate : Nat := 32
  deriving DecidableEq, Repr, Inhabited

/-- A command: one constructor for each row of the opcode table, with the row's operands.  A row that acts on the command in
a channel names the channel, `c`; an input that only the outside knows, such as what a read of host memory returns or how a
check of a signature ends, is an operand too. -/
inductive Instr where
  -- 03: mailboxes, the control processor, event queues
  | doorbellPost (m : Nat)
  | doorbellAbort (m : Nat)
  | doorbellRelease (m : Nat)
  | doorbellIgnoredAction (m action : Nat)
  | cpTakeMailbox (inp : TakeInput)
  | hello (c : Nat)
  | eqCreate (c : Nat)
  | eqDestroy (c : Nat)
  | eqDestroyDrained (seq : Nat)
  -- 15: partitions
  | partitionCreate (c : Nat)
  | partitionTransitionDone (p : Nat)
  | partitionDestroy (c : Nat)
  | partitionDestroyDone (p : Nat)
  | partitionReset (c : Nat)
  | partitionQuery (c : Nat) (wb : WriteBack)
  | partitionPolicySet (c : Nat)
  -- 16: images; 15: models
  | imageLoad (c : Nat) (inp : ImageInput)
  | imageChunkBitmap (image core bitmap : Nat)
  | coreDigestCheckDone (image core : Nat) (ok : Bool)
  | modelBind (c : Nat)
  | modelBindSeDone (seq : Nat) (r : SeOutcome)
  | modelUnbind (c : Nat)
  -- 09: sequences and steps
  | seqOpen (c : Nat)
  | seqClose (c : Nat)
  | seqCloseComplete (entry : Nat)
  | stepSubmit (c : Nat)
  -- 11: host translation
  | mapHost (c : Nat)
  | unmapHost (c : Nat)
  | unmapHostDrained (seq : Nat)
  | faultRespond (c : Nat)
  -- 14: peer windows; 13: links
  | peerWindowSet (c : Nat)
  | peerWindowClear (c : Nat)
  | peerWindowClearDrained (seq : Nat)
  | peerAdmitSet (c : Nat)
  | linkQuery (c : Nat)
  | linkRetrain (c : Nat)
  | linkModeSet (c : Nat)
  -- 10, 02, 18, 15, 16: the other mailbox commands
  | qosSet (c : Nat)
  | timeQuery (c : Nat)
  | timePeriodSet (c : Nat)
  | timeRoleSet (c : Nat)
  | timeBackgroundSet (c : Nat)
  | powerQuery (c : Nat)
  | powerCapSet (c : Nat)
  | powerDomainSet (c : Nat)
  | attest (c : Nat) (ok : Bool) (wb : WriteBack)
  | fwStage (c : Nat) (image : FwImage)
  | fwActivate (c : Nat)
  | fwActivateSwitch
  | eqConsumerWrite (q index : Nat) (arm : Bool)
  | msixTableWrite (v word value : Nat)
  -- 08: shelf repair
  | shelfRepairSoft (shelf row : Nat)
  | softRepairDone (shelf : Nat) (bad : List Nat)
  | shelfRepairHard (shelf row : Nat)
  | shelfRepairCancelHard (shelf row : Nat)
  -- 16: limited change
  | lcVariant (sigOk : Bool)
  | lcLifecycle (sigOk : Bool)
  | lcAntiRollback (sigOk : Bool)
  | lcAtticRepairMap (sigOk : Bool)
  | lcAtticProfile (sigOk : Bool)
  -- registers, BAR2, the management port
  | pwrCmpWrite (k value : Nat)
  | registerWrite (addr size value : Nat)
  | bar2Access (kind : TlpKind) (addr : Nat) (data : Bytes)
  | mbRequest (msg : Bytes)
  | eventAck (seq : Nat)
  | regRead (addr size : Nat)
  | regWrite (addr size value : Nat)
  | deviceReset (inp : StartInput)
  -- 15: SPDM
  | getVersion (m : SpdmIn)
  | getCapabilities (m : SpdmIn)
  | negotiateAlgorithms (m : SpdmIn)
  | getDigests (m : SpdmIn)
  | getCertificate (m : SpdmIn)
  | challenge (m : SpdmIn)
  | getMeasurements (m : SpdmIn)
  | keyExchange (m : SpdmIn)
  | finish (m : SpdmIn)
  | spdmKeyUpdate (m : SpdmIn)
  | spdmHeartbeat (m : SpdmIn)
  | endSession (m : SpdmIn)
  -- 18: MCTP and PLDM
  | setEndpointId (eid : Nat)
  | pldmSensorRead (id : Nat)
  | updateComponent (image : FwImage)
  | activateFirmware
  -- 04, 05: kernel instructions
  | nop (i : Issue)
  | bra (i : Issue) (offset : Int)
  | brx (i : Issue) (sa : Nat) (offset : Int) (table : List Int)
  | split (i : Issue) (slot : Nat)
  | join (i : Issue) (slot : Nat)
  | exit (i : Issue)
  | yield (i : Issue)
  | shflIdx (i : Issue) (f : ShflForm) (dst sa sb sc : Nat)
  | shflUp (i : Issue) (f : ShflForm) (dst sa sb sc : Nat)
  | shflDown (i : Issue) (f : ShflForm) (dst sa sb sc : Nat)
  | shflXor (i : Issue) (f : ShflForm) (dst sa sb sc : Nat)
  | voteAll (i : Issue) (dst pin : Nat) (inv : Bool) (sc : Nat)
  | voteAny (i : Issue) (dst pin : Nat) (inv : Bool) (sc : Nat)
  | voteBallot (i : Issue) (dst pin : Nat) (inv : Bool) (sc : Nat)
  | match32 (i : Issue) (dst sa sc : Nat)
  | match64 (i : Issue) (dst sa sc : Nat)
  | atomAdd (i : Issue) (f : AtomForm) (dst sa sb : Nat)
  | atomMin (i : Issue) (f : AtomForm) (dst sa sb : Nat)
  | atomMax (i : Issue) (f : AtomForm) (dst sa sb : Nat)
  | atomAnd (i : Issue) (f : AtomForm) (dst sa sb : Nat)
  | atomOr (i : Issue) (f : AtomForm) (dst sa sb : Nat)
  | atomXor (i : Issue) (f : AtomForm) (dst sa sb : Nat)
  | atomExch (i : Issue) (f : AtomForm) (dst sa sb : Nat)
  | atomCas (i : Issue) (f : AtomForm) (dst sa sb sc : Nat)
  | atomInc (i : Issue) (f : AtomForm) (dst sa sb : Nat)
  | pegArrive (i : Issue) (f : PegForm) (dst sa sb : Nat)
  | pegWait (i : Issue) (f : PegForm) (sa sb : Nat)
  | pegSignal (i : Issue) (f : PegForm) (dst sa sb : Nat)
  | pegReset (i : Issue) (f : PegForm) (sa : Nat)
  | pegRead (i : Issue) (f : PegForm) (dst sa : Nat)
  | fence (i : Issue) (scope : Scope) (order : Order)
  | releaseWritebackAcked (core release : Nat)
  | mregionBegin (i : Issue) (sc endOffset : Nat)
  | mregionEnd (i : Issue)
  | mzero (i : Issue)
  | anchor (i : Issue) (sa : Nat) (auto : Bool)
  | mma (i : Issue) (f : MmaForm) (sa sb sc : Nat)
  | mexport (i : Issue) (fmt : Fmt) (stochastic : Bool) (sa : Nat)
  | mexportWide (i : Issue) (sa : Nat)
  | intOp (i : Issue) (f : IntForm) (wide : Bool) (dst sa sb sc : Nat)
  | fpOp (i : Issue) (f : FpForm) (dst sa sb sc : Nat)
  | cvt (i : Issue) (src dst : Fmt) (rd ra se de : Nat)
  | ld (i : Issue) (f : MemForm) (dst sa : Nat)
  | st (i : Issue) (f : MemForm) (sa sb : Nat)
  | mov (i : Issue) (dst : Nat) (src : MovSrc)
  | specialRead (i : Issue) (dst : Nat) (sr : SpecialReg)
  | loadDataReturn (core load : Nat)
  -- 07: caches
  | cacheFillArrival (at_ : FillAt)
  | trackerIdleTimeout (cellar tracker : Nat)
  -- 02, 09: strums, steps, pages
  | strumBoundary
  | fretEdge
  | preemptSaveDone (core : Nat)
  | stepComplete (slot : Nat)
  | pageMoveLand (src : Nat)
  | pageZeroingDone (page : Nat)
  -- movers
  | copy (cellar job : Nat) (host : Fetch)
  | fill (cellar job : Nat)
  | compress (cellar job : Nat) (host : Fetch)
  | decompress (cellar job : Nat) (host : Fetch)
  | gather (cellar job : Nat) (host : Fetch)
  | clean (cellar job : Nat)
  | inval (cellar job : Nat)
  | cleanInval (cellar job : Nat)
  | wayLock (cellar job : Nat)
  | wayUnlock (cellar job : Nat)
  | put (cellar job : Nat) (host : Fetch)
  | get (cellar job : Nat)
  | signal (cellar job : Nat)
  | allreduce (cellar job : Nat)
  | alltoall (cellar job : Nat)
  | moverDescriptorDone (cellar job : Nat)
  | collectiveTimeout (id : Nat)
  | routeDispatched (slot part : Nat)
  | combine (slot part : Nat)
  -- 08, 10: memories and regulators
  | shelfAccess (txn : Nat) (lo hi : Ecc)
  | farTierAccess (txn : Nat) (lo hi : Ecc)
  | wcbAgeFlush (home : Home) (line : Nat) (lo hi : Ecc)
  | farDeviceFailed (port device : Nat)
  | shelfChannelRetrain (shelf channel : Nat)
  | shelfChannelRetrained (shelf channel : Nat) (ok : Bool)
  | masterPortIssue (master : Nat)
  | transactionCompletionReturn (txn : Nat)
  | guaranteeMiss (txn : Nat) (atShelf : Bool) (cycles : Nat)
  -- 11: walks and faults
  | walkEntryRead (walk : Nat) (r : EntryRead)
  | adUpdateCasReturn (walk : Nat) (ok : Bool)
  | faultTimeout (entry : Nat)
  | unmapFlushReadDone (use : Nat)
  | eqCoalesceTimer (q : Nat)
  | eqRecordWrite (q : Nat) (ok : Bool)
  -- 12: attic ports
  | rdShared (site : Nat) (m : AtpMsg)
  | rdOwn (site : Nat) (m : AtpMsg)
  | rdNc (site : Nat) (m : AtpMsg) (host : Fetch)
  | wrNc (site : Nat) (m : AtpMsg)
  | wbDirty (site : Nat) (m : AtpMsg)
  | evictClean (site : Nat) (m : AtpMsg)
  | atpAtomic (site : Nat) (m : AtpMsg)
  | pegOp (site : Nat) (m : AtpMsg)
  | atpStepDone (site : Nat) (m : AtpMsg)
  | stepSaved (site : Nat) (m : AtpMsg)
  | powerReport (site value : Nat)
  | urgency (site : Nat) (m : AtpMsg)
  | snpRsp (site : Nat) (m : AtpMsg)
  | atpRsp (site : Nat) (m : AtpMsg)
  | dieCap (site : Nat) (cap : DieCap) (test : LaneTest)
  | laneMap (site : Nat) (m : LaneMapIn) (test : LaneTest)
  | heartbeat (site epoch : Nat)
  | resetReq (site : Nat)
  | atticSidebandTimeout (site : Nat)
  | atticLinkDown (site : Nat) (linkB : Bool)
  | dieHeartbeatTimeout (site : Nat)
  | dieCreditTimeout (site : Nat)
  | dieSnoopTimeout (site : Nat)
  | dieStepTimeout (site slot : Nat)
  -- 13: Chord links
  | markerReceived (engine : Nat) (m : Marker)
  | laneLoss (engine lane reason : Nat)
  | trainingTimeout (engine : Nat)
  | ethPortLaneLoss (engine lane : Nat)
  | timeWordTimeout (engine : Nat)
  | holdoverTimeout
  | ptpMessage (engine : Nat) (m : PtpIn) (domain : Nat)
  -- 14: link layer
  | flit (engine : Nat) (f : FlitIn)
  | replayTimeout (engine : Nat)
  | flitKeepalive (engine : Nat)
  | llCap (engine : Nat) (c : LlCap)
  | keyHello (engine node : Nat) (v : KeyVerdict)
  | keyFinish (engine : Nat) (v : KeyVerdict)
  | keyUpdate (engine count : Nat)
  | keyUpdateTrigger (engine : Nat)
  | routeAdv (engine : Nat) (nodes : List (Nat × Nat))
  | routeAgeOut (engine node : Nat)
  | forward (engine : Nat) (p : Packet)
  -- 14: messages
  | chordWrite (engine : Nat) (p : Packet)
  | readReq (engine : Nat) (p : Packet)
  | readRsp (engine : Nat) (p : Packet)
  | chordAtomic (engine : Nat) (p : Packet)
  | atomicRsp (engine : Nat) (p : Packet)
  | chordPeg (engine : Nat) (p : Packet)
  | done (engine : Nat) (p : Packet)
  | step (engine : Nat) (p : Packet)
  | stepCancel (engine : Nat) (p : Packet)
  | stepDone (engine : Nat) (p : Packet)
  | coll (engine : Nat) (p : Packet)
  | ack (engine : Nat) (p : Packet) (a : AckIn)
  | nack (engine : Nat) (p : Packet)
  | ackTimer (peer : Nat)
  | retransmissionTimeout (peer psn : Nat)
  | busyBackoffExpiry (peer msg : Nat)
  | peerUnreachable (peer : Nat)
  | unreachableEnd (peer : Nat)
  -- Ethernet associations
  | init (engine ipv6 remoteId : Nat) (v : KeyVerdict)
  | resp (engine assoc remoteId : Nat) (v : KeyVerdict)
  | confirm (engine assoc : Nat) (v : KeyVerdict)
  | handshakeRetry (assoc : Nat)
  | associationRenewal (assoc : Nat)
  | neighbourSolicitation (engine port target : Nat)
  | echoRequest (engine port target : Nat)
  -- 16: start, resets
  | coldReset (inp : StartInput)
  | hostLinkTimeout
  | farZeroingDone (port decoder : Nat)
  | hostPerst (inp : StartInput)
  | functionLevelReset (inp : StartInput)
  | cpWatchdog (inp : StartInput)
  | coreHang (core : Nat)
  | sramUncorrectable (u : SramUnit)
  | retestDone (cellar : Nat) (core : Option Nat) (ok : Bool)
  -- 17: buckets and scrub
  | leakyBucketLeak (kind : Nat) (unit sub : Nat)
  | scrubRead (at_ : ScrubAt) (ecc : Ecc) (endsSegment : Bool)
  | scrubSegmentDue (structure_ : Nat)
  -- 18: power
  | powerDomainEntryDone (d : Nat)
  | powerDomainOn (d : Nat) (ok : Bool)
  | shelfZeroingDone (shelf : Nat)
  | cpIdleTimeout
  | smbusAddressMatch
  | i3cAddressMatch
  | comparatorAssert (k value : Nat)
  -- 20: pins
  | railFault (rail : Nat)
  | vddAtticFault (site : Nat)
  | thermalTrip (sensor value : Nat)
  | coldResetAssert
  | sensorsCooled (inp : StartInput)
  | vddAtticGood (site : Nat)
  | comparatorDeassert (k value : Nat)
  | cdrLocked (engine lane : Nat)
  | hostConfigWrite (w : ConfigWrite)
  | hostLinkUp (l : HostLink)
  | nocHeaderFlitTimeout (txn : Nat)
  | fwStageDone (ok : Bool)
  | modelUnbindDone (model : Nat)
  | fuseProgrammingDone (ok : Bool)
  | dieCapTimeout (site : Nat)
  | atticLinkUp (site : Nat) (linkB : Bool)
  | sgmiiLinkChange (up : Bool)
  deriving DecidableEq, Repr, Inhabited

end Sys2Proof
end

