-- ==== Sys2Proof/Machine/LineCode.lean ====
section
/-! DEFINITION. Native line coding and the alignment marker: 66-bit blocks, the scrambler, RS(272,264), PAM4 and the
marker's fields (spec 13 R342–R349; 02 Table 2-6; 14 R372); the code of a stored sector (17 R473, R474). -/
namespace Sys2Proof.Machine

/-! ### Blocks (R342) -/

/-- A block of a lane: its 2-bit sync header and its 64 payload bits. -/
structure Block where
  sync : Nat := 1
  payload : Nat := 0
  deriving DecidableEq, Repr, Inhabited

def syncData := 1
def syncControl := 2

/-- The other two sync headers are invalid. -/
def blockOk (b : Block) : Bool := b.sync == syncData || b.sync == syncControl

/-- The 66 bits of a block, the first bit sent as bit 0. -/
def blockBits (b : Block) : Nat := b.sync % 4 + 4 * (b.payload % 2 ^ 64)

/-- The block that 66 bits hold. -/
def blockOf (w : Nat) : Block := ⟨w % 4, w / 4 % 2 ^ 64⟩

/-- The IDLE control block (14 R372). -/
def idleBlock : Block := ⟨syncControl, 0⟩

/-- The blocks of a flit: its header block, 128 blocks of ciphertext, two of the tag (14 Table 14-2). -/
def flitBlocks (fseq cipher tag : Nat) : List Block :=
  ⟨syncControl, 0x01 + field fseq 8 16⟩ :: (List.range 128).map (fun k => ⟨syncData, bits cipher (64 * k) 64⟩)
    ++ (List.range 2).map (fun k => ⟨syncData, bits tag (64 * k) 64⟩)

/-- The lane that takes block `i` of an interval under a TX_MASK (R353). -/
def blockLane (mask i : Nat) : Option Nat :=
  let l := maskBits mask 16
  l[i % l.length]?

/-! ### The scrambler x^58 + x^39 + 1 (R343).  Its state is the last 58 scrambled bits, the latest as bit 0. -/

def scrambleTap (st : Nat) : Nat := (st / 2 ^ 38 + st / 2 ^ 57) % 2

/-- Scramble the low `n` bits of a payload, bit 0 first: the scrambled bits and the state after them. -/
def scrambleBits : Nat → Nat → Nat → Nat × Nat
  | 0, st, _ => (0, st)
  | n + 1, st, p =>
    let o := (p + scrambleTap st) % 2
    let r := scrambleBits n ((2 * st + o) % 2 ^ 58) (p / 2)
    (o + 2 * r.1, r.2)

/-- Descramble the low `n` bits. -/
def descrambleBits : Nat → Nat → Nat → Nat × Nat
  | 0, st, _ => (0, st)
  | n + 1, st, p =>
    let r := descrambleBits n ((2 * st + p % 2) % 2 ^ 58) (p / 2)
    ((p + scrambleTap st) % 2 + 2 * r.1, r.2)

/-- Blocks of a lane through the scrambler; a marker block, marked true, bypasses it and leaves its state. -/
def scrambleBlocks : Nat → List (Block × Bool) → List Block × Nat
  | st, [] => ([], st)
  | st, (b, mark) :: r =>
    let (p, st') := if mark then (b.payload, st) else scrambleBits 64 st b.payload
    let (l, e) := scrambleBlocks st' r
    ({ b with payload := p } :: l, e)

/-- The same on the way in. -/
def descrambleBlocks : Nat → List (Block × Bool) → List Block × Nat
  | st, [] => ([], st)
  | st, (b, mark) :: r =>
    let (p, st') := if mark then (b.payload, st) else descrambleBits 64 st b.payload
    let (l, e) := descrambleBlocks st' r
    ({ b with payload := p } :: l, e)

/-! ### Reed–Solomon codes (R344; 17 R473).  A polynomial is the list of its coefficients; a codeword lists the highest power
first, in the order sent. -/

/-- A field GF(2^width), by its field polynomial. -/
structure Field2 where
  width : Nat
  poly : Nat

/-- GF(2^10) with x^10 + x^3 + 1 (R344). -/
def linkField : Field2 := ⟨10, 0x409⟩

/-- GF(2^8) with x^8 + x^4 + x^3 + x^2 + 1 (17 R473). -/
def sectorField : Field2 := ⟨8, 0x11D⟩

/-- The elements that are not 0. -/
def gfOrder (f : Field2) : Nat := 2 ^ f.width - 1

def gfDouble (f : Field2) (a : Nat) : Nat := if 2 * a < 2 ^ f.width then 2 * a else Nat.xor (2 * a) f.poly

def gfMulBits (f : Field2) : Nat → Nat → Nat → Nat
  | 0, _, _ => 0
  | n + 1, a, b => Nat.xor (if b % 2 = 1 then a else 0) (gfMulBits f n (gfDouble f a) (b / 2))

/-- Product in the field. -/
def gfMul (f : Field2) (a b : Nat) : Nat := gfMulBits f f.width a b

/-- α^n. -/
def gfAlpha (f : Field2) (n : Nat) : Nat := (List.range (n % gfOrder f)).foldl (fun a _ => gfDouble f a) 1

/-- The inverse of an element that is not 0: its power 2^width − 2. -/
def gfInv (f : Field2) (a : Nat) : Nat :=
  ((List.range (f.width - 1)).foldl (fun (r : Nat × Nat) _ =>
    (gfMul f r.1 (gfMul f r.2 r.2), gfMul f r.2 r.2)) (1, a)).1

/-- The value of a polynomial, its highest power first, at `x`. -/
def gfEval (f : Field2) (l : List Nat) (x : Nat) : Nat := l.foldl (fun a c => Nat.xor (gfMul f a x) c) 0

/-- The sum of two polynomials, the constant first. -/
def polyAdd : List Nat → List Nat → List Nat
  | [], b => b
  | a, [] => a
  | x :: a, y :: b => Nat.xor x y :: polyAdd a b

/-- A polynomial times a constant. -/
def polyScale (f : Field2) (k : Nat) (a : List Nat) : List Nat := a.map (gfMul f k)

/-- The product of two polynomials, the constant first. -/
def polyMul (f : Field2) : List Nat → List Nat → List Nat
  | [], _ => []
  | x :: a, b => polyAdd (polyScale f x b) (0 :: polyMul f a b)

/-- The generator: the product of (x − α^i), i from 0 to 7, the highest power first. -/
def rsGenerator (f : Field2) : List Nat := ((List.range 8).foldl (fun g i => polyMul f [gfAlpha f i, 1] g) [1]).reverse

/-- One symbol of the message enters the division by the generator. -/
def rsStep (f : Field2) (gen rem : List Nat) (m : Nat) : List Nat :=
  let fb := Nat.xor m (rem.headD 0)
  List.zipWith (fun a g => Nat.xor a (gfMul f fb g)) (rem.drop 1 ++ [0]) (gen.drop 1)

/-- The 8 check symbols of a message. -/
def rsParity (f : Field2) (msg : List Nat) : List Nat := msg.foldl (rsStep f (rsGenerator f)) (List.replicate 8 0)

/-- The codeword of a message. -/
def rsEncode (f : Field2) (msg : List Nat) : List Nat := msg ++ rsParity f msg

/-- The eight syndromes of a received word. -/
def rsSyndromes (f : Field2) (w : List Nat) : List Nat := (List.range 8).map (fun i => gfEval f w (gfAlpha f i))

/-- The state of the search for the error locator: the locator and the one before its last change, the constants first, its
length, the shift and the discrepancy at that change. -/
structure LocatorSearch where
  cur : List Nat := [1]
  old : List Nat := [1]
  len : Nat := 0
  shift : Nat := 1
  disc : Nat := 1

/-- One step of the Berlekamp–Massey search, at syndrome `n`. -/
def locatorStep (f : Field2) (syn : List Nat) (x : LocatorSearch) (n : Nat) : LocatorSearch :=
  let d := (List.range (x.len + 1)).foldl (fun a i => Nat.xor a (gfMul f (x.cur.getD i 0) (syn.getD (n - i) 0))) 0
  if d = 0 then { x with shift := x.shift + 1 }
  else
    let next := polyAdd x.cur (List.replicate x.shift 0 ++ polyScale f (gfMul f d (gfInv f x.disc)) x.old)
    if 2 * x.len ≤ n then { cur := next, old := x.cur, len := n + 1 - x.len, shift := 1, disc := d }
    else { x with cur := next, shift := x.shift + 1 }

/-- The powers of x of a codeword of `n` symbols at which a locator has its errors. -/
def locatorRoots (f : Field2) (n : Nat) (loc : List Nat) : List Nat :=
  (List.range n).filter (fun p => gfEval f loc.reverse (gfAlpha f (gfOrder f - p)) == 0)

/-- The formal derivative of a polynomial, the constant first. -/
def polyDerive (a : List Nat) : List Nat := (a.zipIdx.drop 1).map (fun c => if c.2 % 2 = 1 then c.1 else 0)

/-- The error at a power of x, by the evaluator polynomial. -/
def errorAt (f : Field2) (loc omega : List Nat) (p : Nat) : Nat :=
  let inv := gfAlpha f (gfOrder f - p)
  gfMul f (gfAlpha f p) (gfMul f (gfEval f omega.reverse inv) (gfInv f (gfEval f (polyDerive loc).reverse inv)))

/-- Correct a received word in up to `t` symbols: the codeword and the number of symbols corrected; none where it cannot be
corrected. -/
def rsCorrect (f : Field2) (t : Nat) (w : List Nat) : Option (List Nat × Nat) :=
  let syn := rsSyndromes f w
  if syn.all (· == 0) then some (w, 0)
  else
    let x := (List.range 8).foldl (locatorStep f syn) {}
    let at_ := locatorRoots f w.length x.cur
    if t < x.len ∨ at_.length ≠ x.len then none
    else
      let omega := (polyMul f syn x.cur).take 8
      let last := w.length - 1
      let v := w.zipIdx.map (fun c => if at_.contains (last - c.2) then Nat.xor c.1 (errorAt f x.cur omega (last - c.2)) else c.1)
      if (rsSyndromes f v).all (· == 0) then some (v, x.len) else none

/-- Decode a received word of 272 symbols of a link: the message of 264 and the number of symbols corrected, at most 4; none
where the word cannot be corrected. -/
def rsDecode (w : List Nat) : Option (List Nat × Nat) := (rsCorrect linkField 4 w).map (fun r => (r.1.take 264, r.2))

/-! ### The check bytes of a stored sector (17 R473, R474) -/

/-- The pattern that marks a stored sector as poisoned. -/
def poisonPattern : List Nat := [0x96, 0x69, 0x96, 0x69, 0x96, 0x69, 0x96, 0x69]

/-- The 72 symbols that a medium stores for a sector: its 64 bytes, then its check bytes, under the pattern where it is
poisoned.  DEDUCED: the data bytes are the codeword's first symbols, in address order (log 75). -/
def storedSector (data : List Nat) (poisoned : Bool) : List Nat :=
  let c := rsParity sectorField data
  data ++ (if poisoned then List.zipWith Nat.xor c poisonPattern else c)

/-- How the decode of a stored sector ends. -/
inductive SectorDecode where
  /-- The 64 bytes, with the number of symbols corrected. -/
  | data (bytes : List Nat) (corrected : Nat)
  | poison
  | uncorrectable
  deriving DecidableEq, Repr

/-- Decode the 72 symbols of a sector: the pattern is tested first, with at most one symbol in error under it. -/
def decodeSector (w : List Nat) : SectorDecode :=
  if (rsCorrect sectorField 1 (w.take 64 ++ List.zipWith Nat.xor (w.drop 64) poisonPattern)).isSome then .poison
  else match rsCorrect sectorField 3 w with
    | some (c, n) => .data (c.take 64) n
    | none => .uncorrectable

/-- The message of 40 blocks: symbol j holds bits 10j to 10j + 9 of the 2,640, the earlier bit the less significant. -/
def messageOf (l : List Block) : List Nat :=
  let w := l.foldr (fun b a => blockBits b + 2 ^ 66 * a) 0
  (List.range 264).map (fun j => bits w (10 * j) 10)

/-- The 40 blocks of a message. -/
def messageBlocks (msg : List Nat) : List Block :=
  let w := msg.foldr (fun c a => c % 1024 + 1024 * a) 0
  (List.range 40).map (fun k => blockOf (bits w (66 * k) 66))

/-! ### PAM4 (R345) -/

/-- The symbol of a pair of bits, the first the more significant. -/
def pamSymbol (first second : Nat) : Int :=
  if first = 0 then (if second = 0 then -3 else -1) else (if second = 1 then 1 else 3)

/-- The pair of a symbol, first bit and second bit. -/
def pamPair (x : Int) : Nat × Nat := if x < -1 then (0, 0) else if x < 1 then (0, 1) else if x < 3 then (1, 1) else (1, 0)

/-- The five PAM4 symbols of a code symbol, whose least significant bit is sent first. -/
def pamOf (c : Nat) : List Int := (List.range 5).map (fun k => pamSymbol (bits c (2 * k) 1) (bits c (2 * k + 1) 1))

/-- The code symbols of a run of PAM4 symbols. -/
def symbolsOf : List Int → List Nat
  | a :: b :: c :: d :: e :: r =>
    [a, b, c, d, e].foldr (fun x n => (pamPair x).1 + 2 * (pamPair x).2 + 4 * n) 0 :: symbolsOf r
  | _ => []

/-- What a codeword of 40 blocks is on the fibre. -/
def fibreOf (l : List Block) : List Int := (rsEncode linkField (messageOf l)).flatMap pamOf

/-! ### The alignment marker (R347–R350, Tables 13-3 and 13-4) -/

/-- The fields of a marker. -/
structure MarkerFields where
  lane : Nat := 0
  /-- Position of block 0 within its codeword. -/
  offset : Nat := 0
  rate : Nat := 0
  laneState : Nat := 0
  rxMask : Nat := 0
  txMask : Nat := 0
  /-- The time word; none is sent as zeros. -/
  time : Option TimeWord := none
  deriving DecidableEq, Repr, Inhabited

/-- The 160 bits of a time word (02 Table 2-6). -/
def timeWordBits (w : TimeWord) : Nat :=
  field w.txTime 0 64 + field w.seq 64 8 + field w.echoSeq 72 8 + field w.turnaround 80 24 + field w.gmId 104 32
    + field w.gmPriority 136 8 + field w.gmClass 144 2 + field w.hops 146 4 + field w.periodSteps 150 10

/-- The time word that 160 bits hold. -/
def timeWordOf (x : Nat) : TimeWord :=
  { txTime := bits x 0 64, seq := bits x 64 8, echoSeq := bits x 72 8, turnaround := bits x 80 24, gmId := bits x 104 32
    gmPriority := bits x 136 8, gmClass := bits x 144 2, hops := bits x 146 4, periodSteps := bits x 150 10 }

/-- CRC-24 with polynomial 0x86_4CFB from 0xB7_04CE over the low `n` bits, bit 0 first. -/
def crc24 (n x : Nat) : Nat :=
  (List.range n).foldl (fun c i =>
    let d := 2 * c % 2 ^ 24
    if (c / 2 ^ 23 + bits x i 1) % 2 = 1 then Nat.xor d 0x864CFB else d) 0xB704CE

def markerPattern := 0xA6F1C3

/-- Bits [287:0] of a marker. -/
def markerBody (m : MarkerFields) : Nat :=
  markerPattern + field m.lane 24 4 + field m.offset 28 6 + field m.rate 34 2 + field m.laneState 36 3
    + field m.rxMask 40 16 + field m.txMask 56 16 + field ((m.time.map timeWordBits).getD 0) 128 160

/-- The five blocks of a marker, each with sync header 0b10. -/
def markerBlocks (m : MarkerFields) : List Block :=
  let b := markerBody m
  let w := b + field (crc24 288 b) 288 24
  (List.range 5).map (fun k => ⟨syncControl, bits w (64 * k) 64⟩)

/-- Read the five blocks of a marker on a lane: none where PATTERN, LANE, CRC or a sync header is wrong (R350). -/
def readMarker (lane : Nat) (l : List Block) : Option MarkerFields :=
  let w := l.foldr (fun b a => b.payload % 2 ^ 64 + 2 ^ 64 * a) 0
  if l.length ≠ 5 ∨ l.any (fun b => b.sync != syncControl) ∨ bits w 0 24 ≠ markerPattern ∨ bits w 24 4 ≠ lane
      ∨ bits w 288 24 ≠ crc24 288 (w % 2 ^ 288) then none
  else some {
    lane := bits w 24 4, offset := bits w 28 6, rate := bits w 34 2, laneState := bits w 36 3, rxMask := bits w 40 16
    txMask := bits w 56 16, time := if bits w 128 160 = 0 then none else some (timeWordOf (bits w 128 160)) }

/-- CW_OFFSET of the marker after one at `c`: 16,384 block slots on (R348). -/
def nextOffset (c : Nat) : Nat := (c + 24) % 40

/-- The codewords that hold a marker at offset `c`: the blocks of one codeword, or of two where it runs into the next.
`link` are the link layer's blocks around it, and `st` the state of the scrambler before them. -/
def markerCodewords (c st : Nat) (link marker : List Block) : List (List Block) :=
  let total := if 35 < c then 80 else 40
  let l := (link.take c).map (·, false) ++ marker.map (·, true) ++ ((link.drop c).take (total - 5 - c)).map (·, false)
  let b := (scrambleBlocks st l).1
  if total = 40 then [b] else [b.take 40, b.drop 40]

/-- A marker out of the codewords that hold it, as received: its fields where every codeword can be corrected and it passes
its checks, with the symbols corrected and the codewords that could not be (R346, R348, R350). -/
def receiveMarker (lane pos : Nat) (words : List (List Int)) : Option MarkerFields × Nat × Nat :=
  let d := words.map (fun w => rsDecode (symbolsOf w))
  let bad := (d.filter (·.isNone)).length
  let fixed := d.foldl (fun n x => match x with | some (_, k) => n + k | none => n) 0
  let blocks := d.flatMap (fun x => match x with | some (m, _) => messageBlocks m | none => [])
  (if bad = 0 then readMarker lane ((blocks.drop pos).take 5) else none, fixed, bad)

end Sys2Proof.Machine
end

