-- ==== Sys2Proof/Machine/StBoot.lean ====
section
/-! DEFINITION. State of the start sequence, the fuses, the flash, the topology, the limited-change settings and the
control pins (spec 16, 19, 20). -/
namespace Sys2Proof.Machine

/-- BOOT_STATUS.STAGE. -/
inductive Stage where
  | rom | fwLoad | board | test | shelves | ready | failed | recovery
  deriving DecidableEq, Repr, Inhabited

/-- VARIANT (16 R465). -/
inductive Variant where
  | unset | l | a
  deriving DecidableEq, Repr, Inhabited

/-- LIFECYCLE (15 Table 15-13). -/
inductive Lifecycle where
  | test | production | fieldDebug | scrapped
  deriving DecidableEq, Repr, Inhabited

/-- The active-slot record (16 R443); a copy whose CRC fails is none in `slotRecords`. -/
structure SlotRecord where
  seq : Nat := 0
  activeSlot : Nat := 0
  stagedValid : Bool := false
  deriving DecidableEq, Repr, Inhabited

/-- An entry of the defect list (16 R451, Table 16-7). -/
structure Defect where
  kind : Nat := 0
  quadrant : Nat := 0
  unit : Nat := 0
  sub : Nat := 0
  row : Nat := 0
  firstStart : Nat := 0
  deriving DecidableEq, Repr, Inhabited

/-- An entry of the change log (16 LC_LOG). -/
structure LogEntry where
  setting : Nat := 0
  site : Nat := 0
  result : Nat := 0
  start : Nat := 0
  old : Nat := 0
  new : Nat := 0
  requester : Nat := 0
  deriving DecidableEq, Repr, Inhabited

/-- The fuse settings of one physical attic site (16 Table 16-11, 12 R312). -/
structure AtticFuse where
  /-- Lane-repair map: word 1 to 4, 64 bits each; none while unwritten. -/
  map : Option (List Nat) := none
  mapWrites : Nat := 0
  /-- The profile as request word 1, and DIE_ID. -/
  profile : Option Nat := none
  dieId : Nat := 0
  profileWrites : Nat := 0
  deriving DecidableEq, Repr, Inhabited

/-- The fuse array, always-on domain. -/
structure Fuses where
  stepping : Nat := 0
  serial : Nat := 0
  pen : Nat := 0
  /-- VARIANT as fused; the limits in force are those latched at the last cold reset. -/
  variant : Variant := .l
  downgraded : Bool := false
  lifecycle : Lifecycle := .production
  lifecycleSteps : Nat := 1
  antiRollback : Nat := 0
  sites : Tab AtticFuse := []
  log : List LogEntry := []
  deriving DecidableEq, Repr, Inhabited

/-- A limited-change request being programmed (16 R463). -/
structure LcChange where
  setting : Nat := 0
  site : Nat := 0
  words : List Nat := []
  old : Nat := 0
  deriving DecidableEq, Repr, Inhabited

/-- A firmware image that FW_STAGE is writing (16 R444). -/
structure Staging where
  seq : Nat := 0
  image : FwImage := {}
  deriving DecidableEq, Repr, Inhabited

/-- The start, and what it fixes for the session. -/
structure BootSt where
  straps : Straps := {}
  stage : Stage := .rom
  slot : Nat := 0
  fallback : Bool := false
  boardTableOk : Bool := false
  boardCopy : Nat := 0
  defectListFull : Bool := false
  testStrapIgnored : Bool := false
  variantUnset : Bool := false
  failReason : Nat := 0
  startCount : Nat := 0
  /-- The start in progress while it waits for a host-supplied image or the host link (R446, R450). -/
  waiting : Option StartInput := none
  fuses : Fuses := {}
  /-- VARIANT and LIFECYCLE in force since the last cold reset. -/
  variantNow : Variant := .l
  lifecycleNow : Lifecycle := .production
  /-- Flash. -/
  slots : Tab FwImage := [(0, {})]
  slotRecords : List (Option SlotRecord) := [some {}, none]
  defects : List Defect := []
  defectSeq : Nat := 0
  /-- Running firmware. -/
  fw : FwImage := {}
  staging : Option Staging := none
  /-- COMMIT_SEQ of the FW_ACTIVATE that waits for the TAKEN commands (03 R89). -/
  activating : Option Nat := none
  /-- The board table in use. -/
  board : BoardCopy := {}
  /-- Present masks and the logical map (19 R524). -/
  presentCellars : Nat := 0
  presentShelves : Nat := 0
  presentEngines : Nat := 0
  presentQuadrants : Nat := 0
  /-- Physical quadrant of logical q, one entry a quadrant. -/
  quadrantMap : List Nat := []
  /-- Physical cellar (16 × quadrant + local) of logical cellar c. -/
  cellarPhys : Tab Nat := []
  cellarPhysCores : Tab Nat := []
  presentCores : Tab Nat := []
  /-- UNIT_LOSS. -/
  coresAbsented : Nat := 0
  cellarsAbsented : Nat := 0
  atticsDown : Nat := 0
  /-- Limited-change registers. -/
  lcRequest : Tab Nat := []
  lcBusy : Bool := false
  lcDone : Bool := false
  lcResult : Nat := 0
  lcRejected : Nat := 0
  lcChange : Option LcChange := none
  /-- Pins: COLD_RESET_N and HOST_PERST_N levels, THERM_TRIP_N and PWR_FAULT_N driven low, ATTIC_RESET_N low mask. -/
  coldResetLow : Bool := true
  thermTrip : Bool := false
  pwrFault : Bool := false
  atticResetLow : Nat := 0xFF
  /-- VDD_ATTIC rails in range, by physical site (20 R534, R535). -/
  atticRails : Nat := 0
  /-- Clocks outside the always-on domain are stopped (20 R535, R538). -/
  stopped : Bool := false
  /-- Held in reset after a trip until the sensors cool (20 R538). -/
  heldHot : Bool := false
  /-- The host link (19 HOST_LINK_STATUS) and PCI configuration space (08 R237). -/
  hostUp : Bool := false
  hostLink : HostLink := ⟨0, 0, false, false⟩
  ideLink : Bool := false
  ideSelective : Nat := 0
  d3hot : Bool := false
  poisonRx : Nat := 0
  atomicEnable : Bool := false
  busMaster : Bool := true
  bar2Log2 : Nat := 44
  bar2Base : Nat := 0
  bar0Base : Nat := 0
  windowBase : Nat := 0
  /-- The host's HDM decoder over the window, with CXL: its base on the bus, and whether it is committed (08 R236). -/
  hdmBase : Nat := 0
  hdmOn : Bool := false
  /-- Uncorrectable error status of Advanced Error Reporting: an Unsupported Request, a poisoned TLP (08 R213, R235). -/
  aerUnsupported : Bool := false
  aerPoisoned : Bool := false
  deriving DecidableEq, Repr, Inhabited

end Sys2Proof.Machine
end

