-- ==== Sys2Proof/Machine/StCp.lean ====
section
/-! DEFINITION. State of the control processor: mailboxes, commands, records and event queues (spec 03). -/
namespace Sys2Proof.Machine

/-- Status codes (03 R87, Table 3-7). -/
inductive Status where
  | ok | accepted | aborted | noSession | versionMismatch | unknownOpcode | badLength | badField | deniedRole
  | deniedPartition | noResource | payloadFault | responseTooSmall | partitionReset | deviceReset | cpRestarted
  | poisoned | partitionBusy | imageSignatureBad | seqNotOpen | stepBudgetExceeded | stepPreemptLimit
  | matrixRegionBroken | translationInvalid | admissionRefused | timeBadEffective | timePendingConflict
  | fwSignatureBad | fwRollback | fwNotStaged
  deriving DecidableEq, Repr, Inhabited

/-- Event codes (03 R90, Table 3-9). -/
inductive EventCode where
  | eqOverflow | eqError | cpRestarted | fwActivated | contextReset | stepOverrun | timeStepped | timeDegraded
  | timeRestored | strumPeriodMismatch | backgroundReclaimed | guaranteeMissed | guaranteeDerated | hostFault
  | atticPortDown | atticWidthReduced | linkDown | linkRetrained | errorLogged | ceBucketOverflow | wayDisabled
  | pageRetired | unitAbsent | scrubEscalated | powerLimiting
  deriving DecidableEq, Repr, Inhabited

/-- KIND of a record (03 Table 3-5). -/
inductive RecordKind where
  | mailboxCompletion | event | stepCompletion
  deriving DecidableEq, Repr, Inhabited

/-- A 64-byte completion or event record (03 Table 3-4). -/
structure Record where
  kind : RecordKind := .mailboxCompletion
  /-- 1–15 for a partition context, 0xFF for the device context. -/
  partition : Nat := 0xFF
  code : Nat := 0
  tag : Nat := 0
  epoch : Nat := 0
  commitSeq : Nat := 0
  /-- The 320 bits of RESULT. -/
  result : Nat := 0
  source : Nat := 0
  recordSeq : Nat := 0
  /-- The model's own mark: a copy made under EQ_COPY, which no command waits for (R71). -/
  copy : Bool := false
  deriving DecidableEq, Repr, Inhabited

/-- The request header, decoded (03 Table 3-2). -/
structure Hdr where
  opcode : Nat := 0
  reqByRef : Bool := false
  respByRef : Bool := false
  eqCopy : Bool := false
  tag : Nat := 0
  reqLen : Nat := 0
  respCap : Nat := 0
  reqAddr : Nat := 0
  respAddr : Nat := 0
  pasid : Nat := 0
  eqId : Nat := 0
  authRef : Nat := 0
  mgmtContext : Nat := 0
  rsvdZero : Bool := true
  deriving DecidableEq, Repr, Inhabited

/-- A command the CP has taken: the copied header and request, and the context it acts in (03 R64, R85). -/
structure Taken where
  hdr : Hdr := {}
  req : Bytes := []
  /-- The context: 0 is the device context and partition 0 (R84), 1–15 a partition. -/
  ctx : Nat := 0
  mgmt : Bool := false
  /-- TIME_NOW when the CP took it (02 R55). -/
  takenAt : Nat := 0
  /-- The number of its commit, once it has passed its commit point (R68). -/
  commitSeq : Option Nat := none
  /-- It is not DONE as it commits; once it has committed, the status, RESULT and response that it ends with. -/
  lateDone : Bool := false
  ended : Option (Status × Nat × Bytes) := none
  deriving DecidableEq, Repr, Inhabited

/-- MB_STATE.STATE. -/
inductive MbState where
  | free | posted | taken | done
  deriving DecidableEq, Repr, Inhabited

/-- One mailbox page (03 Table 3-1), or one of the eight places of the management channel (R83). -/
structure Mailbox where
  /-- Bytes of the request header and inline request payload, page offsets 0x000–0xBFF; an unlisted byte is 0. -/
  req : Tab Byte := []
  /-- Bytes of the inline response payload, 768; an unlisted byte is 0. -/
  resp : Tab Byte := []
  /-- The completion window while DONE. -/
  window : Option Record := none
  state : MbState := .free
  abortRequested : Bool := false
  session : Bool := false
  sessionMajor : Nat := 0
  sessionMinor : Nat := 0
  /-- The owning context: 0 for the device context (OWNER reads 0xFF), 1–15 a partition. -/
  owner : Nat := 0
  ignored : Nat := 0
  taken : Option Taken := none
  /-- Management channel: the order in which the command was posted. -/
  order : Nat := 0
  deriving DecidableEq, Repr, Inhabited

/-- An accepted asynchronous command whose final record has not been written (03 R79, R86). -/
structure Async where
  /-- Its COMMIT_SEQ, by which later commands of the block name it. -/
  seq : Nat := 0
  chan : Nat := 0
  opcode : Nat := 0
  ctx : Nat := 0
  tag : Nat := 0
  eqId : Nat := 0
  mgmt : Bool := false
  /-- The number of the object it works on (a partition, a handle, an engine). -/
  obj : Nat := 0
  arg : Nat := 0
  /-- A final record that waits for the earlier commands of the same mailbox (R79). -/
  final : Option Record := none
  deriving DecidableEq, Repr, Inhabited

/-- EQ_STATUS.STATE. -/
inductive EqState where
  | none | active | error
  deriving DecidableEq, Repr, Inhabited

/-- One event queue (03 R72). -/
structure EventQueue where
  state : EqState := .none
  base : Nat := 0
  pasid : Nat := 0
  log2Size : Nat := 0
  vector : Nat := 0
  coalesceCount : Nat := 1
  coalesceUs : Nat := 0
  isDefault : Bool := false
  /-- The owning context: 0 the device context (OWNER reads 0x7F). -/
  owner : Nat := 0
  consumer : Nat := 0
  producer : Nat := 0
  arm : Bool := false
  dropped : Nat := 0
  /-- Records produced for the queue and not written yet, oldest first (R75). -/
  waiting : List Record := []
  /-- Records written since the last message, and when the first of them was written (R76). -/
  sinceMsg : Nat := 0
  firstUnsignalled : Nat := 0
  deriving DecidableEq, Repr, Inhabited

/-- One MSI-X vector (03 R77): address, data, mask, pending bit. -/
structure MsixVector where
  addr : Nat := 0
  data : Nat := 0
  masked : Bool := true
  /-- The other 31 bits of the vector control word, kept as written. -/
  ctrlRest : Nat := 0
  pendingBit : Bool := false
  deriving DecidableEq, Repr, Inhabited

/-- The control processor. -/
structure CpSt where
  /-- Mailboxes 0–63, and the eight management places 64–71. -/
  chans : Tab Mailbox := []
  /-- The mailbox taken last (R67); 63 at the start, so that mailbox 0 comes first. -/
  lastTaken : Nat := 63
  /-- The number of the last commit, 32 bits (R68). -/
  commitSeq : Nat := 0
  asyncs : List Async := []
  /-- FW_ACTIVATE has stopped the taking of commands (R89). -/
  stopTaking : Bool := false
  /-- FW_STATUS: CP_RESTARTS and FW_ACTIVATIONS. -/
  restarts : Nat := 0
  activations : Nat := 0
  /-- Times of the watchdog restarts of the last 10 s (16 R470). -/
  restartTimes : List Nat := []
  /-- The next order number of the management channel. -/
  mgmtOrder : Nat := 0
  eqs : Tab EventQueue := []
  msix : Tab MsixVector := []
  /-- EVENT_STATS: EVENTS_RAISED, UNQUEUED. -/
  eventsRaised : Nat := 0
  unqueued : Nat := 0
  deriving DecidableEq, Repr, Inhabited

end Sys2Proof.Machine
end

