-- ==== Sys2Proof/Machine/StErr.lean ====
section
/-! DEFINITION. State of the error records, leaky buckets, row trackers and patrol scrub (spec 17). -/
namespace Sys2Proof.Machine

/-- SEVERITY of an error record (17 R488). -/
inductive Severity where
  | corrected | poisonWritten | poisonConsumed | accessError | unitLost | repaired | retired
  deriving DecidableEq, Repr, Inhabited

/-- An error record (17 R488). -/
structure ErrRecord where
  index : Nat := 0
  severity : Severity := .corrected
  unitClass : Nat := 0
  unitIndex : Nat := 0
  code : Nat := 0
  partition : Nat := 31
  count : Nat := 1
  address : Nat := 0
  sub : Nat := 0
  stepTag : Nat := 0
  time : Nat := 0
  epoch : Nat := 0
  cellarEpoch : Nat := 0
  detail : Nat := 0
  /-- The strum in which it was written (R489: a recurrence in a later strum writes a new record). -/
  strum : Nat := 0
  /-- The boundary of that strum, to which a partition's view coarsens TIME (08 R214). -/
  boundary : Nat := 0
  deriving DecidableEq, Repr, Inhabited

/-- The kinds of leaky bucket (17 Table 17-4). -/
inductive BucketKind where
  | coreSram | coreStoreWay | cellarWay | cellarControl | directory | shelfBank | farDecoder
  deriving DecidableEq, Repr, Inhabited

/-- A leaky bucket (17 R478). -/
structure Bucket where
  kind : BucketKind := .coreSram
  /-- The unit (core, cellar, quadrant, shelf, far port) and the part of it (way, bank, decoder). -/
  unit : Nat := 0
  sub : Nat := 0
  count : Nat := 0
  overflows : Nat := 0
  deriving DecidableEq, Repr, Inhabited

/-- One entry of a shelf's row tracker (17 R480). -/
structure RowEntry where
  row : Nat := 0
  count : Nat := 0
  first : Nat := 0
  deriving DecidableEq, Repr, Inhabited

/-- SCRUB_STATUS[k]. -/
structure ScrubStatus where
  segment : Nat := 0
  escalated : Bool := false
  late : Bool := false
  passes : Nat := 0
  corrected : Nat := 0
  passStart : Nat := 0
  /-- SCRUB_ESCALATED was raised for this pass. -/
  raised : Bool := false
  deriving DecidableEq, Repr, Inhabited

/-- The error block. -/
structure ErrSt where
  nextIndex : Nat := 1
  lost : Nat := 0
  pagesRetired : Nat := 0
  /-- The ring of 4,096 slots, by slot. -/
  ring : Tab ErrRecord := []
  /-- Record indices that the management channel has acknowledged (R488). -/
  acked : List Nat := []
  buckets : List Bucket := []
  /-- Row trackers per shelf, least recently touched first, at most 64 entries. -/
  rows : Tab (List RowEntry) := []
  /-- Rows whose repair waits, per shelf, at most 16 (R482). -/
  rowQueue : Tab (List Nat) := []
  /-- Field repairs made this session, per shelf: (ROW_ID, count) (R481). -/
  repairs : Tab (List (Nat × Nat)) := []
  /-- Pages retired this session, as HPA / 64 KiB. -/
  retiredPages : List Nat := []
  /-- Pages whose retirement waits for their last pin or their move (R483, R484). -/
  retireWaiting : List Nat := []
  scrub : Tab ScrubStatus := []
  deriving DecidableEq, Repr, Inhabited

end Sys2Proof.Machine
end

