-- ==== Sys2Proof/Machine/StPart.lean ====
section
/-! DEFINITION. State of the partitions, the model bindings, the kernel images and the attestation report (spec 15,
16 R457–R459). -/
namespace Sys2Proof.Machine

/-- KIND of a region entry (15 Table 15-5). -/
inductive RegionKind where
  | memory | scratch | peer
  deriving DecidableEq, Repr, Inhabited

/-- A region entry of a partition (15 Table 15-5). -/
structure Region where
  kind : RegionKind := .memory
  larder : Bool := false
  /-- PEER: the peer window. -/
  window : Nat := 0
  /-- SCRATCH: banks per cellar. -/
  banks : Nat := 0
  /-- In 64 KiB units. -/
  length : Nat := 0
  /-- HPA, or window offset. -/
  base : Nat := 0
  deriving DecidableEq, Repr, Inhabited

/-- PARTITION_STATE.STATE (15 Table 15-3). -/
inductive PartState where
  | none | active | transitioning
  deriving DecidableEq, Repr, Inhabited

/-- PARTITION_STATE.PHASE (15 Table 15-3). -/
inductive Phase where
  | create | reset | destroy
  deriving DecidableEq, Repr, Inhabited

/-- OVERRUN_POLICY (02 Table 2-5). -/
inductive OverrunPolicy where
  | cont | preemptAtNext | abort
  deriving DecidableEq, Repr, Inhabited

/-- One partition. -/
structure Partition where
  pstate : PartState := .none
  phase : Phase := .create
  hostBar2 : Bool := false
  /-- The owner key; both coordinates 0 for an OPEN partition (R412). -/
  keyX : Nat := 0
  keyY : Nat := 0
  regions : List Region := []
  cellarMask : Nat := 0
  mailboxMask : Nat := 0
  engineMask : Nat := 0
  atticMask : Nat := 0
  /-- Context epoch (03 R80); for partition 0 DEVICE_EPOCH.EPOCH holds it. -/
  epoch : Nat := 0
  memEpoch : Nat := 0
  ownerCounter : Nat := 0
  refused : Nat := 0
  /-- PARTITION_POLICY_SET (09 R270). -/
  overrun : OverrunPolicy := .cont
  latencyShare : Nat := 64
  throughputShare : Nat := 64
  backgroundShare : Nat := 16
  /-- A reset under way started by the command with this COMMIT_SEQ. -/
  resetBy : Option Nat := none
  /-- PARTITION_DESTROY accepted; it begins when the current phase ends (R416). -/
  destroyBy : Option Nat := none
  /-- Steps ended and regions scrubbed by the teardown (R424). -/
  stepsEnded : Nat := 0
  seqsClosed : Nat := 0
  /-- Page counts latched at the last strum boundary, per tier: (RESIDENT or MOVING, FREE or ZEROING) (R417). -/
  latchedPages : List (Nat × Nat) := []
  deriving DecidableEq, Repr, Inhabited

/-- A range of a model, or the source of one (15 R430). -/
structure ModelRange where
  src : Nat := 0
  dst : Nat := 0
  chunks : Nat := 0
  tagAddr : Nat := 0
  deriving DecidableEq, Repr, Inhabited

/-- A model binding (15 R430–R432). -/
structure Model where
  part : Nat := 0
  ranges : List ModelRange := []
  modelId : Nat := 0
  /-- False while MODEL_BIND is in progress. -/
  bound : Bool := false
  /-- COMMIT_SEQ of the MODEL_UNBIND that ends it. -/
  unbinding : Option Nat := none
  deriving DecidableEq, Repr, Inhabited

/-- What one core holds of a kernel image (16 R458, R459). -/
structure ImageCore where
  /-- The chunks that have arrived. -/
  chunks : Nat := 0
  rounds : Nat := 0
  digestOk : Bool := false
  deriving DecidableEq, Repr, Inhabited

/-- A kernel image (16 R457). -/
structure Image where
  part : Nat := 0
  digest : Nat := 0
  chunkCount : Nat := 0
  /-- Instruction words of the code. -/
  words : Nat := 0
  /-- The code that the instruction stores hold. -/
  code : List Nat := []
  /-- Where in every instruction store of the partition the image lies, in instruction words. -/
  base : Nat := 0
  /-- The kernels: REGISTERS, SCRATCH_UNITS, ENTRY. -/
  kernels : List (Nat × Nat × Nat) := []
  cores : Tab ImageCore := []
  /-- COMMIT_SEQ of the IMAGE_LOAD while it is in progress. -/
  loading : Option Nat := none
  loaded : Bool := false
  /-- Cores that failed to load, and chunks sent again (R459). -/
  failed : Nat := 0
  resent : Nat := 0
  deriving DecidableEq, Repr, Inhabited

/-- An SPDM responder's conversation on one transport (15 R433). -/
structure SpdmConv where
  /-- Negotiated version: 0 none, 0x12, 0x13. -/
  version : Nat := 0
  capsDone : Bool := false
  algsDone : Bool := false
  handshake : Bool := false
  session : Bool := false
  keyUpdates : Nat := 0
  deriving DecidableEq, Repr, Inhabited

/-- The keys of an owner of memory: AES-256-XTS, 512 bits, and the MAC key, 256 bits (15 R420, R421). -/
structure MemKeys where
  xts : Nat := 0
  mac : Nat := 0
  deriving DecidableEq, Repr, Inhabited

/-- The key slots of the SE, which the crypto engines share and no agent reads (15 R420, R429). -/
structure SeKeys where
  /-- For memory without an owner, and the private memory of the CP and SE. -/
  device : Option MemKeys := none
  parts : Tab MemKeys := []
  /-- IDE streams of the host port: the link stream at 0, selective streams from 1 on. -/
  ide : Tab Nat := []
  /-- SPDM sessions, by transport. -/
  sessions : Tab Nat := []
  deriving DecidableEq, Repr, Inhabited

/-- Partitions, models, images and the attestation state. -/
structure PartSt where
  parts : Tab Partition := []
  /-- Device-wide MEM_EPOCH count (DEVICE_EPOCH.MEM_EPOCH_COUNT) and DEVICE_EPOCH.EPOCH, always-on domain. -/
  memEpochCount : Nat := 1
  deviceEpoch : Nat := 1
  models : Tab Model := []
  nextModel : Nat := 1
  images : Tab Image := []
  nextImage : Nat := 1
  /-- The cores that the CP polls for their chunk bitmaps, in the order it names them: image, core (01 R13). -/
  polls : List (Nat × Nat) := []
  keys : SeKeys := {}
  /-- ATTEST_GENERATION. -/
  generation : Nat := 1
  /-- SEC_STATUS.UPDATE_IN_PROGRESS. -/
  updateInProgress : Bool := false
  /-- The board table names a management root. -/
  mgmtRoot : Bool := false
  /-- The SPDM conversations: 0 host DOE, 1 MCTP on the management port. -/
  spdm : Tab SpdmConv := []
  /-- GLOBAL_STATUS.CONFIG_GEN (19 R525). -/
  configGen : Nat := 0
  /-- Counters of the register space as the last boundary latched them, by offset; unlisted 0 (R437). -/
  latchedRegs : Tab Nat := []
  deriving DecidableEq, Repr, Inhabited

end Sys2Proof.Machine
end

