-- ==== Sys2Proof/Machine/StLarder.lean ====
section
/-! DEFINITION. State of the larder: sequences, pool pages, moves, steps, the plan, and the movers (spec 09, 02 R34–R42). -/
namespace Sys2Proof.Machine

/-- Whether a sequence entry is free, open or CLOSING (09 R243–R244). -/
inductive SeqState where
  | free | opened | closing
  deriving DecidableEq, Repr, Inhabited

/-- A close under way and its counts (09 R268); `seq` 0 for a close that a reset makes (R269). -/
structure CloseInfo where
  seq : Nat := 0
  cancel : Bool := false
  movesCancelled : Nat := 0
  movesLanded : Nat := 0
  stepsCancelled : Nat := 0
  deriving DecidableEq, Repr, Inhabited

/-- A sequence entry (09 Table 9-1).  The generation of an entry that was never used is 1. -/
structure Sequence where
  generation : Nat := 1
  sstate : SeqState := .free
  part : Nat := 0
  model : Nat := 0
  cls : Nat := 0
  deadline : Nat := 0
  reserve : Nat := 0
  maxPages : Nat := 0
  exited : Bool := false
  /-- The page table: page number to pool page (HPA / 64 KiB). -/
  pages : Tab Nat := []
  close : Option CloseInfo := none
  /-- Cellar where the sequence's last step ran. -/
  lastCellar : Option Nat := none
  deriving DecidableEq, Repr, Inhabited

/-- State of a pool page (09 Table 9-4); FREE is the page that is not listed. -/
inductive PageState where
  | zeroing | resident | moving | lost | retired
  deriving DecidableEq, Repr, Inhabited

/-- A pool page, by HPA / 64 KiB. -/
structure Page where
  pstate : PageState := .zeroing
  /-- Its owner: sequence entry and page number. -/
  seq : Nat := 0
  page : Nat := 0
  pins : Nat := 0
  lastTouch : Nat := 0
  deriving DecidableEq, Repr, Inhabited

/-- A move (09 R248, R249). -/
structure Move where
  src : Nat := 0
  dst : Nat := 0
  seq : Nat := 0
  page : Nat := 0
  /-- The copy has begun. -/
  begun : Bool := false
  /-- The step it is made for. -/
  step : Option Nat := none
  deriving DecidableEq, Repr, Inhabited

/-- A touch entry (09 Table 9-6). -/
structure Touch where
  seq : Nat := 0
  first : Nat := 0
  count : Nat := 0
  grow : Bool := false
  cellar : Bool := false
  deriving DecidableEq, Repr, Inhabited

/-- Where a part of a step is. -/
inductive PartPhase where
  | waiting | running | saved | done
  deriving DecidableEq, Repr, Inhabited

/-- A part (09 R254). -/
structure StepPart where
  kind : Nat := 0
  unit : Nat := 0
  body : Bytes := []
  phase : PartPhase := .waiting
  /-- The resume token of an ATTIC part (12 R323). -/
  token : Bytes := []
  deriving DecidableEq, Repr, Inhabited

/-- Where a step is. -/
inductive StepPhase where
  /-- Accepted, not yet planned. -/
  | waiting
  /-- In the plan of the strum that runs; dispatched at fret 1. -/
  | planned
  | running
  /-- Stopped under PREEMPT_AT_NEXT, its cores writing their images. -/
  | saving
  | preempted
  /-- Stopped for good; its units end what they had issued. -/
  | ending
  /-- Ended without running; its record waits for the steps ordered before it. -/
  | unrun
  deriving DecidableEq, Repr, Inhabited

/-- What a step holds of a preempted core, by its index in the step (02 R38, R39; 04 R120): its save area, as bytes by offset,
and its control record, a core without registers, accumulators and scratch. -/
structure SavedCore where
  core : Nat := 0
  area : Tab Byte := []
  control : Core := {}
  deriving DecidableEq, Repr, Inhabited

/-- An accepted step, by STEP_SLOT. -/
structure Step where
  phase : StepPhase := .waiting
  /-- COMMIT_SEQ, TAG, EQ_ID, context, management channel, and the channel of STEP_SUBMIT. -/
  seq : Nat := 0
  tag : Nat := 0
  eqId : Nat := 0
  part : Nat := 0
  mgmt : Bool := false
  chan : Nat := 0
  /-- A peer's step: (peer entry, MSG_ID) (09 R265). -/
  peer : Option (Nat × Nat) := none
  cls : Nat := 0
  policy : OverrunPolicy := .cont
  skipOnExit : Bool := false
  budget : Nat := 1
  image : Nat := 0
  kernel : Nat := 0
  /-- Boundary count of the deadline, if any. -/
  deadline : Option Nat := none
  cellars : Nat := 0
  coresPer : Nat := 0
  groupsPer : Nat := 0
  tiers : Nat := 3
  batch : List Nat := []
  touches : List Touch := []
  parts : List StepPart := []
  pageListOffset : Nat := 0
  startPeg : Option Nat := none
  donePeg : Option Nat := none
  argAddr : Nat := 0
  roundSeed : Nat := 0
  exitMap : Nat := 0
  /-- Accepted at this boundary count. -/
  acceptedAt : Nat := 0
  dispatchTime : Nat := 0
  waitStrums : Nat := 0
  /-- Boundaries left of the budget; overrun boundaries; preemptions. -/
  budgetLeft : Nat := 0
  overrun : Nat := 0
  overrunRaised : Bool := false
  preempts : Nat := 0
  flags : Nat := 0
  skipped : Bool := false
  deadlineMissed : Bool := false
  pagesMoved : Nat := 0
  newlyExited : Nat := 0
  passedOver : Nat := 0
  pageWait : Nat := 0
  /-- CODE of the first failure, and the INDEX of its first error record. -/
  code : Option Status := none
  errorRef : Nat := 0
  /-- Save pages reserved at acceptance (R257). -/
  savePages : Nat := 0
  /-- The cellars and the core mask it holds, in the order of the kernel's cellar numbers. -/
  heldCellars : List Nat := []
  coreMask : Nat := 0
  split : Nat := 0
  /-- Planned after a preemption. -/
  resume : Bool := false
  /-- Pages pinned, in page-list order. -/
  pinned : List Nat := []
  saved : List SavedCore := []
  /-- Stopped by an overrun, a cancel or a reset: the status its attic parts take as ABORTED. -/
  stopCode : Option Status := none
  deriving DecidableEq, Repr, Inhabited

/-- A mover descriptor in flight (09 R255). -/
structure MoverJob where
  step : Nat := 0
  part : Nat := 0
  started : Bool := false
  /-- Bytes moved so far. -/
  progress : Nat := 0
  /-- A fault or a walk it waits for. -/
  stalled : Bool := false
  /-- Poison has been read so far. -/
  srcPoison : Bool := false
  /-- Translated uses it holds. -/
  uses : List Nat := []
  /-- Transfer finished; its 32-byte result waits to be written. -/
  result : Option Bytes := none
  /-- The result has been sent to RESULT_ADDR. -/
  posted : Bool := false
  /-- A Chord operation or a collective it waits for. -/
  msg : Option Nat := none
  /-- Code so far, and the counts AUX0 and AUX1, of a Chord operation. -/
  code : Nat := 0
  aux0 : Nat := 0
  aux1 : Nat := 0
  /-- Pegs that a COMBINE signals at its end. -/
  pegs : List Nat := []
  /-- The rows that a ROUTE dispatches once its lists have landed, address, bytes and poisoned bytes; and whether that is done. -/
  rows : List (Nat × Bytes × Nat) := []
  listed : Bool := false
  /-- Bytes read by transactions, by HPA, and the poisoned 32-byte units among them. -/
  stage : Tab Byte := []
  stagePoison : List Nat := []
  deriving DecidableEq, Repr, Inhabited

/-- An assignment of a pass: its weight, and whether it waits (0), is staged (1) or was dropped (2). -/
structure RouteAssign where
  weight : Nat := 0
  st : Nat := 0
  deriving DecidableEq, Repr, Inhabited

/-- An accepted or carried assignment (06 R175–R178). -/
structure RouteEntry where
  expert : Nat := 0
  slot : Nat := 0
  origin : Nat := 0
  token : Nat := 0
  rank : Nat := 0
  weight : Nat := 0
  age : Nat := 0
  /-- Its activation row while lists are made, and the row's poisoned bytes. -/
  row : Bytes := []
  poison : Nat := 0
  /-- Where its result row is read. -/
  res : Nat := 0
  deriving DecidableEq, Repr, Inhabited

/-- What is kept of an origin pass (06 R177). -/
structure OriginPass where
  pass : Nat := 0
  stage : Nat := 0
  outAddr : Nat := 0
  peg : Nat := 0
  tokens : Nat := 0
  k : Nat := 0
  units : Nat := 0
  resF32 : Bool := true
  outF32 : Bool := true
  /-- By token × 8 + rank. -/
  assigns : Tab RouteAssign := []
  /-- Tokens whose output is written. -/
  finals : List Nat := []
  deriving DecidableEq, Repr, Inhabited

/-- A pass whose COMBINE has not run. -/
structure RoutePass where
  pass : Nat := 0
  desc : Bytes := []
  accepted : List RouteEntry := []
  /-- Assignments that this pass dropped: (origin, token, rank). -/
  dropped : List (Nat × Nat × Nat) := []
  deriving DecidableEq, Repr, Inhabited

/-- What the routing engines keep of an expert table, by its address. -/
structure RouteTable where
  passes : List RoutePass := []
  origins : List OriginPass := []
  /-- The carried assignments, in the order of the carry area, and the bytes of a row there. -/
  carry : List RouteEntry := []
  carryRow : Nat := 0
  /-- The strum of its last list phase (R181). -/
  lastStrum : Option Nat := none
  /-- The NEXT_PASS that the last pass left in the table's header. -/
  next : Option Nat := none
  deriving DecidableEq, Repr, Inhabited

/-- A fret schedule entry (14 Table 14-14) and its place: engine and fret. -/
structure SchedEntry where
  engine : Nat := 0
  fret : Nat := 0
  step : Nat := 0
  part : Nat := 0
  bytes : Nat := 0
  offset : Nat := 0
  deriving DecidableEq, Repr, Inhabited

/-- The larder and the movers. -/
structure LarderSt where
  seqs : Tab Sequence := []
  pages : Tab Page := []
  moves : List Move := []
  steps : Tab Step := []
  /-- Descriptors by cellar; 64 + q holds the routing parts of quadrant q. -/
  movers : Tab (List MoverJob) := []
  tables : Tab RouteTable := []
  pagesLost : Nat := 0
  /-- The last plan: slots dispatched, sequences scheduled, the fret schedule bank. -/
  planSteps : List Nat := []
  planSeqs : Nat := 0
  planBytes : Nat := 0
  bank : Nat := 0
  /-- Reserved transfers of the strum that runs, in order. -/
  schedule : List SchedEntry := []
  /-- STEP_STATS. -/
  overruns : Nat := 0
  deadlinesMissed : Nat := 0
  deriving DecidableEq, Repr, Inhabited

end Sys2Proof.Machine
end

