-- ==== Sys2Proof/Machine/StLink.lean ====
section
/-! DEFINITION. State of the Chord engines' physical layer (spec 13). -/
namespace Sys2Proof.Machine

/-- LINK_STATUS.STATE. -/
inductive LinkState where
  | off | training | up | down
  deriving DecidableEq, Repr, Inhabited

/-- LANE_STATE of LINK_LANE. -/
inductive LaneState where
  | down | training | ready | active | failed
  deriving DecidableEq, Repr, Inhabited

/-- One lane. -/
structure Lane where
  lstate : LaneState := .down
  failReason : Nat := 0
  retries : Nat := 0
  uncorrected : Nat := 0
  corrected : Nat := 0
  cdr : Bool := false
  /-- Accepted markers in a row since the CDR locked. -/
  markers : Nat := 0
  /-- Intervals in a row without a good marker (R363). -/
  missed : Nat := 0
  /-- The lane's last accepted marker carried LEAVING, so many times in a row. -/
  leaving : Nat := 0
  /-- Its uncorrectable codewords of the last interval (Table 13-10). -/
  lastUnc : Nat := 0
  /-- CW_OFFSET of its next marker sent, and of the next one awaited, once a marker has been accepted (R348). -/
  txOffset : Nat := 0
  rxOffset : Option Nat := none
  deriving DecidableEq, Repr, Inhabited

/-- One engine, by logical number. -/
structure Engine where
  estate : LinkState := .off
  /-- LINK_STATUS reports these; LINK_CONFIG the configured ones. -/
  mode : Nat := 0
  rate : Nat := 0
  txMask : Nat := 0
  rxMask : Nat := 0
  ethUp : Nat := 0
  lastReason : Nat := 0
  downCount : Nat := 0
  cfgMode : Nat := 1
  cfgRate : Nat := 2
  minLanes : Nat := 1
  laneEnable : Nat := 0xFFFF
  asymPs : Int := 0
  noAsym : Bool := true
  skew : Nat := 0
  lanes : Tab Lane := []
  /-- Coefficients in use, for lanes that have a valid entry. -/
  eq : Tab LaneEq := []
  /-- The section's CRC failed (R357). -/
  eqTableBad : Bool := false
  /-- The partner's masks as its last accepted marker carried them. -/
  partnerRx : Nat := 0
  partnerTx : Nat := 0
  /-- LINK_DOWN was raised since the link was last UP (R361). -/
  downRaised : Bool := false
  /-- Link commands whose final record is due: COMMIT_SEQ and LANE_MASK. -/
  cmds : List (Nat × Nat) := []
  /-- Time since the last marker, in 1/25 of a time-base unit: a block slot at RATE 2 takes 256 (R347). -/
  slotClock : Nat := 0
  /-- Markers sent since training began, modulo 16: each 16 intervals a ROUTE_ADV goes out (14 R378). -/
  markerCount : Nat := 0
  /-- Markers with LEAVING still to be sent, and the reason with which the link then goes DOWN (R355). -/
  leavingLeft : Nat := 0
  downAfter : Option Nat := none
  deriving DecidableEq, Repr, Inhabited

/-- The engines. -/
structure LinkSt where
  engines : Tab Engine := []
  deriving DecidableEq, Repr, Inhabited

end Sys2Proof.Machine
end

