-- ==== Sys2Proof/Machine/StPwr.lean ====
section
/-! DEFINITION. State of the power domains, the power manager and the management port (spec 18). -/
namespace Sys2Proof.Machine

/-- State of a switched domain. -/
inductive PowerState where
  | on | retention | off
  deriving DecidableEq, Repr, Inhabited

/-- A cause that a domain in entry has latched (18 R500). -/
structure DomainRequest where
  target : PowerState := .on
  retainMask : Nat := 0
  /-- COMMIT_SEQ of the POWER_DOMAIN_SET, 0 for a wake. -/
  seq : Nat := 0
  deriving DecidableEq, Repr, Inhabited

/-- One switched domain (PWR_DOMAIN). -/
structure Domain where
  dstate : PowerState := .on
  target : PowerState := .on
  transition : Bool := false
  /-- The rest of a transition's causes, oldest first (LATCHED is 1 while it is not empty). -/
  latched : List DomainRequest := []
  retainMask : Nat := 0
  transitions : Nat := 0
  deriving DecidableEq, Repr, Inhabited

/-- A POWER_DOMAIN_SET whose final record is still due (18 R493). -/
structure DomainSet where
  seq : Nat := 0
  waiting : List Nat := []
  changed : Nat := 0
  failed : Nat := 0
  deriving DecidableEq, Repr, Inhabited

/-- One comparator (18 R505). -/
structure Comparator where
  enable : Bool := false
  asserted : Bool := false
  below : Bool := false
  /-- Bit 0 WAKE, bit 1 EVENT, bit 2 THROTTLE. -/
  action : Nat := 0
  source : Nat := 0
  hysteresis : Nat := 0
  value : Nat := 0
  deriving DecidableEq, Repr, Inhabited

/-- PWR_ATTIC[s]. -/
structure AtticPower where
  budget : Nat := 0
  grant : Nat := 0
  /-- The grant of the strum before, which a report is held against. -/
  lastGrant : Nat := 0
  reported : Nat := 0
  measured : Nat := 0
  deriving DecidableEq, Repr, Inhabited

/-- Caps that a POWER_CAP_SET sets from the next boundary (18 R507). -/
structure CapSet where
  package : Nat := 0
  hbm : Nat := 0
  cpIdleMs : Nat := 0
  attic : List Nat := []
  deriving DecidableEq, Repr, Inhabited

/-- The power manager. -/
structure PwrSt where
  domains : Tab Domain := []
  sets : List DomainSet := []
  /-- PWR_CAPABILITY: the fused caps and HUB_FLOOR, in 0.25 W. -/
  hubCap : Nat := 5000
  packageCap : Nat := 9600
  hubFloor : Nat := 2200
  /-- The board table's package cap. -/
  boardPackage : Nat := 4000
  /-- PWR_BUDGET. -/
  package : Nat := 4000
  hbm : Nat := 1200
  hub : Nat := 2800
  level : Nat := 0
  hbmLimiting : Bool := false
  /-- HBM power that R510 scales the shelves' capacity by; 0 for none. -/
  hbmMeasured : Nat := 0
  /-- The line transfers that each shelf may make in this fret, while HBM is limited, and those it has made. -/
  shelfLimit : Option Nat := none
  shelfLines : Tab Nat := []
  /-- PWR_READING at full resolution: averages of the last strum. -/
  readHub : Nat := 0
  readHbm : Nat := 0
  readPackage : Nat := 0
  cpIdleMs : Nat := 0
  /-- Coarsened readings (R437) and the boundary time of the latest refresh: hub, HBM, package, then the sites. -/
  coarse : List Nat := []
  coarseTime : Nat := 0
  /-- Readings of the running millisecond, for the average (R437): sum of the strum averages and their number. -/
  accum : List Nat := []
  accumStrums : Nat := 0
  attic : Tab AtticPower := []
  capSet : Option CapSet := none
  /-- Hub and HBM energy used since the boundary, in 0.25 W frets (R508). -/
  used : Nat := 0
  usedHbm : Nat := 0
  usedPackage : Nat := 0
  usedAttic : Tab Nat := []
  frets : Nat := 0
  /-- Boundary counts of the last POWER_LIMITING per cause and site (R512). -/
  lastLimiting : Tab Nat := []
  wakeLatch : Nat := 0
  wakes : Nat := 0
  comparators : Tab Comparator := []
  /-- SMBus SCL is held low until the CP is ready (R503). -/
  sclHeld : Bool := false
  /-- Temperatures and voltages the sensors read, by sensor ID (R519). -/
  sensors : Tab Nat := []
  deriving DecidableEq, Repr, Inhabited

/-- A record of the management event stream (18 R518). -/
structure HeldRecord where
  seq : Nat := 0
  record : Record := {}
  /-- An MB_COMPLETION message rather than an EVENT message. -/
  completion : Bool := false
  sent : Bool := false
  /-- An error record, sent whole (17 R488), in place of `record`. -/
  err : Option ErrRecord := none
  deriving DecidableEq, Repr, Inhabited

/-- The management port. -/
structure MgmtSt where
  sgmiiUp : Bool := false
  smbusEn : Bool := false
  i3cEn : Bool := false
  i3cDynAddr : Nat := 0
  eid : Nat := 0
  eventsDropped : Nat := 0
  held : List HeldRecord := []
  nextSeq : Nat := 0
  /-- Records dropped since the last EQ_OVERFLOW of the stream. -/
  droppedSince : Nat := 0
  /-- The management session of R409 is open. -/
  session : Bool := false
  /-- MB_REQUESTs received before READY (R553): TAG and bytes, oldest first. -/
  heldRequests : List Bytes := []
  deriving DecidableEq, Repr, Inhabited

end Sys2Proof.Machine
end

