-- ==== Sys2Proof/Machine/StReg.lean ====
section
/-! DEFINITION. State of the bandwidth regulators (spec 10).  Outstanding units are the charged units of the
transactions in flight, so they are not stored twice. -/
namespace Sys2Proof.Machine

/-- A master port (10 Table 10-1). -/
structure Master where
  guarantee : Nat := 0
  weight : Nat := 16
  effective : Nat := 0
  budget : Nat := 4
  urgency : Nat := 0
  missedStrums : Nat := 0
  missedCycles : Nat := 0
  heldCycles : Nat := 0
  loweredCycles : Nat := 0
  /-- It issued a transaction in this strum. -/
  active : Bool := false
  /-- Misses and cycles missed in this strum, and the boundary of the last GUARANTEE_MISSED. -/
  missNow : Nat := 0
  missCyclesNow : Nat := 0
  lastEvent : Option Nat := none
  deriving DecidableEq, Repr, Inhabited

/-- A shelf regulator of one partition (10 R281). -/
structure ShelfReg where
  guarantee : Nat := 0
  weight : Nat := 16
  effective : Nat := 0
  budget : Nat := 4
  missedStrums : Nat := 0
  active : Bool := false
  missNow : Nat := 0
  missCyclesNow : Nat := 0
  lastEvent : Option Nat := none
  deriving DecidableEq, Repr, Inhabited

/-- The regulators. -/
structure RegSt where
  masters : Tab Master := []
  /-- By shelf × 16 + partition. -/
  shelves : Tab ShelfReg := []
  /-- POOL_ALLOT of each partition; unlisted 0. -/
  allot : Tab Nat := []
  /-- Partitions whose masters are scaled (R289), and shelves whose effective values are derated (R288). -/
  scaled : List Nat := []
  derated : List Nat := []
  deriving DecidableEq, Repr, Inhabited

end Sys2Proof.Machine
end

