-- ==== Sys2Proof/Machine/StTime.lean ====
section
/-! DEFINITION. State of the time base, the strum and the alignment with other devices (spec 02). -/
namespace Sys2Proof.Machine

/-- TIME_STATUS.STATE (02 R57, Table 2-7). -/
inductive TimeState where
  | free | master | acquiring | locked | holdover | degraded
  deriving DecidableEq, Repr, Inhabited

/-- A time master as a time word names it (02 Table 2-6): GM_ID, GM_PRIORITY, GM_CLASS, HOPS, PERIOD_STEPS. -/
structure Candidate where
  gmId : Nat := 0
  gmPriority : Nat := 0
  /-- 0 FREE, 1 REFERENCED, 2 HOLDOVER. -/
  gmClass : Nat := 0
  hops : Nat := 0
  period : Nat := 0
  deriving DecidableEq, Repr, Inhabited

/-- What the device knows of the time words of one native link (02 R44, R46, R51). -/
structure LinkTime where
  /-- The candidate of the last valid word; none when the link has carried none, or was dropped under R51. -/
  cand : Option Candidate := none
  /-- SEQ of the last word received (the ECHO_SEQ that is sent back) and its receive time. -/
  lastSeq : Option (Nat × Nat) := none
  /-- Filtered path delay and partner offset (R47). -/
  delay : Int := 0
  offset : Int := 0
  /-- SEQ of the next time word sent, and TX_TIME of those sent, by SEQ (R44, R47). -/
  seq : Nat := 0
  sent : Tab Nat := []
  deriving DecidableEq, Repr, Inhabited

/-- The values a TIME_ROLE_SET holds for the next boundary (02 R33, 03 Table 3-10). -/
structure RoleSet where
  role : Nat
  priority : Nat
  ethPtpEn : Bool
  ptpDomain : Nat
  identity : Nat
  deriving DecidableEq, Repr, Inhabited

/-- The ordinary clock of IEEE 1588 (02 R50), followed through one engine: the times of its measurement under way. -/
structure PtpSt where
  /-- The engine through which a master is followed. -/
  engine : Option Nat := none
  /-- SEQ of the last Sync, its receive time t2, and its origin time t1 once that is known (a Follow_Up brings it). -/
  syncSeq : Nat := 0
  t1 : Option Nat := none
  t2 : Nat := 0
  /-- SEQ of the Delay_Req sent, and its send time t3. -/
  delaySeq : Nat := 0
  t3 : Option Nat := none
  /-- SEQ of the next Sync that the hub sends as a master. -/
  outSeq : Nat := 0
  deriving DecidableEq, Repr, Inhabited

/-- The time block. -/
structure TimeSt where
  /-- TIME_NOW.COUNT, 64 bits, always-on domain (Table 2-1). -/
  now : Nat := 0
  /-- The rate adjustment in ppm, at most 200 either way (R22). -/
  rateAdj : Int := 0
  /-- STRUM_STATUS: PERIOD_STEPS, FRET, PENDING_STEPS, CHANGE_PENDING, LAST_PLAN_CYCLES. -/
  periodSteps : Nat := 32
  fret : Nat := 0
  pendingSteps : Nat := 0
  changePending : Bool := false
  lastPlanCycles : Nat := 0
  /-- STRUM_COUNT, STRUM_BOUNDARY_TIME, PERIOD_CHANGE_TIME. -/
  strumCount : Nat := 0
  boundaryTime : Nat := 0
  changeTime : Nat := 0
  /-- TIME_STATUS. -/
  tstate : TimeState := .free
  fallback : Bool := true
  hops : Nat := 0
  gmClass : Nat := 0
  selEngine : Nat := 15
  gmPriority : Nat := 0x80
  gmId : Nat := 0
  /-- TIME_OFFSET. -/
  offset : Int := 0
  pathDelay : Nat := 0
  /-- TIME_CONFIG. -/
  role : Nat := 0
  priority : Nat := 0x80
  backgroundEn : Bool := true
  ethPtpEn : Bool := false
  identity : Nat := 0
  /-- IEEE 1588 domain number (R50). -/
  ptpDomain : Nat := 0
  /-- Values that take effect at the next boundary (R33). -/
  roleSet : Option RoleSet := none
  backgroundSet : Option Bool := none
  /-- A scrub pass missed its deadline; BACKGROUND_FRET_EN is set again at the next boundary (R33). -/
  reclaim : Bool := false
  /-- The device follows an outside reference through Ethernet-mode IEEE 1588 (R50, R543). -/
  referenced : Bool := false
  /-- The hardware timestamp of the last IEEE 1588 message (R50). -/
  ptpStamp : Nat := 0
  ptp : PtpSt := {}
  links : Tab LinkTime := []
  /-- The first ranking after the start has been made (R543). -/
  ranked : Bool := false
  /-- Acquisition: the single step to apply at what would be the next boundary (R48). -/
  stepPending : Option Int := none
  /-- The single step of the acquisition under way has been applied (R22, R48). -/
  stepped : Bool := false
  /-- Consecutive markers with the offset inside 25 ps (R48). -/
  lockMarkers : Nat := 0
  /-- Since when STATE has been LOCKED or MASTER without a break (R49). -/
  steadySince : Option Nat := none
  /-- Since when STATE has been HOLDOVER (R52). -/
  holdoverSince : Nat := 0
  /-- HOLDOVER or DEGRADED was passed since RESERVED_FALLBACK last became 1 (R54). -/
  wasHoldover : Bool := false
  /-- RESERVED_FALLBACK has been 0 since the start (R54: the first return raises no event). -/
  restoredOnce : Bool := false
  deriving DecidableEq, Repr, Inhabited

end Sys2Proof.Machine
end

