-- ==== Sys2Proof/Machine/StTrans.lean ====
section
/-! DEFINITION. State of the host address translation: bindings, caches, walks, faults, drains (spec 11). -/
namespace Sys2Proof.Machine

/-- A page-table format profile (11 Table 11-1). -/
structure Profile where
  levels : Nat := 1
  granule : Nat := 12
  /-- Index bits of each level. -/
  bits : List Nat := []
  leafLevels : Nat := 0
  present : Nat := 0
  write : Nat := 0
  writePol : Bool := false
  accessed : Nat := 0
  dirty : Nat := 0
  pageSize : Nat := 0
  canonical : Bool := false
  oaLo : Nat := 0
  oaHi : Nat := 0
  /-- 0 FAULT, 1 UPDATE, 2 IGNORE. -/
  adMode : Nat := 0
  bigEndian : Bool := false
  hierWrite : Bool := false
  deriving DecidableEq, Repr, Inhabited

/-- A bound PASID (11 R290, R291). -/
structure Binding where
  profile : Profile := {}
  root : Nat := 0
  faultEq : Option Nat := none
  /-- Milliseconds. -/
  timeout : Nat := 100
  ctx : Nat := 0
  /-- UNBIND has committed, and the slot drains (R306, R307). -/
  draining : Bool := false
  deriving DecidableEq, Repr, Inhabited

/-- Who asked for a translation (11 Table 11-3, Table 11-6). -/
inductive Asker where
  /-- A descriptor of a cellar's mover, numbered step × 1024 + part. -/
  | mover (cellar job : Nat)
  /-- A held die request of a site. -/
  | attic (site txn : Nat)
  /-- A message of a Chord engine. -/
  | chord (engine msg : Nat)
  deriving DecidableEq, Repr, Inhabited

/-- A requester attached to a fault or a walk. -/
structure Requester where
  who : Asker := .mover 0 0
  addr : Nat := 0
  write : Bool := false
  part : Nat := 0
  deriving DecidableEq, Repr, Inhabited

/-- A fault entry (11 R300); an unlisted entry is not open. -/
structure FaultEntry where
  access : Nat := 0
  reason : Nat := 0
  generation : Nat := 1
  pasid : Nat := 0
  requesters : List Requester := []
  level : Nat := 0
  owner : Nat := 0
  address : Nat := 0
  granule : Nat := 12
  sourceClass : Nat := 1
  sourceIndex : Nat := 0
  successes : Nat := 0
  /-- Closed by a SUCCESS; its walks run, and one that faults again reopens it (R303). -/
  retrying : Bool := false
  deriving DecidableEq, Repr, Inhabited

/-- A walk in progress (11 R292). -/
structure Walk where
  pasid : Nat := 0
  addr : Nat := 0
  write : Bool := false
  level : Nat := 0
  base : Nat := 0
  requesters : List Requester := []
  /-- The fault entry a SUCCESS of which started it. -/
  entry : Option Nat := none
  /-- It waits for the AtomicOp on its leaf; the leaf's value. -/
  leaf : Option Nat := none
  /-- An entry above denies writes under HIER_WRITE. -/
  deny : Bool := false
  /-- A walker runs it; a walk that waits for a walker has sent no read (R297). -/
  begun : Bool := false
  deriving DecidableEq, Repr, Inhabited

/-- A cached leaf translation. -/
structure Leaf where
  pasid : Nat := 0
  addr : Nat := 0
  size : Nat := 12
  out : Nat := 0
  write : Bool := false
  /-- A write may use it without a walk: the dirty update is made or not needed (R294). -/
  dirtyOk : Bool := false
  deriving DecidableEq, Repr, Inhabited

/-- A cached non-leaf entry: it gives the table base of `level`. -/
structure PsEntry where
  pasid : Nat := 0
  addr : Nat := 0
  size : Nat := 0
  level : Nat := 0
  base : Nat := 0
  deny : Bool := false
  deriving DecidableEq, Repr, Inhabited

/-- A use granted a translation and still in flight (11 R307). -/
structure Use where
  pasid : Nat := 0
  addr : Nat := 0
  bytes : Nat := 0
  write : Bool := false
  out : Nat := 0
  /-- The output page lies within an aligned block of 2^`size` bytes. -/
  size : Nat := 12
  deriving DecidableEq, Repr, Inhabited

/-- An UNMAP_HOST that drains, by COMMIT_SEQ. -/
structure Drain where
  pasid : Nat := 0
  uses : List Nat := []
  drained : Nat := 0
  faultsClosed : Nat := 0
  unbind : Bool := false
  deriving DecidableEq, Repr, Inhabited

/-- The translation block. -/
structure TransSt where
  bindings : Tab Binding := []
  faults : Tab FaultEntry := []
  /-- Requesters that wait for a free entry, oldest first, with their PASID (R300). -/
  waiting : List (Nat × Requester) := []
  faultWait : Nat := 0
  walks : Tab Walk := []
  nextWalk : Nat := 0
  /-- Requesters that failed, with the index of their error record, until they learn of it. -/
  failures : List (Requester × Nat) := []
  leaves : List Leaf := []
  /-- The micro-caches, oldest leaf first: movers by cellar, Chord engines from 64 on, the host-port DMA engine at 76 (R297). -/
  micro : Tab (List Leaf) := []
  psCache : List PsEntry := []
  uses : Tab Use := []
  nextUse : Nat := 0
  drains : Tab Drain := []
  deriving DecidableEq, Repr, Inhabited

end Sys2Proof.Machine
end

