-- ==== Sys2Proof/Machine/State.lean ====
section
/-! DEFINITION. The state of the hub, the faults and refusals, and the state right after reset. -/
namespace Sys2Proof.Machine

/-- One measurement of the attestation report (15 Table 15-11): its index and its content, item by item in the table's
order. -/
structure Measurement where
  index : Nat := 0
  content : List Nat := []
  deriving DecidableEq, Repr, Inhabited

/-- A marker as a lane sends it (13 R347): its five blocks, its codeword position, whether the lane is striped, and the number
of the free link-layer blocks around it. -/
structure SentMarker where
  blocks : List Block := []
  offset : Nat := 0
  striped : Bool := false
  fresh : Nat := 0
  deriving DecidableEq, Repr, Inhabited

/-- What the block sends out; `State.out` lists it, the newest first. -/
inductive Out where
  /-- A record written to a slot of an event queue in host memory (03 R69). -/
  | record (queue slot : Nat) (r : Record)
  /-- A write to host memory at a translated bus address; with the poisoned-TLP mark of 17 R476. -/
  | hostWrite (addr : Nat) (data : Bytes) (poison : Bool)
  /-- A response payload written by reference: PASID, host address, bytes (03 R62). -/
  | response (pasid addr : Nat) (data : Bytes)
  /-- An MSI-X message. -/
  | msix (vector addr data : Nat)
  /-- An EVENT or completion message of the management stream. -/
  | mgmtRecord (h : HeldRecord)
  /-- An MB_COMPLETION message. -/
  | mgmtCompletion (tag : Nat) (r : Record) (resp : Bytes)
  /-- A response on the management port: request kind, status, value. -/
  | mgmtResponse (kind status value : Nat)
  /-- The completion of a BAR2 read: its bus address, its data, and the poisoned 32-byte units of memory among them (08
  R239). -/
  | readData (bus : Nat) (data : Bytes) (poison : Nat)
  /-- A CXL.mem request of 64 bytes to a far-tier device: port, device, MemWr, device address (08 R230, R232). -/
  | cxlMem (port device : Nat) (write : Bool) (dpa : Nat)
  /-- An Unsupported Request completion (08 Table 8-2). -/
  | unsupported
  /-- An ATP message to the die of a site (12 Table 12-5), and a sideband message: site, kind, value. -/
  | atp (site : Nat) (m : AtpMsg)
  | sideband (site kind value : Nat)
  /-- A Chord packet on an engine (14 Table 14-5), and link-layer traffic: engine, kind, value. -/
  | packet (engine : Nat) (p : Packet)
  | linkCtl (engine kind value : Nat)
  /-- The alignment marker of a lane: engine, lane. -/
  | marker (engine lane : Nat) (m : SentMarker)
  /-- A ROUTE_ADV: engine, nodes with their hop counts (14 R378). -/
  | routeAdv (engine : Nat) (nodes : List (Nat × Nat))
  /-- An IEEE 1588 message: engine, kind, SEQ, the time it carries. -/
  | ptp (engine : Nat) (kind : PtpKind) (seq time : Nat)
  /-- Reads of a page-table entry and its AtomicOp: walk and bus address. -/
  | walkRead (walk addr : Nat)
  | walkCas (walk addr compare swap : Nat)
  /-- A flushing read of an output page (11 R307). -/
  | flushRead (addr : Nat)
  /-- An SPDM response: transport, code, a value. -/
  | spdm (transport code value : Nat)
  /-- The measurements an SPDM response carries. -/
  | measurements (transport : Nat) (l : List Measurement)
  /-- The plan as broadcast: slots, boundary time, its 64-byte entries as numbers (09 Table 9-10). -/
  | plan (slots : List Nat) (boundary : Nat) (entries : List Nat)
  /-- A code broadcast or unicast of an image's chunks: image, core (none: broadcast), chunk mask. -/
  | imageChunks (image : Nat) (core : Option Nat) (chunks : Nat)
  /-- The CP has broadcast maintenance on the harp that unlocks every way and then invalidates, and has polled the taps of
  these cellars in this order; each with whether it acknowledged (01 R13; 07 R208). -/
  | harpMaintenance (taps : List (Nat × Bool))
  /-- An ICMPv6 answer: engine, port, kind. -/
  | icmp (engine port kind : Nat)
  deriving DecidableEq, Repr, Inhabited

/-- Faults of the model. -/
inductive Fault where
  /-- Raised by a kernel-instruction command whose form IMAGE_LOAD refuses under 04 R95 (an undefined operation, a
  reserved field, an odd register pair): no such instruction ever reaches a core.  Safe: the machine stops where the
  spec gives the instruction no effect. -/
  | undefinedOperation
  deriving DecidableEq, Repr, Inhabited

/-- Refusals of the model. -/
inductive Refusal where
  /-- Raised by an arm of `exec` whose command has no meaning yet.  Safe: nothing is claimed of it. -/
  | notModelled (mnemonic : String)
  deriving DecidableEq, Repr, Inhabited

/-- The state of the hub. -/
structure State where
  time : TimeSt := {}
  cp : CpSt := {}
  part : PartSt := {}
  err : ErrSt := {}
  pwr : PwrSt := {}
  mgmt : MgmtSt := {}
  boot : BootSt := {}
  cells : CellsSt := {}
  mem : MemSt := {}
  larder : LarderSt := {}
  reg : RegSt := {}
  trans : TransSt := {}
  attic : AtticSt := {}
  link : LinkSt := {}
  chord : ChordSt := {}
  /-- The model's own counter of free values. -/
  fresh : Nat := 0
  /-- What has been sent out, the newest first. -/
  out : List Out := []
  /-- The commands that wait, first in, first out. -/
  pending : List Instr := []
  deriving DecidableEq, Repr, Inhabited

/-- The hub right after reset: every register at its reset value, STAGE ROM, no command waiting (16 R440; 10 R285;
14 R387). -/
def State.reset : State :=
  { reg := { masters := [(87, { guarantee := 2048, effective := 2048 }), (88, { guarantee := 256, effective := 256 })]
             allot := [(0, 259840)] }
    chord := { tags := [(0, (1, true))] } }

end Sys2Proof.Machine
end

