-- ==== Sys2Proof/Machine/Ops.lean ====
section
/-! DEFINITION. Operations that every chapter shares: contexts and epochs, records on event queues and on the
management stream, events, error records, commits, completions and final records. -/
namespace Sys2Proof.Machine

/-! ### Codes -/

/-- The value of a status (03 Table 3-7). -/
def statusCode : Status → Nat
  | .ok => 0x0000 | .accepted => 0x0001 | .aborted => 0x0002 | .noSession => 0x0003 | .versionMismatch => 0x0004
  | .unknownOpcode => 0x0005 | .badLength => 0x0006 | .badField => 0x0007 | .deniedRole => 0x0008
  | .deniedPartition => 0x0009 | .noResource => 0x000A | .payloadFault => 0x000B | .responseTooSmall => 0x000C
  | .partitionReset => 0x000D | .deviceReset => 0x000E | .cpRestarted => 0x000F | .poisoned => 0x0010
  | .partitionBusy => 0x0100 | .imageSignatureBad => 0x0200 | .seqNotOpen => 0x0300 | .stepBudgetExceeded => 0x0310
  | .stepPreemptLimit => 0x0311 | .matrixRegionBroken => 0x0312 | .translationInvalid => 0x0400
  | .admissionRefused => 0x0700 | .timeBadEffective => 0x0801 | .timePendingConflict => 0x0802
  | .fwSignatureBad => 0x0B00 | .fwRollback => 0x0B01 | .fwNotStaged => 0x0B02

/-- The value of an event (03 Table 3-9). -/
def eventValue : EventCode → Nat
  | .eqOverflow => 0x0001 | .eqError => 0x0002 | .cpRestarted => 0x0003 | .fwActivated => 0x0004
  | .contextReset => 0x0005 | .stepOverrun => 0x0100 | .timeStepped => 0x0200 | .timeDegraded => 0x0201
  | .timeRestored => 0x0202 | .strumPeriodMismatch => 0x0203 | .backgroundReclaimed => 0x0204
  | .guaranteeMissed => 0x0300 | .guaranteeDerated => 0x0301 | .hostFault => 0x0400 | .atticPortDown => 0x0500
  | .atticWidthReduced => 0x0501 | .linkDown => 0x0600 | .linkRetrained => 0x0601 | .errorLogged => 0x0700
  | .ceBucketOverflow => 0x0701 | .wayDisabled => 0x0702 | .pageRetired => 0x0703 | .unitAbsent => 0x0704
  | .scrubEscalated => 0x0705 | .powerLimiting => 0x0800

/-- The value of a severity (17 R488). -/
def severityValue : Severity → Nat
  | .corrected => 0 | .poisonWritten => 1 | .poisonConsumed => 2 | .accessError => 3 | .unitLost => 4 | .repaired => 5
  | .retired => 6

/-- Unit classes (17 Table 17-6). -/
def ucCore := 0
def ucCoreStore := 1
def ucCellarBuffer := 2
def ucMover := 3
def ucPeg := 4
def ucRouting := 5
def ucShelf := 6
def ucFarPort := 7
def ucHostPort := 8
def ucAttic := 9
def ucChord := 10
def ucDirectory := 11
def ucLarder := 12
def ucCp := 13
def ucSe := 14
def ucNoc := 15
def ucHarp := 16
def ucScrub := 17
def ucCellar := 18
def ucTime := 19
def ucRegulator := 20
def ucPower := 21

/-- Error codes (17 Table 17-10). -/
def ecCeOverflow := 0x0001
def ecUeSram := 0x0002
def ecUeMemory := 0x0003
def ecMacFail := 0x0004
def ecPoisonConsumed := 0x0005
def ecAccessError := 0x0006
def ecFirewall := 0x0007
def ecChannelDown := 0x0008
def ecFarDeviceFailed := 0x0009
def ecAtticLinePoisoned := 0x000A
def ecRetryExhausted := 0x000B
def ecPeerUnreachable := 0x000C
def ecRemoteAccess := 0x000D
def ecTranslation := 0x000E
def ecLinkMismatch := 0x000F
def ecRowRepaired := 0x0010
def ecPageRetired := 0x0011
def ecPageLost := 0x0012
def ecWayDisabled := 0x0013

/-- SOURCE of an event: the unit class and the low 11 bits of the unit's index (03 R544). -/
def source (cls idx : Nat) : Nat := cls * 2048 + idx % 2048

/-! ### Contexts, epochs, time as a context sees it -/

/-- Partition `p`. -/
def partOf (s : State) (p : Nat) : Partition := tget s.part.parts p {}

/-- Change partition `p`. -/
def modPart (s : State) (p : Nat) (f : Partition → Partition) : State :=
  { s with part := { s.part with parts := tmod s.part.parts p {} f } }

/-- The PARTITION field of a record of context `c`: 0xFF for the device context, which is partition 0's (03 R84). -/
def ctxField (c : Nat) : Nat := if c = 0 then 0xFF else c

/-- The PARTITION field of an error record: 31 for the device (17 R488, 03 R84). -/
def errPartition (c : Nat) : Nat := if c = 0 then 31 else c

/-- The epoch of a context (03 R80, R84). -/
def ctxEpoch (s : State) (c : Nat) : Nat := if c = 0 then s.part.deviceEpoch else (partOf s c).epoch

/-- A time-base value as a context sees it: a partition context sees the boundary time of its strum (15 R437). -/
def seenTime (s : State) (c : Nat) : Nat := if c = 0 then s.time.now else s.time.boundaryTime

/-- Emit something to the outside; `out` lists the newest first. -/
def emit (s : State) (o : Out) : State := { s with out := o :: s.out }

/-- Take the next fresh number for a free value. -/
def takeFresh (s : State) : Nat × State := (s.fresh, { s with fresh := s.fresh + 1 })

/-! ### Keys (15 R420, R429) -/

/-- The SE draws a key of `w` bits. -/
def drawKey (s : State) (w : Nat) : Nat × State :=
  let (n, s) := takeFresh s
  (Config.random n % 2 ^ w, s)

/-- The SE draws the keys of an owner of memory. -/
def drawMemKeys (s : State) : MemKeys × State :=
  let (x, s) := drawKey s 512
  let (m, s) := drawKey s 256
  ({ xts := x, mac := m }, s)

/-- Change the key slots. -/
def modKeys (s : State) (f : SeKeys → SeKeys) : State := { s with part := { s.part with keys := f s.part.keys } }

/-- The keys of a partition are drawn. -/
def drawPartKeys (s : State) (p : Nat) : State :=
  let (k, s) := drawMemKeys s
  modKeys s (fun x => { x with parts := tset x.parts p k })

/-- The keys of a partition are erased. -/
def erasePartKeys (s : State) (p : Nat) : State := modKeys s (fun x => { x with parts := tdel x.parts p })

/-- The device key is drawn. -/
def drawDeviceKey (s : State) : State :=
  let (k, s) := drawMemKeys s
  modKeys s (fun x => { x with device := some k })

/-- The keys of the IDE streams in use: those of streams that begin are drawn, those of streams that end are erased. -/
def drawIdeKeys (s : State) (streams : List Nat) : State :=
  let s := modKeys s (fun x => { x with ide := x.ide.filter (fun e => streams.contains e.1) })
  forEach (streams.filter (fun i => (tfind s.part.keys.ide i).isNone)) s (fun s i =>
    let (k, s) := drawKey s 256
    modKeys s (fun x => { x with ide := tset x.ide i k }))

/-- The keys of an SPDM session are drawn, or drawn anew. -/
def drawSessionKey (s : State) (t : Nat) : State :=
  let (k, s) := drawKey s 256
  modKeys s (fun x => { x with sessions := tset x.sessions t k })

/-- The keys of an SPDM session are erased. -/
def eraseSessionKey (s : State) (t : Nat) : State := modKeys s (fun x => { x with sessions := tdel x.sessions t })

/-! ### Event queues (03 R72–R76) -/

/-- Event queue `q`. -/
def eqOf (s : State) (q : Nat) : EventQueue := tget s.cp.eqs q {}

/-- Change event queue `q`. -/
def modEq (s : State) (q : Nat) (f : EventQueue → EventQueue) : State :=
  { s with cp := { s.cp with eqs := tmod s.cp.eqs q {} f } }

/-- A 32-bit difference of two free-running indices. -/
def idxDiff (a b : Nat) : Nat := (a + 2 ^ 32 - b) % 2 ^ 32

/-- The ring of a queue is full (03 R72). -/
def eqFull (e : EventQueue) : Bool := idxDiff e.producer e.consumer ≥ 2 ^ e.log2Size

/-- Queue `q` is ACTIVE and belongs to context `c`. -/
def eqActive (s : State) (q c : Nat) : Bool := (eqOf s q).state == .active && (eqOf s q).owner == c

/-- The default event queue of a context (03 R72). -/
def defaultQueue (s : State) (c : Nat) : Option Nat :=
  (s.cp.eqs.find? (fun e => e.2.isDefault && e.2.owner == c && e.2.state != .none)).map (·.1)

/-- One more event or record that could not be queued (03 R75, R91). -/
def countUnqueued (s : State) : State := { s with cp := { s.cp with unqueued := satInc 16 s.cp.unqueued } }

/-- The context that a record names. -/
def recordCtx (r : Record) : Nat := if r.partition = 0xFF then 0 else r.partition

/-- EQ_STATUS.FULL_STALL: completions wait for space (03 R75). -/
def fullStall (e : EventQueue) : Bool := e.state == .active && eqFull e && e.waiting.any (fun r => r.kind != .event)

/-- Hand a completion or step completion record to a queue: it waits there in order (03 R75).  A queue in ERROR, or one
that was destroyed, passes it to the default queue of the record's context. -/
def deliver (s : State) (q : Nat) (r : Record) : State :=
  if eqActive s q (recordCtx r) then modEq s q (fun e => { e with waiting := e.waiting ++ [r] })
  else
    match defaultQueue s (recordCtx r) with
    | none => countUnqueued s
    | some d =>
      if d = q ∨ (eqOf s d).state ≠ .active then countUnqueued s
      else modEq s d (fun e => { e with waiting := e.waiting ++ [r] })

/-- Hand an event record to the default queue of its context (03 R75, R91). -/
def deliverEvent (s : State) (c : Nat) (r : Record) : State :=
  let s := { s with cp := { s.cp with eventsRaised := satInc 32 s.cp.eventsRaised } }
  match defaultQueue s c with
  | none => countUnqueued s
  | some q =>
    if (eqOf s q).state ≠ .active then countUnqueued s
    else if eqFull (eqOf s q) then modEq s q (fun e => { e with dropped := satInc 16 e.dropped })
    else modEq s q (fun e => { e with waiting := e.waiting ++ [r] })

/-- An event record of context `c`: `detail t` gives the RESULT bits above [63:0] for a time base `t` as the context
sees it (03 Table 3-5, 15 R437). -/
def eventRecord (s : State) (c : Nat) (t : Nat) (e : EventCode) (src : Nat) (detail : Nat → Nat) : Record :=
  { kind := .event, partition := ctxField c, code := eventValue e, tag := 0, epoch := ctxEpoch s c, commitSeq := 0,
    result := t % 2 ^ 64 + detail (t % 2 ^ 64), source := src }

/-! ### The management event stream (18 R518) -/

/-- Put a record into the hold; it takes the next RECORD_SEQ, and is sent at once while a session is open. -/
def holdPush (s : State) (h : HeldRecord) : State :=
  let h := { h with seq := s.mgmt.nextSeq, sent := s.mgmt.session }
  let s := { s with mgmt := { s.mgmt with held := s.mgmt.held ++ [h], nextSeq := (s.mgmt.nextSeq + 1) % 2 ^ 31 } }
  if s.mgmt.session then emit s (.mgmtRecord h) else s

/-- Count one record dropped from the stream. -/
def holdDrop (s : State) : State :=
  { s with mgmt := { s.mgmt with eventsDropped := satInc 16 s.mgmt.eventsDropped
                                 droppedSince := satInc 16 s.mgmt.droppedSince } }

/-- A record for the stream: at most 64 are held; with a session open the 65th is dropped, with none it displaces the
oldest. -/
def mgmtPush (s : State) (h : HeldRecord) : State :=
  if s.mgmt.held.length < 64 then holdPush s h
  else if s.mgmt.session then holdDrop s
  else holdPush (holdDrop { s with mgmt := { s.mgmt with held := s.mgmt.held.drop 1 } }) h

/-- When space opens after a drop, one EQ_OVERFLOW record takes the next place (18 R518, 03 R547). -/
def mgmtSettle (s : State) : State :=
  if s.mgmt.droppedSince = 0 ∨ 64 ≤ s.mgmt.held.length then s
  else
    let r := eventRecord s 0 s.time.now .eqOverflow (source ucCp 0) (fun _ => field s.mgmt.droppedSince 64 16)
    holdPush { s with mgmt := { s.mgmt with droppedSince := 0 } } { record := r }

/-! ### Events -/

/-- Raise an event to the context `c`. -/
def raiseTo (s : State) (c : Nat) (e : EventCode) (src : Nat) (detail : Nat → Nat) : State :=
  deliverEvent s c (eventRecord s c (seenTime s c) e src detail)

/-- Raise an event to the management stream, at full resolution, for context `c`. -/
def raiseMgmt (s : State) (c : Nat) (e : EventCode) (src : Nat) (detail : Nat → Nat) : State :=
  mgmtPush s { record := eventRecord s c s.time.now e src detail }

/-- The contexts that exist beside the device context: partitions 1–15 not in STATE NONE. -/
def partCtxs (s : State) : List Nat :=
  (List.range 16).filter (fun p => p != 0 && (partOf s p).pstate != .none)

/-- Raise an event to the device context and to every partition's context (03 R91). -/
def raiseAllCtx (s : State) (e : EventCode) (src : Nat) (detail : Nat → Nat) : State :=
  forEach (0 :: partCtxs s) s (fun s c => raiseTo s c e src detail)

/-! ### Error records (17 R488, R489) -/

/-- The DETAIL of ERROR_LOGGED (17 Table 17-11). -/
def errorLoggedDetail (r : ErrRecord) (t : Nat) : Nat :=
  field r.index 64 32 + field (severityValue r.severity) 96 4 + field r.unitClass 104 8 + field r.unitIndex 112 16
    + field r.code 128 16 + field r.address 192 64 + field t 256 64

/-- Two causes are one record when they recur within a strum with all of these equal (17 R489). -/
def sameCause (a b : ErrRecord) : Bool :=
  a.unitClass == b.unitClass && a.unitIndex == b.unitIndex && a.code == b.code && a.address == b.address
    && a.partition == b.partition && a.stepTag == b.stepTag && a.strum == b.strum

/-- Write an error record and report it; answers the INDEX of the record that stands for the cause. -/
def logError (s : State) (r : ErrRecord) : State × Nat :=
  let c := if r.partition = 31 then 0 else r.partition
  let r := { r with strum := s.time.strumCount, boundary := s.time.boundaryTime }
  match s.err.ring.find? (fun e => sameCause e.2 r) with
  | some (slot, old) =>
    ({ s with err := { s.err with ring := tset s.err.ring slot { old with count := old.count + r.count } } }, old.index)
  | none =>
    let i := s.err.nextIndex
    let full := { r with index := i, time := s.time.now % 2 ^ 64, epoch := ctxEpoch s c }
    let kept := { full with time := if r.partition = 31 then full.time else seenTime s c }
    let slot := i % 4096
    let overwrites := match tfind s.err.ring slot with
      | none => false
      | some o => !s.err.acked.contains o.index
    let s := { s with err := { s.err with
      ring := tset s.err.ring slot kept
      nextIndex := if (i + 1) % 2 ^ 32 = 0 then 1 else (i + 1) % 2 ^ 32
      lost := if overwrites then satInc 16 s.err.lost else s.err.lost
      acked := match tfind s.err.ring slot with
        | none => s.err.acked
        | some o => s.err.acked.filter (· != o.index) } }
    let s := mgmtPush s { err := some full }
    if r.severity = .corrected then (s, i)
    else
      let idx := if r.unitClass = ucCore ∨ r.unitClass = ucCoreStore then r.unitIndex / 64 else r.unitIndex
      let src := source r.unitClass idx
      let s := raiseTo s c .errorLogged src (errorLoggedDetail full)
      (raiseMgmt s c .errorLogged src (errorLoggedDetail full), i)

/-- Write an error record whose INDEX nothing needs. -/
def logErr (s : State) (r : ErrRecord) : State := (logError s r).1

/-! ### Generation counts -/

/-- GENERATION increments (15 R435). -/
def bumpGeneration (s : State) : State :=
  { s with part := { s.part with generation := (s.part.generation + 1) % 2 ^ 64 } }

/-- CONFIG_GEN increments, once it has become 1 at READY (19 R525). -/
def bumpConfig (s : State) : State :=
  if s.part.configGen = 0 then s else { s with part := { s.part with configGen := (s.part.configGen + 1) % 2 ^ 32 } }

/-! ### Commands in channels: commits, completions, final records (03 R64–R71, R79, R86) -/

/-- Channel `c`: mailbox 0–63, or management place 64–71. -/
def chanOf (s : State) (c : Nat) : Mailbox := tget s.cp.chans c {}

/-- Change channel `c`. -/
def modChan (s : State) (c : Nat) (f : Mailbox → Mailbox) : State :=
  { s with cp := { s.cp with chans := tmod s.cp.chans c {} f } }

/-- Channel `c` is a place of the management channel. -/
def isMgmt (c : Nat) : Bool := 64 ≤ c

/-- Pass a commit point: the next number of the device-wide order (03 R68).  The count skips 0, which means "did not
commit" (Table 3-4). -/
def commit (s : State) : State × Nat :=
  let n := if (s.cp.commitSeq + 1) % 2 ^ 32 = 0 then 1 else (s.cp.commitSeq + 1) % 2 ^ 32
  ({ s with cp := { s.cp with commitSeq := n } }, n)

/-! The opcodes of Table 3-6 (03 R86). -/

def opHello := 0x0001
def opEqCreate := 0x0010
def opEqDestroy := 0x0011
def opPartitionCreate := 0x0100
def opPartitionDestroy := 0x0101
def opPartitionReset := 0x0102
def opPartitionQuery := 0x0103
def opPartitionPolicySet := 0x0104
def opImageLoad := 0x0200
def opModelBind := 0x0201
def opModelUnbind := 0x0202
def opSeqOpen := 0x0300
def opSeqClose := 0x0301
def opStepSubmit := 0x0302
def opMapHost := 0x0400
def opUnmapHost := 0x0401
def opFaultRespond := 0x0402
def opPeerWindowSet := 0x0500
def opPeerWindowClear := 0x0501
def opPeerAdmitSet := 0x0502
def opLinkQuery := 0x0600
def opLinkRetrain := 0x0601
def opLinkModeSet := 0x0602
def opQosSet := 0x0700
def opTimeQuery := 0x0800
def opTimePeriodSet := 0x0801
def opTimeRoleSet := 0x0802
def opTimeBackgroundSet := 0x0803
def opPowerQuery := 0x0900
def opPowerCapSet := 0x0901
def opPowerDomainSet := 0x0902
def opAttest := 0x0A00
def opFwStage := 0x0B00
def opFwActivate := 0x0B01

/-- The completion record of the command in channel `c` (03 Table 3-4). -/
def completionOf (s : State) (c : Nat) (t : Taken) (code : Status) (seq result : Nat) : Record :=
  { kind := .mailboxCompletion, partition := ctxField t.ctx, code := statusCode code, tag := t.hdr.tag,
    epoch := ctxEpoch s t.ctx, commitSeq := seq, result := result % 2 ^ 320,
    source := if isMgmt c then 0xFFFF else c }

/-- The command of channel `c` is DONE: the window takes the record and the mailbox becomes DONE, with a copy to EQ_ID when
EQ_COPY is set; on the management channel an MB_COMPLETION message goes out, while its session is open, and the place
becomes free. -/
def finishCmd (s : State) (c : Nat) (code : Status) (seq result : Nat) (resp : Bytes := []) : State :=
  let t := (chanOf s c).taken.getD {}
  let r := completionOf s c t code seq result
  if isMgmt c then
    let s := modChan s c (fun _ => {})
    if s.mgmt.session then emit s (.mgmtCompletion t.hdr.tag r resp) else s
  else
    let s := modChan s c (fun m => { m with
      state := .done, abortRequested := false, window := some r, taken := none
      resp := if t.hdr.respByRef then m.resp else (resp.zipIdx.map (fun p => (p.2, p.1))) })
    if t.hdr.eqCopy ∧ eqActive s t.hdr.eqId t.ctx then deliver s t.hdr.eqId { r with copy := true } else s

/-- End the command of channel `c`.  One that has committed and whose DONE comes later stays TAKEN with its outcome (03 R66);
a PARTITION_RESET is DONE at its commit (03 R80). -/
def complete (s : State) (c : Nat) (code : Status) (seq result : Nat) (resp : Bytes := []) : State :=
  let t := (chanOf s c).taken.getD {}
  if t.lateDone && seq != 0 && t.hdr.opcode != opPartitionReset then
    modChan s c (fun m => { m with taken := some { t with commitSeq := some seq, ended := some (code, result, resp) } })
  else finishCmd s c code seq result resp

/-- The command of channel `c` ends from outside, by a reset or a restart: one that has committed keeps its effect and carries
its COMMIT_SEQ with RESULT[0] 1; any other had no effect (03 R80, R88). -/
def cutCmd (s : State) (c : Nat) (code : Status) : State :=
  match ((chanOf s c).taken.getD {}).commitSeq with
  | some n => finishCmd s c code n 1
  | none => finishCmd s c code 0 0

/-- A command that fails before its commit point: no effect, COMMIT_SEQ 0 (03 R71). -/
def failCmd (s : State) (c : Nat) (code : Status) (result : Nat := 0) : State := complete s c code 0 result

/-- The command of channel `c` when it is TAKEN and has the given opcode. -/
def takenCmd (s : State) (c opcode : Nat) : Option Taken :=
  match (chanOf s c).state, (chanOf s c).taken with
  | .taken, some t => if t.hdr.opcode = opcode then some t else none
  | _, _ => none

/-- Run the body of a TAKEN command: an ABORT that waits ends it before its commit point, and one that has committed ends
with its own status (03 R66); a command that is not there leaves the state as it is. -/
def runCmd (s : State) (c opcode : Nat) (body : State → Taken → State) : State :=
  match takenCmd s c opcode with
  | none => s
  | some t =>
    match t.ended with
    | some (code, result, resp) => finishCmd s c code (t.commitSeq.getD 0) result resp
    | none => if (chanOf s c).abortRequested then failCmd s c .aborted else body s t

/-- The end of a synchronous command: its checks, else its commit, its effect, and OK with a RESULT. -/
def finishSync (s : State) (c : Nat) (bad : Option Status) (eff : State → State) (result : State → Nat) : State :=
  match bad with
  | some st => failCmd s c st
  | none =>
    let (s, n) := commit s
    let s := eff s
    complete s c .ok n (result s)

/-- A synchronous command that changes nothing has no commit number (03 R68, Table 3-4). -/
def finishQuery (s : State) (c : Nat) (result : Nat) (resp : Bytes := []) : State := complete s c .ok 0 result resp

/-- Accept an asynchronous command at its commit: the mailbox completes with ACCEPTED, and with its response payload where
it has one, and the final record is due. -/
def accept (s : State) (c : Nat) (t : Taken) (obj : Nat := 0) (arg : Nat := 0) (resp : Bytes := []) : State × Nat :=
  let (s, n) := commit s
  let a : Async := { seq := n, chan := c, opcode := t.hdr.opcode, ctx := t.ctx, tag := t.hdr.tag, eqId := t.hdr.eqId,
                     mgmt := t.mgmt, obj := obj, arg := arg }
  let s := { s with cp := { s.cp with asyncs := s.cp.asyncs ++ [a] } }
  (complete s c .accepted n 0 resp, n)

/-- Write the final records that are due at the front of a mailbox's stream: they keep posting order (03 R79). -/
def flushFinals (l : List Async) (c : Nat) (s : State) : List Async × State :=
  match l with
  | [] => ([], s)
  | a :: r =>
    if a.chan ≠ c then
      let (r', s) := flushFinals r c s
      (a :: r', s)
    else
      match a.final with
      | none => (a :: r, s)
      | some rec =>
        let s := if a.mgmt then mgmtPush s { record := rec, completion := true }
                 else
                   let q := if a.opcode = opEqDestroy then a.arg else a.eqId
                   if q < 512 then deliver s q rec else s
        flushFinals r c s

/-- The accepted command with COMMIT_SEQ `n`. -/
def asyncOf (s : State) (n : Nat) : Option Async := s.cp.asyncs.find? (fun a => a.seq == n && a.final.isNone)

/-- COMMIT_SEQ of a final record: the number of the commit while its effect stands.  A failure outside the three cases of 03 R71
carries 0: its effect does not stand. -/
def finalSeq (a : Async) (code : Status) (result : Nat) : Nat :=
  if code = .ok ∨ code = .payloadFault ∨ ((code = .partitionReset ∨ code = .deviceReset ∨ code = .cpRestarted) ∧ result % 2 = 1)
  then a.seq else 0

/-- The final record of the accepted command `n` (03 R86). -/
def finalize (s : State) (n : Nat) (code : Status) (result : Nat) : State :=
  match asyncOf s n with
  | none => s
  | some a =>
    let fin : Record :=
      { kind := .mailboxCompletion, partition := ctxField a.ctx, code := statusCode code, tag := a.tag,
        epoch := ctxEpoch s a.ctx, commitSeq := finalSeq a code result, result := result % 2 ^ 320,
        source := if a.mgmt then 0xFFFF else a.chan }
    let l := s.cp.asyncs.map (fun b => if b.seq = n then { b with final := some fin } else b)
    let (l, s) := flushFinals l a.chan s
    { s with cp := { s.cp with asyncs := l } }

/-! ### Users of queues and PASIDs -/

/-- PASID `p` is bound in context `c`, and not draining (11 R291, R306). -/
def pasidBound (s : State) (p c : Nat) : Bool :=
  match tfind s.trans.bindings p with
  | none => false
  | some b => b.ctx == c && !b.draining

/-- W: the input width of a profile (11 R290). -/
def inputWidth (p : Profile) : Nat := p.granule + sum (p.bits.take p.levels)

/-- The CANONICAL rule holds for an address (11 R290). -/
def canonicalOk (p : Profile) (a : Nat) : Bool :=
  let w := inputWidth p
  if 64 ≤ w then true
  else
    let top := a % 2 ^ 64 / 2 ^ w
    if p.canonical ∧ bitAt a (w - 1) then top == 2 ^ (64 - w) - 1 else top == 0

/-- A range of host addresses can be translated for a context: its PASID is bound there, and its ends obey the CANONICAL rule.
What the walkers then read in the host's tables comes with the access (11 R291, R295). -/
def hostRangeOk (s : State) (pasid ctx a n : Nat) : Bool :=
  pasidBound s pasid ctx
    && (match tfind s.trans.bindings pasid with
        | some b => canonicalOk b.profile a && canonicalOk b.profile (a + n - 1)
        | none => false)

/-- Users of an event queue (03 R78): accepted commands and steps whose final record is not written yet, which a queue
in ERROR has not, and bound PASIDs that name it as their FAULT_EQ. -/
def eqUsers (s : State) (q : Nat) : Nat :=
  let bound := (s.trans.bindings.filter (fun e => e.2.faultEq == some q)).length
  if (eqOf s q).state = .error then bound
  else
    bound + (s.cp.asyncs.filter (fun a => a.eqId == q && !a.mgmt)).length
      + (s.larder.steps.filter (fun e => e.2.eqId == q && !e.2.mgmt && e.2.peer.isNone)).length
      + ((eqOf s q).waiting.filter (fun r => r.kind != .event && !r.copy)).length

/-- A read of host memory that came back as a poisoned TLP is counted (19 HOST_LINK_STATUS.POISON_RX), and
Advanced Error Reporting shows it. -/
def tlpPoison (s : State) (bad : Bool) : State :=
  if bad then { s with boot := { s.boot with poisonRx := satInc 32 s.boot.poisonRx, aerPoisoned := true } } else s

/-! ### Power of the CP and reach of the host -/

/-- Power domain `d` (18 R491). -/
def domainOf (s : State) (d : Nat) : Domain := tget s.pwr.domains d {}

/-- Change power domain `d`. -/
def modDomain (s : State) (d : Nat) (f : Domain → Domain) : State :=
  { s with pwr := { s.pwr with domains := tmod s.pwr.domains d {} f } }

/-- Domain `d` is ON and not in transition. -/
def domainOn (s : State) (d : Nat) : Bool := (domainOf s d).dstate == .on && !(domainOf s d).transition

/-- The host reaches the register space: the link is up and the clocks run (16 R440, 20 R535). -/
def hostReaches (s : State) : Bool := s.boot.hostUp && !s.boot.stopped && !s.boot.coldResetLow

/-- The hub sends no host DMA and no MSI-X: D3hot, or bus mastering switched off (08 Table 8-8). -/
def hostSilent (s : State) : Bool := s.boot.d3hot || !s.boot.busMaster

/-- The management port is alive: the clocks run. -/
def mgmtReaches (s : State) : Bool := !s.boot.stopped && !s.boot.coldResetLow

/-- STAGE is READY. -/
def isReady (s : State) : Bool := s.boot.stage == .ready && !s.boot.stopped

/-- A wake source fires (18 R502, R500): it is latched while the CP domain is not ON; a domain whose entry is complete
starts its exit at once, one in entry when the entry ends. -/
def wakeCp (s : State) (src : Nat) : State :=
  if domainOn s 101 then s
  else
    let s := { s with pwr := { s.pwr with wakeLatch := setBit s.pwr.wakeLatch src } }
    let d := domainOf s 101
    if d.transition then
      if d.target = .on then s
      else modDomain s 101 (fun d => { d with latched := d.latched ++ [⟨.on, 0, 0⟩] })
    else
      let s := { s with pwr := { s.pwr with wakes := satInc 32 s.pwr.wakes } }
      modDomain s 101 (fun d => { d with transition := true, target := .on })

end Sys2Proof.Machine
end

