-- ==== Sys2Proof/Machine/Mem.lean ====
section
/-! DEFINITION. The address map and its owners, the bytes and the poison of the homes, the write-combining buffers, the
coherence conflicts of the directories, and atomics (spec 08, 15 R418–R419, 12 R319, 04 R104–R106). -/
namespace Sys2Proof.Machine

/-! ### Memory in its one canonical form -/

/-- Bytes by address: addresses rise strictly, and no listed byte is zero, which is what an unlisted address reads as. -/
abbrev Memory := List Host.Cell

/-- Every listed address lies above `lo`, addresses rise, and no listed byte is zero. -/
def memWf : Option Nat → Memory → Bool
  | _, [] => true
  | lo, (a, b) :: r => (match lo with | none => true | some l => decide (l < a)) && b != 0 && memWf (some a) r

/-- The canonical form. -/
def Memory.wf (m : Memory) : Bool := memWf none m

/-- The byte at an address. -/
def memRead : Memory → Nat → Byte
  | [], _ => 0
  | (a, b) :: r, x => if x = a then b else memRead r x

/-- Write one byte; a zero takes the entry out. -/
def memWrite : Memory → Nat → Byte → Memory
  | [], x, v => if v = 0 then [] else [(x, v)]
  | (a, b) :: r, x, v =>
    if x < a then (if v = 0 then (a, b) :: r else (x, v) :: (a, b) :: r)
    else if x = a then (if v = 0 then r else (x, v) :: r)
    else (a, b) :: memWrite r x v

/-- Write zeros over a range: its entries go. -/
def memZero (m : Memory) (base len : Nat) : Memory := m.filter (fun c => c.1 < base || base + len ≤ c.1)

/-- `n` bytes from an address. -/
def memBytes (m : Memory) (a n : Nat) : Bytes := (List.range n).map (fun i => memRead m (a + i))

/-- Write a byte string. -/
def memWriteBytes (m : Memory) (a : Nat) (b : Bytes) : Memory :=
  match b with
  | [] => m
  | x :: r => memWriteBytes (memWrite m a x) (a + 1) r

/-- Change the bytes. -/
def modBytes (s : State) (f : Memory → Memory) : State := { s with mem := { s.mem with bytes := f s.mem.bytes } }

/-- Write bytes of one line, by offset. -/
def putTable (m : Memory) (base : Nat) (b : Tab Byte) : Memory := b.foldl (fun m x => memWrite m (base + x.1) x.2) m

/-- Write bytes of the line at HPA `line` × 128. -/
def putLine (s : State) (line : Nat) (b : Tab Byte) : State := modBytes s (fun m => putTable m (line * 128) b)

/-- The bytes of a range become zero. -/
def zeroBytes (s : State) (base len : Nat) : State := modBytes s (fun m => memZero m base len)

/-- The 32-byte unit of an address is poisoned. -/
def poisonedUnit (s : State) (u : Nat) : Bool := (tfind s.mem.poison u).isSome

/-- Any byte of a range is poisoned in memory. -/
def poisonedRange (s : State) (a n : Nat) : Bool :=
  s.mem.poison.any (fun e => e.1 * 32 < a + n && a < (e.1 + 1) * 32)

/-- Poison or clear the 32-byte units from `u`, `n` of them. -/
def setPoison (s : State) (u n : Nat) (on : Bool) : State :=
  let p := if on then (List.range n).foldl (fun t i => tset t (u + i) ()) s.mem.poison
           else s.mem.poison.filter (fun e => e.1 < u || u + n ≤ e.1)
  { s with mem := { s.mem with poison := p } }

/-! ### Units and their presence -/

def modCore (s : State) (k : Nat) (f : Core → Core) : State :=
  { s with cells := { s.cells with cores := tmod s.cells.cores k {} f } }
def coreOf (s : State) (k : Nat) : Core := tget s.cells.cores k {}
def modCellar (s : State) (c : Nat) (f : Cellar → Cellar) : State :=
  { s with cells := { s.cells with cellars := tmod s.cells.cellars c {} f } }
def cellarOf (s : State) (c : Nat) : Cellar := tget s.cells.cellars c {}
def modShelf (s : State) (n : Nat) (f : Shelf → Shelf) : State :=
  { s with mem := { s.mem with shelves := tmod s.mem.shelves n {} f } }
def shelfOf (s : State) (n : Nat) : Shelf := tget s.mem.shelves n {}
def modFar (s : State) (p : Nat) (f : FarPort → FarPort) : State :=
  { s with mem := { s.mem with far := tmod s.mem.far p {} f } }
def farOf (s : State) (p : Nat) : FarPort := tget s.mem.far p {}
def modSite (s : State) (n : Nat) (f : Site → Site) : State :=
  { s with attic := { s.attic with sites := tmod s.attic.sites n {} f } }
def siteOf (s : State) (n : Nat) : Site := tget s.attic.sites n {}

/-- Power domain of a unit (18 Table 18-1). -/
def domCellar (c : Nat) : Nat := c
def domShelf (n : Nat) : Nat := 64 + n
def domEngine (e : Nat) : Nat := 76 + e
def domAttic (t : Nat) : Nat := 88 + t

/-- A domain works as long as it has not left ON: until its entry is complete (18 R494, R496). -/
def domainLive (s : State) (d : Nat) : Bool := (domainOf s d).dstate == .on

/-- A cellar is present and ON. -/
def cellarUp (s : State) (c : Nat) : Bool := bitAt s.boot.presentCellars c && domainLive s (domCellar c)

/-- A core is present and its cellar ON. -/
def coreUp (s : State) (k : Nat) : Bool := cellarUp s (k / 64) && bitAt (tget s.boot.presentCores (k / 64) 0) (k % 64)

/-- The banks of a cellar that are not disabled, ascending. -/
def liveBanks (c : Cellar) : List Nat := (List.range 16).filter (fun b => !(tget c.banks b {}).off)

/-! ### The HPA map (08 R212, Table 8-1) -/

/-- What an HPA names. -/
inductive Place where
  | shelf (n : Nat)
  | scratch (cellar : Nat)
  | coreStore (core : Nat)
  | attic (site : Nat)
  | far (port decoder : Nat)
  | peer (window : Nat)
  | register (off : Nat)
  | unmapped
  deriving DecidableEq, Repr, Inhabited

/-- Size of 64 GiB, 16 MiB and the other strides of Table 8-1. -/
def shelfSize := 0x1000000000
def scratchBase := 0x10000000000
def scratchStride := 0x1000000
def coreBase := 0x10100000000
def coreStride := 0x40000
def atticBase := 0x20000000000
def atticStride := 0x4000000000
def farBase := 0x80000000000
def peerBase := 0x400000000000
def peerStride := 0x10000000000
def registerBase := 0xFF0000000000

/-- The channel of an offset of a shelf (R215). -/
def channelOf (off : Nat) : Nat := Nat.xor (bits off 9 5) (Nat.xor (bits off 18 5) (bits off 27 5))

/-- The ROW_ID of a shelf address (Table 8-4). -/
def rowIdOf (s : State) (hpa : Nat) : Nat :=
  let x := shelfOf s (hpa / shelfSize)
  let r := Config.rowOf (hpa / 512)
  bits r 0 18 % 2 ^ x.rowBits + field (bits r 18 4 % 2 ^ x.banksLog2) 18 4 + field (bits r 22 1) 22 1
    + field (channelOf (hpa % shelfSize)) 23 5 + field (bits r 28 4 % max 1 x.sids) 28 4

/-- The bank of a ROW_ID: stack ID, channel, pseudo-channel and bank. -/
def rowBank (row : Nat) : Nat := row % 2 ^ 32 / 2 ^ 18

/-- A shelf address whose channel is held for a retrain, or whose bank a soft repair holds (R218, R228). -/
def shelfHolds (s : State) (hpa : Nat) : Bool :=
  if hpa < 12 * shelfSize then
    let x := shelfOf s (hpa / shelfSize)
    bitAt x.held (channelOf (hpa % shelfSize))
      || (match x.job with | some j => rowBank (rowIdOf s hpa) == rowBank j.row | none => false)
  else false

/-- A shelf in RETENTION, which holds accesses and wakes (18 R496). -/
def shelfSleeps (s : State) (n : Nat) : Bool :=
  bitAt s.boot.presentShelves n && (domainOf s (domShelf n)).dstate == .retention

/-- An access wakes a shelf in RETENTION. -/
def wakeShelf (s : State) (n : Nat) : State :=
  let d := domainOf s (domShelf n)
  if !shelfSleeps s n then s
  else if !d.transition then modDomain s (domShelf n) (fun d => { d with transition := true, target := .on })
  else if d.target = .on ∨ d.latched.any (fun r => r.target == .on) then s
  else modDomain s (domShelf n) (fun d => { d with latched := d.latched ++ [⟨.on, 0, 0⟩] })

/-- Some block of a range is held at its shelf. -/
def rangeHeld (s : State) (a n : Nat) : Bool :=
  a < 12 * shelfSize && (shelfSleeps s (a / shelfSize) || (List.range (n / 512 + 2)).any (fun i => a / 512 * 512 + 512 * i < a + n && shelfHolds s (a / 512 * 512 + 512 * i)))

/-- A shelf address whose channel failed its retrain (R218). -/
def channelDown (s : State) (hpa : Nat) : Bool :=
  bitAt (shelfOf s (hpa / shelfSize)).chDown (channelOf (hpa % shelfSize))

/-- The usable bytes of a shelf: with integrity on its top 4 GiB are the MAC area (R216). -/
def shelfUsable (s : State) (n : Nat) : Nat := if (shelfOf s n).integrity then 0xF00000000 else shelfSize

/-- Shelf `n` is present, its domain is not OFF, and its range is mapped (R212, 18 R496, R498). -/
def shelfMapped (s : State) (n : Nat) : Bool :=
  bitAt s.boot.presentShelves n && !(shelfOf s n).zeroing
    && (domainOf s (domShelf n)).dstate != .off

/-- Base, size and usable size of a decoder in bytes (08 R232, R233). -/
def decBase (d : FarDecoder) : Nat := d.base * 2 ^ 28
def decSize (d : FarDecoder) : Nat := d.size * 2 ^ 28
def decUsable (d : FarDecoder) : Nat := if d.integrity then decSize d - decSize d / 16 else decSize d

/-- The decoder that maps a far-tier HPA; with IW2, HPA[12] selects the port. -/
def farDecoder (s : State) (hpa : Nat) : Option (Nat × Nat) :=
  let hit := fun (p : Nat) (e : Nat × FarDecoder) =>
    e.2.enable && !e.2.zeroing && decBase e.2 ≤ hpa && hpa < decBase e.2 + decUsable e.2
      && (!e.2.iw2 || bits hpa 12 1 == p)
  match (farOf s 0).decoders.find? (hit 0) with
  | some e => some (0, e.1)
  | none => ((farOf s 1).decoders.find? (hit 1)).map (fun e => (1, e.1))

/-- The address on its device of an HPA that a decoder maps: with IW2 bit 12 of its offset is taken out (R232). -/
def dpaOf (d : FarDecoder) (hpa : Nat) : Nat :=
  let off := hpa - decBase d
  d.dpaBase * 2 ^ 28 + (if d.iw2 then off / 8192 * 4096 + off % 4096 else off)

/-- A CXL.mem request for the 64-byte sector of a far-tier address, MemWr or MemRd, to the device behind it (R230). -/
def cxlMem (s : State) (a : Nat) (write : Bool) : State :=
  match farDecoder s a with
  | none => s
  | some (p, i) =>
    let d := tget (farOf s p).decoders i {}
    emit s (.cxlMem p d.device write (dpaOf d (a / 64 * 64)))

/-- The place an HPA names; the MAC areas, absent and unpowered units and whatever nothing maps are unmapped. -/
def placeOf (s : State) (hpa : Nat) : Place :=
  if hpa < 12 * shelfSize then
    let n := hpa / shelfSize
    if shelfMapped s n && hpa % shelfSize < shelfUsable s n then .shelf n else .unmapped
  else if hpa < scratchBase then .unmapped
  else if hpa < scratchBase + 64 * scratchStride then
    let c := (hpa - scratchBase) / scratchStride
    let off := (hpa - scratchBase) % scratchStride
    if cellarUp s c && off < (cellarOf s c).scratchBanks * 0x80000 then .scratch c else .unmapped
  else if coreBase ≤ hpa ∧ hpa < coreBase + 4096 * coreStride then
    let k := (hpa - coreBase) / coreStride
    if coreUp s k && (hpa - coreBase) % coreStride < (coreOf s k).scratchUnits * 0x10000 then .coreStore k else .unmapped
  else if atticBase ≤ hpa ∧ hpa < atticBase + 8 * atticStride then
    let t := (hpa - atticBase) / atticStride
    let x := siteOf s t
    if x.present && x.cap.windowLog2 != 0 && (hpa - atticBase) % atticStride < 2 ^ x.cap.windowLog2
        && domainLive s (domAttic t) then .attic t
    else .unmapped
  else if farBase ≤ hpa ∧ hpa < 2 * farBase then
    match farDecoder s hpa with
    | some (p, d) => .far p d
    | none => .unmapped
  else if peerBase ≤ hpa ∧ hpa < peerBase + 64 * peerStride then
    let w := (hpa - peerBase) / peerStride
    match tfind s.chord.windows w with
    | some x => if (hpa - peerBase) % peerStride < (x.lengthM1 + 1) * 0x10000 then .peer w else .unmapped
    | none => .unmapped
  else if registerBase ≤ hpa ∧ hpa < registerBase + 0x4000000 then .register (hpa - registerBase)
  else .unmapped

/-! ### Owners and the firewall (15 R418, R419) -/

/-- Firewall tags beside the partitions 0–15. -/
def tagHost := 16
def tagDevice := 17
def tagNone := 18

/-- Partition that holds a unit: partition 0 holds what no other partition does (15 R413). -/
def holder (s : State) (mask : Partition → Nat) (i : Nat) : Nat :=
  match s.part.parts.find? (fun e => e.1 != 0 && e.2.pstate != .none && bitAt (mask e.2) i) with
  | some e => e.1
  | none => 0

def cellarOwner (s : State) (c : Nat) : Nat := holder s (·.cellarMask) c
def siteOwner (s : State) (t : Nat) : Nat := holder s (·.atticMask) t
def engineOwner (s : State) (e : Nat) : Nat := holder s (·.engineMask) e

/-- A MEMORY region holds an HPA. -/
def regionHolds (r : Region) (hpa : Nat) : Bool :=
  r.kind == .memory && r.base ≤ hpa && hpa < r.base + r.length * 0x10000

/-- The partition whose MEMORY region holds an HPA; partition 0 holds the rest. -/
def memoryOwner (s : State) (hpa : Nat) : Nat :=
  match s.part.parts.find? (fun e => e.1 != 0 && e.2.pstate != .none && e.2.regions.any (fun r => regionHolds r hpa)) with
  | some e => e.1
  | none => 0

/-- A peg's or scratch window's owner is its cellar's. -/
def placeOwner (s : State) (hpa : Nat) : Place → Option Nat
  | .shelf _ => some (memoryOwner s hpa)
  | .far _ _ => some (memoryOwner s hpa)
  | .scratch c => some (cellarOwner s c)
  | .coreStore k => some (cellarOwner s (k / 64))
  | .attic t => some (siteOwner s t)
  | .peer w => (tfind s.chord.windows w).map (·.part)
  | .register _ => none
  | .unmapped => none

/-- An HPA lies in a range of a bound model (15 R432). -/
def inModelRange (s : State) (hpa : Nat) : Bool :=
  s.part.models.any (fun e => e.2.bound && e.2.ranges.any (fun r => r.dst ≤ hpa && hpa < r.dst + r.chunks * 0x10000))

/-- The partition is being torn down or set up: its resources belong to no one yet (15 R425). -/
def inTransition (s : State) (p : Nat) : Bool :=
  (partOf s p).pstate == .transitioning && (partOf s p).phase != .reset

/-- Why an access is refused. -/
inductive Access where
  | ok (p : Place)
  | unmapped
  | firewall
  deriving DecidableEq, Repr, Inhabited

/-- The home's decision on an access of `tag` (15 R419).  Writes to a model range are refused to every tag but DEVICE. -/
def admitOne (s : State) (tag : Nat) (write : Bool) (hpa : Nat) : Access :=
  match placeOf s hpa with
  | .unmapped => .unmapped
  | .register off => .ok (.register off)
  | p =>
    match placeOwner s hpa p with
    | none => .unmapped
    | some o =>
      if tag = tagDevice then .ok p
      else if inModelRange s hpa ∧ (write ∨ tag = tagHost) then .firewall
      else if tag = o ∧ !inTransition s o then .ok p
      else if tag = tagHost ∧ (partOf s o).hostBar2 ∧ !inTransition s o then .ok p
      else .firewall

/-- Every line of a range admits; the first refusal otherwise. -/
def admitRange (s : State) (tag : Nat) (write : Bool) (a n : Nat) : Access :=
  if n = 0 then .ok .unmapped
  else
    let first := admitOne s tag write a
    match first, admitOne s tag write (a + n - 1) with
    | .ok p, .ok _ => if a / 0x10000 = (a + n - 1) / 0x10000 then .ok p else
        -- every 64 KiB granule of a longer range decides for itself
        match ((List.range (n / 0x10000 + 1)).map (fun i => admitOne s tag write (min (a + i * 0x10000) (a + n - 1)))).find?
            (fun r => match r with | .ok _ => false | _ => true) with
        | some r => r
        | none => .ok p
    | .ok _, r => r
    | r, _ => r

/-- Code of a refusal in an error record. -/
def refusalCode : Access → Nat
  | .firewall => ecFirewall
  | _ => ecAccessError

/-- A refused access counts for its requester's partition (15 R419). -/
def countRefused (s : State) (tag : Nat) (r : Access) : State :=
  if r = .firewall ∧ tag < 16 then modPart s tag (fun p => { p with refused := satInc 32 p.refused }) else s

/-! ### Write-combining buffers (08 R219–R222) -/

/-- The buffer of a home. -/
def wcbOf (s : State) : Home → List WcbEntry
  | .shelf n => (shelfOf s n).wcb
  | .far p => (farOf s p).wcb

def modWcb (s : State) (h : Home) (f : List WcbEntry → List WcbEntry) : State :=
  match h with
  | .shelf n => modShelf s n (fun x => { x with wcb := f x.wcb })
  | .far p => modFar s p (fun x => { x with wcb := f x.wcb })

/-- Entries of a home's buffer: 64 at a shelf, 32 at a far-tier port (R219, R230). -/
def wcbSize : Home → Nat
  | .shelf _ => 64
  | .far _ => 32

/-- The home of an HPA that is a shelf or the far tier. -/
def homeOf : Place → Option Home
  | .shelf n => some (.shelf n)
  | .far p _ => some (.far p)
  | _ => none

/-- The bytes of one 64-byte half among masked bytes of a line. -/
def halfBytes (b : Tab Byte) (h : Nat) : Tab Byte := b.filter (fun e => e.1 / 64 == h)

/-- Flush one 64-byte sector of an entry: fully masked it is written directly, else merged beneath the mask (R221,
R222): poison stays unless the whole sector is replaced. -/
def flushHalf (s : State) (e : WcbEntry) (h : Nat) : State :=
  let b := halfBytes e.bytes h
  if b.isEmpty then s
  else
    let s := putLine s e.line b
    let u := e.line * 4 + 2 * h
    if bitAt e.poison h then setPoison s u 2 true
    else if b.length = 64 then setPoison s u 2 false
    else s

/-- Flush an entry and take it out of the buffer. -/
def flushEntry (s : State) (home : Home) (e : WcbEntry) : State :=
  let s := forEach [0, 1] s (fun s h => if (halfBytes e.bytes h).isEmpty then s else cxlMem s (e.line * 128 + 64 * h) true)
  modWcb (flushHalf (flushHalf s e 0) e 1) home (fun l => l.erase e)

/-- An entry's flush begins: it leaves the buffer once its partial sectors have been read (R221). -/
def beginFlush (s : State) (home : Home) (e : WcbEntry) : State :=
  modWcb s home (fun l => l.map (fun x => if x = e then { x with flushing := true } else x))

/-- The flush of every entry of a home begins. -/
def flushWcb (s : State) (home : Home) : State := modWcb s home (fun l => l.map (fun x => { x with flushing := true }))

/-- Every 64-byte sector the entry touches is fully masked. -/
def entryFull (e : WcbEntry) : Bool :=
  !e.bytes.isEmpty && [0, 1].all (fun h => let n := (halfBytes e.bytes h).length; n == 0 || n == 64)

/-- The entries that hold a place in a buffer, and the one of a line. -/
def wcbUsed (s : State) (home : Home) : List WcbEntry := (wcbOf s home).filter (fun e => !e.flushing)
def wcbEntry (s : State) (home : Home) (line : Nat) : Option WcbEntry := (wcbUsed s home).find? (fun e => e.line == line)

/-- The buffer keeps the entries of a channel that is held (R218). -/
def wcbKept (s : State) (home : Home) (line : Nat) : Bool :=
  match home with
  | .shelf _ => shelfHolds s (line * 128)
  | .far _ => false

/-- The entry that makes room: the oldest whose channel is not held. -/
def wcbVictim (s : State) (home : Home) : Option WcbEntry := (wcbUsed s home).find? (fun e => !wcbKept s home e.line)

/-- A line finds a place in a full buffer only when some entry may go. -/
def wcbRoom (s : State) (home : Home) (line : Nat) : Bool :=
  (wcbEntry s home line).isSome || decide ((wcbUsed s home).length < wcbSize home) || (wcbVictim s home).isSome

/-- A new entry for a line: when all are in use, the flush of the oldest begins (R221). -/
def wcbAllocate (s : State) (home : Home) (line : Nat) : State :=
  let s := if (wcbUsed s home).length < wcbSize home then s
           else match wcbVictim s home with | none => s | some o => beginFlush s home o
  modWcb s home (fun l => l ++ [{ line := line }])

/-- Merge partial bytes into the line's entry, allocating one. -/
def wcbMerge (s : State) (home : Home) (line : Nat) (b : Tab Byte) (pz : Nat) : State :=
  let s := if (wcbEntry s home line).isSome then s else wcbAllocate s home line
  let add := fun (e : WcbEntry) =>
    { e with bytes := b.foldl (fun t x => tset t x.1 x.2) e.bytes, poison := Nat.lor e.poison pz }
  let s := modWcb s home (fun l => l.map (fun e => if e.line = line ∧ !e.flushing then add e else e))
  match wcbEntry s home line with
  | some e => if entryFull e && !wcbKept s home line then flushEntry s home e else s
  | none => s

/-- A write of bytes to one 64-byte half of a line. -/
def halfWrite (s : State) (home : Home) (line h : Nat) (b : Tab Byte) (pz : Bool) : State :=
  if b.isEmpty then s
  else if b.length = 64 then
    let s := modWcb s home (fun l => (l.map (fun e =>
      if e.line = line then { e with bytes := e.bytes.filter (fun x => x.1 / 64 != h), poison := clearBit e.poison h } else e)
      ).filter (fun e => !e.bytes.isEmpty))
    setPoison (putLine (cxlMem s (line * 128 + 64 * h) true) line b) (line * 4 + 2 * h) 2 pz
  else wcbMerge s home line b (if pz then 2 ^ h else 0)

/-- A write of masked bytes to one line of a home (R220): whole 64-byte sectors go straight to memory and replace its
poison, the rest through the buffer.  `pz` marks poisoned 64-byte halves of the data. -/
def lineWrite (s : State) (home : Home) (line : Nat) (b : Tab Byte) (pz : Nat) : State :=
  forEach [0, 1] s (fun s h => halfWrite s home line h (halfBytes b h) (bitAt pz h))

/-- The byte that a buffer lays over an address, if it holds one: the youngest entry's (R220). -/
def wcbByte (s : State) (home : Home) (a : Nat) : Option Byte :=
  (wcbOf s home).reverse.findSome? (fun e => if e.line = a / 128 then tfind e.bytes (a % 128) else none)

/-- A byte of a home with the buffer's masked bytes laid over it (R220). -/
def homeByte (s : State) (home : Home) (a : Nat) : Byte := (wcbByte s home a).getD (memRead s.mem.bytes a)

/-- The 64-byte half of an address is poisoned at its home. -/
def homePoison (s : State) (home : Home) (a : Nat) : Bool :=
  poisonedUnit s (a / 32)
    || (wcbOf s home).any (fun e => e.line == a / 128 && bitAt e.poison (a % 128 / 64))

/-! ### Reads and writes at a home by the hub's engines -/

/-- A byte of a core store's scratch: never written since the step started, it is zero or unspecified (07 R192). -/
def scratchByte (c : Core) (off : Nat) : Byte :=
  match tfind c.scratch off with
  | some b => b
  | none => match c.stamp with | none => 0 | some n => Config.freeByte n off

/-- A byte at its home, with its poison: shelves, far tier, scratch windows and core-store windows. -/
def readByte (s : State) (a : Nat) : Byte × Bool :=
  match placeOf s a with
  | .shelf n => if channelDown s a then (0, true) else (homeByte s (.shelf n) a, homePoison s (.shelf n) a)
  | .far p d => if (tget (farOf s p).decoders d {}).failed then (0, true)
                else (homeByte s (.far p) a, homePoison s (.far p) a)
  | .scratch c => if (cellarOf s c).resetting then (0, true) else (memRead s.mem.bytes a, poisonedUnit s (a / 32))
  | .coreStore k =>
    let c := coreOf s k
    let off := (a - coreBase) % coreStride
    if c.resetting ∨ (cellarOf s (k / 64)).resetting then (0, true)
    else (scratchByte c off, c.scratchPoison.contains (off / 32))
  | _ => (0, true)

/-- `n` bytes from `a` at their homes. -/
def readBytes (s : State) (a n : Nat) : Bytes := (List.range n).map (fun i => (readByte s (a + i)).1)

/-- Any of `n` bytes from `a` is poisoned at its home. -/
def readPoison (s : State) (a n : Nat) : Bool := (List.range n).any (fun i => (readByte s (a + i)).2)

/-- Masked bytes of one line to a cellar's scratch. -/
def scratchWrite (s : State) (line : Nat) (b : Tab Byte) (pz : Nat) : State :=
  forEach (List.range 4) (putLine s line b) (fun s q =>
    let n := (b.filter (fun e => e.1 / 32 == q)).length
    if bitAt pz q ∧ 0 < n then setPoison s (line * 4 + q) 1 true
    else if n = 32 then setPoison s (line * 4 + q) 1 false
    else s)

/-- Masked bytes of one line to a core store's scratch. -/
def coreScratchWrite (s : State) (k line : Nat) (b : Tab Byte) (pz : Nat) : State :=
  let off := (line * 128 - coreBase) % coreStride
  modCore s k (fun c =>
    let c := { c with scratch := b.foldl (fun t (x : Nat × Byte) => tset t (off + x.1) x.2) c.scratch }
    { c with scratchPoison := (List.range 4).foldl (fun l q =>
        let n := (b.filter (fun (e : Nat × Byte) => e.1 / 32 == q)).length
        let u := off / 32 + q
        if bitAt pz q ∧ 0 < n then (if l.contains u then l else u :: l)
        else if n = 32 then l.filter (· != u)
        else l) c.scratchPoison })

/-- Masked bytes of one line, by offset, to their home; `pz` marks poisoned 32-byte sectors (17 R476). -/
def writeLine (s : State) (line : Nat) (b : Tab Byte) (pz : Nat) : State :=
  match b with
  | [] => s
  | (o, _) :: _ =>
    let halves := (if bitAt pz 0 ∨ bitAt pz 1 then 1 else 0) + (if bitAt pz 2 ∨ bitAt pz 3 then 2 else 0)
    match placeOf s (line * 128 + o) with
    | .shelf n => if channelDown s (line * 128 + o) then s else lineWrite s (.shelf n) line b halves
    | .far p d => if (tget (farOf s p).decoders d {}).failed then s else lineWrite s (.far p) line b halves
    | .scratch c => if (cellarOf s c).resetting then s else scratchWrite s line b pz
    | .coreStore k =>
      if (coreOf s k).resetting ∨ (cellarOf s (k / 64)).resetting then s else coreScratchWrite s k line b pz
    | _ => s

/-- The bytes of a string that fall in one line, by offset in the line. -/
def bytesOfLine (a : Nat) (b : Bytes) (line : Nat) : Tab Byte :=
  let lo := if line * 128 < a then a - line * 128 else 0
  let skip := line * 128 + lo - a
  ((b.drop skip).take (128 - lo)).zipIdx.map (fun p => (lo + p.2, p.1))

/-- The lines a range touches, as HPA / 128. -/
def linesOf (a n : Nat) : List Nat :=
  if n = 0 then [] else (List.range ((a + n - 1) / 128 - a / 128 + 1)).map (fun i => a / 128 + i)

/-- Write a byte string at its home, line by line. -/
def writeBytes (s : State) (a : Nat) (b : Bytes) : State :=
  forEach (linesOf a b.length) s (fun s l => writeLine s l (bytesOfLine a b l) 0)

/-- Write a byte string with the poison of its 32-byte source units: `pz i` tells for byte `i`. -/
def writePoisoned (s : State) (a : Nat) (b : Bytes) (pz : Nat → Bool) : State :=
  forEach (linesOf a b.length) s (fun s l =>
    let t := bytesOfLine a b l
    let m := maskOf ((List.range 4).filter (fun q => t.any (fun e => e.1 / 32 == q && pz (l * 128 + e.1 - a))))
    writeLine s l t m)

/-- Write poison over a range. -/
def writePoisonRange (s : State) (a n : Nat) : State :=
  writePoisoned s a (List.replicate n 0) (fun _ => true)

/-! ### Coherence with the attic dies (12 R319) -/

/-- Send a message to the die of a site. -/
def sendAtp (s : State) (site : Nat) (m : AtpMsg) : State := emit s (.atp site m)

/-- The sites that must be snooped before an access to a tracked line, and whether the snoop invalidates.  `self` is the
site that asks, if a die does. -/
def snoopNeeds (s : State) (line : Nat) (write : Bool) (self : Option Nat) : List Nat × Bool :=
  match tfind s.attic.dir line with
  | none => ([], write)
  | some e =>
    match e.owner with
    | some o => if some o = self then ([], write) else ([o], write)
    | none => if write then ((maskBits e.sharers 8).filter (fun t => some t != self), true) else ([], false)

/-- The snoops that a site is sent for a line: one, or in CXL mode one for each half it holds (R336). -/
def snoopKeys (s : State) (line site : Nat) : List Nat :=
  if (siteOf s site).cap.cxl then
    let h := match tfind s.attic.dir line with | some e => bits e.halves (2 * site) 2 | none => 0
    (if bitAt h 0 then [site + 8] else []) ++ (if bitAt h 1 then [site + 16] else [])
  else [site]

/-- The snoop message of a key of a line. -/
def sendSnoop (s : State) (line key : Nat) (inval : Bool) : State :=
  sendAtp s (key % 8) { opcode := if inval then 0x49 else 0x48, address := line * 128 + 64 * (key / 16) }

/-- Snoop some sites on a line. -/
def startSnoop (s : State) (line : Nat) (sites : List Nat) (inval : Bool) (txn : Option Nat) : State :=
  let keys := sites.flatMap (snoopKeys s line)
  let s := { s with attic := { s.attic with snoops := tset s.attic.snoops line { sites := keys, inval := inval, txn := txn } } }
  forEach keys s (fun s k => sendSnoop s line k inval)

/-- A line whose answers are in stays reserved while the access it was snooped for has not been performed. -/
def snoopBlocks (s : State) (x : Snoop) (who : Option Nat) : Bool :=
  !x.sites.isEmpty || (x.txn != who && (match x.txn.bind (tfind s.mem.txns) with
    | some t => t.phase == .issued || t.phase == .shelfHeld
    | none => false))

/-- Send the snoops an access to a line needs; `true` when the access must wait for their answers.  `who` is its transaction. -/
def snoopLine (s : State) (line : Nat) (write : Bool) (self who : Option Nat) : State × Bool :=
  match tfind s.attic.snoops line with
  | some x =>
    if snoopBlocks s x who then (s, true)
    else
      let s := { s with attic := { s.attic with snoops := tdel s.attic.snoops line } }
      let (sites, inv) := snoopNeeds s line write self
      if sites.isEmpty then (s, false) else (startSnoop s line sites inv who, true)
  | none =>
    let (sites, inv) := snoopNeeds s line write self
    if sites.isEmpty then (s, false) else (startSnoop s line sites inv who, true)

/-- The tracked lines of a range that conflict with an access; their snoops go out together.  The access also waits while
its shelf holds a channel or bank of the range (08 R218, R228). -/
def snoopRange (s : State) (a n : Nat) (write : Bool) : State × Bool :=
  if n = 0 then (s, false)
  else
    let ls := (s.attic.dir.filter (fun e => a < (e.1 + 1) * 128 && e.1 * 128 < a + n)).map (·.1)
    ls.foldl (fun (r : State × Bool) l => let (s', b) := snoopLine r.1 l write none none; (s', r.2 || b))
      (if a < 12 * shelfSize then wakeShelf s (a / shelfSize) else s, rangeHeld s a n)

/-! ### Atomics (04 R104–R106, Table 4-7) -/

/-- Width of a type in bytes. -/
def atomBytes : AtomType → Nat
  | .u64 => 8
  | .s64 => 8
  | _ => 4

/-- The type is defined for the operation (04 Table 4-7). -/
def atomDefined (op : AtomOp) (ty : AtomType) : Bool :=
  match ty with
  | .bf16x2 => op == .add
  | .f32 => op == .add || op == .min || op == .max
  | .u32 => true
  | _ => op != .inc

/-- The value after one thread's operation, CAS apart. -/
def atomValue (op : AtomOp) (ty : AtomType) (old sb : Nat) : Nat :=
  let w := 8 * atomBytes ty
  let sgn := ty == .s32 || ty == .s64
  match op with
  | .add => match ty with
    | .f32 => addF32 old sb
    | .bf16x2 => addB16 old sb
    | _ => (old + sb) % 2 ^ w
  | .min => match ty with
    | .f32 => minF32 old sb
    | _ => if intCmp .le sgn w old sb then old else sb % 2 ^ w
  | .max => match ty with
    | .f32 => maxF32 old sb
    | _ => if intCmp .ge sgn w old sb then old else sb % 2 ^ w
  | .and => Nat.land old (sb % 2 ^ w)
  | .or => Nat.lor old (sb % 2 ^ w)
  | .xor => Nat.xor old (sb % 2 ^ w)
  | .exch => sb % 2 ^ w
  | .cas => old
  | .inc => if old ≥ sb % 2 ^ w then 0 else old + 1

/-- What one location has gone through while lanes run: its prior value, its present value, and whether a CAS has won. -/
structure AtomCell where
  prior : Nat := 0
  now : Nat := 0
  won : Bool := false
  deriving DecidableEq, Repr, Inhabited

/-- Run the lanes of one atomic in lane order: the locations afterwards, the old value each thread receives, and the
threads whose CAS succeeded. -/
def atomRun (op : AtomOp) (ty : AtomType) (init : Nat → Nat) (lanes : List AtomLane) :
    Tab AtomCell × List (Nat × Nat) × List Nat :=
  lanes.foldl (fun (r : Tab AtomCell × List (Nat × Nat) × List Nat) l =>
    let (t, olds, wins) := r
    let c := tget t l.addr { prior := init l.addr, now := init l.addr }
    let w := 8 * atomBytes ty
    if op = .cas then
      let win := !c.won && decide (l.sb % 2 ^ w = c.prior)
      let c' := if win then { c with now := l.sc % 2 ^ w, won := true } else c
      (tset t l.addr c', olds ++ [(l.thread, c.now)], if win then wins ++ [l.thread] else wins)
    else
      (tset t l.addr { c with now := atomValue op ty c.now l.sb }, olds ++ [(l.thread, c.now)], wins))
    ([], [], [])

/-- Perform an atomic at the homes of its locations. -/
def homeAtomic (s : State) (op : AtomOp) (ty : AtomType) (lanes : List AtomLane) :
    State × List (Nat × Nat) × List Nat :=
  let n := atomBytes ty
  let (t, olds, wins) := atomRun op ty (fun a => leNat (readBytes s a n)) lanes
  (forEach t s (fun s e => if e.2.now = e.2.prior ∧ op = .cas ∧ !e.2.won then s
                           else writeBytes s e.1 (leBytes n e.2.now)), olds, wins)

/-! ### Transactions (10 R272) -/

/-- The master port that a WAIT at a peg has passed, and keeps a unit of until it ends; none within the peg's cellar. -/
def waiterMaster (peg : Nat) (w : Waiter) : Option Nat :=
  match w.attic with
  | some (site, _) => some (64 + site)
  | none => if w.core / 64 = peg / 256 then none else some (w.core / 64)

/-- The units of WAITs at pegs that `p` holds for the port of. -/
def pegUnits (s : State) (p : Nat → Bool) : Nat :=
  sum (s.cells.pegs.map (fun e => (e.2.waiters.filter (fun w => match waiterMaster e.1 w with | some m => p m | none => false)).length))

/-- O_m: units in flight of a master port (10 R272). -/
def outUnits (s : State) (m : Nat) : Nat :=
  sum ((s.mem.txns.filter (fun e => e.2.master == m && e.2.charged)).map (fun e => e.2.units)) + pegUnits s (· == m)

/-- Put a transaction into the queue of its master port; answers its number. -/
def newTxn (s : State) (t : Txn) : State × Nat :=
  let n := s.cells.nextId
  let u := if t.kind = .peg ∨ registerBase ≤ t.hpa then 1 else max 1 (min 4 ((t.bytes + 31) / 32))
  let under := outUnits s t.master + u ≤ (tget s.reg.masters t.master {}).effective
  let t := { t with units := u, phase := .waiting, underPort := under }
  ({ s with cells := { s.cells with nextId := n + 1 }, mem := { s.mem with txns := tset s.mem.txns n t } }, n)

def txnOf (s : State) (n : Nat) : Option Txn := tfind s.mem.txns n
def modTxn (s : State) (n : Nat) (f : Txn → Txn) : State :=
  { s with mem := { s.mem with txns := tmodIf s.mem.txns n f } }

end Sys2Proof.Machine
end

