-- ==== Sys2Proof/Machine/Noc.lean ====
section
/-! DEFINITION. The NoC: master ports and their units, grants, routes between the quadrants, target queues and the
arbitration at them, and accesses that pass a port within one command (spec 10 R271–R281, 01 R12, 02 R31). -/
namespace Sys2Proof.Machine

/-! ### Masters (Table 10-1) -/

def poolUnits := 262144
def shelfUnitsNominal := 8192
def missThreshold := 256

/-- The unit of a master port is present; a far-tier port that trained no lane has no unit. -/
def masterPresent (s : State) (m : Nat) : Bool :=
  if m < 64 then cellarUp s m
  else if m < 72 then (siteOf s (m - 64)).present && domainLive s (domAttic (m - 64))
  else if m < 84 then bitAt s.boot.presentEngines (m - 72) && domainLive s (domEngine (m - 72))
  else if m = 85 ∨ m = 86 then (farOf s (m - 85)).width != 0
  else m = 84 || m = 87 || m = 88

/-- The partition that owns a master; none for the device. -/
def masterOwner (s : State) (m : Nat) : Option Nat :=
  if m < 64 then some (cellarOwner s m)
  else if m < 72 then some (siteOwner s (m - 64))
  else if m < 84 then some (engineOwner s (m - 72))
  else none

def allMasters : List Nat := List.range 89
def presentMasters (s : State) : List Nat := allMasters.filter (masterPresent s)
def mastersOf (s : State) (p : Nat) : List Nat := allMasters.filter (fun m => masterOwner s m == some p)
def deviceMasters (s : State) : List Nat := allMasters.filter (fun m => (masterOwner s m).isNone)

def masterOf (s : State) (m : Nat) : Master := tget s.reg.masters m {}
def modMaster (s : State) (m : Nat) (f : Master → Master) : State :=
  { s with reg := { s.reg with masters := tmod s.reg.masters m {} f } }
def shelfRegOf (s : State) (n p : Nat) : ShelfReg := tget s.reg.shelves (n * 16 + p) {}
def modShelfReg (s : State) (n p : Nat) (f : ShelfReg → ShelfReg) : State :=
  { s with reg := { s.reg with shelves := tmod s.reg.shelves (n * 16 + p) {} f } }
def allotOf (s : State) (p : Nat) : Nat := tget s.reg.allot p 0

/-- Units of a partition at a shelf. -/
def shelfUnits (s : State) (n p : Nat) : Nat :=
  sum ((s.mem.txns.filter (fun e => e.2.shelfCharged == some (n * 16 + p))).map (fun e => e.2.units))

/-- The transactions that wait at a port, in order. -/
def waitingAt (s : State) (m : Nat) : List (Nat × Txn) := s.mem.txns.filter (fun e => e.2.master == m && e.2.phase == .waiting)

/-- STATE of a regulator (R279): 0 WITHIN, 1 LOWERED, 2 HELD. -/
def regState (out budget : Nat) (head : Option Nat) : Nat :=
  match head with
  | some u => if 2 * budget < out + u then 2 else if budget < out then 1 else 0
  | none => if budget < out then 1 else 0

def masterState (s : State) (m : Nat) : Nat :=
  regState (outUnits s m) (masterOf s m).budget ((waitingAt s m).head?.map (fun e => e.2.units))

/-- C_s (R281, 18 R510). -/
def shelfCap (s : State) (n : Nat) : Nat :=
  let x := shelfOf s n
  let chans := ((List.range 32).filter (fun c => !bitAt x.chDown c && !bitAt x.held c)).length
  let c := shelfUnitsNominal / 32 * chans
  if !bitAt s.boot.presentShelves n then 0
  else if s.pwr.hbmMeasured = 0 then c else min c (c * s.pwr.hbm / s.pwr.hbmMeasured)

/-- The partition that a shelf regulator charges: the requester's, or for the host and the device the owner of the
address. -/
def shelfPartition (s : State) (t : Txn) : Nat := if t.tag < 16 then t.tag else memoryOwner s t.hpa


/-! ### Grants (10 R274, R279, R281) -/

/-- POOL_UNITS less the units in flight. -/
def freeUnits (s : State) : Nat :=
  poolUnits - (sum ((s.mem.txns.filter (fun e => e.2.charged)).map (fun e => e.2.units)) + pegUnits s (fun _ => true))

/-- pool_grant (R274). -/
def poolGrant (s : State) (m u : Nat) : Bool :=
  let e := fun k => (masterOf s k).effective
  outUnits s m + u ≤ e m
    || (u ≤ freeUnits s
        && sum (((presentMasters s).filter (· != m)).map (fun k => e k - outUnits s k)) ≤ freeUnits s - u)

/-- The same at a shelf, for the partitions that exist. -/
def shelfGrant (s : State) (n p u : Nat) : Bool :=
  let ps := (List.range 16).filter (fun q => q == 0 || (partOf s q).pstate != .none)
  let e := fun q => (shelfRegOf s n q).effective
  let free := shelfCap s n - sum (ps.map (shelfUnits s n))
  shelfUnits s n p + u ≤ e p
    || (u ≤ free && sum ((ps.filter (· != p)).map (fun q => e q - shelfUnits s n q)) ≤ free - u)

/-- The site that asks, when a die does; and the same for a read that the die caches. -/
def txnSite (t : Txn) : Option Nat := match t.client with | .die site _ => some site | .dieBack site _ => some site | _ => none
def txnDieSite (t : Txn) : Option Nat := if t.dir = .none then none else txnSite t

/-- A master port has issued to an address in this strum, and so has its partition at the address's shelf (10 R273,
R281). -/
def noteIssue (s : State) (m tag a : Nat) : State :=
  let s := { s with reg := { s.reg with masters := tmod s.reg.masters m {} (fun x => { x with active := true }) } }
  match placeOf s a with
  | .shelf n =>
    let p := if tag < 16 then tag else memoryOwner s a
    { s with reg := { s.reg with shelves := tmod s.reg.shelves (n * 16 + p) {} (fun x => { x with active := true }) } }
  | _ => s


/-! ### Routes (01 R12, 18 R499) -/

/-- The physical quadrant of a logical one, and the logical one of a physical one (01 R14). -/
def physQuadrant (s : State) (q : Nat) : Nat := nth s.boot.quadrantMap q q
def logicalQuadrant (s : State) (p : Nat) : Nat := ((List.range 4).find? (fun q => physQuadrant s q == p)).getD p

/-- The target queue that a transaction goes to. -/
inductive Dest where
  | shelf (n : Nat)
  | far (port : Nat)
  | cellar (n : Nat)
  | attic (site : Nat)
  | peer (window : Nat)
  | register
  /-- Nothing maps the address: the access ends where it entered. -/
  | nowhere
  deriving DecidableEq, Repr, Inhabited

/-- The target queue of an address. -/
def destOf (s : State) (hpa : Nat) : Dest :=
  match placeOf s hpa with
  | .shelf n => .shelf n
  | .far p _ => .far p
  | .scratch c => .cellar c
  | .coreStore k => .cellar (k / 64)
  | .attic t => .attic t
  | .peer w => .peer w
  | .register _ => .register
  | .unmapped => .nowhere

/-- The logical quadrant where a master port stands (Tables 1-2 and 10-1); scrub stands at each home itself. -/
def masterQuadrant (s : State) (m : Nat) : Option Nat :=
  if m < 64 then some (m / 16)
  else if m < 72 then some ((m - 64) / 2)
  else if m < 84 then some ((m - 72) / 3)
  else if m = 84 ∨ m = 87 then some (logicalQuadrant s 0)
  else if m = 85 ∨ m = 86 then some (logicalQuadrant s (m - 83))
  else none

/-- The logical quadrant of a target queue; the traffic of a peer window goes to the engines of its node's route. -/
def destQuadrant (s : State) : Dest → Option Nat
  | .shelf n => some (n / 3)
  | .far p => some (logicalQuadrant s (2 + p))
  | .cellar c => some (c / 16)
  | .attic t => some (t / 2)
  | .peer w =>
    (s.chord.routes.find? (fun e => e.2.node == (tget s.chord.windows w {}).node)).map
      (fun e => (maskBits e.2.engines 12).headD 0 / 3)
  | .register => some (logicalQuadrant s 0)
  | .nowhere => none

/-- The quadrant that a diagonal route passes first within its row, and the one it passes first within its column, as
physical numbers: q0 and q1 form one row, q2 and q3 the other. -/
def rowQuadrant (a b : Nat) : Nat := a / 2 * 2 + b % 2
def columnQuadrant (a b : Nat) : Nat := b / 2 * 2 + a % 2

/-- Two physical quadrants are diagonal. -/
def diagonal (a b : Nat) : Bool := a / 2 != b / 2 && a % 2 != b % 2

/-- The NoC domain of a physical quadrant. -/
def nocDomain (s : State) (p : Nat) : Domain := domainOf s (96 + logicalQuadrant s p)

/-- The physical quadrants that a route passes: the one in use goes by the row, unless the NoC of the quadrant there is OFF;
then it goes by the column. -/
def routeOf (s : State) (a b : Nat) : List Nat :=
  if a = b then [a]
  else if !diagonal a b then [a, b]
  else [a, if (nocDomain s (rowQuadrant a b)).dstate == .off then columnQuadrant a b else rowQuadrant a b, b]

/-- The physical quadrants between which a transaction travels. -/
def routeEnds (s : State) (t : Txn) : Option (Nat × Nat) :=
  match masterQuadrant s t.master, destQuadrant s (destOf s t.hpa) with
  | some a, some b => some (physQuadrant s a, physQuadrant s b)
  | _, _ => none

/-- The route of a transaction is one that changes with the NoC domain of a physical quadrant. -/
def changesWith (s : State) (t : Txn) (p : Nat) : Bool :=
  match routeEnds s t with
  | some (a, b) => diagonal a b && rowQuadrant a b == p
  | none => false

/-- New transactions on a route that is about to change are held. -/
def routeHeld (s : State) (t : Txn) : Bool :=
  (List.range 4).any (fun p => (nocDomain s p).transition && changesWith s t p)

/-- A transaction is on its way: it has entered the NoC and its target queue has not accepted it. -/
def onTheWay (t : Txn) : Bool := t.phase == .issued && !t.accepted && t.remote.isNone && !t.lost

/-- Every transaction on a route that changes with the NoC of a physical quadrant has reached its destination. -/
def routesDrained (s : State) (p : Nat) : Bool := !s.mem.txns.any (fun e => onTheWay e.2 && changesWith s e.2 p)

/-! ### Arbitration (10 R275–R279, Table 10-2) -/

/-- Background masters come first: fret 63 while BACKGROUND_FRET_EN is 1 (02 R31). -/
def backgroundFirst (s : State) : Bool := s.time.fret == 63 && s.time.backgroundEn

/-- Credits of 64 bytes that packets take in VC0 to VC2 of an engine's receive buffer, out of the 16,384 of Table 14-4. -/
def rxFill (s : State) (e : Nat) : Nat :=
  sum (((tget s.chord.lls e {}).rx.filter (fun k => k.vc < 3)).map (·.credits))
def rxSize := 16384

/-- The urgency of a Chord engine's receive path from its receive buffer's fill (R276). -/
def fillUrgency (s : State) (e : Nat) : Nat :=
  let f := rxFill s e
  if 4 * f < rxSize then 0 else if 2 * f < rxSize then 1 else if 4 * f < 3 * rxSize then 2 else 3

/-- The urgency of a master (R276): a Chord receive path's from its buffer, a native die's as it reports it, else 0. -/
def urgencyOf (s : State) (m : Nat) : Nat :=
  if 72 ≤ m ∧ m < 84 then fillUrgency s (m - 72)
  else if 64 ≤ m ∧ m < 72 then (if (siteOf s (m - 64)).cap.cxl then 0 else (masterOf s m).urgency)
  else 0

/-- The requester's partition is LOWERED at the shelf that a transaction goes to (R279, R281). -/
def shelfLowered (s : State) (t : Txn) : Bool :=
  match placeOf s t.hpa with
  | .shelf k => let p := shelfPartition s t; decide ((shelfRegOf s k p).budget < shelfUnits s k p)
  | _ => false

/-- The arbitration level of a transaction, Table 10-2 counted from 0: 7 background work that comes first, 6 a
static-priority port, 5 to 2 the other masters WITHIN by urgency, 1 a master, or at its shelf a partition, that is LOWERED, 0 background work
elsewhere.  A reserved transfer of a Chord receive path has urgency 3 (R278). -/
def levelOf (s : State) (t : Txn) : Nat :=
  if t.master = 88 then (if backgroundFirst s then 7 else 0)
  else if (masterOf s t.master).budget < outUnits s t.master ∨ shelfLowered s t = true then 1
  else if 64 ≤ t.master ∧ t.master < 72 ∧ (siteOf s (t.master - 64)).cap.staticPriority = true then 6
  else if t.reserved then 5
  else 2 + urgencyOf s t.master

/-- Transaction `e` is arbitrated before `n`: by its level, then its age, then its port.  Transactions are numbered as they
arrive at their ports, so that the lower number is the older. -/
def before (s : State) (e n : Nat × Txn) : Bool :=
  let x := levelOf s e.2
  let y := levelOf s n.2
  decide (y < x) || (x == y && (decide (e.1 < n.1) || (e.1 == n.1 && decide (e.2.master < n.2.master))))

/-- The target queue accepts a transaction now: it has accepted it before, or no other on its way there is arbitrated
before it. -/
def arbitrated (s : State) (n : Nat) (t : Txn) : Bool :=
  t.accepted || !s.mem.txns.any (fun e => e.1 != n && onTheWay e.2 && destOf s e.2.hpa == destOf s t.hpa && before s e (n, t))

/-- The target queue has accepted a transaction. -/
def acceptTxn (s : State) (n : Nat) : State := modTxn s n (fun t => { t with accepted := true })

/-- Foreground traffic claims a target queue: background work waits for it outside its own fret (02 R31). -/
def foregroundAt (s : State) (d : Dest) : Bool :=
  s.mem.txns.any (fun e => e.2.master != 88 && (onTheWay e.2 || e.2.phase == .shelfHeld) && destOf s e.2.hpa == d)

/-! ### Accesses that pass a port within one command -/

/-- A transaction of `u` units could pass a port now: nothing waits there before it, the master is not HELD, and the pool
grants its units. -/
def portPasses (s : State) (m u : Nat) : Bool :=
  (waitingAt s m).isEmpty && outUnits s m + u ≤ 2 * (masterOf s m).budget && poolGrant s m u

/-- A master has issued in this strum, to no shelf. -/
def notePort (s : State) (m : Nat) : State := modMaster s m (fun x => { x with active := true })

/-- The pager, the CP or the SE has made an access to memory within one command, through port 87. -/
def noteDevice (s : State) (a : Nat) : State := noteIssue s 87 tagDevice a

end Sys2Proof.Machine
end

