-- ==== Sys2Proof/Machine/Cache.lean ====
section
/-! DEFINITION. Core stores and cellar buffers: placement, replacement, stores and write-back, fills, releases and
acquires, and the line operations of maintenance (spec 07, 04 R111–R112). -/
namespace Sys2Proof.Machine

/-! ### Masked lines -/

/-- The 32-byte sectors that a byte mask of a line touches. -/
def sectorsOf (m : Nat) : Nat := maskOf ((List.range 4).filter (fun q => bits m (32 * q) 32 != 0))

/-- The byte mask of masked bytes. -/
def maskOfBytes (b : Tab Byte) : Nat := b.foldl (fun m (x : Nat × Byte) => setBit m x.1) 0

/-- Keep the bytes that a mask names. -/
def keepBytes (b : Tab Byte) (m : Nat) : Tab Byte := b.filter (fun x => bitAt m x.1)

/-- Lay bytes over others. -/
def overlay (under upper : Tab Byte) : Tab Byte := upper.foldl (fun t (x : Nat × Byte) => tset t x.1 x.2) under

/-- The complement of a 128-bit mask. -/
def notMask (m : Nat) : Nat := 2 ^ 128 - 1 - m % 2 ^ 128

def fullMask : Nat := 2 ^ 128 - 1

/-- Merge dirty bytes into a line: they become valid and dirty; a sector that receives poison is poisoned whole. -/
def mergeDirty (l : CacheLine) (b : Tab Byte) (pz : Nat) : CacheLine :=
  let m := maskOfBytes b
  let full := maskOf ((List.range 4).filter (fun q => bits m (32 * q) 32 == 2 ^ 32 - 1))
  { l with data := overlay l.data b, valid := Nat.lor l.valid m, dirty := Nat.lor l.dirty m
           poison := Nat.lor (Nat.land l.poison (15 - full)) (Nat.land pz (sectorsOf m)) }

/-- Merge fetched bytes under what a line holds: its valid bytes stay. -/
def mergeUnder (l : CacheLine) (data : Tab Byte) (valid pz : Nat) : CacheLine :=
  let add := Nat.land valid (notMask l.valid)
  { l with data := overlay (keepBytes data add) l.data, valid := Nat.lor l.valid add
           poison := Nat.lor l.poison (Nat.land pz (sectorsOf add)) }

/-! ### Fills in flight (07 R201, R207) -/

/-- The fill of a line that a later access may join, and that will be installed. -/
def openFill (t : Tab Fill) (line : Nat) : Option Nat := (t.find? (fun e => e.2.line == line && !e.2.suppress)).map (·.1)

/-- A line waits for its fill in the way that it was allocated. -/
def filling (t : Tab Fill) (l : Option CacheLine) : Bool :=
  match l with | some l => (openFill t l.line).isSome | none => false

/-- The fills of a line are delivered only: bytes have gone past the level. -/
def closeFills (t : Tab Fill) (line : Nat) : Tab Fill := tmap t (fun _ f => if f.line = line then { f with suppress := true } else f)

def closeCore (s : State) (k line : Nat) : State := modCore s k (fun c => { c with fills := closeFills c.fills line })
def closeCellar (s : State) (c line : Nat) : State := modCellar s c (fun cl => { cl with fills := closeFills cl.fills line })

/-- The line that a fill brings comes, under what the level held as it was asked. -/
def fillComes (f : Fill) (data : Tab Byte) (valid pz : Nat) : Fill :=
  let l := mergeUnder { line := f.line, data := f.data, valid := f.valid, poison := f.poison } data valid pz
  { f with data := l.data, valid := l.valid, poison := l.poison, ready := true }

/-- The next number of a load, release or fill. -/
def takeId (s : State) : Nat × State := (s.cells.nextId, { s with cells := { s.cells with nextId := s.cells.nextId + 1 } })

/-- The first fill of a line that is ready. -/
def readyFill (t : Tab Fill) (line : Nat) : Option (Nat × Fill) := t.find? (fun e => e.2.line == line && e.2.ready)

/-- The dirty bytes of a line. -/
def dirtyBytes (l : CacheLine) : Tab Byte := keepBytes l.data l.dirty

/-! ### NRU with ageing (07 R195) -/

/-- The ages after the loop of R195 has made some allocatable way's age 3, and the victim: the lowest way of age 3. -/
def pickVictim (ways : List Nat) (at_ : Nat → Option CacheLine) : Option (Nat × Nat) :=
  match ways.find? (fun w => (at_ w).isNone) with
  | some w => some (w, 0)
  | none =>
    let age := fun w => match at_ w with | some l => l.age | none => 0
    let bump := 3 - maxOf (ways.map age)
    (ways.find? (fun w => age w + bump == 3)).map (fun w => (w, bump))

/-! ### Core store -/

/-- The cache ways of a core that may be allocated; way numbers count from the lowest 64 KiB unit (07 R189, R192). -/
def coreWays (c : Core) : List Nat :=
  (List.range 12).filter (fun w => 4 * c.scratchUnits ≤ w && !bitAt c.disabledWays w)

def coreKey (way line : Nat) : Nat := way * 128 + line % 128

/-- Where a line sits in a core store. -/
def coreFind (c : Core) (line : Nat) : Option Nat :=
  ((List.range 12).map (fun w => coreKey w line)).find? (fun k =>
    match tfind c.lines k with | some l => l.line == line | none => false)

/-! ### Cellar buffer -/

/-- The cache banks that are not disabled, ascending: scratch takes the lowest live banks (07 R194). -/
def cacheBanks (c : Cellar) : List Nat := (liveBanks c).drop c.scratchBanks

/-- The bank of a line (07 R190). -/
def bankHash (line : Nat) : Nat :=
  Nat.xor (bits line 8 8) (Nat.xor (bits line 16 8) (Nat.xor (bits line 24 8) (Nat.xor (bits line 32 8) (bits line 40 1))))

def bankOf (c : Cellar) (line : Nat) : Option Nat :=
  let b := cacheBanks c
  if b.isEmpty then none else b[bankHash line % b.length]?

def cellarKey (bank way line : Nat) : Nat := (bank * 16 + way) * 256 + line % 256

/-- The ways of a bank that may be allocated. -/
def cellarWays (c : Cellar) (bank : Nat) : List Nat :=
  (List.range 16).filter (fun w => !bitAt c.lockedWays w && !bitAt (tget c.banks bank {}).disabledWays w)

/-- Where a line sits in a cellar buffer. -/
def cellarFind (c : Cellar) (line : Nat) : Option Nat :=
  match bankOf c line with
  | none => none
  | some b => ((List.range 16).map (fun w => cellarKey b w line)).find? (fun k =>
      match tfind c.lines k with | some l => l.line == line | none => false)

/-- The way of a cellar-buffer key. -/
def keyWay (k : Nat) : Nat := k / 256 % 16
def keyBank (k : Nat) : Nat := k / 4096

/-- A home whose lines the cellar buffer caches (07 R191). -/
def cellarCaches : Place → Bool
  | .shelf _ => true
  | .far _ _ => true
  | .attic _ => true
  | .peer _ => true
  | _ => false

/-! ### Write-back to home -/

/-- Whether an access to a line must be ordered by the directory. -/
def tracked (s : State) (line : Nat) : Bool := (tfind s.attic.dir line).isSome

/-- Write masked bytes of a line to its home through cellar `c`'s master port; the scratch and core stores of the same
cellar are at home in its own buffer.  Answers the transaction that home will acknowledge. -/
def writeHome (s : State) (c line : Nat) (b : Tab Byte) (pz : Nat) (client : Client) : State × Option Nat :=
  let own : Bool := match placeOf s (line * 128) with
    | .scratch c' => c' == c
    | .coreStore k => k / 64 == c
    | _ => false
  if b.isEmpty then (s, none)
  else if placeOf s (line * 128) = .unmapped then (s, none)
  else if own && !tracked s line then (writeLine s line b pz, none)
  else
    let (s, n) := newTxn s { master := c, kind := .write, hpa := line * 128, bytes := b.length, data := b, poison := pz,
                             tag := cellarOwner s c, client := client, epoch := (cellarOf s c).epoch }
    (s, some n)

/-! ### Sequential-store trackers (07 R198) -/

/-- 32 advances make NOALLOC. -/
def noalloc (t : Tracker) : Bool := 32 ≤ t.advances

/-- The number of trackers of a cellar in NOALLOC. -/
def trackersNoalloc (c : Cellar) : Nat := (c.trackers.filter (fun e => noalloc e.2)).length

/-- A store miss that writes the whole of line `x`: an advance, or a new tracker in place of the one that has gone longest
without progress; answers whether the store goes to home without allocating. -/
def trackStore (s : State) (c x : Nat) : State × Bool :=
  let cl := cellarOf s c
  let clock := cl.trackerClock + 1
  let put := fun (i : Nat) (t : Tracker) => modCellar s c (fun cl => { cl with trackers := tset cl.trackers i t, trackerClock := clock })
  match cl.trackers.find? (fun e => e.2.line + 1 == x) with
  | some (i, t) => (put i { t with line := x, advances := t.advances + 1, stampOrder := clock }, noalloc t)
  | none =>
    let i := match tfree cl.trackers 0 4 with
      | some i => i
      | none => (cl.trackers.foldl (fun (b : Nat × Nat) e => if e.2.stampOrder < b.2 then (e.1, e.2.stampOrder) else b)
                  (0, (tget cl.trackers 0 {}).stampOrder)).1
    (put i { line := x, advances := 0, stampOrder := clock }, false)

/-- A dirty victim of line `x`: one that continues a NOALLOC stream goes to home without allocating, and the stream goes on. -/
def trackVictim (s : State) (c x : Nat) : State × Bool :=
  match (cellarOf s c).trackers.find? (fun e => e.2.line + 1 == x && noalloc e.2) with
  | some _ => trackStore s c x
  | none => (s, false)

/-- A load in the last 8 lines of a NOALLOC stream, or a partial-line store in it, ends the tracker. -/
def trackEnd (s : State) (c x : Nat) (load : Bool) : State :=
  modCellar s c (fun cl => { cl with trackers := cl.trackers.filter (fun e =>
    let back := if load then 7 else e.2.advances
    !(noalloc e.2 && e.2.line ≤ x + back && x ≤ e.2.line)) })

/-! ### Allocation and eviction -/

/-- Take a way of the cellar buffer for a line: a dirty victim is written to home.  `none` when no way is allocatable.  A way that
waits for its fill is no victim (DESIGN CHOICE). -/
def cellarAllocate (s : State) (c line : Nat) : State × Option Nat :=
  let cl := cellarOf s c
  match bankOf cl line with
  | none => (s, none)
  | some b =>
    let ways := (cellarWays cl b).filter (fun w => !filling cl.fills (tfind cl.lines (cellarKey b w line)))
    match pickVictim ways (fun w => tfind cl.lines (cellarKey b w line)) with
    | none => (s, none)
    | some (w, bump) =>
      let key := cellarKey b w line
      let s := modCellar s c (fun cl => { cl with lines := ways.foldl (fun t w' =>
        tmodIf t (cellarKey b w' line) (fun l => { l with age := l.age + bump })) cl.lines })
      match tfind cl.lines key with
      | none => (s, some key)
      | some v =>
        let s := modCellar s c (fun cl => { cl with lines := tdel cl.lines key })
        ((writeHome s c v.line (dirtyBytes v) v.poison .none).1, some key)

/-- Change the cellar-buffer line at a key. -/
def setCellarLine (s : State) (c key : Nat) (l : CacheLine) : State :=
  modCellar s c (fun cl => { cl with lines := tset cl.lines key l })

/-- Masked dirty bytes leave a cellar for home. -/
def cellarPasses (s : State) (c line : Nat) (b : Tab Byte) (pz : Nat) : State := (writeHome (closeCellar s c line) c line b pz .none).1

/-- Masked dirty bytes arrive at a cellar's buffer: they merge into the line, or allocate it, or go to home.  A store's hit
makes the line young; a victim with STREAM leaves it old (R195, R197). -/
def cellarStore (s : State) (c line : Nat) (b : Tab Byte) (pz : Nat) (stream victim : Bool) : State :=
  if b.isEmpty then s
  else if !cellarCaches (placeOf s (line * 128)) then cellarPasses s c line b pz
  else
    match cellarFind (cellarOf s c) line with
    | some key =>
      let l := tget (cellarOf s c).lines key {}
      let old := victim && stream
      setCellarLine s c key { mergeDirty l b pz with age := if old then 3 else 0, stream := old }
    | none =>
      let (s, skip) := if victim then trackVictim s c line else (s, false)
      if skip then cellarPasses s c line b pz
      else
        match cellarAllocate s c line with
        | (s, none) => cellarPasses s c line b pz
        | (s, some key) =>
          setCellarLine s c key (mergeDirty { line := line, age := if stream then 3 else 1, stream := stream } b pz)

/-- A victim of a core store is offered to its cellar's buffer (07 R197). -/
def offerVictim (s : State) (c : Nat) (l : CacheLine) : State :=
  if l.dirty ≠ 0 then
    let s := cellarStore s c l.line (dirtyBytes l) l.poison l.stream true
    s
  else if !cellarCaches (placeOf s (l.line * 128)) then s
  else
    match cellarFind (cellarOf s c) l.line with
    | some key =>
      modCellar s c (fun cl => { cl with lines := tmodIf cl.lines key (fun x => { x with age := if l.stream then 3 else 0 }) })
    | none =>
      if l.stream then s
      else
        let i := l.line % 2048
        let t := bits l.line 11 12
        if tfind (cellarOf s c).filter i = some t then
          let s := modCellar s c (fun cl => { cl with filter := tdel cl.filter i })
          match cellarAllocate s c l.line with
          | (s, none) => s
          | (s, some key) => setCellarLine s c key { l with age := 1 }
        else modCellar s c (fun cl => { cl with filter := tset cl.filter i t })

/-- Take a way of a core store for a line, offering the victim to the cellar. -/
def coreAllocate (s : State) (k line : Nat) : State × Option Nat :=
  let c := coreOf s k
  let ways := (coreWays c).filter (fun w => !filling c.fills (tfind c.lines (coreKey w line)))
  match pickVictim ways (fun w => tfind c.lines (coreKey w line)) with
  | none => (s, none)
  | some (w, bump) =>
    let key := coreKey w line
    let s := modCore s k (fun c => { c with lines := ways.foldl (fun t w' =>
      tmodIf t (coreKey w' line) (fun l => { l with age := l.age + bump })) c.lines })
    match tfind c.lines key with
    | none => (s, some key)
    | some v => (offerVictim (modCore s k (fun c => { c with lines := tdel c.lines key })) (k / 64) v, some key)

/-- Change the core-store line at a key. -/
def setCoreLine (s : State) (k key : Nat) (l : CacheLine) : State :=
  modCore s k (fun c => { c with lines := tset c.lines key l })

/-! ### Stores (07 R196) -/

/-- A core stores masked bytes to one line outside its own scratch.  A whole-line miss of both levels moves the trackers; a
store of part of a line ends those that it falls in (R198). -/
def coreStore (s : State) (k line : Nat) (b : Tab Byte) (stream : Bool) : State :=
  let c := k / 64
  let whole := b.length = 128
  let s := if whole then s else trackEnd s c line false
  match coreFind (coreOf s k) line with
  | some key =>
    let l := tget (coreOf s k).lines key {}
    setCoreLine s k key { mergeDirty l b 0 with age := 0, stream := false }
  | none =>
    let miss := cellarCaches (placeOf s (line * 128)) && (cellarFind (cellarOf s c) line).isNone
    let (s, skip) := if miss ∧ whole then trackStore s c line else (s, false)
    if skip then cellarPasses (closeCore s k line) c line b 0
    else
      match coreAllocate s k line with
      | (s, none) => cellarStore (closeCore s k line) c line b 0 stream false
      | (s, some key) =>
        setCoreLine s k key (mergeDirty { line := line, age := if stream then 3 else 1, stream := stream } b 0)

/-- A core stores bytes of one line of its own scratch, which begins at `base` in its core-store window. -/
def scratchStore (s : State) (k base : Nat) (b : Tab Byte) : State :=
  let full := fun u => base ≤ u * 32 && (List.range 32).all (fun j => (tfind b (u * 32 + j - base)).isSome)
  modCore s k (fun c => { c with
    scratch := b.foldl (fun t (x : Nat × Byte) => tset t (base + x.1) x.2) c.scratch
    scratchPoison := c.scratchPoison.filter (fun u => !full u) })

/-! ### Loads and fills (07 R196, R201, R207, R225) -/

/-- Ask home for a line of a cellar's buffer, on behalf of a core's fill where there is one.  The fill takes its way now (Table
7-5); a streaming load of one sector of a line that the buffer does not hold reads that sector only (08 R225). -/
def askHome (s : State) (c line mask : Nat) (stream : Bool) (waiter : List (Nat × Nat)) : State :=
  match openFill (cellarOf s c).fills line with
  | some i => modCellar s c (fun cl => { cl with fills := tmodIf cl.fills i (fun f => { f with waiters := f.waiters ++ waiter }) })
  | none =>
    let absent := (cellarFind (cellarOf s c) line).isNone
    let narrow := match placeOf s (line * 128) with
      | .shelf _ => stream && popCount (sectorsOf mask) 4 == 1 && absent
      | _ => false
    let q := (maskBits (sectorsOf mask) 4).headD 0
    let s := if !absent then s else
      match cellarAllocate s c line with
      | (s, some key) => setCellarLine s c key { line := line, age := if stream then 3 else 1, stream := stream }
      | (s, none) => s
    let (i, s) := takeId s
    let s := modCellar s c (fun cl => { cl with fills := tset cl.fills i { line := line, streaming := stream, waiters := waiter } })
    (newTxn s { master := c, kind := if narrow then .narrow else .read
                hpa := line * 128 + (if narrow then 32 * q else 0), bytes := if narrow then 32 else 128
                tag := cellarOwner s c, client := .cellarFill c i, epoch := (cellarOf s c).epoch }).1

/-- Change a core's fill. -/
def modFill (s : State) (k i : Nat) (f : Fill → Fill) : State := modCore s k (fun x => { x with fills := tmodIf x.fills i f })

/-- Ask the cellar's buffer, or home, for a line on behalf of core fill `i`. -/
def cellarRequest (s : State) (k line mask : Nat) (stream : Bool) (i : Nat) : State :=
  let c := k / 64
  let p := placeOf s (line * 128)
  let own : Bool := match p with
    | .scratch c' => c' == c
    | .coreStore j => j / 64 == c
    | _ => false
  if own && !tracked s line then
    let d := (List.range 128).map (fun i => (i, (readByte s (line * 128 + i)).1))
    let pz := maskOf ((List.range 4).filter (fun q => (readByte s (line * 128 + 32 * q)).2))
    modFill s k i (fun f => fillComes f d fullMask pz)
  else if !cellarCaches p then
    (newTxn s { master := c, kind := .read, hpa := line * 128, bytes := 128, tag := cellarOwner s c,
                client := .coreLoad k i, epoch := (cellarOf s c).epoch, core := some k }).1
  else
    let s := trackEnd s c line true
    match cellarFind (cellarOf s c) line with
    | none => askHome s c line mask stream [(k, i)]
    | some key =>
      let l := tget (cellarOf s c).lines key {}
      if Nat.land mask (notMask l.valid) = 0 then
        modFill (setCellarLine s c key { l with age := 0, stream := false }) k i (fun f => fillComes f l.data l.valid l.poison)
      else askHome (modFill s k i (fun f => { f with data := l.data, valid := l.valid, poison := l.poison })) c line mask stream [(k, i)]

/-- A core wants the masked bytes of a line: those its store holds come at once, with the poison of their sectors; for the rest
the line is asked for, by a fill that takes its way now, and the number of the fill is answered. -/
def coreLoad (s : State) (k line mask : Nat) (stream : Bool) : State × Tab Byte × Bool × Option Nat :=
  let at_ := coreFind (coreOf s k) line
  let l := match at_ with | some key => tget (coreOf s k).lines key {} | none => { line := line }
  let have_ := Nat.land mask l.valid
  let b := keepBytes l.data have_
  let pz := Nat.land l.poison (sectorsOf have_) != 0
  if Nat.land mask (notMask l.valid) = 0 then
    let s := if cellarCaches (placeOf s (line * 128)) then trackEnd s (k / 64) line true else s
    (match at_ with | some key => setCoreLine s k key { l with age := 0, stream := false } | none => s, b, pz, none)
  else
    match openFill (coreOf s k).fills line with
    | some i => (s, b, pz, some i)
    | none =>
      let s := if at_.isSome then s else
        match coreAllocate s k line with
        | (s, some key) => setCoreLine s k key { line := line, age := if stream then 3 else 1, stream := stream }
        | (s, none) => s
      let (i, s) := takeId s
      let s := modCore s k (fun c => { c with fills := tset c.fills i { line := line, streaming := stream } })
      (cellarRequest s k line mask stream i, b, pz, some i)

/-- A CLEAN that met the fill writes the line home (Table 7-5). -/
def cellarCleanAfter (s : State) (c line : Nat) : State :=
  match cellarFind (cellarOf s c) line with
  | none => s
  | some key =>
    let l := tget (cellarOf s c).lines key {}
    (writeHome (setCellarLine s c key { l with dirty := 0 }) c line (dirtyBytes l) l.poison .none).1

/-- A line that holds nothing, and that no fill will bring, leaves its way. -/
def settled (t : Tab Fill) (l : CacheLine) : Bool := l.valid != 0 || (openFill t l.line).isSome

/-- A fill arrives at a cellar's buffer: it is merged under what the line holds, unless it is only delivered; then it serves
the core fills that wait for it. -/
def cellarFillArrives (s : State) (c line : Nat) : State :=
  match readyFill (cellarOf s c).fills line with
  | none => s
  | some (i, f) =>
    let s := modCellar s c (fun cl => { cl with fills := tdel cl.fills i })
    let s := match cellarFind (cellarOf s c) line with
      | none => s
      | some key =>
        let l := tget (cellarOf s c).lines key {}
        let l := if f.suppress then l else mergeUnder l f.data f.valid f.poison
        if settled (cellarOf s c).fills l then setCellarLine s c key l
        else modCellar s c (fun cl => { cl with lines := tdel cl.lines key })
    let s := if f.cleanAfter then cellarCleanAfter s c line else s
    forEach f.waiters s (fun s w => modFill s w.1 w.2 (fun g => if g.ready then g else fillComes g f.data f.valid f.poison))

/-- Bytes of a line that a load record wants: its threads' bytes that fall in the line. -/
def wantedMask (r : LoadRec) (line : Nat) : Nat :=
  r.threads.foldl (fun m t =>
    (List.range r.bytes).foldl (fun m i => if (t.2 + i) / 128 = line then setBit m ((t.2 + i) % 128) else m) m) 0

/-- Masked bytes of a core's line go to home: a copy in its cellar's buffer takes them too, clean (07 R203). -/
def cleanToHome (s : State) (c line : Nat) (b : Tab Byte) (pz : Nat) (client : Client) : State :=
  let m := maskOfBytes b
  let s := match cellarFind (cellarOf s c) line with
    | none => s
    | some key =>
      let l := mergeDirty (tget (cellarOf s c).lines key {}) b pz
      setCellarLine s c key { l with dirty := Nat.land l.dirty (notMask m) }
  (writeHome s c line b pz client).1

/-- A CLEAN that met the fill writes the line home (Table 7-5). -/
def coreCleanAfter (s : State) (k line : Nat) : State :=
  match coreFind (coreOf s k) line with
  | none => s
  | some key =>
    let l := tget (coreOf s k).lines key {}
    cleanToHome (setCoreLine s k key { l with dirty := 0 }) (k / 64) line (dirtyBytes l) l.poison .none

/-- The bytes of a line that a load wants and has not got. -/
def missingMask (r : LoadRec) (line : Nat) : Nat :=
  let m := wantedMask r line
  maskOf ((maskBits m 128).filter (fun i => (tfind r.got (line * 128 + i)).isNone))

/-- A load takes masked bytes of a line. -/
def takeBytes (r : LoadRec) (line : Nat) (b : Tab Byte) (pz : Bool) : LoadRec :=
  { r with got := b.foldl (fun t (x : Nat × Byte) => tset t (line * 128 + x.1) x.2) r.got, poison := r.poison || pz }

/-- A load that waits for a fill takes the bytes that it has not got; where the fill does not bring them all, the line is asked
for again. -/
def loadTakesFill (s : State) (k i : Nat) (f : Fill) (id : Nat) : State :=
  match tfind (coreOf s k).loads id with
  | none => s
  | some r =>
    if !r.need.contains i then s
    else
      let m := Nat.land (missingMask r f.line) f.valid
      let r := takeBytes { r with need := r.need.filter (· != i) } f.line (keepBytes f.data m) (Nat.land f.poison (sectorsOf m) != 0)
      let rest := missingMask r f.line
      if rest = 0 then modCore s k (fun c => { c with loads := tset c.loads id r })
      else
        let (s, b, pz, more) := coreLoad s k f.line rest r.streaming
        let r := takeBytes r f.line b pz
        modCore s k (fun c => { c with loads := tset c.loads id { r with need := r.need ++ more.toList } })

/-- A fill arrives at a core store: it is installed under what the line holds, or only delivered, and the loads that wait for
it take their bytes.  A load takes what stood before the stores that its core made after it (04 R110). -/
def coreFillArrives (s : State) (k line : Nat) : State :=
  match readyFill (coreOf s k).fills line with
  | none => s
  | some (i, f) =>
    let s := modCore s k (fun c => { c with fills := tdel c.fills i })
    let s := match coreFind (coreOf s k) line with
      | none => s
      | some key =>
        let l := tget (coreOf s k).lines key {}
        let l := if f.suppress then l else mergeUnder l f.data f.valid f.poison
        if settled (coreOf s k).fills l then setCoreLine s k key l
        else modCore s k (fun c => { c with lines := tdel c.lines key })
    let s := if f.cleanAfter then coreCleanAfter s k line else s
    forEach (tkeys (coreOf s k).loads) s (fun s id => loadTakesFill s k i f id)

/-! ### Releases and acquires (04 R111–R112, 07 R200–R201) -/

/-- The dirty lines of a core store, by key. -/
def coreDirty (c : Core) : List (Nat × CacheLine) := c.lines.filter (fun e => e.2.dirty != 0)

/-- A CELLAR release: every dirty line of the core's store is visible in the cellar's buffer. -/
def releaseCellar (s : State) (k : Nat) : State :=
  forEach (coreDirty (coreOf s k)) s (fun s e =>
    let s := setCoreLine s k e.1 { e.2 with dirty := 0 }
    cellarStore s (k / 64) e.2.line (dirtyBytes e.2) e.2.poison false false)

/-- The walk of a DEVICE or SYSTEM release: dirty lines of the core's store, then of its cellar's buffer, go to home;
answers the transactions home must acknowledge. -/
def releaseHome (s : State) (k : Nat) (client : Client) : State × List Nat :=
  let c := k / 64
  let (s, l) := (coreDirty (coreOf s k)).foldl (fun (r : State × List Nat) e =>
    let (s, l) := r
    let s := setCoreLine s k e.1 { e.2 with dirty := 0 }
    match cellarFind (cellarOf s c) e.2.line with
    | some key => (setCellarLine s c key (mergeDirty (tget (cellarOf s c).lines key {}) (dirtyBytes e.2) e.2.poison), l)
    | none =>
      let (s, n) := writeHome s c e.2.line (dirtyBytes e.2) e.2.poison client
      (s, match n with | some n => l ++ [n] | none => l)) (s, [])
  ((cellarOf s c).lines.filter (fun e => e.2.dirty != 0)).foldl (fun (r : State × List Nat) e =>
    let (s, l) := r
    let s := setCellarLine s c e.1 { e.2 with dirty := 0 }
    let (s, n) := writeHome s c e.2.line (dirtyBytes e.2) e.2.poison client
    (s, match n with | some n => l ++ [n] | none => l)) (s, l)

/-- Drop the clean bytes of a line: nothing is left of a clean line. -/
def dropClean (l : CacheLine) : Option CacheLine :=
  if l.dirty = 0 then none else some { l with valid := l.dirty, data := dirtyBytes l }

/-- Drop the clean bytes of every line of a table that `p` names. -/
def dropCleanAll (t : Tab CacheLine) (p : Nat → Bool) : Tab CacheLine :=
  t.filterMap (fun e => if p e.1 then (dropClean e.2).map (fun l => (e.1, l)) else some e)

/-- An acquire at a scope by core `k`: clean lines of the core's store go (CELLAR and wider), and at DEVICE or SYSTEM the
clean unlocked lines of its cellar's buffer; fills in flight are delivered and not installed. -/
def acquire' (s : State) (k : Nat) (sc : Scope) : State :=
  let coreToo := sc == .cellar || sc == .device || sc == .system
  let wide := sc == .device || sc == .system
  let s := if !coreToo then s else modCore s k (fun c => { c with
    lines := dropCleanAll c.lines (fun _ => true), fills := tmap c.fills (fun _ f => { f with suppress := true }) })
  if !wide then s
  else modCellar s (k / 64) (fun cl => { cl with
    lines := dropCleanAll cl.lines (fun key => !bitAt cl.lockedWays (keyWay key))
    fills := tmap cl.fills (fun _ f => { f with suppress := true }) })

/-! ### Line operations of maintenance (07 R202–R208) -/

/-- Write back every dirty byte of a cellar's buffer and drop every line (07 R194, R210; 18 R494). -/
def flushCellar (s : State) (c : Nat) : State :=
  let s := forEach (cellarOf s c).lines s (fun s e => (writeHome s c e.2.line (dirtyBytes e.2) e.2.poison .none).1)
  modCellar s c (fun cl => { cl with lines := [], fills := tmap cl.fills (fun _ f => { f with suppress := true }) })

/-- Write back and drop every line of a core's store. -/
def flushCore (s : State) (k : Nat) : State :=
  let s := forEach (coreDirty (coreOf s k)) s (fun s e => cellarStore s (k / 64) e.2.line (dirtyBytes e.2) e.2.poison false false)
  modCore s k (fun c => { c with lines := [], fills := tmap c.fills (fun _ f => { f with suppress := true }) })

end Sys2Proof.Machine
end

