-- ==== Sys2Proof/Machine/Flit.lean ====
section
/-! DEFINITION. The bytes that travel on Chord: the packet header, the flit with its link state, the payloads of LINK_CTL, the
datagram of Ethernet mode, and the keys under which they go (spec 14 R372–R375, R381, R383, R384; 15 R426–R428). -/
namespace Sys2Proof.Machine

/-! ### Packets (14 R381) -/

/-- The 64-byte header of a packet (14 Table 14-5). -/
def packetHeader (k : Packet) : Nat :=
  field k.version 0 8 + field k.ptype 8 8 + field k.vc 16 2 + field (b2n k.reserved) 18 1 + field (b2n k.ordered) 19 1
    + field (b2n k.first) 20 1 + field (b2n k.last) 21 1 + field (b2n k.zsupp) 22 1 + field (b2n k.retx) 23 1
    + field k.hops 24 4 + field (b2n k.timeOk) 28 1 + field k.payload.length 32 16 + field k.opinfo 48 16
    + field k.src 64 32 + field k.dst 96 32 + field k.tag 128 64 + field k.psn 192 32 + field k.ackFloor 224 32
    + field k.epoch 256 32 + field k.msg 288 32 + field k.offset 320 32 + field k.zmask 352 16 + field k.pmask 368 16
    + field k.txTime 384 64 + field k.addr 448 64

/-- The header of the packet that 64 bytes begin, and PAYLOAD_LEN. -/
def packetOfHeader (w : Nat) : Packet × Nat :=
  ({ version := bits w 0 8, ptype := bits w 8 8, vc := bits w 16 2, reserved := bitAt w 18, ordered := bitAt w 19
     first := bitAt w 20, last := bitAt w 21, zsupp := bitAt w 22, retx := bitAt w 23, hops := bits w 24 4
     timeOk := bitAt w 28, opinfo := bits w 48 16, src := bits w 64 32, dst := bits w 96 32, tag := bits w 128 64
     psn := bits w 192 32, ackFloor := bits w 224 32, epoch := bits w 256 32, msg := bits w 288 32, offset := bits w 320 32
     zmask := bits w 352 16, pmask := bits w 368 16, txTime := bits w 384 64, addr := bits w 448 64 }, bits w 32 16)

/-- A packet as it travels: header and payload. -/
def packetWire (k : Packet) : Bytes := leBytes 64 (packetHeader k) ++ k.payload

/-- Bytes of a packet: header and payload. -/
def packetBytes (k : Packet) : Nat := 64 + k.payload.length

/-- A packet in the packet stream, padded to a multiple of 8 bytes (14 R373). -/
def packetPadded (k : Packet) : Bytes := packetWire k ++ List.replicate (roundUp (packetBytes k) 8 - packetBytes k) 0

/-- Packets that a packet stream holds, up to a VERSION byte of 0x00: the rest of the flit is padding (14 R373). -/
def streamPackets : Nat → Bytes → List Packet
  | 0, _ => []
  | n + 1, b =>
    if b.length < 64 ∨ leAt b 0 1 = 0 then []
    else
      let h := packetOfHeader (leAt b 0 64)
      { h.1 with payload := (b.drop 64).take h.2 } :: streamPackets n (b.drop (roundUp (64 + h.2) 8))

/-! ### Keys (14 R374, R384; 15 R426, R427) -/

/-- The keys that a secret of a link or association gives: those of both directions, as R426 lays 72 bytes out; `low` says
that the sender has the lower NODE_ID. -/
def linkKey (secret : Nat) (info : String) (low : Bool) : LinkKey :=
  let okm := (Config.hkdfExpand secret info 72 ++ List.replicate 72 0).take 72
  let o := if low then 0 else 36
  { key := leAt okm o 32, salt := leAt okm (o + 32) 4 }

def linkInfo := "chord-link-1.0"
def assocInfo := "chord-assoc-1.0"

/-- S' of R427, which replaces S. -/
def updatedSecret (secret : Nat) : Nat := leNat ((Config.hkdfExpand secret "chord-link-update" 48).take 48)

/-- The IV of a flit or datagram: the salt, and then the 64-bit count. -/
def gcmIv (k : LinkKey) (count : Nat) : Bytes := leBytes 4 k.salt ++ leBytes 8 count

/-! ### Flits (14 R372–R374) -/

/-- The link state that every flit carries (14 Table 14-3). -/
def linkState (l : LinkLayer) : Nat :=
  field (l.rxNext + 2 ^ 16 - 1) 0 16 + field (b2n l.nakOwed) 16 1
    + sum ([0, 1, 2, 3].map (fun v => field (tget l.credOut v 0) (32 + 16 * v) 16))

/-- The header block of a flit (14 Table 14-2), its additional authenticated data. -/
def flitHeader (count : Nat) : Nat := 0x01 + field (count % 2 ^ 16) 8 16

/-- The 1,008-byte shares of a packet stream; an empty stream still fills one flit. -/
def flitShares (b : Bytes) : List Bytes :=
  (List.range (max 1 ((b.length + 1007) / 1008))).map (fun i => ((b.drop (1008 * i) ++ List.replicate 1008 0).take 1008))

/-- Send one flit: its plaintext is sealed under the key and FLIT_COUNT of the direction, and stays in the retry buffer for a
replay bit for bit.  It carries what the link owes (R376).  At SWITCH_COUNT the updated key takes over, and FLIT_COUNT starts
again (15 R427). -/
def sendFlit (l : LinkLayer) (share : Bytes) : LinkLayer :=
  let c := l.txCount - l.txBase
  let sealed := Config.gcmSeal l.txKey.key (gcmIv l.txKey c) (leBytes 8 (flitHeader c)) (leBytes 16 (linkState l) ++ share)
  let l := { l with txCount := l.txCount + 1, retry := l.retry ++ [({ count := c, cipher := sealed.1, tag := sealed.2 } : SentFlit)]
                    ackOwed := false, nakOwed := false }
  match l.switchTx with
  | some n =>
    if l.txBase + n ≤ l.txCount then
      let k := updatedSecret l.txSecret
      { l with txBase := l.txBase + n, switchTx := none, txSecret := k, txKey := linkKey k linkInfo l.lower }
    else l
  | none => l

/-- The direction from the partner has come to its SWITCH_COUNT. -/
def switchReceive (l : LinkLayer) : LinkLayer :=
  let k := updatedSecret l.rxSecret
  { l with rxNext := 0, switchRx := none, rxSecret := k, rxKey := linkKey k linkInfo (!l.lower) }

/-- The keys of a link whose exchange is complete: FLIT_COUNT starts at 0 (14 R374, 15 R426). -/
def installKeys (l : LinkLayer) (own : Nat) : LinkLayer :=
  let s := Config.linkSecret l.hello
  let low := decide (own < l.partner)
  { l with llstate := .opened, lower := low, txSecret := s, rxSecret := s, txKey := linkKey s linkInfo low
           rxKey := linkKey s linkInfo (!low), txCount := 0, txBase := 0, txAcked := 0, rxNext := 0, replayed := 0
           switchTx := none, switchRx := none, retry := [] }

/-- Acknowledged flits leave the retry buffer. -/
def dropAcked (l : LinkLayer) (n : Nat) : LinkLayer := { l with txAcked := l.txAcked + n, replayed := 0, retry := l.retry.drop n }

/-! ### LINK_CTL (14 Table 14-6; 15 Table 15-8) -/

def ptLinkCtl := 0x20

/-- Kinds of link-layer traffic that the model's output names. -/
def lkFlit := 0x00
def lkCap := 0x01
def lkHello := 0x02
def lkFinish := 0x03
def lkUpdate := 0x04
def lkReplay := 0x05
def lkInit := 0x20
def lkResp := 0x21
def lkConfirm := 0x22

/-- Bytes of a payload whose layout the spec does not give, of a length that the model gives it. -/
def freePayload (n kind value : Nat) : Bytes := (Config.linkCtlBytes kind value ++ List.replicate n 0).take n

/-- KEY_HELLO of a device in a LIFECYCLE: a random nonce, the ephemeral public key, the certificate chain. -/
def keyHello (lifecycle node hello : Nat) : Bytes :=
  let cert := Config.aliasChain.take 4096
  [0x10] ++ leBytes 1 lifecycle ++ leBytes 2 cert.length ++ leBytes 4 node ++ leBytes 32 (Config.random hello)
    ++ leBytes 96 (Config.ephemeralKey hello) ++ cert

/-- KEY_FINISH: the signature over TH. -/
def keyFinish (node hello : Nat) : Bytes :=
  [0x11, 0, 0, 0] ++ leBytes 4 node ++ List.replicate 32 0 ++ leBytes 96 (Config.keySignature hello)

/-- KEY_UPDATE: SWITCH_COUNT at offset 8. -/
def keyUpdate (count : Nat) : Bytes := [0x12] ++ List.replicate 7 0 ++ leBytes 8 count

/-- A LINK_CTL packet on a native link. -/
def ctlPacket (node partner : Nat) (payload : Bytes) : Packet :=
  { ptype := ptLinkCtl, vc := 3, src := node, dst := partner, payload := payload }

/-! ### Ethernet mode (14 R383–R385) -/

/-- A datagram (14 Table 14-7), from the IPv6 header on. -/
structure Datagram where
  hopLimit : Nat := 64
  nextHeader : Nat := 17
  trafficClass : Nat := 0
  flowLabel : Nat := 0
  source : Nat := 0
  target : Nat := 0
  sourcePort : Nat := 0
  targetPort : Nat := 0
  assocId : Nat := 0
  counter : Nat := 0
  cipher : Bytes := []
  tag : Nat := 0
  deriving DecidableEq, Repr, Inhabited

/-- The association header: the receiver's ASSOC_ID and COUNTER. -/
def assocHeader (id counter : Nat) : Bytes := leBytes 8 (id % 2 ^ 32) ++ leBytes 8 counter

/-- The datagram in which a packet travels to an address under an association. -/
def datagramOf (own port trafficClass : Nat) (a : Assoc) (k : Packet) : Datagram :=
  let sealed := Config.gcmSeal a.txKey.key (gcmIv a.txKey k.counter) (assocHeader k.assoc k.counter) (packetWire k)
  { trafficClass := trafficClass, flowLabel := k.path, source := own, target := a.ipv6, sourcePort := 0xC000 + k.path
    targetPort := port, assocId := k.assoc, counter := k.counter, cipher := sealed.1, tag := sealed.2 }

end Sys2Proof.Machine
end

