-- ==== Sys2Proof/Machine/ChordBase.lean ====
section
/-! DEFINITION. Sending on Chord: peers, admission tags, routes, the cutting of messages into packets, and the congestion
window (spec 14 R378–R391). -/
namespace Sys2Proof.Machine

/-! ### Packet and message types (14 Table 14-6) -/

def ptWrite := 0x01
def ptReadReq := 0x02
def ptReadRsp := 0x03
def ptAtomic := 0x04
def ptAtomicRsp := 0x05
def ptPeg := 0x06
def ptDone := 0x07
def ptStep := 0x08
def ptStepCancel := 0x09
def ptStepDone := 0x0A
def ptColl := 0x0B
def ptAck := 0x10
def ptNack := 0x11

/-- Chord status codes (14 Table 14-12). -/
def csRemoteAccess := 0x0010
def csUnreachable := 0x0011
def csGroup := 0x0012
def csBusy := 0x0013

/-- The virtual channel of a packet type (14 Table 14-4). -/
def vcOf (pt : Nat) (reserved : Bool) : Nat :=
  if reserved then 2
  else if pt = ptReadRsp ∨ pt = ptAtomicRsp ∨ pt = ptDone ∨ pt = ptStepDone ∨ pt = ptAck ∨ pt = ptNack then 1 else 0

/-! ### Peers -/

def peerOf (s : State) (p : Nat) : Peer := tget s.chord.peers p {}
def modPeer (s : State) (p : Nat) (f : Peer → Peer) : State :=
  { s with chord := { s.chord with peers := tmodIf s.chord.peers p f } }

/-- The entry of a remote node and a local partition (14 R386). -/
def peerFind (s : State) (node part : Nat) : Option Nat :=
  (s.chord.peers.find? (fun e => e.2.node == node && e.2.part == part)).map (·.1)

/-- 100 ms of the time base. -/
def ms100 := 6400000000

/-- An entry that may be evicted: no unacknowledged packet, no incomplete or held message, no traffic for 100 ms. -/
def evictable (s : State) (p : Peer) : Bool :=
  p.sent.isEmpty && p.queue.isEmpty && p.messages.isEmpty && p.incoming.isEmpty && p.lastTraffic + ms100 ≤ s.time.now

/-- The least recently used entry among those that may be evicted. -/
def victimPeer (s : State) : Option Nat :=
  ((s.chord.peers.filter (fun e => evictable s e.2)).foldl (fun (b : Option (Nat × Nat)) e =>
    match b with
    | none => some (e.1, e.2.lastTraffic)
    | some (_, t) => if e.2.lastTraffic < t then some (e.1, e.2.lastTraffic) else b) none).map (·.1)

/-- The entry of a node and partition, created on first contact with a random nonzero epoch (14 R386).  `none` when the
table is full and no entry may go. -/
def peerEntry (s : State) (node part : Nat) (eth : Bool) (ipv6 : Nat) : State × Option Nat :=
  match peerFind s node part with
  | some p => (s, some p)
  | none =>
    let (slot, s) :=
      match tfree s.chord.peers 0 65536 with
      | some i => (some i, s)
      | none =>
        match victimPeer s with
        | some i => (some i, { s with chord := { s.chord with
            peers := tdel s.chord.peers i, evictions := satInc 16 s.chord.evictions } })
        | none => (none, s)
    match slot with
    | none => (s, none)
    | some i =>
      let (n, s) := takeFresh s
      let fresh : Peer := { node := node, part := part, epoch := 1 + Config.random n % (2 ^ 32 - 1), eth := eth, ipv6 := ipv6
                            cwnd := if eth then 65536 else 262144, lastTraffic := s.time.now }
      ({ s with chord := { s.chord with peers := tset s.chord.peers i fresh } }, some i)

/-- The send tag of a partition (14 R387). -/
def sendTag (s : State) (part : Nat) : Option Nat :=
  ((List.range 4).filterMap (fun i => tfind s.chord.tags (part * 4 + i))).find? (fun t => t.2) |>.map (·.1)

/-- The partition that a tag names. -/
def tagPartition (s : State) (tag : Nat) : Option Nat :=
  if tag = 0 then none else (s.chord.tags.find? (fun e => e.2.1 == tag)).map (fun e => e.1 / 4)

/-! ### Paths (14 R378, R385) -/

def engineOf (s : State) (e : Nat) : Engine := tget s.link.engines e {}
def modEngine (s : State) (e : Nat) (f : Engine → Engine) : State :=
  { s with link := { s.link with engines := tmod s.link.engines e {} f } }
def llOf (s : State) (e : Nat) : LinkLayer := tget s.chord.lls e {}
def modLl (s : State) (e : Nat) (f : LinkLayer → LinkLayer) : State :=
  { s with chord := { s.chord with lls := tmod s.chord.lls e {} f } }

/-- MODE of an engine: 0 OFF, 1 NATIVE, 2 ETHERNET (13). -/
def isEthernet (e : Engine) : Bool := e.mode == 2

/-- The engines that carry packets to a peer: those of its route, or every ETHERNET-mode engine with a port UP. -/
def pathEngines (s : State) (p : Peer) : List Nat :=
  if p.eth then
    (List.range 12).filter (fun e => let x := engineOf s e; x.estate == .up && isEthernet x && x.ethUp != 0)
  else
    match s.chord.routes.find? (fun e => e.2.node == p.node) with
    | none => []
    | some (_, r) => (maskBits r.engines 12).filter (fun e => (llOf s e).llstate == .opened)

/-- The association of an address is set up (14 R384). -/
def assocUp (s : State) (ipv6 : Nat) : Option Nat :=
  (s.chord.assocs.find? (fun e => e.2.ipv6 == ipv6 && e.2.astate == .up && e.2.validTo.isNone)).map (·.1)

/-- Begin the exchange that sets an association up, unless one is under way (15 R428). -/
def startAssoc (s : State) (ipv6 : Nat) : State :=
  if s.chord.assocs.any (fun e => e.2.ipv6 == ipv6) then s
  else
    match tfree s.chord.assocs 1 4097 with
    | none => s
    | some i =>
      emit { s with chord := { s.chord with assocs := tset s.chord.assocs i { ipv6 := ipv6, astate := .initSent, tries := 1 } } }
        (.linkCtl 0 0x20 i)

/-! ### The congestion window (14 R391) -/

/-- Unreserved bytes in flight. -/
def inFlight (p : Peer) : Nat := sum ((p.sent.filter (fun x => !x.reserved)).map (·.bytes))

/-! ### Sending -/

/-- TIME_OK: the sender is LOCKED or MASTER. -/
def timeOk (s : State) : Bool := s.time.tstate == .locked || s.time.tstate == .master

/-- The lowest PSN still held unacknowledged. -/
def ackFloor (p : Peer) : Nat := match p.sent with | [] => p.nextPsn | x :: _ => x.psn

/-- Credits of a channel's receive buffer (Table 14-4), and those a packet takes (R375). -/
def vcCredits (vc : Nat) : Nat := if vc = 2 then 8192 else if vc = 3 then 256 else 4096
def creditsOf (k : Packet) : Nat := (packetBytes k + 63) / 64

/-- Flits that a packet takes: each begins a flit of its own (R373). -/
def flitsOf (k : Packet) : Nat := (roundUp (packetBytes k) 8 + 1007) / 1008

/-- A native engine holds credits for the whole packet and room in its retry buffer (R375, R376). -/
def mayTransmit (s : State) (e : Nat) (k : Packet) : Bool :=
  let l := llOf s e
  isEthernet (engineOf s e)
    || ((tget l.credUsed k.vc 0 + 2 ^ 16 - tget l.credIn k.vc 0 % 2 ^ 16) % 2 ^ 16 + creditsOf k ≤ vcCredits k.vc
        && l.txCount - l.txAcked + flitsOf k ≤ 4096)

/-- A packet stream leaves in flits. -/
def sendStream (s : State) (e : Nat) (b : Bytes) : State := modLl s e (fun l => (flitShares b).foldl sendFlit l)

/-- A packet on a native link takes its credits and its flits. -/
def chargePacket (s : State) (e : Nat) (k : Packet) : State :=
  if isEthernet (engineOf s e) then s
  else sendStream (modLl s e (fun l => { l with credUsed := tmod l.credUsed k.vc 0 (fun c => (c + creditsOf k) % 2 ^ 16) })) e (packetPadded k)

/-- A LINK_CTL packet of a kind goes out on a native link. -/
def sendCtl (s : State) (e kind value : Nat) (payload : Bytes) : State :=
  emit (chargePacket s e (ctlPacket s.chord.node (llOf s e).partner payload)) (.linkCtl e kind value)

/-- Put one packet on an engine; in Ethernet mode it takes the next COUNTER of its association and the next PATH. -/
def transmit (s : State) (p e : Nat) (k : Packet) : State :=
  let x := peerOf s p
  let s := modPeer s p (fun x => { x with path := x.path + 1, lastTraffic := s.time.now })
  match (if x.eth then assocUp s x.ipv6 else none) with
  | some i =>
    let a := tget s.chord.assocs i {}
    let s := { s with chord := { s.chord with assocs := tmodIf s.chord.assocs i (fun a => { a with counter := a.counter + 1 }) } }
    emit (chargePacket s e k) (.packet e { k with assoc := a.remoteId, counter := a.counter, path := x.path % 64 })
  | none => emit (chargePacket s e k) (.packet e k)

/-- The engine of the next packet to a peer, round robin over its paths; `none` while it must wait for a route, an
association or credits. -/
def nextEngine (s : State) (p : Peer) (k : Packet) : Option Nat :=
  if p.eth && (assocUp s p.ipv6).isNone then none
  else
    let l := (pathEngines s p).filter (fun e => mayTransmit s e k)
    if l.isEmpty then none else l[p.path % l.length]?

/-- How many flits an engine has sent with the last one of a packet that it sends now. -/
def lastFlit (s : State) (e : Nat) (k : Packet) : Nat := (llOf s e).txCount + flitsOf k

/-- Send the packets that wait at a peer entry, in order, while the window and the paths allow. -/
def pump (s : State) (p : Nat) : State :=
  (peerOf s p).queue.foldl (fun (s : State) (_ : Packet) =>
    let x := peerOf s p
    match x.queue, nextEngine s x (x.queue.headD {}) with
    | k :: rest, some e =>
      if !k.reserved && x.cwnd < inFlight x + packetBytes k then s
      else
        let k := { k with psn := x.nextPsn, ackFloor := ackFloor x, epoch := x.epoch, txTime := s.time.now % 2 ^ 64
                          timeOk := timeOk s }
        let s := modPeer s p (fun x => { x with
          queue := rest, nextPsn := (x.nextPsn + 1) % 2 ^ 32
          sent := x.sent ++ [{ psn := k.psn, msg := k.msg, bytes := packetBytes k, engine := e, at_ := s.time.now
                               reserved := k.reserved, flit := lastFlit s e k, packet := k }] })
        transmit s p e k
    | _, _ => s) s

/-- Queue packets for a peer and send what can be sent. -/
def enqueue (s : State) (p : Nat) (l : List Packet) : State :=
  let s := modPeer s p (fun x => { x with queue := x.queue ++ l })
  let x := peerOf s p
  let s := if x.eth && (assocUp s x.ipv6).isNone then startAssoc s x.ipv6 else s
  pump s p

/-- The header that every packet to a peer begins with. -/
def baseHeader (s : State) (p pt msg : Nat) (reserved : Bool) : Packet :=
  let x := peerOf s p
  { ptype := pt, vc := vcOf pt reserved, reserved := reserved, ordered := pt != ptColl && pt != ptReadRsp
    src := s.chord.node, dst := x.node, tag := (sendTag s x.part).getD 0, msg := msg }

/-- Blocks of 256 bytes of a packet's span. -/
def blocksOf (b : Bytes) : List Bytes := (List.range ((b.length + 255) / 256)).map (fun i => (b.drop (256 * i)).take 256)

/-- Cut the bytes of a message of `total` from offset `base` on into packets: zero blocks are left out under ZSUPP,
poisoned ones marked in PMASK; `pz` tells of a block by its offset in `data`. -/
def cutPackets (h : Packet) (span base total : Nat) (data : Bytes) (pz : Nat → Bool) (zsupp : Bool) : List Packet :=
  let n := max 1 ((data.length + span - 1) / span)
  (List.range n).map (fun i =>
    let b := (data.drop (i * span)).take span
    let bl := blocksOf b
    let zero := fun (x : Bytes) => x.length == 256 && x.all (· == 0)
    let zm := if zsupp then maskOf ((List.range bl.length).filter (fun j => zero (nth bl j []) && !pz (i * span + 256 * j))) else 0
    let pm := maskOf ((List.range bl.length).filter (fun j => pz (i * span + 256 * j)))
    { h with first := base + i == 0, last := decide (total ≤ base + i * span + b.length), zsupp := zsupp
             offset := base + i * span, zmask := zm, pmask := pm
             payload := (List.range bl.length).flatMap (fun j => if bitAt zm j then [] else nth bl j []) })

/-- The packets of a whole message. -/
def packetise (h : Packet) (span : Nat) (data : Bytes) (pz : Nat → Bool) (zsupp : Bool) : List Packet :=
  cutPackets h span 0 data.length data pz zsupp

/-- Payload bytes of one packet to a peer (14 R381, R383). -/
def spanOf (s : State) (x : Peer) : Nat :=
  if x.eth then (match s.boot.board.chord with | some c => c.ethPayload | none => 1024) else 4096

/-- Send a message that has a completion: it takes the next MSG_ID.  Answers the identifier. -/
def sendMessage (s : State) (p : Nat) (m : Message) (opinfo addr : Nat) (data : Bytes) (pz : Nat → Bool)
    (zsupp reserved : Bool) : State × Nat :=
  let x := peerOf s p
  let id := x.nextMsg
  let h := { baseHeader s p m.ptype id reserved with opinfo := opinfo, addr := addr }
  let l := packetise h (spanOf s x) data pz zsupp
  let m := { m with packets := l, suppressed := sum (l.map (fun k => popCount k.zmask 16)) }
  let s := modPeer s p (fun x => { x with nextMsg := (id + 1) % 2 ^ 32, messages := tset x.messages id m })
  (enqueue s p l, id)

/-- Send packets that answer a peer's message, or a cancel, which have no completion of their own. -/
def sendReply (s : State) (p pt msg opinfo addr : Nat) (data : Bytes) (pz : Nat → Bool) : State :=
  let h := { baseHeader s p pt msg false with opinfo := opinfo, addr := addr }
  enqueue s p (packetise h (spanOf s (peerOf s p)) data pz false)

/-! ### Peer windows (14 R395) -/

/-- Base of the window that an HPA lies in, and the remote address. -/
def windowRemote (s : State) (w hpa : Nat) : Nat := (tget s.chord.windows w {}).remoteBase + (hpa - peerBase) % peerStride

/-- The peer entry of a window, created on first contact. -/
def windowPeer (s : State) (w : Nat) : State × Option Nat :=
  match tfind s.chord.windows w with
  | none => (s, none)
  | some x => peerEntry s x.node x.part x.eth x.ipv6

/-- Why an access of `n` bytes at `a` by a unit of a partition is refused, as an error code; `none` when it is admitted: an
address beyond 48 bits, the map, the firewall, a write to the register space, a window without write or a partition
without a send tag (04 R119, 08 R213–R214, 14 R387, R395). -/
def accessRefusal (s : State) (part : Nat) (write : Bool) (a n : Nat) : Option Nat :=
  if 2 ^ 48 < a + n then some ecAccessError
  else
    match admitRange s part write a n with
    | .ok (.register _) => if write then some ecAccessError else none
    | .ok (.peer w) =>
      if (write && (tget s.chord.windows w {}).noWrite) || (sendTag s part).isNone then some ecAccessError else none
    | .ok _ => none
    | r => some (refusalCode r)

/-- A sender that finds no entry waits (14 R386). -/
def countCreateWait (s : State) : State :=
  { s with chord := { s.chord with createWaits := satInc 16 s.chord.createWaits } }

end Sys2Proof.Machine
end

