-- ==== Sys2Proof/Machine/Cp.lean ====
section
/-! DEFINITION. Mailboxes, the taking and checking of commands, HELLO, and the event queues (spec 03). -/
namespace Sys2Proof.Machine

/-! ### The command set (03 R86, Table 3-6) -/

/-- Role a command needs (03 R83); QOS_SET decides by its entries (10 R282). -/
inductive Role where
  | drv | own | mgmt | qos
  deriving DecidableEq, Repr, Inhabited

/-- The rows of Table 3-6: opcode, role, and whether the command is of mode A. -/
def commandSet : List (Nat × Role × Bool) := [
  (opHello, .drv, false), (opEqCreate, .drv, false), (opEqDestroy, .drv, true),
  (opPartitionCreate, .mgmt, false), (opPartitionDestroy, .mgmt, true), (opPartitionReset, .own, true),
  (opPartitionQuery, .drv, false), (opPartitionPolicySet, .own, false),
  (opImageLoad, .drv, true), (opModelBind, .own, true), (opModelUnbind, .own, true),
  (opSeqOpen, .drv, false), (opSeqClose, .drv, true), (opStepSubmit, .drv, true),
  (opMapHost, .drv, false), (opUnmapHost, .drv, true), (opFaultRespond, .drv, false),
  (opPeerWindowSet, .own, false), (opPeerWindowClear, .own, true), (opPeerAdmitSet, .mgmt, false),
  (opLinkQuery, .drv, false), (opLinkRetrain, .mgmt, true), (opLinkModeSet, .mgmt, true),
  (opQosSet, .qos, false),
  (opTimeQuery, .drv, false), (opTimePeriodSet, .mgmt, false), (opTimeRoleSet, .mgmt, false),
  (opTimeBackgroundSet, .mgmt, false),
  (opPowerQuery, .drv, false), (opPowerCapSet, .mgmt, false), (opPowerDomainSet, .own, true),
  (opAttest, .drv, true), (opFwStage, .mgmt, true), (opFwActivate, .mgmt, true)]

/-- Role and mode of an opcode. -/
def commandInfo (op : Nat) : Option (Role × Bool) := (commandSet.find? (fun r => r.1 == op)).map (·.2)

/-- Commands that act on a TRANSITIONING partition's mailboxes as usual (15 R416). -/
def busyAllowed : List Nat := [opHello, opEqCreate, opEqDestroy, opPartitionQuery, opAttest]

/-! ### Header and payload (03 Table 3-2, R61, R545) -/

/-- `n` bytes of a mailbox area from page offset `off`. -/
def areaBytes (t : Tab Byte) (off n : Nat) : Bytes := (List.range n).map (fun i => tget t (off + i) 0)

/-- The header that 64 bytes spell. -/
def hdrOf (b : Bytes) : Hdr :=
  let f := fun lo w => bbits b lo w
  { opcode := f 0 16, reqByRef := f 16 1 == 1, respByRef := f 17 1 == 1, eqCopy := f 18 1 == 1, tag := f 32 32,
    reqLen := f 64 32, respCap := f 96 32, reqAddr := f 128 64, respAddr := f 192 64, pasid := f 256 20, eqId := f 288 9,
    authRef := f 320 64, mgmtContext := f 384 8,
    rsvdZero := f 19 13 == 0 && f 276 12 == 0 && f 297 23 == 0 && f 392 120 == 0 }

/-- Length of a STEP_SUBMIT descriptor by its own counts (09 R252, R254): header, batch list padded to 16, touch list,
and the parts by their BYTES.  `none` when the payload ends inside a part header. -/
def partsLength : Nat → Bytes → Option Nat
  | 0, _ => some 0
  | n + 1, b =>
    if b.length < 8 then none
    else
      let bytes := 8 + leAt b 2 2
      (partsLength n (b.drop bytes)).map (· + bytes)

/-- Length of a STEP_SUBMIT request. -/
def stepLength (b : Bytes) : Option Nat :=
  let batch := leAt b 16 2 % 2 ^ 13
  let touch := leAt b 18 2
  let parts := leAt b 20 2
  let fixed := 64 + roundUp (4 * batch) 16 + 16 * touch
  (partsLength parts (b.drop fixed)).map (· + fixed)

/-- The length of a request of fixed size; `none` for a request whose counts or image fix it (03 R545). -/
def fixedLength (op : Nat) : Option Nat :=
  (([(opHello, 32), (opEqCreate, 32), (opEqDestroy, 8), (opPartitionDestroy, 8), (opPartitionReset, 8),
     (opPartitionQuery, 8), (opPartitionPolicySet, 8), (opModelUnbind, 8), (opSeqOpen, 32), (opSeqClose, 16),
     (opMapHost, 32), (opUnmapHost, 24), (opFaultRespond, 8), (opPeerWindowSet, 48), (opPeerWindowClear, 8),
     (opPeerAdmitSet, 16), (opLinkQuery, 8), (opLinkRetrain, 8), (opLinkModeSet, 8), (opTimeQuery, 0),
     (opTimePeriodSet, 16), (opTimeRoleSet, 8), (opTimeBackgroundSet, 8), (opPowerQuery, 0), (opPowerCapSet, 24),
     (opFwActivate, 0)] : List (Nat × Nat)).find? (fun r => r.1 == op)).map (·.2)

/-- The payload's own counts agree with REQ_LEN, and so does an image's own length (03 R545; 16 Tables 16-4, 16-9). -/
def countsAgree (op : Nat) (b : Bytes) : Bool :=
  if op = opPartitionCreate then b.length == 128 + 16 * leAt b 1 1
  else if op = opQosSet then b.length == 8 + 8 * leAt b 2 2
  else if op = opPowerDomainSet then b.length == 8 + 4 * leAt b 1 1
  else if op = opModelBind then b.length == 96 + 32 * leAt b 1 1
  else if op = opStepSubmit then stepLength b == some b.length
  else if op = opImageLoad then b.length == leAt b 12 4 + 96
  else if op = opFwStage then b.length == 224 + leAt b 12 4 + leAt b 16 4
  else true

/-- REQ_LEN is refused before any payload is fetched (03 R61, R545; 18 R516 for the management channel). -/
def lengthRefused (h : Hdr) (mgmt : Bool) : Bool :=
  let image := h.opcode == opImageLoad || h.opcode == opFwStage
  let limit := if mgmt then if image then 2 ^ 28 else 2 ^ 20
               else if h.reqByRef then if image then 2 ^ 28 else 2 ^ 20 else 3008
  h.reqLen > limit || (match fixedLength h.opcode with | none => false | some n => h.reqLen != n)

/-! ### Taking a command (03 R67, R546) -/

/-- The next POSTED mailbox in ascending order, round robin from the last one taken (03 R67). -/
def nextPosted (s : State) : Option Nat :=
  ((List.range 64).map (fun i => (s.cp.lastTaken + 1 + i) % 64)).find? (fun m => (chanOf s m).state == .posted)

/-- The oldest POSTED command of the management channel. -/
def nextMgmt (s : State) : Option Nat :=
  (List.range 8).foldl (fun best i =>
    let c := 64 + i
    if (chanOf s c).state == .posted then
      match best with
      | none => some c
      | some b => if (chanOf s c).order < (chanOf s b).order then some c else some b
    else best) none

/-- Commands that are TAKEN now. -/
def takenCount (s : State) : Nat := (s.cp.chans.filter (fun e => e.2.state == .taken)).length

/-- The boot ROM serves mailbox 0 only (16 R446). -/
def bootServes (s : State) : Bool :=
  (s.boot.stage == .recovery || (s.boot.stage == .fwLoad && s.boot.waiting.isSome && s.boot.straps.boot == 1))
    && !s.boot.stopped

/-- The owner key of partition `p` is all zeros (15 R412). -/
def isOpen (s : State) (p : Nat) : Bool := (partOf s p).keyX == 0 && (partOf s p).keyY == 0

/-- The owner authorisation block passes the seven checks of 15 R410. -/
def authPasses (s : State) (t : Taken) (inp : TakeInput) (b : Bytes) : Bool :=
  leAt b 0 1 == 0x10 && bbits b 8 4 == t.ctx && leAt b 2 2 == t.hdr.opcode && leAt b 4 4 == t.hdr.tag
    && leAt b 16 8 == s.boot.fuses.serial % 2 ^ 64 && inp.digestOk && (inp.sigOk && !isOpen s t.ctx)
    && leAt b 8 8 > (partOf s t.ctx).ownerCounter

/-- A fetch met a poisoned TLP. -/
def fetchPoisoned : Fetch → Bool
  | .poison => true
  | .partly _ bad => !bad.isEmpty
  | _ => false

/-- The status of a failed fetch (03 Table 3-16); `none` when it returned data. -/
def fetchStatus : Fetch → Option Status
  | .data _ => none
  | .translation => some .payloadFault
  | .accessError => some .payloadFault
  | .poison => some .poisoned
  | .partly _ bad => if bad.isEmpty then none else some .poisoned

/-- The CODE of the error record of a failed fetch (03 Table 3-16). -/
def fetchCode : Fetch → Nat
  | .data _ => 0
  | .translation => ecTranslation
  | .accessError => ecAccessError
  | .poison => ecPoisonConsumed
  | .partly _ _ => ecPoisonConsumed

/-- The bytes a fetch returned. -/
def fetchBytes : Fetch → Bytes
  | .data b => b
  | .partly b _ => b
  | _ => []

/-- The error record of a failed fetch, of UNIT_CLASS CP (03 R62). -/
def logFetch (s : State) (c : Nat) (addr : Nat) (f : Fetch) : State :=
  logErr (tlpPoison s (fetchPoisoned f)) {
    severity := if fetchPoisoned f then .poisonConsumed else .accessError, unitClass := ucCp, code := fetchCode f, partition := errPartition c, address := addr }

/-- The context a management command names (03 R85), `none` when R85 refuses it. -/
def mgmtCtx (s : State) (n : Nat) : Option Nat :=
  if n = 0 ∨ n = 0xFF then some 0
  else if n ≤ 15 ∧ (partOf s n).pstate ≠ .none then some n else none

/-- Checks 1 to 5 of 03 R546, as far as the header and an inline payload decide them. -/
def earlyChecks (s : State) (c : Nat) (h : Hdr) (inline : Option Bytes) : Option Status :=
  let mgmt := isMgmt c
  firstFail [
    (!mgmt && h.opcode != opHello && !(chanOf s c).session, .noSession),
    ((commandInfo h.opcode).isNone, .unknownOpcode),
    (!mgmt && ((commandInfo h.opcode).map (·.1)) == some .mgmt, .deniedRole),
    (!h.rsvdZero || (!mgmt && h.mgmtContext != 0) || (mgmt && (mgmtCtx s h.mgmtContext).isNone)
      || (mgmt && (h.reqByRef || h.respByRef || h.authRef != 0)), .badField),
    (lengthRefused h mgmt || (match inline with | none => false | some b => !countsAgree h.opcode b), .badLength)]

/-- Checks 7 and 8 of 03 R546: the partition's state and the queues the header names. -/
def stateChecks (s : State) (c : Nat) (t : Taken) : Option Status :=
  let mgmt := isMgmt c
  let async := match commandInfo t.hdr.opcode with | some (_, a) => a | none => false
  firstFail [
    (!mgmt && (partOf s t.ctx).pstate == .transitioning && !busyAllowed.contains t.hdr.opcode, .partitionBusy),
    (!mgmt && (async || t.hdr.eqCopy) && (eqOf s t.hdr.eqId).state != .none && (eqOf s t.hdr.eqId).owner != t.ctx,
      .deniedPartition),
    (!mgmt && (async || t.hdr.eqCopy) && !eqActive s t.hdr.eqId t.ctx, .badField),
    (mgmt && ((async && t.hdr.eqId != 0) || t.hdr.eqCopy), .badField)]

/-- The command needs an owner authorisation (03 R83): an Own command on a host mailbox, and a QOS_SET there. -/
def needsOwner (op : Nat) : Bool :=
  match commandInfo op with
  | some (.own, _) => true
  | some (.qos, _) => true
  | _ => false

/-- A read through the walkers under a PASID: it fails translation where the PASID is not bound in the context, or the address
breaks the CANONICAL rule (03 R62). -/
def hostFetch (s : State) (pasid ctx a n : Nat) (f : Fetch) : Fetch :=
  if hostRangeOk s pasid ctx a n then f else .translation

/-- The taking of a host command, from its copied header on: the checks of 03 R546 in order.  A command that passes is
TAKEN and waits for its own row.  A request by reference is fetched whatever the command: that HELLO, EQ_CREATE and EQ_DESTROY,
whose requests the spec calls inline, are taken by reference too is the model's choice (03 R81 gives no status). -/
def takeHost (s : State) (c : Nat) (inp : TakeInput) : State :=
  let m := chanOf s c
  let h := hdrOf (areaBytes m.req 0 64)
  let inl := if h.reqByRef then none else some (areaBytes m.req 0x40 (min h.reqLen 3008))
  let t : Taken := { hdr := h, req := inl.getD [], ctx := m.owner, takenAt := s.time.now, lateDone := inp.lateDone }
  let req := hostFetch s h.pasid t.ctx h.reqAddr h.reqLen inp.req
  let auth := hostFetch s h.pasid t.ctx h.authRef 256 inp.auth
  let s := modChan s c (fun m => { m with state := .taken, taken := some t })
  match earlyChecks s c h inl with
  | some st => failCmd s c st
  | none =>
    match (if h.reqByRef then fetchStatus req else none) with
    | some st => failCmd (logFetch s t.ctx h.reqAddr req) c st
    | none =>
      let t := if h.reqByRef then { t with req := (fetchBytes req).take h.reqLen } else t
      let s := modChan s c (fun m => { m with taken := some t })
      if h.reqByRef ∧ !countsAgree h.opcode t.req then failCmd s c .badLength
      else
        let useAuth := needsOwner h.opcode && h.authRef != 0
        match (if useAuth then fetchStatus auth else none) with
        | some st => failCmd (logFetch s t.ctx h.authRef auth) c st
        | none =>
          match stateChecks s c t with
          | some st => failCmd s c st
          | none =>
            if !needsOwner h.opcode then s
            else if h.authRef = 0 then if isOpen s t.ctx then s else failCmd s c .deniedRole
            else if authPasses s t inp (fetchBytes auth) then
              modPart s t.ctx (fun p => { p with ownerCounter := leAt (fetchBytes auth) 8 8 })
            else failCmd s c .deniedRole

/-- The taking of a management command: the same checks, with R85 and 18 R516 in place of the queue checks. -/
def takeMgmt (s : State) (c : Nat) (late : Bool) : State :=
  let m := chanOf s c
  let t0 := m.taken.getD {}
  let t := { t0 with ctx := (mgmtCtx s t0.hdr.mgmtContext).getD 0, mgmt := true, takenAt := s.time.now, lateDone := late }
  let s := modChan s c (fun m => { m with state := .taken, taken := some t })
  match earlyChecks s c t.hdr (some t.req) with
  | some st => failCmd s c st
  | none =>
    if t.req.length ≠ t.hdr.reqLen then failCmd s c .badLength
    else match stateChecks s c t with
      | some st => failCmd s c st
      | none => s

/-- The boot ROM takes mailbox 0: it needs no HELLO and accepts FW_STAGE by reference only (16 R446). -/
def takeBoot (s : State) (inp : TakeInput) : State :=
  let m := chanOf s 0
  if m.state ≠ .posted then s
  else
    let h := hdrOf (areaBytes m.req 0 64)
    let t : Taken := { hdr := h, req := [], ctx := 0, takenAt := s.time.now }
    let s := modChan s 0 (fun m => { m with state := .taken, taken := some t })
    if h.opcode ≠ opFwStage then failCmd s 0 .unknownOpcode
    else if !h.rsvdZero ∨ !h.reqByRef then failCmd s 0 .badField
    else if h.reqLen > 2 ^ 28 then failCmd s 0 .badLength
    else match fetchStatus inp.req with
      | some st => failCmd (logFetch s 0 h.reqAddr inp.req) 0 st
      | none =>
        let b := (fetchBytes inp.req).take h.reqLen
        if !countsAgree opFwStage b then failCmd s 0 .badLength
        else modChan s 0 (fun m => { m with taken := some { t with req := b } })

/-- Taking the command of a mailbox reads host memory. -/
def fetches (s : State) (c : Nat) : Bool :=
  let h := hdrOf (areaBytes (chanOf s c).req 0 64)
  h.reqByRef || h.authRef != 0

/-- CP_TAKE_MAILBOX (03 R67): at most 8 commands are TAKEN; FW_ACTIVATE stops the taking (R89); a CP that sleeps takes
nothing (18 R501). -/
def execCpTakeMailbox (inp : TakeInput) (s : State) : Host.Outcome State Fault Refusal :=
  if bootServes s then .next (if hostSilent s then s else takeBoot s inp)
  else if !isReady s || !domainOn s 101 || s.cp.stopTaking || 8 ≤ takenCount s then .next s
  else if inp.mgmt then
    match nextMgmt s with
    | none => .next s
    | some c => .next (takeMgmt s c inp.lateDone)
  else
    match nextPosted s with
    | none => .next s
    | some c => .next (if hostSilent s && fetches s c then s else takeHost { s with cp := { s.cp with lastTaken := c } } c inp)

/-! ### Response payloads (03 R62, R63) -/

/-- The capacity of a response. -/
def respCapacity (t : Taken) : Nat := min t.hdr.respCap (if t.hdr.respByRef || t.mgmt then 2 ^ 20 else 768)

/-- Complete a query with a response payload: one that does not fit is not written, and a failed write by reference costs
the payload only. -/
def respondQuery (s : State) (c : Nat) (t : Taken) (result : Nat) (resp : Bytes) (wb : WriteBack) : State :=
  if respCapacity t < resp.length then failCmd s c .responseTooSmall resp.length
  else if t.hdr.respByRef ∧ !t.mgmt then
    if wb = .failed ∨ !hostRangeOk s t.hdr.pasid t.ctx t.hdr.respAddr resp.length then complete s c .payloadFault 0 result
    else complete (emit s (.response t.hdr.pasid t.hdr.respAddr resp)) c .ok 0 result
  else complete s c .ok 0 result resp

/-! ### Doorbells (03 R64–R66, Table 3-3) -/

/-- One more ignored doorbell write (03 R65). -/
def ignoreDoorbell (s : State) (m : Nat) : State := modChan s m (fun b => { b with ignored := satInc 16 b.ignored })

/-- A write of `action` to MB_DOORBELL[m]. -/
def doorbell (s : State) (m action : Nat) : State :=
  if 64 ≤ m || !hostReaches s then s
  else
    let b := chanOf s m
    let s' :=
      if action = 0x01 ∧ b.state = .free then modChan s m (fun b => { b with state := .posted })
      else if action = 0x02 ∧ b.state = .posted then
        let t : Taken := { hdr := hdrOf (areaBytes b.req 0 64), ctx := b.owner }
        failCmd (modChan s m (fun b => { b with taken := some t })) m .aborted
      else if action = 0x02 ∧ b.state = .taken then modChan s m (fun b => { b with abortRequested := true })
      else if action = 0x03 ∧ b.state = .done then
        modChan s m (fun b => { b with state := .free, window := none, resp := [] })
      else ignoreDoorbell s m
    if action = 0x01 ∨ action = 0x02 then wakeCp s' 2 else s'

/-! ### HELLO (03 R81, R82) -/

/-- The (major, minor) pairs a HELLO offers. -/
def helloPairs (b : Bytes) : List (Nat × Nat) :=
  (List.range (leAt b 0 1)).map (fun i => (bbits b (40 + 16 * i) 4, bbits b (32 + 16 * i) 8))

/-- Reserved bits of the offered pairs and of the request are zero, and COUNT is 1–3. -/
def helloWellFormed (b : Bytes) : Bool :=
  1 ≤ leAt b 0 1 && leAt b 0 1 ≤ 3 && bbits b 8 24 == 0 && bbits b 80 48 == 0
    && (List.range (leAt b 0 1)).all (fun i => bbits b (44 + 16 * i) 4 == 0)

/-- HELLO: command set 1.0 is the one this CP offers, so major 1 and minor 0 are selected. -/
def execHello (c : Nat) (s : State) : Host.Outcome State Fault Refusal :=
  .next (runCmd s c opHello (fun s t =>
    if !helloWellFormed t.req then failCmd s c .badField
    else if !(helloPairs t.req).any (fun p => p.1 == 1) then failCmd s c .versionMismatch (2 ^ 1)
    else
      let (s, n) := commit s
      let s := if isMgmt c then s
               else modChan s c (fun m => { m with session := true, sessionMajor := 1, sessionMinor := 0, ignored := 0 })
      let boxes := ((List.range 64).filter (fun m => (chanOf s m).owner == t.ctx)).length
      let free := 512 - (s.cp.eqs.filter (fun e => e.2.state != .none)).length
      let res := field 1 0 4 + field 0 8 8 + field s.boot.fw.version 16 32 + field (ctxField t.ctx) 48 8
        + field boxes 56 8 + field (2 ^ 20) 64 32 + field free 96 10
      complete s c .ok n res))

/-! ### Event queues (03 R72–R78) -/

/-- Send the message of vector `v`: masked, its pending bit is set instead (03 R76, R77). -/
def sendVector (s : State) (v : Nat) : State :=
  let e := tget s.cp.msix v {}
  if e.masked || hostSilent s then { s with cp := { s.cp with msix := tset s.cp.msix v { e with pendingBit := true } } }
  else emit s (.msix v e.addr e.data)

/-- Send queue `q`'s message: ARM clears, and the counts start afresh (03 R76). -/
def sendEqVector (s : State) (q : Nat) : State :=
  sendVector (modEq s q (fun e => { e with arm := false, sinceMsg := 0 })) (eqOf s q).vector

/-- Write a record into the next slot (03 R69, R74), and send the message when the coalescing rule asks for it (R76). -/
def writeSlot (s : State) (q : Nat) (r : Record) : State :=
  let e := eqOf s q
  let r := { r with recordSeq := e.producer % 2 ^ 31 }
  let s := emit s (.record q (e.producer % 2 ^ e.log2Size) r)
  let s := modEq s q (fun e => { e with
    producer := (e.producer + 1) % 2 ^ 32
    firstUnsignalled := if e.sinceMsg = 0 then s.time.now else e.firstUnsignalled
    sinceMsg := e.sinceMsg + 1 })
  let e := eqOf s q
  if e.arm ∧ (e.coalesceCount ≤ e.sinceMsg ∨ e.coalesceUs = 0) then sendEqVector s q else s

/-- A queue write fails translation: the queue enters ERROR, its completions go to the default queue of its context, and
EQ_ERROR goes to the device context's default queue unless that is the failing queue (03 R72, R75). -/
def failQueue (s : State) (q : Nat) : State :=
  let w := (eqOf s q).waiting
  let s := modEq s q (fun e => { e with state := .error, waiting := [] })
  let s := if defaultQueue s 0 = some q then s
           else raiseTo s 0 .eqError (source ucCp 0) (fun _ => field q 64 9)
  forEach w s (fun s r => if r.kind = .event then countUnqueued s else deliver s q r)

/-- The slot that a queue's next record goes to can be translated (03 R72). -/
def slotReachable (s : State) (e : EventQueue) : Bool :=
  hostRangeOk s e.pasid e.owner (e.base + e.producer % 2 ^ e.log2Size * 64) 64

/-- EQ_RECORD_WRITE (03 R69, R75): the hub writes what stands first for queue `q`; `ok` says whether the walkers find the ring
address in the host's tables. -/
def execEqRecordWrite (q : Nat) (ok : Bool) (s : State) : Host.Outcome State Fault Refusal :=
  let e := eqOf s q
  let ok := ok && slotReachable s e
  if e.state ≠ .active || s.boot.stopped || hostSilent s then .next s
  else if 0 < e.dropped ∧ !eqFull e then
    if ok then
      let r := eventRecord s e.owner (seenTime s e.owner) .eqOverflow (source ucCp 0) (fun _ => field e.dropped 64 16)
      .next (writeSlot (modEq s q (fun e => { e with dropped := 0 })) q r)
    else .next (failQueue s q)
  else
    match e.waiting with
    | [] => .next s
    | r :: rest =>
      if eqFull e then
        if r.kind = .event then
          .next (modEq s q (fun e => { e with waiting := rest, dropped := satInc 16 e.dropped }))
        else .next s
      else if ok then .next (writeSlot (modEq s q (fun e => { e with waiting := rest })) q r)
      else .next (failQueue s q)

/-- A write of EQ_CONSUMER[q]: INDEX never passes the producer or goes back, and ARM takes effect all the same (03 R73, R76). -/
def consumerWrite (s : State) (q index : Nat) (arm : Bool) : State :=
  if 512 ≤ q || !hostReaches s then s
  else
    let e := eqOf s q
    let moves := idxDiff (index % 2 ^ 32) e.consumer ≤ idxDiff e.producer e.consumer
    let s := if moves then modEq s q (fun e => { e with consumer := index % 2 ^ 32 }) else s
    if !arm then s
    else
      let s := modEq s q (fun e => { e with arm := true })
      let e := eqOf s q
      if e.state ≠ .none ∧ e.producer ≠ e.consumer then (sendEqVector s q)
      else (modEq s q (fun e => { e with sinceMsg := 0 }))

/-- EQ_COALESCE_TIMER (03 R76): the coalescing time of queue `q` has passed since the first record not signalled. -/
def execEqCoalesceTimer (q : Nat) (s : State) : Host.Outcome State Fault Refusal :=
  let e := eqOf s q
  if e.state ≠ .none ∧ e.arm ∧ 0 < e.sinceMsg ∧ !s.boot.stopped then .next (sendEqVector s q) else .next s

/-- MSIX_TABLE_WRITE (03 R77): a 32-bit write to word 0–3 of a vector's entry (address low and high, data, vector
control whose bit 0 masks); an unmask sends a pending message. -/
def msixWrite (s : State) (v word value : Nat) : State :=
  if 2048 ≤ v || 4 ≤ word || !hostReaches s then s
  else
    let e := tget s.cp.msix v {}
    let x := value % 2 ^ 32
    let e' : MsixVector :=
      if word = 0 then { e with addr := e.addr / 2 ^ 32 * 2 ^ 32 + x }
      else if word = 1 then { e with addr := e.addr % 2 ^ 32 + x * 2 ^ 32 }
      else if word = 2 then { e with data := x }
      else { e with masked := bitAt x 0, ctrlRest := x / 2 }
    let send := e'.pendingBit && !e'.masked && !hostSilent s
    let s := { s with cp := { s.cp with msix := tset s.cp.msix v { e' with pendingBit := e'.pendingBit && !send } } }
    if send then emit s (.msix v e'.addr e'.data) else s

/-! ### Register writes of the host, in order (00 R10; 03 R60; 08 R239) -/

/-- A write into the request area of a mailbox: 32 or 64 bits, aligned, while it is FREE (03 R60). -/
def mailboxWrite (s : State) (m o n value : Nat) : State :=
  if (n ≠ 4 ∧ n ≠ 8) ∨ o % n ≠ 0 ∨ (chanOf s m).state ≠ .free then s
  else modChan s m (fun b => { b with
    req := (leBytes n value).zipIdx.foldl (fun t (x : Byte × Nat) => if x.1 = 0 then tdel t (o + x.2) else tset t (o + x.2) x.1) b.req })

/-- A write of `n` bytes by the host.  What it does not own is discarded. -/
def hostWrite (s : State) (o n value : Nat) : State :=
  let within := fun (base size : Nat) => base ≤ o && o < base + size
  let m := (o - 0x0100000) / 0x1000
  let q := (o - 0x0200000) / 0x40
  if within 0x0100000 0x40000 then
    if o % 0x1000 < 0xC00 then mailboxWrite s m (o % 0x1000) n value
    else if o % 0x1000 = 0xF48 ∧ n = 8 then doorbell s m (value % 256)
    else s
  else if within 0x0200000 0x8000 then
    if o % 0x40 = 0 ∧ n = 8 then consumerWrite s q (value % 2 ^ 32) (bitAt value 32) else s
  else if within 0x0300000 0x8000 then
    let v := (o - 0x0300000) / 16
    let w := o % 16 / 4
    if n = 4 ∧ o % 4 = 0 then msixWrite s v w (value % 2 ^ 32)
    else if n = 8 ∧ o % 8 = 0 then msixWrite (msixWrite s v w (value % 2 ^ 32)) v (w + 1) (value / 2 ^ 32)
    else s
  else s

/-- Posted writes through BAR2 that are not at home yet. -/
def hostWritesOut (s : State) : Bool := s.mem.txns.any (fun e => e.2.client == .hostWrite)

/-- The offset of MB_DOORBELL[m], and whether an offset is one. -/
def doorbellOffset (m : Nat) : Nat := 0x0100F48 + m * 0x1000
def isDoorbell (o : Nat) : Bool := 0x0100000 ≤ o && o < 0x0140000 && o % 0x1000 == 0xF48

/-- A register write of the host: a doorbell has its effect once the posted writes through BAR2 before it are at home, and
the writes after it keep their order behind it. -/
def postWrite (s : State) (o n value : Nat) (now : State → State) : State :=
  if !s.mem.heldDoorbells.isEmpty || (isDoorbell o && hostWritesOut s) then
    { s with mem := { s.mem with heldDoorbells := s.mem.heldDoorbells ++ [(o, n, value)] } }
  else now s

/-- Once the posted writes are at home, the register writes that waited for them have their effects. -/
def releaseHeld (s : State) : State :=
  if hostWritesOut s then s
  else forEach s.mem.heldDoorbells { s with mem := { s.mem with heldDoorbells := [] } } (fun s w => hostWrite s w.1 w.2.1 w.2.2)

/-- DOORBELL_POST (03 R64). -/
def execDoorbellPost (m : Nat) (s : State) : Host.Outcome State Fault Refusal :=
  .next (postWrite s (doorbellOffset m) 8 0x01 (fun s => doorbell s m 0x01))

/-- DOORBELL_ABORT (03 R66). -/
def execDoorbellAbort (m : Nat) (s : State) : Host.Outcome State Fault Refusal :=
  .next (postWrite s (doorbellOffset m) 8 0x02 (fun s => doorbell s m 0x02))

/-- DOORBELL_RELEASE (03 R64). -/
def execDoorbellRelease (m : Nat) (s : State) : Host.Outcome State Fault Refusal :=
  .next (postWrite s (doorbellOffset m) 8 0x03 (fun s => doorbell s m 0x03))

/-- DOORBELL_IGNORED_ACTION (03 R65): a write whose action Table 3-3 does not list; one that it lists acts as listed. -/
def execDoorbellIgnoredAction (m action : Nat) (s : State) : Host.Outcome State Fault Refusal :=
  .next (postWrite s (doorbellOffset m) 8 (action % 256) (fun s => doorbell s m (action % 256)))

/-- EQ_CONSUMER_WRITE. -/
def execEqConsumerWrite (q index : Nat) (arm : Bool) (s : State) : Host.Outcome State Fault Refusal :=
  .next (postWrite s (0x0200000 + q * 0x40) 8 (index % 2 ^ 32 + field (b2n arm) 32 1) (fun s => consumerWrite s q index arm))

/-- MSIX_TABLE_WRITE. -/
def execMsixTableWrite (v word value : Nat) (s : State) : Host.Outcome State Fault Refusal :=
  .next (postWrite s (0x0300000 + v * 16 + word * 4) 4 (value % 2 ^ 32) (fun s => msixWrite s v word value))

/-- The own checks of EQ_CREATE (03 R78). -/
def eqCreateRefused (s : State) (t : Taken) : Option Status :=
  let b := t.req
  firstFail [
    (bbits b 0 12 != 0 || bbits b 84 4 != 0 || bbits b 93 3 != 0 || bbits b 107 5 != 0 || bbits b 120 8 != 0
      || bbits b 138 6 != 0 || bbits b 145 111 != 0 || bbits b 88 5 < 6 || 16 < bbits b 88 5 || 1000 < bbits b 128 10
      || !pasidBound s (bbits b 64 20) t.ctx, .badField),
    ((tfree (s.cp.eqs.filter (fun e => e.2.state != .none)) 0 512).isNone, .noResource)]

/-- EQ_CREATE (03 R72, R78, Table 3-12): the new queue takes the lowest free number. -/
def execEqCreate (c : Nat) (s : State) : Host.Outcome State Fault Refusal :=
  .next (runCmd s c opEqCreate (fun s t =>
    match eqCreateRefused s t with
    | some st => failCmd s c st
    | none =>
      let b := t.req
      let q := (tfree (s.cp.eqs.filter (fun e => e.2.state != .none)) 0 512).getD 0
      let dflt := bbits b 144 1 == 1
      let (s, n) := commit s
      let s := if dflt then
          { s with cp := { s.cp with eqs := tmap s.cp.eqs (fun _ e =>
              if e.owner = t.ctx then { e with isDefault := false } else e) } }
        else s
      let s := modEq s q (fun _ => {
        state := .active, base := bbits b 0 64, pasid := bbits b 64 20,
        log2Size := bbits b 88 5, vector := bbits b 96 11, coalesceCount := bbits b 112 8 + 1,
        coalesceUs := bbits b 128 10, isDefault := dflt, owner := t.ctx })
      complete s c .ok n q))

/-- EQ_DESTROY (03 R78): refused while the queue has users; from its commit nothing new is written to it. -/
def execEqDestroy (c : Nat) (s : State) : Host.Outcome State Fault Refusal :=
  .next (runCmd s c opEqDestroy (fun s t =>
    let q := bbits t.req 0 9
    let e := eqOf s q
    if bbits t.req 9 55 ≠ 0 ∨ e.state = .none ∨ e.owner ≠ t.ctx then failCmd s c .badField
    else if 0 < eqUsers s q then failCmd s c .badField (eqUsers s q)
    else
      let dst := match defaultQueue s t.ctx with
        | none => 512
        | some d => if d = q then 512 else d
      let s := modEq s q (fun _ => {})
      (accept s c t q dst).1))

/-- EQ_DESTROY_DRAINED (03 R78): the ring writes under way have landed, and the final record of the EQ_DESTROY with
this COMMIT_SEQ is written. -/
def execEqDestroyDrained (seq : Nat) (s : State) : Host.Outcome State Fault Refusal :=
  match asyncOf s seq with
  | some a => if a.opcode = opEqDestroy then .next (finalize s seq .ok 0) else .next s
  | none => .next s

end Sys2Proof.Machine
end

