-- ==== Sys2Proof/Machine/Trans.lean ====
section
/-! DEFINITION. Host address translation: bindings, lookups, walks, faults and their answers, invalidation (spec 11). -/
namespace Sys2Proof.Machine

def modTrans (s : State) (f : TransSt → TransSt) : State := { s with trans := f s.trans }
def bindingOf (s : State) (p : Nat) : Option Binding := tfind s.trans.bindings p

/-! ### Profiles (11 R290, Table 11-1) -/

/-- The profile that a MAP_HOST request spells. -/
def profileOf (b : Bytes) : Profile :=
  let f := fun lo w => bbits b lo w
  { levels := f 20 4, granule := f 24 5, bits := (List.range 6).map (fun l => f (32 + 4 * l) 4), leafLevels := f 56 6
    present := f 64 6, write := f 70 6, writePol := f 76 1 == 1, accessed := f 77 6, dirty := f 83 6, pageSize := f 89 6
    canonical := f 95 1 == 1, oaLo := f 96 6, oaHi := f 102 6, adMode := f 108 2, bigEndian := f 110 1 == 1
    hierWrite := f 111 1 == 1 }

/-- The profile is valid (11 R290). -/
def profileValid (s : State) (p : Profile) : Bool :=
  let outside := fun x => x < p.oaLo || p.oaHi < x
  let fixed := [p.present, p.write, p.pageSize]
  let ad := [p.accessed, p.dirty]
  1 ≤ p.levels && p.levels ≤ 6 && 12 ≤ p.granule && p.granule ≤ 21
    && (p.bits.take p.levels).all (fun w => 1 ≤ w && w ≤ 12) && (p.bits.drop p.levels).all (· == 0)
    && inputWidth p ≤ 64 && p.oaLo ≤ p.oaHi && p.oaHi ≤ 51 && p.oaLo ≤ p.granule
    && fixed.all outside && distinct fixed
    && (p.adMode == 2 || (ad.all outside && distinct (fixed ++ ad)))
    && p.adMode ≤ 2 && bitAt p.leafLevels (p.levels - 1) && p.leafLevels < 2 ^ p.levels
    && (p.adMode != 1 || s.boot.atomicEnable)

/-- S_L: the bits of an address below the index of level L (11 R292). -/
def levelShift (p : Profile) (l : Nat) : Nat := p.granule + sum ((p.bits.take p.levels).drop (l + 1))

/-- The address of an entry: table base plus index × 8. -/
def entryAddr (p : Profile) (base l a : Nat) : Nat := base + bits a (levelShift p l) (nth p.bits l 0) * 8

/-- The output field of an entry, in place, from bit `lo` up. -/
def outputField (p : Profile) (x lo : Nat) : Nat :=
  let lo := max lo p.oaLo
  if p.oaHi < lo then 0 else bits x lo (p.oaHi + 1 - lo) * 2 ^ lo

/-- An entry allows writes. -/
def entryWrites (p : Profile) (x : Nat) : Bool := bitAt x p.write != p.writePol

/-- An entry as a number, in the table's byte order; the operand is the number its bytes give little-endian. -/
def entryValue (p : Profile) (x : Nat) : Nat := if p.bigEndian then leNat (leBytes 8 x).reverse else x % 2 ^ 64

/-! ### Failures and events -/

/-- UNIT_CLASS and UNIT_INDEX of a requester (11 Table 11-6). -/
def askerUnit : Asker → Nat × Nat
  | .mover c _ => (ucMover, c)
  | .attic t _ => (ucAttic, t)
  | .chord e _ => (ucChord, e)

/-- SOURCE_CLASS (11 Table 11-3). -/
def askerClass : Asker → Nat
  | .mover _ _ => 1 | .attic _ _ => 2 | .chord _ _ => 3

/-- The TAG of the step that a mover's descriptor belongs to. -/
def askerTag (s : State) : Asker → Nat
  | .mover _ j => (tget s.larder.steps (j / 1024) {}).tag
  | .chord _ m => (tget s.larder.steps (m % 2 ^ 26 / 1024) {}).tag
  | .attic _ _ => 0

/-- A requester fails: its error record of CODE TRANSLATION, and the failure waits for it (11 R295). -/
def failRequester (s : State) (r : Requester) : State :=
  let (cls, idx) := askerUnit r.who
  let (s, i) := logError s { severity := .accessError, unitClass := cls, unitIndex := idx, code := ecTranslation,
                             partition := errPartition r.part, address := r.addr, stepTag := askerTag s r.who }
  modTrans s (fun t => { t with failures := t.failures ++ [(r, i)] })

def failRequesters (s : State) (l : List Requester) : State := forEach l s failRequester

/-- An event to a named queue: as to a default queue, it is dropped when the ring is full (11 R300, 03 R75). -/
def deliverEventTo (s : State) (q : Nat) (r : Record) : State :=
  let s := { s with cp := { s.cp with eventsRaised := satInc 32 s.cp.eventsRaised } }
  if (eqOf s q).state ≠ .active then countUnqueued s
  else if eqFull (eqOf s q) then modEq s q (fun e => { e with dropped := satInc 16 e.dropped })
  else modEq s q (fun e => { e with waiting := e.waiting ++ [r] })

/-- Raise HOST_FAULT for an entry (11 R300, Table 11-4). -/
def raiseHostFault (s : State) (i : Nat) (f : FaultEntry) (closed : Bool) : State :=
  let detail := field i 64 9 + field f.generation 80 16 + field f.pasid 96 20 + field f.access 116 2 + field f.reason 118 4
    + field (b2n closed) 122 1 + field (min 255 f.requesters.length) 128 8 + field f.sourceClass 136 4
    + field f.sourceIndex 140 12 + field f.level 152 3 + field f.address 192 64
  let cls := if f.sourceClass = 1 then ucMover else if f.sourceClass = 2 then ucAttic else ucChord
  let r := eventRecord s f.owner (seenTime s f.owner) .hostFault (source cls f.sourceIndex) (fun _ => detail)
  match (bindingOf s f.pasid).bind (·.faultEq) with
  | some q => deliverEventTo s q r
  | none => deliverEvent s f.owner r

/-- An entry has closed: requesters that waited for a free one look again when they are next issued. -/
def freeEntry (s : State) (i : Nat) : State :=
  modTrans s (fun t => { t with
    faults := tdel t.faults i, waiting := []
    walks := tmap t.walks (fun _ w => if w.entry = some i then { w with entry := none } else w) })

/-- Close an entry as INVALID, with a final HOST_FAULT. -/
def closeInvalid (s : State) (i : Nat) (f : FaultEntry) : State :=
  freeEntry (failRequesters (raiseHostFault s i f true) f.requesters) i

/-! ### Walks (11 R292–R297) -/

/-- Walks that a walker runs. -/
def walksActive (s : State) : Nat := (s.trans.walks.filter (fun e => e.2.begun)).length

/-- The deepest cached table base for an address; a write passes over entries that deny it (11 R297). -/
def cachedBase (s : State) (w : Walk) : Option PsEntry :=
  (s.trans.psCache.filter (fun e => e.pasid == w.pasid && e.addr ≤ w.addr && w.addr < e.addr + 2 ^ e.size
    && !(w.write && e.deny))).foldl (fun (b : Option PsEntry) e =>
      match b with
      | none => some e
      | some x => if x.level < e.level then some e else b) none

/-- Send the read of the entry that a walk needs next. -/
def sendWalkRead (s : State) (n : Nat) (w : Walk) : State :=
  match bindingOf s w.pasid with
  | none => s
  | some b => emit s (.walkRead n (entryAddr b.profile w.base w.level w.addr))

/-- A walker begins a walk, below what the paging-structure cache gives. -/
def beginWalk (s : State) (n : Nat) : State :=
  match tfind s.trans.walks n with
  | none => s
  | some w =>
    let root := match bindingOf s w.pasid with | some b => b.root | none => 0
    let w := match cachedBase s w with
      | some e => { w with level := e.level, base := e.base, leaf := none, deny := e.deny, begun := true }
      | none => { w with level := 0, base := root, leaf := none, deny := false, begun := true }
    sendWalkRead (modTrans s (fun t => { t with walks := tset t.walks n w })) n w

/-- While a walker is free, begin the walks that wait, oldest first. -/
def beginWaiting (s : State) : State :=
  forEach (tkeys (s.trans.walks.filter (fun e => !e.2.begun))) s (fun s n =>
    if walksActive s < 32 then beginWalk s n else s)

/-- Requesters of one page walk together, readers apart from writers (11 R301). -/
def startWalk (s : State) (pasid addr : Nat) (write : Bool) (rs : List Requester) (entry : Option Nat) : State :=
  let g := match bindingOf s pasid with | some b => b.profile.granule | none => 12
  match s.trans.walks.find? (fun e => e.2.pasid == pasid && e.2.write == write && e.2.addr / 2 ^ g == addr / 2 ^ g) with
  | some (n, w) => modTrans s (fun t => { t with walks := tset t.walks n {
      w with requesters := w.requesters ++ rs, entry := if w.entry.isSome then w.entry else entry } })
  | none =>
    let n := s.trans.nextWalk
    let w : Walk := { pasid := pasid, addr := addr, write := write, requesters := rs, entry := entry }
    beginWaiting (modTrans s (fun t => { t with nextWalk := n + 1, walks := tset t.walks n w }))

/-- A walk ends: its walker takes the next one.  A fault entry whose walks have all ended without a new fault is free. -/
def endWalk (s : State) (n : Nat) : State :=
  match tfind s.trans.walks n with
  | none => s
  | some w =>
    let s := modTrans s (fun t => { t with walks := tdel t.walks n })
    let s := match w.entry with
      | none => s
      | some i =>
        match tfind s.trans.faults i with
        | some f => if f.retrying ∧ !(s.trans.walks.any (fun e => e.2.entry == some i)) then freeEntry s i else s
        | none => s
    beginWaiting s

/-- Attach requesters to an entry: ACCESS becomes the OR of both. -/
def attach (f : FaultEntry) (rs : List Requester) : FaultEntry :=
  { f with requesters := f.requesters ++ rs
           access := rs.foldl (fun a r => setBit a (if r.write then 1 else 0)) f.access }

/-- Requesters fault: they attach to the open entry of their page, reopen the one whose SUCCESS they follow, or open a free
one; with none free they wait (11 R300, R303). -/
def openFault (s : State) (w : Walk) (reason : Nat) : State :=
  match bindingOf s w.pasid, w.requesters with
  | some b, r :: _ =>
    let g := b.profile.granule
    let same := fun (f : FaultEntry) => f.pasid == w.pasid && f.address / 2 ^ g == w.addr / 2 ^ g
    match s.trans.faults.find? (fun e => !e.2.retrying && same e.2) with
    | some (i, f) => modTrans s (fun t => { t with faults := tset t.faults i (attach f w.requesters) })
    | none =>
      let reopen := match w.entry with
        | none => none
        | some i => (tfind s.trans.faults i).bind (fun f => if f.retrying then some (i, f) else none)
      match reopen with
      | some (i, f) =>
        if 4 ≤ f.successes then
          closeInvalid s i (attach { f with reason := 5, level := w.level, requesters := [], retrying := false } w.requesters)
        else
          let f := attach { f with generation := (f.generation + 1) % 2 ^ 16, reason := reason, level := w.level
                                   retrying := false, requesters := [], access := 0 } w.requesters
          raiseHostFault (modTrans s (fun t => { t with faults := tset t.faults i f })) i f false
      | none =>
        match tfree s.trans.faults 0 512 with
        | some i =>
          let f : FaultEntry := attach {
            reason := reason, pasid := w.pasid, level := w.level, owner := b.ctx, address := r.addr, granule := g
            sourceClass := askerClass r.who, sourceIndex := (askerUnit r.who).2 } w.requesters
          raiseHostFault (modTrans s (fun t => { t with faults := tset t.faults i f })) i f false
        | none => modTrans s (fun t => { t with
            waiting := t.waiting ++ w.requesters.map (fun r => (w.pasid, r))
            faultWait := satAdd 16 t.faultWait w.requesters.length })
  | _, _ => s

/-- An output address inside the hub's own BAR0 or BAR2 range (08 R241). -/
def insideBars (s : State) (out : Nat) : Bool :=
  (0 < s.boot.bar0Base && s.boot.bar0Base ≤ out && out < s.boot.bar0Base + 0x4000000)
    || (30 ≤ s.boot.bar2Log2 && s.boot.bar2Base ≤ out && out < s.boot.bar2Base + 2 ^ s.boot.bar2Log2)

/-- Bytes of a page from an output address to the next of those ranges. -/
def beforeBars (s : State) (out left : Nat) : Nat :=
  [s.boot.bar0Base, s.boot.bar2Base].foldl (fun n b => if out < b ∧ insideBars s b then min n (b - out) else n) left

/-- Put a leaf into the cache of 16,384; the oldest goes when it is full. -/
def cacheLeaf (s : State) (l : Leaf) : State :=
  let rest := s.trans.leaves.filter (fun x => !(x.pasid == l.pasid && x.addr == l.addr && x.size == l.size))
  modTrans s (fun t => { t with leaves := (rest ++ [l]).drop (rest.length + 1 - 16384) })

/-- Put a non-leaf entry into the cache of 1,024. -/
def cachePs (s : State) (e : PsEntry) : State :=
  let rest := s.trans.psCache.filter (fun x => !(x.pasid == e.pasid && x.addr == e.addr && x.level == e.level))
  modTrans s (fun t => { t with psCache := (rest ++ [e]).drop (rest.length + 1 - 1024) })

/-- A walk succeeds with its leaf: the translation is cached, unless its output lies in the hub's own ranges. -/
def finishWalk (s : State) (n : Nat) (w : Walk) (b : Binding) (x : Nat) : State :=
  let sh := levelShift b.profile w.level
  let out := outputField b.profile x sh
  if insideBars s (out + w.addr % 2 ^ sh) then endWalk (failRequesters s w.requesters) n
  else
    let l : Leaf := { pasid := w.pasid, addr := w.addr / 2 ^ sh * 2 ^ sh, size := sh, out := out
                      write := entryWrites b.profile x && !w.deny
                      dirtyOk := b.profile.adMode == 2 || w.write || bitAt x b.profile.dirty }
    endWalk (cacheLeaf s l) n

/-- The update of ACCESSED and DIRTY that AD_MODE UPDATE makes (11 R294). -/
def adUpdate (p : Profile) (write : Bool) (x : Nat) : Nat :=
  let x' := setBit x p.accessed
  if write then setBit x' p.dirty else x'

/-- The leaf's checks, then its end (11 R293, R294). -/
def leafRead (s : State) (n : Nat) (w : Walk) (b : Binding) (x : Nat) : State :=
  let p := b.profile
  if w.write ∧ !entryWrites p x then endWalk (openFault s w 2) n
  else if p.adMode = 0 ∧ !bitAt x p.accessed then endWalk (openFault s w 3) n
  else if p.adMode = 0 ∧ w.write ∧ !bitAt x p.dirty then endWalk (openFault s w 4) n
  else if p.adMode = 1 ∧ adUpdate p w.write x ≠ x then
    let put := fun v => if p.bigEndian then leNat (leBytes 8 v).reverse else v
    emit (modTrans s (fun t => { t with walks := tset t.walks n { w with leaf := some x } }))
      (.walkCas n (entryAddr p w.base w.level w.addr) (put x) (put (adUpdate p w.write x)))
  else finishWalk s n w b x

/-- WALK_ENTRY_READ (11 R292, R293): the entry that a walk asked for has been read. -/
def execWalkEntryRead (walk : Nat) (r : EntryRead) (s : State) : Host.Outcome State Fault Refusal :=
  match tfind s.trans.walks walk with
  | none => .next s
  | some w =>
    if !w.begun ∨ w.leaf.isSome ∨ hostSilent s then .next s
    else
      match bindingOf s w.pasid with
      | none => .next (endWalk (failRequesters s w.requesters) walk)
      | some b =>
        match r with
        | .failed => .next (endWalk (failRequesters s w.requesters) walk)
        | .data raw =>
          let p := b.profile
          let x := entryValue p raw
          if !bitAt x p.present then .next (endWalk (openFault s w 1) walk)
          else if w.level + 1 = p.levels ∨ (bitAt p.leafLevels w.level ∧ bitAt x p.pageSize) then
            .next (leafRead s walk w b x)
          else
            let deny := p.hierWrite && !entryWrites p x
            let sh := levelShift p w.level
            let base := outputField p x 0
            let s := cachePs s { pasid := w.pasid, addr := w.addr / 2 ^ sh * 2 ^ sh, size := sh, level := w.level + 1
                                 base := base, deny := deny || w.deny }
            if deny ∧ w.write then .next (endWalk (openFault s w 2) walk)
            else
              let w := { w with level := w.level + 1, base := base, deny := deny || w.deny }
              .next (sendWalkRead (modTrans s (fun t => { t with walks := tset t.walks walk w })) walk w)

/-- AD_UPDATE_CAS_RETURN (11 R294): the swap on the leaf succeeded, or the walk is discarded and made again. -/
def execAdUpdateCasReturn (walk : Nat) (ok : Bool) (s : State) : Host.Outcome State Fault Refusal :=
  match tfind s.trans.walks walk with
  | none => .next s
  | some w =>
    match w.leaf, bindingOf s w.pasid with
    | some x, some b =>
      if ok then .next (finishWalk s walk w b (adUpdate b.profile w.write x)) else .next (beginWalk s walk)
    | _, _ => .next s

/-! ### Lookups -/

/-- What a lookup gives: an output address and the bytes to the end of its page; a wait; or a failure and its record. -/
inductive Lookup where
  | ok (out left : Nat)
  | wait
  | failed (ref : Nat)
  deriving DecidableEq, Repr, Inhabited

/-- The requester already waits for a walk or on a fault. -/
def stillWaits (s : State) (who : Asker) : Bool :=
  s.trans.walks.any (fun e => e.2.requesters.any (fun r => r.who == who))
    || s.trans.faults.any (fun e => e.2.requesters.any (fun r => r.who == who))
    || s.trans.waiting.any (fun e => e.2.who == who)

/-- The leaf of a list that serves an access. -/
def leafIn (l : List Leaf) (pasid addr : Nat) (write : Bool) : Option Leaf :=
  l.find? (fun l => l.pasid == pasid && l.addr ≤ addr && addr < l.addr + 2 ^ l.size && (!write || (l.write && l.dirtyOk)))

/-- The micro-cache that a requester looks in first. -/
def microOf : Asker → Nat
  | .mover c _ => c
  | .chord e _ => 64 + e
  | .attic _ _ => 76

/-- The cached leaf that serves a requester's access: its micro-cache's, else the shared cache's. -/
def leafFor (s : State) (who : Asker) (pasid addr : Nat) (write : Bool) : Option Leaf :=
  match leafIn (tget s.trans.micro (microOf who) []) pasid addr write with
  | some l => some l
  | none => leafIn s.trans.leaves pasid addr write

/-- A leaf that served a requester stands in its micro-cache of 32.  DESIGN CHOICE (11 R297 names no order): the oldest goes. -/
def noteMicro (s : State) (who : Asker) (l : Leaf) : State :=
  let m := (tget s.trans.micro (microOf who) []).filter (fun x => !(x.pasid == l.pasid && x.addr == l.addr && x.size == l.size)) ++ [l]
  modTrans s (fun t => { t with micro := tset t.micro (microOf who) (m.drop (m.length - 32)) })

/-- Look an address up for a requester of a context: the caches, else a walk (11 R291, R295, R297, R298). -/
def translate (s : State) (pasid ctx addr : Nat) (write : Bool) (who : Asker) : State × Lookup :=
  let r : Requester := { who := who, addr := addr, write := write, part := ctx }
  match s.trans.failures.find? (fun e => e.1.who == who) with
  | some (_, i) => (modTrans s (fun t => { t with failures := t.failures.filter (fun e => e.1.who != who) }), .failed i)
  | none =>
    if stillWaits s who || hostSilent s then (s, .wait)
    else
      let fail := fun (s : State) =>
        let s := failRequester s r
        let i := match s.trans.failures.find? (fun e => e.1.who == who) with | some (_, i) => i | none => 0
        (modTrans s (fun t => { t with failures := t.failures.filter (fun e => e.1.who != who) }), Lookup.failed i)
      match bindingOf s pasid with
      | none => fail s
      | some b =>
        if b.ctx ≠ ctx ∨ b.draining ∨ !canonicalOk b.profile addr then fail s
        else
          match leafFor s who pasid addr write with
          | some l =>
            let out := l.out + (addr - l.addr)
            if insideBars s out then fail s else (noteMicro s who l, .ok out (beforeBars s out (l.addr + 2 ^ l.size - addr)))
          | none =>
            let g := b.profile.granule
            match s.trans.faults.find? (fun e =>
                !e.2.retrying && e.2.pasid == pasid && e.2.address / 2 ^ g == addr / 2 ^ g) with
            | some (i, f) => (modTrans s (fun t => { t with faults := tset t.faults i (attach f [r]) }), .wait)
            | none => (startWalk s pasid addr write [r] none, .wait)

/-- A use granted a translation and still in flight: a write that has not landed (11 R307). -/
def grantUse (s : State) (who : Asker) (u : Use) : State × Nat :=
  let n := s.trans.nextUse
  let u := match leafFor s who u.pasid u.addr true with | some l => { u with size := l.size } | none => u
  (modTrans s (fun t => { t with nextUse := n + 1, uses := tset t.uses n u }), n)

/-- A use lands: the drains that wait for it go on. -/
def landUse (s : State) (n : Nat) : State :=
  modTrans s (fun t => { t with
    uses := tdel t.uses n, drains := tmap t.drains (fun _ d => { d with uses := d.uses.filter (· != n) }) })

/-- A stalled transfer leaves: an entry that every requester has left closes with its own REASON (11 R299, R304). -/
def detach (s : State) (who : Asker) : State :=
  let out := fun (l : List Requester) => l.filter (fun r => r.who != who)
  let s := modTrans s (fun t => { t with
    walks := tmap t.walks (fun _ w => { w with requesters := out w.requesters })
    waiting := t.waiting.filter (fun e => e.2.who != who)
    failures := t.failures.filter (fun e => e.1.who != who) })
  forEach s.trans.faults s (fun s e =>
    if !e.2.requesters.any (fun r => r.who == who) then s
    else
      let f : FaultEntry := { e.2 with requesters := out e.2.requesters }
      if f.requesters.isEmpty ∧ !f.retrying then freeEntry (raiseHostFault s e.1 f true) e.1
      else modTrans s (fun t => { t with faults := tset t.faults e.1 f }))

/-! ### MAP_HOST and FAULT_RESPOND -/

/-- The checks of MAP_HOST, in the order of 11 R290. -/
def mapHostRefused (s : State) (t : Taken) : Option Status :=
  let b := t.req
  let p := profileOf b
  let pasid := bbits b 0 20
  let noEq := bbits b 201 1 == 1
  let q := bbits b 192 9
  firstFail [
    (bbits b 29 3 != 0 || bbits b 62 2 != 0 || bbits b 112 16 != 0 || bbits b 202 6 != 0 || bbits b 218 38 != 0
      || 1000 < bbits b 208 10 || (noEq && q != 0), .badField),
    (!profileValid s p, .translationInvalid),
    (bbits b 128 64 % (8 * 2 ^ nth p.bits 0 0) != 0 || (bindingOf s pasid).isSome || (!noEq && !eqActive s q t.ctx),
      .badField),
    (4096 ≤ s.trans.bindings.length, .noResource)]

/-- MAP_HOST (11 R290, R291). -/
def execMapHost (c : Nat) (s : State) : Host.Outcome State Fault Refusal :=
  .next (runCmd s c opMapHost (fun s t =>
    finishSync s c (mapHostRefused s t) (fun s =>
      let b := t.req
      let ms := bbits b 208 10
      modTrans s (fun x => { x with bindings := tset x.bindings (bbits b 0 20) {
        profile := profileOf b, root := bbits b 128 64, timeout := if ms = 0 then 100 else ms, ctx := t.ctx
        faultEq := if bbits b 201 1 = 1 then none else some (bbits b 192 9) } }))
      (fun _ => 0)))

/-- Walk again for the requesters of an entry that SUCCESS closed: readers share one walk, writers another (11 R301). -/
def retryEntry (s : State) (i : Nat) (f : FaultEntry) : State :=
  let s := modTrans s (fun t => { t with faults := tset t.faults i {
    f with retrying := true, successes := f.successes + 1, requesters := [] } })
  let rd := f.requesters.filter (fun r => !r.write)
  let wr := f.requesters.filter (fun r => r.write)
  let s := if rd.isEmpty then s else startWalk s f.pasid (rd.headD {}).addr false rd (some i)
  let s := if wr.isEmpty then s else startWalk s f.pasid (wr.headD {}).addr true wr (some i)
  if rd.isEmpty ∧ wr.isEmpty then freeEntry s i else s

/-- FAULT_RESPOND (11 R301, R302). -/
def execFaultRespond (c : Nat) (s : State) : Host.Outcome State Fault Refusal :=
  .next (runCmd s c opFaultRespond (fun s t =>
    let b := t.req
    let i := bbits b 0 9
    let resp := bbits b 32 2
    if bbits b 9 7 ≠ 0 ∨ bbits b 34 30 ≠ 0 then failCmd s c .badField
    else if 1 < resp then failCmd s c .translationInvalid
    else
      match (tfind s.trans.faults i).bind (fun f => if f.retrying then none else some f) with
      | none => finishQuery s c 1
      | some f =>
        if f.owner ≠ t.ctx then failCmd s c .deniedPartition
        else if f.generation ≠ bbits b 16 16 then finishQuery s c 1
        else
          finishSync s c none (fun s =>
            if resp = 0 then retryEntry s i f else freeEntry (failRequesters s f.requesters) i) (fun _ => 0)))

/-- FAULT_TIMEOUT (11 R304): the entry has stayed open for FAULT_TIMEOUT without a valid response. -/
def execFaultTimeout (entry : Nat) (s : State) : Host.Outcome State Fault Refusal :=
  match tfind s.trans.faults entry with
  | some f => .next (if f.retrying then s else closeInvalid s entry { f with reason := 6 })
  | none => .next s

/-! ### UNMAP_HOST (11 R305–R308) -/

/-- Two ranges overlap. -/
def overlaps (a n b m : Nat) : Bool := a < b + m && b < a + n

/-- The checks of UNMAP_HOST: the PASID, then the range. -/
def unmapRefused (s : State) (t : Taken) : Option Status :=
  let b := t.req
  let mode := bbits b 20 2
  match (bindingOf s (bbits b 0 20)).bind (fun x => if x.draining then none else some x) with
  | none => some .badField
  | some x =>
    let g := 2 ^ x.profile.granule
    firstFail [
      (bbits b 22 42 != 0, .badField),
      (x.ctx != t.ctx, .deniedPartition),
      (mode == 3
        || (mode == 0 && (bbits b 64 64 % g != 0 || bbits b 128 64 % g != 0 || bbits b 128 64 == 0)), .badField)]

/-- The output page that a use writes to. -/
def usePage (u : Use) : Nat := u.out / 2 ^ u.size * 2 ^ u.size

/-- Cached entries of a range go, and the uses in flight on it are found, with a flushing read behind each of their pages. -/
def beginDrain (s : State) (pasid lo n : Nat) : State × List Nat :=
  let s := modTrans s (fun x => { x with
    leaves := x.leaves.filter (fun l => !(l.pasid == pasid && overlaps l.addr (2 ^ l.size) lo n))
    micro := tmap x.micro (fun _ m => m.filter (fun l => !(l.pasid == pasid && overlaps l.addr (2 ^ l.size) lo n)))
    psCache := x.psCache.filter (fun e => !(e.pasid == pasid && overlaps e.addr (2 ^ e.size) lo n)) })
  let mine := s.trans.uses.filter (fun e => e.2.pasid == pasid && overlaps e.2.addr e.2.bytes lo n)
  let pages := (mine.map (fun (e : Nat × Use) => usePage e.2)).eraseDups
  (forEach pages s (fun s p => emit s (.flushRead p)), mine.map (·.1))

/-- UNBIND of a PASID, drained under the number `seq`: its entries close and its waiting requesters fail (R306). -/
def beginUnbind (s : State) (seq pasid : Nat) : State :=
  let (s, uses) := beginDrain s pasid 0 (2 ^ 64)
  let s := modTrans s (fun x => { x with bindings := tmodIf x.bindings pasid (fun y => { y with draining := true }) })
  let mine := s.trans.faults.filter (fun e => e.2.pasid == pasid && !e.2.retrying)
  let s := forEach mine s (fun s e => closeInvalid s e.1 e.2)
  let late := (s.trans.waiting.filter (fun e => e.1 == pasid)).map (·.2)
  let s := failRequesters (modTrans s (fun x => { x with waiting := x.waiting.filter (fun e => e.1 != pasid) })) late
  let s := forEach (s.trans.walks.filter (fun e => e.2.pasid == pasid)) s (fun s e =>
    endWalk (failRequesters s e.2.requesters) e.1)
  modTrans s (fun x => { x with drains := tset x.drains seq {
    pasid := pasid, uses := uses, drained := uses.length, faultsClosed := mine.length, unbind := true } })

/-- UNMAP_HOST: at its commit cached entries of the range go, walks begin again, and the uses in flight are drained; under
UNBIND the PASID's entries close and its waiting requesters fail. -/
def execUnmapHost (c : Nat) (s : State) : Host.Outcome State Fault Refusal :=
  .next (runCmd s c opUnmapHost (fun s t =>
    match unmapRefused s t with
    | some st => failCmd s c st
    | none =>
      let b := t.req
      let pasid := bbits b 0 20
      let mode := bbits b 20 2
      let lo := if mode = 0 then bbits b 64 64 else 0
      let n := if mode = 0 then bbits b 128 64 else 2 ^ 64
      let (s, seq) := accept s c t pasid mode
      if mode = 2 then beginUnbind s seq pasid
      else
        let (s, uses) := beginDrain s pasid lo n
        let s := forEach (s.trans.walks.filter (fun e => e.2.pasid == pasid && e.2.begun)) s
          (fun s e => beginWalk s e.1)
        modTrans s (fun x => { x with drains := tset x.drains seq { pasid := pasid, uses := uses, drained := uses.length } })))

/-- UNMAP_FLUSH_READ_DONE (11 R307): the flushing read behind a write has completed; the writes to its page have landed. -/
def execUnmapFlushReadDone (use : Nat) (s : State) : Host.Outcome State Fault Refusal :=
  match tfind s.trans.uses use with
  | none => .next s
  | some u =>
    let page := (s.trans.uses.filter (fun e => e.2.pasid == u.pasid && usePage e.2 == usePage u)).map (·.1)
    .next (forEach page s landUse)

/-- UNMAP_HOST_DRAINED (11 R307): every use has landed; the final record is written, and under UNBIND the slot is freed. -/
def execUnmapHostDrained (seq : Nat) (s : State) : Host.Outcome State Fault Refusal :=
  match tfind s.trans.drains seq with
  | none => .next s
  | some d =>
    if !d.uses.isEmpty then .next s
    else
      let s := modTrans s (fun t => { t with
        drains := tdel t.drains seq, bindings := if d.unbind then tdel t.bindings d.pasid else t.bindings })
      .next (finalize s seq .ok (field d.drained 0 32 + field d.faultsClosed 32 32))

end Sys2Proof.Machine
end

