-- ==== Sys2Proof/Machine/Stop.lean ====
section
/-! DEFINITION. The failing and the stopping of a step: its cores, its movers' waiting descriptors, its parts on attic
dies and on peers (spec 02 R37, R41; 04 R119; 09 R264–R265; 12 R324). -/
namespace Sys2Proof.Machine

def stepOf (s : State) (slot : Nat) : Option Step := tfind s.larder.steps slot
def modStep (s : State) (slot : Nat) (f : Step → Step) : State :=
  { s with larder := { s.larder with steps := tmodIf s.larder.steps slot f } }

/-- The cores that hold a step. -/
def coresOfStep (s : State) (slot : Nat) : List Nat :=
  tkeys (s.cells.cores.filter (fun e => e.2.step == some slot))

/-- Threads of these cores leave the pegs they wait on. -/
def leavePegs (s : State) (cores : List Nat) : State :=
  { s with cells := { s.cells with pegs := tmap s.cells.pegs (fun _ p =>
      { p with waiters := p.waiters.filter (fun w => w.attic.isSome || !cores.contains w.core) }) } }

/-- The cores of a step stop issuing for good: the results of loads already issued are discarded (02 R37). -/
def stopCores (s : State) (slot : Nat) : State :=
  let l := coresOfStep s slot
  forEach l (leavePegs s l) (fun s k => modCore s k (fun c => { c with stopped := true, loads := [] }))

/-- The number of a mover's descriptor. -/
def jobId (j : MoverJob) : Nat := j.step * 1024 + j.part

/-- A Chord operation's descriptor as the requester of its home engine's translations (14 R400). -/
def chordAsker (engine c id : Nat) : Asker := .chord engine (c * 2 ^ 26 + id)

/-- A descriptor leaves every fault entry and walk it waits for. -/
def detachJob (s : State) (c id : Nat) : State :=
  forEach (List.range 12) (detach s (.mover c id)) (fun s e => detach s (chordAsker e c id))

/-- Mover descriptors of a step that have not started are discarded; one that is stalled on a fault leaves its entry and
ends (02 R41, 11 R299). -/
def dropJobs (s : State) (slot : Nat) : State :=
  let gone := fun (j : MoverJob) => j.step == slot && (!j.started || j.stalled)
  let s := forEach s.larder.movers s (fun s e =>
    forEach (e.2.filter gone) s (fun s j => detachJob s e.1 (jobId j)))
  { s with larder := { s.larder with movers := tmap s.larder.movers (fun _ l => l.filter (fun j => !gone j)) } }

/-- The value of an overrun policy (02 Table 2-5). -/
def policyValue : OverrunPolicy → Nat
  | .cont => 0 | .preemptAtNext => 1 | .abort => 2

/-- Parts of a step that run on attic dies: (site, part index). -/
def atticParts (s : State) (slot : Nat) : List (Nat × AtticPart) :=
  s.attic.sites.flatMap (fun e => (e.2.parts.filter (fun p => p.step == slot)).map (fun p => (e.1, p)))

/-- Tell the dies that run parts of a step to stop: STEP_BUDGET with the policy, or STEP_CANCEL (12 R324). -/
def stopAttic (s : State) (slot : Nat) (cancel : Bool) (policy : OverrunPolicy) : State :=
  forEach (atticParts s slot) s (fun s e =>
    if e.2.stopping then s
    else
      let s := modSite s e.1 (fun x => { x with parts := x.parts.map (fun p =>
        if p.step = slot ∧ p.part = e.2.part then { p with stopping := policy != .cont || cancel } else p) })
      sendAtp s e.1 (if cancel then { opcode := 0x52, txn := slot }
                     else { opcode := 0x51, txn := slot, len := 1, data := leBytes 32 (policyValue policy) }))

/-- Messages that carry the PEER parts of a step: (peer entry, MSG_ID). -/
def peerParts (s : State) (slot : Nat) : List (Nat × Nat) :=
  s.chord.peers.flatMap (fun e => (e.2.messages.filter (fun m =>
    match m.2.client with | .stepPart st _ => st == slot | _ => false)).map (fun m => (e.1, m.1)))

/-- Ask the peers that run parts of a step to cancel them (09 R265). -/
def cancelPeers (s : State) (slot : Nat) : State :=
  forEach (peerParts s slot) s (fun s e => sendReply s e.1 ptStepCancel e.2 0 e.2 [] (fun _ => false))

/-- Parts that have not started, and parts saved on a die, are discarded. -/
def discardParts (s : State) (slot : Nat) (st : Step) : Step :=
  { st with parts := st.parts.zipIdx.map (fun (p : StepPart × Nat) =>
      let live := p.1.phase == .running && (3 < p.1.kind || s.larder.movers.any (fun e =>
        e.2.any (fun j => j.step == slot && j.part == p.2)))
      if live then p.1 else { p.1 with phase := .done }) }

/-- Stop a dispatched step for good: nothing more of it starts, and what runs ends.  `cancel` marks a stop under 09 R265 or
R269 rather than the ABORT policy. -/
def stopStep (s : State) (slot : Nat) (code : Status) (cancel : Bool) : State :=
  match stepOf s slot with
  | none => s
  | some st =>
    if st.phase = .ending then s
    else
      let s := stopCores s slot
      let s := dropJobs s slot
      let s := modStep s slot (fun st => { discardParts s slot st with
        phase := .ending, stopCode := some code, saved := []
        flags := st.saved.foldl (fun f x => Nat.lor f x.control.flags) st.flags })
      let s := stopAttic s slot cancel .abort
      cancelPeers s slot

/-- The first failure of a step sets its CODE, and its first error record its ERROR_REF (09 R264, Table 9-11). -/
def setFailure (s : State) (slot : Nat) (code : Status) (ref : Nat) : State :=
  modStep s slot (fun st => { st with
    code := match st.code with | none => some code | some c => some c
    errorRef := if st.errorRef = 0 then ref else st.errorRef })

/-- A failure stops the step as under ABORT (04 R119, 02 R37). -/
def failStep (s : State) (slot : Nat) (code : Status) (ref : Nat) : State :=
  stopStep (setFailure s slot code ref) slot code false

/-- The step a core holds, and its TAG and partition. -/
def coreStep (s : State) (k : Nat) : Option (Nat × Step) :=
  match (coreOf s k).step with
  | none => none
  | some slot => (stepOf s slot).map (fun st => (slot, st))

/-- An error reaches a core: a record that carries the step's TAG, and the step stops with POISONED (04 R119, 17 R489). -/
def coreError (s : State) (k : Nat) (code addr : Nat) : State :=
  match coreStep s k with
  | none => s
  | some (slot, st) =>
    let (s, i) := logError s {
      severity := if code = ecPoisonConsumed then .poisonConsumed else .accessError
      unitClass := ucCore, unitIndex := k, code := code, partition := errPartition st.part, address := addr
      stepTag := st.tag, cellarEpoch := (cellarOf s (k / 64)).epoch }
    failStep s slot .poisoned i

/-- A matrix region is broken: no further matrix instruction runs, and the step stops (04 R118). -/
def breakRegion (s : State) (k g : Nat) : State :=
  match coreStep s k with
  | none => s
  | some (slot, _) =>
    let (n, s) := takeFresh s
    let s := modCore s k (fun c => { c with
      groups := tmodIf c.groups g (fun x => { x with region := none })
      tileOwner := if c.tileOwner = some g then none else c.tileOwner
      regionQueue := c.regionQueue.filter (· != g)
      tile := { c.tile with elems := (List.range 4096).map (fun i => (i, Config.random (n + i) % 2 ^ 128)) } })
    let s := { s with fresh := s.fresh + 4096 }
    failStep s slot .matrixRegionBroken 0

end Sys2Proof.Machine
end

