-- ==== Sys2Proof/Machine/Threads.lean ====
section
/-! DEFINITION. Threads and groups: registers, predicates, the subset an instruction issues to, program counters, joins,
gathering, matrix regions' ranges, and releases before ordered operations (spec 04 R92–R101, R111, R116–R118). -/
namespace Sys2Proof.Machine

/-! ### Groups and their registers -/

def groupOf (s : State) (k g : Nat) : Option Group := tfind (coreOf s k).groups g
def modGroup (s : State) (k g : Nat) (f : Group → Group) : State :=
  modCore s k (fun c => { c with groups := tmodIf c.groups g f })

/-- VZ reads as zero (04, Registers). -/
def vz := 255

def regRead (g : Group) (r t : Nat) : Nat := if r = vz then 0 else tget g.regs (r * 64 + t) 0
def regWrite (g : Group) (r t v : Nat) : Group :=
  if r = vz then g else { g with regs := tset g.regs (r * 64 + t) (v % 2 ^ 32) }

/-- A pair holds its low 32 bits in n and its high in n + 1. -/
def pairRead (g : Group) (r t : Nat) : Nat := if r = vz then 0 else regRead g r t + regRead g (r + 1) t * 2 ^ 32
def pairWrite (g : Group) (r t v : Nat) : Group :=
  if r = vz then g else regWrite (regWrite g r t v) (r + 1) t (v / 2 ^ 32)

/-- A register or a pair, by width. -/
def wideRead (g : Group) (wide : Bool) (r t : Nat) : Nat := if wide then pairRead g r t else regRead g r t
def wideWrite (g : Group) (wide : Bool) (r t v : Nat) : Group := if wide then pairWrite g r t v else regWrite g r t v

/-- PT is always true. -/
def pt := 7
def predRead (g : Group) (p t : Nat) : Bool := if p = pt then true else bitAt (tget g.preds p 0) t
def predWrite (g : Group) (p t : Nat) (v : Bool) : Group :=
  if p = pt then g
  else { g with preds := tset g.preds p (if v then setBit (tget g.preds p 0) t else clearBit (tget g.preds p 0) t) }

def threadPc (g : Group) (t : Nat) : Nat := tget g.pcs t g.entry

/-- Threads that have not exited. -/
def liveThreads (g : Group) : List Nat := (List.range 64).filter (fun t => !bitAt g.exited t)

/-! ### Which registers an instruction may name (04 R95) -/

/-- The register count that the core's kernel declares; 255 for no kernel. -/
def declaredRegs (s : State) (k : Nat) : Nat :=
  match coreStep s k with
  | none => 255
  | some (_, st) => (nth (tget s.part.images st.image {}).kernels st.kernel (255, 0, 0)).1

/-- Single registers below the count, or VZ. -/
def regsOk (n : Nat) (l : List Nat) : Bool := l.all (fun r => r == vz || r < n)

/-- Pairs: an even first register, or VZ. -/
def pairsOk (n : Nat) (l : List Nat) : Bool := l.all (fun r => r == vz || (r % 2 == 0 && r + 1 < n))

/-- The registers of a pair. -/
def pairRegs (r : Nat) : List Nat := if r = vz then [vz] else [r, r + 1]
def wideRegs (wide : Bool) (r : Nat) : List Nat := if wide then pairRegs r else [r]

/-! ### Issue (04 R92, R93, R96, R98) -/

/-- What an access waits for while an acquiring load or atomic of its thread is in flight (04 R111): no register's number. -/
def acquireReg := 256

/-- What a peg operation that orders earlier accesses waits for while a load of its thread is in flight (04 R109). -/
def loadReg := 257

/-- The registers that a load or atomic in flight will write, and the orders it holds. -/
def loadRegs (r : LoadRec) : List Nat :=
  (if !r.ret then [] else (List.range (max 1 (r.bytes / 4))).map (fun i => r.dst + i))
    ++ (if r.acquire.isSome then [acquireReg] else []) ++ [loadReg]

/-- The operands of thread `t` are not in flight. -/
def operandsReady (c : Core) (gi t : Nat) (regs preds : List Nat) : Bool :=
  !c.loads.any (fun e => e.2.group == gi && e.2.threads.any (fun x => x.1 == t)
    && ((loadRegs e.2).any (fun r => r != vz && regs.contains r) || (e.2.pdst != pt && preds.contains e.2.pdst)))

/-- The core may issue: it is up, holds a running step, and is neither stopped, saving nor in reset. -/
def coreIssues (s : State) (k : Nat) : Bool :=
  let c := coreOf s k
  coreUp s k && !c.stopped && !c.saving && !c.resetting && !s.boot.stopped
    && (match coreStep s k with | some (_, st) => st.phase == .running | none => false)

/-- The threads at a PC that can issue; `also` admits threads that wait there in a way the instruction itself resolves. -/
def subsetAt (c : Core) (gi : Nat) (g : Group) (pc : Nat) (regs preds : List Nat) (also : Wait → Bool) : List Nat :=
  (liveThreads g).filter (fun t => threadPc g t == pc
    && (match tfind g.waits t with | none => true | some w => also w) && operandsReady c gi t regs preds)

/-- A thread that is runnable whatever it issues next: it waits for nothing and no load of it is in flight. -/
def runnable (c : Core) (gi : Nat) (g : Group) (t : Nat) : Bool :=
  (tfind g.waits t).isNone && !c.loads.any (fun e => e.2.group == gi && e.2.threads.any (fun x => x.1 == t))

/-- The program counters of a group's other runnable subsets. -/
def otherSubsets (c : Core) (gi : Nat) (g : Group) (pc : Nat) : List Nat :=
  ((((liveThreads g).filter (runnable c gi g)).map (threadPc g)).filter (· != pc)).eraseDups

/-- The subset at `pc` may issue: no other has been passed over three times in a row (04 R96). -/
def inTurn (c : Core) (gi : Nat) (g : Group) (pc : Nat) : Bool :=
  (otherSubsets c gi g pc).all (fun q => tget g.passed q 0 < 3)

/-- The subset at `pc` issues: every other runnable subset has been passed over once more. -/
def passOver (c : Core) (gi : Nat) (g : Group) (pc : Nat) : Group :=
  { g with passed := (otherSubsets c gi g pc).foldl (fun t q => tset t q (tget g.passed q 0 + 1)) [] }

/-- A thread's guard. -/
def guardOn (g : Group) (i : Issue) (t : Nat) : Bool := predRead g i.pred t != i.pneg

/-- A thread leaves the range of its group's matrix region. -/
def leavesRegion (g : Group) (ts : List Nat) (pcOf : Nat → Nat) : Bool :=
  match g.region with
  | none => false
  | some r => ts.any (fun t => bitAt r.entry t && (pcOf t < r.first || r.last < pcOf t))

/-- Threads go on at new program counters; one of a region's entry mask that leaves its range breaks the region. -/
def moveThreads (s : State) (k gi : Nat) (ts : List Nat) (pcOf : Nat → Nat) : State :=
  match groupOf s k gi with
  | none => s
  | some g =>
    let broken := leavesRegion g ts pcOf
    let s := modGroup s k gi (fun g => { g with
      pcs := ts.foldl (fun m t => tset m t (pcOf t)) g.pcs
      waits := g.waits.filter (fun e => !ts.contains e.1) })
    if broken then breakRegion s k gi else s

/-- Threads go on at the next word. -/
def advance (s : State) (i : Issue) (ts : List Nat) : State := moveThreads s i.core i.group ts (fun _ => i.pc + 1)

/-- Threads begin to wait where they are. -/
def setWaits (s : State) (k gi : Nat) (ts : List Nat) (w : Nat → Wait) : State :=
  modGroup s k gi (fun g => { g with waits := ts.foldl (fun m t => tset m t (w t)) g.waits })

/-- One issue of an instruction: threads whose guard is false pass it by; the body acts for the active ones, and moves
them.  An issue that finds no thread leaves the state as it is, and so does one before its turn (04 R96): the scheduler makes
none. -/
def issue (s : State) (i : Issue) (regs preds : List Nat) (also : Wait → Bool) (body : State → Group → List Nat → State) :
    State :=
  match groupOf s i.core i.group with
  | none => s
  | some g =>
    let c := coreOf s i.core
    if !coreIssues s i.core ∨ !inTurn c i.group g i.pc then s
    else
      let all := subsetAt c i.group g i.pc regs (i.pred :: preds) also
      let act := all.filter (guardOn g i)
      let off := all.filter (fun t => !guardOn g i t)
      let s := if all.isEmpty then s else modGroup s i.core i.group (fun _ => passOver c i.group g i.pc)
      let s := if off.isEmpty then s else advance s i off
      if act.isEmpty then s
      else match groupOf s i.core i.group with
        | none => s
        | some g => body s g act

/-- No wait is resolved by the instruction itself. -/
def noWait (_ : Wait) : Bool := false

/-- A wait that the arrival of members resolves. -/
def gatherWait : Wait → Bool
  | .gather _ => true
  | _ => false

/-- A wait at MREGION.BEGIN. -/
def beginWait : Wait → Bool
  | .regionBegin _ => true
  | _ => false

/-- A wait at a matrix instruction or MREGION.END. -/
def matrixWait : Wait → Bool
  | .matrix => true
  | _ => false

/-- A plain instruction: `f` computes the group afterwards, thread by thread in lane order. -/
def plain (s : State) (i : Issue) (regs preds : List Nat) (f : State → Group → Nat → Group) : State :=
  issue s i regs preds noWait (fun s g act =>
    advance (modGroup s i.core i.group (fun _ => act.foldl (fun g t => f s g t) g)) i act)

/-- Fault of a form that IMAGE_LOAD refuses (04 R95). -/
def kernel (ok : Bool) (t : State) : Host.Outcome State Fault Refusal :=
  if ok then .next t else .fault .undefinedOperation

/-! ### Joins and exits (04 R97, R118) -/

/-- The threads that wait at JOIN of a slot. -/
def joinWaiters (g : Group) (slot : Nat) : List Nat :=
  (g.waits.filter (fun e => e.2 == .join slot)).map (·.1)

/-- When every recorded thread has reached JOIN or exited, the waiting threads continue and the slot empties. -/
def settleJoin (s : State) (k gi slot : Nat) : State :=
  match groupOf s k gi with
  | none => s
  | some g =>
    let rec_ := tget g.joins slot 0
    let w := joinWaiters g slot
    if rec_ ≠ 0 ∧ (maskBits rec_ 64).all (fun t => bitAt g.exited t || w.contains t) then
      let s := modGroup s k gi (fun g => { g with joins := tdel g.joins slot })
      moveThreads s k gi w (fun t => threadPc g t + 1)
    else s

/-! ### Gathering (04 R101) -/

/-- The members that a thread's mask names, itself alone when it is not among them; VZ names all 64. -/
def memberMask (g : Group) (sc t : Nat) : Nat :=
  let m := if sc = vz then 2 ^ 64 - 1 else pairRead g sc t
  if bitAt m t then m else 2 ^ t

/-- Every member that has not exited is among the arrived threads. -/
def gathered (g : Group) (mask : Nat) (arrived : List Nat) : Bool :=
  (maskBits mask 64).all (fun u => bitAt g.exited u || arrived.contains u)

/-- A gathering instruction: arrived threads wait until their members have arrived; those whose set is complete execute
together.  `f` gives the group after thread `t` with its members that have not exited executed, reading `g0`, the group as
it stood.  DESIGN CHOICE (04 R101 does not say whose mask rules when the members' masks differ): each thread waits for, and acts
with, the members of its own mask. -/
def gatherOp (s : State) (i : Issue) (regs preds : List Nat) (sc : Nat) (f : Group → Group → List Nat → Nat → Group) :
    State :=
  issue s i regs preds gatherWait (fun s g act =>
    let go := act.filter (fun t => gathered g (memberMask g sc t) act)
    let stay := act.filter (fun t => !gathered g (memberMask g sc t) act)
    let s := setWaits s i.core i.group stay (fun t => .gather (memberMask g sc t))
    let s := modGroup s i.core i.group (fun g1 => go.foldl (fun g1 t =>
      f g g1 ((maskBits (memberMask g sc t) 64).filter (fun u => !bitAt g.exited u)) t) g1)
    advance s i go)

/-! ### Releases before an ordered operation (04 R111, R112, 07 R200) -/

/-- A release of this group that home has acknowledged and whose instruction has not been issued again. -/
def doneRelease (c : Core) (gi : Nat) (act : List Nat) : Option (Nat × Release) :=
  c.releases.find? (fun e => e.2.done && e.2.group == gi && act.any (fun t => bitAt e.2.threads t))

/-- Writes and atomics of a cellar's master port that home has not acknowledged yet. -/
def unacked (s : State) (c : Nat) : List Nat :=
  (s.mem.txns.filter (fun e => e.2.master == c && e.2.phase != .done && (e.2.kind == .write || e.2.kind == .atomic))).map (·.1)

/-- Begin a release at DEVICE or SYSTEM scope; answers its number, or `none` when home owes no acknowledgement. -/
def beginRelease (s : State) (k gi : Nat) (act : List Nat) (sc : Scope) : State × Option Nat :=
  let id := s.cells.nextId
  let s := { s with cells := { s.cells with nextId := id + 1 } }
  let (s, _) := releaseHome s k (.writeBack k id)
  let l := unacked s (k / 64)
  if l.isEmpty then (s, none)
  else
    let r : Release := { core := k, group := gi, threads := maskOf act, scope := sc, txns := l }
    (modCore s k (fun c => { c with releases := tset c.releases id r }), some id)

/-- Run an operation after a release at its scope: at once where the release needs no acknowledgement of home; otherwise
the threads wait, and the instruction is issued again once home has acknowledged. -/
def released (s : State) (i : Issue) (act : List Nat) (sc : Option Scope) (op : State → List Nat → State) : State :=
  match sc with
  | none => op s act
  | some sc =>
    match doneRelease (coreOf s i.core) i.group act with
    | some (id, r) =>
      let s := modCore s i.core (fun c => { c with releases := tdel c.releases id })
      op s (act.filter (fun t => bitAt r.threads t))
    | none =>
      match sc with
      | .cellar => op (releaseCellar s i.core) act
      | .device | .system =>
        match beginRelease s i.core i.group act sc with
        | (s, none) => op s act
        | (s, some id) => setWaits s i.core i.group act (fun _ => .release id)
      | _ => op s act

/-- The scope of the release, and of the acquire, that an ORDER asks for. -/
def releaseScope (o : Order) (sc : Scope) : Option Scope :=
  match o with | .release => some sc | .acqRel => some sc | _ => none
def acquireScope (o : Order) (sc : Scope) : Option Scope :=
  match o with | .acquire => some sc | .acqRel => some sc | _ => none

/-- Acquire at an optional scope. -/
def acquireOpt (s : State) (k : Nat) (sc : Option Scope) : State :=
  match sc with | none => s | some sc => acquire' s k sc

/-- RELEASE_WRITEBACK_ACKED (07 R200): home has acknowledged every write-back of a release walk; the release completes, and
its threads may go on. -/
def execReleaseWritebackAcked (core release : Nat) (s : State) : Host.Outcome State Fault Refusal :=
  match tfind (coreOf s core).releases release with
  | none => .next s
  | some r =>
    if r.done ∨ r.txns.any (fun n => match txnOf s n with | some t => t.phase != .done | none => false) then .next s
    else
      let s := modCore s core (fun c => { c with releases := tset c.releases release { r with done := true } })
      .next (modGroup s core r.group (fun g => { g with waits := g.waits.filter (fun e => e.2 != .release release) }))

end Sys2Proof.Machine
end

