-- ==== Sys2Proof/Machine/Control.lean ====
section
/-! DEFINITION. The control, cross-lane and vote instructions (spec 04 Table 4-5, R97–R103). -/
namespace Sys2Proof.Machine

/-- A guard names p0–p6 or PT. -/
def guardOk (i : Issue) : Bool := i.pred < 8

/-! ### Control -/

/-- NOP. -/
def execNop (i : Issue) (s : State) : Host.Outcome State Fault Refusal :=
  kernel (guardOk i) (issue s i [] [] noWait (fun s _ act => advance s i act))

/-- A branch target; the spec gives no word below the start of the code, so a target there is a free value. -/
def branchTo (n base : Nat) (off : Int) : Nat :=
  if (base : Int) + off < 0 then Config.random n else ((base : Int) + off).toNat

/-- BRA: target = PC + OFFSET (04 Table 4-5). -/
def execBra (i : Issue) (offset : Int) (s : State) : Host.Outcome State Fault Refusal :=
  kernel (guardOk i) (issue s i [] [] noWait (fun s _ act =>
    let (n, s) := takeFresh s
    moveThreads s i.core i.group act (fun _ => branchTo n i.pc offset)))

/-- The words of the code that the core's kernel lies in, as its first and the first behind it; `none` for no image. -/
def codeWords (s : State) (k : Nat) : Option (Nat × Nat) :=
  match coreStep s k with
  | none => none
  | some (_, st) => (tfind s.part.images st.image).map (fun x => (x.base, x.base + x.words))

/-- The BRX table is well formed: 1 to 1,023 entries, none leaving the code (04 R95). -/
def tableOk (s : State) (i : Issue) (offset : Int) (table : List Int) : Bool :=
  1 ≤ table.length && table.length ≤ 1023
    && (match codeWords s i.core with
        | none => true
        | some w => table.all (fun e => (w.1 : Int) ≤ (i.pc : Int) + offset + e && (i.pc : Int) + offset + e < w.2))

/-- BRX: each thread branches through the entry its index names, entry 0 for an index at or above LEN (04 R100). -/
def execBrx (i : Issue) (sa : Nat) (offset : Int) (table : List Int) (s : State) : Host.Outcome State Fault Refusal :=
  kernel (guardOk i && regsOk (declaredRegs s i.core) [sa] && tableOk s i offset table)
    (issue s i [sa] [] noWait (fun s g act =>
      let (n, s) := takeFresh s
      moveThreads s i.core i.group act (fun t =>
        let x := regRead g sa t
        branchTo n i.pc (offset + nth table (if x < table.length then x else 0) 0))))

/-- SPLIT records the threads that execute it in one issue, in place of what the slot held (04 R97). -/
def execSplit (i : Issue) (slot : Nat) (s : State) : Host.Outcome State Fault Refusal :=
  kernel (guardOk i && slot < 8) (issue s i [] [] noWait (fun s _ act =>
    let s := modGroup s i.core i.group (fun g => { g with joins := tset g.joins slot (maskOf act) })
    advance s i act))

/-- JOIN: on an empty slot the threads go on; else they wait for the recorded set (04 R97). -/
def execJoin (i : Issue) (slot : Nat) (s : State) : Host.Outcome State Fault Refusal :=
  kernel (guardOk i && slot < 8) (issue s i [] [] noWait (fun s g act =>
    if tget g.joins slot 0 = 0 then advance s i act
    else settleJoin (setWaits s i.core i.group act (fun _ => .join slot)) i.core i.group slot))

/-- EXIT: the threads end; one of a region's entry mask breaks the region, and joins count them as arrived (04 R97, R118). -/
def execExit (i : Issue) (s : State) : Host.Outcome State Fault Refusal :=
  kernel (guardOk i) (issue s i [] [] noWait (fun s g act =>
    let broken := match g.region with | none => false | some r => act.any (fun t => bitAt r.entry t)
    let s := modGroup s i.core i.group (fun g => { g with exited := act.foldl setBit g.exited })
    let s := if broken then breakRegion s i.core i.group else s
    forEach (List.range 8) s (fun s j => settleJoin s i.core i.group j)))

/-- YIELD: a hint that ends the subset's issue turn. -/
def execYield (i : Issue) (s : State) : Host.Outcome State Fault Refusal :=
  kernel (guardOk i) (issue s i [] [] noWait (fun s _ act => advance s i act))

/-! ### Cross-lane operations (04 R101, R102) -/

/-- How a SHFL finds its source: IDX, UP, DOWN or XOR. -/
inductive Shuffle where
  | idx | up | down | xor
  deriving DecidableEq, Repr, Inhabited

/-- The source thread of member `t`, if it lies in the segment. -/
def shuffleSource (k : Shuffle) (seg l t : Nat) : Option Nat :=
  let n := 2 ^ seg
  let base := t / n * n
  let pos := t % n
  match k with
  | .idx => some (base + l % n)
  | .up => if l ≤ pos then some (base + (pos - l)) else none
  | .down => if pos + l < n then some (base + (pos + l)) else none
  | .xor => if Nat.xor pos l < n then some (base + Nat.xor pos l) else none

/-- A shuffle's form: SEG 1–6 and an immediate of 6 bits. -/
def shflOk (s : State) (i : Issue) (f : ShflForm) (dst sa sb sc : Nat) : Bool :=
  let n := declaredRegs s i.core
  guardOk i && 1 ≤ f.seg && f.seg ≤ 6 && regsOk n [dst, sa, sb] && pairsOk n [sc]
    && (match f.imm with | none => true | some x => x < 64)

/-- A shuffle: a member whose source is outside the segment, no member, or exited keeps its own SA value. -/
def shuffle (k : Shuffle) (i : Issue) (f : ShflForm) (dst sa sb sc : Nat) (s : State) : State :=
  gatherOp s i ([dst, sa, sb] ++ pairRegs sc) [] sc (fun g0 g members t =>
    let l := match f.imm with | some x => x | none => regRead g0 sb t
    let src := match shuffleSource k f.seg l t with
      | some u => if members.contains u then u else t
      | none => t
    regWrite g dst t (regRead g0 sa src))

/-- SHFL.IDX. -/
def execShflIdx (i : Issue) (f : ShflForm) (dst sa sb sc : Nat) (s : State) : Host.Outcome State Fault Refusal :=
  kernel (shflOk s i f dst sa sb sc) (shuffle .idx i f dst sa sb sc s)

/-- SHFL.UP. -/
def execShflUp (i : Issue) (f : ShflForm) (dst sa sb sc : Nat) (s : State) : Host.Outcome State Fault Refusal :=
  kernel (shflOk s i f dst sa sb sc) (shuffle .up i f dst sa sb sc s)

/-- SHFL.DOWN. -/
def execShflDown (i : Issue) (f : ShflForm) (dst sa sb sc : Nat) (s : State) : Host.Outcome State Fault Refusal :=
  kernel (shflOk s i f dst sa sb sc) (shuffle .down i f dst sa sb sc s)

/-- SHFL.XOR. -/
def execShflXor (i : Issue) (f : ShflForm) (dst sa sb sc : Nat) (s : State) : Host.Outcome State Fault Refusal :=
  kernel (shflOk s i f dst sa sb sc) (shuffle .xor i f dst sa sb sc s)

/-! ### Votes and matches (04 R103) -/

/-- A vote's input of a thread: predicate `pin`, inverted when asked. -/
def voteIn (g : Group) (pin : Nat) (inv : Bool) (t : Nat) : Bool := predRead g pin t != inv

/-- The form of a vote: predicates of 3 bits, a mask pair. -/
def voteOk (s : State) (i : Issue) (dst pin sc : Nat) : Bool :=
  guardOk i && dst < 8 && pin < 8 && pairsOk (declaredRegs s i.core) [sc]

/-- VOTE.ALL. -/
def execVoteAll (i : Issue) (dst pin : Nat) (inv : Bool) (sc : Nat) (s : State) : Host.Outcome State Fault Refusal :=
  kernel (voteOk s i dst pin sc) (gatherOp s i (pairRegs sc) [dst, pin] sc (fun g0 g members t =>
    predWrite g dst t (members.all (voteIn g0 pin inv))))

/-- VOTE.ANY. -/
def execVoteAny (i : Issue) (dst pin : Nat) (inv : Bool) (sc : Nat) (s : State) : Host.Outcome State Fault Refusal :=
  kernel (voteOk s i dst pin sc) (gatherOp s i (pairRegs sc) [dst, pin] sc (fun g0 g members t =>
    predWrite g dst t (members.any (voteIn g0 pin inv))))

/-- VOTE.BALLOT: the mask of members whose input is 1. -/
def execVoteBallot (i : Issue) (dst pin : Nat) (inv : Bool) (sc : Nat) (s : State) : Host.Outcome State Fault Refusal :=
  kernel (guardOk i && pin < 8 && pairsOk (declaredRegs s i.core) [dst, sc])
    (gatherOp s i (pairRegs dst ++ pairRegs sc) [pin] sc (fun g0 g members t =>
      pairWrite g dst t (maskOf (members.filter (voteIn g0 pin inv)))))

/-- MATCH: the mask of members that hold the same value. -/
def matchOp (i : Issue) (wide : Bool) (dst sa sc : Nat) (s : State) : State :=
  gatherOp s i (pairRegs dst ++ wideRegs wide sa ++ pairRegs sc) [] sc (fun g0 g members t =>
    pairWrite g dst t (maskOf (members.filter (fun u => wideRead g0 wide sa u == wideRead g0 wide sa t))))

/-- MATCH.32. -/
def execMatch32 (i : Issue) (dst sa sc : Nat) (s : State) : Host.Outcome State Fault Refusal :=
  kernel (guardOk i && regsOk (declaredRegs s i.core) [sa] && pairsOk (declaredRegs s i.core) [dst, sc])
    (matchOp i false dst sa sc s)

/-- MATCH.64. -/
def execMatch64 (i : Issue) (dst sa sc : Nat) (s : State) : Host.Outcome State Fault Refusal :=
  kernel (guardOk i && pairsOk (declaredRegs s i.core) [dst, sa, sc]) (matchOp i true dst sa sc s)

end Sys2Proof.Machine
end

