-- ==== Sys2Proof/Machine/Pegs.lean ====
section
/-! DEFINITION. The peg units and the peg instructions (spec 04 R107–R109, R549–R551, Tables 4-9 and 4-10). -/
namespace Sys2Proof.Machine

/-! ### Pegs -/

def pegOf (s : State) (id : Nat) : Peg := tget s.cells.pegs id {}
def modPeg (s : State) (id : Nat) (f : Peg → Peg) : State :=
  { s with cells := { s.cells with pegs := tmod s.cells.pegs id {} f } }

/-- COUNT becomes 0 and GENERATION += 1, modulo 2^14. -/
def pegTurn (p : Peg) : Peg := { p with count := 0, generation := (p.generation + 1) % 2 ^ 14 }

/-- A count of zero is treated as 1. -/
def pegCount (n : Nat) : Nat := if n = 0 then 1 else n

/-- One contribution of `n` by ARRIVE or SIGNAL (04 Table 4-10). -/
def pegAdd (p : Peg) (n : Nat) : Peg :=
  match p.ptype with
  | .barrier => if p.target ≤ p.count + pegCount n then pegTurn p else { p with count := p.count + pegCount n }
  | .semaphore => { p with count := min (p.count + pegCount n) (2 ^ 24 - 1) }
  | .event => { p with count := 1 }
  | .none => p

/-- The result an ARRIVE or SIGNAL writes: GENERATION before on a BARRIER, COUNT before else (04 R550). -/
def pegResult (p : Peg) : Nat := match p.ptype with | .barrier => p.generation | _ => p.count

/-- The value of a TYPE. -/
def pegTypeValue : PegType → Nat
  | .none => 0 | .barrier => 1 | .semaphore => 2 | .event => 3

/-- The state as PEG.READ returns it (04 Table 4-9). -/
def pegWord (p : Peg) : Nat := pegTypeValue p.ptype + field p.count 2 24 + field p.target 26 24 + field p.generation 50 14

/-- The peg after a WAIT's condition is met, or `none` while it is not (04 Table 4-10). -/
def pegMeets (p : Peg) (sb : Nat) : Option Peg :=
  match p.ptype with
  | .barrier => if p.generation ≠ sb then some p else none
  | .semaphore => if sb ≤ p.count then some { p with count := p.count - sb } else none
  | .event => if p.count ≠ 0 then some p else none
  | .none => none

/-- A WAIT ends: its threads go on with PDST, or its die gets its answer (04 R108, R109; 12 R322). -/
def endWait (s : State) (w : Waiter) (met : Bool) : State :=
  match w.attic with
  | some (site, txn) =>
    let s := modSite s site (fun x => { x with pegWaits := x.pegWaits.filter (· != txn) })
    sendAtp s site { opcode := 0x11, txn := txn, len := 1, data := leBytes 32 (b2n met) }
  | none =>
    match groupOf s w.core w.group with
    | none => s
    | some g =>
      let s := modGroup s w.core w.group (fun g => w.threads.foldl (fun g t => predWrite g w.pdst t met) g)
      let s := moveThreads s w.core w.group w.threads (fun t => threadPc g t + 1)
      acquireOpt s w.core w.acquire

/-- Re-examine the waiters in order of arrival; on a semaphore one that cannot be served blocks those behind it (04 R107). -/
def serveWaiters (s : State) (id : Nat) : State :=
  let r := (pegOf s id).waiters.foldl (fun (r : Peg × List Waiter × List Waiter × Bool) w =>
    let (p, ended, kept, blocked) := r
    if blocked then (p, ended, kept ++ [w], true)
    else match pegMeets p w.sb with
      | some p' => (p', ended ++ [w], kept, false)
      | none => (p, ended, kept ++ [w], p.ptype == .semaphore)) (pegOf s id, [], [], false)
  let s := modPeg s id (fun _ => { r.1 with waiters := r.2.2.1 })
  forEach r.2.1 s (fun s w => endWait s w true)

/-- One ARRIVE or SIGNAL of `n` on a peg. -/
def pegSignalOp (s : State) (id n : Nat) : State := serveWaiters (modPeg s id (fun p => pegAdd p n)) id

/-- RESET: every WAIT pending ends with PDST 0 (04 R108). -/
def pegResetOp (s : State) (id : Nat) : State :=
  let w := (pegOf s id).waiters
  let s := modPeg s id (fun p => { pegTurn p with waiters := [] })
  forEach w s (fun s w => endWait s w false)

/-- The peg takes the whole zero state, and its waits end (04 R549). -/
def pegNone (s : State) (id : Nat) : State :=
  let w := (pegOf s id).waiters
  let s := { s with cells := { s.cells with pegs := tdel s.cells.pegs id } }
  forEach w s (fun s w => endWait s w false)

/-- A PEG_SET part (09 R551): TYPE and TARGET set, COUNT 0, GENERATION as it was. -/
def pegSetOp (s : State) (id : Nat) (ty : PegType) (target : Nat) : State :=
  if ty = .none then pegNone s id
  else
    let w := (pegOf s id).waiters
    let s := modPeg s id (fun p => { p with
      ptype := ty, target := if ty = .barrier then target else 0, count := 0, waiters := [] })
    forEach w s (fun s w => endWait s w false)

/-- A WAIT joins the peg's waiters, or ends at once. -/
def pegWaitOp (s : State) (id : Nat) (w : Waiter) : State :=
  serveWaiters (modPeg s id (fun p => { p with waiters := p.waiters ++ [w] })) id

/-- All pegs of a cellar take TYPE NONE. -/
def pegsNone (s : State) (c : Nat) : State :=
  forEach ((tkeys s.cells.pegs).filter (fun id => id / 256 == c)) s pegNone

/-- A peg that a context may use: a valid identifier, in a cellar of its partition, not of TYPE NONE (04 R108). -/
def pegAllowed (s : State) (part id : Nat) : Bool :=
  id < 16384 && cellarUp s (id / 256) && !(cellarOf s (id / 256)).resetting && cellarOwner s (id / 256) == part
    && (pegOf s id).ptype != .none

/-- The code of a peg operation that is turned away: while its cellar's reset runs its completion is poisoned (16 R467). -/
def pegCode (s : State) (id : Nat) : Nat :=
  if id < 16384 ∧ (cellarOf s (id / 256)).resetting then ecPoisonConsumed else ecAccessError

/-! ### Peg operations at master ports (10 R271, R272, R280) -/

/-- A peg operation of a unit behind port `m` may go now: at a peg of its own cellar, or past its port. -/
def pegPasses (s : State) (m id : Nat) : Bool := (m < 64 && id / 256 == m) || portPasses s m 1

/-- A peg operation has passed port `m`, unless the peg lies in that port's own cellar. -/
def notePeg (s : State) (m id : Nat) : State := if m < 64 && id / 256 == m then s else notePort s m

/-! ### Peg instructions -/

/-- PEG's form: registers, PDST of 3 bits. -/
def pegOk (s : State) (i : Issue) (f : PegForm) (singles pairs : List Nat) : Bool :=
  guardOk i && f.pdst < 8 && regsOk (declaredRegs s i.core) singles && pairsOk (declaredRegs s i.core) pairs

/-- The partition of a core. -/
def corePartition (s : State) (k : Nat) : Nat := cellarOwner s (k / 64)

/-- An identifier is refused: an access error of the core (04 R108, R119). -/
def pegRefused (s : State) (i : Issue) (ids : List Nat) : Option Nat :=
  ids.find? (fun id => !pegAllowed s (corePartition s i.core) id)

/-- The pegs that an instruction names: by its first active thread with ONCE. -/
def pegIds (g : Group) (f : PegForm) (sa : Nat) (act : List Nat) : List Nat :=
  (if f.once then act.take 1 else act).map (fun t => regRead g sa t)

/-- Issue a peg instruction: while its operations cannot pass its cellar's port, it waits there.  It waits for an acquire of
its threads that is in flight (04 R111); with RELEASE, for their loads (04 R109). -/
def pegIssue (s : State) (i : Issue) (f : PegForm) (sa : Nat) (regs preds : List Nat) (body : State → List Nat → State) : State :=
  let order := acquireReg :: (if (releaseScope f.order f.scope).isSome then [loadReg] else [])
  issue s i (order ++ regs) preds noWait (fun s g act =>
    let ids := pegIds g f sa act
    if ids.all (pegPasses s (i.core / 64)) then body (ids.foldl (fun s id => notePeg s (i.core / 64) id) s) act else s)

/-- One contribution to a peg: the threads `to` receive the value from before it. -/
def pegAddOne (s : State) (i : Issue) (dst id value : Nat) (dest : List Nat) : State :=
  let r := pegResult (pegOf s id)
  pegSignalOp (modGroup s i.core i.group (fun g => dest.foldl (fun g u => regWrite g dst u r) g)) id value

/-- The contributions of the threads of an ARRIVE or SIGNAL. -/
def pegAddThreads (s : State) (i : Issue) (f : PegForm) (dst sa sb : Nat) (act : List Nat) : State :=
  match groupOf s i.core i.group, act with
  | some g, first :: _ =>
    let who := if f.once then [first] else act
    match pegRefused s i (who.map (fun t => regRead g sa t)) with
    | some id => coreError s i.core (pegCode s id) 0
    | none =>
      let s := forEach who s (fun s t => pegAddOne s i dst (regRead g sa t) (regRead g sb t) (if f.once then act else [t]))
      advance (acquireOpt s i.core (acquireScope f.order f.scope)) i act
  | _, _ => s

/-- ARRIVE or SIGNAL: without ONCE each active thread contributes in lane order and receives the value from before its own
contribution; with ONCE the instruction contributes once (04 R107, R550). -/
def pegAddInstr (i : Issue) (f : PegForm) (dst sa sb : Nat) (s : State) : State :=
  pegIssue s i f sa [dst, sa, sb] [] (fun s act =>
    released s i act (releaseScope f.order f.scope) (fun s act => pegAddThreads s i f dst sa sb act))

/-- PEG.ARRIVE. -/
def execPegArrive (i : Issue) (f : PegForm) (dst sa sb : Nat) (s : State) : Host.Outcome State Fault Refusal :=
  kernel (pegOk s i f [dst, sa, sb] []) (pegAddInstr i f dst sa sb s)

/-- PEG.SIGNAL: as ARRIVE on a BARRIER; the same contribution on the other types. -/
def execPegSignal (i : Issue) (f : PegForm) (dst sa sb : Nat) (s : State) : Host.Outcome State Fault Refusal :=
  kernel (pegOk s i f [dst, sa, sb] []) (pegAddInstr i f dst sa sb s)

/-- PEG.WAIT: the threads wait on the peg (04 R107–R109). -/
def execPegWait (i : Issue) (f : PegForm) (sa sb : Nat) (s : State) : Host.Outcome State Fault Refusal :=
  kernel (pegOk s i f [sa, sb] []) (pegIssue s i f sa [sa, sb] [f.pdst] (fun s act =>
    released s i act (releaseScope f.order f.scope) (fun s act =>
      match groupOf s i.core i.group, act with
      | some g, first :: _ =>
        let who := if f.once then [(first, act)] else act.map (fun t => (t, [t]))
        match pegRefused s i (who.map (fun e => regRead g sa e.1)) with
        | some id => coreError s i.core (pegCode s id) 0
        | none =>
          let s := setWaits s i.core i.group act (fun t => .peg (regRead g sa (if f.once then first else t)))
          forEach who s (fun s e => pegWaitOp s (regRead g sa e.1) {
            core := i.core, group := i.group, threads := e.2, sb := regRead g sb e.1, pdst := f.pdst
            acquire := acquireScope f.order f.scope })
      | _, _ => s)))

/-- PEG.RESET; DST is left unchanged (04 R550). -/
def execPegReset (i : Issue) (f : PegForm) (sa : Nat) (s : State) : Host.Outcome State Fault Refusal :=
  kernel (pegOk s i f [sa] []) (pegIssue s i f sa [sa] [] (fun s act =>
    released s i act (releaseScope f.order f.scope) (fun s act =>
      match groupOf s i.core i.group, act with
      | some g, first :: _ =>
        let who := if f.once then [first] else act
        match pegRefused s i (who.map (fun t => regRead g sa t)) with
        | some id => coreError s i.core (pegCode s id) 0
        | none =>
          let s := forEach who s (fun s t => pegResetOp s (regRead g sa t))
          advance (acquireOpt s i.core (acquireScope f.order f.scope)) i act
      | _, _ => s)))

/-- PEG.READ: DST pair receives the state (04 Table 4-9). -/
def execPegRead (i : Issue) (f : PegForm) (dst sa : Nat) (s : State) : Host.Outcome State Fault Refusal :=
  kernel (pegOk s i f [sa] [dst]) (pegIssue s i f sa (sa :: pairRegs dst) [] (fun s act =>
    released s i act (releaseScope f.order f.scope) (fun s act =>
      match groupOf s i.core i.group, act with
      | some g, first :: _ =>
        match pegRefused s i ((if f.once then [first] else act).map (fun t => regRead g sa t)) with
        | some id => coreError s i.core (pegCode s id) 0
        | none =>
          let s := modGroup s i.core i.group (fun g => act.foldl (fun g t =>
            pairWrite g dst t (pegWord (pegOf s (regRead g sa (if f.once then first else t))))) g)
          advance (acquireOpt s i.core (acquireScope f.order f.scope)) i act
      | _, _ => s)))

end Sys2Proof.Machine
end

