-- ==== Sys2Proof/Machine/Sparse.lean ====
section
/-! DEFINITION. BB64 blocks and tensors, gathering, as functions of the bytes read (spec 06 R149–R166). -/
namespace Sys2Proof.Machine

/-- The format of a code of 05 Table 5-1. -/
def fmtOf (x : Nat) : Option Fmt :=
  ([.t2, .int4, .int8, .fp4e2m1, .fp6e2m3, .fp6e3m2, .fp8e4m3, .fp8e5m2, .bf16, .fp32] : List Fmt)[x]?

/-- An element is zero (06 R150). -/
def elementZero (f : Fmt) (x : Nat) : Bool :=
  match f with
  | .t2 => x == 0 || x == 2
  | .int4 | .int8 => x == 0
  | _ => x % 2 ^ (fmtWidth f - 1) == 0

/-- Bytes of a block with `n` nonzero elements (06 R149). -/
def blockLength (f : Fmt) (n : Nat) : Nat := 8 + 8 * ((n * fmtWidth f + 63) / 64)

/-- Pack values of `w` bits, first lowest. -/
def packBits (l : List Nat) (w : Nat) : Nat := l.foldr (fun v acc => v % 2 ^ w + 2 ^ w * acc) 0

/-- Encode 64 elements (06 R149). -/
def encodeBlock (f : Fmt) (l : List Nat) : Bytes :=
  let nz := l.filter (fun x => !elementZero f x)
  let map := maskOf ((List.range 64).filter (fun i => !elementZero f (nth l i 0)))
  leBytes 8 map ++ leBytes (blockLength f nz.length - 8) (packBits nz (fmtWidth f))

/-- The elements of a block at `a`, read through `rd`. -/
def decodeBlock (rd : Nat → Nat) (f : Fmt) (a : Nat) : List Nat :=
  let map := leNat ((List.range 8).map (fun i => BitVec.ofNat 8 (rd (a + i))))
  ((List.range 64).foldl (fun (r : List Nat × Nat) i =>
    if bitAt map i then (r.1 ++ [packed rd (a + 8) (fmtWidth f) r.2], r.2 + 1) else (r.1 ++ [0], r.2)) ([], 0)).1

/-- The occupancy map of a block at `a`. -/
def blockMap (rd : Nat → Nat) (a : Nat) : Nat := leNat ((List.range 8).map (fun i => BitVec.ofNat 8 (rd (a + i))))

/-- A little-endian number of `n` bytes at `a`. -/
def rdLe (rd : Nat → Nat) (a n : Nat) : Nat := leNat ((List.range n).map (fun i => BitVec.ofNat 8 (rd (a + i))))

/-- Row stride of a dense matrix (06, after R155). -/
def denseStride (f : Fmt) (bpr : Nat) : Nat := bpr * 8 * fmtWidth f

/-- What a compression or decompression gives: bytes to write as (offset from DST, bytes, poisoned), words of the ZMAP, and
the result's fields. -/
structure SparseOut where
  writes : List (Nat × Bytes × Bool) := []
  zmap : List (Nat × Nat) := []
  code : Nat := 0
  done : Nat := 0
  aux0 : Nat := 0
  aux1 : Nat := 0
  deriving DecidableEq, Repr, Inhabited

/-- One compressed row: its blocks, whether each is poisoned, its nonzeros and dropped T2 codes. -/
structure RowOut where
  blocks : List (Bytes × Bool) := []
  nonzeros : Nat := 0
  dropped : Nat := 0
  deriving DecidableEq, Repr, Inhabited

/-- Compress one row that starts at `row`. -/
def compressRow (rd : Nat → Nat) (pz : Nat → Nat → Bool) (f : Fmt) (bpr row : Nat) : RowOut :=
  (List.range bpr).foldl (fun (o : RowOut) j =>
    let es := (List.range 64).map (fun i => packed rd row (fmtWidth f) (64 * j + i))
    { blocks := o.blocks ++ [(encodeBlock f es, pz (row + j * 8 * fmtWidth f) (8 * fmtWidth f))]
      nonzeros := o.nonzeros + (es.filter (fun x => !elementZero f x)).length
      dropped := o.dropped + (if f = .t2 then (es.filter (· == 2)).length else 0) }) {}

/-- The 64-byte header of a tensor (06 Table 6-2). -/
def tensorHeader (f : Fmt) (bpr rows indexOff dataOff dataBytes nonzeros : Nat) : Bytes :=
  leBytes 64 (0x10 + field (fmtCode f) 8 4 + field bpr 16 16 + field rows 32 32 + field indexOff 64 64 + field dataOff 128 64
    + field dataBytes 192 64 + field nonzeros 256 64)

/-- COMPRESS (06 R156, R158, R160): `rd` reads the input, `pz a n` tells whether any of `n` bytes at `a` is poisoned. -/
def compressTensor (rd : Nat → Nat) (pz : Nat → Nat → Bool) (f : Fmt) (bpr rows src cap : Nat) : SparseOut :=
  let dataOff := 64 + 8 * (rows + 1)
  if cap < 72 then { code := 1 }
  else
    let all := (List.range rows).map (fun r => compressRow rd pz f bpr (src + r * denseStride f bpr))
    let len := fun (o : RowOut) => sum (o.blocks.map (fun b => b.1.length))
    -- whole rows that fit, in order
    let (kept, used, full) := all.foldl (fun (r : List RowOut × Nat × Bool) o =>
      if r.2.2 || cap < dataOff + r.2.1 + len o then (r.1, r.2.1, true) else (r.1 ++ [o], r.2.1 + len o, false)) ([], 0, false)
    let n := kept.length
    let offs := (List.range (n + 1)).map (fun i => sum ((kept.take i).map len))
    let index := offs.flatMap (leBytes 8)
    let head := tensorHeader f bpr n 64 dataOff used (sum (kept.map (·.nonzeros)))
    let body := (kept.flatMap (·.blocks)).foldl (fun (r : List (Nat × Bytes × Bool) × Nat) b =>
      (r.1 ++ [(r.2, b.1, b.2)], r.2 + b.1.length)) ([], dataOff)
    { writes := (0, head, false) :: (64, index, false) :: body.1
      code := if full then 1 else if kept.any (fun o => o.blocks.any (·.2)) then 3 else 0
      done := n, aux0 := (64 + 8 * (n + 1) + used) / 8, aux1 := sum (kept.map (·.dropped)) }

/-- A tensor header as read. -/
structure TensorHead where
  version : Nat := 0
  fmt : Nat := 0
  bpr : Nat := 0
  rows : Nat := 0
  indexOff : Nat := 0
  dataOff : Nat := 0
  dataBytes : Nat := 0
  deriving DecidableEq, Repr, Inhabited

/-- Read a header at `src`. -/
def tensorHead (rd : Nat → Nat) (src : Nat) : TensorHead :=
  let w := rdLe rd src 8
  { version := bits w 0 8, fmt := bits w 8 4, bpr := bits w 16 16, rows := bits w 32 32, indexOff := rdLe rd (src + 8) 8
    dataOff := rdLe rd (src + 16) 8, dataBytes := rdLe rd (src + 24) 8 }

/-- The header is malformed (06 R153). -/
def headBad (h : TensorHead) : Bool :=
  h.version / 16 != 1 || (fmtOf h.fmt).isNone || h.indexOff % 8 != 0 || h.dataOff % 8 != 0

/-- Index entry `r`. -/
def indexEntry (rd : Nat → Nat) (src : Nat) (h : TensorHead) (r : Nat) : Nat := rdLe rd (src + h.indexOff + 8 * r) 8

/-- The index is malformed (06 R153). -/
def indexBad (rd : Nat → Nat) (src : Nat) (h : TensorHead) : Bool :=
  (List.range h.rows).any (fun r => indexEntry rd src h (r + 1) < indexEntry rd src h r)
    || (List.range (h.rows + 1)).any (fun r => indexEntry rd src h r % 8 != 0)
    || indexEntry rd src h h.rows != h.dataBytes

/-- The addresses of a row's blocks, and where the last ends. -/
def rowBlocks (rd : Nat → Nat) (f : Fmt) (bpr start : Nat) : List Nat × Nat :=
  (List.range bpr).foldl (fun (r : List Nat × Nat) _ =>
    (r.1 ++ [r.2], r.2 + blockLength f (popCount (blockMap rd r.2) 64))) ([], start)

/-- One decompressed row: its dense bytes with their poison by block, the map of nonempty blocks, poisoned blocks. -/
def decompressRow (rd : Nat → Nat) (pz : Nat → Nat → Bool) (f : Fmt) (l : List Nat) : List (Bytes × Bool) × List Bool :=
  (l.map (fun a =>
    let es := decodeBlock rd f a
    let n := blockLength f (popCount (blockMap rd a) 64)
    (leBytes (8 * fmtWidth f) (packBits es (fmtWidth f)), pz a n)), l.map (fun a => blockMap rd a != 0))

/-- DECOMPRESS (06 R153, R156, R158–R160); `dense` is false when only ZMAP words are written.  The spec leaves open two
points that the model settles (assumption log entry 74): a poisoned header or index ends it with POISONED, DONE 0 and
nothing written; and when a row fails the length check the ZMAP words of all groups are written, with 0 for the rows not
reached. -/
def decompressTensor (rd : Nat → Nat) (pz : Nat → Nat → Bool) (src cap : Nat) (dense : Bool) : SparseOut :=
  let h := tensorHead rd src
  match fmtOf h.fmt with
  | none => { code := 2 }
  | some f =>
    if headBad h || indexBad rd src h then { code := 2 }
    else if pz src 64 || pz (src + h.indexOff) (8 * (h.rows + 1)) then { code := 3 }
    else if dense && cap < h.rows * denseStride f h.bpr then { code := 1 }
    else
      let data := src + h.dataOff
      -- rows in order until one whose blocks fail the length check
      let (rows, bad) := (List.range h.rows).foldl (fun (r : List (List (Bytes × Bool) × List Bool) × Bool) i =>
        if r.2 then r
        else
          let (l, stop) := rowBlocks rd f h.bpr (data + indexEntry rd src h i)
          if stop = data + indexEntry rd src h (i + 1) then (r.1 ++ [decompressRow rd pz f l], false) else (r.1, true)) ([], false)
      let poisoned := sum (rows.map (fun r => (r.1.filter (·.2)).length))
      let stride := denseStride f h.bpr
      let writes := if !dense then [] else rows.zipIdx.flatMap (fun r =>
        r.1.1.zipIdx.map (fun b => (r.2 * stride + b.2 * 8 * fmtWidth f, b.1.1, b.1.2)))
      let words := (List.range ((h.rows + 63) / 64)).flatMap (fun g => (List.range h.bpr).map (fun j =>
        ((g * h.bpr + j) * 8, maskOf ((List.range 64).filter (fun m => nth (nth rows (64 * g + m) ([], [])).2 j false)))))
      { writes := writes, zmap := words, code := if bad then 2 else if 0 < poisoned then 3 else 0
        done := rows.length, aux0 := poisoned }

/-- Fetches saved in one run of 32 indices: in-range indices less the distinct ones (06 R166). -/
def savedFetches (limit : Nat) (l : List Nat) : Nat :=
  let l := l.filter (· < limit)
  l.length - l.eraseDups.length

/-- The runs of 32 consecutive indices. -/
def runsOf32 (l : List Nat) : List (List Nat) := (List.range ((l.length + 31) / 32)).map (fun r => (l.drop (32 * r)).take 32)

end Sys2Proof.Machine
end

