-- ==== Sys2Proof/Machine/Mover.lean ====
section
/-! DEFINITION. The movers: starting a descriptor, its addresses, its reads and writes, copies, fills, the sparse
operations, and how a descriptor ends (spec 09 R255; 06 R155–R166; 11 R298–R301). -/
namespace Sys2Proof.Machine

/-! ### Jobs -/

def jobsOf (s : State) (c : Nat) : List MoverJob := tget s.larder.movers c []
def jobFind (s : State) (c id : Nat) : Option MoverJob := (jobsOf s c).find? (fun j => jobId j == id)
def modJob (s : State) (c id : Nat) (f : MoverJob → MoverJob) : State :=
  { s with larder := { s.larder with movers := tmodIf s.larder.movers c (fun l =>
      l.map (fun j => if jobId j = id then f j else j)) } }

/-- A part of a step. -/
def partAt (s : State) (slot part : Nat) : Option StepPart := (stepOf s slot).bind (fun st => st.parts[part]?)

/-- A part of a step has ended. -/
def partDone (s : State) (slot part : Nat) : State :=
  modStep s slot (fun st => { st with parts := st.parts.zipIdx.map (fun p =>
    if p.2 = part then { p.1 with phase := .done } else p.1) })

/-- The descriptor of a job. -/
def jobBody (s : State) (j : MoverJob) : Bytes := match partAt s j.step j.part with | some p => p.body | none => []

/-- The previous mover part of the step on the same mover. -/
def previousPart (s : State) (j : MoverJob) : Option Nat :=
  match stepOf s j.step, partAt s j.step j.part with
  | some st, some me => ((st.parts.zipIdx.filter (fun p => p.2 < j.part && p.1.kind == 1 && p.1.unit == me.unit)).getLast?).map (·.2)
  | _, _ => none

/-- A descriptor may start: a place among the mover's 8 is free, the earlier parts of its step on the mover have started,
and under AFTER_PREV the one before it has written its result (R255). -/
def mayStart (s : State) (c : Nat) (j : MoverJob) : Bool :=
  let l := jobsOf s c
  let after := bbits (jobBody s j) 47 1 == 1
  (l.filter (·.started)).length < 8
    && l.all (fun k => k.step != j.step || j.part ≤ k.part || k.started)
    && (!after || (match previousPart s j with
                   | some p => !l.any (fun k => k.step == j.step && k.part == p)
                   | none => true))

/-- Run one descriptor whose OP is `op`, starting it first; one that does not stand there, that cannot start, or that has
finished its transfer changes nothing. -/
def runJob (s : State) (c id op : Nat) (body : State → MoverJob → Bytes → State) : State :=
  match jobFind s c id with
  | none => s
  | some j =>
    let b := jobBody s j
    if bbits b 0 8 ≠ op ∨ j.result.isSome then s
    else if j.started then body s j b
    else if !mayStart s c j then s
    else body (modJob s c id (fun j => { j with started := true })) { j with started := true } b

/-- The partition a step runs in. -/
def stepPart (s : State) (slot : Nat) : Nat := match stepOf s slot with | some st => st.part | none => 0

/-- The 16-byte result of Table 6-5 and Table 7-4. -/
def resultBytes (code done a0 a1 : Nat) : Bytes :=
  leBytes 16 (field code 0 16 + field done 32 32 + field a0 64 32 + field a1 96 32)

/-- The transfer has ended; its result waits to be written. -/
def endJob (s : State) (c id code done a0 a1 : Nat) : State :=
  modJob s c id (fun j => { j with result := some (resultBytes code done a0 a1), stalled := false, stage := [], stagePoison := [] })

/-- The transfers a job still waits for. -/
def jobBusy (s : State) (c : Nat) (j : MoverJob) : Bool :=
  s.mem.txns.any (fun e => e.2.client == .moverRead c j.step j.part || e.2.client == .moverWrite c j.step j.part)
    || s.chord.peers.any (fun e => e.2.messages.any (fun m =>
      m.2.client == .mover c j.step j.part || m.2.client == .coll c j.step j.part))

/-- A job leaves its mover, with its uses landed; its part has ended. -/
def removeJob (s : State) (c id : Nat) : State :=
  match jobFind s c id with
  | none => s
  | some j =>
    let s := forEach j.uses s landUse
    let s := detachJob s c id
    let s := { s with larder := { s.larder with movers := tmodIf s.larder.movers c (fun l => l.filter (fun k => jobId k != id)) } }
    partDone s j.step j.part

/-- A job ends in a failure of its step, whose first record is `ref`. -/
def failJob (s : State) (c id ref : Nat) : State :=
  match jobFind s c id with
  | none => s
  | some j => failStep (removeJob s c id) j.step .poisoned ref

/-- The larder pager's descriptors stand at this index: `step` names the page, and `part` is 1024 for a move and 1025 for a
zeroing. -/
def pagerUnit := 68

/-- What the larder reads and writes for a step itself stands at this index, by its slot. -/
def larderUnit := 69

/-- The master port that a job's transfers are charged to: its cellar's, the pager's, or for a routing engine that of the
lowest cellar of the step in its quadrant (06 R168, 10 Table 10-1). -/
def jobMaster (s : State) (c slot : Nat) : Nat :=
  if c < 64 then c
  else if pagerUnit ≤ c then 87
  else
    match (stepOf s slot).bind (fun st => st.heldCellars.find? (fun x => x / 16 == c - 64)) with
    | some x => x
    | none => (c - 64) * 16

/-- The firewall tag of a job's transfers. -/
def jobTag (s : State) (c slot : Nat) : Nat := if pagerUnit ≤ c then tagDevice else stepPart s slot

/-- An access error of a mover or a routing engine: a record with the step's TAG, and the step completes with POISONED (06 R161, 04 R119). -/
def moverError (s : State) (c id code addr : Nat) : State :=
  match jobFind s c id with
  | none => s
  | some j =>
    let tag := match stepOf s j.step with | some st => st.tag | none => 0
    let (s, i) := logError s {
      severity := if code = ecPoisonConsumed then .poisonConsumed else .accessError
      unitClass := if c < 64 then ucMover else ucRouting, unitIndex := c % 64, code := code, partition := errPartition (stepPart s j.step), address := addr
      stepTag := tag, cellarEpoch := (cellarOf s c).epoch }
    failJob s c id i

/-! ### Addresses of a descriptor (Table 9-8) -/

/-- An address: an HPA with the bytes left in its page, if it is page-relative; a host address; or a malformed one. -/
inductive MoveAddr where
  | hpa (a : Nat) (room : Option Nat)
  | host (a : Nat)
  | bad
  deriving DecidableEq, Repr, Inhabited

/-- The address in bits [lo + 63 : lo] under its host and page marks. -/
def fieldAddr (s : State) (j : MoverJob) (b : Bytes) (lo hostBit pageBit : Nat) : MoveAddr :=
  let x := bbits b lo 64
  match bbits b hostBit 1 == 1, bbits b pageBit 1 == 1 with
  | true, true => .bad
  | true, false => .host x
  | false, false => .hpa x none
  | false, true =>
    match (stepOf s j.step).bind (fun st => st.pinned[x / 2 ^ 32]?) with
    | some p => if x % 2 ^ 32 < 0x10000 then .hpa (p * 0x10000 + x % 2 ^ 32) (some (0x10000 - x % 2 ^ 32)) else .bad
    | none => .bad

def srcAddr (s : State) (j : MoverJob) (b : Bytes) : MoveAddr := fieldAddr s j b 64 8 10
def dstAddr (s : State) (j : MoverJob) (b : Bytes) : MoveAddr := fieldAddr s j b 128 9 11
def jobPasid (b : Bytes) : Nat := bbits b 12 20

/-- A transfer of `n` bytes crosses the end of a page-relative field's page, or the field is malformed. -/
def crosses (m : MoveAddr) (n : Nat) : Bool :=
  match m with
  | .bad => true
  | .hpa _ (some room) => room < n
  | _ => false

/-! ### Local reads and writes -/

/-- A line that lies in the job's own cellar and that no die holds: its mover reaches it inside the cellar. -/
def ownLine (s : State) (c line : Nat) : Bool :=
  !tracked s line && (match placeOf s (line * 128) with
    | .scratch k => k == c
    | .coreStore k => k / 64 == c
    | _ => false)

/-- Every byte of a range that falls in a line is valid in the cellar's buffer. -/
def bufferHolds (s : State) (c a n line : Nat) : Bool :=
  match cellarFind (cellarOf s c) line with
  | some key =>
    let l := tget (cellarOf s c).lines key {}
    (List.range 128).all (fun i => !(a ≤ line * 128 + i && line * 128 + i < a + n) || bitAt l.valid i)
  | none => false

/-- A transaction of a job at its master port. -/
def jobTxn (s : State) (c : Nat) (j : MoverJob) (t : Txn) : State :=
  let m := jobMaster s c j.step
  (newTxn s { t with master := m, tag := jobTag s c j.step, epoch := (cellarOf s m).epoch }).1

/-- Fetch one piece of a line, unless it is at hand or on its way; `true` once it is at hand. -/
def fetchPiece (s : State) (c : Nat) (j : MoverJob) (kind : TxnKind) (a n : Nat) : State × Bool :=
  let client := Client.moverRead c j.step j.part
  if ownLine s c (a / 128) || bufferHolds s c a n (a / 128) || (tfind j.stage a).isSome then (s, true)
  else if s.mem.txns.any (fun e => e.2.client == client && e.2.hpa == a) then (s, false)
  else (jobTxn s c j { kind := kind, hpa := a, bytes := n, client := client }, false)

/-- The part of a range that falls in a line: the whole line, but of the register block exactly the bytes asked for (00
R9). -/
def pieceOf (s : State) (a n line : Nat) : Nat × Nat :=
  match placeOf s (line * 128) with
  | .register _ =>
    let lo := max a (line * 128)
    (lo, min (a + n) (line * 128 + 128) - lo)
  | _ => (line * 128, 128)

/-- Fetch what a range has outside the cellar, in whole lines; `true` once nothing of it is missing. -/
def ensureRemote (s : State) (c : Nat) (j : MoverJob) (a n : Nat) : State × Bool :=
  (linesOf a n).foldl (fun (r : State × Bool) l =>
    let p := pieceOf s a n l
    let q := if ownLine s c l || bufferHolds s c a n l then (r.1, true) else fetchPiece r.1 c j .read p.1 p.2
    (q.1, r.2 && q.2)) (s, true)

/-- A byte as a mover reads it, with its poison: its cellar's buffer, what it has fetched, then home. -/
def jobByte (s : State) (c : Nat) (j : MoverJob) (a : Nat) : Byte × Bool :=
  let cached := match cellarFind (cellarOf s c) (a / 128) with
    | some key =>
      let l := tget (cellarOf s c).lines key {}
      if bitAt l.valid (a % 128) then some (tget l.data (a % 128) 0, bitAt l.poison (a % 128 / 32)) else none
    | none => none
  match cached with
  | some r => r
  | none =>
    match tfind j.stage a with
    | some b => (b, j.stagePoison.contains (a / 32))
    | none => readByte s a

def jobRead (s : State) (c : Nat) (j : MoverJob) (a n : Nat) : Bytes := (List.range n).map (fun i => (jobByte s c j (a + i)).1)
def jobPoison (s : State) (c : Nat) (j : MoverJob) (a n : Nat) : Bool := (List.range n).any (fun i => (jobByte s c j (a + i)).2)

/-- A write passes its cellar's buffer: the bytes it covers are no longer held there. -/
def uncache (s : State) (c line : Nat) (m : Nat) : State :=
  match cellarFind (cellarOf s c) line with
  | none => s
  | some key => modCellar s c (fun cl => { cl with lines := tmodIf cl.lines key (fun l =>
      { l with valid := Nat.land l.valid (notMask m), dirty := Nat.land l.dirty (notMask m), data := keepBytes l.data (notMask m) }) })

/-- A job writes bytes, with the poison of their sources: inside its cellar at once, elsewhere by transactions of its port. -/
def jobWrite (s : State) (c : Nat) (j : MoverJob) (a : Nat) (b : Bytes) (pz : Nat → Bool) : State :=
  forEach (linesOf a b.length) s (fun s l =>
    let t := bytesOfLine a b l
    let m := maskOf ((List.range 4).filter (fun q => t.any (fun e => e.1 / 32 == q && pz (l * 128 + e.1 - a))))
    let s := uncache s c l (maskOfBytes t)
    if ownLine s c l then writeLine s l t m
    else jobTxn s c j { kind := .write, hpa := l * 128, bytes := t.length, data := t, poison := m, client := .moverWrite c j.step j.part })

/-- The refusal of a local range, if any. -/
def jobRefusal (s : State) (j : MoverJob) (write : Bool) (a n : Nat) : Option Nat :=
  if n = 0 then none else accessRefusal s (stepPart s j.step) write a n

/-! ### Host reads and writes -/

/-- Pages of a host range that translate: (address, output, bytes), in order, until one does not. -/
inductive HostRange where
  | ok (l : List (Nat × Nat × Nat))
  | wait
  | failed (at_ ref : Nat)
  deriving DecidableEq, Repr, Inhabited

/-- Translate a host range page by page. -/
def hostPages (fuel : Nat) (s : State) (pasid part : Nat) (write : Bool) (who : Asker) (a n : Nat) : State × HostRange :=
  match fuel with
  | 0 => (s, .ok [])
  | fuel + 1 =>
    if n = 0 then (s, .ok [])
    else
      match translate s pasid part a write who with
      | (s, .wait) => (s, .wait)
      | (s, .failed r) => (s, .failed a r)
      | (s, .ok out left) =>
        let k := min left n
        match hostPages fuel s pasid part write who (a + k) (n - k) with
        | (s, .ok l) => (s, .ok ((a, out, k) :: l))
        | r => r

/-- Translate a whole host range of a job; pages are at least 4 KiB. -/
def hostRange (s : State) (c : Nat) (j : MoverJob) (pasid : Nat) (write : Bool) (a n : Nat) : State × HostRange :=
  hostPages (n / 4096 + 2) s pasid (stepPart s j.step) write (.mover c (jobId j)) a n

/-- Write bytes at translated pages; each write is a use in flight until it lands (11 R307). -/
def hostPut (s : State) (c : Nat) (j : MoverJob) (pasid : Nat) (l : List (Nat × Nat × Nat)) (b : Bytes) (pz : Nat → Bool) : State :=
  (l.foldl (fun (r : State × Nat) e =>
    let (s, off) := r
    let (va, out, k) := e
    let s := emit s (.hostWrite out ((b.drop off).take k) ((List.range k).any (fun i => pz (off + i))))
    let (s, u) := grantUse s (.mover c (jobId j)) { pasid := pasid, addr := va, bytes := k, write := true, out := out }
    (modJob s c (jobId j) (fun j => { j with uses := j.uses ++ [u] }), off + k)) (s, 0)).1

/-- A descriptor stalls on a fault or a walk; it is issued again when that has ended. -/
def stallJob (s : State) (c id : Nat) : State := modJob s c id (fun j => { j with stalled := true })

/-- The bytes of a host read and their poison, or none when the read failed. -/
def hostData (f : Fetch) (n : Nat) : Option (Bytes × (Nat → Bool)) :=
  let fit := fun (b : Bytes) => (b ++ List.replicate (n - b.length) 0).take n
  match f with
  | .data b => some (fit b, fun _ => false)
  | .partly b bad => some (fit b, fun i => bad.any (fun r => r.1 ≤ i && i < r.1 + r.2))
  | .poison => some (List.replicate n 0, fun _ => true)
  | _ => none

/-- The rest of a host read after its first `k` bytes. -/
def hostDrop (f : Fetch) (k : Nat) : Fetch :=
  match f with
  | .data b => .data (b.drop k)
  | .partly b bad => .partly (b.drop k) (bad.filterMap (fun r => if k < r.1 + r.2 then some (r.1 - k, r.1 + r.2 - max r.1 k) else none))
  | f => f

/-- Any of `n` bytes from an offset is poisoned. -/
def badIn (pz : Nat → Bool) (off n : Nat) : Bool := (List.range n).any (fun i => pz (off + i))

/-! ### COPY and FILL (09 Table 9-9) -/

/-- Put bytes at a destination, local or host.  `none` when the destination waits or the descriptor failed. -/
def putBytes (s : State) (c : Nat) (j : MoverJob) (pasid : Nat) (dst : MoveAddr) (off : Nat) (b : Bytes) (pz : Nat → Bool) :
    State × Bool :=
  match dst with
  | .hpa a _ => (jobWrite s c j (a + off) b pz, true)
  | .host a =>
    match hostRange s c j pasid true (a + off) b.length with
    | (s, .ok l) => (hostPut s c j pasid l b pz, true)
    | (s, .wait) => (stallJob s c (jobId j), false)
    | (s, .failed _ r) => (failJob s c (jobId j) r, false)
  | .bad => (s, false)

/-- Bytes to the end of the host page of 4 KiB that an address lies in. -/
def pageRest (a : Nat) : Nat := 4096 - a % 4096

/-- The size of the next piece of a copy: to the next 4 KiB page of a host address, or all that is left. -/
def pieceSize (src dst : MoveAddr) (off len : Nat) : Nat :=
  let lim := fun (m : MoveAddr) => match m with | .host a => pageRest (a + off) | _ => len - off
  min (len - off) (min (lim src) (lim dst))

/-- Copy from `off` on: `host` holds the host bytes from there.  Bytes before a stalled page stay moved (11 R298). -/
def copyFrom (fuel : Nat) (s : State) (c : Nat) (j : MoverJob) (pasid : Nat) (src dst : MoveAddr) (len off : Nat) (pz : Bool)
    (host : Fetch) : State :=
  let id := jobId j
  match fuel with
  | 0 => s
  | fuel + 1 =>
    if len ≤ off then endJob s c id (if pz then 3 else 0) (len / 64) 0 0
    else
      let k := pieceSize src dst off len
      let go := fun (s : State) (b : Bytes) (bad : Nat → Bool) (rest : Fetch) =>
        let dirty := pz || (List.range k).any bad
        match putBytes s c j pasid dst off b bad with
        | (s, true) =>
          copyFrom fuel (modJob s c id (fun j => { j with progress := off + k, stalled := false, srcPoison := dirty }))
            c j pasid src dst len (off + k) dirty rest
        | (s, false) => s
      match src with
      | .bad => s
      | .hpa a _ => go s (jobRead s c j (a + off) k) (fun i => (jobByte s c j (a + off + i)).2) host
      | .host a =>
        match hostRange s c j pasid false (a + off) k with
        | (s, .wait) => stallJob s c id
        | (s, .failed _ r) =>
          -- the bytes it could not read are written as poison (11 R301)
          let s := match dst with
            | .hpa d _ => jobWrite s c j (d + off) (List.replicate (len - off) 0) (fun _ => true)
            | _ => s
          failJob s c id r
        | (s, .ok _) =>
          match hostData host k with
          | none => moverError s c id ecAccessError (a + off)
          | some (b, bad) => go (tlpPoison s (badIn bad 0 k)) b bad (hostDrop host k)

/-- What refuses a job its range, if it is a local one. -/
def rangeRefusal (s : State) (j : MoverJob) (m : MoveAddr) (write : Bool) (n : Nat) : Option Nat :=
  match m with
  | .hpa a _ => jobRefusal s j write a n
  | _ => none

def moveBase : MoveAddr → Nat
  | .hpa a _ => a
  | .host a => a
  | .bad => 0

/-- COPY. -/
def execCopy (cellar job : Nat) (host : Fetch) (s : State) : Host.Outcome State Fault Refusal :=
  .next (runJob s cellar job 0x01 (fun s j b =>
    let len := bbits b 192 32
    let src := srcAddr s j b
    let dst := dstAddr s j b
    if bbits b 48 16 ≠ 0 ∨ bbits b 224 160 ≠ 0 ∨ bbits b 448 64 ≠ 0 ∨ crosses src len ∨ crosses dst len then
      endJob s cellar job 2 0 0 0
    else
      match rangeRefusal s j src false len, rangeRefusal s j dst true len with
      | some code, _ => moverError s cellar job code (moveBase src)
      | none, some code => moverError s cellar job code (moveBase dst)
      | none, none =>
        match (match src with | .hpa a _ => ensureRemote s cellar j a len | _ => (s, true)) with
        | (s, false) => s
        | (s, true) => copyFrom (len / 2048 + 4) s cellar j (jobPasid b) src dst len j.progress j.srcPoison host))

/-- The bytes of a pattern repeated. -/
def patternBytes (p n : Nat) : Bytes := (List.range n).map (fun i => BitVec.ofNat 8 (bits p (8 * (i % 8)) 8))

/-- Fill from `off` on. -/
def fillFrom (fuel : Nat) (s : State) (c : Nat) (j : MoverJob) (pasid p : Nat) (dst : MoveAddr) (len off : Nat) : State :=
  match fuel with
  | 0 => s
  | fuel + 1 =>
    if len ≤ off then endJob s c (jobId j) 0 (len / 64) 0 0
    else
      let k := pieceSize dst dst off len
      -- a piece that begins inside a pattern takes the pattern from there
      let b := ((patternBytes p (off % 8 + k)).drop (off % 8)).take k
      match putBytes s c j pasid dst off b (fun _ => false) with
      | (s, true) =>
        fillFrom fuel (modJob s c (jobId j) (fun j => { j with progress := off + k, stalled := false })) c j pasid p dst len (off + k)
      | (s, false) => s

/-- FILL: [127:64] holds the pattern, so that its marks have no field. -/
def execFill (cellar job : Nat) (s : State) : Host.Outcome State Fault Refusal :=
  .next (runJob s cellar job 0x02 (fun s j b =>
    let len := bbits b 192 32
    let dst := dstAddr s j b
    if bbits b 48 16 ≠ 0 ∨ bbits b 224 160 ≠ 0 ∨ bbits b 448 64 ≠ 0 ∨ bbits b 8 1 ≠ 0 ∨ bbits b 10 1 ≠ 0
        ∨ len % 8 ≠ 0 ∨ crosses dst len then endJob s cellar job 2 0 0 0
    else
      match rangeRefusal s j dst true len with
      | some code => moverError s cellar job code (moveBase dst)
      | none => fillFrom (len / 2048 + 4) s cellar j (jobPasid b) (bbits b 64 64) dst len j.progress))

/-! ### The sparse operations (06 R155–R166) -/

/-- Two local ranges, or two host ranges, overlap. -/
def moveOverlap (x : MoveAddr) (n : Nat) (y : MoveAddr) (m : Nat) : Bool :=
  match x, y with
  | .hpa a _, .hpa b _ => overlaps a n b m
  | .host a, .host b => overlaps a n b m
  | _, _ => false

/-- How far a list of writes reaches. -/
def writesEnd (l : List (Nat × Bytes × Bool)) : Nat := maxOf (l.map (fun w => w.1 + w.2.1.length))

/-- The writes of a sparse operation to host pages. -/
def putSparseHost (s : State) (c : Nat) (j : MoverJob) (pasid a : Nat) (l : List (Nat × Nat × Nat)) (writes : List (Nat × Bytes × Bool)) : State :=
  forEach writes s (fun s w =>
    let pages := l.filterMap (fun (e : Nat × Nat × Nat) =>
      let lo := max e.1 (a + w.1)
      let hi := min (e.1 + e.2.2) (a + w.1 + w.2.1.length)
      if lo < hi then some (lo, e.2.1 + (lo - e.1), hi - lo) else none)
    hostPut s c j pasid pages w.2.1 (fun _ => w.2.2))

/-- Write the ZMAP words of a sparse operation, and end it with its result. -/
def endSparse (s : State) (c : Nat) (j : MoverJob) (zmapAddr : Nat) (o : SparseOut) : State :=
  endJob (forEach o.zmap s (fun s w => jobWrite s c j (zmapAddr + w.1) (leBytes 8 w.2) (fun _ => false))) c (jobId j) o.code o.done
    o.aux0 o.aux1

/-- Put the writes of a sparse operation at its destination, once its ranges are at hand. -/
def putSparseAt (s : State) (c : Nat) (j : MoverJob) (b : Bytes) (dst : MoveAddr) (zmapAddr n : Nat) (o : SparseOut) : State :=
  match dst with
  | .bad => s
  | .hpa a _ => endSparse (forEach o.writes s (fun s w => jobWrite s c j (a + w.1) w.2.1 (fun _ => w.2.2))) c j zmapAddr o
  | .host a =>
    match hostRange s c j (jobPasid b) true a n with
    | (s, .wait) => stallJob s c (jobId j)
    | (s, .failed _ r) => failJob s c (jobId j) r
    | (s, .ok l) => endSparse (putSparseHost s c j (jobPasid b) a l o.writes) c j zmapAddr o

/-- Put the writes of a sparse operation, and its ZMAP words, and end with its result. -/
def putSparse (s : State) (c : Nat) (j : MoverJob) (b : Bytes) (dst : MoveAddr) (zmapAddr : Nat) (o : SparseOut) : State :=
  let id := jobId j
  let n := writesEnd o.writes
  let z := if o.zmap.isEmpty then 0 else maxOf (o.zmap.map (fun w => w.1 + 8))
  if crosses dst n then endJob s c id 2 0 0 0
  else
    match rangeRefusal s j dst true n, jobRefusal s j true zmapAddr z with
    | some code, _ => moverError s c id code (moveBase dst)
    | none, some code => moverError s c id code zmapAddr
    | none, none => putSparseAt s c j b dst zmapAddr n o

/-- The input of a sparse operation: a reader of bytes and of poison for a range, once the range is at hand. -/
inductive SparseIn where
  | ready (rd : Nat → Nat) (pz : Nat → Nat → Bool)
  | wait
  | ended

/-- Bring the input of a sparse operation to hand: `n` bytes at the source.  `host` holds the whole host range. -/
def sparseIn (s : State) (c : Nat) (j : MoverJob) (b : Bytes) (src : MoveAddr) (n : Nat) (host : Fetch) : State × SparseIn :=
  let id := jobId j
  match src with
  | .bad => (endJob s c id 2 0 0 0, .ended)
  | .hpa a _ =>
    match rangeRefusal s j src false n with
    | some code => (moverError s c id code a, .ended)
    | none =>
      match ensureRemote s c j a n with
      | (s, false) => (s, .wait)
      | (s, true) => (s, .ready (fun x => (jobByte s c j x).1.toNat) (fun x k => jobPoison s c j x k))
  | .host a =>
    match hostRange s c j (jobPasid b) false a n with
    | (s, .wait) => (stallJob s c id, .wait)
    | (s, .failed _ r) => (failJob s c id r, .ended)
    | (s, .ok _) =>
      match hostData host n with
      | none => (moverError s c id ecAccessError a, .ended)
      | some (d, bad) => (tlpPoison s (badIn bad 0 n), .ready (fun x => (nth d (x - a) 0).toNat) (fun x k => badIn bad (x - a) k))

/-- COMPRESS. -/
def execCompress (cellar job : Nat) (host : Fetch) (s : State) : Host.Outcome State Fault Refusal :=
  .next (runJob s cellar job 0x20 (fun s j b =>
    let src := srcAddr s j b
    let dst := dstAddr s j b
    let cap := bbits b 192 64
    let rows := bbits b 256 32
    let bpr := bbits b 288 16
    match fmtOf (bbits b 304 4) with
    | none => endJob s cellar job 2 0 0 0
    | some f =>
      let n := rows * denseStride f bpr
      if bbits b 48 16 ≠ 0 ∨ bbits b 308 76 ≠ 0 ∨ bbits b 448 64 ≠ 0 ∨ rows = 0 ∨ bpr = 0 ∨ 4096 < bpr
          ∨ crosses src n ∨ crosses dst 0 then endJob s cellar job 2 0 0 0
      else if moveOverlap src n dst cap then endJob s cellar job 4 0 0 0
      else
        match sparseIn s cellar j b src n host with
        | (s, .ready rd pz) => putSparse s cellar j b dst 0 (compressTensor rd pz f bpr rows (moveBase src) cap)
        | (s, _) => s))

/-- DECOMPRESS; DST 0 writes ZMAP words only, and ZMAP_ADDR 0 none.  Where more than one condition holds, the spec gives
no order: the model checks the header, then the overlap and the access of the whole declared range, then the index, and
a poisoned header ends it with POISONED, DONE 0 and nothing written (assumption log entry 74). -/
def execDecompress (cellar job : Nat) (host : Fetch) (s : State) : Host.Outcome State Fault Refusal :=
  .next (runJob s cellar job 0x21 (fun s j b =>
    let src := srcAddr s j b
    let dense := bbits b 128 64 ≠ 0
    let dst := if dense then dstAddr s j b else .hpa 0 none
    let cap := bbits b 192 64
    let zmapAddr := bbits b 320 64
    if bbits b 48 16 ≠ 0 ∨ bbits b 256 64 ≠ 0 ∨ bbits b 448 64 ≠ 0 ∨ crosses src 64 ∨ crosses dst 0 then
      endJob s cellar job 2 0 0 0
    else
      match sparseIn s cellar j b src 64 host with
      | (s, .ready rd pz) =>
        let h := tensorHead rd (moveBase src)
        if pz (moveBase src) 64 then endJob s cellar job 3 0 0 0
        else if headBad h then endJob s cellar job 2 0 0 0
        else
          let n := max 64 (max (h.indexOff + 8 * (h.rows + 1)) (h.dataOff + h.dataBytes))
          if crosses src n then endJob s cellar job 2 0 0 0
          else if dense && moveOverlap src n dst cap then endJob s cellar job 4 0 0 0
          else
            match sparseIn s cellar j b src n host with
            | (s, .ready rd pz) =>
              let o := decompressTensor rd pz (moveBase src) cap dense
              putSparse s cellar j b dst zmapAddr (if zmapAddr = 0 then { o with zmap := [] } else o)
            | (s, _) => s
      | (s, _) => s))

/-- The index list of a GATHER. -/
def gatherIndices (rd : Nat → Nat) (a w count : Nat) : List Nat := (List.range count).map (fun i => rdLe rd (a + i * w) w)

/-- The part of [a, a + n) that lies in line l: a full line of a shelf by a line read, a part of one by narrow reads of its
sectors (R165), any other place as a remote range. -/
def fetchLine (s : State) (c : Nat) (j : MoverJob) (a n l : Nat) : State × Bool :=
  let lo := max a (l * 128)
  let len := min (a + n) (l * 128 + 128) - lo
  match placeOf s (l * 128) with
  | .shelf _ =>
    if len = 128 then fetchPiece s c j .read lo 128
    else (List.range (len / 32)).foldl (fun (r : State × Bool) i =>
      let q := fetchPiece r.1 c j .narrow (lo + 32 * i) 32
      (q.1, r.2 && q.2)) (s, true)
  | _ => ensureRemote s c j lo len

/-- Fetch a row of a GATHER's table (R165): on a shelf its 32-byte sectors over the narrow path, but a line that it covers
whole as one line read; elsewhere the lines that hold it. -/
def fetchRow (s : State) (c : Nat) (j : MoverJob) (a n : Nat) : State × Bool :=
  (linesOf a n).foldl (fun (r : State × Bool) l =>
    let q := fetchLine r.1 c j a n l
    (q.1, r.2 && q.2)) (s, true)

/-- Rows of a run at hand: `false` while one is fetched or its page waits, or when the descriptor has failed. -/
def gatherReady (s : State) (c : Nat) (j : MoverJob) (b : Bytes) (src : MoveAddr) (row : Nat) (rows : List Nat) : State × Bool :=
  rows.foldl (fun (r : State × Bool) x =>
    let (s, ok) := r
    let id := jobId j
    if (jobFind s c id).isNone then (s, false)
    else
      match src with
      | .bad => (s, false)
      | .host a =>
        match hostRange s c j (jobPasid b) false (a + x * row) row with
        | (s, .wait) => (stallJob s c id, false)
        | (s, .failed _ ref) => (failJob s c id ref, false)
        | (s, .ok _) => (s, ok)
      | .hpa a _ =>
        match jobRefusal s j false (a + x * row) row with
        | some code => (moverError s c id code (a + x * row), false)
        | none => let q := fetchRow s c j (a + x * row) row; (q.1, ok && q.2)) (s, true)

/-- The bytes and the poison of the rows of a run, each fetched once (R166). -/
def gatherRows (s : State) (c : Nat) (j : MoverJob) (src : MoveAddr) (row : Nat) (rows : List Nat) (host : Fetch) :
    Option (Bytes × (Nat → Bool)) :=
  match src with
  | .hpa a _ =>
    some (rows.flatMap (fun x => jobRead s c j (a + x * row) row), fun i => (jobByte s c j (a + nth rows (i / row) 0 * row + i % row)).2)
  | _ => hostData host (rows.length * row)

/-- The fields of a GATHER that every run of 32 indices needs. -/
structure GatherPlan where
  src : MoveAddr := .bad
  dst : MoveAddr := .bad
  row : Nat := 32
  limit : Nat := 0
  idx : Nat := 0
  idxBytes : Nat := 0
  indices : List Nat := []
  deriving DecidableEq, Repr, Inhabited

/-- Serve the runs of 32 indices in order, from the one the job stands at, until one is not at hand.  A run's rows are
fetched for it alone; `host` holds, for a table in host memory, the rows of the runs, each distinct row of a run once. -/
def gatherRuns (fuel : Nat) (s : State) (c id : Nat) (b : Bytes) (g : GatherPlan) (host : Fetch) : State :=
  match fuel, jobFind s c id with
  | fuel + 1, some j =>
    let run := (g.indices.drop (32 * j.progress)).take 32
    if run.isEmpty then
      endJob s c id (if j.srcPoison then 3 else 0) g.indices.length (g.indices.filter (g.limit ≤ ·)).length
        (sum ((runsOf32 g.indices).map (savedFetches g.limit)))
    else
      let rows := (run.filter (· < g.limit)).eraseDups
      match gatherReady s c j b g.src g.row rows with
      | (s, false) => s
      | (s, true) =>
        match gatherRows s c j g.src g.row rows host with
        | none => moverError s c id ecAccessError (moveBase g.src)
        | some (d, bad) =>
          let s := match g.src with | .host _ => tlpPoison s (badIn bad 0 d.length) | _ => s
          let at_ := fun (x : Nat) => rows.findIdx? (· == x)
          let out := run.flatMap (fun x => match at_ x with
            | some i => (d.drop (i * g.row)).take g.row
            | none => List.replicate g.row 0)
          let pz := fun (i : Nat) => match at_ (nth run (i / g.row) g.limit) with
            | some k => bad (k * g.row + i % g.row)
            | none => false
          match putBytes s c j (jobPasid b) g.dst (32 * j.progress * g.row) out pz with
          | (s, false) => s
          | (s, true) =>
            let keep := fun (e : Nat × Byte) => g.idx / 128 * 128 ≤ e.1 && e.1 < roundUp (g.idx + g.idxBytes) 128
            let s := modJob s c id (fun j => { j with
              progress := j.progress + 1, stalled := false, srcPoison := j.srcPoison || badIn pz 0 out.length
              stage := j.stage.filter keep })
            gatherRuns fuel s c id b g (hostDrop host (rows.length * g.row))
  | _, _ => s

/-- GATHER.  A poisoned index list ends it with POISONED, DONE 0 and nothing written: the spec does not speak of one
(assumption log entry 74). -/
def execGather (cellar job : Nat) (host : Fetch) (s : State) : Host.Outcome State Fault Refusal :=
  .next (runJob s cellar job 0x22 (fun s j b =>
    let src := srcAddr s j b
    let dst := dstAddr s j b
    let idxAddr := bbits b 192 64
    let count := bbits b 256 32
    let units := bbits b 288 16
    let w := if bbits b 304 1 = 1 then 8 else 4
    let limit := bbits b 320 64
    let row := units * 32
    if bbits b 48 16 ≠ 0 ∨ bbits b 305 15 ≠ 0 ∨ bbits b 448 64 ≠ 0 ∨ count = 0 ∨ 65536 < count ∨ units = 0 ∨ 1024 < units
        ∨ moveBase src % 32 ≠ 0 ∨ crosses src 0 ∨ crosses dst (count * row) then endJob s cellar job 2 0 0 0
    else
      match sparseIn s cellar j b (.hpa idxAddr none) (count * w) host with
      | (s, .ready rd pz) =>
        let l := gatherIndices rd idxAddr w count
        let inRange := l.filter (· < limit)
        if pz idxAddr (count * w) then endJob s cellar job 3 0 0 0
        else if crosses src (if inRange.isEmpty then 0 else (maxOf inRange + 1) * row) then endJob s cellar job 2 0 0 0
        else
          match rangeRefusal s j dst true (count * row) with
          | some code => moverError s cellar job code (moveBase dst)
          | none => gatherRuns (count / 32 + 2) s cellar job b {
              src := src, dst := dst, row := row, limit := limit, idx := idxAddr, idxBytes := count * w, indices := l } host
      | (s, _) => s))

/-! ### The end of a descriptor (06 R162, 09 Table 9-8) -/

/-- COPY and FILL write no result at RESULT_ADDR 0. -/
def writesResult (b : Bytes) : Bool := !(bbits b 0 8 == 1 || bbits b 0 8 == 2) || bbits b 384 64 != 0

/-- MOVER_DESCRIPTOR_DONE: after every other write the result is written, then the completion peg is signalled. -/
def execMoverDescriptorDone (cellar job : Nat) (s : State) : Host.Outcome State Fault Refusal :=
  match jobFind s cellar job with
  | none => .next s
  | some j =>
    match j.result with
    | none => .next s
    | some res =>
      let b := jobBody s j
      let a := bbits b 384 64
      if jobBusy s cellar j then .next s
      else if !j.posted ∧ writesResult b then
        match jobRefusal s j true a 16 with
        | some code => .next (moverError s cellar job code a)
        | none => .next (settleJob (modJob (jobWrite s cellar j a res (fun _ => false)) cellar job (fun j => { j with posted := true })) j b)
      else .next (settleJob s j b)
where
  /-- The descriptor ends once its writes are at home and its peg operation may pass its port. -/
  settleJob (s : State) (j : MoverJob) (b : Bytes) : State :=
    if jobBusy s cellar j || (bbits b 46 1 == 1 && !pegPasses s (jobMaster s cellar j.step) (bbits b 32 14)) then s
    else finishJob s cellar job b
  /-- The peg is signalled with count 1, and the part has ended. -/
  finishJob (s : State) (c id : Nat) (b : Bytes) : State :=
    let peg := bbits b 32 14
    let part := match jobFind s c id with | some j => stepPart s j.step | none => 0
    if bbits b 46 1 = 0 then removeJob s c id
    else if pegAllowed s part peg then
      pegSignalOp (removeJob (match jobFind s c id with | some j => notePeg s (jobMaster s c j.step) peg | none => s) c id) peg 1
    else moverError s c id ecAccessError 0

end Sys2Proof.Machine
end

