-- ==== Sys2Proof/Machine/Maintain.lean ====
section
/-! DEFINITION. Maintenance of core stores and cellar buffers by mover descriptors, and way locking (spec 07 R202–R208). -/
namespace Sys2Proof.Machine

/-- A maintenance descriptor (07 Table 7-2). -/
structure Maint where
  addr : Nat := 0
  length : Nat := 0
  coreTarget : Bool := false
  byWay : Bool := false
  core : Nat := 0
  bank : Nat := 0
  set : Nat := 0
  way : Nat := 0
  wayMask : Nat := 0
  deriving DecidableEq, Repr, Inhabited

def maintOf (b : Bytes) : Maint :=
  { addr := bbits b 64 64, length := bbits b 128 64, coreTarget := bbits b 192 1 == 1, byWay := bbits b 193 1 == 1
    core := bbits b 194 6, bank := bbits b 200 4, set := bbits b 204 8, way := bbits b 212 4, wayMask := bbits b 216 16 }

/-- The descriptor is malformed (R203, 09 R255): an address mark, a reserved bit, a field out of range, or a core that the
step does not hold. -/
def maintBad (s : State) (c : Nat) (j : MoverJob) (b : Bytes) (lock : Bool) : Bool :=
  let m := maintOf b
  let k := c * 64 + m.core
  bbits b 8 4 != 0 || bbits b 48 16 != 0 || bbits b 232 152 != 0 || bbits b 448 64 != 0
    || (m.coreTarget && (lock || (coreOf s k).step != some j.step))
    || (m.byWay && (m.length != 0 || lock || (m.coreTarget && (128 ≤ m.set || 12 ≤ 4 * (coreOf s k).scratchUnits + m.way))))

/-- The keys of the lines that a descriptor selects in a table: those of its range, or the one of its set and way. -/
def maintKeys (t : Tab CacheLine) (m : Maint) (wayKey : Nat) : List Nat :=
  if m.byWay then tkeys (t.filter (fun e => e.1 == wayKey))
  else tkeys (t.filter (fun e => m.length != 0 && m.addr < (e.2.line + 1) * 128 && e.2.line * 128 < m.addr + m.length))

/-- Fills in flight for the selected lines: not to be installed, or to be cleaned after their install (Table 7-5). -/
def markFills (t : Tab Fill) (m : Maint) (clean : Bool) : Tab Fill :=
  tmap t (fun _ f =>
    if !m.byWay && m.length != 0 && m.addr < (f.line + 1) * 128 && f.line * 128 < m.addr + m.length then
      (if clean then { f with cleanAfter := true } else { f with suppress := true })
    else f)

/-- A BY_WAY operation whose line has a fill in flight waits for the install (Table 7-5). -/
def wayFilling (lines : Tab CacheLine) (fills : Tab Fill) (m : Maint) (wayKey : Nat) : Bool :=
  m.byWay && filling fills (tfind lines wayKey)

/-- The key of the set and way that a BY_WAY descriptor names, in its target. -/
def maintWayKey (s : State) (c : Nat) (m : Maint) : Nat :=
  if m.coreTarget then (4 * (coreOf s (c * 64 + m.core)).scratchUnits + m.way) * 128 + m.set
  else (m.bank * 16 + m.way) * 256 + m.set

/-- The descriptor waits for a fill. -/
def maintWaits (s : State) (c : Nat) (m : Maint) : Bool :=
  if m.coreTarget then
    wayFilling (coreOf s (c * 64 + m.core)).lines (coreOf s (c * 64 + m.core)).fills m (maintWayKey s c m)
  else wayFilling (cellarOf s c).lines (cellarOf s c).fills m (maintWayKey s c m)

/-- A line whose fill has not come holds nothing yet, and counts as no line. -/
def lineCounts (l : CacheLine) : Nat := b2n (l.valid != 0)

/-- Counts of a maintenance operation. -/
structure MaintCount where
  lines : Nat := 0
  skipped : Nat := 0
  aux : Nat := 0
  deriving DecidableEq, Repr, Inhabited

/-- One selected line of the cellar's buffer: dirty bytes are written or discarded, and the line stays clean, goes, or is
skipped when its way is locked (R208). -/
def maintCellarLine (s : State) (c key : Nat) (client : Client) (write drop : Bool) (n : MaintCount) : State × MaintCount :=
  let l := tget (cellarOf s c).lines key {}
  let dirty := l.dirty ≠ 0
  let locked := bitAt (cellarOf s c).lockedWays (keyWay key)
  let put := fun (s : State) => (writeHome s c l.line (dirtyBytes l) l.poison client).1
  if drop ∧ locked then
    let n := { n with skipped := n.skipped + lineCounts l, aux := n.aux + (if write ∧ dirty then 1 else 0) }
    if write ∧ dirty then (put (setCellarLine s c key { l with dirty := 0 }), n) else (s, n)
  else
    let n := { n with lines := n.lines + lineCounts l, aux := n.aux + (if dirty then 1 else 0) }
    let s := if drop then modCellar s c (fun cl => { cl with lines := tdel cl.lines key })
             else setCellarLine s c key { l with dirty := 0 }
    (if write ∧ dirty then put s else s, n)

/-- One selected line of a core's store. -/
def maintCoreLine (s : State) (k key : Nat) (client : Client) (write drop : Bool) (n : MaintCount) : State × MaintCount :=
  let l := tget (coreOf s k).lines key {}
  let dirty := l.dirty ≠ 0
  let n := { n with lines := n.lines + lineCounts l, aux := n.aux + (if dirty then 1 else 0) }
  let s := if drop then modCore s k (fun x => { x with lines := tdel x.lines key }) else setCoreLine s k key { l with dirty := 0 }
  (if write ∧ dirty then cleanToHome s (k / 64) l.line (dirtyBytes l) l.poison client else s, n)

/-- CLEAN, INVAL and CLEAN_INVAL: on the selected lines of the target. -/
def maintain (s : State) (c : Nat) (j : MoverJob) (b : Bytes) (write drop : Bool) : State :=
  let id := jobId j
  let m := maintOf b
  if maintBad s c j b false then endJob s c id 2 0 0 0
  else if maintWaits s c m then s
  else
    match (if m.byWay then none else jobRefusal s j false m.addr m.length) with
    | some code => moverError s c id code m.addr
    | none =>
      let client := Client.moverWrite c j.step j.part
      let (s, n) :=
        if m.coreTarget then
          let k := c * 64 + m.core
          let keys := maintKeys (coreOf s k).lines m (maintWayKey s c m)
          let s := modCore s k (fun x => { x with fills := markFills x.fills m (!drop) })
          keys.foldl (fun (r : State × MaintCount) key => maintCoreLine r.1 k key client write drop r.2) (s, {})
        else
          let keys := maintKeys (cellarOf s c).lines m (maintWayKey s c m)
          let s := modCellar s c (fun x => { x with fills := markFills x.fills m (!drop) })
          keys.foldl (fun (r : State × MaintCount) key => maintCellarLine r.1 c key client write drop r.2) (s, {})
      endJob s c id 0 n.lines n.skipped n.aux

/-- CLEAN_INVAL of a range in every core store and cellar buffer, by the larder at a page's move and at a sequence's close.  It
follows R208: locked lines stay, cleaned.  The operation is the model's choice; the spec names none. -/
def cleanEverywhere (s : State) (a n : Nat) : State :=
  let m : Maint := { addr := a, length := n }
  let s := forEach s.cells.cores s (fun s e =>
    let s := modCore s e.1 (fun x => { x with fills := markFills x.fills m false })
    forEach (maintKeys e.2.lines m 0) s (fun s key => (maintCoreLine s e.1 key .none true true {}).1))
  forEach (tkeys s.cells.cellars) s (fun s c =>
    let s := modCellar s c (fun x => { x with fills := markFills x.fills m false })
    forEach (maintKeys (cellarOf s c).lines m 0) s (fun s key => (maintCellarLine s c key .none true true {}).1))

/-- CLEAN. -/
def execClean (cellar job : Nat) (s : State) : Host.Outcome State Fault Refusal :=
  .next (runJob s cellar job 0x30 (fun s j b => maintain s cellar j b true false))

/-- INVAL. -/
def execInval (cellar job : Nat) (s : State) : Host.Outcome State Fault Refusal :=
  .next (runJob s cellar job 0x31 (fun s j b => maintain s cellar j b false true))

/-- CLEAN_INVAL. -/
def execCleanInval (cellar job : Nat) (s : State) : Host.Outcome State Fault Refusal :=
  .next (runJob s cellar job 0x32 (fun s j b => maintain s cellar j b true true))

/-! ### Way locking (R205, R206) -/

/-- The locks may be set: at least 4 ways stay allocatable in every cache bank, and at most 12 are locked. -/
def lockAllowed (cl : Cellar) (mask : Nat) : Bool :=
  popCount mask 16 ≤ 12
    && (cacheBanks cl).all (fun b => 4 ≤ ((List.range 16).filter (fun w =>
        !bitAt mask w && !bitAt (tget cl.banks b {}).disabledWays w)).length)

/-- The lowest locked way of a line's set that holds no line. -/
def lockedPlace (cl : Cellar) (line : Nat) : Option Nat :=
  match bankOf cl line with
  | none => none
  | some b =>
    ((List.range 16).filter (fun w => bitAt cl.lockedWays w && !bitAt (tget cl.banks b {}).disabledWays w)).map
      (fun w => cellarKey b w line) |>.find? (fun key => (tfind cl.lines key).isNone)

/-- Place one line of a preload range.  `aux` counts lines not placed, `lines` present lines that become locked. -/
def preloadLine (s : State) (c : Nat) (j : MoverJob) (line : Nat) (n : MaintCount) : State × MaintCount :=
  let cl := cellarOf s c
  match cellarFind cl line, lockedPlace cl line with
  | some key, free =>
    if bitAt cl.lockedWays (keyWay key) then (s, n)
    else
      match free with
      | none => (s, { n with aux := n.aux + 1 })
      | some dest =>
        let l := tget cl.lines key {}
        (setCellarLine (modCellar s c (fun x => { x with lines := tdel x.lines key })) c dest { l with age := 0, stream := false },
          { n with lines := n.lines + lineCounts l })
  | none, some dest =>
    if !cellarCaches (placeOf s (line * 128)) then (s, { n with aux := n.aux + 1 })
    else
      let d := (List.range 128).map (fun i => (i, (jobByte s c j (line * 128 + i)).1))
      let pz := maskOf ((List.range 4).filter (fun q => (jobByte s c j (line * 128 + 32 * q)).2))
      (setCellarLine s c dest { line := line, valid := fullMask, data := d, poison := pz }, n)
  | none, none => (s, { n with aux := n.aux + 1 })

/-- Lines of a cellar's buffer in the ways of a mask. -/
def linesInWays (cl : Cellar) (mask : Nat) : Nat := sum ((cl.lines.filter (fun e => bitAt mask (keyWay e.1))).map (fun e => lineCounts e.2))

/-- WAY_LOCK. -/
def execWayLock (cellar job : Nat) (s : State) : Host.Outcome State Fault Refusal :=
  .next (runJob s cellar job 0x33 (fun s j b =>
    let m := maintOf b
    let cl := cellarOf s cellar
    let mask := Nat.lor cl.lockedWays m.wayMask
    if maintBad s cellar j b true || !lockAllowed cl mask then endJob s cellar job 2 0 0 0
    else
      match jobRefusal s j false m.addr m.length with
      | some code => moverError s cellar job code m.addr
      | none =>
        match ensureRemote s cellar j m.addr m.length with
        | (s, false) => s
        | (s, true) =>
          let added := Nat.land m.wayMask (2 ^ 16 - 1 - cl.lockedWays)
          let s := modCellar s cellar (fun x => { x with lockedWays := mask })
          let (s, n) := (linesOf m.addr m.length).foldl (fun (r : State × MaintCount) l =>
            preloadLine r.1 cellar j l r.2) (s, { lines := linesInWays cl added })
          endJob s cellar job 0 n.lines 0 n.aux))

/-- WAY_UNLOCK. -/
def execWayUnlock (cellar job : Nat) (s : State) : Host.Outcome State Fault Refusal :=
  .next (runJob s cellar job 0x34 (fun s j b =>
    let m := maintOf b
    let cl := cellarOf s cellar
    if maintBad s cellar j b true then endJob s cellar job 2 0 0 0
    else
      let gone := Nat.land cl.lockedWays m.wayMask
      let s := modCellar s cellar (fun x => { x with lockedWays := Nat.xor cl.lockedWays gone })
      endJob s cellar job 0 (linesInWays cl gone) 0 0))

end Sys2Proof.Machine
end

