-- ==== Sys2Proof/Machine/Routing.lean ====
section
/-! DEFINITION. The routing engines: choosing experts, lists, capacity and carry, dispatch, and combining (spec 06
R168–R185). -/
namespace Sys2Proof.Machine

/-! ### Descriptors and tables (Tables 6-7 and 6-8) -/

/-- A ROUTE descriptor. -/
structure RouteDesc where
  preselected : Bool := false
  scoreF32 : Bool := false
  k : Nat := 1
  softmax : Bool := false
  carry : Bool := false
  carryMax : Nat := 0
  tokenFmt : Fmt := .bf16
  tokens : Nat := 1
  experts : Nat := 1
  rowBytes : Nat := 64
  outBytes : Nat := 64
  resF32 : Bool := true
  outF32 : Bool := true
  gate : Nat := 0
  token : Nat := 0
  table : Nat := 0
  list : Nat := 0
  stage : Nat := 0
  outAddr : Nat := 0
  seqMap : Nat := 0
  result : Nat := 0
  listedPeg : Nat := 0
  dispatchedPeg : Nat := 0
  resolvedPeg : Nat := 0
  deriving DecidableEq, Repr, Inhabited

/-- FP32 or BF16, from a format field. -/
def f32Field (x : Nat) : Option Bool := if x = 9 then some true else if x = 8 then some false else none

/-- Read a descriptor; `none` when a value is reserved or out of range (R169). -/
def routeDesc (b : Bytes) : Option RouteDesc :=
  let f := fun lo w => bbits b lo w
  let bad := f 0 8 != 0x10 || f 22 2 != 0 || f 28 4 != 0 || f 58 6 != 0 || f 104 24 != 0 || f 736 288 != 0
    || f 13 4 = 0 || 8 < f 13 4 || (f 17 1 == 1 && f 8 1 == 1) || (f 18 1 == 1) != (f 19 3 != 0)
    || f 64 16 = 0 || 256 < f 64 16 || f 80 16 = 0 || 256 < f 80 16
  match f32Field (f 9 4), fmtOf (f 24 4), f32Field (f 96 4), f32Field (f 100 4) with
  | some score, some tok, some res, some out =>
    if bad then none
    else some {
      preselected := f 8 1 == 1, scoreF32 := score, k := f 13 4, softmax := f 17 1 == 1, carry := f 18 1 == 1
      carryMax := f 19 3, tokenFmt := tok, tokens := f 32 16 + 1, experts := f 48 10 + 1, rowBytes := f 64 16 * 64
      outBytes := f 80 16 * 64, resF32 := res, outF32 := out, gate := f 128 64, token := f 192 64, table := f 256 64
      list := f 320 64, stage := f 384 64, outAddr := f 448 64, seqMap := f 512 64, result := f 576 64
      listedPeg := f 640 32, dispatchedPeg := f 672 32, resolvedPeg := f 704 32 }
  | _, _, _, _ => none

/-- Bytes of the gate's row of one token. -/
def gateRow (d : RouteDesc) : Nat := if d.preselected then d.k * 8 else d.experts * (if d.scoreF32 then 4 else 2)

/-- L, the longest list phase (R180). -/
def listCycles (d : RouteDesc) (carryCap : Nat) : Nat :=
  let size := if d.scoreF32 then 4 else 2
  (d.tokens * d.experts * size + 511) / 512 + 2 * ((d.k * d.tokens + (if d.carry then carryCap else 0) + 31) / 32)
    + (d.experts + 63) / 64 + 64

/-- An entry of an expert table. -/
structure Expert where
  kind : Nat := 0
  target : Nat := 0
  capacity : Nat := 0
  recv : Nat := 0
  res : Nat := 0
  zmap : Nat := 0
  deriving DecidableEq, Repr, Inhabited

/-- The entries of a table of `n` experts, read through `rd`. -/
def expertsOf (rd : Nat → Nat) (table n : Nat) : List Expert :=
  (List.range n).map (fun i =>
    let x := rdLe rd (table + 64 + i * 32) 32
    { kind := bits x 0 2, target := bits x 8 8, capacity := bits x 16 16, recv := bits x 64 64, res := bits x 128 64
      zmap := bits x 192 64 })

/-- RECV_ADDR lies in the target's range (R170). -/
def recvOk (s : State) (d : RouteDesc) (e : Expert) : Bool :=
  let inside := fun (a : Nat) =>
    match e.kind, placeOf s a with
    | 1, .scratch c => c == e.target
    | 2, .attic t => t == e.target
    | 3, .peer w => w == e.target
    | _, _ => false
  e.kind == 0 || (inside e.recv && (e.capacity == 0 || inside (e.recv + e.capacity * d.rowBytes - 1)))

/-! ### Choosing experts (R171–R174) -/

/-- The experts of a token under SCORES, by rank: largest score first, ties to the lower index; NaN never. -/
def rankScores (l : List Nat) (k : Nat) : List (Nat × Nat) :=
  let cand := (l.zipIdx.filter (fun p => f32 p.1 != .nan)).map (fun p => (p.2, p.1))
  (cand.mergeSort (fun a b => !ltNum (f32 a.2) (f32 b.2))).take k

/-- The weights of the selected scores under SOFTMAX. -/
def softmaxWeights (l : List Nat) : List Nat :=
  match l with
  | [] => []
  | m :: _ =>
    if f32 m = .inf true then
      l.map (fun _ => divF32 0x3F800000 (encodeFp fp32 (.fin false l.length 0)))
    else
      let u := l.map (fun x => exp2F32 (mulF32 (addF32 x (negF32 m)) 0x3FB8AA3B))
      let t := match u with | [] => 0 | a :: r => r.foldl addF32 a
      u.map (fun x => divF32 x t)

/-- What the choice gives one token: (rank, expert, weight), and how many inputs were bad. -/
def chooseToken (rd : Nat → Nat) (d : RouteDesc) (t : Nat) : List (Nat × Nat × Nat) × Nat :=
  let row := d.gate + t * gateRow d
  if d.preselected then
    (List.range d.k).foldl (fun (r : List (Nat × Nat × Nat) × Nat) i =>
      let x := rdLe rd (row + i * 8) 8
      let e := bits x 0 16
      if e = 0xFFFF then r
      else if d.experts ≤ e ∨ r.1.any (fun a => a.2.1 == e) then (r.1, r.2 + 1)
      else (r.1 ++ [(i, e, bits x 32 32)], r.2)) ([], 0)
  else
    let size := if d.scoreF32 then 4 else 2
    let scores := (List.range d.experts).map (fun e =>
      let x := rdLe rd (row + e * size) size
      if d.scoreF32 then x else x * 0x10000)
    let l := rankScores scores d.k
    let w := if d.softmax then softmaxWeights (l.map (·.2)) else l.map (·.2)
    ((l.zip w).zipIdx.map (fun p => (p.2, p.1.1.1, p.1.2)), 0)

/-- The sequence entry that a handle names in a partition, if it is open. -/
def openSeq (s : State) (part handle : Nat) : Option Sequence :=
  match tfind s.larder.seqs (handle % 65536) with
  | some q => if q.sstate = .opened ∧ q.generation = handle / 65536 ∧ q.part = part then some q else none
  | none => none

/-! ### Lists, capacity and overflow (R175–R178) -/

/-- Pass `a` is not after pass `b`; pass numbers wrap at 2^32, and passes kept together are few. -/
def passLe (a b : Nat) : Bool := decide ((b + 2 ^ 32 - a) % 2 ^ 32 < 2 ^ 31)

/-- Older passes first, then lower tokens, then lower ranks. -/
def entryLe (a b : RouteEntry) : Bool :=
  (a.origin != b.origin && passLe a.origin b.origin) || (a.origin == b.origin
    && (decide (a.token < b.token) || (a.token == b.token && decide (a.rank ≤ b.rank))))

/-- What the list phase decides. -/
structure RouteLists where
  /-- Accepted entries of each expert, in slot order. -/
  accepted : List (List RouteEntry) := []
  dropped : List RouteEntry := []
  expired : List RouteEntry := []
  carried : List RouteEntry := []
  deriving DecidableEq, Repr, Inhabited

/-- Candidates to lists: `carried` from earlier passes, `fresh` of this one. -/
def makeLists (d : RouteDesc) (ex : List Expert) (carryCap : Nat) (carried fresh : List RouteEntry) : RouteLists :=
  let per := ex.zipIdx.map (fun e =>
    let mine := fun (l : List RouteEntry) => (l.filter (fun x => x.expert == e.2)).mergeSort entryLe
    let cand := mine carried ++ mine fresh
    if e.1.kind = 0 then ([], cand, [])
    else
      (((cand.take e.1.capacity).zipIdx.map (fun (p : RouteEntry × Nat) =>
          { p.1 with slot := p.2, res := e.1.res + p.2 * d.outBytes })), [], cand.drop e.1.capacity))
  let disabled := per.flatMap (fun p => p.2.1)
  let surplus := per.flatMap (fun p => p.2.2)
  if !d.carry then { accepted := per.map (·.1), dropped := disabled ++ surplus }
  else
    let aged := surplus.map (fun (x : RouteEntry) => { x with age := x.age + 1 })
    let live := (aged.filter (fun x => x.age ≤ d.carryMax)).mergeSort entryLe
    { accepted := per.map (·.1), dropped := disabled ++ live.drop carryCap
      expired := aged.filter (fun x => d.carryMax < x.age), carried := live.take carryCap }

/-- Bits that tell which K blocks of an activation row hold a nonzero element (R179). -/
def rowBlocksSet (d : RouteDesc) (row : Bytes) : List Bool :=
  let w := fmtWidth d.tokenFmt
  let n := d.rowBytes * 8 / w
  let rd := fun a => (nth row a 0).toNat
  (List.range ((n + 63) / 64)).map (fun j =>
    (List.range 64).any (fun i => 64 * j + i < n && !elementZero d.tokenFmt (packed rd 0 w (64 * j + i))))

/-- The ZMAP words of an expert's receive buffer: (offset, word). -/
def zmapWords (d : RouteDesc) (e : Expert) (rows : List Bytes) : List (Nat × Nat) :=
  let blocks := (d.rowBytes * 8 / fmtWidth d.tokenFmt + 63) / 64
  let maps := rows.map (rowBlocksSet d)
  (List.range ((e.capacity + 63) / 64)).flatMap (fun g => (List.range blocks).map (fun j =>
    ((g * blocks + j) * 8, maskOf ((List.range 64).filter (fun m => nth (nth maps (64 * g + m) []) j false)))))

/-- The list area: counts and starts, then the entries. -/
def listArea (l : List (List RouteEntry)) : Bytes :=
  let starts := (List.range l.length).map (fun i => sum ((l.take i).map (·.length)))
  (l.zip starts).flatMap (fun p => leBytes 8 (p.1.length + field p.2 32 32))
    ++ l.flatten.flatMap (fun e => leBytes 8 (field e.token 0 16 + field e.rank 16 3 + field (b2n (e.age != 0)) 19 1
        + field e.age 20 3 + field e.origin 23 9 + field e.weight 32 32))

/-! ### State of the engines -/

def tableOf (s : State) (a : Nat) : RouteTable := tget s.larder.tables a {}
def modTable (s : State) (a : Nat) (f : RouteTable → RouteTable) : State :=
  { s with larder := { s.larder with tables := tmod s.larder.tables a {} f } }

/-- Signal an EVENT peg of a routing part; one the partition may not use is an access error (04 R108). -/
def routePeg (s : State) (c id peg : Nat) : State :=
  match jobFind s c id with
  | none => s
  | some j => if pegAllowed s (stepPart s j.step) peg then pegSignalOp (notePeg s (jobMaster s c j.step) peg) peg 1 else moverError s c id ecAccessError 0

/-- Ranges that a routing part reads, at hand: refused, waiting, or ready. -/
def routeReads (s : State) (c : Nat) (j : MoverJob) (l : List (Nat × Nat)) : State × Bool :=
  l.foldl (fun (r : State × Bool) e =>
    let (s, ok) := r
    if (jobFind s c (jobId j)).isNone then (s, false)
    else
      match jobRefusal s j false e.1 e.2 with
      | some code => (moverError s c (jobId j) code e.1, false)
      | none => let (s, here) := ensureRemote s c j e.1 e.2; (s, ok && here)) (s, true)

/-- Ranges that a routing part writes, admitted: the first refusal ends the part. -/
def routeWrites (s : State) (c : Nat) (j : MoverJob) (l : List (Nat × Nat)) : State × Bool :=
  match l.findSome? (fun e => (jobRefusal s j true e.1 e.2).map (fun code => (code, e.1))) with
  | some (code, a) => (moverError s c (jobId j) code a, false)
  | none => (s, true)

/-- The result of a pass that runs nothing. -/
def routeMalformed (s : State) (c : Nat) (j : MoverJob) (result : Nat) : State :=
  match routeWrites s c j [(result, 64)] with
  | (s, true) => removeJob (jobWrite s c j result (leBytes 64 2) (fun _ => false)) c (jobId j)
  | (s, false) => s

/-- Send one row to an expert: through the NoC, or to a peer as a zero-suppressed message (R182); `pz` marks its poisoned
bytes. -/
def sendRow (s : State) (c : Nat) (j : MoverJob) (a : Nat) (row : Bytes) (pz : Nat) : State :=
  match placeOf s a with
  | .peer w =>
    match windowPeer s w with
    | (s, none) => jobWrite s c j a row (bitAt pz)
    | (s, some p) =>
      (sendMessage s p { ptype := ptWrite, client := .mover c j.step j.part, window := some w, addr := windowRemote s w a
                         bytes := row.length } 0 (windowRemote s w a) row (bitAt pz) true false).1
  | _ => jobWrite s c j a row (bitAt pz)

/-- The poisoned bytes of a range, as a mask. -/
def poisonBytes (s : State) (c : Nat) (j : MoverJob) (a n : Nat) : Nat := maskOf ((List.range n).filter (fun i => (jobByte s c j (a + i)).2))

/-! ### The carry area (R170, R177) -/

/-- A carried row and its record take this much of the carry area. -/
def carryStride (rowBytes : Nat) : Nat := rowBytes + 64

/-- The 64-byte record of a carried assignment, behind its row: what the COMBINE that stages it needs of its origin pass. -/
def carryRecord (o : OriginPass) (e : RouteEntry) : Bytes :=
  let w := fun r => field (tget o.assigns (e.token * 8 + r) {}).weight (256 + 32 * r) 32
  leBytes 64 (field o.stage 0 64 + field o.outAddr 64 64 + field o.peg 128 32 + field o.pass 160 32 + field e.token 192 16
    + field (o.tokens - 1) 208 16 + field (o.units / 64 - 1) 224 8 + field e.expert 232 10 + field e.rank 242 3 + field e.age 245 3
    + field (o.k - 1) 248 3 + field (b2n o.resF32) 251 1 + field (b2n o.outF32) 252 1 + field 1 253 1
    + sum ((List.range 8).map w))

/-- The carried assignments that the carry area still holds: their records stand as the engine wrote them, and their rows
are read there. -/
def carriedIn (s : State) (c : Nat) (j : MoverJob) (tb : RouteTable) (area : Nat) : List RouteEntry :=
  tb.carry.zipIdx.filterMap (fun p =>
    let a := area + p.2 * carryStride tb.carryRow
    match tb.origins.find? (fun o => o.pass == p.1.origin) with
    | none => none
    | some o =>
      if jobRead s c j (a + tb.carryRow) 64 = carryRecord o p.1 then
        some { p.1 with row := jobRead s c j a tb.carryRow, poison := poisonBytes s c j a tb.carryRow }
      else none)

/-- What the list phase of a ROUTE part works out before it writes anything (R175–R180). -/
structure RouteWork where
  carryAt : Nat := 0
  carryCap : Nat := 0
  pass : Nat := 0
  carried : Nat := 0
  fresh : List RouteEntry := []
  lists : RouteLists := {}
  /-- ZMAP words, and rows to send: address, bytes, poisoned bytes. -/
  zmaps : List (Nat × Nat) := []
  area : Bytes := []
  rows : List (Nat × Bytes × Nat) := []
  unchosen : Nat := 0
  exited : Nat := 0
  badInput : Nat := 0
  /-- A score, an entry of the table or a handle was poisoned. -/
  poison : Bool := false

/-- Choose the experts of every token and make the lists. -/
def routeWork (s : State) (c : Nat) (j : MoverJob) (d : RouteDesc) (ex : List Expert) : RouteWork :=
  let part := stepPart s j.step
  let rd := fun a => (jobByte s c j a).1.toNat
  let head := rdLe rd d.table 16
  let pass := bits head 96 32
  let tb := tableOf s d.table
  let handle := fun t => rdLe rd (d.seqMap + 4 * t) 4
  let exited := fun t => d.seqMap != 0 && (match openSeq s part (handle t) with | some q => q.exited | none => false)
  let badSeq := if d.seqMap = 0 then 0 else ((List.range d.tokens).filter (fun t => (openSeq s part (handle t)).isNone)).length
  let chosen := (List.range d.tokens).map (fun t => if exited t then ([], 0) else chooseToken rd d t)
  let fresh := chosen.zipIdx.flatMap (fun p => p.1.1.map (fun a =>
    { origin := pass, token := p.2, rank := a.1, expert := a.2.1, weight := a.2.2
      row := jobRead s c j (d.token + p.2 * d.rowBytes) d.rowBytes
      poison := poisonBytes s c j (d.token + p.2 * d.rowBytes) d.rowBytes : RouteEntry }))
  let carried := carriedIn s c j tb (bits head 0 64)
  let l := makeLists d ex (bits head 64 32) carried fresh
  { carryAt := bits head 0 64, carryCap := bits head 64 32, pass := pass, carried := carried.length, fresh := fresh, lists := l
    zmaps := (ex.zip l.accepted).flatMap (fun p =>
      if p.1.zmap = 0 then []
      else (zmapWords d p.1 (p.2.map (·.row))).map (fun w => (p.1.zmap + w.1, w.2)))
    area := listArea l.accepted
    rows := (ex.zip l.accepted).flatMap (fun p => p.2.map (fun e => (p.1.recv + e.slot * d.rowBytes, e.row, e.poison)))
    unchosen := if d.preselected then 0 else (chosen.zipIdx.filter (fun p => p.1.1.isEmpty && !exited p.2)).length
    exited := ((List.range d.tokens).filter exited).length
    badInput := badSeq + sum (chosen.map (·.2))
    poison := jobPoison s c j d.table (64 + d.experts * 32) || jobPoison s c j d.gate (d.tokens * gateRow d)
      || (d.seqMap != 0 && jobPoison s c j d.seqMap (d.tokens * 4)) }

/-- The result line of a list phase (Table 6-8); `cycles` is its duration. -/
def routeResult (w : RouteWork) (cycles : Nat) : Bytes :=
  let acc := w.lists.accepted.flatten
  leBytes 64 ((if w.poison || acc.any (fun e => e.poison != 0) then 3 else 0) + field w.pass 32 32 + field w.fresh.length 64 32 + field acc.length 96 32
    + field w.lists.dropped.length 128 32 + field w.lists.carried.length 160 32 + field w.carried 192 32
    + field w.lists.expired.length 224 32 + field w.unchosen 256 32 + field w.exited 288 32 + field w.badInput 320 32
    + field cycles 352 32)

/-- What is kept of this pass for its combining. -/
def routeOrigin (d : RouteDesc) (w : RouteWork) : OriginPass :=
  { pass := w.pass, stage := d.stage, outAddr := d.outAddr, peg := d.resolvedPeg, tokens := d.tokens, k := d.k
    units := d.outBytes, resF32 := d.resF32, outF32 := d.outF32
    assigns := w.fresh.foldl (fun t e => tset t (e.token * 8 + e.rank) { weight := e.weight }) [] }

/-- What a pass leaves in the carry area: address, bytes, poisoned bytes of each row and of its record. -/
def carryWrites (tb : RouteTable) (d : RouteDesc) (w : RouteWork) : List (Nat × Bytes × Nat) :=
  w.lists.carried.zipIdx.flatMap (fun p =>
    let a := w.carryAt + p.2 * carryStride d.rowBytes
    match (tb.origins ++ [routeOrigin d w]).find? (fun o => o.pass == p.1.origin) with
    | none => []
    | some o => [(a, p.1.row, p.1.poison), (a + d.rowBytes, carryRecord o p.1, 0)])

/-- Write the carry area, the lists, the ZMAP words, the pass number and the result. -/
def routeWriteLists (s : State) (c : Nat) (j : MoverJob) (d : RouteDesc) (w : RouteWork) (cycles : Nat) : State :=
  let put := fun (s : State) a b => jobWrite s c j a b (fun _ => false)
  let s := forEach (carryWrites (tableOf s d.table) d w) s (fun s x => jobWrite s c j x.1 x.2.1 (bitAt x.2.2))
  let s := put s d.list w.area
  let s := forEach w.zmaps s (fun s x => put s x.1 (leBytes 8 x.2))
  put (put s (d.table + 12) (leBytes 4 ((w.pass + 1) % 2 ^ 32))) d.result (routeResult w cycles)

/-- Keep what the combine passes of this pass need, and the carried entries (R177, R181). -/
def routeKeep (s : State) (d : RouteDesc) (b : Bytes) (w : RouteWork) : State :=
  let gone := (w.lists.dropped ++ w.lists.expired).map (fun e => (e.origin, e.token, e.rank))
  let bare := fun (e : RouteEntry) => { e with row := [], poison := 0 }
  modTable s d.table (fun x => { x with
    passes := x.passes ++ [{ pass := w.pass, desc := b.take 128, dropped := gone, accepted := w.lists.accepted.flatten.map bare }]
    origins := x.origins ++ [routeOrigin d w], carry := w.lists.carried.map bare, carryRow := d.rowBytes
    lastStrum := some s.time.strumCount, next := some ((w.pass + 1) % 2 ^ 32) })

/-- A header whose NEXT_PASS is not the one that the engine left, or a carry area that holds none of what the engine left
there, begins a table anew, with nothing carried (R170). -/
def routeBegin (s : State) (c : Nat) (j : MoverJob) (table pass area : Nat) : State :=
  let tb := tableOf s table
  if tb.next = some pass ∧ (tb.carry.isEmpty ∨ !(carriedIn s c j tb area).isEmpty) then s
  else modTable s table (fun x => { lastStrum := x.lastStrum })

/-- What a ROUTE part reads: its table, its gate and rows, its handles, and the carry area as far as it is in use. -/
def routeInputs (s : State) (d : RouteDesc) (area : Nat) : List (Nat × Nat) :=
  let tb := tableOf s d.table
  [(d.table, 64 + d.experts * 32), (d.gate, d.tokens * gateRow d), (d.token, d.tokens * d.rowBytes)]
    ++ (if d.seqMap = 0 then [] else [(d.seqMap, d.tokens * 4)])
    ++ (if tb.carry.isEmpty then [] else [(area, tb.carry.length * carryStride tb.carryRow)])

/-- What a ROUTE part writes in its list phase and its dispatch. -/
def routeOutputs (s : State) (d : RouteDesc) (w : RouteWork) : List (Nat × Nat) :=
  [(d.list, w.area.length), (d.result, 64), (d.table + 12, 4)] ++ w.zmaps.map (fun x => (x.1, 8))
    ++ (carryWrites (tableOf s d.table) d w).map (fun x => (x.1, x.2.1.length)) ++ w.rows.map (fun r => (r.1, r.2.1.length))

/-- Once the lists have landed, LISTED_PEG is signalled and the rows go to their experts (R182). -/
def routeListed (s : State) (c id : Nat) : State :=
  match jobFind s c id with
  | none => s
  | some j =>
    match routeDesc (jobBody s j) with
    | none => s
    | some d =>
      if !j.posted ∨ j.listed ∨ jobBusy s c j ∨ !pegPasses s (jobMaster s c j.step) d.listedPeg then s
      else
        let s := routePeg (modJob s c id (fun j => { j with listed := true, rows := [] })) c id d.listedPeg
        forEach j.rows s (fun s r => if (jobFind s c id).isNone then s else sendRow s c j r.1 r.2.1 r.2.2)

/-- The list phase of a ROUTE part, then the copies to its experts (R175–R182). -/
def routeList (s : State) (c : Nat) (j : MoverJob) (b : Bytes) : State :=
  match routeDesc b with
  | none => routeMalformed s c j (bbits b 576 64)
  | some d =>
    match routeReads s c j [(d.table, 16)] with
    | (s, false) => s
    | (s, true) =>
      let rd := fun (s : State) (a : Nat) => (jobByte s c j a).1.toNat
      let area := rdLe (rd s) d.table 8
      match routeReads s c j (routeInputs s d area) with
      | (s, false) => s
      | (s, true) =>
        let ex := expertsOf (rd s) d.table d.experts
        if !ex.all (recvOk s d) then routeMalformed s c j d.result
        else
          let s := routeBegin s c j d.table (rdLe (rd s) (d.table + 12) 4) area
          let w := routeWork s c j d ex
          match routeWrites s c j (routeOutputs s d w) with
          | (s, false) => s
          | (s, true) =>
            let (n, s) := takeFresh s
            let s := routeKeep (routeWriteLists s c j d w (Config.random n % (listCycles d w.carryCap + 1))) d b w
            routeListed (modJob s c (jobId j) (fun j => { j with posted := true, rows := w.rows })) c (jobId j)

/-- The list phase of a ROUTE part is over, and what it wrote has landed. -/
def listPhaseDone (s : State) (slot : Nat) (p : StepPart) (i : Nat) : Bool :=
  p.phase == .done || (match jobFind s (64 + p.unit) (slot * 1024 + i) with | some k => k.listed | none => false)

/-- The list phase of a ROUTE part may begin: one a strum for each table, in commit order of the steps accepted (R181). -/
def mayRoute (s : State) (j : MoverJob) (table : Nat) : Bool :=
  let seq := match stepOf s j.step with | some st => st.seq | none => 0
  (tableOf s table).lastStrum != some s.time.strumCount
    && s.larder.steps.all (fun e => seq ≤ e.2.seq || e.2.parts.zipIdx.all (fun p =>
        p.1.kind != 2 || bbits p.1.body 256 64 != table || listPhaseDone s e.1 p.1 p.2))

/-- The list phase of one routing job of quadrant `q` begins, when it may. -/
def routeJobFret (s : State) (q : Nat) (j : MoverJob) : State :=
  let b := jobBody s j
  match jobFind s (64 + q) (jobId j) with
  | none => s
  | some k =>
    match partAt s k.step k.part with
    | none => s
    | some p =>
      if p.kind ≠ 2 ∨ k.posted ∨ !mayRoute s k (bbits b 256 64) then s
      else routeList (modJob s (64 + q) (jobId k) (fun j => { j with started := true })) (64 + q) k b

/-- The list phases that a fret may begin. -/
def routeFret (s : State) : State :=
  forEach [0, 1, 2, 3] s (fun s q => forEach (jobsOf s (64 + q)) s (fun s j => routeJobFret s q j))

/-- The routing job of a part: its pseudo-mover and record. -/
def routeJob (s : State) (slot part : Nat) : Option (Nat × MoverJob) :=
  match partAt s slot part with
  | none => none
  | some p => (jobFind s (64 + p.unit) (slot * 1024 + part)).map (fun j => (64 + p.unit, j))

/-- ROUTE_DISPATCHED (R182): every row has landed and every peer has acknowledged. -/
def execRouteDispatched (slot part : Nat) (s : State) : Host.Outcome State Fault Refusal :=
  match routeJob s slot part, partAt s slot part with
  | some (c, j), some p =>
    if p.kind ≠ 2 ∨ !j.listed ∨ jobBusy s c j ∨ !pegPasses s (jobMaster s c j.step) (bbits p.body 672 32) then .next s
    else
      let s := routePeg s c (jobId j) (bbits p.body 672 32)
      .next (removeJob s c (jobId j))
  | _, _ => .next s

/-! ### COMBINE (R183, R184) -/

/-- One element of a result row, as FP32. -/
def resultElem (f32res : Bool) (row : Bytes) (i : Nat) : Nat :=
  if f32res then leAt row (4 * i) 4 else leAt row (2 * i) 2 * 0x10000

/-- The combined row of a token from its accepted ranks' rows and weights, in rank order. -/
def combineRow (o : OriginPass) (l : List (Nat × Bytes)) : Bytes :=
  let n := o.units / (if o.resF32 then 4 else 2)
  (List.range n).flatMap (fun i =>
    let acc := l.foldl (fun acc p => fmaF32 p.1 (resultElem o.resF32 p.2 i) acc) 0
    if o.outF32 then leBytes 4 (canonF32 acc) else leBytes 2 (convert .fp32 .bf16 acc))

/-- Tokens of a pass that have become final: every assignment staged or dropped. -/
def newlyFinal (o : OriginPass) : List Nat :=
  (List.range o.tokens).filter (fun t => !o.finals.contains t
    && (List.range o.k).all (fun r => match tfind o.assigns (t * 8 + r) with | some a => a.st != 0 | none => true))

/-- The accepted ranks of a token, as a mask. -/
def acceptMask (o : OriginPass) (t : Nat) : Nat :=
  maskOf ((List.range o.k).filter (fun r => match tfind o.assigns (t * 8 + r) with | some a => a.st == 1 | none => false))

/-- Where the rows of a token and rank are staged, and where the mask begins. -/
def stageAddr (o : OriginPass) (t r : Nat) : Nat := o.stage + (t * o.k + r) * o.units
def maskAddr (o : OriginPass) : Nat := o.stage + o.tokens * o.k * o.units

/-- A COMBINE that runs nothing ends with a code. -/
def combineEnds (s : State) (c : Nat) (j : MoverJob) (code : Nat) : State :=
  modJob s c (jobId j) (fun j => { j with result := some (resultBytes code 0 0 0) })

/-- The end of a COMBINE: its result, then the RESOLVED_PEGs. -/
def combineFinish (s : State) (c id : Nat) : State :=
  match jobFind s c id with
  | none => s
  | some j =>
    match j.result with
    | none => s
    | some res =>
      if jobBusy s c j then s
      else
        match (if j.posted then (s, true) else routeWrites s c j [(bbits (jobBody s j) 64 64, 16)]) with
        | (s, false) => s
        | (s, true) =>
          let s := if j.posted then s
                   else modJob (jobWrite s c j (bbits (jobBody s j) 64 64) res (fun _ => false)) c id (fun j => { j with posted := true })
          if jobBusy s c j ∨ !j.pegs.all (pegPasses s (jobMaster s c j.step)) then s
          else removeJob (forEach j.pegs s (fun s p => routePeg s c id p)) c id

/-- The origin passes of a table once a pass's entries are staged and its drops applied. -/
def combineOrigins (tb : RouteTable) (p : RoutePass) : List OriginPass :=
  tb.origins.map (fun o =>
    let a := p.accepted.foldl (fun t e =>
      if e.origin = o.pass then tmod t (e.token * 8 + e.rank) {} (fun x => { x with st := 1 }) else t) o.assigns
    let a := p.dropped.foldl (fun t (d : Nat × Nat × Nat) =>
      if d.1 = o.pass then tmod t (d.2.1 * 8 + d.2.2) {} (fun x => { x with st := 2 }) else t) a
    { o with assigns := a })

/-- The rows of a pass to stage: where from, where to, how many bytes. -/
def combineMoves (tb : RouteTable) (p : RoutePass) : List (Nat × Nat × Nat) :=
  p.accepted.filterMap (fun e => (tb.origins.find? (fun o => o.pass == e.origin)).map (fun o =>
    (e.res, stageAddr o e.token e.rank, o.units)))

/-- Where the row of a token and rank stands: staged now, or staged by an earlier COMBINE. -/
def combineRowAt (p : RoutePass) (o : OriginPass) (t r : Nat) : Nat :=
  match p.accepted.find? (fun e => e.origin == o.pass && e.token == t && e.rank == r) with
  | some e => e.res
  | none => stageAddr o t r

/-- The tokens that become final, by origin pass. -/
def combineFinals (tb : RouteTable) (p : RoutePass) : List (OriginPass × List Nat) :=
  ((combineOrigins tb p).filter (fun o => passLe o.pass p.pass)).map (fun o => (o, newlyFinal o))

/-- The staged rows that the tokens which become final need. -/
def combineNeeds (tb : RouteTable) (p : RoutePass) : List (Nat × Nat) :=
  (combineFinals tb p).flatMap (fun f => f.2.flatMap (fun t =>
    (maskBits (acceptMask f.1 t) 8).map (fun r => (combineRowAt p f.1 t r, f.1.units))))

/-- The tokens of an origin pass whose mask a COMBINE writes. -/
def combineTouched (p : RoutePass) (o : OriginPass) : List Nat :=
  if o.pass = p.pass then List.range o.tokens else ((p.accepted.filter (fun e => e.origin == o.pass)).map (·.token)).eraseDups

/-- The poisoned bytes of an output row: those of every element that some source row's poison reaches. -/
def combinePoison (o : OriginPass) (l : List Nat) : Nat :=
  let rb := if o.resF32 then 4 else 2
  let ob := if o.outF32 then 4 else 2
  maskOf ((List.range (o.units / rb * ob)).filter (fun b => l.any (fun m => bits m (b / ob * rb) rb != 0)))

/-- What a COMBINE writes: staged rows, masks, and the rows of tokens that become final; with their poisoned bytes. -/
def combineWrites (s : State) (c : Nat) (j : MoverJob) (tb : RouteTable) (p : RoutePass) : List (Nat × Bytes × Nat) :=
  let staged := (combineMoves tb p).map (fun m => (m.2.1, jobRead s c j m.1 m.2.2, poisonBytes s c j m.1 m.2.2))
  let masks := ((combineOrigins tb p).filter (fun o => passLe o.pass p.pass)).flatMap (fun o =>
    (combineTouched p o).map (fun t => (maskAddr o + t, leBytes 1 (acceptMask o t), 0)))
  let outs := (combineFinals tb p).flatMap (fun f => f.2.map (fun t =>
    let rows := (maskBits (acceptMask f.1 t) 8).map (fun r => ((tget f.1.assigns (t * 8 + r) {}).weight,
      jobRead s c j (combineRowAt p f.1 t r) f.1.units, poisonBytes s c j (combineRowAt p f.1 t r) f.1.units))
    let row := combineRow f.1 (rows.map (fun x => (x.1, x.2.1)))
    (f.1.outAddr + t * row.length, row, combinePoison f.1 (rows.map (·.2.2)))))
  staged ++ masks ++ outs

/-- The origin passes once their tokens are final. -/
def combineKept (tb : RouteTable) (p : RoutePass) : List OriginPass :=
  (combineOrigins tb p).map (fun o =>
    match (combineFinals tb p).find? (fun f => f.1.pass == o.pass) with
    | some f => { o with finals := o.finals ++ f.2 }
    | none => o)

/-- Origin passes that a COMBINE resolves. -/
def combineResolved (tb : RouteTable) (p : RoutePass) : List OriginPass :=
  (combineKept tb p).filter (fun o => passLe o.pass p.pass && o.finals.length == o.tokens)

/-- The result of a COMBINE (Table 6-5). -/
def combineResult (tb : RouteTable) (p : RoutePass) (poison : Bool) : Bytes :=
  let own := sum (((combineFinals tb p).filter (fun f => f.1.pass == p.pass)).map (fun f => f.2.length))
  let total := sum ((combineFinals tb p).map (fun f => f.2.length))
  let held := match (combineKept tb p).find? (fun o => o.pass == p.pass) with | some o => o.tokens - o.finals.length | none => 0
  resultBytes (if poison then 3 else 0) total held (total - own)

/-- Stage the accepted rows of a pass, apply its drops, and combine the tokens that have become final. -/
def combinePass (s : State) (c : Nat) (j : MoverJob) (table : Nat) (p : RoutePass) : State :=
  let tb := tableOf s table
  match routeReads s c j ((combineMoves tb p).map (fun m => (m.1, m.2.2)) ++ combineNeeds tb p) with
  | (s, false) => s
  | (s, true) =>
    let w := combineWrites s c j tb p
    match routeWrites s c j (w.map (fun w => (w.1, w.2.1.length))) with
    | (s, false) => s
    | (s, true) =>
      let s := forEach w s (fun s w => jobWrite s c j w.1 w.2.1 (bitAt w.2.2))
      let s := modTable s table (fun x => { x with
        passes := x.passes.drop 1
        origins := (combineKept tb p).filter (fun o => !(combineResolved tb p).any (fun r => r.pass == o.pass)) })
      modJob s c (jobId j) (fun j => { j with
        result := some (combineResult tb p (w.any (fun x => x.2.2 != 0))), pegs := (combineResolved tb p).map (·.peg) })

/-- COMBINE: of the oldest pass of its table that is not combined yet (R181, R183). -/
def execCombine (slot part : Nat) (s : State) : Host.Outcome State Fault Refusal :=
  match routeJob s slot part, partAt s slot part with
  | some (c, j), some p =>
    if p.kind ≠ 3 then .next s
    else if j.result.isSome then .next (combineFinish s c (jobId j))
    else
      let s := modJob s c (jobId j) (fun j => { j with started := true })
      let a := bbits p.body 0 64
      match routeReads s c j [(a, 128)] with
      | (s, false) => .next s
      | (s, true) =>
        let b := jobRead s c j a 128
        let s := match routeDesc b with
          | none => combineEnds s c j 2
          | some d =>
            match (tableOf s d.table).passes with
            | [] => combineEnds s c j 5
            | p :: _ => if p.desc = b then combinePass s c j d.table p else combineEnds s c j 5
        .next (combineFinish s c (jobId j))
  | _, _ => .next s

end Sys2Proof.Machine
end

