-- ==== Sys2Proof/Machine/Larder.lean ====
section
/-! DEFINITION. The larder: pools and their pages, allocation, moves between tiers, pins, and sequences (spec 09
R243–R250, R268; 15 R413; 17 R483–R484). -/
namespace Sys2Proof.Machine

/-! ### Pools (R245) -/

/-- A range of pool pages: tier, first page as HPA / 64 KiB, how many, and its cellar, shelf or window. -/
structure PoolRange where
  tier : Nat := 1
  base : Nat := 0
  n : Nat := 0
  unit : Nat := 0
  /-- None of its pages can be allocated: its medium is being zeroed (16 R441, 18 R498), or leaves ON (18 R494). -/
  zeroing : Bool := false
  deriving DecidableEq, Repr, Inhabited

/-- What is left of a range when pages [lo, lo + n) go. -/
def cutRange (r : PoolRange) (lo n : Nat) : List PoolRange :=
  let hi := lo + n
  ([{ r with n := min (r.base + r.n) (max lo r.base) - r.base },
    { r with base := max r.base hi, n := r.base + r.n - max r.base hi }] : List PoolRange).filter (fun x => x.n != 0)

/-- Cut every listed interval out of a range. -/
def cutRanges (r : PoolRange) (cuts : List (Nat × Nat)) : List PoolRange :=
  cuts.foldl (fun l c => l.flatMap (fun x => if c.2 = 0 then [x] else cutRange x c.1 c.2)) [r]

/-- MEMORY regions of partitions 1–15, as pages: what partition 0 does not hold. -/
def takenRanges (s : State) : List (Nat × Nat) :=
  (s.part.parts.filter (fun e => e.1 != 0 && e.2.pstate != .none)).flatMap (fun e =>
    (e.2.regions.filter (fun r => r.kind == .memory)).map (fun r => (r.base / 0x10000, r.length)))

/-- A shelf or decoder whose range is unmapped until its zeroing ends: tier and unit. -/
def zeroingMedium (s : State) (a : Nat) : Option (Nat × Nat) :=
  if a < 12 * shelfSize then
    let n := a / shelfSize
    if bitAt s.boot.presentShelves n ∧ (shelfOf s n).zeroing ∧ a % shelfSize < shelfUsable s n ∧ (domainOf s (domShelf n)).dstate ≠ .off
    then some (1, n) else none
  else
    let hit := fun (p : Nat) => (farOf s p).decoders.any (fun e =>
      e.2.enable && e.2.zeroing && decBase e.2 ≤ a && a < decBase e.2 + decUsable e.2)
    if hit 0 then some (2, 0) else if hit 1 then some (2, 1) else none

/-- The unit's domain is leaving ON: no page goes there any more (18 R494 step 1). -/
def leaving (s : State) (d : Nat) : Bool := (domainOf s d).transition && (domainOf s d).target == .off
  || (d < 64 && (domainOf s d).transition && (domainOf s d).target == .retention)

/-- The pool ranges that one region gives a partition. -/
def regionRanges (s : State) (p : Nat) (r : Region) : List PoolRange :=
  if !r.larder then []
  else match r.kind with
    | .memory =>
      let x : PoolRange := { base := r.base / 0x10000, n := r.length }
      let l := if p = 0 then cutRanges x (takenRanges s) else [x]
      l.filterMap (fun x =>
        match placeOf s (x.base * 0x10000) with
        | .shelf n => some { x with tier := 1, unit := n, zeroing := leaving s (domShelf n) }
        | .far port _ => some { x with tier := 2, unit := port }
        | _ => (zeroingMedium s (x.base * 0x10000)).map (fun z => { x with tier := z.1, unit := z.2, zeroing := true }))
    | .scratch =>
      ((List.range 64).filter (fun c => cellarOwner s c == p && cellarUp s c)).map (fun c =>
        { tier := 0, base := (scratchBase + c * scratchStride) / 0x10000, n := 8 * min r.banks (cellarOf s c).scratchBanks
          unit := c, zeroing := leaving s (domCellar c) })
    | .peer => [{ tier := 3, base := (peerBase + r.window * peerStride + r.base) / 0x10000, n := r.length, unit := r.window }]

/-- The larder pool of a partition. -/
def poolRanges (s : State) (p : Nat) : List PoolRange :=
  ((partOf s p).regions.flatMap (regionRanges s p)).filter (fun r => r.n != 0)

def tierRanges (s : State) (p t : Nat) : List PoolRange := (poolRanges s p).filter (fun r => r.tier == t)

def inRange (r : PoolRange) (page : Nat) : Bool := r.base ≤ page && page < r.base + r.n

/-- The tier of a page of a partition's pool. -/
def pageTier (s : State) (p page : Nat) : Option Nat := ((poolRanges s p).find? (fun r => inRange r page)).map (·.tier)

/-- Pages of a range that are not FREE. -/
def usedIn (s : State) (r : PoolRange) : Nat := (s.larder.pages.filter (fun e => inRange r e.1)).length
def freeIn (s : State) (r : PoolRange) : Nat := if r.zeroing then 0 else r.n - usedIn s r

/-- Pages that have left the pool for the session. -/
def goneIn (s : State) (r : PoolRange) : Nat :=
  (s.larder.pages.filter (fun e => inRange r e.1 && (e.2.pstate == .lost || e.2.pstate == .retired))).length

/-- Pool pages of a partition in the tiers of a mask. -/
def poolPages (s : State) (p tiers : Nat) : Nat :=
  sum (((poolRanges s p).filter (fun r => bitAt tiers r.tier)).map (fun r => r.n - goneIn s r))

def pageOf (s : State) (p : Nat) : Option Page := tfind s.larder.pages p
def modPage (s : State) (p : Nat) (f : Page → Page) : State :=
  { s with larder := { s.larder with pages := tmodIf s.larder.pages p f } }
def setPage (s : State) (p : Nat) (x : Page) : State :=
  { s with larder := { s.larder with pages := tset s.larder.pages p x } }

/-- The page becomes FREE. -/
def freePage (s : State) (p : Nat) : State := { s with larder := { s.larder with pages := tdel s.larder.pages p } }

/-! ### Sequences and reservations (R243, R244) -/

def seqOf (s : State) (q : Nat) : Sequence := tget s.larder.seqs q {}
def modSeq (s : State) (q : Nat) (f : Sequence → Sequence) : State :=
  { s with larder := { s.larder with seqs := tmodIf s.larder.seqs q f } }

/-- The handle of an entry. -/
def seqHandle (s : State) (q : Nat) : Nat := (seqOf s q).generation * 65536 + q

/-- Why a handle is refused in a partition. -/
def handleRefused (s : State) (p h : Nat) : Option Status :=
  let q := seqOf s (h % 65536)
  if q.sstate = .free ∨ q.generation ≠ h / 65536 then some .seqNotOpen
  else if q.part ≠ p then some .deniedPartition
  else if q.sstate = .closing then some .seqNotOpen
  else none

/-- Entries in use by a partition. -/
def seqsOf (s : State) (p : Nat) : Tab Sequence := s.larder.seqs.filter (fun e => e.2.sstate != .free && e.2.part == p)

/-- Pages a sequence holds, LOST ones apart. -/
def heldPages (s : State) (q : Sequence) : Nat :=
  (q.pages.filter (fun e => match pageOf s e.2 with | some x => x.pstate != .lost | none => true)).length

/-- What is left of a sequence's reservation: it shrinks by the LOST pages that it covered (R250). -/
def reserveLeft (s : State) (q : Sequence) : Nat :=
  q.reserve - (q.pages.filter (fun e => match pageOf s e.2 with | some x => x.pstate == .lost | none => false)).length

/-- Save pages reserved by a partition's steps (R257). -/
def savePagesOf (s : State) (p : Nat) : Nat := sum ((s.larder.steps.filter (fun e => e.2.part == p)).map (fun e => e.2.savePages))

/-- Pool pages that no reservation and no save area holds. -/
def unreserved (s : State) (p : Nat) : Nat :=
  poolPages s p 15 - sum ((seqsOf s p).map (fun e => reserveLeft s e.2)) - savePagesOf s p

/-- Pages that sequences hold above their reservations. -/
def aboveReserve (s : State) (p : Nat) : Nat := sum ((seqsOf s p).map (fun e => heldPages s e.2 - reserveLeft s e.2))

/-- A sequence may receive one more page: always below its reservation, else from what no reservation holds (R247). -/
def mayGrow (s : State) (q : Sequence) : Bool :=
  heldPages s q < reserveLeft s q || aboveReserve s q.part < unreserved s q.part

/-! ### Choosing where a page goes (R247, R248, and the paragraph after Table 9-6) -/

/-- Quadrant of a cellar and of a shelf. -/
def quadOfCellar (c : Nat) : Nat := c / 16
def quadOfShelf (n : Nat) : Nat := n / 3

/-- FREE pages of a shelf's pool. -/
def shelfFree (s : State) (p n : Nat) : Nat := sum (((tierRanges s p 1).filter (fun r => r.unit == n)).map (freeIn s))

/-- The first range of a list with the least key among those with a FREE page. -/
def bestRange (s : State) (l : List PoolRange) (key : PoolRange → List Nat) : Option PoolRange :=
  (l.filter (fun r => 0 < freeIn s r)).foldl (fun (b : Option PoolRange) r =>
    match b with
    | none => some r
    | some x => if key r < key x then some r else b) none

/-- The range of a tier that a page goes to; `last` is the cellar of the sequence's last step. -/
def chooseRange (s : State) (p t : Nat) (last : Option Nat) : Option PoolRange :=
  let l := tierRanges s p t
  if t = 0 then
    match last with
    | some c => bestRange s (l.filter (fun r => r.unit == c)) (fun r => [r.base])
    | none => bestRange s l (fun r => [r.unit, r.base])
  else if t = 1 then
    let far := fun (r : PoolRange) => match last with | some c => b2n (quadOfShelf r.unit != quadOfCellar c) | none => 0
    bestRange s l (fun r => [far r, 2 ^ 20 - shelfFree s p r.unit, r.unit, r.base])
  else bestRange s l (fun r => [r.base])

/-- The tiers that a page may go to, highest first: CELLAR only with the touch entry's flag. -/
def tierOrder (allowed : Nat) (cellar : Bool) : List Nat :=
  [0, 1, 2, 3].filter (fun t => bitAt allowed t && (t != 0 || cellar))

/-- The destination of a page. -/
def chooseTarget (s : State) (p allowed : Nat) (cellar : Bool) (last : Option Nat) : Option PoolRange :=
  (tierOrder allowed cellar).findSome? (fun t => chooseRange s p t last)

/-- The lowest FREE page of a range. -/
def lowestFree (s : State) (r : PoolRange) : Option Nat := tfree s.larder.pages r.base (r.base + r.n)

/-! ### Moves (R248, R249) -/

/-- Moves whose copy has begun. -/
def movesBegun (s : State) : Nat := (s.larder.moves.filter (·.begun)).length

/-- Number of a pager descriptor. -/
def pagerJob (page part : Nat) : Nat := page * 1024 + part

/-- A pager descriptor for a page, started at once. -/
def addPager (s : State) (page part : Nat) : State :=
  let j : MoverJob := { step := page, part := part, started := true, posted := true }
  { s with larder := { s.larder with movers := tmod s.larder.movers pagerUnit [] (fun l => l ++ [j]) } }

/-- A pager descriptor ends. -/
def dropPager (s : State) (page part : Nat) : State :=
  { s with larder := { s.larder with movers := tmodIf s.larder.movers pagerUnit (fun l =>
      l.filter (fun j => j.step != page || j.part != part)) } }

/-- The caches give up a page: its dirty lines are written home, and it leaves every core store and cellar buffer. -/
def cleanPage (s : State) (page : Nat) : State := cleanEverywhere s (page * 0x10000) 0x10000

/-- Writes to a page are on their way home. -/
def pageUnsettled (s : State) (page : Nat) : Bool :=
  s.mem.txns.any (fun e => e.2.hpa / 0x10000 == page && e.2.kind == .write && e.2.phase != .done)

/-- Begin the copies of waiting moves, at most 32 at once. -/
def beginMoves (s : State) : State :=
  forEach s.larder.moves s (fun s m =>
    if m.begun ∨ 32 ≤ movesBegun s then s
    else
      let s := { s with larder := { s.larder with moves := s.larder.moves.map (fun x =>
        if x.src = m.src then { x with begun := true } else x) } }
      addPager (modPage (cleanPage s m.src) m.src (fun p => { p with pstate := .moving })) m.src 1024)

/-- A move of a RESIDENT page to a range: its destination is allocated, and it waits for a copy. -/
def queueMove (s : State) (src : Nat) (r : PoolRange) (step : Option Nat) : State :=
  match pageOf s src, lowestFree s r with
  | some x, some dst =>
    let s := setPage s dst { pstate := .moving, seq := x.seq, page := x.page }
    let s := { s with larder := { s.larder with
      moves := s.larder.moves ++ [{ src := src, dst := dst, seq := x.seq, page := x.page, step := step }] } }
    match step with
    | none => s
    | some slot => modStep s slot (fun st => { st with pagesMoved := st.pagesMoved + 1 })
  | _, _ => s

/-- Cancel a move whose copy has not begun: the destination never held data, and the step it was for counts it no longer. -/
def cancelMove (s : State) (m : Move) : State :=
  let s := match m.step with
    | none => s
    | some slot => modStep s slot (fun st => { st with pagesMoved := st.pagesMoved - 1 })
  freePage { s with larder := { s.larder with moves := s.larder.moves.filter (fun x => x.src != m.src) } } m.dst

/-- A page is the source of a move. -/
def movingFrom (s : State) (page : Nat) : Bool := s.larder.moves.any (fun m => m.src == page)

/-- The pages that a step's touch list names: (touch, entry, page number, pool page). -/
def touchedPages (s : State) (st : Step) : List (Touch × Nat × Nat × Option Nat) :=
  st.touches.flatMap (fun t => (List.range t.count).map (fun i =>
    (t, t.seq % 65536, t.first + i, tfind (seqOf s (t.seq % 65536)).pages (t.first + i))))

/-- Pool pages of a step, in page-list order. -/
def stepPages (s : State) (st : Step) : List Nat := (touchedPages s st).filterMap (fun x => x.2.2.2)


/-- BACKGROUND first, then THROUGHPUT, then LATENCY. -/
def classRankOf (cls : Nat) : Nat := 2 - cls

/-- A scratch page of a cellar that is not ON stays where it is (18 R497). -/
def pageReachable (s : State) (page : Nat) : Bool := placeOf s (page * 0x10000) != .unmapped

/-- Every touched page is RESIDENT in an allowed tier, and reachable. -/
def allResident (s : State) (st : Step) : Bool :=
  (touchedPages s st).all (fun x =>
    match x.2.2.2 with
    | none => false
    | some hp =>
      match pageOf s hp, pageTier s (seqOf s x.2.1).part hp with
      | some p, some t => p.pstate == .resident && bitAt st.tiers t && pageReachable s hp
      | _, _ => false)

/-- Pages touched by a step that waits for residency. -/
def awaitedPages (s : State) (p : Nat) : List Nat :=
  (s.larder.steps.filter (fun e => e.2.part == p && e.2.phase == .waiting && !allResident s e.2)).flatMap (fun e => stepPages s e.2)

/-- Victims of a list of ranges, in the order of victim_key. -/
def victims (s : State) (p : Nat) (l : List PoolRange) : List Nat :=
  let awaited := awaitedPages s p
  let cand := s.larder.pages.filter (fun e => e.2.pstate == .resident && e.2.pins == 0 && l.any (fun r => inRange r e.1)
    && !awaited.contains e.1 && !movingFrom s e.1 && pageReachable s e.1)
  let key := fun (x : Page) => [classRankOf (seqOf s x.seq).cls, x.lastTouch, x.seq, x.page]
  (cand.mergeSort (fun a b => decide (key a.2 ≤ key b.2))).map (·.1)

/-- The next tier down in which a partition has a pool. -/
def tierBelow (s : State) (p t : Nat) : Option Nat :=
  ([1, 2, 3].filter (fun u => t < u)).find? (fun u => !(tierRanges s p u).isEmpty)

/-- The range to which a victim of tier `t` goes. -/
def demoteRange (s : State) (p t v : Nat) : Option PoolRange :=
  (tierBelow s p t).bind (fun u =>
    chooseRange s p u (if t = 0 then some ((v - scratchBase / 0x10000) / 256) else none))

/-- Moves without a step out of some ranges that are under way. -/
def demotions (s : State) (l : List PoolRange) : Nat :=
  (s.larder.moves.filter (fun m => m.step.isNone && l.any (fun r => inRange r m.src))).length

/-- Move victims of some ranges one tier down, until `want` moves out of them are under way. -/
def demote (s : State) (p t : Nat) (l : List PoolRange) (want : Nat) : State :=
  forEach ((victims s p l).take (want - demotions s l)) s (fun s v =>
    match demoteRange s p t v with
    | none => s
    | some r => queueMove s v r none)

/-- Demote where the FREE pages of a tier have fallen below 1/32 of its pool, and then in every tier below it (R248). -/
def lowWater (s : State) (p t : Nat) : State :=
  forEach ([0, 1, 2].filter (fun u => t ≤ u)) s (fun s u =>
    let l := tierRanges s p u
    let total := sum (l.map (·.n))
    let free := sum (l.map (freeIn s))
    if free * 32 < total then demote s p u l ((total + 31) / 32 - free) else s)

/-- The ranges of a tier where a page may go: those of one cellar, for CELLAR. -/
def roomRanges (s : State) (p t : Nat) (last : Option Nat) : List PoolRange :=
  let l := tierRanges s p t
  if t = 0 then (match last with | some c => l.filter (fun r => r.unit == c) | none => l) else l

/-- Room is wanted: it comes from the highest tier that the page may go to in which a demotion is under way or can be made
(R247, R248). -/
def makeRoom (s : State) (p allowed : Nat) (cellar : Bool) (last : Option Nat) : State :=
  match (tierOrder allowed cellar).find? (fun t =>
      let l := roomRanges s p t last
      0 < demotions s l || (match victims s p l with | v :: _ => (demoteRange s p t v).isSome | [] => false)) with
  | none => s
  | some t => lowWater (demote s p t (roomRanges s p t last) 1) p t

/-- Allocate a page to a sequence for a step, if room and reservations allow. -/
def allocPage (s : State) (slot q page allowed : Nat) (cellar : Bool) : State :=
  let x := seqOf s q
  if !mayGrow s x then s
  else
    match chooseTarget s x.part allowed cellar x.lastCellar with
    | none => makeRoom s x.part allowed cellar x.lastCellar
    | some r =>
      match lowestFree s r with
      | none => s
      | some hp =>
        let s := setPage s hp { pstate := .resident, seq := q, page := page }
        let s := modSeq s q (fun y => { y with pages := tset y.pages page hp })
        lowWater (modStep s slot (fun st => { st with pagesMoved := st.pagesMoved + 1 })) x.part r.tier

/-- Promote a page that a step touches outside its allowed tiers (R248). -/
def promotePage (s : State) (slot q hp allowed : Nat) (cellar : Bool) : State :=
  let x := seqOf s q
  match pageOf s hp, pageTier s x.part hp with
  | some pg, some t =>
    if pg.pstate ≠ .resident ∨ pg.pins ≠ 0 ∨ bitAt allowed t ∨ movingFrom s hp ∨ !pageReachable s hp then s
    else
      match chooseTarget s x.part allowed cellar x.lastCellar with
      | none => makeRoom s x.part allowed cellar x.lastCellar
      | some r => lowWater (queueMove s hp r (some slot)) x.part r.tier
  | _, _ => s

/-! ### Zeroing, and pages that leave the pool (Table 9-4, 17 R483, R484) -/

/-- A page whose retirement waits leaves the pool. -/
def retirePage (s : State) (page : Nat) : State :=
  let s := setPage s page { pstate := .retired }
  { s with err := { s.err with retireWaiting := s.err.retireWaiting.filter (· != page) } }

/-- A page is given back: it goes to ZEROING, or leaves the pool when its retirement waits. -/
def givePage (s : State) (page : Nat) : State :=
  if s.err.retireWaiting.contains page then retirePage s page
  else setPage s page { pstate := .zeroing }

/-- Every page of a partition's pool that `r` names, by its range, becomes LOST for good: a move that touches one is cancelled, and the
larder writes one record (09 R250). -/
def losePagesOf (s : State) (part : Nat) (r : PoolRange → Nat → Bool) : State :=
  let l := (poolRanges s part).flatMap (fun x => ((List.range x.n).map (x.base + ·)).filter (r x))
  let gone := (l.filter (fun p => match pageOf s p with
    | some x => x.pstate != .lost && x.pstate != .retired
    | none => true)).eraseDups
  match gone with
  | [] => s
  | first :: _ =>
    let s := forEach (s.larder.moves.filter (fun m => gone.contains m.src || gone.contains m.dst)) s (fun s m =>
      let s := dropPager s m.src 1024
      if gone.contains m.dst then cancelMove s m else givePage (cancelMove s m) m.dst)
    let s := forEach gone s (fun s p => setPage (dropPager s p 1025) p { (pageOf s p).getD {} with pstate := .lost })
    let s := { s with larder := { s.larder with pagesLost := satAdd 32 s.larder.pagesLost gone.length } }
    logErr s { severity := .unitLost, unitClass := ucLarder, code := ecPageLost, partition := errPartition part
               address := first * 0x10000 }

/-- Every pool page of some ranges becomes LOST. -/
def losePages (s : State) (r : PoolRange → Nat → Bool) : State := forEach (List.range 16) s (fun s p => losePagesOf s p r)

/-- A page whose retirement waits is moved once nothing holds it. -/
def retireMove (s : State) (page : Nat) : State :=
  match pageOf s page with
  | none => s
  | some x =>
    if !s.err.retireWaiting.contains page ∨ x.pstate ≠ .resident ∨ x.pins ≠ 0 ∨ movingFrom s page then s
    else
      let p := (seqOf s x.seq).part
      match pageTier s p page with
      | none => s
      | some t =>
        match chooseRange s p t none with
        | none => s
        | some r => beginMoves (queueMove s page r none)

/-! ### Closing (R268) -/

/-- A step names a sequence entry, in either list. -/
def namesSeq (st : Step) (q : Nat) : Bool := st.batch.any (fun h => h % 65536 == q) || st.touches.any (fun t => t.seq % 65536 == q)

/-- No step names the sequence and no move of its pages remains. -/
def seqIdle (s : State) (q : Nat) : Bool :=
  !s.larder.steps.any (fun e => e.2.peer.isNone && namesSeq e.2 q) && !s.larder.moves.any (fun m => m.seq == q)

/-- Free a sequence entry: its pages go to ZEROING, LOST ones apart.  The caches give the pages up first (07 R202).
Answers the pages freed and the LOST ones. -/
def freeSeq (s : State) (q : Nat) : State × Nat × Nat :=
  let l := tvals (seqOf s q).pages
  let lost := l.filter (fun p => match pageOf s p with | some x => x.pstate == .lost | none => false)
  let rest := l.filter (fun p => !lost.contains p)
  let s := forEach rest s (fun s p => givePage (cleanPage s p) p)
  let g := (seqOf s q).generation
  let s := modSeq s q (fun _ => { generation := if g = 0xFFFF then 1 else g + 1 })
  (s, rest.length, lost.length)

/-- A sequence becomes CLOSING: its moves that have not begun are cancelled, and counted. -/
def beginClose (s : State) (q seq : Nat) (cancel : Bool) : State :=
  let gone := s.larder.moves.filter (fun m => m.seq == q && !m.begun)
  let s := forEach gone s cancelMove
  modSeq s q (fun x => { x with sstate := .closing
                                close := some { seq := seq, cancel := cancel, movesCancelled := gone.length } })

/-! ### The pager's copies and zeros -/

/-- A copy lands: the entry switches, and the source is given back. -/
def landMove (s : State) (m : Move) : State :=
  let old := (pageOf s m.src).getD {}
  let s := { s with larder := { s.larder with moves := s.larder.moves.filter (fun x => x.src != m.src) } }
  let s := setPage s m.dst { old with pstate := .resident, pins := 0 }
  let s := modSeq s m.seq (fun q => { q with
    pages := tset q.pages m.page m.dst
    close := q.close.map (fun c => { c with movesLanded := c.movesLanded + 1 }) })
  let s := givePage (dropPager s m.src 1024) m.src
  beginMoves (retireMove s m.dst)

/-- PAGE_MOVE_LAND (R249): poisoned sectors are written poisoned, and the move lands. -/
def execPageMoveLand (src : Nat) (s : State) : Host.Outcome State Fault Refusal :=
  match s.larder.moves.find? (fun m => m.src == src && m.begun), jobFind s pagerUnit (pagerJob src 1024) with
  | some m, some j =>
    let a := src * 0x10000
    let b := m.dst * 0x10000
    if j.result.isSome then (if jobBusy s pagerUnit j then .next s else .next (landMove s m))
    else if pageUnsettled s src then .next s
    else
      match ensureRemote s pagerUnit j a 0x10000 with
      | (s, false) => .next s
      | (s, true) =>
        let s := jobWrite s pagerUnit j b (jobRead s pagerUnit j a 0x10000) (fun i => (jobByte s pagerUnit j (a + i)).2)
        let s := modJob s pagerUnit (jobId j) (fun j => { j with result := some [], stage := [], stagePoison := [] })
        if jobBusy s pagerUnit j then .next s else .next (landMove s m)
  | _, _ => .next s

/-- A page is zeroed, and FREE. -/
def zeroedPage (s : State) (page : Nat) : State := freePage (dropPager s page 1025) page

/-- PAGE_ZEROING_DONE (R246). -/
def execPageZeroingDone (page : Nat) (s : State) : Host.Outcome State Fault Refusal :=
  match pageOf s page with
  | none => .next s
  | some x =>
    if x.pstate ≠ .zeroing then .next s
    else
      let a := page * 0x10000
      match jobFind s pagerUnit (pagerJob page 1025) with
      | some j => if jobBusy s pagerUnit j then .next s else .next (zeroedPage s page)
      | none =>
        if pageUnsettled s page then .next s
        else
        let s := addPager s page 1025
        let j : MoverJob := { step := page, part := 1025 }
        let s := jobWrite s pagerUnit j a (List.replicate 0x10000 0) (fun _ => false)
        if jobBusy s pagerUnit j then .next s else .next (zeroedPage s page)

/-! ### SEQ_OPEN (R243, R244) -/

/-- The lowest entry that is free. -/
def freeSeqEntry (s : State) : Option Nat :=
  let listed := (s.larder.seqs.find? (fun e => e.2.sstate == .free)).map (·.1)
  match listed, tfree s.larder.seqs 0 65536 with
  | some a, some b => some (min a b)
  | a, none => a
  | none, b => b

def pteCapacity := 16777216

/-- A model handle is bound in a partition (15 R430). -/
def modelBound (s : State) (p h : Nat) : Bool :=
  match tfind s.part.models h with
  | some m => m.part == p && m.bound && m.unbinding.isNone
  | none => false

/-- SEQ_OPEN. -/
def execSeqOpen (c : Nat) (s : State) : Host.Outcome State Fault Refusal :=
  .next (runCmd s c opSeqOpen (fun s t =>
    let f := fun lo w => bbits t.req lo w
    let p := t.ctx
    let model := f 0 32
    let reserve := f 64 32
    let maxPages := f 96 32
    let ptes := sum ((s.larder.seqs.filter (fun e => e.2.sstate != .free)).map (fun e => e.2.maxPages))
    let entry := freeSeqEntry s
    finishSync s c
      (firstFail [
        (f 34 14 != 0 || f 128 128 != 0 || (model != 0 && !modelBound s p model) || f 32 2 == 3 || maxPages == 0
          || 65536 < maxPages || maxPages < reserve, .badField),
        (entry.isNone || pteCapacity < ptes + maxPages || unreserved s p < reserve, .noResource)])
      (fun s =>
        match entry with
        | none => s
        | some q =>
          let g := (seqOf s q).generation
          { s with larder := { s.larder with seqs := tset s.larder.seqs q {
              generation := g, sstate := .opened, part := p, model := model, cls := f 32 2, deadline := f 48 16
              reserve := reserve, maxPages := maxPages } } })
      (fun s => (match entry with | some q => seqHandle s q | none => 0) + field (unreserved s p) 32 32)))

/-- SEQ_CLOSE_COMPLETE (R268): no step and no move names the sequence any more. -/
def execSeqCloseComplete (entry : Nat) (s : State) : Host.Outcome State Fault Refusal :=
  match (seqOf s entry).close with
  | none => .next s
  | some i =>
    if !seqIdle s entry then .next s
    else
      let (s, freed, lost) := freeSeq s entry
      .next (finalize s i.seq .ok (field freed 0 32 + field i.movesCancelled 32 32 + field i.movesLanded 64 32
        + field i.stepsCancelled 96 32 + field lost 128 32))

end Sys2Proof.Machine
end

