-- ==== Sys2Proof/Machine/Steps.lean ====
section
/-! DEFINITION. Steps: the descriptor and its checks, acceptance, processing, the order of steps, completion, and
SEQ_CLOSE (spec 09 R251–R258, R265–R269; 06 R186–R188; 02 R36). -/
namespace Sys2Proof.Machine

/-! ### The descriptor (Tables 9-5 to 9-7) -/

/-- No peg. -/
def noPeg := 0xFFFFFFFF

def pegField (x : Nat) : Option Nat := if x = noPeg then none else some x

/-- Where the touch list begins, and where the parts do. -/
def touchStart (b : Bytes) : Nat := 64 + roundUp (4 * bbits b 128 13) 16
def partStart (b : Bytes) : Nat := touchStart b + 16 * bbits b 144 16

/-- The parts of a payload, with a flag for nonzero reserved bits. -/
def readParts : Nat → Bytes → List (StepPart × Bool)
  | 0, _ => []
  | n + 1, b =>
    let bytes := leAt b 2 2
    ({ kind := bbits b 0 4, unit := bbits b 8 8, body := (b.drop 8).take bytes }, bbits b 4 4 != 0 || bbits b 32 32 != 0)
      :: readParts n (b.drop (8 + bytes))

/-- The touch entries, with a flag for nonzero reserved bits. -/
def readTouches (b : Bytes) : List (Touch × Bool) :=
  (List.range (bbits b 144 16)).map (fun i =>
    let e := (b.drop (touchStart b + 16 * i)).take 16
    ({ seq := bbits e 0 32, first := bbits e 32 16, count := bbits e 64 16, grow := bbits e 80 1 == 1
       cellar := bbits e 81 1 == 1 }, bbits e 48 16 != 0 || bbits e 82 46 != 0))

/-- The step that a descriptor spells. -/
def readStep (b : Bytes) : Step :=
  let f := fun lo w => bbits b lo w
  let tiers := f 115 4
  { skipOnExit := f 8 1 == 1, budget := f 16 8, image := f 32 32, kernel := f 64 16, cellars := f 96 7, coresPer := f 103 7
    groupsPer := f 110 5, tiers := if tiers = 0 then 3 else tiers
    batch := (List.range (f 128 13)).map (fun i => leAt b (64 + 4 * i) 4)
    touches := (readTouches b).map (·.1), parts := (readParts (f 160 16) (b.drop (partStart b))).map (·.1)
    pageListOffset := f 176 16, startPeg := pegField (f 192 32), donePeg := pegField (f 224 32), argAddr := f 256 64
    roundSeed := f 320 64, exitMap := f 384 64 }

/-- Reserved bits of the header, the batch padding, the touch entries and the part headers. -/
def stepReserved (b : Bytes) : Bool :=
  bbits b 9 7 != 0 || bbits b 24 8 != 0 || bbits b 119 9 != 0 || bbits b 141 3 != 0 || bbits b 448 64 != 0
    || ((b.drop (64 + 4 * bbits b 128 13)).take (touchStart b - 64 - 4 * bbits b 128 13)).any (· != 0)
    || (readTouches b).any (·.2) || (readParts (bbits b 160 16) (b.drop (partStart b))).any (·.2)

/-- The kernel that a step names, loaded in its partition: registers, scratch units and entry. -/
def stepKernel (s : State) (p image kernel : Nat) : Option (Nat × Nat × Nat) :=
  match tfind s.part.images image with
  | some i => if i.part = p ∧ i.loaded then i.kernels[kernel]? else none
  | none => none

/-- Groups of a kernel that fit on one core (04 R94). -/
def groupLimit (regs : Nat) : Nat := min 16 (512 / max 8 (roundUp regs 8))

/-- OP values of Tables 9-9 and 14-10. -/
def moverOps : List Nat := [0x01, 0x02, 0x20, 0x21, 0x22, 0x30, 0x31, 0x32, 0x33, 0x34, 0x40, 0x41, 0x42, 0x43, 0x44]

/-- A peg of a cellar of the partition. -/
def pegOwned (s : State) (p id : Nat) : Bool := id < 16384 && cellarUp s (id / 256) && cellarOwner s (id / 256) == p

/-- A partition holds a cellar in a quadrant. -/
def holdsQuadrant (s : State) (p q : Nat) : Bool := (List.range 16).any (fun i => cellarUp s (16 * q + i) && cellarOwner s (16 * q + i) == p)

/-- Core cycles in one fret (02 R28): the top variant runs at 1.95 GHz, the air variant at 1.20 GHz. -/
def fretCycles (s : State) : Nat := s.time.periodSteps * 500 * (if s.boot.variantNow = .l then 195 else 120) / 6400

/-- CARRY_CAP of an expert table at home (06 Table 6-8). -/
def tableCarryCap (s : State) (table : Nat) : Nat := leNat (readBytes s (table + 8) 4)

/-- Whole core cycles in frets 1–62. -/
def listFretCycles (s : State) : Nat := 62 * s.time.periodSteps * 500 * (if s.boot.variantNow = .l then 195 else 120) / 6400

/-- A ROUTE that 06 R180 refuses: its list phase exceeds frets 1–62. -/
def routeTooLong (s : State) (body : Bytes) : Bool :=
  match routeDesc body with
  | none => false
  | some d => listFretCycles s < listCycles d (if d.carry then tableCarryCap s d.table else 0)

/-- A part that R256 refuses. -/
def partRefused (s : State) (p cellars : Nat) (x : StepPart) : Bool :=
  let n := x.body.length
  n % 8 != 0 || n < 8 || 4096 < n ||
  (match x.kind with
   | 1 => n != 64 || !moverOps.contains (bbits x.body 0 8) || bbits x.body 48 16 != 0
       || (if cellars = 0 then !(x.unit < 64 && cellarUp s x.unit && cellarOwner s x.unit == p) else cellars ≤ x.unit)
       || (bbits x.body 46 1 == 1 && !pegOwned s p (bbits x.body 32 14))
   | 2 => n != 128 || cellars == 0 || 4 ≤ x.unit || !holdsQuadrant s p x.unit || routeTooLong s x.body
       || [640, 672, 704].any (fun lo => !pegOwned s p (bbits x.body lo 32))
   | 3 => n != 16 || cellars == 0 || 4 ≤ x.unit || !holdsQuadrant s p x.unit
   | 4 => !(x.unit < 8 && (siteOf s x.unit).present && (siteOf s x.unit).cap.executor && siteOwner s x.unit == p)
   | 5 => (match tfind s.chord.windows x.unit with | some w => w.part != p | none => true)
   | 6 => n != 8 || x.unit != 0 || bbits x.body 40 24 != 0 || !pegOwned s p (bbits x.body 0 14)
       || (bbits x.body 14 2 == 1 && bbits x.body 16 24 == 0)
   | _ => true)

/-- Two ROUTE parts on one expert table (06 R181). -/
def routesTwice (l : List StepPart) : Bool :=
  !distinct ((l.filter (fun x => x.kind == 2)).map (fun x => bbits x.body 256 64))

/-- Quadrants that the ROUTE and COMBINE parts name. -/
def routeQuadrants (l : List StepPart) : List Nat := ((l.filter (fun x => x.kind == 2 || x.kind == 3)).map (·.unit)).eraseDups

/-- A field that R256 refuses; a peer's step has an empty batch and no touches (R265). -/
def stepBadField (s : State) (p : Nat) (b : Bytes) (st : Step) (peer : Bool) : Bool :=
  let pegBad := fun (o : Option Nat) => match o with | some x => !pegOwned s p x | none => false
  let touched := sum (st.touches.map (·.count))
  stepReserved b || bbits b 0 8 != 0x10 || st.budget == 0 || 64 < st.cellars
    || (if peer then st.batch.length != 0 || st.touches.length != 0
        else st.batch.length == 0 || 4096 < st.batch.length || 16384 < st.touches.length)
    || 1024 < st.parts.length || st.argAddr % 64 != 0 || st.exitMap % 8 != 0 || pegBad st.startPeg || pegBad st.donePeg
    || !distinct st.batch || (st.cellars == 0 && st.parts.isEmpty)
    || st.groupsPer == 0 || 16 < st.groupsPer
    || (if st.cellars = 0 then st.image != 0 || st.coresPer != 0
        else st.coresPer == 0 || 64 < st.coresPer ||
          (match stepKernel s p st.image st.kernel with
           | some k => groupLimit k.1 < st.groupsPer
           | none => true))
    || st.touches.any (fun t => t.count == 0 || (seqOf s (t.seq % 65536)).maxPages < t.first + t.count)
    || 65536 < touched || st.parts.any (partRefused s p st.cellars) || routesTwice st.parts
    || st.cellars < (routeQuadrants st.parts).length
    || poolPages s p st.tiers == 0 || poolPages s p st.tiers < touched

/-- The first handle that R243 refuses. -/
def stepHandles (s : State) (p : Nat) (st : Step) : Option Status :=
  (st.batch ++ st.touches.map (·.seq)).findSome? (handleRefused s p)

/-- Save pages of a step under PREEMPT_AT_NEXT (R257). -/
def saveNeed (s : State) (p : Nat) (st : Step) : Nat :=
  if (partOf s p).overrun = .preemptAtNext then 6 * st.cellars * st.coresPer else 0

/-- The checks of R256, in order; the step table holds as many steps as a STEP_SLOT numbers. -/
def stepRefused (s : State) (p : Nat) (b : Bytes) (st : Step) (peer : Bool) : Option Status :=
  match stepHandles s p st with
  | some x => some x
  | none => firstFail [
      (stepBadField s p b st peer, .badField),
      ((tfree s.larder.steps 0 65536).isNone || unreserved s p < saveNeed s p st, .noResource)]

/-! ### The order of steps (R258) -/

/-- How long ago a step was committed, in commits. -/
def stepAge (s : State) (st : Step) : Nat := (s.cp.commitSeq + 2 ^ 32 - st.seq) % 2 ^ 32

/-- Step `a` in slot `x` was committed before step `b` in slot `y`. -/
def stepBefore (s : State) (x : Nat) (a : Step) (y : Nat) (b : Step) : Bool :=
  stepAge s b < stepAge s a || (stepAge s a == stepAge s b && x < y)

/-- Sequence entries that a step names. -/
def stepNames (st : Step) : List Nat := (st.batch.map (· % 65536) ++ st.touches.map (fun (t : Touch) => t.seq % 65536)).eraseDups

/-- Every step ordered before this one has its record. -/
def orderedOk (s : State) (slot : Nat) (st : Step) : Bool :=
  st.peer.isSome || (let names := stepNames st
    !s.larder.steps.any (fun e => e.1 != slot && e.2.peer.isNone && stepBefore s e.1 e.2 slot st
      && (stepNames e.2).any (fun q => names.contains q)))

/-! ### Completion (R266) -/

/-- The cores that a step holds, in the order of its core numbers. -/
def heldCores (st : Step) : List Nat := st.heldCellars.flatMap (fun c => (maskBits st.coreMask 64).map (fun i => c * 64 + i))

/-- RESULT of a step completion (Table 9-11). -/
def stepResult (st : Step) : Nat :=
  field (nth st.batch 0 0) 0 32 + field st.pagesMoved 32 32 + field st.dispatchTime 64 64 + field (min st.overrun 255) 128 8
    + field (min st.preempts 255) 136 8 + field st.flags 144 6 + field (b2n st.skipped) 150 1
    + field (b2n st.deadlineMissed) 151 1 + field st.newlyExited 160 16 + field (min st.waitStrums 0xFFFF) 176 16
    + field st.errorRef 192 32

/-- A range of a step's that the larder may write: mapped, and in no bound model (15 R432). -/
def larderMay (s : State) (write : Bool) (a n : Nat) : Bool :=
  match admitRange s tagDevice write a n with
  | .ok _ => a + n ≤ 2 ^ 48 && !(write && (inModelRange s a || inModelRange s (a + n - 1)))
  | _ => false

/-- An access error of the larder for a step: a record, which is the step's first if it has none yet (R266). -/
def larderError (s : State) (slot : Nat) (st : Step) (a : Nat) : State :=
  let (s, i) := logError s { severity := .accessError, unitClass := ucLarder, code := ecAccessError, partition := errPartition st.part
                             address := a, stepTag := st.tag }
  modStep s slot (fun st => { st with errorRef := if st.errorRef = 0 then i else st.errorRef })

/-- A reset ends steps with one of these. -/
def resetStatus (o : Option Status) : Bool := o == some .partitionReset || o == some .deviceReset

/-- A line that the larder reads or writes within one command: its home is in the hub, no die tracks it, and no shelf holds
it. -/
def larderDirect (s : State) (l : Nat) : Bool :=
  !tracked s l && (match placeOf s (l * 128) with
    | .shelf n => !shelfSleeps s n && !shelfHolds s (l * 128)
    | .far _ _ => true
    | .scratch _ => true
    | .coreStore _ => true
    | _ => false)

/-- The larder's own job of a step. -/
def larderJob (slot : Nat) : MoverJob := { step := slot, part := 0, started := true, posted := true }

/-- A write of the larder for a step: its page list, or its exit map.  What may not be written leaves a record. -/
def larderWrite (s : State) (slot : Nat) (st : Step) (a : Nat) (b : Bytes) : State :=
  if b.isEmpty then s
  else if larderMay s true a b.length then
    forEach (linesOf a b.length) s (fun s l =>
      let t := bytesOfLine a b l
      if larderDirect s l then noteDevice (writeLine s l t 0) (l * 128)
      else jobTxn s larderUnit (larderJob slot) { kind := .write, hpa := l * 128, bytes := t.length, data := t
                                                  client := .moverWrite larderUnit slot 0 })
  else larderError s slot st a

/-- Bytes of a step's exit map. -/
def exitMapBytes (st : Step) : Nat := (st.batch.length + 63) / 64 * 8

/-- A step has an exit map that the larder reads at its end. -/
def readsExitMap (s : State) (st : Step) : Bool := st.exitMap != 0 && !resetStatus st.code && larderMay s false st.exitMap (exitMapBytes st)

/-- The larder's read of a step's exit map, fetched where it is not at hand; `true` once nothing of it is missing. -/
def exitMapReady (s : State) (slot : Nat) (st : Step) : State × Bool :=
  if !readsExitMap s st ∨ (linesOf st.exitMap (exitMapBytes st)).all (larderDirect s) then (s, true)
  else
    let s := if (jobFind s larderUnit (jobId (larderJob slot))).isSome then s
             else { s with larder := { s.larder with movers := tmod s.larder.movers larderUnit [] (fun l => l ++ [larderJob slot]) } }
    match jobFind s larderUnit (jobId (larderJob slot)) with
    | none => (s, true)
    | some j => ensureRemote s larderUnit j st.exitMap (exitMapBytes st)

/-- The bytes of a step's exit map. -/
def exitMapBits (s : State) (slot : Nat) (st : Step) : Nat :=
  let n := exitMapBytes st
  match jobFind s larderUnit (jobId (larderJob slot)) with
  | some j => leNat (jobRead s larderUnit j st.exitMap n)
  | none => leNat (readBytes s st.exitMap n)

/-- Read the exit map and set EXITED (06 R186). -/
def readExitMap (s : State) (slot : Nat) (st : Step) : State :=
  if !readsExitMap s st then s
  else
    let m := exitMapBits s slot st
    let s := { s with larder := { s.larder with movers := tmodIf s.larder.movers larderUnit (fun l => l.filter (fun j => j.step != slot)) } }
    st.batch.zipIdx.foldl (fun (s : State) (e : Nat × Nat) =>
      let q := seqOf s (e.1 % 65536)
      if bitAt m e.2 ∧ !q.exited ∧ q.generation = e.1 / 65536 ∧ q.sstate ≠ .free then
        modStep (modSeq s (e.1 % 65536) (fun q => { q with exited := true })) slot (fun st => { st with
          newlyExited := st.newlyExited + 1 })
      else s) (noteDevice s st.exitMap)

/-- Unpin a page once; a retirement that waited for its last pin goes on (17 R483). -/
def unpinPage (s : State) (page : Nat) : State :=
  retireMove (modPage s page (fun p => { p with pins := p.pins - 1 })) page

/-- Free the cores of a step, keeping their flags for its record. -/
def freeCores (s : State) (slot : Nat) : State :=
  let l := coresOfStep s slot
  let flags := l.foldl (fun f k => Nat.lor f (coreOf s k).flags) 0
  let s := modStep s slot (fun st => { st with flags := Nat.lor st.flags (Nat.lor flags
    (st.saved.foldl (fun f x => Nat.lor f x.control.flags) 0)) })
  forEach l (leavePegs s l) (fun s k => modCore s k (fun c => { c with
    groups := [], tileOwner := none, regionQueue := [], flags := 0, step := none, stopped := false, saving := false
    loads := [], releases := [] }))

/-- The record of a step, where its submitter looks for it (R266, R265). -/
def deliverStep (s : State) (st : Step) : State :=
  let r : Record := {
    kind := .stepCompletion, partition := ctxField st.part, code := statusCode (st.code.getD .ok), tag := st.tag
    epoch := ctxEpoch s st.part, commitSeq := st.seq, result := stepResult st
    source := if st.mgmt then 0xFFFF else st.chan }
  match st.peer with
  | some (p, msg) =>
    let s := modPeer s p (fun x => { x with incoming := tdel x.incoming msg })
    sendReply s p ptStepDone msg 0 msg (leBytes 2 r.code ++ leBytes 1 (st.flags + b2n st.skipped * 64 + b2n st.deadlineMissed * 128)
      ++ leBytes 1 (min st.overrun 255)) (fun _ => false)
  | none => if st.mgmt then mgmtPush s { record := r, completion := true } else deliver s st.eqId r

/-- The step ends: exit map, DONE_PEG, record, unpin (R266).  `ran` says whether it was dispatched. -/
def endStep (s : State) (slot : Nat) (ran : Bool) : State :=
  match stepOf s slot with
  | none => s
  | some st =>
    let s := if ran then freeCores s slot else s
    let reset := resetStatus st.code
    let s := if ran then readExitMap s slot st else s
    let s := match st.donePeg with
      | some p => if reset then s
                  else if pegAllowed s st.part p then pegSignalOp (notePort s 87) p 1
                  else larderError s slot st p
      | none => s
    match stepOf s slot with
    | none => s
    | some st =>
      let s := deliverStep s st
      let l := { s.larder with steps := tdel s.larder.steps slot
                               deadlinesMissed := if st.deadlineMissed then satInc 32 s.larder.deadlinesMissed
                                                  else s.larder.deadlinesMissed }
      let s := { s with larder := l }
      forEach st.pinned s unpinPage

/-- A step ends without running; its record waits for the steps ordered before it. -/
def markUnrun (s : State) (slot : Nat) (code : Option Status) : State :=
  modStep s slot (fun st => if st.phase = .waiting then { st with phase := .unrun, code := code } else st)

/-- Steps that ended without running, the earliest first, whose turn has come. -/
def nextUnrun (s : State) : Option Nat :=
  ((s.larder.steps.filter (fun e => e.2.phase == .unrun && orderedOk s e.1 e.2)).foldl (fun (b : Option (Nat × Step)) e =>
    match b with
    | none => some e
    | some x => if stepBefore s e.1 e.2 x.1 x.2 then some e else b) none).map (·.1)

/-- Write the records of the steps that ended without running, in commit order. -/
def settleUnrun (s : State) : State :=
  s.larder.steps.foldl (fun (s : State) _ => match nextUnrun s with | some slot => endStep s slot false | none => s) s

/-! ### Processing (R247, R267, 06 R187) -/

/-- Every sequence of the batch has EXITED. -/
def batchExited (s : State) (st : Step) : Bool := !st.batch.isEmpty && st.batch.all (fun h => (seqOf s (h % 65536)).exited)

/-- What is wrong with a touched page, if anything. -/
def touchFails (s : State) (l : List (Touch × Nat × Nat × Option Nat)) : Option Status :=
  if l.any (fun x => (seqOf s x.2.1).maxPages ≤ x.2.2.1 || (x.2.2.2.isNone && !x.1.grow)) then some .badField
  else if l.any (fun x => match x.2.2.2.bind (pageOf s) with | some p => p.pstate == .lost | none => false) then some .poisoned
  else none

/-- Allocate the GROW pages that a step touches. -/
def allocTouched (s : State) (slot : Nat) (st : Step) (l : List (Touch × Nat × Nat × Option Nat)) : State :=
  forEach l s (fun s x =>
    if x.2.2.2.isSome then s
    else if (tfind (seqOf s x.2.1).pages x.2.2.1).isSome then s
    else allocPage s slot x.2.1 x.2.2.1 st.tiers x.1.cellar)

/-- Start the promotions of the pages that a step touches. -/
def promoteTouched (s : State) (slot : Nat) (st : Step) (l : List (Touch × Nat × Nat × Option Nat)) : State :=
  forEach l s (fun s x =>
    match tfind (seqOf s x.2.1).pages x.2.2.1 with
    | some hp => promotePage s slot x.2.1 hp st.tiers x.1.cellar
    | none => s)

/-- Process a waiting step: allocate its GROW pages and start its promotions. -/
def processStep (s : State) (slot : Nat) : State :=
  match stepOf s slot with
  | none => s
  | some st =>
    if st.phase ≠ .waiting then s
    else if st.skipOnExit ∧ batchExited s st then
      modStep (markUnrun s slot none) slot (fun st => { st with skipped := true })
    else
      let l := touchedPages s st
      match touchFails s l with
      | some code => markUnrun s slot (some code)
      | none => beginMoves (promoteTouched (allocTouched s slot st l) slot st l)

/-- A step at a boundary before the plan: one more boundary of waiting for a page, then processing again. -/
def reprocessStep (s : State) (slot : Nat) : State :=
  match stepOf s slot with
  | none => s
  | some st =>
    if st.phase ≠ .waiting then s
    else if (touchedPages s st).any (fun x => x.2.2.2.isNone) ∧ !(st.skipOnExit ∧ batchExited s st) then
      if 64 ≤ st.pageWait + 1 then markUnrun s slot (some .noResource)
      else processStep (modStep s slot (fun st => { st with pageWait := st.pageWait + 1 })) slot
    else processStep s slot

/-! ### STEP_SUBMIT -/

/-- What the larder records of an accepted step (R252, R257, R262). -/
def acceptedStep (s : State) (p : Nat) (b : Bytes) (st : Step) (cls dl : Nat) : Step :=
  let d := bbits b 80 16
  let d := if d = 0 then dl else if d = 0xFFFF then 0 else d
  { st with
    part := p, cls := cls, policy := (partOf s p).overrun, deadline := if d = 0 then none else some (s.time.strumCount + d)
    savePages := saveNeed s p st, acceptedAt := s.time.strumCount }

/-- Put an accepted step into the table and process it. -/
def addStep (s : State) (st : Step) : State :=
  match tfree s.larder.steps 0 65536 with
  | none => s
  | some slot =>
    settleUnrun (processStep { s with larder := { s.larder with steps := tset s.larder.steps slot st } } slot)

/-- STEP_SUBMIT (R256). -/
def execStepSubmit (c : Nat) (s : State) : Host.Outcome State Fault Refusal :=
  .next (runCmd s c opStepSubmit (fun s t =>
    let st := readStep t.req
    match stepRefused s t.ctx t.req st false with
    | some x => failCmd s c x
    | none =>
      let lead := seqOf s (nth st.batch 0 0 % 65536)
      let (s, n) := commit s
      let st := { acceptedStep s t.ctx t.req st lead.cls lead.deadline with
                  seq := n, tag := t.hdr.tag, eqId := t.hdr.eqId, mgmt := t.mgmt, chan := c }
      addStep (complete s c .accepted n 0) st))

/-! ### SEQ_CLOSE (R268) -/

/-- End the unplanned steps that name a sequence. -/
def cancelNaming (s : State) (q : Nat) (code : Status) : State :=
  let l := tkeys (s.larder.steps.filter (fun e => e.2.phase == .waiting && e.2.peer.isNone && namesSeq e.2 q))
  let s := forEach l s (fun s slot => markUnrun s slot (some code))
  modSeq s q (fun x => { x with close := x.close.map (fun i => { i with stepsCancelled := i.stepsCancelled + l.length }) })

/-- SEQ_CLOSE. -/
def execSeqClose (c : Nat) (s : State) : Host.Outcome State Fault Refusal :=
  .next (runCmd s c opSeqClose (fun s t =>
    let h := bbits t.req 0 32
    let cancel := bbits t.req 32 1 == 1
    match firstFail [(bbits t.req 33 95 != 0, Status.badField)] with
    | some x => failCmd s c x
    | none =>
      match handleRefused s t.ctx h with
      | some x => failCmd s c x
      | none =>
        let q := h % 65536
        let (s, n) := accept s c t q
        let s := beginClose s q n cancel
        if cancel then settleUnrun (cancelNaming s q .seqNotOpen) else s))

/-! ### STEP_COMPLETE (R266) -/

/-- Every thread group of a step has exited: on its cores and in its images. -/
def groupsDone (s : State) (slot : Nat) (st : Step) : Bool :=
  let live := fun (g : Tab Group) => g.any (fun e => !(liveThreads e.2).isEmpty)
  (coresOfStep s slot).all (fun k => !live (coreOf s k).groups) && !st.saved.any (fun x => live x.control.groups)

/-- A step stopped for good has nothing left on its cores but what they had issued. -/
def coresQuiet (s : State) (slot : Nat) : Bool := (coresOfStep s slot).all (fun k => (coreOf s k).loads.isEmpty)

/-- All that R34 counts as the step's work is done. -/
def workDone (s : State) (slot : Nat) (st : Step) : Bool :=
  groupsDone s slot st && st.parts.all (fun p => p.kind == 5 || p.phase == .done)

/-- Every group has exited, or was stopped for good, and every part has ended. -/
def stepFinished (s : State) (slot : Nat) (st : Step) : Bool :=
  (match st.phase with
   | .running => groupsDone s slot st
   | .saving => groupsDone s slot st
   | .preempted => groupsDone s slot st
   | .ending => coresQuiet s slot
   | _ => false) && st.parts.all (fun p => p.phase == .done)

/-- Write back what the step's cores and cellars hold dirty; `true` when home has acknowledged all of it. -/
def stepVisible (s : State) (slot : Nat) (st : Step) : State × Bool :=
  let s := forEach (coresOfStep s slot) s (fun s k => (releaseHome s k (.writeBack k 0)).1)
  (s, st.heldCellars.all (fun c => (unacked s c).isEmpty))

/-- STEP_COMPLETE. -/
def execStepComplete (slot : Nat) (s : State) : Host.Outcome State Fault Refusal :=
  match stepOf s slot with
  | none => .next s
  | some st =>
    if !stepFinished s slot st then .next s
    else
      match stepVisible s slot st with
      | (s, false) => .next s
      | (s, true) =>
        match exitMapReady s slot st with
        | (s, false) => .next s
        | (s, true) => .next (settleUnrun (endStep s slot true))

/-! ### Policy (R270) -/

/-- PARTITION_POLICY_SET. -/
def execPartitionPolicySet (c : Nat) (s : State) : Host.Outcome State Fault Refusal :=
  .next (runCmd s c opPartitionPolicySet (fun s t =>
    let f := fun lo w => bbits t.req lo w
    let bad := f 0 2 == 3 || f 2 6 != 0 || f 15 1 != 0 || f 23 1 != 0 || f 31 33 != 0 || 64 < f 8 7 || 64 < f 16 7 || 64 < f 24 7
    finishSync s c (if bad then some .badField else none)
      (fun s => modPart s t.ctx (fun p => { p with
        overrun := if f 0 2 = 0 then .cont else if f 0 2 = 1 then .preemptAtNext else .abort
        latencyShare := f 8 7, throughputShare := f 16 7, backgroundShare := f 24 7 }))
      (fun _ => 0)))

end Sys2Proof.Machine
end

