-- ==== Sys2Proof/Machine/Ways.lean ====
section
/-! DEFINITION. The persistent defect list as the session changes it, ways and banks that are disabled, and retired pages
(spec 07 R209–R211; 16 R451–R453; 17 R483–R484). -/
namespace Sys2Proof.Machine

/-! ### The defect list (16 R451, Table 16-7) -/

def dkCellar := 1
def dkCore := 2
def dkCbWay := 3
def dkCsWay := 4
def dkWayFailing := 5
def dkShelf := 6
def dkSoftRow := 7
def dkHardQueued := 8
def dkHardDone := 9
def dkEngine := 10
def dkAtticLane := 11
def dkPageRetired := 12

/-- Two entries name the same defect. -/
def sameDefect (a b : Defect) : Bool :=
  a.kind == b.kind && a.quadrant == b.quadrant && a.unit == b.unit && a.sub == b.sub && a.row == b.row

/-- Write an entry; a full list keeps the defect for the session only (R453). -/
def putDefect (s : State) (d : Defect) : State :=
  if 4096 ≤ s.boot.defects.length then { s with boot := { s.boot with defectListFull := true } }
  else { s with boot := { s.boot with
    defects := s.boot.defects ++ [{ d with firstStart := s.boot.startCount % 65536 }], defectSeq := s.boot.defectSeq + 1 } }

/-- Add an entry that the list does not hold yet. -/
def addDefect (s : State) (d : Defect) : State := if s.boot.defects.any (sameDefect d) then s else putDefect s d

/-- Remove entries. -/
def dropDefects (s : State) (p : Defect → Bool) : State :=
  if s.boot.defects.any p then
    { s with boot := { s.boot with defects := s.boot.defects.filter (fun d => !p d), defectSeq := s.boot.defectSeq + 1 } }
  else s

/-- Physical cellar (16 × quadrant + local) of a logical one, physical local core of a logical core, and the physical
quadrant and local unit of a shelf, engine or attic site with `n` units a quadrant (01 R14–R17). -/
def physCellar (s : State) (c : Nat) : Nat := tget s.boot.cellarPhys c c
def physCore (s : State) (k : Nat) : Nat :=
  nth (maskBits (tget s.boot.cellarPhysCores (k / 64) (2 ^ 64 - 1)) 64) (k % 64) (k % 64)

/-- A defect entry of a cellar and of a shelf. -/
def cellarDefect (s : State) (c kind sub : Nat) : Defect :=
  { kind := kind, quadrant := physCellar s c / 16, unit := physCellar s c % 16, sub := sub }
def shelfDefect (s : State) (n kind row : Nat) : Defect :=
  { kind := kind, quadrant := physQuadrant s (n / 3), unit := n % 3, row := row }

/-! ### Ways and banks (07 R209–R211) -/

/-- Raise WAY_DISABLED to the owner of a cellar and to management. -/
def raiseWay (s : State) (c cls : Nat) (det : Nat) : State :=
  let p := cellarOwner s c
  let src := source cls c
  let f := fun (_ : Nat) => field c 64 8 + det
  raiseMgmt (raiseTo s p .wayDisabled src f) p .wayDisabled src f

/-- The record of a disabled way or bank. -/
def recordWay (s : State) (c cls idx sub : Nat) : State :=
  logErr s { severity := .unitLost, unitClass := cls, unitIndex := idx, code := ecWayDisabled
             partition := errPartition (cellarOwner s c), sub := sub, cellarEpoch := (cellarOf s c).epoch }

/-- Dirty bytes of lines that leave as poison. -/
def poisonedBytes (l : List CacheLine) : Nat :=
  sum (l.map (fun x => popCount ((List.range 4).foldl (fun m q =>
    if bitAt x.poison q then m + field (bits x.dirty (32 * q) 32) (32 * q) 32 else m) 0) 128))

/-- A bank is scratch. -/
def bankIsScratch (c : Cellar) (b : Nat) : Bool := ((liveBanks c).take c.scratchBanks).contains b

def modBank (s : State) (c b : Nat) (f : Bank → Bank) : State :=
  modCellar s c (fun x => { x with banks := tmod x.banks b {} f })

/-- Disable a way of a cellar's buffer, or record it as failing while its bank is scratch. -/
def disableCellarWay (s : State) (c b w : Nat) : State :=
  let x := cellarOf s c
  let det := field b 79 4 + field w 83 4
  if bankIsScratch x b then
    let s := modBank s c b (fun k => { k with failingWays := setBit k.failingWays w })
    let s := addDefect s (cellarDefect s c dkWayFailing (b * 16 + w))
    raiseWay s c ucCellarBuffer (det + field 1 87 1)
  else
    let gone := x.lines.filter (fun e => keyBank e.1 == b && keyWay e.1 == w)
    let s := forEach gone s (fun s e => (writeHome s c e.2.line (dirtyBytes e.2) e.2.poison .none).1)
    let s := modCellar s c (fun x => { x with lines := x.lines.filter (fun e => !(keyBank e.1 == b && keyWay e.1 == w)) })
    let s := modBank s c b (fun k => { k with disabledWays := setBit k.disabledWays w, failingWays := clearBit k.failingWays w })
    let s := addDefect s (cellarDefect s c dkCbWay (b * 16 + w))
    let s := recordWay s c ucCellarBuffer c (b * 16 + w)
    raiseWay s c ucCellarBuffer (det + field (b2n (bitAt x.lockedWays w)) 90 1 + field (poisonedBytes (tvals gone)) 91 31)

/-- Disable a way of a core's store, or record it as failing while it is scratch. -/
def disableCoreWay (s : State) (k w : Nat) : State :=
  let x := coreOf s k
  let c := k / 64
  let det := field 1 72 1 + field (k % 64) 73 6 + field w 83 4
  let sub := physCore s k * 16 + w
  if w < 4 * x.scratchUnits then
    let s := modCore s k (fun x => { x with failingWays := setBit x.failingWays w })
    let s := addDefect s (cellarDefect s c dkWayFailing (sub + 2 ^ 15))
    raiseWay s c ucCoreStore (det + field 1 87 1)
  else
    let gone := x.lines.filter (fun e => e.1 / 128 == w)
    let s := modCore s k (fun x => { x with lines := x.lines.filter (fun e => e.1 / 128 != w) })
    let s := forEach gone s (fun s e => cellarStore s c e.2.line (dirtyBytes e.2) e.2.poison false false)
    let s := modCore s k (fun x => { x with disabledWays := setBit x.disabledWays w, failingWays := clearBit x.failingWays w })
    let s := addDefect s (cellarDefect s c dkCsWay sub)
    let s := recordWay s c ucCoreStore k w
    raiseWay s c ucCoreStore (det + field (poisonedBytes (tvals gone)) 91 31)

/-- Failing ways of a cellar's buffer whose bank has become cache are disabled. -/
def settleCellarWays (s : State) (c : Nat) : State :=
  forEach (cellarOf s c).banks s (fun s e =>
    if bankIsScratch (cellarOf s c) e.1 then s
    else forEach (maskBits e.2.failingWays 16) s (fun s w => disableCellarWay s c e.1 w))

/-- Failing ways of a core's store that have become cache are disabled. -/
def settleCoreWays (s : State) (k : Nat) : State :=
  forEach ((maskBits (coreOf s k).failingWays 12).filter (fun w => 4 * (coreOf s k).scratchUnits ≤ w)) s (fun s w => disableCoreWay s k w)

/-- Cache banks with fewer than 4 ways that are neither disabled nor locked. -/
def weakBanks (c : Cellar) : List Nat :=
  (cacheBanks c).filter (fun b => popCount (2 ^ 16 - 1 - Nat.lor (tget c.banks b {}).disabledWays (c.lockedWays % 2 ^ 16)) 16 < 4)

/-- At a boundary: a cellar with a weak bank writes everything back, releases its locks and drops the bank (R210). -/
def dropBanks (s : State) (c : Nat) : State :=
  let l := weakBanks (cellarOf s c)
  if l.isEmpty then s
  else
    let p := poisonedBytes (tvals (cellarOf s c).lines)
    let s := modCellar (flushCellar s c) c (fun x => { x with lockedWays := 0 })
    forEach l s (fun s b =>
      let s := modBank s c b (fun k => { k with off := true })
      let s := recordWay s c ucCellarBuffer c (b * 16)
      raiseWay s c ucCellarBuffer (field b 79 4 + field 1 88 1 + field 1 89 1 + field p 91 31))

/-- R210 in every cellar. -/
def boundaryBanks (s : State) : State := forEach (tkeys s.cells.cellars) s (fun s c => if cellarUp s c then dropBanks s c else s)

/-! ### Retiring pages (17 R483, R484) -/

/-- What becomes of a retired page by its state (R484). -/
def retireByState (s : State) (page : Nat) (x : Option Page) (inPool : Bool) : State :=
  match x with
  | none => if inPool then retirePage s page else s
  | some y =>
    match y.pstate with
    | .zeroing => retirePage (dropPager s page 1025) page
    | .retired => s
    | .lost => s
    | _ => retireMove { s with err := { s.err with retireWaiting := page :: s.err.retireWaiting } } page

/-- A retired page is counted, listed, logged and reported; the event's detail is a free value, since no table gives it. -/
def reportRetired (s : State) (page row p : Nat) : State :=
  let a := page * 0x10000
  let n := a / shelfSize
  let s := { s with err := { s.err with retiredPages := page :: s.err.retiredPages, pagesRetired := satInc 16 s.err.pagesRetired } }
  let s := addDefect s (shelfDefect s n dkPageRetired (a % shelfSize / 0x10000))
  let s := logErr s { severity := .retired, unitClass := ucShelf, unitIndex := n, code := ecPageRetired
                      partition := errPartition p, address := a, sub := row }
  let (k, s) := takeFresh s
  let det := fun (_ : Nat) => field (Config.random k) 64 256
  bumpGeneration (raiseMgmt (raiseTo s p .pageRetired (source ucShelf n) det) p .pageRetired (source ucShelf n) det)

/-- Whose page it is: its sequence's partition, else the partition that holds its memory. -/
def pagePartition (s : State) (page : Nat) : Nat :=
  match pageOf s page with
  | some y => if (seqOf s y.seq).sstate = .free then memoryOwner s (page * 0x10000) else (seqOf s y.seq).part
  | none => memoryOwner s (page * 0x10000)

/-- Retire the 64 KiB page of a shelf: by its state it leaves the pool at once, is moved, waits for its last pin, or stays
with its owner. -/
def retireShelfPage (s : State) (page row : Nat) : State :=
  let x := pageOf s page
  let lost : Bool := match x with | some (y : Page) => y.pstate == PageState.lost | none => false
  if s.err.retiredPages.contains page || lost then s
  else
    let inPool := (List.range 16).any (fun p => (pageTier s p page).isSome)
    retireByState (reportRetired s page row (pagePartition s page)) page x inPool

/-- Retire a row: every page of its shelf that holds a sector of it, the failing address's page among them. -/
def retireRow (s : State) (n row : Nat) (addr : Option Nat) : State :=
  let l := ((match addr with | some a => [a / 0x10000] | none => []) ++ (Config.rowPages n row).map (fun p => n * (shelfSize / 0x10000) + p % (shelfSize / 0x10000))).eraseDups
  forEach (l.filter (fun p => p / (shelfSize / 0x10000) == n)) s (fun s p => retireShelfPage s p row)

end Sys2Proof.Machine
end

