-- ==== Sys2Proof/Machine/Plan.lean ====
section
/-! DEFINITION. The plan: eligibility, placement, limits and dispatch; budgets, overruns, preemption and resumption; and the
reservations of Chord transfers (spec 09 R259–R265; 02 R28, R34–R41; 14 R405–R406; 12 R323). -/
namespace Sys2Proof.Machine

/-! ### Eligibility (R259, R260) -/

/-- A BACKGROUND step passed over at 256 boundaries counts as THROUGHPUT. -/
def effClass (st : Step) : Nat := if st.cls = 2 ∧ 256 ≤ st.passedOver then 1 else st.cls

/-- A scratch page of a preempted step's cellar that is not ON keeps the step waiting (18 R497). -/
def pinnedReachable (s : State) (st : Step) : Bool := st.pinned.all (pageReachable s)

/-- Attic sites that a step's unfinished parts name. -/
def atticSites (st : Step) : List Nat := ((st.parts.filter (fun p => p.kind == 4 && p.phase != .done)).map (·.unit)).eraseDups

/-- Each die can take the step's parts: at most 64 at once (12 R323). -/
def dieRoom (s : State) (st : Step) : Bool :=
  (atticSites st).all (fun t => !(domainOf s (domAttic t)).transition && (siteOf s t).parts.length
    + (st.parts.filter (fun p => p.kind == 4 && p.unit == t && p.phase != .done)).length ≤ 64)

/-- A step may stand in the next plan, its units apart. -/
def eligible (s : State) (slot : Nat) (st : Step) : Bool :=
  match st.phase with
  | .waiting => allResident s st && orderedOk s slot st && dieRoom s st
      && (match st.startPeg with | some p => (pegOf s p).count != 0 | none => true)
  | .preempted => pinnedReachable s st && dieRoom s st
  | _ => false

/-- The order of R260. -/
def planKey (s : State) (e : Nat × Step) : List Nat :=
  [effClass e.2, (match e.2.deadline with | some _ => 0 | none => 1), e.2.deadline.getD 0, 2 ^ 32 - stepAge s e.2, e.1]

/-- Eligible steps in the order of R260. -/
def candidates (s : State) : List (Nat × Step) :=
  (s.larder.steps.filter (fun e => eligible s e.1 e.2)).mergeSort (fun a b => decide (planKey s a ≤ planKey s b))

/-! ### Placement (R260, 02 R40, 07 R192) -/

/-- Core-store units of scratch that a step's kernel declares. -/
def stepSplit (s : State) (st : Step) : Nat := match stepKernel s st.part st.image st.kernel with | some k => k.2.1 | none => 0

/-- The cores of a cellar that a step of a partition, a split and an image may take: the image's digest check has passed on
them (16 R459). -/
def freeCoreMask (s : State) (p split image c : Nat) : Nat :=
  let cores := (List.range 64).map (fun i => c * 64 + i)
  let clash := cores.any (fun k => match (coreOf s k).step with
    | some slot => (match stepOf s slot with | some st => st.split != split | none => false)
    | none => false)
  if cellarOwner s c ≠ p ∨ !cellarUp s c ∨ !domainOn s (domCellar c) ∨ (cellarOf s c).resetting ∨ clash then 0
  else maskOf ((List.range 64).filter (fun i =>
    let k := c * 64 + i
    coreUp s k && (coreOf s k).step.isNone && !(coreOf s k).resetting && !(coreOf s k).saving
      && (tget (tget s.part.images image {}).cores k {}).digestOk))

/-- CELLAR pages of a step, by cellar, and its SHELF pages, by quadrant. -/
def cellarPages (s : State) (st : Step) : List Nat :=
  (stepPages s st).filterMap (fun p => match placeOf s (p * 0x10000) with | .scratch c => some c | _ => none)
def shelfQuads (s : State) (st : Step) : List Nat :=
  (stepPages s st).filterMap (fun p => match placeOf s (p * 0x10000) with | .shelf n => some (quadOfShelf n) | _ => none)

/-- The quadrant with most of a step's SHELF pages. -/
def bestQuad (l : List Nat) : Option Nat :=
  if l.isEmpty then none
  else [0, 1, 2, 3].foldl (fun (b : Option Nat) q =>
    match b with
    | none => some q
    | some x => if l.count x < l.count q then some q else b) none

/-- Cellars in the order a step prefers them. -/
def cellarOrder (s : State) (st : Step) : List Nat :=
  let held := cellarPages s st
  let quad := bestQuad (shelfQuads s st)
  let key := fun c => [b2n (!held.contains c), b2n (quad != some (quadOfCellar c)), c]
  (List.range 64).mergeSort (fun a b => decide (key a ≤ key b))

/-- The first choice of `n` more cellars, in preference order, that leaves `need` common cores and meets `ok`. -/
def chooseCellars (free : Nat → Nat) (need : Nat) (ok : List Nat → Bool) : List Nat → Nat → Nat → List Nat → Option (List Nat × Nat)
  | _, 0, mask, acc => if ok acc then some (acc, mask) else none
  | [], _ + 1, _, _ => none
  | c :: r, n + 1, mask, acc =>
    let m := Nat.land mask (free c)
    match (if need ≤ popCount m 64 then chooseCellars free need ok r n m (acc ++ [c]) else none) with
    | some x => some x
    | none => chooseCellars free need ok r (n + 1) mask acc

/-- The lowest `n` cores of a mask. -/
def lowestCores (mask n : Nat) : Nat := maskOf ((maskBits mask 64).take n)

/-- Cellars and core mask for a step, if its units are free.  A resumed step prefers the ones it had. -/
def placeStep (s : State) (st : Step) : Option (List Nat × Nat) :=
  if st.cellars = 0 then some ([], 0)
  else
    let split := stepSplit s st
    let free := freeCoreMask s st.part split st.image
    let same := st.phase == .preempted && st.heldCellars.length == st.cellars
      && st.heldCellars.all (fun c => Nat.land (free c) st.coreMask == st.coreMask)
    if same then some (st.heldCellars, st.coreMask)
    else
      let quads := routeQuadrants st.parts
      let ok := fun (l : List Nat) => quads.all (fun q => l.any (fun c => quadOfCellar c == q))
      (chooseCellars free st.coresPer ok (cellarOrder s st) st.cellars (2 ^ 64 - 1) []).map (fun r =>
        (r.1.mergeSort (fun a b => decide (a ≤ b)), lowestCores r.2 st.coresPer))

/-- Cores that steps of a class hold in a partition. -/
def classCores (s : State) (p cls : Nat) : Nat :=
  (s.cells.cores.filter (fun e => match e.2.step.bind (stepOf s) with
    | some st => st.part == p && effClass st == cls
    | none => false)).length

/-- A class takes no more cores than its share (R270). -/
def shareOk (s : State) (st : Step) : Bool :=
  let p := partOf s st.part
  let share := match effClass st with | 0 => p.latencyShare | 1 => p.throughputShare | _ => p.backgroundShare
  let total := sum ((List.range 64).map (fun c =>
    if cellarOwner s c = st.part ∧ cellarUp s c then popCount (tget s.boot.presentCores c 0) 64 else 0))
  st.cellars == 0 || (classCores s st.part (effClass st) + st.cellars * st.coresPer) * 64 ≤ share * total

/-! ### Putting a step into the plan -/

/-- Pin the pages a step touches; a move that has not begun is cancelled (R249, R259). -/
def pinPages (s : State) (slot : Nat) (l : List Nat) : State :=
  let s := forEach l s (fun s hp =>
    let s := match s.larder.moves.find? (fun m => m.src == hp && !m.begun) with | some m => cancelMove s m | none => s
    modPage s hp (fun p => { p with pins := p.pins + 1, lastTouch := s.time.boundaryTime }))
  modStep s slot (fun st => { st with pinned := l })

/-- The HPA of each page into its slot (R253). -/
def writePageList (s : State) (slot : Nat) (st : Step) : State :=
  larderWrite s slot st (st.argAddr + 8 * st.pageListOffset) (st.pinned.flatMap (fun p => leBytes 8 (p * 0x10000)))

/-- The cellar where a step runs, for its sequences: the lowest it holds, or that its mover parts name. -/
def runCellar (st : Step) (held : List Nat) : Option Nat :=
  let l := if held.isEmpty then (st.parts.filter (fun p => p.kind == 1)).map (·.unit) else held
  match l with | [] => none | a :: r => some (r.foldl min a)

/-- A step takes its place in the plan: cores held, pages pinned, lists written, counts set. -/
def planStep (s : State) (slot : Nat) (st : Step) (held : List Nat) (mask : Nat) : State :=
  let resume := st.phase == .preempted
  let s := modStep s slot (fun x => { x with
    phase := .planned, resume := resume, heldCellars := held, coreMask := mask, split := stepSplit s st
    budgetLeft := x.budget })
  let s := forEach (heldCores { st with heldCellars := held, coreMask := mask }) s (fun s k =>
    modCore s k (fun c => { c with step := some slot }))
  if resume then
    match stepOf s slot with | some x => writePageList s slot x | none => s
  else
    let s := pinPages s slot (stepPages s st)
    let s := match runCellar st held with
      | none => s
      | some c => forEach st.batch s (fun s h => modSeq s (h % 65536) (fun q => { q with lastCellar := some c }))
    let s := modStep s slot (fun x => { x with
      dispatchTime := s.time.boundaryTime, waitStrums := s.time.strumCount - x.acceptedAt
      deadlineMissed := match x.deadline with | some d => decide (d < s.time.strumCount) | none => false })
    match stepOf s slot with
    | none => s
    | some x =>
      let s := writePageList s slot x
      if x.exitMap = 0 then s else larderWrite s slot x x.exitMap (List.replicate (exitMapBytes x) 0)

/-- What a plan holds so far: slots, sequences, entries. -/
structure PlanAcc where
  slots : List Nat := []
  seqs : Nat := 0
  entries : Nat := 0
  deriving DecidableEq, Repr, Inhabited

/-- Plan one step if it still stands, fits what is left of the limits, and its units are free. -/
def tryPlan (s : State) (a : PlanAcc) (slot seqLimit entryLimit : Nat) : State × PlanAcc :=
  match stepOf s slot with
  | none => (s, a)
  | some st =>
    if !eligible s slot st ∨ seqLimit < a.seqs + st.batch.length ∨ entryLimit < a.entries + 1 ∨ !shareOk s st then (s, a)
    else
      match placeStep s st with
      | none => (s, a)
      | some (held, mask) =>
        (planStep s slot st held mask, { slots := a.slots ++ [slot], seqs := a.seqs + st.batch.length, entries := a.entries + 1 })

/-- 64-byte entries that a plan may hold (R28). -/
def planEntries (s : State) : Nat := (fretCycles s - 32) * 128 / 64

/-- Plan the steps of one partition among candidates within limits of its own. -/
def planPart (s : State) (a : PlanAcc) (l : List (Nat × Step)) (seqs entries : Nat) : State × PlanAcc × PlanAcc :=
  l.foldl (fun (r : State × PlanAcc × PlanAcc) e =>
    let (s, own, all) := r
    let (s', own') := tryPlan s own e.1 seqs entries
    if own'.entries = own.entries then r
    else (s', own', { slots := all.slots ++ [e.1], seqs := all.seqs + (own'.seqs - own.seqs), entries := all.entries + 1 }))
    (s, {}, a)

/-- The partitions' cellars, for their shares of the plan (R261). -/
def cellarsOf (s : State) (p : Nat) : Nat := ((List.range 64).filter (fun c => cellarUp s c && cellarOwner s c == p)).length

/-- Choose the steps of a plan: when partitions compete for a limit, each first fills its share, and what is left goes to the
others in ascending order (R261). -/
def choosePlan (s : State) (l : List (Nat × Step)) (entries : Nat) : State × PlanAcc :=
  let wantSeqs := sum (l.map (fun e => e.2.batch.length))
  let parts := ((l.map (fun e => e.2.part)).eraseDups).mergeSort (fun a b => decide (a ≤ b))
  if parts.length ≤ 1 ∨ (wantSeqs ≤ 4096 ∧ l.length ≤ entries) then
    l.foldl (fun (r : State × PlanAcc) e => tryPlan r.1 r.2 e.1 4096 entries) (s, {})
  else
    let total := max 1 (sum (parts.map (cellarsOf s)))
    let (s, a) := parts.foldl (fun (r : State × PlanAcc) p =>
      let w := cellarsOf s p
      let (s, _, all) := planPart r.1 r.2 (l.filter (fun e => e.2.part == p)) (4096 * w / total) (entries * w / total)
      (s, all)) (s, {})
    parts.foldl (fun (r : State × PlanAcc) p =>
      (l.filter (fun e => e.2.part == p)).foldl (fun (r : State × PlanAcc) e => tryPlan r.1 r.2 e.1 4096 entries) r) (s, a)

/-! ### Splits of the cellar buffers (07 R194) -/

/-- Scratch banks that a cellar's owner asks for. -/
def wantedScratch (s : State) (c : Nat) : Nat :=
  let banks := ((partOf s (cellarOwner s c)).regions.filter (fun r => r.kind == .scratch)).map (·.banks)
  min (sum banks) (liveBanks (cellarOf s c)).length

/-- A cellar that holds a larder page in scratch that a smaller split would lose keeps its split. -/
def scratchInUse (s : State) (c n : Nat) : Bool :=
  let base := (scratchBase + c * scratchStride) / 0x10000
  s.larder.pages.any (fun e => base + 8 * n ≤ e.1 && e.1 < base + 256)

/-- The cellars whose split the plan changes. -/
def splitChanges (s : State) : List (Nat × Nat) :=
  (List.range 64).filterMap (fun c =>
    let n := wantedScratch s c
    if cellarUp s c ∧ domainOn s (domCellar c) ∧ (cellarOf s c).scratchBanks ≠ n ∧ (cellarOf s c).lockedWays = 0
        ∧ !scratchInUse s c n ∧ (List.range 64).all (fun i => (coreOf s (c * 64 + i)).step.isNone)
        ∧ (jobsOf s c).isEmpty then some (c, n)
    else none)

/-- A new split takes effect: the whole cache is written back and dropped, and new scratch banks read zero. -/
def applySplit (s : State) (c : Nat) : State :=
  match (cellarOf s c).nextScratch with
  | none => s
  | some n =>
    if (List.range 64).any (fun i => match (coreOf s (c * 64 + i)).step.bind (stepOf s) with
        | some st => st.phase != .planned | none => false) ∨ (cellarOf s c).lockedWays ≠ 0 then s
    else
      let old := (cellarOf s c).scratchBanks
      let s := flushCellar s c
      let a := scratchBase + c * scratchStride + old * 0x80000
      let len := (n - old) * 0x80000
      let s := if old < n then setPoison (zeroBytes s a len) (a / 32) (len / 32) false else s
      settleCellarWays (modCellar s c (fun x => { x with scratchBanks := n, nextScratch := none })) c

/-! ### Reservations (14 R405, R406) -/

/-- RATE in Gb/s of a lane. -/
def laneGbps (rate : Nat) : Nat := if rate = 0 then 100 else if rate = 1 then 200 else 400

/-- CAP of an engine in one fret. -/
def fretCap (s : State) (e : Nat) : Nat :=
  let x := engineOf s e
  9 * (s.time.periodSteps * 500 - 256) * popCount x.txMask 16 * laneGbps x.rate / 5120 / 4096 * 4096

/-- Packet bytes of a transfer. -/
def transferBytes (len : Nat) : Nat := len + 64 * ((len + 4095) / 4096)

/-- The engine is a one-hop path to a node. -/
def oneHop (s : State) (e node : Nat) : Bool :=
  (llOf s e).llstate == .opened && (llOf s e).partner == node && (engineOf s e).estate == .up && !isEthernet (engineOf s e)

/-- Room for `n` packet bytes of an engine in a fret. -/
def fretRoom (s : State) (e f n : Nat) : Bool :=
  let l := s.larder.schedule.filter (fun x => x.engine == e && x.fret == f)
  l.length < 32 && sum (l.map (·.bytes)) + n ≤ fretCap s e

/-- Reserve frets for one PUT part, or count it as demoted. -/
def reservePut (s : State) (slot part : Nat) (b : Bytes) : State :=
  let dst := bbits b 128 64
  let w := (dst - peerBase) / peerStride
  let bytes := transferBytes (bbits b 192 32)
  let f0 := bbits b 226 6
  match (if peerBase ≤ dst then tfind s.chord.windows w else none) with
  | none => s
  | some x =>
    let shares := fun e => (List.range ((bytes + fretCap s e - 1) / max 1 (fretCap s e))).map (fun i =>
      ({ engine := e, fret := f0 + i, step := slot, part := part, bytes := min (fretCap s e) (bytes - i * fretCap s e)
         offset := i * fretCap s e } : SchedEntry))
    let fits := fun e => oneHop s e x.node && fretCap s e != 0 && f0 != 0
      && (shares e).all (fun y => y.fret ≤ 62 && fretRoom s e y.fret y.bytes)
    match (if x.eth ∨ s.time.fallback then none else (List.range 12).find? fits) with
    | some e => { s with larder := { s.larder with schedule := s.larder.schedule ++ shares e } }
    | none =>
      match (match peerFind s x.node x.part with | some p => pathEngines s (peerOf s p) | none => []) with
      | e :: _ => modLl s e (fun l => { l with demoted := satInc 16 l.demoted })
      | [] => s

/-- Reserve frets for the PUT parts of a planned step that set RESERVE. -/
def reserveStep (s : State) (slot : Nat) : State :=
  match stepOf s slot with
  | none => s
  | some st => st.parts.zipIdx.foldl (fun (s : State) (p : StepPart × Nat) =>
      if p.1.kind = 1 ∧ p.1.phase = .waiting ∧ bbits p.1.body 0 8 = 0x40 ∧ bbits p.1.body 225 1 = 1 then
        reservePut s slot p.2 p.1.body
      else s) s

/-! ### The plan of a strum (Table 2-3 steps 5 and 6) -/

/-- The HEADER entry; the count takes in every entry of the plan. -/
def headerEntry (boundary entries seqs : Nat) : Nat := field boundary 64 64 + field entries 128 16 + field seqs 144 13

/-- The DISPATCH entry of a planned step. -/
def dispatchEntry (s : State) (slot : Nat) (st : Step) : Nat :=
  1 + field (b2n st.resume) 4 1 + field st.part 5 4 + field slot 16 16 + field (maskOf st.heldCellars) 32 64
    + field st.coreMask 96 64 + field st.groupsPer 160 5 + field (stepSplit s st) 165 2 + field st.budget 167 8
    + field st.image 176 32 + field st.kernel 208 16 + field st.argAddr 224 64 + field (Config.partsAddr slot) 288 64
    + field st.parts.length 352 16 + field (maskOf (atticSites st)) 368 8 + field st.roundSeed 384 64

/-- The SPLIT entry: the S_b of every cellar from fret 1 on, and which of them change. -/
def splitEntry (s : State) : Nat :=
  2 + sum ((List.range 64).map (fun c => field ((cellarOf s c).nextScratch.getD (cellarOf s c).scratchBanks) (64 + 5 * c) 5))
    + field (maskOf ((List.range 64).filter (fun c => (cellarOf s c).nextScratch.isSome))) 384 64

/-- The entries of a plan, in the order of R263. -/
def planWords (s : State) (a : PlanAcc) (split : Bool) : List Nat :=
  let l := (if split then [splitEntry s] else [])
    ++ a.slots.filterMap (fun slot => (stepOf s slot).map (dispatchEntry s slot)) ++ [15 + field s.larder.bank 4 4]
  headerEntry s.time.boundaryTime (l.length + 1) a.seqs :: l

/-- The plan is recorded: its steps, sequences and length, and what was passed over; every engine takes the bank it names; and
it is broadcast on the harp, which only the larder and the CP drive (01 R13). -/
def recordPlan (s : State) (l : List (Nat × Step)) (a : PlanAcc) (surplus : Nat) : State :=
  let s := forEach l s (fun s e => if a.slots.contains e.1 then s
    else modStep s e.1 (fun st => { st with passedOver := st.passedOver + 1 }))
  let s := forEach a.slots s reserveStep
  let s := { s with
    larder := { s.larder with planSteps := a.slots, planSeqs := a.seqs, planBytes := 64 * (surplus + a.entries) }
    time := { s.time with lastPlanCycles := (64 * (surplus + a.entries) + 127) / 128 } }
  let s := forEach (List.range 12) s (fun s e => modLl s e (fun x => { x with bank := s.larder.bank }))
  emit s (.plan a.slots s.time.boundaryTime (planWords s a (surplus == 3)))

/-- Build and broadcast the plan.  While the CP domain is not ON the plan is empty (18 R501). -/
def buildPlan (s : State) : State :=
  let s := { s with larder := { s.larder with schedule := [], bank := (s.larder.bank + 1) % 16 } }
  let s := settleUnrun (forEach s.larder.steps s (fun s e => reprocessStep s e.1))
  let awake := domainOn s 101
  let splits := if awake then splitChanges s else []
  let s := forEach splits s (fun s c => modCellar s c.1 (fun x => { x with nextScratch := some c.2 }))
  let surplus := 2 + (if splits.isEmpty then 0 else 1)
  let l := if awake then candidates s else []
  let r := choosePlan s l (planEntries s - surplus)
  recordPlan r.1 l r.2 surplus

/-! ### Dispatch at fret 1 (Table 2-3 step 8) -/

/-- A part enters a phase. -/
def partPhase (s : State) (slot part : Nat) (ph : PartPhase) : State :=
  modStep s slot (fun st => { st with parts := st.parts.zipIdx.map (fun p => if p.2 = part then { p.1 with phase := ph } else p.1) })

/-- A fresh core for a step: its split, its scratch unspecified, and its groups at the kernel's entry. -/
def startCore (s : State) (slot : Nat) (st : Step) (k : Nat) : State :=
  match stepKernel s st.part st.image st.kernel with
  | none => s
  | some (regs, units, entry) =>
    let s := if (coreOf s k).scratchUnits = units then s else flushCore s k
    let (n, s) := takeFresh s
    let base := (tget s.part.images st.image {}).base
    (settleCoreWays · k) <| modCore s k (fun c => { c with
      scratchUnits := units, scratch := [], stamp := some n, scratchPoison := [], step := some slot, stopped := false
      saving := false, flags := 0, tile := {}, tileOwner := none, regionQueue := [], alloc := max 8 (roundUp regs 8)
      groups := (List.range st.groupsPer).map (fun g => (g, { entry := base + entry })) })

/-- The bytes of a little-endian value from an offset on that are not 0. -/
def valueCells (base n v : Nat) : Tab Byte :=
  ((List.range n).map (fun j => (base + j, BitVec.ofNat 8 (v / 256 ^ j)))).filter (fun e => e.2 != 0)

/-- The values of one width that a save area holds from an offset on, by index. -/
def cellValues (l : Tab Byte) (base size width : Nat) : Tab Nat :=
  (l.filter (fun e => base ≤ e.1 ∧ e.1 < base + size)).foldl (fun (t : Tab Nat) e =>
    let i := (e.1 - base) / width
    tset t i (tget t i 0 + e.2.toNat * 256 ^ ((e.1 - base) % width))) []

/-- Bytes of the registers of a core's groups in its save area. -/
def areaRegs (groups alloc : Nat) : Nat := groups * alloc * 256

/-- The image of a core in its save area, in the order of 04 R120: the allocated registers of each resident group in ascending
group order, then the accumulator store, then the scratch.  An unlisted byte of registers and accumulators is 0; an unlisted
byte of scratch has not been written.  DESIGN CHOICE (04 R120 gives no finer order): a group's registers follow one another by
number, each as 64 threads of 4 bytes; the accumulators follow row by row; all little-endian. -/
def saveImage (c : Core) : Tab Byte :=
  let acc := areaRegs c.groups.length c.alloc
  c.groups.zipIdx.flatMap (fun e => e.1.2.regs.flatMap (fun r => valueCells (areaRegs e.2 c.alloc + 4 * r.1) 4 r.2))
    ++ c.tile.elems.flatMap (fun e => valueCells (acc + 16 * e.1) 16 e.2)
    ++ c.scratch.map (fun e => (acc + 0x10000 + e.1, e.2))

/-- The control record of a core (04 R120; 05 R148): all that a resume needs beside the image. -/
def controlRecord (c : Core) : Core := {
  scratchUnits := c.scratchUnits, stamp := c.stamp, scratchPoison := c.scratchPoison, tile := { c.tile with elems := [] }
  tileOwner := c.tileOwner, regionQueue := c.regionQueue, flags := c.flags, alloc := c.alloc, releases := c.releases
  groups := tmap c.groups (fun _ g => { g with regs := [] }) }

/-- A core as its image and its control record give it back: a pending peg WAIT is issued again (04 R120). -/
def loadImage (c : Core) (m : Core) (area : Tab Byte) : Core :=
  let acc := areaRegs m.groups.length m.alloc
  let again : Wait → Bool := fun w => match w with | .peg _ => false | _ => true
  { c with
    scratchUnits := m.scratchUnits, stamp := m.stamp, scratchPoison := m.scratchPoison
    scratch := (area.filter (fun e => acc + 0x10000 ≤ e.1)).map (fun e => (e.1 - (acc + 0x10000), e.2))
    tile := { m.tile with elems := cellValues area acc 0x10000 16 }
    tileOwner := m.tileOwner, regionQueue := m.regionQueue, flags := m.flags, alloc := m.alloc
    groups := m.groups.zipIdx.map (fun e => (e.1.1, { e.1.2 with
      regs := cellValues area (areaRegs e.2 m.alloc) (256 * m.alloc) 4, waits := e.1.2.waits.filter (fun w => again w.2) })) }

/-- A core takes a saved image again (02 R38–R40).  DESIGN CHOICE (04 R110 says only that a thread sees its own accesses in
program order): it first drops the clean lines that it held, as an acquire at DEVICE scope does, because the image may come
from another core, whose lines went home with the save. -/
def resumeCore (s : State) (slot : Nat) (st : Step) (k i : Nat) : State :=
  match st.saved.find? (fun x => x.core == i) with
  | none => s
  | some x =>
    let s := if (coreOf s k).scratchUnits = x.control.scratchUnits then s else flushCore s k
    (settleCoreWays · k) <| modCore (acquire' s k .device) k (fun c => { loadImage c x.control x.area with
      step := some slot, stopped := false, saving := false
      releases := tmap x.control.releases (fun _ r => { r with core := k }) })

/-- The STEP_DISPATCH message of an ATTIC part (12 R323). -/
def dispatchMsg (slot : Nat) (st : Step) (p : StepPart) : AtpMsg :=
  let resume := !p.token.isEmpty
  let head := leBytes 32 (field (st.argAddr + 8 * st.pageListOffset) 0 64 + field st.budget 64 8 + field (b2n resume) 72 1)
  let body := p.body ++ List.replicate (roundUp p.body.length 32 - p.body.length) 0
  let data := head ++ p.token ++ body
  { opcode := 0x50, txn := slot, len := data.length / 32, address := st.argAddr, data := data }

/-- Start one part that waits: a descriptor on its mover or routing engine, a part on its die, a step at a peer. -/
def startPart (s : State) (slot : Nat) (st : Step) (i : Nat) (p : StepPart) : State :=
  if p.phase ≠ .waiting ∧ p.phase ≠ .saved then s
  else
    let job := fun (s : State) (c : Nat) =>
      let j : MoverJob := { step := slot, part := i }
      partPhase { s with larder := { s.larder with movers := tmod s.larder.movers c [] (fun l => l ++ [j]) } } slot i .running
    match p.kind with
    | 1 => job s (if st.cellars = 0 then p.unit else nth st.heldCellars p.unit 0)
    | 2 => job s (64 + p.unit)
    | 3 => job s (64 + p.unit)
    | 4 =>
      if (siteOf s p.unit).astate ≠ .up ∧ (siteOf s p.unit).astate ≠ .retraining then
        partDone (setFailure s slot .poisoned 0) slot i
      else
        let s := modSite s p.unit (fun x => { x with parts := x.parts ++ [{ step := slot, part := i }] })
        sendAtp (partPhase s slot i .running) p.unit (dispatchMsg slot st p)
    | 5 =>
      match windowPeer s p.unit with
      | (s, none) => countCreateWait s
      | (s, some e) =>
        if (peerOf s e).unreachable then partDone (setFailure s slot .poisoned 0) slot i
        else
          let m : Message := { ptype := ptStep, client := .stepPart slot i, window := some p.unit, bytes := p.body.length }
          partPhase (sendMessage s e m 0 0 p.body (fun _ => false) false false).1 slot i .running
    | _ => s

/-- Start the parts of a step that wait. -/
def startParts (s : State) (slot : Nat) : State :=
  match stepOf s slot with
  | none => s
  | some st => st.parts.zipIdx.foldl (fun (s : State) (p : StepPart × Nat) => startPart s slot st p.2 p.1) s

/-- A failure while parts start stops the step. -/
def checkFailure (s : State) (slot : Nat) : State :=
  match stepOf s slot with
  | some st => (match st.code with | some c => stopStep s slot c false | none => s)
  | none => s

/-- Dispatch one planned step. -/
def dispatchStep (s : State) (slot : Nat) : State :=
  match stepOf s slot with
  | none => s
  | some st =>
    if st.phase ≠ .planned then s
    else if !st.resume ∧ st.pinned.any (fun p => match pageOf s p with | some x => x.pstate == .lost | none => false) then
      -- it does not run: its cores are free again, and its record carries no DISPATCH_TIME (09 R250, Table 9-11)
      let s := forEach (coresOfStep s slot) s (fun s k => modCore s k (fun c => { c with step := none }))
      settleUnrun (endStep (setFailure (modStep s slot (fun st => { st with dispatchTime := 0 })) slot .poisoned 0) slot false)
    else
      let s := if st.resume then s else
        st.parts.zipIdx.foldl (fun (s : State) (p : StepPart × Nat) =>
          if p.1.kind ≠ 6 then s
          else
            let b := p.1.body
            let ty : PegType := match bbits b 14 2 with | 0 => .none | 1 => .barrier | 2 => .semaphore | _ => .event
            partDone (pegSetOp s (bbits b 0 14) ty (bbits b 16 24)) slot p.2) s
      let s := (heldCores st).zipIdx.foldl (fun (s : State) (k : Nat × Nat) =>
        if st.resume then resumeCore s slot st k.1 k.2 else startCore s slot st k.1) s
      let s := modStep s slot (fun st => { st with phase := .running, saved := [] })
      checkFailure (startParts s slot) slot

/-- Fret 1: the splits change, then the steps of the plan start; and the list phases that may begin do. -/
def planDispatch (s : State) : State :=
  let s := forEach (List.range 64) s applySplit
  routeFret (forEach s.larder.planSteps s dispatchStep)

/-! ### Budgets and overruns (02 R34–R41) -/

/-- Stop a step under PREEMPT_AT_NEXT: its cores save, its movers stop at the next descriptor, its dies are told.  A release
already issued runs on: its threads keep waiting for it, and the save waits until home has acknowledged it (02 R37).  The core's
dirty lines go home with the save, as at a release at DEVICE scope: DESIGN CHOICE, so that the step sees its own stores on
whichever core it resumes (04 R110). -/
def preemptStep (s : State) (slot : Nat) : State :=
  let l := coresOfStep s slot
  let s := forEach l (leavePegs s l) (fun s k =>
    let s := (releaseHome s k .none).1
    let n := unacked s (k / 64)
    modCore s k (fun c => { c with stopped := true, saving := true, saveWrites := n }))
  -- descriptors that have not started resume with the step
  let gone := fun (j : MoverJob) => j.step == slot && !j.started
  let back := s.larder.movers.flatMap (fun e => (e.2.filter gone).map (·.part))
  let s := { s with larder := { s.larder with movers := tmap s.larder.movers (fun _ l => l.filter (fun j => !gone j)) } }
  let s := forEach back s (fun s i => partPhase s slot i .waiting)
  stopAttic (modStep s slot (fun st => { st with phase := .saving })) slot false .preemptAtNext

/-- A step passes a boundary: it is on time while its budget lasts or its work is done.  DESIGN CHOICE: the overrun that would
be the 255th preemption itself stops the step, and is counted in PREEMPTS; R40 says only that a step is stopped after its
255th preemption. -/
def judgeStep (s : State) (slot : Nat) : State :=
  match stepOf s slot with
  | none => s
  | some st =>
    if st.phase ≠ .running then s
    else if 1 < st.budgetLeft then modStep s slot (fun st => { st with budgetLeft := st.budgetLeft - 1 })
    else if workDone s slot st then modStep s slot (fun st => { st with budgetLeft := 0 })
    else
      let first := st.budgetLeft != 0
      let s := modStep s slot (fun st => { st with budgetLeft := 0, overrun := min 255 (st.overrun + 1) })
      let s := if st.overrunRaised then s else
        let s := raiseTo s st.part .stepOverrun (source ucLarder 0) (fun _ => 0)
        let l := { s.larder with overruns := satInc 32 s.larder.overruns }
        modStep { s with larder := l } slot (fun st => { st with overrunRaised := true })
      match st.policy with
      | .cont => if first then stopAttic s slot false .cont else s
      | .abort => failStep s slot .stepBudgetExceeded 0
      | .preemptAtNext =>
        let s := modStep s slot (fun st => { st with preempts := min 255 (st.preempts + 1) })
        if 255 ≤ st.preempts + 1 then failStep s slot .stepPreemptLimit 0 else preemptStep s slot

/-- A step whose save has ended on every unit is preempted; its units are free for the plan. -/
def settleSaving (s : State) (slot : Nat) : State :=
  match stepOf s slot with
  | none => s
  | some st =>
    if st.phase ≠ .saving ∨ !(coresOfStep s slot).isEmpty ∨ !(atticParts s slot).isEmpty
        ∨ s.larder.movers.any (fun e => e.2.any (fun j => j.step == slot && j.part < 1024)) then s
    else modStep s slot (fun st => { st with phase := .preempted })

/-- PREEMPT_SAVE_DONE (02 R39): the core's image is written once what it had issued has ended; the core is free. -/
def execPreemptSaveDone (core : Nat) (s : State) : Host.Outcome State Fault Refusal :=
  let c := coreOf s core
  match c.step with
  | none => .next s
  | some slot =>
    if !c.saving ∨ !c.loads.isEmpty ∨ c.releases.any (fun r => !r.2.done)
        ∨ (unacked s (core / 64)).any (fun n => c.saveWrites.contains n) then .next s
    else
      match stepOf s slot with
      | none => .next s
      | some st =>
        let i := ((heldCores st).zipIdx.find? (fun x => x.1 == core)).map (·.2) |>.getD 0
        let s := modStep s slot (fun st => { st with saved := st.saved ++ [{ core := i, area := saveImage c, control := controlRecord c }] })
        .next (modCore s core (fun c => { c with
          groups := [], tile := {}, tileOwner := none, regionQueue := [], flags := 0, step := none, stopped := false
          saving := false, saveWrites := [], releases := [] }))

end Sys2Proof.Machine
end

