-- ==== Sys2Proof/Machine/Reg.lean ====
section
/-! DEFINITION. The bandwidth regulators: master ports, budgets, shelf regulators, the reload at a boundary, and QOS_SET
(spec 10; 18 R510). -/
namespace Sys2Proof.Machine

/-- Σ of configured SG at a shelf. -/
def shelfSum (s : State) (n : Nat) : Nat := sum ((List.range 16).map (fun p => (shelfRegOf s n p).guarantee))

/-- Σ of configured G of a partition's masters. -/
def masterSum (s : State) (p : Nat) : Nat := sum ((mastersOf s p).map (fun m => (masterOf s m).guarantee))

/-! ### Missed and derated (R286–R289, Table 10-4) -/

/-- The detail of GUARANTEE_MISSED and GUARANTEE_DERATED, without its boundary. -/
structure RegDetail where
  shelf : Bool := false
  restored : Bool := false
  allotment : Bool := false
  index : Nat := 0
  part : Nat := 31
  capacity : Nat := 0
  configured : Nat := 0
  guarantee : Nat := 0
  missed : Nat := 0
  deriving DecidableEq, Repr, Inhabited

def regDetail (s : State) (d : RegDetail) (_ : Nat) : Nat :=
  field (b2n d.shelf) 64 1 + field (b2n d.restored) 65 1 + field (b2n d.allotment) 66 1 + field d.index 72 8
    + field d.part 80 5 + field d.capacity 96 20 + field d.configured 116 20 + field d.guarantee 136 20
    + field d.missed 192 32 + field s.time.boundaryTime 256 64

/-- Raise to the owning partition, or the device context, and to management. -/
def raiseReg (s : State) (e : EventCode) (ctx : Nat) (d : RegDetail) : State :=
  let src := source ucRegulator (if d.shelf then 128 + d.index else d.index)
  raiseMgmt (raiseTo s ctx e src (regDetail s d)) ctx e src (regDetail s d)

/-- At most one GUARANTEE_MISSED of a resource in any 64 consecutive strums. -/
def mayRaise (s : State) (last : Option Nat) : Bool :=
  match last with | none => true | some n => n + 64 ≤ s.time.strumCount

/-- A master at the boundary that ends a strum. -/
def endMasterStrum (s : State) (m : Nat) : State :=
  let x := masterOf s m
  if x.missNow = 0 then s
  else
    let raise := mayRaise s x.lastEvent
    let s := if !raise then s else
      raiseReg s .guaranteeMissed ((masterOwner s m).getD 0) {
        index := m, part := match masterOwner s m with | some p => p | none => 31
        capacity := x.budget, guarantee := x.effective, missed := x.missCyclesNow }
    modMaster s m (fun x => { x with missedStrums := satInc 32 x.missedStrums, missNow := 0, missCyclesNow := 0
                                     lastEvent := if raise then some s.time.strumCount else x.lastEvent })

/-- A shelf regulator at the boundary that ends a strum. -/
def endShelfStrum (s : State) (n p : Nat) : State :=
  let x := shelfRegOf s n p
  if x.missNow = 0 then s
  else
    let raise := mayRaise s x.lastEvent
    let s := if !raise then s else
      raiseReg s .guaranteeMissed p {
        shelf := true, index := n, part := p, capacity := x.budget, guarantee := x.effective, missed := x.missCyclesNow }
    modShelfReg s n p (fun x => { x with missedStrums := satInc 32 x.missedStrums, missNow := 0, missCyclesNow := 0
                                         lastEvent := if raise then some s.time.strumCount else x.lastEvent })

/-! ### The reload (R273, R281, R288, R289, 12 R327, 18 Table 18-5) -/

/-- Effective guarantees of a partition's masters, scaled while its allotment is too small. -/
def reloadPartition (s : State) (p : Nat) : State :=
  let total := masterSum s p
  let allot := allotOf s p
  let scaled := allot < total
  let was := s.reg.scaled.contains p
  let eff := fun (g : Nat) => if scaled then g * allot / total else g
  let l := mastersOf s p
  let changed := l.filter (fun m => (masterOf s m).effective != eff (masterOf s m).guarantee)
  let s := forEach changed s (fun s m => modMaster s m (fun x => { x with effective := eff x.guarantee }))
  let s := { s with reg := { s.reg with scaled := if scaled then (if was then s.reg.scaled else p :: s.reg.scaled)
                                                  else s.reg.scaled.filter (· != p) } }
  if !scaled && !was then s
  else
    forEach changed s (fun s m => raiseReg s .guaranteeDerated p {
      restored := !scaled, allotment := true, index := m, part := p, capacity := allot, configured := total
      guarantee := (masterOf s m).effective })

/-- Effective guarantees of a shelf's regulators, derated while the shelf has lost capacity. -/
def reloadShelf (s : State) (n : Nat) : State :=
  let total := shelfSum s n
  let cap := shelfCap s n
  let derated := cap < total
  let was := s.reg.derated.contains n
  let eff := fun (g : Nat) => if derated then g * cap / total else g
  let ps := List.range 16
  let changed := ps.any (fun p => (shelfRegOf s n p).effective != eff (shelfRegOf s n p).guarantee)
  let s := forEach ps s (fun s p =>
    if (shelfRegOf s n p).effective = eff (shelfRegOf s n p).guarantee then s
    else modShelfReg s n p (fun x => { x with effective := eff x.guarantee }))
  let s := { s with reg := { s.reg with derated := if derated then (if was then s.reg.derated else n :: s.reg.derated)
                                                   else s.reg.derated.filter (· != n) } }
  if !changed || (!derated && !was) then s
  else
    let d := fun (p : Nat) (g : Nat) => ({ shelf := true, restored := !derated, index := n, part := p, capacity := cap
                                           configured := total, guarantee := g } : RegDetail)
    let src := source ucRegulator (128 + n)
    let s := forEach (ps.filter (fun p => (shelfRegOf s n p).guarantee != 0)) s (fun s p =>
      raiseTo s p .guaranteeDerated src (regDetail s (d p (shelfRegOf s n p).effective)))
    raiseMgmt s 0 .guaranteeDerated src (regDetail s (d 31 0))

/-- The budgets of R273 over a list of resources: (key, effective, weight, active). -/
def budgets (pool : Nat) (l : List (Nat × Nat × Nat × Bool)) : List (Nat × Nat) :=
  let rem := pool - sum (l.map (fun x => x.2.1))
  let w := sum ((l.filter (fun x => x.2.2.2)).map (fun x => x.2.2.1))
  l.map (fun (x : Nat × Nat × Nat × Bool) => (x.1, if x.2.2.2 && decide (0 < w) then max 4 (x.2.1 + rem * x.2.2.1 / w) else max 4 x.2.1))

/-- A master port whose budget level 5 cuts to its effective guarantee. -/
def cutAtLevel5 (m : Nat) : Bool := m < 72

/-- A site whose reports R327 holds against it has half its budget. -/
def halvedBudget (s : State) (m v : Nat) : Nat := if 64 ≤ m && m < 72 && (siteOf s (m - 64)).halved then v / 2 else v

/-- The budget that is left to a cut master: its effective guarantee; a site that R327 halves keeps half of it. -/
def cutBudget (s : State) (m : Nat) : Nat := halvedBudget s m (max 4 (masterOf s m).effective)

/-- Every master's budget for the strum. -/
def reloadMasters (s : State) : State :=
  let l := (presentMasters s).map (fun m =>
    let x := masterOf s m
    (m, x.effective, x.weight, x.active || !(waitingAt s m).isEmpty))
  let b := budgets poolUnits l
  forEach b s (fun s e =>
    let m := e.1
    let cut := 5 ≤ s.pwr.level && cutAtLevel5 m
    let v := if cut then cutBudget s m else halvedBudget s m e.2
    modMaster s m (fun x => { x with budget := v, active := false }))

/-- Every partition's budget at a shelf for the strum. -/
def reloadShelfBudgets (s : State) (n : Nat) : State :=
  let ps := (List.range 16).filter (fun p => p == 0 || (partOf s p).pstate != .none)
  let held := fun (p : Nat) => s.mem.txns.any (fun e => e.2.phase == .shelfHeld && (match placeOf s e.2.hpa with
    | .shelf k => k == n | _ => false) && (if e.2.tag < 16 then e.2.tag == p else memoryOwner s e.2.hpa == p))
  let b := budgets (shelfCap s n) (ps.map (fun p => let x := shelfRegOf s n p; (p, x.effective, x.weight, x.active || held p)))
  forEach b s (fun s e => modShelfReg s n e.1 (fun x => { x with budget := e.2, active := false }))

/-- Table 2-3 step 3. -/
def regReload (s : State) : State :=
  let shelves := (List.range 12).filter (bitAt s.boot.presentShelves)
  let s := forEach (presentMasters s) s endMasterStrum
  let s := forEach shelves s (fun s n => forEach (List.range 16) s (fun s p => endShelfStrum s n p))
  let s := forEach (0 :: partCtxs s) s reloadPartition
  let s := forEach (deviceMasters s) s (fun s m =>
    if (masterOf s m).effective = (masterOf s m).guarantee then s
    else modMaster s m (fun x => { x with effective := x.guarantee }))
  let s := forEach shelves s reloadShelf
  let s := reloadMasters s
  forEach shelves s reloadShelfBudgets

/-! ### QOS_SET (R282–R284) -/

/-- An entry of Table 10-3. -/
structure QosEntry where
  kind : Nat := 0
  index : Nat := 0
  part : Nat := 0
  guarantee : Nat := 0
  weight : Nat := 0
  rsvd : Nat := 0
  deriving DecidableEq, Repr, Inhabited

def qosEntries (b : Bytes) : List QosEntry :=
  (List.range (leAt b 2 2)).map (fun i =>
    let f := fun lo w => bbits b (64 + 64 * i + lo) w
    { kind := f 0 8, index := f 8 8, part := f 16 5, guarantee := f 24 20, weight := f 44 8, rsvd := f 21 3 + f 52 12 })

/-- Why an entry is refused, for the Own role of a partition or for management. -/
def qosRefused (s : State) (mgmt : Bool) (ctx : Nat) (e : QosEntry) : Option Status :=
  let own := if e.kind = 0 ∧ e.index < 89 then masterOwner s e.index else none
  firstFail [
    (2 < e.kind || e.rsvd != 0 || (e.kind == 0 && 89 ≤ e.index) || (e.kind == 1 && 12 ≤ e.index)
      || (e.kind == 2 && e.index != 0), .badField),
    (!mgmt && (e.kind != 0 || own.isNone), .deniedRole),
    (!mgmt && own != some ctx, .deniedPartition),
    ((e.kind != 0 && (16 ≤ e.part || (e.part != 0 && (partOf s e.part).pstate == .none)))
      || (e.kind == 0 && e.guarantee != 0 && !masterPresent s e.index)
      || (e.kind == 1 && (e.guarantee != 0 && !bitAt s.boot.presentShelves e.index)), .badField)]

/-- Apply an entry. -/
def qosApply (s : State) (e : QosEntry) : State :=
  match e.kind with
  | 0 => modMaster s e.index (fun x => { x with guarantee := e.guarantee, weight := e.weight })
  | 1 => modShelfReg s e.index e.part (fun x => { x with guarantee := e.guarantee, weight := e.weight })
  | _ => { s with reg := { s.reg with allot := tset s.reg.allot e.part e.guarantee } }

/-- What an entry asks of its resource in the resulting configuration `t`: units required and available. -/
def qosNeed (s t : State) (e : QosEntry) : Nat × Nat :=
  let pool := (sum ((List.range 16).map (allotOf t)) + sum ((deviceMasters t).map (fun m => (masterOf t m).guarantee)), poolUnits)
  match e.kind with
  | 0 =>
    match masterOwner s e.index with
    | none => pool
    | some p =>
      let raised := (mastersOf s p).any (fun m => (masterOf s m).guarantee < (masterOf t m).guarantee)
      if raised then (masterSum t p, allotOf t p) else (0, 0)
  | 1 => (shelfSum t e.index, shelfCap t e.index)
  | _ => pool

/-- QOS_SET. -/
def execQosSet (c : Nat) (s : State) : Host.Outcome State Fault Refusal :=
  .next (runCmd s c opQosSet (fun s t =>
    let b := t.req
    let l := qosEntries b
    match (if bbits b 0 8 ≠ 0x10 ∨ bbits b 8 8 ≠ 0 ∨ bbits b 32 32 ≠ 0 ∨ l.length = 0 ∨ 375 < l.length then some Status.badField
           else l.findSome? (qosRefused s t.mgmt t.ctx)) with
    | some x => failCmd s c x
    | none =>
      let after := forEach l s qosApply
      match l.find? (fun e => (qosNeed s after e).2 < (qosNeed s after e).1) with
      | some e =>
        let n := qosNeed s after e
        let part := if e.kind = 0 then (match masterOwner s e.index with | some p => p | none => 31) else e.part
        failCmd s c .admissionRefused (field e.kind 0 8 + field e.index 8 8 + field part 16 5 + field n.1 32 20 + field n.2 64 20)
      | none =>
        finishSync s c none (fun s => forEach l s qosApply) (fun _ => 0)))

end Sys2Proof.Machine
end

