-- ==== Sys2Proof/Machine/PowerMeter.lean ====
section
/-! DEFINITION. The power manager: meters at fret edges, throttle levels, budgets and grants at boundaries, and
POWER_LIMITING (spec 18 R506–R512; 12 R326–R327; 15 R437). -/
namespace Sys2Proof.Machine

/-! ### POWER_LIMITING (R512, Table 18-6) -/

def causeHub := 0
def causeHbm := 1
def causeAttic := 2
def causeComparator := 3

/-- Raise POWER_LIMITING to management and the device context, and for a site to its partition; at most once for a cause
and site in any 64 consecutive strums. -/
def powerLimiting (s : State) (cause site budget measured : Nat) : State :=
  let key := cause * 16 + site
  if !mayRaise s (tfind s.pwr.lastLimiting key) then s
  else
    let s := { s with pwr := { s.pwr with lastLimiting := tset s.pwr.lastLimiting key s.time.strumCount } }
    let src := source ucPower (if cause = causeAttic ∨ cause = causeComparator then site else 0)
    let det := fun t => field cause 64 4 + field site 68 3 + field s.pwr.level 72 3 + field budget 80 16 + field measured 96 16
      + field t 256 64
    let s := raiseTo (raiseMgmt s 0 .powerLimiting src det) 0 .powerLimiting src det
    if cause ≠ causeAttic then s
    else if siteOwner s site = 0 then s
    else
      -- a partition's copy is coarsened: 5 W steps
      let five := fun x => x / 20 * 20
      raiseTo s (siteOwner s site) .powerLimiting src (fun t =>
        field cause 64 4 + field site 68 3 + field s.pwr.level 72 3 + field (five budget) 80 16 + field (five measured) 96 16
          + field t 256 64)

/-! ### Budgets (R506) -/

def atticPowerOf (s : State) (t : Nat) : AtticPower := tget s.pwr.attic t {}
def modAtticPower (s : State) (t : Nat) (f : AtticPower → AtticPower) : State :=
  { s with pwr := { s.pwr with attic := tmod s.pwr.attic t {} f } }

/-- HUB that some caps give. -/
def hubOf (s : State) (package hbm attics : Nat) : Nat := min s.pwr.hubCap (package - hbm - attics)

/-- A THROTTLE comparator is asserted. -/
def throttled (s : State) : Bool := s.pwr.comparators.any (fun e => e.2.enable && e.2.asserted && bitAt e.2.action 2)

/-- The hub budget that holds now. -/
def hubBudget (s : State) : Nat := if throttled s then s.pwr.hub * 3 / 4 else s.pwr.hub

/-! ### Throttle levels (R508, Table 18-5) -/

/-- The hub bound of a level, in 0.25 W / 10,000. -/
def levelBound (s : State) (l : Nat) : Nat :=
  match l with
  | 0 => s.pwr.hubCap * 10400
  | 1 => s.pwr.hubCap * 104 * 97
  | 2 => s.pwr.hubCap * 104 * 92
  | 3 => s.pwr.hubCap * 104 * 70
  | 4 => s.pwr.hubCap * 104 * 60
  | 5 => s.pwr.hubCap * 104 * 50
  | _ => s.pwr.hubFloor * 10000

/-- The lowest level, from the current one up, that keeps the strum within its budget. -/
def levelFor (s : State) (left : Nat) : Nat :=
  let fits := fun l => s.pwr.used * 10000 + left * levelBound s l ≤ hubBudget s * 64 * 10000
  (([0, 1, 2, 3, 4, 5, 6].filter (fun l => s.pwr.level ≤ l)).find? fits).getD 6

/-- At level 5 unreserved Chord transmit is cut to a window of 8,320 bytes. -/
def cutWindows (s : State) : State :=
  if s.pwr.level < 5 then s
  else { s with chord := { s.chord with peers := tmap s.chord.peers (fun _ p => { p with cwnd := min p.cwnd 8320 }) } }

/-- A reading counted at its upper bound, 2% above. -/
def upperReading (x : Nat) : Nat := (x * 102 + 99) / 100

/-- The meters over the fret that ends. -/
def meterFret (s : State) : State :=
  let (n, s) := takeFresh s
  let (m, s) := takeFresh s
  let hub := upperReading (Config.meter n)
  let hbm := upperReading (Config.meter m)
  let (s, sites) := (List.range 8).foldl (fun (r : State × Tab Nat) t =>
    let (s, u) := r
    if !(siteOf s t).present then r
    else
      let (n, s) := takeFresh s
      (s, tmod u t 0 (· + Config.meter n))) (s, s.pwr.usedAttic)
  let attics := sum (tvals sites) - sum (tvals s.pwr.usedAttic)
  { s with pwr := { s.pwr with
    used := s.pwr.used + hub, usedHbm := s.pwr.usedHbm + hbm, usedPackage := s.pwr.usedPackage + hub + hbm + attics
    usedAttic := sites, frets := s.pwr.frets + 1 } }

/-- At level 5 the budgets of cellar and attic ports are cut to their effective guarantees (Table 18-5). -/
def cutBudgets (s : State) : State :=
  if s.pwr.level < 5 then s
  else { s with reg := { s.reg with masters := s.reg.masters.map (fun e =>
    if cutAtLevel5 e.1 then (e.1, { e.2 with budget := cutBudget s e.1 }) else e) } }

/-- The per-shelf limit of the next fret: in force while the energy that HBM has used since the boundary exceeds its budget
for the frets that have passed (R510). -/
def hbmFret (s : State) : State :=
  if s.pwr.usedHbm ≤ s.pwr.hbm * s.pwr.frets then { s with pwr := { s.pwr with shelfLimit := none, shelfLines := [] } }
  else
    let (n, s) := takeFresh s
    powerLimiting { s with pwr := { s.pwr with shelfLimit := some (Config.shelfLimit n), shelfLines := [] } } causeHbm 0 s.pwr.hbm
      (s.pwr.usedHbm / max 1 s.pwr.frets)

/-- The meters at a fret edge, and the level for the rest of the strum: `done` frets of it have passed. -/
def powerFret (s : State) (done : Nat) : State :=
  let s := hbmFret (meterFret s)
  let l := levelFor s (64 - done)
  if l ≤ s.pwr.level then s
  else
    let s := { s with pwr := { s.pwr with level := l } }
    cutBudgets (cutWindows (powerLimiting s causeHub 0 (hubBudget s) (s.pwr.used / max 1 s.pwr.frets)))

/-! ### The boundary -/

/-- Averages of the strum that ends; a strum below 90% of HUB lowers the level by one. -/
def closePower (s : State) : State :=
  let k := max 1 s.pwr.frets
  let hub := s.pwr.used / k
  let s := { s with pwr := { s.pwr with
    readHub := hub, readHbm := s.pwr.usedHbm / k, readPackage := s.pwr.usedPackage / k
    level := if hub * 10 < hubBudget s * 9 then s.pwr.level - 1 else s.pwr.level
    used := 0, usedHbm := 0, usedPackage := 0, frets := 0, shelfLimit := none, shelfLines := [] } }
  let s := forEach s.pwr.usedAttic s (fun s e => modAtticPower s e.1 (fun a => { a with measured := e.2 / k }))
  { s with pwr := { s.pwr with usedAttic := [] } }

/-- Shelf capacity follows the HBM budget (R510). -/
def hbmLimit (s : State) : State :=
  let m := s.pwr.readHbm
  if s.pwr.hbm * 95 < m * 100 then
    powerLimiting { s with pwr := { s.pwr with hbmLimiting := true, hbmMeasured := m } } causeHbm 0 s.pwr.hbm m
  else if m * 100 < s.pwr.hbm * 80 then { s with pwr := { s.pwr with hbmLimiting := false, hbmMeasured := 0 } }
  else s

/-- A POWER_CAP_SET takes effect (R507). -/
def applyCaps (s : State) : State :=
  match s.pwr.capSet with
  | none => s
  | some c =>
    let s := c.attic.zipIdx.foldl (fun (s : State) (e : Nat × Nat) => modAtticPower s e.2 (fun a => { a with budget := e.1 })) s
    let package := min c.package s.pwr.packageCap
    { s with pwr := { s.pwr with package := package, hbm := c.hbm, cpIdleMs := c.cpIdleMs
                                 hub := hubOf s package c.hbm (sum c.attic), capSet := none } }

/-- Missing reports, and the halving of a site's budget (12 R327). -/
def judgeReports (s : State) : State :=
  forEach (List.range 8) s (fun s t =>
    let x := siteOf s t
    if x.astate ≠ .up then s
    else
      let missing := !x.reported
      let halve := !x.halved && (missing || 2 ≤ x.surplus)
      let s := modSite s t (fun x => { x with reported := false, halved := x.halved || halve, surplus := if halve then 0 else x.surplus
                                              within := if missing || halve then 0 else x.within })
      if halve then powerLimiting s causeAttic t (atticPowerOf s t).grant (atticPowerOf s t).measured else s)

/-- POWER_GRANT to every die whose port is up (12 R326, 18 R511). -/
def sendGrants (s : State) : State :=
  forEach (List.range 8) s (fun s t =>
    let x := siteOf s t
    if x.astate ≠ .up then s
    else
      let g := min (atticPowerOf s t).budget x.cap.powerMax
      emit (modAtticPower s t (fun a => { a with grant := g, lastGrant := a.grant })) (.sideband t 0x53 (g + field s.time.boundaryTime 16 64)))

/-- Every power reading of the last strum: hub, HBM, package, each site's rail meter, each die's last report. -/
def powerNow (s : State) : List Nat :=
  [s.pwr.readHub, s.pwr.readHbm, s.pwr.readPackage] ++ (List.range 8).map (fun t => (atticPowerOf s t).measured)
    ++ (List.range 8).map (fun t => (atticPowerOf s t).reported)

/-- Readings outside the management channel: averages over at least 1 ms, in 5 W steps (15 R437). -/
def coarsen (s : State) : State :=
  let now := powerNow s
  let acc := if s.pwr.accum.isEmpty then now else List.zipWith (· + ·) s.pwr.accum now
  let n := s.pwr.accumStrums + 1
  if s.time.now < s.pwr.coarseTime + 64000000 then { s with pwr := { s.pwr with accum := acc, accumStrums := n } }
  else { s with pwr := { s.pwr with accum := [], accumStrums := 0, coarse := acc.map (fun x => x / n / 20 * 20)
                                    coarseTime := s.time.boundaryTime } }

/-- What the power manager does at a boundary. -/
def powerBoundary (s : State) : State := sendGrants (judgeReports (applyCaps (hbmLimit (coarsen (closePower s)))))

end Sys2Proof.Machine
end

