-- ==== Sys2Proof/Machine/Time.lean ====
section
/-! DEFINITION. The time base, strum boundaries and frets, the choice of the time master, and the TIME_* commands
(spec 02, 03 Table 3-10). -/
namespace Sys2Proof.Machine

/-! ### Boundaries and frets (02 R24) -/

/-- The strum period in time-base units. -/
def periodUnits (steps : Nat) : Nat := steps * 32000

/-- The next boundary after TIME_NOW. -/
def nextBoundary (t : TimeSt) : Nat := (t.now / periodUnits t.periodSteps + 1) * periodUnits t.periodSteps

/-- The next fret edge of the strum: fret f begins at the boundary plus f × PERIOD_STEPS × 500 units. -/
def nextFretEdge (t : TimeSt) : Option Nat :=
  if t.fret < 63 ∧ 0 < t.strumCount then some (t.boundaryTime + (t.fret + 1) * t.periodSteps * 500) else none

/-- The next edge at which something is due. -/
def nextEdge (t : TimeSt) : Nat :=
  match nextFretEdge t with
  | some f => if t.now < f then min f (nextBoundary t) else nextBoundary t
  | none => nextBoundary t

/-! ### STATE and RESERVED_FALLBACK (02 R49, R54, R57) -/

/-- LOCKED or MASTER. -/
def steady (t : TimeState) : Bool := t == .locked || t == .master

/-- HOLDOVER or DEGRADED. -/
def heldOver (t : TimeState) : Bool := t == .holdover || t == .degraded

/-- Enter a STATE: leaving LOCKED and MASTER sets RESERVED_FALLBACK at once; entering DEGRADED raises TIME_DEGRADED. -/
def enterTime (s : State) (st : TimeState) : State :=
  let t := s.time
  let was := if t.fallback then t.wasHoldover || heldOver st else heldOver st
  let t' := { t with
    tstate := st
    fallback := t.fallback || !steady st
    wasHoldover := if steady st then t.wasHoldover else was
    steadySince := if steady st then (if steady t.tstate then t.steadySince else some t.now) else none
    holdoverSince := if st = .holdover ∧ t.tstate ≠ .holdover then t.now else t.holdoverSince }
  let s' := { s with time := t' }
  if st = .degraded ∧ t.tstate ≠ .degraded then
    let s' := raiseAllCtx s' .timeDegraded (source ucTime 0) (fun _ => 0)
    raiseMgmt s' 0 .timeDegraded (source ucTime 0) (fun _ => 0)
  else s'

/-! ### Choosing the time master (02 R45, R46, R543) -/

/-- Class rank: REFERENCED, FREE, HOLDOVER. -/
def classRank (cls : Nat) : Nat := if cls = 1 then 0 else if cls = 0 then 1 else 2

/-- The class under which the device ranks itself.  A master that was elected in HOLDOVER keeps that class until its first
boundary as master (R54). -/
def ownClass (t : TimeSt) : Nat :=
  if t.referenced then 1 else if heldOver t.tstate || (t.tstate == .master && t.gmClass == 2) then 2 else 0

/-- The device as a candidate. -/
def selfCandidate (t : TimeSt) : Candidate :=
  { gmId := t.identity, gmPriority := t.priority, gmClass := ownClass t, hops := 0, period := t.periodSteps }

/-- Order of candidates: class rank, GM_PRIORITY, GM_ID, the lowest best. -/
def candidateKey (c : Candidate) : Nat := (classRank c.gmClass * 256 + c.gmPriority) * 2 ^ 32 + c.gmId

/-- The links whose words carry a candidate that the device regards (R45): HOPS 15 is ignored, and so is the device's
own IDENTITY while it is not the master. -/
def candidateLinks (t : TimeSt) : List (Nat × Candidate) :=
  if t.role = 1 then []
  else t.links.filterMap (fun e =>
    match e.2.cand with
    | none => none
    | some c => if c.hops = 15 ∨ (c.gmId = t.identity ∧ t.tstate ≠ .master) then none else some (e.1, c))

/-- The best of a list of candidates. -/
def bestKey (l : List Candidate) : Option Candidate :=
  l.foldl (fun b c => match b with
    | none => some c
    | some x => if candidateKey c < candidateKey x then some c else some x) none

/-- The lowest HOPS of a list of links, ties to the lowest engine (R46). -/
def lowestHops (l : List (Nat × Candidate)) : Option (Nat × Candidate) :=
  l.foldl (fun b c => match b with
    | none => some c
    | some x => if c.2.hops < x.2.hops then some c else some x) none

/-- Among the links that carry the master `id` as the best candidate that names it, the one with the lowest HOPS, ties to the
lowest engine (R46). -/
def bestLink (l : List (Nat × Candidate)) (id : Nat) : Option (Nat × Candidate) :=
  let mine := l.filter (fun c => c.2.gmId == id)
  match bestKey (mine.map (·.2)) with
  | none => none
  | some b => lowestHops (mine.filter (fun c => candidateKey c.2 == candidateKey b))

/-- What TIME_STATUS reports while the device is its own master or FREE (R543). -/
def reportSelf (t : TimeSt) (cls : Nat) : TimeSt :=
  { t with gmId := t.identity, gmPriority := t.priority, hops := 0, selEngine := 15, gmClass := cls }

/-- Rank the candidates and take the consequence (R45, R46, R543).  A device in HOLDOVER or DEGRADED that sees no
candidate stays there (R51, R52), unless its ROLE is MASTER, under which it ranks only itself. -/
def rankMaster (s : State) : State :=
  let t := s.time
  let links := candidateLinks t
  let self := if t.role = 2 then [] else [selfCandidate t]
  match bestKey (self ++ links.map (·.2)) with
  | none =>
    if heldOver t.tstate then s
    else
      let s := enterTime s .free
      { s with time := reportSelf s.time (ownClass s.time) }
  | some b =>
    if b.gmId = t.identity ∧ t.role ≠ 2 then
      if heldOver t.tstate ∧ links.isEmpty ∧ t.role ≠ 1 then s
      else
        let cls := ownClass t
        let s := enterTime s .master
        -- a step of an acquisition is given up with it; one towards an outside reference stays due (R50)
        { s with time := reportSelf { s.time with stepPending := if t.tstate = .master then s.time.stepPending else none } cls }
    else
      match bestLink links b.gmId with
      | none => s
      | some (e, c) =>
        let follows := (t.tstate = .acquiring ∨ t.tstate = .locked) ∧ t.gmId = b.gmId
        let s := if follows then s else
          let s := enterTime s .acquiring
          { s with time := { s.time with lockMarkers := 0, stepPending := none, stepped := false } }
        { s with time := { s.time with
            gmId := b.gmId, gmPriority := b.gmPriority, gmClass := b.gmClass, hops := c.hops + 1, selEngine := e } }

/-! ### Time words (02 R44–R48, R51, R52) -/

/-- Keep a rate adjustment within ±200 ppm (R22). -/
def clampRate (r : Int) : Int := max (-200) (min 200 r)

/-- Steer the time base (R22, R47): the adjustment is a free value within its limit. -/
def steer (s : State) : State :=
  let (n, s) := takeFresh s
  { s with time := { s.time with rateAdj := clampRate (Config.rateSteer n) } }

/-- An offset beyond ±1 µs. -/
def farOffset (off : Int) : Bool := off < -64000 || 64000 < off

/-- Acquisition with a new filtered offset (R48): beyond 1 µs a single step is due at the next local boundary, unless this
acquisition has had its step (R22), after which the device slews; within it the device slews, and 64 markers within 25 ps
lock it. -/
def acquire (s : State) (off : Int) : State :=
  if s.time.tstate ≠ .acquiring then s
  else if farOffset off then
    { s with time := { s.time with stepPending := if s.time.stepped then none else some off, lockMarkers := 0 } }
  else
    let k := if -1 ≤ off ∧ off ≤ 1 then s.time.lockMarkers + 1 else 0
    let s := { s with time := { s.time with lockMarkers := k, stepPending := none } }
    if 64 ≤ k then enterTime s .locked else s

/-- Measure a link from a word received at `t4` that echoes one of the hub's own markers, whose send time t1 stands under its
SEQ (R47); `asym` is the board's asymmetry correction in units. -/
def measure (s : State) (e : Nat) (w : TimeWord) (t4 : Nat) (asym : Int) : State :=
  match (if w.turnaround = 0xFFFFFF then none else tfind (tget s.time.links e {}).sent w.echoSeq) with
  | none => s
  | some t1 =>
    let delay : Int := ((t4 : Int) - t1 - w.turnaround) / 2 - asym
    let off : Int := (w.txTime : Int) + delay - t4
    let (n, s) := takeFresh s
    let (m, s) := takeFresh s
    let fd := Config.linkFilter n delay
    let fo := Config.linkFilter m off
    let s := { s with time := { s.time with links := tmod s.time.links e {} (fun l => { l with delay := fd, offset := fo }) } }
    if s.time.selEngine = e ∧ (s.time.tstate = .acquiring ∨ s.time.tstate = .locked) then
      let s := { s with time := { s.time with offset := fo, pathDelay := unsignedOf fd 32 } }
      acquire (steer s) fo
    else s

/-- A word that the device ignores: HOPS 15, or its own IDENTITY while it is not the master (R45). -/
def wordIgnored (t : TimeSt) (w : TimeWord) : Bool := w.hops == 15 || (w.gmId == t.identity && t.tstate != .master)

/-- A valid time word on native link `e`, received at `t4`: its candidate, a neighbour's differing period (R52), the ranking and
the measurement.  An ignored word is only remembered for the echo (DESIGN CHOICE: R45 says no more than that it is ignored).
DESIGN CHOICE: a device that is already DEGRADED raises no STRUM_PERIOD_MISMATCH for a differing period; R52 raises it with
the move to DEGRADED. -/
def takeTimeWord (s : State) (e : Nat) (w : TimeWord) (t4 : Nat) (asym : Int) : State :=
  if w.gmClass = 3 then s
  else if wordIgnored s.time w then
    { s with time := { s.time with links := tmod s.time.links e {} (fun l => { l with lastSeq := some (w.seq, t4) }) } }
  else
    let c : Candidate := { gmId := w.gmId, gmPriority := w.gmPriority, gmClass := w.gmClass, hops := w.hops,
                           period := w.periodSteps }
    let s := { s with time := { s.time with
      links := tmod s.time.links e {} (fun l => { l with cand := some c, lastSeq := some (w.seq, t4) }) } }
    if w.periodSteps ≠ s.time.periodSteps then
      if s.time.tstate = .degraded then s
      else raiseMgmt (enterTime s .degraded) 0 .strumPeriodMismatch (source ucTime 0) (fun _ => 0)
    else
      let s := if s.time.ranked then rankMaster s else s
      measure s e w t4 asym

/-- The time word the hub sends on link `e` at time `tx` with sequence `seq` (R44, R46, R53, R543). -/
def timeWordOut (t : TimeSt) (e seq tx : Nat) : TimeWord :=
  let last := (tget t.links e {}).lastSeq
  let follows := t.tstate = .acquiring ∨ t.tstate = .locked
  { txTime := tx, seq := seq % 256, echoSeq := match last with | none => 0 | some (q, _) => q
    turnaround := match last with | none => 0xFFFFFF | some (_, r) => min (tx - r) 0xFFFFFF
    gmId := if heldOver t.tstate then t.identity else t.gmId
    gmPriority := if heldOver t.tstate then t.priority else t.gmPriority
    gmClass := if heldOver t.tstate then 2 else t.gmClass
    hops := if t.tstate = .free then 15 else if follows then t.hops else 0
    periodSteps := t.periodSteps }

/-- Send the next time word on link `e` at time `tx`; its TX_TIME is kept under its SEQ for the echo (R44, R47). -/
def sendTimeWord (s : State) (e tx : Nat) : State × TimeWord :=
  let q := (tget s.time.links e {}).seq
  ({ s with time := { s.time with links := tmod s.time.links e {} (fun l => {
      l with seq := (q + 1) % 256, sent := tset l.sent q tx }) } },
   timeWordOut s.time e q tx)

/-- A link no longer gives time words: it is dropped, another link with the same master is followed, or the device
enters HOLDOVER (R51). -/
def dropTimeLink (s : State) (e : Nat) : State :=
  let t := s.time
  let s := { s with time := { t with links := tmod t.links e {} (fun l => { l with cand := none }) } }
  if t.selEngine ≠ e ∨ ¬(t.tstate = .acquiring ∨ t.tstate = .locked) then s
  else
    match bestLink (candidateLinks s.time) t.gmId with
    | some (e', c) => { s with time := { s.time with selEngine := e', hops := c.hops + 1 } }
    | none =>
      let s := enterTime s .holdover
      { s with time := { reportSelf s.time 2 with stepPending := none } }

/-- TIME_WORD_TIMEOUT (02 R51): 8 marker intervals pass on link `e` without a valid time word. -/
def execTimeWordTimeout (e : Nat) (s : State) : Host.Outcome State Fault Refusal := .next (dropTimeLink s e)

/-- HOLDOVER_TIMEOUT (02 R52). -/
def execHoldoverTimeout (s : State) : Host.Outcome State Fault Refusal :=
  if s.time.tstate = .holdover then .next (enterTime s .degraded) else .next s

/-! ### Scrub passes and their deadline (17 Table 17-9, 02 R33) -/

/-- A day, in time-base units. -/
def day := 86400 * 64000000000

/-- The pass period in time-base units: 24 h for the memories, 1 h else. -/
def scrubPeriod (k : Nat) : Nat := if k < 2 then day else day / 24

def scrubOf (s : State) (k : Nat) : ScrubStatus := tget s.err.scrub k {}
def modScrub (s : State) (k : Nat) (f : ScrubStatus → ScrubStatus) : State :=
  { s with err := { s.err with scrub := tmod s.err.scrub k {} f } }

/-- The pass in progress has missed its end: fret 63 is claimed again at the next boundary, unless it is held anyway (R33). -/
def scrubMissed (s : State) (k : Nat) : State :=
  if (scrubOf s k).late then s
  else
    let s := modScrub s k (fun x => { x with late := true })
    if !s.time.backgroundEn ∨ s.time.backgroundSet = some false then { s with time := { s.time with reclaim := true } } else s

/-- At a boundary, the passes whose end has gone by since the last one, in whatever segment they stand. -/
def scrubDeadlines (s : State) : State :=
  forEach (List.range 5) s (fun s k => if (scrubOf s k).passStart + scrubPeriod k < nextBoundary s.time then scrubMissed s k else s)

/-! ### The boundary of the time base (02 R27 step 1, R33, R48, R49, R54, R55) -/

/-- Values that a TIME_ROLE_SET or TIME_BACKGROUND_SET left for the boundary take effect; a missed scrub deadline sets
BACKGROUND_FRET_EN again (R33). -/
def applyTimeSets (s : State) : State :=
  let s := match s.time.roleSet with
    | none => s
    | some r =>
      let t := { s.time with role := r.role, priority := r.priority, ethPtpEn := r.ethPtpEn, ptpDomain := r.ptpDomain,
                             identity := r.identity, roleSet := none,
                             referenced := s.time.referenced && r.ethPtpEn }
      rankMaster { s with time := t }
  let s := match s.time.backgroundSet with
    | none => s
    | some b => { s with time := { s.time with backgroundEn := b, backgroundSet := none } }
  if s.time.reclaim then
    raiseMgmt { s with time := { s.time with backgroundEn := true, reclaim := false } } 0 .backgroundReclaimed
      (source ucTime 0) (fun _ => 0)
  else s

/-- RESERVED_FALLBACK becomes 0 at the first boundary after 1 ms of LOCKED or MASTER (R49), with TIME_RESTORED when
HOLDOVER or DEGRADED was passed meanwhile, except on the first return after a start (R54). -/
def restoreReserved (s : State) : State :=
  match s.time.steadySince with
  | none => s
  | some t0 =>
    if !s.time.fallback ∨ s.time.now < t0 + 64000000 then s
    else
      let raise := s.time.wasHoldover && s.time.restoredOnce
      let s := { s with time := { s.time with fallback := false, wasHoldover := false, restoredOnce := true } }
      if raise then
        raiseMgmt (raiseAllCtx s .timeRestored (source ucTime 0) (fun _ => 0)) 0 .timeRestored (source ucTime 0)
          (fun _ => 0)
      else s

/-- The time base reaches what is its next local boundary.  With an acquisition step due, it steps and emits no
boundary (R48), and the times kept on the old scale are dropped (DESIGN CHOICE, log entry 69); otherwise STRUM_COUNT and STRUM_BOUNDARY_TIME update.  The flag says whether a boundary is emitted. -/
def timeBoundary (s : State) : State × Bool :=
  let nb := nextBoundary s.time
  match s.time.stepPending with
  | some d =>
    let s := { s with time := { s.time with now := unsignedOf (nb + d) 64, stepPending := none, stepped := true, fret := 63
                                            links := tmap s.time.links (fun _ l => { l with lastSeq := none, sent := [] }) } }
    let det := fun _ => field (unsignedOf d 64) 64 64
    (raiseMgmt (raiseTo s 0 .timeStepped (source ucTime 0) det) 0 .timeStepped (source ucTime 0) det, false)
  | none =>
    let s := if s.time.ranked then s else rankMaster { s with time := { s.time with ranked := true } }
    let t := s.time
    let changed := t.changePending && t.changeTime ≤ nb
    let s := { s with time := { t with
      now := nb % 2 ^ 64
      fret := 0
      strumCount := (t.strumCount + 1) % 2 ^ 64
      boundaryTime := nb % 2 ^ 64
      periodSteps := if changed then t.pendingSteps else t.periodSteps
      pendingSteps := if changed then 0 else t.pendingSteps
      changePending := t.changePending && !changed
      changeTime := if changed then 0 else t.changeTime
      gmClass := if t.tstate = .master then (if t.referenced then 1 else 0) else t.gmClass } }
    (restoreReserved (applyTimeSets s), true)

/-! ### Registers of the block -/

/-- TIME_STATUS.STATE as a number. -/
def timeStateValue : TimeState → Nat
  | .free => 0 | .master => 1 | .acquiring => 2 | .locked => 3 | .holdover => 4 | .degraded => 5

/-- TIME_STATUS. -/
def timeStatusWord (t : TimeSt) : Nat :=
  timeStateValue t.tstate + field (b2n t.fallback) 3 1 + field t.hops 4 4 + field t.gmClass 8 2 + field t.selEngine 10 4
    + field t.gmPriority 14 8 + field t.gmId 32 32

/-- TIME_OFFSET. -/
def timeOffsetWord (t : TimeSt) : Nat := unsignedOf t.offset 32 + field t.pathDelay 32 32

/-- STRUM_STATUS. -/
def strumStatusWord (t : TimeSt) : Nat :=
  field t.periodSteps 0 10 + field t.fret 10 6 + field t.pendingSteps 16 10 + field (b2n t.changePending) 26 1
    + field t.lastPlanCycles 32 16

/-- TIME_CONFIG. -/
def timeConfigWord (t : TimeSt) : Nat :=
  field t.role 0 2 + field t.priority 2 8 + field (b2n t.backgroundEn) 10 1 + field (b2n t.ethPtpEn) 11 1
    + field t.identity 32 32

/-! ### TIME_* commands (03 Table 3-10) -/

/-- TIME_QUERY (15 R437): on a partition mailbox NOW equals BOUNDARY. -/
def execTimeQuery (c : Nat) (s : State) : Host.Outcome State Fault Refusal :=
  .next (runCmd s c opTimeQuery (fun s t =>
    let now := if t.ctx ≠ 0 ∧ !t.mgmt then s.time.boundaryTime else s.time.now
    finishQuery s c (now + field s.time.boundaryTime 64 64 + field (timeStatusWord s.time) 128 64
      + field (timeOffsetWord s.time) 192 64)))

/-- The checks of TIME_PERIOD_SET in the order of 02 R55. -/
def periodSetRefused (t : TimeSt) (takenAt p e rsvd : Nat) : Option Status :=
  let old := periodUnits t.periodSteps
  let new := periodUnits p
  firstFail [
    (p < 4 || 512 < p || rsvd != 0, .badField),
    (t.changePending && t.changeTime != e, .timePendingConflict),
    (e % old != 0 || e % new != 0 || e < takenAt + old || takenAt + 2 ^ 32 < e, .timeBadEffective)]

/-- TIME_PERIOD_SET (02 R55). -/
def execTimePeriodSet (c : Nat) (s : State) : Host.Outcome State Fault Refusal :=
  .next (runCmd s c opTimePeriodSet (fun s t =>
    let p := bbits t.req 0 10
    let e := bbits t.req 64 64
    finishSync s c (periodSetRefused s.time t.takenAt p e (bbits t.req 10 54))
      (fun s => { s with time := { s.time with pendingSteps := p, changePending := true, changeTime := e } })
      (fun _ => 0)))

/-- TIME_ROLE_SET (02 R45, R33): takes effect at the next boundary. -/
def execTimeRoleSet (c : Nat) (s : State) : Host.Outcome State Fault Refusal :=
  .next (runCmd s c opTimeRoleSet (fun s t =>
    let b := t.req
    finishSync s c (if bbits b 0 2 = 3 ∨ bbits b 19 13 ≠ 0 then some .badField else none)
      (fun s =>
        let r : RoleSet := ⟨bbits b 0 2, bbits b 2 8, bbits b 10 1 == 1, bbits b 11 8, bbits b 32 32⟩
        { s with time := { s.time with roleSet := some r } })
      (fun _ => 0)))

/-- TIME_BACKGROUND_SET (02 R33): takes effect at the next boundary. -/
def execTimeBackgroundSet (c : Nat) (s : State) : Host.Outcome State Fault Refusal :=
  .next (runCmd s c opTimeBackgroundSet (fun s t =>
    finishSync s c (if bbits t.req 1 63 ≠ 0 then some .badField else none)
      (fun s => { s with time := { s.time with backgroundSet := some (bbits t.req 0 1 == 1) } })
      (fun _ => 0)))

end Sys2Proof.Machine
end

