-- ==== Sys2Proof/Machine/RegView.lean ====
section
/-! DEFINITION. The register space: every register of Table 19-1 as a word of the state, and the views that the host, the
management agent and the agents inside the hub have of it (spec 00 R7–R10; 08 R214; 15 R437; 18 R517; 19). -/
namespace Sys2Proof.Machine

/-! ### Values that registers and commands share -/

/-- A word of fields: value, lowest bit, width. -/
def word (l : List (Nat × Nat × Nat)) : Nat := sum (l.map (fun (x : Nat × Nat × Nat) => field x.1 x.2.1 x.2.2))

/-- The value of a STATE and of a PHASE (15 Table 15-3). -/
def stateValue : PartState → Nat
  | .none => 0 | .active => 1 | .transitioning => 2
def phaseValue : Phase → Nat
  | .create => 0 | .reset => 1 | .destroy => 2

/-- LIFECYCLE and VARIANT as numbers. -/
def lifecycleValue : Lifecycle → Nat
  | .test => 0 | .production => 1 | .fieldDebug => 2 | .scrapped => 3
def variantValue : Variant → Nat
  | .unset => 0 | .l => 1 | .a => 2

/-- BOOT_STATUS.STAGE. -/
def stageValue : Stage → Nat
  | .rom => 0 | .fwLoad => 1 | .board => 2 | .test => 3 | .shelves => 4 | .ready => 5 | .failed => 6 | .recovery => 7

/-- A lifecycle step waits for the next cold reset (15 R438). -/
def lifecyclePending (s : State) : Bool := s.boot.fuses.lifecycle != s.boot.lifecycleNow

/-- TRANSITIONING, one bit a partition. -/
def transitioningMask (s : State) : Nat := maskOf ((List.range 16).filter (fun p => (partOf s p).pstate == .transitioning))

/-- The regions in force: those of partition 0 are what it has given to no other (15 R413). -/
def regionsOf (s : State) (p : Nat) : List Region :=
  (partOf s p).regions.flatMap (fun r =>
    if p = 0 && r.kind == .memory then
      (cutRanges { base := r.base / 0x10000, n := r.length } (takenRanges s)).map (fun x =>
        { r with base := x.base * 0x10000, length := x.n })
    else [r])

/-- A MEMORY region lies on a medium with INTEGRITY 0. -/
def noMac (s : State) (p : Nat) : Bool :=
  (regionsOf s p).any (fun r => r.kind == .memory &&
    (if r.base < 12 * shelfSize then !(shelfOf s (r.base / shelfSize)).integrity
     else [0, 1].any (fun q => (farOf s q).decoders.any (fun e =>
       e.2.enable && !e.2.integrity && decBase e.2 ≤ r.base && r.base < decBase e.2 + decSize e.2))))

/-- Page counts of a partition, per tier: RESIDENT or MOVING, and FREE or ZEROING. -/
def tierCounts (s : State) (p : Nat) : List (Nat × Nat) :=
  [0, 1, 2, 3].map (fun t =>
    let l := tierRanges s p t
    let mine := s.larder.pages.filter (fun e => l.any (fun r => inRange r e.1))
    let used := (mine.filter (fun e => e.2.pstate == .resident || e.2.pstate == .moving)).length
    let gone := (mine.filter (fun e => e.2.pstate == .lost || e.2.pstate == .retired)).length
    (used, sum (l.map (·.n)) - used - gone))

/-- Physical numbers of an attic site and of an engine (01 R17). -/
def physSite (s : State) (t : Nat) : Nat := 2 * physQuadrant s (t / 2) + t % 2
def physEngine (s : State) (e : Nat) : Nat := 3 * physQuadrant s (e / 3) + e % 3

/-- The fuses of a logical site. -/
def siteFuse (s : State) (t : Nat) : AtticFuse := tget s.boot.fuses.sites (physSite s t) {}

def comparatorOf (s : State) (k : Nat) : Comparator := tget s.pwr.comparators k {}
def modComparator (s : State) (k : Nat) (f : Comparator → Comparator) : State :=
  { s with pwr := { s.pwr with comparators := tmod s.pwr.comparators k {} f } }

/-- Power readings: full resolution on the management channel, coarsened elsewhere (15 R437); hub, HBM, package, each site's
rail meter, and each die's last report. -/
def readings (s : State) (full : Bool) : List Nat := if full then powerNow s else s.pwr.coarse

/-- The 512 bits of a record (03 Table 3-4). -/
def recordNat (r : Record) : Nat :=
  let kind := match r.kind with | .mailboxCompletion => 1 | .event => 2 | .stepCompletion => 3
  word [(kind, 0, 8), (r.partition, 8, 8), (r.code, 16, 16), (r.tag, 32, 32), (r.epoch, 64, 32), (r.commitSeq, 96, 32),
        (r.result, 128, 320), (r.source, 448, 16), (r.recordSeq, 480, 31), (1, 511, 1)]

/-- The 512 bits of an error record (17 R488) with a TIME and a COUNT as a reader sees them. -/
def errRecordNat (r : ErrRecord) (time count : Nat) : Nat :=
  word [(r.index, 0, 32), (severityValue r.severity, 32, 4), (r.unitClass, 40, 8), (r.unitIndex, 48, 16), (r.code, 64, 16),
        (r.partition, 80, 5), (count, 96, 32), (r.address, 128, 64), (r.sub, 192, 32), (r.stepTag, 224, 32), (time, 256, 64),
        (r.epoch, 320, 32), (r.cellarEpoch, 352, 32), (r.detail, 384, 64), (1, 511, 1)]

/-- The directory of an HPA: that of the quadrant of its home. -/
def dirQuadrant (s : State) (hpa : Nat) : Nat :=
  match placeOf s hpa with
  | .shelf n => n / 3
  | .scratch c => c / 16
  | .far p _ => ((List.range 4).find? (fun q => physQuadrant s q == 2 + p)).getD 0
  | _ => 0

/-- The transaction at the head of a partition's wait at a shelf: its units. -/
def shelfHead (s : State) (n p : Nat) : Option Nat :=
  let l := (s.mem.txns.filter (fun e => e.2.phase == .shelfHeld && placeOf s e.2.hpa == .shelf n && shelfPartition s e.2 == p)).map (·.2)
  (l.mergeSort (fun a b => a.arrived ≤ b.arrived)).head?.map (·.units)

/-- Some far-tier range is being zeroed (16 R441). -/
def farZeroing (s : State) : Bool := [0, 1].any (fun p => (farOf s p).decoders.any (fun e => e.2.zeroing))

/-- Management commands in flight: those in a place, and those held for READY. -/
def mgmtInFlight (s : State) : Nat :=
  ((List.range 8).filter (fun i => (chanOf s (64 + i)).state != .free)).length + s.mgmt.heldRequests.length

/-- The spare rows of a channel: the sum over its banks (08 R226). -/
def channelSpare (x : Shelf) (c : Nat) : Spare :=
  let listed := x.spares.filter (fun e => bits e.1 5 5 == c)
  let rest := x.sids * 2 * 2 ^ x.banksLog2 - listed.length
  let total := fun (f : Spare → Nat) => sum (listed.map (fun e => f e.2)) + rest * f x.fitted
  { softFree := min 0xFFFF (total (·.softFree)), hardFree := min 0xFFFF (total (·.hardFree))
    softUsed := min 0xFFFF (total (·.softUsed)), hardQueued := min 0xFF (total (·.hardQueued)) }

/-! ### Chord link words, which the link commands also return (13) -/

def linkStateValue : LinkState → Nat
  | .off => 0 | .training => 1 | .up => 2 | .down => 3

def linkStatusWord (x : Engine) : Nat :=
  linkStateValue x.estate + field x.mode 4 2 + field x.rate 6 2 + field x.txMask 8 16 + field x.rxMask 24 16
    + field x.ethUp 40 4 + field x.lastReason 44 4 + field x.downCount 48 16

def linkConfigWord (x : Engine) : Nat := x.cfgMode + field x.cfgRate 2 2 + field x.minLanes 4 5 + field x.laneEnable 16 16

/-- The latencies read 0 until the engine has trained at a rate. -/
def linkTimingWord (e : Nat) (x : Engine) : Nat :=
  let lat := fun tx => if x.estate = .up then Config.pathLatency e x.rate tx else 0
  unsignedOf x.asymPs 16 + field x.skew 16 16 + field (b2n x.noAsym) 32 1 + field (lat true) 40 12 + field (lat false) 52 12

/-! ### A register and who may see it -/

/-- Whose view of the register space a read takes (08 R214; 18 R517). -/
inductive View where
  | host
  | mgmt
  | partition (p : Nat)
  deriving DecidableEq, Repr, Inhabited

/-- A register word as a read finds it. -/
structure RegWord where
  /-- What the host reads. -/
  value : Nat := 0
  /-- 64 bits, or 32. -/
  wide : Bool := true
  /-- A half of it may be read with 32 bits (00 R9: the response payload and the MSI-X structures). -/
  halves : Bool := false
  /-- What it belongs to is held by partition `p` (08 R214). -/
  mine : Nat → Bool := fun _ => true
  /-- The bits that count something (15 R437). -/
  counters : Nat := 0
  /-- What the management view reads, where that differs. -/
  full : Option Nat := none
  /-- What a partition other than 0 reads, where time-base values are coarsened. -/
  seen : Option Nat := none

/-- All bits of a word from `lo`, `w` of them. -/
def span (lo w : Nat) : Nat := (2 ^ w - 1) * 2 ^ lo

/-- The register at an offset among those that a block lists. -/
def pick (o : Nat) (l : List (Nat × (Unit → RegWord))) : Option RegWord := (l.find? (fun e => e.1 == o)).map (fun e => e.2 ())

/-- The register at an offset of an array. -/
def arr (o base stride count : Nat) (f : Nat → RegWord) : Option RegWord :=
  if base ≤ o ∧ o < base + stride * count ∧ (o - base) % stride = 0 then some (f ((o - base) / stride)) else none

/-- A word that every agent reads alike. -/
def ro (v : Nat) : Unit → RegWord := fun _ => { value := v }

/-- A word with counters. -/
def counting (v c : Nat) : Unit → RegWord := fun _ => { value := v, counters := c }

/-- The start has reached READY once (19 R524). -/
def started (s : State) : Bool := s.part.configGen != 0

/-! ### ID and capability, global status (19 R523–R525) -/

/-- CAP_VERSIONS: every protocol at version 1.0. -/
def capVersions : Nat := word [(0x10, 0, 8), (0x10, 8, 8), (0x10, 16, 8), (0x10, 24, 8), (0x10, 32, 8), (0x10, 40, 8)]

/-- Presence as ATTICS of PRESENT_UNITS gives it. -/
def presentSites (s : State) : Nat := maskOf ((List.range 8).filter (fun t => (siteOf s t).present))

def idBlock (s : State) (o : Nat) : Option RegWord :=
  let f := s.boot.fuses
  let l := s.boot.variantNow == .l
  let after := fun (v : Nat) => if started s then v else 0
  pick o [
    (0x00, ro (word [(0x4F4C, 0, 16), (0x0960, 16, 16), (f.stepping, 32, 8), (1, 40, 8)])),
    (0x08, ro (bits f.serial 0 64)),
    (0x10, ro (bits f.serial 64 64)),
    (0x18, ro (bits f.pen 0 32)),
    (0x40, ro (word [(4, 0, 3), (16, 3, 5), (12, 8, 4), (12, 12, 4), (8, 16, 4), (64, 20, 7), (16, 27, 5), (64, 32, 7),
                        (16, 39, 5), (16, 44, 5), (64, 49, 7), (16, 56, 5)])),
    (0x48, ro (word [(128, 0, 10), (64, 10, 10), (192, 20, 10), (128, 30, 10), (16, 40, 5), (512, 45, 10), (16, 55, 5)])),
    (0x50, ro (word [(36, 0, 6), (32, 6, 6), (2560, 12, 16), (7, 28, 4), (5, 32, 4), (2, 36, 2), (43, 38, 6), (64, 44, 8),
                        (16, 52, 5)])),
    (0x58, ro (word [(if l then 1950 else 1200, 0, 16), (if l then 400 else 200, 16, 9),
                        (variantValue s.boot.variantNow, 25, 2), (32, 27, 7), (8, 34, 4), (64, 38, 7), (4, 45, 3)])),
    (0x60, ro (word [(256, 0, 10), (65536, 10, 17), (4096, 27, 13), (512, 40, 10), (2048, 50, 12)])),
    (0x68, ro (word [(15625, 0, 16), (4, 16, 10), (512, 26, 10), (64, 36, 7), (103, 43, 7)])),
    (0x70, ro capVersions),
    (0x100, ro (after s.boot.presentCellars)),
    (0x108, ro (after (word [(s.boot.presentShelves, 0, 16), (s.boot.presentEngines, 16, 16), (presentSites s, 32, 8),
                                (s.boot.presentQuadrants, 40, 4)]))),
    (0x110, ro (after (word ((List.range 4).map (fun q => (nth s.boot.quadrantMap q q, 2 * q, 2))))))]
  <|> arr o 0x800 8 64 (fun c => {
    value := match tfind s.boot.cellarPhys c with
      | some x => after (word [(1, 0, 1), (x / 16, 2, 2), (x % 16, 4, 4)])
      | none => 0
    mine := fun p => cellarOwner s c == p })
  <|> arr o 0xC00 8 64 (fun c => { value := after (tget s.boot.cellarPhysCores c 0), mine := fun p => cellarOwner s c == p })
  <|> arr o 0x1000 8 64 (fun c => { value := after (tget s.boot.presentCores c 0), mine := fun p => cellarOwner s c == p })

/-- BOOT_STATUS (16). -/
def bootStatusWord (s : State) : Nat :=
  let b := s.boot
  word [(stageValue b.stage, 0, 4), (b.slot, 4, 1), (b2n b.fallback, 5, 1), (b2n b.boardTableOk, 6, 1), (b.boardCopy, 7, 1),
        (b2n b.defectListFull, 8, 1), (b2n b.testStrapIgnored, 9, 1), (b2n b.variantUnset, 10, 1), (b2n (farZeroing s), 11, 1),
        (b.failReason, 12, 4), (b.straps.boot, 16, 2), (b.straps.mgmtIf, 18, 2), (b.straps.smbAddr, 20, 3),
        (b.straps.strum, 23, 2), (b2n b.straps.test, 25, 1), (b.startCount, 32, 32)]

/-- A partition as its registers show it: partition 0 reads ACTIVE from reset. -/
def partShown (s : State) (p : Nat) : Partition :=
  if p = 0 ∧ !started s then { partOf s 0 with pstate := .active, hostBar2 := true, memEpoch := s.part.memEpochCount } else partOf s p

/-- GLOBAL_STATUS: each summary bit equals its source. -/
def globalStatusWord (s : State) : Nat :=
  word [(b2n (s.boot.stage == .ready), 0, 1), (b2n (s.time.tstate == .degraded), 1, 1), (b2n s.part.updateInProgress, 2, 1),
        (b2n (transitioningMask s != 0), 3, 1), (b2n (1 ≤ s.pwr.level || s.pwr.hbmLimiting), 4, 1),
        (b2n (!s.reg.scaled.isEmpty || !s.reg.derated.isEmpty), 5, 1), (b2n (farZeroing s), 6, 1), (b2n s.boot.defectListFull, 7, 1),
        (maskOf ((List.range 16).filter (fun p => (partShown s p).pstate != .none)), 16, 16), (s.part.configGen, 32, 32)]

def globalBlock (s : State) (o : Nat) : Option RegWord :=
  pick o [
    (0x00, ro (globalStatusWord s)),
    (0x08, ro (bootStatusWord s)),
    (0x10, counting (word [(s.boot.fw.version, 0, 32), (s.cp.restarts, 32, 16), (s.cp.activations, 48, 16)]) (span 32 32)),
    (0x18, ro (word [(s.part.deviceEpoch, 0, 32), (s.part.memEpochCount, 32, 32)])),
    (0x20, counting (word [(s.larder.overruns, 0, 32), (s.larder.deadlinesMissed, 32, 32)]) (span 0 64)),
    (0x28, counting (word [(s.boot.coresAbsented, 0, 16), (s.boot.cellarsAbsented, 16, 8), (s.boot.atticsDown, 24, 8)]) (span 0 32)),
    (0x30, counting (word [(s.cp.eventsRaised, 0, 32), (s.cp.unqueued, 32, 16),
                           ((s.cp.eqs.filter (fun e => e.2.state == .error)).length, 48, 10)]) (span 0 58))]

/-! ### Mailboxes, event queues, MSI-X (03) -/

/-- Eight bytes of a sparse table, as a number. -/
def wordOfTab (t : Tab Byte) (o : Nat) : Nat := leNat ((List.range 8).map (fun i => tget t (o + i) 0))

def mbStateValue : MbState → Nat
  | .free => 0 | .posted => 1 | .taken => 2 | .done => 3

/-- The bits of a word of the request header that are not reserved (03 Table 3-2). -/
def headerBits (o : Nat) : Nat :=
  if o = 0x00 then span 0 19 + span 32 32
  else if o < 0x20 then span 0 64
  else if o = 0x20 then span 0 20 + span 32 9
  else if o = 0x28 then span 0 64
  else if o = 0x30 then span 0 8
  else if o = 0x38 then 0
  else span 0 64

/-- A word of a mailbox page. -/
def mailboxBlock (s : State) (m o : Nat) : Option RegWord :=
  let x := chanOf s m
  let mine := fun (p : Nat) => x.owner == p
  if o % 8 ≠ 0 then none
  else if o < 0xC00 then some { value := Nat.land (wordOfTab x.req o) (headerBits o), mine := mine }
  else if o < 0xF00 then some { value := wordOfTab x.resp (o - 0xC00), halves := true, mine := mine }
  else if o < 0xF40 then
    some { value := match x.window with | some r => bits (recordNat r) (8 * (o - 0xF00)) 64 | none => 0, mine := mine }
  else if o = 0xF40 then
    some {
      value := word [(mbStateValue x.state, 0, 2), (b2n x.abortRequested, 2, 1), (b2n x.session, 3, 1), (x.sessionMajor, 4, 4),
                     (x.sessionMinor, 8, 8), (if x.owner = 0 then 0xFF else x.owner, 16, 8), (x.ignored, 32, 16)]
      mine := mine, counters := span 32 16 }
  else none

def eqStateValue : EqState → Nat
  | .none => 0 | .active => 1 | .error => 2

def eqBlock (s : State) (o : Nat) : Option RegWord :=
  let mine := fun (q p : Nat) => (eqOf s q).owner == p
  arr o 0 0x40 512 (fun q => { value := word [((eqOf s q).consumer, 0, 32), (b2n (eqOf s q).arm, 32, 1)], mine := mine q })
  <|> arr o 8 0x40 512 (fun q => { value := bits (eqOf s q).producer 0 32, mine := mine q })
  <|> arr o 0x10 0x40 512 (fun q =>
    let e := eqOf s q
    { value := word [(eqStateValue e.state, 0, 2), (b2n (fullStall e), 2, 1), (b2n e.isDefault, 3, 1), (e.dropped, 16, 16),
                     (e.vector, 32, 11), (e.log2Size, 52, 5), (if e.owner = 0 then 0x7F else e.owner, 57, 7)]
      mine := mine q, counters := span 16 16 })

def msixOf (s : State) (v : Nat) : MsixVector := tget s.cp.msix v {}

def msixTableBlock (s : State) (o : Nat) : Option RegWord :=
  arr o 0 16 2048 (fun v => { value := bits (msixOf s v).addr 0 64, halves := true })
  <|> arr o 8 16 2048 (fun v =>
    let x := msixOf s v
    { value := word [(x.data, 0, 32), (b2n x.masked, 32, 1), (x.ctrlRest, 33, 31)], halves := true })

def msixPbaBlock (s : State) (o : Nat) : Option RegWord :=
  arr o 0 8 32 (fun i => { value := maskOf ((List.range 64).filter (fun b => (msixOf s (64 * i + b)).pendingBit)), halves := true })

/-! ### Time and larder (02, 09) -/

def timeBlock (s : State) (o : Nat) : Option RegWord :=
  let t := s.time
  pick o [
    (0x00, fun _ => { value := t.now, seen := some t.boundaryTime }),
    (0x08, ro (strumStatusWord t)),
    (0x10, ro t.strumCount),
    (0x18, ro t.boundaryTime),
    (0x20, ro (if t.changePending then t.changeTime else 0)),
    (0x28, ro (timeStatusWord t)),
    (0x30, ro (timeOffsetWord t)),
    (0x38, ro (timeConfigWord t))]

/-- A step that has been dispatched and has no completion record. -/
def stepRunning (x : Step) : Bool := x.phase == .running || x.phase == .saving || x.phase == .preempted || x.phase == .ending

def larderBlock (s : State) (o : Nat) : Option RegWord :=
  let l := s.larder
  let run := (l.steps.filter (fun e => stepRunning e.2)).length
  pick o [
    (0x00, counting (word [((l.seqs.filter (fun e => e.2.sstate != .free)).length, 0, 17), (l.planSteps.length, 32, 13),
                           (l.planSeqs, 48, 13)]) (span 0 64)),
    (0x08, ro (word [(65536, 0, 17), (16777216, 32, 32)])),
    (0x30, counting (word [((l.moves.filter (·.begun)).length, 0, 6), (l.pagesLost, 16, 32)]) (span 0 48)),
    (0x38, counting (word [(l.steps.length - run, 0, 32), (run, 32, 32)]) (span 0 64))]
  <|> arr o 0x10 8 4 (fun t =>
    let c := (0 :: partCtxs s).map (fun p => nth (tierCounts s p) t (0, 0))
    { value := word [(sum (c.map (·.1)), 0, 32), (sum (c.map (·.2)), 32, 32)], counters := span 0 64 })

/-! ### Cellars, shelves, attic ports, host ports (07, 08, 12, 19) -/

def powerValue : PowerState → Nat
  | .on => 0 | .retention => 1 | .off => 2

/-- A cellar's block; a cellar that was absent from the start reads its reset values (19 R523). -/
def cellarBlock (s : State) (n o : Nat) : Option RegWord :=
  let x := cellarOf s n
  let here := (tfind s.boot.cellarPhys n).isSome && started s
  let busy := x.resetting || (List.range 64).any (fun i => (coreOf s (64 * n + i)).resetting)
  let mine := fun (p : Nat) => cellarOwner s n == p
  pick o [
    (0x000, fun _ => {
      value := word [(if here then powerValue (domainOf s (domCellar n)).dstate else 0, 0, 2), (b2n (bitAt s.boot.presentCellars n), 2, 1),
                     (b2n busy, 3, 1), (cellarOwner s n, 4, 5), (x.epoch, 16, 16)]
      wide := false, mine := mine }),
    (0x200, fun _ => {
      value := word [(x.scratchBanks, 0, 5), (if here then (cacheBanks x).length else 0, 5, 5), (x.lockedWays, 16, 16),
                     (min 3 (trackersNoalloc x), 32, 2)]
      mine := mine, counters := span 32 2 })]
  <|> arr o 0x300 8 8 (fun i =>
    let r := tget s.cells.wtRegions i {}
    { value := if here then word [(b2n r.enable, 0, 1), (r.base, 12, 36), (r.granulesM1, 48, 16)] else 0, mine := mine })
  <|> arr o 0x400 8 16 (fun b =>
    let k := tget x.banks b {}
    { value := word [(k.disabledWays, 0, 16), (k.failingWays, 16, 16), (b2n k.off, 32, 1),
                     (b2n (((liveBanks x).take x.scratchBanks).contains b), 33, 1)]
      mine := mine })
  <|> arr o 0x800 8 64 (fun c =>
    let k := coreOf s (64 * n + c)
    { value := word [(k.scratchUnits, 0, 2), (k.disabledWays, 8, 12), (k.failingWays, 20, 12)], mine := mine })

/-- A partition holds a shelf when a MEMORY region of it lies there. -/
def holdsShelf (s : State) (n p : Nat) : Bool :=
  (regionsOf s p).any (fun r => r.kind == .memory && r.base < (n + 1) * shelfSize && n * shelfSize < r.base + r.length * 0x10000)

/-- Repair STATE (08 Table 8-10). -/
def repairState (busy done : Bool) : Nat := if busy then 1 else if done then 2 else 0

def shelfBlock (s : State) (n o : Nat) : Option RegWord :=
  let x := shelfOf s n
  let mine := holdsShelf s n
  pick o [
    (0x00, fun _ => {
      value := word [(b2n (bitAt s.boot.presentShelves n), 0, 1), (b2n x.integrity, 1, 1), (b2n (x.held != 0), 2, 1), (x.chDown, 8, 32),
                     (x.rowBits, 40, 5), (x.banksLog2, 45, 4), (x.sids, 49, 4)]
      mine := mine }),
    (0x48, fun _ => {
      value := word [(repairState x.repairBusy x.repairDone, 0, 2), (x.repairResult, 8, 8), (x.repairRejected, 16, 16), (x.repairRow, 32, 32)]
      mine := mine, counters := span 16 16 }),
    (0x50, fun _ => {
      value := word [(x.corrected, 0, 32), (x.uncorrected, 32, 16), ((x.wcb.filter (fun e => !e.flushing)).length, 48, 7), ((tget s.err.rowQueue n []).length, 56, 8)]
      mine := mine, counters := span 0 64 })]
  <|> arr o 0x100 8 32 (fun c =>
    let k := channelSpare x c
    { value := word [(k.softFree, 0, 16), (k.hardFree, 16, 16), (k.softUsed, 32, 16), (k.hardQueued, 48, 8)], mine := mine })

def atticStateValue : AtticState → Nat
  | .absent => 0 | .training => 1 | .up => 2 | .retraining => 3 | .down => 4

def atticBlock (s : State) (t o : Nat) : Option RegWord :=
  let x := siteOf s t
  let c := x.cap
  let f := siteFuse s t
  let w := f.profile.getD 0
  let mine := fun (p : Nat) => siteOwner s t == p
  pick o [
    (0x00, fun _ => {
      value := word [(atticStateValue x.astate, 0, 3), (b2n x.present, 3, 1), (b2n c.cxl, 4, 1), (x.modulesUp, 8, 8), (x.modulesHalf, 16, 8),
                     (x.lastReason, 24, 4), (x.attempts, 28, 4), (x.dieEpoch, 32, 32)]
      mine := mine, counters := span 28 4 }),
    (0x08, fun _ => {
      value := word [(c.version, 0, 8), (b2n c.caching, 8, 1), (b2n c.staticPriority, 9, 1), (b2n c.executor, 10, 1), (b2n c.preempt, 11, 1),
                     (b2n c.urgency, 12, 1), (c.windowLog2, 16, 6), (c.maxOutstanding, 28, 12), (c.powerMax, 40, 16), (x.rate, 56, 8)]
      mine := mine }),
    (0x10, fun _ => {
      value := word [(b2n f.profile.isSome, 0, 1), (w, 1, 4), (f.profileWrites, 5, 3), (bits w 8 6, 8, 6), (f.mapWrites, 14, 2),
                     (bits w 16 16, 16, 16)]
      mine := mine }),
    (0x40, fun _ => {
      value := word [(x.protocolErrors, 0, 16), (x.powerOver, 16, 16), (x.portResets, 32, 16)]
      mine := mine, counters := span 0 48 })]
  <|> arr o 0x100 8 8 (fun k =>
    let l := tget x.lanes k {}
    { value := word [(l.width, 0, 2), (l.spares, 2, 3), (popCount l.failed 64, 8, 8), (l.repaired, 16, 48)], mine := mine })

/-- ATTIC_DIR[q]: the entries of a quadrant's directory (12 R319). -/
def directoryBlock (s : State) (o : Nat) : Option RegWord :=
  arr o 0 8 4 (fun q => {
    value := word [((s.attic.dir.filter (fun e => dirQuadrant s (e.1 * 128) == q)).length, 0, 19), (tget s.attic.recalls q 0, 32, 32)]
    counters := span 0 64 })

/-- The BAR2 size and WINDOW_BASE disagree (08 R237). -/
def bar2Misaligned (s : State) : Bool := s.boot.windowBase % 2 ^ s.boot.bar2Log2 != 0

/-- A partition holds a far-tier port when a MEMORY region of it lies in one of the port's decoders. -/
def holdsFar (s : State) (port p : Nat) : Bool :=
  (regionsOf s p).any (fun r => r.kind == .memory && (farOf s port).decoders.any (fun e =>
    e.2.enable && r.base < decBase e.2 + decSize e.2 && decBase e.2 < r.base + r.length * 0x10000))

def hostBlock (s : State) (o : Nat) : Option RegWord :=
  let l := s.boot.hostLink
  pick o [
    (0x0000, ro (word [(s.boot.windowBase, 0, 48), (b2n (bar2Misaligned s), 48, 1), (b2n (s.boot.hostUp && l.cxl), 49, 1)])),
    (0x0008, counting (word [(l.gts, 0, 7), (l.width, 7, 5), (b2n l.flit, 12, 1), (b2n s.boot.ideLink, 13, 1), (s.boot.ideSelective, 14, 3),
                             (if s.boot.d3hot then 3 else 0, 17, 2), (s.boot.poisonRx, 32, 32)]) (span 32 32))]
  <|> [0, 1].findSome? (fun p =>
    let dec := fun (d : Nat) => tget (farOf s p).decoders d {}
    let mine := holdsFar s p
    arr o (0x1000 + 0x100 * p) 0x10 8 (fun d => { value := word [((dec d).base, 28, 20)], mine := mine })
    <|> arr o (0x1008 + 0x100 * p) 0x10 8 (fun d =>
      let x := dec d
      { value := word [(b2n x.enable, 0, 1), (b2n x.iw2, 1, 1), (x.device, 2, 1), (b2n x.integrity, 3, 1), (b2n x.failed, 4, 1),
                       (x.size, 16, 16), (x.dpaBase, 32, 32)]
        mine := mine })
    <|> pick o [(0x2000 + 8 * p, fun _ => {
      value := word [((farOf s p).gts, 0, 7), ((farOf s p).width, 7, 5), (b2n (farOf s p).bifurcated, 12, 1), ((farOf s p).devicesUp, 13, 2),
                     (maskOf ((List.range 8).filter (fun d => (dec d).enable)), 16, 8)]
      mine := mine })])

/-! ### Chord (13, 14) -/

def laneStateValue : LaneState → Nat
  | .down => 0 | .training => 1 | .ready => 2 | .active => 3 | .failed => 4
def llStateValue : LlState → Nat
  | .closed => 0 | .cap => 1 | .keying => 2 | .opened => 3 | .mismatch => 4

/-- The lane that carries the transmitted time word: the lowest of TX_MASK on a native link (13 R351). -/
def timeLane (x : Engine) : Option Nat := if x.mode = 1 then (maskBits x.txMask 16).head? else none

def engineBlock (s : State) (e o : Nat) : Option RegWord :=
  let x := engineOf s e
  let l := llOf s e
  let mine := fun (p : Nat) => engineOwner s e == p
  pick o [
    (0x000, fun _ => { value := linkStatusWord x, mine := mine, counters := span 48 16 }),
    (0x008, fun _ => { value := linkConfigWord x, mine := mine }),
    (0x010, fun _ => { value := linkTimingWord e x, mine := mine }),
    (0x400, fun _ => {
      value := word [(llStateValue l.llstate, 0, 3), (l.replays, 16, 32), (l.authFails, 48, 16)], mine := mine, counters := span 16 48 }),
    (0x408, fun _ => {
      value := word [(l.fretOverrun, 0, 32), (l.demoted, 32, 16), (l.bank, 48, 4)], mine := mine, counters := span 0 48 }),
    (0x410, fun _ => {
      value := word ((List.range 4).map (fun v => (Config.rxFill s.fresh e v, 16 * v, 16))), mine := mine, counters := span 0 64 })]
  <|> arr o 0x100 8 16 (fun i =>
    let k := tget x.lanes i {}
    { value := word [(laneStateValue k.lstate, 0, 3), (b2n (timeLane x == some i), 3, 1), (k.failReason, 4, 4), (k.retries, 8, 8),
                     (k.uncorrected, 16, 16), (k.corrected, 32, 32)]
      mine := mine, counters := span 8 56 })
  <|> arr o 0x200 8 16 (fun i => {
    value := match tfind x.eq i with
      | some q => word [(unsignedOf q.pre 8, 0, 8), (q.main, 8, 8), (unsignedOf q.post 8, 16, 8), (q.ctle, 24, 5), (1, 32, 1)]
      | none => 0
    mine := mine })
  <|> arr o 0x300 8 4 (fun p => {
    value := match s.boot.board.identity with | some d => bits (tget d.macs (4 * physEngine s e + p) 0) 0 48 | none => 0
    mine := mine })

def chordBlock (s : State) (o : Nat) : Option RegWord :=
  let c := s.chord
  pick o [
    (0x00, ro (word [(c.node, 0, 32), (0x10, 32, 8), (0x10, 40, 8), (50, 48, 8)])),
    (0x08, counting (word [(c.peers.length, 0, 17), (c.evictions, 32, 16), (c.createWaits, 48, 16)]) (span 0 64)),
    (0x10, counting (word [(c.noTag, 0, 16), (c.badVersion, 16, 16), (c.hopsExpired, 32, 16), (c.noRoute, 48, 16)]) (span 0 64))]
  <|> arr o 0x1000 0x10 64 (fun w => match tfind c.windows w with
    | none => {}
    | some x => {
      value := word [(1, 0, 1), (b2n x.noWrite, 1, 1), (b2n x.eth, 2, 1),
                     (b2n (c.peers.any (fun e => e.2.node == x.node && e.2.part == x.part && e.2.unreachable)), 3, 1), (x.part, 4, 4),
                     (x.lengthM1, 8, 24), (x.node, 32, 32)]
      mine := fun p => x.part == p })
  <|> arr o 0x1008 0x10 64 (fun w => match tfind c.windows w with
    | none => {}
    | some x => { value := bits x.remoteBase 0 48, mine := fun p => x.part == p })
  <|> arr o 0x2000 8 256 (fun i => { value := match tfind c.routes i with
    | some r => word [(r.node, 0, 32), (r.engines, 32, 12), (r.hops, 44, 3), (1, 47, 1)]
    | none => 0 })

/-! ### Regulators and translation (10, 11) -/

def regulatorBlock (s : State) (o : Nat) : Option RegWord :=
  let owns := fun (m p : Nat) => masterOwner s m == some p
  let out := fun (n p : Nat) => shelfUnits s n p
  pick o [
    (0x0, ro (word [(poolUnits, 0, 20), (89, 20, 8), (shelfUnitsNominal, 32, 16), (missThreshold, 48, 16)])),
    (0x8, counting (word [(sum ((presentMasters s).map (fun m => (masterOf s m).effective)), 0, 20),
                          (sum (allMasters.map (outUnits s)), 20, 20)]) (span 20 20))]
  <|> arr o 0x100 8 16 (fun p => {
    value := word [(allotOf s p, 0, 20), (masterSum s p, 20, 20), (b2n (s.reg.scaled.contains p), 40, 1)], mine := fun q => p == q })
  <|> arr o 0x1000 0x20 89 (fun m =>
    let x := masterOf s m
    let fixed : Bool := 64 ≤ m && m < 72 && (siteOf s (m - 64)).cap.staticPriority
    { value := word [(x.guarantee, 0, 20), (x.weight, 20, 8), (b2n fixed, 28, 1), (b2n (masterPresent s m), 29, 1),
                     (match masterOwner s m with | some p => p | none => 31, 32, 5), (x.effective, 44, 20)]
      mine := owns m })
  <|> arr o 0x1008 0x20 89 (fun m => {
    value := word [((masterOf s m).budget, 0, 20), (outUnits s m, 20, 20), (urgencyOf s m, 40, 2), (masterState s m, 42, 2)]
    mine := owns m, counters := span 20 20 })
  <|> arr o 0x1010 0x20 89 (fun m => {
    value := word [((masterOf s m).missedStrums, 0, 32), ((masterOf s m).missedCycles, 32, 32)], mine := owns m, counters := span 0 64 })
  <|> arr o 0x1018 0x20 89 (fun m => {
    value := word [((masterOf s m).heldCycles, 0, 32), ((masterOf s m).loweredCycles, 32, 32)], mine := owns m, counters := span 0 64 })
  <|> arr o 0x4000 0x20 192 (fun i =>
    let x := shelfRegOf s (i / 16) (i % 16)
    { value := word [(x.guarantee, 0, 16), (x.weight, 16, 8), (x.effective, 24, 16), (x.budget, 40, 16)], mine := fun p => i % 16 == p })
  <|> arr o 0x4008 0x20 192 (fun i =>
    let x := shelfRegOf s (i / 16) (i % 16)
    { value := word [(out (i / 16) (i % 16), 0, 16), (regState (out (i / 16) (i % 16)) x.budget (shelfHead s (i / 16) (i % 16)), 16, 2),
                     (x.missedStrums, 32, 32)]
      mine := fun p => i % 16 == p, counters := span 0 16 + span 32 32 })
  <|> arr o 0x6000 8 12 (fun n =>
    let nominal := if started s && !bitAt s.boot.presentShelves n then 0 else shelfUnitsNominal
    { value := word [(nominal, 0, 16), (if started s then shelfCap s n else shelfUnitsNominal, 16, 16), (b2n (s.reg.derated.contains n), 32, 1)]
      mine := holdsShelf s n })

def transBlock (s : State) (o : Nat) : Option RegWord :=
  let t := s.trans
  pick o [
    (0x0, ro (word [(32, 0, 6), (6, 6, 4), (512, 10, 10), (4096, 20, 13), (16384, 33, 15), (32, 48, 8)])),
    (0x8, counting (word [((t.walks.filter (fun e => e.2.begun)).length, 0, 6), ((t.faults.filter (fun e => !e.2.retrying)).length, 16, 10),
                          (t.bindings.length, 32, 13), (t.faultWait, 48, 16)]) (span 0 64))]
  <|> arr o 0x1000 0x10 512 (fun i => match tfind t.faults i with
    | none => {}
    | some f => { value := bits f.address 0 64, mine := fun p => f.owner == p })
  <|> arr o 0x1008 0x10 512 (fun i => match tfind t.faults i with
    | none => { value := word [(0xFF, 56, 8)], mine := fun _ => false }
    | some f => {
      value := word [(b2n (!f.retrying), 0, 1), (f.access, 2, 2), (f.reason, 4, 4), (f.generation, 8, 16), (f.pasid, 24, 20),
                     (min 255 f.requesters.length, 44, 8), (f.level, 52, 3), (if f.owner = 0 then 0xFF else f.owner, 56, 8)]
      mine := fun p => f.owner == p, counters := span 44 8 })

/-! ### Security, power, errors (15, 16, 17, 18) -/

/-- Entry `i` of the change log, 256 bits (16). -/
def logNat (i : Nat) (e : LogEntry) : Nat :=
  word [(i, 0, 16), (e.setting, 16, 8), (e.site, 24, 3), (e.result, 32, 8), (e.start, 40, 24), (e.old, 64, 64), (e.new, 128, 64),
        (e.requester, 192, 64)]

def secBlock (s : State) (o : Nat) : Option RegWord :=
  let f := s.boot.fuses
  let own := fun (p q : Nat) => p == q
  pick o [
    (0x00, counting (word [(lifecycleValue s.boot.lifecycleNow, 0, 2), (b2n (lifecyclePending s), 2, 1), (b2n s.part.updateInProgress, 3, 1),
                           (b2n s.mgmt.session, 4, 1), (b2n s.part.mgmtRoot, 5, 1),
                           ((s.part.models.filter (fun e => !e.2.bound)).length, 8, 4), (transitioningMask s, 16, 16),
                           ((s.part.models.filter (fun e => e.2.bound)).length, 32, 11)]) (span 8 4 + span 32 11)),
    (0x08, ro s.part.generation),
    (0x10, ro (word [(variantValue f.variant, 0, 2), (b2n f.downgraded, 2, 1), (f.lifecycleSteps, 4, 2), (f.antiRollback, 8, 8),
                        (f.log.length, 16, 9)])),
    (0x20, counting (word [(repairState s.boot.lcBusy s.boot.lcDone, 0, 2), (s.boot.lcResult, 8, 8), (s.boot.lcRejected, 16, 16)]) (span 16 16))]
  <|> arr o 0x100 0x20 16 (fun p =>
    let x := partShown s p
    { value := word [(stateValue x.pstate, 0, 2), (if x.pstate = .transitioning then phaseValue x.phase else 0, 2, 2), (b2n x.hostBar2, 4, 1),
                     (b2n (x.pstate != .none && isOpen s p), 5, 1), (b2n (noMac s p), 6, 1), ((regionsOf s p).length, 8, 8),
                     (ctxEpoch s p, 32, 32)]
      mine := own p })
  <|> arr o 0x108 0x20 16 (fun p => { value := bits (partShown s p).memEpoch 0 32, mine := own p })
  <|> arr o 0x110 0x20 16 (fun p => { value := bits (partOf s p).ownerCounter 0 64, mine := own p, counters := span 0 64 })
  <|> arr o 0x118 0x20 16 (fun p => { value := bits (partOf s p).refused 0 32, mine := own p, counters := span 0 32 })
  <|> arr o 0x800 8 32 (fun i => { value := tget s.boot.lcRequest i 0 })
  <|> arr o 0x1000 8 1024 (fun i => { value := match f.log[i / 4]? with
    | some e => bits (logNat (i / 4) e) (64 * (i % 4)) 64
    | none => 0 })

/-- PWR_CMP[k]. -/
def comparatorWord (x : Comparator) : Nat :=
  word [(b2n x.enable, 0, 1), (b2n x.asserted, 1, 1), (b2n x.below, 2, 1), (x.action, 3, 3), (x.source, 8, 8), (x.hysteresis, 16, 4)]

/-- Partition that holds the unit of a domain; none for a domain that is no partition's. -/
def domainHeld (s : State) (d p : Nat) : Bool :=
  if d < 64 then cellarOwner s d == p
  else if d < 76 then holdsShelf s (d - 64) p
  else if d < 88 then engineOwner s (d - 76) == p
  else if d < 96 then siteOwner s (d - 88) == p
  else true

def powerBlock (s : State) (o : Nat) : Option RegWord :=
  let w := s.pwr
  let reading := fun (full : Bool) => let r := readings s full
    word [(nth r 0 0, 0, 16), (nth r 1 0, 16, 16), (nth r 2 0, 32, 16), (w.cpIdleMs, 48, 16)]
  let site := fun (full : Bool) (t : Nat) => let r := readings s full
    word [((atticPowerOf s t).budget, 0, 16), ((atticPowerOf s t).grant, 16, 16), (nth r (11 + t) 0, 32, 16), (nth r (3 + t) 0, 48, 16)]
  pick o [
    (0x000, ro (word [(103, 0, 7), (8, 8, 4), (w.hubCap, 16, 16), (w.packageCap, 32, 16), (w.hubFloor, 48, 16)])),
    (0x008, ro (word [(w.package, 0, 16), (w.hbm, 16, 16), (hubBudget s, 32, 16), (w.level, 48, 3), (b2n w.hbmLimiting, 51, 1)])),
    (0x010, fun _ => { value := reading false, full := some (reading true) }),
    (0x100, counting (word [(w.wakeLatch, 0, 11), (w.wakes, 16, 32)]) (span 16 32)),
    (0x300, counting (word [(b2n s.mgmt.sgmiiUp, 0, 1), (b2n s.mgmt.smbusEn, 1, 1), (b2n s.mgmt.i3cEn, 2, 1), (s.mgmt.i3cDynAddr, 8, 7),
                            (s.mgmt.eid, 16, 8), (mgmtInFlight s, 24, 8), (s.mgmt.eventsDropped, 32, 16)]) (span 24 24))]
  <|> arr o 0x40 8 8 (fun t => { value := site false t, full := some (site true t), mine := fun p => siteOwner s t == p })
  <|> arr o 0x200 0x10 8 (fun k => { value := comparatorWord (comparatorOf s k) })
  <|> arr o 0x208 0x10 8 (fun k => { value := bits (comparatorOf s k).value 0 64 })
  <|> arr o 0x1000 8 103 (fun d =>
    let x := domainOf s d
    { value := word [(powerValue x.dstate, 0, 2), (powerValue x.target, 2, 2), (b2n x.transition, 4, 1), (b2n (!x.latched.isEmpty), 5, 1),
                     (x.retainMask, 16, 16), (x.transitions, 32, 32)]
      mine := domainHeld s d, counters := span 32 32 })

def errorBlock (s : State) (o : Nat) : Option RegWord :=
  pick o [(0x0, counting (word [(s.err.nextIndex, 0, 32), (s.err.lost, 32, 16), (s.err.pagesRetired, 48, 16)]) (span 0 64))]
  <|> arr o 0x100 8 5 (fun k =>
    let x := tget s.err.scrub k {}
    { value := word [(x.segment, 0, 6), (b2n x.escalated, 6, 1), (b2n x.late, 7, 1), (x.passes, 8, 24), (x.corrected, 32, 32)]
      counters := span 8 56 })
  <|> arr o 0x1000 8 (8 * 4096) (fun i => match tfind s.err.ring (i / 8) with
    | none => {}
    | some r =>
      let at_ := fun (x : Nat) => bits x (64 * (i % 8)) 64
      { value := at_ (errRecordNat r r.time r.count)
        seen := some (at_ (errRecordNat r (if r.partition = 31 then r.boundary else r.time) (if r.strum = s.time.strumCount then 0 else r.count)))
        mine := fun p => r.partition == 31 || r.partition == p })

/-! ### The map, and reads -/

/-- The register at an 8-byte offset of the register space (Table 19-1); none at a reserved one (R521). -/
def regAt (s : State) (o : Nat) : Option RegWord :=
  let within := fun (base size : Nat) => base ≤ o && o < base + size
  let inst := fun (base : Nat) => (o - base) / 0x10000
  if within 0 0x10000 then idBlock s o
  else if within 0x0010000 0x10000 then globalBlock s (o - 0x0010000)
  else if within 0x0100000 0x40000 then mailboxBlock s ((o - 0x0100000) / 0x1000) (o % 0x1000)
  else if within 0x0200000 0x10000 then eqBlock s (o - 0x0200000)
  else if within 0x0300000 0x10000 then msixTableBlock s (o - 0x0300000)
  else if within 0x0380000 0x10000 then msixPbaBlock s (o - 0x0380000)
  else if within 0x0400000 0x10000 then timeBlock s (o - 0x0400000)
  else if within 0x0800000 0x10000 then larderBlock s (o - 0x0800000)
  else if within 0x1000000 0x400000 then cellarBlock s (inst 0x1000000) (o % 0x10000)
  else if within 0x1800000 0xC0000 then shelfBlock s (inst 0x1800000) (o % 0x10000)
  else if within 0x1A00000 0x80000 then atticBlock s (inst 0x1A00000) (o % 0x10000)
  else if within 0x1A80000 0x10000 then directoryBlock s (o - 0x1A80000)
  else if within 0x1C00000 0xC0000 then engineBlock s (inst 0x1C00000) (o % 0x10000)
  else if within 0x1D00000 0x10000 then chordBlock s (o - 0x1D00000)
  else if within 0x1E00000 0x10000 then hostBlock s (o - 0x1E00000)
  else if within 0x2000000 0x10000 then regulatorBlock s (o - 0x2000000)
  else if within 0x2200000 0x10000 then transBlock s (o - 0x2200000)
  else if within 0x2400000 0x10000 then secBlock s (o - 0x2400000)
  else if within 0x2600000 0x10000 then powerBlock s (o - 0x2600000)
  else if within 0x2800000 0x80000 then errorBlock s (o - 0x2800000)
  else none

/-- A register as a view shows it: an instance that a partition does not hold reads as zero; a partition other than 0 sees
time-base values coarsened and counters as the last boundary latched them (08 R214). -/
def regSeen (s : State) (v : View) (o : Nat) (r : RegWord) : Nat :=
  match v with
  | .host => r.value
  | .mgmt => r.full.getD r.value
  | .partition p =>
    if !r.mine p then 0
    else if p = 0 then r.value
    else
      let x := r.seen.getD r.value
      x - Nat.land x r.counters + Nat.land (tget s.part.latchedRegs o 0) r.counters

/-- A read of `n` bytes at an offset (00 R8, R9): zero unless it is aligned and exactly as wide as the register; half of a
register only where R9 allows it. -/
def readReg (s : State) (v : View) (o n : Nat) : Nat :=
  if 0x4000000 ≤ o ∨ (n ≠ 4 ∧ n ≠ 8) ∨ o % n ≠ 0 then 0
  else
    match regAt s (o - o % 8) with
    | none => 0
    | some r =>
      let x := regSeen s v (o - o % 8) r
      if n = 8 then (if r.wide then x else 0)
      else if r.halves then bits x (8 * (o % 8)) 32
      else if !r.wide ∧ o % 8 = 0 then x
      else 0

/-- Offsets of an array. -/
def offsets (base stride count : Nat) : List Nat := (List.range count).map (fun i => base + stride * i)

/-- The registers that hold counters. -/
def counterOffsets : List Nat :=
  offsets 0x0010010 8 5 ++ offsets 0x0100F40 0x1000 64 ++ offsets 0x0200010 0x40 512
    ++ offsets 0x0800000 8 8 ++ offsets 0x1000200 0x10000 64 ++ (offsets 0x1800048 0x10000 12).flatMap (fun o => [o, o + 8])
    ++ (offsets 0x1A00000 0x10000 8).flatMap (fun o => [o, o + 0x40]) ++ offsets 0x1A80000 8 4
    ++ (offsets 0x1C00000 0x10000 12).flatMap (fun o => o :: offsets (o + 0x100) 8 16 ++ offsets (o + 0x400) 8 3)
    ++ [0x1D00008, 0x1D00010, 0x1E00008, 0x2000008] ++ (offsets 0x2001008 0x20 89).flatMap (fun o => [o, o + 8, o + 0x10])
    ++ offsets 0x2004008 0x20 192 ++ [0x2200008] ++ offsets 0x2201008 0x10 512 ++ [0x2400000, 0x2400020]
    ++ (offsets 0x2400110 0x20 16).flatMap (fun o => [o, o + 8]) ++ [0x2600100, 0x2600300] ++ offsets 0x2601000 8 103 ++ [0x2800000]
    ++ offsets 0x2800100 8 5

/-- Latch every counter of the register space; what is not listed counts 0. -/
def latchRegs (s : State) : State :=
  let l := counterOffsets.filterMap (fun o => match regAt s o with
    | none => none
    | some r => let x := Nat.land r.value r.counters; if x = 0 then none else some (o, x))
  { s with part := { s.part with latchedRegs := l } }

end Sys2Proof.Machine
end

