-- ==== Sys2Proof/Machine/ChordMover.lean ====
section
/-! DEFINITION. Chord operations of the movers: PUT, GET, SIGNAL, and the collectives (spec 14 R398–R404, Tables 14-11 to
14-13). -/
namespace Sys2Proof.Machine

/-! ### The end of an operation -/

/-- Codes of Table 6-6 that Chord operations use. -/
def mcMalformed := 2
def mcPoisoned := 3

/-- The peer window that an HPA lies in by the address map, set or not (08 Table 8-1). -/
def windowAt (a : Nat) : Option Nat :=
  if peerBase ≤ a ∧ a < peerBase + 64 * peerStride then some ((a - peerBase) / peerStride) else none

/-- A message of a descriptor is outstanding. -/
def opWaits (s : State) (c : Nat) (j : MoverJob) : Bool :=
  s.chord.peers.any (fun e => e.2.messages.any (fun m => m.2.client == .mover c j.step j.part))

/-- Bytes that an operation moves, from its descriptor. -/
def opBytes (b : Bytes) : Nat :=
  match bbits b 0 8 with
  | 0x42 => 0
  | _ => bbits b 192 32

/-- The result of an operation (R399): DONE holds bytes / 64.  How many an operation moved that failed is a free value. -/
def endOp (s : State) (c id bytes : Nat) : State :=
  match jobFind s c id with
  | none => s
  | some j =>
    if j.code = 0 ∨ j.code = mcPoisoned then endJob s c id j.code (bytes / 64) j.aux0 j.aux1
    else
      let (n, s) := takeFresh s
      endJob s c id j.code (Config.random n % (bytes / 64 + 1)) j.aux0 j.aux1

/-- The first failure of an operation stands. -/
def opCode (s : State) (c id code : Nat) : State :=
  modJob s c id (fun j => { j with code := if j.code = 0 ∨ j.code = mcPoisoned then code else j.code })

/-- Poison met: the code is POISONED unless the operation has failed. -/
def opPoison (s : State) (c id : Nat) : State :=
  modJob s c id (fun j => { j with code := if j.code = 0 then mcPoisoned else j.code })

/-- An operation ends when none of its messages is outstanding. -/
def settleOp (s : State) (c id : Nat) : State :=
  match jobFind s c id with
  | none => s
  | some j => if opWaits s c j ∨ j.result.isSome then s else endOp s c id (opBytes (jobBody s j))

/-! ### Messages that grow -/

/-- Register a message whose packets follow. -/
def openMessage (s : State) (p : Nat) (m : Message) : State × Nat :=
  let id := (peerOf s p).nextMsg
  (modPeer s p (fun x => { x with nextMsg := (id + 1) % 2 ^ 32, messages := tset x.messages id m }), id)

/-- Add packets to a message: they go out now, or in the frets reserved for them. -/
def addPackets (s : State) (p id : Nat) (l : List Packet) : State :=
  let m := tget (peerOf s p).messages id {}
  let s := modPeer s p (fun x => { x with messages := tmodIf x.messages id (fun m =>
    { m with packets := m.packets ++ l, suppressed := m.suppressed + sum (l.map (fun k => popCount k.zmask 16)) }) })
  if m.reserved then s else enqueue s p l

/-- The home engine of a peer's traffic (R398). -/
def homeEngine (s : State) (p : Nat) : Nat := (pathEngines s (peerOf s p)).headD 0

/-- How far a host range translates: bytes, and what stopped it. -/
def hostReach (fuel : Nat) (s : State) (pasid part : Nat) (who : Asker) (a n : Nat) : State × Nat × Option Lookup :=
  match fuel with
  | 0 => (s, 0, none)
  | fuel + 1 =>
    if n = 0 then (s, 0, none)
    else
      match translate s pasid part a false who with
      | (s, .ok _ left) =>
        let k := min left n
        let (s, m, r) := hostReach fuel s pasid part who (a + k) (n - k)
        (s, k + m, r)
      | (s, r) => (s, 0, some r)

/-! ### PUT -/

/-- The packets of a PUT's next bytes, from the job's progress on. -/
def putSpan (s : State) (c : Nat) (j : MoverJob) (p id : Nat) (b : Bytes) (data : Bytes) (pz : Nat → Bool) : State :=
  if data.isEmpty then s
  else
    let m := tget (peerOf s p).messages id {}
    let h := { baseHeader s p ptWrite id m.reserved with addr := m.addr }
    let len := bbits b 192 32
    let l := cutPackets h (spanOf s (peerOf s p)) j.progress len data
      (fun o => (List.range 256).any (fun i => o + i < data.length && pz (o + i))) (bbits b 224 1 == 1)
    let s := modJob s c (jobId j) (fun j => { j with progress := j.progress + data.length })
    let s := if (List.range data.length).any pz then opPoison s c (jobId j) else s
    addPackets s p id l

/-- Hand over what can be read of a PUT's source (R400). -/
def putMore (s : State) (c : Nat) (j : MoverJob) (p id : Nat) (b : Bytes) (host : Fetch) : State :=
  let src := srcAddr s j b
  let len := bbits b 192 32
  match src with
  | .bad => s
  | .hpa a _ => putSpan s c j p id b (jobRead s c j a len) (fun i => (jobByte s c j (a + i)).2)
  | .host a =>
    let who := chordAsker (homeEngine s p) c (jobId j)
    let (s, n, stop) := hostReach (len / 4096 + 2) s (jobPasid b) (stepPart s j.step) who (a + j.progress) (len - j.progress)
    let span := spanOf s (peerOf s p)
    let n := if stop.isNone then n else n / span * span
    match (if n = 0 then some ([], fun _ => false) else hostData host n) with
    | none => moverError s c (jobId j) ecAccessError (a + j.progress)
    | some (data, bad) =>
      let s := putSpan (tlpPoison s (badIn bad 0 n)) c j p id b data bad
      match stop with
      | some (.failed _) =>
        -- the rest goes with every block poisoned, and the peer completes a message poisoned from that point
        let left := len - j.progress - n
        putSpan (modJob s c (jobId j) (fun j => { j with stalled := false })) c { j with progress := j.progress + n } p id b
          (List.replicate left 0) (fun _ => true)
      | some _ => stallJob s c (jobId j)
      | none => modJob s c (jobId j) (fun j => { j with stalled := false })

/-- Reserved fields of PUT and GET, and where their addresses may lie (R398, Table 14-11). -/
def transferBad (s : State) (j : MoverJob) (b : Bytes) (isPut : Bool) : Bool :=
  let len := bbits b 192 32
  let src := srcAddr s j b
  let dst := dstAddr s j b
  let remote := if isPut then dst else src
  bbits b 48 16 != 0 || len == 0 || bbits b 448 64 != 0 || bbits b 270 114 != 0 || bbits b 233 23 != 0
    || (if isPut then (bbits b 225 1 == 1 && (bbits b 226 6 == 0 || bbits b 226 6 == 63)) || bbits b 9 1 == 1
        else bbits b 224 46 != 0 || bbits b 8 1 == 1)
    || (windowAt (moveBase remote)).isNone || crosses src len || crosses dst len

/-- The frets reserved for a part. -/
def hasReservation (s : State) (slot part : Nat) : Bool := s.larder.schedule.any (fun e => e.step == slot && e.part == part)

/-- PUT.  A command for a PUT that a fault stalled reads on from where it stands. -/
def execPut (cellar job : Nat) (host : Fetch) (s : State) : Host.Outcome State Fault Refusal :=
  .next (runJob s cellar job 0x40 (fun s j b =>
    let len := bbits b 192 32
    let dst := moveBase (dstAddr s j b)
    let w := (dst - peerBase) / peerStride
    match j.msg with
    | some m => if j.stalled then putMore s cellar j (m / 2 ^ 32) (m % 2 ^ 32) b host else s
    | none =>
      if transferBad s j b true then endJob s cellar job mcMalformed 0 0 0
      else
        match rangeRefusal s j (srcAddr s j b) false len with
        | some code => moverError s cellar job code (moveBase (srcAddr s j b))
        | none =>
          match jobRefusal s j true dst len with
          | some code => moverError s cellar job code dst
          | none =>
            match (match srcAddr s j b with | .hpa a _ => ensureRemote s cellar j a len | _ => (s, true)) with
            | (s, false) => s
            | (s, true) =>
              match windowPeer s w with
              | (s, none) => if j.stalled then s else stallJob (countCreateWait s) cellar job
              | (s, some p) =>
                if (peerOf s p).unreachable then endOp (opCode s cellar job csUnreachable) cellar job len
                else
                  let m : Message := { ptype := ptWrite, client := .mover cellar j.step j.part, window := some w, bytes := len
                                       addr := windowRemote s w dst, reserved := hasReservation s j.step j.part }
                  let (s, id) := openMessage s p m
                  let s := modJob s cellar job (fun j => { j with msg := some (p * 2 ^ 32 + id), stalled := false })
                  putMore s cellar j p id b host))

/-! ### GET -/

/-- The engine parks at most 1 MiB of data whose destination faults (R400). -/
def parkLimit := 0x100000

/-- How the placing of read data ends. -/
inductive Placed where
  | done
  /-- The destination waits for a translation. -/
  | faulting
  | failed
  deriving DecidableEq, Repr, Inhabited

/-- Place data of a GET at an offset of its destination. -/
def placeGet (s : State) (c : Nat) (j : MoverJob) (engine off : Nat) (data : Bytes) (pz : Nat → Bool) : State × Placed :=
  let b := jobBody s j
  match dstAddr s j b with
  | .bad => (s, .failed)
  | .hpa a _ =>
    match jobRefusal s j true (a + off) data.length with
    | some code => (moverError s c (jobId j) code (a + off), .failed)
    | none => (jobWrite s c j (a + off) data pz, .done)
  | .host a =>
    match hostPages (data.length / 4096 + 2) s (jobPasid b) (stepPart s j.step) true (chordAsker engine c (jobId j)) (a + off) data.length with
    | (s, .ok l) => (hostPut s c j (jobPasid b) l data pz, .done)
    | (s, .wait) => (s, .faulting)
    | (s, .failed _ _) => (s, .failed)

/-- The span of a packet with its omitted blocks as zeros, and the poison of its bytes. -/
def unpack (k : Packet) : Bytes × (Nat → Bool) :=
  let rec go (fuel i : Nat) (p : Bytes) : Bytes :=
    match fuel with
    | 0 => p
    | fuel + 1 =>
      if bitAt k.zmask i then List.replicate 256 0 ++ go fuel (i + 1) p
      else if p.isEmpty then go fuel (i + 1) p
      else p.take 256 ++ go fuel (i + 1) (p.drop 256)
  (go 16 0 k.payload, fun i => bitAt k.pmask (i / 256))

/-- Take data of one READ_RSP packet for a GET: place it, park it, or tell that it must wait. -/
def takeGet (s : State) (c : Nat) (j : MoverJob) (engine off : Nat) (k : Packet) : State × Placed :=
  let (data, pz) := unpack k
  let s := if k.pmask = 0 then s else opPoison s c (jobId j)
  match placeGet s c j engine (off + k.offset) data pz with
  | (s, .failed) => (opPoison s c (jobId j), .failed)
  | r => r

/-- Bytes that a message has received; at the end it goes, and the operation settles. -/
def gotBytes (s : State) (p id n : Nat) : State :=
  match tfind (peerOf s p).messages id with
  | none => s
  | some m =>
    if m.got + n < m.bytes then modPeer s p (fun x => { x with messages := tset x.messages id { m with got := m.got + n } })
    else
      let s := modPeer s p (fun x => { x with messages := tdel x.messages id })
      match m.client with
      | .mover c st part =>
        settleOp (modJob s c (st * 1024 + part) (fun j => { j with aux1 := j.aux1 + m.retransmitted })) c (st * 1024 + part)
      | _ => s

/-- One parked packet of a GET's message is tried again. -/
def placeOne (s : State) (c : Nat) (j : MoverJob) (p msg off : Nat) (k : Packet) : State :=
  let engine := homeEngine s p
  match takeGet s c j engine off k with
  | (s, .faulting) => s
  | (s, _) =>
    let n := (unpack k).1.length
    let s := modLl s engine (fun l => { l with parked := l.parked - n })
    let s := modPeer s p (fun x => { x with messages := tmodIf x.messages msg (fun y =>
      { y with packets := y.packets.filter (· != k) }) })
    gotBytes s p msg n

/-- Parked data of a GET's messages are tried again. -/
def placeParked (s : State) (c : Nat) (j : MoverJob) : State :=
  forEach s.chord.peers s (fun s e =>
    forEach (e.2.messages.filter (fun m => m.2.client == .mover c j.step j.part && !m.2.packets.isEmpty && m.2.ptype == ptReadReq)) s
      (fun s m => forEach m.2.packets s (fun s k => placeOne s c j e.1 m.1 m.2.local_ k)))

/-- GET.  A command for a GET whose destination faulted places what is parked. -/
def execGet (cellar job : Nat) (s : State) : Host.Outcome State Fault Refusal :=
  .next (runJob s cellar job 0x41 (fun s j b =>
    let len := bbits b 192 32
    let src := moveBase (srcAddr s j b)
    let w := (src - peerBase) / peerStride
    if j.msg.isSome then placeParked s cellar j
    else if transferBad s j b false then endJob s cellar job mcMalformed 0 0 0
    else
      match jobRefusal s j false src len with
      | some code => moverError s cellar job code src
      | none =>
        match rangeRefusal s j (dstAddr s j b) true len with
        | some code => moverError s cellar job code (moveBase (dstAddr s j b))
        | none =>
          match windowPeer s w with
          | (s, none) => if j.stalled then s else stallJob (countCreateWait s) cellar job
          | (s, some p) =>
            if (peerOf s p).unreachable then endOp (opCode s cellar job csUnreachable) cellar job len
            else
              let s := modJob s cellar job (fun j => { j with msg := some (p * 2 ^ 32), stalled := false })
              forEach (List.range ((len + 4095) / 4096)) s (fun s i =>
                let n := min 4096 (len - 4096 * i)
                let a := windowRemote s w src + 4096 * i
                (sendMessage s p { ptype := ptReadReq, client := .mover cellar j.step j.part, window := some w, addr := a
                                   bytes := n, local_ := 4096 * i } 0 a (leBytes 4 n) (fun _ => false) false false).1)))

/-! ### SIGNAL -/

/-- Why a peg operation through a window is refused: the window is not the partition's, takes no writes, or the partition
has no send tag (R387, R395). -/
def windowPegRefused (s : State) (part w : Nat) : Option Nat :=
  match tfind s.chord.windows w with
  | none => some ecAccessError
  | some x => if x.part ≠ part then some ecFirewall else if x.noWrite || (sendTag s part).isNone then some ecAccessError else none

/-- Send a peg operation: OP, the peg at the peer, the count. -/
def sendPeg (s : State) (p : Nat) (client : MsgClient) (w op peg n : Nat) : State :=
  (sendMessage s p { ptype := ptPeg, client := client, window := some w } op peg (leBytes 3 n) (fun _ => false) false false).1

/-- SIGNAL. -/
def execSignal (cellar job : Nat) (s : State) : Host.Outcome State Fault Refusal :=
  .next (runJob s cellar job 0x42 (fun s j b =>
    let w := bbits b 64 6
    let op := bbits b 96 3
    if j.msg.isSome then s
    else if bbits b 8 4 ≠ 0 ∨ bbits b 48 16 ≠ 0 ∨ bbits b 70 10 ≠ 0 ∨ bbits b 94 2 ≠ 0 ∨ bbits b 99 29 ≠ 0 ∨ bbits b 152 232 ≠ 0
        ∨ bbits b 448 64 ≠ 0 ∨ (op ≠ 0 ∧ op ≠ 2 ∧ op ≠ 3) then endJob s cellar job mcMalformed 0 0 0
    else
      match windowPegRefused s (stepPart s j.step) w with
      | some code => moverError s cellar job code (peerBase + w * peerStride)
      | none =>
        match windowPeer s w with
        | (s, none) => if j.stalled then s else stallJob (countCreateWait s) cellar job
        | (s, some p) =>
          if (peerOf s p).unreachable then endOp (opCode s cellar job csUnreachable) cellar job 0
          else
            let s := modJob s cellar job (fun j => { j with msg := some (p * 2 ^ 32), stalled := false })
            sendPeg s p (.mover cellar j.step j.part) w op (bbits b 80 14) (bbits b 128 24)))

/-! ### Collectives (R402–R404) -/

/-- The CRC-32 of IEEE 802.3 over a byte string. -/
def crc32 (b : Bytes) : Nat :=
  let step := fun (c : Nat) (_ : Nat) => if c % 2 = 1 then Nat.xor (c / 2) 0xEDB88320 else c / 2
  Nat.xor (b.foldl (fun c x => (List.range 8).foldl step (Nat.xor c x.toNat)) 0xFFFFFFFF) 0xFFFFFFFF

/-- A collective is known by its partition and COLL_ID. -/
def collKey (part id : Nat) : Nat := part * 2 ^ 32 + id
def collOf (s : State) (k : Nat) : Option Collective := tfind s.chord.colls k
def modColl (s : State) (k : Nat) (f : Collective → Collective) : State :=
  { s with chord := { s.chord with colls := tmodIf s.chord.colls k f } }

/-- Bytes of one unit of ELEM: an element, or a WIDE tile. -/
def collUnit (elem : Nat) : Nat := if elem = 1 then 2 else if elem = 3 then 65600 else 4

/-- Base and bytes of shard `j` (R403). -/
def shardOf (x : Collective) (j : Nat) : Nat × Nat :=
  let u := collUnit x.elem
  let e := x.length / u
  let n := max 1 x.nodes.length
  let lo := j * e / n
  (lo * u, ((j + 1) * e / n - lo) * u)

/-- One sum of the ring: the partial that arrives, and the member's own. -/
def collSum (elem : Nat) (a b : Bytes) : Bytes :=
  let u := collUnit elem
  (List.range (b.length / u)).flatMap (fun i =>
    let x := (a.drop (i * u)).take u
    let y := (b.drop (i * u)).take u
    match elem with
    | 0 => leBytes 4 (addF32 (leNat x) (leNat y))
    | 1 => leBytes 2 (addB16 (leNat x) (leNat y))
    | 2 => leBytes 4 (leNat x + leNat y)
    | _ => exportWide (joinWide [parseWide x, parseWide y]))

/-- Poison of a sum, by unit. -/
def collBad (elem n : Nat) (a b : Nat → Bool) : Nat → Bool :=
  let u := collUnit elem
  fun i => (List.range u).any (fun k => let o := i / u * u + k; o < n && (a o || b o))

/-- The peer entry of a member: through a window of the partition that names the node, if there is one. -/
def memberPeer (s : State) (part node : Nat) : State × Option Nat :=
  match s.chord.windows.find? (fun e => e.2.part == part && e.2.node == node) with
  | some (_, w) => peerEntry s node part w.eth w.ipv6
  | none => peerEntry s node part false 0

/-- Send one segment of a collective to a member. -/
def sendSegment (s : State) (k : Nat) (x : Collective) (target st : Nat) (data : Bytes) (pz : Nat → Bool) (zsupp : Bool) : State :=
  match memberPeer s (k / 2 ^ 32) (nth x.nodes target 0) with
  | (s, none) => countCreateWait s
  | (s, some p) =>
    let s := modColl s k (fun x => { x with outstanding := x.outstanding + 1 })
    (sendMessage s p { ptype := ptColl, client := .coll x.cellar x.step x.part, bytes := data.length } (x.rank + st * 256)
      (k % 2 ^ 32 + x.hash * 2 ^ 32) data
      (fun o => (List.range 256).any (fun i => o + i < data.length && pz (o + i))) zsupp false).1

/-- The job of a collective. -/
def collJob (s : State) (x : Collective) : Option MoverJob := jobFind s x.cellar (x.step * 1024 + x.part)

/-- Messages of a collective leave, and the collective with them. -/
def dropColl (s : State) (k : Nat) : State :=
  match collOf s k with
  | none => s
  | some x =>
    let mine := fun (m : Message) => m.client == .coll x.cellar x.step x.part
    { s with chord := { s.chord with
        colls := tdel s.chord.colls k
        peers := tmap s.chord.peers (fun _ (p : Peer) =>
          let ids := tkeys (p.messages.filter (fun m => mine m.2))
          { p with messages := p.messages.filter (fun m => !mine m.2)
                   queue := p.queue.filter (fun q => !(q.ptype == ptColl && ids.contains q.msg)) }) } }

/-- Bytes a collective moves, for DONE. -/
def collBytes (x : Collective) : Nat := if x.allreduce then x.length else x.length * x.nodes.length

/-- A collective ends with a code. -/
def endColl (s : State) (k code : Nat) : State :=
  match collOf s k with
  | none => s
  | some x =>
    let id := x.step * 1024 + x.part
    let s := dropColl s k
    let s := if code = 0 then s else opCode s x.cellar id code
    let s := if x.poison then opPoison s x.cellar id else s
    endOp s x.cellar id (collBytes x)

/-- Segments a member must receive. -/
def collWanted (x : Collective) : Nat := if x.allreduce then 2 * x.nodes.length - 2 else x.nodes.length - 1

/-- A collective is complete when every segment has come and every own one has its DONE. -/
def settleColl (s : State) (k : Nat) : State :=
  match collOf s k with
  | none => s
  | some x => if x.received.length = collWanted x ∧ x.outstanding = 0 then endColl s k 0 else s

/-- A whole segment has arrived (R403, R404): the step's place in the ring says what it is. -/
def segmentArrives (s : State) (k : Nat) (rank st : Nat) (data : Bytes) (bad : Nat → Bool) : State :=
  match collOf s k with
  | none => s
  | some x =>
    match collJob s x with
    | none => s
    | some j =>
      let n := x.nodes.length
      let poisoned := (List.range data.length).any bad
      let s := modColl s k (fun x => { x with received := x.received ++ [(rank, st)], poison := x.poison || poisoned })
      let next := (x.rank + 1) % n
      if !x.allreduce then
        settleColl (jobWrite s x.cellar j (x.dst + rank * x.length) data bad) k
      else if st + 1 < n then
        -- a partial: stage it, add the member's own values, pass it on; the last sum is the shard's result
        let sh := shardOf x ((rank + n * 2 - 1 - st) % n)
        let s := jobWrite s x.cellar j (x.scratch + sh.1) data bad
        let own := jobRead s x.cellar j (x.src + sh.1) sh.2
        let ownBad := fun i => (jobByte s x.cellar j (x.src + sh.1 + i)).2
        let r := collSum x.elem data own
        let rBad := collBad x.elem sh.2 bad ownBad
        let s := modColl s k (fun x => { x with poison := x.poison || (List.range sh.2).any rBad })
        let s := jobWrite s x.cellar j ((if st + 2 = n then x.dst else x.scratch) + sh.1) r rBad
        settleColl (sendSegment s k x next (st + 1) r rBad false) k
      else
        -- a finished shard: write it, and pass it on until it has gone round
        let sh := shardOf x ((rank + 2 * n - (st + 1 - n)) % n)
        let s := jobWrite s x.cellar j (x.dst + sh.1) data bad
        let s := if st + 3 = 2 * n then s else sendSegment s k x next (st + 1) data bad false
        settleColl s k

/-- Reserved fields of a collective's descriptor (Table 14-13); only SRC and DST may be page-relative. -/
def collMalformed (s : State) (j : MoverJob) (b : Bytes) (allreduce : Bool) (n : Nat) : Bool :=
  let len := bbits b 192 32
  let elem := bbits b 224 4
  bbits b 48 16 != 0 || bbits b 8 2 != 0 || bbits b 228 28 != 0
    || (if allreduce then 3 < elem || len % collUnit elem != 0 else elem != 0 || len % 256 != 0 || bbits b 448 64 != 0)
    || crosses (srcAddr s j b) (if allreduce then len else n * len) || crosses (dstAddr s j b) (if allreduce then len else n * len)

/-- The node list of a group block at hand (R402): COUNT, RANK and the nodes, or none when it is not valid here. -/
def groupBlock (s : State) (c : Nat) (j : MoverJob) (a : Nat) : Option (List Nat × Nat) :=
  let h := jobRead s c j a 8
  let n := bbits h 8 8
  let rank := bbits h 16 8
  let nodes := (List.range n).map (fun i => leNat (jobRead s c j (a + 8 + 4 * i) 4))
  if bbits h 0 8 = 0x10 ∧ bbits h 24 40 = 0 ∧ 2 ≤ n ∧ n ≤ 64 ∧ rank < n ∧ nth nodes rank 0 = s.chord.node ∧ distinct nodes then
    some (nodes, rank)
  else none

/-- The peers of a collective's other members, found or created. -/
def memberPeers (s : State) (part : Nat) (nodes : List Nat) : State × List (Option Nat) :=
  (nodes.filter (· != s.chord.node)).foldl (fun (r : State × List (Option Nat)) node =>
    let q := memberPeer r.1 part node
    (q.1, r.2 ++ [q.2])) (s, [])

/-- Bytes and poison of a source range of a collective. -/
def collRead (s : State) (c : Nat) (j : MoverJob) (a n : Nat) : Bytes × (Nat → Bool) :=
  (jobRead s c j a n, fun i => (jobByte s c j (a + i)).2)

/-- Send the first segments of a collective: an ALLREDUCE's first shard, an ALLTOALL's segment to every other rank. -/
def sendFirst (s : State) (c : Nat) (j : MoverJob) (k : Nat) (x : Collective) : State :=
  let n := x.nodes.length
  if x.allreduce then
    let sh := shardOf x ((x.rank + n - 1) % n)
    let r := collRead s c j (x.src + sh.1) sh.2
    let s := if (List.range sh.2).any r.2 then opPoison s c (jobId j) else s
    sendSegment s k x ((x.rank + 1) % n) 0 r.1 r.2 false
  else
    let own := collRead s c j (x.src + x.rank * x.length) x.length
    let segs := (List.range n).filter (· != x.rank) |>.map (fun t => (t, collRead s c j (x.src + t * x.length) x.length))
    let bad := (List.range (n * x.length)).any (collRead s c j x.src (n * x.length)).2
    let s := jobWrite s c j (x.dst + x.rank * x.length) own.1 own.2
    let s := if bad then opPoison s c (jobId j) else s
    forEach segs s (fun s g => sendSegment s k x g.1 0 g.2.1 g.2.2 true)

/-- Post a collective whose ranges are at hand. -/
def postReady (s : State) (c : Nat) (j : MoverJob) (b : Bytes) (allreduce : Bool) (nodes : List Nat) (rank total : Nat) : State :=
  let id := jobId j
  let k := collKey (stepPart s j.step) (bbits b 320 32)
  if (sendTag s (stepPart s j.step)).isNone then moverError s c id ecAccessError 0
  else
    match memberPeers s (stepPart s j.step) nodes with
    | (s, ps) =>
      if ps.any (·.isNone) then (if j.stalled then s else stallJob (countCreateWait s) c id)
      else if ps.any (fun p => match p with | some p => (peerOf s p).unreachable | none => false) then
        endOp (opCode s c id csUnreachable) c id total
      else
        let x : Collective := { cellar := c, step := j.step, part := j.part, allreduce := allreduce
                                elem := bbits b 224 4, length := bbits b 192 32, src := moveBase (srcAddr s j b)
                                dst := moveBase (dstAddr s j b), scratch := bbits b 448 64
                                nodes := nodes, rank := rank, hash := crc32 (nodes.flatMap (leBytes 4)) }
        let s := { s with chord := { s.chord with colls := tset s.chord.colls k x } }
        sendFirst (modJob s c id (fun j => { j with msg := some k, stalled := false })) c j k x

/-- Ask for the other ranges of a collective whose group block is at hand, and post it. -/
def postGroup (s : State) (c : Nat) (j : MoverJob) (b : Bytes) (allreduce : Bool) (nodes : List Nat) (rank : Nat) : State :=
  let len := bbits b 192 32
  let total := if allreduce then len else nodes.length * len
  if collMalformed s j b allreduce nodes.length then endJob s c (jobId j) mcMalformed 0 0 0
  else
    match routeReads s c j [(moveBase (srcAddr s j b), total)] with
    | (s, false) => s
    | (s, true) =>
      match routeWrites s c j ([(moveBase (dstAddr s j b), total)] ++ (if allreduce then [(bbits b 448 64, len)] else [])) with
      | (s, false) => s
      | (s, true) => postReady s c j b allreduce nodes rank total

/-- Post a collective, once all its ranges are at hand, and send the first segments. -/
def postColl (s : State) (c : Nat) (j : MoverJob) (b : Bytes) (allreduce : Bool) : State :=
  let group := bbits b 256 64
  if j.msg.isSome ∨ (collOf s (collKey (stepPart s j.step) (bbits b 320 32))).isSome then s
  else
    match routeReads s c j [(group, 8)] with
    | (s, false) => s
    | (s, true) =>
      match routeReads s c j [(group + 8, 4 * min 64 (bbits (jobRead s c j group 8) 8 8))] with
      | (s, false) => s
      | (s, true) =>
        if collMalformed s j b allreduce 1 then endJob s c (jobId j) mcMalformed 0 0 0
        else
          match groupBlock s c j group with
          | none => endJob s c (jobId j) mcMalformed 0 0 0
          | some (nodes, rank) => postGroup s c j b allreduce nodes rank

/-- ALLREDUCE. -/
def execAllreduce (cellar job : Nat) (s : State) : Host.Outcome State Fault Refusal :=
  .next (runJob s cellar job 0x43 (fun s j b => postColl s cellar j b true))

/-- ALLTOALL. -/
def execAlltoall (cellar job : Nat) (s : State) : Host.Outcome State Fault Refusal :=
  .next (runJob s cellar job 0x44 (fun s j b => postColl s cellar j b false))

/-- COLLECTIVE_TIMEOUT: TIMEOUT_US has passed, unless it is 0.  The destination is then unspecified (R402). -/
def execCollectiveTimeout (id : Nat) (s : State) : Host.Outcome State Fault Refusal :=
  match collOf s id with
  | none => .next s
  | some x =>
    match collJob s x with
    | none => .next s
    | some j =>
      if bbits (jobBody s j) 352 32 = 0 then .next s
      else
        let (n, s) := takeFresh s
        let d := (List.range (collBytes x)).map (fun i => Config.freeByte n i)
        .next (endColl (jobWrite s x.cellar j x.dst d (fun _ => false)) id csGroup)

end Sys2Proof.Machine
end

