-- ==== Sys2Proof/Machine/Resets.lean ====
section
/-! DEFINITION. Core and cellar resets, units that become absent, and the instruction stores after a retest (spec 16
R455, R458–R459, R466–R468; 17 Table 17-1, 17-2). -/
namespace Sys2Proof.Machine

/-! ### What a reset does with transactions (R467) -/

/-- A home has accepted a transaction. -/
def acceptedTxn (t : Txn) : Bool := t.phase == .done

/-- Discard the transactions of `p` that no home has accepted; the completions of the others are dropped at the port. -/
def dropTxns (s : State) (p : Txn → Bool) : State :=
  { s with mem := { s.mem with txns := (s.mem.txns.filter (fun e => !p e.2 || acceptedTxn e.2)).map (fun (e : Nat × Txn) =>
      if p e.2 then (e.1, { e.2 with client := .none, error := none }) else e) } }

/-! ### Instruction stores (R458, R459) -/

/-- The CP sends chunks of an image to one core, and polls it for its bitmap after those it polls already (01 R13). -/
def sendChunks (s : State) (i k chunks : Nat) : State :=
  let live := s.part.polls.filter (fun e => e != (i, k) && (tfind s.part.images e.1).isSome)
  emit { s with part := { s.part with polls := live ++ [(i, k)] } } (.imageChunks i (some k) chunks)

/-- The CP loads the images of a core's partition into the core again. -/
def reloadImages (s : State) (k : Nat) : State :=
  let p := cellarOwner s (k / 64)
  forEach (s.part.images.filter (fun e => e.2.part == p)) s (fun s e =>
    let s := { s with part := { s.part with images := tmodIf s.part.images e.1 (fun x => { x with cores := tset x.cores k {} }) } }
    sendChunks s e.1 k (2 ^ e.2.chunkCount - 1))

/-- A core's instruction store holds no image any more. -/
def dropImages (s : State) (k : Nat) : State :=
  { s with part := { s.part with images := tmap s.part.images (fun _ x => { x with cores := tdel x.cores k })
                                 polls := s.part.polls.filter (fun e => e.2 != k) } }

/-- Every core that holds or awaits an image has passed its check: the final record of its IMAGE_LOAD follows (R459). -/
def settleImage (s : State) (i : Nat) : State :=
  match tfind s.part.images i with
  | none => s
  | some x =>
    match x.loading with
    | none => s
    | some n =>
      if !(tvals x.cores).all (·.digestOk) then s
      else
        let s := { s with part := { s.part with images := tmodIf s.part.images i (fun x => { x with loading := none, loaded := true }) } }
        finalize s n .ok (field i 0 32 + field x.cores.length 32 32 + field x.failed 64 32 + field x.resent 96 32)

/-- The same for every image that loads. -/
def settleImages (s : State) : State := forEach (tkeys s.part.images) s settleImage

/-! ### Core and cellar reset (R466, R468) -/

/-- Every step of a list stops with POISONED, with an error record of its own when a code names the cause. -/
def failSteps (s : State) (slots : List Nat) (rec : Option ErrRecord) : State :=
  forEach slots s (fun s slot =>
    match rec, stepOf s slot with
    | some r, some st =>
      let (s, i) := logError s { r with stepTag := st.tag, partition := errPartition st.part }
      failStep s slot .poisoned i
    | _, _ => failStep s slot .poisoned 0)

/-- Put a core into reset: its dirty lines go to its cellar's buffer, and everything of it is lost but its disabled ways. -/
def clearCore (s : State) (k : Nat) : State :=
  -- the flags it has gathered reach the record of its step (05 R147)
  let s := match (coreOf s k).step with
    | some slot => modStep s slot (fun st => { st with flags := Nat.lor st.flags (coreOf s k).flags })
    | none => s
  let s := flushCore (leavePegs s [k]) k
  dropImages (modCore s k (fun c => {
    scratchUnits := c.scratchUnits, disabledWays := c.disabledWays, failingWays := c.failingWays, resetting := true })) k

/-- A core reset: the step on it stops, its transactions are absorbed, and a retest follows.  `rec` is the record of an
uncorrectable error. -/
def coreReset (s : State) (k : Nat) (rec : Option ErrRecord) : State :=
  if (cellarOf s (k / 64)).resetting ∨ (coreOf s k).resetting then s
  else
    let slots := match (coreOf s k).step with | some slot => [slot] | none => []
    let s := match rec, slots with
      | some r, [] => logErr s r
      | _, _ => failSteps s slots rec
    modCore (clearCore (dropTxns s (fun t => t.core == some k)) k) k (fun x => { x with stepsEnded := slots.length })

/-- The steps that hold a cellar: on its cores or on its mover. -/
def stepsOnCellar (s : State) (c : Nat) : List Nat :=
  tkeys (s.larder.steps.filter (fun e =>
    (coresOfStep s e.1).any (fun k => k / 64 == c)
      || (e.2.phase == .running && e.2.heldCellars.contains c)
      || (jobsOf s c).any (fun j => j.step == e.1)))

/-- SCRATCH_BANKS returns to its reset value (00 Table 0-8); banks that become scratch read zero (07 R194). -/
def resetBanks (s : State) (c : Nat) : State :=
  let old := (cellarOf s c).scratchBanks
  let n := (liveBanks (cellarOf s c)).length
  let a := scratchBase + c * scratchStride + old * 0x80000
  let len := (n - old) * 0x80000
  let s := if old < n then setPoison (zeroBytes s a len) (a / 32) (len / 32) false else s
  modCellar s c (fun x => { x with scratchBanks := n, nextScratch := none })

/-- A cellar reset: every core, cache, lock and victim filter of it; scratch banks and pegs keep what they hold. -/
def cellarReset (s : State) (c : Nat) (rec : Option ErrRecord) : State :=
  if (cellarOf s c).resetting then s
  else
    let slots := stepsOnCellar s c
    let s := match rec, slots with
      | some r, [] => logErr s r
      | _, _ => failSteps s slots rec
    let s := forEach (jobsOf s c) s (fun s j => removeJob s c (jobId j))
    let s := dropTxns s (fun t => t.master == c)
    let s := forEach ((List.range 64).map (c * 64 + ·)) s (fun s k => if coreUp s k then clearCore s k else s)
    let s := modCellar s c (fun x => { x with epoch := (x.epoch + 1) % 2 ^ 32 })
    let s := resetBanks (flushCellar s c) c
    modCellar s c (fun x => { x with
      lines := [], filter := [], trackers := [], fills := [], lockedWays := 0
      resetting := true, stepsEnded := slots.length })

/-! ### Absence (R455) -/

/-- CAUSE of UNIT_ABSENT (16 Table 16-8). -/
def causeImageLoad := 1
def causeCoreRetest := 2
def causeCellarRetest := 3

/-- Raise UNIT_ABSENT to the owning partition and to management. -/
def raiseAbsent (s : State) (c cls : Nat) (det : Nat) : State :=
  let p := cellarOwner s c
  let src := source cls c
  let ph := physCellar s c
  let f := fun (_ : Nat) => det + field (ph / 16) 96 2 + field (ph % 16) 98 4
  raiseMgmt (raiseTo s p .unitAbsent src f) p .unitAbsent src f

/-- Take a core out of the present mask; the steps still on it complete POISONED. -/
def coreAbsent (s : State) (k cause : Nat) : State :=
  if !bitAt (tget s.boot.presentCores (k / 64) 0) (k % 64) then s
  else
    let slots := match (coreOf s k).step with | some slot => [slot] | none => []
    let steps := slots.length + (coreOf s k).stepsEnded
    let s := failSteps s slots none
    let s := clearCore s k
    let s := modCore s k (fun x => { x with resetting := false })
    let s := { s with boot := { s.boot with
      presentCores := tmod s.boot.presentCores (k / 64) 0 (fun m => clearBit m (k % 64))
      coresAbsented := satInc 16 s.boot.coresAbsented } }
    let s := addDefect s (cellarDefect s (k / 64) dkCore (physCore s k))
    raiseAbsent (bumpConfig s) (k / 64) ucCore (field k 72 12 + field cause 84 4 + field (physCore s k) 102 6 + field steps 128 32)

/-- Take a cellar out of the present mask; its CELLAR-tier pages become LOST. -/
def cellarAbsent (s : State) (c cause : Nat) : State :=
  if !bitAt s.boot.presentCellars c then s
  else
    let steps := (cellarOf s c).stepsEnded
    let before := s.larder.pagesLost
    let s := losePages s (fun r _ => r.tier == 0 && r.unit == c)
    let lost := s.larder.pagesLost - before
    let s := { s with boot := { s.boot with
      presentCellars := clearBit s.boot.presentCellars c, cellarsAbsented := satInc 8 s.boot.cellarsAbsented } }
    let s := addDefect s (cellarDefect s c dkCellar 0)
    let s := modCellar s c (fun x => { x with resetting := false, stepsEnded := 0 })
    raiseAbsent (bumpConfig s) c ucCellar (field 1 64 8 + field c 72 12 + field cause 84 4 + field steps 128 32 + field lost 160 32)

/-- A cellar with fewer than 56 usable cores is hidden (01 R15). -/
def cellarTooSmall (s : State) (c : Nat) : Bool := popCount (tget s.boot.presentCores c 0) 64 < 56

/-- CORE_HANG: a core that issues nothing for 2^20 cycles while a thread is runnable is reset. -/
def execCoreHang (core : Nat) (s : State) : Host.Outcome State Fault Refusal :=
  .next (if coreUp s core && (coreStep s core).isSome then coreReset s core none else s)

/-- The retest of one core ends: its images are loaded again, or the core is absent, and with it perhaps the cellar. -/
def coreRetested (s : State) (k : Nat) (ok : Bool) : State :=
  if !(coreOf s k).resetting ∨ (cellarOf s (k / 64)).resetting then s
  else if ok then reloadImages (modCore s k (fun x => { x with resetting := false, stepsEnded := 0 })) k
  else
    let s := coreAbsent s k causeCoreRetest
    settleImages (if cellarTooSmall s (k / 64) then cellarReset s (k / 64) none else s)

/-- The retest of a cellar ends: its cores return and their images are loaded, or the cellar is absent. -/
def cellarRetested (s : State) (c : Nat) (ok : Bool) : State :=
  if ok ∧ !cellarTooSmall s c then
    let s := modCellar s c (fun x => { x with resetting := false, stepsEnded := 0 })
    forEach ((List.range 64).map (c * 64 + ·)) s (fun s k =>
      if coreUp s k then reloadImages (modCore s k (fun x => { x with resetting := false, stepsEnded := 0 })) k else s)
  else settleImages (cellarAbsent s c causeCellarRetest)

end Sys2Proof.Machine
end

