-- ==== Sys2Proof/Machine/Rows.lean ====
section
/-! DEFINITION. Counting of corrected errors, failing rows and their repair (spec 17 R474, R478–R482; 08 R226–R229). -/
namespace Sys2Proof.Machine

/-! ### Leaky buckets (17 R478, R479, Tables 17-4 and 17-5) -/

def bucketCapacity : BucketKind → Nat
  | .coreSram => 32 | .coreStoreWay => 16 | .cellarWay => 16 | .cellarControl => 32 | .directory => 64
  | .shelfBank => 64 | .farDecoder => 256

def bucketClass : BucketKind → Nat
  | .coreSram => ucCore | .coreStoreWay => ucCoreStore | .cellarWay => ucCellarBuffer | .cellarControl => ucCellar
  | .directory => ucDirectory | .shelfBank => ucShelf | .farDecoder => ucFarPort

/-- The cellar of a bucket's unit, if it is a cellar's. -/
def bucketCellar (k : BucketKind) (unit : Nat) : Option Nat :=
  match k with
  | .coreSram => some (unit / 64)
  | .coreStoreWay => some (unit / 64)
  | .cellarWay => some unit
  | .cellarControl => some unit
  | _ => none

def sameBucket (k : BucketKind) (unit sub : Nat) (b : Bucket) : Bool := b.kind == k && b.unit == unit && b.sub == sub

def setBucket (s : State) (b : Bucket) : State :=
  { s with err := { s.err with buckets := b :: s.err.buckets.filter (fun x => !sameBucket b.kind b.unit b.sub x) } }

/-- What a second overflow in the session brings (Table 17-4). -/
def overflowAction (s : State) (k : BucketKind) (unit sub : Nat) : State :=
  match k with
  | .coreSram => coreReset s unit none
  | .coreStoreWay => disableCoreWay s unit sub
  | .cellarWay => disableCellarWay s unit (sub / 16) (sub % 16)
  | .cellarControl => cellarReset s unit none
  | _ => s

/-- One corrected error in a bucket. -/
def countCorrected (s : State) (k : BucketKind) (unit sub : Nat) : State :=
  let b := (s.err.buckets.find? (sameBucket k unit sub)).getD { kind := k, unit := unit, sub := sub }
  let cap := bucketCapacity k
  if b.count + 1 < cap then setBucket s { b with count := b.count + 1 }
  else
    let n := satInc 8 b.overflows
    let s := setBucket s { b with count := cap / 2, overflows := n }
    let part := errPartition (match bucketCellar k unit with | some c => cellarOwner s c | none => 0)
    let subField := if k = .shelfBank then sub * 2 ^ 18 else sub
    let (s, i) := logError s {
      severity := .corrected, unitClass := bucketClass k, unitIndex := unit, code := ecCeOverflow, partition := part, count := cap
      sub := subField, cellarEpoch := match bucketCellar k unit with | some c => (cellarOf s c).epoch | none => 0 }
    let idx := match k with | .coreSram => unit / 64 | .coreStoreWay => unit / 64 | _ => unit
    let src := source (bucketClass k) idx
    let det := fun (t : Nat) => field (bucketClass k) 64 8 + field unit 72 16 + field subField 88 32 + field n 120 8 + field i 128 32
      + field t 256 64
    let c := if part = 31 then 0 else part
    let s := raiseMgmt (raiseTo s c .ceBucketOverflow src det) c .ceBucketOverflow src det
    if n = 2 then overflowAction s k unit sub else s

/-- LEAKY_BUCKET_LEAK: the leak period of a bucket ends. -/
def execLeakyBucketLeak (kind unit sub : Nat) (s : State) : Host.Outcome State Fault Refusal :=
  match [BucketKind.coreSram, .coreStoreWay, .cellarWay, .cellarControl, .directory, .shelfBank, .farDecoder][kind]? with
  | none => .next s
  | some k =>
    match s.err.buckets.find? (sameBucket k unit sub) with
    | some b => .next (if b.count = 0 then s else setBucket s { b with count := b.count - 1 })
    | none => .next s

/-! ### Repairs (08 R226–R229) -/

/-- The spare rows of a bank of a shelf. -/
def spareOf (s : State) (n bank : Nat) : Spare := tget (shelfOf s n).spares bank (shelfOf s n).fitted
def modSpare (s : State) (n bank : Nat) (f : Spare → Spare) : State :=
  modShelf s n (fun x => { x with spares := tmod x.spares bank x.fitted f })

/-- ROW_ID lies outside the fitted stack's ranges. -/
def rowOutside (s : State) (n row : Nat) : Bool :=
  let x := shelfOf s n
  2 ^ x.rowBits ≤ bits row 0 18 || 2 ^ x.banksLog2 ≤ bits row 18 4 || x.sids ≤ bits row 28 4

/-- RESULT values (08 Table 8-6). -/
def rrOk := 0
def rrQueued := 1
def rrNoSpare := 2
def rrBadRow := 3
def rrAbsent := 4
def rrDuplicate := 5
def rrCancelled := 6

/-- A repair request has finished. -/
def repairEnds (s : State) (n row result : Nat) : State :=
  modShelf s n (fun x => { x with repairBusy := false, repairDone := true, repairResult := result, repairRow := row % 2 ^ 32 })

/-- Why a request is refused before it does anything. -/
def repairRefused (s : State) (n row : Nat) : Option Nat :=
  firstFail [(!bitAt s.boot.presentShelves n, rrAbsent), (rowOutside s n row, rrBadRow)]

/-- The field repairs a row carries (17 R481). -/
def fieldRepairs (s : State) (n row : Nat) : Nat :=
  match (tget s.err.repairs n []).find? (fun e => e.1 == row) with | some e => e.2 | none => 0

/-- A HARD request: stored for the next start. -/
def hardRepair (s : State) (n row : Nat) : State :=
  match repairRefused s n row with
  | some r => repairEnds s n row r
  | none =>
    let d := shelfDefect s n dkHardQueued row
    if s.boot.defects.any (sameDefect d) then repairEnds s n row rrDuplicate
    else if (spareOf s n (rowBank row)).hardFree = 0 then repairEnds s n row rrNoSpare
    else repairEnds (modSpare (addDefect s d) n (rowBank row) (fun x => { x with hardQueued := satInc 8 x.hardQueued })) n row rrQueued

/-- A SOFT request: the row's bank is held, and the write-combining entries that cover the row are flushed.  `none` when it
ended at once, with its result. -/
def softRepair (s : State) (n row : Nat) (byCp : Bool) : State × Bool :=
  match repairRefused s n row with
  | some r => (repairEnds s n row r, true)
  | none =>
    if (spareOf s n (rowBank row)).softFree = 0 then (repairEnds s n row rrNoSpare, true)
    else
      let s := forEach ((wcbOf s (.shelf n)).filter (fun e => rowIdOf s (e.line * 128) == row)) s (fun s e => beginFlush s (.shelf n) e)
      (modShelf s n (fun x => { x with repairBusy := true, repairDone := false, repairRow := row % 2 ^ 32
                                       job := some { row := row, byCp := byCp } }), false)

/-- The row's tracker starts afresh. -/
def clearTracker (s : State) (n row : Nat) : State :=
  { s with err := { s.err with rows := tmodIf s.err.rows n (fun l =>
    l.map (fun (e : RowEntry) => if e.row = row then { e with count := 0, first := s.time.now } else e)) } }

/-- Repair a failing row, queue it behind the shelf's repair in progress, or retire its pages. -/
def handleRow (s : State) (n row : Nat) (addr : Option Nat) : State :=
  if 2 ≤ fieldRepairs s n row then retireRow s n row addr
  else if (shelfOf s n).job.isSome then
    let q := tget s.err.rowQueue n []
    if q.contains row then s
    else if 16 ≤ q.length then retireRow s n row addr
    else { s with err := { s.err with rowQueue := tset s.err.rowQueue n (q ++ [row]) } }
  else
    let r := softRepair s n row true
    if r.2 ∧ (shelfOf r.1 n).repairResult = rrNoSpare then retireRow r.1 n row addr else r.1

/-- CP firmware handles a failing row (17 R481, R482). -/
def rowFails (s : State) (n row : Nat) (addr : Option Nat) : State := handleRow (clearTracker s n row) n row addr

/-- The rows that waited for the shelf's repair are handled now, until one is in progress. -/
def serveRows (s : State) (n : Nat) : State :=
  forEach (tget s.err.rowQueue n []) s (fun s row =>
    if (shelfOf s n).job.isSome then s
    else rowFails { s with err := { s.err with rowQueue := tmod s.err.rowQueue n [] (fun l => l.filter (· != row)) } } n row none)

/-! ### Row trackers (17 R480) -/

/-- A corrected error in a row; the eighth within 24 hours makes it failing. -/
def rowCorrected (s : State) (n row addr : Nat) : State :=
  let l := tget s.err.rows n []
  let now := s.time.now
  let e := match l.find? (fun (x : RowEntry) => x.row == row) with
    | some x => if x.first + day < now ∨ x.count = 0 then { x with count := 1, first := now } else { x with count := x.count + 1 }
    | none => { row := row, count := 1, first := now }
  let rest := l.filter (fun (x : RowEntry) => x.row != row)
  let rest := if 64 ≤ rest.length then rest.drop 1 else rest
  let s := { s with err := { s.err with rows := tset s.err.rows n (rest ++ [e]) } }
  if 8 ≤ e.count then rowFails s n row (some addr) else s

/-! ### Sectors of the memories (17 R473, R474) -/

/-- The shelf or far-tier decoder that stores an address, MAC areas included. -/
def storedAt (s : State) (a : Nat) : Option Place :=
  if a < 12 * shelfSize then (if bitAt s.boot.presentShelves (a / shelfSize) then some (.shelf (a / shelfSize)) else none)
  else
    [0, 1].findSome? (fun p => ((farOf s p).decoders.find? (fun e =>
      e.2.enable && decBase e.2 ≤ a && a < decBase e.2 + decSize e.2 && (!e.2.iw2 || bits a 12 1 == p))).map (fun e => .far p e.1))

/-- The integrity setting of the home of an address. -/
def homeIntegrity (s : State) (a : Nat) : Bool :=
  match storedAt s a with
  | some (.shelf n) => (shelfOf s n).integrity
  | some (.far p d) => (tget (farOf s p).decoders d {}).integrity
  | _ => false

/-- The keys of the owner of an address (15 R420). -/
def keysAt (s : State) (a : Nat) : Option MemKeys :=
  match storedAt s a with
  | some _ => tfind s.part.keys.parts (memoryOwner s a)
  | none => s.part.keys.device

/-- What the medium holds of a sector: its 64 bytes encrypted under the owner's key with the tweak HPA[47:6] (15 R420). -/
def cipherSector (s : State) (a : Nat) : Option Bytes :=
  (keysAt s a).map (fun k =>
    Config.aesXts k.xts (bits a 6 42) ((List.range 64).map (fun i => memRead s.mem.bytes (a / 64 * 64 + i))))

/-- The 72 bytes that the medium stores for a sector, its check bytes over the ciphertext (R473, R474); a read of the sector
ends as `decodeSector` of what comes back. -/
def mediumSector (s : State) (a : Nat) : Option (List Nat) :=
  (cipherSector s a).map (fun c => storedSector (c.map (·.toNat)) (poisonedUnit s (a / 64 * 2)))

/-- The MAC of a sector, where its home keeps MACs (15 R421); a decode that ends in `macFail` met another value than this. -/
def sectorMac (s : State) (a : Nat) : Option Nat :=
  match keysAt s a, cipherSector s a with
  | some k, some c =>
    if !homeIntegrity s a then none
    else
      let head := leBytes 8 (bits a 6 42) ++ leBytes 4 (partOf s (memoryOwner s a)).memEpoch ++ leBytes 4 0
      some (Config.aesCmac k.mac (head ++ c) % 2 ^ 128 / 2 ^ 96)
  | _, _ => none

/-- A stored sector is found uncorrectable, or its MAC fails: it is written back as poison, with one error record. -/
def sectorLost (s : State) (a : Nat) (code : Nat) : State :=
  let a := a / 64 * 64
  let s := setPoison s (a / 32) 2 true
  let rec' : ErrRecord := { severity := .poisonWritten, code := code, partition := errPartition (memoryOwner s a), address := a }
  match storedAt s a with
  | some (.shelf n) =>
    let row := rowIdOf s a
    let s := modShelf s n (fun x => { x with uncorrected := satInc 16 x.uncorrected })
    let s := logErr s { rec' with unitClass := ucShelf, unitIndex := n, sub := row }
    if code = ecUeMemory then rowFails s n row (some a) else s
  | some (.far p d) => logErr s { rec' with unitClass := ucFarPort, unitIndex := p, sub := d }
  | _ => s

/-- The hub reads the stored sector of an address, and the decode ends in some way.  A sector that carries the poison
pattern is no new error. -/
def readSector (s : State) (a : Nat) (e : Ecc) : State :=
  let s := cxlMem s a false
  if poisonedUnit s (a / 64 * 2) then s
  else
    match e with
    | .good => s
    | .corrected =>
      match storedAt s a with
      | some (.shelf n) =>
        let row := rowIdOf s a
        let s := modShelf s n (fun x => { x with corrected := satInc 32 x.corrected })
        rowCorrected (countCorrected s .shelfBank n (rowBank row)) n row a
      | some (.far p d) => countCorrected s .farDecoder p d
      | _ => s
    | .uncorrectable => sectorLost s a ecUeMemory
    | .macFail => if homeIntegrity s a then sectorLost s a ecMacFail else s

/-! ### Flushes of the write-combining buffers (08 R221, R222) -/

/-- Flush an entry: a sector that it does not fully mask is read and checked first. -/
def flushChecked (s : State) (home : Home) (e : WcbEntry) (lo hi : Ecc) : State :=
  let s := forEach [0, 1] (beginFlush s home e) (fun s h =>
    let k := (halfBytes e.bytes h).length
    if k = 0 ∨ k = 64 then s else readSector s (e.line * 128 + 64 * h) (if h = 0 then lo else hi))
  flushEntry s home { e with flushing := true }

/-- How the decode of a sector that a flush reads ends: nothing determines it. -/
def flushOutcome (k : Nat) : Ecc :=
  match Config.flushDecode k % 4 with
  | 0 => .good | 1 => .corrected | 2 => .uncorrectable | _ => .macFail

/-- The flushes outstanding at a home end. -/
def finishFlushes (s : State) (home : Home) : State :=
  forEach ((wcbOf s home).filter (·.flushing)) s (fun s e =>
    let (k, s) := takeFresh s
    flushChecked s home e (flushOutcome (2 * k)) (flushOutcome (2 * k + 1)))

/-! ### The repair commands (08 R227–R229) -/

/-- A write of SHELF_REPAIR_CMD while a request is in progress is discarded and counted. -/
def repairCommand (s : State) (n : Nat) (f : State → State) : State :=
  if 12 ≤ n then s
  else if (shelfOf s n).repairBusy then modShelf s n (fun x => { x with repairRejected := satInc 16 x.repairRejected })
  else f s

/-- SHELF_REPAIR_SOFT. -/
def execShelfRepairSoft (shelf row : Nat) (s : State) : Host.Outcome State Fault Refusal :=
  .next (repairCommand s shelf (fun s => (softRepair s shelf (row % 2 ^ 32) false).1))

/-- SHELF_REPAIR_HARD. -/
def execShelfRepairHard (shelf row : Nat) (s : State) : Host.Outcome State Fault Refusal :=
  .next (repairCommand s shelf (fun s => hardRepair s shelf (row % 2 ^ 32)))

/-- A CANCEL_HARD request.  With no request queued for the row, the RESULT is a free one of Table 8-6. -/
def cancelHard (s : State) (n row : Nat) : State :=
  match repairRefused s n row with
  | some r => repairEnds s n row r
  | none =>
    let d := shelfDefect s n dkHardQueued row
    if s.boot.defects.any (sameDefect d) then
      let s := dropDefects s (sameDefect d)
      repairEnds (modSpare s n (rowBank row) (fun x => { x with hardQueued := x.hardQueued - 1 })) n row rrCancelled
    else
      let (k, s) := takeFresh s
      repairEnds s n row (Config.random k % 7)

/-- SHELF_REPAIR_CANCEL_HARD. -/
def execShelfRepairCancelHard (shelf row : Nat) (s : State) : Host.Outcome State Fault Refusal :=
  .next (repairCommand s shelf (fun s => cancelHard s shelf (row % 2 ^ 32)))

/-- SOFT_REPAIR_DONE (08 R228): the row is remapped, sectors that could not be corrected are poison, and the bank resumes;
CP firmware follows a first repair of its own with a HARD request (17 R481). -/
def execSoftRepairDone (shelf : Nat) (bad : List Nat) (s : State) : Host.Outcome State Fault Refusal :=
  match (shelfOf s shelf).job with
  | none => .next s
  | some j =>
    let s := finishFlushes s (.shelf shelf)
    let before := fieldRepairs s shelf j.row
    let s := forEach (bad.filter (fun a => a / shelfSize == shelf && rowIdOf s a == j.row)) s (fun s a =>
      if poisonedUnit s (a / 64 * 2) then s
      else
        let a := a / 64 * 64
        logErr (setPoison s (a / 32) 2 true) {
          severity := .poisonWritten, unitClass := ucShelf, unitIndex := shelf, code := ecUeMemory
          partition := errPartition (memoryOwner s a), address := a, sub := j.row })
    let s := modShelf s shelf (fun x => { x with job := none })
    let s := modSpare s shelf (rowBank j.row) (fun x => { x with softFree := x.softFree - 1, softUsed := satInc 16 x.softUsed })
    let s := putDefect s (shelfDefect s shelf dkSoftRow j.row)
    let done := (j.row, before + 1) :: (tget s.err.repairs shelf []).filter (fun (e : Nat × Nat) => e.1 != j.row)
    let s := { s with err := { s.err with repairs := tset s.err.repairs shelf done } }
    let s := repairEnds s shelf j.row rrOk
    let s := logErr s { severity := .repaired, unitClass := ucShelf, unitIndex := shelf, code := ecRowRepaired, sub := j.row }
    let s := if j.byCp ∧ before = 0 then hardRepair s shelf j.row else s
    .next (serveRows s shelf)

end Sys2Proof.Machine
end

