-- ==== Sys2Proof/Machine/Boundary.lean ====
section
/-! DEFINITION. STRUM_BOUNDARY and FRET_EDGE (spec 02 R24, R27–R33, Table 2-3; 14 R405–R407). -/
namespace Sys2Proof.Machine

/-- Latch what a partition sees coarsened (15 R417, R437). -/
def latchCounts (s : State) : State :=
  latchRegs (forEach (0 :: partCtxs s) s (fun s p =>
    let t := tierCounts s p
    modPart s p (fun x => { x with latchedPages := t })))

/-- The hub's part of a boundary, in the order of Table 2-3. -/
def runBoundary (s : State) : State :=
  let s := powerBoundary s
  let s := boundaryBanks (regReload s)
  let s := forEach s.larder.steps s (fun s e => judgeStep s e.1)
  let s := forEach s.larder.steps s (fun s e => settleSaving s e.1)
  let s := if isReady s then buildPlan s else s
  latchCounts s

/-! ### Reserved transfers (14 R407, 02 R30) -/

/-- The message that carries a PUT part, if it has been handed over: (peer entry, MSG_ID). -/
def putMessage (s : State) (slot part : Nat) : Option (Nat × Nat) :=
  s.chord.peers.findSome? (fun e =>
    (e.2.messages.find? (fun m => m.2.ptype == ptWrite && m.2.reserved && (match m.2.client with
      | .mover _ st p => st == slot && p == part | _ => false))).map (fun m => (e.1, m.1)))

/-- How many packets of a message begin before the packet byte `hi` of its transfer. -/
def packetsBefore (l : List Packet) (hi : Nat) : Nat :=
  (l.foldl (fun (r : Nat × Nat) k => (if r.2 < hi then r.1 + 1 else r.1, r.2 + packetBytes k)) (0, 0)).1

/-- Send the share of one entry: reserved, while neither this device nor its partner is in fallback (02 R49, R53). -/
def sendShare (s : State) (e : SchedEntry) : State :=
  match putMessage s e.step e.part with
  | none => s
  | some (p, id) =>
    let m := tget (peerOf s p).messages id {}
    let held := match (tget s.time.links e.engine {}).cand with | some c => c.gmClass == 2 | none => false
    let res := !s.time.fallback && (llOf s e.engine).timeOk && !held
    let n := packetsBefore m.packets (e.offset + e.bytes)
    let l := ((m.packets.take n).drop m.handed).map (fun k => { k with reserved := res, vc := vcOf k.ptype res })
    let s := modPeer s p (fun x => { x with messages := tmodIf x.messages id (fun m => { m with handed := max m.handed n }) })
    enqueue s p l

/-- A PUT part has been handed over to the engine, or has ended. -/
def handedOver (s : State) (slot part : Nat) : Bool :=
  match partAt s slot part with
  | none => true
  | some p => p.phase == .done || s.larder.movers.any (fun e => e.2.any (fun j => j.step == slot && j.part == part && j.msg.isSome))

/-- The schedule holds a part no longer. -/
def dropReservation (s : State) (slot part : Nat) : State :=
  { s with larder := { s.larder with schedule := s.larder.schedule.filter (fun x => x.step != slot || x.part != part) } }

/-- A packet as unreserved traffic. -/
def unreservedPacket (k : Packet) : Packet := { k with reserved := false, vc := vcOf k.ptype false }

/-- A message runs on as unreserved traffic: the packets that its shares have not taken go in their order. -/
def unreserveMessage (s : State) (p id : Nat) : State :=
  let m := tget (peerOf s p).messages id {}
  let later := (m.packets.drop m.handed).map unreservedPacket
  let s := modPeer s p (fun x => { x with messages := tmodIf x.messages id (fun m => { m with
    reserved := false, handed := m.packets.length, packets := m.packets.map unreservedPacket }) })
  enqueue s p later

/-- At the end of its fret a reserved transfer that is not finished continues as unreserved traffic, in its place of its stream,
and counts as a fret overrun (02 R30): one that was not handed over, one whose packets are not all read, and one whose packets
still wait at the engine. -/
def overrunShare (s : State) (e : SchedEntry) : State :=
  let count := fun (s : State) => modLl s e.engine (fun l => { l with fretOverrun := satInc 32 l.fretOverrun })
  match putMessage s e.step e.part with
  | none => if handedOver s e.step e.part then s else dropReservation (count s) e.step e.part
  | some (p, id) =>
    let m := tget (peerOf s p).messages id {}
    let short := m.handed < packetsBefore m.packets (e.offset + e.bytes)
      || (!m.packets.any (·.last) && sum (m.packets.map packetBytes) < e.offset + e.bytes)
    let late := (peerOf s p).queue.any (fun k => k.msg == id && k.reserved && k.ptype == ptWrite)
    if !short && !late then s
    else
      let s := modPeer (count s) p (fun x => { x with queue := x.queue.map (fun k =>
        if k.msg = id ∧ k.ptype = ptWrite then unreservedPacket k else k) })
      if short then dropReservation (unreserveMessage s p id) e.step e.part else pump s p

/-- The reserved transfers of a fret, engine by engine. -/
def fretTransfers (s : State) (f : Nat) : State :=
  let s := forEach (s.larder.schedule.filter (fun e => e.fret + 1 == f)) s overrunShare
  forEach (s.larder.schedule.filter (fun e => e.fret == f)) s sendShare

/-- Cycles in HELD and LOWERED during the fret that ends: between none and all of them. -/
def heldCycles (s : State) : State :=
  forEach (presentMasters s) s (fun s m =>
    let st := masterState s m
    if st = 0 then s
    else
      let (n, s) := takeFresh s
      let k := Config.random n % (fretCycles s + 1)
      modMaster s m (fun x => if st = 2 then { x with heldCycles := satAdd 32 x.heldCycles k }
                              else { x with loweredCycles := satAdd 32 x.loweredCycles k }))

/-- Parts that wait for a peer entry start when there is one. -/
def retryParts (s : State) : State :=
  forEach s.larder.steps s (fun s e => if e.2.phase = .running then startParts s e.1 else s)

end Sys2Proof.Machine
end

