-- ==== Sys2Proof/Machine/Transport.lean ====
section
/-! DEFINITION. Chord transport and messages as they arrive: the checks of a packet, the receive window, acknowledgements,
retransmission and congestion, and each message type (spec 14 R386–R400, R408; 09 R265). -/
namespace Sys2Proof.Machine

/-! ### Time -/

/-- Time-base units in a microsecond. -/
def us := 64000

/-! ### The checks of a received packet (R388) -/

/-- Link authentication: an OPEN native link, or an association that is set up and a tag that verifies. -/
def packetAuthentic (s : State) (e : Nat) (k : Packet) : Bool :=
  let x := engineOf s e
  if x.estate != .up then false
  else if isEthernet x then
    k.tagOk && (match tfind s.chord.assocs k.assoc with
      | some a => a.astate == .up && (match a.validTo with | some t => decide (s.time.now < t) | none => true)
      | none => false)
  else (llOf s e).llstate == .opened && k.tagOk

def countAuthFail (s : State) (e : Nat) : State := modLl s e (fun l => { l with authFails := satInc 16 l.authFails })
def countBadVersion (s : State) : State := { s with chord := { s.chord with badVersion := satInc 16 s.chord.badVersion } }
def countNoTag (s : State) : State := { s with chord := { s.chord with noTag := satInc 16 s.chord.noTag } }

/-- The error record of a refused remote access at the receiver: to the receiving partition, or to the device context when
no tag matched (R397). -/
def refusedRecord (s : State) (e : Nat) (part : Option Nat) (addr : Nat) : State :=
  logErr s { severity := .accessError, unitClass := ucChord, unitIndex := e, code := ecRemoteAccess
             partition := match part with | some p => errPartition p | none => 31
             address := addr }

/-- The receive state of an entry starts anew at a packet's ACK_FLOOR (R389, R394). -/
def startWindow (x : Peer) (k : Packet) : Peer :=
  { x with remote := some k.epoch, rxBase := k.ackFloor, rxSet := [], incoming := [] }

/-- A packet addressed to this device passes the checks: the state, and the peer entry.  `access` marks a request for
memory or a peg, whose refusal for want of a tag is recorded. -/
def accepted (s : State) (e : Nat) (k : Packet) (access : Bool) : State × Option Nat :=
  if k.dst ≠ s.chord.node then (s, none)
  -- such a datagram is dropped before any check of its association (R383)
  else if isEthernet (engineOf s e) ∧ !k.datagramOk then (s, none)
  else if !packetAuthentic s e k then
    -- on a native link a flit whose tag fails never reaches here
    (if (engineOf s e).estate = .up ∧ isEthernet (engineOf s e) then countAuthFail s e else s, none)
  else if k.version / 16 ≠ 1 then (countBadVersion s, none)
  else
    match tagPartition s k.tag with
    | none => (if access then refusedRecord (countNoTag s) e none k.addr else countNoTag s, none)
    | some part =>
      match peerEntry s k.src part (isEthernet (engineOf s e)) (match tfind s.chord.assocs k.assoc with
          | some a => if isEthernet (engineOf s e) then a.ipv6 else 0 | none => 0) with
      | (s, none) => (s, none)
      | (s, some p) =>
        if (peerOf s p).unreachable then (s, none)
        else
          let s := if (llOf s e).partner = k.src then modLl s e (fun l => { l with timeOk := k.timeOk }) else s
          let s := modPeer s p (fun x => { x with lastTraffic := s.time.now })
          (if (peerOf s p).remote = some k.epoch then s else modPeer s p (fun x => startWindow x k), some p)

/-! ### Acknowledgements (R389) -/

/-- Data from the peer are parked under R400. -/
def holdsParked (x : Peer) : Bool := x.messages.any (fun m => m.2.ptype == ptReadReq && !m.2.packets.isEmpty)

/-- The ACK payload of Table 14-8. -/
def ackPayload (x : Peer) : Bytes :=
  let cum := (x.rxBase + 2 ^ 32 - 1) % 2 ^ 32
  let sack := maskOf ((List.range 64).filter (fun i => x.rxSet.contains ((cum + 1 + i) % 2 ^ 32)))
  leBytes 32 (field cum 0 32 + field sack 32 64 + field x.echo 96 64 + field x.delay 160 32 + field (b2n (holdsParked x)) 192 1)

/-- Send an acknowledgement; it is itself not numbered. -/
def sendAck (s : State) (p : Nat) : State :=
  let x := peerOf s p
  match nextEngine s x { vc := 1, payload := ackPayload x } with
  | none => s
  | some e =>
    let k := { baseHeader s p ptAck 0 false with
      psn := x.nextPsn, ackFloor := ackFloor x, epoch := x.epoch, txTime := s.time.now % 2 ^ 64, timeOk := timeOk s
      payload := ackPayload x }
    transmit (modPeer s p (fun x => { x with ackOwed := 0 })) p e k

/-- The receive window moves past the PSNs at its start that were received, at most `n` of them. -/
def slideWindow : Nat → Peer → Peer
  | 0, x => x
  | n + 1, x =>
    if x.rxSet.contains x.rxBase then
      slideWindow n { x with rxSet := x.rxSet.filter (· != x.rxBase), rxBase := (x.rxBase + 1) % 2 ^ 32 }
    else x

/-- A packet has been received: the window moves, and every 8 packets an ACK goes out. -/
def markReceived (s : State) (p : Nat) (k : Packet) : State :=
  let delay := if k.timeOk && timeOk s then (s.time.now + 2 ^ 64 - k.txTime) % 2 ^ 64 % 2 ^ 32 else 0xFFFFFFFF
  let s := modPeer s p (fun x => slideWindow 1025 { x with
    rxSet := k.psn :: x.rxSet, ackOwed := x.ackOwed + 1, echo := k.txTime, delay := delay })
  if 8 ≤ (peerOf s p).ackOwed then sendAck s p else s

/-- How far a PSN lies above the base of the receive window, modulo 2^32. -/
def psnAbove (x : Peer) (psn : Nat) : Nat := (psn + 2 ^ 32 - x.rxBase) % 2 ^ 32

/-- A PSN was received before. -/
def psnSeen (x : Peer) (psn : Nat) : Bool := 2 ^ 31 ≤ psnAbove x psn || x.rxSet.contains psn

/-- A PSN lies beyond the receive window of 1,024. -/
def psnBeyond (x : Peer) (psn : Nat) : Bool := 1024 ≤ psnAbove x psn

/-- A packet leaves its receive buffer: placed, forwarded or discarded; its credits go back (R375). -/
def returnCredits (s : State) (e : Nat) (k : Packet) : State :=
  if isEthernet (engineOf s e) then s
  else modLl s e (fun l => { l with credOut := tmod l.credOut k.vc 0 (fun c => (c + creditsOf k) % 2 ^ 16), ackOwed := true })

/-- The master port of an engine's receive path (10 Table 10-1). -/
def chordMaster (e : Nat) : Nat := 72 + e

/-- A packet stays in its receive buffer: it waits its turn, or until its transactions have placed it. -/
def holdRx (s : State) (e p : Nat) (k : Packet) (txns : List Nat) : State :=
  modLl s e (fun l => { l with
    rx := l.rx.filter (fun r => !(r.peer == p && r.psn == k.psn)) ++ [⟨p, k.psn, k.vc, creditsOf k, txns⟩] })

/-- A packet leaves its receive buffer with its credits. -/
def leaveRx (s : State) (e p : Nat) (k : Packet) : State :=
  returnCredits (modLl s e (fun l => { l with rx := l.rx.filter (fun r => !(r.peer == p && r.psn == k.psn)) })) e k

/-- A transaction of a receive path has completed: a packet whose last one it was is placed, and leaves. -/
def placedRx (s : State) (e n : Nat) : State :=
  let gone := (llOf s e).rx.filter (fun r => r.txns == [n])
  let s := modLl s e (fun l => { l with rx := (l.rx.filter (fun r => r.txns != [n])).map (fun r =>
    { r with txns := r.txns.filter (· != n) }) })
  if isEthernet (engineOf s e) then s
  else forEach gone s (fun s r =>
    modLl s e (fun l => { l with credOut := tmod l.credOut r.vc 0 (fun c => (c + r.credits) % 2 ^ 16), ackOwed := true }))

/-- A duplicate is not performed again; it is acknowledged (R388). -/
def receiveDuplicate (s : State) (e p : Nat) (k : Packet) : State :=
  let s := modPeer (returnCredits s e k) p (fun x => { x with ackOwed := x.ackOwed + 1, echo := k.txTime })
  if 8 ≤ (peerOf s p).ackOwed then sendAck s p else s

/-- A new packet within the window is performed; it counts as received unless its body could not take it.  It stays in its
receive buffer until the transactions that place it have completed (R375). -/
def receiveNew (s : State) (e p : Nat) (k : Packet) (body : State → Nat → State × Bool) : State :=
  match body s p with
  | (s', true) =>
    let mine := tkeys (s'.mem.txns.filter (fun x => s.cells.nextId ≤ x.1 && x.2.master == chordMaster e))
    markReceived (if mine.isEmpty then leaveRx s' e p k else holdRx s' e p k mine) p k
  | (s', false) => holdRx s' e p k []

/-- What an accepted packet does, by its place in the window of 1,024. -/
def receivePsn (s : State) (e p : Nat) (k : Packet) (body : State → Nat → State × Bool) : State :=
  if psnSeen (peerOf s p) k.psn then receiveDuplicate s e p k
  else if psnBeyond (peerOf s p) k.psn then returnCredits s e k
  else receiveNew s e p k body

/-- Run a numbered packet through the receive window: one received before is only acknowledged again, one beyond the window
is dropped.  `body` answers whether it takes the packet; one it does not take stays in its VC buffer (R389, R408). -/
def receive (s : State) (e : Nat) (k : Packet) (access : Bool) (body : State → Nat → State × Bool) : State :=
  match accepted s e k access with
  | (s, none) => returnCredits s e k
  | (s, some p) => receivePsn s e p k body

/-- A packet that answers and is not itself numbered: ACK. -/
def receiveAck (s : State) (e : Nat) (k : Packet) (body : State → Nat → State) : State :=
  match accepted s e k false with
  | (s, none) => returnCredits s e k
  | (s, some p) => body (returnCredits s e k) p

/-! ### Order within a stream (R408) -/

/-- Message `a` was issued before message `b`. -/
def issuedBefore (a b : Nat) : Bool := let d := (b + 2 ^ 32 - a) % 2 ^ 32; d != 0 && d < 2 ^ 31

/-- A packet sent before the message's first packet is missing. -/
def gapBelow (s : State) (x : Peer) (k : Packet) : Bool :=
  let off := (k.psn + 2 ^ 32 - x.rxBase) % 2 ^ 32
  let back := k.offset / spanOf s x
  (List.range (off - back)).any (fun i => !x.rxSet.contains ((x.rxBase + i) % 2 ^ 32))

/-- An earlier message that writes and is not complete. -/
def earlierOpen (x : Peer) (msg : Nat) (p : Incoming → Bool) : Bool :=
  x.incoming.any (fun e => issuedBefore e.1 msg && !e.2.refused && e.2.ptype != ptStep && e.2.ptype != ptReadReq
    && e.2.ptype != ptColl && p e.2)

/-- An access of a range must wait for an earlier message of the stream that may still write there.  Until its last packet
has come, a message may write anywhere from its address on. -/
def mustWait (s : State) (x : Peer) (k : Packet) (a n : Nat) : Bool :=
  gapBelow s x k || earlierOpen x k.msg (fun m =>
    match m.total with | some t => m.addr < a + n && a < m.addr + t | none => m.addr < a + n)

/-- A message that takes effect as a whole waits for every earlier one. -/
def mustWaitAll (s : State) (x : Peer) (k : Packet) : Bool := gapBelow s x k || earlierOpen x k.msg (fun _ => true)

/-! ### Serving remote accesses (R397) -/

/-- A place that a peer may reach. -/
def remotePlaceOk : Place → Bool
  | .shelf _ => true
  | .far _ _ => true
  | .scratch _ => true
  | .attic _ => true
  | _ => false

/-- The receiving partition may access a range, and it lies where peers may reach: never in a model range (15 R432). -/
def remoteAdmits (s : State) (part : Nat) (write : Bool) (a n : Nat) : Access :=
  if 2 ^ 48 < a + n then .unmapped
  else if n ≠ 0 ∧ (inModelRange s a ∨ inModelRange s (a + n - 1)) then .firewall
  else
    match admitRange s part write a n with
    | .ok p => if n = 0 ∨ (remotePlaceOk p && remotePlaceOk (placeOf s (a + n - 1))) then .ok p else .unmapped
    | r => r

/-- Refuse an access: count it, and record it. -/
def refuseRemote (s : State) (e part : Nat) (r : Access) (addr : Nat) : State :=
  refusedRecord (countRefused s part r) e (some part) addr

def sendDone (s : State) (p msg st : Nat) : State := sendReply s p ptDone msg 0 msg (leBytes 2 st) (fun _ => false)
def sendNack (s : State) (p msg st : Nat) : State := sendReply s p ptNack msg 0 msg (leBytes 2 st) (fun _ => false)

def modIncoming (s : State) (p msg : Nat) (f : Incoming → Incoming) : State :=
  modPeer s p (fun x => { x with incoming := tmod x.incoming msg {} f })
def incomingOf (s : State) (p msg : Nat) : Incoming := tget (peerOf s p).incoming msg {}
def dropIncoming (s : State) (p msg : Nat) : State := modPeer s p (fun x => { x with incoming := tdel x.incoming msg })

/-- Transactions that a message still waits for. -/
def chordTxns (s : State) (p msg : Nat) : Bool :=
  s.mem.txns.any (fun e => match e.2.client with | .chord q m _ => q == p && m == msg | _ => false)

/-- Answer a read with what it has gathered: poisoned 256-byte blocks are marked. -/
def sendReadRsp (s : State) (p msg : Nat) (m : Incoming) : State :=
  let data := (List.range m.bytes).map (fun i => tget m.data i 0)
  sendReply s p ptReadRsp msg 0 0 data (fun o => m.bad.contains (o / 256))

/-- A message whose bytes are all at their homes is answered: DONE, or the data of a read. -/
def settleIncoming (s : State) (p msg : Nat) : State :=
  match tfind (peerOf s p).incoming msg with
  | none => s
  | some m =>
    if chordTxns s p msg then s
    else if m.ptype = ptReadReq then sendReadRsp (dropIncoming s p msg) p msg m
    else if m.ptype = ptWrite ∧ m.total = some m.bytes then
      let s := dropIncoming s p msg
      if m.refused then s else sendDone s p msg 0
    else s

/-- A transaction of an engine's receive path for a message; those of a reserved transfer arbitrate at urgency 3 (10 R278). -/
def chordTxn (s : State) (e p part : Nat) (k : Packet) (t : Txn) : State :=
  (newTxn s { t with master := chordMaster e, tag := part, client := .chord p k.msg 0, reserved := k.reserved }).1

/-- Write bytes for a peer, line by line. -/
def chordPut (s : State) (e p part a : Nat) (k : Packet) (b : Bytes) (pz : Nat → Bool) : State :=
  forEach (linesOf a b.length) s (fun s l =>
    let t := bytesOfLine a b l
    let m := maskOf ((List.range 4).filter (fun q => t.any (fun x => x.1 / 32 == q && pz (l * 128 + x.1 - a))))
    chordTxn s e p part k { kind := .write, hpa := l * 128, bytes := t.length, data := t, poison := m })

/-- WRITE. -/
def execChordWrite (engine : Nat) (p : Packet) (s : State) : Host.Outcome State Fault Refusal :=
  .next (receive s engine p true (fun s e =>
    let x := peerOf s e
    let (data, pz) := unpack p
    let a := p.addr + p.offset
    let n := data.length
    let m := incomingOf s e p.msg
    let m := { m with ptype := ptWrite, addr := p.addr, bytes := m.bytes + n
                      total := if p.last then some (p.offset + n) else m.total }
    if mustWait s x p a n then (s, false)
    else if m.refused then (settleIncoming (modIncoming s e p.msg (fun _ => m)) e p.msg, true)
    else
      match remoteAdmits s x.part true a n with
      | .ok _ =>
        (settleIncoming (chordPut (modIncoming s e p.msg (fun _ => m)) engine e x.part a p data pz) e p.msg, true)
      | r =>
        let s := refuseRemote s engine x.part r a
        let s := modIncoming s e p.msg (fun _ => { m with refused := true })
        (settleIncoming (sendNack s e p.msg csRemoteAccess) e p.msg, true)))

/-- READ_REQ: a refused read is answered with every block poisoned. -/
def execReadReq (engine : Nat) (p : Packet) (s : State) : Host.Outcome State Fault Refusal :=
  .next (receive s engine p true (fun s e =>
    let x := peerOf s e
    let n := min 4096 (leAt p.payload 0 4)
    let a := p.addr
    let m : Incoming := { ptype := ptReadReq, addr := a, bytes := n, total := some n }
    let all := (List.range 16)
    if mustWait s x p a n then (s, false)
    else
      match remoteAdmits s x.part false a n with
      | .ok _ =>
        let s := forEach (linesOf a n) (modIncoming s e p.msg (fun _ => m)) (fun s l =>
          let lo := max a (l * 128)
          chordTxn s engine e x.part p { kind := .read, hpa := lo, bytes := min (a + n) (l * 128 + 128) - lo })
        (settleIncoming s e p.msg, true)
      | r => (sendReadRsp (refuseRemote s engine x.part r a) e p.msg { m with bad := all }, true)))

/-! ### Atomics and pegs of peers -/

/-- AOP and ATYPE as numbers (04 Table 4-5, Table 4-6). -/
def aopOf (n : Nat) : Option AtomOp := [AtomOp.add, .min, .max, .and, .or, .xor, .exch, .cas, .inc][n]?
def atypeOf (n : Nat) : Option AtomType := [AtomType.u32, .s32, .u64, .s64, .f32, .bf16x2][n]?
def aopNum : AtomOp → Nat
  | .add => 0 | .min => 1 | .max => 2 | .and => 3 | .or => 4 | .xor => 5 | .exch => 6 | .cas => 7 | .inc => 8
def atypeNum : AtomType → Nat
  | .u32 => 0 | .s32 => 1 | .u64 => 2 | .s64 => 3 | .f32 => 4 | .bf16x2 => 5

/-- The payload of ATOMIC_RSP: old values, then the success mask for CAS. -/
def atomicRspBytes (op : AtomOp) (n : Nat) (values : List (Nat × Nat)) (wins : List Nat) : Bytes :=
  (List.range n).flatMap (fun i => leBytes 8 (tget values i 0)) ++ (if op = .cas then leBytes 8 (maskOf wins) else [])

/-- ATOMIC: its entries act on the one location in order. -/
def execChordAtomic (engine : Nat) (p : Packet) (s : State) : Host.Outcome State Fault Refusal :=
  .next (receive s engine p true (fun s e =>
    let x := peerOf s e
    let n := bits p.opinfo 7 6 + 1
    let poisoned := fun (s : State) => sendReply s e ptAtomicRsp p.msg 1 0 (List.replicate (8 * n) 0) (fun _ => false)
    match aopOf (bits p.opinfo 0 4), atypeOf (bits p.opinfo 4 3) with
    | some op, some ty =>
      let w := atomBytes ty
      if mustWaitAll s x p then (s, false)
      else
        match (if p.addr % w ≠ 0 ∨ !atomDefined op ty then .unmapped else remoteAdmits s x.part true p.addr w) with
        | .ok _ =>
          let lanes := (List.range n).map (fun i =>
            ({ thread := i, addr := p.addr, sb := leAt p.payload (16 * i) 8, sc := leAt p.payload (16 * i + 8) 8 } : AtomLane))
          let s := modIncoming s e p.msg (fun _ => { ptype := ptAtomic, addr := p.addr, bytes := w, total := some w, opinfo := p.opinfo })
          (chordTxn s engine e x.part p { kind := .atomic, hpa := p.addr, bytes := 32, atom := some (op, ty), lanes := lanes }, true)
        | r => (poisoned (refuseRemote s engine x.part r p.addr), true)
    | _, _ => (poisoned (refuseRemote s engine x.part .unmapped p.addr), true)))

/-- PEG: at SYSTEM scope with release, so after everything earlier of its stream. -/
def execChordPeg (engine : Nat) (p : Packet) (s : State) : Host.Outcome State Fault Refusal :=
  .next (receive s engine p true (fun s e =>
    let x := peerOf s e
    let op := bits p.opinfo 0 3
    let id := bits p.addr 0 14
    let n := pegCount (leAt p.payload 0 3)
    if mustWaitAll s x p ∨ !portPasses s (chordMaster engine) 1 then (s, false)
    else if !pegAllowed s x.part id ∨ (op ≠ 0 ∧ op ≠ 2 ∧ op ≠ 3) then
      (sendNack (refuseRemote s engine x.part .unmapped p.addr) e p.msg csRemoteAccess, true)
    else
      let s := notePort s (chordMaster engine)
      let s := if op = 3 then pegResetOp s id else pegSignalOp s id n
      (sendDone s e p.msg 0, true)))

/-! ### Ends of this device's own messages -/

/-- The collective that a message belongs to. -/
def collKeyOf (s : State) (c st part : Nat) : Option Nat :=
  (s.chord.colls.find? (fun e => e.2.cellar == c && e.2.step == st && e.2.part == part)).map (·.1)

/-- A transaction has been performed beyond the hub. -/
def txnDone (s : State) (n : Nat) (f : Txn → Txn) : State := modTxn s n (fun t => { f t with phase := .done })

/-- No message of a transaction is outstanding. -/
def txnMessages (s : State) (n : Nat) : Bool := s.chord.peers.any (fun e => e.2.messages.any (fun m => m.2.client == .txn n))

/-- A transaction through a peer window ends without its data: a read or an atomic is poisoned, a write or peg operation is
an error (Table 14-10, R393). -/
def txnFails (s : State) (n code : Nat) : State :=
  match txnOf s n with
  | none => s
  | some t =>
    match t.kind with
    | .write => txnDone s n (fun t => { t with error := some code })
    | .peg => txnDone s n (fun t => { t with error := some code })
    | _ => txnDone s n (fun t => { t with resultPoison := 15 })

/-- The code of an error record for a Chord status. -/
def recordOf (st : Nat) : Nat := if st = csUnreachable then ecPeerUnreachable else ecRemoteAccess

/-- A message of this device ends with a status; 0 is success (R397, R399, R402). -/
def endMessage (s : State) (p id st : Nat) : State :=
  match tfind (peerOf s p).messages id with
  | none => s
  | some m =>
    let s := modPeer s p (fun x => { x with messages := tdel x.messages id, queue := x.queue.filter (fun k => k.msg != id || k.vc == 1) })
    match m.client with
    | .mover c step part =>
      let jid := step * 1024 + part
      match jobFind s c jid with
      | none => s
      | some j =>
        let b := jobBody s j
        let s := modJob s c jid (fun j => { j with aux0 := j.aux0 + m.suppressed, aux1 := j.aux1 + m.retransmitted, stalled := false })
        if 64 ≤ c then (if st = 0 then s else moverError s c jid (recordOf st) m.addr)
        else if st = 0 then
          -- with RPEG_EN the peg at the peer follows the bytes (R399)
          if m.ptype = ptWrite ∧ bbits b 0 8 = 0x40 ∧ bbits b 232 1 = 1 ∧ (j.code = 0 ∨ j.code = mcPoisoned) then
            sendPeg s p m.client (m.window.getD 0) 2 (bbits b 256 14) 1
          else settleOp s c jid
        else
          let s := if st = csRemoteAccess then
              let (s, i) := logError s {
                severity := .accessError, unitClass := ucMover, unitIndex := c, code := ecRemoteAccess
                partition := errPartition (stepPart s step), address := m.addr
                stepTag := (tget s.larder.steps step {}).tag, cellarEpoch := (cellarOf s c).epoch }
              modStep s step (fun st => { st with errorRef := if st.errorRef = 0 then i else st.errorRef })
            else s
          settleOp (opCode s c jid st) c jid
    | .txn n => if st = 0 then (if txnMessages s n then s else txnDone s n (fun t => t)) else txnFails s n (recordOf st)
    | .stepPart slot part => if st = 0 then s else partDone (setFailure s slot .poisoned 0) slot part
    | .coll c step part =>
      match collKeyOf s c step part with
      | none => s
      | some k =>
        let s := modJob s c (step * 1024 + part) (fun j => { j with aux0 := j.aux0 + m.suppressed, aux1 := j.aux1 + m.retransmitted })
        let s := modColl s k (fun x => { x with outstanding := x.outstanding - 1 })
        if st = 0 then settleColl s k else endColl s k st
    | .none => s

/-- DONE. -/
def execDone (engine : Nat) (p : Packet) (s : State) : Host.Outcome State Fault Refusal :=
  .next (receive s engine p false (fun s e => (endMessage s e (p.addr % 2 ^ 32) (leAt p.payload 0 2), true)))

/-- READ_RSP: to the destination of a GET, or to the transaction that reads. -/
def execReadRsp (engine : Nat) (p : Packet) (s : State) : Host.Outcome State Fault Refusal :=
  .next (receive s engine p false (fun s e =>
    match tfind (peerOf s e).messages p.msg with
    | none => (s, true)
    | some m =>
      let (data, pz) := unpack p
      let n := data.length
      match m.client with
      | .mover c st part =>
        match jobFind s c (st * 1024 + part) with
        | none => (gotBytes s e p.msg n, true)
        | some j =>
          match takeGet s c j engine m.local_ p with
          | (s, .faulting) =>
            if parkLimit < (llOf s engine).parked + n then (sendNack s e p.msg csBusy, false)
            else
              let s := modLl s engine (fun l => { l with parked := l.parked + n })
              let s := modJob s c (jobId j) (fun j => { j with stalled := true })
              (modPeer s e (fun x => { x with messages := tmodIf x.messages p.msg (fun y => { y with packets := y.packets ++ [p] }) }), true)
          | (s, _) => (gotBytes s e p.msg n, true)
      | .txn t =>
        let s := modTxn s t (fun x => { x with
          result := data.zipIdx.foldl (fun (r : Tab Byte) d => tset r (m.local_ + p.offset + d.2) d.1) x.result
          resultPoison := if (List.range n).any pz then 15 else x.resultPoison })
        let s := gotBytes s e p.msg n
        (if txnMessages s t then s else txnDone s t (fun x => x), true)
      | _ => (s, true)))

/-- ATOMIC_RSP: old values to the threads of the location, in order. -/
def execAtomicRsp (engine : Nat) (p : Packet) (s : State) : Host.Outcome State Fault Refusal :=
  .next (receive s engine p false (fun s e =>
    match tfind (peerOf s e).messages p.msg with
    | none => (s, true)
    | some m =>
      let s := modPeer s e (fun x => { x with messages := tdel x.messages p.msg })
      match m.client with
      | .txn t =>
        let s := modTxn s t (fun x =>
          let lanes := x.lanes.filter (fun l => l.addr == m.local_)
          let mask := leAt p.payload (8 * lanes.length) 8
          { x with
            values := x.values ++ lanes.zipIdx.map (fun (l : AtomLane × Nat) => (l.1.thread, leAt p.payload (8 * l.2) 8))
            wins := x.wins ++ (lanes.zipIdx.filter (fun (l : AtomLane × Nat) => bitAt mask l.2)).map (fun l => l.1.thread)
            resultPoison := if bitAt p.opinfo 0 then 15 else x.resultPoison })
        (if txnMessages s t then s else txnDone s t (fun x => x), true)
      | _ => (s, true)))

/-! ### Steps of peers (09 R265) -/

/-- Gather the bytes of a message; answers them once all are there. -/
def gather (s : State) (p : Nat) (k : Packet) (pt : Nat) : State × Option (Bytes × (Nat → Bool)) :=
  let (data, pz) := unpack k
  let m := incomingOf s p k.msg
  let bad := ((List.range data.length).filter pz).map (fun i => (k.offset + i) / 256)
  let m : Incoming := { m with
    ptype := pt, bytes := m.bytes + data.length, total := if k.last then some (k.offset + data.length) else m.total
    data := data.zipIdx.foldl (fun (t : Tab Byte) d => tset t (k.offset + d.2) d.1) m.data, bad := (m.bad ++ bad).eraseDups }
  let s := modIncoming s p k.msg (fun _ => m)
  if m.total = some m.bytes then (s, some ((List.range m.bytes).map (fun i => tget m.data i 0), fun i => m.bad.contains (i / 256)))
  else (s, none)

/-- The STEP_DONE of a step that is not accepted: the status of the check. -/
def refuseStep (s : State) (p msg : Nat) (st : Status) : State :=
  sendReply (dropIncoming s p msg) p ptStepDone msg 0 msg (leBytes 2 (statusCode st) ++ [0, 0]) (fun _ => false)

/-- STEP: accepted into the receiving partition, as THROUGHPUT. -/
def execStep (engine : Nat) (p : Packet) (s : State) : Host.Outcome State Fault Refusal :=
  .next (receive s engine p false (fun s e =>
    let x := peerOf s e
    if mustWaitAll s x p then (s, false)
    else
      match gather s e p ptStep with
      | (s, none) => (s, true)
      | (s, some (b, bad)) =>
        match stepLength b with
        | none => (refuseStep s e p.msg .badLength, true)
        | some n =>
          if (List.range b.length).any bad then (refuseStep s e p.msg .poisoned, true)
          else if b.length ≠ n then (refuseStep s e p.msg .badLength, true)
          else
            let st := readStep b
            match stepRefused s x.part b st true with
            | some code => (refuseStep s e p.msg code, true)
            | none =>
              let s := modIncoming s e p.msg (fun m => { m with data := [], held := true })
              (addStep s { acceptedStep s x.part b st 1 0 with seq := s.cp.commitSeq, peer := some (e, p.msg) }, true)))

/-- STEP_CANCEL: a step not yet dispatched ends, one that runs is stopped; its STEP_DONE answers, with the status that Table
9-14 gives a cancel of R265. -/
def execStepCancel (engine : Nat) (p : Packet) (s : State) : Host.Outcome State Fault Refusal :=
  .next (receive s engine p false (fun s e =>
    match s.larder.steps.find? (fun x => x.2.peer == some (e, p.addr % 2 ^ 32)) with
    | none => (s, true)
    | some (slot, st) =>
      if st.phase = .waiting then (settleUnrun (markUnrun s slot (some .stepBudgetExceeded)), true)
      else if st.phase = .unrun then (s, true)
      else (stopStep (setFailure s slot .stepBudgetExceeded 0) slot .stepBudgetExceeded true, true)))

/-- The status of a code that a peer reports; a code outside Table 3-7 stands as POISONED. -/
def statusOf (n : Nat) : Status :=
  ([Status.ok, .aborted, .badLength, .badField, .noResource, .partitionReset, .deviceReset, .poisoned, .stepBudgetExceeded,
    .stepPreemptLimit, .matrixRegionBroken, .deniedPartition, .seqNotOpen].find? (fun st => statusCode st == n)).getD .poisoned

/-- STEP_DONE: CODE, flags and OVERRUN are merged into the local record. -/
def execStepDone (engine : Nat) (p : Packet) (s : State) : Host.Outcome State Fault Refusal :=
  .next (receive s engine p false (fun s e =>
    let id := p.addr % 2 ^ 32
    match tfind (peerOf s e).messages id with
    | none => (s, true)
    | some m =>
      let s := modPeer s e (fun x => { x with messages := tdel x.messages id })
      match m.client with
      | .stepPart slot part =>
        let code := leAt p.payload 0 2
        let fl := leAt p.payload 2 1
        let s := if code = 0 then s else setFailure s slot (statusOf code) 0
        let s := modStep s slot (fun st => { st with
          flags := Nat.lor st.flags (fl % 64), deadlineMissed := st.deadlineMissed || bitAt fl 7
          overrun := max st.overrun (leAt p.payload 3 1) })
        (partDone s slot part, true)
      | _ => (s, true)))

/-! ### Collectives (R402) -/

/-- The bytes that a segment of a collective holds, when its sender may send it. -/
def segmentSize (x : Collective) (rank st : Nat) : Option Nat :=
  let n := x.nodes.length
  if n ≤ rank ∨ rank = x.rank then none
  else if !x.allreduce then (if st = 0 then some x.length else none)
  else if (rank + 1) % n ≠ x.rank ∨ 2 * n - 3 < st then none
  else some (shardOf x (if st + 1 < n then (rank + n * 2 - 1 - st) % n else (rank + 2 * n - (st + 1 - n)) % n)).2

/-- COLL. -/
def execColl (engine : Nat) (p : Packet) (s : State) : Host.Outcome State Fault Refusal :=
  .next (receive s engine p false (fun s e =>
    let part := (peerOf s e).part
    let k := collKey part (bits p.addr 0 32)
    let rank := bits p.opinfo 0 8
    let st := bits p.opinfo 8 8
    match collOf s k with
    | none => (sendNack s e p.msg csBusy, true)
    | some x =>
      match segmentSize x rank st with
      | none => (sendNack s e p.msg csGroup, true)
      | some size =>
        if bits p.addr 32 32 ≠ x.hash ∨ nth x.nodes rank 0 ≠ p.src ∨ x.received.contains (rank, st) then
          (sendNack s e p.msg csGroup, true)
        else
          match gather s e p ptColl with
          | (s, none) => (s, true)
          | (s, some (b, bad)) =>
            let s := dropIncoming s e p.msg
            if b.length ≠ size then (sendNack s e p.msg csGroup, true)
            else (sendDone (segmentArrives s k rank st b bad) e p.msg 0, true)))

/-! ### Loss and congestion (R390, R391) -/

/-- Send a packet again, on the next path, with RETX set and the same PSN. -/
def resend (s : State) (p psn : Nat) : State :=
  let x := peerOf s p
  match x.sent.find? (fun y => y.psn == psn), nextEngine s x ((x.sent.find? (fun y => y.psn == psn)).getD {}).packet with
  | some y, some e =>
    let k := { y.packet with retx := true, ackFloor := ackFloor x, epoch := x.epoch, txTime := s.time.now % 2 ^ 64, timeOk := timeOk s }
    let s := modPeer s p (fun x => { x with
      sent := x.sent.map (fun z => if z.psn = psn then { z with engine := e, at_ := s.time.now, flit := lastFlit s e k, passed := 0 } else z)
      messages := tmodIf x.messages y.msg (fun m => if k.vc = 1 then m else { m with retransmitted := m.retransmitted + 1 }) })
    transmit s p e k
  | _, _ => s

/-- Half of a round trip, where the receiver measured no delay. -/
def oneWay (a : AckIn) (rtt : Nat) : Nat := if a.delay = 0xFFFFFFFF then rtt / 2 else a.delay

/-- The congestion window after an ACK (R391). -/
def updateWindow (x : Peer) (now d : Nat) : Peer :=
  let target := if x.eth then 20 * us else us
  let fresh := match x.base with | none => true | some _ => x.baseAt + 1000000 * us ≤ now
  let base := if fresh then d else min (x.base.getD d) d
  let x := { x with base := some base, baseAt := if fresh then now else x.baseAt }
  if d ≤ base + target then { x with cwnd := min (x.cwnd + 4160 * 4160 / x.cwnd) 16777216 }
  else if x.srtt < now - x.lastCut then
    { x with cwnd := max (x.cwnd - x.cwnd * (d - base - target) / (2 * d)) 8320, lastCut := now }
  else x

/-- ACK: what it acknowledges leaves the send window; what it shows as lost is sent again; the window is updated. -/
def execAck (engine : Nat) (p : Packet) (a : AckIn) (s : State) : Host.Outcome State Fault Refusal :=
  .next (receiveAck s engine p (fun s e =>
    let x := peerOf s e
    let acked := fun (psn : Nat) =>
      let off := (psn + 2 ^ 32 - a.cum) % 2 ^ 32
      off == 0 || 2 ^ 31 ≤ off || (off ≤ 64 && bitAt a.sack (off - 1))
    let got := x.sent.filter (fun y => acked y.psn)
    let rtt := (s.time.now + 2 ^ 64 - a.echo) % 2 ^ 64
    let limit := if x.eth then 50 * us else 2 * us
    let rest := (x.sent.filter (fun y => !acked y.psn)).map (fun y =>
      { y with passed := y.passed + (got.filter (fun z => y.at_ ≤ z.at_ && issuedBefore y.psn z.psn)).length })
    let lost := rest.filter (fun y => 3 ≤ y.passed && limit < s.time.now - y.at_)
    let s := modPeer s e (fun x => updateWindow { x with
      sent := rest, srtt := Config.rttFilter 0 x.srtt rtt, rttvar := Config.rttFilter 1 x.rttvar rtt } s.time.now (oneWay a rtt))
    let s := forEach lost s (fun s y => resend s e y.psn)
    pump s e))

/-- RETRANSMISSION_TIMEOUT: the packet goes again, and the window falls to 8,320. -/
def execRetransmissionTimeout (peer psn : Nat) (s : State) : Host.Outcome State Fault Refusal :=
  if (peerOf s peer).sent.any (fun y => y.psn == psn) then
    .next (resend (modPeer s peer (fun x => { x with cwnd := 8320 })) peer psn)
  else .next s

/-- ACK_TIMER: 1 µs after a packet that is not acknowledged yet. -/
def execAckTimer (peer : Nat) (s : State) : Host.Outcome State Fault Refusal :=
  if (peerOf s peer).ackOwed = 0 then .next s else .next (sendAck s peer)

/-- No engine carries a packet: its retry buffer is gone. -/
def noEngine := 12

/-- A native link went down after `acked` of its flits were acknowledged: the packets in its retry buffer go at once on another
path; what it still owed besides was in no buffer (R390). -/
def resendFrom (s : State) (engine acked : Nat) : State :=
  forEach s.chord.peers s (fun s e =>
    let mine := e.2.sent.filter (fun y => y.engine == engine)
    let s := modPeer s e.1 (fun x => { x with
      sent := x.sent.map (fun z => if z.engine = engine then { z with engine := noEngine } else z) })
    forEach (mine.filter (fun y => !e.2.eth && acked < y.flit)) s (fun s y => resend s e.1 y.psn))

/-! ### NACK (R392, R397) -/

/-- NACK: BUSY starts a backoff, any other status ends the operation. -/
def execNack (engine : Nat) (p : Packet) (s : State) : Host.Outcome State Fault Refusal :=
  .next (receive s engine p false (fun s e =>
    let id := p.addr % 2 ^ 32
    let st := leAt p.payload 0 2
    if st = csBusy then
      (modPeer s e (fun x => { x with messages := tmodIf x.messages id (fun m =>
        if m.waiting then m
        else { m with waiting := true, backoff := if m.backoff = 0 then max x.srtt (2 * us) else min (2 * m.backoff) (1000 * us) }) }), true)
    else (endMessage s e id st, true)))

/-- BUSY_BACKOFF_EXPIRY: the message's packets are sent again; a held answer, which has no message of its own, likewise. -/
def execBusyBackoffExpiry (peer msg : Nat) (s : State) : Host.Outcome State Fault Refusal :=
  match tfind (peerOf s peer).messages msg with
  | some m =>
    if !m.waiting then .next s
    else
      let l := m.packets.map (fun k => { k with retx := true })
      .next (enqueue (modPeer s peer (fun x => { x with messages := tset x.messages msg { m with
        waiting := false, retransmitted := m.retransmitted + l.length } })) peer l)
  | none => .next (forEach ((peerOf s peer).sent.filter (fun y => y.msg == msg && y.packet.vc == 1)) s (fun s y => resend s peer y.psn))

/-! ### Unreachable peers (R393, 09 R250, R265) -/

/-- The pages behind a partition's windows to a node are lost. -/
def losePeerPages (s : State) (x : Peer) : State :=
  losePagesOf s x.part (fun r _ => r.tier == 3 && (match tfind s.chord.windows r.unit with
    | some w => w.node == x.node && w.part == x.part | none => false))

/-- PEER_UNREACHABLE: packets have been outstanding and none acknowledged for 50 ms. -/
def execPeerUnreachable (peer : Nat) (s : State) : Host.Outcome State Fault Refusal :=
  match tfind s.chord.peers peer with
  | none => .next s
  | some x =>
    if x.sent.isEmpty ∨ x.unreachable then .next s
    else
      let s := logErr s { severity := .unitLost, unitClass := ucChord, unitIndex := (x.sent.headD {}).engine
                          code := ecPeerUnreachable, partition := errPartition x.part, address := x.node }
      let s := modPeer s peer (fun x => { x with unreachable := true, sent := [], queue := [], incoming := [], ackOwed := 0 })
      let s := forEach x.messages s (fun s m => endMessage s peer m.1 csUnreachable)
      -- a step of that peer still runs, but its answer has nowhere to go
      let s := { s with larder := { s.larder with steps := tmap s.larder.steps (fun _ (st : Step) =>
        { st with peer := st.peer.map (fun q => if q.1 = peer then (65536, q.2) else q) }) } }
      .next (losePeerPages s x)

/-- UNREACHABLE_END: the next contact creates a fresh entry. -/
def execUnreachableEnd (peer : Nat) (s : State) : Host.Outcome State Fault Refusal :=
  if (peerOf s peer).unreachable then .next { s with chord := { s.chord with peers := tdel s.chord.peers peer } } else .next s

end Sys2Proof.Machine
end

