-- ==== Sys2Proof/Machine/Homes.lean ====
section
/-! DEFINITION. Transactions on their way: master ports, shelf and far-tier homes, attic and peer windows, completions;
write-combining flushes, channels, far-tier devices and missed guarantees (spec 10; 08 R217–R224, R230–R234; 12 R318, R337;
17 R474, Table 17-2). -/
namespace Sys2Proof.Machine

/-- An access that changes its location, or takes the right to. -/
def txnWrites (t : Txn) : Bool := t.kind == .write || t.kind == .atomic || t.kind == .peg || t.dir == .own

/-! ### The directories (12 R319, R320, R336) -/

/-- Entries of the directory set that a line falls in, oldest first. -/
def dirSetEntries (s : State) (line : Nat) : List (Nat × DirEntry) :=
  (s.attic.dir.filter (fun e => Config.dirSet e.1 % 16384 == Config.dirSet line % 16384
    && dirQuadrant s (e.1 * 128) == dirQuadrant s (line * 128))).mergeSort (fun a b => a.2.order ≤ b.2.order)

/-- The sites that hold a tracked line. -/
def dirHolders (e : DirEntry) : List Nat := match e.owner with | some o => [o] | none => maskBits e.sharers 8

/-- Recall the least recently allocated entry of a full set. -/
def recallFor (s : State) (line : Nat) : State :=
  match dirSetEntries s line with
  | [] => s
  | (v, e) :: _ =>
    match tfind s.attic.snoops v with
    | some x => if snoopBlocks s x none then s else startSnoop s v (dirHolders e) true none
    | none =>
      let q := dirQuadrant s (line * 128)
      startSnoop { s with attic := { s.attic with recalls := tmod s.attic.recalls q 0 (satInc 32) } } v (dirHolders e) true none

/-- An access that allocates an entry finds room for it, or waits for a recall. -/
def dirReady (s : State) (t : Txn) : State × Bool :=
  let line := t.hpa / 128
  if t.dir = .none ∨ (tfind s.attic.dir line).isSome ∨ (dirSetEntries s line).length < 16 then (s, true)
  else (recallFor s line, false)

/-- The halves of its line that a request covers, 2 bits. -/
def halvesOf (t : Txn) : Nat := if t.bytes ≤ 64 then 2 ^ (t.hpa % 128 / 64) else 3

/-- The directory after a die's read that it caches. -/
def updateDir (s : State) (t : Txn) : State :=
  match t.dir, txnSite t with
  | .none, _ => s
  | _, none => s
  | d, some site =>
    let line := t.hpa / 128
    let s := match tfind s.attic.dir line with
      | some _ => s
      | none => { s with attic := { s.attic with
          dir := tset s.attic.dir line { order := s.attic.dirOrder }, dirOrder := s.attic.dirOrder + 1 } }
    { s with attic := { s.attic with dir := tmodIf s.attic.dir line (fun e =>
        let h := Nat.lor e.halves (field (halvesOf t) (2 * site) 2)
        if d = .own then { e with owner := some site, sharers := 0, halves := field (bits h (2 * site) 2) (2 * site) 2 }
        else if e.owner = some site then { e with halves := h }
        else { e with sharers := setBit e.sharers site, halves := h }) } }

/-- Halves that a site holds of a line. -/
def siteHalves (e : DirEntry) (site : Nat) : Nat := bits e.halves (2 * site) 2

/-- A site gives up a line, or the half of it that a CXL die names. -/
def dropHeld (s : State) (site hpa : Nat) : State :=
  let line := hpa / 128
  match tfind s.attic.dir line with
  | none => s
  | some e =>
    let gone := if (siteOf s site).cap.cxl then 2 ^ (hpa % 128 / 64) else 3
    let left := siteHalves e site - Nat.land (siteHalves e site) gone
    let h := e.halves - field (siteHalves e site) (2 * site) 2 + field left (2 * site) 2
    let e := if left ≠ 0 then { e with halves := h }
             else if e.owner = some site then { e with owner := none, halves := h }
             else { e with sharers := clearBit e.sharers site, halves := h }
    { s with attic := { s.attic with dir := if e.owner.isNone ∧ e.sharers = 0 then tdel s.attic.dir line else tset s.attic.dir line e } }

/-- A WB_DIRTY or EVICT_CLEAN at its home: the dirty bytes of the line's owner are written, and the site goes (12 Table 12-7). -/
def landBack (s : State) (site : Nat) (t : Txn) : State :=
  let line := t.hpa / 128
  let mine := match tfind s.attic.dir line with | some e => e.owner == some site | none => false
  dropHeld (if mine && t.kind == .write then writeLine s line t.data t.poison else s) site t.hpa

/-- A WB_DIRTY or EVICT_CLEAN. -/
def givesBack (t : Txn) : Bool := match t.client with | .dieBack _ _ => true | _ => false

/-- A line that some die is giving up: its WB_DIRTY or EVICT_CLEAN comes before any other access (12 R320), but for an
earlier request of the same die. -/
def backPending (s : State) (n line : Nat) (site : Option Nat) : Bool :=
  s.mem.txns.any (fun e => e.1 != n && e.2.phase != .done && e.2.hpa / 128 == line
    && givesBack e.2 && !(txnSite e.2 == site && n < e.1))

/-- The snoops of a transaction at its home, and whether it must wait for them: what a die gives up needs none. -/
def homeSnoops (s : State) (n : Nat) (t : Txn) : State × Bool :=
  if givesBack t then (s, false)
  else if backPending s n (t.hpa / 128) (txnSite t) then (s, true)
  else snoopLine s (t.hpa / 128) (txnWrites t) (txnDieSite t) (some n)

/-- Two addresses whose messages share a link of a site: all do while only one link is up (12 R310). -/
def sameLink (x : Site) (a b : Nat) : Bool := !(x.linkA && x.linkB) || bits a 8 1 == bits b 8 1

/-- An earlier request of the same die on the same link has not been performed (12 R317). -/
def dieOvertakes (s : State) (n : Nat) (t : Txn) : Bool :=
  match txnSite t with
  | none => false
  | some site => s.mem.txns.any (fun e => e.1 < n && e.2.phase != .done && txnSite e.2 == some site
      && sameLink (siteOf s site) e.2.hpa t.hpa)

/-! ### Ends at a home -/

/-- A transaction that is refused ends with an error; what it reads is poison. -/
def refuseTxn (s : State) (n : Nat) (t : Txn) (r : Access) : State :=
  txnDone (countRefused s t.tag r) n (fun t => { t with error := some (refusalCode r), resultPoison := 15 })

/-- A transaction is absorbed: a read or atomic is poisoned, and a write is discarded. -/
def absorbTxn (s : State) (n : Nat) : State := txnDone s n (fun t => { t with resultPoison := 15, absorbed := true })

/-- Perform a transaction at a home of the hub: reads take the home's bytes, writes and atomics change them. -/
def performTxn (s : State) (n : Nat) (t : Txn) : State :=
  match t.client, t.kind with
  | .dieBack site _, _ => txnDone (landBack s site t) n (fun t => t)
  | _, .write => txnDone (writeLine s (t.hpa / 128) t.data t.poison) n (fun t => t)
  | _, .atomic =>
    match t.atom with
    | none => txnDone s n (fun t => t)
    | some (op, ty) =>
      if t.lanes.any (fun l => readPoison s l.addr (atomBytes ty)) then absorbTxn s n
      else
        let (s, v, w) := homeAtomic s op ty t.lanes
        txnDone s n (fun t => { t with values := v, wins := w })
  | _, .peg => txnDone s n (fun t => t)
  | _, _ =>
    let b := (List.range t.bytes).map (fun i => (i, (readByte s (t.hpa + i)).1))
    let pz := maskOf ((List.range ((t.bytes + 31) / 32)).filter (fun q => readPoison s (t.hpa + 32 * q) (min 32 (t.bytes - 32 * q))))
    updateDir (txnDone s n (fun t => { t with result := b, resultPoison := pz })) t

/-- The half sectors of stored data that a transaction reads, with the outcome of each: a whole-sector write reads none, a
partial one merges later, and an atomic reads what its entry lacks. -/
def readsSectors (s : State) (t : Txn) (home : Home) : List Nat :=
  match t.kind with
  | .read => [t.hpa / 64, t.hpa / 64 + 1].filter (fun x => x * 64 < t.hpa + t.bytes)
  | .narrow => [t.hpa / 64]
  | .atomic =>
    let w := match t.atom with | some (_, ty) => atomBytes ty | none => 4
    let lacks := fun (a : Nat) => (List.range w).any (fun i => (wcbByte s home (a + i)).isNone)
    ((t.lanes.filter (fun l => lacks l.addr)).map (fun l => l.addr / 64)).eraseDups
  | _ => []

/-- The decode outcomes of the sectors that an access reads; `lo` is that of the line's lower half. -/
def readSectors (s : State) (t : Txn) (home : Home) (lo hi : Ecc) : State :=
  forEach (readsSectors s t home) s (fun s x => readSector s (x * 64) (if x % 2 = 0 then lo else hi))

/-! ### Attic windows (12 R318, R337) -/

/-- Requests outstanding at a die. -/
def windowRoom (s : State) (site : Nat) : Nat := (siteOf s site).cap.maxOutstanding + 1 - (siteOf s site).windowReqs.length

/-- Send one request to a die's window. -/
def sendWindow (s : State) (site : Nat) (q : WindowReq) (m : AtpMsg) : State :=
  match tfree (siteOf s site).windowReqs 0 4096 with
  | none => s
  | some i => sendAtp (modSite s site (fun x => { x with windowReqs := tset x.windowReqs i q })) site { m with txn := i }

/-- A write's request: its mask and the bytes of the line; poisoned data are marked POISON. -/
def writeWindow (s : State) (site n a : Nat) (b : Tab Byte) (pz : Bool) (holds : Bool) : State :=
  sendWindow s site { opcode := 0x42, address := a, txn := some n, holds := holds }
    { opcode := 0x42, len := 4, address := a, mask := maskOf (tkeys b), data := (List.range 128).map (fun i => tget b i 0)
      status := b2n pz }

/-- A line of a window is held by an atomic that the port performs. -/
def windowHeld (s : State) (site line : Nat) : Bool :=
  (siteOf s site).windowReqs.any (fun e => e.2.holds && e.2.address / 128 == line)

/-- One lane of an atomic at a native die: an ATOMIC_WIN, behind which the port keeps the line from other requests, so
that the lanes run one after another (04 R105). -/
def sendLane (s : State) (site n : Nat) (op : AtomOp) (ty : AtomType) (l : AtomLane) : State :=
  sendWindow s site { opcode := 0x43, address := l.addr, txn := some n, lane := l.thread, holds := true }
    { opcode := 0x43, len := 1, address := l.addr, aop := aopNum op, atype := atypeNum ty, scope := 4
      data := leBytes 8 l.sb ++ leBytes 8 l.sc ++ List.replicate 16 0 }

/-- The first lane that has no value yet. -/
def laneLeft (t : Txn) : Option AtomLane := t.lanes.find? (fun l => !t.values.any (fun v => v.1 == l.thread))

/-- The lanes of a compare-and-swap that name one location. -/
def lanesAt (t : Txn) (a : Nat) : List AtomLane := t.lanes.filter (fun l => l.addr == a)

/-- What the answer to the compare-and-swap of lane `l` settles for the lanes of its location (04 R106): the lane has won
when it finds its compare value, and the threads after it receive its swap value; when no lane compares equal, all have
failed.  Otherwise the first lane that compares equal is to try. -/
def casAnswered (t : Txn) (l : AtomLane) (old w : Nat) : Txn × Option AtomLane :=
  let g := lanesAt t l.addr
  if old = l.sb % w then
    let before := g.takeWhile (fun x => x.thread != l.thread)
    let v := g.map (fun x => (x.thread, if x.thread = l.thread ∨ before.any (fun y => y.thread == x.thread) then old else l.sc % w))
    ({ t with values := t.values ++ v, wins := t.wins ++ [l.thread] }, none)
  else
    match g.find? (fun x => x.sb % w == old) with
    | some x => (t, some x)
    | none => ({ t with values := t.values ++ g.map (fun x => (x.thread, old)) }, none)

/-- The answer to a lane of an atomic: what it settles, and the lane that goes next. -/
def laneAnswered (t : Txn) (lane old : Nat) (bad : Bool) (err : Option Nat) : Txn × Option AtomLane :=
  match t.atom, t.lanes.find? (fun l => l.thread == lane) with
  | some (op, ty), some l =>
    let w := 256 ^ atomBytes ty
    let r := if op = .cas && !bad then casAnswered t l (old % w) w
             else
               let g := if op = .cas then lanesAt t l.addr else [l]
               ({ t with values := t.values ++ g.map (fun x => (x.thread, old % w)) }, none)
    let t := { r.1 with resultPoison := if bad then 15 else r.1.resultPoison, error := match err with | some e => some e | none => r.1.error }
    (t, match r.2 with | some x => some x | none => laneLeft t)
  | _, _ => (t, none)

/-- Send an issued transaction to the die of its site, when the port is up and has room; a site that is DOWN answers reads
with poison and discards writes, with a record. -/
def forwardWindow (s : State) (site n : Nat) (t : Txn) : State :=
  let x := siteOf s site
  if t.remote.isSome ∨ t.lost then s
  else
    match x.astate with
    | .retraining => s
    | .up =>
      if windowRoom s site < 1 ∨ windowHeld s site (t.hpa / 128) ∨ dieOvertakes s n t then s
      else
        let s := modTxn s n (fun t => { t with remote := some (site, 0) })
        match t.kind, t.atom with
        | .write, _ => writeWindow s site n (t.hpa / 128 * 128) t.data (t.poison != 0) false
        | .atomic, some (op, ty) =>
          if x.cap.cxl then
            sendWindow s site { opcode := 0x41, address := t.hpa / 128 * 128, txn := some n, holds := true }
              { opcode := 0x41, len := 4, address := t.hpa / 128 * 128 }
          else
            match laneLeft t with
            | some l => sendLane s site n op ty l
            | none => txnDone s n (fun t => t)
        | _, _ =>
          sendWindow s site { opcode := 0x41, address := t.hpa, txn := some n } { opcode := 0x41, len := (t.bytes + 31) / 32, address := t.hpa }
    | _ =>
      let s := if t.kind ≠ .write then s else
        logErr s { severity := .accessError, unitClass := ucAttic, unitIndex := site, code := ecAccessError
                   partition := errPartition (siteOwner s site), address := t.hpa }
      absorbTxn s n

/-- The transactions that wait at the port of a site, as its queue takes them (10 R275). -/
def siteQueue (s : State) (site : Nat) : List (Nat × Txn) :=
  (s.mem.txns.filter (fun e => onTheWay e.2 && placeOf s e.2.hpa == .attic site)).mergeSort (fun a b => before s a b)

/-- A transaction is at the port of its site still: it could not go to the die. -/
def stillQueued (s : State) (n : Nat) : Bool := match txnOf s n with | some t => onTheWay t | none => false

/-- Transactions that wait at the port of a site go out in order, up to one that must wait. -/
def pumpSite (s : State) (site : Nat) : State :=
  ((siteQueue s site).foldl (fun (r : State × Bool) e =>
    if r.2 then r
    else
      let s := forwardWindow r.1 site e.1 e.2
      (s, stillQueued s e.1)) (s, false)).1

/-- The answer of a die to a request of its window. -/
def windowAnswer (s : State) (site : Nat) (m : AtpMsg) : State :=
  match tfind (siteOf s site).windowReqs m.txn with
  | none => s
  | some q =>
    let s := modSite s site (fun x => { x with windowReqs := tdel x.windowReqs m.txn })
    let s := match q.txn.bind (fun n => (txnOf s n).map (fun t => (n, t))) with
      | none => s
      | some (n, t) =>
        let err := if m.status = 2 then some ecAccessError else none
        let bad := m.status != 0
        match q.opcode with
        | 0x41 =>
          match (if q.holds then t.atom else none) with
          | some (op, ty) =>
            if bad then txnDone s n (fun t => { t with resultPoison := 15, error := err })
            else
              let w := atomBytes ty
              let (c, v, wins) := atomRun op ty (fun a => leAt m.data (a % 128) w) t.lanes
              let b : Tab Byte := c.foldl (fun (r : Tab Byte) (e : Nat × AtomCell) =>
                if op = .cas ∧ !e.2.won then r
                else (leBytes w e.2.now).zipIdx.foldl (fun (r : Tab Byte) (x : Byte × Nat) => tset r ((e.1 + x.2) % 128) x.1) r) []
              let s := modTxn s n (fun t => { t with values := v, wins := wins })
              if b.isEmpty then txnDone s n (fun t => t) else writeWindow s site n q.address b false true
          | none =>
            txnDone s n (fun t => { t with
              result := (m.data.take t.bytes).zipIdx.map (fun (x : Byte × Nat) => (x.2, x.1))
              resultPoison := if bad then 15 else 0, error := err })
        | 0x43 =>
          let r := laneAnswered t q.lane (leAt m.data 0 8) bad err
          let s := modTxn s n (fun _ => r.1)
          match r.2, t.atom with
          | some l, some (op, ty) => sendLane s site n op ty l
          | _, _ => txnDone s n (fun t => t)
        | _ => txnDone s n (fun t => { t with error := err })
    pumpSite s site

/-! ### Peer windows (14 R395, R397) -/

/-- Runs of consecutive offsets among masked bytes. -/
def runsOf (b : Tab Byte) : List (Nat × Bytes) :=
  (b.foldl (fun (r : List (Nat × Bytes)) (x : Nat × Byte) =>
    match r with
    | (o, l) :: rest => if o + l.length = x.1 then (o, l ++ [x.2]) :: rest else (x.1, [x.2]) :: r
    | [] => [(x.1, [x.2])]) []).reverse

/-- Send a transaction of a peer window as messages of its own; `false` when no peer entry is free. -/
def forwardPeer (s : State) (w n : Nat) (t : Txn) : State × Bool :=
  match windowPeer s w with
  | (s, none) => (countCreateWait s, false)
  | (s, some p) =>
    if (peerOf s p).unreachable then (txnFails s n ecPeerUnreachable, true)
    else
      let s := modTxn s n (fun t => { t with remote := some (p, w) })
      let base := t.hpa / 128 * 128
      match t.kind, t.atom with
      | .write, _ =>
        (forEach (runsOf t.data) s (fun s r =>
          let a := windowRemote s w (base + r.1)
          (sendMessage s p { ptype := ptWrite, client := .txn n, window := some w, addr := a, bytes := r.2.length } 0 a r.2
            (fun o => (List.range 256).any (fun i => bitAt t.poison ((r.1 + o + i) / 32) && o + i < r.2.length)) false false).1), true)
      | .atomic, some (op, ty) =>
        let addrs := (t.lanes.map (·.addr)).eraseDups
        (forEach addrs s (fun s x =>
          let l := t.lanes.filter (fun l => l.addr == x)
          let a := windowRemote s w x
          (sendMessage s p { ptype := ptAtomic, client := .txn n, window := some w, addr := a, bytes := atomBytes ty, local_ := x }
            (aopNum op + field (atypeNum ty) 4 3 + field (l.length - 1) 7 6) a
            (l.flatMap (fun l => leBytes 8 l.sb ++ leBytes 8 l.sc)) (fun _ => false) false false).1), true)
      | _, _ =>
        let a := windowRemote s w t.hpa
        ((sendMessage s p { ptype := ptReadReq, client := .txn n, window := some w, addr := a, bytes := t.bytes } 0 a (leBytes 4 t.bytes)
          (fun _ => false) false false).1, true)

/-! ### MASTER_PORT_ISSUE (10 R271–R280) -/

/-- A transaction enters the NoC. -/
def enterTxn (s : State) (n : Nat) (t : Txn) : State :=
  noteIssue (modTxn s n (fun t => { t with phase := .issued, charged := true, missed := false })) t.master t.tag t.hpa

/-- The port's oldest waiting transaction is issued when its route is not held, its master is not HELD and the pool grants
its units. -/
def execMasterPortIssue (master : Nat) (s : State) : Host.Outcome State Fault Refusal :=
  match waitingAt s master with
  | [] => .next s
  | (n, t) :: _ =>
    if routeHeld s t ∨ 2 * (masterOf s master).budget < outUnits s master + t.units ∨ !poolGrant s master t.units then .next s
    else
      match admitOne s t.tag (txnWrites t) t.hpa with
      | .ok (.attic site) => .next (pumpSite (enterTxn s n t) site)
      | .ok (.peer w) =>
        match forwardPeer (enterTxn s n t) w n t with
        | (s', true) => .next s'
        | (_, false) => .next (countCreateWait s)
      | _ => .next (enterTxn s n t)

/-! ### SHELF_ACCESS and FAR_TIER_ACCESS (08 R217–R224, R230–R233; 12 R319) -/

/-- A transaction has arrived at its home: its place in the order of arrival there. -/
def arriveTxn (s : State) (n : Nat) (t : Txn) (under : Bool) : State :=
  if t.accepted then s
  else
    let i := s.cells.nextId
    modTxn { s with cells := { s.cells with nextId := i + 1 } } n (fun t => { t with accepted := true, arrived := i, underShelf := under })

/-- A transaction is held at its home's ingress. -/
def holdTxn (s : State) (n : Nat) : State := modTxn s n (fun t => { t with phase := .shelfHeld })

/-- A transaction that arrived earlier waits for the same line, for the same channel, or for the same partition's
regulator (08 R218, R219, 10 R281). -/
def overtakes (s : State) (n k : Nat) (t : Txn) : Bool :=
  s.mem.txns.any (fun e => e.1 != n && e.2.accepted && e.2.phase != .done && e.2.arrived < t.arrived
    && ((e.2.hpa / 128 == t.hpa / 128 && !givesBack t)
      || (e.2.phase == .shelfHeld && placeOf s e.2.hpa == .shelf k
        && (channelOf (e.2.hpa % shelfSize) == channelOf (t.hpa % shelfSize) || shelfPartition s e.2 == shelfPartition s t))))

/-- A transaction needs a new entry of a full write-combining buffer, none of whose entries may go (08 R221). -/
def wcbWaits (s : State) (home : Home) (t : Txn) : Bool :=
  !wcbRoom s home (t.hpa / 128)
    && (t.kind == .atomic || (t.kind == .write && [0, 1].any (fun h => let b := halfBytes t.data h; !b.isEmpty && b.length != 64)))

/-- The access itself at a shelf or a far-tier port: the directory's snoops, room in the directory and in the buffer, the
decode of what it reads, and its effect; then the flushes that it began. -/
def homeAccess (s : State) (home : Home) (n : Nat) (t : Txn) (lo hi : Ecc) : State :=
  match homeSnoops s n t with
  | (s, true) => s
  | (s, false) =>
    match dirReady s t with
    | (s, false) => s
    | (s, true) => if wcbWaits s home t then s else finishFlushes (performTxn (readSectors s t home lo hi) n t) home

/-- A shelf's regulator keeps a transaction out: the partition would be HELD, or the pool does not grant its units. -/
def shelfRefuses (s : State) (k p u : Nat) : Bool :=
  decide (2 * (shelfRegOf s k p).budget < shelfUnits s k p + u) || !shelfGrant s k p u

/-- The power manager's limit on a shelf's line transfers is used up for this fret (18 R510). -/
def shelfLimited (s : State) (k : Nat) : Bool := match s.pwr.shelfLimit with | some n => decide (n ≤ tget s.pwr.shelfLines k 0) | none => false

/-- A line transfer of a shelf counts while the limit is in force. -/
def countLine (s : State) (k : Nat) : State :=
  if s.pwr.shelfLimit.isNone then s else { s with pwr := { s.pwr with shelfLines := tmod s.pwr.shelfLines k 0 (· + 1) } }

/-- Charge a transaction to its shelf's regulator; scrub is charged to none. -/
def chargeShelf (s : State) (n k : Nat) (t : Txn) : State :=
  if t.master = 88 then s else modTxn s n (fun t => { t with shelfCharged := some (k * 16 + shelfPartition s t) })

/-- An access that has arrived at the shelf's controller: held while its channel, its bank, its shelf, its regulator, the power
manager or an earlier arrival holds it; then performed. -/
def shelfAccess (s : State) (k n : Nat) (t : Txn) (lo hi : Ecc) : State :=
  if shelfSleeps s k ∨ shelfHolds s t.hpa ∨ shelfLimited s k ∨ overtakes s n k t ∨ dieOvertakes s n t
      ∨ (t.master ≠ 88 ∧ t.shelfCharged.isNone ∧ shelfRefuses s k (shelfPartition s t) t.units) then holdTxn s n
  else
    let s := chargeShelf s n k t
    if channelDown s t.hpa then absorbTxn s n else homeAccess (countLine s k) (.shelf k) n t lo hi

/-- SHELF_ACCESS: the shelf's queue takes the access, unless another is arbitrated before it, and its controller serves it. -/
def execShelfAccess (txn : Nat) (lo hi : Ecc) (s : State) : Host.Outcome State Fault Refusal :=
  match txnOf s txn with
  | none => .next s
  | some t =>
    if (t.phase ≠ .issued ∧ t.phase ≠ .shelfHeld) ∨ t.lost then .next s
    else
      match admitOne s t.tag (txnWrites t) t.hpa with
      | .ok (.shelf k) =>
        if !arbitrated s txn t then .next s
        else
          let under := shelfUnits s k (shelfPartition s t) + t.units ≤ (shelfRegOf s k (shelfPartition s t)).effective
          let s := arriveTxn (wakeShelf s k) txn t under
          .next (match txnOf s txn with | some t => shelfAccess s k txn t lo hi | none => s)
      | .unmapped => .next (match placeOf s t.hpa with | .unmapped => if t.hpa < 12 * shelfSize then refuseTxn s txn t .unmapped else s | _ => s)
      | .firewall => .next (match placeOf s t.hpa with | .shelf _ => refuseTxn s txn t .firewall | _ => s)
      | _ => .next s

/-- The CXL.mem requests of 64 bytes that an access makes: MemRd for each sector it reads, MemWr for each whole sector it
writes (R230). -/
def farRequests (s : State) (p : Nat) (t : Txn) : Nat :=
  (readsSectors s t (.far p)).length
    + (if t.kind = .write then ([0, 1].filter (fun h => (halfBytes t.data h).length == 64)).length else 0)

/-- The device behind a decoder. -/
def farDevice (s : State) (p d : Nat) : Nat := (tget (farOf s p).decoders d {}).device

/-- Requests outstanding to a device: those of accesses whose completion has not returned. -/
def farOut (s : State) (p dev : Nat) : Nat :=
  sum ((s.mem.txns.filter (fun e => e.2.phase == .done && (match placeOf s e.2.hpa with
    | .far q d => q == p && farDevice s q d == dev
    | _ => false))).map (fun e => farRequests s p e.2))

def farRequestLimit := 1024

/-- An earlier access waits at the port for the same device. -/
def farWaits (s : State) (n p dev : Nat) (t : Txn) : Bool :=
  s.mem.txns.any (fun e => e.1 != n && e.2.phase == .shelfHeld && e.2.arrived < t.arrived && (match placeOf s e.2.hpa with
    | .far q d => q == p && farDevice s q d == dev
    | _ => false))

/-- An access that has arrived at a far-tier port: it waits in arrival order while its device has no room; a failed
device's reads are poison and its writes are discarded (R230, R234). -/
def farAccess (s : State) (p d n : Nat) (t : Txn) (lo hi : Ecc) : State :=
  if (tget (farOf s p).decoders d {}).failed then absorbTxn s n
  else if overtakes s n 12 t ∨ dieOvertakes s n t ∨ farWaits s n p (farDevice s p d) t
      ∨ farRequestLimit < farOut s p (farDevice s p d) + farRequests s p t then holdTxn s n
  else homeAccess s (.far p) n t lo hi

/-- FAR_TIER_ACCESS: the port of the decoder takes the access, unless another is arbitrated before it. -/
def execFarTierAccess (txn : Nat) (lo hi : Ecc) (s : State) : Host.Outcome State Fault Refusal :=
  match txnOf s txn with
  | none => .next s
  | some t =>
    if (t.phase ≠ .issued ∧ t.phase ≠ .shelfHeld) ∨ t.lost ∨ t.hpa < farBase ∨ 2 * farBase ≤ t.hpa then .next s
    else
      match admitOne s t.tag (txnWrites t) t.hpa with
      | .ok (.far p d) =>
        if !arbitrated s txn t then .next s
        else
          let s := arriveTxn s txn t false
          .next (match txnOf s txn with | some t => farAccess s p d txn t lo hi | none => s)
      | .ok _ => .next s
      | r => .next (refuseTxn s txn t r)

/-! ### TRANSACTION_COMPLETION_RETURN (10 R272, R279; 16 R467) -/

/-- The error of a transaction reaches the loads of a core that wait for a fill. -/
def failLoads (s : State) (k i code addr : Nat) : State :=
  modCore s k (fun x => { x with loads := tmap x.loads (fun _ r =>
    if r.need.contains i && r.error.isNone then { r with error := some code, errAddr := addr } else r) })

/-- Bytes that a read of a job has fetched, with their poison. -/
def stageBytes (t : Txn) (j : MoverJob) (b : Tab Byte) (pz : Nat) : MoverJob :=
  { j with
    stage := b.foldl (fun (r : Tab Byte) (x : Nat × Byte) => tset r (t.hpa + x.1) x.2) j.stage
    stagePoison := (List.range 4).foldl (fun (l : List Nat) q =>
      if bitAt pz q && !l.contains (t.hpa / 32 + q) then (t.hpa / 32 + q) :: l else l) j.stagePoison }

/-- The hub completes a die's request (12 R317). -/
def dieAnswered (s : State) (site id : Nat) (t : Txn) : State :=
  let st := if t.error.isSome then 2 else if t.resultPoison ≠ 0 then 1 else 0
  let s := match t.error with
    | some code => logErr s { severity := .accessError, unitClass := ucAttic, unitIndex := site, code := code
                              partition := errPartition t.tag, address := t.hpa }
    | none => s
  let data := if t.error.isSome then [] else match t.kind with
    | .read => (List.range (roundUp t.bytes 32)).map (fun i => tget t.result i 0)
    | .atomic => leBytes 32 (match t.values with | (_, v) :: _ => v | [] => 0)
    | _ => []
  sendAtp s site { opcode := 0x11, txn := id, len := data.length / 32, status := st, data := data }

/-! ### Accesses of the host (08 R239, Table 8-2) -/

/-- A refusal of the host's access: a firewall refusal is recorded (15 R419), and a write to an address that nothing maps
is logged as an Unsupported Request under Advanced Error Reporting. -/
def hostRefused (s : State) (write : Bool) (hpa : Nat) (firewall : Bool) : State :=
  if firewall then logErr s { severity := .accessError, unitClass := ucHostPort, code := ecFirewall, address := hpa }
  else if write then { s with boot := { s.boot with aerUnsupported := true } } else s

/-- A read of the host completes once its lines are there and the posted writes before it are at home. -/
def hostReadDone (s : State) (i : Nat) : State :=
  match tfind s.mem.hostReads i with
  | none => s
  | some r =>
    if !r.after.isEmpty ∨ !r.lines.isEmpty then s
    else
      let s := { s with mem := { s.mem with hostReads := tdel s.mem.hostReads i } }
      if r.unsupported then emit s .unsupported
      else
        let units := (List.range ((r.hpa + r.bytes + 31) / 32 - r.hpa / 32)).filter (fun u => r.bad.contains (r.hpa / 32 + u))
        emit s (.readData r.bus ((List.range r.bytes).map (fun k => tget r.data (r.hpa + k) 0)) (maskOf units))

/-- A posted write of the host is at home: reads and register writes that follow it may go on. -/
def hostWritten (s : State) (n : Nat) (t : Txn) : State :=
  let s := match t.error with | some code => hostRefused s true t.hpa (code == ecFirewall) | none => s
  let s := { s with mem := { s.mem with hostReads := tmap s.mem.hostReads (fun _ r => { r with after := r.after.filter (· != n) }) } }
  releaseHeld (forEach (tkeys s.mem.hostReads) s hostReadDone)

/-- A line of a read of the host has come back. -/
def hostLineRead (s : State) (i n : Nat) (t : Txn) : State :=
  let s := match t.error with | some code => hostRefused s false t.hpa (code == ecFirewall) | none => s
  let pz := (List.range 4).filter (fun q => bitAt t.resultPoison q)
  hostReadDone { s with mem := { s.mem with hostReads := tmodIf s.mem.hostReads i (fun r => { r with
    lines := r.lines.filter (· != n), unsupported := r.unsupported || t.error.isSome
    data := t.result.foldl (fun (d : Tab Byte) (b : Nat × Byte) => tset d (t.hpa + b.1) b.2) r.data
    bad := (r.bad ++ pz.map (fun q => t.hpa / 32 + q)).eraseDups }) } } i

/-- A write or atomic of a cellar ended without its effect: every release that waits for it fails, and stops its step, so that
no ordering is passed over in silence (04 R115). -/
def failReleases (s : State) (n : Nat) (t : Txn) : State :=
  if 64 ≤ t.master ∨ !(t.absorbed || t.error.isSome) then s
  else forEach ((List.range 64).map (t.master * 64 + ·)) s (fun s k =>
    if (coreOf s k).releases.any (fun e => !e.2.done && e.2.txns.contains n) then coreError s k (t.error.getD ecPoisonConsumed) t.hpa
    else s)

/-- The completion of a transaction reaches whom it serves. -/
def returnTxn (s : State) (n : Nat) (t : Txn) : State :=
  let off := t.hpa % 128
  let s := failReleases s n t
  match t.client with
  | .none =>
    match t.error with
    | none => s
    | some code =>
      if t.master < 64 ∧ t.kind = .write then
        logErr s { severity := .accessError, unitClass := ucCellarBuffer, unitIndex := t.master, code := code
                   partition := errPartition t.tag, address := t.hpa, cellarEpoch := (cellarOf s t.master).epoch }
      else s
  | .cellarFill c l =>
    if t.epoch ≠ (cellarOf s c).epoch then s
    else
      let waiters := (tget (cellarOf s c).fills l {}).waiters
      let s := match t.error with
        | some code => forEach waiters s (fun s w => failLoads s w.1 w.2 code t.hpa)
        | none => s
      let bad := t.error.isSome
      let data : Tab Byte := t.result.map (fun x => (off + x.1, x.2))
      let pz := if bad then 15 else t.resultPoison * 2 ^ (off / 32) % 16
      let valid := if data.isEmpty then fullMask else maskOfBytes data
      modCellar s c (fun x => { x with fills := tmodIf x.fills l (fun f =>
        { f with ready := true, data := data, valid := valid, poison := pz, suppress := f.suppress || bad }) })
  | .coreLoad k l =>
    let s := match t.error with | some code => failLoads s k l code t.hpa | none => s
    modFill s k l (fun f => { fillComes f t.result fullMask (if t.error.isSome then 15 else t.resultPoison) with
      suppress := f.suppress || t.error.isSome })
  | .writeBack _ _ => s
  | .coreAtomic k id =>
    modCore s k (fun x => { x with loads := tmodIf x.loads id (fun r => { r with
      need := r.need.filter (· != n), values := r.values ++ t.values, wins := r.wins ++ t.wins
      poison := r.poison || t.resultPoison != 0
      error := match r.error with | some e => some e | none => t.error
      errAddr := if r.error.isNone ∧ t.error.isSome then t.hpa else r.errAddr }) })
  | .moverRead c st part =>
    let id := st * 1024 + part
    let bad := t.error.isSome || (t.result.isEmpty && t.resultPoison != 0)
    let b : Tab Byte := if t.result.isEmpty then (List.range t.bytes).map (fun i => (i, 0)) else t.result
    match t.error with
    | some code =>
      if pagerUnit ≤ c then modJob s c id (fun j => stageBytes t j b 15) else moverError s c id code t.hpa
    | none => modJob s c id (fun j => stageBytes t j b (if bad then 15 else t.resultPoison))
  | .moverWrite c st part =>
    match t.error with
    | some code => if pagerUnit ≤ c then s else moverError s c (st * 1024 + part) code t.hpa
    | none => routeListed s c (st * 1024 + part)
  | .chord p msg _ =>
    let m := incomingOf s p msg
    match t.kind, t.atom with
    | .write, _ =>
      if t.error.isNone ∨ m.refused then settleIncoming s p msg
      else settleIncoming (sendNack (modIncoming s p msg (fun m => { m with refused := true })) p msg csRemoteAccess) p msg
    | .atomic, some (op, _) =>
      let k := t.lanes.length
      let s := dropIncoming s p msg
      if t.error.isSome ∨ t.resultPoison ≠ 0 then
        sendReply s p ptAtomicRsp msg 1 0 (List.replicate (8 * k) 0) (fun _ => false)
      else sendReply s p ptAtomicRsp msg 0 0 (atomicRspBytes op k t.values t.wins) (fun _ => false)
    | _, _ =>
      let inside := fun (i : Nat) => m.addr ≤ t.hpa + i && t.hpa + i < m.addr + m.bytes
      let pz := if t.error.isSome then 15 else t.resultPoison
      let bad := ((List.range t.bytes).filter (fun i => inside i && bitAt pz (i / 32))).map (fun i => (t.hpa + i - m.addr) / 256)
      let s := modIncoming s p msg (fun m => { m with
        data := (t.result.filter (fun x => inside x.1)).foldl (fun (r : Tab Byte) x => tset r (t.hpa + x.1 - m.addr) x.2) m.data
        bad := (m.bad ++ bad).eraseDups })
      settleIncoming s p msg
  | .coreReg k id =>
    let line := t.hpa / 128
    let more := s.mem.txns.any (fun e => e.2.client == t.client && e.2.hpa / 128 == line)
    modCore s k (fun x => { x with loads := tmodIf x.loads id (fun r => { r with
      need := if more then r.need else r.need.filter (· != line)
      got := t.result.foldl (fun (g : Tab Byte) (b : Nat × Byte) => tset g (t.hpa + b.1) b.2) r.got
      poison := r.poison || t.resultPoison != 0 }) })
  | .dieBack site id => dieAnswered s site id t
  | .die site id => dieAnswered s site id t
  | .hostWrite => hostWritten s n t
  | .hostRead r => hostLineRead s r n t

/-- A transaction of a Chord receive path has completed: what waits for it in the receive buffer may leave. -/
def placedTxn (s : State) (n : Nat) (t : Txn) : State := if 72 ≤ t.master ∧ t.master < 84 then placedRx s (t.master - 72) n else s

/-- A completion returns to its master port: its units are released, and it serves its client.  The homes inside a cellar
and the register block perform the transaction as it returns. -/
def execTransactionCompletionReturn (txn : Nat) (s : State) : Host.Outcome State Fault Refusal :=
  match txnOf s txn with
  | none => .next s
  | some t =>
    let finish := fun (s : State) =>
      match txnOf s txn with
      | none => s
      | some t =>
        if t.phase ≠ .done then s
        else placedTxn (returnTxn { s with mem := { s.mem with txns := tdel s.mem.txns txn } } txn t) txn t
    if t.phase = .done then .next (finish s)
    else if t.phase ≠ .issued ∨ t.lost ∨ t.remote.isSome ∨ dieOvertakes s txn t ∨ overtakes s txn 12 t ∨ !arbitrated s txn t then .next s
    else
      match admitOne s t.tag (txnWrites t) t.hpa with
      | .ok (.register off) =>
        if txnWrites t then .next (finish (refuseTxn s txn t .unmapped))
        else
          let v := if t.tag = tagDevice then View.host else .partition t.tag
          .next (finish (txnDone s txn (fun t => { t with result := (leBytes t.bytes (readReg s v off t.bytes)).zipIdx.map (fun b => (b.2, b.1)) })))
      | .ok (.scratch _) =>
        match homeSnoops (arriveTxn s txn t false) txn t with
        | (s, true) => .next s
        | (s, false) =>
          match dirReady s t with
          | (s, false) => .next s
          | (s, true) => .next (finish (performTxn s txn t))
      | .ok (.coreStore _) => .next (finish (performTxn s txn t))
      | .ok _ => .next s
      | r => .next (finish (refuseTxn s txn t r))

/-- NOC_HEADER_FLIT_TIMEOUT (17 Table 17-2): a transaction whose header flit was discarded is completed with poison by its
master port. -/
def execNocHeaderFlitTimeout (txn : Nat) (s : State) : Host.Outcome State Fault Refusal :=
  match txnOf s txn with
  | none => .next s
  | some t => .next (if t.lost ∧ t.phase = .issued then absorbTxn s txn else s)

/-! ### GUARANTEE_MISS (10 R286) -/

/-- A transaction that its target queue has not accepted: it waits at its port, on its way, or at its home's ingress. -/
def awaitsHome (t : Txn) : Bool := t.phase == .waiting || t.phase == .shelfHeld || onTheWay t

/-- A transaction under guarantee has waited more than MISS_THRESHOLD cycles that count, `cycles` of them in all. -/
def execGuaranteeMiss (txn : Nat) (atShelf : Bool) (cycles : Nat) (s : State) : Host.Outcome State Fault Refusal :=
  match txnOf s txn with
  | none => .next s
  | some t =>
    if cycles ≤ missThreshold ∨ (s.time.fret = 63 ∧ s.time.backgroundEn) then .next s
    else
      if !atShelf then
        if t.missed ∨ !awaitsHome t ∨ !t.underPort ∨ (t.phase = .shelfHeld ∧ shelfHolds s t.hpa) then .next s
        else .next (modMaster (modTxn s txn (fun t => { t with missed := true })) t.master (fun x => { x with
          missNow := x.missNow + 1, missCyclesNow := satAdd 32 x.missCyclesNow cycles, missedCycles := satAdd 32 x.missedCycles cycles }))
      else
        match placeOf s t.hpa with
        | .shelf k =>
          if t.shelfMissed ∨ t.phase ≠ .shelfHeld ∨ !t.underShelf ∨ shelfHolds s t.hpa ∨ shelfSleeps s k then .next s
          else .next (modShelfReg (modTxn s txn (fun t => { t with shelfMissed := true })) k (shelfPartition s t) (fun x => { x with
            missNow := x.missNow + 1, missCyclesNow := satAdd 32 x.missCyclesNow cycles }))
        | _ => .next s

/-! ### The write-combining buffers, channels and devices -/

/-- WCB_AGE_FLUSH (08 R221, R222): 512 cycles have passed since the entry was allocated; or the read of an outstanding flush
ends. -/
def execWcbAgeFlush (home : Home) (line : Nat) (lo hi : Ecc) (s : State) : Host.Outcome State Fault Refusal :=
  .next (match (wcbOf s home).find? (fun e => e.line == line) with
    | none => s
    | some e => if wcbKept s home line then s else flushChecked s home e lo hi)

/-- SHELF_CHANNEL_RETRAIN (08 R218): new accesses to the channel are held. -/
def execShelfChannelRetrain (shelf channel : Nat) (s : State) : Host.Outcome State Fault Refusal :=
  .next (if 12 ≤ shelf ∨ 32 ≤ channel ∨ !bitAt s.boot.presentShelves shelf ∨ channelDown s (shelf * shelfSize + channel * 512) then s
         else modShelf s shelf (fun x => { x with held := setBit x.held channel }))

/-- SHELF_CHANNEL_RETRAINED (08 R218): the channel resumes, or is down for the session, with a record. -/
def execShelfChannelRetrained (shelf channel : Nat) (ok : Bool) (s : State) : Host.Outcome State Fault Refusal :=
  if !bitAt (shelfOf s shelf).held channel then .next s
  else
    let s := modShelf s shelf (fun x => { x with held := clearBit x.held channel })
    if ok then .next s
    else
      .next (logErr (modShelf s shelf (fun x => { x with chDown := setBit x.chDown channel })) {
        severity := .unitLost, unitClass := ucShelf, unitIndex := shelf, code := ecChannelDown, sub := channel })

/-- A far-tier address that a decoder maps, whichever port takes it. -/
def decoderHolds (d : FarDecoder) (hpa : Nat) : Bool := d.enable && decBase d ≤ hpa && hpa < decBase d + decSize d

/-- FAR_DEVICE_FAILED (08 R234; 09 R250): the device's decoders have failed, every request to it completes, and the pages on
it are LOST. -/
def execFarDeviceFailed (port device : Nat) (s : State) : Host.Outcome State Fault Refusal :=
  let mine := (farOf s port).decoders.filter (fun e => e.2.enable && e.2.device == device)
  if 2 ≤ port ∨ 2 ≤ device ∨ !bitAt (farOf s port).devicesUp device then .next s
  else
    let s := modFar s port (fun x => { x with
      devicesUp := clearBit x.devicesUp device
      decoders := tmap x.decoders (fun _ d => if d.enable && d.device == device then { d with failed := true } else d) })
    let s := forEach s.mem.txns s (fun s e =>
      match placeOf s e.2.hpa with
      | .far p d => if p = port ∧ mine.any (fun x => x.1 == d) ∧ e.2.phase ≠ .waiting then absorbTxn s e.1 else s
      | _ => s)
    let s := logErr s { severity := .unitLost, unitClass := ucFarPort, unitIndex := port, code := ecFarDeviceFailed, sub := device }
    .next (losePages s (fun r page => r.tier == 2 && mine.any (fun x => decoderHolds x.2 (page * 0x10000))))

end Sys2Proof.Machine
end

