-- ==== Sys2Proof/Machine/AtticPort.lean ====
section
/-! DEFINITION. Attic ports: their events, links and lanes, bring-up, resets, and the loss of a die (spec 12 R309–R314,
R329–R334, R338). -/
namespace Sys2Proof.Machine

/-- Kinds of the sideband messages that the hub sends, beside POWER_GRANT. -/
def sbHubCap := 1
def sbLaneMap := 2
def sbPowerDown := 3
def sbDieReset := 4
def sbPowerGrant := 0x53

/-- REASON of ATTIC_PORT_DOWN (Table 12-11). -/
def downVersion := 1
def downCapability := 2
def downProfile := 3
def downNoProfile := 4
def downWidth := 5
def downLost := 6
def downTraining := 7
def downTimeout := 8

/-! ### Events (R338) -/

/-- The detail of ATTIC_PORT_DOWN and ATTIC_WIDTH_REDUCED. -/
def atticDetail (x : Site) (site reason poisoned absorbed t : Nat) : Nat :=
  field site 64 3 + field reason 72 4 + field x.attempts 76 4 + field x.modulesUp 80 8 + field x.modulesHalf 88 8
    + field x.dieEpoch 96 32 + field poisoned 128 32 + field absorbed 160 32 + field t 256 64

/-- Raise an event of a site to its partition, or the device context, and to management. -/
def raiseAttic (s : State) (e : EventCode) (site reason poisoned absorbed : Nat) : State :=
  let p := siteOwner s site
  let src := source ucAttic site
  let f := atticDetail (siteOf s site) site reason poisoned absorbed
  raiseMgmt (raiseTo s p e src f) p e src f

/-! ### Lanes and links (R329, R330) -/

/-- The failed lanes that the repair map of a site names for a module (16 R462). -/
def mapLanes (s : State) (site k : Nat) : List Nat :=
  match (siteFuse s site).map with
  | none => []
  | some w =>
    let m := bits (nth w (k / 2) 0) (32 * (k % 2)) 28
    ((List.range 4).filterMap (fun i => if bitAt m (7 * i + 6) then some (bits m (7 * i) 6) else none)).eraseDups

/-- The repaired lanes of a module, as REPAIRED lists them. -/
def repairEntries (l : List Nat) : Nat :=
  (l.zipIdx.map (fun (e : Nat × Nat) => field (2 ^ 11 + e.1) (12 * e.2) 12)).foldl (· + ·) 0

/-- A module's lanes from the failures its map names and those its test finds; `die` is the WIDTH that the die reports after
maps that differ, and 3 otherwise: the narrower result is taken, and the hub's half where both run at half width (R329, R330,
R332). -/
def moduleLanes (named : List Nat) (found die : Nat) : AtticLanes :=
  let all := named ++ (maskBits found 64).filter (fun l => !named.contains l)
  let inHalf := fun (h : Nat) => all.filter (fun l => l / 32 == h)
  let h := if all.length ≤ 4 then die - 1 else if (inHalf 1).length < (inHalf 0).length then 1 else 0
  if die = 0 then { width := 0, spares := 0, failed := found, repaired := 0 }
  else if all.length ≤ 4 ∧ die = 3 then { width := 3, spares := all.length, failed := found, repaired := repairEntries all }
  else if (inHalf h).length ≤ 4 then
    { width := 1 + h, spares := (inHalf h).length, failed := found, repaired := repairEntries (inHalf h) }
  else { width := 0, spares := 0, failed := found, repaired := 0 }

/-- Lanes that a WIDTH runs on. -/
def widthLanes (w : Nat) : Nat := if w = 3 then 64 else if w = 0 then 0 else 32

/-- Lanes of one link: its modules that are up, at the width of the narrowest. -/
def linkLanes (l : Tab AtticLanes) (b : Bool) : Nat :=
  let w := ((if b then [4, 5, 6, 7] else [0, 1, 2, 3]).map (fun k => widthLanes (tget l k {}).width)).filter (· != 0)
  w.length * w.foldl min 64

/-- Lanes of a site per direction, over the links that are up. -/
def siteLanes (x : Site) : Nat := (if x.linkA then linkLanes x.lanes false else 0) + (if x.linkB then linkLanes x.lanes true else 0)

/-- New failures go into the defect list. -/
def recordLanes (s : State) (site : Nat) (found : List Nat) : State :=
  found.zipIdx.foldl (fun (s : State) (e : Nat × Nat) =>
    let named := mapLanes s site e.2
    forEach ((maskBits e.1 64).filter (fun l => !named.contains l)) s (fun s l =>
      addDefect s { kind := dkAtticLane, quadrant := physSite s site / 2, unit := physSite s site % 2, sub := e.2 * 64 + l })) s

/-- The lane test of an attempt: the repair map is applied, and a reduced width is reported. -/
def applyLanes (s : State) (site : Nat) (test : LaneTest) : State :=
  let x := siteOf s site
  let before := if x.lanes.isEmpty then 512 else siteLanes x
  let lanes : Tab AtticLanes := (List.range 8).map (fun k =>
    let die : Nat × Nat := nth x.laneMerge k (3, 0)
    let l := moduleLanes (mapLanes s site k) (Nat.lor (nth test.failed k 0 % 2 ^ 64) die.2) (die.1 % 4)
    (k, { l with failed := Nat.lor l.failed (tget x.lanes k {}).failed }))
  let up := maskOf ((List.range 8).filter (fun k => (tget lanes k {}).width != 0))
  let half := maskOf ((List.range 8).filter (fun k => (tget lanes k {}).width == 1 || (tget lanes k {}).width == 2))
  let s := modSite s site (fun x => { x with
    lanes := lanes, modulesUp := up, modulesHalf := half, linkA := up % 16 != 0, linkB := up / 16 != 0 })
  let s := recordLanes s site (test.failed.take 8)
  if siteLanes (siteOf s site) < 512 ∧ 512 ≤ before then raiseAttic s .atticWidthReduced site 0 0 0 else s

/-! ### Bring-up (R311–R314) -/

/-- HUB_CAP. -/
def hubCap (s : State) (site : Nat) : Nat :=
  0x10 + field (b2n Config.cxlOk) 8 1 + field site 16 6 + field 4095 22 12 + field (siteOwner s site) 64 32
    + field s.boot.fuses.serial 96 64

/-- An attempt begins at step 1.  After a port reset the capability exchange follows the lane maps. -/
def beginAttempt (s : State) (site : Nat) : State :=
  let s := modSite s site (fun x => { x with lanesAgreed := false, laneMerge := [], disagreements := 0 })
  if (siteOf s site).afterReset then s else emit s (.sideband site sbHubCap (hubCap s site))

/-- A site whose rail is good, whose domain is on, and that has not left the present mask or been found unfitted, comes up. -/
def beginBringUp (s : State) (site : Nat) (retrain : Bool) : State :=
  let x := siteOf s site
  if x.unfitted ∨ (x.everUp ∧ !x.present) ∨ !bitAt s.boot.atticRails (physSite s site) ∨ !domainLive s (domAttic site) then s
  else
    let s := { s with boot := { s.boot with atticResetLow := clearBit s.boot.atticResetLow site } }
    beginAttempt (modSite s site (fun x => { x with astate := if retrain then .retraining else .training, attempts := 1 })) site

/-- What a port that goes down does with its site: it leaves the present mask. -/
def leaveMask (s : State) (site : Nat) : State :=
  if !(siteOf s site).present then s
  else
    let s := modSite s site (fun x => { x with present := false })
    bumpConfig { s with boot := { s.boot with atticsDown := satInc 8 s.boot.atticsDown } }

/-! ### The loss of a die (R334) -/

/-- A hub request to a die ends without its answer: reads and atomics poisoned, writes discarded, with a record. -/
def absorbWindow (s : State) (site : Nat) (record : Bool) (e : Nat × WindowReq) : State :=
  let q := e.2
  let s := modSite s site (fun x => { x with windowReqs := tdel x.windowReqs e.1 })
  let s := if !(record || (q.opcode == 0x42)) then s else
    logErr s { severity := .accessError, unitClass := ucAttic, unitIndex := site, code := ecAccessError
               partition := errPartition (siteOwner s site), address := q.address }
  match q.txn with
  | none => s
  | some n =>
    match txnOf s n with
    | none => s
    | some t => if t.phase = .done then s else absorbTxn s n

/-- Reclaim one directory entry of a lost die: an OWNED line takes poison, with a record. -/
def reclaimEntry (s : State) (site line : Nat) (e : DirEntry) : State × Nat :=
  let put := fun (s : State) (x : Option DirEntry) => { s with attic := { s.attic with dir := match x with
    | some y => tset s.attic.dir line y
    | none => tdel s.attic.dir line } }
  if e.owner = some site then
    let s := forEach [0, 1] s (fun s h => if bitAt (siteHalves e site) h then writePoisonRange s (line * 128 + 64 * h) 64 else s)
    let s := logErr s { severity := .poisonWritten, unitClass := ucAttic, unitIndex := site, code := ecAtticLinePoisoned
                        partition := errPartition (siteOwner s site), address := line * 128 }
    (put s none, 1)
  else if bitAt e.sharers site then
    let e := { e with sharers := clearBit e.sharers site, halves := e.halves - field (siteHalves e site) (2 * site) 2 }
    (put s (if e.sharers = 0 then none else some e), 0)
  else (s, 0)

/-- The answers that a site owes count as given, with no data. -/
def endSnoops (s : State) (site : Nat) : State :=
  { s with attic := { s.attic with snoops := (tmap s.attic.snoops (fun _ x =>
      { x with sites := x.sites.filter (fun k => k % 8 != site) })).filter (fun e => !e.2.sites.isEmpty || e.2.txn.isSome) } }

/-- Every request of a die that has no answer yet is dropped; what a home has accepted stands. -/
def dropDieRequests (s : State) (site : Nat) : State :=
  let mine := fun (r : Requester) => match r.who with | .attic t _ => t == site | _ => false
  let askers := ((s.trans.walks.flatMap (fun e => e.2.requesters)) ++ (s.trans.faults.flatMap (fun e => e.2.requesters))
    ++ s.trans.waiting.map (·.2) ++ s.trans.failures.map (·.1)).filter mine
  let s := forEach askers s (fun s r => detach s r.who)
  let s := { s with mem := { s.mem with txns := (s.mem.txns.filter (fun e =>
      !(txnSite e.2 == some site && e.2.phase != .done))).map (fun (e : Nat × Txn) =>
        if txnSite e.2 = some site then (e.1, { e.2 with client := .none, dir := .none }) else e) } }
  modSite s site (fun x => { x with held := [] })

/-- A part on a die ends with POISONED. -/
def poisonPart (s : State) (site : Nat) (p : AtticPart) : State :=
  let s := modSite s site (fun x => { x with parts := x.parts.filter (fun q => !(q.step == p.step && q.part == p.part)) })
  partDone (failStep s p.step .poisoned 0) p.step p.part

/-- The pegs forget the waits of a die. -/
def dropPegWaits (s : State) (site : Nat) : State :=
  let s := { s with cells := { s.cells with pegs := tmap s.cells.pegs (fun _ p =>
    { p with waiters := p.waiters.filter (fun w => match w.attic with | some (t, _) => t != site | none => true) }) } }
  forEach (tkeys s.cells.pegs) (modSite s site (fun x => { x with pegWaits := [] })) serveWaiters

/-- What the hub does when a die is gone: steps 1 to 4, with the lines poisoned and the requests absorbed. -/
def dieGone (s : State) (site : Nat) : State × Nat × Nat :=
  let s := modSite s site (fun x => { x with astate := .down })
  let reqs := (siteOf s site).windowReqs
  let s := forEach reqs s (fun s e => absorbWindow s site false e)
  let waiting := s.mem.txns.filter (fun e => e.2.phase == .issued && e.2.remote.isNone && placeOf s e.2.hpa == .attic site)
  let s := forEach waiting s (fun s e => forwardWindow s site e.1 e.2)
  let (s, n) := s.attic.dir.foldl (fun (r : State × Nat) (e : Nat × DirEntry) =>
    let (s, k) := reclaimEntry r.1 site e.1 e.2
    (s, r.2 + k)) (s, 0)
  let s := endSnoops s site
  let s := forEach (siteOf s site).parts s (fun s p => poisonPart s site p)
  let s := dropDieRequests (dropPegWaits s site) site
  (s, n, reqs.length + waiting.length)

/-- A port reset counts, and the next bring-up exchanges lane maps. -/
def countPortReset (s : State) (site : Nat) : State :=
  modSite s site (fun x => { x with portResets := satInc 16 x.portResets, afterReset := true })

/-- A die reset under R331: what the die held is gone, ATTIC_RESET_N pulses, and the port comes up again. -/
def dieReset (s : State) (site : Nat) : State :=
  let (s, _, _) := dieGone s site
  let s := emit (countPortReset s site) (.sideband site sbDieReset 0)
  beginBringUp s site false

/-- The die of a site is lost: R334 whole, then bring-up with a die reset. -/
def dieLost (s : State) (site : Nat) : State :=
  let (s, n, k) := dieGone s site
  let s := modSite s site (fun x => { x with lastReason := downLost })
  let s := countPortReset (raiseAttic s .atticPortDown site downLost n k) site
  beginBringUp (emit s (.sideband site sbDieReset 0)) site false

/-- A retrain without a die reset (R331). -/
def retrain (s : State) (site : Nat) : State := beginBringUp (countPortReset s site) site true

/-! ### The end of an attempt -/

/-- A port stays down: its site leaves the present mask, and the event is raised. -/
def portDown (s : State) (site reason : Nat) : State :=
  let (s, n, k) := dieGone s site
  raiseAttic (leaveMask s site) .atticPortDown site reason n k

/-- An attempt fails: two more follow, and after the third the port stays down (R311). -/
def failAttempt (s : State) (site reason : Nat) : State :=
  let s := modSite s site (fun x => { x with lastReason := reason })
  if 3 ≤ (siteOf s site).attempts then portDown s site reason
  else beginAttempt (modSite s site (fun x => { x with attempts := x.attempts + 1 })) site

/-- A port is in an attempt. -/
def inAttempt (s : State) (site : Nat) : Bool :=
  site < 8 && ((siteOf s site).astate == .training || (siteOf s site).astate == .retraining)
    && !s.boot.stopped && !s.boot.coldResetLow

/-- Why the capability of a die is refused at step 5 or 6. -/
def capRefused (s : State) (site : Nat) (c : DieCap) : Option Nat :=
  let f := siteFuse s site
  let w := f.profile.getD 0
  if c.version / 16 ≠ 1 then some downVersion
  else if (c.cxl ∧ !Config.cxlOk) ∨ (c.cxl ∧ (c.executor ∨ c.preempt ∨ c.urgency)) ∨ c.maxOutstanding < 15 ∨ 4095 < c.maxOutstanding
      ∨ (c.windowLog2 ≠ 0 ∧ (c.windowLog2 < 30 ∨ 38 < c.windowLog2)) then some downCapability
  else if f.profile.isNone then some downNoProfile
  else if c.dieId ≠ f.dieId ∨ (c.cxl ∧ !bitAt w 0) ∨ (c.caching ∧ !bitAt w 1) ∨ (c.staticPriority ∧ !bitAt w 2)
      ∨ (c.executor ∧ !bitAt w 3) ∨ bits w 8 6 < c.windowLog2 ∨ bits w 16 16 < c.powerMax then some downProfile
  else none

/-- Step 7: the port is UP; what waited at it goes on. -/
def portUp (s : State) (site : Nat) (c : DieCap) (rate : Nat) : State :=
  let g := min (atticPowerOf s site).budget c.powerMax
  let s := modSite s site (fun x => { x with
    astate := .up, present := true, everUp := true, afterReset := false, cap := c, rate := rate, dieEpoch := c.dieEpoch
    reported := true, surplus := 0, within := 0 })
  let s := modAtticPower s site (fun a => { a with grant := g })
  let s := emit s (.sideband site sbPowerGrant (g + field s.time.boundaryTime 16 64))
  pumpSite s site

/-- The lanes of an attempt allow the port to run: a rate was found and a link is up. -/
def trained (x : Site) (rate : Nat) : Bool := (rate == 32 || rate == 24 || rate == 16) && (x.linkA || x.linkB)

/-- The answer of a die to HUB_CAP: steps 3 to 7 of the attempt. -/
def dieAnswers (s : State) (site : Nat) (c : DieCap) (test : LaneTest) : State :=
  let s := if (siteOf s site).afterReset then s else applyLanes s site test
  if !trained (siteOf s site) test.rate then failAttempt s site downTraining
  else
    let s := modSite s site (fun x => { x with dieEpoch := c.dieEpoch })
    match capRefused s site c with
    | some r => failAttempt s site r
    | none => portUp s site c test.rate

end Sys2Proof.Machine
end

