-- ==== Sys2Proof/Machine/Attic.lean ====
section
/-! DEFINITION. The messages of attic dies and the events of their ports (spec 12 R310–R337; 09 R264; 18 R511). -/
namespace Sys2Proof.Machine

/-! ### Taking a message -/

/-- The hub hears the die of a site. -/
def hearsDie (s : State) (site : Nat) : Bool :=
  site < 8 && ((siteOf s site).astate == .up || (siteOf s site).astate == .retraining) && domainLive s (domAttic site)
    && !s.boot.stopped && !s.boot.coldResetLow

/-- Every message of a native die with URGENCY carries its urgency (R325, 10 R276, R277). -/
def noteUrgency (s : State) (site : Nat) (m : AtpMsg) : State :=
  let c := (siteOf s site).cap
  if c.urgency ∧ !c.staticPriority ∧ !c.cxl then modMaster s (64 + site) (fun x => { x with urgency := m.urgency % 4 }) else s

/-- Complete a die's request. -/
def answerDie (s : State) (site txn status : Nat) (data : Bytes) : State :=
  sendAtp s site { opcode := 0x11, txn := txn, len := data.length / 32, status := status, data := data }

/-- A protocol error counts. -/
def protocolError (s : State) (site : Nat) : State :=
  modSite s site (fun x => { x with protocolErrors := satInc 16 x.protocolErrors })

/-- A malformed request is answered MALFORMED (R315). -/
def malformed (s : State) (site : Nat) (m : AtpMsg) : State := answerDie (protocolError s site) site m.txn 3 []

/-- A request whose address is refused: ACCESS_ERROR, with a record of the site's partition (R316, 15 R419). -/
def refuseDie (s : State) (site : Nat) (m : AtpMsg) (code addr : Nat) : State :=
  let s := logErr s { severity := .accessError, unitClass := ucAttic, unitIndex := site, code := code
                      partition := errPartition (siteOwner s site), address := addr }
  answerDie s site m.txn 2 []

/-- The fields of Table 12-4 that no request may leave. -/
def headerOk (m : AtpMsg) : Bool :=
  m.len ≤ 4 && m.txn < 4096 && m.urgency < 4 && m.scope < 6 && m.order < 4
    && (if m.host then m.address < 2 ^ 64 && m.pasid < 2 ^ 20 else m.address < 2 ^ 48)

/-- Take a message: while the port retrains it waits there (R331), with what the host answers to a read of its memory. -/
def takeAtp (s : State) (site op : Nat) (m : AtpMsg) (host : Fetch) (body : State → AtpMsg → State) : State :=
  if !hearsDie s site then s
  else
    let m := { m with opcode := op }
    let s := noteUrgency s site m
    if (siteOf s site).astate = .retraining then modSite s site (fun x => { x with held := x.held ++ [(m, host)] })
    else body s m

/-! ### Requests to memory (R316, R317, R319) -/

/-- What an HPA request of a die may name, beside the firewall: shelves, the far tier and scratch windows, and for uncached
requests peer windows and other sites' windows. -/
def dieMayName (s : State) (site : Nat) (cached : Bool) (hpa : Nat) : Bool :=
  match placeOf s hpa with
  | .shelf _ => true
  | .far _ _ => true
  | .scratch _ => true
  | .peer _ => !cached
  | .attic t => !cached && t != site
  | .coreStore _ => false
  | .register _ => false
  | .unmapped => true

/-- Put a request into the site's master port. -/
def dieTxn (s : State) (site : Nat) (m : AtpMsg) (t : Txn) : State :=
  (newTxn s { t with master := 64 + site, tag := siteOwner s site, client := .die site m.txn }).1

/-- A read that the die caches: a whole line, or a half of it from a CXL die. -/
def cachedRead (s : State) (site : Nat) (m : AtpMsg) (d : DirAct) : State :=
  let c := (siteOf s site).cap
  if !headerOk m ∨ m.host ∨ !c.caching then malformed s site m
  else if !dieMayName s site true m.address then refuseDie s site m ecAccessError m.address
  else
    let n := if c.cxl then 64 else 128
    dieTxn s site m { kind := .read, hpa := m.address / n * n, bytes := n, dir := d }

/-- The 32-byte units that a message covers lie in one line. -/
def unitsOk (m : AtpMsg) : Bool := 1 ≤ m.len && m.address % 32 == 0 && m.address % 128 + 32 * m.len ≤ 128

/-- An uncached read of hub memory. -/
def uncachedRead (s : State) (site : Nat) (m : AtpMsg) : State :=
  if !headerOk m ∨ !unitsOk m then malformed s site m
  else if !dieMayName s site false m.address then refuseDie s site m ecAccessError m.address
  else dieTxn s site m { kind := .read, hpa := m.address, bytes := 32 * m.len }

/-- The masked bytes of a write, by offset in the line. -/
def maskedBytes (m : AtpMsg) : Tab Byte :=
  let o := m.address % 128 / 32 * 32
  ((m.data.take (32 * m.len)).zipIdx.map (fun (x : Byte × Nat) => (o + x.2, x.1))).filter (fun x => x.1 < 128 && bitAt m.mask x.1)

/-- Data that a die marks POISON. -/
def diePoison (m : AtpMsg) : Nat := if m.status = 1 then 15 else 0

/-- An uncached write of hub memory. -/
def uncachedWrite (s : State) (site : Nat) (m : AtpMsg) : State :=
  if !headerOk m ∨ !unitsOk m then malformed s site m
  else if !dieMayName s site false m.address then refuseDie s site m ecAccessError m.address
  else dieTxn s site m { kind := .write, hpa := m.address / 128 * 128, bytes := 32 * m.len, data := maskedBytes m, poison := diePoison m }

/-- An atomic at the home of its address; its data hold the operand and the swap value. -/
def dieAtomic (s : State) (site : Nat) (m : AtpMsg) : State :=
  match aopOf m.aop, atypeOf m.atype with
  | some op, some ty =>
    if !headerOk m ∨ m.host ∨ m.len ≠ 1 ∨ !atomDefined op ty ∨ (siteOf s site).cap.cxl then malformed s site m
    else if !dieMayName s site false m.address ∨ m.address % atomBytes ty ≠ 0 then refuseDie s site m ecAccessError m.address
    else
      let w := 256 ^ atomBytes ty
      dieTxn s site m { kind := .atomic, hpa := m.address, bytes := atomBytes ty, atom := some (op, ty)
                        lanes := [{ addr := m.address, sb := leAt m.data 0 8 % w, sc := leAt m.data 8 8 % w }] }
  | _, _ => malformed s site m

/-- A line is given up, with its dirty bytes on a WB_DIRTY: its home takes the request before a snoop that it crosses (R320). -/
def giveUp (s : State) (site : Nat) (m : AtpMsg) (dirty : Bool) : State :=
  if !headerOk m ∨ m.host ∨ !(siteOf s site).cap.caching ∨ (dirty ∧ !unitsOk m) then malformed s site m
  else if !dieMayName s site true m.address then refuseDie s site m ecAccessError m.address
  else
    let t : Txn := if dirty then { kind := .write, bytes := 32 * m.len, data := maskedBytes m, poison := diePoison m } else { bytes := 0 }
    (newTxn s { t with hpa := m.address / 64 * 64, master := 64 + site, tag := siteOwner s site, client := .dieBack site m.txn }).1

/-- RD_SHARED. -/
def execRdShared (site : Nat) (m : AtpMsg) (s : State) : Host.Outcome State Fault Refusal :=
  .next (takeAtp s site 0x01 m .translation (fun s m => cachedRead s site m .shared))

/-- RD_OWN. -/
def execRdOwn (site : Nat) (m : AtpMsg) (s : State) : Host.Outcome State Fault Refusal :=
  .next (takeAtp s site 0x02 m .translation (fun s m => cachedRead s site m .own))

/-- WB_DIRTY. -/
def execWbDirty (site : Nat) (m : AtpMsg) (s : State) : Host.Outcome State Fault Refusal :=
  .next (takeAtp s site 0x05 m .translation (fun s m => giveUp s site m true))

/-- EVICT_CLEAN. -/
def execEvictClean (site : Nat) (m : AtpMsg) (s : State) : Host.Outcome State Fault Refusal :=
  .next (takeAtp s site 0x06 m .translation (fun s m => giveUp s site m false))

/-- ATOMIC. -/
def execAtpAtomic (site : Nat) (m : AtpMsg) (s : State) : Host.Outcome State Fault Refusal :=
  .next (takeAtp s site 0x07 m .translation (fun s m => dieAtomic s site m))

/-! ### Host memory (R316, 11 Table 11-3) -/

/-- The translation of a host request of a die: its request is issued again when a walk or fault it waits for has ended. -/
def dieTranslate (s : State) (site : Nat) (m : AtpMsg) (write : Bool) (body : State → Nat → State) : State :=
  if !headerOk m ∨ !unitsOk m ∨ (siteOf s site).cap.cxl then malformed s site m
  else
    match translate s m.pasid (siteOwner s site) m.address write (.attic site m.txn) with
    | (s, .wait) => s
    | (s, .failed _) => answerDie s site m.txn 2 []
    | (s, .ok out _) => body s out

/-- A read without caching: of hub memory, or of host memory, which answers `host`. -/
def plainRead (s : State) (site : Nat) (m : AtpMsg) (host : Fetch) : State :=
  if !m.host then uncachedRead s site m
  else dieTranslate s site m false (fun s _ =>
    let n := 32 * m.len
    match host with
    | .data b => answerDie s site m.txn 0 ((b ++ List.replicate n 0).take n)
    | .partly b bad =>
      answerDie (tlpPoison s (!bad.isEmpty)) site m.txn (if bad.isEmpty then 0 else 1) ((b ++ List.replicate n 0).take n)
    | .poison => answerDie (tlpPoison s true) site m.txn 1 (List.replicate n 0)
    | _ => refuseDie s site m ecAccessError m.address)

/-- A write without caching: a host write goes out run by run of its mask, and stays in flight until a flushing read
(11 R307). -/
def plainWrite (s : State) (site : Nat) (m : AtpMsg) : State :=
  if !m.host then uncachedWrite s site m
  else dieTranslate s site m true (fun s out =>
    let o := m.address % 128
    let s := forEach (runsOf (maskedBytes m)) s (fun s r =>
      let s := emit s (.hostWrite (out - o + r.1) r.2 (m.status == 1))
      (grantUse s (.attic site m.txn) { pasid := m.pasid, addr := m.address - o + r.1, bytes := r.2.length, write := true, out := out - o + r.1 }).1)
    answerDie s site m.txn 0 [])

/-- RD_NC: `host` is what the read of host memory returns. -/
def execRdNc (site : Nat) (m : AtpMsg) (host : Fetch) (s : State) : Host.Outcome State Fault Refusal :=
  .next (takeAtp s site 0x03 m host (fun s m => plainRead s site m host))

/-- WR_NC. -/
def execWrNc (site : Nat) (m : AtpMsg) (s : State) : Host.Outcome State Fault Refusal :=
  .next (takeAtp s site 0x04 m .translation (fun s m => plainWrite s site m))

/-! ### Pegs (R322) -/

/-- A message that names an address travels on the link of its HPA[8], or on the only link; one that names none on link A
while it is up. -/
def onLink (x : Site) (linkB : Bool) (addr : Option Nat) : Bool :=
  let only := !(x.linkA && x.linkB)
  only || (match addr with
    | some a => (bits a 8 1 == 1) == linkB
    | none => !linkB)

/-- Requests of the die that came before a peg operation on its link have not been performed (R317). -/
def pegOvertakes (s : State) (site : Nat) : Bool :=
  let x := siteOf s site
  s.mem.txns.any (fun e => txnSite e.2 == some site && e.2.phase != .done && onLink x (!x.linkA) (some e.2.hpa))

/-- A peg operation of a die: ARRIVE, WAIT, SIGNAL, RESET, READ.  One that cannot pass the site's port, or that earlier
requests precede, is not taken yet. -/
def diePeg (s : State) (site : Nat) (m : AtpMsg) : State :=
  let id := m.address % 2 ^ 32
  let n := leAt m.data 0 8 % 2 ^ 32
  if !headerOk m ∨ m.host ∨ 4 < m.aop ∨ (m.aop < 3 ∧ m.len ≠ 1) ∨ (siteOf s site).cap.cxl then malformed s site m
  else if !pegAllowed s (siteOwner s site) id then
    if pegCode s id = ecPoisonConsumed then answerDie s site m.txn 1 [] else answerDie s site m.txn 2 []
  else if pegOvertakes s site ∨ !pegPasses s (64 + site) id then s
  else pegDone (notePort s (64 + site)) id n
where
  /-- The operation, past the site's port. -/
  pegDone (s : State) (id n : Nat) : State :=
  if m.aop = 1 then
    pegWaitOp (modSite s site (fun x => { x with pegWaits := x.pegWaits ++ [m.txn] })) id { attic := some (site, m.txn), sb := n }
  else if m.aop = 3 then answerDie (pegResetOp s id) site m.txn 0 []
  else if m.aop = 4 then answerDie s site m.txn 0 (leBytes 32 (pegWord (pegOf s id)))
  else
    let r := pegResult (pegOf s id)
    answerDie (pegSignalOp s id n) site m.txn 0 (leBytes 32 r)

/-- PEG_OP. -/
def execPegOp (site : Nat) (m : AtpMsg) (s : State) : Host.Outcome State Fault Refusal :=
  .next (takeAtp s site 0x08 m .translation (fun s m => diePeg s site m))

/-! ### Step parts (R323, R324; 09 R264, Table 9-14) -/

/-- The part of a step slot that runs on a site. -/
def dieParts (s : State) (site slot : Nat) : List AtticPart := (siteOf s site).parts.filter (fun p => p.step == slot)

/-- A site no longer runs a part. -/
def releasePart (s : State) (site : Nat) (p : AtticPart) : State :=
  modSite s site (fun x => { x with parts := x.parts.filter (fun q => !(q.step == p.step && q.part == p.part)) })

/-- The CODE that a status of a part gives its step, if any. -/
def partCode (s : State) (slot status : Nat) : Option Status :=
  match status with
  | 0 => none
  | 3 => some .badField
  | 4 => some (((stepOf s slot).bind (·.stopCode)).getD .poisoned)
  | _ => some .poisoned

/-- A part has ended on its die. -/
def endDiePart (s : State) (site slot status : Nat) : State :=
  match dieParts s site slot with
  | [] => protocolError s site
  | p :: _ =>
    if 4 < status then protocolError s site
    else
      let s := partDone (releasePart s site p) slot p.part
      match partCode s slot status with
      | none => s
      | some c => failStep s slot c 0

/-- STEP_DONE of a die. -/
def execAtpStepDone (site : Nat) (m : AtpMsg) (s : State) : Host.Outcome State Fault Refusal :=
  .next (takeAtp s site 0x09 m .translation (fun s m => endDiePart s site m.txn m.status))

/-- A part has stopped and is saved on its die; one whose step has been stopped for good ends. -/
def saveDiePart (s : State) (site : Nat) (m : AtpMsg) : State :=
  match dieParts s site m.txn, stepOf s m.txn with
  | p :: _, some st =>
    if !(siteOf s site).cap.preempt ∨ !p.stopping ∨ m.len ≠ 1 then protocolError s site
    else
      let s := releasePart s site p
      if st.phase ≠ .saving then partDone s m.txn p.part
      else
        settleSaving (modStep s m.txn (fun st => { st with parts := st.parts.zipIdx.map (fun q =>
          if q.2 = p.part then { q.1 with phase := .saved, token := (m.data ++ List.replicate 32 0).take 32 } else q.1) })) m.txn
  | _, _ => protocolError s site

/-- STEP_SAVED. -/
def execStepSaved (site : Nat) (m : AtpMsg) (s : State) : Host.Outcome State Fault Refusal :=
  .next (takeAtp s site 0x0A m .translation (fun s m => saveDiePart s site m))

/-- DIE_STEP_TIMEOUT (R324): a die that had to stop a part within 20 µs is reset, and the part completes POISONED. -/
def execDieStepTimeout (site slot : Nat) (s : State) : Host.Outcome State Fault Refusal :=
  let mustStop := (dieParts s site slot).any (·.stopping) && (match stepOf s slot with
    | some st => st.phase != .saving || (siteOf s site).cap.preempt
    | none => true)
  .next (if hearsDie s site && mustStop then dieReset s site else s)

/-! ### Power and urgency (R325–R327; 18 R511) -/

/-- POWER_REPORT: held against the grant of the strum it reports and against the rail meter. -/
def execPowerReport (site value : Nat) (s : State) : Host.Outcome State Fault Refusal :=
  if !hearsDie s site ∨ (siteOf s site).reported then .next s
  else
    let v := value % 65536
    let a := atticPowerOf s site
    let surplus := a.lastGrant * 105 < v * 100 || v * 100 < a.measured * 95
    let inside := v ≤ a.lastGrant
    let s := modAtticPower s site (fun a => { a with reported := v })
    .next (modSite s site (fun x =>
      if surplus then { x with reported := true, surplus := x.surplus + 1, within := 0, powerOver := satInc 16 x.powerOver }
      else if inside then { x with reported := true, surplus := 0, within := x.within + 1, halved := x.halved && x.within + 1 < 2 }
      else { x with reported := true, surplus := 0, within := 0 }))

/-- URGENCY: the value that the die reports, with no other message to carry it. -/
def execUrgency (site : Nat) (m : AtpMsg) (s : State) : Host.Outcome State Fault Refusal :=
  if !hearsDie s site then .next s
  else if (siteOf s site).cap.urgency ∧ headerOk m then .next (noteUrgency s site m)
  else .next (protocolError s site)

/-! ### Snoops (R319, R320) -/

/-- What a site keeps of a line in the directory after its answer: nothing after an invalidation, a shared copy otherwise; `rest`
says that another 64-byte half of the site's still owes its answer. -/
def dirAfterSnoop (s : State) (site line : Nat) (x : Snoop) (rest : Bool) : State :=
  match tfind s.attic.dir line with
  | none => s
  | some e =>
    if rest then s
    else if x.inval then
      let e := { e with owner := if e.owner = some site then none else e.owner, sharers := clearBit e.sharers site
                        halves := e.halves - field (siteHalves e site) (2 * site) 2 }
      { s with attic := { s.attic with dir := if e.owner.isNone ∧ e.sharers = 0 then tdel s.attic.dir line else tset s.attic.dir line e } }
    else if e.owner = some site then
      { s with attic := { s.attic with dir := tset s.attic.dir line { e with owner := none, sharers := setBit e.sharers site } } }
    else s

/-- The answer of one sharer key leaves the list of those awaited. -/
def snoopAnswered (s : State) (line : Nat) (x : Snoop) (left : List Nat) : State :=
  { s with attic := { s.attic with snoops :=
    if left.isEmpty ∧ x.txn.isNone then tdel s.attic.snoops line else tset s.attic.snoops line { x with sites := left } } }

/-- The key under which a site's answer is awaited: a CXL die answers by 64-byte halves. -/
def snoopKey (s : State) (site addr : Nat) : Nat :=
  if (siteOf s site).cap.cxl then site + 8 + 8 * (addr % 128 / 64) else site

/-- A snoop's answer: the owner's dirty bytes are written home first; then the site has given up the line, or keeps it shared.
A site that does not own the line answers with no data (R320): data it sends all the same are not taken. -/
def snoopAnswer (s : State) (site : Nat) (m : AtpMsg) : State :=
  let line := m.address / 128
  let key := snoopKey s site m.address
  match tfind s.attic.snoops line with
  | none => protocolError s site
  | some x =>
    if !x.sites.contains key ∨ 4 < m.len then protocolError s site
    else
      let b := maskedBytes { m with mask := 2 ^ 128 - 1 }
      let owns := match tfind s.attic.dir line with
        | some e => e.owner == some site
        | none => false
      let s := if owns then writeLine s line b (diePoison m) else s
      let left := x.sites.filter (· != key)
      snoopAnswered (dirAfterSnoop s site line x (left.any (fun k => k % 8 == site))) line x left

/-- SNP_RSP. -/
def execSnpRsp (site : Nat) (m : AtpMsg) (s : State) : Host.Outcome State Fault Refusal :=
  .next (takeAtp s site 0x10 m .translation (fun s m => snoopAnswer s site m))

/-- The die's answer to a request of the hub to its window (R318). -/
def windowRsp (s : State) (site : Nat) (m : AtpMsg) : State :=
  if (tfind (siteOf s site).windowReqs m.txn).isNone ∨ 4 < m.status then protocolError s site else windowAnswer s site m

/-- RSP. -/
def execAtpRsp (site : Nat) (m : AtpMsg) (s : State) : Host.Outcome State Fault Refusal :=
  .next (takeAtp s site 0x11 m .translation (fun s m => windowRsp s site m))

/-! ### What waited for a retrain -/

/-- A message that waited at the port is taken. -/
def serveHeld (s : State) (site : Nat) (h : AtpMsg × Fetch) : State :=
  let m := h.1
  match m.opcode with
  | 0x01 => cachedRead s site m .shared
  | 0x02 => cachedRead s site m .own
  | 0x03 => plainRead s site m h.2
  | 0x04 => plainWrite s site m
  | 0x05 => giveUp s site m true
  | 0x06 => giveUp s site m false
  | 0x07 => dieAtomic s site m
  | 0x08 => diePeg s site m
  | 0x09 => endDiePart s site m.txn m.status
  | 0x0A => saveDiePart s site m
  | 0x10 => snoopAnswer s site m
  | 0x11 => windowRsp s site m
  | _ => s

/-- Once the port is UP, what waited completes in arrival order (R331). -/
def drainHeld (s : State) (site : Nat) : State :=
  if (siteOf s site).astate ≠ .up then s
  else
    let l := (siteOf s site).held
    forEach l (modSite s site (fun x => { x with held := [] })) (fun s h => serveHeld s site h)

/-! ### The sideband (R311–R314, R331–R333) -/

/-- DIE_CAP: the attempt's lane test and parameter exchange, then the die's capability. -/
def execDieCap (site : Nat) (cap : DieCap) (test : LaneTest) (s : State) : Host.Outcome State Fault Refusal :=
  .next (if !inAttempt s site ∨ ((siteOf s site).afterReset ∧ !(siteOf s site).lanesAgreed) then s
         else drainHeld (dieAnswers s site cap test) site)

/-- DIE_CAP_TIMEOUT: no answer to HUB_CAP within 10 µs. -/
def execDieCapTimeout (site : Nat) (s : State) : Host.Outcome State Fault Refusal :=
  .next (if !inAttempt s site ∨ ((siteOf s site).afterReset ∧ !(siteOf s site).lanesAgreed) then s else failAttempt s site downTimeout)

/-- ATTIC_SIDEBAND_TIMEOUT: before the site has ever been UP in the session it is unfitted; later the attempt fails. -/
def execAtticSidebandTimeout (site : Nat) (s : State) : Host.Outcome State Fault Refusal :=
  .next (if !inAttempt s site then s
         else if (siteOf s site).everUp then failAttempt s site downTimeout
         else modSite s site (fun x => { x with astate := .absent, unfitted := true, attempts := 0 }))

/-- The die's map says the same as the hub's. -/
def mapsAgree (x : Site) (m : LaneMapIn) : Bool :=
  (List.range 8).all (fun k =>
    let l := tget x.lanes k {}
    let d : Nat × Nat := nth m.modules k (0, 0)
    d.1 == l.width && d.2 == maskOf ((List.range 4).filterMap (fun i =>
      if bitAt l.repaired (12 * i + 11) then some (bits l.repaired (12 * i) 6) else none)))

/-- LANE_MAP (R332): after a port reset the hub tests its lanes and sends its map; maps that differ bring another test, and the
third in succession ends the attempts. -/
def execLaneMap (site : Nat) (m : LaneMapIn) (test : LaneTest) (s : State) : Host.Outcome State Fault Refusal :=
  if !inAttempt s site ∨ !(siteOf s site).afterReset ∨ (siteOf s site).lanesAgreed then .next s
  else
    let s := applyLanes s site test
    if !trained (siteOf s site) test.rate then .next (failAttempt s site downTraining)
    else
      let x := siteOf s site
      let map := (x.lanes.map (fun e => field e.2.width (8 * e.1) 2 + field e.2.repaired (64 + 48 * e.1) 48)).foldl (· + ·) 0
      let s := emit s (.sideband site sbLaneMap map)
      if mapsAgree x m then
        .next (emit (modSite s site (fun x => { x with lanesAgreed := true, disagreements := 0 })) (.sideband site sbHubCap (hubCap s site)))
      else if x.disagreements + 1 < 3 then
        .next (modSite s site (fun x => { x with disagreements := x.disagreements + 1, laneMerge := m.modules }))
      else .next (portDown (modSite s site (fun x => { x with lastReason := downWidth })) site downWidth)

/-- HEARTBEAT: a changed DIE_EPOCH that the hub did not cause loses the die. -/
def execHeartbeat (site epoch : Nat) (s : State) : Host.Outcome State Fault Refusal :=
  .next (if !hearsDie s site ∨ epoch % 2 ^ 32 = (siteOf s site).dieEpoch then s
         else dieLost (modSite s site (fun x => { x with dieEpoch := epoch % 2 ^ 32 })) site)

/-- RESET_REQ: the die asks for a port reset. -/
def execResetReq (site : Nat) (s : State) : Host.Outcome State Fault Refusal :=
  .next (if hearsDie s site then dieReset s site else s)

/-- DIE_HEARTBEAT_TIMEOUT: 16 µs without a heartbeat. -/
def execDieHeartbeatTimeout (site : Nat) (s : State) : Host.Outcome State Fault Refusal :=
  .next (if hearsDie s site then dieLost s site else s)

/-- DIE_CREDIT_TIMEOUT: a link returns no credit for 2 µs while messages wait. -/
def execDieCreditTimeout (site : Nat) (s : State) : Host.Outcome State Fault Refusal :=
  .next (if hearsDie s site ∧ (siteOf s site).astate = .up then dieLost s site else s)

/-- DIE_SNOOP_TIMEOUT: a snoop that the die owes has gone unanswered for 8 µs. -/
def execDieSnoopTimeout (site : Nat) (s : State) : Host.Outcome State Fault Refusal :=
  .next (if hearsDie s site && s.attic.snoops.any (fun e => e.2.sites.any (fun k => k % 8 == site)) then dieLost s site else s)

/-! ### Links (R310) -/

/-- Whether an asker is a request of the die that travelled on a lost link. -/
def lostAsker (x : Site) (site : Nat) (linkB : Bool) (r : Requester) : Bool :=
  match r.who with
  | .attic t _ => t == site && onLink x linkB (some r.addr)
  | _ => false

/-- A die request that waits for a translation completes with STATUS POISON. -/
def poisonAsker (s : State) (site : Nat) (r : Requester) : State :=
  match r.who with
  | .attic _ n => answerDie (detach s r.who) site n 1 []
  | _ => s

/-- A die request in a transaction completes with STATUS POISON. -/
def poisonTxn (s : State) (site : Nat) (t : Txn) : State :=
  match t.client with
  | .die _ n => answerDie s site n 1 []
  | .dieBack _ n => answerDie s site n 1 []
  | _ => s

/-- Requests whose link is lost leave: one that its home has performed stands, and its completion serves no one. -/
def dropLost (s : State) (lost : List (Nat × Txn)) : State :=
  let mine := fun (e : Nat × Txn) => lost.any (fun l => l.1 == e.1)
  { s with mem := { s.mem with txns := (s.mem.txns.filter (fun e => !(mine e && e.2.phase != .done))).map (fun (e : Nat × Txn) =>
    if mine e then (e.1, { e.2 with client := .none, dir := .none }) else e) } }

/-- A die request without an answer that travelled on a lost link completes with STATUS POISON. -/
def poisonRequests (s : State) (site : Nat) (linkB : Bool) : State :=
  let x := siteOf s site
  let lost := s.mem.txns.filter (fun e => txnSite e.2 == some site && onLink x linkB (some e.2.hpa))
  let s := dropLost (forEach lost s (fun s e => poisonTxn s site e.2)) lost
  let askers := ((s.trans.walks.flatMap (fun e => e.2.requesters)) ++ (s.trans.faults.flatMap (fun e => e.2.requesters))
    ++ s.trans.waiting.map (·.2)).filter (lostAsker x site linkB)
  let s := forEach askers s (fun s r => poisonAsker s site r)
  -- and what waits at the port for a retrain
  let caught := fun (h : AtpMsg × Fetch) => h.1.opcode ≤ 0x08 && onLink x linkB (if h.1.opcode = 0x08 then none else some h.1.address)
  let s := forEach (x.held.filter caught) s (fun s h => answerDie s site h.1.txn 1 [])
  let s := modSite s site (fun y => { y with held := y.held.filter (fun h => !caught h) })
  if !onLink x linkB none then s
  else dropPegWaits (forEach x.pegWaits s (fun s n => answerDie s site n 1 [])) site

/-- ATTIC_LINK_DOWN: what was outstanding on the link ends, and the port retrains on the rest. -/
def execAtticLinkDown (site : Nat) (linkB : Bool) (s : State) : Host.Outcome State Fault Refusal :=
  let x := siteOf s site
  if !hearsDie s site ∨ !(if linkB then x.linkB else x.linkA) then .next s
  else
    let s := poisonRequests s site linkB
    let s := forEach (x.windowReqs.filter (fun e => onLink x linkB (some e.2.address))) s (fun s e => absorbWindow s site true e)
    let s := modSite s site (fun x => if linkB then { x with linkB := false } else { x with linkA := false })
    -- snoops go again on the surviving link
    let s := forEach s.attic.snoops s (fun s e =>
      forEach (e.2.sites.filter (fun k => k % 8 == site && onLink x linkB (some (e.1 * 128)))) s (fun s k => sendSnoop s e.1 k e.2.inval))
    let s := if siteLanes (siteOf s site) < 512 ∧ 512 ≤ siteLanes x then raiseAttic s .atticWidthReduced site 0 0 0 else s
    .next (retrain s site)

/-- ATTIC_LINK_UP: a link that was down comes back; the port retrains without a die reset. -/
def execAtticLinkUp (site : Nat) (linkB : Bool) (s : State) : Host.Outcome State Fault Refusal :=
  let x := siteOf s site
  .next (if !hearsDie s site ∨ x.astate ≠ .up ∨ (if linkB then x.linkB else x.linkA) then s else retrain s site)

end Sys2Proof.Machine
end

