-- ==== Sys2Proof/Machine/PeerCmds.lean ====
section
/-! DEFINITION. PEER_WINDOW_SET, PEER_WINDOW_CLEAR and its drain, and PEER_ADMIT_SET (spec 14 R387, R395, R396). -/
namespace Sys2Proof.Machine

/-- The window of a request (Table 14-9), for a partition. -/
def windowOf (b : Bytes) (part : Nat) : PeerWindow :=
  { noWrite := bbits b 6 1 == 1, eth := bbits b 7 1 == 1, part := part, lengthM1 := bbits b 8 24, node := bbits b 32 32
    remoteBase := bbits b 64 48, ipv6 := bbits b 256 128 }

/-- PEER_WINDOW_SET. -/
def execPeerWindowSet (c : Nat) (s : State) : Host.Outcome State Fault Refusal :=
  .next (runCmd s c opPeerWindowSet (fun s t =>
    let b := t.req
    let w := bbits b 0 6
    let x := windowOf b t.ctx
    let held := tfind s.chord.windows w
    finishSync s c
      (firstFail [
        ((match held with | some y => y.part != t.ctx | none => false), .deniedPartition),
        (held.isSome || bbits b 112 144 != 0 || x.remoteBase % 0x10000 != 0 || x.node == s.chord.node
          || (!x.eth && x.ipv6 != 0), .badField)])
      (fun s => bumpGeneration { s with chord := { s.chord with windows := tset s.chord.windows w x } })
      (fun _ => 0)))

/-- Messages that were issued through a window and have not ended. -/
def windowMessages (s : State) (w : Nat) : List (Nat × Nat) :=
  s.chord.peers.flatMap (fun e => (e.2.messages.filter (fun m => m.2.window == some w)).map (fun m => (e.1, m.1)))

/-- Clear a window: it is unmapped at once, and `n` drains what was issued through it. -/
def clearWindow (s : State) (n w : Nat) : State :=
  { s with chord := { s.chord with
      clears := tset s.chord.clears n (w, windowMessages s w, 0)
      windows := tdel s.chord.windows w } }

/-- PEER_WINDOW_CLEAR. -/
def execPeerWindowClear (c : Nat) (s : State) : Host.Outcome State Fault Refusal :=
  .next (runCmd s c opPeerWindowClear (fun s t =>
    let w := bbits t.req 0 6
    let held := tfind s.chord.windows w
    match firstFail [
        ((match held with | some y => y.part != t.ctx | none => false), Status.deniedPartition),
        (held.isNone || bbits t.req 6 58 != 0, .badField)] with
    | some st => failCmd s c st
    | none =>
      let (s, n) := accept s c t w
      bumpGeneration (clearWindow s n w)))

/-- PEER_WINDOW_CLEAR_DRAINED: every operation issued before the commit has ended; RESULT[31:0] counts them. -/
def execPeerWindowClearDrained (seq : Nat) (s : State) : Host.Outcome State Fault Refusal :=
  match tfind s.chord.clears seq with
  | none => .next s
  | some (_, l, _) =>
    if l.any (fun m => (tfind (peerOf s m.1).messages m.2).isSome) then .next s
    else
      let s := { s with chord := { s.chord with clears := tdel s.chord.clears seq } }
      .next (finalize s seq .ok (field l.length 0 32))

/-- PEER_ADMIT_SET.  A slot that is set as SEND takes the mark from the partition's other slots. -/
def execPeerAdmitSet (c : Nat) (s : State) : Host.Outcome State Fault Refusal :=
  .next (runCmd s c opPeerAdmitSet (fun s t =>
    let b := t.req
    let p := bbits b 0 4
    let slot := p * 4 + bbits b 4 2
    let send := bbits b 6 1 == 1
    let clear := bbits b 7 1 == 1
    let tag := bbits b 64 64
    finishSync s c
      (firstFail [(bbits b 8 56 != 0 || (!clear && (tag == 0
        || s.chord.tags.any (fun e => e.2.1 == tag && e.1 / 4 != p))), .badField)])
      (fun s =>
        let tags := if clear then tdel s.chord.tags slot
          else
            let l := if send then tmap s.chord.tags (fun k (x : Nat × Bool) => if k / 4 = p then (x.1, false) else x) else s.chord.tags
            tset l slot (tag, send)
        { s with chord := { s.chord with tags := tags } })
      (fun _ => 0)))

end Sys2Proof.Machine
end

