-- ==== Sys2Proof/Machine/Links.lean ====
section
/-! DEFINITION. The physical layer of the Chord engines: training, lanes, markers, Ethernet ports, and the link commands
(spec 13; 02 R50). -/
namespace Sys2Proof.Machine

/-! ### Register words, which the commands also return -/

/-- UNCORRECTED of every lane, summed. -/
def uncorrectedSum (x : Engine) : Nat := sum (x.lanes.map (fun l => l.2.uncorrected))

/-- RESULT of a link command (Table 13-7). -/
def linkResult (s : State) (e : Nat) : Nat :=
  let x := engineOf s e
  linkStatusWord x + field (linkConfigWord x) 64 64 + field (linkTimingWord e x) 128 64 + field (uncorrectedSum x) 192 64
    + field s.time.now 256 64

/-! ### Events (R370) -/

/-- Reasons of LINK_DOWN. -/
def lrNoLock := 1
def lrLanes := 2
def lrPartner := 3
def lrCommand := 4
def lrPower := 5
def lrEqTable := 6

/-- Raise LINK_DOWN or LINK_RETRAINED; `old` is the engine before the change. -/
def raiseLink (s : State) (e : Nat) (ev : EventCode) (reason : Nat) (old : Engine) : State :=
  let x := engineOf s e
  let d := fun t => field e 64 4 + field reason 68 4 + field x.mode 72 2 + field x.rate 74 2 + field x.txMask 80 16
    + field x.rxMask 96 16 + field old.txMask 112 16 + field old.rxMask 128 16 + field x.ethUp 144 4
    + field (sum (x.lanes.map (fun l => l.2.lastUnc))) 192 32 + field t 256 64
  let c := engineOwner s e
  raiseMgmt (raiseTo s c ev (source ucChord e) d) c ev (source ucChord e) d

/-! ### Routes (14 R378) -/

/-- The nodes an engine reaches: its partner, and what the partner advertises. -/
def engineReach (s : State) (e : Nat) : List (Nat × Nat) :=
  let l := llOf s e
  if l.llstate ≠ .opened then []
  else ((l.partner, 1) :: l.learned.map (fun r => (r.1, r.2.1 + 1))).filter (fun r => r.2 ≤ 4 && r.1 != s.chord.node)

/-- The route table: for each node the smallest hop count and the engines on which it is reached at that count; at most 256
nodes, the nearest first, ties to the lowest NODE_ID. -/
def rebuildRoutes (s : State) : State :=
  let all := (List.range 12).flatMap (fun e => (engineReach s e).map (fun r => (e, r.1, r.2)))
  let nodes := (all.map (fun r => r.2.1)).eraseDups
  let best := nodes.map (fun n =>
    let mine := all.filter (fun r => r.2.1 == n)
    let h := mine.foldl (fun m r => min m r.2.2) 4
    ({ node := n, engines := maskOf ((mine.filter (fun r => r.2.2 == h)).map (·.1)), hops := h } : Route))
  let l := (best.mergeSort (fun a b => decide (a.hops < b.hops ∨ (a.hops = b.hops ∧ a.node ≤ b.node)))).take 256
  let s := { s with chord := { s.chord with routes := l.zipIdx.map (fun r => (r.2, r.1)) } }
  forEach (tkeys s.chord.peers) s pump

/-! ### Link up and down -/

def modLane (s : State) (e l : Nat) (f : Lane → Lane) : State :=
  modEngine s e (fun x => { x with lanes := tmod x.lanes l {} f })
def laneOf (x : Engine) (l : Nat) : Lane := tget x.lanes l {}

/-- Final records of link commands that a predicate picks. -/
def endLinkCmds (s : State) (e : Nat) (p : Nat × Nat → Bool) : State :=
  let l := (engineOf s e).cmds.filter p
  let s := modEngine s e (fun x => { x with cmds := x.cmds.filter (fun c => !p c) })
  forEach l s (fun s c => finalize s c.1 .ok (linkResult s e))

/-- A LANE_EQ entry is valid (R357). -/
def eqValid (q : LaneEq) : Bool :=
  40 ≤ q.main && q.main ≤ 64 && q.pre.natAbs ≤ 16 && q.post.natAbs ≤ 24 && q.pre.natAbs + q.main + q.post.natAbs ≤ 64
/-- The coefficients of a lane for a rate: its one valid entry (R357). -/
def laneEntry (s : State) (e l rate : Nat) : Option LaneEq :=
  match s.boot.board.equalisation.bind (fun t => tfind t (physEngine s e)) with
  | none => none
  | some q =>
    match (q.lanes.filter (fun y => y.1 == l * 4 + rate)).map (·.2) with
    | [y] => if eqValid y then some y else none
    | _ => none

/-- Begin training in the configured mode and rate (R360); engine numbers of the table are physical and stay in place. -/
def startTraining (s : State) (e : Nat) : State :=
  let x := engineOf s e
  let clear := fun (y : Engine) => { y with mode := y.cfgMode, rate := y.cfgRate, txMask := 0, rxMask := 0, ethUp := 0, partnerRx := 0, partnerTx := 0, slotClock := 0, markerCount := 0, downAfter := none }
  if x.cfgMode = 0 then
    endLinkCmds (modEngine s e (fun y => { clear y with estate := .off, lanes := tmap y.lanes (fun _ l => { l with lstate := .down, cdr := false }) }))
      e (fun _ => true)
  else if x.eqTableBad then
    let s := modEngine s e (fun y => { clear y with estate := .down, lastReason := lrEqTable })
    let s := if x.downRaised then s else
      raiseLink (modEngine s e (fun y => { y with downRaised := true, downCount := satInc 16 y.downCount })) e .linkDown lrEqTable x
    endLinkCmds s e (fun _ => true)
  else
    let lane := fun (l : Nat) (y : Lane) =>
      let y := { y with cdr := false, markers := 0, missed := 0, leaving := 0, retries := 0, failReason := 0, lstate := LaneState.down
                        txOffset := Config.codewordPhase e l % 40, rxOffset := none }
      if !bitAt x.laneEnable l then y
      else if (laneEntry s e l x.cfgRate).isNone then { y with failReason := 6 }
      else { y with lstate := .training }
    let eqs := (List.range 16).filterMap (fun l => (laneEntry s e l x.cfgRate).map (fun q => (l, q)))
    modEngine s e (fun y => { clear y with
      estate := .training, eq := eqs
      lanes := (List.range 16).map (fun l => (l, lane l (laneOf y l))) })

/-- The link layer and what rests on the link end: its keys, routes and retry buffer (14 R378, R390; 02 R51). -/
def dropLinkLayer (s : State) (e : Nat) : State :=
  let acked := (llOf s e).txAcked
  let s := modLl s e (fun l => { replays := l.replays, authFails := l.authFails, fretOverrun := l.fretOverrun, demoted := l.demoted
                                 bank := l.bank, parked := l.parked })
  resendFrom (dropTimeLink (rebuildRoutes s) e) e acked

/-- The device follows a master no longer through an engine that has no Ethernet port up (02 R50). -/
def dropPtp (s : State) (e : Nat) : State :=
  if s.time.ptp.engine = some e ∧ (engineOf s e).ethUp = 0 then
    let s := { s with time := { s.time with referenced := false, ptp := {} } }
    if s.time.ranked then rankMaster s else s
  else s

/-- Take a link DOWN.  With `leaving`, the next two markers on the lanes still sent carry LEAVING (R355). -/
def linkDown (s : State) (e reason : Nat) (leaving : Bool) : State :=
  let x := engineOf s e
  let s := modEngine s e (fun y => { y with
    estate := .down, txMask := 0, rxMask := 0, ethUp := 0, lastReason := reason, downCount := satInc 16 y.downCount
    leavingLeft := if leaving && !isEthernet x then 2 else 0, downAfter := none, downRaised := true, lanes := tmap y.lanes (fun _ l => { l with lstate := if l.lstate = .failed then .failed else .down, cdr := false }) })
  dropPtp (dropLinkLayer (raiseLink s e .linkDown reason x) e) e

/-- A native link that is UP leaves: two markers with LEAVING on every lane, and then DOWN (R355). -/
def beginLeaving (s : State) (e reason : Nat) : State :=
  modEngine s e (fun y => if y.downAfter.isSome then y else { y with leavingLeft := 2, downAfter := some reason })

/-- Leave and train anew: what LINK_MODE_SET and a LINK_RETRAIN of the whole engine do (R367). -/
def retrainEngine (s : State) (e : Nat) : State :=
  if (engineOf s e).estate ≠ .up then startTraining s e
  else if isEthernet (engineOf s e) then startTraining (linkDown s e lrCommand false) e
  else beginLeaving s e lrCommand

/-- An engine's power domain is on its way off: a native link that is UP begins to leave (R365). -/
def engineLeaves (s : State) (e : Nat) : State :=
  if (engineOf s e).estate = .up ∧ !isEthernet (engineOf s e) then beginLeaving s e lrPower else s

/-- An engine's power domain goes off, or comes on (R365). -/
def engineOff (s : State) (e : Nat) : State :=
  let s := if (engineOf s e).estate = .up ∨ (engineOf s e).estate = .training then linkDown s e lrPower false else s
  endLinkCmds s e (fun _ => true)
def engineOn (s : State) (e : Nat) : State := startTraining s e

/-- The lanes an engine may stripe onto: the partner's RX_MASK, LANE_ENABLE, and a valid entry (R353, R357). -/
def wantedTx (s : State) (e : Nat) : Nat :=
  let x := engineOf s e
  maskOf ((List.range 16).filter (fun l => bitAt x.partnerRx l && bitAt x.laneEnable l && (laneEntry s e l x.rate).isSome))

/-- Mark the lanes of a mask ACTIVE, and the other ready ones READY. -/
def activateLanes (s : State) (e : Nat) : State :=
  modEngine s e (fun x => { x with lanes := tmap x.lanes (fun l y =>
    if y.lstate = .ready ∨ y.lstate = .active then { y with lstate := if bitAt x.txMask l || bitAt x.rxMask l then .active else .ready } else y) })

/-- Named lanes of a LINK_RETRAIN are all out of training. -/
def lanesSettled (x : Engine) (mask : Nat) : Bool := (maskBits mask 16).all (fun l => (laneOf x l).lstate != .training)

/-- The link is UP: LL_CAP goes out on a native link (Table 13-6, 14 R371). -/
def linkUp (s : State) (e : Nat) (old : Engine) : State :=
  let s := modEngine s e (fun x => { x with estate := .up, downRaised := false })
  let s := raiseLink (activateLanes s e) e .linkRetrained 0 old
  let s := if isEthernet (engineOf s e) then s
    else sendCtl (modLl s e (fun l => { l with llstate := .cap })) e lkCap s.chord.node (freePayload 16 lkCap s.chord.node)
  endLinkCmds s e (fun c => c.2 == 0 || lanesSettled (engineOf s e) c.2)

/-- A link in training is UP once both directions have MIN_LANES lanes (Table 13-6 step 7). -/
def maybeUp (s : State) (e : Nat) (before : Engine) : State :=
  let x := engineOf s e
  if x.estate = .training ∧ x.minLanes ≤ popCount x.txMask 16 ∧ x.minLanes ≤ popCount (Nat.land x.partnerTx x.rxMask) 16 then
    linkUp s e before
  else s

/-- The masks of a link that is UP have changed: LINK_RETRAINED with reason WIDTH, and commands on its lanes end. -/
def widthChanged (s : State) (e : Nat) (before : Engine) : State :=
  let x := engineOf s e
  if x.estate ≠ .up then s
  else
    let s := activateLanes s e
    let s := if x.txMask ≠ before.txMask ∨ x.partnerTx ≠ before.partnerTx then raiseLink s e .linkRetrained 1 before else s
    endLinkCmds s e (fun c => c.2 != 0 && lanesSettled (engineOf s e) c.2)

/-- After an accepted marker: the partner's masks count at once; the own TX_MASK follows in the next marker sent, and where it
would fall below MIN_LANES the link leaves (R353–R355). -/
def settleMasks (s : State) (e : Nat) (before : Engine) : State :=
  let x := engineOf s e
  if x.estate = .up ∧ popCount (wantedTx s e) 16 < x.minLanes then beginLeaving s e lrLanes
  else widthChanged (maybeUp s e before) e before

/-- A lane leaves RX_MASK, or fails a retrain: it trains alone, and after 16 failures in a row it stays out (R354, R362). -/
def laneLeaves (s : State) (e l reason : Nat) : State :=
  let x := engineOf s e
  let retries := if bitAt x.rxMask l then 0 else (laneOf x l).retries + 1
  let s := modLane s e l (fun y => { y with
    cdr := false, markers := 0, missed := 0, leaving := 0, failReason := reason % 16, retries := min retries 255
    lstate := if 16 ≤ retries then .failed else .training })
  modEngine s e (fun y => { y with rxMask := clearBit y.rxMask l })

/-- A receiver whose RX_MASK falls below MIN_LANES takes its link DOWN at once (R355). -/
def settleRx (s : State) (e : Nat) : State :=
  let x := engineOf s e
  if x.estate = .up ∧ popCount x.rxMask 16 < x.minLanes then startTraining (linkDown s e lrLanes true) e
  else endLinkCmds s e (fun c => c.2 != 0 && lanesSettled (engineOf s e) c.2)

/-! ### What happens on the fibres -/

/-- A native engine whose lane takes part. -/
def laneLive (s : State) (e l : Nat) : Bool :=
  let x := engineOf s e
  l < 16 && domainLive s (domEngine e) && (x.estate == .training || x.estate == .up)
    && ((laneOf x l).lstate == .training || (laneOf x l).lstate == .ready || (laneOf x l).lstate == .active)

/-- Ports of an engine whose four lanes are locked. -/
def portsLocked (x : Engine) : Nat := maskOf ((List.range 4).filter (fun p => (List.range 4).all (fun i => (laneOf x (4 * p + i)).cdr)))

/-- CDR_LOCKED: the lane can take markers, or helps its Ethernet port UP (R360, R369). -/
def execCdrLocked (engine lane : Nat) (s : State) : Host.Outcome State Fault Refusal :=
  if !laneLive s engine lane then .next s
  else
    let old := engineOf s engine
    let s := modLane s engine lane (fun y => { y with cdr := true, markers := 0 })
    if !isEthernet old then .next s
    else
      let s := modLane s engine lane (fun y => { y with lstate := .ready })
      let up := portsLocked (engineOf s engine)
      if up = old.ethUp then .next s
      else
        let s := modEngine s engine (fun x => { x with ethUp := up })
        .next (linkUp s engine old)

/-- LANE_LOSS (R363). -/
def execLaneLoss (engine lane reason : Nat) (s : State) : Host.Outcome State Fault Refusal :=
  if !laneLive s engine lane ∨ isEthernet (engineOf s engine) then .next s
  else .next (settleRx (laneLeaves s engine lane reason) engine)

/-- ETH_PORT_LANE_LOSS: the port goes DOWN, the others continue (R369). -/
def execEthPortLaneLoss (engine lane : Nat) (s : State) : Host.Outcome State Fault Refusal :=
  let old := engineOf s engine
  if !laneLive s engine lane ∨ !isEthernet old then .next s
  else
    let s := modLane s engine lane (fun y => { y with cdr := false, lstate := .training, failReason := 2 })
    if !bitAt old.ethUp (lane / 4) then .next s
    else
      let up := clearBit old.ethUp (lane / 4)
      if up = 0 then .next (startTraining (linkDown s engine lrLanes false) engine)
      else .next (raiseLink (modEngine s engine (fun x => { x with ethUp := up })) engine .linkDown lrLanes old)

/-- TRAINING_TIMEOUT: LINK_DOWN once per transition to DOWN, and a new attempt at once (R361). -/
def execTrainingTimeout (engine : Nat) (s : State) : Host.Outcome State Fault Refusal :=
  let x := engineOf s engine
  if x.estate ≠ .training then .next s
  else
    let s := if x.downRaised then s else linkDown s engine lrNoLock false
    let s := endLinkCmds s engine (fun _ => true)
    .next (startTraining s engine)

/-- The lowest lane of a mask, on which the time word travels (R351). -/
def timeWordLane (mask : Nat) : Nat := (maskBits mask 16).headD 16

/-- A lane after one more good marker: it becomes READY once trained, and counts LEAVING (R350, R354). -/
def laneMarked (m : Marker) (y : Lane) : Lane :=
  let trained := y.lstate = .training ∧ 2 ≤ y.markers + 1 ∧ 64 ≤ m.codewords ∧ m.skew ≤ 64
  { y with
    markers := y.markers + 1, rxOffset := some (nextOffset m.offset), leaving := if m.laneState = 3 then y.leaving + 1 else 0
    lstate := if trained then .ready else y.lstate
    retries := if trained then 0 else y.retries
    failReason := if y.lstate ≠ .training then y.failReason else if 64 < m.skew then 5
                  else if 2 ≤ y.markers + 1 ∧ 64 ≤ m.codewords then 0 else y.failReason }

/-- A lane that has become READY joins the receive mask, which the next marker announces. -/
def joinMask (s : State) (e lane : Nat) : State :=
  let x := engineOf s e
  let ready := (laneOf x lane).lstate = .ready ∨ (laneOf x lane).lstate = .active
  if ready ∧ !bitAt x.rxMask lane then modEngine s e (fun x => { x with rxMask := setBit x.rxMask lane }) else s

/-- The partner's masks and the skew of a marker. -/
def notePartner (s : State) (e : Nat) (m : Marker) : State :=
  modEngine s e (fun x => { x with
    partnerRx := m.rxMask % 2 ^ 16, partnerTx := m.txMask % 2 ^ 16
    skew := max m.skew (if m.lane = 0 then 0 else x.skew) % 2 ^ 16 })

/-- The time word of a marker counts on the lowest lane of the partner's mask (R351). -/
def markerTime (s : State) (e : Nat) (m : Marker) : State :=
  match m.time with
  | some w =>
    if m.lane = timeWordLane m.txMask ∧ (engineOf s e).estate = .up then
      takeTimeWord s e w (s.time.now - m.age) ((engineOf s e).asymPs * 64 / 1000)
    else s
  | none => s

/-- The partner has announced LEAVING on every lane: the link trains again. -/
def partnerLeft (x : Engine) : Bool := x.rxMask != 0 && (maskBits x.rxMask 16).all (fun l => 2 ≤ (laneOf x l).leaving)

/-- A marker is accepted: the lane's progress, the partner's masks, its LEAVING, its time word (R350–R355). -/
def acceptMarker (s : State) (e : Nat) (m : Marker) : State :=
  let old := engineOf s e
  let s := notePartner (joinMask (modLane s e m.lane (laneMarked m)) e m.lane) e m
  if partnerLeft (engineOf s e) then
    if (engineOf s e).estate = .up then startTraining (linkDown s e lrPartner false) e else s
  else markerTime (settleMasks s e old) e m

/-- The marker that the codewords received on a lane hold: it is discarded where one of them cannot be corrected, or where
PATTERN, LANE or CRC is wrong (R346, R348, R350). -/
def lineMarker (m : Marker) : Marker :=
  if m.line.isEmpty then m
  else
    match receiveMarker m.lane m.pos m.line with
    | (none, fixed, bad) => { m with good := false, corrected := m.corrected + fixed, uncorrected := m.uncorrected + bad }
    | (some f, fixed, bad) =>
      { m with good := true, corrected := m.corrected + fixed, uncorrected := m.uncorrected + bad, offset := f.offset
               rate := f.rate, laneState := f.laneState, rxMask := f.rxMask, txMask := f.txMask, time := f.time }

/-- FAIL_REASON of a lane that loses markers, or codewords. -/
def lfMarker := 3
def lfFec := 4

/-- A lane of RX_MASK leaves it when it has lost markers in two intervals in a row, or 16 codewords in one (R363). -/
def judgeLane (s : State) (e : Nat) (m : Marker) : State :=
  if !bitAt (engineOf s e).rxMask m.lane then s
  else if 16 ≤ m.uncorrected then settleRx (laneLeaves s e m.lane lfFec) e
  else if 2 ≤ (laneOf (engineOf s e) m.lane).missed then settleRx (laneLeaves s e m.lane lfMarker) e
  else s

/-- MARKER_RECEIVED with the marker decoded: one marker interval of a lane.  A marker that is lost breaks the row of those that
a training lane needs. -/
def takeMarker (engine : Nat) (m : Marker) (s : State) : Host.Outcome State Fault Refusal :=
  if !laneLive s engine m.lane ∨ isEthernet (engineOf s engine) ∨ !(laneOf (engineOf s engine) m.lane).cdr then .next s
  else
    -- partners at different rates never align
    let lost := !m.good || m.rate != (engineOf s engine).rate
    let s := modLane s engine m.lane (fun y => { y with
      uncorrected := satAdd 16 y.uncorrected m.uncorrected, corrected := satAdd 32 y.corrected m.corrected, lastUnc := m.uncorrected
      missed := if lost then y.missed + 1 else 0, markers := if lost then 0 else y.markers })
    if lost then .next (judgeLane s engine m)
    else if bitAt (engineOf s engine).rxMask m.lane then .next (judgeLane (acceptMarker s engine m) engine m)
    else .next (acceptMarker s engine m)

/-- MARKER_RECEIVED. -/
def execMarkerReceived (engine : Nat) (m : Marker) (s : State) : Host.Outcome State Fault Refusal := takeMarker engine (lineMarker m) s

/-! ### IEEE 1588 on Ethernet-mode ports (02 R50) -/

/-- CP firmware has the offset of the outside master and the path delay: it steers the time base, with a single step where
the offset is beyond 1 µs (R22, R48), and ranks the device as REFERENCED. -/
def ptpMeasured (s : State) (e : Nat) (off delay : Int) : State :=
  let t := s.time
  let fresh := !t.referenced
  let stepped := t.stepped && !fresh
  let s := steer { s with time := { t with
    referenced := true, offset := off, pathDelay := unsignedOf delay 32, stepped := stepped
    ptp := { t.ptp with engine := some e, t1 := none, t3 := none } } }
  let s := if s.time.ranked then rankMaster s else s
  { s with time := { s.time with stepPending := if farOffset off && !stepped then some off else none } }

/-- A Sync and the time it was sent at are known: the hub asks for the delay. -/
def ptpAskDelay (s : State) (e : Nat) : State :=
  let q := (s.time.ptp.delaySeq + 1) % 2 ^ 16
  emit { s with time := { s.time with ptp := { s.time.ptp with delaySeq := q, t3 := some s.time.now } } }
    (.ptp e .delayReq q s.time.now)

/-- A message of the configured domain, received at TIME_NOW: as a follower the hub measures its master by the delay
request-response mechanism; as a master it answers a Delay_Req. -/
def ptpTake (s : State) (e : Nat) (m : PtpIn) : State :=
  let p := s.time.ptp
  let stamp := ((m.time : Int) + m.correction).toNat
  match m.kind with
  | .sync =>
    let s := { s with time := { s.time with ptp := { p with
      syncSeq := m.seq, t2 := s.time.now, t1 := if m.twoStep then none else some stamp } } }
    if m.twoStep then s else ptpAskDelay s e
  | .followUp =>
    if m.seq ≠ p.syncSeq ∨ p.t1.isSome then s
    else ptpAskDelay { s with time := { s.time with ptp := { p with t1 := some stamp } } } e
  | .delayResp =>
    match p.t1, p.t3 with
    | some t1, some t3 =>
      if m.seq ≠ p.delaySeq then s
      else
        let t4 : Int := (m.time : Int) - m.correction
        let out : Int := (p.t2 : Int) - t1
        let back : Int := t4 - t3
        ptpMeasured s e ((back - out) / 2) ((out + back) / 2)
    | _, _ => s
  | .delayReq => if s.time.referenced then s else emit s (.ptp e .delayResp m.seq s.time.now)

/-- PTP_MESSAGE on an Ethernet-mode port: the hardware timestamp is taken, and CP firmware takes a message of its domain.  A
FOLLOWER that follows a native master does not steer by it (DESIGN CHOICE, log entry 70). -/
def execPtpMessage (engine : Nat) (m : PtpIn) (domain : Nat) (s : State) : Host.Outcome State Fault Refusal :=
  let x := engineOf s engine
  if !(x.estate == .up && isEthernet x) then .next s
  else
    let s := { s with time := { s.time with ptpStamp := s.time.now } }
    if !s.time.ethPtpEn ∨ domain ≠ s.time.ptpDomain ∨ (s.time.role = 2 ∧ s.time.tstate ≠ .free) then .next s
    else .next (ptpTake s engine m)

/-- As a master the hub sends a Sync and its Follow_Up, in two steps, on every Ethernet-mode engine with a port up, once a
strum (DESIGN CHOICE, log entry 70: R50 names no interval). -/
def ptpSyncs (s : State) : State :=
  if !s.time.ethPtpEn ∨ s.time.referenced ∨ s.time.tstate = .free then s
  else
    forEach (List.range 12) s (fun s e =>
      let x := engineOf s e
      if x.estate = .up ∧ isEthernet x ∧ x.ethUp ≠ 0 then
        let q := s.time.ptp.outSeq
        let s := emit (emit s (.ptp e .sync q 0)) (.ptp e .followUp q s.time.now)
        { s with time := { s.time with ptp := { s.time.ptp with outSeq := (q + 1) % 2 ^ 16 } } }
      else s)

/-! ### Markers sent (R347, R351, R353–R355; 14 R378) -/

/-- LANE_STATE of a marker: LEAVING, or what the lane has come to. -/
def laneStateWord (x : Engine) (l : Nat) : Nat :=
  if 0 < x.leavingLeft then 3
  else match (laneOf x l).lstate with
  | .active => 2
  | .ready => 1
  | _ => 0

/-- Lanes on which a native engine transmits: the enabled ones with a valid entry (R353, R357). -/
def sendingLanes (s : State) (e : Nat) : List Nat :=
  let x := engineOf s e
  (List.range 16).filter (fun l => bitAt x.laneEnable l && (laneEntry s e l x.rate).isSome)

/-- The marker of one lane. -/
def laneMarker (x : Engine) (time : Option TimeWord) (fresh l : Nat) : SentMarker :=
  let o := (laneOf x l).txOffset
  { blocks := markerBlocks { lane := l, offset := o, rate := x.rate, laneState := laneStateWord x l, rxMask := x.rxMask
                             txMask := x.txMask, time := if l = timeWordLane x.txMask then time else none }
    offset := o, striped := bitAt x.txMask l, fresh := fresh }

/-- The nodes a ROUTE_ADV lists: those reached within three hops (14 R378). -/
def advertised (s : State) : List (Nat × Nat) :=
  (s.chord.routes.filter (fun r => r.2.hops ≤ 3)).map (fun r => (r.2.node, r.2.hops))

/-- ROUTE_ADV goes out when the link is OPEN and holds credits for it (14 R375, R378). -/
def sendRouteAdv (s : State) (e : Nat) : State :=
  let l := advertised s
  let k := ctlPacket s.chord.node (llOf s e).partner (freePayload (8 + 8 * l.length) 0 e)
  if (llOf s e).llstate = .opened ∧ mayTransmit s e k then emit (chargePacket s e k) (.routeAdv e l) else s

/-- Every lane of an engine sends its marker at the time `tx`: it announces the masks, the TX_MASK of its own direction takes
effect, and what waited for them follows. -/
def sendMarkers (s : State) (e tx : Nat) : State :=
  let old := engineOf s e
  let s := modEngine s e (fun x => { x with
    txMask := if x.downAfter.isSome then x.txMask else wantedTx s e, markerCount := (x.markerCount + 1) % 16 })
  let (fresh, s) := takeFresh s
  let (s, w) := sendTimeWord s e tx
  let x := engineOf s e
  let s := forEach (sendingLanes s e) s (fun s l => emit s (.marker e l (laneMarker x (some w) fresh l)))
  let s := modEngine s e (fun x => { x with
    leavingLeft := x.leavingLeft - 1, lanes := tmap x.lanes (fun _ y => { y with txOffset := nextOffset y.txOffset }) })
  let s := if x.markerCount = 0 then sendRouteAdv s e else s
  match x.downAfter with
  | some r =>
    if 1 < x.leavingLeft then s
    else if r = lrPower then linkDown s e r false
    else startTraining (linkDown s e r false) e
  | none => widthChanged (maybeUp s e old) e old

/-- A marker interval of a rate, in 1/25 of a time-base unit (Table 13-2). -/
def markerInterval (rate : Nat) : Nat := 2 ^ (24 - min rate 2)

/-- `d` time-base units pass on the fibres, up to the time `upto`: the markers that fall due are sent. -/
def passLinks (s : State) (upto d : Nat) : State :=
  forEach (List.range 12) s (fun s e =>
    let x := engineOf s e
    if !(x.estate == .training || x.estate == .up) || isEthernet x || !domainLive s (domEngine e) then s
    else
      let iv := markerInterval x.rate
      let total := x.slotClock + 25 * d
      let s := modEngine s e (fun x => { x with slotClock := total % iv })
      forEach (List.range (total / iv)) s (fun s k => sendMarkers s e ((25 * upto - (total - (k + 1) * iv)) / 25)))

/-- One time-base unit passes, unless cold reset holds the time base; the edge itself is reached by FRET_EDGE or
STRUM_BOUNDARY. -/
def tick (s : State) : State :=
  if s.boot.coldResetLow = false ∧ s.time.now + 1 < nextEdge s.time then
    passLinks { s with time := { s.time with now := (s.time.now + 1) % 2 ^ 64 } } (s.time.now + 1) 1
  else s

/-- What a marker's codewords are on its fibre: the link layer's blocks around it are free on a striped lane and IDLE on another. -/
def markerFibre (m : SentMarker) : List (List Int) :=
  let link := (List.range 75).map (fun k => if m.striped then blockOf (Config.linkBlock m.fresh k) else idleBlock)
  (markerCodewords m.offset (Config.scrambler m.fresh % 2 ^ 58) link m.blocks).map fibreOf

/-! ### Link commands (R366, R367) -/

/-- The highest rate that the variant allows. -/
def rateCap (s : State) : Nat := if s.boot.variantNow = .l then 2 else 1

def engineAbsent (s : State) (e : Nat) : Bool := !(e < 12 && bitAt s.boot.presentEngines e)

/-- LINK_QUERY. -/
def execLinkQuery (c : Nat) (s : State) : Host.Outcome State Fault Refusal :=
  .next (runCmd s c opLinkQuery (fun s t =>
    let e := bbits t.req 0 4
    match firstFail [
        (engineAbsent s e || bbits t.req 4 60 != 0, Status.badField),
        (engineOwner s e != t.ctx, .deniedPartition)] with
    | some st => failCmd s c st
    | none =>
      let r := linkResult s e
      -- a partition context sees the boundary's time (15 R437)
      finishQuery s c (r % 2 ^ 256 + field (seenTime s (if t.mgmt then 0 else t.ctx)) 256 64)))

/-- The named lanes of an UP engine leave and train alone; in Ethernet mode their ports go DOWN (R354, R362, R369). -/
def retrainLanes (s : State) (e mask : Nat) : State :=
  let old := engineOf s e
  let live := (maskBits mask 16).filter (fun l => bitAt old.laneEnable l && (laneEntry s e l old.rate).isSome)
  if isEthernet old then
    let s := forEach live s (fun s l => modLane s e l (fun y => { y with cdr := false, lstate := .training, retries := 0 }))
    let up := maskOf ((List.range 4).filter (fun p => bitAt old.ethUp p && !live.any (fun l => l / 4 == p)))
    let s := if up = old.ethUp then s
      else if up = 0 then startTraining (linkDown s e lrLanes false) e
      else raiseLink (modEngine s e (fun x => { x with ethUp := up })) e .linkDown lrLanes old
    endLinkCmds s e (fun c => c.2 != 0 && lanesSettled (engineOf s e) c.2)
  else
    settleRx (forEach live s (fun s l =>
      laneLeaves (modEngine s e (fun x => { x with rxMask := setBit x.rxMask l })) e l 0)) e

/-- LINK_RETRAIN: one that meets a training of the whole engine joins it. -/
def execLinkRetrain (c : Nat) (s : State) : Host.Outcome State Fault Refusal :=
  .next (runCmd s c opLinkRetrain (fun s t =>
    let e := bbits t.req 0 4
    let mask := bbits t.req 16 16
    if engineAbsent s e ∨ bbits t.req 4 12 ≠ 0 ∨ bbits t.req 32 32 ≠ 0 ∨ (engineOf s e).cfgMode = 0 ∨ !domainLive s (domEngine e) then
      failCmd s c .badField
    else
      let (s, n) := accept s c t e
      let training := (engineOf s e).estate = .training
      let s := modEngine s e (fun x => { x with cmds := x.cmds ++ [(n, if training then 0 else mask)] })
      if training then s
      else if mask = 0 then retrainEngine s e
      else if (engineOf s e).estate ≠ .up then endLinkCmds s e (fun _ => true)
      else retrainLanes s e mask))

/-- LINK_MODE_SET. -/
def execLinkModeSet (c : Nat) (s : State) : Host.Outcome State Fault Refusal :=
  .next (runCmd s c opLinkModeSet (fun s t =>
    let b := t.req
    let e := bbits b 0 4
    let mode := bbits b 4 2
    let rate := bbits b 6 2
    let lanes := bbits b 8 5
    let enable := bbits b 16 16
    if engineAbsent s e ∨ bbits b 13 3 ≠ 0 ∨ bbits b 32 32 ≠ 0 ∨ mode = 3 ∨ rate = 3 ∨ rateCap s < rate ∨ (mode = 2 ∧ rate ≠ 1)
        ∨ (mode = 1 ∧ (lanes = 0 ∨ 16 < lanes ∨ popCount enable 16 < lanes)) then failCmd s c .badField
    else
      let (s, n) := accept s c t e
      let s := modEngine s e (fun x => { x with
        cfgMode := mode, cfgRate := rate, minLanes := lanes, laneEnable := enable, cmds := x.cmds ++ [(n, 0)] })
      -- without power there is no attempt to wait for
      if domainLive s (domEngine e) then retrainEngine s e else endLinkCmds s e (fun _ => true)))

end Sys2Proof.Machine
end

