-- ==== Sys2Proof/Machine/LinkLayer.lean ====
section
/-! DEFINITION. The native link layer: flits, replay, capability and key exchange, routes and forwarding; and the
associations and answers of Ethernet mode (spec 14 R371–R380, R383–R384; 15 R426–R428). -/
namespace Sys2Proof.Machine

/-- A native link that is UP. -/
def nativeUp (s : State) (e : Nat) : Bool :=
  e < 12 && (engineOf s e).estate == .up && !isEthernet (engineOf s e) && (llOf s e).llstate != .closed

/-! ### Flits (R376, R377) -/

/-- Sixteen replays without acceptance: a record, and the engine trains anew. -/
def retryExhausted (s : State) (e : Nat) : State :=
  retrainEngine (logErr s { severity := .unitLost, unitClass := ucChord, unitIndex := e, code := ecRetryExhausted
                            partition := errPartition (engineOwner s e) }) e

/-- Send every flit of the retry buffer again, the stored ciphertext bit for bit; one that was replayed 16 times is given up. -/
def replay (s : State) (e : Nat) : State :=
  let l := llOf s e
  let n := l.txCount - l.txAcked
  if n = 0 then s
  else if 16 ≤ l.replayed then retryExhausted s e
  else emit (modLl s e (fun l => { l with replays := satAdd 32 l.replays n, replayed := l.replayed + 1 })) (.linkCtl e lkReplay l.txAcked)

/-- ACK names the last flit that the partner accepted. -/
def takeAck (l : LinkLayer) (ack : Nat) : LinkLayer :=
  let d := (ack % 2 ^ 16 + 1 + 2 ^ 16 - l.txAcked % 2 ^ 16) % 2 ^ 16
  if d = 0 ∨ l.txCount - l.txAcked < d then l else dropAcked l d

/-- FLIT: accepted in FSEQ order, or discarded with NAK.  At the partner's SWITCH_COUNT its FLIT_COUNT starts again. -/
def execFlit (engine : Nat) (f : FlitIn) (s : State) : Host.Outcome State Fault Refusal :=
  if !nativeUp s engine then .next s
  else
    let l := llOf s engine
    if f.errored then .next (modLl s engine (fun l => { l with nakOwed := true }))
    else if !f.tagOk then .next (countAuthFail (modLl s engine (fun l => { l with nakOwed := true })) engine)
    else if f.count ≠ l.rxNext then
      .next (modLl s engine (fun l => { l with nakOwed := l.nakOwed || l.rxNext < f.count, ackOwed := true }))
    else
      let s := modLl s engine (fun l =>
        let n := l.rxNext + 1
        let l : LinkLayer := { takeAck l f.ack with
          rxNext := n, nakOwed := false, ackOwed := true
          credIn := [0, 1, 2, 3].foldl (fun t v => tset t v (nth f.cred v 0 % 2 ^ 16)) l.credIn }
        if l.switchRx = some n then switchReceive l else l)
      let s := { s with chord := { s.chord with badVersion := satAdd 16 s.chord.badVersion f.badPackets } }
      let s := if f.nak then replay s engine else s
      .next (forEach (tkeys s.chord.peers) s pump)

/-- REPLAY_TIMEOUT: ACK has not advanced for 8 µs. -/
def execReplayTimeout (engine : Nat) (s : State) : Host.Outcome State Fault Refusal :=
  .next (if nativeUp s engine then replay s engine else s)

/-- FLIT_KEEPALIVE: a flit with an empty packet stream carries the acknowledgement, NAK and credits owed. -/
def execFlitKeepalive (engine : Nat) (s : State) : Host.Outcome State Fault Refusal :=
  let l := llOf s engine
  if !nativeUp s engine ∨ !(l.ackOwed || l.nakOwed) ∨ 4096 ≤ l.txCount - l.txAcked then .next s
  else
    .next (emit (sendStream s engine []) (.linkCtl engine lkFlit (linkState l)))

/-! ### Capability and keys (R371, R380; 15 R426, R427) -/

/-- The link stays without traffic, with a record. -/
def mismatch (s : State) (e : Nat) : State :=
  logErr (modLl s e (fun l => { l with llstate := .mismatch, helloIn := false })) {
    severity := .unitLost, unitClass := ucChord, unitIndex := e, code := ecLinkMismatch, partition := errPartition (engineOwner s e) }

/-- LL_CAP: versions of the same major, and a partner with a NODE_ID of its own. -/
def execLlCap (engine : Nat) (c : LlCap) (s : State) : Host.Outcome State Fault Refusal :=
  if !nativeUp s engine ∨ (llOf s engine).llstate ≠ .cap then .next s
  else if c.ll / 16 ≠ 1 ∨ c.tp / 16 ≠ 1 ∨ c.node = s.chord.node then .next (mismatch s engine)
  else
    let (n, s) := takeFresh s
    let s := modLl s engine (fun l => { l with llstate := .keying, partner := c.node, hello := n })
    .next (sendCtl s engine lkHello s.chord.node (keyHello (lifecycleValue s.boot.lifecycleNow) s.chord.node n))

/-- The partner's hello or finish verifies. -/
def keyOk (s : State) (e : Nat) (v : KeyVerdict) : Bool :=
  v.certOk && v.lifecycleOk && v.sigOk && (llOf s e).llstate == .keying

/-- KEY_HELLO: the hub answers with its KEY_FINISH. -/
def execKeyHello (engine node : Nat) (v : KeyVerdict) (s : State) : Host.Outcome State Fault Refusal :=
  if !nativeUp s engine ∨ (llOf s engine).llstate ≠ .keying then .next s
  else if !v.certOk ∨ !v.lifecycleOk ∨ node ≠ (llOf s engine).partner then .next (mismatch s engine)
  else .next (sendCtl (modLl s engine (fun l => { l with helloIn := true })) engine lkFinish 0 (keyFinish s.chord.node (llOf s engine).hello))

/-- KEY_FINISH: the link is OPEN under its new keys, whose FLIT_COUNT starts at 0. -/
def execKeyFinish (engine : Nat) (v : KeyVerdict) (s : State) : Host.Outcome State Fault Refusal :=
  if !nativeUp s engine ∨ (llOf s engine).llstate ≠ .keying ∨ !(llOf s engine).helloIn then .next s
  else if !keyOk s engine v then .next (mismatch s engine)
  else .next (rebuildRoutes (modLl s engine (fun l => installKeys l s.chord.node)))

/-- KEY_UPDATE from the partner: SWITCH_COUNT is a multiple of 2^16 and at least 2^16 ahead. -/
def execKeyUpdate (engine count : Nat) (s : State) : Host.Outcome State Fault Refusal :=
  let l := llOf s engine
  if !nativeUp s engine ∨ l.llstate ≠ .opened ∨ count % 2 ^ 16 ≠ 0 ∨ count < l.rxNext + 2 ^ 16 then .next s
  else .next (modLl s engine (fun l => { l with switchRx := some count }))

/-- The KEY_UPDATE of a count has its credits. -/
def mayUpdate (s : State) (e c : Nat) : Bool := mayTransmit s e (ctlPacket s.chord.node (llOf s e).partner (keyUpdate c))

/-- KEY_UPDATE_TRIGGER: FLIT_COUNT has reached 2^47; the hub names the flit from which the updated key holds. -/
def execKeyUpdateTrigger (engine : Nat) (s : State) : Host.Outcome State Fault Refusal :=
  let l := llOf s engine
  if !nativeUp s engine ∨ l.llstate ≠ .opened ∨ l.switchTx.isSome ∨ l.txCount - l.txBase < 2 ^ 47 then .next s
  else
    let c := roundUp (l.txCount - l.txBase + 2 ^ 16) (2 ^ 16)
    .next (if mayUpdate s engine c then sendCtl (modLl s engine (fun l => { l with switchTx := some c })) engine lkUpdate c (keyUpdate c) else s)

/-! ### Routes and forwarding (R378, R379) -/

/-- ROUTE_ADV: what the partner lists is learned; what it has left out four times in a row goes. -/
def execRouteAdv (engine : Nat) (nodes : List (Nat × Nat)) (s : State) : Host.Outcome State Fault Refusal :=
  if !nativeUp s engine ∨ (llOf s engine).llstate ≠ .opened then .next s
  else
    let listed := (nodes.filter (fun n => n.2 ≤ 3)).map (fun n => (n.1, n.2, 0))
    .next (rebuildRoutes (modLl s engine (fun l =>
      let old := (l.learned.filter (fun r => !nodes.any (fun n => n.1 == r.1) && r.2.2 + 1 < 4)).map (fun r => (r.1, r.2.1, r.2.2 + 1))
      { l with learned := listed ++ old })))

/-- ROUTE_AGE_OUT: four advertisements in a row have been missed. -/
def execRouteAgeOut (engine node : Nat) (s : State) : Host.Outcome State Fault Refusal :=
  if (llOf s engine).learned.any (fun r => r.1 == node) then
    .next (rebuildRoutes (modLl s engine (fun l => { l with learned := l.learned.filter (fun r => r.1 != node) })))
  else .next s

/-- Engines of the route to a node that are open. -/
def routeEngines (s : State) (node : Nat) : List Nat :=
  match s.chord.routes.find? (fun r => r.2.node == node) with
  | none => []
  | some (_, r) => (maskBits r.engines 12).filter (fun e => (llOf s e).llstate == .opened)

/-- Units of the largest line transaction of a packet. -/
def packetUnits (p : Packet) : Nat := max 1 (min 4 ((p.payload.length + 31) / 32))

/-- FORWARD: a packet for another node goes on through the receiving engine's port, its VC kept; without credits, or while its
port holds it, it waits. -/
def execForward (engine : Nat) (p : Packet) (s : State) : Host.Outcome State Fault Refusal :=
  if !nativeUp s engine ∨ (llOf s engine).llstate ≠ .opened ∨ p.dst = s.chord.node then .next s
  else if p.vc = 3 ∨ p.ptype = ptLinkCtl then .next (returnCredits s engine p)
  else if p.hops = 0 then
    .next (returnCredits { s with chord := { s.chord with hopsExpired := satInc 16 s.chord.hopsExpired } } engine p)
  else
    let l := routeEngines s p.dst
    if l.isEmpty then .next (returnCredits { s with chord := { s.chord with noRoute := satInc 16 s.chord.noRoute } } engine p)
    else
      match l.filter (fun e => mayTransmit s e p) with
      | [] => .next s
      | e :: _ =>
        if !portPasses s (chordMaster engine) (packetUnits p) then .next s
        else
          let k := { p with hops := p.hops - 1 }
          .next (emit (chargePacket (returnCredits (notePort s (chordMaster engine)) engine p) e k) (.packet e k))

/-! ### Associations of Ethernet mode (R384; 15 R428) -/

/-- An Ethernet-mode engine with a port UP. -/
def etherUp (s : State) (e : Nat) : Bool := e < 12 && (engineOf s e).estate == .up && isEthernet (engineOf s e) && (engineOf s e).ethUp != 0

def setAssoc (s : State) (i : Nat) (a : Assoc) : State := { s with chord := { s.chord with assocs := tset s.chord.assocs i a } }

/-- An association is set up: an older one of the address is accepted for one second more, and packets that waited go. -/
def assocReady (s : State) (i : Nat) (a : Assoc) : State :=
  let s := { s with chord := { s.chord with assocs := tmap s.chord.assocs (fun k (b : Assoc) =>
    if k ≠ i ∧ b.ipv6 = a.ipv6 ∧ b.astate = .up ∧ b.validTo.isNone then { b with validTo := some (s.time.now + 1000000 * us) } else b) } }
  let (n, s) := takeFresh s
  let low := Config.assocLower n
  let s := setAssoc s i { a with
    astate := .up, counter := 0, tries := 0, renewing := false
    txKey := linkKey (Config.linkSecret n) assocInfo low, rxKey := linkKey (Config.linkSecret n) assocInfo (!low) }
  forEach (tkeys s.chord.peers) s pump

/-- Associations whose second has passed make room. -/
def expireAssocs (s : State) : State :=
  { s with chord := { s.chord with assocs := s.chord.assocs.filter (fun e =>
    match e.2.validTo with | some t => decide (s.time.now < t) | none => true) } }

/-- INIT: at most 64 are answered per engine and millisecond. -/
def execInit (engine ipv6 remoteId : Nat) (v : KeyVerdict) (s : State) : Host.Outcome State Fault Refusal :=
  if !etherUp s engine then .next s
  else
    let l := llOf s engine
    let again := l.initAt + 1000 * us ≤ s.time.now
    if !again && 64 ≤ l.inits then .next (countAuthFail s engine)
    else
      let s := modLl s engine (fun l => { l with inits := if again then 1 else l.inits + 1, initAt := if again then s.time.now else l.initAt })
      if !v.certOk ∨ !v.lifecycleOk ∨ remoteId = 0 then .next (countAuthFail s engine)
      else
        let s := expireAssocs s
        match tfree s.chord.assocs 1 4097 with
        | none => .next s
        | some i => .next (emit (setAssoc s i { ipv6 := ipv6, astate := .respSent, remoteId := remoteId, tries := 1 }) (.linkCtl engine lkResp i))

/-- RESP to an INIT of this device. -/
def execResp (engine assoc remoteId : Nat) (v : KeyVerdict) (s : State) : Host.Outcome State Fault Refusal :=
  if !etherUp s engine then .next s
  else
    match tfind s.chord.assocs assoc with
    | none => .next (countAuthFail s engine)
    | some a =>
      if a.astate ≠ .initSent then .next s
      else if !v.certOk ∨ !v.lifecycleOk ∨ !v.sigOk ∨ remoteId = 0 then .next (countAuthFail s engine)
      else .next (assocReady (emit s (.linkCtl engine lkConfirm assoc)) assoc { a with remoteId := remoteId })

/-- CONFIRM of a RESP of this device. -/
def execConfirm (engine assoc : Nat) (v : KeyVerdict) (s : State) : Host.Outcome State Fault Refusal :=
  if !etherUp s engine then .next s
  else
    match tfind s.chord.assocs assoc with
    | none => .next (countAuthFail s engine)
    | some a =>
      if a.astate ≠ .respSent then .next s
      else if !v.sigOk then .next (countAuthFail s engine)
      else .next (assocReady s assoc a)

/-- HANDSHAKE_RETRY: repeated after 10 ms, up to 5 times; then it is given up. -/
def execHandshakeRetry (assoc : Nat) (s : State) : Host.Outcome State Fault Refusal :=
  match tfind s.chord.assocs assoc with
  | none => .next s
  | some a =>
    if a.astate ≠ .initSent ∧ a.astate ≠ .respSent then .next s
    else if 5 < a.tries then .next { s with chord := { s.chord with assocs := tdel s.chord.assocs assoc } }
    else .next (emit (setAssoc s assoc { a with tries := a.tries + 1 }) (.linkCtl 0 (if a.astate = .initSent then lkInit else lkResp) assoc))

/-- ASSOCIATION_RENEWAL: a new handshake with the endpoint; the old association serves until it is done. -/
def execAssociationRenewal (assoc : Nat) (s : State) : Host.Outcome State Fault Refusal :=
  match tfind s.chord.assocs assoc with
  | none => .next s
  | some a =>
    if a.astate ≠ .up ∨ a.renewing ∨ a.validTo.isSome then .next s
    else
      match tfree (expireAssocs s).chord.assocs 1 4097 with
      | none => .next s
      | some i =>
        let s := setAssoc (expireAssocs s) assoc { a with renewing := true }
        .next (emit (setAssoc s i { ipv6 := a.ipv6, astate := .initSent, tries := 1 }) (.linkCtl 0 lkInit i))

/-- The hub's own IPv6 address. -/
def ownAddress (s : State) : Nat := match s.boot.board.identity with | some i => i.ipv6 | none => 0

/-- NEIGHBOUR_SOLICITATION for the hub's own address is answered (R383). -/
def execNeighbourSolicitation (engine port target : Nat) (s : State) : Host.Outcome State Fault Refusal :=
  if etherUp s engine ∧ bitAt (engineOf s engine).ethUp port ∧ port < 4 ∧ target = ownAddress s then .next (emit s (.icmp engine port 136)) else .next s

/-- ECHO_REQUEST to the hub's own address is answered (R383). -/
def execEchoRequest (engine port target : Nat) (s : State) : Host.Outcome State Fault Refusal :=
  if etherUp s engine ∧ bitAt (engineOf s engine).ethUp port ∧ port < 4 ∧ target = ownAddress s then .next (emit s (.icmp engine port 129)) else .next s

end Sys2Proof.Machine
end

