-- ==== Sys2Proof/Machine/KernelMem.lean ====
section
/-! DEFINITION. Loads, stores, atomics and fences of a core, the return of data, and the arrival of fills (spec 04
R104–R106, R110–R119; 07 R195–R201). -/
namespace Sys2Proof.Machine

/-! ### Addresses of a core's accesses (04 R119) -/

/-- Why a core's access of `n` bytes at `a` is refused, as an error code; `none` when it is admitted. -/
def coreRefusal (s : State) (k : Nat) (write : Bool) (a n : Nat) : Option Nat :=
  accessRefusal s (corePartition s k) write a n

/-- A refusal counts for the core's partition when the firewall made it (15 R419). -/
def noteRefusal (s : State) (k : Nat) (code : Nat) : State :=
  if code = ecFirewall then countRefused s (corePartition s k) .firewall else s

/-- The bytes of an access that lie in the core's own scratch. -/
def ownScratch (s : State) (k a : Nat) : Bool := placeOf s a == .coreStore k

/-- The register space. -/
def isRegister (s : State) (a : Nat) : Option Nat := match placeOf s a with | .register off => some off | _ => none

/-! ### LD and ST -/

/-- 8, 16, 32, 64 or 128 bits and an offset of 12 signed bits (04 Table 4-12). -/
def memFormOk (f : MemForm) : Bool := [1, 2, 4, 8, 16].contains f.bytes && -2048 ≤ f.offset && f.offset < 2048

/-- The registers that a datum of `n` bytes takes, from `r` up. -/
def dataRegs (r n : Nat) : List Nat := if r = vz then [vz] else (List.range (max 1 (n / 4))).map (fun i => r + i)

/-- A datum in more than one register begins at an even one. -/
def dataOk (count r n : Nat) : Bool := r == vz || (r + max 1 (n / 4) ≤ count && (n ≤ 4 || r % 2 == 0))

/-- The address of thread `t`: the pair plus the offset, modulo 2^64. -/
def memAddr (g : Group) (f : MemForm) (sa t : Nat) : Nat := unsignedOf ((pairRead g sa t : Int) + f.offset) 64

/-- The bytes that one thread's load finds at once, in its own scratch. -/
def directBytes (s : State) (k a n : Nat) : Tab Byte × Bool :=
  (List.range n).foldl (fun (r : Tab Byte × Bool) i =>
    let x := a + i
    if ownScratch s k x then
      let (b, p) := readByte s x
      (tset r.1 x b, r.2 || p)
    else r) ([], false)

/-- The addresses of the register space that a load reads, each by a read of its own (07 R199; 00 R9). -/
def registerAddrs (s : State) (r : LoadRec) : List Nat := ((r.threads.map (·.2)).filter (fun a => (isRegister s a).isSome)).eraseDups

/-- Ask the register block for what load `id` reads of it. -/
def registerReads (s : State) (k id : Nat) (r : LoadRec) : State :=
  forEach (registerAddrs s r) s (fun s a =>
    (newTxn s { master := k / 64, kind := .read, hpa := a, bytes := r.bytes, tag := corePartition s k, client := .coreReg k id
                epoch := (cellarOf s (k / 64)).epoch, core := some k }).1)

/-- The bytes of a load that come through the caches, line by line: what each line must bring. -/
def cachedLines (s : State) (k : Nat) (r : LoadRec) : List (Nat × Nat) :=
  let ls := (r.threads.flatMap (fun t => linesOf t.2 r.bytes)).eraseDups
  (ls.filter (fun l => !ownScratch s k (l * 128) && (isRegister s (l * 128)).isNone)).map (fun l => (l, wantedMask r l))

/-- Begin a load: hits bring their bytes, misses are asked for. -/
def startLoad (s : State) (k : Nat) (r : LoadRec) : State :=
  let id := s.cells.nextId
  let s := { s with cells := { s.cells with nextId := id + 1 } }
  let (got, pz) := r.threads.foldl (fun (x : Tab Byte × Bool) t =>
    let (b, p) := directBytes s k t.2 r.bytes
    (overlay x.1 b, x.2 || p)) ([], false)
  let (s, got, pz, need) := (cachedLines s k r).foldl (fun (x : State × Tab Byte × Bool × List Nat) l =>
    let (s, got, pz, need) := x
    let (s, b, p, more) := coreLoad s k l.1 l.2 r.streaming
    (s, b.foldl (fun t (y : Nat × Byte) => tset t (l.1 * 128 + y.1) y.2) got, pz || p, need ++ more.toList)) (s, got, pz, [])
  let need := need ++ ((registerAddrs s r).map (· / 128)).eraseDups
  let s := registerReads s k id r
  modCore s k (fun c => { c with loads := tset c.loads id { r with need := need, got := got, poison := pz } })

/-- LD (04 Table 4-12, R110, R119): each thread loads at its pair plus the offset; with ACQUIRE, clean copies go first.  A
refused address returns poison with the load's data. -/
def execLd (i : Issue) (f : MemForm) (dst sa : Nat) (s : State) : Host.Outcome State Fault Refusal :=
  let n := declaredRegs s i.core
  kernel (guardOk i && memFormOk f && pairsOk n [sa] && dataOk n dst f.bytes)
    (issue s i (acquireReg :: pairRegs sa ++ dataRegs dst f.bytes) [] noWait (fun s g act =>
      let s := acquireOpt s i.core f.ordered
      let ts := act.map (fun t => (t, memAddr g f sa t))
      let bad := ts.filterMap (fun t => (coreRefusal s i.core false t.2 f.bytes).map (fun c => (c, t.2)))
      let r : LoadRec := { group := i.group, dst := dst, bytes := f.bytes, threads := ts, streaming := f.streaming
                           acquire := f.ordered, ret := dst != vz }
      let s := match bad with
        | (c, a) :: _ =>
          let id := s.cells.nextId
          let s := noteRefusal { s with cells := { s.cells with nextId := id + 1 } } i.core c
          modCore s i.core (fun x => { x with loads := tset x.loads id { r with error := some c, errAddr := a } })
        | [] => startLoad s i.core r
      advance s i act))

/-- The bytes of `n` that registers from `r` hold. -/
def dataRead (g : Group) (r n t : Nat) : Bytes :=
  if r = vz then leBytes n 0
  else if n ≤ 4 then leBytes n (regRead g r t)
  else (List.range (n / 4)).flatMap (fun i => leBytes 4 (regRead g (r + i) t))

/-- The bytes that one instruction stores, by address, the later thread's where two store one byte. -/
def storedBytes (l : List (Nat × Bytes)) : Tab Byte :=
  l.foldl (fun t e => e.2.zipIdx.foldl (fun t (x : Byte × Nat) => tset t (e.1 + x.2) x.1) t) []

/-- Store the bytes of one instruction from a core, line by line. -/
def storeBytes (s : State) (k : Nat) (b : Tab Byte) (stream : Bool) : State :=
  forEach ((b.map (·.1 / 128)).eraseDups) s (fun s l =>
    let t := (b.filter (fun e => e.1 / 128 == l)).map (fun e => (e.1 % 128, e.2))
    if ownScratch s k (l * 128) then scratchStore s k ((l * 128 - coreBase) % coreStride) t
    else coreStore s k l t stream)

/-- ST (04 Table 4-12, R114, R119): threads store in lane order; with RELEASE, earlier stores come first.  A refused store
is discarded and stops the step. -/
def execSt (i : Issue) (f : MemForm) (sa sb : Nat) (s : State) : Host.Outcome State Fault Refusal :=
  let n := declaredRegs s i.core
  kernel (guardOk i && memFormOk f && pairsOk n [sa] && dataOk n sb f.bytes)
    (issue s i (acquireReg :: pairRegs sa ++ dataRegs sb f.bytes) [] noWait (fun s _ act =>
      released s i act f.ordered (fun s act =>
        match groupOf s i.core i.group with
        | none => s
        | some g =>
          let ts := act.map (fun t => (t, memAddr g f sa t))
          let (s, bad) := ts.foldl (fun (x : State × Option (Nat × Nat)) t =>
            match coreRefusal x.1 i.core true t.2 f.bytes with
            | some c => (noteRefusal x.1 i.core c, match x.2 with | none => some (c, t.2) | some e => some e)
            | none => x) (s, none)
          let ok := ts.filter (fun t => (coreRefusal s i.core true t.2 f.bytes).isNone)
          let s := storeBytes s i.core (storedBytes (ok.map (fun t => (t.2, dataRead g sb f.bytes t.1)))) f.streaming
          let s := match bad with
            | some (c, a) => coreError s i.core c a
            | none => s
          advance s i act)))

/-! ### Atomics (04 R104–R106) -/

/-- Types that take register pairs. -/
def atomWide (ty : AtomType) : Bool := atomBytes ty == 8

/-- SB and SC are pairs for CAS and EXCH of a 64-bit type (04, after Table 4-6). -/
def atomPairs (op : AtomOp) (ty : AtomType) : Bool := atomWide ty && (op == .cas || op == .exch)

/-- The operand of a thread: where SB is one register and the type has 64 bits, it is extended by the type's sign. -/
def atomOperand (g : Group) (op : AtomOp) (ty : AtomType) (sb t : Nat) : Nat :=
  if atomPairs op ty then pairRead g sb t
  else if ty = .s64 then unsignedOf (signed (regRead g sb t) 32) 64
  else regRead g sb t

/-- The lanes of an atomic, addresses rounded to their natural alignment. -/
def atomLanes (g : Group) (op : AtomOp) (ty : AtomType) (sa sb sc : Nat) (act : List Nat) : List AtomLane :=
  act.map (fun t => {
    thread := t, addr := pairRead g sa t / atomBytes ty * atomBytes ty, sb := atomOperand g op ty sb t
    sc := if op = .cas then wideRead g (atomWide ty) sc t else 0 })

/-- The value of a location in masked bytes of a line. -/
def lineValue (l : CacheLine) (a n : Nat) : Nat := leNat ((List.range n).map (fun i => tget l.data ((a + i) % 128) 0))

/-- Perform an atomic on a cached line: its locations change and become dirty; answers old values and CAS successes. -/
def lineAtomic (l : CacheLine) (op : AtomOp) (ty : AtomType) (lanes : List AtomLane) :
    CacheLine × List (Nat × Nat) × List Nat :=
  let n := atomBytes ty
  let (t, olds, wins) := atomRun op ty (fun a => lineValue l a n) lanes
  (t.foldl (fun (l : CacheLine) (e : Nat × AtomCell) =>
    if op = .cas ∧ !e.2.won then l
    else mergeDirty l ((leBytes n e.2.now).zipIdx.map (fun b => ((e.1 + b.2) % 128, b.1))) 0) l, olds, wins)

/-- The bytes of a line that lanes touch. -/
def lanesMask (lanes : List AtomLane) (n : Nat) : Nat :=
  lanes.foldl (fun m l => (List.range n).foldl (fun m i => setBit m ((l.addr + i) % 128)) m) 0

/-- The lanes of one line. -/
def lanesOf (lanes : List AtomLane) (line : Nat) : List AtomLane := lanes.filter (fun l => l.addr / 128 == line)

/-- A core's dirty bytes of a line go down to its cellar's buffer, and its copy goes. -/
def pushCore (s : State) (k line : Nat) : State :=
  let s := closeCore s k line
  match coreFind (coreOf s k) line with
  | none => s
  | some key =>
    let l := tget (coreOf s k).lines key {}
    let s := modCore s k (fun c => { c with lines := tdel c.lines key })
    cellarStore s (k / 64) line (dirtyBytes l) l.poison false false

/-- A cellar's dirty bytes of a line go to home, and its copy goes. -/
def pushCellar (s : State) (c line : Nat) : State :=
  let s := closeCellar s c line
  match cellarFind (cellarOf s c) line with
  | none => s
  | some key =>
    let l := tget (cellarOf s c).lines key {}
    let s := modCellar s c (fun cl => { cl with lines := tdel cl.lines key })
    (writeHome s c line (dirtyBytes l) l.poison .none).1

/-- Where one line's part of an atomic is performed, and how it went: performed with old values, CAS successes and whether
it met poison; sent to home as a transaction; or waiting for the line. -/
inductive AtomStep where
  | performed (values : List (Nat × Nat)) (wins : List Nat) (poison : Bool)
  | sent (txn : Nat)
  | wait
  deriving DecidableEq, Repr, Inhabited

/-- Perform at the home that lies in the core's own cellar: its scratch or a core store of it. -/
def localAtomic (s : State) (op : AtomOp) (ty : AtomType) (lanes : List AtomLane) : State × AtomStep :=
  if lanes.any (fun l => (readByte s l.addr).2) then (s, .performed [] [] true)
  else
    let (s, v, w) := homeAtomic s op ty lanes
    (s, .performed v w false)

/-- Perform in the issuing core's store (04 Table 4-8, CORE). -/
def coreAtomicAt (s : State) (k line : Nat) (op : AtomOp) (ty : AtomType) (lanes : List AtomLane) : State × AtomStep :=
  let m := lanesMask lanes (atomBytes ty)
  match coreFind (coreOf s k) line with
  | some key =>
    let l := tget (coreOf s k).lines key {}
    if Nat.land m (notMask l.valid) ≠ 0 then ((coreLoad s k line m false).1, .wait)
    else if Nat.land l.poison (sectorsOf m) ≠ 0 then (s, .performed [] [] true)
    else
      let (l, v, w) := lineAtomic l op ty lanes
      (setCoreLine s k key { l with age := 0, stream := false }, .performed v w false)
  | none => ((coreLoad s k line m false).1, .wait)

/-- Perform in the issuing cellar's buffer (04 Table 4-8, CELLAR). -/
def cellarAtomicAt (s : State) (k line : Nat) (op : AtomOp) (ty : AtomType) (lanes : List AtomLane) : State × AtomStep :=
  let c := k / 64
  let m := lanesMask lanes (atomBytes ty)
  let s := pushCore s k line
  match cellarFind (cellarOf s c) line with
  | some key =>
    let l := tget (cellarOf s c).lines key {}
    if Nat.land m (notMask l.valid) = 0 then
      if Nat.land l.poison (sectorsOf m) ≠ 0 then (s, .performed [] [] true)
      else
        let (l, v, w) := lineAtomic l op ty lanes
        (setCellarLine s c key { l with age := 0, stream := false }, .performed v w false)
    else (askHome s c line m false [], .wait)
  | none => (askHome s c line m false [], .wait)

/-- Send to the home of the location as one transaction (04 Table 4-8, DEVICE and SYSTEM). -/
def homeAtomicAt (s : State) (k line id : Nat) (op : AtomOp) (ty : AtomType) (lanes : List AtomLane) : State × AtomStep :=
  let c := k / 64
  let s := pushCellar (pushCore s k line) c line
  let (s, n) := newTxn s {
    master := c, kind := .atomic, hpa := (lanes.headD {}).addr, bytes := 32, atom := some (op, ty), lanes := lanes
    tag := cellarOwner s c, client := .coreAtomic k id, epoch := (cellarOf s c).epoch, core := some k }
  (s, .sent n)

/-- One line's part of an atomic at its scope.  A location that the caches below cannot hold goes further out. -/
def atomAt (s : State) (k line id : Nat) (sc : Scope) (op : AtomOp) (ty : AtomType) (lanes : List AtomLane) :
    State × AtomStep :=
  let c := k / 64
  let p := placeOf s (line * 128)
  let own : Bool := match p with
    | .scratch c' => c' == c && !tracked s line
    | .coreStore j => j / 64 == c
    | _ => false
  if p == .coreStore k then localAtomic s op ty lanes
  else
    match sc with
    | .thread | .group | .core =>
      if (coreFind (coreOf s k) line).isSome || !(coreWays (coreOf s k)).isEmpty then coreAtomicAt s k line op ty lanes
      else if own then localAtomic (pushCore s k line) op ty lanes
      else if cellarCaches p && (match bankOf (cellarOf s c) line with
          | some b => !(cellarWays (cellarOf s c) b).isEmpty | none => false) then cellarAtomicAt s k line op ty lanes
      else homeAtomicAt s k line id op ty lanes
    | .cellar =>
      if own then localAtomic (pushCore s k line) op ty lanes
      else if cellarCaches p && ((cellarFind (cellarOf s c) line).isSome || (match bankOf (cellarOf s c) line with
          | some b => !(cellarWays (cellarOf s c) b).isEmpty | none => false)) then cellarAtomicAt s k line op ty lanes
      else homeAtomicAt s k line id op ty lanes
    | .device | .system =>
      if own then localAtomic (pushCore s k line) op ty lanes else homeAtomicAt s k line id op ty lanes

/-- Issue an atomic: the lines that can be performed or sent now are, and their threads go on; the lines that are not there are
asked for, and their threads issue the instruction again.  Threads of one location stay together (04 R104, R105). -/
def atomIssue (s : State) (i : Issue) (f : AtomForm) (op : AtomOp) (dst : Nat) (lanes : List AtomLane) : State :=
  let k := i.core
  let (id, s) := takeId s
  let r0 : LoadRec := { group := i.group, dst := dst, bytes := atomBytes f.atype, pdst := if op = .cas then f.pdst else pt
                        ret := f.ret, acquire := acquireScope f.order f.scope }
  let (s, r) := ((lanes.map (fun l => l.addr / 128)).eraseDups).foldl (fun (x : State × LoadRec) l =>
    let (s, r) := x
    let mine := lanesOf lanes l
    let r' := { r with threads := r.threads ++ mine.map (fun y : AtomLane => (y.thread, y.addr)) }
    match atomAt s k l id f.scope op f.atype mine with
    | (s, .performed v w p) => (s, { r' with values := r.values ++ v, wins := r.wins ++ w, poison := r.poison || p })
    | (s, .sent n) => (s, { r' with need := r.need ++ [n] })
    | (s, .wait) => (s, r)) (s, r0)
  if r.threads.isEmpty then s
  else advance (modCore s k (fun c => { c with loads := tset c.loads id r })) i (r.threads.map (·.1))

/-- An atomic instruction: an operation defined for its type, a release first when ORDER asks, addresses checked. -/
def atomInstr (op : AtomOp) (i : Issue) (f : AtomForm) (dst sa sb sc : Nat) (s : State) :
    Host.Outcome State Fault Refusal :=
  let n := declaredRegs s i.core
  let wide := atomPairs op f.atype
  let srcs := wideRegs wide sb ++ (if op = .cas then wideRegs wide sc else [])
  let dsts := if f.ret then wideRegs (atomWide f.atype) dst else []
  kernel (guardOk i && atomDefined op f.atype && f.pdst < 8 && pairsOk n [sa]
      && (if wide then pairsOk n [sb] else regsOk n [sb]) && (op != .cas || (if wide then pairsOk n [sc] else regsOk n [sc]))
      && (!f.ret || (if atomWide f.atype then pairsOk n [dst] else regsOk n [dst])))
    (issue s i (acquireReg :: pairRegs sa ++ srcs ++ dsts) (if op = .cas then [f.pdst] else []) noWait (fun s _ act =>
      released s i act (releaseScope f.order f.scope) (fun s act =>
        match groupOf s i.core i.group with
        | none => s
        | some g =>
          let lanes := atomLanes g op f.atype sa sb sc act
          match lanes.filterMap (fun l =>
              (coreRefusal s i.core true l.addr (atomBytes f.atype)).map (fun c => (c, l.addr))) with
          | (c, a) :: _ =>
            let id := s.cells.nextId
            let s := noteRefusal { s with cells := { s.cells with nextId := id + 1 } } i.core c
            let r : LoadRec := { group := i.group, dst := dst, bytes := atomBytes f.atype, error := some c, errAddr := a
                                 threads := lanes.map (fun l => (l.thread, l.addr)), ret := f.ret }
            advance (modCore s i.core (fun x => { x with loads := tset x.loads id r })) i act
          | [] =>
            -- a register location is no memory: the refusal above covers it, since every write to it is refused
            atomIssue s i f op dst lanes)))

/-- ATOM.ADD. -/
def execAtomAdd (i : Issue) (f : AtomForm) (dst sa sb : Nat) (s : State) : Host.Outcome State Fault Refusal :=
  atomInstr .add i f dst sa sb vz s

/-- ATOM.MIN. -/
def execAtomMin (i : Issue) (f : AtomForm) (dst sa sb : Nat) (s : State) : Host.Outcome State Fault Refusal :=
  atomInstr .min i f dst sa sb vz s

/-- ATOM.MAX. -/
def execAtomMax (i : Issue) (f : AtomForm) (dst sa sb : Nat) (s : State) : Host.Outcome State Fault Refusal :=
  atomInstr .max i f dst sa sb vz s

/-- ATOM.AND. -/
def execAtomAnd (i : Issue) (f : AtomForm) (dst sa sb : Nat) (s : State) : Host.Outcome State Fault Refusal :=
  atomInstr .and i f dst sa sb vz s

/-- ATOM.OR. -/
def execAtomOr (i : Issue) (f : AtomForm) (dst sa sb : Nat) (s : State) : Host.Outcome State Fault Refusal :=
  atomInstr .or i f dst sa sb vz s

/-- ATOM.XOR. -/
def execAtomXor (i : Issue) (f : AtomForm) (dst sa sb : Nat) (s : State) : Host.Outcome State Fault Refusal :=
  atomInstr .xor i f dst sa sb vz s

/-- ATOM.EXCH. -/
def execAtomExch (i : Issue) (f : AtomForm) (dst sa sb : Nat) (s : State) : Host.Outcome State Fault Refusal :=
  atomInstr .exch i f dst sa sb vz s

/-- ATOM.CAS (04 R106). -/
def execAtomCas (i : Issue) (f : AtomForm) (dst sa sb sc : Nat) (s : State) : Host.Outcome State Fault Refusal :=
  atomInstr .cas i f dst sa sb sc s

/-- ATOM.INC. -/
def execAtomInc (i : Issue) (f : AtomForm) (dst sa sb : Nat) (s : State) : Host.Outcome State Fault Refusal :=
  atomInstr .inc i f dst sa sb vz s

/-! ### FENCE -/

/-- FENCE (04 R111, R112): a release at SCOPE, an acquire, or both; ORDER 0 is refused. -/
def execFence (i : Issue) (scope : Scope) (order : Order) (s : State) : Host.Outcome State Fault Refusal :=
  kernel (guardOk i && order != .relaxed) (issue s i [acquireReg] [] noWait (fun s _ act =>
    released s i act (releaseScope order scope) (fun s act =>
      advance (acquireOpt s i.core (acquireScope order scope)) i act)))

/-! ### Data come back -/

/-- The register value of a load of `n` bytes: narrower than 32 bits, the upper bits are a free value. -/
def loadValue (got : Tab Byte) (a n : Nat) : Nat :=
  let x := leNat ((List.range n).map (fun i => tget got (a + i) 0))
  if n < 4 then x + field (Config.loadUpper n x) (8 * n) (32 - 8 * n) else x

/-- Write the data of a load or the old values of an atomic. -/
def writeLoad (r : LoadRec) (g : Group) : Group :=
  let g :=
    if !r.ret ∨ r.dst = vz then g
    else r.threads.foldl (fun g t =>
      let v := match r.values.find? (fun x => x.1 == t.1) with
        | some (_, v) => v
        | none => loadValue r.got t.2 r.bytes
      (List.range (max 1 (r.bytes / 4))).foldl (fun g j => regWrite g (r.dst + j) t.1 (v / 2 ^ (32 * j))) g) g
  r.threads.foldl (fun g t => predWrite g r.pdst t.1 (r.wins.contains t.1)) g

/-- LOAD_DATA_RETURN (04 R93, R119): the data reach the registers, and an ACQUIRE takes effect; poison or an access error
stops the step. -/
def execLoadDataReturn (core load : Nat) (s : State) : Host.Outcome State Fault Refusal :=
  match tfind (coreOf s core).loads load with
  | none => .next s
  | some r =>
    if !r.need.isEmpty then .next s
    else
      let s := modCore s core (fun c => { c with loads := tdel c.loads load })
      match r.error with
      | some c => .next (coreError s core c r.errAddr)
      | none =>
        if r.poison then .next (coreError s core ecPoisonConsumed (r.threads.headD (0, 0)).2)
        else .next (acquireOpt (modGroup s core r.group (writeLoad r)) core r.acquire)

/-- CACHE_FILL_ARRIVAL (07 R207): a fill arrives at the core store or the cellar buffer. -/
def execCacheFillArrival (at_ : FillAt) (s : State) : Host.Outcome State Fault Refusal :=
  match at_ with
  | .cellar c line => .next (cellarFillArrives s c line)
  | .core k line => .next (coreFillArrives s k line)

/-- TRACKER_IDLE_TIMEOUT (07 R198): 1,024 cycles have passed without an advance, and the tracker returns to idle. -/
def execTrackerIdleTimeout (cellar tracker : Nat) (s : State) : Host.Outcome State Fault Refusal :=
  match tfind (cellarOf s cellar).trackers tracker with
  | some t => .next (if noalloc t then modCellar s cellar (fun c => { c with trackers := tdel c.trackers tracker }) else s)
  | none => .next s

end Sys2Proof.Machine
end

