-- ==== Sys2Proof/Machine/KernelMatrix.lean ====
section
/-! DEFINITION. Matrix regions and matrix instructions (spec 04 R116–R118, 05 R128–R148). -/
namespace Sys2Proof.Machine

/-- A matrix instruction's guard is PT (04 R95). -/
def matrixGuard (i : Issue) : Bool := i.pred == pt && !i.pneg

/-! ### Entering and leaving a region -/

/-- MREGION.BEGIN (04 R116): the members gather, the group waits its turn for the accumulator store, and the region begins
with the members that have not exited; a thread of the entry mask that comes here again breaks the region. -/
def execMregionBegin (i : Issue) (sc endOffset : Nat) (s : State) : Host.Outcome State Fault Refusal :=
  kernel (matrixGuard i && pairsOk (declaredRegs s i.core) [sc] && 1 ≤ endOffset && endOffset < 2 ^ 18)
    (issue s i (pairRegs sc) [] beginWait (fun s g act =>
      let again := match g.region with | none => false | some r => act.any (fun t => bitAt r.entry t)
      if again then breakRegion s i.core i.group
      else
        match act.find? (fun t => gathered g (memberMask g sc t) act) with
        | none => setWaits s i.core i.group act (fun t => .regionBegin (memberMask g sc t))
        | some t0 =>
          let mask := memberMask g sc t0
          let members := (maskBits mask 64).filter (fun u => !bitAt g.exited u)
          let c := coreOf s i.core
          let turn := match c.regionQueue with | [] => true | q :: _ => q == i.group
          if c.tileOwner.isNone && turn then
            let s := modCore s i.core (fun c => { c with
              tileOwner := some i.group, regionQueue := c.regionQueue.filter (· != i.group) })
            let s := modGroup s i.core i.group (fun g => { g with
              region := some { first := i.pc, last := i.pc + endOffset, entry := maskOf members } })
            let rest := act.filter (fun t => !members.contains t)
            let s := setWaits s i.core i.group rest (fun t => .regionBegin (memberMask g sc t))
            advance s i members
          else
            let s := modCore s i.core (fun c => { c with
              regionQueue := if c.regionQueue.contains i.group then c.regionQueue else c.regionQueue ++ [i.group] })
            setWaits s i.core i.group act (fun t => .regionBegin (memberMask g sc t))))

/-- Every thread of the entry mask waits at a matrix instruction, at two or more different ones (04 R118). -/
def stuckRegion (g : Group) : Bool :=
  match g.region with
  | none => false
  | some r =>
    let e := maskBits r.entry 64
    e.all (fun t => tfind g.waits t == some .matrix)
      && (match e with | [] => false | t :: rest => rest.any (fun u => threadPc g u != threadPc g t))

/-- A matrix instruction inside a region: it executes once, when every thread of the entry mask has arrived; `op` acts with
the lowest thread of the mask (04 R117, R118). -/
def matrixOp (s : State) (i : Issue) (regs : List Nat) (op : State → Group → Nat → State) : State :=
  issue s i regs [] matrixWait (fun s g act =>
    match g.region with
    | none => breakRegion s i.core i.group
    | some r =>
      if act.any (fun t => !bitAt r.entry t) then breakRegion s i.core i.group
      else
        let e := maskBits r.entry 64
        if e.all (fun t => act.contains t) then
          let s := op s g (e.headD 0)
          -- the operation may have broken the region or stopped the step: the threads then stay
          if coreIssues s i.core then advance s i act else s
        else
          let s := setWaits s i.core i.group act (fun _ => .matrix)
          match groupOf s i.core i.group with
          | some g' => if stuckRegion g' then breakRegion s i.core i.group else s
          | none => s)

/-- MREGION.END: waits like a matrix instruction, then releases the accumulator store (04 R117). -/
def execMregionEnd (i : Issue) (s : State) : Host.Outcome State Fault Refusal :=
  kernel (matrixGuard i) (matrixOp s i [] (fun s _ _ =>
    let s := modCore s i.core (fun c => { c with tileOwner := none })
    modGroup s i.core i.group (fun g => { g with region := none })))

/-! ### The tile and the flag summary (05 R147) -/

/-- The flags of a tile, as bits 0–4 of the summary. -/
def tileFlags (t : Tile) : Nat :=
  b2n t.inexact + 2 * b2n t.overflow + 4 * b2n t.invalid + 8 * b2n t.t2Bad + 16 * b2n t.mixed

/-- Run a tile operation: the flags that it sets join the core's summary. -/
def onTile (s : State) (k : Nat) (f : Tile → Tile) : State :=
  modCore s k (fun c =>
    let t := c.tile
    let t' := f { t with inexact := false, overflow := false, invalid := false, t2Bad := false, mixed := false }
    { c with
      flags := Nat.lor c.flags (tileFlags t')
      tile := { t' with inexact := t'.inexact || t.inexact, overflow := t'.overflow || t.overflow
                        invalid := t'.invalid || t.invalid, t2Bad := t'.t2Bad || t.t2Bad, mixed := t'.mixed || t.mixed } })

/-- MZERO (05 R141). -/
def execMzero (i : Issue) (s : State) : Host.Outcome State Fault Refusal :=
  kernel (matrixGuard i) (matrixOp s i [] (fun s _ _ => modCore s i.core (fun c => { c with tile := mzero c.tile })))

/-- ANCHOR (05 R139). -/
def execAnchor (i : Issue) (sa : Nat) (auto : Bool) (s : State) : Host.Outcome State Fault Refusal :=
  kernel (matrixGuard i && regsOk (declaredRegs s i.core) [sa]) (matrixOp s i [sa] (fun s g t =>
    modCore s i.core (fun c => { c with tile := anchorTile c.tile auto (regRead g sa t) })))

/-! ### Operands in the core-store scratch -/

/-- Bytes of scratch of a core. -/
def scratchBytes (s : State) (k : Nat) : Nat := (coreOf s k).scratchUnits * 0x10000

/-- A matrix operand's offset: 256-byte aligned. -/
def operandAt (g : Group) (r t : Nat) : Nat := regRead g r t / 256 * 256

/-- The ranges an MMA reads: tiles, and the parts of the metadata block that its fields call for (05 R131).  DESIGN CHOICE: only
these parts of the block must lie in the scratch; the spec does not say whether all 1,280 bytes must. -/
def mmaRanges (f : MmaForm) (pa pb md : Nat) : List (Nat × Nat) :=
  [(pa, 512 * fmtWidth f.fmtA), (pb, 8 * storedPerColumn f.sparse * fmtWidth f.fmtB)]
    ++ (if f.zskip then [(md, 256)] else [])
    ++ (if f.scale != .none then [(md + 0x100, 512)] else [])
    ++ (if f.sparse != .dense then [(md + 0x300, 512)] else [])

/-- What of these ranges the MMA meets: of A, the rows that ZMAP holds present (05 R133). -/
def mmaMeets (f : MmaForm) (o : MmaOperands) (pa pb md : Nat) : List (Nat × Nat) :=
  (rowsPresent o).map (fun m => (pa + m * 8 * fmtWidth f.fmtA, 8 * fmtWidth f.fmtA)) ++ (mmaRanges f pa pb md).drop 1

/-- Poison among ranges of a core's scratch. -/
def scratchPoisoned (c : Core) (l : List (Nat × Nat)) : Bool :=
  l.any (fun r => c.scratchPoison.any (fun u => r.1 < (u + 1) * 32 && u * 32 < r.1 + r.2))

/-- MMA (05 R128–R140): operands outside the scratch, or a reserved metadata area that is not zero, break the region. -/
def execMma (i : Issue) (f : MmaForm) (sa sb sc : Nat) (s : State) : Host.Outcome State Fault Refusal :=
  kernel (matrixGuard i && mmaDefined f && f.hasMeta == (sc != vz) && regsOk (declaredRegs s i.core) [sa, sb, sc])
    (matrixOp s i [sa, sb, sc] (fun s g t =>
      let c := coreOf s i.core
      let md := operandAt g sc t
      let rd := fun off => (scratchByte c off).toNat
      let pa := operandAt g sa t
      let pb := operandAt g sb t
      let o := mmaOperands rd f pa pb md
      let reservedBad := f.zskip && (List.range 248).any (fun j => rd (md + 8 + j) != 0)
      if (mmaRanges f pa pb md).any (fun r => scratchBytes s i.core < r.1 + r.2) ∨ reservedBad then breakRegion s i.core i.group
      else if scratchPoisoned c (mmaMeets f o pa pb md) then
        coreError s i.core ecPoisonConsumed (coreBase + i.core * coreStride + pa)
      else onTile s i.core (fun tl => mma tl f o)))

/-- The seed of stochastic rounding: the step's ROUND_SEED (05 R143). -/
def roundSeedOf (s : State) (k : Nat) : Nat := match coreStep s k with | some (_, st) => st.roundSeed | none => 0

/-- Write an export to scratch, or break the region when it does not fit (05 R144). -/
def exportTo (s : State) (i : Issue) (off : Nat) (b : Bytes) (range : Bool) : State :=
  if scratchBytes s i.core < off + b.length then breakRegion s i.core i.group
  else
    let s := scratchStore s i.core off (b.zipIdx.map (fun e => (e.2, e.1)))
    if range then modCore s i.core (fun c => { c with flags := setBit c.flags 5 }) else s

/-- MEXPORT (05 R142–R144): FP32, BF16, FP8 E4M3 or FP8 E5M2. -/
def execMexport (i : Issue) (fmt : Fmt) (stochastic : Bool) (sa : Nat) (s : State) : Host.Outcome State Fault Refusal :=
  let okFmt := fmt == .fp32 || fmt == .bf16 || fmt == .fp8e4m3 || fmt == .fp8e5m2
  kernel (matrixGuard i && okFmt && regsOk (declaredRegs s i.core) [sa]) (matrixOp s i [sa] (fun s g t =>
    let (b, range) := exportTile (coreOf s i.core).tile fmt ((fpLayout fmt).getD fp32) stochastic (roundSeedOf s i.core)
    exportTo s i (operandAt g sa t) b range))

/-- MEXPORT.WIDE (05 R145). -/
def execMexportWide (i : Issue) (sa : Nat) (s : State) : Host.Outcome State Fault Refusal :=
  kernel (matrixGuard i && regsOk (declaredRegs s i.core) [sa]) (matrixOp s i [sa] (fun s g t =>
    exportTo s i (operandAt g sa t) (exportWide (coreOf s i.core).tile) false))

end Sys2Proof.Machine
end

