-- ==== Sys2Proof/Machine/KernelAlu.lean ====
section
/-! DEFINITION. The integer, floating-point, conversion and special instructions (spec 04 Tables 4-12 and 4-13, 05 R123–R127). -/
namespace Sys2Proof.Machine

/-- The sources an integer operation reads beside SA. -/
def intSources (o : IntOp) : Bool × Bool :=
  match o with
  | .not | .abs | .popc | .clz => (false, false)
  | .mad | .bfi | .sel => (true, true)
  | _ => (true, false)

/-- INT: a result in DST, or a comparison to a predicate; 32 bits, or 64 on pairs. -/
def execIntOp (i : Issue) (f : IntForm) (wide : Bool) (dst sa sb sc : Nat) (s : State) :
    Host.Outcome State Fault Refusal :=
  let n := declaredRegs s i.core
  let w := if wide then 64 else 32
  let ok := fun l => if wide then pairsOk n l else regsOk n l
  match f with
  | .op o =>
    let (b, c) := intSources o
    let srcs := [sa] ++ (if b then [sb] else []) ++ (if c then [sc] else [])
    kernel (guardOk i && ok (dst :: srcs)) (plain s i ((dst :: srcs).flatMap (wideRegs wide)) [] (fun _ g t =>
      wideWrite g wide dst t (intOp o w (wideRead g wide sa t) (wideRead g wide sb t) (wideRead g wide sc t))))
  | .cmp k sgn =>
    kernel (guardOk i && dst < 8 && ok [sa, sb]) (plain s i ([sa, sb].flatMap (wideRegs wide)) [dst] (fun _ g t =>
      predWrite g dst t (intCmp k sgn w (wideRead g wide sa t) (wideRead g wide sb t))))

/-- FP: FP32 and BF16X2 operations, and comparisons to a predicate. -/
def execFpOp (i : Issue) (f : FpForm) (dst sa sb sc : Nat) (s : State) : Host.Outcome State Fault Refusal :=
  let n := declaredRegs s i.core
  match f with
  | .op o =>
    kernel (guardOk i && regsOk n [dst, sa, sb, sc]) (plain s i [dst, sa, sb, sc] [] (fun _ g t =>
      regWrite g dst t (fpOp o (regRead g sa t) (regRead g sb t) (regRead g sc t))))
  | .cmp k =>
    kernel (guardOk i && dst < 8 && regsOk n [sa, sb]) (plain s i [sa, sb] [dst] (fun _ g t =>
      predWrite g dst t (fpCmp k (regRead g sa t) (regRead g sb t))))

/-- Elements of a format that one register packs. -/
def perRegister (f : Fmt) : Nat := 32 / fmtWidth f

/-- Replace element `e` of a register. -/
def putElement (x : Nat) (f : Fmt) (e v : Nat) : Nat :=
  let w := fmtWidth f
  x - bits x (e * w) w * 2 ^ (e * w) + v % 2 ^ w * 2 ^ (e * w)

/-- CVT: element `se` of RA, read in one format, becomes element `de` of RD in another; RD's other elements stay. -/
def execCvt (i : Issue) (src dst : Fmt) (rd ra se de : Nat) (s : State) : Host.Outcome State Fault Refusal :=
  kernel (guardOk i && regsOk (declaredRegs s i.core) [rd, ra] && se < perRegister src && de < perRegister dst)
    (plain s i [rd, ra] [] (fun _ g t =>
      let x := bits (regRead g ra t) (se * fmtWidth src) (fmtWidth src)
      regWrite g rd t (putElement (regRead g rd t) dst de (convert src dst x))))

/-- MOV of a register, or MOVI of a 32-bit immediate. -/
def execMov (i : Issue) (dst : Nat) (src : MovSrc) (s : State) : Host.Outcome State Fault Refusal :=
  let n := declaredRegs s i.core
  match src with
  | .reg sa => kernel (guardOk i && regsOk n [dst, sa]) (plain s i [dst, sa] [] (fun _ g t => regWrite g dst t (regRead g sa t)))
  | .imm x => kernel (guardOk i && regsOk n [dst] && x < 2 ^ 32) (plain s i [dst] [] (fun _ g t => regWrite g dst t x))

/-- The value of a special register (04 Table 4-13). -/
def specialValue (s : State) (i : Issue) (sr : SpecialReg) (t : Nat) : Nat :=
  match sr with
  | .thread => t
  | .group => i.group
  | .core => i.core
  | .cellar => i.core / 64
  | .strum => s.time.strumCount % 2 ^ 32
  | .fret => s.time.fret
  | .stepArg => match coreStep s i.core with | some (_, st) => st.argAddr | none => 0

/-- READ of a special register; SR_STEP_ARG, an address, takes a pair. -/
def execSpecialRead (i : Issue) (dst : Nat) (sr : SpecialReg) (s : State) : Host.Outcome State Fault Refusal :=
  let n := declaredRegs s i.core
  let wide := sr == .stepArg
  kernel (guardOk i && (if wide then pairsOk n [dst] else regsOk n [dst]))
    (plain s i (wideRegs wide dst) [] (fun s g t => wideWrite g wide dst t (specialValue s i sr t)))

end Sys2Proof.Machine
end

