-- ==== Sys2Proof/Machine/KernelWord.lean ====
section
/-! DEFINITION. Instruction words of kernels: their fields, the command that a word of a specified class spells, and the words that
IMAGE_LOAD refuses (spec 04 R95, R99, R100, Tables 4-3 to 4-6; 05 R129, R142). -/
namespace Sys2Proof.Machine

/-! ### Fields (04 Table 4-3) -/

/-- An instruction word by its fields. -/
structure KernelWord where
  cls : Nat
  op : Nat
  pneg : Bool
  pred : Nat
  dst : Nat
  sa : Nat
  sb : Nat
  sc : Nat
  md : Nat
  deriving DecidableEq, Repr, Inhabited

/-- The fields of a word. -/
def splitWord (w : Nat) : KernelWord := {
  cls := bits w 60 4, op := bits w 54 6, pneg := bits w 53 1 == 1, pred := bits w 50 3, dst := bits w 42 8, sa := bits w 34 8
  sb := bits w 26 8, sc := bits w 18 8, md := bits w 0 18 }

/-- The OFFSET in bits [41:18] of a BRA or BRX, in words.  DESIGN CHOICE: Table 4-5 gives BRX both SA, bits [41:34], and this OFFSET;
the model reads both, from the bits they share. -/
def wordOffset (x : KernelWord) : Int := signed (x.sc + 256 * x.sb + 65536 * x.sa) 24

/-- MOD holds no bit outside the fields listed, each as its lowest bit and its width. -/
def modOnly (x : KernelWord) (l : List (Nat × Nat)) : Bool :=
  (List.range 18).all (fun b => bits x.md b 1 == 0 || l.any (fun f => f.1 ≤ b && b < f.1 + f.2))

/-- What a word of a specified class spells: the single registers and the pairs that it names, and its command at a core, a group
and a program counter; BRX takes the table that its OFFSET names. -/
structure KernelForm where
  singles : List Nat := []
  pairs : List Nat := []
  command : Issue → List Int → Instr

/-- A form, where the word's own fields admit it. -/
def formIf (ok : Bool) (f : KernelForm) : Option KernelForm := if ok then some f else none

/-! ### The specified classes (04 Tables 4-5 and 4-6) -/

def scopeOf : Nat → Option Scope
  | 0 => some .thread | 1 => some .group | 2 => some .core | 3 => some .cellar | 4 => some .device | 5 => some .system
  | _ => none

def orderOf : Nat → Order
  | 1 => .acquire | 2 => .release | 3 => .acqRel | _ => .relaxed

def atomTypeOf : Nat → Option AtomType
  | 0 => some .u32 | 1 => some .s32 | 2 => some .u64 | 3 => some .s64 | 4 => some .f32 | 5 => some .bf16x2 | _ => none

/-- CTRL. -/
def ctrlForm (x : KernelWord) : Option KernelForm :=
  match x.op with
  | 0 => formIf (modOnly x []) { command := fun i _ => .nop i }
  | 1 => formIf (modOnly x []) { command := fun i _ => .bra i (wordOffset x) }
  | 2 => formIf (modOnly x [(0, 10)] && x.md != 0) { singles := [x.sa], command := fun i t => .brx i x.sa (wordOffset x) t }
  | 3 => formIf (modOnly x [(0, 3)]) { command := fun i _ => .split i x.md }
  | 4 => formIf (modOnly x [(0, 3)]) { command := fun i _ => .join i x.md }
  | 5 => formIf (modOnly x []) { command := fun i _ => .exit i }
  | 6 => formIf (modOnly x []) { command := fun i _ => .yield i }
  | _ => none

/-- XLANE. -/
def xlaneForm (x : KernelWord) : Option KernelForm :=
  let imm := bits x.md 17 1 == 1
  let f : ShflForm := { imm := if imm then some (bits x.md 0 6) else none, seg := bits x.md 8 3 }
  let form := fun (c : Issue → Instr) =>
    formIf (modOnly x [(17, 1), (8, 3), (0, 6)] && 1 ≤ f.seg && f.seg ≤ 6)
      { singles := [x.dst, x.sa] ++ (if imm then [] else [x.sb]), pairs := [x.sc], command := fun i _ => c i }
  -- with IMM the lane operand is IMMLANE, and the word's SB names nothing
  let sb := if imm then vz else x.sb
  match x.op with
  | 0 => form (fun i => .shflIdx i f x.dst x.sa sb x.sc)
  | 1 => form (fun i => .shflUp i f x.dst x.sa sb x.sc)
  | 2 => form (fun i => .shflDown i f x.dst x.sa sb x.sc)
  | 3 => form (fun i => .shflXor i f x.dst x.sa sb x.sc)
  | _ => none

/-- VOTE: predicates stand in the low bits of DST and SA.  DESIGN CHOICE: the bits of DST and SA above them are reserved. -/
def voteForm (x : KernelWord) : Option KernelForm :=
  let pin := x.sa % 8
  let inv := bits x.sa 3 1 == 1
  let plainMod := modOnly x []
  match x.op with
  | 0 => formIf (plainMod && x.dst < 8 && x.sa < 16) { pairs := [x.sc], command := fun i _ => .voteAll i x.dst pin inv x.sc }
  | 1 => formIf (plainMod && x.dst < 8 && x.sa < 16) { pairs := [x.sc], command := fun i _ => .voteAny i x.dst pin inv x.sc }
  | 2 => formIf (plainMod && x.sa < 16) { pairs := [x.dst, x.sc], command := fun i _ => .voteBallot i x.dst pin inv x.sc }
  | 3 => formIf plainMod { singles := [x.sa], pairs := [x.dst, x.sc], command := fun i _ => .match32 i x.dst x.sa x.sc }
  | 4 => formIf plainMod { pairs := [x.dst, x.sa, x.sc], command := fun i _ => .match64 i x.dst x.sa x.sc }
  | _ => none

/-- ATOM: SB, and SC for CAS, are pairs for CAS and EXCH of a 64-bit type; DST is named where RET is 1. -/
def atomForm (x : KernelWord) : Option KernelForm :=
  match atomTypeOf (bits x.md 15 3), scopeOf (bits x.md 12 3) with
  | some ty, some sc =>
    let f : AtomForm := {
      atype := ty, scope := sc, ret := bits x.md 11 1 == 1, order := orderOf (bits x.md 9 2), pdst := bits x.md 0 3 }
    let form := fun (op : AtomOp) (c : Issue → Instr) =>
      let srcs := x.sb :: (if op = .cas then [x.sc] else [])
      let dsts := if f.ret then [x.dst] else []
      let wide := atomPairs op ty
      formIf (modOnly x [(15, 3), (12, 3), (11, 1), (9, 2), (0, 3)] && atomDefined op ty) {
        singles := (if wide then [] else srcs) ++ (if atomWide ty then [] else dsts)
        pairs := x.sa :: ((if wide then srcs else []) ++ (if atomWide ty then dsts else []))
        command := fun i _ => c i }
    match x.op with
    | 0 => form .add (fun i => .atomAdd i f x.dst x.sa x.sb)
    | 1 => form .min (fun i => .atomMin i f x.dst x.sa x.sb)
    | 2 => form .max (fun i => .atomMax i f x.dst x.sa x.sb)
    | 3 => form .and (fun i => .atomAnd i f x.dst x.sa x.sb)
    | 4 => form .or (fun i => .atomOr i f x.dst x.sa x.sb)
    | 5 => form .xor (fun i => .atomXor i f x.dst x.sa x.sb)
    | 6 => form .exch (fun i => .atomExch i f x.dst x.sa x.sb)
    | 7 => form .cas (fun i => .atomCas i f x.dst x.sa x.sb x.sc)
    | 8 => form .inc (fun i => .atomInc i f x.dst x.sa x.sb)
    | _ => none
  | _, _ => none

/-- PEG. -/
def pegForm (x : KernelWord) : Option KernelForm :=
  match scopeOf (bits x.md 12 3) with
  | none => none
  | some sc =>
    let f : PegForm := { once := bits x.md 17 1 == 1, scope := sc, order := orderOf (bits x.md 9 2), pdst := bits x.md 0 3 }
    let form := fun (singles pairs : List Nat) (c : Issue → Instr) =>
      formIf (modOnly x [(17, 1), (12, 3), (9, 2), (0, 3)]) { singles := singles, pairs := pairs, command := fun i _ => c i }
    match x.op with
    | 0 => form [x.dst, x.sa, x.sb] [] (fun i => .pegArrive i f x.dst x.sa x.sb)
    | 1 => form [x.sa, x.sb] [] (fun i => .pegWait i f x.sa x.sb)
    | 2 => form [x.dst, x.sa, x.sb] [] (fun i => .pegSignal i f x.dst x.sa x.sb)
    | 3 => form [x.sa] [] (fun i => .pegReset i f x.sa)
    | 4 => form [x.sa] [x.dst] (fun i => .pegRead i f x.dst x.sa)
    | _ => none

/-- FENCE; ORDER 0 is reserved. -/
def fenceForm (x : KernelWord) : Option KernelForm :=
  match x.op, scopeOf (bits x.md 12 3) with
  | 0, some sc =>
    let o := orderOf (bits x.md 9 2)
    formIf (modOnly x [(12, 3), (9, 2)] && o != .relaxed) { command := fun i _ => .fence i sc o }
  | _, _ => none

/-- The fields of an MMA word; SPARSE 3, SCALE 3 and formats without a code are reserved. -/
def mmaForm (x : KernelWord) : Option MmaForm :=
  let sparse : Option Sparsity := match bits x.md 8 2 with | 0 => some .dense | 1 => some .two4 | 2 => some .one4 | _ => none
  let scale : Option Scaling := match bits x.md 5 2 with | 0 => some .none | 1 => some .mx32 | 2 => some .b16 | _ => none
  match fmtOf (bits x.md 14 4), fmtOf (bits x.md 10 4), sparse, scale with
  | some a, some b, some sp, some sc =>
    some { fmtA := a, fmtB := b, sparse := sp, zskip := bits x.md 7 1 == 1, scale := sc, hasMeta := x.sc != vz }
  | _, _, _, _ => none

/-- MATRIX.  DESIGN CHOICE: ROUND 2 and 3 and a guard of inverted PT are refused as reserved encodings are. -/
def matrixForm (x : KernelWord) : Option KernelForm :=
  if x.pred ≠ pt ∨ x.pneg then none
  else
    match x.op with
    | 0 => formIf (x.md != 0) { pairs := [x.sc], command := fun i _ => .mregionBegin i x.sc x.md }
    | 1 => formIf (modOnly x []) { command := fun i _ => .mregionEnd i }
    | 2 => formIf (modOnly x []) { command := fun i _ => .mzero i }
    | 3 => formIf (modOnly x [(7, 1)]) { singles := [x.sa], command := fun i _ => .anchor i x.sa (bits x.md 7 1 == 1) }
    | 4 =>
      match mmaForm x with
      | none => none
      | some f => formIf (modOnly x [(5, 13)] && mmaDefined f) {
          singles := [x.sa, x.sb, x.sc], command := fun i _ => .mma i f x.sa x.sb x.sc }
    | 5 =>
      match fmtOf (bits x.md 14 4) with
      | none => none
      | some f =>
        formIf (modOnly x [(12, 6)] && bits x.md 12 2 < 2 && (f == .fp32 || f == .bf16 || f == .fp8e4m3 || f == .fp8e5m2)) {
          singles := [x.sa], command := fun i _ => .mexport i f (bits x.md 12 2 == 1) x.sa }
    | 6 => formIf (modOnly x []) { singles := [x.sa], command := fun i _ => .mexportWide i x.sa }
    | _ => none

/-- The form of a word of a class that Table 4-5 gives. -/
def kernelForm (x : KernelWord) : Option KernelForm :=
  match x.cls with
  | 4 => ctrlForm x
  | 5 => xlaneForm x
  | 6 => voteForm x
  | 7 => atomForm x
  | 8 => pegForm x
  | 9 => fenceForm x
  | 10 => matrixForm x
  | _ => none

/-- A class that the spec defines by semantics alone, with no codes for its operations (04 Tables 4-4 and 4-12). -/
def semanticClass (x : KernelWord) : Bool := x.cls ≤ 3 || x.cls == 11

/-! ### BRX tables and the command at a program counter -/

/-- A BRX. -/
def isBrx (x : KernelWord) : Bool := x.cls == 4 && x.op == 2

/-- Where the table of a BRX at word `i` begins. -/
def tableBase (i : Nat) (x : KernelWord) : Int := (i : Int) + wordOffset x

/-- The table of a BRX at word `i` of a code: signed word offsets from the table's base (04 R100). -/
def brxTable (code : List Nat) (i : Nat) (x : KernelWord) : List Int :=
  (List.range (bits x.md 0 10)).map (fun (j : Nat) => signed (nth code (tableBase i x + j).toNat 0) 64)

/-- The table of a BRX lies in the code, and none of its entries leaves it. -/
def tableInside (code : List Nat) (i : Nat) (x : KernelWord) : Bool :=
  0 ≤ tableBase i x && tableBase i x + (bits x.md 0 10 : Nat) ≤ code.length
    && (brxTable code i x).all (fun e => 0 ≤ tableBase i x + e && tableBase i x + e < code.length)

/-- The command that the word at `pc` of a code spells for a core and a group, where its class is a specified one. -/
def kernelCommand (code : List Nat) (base core group pc : Nat) : Option Instr :=
  let x := splitWord (nth code (pc - base) 0)
  (kernelForm x).map (fun f => f.command { core := core, group := group, pc := pc, pneg := x.pneg, pred := x.pred }
    (if isBrx x then brxTable code (pc - base) x else []))

/-! ### What IMAGE_LOAD refuses (04 R95) -/

/-- The BRX words of a code that lie in no table of another BRX. -/
def brxWords (code : List Nat) : List (Nat × KernelWord) :=
  let l := (code.zipIdx.map (fun e => (e.2, splitWord e.1))).filter (fun e => isBrx e.2)
  let covers := fun (b e : Nat × KernelWord) => b.1 != e.1 && tableBase b.1 b.2 ≤ e.1
    && (e.1 : Int) < tableBase b.1 b.2 + (bits b.2.md 0 10 : Nat)
  l.filter (fun e => !l.any (fun b => covers b e))

/-- A word that a BRX table of the code holds is no instruction. -/
def inTable (l : List (Nat × KernelWord)) (i : Nat) : Bool :=
  l.any (fun b => tableBase b.1 b.2 ≤ i && (i : Int) < tableBase b.1 b.2 + (bits b.2.md 0 10 : Nat))

/-- The register count that binds word `i`.  DESIGN CHOICE (a kernel has an ENTRY and no length): a word belongs to the kernels of
the greatest ENTRY not above it, and to none where there is no such ENTRY. -/
def countAt (kernels : List (Nat × Nat × Nat)) (i : Nat) : Nat :=
  let l := kernels.filter (fun k => k.2.2 ≤ i)
  let e := l.foldl (fun m k => max m k.2.2) 0
  (l.filter (fun k => k.2.2 == e)).foldl (fun n k => min n k.1) 255

/-- A word is refused: an undefined class or operation, a reserved field that is not zero, a register at or above the count, or an
odd pair, a matrix predicate other than PT, a BRX table that leaves the code. -/
def wordRefused (code : List Nat) (n i w : Nat) : Bool :=
  let x := splitWord w
  !semanticClass x
    && (match kernelForm x with
        | none => true
        | some f => !(regsOk n f.singles && pairsOk n f.pairs) || (isBrx x && !tableInside code i x))

/-- The check of every instruction word of an image. -/
def codeRefused (code : List Nat) (kernels : List (Nat × Nat × Nat)) : Bool :=
  let brx := brxWords code
  code.zipIdx.any (fun e => !inTable brx e.2 && wordRefused code (countAt kernels e.2) e.2 e.1)

end Sys2Proof.Machine
end

