-- ==== Sys2Proof/Machine/Partitions.lean ====
section
/-! DEFINITION. Partitions: creation, reset, teardown and query (spec 15 R413–R417, R424–R425; 03 R80; 09 R269; 10 R285;
16 R460, R469). -/
namespace Sys2Proof.Machine

/-! ### The request of PARTITION_CREATE (15 Tables 15-4 and 15-5) -/

/-- The prime of P-384, and the constant of its curve. -/
def p384 : Nat := 2 ^ 384 - 2 ^ 128 - 2 ^ 96 + 2 ^ 32 - 1
def p384b : Nat :=
  0xb3312fa7e23ee7e4988e056be3f82d19181d9c6efe8141120314088f5013875ac656398d8a2ed19d2a85c8edd3ec2aef

/-- (x, y) is a point of P-384: y² = x³ − 3x + b modulo the prime. -/
def onP384 (x y : Nat) : Bool :=
  x < p384 && y < p384 && (y * y) % p384 == (x * x * x + 3 * (p384 - x) + p384b) % p384

/-- A coordinate keeps the byte order of its standard, the first byte highest (00 R6, 15 R410). -/
def beAt (b : Bytes) (off n : Nat) : Nat := leNat ((b.drop off).take n).reverse

/-- A region entry. -/
def readRegion (b : Bytes) : Region :=
  { kind := match bbits b 0 2 with | 0 => .memory | 1 => .scratch | _ => .peer
    larder := bbits b 2 1 == 1, window := bbits b 8 6, banks := bbits b 16 5, length := bbits b 32 32, base := bbits b 64 48 }

/-- A reserved field of a region entry is set. -/
def regionReserved (b : Bytes) : Bool :=
  bbits b 0 2 == 3 || bbits b 3 5 != 0 || bbits b 14 2 != 0 || bbits b 21 11 != 0 || bbits b 112 16 != 0

/-- The entries of a request. -/
def createRegions (b : Bytes) : List (Bytes × Region) :=
  (List.range (bbits b 8 8)).map (fun i => let e := (b.drop (128 + 16 * i)).take 16; (e, readRegion e))

/-- A range lies inside the usable range of one present shelf or one committed far-tier decoder. -/
def inOneMedium (s : State) (base len : Nat) : Bool :=
  if base < 12 * shelfSize then
    bitAt s.boot.presentShelves (base / shelfSize) && base % shelfSize + len ≤ shelfUsable s (base / shelfSize)
  else [0, 1].any (fun p => (farOf s p).decoders.any (fun e =>
    e.2.enable && decBase e.2 ≤ base && base + len ≤ decBase e.2 + decUsable e.2))

/-- One entry is wrong on its own. -/
def regionBad (s : State) (e : Bytes × Region) : Bool :=
  let r := e.2
  regionReserved e.1 || match r.kind with
    | .memory => r.base % 0x10000 != 0 || r.length == 0 || !inOneMedium s r.base (r.length * 0x10000)
    | .scratch => !r.larder || r.banks < 1 || 16 < r.banks
    | .peer => r.base % 0x10000 != 0 || r.length == 0 || peerStride < r.base + r.length * 0x10000

/-- Two regions overlap. -/
def regionsMeet (a b : Region) : Bool :=
  a.kind == b.kind && a.kind != .scratch && (a.kind == .memory || a.window == b.window)
    && a.base < b.base + b.length * 0x10000 && b.base < a.base + a.length * 0x10000

/-- Some two entries of a list overlap. -/
def anyMeet : List Region → Bool
  | [] => false
  | r :: l => l.any (regionsMeet r) || anyMeet l

/-- The owner key of a request. -/
def createKey (b : Bytes) : Nat × Nat := (beAt b 32 48, beAt b 80 48)

/-- The request is malformed (R414). -/
def createBad (s : State) (b : Bytes) : Bool :=
  let l := createRegions b
  let k := createKey b
  let scratch := (l.filter (fun e => e.2.kind == .scratch)).length
  bbits b 0 8 != 0x10 || 128 < bbits b 8 8 || bbits b 17 47 != 0 || bbits b 212 44 != 0 || bbits b 128 1 == 1
    || (k != (0, 0) && !onP384 k.1 k.2)
    || l.any (regionBad s) || anyMeet (l.map (·.2)) || 1 < scratch || (scratch == 1 && bbits b 64 64 == 0)

/-! ### Conflicts (R414) -/

/-- A larder page of a list of pages is not FREE; one that has left the pool is no larder page any more. -/
def pagesHeld (s : State) (base n : Nat) : Bool :=
  s.larder.pages.any (fun e => base ≤ e.1 && e.1 < base + n && e.2.pstate != .retired)

/-- A step of partition 0 holds a cellar. -/
def cellarBusy (s : State) (c : Nat) : Bool :=
  s.larder.steps.any (fun e => e.2.heldCellars.contains c && e.2.phase != .waiting && e.2.phase != .unrun)
    || pagesHeld s ((scratchBase + c * scratchStride) / 0x10000) 0x100

/-- Pages of two intervals meet. -/
def rangesMeet (a n b m : Nat) : Bool := a < b + m && b < a + n

/-- A region is not partition 0's to give. -/
def regionTaken (s : State) (r : Region) : Bool :=
  match r.kind with
  | .memory => (takenRanges s).any (fun t => rangesMeet (r.base / 0x10000) r.length t.1 t.2) || pagesHeld s (r.base / 0x10000) r.length
  | .scratch => false
  | .peer =>
    (match tfind s.chord.windows r.window with | some w => w.part != 0 | none => false)
      || s.part.parts.any (fun e => e.1 != 0 && e.2.pstate != .none
          && e.2.regions.any (fun x => x.kind == .peer && x.window == r.window))
      || pagesHeld s ((peerBase + r.window * peerStride + r.base) / 0x10000) r.length

/-- The first conflict: kind and index. -/
def createConflict (s : State) (b : Bytes) : Option (Nat × Nat) :=
  let first := fun (kind mask w : Nat) (bad : Nat → Bool) => ((maskBits mask w).find? bad).map (fun i => (kind, i))
  let l := [
    first 0 (bbits b 64 64) 64 (fun c => !bitAt s.boot.presentCellars c || cellarOwner s c != 0 || cellarBusy s c),
    first 1 (bbits b 128 64) 64 (fun m => (chanOf s m).owner != 0 || (chanOf s m).state != .free),
    first 2 (bbits b 192 12) 12 (fun e => !bitAt s.boot.presentEngines e || engineOwner s e != 0),
    first 3 (bbits b 204 8) 8 (fun t => !(siteOf s t).present || siteOwner s t != 0 || !(siteOf s t).parts.isEmpty),
    (((createRegions b).map (·.2)).zipIdx.find? (fun e => regionTaken s e.1)).map (fun e => (4, e.2))]
  l.findSome? id

/-! ### Zeroing (R415, R424) -/

/-- Snoop the dies on every tracked line of a range; `true` while an answer is due. -/
def recallRange (s : State) (base len : Nat) : State × Bool :=
  let ls := (s.attic.dir.filter (fun e => base ≤ e.1 * 128 && e.1 * 128 < base + len)).map (·.1)
  ls.foldl (fun (r : State × Bool) l =>
    let (s', b) := snoopLine r.1 l true none none
    (s', r.2 || b)) (s, false)

/-- Every MEMORY region of a partition is recalled from the dies. -/
def recallRegions (s : State) (p : Nat) : State × Bool :=
  ((partOf s p).regions.filter (fun r => r.kind == .memory)).foldl (fun (x : State × Bool) r =>
    let (s', b) := recallRange x.1 r.base (r.length * 0x10000)
    (s', x.2 || b)) (s, false)

/-- What a write-combining entry keeps when a range is overwritten: its bytes outside the range. -/
def cutEntry (base len : Nat) (e : WcbEntry) : WcbEntry :=
  let b := e.bytes.filter (fun x => e.line * 128 + x.1 < base || base + len ≤ e.line * 128 + x.1)
  let keep := fun h => if (halfBytes b h).isEmpty then 0 else field (bits e.poison h 1) h 1
  { e with bytes := b, poison := keep 0 + keep 1 }

/-- A range of memory is written with zeros: what waits in write-combining buffers for it, and its poison, are gone. -/
def zeroRange (s : State) (base len : Nat) : State :=
  let keep := fun (l : List WcbEntry) => (l.map (cutEntry base len)).filter (fun e => !e.bytes.isEmpty)
  let first := (base + 31) / 32
  let s := setPoison (zeroBytes s base len) first ((base + len) / 32 - first) false
  { s with mem := { s.mem with shelves := tmap s.mem.shelves (fun _ x => { x with wcb := keep x.wcb })
                               far := tmap s.mem.far (fun _ x => { x with wcb := keep x.wcb }) } }

/-- Every MEMORY region of a partition is written with zeros. -/
def zeroRegions (s : State) (p : Nat) : State :=
  forEach ((partOf s p).regions.filter (fun r => r.kind == .memory)) s (fun s r => zeroRange s r.base (r.length * 0x10000))

/-- Scratch banks and core stores of a cellar are zeroed, its ways are unlocked, and its pegs take TYPE NONE. -/
def zeroCellar (s : State) (c : Nat) : State :=
  let s := zeroRange s (scratchBase + c * scratchStride) scratchStride
  let s := { s with cells := { s.cells with cores := tmap s.cells.cores (fun k x =>
    if k / 64 = c then { x with scratch := [], stamp := none, scratchPoison := [], lines := [] } else x) } }
  pegsNone (modCellar s c (fun x => { x with lockedWays := 0 })) c

/-! ### Units that change hands (R415, R424; 10 R285; 16 R460) -/

/-- Master ports of the units of a partition. -/
def unitMasters (x : Partition) : List Nat :=
  maskBits x.cellarMask 64 ++ (maskBits x.atticMask 8).map (64 + ·) ++ (maskBits x.engineMask 12).map (72 + ·)

/-- Each master that moves takes G 0 and WEIGHT 16, and the partition has POOL_ALLOT 0 and SG 0. -/
def resetQos (s : State) (p : Nat) : State :=
  let l := unitMasters (partOf s p)
  { s with reg := { s.reg with
    masters := tmap s.reg.masters (fun m (x : Master) => if l.contains m then { x with guarantee := 0, weight := 16 } else x)
    allot := tdel s.reg.allot p
    shelves := s.reg.shelves.filter (fun e => e.1 % 16 != p) } }

/-- The cores of a partition's cellars. -/
def coresOfPart (x : Partition) : List Nat := (maskBits x.cellarMask 64).flatMap (fun c => (List.range 64).map (c * 64 + ·))

/-! ### The reset of a context (03 R80, 09 R269, 16 Table 16-13) -/

/-- A POSTED or TAKEN command of a mailbox ends with a reset's status. -/
def endMailbox (s : State) (m : Nat) (code : Status) : State :=
  let b := chanOf s m
  match b.state with
  | .posted =>
    let t : Taken := { hdr := hdrOf (areaBytes b.req 0 64), ctx := b.owner }
    cutCmd (modChan s m (fun b => { b with taken := some t })) m code
  | .taken => cutCmd s m code
  | _ => s

/-- POSTED and TAKEN commands of a context's mailboxes end with a reset's status. -/
def endMailboxes (s : State) (p : Nat) (code : Status) : State :=
  forEach (List.range 64) s (fun s m => if (chanOf s m).owner ≠ p then s else endMailbox s m code)

/-- End one step with a reset's status: what runs of it is gone. -/
def resetStep (s : State) (slot : Nat) (code : Status) : State :=
  let s := stopCores s slot
  let s := forEach (s.larder.movers.filter (fun e => e.1 != pagerUnit)) s (fun s e =>
    forEach (e.2.filter (fun j => j.step == slot)) s (fun s j => removeJob s e.1 (jobId j)))
  let s := forEach (s.chord.colls.filter (fun e => e.2.step == slot)) s (fun s e => dropColl s e.1)
  let s := { s with attic := { s.attic with sites := tmap s.attic.sites (fun _ x =>
    { x with parts := x.parts.filter (fun p => p.step != slot) }) } }
  endStep (modStep s slot (fun st => { st with code := some code, saved := [] })) slot true

/-- Steps of a partition in commit order. -/
def stepsInOrder (s : State) (p : Nat) : List Nat :=
  ((s.larder.steps.filter (fun e => e.2.part == p)).mergeSort (fun a b => !stepBefore s b.1 b.2 a.1 a.2)).map (·.1)

/-- Close every sequence of a partition; a close under way ends with the reset's status, and its effect stands. -/
def resetSeqs (s : State) (p : Nat) (code : Status) : State :=
  forEach (tkeys (seqsOf s p)) s (fun s q =>
    match (seqOf s q).close with
    | some i =>
      let s := finalize s i.seq code 1
      modSeq s q (fun x => { x with close := some { i with seq := 0, cancel := true } })
    | none => beginClose s q 0 true)

/-- Free a partition's images; an IMAGE_LOAD in progress ends with the reset's status and no effect. -/
def freeImages (s : State) (p : Nat) (code : Status) : State :=
  let mine := s.part.images.filter (fun e => e.2.part == p)
  let s := forEach mine s (fun s e => match e.2.loading with | some n => finalize s n code 0 | none => s)
  { s with part := { s.part with images := s.part.images.filter (fun e => e.2.part != p)
                                 polls := s.part.polls.filter (fun e => !mine.any (fun i => i.1 == e.1)) } }

/-- Every peer entry of a partition takes a new SENDER_EPOCH; its outstanding messages are gone (14 R394). -/
def resetPeers (s : State) (p : Nat) : State :=
  forEach (s.chord.peers.filter (fun e => e.2.part == p)) s (fun s e =>
    let (n, s) := takeFresh s
    modPeer s e.1 (fun x => { x with epoch := 1 + Config.random n % (2 ^ 32 - 1), messages := [], sent := [], queue := [] }))

/-- The units of a partition reset: its cellars, whose pegs become NONE, its dies and its peers (R469, Table 16-13). -/
def resetUnits (s : State) (p : Nat) : State :=
  let cells := (List.range 64).filter (fun c => cellarUp s c && cellarOwner s c == p)
  let taps := (List.range 64).filter (fun c => bitAt s.boot.presentCellars c && cellarOwner s c == p)
  let s := emit s (.harpMaintenance (taps.map (fun c => (c, cellarUp s c))))
  let s := forEach cells s (fun s c => pegsNone (cellarReset s c none) c)
  let sites := (List.range 8).filter (fun t => (siteOf s t).astate != .absent && siteOwner s t == p)
  resetPeers (forEach sites s dieReset) p

/-- The epoch of a context increments (03 R80). -/
def bumpEpoch (s : State) (p : Nat) : State :=
  if p = 0 then { s with part := { s.part with deviceEpoch := (s.part.deviceEpoch + 1) % 2 ^ 32 } }
  else modPart s p (fun x => { x with epoch := (x.epoch + 1) % 2 ^ 32 })

/-- The reset of a partition: records under the old epoch, then everything Table 16-13 resets, then CONTEXT_RESET under the new
one.  Counts of steps and sequences are kept for the final record. -/
def resetContext (s : State) (p : Nat) : State :=
  let s := endMailboxes s p .partitionReset
  let steps := stepsInOrder s p
  let s := forEach steps s (fun s slot => resetStep s slot .partitionReset)
  let s := freeImages s p .partitionReset
  let closed := (seqsOf s p).length
  let s := bumpEpoch (resetUnits (resetSeqs s p .partitionReset) p) p
  let s := modPart s p (fun x => { x with stepsEnded := steps.length, seqsClosed := closed })
  raiseTo s p .contextReset (source ucCp 0) (fun _ => 0)

/-- A partition enters or leaves a state (15 R435, 19 R525). -/
def enterState (s : State) (p : Nat) (st : PartState) (ph : Phase) : State :=
  bumpConfig (bumpGeneration (modPart s p (fun x => { x with pstate := st, phase := ph })))

/-! ### PARTITION_CREATE -/

/-- The effect of a creation: the partition takes its units, mailboxes and ranges from partition 0. -/
def createPartition (s : State) (p : Nat) (b : Bytes) : State :=
  let cells := (maskBits (bbits b 64 64) 64).filter (cellarUp s)
  -- what partition 0 holds in the caches of the cellars goes home under its own tag
  let s := forEach cells s (fun s c =>
    flushCellar (forEach ((List.range 64).map (c * 64 + ·)) s (fun s k => if coreUp s k then flushCore s k else s)) c)
  let epoch := (s.part.memEpochCount + 1) % 2 ^ 32
  let k := createKey b
  let x : Partition := {
    hostBar2 := bbits b 16 1 == 1, keyX := k.1, keyY := k.2, regions := (createRegions b).map (·.2)
    cellarMask := bbits b 64 64, mailboxMask := bbits b 128 64, engineMask := bbits b 192 12, atticMask := bbits b 204 8
    epoch := 1, memEpoch := epoch }
  let s := drawPartKeys { s with part := { s.part with memEpochCount := epoch } } p
  let s := enterState (modPart s p (fun _ => x)) p .transitioning .create
  let s := forEach (maskBits x.mailboxMask 64) s (fun s m => modChan s m (fun c => { c with
    owner := p, session := false, sessionMajor := 0, sessionMinor := 0 }))
  let s := { s with chord := { s.chord with windows := tmap s.chord.windows (fun w (y : PeerWindow) =>
    if x.regions.any (fun r => r.kind == .peer && r.window == w) then { y with part := p } else y) } }
  let s := forEach (coresOfPart x) s dropImages
  forEach (maskBits x.atticMask 8) (resetQos s p) dieReset

/-- PARTITION_CREATE. -/
def execPartitionCreate (c : Nat) (s : State) : Host.Outcome State Fault Refusal :=
  .next (runCmd s c opPartitionCreate (fun s t =>
    if createBad s t.req then failCmd s c .badField
    else
      match (List.range 16).find? (fun p => p != 0 && (partOf s p).pstate == .none) with
      | none => failCmd s c .noResource
      | some p =>
        match createConflict s t.req with
        | some (kind, i) => failCmd s c .noResource (field kind 0 8 + field i 8 8)
        | none =>
          let (s, n) := commit s
          let s := createPartition s p t.req
          complete s c .ok n (field p 0 4 + field (partOf s p).memEpoch 32 32)))

/-! ### PARTITION_RESET and PARTITION_DESTROY -/

/-- PARTITION_RESET (16 R469). -/
def execPartitionReset (c : Nat) (s : State) : Host.Outcome State Fault Refusal :=
  .next (runCmd s c opPartitionReset (fun s t =>
    let p := bbits t.req 0 4
    match firstFail [
        (bbits t.req 4 60 != 0, Status.badField), (!t.mgmt && p != t.ctx, .deniedPartition),
        (p != 0 && (partOf s p).pstate == .none, .badField),
        ((partOf s p).pstate == .transitioning, .partitionBusy)] with
    | some st => failCmd s c st
    | none =>
      let (s, n) := accept s c t p
      let s := enterState (modPart s p (fun x => { x with resetBy := some n })) p .transitioning .reset
      resetContext s p))

/-- Peer windows of a partition. -/
def windowsOf (s : State) (p : Nat) : List Nat := tkeys (s.chord.windows.filter (fun e => e.2.part == p))

/-- Numbers under which the drains of a teardown run, apart from every COMMIT_SEQ. -/
def teardownPasid (pasid : Nat) : Nat := 2 ^ 32 + pasid
def teardownWindow (p w : Nat) : Nat := 2 ^ 32 + p * 64 + w

/-- Phase DESTROY begins: steps 1 to 5 of R424. -/
def beginDestroy (s : State) (p : Nat) : State :=
  let s := resetContext (enterState s p .transitioning .destroy) p
  let s := { s with part := { s.part with models := s.part.models.filter (fun e => e.2.part != p) } }
  let pasids := tkeys (s.trans.bindings.filter (fun e => e.2.ctx == p && !e.2.draining))
  let s := forEach pasids s (fun s k => beginUnbind s (teardownPasid k) k)
  let s := forEach (windowsOf s p) s (fun s w => clearWindow s (teardownWindow p w) w)
  { s with chord := { s.chord with tags := s.chord.tags.filter (fun e => e.1 / 4 != p)
                                   peers := s.chord.peers.filter (fun e => e.2.part != p) } }

/-- PARTITION_DESTROY (15 R424): it begins at once, or when the phase that runs ends (R416).  A partition whose teardown is
already under way is as good as gone. -/
def execPartitionDestroy (c : Nat) (s : State) : Host.Outcome State Fault Refusal :=
  .next (runCmd s c opPartitionDestroy (fun s t =>
    let p := bbits t.req 0 4
    let x := partOf s p
    if p = 0 ∨ x.pstate = .none ∨ bbits t.req 4 60 ≠ 0 ∨ x.destroyBy.isSome then failCmd s c .badField
    else
      let (s, n) := accept s c t p
      let s := modPart s p (fun x => { x with destroyBy := some n })
      if x.pstate = .transitioning then s else beginDestroy s p))

/-- A phase CREATE or RESET ends: the partition is ACTIVE, a reset's final record follows, and a teardown that waits begins. -/
def endPhase (s : State) (p : Nat) : State :=
  let x := partOf s p
  let s := enterState (modPart s p (fun x => { x with resetBy := none })) p .active .create
  let s := match x.resetBy with
    | some n => finalize s n .ok (field (ctxEpoch s p) 0 32 + field x.stepsEnded 32 32 + field x.seqsClosed 64 32)
    | none => s
  if x.destroyBy.isSome then beginDestroy s p else s

/-- PARTITION_TRANSITION_DONE: the work of a phase CREATE or RESET is done. -/
def execPartitionTransitionDone (p : Nat) (s : State) : Host.Outcome State Fault Refusal :=
  let x := partOf s p
  if x.pstate ≠ .transitioning then .next s
  else match x.phase with
    | .destroy => .next s
    | .reset => .next (if (seqsOf s p).isEmpty then endPhase s p else s)
    | .create =>
      match recallRegions s p with
      | (s, true) => .next s
      | (s, false) => .next (endPhase (forEach ((maskBits x.cellarMask 64).filter (cellarUp s)) (zeroRegions s p) zeroCellar) p)

/-- The larder pages of a partition's pool go with it; retired and LOST pages stay what they are (17 R483, R484). -/
def dropPages (s : State) (p : Nat) : State :=
  let l := poolRanges s p
  let mine := s.larder.pages.filter (fun e => l.any (fun r => inRange r e.1))
  forEach mine s (fun s e =>
    if e.2.pstate = .retired ∨ e.2.pstate = .lost then s
    else if s.err.retireWaiting.contains e.1 then retirePage (dropPager s e.1 1025) e.1
    else freePage (dropPager s e.1 1025) e.1)

/-- Nothing of a partition drains any more. -/
def tornDown (s : State) (p : Nat) : Bool :=
  (seqsOf s p).isEmpty && !s.trans.bindings.any (fun e => e.2.ctx == p)
    && !s.chord.clears.any (fun e => teardownWindow p 0 ≤ e.1 && e.1 < teardownWindow p 64)

/-- RESULT[0] of an accepted command that a teardown ends: a binding or a load that has not ended had no effect, the effect of any
other stands (03 R80). -/
def standing (s : State) (n : Nat) : Nat :=
  match asyncOf s n with
  | some a => if a.opcode = opModelBind ∨ a.opcode = opImageLoad then 0 else 1
  | none => 0

/-- The resources of a partition return, and its final record is written. -/
def endDestroy (s : State) (p n : Nat) : State :=
  let x := partOf s p
  let cells := (maskBits x.cellarMask 64).filter (cellarUp s)
  let scrubbed := (x.regions.filter (fun r => r.kind == .memory)).length
  let s := dropPages (forEach cells (zeroRegions s p) zeroCellar) p
  let rest := (s.cp.asyncs.filter (fun a => a.ctx == p && a.seq != n && a.final.isNone)).map (·.seq)
  let s := forEach rest s (fun s m => finalize s m .partitionReset (standing s m))
  let s := { s with cp := { s.cp with eqs := tmap s.cp.eqs (fun _ e => if e.owner = p then {} else e) } }
  let s := resetQos s p
  let s := forEach (List.range 64) s (fun s m => if (chanOf s m).owner = p then modChan s m (fun b => { b with owner := 0 }) else s)
  let s := erasePartKeys { s with part := { s.part with parts := tdel s.part.parts p } } p
  let s := bumpConfig (bumpGeneration s)
  let s := forEach cells s (fun s c => forEach ((List.range 64).map (c * 64 + ·)) s (fun s k =>
    if coreUp s k && !(coreOf s k).resetting && !(cellarOf s c).resetting then reloadImages s k else s))
  finalize s n .ok (field scrubbed 0 32 + field x.stepsEnded 32 32)

/-- PARTITION_DESTROY_DONE: every drain has ended and every scrub write is accepted at home. -/
def execPartitionDestroyDone (p : Nat) (s : State) : Host.Outcome State Fault Refusal :=
  let x := partOf s p
  match x.destroyBy with
  | none => .next s
  | some n =>
    if x.pstate ≠ .transitioning ∨ x.phase ≠ .destroy ∨ !tornDown s p then .next s
    else match recallRegions s p with
      | (s, true) => .next s
      | (s, false) => .next (endDestroy s p n)

/-! ### PARTITION_QUERY (R417, Table 15-6) -/

/-- Units that a partition holds; partition 0 holds the present ones that no other does. -/
def unitsOf (s : State) (p n : Nat) (own : Partition → Nat) (present : Nat → Bool) (owner : Nat → Nat) : Nat :=
  if p = 0 then maskOf ((List.range n).filter (fun i => present i && owner i == 0)) else own (partOf s p)

def cellarMaskOf (s : State) (p : Nat) : Nat := unitsOf s p 64 (·.cellarMask) (bitAt s.boot.presentCellars) (cellarOwner s)
def engineMaskOf (s : State) (p : Nat) : Nat := unitsOf s p 12 (·.engineMask) (bitAt s.boot.presentEngines) (engineOwner s)
def siteMaskOf (s : State) (p : Nat) : Nat := unitsOf s p 8 (·.atticMask) (fun t => (siteOf s t).present) (siteOwner s)
def mailboxMaskOf (s : State) (p : Nat) : Nat := maskOf ((List.range 64).filter (fun m => (chanOf s m).owner == p))

/-- A region entry as bytes (Table 15-5). -/
def regionBytes (r : Region) : Bytes :=
  let kind := match r.kind with | .memory => 0 | .scratch => 1 | .peer => 2
  leBytes 16 (kind + field (b2n r.larder) 2 1 + field r.window 8 6 + field r.banks 16 5 + field r.length 32 32 + field r.base 64 48)

/-- The digest of an owner key: SHA-384 of X and Y, zero for an OPEN partition, its first byte first. -/
def keyDigest (s : State) (p : Nat) : Bytes :=
  if isOpen s p then List.replicate 48 0
  else (leBytes 48 (Config.sha384 ((leBytes 48 (partOf s p).keyX).reverse ++ (leBytes 48 (partOf s p).keyY).reverse))).reverse

/-- The layout block of a partition with its region entries. -/
def layoutBlock (s : State) (p : Nat) : Bytes :=
  let x := partOf s p
  let r := regionsOf s p
  leBytes 40 (0x10 + field p 8 4 + field (stateValue x.pstate) 12 2 + field (phaseValue x.phase) 14 2
      + field (b2n x.hostBar2) 16 1 + field (b2n (isOpen s p)) 17 1 + field (b2n (noMac s p)) 18 1
      + field (ctxEpoch s p) 32 32 + field x.memEpoch 64 32 + field r.length 96 32
      + field (cellarMaskOf s p) 128 64 + field (mailboxMaskOf s p) 192 64 + field (engineMaskOf s p) 256 12 + field (siteMaskOf s p) 268 8)
    ++ keyDigest s p ++ List.replicate 8 0 ++ r.flatMap regionBytes

/-- RESULT of PARTITION_QUERY: page counts of the four tiers, as latched. -/
def pageCounts (x : Partition) : Nat :=
  sum ((List.range 4).map (fun t =>
    let c := nth x.latchedPages t (0, 0)
    field c.1 (64 * t) 32 + field c.2 (64 * t + 32) 32))

/-- PARTITION_QUERY. -/
def execPartitionQuery (c : Nat) (wb : WriteBack) (s : State) : Host.Outcome State Fault Refusal :=
  .next (runCmd s c opPartitionQuery (fun s t =>
    let p := bbits t.req 0 4
    match firstFail [
        (bbits t.req 4 60 != 0, Status.badField),
        (!t.mgmt && p != t.ctx, .deniedPartition),
        ((partOf s p).pstate == .none, .badField)] with
    | some st => failCmd s c st
    | none => respondQuery s c t (pageCounts (partOf s p)) (layoutBlock s p) wb))

end Sys2Proof.Machine
end

