-- ==== Sys2Proof/Machine/Images.lean ====
section
/-! DEFINITION. IMAGE_LOAD, the chunks of an image and the cores' digest checks (spec 16 R457–R460, Table 16-9). -/
namespace Sys2Proof.Machine

/-- Instruction words that one instruction store holds: 128 KiB of 8-byte words. -/
def storeWords := 16384

/-- The kernels of an image: REGISTERS, SCRATCH_UNITS and ENTRY, and whether the entry is well formed. -/
def readKernels (b : Bytes) : List ((Nat × Nat × Nat) × Bool) :=
  let words := leAt b 8 4 / 8
  (List.range (leAt b 6 2)).map (fun i =>
    let e := (b.drop (160 + 16 * i)).take 16
    ((bbits e 32 8, bbits e 40 2, bbits e 0 32), bbits e 42 22 == 0 && 1 ≤ bbits e 32 8 && bbits e 0 32 < words))

/-- The first 64-bit words of bytes. -/
def wordsOf : Nat → Bytes → List Nat
  | 0, _ => []
  | n + 1, b => leAt b 0 8 :: wordsOf n (b.drop 8)

/-- The instruction words of an image (16 Table 16-9). -/
def imageCode (b : Bytes) : List Nat := wordsOf (leAt b 8 4 / 8) (b.drop (160 + 16 * leAt b 6 2))

/-- Layout and ranges of an image (R457 check 1). -/
def imageMalformed (b : Bytes) : Bool :=
  let k := leAt b 6 2
  let code := leAt b 8 4
  let sig := leAt b 12 4
  b.length < 160 || leAt b 0 4 != 0x4D494B4F || leAt b 4 1 != 0x10 || leAt b 5 1 != 0 || k < 1 || 256 < k
    || code % 8 != 0 || 131072 < code || sig < 160 + 16 * k + code || b.length != sig + 96
    || !(readKernels b).all (·.2)

/-- Words of the instruction store that a partition's images take. -/
def usedWords (s : State) (p : Nat) : Nat := sum ((s.part.images.filter (fun e => e.2.part == p)).map (fun e => e.2.words))

/-- Chunks of a code of so many words. -/
def chunksOf (words : Nat) : Nat := (words * 8 + 1023) / 1024

/-- SIGNER_KEY is the partition's owner key, unless the partition is OPEN. -/
def signerOk (s : State) (p : Nat) (b : Bytes) : Bool :=
  isOpen s p || (beAt b 64 48 == (partOf s p).keyX && beAt b 112 48 == (partOf s p).keyY)

/-- Why an image is refused, in the order of 16 R457.  The words of the classes that 04 Table 4-5 specifies are checked as 04 R95 says;
of the classes defined by semantics the spec gives no codes, and `inp.codeOk` says whether their words are defined. -/
def imageRefused (s : State) (p : Nat) (b : Bytes) (inp : ImageInput) : Option Status :=
  firstFail [
    (imageMalformed b, .badField), (!inp.sigOk || !signerOk s p b, .imageSignatureBad), (!inp.codeOk || codeRefused (imageCode b) ((readKernels b).map (·.1)), .badField),
    (storeWords < usedWords s p + leAt b 8 4 / 8, .noResource)]

/-- IMAGE_LOAD: after the commit the code is broadcast to every core of the partition. -/
def execImageLoad (c : Nat) (inp : ImageInput) (s : State) : Host.Outcome State Fault Refusal :=
  .next (runCmd s c opImageLoad (fun s t =>
    let b := t.req
    let p := t.ctx
    match imageRefused s p b inp with
    | some st => failCmd s c st
    | none =>
      let i := s.part.nextImage
      let words := leAt b 8 4 / 8
      let cores := ((List.range 4096).filter (fun k => coreUp s k && cellarOwner s (k / 64) == p))
      let (s, n) := accept s c t i
      let x : Image := {
        part := p, digest := beAt b 16 48, chunkCount := chunksOf words, words := words, code := imageCode b, base := usedWords s p
        kernels := (readKernels b).map (·.1), cores := cores.map (fun k => (k, {})), loading := some n }
      let s := { s with part := { s.part with images := tset s.part.images i x, nextImage := (i + 1) % 2 ^ 32,
                                              polls := s.part.polls ++ cores.map (fun k => (i, k)) } }
      settleImage (emit (bumpGeneration s) (.imageChunks i none (2 ^ x.chunkCount - 1))) i))

/-- A core of an image that loads or has been loaded. -/
def imageCore (s : State) (i k : Nat) : Option (Image × ImageCore) :=
  match tfind s.part.images i with
  | none => none
  | some x => (tfind x.cores k).map (fun y => (x, y))

def modImageCore (s : State) (i k : Nat) (f : ImageCore → ImageCore) : State :=
  { s with part := { s.part with images := tmodIf s.part.images i (fun x => { x with cores := tmodIf x.cores k f }) } }

/-- A resend round for chunks that a core lacks; after its fourth round the core is absent, and with it perhaps its cellar. -/
def resendChunks (s : State) (i k lacks n : Nat) (y : ImageCore) : State :=
  if y.rounds < 4 then
    let s := modImageCore s i k (fun y => { y with rounds := y.rounds + 1 })
    let s := { s with part := { s.part with images := tmodIf s.part.images i (fun x => { x with resent := x.resent + n }) } }
    sendChunks s i k lacks
  else
    let s := { s with part := { s.part with images := tmodIf s.part.images i (fun x => { x with failed := x.failed + 1 }) } }
    let s := coreAbsent s k causeImageLoad
    settleImages (if cellarTooSmall s (k / 64) then cellarReset s (k / 64) none else s)

/-- The core whose tap the CP polls now: the first of those it has named that can answer (01 R13). -/
def polledCore (s : State) : Option (Nat × Nat) := s.part.polls.find? (fun e => coreUp s e.2 && (imageCore s e.1 e.2).isSome)

/-- IMAGE_CHUNK_BITMAP (R458): the core that the CP polls answers with the chunks it holds. -/
def execImageChunkBitmap (image core bitmap : Nat) (s : State) : Host.Outcome State Fault Refusal :=
  match imageCore s image core with
  | none => .next s
  | some (x, y) =>
    if polledCore s != some (image, core) then .next s
    else
      let s := { s with part := { s.part with polls := s.part.polls.erase (image, core) } }
      let held := bitmap % 2 ^ x.chunkCount
      let s := modImageCore s image core (fun y => { y with chunks := held })
      if held = 2 ^ x.chunkCount - 1 then .next s
      else .next (resendChunks s image core (2 ^ x.chunkCount - 1 - held) (x.chunkCount - popCount held 128) y)

/-- CORE_DIGEST_CHECK_DONE (R459): a core that holds every chunk has compared the code's digest. -/
def execCoreDigestCheckDone (image core : Nat) (ok : Bool) (s : State) : Host.Outcome State Fault Refusal :=
  match imageCore s image core with
  | none => .next s
  | some (x, y) =>
    let all := 2 ^ x.chunkCount - 1
    if y.digestOk || y.chunks != all || !coreUp s core then .next s
    else if ok then .next (settleImage (modImageCore s image core (fun y => { y with digestOk := true })) image)
    else .next (resendChunks (modImageCore s image core (fun y => { y with chunks := 0 })) image core all x.chunkCount y)

end Sys2Proof.Machine
end

