-- ==== Sys2Proof/Machine/Models.lean ====
section
/-! DEFINITION. MODEL_BIND, MODEL_UNBIND and their ends (spec 15 R430–R432, Table 15-9). -/
namespace Sys2Proof.Machine

/-- A range entry of MODEL_BIND. -/
def readModelRange (b : Bytes) : ModelRange :=
  { src := bbits b 0 64, dst := bbits b 64 64, chunks := bbits b 128 32, tagAddr := bbits b 192 64 }

/-- The entries of a request. -/
def modelEntries (b : Bytes) : List Bytes := (List.range (bbits b 8 8)).map (fun i => (b.drop (96 + 32 * i)).take 32)

def rangeBytes (r : ModelRange) : Nat := r.chunks * 0x10000

/-- A range lies inside some regions taken together. -/
def coveredBy (l : List Region) : Nat → Nat → Nat → Bool
  | 0, _, _ => false
  | fuel + 1, a, n =>
    match l.find? (fun r => regionHolds r a) with
    | none => false
    | some r =>
      let stop := r.base + r.length * 0x10000
      a + n ≤ stop || coveredBy l fuel stop (a + n - stop)

/-- A range lies in MEMORY regions of a partition that are not LARDER. -/
def plainMemory (s : State) (p a n : Nat) : Bool :=
  let l := (regionsOf s p).filter (fun r => r.kind == .memory && !r.larder)
  coveredBy l (l.length + 1) a n

/-- A range belongs to a partition. -/
def insidePartition (s : State) (p a n : Nat) : Bool :=
  match admitRange s p false a n with
  | .ok (.register _) => false
  | .ok _ => true
  | _ => false

/-- One pair of a list of intervals meets. -/
def anyRangesMeet : List (Nat × Nat) → Bool
  | [] => false
  | x :: l => l.any (fun y => rangesMeet x.1 x.2 y.1 y.2) || anyRangesMeet l

/-- The ranges of a request are wrong (R430). -/
def modelBad (s : State) (p : Nat) (b : Bytes) : Bool :=
  let e := modelEntries b
  let l := e.map readModelRange
  let dst := l.map (fun r => (r.dst, rangeBytes r))
  let other := (s.part.models.flatMap (fun m => m.2.ranges.map (fun r => (r.dst, rangeBytes r))))
    ++ l.flatMap (fun r => [(r.src, rangeBytes r), (r.tagAddr, 16 * r.chunks)])
  bbits b 0 8 != 0x10 || bbits b 8 8 < 1 || 64 < bbits b 8 8 || bbits b 16 48 != 0 || bbits b 160 32 != 0
    || bbits b 576 192 != 0 || e.any (fun x => bbits x 160 32 != 0)
    || l.any (fun r => r.chunks < 1 || 2 ^ 20 < r.chunks || !plainMemory s p r.dst (rangeBytes r)
        || !insidePartition s p r.src (rangeBytes r) || !insidePartition s p r.tagAddr (16 * r.chunks))
    || anyRangesMeet dst || dst.any (fun x => other.any (fun y => rangesMeet x.1 x.2 y.1 y.2))
    || !insidePartition s p (bbits b 64 64) (max 1 (bbits b 128 32))

/-- Bindings in progress, and models bound. -/
def bindsActive (s : State) : Nat := (s.part.models.filter (fun e => !e.2.bound)).length
def modelsBound (s : State) : Nat := (s.part.models.filter (fun e => e.2.bound)).length

/-- MODEL_BIND: the blob goes to the SE. -/
def execModelBind (c : Nat) (s : State) : Host.Outcome State Fault Refusal :=
  .next (runCmd s c opModelBind (fun s t =>
    match firstFail [(modelBad s t.ctx t.req, Status.badField),
        (8 ≤ bindsActive s || 1024 ≤ modelsBound s, .noResource)] with
    | some st => failCmd s c st
    | none =>
      let h := s.part.nextModel
      let (s, _) := accept s c t h (bbits t.req 64 64)
      bumpGeneration { s with part := { s.part with
        models := tset s.part.models h { part := t.ctx, ranges := (modelEntries t.req).map readModelRange }
        nextModel := (h + 1) % 2 ^ 32 } }))

/-- The ranges of a model are recalled from the dies; `true` while an answer is due. -/
def recallModel (s : State) (m : Model) : State × Bool :=
  m.ranges.foldl (fun (x : State × Bool) r =>
    let (s', b) := recallRange x.1 r.dst (rangeBytes r)
    (s', x.2 || b)) (s, false)

/-- A binding fails: what has been written of its ranges is zeroed, and nothing is bound. -/
def failBind (s : State) (seq h : Nat) (m : Model) (err range chunk : Nat) : State :=
  let s := forEach (m.ranges.zipIdx) s (fun s (e : ModelRange × Nat) =>
    if e.2 < range then zeroRange s e.1.dst (rangeBytes e.1)
    else if e.2 = range then zeroRange s e.1.dst (chunk * 0x10000) else s)
  let s := { s with part := { s.part with models := tdel s.part.models h } }
  finalize s seq .badField (field err 32 8 + field range 40 8 + field chunk 64 32)

/-- MODEL_BIND_SE_DONE (R431). -/
def execModelBindSeDone (seq : Nat) (r : SeOutcome) (s : State) : Host.Outcome State Fault Refusal :=
  match asyncOf s seq with
  | none => .next s
  | some a =>
    match tfind s.part.models a.obj with
    | none => .next s
    | some m =>
      if a.opcode ≠ opModelBind ∨ m.bound then .next s
      else match r with
        | .digest => .next (failBind s seq a.obj m 1 0 0)
        | .notInRoster => .next (failBind s seq a.obj m 2 0 0)
        | .unwrap => .next (failBind s seq a.obj m 3 0 0)
        | .tag range chunk =>
          if range < m.ranges.length ∧ chunk < (nth m.ranges range {}).chunks then
            match recallModel s m with
            | (s, true) => .next s
            | (s, false) => .next (failBind s seq a.obj m 4 range chunk)
          else .next s
        | .ok plain =>
          if plain.map List.length ≠ m.ranges.map rangeBytes then .next s
          else match recallModel s m with
            | (s, true) => .next s
            | (s, false) =>
              let s := noteDevice s a.arg
              let id := leNat (readBytes s (a.arg + 16) 16)
              let s := forEach (m.ranges.zip plain) s (fun s (e : ModelRange × Bytes) => writeBytes (noteDevice s e.1.dst) e.1.dst e.2)
              let s := { s with part := { s.part with models := tset s.part.models a.obj { m with bound := true, modelId := id } } }
              .next (finalize s seq .ok a.obj)

/-- An open sequence names a model. -/
def modelInUse (s : State) (h : Nat) : Bool := s.larder.seqs.any (fun e => e.2.sstate == .opened && e.2.model == h)

/-- MODEL_UNBIND. -/
def execModelUnbind (c : Nat) (s : State) : Host.Outcome State Fault Refusal :=
  .next (runCmd s c opModelUnbind (fun s t =>
    let h := bbits t.req 0 32
    if bbits t.req 32 32 ≠ 0 ∨ !modelBound s t.ctx h ∨ modelInUse s h then failCmd s c .badField
    else
      let (s, n) := accept s c t h
      bumpGeneration { s with part := { s.part with models := tmodIf s.part.models h (fun m => { m with unbinding := some n }) } }))

/-- MODEL_UNBIND_DONE (R432): the ranges are zeroed, and the protection goes before the final record. -/
def execModelUnbindDone (model : Nat) (s : State) : Host.Outcome State Fault Refusal :=
  match tfind s.part.models model with
  | none => .next s
  | some m =>
    match m.unbinding with
    | none => .next s
    | some n =>
      match recallModel s m with
      | (s, true) => .next s
      | (s, false) =>
        let s := forEach m.ranges s (fun s r => zeroRange s r.dst (rangeBytes r))
        .next (finalize { s with part := { s.part with models := tdel s.part.models model } } n .ok 0)

end Sys2Proof.Machine
end

