-- ==== Sys2Proof/Machine/Spdm.lean ====
section
/-! DEFINITION. Attestation: the SPDM responder, its measurements, the management session, and ATTEST (spec 15 R409, R433–R436,
Tables 15-10 and 15-11). -/
namespace Sys2Proof.Machine

/-! ### The report (Table 15-11) -/

/-- The active-slot record in force: the copy with the higher SEQ (16 R443). -/
def slotRecord (s : State) : SlotRecord :=
  (s.boot.slotRecords.filterMap id).foldl (fun b r => if b.seq ≤ r.seq then r else b) {}

/-- The staged firmware image: one being written, or one that the record marks as valid. -/
def stagedImage (s : State) : Option FwImage :=
  match s.boot.staging with
  | some x => some x.image
  | none => if (slotRecord s).stagedValid then tfind s.boot.slots (1 - s.boot.slot % 2) else none

/-- The log of limited changes, entry by entry. -/
def logContent (l : List LogEntry) : List Nat :=
  l.flatMap (fun e => [e.setting, e.site, e.result, e.start, e.old, e.new, e.requester])

/-- One measurement; `scope` is the partition context that asks, if one does. -/
def measurement (s : State) (scope : Option Nat) (i : Nat) : Measurement :=
  let parts := match scope with | some p => [p] | none => 0 :: partCtxs s
  let fw := fun (f : FwImage) => [f.digest, f.version]
  let fuses := s.boot.fuses
  let l : List Nat :=
    match i with
    | 1 =>
      let m := match scope with | some p => field (bits (transitioningMask s) p 1) p 1 | none => transitioningMask s
      [0x10, s.part.generation, b2n s.part.updateInProgress, m, b2n (lifecyclePending s), fuses.serial,
       variantValue s.boot.variantNow]
    | 2 => [Config.romDigest]
    | 3 => fw s.boot.fw
    | 4 => (match stagedImage s with | some f => fw f | none => [0, 0])
    | 5 => [s.boot.board.digest]
    | 6 => [variantValue fuses.variant, lifecycleValue fuses.lifecycle, fuses.antiRollback]
        ++ (List.range 8).flatMap (fun t => let x := tget fuses.sites t {}; [x.profileWrites, x.mapWrites])
        ++ [s.err.pagesRetired]
    | 7 => logContent fuses.log
    | 8 => parts.flatMap (fun p => [p, leNat (layoutBlock s p)])
    | 9 => [Config.bindingKey (s.boot.lifecycleNow == .fieldDebug)]
    | _ => (s.part.images.filter (fun e => e.2.loaded && parts.contains e.2.part)).map (fun e => e.2.digest)
        ++ (s.part.models.filter (fun e => e.2.bound && parts.contains e.2.part)).map (fun e => e.2.modelId)
  { index := i, content := l }

/-- The measurements that a request names: all of them, or one; taken from one state (R435). -/
def measurements (s : State) (scope : Option Nat) (index : Nat) : List Measurement :=
  if index = 0xFF then (List.range 10).map (fun i => measurement s scope (i + 1))
  else if 1 ≤ index ∧ index ≤ 10 then [measurement s scope index] else []

/-! ### The responder (Table 15-10).  Response and error codes are the SPDM standard's. -/

/-- The requests, by their SPDM codes. -/
def spGetDigests := 0x81
def spGetCertificate := 0x82
def spChallenge := 0x83
def spGetVersion := 0x84
def spGetMeasurements := 0xE0
def spGetCapabilities := 0xE1
def spNegotiate := 0xE3
def spKeyExchange := 0xE4
def spFinish := 0xE5
def spHeartbeat := 0xE8
def spKeyUpdate := 0xE9
def spEndSession := 0xEC

def convOf (s : State) (t : Nat) : SpdmConv := tget s.part.spdm t {}
def modConv (s : State) (t : Nat) (f : SpdmConv → SpdmConv) : State :=
  { s with part := { s.part with spdm := tmod s.part.spdm t {} f } }

/-- An SPDM answer goes out on a transport. -/
def spdmAnswer (s : State) (t code value : Nat) : State := emit s (.spdm t code value)

/-- An SPDM ERROR response: 1 invalid request, 4 unexpected request, 7 unsupported request, 0x41 version mismatch. -/
def spdmError (s : State) (t err : Nat) : State := spdmAnswer s t 0x7F err

/-- The requests that ATTEST carries as well. -/
def spdmOpen (s : State) (t code : Nat) (scope : Option Nat) (m : SpdmIn) : State :=
  let x := convOf s t
  if !m.ok then spdmError s t 1
  else if code = spGetVersion then
    spdmAnswer (modConv s t (fun x => { x with version := 0, capsDone := false, algsDone := false })) t 0x04 0x1312
  else if code = spGetCapabilities then
    if m.version = 0x13 ∨ m.version = 0x12 then
      spdmAnswer (modConv s t (fun x => { x with version := m.version, capsDone := true, algsDone := false })) t 0x61 m.version
    else spdmError s t 0x41
  else if !x.capsDone ∨ m.version ≠ x.version then spdmError s t (if x.capsDone then 0x41 else 4)
  else if code = spNegotiate then spdmAnswer (modConv s t (fun x => { x with algsDone := true })) t 0x63 0
  else if !x.algsDone then spdmError s t 4
  else if code = spGetDigests then spdmAnswer s t 0x01 1
  else if code = spGetCertificate then if m.param = 0 then spdmAnswer s t 0x02 0 else spdmError s t 1
  else if code = spChallenge then if m.param = 0 then spdmAnswer s t 0x03 0 else spdmError s t 1
  else if code = spGetMeasurements then
    if m.param = 0 then spdmAnswer s t 0x60 10
    else match measurements s scope m.param with
      | [] => spdmError s t 1
      | l => emit (spdmAnswer s t 0x60 l.length) (.measurements t l)
  else spdmError s t 7

/-! ### Sessions (R409) -/

/-- Transports of the responder's rows. -/
def onDoe := 0
def onMctp := 1

/-- The responder hears a request: over the host port's DOE once the firmware runs, over MCTP from the end of step 5 of the
start on, FAILED included, while the CP domain with the management port is ON (18 R553, R501). -/
def spdmReaches (s : State) (t : Nat) : Bool :=
  if t = onDoe then hostReaches s && isReady s
  else t == onMctp && mgmtReaches s && domainOn s 101
    && (s.boot.stage == .test || s.boot.stage == .shelves || s.boot.stage == .ready || s.boot.stage == .failed)

/-- Every held record is sent, oldest first (18 R518). -/
def sendHeld (s : State) : State :=
  let s := forEach (s.mgmt.held.filter (fun h => !h.sent)) s (fun s h => emit s (.mgmtRecord { h with sent := true }))
  mgmtSettle { s with mgmt := { s.mgmt with held := s.mgmt.held.map (fun h => { h with sent := true }) } }

/-- The management session opens. -/
def openMgmt (s : State) : State := sendHeld { s with mgmt := { s.mgmt with session := true } }

/-- The management session ends: commands not yet taken are discarded; those TAKEN complete. -/
def closeMgmt (s : State) : State :=
  let s := forEach ((List.range 8).map (64 + ·)) s (fun s c => if (chanOf s c).state = .posted then modChan s c (fun _ => {}) else s)
  { s with mgmt := { s.mgmt with session := false, heldRequests := [], held := s.mgmt.held.map (fun h => { h with sent := false }) } }

/-- An SPDM session on a transport ends. -/
def endSpdm (s : State) (t : Nat) : State :=
  let s := if t = onMctp ∧ s.mgmt.session then closeMgmt s else s
  eraseSessionKey (modConv s t (fun x => { x with handshake := false, session := false, keyUpdates := 0 })) t

/-- Run a request that a row carries. -/
def spdmRow (m : SpdmIn) (s : State) (f : State → State) : Host.Outcome State Fault Refusal :=
  .next (if spdmReaches s m.transport then f s else s)

/-- GET_VERSION. -/
def execGetVersion (m : SpdmIn) (s : State) : Host.Outcome State Fault Refusal :=
  spdmRow m s (fun s => spdmOpen s m.transport spGetVersion none m)

/-- GET_CAPABILITIES. -/
def execGetCapabilities (m : SpdmIn) (s : State) : Host.Outcome State Fault Refusal :=
  spdmRow m s (fun s => spdmOpen s m.transport spGetCapabilities none m)

/-- NEGOTIATE_ALGORITHMS. -/
def execNegotiateAlgorithms (m : SpdmIn) (s : State) : Host.Outcome State Fault Refusal :=
  spdmRow m s (fun s => spdmOpen s m.transport spNegotiate none m)

/-- GET_DIGESTS: slot 0 alone holds a chain. -/
def execGetDigests (m : SpdmIn) (s : State) : Host.Outcome State Fault Refusal :=
  spdmRow m s (fun s => spdmOpen s m.transport spGetDigests none m)

/-- GET_CERTIFICATE: the chain of slot 0; other slots are empty. -/
def execGetCertificate (m : SpdmIn) (s : State) : Host.Outcome State Fault Refusal :=
  spdmRow m s (fun s => spdmOpen s m.transport spGetCertificate none m)

/-- CHALLENGE, answered under the alias key. -/
def execChallenge (m : SpdmIn) (s : State) : Host.Outcome State Fault Refusal :=
  spdmRow m s (fun s => spdmOpen s m.transport spChallenge none m)

/-- GET_MEASUREMENTS over DOE or MCTP, which no partition context bounds (R434). -/
def execGetMeasurements (m : SpdmIn) (s : State) : Host.Outcome State Fault Refusal :=
  spdmRow m s (fun s => spdmOpen s m.transport spGetMeasurements none m)

/-- KEY_EXCHANGE: on the management port the requester must authenticate, to the root that the board table names, and at most
one session is open. -/
def execKeyExchange (m : SpdmIn) (s : State) : Host.Outcome State Fault Refusal :=
  spdmRow m s (fun s =>
    let t := m.transport
    let x := convOf s t
    if !m.ok then spdmError s t 1
    else if !x.algsDone ∨ x.session then spdmError s t 4
    else if m.version ≠ x.version then spdmError s t 0x41
    else if t = onMctp ∧ (!m.mutualAuth ∨ !s.part.mgmtRoot ∨ s.mgmt.session) then spdmError s t 7
    else spdmAnswer (drawSessionKey (modConv s t (fun x => { x with handshake := true })) t) t 0x64 0)

/-- FINISH: the session is open; on the management port it is the management session. -/
def execFinish (m : SpdmIn) (s : State) : Host.Outcome State Fault Refusal :=
  spdmRow m s (fun s =>
    let t := m.transport
    if !(convOf s t).handshake then spdmError s t 4
    else if !m.ok ∨ (t = onMctp ∧ !m.mutualAuth) then
      spdmError (eraseSessionKey (modConv s t (fun x => { x with handshake := false })) t) t 1
    else
      let s := spdmAnswer (modConv s t (fun x => { x with handshake := false, session := true, keyUpdates := 0 })) t 0x65 0
      if t = onMctp then openMgmt s else s)

/-- KEY_UPDATE of a session. -/
def execSpdmKeyUpdate (m : SpdmIn) (s : State) : Host.Outcome State Fault Refusal :=
  spdmRow m s (fun s =>
    let t := m.transport
    if !(convOf s t).session then spdmError s t 4
    else if !m.ok then spdmError s t 1
    else spdmAnswer (drawSessionKey (modConv s t (fun x => { x with keyUpdates := x.keyUpdates + 1 })) t) t 0x69 0)

/-- HEARTBEAT of a session. -/
def execSpdmHeartbeat (m : SpdmIn) (s : State) : Host.Outcome State Fault Refusal :=
  spdmRow m s (fun s =>
    let t := m.transport
    if !(convOf s t).session then spdmError s t 4
    else if !m.ok then spdmError s t 1
    else spdmAnswer s t 0x68 0)

/-- END_SESSION. -/
def execEndSession (m : SpdmIn) (s : State) : Host.Outcome State Fault Refusal :=
  spdmRow m s (fun s =>
    let t := m.transport
    if !(convOf s t).session then spdmError s t 4
    else if !m.ok then spdmError s t 1
    else endSpdm (spdmAnswer s t 0x6C 0) t)

/-! ### ATTEST -/

/-- The conversation of a context over ATTEST. -/
def attestTransport (ctx : Nat) : Nat := 2 + ctx

/-- The SPDM message of a request: version, code, and its first parameter; a GET_CERTIFICATE names its slot there, a
GET_MEASUREMENTS its index in the second. -/
def attestMessage (b : Bytes) (ctx : Nat) (ok : Bool) : Nat × SpdmIn :=
  let code := leAt b 1 1
  (code, { transport := attestTransport ctx, version := leAt b 0 1, ok := ok && 4 ≤ b.length
           param := if code = spGetMeasurements then leAt b 3 1 else leAt b 2 1 % 16 })

/-- A response payload by reference, on a mailbox, is written before the final record (03 R69). -/
def placeResponse (s : State) (t : Taken) (resp : Bytes) (wb : WriteBack) : State :=
  if !t.mgmt && t.hdr.respByRef && wb == .ok then emit s (.response t.hdr.pasid t.hdr.respAddr resp) else s

/-- ATTEST: one SPDM message, without sessions; a partition context sees its own part of the report. -/
def execAttest (c : Nat) (ok : Bool) (wb : WriteBack) (s : State) : Host.Outcome State Fault Refusal :=
  .next (runCmd s c opAttest (fun s t =>
    let (k, s) := takeFresh s
    let resp := Config.spdmBytes k
    if respCapacity t < resp.length then failCmd s c .responseTooSmall resp.length
    else
      let (s, n) := accept s c t 0 0 resp
      let (code, m) := attestMessage t.req t.ctx ok
      let scope := if t.mgmt && t.ctx == 0 then none else some t.ctx
      let s := placeResponse (spdmOpen s m.transport code scope m) t resp wb
      finalize s n (if t.hdr.respByRef ∧ !t.mgmt ∧ wb = .failed then .payloadFault else .ok) 0))

end Sys2Proof.Machine
end

