-- ==== Sys2Proof/Machine/MgmtBase.lean ====
section
/-! DEFINITION. What every message of the management port shares: the stage it is served in, its response, and the places of
the management channel (spec 18 R515–R516, R553). -/
namespace Sys2Proof.Machine

/-- VMSG codes (Table 18-8), and the model's own numbers for PLDM and MCTP control answers. -/
def vmMbRequest := 0x01
def vmEventAck := 0x04
def vmRegRead := 0x05
def vmRegWrite := 0x06
def vmDeviceReset := 0x07
def vmPldm := 0x100
def vmMctp := 0x101
def vmI3cNack := 0x102

/-- PLDM completion codes: success, and ERROR_UNSUPPORTED_PLDM_CMD as the DMTF base specification numbers it. -/
def pldmOk := 0
def pldmUnsupported := 5

/-- Answer a message. -/
def mgmtReply (s : State) (kind status value : Nat) : State := emit s (.mgmtResponse kind status value)

/-- The port hears messages: the clocks run and the CP domain, which holds it, is ON. -/
def portHears (s : State) : Bool := mgmtReaches s && domainOn s 101

/-- STAGE lies past step 5 of a start: the session is accepted (R553). -/
def pastBoard (s : State) : Bool :=
  s.boot.stage == .test || s.boot.stage == .shelves || s.boot.stage == .ready || s.boot.stage == .failed

/-- A message that a session serves in every stage after step 5 (R515, R553). -/
def inSession (s : State) : Bool := s.mgmt.session && pastBoard s

/-- The header and payload of an MB_REQUEST. -/
def requestTaken (msg : Bytes) : Taken := { hdr := hdrOf (msg.take 64), req := msg.drop 64, mgmt := true }

/-- End an MB_REQUEST that takes no place. -/
def endRequest (s : State) (msg : Bytes) (code : Status) : State :=
  let t := requestTaken msg
  let t := { t with ctx := (mgmtCtx s t.hdr.mgmtContext).getD 0 }
  emit s (.mgmtCompletion t.hdr.tag (completionOf s 64 t code 0 0) [])

/-- Put an MB_REQUEST into the first free place; a ninth in flight completes with NO_RESOURCE (R516). -/
def postMgmt (s : State) (msg : Bytes) : State :=
  match (List.range 8).find? (fun i => (chanOf s (64 + i)).state == .free) with
  | none => endRequest s msg .noResource
  | some i =>
    let s := modChan s (64 + i) (fun m => { m with state := .posted, taken := some (requestTaken msg), order := s.cp.mgmtOrder })
    { s with cp := { s.cp with mgmtOrder := s.cp.mgmtOrder + 1 } }

end Sys2Proof.Machine
end

