-- ==== Sys2Proof/Machine/Start.lean ====
section
/-! DEFINITION. The start sequence: firmware, board table, start-up test, logical numbering, partition 0 (spec 16 R439–R454,
R465; 01 R14–R16; 15 R413; 08 R226–R233). -/
namespace Sys2Proof.Machine

/-! ### Firmware (R442–R446) -/

/-- The boot ROM accepts an image (R442). -/
def imageGood (s : State) (x : FwImage) : Bool :=
  x.chainOk && x.sigOk && x.digestOk && s.boot.fuses.antiRollback ≤ x.svn && s.boot.lifecycleNow != .scrapped

/-- The index of the record copy in force. -/
def recordCopy (s : State) : Nat :=
  match nth s.boot.slotRecords 0 none, nth s.boot.slotRecords 1 none with
  | some a, some b => if a.seq ≤ b.seq then 1 else 0
  | none, some _ => 1
  | _, none => 0

/-- Write the other copy of the record, with SEQ increased by one (R445). -/
def writeRecord (s : State) (r : SlotRecord) : State :=
  { s with boot := { s.boot with
    slotRecords := setNth s.boot.slotRecords (1 - recordCopy s) (some { r with seq := (slotRecord s).seq + 1 }) } }

/-- A slot holds an image that the boot ROM accepts. -/
def slotGood (s : State) (n : Nat) : Option FwImage := (tfind s.boot.slots n).filter (imageGood s)

/-! ### Failures (R450) -/

def frNoFirmware := 1
def frCp := 2
def frSe := 3
def frLarder := 4
def frQuadrant := 5
def frHostPort := 6
def frNoCellar := 7

/-- The start goes no further; requests held for READY complete with NO_RESOURCE (18 R553). -/
def startFails (s : State) (reason : Nat) : State :=
  let held := s.mgmt.heldRequests
  let s := { s with boot := { s.boot with stage := .failed, failReason := reason, waiting := none }
                    mgmt := { s.mgmt with heldRequests := [] } }
  forEach held s (fun s m => endRequest s m .noResource)

/-! ### The board table (R447, R448) -/

/-- The copy in use, and its number. -/
def boardInUse (inp : StartInput) : Option BoardCopy × Nat :=
  match inp.board0, inp.board1 with
  | some b, _ => (some b, 0)
  | none, some b => (some b, 1)
  | none, none => (none, 0)

/-- A WINDOW_BASE that CP firmware commits (08 R237). -/
def windowOk (w : Nat) : Bool := w % 2 ^ 30 == 0 && w < 2 ^ 48

/-- Every section is there and WINDOW_BASE is committed. -/
def boardWhole (b : BoardCopy) : Bool :=
  b.identity.isSome && b.equalisation.isSome && b.trust.isSome && b.part0.isSome && b.power.isSome && b.chord.isSome
    && (match b.memory with | some m => windowOk m.windowBase | none => false)

/-- Step 5: the table is read; what an absent section gives is R448's. -/
def readBoard (s : State) (inp : StartInput) : State :=
  let (c, n) := boardInUse inp
  let b := c.getD {}
  let w := (b.memory.getD {}).windowBase
  let p := b.power.getD {}
  let cap := min p.package s.pwr.packageCap
  let spent := p.hbm + sum (p.attic.take 8)
  { s with
    boot := { s.boot with
      board := b, boardCopy := n, boardTableOk := (match c with | some x => boardWhole x | none => false)
      windowBase := if windowOk w then w else 0 }
    part := { s.part with mgmtRoot := (b.trust.getD {}).mgmtRoot }
    chord := { s.chord with node := match b.identity with | some i => i.nodeId | none => s.boot.fuses.serial % 2 ^ 32 }
    pwr := { s.pwr with
      boardPackage := p.package, package := cap, hbm := p.hbm, hub := min s.pwr.hubCap (cap - spent) } }

/-! ### The start-up test by physical number (R449, R451, R452) -/

/-- The defect list names a physical unit, or a part of it. -/
def listed (s : State) (kind q u sub : Nat) : Bool :=
  s.boot.defects.any (fun d => d.kind == kind && d.quadrant == q && d.unit == u && d.sub == sub)

/-- The usable cores of a physical cellar. -/
def usableCores (s : State) (t : TestInput) (c : Nat) : Nat :=
  maskOf ((List.range 64).filter (fun k => !listed s dkCore (c / 16) (c % 16) k && !bitAt (tget t.coreFail c 0) k))

/-- A physical cellar is usable: it passes and at least 56 of its cores do (01 R15). -/
def usableCellar (s : State) (t : TestInput) (c : Nat) : Bool :=
  !listed s dkCellar (c / 16) (c % 16) 0 && !bitAt t.nocFail (c / 16) && !bitAt t.cellarFail c
    && 56 ≤ popCount (usableCores s t c) 64

def usableShelf (s : State) (t : TestInput) (n : Nat) : Bool :=
  !listed s dkShelf (n / 3) (n % 3) 0 && !bitAt t.nocFail (n / 3) && !bitAt t.shelfFail n
def usableEngine (s : State) (t : TestInput) (e : Nat) : Bool :=
  !listed s dkEngine (e / 3) (e % 3) 0 && !bitAt t.nocFail (e / 3) && !bitAt t.engineFail e

/-- What the test finds that the list does not hide yet.  The units of a quadrant whose NoC fails are not tested. -/
def foundDefects (s : State) (t : TestInput) : List Defect :=
  let cells := (List.range 64).filter (fun c => !listed s dkCellar (c / 16) (c % 16) 0 && !bitAt t.nocFail (c / 16))
  cells.flatMap (fun c =>
    let d := fun (k sub : Nat) => ({ kind := k, quadrant := c / 16, unit := c % 16, sub := sub } : Defect)
    (if bitAt t.cellarFail c then [d dkCellar 0] else [])
      ++ (maskBits (tget t.coreFail c 0) 64).map (d dkCore)
      ++ (t.cbWayFail.filter (fun w => w.1 == c)).map (fun w => d dkCbWay w.2)
      ++ (t.csWayFail.filter (fun w => w.1 == c)).map (fun w => d dkCsWay w.2))
    ++ (List.range 12).flatMap (fun n =>
      if bitAt t.nocFail (n / 3) then []
      else (if bitAt t.shelfFail n then [({ kind := dkShelf, quadrant := n / 3, unit := n % 3 } : Defect)] else [])
        ++ (if bitAt t.engineFail n then [({ kind := dkEngine, quadrant := n / 3, unit := n % 3 } : Defect)] else []))

/-- Write them into the list; a failing way that fails again changes its kind (R452). -/
def recordDefects (s : State) (l : List Defect) : State :=
  forEach l s (fun s d =>
    let s := if d.kind = dkCbWay ∨ d.kind = dkCsWay then
        dropDefects s (fun e => e.kind == dkWayFailing && e.quadrant == d.quadrant && e.unit == d.unit
          && e.sub == d.sub + (if d.kind = dkCsWay then 2 ^ 15 else 0))
      else s
    addDefect s d)

/-! ### Logical numbering (01 R14–R16) -/

/-- Usable cellars of a physical quadrant, ascending. -/
def quadCellars (s : State) (t : TestInput) (q : Nat) : List Nat :=
  ((List.range 16).map (16 * q + ·)).filter (usableCellar s t)

/-- Physical quadrants by their number of usable cellars, highest first, ties by number. -/
def quadOrder (s : State) (t : TestInput) : List Nat :=
  (List.range 4).foldl (fun l q =>
    let n := (quadCellars s t q).length
    l.takeWhile (fun p => n ≤ (quadCellars s t p).length) ++ [q] ++ l.dropWhile (fun p => n ≤ (quadCellars s t p).length)) []

/-- The ways of a physical cellar that are out of use, by kind. -/
def badWays (s : State) (t : TestInput) (c kind : Nat) : List Nat :=
  let l := (s.boot.defects.filter (fun d => d.kind == kind && d.quadrant == c / 16 && d.unit == c % 16)).map (·.sub)
  l ++ ((if kind = dkCbWay then t.cbWayFail else t.csWayFail).filter (fun w => w.1 == c && !l.contains w.2)).map (·.2)

/-- The start state of a cellar with disabled ways: a bank with fewer than 4 usable ways is off (R449). -/
def startCellar (bad : List Nat) : Cellar :=
  let banks := (List.range 16).filterMap (fun b =>
    let m := maskOf ((bad.filter (fun x => x / 16 == b)).map (· % 16))
    if m = 0 then none else some (b, ({ disabledWays := m, off := decide (popCount (2 ^ 16 - 1 - m) 16 < 4) } : Bank)))
  let x : Cellar := { banks := banks }
  { x with scratchBanks := (liveBanks x).length }

/-- Fix the numbers of cellars and cores, and the state of stores with disabled ways. -/
def numberCellars (s : State) (t : TestInput) (order : List Nat) : State :=
  let map := (List.range 4).flatMap (fun q =>
    (quadCellars s t (nth order q q)).zipIdx.map (fun (x : Nat × Nat) => (16 * q + x.2, x.1)))
  let cores := map.map (fun e => (e.1, usableCores s t e.2))
  let cells := map.filterMap (fun e =>
    match badWays s t e.2 dkCbWay with | [] => none | l => some (e.1, startCellar l))
  let stores := map.flatMap (fun e =>
    let bad := badWays s t e.2 dkCsWay
    if bad.isEmpty then []
    else (maskBits (usableCores s t e.2) 64).zipIdx.filterMap (fun (k : Nat × Nat) =>
      let m := maskOf ((bad.filter (fun x => x / 16 == k.1)).map (· % 16))
      if m = 0 then none else some (64 * e.1 + k.2, ({ disabledWays := m } : Core))))
  { s with
    boot := { s.boot with
      presentCellars := maskOf (map.map (·.1)), cellarPhys := map, cellarPhysCores := cores
      presentCores := cores.map (fun e => (e.1, 2 ^ popCount e.2 64 - 1)) }
    cells := { s.cells with cellars := cells, cores := stores } }

/-- Fix the numbers of quadrants, shelves and engines, which are never compacted. -/
def numberQuads (s : State) (t : TestInput) (order : List Nat) : State :=
  let three := fun (ok : Nat → Bool) => maskOf ((List.range 12).filter (fun n => ok (3 * nth order (n / 3) 0 + n % 3)))
  { s with boot := { s.boot with
    quadrantMap := order
    presentQuadrants := maskOf ((List.range 4).filter (fun q => !bitAt t.nocFail (nth order q 0)))
    presentShelves := three (usableShelf s t), presentEngines := three (usableEngine s t) } }

/-- Turn domains ON at a start; one that was not changes its state. -/
def wakeDomains (s : State) (l : List Nat) : State :=
  forEach (l.filter (fun d => (tfind s.pwr.domains d).isSome)) s (fun s d =>
    modDomain s d (fun x => { transitions := if x.dstate = .on then x.transitions else satInc 32 x.transitions }))

/-- The domain of an absent unit stays OFF for the session (18 R491); every other one is ON. -/
def setDomains (s : State) : State :=
  let present := fun (d : Nat) =>
    if d < 64 then bitAt s.boot.presentCellars d
    else if d < 76 then bitAt s.boot.presentShelves (d - 64)
    else if d < 88 then bitAt s.boot.presentEngines (d - 76)
    else if d < 96 then bitAt s.boot.presentQuadrants ((d - 88) / 2)
    else if d < 100 then bitAt s.boot.presentQuadrants (d - 96)
    else true
  forEach ((List.range 103).filter (fun d => !present d)) (wakeDomains s (List.range 103)) (fun s d =>
    modDomain s d (fun x => { transitions := x.transitions, dstate := .off, target := .off }))

/-- The budgets of the POWER section, which names sites by their physical numbers (01 R17). -/
def siteBudgets (s : State) : State :=
  let l := (s.boot.board.power.getD {}).attic
  { s with pwr := { s.pwr with attic := (List.range 8).map (fun t => (t, { budget := nth l (physSite s t) 0 })) } }

/-! ### Shelves and the far tier (08 R216, R226–R233) -/

/-- The inventory and the INTEGRITY setting of a present shelf, by its physical number. -/
def startShelf (s : State) (t : TestInput) (p : Nat) : Shelf :=
  let i := tget t.shelves p {}
  { integrity := bitAt (s.boot.board.memory.getD {}).integrity p
    rowBits := i.rowBits, banksLog2 := i.banksLog2, sids := i.sids
    spares := i.banks.foldl (fun (l : Tab Spare) b => tset l b.1 { softFree := b.2.1, hardFree := b.2.2 }) []
    fitted := { softFree := i.softFree, hardFree := i.hardFree } }

/-- Perform a queued hard repair: it takes a hard spare, and any soft record of the row goes; one that fails stays queued. -/
def startHardRow (s : State) (t : TestInput) (n p : Nat) (d : Defect) : State :=
  let ch := rowBank d.row
  if t.hardFail.contains (p, d.row) ∨ (spareOf s n ch).hardFree = 0 then
    modSpare s n ch (fun x => { x with hardQueued := satInc 8 x.hardQueued })
  else
    let s := modSpare s n ch (fun x => { x with hardFree := x.hardFree - 1 })
    let same := fun (e : Defect) => e.quadrant == d.quadrant && e.unit == d.unit && e.row == d.row
    let s := dropDefects s (fun e => (e.kind == dkHardQueued || e.kind == dkSoftRow) && same e)
    addDefect s { d with kind := dkHardDone }

/-- Apply a soft repair again; the row carries each one that the list records as a field repair (17 R481). -/
def startSoftRow (s : State) (n : Nat) (d : Defect) : State :=
  let ch := rowBank d.row
  if (spareOf s n ch).softFree = 0 then s
  else
    let s := modSpare s n ch (fun x => { x with softFree := x.softFree - 1, softUsed := satInc 16 x.softUsed })
    { s with err := { s.err with repairs := tmod s.err.repairs n [] (fun l =>
      (d.row, fieldRepairs s n d.row + 1) :: l.filter (fun (e : Nat × Nat) => e.1 != d.row)) } }

/-- Ready the present shelves; pages that the list retires leave every pool. -/
def startShelves (s : State) (t : TestInput) : State :=
  forEach (maskBits s.boot.presentShelves 12) s (fun s n =>
    let q := physQuadrant s (n / 3)
    let s := modShelf s n (fun _ => startShelf s t (3 * q + n % 3))
    let mine := fun (k : Nat) (s : State) => s.boot.defects.filter (fun d => d.kind == k && d.quadrant == q && d.unit == n % 3)
    let s := forEach (mine dkHardQueued s) s (fun s d => startHardRow s t n (3 * q + n % 3) d)
    let s := forEach (mine dkSoftRow s) s (fun s d => startSoftRow s n d)
    forEach (mine dkPageRetired s) s (fun s d =>
      let page := n * shelfSize / 0x10000 + d.row
      setPage { s with err := { s.err with retiredPages := page :: s.err.retiredPages } } page { pstate := .retired }))

/-- Two decoders map a common address. -/
def decodersMeet (d e : FarDecoder) : Bool := decBase d < decBase e + decSize e && decBase e < decBase d + decSize d

/-- A decoder that the board table asks for may be committed: it lies in the far-tier window and meets no other, but that
of its pair on the other port, which carries the same BASE and SIZE (08 R232). -/
def decoderFits (s : State) (port : Nat) (d : FarDecoder) : Bool :=
  0 < d.size && farBase ≤ decBase d && decBase d + decSize d ≤ 2 * farBase
    && [0, 1].all (fun q => (farOf s q).decoders.all (fun e =>
      !e.2.enable || !decodersMeet d e.2 || (q != port && d.iw2 && e.2.iw2 && d.base == e.2.base && d.size == e.2.size)))

/-- The two decoders of an interleaved range are both in the table. -/
def pairedIn (l : List FarEntry) (e : FarEntry) : Bool :=
  !e.iw2 || l.any (fun x => x.port != e.port && x.iw2 && x.base == e.base && x.size == e.size)

/-- Program and commit the decoders of the board table for the devices that answer; each is zeroed before it is mapped.  A
port that is not bifurcated has one device. -/
def startFar (s : State) (t : TestInput) : State :=
  let m := s.boot.board.memory.getD {}
  let up := fun (p : Nat) => p < 2 && !bitAt t.nocFail (p + 2)
  let s := forEach ([0, 1].filter (fun p => up p && m.far.any (fun e => e.port == p))) s (fun s p =>
    let l := tget t.farLinks p {}
    modFar s p (fun x => { x with gts := l.gts, width := l.width, bifurcated := l.bifurcated
                                  devicesUp := l.devicesUp % (if l.bifurcated then 4 else 2) }))
  forEach m.far s (fun s e =>
    let d : FarDecoder := { enable := true, iw2 := e.iw2, device := e.device, integrity := e.integrity, base := e.base
                            size := e.size, dpaBase := e.dpaBase, zeroing := true }
    if !up e.port ∨ 8 ≤ e.decoder ∨ !bitAt (farOf s e.port).devicesUp e.device ∨ !pairedIn m.far e ∨ !decoderFits s e.port d then s
    else modFar s e.port (fun x => { x with decoders := tset x.decoders e.decoder d }))

/-! ### Partition 0 (15 R413) -/

/-- Usable ranges in bytes of the present shelves and the committed decoders. -/
def usableRanges (s : State) : List (Nat × Nat) :=
  (maskBits s.boot.presentShelves 12).map (fun n => (n * shelfSize, shelfUsable s n))
    ++ [0, 1].flatMap (fun p => ((farOf s p).decoders.filter (fun e => e.2.enable && (p == 0 || !e.2.iw2))).map (fun e =>
        (decBase e.2, decUsable e.2)))

/-- The larder regions: those of the board table, else the upper half of every shelf and 8 scratch banks. -/
def poolRegions (s : State) : List Region :=
  match (s.boot.board.part0.getD {}).pool with
  | [] =>
    (maskBits s.boot.presentShelves 12).map (fun n =>
      { larder := true, base := n * shelfSize + shelfUsable s n / 2, length := shelfUsable s n / 2 / 0x10000 })
      ++ [{ kind := .scratch, larder := true, banks := 8 }]
  | l => l.map (fun e => if e.scratch then { kind := .scratch, larder := true, banks := e.banks }
                         else { larder := true, base := e.base, length := e.length })

/-- Every mapped range as MEMORY regions, with the larder regions cut out of them and listed after them. -/
def part0Regions (s : State) : List Region :=
  let pool := poolRegions s
  let cuts := (pool.filter (fun r => r.kind == .memory)).map (fun r => (r.base / 0x10000, r.length))
  (usableRanges s).flatMap (fun u =>
    (cutRanges { base := u.1 / 0x10000, n := u.2 / 0x10000 } cuts).map (fun x =>
      ({ base := x.base * 0x10000, length := x.n } : Region)))
    ++ pool

/-- Partition 0 as a start sets it up. -/
def part0 (s : State) : Partition :=
  let b := s.boot.board.part0.getD {}
  { pstate := .active, hostBar2 := true, keyX := b.keyX, keyY := b.keyY, regions := part0Regions s
    memEpoch := s.part.memEpochCount }

/-! ### The engines and the attic sites (step 10) -/

/-- Ready an engine: full rate of the variant, and the board's correction. -/
def startEngine (s : State) (e : Nat) : State :=
  let b := s.boot.board.equalisation
  let asym := (b.bind (fun t => tfind t (physEngine s e))).bind (·.asym)
  startTraining (modEngine s e (fun x => { x with
    cfgRate := rateCap s, eqTableBad := b.isNone, asymPs := asym.getD 0, noAsym := asym.isNone })) e

/-- The sites of a failed quadrant are hidden; the others come up once their rails are good. -/
def startSite (s : State) (t : Nat) : State :=
  if bitAt s.boot.presentQuadrants (t / 2) then beginBringUp s t false
  else modSite s t (fun x => { x with unfitted := true })

/-! ### The steps in order -/

/-- The write-through regions that CP firmware commits: the register space and the private memory of the CP and SE (07 R199;
08 Table 8-1). -/
def throughRegions : Tab WtRegion :=
  [(0, { enable := true, base := 0xFF0000000, granulesM1 := 0x3FFF }), (1, { enable := true, base := 0xFE0000000, granulesM1 := 0xFFFF })]

/-- Step 13 and after: partition 0, the first boundary, READY, and the requests held for it. -/
def startReady (s : State) : State :=
  let s := modPart s 0 (fun _ => part0 s)
  let held := s.mgmt.heldRequests
  let s := { s with
    boot := { s.boot with stage := .ready }
    cells := { s.cells with wtRegions := throughRegions }
    part := { s.part with configGen := 1, generation := 1 }
    mgmt := { s.mgmt with heldRequests := [] } }
  forEach held s postMgmt

/-- Steps 6 to 13, from the tests on. -/
def startUnits (s : State) (inp : StartInput) : State :=
  let t := inp.tests
  let s := { s with boot := { s.boot with stage := .test } }
  let s := wakeDomains s ((List.range 7).map (96 + ·))
  if !t.larderOk then startFails s frLarder
  else if bitAt t.nocFail 0 ∨ bitAt t.nocFail 1 then startFails s frQuadrant
  else if (List.range 4).all (fun q => (quadCellars s t q).isEmpty) then startFails s frNoCellar
  else
    let order := quadOrder s t
    -- steps 9 to 12: what the list hid before this start decides, with what the test found
    let n := numberQuads (numberCellars s t order) t order
    let n := { n with boot := { n.boot with stage := .shelves, startCount := (n.boot.startCount + 1) % 2 ^ 32 } }
    let n := setDomains (siteBudgets (recordDefects n (foundDefects s t)))
    let n := startFar (startShelves n t) t
    let n := forEach (maskBits n.boot.presentEngines 12) n startEngine
    startReady (forEach (List.range 8) n startSite)

/-- Steps 5 on, with the firmware that runs: the SE draws the device key and the keys of partition 0 (15 R420). -/
def startRuns (s : State) (inp : StartInput) (x : FwImage) (slot : Nat) (fallback : Bool) : State :=
  let s := { s with boot := { s.boot with fw := x, slot := slot, fallback := fallback, stage := .board, waiting := none } }
  if !inp.tests.seOk then startFails s frSe else startUnits (readBoard (drawPartKeys (drawDeviceKey s) 0) inp) inp

/-- Step 4: the firmware of the flash, or a wait for an image from outside (R443, R446). -/
def startFirmware (s : State) (inp : StartInput) : State :=
  let s := { s with boot := { s.boot with stage := .fwLoad } }
  if s.boot.straps.boot = 1 ∨ s.boot.straps.boot = 2 then { s with boot := { s.boot with waiting := some inp } }
  else
    let a := (slotRecord s).activeSlot % 2
    match slotGood s a, slotGood s (1 - a) with
    | some x, _ => startRuns s inp x a false
    | none, some x => startRuns s inp x (1 - a) true
    | none, none =>
      { s with boot := { s.boot with stage := .recovery, failReason := frNoFirmware, waiting := some inp } }

/-- The fused limits of the variant in force, in 0.25 W (R465; 18 R507). -/
def setLimits (s : State) : State :=
  let l := s.boot.variantNow == .l
  { s with
    pwr := { s.pwr with
      hubCap := if l then 5000 else 2600, packageCap := if l then 9600 else 4000, hubFloor := if l then 2200 else 1280 }
    boot := { s.boot with variantUnset := s.boot.variantNow == .unset } }

/-- A fuse change that a reset or a power loss cut short is logged, and counts as used (R463). -/
def logIncomplete (s : State) (c : LcChange) : State :=
  let e : LogEntry := { setting := c.setting, site := c.site, result := 6, start := s.boot.startCount % 2 ^ 24, old := c.old
                        new := nth c.words 1 0, requester := Config.requester }
  { s with boot := { s.boot with fuses := { s.boot.fuses with log := s.boot.fuses.log ++ [e] } } }

/-- A start from step 2 on (R440). -/
def startFrom (s : State) (inp : StartInput) : State :=
  let s := setLimits { s with boot := { s.boot with stage := .rom
                                                    testStrapIgnored := s.boot.straps.test && s.boot.lifecycleNow != .test } }
  let s := { wakeDomains s [100, 101, 102] with
    time := { s.time with identity := s.boot.fuses.serial % 2 ^ 32, gmId := s.boot.fuses.serial % 2 ^ 32 }
    mgmt := { s.mgmt with smbusEn := s.boot.straps.mgmtIf % 2 == 0, i3cEn := s.boot.straps.mgmtIf % 2 == 1 } }
  if !inp.tests.cpOk then startFails s frCp else startFirmware s inp

/-- The strum period of STRAP_STRUM, in 0.5 µs steps (02 Table 2-2). -/
def strapPeriod (n : Nat) : Nat := 16 * 2 ^ (n % 4)

/-- What a reset of the whole device leaves: the always-on domain, the flash and the pins; and, on a Function Level Reset, the
host link (R466, R470; 00 Table 0-8).  A fuse change under way is logged. -/
def deviceCleared (s : State) (linkStays : Bool) : State :=
  let s := match s.boot.lcChange with | some c => logIncomplete s c | none => s
  let b := s.boot
  { State.reset with
    time := { now := s.time.now, rateAdj := s.time.rateAdj, periodSteps := strapPeriod b.straps.strum }
    part := { memEpochCount := (s.part.memEpochCount + 1) % 2 ^ 32, deviceEpoch := (s.part.deviceEpoch + 1) % 2 ^ 32 }
    pwr := { domains := s.pwr.domains, wakeLatch := s.pwr.wakeLatch
             wakes := s.pwr.wakes, comparators := s.pwr.comparators, sensors := s.pwr.sensors }
    boot := {
      straps := b.straps, fuses := b.fuses, variantNow := b.variantNow, lifecycleNow := b.lifecycleNow, slots := b.slots
      slotRecords := b.slotRecords, defects := b.defects, defectSeq := b.defectSeq, startCount := b.startCount
      coldResetLow := false, atticRails := b.atticRails
      hostUp := linkStays && b.hostUp, hostLink := if linkStays then b.hostLink else ⟨0, 0, false, false⟩ }
    fresh := s.fresh, out := s.out, pending := s.pending }

/-- What cold reset leaves: the fuses, the flash, and the rails (R466); the hub stays held while a trip has not cooled. -/
def coldCleared (s : State) : State :=
  let s := match s.boot.lcChange with | some c => logIncomplete s c | none => s
  let b := s.boot
  { State.reset with
    boot := {
      fuses := b.fuses, slots := b.slots, slotRecords := b.slotRecords, defects := b.defects, defectSeq := b.defectSeq
      startCount := b.startCount, atticRails := b.atticRails, coldResetLow := true
      thermTrip := b.thermTrip && !s.pwr.sensors.isEmpty, heldHot := b.thermTrip && !s.pwr.sensors.isEmpty }
    pwr := { sensors := s.pwr.sensors }
    fresh := s.fresh, out := s.out, pending := s.pending }

/-- The start after a cold reset: straps and the fused VARIANT and LIFECYCLE latch, and the time base counts from 0. -/
def coldStart (s : State) (inp : StartInput) : State :=
  startFrom { s with
    time := { periodSteps := strapPeriod inp.straps.strum }
    boot := { s.boot with coldResetLow := false, heldHot := false, thermTrip := false, straps := inp.straps
                          variantNow := s.boot.fuses.variant, lifecycleNow := s.boot.fuses.lifecycle } } inp

/-! ### The commands of a start -/

/-- COLD_RESET: COLD_RESET_N rises.  A pin that is high falls first.  A module that is still hot stays in reset (20 R538). -/
def execColdReset (inp : StartInput) (s : State) : Host.Outcome State Fault Refusal :=
  let s := if s.boot.coldResetLow then s else coldCleared s
  if s.boot.heldHot then .next { s with boot := { s.boot with coldResetLow := false } } else .next (coldStart s inp)

/-- COLD_RESET_ASSERT: COLD_RESET_N falls; everything but the flash and the fuses resets, and the fault pins are released,
THERM_TRIP_N only once the sensors are cool (R466; 20 R535, R538). -/
def execColdResetAssert (s : State) : Host.Outcome State Fault Refusal :=
  .next (if s.boot.coldResetLow then s else coldCleared s)

/-- SENSORS_COOLED: every sensor lies 15 °C below its trip point; a start that waited for it proceeds (20 R538). -/
def execSensorsCooled (inp : StartInput) (s : State) : Host.Outcome State Fault Refusal :=
  let s := { s with pwr := { s.pwr with sensors := tfilter s.pwr.sensors (fun i _ => i = 0 || 28 < i) } }
  if !s.boot.heldHot then .next s
  else if s.boot.coldResetLow then .next { s with boot := { s.boot with heldHot := false, thermTrip := false } }
  else .next (coldStart s inp)

/-- HOST_LINK_TIMEOUT: with STRAP_BOOT 1 and the host link not up 1 s after reset, the start fails (R450). -/
def execHostLinkTimeout (s : State) : Host.Outcome State Fault Refusal :=
  .next (if s.boot.stage = .fwLoad ∧ s.boot.straps.boot = 1 ∧ !s.boot.hostUp then startFails s frHostPort else s)

/-- FAR_ZEROING_DONE: a decoder's range is zeroed and becomes mapped (R441). -/
def execFarZeroingDone (port decoder : Nat) (s : State) : Host.Outcome State Fault Refusal :=
  match tfind (farOf s port).decoders decoder with
  | none => .next s
  | some d => .next (if d.zeroing then modFar s port (fun x => { x with decoders := tset x.decoders decoder { d with zeroing := false } }) else s)

/-! ### Device resets (R470, R471) -/

/-- A device reset has an effect: the clocks run, no cold reset holds the module, and no start is under way. -/
def resettable (s : State) : Bool :=
  !s.boot.stopped && !s.boot.coldResetLow && !s.boot.heldHot
    && (s.boot.stage == .ready || s.boot.stage == .failed || s.boot.stage == .recovery)

/-- Write what waits for an event queue while its ring has space. -/
def drainQueue (s : State) (q : Nat) : State :=
  if (eqOf s q).state ≠ .active then s
  else
    let w := (eqOf s q).waiting
    forEach w (modEq s q (fun e => { e with waiting := [] })) (fun s r => if eqFull (eqOf s q) then s else writeSlot s q r)

/-- The records of 03 R80 with DEVICE_RESET of one context: mailboxes, steps, images and sequences. -/
def endContext (s : State) (p : Nat) : State :=
  let s := endMailboxes s p .deviceReset
  let s := forEach (stepsInOrder s p) s (fun s slot => resetStep s slot .deviceReset)
  resetSeqs (freeImages s p .deviceReset) p .deviceReset

/-- The commands of the management channel end with DEVICE_RESET, the held ones too. -/
def endMgmtCmds (s : State) : State :=
  let s := forEach ((List.range 8).map (64 + ·)) s (fun s c => if (chanOf s c).state = .free then s else cutCmd s c .deviceReset)
  forEach s.mgmt.heldRequests { s with mgmt := { s.mgmt with heldRequests := [] } } (fun s m => endRequest s m .deviceReset)

/-- The records of 03 R80 with DEVICE_RESET: every context, what waits for an event queue, and the management channel. -/
def endContexts (s : State) : State :=
  endMgmtCmds (forEach (tkeys s.cp.eqs) (forEach (0 :: partCtxs s) s endContext) drainQueue)

/-- A device reset without records. -/
def deviceReset (s : State) (linkStays : Bool) (inp : StartInput) : State := startFrom (deviceCleared s linkStays) inp

/-- A device reset by the management agent or the watchdog: records first, CONTEXT_RESET under the new epoch after them. -/
def deviceResetRecords (s : State) (inp : StartInput) : State :=
  startFrom (raiseTo (deviceCleared (endContexts s) true) 0 .contextReset (source ucCp 0) (fun _ => 0)) inp

/-- HOST_PERST: HOST_PERST_N performs a device reset, and the host link retrains. -/
def execHostPerst (inp : StartInput) (s : State) : Host.Outcome State Fault Refusal :=
  .next (if resettable s then deviceReset s false inp else s)

/-- FUNCTION_LEVEL_RESET: the host link stays up. -/
def execFunctionLevelReset (inp : StartInput) (s : State) : Host.Outcome State Fault Refusal :=
  .next (if resettable s && s.boot.hostUp then deviceReset s true inp else s)

/-- DEVICE_RESET: the management agent's request, inside its session; its response comes before the reset (18 R553). -/
def execDeviceReset (inp : StartInput) (s : State) : Host.Outcome State Fault Refusal :=
  if !portHears s then .next s
  else if !inSession s then .next (mgmtReply s vmDeviceReset (statusCode .deniedRole) 0)
  else if !resettable s then .next (mgmtReply s vmDeviceReset (statusCode .ok) 0)
  else .next (deviceResetRecords (mgmtReply s vmDeviceReset (statusCode .ok) 0) inp)

/-- The restart of CP firmware (03 R88): TAKEN commands end, those past their commit point with their effect; POSTED ones
stay. -/
def restartCp (s : State) : State :=
  let s := forEach ((List.range 72).filter (fun c => (chanOf s c).state == .taken)) s (fun s c => cutCmd s c .cpRestarted)
  let s := { s with cp := { s.cp with restarts := satInc 16 s.cp.restarts } }
  raiseAllCtx s .cpRestarted (source ucCp 0) (fun _ => 0)

/-- Ten seconds in time-base units. -/
def tenSeconds := 640000000000

/-- CP_WATCHDOG: 100 ms without progress restart the CP firmware; a third restart within 10 s resets the device (R470). -/
def execCpWatchdog (inp : StartInput) (s : State) : Host.Outcome State Fault Refusal :=
  if !isReady s then .next s
  else
    let recent := s.cp.restartTimes.filter (fun t => s.time.now < t + tenSeconds)
    if 2 ≤ recent.length then .next (deviceResetRecords s inp)
    else
      let s := restartCp s
      .next { s with cp := { s.cp with restartTimes := s.time.now :: recent } }

/-- RETEST_DONE (R468): a core or a cellar that was reset is in service again, or absent. -/
def execRetestDone (cellar : Nat) (core : Option Nat) (ok : Bool) (s : State) : Host.Outcome State Fault Refusal :=
  match core with
  | some k => .next (coreRetested s (cellar * 64 + k % 64) ok)
  | none => .next (if (cellarOf s cellar).resetting then cellarRetested s cellar ok else s)

end Sys2Proof.Machine
end

