-- ==== Sys2Proof/Machine/Firmware.lean ====
section
/-! DEFINITION. FW_STAGE, FW_ACTIVATE, and their forms as PLDM firmware update (spec 16 R442–R446; 03 R89; 18 R520). -/
namespace Sys2Proof.Machine

/-- Why an image fails R442, with the status that R444 gives. -/
def imageStatus (s : State) (x : FwImage) : Option Status :=
  firstFail [(!x.chainOk || !x.sigOk || !x.digestOk || s.boot.lifecycleNow == .scrapped, .fwSignatureBad),
             (decide (x.svn < s.boot.fuses.antiRollback), .fwRollback)]

/-- The slot that is not running. -/
def idleSlot (s : State) : Nat := 1 - s.boot.slot % 2

/-- The commit of a staging: the idle slot is overwritten, so a staged image it held is gone. -/
def beginStaging (s : State) (n : Nat) (x : FwImage) : State :=
  let r := slotRecord s
  let s := if r.stagedValid then writeRecord s { r with activeSlot := s.boot.slot % 2, stagedValid := false } else s
  bumpGeneration { s with
    boot := { s.boot with staging := some { seq := n, image := x }, slots := tdel s.boot.slots (idleSlot s) }
    part := { s.part with updateInProgress := true } }

/-- The start that waited for an image goes on with it; it runs from CP memory, and no slot is written. -/
def runSupplied (s : State) (x : FwImage) : State :=
  match s.boot.waiting with
  | none => s
  | some inp => startRuns { s with boot := { s.boot with failReason := 0 } } inp x ((slotRecord s).activeSlot % 2) false

/-- The image of a request: what its header holds comes from its bytes, and the verdicts on it from the operand. -/
def requestImage (b : Bytes) (x : FwImage) : FwImage :=
  { x with svn := leAt b 5 1, version := leAt b 8 4, digest := beAt b 64 48 }

/-- FW_STAGE.  The boot ROM ends the command when it has verified the image, and then runs it (R446).  One that meets another
in progress, or an activation that waits for its switch, completes with NO_RESOURCE. -/
def execFwStage (c : Nat) (image : FwImage) (s : State) : Host.Outcome State Fault Refusal :=
  .next (runCmd s c opFwStage (fun s t =>
    let image := requestImage t.req image
    if bootServes s then
      match imageStatus s image with
      | some st => failCmd s c st
      | none =>
        let (s, n) := commit s
        runSupplied (complete s c .ok n 0) image
    else if s.boot.staging.isSome ∨ s.boot.activating.isSome then failCmd s c .noResource
    else
      let (s, n) := accept s c t
      beginStaging s n image))

/-- FW_STAGE_DONE: the write and the verification have ended; STAGED_VALID is set in a new record, or the image is discarded. -/
def execFwStageDone (ok : Bool) (s : State) : Host.Outcome State Fault Refusal :=
  match s.boot.staging with
  | none => .next s
  | some g =>
    if s.boot.stopped then .next s
    else
      let s := { s with boot := { s.boot with staging := none } }
      match (match imageStatus s g.image with | none => if ok then none else some .fwSignatureBad | x => x) with
      | some st => .next (finalize { s with part := { s.part with updateInProgress := false } } g.seq st 0)
      | none =>
        let s := { s with boot := { s.boot with slots := tset s.boot.slots (idleSlot s) g.image } }
        .next (finalize (writeRecord s { activeSlot := s.boot.slot % 2, stagedValid := true }) g.seq .ok 0)

/-- The image that FW_ACTIVATE would switch to. -/
def readyImage (s : State) : Option FwImage :=
  if (slotRecord s).stagedValid then tfind s.boot.slots (idleSlot s) else none

/-- Why an activation is refused. -/
def activateRefused (s : State) : Option Status :=
  firstFail [((readyImage s).isNone, .fwNotStaged), (s.boot.activating.isSome, .noResource)]

/-- No command is taken any more; the switch follows when the TAKEN ones are DONE. -/
def beginActivate (s : State) (n : Nat) : State :=
  { s with cp := { s.cp with stopTaking := true }, boot := { s.boot with activating := some n } }

/-- FW_ACTIVATE. -/
def execFwActivate (c : Nat) (s : State) : Host.Outcome State Fault Refusal :=
  .next (runCmd s c opFwActivate (fun s t =>
    match activateRefused s with
    | some st => failCmd s c st
    | none =>
      let (s, n) := accept s c t
      beginActivate s n))

/-- FW_ACTIVATE_SWITCH: the new image runs, the record names its slot, and commands are taken again (R445; 15 R436). -/
def execFwActivateSwitch (s : State) : Host.Outcome State Fault Refusal :=
  match s.boot.activating, readyImage s with
  | some n, some x =>
    if takenCount s ≠ 0 || s.boot.stopped then .next s
    else
      let slot := idleSlot s
      let s := writeRecord s { activeSlot := slot, stagedValid := false }
      let s := { s with
        boot := { s.boot with fw := x, slot := slot, activating := none }
        cp := { s.cp with stopTaking := false, activations := satInc 16 s.cp.activations }
        part := { s.part with updateInProgress := false } }
      let s := bumpGeneration (endSpdm (endSpdm s onDoe) onMctp)
      let s := raiseAllCtx s .fwActivated (source ucCp 0) (fun _ => field x.version 64 32)
      .next (finalize s n .ok 0)
  | _, _ => .next s

/-! ### PLDM firmware update (18 R520) -/

/-- The boot ROM takes an image over the management port: with STRAP_BOOT 2, or in RECOVERY, without a session. -/
def bootTakesPldm (s : State) : Bool :=
  s.boot.waiting.isSome && (s.boot.stage == .recovery || (s.boot.stage == .fwLoad && s.boot.straps.boot == 2))

/-- UPDATE_COMPONENT: the effect and statuses of FW_STAGE. -/
def execUpdateComponent (image : FwImage) (s : State) : Host.Outcome State Fault Refusal :=
  if !portHears s then .next s
  else if bootTakesPldm s then
    match imageStatus s image with
    | some st => .next (mgmtReply s vmPldm (statusCode st) 0)
    | none => .next (runSupplied (mgmtReply s vmPldm pldmOk 0) image)
  else if !inSession s then .next (mgmtReply s vmPldm pldmUnsupported 0)
  else if s.boot.staging.isSome ∨ s.boot.activating.isSome then .next (mgmtReply s vmPldm (statusCode .noResource) 0)
  else
    let (s, n) := commit (mgmtReply s vmPldm pldmOk 0)
    .next (beginStaging s n image)

/-- ACTIVATE_FIRMWARE: the effect and statuses of FW_ACTIVATE. -/
def execActivateFirmware (s : State) : Host.Outcome State Fault Refusal :=
  if !portHears s then .next s
  else if bootTakesPldm s || !inSession s then .next (mgmtReply s vmPldm pldmUnsupported 0)
  else
    match activateRefused s with
    | some st => .next (mgmtReply s vmPldm (statusCode st) 0)
    | none =>
      let (s, n) := commit (mgmtReply s vmPldm pldmOk 0)
      .next (beginActivate s n)

end Sys2Proof.Machine
end

