-- ==== Sys2Proof/Machine/Lc.lean ====
section
/-! DEFINITION. The limited-change settings (spec 16 R461–R464, Tables 16-11 and 16-12). -/
namespace Sys2Proof.Machine

/-- Settings (R462) and results (Table 16-12). -/
def lsVariant := 1
def lsLifecycle := 2
def lsAntiRollback := 3
def lsRepairMap := 4
def lsProfile := 5
def lcOk := 0
def lcExhausted := 1
def lcNotAllowed := 2
def lcBadAuth := 3
def lcBadField := 4
def lcFuseFail := 5

def lcWord (s : State) (i : Nat) : Nat := tget s.boot.lcRequest i 0
def lcSetting (s : State) : Nat := bits (lcWord s 0) 0 8
def lcSite (s : State) : Nat := bits (lcWord s 0) 8 3
def fuseSite (s : State) (t : Nat) : AtticFuse := tget s.boot.fuses.sites t {}

/-- Reserved bits or a value out of range. -/
def lcFieldBad (s : State) : Bool :=
  let g := lcSetting s
  let w := lcWord s 1
  bits (lcWord s 0) 11 53 != 0 || g == 0 || 5 < g
    || (g == lsVariant && (bits w 2 62 != 0 || bits w 0 2 == 3))
    || (g == lsLifecycle && bits w 2 62 != 0)
    || (g == lsAntiRollback && (bits w 8 56 != 0 || 128 < bits w 0 8))
    || (g == lsRepairMap && (List.range 8).any (fun k => bits (lcWord s (1 + k / 2)) (32 * (k % 2) + 28) 4 != 0))
    || (g == lsProfile && (bits w 4 4 != 0 || bits w 14 2 != 0 || bits w 32 32 != 0))

/-- ANTI_ROLLBACK changes made so far: each is a log entry. -/
def antiChanges (s : State) : Nat := (s.boot.fuses.log.filter (fun e => e.setting == lsAntiRollback)).length

/-- No change of the setting is left (Table 16-11). -/
def lcNoneLeft (s : State) : Bool :=
  let g := lcSetting s
  (g == lsVariant && s.boot.fuses.downgraded) || (g == lsLifecycle && 3 ≤ s.boot.fuses.lifecycleSteps)
    || (g == lsAntiRollback && 128 ≤ antiChanges s) || (g == lsRepairMap && 2 ≤ (fuseSite s (lcSite s)).mapWrites)
    || (g == lsProfile && 4 ≤ (fuseSite s (lcSite s)).profileWrites)

/-- The change is not monotonic, not a downgrade, above the running firmware's SVN, or not the management agent's to make. -/
def lcForbidden (s : State) : Bool :=
  let g := lcSetting s
  let w := lcWord s 1
  (g == lsVariant && (s.boot.fuses.variant != .l || w != 2))
    || (g == lsLifecycle && (w ≤ lifecycleValue s.boot.fuses.lifecycle || w == 1
      || (w == 2 && !(s.boot.board.trust.getD {}).fieldDebug)))
    || (g == lsAntiRollback && (w ≤ s.boot.fuses.antiRollback || s.boot.fw.svn < w))

/-- The RESULT of a request that is refused. -/
def lcRefused (s : State) (sigOk : Bool) : Option Nat :=
  firstFail [(lcFieldBad s, lcBadField), (lcNoneLeft s, lcExhausted), (lcForbidden s, lcNotAllowed),
             (lcSetting s == lsLifecycle && lcWord s 1 == 2 && !sigOk, lcBadAuth)]

/-- Word 1 of the value before. -/
def lcOld (s : State) : Nat :=
  let g := lcSetting s
  let f := fuseSite s (lcSite s)
  if g = lsVariant then variantValue s.boot.fuses.variant
  else if g = lsLifecycle then lifecycleValue s.boot.fuses.lifecycle
  else if g = lsAntiRollback then s.boot.fuses.antiRollback
  else if g = lsRepairMap then nth (f.map.getD []) 0 0
  else f.profile.getD 0

/-- The change counts as used once programming begins (R463). -/
def lcUse (f : Fuses) (g t : Nat) : Fuses :=
  if g = lsVariant then { f with downgraded := true }
  else if g = lsLifecycle then { f with lifecycleSteps := f.lifecycleSteps + 1 }
  else if g = lsRepairMap then { f with sites := tmod f.sites t {} (fun x => { x with mapWrites := x.mapWrites + 1 }) }
  else if g = lsProfile then { f with sites := tmod f.sites t {} (fun x => { x with profileWrites := x.profileWrites + 1 }) }
  else f

/-- The value in force once its row's commit bit is burned. -/
def lcApply (f : Fuses) (c : LcChange) : Fuses :=
  let w := fun (i : Nat) => nth c.words i 0
  if c.setting = lsVariant then { f with variant := .a }
  else if c.setting = lsLifecycle then { f with lifecycle := if w 1 = 2 then .fieldDebug else .scrapped }
  else if c.setting = lsAntiRollback then { f with antiRollback := w 1 }
  else if c.setting = lsRepairMap then
    { f with sites := tmod f.sites c.site {} (fun x => { x with map := some [w 1, w 2, w 3, w 4] }) }
  else { f with sites := tmod f.sites c.site {} (fun x => { x with profile := some (w 1), dieId := w 2 }) }

/-- GO: a request met by one in progress is discarded; one that is refused burns nothing; else programming begins. -/
def lcGo (s : State) (sigOk : Bool) : State :=
  if s.boot.lcBusy then { s with boot := { s.boot with lcRejected := satInc 16 s.boot.lcRejected } }
  else
    match lcRefused s sigOk with
    | some r => { s with boot := { s.boot with lcDone := true, lcResult := r } }
    | none =>
      { s with boot := { s.boot with
        lcBusy := true, lcDone := false
        lcChange := some { setting := lcSetting s, site := lcSite s, words := (List.range 20).map (lcWord s), old := lcOld s }
        fuses := lcUse s.boot.fuses (lcSetting s) (lcSite s) } }

/-- FUSE_PROGRAMMING_DONE: the row is in force, or the change is lost; either way the log grows (R463, R464). -/
def execFuseProgrammingDone (ok : Bool) (s : State) : Host.Outcome State Fault Refusal :=
  match s.boot.lcChange with
  | none => .next s
  | some c =>
    if s.boot.stopped then .next s
    else
      let r := if ok then lcOk else lcFuseFail
      let f := if ok then lcApply s.boot.fuses c else s.boot.fuses
      let e : LogEntry := { setting := c.setting, site := c.site, result := r, start := s.boot.startCount % 2 ^ 24, old := c.old
                            new := nth c.words 1 0, requester := Config.requester }
      .next (bumpGeneration { s with boot := { s.boot with
        lcBusy := false, lcDone := true, lcResult := r, lcChange := none, fuses := { f with log := f.log ++ [e] } } })

/-- A GO as the register path carries it: inside the session, at READY, with the SETTING that the row names. -/
def lcRow (s : State) (g : Nat) (sigOk : Bool) : State :=
  if !portHears s then s
  else if !inSession s ∨ !isReady s then mgmtReply s vmRegWrite (statusCode .deniedRole) 0
  else if lcSetting s ≠ g then s
  else lcGo (mgmtReply s vmRegWrite (statusCode .ok) 0) sigOk

/-- LC_VARIANT: the downgrade from L to A; it takes effect at the next cold reset. -/
def execLcVariant (sigOk : Bool) (s : State) : Host.Outcome State Fault Refusal := .next (lcRow s lsVariant sigOk)

/-- LC_LIFECYCLE: a step to FIELD_DEBUG, with its authorisation, or to SCRAPPED; it takes effect at the next cold reset. -/
def execLcLifecycle (sigOk : Bool) (s : State) : Host.Outcome State Fault Refusal := .next (lcRow s lsLifecycle sigOk)

/-- LC_ANTI_ROLLBACK: the counter rises, at most to the running firmware's SVN. -/
def execLcAntiRollback (sigOk : Bool) (s : State) : Host.Outcome State Fault Refusal := .next (lcRow s lsAntiRollback sigOk)

/-- LC_ATTIC_REPAIR_MAP: a site's lane-repair map, replaced whole. -/
def execLcAtticRepairMap (sigOk : Bool) (s : State) : Host.Outcome State Fault Refusal := .next (lcRow s lsRepairMap sigOk)

/-- LC_ATTIC_PROFILE: a site's capability profile. -/
def execLcAtticProfile (sigOk : Bool) (s : State) : Host.Outcome State Fault Refusal := .next (lcRow s lsProfile sigOk)

end Sys2Proof.Machine
end

