-- ==== Sys2Proof/Machine/Power.lean ====
section
/-! DEFINITION. Power commands, the domains' entry and exit, the CP's sleep and its wakes, and the comparators (spec 18
R491–R505, R507, R513). -/
namespace Sys2Proof.Machine

/-! ### POWER_QUERY and POWER_CAP_SET -/

/-- POWER_QUERY (R513). -/
def execPowerQuery (c : Nat) (s : State) : Host.Outcome State Fault Refusal :=
  .next (runCmd s c opPowerQuery (fun s t =>
    let r := readings s t.mgmt
    let v := fun (i : Nat) => nth r i 0
    finishQuery s c (field (v 0) 0 16 + field (v 1) 16 16 + field (v 2) 32 16 + field (hubBudget s) 48 16 + field s.pwr.level 64 3
      + sum ((List.range 8).map (fun t => field (v (3 + t)) (128 + 16 * t) 16))
      + field (if t.mgmt then s.time.boundaryTime else s.pwr.coarseTime) 256 64)))

/-- The caps of a request. -/
def requestCaps (b : Bytes) : CapSet :=
  { package := bbits b 0 16, hbm := bbits b 16 16, cpIdleMs := bbits b 32 16
    attic := (List.range 8).map (fun t => bbits b (64 + 16 * t) 16) }

/-- POWER_CAP_SET (R507): the budgets change at the next boundary. -/
def execPowerCapSet (c : Nat) (s : State) : Host.Outcome State Fault Refusal :=
  .next (runCmd s c opPowerCapSet (fun s t =>
    let k := requestCaps t.req
    let hub := hubOf s (min k.package s.pwr.packageCap) k.hbm (sum k.attic)
    if bbits t.req 48 16 ≠ 0 ∨ s.pwr.boardPackage < k.package then failCmd s c .badField
    else if hub < s.pwr.hubFloor then failCmd s c .admissionRefused (field s.pwr.hubFloor 0 16 + field hub 16 16)
    else finishSync s c none (fun s => { s with pwr := { s.pwr with capSet := some k } }) (fun _ => 0)))

/-! ### POWER_DOMAIN_SET: the checks (R493, R499) -/

/-- An entry of a request. -/
structure DomainEntry where
  domain : Nat := 0
  target : PowerState := .on
  stateField : Nat := 0
  mask : Nat := 0
  reserved : Nat := 0
  deriving DecidableEq, Repr, Inhabited

def domainEntries (b : Bytes) : List DomainEntry :=
  (List.range (leAt b 1 1)).map (fun i =>
    let w := leAt b (8 + 4 * i) 4
    let st := bits w 8 2
    { domain := bits w 0 7, stateField := st, target := if st = 0 then .on else if st = 1 then .retention else .off
      mask := bits w 16 16, reserved := bits w 7 1 + bits w 10 6 })

/-- The unit of a domain is present; the domain of an absent one stays OFF (R491). -/
def unitPresent (s : State) (d : Nat) : Bool :=
  if d < 64 then bitAt s.boot.presentCellars d
  else if d < 76 then bitAt s.boot.presentShelves (d - 64)
  else if d < 88 then bitAt s.boot.presentEngines (d - 76)
  else if d < 96 then bitAt s.boot.presentQuadrants ((d - 88) / 2)
  else if d < 100 then bitAt s.boot.presentQuadrants (d - 96)
  else d < 103

/-- States that a command may ask of a domain (Table 18-1). -/
def stateAllowed (s : State) (e : DomainEntry) : Bool :=
  e.stateField != 3 && e.domain < 103
    && (if !unitPresent s e.domain then e.target == .off
        else if e.domain < 76 then true
        else if e.domain < 100 then e.target != .retention
        else e.target == .on)

/-- The quadrant of a unit's domain. -/
def domainQuad (d : Nat) : Nat :=
  if d < 64 then d / 16 else if d < 76 then (d - 64) / 3 else if d < 88 then (d - 76) / 3 else (d - 88) / 2

/-- A shelf holds a larder page that is not FREE, or a model range. -/
def shelfInUse (s : State) (n : Nat) : Bool :=
  pagesHeld s (n * shelfSize / 0x10000) (shelfSize / 0x10000)
    || s.part.models.any (fun e => e.2.ranges.any (fun r => rangesMeet r.dst (r.chunks * 0x10000) (n * shelfSize) shelfSize))

/-- A domain is in a state, or on its way to it. -/
def headsFor (x : Domain) (p : PowerState) : Bool := if x.transition then x.target == p else x.dstate == p

/-- A NoC domain may go OFF: nothing of its quadrant is ON or on its way there (R499). -/
def nocMayStop (s : State) (q : Nat) : Bool :=
  let p := physQuadrant s q
  ((List.range 96).filter (fun d => domainQuad d == q)).all (fun d => (domainOf s d).dstate != .on && !headsFor (domainOf s d) .on)
    && 2 ≤ p && !(farOf s (p - 2)).decoders.any (fun e => e.2.enable)

/-- The owner of a unit's domain. -/
def domainOwner (s : State) (d : Nat) : Nat :=
  if d < 64 then cellarOwner s d else if d < 88 then engineOwner s (d - 76) else siteOwner s (d - 88)

/-- Why a request is refused. -/
def domainSetRefused (s : State) (b : Bytes) (mgmt : Bool) (ctx : Nat) : Option Status :=
  let l := domainEntries b
  let own := fun (d : Nat) => d < 64 || (76 ≤ d && d < 96)
  firstFail [
    (leAt b 0 1 != 0x10 || leAt b 1 1 == 0 || 103 < leAt b 1 1 || bbits b 16 48 != 0
      || l.any (fun e => e.reserved != 0 || !stateAllowed s e)
      || !distinct (l.map (·.domain))
      || l.any (fun e => e.mask != 0 && (64 ≤ e.domain || e.target != .retention || 2 ^ (cellarOf s e.domain).scratchBanks ≤ e.mask)), .badField),
    (!mgmt && l.any (fun e => !own e.domain), .deniedRole),
    (!mgmt && l.any (fun e => domainOwner s e.domain != ctx), .deniedPartition),
    (l.any (fun e => e.target == .off && (domainOf s e.domain).dstate != .off
        && ((64 ≤ e.domain && e.domain < 76 && shelfInUse s (e.domain - 64))
          || (96 ≤ e.domain && e.domain < 100 && !nocMayStop s (e.domain - 96))))
      || l.any (fun e => e.domain < 96 && e.target == .on && (domainOf s e.domain).dstate != .on
        && ((domainOf s (96 + domainQuad e.domain)).dstate == .off || headsFor (domainOf s (96 + domainQuad e.domain)) .off)), .noResource)]

/-! ### Entry (R494) -/

/-- A page of a cellar's scratch lies in a bank that a mask retains. -/
def pageRetained (c page mask : Nat) : Bool := bitAt mask ((page * 0x10000 - scratchBase - c * scratchStride) / 0x80000)

/-- CELLAR-tier pages of a cellar in banks that will not be retained. -/
def leavingPages (s : State) (c mask : Nat) : List Nat :=
  let first := (scratchBase + c * scratchStride) / 0x10000
  tkeys (s.larder.pages.filter (fun e => first ≤ e.1 && e.1 < first + 0x100 && !pageRetained c e.1 mask
    && (e.2.pstate == .resident || e.2.pstate == .moving)))

/-- Move them one tier down. -/
def evacuate (s : State) (c mask : Nat) : State :=
  beginMoves (forEach (leavingPages s c mask) s (fun s page =>
    match pageOf s page with
    | none => s
    | some x =>
      if x.pstate ≠ .resident ∨ x.pins ≠ 0 ∨ movingFrom s page then s
      else
        let p := (seqOf s x.seq).part
        match ([1, 2, 3].filter (fun u => !(tierRanges s p u).isEmpty)).findSome? (fun u => chooseRange s p u (some c)) with
        | none => s
        | some r => queueMove s page r none))

/-- The shelf or site that a transaction in flight has been granted for. -/
def txnsAt (s : State) (p : Place → Bool) : Bool :=
  s.mem.txns.any (fun e => (e.2.phase == .issued || e.2.phase == .shelfHeld) && p (placeOf s e.2.hpa))

/-- Recall every directory entry that names a site; true while an answer is due (12 R328). -/
def recallSite (s : State) (t : Nat) : State × Bool :=
  let mine := fun (e : Nat × DirEntry) => e.2.owner == some t || bitAt e.2.sharers t
  (tkeys (s.attic.dir.filter mine)).foldl (fun (r : State × Bool) l =>
    let (s', b) := snoopLine r.1 l true none none
    (s', r.2 || b)) (s, false)

/-- A unit is idle: no step holds it, its pages have moved, and its port is drained.  The state may have sent snoops or
begun moves meanwhile. -/
def entryReady (s : State) (d : Nat) (x : Domain) : State × Bool :=
  if d < 64 then
    let s := evacuate s d x.retainMask
    (s, (stepsOnCellar s d).isEmpty && (leavingPages s d x.retainMask).isEmpty && !s.mem.txns.any (fun e => e.2.master == d && e.2.phase != .done))
  else if d < 76 then (s, !txnsAt s (· == .shelf (d - 64)))
  else if d < 88 then (s, true)
  else if d < 96 then
    let t := d - 88
    let held := s.larder.steps.any (fun e => (e.2.phase == .running || e.2.phase == .ending) && (atticSites e.2).contains t)
    if held || !(siteOf s t).parts.isEmpty then (s, false)
    else
      let (s, due) := recallSite s t
      (s, !due && (siteOf s t).windowReqs.isEmpty && (siteOf s t).held.isEmpty && (siteOf s t).pegWaits.isEmpty
        && !txnsAt s (· == .attic t) && !s.mem.txns.any (fun e => txnSite e.2 == some t && e.2.phase != .done))
  else if d < 100 then (s, routesDrained s (physQuadrant s (d - 96)))
  else (s, true)

/-- A cellar goes to RETENTION or OFF: everything of it goes home; retained scratch banks and, in RETENTION, pegs stay. -/
def cellarSleeps (s : State) (c : Nat) (x : Domain) : State :=
  let s := forEach ((List.range 64).map (c * 64 + ·)) s (fun s k =>
    if coreUp s k then
      dropImages (modCore (flushCore s k) k (fun y => { disabledWays := y.disabledWays, failingWays := y.failingWays })) k
    else s)
  let s := flushCellar s c
  let s := forEach ((tkeys s.larder.pages).filter (fun p =>
      (scratchBase + c * scratchStride) / 0x10000 ≤ p && p < (scratchBase + c * scratchStride) / 0x10000 + 0x100
        && !pageRetained c p x.retainMask)) s zeroedPage
  let s := forEach ((List.range 16).filter (fun b => !bitAt x.retainMask b)) s (fun s b =>
    zeroRange s (scratchBase + c * scratchStride + b * 0x80000) 0x80000)
  let s := dropTxns s (fun t => t.master == c)
  let s := if x.target = .off then pegsNone s c else s
  modCellar s c (fun y => { y with lines := [], filter := [], trackers := [], fills := [], lockedWays := 0, nextScratch := none })

/-- What a unit loses as its domain reaches RETENTION or OFF. -/
def unitSleeps (s : State) (d : Nat) (x : Domain) : State :=
  if d < 64 then cellarSleeps s d x
  else if d < 76 then
    let n := d - 64
    let s := finishFlushes (flushWcb s (.shelf n)) (.shelf n)
    if x.target ≠ .off then s
    else
      let s := zeroRange s (n * shelfSize) shelfSize
      modShelf s n (fun y => { y with chDown := 0, held := 0, corrected := 0, uncorrected := 0, zeroing := true })
  else if d < 88 then engineOff s (d - 76)
  else if d < 96 then
    let t := d - 88
    let s := emit s (.sideband t sbPowerDown 0)
    modSite s t (fun y => { present := y.present, everUp := y.everUp, unfitted := y.unfitted, dieEpoch := y.dieEpoch, astate := .down })
  else s

/-! ### Transitions (R494, R498, R500) -/

/-- A domain leaves its state for another; what is neither ON nor asked ON goes through ON. -/
def startTransition (s : State) (d : Nat) (r : DomainRequest) : State :=
  let x := domainOf s d
  if x.dstate ≠ .on ∧ r.target ≠ .on then
    modDomain s d (fun x => { x with transition := true, target := .on, latched := r :: x.latched })
  else
    let s := modDomain s d (fun x => { x with transition := true, target := r.target, retainMask := r.retainMask })
    if r.target = .on then s
    else if d < 64 then evacuate s d r.retainMask
    else if 76 ≤ d ∧ d < 88 then engineLeaves s (d - 76)
    else s

/-- The final record of every POWER_DOMAIN_SET whose domains have all reached their state (R493). -/
def settleSets (s : State) : State :=
  let done := s.pwr.sets.filter (fun k => k.waiting.isEmpty)
  let s := { s with pwr := { s.pwr with sets := s.pwr.sets.filter (fun k => !k.waiting.isEmpty) } }
  forEach done s (fun s k => finalize s k.seq .ok (field k.changed 0 8 + field k.failed 8 8))

/-- A domain has reached a state for the oldest command that waits for it. -/
def tellSets (s : State) (d : Nat) (failed : Bool) : State :=
  match s.pwr.sets.find? (fun k => k.waiting.contains d) with
  | none => s
  | some k =>
    settleSets { s with pwr := { s.pwr with sets := s.pwr.sets.map (fun x =>
      if x.seq = k.seq then { x with waiting := x.waiting.filter (· != d), changed := x.changed + 1
                                     failed := x.failed + b2n failed } else x) } }

/-- The next latched cause of a domain acts; one that asks for the state it has ends at once.  A wake that meets an ON domain
needs nothing. -/
def nextCause (s : State) (d : Nat) : State :=
  let s := forEach (domainOf s d).latched s (fun s r =>
    if (domainOf s d).transition ∨ r.target ≠ (domainOf s d).dstate then s
    else
      let s := modDomain s d (fun x => { x with latched := x.latched.filter (· != r) })
      if r.seq = 0 then s
      else settleSets { s with pwr := { s.pwr with sets := s.pwr.sets.map (fun k =>
        if k.seq = r.seq then { k with waiting := k.waiting.filter (· != d) } else k) } })
  match (domainOf s d).latched with
  | [] => s
  | r :: rest =>
    if (domainOf s d).transition then s
    else startTransition (modDomain s d (fun x => { x with latched := rest })) d r

/-- One entry of an accepted request: nothing, a transition, or a latch (R500). -/
def askDomain (s : State) (n : Nat) (e : DomainEntry) : State :=
  let x := domainOf s e.domain
  let r : DomainRequest := { target := e.target, retainMask := e.mask, seq := n }
  let wait := fun (s : State) => { s with pwr := { s.pwr with sets := s.pwr.sets.map (fun k =>
    if k.seq = n then { k with waiting := k.waiting ++ [e.domain] } else k) } }
  if x.transition then wait (modDomain s e.domain (fun x => { x with latched := x.latched ++ [r] }))
  else if x.dstate = e.target then s
  else startTransition (wait s) e.domain r

/-- POWER_DOMAIN_SET. -/
def execPowerDomainSet (c : Nat) (s : State) : Host.Outcome State Fault Refusal :=
  .next (runCmd s c opPowerDomainSet (fun s t =>
    match domainSetRefused s t.req t.mgmt t.ctx with
    | some st => failCmd s c st
    | none =>
      let (s, n) := accept s c t
      let s := { s with pwr := { s.pwr with sets := s.pwr.sets ++ [{ seq := n }] } }
      settleSets (forEach (domainEntries t.req) s (fun s e => askDomain s n e))))

/-- A state change counts, and the domain rests in its new state. -/
def arrive (s : State) (d : Nat) (p : PowerState) : State :=
  modDomain s d (fun x => { x with dstate := p, transition := false, transitions := satInc 32 x.transitions
                                   retainMask := if p = .retention then x.retainMask else 0 })

/-- POWER_DOMAIN_ENTRY_DONE: an entry completes once the unit is idle; a latched cause then starts the exit (R500). -/
def execPowerDomainEntryDone (d : Nat) (s : State) : Host.Outcome State Fault Refusal :=
  let x := domainOf s d
  if 103 ≤ d || !x.transition || x.target == .on || s.boot.stopped then .next s
  else
    match entryReady s d x with
    | (s, false) => .next s
    | (s, true) =>
      let s := nextCause (tellSets (arrive (unitSleeps s d x) d x.target) d false) d
      .next (if d = 101 ∧ s.pwr.wakeLatch ≠ 0 ∧ !(domainOf s d).transition then
               modDomain { s with pwr := { s.pwr with wakes := satInc 32 s.pwr.wakes } } d (fun x => { x with transition := true, target := .on })
             else s)

/-- A comparator's event goes to management (R505). -/
def comparatorEvent (s : State) (k : Nat) : State :=
  let key := causeComparator * 16 + k
  if !mayRaise s (tfind s.pwr.lastLimiting key) then s
  else
    let s := { s with pwr := { s.pwr with lastLimiting := tset s.pwr.lastLimiting key s.time.strumCount } }
    raiseMgmt s 0 .powerLimiting (source ucPower k) (fun t => field causeComparator 64 4 + field k 68 3 + field s.pwr.level 72 3
      + field (hubBudget s) 80 16 + field s.pwr.readHub 96 16 + field t 256 64)

/-- The latches of the wake sources are replayed in ascending order and cleared (R504). -/
def replayWakes (s : State) : State :=
  let latch := s.pwr.wakeLatch
  let s := if bitAt latch 0 then { s with pwr := { s.pwr with sclHeld := false } } else s
  let s := forEach ((List.range 8).filter (fun k => bitAt latch (3 + k))) s (fun s k =>
    if bitAt (comparatorOf s k).action 1 then comparatorEvent s k else s)
  { s with pwr := { s.pwr with wakeLatch := 0 } }

/-- What a unit does as its domain comes ON (R498); `ok` is its retest. -/
def unitWakes (s : State) (d : Nat) (from_ : PowerState) (ok : Bool) : State :=
  if d < 64 then
    let s := modCellar s d (fun x => { x with epoch := (x.epoch + 1) % 2 ^ 32, resetting := true, stepsEnded := 0 })
    cellarRetested (resetBanks s d) d ok
  else if d < 76 then modShelf s (d - 64) (fun x => { x with zeroing := x.zeroing || from_ == .off })
  else if d < 88 then engineOn s (d - 76)
  else if d < 96 then beginBringUp s (d - 88) false
  else if d = 101 then replayWakes s
  else s

/-- The routes that a NoC domain changes as it comes ON have drained; another domain changes none (01 R12). -/
def routesReady (s : State) (d : Nat) : Bool := !(96 ≤ d && d < 100) || routesDrained s (physQuadrant s (d - 96))

/-- POWER_DOMAIN_ON: the rails are good and the clamps release. -/
def execPowerDomainOn (d : Nat) (ok : Bool) (s : State) : Host.Outcome State Fault Refusal :=
  let x := domainOf s d
  if 103 ≤ d || !x.transition || x.target != .on || s.boot.stopped || !routesReady s d then .next s
  else
    let s := unitWakes (arrive s d .on) d x.dstate ok
    -- a domain that only passes through ON on its way to another state has not reached what was asked
    let through : Bool := match x.latched with
      | [] => false
      | r :: _ => r.seq != 0 && r.target != .on && (match s.pwr.sets.find? (fun k => k.waiting.contains d) with
        | some k => k.seq == r.seq
        | none => false)
    .next (nextCause (if through then s else tellSets s d (d < 76 && !ok)) d)

/-- SHELF_ZEROING_DONE: a shelf that came from OFF is zeroed and mapped. -/
def execShelfZeroingDone (shelf : Nat) (s : State) : Host.Outcome State Fault Refusal :=
  .next (if bitAt s.boot.presentShelves shelf ∧ domainOn s (domShelf shelf) ∧ (shelfOf s shelf).zeroing then
           modShelf s shelf (fun x => { x with zeroing := false })
         else s)

/-! ### The CP sleeps (R501–R504) -/

/-- The CP may sleep (R501). -/
def cpIdle (s : State) : Bool :=
  s.pwr.cpIdleMs != 0 && isReady s && domainOn s 101 && !s.mgmt.session
    && s.cp.chans.all (fun e => e.2.state != .posted && e.2.state != .taken)
    && s.larder.steps.isEmpty && s.larder.moves.isEmpty
    && (List.range 64).all (fun c => (domainOf s (domCellar c)).dstate != .on)

/-- CP_IDLE_TIMEOUT: the conditions have held for CP_IDLE_MS; the CP domain begins its entry. -/
def execCpIdleTimeout (s : State) : Host.Outcome State Fault Refusal :=
  .next (if cpIdle s then modDomain s 101 (fun x => { x with transition := true, target := .retention }) else s)

/-- SMBUS_ADDRESS_MATCH: the address is ACKed and SCL is held until the CP is ready. -/
def execSmbusAddressMatch (s : State) : Host.Outcome State Fault Refusal :=
  if !mgmtReaches s || !s.mgmt.smbusEn || domainOn s 101 then .next s
  else .next (wakeCp { s with pwr := { s.pwr with sclHeld := true } } 0)

/-- I3C_ADDRESS_MATCH: the address is NACKed, and the wake is latched. -/
def execI3cAddressMatch (s : State) : Host.Outcome State Fault Refusal :=
  if !mgmtReaches s || !s.mgmt.i3cEn || domainOn s 101 then .next s
  else .next (wakeCp (mgmtReply s vmI3cNack 0 0) 1)

/-! ### Comparators (R505) -/

/-- SOURCE of a TIME comparator. -/
def sourceTime := 0xFF

/-- The readings of Table 18-9 that the power manager itself holds: power as the average of the last strum, and the level. -/
def heldReading (s : State) (id : Nat) : Option Nat :=
  if id = 29 then some s.pwr.readHub
  else if id = 30 then some s.pwr.readHbm
  else if id = 31 then some s.pwr.readPackage
  else if 32 ≤ id ∧ id ≤ 39 then some (atticPowerOf s (id - 32)).measured
  else if id = 64 then some s.pwr.level
  else none

/-- The quantity that a comparator watches, given the sensor's reading. -/
def watched (s : State) (x : Comparator) (value : Nat) : Int :=
  if x.source = sourceTime then s.time.now
  else match heldReading s x.source with | some v => v | none => signed value 64

/-- The crossing holds: above VALUE, or below it. -/
def crossed (x : Comparator) (v : Int) : Bool := if x.below then decide (v < signed x.value 64) else decide (signed x.value 64 < v)

/-- The quantity lies past VALUE by HYSTERESIS on the other side. -/
def returned (x : Comparator) (v : Int) : Bool :=
  if x.below then decide (signed x.value 64 + 8 * x.hysteresis ≤ v) else decide (v ≤ signed x.value 64 - 8 * x.hysteresis)

/-- A sensor reads a value. -/
def setSensor (s : State) (id value : Nat) : State :=
  if id = sourceTime ∨ (heldReading s id).isSome then s
  else { s with pwr := { s.pwr with sensors := tset s.pwr.sensors id value } }

/-- COMPARATOR_ASSERT: the crossing holds; the comparator wakes the CP, raises its event, and throttles. -/
def execComparatorAssert (k value : Nat) (s : State) : Host.Outcome State Fault Refusal :=
  let x := comparatorOf s k
  if 8 ≤ k || !mgmtReaches s || !x.enable || x.asserted || !crossed x (watched s x value) then .next s
  else
    let s := modComparator (setSensor s x.source value) k (fun x => { x with asserted := true })
    let asleep := !domainOn s 101
    let s := if bitAt x.action 0 then wakeCp s (3 + k) else s
    let s := if bitAt x.action 2 then powerLimiting s causeComparator k (hubBudget s) s.pwr.readHub else s
    .next (if bitAt x.action 1 ∧ !(asleep ∧ bitAt x.action 0) then comparatorEvent s k else s)

/-- COMPARATOR_DEASSERT: the quantity of a sensor comparator has returned. -/
def execComparatorDeassert (k value : Nat) (s : State) : Host.Outcome State Fault Refusal :=
  let x := comparatorOf s k
  if 8 ≤ k || !mgmtReaches s || x.source == sourceTime || !x.asserted || !returned x (watched s x value) then .next s
  else .next (modComparator (setSensor s x.source value) k (fun x => { x with asserted := false }))

end Sys2Proof.Machine
end

