-- ==== Sys2Proof/Machine/Regs.lean ====
section
/-! DEFINITION. Accesses to the register space and through BAR2, and the host's configuration writes (spec 00 R7–R10; 03 R60;
08 R235–R239; 18 R505, R517; 19). -/
namespace Sys2Proof.Machine

/-! ### Writes of the host (R10) -/

/-- REGISTER_WRITE: a write of the host through BAR0. -/
def execRegisterWrite (addr size value : Nat) (s : State) : Host.Outcome State Fault Refusal :=
  let v := value % 2 ^ (8 * size)
  .next (if hostReaches s then postWrite s addr size v (fun s => hostWrite s addr size v) else s)

/-! ### Comparators (18 R505) -/

/-- A comparator is written: one of TIME deasserts, and one that is switched off is no longer asserted. -/
def comparatorSet (s : State) (k : Nat) (f : Comparator → Comparator) : State :=
  let x := comparatorOf s k
  let y := f x
  let time := x.source == sourceTime || y.source == sourceTime
  modComparator s k (fun _ => { y with asserted := x.asserted && !time && y.enable })

/-- The fields of PWR_CMP in a word. -/
def comparatorFields (value : Nat) (x : Comparator) : Comparator :=
  { x with enable := bitAt value 0, below := bitAt value 2, action := bits value 3 3, source := bits value 8 8
           hysteresis := bits value 16 4 }

/-! ### Writes of the management agent (18 R517) -/

/-- The fields that a REG_WRITE may write (18 R517). -/
inductive MgmtReg where
  | shelfRepair (shelf : Nat)
  | lcCmd
  | lcRequest (word : Nat)
  | comparator (k : Nat)
  | comparatorValue (k : Nat)
  | other
  deriving DecidableEq, Repr

/-- The field at BAR0 offset `o`. -/
def mgmtReg (o : Nat) : MgmtReg :=
  if o % 8 ≠ 0 then .other
  else if 0x1800000 ≤ o ∧ o < 0x18C0000 ∧ o % 0x10000 = 0x40 then .shelfRepair ((o - 0x1800000) / 0x10000)
  else if o = 0x2400018 then .lcCmd
  else if 0x2400800 ≤ o ∧ o < 0x2400900 then .lcRequest ((o - 0x2400800) / 8)
  else if 0x2600200 ≤ o ∧ o < 0x2600280 then
    if o % 16 = 0 then .comparator ((o - 0x2600200) / 16) else .comparatorValue ((o - 0x2600200) / 16)
  else .other

/-- A write of SHELF_REPAIR_CMD: soft, hard, or the cancelling of a hard repair; KIND 3 asks for nothing. -/
def repairWrite (s : State) (shelf value : Nat) : State :=
  let row := bits value 0 32
  let cmd := bits value 32 2
  if cmd = 0 then repairCommand s shelf (fun s => (softRepair s shelf row false).1)
  else if cmd = 1 then repairCommand s shelf (fun s => hardRepair s shelf row)
  else if cmd = 2 then repairCommand s shelf (fun s => cancelHard s shelf row)
  else repairCommand s shelf (fun s => s)

/-- A 64-bit write of the management agent to a field of R517. -/
def mgmtWrite (s : State) (o n value : Nat) : State :=
  if n ≠ 8 then s
  else
    match mgmtReg o with
    | .shelfRepair shelf => repairWrite s shelf value
    | .lcCmd =>
      if bitAt value 0 then lcGo s (Config.lcSigOk s.boot.fuses.serial ((List.range 20).map (lcWord s))) else s
    | .lcRequest w => { s with boot := { s.boot with lcRequest := tset s.boot.lcRequest w (value % 2 ^ 64) } }
    | .comparator k => comparatorSet s k (comparatorFields value)
    | .comparatorValue k => comparatorSet s k (fun x => { x with value := value % 2 ^ 64 })
    | .other => s

/-- The management agent may write registers: in its session, from READY on (R515, R553). -/
def mgmtWrites (s : State) : Bool := inSession s && isReady s

/-- PWR_CMP_WRITE: the word of PWR_CMP[k]. -/
def execPwrCmpWrite (k value : Nat) (s : State) : Host.Outcome State Fault Refusal :=
  if !portHears s then .next s
  else if !mgmtWrites s then .next (mgmtReply s vmRegWrite (statusCode .deniedRole) 0)
  else
    let s := mgmtReply s vmRegWrite (statusCode .ok) 0
    .next (if k < 8 then comparatorSet s k (comparatorFields value) else s)

/-- REG_WRITE. -/
def execRegWrite (addr size value : Nat) (s : State) : Host.Outcome State Fault Refusal :=
  if !portHears s then .next s
  else if !mgmtWrites s then .next (mgmtReply s vmRegWrite (statusCode .deniedRole) 0)
  else .next (mgmtWrite (mgmtReply s vmRegWrite (statusCode .ok) 0) (addr % 2 ^ 26) size value)

/-- The offset of BOOT_STATUS, which may be read without a session (R515). -/
def bootStatusOffset := 0x0010008

/-- REG_READ: the management view.  A read takes a fresh number, for the registers whose value nothing determines. -/
def execRegRead (addr size : Nat) (s : State) : Host.Outcome State Fault Refusal :=
  let o := addr % 2 ^ 26
  if !portHears s then .next s
  else if !inSession s ∧ o ≠ bootStatusOffset then .next (mgmtReply s vmRegRead (statusCode .deniedRole) 0)
  else
    let v := readReg s .mgmt o size
    .next (mgmtReply (takeFresh s).2 vmRegRead (statusCode .ok) v)

/-! ### BAR2 (08 R236–R239) -/

/-- The HPA that a bus address in BAR2 names, if it lies there; with CXL, the HDM decoder maps the same HPAs (R236). -/
def bar2Hpa (s : State) (b : Nat) : Option Nat :=
  let x := s.boot
  if x.bar2Base ≤ b ∧ b < x.bar2Base + 2 ^ x.bar2Log2 then some (x.windowBase + (b - x.bar2Base))
  else if x.hostLink.cxl ∧ x.hdmOn ∧ x.hdmBase ≤ b ∧ b < x.hdmBase + 2 ^ x.bar2Log2 then some (x.windowBase + (b - x.hdmBase))
  else none

/-- What the host reaches through BAR2: shelves, the far tier and scratch windows. -/
def bar2Place : Place → Bool
  | .shelf _ => true
  | .far _ _ => true
  | .scratch _ => true
  | _ => false

/-- An access of `n` bytes names nothing that BAR2 reaches. -/
def bar2Unmapped (s : State) (a n : Nat) : Bool := bar2Misaligned s || !(bar2Place (placeOf s a) && bar2Place (placeOf s (a + n - 1)))

/-- The transactions of a host access, one for each line: its own bytes of the line. -/
def bar2Txn (a n l : Nat) : Txn :=
  let lo := max a (l * 128)
  { master := 84, tag := tagHost, hpa := lo, bytes := min (a + n) (l * 128 + 128) - lo }

/-- A posted write enters the host's port line by line; a poisoned one carries poison (R235, 17 R476). -/
def bar2Write (s : State) (a : Nat) (b : Bytes) (poison : Bool) : State :=
  forEach (linesOf a b.length) (tlpPoison s poison) (fun s l =>
    (newTxn s { bar2Txn a b.length l with
      kind := .write, hpa := l * 128, data := bytesOfLine a b l, poison := if poison then 15 else 0, client := .hostWrite }).1)

/-- Posted writes of the host that are not at home yet. -/
def hostWrites (s : State) : List Nat := tkeys (s.mem.txns.filter (fun e => e.2.client == .hostWrite))

/-- The reads that may be outstanding (Table 8-8). -/
def hostReadLimit := 2048

/-- A read enters the host's port line by line. -/
def bar2Read (s : State) (bus a n : Nat) : State :=
  let i := s.cells.nextId
  let s := { s with cells := { s.cells with nextId := i + 1 } }
  let r := (linesOf a n).foldl (fun (r : State × List Nat) l =>
    let x := newTxn r.1 { bar2Txn a n l with client := .hostRead i }
    (x.1, r.2 ++ [x.2])) (s, [])
  let q : HostRead := { bus := bus, hpa := a, bytes := n, after := hostWrites s, lines := r.2 }
  { r.1 with mem := { r.1.mem with hostReads := tset r.1.mem.hostReads i q } }

/-- BAR2_ACCESS: a write of `data`, or a read of as many bytes, enters the host's master port; one that names nothing BAR2
reaches ends at once (Table 8-2). -/
def execBar2Access (kind : TlpKind) (addr : Nat) (data : Bytes) (s : State) : Host.Outcome State Fault Refusal :=
  let n := data.length
  match bar2Hpa s addr with
  | none => .next s
  | some a =>
    if !hostReaches s ∨ n = 0 then .next s
    else
      match kind with
      | .write poison => .next (if bar2Unmapped s a n then hostRefused (tlpPoison s poison) true a false else bar2Write s a data poison)
      | .read =>
        if bar2Unmapped s a n then .next (emit s .unsupported)
        else if hostReadLimit ≤ s.mem.hostReads.length then .next s
        else .next (bar2Read s addr a n)

/-! ### Configuration space (08 R235, R237) -/

/-- Messages that waited while the function was silent go out. -/
def sendPending (s : State) : State :=
  if hostSilent s then s
  else
    forEach (s.cp.msix.filter (fun e => e.2.pendingBit && !e.2.masked)) s (fun s e =>
      emit { s with cp := { s.cp with msix := tset s.cp.msix e.1 { e.2 with pendingBit := false } } } (.msix e.1 e.2.addr e.2.data))

/-- The IDE streams in use: the link stream as 0, selective streams as 1 to 4. -/
def ideStreams (link : Bool) (n : Nat) : List Nat := (if link then [0] else []) ++ (List.range (min n 4)).map (· + 1)

/-- The SE generates the keys of the IDE streams that a write activates (15 R429). -/
def ideKeys (s : State) : ConfigWrite → State
  | .ide l n => drawIdeKeys s (ideStreams l n)
  | _ => s

/-- HOST_CONFIG_WRITE. -/
def execHostConfigWrite (w : ConfigWrite) (s : State) : Host.Outcome State Fault Refusal :=
  if !hostReaches s then .next s
  else
    let s := ideKeys s w
    let b := s.boot
    .next (sendPending { s with boot :=
      match w with
      | .bar0 base => { b with bar0Base := base % 2 ^ 64 / 0x4000000 * 0x4000000 }
      | .bar2 base => { b with bar2Base := base % 2 ^ 64 / 2 ^ b.bar2Log2 * 2 ^ b.bar2Log2 }
      | .bar2Size n => if 30 ≤ n ∧ n ≤ 44 then { b with bar2Log2 := n, bar2Base := b.bar2Base / 2 ^ n * 2 ^ n } else b
      | .dState d => { b with d3hot := d }
      | .atomicEnable on => { b with atomicEnable := on }
      | .busMaster on => { b with busMaster := on }
      | .ide l n => { b with ideLink := l, ideSelective := min n 4 }
      | .hdm base on => { b with hdmBase := base % 2 ^ 64 / 2 ^ b.bar2Log2 * 2 ^ b.bar2Log2, hdmOn := on }
      | .aerClear u p => { b with aerUnsupported := b.aerUnsupported && !u, aerPoisoned := b.aerPoisoned && !p } })

/-- HOST_LINK_UP: the host port has trained. -/
def execHostLinkUp (l : HostLink) (s : State) : Host.Outcome State Fault Refusal :=
  .next (if s.boot.hostUp || s.boot.stopped || s.boot.coldResetLow || s.boot.heldHot then s
         else { s with boot := { s.boot with hostUp := true, hostLink := l } })

end Sys2Proof.Machine
end

