-- ==== Sys2Proof/Machine/Port.lean ====
section
/-! DEFINITION. Messages of the management port beside register accesses, its link, and the pins that rails and sensors move (spec
18 R514–R519, R553; 20 R535, R538). -/
namespace Sys2Proof.Machine

/-! ### MB_REQUEST and EVENT_ACK (18 R516, R518, R553) -/

/-- MB_REQUEST: before READY it is held; in FAILED, and as the ninth in flight, it completes with NO_RESOURCE. -/
def execMbRequest (msg : Bytes) (s : State) : Host.Outcome State Fault Refusal :=
  if !portHears s then .next s
  else if !inSession s then .next (mgmtReply s vmMbRequest (statusCode .deniedRole) 0)
  else if isReady s then .next (postMgmt s msg)
  else if s.boot.stage = .failed ∨ 8 ≤ mgmtInFlight s then .next (endRequest s msg .noResource)
  else .next { s with mgmt := { s.mgmt with heldRequests := s.mgmt.heldRequests ++ [msg] } }

/-- The records that an acknowledgement takes out of the hold: all up to the one it names, if that has been sent. -/
def ackedRecords (s : State) (seq : Nat) : List HeldRecord :=
  match s.mgmt.held.findIdx? (fun h => h.seq == seq && h.sent) with
  | some i => s.mgmt.held.take (i + 1)
  | none => []

/-- EVENT_ACK: no response; a RECORD_SEQ that names no record sent and held is ignored. -/
def execEventAck (seq : Nat) (s : State) : Host.Outcome State Fault Refusal :=
  if !portHears s then .next s
  else if !inSession s then .next (mgmtReply s vmEventAck (statusCode .deniedRole) 0)
  else if !isReady s then .next s
  else
    let l := ackedRecords s seq
    let errs := (l.filterMap (·.err)).map (·.index)
    let here := errs.filter (fun i => s.err.ring.any (fun e => e.2.index == i))
    .next (mgmtSettle { s with
      mgmt := { s.mgmt with held := s.mgmt.held.drop l.length }
      err := { s.err with acked := s.err.acked ++ here } })

/-! ### MCTP control and PLDM sensors (18 R514, R519) -/

/-- Completion codes of MCTP and PLDM as their standards number them. -/
def mctpInvalidData := 2
def pldmInvalidSensor := 0x80

/-- SET_ENDPOINT_ID: open without a session; the null and the broadcast ID are refused. -/
def execSetEndpointId (eid : Nat) (s : State) : Host.Outcome State Fault Refusal :=
  if !portHears s then .next s
  else if eid = 0 ∨ 0xFF ≤ eid then .next (mgmtReply s vmMctp mctpInvalidData s.mgmt.eid)
  else .next (mgmtReply { s with mgmt := { s.mgmt with eid := eid } } vmMctp 0 eid)

/-- A reading of Table 18-9: power as the average of the last strum, temperatures and voltages as their sensors give. -/
def sensorReading (s : State) (id : Nat) : Option Nat :=
  if (1 ≤ id ∧ id ≤ 28) ∨ (40 ≤ id ∧ id ≤ 63) then some (Config.sensor s.fresh id) else heldReading s id

/-- PLDM_SENSOR_READ. -/
def execPldmSensorRead (id : Nat) (s : State) : Host.Outcome State Fault Refusal :=
  if !portHears s then .next s
  else if !inSession s then .next (mgmtReply s vmPldm pldmUnsupported 0)
  else
    match sensorReading s id with
    | none => .next (mgmtReply s vmPldm pldmInvalidSensor 0)
    | some v => .next (mgmtReply (takeFresh s).2 vmPldm pldmOk v)

/-- SGMII_LINK_CHANGE: with SGMII enabled by STRAP_MGMT_IF (16 Table 16-1). -/
def execSgmiiLinkChange (up : Bool) (s : State) : Host.Outcome State Fault Refusal :=
  .next (if mgmtReaches s && decide (s.boot.straps.mgmtIf < 2) then { s with mgmt := { s.mgmt with sgmiiUp := up } } else s)

/-! ### The module (20 R529–R533) -/

/-- The fibres of a lane: its port at the module edge and its positions to transmit and to receive (R530). -/
structure Fibre where
  engine : Nat
  port : Nat
  transmit : Nat
  receive : Nat
  deriving DecidableEq, Repr

/-- The fibres of a lane of a physical engine. -/
def fibreOfLane (engine lane : Nat) : Fibre := ⟨engine, lane / 4, lane % 4 + 1, lane % 4 + 9⟩

/-- The edge on which a physical engine's ports are: north for the upper quadrants, else south (R529). -/
def fibreNorth (engine : Nat) : Bool := engine < 6

/-- The letters of ball rows (R531). -/
def ballLetters : List Char :=
  ['A', 'B', 'C', 'D', 'E', 'F', 'G', 'H', 'J', 'K', 'L', 'M', 'N', 'P', 'T', 'U', 'V', 'W', 'Y']

/-- The name of ball row `n`, counted from the north as 0: one letter, then two. -/
def ballRow (n : Nat) : List Char :=
  if n < 19 then [ballLetters.getD n 'A'] else [ballLetters.getD (n / 19 - 1) 'A', ballLetters.getD (n % 19) 'A']

/-- Nominal value of a rail in mV and its tolerance in percent, by its sensor ID (Table 20-3). -/
def railSpec (rail : Nat) : Option (Nat × Nat) :=
  if 40 ≤ rail ∧ rail ≤ 43 then some (750, 3)
  else match rail with
    | 44 => some (850, 3) | 45 => some (750, 3) | 46 => some (750, 2) | 47 => some (750, 3) | 48 => some (1050, 3)
    | 49 => some (400, 3) | 50 => some (1800, 5) | 51 => some (800, 2) | 52 => some (1800, 3) | 53 => some (750, 3)
    | 54 => some (800, 2) | 55 => some (1800, 5) | _ => none

/-- A voltage in mV lies within a rail's tolerance. -/
def railInTolerance (rail mv : Nat) : Bool :=
  match railSpec rail with
  | some (v, t) => v * (100 - t) ≤ mv * 100 && mv * 100 ≤ v * (100 + t)
  | none => true

/-- The order in which the groups of rails rise (R534). -/
def railGroup (rail : Nat) : Nat :=
  if rail = 46 ∨ rail = 55 then 1
  else if (40 ≤ rail ∧ rail ≤ 45) ∨ rail = 47 ∨ rail = 54 then 2
  else if 48 ≤ rail ∧ rail ≤ 50 then 3
  else if 51 ≤ rail ∧ rail ≤ 53 then 4
  else 5

/-! ### Rails and temperatures (20 R535, R538) -/

/-- RAIL_FAULT: a rail of groups 1–4, by its sensor ID, stays outside its tolerance for 20 µs. -/
def execRailFault (rail : Nat) (s : State) : Host.Outcome State Fault Refusal :=
  .next (if 40 ≤ rail ∧ rail ≤ 55 ∧ !s.boot.coldResetLow then { s with boot := { s.boot with stopped := true, pwrFault := true } } else s)

/-- A sensor has reached its trip point. -/
def trips (sensor value : Nat) : Bool :=
  if 1 ≤ sensor ∧ sensor ≤ 4 then decide (920 ≤ value)
  else if 5 ≤ sensor ∧ sensor ≤ 16 then decide (95 ≤ value)
  else if 17 ≤ sensor ∧ sensor ≤ 28 then decide (720 ≤ value)
  else false

/-- THERMAL_TRIP: the hub stops as for a rail fault, and drives THERM_TRIP_N. -/
def execThermalTrip (sensor value : Nat) (s : State) : Host.Outcome State Fault Refusal :=
  .next (if trips sensor value ∧ !s.boot.coldResetLow then
           setSensor { s with boot := { s.boot with stopped := true, thermTrip := true } } sensor value
         else s)

/-- The logical site at a physical one. -/
def logicalSite (s : State) (site : Nat) : Option Nat := (List.range 8).find? (fun t => physSite s t == site)

/-- VDD_ATTIC_FAULT: the rail of a physical site leaves its range; a die that was heard is lost, and its reset is held. -/
def execVddAtticFault (site : Nat) (s : State) : Host.Outcome State Fault Refusal :=
  if 8 ≤ site then .next s
  else
    let s := { s with boot := { s.boot with atticRails := clearBit s.boot.atticRails site } }
    match logicalSite s site with
    | none => .next s
    | some t =>
      let s := { s with boot := { s.boot with atticResetLow := setBit s.boot.atticResetLow t } }
      .next (if !s.boot.stopped ∧ hearsDie s t then dieLost s t else s)

/-- VDD_ATTIC_GOOD: the rail of a physical site is in range; its bring-up begins, once the start has come to the sites. -/
def execVddAtticGood (site : Nat) (s : State) : Host.Outcome State Fault Refusal :=
  if 8 ≤ site then .next s
  else
    let s := { s with boot := { s.boot with atticRails := setBit s.boot.atticRails site } }
    match logicalSite s site with
    | none => .next s
    | some t =>
      .next (if isReady s ∧ ((siteOf s t).astate = .absent ∨ (siteOf s t).astate = .down) then beginBringUp s t false else s)

end Sys2Proof.Machine
end

