-- ==== Sys2Proof/Machine/Sram.lean ====
section
/-! DEFINITION. Errors of the SRAM structures and the patrol scrub (spec 17 R472, R475, R485–R487). -/
namespace Sys2Proof.Machine

/-! ### Uncorrectable errors (17 R475, Tables 17-1 and 17-2) -/

/-- The record of an uncorrectable SRAM error whose data become poison. -/
def recordSram (s : State) (c cls idx addr : Nat) : State :=
  logErr s { severity := .poisonWritten, unitClass := cls, unitIndex := idx, code := ecUeSram
             partition := errPartition (cellarOwner s c), address := addr, cellarEpoch := (cellarOf s c).epoch }

/-- The sectors that a masked set of bytes touches, among the failing ones. -/
def failingDirty (l : CacheLine) (sectors : Nat) : Nat := Nat.land (sectorsOf l.dirty) sectors

/-- A core's cached line fails: a clean one is dropped and the error counts in its bucket only; a dirty one leaves with the
failing sectors as poison. -/
def coreLineFails (s : State) (k key sectors : Nat) : State :=
  match tfind (coreOf s k).lines key with
  | none => s
  | some l =>
    let s := modCore s k (fun c => { c with lines := tdel c.lines key })
    if failingDirty l sectors = 0 then
      countCorrected (cellarStore s (k / 64) l.line (dirtyBytes l) l.poison l.stream true) .coreStoreWay k (key / 128)
    else
      let s := cellarStore s (k / 64) l.line (dirtyBytes l) (Nat.lor l.poison (failingDirty l sectors)) l.stream true
      let s := recordSram s (k / 64) ucCoreStore k (l.line * 128)
      coreReset s k none

/-- A cellar's cached line fails, in the same way. -/
def cellarLineFails (s : State) (c key sectors : Nat) : State :=
  match tfind (cellarOf s c).lines key with
  | none => s
  | some l =>
    let s := modCellar s c (fun x => { x with lines := tdel x.lines key })
    let pz := Nat.lor l.poison (failingDirty l sectors)
    let s := (writeHome s c l.line (dirtyBytes l) pz .none).1
    if failingDirty l sectors = 0 then countCorrected s .cellarWay c (key / 256) else recordSram s c ucCellarBuffer c (l.line * 128)

/-- A line whose tag or state fails: a clean one is dropped; one that may be dirty is written to home whole, as poison. -/
def tagFails (s : State) (c cls idx : Nat) (l : CacheLine) : State :=
  if l.dirty = 0 then s
  else
    let s := (writeHome s c l.line ((List.range 128).map (fun i => (i, 0))) 15 .none).1
    recordSram s c cls idx (l.line * 128)

/-- The home of a failing directory entry recalls the line from every caching site of its quadrant, and frees the entry
with their answers. -/
def directoryFails (s : State) (q line : Nat) : State :=
  match tfind s.attic.dir line with
  | none => s
  | some _ =>
    if (tfind s.attic.snoops line).isSome then s
    else
      let sites := (List.range 8).filter (fun t => t / 2 == q && (siteOf s t).astate == .up && (siteOf s t).cap.caching)
      if sites.isEmpty then { s with attic := { s.attic with dir := tdel s.attic.dir line } }
      else
        -- what the entry held is not known: every site of the list is taken to hold the whole line
        let e : DirEntry := { sharers := maskOf sites, halves := 0xFFFF, order := s.attic.dirOrder }
        startSnoop { s with attic := { s.attic with dir := tset s.attic.dir line e } } line sites true none

/-- An uncorrectable error of an SRAM structure. -/
def sramFails (s : State) (u : SramUnit) : State :=
  match u with
  | .coreControl k =>
    if !coreUp s k then s
    else coreReset s k (some {
      severity := .unitLost, unitClass := ucCore, unitIndex := k, code := ecUeSram
      partition := errPartition (cellarOwner s (k / 64)), cellarEpoch := (cellarOf s (k / 64)).epoch })
  | .coreLine k way set sectors => coreLineFails s k (way * 128 + set) sectors
  | .coreTag k way set =>
    match tfind (coreOf s k).lines (way * 128 + set) with
    | none => s
    | some l => tagFails (modCore s k (fun c => { c with lines := tdel c.lines (way * 128 + set) })) (k / 64) ucCoreStore k l
  | .coreScratch k off =>
    if !coreUp s k ∨ (coreOf s k).scratchUnits * 0x10000 ≤ off then s
    else
      let s := modCore s k (fun c => { c with
        scratchPoison := if c.scratchPoison.contains (off / 32) then c.scratchPoison else off / 32 :: c.scratchPoison })
      coreReset (recordSram s (k / 64) ucCoreStore k (coreBase + k * coreStride + off)) k none
  | .cellarLine c bank way set sectors => cellarLineFails s c ((bank * 16 + way) * 256 + set) sectors
  | .cellarTag c bank way set =>
    let key := (bank * 16 + way) * 256 + set
    match tfind (cellarOf s c).lines key with
    | none => s
    | some l => tagFails (modCellar s c (fun x => { x with lines := tdel x.lines key })) c ucCellarBuffer c l
  | .cellarScratch c off =>
    let a := scratchBase + c * scratchStride + off
    if !cellarUp s c ∨ (cellarOf s c).scratchBanks * 0x80000 ≤ off ∨ poisonedUnit s (a / 32) then s
    else recordSram (setPoison s (a / 32) 1 true) c ucCellarBuffer c a
  | .cellarControl c =>
    if !cellarUp s c then s
    else cellarReset s c (some {
      severity := .unitLost, unitClass := ucCellar, unitIndex := c, code := ecUeSram, partition := errPartition (cellarOwner s c)
      cellarEpoch := (cellarOf s c).epoch })
  | .directory q line => directoryFails s q line
  | .nocHeader n => modTxn s n (fun t => if t.phase = .issued then { t with lost := true } else t)
  | .nocData n q => modTxn s n (fun t =>
      if t.phase = .done then { t with resultPoison := setBit t.resultPoison (q % 4) }
      else if t.kind = .write then { t with poison := setBit t.poison (q % 4) } else t)

/-- SRAM_UNCORRECTABLE. -/
def execSramUncorrectable (u : SramUnit) (s : State) : Host.Outcome State Fault Refusal := .next (sramFails s u)

/-! ### Patrol scrub (17 R485–R487) -/

/-- The SCRUB_STATUS structure that a scrub read belongs to: 0 shelves, 1 far tier, 2 cellar buffers, 3 core and instruction
stores, 4 control structures. -/
def scrubStructure : ScrubAt → Nat
  | .memory a => if a < farBase then 0 else 1
  | .sram (.cellarLine _ _ _ _ _) => 2
  | .sram (.cellarScratch _ _) => 2
  | .sram (.coreLine _ _ _ _) => 3
  | .sram (.coreScratch _ _) => 3
  | .sram (.coreControl _) => 3
  | .sram _ => 4

/-- A corrected error in an SRAM structure counts in its bucket (Table 17-4); a clean cached line is dropped. -/
def sramCorrected (s : State) (u : SramUnit) : State :=
  match u with
  | .coreControl k => countCorrected s .coreSram k 0
  | .coreLine k way set _ =>
    let s := match tfind (coreOf s k).lines (way * 128 + set) with
      | some l => if l.dirty = 0 then modCore s k (fun c => { c with lines := tdel c.lines (way * 128 + set) }) else s
      | none => s
    countCorrected s .coreStoreWay k way
  | .coreTag k _ _ => countCorrected s .cellarControl (k / 64) 0
  | .coreScratch k off => countCorrected s .coreStoreWay k (off / 0x4000)
  | .cellarLine c bank way set _ =>
    let key := (bank * 16 + way) * 256 + set
    let s := match tfind (cellarOf s c).lines key with
      | some l => if l.dirty = 0 then modCellar s c (fun x => { x with lines := tdel x.lines key }) else s
      | none => s
    countCorrected s .cellarWay c (bank * 16 + way)
  | .cellarTag c _ _ _ => countCorrected s .cellarControl c 0
  | .cellarScratch c off =>
    countCorrected s .cellarWay c (nth (liveBanks (cellarOf s c)) (off / 0x80000) 0 * 16 + off % 0x80000 / 0x8000)
  | .cellarControl c => countCorrected s .cellarControl c 0
  | .directory q _ => countCorrected s .directory q 0
  | _ => s

/-- A pass or a segment of it ends: the escalation ends when the pass is on schedule again. -/
def endSegment (s : State) (k : Nat) : State :=
  modScrub s k (fun x =>
    if x.segment = 63 then
      { x with segment := 0, escalated := false, late := false, raised := false, passes := satInc 24 x.passes, passStart := s.time.now }
    else
      let next := x.segment + 1
      { x with segment := next
               escalated := x.escalated && decide (x.passStart + (next + 1) * scrubPeriod k / 64 ≤ s.time.now) })

/-- A scrub read must wait: outside fret 63 the power manager pauses it from level 1 on (18 Table 18-5); a location of memory
also waits for its channel or bank, for foreground traffic of its queue outside its own fret (02 R31), and for its port. -/
def scrubWaits (s : State) (at_ : ScrubAt) : Bool :=
  (1 ≤ s.pwr.level && s.time.fret != 63)
    || (match at_ with
        | .memory a => rangeHeld s (a / 64 * 64) 64 || (!backgroundFirst s && foregroundAt s (destOf s a)) || !portPasses s 88 2
        | _ => false)

/-- The location of a scrub read is skipped: it carries poison already, or nothing stores it. -/
def scrubSkips (s : State) (at_ : ScrubAt) : Bool :=
  match at_ with | .memory a => poisonedUnit s (a / 64 * 2) || (storedAt s a).isNone | _ => false

/-- What a scrub read finds. -/
def scrubFinds (s : State) (at_ : ScrubAt) (ecc : Ecc) : State :=
  let k := scrubStructure at_
  let s := if ecc = .corrected then modScrub s k (fun x => { x with corrected := satInc 32 x.corrected }) else s
  match at_, ecc with
  | .memory a, e => readSector s a e
  | .sram _, .good => s
  | .sram u, .corrected => sramCorrected s u
  | .sram u, _ => sramFails s u

/-- SCRUB_READ: one sector or line is read, checked and corrected.  A location that must wait is read later; a poisoned sector
is skipped. -/
def execScrubRead (at_ : ScrubAt) (ecc : Ecc) (endsSegment : Bool) (s : State) : Host.Outcome State Fault Refusal :=
  if scrubWaits s at_ || !isReady s then .next s
  else
    let s := notePort s 88
    let s := if scrubSkips s at_ then s else scrubFinds s at_ ecc
    .next (if endsSegment then endSegment s (scrubStructure at_) else s)

/-- SCRUB_SEGMENT_DUE: the segment in progress has missed its due time; a pass that misses its end claims fret 63 again
(02 R33). -/
def execScrubSegmentDue (structure_ : Nat) (s : State) : Host.Outcome State Fault Refusal :=
  if 5 ≤ structure_ ∨ !isReady s then .next s
  else
    let x := scrubOf s structure_
    let s := modScrub s structure_ (fun x => { x with escalated := true, raised := true })
    let s := if x.segment = 63 ∨ x.passStart + scrubPeriod structure_ ≤ s.time.now then scrubMissed s structure_ else s
    .next (if x.raised then s
      else
        let src := source ucScrub structure_
        raiseMgmt (raiseTo s 0 .scrubEscalated src (fun _ => 0)) 0 .scrubEscalated src (fun _ => 0))

end Sys2Proof.Machine
end

