-- ==== Sys2Proof/Machine/Strum.lean ====
section
/-! DEFINITION. The commands STRUM_BOUNDARY and FRET_EDGE (spec 02 R24, R27, Table 2-3). -/
namespace Sys2Proof.Machine

/-- STRUM_BOUNDARY: before READY, and while the clocks are stopped, no strum runs (16 Table 16-2 step 13). -/
def execStrumBoundary (s : State) : Host.Outcome State Fault Refusal :=
  if s.boot.stopped ∨ s.boot.coldResetLow ∨ s.boot.stage ≠ .ready then .next s
  else
    -- the last fret of the strum ends here
    let s := if 0 < s.time.strumCount then meterFret s else s
    let s := passLinks s (nextBoundary s.time) (nextBoundary s.time - s.time.now)
    match timeBoundary (scrubDeadlines s) with
    | (s, false) => .next s
    | (s, true) => .next (ptpSyncs (runBoundary s))

/-- FRET_EDGE: fret f + 1 begins. -/
def execFretEdge (s : State) : Host.Outcome State Fault Refusal :=
  if s.boot.stopped ∨ s.boot.coldResetLow ∨ s.boot.stage ≠ .ready then .next s
  else
    match nextFretEdge s.time with
    | none => .next s
    | some t =>
      let f := s.time.fret + 1
      let d := t - s.time.now
      let s := passLinks { s with time := { s.time with now := max t s.time.now % 2 ^ 64, fret := f } } (max t s.time.now) d
      let s := heldCycles (powerFret s f)
      let s := if f = 1 then planDispatch s else routeFret s
      .next (retryParts (fretTransfers s f))

end Sys2Proof.Machine
end

