-- ==== Sys2Proof/Machine/Dispatch.lean ====
section
/-! DEFINITION. One arm per command. -/
namespace Sys2Proof.Machine

def exec (i : Instr) (s : State) : Host.Outcome State Fault Refusal :=
  match i with
  | .doorbellPost m => Sys2Proof.Machine.execDoorbellPost m s
  | .doorbellAbort m => Sys2Proof.Machine.execDoorbellAbort m s
  | .doorbellRelease m => Sys2Proof.Machine.execDoorbellRelease m s
  | .doorbellIgnoredAction m action => Sys2Proof.Machine.execDoorbellIgnoredAction m action s
  | .cpTakeMailbox inp => Sys2Proof.Machine.execCpTakeMailbox inp s
  | .hello c => Sys2Proof.Machine.execHello c s
  | .eqCreate c => Sys2Proof.Machine.execEqCreate c s
  | .eqDestroy c => Sys2Proof.Machine.execEqDestroy c s
  | .eqDestroyDrained seq => Sys2Proof.Machine.execEqDestroyDrained seq s
  | .partitionCreate c => Sys2Proof.Machine.execPartitionCreate c s
  | .partitionTransitionDone p => Sys2Proof.Machine.execPartitionTransitionDone p s
  | .partitionDestroy c => Sys2Proof.Machine.execPartitionDestroy c s
  | .partitionDestroyDone p => Sys2Proof.Machine.execPartitionDestroyDone p s
  | .partitionReset c => Sys2Proof.Machine.execPartitionReset c s
  | .partitionQuery c wb => Sys2Proof.Machine.execPartitionQuery c wb s
  | .partitionPolicySet c => Sys2Proof.Machine.execPartitionPolicySet c s
  | .imageLoad c inp => Sys2Proof.Machine.execImageLoad c inp s
  | .imageChunkBitmap image core bitmap => Sys2Proof.Machine.execImageChunkBitmap image core bitmap s
  | .coreDigestCheckDone image core ok => Sys2Proof.Machine.execCoreDigestCheckDone image core ok s
  | .modelBind c => Sys2Proof.Machine.execModelBind c s
  | .modelBindSeDone seq r => Sys2Proof.Machine.execModelBindSeDone seq r s
  | .modelUnbind c => Sys2Proof.Machine.execModelUnbind c s
  | .seqOpen c => Sys2Proof.Machine.execSeqOpen c s
  | .seqClose c => Sys2Proof.Machine.execSeqClose c s
  | .seqCloseComplete entry => Sys2Proof.Machine.execSeqCloseComplete entry s
  | .stepSubmit c => Sys2Proof.Machine.execStepSubmit c s
  | .mapHost c => Sys2Proof.Machine.execMapHost c s
  | .unmapHost c => Sys2Proof.Machine.execUnmapHost c s
  | .unmapHostDrained seq => Sys2Proof.Machine.execUnmapHostDrained seq s
  | .faultRespond c => Sys2Proof.Machine.execFaultRespond c s
  | .peerWindowSet c => Sys2Proof.Machine.execPeerWindowSet c s
  | .peerWindowClear c => Sys2Proof.Machine.execPeerWindowClear c s
  | .peerWindowClearDrained seq => Sys2Proof.Machine.execPeerWindowClearDrained seq s
  | .peerAdmitSet c => Sys2Proof.Machine.execPeerAdmitSet c s
  | .linkQuery c => Sys2Proof.Machine.execLinkQuery c s
  | .linkRetrain c => Sys2Proof.Machine.execLinkRetrain c s
  | .linkModeSet c => Sys2Proof.Machine.execLinkModeSet c s
  | .qosSet c => Sys2Proof.Machine.execQosSet c s
  | .timeQuery c => Sys2Proof.Machine.execTimeQuery c s
  | .timePeriodSet c => Sys2Proof.Machine.execTimePeriodSet c s
  | .timeRoleSet c => Sys2Proof.Machine.execTimeRoleSet c s
  | .timeBackgroundSet c => Sys2Proof.Machine.execTimeBackgroundSet c s
  | .powerQuery c => Sys2Proof.Machine.execPowerQuery c s
  | .powerCapSet c => Sys2Proof.Machine.execPowerCapSet c s
  | .powerDomainSet c => Sys2Proof.Machine.execPowerDomainSet c s
  | .attest c ok wb => Sys2Proof.Machine.execAttest c ok wb s
  | .fwStage c image => Sys2Proof.Machine.execFwStage c image s
  | .fwActivate c => Sys2Proof.Machine.execFwActivate c s
  | .fwActivateSwitch => Sys2Proof.Machine.execFwActivateSwitch s
  | .eqConsumerWrite q index arm => Sys2Proof.Machine.execEqConsumerWrite q index arm s
  | .msixTableWrite v word value => Sys2Proof.Machine.execMsixTableWrite v word value s
  | .shelfRepairSoft shelf row => Sys2Proof.Machine.execShelfRepairSoft shelf row s
  | .softRepairDone shelf bad => Sys2Proof.Machine.execSoftRepairDone shelf bad s
  | .shelfRepairHard shelf row => Sys2Proof.Machine.execShelfRepairHard shelf row s
  | .shelfRepairCancelHard shelf row => Sys2Proof.Machine.execShelfRepairCancelHard shelf row s
  | .lcVariant sigOk => Sys2Proof.Machine.execLcVariant sigOk s
  | .lcLifecycle sigOk => Sys2Proof.Machine.execLcLifecycle sigOk s
  | .lcAntiRollback sigOk => Sys2Proof.Machine.execLcAntiRollback sigOk s
  | .lcAtticRepairMap sigOk => Sys2Proof.Machine.execLcAtticRepairMap sigOk s
  | .lcAtticProfile sigOk => Sys2Proof.Machine.execLcAtticProfile sigOk s
  | .pwrCmpWrite k value => Sys2Proof.Machine.execPwrCmpWrite k value s
  | .registerWrite addr size value => Sys2Proof.Machine.execRegisterWrite addr size value s
  | .bar2Access kind addr data => Sys2Proof.Machine.execBar2Access kind addr data s
  | .mbRequest msg => Sys2Proof.Machine.execMbRequest msg s
  | .eventAck seq => Sys2Proof.Machine.execEventAck seq s
  | .regRead addr size => Sys2Proof.Machine.execRegRead addr size s
  | .regWrite addr size value => Sys2Proof.Machine.execRegWrite addr size value s
  | .deviceReset inp => Sys2Proof.Machine.execDeviceReset inp s
  | .getVersion m => Sys2Proof.Machine.execGetVersion m s
  | .getCapabilities m => Sys2Proof.Machine.execGetCapabilities m s
  | .negotiateAlgorithms m => Sys2Proof.Machine.execNegotiateAlgorithms m s
  | .getDigests m => Sys2Proof.Machine.execGetDigests m s
  | .getCertificate m => Sys2Proof.Machine.execGetCertificate m s
  | .challenge m => Sys2Proof.Machine.execChallenge m s
  | .getMeasurements m => Sys2Proof.Machine.execGetMeasurements m s
  | .keyExchange m => Sys2Proof.Machine.execKeyExchange m s
  | .finish m => Sys2Proof.Machine.execFinish m s
  | .spdmKeyUpdate m => Sys2Proof.Machine.execSpdmKeyUpdate m s
  | .spdmHeartbeat m => Sys2Proof.Machine.execSpdmHeartbeat m s
  | .endSession m => Sys2Proof.Machine.execEndSession m s
  | .setEndpointId eid => Sys2Proof.Machine.execSetEndpointId eid s
  | .pldmSensorRead id => Sys2Proof.Machine.execPldmSensorRead id s
  | .updateComponent image => Sys2Proof.Machine.execUpdateComponent image s
  | .activateFirmware => Sys2Proof.Machine.execActivateFirmware s
  | .nop insn => Sys2Proof.Machine.execNop insn s
  | .bra insn offset => Sys2Proof.Machine.execBra insn offset s
  | .brx insn sa offset table => Sys2Proof.Machine.execBrx insn sa offset table s
  | .split insn slot => Sys2Proof.Machine.execSplit insn slot s
  | .join insn slot => Sys2Proof.Machine.execJoin insn slot s
  | .exit insn => Sys2Proof.Machine.execExit insn s
  | .yield insn => Sys2Proof.Machine.execYield insn s
  | .shflIdx insn f dst sa sb sc => Sys2Proof.Machine.execShflIdx insn f dst sa sb sc s
  | .shflUp insn f dst sa sb sc => Sys2Proof.Machine.execShflUp insn f dst sa sb sc s
  | .shflDown insn f dst sa sb sc => Sys2Proof.Machine.execShflDown insn f dst sa sb sc s
  | .shflXor insn f dst sa sb sc => Sys2Proof.Machine.execShflXor insn f dst sa sb sc s
  | .voteAll insn dst pin inv sc => Sys2Proof.Machine.execVoteAll insn dst pin inv sc s
  | .voteAny insn dst pin inv sc => Sys2Proof.Machine.execVoteAny insn dst pin inv sc s
  | .voteBallot insn dst pin inv sc => Sys2Proof.Machine.execVoteBallot insn dst pin inv sc s
  | .match32 insn dst sa sc => Sys2Proof.Machine.execMatch32 insn dst sa sc s
  | .match64 insn dst sa sc => Sys2Proof.Machine.execMatch64 insn dst sa sc s
  | .atomAdd insn f dst sa sb => Sys2Proof.Machine.execAtomAdd insn f dst sa sb s
  | .atomMin insn f dst sa sb => Sys2Proof.Machine.execAtomMin insn f dst sa sb s
  | .atomMax insn f dst sa sb => Sys2Proof.Machine.execAtomMax insn f dst sa sb s
  | .atomAnd insn f dst sa sb => Sys2Proof.Machine.execAtomAnd insn f dst sa sb s
  | .atomOr insn f dst sa sb => Sys2Proof.Machine.execAtomOr insn f dst sa sb s
  | .atomXor insn f dst sa sb => Sys2Proof.Machine.execAtomXor insn f dst sa sb s
  | .atomExch insn f dst sa sb => Sys2Proof.Machine.execAtomExch insn f dst sa sb s
  | .atomCas insn f dst sa sb sc => Sys2Proof.Machine.execAtomCas insn f dst sa sb sc s
  | .atomInc insn f dst sa sb => Sys2Proof.Machine.execAtomInc insn f dst sa sb s
  | .pegArrive insn f dst sa sb => Sys2Proof.Machine.execPegArrive insn f dst sa sb s
  | .pegWait insn f sa sb => Sys2Proof.Machine.execPegWait insn f sa sb s
  | .pegSignal insn f dst sa sb => Sys2Proof.Machine.execPegSignal insn f dst sa sb s
  | .pegReset insn f sa => Sys2Proof.Machine.execPegReset insn f sa s
  | .pegRead insn f dst sa => Sys2Proof.Machine.execPegRead insn f dst sa s
  | .fence insn scope order => Sys2Proof.Machine.execFence insn scope order s
  | .releaseWritebackAcked core release => Sys2Proof.Machine.execReleaseWritebackAcked core release s
  | .mregionBegin insn sc endOffset => Sys2Proof.Machine.execMregionBegin insn sc endOffset s
  | .mregionEnd insn => Sys2Proof.Machine.execMregionEnd insn s
  | .mzero insn => Sys2Proof.Machine.execMzero insn s
  | .anchor insn sa auto => Sys2Proof.Machine.execAnchor insn sa auto s
  | .mma insn f sa sb sc => Sys2Proof.Machine.execMma insn f sa sb sc s
  | .mexport insn fmt stochastic sa => Sys2Proof.Machine.execMexport insn fmt stochastic sa s
  | .mexportWide insn sa => Sys2Proof.Machine.execMexportWide insn sa s
  | .intOp insn f wide dst sa sb sc => Sys2Proof.Machine.execIntOp insn f wide dst sa sb sc s
  | .fpOp insn f dst sa sb sc => Sys2Proof.Machine.execFpOp insn f dst sa sb sc s
  | .cvt insn src dst rd ra se de => Sys2Proof.Machine.execCvt insn src dst rd ra se de s
  | .ld insn f dst sa => Sys2Proof.Machine.execLd insn f dst sa s
  | .st insn f sa sb => Sys2Proof.Machine.execSt insn f sa sb s
  | .mov insn dst src => Sys2Proof.Machine.execMov insn dst src s
  | .specialRead insn dst sr => Sys2Proof.Machine.execSpecialRead insn dst sr s
  | .loadDataReturn core load => Sys2Proof.Machine.execLoadDataReturn core load s
  | .cacheFillArrival at_ => Sys2Proof.Machine.execCacheFillArrival at_ s
  | .trackerIdleTimeout cellar tracker => Sys2Proof.Machine.execTrackerIdleTimeout cellar tracker s
  | .strumBoundary => Sys2Proof.Machine.execStrumBoundary s
  | .fretEdge => Sys2Proof.Machine.execFretEdge s
  | .preemptSaveDone core => Sys2Proof.Machine.execPreemptSaveDone core s
  | .stepComplete slot => Sys2Proof.Machine.execStepComplete slot s
  | .pageMoveLand src => Sys2Proof.Machine.execPageMoveLand src s
  | .pageZeroingDone page => Sys2Proof.Machine.execPageZeroingDone page s
  | .copy cellar job host => Sys2Proof.Machine.execCopy cellar job host s
  | .fill cellar job => Sys2Proof.Machine.execFill cellar job s
  | .compress cellar job host => Sys2Proof.Machine.execCompress cellar job host s
  | .decompress cellar job host => Sys2Proof.Machine.execDecompress cellar job host s
  | .gather cellar job host => Sys2Proof.Machine.execGather cellar job host s
  | .clean cellar job => Sys2Proof.Machine.execClean cellar job s
  | .inval cellar job => Sys2Proof.Machine.execInval cellar job s
  | .cleanInval cellar job => Sys2Proof.Machine.execCleanInval cellar job s
  | .wayLock cellar job => Sys2Proof.Machine.execWayLock cellar job s
  | .wayUnlock cellar job => Sys2Proof.Machine.execWayUnlock cellar job s
  | .put cellar job host => Sys2Proof.Machine.execPut cellar job host s
  | .get cellar job => Sys2Proof.Machine.execGet cellar job s
  | .signal cellar job => Sys2Proof.Machine.execSignal cellar job s
  | .allreduce cellar job => Sys2Proof.Machine.execAllreduce cellar job s
  | .alltoall cellar job => Sys2Proof.Machine.execAlltoall cellar job s
  | .moverDescriptorDone cellar job => Sys2Proof.Machine.execMoverDescriptorDone cellar job s
  | .collectiveTimeout id => Sys2Proof.Machine.execCollectiveTimeout id s
  | .routeDispatched slot part => Sys2Proof.Machine.execRouteDispatched slot part s
  | .combine slot part => Sys2Proof.Machine.execCombine slot part s
  | .shelfAccess txn lo hi => Sys2Proof.Machine.execShelfAccess txn lo hi s
  | .farTierAccess txn lo hi => Sys2Proof.Machine.execFarTierAccess txn lo hi s
  | .wcbAgeFlush home line lo hi => Sys2Proof.Machine.execWcbAgeFlush home line lo hi s
  | .farDeviceFailed port device => Sys2Proof.Machine.execFarDeviceFailed port device s
  | .shelfChannelRetrain shelf channel => Sys2Proof.Machine.execShelfChannelRetrain shelf channel s
  | .shelfChannelRetrained shelf channel ok => Sys2Proof.Machine.execShelfChannelRetrained shelf channel ok s
  | .masterPortIssue master => Sys2Proof.Machine.execMasterPortIssue master s
  | .transactionCompletionReturn txn => Sys2Proof.Machine.execTransactionCompletionReturn txn s
  | .guaranteeMiss txn atShelf cycles => Sys2Proof.Machine.execGuaranteeMiss txn atShelf cycles s
  | .walkEntryRead walk r => Sys2Proof.Machine.execWalkEntryRead walk r s
  | .adUpdateCasReturn walk ok => Sys2Proof.Machine.execAdUpdateCasReturn walk ok s
  | .faultTimeout entry => Sys2Proof.Machine.execFaultTimeout entry s
  | .unmapFlushReadDone use => Sys2Proof.Machine.execUnmapFlushReadDone use s
  | .eqCoalesceTimer q => Sys2Proof.Machine.execEqCoalesceTimer q s
  | .eqRecordWrite q ok => Sys2Proof.Machine.execEqRecordWrite q ok s
  | .rdShared site m => Sys2Proof.Machine.execRdShared site m s
  | .rdOwn site m => Sys2Proof.Machine.execRdOwn site m s
  | .rdNc site m host => Sys2Proof.Machine.execRdNc site m host s
  | .wrNc site m => Sys2Proof.Machine.execWrNc site m s
  | .wbDirty site m => Sys2Proof.Machine.execWbDirty site m s
  | .evictClean site m => Sys2Proof.Machine.execEvictClean site m s
  | .atpAtomic site m => Sys2Proof.Machine.execAtpAtomic site m s
  | .pegOp site m => Sys2Proof.Machine.execPegOp site m s
  | .atpStepDone site m => Sys2Proof.Machine.execAtpStepDone site m s
  | .stepSaved site m => Sys2Proof.Machine.execStepSaved site m s
  | .powerReport site value => Sys2Proof.Machine.execPowerReport site value s
  | .urgency site m => Sys2Proof.Machine.execUrgency site m s
  | .snpRsp site m => Sys2Proof.Machine.execSnpRsp site m s
  | .atpRsp site m => Sys2Proof.Machine.execAtpRsp site m s
  | .dieCap site cap test => Sys2Proof.Machine.execDieCap site cap test s
  | .laneMap site m test => Sys2Proof.Machine.execLaneMap site m test s
  | .heartbeat site epoch => Sys2Proof.Machine.execHeartbeat site epoch s
  | .resetReq site => Sys2Proof.Machine.execResetReq site s
  | .atticSidebandTimeout site => Sys2Proof.Machine.execAtticSidebandTimeout site s
  | .atticLinkDown site linkB => Sys2Proof.Machine.execAtticLinkDown site linkB s
  | .dieHeartbeatTimeout site => Sys2Proof.Machine.execDieHeartbeatTimeout site s
  | .dieCreditTimeout site => Sys2Proof.Machine.execDieCreditTimeout site s
  | .dieSnoopTimeout site => Sys2Proof.Machine.execDieSnoopTimeout site s
  | .dieStepTimeout site slot => Sys2Proof.Machine.execDieStepTimeout site slot s
  | .markerReceived engine m => Sys2Proof.Machine.execMarkerReceived engine m s
  | .laneLoss engine lane reason => Sys2Proof.Machine.execLaneLoss engine lane reason s
  | .trainingTimeout engine => Sys2Proof.Machine.execTrainingTimeout engine s
  | .ethPortLaneLoss engine lane => Sys2Proof.Machine.execEthPortLaneLoss engine lane s
  | .timeWordTimeout engine => Sys2Proof.Machine.execTimeWordTimeout engine s
  | .holdoverTimeout => Sys2Proof.Machine.execHoldoverTimeout s
  | .ptpMessage engine m domain => Sys2Proof.Machine.execPtpMessage engine m domain s
  | .flit engine f => Sys2Proof.Machine.execFlit engine f s
  | .replayTimeout engine => Sys2Proof.Machine.execReplayTimeout engine s
  | .flitKeepalive engine => Sys2Proof.Machine.execFlitKeepalive engine s
  | .llCap engine c => Sys2Proof.Machine.execLlCap engine c s
  | .keyHello engine node v => Sys2Proof.Machine.execKeyHello engine node v s
  | .keyFinish engine v => Sys2Proof.Machine.execKeyFinish engine v s
  | .keyUpdate engine count => Sys2Proof.Machine.execKeyUpdate engine count s
  | .keyUpdateTrigger engine => Sys2Proof.Machine.execKeyUpdateTrigger engine s
  | .routeAdv engine nodes => Sys2Proof.Machine.execRouteAdv engine nodes s
  | .routeAgeOut engine node => Sys2Proof.Machine.execRouteAgeOut engine node s
  | .forward engine p => Sys2Proof.Machine.execForward engine p s
  | .chordWrite engine p => Sys2Proof.Machine.execChordWrite engine p s
  | .readReq engine p => Sys2Proof.Machine.execReadReq engine p s
  | .readRsp engine p => Sys2Proof.Machine.execReadRsp engine p s
  | .chordAtomic engine p => Sys2Proof.Machine.execChordAtomic engine p s
  | .atomicRsp engine p => Sys2Proof.Machine.execAtomicRsp engine p s
  | .chordPeg engine p => Sys2Proof.Machine.execChordPeg engine p s
  | .done engine p => Sys2Proof.Machine.execDone engine p s
  | .step engine p => Sys2Proof.Machine.execStep engine p s
  | .stepCancel engine p => Sys2Proof.Machine.execStepCancel engine p s
  | .stepDone engine p => Sys2Proof.Machine.execStepDone engine p s
  | .coll engine p => Sys2Proof.Machine.execColl engine p s
  | .ack engine p a => Sys2Proof.Machine.execAck engine p a s
  | .nack engine p => Sys2Proof.Machine.execNack engine p s
  | .ackTimer peer => Sys2Proof.Machine.execAckTimer peer s
  | .retransmissionTimeout peer psn => Sys2Proof.Machine.execRetransmissionTimeout peer psn s
  | .busyBackoffExpiry peer msg => Sys2Proof.Machine.execBusyBackoffExpiry peer msg s
  | .peerUnreachable peer => Sys2Proof.Machine.execPeerUnreachable peer s
  | .unreachableEnd peer => Sys2Proof.Machine.execUnreachableEnd peer s
  | .init engine ipv6 remoteId v => Sys2Proof.Machine.execInit engine ipv6 remoteId v s
  | .resp engine assoc remoteId v => Sys2Proof.Machine.execResp engine assoc remoteId v s
  | .confirm engine assoc v => Sys2Proof.Machine.execConfirm engine assoc v s
  | .handshakeRetry assoc => Sys2Proof.Machine.execHandshakeRetry assoc s
  | .associationRenewal assoc => Sys2Proof.Machine.execAssociationRenewal assoc s
  | .neighbourSolicitation engine port target => Sys2Proof.Machine.execNeighbourSolicitation engine port target s
  | .echoRequest engine port target => Sys2Proof.Machine.execEchoRequest engine port target s
  | .coldReset inp => Sys2Proof.Machine.execColdReset inp s
  | .hostLinkTimeout => Sys2Proof.Machine.execHostLinkTimeout s
  | .farZeroingDone port decoder => Sys2Proof.Machine.execFarZeroingDone port decoder s
  | .hostPerst inp => Sys2Proof.Machine.execHostPerst inp s
  | .functionLevelReset inp => Sys2Proof.Machine.execFunctionLevelReset inp s
  | .cpWatchdog inp => Sys2Proof.Machine.execCpWatchdog inp s
  | .coreHang core => Sys2Proof.Machine.execCoreHang core s
  | .sramUncorrectable u => Sys2Proof.Machine.execSramUncorrectable u s
  | .retestDone cellar core ok => Sys2Proof.Machine.execRetestDone cellar core ok s
  | .leakyBucketLeak kind unit sub => Sys2Proof.Machine.execLeakyBucketLeak kind unit sub s
  | .scrubRead at_ ecc endsSegment => Sys2Proof.Machine.execScrubRead at_ ecc endsSegment s
  | .scrubSegmentDue structure_ => Sys2Proof.Machine.execScrubSegmentDue structure_ s
  | .powerDomainEntryDone d => Sys2Proof.Machine.execPowerDomainEntryDone d s
  | .powerDomainOn d ok => Sys2Proof.Machine.execPowerDomainOn d ok s
  | .shelfZeroingDone shelf => Sys2Proof.Machine.execShelfZeroingDone shelf s
  | .cpIdleTimeout => Sys2Proof.Machine.execCpIdleTimeout s
  | .smbusAddressMatch => Sys2Proof.Machine.execSmbusAddressMatch s
  | .i3cAddressMatch => Sys2Proof.Machine.execI3cAddressMatch s
  | .comparatorAssert k value => Sys2Proof.Machine.execComparatorAssert k value s
  | .railFault rail => Sys2Proof.Machine.execRailFault rail s
  | .vddAtticFault site => Sys2Proof.Machine.execVddAtticFault site s
  | .thermalTrip sensor value => Sys2Proof.Machine.execThermalTrip sensor value s
  | .coldResetAssert => Sys2Proof.Machine.execColdResetAssert s
  | .sensorsCooled inp => Sys2Proof.Machine.execSensorsCooled inp s
  | .vddAtticGood site => Sys2Proof.Machine.execVddAtticGood site s
  | .comparatorDeassert k value => Sys2Proof.Machine.execComparatorDeassert k value s
  | .cdrLocked engine lane => Sys2Proof.Machine.execCdrLocked engine lane s
  | .hostConfigWrite w => Sys2Proof.Machine.execHostConfigWrite w s
  | .hostLinkUp l => Sys2Proof.Machine.execHostLinkUp l s
  | .nocHeaderFlitTimeout txn => Sys2Proof.Machine.execNocHeaderFlitTimeout txn s
  | .fwStageDone ok => Sys2Proof.Machine.execFwStageDone ok s
  | .modelUnbindDone model => Sys2Proof.Machine.execModelUnbindDone model s
  | .fuseProgrammingDone ok => Sys2Proof.Machine.execFuseProgrammingDone ok s
  | .dieCapTimeout site => Sys2Proof.Machine.execDieCapTimeout site s
  | .atticLinkUp site linkB => Sys2Proof.Machine.execAtticLinkUp site linkB s
  | .sgmiiLinkChange up => Sys2Proof.Machine.execSgmiiLinkChange up s

end Sys2Proof.Machine
end

