-- ==== Sys2Proof/Safety.lean ====
section
/-! DEFINITION. What the statements speak of: a command that runs, the answer it gets, a command accepted, and the parts
of the state that a command leaves as they were. -/
namespace Sys2Proof.Machine

/-- No doorbell write of the host waits, and none of its writes into the BAR2 window is on its way: its next doorbell write
takes effect as it arrives (08 R239). -/
def hostCaughtUp (s : State) : Prop := s.mem.heldDoorbells = [] ∧ hostWritesOut s = false

/-- Channel `c` holds the TAKEN command `t` of opcode `op`, no ABORT waits for it, and its DONE follows its commit at once
(03 R64, R66). -/
def runs (s : State) (c op : Nat) (t : Taken) : Prop :=
  takenCmd s c op = some t ∧ (chanOf s c).abortRequested = false ∧ t.ended = none ∧ t.lateDone = false

/-- The command `t` of channel `c` has been answered between `s` and `s'`: its mailbox is DONE and its window holds the
completion (03 R64, Table 3-4); a place of the management channel is free again, and while the session is open the
completion has gone out as a message (03 R85). -/
def answers (s s' : State) (c : Nat) (t : Taken) (code : Status) (seq result : Nat) : Prop :=
  ∃ r : Record, r.code = statusCode code ∧ r.tag = t.hdr.tag ∧ r.partition = ctxField t.ctx ∧ r.commitSeq = seq ∧
    r.result = result % 2 ^ 320 ∧
    if isMgmt c then
      (chanOf s' c).state = .free ∧
        (s.mgmt.session = true → ∃ resp new old, s'.out = new ++ .mgmtCompletion t.hdr.tag r resp :: old ∧
          ∃ mid, old = mid ++ s.out)
    else (chanOf s' c).state = .done ∧ (chanOf s' c).window = some r ∧ (chanOf s' c).taken = none

/-- The asynchronous command `t` of channel `c` has been accepted between `s` and `s'`: its mailbox has the ACCEPTED
completion, and its final record is due under its COMMIT_SEQ (03 R79, R86). -/
def accepts (s s' : State) (c : Nat) (t : Taken) : Prop :=
  answers s s' c t .accepted (commit s).2 0 ∧
    ∃ a ∈ s'.cp.asyncs, a.seq = (commit s).2 ∧ a.opcode = t.hdr.opcode ∧ a.chan = c ∧ a.ctx = t.ctx ∧ a.tag = t.hdr.tag
      ∧ a.final = none

/-- The time base is legal: the rate adjustment within ±200 ppm (02 R22), the fret at most 63 (R24), the period and a
pending period within 4 to 512 steps (R25, R55). -/
def timeLegal (s : State) : Prop :=
  -200 ≤ s.time.rateAdj ∧ s.time.rateAdj ≤ 200 ∧ s.time.fret ≤ 63 ∧
    4 ≤ s.time.periodSteps ∧ s.time.periodSteps ≤ 512 ∧
    (s.time.changePending = true → 4 ≤ s.time.pendingSteps ∧ s.time.pendingSteps ≤ 512)

/-! ### Kernel instructions -/

/-- An issue of an instruction finds threads (04 R93, R96, Table 4-3): the group is resident on a core that issues, no other
subset of it has been passed over three times, `act` are its runnable threads at the PC whose operands are there and whose
guard is true, `off` those whose guard is false. -/
def issues (s : State) (i : Issue) (regs preds : List Nat) (also : Wait → Bool) (g : Group) (act off : List Nat) : Prop :=
  groupOf s i.core i.group = some g ∧ coreIssues s i.core = true ∧
    inTurn (coreOf s i.core) i.group g i.pc = true ∧ act ≠ [] ∧
    act = (subsetAt (coreOf s i.core) i.group g i.pc regs (i.pred :: preds) also).filter (guardOn g i) ∧
    off = (subsetAt (coreOf s i.core) i.group g i.pc regs (i.pred :: preds) also).filter (fun t => !guardOn g i t)

/-- No thread of the region's entry mask leaves its range (04 R118). -/
def stays (g : Group) (i : Issue) (act off : List Nat) : Prop :=
  leavesRegion g act (fun _ => i.pc + 1) = false ∧ leavesRegion g off (fun _ => i.pc + 1) = false

/-- Between `g` and `g'` register `r` (a pair where `wide`) of the threads `act` took the values `val`, VZ discarding them,
and no other register of a thread changed. -/
def wroteReg (g g' : Group) (wide : Bool) (r : Nat) (act : List Nat) (val : Nat → Nat) : Prop :=
  ∀ q u, u < 64 → regRead g' q u =
    if q = vz then 0
    else if u ∈ act ∧ r ≠ vz ∧ q = r then val u % 2 ^ 32
    else if u ∈ act ∧ r ≠ vz ∧ wide = true ∧ q = r + 1 then val u / 2 ^ 32 % 2 ^ 32
    else regRead g q u

/-- Between `g` and `g'` predicate `p` of the threads `act` took the values `val`, PT discarding them, and no other
predicate of a thread changed. -/
def wrotePred (g g' : Group) (p : Nat) (act : List Nat) (val : Nat → Bool) : Prop :=
  ∀ q u, u < 64 → predRead g' q u = if u ∈ act ∧ p ≠ pt ∧ q = p then val u else predRead g q u

/-- The threads `ts` went on at `pcOf`, waiting for nothing, and no other thread moved. -/
def moved (g g' : Group) (ts : List Nat) (pcOf : Nat → Nat) : Prop :=
  (∀ u, threadPc g' u = if u ∈ ts then pcOf u else threadPc g u) ∧ ∀ u, u ∈ ts → tfind g'.waits u = none

/-- The instruction completed as a register operation: the threads that executed it hold `val` in the destination, all of
them and those whose guard was false went on at the next word, and predicates are as they were. -/
def ranReg (s' : State) (i : Issue) (g : Group) (act off : List Nat) (wide : Bool) (r : Nat) (val : Nat → Nat) : Prop :=
  ∃ g', groupOf s' i.core i.group = some g' ∧ wroteReg g g' wide r act val ∧ g'.preds = g.preds ∧
    moved g g' (act ++ off) (fun _ => i.pc + 1)

/-- The same for an operation whose result is a predicate. -/
def ranPred (s' : State) (i : Issue) (g : Group) (act off : List Nat) (p : Nat) (val : Nat → Bool) : Prop :=
  ∃ g', groupOf s' i.core i.group = some g' ∧ wrotePred g g' p act val ∧ g'.regs = g.regs ∧
    moved g g' (act ++ off) (fun _ => i.pc + 1)

/-- The group's state once the others of its subsets have been passed over (04 R96). -/
def inTurnState (s : State) (i : Issue) (g : Group) : State :=
  modGroup s i.core i.group (fun _ => passOver (coreOf s i.core) i.group g i.pc)

/-- The state once the threads whose guard is false have gone on. -/
def passed (s : State) (i : Issue) (g : Group) (off : List Nat) : State :=
  if off.isEmpty then inTurnState s i g else advance (inTurnState s i g) i off

/-- The registers that an atomic reads and writes (04 Table 4-5). -/
def atomRegs (op : AtomOp) (f : AtomForm) (dst sa sb sc : Nat) : List Nat :=
  pairRegs sa ++ (wideRegs (atomPairs op f.atype) sb ++ (if op = .cas then wideRegs (atomPairs op f.atype) sc else []))
    ++ (if f.ret then wideRegs (atomWide f.atype) dst else [])

/-- The form of an atomic is one that 04 R95 admits. -/
def atomFormOk (s : State) (op : AtomOp) (i : Issue) (f : AtomForm) (dst sa sb sc : Nat) : Bool :=
  let n := declaredRegs s i.core
  let wide := atomPairs op f.atype
  guardOk i && atomDefined op f.atype && f.pdst < 8 && pairsOk n [sa]
    && (if wide then pairsOk n [sb] else regsOk n [sb]) && (op != .cas || (if wide then pairsOk n [sc] else regsOk n [sc]))
    && (!f.ret || (if atomWide f.atype then pairsOk n [dst] else regsOk n [dst]))

/-- The command of an atomic operation. -/
def atomCommand (op : AtomOp) (i : Issue) (f : AtomForm) (dst sa sb sc : Nat) : Instr :=
  match op with
  | .add => .atomAdd i f dst sa sb
  | .min => .atomMin i f dst sa sb
  | .max => .atomMax i f dst sa sb
  | .and => .atomAnd i f dst sa sb
  | .or => .atomOr i f dst sa sb
  | .xor => .atomXor i f dst sa sb
  | .exch => .atomExch i f dst sa sb
  | .cas => .atomCas i f dst sa sb sc
  | .inc => .atomInc i f dst sa sb

/-- The command of a shuffle. -/
def shuffleCommand (k : Shuffle) (i : Issue) (f : ShflForm) (dst sa sb sc : Nat) : Instr :=
  match k with
  | .idx => .shflIdx i f dst sa sb sc
  | .up => .shflUp i f dst sa sb sc
  | .down => .shflDown i f dst sa sb sc
  | .xor => .shflXor i f dst sa sb sc

/-- The members of a thread's mask that have not exited (04 R101). -/
def liveMembers (g : Group) (sc t : Nat) : List Nat :=
  (maskBits (memberMask g sc t) 64).filter (fun u => !bitAt g.exited u)

/-- A matrix instruction finds its whole entry mask there and nobody else (04 R117). -/
def regionReady (g : Group) (act : List Nat) : Prop :=
  ∃ r, g.region = some r ∧ maskBits r.entry 64 ≠ [] ∧ ∀ u, u < 64 → (u ∈ act ↔ bitAt r.entry u = true)

/-! ### Descriptors of the movers -/

/-- The descriptor `j` stands at place `id` of unit `c`, is of operation `op`, has not ended, and has started or may start
(09 R255). -/
def descRuns (s : State) (c id op : Nat) (j : MoverJob) : Prop :=
  jobFind s c id = some j ∧ bbits (jobBody s j) 0 8 = op ∧ j.result = none ∧ (j.started = true ∨ mayStart s c j = true)

/-- The state once the descriptor at `id` has started. -/
def startedAt (s : State) (c id : Nat) (j : MoverJob) : State :=
  if j.started then s else modJob s c id (fun j => { j with started := true })

/-- The transfer of the descriptor at `id` has ended with these fields of its result (06 Table 6-5, 07 Table 7-4). -/
def descEnded (s : State) (c id code done a0 a1 : Nat) : Prop :=
  ∃ j, jobFind s c id = some j ∧ j.result = some (resultBytes code done a0 a1)

/-- A line of a range is at hand for the descriptor: its own cellar's stores hold it, or its fetch is back. -/
def lineHere (s : State) (c : Nat) (j : MoverJob) (a n line : Nat) : Bool :=
  ownLine s c line || bufferHolds s c a n line || (tfind j.stage (pieceOf s a n line).1).isSome

/-- A range that a descriptor uses at once: its partition may access it, and of one that it reads every line is at hand. -/
def rangeReady (s : State) (c : Nat) (j : MoverJob) (write : Bool) (a n : Nat) : Prop :=
  jobRefusal s j write a n = none ∧ (write = false → ∀ l ∈ linesOf a n, lineHere s c j a n l = true)

/-- Every line of a range lies in the stores of the cellar itself. -/
def ownRange (s : State) (c a n : Nat) : Prop := ∀ l ∈ linesOf a n, ownLine s c l = true

/-- A write of `b` at `a` stands in the job's port for every line of it that the cellar does not hold itself. -/
def jobWrites (s t : State) (c : Nat) (j : MoverJob) (a : Nat) (b : Bytes) : Prop :=
  ∀ l ∈ linesOf a b.length, ownLine s c l = false → ∃ i x, txnOf t i = some x ∧ x.phase = .waiting ∧ x.kind = .write ∧
    x.client = .moverWrite c j.step j.part ∧ x.hpa = l * 128 ∧ x.data = bytesOfLine a b l

/-- Every byte of a range lies in the scratch of a cellar that no reset holds. -/
def inScratch (s : State) (a n : Nat) : Prop :=
  ∀ i, i < n → ∃ c, placeOf s (a + i) = .scratch c ∧ (cellarOf s c).resetting = false

/-- The bytes `b` were written at `a`, and no other byte of memory changed. -/
def wroteBytes (s t : State) (a : Nat) (b : Bytes) : Prop :=
  (∀ i, i < b.length → (readByte t (a + i)).1 = nth b i 0) ∧
    ∀ x, x < a ∨ a + b.length ≤ x → memRead t.mem.bytes x = memRead s.mem.bytes x

/-! ### Accesses at a home -/

/-- The shelf takes access `n`, which has arrived as `t`: no earlier arrival, no regulator, no limit of the power manager and
no lost channel stands before it (08 R218, 10 R281, 18 R510). -/
def shelfTakes (s : State) (n k : Nat) (t : Txn) : Prop :=
  shelfLimited s k = false ∧ overtakes s n k t = false ∧ dieOvertakes s n t = false ∧ channelDown s t.hpa = false ∧
    (t.master = 88 ∨ t.shelfCharged.isSome = true ∨ shelfRefuses s k (shelfPartition s t) t.units = false)

/-- The far-tier port takes access `n`: no earlier arrival stands before it and its device has room (08 R230). -/
def farTakes (s : State) (n p d : Nat) (t : Txn) : Prop :=
  overtakes s n 12 t = false ∧ dieOvertakes s n t = false ∧ farWaits s n p (farDevice s p d) t = false ∧
    farOut s p (farDevice s p d) + farRequests s p t ≤ farRequestLimit

/-- The line of an access is no die's, no answer of a die is due for it, the access enters no die's copy and brings back
none, and nothing of its home's buffer is being flushed (12 R319, 08 R221). -/
def lineFree (s : State) (n : Nat) (t : Txn) (home : Home) : Prop :=
  givesBack t = false ∧ backPending s n (t.hpa / 128) (txnSite t) = false ∧ t.dir = .none ∧
    tfind s.attic.dir (t.hpa / 128) = none ∧ tfind s.attic.snoops (t.hpa / 128) = none ∧
    ∀ e ∈ wcbOf s home, e.flushing = false

/-- A buffer has an entry of the line, or one that is not in use (08 R220). -/
def wcbPlace (s : State) (home : Home) (line : Nat) : Prop :=
  (wcbEntry s home line).isSome = true ∨ (wcbUsed s home).length < wcbSize home

/-! ### Chord packets -/

/-- Packet `k` passes the checks of its arrival at engine `e`, as far as `s1`, at the entry of peer `p`, and is new and
within the receive window (14 R388, R389). -/
def arrives (s : State) (e : Nat) (k : Packet) (access : Bool) (s1 : State) (p : Nat) : Prop :=
  accepted s e k access = (s1, some p) ∧ psnSeen (peerOf s1 p) k.psn = false ∧ psnBeyond (peerOf s1 p) k.psn = false

/-- A packet of this type that belongs to message `msg` is on its way to peer `p`: it waits to be sent, or is not
acknowledged yet. -/
def owes (s : State) (p pt msg : Nat) : Prop :=
  ∃ k, (k ∈ (peerOf s p).queue ∨ ∃ y ∈ (peerOf s p).sent, y.packet = k) ∧ k.ptype = pt ∧ k.msg = msg

/-- Message `id` to peer `p` is the one message outstanding for a client. -/
def onlyMessage (s : State) (p id : Nat) (c : MsgClient) : Prop :=
  (tkeys s.chord.peers).Nodup ∧ ∀ q ∈ s.chord.peers, ∀ y ∈ q.2.messages, y.2.client = c → q.1 = p ∧ y.1 = id

/-- A transaction of engine `e`'s receive path waits at its port for message `k` of peer `p` (10 Table 10-1). -/
def chordQueued (t : State) (e p part : Nat) (k : Packet) (x : Txn) : Prop :=
  (∃ i, txnOf t i = some x) ∧ x.phase = .waiting ∧ x.master = chordMaster e ∧ x.tag = part ∧ x.client = .chord p k.msg 0 ∧
    x.reserved = k.reserved

/-- The collective `k` is posted for the descriptor `j` of cellar `c` (14 R402). -/
def collPosted (t : State) (k c : Nat) (j : MoverJob) (all : Bool) (nodes : List Nat) (rank length : Nat) : Prop :=
  ∃ x, collOf t k = some x ∧ x.allreduce = all ∧ x.nodes = nodes ∧ x.rank = rank ∧ x.length = length ∧ x.cellar = c ∧
    x.step = j.step ∧ x.part = j.part ∧ x.received = []

/-! ### Attic dies -/

/-- Message `op` of the die of `site` is taken at once, in the state `s1` that has noted its urgency (12 R315, R325). -/
def dieSends (s : State) (site op : Nat) (m : AtpMsg) (s1 : State) : Prop :=
  hearsDie s site = true ∧ (siteOf s site).astate = .up ∧ s1 = noteUrgency s site { m with opcode := op }

/-- The last thing that the hub sent is the completion of the die's request `txn`. -/
def dieTold (t : State) (site txn status : Nat) (data : Bytes) : Prop :=
  t.out.head? = some (.atp site { opcode := 0x11, txn := txn, len := data.length / 32, status := status, data := data })

/-- The die's request stands in the queue of its site's master port, under the tag of the site's partition, and has changed
neither memory nor a directory yet (12 R316). -/
def dieQueued (s t : State) (site txn : Nat) (x : Txn) : Prop :=
  txnOf t s.cells.nextId = some x ∧ x.master = 64 + site ∧ x.tag = siteOwner s site ∧ x.client = .die site txn ∧
    x.phase = .waiting ∧ t.mem.bytes = s.mem.bytes ∧ t.attic = s.attic ∧ t.out = s.out

/-- A site may train: its rail is good, its domain is on, it is in the present mask and not unfitted (12 R311). -/
def mayTrain (s : State) (site : Nat) : Prop :=
  bitAt s.boot.atticRails (physSite s site) = true ∧ domainLive s (domAttic site) = true ∧
    (siteOf s site).present = true ∧ (siteOf s site).unfitted = false

/-- What the die of `site` held between `s` and `t` is gone: no directory entry and no snoop names the site, no request of
the hub and no part is left at it, its reset has been sent, and the port reset counts (12 R334, R331). -/
def dieIsGone (s t : State) (site : Nat) : Prop :=
  (∀ e ∈ t.attic.dir, e.2.owner ≠ some site ∧ bitAt e.2.sharers site = false) ∧
    (∀ e ∈ t.attic.snoops, ∀ k ∈ e.2.sites, k % 8 ≠ site) ∧
    (siteOf t site).windowReqs = [] ∧ (siteOf t site).parts = [] ∧ (siteOf t site).held = [] ∧
    (siteOf t site).portResets = min ((siteOf s site).portResets + 1) 0xFFFF ∧ Out.sideband site sbDieReset 0 ∈ t.out ∧
    (mayTrain s site → (siteOf t site).astate = .training ∧ (siteOf t site).attempts = 1)

/-- The die of `site` has been lost between `s` and `t`. -/
def dieIsLost (s t : State) (site : Nat) : Prop := dieIsGone s t site ∧ (siteOf t site).lastReason = downLost

/-! ### Resets of the whole device -/

/-- The whole device was reset between `s` and `t`: the time base, the fuses, the straps and the flash slots are kept, the
epoch of the device context is one higher, no memory byte is listed and no step is left (16 R440, R466, R470). -/
def deviceWasReset (s t : State) : Prop :=
  t.time.now = s.time.now ∧ t.time.rateAdj = s.time.rateAdj ∧ t.boot.fuses = s.boot.fuses ∧ t.boot.straps = s.boot.straps ∧
    t.boot.slots = s.boot.slots ∧ t.part.deviceEpoch = (s.part.deviceEpoch + 1) % 2 ^ 32 ∧ t.mem.bytes = [] ∧
    t.larder.steps = [] ∧ t.trans = {} ∧ t.pending = s.pending

/-- Core `k` is in reset, with nothing left that a reset clears (16 Table 16-13). -/
def coreIsReset (t : State) (k : Nat) : Prop :=
  (coreOf t k).resetting = true ∧ (coreOf t k).step = none ∧ (coreOf t k).groups = [] ∧ (coreOf t k).lines = [] ∧
    (coreOf t k).scratch = [] ∧ (coreOf t k).loads = []

/-! ### Limited changes -/

/-- What a GO of setting `g` does (16 R461–R463): one in progress counts it, a refused one burns nothing, else programming
begins and the change counts as used. -/
def lcEffect (s t : State) (g : Nat) (sig : Bool) : Prop :=
  (s.boot.lcBusy = true → t.boot.lcRejected = min (s.boot.lcRejected + 1) 0xFFFF ∧ t.boot.fuses = s.boot.fuses ∧
    t.boot.lcBusy = true ∧ t.boot.lcChange = s.boot.lcChange) ∧
  (∀ r, s.boot.lcBusy = false → lcRefused s sig = some r → t.boot.lcDone = true ∧ t.boot.lcResult = r ∧
    t.boot.fuses = s.boot.fuses ∧ t.boot.lcBusy = false) ∧
  (s.boot.lcBusy = false → lcRefused s sig = none → t.boot.lcBusy = true ∧ t.boot.lcDone = false ∧ ∃ x,
    t.boot.lcChange = some x ∧ x.setting = g ∧ x.site = bits (lcWord s 0) 8 3 ∧ (∀ i, i < 20 → nth x.words i 0 = lcWord s i) ∧
    t.boot.fuses.log = s.boot.fuses.log ∧ (g = 1 → t.boot.fuses.downgraded = true) ∧
    (g = 2 → t.boot.fuses.lifecycleSteps = s.boot.fuses.lifecycleSteps + 1) ∧ (g = 3 → t.boot.fuses = s.boot.fuses) ∧
    (g = 4 → (fuseSite t x.site).mapWrites = (fuseSite s x.site).mapWrites + 1) ∧
    (g = 5 → (fuseSite t x.site).profileWrites = (fuseSite s x.site).profileWrites + 1))

/-! ### What each command may change -/

/-- The components of the state that a frame speaks of: its records, and of those the fuse array, the flash and the bytes of
memory by themselves. -/
inductive Component where
  | time | cp | part | err | pwr | mgmt | boot | fuses | flash | cells | mem | bytes | larder | reg | trans | attic | link
  | chord | fresh | out
  deriving DecidableEq, Repr

/-- A component is in `t` what it is in `s`. -/
def unchanged (k : Component) (s t : State) : Prop :=
  match k with
  | .time => t.time = s.time
  | .cp => t.cp = s.cp
  | .part => t.part = s.part
  | .err => t.err = s.err
  | .pwr => t.pwr = s.pwr
  | .mgmt => t.mgmt = s.mgmt
  | .boot => t.boot = s.boot
  | .fuses => t.boot.fuses = s.boot.fuses
  | .flash => t.boot.slots = s.boot.slots ∧ t.boot.slotRecords = s.boot.slotRecords
  | .cells => t.cells = s.cells
  | .mem => t.mem = s.mem
  | .bytes => t.mem.bytes = s.mem.bytes
  | .larder => t.larder = s.larder
  | .reg => t.reg = s.reg
  | .trans => t.trans = s.trans
  | .attic => t.attic = s.attic
  | .link => t.link = s.link
  | .chord => t.chord = s.chord
  | .fresh => t.fresh = s.fresh
  | .out => t.out = s.out

/-- The components that a command may change: those its rules of the specification name, with what their events, records and
completions touch. -/
def changes (i : Instr) : List Component :=
  match i with
  | .railFault .. | .hostLinkUp .. => [.boot]
  | .releaseWritebackAcked .. | .trackerIdleTimeout .. => [.cells]
  | .keyUpdate .. | .unreachableEnd .. => [.chord]
  | .leakyBucketLeak .. => [.err]
  | .shelfRepairSoft .. | .shelfChannelRetrain .. | .farZeroingDone .. | .shelfZeroingDone ..
  | .nocHeaderFlitTimeout .. => [.mem]
  | .sgmiiLinkChange .. => [.mgmt]
  | .spdmHeartbeat .. | .neighbourSolicitation .. | .echoRequest .. => [.out]
  | .cpIdleTimeout .. | .smbusAddressMatch .. | .comparatorDeassert .. => [.pwr]
  | .unmapFlushReadDone .. => [.trans]
  | .shelfRepairHard .. => [.boot, .mem]
  | .preemptSaveDone .. | .wayUnlock .. => [.cells, .larder]
  | .flitKeepalive .. | .keyUpdateTrigger .. | .routeAdv .. | .routeAgeOut .. | .ackTimer ..
  | .retransmissionTimeout .. | .busyBackoffExpiry .. | .init .. | .handshakeRetry .. | .associationRenewal .. =>
    [.chord, .out]
  | .hello .. | .eqCreate .. | .eqDestroy .. | .partitionQuery .. | .linkQuery .. | .timeQuery .. | .powerQuery ..
  | .eqCoalesceTimer .. | .eqRecordWrite .. => [.cp, .out]
  | .regRead .. | .pldmSensorRead .. => [.fresh, .out]
  | .guaranteeMiss .. => [.mem, .reg]
  | .setEndpointId .. => [.mgmt, .out]
  | .getVersion .. | .getCapabilities .. | .negotiateAlgorithms .. | .getDigests .. | .getCertificate ..
  | .challenge .. | .getMeasurements .. => [.part, .out]
  | .powerReport .. => [.pwr, .attic]
  | .thermalTrip .. => [.pwr, .boot]
  | .pwrCmpWrite .. | .i3cAddressMatch .. => [.pwr, .out]
  | .urgency .. => [.reg, .attic]
  | .vddAtticGood .. | .atticLinkUp .. => [.boot, .attic, .out]
  | .lcVariant .. | .lcLifecycle .. | .lcAntiRollback .. | .lcAtticRepairMap .. | .lcAtticProfile .. =>
    [.boot, .fuses, .out]
  | .shelfRepairCancelHard .. => [.boot, .mem, .fresh]
  | .resp .. | .confirm .. => [.chord, .fresh, .out]
  | .fwActivate .. | .activateFirmware .. => [.cp, .boot, .out]
  | .peerAdmitSet .. => [.cp, .chord, .out]
  | .seqOpen .. => [.cp, .larder, .out]
  | .eqConsumerWrite .. | .msixTableWrite .. => [.cp, .mem, .out]
  | .eqDestroyDrained .. | .mbRequest .. => [.cp, .mgmt, .out]
  | .partitionPolicySet .. | .modelBind .. | .modelUnbind .. => [.cp, .part, .out]
  | .powerCapSet .. => [.cp, .pwr, .out]
  | .qosSet .. => [.cp, .reg, .out]
  | .mapHost .. => [.cp, .trans, .out]
  | .eventAck .. => [.err, .mgmt, .out]
  | .stepSaved .. => [.larder, .reg, .attic]
  | .hostLinkTimeout .. => [.mgmt, .boot, .out]
  | .fuseProgrammingDone .. => [.part, .boot, .fuses]
  | .keyExchange .. | .spdmKeyUpdate .. => [.part, .fresh, .out]
  | .finish .. => [.part, .mgmt, .out]
  | .forward .. => [.reg, .chord, .out]
  | .timePeriodSet .. | .timeRoleSet .. | .timeBackgroundSet .. => [.time, .cp, .out]
  | .cacheFillArrival .. => [.cells, .mem, .bytes, .out]
  | .peerWindowClearDrained .. => [.cp, .mgmt, .chord, .out]
  | .unmapHostDrained .. => [.cp, .mgmt, .trans, .out]
  | .peerWindowSet .. | .peerWindowClear .. => [.cp, .part, .chord, .out]
  | .imageLoad .. | .endSession .. => [.cp, .part, .mgmt, .out]
  | .doorbellPost .. | .doorbellAbort .. | .doorbellRelease .. | .doorbellIgnoredAction .. | .registerWrite .. =>
    [.cp, .pwr, .mem, .out]
  | .comparatorAssert .. => [.cp, .pwr, .mgmt, .out]
  | .timeWordTimeout .. | .holdoverTimeout .. => [.time, .cp, .mgmt, .out]
  | .pageZeroingDone .. => [.cells, .mem, .bytes, .larder, .out]
  | .keyHello .. | .keyFinish .. => [.cp, .err, .mgmt, .chord, .out]
  | .shelfChannelRetrained .. => [.cp, .err, .mgmt, .mem, .out]
  | .unmapHost .. | .faultRespond .. | .walkEntryRead .. | .adUpdateCasReturn .. | .faultTimeout .. =>
    [.cp, .err, .mgmt, .trans, .out]
  | .cdrLocked .. => [.cp, .mgmt, .link, .chord, .out]
  | .hostConfigWrite .. => [.cp, .part, .boot, .fresh, .out]
  | .attest .. => [.cp, .part, .mgmt, .fresh, .out]
  | .scrubSegmentDue .. => [.time, .cp, .err, .mgmt, .out]
  | .ptpMessage .. => [.time, .cp, .mgmt, .fresh, .out]
  | .snpRsp .. => [.cells, .mem, .bytes, .reg, .attic, .out]
  | .llCap .. | .ack .. => [.cp, .err, .mgmt, .chord, .fresh, .out]
  | .farDeviceFailed .. => [.cp, .err, .mgmt, .mem, .larder, .out]
  | .cpTakeMailbox .. => [.cp, .part, .err, .mgmt, .boot, .out]
  | .fwActivateSwitch .. | .fwStageDone .. => [.cp, .part, .mgmt, .boot, .flash, .out]
  | .pageMoveLand .. => [.err, .cells, .mem, .bytes, .larder, .out]
  | .regWrite .. => [.pwr, .boot, .fuses, .mem, .fresh, .out]
  | .linkRetrain .. | .linkModeSet .. | .laneLoss .. | .trainingTimeout .. | .ethPortLaneLoss .. =>
    [.time, .cp, .mgmt, .link, .chord, .out]
  | .collectiveTimeout .. => [.cells, .mem, .bytes, .larder, .chord, .fresh, .out]
  | .bar2Access .. => [.cp, .err, .mgmt, .boot, .cells, .mem, .out]
  | .stepDone .. => [.cp, .err, .mgmt, .larder, .chord, .fresh, .out]
  | .atomicRsp .. => [.cp, .err, .mgmt, .mem, .chord, .fresh, .out]
  | .atpRsp .. => [.cp, .err, .mgmt, .mem, .reg, .attic, .out]
  | .modelUnbindDone .. => [.cp, .part, .mgmt, .mem, .bytes, .attic, .out]
  | .flit .. | .replayTimeout .. => [.time, .cp, .err, .mgmt, .link, .chord, .out]
  | .markerReceived .. => [.time, .cp, .mgmt, .link, .chord, .fresh, .out]
  | .atpStepDone .. => [.cp, .cells, .larder, .reg, .trans, .attic, .chord, .out]
  | .nop .. | .bra .. | .brx .. | .split .. | .join .. | .exit .. | .yield .. | .shflIdx .. | .shflUp ..
  | .shflDown .. | .shflXor .. | .voteAll .. | .voteAny .. | .voteBallot .. | .match32 .. | .match64 ..
  | .mregionBegin .. | .mregionEnd .. | .mzero .. | .anchor .. | .mexport .. | .mexportWide .. | .intOp ..
  | .fpOp .. | .cvt .. | .mov .. | .specialRead .. => [.cp, .cells, .larder, .trans, .attic, .chord, .fresh, .out]
  | .seqCloseComplete .. => [.cp, .err, .mgmt, .cells, .mem, .bytes, .larder, .out]
  | .rdShared .. | .rdOwn .. | .wbDirty .. | .evictClean .. | .atpAtomic .. =>
    [.cp, .err, .mgmt, .cells, .mem, .reg, .attic, .out]
  | .pegOp .. => [.cp, .cells, .larder, .reg, .trans, .attic, .chord, .fresh, .out]
  | .loadDataReturn .. => [.cp, .err, .mgmt, .cells, .larder, .trans, .attic, .chord, .out]
  | .wrNc .. => [.cp, .err, .mgmt, .cells, .mem, .reg, .trans, .attic, .out]
  | .masterPortIssue .. => [.cp, .err, .mgmt, .mem, .reg, .attic, .chord, .fresh, .out]
  | .chordWrite .. | .readReq .. | .chordAtomic .. => [.cp, .part, .err, .mgmt, .cells, .mem, .chord, .fresh, .out]
  | .modelBindSeDone .. => [.cp, .part, .mgmt, .cells, .mem, .bytes, .reg, .attic, .out]
  | .powerDomainSet .. => [.cp, .pwr, .mgmt, .cells, .mem, .bytes, .larder, .link, .out]
  | .fence .. => [.cp, .cells, .mem, .bytes, .larder, .trans, .attic, .chord, .fresh, .out]
  | .rdNc .. => [.cp, .err, .mgmt, .boot, .cells, .mem, .reg, .trans, .attic, .out]
  | .mma .. | .signal .. => [.cp, .err, .mgmt, .cells, .larder, .trans, .attic, .chord, .fresh, .out]
  | .coll .. => [.cp, .err, .mgmt, .cells, .mem, .bytes, .larder, .chord, .fresh, .out]
  | .wayLock .. => [.cp, .err, .mgmt, .cells, .mem, .larder, .trans, .attic, .chord, .out]
  | .routeDispatched .. => [.cp, .err, .mgmt, .cells, .larder, .reg, .trans, .attic, .chord, .fresh, .out]
  | .fill .. | .clean .. | .inval .. | .cleanInval .. =>
    [.cp, .err, .mgmt, .cells, .mem, .bytes, .larder, .trans, .attic, .chord, .out]
  | .done .. | .nack .. | .peerUnreachable .. =>
    [.cp, .err, .mgmt, .cells, .mem, .larder, .trans, .attic, .chord, .fresh, .out]
  | .atomAdd .. | .atomMin .. | .atomMax .. | .atomAnd .. | .atomOr .. | .atomXor .. | .atomExch .. | .atomCas ..
  | .atomInc .. | .ld .. => [.cp, .part, .cells, .mem, .bytes, .larder, .trans, .attic, .chord, .fresh, .out]
  | .copy .. | .compress .. | .decompress .. | .gather .. =>
    [.cp, .err, .mgmt, .boot, .cells, .mem, .bytes, .larder, .trans, .attic, .chord, .out]
  | .put .. | .atticLinkDown .. =>
    [.cp, .err, .mgmt, .boot, .cells, .mem, .larder, .trans, .attic, .chord, .fresh, .out]
  | .get .. | .allreduce .. | .alltoall .. | .readRsp .. =>
    [.cp, .err, .mgmt, .cells, .mem, .bytes, .larder, .trans, .attic, .chord, .fresh, .out]
  | .chordPeg .. => [.cp, .part, .err, .mgmt, .cells, .larder, .reg, .trans, .attic, .chord, .fresh, .out]
  | .coreHang .. => [.cp, .part, .err, .mgmt, .cells, .mem, .bytes, .larder, .trans, .attic, .chord, .out]
  | .heartbeat .. | .resetReq .. | .dieHeartbeatTimeout .. | .dieCreditTimeout .. | .dieSnoopTimeout ..
  | .dieStepTimeout .. | .vddAtticFault .. =>
    [.cp, .err, .mgmt, .boot, .cells, .mem, .bytes, .larder, .trans, .attic, .chord, .fresh, .out]
  | .seqClose .. | .stepSubmit .. | .pegArrive .. | .pegWait .. | .pegSignal .. | .pegReset .. | .pegRead ..
  | .stepComplete .. | .moverDescriptorDone .. | .combine .. | .step .. | .stepCancel .. =>
    [.cp, .err, .mgmt, .cells, .mem, .bytes, .larder, .reg, .trans, .attic, .chord, .fresh, .out]
  | .imageChunkBitmap .. | .coreDigestCheckDone .. | .sramUncorrectable .. | .retestDone .. =>
    [.cp, .part, .err, .mgmt, .boot, .cells, .mem, .bytes, .larder, .trans, .attic, .chord, .out]
  | .st .. => [.cp, .part, .err, .mgmt, .cells, .mem, .bytes, .larder, .trans, .attic, .chord, .fresh, .out]
  | .powerDomainOn .. => [.cp, .part, .err, .pwr, .mgmt, .boot, .cells, .mem, .bytes, .larder, .attic, .link, .out]
  | .softRepairDone .. | .farTierAccess .. | .wcbAgeFlush .. | .laneMap .. | .atticSidebandTimeout ..
  | .dieCapTimeout .. =>
    [.cp, .part, .err, .mgmt, .boot, .cells, .mem, .bytes, .larder, .trans, .attic, .chord, .fresh, .out]
  | .partitionDestroyDone .. =>
    [.cp, .part, .err, .mgmt, .cells, .mem, .bytes, .larder, .reg, .trans, .attic, .chord, .fresh, .out]
  | .partitionCreate .. | .partitionTransitionDone .. | .partitionDestroy .. | .partitionReset .. | .scrubRead .. =>
    [.cp, .part, .err, .mgmt, .boot, .cells, .mem, .bytes, .larder, .reg, .trans, .attic, .chord, .fresh, .out]
  | .shelfAccess .. =>
    [.cp, .part, .err, .pwr, .mgmt, .boot, .cells, .mem, .bytes, .larder, .trans, .attic, .chord, .fresh, .out]
  | .fwStage .. | .updateComponent .. =>
    [.cp, .part, .err, .pwr, .mgmt, .boot, .flash, .cells, .mem, .larder, .attic, .link, .chord, .fresh, .out]
  | .sensorsCooled .. =>
    [.time, .cp, .part, .err, .pwr, .mgmt, .boot, .cells, .mem, .larder, .attic, .link, .chord, .fresh, .out]
  | .transactionCompletionReturn .. | .dieCap .. =>
    [.cp, .part, .err, .pwr, .mgmt, .boot, .cells, .mem, .bytes, .larder, .reg, .trans, .attic, .chord, .fresh, .out]
  | .fretEdge .. =>
    [.time, .cp, .err, .pwr, .mgmt, .boot, .cells, .mem, .bytes, .larder, .reg, .trans, .attic, .link, .chord, .fresh, .out]
  | .powerDomainEntryDone .. =>
    [.time, .cp, .part, .err, .pwr, .mgmt, .boot, .cells, .mem, .bytes, .larder, .trans, .attic, .link, .chord, .fresh, .out]
  | .strumBoundary .. =>
    [.time, .cp, .part, .err, .pwr, .mgmt, .cells, .mem, .bytes, .larder, .reg, .trans, .attic, .link, .chord, .fresh, .out]
  | .deviceReset .. | .coldReset .. | .hostPerst .. | .functionLevelReset .. | .cpWatchdog .. | .coldResetAssert .. =>
    [.time, .cp, .part, .err, .pwr, .mgmt, .boot, .fuses, .cells, .mem, .bytes, .larder, .reg, .trans, .attic, .link, .chord, .fresh, .out]

end Sys2Proof.Machine
end

