-- ==== Sys2Proof/WellFormed.lean ====
section
/-! DEFINITION. Which commands are well formed: every number that names a unit lies within the units the part is designed
with, and every field fits its width.  A command that is not well formed names something that does not exist; its meaning
then changes nothing or reads a default, and no sender sends it. -/
namespace Sys2Proof

open Machine

/-- A number by what it names. -/
inductive Operand where
  /-- One of 64 mailboxes (03 R59). -/
  | mailbox (m : Nat)
  /-- A mailbox, or one of the eight places of the management channel (18 R516). -/
  | channel (c : Nat)
  /-- One of 512 event queues (03 R72). -/
  | queue (q : Nat)
  /-- One of 2,048 MSI-X vectors, and a word of its entry (03 R77). -/
  | vector (v : Nat)
  | vectorWord (w : Nat)
  /-- Cores, cellars, attic sites, shelves, engines, far ports (01 Table 1-1). -/
  | core (k : Nat)
  | cellar (c : Nat)
  | site (t : Nat)
  | shelf (n : Nat)
  | shelfChannel (c : Nat)
  | engine (e : Nat)
  | lane (l : Nat)
  | farPort (p : Nat)
  | farDecoder (d : Nat)
  /-- One of 89 master ports (10 Table 10-1). -/
  | master (m : Nat)
  | partition (p : Nat)
  /-- One of 103 power domains, and one of 8 comparators (18 R491, R505). -/
  | domain (d : Nat)
  | comparator (k : Nat)
  /-- Resident group, word of the instruction store, register and predicate of a kernel instruction (04 R92, R94). -/
  | group (g : Nat)
  | word (pc : Nat)
  | register (r : Nat)
  | predicate (p : Nat)
  /-- A join slot (04 R97), and a way of a cellar buffer (07). -/
  | slot (l : Nat)
  | way (w : Nat)
  /-- One of the five structures that scrub walks (17 Table 17-9). -/
  | structure_ (x : Nat)
  /-- A field of `w` bits. -/
  | fits (w x : Nat)
  /-- A register access of the host or the management agent: 32 or 64 bits (00 R8). -/
  | size (n : Nat)
  /-- A payload of at most `n` bytes. -/
  | payload (n : Nat) (b : Bytes)
  deriving DecidableEq, Repr

/-- The number names something. -/
def Operand.ok : Operand → Bool
  | .mailbox m => m < 64
  | .channel c => c < 72
  | .queue q => q < 512
  | .vector v => v < 2048
  | .vectorWord w => w < 4
  | .core k => k < 4096
  | .cellar c => c < 64
  | .site t => t < 8
  | .shelf n => n < 12
  | .shelfChannel c => c < 32
  | .engine e => e < 12
  | .lane l => l < 16
  | .farPort p => p < 2
  | .farDecoder d => d < 8
  | .master m => m < 89
  | .partition p => p < 16
  | .domain d => d < 103
  | .comparator k => k < 8
  | .group g => g < 16
  | .word pc => pc < 16384
  | .register r => r < 256
  | .predicate p => p < 8
  | .slot l => l < 8
  | .way w => w < 16
  | .structure_ x => x < 5
  | .fits w x => x < 2 ^ w
  | .size n => n == 4 || n == 8
  | .payload n b => b.length ≤ n

/-- What an issue names (04 Table 4-3). -/
def issueOperands (i : Issue) : List Operand := [.core i.core, .group i.group, .word i.pc, .predicate i.pred]

/-- An issue with registers. -/
def issueRegs (i : Issue) (rs : List Nat) : List Operand := issueOperands i ++ rs.map .register

/-- The fields of an ATP message (12 Table 12-4). -/
def atpOperands (m : AtpMsg) : List Operand :=
  [.fits 8 m.opcode, .fits 12 m.txn, .fits 4 m.len, .fits 4 m.status, .fits 2 m.urgency, .fits 64 m.address, .fits 20 m.pasid,
   .payload 128 m.data]

/-- The fields of a packet header (14 Table 14-5). -/
def packetOperands (p : Packet) : List Operand :=
  [.fits 16 p.opinfo, .fits 32 p.src, .fits 32 p.dst, .fits 64 p.tag, .fits 32 p.psn, .fits 32 p.ackFloor, .fits 32 p.epoch,
   .fits 32 p.msg, .fits 32 p.offset, .fits 16 p.zmask, .fits 16 p.pmask, .fits 64 p.txTime, .fits 64 p.addr,
   .payload 4096 p.payload]

/-- What an error of an SRAM structure names (17 Tables 17-1 and 17-2). -/
def sramOperands : SramUnit → List Operand
  | .coreControl k => [.core k]
  | .coreLine k _ _ _ => [.core k]
  | .coreTag k _ _ => [.core k]
  | .coreScratch k _ => [.core k]
  | .cellarLine c _ way _ _ => [.cellar c, .way way]
  | .cellarTag c _ way _ => [.cellar c, .way way]
  | .cellarScratch c _ => [.cellar c]
  | .cellarControl c => [.cellar c]
  | .directory q _ => [.fits 2 q]
  | .nocHeader _ => []
  | .nocData _ sector => [.fits 2 sector]

def homeOperands : Home → List Operand
  | .shelf n => [.shelf n]
  | .far p => [.farPort p]

/-- The numbers that a command names things by. -/
def Instr.operands (i : Instr) : List Operand :=
  match i with
  | .doorbellPost m | .doorbellAbort m | .doorbellRelease m => [.mailbox m]
  | .doorbellIgnoredAction m action => [.mailbox m, .fits 8 action]
  | .cpTakeMailbox _ | .seqCloseComplete _ | .lcVariant _ | .lcLifecycle _ | .lcAntiRollback _ | .lcAtticRepairMap _
  | .lcAtticProfile _ | .mbRequest _ | .deviceReset _ | .getVersion _ | .getCapabilities _ | .negotiateAlgorithms _
  | .getDigests _ | .getCertificate _ | .challenge _ | .getMeasurements _ | .keyExchange _ | .finish _
  | .spdmKeyUpdate _ | .spdmHeartbeat _ | .endSession _ | .pldmSensorRead _ | .updateComponent _ | .stepComplete _
  | .pageMoveLand _ | .pageZeroingDone _ | .collectiveTimeout _ | .transactionCompletionReturn _ | .faultTimeout _
  | .unmapFlushReadDone _ | .ackTimer _ | .peerUnreachable _ | .unreachableEnd _ | .handshakeRetry _
  | .associationRenewal _ | .coldReset _ | .hostPerst _ | .functionLevelReset _ | .cpWatchdog _ | .railFault _ | .sensorsCooled _ | .hostConfigWrite _ | .hostLinkUp _ | .nocHeaderFlitTimeout _ | .fwStageDone _
  | .modelUnbindDone _ | .fuseProgrammingDone _ | .sgmiiLinkChange _ => []
  | .hello c | .eqCreate c | .eqDestroy c | .partitionCreate c | .partitionDestroy c | .partitionReset c
  | .partitionPolicySet c | .modelBind c | .modelUnbind c | .seqOpen c | .seqClose c | .stepSubmit c | .mapHost c
  | .unmapHost c | .faultRespond c | .peerWindowSet c | .peerWindowClear c | .peerAdmitSet c | .linkQuery c
  | .linkRetrain c | .linkModeSet c | .qosSet c | .timeQuery c | .timePeriodSet c | .timeRoleSet c
  | .timeBackgroundSet c | .powerQuery c | .powerCapSet c | .powerDomainSet c | .fwActivate c => [.channel c]
  | .eqDestroyDrained seq | .unmapHostDrained seq | .peerWindowClearDrained seq | .eventAck seq => [.fits 32 seq]
  | .partitionTransitionDone p | .partitionDestroyDone p => [.partition p]
  | .partitionQuery c _ | .imageLoad c _ | .fwStage c _ => [.channel c]
  | .imageChunkBitmap _ core _ | .coreDigestCheckDone _ core _ => [.core core]
  | .modelBindSeDone seq _ => [.fits 32 seq]
  | .attest c _ _ => [.channel c]
  | .fwActivateSwitch | .activateFirmware | .strumBoundary | .fretEdge | .holdoverTimeout | .hostLinkTimeout
  | .cpIdleTimeout | .smbusAddressMatch | .i3cAddressMatch | .coldResetAssert => []
  | .eqConsumerWrite q index _ => [.queue q, .fits 32 index]
  | .msixTableWrite v word value => [.vector v, .vectorWord word, .fits 32 value]
  | .shelfRepairSoft shelf row | .shelfRepairHard shelf row | .shelfRepairCancelHard shelf row =>
    [.shelf shelf, .fits 32 row]
  | .softRepairDone shelf _ => [.shelf shelf]
  | .pwrCmpWrite k value | .comparatorAssert k value | .comparatorDeassert k value => [.comparator k, .fits 64 value]
  | .registerWrite addr size value | .regWrite addr size value => [.fits 64 addr, .size size, .fits 64 value]
  | .bar2Access _ addr _ => [.fits 64 addr]
  | .regRead addr size => [.fits 64 addr, .size size]
  | .setEndpointId eid => [.fits 8 eid]
  | .nop i | .exit i | .yield i | .mregionEnd i | .mzero i => issueOperands i
  | .bra i _ => issueOperands i
  | .brx i sa _ _ => issueRegs i [sa]
  | .split i slot | .join i slot => issueOperands i ++ [.slot slot]
  | .shflIdx i _ dst sa sb sc | .shflUp i _ dst sa sb sc | .shflDown i _ dst sa sb sc | .shflXor i _ dst sa sb sc
  | .fpOp i _ dst sa sb sc => issueRegs i [dst, sa, sb, sc]
  | .voteAll i dst pin _ sc | .voteAny i dst pin _ sc | .voteBallot i dst pin _ sc =>
    issueRegs i [dst, sc] ++ [.predicate pin]
  | .match32 i dst sa sc | .match64 i dst sa sc => issueRegs i [dst, sa, sc]
  | .atomAdd i f dst sa sb | .atomMin i f dst sa sb | .atomMax i f dst sa sb | .atomAnd i f dst sa sb
  | .atomOr i f dst sa sb | .atomXor i f dst sa sb | .atomExch i f dst sa sb | .atomInc i f dst sa sb
  | .pegArrive i f dst sa sb | .pegSignal i f dst sa sb => issueRegs i [dst, sa, sb] ++ [.predicate f.pdst]
  | .atomCas i f dst sa sb sc => issueRegs i [dst, sa, sb, sc] ++ [.predicate f.pdst]
  | .pegWait i f sa sb => issueRegs i [sa, sb] ++ [.predicate f.pdst]
  | .pegReset i f sa => issueRegs i [sa] ++ [.predicate f.pdst]
  | .pegRead i f dst sa => issueRegs i [dst, sa] ++ [.predicate f.pdst]
  | .fence i _ _ => issueOperands i
  | .releaseWritebackAcked core _ | .loadDataReturn core _ => [.core core]
  | .mregionBegin i sc _ => issueRegs i [sc]
  | .anchor i sa _ => issueRegs i [sa]
  | .mma i _ sa sb sc => issueRegs i [sa, sb, sc]
  | .mexport i _ _ sa => issueRegs i [sa]
  | .mexportWide i sa => issueRegs i [sa]
  | .intOp i _ _ dst sa sb sc => issueRegs i [dst, sa, sb, sc]
  | .cvt i _ _ rd ra _ _ => issueRegs i [rd, ra]
  | .ld i _ dst sa => issueRegs i [dst, sa]
  | .st i _ sa sb => issueRegs i [sa, sb]
  | .mov i dst _ | .specialRead i dst _ => issueRegs i [dst]
  | .cacheFillArrival at_ => (match at_ with | .cellar c _ => [.cellar c] | .core k _ => [.core k])
  | .trackerIdleTimeout cellar _ | .fill cellar _ | .clean cellar _ | .inval cellar _ | .cleanInval cellar _
  | .wayLock cellar _ | .wayUnlock cellar _ | .get cellar _ | .signal cellar _ | .allreduce cellar _
  | .alltoall cellar _ | .moverDescriptorDone cellar _ => [.cellar cellar]
  | .preemptSaveDone core | .coreHang core => [.core core]
  | .copy cellar _ _ | .compress cellar _ _ | .decompress cellar _ _ | .gather cellar _ _ | .put cellar _ _ =>
    [.cellar cellar]
  | .routeDispatched _ _ | .combine _ _ | .walkEntryRead _ _ | .adUpdateCasReturn _ _ | .busyBackoffExpiry _ _
  | .thermalTrip _ _ => []
  | .shelfAccess _ _ _ | .farTierAccess _ _ _ | .guaranteeMiss _ _ _ | .leakyBucketLeak _ _ _ => []
  | .wcbAgeFlush home _ _ _ => homeOperands home
  | .farDeviceFailed port device => [.farPort port, .farDecoder device]
  | .shelfChannelRetrain shelf channel => [.shelf shelf, .shelfChannel channel]
  | .shelfChannelRetrained shelf channel _ => [.shelf shelf, .shelfChannel channel]
  | .masterPortIssue master => [.master master]
  | .eqCoalesceTimer q => [.queue q]
  | .eqRecordWrite q _ => [.queue q]
  | .rdShared site m | .rdOwn site m | .wrNc site m | .wbDirty site m | .evictClean site m | .atpAtomic site m
  | .pegOp site m | .atpStepDone site m | .stepSaved site m | .urgency site m | .snpRsp site m | .atpRsp site m =>
    [.site site] ++ atpOperands m
  | .rdNc site m _ => [.site site] ++ atpOperands m
  | .powerReport site _ | .atticLinkDown site _ | .dieStepTimeout site _ | .atticLinkUp site _ => [.site site]
  | .dieCap site _ _ | .laneMap site _ _ => [.site site]
  | .heartbeat site epoch => [.site site, .fits 32 epoch]
  | .resetReq site | .atticSidebandTimeout site | .dieHeartbeatTimeout site | .dieCreditTimeout site
  | .dieSnoopTimeout site | .vddAtticFault site | .vddAtticGood site | .dieCapTimeout site => [.site site]
  | .markerReceived engine _ | .flit engine _ | .llCap engine _ | .keyFinish engine _ | .keyUpdate engine _
  | .routeAdv engine _ => [.engine engine]
  | .laneLoss engine lane _ => [.engine engine, .lane lane]
  | .trainingTimeout engine | .timeWordTimeout engine | .replayTimeout engine | .flitKeepalive engine
  | .keyUpdateTrigger engine => [.engine engine]
  | .ethPortLaneLoss engine lane | .cdrLocked engine lane => [.engine engine, .lane lane]
  | .ptpMessage engine _ _ | .confirm engine _ _ | .neighbourSolicitation engine _ _ | .echoRequest engine _ _ =>
    [.engine engine]
  | .keyHello engine node _ => [.engine engine, .fits 32 node]
  | .routeAgeOut engine node => [.engine engine, .fits 32 node]
  | .forward engine p | .chordWrite engine p | .readReq engine p | .readRsp engine p | .chordAtomic engine p
  | .atomicRsp engine p | .chordPeg engine p | .done engine p | .step engine p | .stepCancel engine p
  | .stepDone engine p | .coll engine p | .nack engine p => [.engine engine] ++ packetOperands p
  | .ack engine p _ => [.engine engine] ++ packetOperands p
  | .retransmissionTimeout _ psn => [.fits 32 psn]
  | .init engine ipv6 remoteId _ => [.engine engine, .fits 128 ipv6, .fits 32 remoteId]
  | .resp engine _ remoteId _ => [.engine engine, .fits 32 remoteId]
  | .farZeroingDone port decoder => [.farPort port, .farDecoder decoder]
  | .sramUncorrectable u => sramOperands u
  | .retestDone cellar core _ =>
    [.cellar cellar] ++ (match core with | none => [] | some k => [.core k])
  | .scrubRead at_ _ _ => (match at_ with | .memory a => [.fits 48 a] | .sram u => sramOperands u)
  | .powerDomainEntryDone d => [.domain d]
  | .powerDomainOn d _ => [.domain d]
  | .shelfZeroingDone shelf => [.shelf shelf]
  | .scrubSegmentDue structure_ => [.structure_ structure_]

/-- A command is well formed. -/
def Instr.wf (i : Instr) : Bool := i.operands.all Operand.ok

end Sys2Proof
end

