-- ==== Sys2Proof/Certificates/Slice0/Obligations.lean ====
section
/-! DEFINITION. The statements about the block, one definition each. -/
open Sys2Proof Sys2Proof.Machine

/-- A TIME_QUERY completes OK with the time base (the boundary time on a partition's mailbox), the boundary time,
TIME_STATUS and TIME_OFFSET, and changes nothing of the time block. A TIME_PERIOD_SET that passes its checks commits
and schedules the period for its effective time; a TIME_ROLE_SET and a TIME_BACKGROUND_SET of valid fields commit and
leave their values for the next boundary; nothing else of the time block changes. A TIME_PERIOD_SET of a period
outside 4 to 512 or with a reserved bit set ends with BAD_FIELD; one that meets a pending change with another
effective time with TIME_PENDING_CONFLICT; one whose effective time is no multiple of both periods, lies before one
old period after the taking or more than 2^32 units after it, with TIME_BAD_EFFECTIVE: then nothing of the time block
changes. A TIME_ROLE_SET whose DONE does not follow its commit at once stays TAKEN with its effect made; once it has
committed it ends with its own status under its COMMIT_SEQ, also where an ABORT waits. That the input of the taking says
so is the model's choice (assumption log entry 57).
Rests on 02_strum_timebase.md R33, 02_strum_timebase.md R45, 02_strum_timebase.md R55, 15_security.md R437,
03_control_processor_mailboxes.md R71. -/
def Obligations.TimeCommandsAnswer : Prop :=
  ∀ (c : Nat) (s : State) (t : Taken),
    (runs s c 0x0800 t → ∃ s', exec (.timeQuery c) s = .next s' ∧ s'.time = s.time ∧
      answers s s' c t .ok 0 ((if t.ctx ≠ 0 ∧ t.mgmt = false then s.time.boundaryTime else s.time.now)
        + field s.time.boundaryTime 64 64 + field (timeStatusWord s.time) 128 64 + field (timeOffsetWord s.time) 192 64)) ∧
    (runs s c 0x0801 t →
      periodSetRefused s.time t.takenAt (bbits t.req 0 10) (bbits t.req 64 64) (bbits t.req 10 54) = none →
      ∃ s', exec (.timePeriodSet c) s = .next s' ∧ answers s s' c t .ok (commit s).2 0 ∧
        s'.time = { s.time with
          pendingSteps := bbits t.req 0 10, changePending := true, changeTime := bbits t.req 64 64 }) ∧
    (runs s c 0x0802 t → bbits t.req 0 2 ≠ 3 → bbits t.req 19 13 = 0 →
      ∃ s', exec (.timeRoleSet c) s = .next s' ∧ answers s s' c t .ok (commit s).2 0 ∧
        s'.time = { s.time with roleSet := some ⟨bbits t.req 0 2, bbits t.req 2 8, bbits t.req 10 1 == 1,
          bbits t.req 11 8, bbits t.req 32 32⟩ }) ∧
    (runs s c 0x0803 t → bbits t.req 1 63 = 0 →
      ∃ s', exec (.timeBackgroundSet c) s = .next s' ∧ answers s s' c t .ok (commit s).2 0 ∧
        s'.time = { s.time with backgroundSet := some (bbits t.req 0 1 == 1) }) ∧
    (∀ p e : Nat, runs s c 0x0801 t → p = bbits t.req 0 10 → e = bbits t.req 64 64 →
      let refuses := fun (st : Status) => ∃ s', exec (.timePeriodSet c) s = .next s' ∧ answers s s' c t st 0 0 ∧
        s'.time = s.time
      (p < 4 ∨ 512 < p ∨ bbits t.req 10 54 ≠ 0 → refuses .badField) ∧
      (4 ≤ p → p ≤ 512 → bbits t.req 10 54 = 0 → s.time.changePending = true → s.time.changeTime ≠ e →
        refuses .timePendingConflict) ∧
      (4 ≤ p → p ≤ 512 → bbits t.req 10 54 = 0 → s.time.changePending = false →
        (e % (s.time.periodSteps * 32000) ≠ 0 ∨ e % (p * 32000) ≠ 0 ∨ e < t.takenAt + s.time.periodSteps * 32000 ∨
          t.takenAt + 2 ^ 32 < e) → refuses .timeBadEffective)) ∧
    (takenCmd s c 0x0802 = some t → (chanOf s c).abortRequested = false → t.ended = none → t.lateDone = true →
      bbits t.req 0 2 ≠ 3 → bbits t.req 19 13 = 0 →
      ∃ s', exec (.timeRoleSet c) s = .next s' ∧ s'.time.roleSet = some ⟨bbits t.req 0 2, bbits t.req 2 8,
          bbits t.req 10 1 == 1, bbits t.req 11 8, bbits t.req 32 32⟩ ∧
        (chanOf s' c).state = .taken ∧
        (chanOf s' c).taken = some { t with commitSeq := some (commit s).2, ended := some (.ok, 0, []) }) ∧
    (∀ code result resp, takenCmd s c 0x0802 = some t → t.ended = some (code, result, resp) →
      ∃ s', exec (.timeRoleSet c) s = .next s' ∧ answers s s' c t code (t.commitSeq.getD 0) result ∧ s'.time = s.time)

/-- With the hub READY, its clocks running and no acquisition step due, STRUM_BOUNDARY moves the time base to the next
integer multiple of PERIOD_STEPS x 32,000, makes that the boundary time, starts fret 0, counts one strum, and takes a
pending period whose effective time has come. FRET_EDGE of a strum that runs moves to the next fret, and the time base
to at least the boundary plus the fret's number x PERIOD_STEPS x 500.
Rests on 02_strum_timebase.md R24, 02_strum_timebase.md R26, 02_strum_timebase.md R27, 02_strum_timebase.md R55. -/
def Obligations.BoundaryAndFrets : Prop :=
  ∀ s : State, s.boot.stopped = false → s.boot.coldResetLow = false → s.boot.stage = .ready →
    (s.time.stepPending = none → ∃ t nb, exec .strumBoundary s = .next t ∧
      nb = (s.time.now / (s.time.periodSteps * 32000) + 1) * (s.time.periodSteps * 32000) ∧
      t.time.now = nb % 2 ^ 64 ∧ t.time.boundaryTime = nb % 2 ^ 64 ∧ t.time.fret = 0 ∧
      t.time.strumCount = (s.time.strumCount + 1) % 2 ^ 64 ∧
      t.time.periodSteps = (if s.time.changePending = true ∧ s.time.changeTime ≤ nb then s.time.pendingSteps
        else s.time.periodSteps)) ∧
    (s.time.fret < 63 → 0 < s.time.strumCount → ∃ t, exec .fretEdge s = .next t ∧ t.time.fret = s.time.fret + 1 ∧
      t.time.now = max (s.time.boundaryTime + (s.time.fret + 1) * s.time.periodSteps * 500) s.time.now % 2 ^ 64 ∧
      t.time.strumCount = s.time.strumCount ∧ t.time.boundaryTime = s.time.boundaryTime)

/-- When time words stop on the selected link of a device that follows and no other link carries the same master, the
device enters HOLDOVER and RESERVED_FALLBACK is set; a link that is not the selected one is dropped and STATE stays.
HOLDOVER that lasts enters DEGRADED. An IEEE 1588 message of the configured domain on an up Ethernet-mode engine is
stamped; a Delay_Resp that answers the hub's last Delay_Req, with the times of the Sync known, makes the device
referenced and gives the offset of the delay request-response mechanism.
Rests on 02_strum_timebase.md R49, 02_strum_timebase.md R50, 02_strum_timebase.md R51, 02_strum_timebase.md R52. -/
def Obligations.LosingTheTimeMaster : Prop :=
  (∀ (e : Nat) (s : State), s.time.selEngine = e → (s.time.tstate = .acquiring ∨ s.time.tstate = .locked) →
    bestLink (candidateLinks { s.time with links := tmod s.time.links e {} (fun l => { l with cand := none }) })
      s.time.gmId = none →
    ∃ t, exec (.timeWordTimeout e) s = .next t ∧ t.time.tstate = .holdover ∧ t.time.fallback = true ∧
      t.time.gmId = s.time.identity ∧ t.time.gmClass = 2 ∧ t.time.hops = 0) ∧
  (∀ (e : Nat) (s : State), s.time.selEngine ≠ e →
    ∃ t, exec (.timeWordTimeout e) s = .next t ∧ (tget t.time.links e {}).cand = none ∧ t.time.tstate = s.time.tstate) ∧
  (∀ s : State, s.time.tstate = .holdover →
    ∃ t, exec .holdoverTimeout s = .next t ∧ t.time.tstate = .degraded ∧ t.time.fallback = true) ∧
  (∀ (e domain : Nat) (m : PtpIn) (s : State), (engineOf s e).estate = .up → isEthernet (engineOf s e) = true →
    s.time.ethPtpEn = true → domain = s.time.ptpDomain → s.time.role ≠ 2 →
    ∃ t, exec (.ptpMessage e m domain) s = .next t ∧ t.time.ptpStamp = s.time.now ∧
      (m.kind = .delayResp → m.seq = s.time.ptp.delaySeq → ∀ t1 t3 : Nat, s.time.ptp.t1 = some t1 →
        s.time.ptp.t3 = some t3 → t.time.referenced = true ∧
        t.time.offset = (((m.time : Int) - m.correction - t3) - ((s.time.ptp.t2 : Int) - t1)) / 2))

/-- For every state in which the rate adjustment lies within ±200 ppm, the fret is at most 63, PERIOD_STEPS lies
within 4 to 512 and a pending period too: if step answers a next state, all of this holds in it, whatever command is
at the front of the queue.
Rests on 02_strum_timebase.md R22, 02_strum_timebase.md R24, 02_strum_timebase.md R25, 02_strum_timebase.md R55. -/
def Obligations.TimeBaseStaysLegal : Prop :=
  ∀ s s' : State, timeLegal s → step s = .next s' → timeLegal s'

/-- For every command c, every rest of the queue and every state s: when the queue of s is c followed by the rest,
step s is exec c on s with the queue's rest. The queue is the model's own (its first entry is the command that arrives
next).
Rests on 00_scope.md, spec/opcode_table.json. -/
def Obligations.StepRunsFrontCommand : Prop :=
  ∀ (c : Instr) (rest : List Instr) (s : State), s.pending = c :: rest →
    step s = exec c { s with pending := rest }

/-- For every state whose queue is empty, step answers a next state with an empty queue, and TIME_NOW
rises by one unless cold reset holds it or the next fret edge or boundary is due, which has a command of its own. Only
what the markers of the native engines touch changes with it: no register block, memory, core, larder, translation or
attic state does; and where no native engine trains or is up, nothing but TIME_NOW. That
an idle step counts one unit is the model's choice (assumption log entry 2).
Rests on 02_strum_timebase.md R22, 13_chord_physical.md R347. -/
def Obligations.EmptyQueueTicks : Prop :=
  ∀ s : State, s.pending = [] →
    ∃ t, step s = .next t ∧ t.pending = [] ∧
      (∀ k : Component, k ∉ [Component.time, .cp, .mgmt, .link, .chord, .fresh, .out] → unchanged k s t) ∧
      ((∀ e, e < 12 → (engineOf s e).estate = .training ∨ (engineOf s e).estate = .up →
          isEthernet (engineOf s e) = true ∨ domainLive s (domEngine e) = false) →
        t = { s with time := { s.time with now := t.time.now } }) ∧
      (s.boot.coldResetLow = false → s.time.now + 1 < nextEdge s.time → t.time.now = (s.time.now + 1) % 2 ^ 64) ∧
      (s.boot.coldResetLow = true ∨ nextEdge s.time ≤ s.time.now + 1 → t.time.now = s.time.now)

/-- While the host reaches the register space and no write of its own is still on its way: a POST to a FREE mailbox makes it POSTED with its request area as it
was; an ABORT to a POSTED mailbox ends it DONE with ABORTED in the window and no COMMIT_SEQ; an ABORT to a TAKEN
mailbox sets ABORT_REQUESTED and leaves it TAKEN; a RELEASE of a DONE mailbox makes it FREE and its window and
response area read zero. Every other channel keeps all it holds. While a write into the BAR2 window is on its way, a
doorbell write is kept behind it and nothing else changes.
Rests on 03_control_processor_mailboxes.md R64, 03_control_processor_mailboxes.md R66, 08_address_map_shelves.md R239. -/
def Obligations.DoorbellTransitions : Prop :=
  ∀ (m : Nat) (s : State), m < 64 → hostReaches s = true →
    (hostWritesOut s = true → exec (.doorbellPost m) s = .next { s with mem := { s.mem with
      heldDoorbells := s.mem.heldDoorbells ++ [(0x0100F48 + m * 0x1000, 8, 1)] } }) ∧
    (hostCaughtUp s → (chanOf s m).state = .free → ∃ t, exec (.doorbellPost m) s = .next t ∧
      (chanOf t m).state = .posted ∧ (chanOf t m).req = (chanOf s m).req ∧ ∀ k, k ≠ m → chanOf t k = chanOf s k) ∧
    (hostCaughtUp s → (chanOf s m).state = .posted → ∃ t, exec (.doorbellAbort m) s = .next t ∧
      (chanOf t m).state = .done ∧ (∃ r, (chanOf t m).window = some r ∧ r.code = 0x0002 ∧ r.commitSeq = 0) ∧
      ∀ k, k ≠ m → chanOf t k = chanOf s k) ∧
    (hostCaughtUp s → (chanOf s m).state = .taken → ∃ t, exec (.doorbellAbort m) s = .next t ∧
      (chanOf t m).state = .taken ∧ (chanOf t m).abortRequested = true ∧ (chanOf t m).taken = (chanOf s m).taken ∧
      ∀ k, k ≠ m → chanOf t k = chanOf s k) ∧
    (hostCaughtUp s → (chanOf s m).state = .done → ∃ t, exec (.doorbellRelease m) s = .next t ∧
      (chanOf t m).state = .free ∧ (chanOf t m).window = none ∧ (chanOf t m).resp = [] ∧
      ∀ k, k ≠ m → chanOf t k = chanOf s k)

/-- For each of the four doorbell commands, in every state of the mailbox for which Table 3-3 lists no such action
(and for every ACTION value that is none of POST, ABORT and RELEASE, in every state): the command completes, the
mailbox is as it was but for IGNORED_ACTIONS, which is one more or stays at 0xFFFF, and no other channel changes.
Formalises R65. -/
def Obligations.UnlistedDoorbellsCounted : Prop :=
  ∀ (m : Nat) (s : State), m < 64 → hostReaches s = true → hostCaughtUp s →
    let ignores := fun (i : Instr) => ∃ t, exec i s = .next t ∧
      chanOf t m = { chanOf s m with ignored := min ((chanOf s m).ignored + 1) 0xFFFF } ∧
      ∀ k, k ≠ m → chanOf t k = chanOf s k
    ((chanOf s m).state ≠ .free → ignores (.doorbellPost m) ∧ ignores (.doorbellIgnoredAction m 0x01)) ∧
    ((chanOf s m).state = .free ∨ (chanOf s m).state = .done →
      ignores (.doorbellAbort m) ∧ ignores (.doorbellIgnoredAction m 0x02)) ∧
    ((chanOf s m).state ≠ .done → ignores (.doorbellRelease m) ∧ ignores (.doorbellIgnoredAction m 0x03)) ∧
    (∀ action, action < 256 → action ≠ 0x01 → action ≠ 0x02 → action ≠ 0x03 →
      ∃ t, exec (.doorbellIgnoredAction m action) s = .next t ∧
        chanOf t m = { chanOf s m with ignored := min ((chanOf s m).ignored + 1) 0xFFFF } ∧
        ∀ k, k ≠ m → chanOf t k = chanOf s k)

/-- With the hub READY, the CP domain on, fewer than eight commands TAKEN and an inline request at the next POSTED
mailbox c: when the checks of R546 pass and the command needs no owner, the mailbox becomes TAKEN with the copied
header and request and is the last one taken; when the mailbox has no session and the opcode is not HELLO, it is DONE
with NO_SESSION.
Rests on 03_control_processor_mailboxes.md R67, 03_control_processor_mailboxes.md R81,
03_control_processor_mailboxes.md R546. -/
def Obligations.TakingACommand : Prop :=
  ∀ (inp : TakeInput) (s : State) (c : Nat) (h : Hdr),
    bootServes s = false → isReady s = true → domainOn s 101 = true → s.cp.stopTaking = false → takenCount s < 8 →
    inp.mgmt = false → nextPosted s = some c →
    h = hdrOf (areaBytes (chanOf s c).req 0 64) → h.reqByRef = false → h.authRef = 0 →
    (∀ b : Bytes, b = areaBytes (chanOf s c).req 0x40 (min h.reqLen 3008) →
      earlyChecks s c h (some b) = none →
      stateChecks s c
        { hdr := h, req := b, ctx := (chanOf s c).owner, takenAt := s.time.now, lateDone := inp.lateDone } = none →
      needsOwner h.opcode = false →
      ∃ t, exec (.cpTakeMailbox inp) s = .next t ∧ t.cp.lastTaken = c ∧ (chanOf t c).state = .taken ∧
        (chanOf t c).taken = some
          { hdr := h, req := b, ctx := (chanOf s c).owner, takenAt := s.time.now, lateDone := inp.lateDone } ∧
        ∀ k, k ≠ c → chanOf t k = chanOf s k) ∧
    ((chanOf s c).session = false → h.opcode ≠ 0x0001 →
      ∃ t, exec (.cpTakeMailbox inp) s = .next t ∧ (chanOf t c).state = .done ∧
        ∃ r, (chanOf t c).window = some r ∧ r.code = 0x0003 ∧ r.tag = h.tag ∧ r.commitSeq = 0)

/-- A well-formed HELLO that offers major 1 completes OK with the next COMMIT_SEQ; on a mailbox the session bit is set
with version 1.0 and IGNORED_ACTIONS is cleared, and RESULT[15:0] holds major 1 and minor 0. One that offers no major
1 completes VERSION_MISMATCH with the mask of supported majors and leaves the session version as it was. That the hub
offers command set 1.0 alone is logged (assumption log entry 13).
Rests on 03_control_processor_mailboxes.md R81, 03_control_processor_mailboxes.md R82. -/
def Obligations.HelloSetsSession : Prop :=
  ∀ (c : Nat) (s : State) (t : Taken), runs s c 0x0001 t → helloWellFormed t.req = true →
    (((helloPairs t.req).any (fun p => p.1 == 1)) = true →
      ∃ s' res, exec (.hello c) s = .next s' ∧ answers s s' c t .ok (commit s).2 res ∧ res % 2 ^ 16 = 1 ∧
        (isMgmt c = false → (chanOf s' c).session = true ∧ (chanOf s' c).sessionMajor = 1 ∧
          (chanOf s' c).sessionMinor = 0 ∧ (chanOf s' c).ignored = 0)) ∧
    (((helloPairs t.req).any (fun p => p.1 == 1)) = false →
      ∃ s', exec (.hello c) s = .next s' ∧ answers s s' c t .versionMismatch 0 2 ∧
        (isMgmt c = false → (chanOf s' c).session = (chanOf s c).session ∧
          (chanOf s' c).sessionMajor = (chanOf s c).sessionMajor ∧ (chanOf s' c).ignored = (chanOf s c).ignored))

/-- An EQ_CREATE whose checks pass completes OK and its queue is ACTIVE with both indices 0, ARM clear and the fields
of the request; with DEFAULT clear every other queue is unchanged unless it receives the copy of the completion. An
EQ_DESTROY of a queue of the context that has no users is accepted and the queue no longer exists. When the ring
writes have landed the final record of that command is written with OK.
Rests on 03_control_processor_mailboxes.md R72, 03_control_processor_mailboxes.md R78,
03_control_processor_mailboxes.md R86. -/
def Obligations.EventQueueLifecycle : Prop :=
  (∀ (c : Nat) (s : State) (t : Taken), runs s c 0x0010 t → eqCreateRefused s t = none →
    ∃ s' q, exec (.eqCreate c) s = .next s' ∧ answers s s' c t .ok (commit s).2 q ∧
      tfree (s.cp.eqs.filter (fun e => e.2.state != .none)) 0 512 = some q ∧
      (t.hdr.eqCopy = false → eqOf s' q = {
          state := .active, base := bbits t.req 0 64, pasid := bbits t.req 64 20, log2Size := bbits t.req 88 5, vector := bbits t.req 96 11, coalesceCount := bbits t.req 112 8 + 1,
          coalesceUs := bbits t.req 128 10, isDefault := bbits t.req 144 1 == 1, owner := t.ctx }) ∧
      (t.hdr.eqCopy = false → bbits t.req 144 1 = 0 → ∀ k, k ≠ q → eqOf s' k = eqOf s k)) ∧
  (∀ (c : Nat) (s : State) (t : Taken), runs s c 0x0011 t → bbits t.req 9 55 = 0 →
    (eqOf s (bbits t.req 0 9)).state ≠ .none → (eqOf s (bbits t.req 0 9)).owner = t.ctx →
    eqUsers s (bbits t.req 0 9) = 0 → t.hdr.eqCopy = false →
    ∃ s', exec (.eqDestroy c) s = .next s' ∧ accepts s s' c t ∧ (eqOf s' (bbits t.req 0 9)).state = .none ∧
      ∀ k, k ≠ bbits t.req 0 9 → eqOf s' k = eqOf s k) ∧
  (∀ (s : State) (n : Nat) (a : Async), asyncOf s n = some a → a.opcode = 0x0011 →
    ∃ s', exec (.eqDestroyDrained n) s = .next s' ∧ s' = finalize s n .ok 0 ∧ asyncOf s' n = none)

/-- For every queue and every write of EQ_CONSUMER, no earlier register write of the host waiting, that would move INDEX past EQ_PRODUCER.INDEX or backward (its
distance from the consumer, modulo 2^32, exceeds the number of written records): the write completes, the consumer
index stays, and the ARM bit of the same write takes effect: on a queue that exists with unread records it sends the
queue's message and clears itself, else it stays set. A write with ARM 0 leaves ARM as it was.
Formalises R73. -/
def Obligations.ConsumerWriteRules : Prop :=
  ∀ (q index : Nat) (arm : Bool) (s : State), q < 512 → hostReaches s = true → s.mem.heldDoorbells = [] →
    idxDiff (eqOf s q).producer (eqOf s q).consumer < idxDiff (index % 2 ^ 32) (eqOf s q).consumer →
    ∃ t, exec (.eqConsumerWrite q index arm) s = .next t ∧ (eqOf t q).consumer = (eqOf s q).consumer ∧
      (eqOf t q).producer = (eqOf s q).producer ∧
      (eqOf t q).arm = (if arm then
          !((eqOf s q).state != .none && (eqOf s q).producer != (eqOf s q).consumer) else (eqOf s q).arm)

/-- The hub writes the oldest waiting record of an ACTIVE queue that is not full, its ring within the context's reach, to
the slot of the producer index, which then advances; without earlier register writes of the host that wait, a consumer write within the written records moves the index; the coalescing timer of an armed
queue with unsignalled records sends its vector's message and clears ARM; a write of vector control unmasks a vector
and sends its pending message, and a write of the data word sets it.
Rests on 03_control_processor_mailboxes.md R69, 03_control_processor_mailboxes.md R73,
03_control_processor_mailboxes.md R76, 03_control_processor_mailboxes.md R77. -/
def Obligations.EventQueueTraffic : Prop :=
  (∀ (q : Nat) (s : State) (r : Record) (rest : List Record), (eqOf s q).state = .active → s.boot.stopped = false →
    hostSilent s = false → slotReachable s (eqOf s q) = true → (eqOf s q).dropped = 0 → (eqOf s q).waiting = r :: rest → eqFull (eqOf s q) = false →
    ∃ t, exec (.eqRecordWrite q true) s = .next t ∧ (eqOf t q).producer = ((eqOf s q).producer + 1) % 2 ^ 32 ∧
      (eqOf t q).waiting = rest ∧
      Out.record q ((eqOf s q).producer % 2 ^ (eqOf s q).log2Size) { r with recordSeq := (eqOf s q).producer % 2 ^ 31 }
        ∈ t.out) ∧
  (∀ (q index : Nat) (s : State), q < 512 → hostReaches s = true → s.mem.heldDoorbells = [] →
    idxDiff (index % 2 ^ 32) (eqOf s q).consumer ≤ idxDiff (eqOf s q).producer (eqOf s q).consumer →
    ∃ t, exec (.eqConsumerWrite q index false) s = .next t ∧ (eqOf t q).consumer = index % 2 ^ 32 ∧
      (eqOf t q).arm = (eqOf s q).arm ∧ t.out = s.out) ∧
  (∀ (q : Nat) (s : State), (eqOf s q).state = .active → (eqOf s q).arm = true → 0 < (eqOf s q).sinceMsg →
    s.boot.stopped = false → (tget s.cp.msix (eqOf s q).vector {}).masked = false → hostSilent s = false →
    ∃ t, exec (.eqCoalesceTimer q) s = .next t ∧ (eqOf t q).arm = false ∧ (eqOf t q).sinceMsg = 0 ∧
      t.out = .msix (eqOf s q).vector (tget s.cp.msix (eqOf s q).vector {}).addr
        (tget s.cp.msix (eqOf s q).vector {}).data :: s.out) ∧
  (∀ (v value : Nat) (s : State), v < 2048 → hostReaches s = true → s.mem.heldDoorbells = [] →
    (∃ t, exec (.msixTableWrite v 2 value) s = .next t ∧ (tget t.cp.msix v {}).data = value % 2 ^ 32) ∧
    (value % 2 = 0 → hostSilent s = false → (tget s.cp.msix v {}).pendingBit = true →
      ∃ t, exec (.msixTableWrite v 3 value) s = .next t ∧ (tget t.cp.msix v {}).masked = false ∧
        (tget t.cp.msix v {}).pendingBit = false ∧
        t.out = .msix v (tget s.cp.msix v {}).addr (tget s.cp.msix v {}).data :: s.out))

/-- For every issue that finds threads whose operands are there: an INT, FP or CVT operation, a MOV, a MOVI and a READ
of a special register complete; every thread whose guard is true holds the operation's result in the destination (VZ
discards it), or the comparison's outcome in the destination predicate; those threads and the ones whose guard is
false go on at the next word; no other register and no other predicate of the group changes.
Rests on 04_cellar_cores.md R92, 04_cellar_cores.md R93, 04_cellar_cores.md R95, 04_cellar_cores.md R99. -/
def Obligations.KernelRegisterOps : Prop :=
  ∀ (i : Issue) (s : State) (g : Group) (act off : List Nat), i.pred < 8 → stays g i act off →
    (∀ (o : IntOp) (wide : Bool) (dst sa sb sc : Nat) (l : List Nat),
      l = dst :: ([sa] ++ (if (intSources o).1 then [sb] else []) ++ (if (intSources o).2 then [sc] else [])) →
      (if wide then pairsOk (declaredRegs s i.core) l else regsOk (declaredRegs s i.core) l) = true →
      issues s i (l.flatMap (wideRegs wide)) [] noWait g act off →
      ∃ t, exec (.intOp i (.op o) wide dst sa sb sc) s = .next t ∧
        ranReg t i g act off wide dst (fun u => intOp o (if wide then 64 else 32) (wideRead g wide sa u)
          (wideRead g wide sb u) (wideRead g wide sc u))) ∧
    (∀ (k : Cmp) (sgn wide : Bool) (dst sa sb sc : Nat), dst < 8 →
      (if wide then pairsOk (declaredRegs s i.core) [sa, sb] else regsOk (declaredRegs s i.core) [sa, sb]) = true →
      issues s i ([sa, sb].flatMap (wideRegs wide)) [dst] noWait g act off →
      ∃ t, exec (.intOp i (.cmp k sgn) wide dst sa sb sc) s = .next t ∧
        ranPred t i g act off dst (fun u => intCmp k sgn (if wide then 64 else 32) (wideRead g wide sa u)
          (wideRead g wide sb u))) ∧
    (∀ (o : FpOp) (dst sa sb sc : Nat), regsOk (declaredRegs s i.core) [dst, sa, sb, sc] = true →
      issues s i [dst, sa, sb, sc] [] noWait g act off →
      ∃ t, exec (.fpOp i (.op o) dst sa sb sc) s = .next t ∧
        ranReg t i g act off false dst (fun u => fpOp o (regRead g sa u) (regRead g sb u) (regRead g sc u))) ∧
    (∀ (k : Cmp) (dst sa sb sc : Nat), dst < 8 → regsOk (declaredRegs s i.core) [sa, sb] = true →
      issues s i [sa, sb] [dst] noWait g act off →
      ∃ t, exec (.fpOp i (.cmp k) dst sa sb sc) s = .next t ∧
        ranPred t i g act off dst (fun u => fpCmp k (regRead g sa u) (regRead g sb u))) ∧
    (∀ (src dstf : Fmt) (rd ra se de : Nat), regsOk (declaredRegs s i.core) [rd, ra] = true →
      se < perRegister src → de < perRegister dstf → issues s i [rd, ra] [] noWait g act off →
      ∃ t, exec (.cvt i src dstf rd ra se de) s = .next t ∧
        ranReg t i g act off false rd (fun u => putElement (regRead g rd u) dstf de
          (convert src dstf (bits (regRead g ra u) (se * fmtWidth src) (fmtWidth src))))) ∧
    (∀ (dst sa : Nat), regsOk (declaredRegs s i.core) [dst, sa] = true → issues s i [dst, sa] [] noWait g act off →
      ∃ t, exec (.mov i dst (.reg sa)) s = .next t ∧ ranReg t i g act off false dst (fun u => regRead g sa u)) ∧
    (∀ (dst x : Nat), regsOk (declaredRegs s i.core) [dst] = true → x < 2 ^ 32 → issues s i [dst] [] noWait g act off →
      ∃ t, exec (.mov i dst (.imm x)) s = .next t ∧ ranReg t i g act off false dst (fun _ => x)) ∧
    (∀ (dst : Nat) (sr : SpecialReg),
      (if sr == .stepArg then pairsOk (declaredRegs s i.core) [dst] else regsOk (declaredRegs s i.core) [dst]) = true →
      issues s i (wideRegs (sr == .stepArg) dst) [] noWait g act off →
      ∃ t, exec (.specialRead i dst sr) s = .next t ∧
        ranReg t i g act off (sr == .stepArg) dst (fun u => specialValue s i sr u))

/-- For operands of the operation's width (32 or 64 bits): ADD, SUB, MUL low and multiply-add wrap; MUL high is the
upper half of the exact product, unsigned or signed; AND, OR, XOR and NOT are bitwise; MIN and MAX and the comparisons
follow the unsigned or the two's complement order; the absolute value of every number but the most negative one is its
magnitude; a shift by less than the width shifts in zeros or the sign; every result lies within the width.
Rests on 04_cellar_cores.md Table 4-12. -/
def Obligations.IntegerResults : Prop :=
  ∀ (w : Nat) (a b c : BitVec w), (w = 32 ∨ w = 64) →
    intOp .add w a.toNat b.toNat c.toNat = (a + b).toNat ∧
    intOp .sub w a.toNat b.toNat c.toNat = (a - b).toNat ∧
    intOp .mulLo w a.toNat b.toNat c.toNat = (a * b).toNat ∧
    intOp .mad w a.toNat b.toNat c.toNat = (a * b + c).toNat ∧
    intOp .mulHiU w a.toNat b.toNat c.toNat = a.toNat * b.toNat / 2 ^ w ∧
    intOp .mulHiS w a.toNat b.toNat c.toNat = (BitVec.ofInt w (a.toInt * b.toInt / 2 ^ w)).toNat ∧
    intOp .and w a.toNat b.toNat c.toNat = (a &&& b).toNat ∧
    intOp .or w a.toNat b.toNat c.toNat = (a ||| b).toNat ∧
    intOp .xor w a.toNat b.toNat c.toNat = (a ^^^ b).toNat ∧
    intOp .not w a.toNat b.toNat c.toNat = (~~~a).toNat ∧
    intOp .minU w a.toNat b.toNat c.toNat = min a.toNat b.toNat ∧
    intOp .maxU w a.toNat b.toNat c.toNat = max a.toNat b.toNat ∧
    intOp .minS w a.toNat b.toNat c.toNat = (if a.toInt ≤ b.toInt then a else b).toNat ∧
    intOp .maxS w a.toNat b.toNat c.toNat = (if a.toInt ≤ b.toInt then b else a).toNat ∧
    (a ≠ BitVec.intMin w → intOp .abs w a.toNat b.toNat c.toNat = a.toInt.natAbs) ∧
    (b.toNat < w → intOp .shl w a.toNat b.toNat c.toNat = (a <<< b.toNat).toNat ∧
      intOp .shrU w a.toNat b.toNat c.toNat = (a >>> b.toNat).toNat ∧
      intOp .shrS w a.toNat b.toNat c.toNat = (a.sshiftRight b.toNat).toNat) ∧
    intCmp .lt false w a.toNat b.toNat = decide (a.toNat < b.toNat) ∧
    intCmp .lt true w a.toNat b.toNat = decide (a.toInt < b.toInt) ∧
    intCmp .eq true w a.toNat b.toNat = decide (a = b)

/-- NOP and YIELD let the subset go on; BRA sends the threads whose guard is true to PC + OFFSET and the others on;
BRX sends each to the table entry its index names, entry 0 for an index at or above LEN; SPLIT records the set in its
slot; JOIN on an empty slot goes on, on the full recorded set empties the slot and lets all go on, and otherwise
waits; EXIT of a group without join slots in use ends the threads. Registers and predicates keep their values. Branch
targets here lie at or above word 0; a target below it is a free value of the model (assumption log entry 28).
Rests on 04_cellar_cores.md R97, 04_cellar_cores.md R99, 04_cellar_cores.md R100, 04_cellar_cores.md R118. -/
def Obligations.KernelControl : Prop :=
  ∀ (i : Issue) (s : State) (g : Group) (act off : List Nat), i.pred < 8 → issues s i [] [] noWait g act off →
    (stays g i act off → ∃ t g', exec (.nop i) s = .next t ∧
      groupOf t i.core i.group = some g' ∧ g'.regs = g.regs ∧ g'.preds = g.preds ∧ g'.joins = g.joins ∧
      moved g g' (act ++ off) (fun _ => i.pc + 1)) ∧
    (stays g i act off → ∃ t g', exec (.yield i) s = .next t ∧
      groupOf t i.core i.group = some g' ∧ g'.regs = g.regs ∧ g'.preds = g.preds ∧ g'.joins = g.joins ∧
      moved g g' (act ++ off) (fun _ => i.pc + 1)) ∧
    (∀ (o : Int) (dest : Nat), (i.pc : Int) + o = dest → leavesRegion g off (fun _ => i.pc + 1) = false →
      leavesRegion g act (fun _ => dest) = false → ∃ t g', exec (.bra i o) s = .next t ∧
      groupOf t i.core i.group = some g' ∧ g'.regs = g.regs ∧ g'.preds = g.preds ∧
      moved g g' (act ++ off) (fun u => if u ∈ act then dest else i.pc + 1)) ∧
    (∀ (sa : Nat) (o : Int) (table : List Int) (dest : Nat → Nat), regsOk (declaredRegs s i.core) [sa] = true →
      tableOk s i o table = true → issues s i [sa] [] noWait g act off → leavesRegion g off (fun _ => i.pc + 1) = false →
      (∀ u, u ∈ act → (i.pc : Int) + (o + nth table (if regRead g sa u < table.length then regRead g sa u else 0) 0) = dest u) →
      leavesRegion g act dest = false → ∃ t g', exec (.brx i sa o table) s = .next t ∧
      groupOf t i.core i.group = some g' ∧ g'.regs = g.regs ∧ g'.preds = g.preds ∧
      moved g g' (act ++ off) (fun u => if u ∈ act then dest u else i.pc + 1)) ∧
    (stays g i act off → ∀ slot : Nat, slot < 8 → ∃ t g', exec (.split i slot) s = .next t ∧
      groupOf t i.core i.group = some g' ∧ g'.regs = g.regs ∧ g'.preds = g.preds ∧ tget g'.joins slot 0 = maskOf act ∧
      (∀ j, j ≠ slot → tget g'.joins j 0 = tget g.joins j 0) ∧ moved g g' (act ++ off) (fun _ => i.pc + 1)) ∧
    (stays g i act off → ∀ slot : Nat, slot < 8 → tget g.joins slot 0 = 0 → ∃ t g', exec (.join i slot) s = .next t ∧
      groupOf t i.core i.group = some g' ∧ g'.regs = g.regs ∧ g'.preds = g.preds ∧ g'.joins = g.joins ∧
      moved g g' (act ++ off) (fun _ => i.pc + 1)) ∧
    (stays g i act off → ∀ slot : Nat, slot < 8 → tget g.joins slot 0 ≠ 0 → joinWaiters g slot = [] →
      (¬ ∀ u, u < 64 → bitAt (tget g.joins slot 0) u = true → bitAt g.exited u = true ∨ u ∈ act) →
      ∃ t g', exec (.join i slot) s = .next t ∧ groupOf t i.core i.group = some g' ∧ g'.joins = g.joins ∧
      (∀ u, u ∈ act → tfind g'.waits u = some (.join slot)) ∧ moved g { g' with waits := [] } off (fun _ => i.pc + 1)) ∧
    (stays g i act off → ∀ slot : Nat, slot < 8 → tget g.joins slot 0 ≠ 0 → joinWaiters g slot = [] →
      (∀ u, u < 64 → bitAt (tget g.joins slot 0) u = true → bitAt g.exited u = true ∨ u ∈ act) →
      ∃ t g', exec (.join i slot) s = .next t ∧ groupOf t i.core i.group = some g' ∧ g'.joins = tdel g.joins slot ∧
      g'.regs = g.regs ∧ g'.preds = g.preds ∧ moved g g' (act ++ off) (fun _ => i.pc + 1)) ∧
    (g.region = none → (∀ j, j < 8 → tget g.joins j 0 = 0) → ∃ t g', exec (.exit i) s = .next t ∧
      groupOf t i.core i.group = some g' ∧ g'.regs = g.regs ∧ g'.preds = g.preds ∧
      ∀ u, u < 64 → bitAt g'.exited u = (bitAt g.exited u || decide (u ∈ act)))

/-- When every member that has not exited is there: each shuffle gives a thread the SA value of its source thread, or
its own where the source lies outside the segment, is no member or has exited; VOTE.ALL, VOTE.ANY and VOTE.BALLOT
combine the members' inputs; MATCH gives the mask of the members that hold the same value. Nothing else of the group's
registers and predicates changes, and the threads go on. A thread that is no member of its mask acts alone. Where a
member is missing the threads wait there.
Rests on 04_cellar_cores.md R101, 04_cellar_cores.md R102, 04_cellar_cores.md R103. -/
def Obligations.CrossLaneAndVotes : Prop :=
  ∀ (i : Issue) (s : State) (g : Group) (act off : List Nat) (sc : Nat), i.pred < 8 → stays g i act off →
    pairsOk (declaredRegs s i.core) [sc] = true →
    ((∀ u, u ∈ act → gathered g (memberMask g sc u) act = true) →
      (∀ (f : ShflForm) (dst sa sb : Nat), shflOk s i f dst sa sb sc = true →
        issues s i ([dst, sa, sb] ++ pairRegs sc) [] gatherWait g act off →
        let val := fun (k : Shuffle) (u : Nat) => regRead g sa
          (((shuffleSource k f.seg (f.imm.getD (regRead g sb u)) u).filter (fun v => (liveMembers g sc u).contains v)).getD u)
        (∃ t, exec (.shflIdx i f dst sa sb sc) s = .next t ∧ ranReg t i g act off false dst (val .idx)) ∧
        (∃ t, exec (.shflUp i f dst sa sb sc) s = .next t ∧ ranReg t i g act off false dst (val .up)) ∧
        (∃ t, exec (.shflDown i f dst sa sb sc) s = .next t ∧ ranReg t i g act off false dst (val .down)) ∧
        (∃ t, exec (.shflXor i f dst sa sb sc) s = .next t ∧ ranReg t i g act off false dst (val .xor))) ∧
      (∀ (dst pin : Nat) (inv : Bool), dst < 8 → pin < 8 → issues s i (pairRegs sc) [dst, pin] gatherWait g act off →
        (∃ t, exec (.voteAll i dst pin inv sc) s = .next t ∧
          ranPred t i g act off dst (fun u => (liveMembers g sc u).all (fun v => predRead g pin v != inv))) ∧
        (∃ t, exec (.voteAny i dst pin inv sc) s = .next t ∧
          ranPred t i g act off dst (fun u => (liveMembers g sc u).any (fun v => predRead g pin v != inv)))) ∧
      (∀ (dst pin : Nat) (inv : Bool), pairsOk (declaredRegs s i.core) [dst, sc] = true → pin < 8 →
        issues s i (pairRegs dst ++ pairRegs sc) [pin] gatherWait g act off →
        ∃ t, exec (.voteBallot i dst pin inv sc) s = .next t ∧
          ranReg t i g act off true dst (fun u => maskOf ((liveMembers g sc u).filter (fun v => predRead g pin v != inv)))) ∧
      (∀ (dst sa : Nat), regsOk (declaredRegs s i.core) [sa] = true → pairsOk (declaredRegs s i.core) [dst, sc] = true →
        issues s i (pairRegs dst ++ [sa] ++ pairRegs sc) [] gatherWait g act off →
        ∃ t, exec (.match32 i dst sa sc) s = .next t ∧
          ranReg t i g act off true dst (fun u => maskOf ((liveMembers g sc u).filter (fun v =>
            regRead g sa v == regRead g sa u)))) ∧
      (∀ (dst sa : Nat), pairsOk (declaredRegs s i.core) [dst, sa, sc] = true →
        issues s i (pairRegs dst ++ pairRegs sa ++ pairRegs sc) [] gatherWait g act off →
        ∃ t, exec (.match64 i dst sa sc) s = .next t ∧
          ranReg t i g act off true dst (fun u => maskOf ((liveMembers g sc u).filter (fun v =>
            pairRead g sa v == pairRead g sa u))))) ∧
    ((∀ u, u ∈ act → gathered g (memberMask g sc u) act = false) →
      ∀ (f : ShflForm) (dst sa sb : Nat), shflOk s i f dst sa sb sc = true →
        issues s i ([dst, sa, sb] ++ pairRegs sc) [] gatherWait g act off →
        ∃ t g', exec (.shflIdx i f dst sa sb sc) s = .next t ∧ groupOf t i.core i.group = some g' ∧ g'.regs = g.regs ∧
          ∀ u, u ∈ act → tfind g'.waits u = some (.gather (memberMask g sc u)) ∧ threadPc g' u = threadPc g u)

/-- For each of the nine atomics, in a form that IMAGE_LOAD admits, without a release order, whose every active thread
names an admitted location: the command completes, and what it does is to issue the lanes, in lane order, at the point
of Table 4-8, after the threads with a false guard have gone on.
Rests on 04_cellar_cores.md R104, 04_cellar_cores.md R105, 04_cellar_cores.md R99. -/
def Obligations.AtomicsIssue : Prop :=
  ∀ (i : Issue) (f : AtomForm) (dst sa sb sc : Nat) (s : State) (g : Group) (act off : List Nat),
    stays g i act off → releaseScope f.order f.scope = none →
    let ready := fun (op : AtomOp) (sc : Nat) => atomFormOk s op i f dst sa sb sc = true ∧
      issues s i (acquireReg :: atomRegs op f dst sa sb sc) (if op = .cas then [f.pdst] else []) noWait g act off ∧
      ∀ l, l ∈ atomLanes g op f.atype sa sb sc act →
        coreRefusal (passed s i g off) i.core true l.addr (atomBytes f.atype) = none
    let issued := fun (op : AtomOp) (sc : Nat) =>
      atomIssue (passed s i g off) i f op dst (atomLanes g op f.atype sa sb sc act)
    (ready .add vz → ∃ t, exec (.atomAdd i f dst sa sb) s = .next t ∧ t = issued .add vz) ∧
    (ready .min vz → ∃ t, exec (.atomMin i f dst sa sb) s = .next t ∧ t = issued .min vz) ∧
    (ready .max vz → ∃ t, exec (.atomMax i f dst sa sb) s = .next t ∧ t = issued .max vz) ∧
    (ready .and vz → ∃ t, exec (.atomAnd i f dst sa sb) s = .next t ∧ t = issued .and vz) ∧
    (ready .or vz → ∃ t, exec (.atomOr i f dst sa sb) s = .next t ∧ t = issued .or vz) ∧
    (ready .xor vz → ∃ t, exec (.atomXor i f dst sa sb) s = .next t ∧ t = issued .xor vz) ∧
    (ready .exch vz → ∃ t, exec (.atomExch i f dst sa sb) s = .next t ∧ t = issued .exch vz) ∧
    (ready .cas sc → ∃ t, exec (.atomCas i f dst sa sb sc) s = .next t ∧ t = issued .cas sc) ∧
    (ready .inc vz → ∃ t, exec (.atomInc i f dst sa sb) s = .next t ∧ t = issued .inc vz)

/-- However many threads of an atomic instruction name however many locations: each location ends with the value after
its last thread in lane order, and each thread receives the value that the threads before it on the same location
left. Of the CAS threads on one location the first whose compare value equals the prior value succeeds and its swap
value stays; no other succeeds.
Rests on 04_cellar_cores.md R105, 04_cellar_cores.md R106. -/
def Obligations.AtomicsInLaneOrder : Prop :=
  (∀ (op : AtomOp) (ty : AtomType) (init : Nat → Nat) (lanes : List AtomLane) (a : Nat), op ≠ .cas →
    (tget (atomRun op ty init lanes).1 a { prior := init a, now := init a }).now =
      (lanes.filter (fun l => l.addr == a)).foldl (fun v l => atomValue op ty v l.sb) (init a) ∧
    ∀ (pre post : List AtomLane) (l : AtomLane), lanes = pre ++ l :: post →
      (atomRun op ty init lanes).2.1[pre.length]? = some (l.thread,
        (pre.filter (fun m => m.addr == l.addr)).foldl (fun v m => atomValue op ty v m.sb) (init l.addr))) ∧
  (∀ (ty : AtomType) (init : Nat → Nat) (lanes : List AtomLane) (a : Nat), (∀ l, l ∈ lanes → l.addr = a) →
    (atomRun .cas ty init lanes).2.2 =
      ((lanes.find? (fun l => l.sb % 2 ^ (8 * atomBytes ty) == init a)).map (fun l => l.thread)).toList ∧
    (tget (atomRun .cas ty init lanes).1 a { prior := init a, now := init a }).now =
      ((lanes.find? (fun l => l.sb % 2 ^ (8 * atomBytes ty) == init a)).map
        (fun l => l.sc % 2 ^ (8 * atomBytes ty))).getD (init a))

/-- With ONCE, or with one active thread, and without a release or acquire: PEG.ARRIVE and PEG.SIGNAL add their count
as Table 4-10 gives for the peg's type and write the GENERATION (on a BARRIER) or the COUNT from before to the
destination; PEG.WAIT whose condition is met sets PDST to 1 and takes a semaphore's units, and one whose condition is
not met waits on the peg; PEG.RESET zeroes COUNT and moves GENERATION on, leaving registers; PEG.READ writes the peg's
state to the destination pair. A peg outside the partition, of TYPE NONE or with a bad identifier is no peg of this
statement. Where the cellar's master port does not pass an operation on another cellar's peg, the threads stay and the
peg is as it was.
Rests on 04_cellar_cores.md R107, 04_cellar_cores.md R108, 04_cellar_cores.md R550. -/
def Obligations.PegInstructions : Prop :=
  ∀ (i : Issue) (f : PegForm) (s : State) (g : Group) (act off : List Nat) (u id sa : Nat), i.pred < 8 → f.pdst < 8 →
    f.order = .relaxed → stays g i act off → act.head? = some u → (f.once = true ∨ act = [u]) → regRead g sa u = id →
    pegAllowed s (corePartition s i.core) id = true → (pegOf s id).waiters = [] →
    (∀ (dst sb : Nat), regsOk (declaredRegs s i.core) [dst, sa, sb] = true → pegPasses s (i.core / 64) id = false →
      issues s i [acquireReg, dst, sa, sb] [] noWait g act off →
      exec (.pegArrive i f dst sa sb) s = .next (passed s i g off) ∧
        exec (.pegSignal i f dst sa sb) s = .next (passed s i g off)) ∧
    (pegPasses s (i.core / 64) id = true →
    (∀ (dst sb : Nat), regsOk (declaredRegs s i.core) [dst, sa, sb] = true →
      issues s i [acquireReg, dst, sa, sb] [] noWait g act off →
      (∃ t, exec (.pegArrive i f dst sa sb) s = .next t ∧ pegOf t id = pegAdd (pegOf s id) (regRead g sb u) ∧
        ranReg t i g act off false dst (fun _ => pegResult (pegOf s id))) ∧
      (∃ t, exec (.pegSignal i f dst sa sb) s = .next t ∧ pegOf t id = pegAdd (pegOf s id) (regRead g sb u) ∧
        ranReg t i g act off false dst (fun _ => pegResult (pegOf s id)))) ∧
    (∀ (sb : Nat), regsOk (declaredRegs s i.core) [sa, sb] = true →
      issues s i [acquireReg, sa, sb] [f.pdst] noWait g act off →
      (∀ p, pegMeets (pegOf s id) (regRead g sb u) = some p → ∃ t, exec (.pegWait i f sa sb) s = .next t ∧
        pegOf t id = p ∧ ranPred t i g act off f.pdst (fun _ => true)) ∧
      (pegMeets (pegOf s id) (regRead g sb u) = none → ∃ t g', exec (.pegWait i f sa sb) s = .next t ∧
        (∃ w, (pegOf t id).waiters = [w] ∧ w.threads = act ∧ w.sb = regRead g sb u) ∧
        groupOf t i.core i.group = some g' ∧ g'.regs = g.regs ∧
        ∀ v, v ∈ act → tfind g'.waits v = some (.peg id) ∧ threadPc g' v = threadPc g v)) ∧
    (regsOk (declaredRegs s i.core) [sa] = true → issues s i [acquireReg, sa] [] noWait g act off →
      ∃ t g', exec (.pegReset i f sa) s = .next t ∧ pegOf t id = pegTurn (pegOf s id) ∧
        groupOf t i.core i.group = some g' ∧ g'.regs = g.regs ∧ moved g g' (act ++ off) (fun _ => i.pc + 1)) ∧
    (∀ dst : Nat, regsOk (declaredRegs s i.core) [sa] = true → pairsOk (declaredRegs s i.core) [dst] = true →
      issues s i (acquireReg :: sa :: pairRegs dst) [] noWait g act off →
      ∃ t, exec (.pegRead i f dst sa) s = .next t ∧ pegOf t id = pegOf s id ∧
        ranReg t i g act off true dst (fun _ => pegWord (pegOf s id))))

/-- A contribution of n (0 counts as 1) to a BARRIER adds to COUNT below TARGET, and at or above TARGET zeroes COUNT,
moves GENERATION on modulo 2^14 and ends every WAIT on an earlier generation; to a SEMAPHORE it adds, saturating at
2^24 - 1, and serves waiters in order of arrival, the first that cannot be served blocking those behind it; to an
EVENT it sets COUNT to 1. After TYPE NONE is set the peg holds the whole zero state and no waiter.
Rests on 04_cellar_cores.md R107, 04_cellar_cores.md R549. -/
def Obligations.PegUnitRules : Prop :=
  ∀ (s : State) (id n : Nat) (p : Peg), p = pegOf s id →
    (p.ptype = .barrier → p.waiters = [] → p.count + max n 1 < p.target →
      pegOf (pegSignalOp s id n) id = { p with count := p.count + max n 1 }) ∧
    (p.ptype = .barrier → p.target ≤ p.count + max n 1 → (∀ w, w ∈ p.waiters → w.sb = p.generation) →
      p.generation < 2 ^ 14 →
      pegOf (pegSignalOp s id n) id =
        { p with count := 0, generation := (p.generation + 1) % 2 ^ 14, waiters := [] }) ∧
    (p.ptype = .semaphore → ∀ w rest, p.waiters = w :: rest → min (p.count + max n 1) (2 ^ 24 - 1) < w.sb →
      pegOf (pegSignalOp s id n) id = { p with count := min (p.count + max n 1) (2 ^ 24 - 1) }) ∧
    (p.ptype = .semaphore → ∀ w, p.waiters = [w] → w.sb ≤ min (p.count + max n 1) (2 ^ 24 - 1) →
      pegOf (pegSignalOp s id n) id =
        { p with count := min (p.count + max n 1) (2 ^ 24 - 1) - w.sb, waiters := [] }) ∧
    (p.ptype = .event → pegOf (pegSignalOp s id n) id = { p with count := 1, waiters := [] }) ∧
    pegOf (pegResetOp s id) id = { p with count := 0, generation := (p.generation + 1) % 2 ^ 14, waiters := [] } ∧
    ((tkeys s.cells.pegs).Pairwise (· < ·) → pegOf (pegSetOp s id .none 0) id = { ptype := .none, count := 0, target := 0, generation := 0, waiters := [] })

/-- An LD of admitted addresses completes: a load record holds each active thread with its address, nothing of the
registers has changed yet, and the threads go on; one that meets a refused address carries the error with its data.
When the data are there, LOAD_DATA_RETURN ends the record and writes them to the destination registers; a record with
an error stops the step as an access error. An ST without order, admitted throughout, stores the bytes of its active
threads, of each byte the last thread's in lane order, and the threads go on.
Rests on 04_cellar_cores.md R93, 04_cellar_cores.md R110, 04_cellar_cores.md R119, 07_core_store_cellar_buffer.md
R196. -/
def Obligations.LoadsAndStores : Prop :=
  (∀ (i : Issue) (f : MemForm) (dst sa : Nat) (s : State) (g : Group) (act off : List Nat), i.pred < 8 →
    memFormOk f = true → pairsOk (declaredRegs s i.core) [sa] = true → dataOk (declaredRegs s i.core) dst f.bytes = true →
    stays g i act off → issues s i (acquireReg :: pairRegs sa ++ dataRegs dst f.bytes) [] noWait g act off →
    ∃ t r g', exec (.ld i f dst sa) s = .next t ∧ tfind (coreOf t i.core).loads s.cells.nextId = some r ∧
      r.group = i.group ∧ r.dst = dst ∧ r.bytes = f.bytes ∧ r.threads = act.map (fun u => (u, memAddr g f sa u)) ∧
      groupOf t i.core i.group = some g' ∧ g'.regs = g.regs ∧ moved g g' (act ++ off) (fun _ => i.pc + 1) ∧
      ((∀ u, u ∈ act → coreRefusal (acquireOpt (passed s i g off) i.core f.ordered) i.core false (memAddr g f sa u) f.bytes
          = none) → r.error = none) ∧
      (∀ u rest c, act = u :: rest → coreRefusal (acquireOpt (passed s i g off) i.core f.ordered) i.core false
          (memAddr g f sa u) f.bytes = some c → r.error = some c)) ∧
  (∀ (core n : Nat) (s : State) (r : LoadRec) (g : Group), tfind (coreOf s core).loads n = some r → r.need = [] →
    groupOf s core r.group = some g →
    (r.error = none → r.poison = false → r.acquire = none → ∃ t, exec (.loadDataReturn core n) s = .next t ∧
      groupOf t core r.group = some (writeLoad r g) ∧ (coreOf t core).loads = tdel (coreOf s core).loads n) ∧
    (∀ c, r.error = some c → ∃ t, exec (.loadDataReturn core n) s = .next t ∧
      t = coreError (modCore s core (fun x => { x with loads := tdel x.loads n })) core c r.errAddr)) ∧
  (∀ (i : Issue) (f : MemForm) (sa sb : Nat) (s : State) (g : Group) (act off : List Nat), i.pred < 8 →
    memFormOk f = true → pairsOk (declaredRegs s i.core) [sa] = true → dataOk (declaredRegs s i.core) sb f.bytes = true →
    f.ordered = none → stays g i act off → issues s i (acquireReg :: pairRegs sa ++ dataRegs sb f.bytes) [] noWait g act off →
    (∀ u, u ∈ act → coreRefusal (passed s i g off) i.core true (memAddr g f sa u) f.bytes = none) →
    ∃ t, exec (.st i f sa sb) s = .next t ∧
      t = advance (storeBytes (passed s i g off) i.core
        (storedBytes (act.map (fun u => (memAddr g f sa u, dataRead g sb f.bytes u)))) f.streaming) i act) ∧
  (∀ (l : List (Nat × Bytes)) (a : Nat) (b : Bytes) (x : Nat), tfind (storedBytes (l ++ [(a, b)])) x =
    if a ≤ x ∧ x < a + b.length then some (nth b (x - a) 0) else tfind (storedBytes l) x)

/-- A FENCE with ORDER ACQUIRE drops the clean copies of its scope and the threads go on. With ORDER RELEASE at a
scope of the core or narrower they go on; at CELLAR scope the dirty lines of the core reach its cellar first; at
DEVICE or SYSTEM scope the write-backs go out, and the threads go on at once where home owes no acknowledgement, else
they wait for the release. RELEASE_WRITEBACK_ACKED of a release whose every write-back is acknowledged marks it done
and ends the wait.
Rests on 04_cellar_cores.md R111, 04_cellar_cores.md R112, 07_core_store_cellar_buffer.md R200,
07_core_store_cellar_buffer.md R201. -/
def Obligations.FencesAndReleases : Prop :=
  (∀ (i : Issue) (scope : Scope) (s : State) (g : Group) (act off : List Nat), i.pred < 8 → stays g i act off →
    issues s i [acquireReg] [] noWait g act off → doneRelease (coreOf s i.core) i.group act = none →
    (∃ t, exec (.fence i scope .acquire) s = .next t ∧ t = advance (acquire' (passed s i g off) i.core scope) i act) ∧
    (scope = .thread ∨ scope = .group ∨ scope = .core → ∃ t, exec (.fence i scope .release) s = .next t ∧
      t = advance (passed s i g off) i act) ∧
    (scope = .cellar → ∃ t, exec (.fence i scope .release) s = .next t ∧
      t = advance (releaseCellar (passed s i g off) i.core) i act) ∧
    (scope = .device ∨ scope = .system → ∃ t, exec (.fence i scope .release) s = .next t ∧
      ((beginRelease (passed s i g off) i.core i.group act scope).2 = none →
        t = advance (beginRelease (passed s i g off) i.core i.group act scope).1 i act) ∧
      (∀ n, (beginRelease (passed s i g off) i.core i.group act scope).2 = some n →
        t = setWaits (beginRelease (passed s i g off) i.core i.group act scope).1 i.core i.group act (fun _ => .release n)))) ∧
  (∀ (core n : Nat) (s : State) (r : Release) (g : Group), tfind (coreOf s core).releases n = some r → r.done = false →
    groupOf s core r.group = some g → (∀ m x, m ∈ r.txns → txnOf s m = some x → x.phase = .done) →
    ∃ t g', exec (.releaseWritebackAcked core n) s = .next t ∧
      tfind (coreOf t core).releases n = some { r with done := true } ∧ groupOf t core r.group = some g' ∧
      g'.regs = g.regs ∧ ∀ u, tfind g'.waits u ≠ some (.release n))

/-- MREGION.BEGIN with all its members there and the accumulator store free begins a region from BEGIN to BEGIN +
END_OFFSET whose entry mask is the members that have not exited, and these go on; where another group holds the store
the group queues and waits. With the whole entry mask there, MREGION.END ends the region and frees the store, MZERO
zeroes the tile and ANCHOR re-anchors it with the operand of the lowest thread, each once, and the threads go on.
Rests on 04_cellar_cores.md R116, 04_cellar_cores.md R117, 05_arithmetic_formats.md R139, 05_arithmetic_formats.md
R141. -/
def Obligations.MatrixRegions : Prop :=
  ∀ (i : Issue) (s : State) (g : Group) (act : List Nat), i.pred = 7 → i.pneg = false →
    (∀ (sc off : Nat), pairsOk (declaredRegs s i.core) [sc] = true → 1 ≤ off → off < 2 ^ 18 → g.region = none →
      issues s i (pairRegs sc) [] beginWait g act [] →
      (∀ u, u ∈ act → memberMask g sc u = memberMask g sc (act.headD 0) ∧
        gathered g (memberMask g sc u) act = true ∧ u ∈ liveMembers g sc u) →
      ((coreOf s i.core).tileOwner = none → (coreOf s i.core).regionQueue = [] →
        ∃ t g', exec (.mregionBegin i sc off) s = .next t ∧ (coreOf t i.core).tileOwner = some i.group ∧
          groupOf t i.core i.group = some g' ∧ g'.regs = g.regs ∧
          g'.region = some { first := i.pc, last := i.pc + off, entry := maskOf (liveMembers g sc (act.headD 0)) } ∧
          moved g g' act (fun _ => i.pc + 1)) ∧
      (∀ o, (coreOf s i.core).tileOwner = some o → (coreOf s i.core).regionQueue = [] →
        ∃ t g', exec (.mregionBegin i sc off) s = .next t ∧ (coreOf t i.core).regionQueue = [i.group] ∧
          (coreOf t i.core).tileOwner = some o ∧ groupOf t i.core i.group = some g' ∧ g'.region = none ∧
          ∀ u, u ∈ act → tfind g'.waits u = some (.regionBegin (memberMask g sc u)) ∧ threadPc g' u = threadPc g u)) ∧
    (regionReady g act → stays g i act [] →
      (issues s i [] [] matrixWait g act [] →
        (∃ t g', exec (.mregionEnd i) s = .next t ∧ (coreOf t i.core).tileOwner = none ∧
          groupOf t i.core i.group = some g' ∧ g'.region = none ∧ g'.regs = g.regs ∧ moved g g' act (fun _ => i.pc + 1)) ∧
        (∃ t g', exec (.mzero i) s = .next t ∧ (coreOf t i.core).tile = mzero (coreOf s i.core).tile ∧
          groupOf t i.core i.group = some g' ∧ g'.regs = g.regs ∧ moved g g' act (fun _ => i.pc + 1))) ∧
      (∀ (sa : Nat) (auto : Bool), regsOk (declaredRegs s i.core) [sa] = true → issues s i [sa] [] matrixWait g act [] →
        ∃ t g', exec (.anchor i sa auto) s = .next t ∧
          (coreOf t i.core).tile = anchorTile (coreOf s i.core).tile auto (regRead g sa (act.headD 0)) ∧
          groupOf t i.core i.group = some g' ∧ g'.regs = g.regs ∧ moved g g' act (fun _ => i.pc + 1)))

/-- With the whole entry mask there and every operand inside the core-store scratch: MMA accumulates the product of
its tiles into the accumulator store, with the operands that the lowest thread of the entry mask names, and the flags
it raises join the core's summary; MEXPORT and MEXPORT.WIDE write the tile, converted or whole, to the scratch at the
lowest thread's offset. The accumulator store is unchanged by an export, and the threads go on.
Rests on 04_cellar_cores.md R117, 05_arithmetic_formats.md R128, 05_arithmetic_formats.md R142,
05_arithmetic_formats.md R145. -/
def Obligations.MatrixArithmetic : Prop :=
  ∀ (i : Issue) (s : State) (g : Group) (act : List Nat) (u : Nat), i.pred = 7 → i.pneg = false → regionReady g act →
    stays g i act [] → act.head? = some u →
    (∀ (f : MmaForm) (sa sb sc : Nat), mmaDefined f = true → (f.hasMeta = (sc != vz)) →
      regsOk (declaredRegs s i.core) [sa, sb, sc] = true → issues s i [sa, sb, sc] [] matrixWait g act [] →
      (∀ r, r ∈ mmaRanges f (operandAt g sa u) (operandAt g sb u) (operandAt g sc u) → r.1 + r.2 ≤ scratchBytes s i.core) →
      (f.zskip = true → ∀ j, j < 248 → scratchByte (coreOf s i.core) (operandAt g sc u + 8 + j) = 0) →
      scratchPoisoned (coreOf s i.core) (mmaMeets f (mmaOperands (fun off => (scratchByte (coreOf s i.core) off).toNat) f
        (operandAt g sa u) (operandAt g sb u) (operandAt g sc u)) (operandAt g sa u) (operandAt g sb u) (operandAt g sc u))
        = false →
      ∃ t g', exec (.mma i f sa sb sc) s = .next t ∧
        (∃ x : Core, x = coreOf (onTile s i.core (fun tl => mma tl f (mmaOperands
          (fun off => (scratchByte (coreOf s i.core) off).toNat) f (operandAt g sa u) (operandAt g sb u)
          (operandAt g sc u)))) i.core ∧ (coreOf t i.core).tile = x.tile ∧ (coreOf t i.core).flags = x.flags) ∧
        (coreOf t i.core).scratch = (coreOf s i.core).scratch ∧
        groupOf t i.core i.group = some g' ∧ g'.regs = g.regs ∧ moved g g' act (fun _ => i.pc + 1)) ∧
    (∀ (fmt : Fmt) (st : Bool) (sa : Nat) (b : Bytes) (range : Bool),
      (fmt = .fp32 ∨ fmt = .bf16 ∨ fmt = .fp8e4m3 ∨ fmt = .fp8e5m2) → regsOk (declaredRegs s i.core) [sa] = true →
      issues s i [sa] [] matrixWait g act [] →
      (b, range) = exportTile (coreOf s i.core).tile fmt ((fpLayout fmt).getD fp32) st (roundSeedOf s i.core) →
      operandAt g sa u + b.length ≤ scratchBytes s i.core →
      ∃ t g', exec (.mexport i fmt st sa) s = .next t ∧ (coreOf t i.core).tile = (coreOf s i.core).tile ∧
        (coreOf t i.core).scratch = (coreOf (scratchStore s i.core (operandAt g sa u)
          (b.zipIdx.map (fun e => (e.2, e.1)))) i.core).scratch ∧
        groupOf t i.core i.group = some g' ∧ g'.regs = g.regs ∧ moved g g' act (fun _ => i.pc + 1)) ∧
    (∀ (sa : Nat), regsOk (declaredRegs s i.core) [sa] = true → issues s i [sa] [] matrixWait g act [] →
      operandAt g sa u + (exportWide (coreOf s i.core).tile).length ≤ scratchBytes s i.core →
      ∃ t g', exec (.mexportWide i sa) s = .next t ∧ (coreOf t i.core).tile = (coreOf s i.core).tile ∧
        (coreOf t i.core).scratch = (coreOf (scratchStore s i.core (operandAt g sa u)
          ((exportWide (coreOf s i.core).tile).zipIdx.map (fun e => (e.2, e.1)))) i.core).scratch ∧
        groupOf t i.core i.group = some g' ∧ g'.regs = g.regs ∧ moved g g' act (fun _ => i.pc + 1))

/-- A register at or above the kernel's declared count, an atomic that Table 4-7 does not define, a FENCE without
order, a matrix instruction under a predicate and an odd register pair stop the command with the fault of an undefined
operation, in every state: no such word reaches a core.
Rests on 04_cellar_cores.md R95. -/
def Obligations.RefusedFormsFault : Prop :=
  ∀ (i : Issue) (s : State),
    (∀ (dst sa : Nat), dst ≠ vz → declaredRegs s i.core ≤ dst →
      exec (.mov i dst (.reg sa)) s = .fault .undefinedOperation) ∧
    (∀ (op : AtomOp) (f : AtomForm) (dst sa sb sc : Nat), atomDefined op f.atype = false →
      exec (atomCommand op i f dst sa sb sc) s = .fault .undefinedOperation) ∧
    (∀ scope, exec (.fence i scope .relaxed) s = .fault .undefinedOperation) ∧
    (i.pred ≠ 7 → exec (.mzero i) s = .fault .undefinedOperation ∧ exec (.mregionEnd i) s = .fault .undefinedOperation) ∧
    (∀ (f : MemForm) (dst sa : Nat), sa % 2 = 1 → sa ≠ vz → exec (.ld i f dst sa) s = .fault .undefinedOperation)

/-- A PARTITION_CREATE that passes the checks of R414 completes OK with the lowest free number and the new MEM_EPOCH;
the partition is TRANSITIONING in phase CREATE with epoch 1 and holds the units and regions of the request, and each
of its mailboxes changes owner and loses its session. A PARTITION_RESET by its own context of a partition that is not
TRANSITIONING is accepted, its phase is RESET and its epoch one more. A PARTITION_DESTROY is accepted in any phase and
waits for the end of a phase that runs. A PARTITION_QUERY answers the latched page counts and the layout block.
PARTITION_POLICY_SET sets policy and shares of its own context and of no other.
Rests on 15_security.md R415, 15_security.md R416, 15_security.md R417, 15_security.md R424,
03_control_processor_mailboxes.md R80, 09_larder.md R270. -/
def Obligations.PartitionCommands : Prop :=
  (∀ (c : Nat) (s : State) (t : Taken) (p : Nat), runs s c 0x0100 t → createBad s t.req = false →
    (List.range 16).find? (fun q => q != 0 && (partOf s q).pstate == .none) = some p → createConflict s t.req = none →
    ∃ s', exec (.partitionCreate c) s = .next s' ∧
      answers s s' c t .ok (commit s).2 (p + (s.part.memEpochCount + 1) % 2 ^ 32 * 2 ^ 32) ∧
      (partOf s' p).pstate = .transitioning ∧ (partOf s' p).phase = .create ∧ (partOf s' p).epoch = 1 ∧
      (partOf s' p).memEpoch = (s.part.memEpochCount + 1) % 2 ^ 32 ∧ (partOf s' p).cellarMask = bbits t.req 64 64 ∧
      (partOf s' p).regions = (createRegions t.req).map (·.2) ∧
      ∀ m, m < 64 → bitAt (bbits t.req 128 64) m = true → (chanOf s' m).owner = p ∧ (chanOf s' m).session = false) ∧
  (∀ (c : Nat) (s : State) (t : Taken), runs s c 0x0102 t → bbits t.req 4 60 = 0 → bbits t.req 0 4 = t.ctx →
    (partOf s t.ctx).pstate ≠ .transitioning →
    ∃ s', exec (.partitionReset c) s = .next s' ∧ answers s s' c t .accepted (commit s).2 0 ∧
      (partOf s' t.ctx).pstate = .transitioning ∧ (partOf s' t.ctx).phase = .reset ∧
      (partOf s' t.ctx).resetBy = some (commit s).2 ∧ ctxEpoch s' t.ctx = (ctxEpoch s t.ctx + 1) % 2 ^ 32) ∧
  (∀ (c : Nat) (s : State) (t : Taken) (p : Nat), runs s c 0x0101 t → bbits t.req 4 60 = 0 → bbits t.req 0 4 = p → p ≠ 0 →
    (partOf s p).pstate ≠ .none → (partOf s p).destroyBy = none →
    ∃ s', exec (.partitionDestroy c) s = .next s' ∧ answers s s' c t .accepted (commit s).2 0 ∧
      (partOf s' p).destroyBy = some (commit s).2 ∧ (partOf s' p).pstate = .transitioning ∧
      ((partOf s p).pstate = .active → (partOf s' p).phase = .destroy ∧
        (partOf s' p).epoch = ((partOf s p).epoch + 1) % 2 ^ 32) ∧
      ((partOf s p).pstate = .transitioning → (partOf s' p).phase = (partOf s p).phase)) ∧
  (∀ (c : Nat) (wb : WriteBack) (s : State) (t : Taken) (p : Nat), runs s c 0x0103 t → bbits t.req 4 60 = 0 →
    bbits t.req 0 4 = p → t.mgmt = true ∨ p = t.ctx → (partOf s p).pstate ≠ .none → t.hdr.respByRef = false →
    (layoutBlock s p).length ≤ respCapacity t →
    ∃ s', exec (.partitionQuery c wb) s = .next s' ∧ answers s s' c t .ok 0 (pageCounts (partOf s p)) ∧
      (isMgmt c = false → (chanOf s' c).resp = (layoutBlock s p).zipIdx.map (fun x => (x.2, x.1)))) ∧
  (∀ (c : Nat) (s : State) (t : Taken), runs s c 0x0104 t → bbits t.req 0 2 ≠ 3 → bbits t.req 2 6 = 0 →
    bbits t.req 15 1 = 0 → bbits t.req 23 1 = 0 → bbits t.req 31 33 = 0 → bbits t.req 8 7 ≤ 64 → bbits t.req 16 7 ≤ 64 →
    bbits t.req 24 7 ≤ 64 →
    ∃ s', exec (.partitionPolicySet c) s = .next s' ∧ answers s s' c t .ok (commit s).2 0 ∧
      (partOf s' t.ctx).latencyShare = bbits t.req 8 7 ∧ (partOf s' t.ctx).throughputShare = bbits t.req 16 7 ∧
      (partOf s' t.ctx).backgroundShare = bbits t.req 24 7 ∧
      ((partOf s' t.ctx).overrun = .cont ↔ bbits t.req 0 2 = 0) ∧
      ((partOf s' t.ctx).overrun = .preemptAtNext ↔ bbits t.req 0 2 = 1) ∧
      ∀ k, k ≠ t.ctx → partOf s' k = partOf s k)

/-- When the work of phase CREATE is done and no die still answers for the ranges, every byte of the partition's
MEMORY regions reads zero and the partition is ACTIVE. When a RESET phase ends, its sequences being gone, the
partition is ACTIVE and the reset's final record is written. When a teardown ends, every byte of the MEMORY regions
reads zero, the partition no longer exists, its mailboxes belong to the device context and the final record is
written.
Rests on 15_security.md R415, 15_security.md R424, 15_security.md R425, 16_bringup_reset.md R469. -/
def Obligations.PartitionPhases : Prop :=
  (∀ (p : Nat) (s : State), (partOf s p).pstate = .transitioning → (partOf s p).phase = .create →
    (partOf s p).destroyBy = none → (recallRegions s p).2 = false →
    ∃ s', exec (.partitionTransitionDone p) s = .next s' ∧ (partOf s' p).pstate = .active ∧
      ∀ r ∈ (partOf s p).regions, r.kind = .memory → ∀ a, r.base ≤ a → a < r.base + r.length * 0x10000 →
        memRead s'.mem.bytes a = 0) ∧
  (∀ (p : Nat) (s : State), (partOf s p).pstate = .transitioning → (partOf s p).phase = .reset →
    (partOf s p).destroyBy = none → (seqsOf s p).isEmpty = true →
    ∃ s', exec (.partitionTransitionDone p) s = .next s' ∧ (partOf s' p).pstate = .active ∧
      (partOf s' p).regions = (partOf s p).regions ∧ s'.mem = s.mem ∧
      ∀ n, (partOf s p).resetBy = some n → asyncOf s' n = none) ∧
  (∀ (p n : Nat) (s : State), (partOf s p).pstate = .transitioning → (partOf s p).phase = .destroy →
    (partOf s p).destroyBy = some n → tornDown s p = true → (recallRegions s p).2 = false →
    ∃ s', exec (.partitionDestroyDone p) s = .next s' ∧ (partOf s' p).pstate = .none ∧ asyncOf s' n = none ∧
      (∀ m, m < 64 → (chanOf s m).owner = p → (chanOf s' m).owner = 0) ∧
      ∀ r ∈ (partOf s p).regions, r.kind = .memory → ∀ a, r.base ≤ a → a < r.base + r.length * 0x10000 →
        memRead s'.mem.bytes a = 0)

/-- An IMAGE_LOAD that passes the four checks is accepted; the image takes the next handle, every core of the
partition awaits it, and all its chunks are broadcast. The bitmap of the core whose poll is due, and of no other, counts;
one that lacks chunks brings another round with
exactly the missing ones, at most four, and one that holds them all is recorded. After a digest check that passes the
core holds the image; the final record follows the last core's check. A mismatch discards the code and counts as a
round that sends every chunk; after the fourth round the core is absent.
Rests on 16_bringup_reset.md R457, 16_bringup_reset.md R458, 16_bringup_reset.md R459. -/
def Obligations.ImagesLoadAndCheck : Prop :=
  (∀ (c : Nat) (inp : ImageInput) (s : State) (t : Taken), runs s c 0x0200 t →
    imageRefused s t.ctx t.req inp = none →
    ∃ s' x, exec (.imageLoad c inp) s = .next s' ∧ answers s s' c t .accepted (commit s).2 0 ∧
      tfind s'.part.images s.part.nextImage = some x ∧ x.part = t.ctx ∧ x.words = leAt t.req 8 4 / 8 ∧
      x.base = usedWords s t.ctx ∧
      (∀ k, k < 4096 → coreUp s k = true → cellarOwner s (k / 64) = t.ctx → tfind x.cores k = some {}) ∧
      Out.imageChunks s.part.nextImage none (2 ^ x.chunkCount - 1) ∈ s'.out ∧
      s'.part.generation = (s.part.generation + 1) % 2 ^ 64) ∧
  (∀ (image core bitmap : Nat) (s : State) (x : Image) (y : ImageCore), imageCore s image core = some (x, y) →
    y.digestOk = false → coreUp s core = true →
    (polledCore s ≠ some (image, core) → exec (.imageChunkBitmap image core bitmap) s = .next s) ∧
    (polledCore s = some (image, core) → (∀ i, i < x.chunkCount → bitAt bitmap i = true) →
      ∃ s', exec (.imageChunkBitmap image core bitmap) s = .next s' ∧ s'.out = s.out ∧
        ∃ x', imageCore s' image core = some (x', { y with chunks := 2 ^ x.chunkCount - 1 })) ∧
    (polledCore s = some (image, core) → bitmap % 2 ^ x.chunkCount ≠ 2 ^ x.chunkCount - 1 → y.rounds < 4 →
      ∃ s', exec (.imageChunkBitmap image core bitmap) s = .next s' ∧
        s'.out = .imageChunks image (some core) (2 ^ x.chunkCount - 1 - bitmap % 2 ^ x.chunkCount) :: s.out ∧
        ∃ x', imageCore s' image core = some (x', { y with chunks := bitmap % 2 ^ x.chunkCount, rounds := y.rounds + 1 }))) ∧
  (∀ (image core : Nat) (s : State) (x : Image) (y : ImageCore), imageCore s image core = some (x, y) →
    y.digestOk = false → y.chunks = 2 ^ x.chunkCount - 1 → coreUp s core = true →
    (∃ s' x', exec (.coreDigestCheckDone image core true) s = .next s' ∧
      imageCore s' image core = some (x', { y with digestOk := true }) ∧
      (∀ n, x.loading = some n → (tvals x'.cores).all (·.digestOk) = true → x'.loaded = true ∧ asyncOf s' n = none)) ∧
    (y.rounds < 4 → ∃ s' x', exec (.coreDigestCheckDone image core false) s = .next s' ∧
      imageCore s' image core = some (x', { y with chunks := 0, rounds := y.rounds + 1 }) ∧
      s'.out = .imageChunks image (some core) (2 ^ x.chunkCount - 1) :: s.out) ∧
    (4 ≤ y.rounds → ∃ s', exec (.coreDigestCheckDone image core false) s = .next s' ∧
      bitAt (tget s'.boot.presentCores (core / 64) 0) (core % 64) = false))

/-- A MODEL_BIND that passes the checks of R430 is accepted and its binding is in progress under the next handle. When
the SE has decrypted the ranges the model is bound and the final record is written; when it fails, every range already
written reads zero, nothing is bound and the final record is written. A MODEL_UNBIND of a bound model that no open
sequence names is accepted; when it is done its ranges read zero, the model is gone and the final record is written.
Rests on 15_security.md R430, 15_security.md R431, 15_security.md R432. -/
def Obligations.ModelBindings : Prop :=
  (∀ (c : Nat) (s : State) (t : Taken), runs s c 0x0201 t → modelBad s t.ctx t.req = false → bindsActive s < 8 →
    modelsBound s < 1024 →
    ∃ s', exec (.modelBind c) s = .next s' ∧ accepts s s' c t ∧
      tfind s'.part.models s.part.nextModel =
        some { part := t.ctx, ranges := (modelEntries t.req).map readModelRange } ∧
      s'.part.generation = (s.part.generation + 1) % 2 ^ 64) ∧
  (∀ (seq : Nat) (s : State) (a : Async) (m : Model) (plain : List Bytes), asyncOf s seq = some a → a.opcode = 0x0201 →
    tfind s.part.models a.obj = some m → m.bound = false → plain.map List.length = m.ranges.map rangeBytes →
    (recallModel s m).2 = false →
    ∃ s', exec (.modelBindSeDone seq (.ok plain)) s = .next s' ∧ asyncOf s' seq = none ∧
      ∃ id, tfind s'.part.models a.obj = some { m with bound := true, modelId := id }) ∧
  (∀ (seq range chunk : Nat) (s : State) (a : Async) (m : Model), asyncOf s seq = some a → a.opcode = 0x0201 →
    tfind s.part.models a.obj = some m → m.bound = false →
    (∀ r, r = .digest ∨ r = .notInRoster ∨ r = .unwrap →
      ∃ s', exec (.modelBindSeDone seq r) s = .next s' ∧ asyncOf s' seq = none ∧ tfind s'.part.models a.obj = none) ∧
    (range < m.ranges.length → chunk < (nth m.ranges range {}).chunks → (recallModel s m).2 = false →
      ∃ s', exec (.modelBindSeDone seq (.tag range chunk)) s = .next s' ∧ asyncOf s' seq = none ∧
        tfind s'.part.models a.obj = none ∧
        ∀ k, k < range → ∀ x, (nth m.ranges k {}).dst ≤ x → x < (nth m.ranges k {}).dst + rangeBytes (nth m.ranges k {}) →
          memRead s'.mem.bytes x = 0)) ∧
  (∀ (c : Nat) (s : State) (t : Taken), runs s c 0x0202 t → bbits t.req 32 32 = 0 →
    modelBound s t.ctx (bbits t.req 0 32) = true → modelInUse s (bbits t.req 0 32) = false →
    ∃ s', exec (.modelUnbind c) s = .next s' ∧ accepts s s' c t ∧
      ∃ m, tfind s.part.models (bbits t.req 0 32) = some m ∧
        tfind s'.part.models (bbits t.req 0 32) = some { m with unbinding := some (commit s).2 }) ∧
  (∀ (model n : Nat) (s : State) (m : Model), tfind s.part.models model = some m → m.unbinding = some n →
    (recallModel s m).2 = false →
    ∃ s', exec (.modelUnbindDone model) s = .next s' ∧ asyncOf s' n = none ∧ tfind s'.part.models model = none ∧
      ∀ r ∈ m.ranges, ∀ x, r.dst ≤ x → x < r.dst + rangeBytes r → memRead s'.mem.bytes x = 0)

/-- An access that the arbitration lets in, that nothing holds and that conflicts with no tracked line is performed: a
read completes with the home's bytes, buffered ones laid over them, and after a write of masked bytes every one of them
reads back at its home (while memory keeps its canonical form). An access to a held channel or bank waits at the shelf,
one that must be arbitrated after another and one that a full buffer has no place for wait too, and change no byte. At a
failed far-tier device a read completes poisoned and a write changes nothing. A flush writes the bytes of its entry to
memory and takes the entry from the buffer.
Rests on 08_address_map_shelves.md R218, 08_address_map_shelves.md R219, 08_address_map_shelves.md R220,
08_address_map_shelves.md R221, 08_address_map_shelves.md R230, 08_address_map_shelves.md R234,
10_bandwidth_regulation.md R275. -/
def Obligations.HomesOfMemory : Prop :=
  (∀ (n k : Nat) (s s1 : State) (t t1 : Txn), txnOf s n = some t → t.phase = .issued ∨ t.phase = .shelfHeld → t.lost = false →
    admitOne s t.tag (txnWrites t) t.hpa = .ok (.shelf k) → shelfSleeps s k = false →
    (arbitrated s n t = false → ∀ lo hi, exec (.shelfAccess n lo hi) s = .next s) ∧
    (arbitrated s n t = true → s1 = arriveTxn s n t (decide (shelfUnits s k (shelfPartition s t) + t.units
        ≤ (shelfRegOf s k (shelfPartition s t)).effective)) → txnOf s1 n = some t1 →
      (shelfHolds s t.hpa = true → ∀ lo hi, ∃ s' t', exec (.shelfAccess n lo hi) s = .next s' ∧ txnOf s' n = some t' ∧
        t'.phase = .shelfHeld ∧ s'.mem.bytes = s.mem.bytes) ∧
      (shelfHolds s t.hpa = false → shelfTakes s1 n k t1 → lineFree s1 n t1 (.shelf k) →
        (t.kind = .read → ∃ s' t', exec (.shelfAccess n .good .good) s = .next s' ∧ txnOf s' n = some t' ∧
          t'.phase = .done ∧ t'.result = (List.range t.bytes).map (fun i => (i, (readByte s (t.hpa + i)).1)) ∧
          s'.mem.bytes = s.mem.bytes) ∧
        (t.kind = .write → wcbWaits s1 (.shelf k) t1 = true → ∃ s', exec (.shelfAccess n .good .good) s = .next s' ∧
          s'.mem.bytes = s.mem.bytes) ∧
        (t.kind = .write → wcbPlace s (.shelf k) (t.hpa / 128) → Memory.wf s.mem.bytes = true →
          (∀ e ∈ t.data, e.1 < 128 ∧ placeOf s (t.hpa / 128 * 128 + e.1) = .shelf k) →
          ∃ s' t', exec (.shelfAccess n .good .good) s = .next s' ∧ txnOf s' n = some t' ∧ t'.phase = .done ∧
            ∀ o v, (o, v) ∈ t.data → (∀ w, (o, w) ∈ t.data → w = v) →
              (readByte s' (t.hpa / 128 * 128 + o)).1 = v)))) ∧
  (∀ (n p d : Nat) (s s1 : State) (t t1 : Txn), txnOf s n = some t → t.phase = .issued ∨ t.phase = .shelfHeld →
    t.lost = false → farBase ≤ t.hpa → t.hpa < 2 * farBase → admitOne s t.tag (txnWrites t) t.hpa = .ok (.far p d) →
    arbitrated s n t = true → s1 = arriveTxn s n t false → txnOf s1 n = some t1 →
    ((tget (farOf s p).decoders d {}).failed = true → ∀ lo hi, ∃ s' t', exec (.farTierAccess n lo hi) s = .next s' ∧
      txnOf s' n = some t' ∧ t'.phase = .done ∧ t'.resultPoison = 15 ∧ s'.mem.bytes = s.mem.bytes) ∧
    ((tget (farOf s p).decoders d {}).failed = false → farTakes s1 n p d t1 → lineFree s1 n t1 (.far p) → t.kind = .read →
      ∃ s' t', exec (.farTierAccess n .good .good) s = .next s' ∧ txnOf s' n = some t' ∧ t'.phase = .done ∧
        t'.result = (List.range t.bytes).map (fun i => (i, (readByte s (t.hpa + i)).1)) ∧ s'.mem.bytes = s.mem.bytes)) ∧
  (∀ (home : Home) (line : Nat) (s : State) (e : WcbEntry), (wcbOf s home).filter (fun x => x.line == line) = [e] →
    (∀ k, home = .shelf k → shelfHolds s (line * 128) = false) → Memory.wf s.mem.bytes = true →
    ∃ s', exec (.wcbAgeFlush home line .good .good) s = .next s' ∧ (∀ x ∈ wcbOf s' home, x.line ≠ line) ∧
      ∀ o v, (o, v) ∈ e.bytes → (∀ w, (o, w) ∈ e.bytes → w = v) → o < 128 → memRead s'.mem.bytes (line * 128 + o) = v)

/-- A channel that retrains is held; when it ends well it resumes, and when it fails it is down. A far-tier device
that fails loses its decoders and no other device does. A repair command while a request is in progress changes only
REJECTED. A SOFT request with a spare of the row's bank left makes the shelf BUSY with that bank held and begins the flush
of every buffered line of the row; when it is done its RESULT is OK and a soft spare of the bank is used. A HARD request with a spare left ends QUEUED with the
row in the defect list; a cancel of a queued one ends CANCELLED and takes it out.
Rests on 08_address_map_shelves.md R218, 08_address_map_shelves.md R227, 08_address_map_shelves.md R228,
08_address_map_shelves.md R229, 08_address_map_shelves.md R234. -/
def Obligations.ChannelsDevicesRepairs : Prop :=
  (∀ (k ch : Nat) (s : State), k < 12 → ch < 32 → bitAt s.boot.presentShelves k = true →
    channelDown s (k * shelfSize + ch * 512) = false →
    ∃ s', exec (.shelfChannelRetrain k ch) s = .next s' ∧ bitAt (shelfOf s' k).held ch = true ∧
      (∀ i, i ≠ ch → bitAt (shelfOf s' k).held i = bitAt (shelfOf s k).held i) ∧ ∀ j, j ≠ k → shelfOf s' j = shelfOf s j) ∧
  (∀ (k ch : Nat) (s : State), bitAt (shelfOf s k).held ch = true →
    (∃ s', exec (.shelfChannelRetrained k ch true) s = .next s' ∧ bitAt (shelfOf s' k).held ch = false ∧
      (shelfOf s' k).chDown = (shelfOf s k).chDown) ∧
    (∃ s', exec (.shelfChannelRetrained k ch false) s = .next s' ∧ bitAt (shelfOf s' k).held ch = false ∧
      bitAt (shelfOf s' k).chDown ch = true)) ∧
  (∀ (p d : Nat) (s : State), p < 2 → d < 2 → bitAt (farOf s p).devicesUp d = true →
    ∃ s', exec (.farDeviceFailed p d) s = .next s' ∧ bitAt (farOf s' p).devicesUp d = false ∧
      (∀ k x, tfind (farOf s p).decoders k = some x → ∃ y, tfind (farOf s' p).decoders k = some y ∧
        y = (if x.enable = true ∧ x.device = d then { x with failed := true } else x)) ∧
      ∀ q, q ≠ p → farOf s' q = farOf s q) ∧
  (∀ (k row : Nat) (s : State), k < 12 → row < 2 ^ 32 → (shelfOf s k).repairBusy = true →
    ∀ i, i = .shelfRepairSoft k row ∨ i = .shelfRepairHard k row ∨ i = .shelfRepairCancelHard k row →
      ∃ s', exec i s = .next s' ∧
        shelfOf s' k = { shelfOf s k with repairRejected := min ((shelfOf s k).repairRejected + 1) 0xFFFF } ∧
        s'.boot = s.boot ∧ s'.mem.bytes = s.mem.bytes) ∧
  (∀ (k row : Nat) (s : State), k < 12 → row < 2 ^ 32 → (shelfOf s k).repairBusy = false → repairRefused s k row = none →
    ((spareOf s k (rowBank row)).softFree ≠ 0 →
      ∃ s', exec (.shelfRepairSoft k row) s = .next s' ∧ (shelfOf s' k).repairBusy = true ∧
        (shelfOf s' k).job = some { row := row } ∧
        ∀ e ∈ (shelfOf s' k).wcb, rowIdOf s (e.line * 128) = row → e.flushing = true) ∧
    (s.boot.defects.any (sameDefect (shelfDefect s k dkHardQueued row)) = false →
      (spareOf s k (rowBank row)).hardFree ≠ 0 → s.boot.defects.length < 4096 →
      ∃ s', exec (.shelfRepairHard k row) s = .next s' ∧ (shelfOf s' k).repairDone = true ∧
        (shelfOf s' k).repairResult = 1 ∧ s'.boot.defects.any (sameDefect (shelfDefect s k dkHardQueued row)) = true ∧
        s'.mem.bytes = s.mem.bytes) ∧
    (s.boot.defects.any (sameDefect (shelfDefect s k dkHardQueued row)) = true →
      ∃ s', exec (.shelfRepairCancelHard k row) s = .next s' ∧ (shelfOf s' k).repairDone = true ∧
        (shelfOf s' k).repairResult = 6 ∧ s'.boot.defects.any (sameDefect (shelfDefect s k dkHardQueued row)) = false)) ∧
  (∀ (k row : Nat) (bad : List Nat) (s : State), (shelfOf s k).job = some { row := row } → tget s.err.rowQueue k [] = [] →
    (∀ e ∈ (shelfOf s k).wcb, e.flushing = false) →
    ∃ s', exec (.softRepairDone k bad) s = .next s' ∧ (shelfOf s' k).job = none ∧ (shelfOf s' k).repairBusy = false ∧
      (shelfOf s' k).repairDone = true ∧ (shelfOf s' k).repairResult = 0 ∧
      (spareOf s' k (rowBank row)).softFree = (spareOf s k (rowBank row)).softFree - 1 ∧
      (spareOf s' k (rowBank row)).softUsed = min ((spareOf s k (rowBank row)).softUsed + 1) 0xFFFF)

/-- A SEQ_OPEN that passes the checks of R244 completes OK with the handle of a free entry in its generation and the
pool pages that no reservation holds; the entry holds the fields of the request and no other entry changes. A
SEQ_CLOSE of an open sequence of the context is accepted and the sequence is CLOSING; with CANCEL_PENDING no step that
waits to be planned names it any more. When no step and no move names it, the entry is free under the next generation
(0xFFFF is followed by 1), its pages go to ZEROING, LOST ones apart, and the final record is written.
Rests on 09_larder.md R243, 09_larder.md R244, 09_larder.md R268. -/
def Obligations.SequencesOpenAndClose : Prop :=
  (∀ (c : Nat) (s : State) (t : Taken) (q : Nat), runs s c 0x0300 t → bbits t.req 34 14 = 0 → bbits t.req 128 128 = 0 →
    (bbits t.req 0 32 = 0 ∨ modelBound s t.ctx (bbits t.req 0 32) = true) → bbits t.req 32 2 ≠ 3 →
    1 ≤ bbits t.req 96 32 → bbits t.req 96 32 ≤ 65536 → bbits t.req 64 32 ≤ bbits t.req 96 32 →
    freeSeqEntry s = some q →
    sum ((s.larder.seqs.filter (fun e => e.2.sstate != .free)).map (fun e => e.2.maxPages)) + bbits t.req 96 32
      ≤ 16777216 →
    bbits t.req 64 32 ≤ unreserved s t.ctx →
    ∃ s', exec (.seqOpen c) s = .next s' ∧
      answers s s' c t .ok (commit s).2 (seqHandle s q + unreserved s' t.ctx % 2 ^ 32 * 2 ^ 32) ∧
      seqOf s' q = {
        generation := (seqOf s q).generation, sstate := .opened, part := t.ctx, model := bbits t.req 0 32,
        cls := bbits t.req 32 2, deadline := bbits t.req 48 16, reserve := bbits t.req 64 32, maxPages := bbits t.req 96 32 } ∧
      ∀ k, k ≠ q → seqOf s' k = seqOf s k) ∧
  (∀ (c : Nat) (s : State) (t : Taken) (h : Nat), runs s c 0x0301 t → bbits t.req 33 95 = 0 → bbits t.req 0 32 = h →
    handleRefused s t.ctx h = none →
    (bbits t.req 32 1 = 0 → ∃ s', exec (.seqClose c) s = .next s' ∧ accepts s s' c t ∧
      (seqOf s' (h % 65536)).sstate = .closing ∧ s'.larder.steps = s.larder.steps) ∧
    (bbits t.req 32 1 = 1 → ∃ s', exec (.seqClose c) s = .next s' ∧ answers s s' c t .accepted (commit s).2 0 ∧
      (seqOf s' (h % 65536)).sstate = .closing ∧
      ∀ slot st, stepOf s' slot = some st → st.phase = .waiting → st.peer = none → namesSeq st (h % 65536) = false)) ∧
  (∀ (entry : Nat) (s : State) (i : CloseInfo), (seqOf s entry).close = some i → seqIdle s entry = true →
    ∃ s', exec (.seqCloseComplete entry) s = .next s' ∧ asyncOf s' i.seq = none ∧ (seqOf s' entry).sstate = .free ∧
      (seqOf s' entry).generation =
        (if (seqOf s entry).generation = 0xFFFF then 1 else (seqOf s entry).generation + 1) ∧
      ∀ e ∈ (seqOf s entry).pages, ∀ x, pageOf s e.2 = some x → x.pstate ≠ .lost →
        s.err.retireWaiting.contains e.2 = false → ∃ y, pageOf s' e.2 = some y ∧ y.pstate = .zeroing)

/-- A STEP_SUBMIT that passes the checks of R256 is accepted; a step with no touch list that is not skipped waits in
the step table with the class of its lead sequence and the partition's OVERRUN_POLICY. When a core of a preempted step
has written its image, its loads, releases and the writes of the save being over, the step holds its save area and its
control record and the core is free. When a step is finished and its writes are
visible, it leaves the table, its cores are free, and its queue has a completion record with its TAG and COMMIT_SEQ.
When a page's copy has been written the page-table entry names the destination and the source goes to ZEROING; when a
page's zeros have been written the page is FREE.
Rests on 09_larder.md R249, 09_larder.md R256, 09_larder.md R257, 09_larder.md R266, 09_larder.md R246,
02_strum_timebase.md R39. -/
def Obligations.StepsBeginAndEnd : Prop :=
  (∀ (c : Nat) (s : State) (t : Taken), runs s c 0x0302 t → stepRefused s t.ctx t.req (readStep t.req) false = none →
    ∃ s', exec (.stepSubmit c) s = .next s' ∧ answers s s' c t .accepted (commit s).2 0 ∧
      (bbits t.req 144 16 = 0 → bbits t.req 8 1 = 0 → ∀ slot, tfree s.larder.steps 0 65536 = some slot →
        stepOf s slot = none →
        ∃ st, stepOf s' slot = some st ∧ st.phase = .waiting ∧ st.seq = (commit s).2 ∧ st.tag = t.hdr.tag ∧
          st.part = t.ctx ∧ st.cls = (seqOf s (nth (readStep t.req).batch 0 0 % 65536)).cls ∧
          st.policy = (partOf s t.ctx).overrun ∧ st.budget = bbits t.req 16 8)) ∧
  (∀ (core slot : Nat) (s : State) (st : Step), (coreOf s core).step = some slot → (coreOf s core).saving = true →
    (coreOf s core).loads = [] → (∀ r ∈ (coreOf s core).releases, r.2.done = true) →
    (∀ n ∈ unacked s (core / 64), n ∉ (coreOf s core).saveWrites) → stepOf s slot = some st →
    ∃ s' x, exec (.preemptSaveDone core) s = .next s' ∧ (coreOf s' core).step = none ∧ (coreOf s' core).groups = [] ∧
      stepOf s' slot = some { st with saved := st.saved ++ [x] } ∧ x.area = saveImage (coreOf s core) ∧
      x.control = controlRecord (coreOf s core) ∧
      ∀ k, k ≠ core → coreOf s' k = coreOf s k) ∧
  (∀ (slot : Nat) (s : State) (st : Step), stepOf s slot = some st → stepFinished s slot st = true →
    (stepVisible s slot st).2 = true → (exitMapReady (stepVisible s slot st).1 slot st).2 = true →
    ∃ s', exec (.stepComplete slot) s = .next s' ∧ stepOf s' slot = none ∧ (∀ k, (coreOf s' k).step ≠ some slot) ∧
      (st.peer = none → st.mgmt = false → st.part < 16 → eqActive s st.eqId st.part = true →
        ∃ r ∈ (eqOf s' st.eqId).waiting, r.kind = .stepCompletion ∧ r.tag = st.tag ∧ r.commitSeq = st.seq)) ∧
  (∀ (src : Nat) (s : State) (m : Move) (j : MoverJob), s.larder.moves.find? (fun x => x.src == src && x.begun) = some m →
    jobFind s pagerUnit (pagerJob src 1024) = some j → j.result.isSome = true → jobBusy s pagerUnit j = false →
    ∃ s', exec (.pageMoveLand src) s = .next s' ∧
      ((seqOf s m.seq).sstate ≠ .free → tfind (seqOf s' m.seq).pages m.page = some m.dst) ∧
      (s.err.retireWaiting.contains src = false → s.err.retireWaiting.contains m.dst = false →
        ∃ y, pageOf s' src = some y ∧ y.pstate = .zeroing)) ∧
  (∀ (page : Nat) (s : State) (x : Page) (j : MoverJob), pageOf s page = some x → x.pstate = .zeroing →
    jobFind s pagerUnit (pagerJob page 1025) = some j → jobBusy s pagerUnit j = false →
    ∃ s', exec (.pageZeroingDone page) s = .next s' ∧ pageOf s' page = none ∧ ∀ k, k ≠ page → pageOf s' k = pageOf s k)

/-- A QOS_SET whose entries all pass their checks and whose resulting configuration every resource can hold applies
all of them at its commit; when a resource cannot, it completes ADMISSION_REFUSED and the regulators are unchanged.
The oldest transaction that waits at a port is issued and charged when its master would not exceed twice its budget,
the pool grants it and no switch of its route holds it; otherwise it goes on waiting and nothing changes. The completion of a transaction takes it
from the port with its units; one that nothing waits for changes nothing else, and one of a fill brings the line's
bytes to its cellar. An under-guarantee transaction that waited more than 256 cycles is counted once at its master.
Rests on 10_bandwidth_regulation.md R272, 10_bandwidth_regulation.md R274, 10_bandwidth_regulation.md R279,
10_bandwidth_regulation.md R282, 10_bandwidth_regulation.md R283, 10_bandwidth_regulation.md R286. -/
def Obligations.RegulatorsAndPorts : Prop :=
  (∀ (c : Nat) (s : State) (t : Taken), runs s c 0x0700 t → bbits t.req 0 8 = 0x10 → bbits t.req 8 8 = 0 →
    bbits t.req 32 32 = 0 → 1 ≤ (qosEntries t.req).length → (qosEntries t.req).length ≤ 375 →
    (qosEntries t.req).findSome? (qosRefused s t.mgmt t.ctx) = none →
    ((∀ e ∈ qosEntries t.req, (qosNeed s (forEach (qosEntries t.req) s qosApply) e).1
        ≤ (qosNeed s (forEach (qosEntries t.req) s qosApply) e).2) →
      ∃ s', exec (.qosSet c) s = .next s' ∧ answers s s' c t .ok (commit s).2 0 ∧
        (∀ e, qosEntries t.req = [e] → e.kind = 0 →
          masterOf s' e.index = { masterOf s e.index with guarantee := e.guarantee, weight := e.weight } ∧
          ∀ m, m ≠ e.index → masterOf s' m = masterOf s m) ∧
        (∀ e, qosEntries t.req = [e] → e.kind = 1 →
          shelfRegOf s' e.index e.part = { shelfRegOf s e.index e.part with guarantee := e.guarantee, weight := e.weight }) ∧
        (∀ e, qosEntries t.req = [e] → e.kind = 2 → allotOf s' e.part = e.guarantee)) ∧
    ((∃ e ∈ qosEntries t.req, (qosNeed s (forEach (qosEntries t.req) s qosApply) e).2
        < (qosNeed s (forEach (qosEntries t.req) s qosApply) e).1) →
      ∃ s' res, exec (.qosSet c) s = .next s' ∧ answers s s' c t .admissionRefused 0 res ∧ s'.reg = s.reg)) ∧
  (∀ (m n : Nat) (s : State) (t : Txn) (rest : List (Nat × Txn)), waitingAt s m = (n, t) :: rest →
    txnOf s n = some t →
    (outUnits s m + t.units ≤ 2 * (masterOf s m).budget → poolGrant s m t.units = true → routeHeld s t = false →
      (∀ site, admitOne s t.tag (txnWrites t) t.hpa ≠ .ok (.attic site)) →
      (∀ w, admitOne s t.tag (txnWrites t) t.hpa ≠ .ok (.peer w)) →
      ∃ s', exec (.masterPortIssue m) s = .next s' ∧
        txnOf s' n = some { t with phase := .issued, charged := true, missed := false } ∧
        ∀ k, k ≠ n → txnOf s' k = txnOf s k) ∧
    (2 * (masterOf s m).budget < outUnits s m + t.units ∨ poolGrant s m t.units = false ∨ routeHeld s t = true →
      exec (.masterPortIssue m) s = .next s)) ∧
  (∀ (n : Nat) (s : State) (t : Txn), txnOf s n = some t → t.phase = .done → t.absorbed = false →
    (t.client = .none → t.error = none → (t.master < 72 ∨ 84 ≤ t.master) →
      ∃ s', exec (.transactionCompletionReturn n) s = .next s' ∧ txnOf s' n = none ∧ s'.mem.bytes = s.mem.bytes ∧
        s'.cells = s.cells ∧ ∀ k, k ≠ n → txnOf s' k = txnOf s k) ∧
    (∀ c l f, t.client = .cellarFill c l → t.error = none → (t.master < 72 ∨ 84 ≤ t.master) →
      t.epoch = (cellarOf s c).epoch →
      tfind (cellarOf s c).fills l = some f →
      ∃ s' f', exec (.transactionCompletionReturn n) s = .next s' ∧ txnOf s' n = none ∧
        tfind (cellarOf s' c).fills l = some f' ∧ f'.ready = true ∧
        f'.data = t.result.map (fun x => (t.hpa % 128 + x.1, x.2)) ∧ s'.mem.bytes = s.mem.bytes)) ∧
  (∀ (n cycles : Nat) (s : State) (t : Txn), txnOf s n = some t → t.missed = false → 256 < cycles →
    (s.time.fret = 63 → s.time.backgroundEn = false) → t.phase = .waiting → t.underPort = true →
    ∃ s', exec (.guaranteeMiss n false cycles) s = .next s' ∧ txnOf s' n = some { t with missed := true } ∧
      (masterOf s' t.master).missedCycles = min ((masterOf s t.master).missedCycles + cycles) (2 ^ 32 - 1) ∧
      (masterOf s' t.master).missNow = (masterOf s t.master).missNow + 1)

/-- A MAP_HOST that passes the checks of R290 binds the PASID with the profile, root and queue of the request and
changes no other binding. An accepted UNMAP_HOST leaves no cached translation of the PASID in its range and drains the
uses in flight there; under UNBIND the binding drains and no fault entry of the PASID is open. When every use has
landed the final record is written and an unbound slot is free. A FAULT_RESPOND of an entry that is not open or has
another generation answers STALE and changes no translation state; of another context's entry it is denied; SUCCESS
closes the entry, INVALID fails every requester attached to it, and so does the timeout. A flushing read lands the
writes to its page.
Rests on 11_translation_faults.md R290, 11_translation_faults.md R301, 11_translation_faults.md R302,
11_translation_faults.md R304, 11_translation_faults.md R306, 11_translation_faults.md R307. -/
def Obligations.HostBindings : Prop :=
  (∀ (c : Nat) (s : State) (t : Taken), runs s c 0x0400 t → mapHostRefused s t = none →
    ∃ s' b, exec (.mapHost c) s = .next s' ∧ answers s s' c t .ok (commit s).2 0 ∧
      bindingOf s' (bbits t.req 0 20) = some b ∧ b.profile = profileOf t.req ∧ b.root = bbits t.req 128 64 ∧
      b.ctx = t.ctx ∧ b.draining = false ∧
      b.faultEq = (if bbits t.req 201 1 = 1 then none else some (bbits t.req 192 9)) ∧
      b.timeout = (if bbits t.req 208 10 = 0 then 100 else bbits t.req 208 10) ∧
      ∀ k, k ≠ bbits t.req 0 20 → bindingOf s' k = bindingOf s k) ∧
  (∀ (c : Nat) (s : State) (t : Taken) (pasid lo n : Nat), runs s c 0x0401 t → unmapRefused s t = none →
    bbits t.req 0 20 = pasid → lo = (if bbits t.req 20 2 = 0 then bbits t.req 64 64 else 0) →
    n = (if bbits t.req 20 2 = 0 then bbits t.req 128 64 else 2 ^ 64) →
    ∃ s' d, exec (.unmapHost c) s = .next s' ∧ accepts s s' c t ∧ tfind s'.trans.drains (commit s).2 = some d ∧
      d.uses = ((s.trans.uses.filter (fun e => e.2.pasid == pasid && overlaps e.2.addr e.2.bytes lo n)).map (·.1)) ∧
      d.unbind = (bbits t.req 20 2 == 2) ∧
      (∀ l ∈ s'.trans.leaves, l.pasid = pasid → overlaps l.addr (2 ^ l.size) lo n = false) ∧
      (∀ e ∈ s'.trans.psCache, e.pasid = pasid → overlaps e.addr (2 ^ e.size) lo n = false) ∧
      (bbits t.req 20 2 = 2 → (∃ b, bindingOf s' pasid = some b ∧ b.draining = true) ∧
        ∀ e ∈ s'.trans.faults, e.2.pasid = pasid → e.2.retrying = true)) ∧
  (∀ (seq : Nat) (s : State) (d : Drain), tfind s.trans.drains seq = some d → d.uses = [] →
    ∃ s', exec (.unmapHostDrained seq) s = .next s' ∧ asyncOf s' seq = none ∧ tfind s'.trans.drains seq = none ∧
      (d.unbind = true → bindingOf s' d.pasid = none) ∧ (d.unbind = false → s'.trans.bindings = s.trans.bindings)) ∧
  (∀ (c : Nat) (s : State) (t : Taken) (i : Nat), runs s c 0x0402 t → bbits t.req 0 9 = i → bbits t.req 9 7 = 0 →
    bbits t.req 34 30 = 0 → bbits t.req 32 2 ≤ 1 →
    ((∀ f, tfind s.trans.faults i = some f → f.retrying = true) →
      ∃ s', exec (.faultRespond c) s = .next s' ∧ answers s s' c t .ok 0 1 ∧ s'.trans = s.trans) ∧
    (∀ f, tfind s.trans.faults i = some f → f.retrying = false →
      (f.owner ≠ t.ctx → ∃ s', exec (.faultRespond c) s = .next s' ∧ answers s s' c t .deniedPartition 0 0 ∧
        s'.trans = s.trans) ∧
      (f.owner = t.ctx → f.generation ≠ bbits t.req 16 16 → ∃ s', exec (.faultRespond c) s = .next s' ∧
        answers s s' c t .ok 0 1 ∧ s'.trans = s.trans) ∧
      (f.owner = t.ctx → f.generation = bbits t.req 16 16 → bbits t.req 32 2 = 0 →
        ∃ s', exec (.faultRespond c) s = .next s' ∧ answers s s' c t .ok (commit s).2 0 ∧
          ∀ f', tfind s'.trans.faults i = some f' → f'.retrying = true ∧ f'.successes = f.successes + 1) ∧
      (f.owner = t.ctx → f.generation = bbits t.req 16 16 → bbits t.req 32 2 = 1 →
        ∃ s', exec (.faultRespond c) s = .next s' ∧ answers s s' c t .ok (commit s).2 0 ∧
          tfind s'.trans.faults i = none ∧ ∀ r ∈ f.requesters, ∃ k, (r, k) ∈ s'.trans.failures))) ∧
  (∀ (i : Nat) (s : State) (f : FaultEntry), tfind s.trans.faults i = some f → f.retrying = false →
    ∃ s', exec (.faultTimeout i) s = .next s' ∧ tfind s'.trans.faults i = none ∧
      ∀ r ∈ f.requesters, ∃ k, (r, k) ∈ s'.trans.failures) ∧
  (∀ (use : Nat) (s : State) (u : Use), tfind s.trans.uses use = some u →
    ∃ s', exec (.unmapFlushReadDone use) s = .next s' ∧ tfind s'.trans.uses use = none ∧
      (∀ n v, (n, v) ∈ s.trans.uses → v.pasid = u.pasid → usePage v = usePage u →
        tfind s'.trans.uses n = none ∧ ∀ e ∈ s'.trans.drains, n ∉ e.2.uses) ∧
      ∀ e ∈ s'.trans.drains, use ∉ e.2.uses)

/-- For a walk that has asked for an entry of a bound PASID: a read that fails ends it and fails its requesters; an
entry without PRESENT_BIT ends it, and its requesters wait at an open fault entry while one is free; a present
non-leaf entry that denies nothing takes it to the next level, whose entry it then asks for; a leaf that allows the
access, with the two bits ignored, ends it and is cached, unless its output lies in the hub's own ranges; with AD_MODE
UPDATE and a bit to set, a CompareAndSwap goes to the leaf. The swap that succeeds ends the walk with the leaf cached;
one that fails begins the walk again.
Rests on 11_translation_faults.md R292, 11_translation_faults.md R293, 11_translation_faults.md R294,
11_translation_faults.md R295, 11_translation_faults.md R300. -/
def Obligations.PageTableWalks : Prop :=
  (∀ (walk : Nat) (s : State) (w : Walk) (b : Binding), tfind s.trans.walks walk = some w → w.begun = true →
    w.leaf = none → hostSilent s = false → bindingOf s w.pasid = some b →
    (∃ s', exec (.walkEntryRead walk .failed) s = .next s' ∧ tfind s'.trans.walks walk = none ∧
      ∀ r ∈ w.requesters, ∃ k, (r, k) ∈ s'.trans.failures) ∧
    (∀ raw, bitAt (entryValue b.profile raw) b.profile.present = false → w.requesters ≠ [] → w.entry = none →
      (tfree s.trans.faults 0 512).isSome = true →
      ∃ s' i f, exec (.walkEntryRead walk (.data raw)) s = .next s' ∧ tfind s'.trans.walks walk = none ∧
        tfind s'.trans.faults i = some f ∧ f.pasid = w.pasid ∧ ∀ r ∈ w.requesters, r ∈ f.requesters) ∧
    (∀ raw x, entryValue b.profile raw = x → bitAt x b.profile.present = true → w.level + 1 ≠ b.profile.levels →
      (bitAt b.profile.leafLevels w.level && bitAt x b.profile.pageSize) = false →
      (b.profile.hierWrite = false ∨ w.write = false ∨ entryWrites b.profile x = true) →
      ∃ s' w', exec (.walkEntryRead walk (.data raw)) s = .next s' ∧ tfind s'.trans.walks walk = some w' ∧
        w'.level = w.level + 1 ∧ w'.base = outputField b.profile x 0 ∧ w'.requesters = w.requesters ∧
        s'.out = .walkRead walk (entryAddr b.profile w'.base w'.level w.addr) :: s.out) ∧
    (∀ raw x sh, entryValue b.profile raw = x → bitAt x b.profile.present = true → w.level + 1 = b.profile.levels →
      (w.write = true → entryWrites b.profile x = true) → sh = levelShift b.profile w.level →
      (b.profile.adMode = 2 → insideBars s (outputField b.profile x sh + w.addr % 2 ^ sh) = false →
        ∃ s' l, exec (.walkEntryRead walk (.data raw)) s = .next s' ∧ tfind s'.trans.walks walk = none ∧
          l ∈ s'.trans.leaves ∧ l.pasid = w.pasid ∧ l.addr = w.addr / 2 ^ sh * 2 ^ sh ∧ l.size = sh ∧
          l.out = outputField b.profile x sh) ∧
      (b.profile.adMode = 1 → adUpdate b.profile w.write x ≠ x →
        ∃ s', exec (.walkEntryRead walk (.data raw)) s = .next s' ∧
          tfind s'.trans.walks walk = some { w with leaf := some x } ∧
          ∃ old new, s'.out = .walkCas walk (entryAddr b.profile w.base w.level w.addr) old new :: s.out))) ∧
  (∀ (walk x : Nat) (s : State) (w : Walk) (b : Binding), tfind s.trans.walks walk = some w → w.leaf = some x →
    bindingOf s w.pasid = some b →
    (insideBars s (outputField b.profile (adUpdate b.profile w.write x) (levelShift b.profile w.level)
        + w.addr % 2 ^ levelShift b.profile w.level) = false →
      ∃ s' l, exec (.adUpdateCasReturn walk true) s = .next s' ∧ tfind s'.trans.walks walk = none ∧
        l ∈ s'.trans.leaves ∧ l.pasid = w.pasid ∧ l.size = levelShift b.profile w.level) ∧
    (∃ s' w', exec (.adUpdateCasReturn walk false) s = .next s' ∧ tfind s'.trans.walks walk = some w' ∧
      w'.leaf = none ∧ w'.begun = true ∧ w'.requesters = w.requesters))

/-- A PEER_WINDOW_SET of a window that nothing holds, with a well-formed request, maps the window for the context and
leaves every other window. A PEER_WINDOW_CLEAR by the context that holds the window unmaps it at its commit and keeps
the messages issued through it; when all of them have ended the final record is written. A PEER_ADMIT_SET sets or
clears one slot of one partition; a slot set as SEND takes the mark from the partition's other slots.
Rests on 14_chord_transport.md R387, 14_chord_transport.md R395, 14_chord_transport.md R396, 15_security.md R435. -/
def Obligations.PeerWindowsAndAdmission : Prop :=
  (∀ (c : Nat) (s : State) (t : Taken) (x : PeerWindow), runs s c 0x0500 t → tfind s.chord.windows (bbits t.req 0 6) = none →
    x = windowOf t.req t.ctx → bbits t.req 112 144 = 0 → x.remoteBase % 0x10000 = 0 → x.node ≠ s.chord.node →
    (x.eth = false → x.ipv6 = 0) →
    ∃ s', exec (.peerWindowSet c) s = .next s' ∧ answers s s' c t .ok (commit s).2 0 ∧
      tfind s'.chord.windows (bbits t.req 0 6) = some x ∧
      s'.part.generation = (s.part.generation + 1) % 2 ^ 64 ∧
      ∀ k, k ≠ bbits t.req 0 6 → tfind s'.chord.windows k = tfind s.chord.windows k) ∧
  (∀ (c : Nat) (s : State) (t : Taken) (w : Nat) (x : PeerWindow), runs s c 0x0501 t → bbits t.req 0 6 = w →
    bbits t.req 6 58 = 0 → tfind s.chord.windows w = some x → x.part = t.ctx →
    ∃ s' l, exec (.peerWindowClear c) s = .next s' ∧ accepts s s' c t ∧ tfind s'.chord.windows w = none ∧
      tfind s'.chord.clears (commit s).2 = some (w, l, 0) ∧
      (∀ p id m, (p, id) ∉ l → (id, m) ∈ (peerOf s p).messages → m.window ≠ some w) ∧
      ∀ k, k ≠ w → tfind s'.chord.windows k = tfind s.chord.windows k) ∧
  (∀ (seq w n : Nat) (l : List (Nat × Nat)) (s : State), tfind s.chord.clears seq = some (w, l, n) →
    (∀ m ∈ l, tfind (peerOf s m.1).messages m.2 = none) →
    ∃ s', exec (.peerWindowClearDrained seq) s = .next s' ∧ asyncOf s' seq = none ∧ tfind s'.chord.clears seq = none) ∧
  (∀ (c : Nat) (s : State) (t : Taken) (p slot : Nat), runs s c 0x0502 t → bbits t.req 8 56 = 0 → bbits t.req 0 4 = p →
    slot = p * 4 + bbits t.req 4 2 →
    (bbits t.req 7 1 = 1 → ∃ s', exec (.peerAdmitSet c) s = .next s' ∧ answers s s' c t .ok (commit s).2 0 ∧
      tfind s'.chord.tags slot = none ∧ ∀ k, k ≠ slot → tfind s'.chord.tags k = tfind s.chord.tags k) ∧
    (bbits t.req 7 1 = 0 → bbits t.req 64 64 ≠ 0 → (∀ e ∈ s.chord.tags, e.1 / 4 ≠ p → e.2.1 ≠ bbits t.req 64 64) →
      ∃ s', exec (.peerAdmitSet c) s = .next s' ∧ answers s s' c t .ok (commit s).2 0 ∧
        tfind s'.chord.tags slot = some (bbits t.req 64 64, bbits t.req 6 1 == 1) ∧
        (bbits t.req 6 1 = 1 → ∀ k x, k ≠ slot → k / 4 = p → tfind s'.chord.tags k = some x → x.2 = false) ∧
        ∀ k, k / 4 ≠ p → tfind s'.chord.tags k = tfind s.chord.tags k))

/-- A COPY between local ranges whose source is at hand ends with DONE the bytes / 64 and the code OK, or POISONED where
a source byte is poisoned; into its own cellar's scratch, every destination byte reads as the source byte did and no other
byte of memory changes, and elsewhere the bytes go out as writes of its port. A source line that is not at hand is read
through the port first. A COPY of a translated page of host memory writes the bytes that the host returned. A FILL ends
OK, and every byte is its byte of the pattern. Reserved bits make either MALFORMED
with nothing written. A descriptor whose transfer has ended and that waits for no transfer writes its 16-byte result
at RESULT_ADDR, unless a COPY or FILL names 0 (outside its cellar through the port), and with no completion peg its part
is then done and it leaves the mover.
Rests on 09_larder.md R255, 06_sparsity_routing.md R162, 07_core_store_cellar_buffer.md R194. -/
def Obligations.CopiesAndFills : Prop :=
  (∀ (c id : Nat) (h : Fetch) (s : State) (j : MoverJob) (b : Bytes) (a d len : Nat), descRuns s c id 0x01 j →
    b = jobBody s j → bbits b 64 64 = a → bbits b 128 64 = d → bbits b 192 32 = len → bbits b 8 4 = 0 → bbits b 48 16 = 0 →
    bbits b 224 160 = 0 → bbits b 448 64 = 0 → j.progress = 0 → j.srcPoison = false → rangeReady s c j false a len →
    rangeReady s c j true d len →
    ∃ t, exec (.copy c id h) s = .next t ∧ descEnded t c id (if jobPoison s c j a len then 3 else 0) (len / 64) 0 0 ∧
      jobWrites s t c j d (jobRead s c j a len) ∧
      (ownRange s c d len → inScratch s d len → Memory.wf s.mem.bytes = true → wroteBytes s t d (jobRead s c j a len))) ∧
  (∀ (c id : Nat) (h : Fetch) (s : State) (j : MoverJob) (b : Bytes) (a d len l : Nat), descRuns s c id 0x01 j →
    b = jobBody s j → bbits b 64 64 = a → bbits b 128 64 = d → bbits b 192 32 = len → bbits b 8 4 = 0 → bbits b 48 16 = 0 →
    bbits b 224 160 = 0 → bbits b 448 64 = 0 → jobRefusal s j false a len = none → jobRefusal s j true d len = none →
    l ∈ linesOf a len → lineHere s c j a len l = false →
    s.mem.txns.any (fun e => e.2.client == .moverRead c j.step j.part && e.2.hpa == (pieceOf s a len l).1) = false →
    ∃ t i x, exec (.copy c id h) s = .next t ∧ jobFind t c id = some { j with started := true } ∧ txnOf t i = some x ∧
      x.phase = .waiting ∧ x.kind = .read ∧ x.client = .moverRead c j.step j.part ∧ x.master = jobMaster s c j.step ∧
      x.hpa = (pieceOf s a len l).1 ∧ x.bytes = (pieceOf s a len l).2 ∧ t.mem.bytes = s.mem.bytes) ∧
  (∀ (c id : Nat) (s s1 : State) (j : MoverJob) (b p : Bytes) (a d out left : Nat), descRuns s c id 0x01 j → b = jobBody s j →
    bbits b 64 64 = a → bbits b 128 64 = d → bbits b 192 32 = p.length → bbits b 8 4 = 1 → bbits b 48 16 = 0 →
    bbits b 224 160 = 0 → bbits b 448 64 = 0 → j.progress = 0 → j.srcPoison = false → 0 < p.length → p.length ≤ left →
    p.length ≤ 4096 - a % 4096 → jobRefusal s j true d p.length = none →
    translate (startedAt s c id j) (jobPasid b) (stepPart s j.step) a false (.mover c id) = (s1, .ok out left) →
    ∃ t, exec (.copy c id (.data p)) s = .next t ∧ descEnded t c id 0 (p.length / 64) 0 0 ∧ jobWrites s1 t c j d p ∧
      (ownRange s1 c d p.length → inScratch s1 d p.length → Memory.wf s1.mem.bytes = true → wroteBytes s1 t d p)) ∧
  (∀ (c id : Nat) (s : State) (j : MoverJob) (b : Bytes) (d len : Nat), descRuns s c id 0x02 j →
    b = jobBody s j → bbits b 128 64 = d → bbits b 192 32 = len → len % 8 = 0 → bbits b 8 4 = 0 → bbits b 48 16 = 0 →
    bbits b 224 160 = 0 → bbits b 448 64 = 0 → j.progress = 0 →
    rangeReady s c j true d len →
    ∃ t, exec (.fill c id) s = .next t ∧ descEnded t c id 0 (len / 64) 0 0 ∧
      jobWrites s t c j d ((List.range len).map (fun i => BitVec.ofNat 8 (bits (bbits b 64 64) (8 * (i % 8)) 8))) ∧
      (ownRange s c d len → inScratch s d len → Memory.wf s.mem.bytes = true →
        wroteBytes s t d ((List.range len).map (fun i => BitVec.ofNat 8 (bits (bbits b 64 64) (8 * (i % 8)) 8))))) ∧
  (∀ (c id : Nat) (h : Fetch) (s : State) (j : MoverJob), bbits (jobBody s j) 48 16 ≠ 0 →
    (descRuns s c id 0x01 j → ∃ t, exec (.copy c id h) s = .next t ∧ descEnded t c id 2 0 0 0 ∧ t.mem = s.mem) ∧
    (descRuns s c id 0x02 j → ∃ t, exec (.fill c id) s = .next t ∧ descEnded t c id 2 0 0 0 ∧ t.mem = s.mem)) ∧
  (∀ (c id : Nat) (s : State) (j : MoverJob) (res b : Bytes) (a : Nat) (p : StepPart), jobFind s c id = some j →
    j.result = some res → b = jobBody s j → bbits b 384 64 = a → bbits b 46 1 = 0 → jobBusy s c j = false → j.uses = [] →
    partAt s j.step j.part = some p →
    (writesResult b = false ∨ j.posted = true → ∃ t, exec (.moverDescriptorDone c id) s = .next t ∧ jobFind t c id = none ∧
      partAt t j.step j.part = some { p with phase := .done } ∧ t.mem.bytes = s.mem.bytes) ∧
    (writesResult b = true → j.posted = false → res.length = 16 → jobRefusal s j true a 16 = none → ¬ ownRange s c a 16 →
      ∃ t, exec (.moverDescriptorDone c id) s = .next t ∧ jobFind t c id = some { j with posted := true } ∧
        jobWrites s t c j a res) ∧
    (writesResult b = true → j.posted = false → res.length = 16 → rangeReady s c j true a 16 → ownRange s c a 16 →
      inScratch s a 16 → Memory.wf s.mem.bytes = true →
      ∃ t, exec (.moverDescriptorDone c id) s = .next t ∧ jobFind t c id = none ∧
        partAt t j.step j.part = some { p with phase := .done } ∧ wroteBytes s t a res))

/-- With ready ranges, COMPRESS and DECOMPRESS end with the code, rows and counts that the tensor functions compute
from the bytes they read, and into cellar scratch no byte outside the written range changes. An input that overlaps
DST to DST + DST_CAP ends OVERLAP, and a malformed header ends a DECOMPRESS MALFORMED, with nothing written. A poisoned
header, and a poisoned index list of a GATHER, end POISONED with nothing written: the model's choice (assumption log entry
74). A GATHER whose remaining rows are at hand and apart from its destination ends with DONE the indices, AUX0 those out of range, and AUX1 the fetches saved within runs of
32; a table that is not 32-byte aligned ends MALFORMED.
Rests on 06_sparsity_routing.md R155, 06_sparsity_routing.md R156, 06_sparsity_routing.md R158,
06_sparsity_routing.md R159, 06_sparsity_routing.md R161, 06_sparsity_routing.md R162, 06_sparsity_routing.md
R164, 06_sparsity_routing.md R166. -/
def Obligations.SparseOperations : Prop :=
  (∀ (c id : Nat) (h : Fetch) (s : State) (j : MoverJob) (b : Bytes) (f : Fmt) (a d cap rows bpr : Nat) (o : SparseOut),
    descRuns s c id 0x20 j → b = jobBody s j → bbits b 64 64 = a → bbits b 128 64 = d → bbits b 192 64 = cap →
    bbits b 256 32 = rows → bbits b 288 16 = bpr → fmtOf (bbits b 304 4) = some f → bbits b 8 4 = 0 → bbits b 48 16 = 0 →
    bbits b 308 76 = 0 → bbits b 448 64 = 0 → 1 ≤ rows → 1 ≤ bpr → bpr ≤ 4096 →
    o = compressTensor (fun x => (jobByte s c j x).1.toNat) (fun x k => jobPoison s c j x k) f bpr rows a cap →
    (overlaps a (rows * denseStride f bpr) d cap = true →
      ∃ t, exec (.compress c id h) s = .next t ∧ descEnded t c id 4 0 0 0 ∧ t.mem = s.mem) ∧
    (overlaps a (rows * denseStride f bpr) d cap = false → rangeReady s c j false a (rows * denseStride f bpr) →
      rangeReady s c j true d (writesEnd o.writes) →
      ∃ t, exec (.compress c id h) s = .next t ∧ descEnded t c id o.code o.done o.aux0 o.aux1 ∧
        (inScratch s d (writesEnd o.writes) → Memory.wf s.mem.bytes = true →
          ∀ x, x < d ∨ d + writesEnd o.writes ≤ x → memRead t.mem.bytes x = memRead s.mem.bytes x))) ∧
  (∀ (c id : Nat) (h : Fetch) (s : State) (j : MoverJob) (b : Bytes) (a d cap n z zn : Nat) (hd : TensorHead) (o : SparseOut),
    descRuns s c id 0x21 j → b = jobBody s j → bbits b 64 64 = a → bbits b 128 64 = d → bbits b 192 64 = cap →
    bbits b 320 64 = z → bbits b 8 4 = 0 → bbits b 48 16 = 0 → bbits b 256 64 = 0 → bbits b 448 64 = 0 →
    hd = tensorHead (fun x => (jobByte s c j x).1.toNat) a → rangeReady s c j false a 64 →
    (jobPoison s c j a 64 = true →
      ∃ t, exec (.decompress c id h) s = .next t ∧ descEnded t c id 3 0 0 0 ∧ t.mem = s.mem) ∧
    (jobPoison s c j a 64 = false → headBad hd = true → ∃ t, exec (.decompress c id h) s = .next t ∧ descEnded t c id 2 0 0 0 ∧ t.mem = s.mem) ∧
    (jobPoison s c j a 64 = false → headBad hd = false → n = max 64 (max (hd.indexOff + 8 * (hd.rows + 1)) (hd.dataOff + hd.dataBytes)) →
      (d ≠ 0 → overlaps a n d cap = false) → rangeReady s c j false a n →
      o = decompressTensor (fun x => (jobByte s c j x).1.toNat) (fun x k => jobPoison s c j x k) a cap (decide (d ≠ 0)) →
      zn = (if z = 0 ∨ o.zmap = [] then 0 else maxOf (o.zmap.map (fun w => w.1 + 8))) →
      rangeReady s c j true d (writesEnd o.writes) → jobRefusal s j true z zn = none →
      ∃ t, exec (.decompress c id h) s = .next t ∧ descEnded t c id o.code o.done o.aux0 o.aux1 ∧
        (inScratch s d (writesEnd o.writes) → inScratch s z zn → Memory.wf s.mem.bytes = true →
          ∀ x, x < d ∨ d + writesEnd o.writes ≤ x → x < z ∨ z + zn ≤ x →
            memRead t.mem.bytes x = memRead s.mem.bytes x))) ∧
  (∀ (c id : Nat) (h : Fetch) (s : State) (j : MoverJob) (b : Bytes) (a d idx count row limit w : Nat) (l left : List Nat),
    descRuns s c id 0x22 j → b = jobBody s j → bbits b 64 64 = a → bbits b 128 64 = d → bbits b 192 64 = idx →
    bbits b 256 32 = count → bbits b 288 16 * 32 = row → bbits b 320 64 = limit →
    w = (if bbits b 304 1 = 1 then 8 else 4) → bbits b 8 4 = 0 → bbits b 48 16 = 0 → bbits b 305 15 = 0 →
    bbits b 448 64 = 0 → 1 ≤ count → count ≤ 65536 → 1 ≤ bbits b 288 16 → bbits b 288 16 ≤ 1024 →
    l = gatherIndices (fun x => (jobByte s c j x).1.toNat) idx w count → left = l.drop (32 * j.progress) →
    (a % 32 ≠ 0 → ∃ t, exec (.gather c id h) s = .next t ∧ descEnded t c id 2 0 0 0 ∧ t.mem = s.mem) ∧
    (a % 32 = 0 → rangeReady s c j false idx (count * w) → jobPoison s c j idx (count * w) = true →
      ∃ t, exec (.gather c id h) s = .next t ∧ descEnded t c id 3 0 0 0 ∧ t.mem = s.mem) ∧
    (a % 32 = 0 → rangeReady s c j false idx (count * w) → jobPoison s c j idx (count * w) = false →
      left.length ≤ 32 ∨ j.stage = [] →
      (∀ x ∈ left, x < limit → jobRefusal s j false (a + x * row) row = none ∧
        (fetchRow s c j (a + x * row) row).2 = true ∧ overlaps (a + x * row) row d (count * row) = false) →
      rangeReady s c j true d (count * row) →
      ∃ t code, exec (.gather c id h) s = .next t ∧
        code = (if j.srcPoison ∨ (left.filter (fun x => decide (x < limit))).any
          (fun x => jobPoison s c j (a + x * row) row) = true then 3 else 0) ∧
        descEnded t c id code count (l.filter (fun x => decide (limit ≤ x))).length
          (sum ((runsOf32 l).map (savedFetches limit)))))

/-- When every row of a ROUTE part has landed, its DISPATCHED_PEG is signalled and the part is done. A COMBINE whose
ROUTE descriptor is that of the oldest pass of its table, with its ranges at hand, takes that pass from the table: the
origin passes keep the tokens made final, and those of which none is held any more leave with their RESOLVED_PEGs due.
A COMBINE of another pass ends with ORDER, its result goes out to RESULT_ADDR, and the table is as it was.
Rests on 06_sparsity_routing.md R181, 06_sparsity_routing.md R182, 06_sparsity_routing.md R183,
06_sparsity_routing.md R184. -/
def Obligations.RoutingPartsEnd : Prop :=
  (∀ (slot part c : Nat) (s : State) (j : MoverJob) (p : StepPart), routeJob s slot part = some (c, j) →
    partAt s slot part = some p → p.kind = 2 → j.listed = true → jobBusy s c j = false → j.uses = [] →
    pegPasses s (jobMaster s c j.step) (bbits p.body 672 32) = true → pegAllowed s (stepPart s j.step) (bbits p.body 672 32) = true → (pegOf s (bbits p.body 672 32)).ptype = .event →
    (pegOf s (bbits p.body 672 32)).waiters = [] → j.step = slot → j.part = part →
    ∃ t, exec (.routeDispatched slot part) s = .next t ∧ jobFind t c (jobId j) = none ∧
      partAt t slot part = some { p with phase := .done } ∧
      pegOf t (bbits p.body 672 32) = pegAdd (pegOf s (bbits p.body 672 32)) 1 ∧ t.mem = s.mem) ∧
  (∀ (slot part c : Nat) (s s1 : State) (j : MoverJob) (sp : StepPart) (d : RouteDesc), routeJob s slot part = some (c, j) →
    partAt s slot part = some sp → sp.kind = 3 → j.result = none →
    routeReads (modJob s c (jobId j) (fun j => { j with started := true })) c j [(bbits sp.body 0 64, 128)] = (s1, true) →
    routeDesc (jobRead s1 c j (bbits sp.body 0 64) 128) = some d →
    (∀ (s2 s3 : State) (p : RoutePass) (rest : List RoutePass) (tb : RouteTable), tableOf s1 d.table = tb →
      tb.passes = p :: rest → p.desc = jobRead s1 c j (bbits sp.body 0 64) 128 →
      routeReads s1 c j ((combineMoves tb p).map (fun m => (m.1, m.2.2)) ++ combineNeeds tb p) = (s2, true) →
      routeWrites s2 c j ((combineWrites s2 c j tb p).map (fun w => (w.1, w.2.1.length))) = (s3, true) →
      ∃ t, exec (.combine slot part) s = .next t ∧ (tableOf t d.table).passes = rest ∧
        (tableOf t d.table).carry = tb.carry ∧
        (tableOf t d.table).origins =
          (combineKept tb p).filter (fun o => !(combineResolved tb p).any (fun r => r.pass == o.pass))) ∧
    ((∀ p rest, (tableOf s1 d.table).passes = p :: rest → p.desc ≠ jobRead s1 c j (bbits sp.body 0 64) 128) →
      jobRefusal s1 j true (bbits sp.body 64 64) 16 = none → jobBusy s1 c j = false → j.posted = false →
      ∃ t k, exec (.combine slot part) s = .next t ∧ tableOf t d.table = tableOf s1 d.table ∧
        jobFind t c (jobId j) = some k ∧ k.result = some (resultBytes 5 0 0 0) ∧ k.posted = true ∧
        jobWrites s1 t c j (bbits sp.body 64 64) (resultBytes 5 0 0 0)))

/-- A whole fill that arrives at a core store leaves the fills; every load that waited for it has the bytes it wants of the
line and waits for it no more; the line that was allocated for it then holds every byte, those that it held before as they
were, unless the fill is suppressed, when no line's bytes change; where no line was allocated none changes. A whole fill at
a cellar buffer leaves the fills, and every core fill that waits for it is ready, its own marks kept. A tracker in NOALLOC
whose 1,024 cycles have passed is idle; no other cellar changes.
Rests on 07_core_store_cellar_buffer.md R195, 07_core_store_cellar_buffer.md R198, 07_core_store_cellar_buffer.md
R201, 07_core_store_cellar_buffer.md R207. -/
def Obligations.CachesFillAndRelease : Prop :=
  (∀ (k line i : Nat) (s : State) (f : Fill), readyFill (coreOf s k).fills line = some (i, f) → f.valid = fullMask →
    (∀ b, b < 128 → (tfind f.data b).isSome = true) → f.cleanAfter = false →
    ∃ t, exec (.cacheFillArrival (.core k line)) s = .next t ∧ tfind (coreOf t k).fills i = none ∧
      (∀ n r, tfind (coreOf s k).loads n = some r → i ∈ r.need → ∃ r', tfind (coreOf t k).loads n = some r' ∧
        r'.need = r.need.filter (fun x => x != i) ∧ r'.threads = r.threads ∧ r'.dst = r.dst ∧
        ∀ b, bitAt (wantedMask r line) b = true → (tfind r'.got (line * 128 + b)).isSome = true) ∧
      (f.suppress = true → ∀ key l, tfind (coreOf s k).lines key = some l → l.valid ≠ 0 →
        tfind (coreOf t k).lines key = some l) ∧
      (coreFind (coreOf s k) line = none → (coreOf t k).lines = (coreOf s k).lines) ∧
      (f.suppress = false → ∀ key l, coreFind (coreOf s k) line = some key → tfind (coreOf s k).lines key = some l →
        ∃ l', tfind (coreOf t k).lines key = some l' ∧ l'.line = line ∧ l'.dirty = l.dirty ∧ notMask l'.valid = 0)) ∧
  (∀ (c line i : Nat) (s : State) (f : Fill), readyFill (cellarOf s c).fills line = some (i, f) → f.valid = fullMask →
    ∃ t, exec (.cacheFillArrival (.cellar c line)) s = .next t ∧ tfind (cellarOf t c).fills i = none ∧
      ∀ k n g, (k, n) ∈ f.waiters → tfind (coreOf s k).fills n = some g → g.ready = false →
        ∃ g', tfind (coreOf t k).fills n = some g' ∧ g'.ready = true ∧ notMask g'.valid = 0 ∧
          g'.suppress = g.suppress ∧ g'.cleanAfter = g.cleanAfter) ∧
  (∀ (c i : Nat) (s : State) (x : Tracker), tfind (cellarOf s c).trackers i = some x → 32 ≤ x.advances →
    ∃ t, exec (.trackerIdleTimeout c i) s = .next t ∧ tfind (cellarOf t c).trackers i = none ∧
      (cellarOf t c).lines = (cellarOf s c).lines ∧ t.mem = s.mem ∧ ∀ k, k ≠ c → cellarOf t k = cellarOf s k)

/-- INVAL and CLEAN_INVAL of a cellar buffer, by range or by way, skip every selected line in a locked way and count
each in SKIPPED_LOCKED; every other selected line is gone afterwards and counted in LINES; a way whose fill has brought
no byte yet counts as no line. CLEAN_INVAL leaves a
skipped line clean and CLEAN leaves every selected line clean, locked ones included, and drops none. INVAL writes no
memory. WAY_LOCK without preload adds the ways of its mask to the locked ones when the limits allow it, and otherwise
reads MALFORMED and changes no cell; WAY_UNLOCK unlocks exactly the ways of its mask and keeps every line.
Rests on 07_core_store_cellar_buffer.md R203, 07_core_store_cellar_buffer.md R204, 07_core_store_cellar_buffer.md
R205, 07_core_store_cellar_buffer.md R208. -/
def Obligations.MaintenanceOfLines : Prop :=
  (∀ (c id : Nat) (s : State) (j : MoverJob) (m : Maint) (sel : List Nat), m = maintOf (jobBody s j) → m.coreTarget = false →
    maintBad s c j (jobBody s j) false = false → maintWaits s c m = false →
    (m.byWay = false → jobRefusal s j false m.addr m.length = none) →
    sel = maintKeys (cellarOf s c).lines m (maintWayKey s c m) → (tkeys (cellarOf s c).lines).Nodup →
    let locked := fun (k : Nat) => bitAt (cellarOf s c).lockedWays (keyWay k)
    let count := fun (l : List Nat) => sum (l.map (fun k => lineCounts (tget (cellarOf s c).lines k {})))
    (descRuns s c id 0x31 j → ∃ t aux, exec (.inval c id) s = .next t ∧
      descEnded t c id 0 (count (sel.filter (fun k => !locked k))) (count (sel.filter locked)) aux ∧
      (∀ k ∈ sel, bitAt (cellarOf s c).lockedWays (keyWay k) = false → tfind (cellarOf t c).lines k = none) ∧
      (∀ k, k ∉ sel ∨ bitAt (cellarOf s c).lockedWays (keyWay k) = true →
        tfind (cellarOf t c).lines k = tfind (cellarOf s c).lines k) ∧
      t.mem = s.mem ∧ ∀ i, i ≠ c → cellarOf t i = cellarOf s i) ∧
    (descRuns s c id 0x32 j → ∃ t aux, exec (.cleanInval c id) s = .next t ∧
      descEnded t c id 0 (count (sel.filter (fun k => !locked k))) (count (sel.filter locked)) aux ∧
      (∀ k ∈ sel, bitAt (cellarOf s c).lockedWays (keyWay k) = false → tfind (cellarOf t c).lines k = none) ∧
      (∀ k l, bitAt (cellarOf s c).lockedWays (keyWay k) = true → tfind (cellarOf s c).lines k = some l →
        tfind (cellarOf t c).lines k = some (if k ∈ sel then { l with dirty := 0 } else l)) ∧
      ∀ i, i ≠ c → cellarOf t i = cellarOf s i) ∧
    (descRuns s c id 0x30 j → ∃ t aux, exec (.clean c id) s = .next t ∧ descEnded t c id 0 (count sel) 0 aux ∧
      (∀ k l, tfind (cellarOf s c).lines k = some l →
        tfind (cellarOf t c).lines k = some (if k ∈ sel then { l with dirty := 0 } else l)) ∧
      ∀ i, i ≠ c → cellarOf t i = cellarOf s i)) ∧
  (∀ (c id : Nat) (s : State) (j : MoverJob) (m : Maint) (mask : Nat), descRuns s c id 0x33 j → m = maintOf (jobBody s j) →
    mask = Nat.lor (cellarOf s c).lockedWays m.wayMask →
    (maintBad s c j (jobBody s j) true = false → lockAllowed (cellarOf s c) mask = true → m.length = 0 →
      ∃ t lines, exec (.wayLock c id) s = .next t ∧ descEnded t c id 0 lines 0 0 ∧ (cellarOf t c).lockedWays = mask ∧
        (cellarOf t c).lines = (cellarOf s c).lines ∧ t.mem = s.mem) ∧
    (maintBad s c j (jobBody s j) true = true ∨ lockAllowed (cellarOf s c) mask = false →
      ∃ t, exec (.wayLock c id) s = .next t ∧ descEnded t c id 2 0 0 0 ∧ t.cells = s.cells ∧ t.mem = s.mem)) ∧
  (∀ (c id : Nat) (s : State) (j : MoverJob), descRuns s c id 0x34 j → maintBad s c j (jobBody s j) true = false →
    ∃ t, exec (.wayUnlock c id) s = .next t ∧
      descEnded t c id 0 (linesInWays (cellarOf s c) (Nat.land (cellarOf s c).lockedWays (maintOf (jobBody s j)).wayMask)) 0 0 ∧
      (∀ w, bitAt (cellarOf t c).lockedWays w =
        (bitAt (cellarOf s c).lockedWays w && !bitAt (maintOf (jobBody s j)).wayMask w)) ∧
      (cellarOf t c).lines = (cellarOf s c).lines ∧ t.mem = s.mem)

/-- A well-formed read (shared, owned or uncached), write or atomic of hub memory stands in the site's master port
under its partition's tag; an address it may not name gets ACCESS_ERROR, a malformed header MALFORMED and a count. A
read of host memory returns the host's data, a write goes to the host. WB_DIRTY and EVICT_CLEAN enter the port as
well; at the line's home the owner's masked bytes are written and its entry goes, and a sharer is taken away. A peg
operation that no earlier request of its link precedes turns its peg and returns the value before. STEP_DONE ends its part, STEP_SAVED keeps its token. A report over grant by 5% counts; URGENCY reaches the
port unless the die has static priority. A snoop's answer writes the owner's bytes and takes its copy away; an RSP
completes the hub's read.
Rests on 12_attic_ports.md R315, 12_attic_ports.md R316, 12_attic_ports.md R317, 12_attic_ports.md R318,
12_attic_ports.md R319, 12_attic_ports.md R320, 12_attic_ports.md R322, 12_attic_ports.md R324, 12_attic_ports.md
R325, 12_attic_ports.md R327, 09_larder.md R264. -/
def Obligations.DieMessagesServed : Prop :=
  (∀ (site : Nat) (m : AtpMsg) (s s1 : State), headerOk m = true → m.host = false → (siteOf s1 site).cap.caching = true →
    (dieSends s site 0x01 m s1 →
      (dieMayName s1 site true m.address = true → ∃ t x, exec (.rdShared site m) s = .next t ∧ dieQueued s t site m.txn x ∧
        x.kind = .read ∧ x.dir = .shared ∧ x.bytes = (if (siteOf s1 site).cap.cxl then 64 else 128) ∧
        x.hpa = m.address / x.bytes * x.bytes) ∧
      (dieMayName s1 site true m.address = false → ∃ t, exec (.rdShared site m) s = .next t ∧ dieTold t site m.txn 2 [])) ∧
    (dieSends s site 0x02 m s1 →
      (dieMayName s1 site true m.address = true → ∃ t x, exec (.rdOwn site m) s = .next t ∧ dieQueued s t site m.txn x ∧
        x.kind = .read ∧ x.dir = .own ∧ x.bytes = (if (siteOf s1 site).cap.cxl then 64 else 128) ∧
        x.hpa = m.address / x.bytes * x.bytes) ∧
      (dieMayName s1 site true m.address = false → ∃ t, exec (.rdOwn site m) s = .next t ∧ dieTold t site m.txn 2 []))) ∧
  (∀ (site : Nat) (m : AtpMsg) (s s1 : State), headerOk m = false →
    (dieSends s site 0x01 m s1 → ∃ t, exec (.rdShared site m) s = .next t ∧ dieTold t site m.txn 3 [] ∧
      (siteOf t site).protocolErrors = min ((siteOf s1 site).protocolErrors + 1) 0xFFFF ∧ t.mem = s.mem) ∧
    (dieSends s site 0x04 m s1 → ∃ t, exec (.wrNc site m) s = .next t ∧ dieTold t site m.txn 3 [] ∧ t.mem = s.mem)) ∧
  (∀ (site : Nat) (m : AtpMsg) (h : Fetch) (s s1 : State), headerOk m = true → unitsOk m = true → m.host = false →
    dieMayName s1 site false m.address = true →
    (dieSends s site 0x03 m s1 → ∃ t x, exec (.rdNc site m h) s = .next t ∧ dieQueued s t site m.txn x ∧ x.kind = .read ∧
      x.dir = .none ∧ x.hpa = m.address ∧ x.bytes = 32 * m.len) ∧
    (dieSends s site 0x04 m s1 → ∃ t x, exec (.wrNc site m) s = .next t ∧ dieQueued s t site m.txn x ∧ x.kind = .write ∧
      x.hpa = m.address / 128 * 128 ∧ x.data = maskedBytes m)) ∧
  (∀ (site out rest : Nat) (m : AtpMsg) (b : Bytes) (s s1 s2 : State), headerOk m = true → unitsOk m = true → m.host = true →
    (siteOf s1 site).cap.cxl = false →
    (dieSends s site 0x03 m s1 → translate s1 m.pasid (siteOwner s1 site) m.address false (.attic site m.txn) = (s2, .ok out rest) →
      b.length = 32 * m.len → ∃ t, exec (.rdNc site m (.data b)) s = .next t ∧ dieTold t site m.txn 0 b) ∧
    (dieSends s site 0x04 m s1 → translate s1 m.pasid (siteOwner s1 site) m.address true (.attic site m.txn) = (s2, .ok out rest) →
      ∃ t, exec (.wrNc site m) s = .next t ∧ dieTold t site m.txn 0 [] ∧
        ∀ r ∈ runsOf (maskedBytes m), Out.hostWrite (out - m.address % 128 + r.1) r.2 (m.status == 1) ∈ t.out)) ∧
  (∀ (site : Nat) (m : AtpMsg) (op : AtomOp) (ty : AtomType) (s s1 : State), dieSends s site 0x07 m s1 →
    aopOf m.aop = some op → atypeOf m.atype = some ty → headerOk m = true → m.host = false → m.len = 1 →
    atomDefined op ty = true → (siteOf s1 site).cap.cxl = false → dieMayName s1 site false m.address = true →
    m.address % atomBytes ty = 0 → ∃ t x l, exec (.atpAtomic site m) s = .next t ∧ dieQueued s t site m.txn x ∧
      x.kind = .atomic ∧ x.atom = some (op, ty) ∧ x.lanes = [l] ∧ l.addr = m.address ∧
      l.sb = leAt m.data 0 8 % 256 ^ atomBytes ty ∧ l.sc = leAt m.data 8 8 % 256 ^ atomBytes ty) ∧
  (∀ (site : Nat) (m : AtpMsg) (s s1 : State), headerOk m = true → m.host = false → (siteOf s1 site).cap.caching = true →
    dieMayName s1 site true m.address = true →
    (dieSends s site 0x05 m s1 → unitsOk m = true → ∃ t x, exec (.wbDirty site m) s = .next t ∧
      txnOf t s.cells.nextId = some x ∧ x.client = .dieBack site m.txn ∧ x.phase = .waiting ∧ x.master = 64 + site ∧
      x.tag = siteOwner s site ∧ x.kind = .write ∧ x.hpa = m.address / 64 * 64 ∧ x.data = maskedBytes m ∧
      t.mem.bytes = s.mem.bytes ∧ t.attic = s.attic ∧ t.out = s.out) ∧
    (dieSends s site 0x06 m s1 → ∃ t x, exec (.evictClean site m) s = .next t ∧ txnOf t s.cells.nextId = some x ∧
      x.client = .dieBack site m.txn ∧ x.phase = .waiting ∧ x.master = 64 + site ∧ x.tag = siteOwner s site ∧ x.kind = .read ∧
      x.bytes = 0 ∧ x.hpa = m.address / 64 * 64 ∧ t.mem.bytes = s.mem.bytes ∧ t.attic = s.attic ∧ t.out = s.out)) ∧
  (∀ (n k site m : Nat) (e : DirEntry) (s s1 : State) (t t1 : Txn), txnOf s n = some t → t.client = .dieBack site m →
    t.phase = .issued ∨ t.phase = .shelfHeld → t.lost = false → t.dir = .none →
    admitOne s t.tag (txnWrites t) t.hpa = .ok (.shelf k) → shelfSleeps s k = false → arbitrated s n t = true →
    s1 = arriveTxn s n t (decide (shelfUnits s k (shelfPartition s t) + t.units ≤ (shelfRegOf s k (shelfPartition s t)).effective)) →
    txnOf s1 n = some t1 → shelfHolds s t.hpa = false → shelfTakes s1 n k t1 → (∀ w ∈ wcbOf s (.shelf k), w.flushing = false) →
    tfind s.attic.dir (t.hpa / 128) = some e → (siteOf s site).cap.cxl = false →
    (t.kind = .write → e.owner = some site → wcbPlace s (.shelf k) (t.hpa / 128) → Memory.wf s.mem.bytes = true →
      (∀ x ∈ t.data, x.1 < 128 ∧ placeOf s (t.hpa / 128 * 128 + x.1) = .shelf k) →
      ∃ s' t', exec (.shelfAccess n .good .good) s = .next s' ∧ txnOf s' n = some t' ∧ t'.phase = .done ∧
        (e.sharers = 0 → tfind s'.attic.dir (t.hpa / 128) = none) ∧
        ∀ o v, (o, v) ∈ t.data → (∀ w, (o, w) ∈ t.data → w = v) → (readByte s' (t.hpa / 128 * 128 + o)).1 = v) ∧
    (t.kind = .read → e.owner = none → ∃ s' t', exec (.shelfAccess n .good .good) s = .next s' ∧ txnOf s' n = some t' ∧
      t'.phase = .done ∧ s'.mem.bytes = s.mem.bytes ∧
      ∀ e', tfind s'.attic.dir (t.hpa / 128) = some e' → bitAt e'.sharers site = false)) ∧
  (∀ (site id n : Nat) (m : AtpMsg) (s s1 : State), dieSends s site 0x08 m s1 → headerOk m = true → m.host = false →
    m.len = 1 → (siteOf s1 site).cap.cxl = false → id = m.address % 2 ^ 32 → n = leAt m.data 0 8 % 2 ^ 32 →
    (pegAllowed s1 (siteOwner s1 site) id = true → m.aop ≤ 4 →
      pegOvertakes s1 site = true ∨ pegPasses s1 (64 + site) id = false → exec (.pegOp site m) s = .next s1) ∧
    (pegAllowed s1 (siteOwner s1 site) id = true → pegOvertakes s1 site = false → pegPasses s1 (64 + site) id = true →
      (pegOf s1 id).waiters = [] →
      (m.aop = 0 ∨ m.aop = 2 → ∃ t, exec (.pegOp site m) s = .next t ∧
        dieTold t site m.txn 0 (leBytes 32 (pegResult (pegOf s1 id))) ∧ pegOf t id = pegAdd (pegOf s1 id) n) ∧
      (m.aop = 1 → pegMeets (pegOf s1 id) n = none → ∃ t, exec (.pegOp site m) s = .next t ∧ t.out = s.out ∧
        (pegOf t id).waiters = [{ attic := some (site, m.txn), sb := n }]) ∧
      (m.aop = 3 → ∃ t, exec (.pegOp site m) s = .next t ∧ dieTold t site m.txn 0 [] ∧
        (pegOf t id).count = 0 ∧ (pegOf t id).generation = ((pegOf s1 id).generation + 1) % 2 ^ 14) ∧
      (m.aop = 4 → ∃ t, exec (.pegOp site m) s = .next t ∧ dieTold t site m.txn 0 (leBytes 32 (pegWord (pegOf s1 id))) ∧
        t.cells = s.cells)) ∧
    (pegAllowed s1 (siteOwner s1 site) id = false → m.aop ≤ 4 → pegCode s1 id = ecAccessError →
      ∃ t, exec (.pegOp site m) s = .next t ∧ dieTold t site m.txn 2 [] ∧ t.cells = s.cells)) ∧
  (∀ (site : Nat) (m : AtpMsg) (p : AtticPart) (l : List AtticPart) (q : StepPart) (st : Step) (s s1 : State),
    dieParts s1 site m.txn = p :: l → partAt s1 m.txn p.part = some q → stepOf s1 m.txn = some st →
    (dieSends s site 0x09 m s1 → m.status = 0 → ∃ t, exec (.atpStepDone site m) s = .next t ∧
      partAt t m.txn p.part = some { q with phase := .done } ∧
      ∀ y ∈ (siteOf t site).parts, ¬ (y.step = p.step ∧ y.part = p.part)) ∧
    (dieSends s site 0x09 m s1 → m.status = 1 ∨ m.status = 2 → exec (.atpStepDone site m) s =
      .next (failStep (partDone (releasePart s1 site p) m.txn p.part) m.txn .poisoned 0)) ∧
    (dieSends s site 0x0A m s1 → (siteOf s1 site).cap.preempt = true → p.stopping = true → m.len = 1 → m.data.length = 32 →
      st.phase = .saving → ∃ t, exec (.stepSaved site m) s = .next t ∧
        partAt t m.txn p.part = some { q with phase := .saved, token := m.data })) ∧
  (∀ (site v : Nat) (s : State), hearsDie s site = true → (siteOf s site).reported = false → v < 65536 →
    ((atticPowerOf s site).lastGrant * 105 < v * 100 → ∃ t, exec (.powerReport site v) s = .next t ∧
      (siteOf t site).powerOver = min ((siteOf s site).powerOver + 1) 0xFFFF ∧ (siteOf t site).surplus = (siteOf s site).surplus + 1 ∧
      (siteOf t site).within = 0 ∧ (atticPowerOf t site).reported = v) ∧
    (v * 100 ≤ (atticPowerOf s site).lastGrant * 105 → (atticPowerOf s site).measured * 95 ≤ v * 100 →
      ∃ t, exec (.powerReport site v) s = .next t ∧ (siteOf t site).powerOver = (siteOf s site).powerOver ∧
        (siteOf t site).surplus = 0 ∧
        (v ≤ (atticPowerOf s site).lastGrant → 1 ≤ (siteOf s site).within → (siteOf t site).halved = false) ∧
        ((atticPowerOf s site).lastGrant < v → (siteOf t site).within = 0))) ∧
  (∀ (site : Nat) (m : AtpMsg) (s : State), hearsDie s site = true → (siteOf s site).cap.urgency = true → headerOk m = true →
    (siteOf s site).cap.cxl = false → ∃ t, exec (.urgency site m) s = .next t ∧ (tget t.reg.masters (64 + site) {}).urgency =
      (if (siteOf s site).cap.staticPriority then (tget s.reg.masters (64 + site) {}).urgency else m.urgency % 4)) ∧
  (∀ (site line : Nat) (m : AtpMsg) (x : Snoop) (e : DirEntry) (s s1 : State), dieSends s site 0x10 m s1 →
    line = m.address / 128 → (siteOf s1 site).cap.cxl = false → tfind s1.attic.snoops line = some x → x.sites = [site] →
    tfind s1.attic.dir line = some e → e.owner = some site → m.len ≤ 4 → ∃ t, exec (.snpRsp site m) s = .next t ∧
      t.mem = (writeLine s1 line (maskedBytes { m with mask := 2 ^ 128 - 1 }) (diePoison m)).mem ∧
      (x.inval = true → e.sharers = 0 → tfind t.attic.dir line = none) ∧
      (x.inval = false → ∃ e', tfind t.attic.dir line = some e' ∧ e'.owner = none ∧ bitAt e'.sharers site = true) ∧
      (x.txn = none → tfind t.attic.snoops line = none) ∧
      (x.txn ≠ none → tfind t.attic.snoops line = some { x with sites := [] })) ∧
  (∀ (site n : Nat) (m : AtpMsg) (q : WindowReq) (x : Txn) (s s1 : State), dieSends s site 0x11 m s1 →
    tfind (siteOf s1 site).windowReqs m.txn = some q → q.opcode = 0x41 → q.holds = false → q.txn = some n →
    txnOf s1 n = some x → x.phase = .issued → m.status ≤ 4 → (tkeys s1.mem.txns).Nodup →
    ∃ t y, exec (.atpRsp site m) s = .next t ∧ txnOf t n = some y ∧ y.phase = .done ∧
      y.result = (m.data.take x.bytes).zipIdx.map (fun (z : Byte × Nat) => (z.2, z.1)) ∧
      y.resultPoison = (if m.status = 0 then 0 else 15) ∧ y.error = (if m.status = 2 then some ecAccessError else none))

/-- A capability that passes the profile brings its port UP and present; a refused one, or none within 10 µs, fails
the attempt: up to two more follow, then the site is down and out of the present mask. No sideband answer before the
first UP makes the site unfitted. Agreeing lane maps lead to the capability exchange, the third disagreement ends the
attempts. A changed epoch, missing heartbeats, credits or snoop answers lose the die, RESET_REQ and a missed stop
reset it: no directory entry, snoop, request or part of it stays, and what it owned in scratch is poison. A link going
down or up retrains without touching the directory. A good rail starts bring-up.
Rests on 12_attic_ports.md R310, 12_attic_ports.md R311, 12_attic_ports.md R313, 12_attic_ports.md R314,
12_attic_ports.md R320, 12_attic_ports.md R324, 12_attic_ports.md R331, 12_attic_ports.md R332, 12_attic_ports.md
R333, 12_attic_ports.md R334. -/
def Obligations.AtticPortsComeAndGo : Prop :=
  (∀ (site : Nat) (c : DieCap) (test : LaneTest) (s s1 : State), inAttempt s site = true → (siteOf s site).afterReset = false →
    s1 = applyLanes s site test → trained (siteOf s1 site) test.rate = true →
    (capRefused s1 site c = none → (siteOf s site).held = [] → ∃ t, exec (.dieCap site c test) s = .next t ∧
      (siteOf t site).astate = .up ∧ (siteOf t site).present = true ∧ (siteOf t site).everUp = true ∧ (siteOf t site).cap = c ∧
      (siteOf t site).dieEpoch = c.dieEpoch ∧ (siteOf t site).rate = test.rate ∧
      (atticPowerOf t site).grant = min (atticPowerOf s1 site).budget c.powerMax) ∧
    (∀ r, capRefused s1 site c = some r → (siteOf s site).attempts < 3 → ∃ t v, exec (.dieCap site c test) s = .next t ∧
      (siteOf t site).astate = (siteOf s site).astate ∧ (siteOf t site).attempts = (siteOf s site).attempts + 1 ∧
      (siteOf t site).lastReason = r ∧ t.out.head? = some (.sideband site sbHubCap v)) ∧
    (∀ r, capRefused s1 site c = some r → 3 ≤ (siteOf s site).attempts → ∃ t, exec (.dieCap site c test) s = .next t ∧
      (siteOf t site).astate = .down ∧ (siteOf t site).present = false ∧ (siteOf t site).lastReason = r)) ∧
  (∀ (site : Nat) (s : State), inAttempt s site = true → (siteOf s site).attempts < 3 →
    ((siteOf s site).afterReset = false → ∃ t, exec (.dieCapTimeout site) s = .next t ∧
      (siteOf t site).attempts = (siteOf s site).attempts + 1 ∧ (siteOf t site).lastReason = downTimeout) ∧
    ((siteOf s site).everUp = true → ∃ t, exec (.atticSidebandTimeout site) s = .next t ∧
      (siteOf t site).attempts = (siteOf s site).attempts + 1 ∧ (siteOf t site).lastReason = downTimeout) ∧
    ((siteOf s site).everUp = false → ∃ t, exec (.atticSidebandTimeout site) s = .next t ∧ t.out = s.out ∧
      (siteOf t site).astate = .absent ∧ (siteOf t site).unfitted = true)) ∧
  (∀ (site : Nat) (m : LaneMapIn) (test : LaneTest) (s s1 : State), inAttempt s site = true →
    (siteOf s site).afterReset = true → (siteOf s site).lanesAgreed = false → s1 = applyLanes s site test →
    trained (siteOf s1 site) test.rate = true →
    (mapsAgree (siteOf s1 site) m = true → ∃ t v, exec (.laneMap site m test) s = .next t ∧
      (siteOf t site).lanesAgreed = true ∧ t.out.head? = some (.sideband site sbHubCap v)) ∧
    (mapsAgree (siteOf s1 site) m = false → (siteOf s site).disagreements < 2 → ∃ t v, exec (.laneMap site m test) s = .next t ∧
      (siteOf t site).disagreements = (siteOf s site).disagreements + 1 ∧ (siteOf t site).astate = (siteOf s site).astate ∧
      t.out.head? = some (.sideband site sbLaneMap v)) ∧
    (mapsAgree (siteOf s1 site) m = false → 2 ≤ (siteOf s site).disagreements → ∃ t, exec (.laneMap site m test) s = .next t ∧
      (siteOf t site).astate = .down ∧ (siteOf t site).present = false ∧ (siteOf t site).lastReason = downWidth)) ∧
  (∀ (site : Nat) (s : State), hearsDie s site = true → (tkeys s.attic.dir).Nodup →
    (∀ epoch, epoch % 2 ^ 32 = (siteOf s site).dieEpoch → exec (.heartbeat site epoch) s = .next s) ∧
    (∀ epoch, epoch % 2 ^ 32 ≠ (siteOf s site).dieEpoch →
      ∃ t, exec (.heartbeat site epoch) s = .next t ∧ dieIsLost s t site ∧ (siteOf t site).dieEpoch = epoch % 2 ^ 32) ∧
    (∃ t, exec (.dieHeartbeatTimeout site) s = .next t ∧ dieIsLost s t site ∧ ((siteOf s site).parts = [] →
      ∀ e ∈ s.attic.dir, e.2.owner = some site → siteHalves e.2 site = 3 → inScratch s (e.1 * 128) 128 →
        readPoison t (e.1 * 128) 128 = true)) ∧
    ((siteOf s site).astate = .up → ∃ t, exec (.dieCreditTimeout site) s = .next t ∧ dieIsLost s t site) ∧
    ((∃ e ∈ s.attic.snoops, ∃ k ∈ e.2.sites, k % 8 = site) →
      ∃ t, exec (.dieSnoopTimeout site) s = .next t ∧ dieIsLost s t site) ∧
    (∃ t, exec (.resetReq site) s = .next t ∧ dieIsGone s t site) ∧
    (∀ (slot : Nat) (p : AtticPart) (st : Step), p ∈ dieParts s site slot → p.stopping = true → stepOf s slot = some st →
      (st.phase ≠ .saving ∨ (siteOf s site).cap.preempt = true) →
      ∃ t, exec (.dieStepTimeout site slot) s = .next t ∧ dieIsGone s t site)) ∧
  (∀ (site : Nat) (linkB : Bool) (s : State), hearsDie s site = true → mayTrain s site →
    ((if linkB then (siteOf s site).linkB else (siteOf s site).linkA) = true →
      ∃ t, exec (.atticLinkDown site linkB) s = .next t ∧ (siteOf t site).astate = .retraining ∧
        (if linkB then (siteOf t site).linkB else (siteOf t site).linkA) = false ∧ t.attic.dir = s.attic.dir ∧
        (∀ e ∈ (siteOf t site).windowReqs, onLink (siteOf s site) linkB (some e.2.address) = false) ∧
        ∀ e ∈ s.mem.txns, ∀ n, e.2.client = .die site n → e.2.phase ≠ .done → onLink (siteOf s site) linkB (some e.2.hpa) = true →
          Out.atp site { opcode := 0x11, txn := n, status := 1 } ∈ t.out) ∧
    ((if linkB then (siteOf s site).linkB else (siteOf s site).linkA) = false → (siteOf s site).astate = .up →
      ∃ t, exec (.atticLinkUp site linkB) s = .next t ∧ (siteOf t site).astate = .retraining ∧ t.attic.dir = s.attic.dir)) ∧
  (∀ (p site : Nat) (s : State), p < 8 → logicalSite s p = some site → isReady s = true →
    (siteOf s site).astate = .absent ∨ (siteOf s site).astate = .down → domainLive s (domAttic site) = true →
    (siteOf s site).unfitted = false → (siteOf s site).everUp = false ∨ (siteOf s site).present = true →
    ∃ t, exec (.vddAtticGood p) s = .next t ∧ bitAt t.boot.atticRails p = true ∧ (siteOf t site).astate = .training ∧
      (siteOf t site).attempts = 1 ∧ bitAt t.boot.atticResetLow site = false)

/-- A CDR that locks lets a native lane take markers, and brings an Ethernet port UP once its four lanes are locked.
The second accepted marker of a training lane with 64 correctable codewords and at most 64 ns of skew puts the lane
into RX_MASK; a marker that fails its checks changes no mask, no link state and no time. A lane that is lost leaves
RX_MASK and trains alone while enough lanes remain; below MIN_LANES the link goes DOWN with reason LANES and trains
anew. A training attempt that times out raises NO_LOCK when none was raised, ends every waiting link command and
starts again. An Ethernet port that loses a lane goes DOWN and the engine's other ports continue.
Rests on 13_chord_physical.md R350, 13_chord_physical.md R354, 13_chord_physical.md R355, 13_chord_physical.md
R360, 13_chord_physical.md R361, 13_chord_physical.md R362, 13_chord_physical.md R369. -/
def Obligations.LanesTrainAndFail : Prop :=
  (∀ (e l : Nat) (s : State), laneLive s e l = true →
    (isEthernet (engineOf s e) = false → ∃ t, exec (.cdrLocked e l) s = .next t ∧ (laneOf (engineOf t e) l).cdr = true ∧
      (laneOf (engineOf t e) l).markers = 0 ∧ (engineOf t e).rxMask = (engineOf s e).rxMask ∧
      ∀ k, k ≠ l → laneOf (engineOf t e) k = laneOf (engineOf s e) k) ∧
    (isEthernet (engineOf s e) = true → (∀ i, i < 4 → i ≠ l % 4 → (laneOf (engineOf s e) (4 * (l / 4) + i)).cdr = true) →
      ∃ t, exec (.cdrLocked e l) s = .next t ∧ bitAt (engineOf t e).ethUp (l / 4) = true)) ∧
  (∀ (e : Nat) (m r : Marker) (s : State), laneLive s e m.lane = true → isEthernet (engineOf s e) = false →
    (laneOf (engineOf s e) m.lane).cdr = true → r = lineMarker m →
    (r.good = true → r.rate = (engineOf s e).rate → (engineOf s e).estate = .training →
      (laneOf (engineOf s e) m.lane).lstate = .training → 1 ≤ (laneOf (engineOf s e) m.lane).markers → 64 ≤ m.codewords →
      m.skew ≤ 64 → r.laneState ≠ 3 →
      ∃ t, exec (.markerReceived e m) s = .next t ∧ bitAt (engineOf t e).rxMask m.lane = true) ∧
    (r.good = false → ∃ t, exec (.markerReceived e m) s = .next t ∧ (engineOf t e).rxMask = (engineOf s e).rxMask ∧
      (engineOf t e).txMask = (engineOf s e).txMask ∧ (engineOf t e).estate = (engineOf s e).estate ∧ t.time = s.time)) ∧
  (∀ (e l reason : Nat) (s : State), laneLive s e l = true → isEthernet (engineOf s e) = false → (engineOf s e).estate = .up →
    bitAt (engineOf s e).rxMask l = true →
    ((engineOf s e).minLanes ≤ popCount (clearBit (engineOf s e).rxMask l) 16 →
      ∃ t, exec (.laneLoss e l reason) s = .next t ∧ (engineOf t e).rxMask = clearBit (engineOf s e).rxMask l ∧
        (laneOf (engineOf t e) l).lstate = .training ∧ (engineOf t e).estate = .up ∧
        ∀ k, k ≠ l → laneOf (engineOf t e) k = laneOf (engineOf s e) k) ∧
    (popCount (clearBit (engineOf s e).rxMask l) 16 < (engineOf s e).minLanes → (engineOf s e).cfgMode ≠ 0 →
      (engineOf s e).eqTableBad = false →
      ∃ t, exec (.laneLoss e l reason) s = .next t ∧ (engineOf t e).estate = .training ∧ (engineOf t e).rxMask = 0 ∧
        (engineOf t e).txMask = 0 ∧ (engineOf t e).lastReason = 2 ∧
        (engineOf t e).downCount = min ((engineOf s e).downCount + 1) 0xFFFF ∧ (llOf t e).llstate = .closed)) ∧
  (∀ (e : Nat) (s : State), (engineOf s e).estate = .training → (engineOf s e).cfgMode ≠ 0 →
    (engineOf s e).eqTableBad = false →
    ∃ t, exec (.trainingTimeout e) s = .next t ∧ (engineOf t e).estate = .training ∧ (engineOf t e).cmds = [] ∧
      (engineOf t e).rxMask = 0 ∧ (engineOf t e).downRaised = true ∧
      ((engineOf s e).downRaised = false → (engineOf t e).lastReason = 1 ∧
        (engineOf t e).downCount = min ((engineOf s e).downCount + 1) 0xFFFF) ∧
      ((engineOf s e).downRaised = true → (engineOf t e).downCount = (engineOf s e).downCount)) ∧
  (∀ (e l : Nat) (s : State), laneLive s e l = true → isEthernet (engineOf s e) = true →
    bitAt (engineOf s e).ethUp (l / 4) = true → clearBit (engineOf s e).ethUp (l / 4) ≠ 0 →
    ∃ t, exec (.ethPortLaneLoss e l) s = .next t ∧ (engineOf t e).ethUp = clearBit (engineOf s e).ethUp (l / 4) ∧
      (engineOf t e).estate = (engineOf s e).estate ∧ ∀ k, k ≠ l → laneOf (engineOf t e) k = laneOf (engineOf s e) k)

/-- A flit is accepted only in FSEQ order: an errored one, one whose tag fails (counted) and one out of order leave
the next count expected, and a good one advances it and takes the credits it returns. A replay counts the flits sent
again. A sender that owes acknowledgements sends an empty flit. LL_CAP of another major or of the local NODE_ID gives
MISMATCH, else keying starts and KEY_HELLO goes out; a verified hello is answered with KEY_FINISH, and a verified
finish opens the link with counts from 0. SWITCH_COUNT is a multiple
of 2^16 at least 2^16 ahead. Routes are learned as advertised and age out. A packet for another node goes on with one
hop less, or is counted as expired or without a route.
Rests on 14_chord_transport.md R371, 14_chord_transport.md R374, 14_chord_transport.md R376, 14_chord_transport.md
R378, 14_chord_transport.md R379, 14_chord_transport.md R380, 15_security.md R426, 15_security.md R427. -/
def Obligations.FlitsKeysAndRoutes : Prop :=
  (∀ (e : Nat) (f : FlitIn) (s : State), nativeUp s e = true →
    (f.errored = true ∨ f.tagOk = false ∨ f.count ≠ (llOf s e).rxNext →
      ∃ t, exec (.flit e f) s = .next t ∧ (llOf t e).rxNext = (llOf s e).rxNext ∧ t.chord.peers = s.chord.peers ∧
        (f.errored = true ∨ f.tagOk = false ∨ (llOf s e).rxNext < f.count → (llOf t e).nakOwed = true) ∧
        (f.errored = false → f.tagOk = false → (llOf t e).authFails = min ((llOf s e).authFails + 1) 0xFFFF)) ∧
    (f.errored = false → f.tagOk = true → f.count = (llOf s e).rxNext → f.nak = false →
      (llOf s e).switchRx ≠ some (f.count + 1) →
      ∃ t, exec (.flit e f) s = .next t ∧ (llOf t e).rxNext = f.count + 1 ∧ (llOf t e).nakOwed = false ∧
        ((∀ q ∈ s.chord.peers, q.2.queue = []) → (llOf t e).ackOwed = true) ∧
        ∀ v, v < 4 → tget (llOf t e).credIn v 0 = nth f.cred v 0 % 2 ^ 16)) ∧
  (∀ (e : Nat) (s : State), nativeUp s e = true →
    ((llOf s e).txAcked < (llOf s e).txCount → (llOf s e).replayed < 16 →
      ∃ t, exec (.replayTimeout e) s = .next t ∧ (llOf t e).replayed = (llOf s e).replayed + 1 ∧
        (llOf t e).replays = min ((llOf s e).replays + ((llOf s e).txCount - (llOf s e).txAcked)) (2 ^ 32 - 1) ∧
        (llOf t e).txCount = (llOf s e).txCount) ∧
    ((llOf s e).ackOwed = true ∨ (llOf s e).nakOwed = true → (llOf s e).txCount - (llOf s e).txAcked < 4096 →
      ∃ t w, exec (.flitKeepalive e) s = .next t ∧ t.out = .linkCtl e 0 w :: s.out ∧ (llOf t e).ackOwed = false ∧
        (llOf t e).nakOwed = false ∧ (llOf t e).txCount = (llOf s e).txCount + 1)) ∧
  (∀ (e : Nat) (c : LlCap) (s : State), nativeUp s e = true → (llOf s e).llstate = .cap →
    (c.ll / 16 ≠ 1 ∨ c.tp / 16 ≠ 1 ∨ c.node = s.chord.node →
      ∃ t, exec (.llCap e c) s = .next t ∧ (llOf t e).llstate = .mismatch) ∧
    (c.ll / 16 = 1 → c.tp / 16 = 1 → c.node ≠ s.chord.node →
      ∃ t, exec (.llCap e c) s = .next t ∧ (llOf t e).llstate = .keying ∧ (llOf t e).partner = c.node ∧
        t.out = .linkCtl e 2 s.chord.node :: s.out)) ∧
  (∀ (e node : Nat) (v : KeyVerdict) (s : State), nativeUp s e = true → (llOf s e).llstate = .keying →
    (v.certOk = true → v.lifecycleOk = true → node = (llOf s e).partner →
      ∃ t, exec (.keyHello e node v) s = .next t ∧ (llOf t e).helloIn = true ∧ (llOf t e).llstate = .keying ∧
        t.out = .linkCtl e 3 0 :: s.out) ∧
    (v.certOk = false ∨ v.lifecycleOk = false → ∃ t, exec (.keyHello e node v) s = .next t ∧ (llOf t e).llstate = .mismatch) ∧
    ((llOf s e).helloIn = true → v.certOk = true → v.lifecycleOk = true → v.sigOk = true →
      ∃ t, exec (.keyFinish e v) s = .next t ∧ (llOf t e).llstate = .opened ∧ (llOf t e).rxNext = 0) ∧
    ((llOf s e).helloIn = true → v.sigOk = false →
      ∃ t, exec (.keyFinish e v) s = .next t ∧ (llOf t e).llstate = .mismatch)) ∧
  (∀ (e n : Nat) (s : State), nativeUp s e = true → (llOf s e).llstate = .opened →
    (n % 2 ^ 16 = 0 → (llOf s e).rxNext + 2 ^ 16 ≤ n →
      ∃ t, exec (.keyUpdate e n) s = .next t ∧ (llOf t e).switchRx = some n) ∧
    (n % 2 ^ 16 ≠ 0 → exec (.keyUpdate e n) s = .next s) ∧
    ((llOf s e).switchTx = none → (llOf s e).txBase + 2 ^ 47 ≤ (llOf s e).txCount →
      mayUpdate s e (roundUp ((llOf s e).txCount - (llOf s e).txBase + 2 ^ 16) (2 ^ 16)) = false →
      exec (.keyUpdateTrigger e) s = .next s) ∧
    ((llOf s e).switchTx = none → (llOf s e).txBase + 2 ^ 47 ≤ (llOf s e).txCount →
      mayUpdate s e (roundUp ((llOf s e).txCount - (llOf s e).txBase + 2 ^ 16) (2 ^ 16)) = true →
      ∃ t c, exec (.keyUpdateTrigger e) s = .next t ∧ (llOf t e).switchTx = some c ∧ c % 2 ^ 16 = 0 ∧
        (llOf s e).txCount + 2 ^ 16 ≤ (llOf s e).txBase + c ∧ t.out = .linkCtl e 4 c :: s.out)) ∧
  (∀ (e : Nat) (nodes : List (Nat × Nat)) (s : State), nativeUp s e = true → (llOf s e).llstate = .opened →
    ∃ t, exec (.routeAdv e nodes) s = .next t ∧ (∀ n ∈ nodes, n.2 ≤ 3 → (n.1, n.2, 0) ∈ (llOf t e).learned) ∧
      ∀ r ∈ (llOf s e).learned, 3 ≤ r.2.2 → (∀ n ∈ nodes, n.1 ≠ r.1) → ∀ x ∈ (llOf t e).learned, x.1 ≠ r.1 ∨
        ∃ y ∈ (llOf s e).learned, y.1 = r.1 ∧ y.2.2 < 3) ∧
  (∀ (e node : Nat) (s : State), (∃ r ∈ (llOf s e).learned, r.1 = node) →
    ∃ t, exec (.routeAgeOut e node) s = .next t ∧ (llOf t e).learned = (llOf s e).learned.filter (fun r => r.1 != node)) ∧
  (∀ (e : Nat) (p : Packet) (s : State), nativeUp s e = true → (llOf s e).llstate = .opened → p.dst ≠ s.chord.node →
    (p.hops = 0 → ∃ t, exec (.forward e p) s = .next t ∧ t.out = s.out ∧
      t.chord.hopsExpired = min (s.chord.hopsExpired + 1) 0xFFFF) ∧
    (p.hops ≠ 0 → routeEngines s p.dst = [] → ∃ t, exec (.forward e p) s = .next t ∧ t.out = s.out ∧
      t.chord.noRoute = min (s.chord.noRoute + 1) 0xFFFF) ∧
    (p.hops ≠ 0 → (∃ x ∈ routeEngines s p.dst, mayTransmit s x p = true) →
      portPasses s (chordMaster e) (packetUnits p) = false → exec (.forward e p) s = .next s) ∧
    (p.hops ≠ 0 → (∃ x ∈ routeEngines s p.dst, mayTransmit s x p = true) →
      portPasses s (chordMaster e) (packetUnits p) = true →
      ∃ t x, exec (.forward e p) s = .next t ∧ x ∈ routeEngines s p.dst ∧
        t.out = .packet x { p with hops := p.hops - 1 } :: s.out ∧ t.mem = s.mem ∧ t.chord.peers = s.chord.peers))

/-- A PUT of a ready local source through a window of the step's partition opens one WRITE message to the window's
peer with the remote address and the length, and hands over all its packets; a GET opens one READ_REQ for each 4,096
bytes; a SIGNAL sends one PEG message with its OP, peg and count. To a peer that is unreachable a PUT ends at once
with UNREACHABLE, and a malformed PUT or GET ends MALFORMED. An ALLREDUCE or ALLTOALL whose group block names this
device and whose ranges are at hand is posted under its partition and COLL_ID with the group's nodes and rank. A
collective with a TIMEOUT_US that passes it ends with GROUP and is posted no more.
Rests on 14_chord_transport.md R393, 14_chord_transport.md R398, 14_chord_transport.md R399, 14_chord_transport.md
R402. -/
def Obligations.ChordDescriptorsSend : Prop :=
  (∀ (c id p w a d len : Nat) (h : Fetch) (s : State) (j : MoverJob) (b : Bytes) (x : PeerWindow), descRuns s c id 0x40 j →
    b = jobBody s j → bbits b 64 64 = a → bbits b 128 64 = d → bbits b 192 32 = len → (d - peerBase) / peerStride = w →
    j.msg = none → bbits b 8 4 = 0 → rangeReady s c j false a len → jobRefusal s j true d len = none →
    tfind s.chord.windows w = some x → peerFind s x.node x.part = some p → transferBad s j b true = false →
    ((peerOf s p).unreachable = false → j.progress = 0 → hasReservation s j.step j.part = false →
      ∃ t m j', exec (.put c id h) s = .next t ∧ jobFind t c id = some j' ∧ j'.progress = len ∧
        j'.msg = some (p * 2 ^ 32 + (peerOf s p).nextMsg) ∧ tfind (peerOf t p).messages (peerOf s p).nextMsg = some m ∧
        m.ptype = ptWrite ∧ m.addr = windowRemote s w d ∧ m.bytes = len ∧ m.client = .mover c j.step j.part ∧
        m.window = some w ∧ m.packets ≠ [] ∧
        ∀ k ∈ m.packets, k.ptype = ptWrite ∧ k.msg = (peerOf s p).nextMsg ∧ k.addr = windowRemote s w d ∧
          k.dst = (peerOf s p).node ∧ k.tag = (sendTag s (peerOf s p).part).getD 0) ∧
    ((peerOf s p).unreachable = true → j.code = 0 →
      ∃ t n, exec (.put c id h) s = .next t ∧ descEnded t c id csUnreachable n j.aux0 j.aux1)) ∧
  (∀ (c id p w a d len : Nat) (s : State) (j : MoverJob) (b : Bytes) (x : PeerWindow), descRuns s c id 0x41 j →
    b = jobBody s j → bbits b 64 64 = a → bbits b 128 64 = d → bbits b 192 32 = len → (a - peerBase) / peerStride = w →
    j.msg = none → bbits b 8 4 = 0 → rangeReady s c j true d len → jobRefusal s j false a len = none →
    tfind s.chord.windows w = some x → peerFind s x.node x.part = some p → transferBad s j b false = false →
    (peerOf s p).unreachable = false → (peerOf s p).nextMsg < 2 ^ 32 →
    ∃ t, exec (.get c id) s = .next t ∧ ∀ i, i < (len + 4095) / 4096 → ∃ m,
      tfind (peerOf t p).messages (((peerOf s p).nextMsg + i) % 2 ^ 32) = some m ∧ m.ptype = ptReadReq ∧
      m.addr = windowRemote s w a + 4096 * i ∧ m.bytes = min 4096 (len - 4096 * i) ∧ m.local_ = 4096 * i ∧
      m.client = .mover c j.step j.part) ∧
  (∀ (c id p w : Nat) (s : State) (j : MoverJob) (b : Bytes) (x : PeerWindow), descRuns s c id 0x42 j → b = jobBody s j →
    bbits b 64 6 = w → j.msg = none → bbits b 8 4 = 0 → bbits b 48 16 = 0 → bbits b 70 10 = 0 → bbits b 94 2 = 0 →
    bbits b 99 29 = 0 → bbits b 152 232 = 0 → bbits b 448 64 = 0 →
    (bbits b 96 3 = 0 ∨ bbits b 96 3 = 2 ∨ bbits b 96 3 = 3) → windowPegRefused s (stepPart s j.step) w = none →
    tfind s.chord.windows w = some x → peerFind s x.node x.part = some p → (peerOf s p).unreachable = false →
    3 ≤ spanOf s (peerOf s p) → ∃ t m k, exec (.signal c id) s = .next t ∧ tfind (peerOf t p).messages (peerOf s p).nextMsg = some m ∧
      m.ptype = ptPeg ∧ m.client = .mover c j.step j.part ∧ m.packets = [k] ∧ k.opinfo = bbits b 96 3 ∧
      k.addr = bbits b 80 14 ∧ k.payload = leBytes 3 (bbits b 128 24)) ∧
  (∀ (c id : Nat) (h : Fetch) (s : State) (j : MoverJob), j.msg = none →
    (descRuns s c id 0x40 j → transferBad s j (jobBody s j) true = true →
      ∃ t, exec (.put c id h) s = .next t ∧ descEnded t c id 2 0 0 0 ∧ t.chord = s.chord ∧ t.mem = s.mem) ∧
    (descRuns s c id 0x41 j → transferBad s j (jobBody s j) false = true →
      ∃ t, exec (.get c id) s = .next t ∧ descEnded t c id 2 0 0 0 ∧ t.chord = s.chord ∧ t.mem = s.mem)) ∧
  (∀ (c id group rank total k : Nat) (all : Bool) (s s1 s2 s3 s4 s5 : State) (j i : MoverJob) (b : Bytes) (nodes : List Nat)
      (ps : List (Option Nat)), descRuns s c id (if all then 0x43 else 0x44) j → b = jobBody s j → j.msg = none →
    i = { j with started := true } → bbits b 256 64 = group → k = collKey (stepPart s j.step) (bbits b 320 32) →
    collOf s k = none → routeReads (startedAt s c id j) c i [(group, 8)] = (s1, true) →
    routeReads s1 c i [(group + 8, 4 * min 64 (bbits (jobRead s1 c i group 8) 8 8))] = (s2, true) →
    collMalformed s2 i b all 1 = false → groupBlock s2 c i group = some (nodes, rank) →
    collMalformed s2 i b all nodes.length = false → total = (if all then bbits b 192 32 else nodes.length * bbits b 192 32) →
    routeReads s2 c i [(moveBase (srcAddr s2 i b), total)] = (s3, true) →
    routeWrites s3 c i ([(moveBase (dstAddr s3 i b), total)] ++ (if all then [(bbits b 448 64, bbits b 192 32)] else []))
      = (s4, true) →
    (sendTag s4 (stepPart s4 j.step)).isSome = true → memberPeers s4 (stepPart s4 j.step) nodes = (s5, ps) →
    (∀ q ∈ ps, ∃ p, q = some p ∧ (peerOf s5 p).unreachable = false) →
    (all = true → ∃ t, exec (.allreduce c id) s = .next t ∧
      collPosted t (collKey (stepPart s4 j.step) (bbits b 320 32)) c j true nodes rank (bbits b 192 32)) ∧
    (all = false → ∃ t, exec (.alltoall c id) s = .next t ∧
      collPosted t (collKey (stepPart s4 j.step) (bbits b 320 32)) c j false nodes rank (bbits b 192 32))) ∧
  (∀ (k : Nat) (s : State) (x : Collective) (j : MoverJob), collOf s k = some x → collJob s x = some j →
    bbits (jobBody s j) 352 32 ≠ 0 → j.code = 0 →
    ∃ t n, exec (.collectiveTimeout k) s = .next t ∧ collOf t k = none ∧
      descEnded t x.cellar (x.step * 1024 + x.part) csGroup n j.aux0 j.aux1)

/-- A packet received before changes no memory. A new WRITE, READ_REQ or ATOMIC that nothing earlier holds back and that
the receiving partition may make becomes transactions of the engine's port under that partition's tag, line by line; a
write performed in cellar scratch places its bytes and no others, and the last transaction that returns brings the
DONE, READ_RSP or ATOMIC_RSP. A refused WRITE or READ_REQ changes no byte and gets a NACK or its READ_RSP. A PEG
operation that its port passes turns an allowed peg and gets a DONE, on any other a NACK. A STEP that
is not refused waits in the step table for the peer; a refused one gets STEP_DONE. STEP_CANCEL stops a step that runs
with STEP_BUDGET_EXCEEDED and keeps one that waits from running. A COLL for a COLL_ID not posted gets a NACK, and a whole segment of a posted
one its DONE.
Rests on 14_chord_transport.md R382, 14_chord_transport.md R388, 14_chord_transport.md R389, 14_chord_transport.md
R397, 14_chord_transport.md R402, 09_larder.md R265. -/
def Obligations.PeerRequestsServed : Prop :=
  (∀ (e p : Nat) (k : Packet) (s s1 : State), accepted s e k true = (s1, some p) → psnSeen (peerOf s1 p) k.psn = true →
    ∃ t, exec (.chordWrite e k) s = .next t ∧ t.mem = s.mem ∧ t.cells = s.cells) ∧
  (∀ (e p : Nat) (k : Packet) (s s1 : State), arrives s e k true s1 p → incomingOf s1 p k.msg = {} →
    mustWait s1 (peerOf s1 p) k (k.addr + k.offset) (unpack k).1.length = false →
    (∀ pl, remoteAdmits s1 (peerOf s1 p).part true (k.addr + k.offset) (unpack k).1.length = .ok pl →
      ∃ t, exec (.chordWrite e k) s = .next t ∧ t.mem.bytes = s1.mem.bytes ∧
        ∀ l ∈ linesOf (k.addr + k.offset) (unpack k).1.length, ∃ x, chordQueued t e p (peerOf s1 p).part k x ∧ x.kind = .write ∧
          x.hpa = l * 128 ∧ x.data = bytesOfLine (k.addr + k.offset) (unpack k).1 l) ∧
    (remoteAdmits s1 (peerOf s1 p).part true (k.addr + k.offset) (unpack k).1.length = .firewall ∨
      remoteAdmits s1 (peerOf s1 p).part true (k.addr + k.offset) (unpack k).1.length = .unmapped →
      ∃ t, exec (.chordWrite e k) s = .next t ∧ t.mem.bytes = s1.mem.bytes ∧ owes t p ptNack k.msg)) ∧
  (∀ (e p n : Nat) (k : Packet) (s s1 : State), arrives s e k true s1 p → n = min 4096 (leAt k.payload 0 4) →
    mustWait s1 (peerOf s1 p) k k.addr n = false →
    (∀ pl, remoteAdmits s1 (peerOf s1 p).part false k.addr n = .ok pl →
      ∃ t, exec (.readReq e k) s = .next t ∧ t.mem.bytes = s1.mem.bytes ∧
        ∀ l ∈ linesOf k.addr n, ∃ x, chordQueued t e p (peerOf s1 p).part k x ∧ x.kind = .read ∧ x.hpa = max k.addr (l * 128) ∧
          x.hpa + x.bytes = min (k.addr + n) (l * 128 + 128)) ∧
    (remoteAdmits s1 (peerOf s1 p).part false k.addr n = .firewall ∨ remoteAdmits s1 (peerOf s1 p).part false k.addr n = .unmapped →
      ∃ t, exec (.readReq e k) s = .next t ∧ t.mem.bytes = s1.mem.bytes ∧ owes t p ptReadRsp k.msg)) ∧
  (∀ (e p n : Nat) (k : Packet) (s s1 : State) (op : AtomOp) (ty : AtomType) (pl : Place), arrives s e k true s1 p →
    aopOf (bits k.opinfo 0 4) = some op → atypeOf (bits k.opinfo 4 3) = some ty → atomDefined op ty = true →
    k.addr % atomBytes ty = 0 → n = bits k.opinfo 7 6 + 1 → mustWaitAll s1 (peerOf s1 p) k = false →
    remoteAdmits s1 (peerOf s1 p).part true k.addr (atomBytes ty) = .ok pl →
    ∃ t x, exec (.chordAtomic e k) s = .next t ∧ t.mem.bytes = s1.mem.bytes ∧ chordQueued t e p (peerOf s1 p).part k x ∧
      x.kind = .atomic ∧ x.hpa = k.addr ∧ x.atom = some (op, ty) ∧ x.lanes = (List.range n).map (fun i =>
        ({ thread := i, addr := k.addr, sb := leAt k.payload (16 * i) 8, sc := leAt k.payload (16 * i + 8) 8 } : AtomLane))) ∧
  (∀ (n p msg c : Nat) (s : State) (x : Txn), txnOf s n = some x → x.phase = .issued → x.lost = false → x.remote = none →
    dieOvertakes s n x = false → overtakes s n 12 x = false → arbitrated s n x = true → x.kind = .write → x.dir = .none →
    x.client = .chord p msg 0 → admitOne s x.tag true x.hpa = .ok (.scratch c) → (cellarOf s c).resetting = false →
    backPending s n (x.hpa / 128) (txnSite x) = false → tfind s.attic.dir (x.hpa / 128) = none →
    tfind s.attic.snoops (x.hpa / 128) = none → Memory.wf s.mem.bytes = true →
    (∀ d ∈ x.data, d.1 < 128 ∧ placeOf s (x.hpa / 128 * 128 + d.1) = .scratch c) →
    ∃ t, exec (.transactionCompletionReturn n) s = .next t ∧ txnOf t n = none ∧
      (∀ o v, (o, v) ∈ x.data → (∀ w, (o, w) ∈ x.data → w = v) → memRead t.mem.bytes (x.hpa / 128 * 128 + o) = v) ∧
      ∀ a, (∀ d ∈ x.data, a ≠ x.hpa / 128 * 128 + d.1) → memRead t.mem.bytes a = memRead s.mem.bytes a) ∧
  (∀ (n p msg : Nat) (s : State) (x : Txn) (m : Incoming), txnOf s n = some x → x.phase = .done → x.client = .chord p msg 0 →
    tfind (peerOf s p).incoming msg = some m → (∀ e ∈ s.mem.txns, e.1 ≠ n → ∀ i, e.2.client ≠ .chord p msg i) →
    (x.kind = .write → x.error = none → m.ptype = ptWrite → m.total = some m.bytes → m.refused = false →
      ∃ t, exec (.transactionCompletionReturn n) s = .next t ∧ owes t p ptDone msg) ∧
    (x.kind = .read → m.ptype = ptReadReq → ∃ t, exec (.transactionCompletionReturn n) s = .next t ∧ owes t p ptReadRsp msg) ∧
    (x.kind = .atomic → x.atom.isSome = true →
      ∃ t, exec (.transactionCompletionReturn n) s = .next t ∧ owes t p ptAtomicRsp msg)) ∧
  (∀ (e p id : Nat) (k : Packet) (s s1 : State), arrives s e k true s1 p → id = bits k.addr 0 14 →
    mustWaitAll s1 (peerOf s1 p) k = false →
    (portPasses s1 (chordMaster e) 1 = false → ∃ t, exec (.chordPeg e k) s = .next t ∧ t.cells = s1.cells ∧ t.out = s1.out) ∧
    (portPasses s1 (chordMaster e) 1 = true → pegAllowed s1 (peerOf s1 p).part id = true →
      bits k.opinfo 0 3 = 0 ∨ bits k.opinfo 0 3 = 2 → (pegOf s1 id).waiters = [] →
      ∃ t, exec (.chordPeg e k) s = .next t ∧ owes t p ptDone k.msg ∧
        pegOf t id = pegAdd (pegOf s1 id) (pegCount (leAt k.payload 0 3)) ∧ ∀ i, i ≠ id → pegOf t i = pegOf s1 i) ∧
    (portPasses s1 (chordMaster e) 1 = true → pegAllowed s1 (peerOf s1 p).part id = false →
      ∃ t, exec (.chordPeg e k) s = .next t ∧ owes t p ptNack k.msg ∧ t.cells = s1.cells)) ∧
  (∀ (e p n slot : Nat) (k : Packet) (s s1 s2 : State) (b : Bytes) (bad : Nat → Bool), arrives s e k false s1 p →
    mustWaitAll s1 (peerOf s1 p) k = false → gather s1 p k ptStep = (s2, some (b, bad)) → stepLength b = some n →
    (List.range b.length).any bad = false →
    (b.length = n → stepRefused s2 (peerOf s1 p).part b (readStep b) true = none → bbits b 144 16 = 0 →
      bbits b 8 1 = 0 → tfree s2.larder.steps 0 65536 = some slot → stepOf s2 slot = none →
      ∃ t st, exec (.step e k) s = .next t ∧ stepOf t slot = some st ∧ st.phase = .waiting ∧ st.peer = some (p, k.msg) ∧
        st.part = (peerOf s1 p).part) ∧
    (b.length ≠ n ∨ stepRefused s2 (peerOf s1 p).part b (readStep b) true ≠ none →
      ∃ t, exec (.step e k) s = .next t ∧ owes t p ptStepDone k.msg ∧ t.larder = s2.larder)) ∧
  (∀ (e p slot : Nat) (k : Packet) (s s1 : State) (st : Step), arrives s e k false s1 p →
    s1.larder.steps.find? (fun x => x.2.peer == some (p, k.addr % 2 ^ 32)) = some (slot, st) → stepOf s1 slot = some st →
    (st.phase = .running → ∃ t st', exec (.stepCancel e k) s = .next t ∧ stepOf t slot = some st' ∧ st'.phase = .ending ∧
      st'.stopCode = some .stepBudgetExceeded) ∧
    (st.phase = .waiting → ∃ t, exec (.stepCancel e k) s = .next t ∧ ∀ st', stepOf t slot = some st' → st'.phase = .unrun)) ∧
  (∀ (e p key : Nat) (k : Packet) (s s1 : State), arrives s e k false s1 p → key = collKey (peerOf s1 p).part (bits k.addr 0 32) →
    (collOf s1 key = none → ∃ t, exec (.coll e k) s = .next t ∧ owes t p ptNack k.msg ∧ t.mem.bytes = s1.mem.bytes) ∧
    (∀ (x : Collective) (size : Nat) (b : Bytes) (bad : Nat → Bool) (s2 : State), collOf s1 key = some x →
      segmentSize x (bits k.opinfo 0 8) (bits k.opinfo 8 8) = some size → bits k.addr 32 32 = x.hash →
      nth x.nodes (bits k.opinfo 0 8) 0 = k.src → x.received.contains (bits k.opinfo 0 8, bits k.opinfo 8 8) = false →
      gather s1 p k ptColl = (s2, some (b, bad)) → b.length = size →
      ∃ t, exec (.coll e k) s = .next t ∧ owes t p ptDone k.msg))

/-- The DONE of a PUT without a remote peg ends the PUT with its bytes / 64, its suppressed blocks and its
retransmissions. READ_RSP data move a GET's message on by their bytes, and the last answer of a transaction completes
it. STEP_DONE ends its PEER part. A NACK with BUSY makes the message wait under a backoff that doubles to 1 ms; any
other ends a SIGNAL with its status. An ACK takes what it acknowledges from the send window and moves CWND by R391; a
retransmission timeout sets it to 8,320. After the backoff the packets go again. An unreachable peer's operations end,
and after the 1 s its entry is gone.
Rests on 14_chord_transport.md R389, 14_chord_transport.md R390, 14_chord_transport.md R391, 14_chord_transport.md
R392, 14_chord_transport.md R393, 14_chord_transport.md R397, 14_chord_transport.md R399, 09_larder.md R265. -/
def Obligations.PeerAnswersTaken : Prop :=
  (∀ (e p c slot part : Nat) (k : Packet) (s s1 : State) (m : Message) (j : MoverJob), arrives s e k false s1 p →
    tfind (peerOf s1 p).messages (k.addr % 2 ^ 32) = some m → m.client = .mover c slot part → c < 64 →
    jobFind s1 c (slot * 1024 + part) = some j → j.step = slot → j.part = part → j.result = none →
    onlyMessage s1 p (k.addr % 2 ^ 32) m.client →
    (leAt k.payload 0 2 = 0 → m.ptype = ptWrite → bbits (jobBody s1 j) 0 8 = 0x40 → bbits (jobBody s1 j) 232 1 = 0 →
      (j.code = 0 ∨ j.code = 3) → ∃ t, exec (.done e k) s = .next t ∧
        tfind (peerOf t p).messages (k.addr % 2 ^ 32) = none ∧
        descEnded t c (slot * 1024 + part) j.code (bbits (jobBody s1 j) 192 32 / 64) (j.aux0 + m.suppressed)
          (j.aux1 + m.retransmitted)) ∧
    (leAt k.payload 0 2 = csRemoteAccess → m.ptype = ptPeg → j.code = 0 → ∃ t n, exec (.nack e k) s = .next t ∧
      tfind (peerOf t p).messages (k.addr % 2 ^ 32) = none ∧
      descEnded t c (slot * 1024 + part) csRemoteAccess n (j.aux0 + m.suppressed) (j.aux1 + m.retransmitted))) ∧
  (∀ (e p : Nat) (k : Packet) (s s1 : State) (m : Message), arrives s e k false s1 p →
    tfind (peerOf s1 p).messages (k.addr % 2 ^ 32) = some m → m.waiting = false → leAt k.payload 0 2 = csBusy →
    ∃ t, exec (.nack e k) s = .next t ∧ tfind (peerOf t p).messages (k.addr % 2 ^ 32) = some { m with
      waiting := true
      backoff := if m.backoff = 0 then max (peerOf s1 p).srtt (2 * us) else min (2 * m.backoff) (1000 * us) }) ∧
  (∀ (e p : Nat) (k : Packet) (s s1 : State) (m : Message), arrives s e k false s1 p →
    tfind (peerOf s1 p).messages k.msg = some m →
    (∀ (c slot part : Nat) (j : MoverJob) (s2 : State), m.client = .mover c slot part →
      jobFind s1 c (slot * 1024 + part) = some j → takeGet s1 c j e m.local_ k = (s2, .done) →
      m.got + (unpack k).1.length < m.bytes → tfind (peerOf s2 p).messages k.msg = some m →
      ∃ t, exec (.readRsp e k) s = .next t ∧ t.mem.bytes = s2.mem.bytes ∧
        tfind (peerOf t p).messages k.msg = some { m with got := m.got + (unpack k).1.length }) ∧
    (∀ (n : Nat) (x : Txn), m.client = .txn n → txnOf s1 n = some x → onlyMessage s1 p k.msg m.client →
      (m.bytes ≤ m.got + (unpack k).1.length → ∃ t x', exec (.readRsp e k) s = .next t ∧
        tfind (peerOf t p).messages k.msg = none ∧ txnOf t n = some x' ∧ x'.phase = .done) ∧
      (∃ t x', exec (.atomicRsp e k) s = .next t ∧ tfind (peerOf t p).messages k.msg = none ∧ txnOf t n = some x' ∧
        x'.phase = .done))) ∧
  (∀ (e p slot part : Nat) (k : Packet) (s s1 : State) (m : Message) (q : StepPart), arrives s e k false s1 p →
    tfind (peerOf s1 p).messages (k.addr % 2 ^ 32) = some m → m.client = .stepPart slot part →
    partAt s1 slot part = some q → ∃ t, exec (.stepDone e k) s = .next t ∧
      tfind (peerOf t p).messages (k.addr % 2 ^ 32) = none ∧ partAt t slot part = some { q with phase := .done }) ∧
  (∀ (e p : Nat) (k : Packet) (a : AckIn) (s s1 : State) (x : Peer), accepted s e k false = (s1, some p) → peerOf s1 p = x →
    ∃ t, exec (.ack e k a) s = .next t ∧
      (peerOf t p).cwnd = (updateWindow
        { x with srtt := Config.rttFilter 0 x.srtt ((s.time.now + 2 ^ 64 - a.echo) % 2 ^ 64) } s.time.now
        (oneWay a ((s.time.now + 2 ^ 64 - a.echo) % 2 ^ 64))).cwnd ∧
      (x.queue = [] → ∀ y ∈ (peerOf t p).sent, (y.psn + 2 ^ 32 - a.cum) % 2 ^ 32 ≠ 0 ∧
        (y.psn + 2 ^ 32 - a.cum) % 2 ^ 32 < 2 ^ 31)) ∧
  (∀ (p : Nat) (s : State),
    ((peerOf s p).ackOwed ≠ 0 → (nextEngine s (peerOf s p) { vc := 1, payload := ackPayload (peerOf s p) }).isSome = true →
      ∃ t k x, exec (.ackTimer p) s = .next t ∧ (peerOf t p).ackOwed = 0 ∧ t.out = .packet x k :: s.out ∧ k.ptype = ptAck ∧
        k.payload = ackPayload (peerOf s p)) ∧
    (∀ y ∈ (peerOf s p).sent, ∃ t, exec (.retransmissionTimeout p y.psn) s = .next t ∧ (peerOf t p).cwnd = 8320 ∧
      t.mem = s.mem) ∧
    (∀ id m, tfind (peerOf s p).messages id = some m → m.waiting = true →
      ∃ t, exec (.busyBackoffExpiry p id) s = .next t ∧ tfind (peerOf t p).messages id = some { m with
        waiting := false, retransmitted := m.retransmitted + m.packets.length }) ∧
    ((peerOf s p).sent ≠ [] → (peerOf s p).unreachable = false → ∃ t, exec (.peerUnreachable p) s = .next t ∧
      (peerOf t p).unreachable = true) ∧
    ((peerOf s p).unreachable = true → ∃ t, exec (.unreachableEnd p) s = .next t ∧ tfind t.chord.peers p = none ∧
      ∀ q, q ≠ p → peerOf t q = peerOf s q))

/-- An INIT whose verdicts are good gets a RESP and a new association that waits; beyond 64 in a millisecond it is
dropped and counted in AUTH_FAILS. A good RESP to an INIT of this device, and a good CONFIRM of its RESP, set the
association up. An unanswered handshake is repeated up to 5 times and then given up. A renewal starts a new handshake
and keeps the old association. Neighbour solicitation and echo requests are answered for the hub's own address only.
Rests on 14_chord_transport.md R383, 14_chord_transport.md R384, 15_security.md R428. -/
def Obligations.EthernetAssociations : Prop :=
  (∀ (e ip r : Nat) (v : KeyVerdict) (s : State), etherUp s e = true →
    ((llOf s e).initAt + 1000 * us ≤ s.time.now ∨ (llOf s e).inits < 64 → v.certOk = true → v.lifecycleOk = true → r ≠ 0 →
      ∀ i, tfree (expireAssocs s).chord.assocs 1 4097 = some i →
        ∃ t, exec (.init e ip r v) s = .next t ∧ t.out = .linkCtl e 0x21 i :: s.out ∧
          tfind t.chord.assocs i = some { ipv6 := ip, astate := .respSent, remoteId := r, tries := 1 }) ∧
    (s.time.now < (llOf s e).initAt + 1000 * us → 64 ≤ (llOf s e).inits →
      ∃ t, exec (.init e ip r v) s = .next t ∧ t.chord.assocs = s.chord.assocs ∧ t.out = s.out ∧
        (llOf t e).authFails = min ((llOf s e).authFails + 1) 0xFFFF)) ∧
  (∀ (e i r : Nat) (v : KeyVerdict) (s : State) (a : Assoc), etherUp s e = true → tfind s.chord.assocs i = some a →
    (a.astate = .initSent → v.certOk = true → v.lifecycleOk = true → v.sigOk = true → r ≠ 0 →
      ∃ t b, exec (.resp e i r v) s = .next t ∧ tfind t.chord.assocs i = some b ∧ b.astate = .up ∧ b.remoteId = r ∧
        b.ipv6 = a.ipv6) ∧
    (a.astate = .respSent → v.sigOk = true →
      ∃ t b, exec (.confirm e i v) s = .next t ∧ tfind t.chord.assocs i = some b ∧ b.astate = .up ∧ b.remoteId = a.remoteId) ∧
    (a.astate = .respSent → v.sigOk = false →
      ∃ t, exec (.confirm e i v) s = .next t ∧ t.chord.assocs = s.chord.assocs)) ∧
  (∀ (i : Nat) (s : State) (a : Assoc), tfind s.chord.assocs i = some a →
    (a.astate = .initSent ∨ a.astate = .respSent → a.tries ≤ 5 → ∃ t x, exec (.handshakeRetry i) s = .next t ∧
      tfind t.chord.assocs i = some { a with tries := a.tries + 1 } ∧ t.out = x :: s.out) ∧
    (a.astate = .initSent ∨ a.astate = .respSent → 5 < a.tries →
      ∃ t, exec (.handshakeRetry i) s = .next t ∧ tfind t.chord.assocs i = none ∧ t.out = s.out) ∧
    (a.astate = .up → a.renewing = false → a.validTo = none → ∀ n, tfree (expireAssocs s).chord.assocs 1 4097 = some n →
      n ≠ i → ∃ t, exec (.associationRenewal i) s = .next t ∧ tfind t.chord.assocs i = some { a with renewing := true } ∧
        tfind t.chord.assocs n = some { ipv6 := a.ipv6, astate := .initSent, tries := 1 })) ∧
  (∀ (e port target : Nat) (s : State),
    (etherUp s e = true → bitAt (engineOf s e).ethUp port = true → port < 4 → target = ownAddress s →
      (∃ t, exec (.neighbourSolicitation e port target) s = .next t ∧ t.out = .icmp e port 136 :: s.out) ∧
      ∃ t, exec (.echoRequest e port target) s = .next t ∧ t.out = .icmp e port 129 :: s.out) ∧
    (target ≠ ownAddress s → exec (.neighbourSolicitation e port target) s = .next s ∧
      exec (.echoRequest e port target) s = .next s))

/-- A cold reset latches the straps and the fused variant and lifecycle and counts time from 0. The start ends in
FAILED with the first failing condition, in RECOVERY with no good image, waits in FW_LOAD for an image under
STRAP_BOOT 1 or 2, and otherwise reaches READY with partition 0 ACTIVE and START_COUNT one higher. COLD_RESET_N
falling keeps flash and fuses; a hot module stays in reset until it cools. A device reset keeps time, fuses and
straps, counts the device epoch and empties memory; Function Level Reset keeps the host link, HOST_PERST does not. A
third watchdog restart within 10 s resets the device, an earlier one ends the TAKEN commands only.
Rests on 16_bringup_reset.md R439, 16_bringup_reset.md R440, 16_bringup_reset.md R441, 16_bringup_reset.md R443,
16_bringup_reset.md R446, 16_bringup_reset.md R450, 16_bringup_reset.md R451, 16_bringup_reset.md R466,
16_bringup_reset.md R470, 03_control_processor_mailboxes.md R88, 20_package_pins.md R538. -/
def Obligations.StartsAndResets : Prop :=
  (∀ (inp : StartInput) (s : State) (a : Nat), s.boot.coldResetLow = true → s.boot.heldHot = false →
    a = (slotRecord s).activeSlot % 2 → ∃ t, exec (.coldReset inp) s = .next t ∧
      t.boot.coldResetLow = false ∧ t.boot.straps = inp.straps ∧ t.boot.variantNow = s.boot.fuses.variant ∧
      t.boot.lifecycleNow = s.boot.fuses.lifecycle ∧ t.boot.fuses = s.boot.fuses ∧ t.time.now = 0 ∧
      t.time.periodSteps = 16 * 2 ^ (inp.straps.strum % 4) ∧
      (inp.tests.cpOk = false → t.boot.stage = .failed ∧ t.boot.failReason = 2 ∧ t.boot.startCount = s.boot.startCount) ∧
      (inp.tests.cpOk = true → inp.straps.boot = 1 ∨ inp.straps.boot = 2 →
        t.boot.stage = .fwLoad ∧ t.boot.waiting = some inp) ∧
      (inp.tests.cpOk = true → inp.straps.boot ≠ 1 → inp.straps.boot ≠ 2 →
        ((s.boot.fuses.lifecycle = .scrapped ∨ s.boot.slots = []) → t.boot.stage = .recovery ∧ t.boot.failReason = 1) ∧
        (∀ x, tfind s.boot.slots a = some x → x.chainOk = true → x.sigOk = true → x.digestOk = true →
          s.boot.fuses.antiRollback ≤ x.svn → s.boot.fuses.lifecycle ≠ .scrapped → t.boot.slot = a ∧ t.boot.fw = x ∧
          t.boot.fallback = false ∧
          (inp.tests.seOk = false → t.boot.stage = .failed ∧ t.boot.failReason = 3) ∧
          (inp.tests.seOk = true → inp.tests.larderOk = false → t.boot.stage = .failed ∧ t.boot.failReason = 4) ∧
          (inp.tests.seOk = true → inp.tests.larderOk = true → bitAt inp.tests.nocFail 0 = true ∨ bitAt inp.tests.nocFail 1 = true →
            t.boot.stage = .failed ∧ t.boot.failReason = 5) ∧
          (inp.tests.seOk = true → inp.tests.larderOk = true → bitAt inp.tests.nocFail 0 = false → bitAt inp.tests.nocFail 1 = false →
            ((∀ c, c < 64 → usableCellar s inp.tests c = false) →
              t.boot.stage = .failed ∧ t.boot.failReason = 7 ∧ t.boot.defects = s.boot.defects) ∧
            ((∃ c, c < 64 ∧ usableCellar s inp.tests c = true) →
              t.boot.stage = .ready ∧ t.boot.startCount = (s.boot.startCount + 1) % 2 ^ 32 ∧
              (partOf t 0).pstate = .active ∧ (partOf t 0).hostBar2 = true ∧ t.part.generation = 1 ∧ t.part.configGen = 1))))) ∧
  (∀ (inp : StartInput) (s : State), s.boot.coldResetLow = false →
    exec (.coldReset inp) s = exec (.coldReset inp) (coldCleared s)) ∧
  (∀ s : State, s.boot.coldResetLow = false → s.boot.lcChange = none → ∃ t, exec .coldResetAssert s = .next t ∧
    t.boot.coldResetLow = true ∧ t.boot.fuses = s.boot.fuses ∧ t.boot.slots = s.boot.slots ∧ t.boot.defects = s.boot.defects ∧
    t.boot.slotRecords = s.boot.slotRecords ∧ t.boot.startCount = s.boot.startCount ∧ t.boot.stage = .rom ∧
    t.boot.pwrFault = false ∧ t.mem = {} ∧ t.larder = {} ∧ t.cp = {} ∧ t.cells = {} ∧
    (s.pwr.sensors = [] → t.boot.thermTrip = false) ∧ (s.boot.thermTrip = true → s.pwr.sensors ≠ [] → t.boot.heldHot = true)) ∧
  (∀ (inp : StartInput) (s : State), s.boot.heldHot = true →
    (s.boot.coldResetLow = true → ∃ t, exec (.coldReset inp) s = .next t ∧ t.boot.stage = s.boot.stage ∧
      t.boot.heldHot = true ∧ t.boot.coldResetLow = false) ∧
    (s.boot.coldResetLow = false → ∃ t, exec (.sensorsCooled inp) s = .next t ∧ t.boot.heldHot = false ∧
      t.boot.thermTrip = false ∧ t.boot.straps = inp.straps) ∧
    (s.boot.coldResetLow = true → ∃ t, exec (.sensorsCooled inp) s = .next t ∧ t.boot.heldHot = false ∧
      t.boot.thermTrip = false ∧ t.boot.coldResetLow = true)) ∧
  (∀ (inp : StartInput) (s : State), resettable s = true → s.boot.lcChange = none →
    (∃ t, exec (.hostPerst inp) s = .next t ∧ deviceWasReset s t ∧ t.boot.hostUp = false) ∧
    (s.boot.hostUp = true → ∃ t, exec (.functionLevelReset inp) s = .next t ∧ deviceWasReset s t ∧ t.boot.hostUp = true ∧
      t.boot.hostLink = s.boot.hostLink) ∧
    (portHears s = true → inSession s = true → ∃ t, exec (.deviceReset inp) s = .next t ∧ deviceWasReset s t ∧
      t.mgmt.session = false ∧ Out.mgmtResponse vmDeviceReset (statusCode .ok) 0 ∈ t.out) ∧
    (isReady s = true → 2 ≤ (s.cp.restartTimes.filter (fun x => s.time.now < x + 640000000000)).length →
      ∃ t, exec (.cpWatchdog inp) s = .next t ∧ deviceWasReset s t)) ∧
  (∀ (inp : StartInput) (s : State), portHears s = true → inSession s = false →
    exec (.deviceReset inp) s = .next (mgmtReply s vmDeviceReset (statusCode .deniedRole) 0)) ∧
  (∀ (inp : StartInput) (s : State), isReady s = true →
    (s.cp.restartTimes.filter (fun x => s.time.now < x + 640000000000)).length < 2 →
    ∃ t, exec (.cpWatchdog inp) s = .next t ∧ t.cp.restarts = min (s.cp.restarts + 1) 0xFFFF ∧
      t.cp.restartTimes = s.time.now :: s.cp.restartTimes.filter (fun x => s.time.now < x + 640000000000) ∧
      (∀ c, c < 72 → (chanOf t c).state ≠ .taken) ∧
      ∀ c, c < 72 → (chanOf s c).state = .posted → chanOf t c = chanOf s c) ∧
  (∀ (s : State), s.boot.stage = .fwLoad → s.boot.straps.boot = 1 → s.boot.hostUp = false →
    ∃ t, exec .hostLinkTimeout s = .next t ∧ t.boot.stage = .failed ∧ t.boot.failReason = 6) ∧
  (∀ (l : HostLink) (s : State), s.boot.hostUp = false → s.boot.stopped = false → s.boot.coldResetLow = false →
    s.boot.heldHot = false → ∃ t, exec (.hostLinkUp l) s = .next t ∧ t.boot.hostUp = true ∧ t.boot.hostLink = l) ∧
  (∀ (p d : Nat) (s : State) (x : FarDecoder), tfind (farOf s p).decoders d = some x → x.zeroing = true →
    ∃ t, exec (.farZeroingDone p d) s = .next t ∧ tfind (farOf t p).decoders d = some { x with zeroing := false } ∧
      t.mem.bytes = s.mem.bytes)

/-- A core that hangs, or whose control store or scratch fails, is put into reset with its step failed POISONED; a
cellar's control error resets the cellar and raises its epoch. A failing line leaves its cache; a scratch sector of a
cellar keeps poison. A lost NoC header ends poisoned after 64 µs. A retest that passes returns the unit, one that
fails clears its present bit for good. A leak lowers a bucket by one. A scrub read that need not wait marks an uncorrectable
shelf sector as poison and skips one already poisoned; a missed segment escalates the pass. A new error record takes the next INDEX
and its slot, counts a lost one, and a cause that recurs in its strum adds to COUNT.
Rests on 17_errors_repair.md R472, 17_errors_repair.md R475, 17_errors_repair.md R474, 17_errors_repair.md R478,
17_errors_repair.md R485, 17_errors_repair.md R487, 17_errors_repair.md R488, 17_errors_repair.md R489,
16_bringup_reset.md R455, 16_bringup_reset.md R466, 16_bringup_reset.md R468. -/
def Obligations.ErrorsResetsScrub : Prop :=
  (∀ (k slot : Nat) (st : Step) (s : State), coreUp s k = true → (coreOf s k).step = some slot → stepOf s slot = some st →
    (coreOf s k).resetting = false → (cellarOf s (k / 64)).resetting = false →
    (∃ t, exec (.coreHang k) s = .next t ∧ coreIsReset t k ∧
      ∀ st', stepOf t slot = some st' → st.code = none → st'.code = some .poisoned) ∧
    (∃ t, exec (.sramUncorrectable (.coreControl k)) s = .next t ∧ coreIsReset t k ∧
      ∀ st', stepOf t slot = some st' → st.code = none → st'.code = some .poisoned) ∧
    (∀ off, off < (coreOf s k).scratchUnits * 0x10000 →
      ∃ t, exec (.sramUncorrectable (.coreScratch k off)) s = .next t ∧ coreIsReset t k) ∧
    (∀ way set sectors l, tfind (coreOf s k).lines (way * 128 + set) = some l → failingDirty l sectors ≠ 0 →
      ∃ t, exec (.sramUncorrectable (.coreLine k way set sectors)) s = .next t ∧ coreIsReset t k)) ∧
  (∀ (c : Nat) (s : State), cellarUp s c = true → (cellarOf s c).resetting = false →
    (∃ t, exec (.sramUncorrectable (.cellarControl c)) s = .next t ∧ (cellarOf t c).resetting = true ∧
      (cellarOf t c).epoch = ((cellarOf s c).epoch + 1) % 2 ^ 32 ∧ (cellarOf t c).lines = [] ∧ (cellarOf t c).lockedWays = 0) ∧
    (∀ off, off < (cellarOf s c).scratchBanks * 0x80000 →
      ∃ t, exec (.sramUncorrectable (.cellarScratch c off)) s = .next t ∧
        poisonedUnit t ((scratchBase + c * scratchStride + off) / 32) = true ∧ t.mem.bytes = s.mem.bytes) ∧
    (∀ bank way set l, tfind (cellarOf s c).lines ((bank * 16 + way) * 256 + set) = some l → l.dirty = 0 →
      ∃ t, exec (.sramUncorrectable (.cellarTag c bank way set)) s = .next t ∧
        tfind (cellarOf t c).lines ((bank * 16 + way) * 256 + set) = none ∧ t.mem = s.mem ∧ t.err = s.err)) ∧
  (∀ (n : Nat) (x : Txn) (s : State), txnOf s n = some x → x.phase = .issued →
    (∃ t, exec (.sramUncorrectable (.nocHeader n)) s = .next t ∧ txnOf t n = some { x with lost := true }) ∧
    (x.lost = true → ∃ t, exec (.nocHeaderFlitTimeout n) s = .next t ∧
      txnOf t n = some { x with phase := .done, resultPoison := 15, absorbed := true } ∧ t.mem.bytes = s.mem.bytes) ∧
    (x.kind = .write → ∀ q, q < 4 → ∃ t, exec (.sramUncorrectable (.nocData n q)) s = .next t ∧
      txnOf t n = some { x with poison := setBit x.poison q })) ∧
  (∀ (c k : Nat) (s : State), k < 64 → (coreOf s (c * 64 + k)).resetting = true → (cellarOf s c).resetting = false →
    (∃ t, exec (.retestDone c (some k) true) s = .next t ∧ (coreOf t (c * 64 + k)).resetting = false ∧ t.mem = s.mem) ∧
    (bitAt (tget s.boot.presentCores c 0) k = true → ∃ t, exec (.retestDone c (some k) false) s = .next t ∧
      bitAt (tget t.boot.presentCores c 0) k = false ∧ t.boot.coresAbsented = min (s.boot.coresAbsented + 1) 0xFFFF)) ∧
  (∀ (c : Nat) (s : State), (cellarOf s c).resetting = true →
    (56 ≤ popCount (tget s.boot.presentCores c 0) 64 →
      ∃ t, exec (.retestDone c none true) s = .next t ∧ (cellarOf t c).resetting = false ∧ t.mem = s.mem) ∧
    (bitAt s.boot.presentCellars c = true → ∃ t, exec (.retestDone c none false) s = .next t ∧
      bitAt t.boot.presentCellars c = false ∧ t.boot.cellarsAbsented = min (s.boot.cellarsAbsented + 1) 0xFF)) ∧
  (∀ (unit sub : Nat) (b : Bucket) (s : State), s.err.buckets.find? (sameBucket .shelfBank unit sub) = some b → b.count ≠ 0 →
    ∃ t, exec (.leakyBucketLeak 5 unit sub) s = .next t ∧
      t.err.buckets.find? (sameBucket .shelfBank unit sub) = some { b with count := b.count - 1 }) ∧
  (∀ (at_ : ScrubAt) (e : Ecc) (last : Bool) (s : State), scrubWaits s at_ = true → exec (.scrubRead at_ e last) s = .next s) ∧
  (∀ (a n : Nat) (s : State), isReady s = true → scrubWaits s (.memory a) = false →
    (poisonedUnit s (a / 64 * 2) = true → ∀ e, ∃ t, exec (.scrubRead (.memory a) e false) s = .next t ∧ t.mem = s.mem ∧
      t.err = s.err) ∧
    (storedAt s a = some (.shelf n) → poisonedUnit s (a / 64 * 2) = false → wcbOf s (.shelf n) = [] →
      ∃ t, exec (.scrubRead (.memory a) .uncorrectable false) s = .next t ∧ poisonedUnit t (a / 64 * 2) = true ∧
        poisonedUnit t (a / 64 * 2 + 1) = true) ∧
    (storedAt s a = some (.shelf n) → (scrubOf s 0).segment < 63 → poisonedUnit s (a / 64 * 2) = false → a < farBase →
      ∃ t, exec (.scrubRead (.memory a) .good true) s = .next t ∧ (scrubOf t 0).segment = (scrubOf s 0).segment + 1 ∧
        t.mem = s.mem)) ∧
  (∀ (k : Nat) (s : State), k < 5 → isReady s = true → ∃ t, exec (.scrubSegmentDue k) s = .next t ∧
    (scrubOf t k).escalated = true ∧ (scrubOf t k).raised = true ∧ (scrubOf t k).segment = (scrubOf s k).segment ∧
    ((scrubOf s k).raised = true → t.out = s.out ∧ t.cp = s.cp)) ∧
  (∀ (r x : ErrRecord) (s t : State) (i : Nat), logError s r = (t, i) →
    x = { r with strum := s.time.strumCount, boundary := s.time.boundaryTime } →
    ((∀ e ∈ s.err.ring, sameCause e.2 x = false) → i = s.err.nextIndex ∧
      t.err.nextIndex = (if (i + 1) % 2 ^ 32 = 0 then 1 else (i + 1) % 2 ^ 32) ∧
      (∃ y, tfind t.err.ring (i % 4096) = some y ∧ y.index = i ∧ y.code = r.code ∧ y.severity = r.severity ∧
        y.stepTag = r.stepTag ∧ y.address = r.address) ∧
      (∀ o, tfind s.err.ring (i % 4096) = some o → o.index ∉ s.err.acked → t.err.lost = min (s.err.lost + 1) 0xFFFF) ∧
      (∀ o, tfind s.err.ring (i % 4096) = some o → o.index ∈ s.err.acked → t.err.lost = s.err.lost)) ∧
    (∀ e, s.err.ring.find? (fun y => sameCause y.2 x) = some e → i = e.2.index ∧ t.err.nextIndex = s.err.nextIndex ∧
      tfind t.err.ring e.1 = some { e.2 with count := e.2.count + r.count } ∧ t.out = s.out))

/-- POWER_QUERY answers the readings; POWER_CAP_SET stores its caps for the boundary, or answers BAD_FIELD or
ADMISSION_REFUSED and changes nothing. POWER_DOMAIN_SET starts a transition, latches behind one under way, or refuses
whole. An entry ends once its unit is idle, an exit ends ON; a shelf from OFF is unmapped until zeroed. An idle CP
goes to RETENTION; an address match or a comparator wakes it and is latched. A comparator asserts past VALUE,
throttles the hub budget to three quarters, and deasserts. A rail fault or a trip stops the hub; an attic rail fault
takes the die away. LINK_QUERY answers the link's report, LINK_RETRAIN and LINK_MODE_SET are accepted and the mode is
set.
Rests on 18_power_management_port.md R493, 18_power_management_port.md R494, 18_power_management_port.md R498,
18_power_management_port.md R500, 18_power_management_port.md R501, 18_power_management_port.md R503,
18_power_management_port.md R505, 18_power_management_port.md R507, 18_power_management_port.md R513,
20_package_pins.md R535, 20_package_pins.md R538, 13_chord_physical.md R366. -/
def Obligations.PowerAndLinkCommands : Prop :=
  (∀ (c : Nat) (s : State) (t : Taken), runs s c 0x0900 t → ∃ t', exec (.powerQuery c) s = .next t' ∧
    answers s t' c t .ok 0 (field (nth (readings s t.mgmt) 0 0) 0 16 + field (nth (readings s t.mgmt) 1 0) 16 16
      + field (nth (readings s t.mgmt) 2 0) 32 16 + field (hubBudget s) 48 16 + field s.pwr.level 64 3
      + sum ((List.range 8).map (fun k => field (nth (readings s t.mgmt) (3 + k) 0) (128 + 16 * k) 16))
      + field (if t.mgmt then s.time.boundaryTime else s.pwr.coarseTime) 256 64) ∧ t'.pwr = s.pwr) ∧
  (∀ (c : Nat) (s : State) (t : Taken) (k : CapSet) (hub : Nat), runs s c 0x0901 t → k = requestCaps t.req →
    hub = hubOf s (min k.package s.pwr.packageCap) k.hbm (sum k.attic) →
    (bbits t.req 48 16 = 0 → k.package ≤ s.pwr.boardPackage → s.pwr.hubFloor ≤ hub →
      ∃ t', exec (.powerCapSet c) s = .next t' ∧ answers s t' c t .ok (commit s).2 0 ∧ t'.pwr = { s.pwr with capSet := some k }) ∧
    (s.pwr.boardPackage < k.package →
      ∃ t', exec (.powerCapSet c) s = .next t' ∧ answers s t' c t .badField 0 0 ∧ t'.pwr = s.pwr) ∧
    (bbits t.req 48 16 = 0 → k.package ≤ s.pwr.boardPackage → hub < s.pwr.hubFloor → ∃ t', exec (.powerCapSet c) s = .next t' ∧
      answers s t' c t .admissionRefused 0 (field s.pwr.hubFloor 0 16 + field hub 16 16) ∧ t'.pwr = s.pwr)) ∧
  (∀ (c : Nat) (s : State) (t : Taken), runs s c 0x0902 t →
    (∀ st, domainSetRefused s t.req t.mgmt t.ctx = some st →
      ∃ t', exec (.powerDomainSet c) s = .next t' ∧ answers s t' c t st 0 0 ∧ t'.pwr = s.pwr) ∧
    (∀ e, domainSetRefused s t.req t.mgmt t.ctx = none → domainEntries t.req = [e] →
      ((domainOf s e.domain).transition = false → (domainOf s e.domain).dstate ≠ e.target →
        (domainOf s e.domain).dstate = .on ∨ e.target = .on → ∃ t', exec (.powerDomainSet c) s = .next t' ∧
        answers s t' c t .accepted (commit s).2 0 ∧ (domainOf t' e.domain).transition = true ∧
        (domainOf t' e.domain).target = e.target ∧ (domainOf t' e.domain).dstate = (domainOf s e.domain).dstate ∧
        ∀ d, d ≠ e.domain → domainOf t' d = domainOf s d) ∧
      ((domainOf s e.domain).transition = true → ∃ t', exec (.powerDomainSet c) s = .next t' ∧
        answers s t' c t .accepted (commit s).2 0 ∧ (domainOf t' e.domain).target = (domainOf s e.domain).target ∧
        (domainOf t' e.domain).latched = (domainOf s e.domain).latched ++ [⟨e.target, e.mask, (commit s).2⟩]) ∧
      ((domainOf s e.domain).transition = false → (domainOf s e.domain).dstate = e.target →
        ∃ t', exec (.powerDomainSet c) s = .next t' ∧ answers s t' c t .accepted (commit s).2 0 ∧
          t'.pwr.domains = s.pwr.domains))) ∧
  (∀ (d : Nat) (s s1 : State) (x : Domain), d < 103 → d ≠ 101 → domainOf s d = x → x.transition = true → x.latched = [] →
    s.boot.stopped = false →
    (x.target ≠ .on → entryReady s d x = (s1, true) → ∃ t, exec (.powerDomainEntryDone d) s = .next t ∧
      (domainOf t d).dstate = x.target ∧ (domainOf t d).transition = false ∧
      (domainOf t d).transitions = min (x.transitions + 1) 0xFFFFFFFF ∧
      (d < 64 → (cellarOf t d).lines = [] ∧ (cellarOf t d).fills = [] ∧ (cellarOf t d).lockedWays = 0)) ∧
    (x.target ≠ .on → entryReady s d x = (s1, false) → exec (.powerDomainEntryDone d) s = .next s1) ∧
    (x.target = .on → routesReady s d = false → ∀ ok, exec (.powerDomainOn d ok) s = .next s) ∧
    (x.target = .on → routesReady s d = true → ∀ ok, ∃ t, exec (.powerDomainOn d ok) s = .next t ∧ (domainOf t d).dstate = .on ∧
      (domainOf t d).transition = false ∧
      (64 ≤ d → d < 76 → (shelfOf t (d - 64)).zeroing = (x.dstate == .off)))) ∧
  (∀ (n : Nat) (s : State), bitAt s.boot.presentShelves n = true → domainOn s (64 + n) = true → (shelfOf s n).zeroing = true →
    ∃ t, exec (.shelfZeroingDone n) s = .next t ∧ (shelfOf t n).zeroing = false ∧ t.mem.bytes = s.mem.bytes) ∧
  (∀ s : State, (cpIdle s = true → ∃ t, exec .cpIdleTimeout s = .next t ∧ (domainOf t 101).transition = true ∧
      (domainOf t 101).target = .retention) ∧ (cpIdle s = false → exec .cpIdleTimeout s = .next s)) ∧
  (∀ s : State, mgmtReaches s = true →
    ((domainOf s 101).dstate = .retention → (domainOf s 101).transition = false →
      (s.mgmt.smbusEn = true → ∃ t, exec .smbusAddressMatch s = .next t ∧ t.pwr.sclHeld = true ∧ bitAt t.pwr.wakeLatch 0 = true ∧
        (domainOf t 101).transition = true ∧ (domainOf t 101).target = .on) ∧
      (s.mgmt.i3cEn = true → ∃ t, exec .i3cAddressMatch s = .next t ∧ bitAt t.pwr.wakeLatch 1 = true ∧
        (domainOf t 101).transition = true ∧ (domainOf t 101).target = .on)) ∧
    (domainOn s 101 = true → exec .smbusAddressMatch s = .next s ∧ exec .i3cAddressMatch s = .next s)) ∧
  (∀ (k v : Nat) (s : State) (x : Comparator), k < 8 → mgmtReaches s = true → comparatorOf s k = x →
    (x.enable = true → x.asserted = false → crossed x (watched s x v) = true → ∃ t, exec (.comparatorAssert k v) s = .next t ∧
      (comparatorOf t k).asserted = true ∧ (bitAt x.action 2 = true → hubBudget t = s.pwr.hub * 3 / 4) ∧
      (bitAt x.action 0 = true → domainOn s 101 = false → bitAt t.pwr.wakeLatch (3 + k) = true)) ∧
    (x.source ≠ 0xFF → x.asserted = true → returned x (watched s x v) = true → ∃ t, exec (.comparatorDeassert k v) s = .next t ∧
      comparatorOf t k = { x with asserted := false })) ∧
  (∀ s : State, s.boot.coldResetLow = false →
    (∀ r, 40 ≤ r → r ≤ 55 → ∃ t, exec (.railFault r) s = .next t ∧ t.boot.stopped = true ∧ t.boot.pwrFault = true ∧
      t.mem = s.mem) ∧
    (∀ k v, trips k v = true → ∃ t, exec (.thermalTrip k v) s = .next t ∧ t.boot.stopped = true ∧ t.boot.thermTrip = true ∧
      t.mem = s.mem)) ∧
  (∀ (p site : Nat) (s : State), p < 8 → logicalSite s p = some site → s.boot.stopped = false → hearsDie s site = true →
    (tkeys s.attic.dir).Nodup → ∃ t, exec (.vddAtticFault p) s = .next t ∧ bitAt t.boot.atticRails p = false ∧
      bitAt t.boot.atticResetLow site = true ∧ (siteOf t site).astate = .down ∧ (siteOf t site).lastReason = downLost ∧
      ∀ e ∈ t.attic.dir, e.2.owner ≠ some site ∧ bitAt e.2.sharers site = false) ∧
  (∀ (up : Bool) (s : State), mgmtReaches s = true → s.boot.straps.mgmtIf < 2 →
    exec (.sgmiiLinkChange up) s = .next { s with mgmt := { s.mgmt with sgmiiUp := up } }) ∧
  (∀ (c e : Nat) (s : State) (t : Taken), bbits t.req 0 4 = e → e < 12 → bitAt s.boot.presentEngines e = true →
    (runs s c 0x0600 t → bbits t.req 4 60 = 0 → engineOwner s e = t.ctx → ∃ t', exec (.linkQuery c) s = .next t' ∧
      answers s t' c t .ok 0 (linkResult s e % 2 ^ 256 + field (seenTime s (if t.mgmt then 0 else t.ctx)) 256 64) ∧
      t'.link = s.link) ∧
    (runs s c 0x0601 t → bbits t.req 4 12 = 0 → bbits t.req 32 32 = 0 → (engineOf s e).cfgMode ≠ 0 →
      domainLive s (domEngine e) = true → ∃ t', exec (.linkRetrain c) s = .next t' ∧ answers s t' c t .accepted (commit s).2 0) ∧
    (runs s c 0x0602 t → bbits t.req 13 3 = 0 → bbits t.req 32 32 = 0 → bbits t.req 4 2 ≠ 3 → bbits t.req 6 2 ≤ rateCap s →
      bbits t.req 4 2 = 0 ∨ (bbits t.req 4 2 = 2 ∧ bbits t.req 6 2 = 1) ∨ (bbits t.req 4 2 = 1 ∧ 0 < bbits t.req 8 5 ∧
        bbits t.req 8 5 ≤ 16 ∧ bbits t.req 8 5 ≤ popCount (bbits t.req 16 16) 16) →
      ∃ t', exec (.linkModeSet c) s = .next t' ∧ answers s t' c t .accepted (commit s).2 0 ∧
        (engineOf t' e).cfgMode = bbits t.req 4 2 ∧ (engineOf t' e).cfgRate = bbits t.req 6 2 ∧
        (engineOf t' e).minLanes = bbits t.req 8 5 ∧ (engineOf t' e).laneEnable = bbits t.req 16 16))

/-- REGISTER_WRITE stores into a FREE mailbox's request area, acts as the doorbell, consumer or MSI-X write at their
offsets, and is discarded elsewhere; behind a held doorbell it waits. BAR2_ACCESS enters the host's port line by line;
outside what the host reaches a read is unsupported and a write is discarded and logged. A firewall refusal of a
write is recorded, and a read completes with its bytes once its last line is back. HOST_CONFIG_WRITE sets its field, and a pending message goes out when
the function wakes. Without a session the port refuses; in it, MB_REQUEST posts, is held, or is refused; EVENT_ACK
frees the hold up to its record; REG_READ answers the management view; REG_WRITE and PWR_CMP_WRITE write the fields
R517 names; the endpoint ID is set and a sensor answers.
Rests on 00_scope.md R10, 03_control_processor_mailboxes.md R60, 08_address_map_shelves.md R235,
08_address_map_shelves.md R237, 08_address_map_shelves.md R238, 08_address_map_shelves.md R239,
18_power_management_port.md R505, 18_power_management_port.md R514, 18_power_management_port.md R516,
18_power_management_port.md R517, 18_power_management_port.md R518, 18_power_management_port.md R519. -/
def Obligations.RegistersAndBar2 : Prop :=
  (∀ (addr size value : Nat) (s : State), hostReaches s = false ∨ (¬ (0x100000 ≤ addr ∧ addr < 0x140000) ∧
    ¬ (0x200000 ≤ addr ∧ addr < 0x208000) ∧ ¬ (0x300000 ≤ addr ∧ addr < 0x308000) ∧ s.mem.heldDoorbells = []) →
    exec (.registerWrite addr size value) s = .next s) ∧
  (∀ (addr size value : Nat) (s : State), hostReaches s = true → s.mem.heldDoorbells ≠ [] →
    exec (.registerWrite addr size value) s = .next { s with mem := { s.mem with
      heldDoorbells := s.mem.heldDoorbells ++ [(addr, size, value % 2 ^ (8 * size))] } }) ∧
  (∀ (m o size value : Nat) (s : State), hostReaches s = true → s.mem.heldDoorbells = [] → m < 64 → o < 0xC00 → size = 4 ∨ size = 8 → o % size = 0 →
    ((chanOf s m).state = .free → ∃ t, exec (.registerWrite (0x100000 + m * 0x1000 + o) size value) s = .next t ∧
      (∀ i, i < size → tget (chanOf t m).req (o + i) 0 = BitVec.ofNat 8 (value / 2 ^ (8 * i))) ∧
      (∀ x, x < o ∨ o + size ≤ x → tget (chanOf t m).req x 0 = tget (chanOf s m).req x 0) ∧ (chanOf t m).state = .free ∧
      ∀ c, c ≠ m → chanOf t c = chanOf s c) ∧
    ((chanOf s m).state ≠ .free → exec (.registerWrite (0x100000 + m * 0x1000 + o) size value) s = .next s)) ∧
  (∀ (k w v : Nat) (s : State), hostReaches s = true → s.mem.heldDoorbells = [] →
    (k < 64 → hostWritesOut s = false → exec (.registerWrite (0x100F48 + k * 0x1000) 8 v) s = exec (.doorbellIgnoredAction k (v % 256)) s) ∧
    (k < 512 → exec (.registerWrite (0x200000 + k * 0x40) 8 v) s = exec (.eqConsumerWrite k (v % 2 ^ 32) (bitAt v 32)) s) ∧
    (k < 2048 → w < 4 → exec (.registerWrite (0x300000 + k * 16 + w * 4) 4 v) s = exec (.msixTableWrite k w v) s)) ∧
  (∀ (poison : Bool) (addr a : Nat) (data : Bytes) (s : State), hostReaches s = true → data ≠ [] → bar2Hpa s addr = some a →
    (bar2Unmapped s a data.length = true →
      exec (.bar2Access .read addr data) s = .next { s with out := .unsupported :: s.out } ∧
      ∃ t, exec (.bar2Access (.write poison) addr data) s = .next t ∧ t.mem = s.mem ∧ t.out = s.out ∧ t.boot.aerUnsupported = true) ∧
    (bar2Unmapped s a data.length = false →
      (∃ t, exec (.bar2Access (.write poison) addr data) s = .next t ∧ t.mem.bytes = s.mem.bytes ∧ t.out = s.out ∧
        ∀ l ∈ linesOf a data.length, ∃ i x, txnOf t i = some x ∧ x.phase = .waiting ∧ x.master = 84 ∧ x.tag = tagHost ∧
          x.client = .hostWrite ∧ x.kind = .write ∧ x.hpa = l * 128 ∧ x.data = bytesOfLine a data l ∧
          x.poison = (if poison then 15 else 0)) ∧
      (s.mem.hostReads.length < 2048 → ∃ t q, exec (.bar2Access .read addr data) s = .next t ∧
        tfind t.mem.hostReads s.cells.nextId = some q ∧ q.bus = addr ∧ q.hpa = a ∧ q.bytes = data.length ∧
        q.lines.length = (linesOf a data.length).length ∧ t.mem.bytes = s.mem.bytes ∧ t.out = s.out ∧
        ∀ i ∈ q.lines, ∃ x, txnOf t i = some x ∧ x.phase = .waiting ∧ x.master = 84 ∧ x.tag = tagHost ∧ x.kind = .read ∧
          x.client = .hostRead s.cells.nextId) ∧
      (2048 ≤ s.mem.hostReads.length → exec (.bar2Access .read addr data) s = .next s))) ∧
  (∀ (n i : Nat) (s : State) (x : Txn) (r : HostRead), txnOf s n = some x → x.phase = .done → x.master = 84 →
    (x.client = .hostWrite → x.error = some ecFirewall → s.mem.heldDoorbells = [] → ∃ t,
      exec (.transactionCompletionReturn n) s = .next t ∧ txnOf t n = none ∧
      ∃ e ∈ t.err.ring, e.2.code = ecFirewall ∧ e.2.unitClass = ucHostPort ∧ e.2.address = x.hpa) ∧
    (x.client = .hostRead i → tfind s.mem.hostReads i = some r → r.lines = [n] → r.after = [] → r.unsupported = false →
      x.error = none → ∃ t pz, exec (.transactionCompletionReturn n) s = .next t ∧ tfind t.mem.hostReads i = none ∧
        t.out = .readData r.bus ((List.range r.bytes).map (fun k =>
          tget (x.result.foldl (fun (d : Tab Byte) (b : Nat × Byte) => tset d (x.hpa + b.1) b.2) r.data) (r.hpa + k) 0)) pz :: s.out ∧
        (r.bad = [] → x.resultPoison = 0 → pz = 0))) ∧
  (∀ (n v : Nat) (b : Bool) (s : State), hostReaches s = true →
    (∃ t, exec (.hostConfigWrite (.bar0 n)) s = .next t ∧ t.boot.bar0Base = n % 2 ^ 64 / 2 ^ 26 * 2 ^ 26) ∧
    (∃ t, exec (.hostConfigWrite (.bar2 n)) s = .next t ∧
      t.boot.bar2Base = n % 2 ^ 64 / 2 ^ s.boot.bar2Log2 * 2 ^ s.boot.bar2Log2) ∧
    (∃ t, exec (.hostConfigWrite (.bar2Size n)) s = .next t ∧
      t.boot.bar2Log2 = if 30 ≤ n ∧ n ≤ 44 then n else s.boot.bar2Log2) ∧
    (∃ t, exec (.hostConfigWrite (.atomicEnable b)) s = .next t ∧ t.boot.atomicEnable = b) ∧
    (∃ t, exec (.hostConfigWrite (.ide b n)) s = .next t ∧ t.boot.ideLink = b ∧ t.boot.ideSelective = min n 4) ∧
    (∃ t, exec (.hostConfigWrite (.aerClear b true)) s = .next t ∧ t.boot.aerUnsupported = (s.boot.aerUnsupported && !b) ∧
      t.boot.aerPoisoned = false) ∧
    (∃ t, exec (.hostConfigWrite (.busMaster b)) s = .next t ∧ t.boot.busMaster = b ∧ (b = false → t.out = s.out)) ∧
    (∃ t, exec (.hostConfigWrite (.dState true)) s = .next t ∧ t.boot.d3hot = true ∧ t.out = s.out ∧ t.cp = s.cp) ∧
    (s.boot.busMaster = true → ∃ t, exec (.hostConfigWrite (.dState false)) s = .next t ∧ t.boot.d3hot = false ∧
      ((tget s.cp.msix v {}).pendingBit = true → (tget s.cp.msix v {}).masked = false →
        (tget t.cp.msix v {}).pendingBit = false ∧
        Out.msix v (tget s.cp.msix v {}).addr (tget s.cp.msix v {}).data ∈ t.out))) ∧
  (∀ (msg : Bytes) (n size value : Nat) (s : State), portHears s = true → s.mgmt.session = false →
    exec (.mbRequest msg) s = .next { s with out := .mgmtResponse vmMbRequest (statusCode .deniedRole) 0 :: s.out } ∧
    exec (.eventAck n) s = .next { s with out := .mgmtResponse vmEventAck (statusCode .deniedRole) 0 :: s.out } ∧
    exec (.regWrite n size value) s = .next { s with out := .mgmtResponse vmRegWrite (statusCode .deniedRole) 0 :: s.out } ∧
    (n % 2 ^ 26 ≠ 0x10008 →
      exec (.regRead n size) s = .next { s with out := .mgmtResponse vmRegRead (statusCode .deniedRole) 0 :: s.out })) ∧
  (∀ (n size : Nat) (s : State), portHears s = true → n % 2 ^ 26 = 0x10008 ∨ inSession s = true →
    exec (.regRead n size) s = .next { s with fresh := s.fresh + 1
                                              out := .mgmtResponse vmRegRead (statusCode .ok) (readReg s .mgmt (n % 2 ^ 26) size)
                                                :: s.out }) ∧
  (∀ (msg : Bytes) (s : State), portHears s = true → inSession s = true →
    (∀ i, i < 8 → isReady s = true → (chanOf s (64 + i)).state = .free → (∀ j, j < i → (chanOf s (64 + j)).state ≠ .free) →
      ∃ t, exec (.mbRequest msg) s = .next t ∧ (chanOf t (64 + i)).state = .posted ∧
        (chanOf t (64 + i)).taken = some (requestTaken msg) ∧ (chanOf t (64 + i)).order = s.cp.mgmtOrder ∧
        t.cp.mgmtOrder = s.cp.mgmtOrder + 1 ∧ ∀ c, c ≠ 64 + i → chanOf t c = chanOf s c) ∧
    ((isReady s = true ∧ ∀ j, j < 8 → (chanOf s (64 + j)).state ≠ .free) ∨ s.boot.stage = .failed →
      ∃ r, exec (.mbRequest msg) s = .next { s with out := .mgmtCompletion (requestTaken msg).hdr.tag r [] :: s.out } ∧
        r.code = statusCode .noResource ∧ r.commitSeq = 0) ∧
    ((s.boot.stage = .test ∨ s.boot.stage = .shelves) → mgmtInFlight s < 8 →
      exec (.mbRequest msg) s = .next { s with mgmt := { s.mgmt with heldRequests := s.mgmt.heldRequests ++ [msg] } })) ∧
  (∀ (seq i : Nat) (h : HeldRecord) (s : State), portHears s = true → s.mgmt.session = true → isReady s = true →
    ((∀ x ∈ s.mgmt.held, x.seq = seq → x.sent = false) → s.mgmt.droppedSince = 0 →
      ∃ t, exec (.eventAck seq) s = .next t ∧ t.mgmt = s.mgmt ∧ t.err = s.err) ∧
    (s.mgmt.held[i]? = some h → h.seq = seq → h.sent = true →
      (∀ x ∈ s.mgmt.held.take i, ¬ (x.seq = seq ∧ x.sent = true)) →
      (s.mgmt.droppedSince = 0 → ∃ t, exec (.eventAck seq) s = .next t ∧ t.mgmt = { s.mgmt with held := s.mgmt.held.drop (i + 1) } ∧
        ∀ x ∈ s.mgmt.held.take (i + 1), ∀ r, x.err = some r → (∃ e ∈ s.err.ring, e.2.index = r.index) → r.index ∈ t.err.acked) ∧
      (s.mgmt.droppedSince ≠ 0 → s.mgmt.held.length ≤ 64 → ∃ t y, exec (.eventAck seq) s = .next t ∧
        t.mgmt.held = s.mgmt.held.drop (i + 1) ++ [y] ∧ y.record.code = eventValue .eqOverflow ∧ y.seq = s.mgmt.nextSeq ∧
        y.record.result / 2 ^ 64 = s.mgmt.droppedSince % 2 ^ 16 ∧ t.mgmt.droppedSince = 0))) ∧
  (∀ (k v : Nat) (s : State), portHears s = true → s.mgmt.session = true → isReady s = true →
    (k < 8 → exec (.regWrite (0x2600200 + 16 * k) 8 v) s = exec (.pwrCmpWrite k v) s ∧
      (∃ t, exec (.pwrCmpWrite k v) s = .next t ∧ t.out = .mgmtResponse vmRegWrite (statusCode .ok) 0 :: s.out ∧
        comparatorOf t k = { comparatorOf s k with
          enable := bitAt v 0, below := bitAt v 2, action := bits v 3 3, source := bits v 8 8, hysteresis := bits v 16 4
          asserted := (comparatorOf s k).asserted && (comparatorOf s k).source != 0xFF && bits v 8 8 != 0xFF && bitAt v 0 } ∧
        ∀ j, j ≠ k → comparatorOf t j = comparatorOf s j) ∧
      ∃ t, exec (.regWrite (0x2600208 + 16 * k) 8 v) s = .next t ∧ comparatorOf t k = { comparatorOf s k with
        value := v % 2 ^ 64
        asserted := (comparatorOf s k).asserted && (comparatorOf s k).source != 0xFF && (comparatorOf s k).enable }) ∧
    (k < 32 → ∃ t, exec (.regWrite (0x2400800 + 8 * k) 8 v) s = .next t ∧ tget t.boot.lcRequest k 0 = v % 2 ^ 64 ∧
      ∀ j, j ≠ k → tget t.boot.lcRequest j 0 = tget s.boot.lcRequest j 0) ∧
    (∀ size, mgmtReg (k % 2 ^ 26) = .other ∨ size ≠ 8 →
      exec (.regWrite k size v) s = .next { s with out := .mgmtResponse vmRegWrite (statusCode .ok) 0 :: s.out })) ∧
  (∀ (n : Nat) (s : State), portHears s = true →
    (0 < n → n < 0xFF → ∃ t, exec (.setEndpointId n) s = .next t ∧ t.mgmt = { s.mgmt with eid := n }) ∧
    (n = 0 ∨ 0xFF ≤ n → ∃ t, exec (.setEndpointId n) s = .next t ∧ t.mgmt = s.mgmt) ∧
    (inSession s = true → ∀ v, (n = 29 ∧ v = s.pwr.readHub) ∨ (n = 30 ∧ v = s.pwr.readHbm) ∨ (n = 31 ∧ v = s.pwr.readPackage) ∨
        (32 ≤ n ∧ n ≤ 39 ∧ v = (atticPowerOf s (n - 32)).measured) ∨ (n = 64 ∧ v = s.pwr.level) →
      exec (.pldmSensorRead n) s = .next { s with fresh := s.fresh + 1, out := .mgmtResponse vmPldm pldmOk v :: s.out }))

/-- A request that the responder does not hear changes nothing. GET_VERSION starts a conversation anew;
GET_CAPABILITIES takes version 1.2 or 1.3 and no other; NEGOTIATE_ALGORITHMS follows it; the digests, the chain of
slot 0, the challenge and the measurements follow that, index 0xFF giving all ten from one state. KEY_EXCHANGE and
FINISH open a session; on the management port they need mutual authentication, a named root and no open session, and
FINISH opens the management session and sends every held record. KEY_UPDATE and HEARTBEAT serve a session; END_SESSION
ends it, and discards the management commands not yet taken. ATTEST is accepted and ends.
Rests on 15_security.md R409, 15_security.md R433, 15_security.md R434, 15_security.md R435, 15_security.md R436,
18_power_management_port.md R518, 18_power_management_port.md R553. -/
def Obligations.SpdmResponder : Prop :=
  (∀ (m : SpdmIn) (s : State) (cmd : Instr), spdmReaches s m.transport = false →
    cmd ∈ [.getVersion m, .getCapabilities m, .negotiateAlgorithms m, .getDigests m, .getCertificate m, .challenge m,
      .getMeasurements m, .keyExchange m, .finish m, .spdmKeyUpdate m, .spdmHeartbeat m, .endSession m] →
    exec cmd s = .next s) ∧
  (∀ (m : SpdmIn) (s : State) (x : SpdmConv), spdmReaches s m.transport = true → convOf s m.transport = x → m.ok = true →
    (∃ t, exec (.getVersion m) s = .next t ∧ t.out = .spdm m.transport 0x04 0x1312 :: s.out ∧
      convOf t m.transport = { x with version := 0, capsDone := false, algsDone := false }) ∧
    (m.version = 0x12 ∨ m.version = 0x13 → ∃ t, exec (.getCapabilities m) s = .next t ∧
      t.out = .spdm m.transport 0x61 m.version :: s.out ∧
      convOf t m.transport = { x with version := m.version, capsDone := true, algsDone := false }) ∧
    (m.version ≠ 0x12 → m.version ≠ 0x13 →
      exec (.getCapabilities m) s = .next { s with out := .spdm m.transport 0x7F 0x41 :: s.out }) ∧
    (x.capsDone = false → ∀ cmd ∈ [Instr.negotiateAlgorithms m, .getDigests m, .getCertificate m, .challenge m, .getMeasurements m],
      exec cmd s = .next { s with out := .spdm m.transport 0x7F 4 :: s.out }) ∧
    (x.capsDone = true → m.version = x.version →
      (∃ t, exec (.negotiateAlgorithms m) s = .next t ∧ t.out = .spdm m.transport 0x63 0 :: s.out ∧
        convOf t m.transport = { x with algsDone := true }) ∧
      (x.algsDone = true →
        exec (.getDigests m) s = .next { s with out := .spdm m.transport 0x01 1 :: s.out } ∧
        (m.param = 0 → exec (.getCertificate m) s = .next { s with out := .spdm m.transport 0x02 0 :: s.out } ∧
          exec (.challenge m) s = .next { s with out := .spdm m.transport 0x03 0 :: s.out } ∧
          exec (.getMeasurements m) s = .next { s with out := .spdm m.transport 0x60 10 :: s.out }) ∧
        (m.param ≠ 0 → exec (.getCertificate m) s = .next { s with out := .spdm m.transport 0x7F 1 :: s.out } ∧
          exec (.challenge m) s = .next { s with out := .spdm m.transport 0x7F 1 :: s.out }) ∧
        (m.param = 0xFF → exec (.getMeasurements m) s = .next { s with
          out := .measurements m.transport ((List.range 10).map (fun i => measurement s none (i + 1)))
            :: .spdm m.transport 0x60 10 :: s.out }) ∧
        (1 ≤ m.param → m.param ≤ 10 → exec (.getMeasurements m) s = .next { s with
          out := .measurements m.transport [measurement s none m.param] :: .spdm m.transport 0x60 1 :: s.out }))) ∧
    (x.algsDone = true → x.session = false → m.version = x.version →
      m.transport = onDoe ∨ (m.mutualAuth = true ∧ s.part.mgmtRoot = true ∧ s.mgmt.session = false) →
      ∃ t, exec (.keyExchange m) s = .next t ∧ t.out = .spdm m.transport 0x64 0 :: s.out ∧
        convOf t m.transport = { x with handshake := true }) ∧
    (x.algsDone = true → x.session = false → m.version = x.version → m.transport = onMctp →
      m.mutualAuth = false ∨ s.part.mgmtRoot = false ∨ s.mgmt.session = true →
      exec (.keyExchange m) s = .next { s with out := .spdm m.transport 0x7F 7 :: s.out }) ∧
    (x.handshake = true → m.transport = onDoe → ∃ t, exec (.finish m) s = .next t ∧
      convOf t m.transport = { x with handshake := false, session := true, keyUpdates := 0 } ∧ t.mgmt = s.mgmt) ∧
    (x.handshake = true → m.transport = onMctp → m.mutualAuth = true → ∃ t, exec (.finish m) s = .next t ∧
      convOf t m.transport = { x with handshake := false, session := true, keyUpdates := 0 } ∧ t.mgmt.session = true ∧
      (∀ h ∈ s.mgmt.held, h.sent = false → Out.mgmtRecord { h with sent := true } ∈ t.out) ∧
      (s.mgmt.droppedSince = 0 → t.mgmt.held = s.mgmt.held.map (fun h => { h with sent := true }))) ∧
    (x.handshake = true → m.transport = onMctp → m.mutualAuth = false → ∃ t, exec (.finish m) s = .next t ∧
      (convOf t m.transport).session = x.session ∧ t.mgmt = s.mgmt) ∧
    (x.session = true →
      (∃ t, exec (.spdmKeyUpdate m) s = .next t ∧ t.out = .spdm m.transport 0x69 0 :: s.out ∧
        convOf t m.transport = { x with keyUpdates := x.keyUpdates + 1 }) ∧
      exec (.spdmHeartbeat m) s = .next { s with out := .spdm m.transport 0x68 0 :: s.out } ∧
      ∃ t, exec (.endSession m) s = .next t ∧ t.out = .spdm m.transport 0x6C 0 :: s.out ∧
        convOf t m.transport = { x with handshake := false, session := false, keyUpdates := 0 } ∧
        (m.transport = onDoe → t.mgmt = s.mgmt ∧ t.cp = s.cp) ∧
        (m.transport = onMctp → s.mgmt.session = true → t.mgmt.session = false ∧ t.mgmt.heldRequests = [] ∧
          (∀ c, (chanOf s c).state = .taken → chanOf t c = chanOf s c) ∧
          ∀ i, i < 8 → (chanOf s (64 + i)).state = .posted → (chanOf t (64 + i)).state = .free)) ∧
    (x.session = false → ∀ cmd ∈ [Instr.spdmKeyUpdate m, .spdmHeartbeat m, .endSession m],
      exec cmd s = .next { s with out := .spdm m.transport 0x7F 4 :: s.out })) ∧
  (∀ (s : State), (measurement s none 3).content = [s.boot.fw.digest, s.boot.fw.version] ∧
    nth (measurement s none 1).content 1 0 = s.part.generation ∧
    nth (measurement s none 1).content 2 0 = b2n s.part.updateInProgress) ∧
  (∀ (c : Nat) (ok : Bool) (wb : WriteBack) (s : State) (t : Taken), runs s c 0x0A00 t →
    ((Config.spdmBytes s.fresh).length ≤ respCapacity t → ∃ t', exec (.attest c ok wb) s = .next t' ∧
      answers s t' c t .accepted (commit s).2 0 ∧ asyncOf t' (commit s).2 = none ∧ t'.mem = s.mem) ∧
    (respCapacity t < (Config.spdmBytes s.fresh).length → ∃ t', exec (.attest c ok wb) s = .next t' ∧
      answers s t' c t .responseTooSmall 0 (Config.spdmBytes s.fresh).length))

/-- FW_STAGE is accepted, overwrites the idle slot and sets UPDATE_IN_PROGRESS, or meets a staging or an activation
and gets NO_RESOURCE; in the boot ROM a good image runs and no slot is written. Its end stores the image and marks it
staged, or discards it. FW_ACTIVATE needs a staged image and stops the taking of commands; once none is TAKEN the
image runs, its slot is active, and SPDM sessions end. UPDATE_COMPONENT and ACTIVATE_FIRMWARE do the same. A GO of
each of the five settings begins programming and uses a change when Table 16-11 allows it, meets one in progress and
is counted, or is refused and burns nothing. The end of programming logs the change and puts it in force, or loses it.
Rests on 16_bringup_reset.md R442, 16_bringup_reset.md R443, 16_bringup_reset.md R444, 16_bringup_reset.md R445,
16_bringup_reset.md R446, 16_bringup_reset.md R461, 16_bringup_reset.md R462, 16_bringup_reset.md R463,
16_bringup_reset.md R464, 15_security.md R436, 03_control_processor_mailboxes.md R89, 18_power_management_port.md
R520. -/
def Obligations.FirmwareAndLifecycle : Prop :=
  (∀ (c : Nat) (image x : FwImage) (s : State) (t : Taken), runs s c 0x0B00 t → x = requestImage t.req image →
    (bootServes s = false → s.boot.staging = none → s.boot.activating = none → ∃ t', exec (.fwStage c image) s = .next t' ∧
      answers s t' c t .accepted (commit s).2 0 ∧ t'.boot.staging = some ⟨(commit s).2, x⟩ ∧
      t'.boot.slots = tdel s.boot.slots (idleSlot s) ∧ t'.part.updateInProgress = true ∧
      t'.part.generation = (s.part.generation + 1) % 2 ^ 64 ∧
      (s.boot.slotRecords.length = 2 → (slotRecord t').stagedValid = false)) ∧
    (bootServes s = false → s.boot.staging.isSome = true ∨ s.boot.activating.isSome = true →
      ∃ t', exec (.fwStage c image) s = .next t' ∧ answers s t' c t .noResource 0 0 ∧ t'.boot = s.boot) ∧
    (∀ st, bootServes s = true → imageStatus s x = some st →
      ∃ t', exec (.fwStage c image) s = .next t' ∧ answers s t' c t st 0 0 ∧ t'.boot = s.boot) ∧
    (∀ inp, bootServes s = true → imageStatus s x = none → s.boot.waiting = some inp →
      ∃ t', exec (.fwStage c image) s = .next t' ∧ t'.boot.fw = x ∧ t'.boot.waiting = none ∧ t'.boot.slots = s.boot.slots)) ∧
  (∀ (ok : Bool) (g : Staging) (s : State), s.boot.staging = some g → s.boot.stopped = false →
    (ok = true → imageStatus s g.image = none → ∃ t, exec (.fwStageDone ok) s = .next t ∧ t.boot.staging = none ∧
      tfind t.boot.slots (idleSlot s) = some g.image ∧ t.part.updateInProgress = s.part.updateInProgress ∧
      asyncOf t g.seq = none ∧ (s.boot.slotRecords.length = 2 → readyImage t = some g.image)) ∧
    (ok = false ∨ imageStatus s g.image ≠ none → ∃ t, exec (.fwStageDone ok) s = .next t ∧ t.boot.staging = none ∧
      t.boot.slots = s.boot.slots ∧ t.part.updateInProgress = false ∧ asyncOf t g.seq = none)) ∧
  (∀ (c : Nat) (s : State) (t : Taken), runs s c 0x0B01 t →
    (∀ x, readyImage s = some x → s.boot.activating = none → ∃ t', exec (.fwActivate c) s = .next t' ∧
      answers s t' c t .accepted (commit s).2 0 ∧ t'.cp.stopTaking = true ∧ t'.boot.activating = some (commit s).2 ∧
      t'.boot.fw = s.boot.fw) ∧
    (readyImage s = none → ∃ t', exec (.fwActivate c) s = .next t' ∧ answers s t' c t .fwNotStaged 0 0 ∧ t'.boot = s.boot) ∧
    (∀ x, readyImage s = some x → s.boot.activating.isSome = true →
      ∃ t', exec (.fwActivate c) s = .next t' ∧ answers s t' c t .noResource 0 0 ∧ t'.boot = s.boot)) ∧
  (∀ (n : Nat) (x : FwImage) (s : State), s.boot.activating = some n → readyImage s = some x → s.boot.stopped = false →
    (takenCount s = 0 → ∃ t, exec .fwActivateSwitch s = .next t ∧ t.boot.fw = x ∧ t.boot.slot = idleSlot s ∧
      t.boot.activating = none ∧ t.cp.stopTaking = false ∧ t.cp.activations = min (s.cp.activations + 1) 0xFFFF ∧
      t.part.updateInProgress = false ∧ t.part.generation = (s.part.generation + 1) % 2 ^ 64 ∧ asyncOf t n = none ∧
      (convOf t onDoe).session = false ∧ (convOf t onMctp).session = false ∧
      (s.boot.slotRecords.length = 2 → (slotRecord t).activeSlot = idleSlot s ∧ readyImage t = none)) ∧
    (takenCount s ≠ 0 → exec .fwActivateSwitch s = .next s)) ∧
  (∀ (image : FwImage) (s : State), portHears s = true → bootTakesPldm s = false → inSession s = true →
    (s.boot.staging = none → s.boot.activating = none → ∃ t, exec (.updateComponent image) s = .next t ∧
      t.out = .mgmtResponse vmPldm pldmOk 0 :: s.out ∧ t.boot.staging = some ⟨(commit s).2, image⟩ ∧
      t.part.updateInProgress = true) ∧
    (∀ x, readyImage s = some x → s.boot.activating = none → ∃ t, exec .activateFirmware s = .next t ∧
      t.out = .mgmtResponse vmPldm pldmOk 0 :: s.out ∧ t.cp.stopTaking = true ∧ t.boot.activating = some (commit s).2) ∧
    (readyImage s = none → exec .activateFirmware s = .next { s with
      out := .mgmtResponse vmPldm (statusCode .fwNotStaged) 0 :: s.out })) ∧
  (∀ (image : FwImage) (inp : StartInput) (s : State), portHears s = true → bootTakesPldm s = true → s.boot.waiting = some inp →
    imageStatus s image = none → ∃ t, exec (.updateComponent image) s = .next t ∧ t.boot.fw = image ∧ t.boot.waiting = none ∧
      t.boot.slots = s.boot.slots) ∧
  (∀ (sig : Bool) (s : State), portHears s = true → s.mgmt.session = true → isReady s = true →
    (bits (lcWord s 0) 0 8 = 1 → ∃ t, exec (.lcVariant sig) s = .next t ∧ lcEffect s t 1 sig) ∧
    (bits (lcWord s 0) 0 8 = 2 → ∃ t, exec (.lcLifecycle sig) s = .next t ∧ lcEffect s t 2 sig) ∧
    (bits (lcWord s 0) 0 8 = 3 → ∃ t, exec (.lcAntiRollback sig) s = .next t ∧ lcEffect s t 3 sig) ∧
    (bits (lcWord s 0) 0 8 = 4 → ∃ t, exec (.lcAtticRepairMap sig) s = .next t ∧ lcEffect s t 4 sig) ∧
    (bits (lcWord s 0) 0 8 = 5 → ∃ t, exec (.lcAtticProfile sig) s = .next t ∧ lcEffect s t 5 sig)) ∧
  (∀ (sig : Bool) (s : State) (site w : Nat), site < 8 →
    (lcWord s 0 = 1 → lcWord s 1 = 2 → s.boot.fuses.variant = .l → s.boot.fuses.downgraded = false → lcRefused s sig = none) ∧
    (lcWord s 0 = 2 → lcWord s 1 = 3 → s.boot.fuses.lifecycleSteps < 3 → s.boot.fuses.lifecycle ≠ .scrapped →
      lcRefused s sig = none) ∧
    (lcWord s 0 = 2 → lcWord s 1 = 2 → s.boot.fuses.lifecycleSteps < 3 → s.boot.fuses.lifecycle = .production →
      lcRefused s sig = if (s.boot.board.trust.getD {}).fieldDebug = false then some 2 else if sig then none else some 3) ∧
    (lcWord s 0 = 3 → lcWord s 1 = w → w ≤ 128 → antiChanges s < 128 →
      lcRefused s sig = if s.boot.fuses.antiRollback < w ∧ w ≤ s.boot.fw.svn then none else some 2) ∧
    (lcWord s 0 = 4 + 256 * site → (∀ i, 1 ≤ i → i ≤ 4 → lcWord s i = 0) →
      lcRefused s sig = if (fuseSite s site).mapWrites < 2 then none else some 1) ∧
    (lcWord s 0 = 5 + 256 * site → lcWord s 1 = w % 16 →
      lcRefused s sig = if (fuseSite s site).profileWrites < 4 then none else some 1)) ∧
  (∀ (ok : Bool) (x : LcChange) (s : State), s.boot.lcChange = some x → s.boot.stopped = false →
    ∃ t e, exec (.fuseProgrammingDone ok) s = .next t ∧ t.boot.lcBusy = false ∧ t.boot.lcDone = true ∧ t.boot.lcChange = none ∧
      t.boot.lcResult = (if ok then 0 else 5) ∧ t.part.generation = (s.part.generation + 1) % 2 ^ 64 ∧
      t.boot.fuses.log = s.boot.fuses.log ++ [e] ∧ e.setting = x.setting ∧ e.site = x.site ∧ e.result = t.boot.lcResult ∧
      e.old = x.old ∧ e.new = nth x.words 1 0 ∧ t.boot.variantNow = s.boot.variantNow ∧ t.boot.lifecycleNow = s.boot.lifecycleNow ∧
      (ok = false → t.boot.fuses = { s.boot.fuses with log := t.boot.fuses.log }) ∧
      (ok = true → (x.setting = 1 → t.boot.fuses.variant = .a) ∧
        (x.setting = 2 → t.boot.fuses.lifecycle = if nth x.words 1 0 = 2 then .fieldDebug else .scrapped) ∧
        (x.setting = 3 → t.boot.fuses.antiRollback = nth x.words 1 0) ∧
        (x.setting = 4 → (fuseSite t x.site).map = some [nth x.words 1 0, nth x.words 2 0, nth x.words 3 0, nth x.words 4 0]) ∧
        (x.setting = 5 → (fuseSite t x.site).profile = some (nth x.words 1 0) ∧ (fuseSite t x.site).dieId = nth x.words 2 0)))

/-- For each of the 276 commands and every state: when exec answers a next state, the queue of waiting commands is the
one before, and every component of the state that the list of the command does not name is unchanged: the time base,
the control processor, partitions, errors, power, management, the start, the fuse array, the flash, the cells, the
memory records, every byte of memory, the larder, the regulators, translation, the attic sites, the links, the Chord
peers, the count of free values and what goes out. So fuses change only by the limited-change rows, the register path,
the end of programming and the resets that log a change cut short; and no command that stores nothing changes a byte.
Rests on 00_scope.md R10, 01_hub_overview.md R21, 16_bringup_reset.md R461, 16_bringup_reset.md R463,
16_bringup_reset.md R444, 16_bringup_reset.md R445, 15_security.md R432. -/
def Obligations.EveryCommandsFrame : Prop :=
  ∀ (i : Instr) (s t : State), exec i s = .next t →
    t.pending = s.pending ∧ ∀ k : Component, k ∉ changes i → unchanged k s t

/-- For every state whose memory lists its cells in strictly rising order of address and none that holds zero: if step
answers a next state, the memory of that state has the same form, whatever command is at the front of the queue.
Rests on 08_address_map_shelves.md R212, 08_address_map_shelves.md R213. -/
def Obligations.MemoryForm : Prop :=
  ∀ s s' : State, Memory.wf s.mem.bytes = true → step s = .next s' → Memory.wf s'.mem.bytes = true

/-- In the state of reset the block waits for its cold reset with an empty queue, no memory byte listed, no partition,
no event queue, no session, no step, and every site, engine and peer as it was never used; the memory has its
canonical form and the time base is legal; masters have no guarantee and weight 16, but for the pager with 2,048 and
scrub with 256, and partition 0 is allotted 259,840 units.
Rests on 16_bringup_reset.md R440, 16_bringup_reset.md R466, 10_bandwidth_regulation.md R285,
03_control_processor_mailboxes.md R64. -/
def Obligations.ResetFacts : Prop :=
  State.reset.pending = [] ∧ Memory.wf State.reset.mem.bytes = true ∧ State.reset.mem.bytes = [] ∧ timeLegal State.reset ∧
    State.reset.boot.coldResetLow = true ∧ State.reset.boot.stage = .rom ∧ State.reset.time.now = 0 ∧
    State.reset.mgmt.session = false ∧ State.reset.larder.steps = [] ∧
    (∀ c, (chanOf State.reset c).state = .free ∧ (chanOf State.reset c).session = false) ∧
    (∀ q, (eqOf State.reset q).state = .none) ∧ (∀ p, (partOf State.reset p).pstate = .none) ∧
    (∀ e, (engineOf State.reset e).estate = .off) ∧ (∀ site, (siteOf State.reset site).astate = .absent) ∧
    (∀ m, (masterOf State.reset m).weight = 16 ∧
      (masterOf State.reset m).guarantee = if m = 87 then 2048 else if m = 88 then 256 else 0) ∧
    (∀ p, allotOf State.reset p = if p = 0 then 259840 else 0) ∧ step State.reset = .next State.reset
end

