-- ==== Sys2Proof/Laws/Data.lean ====
section
/-! SUPPORT. The small laws of the sparse tables and of the saturating counts. -/
namespace Sys2Proof.Machine

/-- What was set is found. -/
@[simp] theorem tfind_tset_self {α : Type} (t : Tab α) (k : Nat) (v : α) : tfind (tset t k v) k = some v := by
  induction t with
  | nil => simp [tset, tfind]
  | cons e r ih =>
    obtain ⟨j, w⟩ := e
    unfold tset
    split
    · simp [tfind]
    · split
      · simp [tfind]
      · rename_i h1 h2
        simp [tfind, Ne.symm h2, ih]

/-- Setting one index leaves every other as it was. -/
@[simp] theorem tfind_tset_other {α : Type} (t : Tab α) (k j : Nat) (v : α) (h : j ≠ k) :
    tfind (tset t k v) j = tfind t j := by
  induction t with
  | nil => simp [tset, tfind, Ne.symm h]
  | cons e r ih =>
    obtain ⟨i, w⟩ := e
    unfold tset
    split
    · simp [tfind, Ne.symm h]
    · split
      · rename_i h1 h2
        subst h2
        simp [tfind, Ne.symm h]
      · simp only [tfind, ih]

@[simp] theorem tget_tset_self {α : Type} (t : Tab α) (k : Nat) (v d : α) : tget (tset t k v) k d = v := by simp [tget]

@[simp] theorem tget_tset_other {α : Type} (t : Tab α) (k j : Nat) (v d : α) (h : j ≠ k) :
    tget (tset t k v) j d = tget t j d := by simp [tget, h]

@[simp] theorem tget_tmod_self {α : Type} (t : Tab α) (k : Nat) (d : α) (f : α → α) :
    tget (tmod t k d f) k d = f (tget t k d) := by simp [tmod]

@[simp] theorem tget_tmod_other {α : Type} (t : Tab α) (k j : Nat) (d : α) (f : α → α) (h : j ≠ k) :
    tget (tmod t k d f) j d = tget t j d := by simp [tmod, h]

@[simp] theorem tfind_tmodIf_self {α : Type} (t : Tab α) (k : Nat) (f : α → α) :
    tfind (tmodIf t k f) k = (tfind t k).map f := by
  unfold tmodIf
  split <;> rename_i h <;> simp [h]

@[simp] theorem tfind_tmodIf_other {α : Type} (t : Tab α) (k j : Nat) (f : α → α) (h : j ≠ k) :
    tfind (tmodIf t k f) j = tfind t j := by
  unfold tmodIf
  split <;> simp [h]

/-- What was removed is gone. -/
@[simp] theorem tfind_tdel_self {α : Type} (t : Tab α) (k : Nat) : tfind (tdel t k) k = none := by
  induction t with
  | nil => rfl
  | cons e r ih =>
    obtain ⟨j, w⟩ := e
    by_cases h : j = k
    · subst h; simpa [tdel] using ih
    · simpa [tdel, tfind, h] using ih

/-- Removing one index leaves every other as it was. -/
@[simp] theorem tfind_tdel_other {α : Type} (t : Tab α) (k j : Nat) (h : j ≠ k) : tfind (tdel t k) j = tfind t j := by
  induction t with
  | nil => rfl
  | cons e r ih =>
    obtain ⟨i, w⟩ := e
    by_cases h1 : i = k
    · subst h1; simpa [tdel, tfind, Ne.symm h] using ih
    · have h2 : tdel ((i, w) :: r) k = (i, w) :: tdel r k := by simp [tdel, h1]
      simp only [h2, tfind]; rw [ih]

/-- Changing every entry changes what is found. -/
@[simp] theorem tfind_tmap {α β : Type} (t : Tab α) (f : Nat → α → β) (k : Nat) :
    tfind (tmap t f) k = (tfind t k).map (f k) := by
  induction t with
  | nil => rfl
  | cons e r ih =>
    obtain ⟨i, w⟩ := e
    have h2 : tmap ((i, w) :: r) f = (i, f i w) :: tmap r f := rfl
    simp only [h2, tfind]
    by_cases h : i = k
    · subst h; simp
    · simp [h, ih]

/-- A table with nothing listed answers the default. -/
@[simp] theorem tget_nil {α : Type} (k : Nat) (d : α) : tget ([] : Tab α) k d = d := rfl

@[simp] theorem tfind_nil {α : Type} (k : Nat) : tfind ([] : Tab α) k = none := rfl

/-- A saturating count never passes the largest value of its width. -/
theorem satInc_le (w a : Nat) : satInc w a ≤ 2 ^ w - 1 := Nat.min_le_right _ _

end Sys2Proof.Machine
end

