-- ==== Sys2Proof/Laws/FrameOps.lean ====
section
/-! SUPPORT. What each operation of Machine/Ops.lean leaves as it was, by component of the state. -/
set_option maxRecDepth 4000
set_option exponentiation.threshold 2000
namespace Sys2Proof.Machine

@[simp] theorem ite_time (p : Prop) [Decidable p] (a b : State) :
    (if p then a else b).time = if p then a.time else b.time := by split <;> rfl

@[simp] theorem ite_cp (p : Prop) [Decidable p] (a b : State) :
    (if p then a else b).cp = if p then a.cp else b.cp := by split <;> rfl

@[simp] theorem ite_part (p : Prop) [Decidable p] (a b : State) :
    (if p then a else b).part = if p then a.part else b.part := by split <;> rfl

@[simp] theorem ite_err (p : Prop) [Decidable p] (a b : State) :
    (if p then a else b).err = if p then a.err else b.err := by split <;> rfl

@[simp] theorem ite_pwr (p : Prop) [Decidable p] (a b : State) :
    (if p then a else b).pwr = if p then a.pwr else b.pwr := by split <;> rfl

@[simp] theorem ite_mgmt (p : Prop) [Decidable p] (a b : State) :
    (if p then a else b).mgmt = if p then a.mgmt else b.mgmt := by split <;> rfl

@[simp] theorem ite_boot (p : Prop) [Decidable p] (a b : State) :
    (if p then a else b).boot = if p then a.boot else b.boot := by split <;> rfl

@[simp] theorem ite_cells (p : Prop) [Decidable p] (a b : State) :
    (if p then a else b).cells = if p then a.cells else b.cells := by split <;> rfl

@[simp] theorem ite_mem (p : Prop) [Decidable p] (a b : State) :
    (if p then a else b).mem = if p then a.mem else b.mem := by split <;> rfl

@[simp] theorem ite_larder (p : Prop) [Decidable p] (a b : State) :
    (if p then a else b).larder = if p then a.larder else b.larder := by split <;> rfl

@[simp] theorem ite_reg (p : Prop) [Decidable p] (a b : State) :
    (if p then a else b).reg = if p then a.reg else b.reg := by split <;> rfl

@[simp] theorem ite_trans (p : Prop) [Decidable p] (a b : State) :
    (if p then a else b).trans = if p then a.trans else b.trans := by split <;> rfl

@[simp] theorem ite_attic (p : Prop) [Decidable p] (a b : State) :
    (if p then a else b).attic = if p then a.attic else b.attic := by split <;> rfl

@[simp] theorem ite_link (p : Prop) [Decidable p] (a b : State) :
    (if p then a else b).link = if p then a.link else b.link := by split <;> rfl

@[simp] theorem ite_chord (p : Prop) [Decidable p] (a b : State) :
    (if p then a else b).chord = if p then a.chord else b.chord := by split <;> rfl

@[simp] theorem ite_fresh (p : Prop) [Decidable p] (a b : State) :
    (if p then a else b).fresh = if p then a.fresh else b.fresh := by split <;> rfl

@[simp] theorem ite_out (p : Prop) [Decidable p] (a b : State) :
    (if p then a else b).out = if p then a.out else b.out := by split <;> rfl

@[simp] theorem ite_pending (p : Prop) [Decidable p] (a b : State) :
    (if p then a else b).pending = if p then a.pending else b.pending := by split <;> rfl

@[simp] theorem ite_fst {α β : Type} (p : Prop) [Decidable p] (a b : α × β) :
    (if p then a else b).1 = if p then a.1 else b.1 := by split <;> rfl

@[simp] theorem ite_snd {α β : Type} (p : Prop) [Decidable p] (a b : α × β) :
    (if p then a else b).2 = if p then a.2 else b.2 := by split <;> rfl

@[simp] theorem forEach_time {α : Type} (l : List α) (s : State) (f : State → α → State)
    (h : ∀ s x, (f s x).time = s.time) : (forEach l s f).time = s.time := by
  unfold forEach
  induction l generalizing s with
  | nil => rfl
  | cons a l ih => simp [ih, h]

@[simp] theorem foldl_time {α : Type} (l : List α) (s : State) (f : State → α → State)
    (h : ∀ s x, (f s x).time = s.time) : (List.foldl f s l).time = s.time := by
  induction l generalizing s with
  | nil => rfl
  | cons a l ih => simp [ih, h]

@[simp] theorem foldlFst_time {α β : Type} (l : List α) (p : State × β) (f : State × β → α → State × β)
    (h : ∀ p x, (f p x).1.time = p.1.time) : (List.foldl f p l).1.time = p.1.time := by
  induction l generalizing p with
  | nil => rfl
  | cons a l ih => simp [ih, h]

@[simp] theorem forEachFst_time {α β : Type} (l : List α) (p : State × β) (f : State × β → α → State × β)
    (h : ∀ p x, (f p x).1.time = p.1.time) : (forEach l p f).1.time = p.1.time := foldlFst_time l p f h

@[simp] theorem forEach_cp {α : Type} (l : List α) (s : State) (f : State → α → State)
    (h : ∀ s x, (f s x).cp = s.cp) : (forEach l s f).cp = s.cp := by
  unfold forEach
  induction l generalizing s with
  | nil => rfl
  | cons a l ih => simp [ih, h]

@[simp] theorem foldl_cp {α : Type} (l : List α) (s : State) (f : State → α → State)
    (h : ∀ s x, (f s x).cp = s.cp) : (List.foldl f s l).cp = s.cp := by
  induction l generalizing s with
  | nil => rfl
  | cons a l ih => simp [ih, h]

@[simp] theorem foldlFst_cp {α β : Type} (l : List α) (p : State × β) (f : State × β → α → State × β)
    (h : ∀ p x, (f p x).1.cp = p.1.cp) : (List.foldl f p l).1.cp = p.1.cp := by
  induction l generalizing p with
  | nil => rfl
  | cons a l ih => simp [ih, h]

@[simp] theorem forEachFst_cp {α β : Type} (l : List α) (p : State × β) (f : State × β → α → State × β)
    (h : ∀ p x, (f p x).1.cp = p.1.cp) : (forEach l p f).1.cp = p.1.cp := foldlFst_cp l p f h

@[simp] theorem forEach_part {α : Type} (l : List α) (s : State) (f : State → α → State)
    (h : ∀ s x, (f s x).part = s.part) : (forEach l s f).part = s.part := by
  unfold forEach
  induction l generalizing s with
  | nil => rfl
  | cons a l ih => simp [ih, h]

@[simp] theorem foldl_part {α : Type} (l : List α) (s : State) (f : State → α → State)
    (h : ∀ s x, (f s x).part = s.part) : (List.foldl f s l).part = s.part := by
  induction l generalizing s with
  | nil => rfl
  | cons a l ih => simp [ih, h]

@[simp] theorem foldlFst_part {α β : Type} (l : List α) (p : State × β) (f : State × β → α → State × β)
    (h : ∀ p x, (f p x).1.part = p.1.part) : (List.foldl f p l).1.part = p.1.part := by
  induction l generalizing p with
  | nil => rfl
  | cons a l ih => simp [ih, h]

@[simp] theorem forEachFst_part {α β : Type} (l : List α) (p : State × β) (f : State × β → α → State × β)
    (h : ∀ p x, (f p x).1.part = p.1.part) : (forEach l p f).1.part = p.1.part := foldlFst_part l p f h

@[simp] theorem forEach_err {α : Type} (l : List α) (s : State) (f : State → α → State)
    (h : ∀ s x, (f s x).err = s.err) : (forEach l s f).err = s.err := by
  unfold forEach
  induction l generalizing s with
  | nil => rfl
  | cons a l ih => simp [ih, h]

@[simp] theorem foldl_err {α : Type} (l : List α) (s : State) (f : State → α → State)
    (h : ∀ s x, (f s x).err = s.err) : (List.foldl f s l).err = s.err := by
  induction l generalizing s with
  | nil => rfl
  | cons a l ih => simp [ih, h]

@[simp] theorem foldlFst_err {α β : Type} (l : List α) (p : State × β) (f : State × β → α → State × β)
    (h : ∀ p x, (f p x).1.err = p.1.err) : (List.foldl f p l).1.err = p.1.err := by
  induction l generalizing p with
  | nil => rfl
  | cons a l ih => simp [ih, h]

@[simp] theorem forEachFst_err {α β : Type} (l : List α) (p : State × β) (f : State × β → α → State × β)
    (h : ∀ p x, (f p x).1.err = p.1.err) : (forEach l p f).1.err = p.1.err := foldlFst_err l p f h

@[simp] theorem forEach_pwr {α : Type} (l : List α) (s : State) (f : State → α → State)
    (h : ∀ s x, (f s x).pwr = s.pwr) : (forEach l s f).pwr = s.pwr := by
  unfold forEach
  induction l generalizing s with
  | nil => rfl
  | cons a l ih => simp [ih, h]

@[simp] theorem foldl_pwr {α : Type} (l : List α) (s : State) (f : State → α → State)
    (h : ∀ s x, (f s x).pwr = s.pwr) : (List.foldl f s l).pwr = s.pwr := by
  induction l generalizing s with
  | nil => rfl
  | cons a l ih => simp [ih, h]

@[simp] theorem foldlFst_pwr {α β : Type} (l : List α) (p : State × β) (f : State × β → α → State × β)
    (h : ∀ p x, (f p x).1.pwr = p.1.pwr) : (List.foldl f p l).1.pwr = p.1.pwr := by
  induction l generalizing p with
  | nil => rfl
  | cons a l ih => simp [ih, h]

@[simp] theorem forEachFst_pwr {α β : Type} (l : List α) (p : State × β) (f : State × β → α → State × β)
    (h : ∀ p x, (f p x).1.pwr = p.1.pwr) : (forEach l p f).1.pwr = p.1.pwr := foldlFst_pwr l p f h

@[simp] theorem forEach_mgmt {α : Type} (l : List α) (s : State) (f : State → α → State)
    (h : ∀ s x, (f s x).mgmt = s.mgmt) : (forEach l s f).mgmt = s.mgmt := by
  unfold forEach
  induction l generalizing s with
  | nil => rfl
  | cons a l ih => simp [ih, h]

@[simp] theorem foldl_mgmt {α : Type} (l : List α) (s : State) (f : State → α → State)
    (h : ∀ s x, (f s x).mgmt = s.mgmt) : (List.foldl f s l).mgmt = s.mgmt := by
  induction l generalizing s with
  | nil => rfl
  | cons a l ih => simp [ih, h]

@[simp] theorem foldlFst_mgmt {α β : Type} (l : List α) (p : State × β) (f : State × β → α → State × β)
    (h : ∀ p x, (f p x).1.mgmt = p.1.mgmt) : (List.foldl f p l).1.mgmt = p.1.mgmt := by
  induction l generalizing p with
  | nil => rfl
  | cons a l ih => simp [ih, h]

@[simp] theorem forEachFst_mgmt {α β : Type} (l : List α) (p : State × β) (f : State × β → α → State × β)
    (h : ∀ p x, (f p x).1.mgmt = p.1.mgmt) : (forEach l p f).1.mgmt = p.1.mgmt := foldlFst_mgmt l p f h

@[simp] theorem forEach_boot {α : Type} (l : List α) (s : State) (f : State → α → State)
    (h : ∀ s x, (f s x).boot = s.boot) : (forEach l s f).boot = s.boot := by
  unfold forEach
  induction l generalizing s with
  | nil => rfl
  | cons a l ih => simp [ih, h]

@[simp] theorem foldl_boot {α : Type} (l : List α) (s : State) (f : State → α → State)
    (h : ∀ s x, (f s x).boot = s.boot) : (List.foldl f s l).boot = s.boot := by
  induction l generalizing s with
  | nil => rfl
  | cons a l ih => simp [ih, h]

@[simp] theorem foldlFst_boot {α β : Type} (l : List α) (p : State × β) (f : State × β → α → State × β)
    (h : ∀ p x, (f p x).1.boot = p.1.boot) : (List.foldl f p l).1.boot = p.1.boot := by
  induction l generalizing p with
  | nil => rfl
  | cons a l ih => simp [ih, h]

@[simp] theorem forEachFst_boot {α β : Type} (l : List α) (p : State × β) (f : State × β → α → State × β)
    (h : ∀ p x, (f p x).1.boot = p.1.boot) : (forEach l p f).1.boot = p.1.boot := foldlFst_boot l p f h

@[simp] theorem forEach_cells {α : Type} (l : List α) (s : State) (f : State → α → State)
    (h : ∀ s x, (f s x).cells = s.cells) : (forEach l s f).cells = s.cells := by
  unfold forEach
  induction l generalizing s with
  | nil => rfl
  | cons a l ih => simp [ih, h]

@[simp] theorem foldl_cells {α : Type} (l : List α) (s : State) (f : State → α → State)
    (h : ∀ s x, (f s x).cells = s.cells) : (List.foldl f s l).cells = s.cells := by
  induction l generalizing s with
  | nil => rfl
  | cons a l ih => simp [ih, h]

@[simp] theorem foldlFst_cells {α β : Type} (l : List α) (p : State × β) (f : State × β → α → State × β)
    (h : ∀ p x, (f p x).1.cells = p.1.cells) : (List.foldl f p l).1.cells = p.1.cells := by
  induction l generalizing p with
  | nil => rfl
  | cons a l ih => simp [ih, h]

@[simp] theorem forEachFst_cells {α β : Type} (l : List α) (p : State × β) (f : State × β → α → State × β)
    (h : ∀ p x, (f p x).1.cells = p.1.cells) : (forEach l p f).1.cells = p.1.cells := foldlFst_cells l p f h

@[simp] theorem forEach_mem {α : Type} (l : List α) (s : State) (f : State → α → State)
    (h : ∀ s x, (f s x).mem = s.mem) : (forEach l s f).mem = s.mem := by
  unfold forEach
  induction l generalizing s with
  | nil => rfl
  | cons a l ih => simp [ih, h]

@[simp] theorem foldl_mem {α : Type} (l : List α) (s : State) (f : State → α → State)
    (h : ∀ s x, (f s x).mem = s.mem) : (List.foldl f s l).mem = s.mem := by
  induction l generalizing s with
  | nil => rfl
  | cons a l ih => simp [ih, h]

@[simp] theorem foldlFst_mem {α β : Type} (l : List α) (p : State × β) (f : State × β → α → State × β)
    (h : ∀ p x, (f p x).1.mem = p.1.mem) : (List.foldl f p l).1.mem = p.1.mem := by
  induction l generalizing p with
  | nil => rfl
  | cons a l ih => simp [ih, h]

@[simp] theorem forEachFst_mem {α β : Type} (l : List α) (p : State × β) (f : State × β → α → State × β)
    (h : ∀ p x, (f p x).1.mem = p.1.mem) : (forEach l p f).1.mem = p.1.mem := foldlFst_mem l p f h

@[simp] theorem forEach_larder {α : Type} (l : List α) (s : State) (f : State → α → State)
    (h : ∀ s x, (f s x).larder = s.larder) : (forEach l s f).larder = s.larder := by
  unfold forEach
  induction l generalizing s with
  | nil => rfl
  | cons a l ih => simp [ih, h]

@[simp] theorem foldl_larder {α : Type} (l : List α) (s : State) (f : State → α → State)
    (h : ∀ s x, (f s x).larder = s.larder) : (List.foldl f s l).larder = s.larder := by
  induction l generalizing s with
  | nil => rfl
  | cons a l ih => simp [ih, h]

@[simp] theorem foldlFst_larder {α β : Type} (l : List α) (p : State × β) (f : State × β → α → State × β)
    (h : ∀ p x, (f p x).1.larder = p.1.larder) : (List.foldl f p l).1.larder = p.1.larder := by
  induction l generalizing p with
  | nil => rfl
  | cons a l ih => simp [ih, h]

@[simp] theorem forEachFst_larder {α β : Type} (l : List α) (p : State × β) (f : State × β → α → State × β)
    (h : ∀ p x, (f p x).1.larder = p.1.larder) : (forEach l p f).1.larder = p.1.larder := foldlFst_larder l p f h

@[simp] theorem forEach_reg {α : Type} (l : List α) (s : State) (f : State → α → State)
    (h : ∀ s x, (f s x).reg = s.reg) : (forEach l s f).reg = s.reg := by
  unfold forEach
  induction l generalizing s with
  | nil => rfl
  | cons a l ih => simp [ih, h]

@[simp] theorem foldl_reg {α : Type} (l : List α) (s : State) (f : State → α → State)
    (h : ∀ s x, (f s x).reg = s.reg) : (List.foldl f s l).reg = s.reg := by
  induction l generalizing s with
  | nil => rfl
  | cons a l ih => simp [ih, h]

@[simp] theorem foldlFst_reg {α β : Type} (l : List α) (p : State × β) (f : State × β → α → State × β)
    (h : ∀ p x, (f p x).1.reg = p.1.reg) : (List.foldl f p l).1.reg = p.1.reg := by
  induction l generalizing p with
  | nil => rfl
  | cons a l ih => simp [ih, h]

@[simp] theorem forEachFst_reg {α β : Type} (l : List α) (p : State × β) (f : State × β → α → State × β)
    (h : ∀ p x, (f p x).1.reg = p.1.reg) : (forEach l p f).1.reg = p.1.reg := foldlFst_reg l p f h

@[simp] theorem forEach_trans {α : Type} (l : List α) (s : State) (f : State → α → State)
    (h : ∀ s x, (f s x).trans = s.trans) : (forEach l s f).trans = s.trans := by
  unfold forEach
  induction l generalizing s with
  | nil => rfl
  | cons a l ih => simp [ih, h]

@[simp] theorem foldl_trans {α : Type} (l : List α) (s : State) (f : State → α → State)
    (h : ∀ s x, (f s x).trans = s.trans) : (List.foldl f s l).trans = s.trans := by
  induction l generalizing s with
  | nil => rfl
  | cons a l ih => simp [ih, h]

@[simp] theorem foldlFst_trans {α β : Type} (l : List α) (p : State × β) (f : State × β → α → State × β)
    (h : ∀ p x, (f p x).1.trans = p.1.trans) : (List.foldl f p l).1.trans = p.1.trans := by
  induction l generalizing p with
  | nil => rfl
  | cons a l ih => simp [ih, h]

@[simp] theorem forEachFst_trans {α β : Type} (l : List α) (p : State × β) (f : State × β → α → State × β)
    (h : ∀ p x, (f p x).1.trans = p.1.trans) : (forEach l p f).1.trans = p.1.trans := foldlFst_trans l p f h

@[simp] theorem forEach_attic {α : Type} (l : List α) (s : State) (f : State → α → State)
    (h : ∀ s x, (f s x).attic = s.attic) : (forEach l s f).attic = s.attic := by
  unfold forEach
  induction l generalizing s with
  | nil => rfl
  | cons a l ih => simp [ih, h]

@[simp] theorem foldl_attic {α : Type} (l : List α) (s : State) (f : State → α → State)
    (h : ∀ s x, (f s x).attic = s.attic) : (List.foldl f s l).attic = s.attic := by
  induction l generalizing s with
  | nil => rfl
  | cons a l ih => simp [ih, h]

@[simp] theorem foldlFst_attic {α β : Type} (l : List α) (p : State × β) (f : State × β → α → State × β)
    (h : ∀ p x, (f p x).1.attic = p.1.attic) : (List.foldl f p l).1.attic = p.1.attic := by
  induction l generalizing p with
  | nil => rfl
  | cons a l ih => simp [ih, h]

@[simp] theorem forEachFst_attic {α β : Type} (l : List α) (p : State × β) (f : State × β → α → State × β)
    (h : ∀ p x, (f p x).1.attic = p.1.attic) : (forEach l p f).1.attic = p.1.attic := foldlFst_attic l p f h

@[simp] theorem forEach_link {α : Type} (l : List α) (s : State) (f : State → α → State)
    (h : ∀ s x, (f s x).link = s.link) : (forEach l s f).link = s.link := by
  unfold forEach
  induction l generalizing s with
  | nil => rfl
  | cons a l ih => simp [ih, h]

@[simp] theorem foldl_link {α : Type} (l : List α) (s : State) (f : State → α → State)
    (h : ∀ s x, (f s x).link = s.link) : (List.foldl f s l).link = s.link := by
  induction l generalizing s with
  | nil => rfl
  | cons a l ih => simp [ih, h]

@[simp] theorem foldlFst_link {α β : Type} (l : List α) (p : State × β) (f : State × β → α → State × β)
    (h : ∀ p x, (f p x).1.link = p.1.link) : (List.foldl f p l).1.link = p.1.link := by
  induction l generalizing p with
  | nil => rfl
  | cons a l ih => simp [ih, h]

@[simp] theorem forEachFst_link {α β : Type} (l : List α) (p : State × β) (f : State × β → α → State × β)
    (h : ∀ p x, (f p x).1.link = p.1.link) : (forEach l p f).1.link = p.1.link := foldlFst_link l p f h

@[simp] theorem forEach_chord {α : Type} (l : List α) (s : State) (f : State → α → State)
    (h : ∀ s x, (f s x).chord = s.chord) : (forEach l s f).chord = s.chord := by
  unfold forEach
  induction l generalizing s with
  | nil => rfl
  | cons a l ih => simp [ih, h]

@[simp] theorem foldl_chord {α : Type} (l : List α) (s : State) (f : State → α → State)
    (h : ∀ s x, (f s x).chord = s.chord) : (List.foldl f s l).chord = s.chord := by
  induction l generalizing s with
  | nil => rfl
  | cons a l ih => simp [ih, h]

@[simp] theorem foldlFst_chord {α β : Type} (l : List α) (p : State × β) (f : State × β → α → State × β)
    (h : ∀ p x, (f p x).1.chord = p.1.chord) : (List.foldl f p l).1.chord = p.1.chord := by
  induction l generalizing p with
  | nil => rfl
  | cons a l ih => simp [ih, h]

@[simp] theorem forEachFst_chord {α β : Type} (l : List α) (p : State × β) (f : State × β → α → State × β)
    (h : ∀ p x, (f p x).1.chord = p.1.chord) : (forEach l p f).1.chord = p.1.chord := foldlFst_chord l p f h

@[simp] theorem forEach_fresh {α : Type} (l : List α) (s : State) (f : State → α → State)
    (h : ∀ s x, (f s x).fresh = s.fresh) : (forEach l s f).fresh = s.fresh := by
  unfold forEach
  induction l generalizing s with
  | nil => rfl
  | cons a l ih => simp [ih, h]

@[simp] theorem foldl_fresh {α : Type} (l : List α) (s : State) (f : State → α → State)
    (h : ∀ s x, (f s x).fresh = s.fresh) : (List.foldl f s l).fresh = s.fresh := by
  induction l generalizing s with
  | nil => rfl
  | cons a l ih => simp [ih, h]

@[simp] theorem foldlFst_fresh {α β : Type} (l : List α) (p : State × β) (f : State × β → α → State × β)
    (h : ∀ p x, (f p x).1.fresh = p.1.fresh) : (List.foldl f p l).1.fresh = p.1.fresh := by
  induction l generalizing p with
  | nil => rfl
  | cons a l ih => simp [ih, h]

@[simp] theorem forEachFst_fresh {α β : Type} (l : List α) (p : State × β) (f : State × β → α → State × β)
    (h : ∀ p x, (f p x).1.fresh = p.1.fresh) : (forEach l p f).1.fresh = p.1.fresh := foldlFst_fresh l p f h

@[simp] theorem forEach_out {α : Type} (l : List α) (s : State) (f : State → α → State)
    (h : ∀ s x, (f s x).out = s.out) : (forEach l s f).out = s.out := by
  unfold forEach
  induction l generalizing s with
  | nil => rfl
  | cons a l ih => simp [ih, h]

@[simp] theorem foldl_out {α : Type} (l : List α) (s : State) (f : State → α → State)
    (h : ∀ s x, (f s x).out = s.out) : (List.foldl f s l).out = s.out := by
  induction l generalizing s with
  | nil => rfl
  | cons a l ih => simp [ih, h]

@[simp] theorem foldlFst_out {α β : Type} (l : List α) (p : State × β) (f : State × β → α → State × β)
    (h : ∀ p x, (f p x).1.out = p.1.out) : (List.foldl f p l).1.out = p.1.out := by
  induction l generalizing p with
  | nil => rfl
  | cons a l ih => simp [ih, h]

@[simp] theorem forEachFst_out {α β : Type} (l : List α) (p : State × β) (f : State × β → α → State × β)
    (h : ∀ p x, (f p x).1.out = p.1.out) : (forEach l p f).1.out = p.1.out := foldlFst_out l p f h

@[simp] theorem forEach_pending {α : Type} (l : List α) (s : State) (f : State → α → State)
    (h : ∀ s x, (f s x).pending = s.pending) : (forEach l s f).pending = s.pending := by
  unfold forEach
  induction l generalizing s with
  | nil => rfl
  | cons a l ih => simp [ih, h]

@[simp] theorem foldl_pending {α : Type} (l : List α) (s : State) (f : State → α → State)
    (h : ∀ s x, (f s x).pending = s.pending) : (List.foldl f s l).pending = s.pending := by
  induction l generalizing s with
  | nil => rfl
  | cons a l ih => simp [ih, h]

@[simp] theorem foldlFst_pending {α β : Type} (l : List α) (p : State × β) (f : State × β → α → State × β)
    (h : ∀ p x, (f p x).1.pending = p.1.pending) : (List.foldl f p l).1.pending = p.1.pending := by
  induction l generalizing p with
  | nil => rfl
  | cons a l ih => simp [ih, h]

@[simp] theorem forEachFst_pending {α β : Type} (l : List α) (p : State × β) (f : State × β → α → State × β)
    (h : ∀ p x, (f p x).1.pending = p.1.pending) : (forEach l p f).1.pending = p.1.pending := foldlFst_pending l p f h


@[simp] theorem modPart_frame (s : State) (p : Nat) (f : Partition → Partition) :
    (modPart s p f).time = s.time ∧ (modPart s p f).cp = s.cp ∧ (modPart s p f).err = s.err ∧
    (modPart s p f).pwr = s.pwr ∧ (modPart s p f).mgmt = s.mgmt ∧ (modPart s p f).boot = s.boot ∧
    (modPart s p f).cells = s.cells ∧ (modPart s p f).mem = s.mem ∧ (modPart s p f).larder = s.larder ∧
    (modPart s p f).reg = s.reg ∧ (modPart s p f).trans = s.trans ∧ (modPart s p f).attic = s.attic ∧
    (modPart s p f).link = s.link ∧ (modPart s p f).chord = s.chord ∧ (modPart s p f).fresh = s.fresh ∧
    (modPart s p f).out = s.out ∧ (modPart s p f).pending = s.pending := by
  unfold modPart
  simp

@[simp] theorem emit_frame (s : State) (o : Out) :
    (emit s o).time = s.time ∧ (emit s o).cp = s.cp ∧ (emit s o).part = s.part ∧ (emit s o).err = s.err ∧
    (emit s o).pwr = s.pwr ∧ (emit s o).mgmt = s.mgmt ∧ (emit s o).boot = s.boot ∧ (emit s o).cells = s.cells ∧
    (emit s o).mem = s.mem ∧ (emit s o).larder = s.larder ∧ (emit s o).reg = s.reg ∧ (emit s o).trans = s.trans ∧
    (emit s o).attic = s.attic ∧ (emit s o).link = s.link ∧ (emit s o).chord = s.chord ∧ (emit s o).fresh = s.fresh ∧
    (emit s o).pending = s.pending := by
  unfold emit
  simp

@[simp] theorem takeFresh_frame (s : State) :
    (takeFresh s).2.time = s.time ∧ (takeFresh s).2.cp = s.cp ∧ (takeFresh s).2.part = s.part ∧
    (takeFresh s).2.err = s.err ∧ (takeFresh s).2.pwr = s.pwr ∧ (takeFresh s).2.mgmt = s.mgmt ∧
    (takeFresh s).2.boot = s.boot ∧ (takeFresh s).2.cells = s.cells ∧ (takeFresh s).2.mem = s.mem ∧
    (takeFresh s).2.larder = s.larder ∧ (takeFresh s).2.reg = s.reg ∧ (takeFresh s).2.trans = s.trans ∧
    (takeFresh s).2.attic = s.attic ∧ (takeFresh s).2.link = s.link ∧ (takeFresh s).2.chord = s.chord ∧
    (takeFresh s).2.out = s.out ∧ (takeFresh s).2.pending = s.pending := by
  unfold takeFresh
  simp

@[simp] theorem drawKey_frame (s : State) (w : Nat) :
    (drawKey s w).2.time = s.time ∧ (drawKey s w).2.cp = s.cp ∧ (drawKey s w).2.part = s.part ∧
    (drawKey s w).2.err = s.err ∧ (drawKey s w).2.pwr = s.pwr ∧ (drawKey s w).2.mgmt = s.mgmt ∧
    (drawKey s w).2.boot = s.boot ∧ (drawKey s w).2.cells = s.cells ∧ (drawKey s w).2.mem = s.mem ∧
    (drawKey s w).2.larder = s.larder ∧ (drawKey s w).2.reg = s.reg ∧ (drawKey s w).2.trans = s.trans ∧
    (drawKey s w).2.attic = s.attic ∧ (drawKey s w).2.link = s.link ∧ (drawKey s w).2.chord = s.chord ∧
    (drawKey s w).2.out = s.out ∧ (drawKey s w).2.pending = s.pending := by
  unfold drawKey
  simp

@[simp] theorem drawMemKeys_frame (s : State) :
    (drawMemKeys s).2.time = s.time ∧ (drawMemKeys s).2.cp = s.cp ∧ (drawMemKeys s).2.part = s.part ∧
    (drawMemKeys s).2.err = s.err ∧ (drawMemKeys s).2.pwr = s.pwr ∧ (drawMemKeys s).2.mgmt = s.mgmt ∧
    (drawMemKeys s).2.boot = s.boot ∧ (drawMemKeys s).2.cells = s.cells ∧ (drawMemKeys s).2.mem = s.mem ∧
    (drawMemKeys s).2.larder = s.larder ∧ (drawMemKeys s).2.reg = s.reg ∧ (drawMemKeys s).2.trans = s.trans ∧
    (drawMemKeys s).2.attic = s.attic ∧ (drawMemKeys s).2.link = s.link ∧ (drawMemKeys s).2.chord = s.chord ∧
    (drawMemKeys s).2.out = s.out ∧ (drawMemKeys s).2.pending = s.pending := by
  unfold drawMemKeys
  simp

@[simp] theorem modKeys_frame (s : State) (f : SeKeys → SeKeys) :
    (modKeys s f).time = s.time ∧ (modKeys s f).cp = s.cp ∧ (modKeys s f).err = s.err ∧ (modKeys s f).pwr = s.pwr ∧
    (modKeys s f).mgmt = s.mgmt ∧ (modKeys s f).boot = s.boot ∧ (modKeys s f).cells = s.cells ∧
    (modKeys s f).mem = s.mem ∧ (modKeys s f).larder = s.larder ∧ (modKeys s f).reg = s.reg ∧
    (modKeys s f).trans = s.trans ∧ (modKeys s f).attic = s.attic ∧ (modKeys s f).link = s.link ∧
    (modKeys s f).chord = s.chord ∧ (modKeys s f).fresh = s.fresh ∧ (modKeys s f).out = s.out ∧
    (modKeys s f).pending = s.pending := by
  unfold modKeys
  simp

@[simp] theorem drawPartKeys_frame (s : State) (p : Nat) :
    (drawPartKeys s p).time = s.time ∧ (drawPartKeys s p).cp = s.cp ∧ (drawPartKeys s p).err = s.err ∧
    (drawPartKeys s p).pwr = s.pwr ∧ (drawPartKeys s p).mgmt = s.mgmt ∧ (drawPartKeys s p).boot = s.boot ∧
    (drawPartKeys s p).cells = s.cells ∧ (drawPartKeys s p).mem = s.mem ∧ (drawPartKeys s p).larder = s.larder ∧
    (drawPartKeys s p).reg = s.reg ∧ (drawPartKeys s p).trans = s.trans ∧ (drawPartKeys s p).attic = s.attic ∧
    (drawPartKeys s p).link = s.link ∧ (drawPartKeys s p).chord = s.chord ∧ (drawPartKeys s p).out = s.out ∧
    (drawPartKeys s p).pending = s.pending := by
  unfold drawPartKeys
  simp

@[simp] theorem erasePartKeys_frame (s : State) (p : Nat) :
    (erasePartKeys s p).time = s.time ∧ (erasePartKeys s p).cp = s.cp ∧ (erasePartKeys s p).err = s.err ∧
    (erasePartKeys s p).pwr = s.pwr ∧ (erasePartKeys s p).mgmt = s.mgmt ∧ (erasePartKeys s p).boot = s.boot ∧
    (erasePartKeys s p).cells = s.cells ∧ (erasePartKeys s p).mem = s.mem ∧ (erasePartKeys s p).larder = s.larder ∧
    (erasePartKeys s p).reg = s.reg ∧ (erasePartKeys s p).trans = s.trans ∧ (erasePartKeys s p).attic = s.attic ∧
    (erasePartKeys s p).link = s.link ∧ (erasePartKeys s p).chord = s.chord ∧ (erasePartKeys s p).fresh = s.fresh ∧
    (erasePartKeys s p).out = s.out ∧ (erasePartKeys s p).pending = s.pending := by
  unfold erasePartKeys
  simp

@[simp] theorem drawDeviceKey_frame (s : State) :
    (drawDeviceKey s).time = s.time ∧ (drawDeviceKey s).cp = s.cp ∧ (drawDeviceKey s).err = s.err ∧
    (drawDeviceKey s).pwr = s.pwr ∧ (drawDeviceKey s).mgmt = s.mgmt ∧ (drawDeviceKey s).boot = s.boot ∧
    (drawDeviceKey s).cells = s.cells ∧ (drawDeviceKey s).mem = s.mem ∧ (drawDeviceKey s).larder = s.larder ∧
    (drawDeviceKey s).reg = s.reg ∧ (drawDeviceKey s).trans = s.trans ∧ (drawDeviceKey s).attic = s.attic ∧
    (drawDeviceKey s).link = s.link ∧ (drawDeviceKey s).chord = s.chord ∧ (drawDeviceKey s).out = s.out ∧
    (drawDeviceKey s).pending = s.pending := by
  unfold drawDeviceKey
  simp

@[simp] theorem drawIdeKeys_frame (s : State) (streams : List Nat) :
    (drawIdeKeys s streams).time = s.time ∧ (drawIdeKeys s streams).cp = s.cp ∧ (drawIdeKeys s streams).err = s.err ∧
    (drawIdeKeys s streams).pwr = s.pwr ∧ (drawIdeKeys s streams).mgmt = s.mgmt ∧
    (drawIdeKeys s streams).boot = s.boot ∧ (drawIdeKeys s streams).cells = s.cells ∧
    (drawIdeKeys s streams).mem = s.mem ∧ (drawIdeKeys s streams).larder = s.larder ∧
    (drawIdeKeys s streams).reg = s.reg ∧ (drawIdeKeys s streams).trans = s.trans ∧
    (drawIdeKeys s streams).attic = s.attic ∧ (drawIdeKeys s streams).link = s.link ∧
    (drawIdeKeys s streams).chord = s.chord ∧ (drawIdeKeys s streams).out = s.out ∧
    (drawIdeKeys s streams).pending = s.pending := by
  unfold drawIdeKeys
  simp

@[simp] theorem drawSessionKey_frame (s : State) (t : Nat) :
    (drawSessionKey s t).time = s.time ∧ (drawSessionKey s t).cp = s.cp ∧ (drawSessionKey s t).err = s.err ∧
    (drawSessionKey s t).pwr = s.pwr ∧ (drawSessionKey s t).mgmt = s.mgmt ∧ (drawSessionKey s t).boot = s.boot ∧
    (drawSessionKey s t).cells = s.cells ∧ (drawSessionKey s t).mem = s.mem ∧ (drawSessionKey s t).larder = s.larder ∧
    (drawSessionKey s t).reg = s.reg ∧ (drawSessionKey s t).trans = s.trans ∧ (drawSessionKey s t).attic = s.attic ∧
    (drawSessionKey s t).link = s.link ∧ (drawSessionKey s t).chord = s.chord ∧ (drawSessionKey s t).out = s.out ∧
    (drawSessionKey s t).pending = s.pending := by
  unfold drawSessionKey
  simp

@[simp] theorem eraseSessionKey_frame (s : State) (t : Nat) :
    (eraseSessionKey s t).time = s.time ∧ (eraseSessionKey s t).cp = s.cp ∧ (eraseSessionKey s t).err = s.err ∧
    (eraseSessionKey s t).pwr = s.pwr ∧ (eraseSessionKey s t).mgmt = s.mgmt ∧ (eraseSessionKey s t).boot = s.boot ∧
    (eraseSessionKey s t).cells = s.cells ∧ (eraseSessionKey s t).mem = s.mem ∧
    (eraseSessionKey s t).larder = s.larder ∧ (eraseSessionKey s t).reg = s.reg ∧
    (eraseSessionKey s t).trans = s.trans ∧ (eraseSessionKey s t).attic = s.attic ∧
    (eraseSessionKey s t).link = s.link ∧ (eraseSessionKey s t).chord = s.chord ∧
    (eraseSessionKey s t).fresh = s.fresh ∧ (eraseSessionKey s t).out = s.out ∧
    (eraseSessionKey s t).pending = s.pending := by
  unfold eraseSessionKey
  simp

@[simp] theorem modEq_frame (s : State) (q : Nat) (f : EventQueue → EventQueue) :
    (modEq s q f).time = s.time ∧ (modEq s q f).part = s.part ∧ (modEq s q f).err = s.err ∧
    (modEq s q f).pwr = s.pwr ∧ (modEq s q f).mgmt = s.mgmt ∧ (modEq s q f).boot = s.boot ∧
    (modEq s q f).cells = s.cells ∧ (modEq s q f).mem = s.mem ∧ (modEq s q f).larder = s.larder ∧
    (modEq s q f).reg = s.reg ∧ (modEq s q f).trans = s.trans ∧ (modEq s q f).attic = s.attic ∧
    (modEq s q f).link = s.link ∧ (modEq s q f).chord = s.chord ∧ (modEq s q f).fresh = s.fresh ∧
    (modEq s q f).out = s.out ∧ (modEq s q f).pending = s.pending := by
  unfold modEq
  simp

@[simp] theorem countUnqueued_frame (s : State) :
    (countUnqueued s).time = s.time ∧ (countUnqueued s).part = s.part ∧ (countUnqueued s).err = s.err ∧
    (countUnqueued s).pwr = s.pwr ∧ (countUnqueued s).mgmt = s.mgmt ∧ (countUnqueued s).boot = s.boot ∧
    (countUnqueued s).cells = s.cells ∧ (countUnqueued s).mem = s.mem ∧ (countUnqueued s).larder = s.larder ∧
    (countUnqueued s).reg = s.reg ∧ (countUnqueued s).trans = s.trans ∧ (countUnqueued s).attic = s.attic ∧
    (countUnqueued s).link = s.link ∧ (countUnqueued s).chord = s.chord ∧ (countUnqueued s).fresh = s.fresh ∧
    (countUnqueued s).out = s.out ∧ (countUnqueued s).pending = s.pending := by
  unfold countUnqueued
  simp

@[simp] theorem deliver_frame (s : State) (q : Nat) (r : Record) :
    (deliver s q r).time = s.time ∧ (deliver s q r).part = s.part ∧ (deliver s q r).err = s.err ∧
    (deliver s q r).pwr = s.pwr ∧ (deliver s q r).mgmt = s.mgmt ∧ (deliver s q r).boot = s.boot ∧
    (deliver s q r).cells = s.cells ∧ (deliver s q r).mem = s.mem ∧ (deliver s q r).larder = s.larder ∧
    (deliver s q r).reg = s.reg ∧ (deliver s q r).trans = s.trans ∧ (deliver s q r).attic = s.attic ∧
    (deliver s q r).link = s.link ∧ (deliver s q r).chord = s.chord ∧ (deliver s q r).fresh = s.fresh ∧
    (deliver s q r).out = s.out ∧ (deliver s q r).pending = s.pending := by
  unfold deliver
  (try dsimp only)
  (repeat' (split <;> try (rename_i hp; first | (obtain ⟨rfl, rfl⟩ := Prod.ext_iff.mp hp) | (obtain ⟨rfl, hq⟩ := Prod.ext_iff.mp hp; obtain ⟨rfl, rfl⟩ := Prod.ext_iff.mp hq) | (obtain ⟨rfl, hq⟩ := Prod.ext_iff.mp hp; obtain ⟨rfl, _⟩ := Prod.ext_iff.mp hq) | (obtain ⟨_, hq⟩ := Prod.ext_iff.mp hp; obtain ⟨rfl, _⟩ := Prod.ext_iff.mp hq) | (obtain ⟨rfl, _⟩ := Prod.ext_iff.mp hp) | (obtain ⟨_, rfl⟩ := Prod.ext_iff.mp hp)))) <;> first | rfl | (simp; done) | (simp_all; done)

@[simp] theorem deliverEvent_frame (s : State) (c : Nat) (r : Record) :
    (deliverEvent s c r).time = s.time ∧ (deliverEvent s c r).part = s.part ∧ (deliverEvent s c r).err = s.err ∧
    (deliverEvent s c r).pwr = s.pwr ∧ (deliverEvent s c r).mgmt = s.mgmt ∧ (deliverEvent s c r).boot = s.boot ∧
    (deliverEvent s c r).cells = s.cells ∧ (deliverEvent s c r).mem = s.mem ∧ (deliverEvent s c r).larder = s.larder ∧
    (deliverEvent s c r).reg = s.reg ∧ (deliverEvent s c r).trans = s.trans ∧ (deliverEvent s c r).attic = s.attic ∧
    (deliverEvent s c r).link = s.link ∧ (deliverEvent s c r).chord = s.chord ∧ (deliverEvent s c r).fresh = s.fresh ∧
    (deliverEvent s c r).out = s.out ∧ (deliverEvent s c r).pending = s.pending := by
  unfold deliverEvent
  (try dsimp only)
  (repeat' (split <;> try (rename_i hp; first | (obtain ⟨rfl, rfl⟩ := Prod.ext_iff.mp hp) | (obtain ⟨rfl, hq⟩ := Prod.ext_iff.mp hp; obtain ⟨rfl, rfl⟩ := Prod.ext_iff.mp hq) | (obtain ⟨rfl, hq⟩ := Prod.ext_iff.mp hp; obtain ⟨rfl, _⟩ := Prod.ext_iff.mp hq) | (obtain ⟨_, hq⟩ := Prod.ext_iff.mp hp; obtain ⟨rfl, _⟩ := Prod.ext_iff.mp hq) | (obtain ⟨rfl, _⟩ := Prod.ext_iff.mp hp) | (obtain ⟨_, rfl⟩ := Prod.ext_iff.mp hp)))) <;> first | rfl | (simp; done) | (simp_all; done)

@[simp] theorem holdPush_frame (s : State) (h : HeldRecord) :
    (holdPush s h).time = s.time ∧ (holdPush s h).cp = s.cp ∧ (holdPush s h).part = s.part ∧
    (holdPush s h).err = s.err ∧ (holdPush s h).pwr = s.pwr ∧ (holdPush s h).boot = s.boot ∧
    (holdPush s h).cells = s.cells ∧ (holdPush s h).mem = s.mem ∧ (holdPush s h).larder = s.larder ∧
    (holdPush s h).reg = s.reg ∧ (holdPush s h).trans = s.trans ∧ (holdPush s h).attic = s.attic ∧
    (holdPush s h).link = s.link ∧ (holdPush s h).chord = s.chord ∧ (holdPush s h).fresh = s.fresh ∧
    (holdPush s h).pending = s.pending := by
  unfold holdPush
  simp

@[simp] theorem holdDrop_frame (s : State) :
    (holdDrop s).time = s.time ∧ (holdDrop s).cp = s.cp ∧ (holdDrop s).part = s.part ∧ (holdDrop s).err = s.err ∧
    (holdDrop s).pwr = s.pwr ∧ (holdDrop s).boot = s.boot ∧ (holdDrop s).cells = s.cells ∧ (holdDrop s).mem = s.mem ∧
    (holdDrop s).larder = s.larder ∧ (holdDrop s).reg = s.reg ∧ (holdDrop s).trans = s.trans ∧
    (holdDrop s).attic = s.attic ∧ (holdDrop s).link = s.link ∧ (holdDrop s).chord = s.chord ∧
    (holdDrop s).fresh = s.fresh ∧ (holdDrop s).out = s.out ∧ (holdDrop s).pending = s.pending := by
  unfold holdDrop
  simp

@[simp] theorem mgmtPush_frame (s : State) (h : HeldRecord) :
    (mgmtPush s h).time = s.time ∧ (mgmtPush s h).cp = s.cp ∧ (mgmtPush s h).part = s.part ∧
    (mgmtPush s h).err = s.err ∧ (mgmtPush s h).pwr = s.pwr ∧ (mgmtPush s h).boot = s.boot ∧
    (mgmtPush s h).cells = s.cells ∧ (mgmtPush s h).mem = s.mem ∧ (mgmtPush s h).larder = s.larder ∧
    (mgmtPush s h).reg = s.reg ∧ (mgmtPush s h).trans = s.trans ∧ (mgmtPush s h).attic = s.attic ∧
    (mgmtPush s h).link = s.link ∧ (mgmtPush s h).chord = s.chord ∧ (mgmtPush s h).fresh = s.fresh ∧
    (mgmtPush s h).pending = s.pending := by
  unfold mgmtPush
  simp

@[simp] theorem mgmtSettle_frame (s : State) :
    (mgmtSettle s).time = s.time ∧ (mgmtSettle s).cp = s.cp ∧ (mgmtSettle s).part = s.part ∧
    (mgmtSettle s).err = s.err ∧ (mgmtSettle s).pwr = s.pwr ∧ (mgmtSettle s).boot = s.boot ∧
    (mgmtSettle s).cells = s.cells ∧ (mgmtSettle s).mem = s.mem ∧ (mgmtSettle s).larder = s.larder ∧
    (mgmtSettle s).reg = s.reg ∧ (mgmtSettle s).trans = s.trans ∧ (mgmtSettle s).attic = s.attic ∧
    (mgmtSettle s).link = s.link ∧ (mgmtSettle s).chord = s.chord ∧ (mgmtSettle s).fresh = s.fresh ∧
    (mgmtSettle s).pending = s.pending := by
  unfold mgmtSettle
  simp

@[simp] theorem raiseTo_frame (s : State) (c : Nat) (e : EventCode) (src : Nat) (detail : Nat → Nat) :
    (raiseTo s c e src detail).time = s.time ∧ (raiseTo s c e src detail).part = s.part ∧
    (raiseTo s c e src detail).err = s.err ∧ (raiseTo s c e src detail).pwr = s.pwr ∧
    (raiseTo s c e src detail).mgmt = s.mgmt ∧ (raiseTo s c e src detail).boot = s.boot ∧
    (raiseTo s c e src detail).cells = s.cells ∧ (raiseTo s c e src detail).mem = s.mem ∧
    (raiseTo s c e src detail).larder = s.larder ∧ (raiseTo s c e src detail).reg = s.reg ∧
    (raiseTo s c e src detail).trans = s.trans ∧ (raiseTo s c e src detail).attic = s.attic ∧
    (raiseTo s c e src detail).link = s.link ∧ (raiseTo s c e src detail).chord = s.chord ∧
    (raiseTo s c e src detail).fresh = s.fresh ∧ (raiseTo s c e src detail).out = s.out ∧
    (raiseTo s c e src detail).pending = s.pending := by
  unfold raiseTo
  simp

@[simp] theorem raiseMgmt_frame (s : State) (c : Nat) (e : EventCode) (src : Nat) (detail : Nat → Nat) :
    (raiseMgmt s c e src detail).time = s.time ∧ (raiseMgmt s c e src detail).cp = s.cp ∧
    (raiseMgmt s c e src detail).part = s.part ∧ (raiseMgmt s c e src detail).err = s.err ∧
    (raiseMgmt s c e src detail).pwr = s.pwr ∧ (raiseMgmt s c e src detail).boot = s.boot ∧
    (raiseMgmt s c e src detail).cells = s.cells ∧ (raiseMgmt s c e src detail).mem = s.mem ∧
    (raiseMgmt s c e src detail).larder = s.larder ∧ (raiseMgmt s c e src detail).reg = s.reg ∧
    (raiseMgmt s c e src detail).trans = s.trans ∧ (raiseMgmt s c e src detail).attic = s.attic ∧
    (raiseMgmt s c e src detail).link = s.link ∧ (raiseMgmt s c e src detail).chord = s.chord ∧
    (raiseMgmt s c e src detail).fresh = s.fresh ∧ (raiseMgmt s c e src detail).pending = s.pending := by
  unfold raiseMgmt
  simp

@[simp] theorem raiseAllCtx_frame (s : State) (e : EventCode) (src : Nat) (detail : Nat → Nat) :
    (raiseAllCtx s e src detail).time = s.time ∧ (raiseAllCtx s e src detail).part = s.part ∧
    (raiseAllCtx s e src detail).err = s.err ∧ (raiseAllCtx s e src detail).pwr = s.pwr ∧
    (raiseAllCtx s e src detail).mgmt = s.mgmt ∧ (raiseAllCtx s e src detail).boot = s.boot ∧
    (raiseAllCtx s e src detail).cells = s.cells ∧ (raiseAllCtx s e src detail).mem = s.mem ∧
    (raiseAllCtx s e src detail).larder = s.larder ∧ (raiseAllCtx s e src detail).reg = s.reg ∧
    (raiseAllCtx s e src detail).trans = s.trans ∧ (raiseAllCtx s e src detail).attic = s.attic ∧
    (raiseAllCtx s e src detail).link = s.link ∧ (raiseAllCtx s e src detail).chord = s.chord ∧
    (raiseAllCtx s e src detail).fresh = s.fresh ∧ (raiseAllCtx s e src detail).out = s.out ∧
    (raiseAllCtx s e src detail).pending = s.pending := by
  unfold raiseAllCtx
  simp

@[simp] theorem logError_frame (s : State) (r : ErrRecord) :
    (logError s r).1.time = s.time ∧ (logError s r).1.part = s.part ∧ (logError s r).1.pwr = s.pwr ∧
    (logError s r).1.boot = s.boot ∧ (logError s r).1.cells = s.cells ∧ (logError s r).1.mem = s.mem ∧
    (logError s r).1.larder = s.larder ∧ (logError s r).1.reg = s.reg ∧ (logError s r).1.trans = s.trans ∧
    (logError s r).1.attic = s.attic ∧ (logError s r).1.link = s.link ∧ (logError s r).1.chord = s.chord ∧
    (logError s r).1.fresh = s.fresh ∧ (logError s r).1.pending = s.pending := by
  unfold logError
  (try dsimp only)
  (repeat' (split <;> try (rename_i hp; first | (obtain ⟨rfl, rfl⟩ := Prod.ext_iff.mp hp) | (obtain ⟨rfl, hq⟩ := Prod.ext_iff.mp hp; obtain ⟨rfl, rfl⟩ := Prod.ext_iff.mp hq) | (obtain ⟨rfl, hq⟩ := Prod.ext_iff.mp hp; obtain ⟨rfl, _⟩ := Prod.ext_iff.mp hq) | (obtain ⟨_, hq⟩ := Prod.ext_iff.mp hp; obtain ⟨rfl, _⟩ := Prod.ext_iff.mp hq) | (obtain ⟨rfl, _⟩ := Prod.ext_iff.mp hp) | (obtain ⟨_, rfl⟩ := Prod.ext_iff.mp hp)))) <;> first | rfl | (simp; done) | (simp_all; done)

@[simp] theorem logErr_frame (s : State) (r : ErrRecord) :
    (logErr s r).time = s.time ∧ (logErr s r).part = s.part ∧ (logErr s r).pwr = s.pwr ∧ (logErr s r).boot = s.boot ∧
    (logErr s r).cells = s.cells ∧ (logErr s r).mem = s.mem ∧ (logErr s r).larder = s.larder ∧
    (logErr s r).reg = s.reg ∧ (logErr s r).trans = s.trans ∧ (logErr s r).attic = s.attic ∧
    (logErr s r).link = s.link ∧ (logErr s r).chord = s.chord ∧ (logErr s r).fresh = s.fresh ∧
    (logErr s r).pending = s.pending := by
  unfold logErr
  simp

@[simp] theorem bumpGeneration_frame (s : State) :
    (bumpGeneration s).time = s.time ∧ (bumpGeneration s).cp = s.cp ∧ (bumpGeneration s).err = s.err ∧
    (bumpGeneration s).pwr = s.pwr ∧ (bumpGeneration s).mgmt = s.mgmt ∧ (bumpGeneration s).boot = s.boot ∧
    (bumpGeneration s).cells = s.cells ∧ (bumpGeneration s).mem = s.mem ∧ (bumpGeneration s).larder = s.larder ∧
    (bumpGeneration s).reg = s.reg ∧ (bumpGeneration s).trans = s.trans ∧ (bumpGeneration s).attic = s.attic ∧
    (bumpGeneration s).link = s.link ∧ (bumpGeneration s).chord = s.chord ∧ (bumpGeneration s).fresh = s.fresh ∧
    (bumpGeneration s).out = s.out ∧ (bumpGeneration s).pending = s.pending := by
  unfold bumpGeneration
  simp

@[simp] theorem bumpConfig_frame (s : State) :
    (bumpConfig s).time = s.time ∧ (bumpConfig s).cp = s.cp ∧ (bumpConfig s).err = s.err ∧
    (bumpConfig s).pwr = s.pwr ∧ (bumpConfig s).mgmt = s.mgmt ∧ (bumpConfig s).boot = s.boot ∧
    (bumpConfig s).cells = s.cells ∧ (bumpConfig s).mem = s.mem ∧ (bumpConfig s).larder = s.larder ∧
    (bumpConfig s).reg = s.reg ∧ (bumpConfig s).trans = s.trans ∧ (bumpConfig s).attic = s.attic ∧
    (bumpConfig s).link = s.link ∧ (bumpConfig s).chord = s.chord ∧ (bumpConfig s).fresh = s.fresh ∧
    (bumpConfig s).out = s.out ∧ (bumpConfig s).pending = s.pending := by
  unfold bumpConfig
  simp

@[simp] theorem modChan_frame (s : State) (c : Nat) (f : Mailbox → Mailbox) :
    (modChan s c f).time = s.time ∧ (modChan s c f).part = s.part ∧ (modChan s c f).err = s.err ∧
    (modChan s c f).pwr = s.pwr ∧ (modChan s c f).mgmt = s.mgmt ∧ (modChan s c f).boot = s.boot ∧
    (modChan s c f).cells = s.cells ∧ (modChan s c f).mem = s.mem ∧ (modChan s c f).larder = s.larder ∧
    (modChan s c f).reg = s.reg ∧ (modChan s c f).trans = s.trans ∧ (modChan s c f).attic = s.attic ∧
    (modChan s c f).link = s.link ∧ (modChan s c f).chord = s.chord ∧ (modChan s c f).fresh = s.fresh ∧
    (modChan s c f).out = s.out ∧ (modChan s c f).pending = s.pending := by
  unfold modChan
  simp

@[simp] theorem commit_frame (s : State) :
    (commit s).1.time = s.time ∧ (commit s).1.part = s.part ∧ (commit s).1.err = s.err ∧ (commit s).1.pwr = s.pwr ∧
    (commit s).1.mgmt = s.mgmt ∧ (commit s).1.boot = s.boot ∧ (commit s).1.cells = s.cells ∧
    (commit s).1.mem = s.mem ∧ (commit s).1.larder = s.larder ∧ (commit s).1.reg = s.reg ∧
    (commit s).1.trans = s.trans ∧ (commit s).1.attic = s.attic ∧ (commit s).1.link = s.link ∧
    (commit s).1.chord = s.chord ∧ (commit s).1.fresh = s.fresh ∧ (commit s).1.out = s.out ∧
    (commit s).1.pending = s.pending := by
  unfold commit
  simp

@[simp] theorem finishCmd_frame (s : State) (c : Nat) (code : Status) (seq result : Nat) (resp : Bytes) :
    (finishCmd s c code seq result resp).time = s.time ∧ (finishCmd s c code seq result resp).part = s.part ∧
    (finishCmd s c code seq result resp).err = s.err ∧ (finishCmd s c code seq result resp).pwr = s.pwr ∧
    (finishCmd s c code seq result resp).mgmt = s.mgmt ∧ (finishCmd s c code seq result resp).boot = s.boot ∧
    (finishCmd s c code seq result resp).cells = s.cells ∧ (finishCmd s c code seq result resp).mem = s.mem ∧
    (finishCmd s c code seq result resp).larder = s.larder ∧ (finishCmd s c code seq result resp).reg = s.reg ∧
    (finishCmd s c code seq result resp).trans = s.trans ∧ (finishCmd s c code seq result resp).attic = s.attic ∧
    (finishCmd s c code seq result resp).link = s.link ∧ (finishCmd s c code seq result resp).chord = s.chord ∧
    (finishCmd s c code seq result resp).fresh = s.fresh ∧
    (finishCmd s c code seq result resp).pending = s.pending := by
  unfold finishCmd
  simp

@[simp] theorem complete_frame (s : State) (c : Nat) (code : Status) (seq result : Nat) (resp : Bytes) :
    (complete s c code seq result resp).time = s.time ∧ (complete s c code seq result resp).part = s.part ∧
    (complete s c code seq result resp).err = s.err ∧ (complete s c code seq result resp).pwr = s.pwr ∧
    (complete s c code seq result resp).mgmt = s.mgmt ∧ (complete s c code seq result resp).boot = s.boot ∧
    (complete s c code seq result resp).cells = s.cells ∧ (complete s c code seq result resp).mem = s.mem ∧
    (complete s c code seq result resp).larder = s.larder ∧ (complete s c code seq result resp).reg = s.reg ∧
    (complete s c code seq result resp).trans = s.trans ∧ (complete s c code seq result resp).attic = s.attic ∧
    (complete s c code seq result resp).link = s.link ∧ (complete s c code seq result resp).chord = s.chord ∧
    (complete s c code seq result resp).fresh = s.fresh ∧
    (complete s c code seq result resp).pending = s.pending := by
  unfold complete
  simp

@[simp] theorem cutCmd_frame (s : State) (c : Nat) (code : Status) :
    (cutCmd s c code).time = s.time ∧ (cutCmd s c code).part = s.part ∧ (cutCmd s c code).err = s.err ∧
    (cutCmd s c code).pwr = s.pwr ∧ (cutCmd s c code).mgmt = s.mgmt ∧ (cutCmd s c code).boot = s.boot ∧
    (cutCmd s c code).cells = s.cells ∧ (cutCmd s c code).mem = s.mem ∧ (cutCmd s c code).larder = s.larder ∧
    (cutCmd s c code).reg = s.reg ∧ (cutCmd s c code).trans = s.trans ∧ (cutCmd s c code).attic = s.attic ∧
    (cutCmd s c code).link = s.link ∧ (cutCmd s c code).chord = s.chord ∧ (cutCmd s c code).fresh = s.fresh ∧
    (cutCmd s c code).pending = s.pending := by
  unfold cutCmd
  (try dsimp only)
  (repeat' (split <;> try (rename_i hp; first | (obtain ⟨rfl, rfl⟩ := Prod.ext_iff.mp hp) | (obtain ⟨rfl, hq⟩ := Prod.ext_iff.mp hp; obtain ⟨rfl, rfl⟩ := Prod.ext_iff.mp hq) | (obtain ⟨rfl, hq⟩ := Prod.ext_iff.mp hp; obtain ⟨rfl, _⟩ := Prod.ext_iff.mp hq) | (obtain ⟨_, hq⟩ := Prod.ext_iff.mp hp; obtain ⟨rfl, _⟩ := Prod.ext_iff.mp hq) | (obtain ⟨rfl, _⟩ := Prod.ext_iff.mp hp) | (obtain ⟨_, rfl⟩ := Prod.ext_iff.mp hp)))) <;> first | rfl | (simp; done) | (simp_all; done)

@[simp] theorem failCmd_frame (s : State) (c : Nat) (code : Status) (result : Nat) :
    (failCmd s c code result).time = s.time ∧ (failCmd s c code result).part = s.part ∧
    (failCmd s c code result).err = s.err ∧ (failCmd s c code result).pwr = s.pwr ∧
    (failCmd s c code result).mgmt = s.mgmt ∧ (failCmd s c code result).boot = s.boot ∧
    (failCmd s c code result).cells = s.cells ∧ (failCmd s c code result).mem = s.mem ∧
    (failCmd s c code result).larder = s.larder ∧ (failCmd s c code result).reg = s.reg ∧
    (failCmd s c code result).trans = s.trans ∧ (failCmd s c code result).attic = s.attic ∧
    (failCmd s c code result).link = s.link ∧ (failCmd s c code result).chord = s.chord ∧
    (failCmd s c code result).fresh = s.fresh ∧ (failCmd s c code result).pending = s.pending := by
  unfold failCmd
  simp

@[simp] theorem runCmd_time (s : State) (c op : Nat) (body : State → Taken → State)
    (h : ∀ s t, (body s t).time = s.time) : (runCmd s c op body).time = s.time := by
  unfold runCmd
  (repeat' split) <;> simp [h]

@[simp] theorem runCmd_part (s : State) (c op : Nat) (body : State → Taken → State)
    (h : ∀ s t, (body s t).part = s.part) : (runCmd s c op body).part = s.part := by
  unfold runCmd
  (repeat' split) <;> simp [h]

@[simp] theorem runCmd_err (s : State) (c op : Nat) (body : State → Taken → State)
    (h : ∀ s t, (body s t).err = s.err) : (runCmd s c op body).err = s.err := by
  unfold runCmd
  (repeat' split) <;> simp [h]

@[simp] theorem runCmd_pwr (s : State) (c op : Nat) (body : State → Taken → State)
    (h : ∀ s t, (body s t).pwr = s.pwr) : (runCmd s c op body).pwr = s.pwr := by
  unfold runCmd
  (repeat' split) <;> simp [h]

@[simp] theorem runCmd_mgmt (s : State) (c op : Nat) (body : State → Taken → State)
    (h : ∀ s t, (body s t).mgmt = s.mgmt) : (runCmd s c op body).mgmt = s.mgmt := by
  unfold runCmd
  (repeat' split) <;> simp [h]

@[simp] theorem runCmd_boot (s : State) (c op : Nat) (body : State → Taken → State)
    (h : ∀ s t, (body s t).boot = s.boot) : (runCmd s c op body).boot = s.boot := by
  unfold runCmd
  (repeat' split) <;> simp [h]

@[simp] theorem runCmd_cells (s : State) (c op : Nat) (body : State → Taken → State)
    (h : ∀ s t, (body s t).cells = s.cells) : (runCmd s c op body).cells = s.cells := by
  unfold runCmd
  (repeat' split) <;> simp [h]

@[simp] theorem runCmd_mem (s : State) (c op : Nat) (body : State → Taken → State)
    (h : ∀ s t, (body s t).mem = s.mem) : (runCmd s c op body).mem = s.mem := by
  unfold runCmd
  (repeat' split) <;> simp [h]

@[simp] theorem runCmd_larder (s : State) (c op : Nat) (body : State → Taken → State)
    (h : ∀ s t, (body s t).larder = s.larder) : (runCmd s c op body).larder = s.larder := by
  unfold runCmd
  (repeat' split) <;> simp [h]

@[simp] theorem runCmd_reg (s : State) (c op : Nat) (body : State → Taken → State)
    (h : ∀ s t, (body s t).reg = s.reg) : (runCmd s c op body).reg = s.reg := by
  unfold runCmd
  (repeat' split) <;> simp [h]

@[simp] theorem runCmd_trans (s : State) (c op : Nat) (body : State → Taken → State)
    (h : ∀ s t, (body s t).trans = s.trans) : (runCmd s c op body).trans = s.trans := by
  unfold runCmd
  (repeat' split) <;> simp [h]

@[simp] theorem runCmd_attic (s : State) (c op : Nat) (body : State → Taken → State)
    (h : ∀ s t, (body s t).attic = s.attic) : (runCmd s c op body).attic = s.attic := by
  unfold runCmd
  (repeat' split) <;> simp [h]

@[simp] theorem runCmd_link (s : State) (c op : Nat) (body : State → Taken → State)
    (h : ∀ s t, (body s t).link = s.link) : (runCmd s c op body).link = s.link := by
  unfold runCmd
  (repeat' split) <;> simp [h]

@[simp] theorem runCmd_chord (s : State) (c op : Nat) (body : State → Taken → State)
    (h : ∀ s t, (body s t).chord = s.chord) : (runCmd s c op body).chord = s.chord := by
  unfold runCmd
  (repeat' split) <;> simp [h]

@[simp] theorem runCmd_fresh (s : State) (c op : Nat) (body : State → Taken → State)
    (h : ∀ s t, (body s t).fresh = s.fresh) : (runCmd s c op body).fresh = s.fresh := by
  unfold runCmd
  (repeat' split) <;> simp [h]

@[simp] theorem runCmd_pending (s : State) (c op : Nat) (body : State → Taken → State)
    (h : ∀ s t, (body s t).pending = s.pending) : (runCmd s c op body).pending = s.pending := by
  unfold runCmd
  (repeat' split) <;> simp [h]

@[simp] theorem finishSync_time (s : State) (c : Nat) (bad : Option Status) (eff : State → State) (result : State → Nat)
    (h : ∀ s, (eff s).time = s.time) : (finishSync s c bad eff result).time = s.time := by
  unfold finishSync
  dsimp only
  split <;> simp [h]

@[simp] theorem finishSync_part (s : State) (c : Nat) (bad : Option Status) (eff : State → State) (result : State → Nat)
    (h : ∀ s, (eff s).part = s.part) : (finishSync s c bad eff result).part = s.part := by
  unfold finishSync
  dsimp only
  split <;> simp [h]

@[simp] theorem finishSync_err (s : State) (c : Nat) (bad : Option Status) (eff : State → State) (result : State → Nat)
    (h : ∀ s, (eff s).err = s.err) : (finishSync s c bad eff result).err = s.err := by
  unfold finishSync
  dsimp only
  split <;> simp [h]

@[simp] theorem finishSync_pwr (s : State) (c : Nat) (bad : Option Status) (eff : State → State) (result : State → Nat)
    (h : ∀ s, (eff s).pwr = s.pwr) : (finishSync s c bad eff result).pwr = s.pwr := by
  unfold finishSync
  dsimp only
  split <;> simp [h]

@[simp] theorem finishSync_mgmt (s : State) (c : Nat) (bad : Option Status) (eff : State → State) (result : State → Nat)
    (h : ∀ s, (eff s).mgmt = s.mgmt) : (finishSync s c bad eff result).mgmt = s.mgmt := by
  unfold finishSync
  dsimp only
  split <;> simp [h]

@[simp] theorem finishSync_boot (s : State) (c : Nat) (bad : Option Status) (eff : State → State) (result : State → Nat)
    (h : ∀ s, (eff s).boot = s.boot) : (finishSync s c bad eff result).boot = s.boot := by
  unfold finishSync
  dsimp only
  split <;> simp [h]

@[simp] theorem finishSync_cells (s : State) (c : Nat) (bad : Option Status) (eff : State → State) (result : State → Nat)
    (h : ∀ s, (eff s).cells = s.cells) : (finishSync s c bad eff result).cells = s.cells := by
  unfold finishSync
  dsimp only
  split <;> simp [h]

@[simp] theorem finishSync_mem (s : State) (c : Nat) (bad : Option Status) (eff : State → State) (result : State → Nat)
    (h : ∀ s, (eff s).mem = s.mem) : (finishSync s c bad eff result).mem = s.mem := by
  unfold finishSync
  dsimp only
  split <;> simp [h]

@[simp] theorem finishSync_larder (s : State) (c : Nat) (bad : Option Status) (eff : State → State) (result : State → Nat)
    (h : ∀ s, (eff s).larder = s.larder) : (finishSync s c bad eff result).larder = s.larder := by
  unfold finishSync
  dsimp only
  split <;> simp [h]

@[simp] theorem finishSync_reg (s : State) (c : Nat) (bad : Option Status) (eff : State → State) (result : State → Nat)
    (h : ∀ s, (eff s).reg = s.reg) : (finishSync s c bad eff result).reg = s.reg := by
  unfold finishSync
  dsimp only
  split <;> simp [h]

@[simp] theorem finishSync_trans (s : State) (c : Nat) (bad : Option Status) (eff : State → State) (result : State → Nat)
    (h : ∀ s, (eff s).trans = s.trans) : (finishSync s c bad eff result).trans = s.trans := by
  unfold finishSync
  dsimp only
  split <;> simp [h]

@[simp] theorem finishSync_attic (s : State) (c : Nat) (bad : Option Status) (eff : State → State) (result : State → Nat)
    (h : ∀ s, (eff s).attic = s.attic) : (finishSync s c bad eff result).attic = s.attic := by
  unfold finishSync
  dsimp only
  split <;> simp [h]

@[simp] theorem finishSync_link (s : State) (c : Nat) (bad : Option Status) (eff : State → State) (result : State → Nat)
    (h : ∀ s, (eff s).link = s.link) : (finishSync s c bad eff result).link = s.link := by
  unfold finishSync
  dsimp only
  split <;> simp [h]

@[simp] theorem finishSync_chord (s : State) (c : Nat) (bad : Option Status) (eff : State → State) (result : State → Nat)
    (h : ∀ s, (eff s).chord = s.chord) : (finishSync s c bad eff result).chord = s.chord := by
  unfold finishSync
  dsimp only
  split <;> simp [h]

@[simp] theorem finishSync_fresh (s : State) (c : Nat) (bad : Option Status) (eff : State → State) (result : State → Nat)
    (h : ∀ s, (eff s).fresh = s.fresh) : (finishSync s c bad eff result).fresh = s.fresh := by
  unfold finishSync
  dsimp only
  split <;> simp [h]

@[simp] theorem finishSync_pending (s : State) (c : Nat) (bad : Option Status) (eff : State → State) (result : State → Nat)
    (h : ∀ s, (eff s).pending = s.pending) : (finishSync s c bad eff result).pending = s.pending := by
  unfold finishSync
  dsimp only
  split <;> simp [h]

@[simp] theorem finishQuery_frame (s : State) (c : Nat) (result : Nat) (resp : Bytes) :
    (finishQuery s c result resp).time = s.time ∧ (finishQuery s c result resp).part = s.part ∧
    (finishQuery s c result resp).err = s.err ∧ (finishQuery s c result resp).pwr = s.pwr ∧
    (finishQuery s c result resp).mgmt = s.mgmt ∧ (finishQuery s c result resp).boot = s.boot ∧
    (finishQuery s c result resp).cells = s.cells ∧ (finishQuery s c result resp).mem = s.mem ∧
    (finishQuery s c result resp).larder = s.larder ∧ (finishQuery s c result resp).reg = s.reg ∧
    (finishQuery s c result resp).trans = s.trans ∧ (finishQuery s c result resp).attic = s.attic ∧
    (finishQuery s c result resp).link = s.link ∧ (finishQuery s c result resp).chord = s.chord ∧
    (finishQuery s c result resp).fresh = s.fresh ∧ (finishQuery s c result resp).pending = s.pending := by
  unfold finishQuery
  simp

@[simp] theorem accept_frame (s : State) (c : Nat) (t : Taken) (obj : Nat) (arg : Nat) (resp : Bytes) :
    (accept s c t obj arg resp).1.time = s.time ∧ (accept s c t obj arg resp).1.part = s.part ∧
    (accept s c t obj arg resp).1.err = s.err ∧ (accept s c t obj arg resp).1.pwr = s.pwr ∧
    (accept s c t obj arg resp).1.mgmt = s.mgmt ∧ (accept s c t obj arg resp).1.boot = s.boot ∧
    (accept s c t obj arg resp).1.cells = s.cells ∧ (accept s c t obj arg resp).1.mem = s.mem ∧
    (accept s c t obj arg resp).1.larder = s.larder ∧ (accept s c t obj arg resp).1.reg = s.reg ∧
    (accept s c t obj arg resp).1.trans = s.trans ∧ (accept s c t obj arg resp).1.attic = s.attic ∧
    (accept s c t obj arg resp).1.link = s.link ∧ (accept s c t obj arg resp).1.chord = s.chord ∧
    (accept s c t obj arg resp).1.fresh = s.fresh ∧ (accept s c t obj arg resp).1.pending = s.pending := by
  unfold accept
  simp

@[simp] theorem flushFinals_frame (l : List Async) (c : Nat) (s : State) :
    (flushFinals l c s).2.time = s.time ∧ (flushFinals l c s).2.part = s.part ∧ (flushFinals l c s).2.err = s.err ∧
    (flushFinals l c s).2.pwr = s.pwr ∧ (flushFinals l c s).2.boot = s.boot ∧ (flushFinals l c s).2.cells = s.cells ∧
    (flushFinals l c s).2.mem = s.mem ∧ (flushFinals l c s).2.larder = s.larder ∧ (flushFinals l c s).2.reg = s.reg ∧
    (flushFinals l c s).2.trans = s.trans ∧ (flushFinals l c s).2.attic = s.attic ∧
    (flushFinals l c s).2.link = s.link ∧ (flushFinals l c s).2.chord = s.chord ∧
    (flushFinals l c s).2.fresh = s.fresh ∧ (flushFinals l c s).2.pending = s.pending := by
  induction l generalizing s with
  | nil => simp [flushFinals]
  | cons a r ih =>
    unfold flushFinals
    split
    · exact ih s
    · split
      · simp
      · dsimp only
        simp only [ih]
        (repeat' split) <;> simp

@[simp] theorem finalize_frame (s : State) (n : Nat) (code : Status) (result : Nat) :
    (finalize s n code result).time = s.time ∧ (finalize s n code result).part = s.part ∧
    (finalize s n code result).err = s.err ∧ (finalize s n code result).pwr = s.pwr ∧
    (finalize s n code result).boot = s.boot ∧ (finalize s n code result).cells = s.cells ∧
    (finalize s n code result).mem = s.mem ∧ (finalize s n code result).larder = s.larder ∧
    (finalize s n code result).reg = s.reg ∧ (finalize s n code result).trans = s.trans ∧
    (finalize s n code result).attic = s.attic ∧ (finalize s n code result).link = s.link ∧
    (finalize s n code result).chord = s.chord ∧ (finalize s n code result).fresh = s.fresh ∧
    (finalize s n code result).pending = s.pending := by
  unfold finalize
  (try dsimp only)
  (repeat' (split <;> try (rename_i hp; first | (obtain ⟨rfl, rfl⟩ := Prod.ext_iff.mp hp) | (obtain ⟨rfl, hq⟩ := Prod.ext_iff.mp hp; obtain ⟨rfl, rfl⟩ := Prod.ext_iff.mp hq) | (obtain ⟨rfl, hq⟩ := Prod.ext_iff.mp hp; obtain ⟨rfl, _⟩ := Prod.ext_iff.mp hq) | (obtain ⟨_, hq⟩ := Prod.ext_iff.mp hp; obtain ⟨rfl, _⟩ := Prod.ext_iff.mp hq) | (obtain ⟨rfl, _⟩ := Prod.ext_iff.mp hp) | (obtain ⟨_, rfl⟩ := Prod.ext_iff.mp hp)))) <;> first | rfl | (simp; done) | (simp_all; done)

@[simp] theorem tlpPoison_frame (s : State) (bad : Bool) :
    (tlpPoison s bad).time = s.time ∧ (tlpPoison s bad).cp = s.cp ∧ (tlpPoison s bad).part = s.part ∧
    (tlpPoison s bad).err = s.err ∧ (tlpPoison s bad).pwr = s.pwr ∧ (tlpPoison s bad).mgmt = s.mgmt ∧
    (tlpPoison s bad).cells = s.cells ∧ (tlpPoison s bad).mem = s.mem ∧ (tlpPoison s bad).larder = s.larder ∧
    (tlpPoison s bad).reg = s.reg ∧ (tlpPoison s bad).trans = s.trans ∧ (tlpPoison s bad).attic = s.attic ∧
    (tlpPoison s bad).link = s.link ∧ (tlpPoison s bad).chord = s.chord ∧ (tlpPoison s bad).fresh = s.fresh ∧
    (tlpPoison s bad).out = s.out ∧ (tlpPoison s bad).pending = s.pending := by
  unfold tlpPoison
  simp

@[simp] theorem modDomain_frame (s : State) (d : Nat) (f : Domain → Domain) :
    (modDomain s d f).time = s.time ∧ (modDomain s d f).cp = s.cp ∧ (modDomain s d f).part = s.part ∧
    (modDomain s d f).err = s.err ∧ (modDomain s d f).mgmt = s.mgmt ∧ (modDomain s d f).boot = s.boot ∧
    (modDomain s d f).cells = s.cells ∧ (modDomain s d f).mem = s.mem ∧ (modDomain s d f).larder = s.larder ∧
    (modDomain s d f).reg = s.reg ∧ (modDomain s d f).trans = s.trans ∧ (modDomain s d f).attic = s.attic ∧
    (modDomain s d f).link = s.link ∧ (modDomain s d f).chord = s.chord ∧ (modDomain s d f).fresh = s.fresh ∧
    (modDomain s d f).out = s.out ∧ (modDomain s d f).pending = s.pending := by
  unfold modDomain
  simp

@[simp] theorem wakeCp_frame (s : State) (src : Nat) :
    (wakeCp s src).time = s.time ∧ (wakeCp s src).cp = s.cp ∧ (wakeCp s src).part = s.part ∧
    (wakeCp s src).err = s.err ∧ (wakeCp s src).mgmt = s.mgmt ∧ (wakeCp s src).boot = s.boot ∧
    (wakeCp s src).cells = s.cells ∧ (wakeCp s src).mem = s.mem ∧ (wakeCp s src).larder = s.larder ∧
    (wakeCp s src).reg = s.reg ∧ (wakeCp s src).trans = s.trans ∧ (wakeCp s src).attic = s.attic ∧
    (wakeCp s src).link = s.link ∧ (wakeCp s src).chord = s.chord ∧ (wakeCp s src).fresh = s.fresh ∧
    (wakeCp s src).out = s.out ∧ (wakeCp s src).pending = s.pending := by
  unfold wakeCp
  simp

end Sys2Proof.Machine
end

