-- ==== Sys2Proof/Laws/FrameCp.lean ====
section
/-! SUPPORT. What each operation of Machine/Cp.lean leaves as it was, by component of the state. -/
set_option maxRecDepth 4000
set_option exponentiation.threshold 2000
namespace Sys2Proof.Machine

@[simp] theorem logFetch_frame (s : State) (c : Nat) (addr : Nat) (f : Fetch) :
    (logFetch s c addr f).time = s.time ∧ (logFetch s c addr f).part = s.part ∧ (logFetch s c addr f).pwr = s.pwr ∧
    (logFetch s c addr f).cells = s.cells ∧ (logFetch s c addr f).mem = s.mem ∧
    (logFetch s c addr f).larder = s.larder ∧ (logFetch s c addr f).reg = s.reg ∧
    (logFetch s c addr f).trans = s.trans ∧ (logFetch s c addr f).attic = s.attic ∧
    (logFetch s c addr f).link = s.link ∧ (logFetch s c addr f).chord = s.chord ∧
    (logFetch s c addr f).fresh = s.fresh ∧ (logFetch s c addr f).pending = s.pending := by
  unfold logFetch
  simp

@[simp] theorem takeHost_frame (s : State) (c : Nat) (inp : TakeInput) :
    (takeHost s c inp).time = s.time ∧ (takeHost s c inp).pwr = s.pwr ∧ (takeHost s c inp).cells = s.cells ∧
    (takeHost s c inp).mem = s.mem ∧ (takeHost s c inp).larder = s.larder ∧ (takeHost s c inp).reg = s.reg ∧
    (takeHost s c inp).trans = s.trans ∧ (takeHost s c inp).attic = s.attic ∧ (takeHost s c inp).link = s.link ∧
    (takeHost s c inp).chord = s.chord ∧ (takeHost s c inp).fresh = s.fresh ∧
    (takeHost s c inp).pending = s.pending := by
  unfold takeHost
  (try dsimp only)
  (repeat' (split <;> try (rename_i hp; first | (obtain ⟨rfl, rfl⟩ := Prod.ext_iff.mp hp) | (obtain ⟨rfl, hq⟩ := Prod.ext_iff.mp hp; obtain ⟨rfl, rfl⟩ := Prod.ext_iff.mp hq) | (obtain ⟨rfl, hq⟩ := Prod.ext_iff.mp hp; obtain ⟨rfl, _⟩ := Prod.ext_iff.mp hq) | (obtain ⟨_, hq⟩ := Prod.ext_iff.mp hp; obtain ⟨rfl, _⟩ := Prod.ext_iff.mp hq) | (obtain ⟨rfl, _⟩ := Prod.ext_iff.mp hp) | (obtain ⟨_, rfl⟩ := Prod.ext_iff.mp hp)))) <;> first | rfl | (simp; done) | (simp_all; done)

@[simp] theorem takeMgmt_frame (s : State) (c : Nat) (late : Bool) :
    (takeMgmt s c late).time = s.time ∧ (takeMgmt s c late).part = s.part ∧ (takeMgmt s c late).err = s.err ∧
    (takeMgmt s c late).pwr = s.pwr ∧ (takeMgmt s c late).mgmt = s.mgmt ∧ (takeMgmt s c late).boot = s.boot ∧
    (takeMgmt s c late).cells = s.cells ∧ (takeMgmt s c late).mem = s.mem ∧ (takeMgmt s c late).larder = s.larder ∧
    (takeMgmt s c late).reg = s.reg ∧ (takeMgmt s c late).trans = s.trans ∧ (takeMgmt s c late).attic = s.attic ∧
    (takeMgmt s c late).link = s.link ∧ (takeMgmt s c late).chord = s.chord ∧ (takeMgmt s c late).fresh = s.fresh ∧
    (takeMgmt s c late).pending = s.pending := by
  unfold takeMgmt
  (try dsimp only)
  (repeat' (split <;> try (rename_i hp; first | (obtain ⟨rfl, rfl⟩ := Prod.ext_iff.mp hp) | (obtain ⟨rfl, hq⟩ := Prod.ext_iff.mp hp; obtain ⟨rfl, rfl⟩ := Prod.ext_iff.mp hq) | (obtain ⟨rfl, hq⟩ := Prod.ext_iff.mp hp; obtain ⟨rfl, _⟩ := Prod.ext_iff.mp hq) | (obtain ⟨_, hq⟩ := Prod.ext_iff.mp hp; obtain ⟨rfl, _⟩ := Prod.ext_iff.mp hq) | (obtain ⟨rfl, _⟩ := Prod.ext_iff.mp hp) | (obtain ⟨_, rfl⟩ := Prod.ext_iff.mp hp)))) <;> first | rfl | (simp; done) | (simp_all; done)

@[simp] theorem takeBoot_frame (s : State) (inp : TakeInput) :
    (takeBoot s inp).time = s.time ∧ (takeBoot s inp).part = s.part ∧ (takeBoot s inp).pwr = s.pwr ∧
    (takeBoot s inp).cells = s.cells ∧ (takeBoot s inp).mem = s.mem ∧ (takeBoot s inp).larder = s.larder ∧
    (takeBoot s inp).reg = s.reg ∧ (takeBoot s inp).trans = s.trans ∧ (takeBoot s inp).attic = s.attic ∧
    (takeBoot s inp).link = s.link ∧ (takeBoot s inp).chord = s.chord ∧ (takeBoot s inp).fresh = s.fresh ∧
    (takeBoot s inp).pending = s.pending := by
  unfold takeBoot
  (try dsimp only)
  (repeat' (split <;> try (rename_i hp; first | (obtain ⟨rfl, rfl⟩ := Prod.ext_iff.mp hp) | (obtain ⟨rfl, hq⟩ := Prod.ext_iff.mp hp; obtain ⟨rfl, rfl⟩ := Prod.ext_iff.mp hq) | (obtain ⟨rfl, hq⟩ := Prod.ext_iff.mp hp; obtain ⟨rfl, _⟩ := Prod.ext_iff.mp hq) | (obtain ⟨_, hq⟩ := Prod.ext_iff.mp hp; obtain ⟨rfl, _⟩ := Prod.ext_iff.mp hq) | (obtain ⟨rfl, _⟩ := Prod.ext_iff.mp hp) | (obtain ⟨_, rfl⟩ := Prod.ext_iff.mp hp)))) <;> first | rfl | (simp; done) | (simp_all; done)

@[simp] theorem respondQuery_frame (s : State) (c : Nat) (t : Taken) (result : Nat) (resp : Bytes) (wb : WriteBack) :
    (respondQuery s c t result resp wb).time = s.time ∧ (respondQuery s c t result resp wb).part = s.part ∧
    (respondQuery s c t result resp wb).err = s.err ∧ (respondQuery s c t result resp wb).pwr = s.pwr ∧
    (respondQuery s c t result resp wb).mgmt = s.mgmt ∧ (respondQuery s c t result resp wb).boot = s.boot ∧
    (respondQuery s c t result resp wb).cells = s.cells ∧ (respondQuery s c t result resp wb).mem = s.mem ∧
    (respondQuery s c t result resp wb).larder = s.larder ∧ (respondQuery s c t result resp wb).reg = s.reg ∧
    (respondQuery s c t result resp wb).trans = s.trans ∧ (respondQuery s c t result resp wb).attic = s.attic ∧
    (respondQuery s c t result resp wb).link = s.link ∧ (respondQuery s c t result resp wb).chord = s.chord ∧
    (respondQuery s c t result resp wb).fresh = s.fresh ∧
    (respondQuery s c t result resp wb).pending = s.pending := by
  unfold respondQuery
  simp

@[simp] theorem ignoreDoorbell_frame (s : State) (m : Nat) :
    (ignoreDoorbell s m).time = s.time ∧ (ignoreDoorbell s m).part = s.part ∧ (ignoreDoorbell s m).err = s.err ∧
    (ignoreDoorbell s m).pwr = s.pwr ∧ (ignoreDoorbell s m).mgmt = s.mgmt ∧ (ignoreDoorbell s m).boot = s.boot ∧
    (ignoreDoorbell s m).cells = s.cells ∧ (ignoreDoorbell s m).mem = s.mem ∧ (ignoreDoorbell s m).larder = s.larder ∧
    (ignoreDoorbell s m).reg = s.reg ∧ (ignoreDoorbell s m).trans = s.trans ∧ (ignoreDoorbell s m).attic = s.attic ∧
    (ignoreDoorbell s m).link = s.link ∧ (ignoreDoorbell s m).chord = s.chord ∧ (ignoreDoorbell s m).fresh = s.fresh ∧
    (ignoreDoorbell s m).out = s.out ∧ (ignoreDoorbell s m).pending = s.pending := by
  unfold ignoreDoorbell
  simp

@[simp] theorem doorbell_frame (s : State) (m action : Nat) :
    (doorbell s m action).time = s.time ∧ (doorbell s m action).part = s.part ∧ (doorbell s m action).err = s.err ∧
    (doorbell s m action).mgmt = s.mgmt ∧ (doorbell s m action).boot = s.boot ∧
    (doorbell s m action).cells = s.cells ∧ (doorbell s m action).mem = s.mem ∧
    (doorbell s m action).larder = s.larder ∧ (doorbell s m action).reg = s.reg ∧
    (doorbell s m action).trans = s.trans ∧ (doorbell s m action).attic = s.attic ∧
    (doorbell s m action).link = s.link ∧ (doorbell s m action).chord = s.chord ∧
    (doorbell s m action).fresh = s.fresh ∧ (doorbell s m action).pending = s.pending := by
  unfold doorbell
  simp

@[simp] theorem sendVector_frame (s : State) (v : Nat) :
    (sendVector s v).time = s.time ∧ (sendVector s v).part = s.part ∧ (sendVector s v).err = s.err ∧
    (sendVector s v).pwr = s.pwr ∧ (sendVector s v).mgmt = s.mgmt ∧ (sendVector s v).boot = s.boot ∧
    (sendVector s v).cells = s.cells ∧ (sendVector s v).mem = s.mem ∧ (sendVector s v).larder = s.larder ∧
    (sendVector s v).reg = s.reg ∧ (sendVector s v).trans = s.trans ∧ (sendVector s v).attic = s.attic ∧
    (sendVector s v).link = s.link ∧ (sendVector s v).chord = s.chord ∧ (sendVector s v).fresh = s.fresh ∧
    (sendVector s v).pending = s.pending := by
  unfold sendVector
  simp

@[simp] theorem sendEqVector_frame (s : State) (q : Nat) :
    (sendEqVector s q).time = s.time ∧ (sendEqVector s q).part = s.part ∧ (sendEqVector s q).err = s.err ∧
    (sendEqVector s q).pwr = s.pwr ∧ (sendEqVector s q).mgmt = s.mgmt ∧ (sendEqVector s q).boot = s.boot ∧
    (sendEqVector s q).cells = s.cells ∧ (sendEqVector s q).mem = s.mem ∧ (sendEqVector s q).larder = s.larder ∧
    (sendEqVector s q).reg = s.reg ∧ (sendEqVector s q).trans = s.trans ∧ (sendEqVector s q).attic = s.attic ∧
    (sendEqVector s q).link = s.link ∧ (sendEqVector s q).chord = s.chord ∧ (sendEqVector s q).fresh = s.fresh ∧
    (sendEqVector s q).pending = s.pending := by
  unfold sendEqVector
  simp

@[simp] theorem writeSlot_frame (s : State) (q : Nat) (r : Record) :
    (writeSlot s q r).time = s.time ∧ (writeSlot s q r).part = s.part ∧ (writeSlot s q r).err = s.err ∧
    (writeSlot s q r).pwr = s.pwr ∧ (writeSlot s q r).mgmt = s.mgmt ∧ (writeSlot s q r).boot = s.boot ∧
    (writeSlot s q r).cells = s.cells ∧ (writeSlot s q r).mem = s.mem ∧ (writeSlot s q r).larder = s.larder ∧
    (writeSlot s q r).reg = s.reg ∧ (writeSlot s q r).trans = s.trans ∧ (writeSlot s q r).attic = s.attic ∧
    (writeSlot s q r).link = s.link ∧ (writeSlot s q r).chord = s.chord ∧ (writeSlot s q r).fresh = s.fresh ∧
    (writeSlot s q r).pending = s.pending := by
  unfold writeSlot
  simp

@[simp] theorem failQueue_frame (s : State) (q : Nat) :
    (failQueue s q).time = s.time ∧ (failQueue s q).part = s.part ∧ (failQueue s q).err = s.err ∧
    (failQueue s q).pwr = s.pwr ∧ (failQueue s q).mgmt = s.mgmt ∧ (failQueue s q).boot = s.boot ∧
    (failQueue s q).cells = s.cells ∧ (failQueue s q).mem = s.mem ∧ (failQueue s q).larder = s.larder ∧
    (failQueue s q).reg = s.reg ∧ (failQueue s q).trans = s.trans ∧ (failQueue s q).attic = s.attic ∧
    (failQueue s q).link = s.link ∧ (failQueue s q).chord = s.chord ∧ (failQueue s q).fresh = s.fresh ∧
    (failQueue s q).out = s.out ∧ (failQueue s q).pending = s.pending := by
  unfold failQueue
  simp

@[simp] theorem consumerWrite_frame (s : State) (q index : Nat) (arm : Bool) :
    (consumerWrite s q index arm).time = s.time ∧ (consumerWrite s q index arm).part = s.part ∧
    (consumerWrite s q index arm).err = s.err ∧ (consumerWrite s q index arm).pwr = s.pwr ∧
    (consumerWrite s q index arm).mgmt = s.mgmt ∧ (consumerWrite s q index arm).boot = s.boot ∧
    (consumerWrite s q index arm).cells = s.cells ∧ (consumerWrite s q index arm).mem = s.mem ∧
    (consumerWrite s q index arm).larder = s.larder ∧ (consumerWrite s q index arm).reg = s.reg ∧
    (consumerWrite s q index arm).trans = s.trans ∧ (consumerWrite s q index arm).attic = s.attic ∧
    (consumerWrite s q index arm).link = s.link ∧ (consumerWrite s q index arm).chord = s.chord ∧
    (consumerWrite s q index arm).fresh = s.fresh ∧ (consumerWrite s q index arm).pending = s.pending := by
  unfold consumerWrite
  simp

@[simp] theorem msixWrite_frame (s : State) (v word value : Nat) :
    (msixWrite s v word value).time = s.time ∧ (msixWrite s v word value).part = s.part ∧
    (msixWrite s v word value).err = s.err ∧ (msixWrite s v word value).pwr = s.pwr ∧
    (msixWrite s v word value).mgmt = s.mgmt ∧ (msixWrite s v word value).boot = s.boot ∧
    (msixWrite s v word value).cells = s.cells ∧ (msixWrite s v word value).mem = s.mem ∧
    (msixWrite s v word value).larder = s.larder ∧ (msixWrite s v word value).reg = s.reg ∧
    (msixWrite s v word value).trans = s.trans ∧ (msixWrite s v word value).attic = s.attic ∧
    (msixWrite s v word value).link = s.link ∧ (msixWrite s v word value).chord = s.chord ∧
    (msixWrite s v word value).fresh = s.fresh ∧ (msixWrite s v word value).pending = s.pending := by
  unfold msixWrite
  simp

@[simp] theorem mailboxWrite_frame (s : State) (m o n value : Nat) :
    (mailboxWrite s m o n value).time = s.time ∧ (mailboxWrite s m o n value).part = s.part ∧
    (mailboxWrite s m o n value).err = s.err ∧ (mailboxWrite s m o n value).pwr = s.pwr ∧
    (mailboxWrite s m o n value).mgmt = s.mgmt ∧ (mailboxWrite s m o n value).boot = s.boot ∧
    (mailboxWrite s m o n value).cells = s.cells ∧ (mailboxWrite s m o n value).mem = s.mem ∧
    (mailboxWrite s m o n value).larder = s.larder ∧ (mailboxWrite s m o n value).reg = s.reg ∧
    (mailboxWrite s m o n value).trans = s.trans ∧ (mailboxWrite s m o n value).attic = s.attic ∧
    (mailboxWrite s m o n value).link = s.link ∧ (mailboxWrite s m o n value).chord = s.chord ∧
    (mailboxWrite s m o n value).fresh = s.fresh ∧ (mailboxWrite s m o n value).out = s.out ∧
    (mailboxWrite s m o n value).pending = s.pending := by
  unfold mailboxWrite
  simp

@[simp] theorem hostWrite_frame (s : State) (o n value : Nat) :
    (hostWrite s o n value).time = s.time ∧ (hostWrite s o n value).part = s.part ∧
    (hostWrite s o n value).err = s.err ∧ (hostWrite s o n value).mgmt = s.mgmt ∧
    (hostWrite s o n value).boot = s.boot ∧ (hostWrite s o n value).cells = s.cells ∧
    (hostWrite s o n value).mem = s.mem ∧ (hostWrite s o n value).larder = s.larder ∧
    (hostWrite s o n value).reg = s.reg ∧ (hostWrite s o n value).trans = s.trans ∧
    (hostWrite s o n value).attic = s.attic ∧ (hostWrite s o n value).link = s.link ∧
    (hostWrite s o n value).chord = s.chord ∧ (hostWrite s o n value).fresh = s.fresh ∧
    (hostWrite s o n value).pending = s.pending := by
  unfold hostWrite
  simp

@[simp] theorem postWrite_time (s : State) (o n value : Nat) (now : State → State) (h0 : ∀ a0, (now a0).time = a0.time) :
    (postWrite s o n value now).time = s.time := by
  unfold postWrite
  first
  | (simp [h0]; done)
  | ((try dsimp only)
     (repeat' (split <;> try (rename_i hp; first | (obtain ⟨rfl, rfl⟩ := Prod.ext_iff.mp hp) | (obtain ⟨rfl, hq⟩ := Prod.ext_iff.mp hp; obtain ⟨rfl, rfl⟩ := Prod.ext_iff.mp hq) | (obtain ⟨rfl, hq⟩ := Prod.ext_iff.mp hp; obtain ⟨rfl, _⟩ := Prod.ext_iff.mp hq) | (obtain ⟨_, hq⟩ := Prod.ext_iff.mp hp; obtain ⟨rfl, _⟩ := Prod.ext_iff.mp hq) | (obtain ⟨rfl, _⟩ := Prod.ext_iff.mp hp) | (obtain ⟨_, rfl⟩ := Prod.ext_iff.mp hp)))) <;> first | rfl | (simp [h0]; done) | (simp_all; done))

@[simp] theorem postWrite_cp (s : State) (o n value : Nat) (now : State → State) (h0 : ∀ a0, (now a0).cp = a0.cp) :
    (postWrite s o n value now).cp = s.cp := by
  unfold postWrite
  first
  | (simp [h0]; done)
  | ((try dsimp only)
     (repeat' (split <;> try (rename_i hp; first | (obtain ⟨rfl, rfl⟩ := Prod.ext_iff.mp hp) | (obtain ⟨rfl, hq⟩ := Prod.ext_iff.mp hp; obtain ⟨rfl, rfl⟩ := Prod.ext_iff.mp hq) | (obtain ⟨rfl, hq⟩ := Prod.ext_iff.mp hp; obtain ⟨rfl, _⟩ := Prod.ext_iff.mp hq) | (obtain ⟨_, hq⟩ := Prod.ext_iff.mp hp; obtain ⟨rfl, _⟩ := Prod.ext_iff.mp hq) | (obtain ⟨rfl, _⟩ := Prod.ext_iff.mp hp) | (obtain ⟨_, rfl⟩ := Prod.ext_iff.mp hp)))) <;> first | rfl | (simp [h0]; done) | (simp_all; done))

@[simp] theorem postWrite_part (s : State) (o n value : Nat) (now : State → State) (h0 : ∀ a0, (now a0).part = a0.part) :
    (postWrite s o n value now).part = s.part := by
  unfold postWrite
  first
  | (simp [h0]; done)
  | ((try dsimp only)
     (repeat' (split <;> try (rename_i hp; first | (obtain ⟨rfl, rfl⟩ := Prod.ext_iff.mp hp) | (obtain ⟨rfl, hq⟩ := Prod.ext_iff.mp hp; obtain ⟨rfl, rfl⟩ := Prod.ext_iff.mp hq) | (obtain ⟨rfl, hq⟩ := Prod.ext_iff.mp hp; obtain ⟨rfl, _⟩ := Prod.ext_iff.mp hq) | (obtain ⟨_, hq⟩ := Prod.ext_iff.mp hp; obtain ⟨rfl, _⟩ := Prod.ext_iff.mp hq) | (obtain ⟨rfl, _⟩ := Prod.ext_iff.mp hp) | (obtain ⟨_, rfl⟩ := Prod.ext_iff.mp hp)))) <;> first | rfl | (simp [h0]; done) | (simp_all; done))

@[simp] theorem postWrite_err (s : State) (o n value : Nat) (now : State → State) (h0 : ∀ a0, (now a0).err = a0.err) :
    (postWrite s o n value now).err = s.err := by
  unfold postWrite
  first
  | (simp [h0]; done)
  | ((try dsimp only)
     (repeat' (split <;> try (rename_i hp; first | (obtain ⟨rfl, rfl⟩ := Prod.ext_iff.mp hp) | (obtain ⟨rfl, hq⟩ := Prod.ext_iff.mp hp; obtain ⟨rfl, rfl⟩ := Prod.ext_iff.mp hq) | (obtain ⟨rfl, hq⟩ := Prod.ext_iff.mp hp; obtain ⟨rfl, _⟩ := Prod.ext_iff.mp hq) | (obtain ⟨_, hq⟩ := Prod.ext_iff.mp hp; obtain ⟨rfl, _⟩ := Prod.ext_iff.mp hq) | (obtain ⟨rfl, _⟩ := Prod.ext_iff.mp hp) | (obtain ⟨_, rfl⟩ := Prod.ext_iff.mp hp)))) <;> first | rfl | (simp [h0]; done) | (simp_all; done))

@[simp] theorem postWrite_pwr (s : State) (o n value : Nat) (now : State → State) (h0 : ∀ a0, (now a0).pwr = a0.pwr) :
    (postWrite s o n value now).pwr = s.pwr := by
  unfold postWrite
  first
  | (simp [h0]; done)
  | ((try dsimp only)
     (repeat' (split <;> try (rename_i hp; first | (obtain ⟨rfl, rfl⟩ := Prod.ext_iff.mp hp) | (obtain ⟨rfl, hq⟩ := Prod.ext_iff.mp hp; obtain ⟨rfl, rfl⟩ := Prod.ext_iff.mp hq) | (obtain ⟨rfl, hq⟩ := Prod.ext_iff.mp hp; obtain ⟨rfl, _⟩ := Prod.ext_iff.mp hq) | (obtain ⟨_, hq⟩ := Prod.ext_iff.mp hp; obtain ⟨rfl, _⟩ := Prod.ext_iff.mp hq) | (obtain ⟨rfl, _⟩ := Prod.ext_iff.mp hp) | (obtain ⟨_, rfl⟩ := Prod.ext_iff.mp hp)))) <;> first | rfl | (simp [h0]; done) | (simp_all; done))

@[simp] theorem postWrite_mgmt (s : State) (o n value : Nat) (now : State → State) (h0 : ∀ a0, (now a0).mgmt = a0.mgmt) :
    (postWrite s o n value now).mgmt = s.mgmt := by
  unfold postWrite
  first
  | (simp [h0]; done)
  | ((try dsimp only)
     (repeat' (split <;> try (rename_i hp; first | (obtain ⟨rfl, rfl⟩ := Prod.ext_iff.mp hp) | (obtain ⟨rfl, hq⟩ := Prod.ext_iff.mp hp; obtain ⟨rfl, rfl⟩ := Prod.ext_iff.mp hq) | (obtain ⟨rfl, hq⟩ := Prod.ext_iff.mp hp; obtain ⟨rfl, _⟩ := Prod.ext_iff.mp hq) | (obtain ⟨_, hq⟩ := Prod.ext_iff.mp hp; obtain ⟨rfl, _⟩ := Prod.ext_iff.mp hq) | (obtain ⟨rfl, _⟩ := Prod.ext_iff.mp hp) | (obtain ⟨_, rfl⟩ := Prod.ext_iff.mp hp)))) <;> first | rfl | (simp [h0]; done) | (simp_all; done))

@[simp] theorem postWrite_boot (s : State) (o n value : Nat) (now : State → State) (h0 : ∀ a0, (now a0).boot = a0.boot) :
    (postWrite s o n value now).boot = s.boot := by
  unfold postWrite
  first
  | (simp [h0]; done)
  | ((try dsimp only)
     (repeat' (split <;> try (rename_i hp; first | (obtain ⟨rfl, rfl⟩ := Prod.ext_iff.mp hp) | (obtain ⟨rfl, hq⟩ := Prod.ext_iff.mp hp; obtain ⟨rfl, rfl⟩ := Prod.ext_iff.mp hq) | (obtain ⟨rfl, hq⟩ := Prod.ext_iff.mp hp; obtain ⟨rfl, _⟩ := Prod.ext_iff.mp hq) | (obtain ⟨_, hq⟩ := Prod.ext_iff.mp hp; obtain ⟨rfl, _⟩ := Prod.ext_iff.mp hq) | (obtain ⟨rfl, _⟩ := Prod.ext_iff.mp hp) | (obtain ⟨_, rfl⟩ := Prod.ext_iff.mp hp)))) <;> first | rfl | (simp [h0]; done) | (simp_all; done))

@[simp] theorem postWrite_cells (s : State) (o n value : Nat) (now : State → State) (h0 : ∀ a0, (now a0).cells = a0.cells) :
    (postWrite s o n value now).cells = s.cells := by
  unfold postWrite
  first
  | (simp [h0]; done)
  | ((try dsimp only)
     (repeat' (split <;> try (rename_i hp; first | (obtain ⟨rfl, rfl⟩ := Prod.ext_iff.mp hp) | (obtain ⟨rfl, hq⟩ := Prod.ext_iff.mp hp; obtain ⟨rfl, rfl⟩ := Prod.ext_iff.mp hq) | (obtain ⟨rfl, hq⟩ := Prod.ext_iff.mp hp; obtain ⟨rfl, _⟩ := Prod.ext_iff.mp hq) | (obtain ⟨_, hq⟩ := Prod.ext_iff.mp hp; obtain ⟨rfl, _⟩ := Prod.ext_iff.mp hq) | (obtain ⟨rfl, _⟩ := Prod.ext_iff.mp hp) | (obtain ⟨_, rfl⟩ := Prod.ext_iff.mp hp)))) <;> first | rfl | (simp [h0]; done) | (simp_all; done))

@[simp] theorem postWrite_larder (s : State) (o n value : Nat) (now : State → State) (h0 : ∀ a0, (now a0).larder = a0.larder) :
    (postWrite s o n value now).larder = s.larder := by
  unfold postWrite
  first
  | (simp [h0]; done)
  | ((try dsimp only)
     (repeat' (split <;> try (rename_i hp; first | (obtain ⟨rfl, rfl⟩ := Prod.ext_iff.mp hp) | (obtain ⟨rfl, hq⟩ := Prod.ext_iff.mp hp; obtain ⟨rfl, rfl⟩ := Prod.ext_iff.mp hq) | (obtain ⟨rfl, hq⟩ := Prod.ext_iff.mp hp; obtain ⟨rfl, _⟩ := Prod.ext_iff.mp hq) | (obtain ⟨_, hq⟩ := Prod.ext_iff.mp hp; obtain ⟨rfl, _⟩ := Prod.ext_iff.mp hq) | (obtain ⟨rfl, _⟩ := Prod.ext_iff.mp hp) | (obtain ⟨_, rfl⟩ := Prod.ext_iff.mp hp)))) <;> first | rfl | (simp [h0]; done) | (simp_all; done))

@[simp] theorem postWrite_reg (s : State) (o n value : Nat) (now : State → State) (h0 : ∀ a0, (now a0).reg = a0.reg) :
    (postWrite s o n value now).reg = s.reg := by
  unfold postWrite
  first
  | (simp [h0]; done)
  | ((try dsimp only)
     (repeat' (split <;> try (rename_i hp; first | (obtain ⟨rfl, rfl⟩ := Prod.ext_iff.mp hp) | (obtain ⟨rfl, hq⟩ := Prod.ext_iff.mp hp; obtain ⟨rfl, rfl⟩ := Prod.ext_iff.mp hq) | (obtain ⟨rfl, hq⟩ := Prod.ext_iff.mp hp; obtain ⟨rfl, _⟩ := Prod.ext_iff.mp hq) | (obtain ⟨_, hq⟩ := Prod.ext_iff.mp hp; obtain ⟨rfl, _⟩ := Prod.ext_iff.mp hq) | (obtain ⟨rfl, _⟩ := Prod.ext_iff.mp hp) | (obtain ⟨_, rfl⟩ := Prod.ext_iff.mp hp)))) <;> first | rfl | (simp [h0]; done) | (simp_all; done))

@[simp] theorem postWrite_trans (s : State) (o n value : Nat) (now : State → State) (h0 : ∀ a0, (now a0).trans = a0.trans) :
    (postWrite s o n value now).trans = s.trans := by
  unfold postWrite
  first
  | (simp [h0]; done)
  | ((try dsimp only)
     (repeat' (split <;> try (rename_i hp; first | (obtain ⟨rfl, rfl⟩ := Prod.ext_iff.mp hp) | (obtain ⟨rfl, hq⟩ := Prod.ext_iff.mp hp; obtain ⟨rfl, rfl⟩ := Prod.ext_iff.mp hq) | (obtain ⟨rfl, hq⟩ := Prod.ext_iff.mp hp; obtain ⟨rfl, _⟩ := Prod.ext_iff.mp hq) | (obtain ⟨_, hq⟩ := Prod.ext_iff.mp hp; obtain ⟨rfl, _⟩ := Prod.ext_iff.mp hq) | (obtain ⟨rfl, _⟩ := Prod.ext_iff.mp hp) | (obtain ⟨_, rfl⟩ := Prod.ext_iff.mp hp)))) <;> first | rfl | (simp [h0]; done) | (simp_all; done))

@[simp] theorem postWrite_attic (s : State) (o n value : Nat) (now : State → State) (h0 : ∀ a0, (now a0).attic = a0.attic) :
    (postWrite s o n value now).attic = s.attic := by
  unfold postWrite
  first
  | (simp [h0]; done)
  | ((try dsimp only)
     (repeat' (split <;> try (rename_i hp; first | (obtain ⟨rfl, rfl⟩ := Prod.ext_iff.mp hp) | (obtain ⟨rfl, hq⟩ := Prod.ext_iff.mp hp; obtain ⟨rfl, rfl⟩ := Prod.ext_iff.mp hq) | (obtain ⟨rfl, hq⟩ := Prod.ext_iff.mp hp; obtain ⟨rfl, _⟩ := Prod.ext_iff.mp hq) | (obtain ⟨_, hq⟩ := Prod.ext_iff.mp hp; obtain ⟨rfl, _⟩ := Prod.ext_iff.mp hq) | (obtain ⟨rfl, _⟩ := Prod.ext_iff.mp hp) | (obtain ⟨_, rfl⟩ := Prod.ext_iff.mp hp)))) <;> first | rfl | (simp [h0]; done) | (simp_all; done))

@[simp] theorem postWrite_link (s : State) (o n value : Nat) (now : State → State) (h0 : ∀ a0, (now a0).link = a0.link) :
    (postWrite s o n value now).link = s.link := by
  unfold postWrite
  first
  | (simp [h0]; done)
  | ((try dsimp only)
     (repeat' (split <;> try (rename_i hp; first | (obtain ⟨rfl, rfl⟩ := Prod.ext_iff.mp hp) | (obtain ⟨rfl, hq⟩ := Prod.ext_iff.mp hp; obtain ⟨rfl, rfl⟩ := Prod.ext_iff.mp hq) | (obtain ⟨rfl, hq⟩ := Prod.ext_iff.mp hp; obtain ⟨rfl, _⟩ := Prod.ext_iff.mp hq) | (obtain ⟨_, hq⟩ := Prod.ext_iff.mp hp; obtain ⟨rfl, _⟩ := Prod.ext_iff.mp hq) | (obtain ⟨rfl, _⟩ := Prod.ext_iff.mp hp) | (obtain ⟨_, rfl⟩ := Prod.ext_iff.mp hp)))) <;> first | rfl | (simp [h0]; done) | (simp_all; done))

@[simp] theorem postWrite_chord (s : State) (o n value : Nat) (now : State → State) (h0 : ∀ a0, (now a0).chord = a0.chord) :
    (postWrite s o n value now).chord = s.chord := by
  unfold postWrite
  first
  | (simp [h0]; done)
  | ((try dsimp only)
     (repeat' (split <;> try (rename_i hp; first | (obtain ⟨rfl, rfl⟩ := Prod.ext_iff.mp hp) | (obtain ⟨rfl, hq⟩ := Prod.ext_iff.mp hp; obtain ⟨rfl, rfl⟩ := Prod.ext_iff.mp hq) | (obtain ⟨rfl, hq⟩ := Prod.ext_iff.mp hp; obtain ⟨rfl, _⟩ := Prod.ext_iff.mp hq) | (obtain ⟨_, hq⟩ := Prod.ext_iff.mp hp; obtain ⟨rfl, _⟩ := Prod.ext_iff.mp hq) | (obtain ⟨rfl, _⟩ := Prod.ext_iff.mp hp) | (obtain ⟨_, rfl⟩ := Prod.ext_iff.mp hp)))) <;> first | rfl | (simp [h0]; done) | (simp_all; done))

@[simp] theorem postWrite_fresh (s : State) (o n value : Nat) (now : State → State) (h0 : ∀ a0, (now a0).fresh = a0.fresh) :
    (postWrite s o n value now).fresh = s.fresh := by
  unfold postWrite
  first
  | (simp [h0]; done)
  | ((try dsimp only)
     (repeat' (split <;> try (rename_i hp; first | (obtain ⟨rfl, rfl⟩ := Prod.ext_iff.mp hp) | (obtain ⟨rfl, hq⟩ := Prod.ext_iff.mp hp; obtain ⟨rfl, rfl⟩ := Prod.ext_iff.mp hq) | (obtain ⟨rfl, hq⟩ := Prod.ext_iff.mp hp; obtain ⟨rfl, _⟩ := Prod.ext_iff.mp hq) | (obtain ⟨_, hq⟩ := Prod.ext_iff.mp hp; obtain ⟨rfl, _⟩ := Prod.ext_iff.mp hq) | (obtain ⟨rfl, _⟩ := Prod.ext_iff.mp hp) | (obtain ⟨_, rfl⟩ := Prod.ext_iff.mp hp)))) <;> first | rfl | (simp [h0]; done) | (simp_all; done))

@[simp] theorem postWrite_out (s : State) (o n value : Nat) (now : State → State) (h0 : ∀ a0, (now a0).out = a0.out) :
    (postWrite s o n value now).out = s.out := by
  unfold postWrite
  first
  | (simp [h0]; done)
  | ((try dsimp only)
     (repeat' (split <;> try (rename_i hp; first | (obtain ⟨rfl, rfl⟩ := Prod.ext_iff.mp hp) | (obtain ⟨rfl, hq⟩ := Prod.ext_iff.mp hp; obtain ⟨rfl, rfl⟩ := Prod.ext_iff.mp hq) | (obtain ⟨rfl, hq⟩ := Prod.ext_iff.mp hp; obtain ⟨rfl, _⟩ := Prod.ext_iff.mp hq) | (obtain ⟨_, hq⟩ := Prod.ext_iff.mp hp; obtain ⟨rfl, _⟩ := Prod.ext_iff.mp hq) | (obtain ⟨rfl, _⟩ := Prod.ext_iff.mp hp) | (obtain ⟨_, rfl⟩ := Prod.ext_iff.mp hp)))) <;> first | rfl | (simp [h0]; done) | (simp_all; done))

@[simp] theorem postWrite_pending (s : State) (o n value : Nat) (now : State → State) (h0 : ∀ a0, (now a0).pending = a0.pending) :
    (postWrite s o n value now).pending = s.pending := by
  unfold postWrite
  first
  | (simp [h0]; done)
  | ((try dsimp only)
     (repeat' (split <;> try (rename_i hp; first | (obtain ⟨rfl, rfl⟩ := Prod.ext_iff.mp hp) | (obtain ⟨rfl, hq⟩ := Prod.ext_iff.mp hp; obtain ⟨rfl, rfl⟩ := Prod.ext_iff.mp hq) | (obtain ⟨rfl, hq⟩ := Prod.ext_iff.mp hp; obtain ⟨rfl, _⟩ := Prod.ext_iff.mp hq) | (obtain ⟨_, hq⟩ := Prod.ext_iff.mp hp; obtain ⟨rfl, _⟩ := Prod.ext_iff.mp hq) | (obtain ⟨rfl, _⟩ := Prod.ext_iff.mp hp) | (obtain ⟨_, rfl⟩ := Prod.ext_iff.mp hp)))) <;> first | rfl | (simp [h0]; done) | (simp_all; done))

@[simp] theorem releaseHeld_frame (s : State) :
    (releaseHeld s).time = s.time ∧ (releaseHeld s).part = s.part ∧ (releaseHeld s).err = s.err ∧
    (releaseHeld s).mgmt = s.mgmt ∧ (releaseHeld s).boot = s.boot ∧ (releaseHeld s).cells = s.cells ∧
    (releaseHeld s).larder = s.larder ∧ (releaseHeld s).reg = s.reg ∧ (releaseHeld s).trans = s.trans ∧
    (releaseHeld s).attic = s.attic ∧ (releaseHeld s).link = s.link ∧ (releaseHeld s).chord = s.chord ∧
    (releaseHeld s).fresh = s.fresh ∧ (releaseHeld s).pending = s.pending := by
  unfold releaseHeld
  simp

end Sys2Proof.Machine
end

