-- ==== Sys2Proof/Laws/FrameTime.lean ====
section
/-! SUPPORT. What each operation of Machine/Time.lean leaves as it was, by component of the state. -/
set_option maxRecDepth 4000
set_option exponentiation.threshold 2000
namespace Sys2Proof.Machine

@[simp] theorem enterTime_frame (s : State) (st : TimeState) :
    (enterTime s st).part = s.part ∧ (enterTime s st).err = s.err ∧ (enterTime s st).pwr = s.pwr ∧
    (enterTime s st).boot = s.boot ∧ (enterTime s st).cells = s.cells ∧ (enterTime s st).mem = s.mem ∧
    (enterTime s st).larder = s.larder ∧ (enterTime s st).reg = s.reg ∧ (enterTime s st).trans = s.trans ∧
    (enterTime s st).attic = s.attic ∧ (enterTime s st).link = s.link ∧ (enterTime s st).chord = s.chord ∧
    (enterTime s st).fresh = s.fresh ∧ (enterTime s st).pending = s.pending := by
  unfold enterTime
  simp

@[simp] theorem rankMaster_frame (s : State) :
    (rankMaster s).part = s.part ∧ (rankMaster s).err = s.err ∧ (rankMaster s).pwr = s.pwr ∧
    (rankMaster s).boot = s.boot ∧ (rankMaster s).cells = s.cells ∧ (rankMaster s).mem = s.mem ∧
    (rankMaster s).larder = s.larder ∧ (rankMaster s).reg = s.reg ∧ (rankMaster s).trans = s.trans ∧
    (rankMaster s).attic = s.attic ∧ (rankMaster s).link = s.link ∧ (rankMaster s).chord = s.chord ∧
    (rankMaster s).fresh = s.fresh ∧ (rankMaster s).pending = s.pending := by
  unfold rankMaster
  (try dsimp only)
  (repeat' (split <;> try (rename_i hp; first | (obtain ⟨rfl, rfl⟩ := Prod.ext_iff.mp hp) | (obtain ⟨rfl, hq⟩ := Prod.ext_iff.mp hp; obtain ⟨rfl, rfl⟩ := Prod.ext_iff.mp hq) | (obtain ⟨rfl, hq⟩ := Prod.ext_iff.mp hp; obtain ⟨rfl, _⟩ := Prod.ext_iff.mp hq) | (obtain ⟨_, hq⟩ := Prod.ext_iff.mp hp; obtain ⟨rfl, _⟩ := Prod.ext_iff.mp hq) | (obtain ⟨rfl, _⟩ := Prod.ext_iff.mp hp) | (obtain ⟨_, rfl⟩ := Prod.ext_iff.mp hp)))) <;> first | rfl | (simp; done) | (simp_all; done)

@[simp] theorem steer_frame (s : State) :
    (steer s).cp = s.cp ∧ (steer s).part = s.part ∧ (steer s).err = s.err ∧ (steer s).pwr = s.pwr ∧
    (steer s).mgmt = s.mgmt ∧ (steer s).boot = s.boot ∧ (steer s).cells = s.cells ∧ (steer s).mem = s.mem ∧
    (steer s).larder = s.larder ∧ (steer s).reg = s.reg ∧ (steer s).trans = s.trans ∧ (steer s).attic = s.attic ∧
    (steer s).link = s.link ∧ (steer s).chord = s.chord ∧ (steer s).out = s.out ∧
    (steer s).pending = s.pending := by
  unfold steer
  simp

@[simp] theorem acquire_frame (s : State) (off : Int) :
    (acquire s off).part = s.part ∧ (acquire s off).err = s.err ∧ (acquire s off).pwr = s.pwr ∧
    (acquire s off).boot = s.boot ∧ (acquire s off).cells = s.cells ∧ (acquire s off).mem = s.mem ∧
    (acquire s off).larder = s.larder ∧ (acquire s off).reg = s.reg ∧ (acquire s off).trans = s.trans ∧
    (acquire s off).attic = s.attic ∧ (acquire s off).link = s.link ∧ (acquire s off).chord = s.chord ∧
    (acquire s off).fresh = s.fresh ∧ (acquire s off).pending = s.pending := by
  unfold acquire
  simp

@[simp] theorem measure_frame (s : State) (e : Nat) (w : TimeWord) (t4 : Nat) (asym : Int) :
    (measure s e w t4 asym).part = s.part ∧ (measure s e w t4 asym).err = s.err ∧
    (measure s e w t4 asym).pwr = s.pwr ∧ (measure s e w t4 asym).boot = s.boot ∧
    (measure s e w t4 asym).cells = s.cells ∧ (measure s e w t4 asym).mem = s.mem ∧
    (measure s e w t4 asym).larder = s.larder ∧ (measure s e w t4 asym).reg = s.reg ∧
    (measure s e w t4 asym).trans = s.trans ∧ (measure s e w t4 asym).attic = s.attic ∧
    (measure s e w t4 asym).link = s.link ∧ (measure s e w t4 asym).chord = s.chord ∧
    (measure s e w t4 asym).pending = s.pending := by
  unfold measure
  (try dsimp only)
  (repeat' (split <;> try (rename_i hp; first | (obtain ⟨rfl, rfl⟩ := Prod.ext_iff.mp hp) | (obtain ⟨rfl, hq⟩ := Prod.ext_iff.mp hp; obtain ⟨rfl, rfl⟩ := Prod.ext_iff.mp hq) | (obtain ⟨rfl, hq⟩ := Prod.ext_iff.mp hp; obtain ⟨rfl, _⟩ := Prod.ext_iff.mp hq) | (obtain ⟨_, hq⟩ := Prod.ext_iff.mp hp; obtain ⟨rfl, _⟩ := Prod.ext_iff.mp hq) | (obtain ⟨rfl, _⟩ := Prod.ext_iff.mp hp) | (obtain ⟨_, rfl⟩ := Prod.ext_iff.mp hp)))) <;> first | rfl | (simp; done) | (simp_all; done)

@[simp] theorem takeTimeWord_frame (s : State) (e : Nat) (w : TimeWord) (t4 : Nat) (asym : Int) :
    (takeTimeWord s e w t4 asym).part = s.part ∧ (takeTimeWord s e w t4 asym).err = s.err ∧
    (takeTimeWord s e w t4 asym).pwr = s.pwr ∧ (takeTimeWord s e w t4 asym).boot = s.boot ∧
    (takeTimeWord s e w t4 asym).cells = s.cells ∧ (takeTimeWord s e w t4 asym).mem = s.mem ∧
    (takeTimeWord s e w t4 asym).larder = s.larder ∧ (takeTimeWord s e w t4 asym).reg = s.reg ∧
    (takeTimeWord s e w t4 asym).trans = s.trans ∧ (takeTimeWord s e w t4 asym).attic = s.attic ∧
    (takeTimeWord s e w t4 asym).link = s.link ∧ (takeTimeWord s e w t4 asym).chord = s.chord ∧
    (takeTimeWord s e w t4 asym).pending = s.pending := by
  unfold takeTimeWord
  simp

@[simp] theorem sendTimeWord_frame (s : State) (e tx : Nat) :
    (sendTimeWord s e tx).1.cp = s.cp ∧ (sendTimeWord s e tx).1.part = s.part ∧ (sendTimeWord s e tx).1.err = s.err ∧
    (sendTimeWord s e tx).1.pwr = s.pwr ∧ (sendTimeWord s e tx).1.mgmt = s.mgmt ∧
    (sendTimeWord s e tx).1.boot = s.boot ∧ (sendTimeWord s e tx).1.cells = s.cells ∧
    (sendTimeWord s e tx).1.mem = s.mem ∧ (sendTimeWord s e tx).1.larder = s.larder ∧
    (sendTimeWord s e tx).1.reg = s.reg ∧ (sendTimeWord s e tx).1.trans = s.trans ∧
    (sendTimeWord s e tx).1.attic = s.attic ∧ (sendTimeWord s e tx).1.link = s.link ∧
    (sendTimeWord s e tx).1.chord = s.chord ∧ (sendTimeWord s e tx).1.fresh = s.fresh ∧
    (sendTimeWord s e tx).1.out = s.out ∧ (sendTimeWord s e tx).1.pending = s.pending := by
  unfold sendTimeWord
  simp

@[simp] theorem dropTimeLink_frame (s : State) (e : Nat) :
    (dropTimeLink s e).part = s.part ∧ (dropTimeLink s e).err = s.err ∧ (dropTimeLink s e).pwr = s.pwr ∧
    (dropTimeLink s e).boot = s.boot ∧ (dropTimeLink s e).cells = s.cells ∧ (dropTimeLink s e).mem = s.mem ∧
    (dropTimeLink s e).larder = s.larder ∧ (dropTimeLink s e).reg = s.reg ∧ (dropTimeLink s e).trans = s.trans ∧
    (dropTimeLink s e).attic = s.attic ∧ (dropTimeLink s e).link = s.link ∧ (dropTimeLink s e).chord = s.chord ∧
    (dropTimeLink s e).fresh = s.fresh ∧ (dropTimeLink s e).pending = s.pending := by
  unfold dropTimeLink
  (try dsimp only)
  (repeat' (split <;> try (rename_i hp; first | (obtain ⟨rfl, rfl⟩ := Prod.ext_iff.mp hp) | (obtain ⟨rfl, hq⟩ := Prod.ext_iff.mp hp; obtain ⟨rfl, rfl⟩ := Prod.ext_iff.mp hq) | (obtain ⟨rfl, hq⟩ := Prod.ext_iff.mp hp; obtain ⟨rfl, _⟩ := Prod.ext_iff.mp hq) | (obtain ⟨_, hq⟩ := Prod.ext_iff.mp hp; obtain ⟨rfl, _⟩ := Prod.ext_iff.mp hq) | (obtain ⟨rfl, _⟩ := Prod.ext_iff.mp hp) | (obtain ⟨_, rfl⟩ := Prod.ext_iff.mp hp)))) <;> first | rfl | (simp; done) | (simp_all; done)

@[simp] theorem modScrub_frame (s : State) (k : Nat) (f : ScrubStatus → ScrubStatus) :
    (modScrub s k f).time = s.time ∧ (modScrub s k f).cp = s.cp ∧ (modScrub s k f).part = s.part ∧
    (modScrub s k f).pwr = s.pwr ∧ (modScrub s k f).mgmt = s.mgmt ∧ (modScrub s k f).boot = s.boot ∧
    (modScrub s k f).cells = s.cells ∧ (modScrub s k f).mem = s.mem ∧ (modScrub s k f).larder = s.larder ∧
    (modScrub s k f).reg = s.reg ∧ (modScrub s k f).trans = s.trans ∧ (modScrub s k f).attic = s.attic ∧
    (modScrub s k f).link = s.link ∧ (modScrub s k f).chord = s.chord ∧ (modScrub s k f).fresh = s.fresh ∧
    (modScrub s k f).out = s.out ∧ (modScrub s k f).pending = s.pending := by
  unfold modScrub
  simp

@[simp] theorem scrubMissed_frame (s : State) (k : Nat) :
    (scrubMissed s k).cp = s.cp ∧ (scrubMissed s k).part = s.part ∧ (scrubMissed s k).pwr = s.pwr ∧
    (scrubMissed s k).mgmt = s.mgmt ∧ (scrubMissed s k).boot = s.boot ∧ (scrubMissed s k).cells = s.cells ∧
    (scrubMissed s k).mem = s.mem ∧ (scrubMissed s k).larder = s.larder ∧ (scrubMissed s k).reg = s.reg ∧
    (scrubMissed s k).trans = s.trans ∧ (scrubMissed s k).attic = s.attic ∧ (scrubMissed s k).link = s.link ∧
    (scrubMissed s k).chord = s.chord ∧ (scrubMissed s k).fresh = s.fresh ∧ (scrubMissed s k).out = s.out ∧
    (scrubMissed s k).pending = s.pending := by
  unfold scrubMissed
  simp

@[simp] theorem scrubDeadlines_frame (s : State) :
    (scrubDeadlines s).cp = s.cp ∧ (scrubDeadlines s).part = s.part ∧ (scrubDeadlines s).pwr = s.pwr ∧
    (scrubDeadlines s).mgmt = s.mgmt ∧ (scrubDeadlines s).boot = s.boot ∧ (scrubDeadlines s).cells = s.cells ∧
    (scrubDeadlines s).mem = s.mem ∧ (scrubDeadlines s).larder = s.larder ∧ (scrubDeadlines s).reg = s.reg ∧
    (scrubDeadlines s).trans = s.trans ∧ (scrubDeadlines s).attic = s.attic ∧ (scrubDeadlines s).link = s.link ∧
    (scrubDeadlines s).chord = s.chord ∧ (scrubDeadlines s).fresh = s.fresh ∧ (scrubDeadlines s).out = s.out ∧
    (scrubDeadlines s).pending = s.pending := by
  unfold scrubDeadlines
  simp

@[simp] theorem applyTimeSets_part (s : State) :
    (applyTimeSets s).part = s.part := by
  unfold applyTimeSets
  first
  | (simp; done)
  | ((try dsimp only)
     (repeat' (split <;> try (rename_i hp; first | (obtain ⟨rfl, rfl⟩ := Prod.ext_iff.mp hp) | (obtain ⟨rfl, hq⟩ := Prod.ext_iff.mp hp; obtain ⟨rfl, rfl⟩ := Prod.ext_iff.mp hq) | (obtain ⟨rfl, hq⟩ := Prod.ext_iff.mp hp; obtain ⟨rfl, _⟩ := Prod.ext_iff.mp hq) | (obtain ⟨_, hq⟩ := Prod.ext_iff.mp hp; obtain ⟨rfl, _⟩ := Prod.ext_iff.mp hq) | (obtain ⟨rfl, _⟩ := Prod.ext_iff.mp hp) | (obtain ⟨_, rfl⟩ := Prod.ext_iff.mp hp)))) <;> first | rfl | (simp; done) | (simp_all; done))

@[simp] theorem applyTimeSets_err (s : State) :
    (applyTimeSets s).err = s.err := by
  unfold applyTimeSets
  first
  | (simp; done)
  | ((try dsimp only)
     (repeat' (split <;> try (rename_i hp; first | (obtain ⟨rfl, rfl⟩ := Prod.ext_iff.mp hp) | (obtain ⟨rfl, hq⟩ := Prod.ext_iff.mp hp; obtain ⟨rfl, rfl⟩ := Prod.ext_iff.mp hq) | (obtain ⟨rfl, hq⟩ := Prod.ext_iff.mp hp; obtain ⟨rfl, _⟩ := Prod.ext_iff.mp hq) | (obtain ⟨_, hq⟩ := Prod.ext_iff.mp hp; obtain ⟨rfl, _⟩ := Prod.ext_iff.mp hq) | (obtain ⟨rfl, _⟩ := Prod.ext_iff.mp hp) | (obtain ⟨_, rfl⟩ := Prod.ext_iff.mp hp)))) <;> first | rfl | (simp; done) | (simp_all; done))

@[simp] theorem applyTimeSets_pwr (s : State) :
    (applyTimeSets s).pwr = s.pwr := by
  unfold applyTimeSets
  first
  | (simp; done)
  | ((try dsimp only)
     (repeat' (split <;> try (rename_i hp; first | (obtain ⟨rfl, rfl⟩ := Prod.ext_iff.mp hp) | (obtain ⟨rfl, hq⟩ := Prod.ext_iff.mp hp; obtain ⟨rfl, rfl⟩ := Prod.ext_iff.mp hq) | (obtain ⟨rfl, hq⟩ := Prod.ext_iff.mp hp; obtain ⟨rfl, _⟩ := Prod.ext_iff.mp hq) | (obtain ⟨_, hq⟩ := Prod.ext_iff.mp hp; obtain ⟨rfl, _⟩ := Prod.ext_iff.mp hq) | (obtain ⟨rfl, _⟩ := Prod.ext_iff.mp hp) | (obtain ⟨_, rfl⟩ := Prod.ext_iff.mp hp)))) <;> first | rfl | (simp; done) | (simp_all; done))

@[simp] theorem applyTimeSets_boot (s : State) :
    (applyTimeSets s).boot = s.boot := by
  unfold applyTimeSets
  first
  | (simp; done)
  | ((try dsimp only)
     (repeat' (split <;> try (rename_i hp; first | (obtain ⟨rfl, rfl⟩ := Prod.ext_iff.mp hp) | (obtain ⟨rfl, hq⟩ := Prod.ext_iff.mp hp; obtain ⟨rfl, rfl⟩ := Prod.ext_iff.mp hq) | (obtain ⟨rfl, hq⟩ := Prod.ext_iff.mp hp; obtain ⟨rfl, _⟩ := Prod.ext_iff.mp hq) | (obtain ⟨_, hq⟩ := Prod.ext_iff.mp hp; obtain ⟨rfl, _⟩ := Prod.ext_iff.mp hq) | (obtain ⟨rfl, _⟩ := Prod.ext_iff.mp hp) | (obtain ⟨_, rfl⟩ := Prod.ext_iff.mp hp)))) <;> first | rfl | (simp; done) | (simp_all; done))

@[simp] theorem applyTimeSets_cells (s : State) :
    (applyTimeSets s).cells = s.cells := by
  unfold applyTimeSets
  first
  | (simp; done)
  | ((try dsimp only)
     (repeat' (split <;> try (rename_i hp; first | (obtain ⟨rfl, rfl⟩ := Prod.ext_iff.mp hp) | (obtain ⟨rfl, hq⟩ := Prod.ext_iff.mp hp; obtain ⟨rfl, rfl⟩ := Prod.ext_iff.mp hq) | (obtain ⟨rfl, hq⟩ := Prod.ext_iff.mp hp; obtain ⟨rfl, _⟩ := Prod.ext_iff.mp hq) | (obtain ⟨_, hq⟩ := Prod.ext_iff.mp hp; obtain ⟨rfl, _⟩ := Prod.ext_iff.mp hq) | (obtain ⟨rfl, _⟩ := Prod.ext_iff.mp hp) | (obtain ⟨_, rfl⟩ := Prod.ext_iff.mp hp)))) <;> first | rfl | (simp; done) | (simp_all; done))

@[simp] theorem applyTimeSets_mem (s : State) :
    (applyTimeSets s).mem = s.mem := by
  unfold applyTimeSets
  first
  | (simp; done)
  | ((try dsimp only)
     (repeat' (split <;> try (rename_i hp; first | (obtain ⟨rfl, rfl⟩ := Prod.ext_iff.mp hp) | (obtain ⟨rfl, hq⟩ := Prod.ext_iff.mp hp; obtain ⟨rfl, rfl⟩ := Prod.ext_iff.mp hq) | (obtain ⟨rfl, hq⟩ := Prod.ext_iff.mp hp; obtain ⟨rfl, _⟩ := Prod.ext_iff.mp hq) | (obtain ⟨_, hq⟩ := Prod.ext_iff.mp hp; obtain ⟨rfl, _⟩ := Prod.ext_iff.mp hq) | (obtain ⟨rfl, _⟩ := Prod.ext_iff.mp hp) | (obtain ⟨_, rfl⟩ := Prod.ext_iff.mp hp)))) <;> first | rfl | (simp; done) | (simp_all; done))

@[simp] theorem applyTimeSets_larder (s : State) :
    (applyTimeSets s).larder = s.larder := by
  unfold applyTimeSets
  first
  | (simp; done)
  | ((try dsimp only)
     (repeat' (split <;> try (rename_i hp; first | (obtain ⟨rfl, rfl⟩ := Prod.ext_iff.mp hp) | (obtain ⟨rfl, hq⟩ := Prod.ext_iff.mp hp; obtain ⟨rfl, rfl⟩ := Prod.ext_iff.mp hq) | (obtain ⟨rfl, hq⟩ := Prod.ext_iff.mp hp; obtain ⟨rfl, _⟩ := Prod.ext_iff.mp hq) | (obtain ⟨_, hq⟩ := Prod.ext_iff.mp hp; obtain ⟨rfl, _⟩ := Prod.ext_iff.mp hq) | (obtain ⟨rfl, _⟩ := Prod.ext_iff.mp hp) | (obtain ⟨_, rfl⟩ := Prod.ext_iff.mp hp)))) <;> first | rfl | (simp; done) | (simp_all; done))

@[simp] theorem applyTimeSets_reg (s : State) :
    (applyTimeSets s).reg = s.reg := by
  unfold applyTimeSets
  first
  | (simp; done)
  | ((try dsimp only)
     (repeat' (split <;> try (rename_i hp; first | (obtain ⟨rfl, rfl⟩ := Prod.ext_iff.mp hp) | (obtain ⟨rfl, hq⟩ := Prod.ext_iff.mp hp; obtain ⟨rfl, rfl⟩ := Prod.ext_iff.mp hq) | (obtain ⟨rfl, hq⟩ := Prod.ext_iff.mp hp; obtain ⟨rfl, _⟩ := Prod.ext_iff.mp hq) | (obtain ⟨_, hq⟩ := Prod.ext_iff.mp hp; obtain ⟨rfl, _⟩ := Prod.ext_iff.mp hq) | (obtain ⟨rfl, _⟩ := Prod.ext_iff.mp hp) | (obtain ⟨_, rfl⟩ := Prod.ext_iff.mp hp)))) <;> first | rfl | (simp; done) | (simp_all; done))

@[simp] theorem applyTimeSets_trans (s : State) :
    (applyTimeSets s).trans = s.trans := by
  unfold applyTimeSets
  first
  | (simp; done)
  | ((try dsimp only)
     (repeat' (split <;> try (rename_i hp; first | (obtain ⟨rfl, rfl⟩ := Prod.ext_iff.mp hp) | (obtain ⟨rfl, hq⟩ := Prod.ext_iff.mp hp; obtain ⟨rfl, rfl⟩ := Prod.ext_iff.mp hq) | (obtain ⟨rfl, hq⟩ := Prod.ext_iff.mp hp; obtain ⟨rfl, _⟩ := Prod.ext_iff.mp hq) | (obtain ⟨_, hq⟩ := Prod.ext_iff.mp hp; obtain ⟨rfl, _⟩ := Prod.ext_iff.mp hq) | (obtain ⟨rfl, _⟩ := Prod.ext_iff.mp hp) | (obtain ⟨_, rfl⟩ := Prod.ext_iff.mp hp)))) <;> first | rfl | (simp; done) | (simp_all; done))

@[simp] theorem applyTimeSets_attic (s : State) :
    (applyTimeSets s).attic = s.attic := by
  unfold applyTimeSets
  first
  | (simp; done)
  | ((try dsimp only)
     (repeat' (split <;> try (rename_i hp; first | (obtain ⟨rfl, rfl⟩ := Prod.ext_iff.mp hp) | (obtain ⟨rfl, hq⟩ := Prod.ext_iff.mp hp; obtain ⟨rfl, rfl⟩ := Prod.ext_iff.mp hq) | (obtain ⟨rfl, hq⟩ := Prod.ext_iff.mp hp; obtain ⟨rfl, _⟩ := Prod.ext_iff.mp hq) | (obtain ⟨_, hq⟩ := Prod.ext_iff.mp hp; obtain ⟨rfl, _⟩ := Prod.ext_iff.mp hq) | (obtain ⟨rfl, _⟩ := Prod.ext_iff.mp hp) | (obtain ⟨_, rfl⟩ := Prod.ext_iff.mp hp)))) <;> first | rfl | (simp; done) | (simp_all; done))

@[simp] theorem applyTimeSets_link (s : State) :
    (applyTimeSets s).link = s.link := by
  unfold applyTimeSets
  first
  | (simp; done)
  | ((try dsimp only)
     (repeat' (split <;> try (rename_i hp; first | (obtain ⟨rfl, rfl⟩ := Prod.ext_iff.mp hp) | (obtain ⟨rfl, hq⟩ := Prod.ext_iff.mp hp; obtain ⟨rfl, rfl⟩ := Prod.ext_iff.mp hq) | (obtain ⟨rfl, hq⟩ := Prod.ext_iff.mp hp; obtain ⟨rfl, _⟩ := Prod.ext_iff.mp hq) | (obtain ⟨_, hq⟩ := Prod.ext_iff.mp hp; obtain ⟨rfl, _⟩ := Prod.ext_iff.mp hq) | (obtain ⟨rfl, _⟩ := Prod.ext_iff.mp hp) | (obtain ⟨_, rfl⟩ := Prod.ext_iff.mp hp)))) <;> first | rfl | (simp; done) | (simp_all; done))

@[simp] theorem applyTimeSets_chord (s : State) :
    (applyTimeSets s).chord = s.chord := by
  unfold applyTimeSets
  first
  | (simp; done)
  | ((try dsimp only)
     (repeat' (split <;> try (rename_i hp; first | (obtain ⟨rfl, rfl⟩ := Prod.ext_iff.mp hp) | (obtain ⟨rfl, hq⟩ := Prod.ext_iff.mp hp; obtain ⟨rfl, rfl⟩ := Prod.ext_iff.mp hq) | (obtain ⟨rfl, hq⟩ := Prod.ext_iff.mp hp; obtain ⟨rfl, _⟩ := Prod.ext_iff.mp hq) | (obtain ⟨_, hq⟩ := Prod.ext_iff.mp hp; obtain ⟨rfl, _⟩ := Prod.ext_iff.mp hq) | (obtain ⟨rfl, _⟩ := Prod.ext_iff.mp hp) | (obtain ⟨_, rfl⟩ := Prod.ext_iff.mp hp)))) <;> first | rfl | (simp; done) | (simp_all; done))

@[simp] theorem applyTimeSets_fresh (s : State) :
    (applyTimeSets s).fresh = s.fresh := by
  unfold applyTimeSets
  first
  | (simp; done)
  | ((try dsimp only)
     (repeat' (split <;> try (rename_i hp; first | (obtain ⟨rfl, rfl⟩ := Prod.ext_iff.mp hp) | (obtain ⟨rfl, hq⟩ := Prod.ext_iff.mp hp; obtain ⟨rfl, rfl⟩ := Prod.ext_iff.mp hq) | (obtain ⟨rfl, hq⟩ := Prod.ext_iff.mp hp; obtain ⟨rfl, _⟩ := Prod.ext_iff.mp hq) | (obtain ⟨_, hq⟩ := Prod.ext_iff.mp hp; obtain ⟨rfl, _⟩ := Prod.ext_iff.mp hq) | (obtain ⟨rfl, _⟩ := Prod.ext_iff.mp hp) | (obtain ⟨_, rfl⟩ := Prod.ext_iff.mp hp)))) <;> first | rfl | (simp; done) | (simp_all; done))

@[simp] theorem applyTimeSets_pending (s : State) :
    (applyTimeSets s).pending = s.pending := by
  unfold applyTimeSets
  first
  | (simp; done)
  | ((try dsimp only)
     (repeat' (split <;> try (rename_i hp; first | (obtain ⟨rfl, rfl⟩ := Prod.ext_iff.mp hp) | (obtain ⟨rfl, hq⟩ := Prod.ext_iff.mp hp; obtain ⟨rfl, rfl⟩ := Prod.ext_iff.mp hq) | (obtain ⟨rfl, hq⟩ := Prod.ext_iff.mp hp; obtain ⟨rfl, _⟩ := Prod.ext_iff.mp hq) | (obtain ⟨_, hq⟩ := Prod.ext_iff.mp hp; obtain ⟨rfl, _⟩ := Prod.ext_iff.mp hq) | (obtain ⟨rfl, _⟩ := Prod.ext_iff.mp hp) | (obtain ⟨_, rfl⟩ := Prod.ext_iff.mp hp)))) <;> first | rfl | (simp; done) | (simp_all; done))

@[simp] theorem restoreReserved_frame (s : State) :
    (restoreReserved s).part = s.part ∧ (restoreReserved s).err = s.err ∧ (restoreReserved s).pwr = s.pwr ∧
    (restoreReserved s).boot = s.boot ∧ (restoreReserved s).cells = s.cells ∧ (restoreReserved s).mem = s.mem ∧
    (restoreReserved s).larder = s.larder ∧ (restoreReserved s).reg = s.reg ∧ (restoreReserved s).trans = s.trans ∧
    (restoreReserved s).attic = s.attic ∧ (restoreReserved s).link = s.link ∧ (restoreReserved s).chord = s.chord ∧
    (restoreReserved s).fresh = s.fresh ∧ (restoreReserved s).pending = s.pending := by
  unfold restoreReserved
  (try dsimp only)
  (repeat' (split <;> try (rename_i hp; first | (obtain ⟨rfl, rfl⟩ := Prod.ext_iff.mp hp) | (obtain ⟨rfl, hq⟩ := Prod.ext_iff.mp hp; obtain ⟨rfl, rfl⟩ := Prod.ext_iff.mp hq) | (obtain ⟨rfl, hq⟩ := Prod.ext_iff.mp hp; obtain ⟨rfl, _⟩ := Prod.ext_iff.mp hq) | (obtain ⟨_, hq⟩ := Prod.ext_iff.mp hp; obtain ⟨rfl, _⟩ := Prod.ext_iff.mp hq) | (obtain ⟨rfl, _⟩ := Prod.ext_iff.mp hp) | (obtain ⟨_, rfl⟩ := Prod.ext_iff.mp hp)))) <;> first | rfl | (simp; done) | (simp_all; done)

@[simp] theorem timeBoundary_frame (s : State) :
    (timeBoundary s).1.part = s.part ∧ (timeBoundary s).1.err = s.err ∧ (timeBoundary s).1.pwr = s.pwr ∧
    (timeBoundary s).1.boot = s.boot ∧ (timeBoundary s).1.cells = s.cells ∧ (timeBoundary s).1.mem = s.mem ∧
    (timeBoundary s).1.larder = s.larder ∧ (timeBoundary s).1.reg = s.reg ∧ (timeBoundary s).1.trans = s.trans ∧
    (timeBoundary s).1.attic = s.attic ∧ (timeBoundary s).1.link = s.link ∧ (timeBoundary s).1.chord = s.chord ∧
    (timeBoundary s).1.fresh = s.fresh ∧ (timeBoundary s).1.pending = s.pending := by
  unfold timeBoundary
  (try dsimp only)
  (repeat' (split <;> try (rename_i hp; first | (obtain ⟨rfl, rfl⟩ := Prod.ext_iff.mp hp) | (obtain ⟨rfl, hq⟩ := Prod.ext_iff.mp hp; obtain ⟨rfl, rfl⟩ := Prod.ext_iff.mp hq) | (obtain ⟨rfl, hq⟩ := Prod.ext_iff.mp hp; obtain ⟨rfl, _⟩ := Prod.ext_iff.mp hq) | (obtain ⟨_, hq⟩ := Prod.ext_iff.mp hp; obtain ⟨rfl, _⟩ := Prod.ext_iff.mp hq) | (obtain ⟨rfl, _⟩ := Prod.ext_iff.mp hp) | (obtain ⟨_, rfl⟩ := Prod.ext_iff.mp hp)))) <;> (try simp) <;> (repeat' apply And.intro) <;> (first | apply forEach_part | apply foldl_part | apply forEachFst_part | apply foldlFst_part | apply forEach_err | apply foldl_err | apply forEachFst_err | apply foldlFst_err | apply forEach_pwr | apply foldl_pwr | apply forEachFst_pwr | apply foldlFst_pwr | apply forEach_boot | apply foldl_boot | apply forEachFst_boot | apply foldlFst_boot | apply forEach_cells | apply foldl_cells | apply forEachFst_cells | apply foldlFst_cells | apply forEach_mem | apply foldl_mem | apply forEachFst_mem | apply foldlFst_mem | apply forEach_larder | apply foldl_larder | apply forEachFst_larder | apply foldlFst_larder | apply forEach_reg | apply foldl_reg | apply forEachFst_reg | apply foldlFst_reg | apply forEach_trans | apply foldl_trans | apply forEachFst_trans | apply foldlFst_trans | apply forEach_attic | apply foldl_attic | apply forEachFst_attic | apply foldlFst_attic | apply forEach_link | apply foldl_link | apply forEachFst_link | apply foldlFst_link | apply forEach_chord | apply foldl_chord | apply forEachFst_chord | apply foldlFst_chord | apply forEach_fresh | apply foldl_fresh | apply forEachFst_fresh | apply foldlFst_fresh | apply forEach_pending | apply foldl_pending | apply forEachFst_pending | apply foldlFst_pending) <;> intro _ _ <;> (try dsimp only) <;> (repeat' (split <;> try (rename_i hp; first | (obtain ⟨rfl, rfl⟩ := Prod.ext_iff.mp hp) | (obtain ⟨rfl, hq⟩ := Prod.ext_iff.mp hp; obtain ⟨rfl, rfl⟩ := Prod.ext_iff.mp hq) | (obtain ⟨rfl, hq⟩ := Prod.ext_iff.mp hp; obtain ⟨rfl, _⟩ := Prod.ext_iff.mp hq) | (obtain ⟨_, hq⟩ := Prod.ext_iff.mp hp; obtain ⟨rfl, _⟩ := Prod.ext_iff.mp hq) | (obtain ⟨rfl, _⟩ := Prod.ext_iff.mp hp) | (obtain ⟨_, rfl⟩ := Prod.ext_iff.mp hp)))) <;> first | rfl | (simp; done) | (simp_all; done)

end Sys2Proof.Machine
end

