-- ==== Sys2Proof/Laws/FrameMem.lean ====
section
/-! SUPPORT. What each operation of Machine/Mem.lean leaves as it was, by component of the state. -/
set_option maxRecDepth 4000
set_option exponentiation.threshold 2000
namespace Sys2Proof.Machine

@[simp] theorem modBytes_frame (s : State) (f : Memory → Memory) :
    (modBytes s f).time = s.time ∧ (modBytes s f).cp = s.cp ∧ (modBytes s f).part = s.part ∧
    (modBytes s f).err = s.err ∧ (modBytes s f).pwr = s.pwr ∧ (modBytes s f).mgmt = s.mgmt ∧
    (modBytes s f).boot = s.boot ∧ (modBytes s f).cells = s.cells ∧ (modBytes s f).larder = s.larder ∧
    (modBytes s f).reg = s.reg ∧ (modBytes s f).trans = s.trans ∧ (modBytes s f).attic = s.attic ∧
    (modBytes s f).link = s.link ∧ (modBytes s f).chord = s.chord ∧ (modBytes s f).fresh = s.fresh ∧
    (modBytes s f).out = s.out ∧ (modBytes s f).pending = s.pending := by
  unfold modBytes
  simp

@[simp] theorem putLine_frame (s : State) (line : Nat) (b : Tab Byte) :
    (putLine s line b).time = s.time ∧ (putLine s line b).cp = s.cp ∧ (putLine s line b).part = s.part ∧
    (putLine s line b).err = s.err ∧ (putLine s line b).pwr = s.pwr ∧ (putLine s line b).mgmt = s.mgmt ∧
    (putLine s line b).boot = s.boot ∧ (putLine s line b).cells = s.cells ∧ (putLine s line b).larder = s.larder ∧
    (putLine s line b).reg = s.reg ∧ (putLine s line b).trans = s.trans ∧ (putLine s line b).attic = s.attic ∧
    (putLine s line b).link = s.link ∧ (putLine s line b).chord = s.chord ∧ (putLine s line b).fresh = s.fresh ∧
    (putLine s line b).out = s.out ∧ (putLine s line b).pending = s.pending := by
  unfold putLine
  simp

@[simp] theorem zeroBytes_frame (s : State) (base len : Nat) :
    (zeroBytes s base len).time = s.time ∧ (zeroBytes s base len).cp = s.cp ∧ (zeroBytes s base len).part = s.part ∧
    (zeroBytes s base len).err = s.err ∧ (zeroBytes s base len).pwr = s.pwr ∧ (zeroBytes s base len).mgmt = s.mgmt ∧
    (zeroBytes s base len).boot = s.boot ∧ (zeroBytes s base len).cells = s.cells ∧
    (zeroBytes s base len).larder = s.larder ∧ (zeroBytes s base len).reg = s.reg ∧
    (zeroBytes s base len).trans = s.trans ∧ (zeroBytes s base len).attic = s.attic ∧
    (zeroBytes s base len).link = s.link ∧ (zeroBytes s base len).chord = s.chord ∧
    (zeroBytes s base len).fresh = s.fresh ∧ (zeroBytes s base len).out = s.out ∧
    (zeroBytes s base len).pending = s.pending := by
  unfold zeroBytes
  simp

@[simp] theorem setPoison_frame (s : State) (u n : Nat) (on : Bool) :
    (setPoison s u n on).time = s.time ∧ (setPoison s u n on).cp = s.cp ∧ (setPoison s u n on).part = s.part ∧
    (setPoison s u n on).err = s.err ∧ (setPoison s u n on).pwr = s.pwr ∧ (setPoison s u n on).mgmt = s.mgmt ∧
    (setPoison s u n on).boot = s.boot ∧ (setPoison s u n on).cells = s.cells ∧
    (setPoison s u n on).larder = s.larder ∧ (setPoison s u n on).reg = s.reg ∧ (setPoison s u n on).trans = s.trans ∧
    (setPoison s u n on).attic = s.attic ∧ (setPoison s u n on).link = s.link ∧ (setPoison s u n on).chord = s.chord ∧
    (setPoison s u n on).fresh = s.fresh ∧ (setPoison s u n on).out = s.out ∧
    (setPoison s u n on).pending = s.pending := by
  unfold setPoison
  simp

@[simp] theorem modCore_frame (s : State) (k : Nat) (f : Core → Core) :
    (modCore s k f).time = s.time ∧ (modCore s k f).cp = s.cp ∧ (modCore s k f).part = s.part ∧
    (modCore s k f).err = s.err ∧ (modCore s k f).pwr = s.pwr ∧ (modCore s k f).mgmt = s.mgmt ∧
    (modCore s k f).boot = s.boot ∧ (modCore s k f).mem = s.mem ∧ (modCore s k f).larder = s.larder ∧
    (modCore s k f).reg = s.reg ∧ (modCore s k f).trans = s.trans ∧ (modCore s k f).attic = s.attic ∧
    (modCore s k f).link = s.link ∧ (modCore s k f).chord = s.chord ∧ (modCore s k f).fresh = s.fresh ∧
    (modCore s k f).out = s.out ∧ (modCore s k f).pending = s.pending := by
  unfold modCore
  simp

@[simp] theorem modCellar_frame (s : State) (c : Nat) (f : Cellar → Cellar) :
    (modCellar s c f).time = s.time ∧ (modCellar s c f).cp = s.cp ∧ (modCellar s c f).part = s.part ∧
    (modCellar s c f).err = s.err ∧ (modCellar s c f).pwr = s.pwr ∧ (modCellar s c f).mgmt = s.mgmt ∧
    (modCellar s c f).boot = s.boot ∧ (modCellar s c f).mem = s.mem ∧ (modCellar s c f).larder = s.larder ∧
    (modCellar s c f).reg = s.reg ∧ (modCellar s c f).trans = s.trans ∧ (modCellar s c f).attic = s.attic ∧
    (modCellar s c f).link = s.link ∧ (modCellar s c f).chord = s.chord ∧ (modCellar s c f).fresh = s.fresh ∧
    (modCellar s c f).out = s.out ∧ (modCellar s c f).pending = s.pending := by
  unfold modCellar
  simp

@[simp] theorem modShelf_frame (s : State) (n : Nat) (f : Shelf → Shelf) :
    (modShelf s n f).time = s.time ∧ (modShelf s n f).cp = s.cp ∧ (modShelf s n f).part = s.part ∧
    (modShelf s n f).err = s.err ∧ (modShelf s n f).pwr = s.pwr ∧ (modShelf s n f).mgmt = s.mgmt ∧
    (modShelf s n f).boot = s.boot ∧ (modShelf s n f).cells = s.cells ∧ (modShelf s n f).larder = s.larder ∧
    (modShelf s n f).reg = s.reg ∧ (modShelf s n f).trans = s.trans ∧ (modShelf s n f).attic = s.attic ∧
    (modShelf s n f).link = s.link ∧ (modShelf s n f).chord = s.chord ∧ (modShelf s n f).fresh = s.fresh ∧
    (modShelf s n f).out = s.out ∧ (modShelf s n f).pending = s.pending := by
  unfold modShelf
  simp

@[simp] theorem modFar_frame (s : State) (p : Nat) (f : FarPort → FarPort) :
    (modFar s p f).time = s.time ∧ (modFar s p f).cp = s.cp ∧ (modFar s p f).part = s.part ∧
    (modFar s p f).err = s.err ∧ (modFar s p f).pwr = s.pwr ∧ (modFar s p f).mgmt = s.mgmt ∧
    (modFar s p f).boot = s.boot ∧ (modFar s p f).cells = s.cells ∧ (modFar s p f).larder = s.larder ∧
    (modFar s p f).reg = s.reg ∧ (modFar s p f).trans = s.trans ∧ (modFar s p f).attic = s.attic ∧
    (modFar s p f).link = s.link ∧ (modFar s p f).chord = s.chord ∧ (modFar s p f).fresh = s.fresh ∧
    (modFar s p f).out = s.out ∧ (modFar s p f).pending = s.pending := by
  unfold modFar
  simp

@[simp] theorem modSite_frame (s : State) (n : Nat) (f : Site → Site) :
    (modSite s n f).time = s.time ∧ (modSite s n f).cp = s.cp ∧ (modSite s n f).part = s.part ∧
    (modSite s n f).err = s.err ∧ (modSite s n f).pwr = s.pwr ∧ (modSite s n f).mgmt = s.mgmt ∧
    (modSite s n f).boot = s.boot ∧ (modSite s n f).cells = s.cells ∧ (modSite s n f).mem = s.mem ∧
    (modSite s n f).larder = s.larder ∧ (modSite s n f).reg = s.reg ∧ (modSite s n f).trans = s.trans ∧
    (modSite s n f).link = s.link ∧ (modSite s n f).chord = s.chord ∧ (modSite s n f).fresh = s.fresh ∧
    (modSite s n f).out = s.out ∧ (modSite s n f).pending = s.pending := by
  unfold modSite
  simp

@[simp] theorem wakeShelf_frame (s : State) (n : Nat) :
    (wakeShelf s n).time = s.time ∧ (wakeShelf s n).cp = s.cp ∧ (wakeShelf s n).part = s.part ∧
    (wakeShelf s n).err = s.err ∧ (wakeShelf s n).mgmt = s.mgmt ∧ (wakeShelf s n).boot = s.boot ∧
    (wakeShelf s n).cells = s.cells ∧ (wakeShelf s n).mem = s.mem ∧ (wakeShelf s n).larder = s.larder ∧
    (wakeShelf s n).reg = s.reg ∧ (wakeShelf s n).trans = s.trans ∧ (wakeShelf s n).attic = s.attic ∧
    (wakeShelf s n).link = s.link ∧ (wakeShelf s n).chord = s.chord ∧ (wakeShelf s n).fresh = s.fresh ∧
    (wakeShelf s n).out = s.out ∧ (wakeShelf s n).pending = s.pending := by
  unfold wakeShelf
  simp

@[simp] theorem cxlMem_frame (s : State) (a : Nat) (write : Bool) :
    (cxlMem s a write).time = s.time ∧ (cxlMem s a write).cp = s.cp ∧ (cxlMem s a write).part = s.part ∧
    (cxlMem s a write).err = s.err ∧ (cxlMem s a write).pwr = s.pwr ∧ (cxlMem s a write).mgmt = s.mgmt ∧
    (cxlMem s a write).boot = s.boot ∧ (cxlMem s a write).cells = s.cells ∧ (cxlMem s a write).mem = s.mem ∧
    (cxlMem s a write).larder = s.larder ∧ (cxlMem s a write).reg = s.reg ∧ (cxlMem s a write).trans = s.trans ∧
    (cxlMem s a write).attic = s.attic ∧ (cxlMem s a write).link = s.link ∧ (cxlMem s a write).chord = s.chord ∧
    (cxlMem s a write).fresh = s.fresh ∧ (cxlMem s a write).pending = s.pending := by
  unfold cxlMem
  (try dsimp only)
  (repeat' (split <;> try (rename_i hp; first | (obtain ⟨rfl, rfl⟩ := Prod.ext_iff.mp hp) | (obtain ⟨rfl, hq⟩ := Prod.ext_iff.mp hp; obtain ⟨rfl, rfl⟩ := Prod.ext_iff.mp hq) | (obtain ⟨rfl, hq⟩ := Prod.ext_iff.mp hp; obtain ⟨rfl, _⟩ := Prod.ext_iff.mp hq) | (obtain ⟨_, hq⟩ := Prod.ext_iff.mp hp; obtain ⟨rfl, _⟩ := Prod.ext_iff.mp hq) | (obtain ⟨rfl, _⟩ := Prod.ext_iff.mp hp) | (obtain ⟨_, rfl⟩ := Prod.ext_iff.mp hp)))) <;> first | rfl | (simp; done) | (simp_all; done)

@[simp] theorem countRefused_frame (s : State) (tag : Nat) (r : Access) :
    (countRefused s tag r).time = s.time ∧ (countRefused s tag r).cp = s.cp ∧ (countRefused s tag r).err = s.err ∧
    (countRefused s tag r).pwr = s.pwr ∧ (countRefused s tag r).mgmt = s.mgmt ∧ (countRefused s tag r).boot = s.boot ∧
    (countRefused s tag r).cells = s.cells ∧ (countRefused s tag r).mem = s.mem ∧
    (countRefused s tag r).larder = s.larder ∧ (countRefused s tag r).reg = s.reg ∧
    (countRefused s tag r).trans = s.trans ∧ (countRefused s tag r).attic = s.attic ∧
    (countRefused s tag r).link = s.link ∧ (countRefused s tag r).chord = s.chord ∧
    (countRefused s tag r).fresh = s.fresh ∧ (countRefused s tag r).out = s.out ∧
    (countRefused s tag r).pending = s.pending := by
  unfold countRefused
  simp

@[simp] theorem modWcb_frame (s : State) (h : Home) (f : List WcbEntry → List WcbEntry) :
    (modWcb s h f).time = s.time ∧ (modWcb s h f).cp = s.cp ∧ (modWcb s h f).part = s.part ∧
    (modWcb s h f).err = s.err ∧ (modWcb s h f).pwr = s.pwr ∧ (modWcb s h f).mgmt = s.mgmt ∧
    (modWcb s h f).boot = s.boot ∧ (modWcb s h f).cells = s.cells ∧ (modWcb s h f).larder = s.larder ∧
    (modWcb s h f).reg = s.reg ∧ (modWcb s h f).trans = s.trans ∧ (modWcb s h f).attic = s.attic ∧
    (modWcb s h f).link = s.link ∧ (modWcb s h f).chord = s.chord ∧ (modWcb s h f).fresh = s.fresh ∧
    (modWcb s h f).out = s.out ∧ (modWcb s h f).pending = s.pending := by
  unfold modWcb
  (try dsimp only)
  (repeat' (split <;> try (rename_i hp; first | (obtain ⟨rfl, rfl⟩ := Prod.ext_iff.mp hp) | (obtain ⟨rfl, hq⟩ := Prod.ext_iff.mp hp; obtain ⟨rfl, rfl⟩ := Prod.ext_iff.mp hq) | (obtain ⟨rfl, hq⟩ := Prod.ext_iff.mp hp; obtain ⟨rfl, _⟩ := Prod.ext_iff.mp hq) | (obtain ⟨_, hq⟩ := Prod.ext_iff.mp hp; obtain ⟨rfl, _⟩ := Prod.ext_iff.mp hq) | (obtain ⟨rfl, _⟩ := Prod.ext_iff.mp hp) | (obtain ⟨_, rfl⟩ := Prod.ext_iff.mp hp)))) <;> first | rfl | (simp; done) | (simp_all; done)

@[simp] theorem flushHalf_frame (s : State) (e : WcbEntry) (h : Nat) :
    (flushHalf s e h).time = s.time ∧ (flushHalf s e h).cp = s.cp ∧ (flushHalf s e h).part = s.part ∧
    (flushHalf s e h).err = s.err ∧ (flushHalf s e h).pwr = s.pwr ∧ (flushHalf s e h).mgmt = s.mgmt ∧
    (flushHalf s e h).boot = s.boot ∧ (flushHalf s e h).cells = s.cells ∧ (flushHalf s e h).larder = s.larder ∧
    (flushHalf s e h).reg = s.reg ∧ (flushHalf s e h).trans = s.trans ∧ (flushHalf s e h).attic = s.attic ∧
    (flushHalf s e h).link = s.link ∧ (flushHalf s e h).chord = s.chord ∧ (flushHalf s e h).fresh = s.fresh ∧
    (flushHalf s e h).out = s.out ∧ (flushHalf s e h).pending = s.pending := by
  unfold flushHalf
  simp

@[simp] theorem flushEntry_frame (s : State) (home : Home) (e : WcbEntry) :
    (flushEntry s home e).time = s.time ∧ (flushEntry s home e).cp = s.cp ∧ (flushEntry s home e).part = s.part ∧
    (flushEntry s home e).err = s.err ∧ (flushEntry s home e).pwr = s.pwr ∧ (flushEntry s home e).mgmt = s.mgmt ∧
    (flushEntry s home e).boot = s.boot ∧ (flushEntry s home e).cells = s.cells ∧
    (flushEntry s home e).larder = s.larder ∧ (flushEntry s home e).reg = s.reg ∧
    (flushEntry s home e).trans = s.trans ∧ (flushEntry s home e).attic = s.attic ∧
    (flushEntry s home e).link = s.link ∧ (flushEntry s home e).chord = s.chord ∧
    (flushEntry s home e).fresh = s.fresh ∧ (flushEntry s home e).pending = s.pending := by
  unfold flushEntry
  simp

@[simp] theorem beginFlush_frame (s : State) (home : Home) (e : WcbEntry) :
    (beginFlush s home e).time = s.time ∧ (beginFlush s home e).cp = s.cp ∧ (beginFlush s home e).part = s.part ∧
    (beginFlush s home e).err = s.err ∧ (beginFlush s home e).pwr = s.pwr ∧ (beginFlush s home e).mgmt = s.mgmt ∧
    (beginFlush s home e).boot = s.boot ∧ (beginFlush s home e).cells = s.cells ∧
    (beginFlush s home e).larder = s.larder ∧ (beginFlush s home e).reg = s.reg ∧
    (beginFlush s home e).trans = s.trans ∧ (beginFlush s home e).attic = s.attic ∧
    (beginFlush s home e).link = s.link ∧ (beginFlush s home e).chord = s.chord ∧
    (beginFlush s home e).fresh = s.fresh ∧ (beginFlush s home e).out = s.out ∧
    (beginFlush s home e).pending = s.pending := by
  unfold beginFlush
  simp

@[simp] theorem flushWcb_frame (s : State) (home : Home) :
    (flushWcb s home).time = s.time ∧ (flushWcb s home).cp = s.cp ∧ (flushWcb s home).part = s.part ∧
    (flushWcb s home).err = s.err ∧ (flushWcb s home).pwr = s.pwr ∧ (flushWcb s home).mgmt = s.mgmt ∧
    (flushWcb s home).boot = s.boot ∧ (flushWcb s home).cells = s.cells ∧ (flushWcb s home).larder = s.larder ∧
    (flushWcb s home).reg = s.reg ∧ (flushWcb s home).trans = s.trans ∧ (flushWcb s home).attic = s.attic ∧
    (flushWcb s home).link = s.link ∧ (flushWcb s home).chord = s.chord ∧ (flushWcb s home).fresh = s.fresh ∧
    (flushWcb s home).out = s.out ∧ (flushWcb s home).pending = s.pending := by
  unfold flushWcb
  simp

@[simp] theorem wcbAllocate_frame (s : State) (home : Home) (line : Nat) :
    (wcbAllocate s home line).time = s.time ∧ (wcbAllocate s home line).cp = s.cp ∧
    (wcbAllocate s home line).part = s.part ∧ (wcbAllocate s home line).err = s.err ∧
    (wcbAllocate s home line).pwr = s.pwr ∧ (wcbAllocate s home line).mgmt = s.mgmt ∧
    (wcbAllocate s home line).boot = s.boot ∧ (wcbAllocate s home line).cells = s.cells ∧
    (wcbAllocate s home line).larder = s.larder ∧ (wcbAllocate s home line).reg = s.reg ∧
    (wcbAllocate s home line).trans = s.trans ∧ (wcbAllocate s home line).attic = s.attic ∧
    (wcbAllocate s home line).link = s.link ∧ (wcbAllocate s home line).chord = s.chord ∧
    (wcbAllocate s home line).fresh = s.fresh ∧ (wcbAllocate s home line).out = s.out ∧
    (wcbAllocate s home line).pending = s.pending := by
  unfold wcbAllocate
  (try dsimp only)
  (repeat' (split <;> try (rename_i hp; first | (obtain ⟨rfl, rfl⟩ := Prod.ext_iff.mp hp) | (obtain ⟨rfl, hq⟩ := Prod.ext_iff.mp hp; obtain ⟨rfl, rfl⟩ := Prod.ext_iff.mp hq) | (obtain ⟨rfl, hq⟩ := Prod.ext_iff.mp hp; obtain ⟨rfl, _⟩ := Prod.ext_iff.mp hq) | (obtain ⟨_, hq⟩ := Prod.ext_iff.mp hp; obtain ⟨rfl, _⟩ := Prod.ext_iff.mp hq) | (obtain ⟨rfl, _⟩ := Prod.ext_iff.mp hp) | (obtain ⟨_, rfl⟩ := Prod.ext_iff.mp hp)))) <;> first | rfl | (simp; done) | (simp_all; done)

@[simp] theorem wcbMerge_frame (s : State) (home : Home) (line : Nat) (b : Tab Byte) (pz : Nat) :
    (wcbMerge s home line b pz).time = s.time ∧ (wcbMerge s home line b pz).cp = s.cp ∧
    (wcbMerge s home line b pz).part = s.part ∧ (wcbMerge s home line b pz).err = s.err ∧
    (wcbMerge s home line b pz).pwr = s.pwr ∧ (wcbMerge s home line b pz).mgmt = s.mgmt ∧
    (wcbMerge s home line b pz).boot = s.boot ∧ (wcbMerge s home line b pz).cells = s.cells ∧
    (wcbMerge s home line b pz).larder = s.larder ∧ (wcbMerge s home line b pz).reg = s.reg ∧
    (wcbMerge s home line b pz).trans = s.trans ∧ (wcbMerge s home line b pz).attic = s.attic ∧
    (wcbMerge s home line b pz).link = s.link ∧ (wcbMerge s home line b pz).chord = s.chord ∧
    (wcbMerge s home line b pz).fresh = s.fresh ∧ (wcbMerge s home line b pz).pending = s.pending := by
  unfold wcbMerge
  (try dsimp only)
  (repeat' (split <;> try (rename_i hp; first | (obtain ⟨rfl, rfl⟩ := Prod.ext_iff.mp hp) | (obtain ⟨rfl, hq⟩ := Prod.ext_iff.mp hp; obtain ⟨rfl, rfl⟩ := Prod.ext_iff.mp hq) | (obtain ⟨rfl, hq⟩ := Prod.ext_iff.mp hp; obtain ⟨rfl, _⟩ := Prod.ext_iff.mp hq) | (obtain ⟨_, hq⟩ := Prod.ext_iff.mp hp; obtain ⟨rfl, _⟩ := Prod.ext_iff.mp hq) | (obtain ⟨rfl, _⟩ := Prod.ext_iff.mp hp) | (obtain ⟨_, rfl⟩ := Prod.ext_iff.mp hp)))) <;> first | rfl | (simp; done) | (simp_all; done)

@[simp] theorem halfWrite_frame (s : State) (home : Home) (line h : Nat) (b : Tab Byte) (pz : Bool) :
    (halfWrite s home line h b pz).time = s.time ∧ (halfWrite s home line h b pz).cp = s.cp ∧
    (halfWrite s home line h b pz).part = s.part ∧ (halfWrite s home line h b pz).err = s.err ∧
    (halfWrite s home line h b pz).pwr = s.pwr ∧ (halfWrite s home line h b pz).mgmt = s.mgmt ∧
    (halfWrite s home line h b pz).boot = s.boot ∧ (halfWrite s home line h b pz).cells = s.cells ∧
    (halfWrite s home line h b pz).larder = s.larder ∧ (halfWrite s home line h b pz).reg = s.reg ∧
    (halfWrite s home line h b pz).trans = s.trans ∧ (halfWrite s home line h b pz).attic = s.attic ∧
    (halfWrite s home line h b pz).link = s.link ∧ (halfWrite s home line h b pz).chord = s.chord ∧
    (halfWrite s home line h b pz).fresh = s.fresh ∧ (halfWrite s home line h b pz).pending = s.pending := by
  unfold halfWrite
  simp

@[simp] theorem lineWrite_frame (s : State) (home : Home) (line : Nat) (b : Tab Byte) (pz : Nat) :
    (lineWrite s home line b pz).time = s.time ∧ (lineWrite s home line b pz).cp = s.cp ∧
    (lineWrite s home line b pz).part = s.part ∧ (lineWrite s home line b pz).err = s.err ∧
    (lineWrite s home line b pz).pwr = s.pwr ∧ (lineWrite s home line b pz).mgmt = s.mgmt ∧
    (lineWrite s home line b pz).boot = s.boot ∧ (lineWrite s home line b pz).cells = s.cells ∧
    (lineWrite s home line b pz).larder = s.larder ∧ (lineWrite s home line b pz).reg = s.reg ∧
    (lineWrite s home line b pz).trans = s.trans ∧ (lineWrite s home line b pz).attic = s.attic ∧
    (lineWrite s home line b pz).link = s.link ∧ (lineWrite s home line b pz).chord = s.chord ∧
    (lineWrite s home line b pz).fresh = s.fresh ∧ (lineWrite s home line b pz).pending = s.pending := by
  unfold lineWrite
  simp

@[simp] theorem scratchWrite_frame (s : State) (line : Nat) (b : Tab Byte) (pz : Nat) :
    (scratchWrite s line b pz).time = s.time ∧ (scratchWrite s line b pz).cp = s.cp ∧
    (scratchWrite s line b pz).part = s.part ∧ (scratchWrite s line b pz).err = s.err ∧
    (scratchWrite s line b pz).pwr = s.pwr ∧ (scratchWrite s line b pz).mgmt = s.mgmt ∧
    (scratchWrite s line b pz).boot = s.boot ∧ (scratchWrite s line b pz).cells = s.cells ∧
    (scratchWrite s line b pz).larder = s.larder ∧ (scratchWrite s line b pz).reg = s.reg ∧
    (scratchWrite s line b pz).trans = s.trans ∧ (scratchWrite s line b pz).attic = s.attic ∧
    (scratchWrite s line b pz).link = s.link ∧ (scratchWrite s line b pz).chord = s.chord ∧
    (scratchWrite s line b pz).fresh = s.fresh ∧ (scratchWrite s line b pz).out = s.out ∧
    (scratchWrite s line b pz).pending = s.pending := by
  unfold scratchWrite
  simp

@[simp] theorem coreScratchWrite_frame (s : State) (k line : Nat) (b : Tab Byte) (pz : Nat) :
    (coreScratchWrite s k line b pz).time = s.time ∧ (coreScratchWrite s k line b pz).cp = s.cp ∧
    (coreScratchWrite s k line b pz).part = s.part ∧ (coreScratchWrite s k line b pz).err = s.err ∧
    (coreScratchWrite s k line b pz).pwr = s.pwr ∧ (coreScratchWrite s k line b pz).mgmt = s.mgmt ∧
    (coreScratchWrite s k line b pz).boot = s.boot ∧ (coreScratchWrite s k line b pz).mem = s.mem ∧
    (coreScratchWrite s k line b pz).larder = s.larder ∧ (coreScratchWrite s k line b pz).reg = s.reg ∧
    (coreScratchWrite s k line b pz).trans = s.trans ∧ (coreScratchWrite s k line b pz).attic = s.attic ∧
    (coreScratchWrite s k line b pz).link = s.link ∧ (coreScratchWrite s k line b pz).chord = s.chord ∧
    (coreScratchWrite s k line b pz).fresh = s.fresh ∧ (coreScratchWrite s k line b pz).out = s.out ∧
    (coreScratchWrite s k line b pz).pending = s.pending := by
  unfold coreScratchWrite
  simp

@[simp] theorem writeLine_frame (s : State) (line : Nat) (b : Tab Byte) (pz : Nat) :
    (writeLine s line b pz).time = s.time ∧ (writeLine s line b pz).cp = s.cp ∧
    (writeLine s line b pz).part = s.part ∧ (writeLine s line b pz).err = s.err ∧
    (writeLine s line b pz).pwr = s.pwr ∧ (writeLine s line b pz).mgmt = s.mgmt ∧
    (writeLine s line b pz).boot = s.boot ∧ (writeLine s line b pz).larder = s.larder ∧
    (writeLine s line b pz).reg = s.reg ∧ (writeLine s line b pz).trans = s.trans ∧
    (writeLine s line b pz).attic = s.attic ∧ (writeLine s line b pz).link = s.link ∧
    (writeLine s line b pz).chord = s.chord ∧ (writeLine s line b pz).fresh = s.fresh ∧
    (writeLine s line b pz).pending = s.pending := by
  unfold writeLine
  (try dsimp only)
  (repeat' (split <;> try (rename_i hp; first | (obtain ⟨rfl, rfl⟩ := Prod.ext_iff.mp hp) | (obtain ⟨rfl, hq⟩ := Prod.ext_iff.mp hp; obtain ⟨rfl, rfl⟩ := Prod.ext_iff.mp hq) | (obtain ⟨rfl, hq⟩ := Prod.ext_iff.mp hp; obtain ⟨rfl, _⟩ := Prod.ext_iff.mp hq) | (obtain ⟨_, hq⟩ := Prod.ext_iff.mp hp; obtain ⟨rfl, _⟩ := Prod.ext_iff.mp hq) | (obtain ⟨rfl, _⟩ := Prod.ext_iff.mp hp) | (obtain ⟨_, rfl⟩ := Prod.ext_iff.mp hp)))) <;> first | rfl | (simp; done) | (simp_all; done)

@[simp] theorem writeBytes_frame (s : State) (a : Nat) (b : Bytes) :
    (writeBytes s a b).time = s.time ∧ (writeBytes s a b).cp = s.cp ∧ (writeBytes s a b).part = s.part ∧
    (writeBytes s a b).err = s.err ∧ (writeBytes s a b).pwr = s.pwr ∧ (writeBytes s a b).mgmt = s.mgmt ∧
    (writeBytes s a b).boot = s.boot ∧ (writeBytes s a b).larder = s.larder ∧ (writeBytes s a b).reg = s.reg ∧
    (writeBytes s a b).trans = s.trans ∧ (writeBytes s a b).attic = s.attic ∧ (writeBytes s a b).link = s.link ∧
    (writeBytes s a b).chord = s.chord ∧ (writeBytes s a b).fresh = s.fresh ∧
    (writeBytes s a b).pending = s.pending := by
  unfold writeBytes
  simp

@[simp] theorem writePoisoned_frame (s : State) (a : Nat) (b : Bytes) (pz : Nat → Bool) :
    (writePoisoned s a b pz).time = s.time ∧ (writePoisoned s a b pz).cp = s.cp ∧
    (writePoisoned s a b pz).part = s.part ∧ (writePoisoned s a b pz).err = s.err ∧
    (writePoisoned s a b pz).pwr = s.pwr ∧ (writePoisoned s a b pz).mgmt = s.mgmt ∧
    (writePoisoned s a b pz).boot = s.boot ∧ (writePoisoned s a b pz).larder = s.larder ∧
    (writePoisoned s a b pz).reg = s.reg ∧ (writePoisoned s a b pz).trans = s.trans ∧
    (writePoisoned s a b pz).attic = s.attic ∧ (writePoisoned s a b pz).link = s.link ∧
    (writePoisoned s a b pz).chord = s.chord ∧ (writePoisoned s a b pz).fresh = s.fresh ∧
    (writePoisoned s a b pz).pending = s.pending := by
  unfold writePoisoned
  simp

@[simp] theorem writePoisonRange_frame (s : State) (a n : Nat) :
    (writePoisonRange s a n).time = s.time ∧ (writePoisonRange s a n).cp = s.cp ∧
    (writePoisonRange s a n).part = s.part ∧ (writePoisonRange s a n).err = s.err ∧
    (writePoisonRange s a n).pwr = s.pwr ∧ (writePoisonRange s a n).mgmt = s.mgmt ∧
    (writePoisonRange s a n).boot = s.boot ∧ (writePoisonRange s a n).larder = s.larder ∧
    (writePoisonRange s a n).reg = s.reg ∧ (writePoisonRange s a n).trans = s.trans ∧
    (writePoisonRange s a n).attic = s.attic ∧ (writePoisonRange s a n).link = s.link ∧
    (writePoisonRange s a n).chord = s.chord ∧ (writePoisonRange s a n).fresh = s.fresh ∧
    (writePoisonRange s a n).pending = s.pending := by
  unfold writePoisonRange
  simp

@[simp] theorem sendAtp_frame (s : State) (site : Nat) (m : AtpMsg) :
    (sendAtp s site m).time = s.time ∧ (sendAtp s site m).cp = s.cp ∧ (sendAtp s site m).part = s.part ∧
    (sendAtp s site m).err = s.err ∧ (sendAtp s site m).pwr = s.pwr ∧ (sendAtp s site m).mgmt = s.mgmt ∧
    (sendAtp s site m).boot = s.boot ∧ (sendAtp s site m).cells = s.cells ∧ (sendAtp s site m).mem = s.mem ∧
    (sendAtp s site m).larder = s.larder ∧ (sendAtp s site m).reg = s.reg ∧ (sendAtp s site m).trans = s.trans ∧
    (sendAtp s site m).attic = s.attic ∧ (sendAtp s site m).link = s.link ∧ (sendAtp s site m).chord = s.chord ∧
    (sendAtp s site m).fresh = s.fresh ∧ (sendAtp s site m).pending = s.pending := by
  unfold sendAtp
  simp

@[simp] theorem sendSnoop_frame (s : State) (line key : Nat) (inval : Bool) :
    (sendSnoop s line key inval).time = s.time ∧ (sendSnoop s line key inval).cp = s.cp ∧
    (sendSnoop s line key inval).part = s.part ∧ (sendSnoop s line key inval).err = s.err ∧
    (sendSnoop s line key inval).pwr = s.pwr ∧ (sendSnoop s line key inval).mgmt = s.mgmt ∧
    (sendSnoop s line key inval).boot = s.boot ∧ (sendSnoop s line key inval).cells = s.cells ∧
    (sendSnoop s line key inval).mem = s.mem ∧ (sendSnoop s line key inval).larder = s.larder ∧
    (sendSnoop s line key inval).reg = s.reg ∧ (sendSnoop s line key inval).trans = s.trans ∧
    (sendSnoop s line key inval).attic = s.attic ∧ (sendSnoop s line key inval).link = s.link ∧
    (sendSnoop s line key inval).chord = s.chord ∧ (sendSnoop s line key inval).fresh = s.fresh ∧
    (sendSnoop s line key inval).pending = s.pending := by
  unfold sendSnoop
  simp

@[simp] theorem startSnoop_frame (s : State) (line : Nat) (sites : List Nat) (inval : Bool) (txn : Option Nat) :
    (startSnoop s line sites inval txn).time = s.time ∧ (startSnoop s line sites inval txn).cp = s.cp ∧
    (startSnoop s line sites inval txn).part = s.part ∧ (startSnoop s line sites inval txn).err = s.err ∧
    (startSnoop s line sites inval txn).pwr = s.pwr ∧ (startSnoop s line sites inval txn).mgmt = s.mgmt ∧
    (startSnoop s line sites inval txn).boot = s.boot ∧ (startSnoop s line sites inval txn).cells = s.cells ∧
    (startSnoop s line sites inval txn).mem = s.mem ∧ (startSnoop s line sites inval txn).larder = s.larder ∧
    (startSnoop s line sites inval txn).reg = s.reg ∧ (startSnoop s line sites inval txn).trans = s.trans ∧
    (startSnoop s line sites inval txn).link = s.link ∧ (startSnoop s line sites inval txn).chord = s.chord ∧
    (startSnoop s line sites inval txn).fresh = s.fresh ∧
    (startSnoop s line sites inval txn).pending = s.pending := by
  unfold startSnoop
  simp

@[simp] theorem snoopLine_frame (s : State) (line : Nat) (write : Bool) (self who : Option Nat) :
    (snoopLine s line write self who).1.time = s.time ∧ (snoopLine s line write self who).1.cp = s.cp ∧
    (snoopLine s line write self who).1.part = s.part ∧ (snoopLine s line write self who).1.err = s.err ∧
    (snoopLine s line write self who).1.pwr = s.pwr ∧ (snoopLine s line write self who).1.mgmt = s.mgmt ∧
    (snoopLine s line write self who).1.boot = s.boot ∧ (snoopLine s line write self who).1.cells = s.cells ∧
    (snoopLine s line write self who).1.mem = s.mem ∧ (snoopLine s line write self who).1.larder = s.larder ∧
    (snoopLine s line write self who).1.reg = s.reg ∧ (snoopLine s line write self who).1.trans = s.trans ∧
    (snoopLine s line write self who).1.link = s.link ∧ (snoopLine s line write self who).1.chord = s.chord ∧
    (snoopLine s line write self who).1.fresh = s.fresh ∧
    (snoopLine s line write self who).1.pending = s.pending := by
  unfold snoopLine
  (try dsimp only)
  (repeat' (split <;> try (rename_i hp; first | (obtain ⟨rfl, rfl⟩ := Prod.ext_iff.mp hp) | (obtain ⟨rfl, hq⟩ := Prod.ext_iff.mp hp; obtain ⟨rfl, rfl⟩ := Prod.ext_iff.mp hq) | (obtain ⟨rfl, hq⟩ := Prod.ext_iff.mp hp; obtain ⟨rfl, _⟩ := Prod.ext_iff.mp hq) | (obtain ⟨_, hq⟩ := Prod.ext_iff.mp hp; obtain ⟨rfl, _⟩ := Prod.ext_iff.mp hq) | (obtain ⟨rfl, _⟩ := Prod.ext_iff.mp hp) | (obtain ⟨_, rfl⟩ := Prod.ext_iff.mp hp)))) <;> first | rfl | (simp; done) | (simp_all; done)

@[simp] theorem snoopRange_frame (s : State) (a n : Nat) (write : Bool) :
    (snoopRange s a n write).1.time = s.time ∧ (snoopRange s a n write).1.cp = s.cp ∧
    (snoopRange s a n write).1.part = s.part ∧ (snoopRange s a n write).1.err = s.err ∧
    (snoopRange s a n write).1.mgmt = s.mgmt ∧ (snoopRange s a n write).1.boot = s.boot ∧
    (snoopRange s a n write).1.cells = s.cells ∧ (snoopRange s a n write).1.mem = s.mem ∧
    (snoopRange s a n write).1.larder = s.larder ∧ (snoopRange s a n write).1.reg = s.reg ∧
    (snoopRange s a n write).1.trans = s.trans ∧ (snoopRange s a n write).1.link = s.link ∧
    (snoopRange s a n write).1.chord = s.chord ∧ (snoopRange s a n write).1.fresh = s.fresh ∧
    (snoopRange s a n write).1.pending = s.pending := by
  unfold snoopRange
  simp

@[simp] theorem homeAtomic_frame (s : State) (op : AtomOp) (ty : AtomType) (lanes : List AtomLane) :
    (homeAtomic s op ty lanes).1.time = s.time ∧ (homeAtomic s op ty lanes).1.cp = s.cp ∧
    (homeAtomic s op ty lanes).1.part = s.part ∧ (homeAtomic s op ty lanes).1.err = s.err ∧
    (homeAtomic s op ty lanes).1.pwr = s.pwr ∧ (homeAtomic s op ty lanes).1.mgmt = s.mgmt ∧
    (homeAtomic s op ty lanes).1.boot = s.boot ∧ (homeAtomic s op ty lanes).1.larder = s.larder ∧
    (homeAtomic s op ty lanes).1.reg = s.reg ∧ (homeAtomic s op ty lanes).1.trans = s.trans ∧
    (homeAtomic s op ty lanes).1.attic = s.attic ∧ (homeAtomic s op ty lanes).1.link = s.link ∧
    (homeAtomic s op ty lanes).1.chord = s.chord ∧ (homeAtomic s op ty lanes).1.fresh = s.fresh ∧
    (homeAtomic s op ty lanes).1.pending = s.pending := by
  unfold homeAtomic
  simp

@[simp] theorem newTxn_frame (s : State) (t : Txn) :
    (newTxn s t).1.time = s.time ∧ (newTxn s t).1.cp = s.cp ∧ (newTxn s t).1.part = s.part ∧
    (newTxn s t).1.err = s.err ∧ (newTxn s t).1.pwr = s.pwr ∧ (newTxn s t).1.mgmt = s.mgmt ∧
    (newTxn s t).1.boot = s.boot ∧ (newTxn s t).1.larder = s.larder ∧ (newTxn s t).1.reg = s.reg ∧
    (newTxn s t).1.trans = s.trans ∧ (newTxn s t).1.attic = s.attic ∧ (newTxn s t).1.link = s.link ∧
    (newTxn s t).1.chord = s.chord ∧ (newTxn s t).1.fresh = s.fresh ∧ (newTxn s t).1.out = s.out ∧
    (newTxn s t).1.pending = s.pending := by
  unfold newTxn
  simp

@[simp] theorem modTxn_frame (s : State) (n : Nat) (f : Txn → Txn) :
    (modTxn s n f).time = s.time ∧ (modTxn s n f).cp = s.cp ∧ (modTxn s n f).part = s.part ∧
    (modTxn s n f).err = s.err ∧ (modTxn s n f).pwr = s.pwr ∧ (modTxn s n f).mgmt = s.mgmt ∧
    (modTxn s n f).boot = s.boot ∧ (modTxn s n f).cells = s.cells ∧ (modTxn s n f).larder = s.larder ∧
    (modTxn s n f).reg = s.reg ∧ (modTxn s n f).trans = s.trans ∧ (modTxn s n f).attic = s.attic ∧
    (modTxn s n f).link = s.link ∧ (modTxn s n f).chord = s.chord ∧ (modTxn s n f).fresh = s.fresh ∧
    (modTxn s n f).out = s.out ∧ (modTxn s n f).pending = s.pending := by
  unfold modTxn
  simp

end Sys2Proof.Machine
end

