-- ==== Sys2Proof/Laws/FrameNoc.lean ====
section
/-! SUPPORT. What each operation of Machine/Noc.lean leaves as it was, by component of the state. -/
set_option maxRecDepth 4000
set_option exponentiation.threshold 2000
namespace Sys2Proof.Machine

@[simp] theorem modMaster_frame (s : State) (m : Nat) (f : Master → Master) :
    (modMaster s m f).time = s.time ∧ (modMaster s m f).cp = s.cp ∧ (modMaster s m f).part = s.part ∧
    (modMaster s m f).err = s.err ∧ (modMaster s m f).pwr = s.pwr ∧ (modMaster s m f).mgmt = s.mgmt ∧
    (modMaster s m f).boot = s.boot ∧ (modMaster s m f).cells = s.cells ∧ (modMaster s m f).mem = s.mem ∧
    (modMaster s m f).larder = s.larder ∧ (modMaster s m f).trans = s.trans ∧ (modMaster s m f).attic = s.attic ∧
    (modMaster s m f).link = s.link ∧ (modMaster s m f).chord = s.chord ∧ (modMaster s m f).fresh = s.fresh ∧
    (modMaster s m f).out = s.out ∧ (modMaster s m f).pending = s.pending := by
  unfold modMaster
  simp

@[simp] theorem modShelfReg_frame (s : State) (n p : Nat) (f : ShelfReg → ShelfReg) :
    (modShelfReg s n p f).time = s.time ∧ (modShelfReg s n p f).cp = s.cp ∧ (modShelfReg s n p f).part = s.part ∧
    (modShelfReg s n p f).err = s.err ∧ (modShelfReg s n p f).pwr = s.pwr ∧ (modShelfReg s n p f).mgmt = s.mgmt ∧
    (modShelfReg s n p f).boot = s.boot ∧ (modShelfReg s n p f).cells = s.cells ∧ (modShelfReg s n p f).mem = s.mem ∧
    (modShelfReg s n p f).larder = s.larder ∧ (modShelfReg s n p f).trans = s.trans ∧
    (modShelfReg s n p f).attic = s.attic ∧ (modShelfReg s n p f).link = s.link ∧
    (modShelfReg s n p f).chord = s.chord ∧ (modShelfReg s n p f).fresh = s.fresh ∧
    (modShelfReg s n p f).out = s.out ∧ (modShelfReg s n p f).pending = s.pending := by
  unfold modShelfReg
  simp

@[simp] theorem noteIssue_frame (s : State) (m tag a : Nat) :
    (noteIssue s m tag a).time = s.time ∧ (noteIssue s m tag a).cp = s.cp ∧ (noteIssue s m tag a).part = s.part ∧
    (noteIssue s m tag a).err = s.err ∧ (noteIssue s m tag a).pwr = s.pwr ∧ (noteIssue s m tag a).mgmt = s.mgmt ∧
    (noteIssue s m tag a).boot = s.boot ∧ (noteIssue s m tag a).cells = s.cells ∧ (noteIssue s m tag a).mem = s.mem ∧
    (noteIssue s m tag a).larder = s.larder ∧ (noteIssue s m tag a).trans = s.trans ∧
    (noteIssue s m tag a).attic = s.attic ∧ (noteIssue s m tag a).link = s.link ∧
    (noteIssue s m tag a).chord = s.chord ∧ (noteIssue s m tag a).fresh = s.fresh ∧
    (noteIssue s m tag a).out = s.out ∧ (noteIssue s m tag a).pending = s.pending := by
  unfold noteIssue
  (try dsimp only)
  (repeat' (split <;> try (rename_i hp; first | (obtain ⟨rfl, rfl⟩ := Prod.ext_iff.mp hp) | (obtain ⟨rfl, hq⟩ := Prod.ext_iff.mp hp; obtain ⟨rfl, rfl⟩ := Prod.ext_iff.mp hq) | (obtain ⟨rfl, hq⟩ := Prod.ext_iff.mp hp; obtain ⟨rfl, _⟩ := Prod.ext_iff.mp hq) | (obtain ⟨_, hq⟩ := Prod.ext_iff.mp hp; obtain ⟨rfl, _⟩ := Prod.ext_iff.mp hq) | (obtain ⟨rfl, _⟩ := Prod.ext_iff.mp hp) | (obtain ⟨_, rfl⟩ := Prod.ext_iff.mp hp)))) <;> first | rfl | (simp; done) | (simp_all; done)

@[simp] theorem acceptTxn_frame (s : State) (n : Nat) :
    (acceptTxn s n).time = s.time ∧ (acceptTxn s n).cp = s.cp ∧ (acceptTxn s n).part = s.part ∧
    (acceptTxn s n).err = s.err ∧ (acceptTxn s n).pwr = s.pwr ∧ (acceptTxn s n).mgmt = s.mgmt ∧
    (acceptTxn s n).boot = s.boot ∧ (acceptTxn s n).cells = s.cells ∧ (acceptTxn s n).larder = s.larder ∧
    (acceptTxn s n).reg = s.reg ∧ (acceptTxn s n).trans = s.trans ∧ (acceptTxn s n).attic = s.attic ∧
    (acceptTxn s n).link = s.link ∧ (acceptTxn s n).chord = s.chord ∧ (acceptTxn s n).fresh = s.fresh ∧
    (acceptTxn s n).out = s.out ∧ (acceptTxn s n).pending = s.pending := by
  unfold acceptTxn
  simp

@[simp] theorem notePort_frame (s : State) (m : Nat) :
    (notePort s m).time = s.time ∧ (notePort s m).cp = s.cp ∧ (notePort s m).part = s.part ∧
    (notePort s m).err = s.err ∧ (notePort s m).pwr = s.pwr ∧ (notePort s m).mgmt = s.mgmt ∧
    (notePort s m).boot = s.boot ∧ (notePort s m).cells = s.cells ∧ (notePort s m).mem = s.mem ∧
    (notePort s m).larder = s.larder ∧ (notePort s m).trans = s.trans ∧ (notePort s m).attic = s.attic ∧
    (notePort s m).link = s.link ∧ (notePort s m).chord = s.chord ∧ (notePort s m).fresh = s.fresh ∧
    (notePort s m).out = s.out ∧ (notePort s m).pending = s.pending := by
  unfold notePort
  simp

@[simp] theorem noteDevice_frame (s : State) (a : Nat) :
    (noteDevice s a).time = s.time ∧ (noteDevice s a).cp = s.cp ∧ (noteDevice s a).part = s.part ∧
    (noteDevice s a).err = s.err ∧ (noteDevice s a).pwr = s.pwr ∧ (noteDevice s a).mgmt = s.mgmt ∧
    (noteDevice s a).boot = s.boot ∧ (noteDevice s a).cells = s.cells ∧ (noteDevice s a).mem = s.mem ∧
    (noteDevice s a).larder = s.larder ∧ (noteDevice s a).trans = s.trans ∧ (noteDevice s a).attic = s.attic ∧
    (noteDevice s a).link = s.link ∧ (noteDevice s a).chord = s.chord ∧ (noteDevice s a).fresh = s.fresh ∧
    (noteDevice s a).out = s.out ∧ (noteDevice s a).pending = s.pending := by
  unfold noteDevice
  simp

end Sys2Proof.Machine
end

