-- ==== Sys2Proof/Laws/FrameCache.lean ====
section
/-! SUPPORT. What each operation of Machine/Cache.lean leaves as it was, by component of the state. -/
set_option maxRecDepth 4000
set_option exponentiation.threshold 2000
namespace Sys2Proof.Machine

@[simp] theorem closeCore_frame (s : State) (k line : Nat) :
    (closeCore s k line).time = s.time ∧ (closeCore s k line).cp = s.cp ∧ (closeCore s k line).part = s.part ∧
    (closeCore s k line).err = s.err ∧ (closeCore s k line).pwr = s.pwr ∧ (closeCore s k line).mgmt = s.mgmt ∧
    (closeCore s k line).boot = s.boot ∧ (closeCore s k line).mem = s.mem ∧ (closeCore s k line).larder = s.larder ∧
    (closeCore s k line).reg = s.reg ∧ (closeCore s k line).trans = s.trans ∧ (closeCore s k line).attic = s.attic ∧
    (closeCore s k line).link = s.link ∧ (closeCore s k line).chord = s.chord ∧ (closeCore s k line).fresh = s.fresh ∧
    (closeCore s k line).out = s.out ∧ (closeCore s k line).pending = s.pending := by
  unfold closeCore
  simp

@[simp] theorem closeCellar_frame (s : State) (c line : Nat) :
    (closeCellar s c line).time = s.time ∧ (closeCellar s c line).cp = s.cp ∧ (closeCellar s c line).part = s.part ∧
    (closeCellar s c line).err = s.err ∧ (closeCellar s c line).pwr = s.pwr ∧ (closeCellar s c line).mgmt = s.mgmt ∧
    (closeCellar s c line).boot = s.boot ∧ (closeCellar s c line).mem = s.mem ∧
    (closeCellar s c line).larder = s.larder ∧ (closeCellar s c line).reg = s.reg ∧
    (closeCellar s c line).trans = s.trans ∧ (closeCellar s c line).attic = s.attic ∧
    (closeCellar s c line).link = s.link ∧ (closeCellar s c line).chord = s.chord ∧
    (closeCellar s c line).fresh = s.fresh ∧ (closeCellar s c line).out = s.out ∧
    (closeCellar s c line).pending = s.pending := by
  unfold closeCellar
  simp

@[simp] theorem takeId_frame (s : State) :
    (takeId s).2.time = s.time ∧ (takeId s).2.cp = s.cp ∧ (takeId s).2.part = s.part ∧ (takeId s).2.err = s.err ∧
    (takeId s).2.pwr = s.pwr ∧ (takeId s).2.mgmt = s.mgmt ∧ (takeId s).2.boot = s.boot ∧ (takeId s).2.mem = s.mem ∧
    (takeId s).2.larder = s.larder ∧ (takeId s).2.reg = s.reg ∧ (takeId s).2.trans = s.trans ∧
    (takeId s).2.attic = s.attic ∧ (takeId s).2.link = s.link ∧ (takeId s).2.chord = s.chord ∧
    (takeId s).2.fresh = s.fresh ∧ (takeId s).2.out = s.out ∧ (takeId s).2.pending = s.pending := by
  unfold takeId
  simp

@[simp] theorem writeHome_frame (s : State) (c line : Nat) (b : Tab Byte) (pz : Nat) (client : Client) :
    (writeHome s c line b pz client).1.time = s.time ∧ (writeHome s c line b pz client).1.cp = s.cp ∧
    (writeHome s c line b pz client).1.part = s.part ∧ (writeHome s c line b pz client).1.err = s.err ∧
    (writeHome s c line b pz client).1.pwr = s.pwr ∧ (writeHome s c line b pz client).1.mgmt = s.mgmt ∧
    (writeHome s c line b pz client).1.boot = s.boot ∧ (writeHome s c line b pz client).1.larder = s.larder ∧
    (writeHome s c line b pz client).1.reg = s.reg ∧ (writeHome s c line b pz client).1.trans = s.trans ∧
    (writeHome s c line b pz client).1.attic = s.attic ∧ (writeHome s c line b pz client).1.link = s.link ∧
    (writeHome s c line b pz client).1.chord = s.chord ∧ (writeHome s c line b pz client).1.fresh = s.fresh ∧
    (writeHome s c line b pz client).1.pending = s.pending := by
  unfold writeHome
  simp

@[simp] theorem trackStore_frame (s : State) (c x : Nat) :
    (trackStore s c x).1.time = s.time ∧ (trackStore s c x).1.cp = s.cp ∧ (trackStore s c x).1.part = s.part ∧
    (trackStore s c x).1.err = s.err ∧ (trackStore s c x).1.pwr = s.pwr ∧ (trackStore s c x).1.mgmt = s.mgmt ∧
    (trackStore s c x).1.boot = s.boot ∧ (trackStore s c x).1.mem = s.mem ∧ (trackStore s c x).1.larder = s.larder ∧
    (trackStore s c x).1.reg = s.reg ∧ (trackStore s c x).1.trans = s.trans ∧ (trackStore s c x).1.attic = s.attic ∧
    (trackStore s c x).1.link = s.link ∧ (trackStore s c x).1.chord = s.chord ∧ (trackStore s c x).1.fresh = s.fresh ∧
    (trackStore s c x).1.out = s.out ∧ (trackStore s c x).1.pending = s.pending := by
  unfold trackStore
  (try dsimp only)
  (repeat' (split <;> try (rename_i hp; first | (obtain ⟨rfl, rfl⟩ := Prod.ext_iff.mp hp) | (obtain ⟨rfl, hq⟩ := Prod.ext_iff.mp hp; obtain ⟨rfl, rfl⟩ := Prod.ext_iff.mp hq) | (obtain ⟨rfl, hq⟩ := Prod.ext_iff.mp hp; obtain ⟨rfl, _⟩ := Prod.ext_iff.mp hq) | (obtain ⟨_, hq⟩ := Prod.ext_iff.mp hp; obtain ⟨rfl, _⟩ := Prod.ext_iff.mp hq) | (obtain ⟨rfl, _⟩ := Prod.ext_iff.mp hp) | (obtain ⟨_, rfl⟩ := Prod.ext_iff.mp hp)))) <;> first | rfl | (simp; done) | (simp_all; done)

@[simp] theorem trackVictim_frame (s : State) (c x : Nat) :
    (trackVictim s c x).1.time = s.time ∧ (trackVictim s c x).1.cp = s.cp ∧ (trackVictim s c x).1.part = s.part ∧
    (trackVictim s c x).1.err = s.err ∧ (trackVictim s c x).1.pwr = s.pwr ∧ (trackVictim s c x).1.mgmt = s.mgmt ∧
    (trackVictim s c x).1.boot = s.boot ∧ (trackVictim s c x).1.mem = s.mem ∧
    (trackVictim s c x).1.larder = s.larder ∧ (trackVictim s c x).1.reg = s.reg ∧
    (trackVictim s c x).1.trans = s.trans ∧ (trackVictim s c x).1.attic = s.attic ∧
    (trackVictim s c x).1.link = s.link ∧ (trackVictim s c x).1.chord = s.chord ∧
    (trackVictim s c x).1.fresh = s.fresh ∧ (trackVictim s c x).1.out = s.out ∧
    (trackVictim s c x).1.pending = s.pending := by
  unfold trackVictim
  (try dsimp only)
  (repeat' (split <;> try (rename_i hp; first | (obtain ⟨rfl, rfl⟩ := Prod.ext_iff.mp hp) | (obtain ⟨rfl, hq⟩ := Prod.ext_iff.mp hp; obtain ⟨rfl, rfl⟩ := Prod.ext_iff.mp hq) | (obtain ⟨rfl, hq⟩ := Prod.ext_iff.mp hp; obtain ⟨rfl, _⟩ := Prod.ext_iff.mp hq) | (obtain ⟨_, hq⟩ := Prod.ext_iff.mp hp; obtain ⟨rfl, _⟩ := Prod.ext_iff.mp hq) | (obtain ⟨rfl, _⟩ := Prod.ext_iff.mp hp) | (obtain ⟨_, rfl⟩ := Prod.ext_iff.mp hp)))) <;> first | rfl | (simp; done) | (simp_all; done)

@[simp] theorem trackEnd_frame (s : State) (c x : Nat) (load : Bool) :
    (trackEnd s c x load).time = s.time ∧ (trackEnd s c x load).cp = s.cp ∧ (trackEnd s c x load).part = s.part ∧
    (trackEnd s c x load).err = s.err ∧ (trackEnd s c x load).pwr = s.pwr ∧ (trackEnd s c x load).mgmt = s.mgmt ∧
    (trackEnd s c x load).boot = s.boot ∧ (trackEnd s c x load).mem = s.mem ∧
    (trackEnd s c x load).larder = s.larder ∧ (trackEnd s c x load).reg = s.reg ∧
    (trackEnd s c x load).trans = s.trans ∧ (trackEnd s c x load).attic = s.attic ∧
    (trackEnd s c x load).link = s.link ∧ (trackEnd s c x load).chord = s.chord ∧
    (trackEnd s c x load).fresh = s.fresh ∧ (trackEnd s c x load).out = s.out ∧
    (trackEnd s c x load).pending = s.pending := by
  unfold trackEnd
  simp

@[simp] theorem cellarAllocate_frame (s : State) (c line : Nat) :
    (cellarAllocate s c line).1.time = s.time ∧ (cellarAllocate s c line).1.cp = s.cp ∧
    (cellarAllocate s c line).1.part = s.part ∧ (cellarAllocate s c line).1.err = s.err ∧
    (cellarAllocate s c line).1.pwr = s.pwr ∧ (cellarAllocate s c line).1.mgmt = s.mgmt ∧
    (cellarAllocate s c line).1.boot = s.boot ∧ (cellarAllocate s c line).1.larder = s.larder ∧
    (cellarAllocate s c line).1.reg = s.reg ∧ (cellarAllocate s c line).1.trans = s.trans ∧
    (cellarAllocate s c line).1.attic = s.attic ∧ (cellarAllocate s c line).1.link = s.link ∧
    (cellarAllocate s c line).1.chord = s.chord ∧ (cellarAllocate s c line).1.fresh = s.fresh ∧
    (cellarAllocate s c line).1.pending = s.pending := by
  unfold cellarAllocate
  (try dsimp only)
  (repeat' (split <;> try (rename_i hp; first | (obtain ⟨rfl, rfl⟩ := Prod.ext_iff.mp hp) | (obtain ⟨rfl, hq⟩ := Prod.ext_iff.mp hp; obtain ⟨rfl, rfl⟩ := Prod.ext_iff.mp hq) | (obtain ⟨rfl, hq⟩ := Prod.ext_iff.mp hp; obtain ⟨rfl, _⟩ := Prod.ext_iff.mp hq) | (obtain ⟨_, hq⟩ := Prod.ext_iff.mp hp; obtain ⟨rfl, _⟩ := Prod.ext_iff.mp hq) | (obtain ⟨rfl, _⟩ := Prod.ext_iff.mp hp) | (obtain ⟨_, rfl⟩ := Prod.ext_iff.mp hp)))) <;> first | rfl | (simp; done) | (simp_all; done)

@[simp] theorem setCellarLine_frame (s : State) (c key : Nat) (l : CacheLine) :
    (setCellarLine s c key l).time = s.time ∧ (setCellarLine s c key l).cp = s.cp ∧
    (setCellarLine s c key l).part = s.part ∧ (setCellarLine s c key l).err = s.err ∧
    (setCellarLine s c key l).pwr = s.pwr ∧ (setCellarLine s c key l).mgmt = s.mgmt ∧
    (setCellarLine s c key l).boot = s.boot ∧ (setCellarLine s c key l).mem = s.mem ∧
    (setCellarLine s c key l).larder = s.larder ∧ (setCellarLine s c key l).reg = s.reg ∧
    (setCellarLine s c key l).trans = s.trans ∧ (setCellarLine s c key l).attic = s.attic ∧
    (setCellarLine s c key l).link = s.link ∧ (setCellarLine s c key l).chord = s.chord ∧
    (setCellarLine s c key l).fresh = s.fresh ∧ (setCellarLine s c key l).out = s.out ∧
    (setCellarLine s c key l).pending = s.pending := by
  unfold setCellarLine
  simp

@[simp] theorem cellarPasses_frame (s : State) (c line : Nat) (b : Tab Byte) (pz : Nat) :
    (cellarPasses s c line b pz).time = s.time ∧ (cellarPasses s c line b pz).cp = s.cp ∧
    (cellarPasses s c line b pz).part = s.part ∧ (cellarPasses s c line b pz).err = s.err ∧
    (cellarPasses s c line b pz).pwr = s.pwr ∧ (cellarPasses s c line b pz).mgmt = s.mgmt ∧
    (cellarPasses s c line b pz).boot = s.boot ∧ (cellarPasses s c line b pz).larder = s.larder ∧
    (cellarPasses s c line b pz).reg = s.reg ∧ (cellarPasses s c line b pz).trans = s.trans ∧
    (cellarPasses s c line b pz).attic = s.attic ∧ (cellarPasses s c line b pz).link = s.link ∧
    (cellarPasses s c line b pz).chord = s.chord ∧ (cellarPasses s c line b pz).fresh = s.fresh ∧
    (cellarPasses s c line b pz).pending = s.pending := by
  unfold cellarPasses
  simp

@[simp] theorem cellarStore_frame (s : State) (c line : Nat) (b : Tab Byte) (pz : Nat) (stream victim : Bool) :
    (cellarStore s c line b pz stream victim).time = s.time ∧ (cellarStore s c line b pz stream victim).cp = s.cp ∧
    (cellarStore s c line b pz stream victim).part = s.part ∧ (cellarStore s c line b pz stream victim).err = s.err ∧
    (cellarStore s c line b pz stream victim).pwr = s.pwr ∧ (cellarStore s c line b pz stream victim).mgmt = s.mgmt ∧
    (cellarStore s c line b pz stream victim).boot = s.boot ∧
    (cellarStore s c line b pz stream victim).larder = s.larder ∧
    (cellarStore s c line b pz stream victim).reg = s.reg ∧
    (cellarStore s c line b pz stream victim).trans = s.trans ∧
    (cellarStore s c line b pz stream victim).attic = s.attic ∧
    (cellarStore s c line b pz stream victim).link = s.link ∧
    (cellarStore s c line b pz stream victim).chord = s.chord ∧
    (cellarStore s c line b pz stream victim).fresh = s.fresh ∧
    (cellarStore s c line b pz stream victim).pending = s.pending := by
  unfold cellarStore
  (try dsimp only)
  (repeat' (split <;> try (rename_i hp; first | (obtain ⟨rfl, rfl⟩ := Prod.ext_iff.mp hp) | (obtain ⟨rfl, hq⟩ := Prod.ext_iff.mp hp; obtain ⟨rfl, rfl⟩ := Prod.ext_iff.mp hq) | (obtain ⟨rfl, hq⟩ := Prod.ext_iff.mp hp; obtain ⟨rfl, _⟩ := Prod.ext_iff.mp hq) | (obtain ⟨_, hq⟩ := Prod.ext_iff.mp hp; obtain ⟨rfl, _⟩ := Prod.ext_iff.mp hq) | (obtain ⟨rfl, _⟩ := Prod.ext_iff.mp hp) | (obtain ⟨_, rfl⟩ := Prod.ext_iff.mp hp)))) <;> first | rfl | (simp; done) | (simp_all; done)

@[simp] theorem offerVictim_frame (s : State) (c : Nat) (l : CacheLine) :
    (offerVictim s c l).time = s.time ∧ (offerVictim s c l).cp = s.cp ∧ (offerVictim s c l).part = s.part ∧
    (offerVictim s c l).err = s.err ∧ (offerVictim s c l).pwr = s.pwr ∧ (offerVictim s c l).mgmt = s.mgmt ∧
    (offerVictim s c l).boot = s.boot ∧ (offerVictim s c l).larder = s.larder ∧ (offerVictim s c l).reg = s.reg ∧
    (offerVictim s c l).trans = s.trans ∧ (offerVictim s c l).attic = s.attic ∧ (offerVictim s c l).link = s.link ∧
    (offerVictim s c l).chord = s.chord ∧ (offerVictim s c l).fresh = s.fresh ∧
    (offerVictim s c l).pending = s.pending := by
  unfold offerVictim
  (try dsimp only)
  (repeat' (split <;> try (rename_i hp; first | (obtain ⟨rfl, rfl⟩ := Prod.ext_iff.mp hp) | (obtain ⟨rfl, hq⟩ := Prod.ext_iff.mp hp; obtain ⟨rfl, rfl⟩ := Prod.ext_iff.mp hq) | (obtain ⟨rfl, hq⟩ := Prod.ext_iff.mp hp; obtain ⟨rfl, _⟩ := Prod.ext_iff.mp hq) | (obtain ⟨_, hq⟩ := Prod.ext_iff.mp hp; obtain ⟨rfl, _⟩ := Prod.ext_iff.mp hq) | (obtain ⟨rfl, _⟩ := Prod.ext_iff.mp hp) | (obtain ⟨_, rfl⟩ := Prod.ext_iff.mp hp)))) <;> first | rfl | (simp; done) | (simp_all; done)

@[simp] theorem coreAllocate_frame (s : State) (k line : Nat) :
    (coreAllocate s k line).1.time = s.time ∧ (coreAllocate s k line).1.cp = s.cp ∧
    (coreAllocate s k line).1.part = s.part ∧ (coreAllocate s k line).1.err = s.err ∧
    (coreAllocate s k line).1.pwr = s.pwr ∧ (coreAllocate s k line).1.mgmt = s.mgmt ∧
    (coreAllocate s k line).1.boot = s.boot ∧ (coreAllocate s k line).1.larder = s.larder ∧
    (coreAllocate s k line).1.reg = s.reg ∧ (coreAllocate s k line).1.trans = s.trans ∧
    (coreAllocate s k line).1.attic = s.attic ∧ (coreAllocate s k line).1.link = s.link ∧
    (coreAllocate s k line).1.chord = s.chord ∧ (coreAllocate s k line).1.fresh = s.fresh ∧
    (coreAllocate s k line).1.pending = s.pending := by
  unfold coreAllocate
  (try dsimp only)
  (repeat' (split <;> try (rename_i hp; first | (obtain ⟨rfl, rfl⟩ := Prod.ext_iff.mp hp) | (obtain ⟨rfl, hq⟩ := Prod.ext_iff.mp hp; obtain ⟨rfl, rfl⟩ := Prod.ext_iff.mp hq) | (obtain ⟨rfl, hq⟩ := Prod.ext_iff.mp hp; obtain ⟨rfl, _⟩ := Prod.ext_iff.mp hq) | (obtain ⟨_, hq⟩ := Prod.ext_iff.mp hp; obtain ⟨rfl, _⟩ := Prod.ext_iff.mp hq) | (obtain ⟨rfl, _⟩ := Prod.ext_iff.mp hp) | (obtain ⟨_, rfl⟩ := Prod.ext_iff.mp hp)))) <;> first | rfl | (simp; done) | (simp_all; done)

@[simp] theorem setCoreLine_frame (s : State) (k key : Nat) (l : CacheLine) :
    (setCoreLine s k key l).time = s.time ∧ (setCoreLine s k key l).cp = s.cp ∧
    (setCoreLine s k key l).part = s.part ∧ (setCoreLine s k key l).err = s.err ∧
    (setCoreLine s k key l).pwr = s.pwr ∧ (setCoreLine s k key l).mgmt = s.mgmt ∧
    (setCoreLine s k key l).boot = s.boot ∧ (setCoreLine s k key l).mem = s.mem ∧
    (setCoreLine s k key l).larder = s.larder ∧ (setCoreLine s k key l).reg = s.reg ∧
    (setCoreLine s k key l).trans = s.trans ∧ (setCoreLine s k key l).attic = s.attic ∧
    (setCoreLine s k key l).link = s.link ∧ (setCoreLine s k key l).chord = s.chord ∧
    (setCoreLine s k key l).fresh = s.fresh ∧ (setCoreLine s k key l).out = s.out ∧
    (setCoreLine s k key l).pending = s.pending := by
  unfold setCoreLine
  simp

@[simp] theorem coreStore_frame (s : State) (k line : Nat) (b : Tab Byte) (stream : Bool) :
    (coreStore s k line b stream).time = s.time ∧ (coreStore s k line b stream).cp = s.cp ∧
    (coreStore s k line b stream).part = s.part ∧ (coreStore s k line b stream).err = s.err ∧
    (coreStore s k line b stream).pwr = s.pwr ∧ (coreStore s k line b stream).mgmt = s.mgmt ∧
    (coreStore s k line b stream).boot = s.boot ∧ (coreStore s k line b stream).larder = s.larder ∧
    (coreStore s k line b stream).reg = s.reg ∧ (coreStore s k line b stream).trans = s.trans ∧
    (coreStore s k line b stream).attic = s.attic ∧ (coreStore s k line b stream).link = s.link ∧
    (coreStore s k line b stream).chord = s.chord ∧ (coreStore s k line b stream).fresh = s.fresh ∧
    (coreStore s k line b stream).pending = s.pending := by
  unfold coreStore
  (try dsimp only)
  (repeat' (split <;> try (rename_i hp; first | (obtain ⟨rfl, rfl⟩ := Prod.ext_iff.mp hp) | (obtain ⟨rfl, hq⟩ := Prod.ext_iff.mp hp; obtain ⟨rfl, rfl⟩ := Prod.ext_iff.mp hq) | (obtain ⟨rfl, hq⟩ := Prod.ext_iff.mp hp; obtain ⟨rfl, _⟩ := Prod.ext_iff.mp hq) | (obtain ⟨_, hq⟩ := Prod.ext_iff.mp hp; obtain ⟨rfl, _⟩ := Prod.ext_iff.mp hq) | (obtain ⟨rfl, _⟩ := Prod.ext_iff.mp hp) | (obtain ⟨_, rfl⟩ := Prod.ext_iff.mp hp)))) <;> first | rfl | (simp; done) | (simp_all; done)

@[simp] theorem scratchStore_frame (s : State) (k base : Nat) (b : Tab Byte) :
    (scratchStore s k base b).time = s.time ∧ (scratchStore s k base b).cp = s.cp ∧
    (scratchStore s k base b).part = s.part ∧ (scratchStore s k base b).err = s.err ∧
    (scratchStore s k base b).pwr = s.pwr ∧ (scratchStore s k base b).mgmt = s.mgmt ∧
    (scratchStore s k base b).boot = s.boot ∧ (scratchStore s k base b).mem = s.mem ∧
    (scratchStore s k base b).larder = s.larder ∧ (scratchStore s k base b).reg = s.reg ∧
    (scratchStore s k base b).trans = s.trans ∧ (scratchStore s k base b).attic = s.attic ∧
    (scratchStore s k base b).link = s.link ∧ (scratchStore s k base b).chord = s.chord ∧
    (scratchStore s k base b).fresh = s.fresh ∧ (scratchStore s k base b).out = s.out ∧
    (scratchStore s k base b).pending = s.pending := by
  unfold scratchStore
  simp

@[simp] theorem askHome_frame (s : State) (c line mask : Nat) (stream : Bool) (waiter : List (Nat × Nat)) :
    (askHome s c line mask stream waiter).time = s.time ∧ (askHome s c line mask stream waiter).cp = s.cp ∧
    (askHome s c line mask stream waiter).part = s.part ∧ (askHome s c line mask stream waiter).err = s.err ∧
    (askHome s c line mask stream waiter).pwr = s.pwr ∧ (askHome s c line mask stream waiter).mgmt = s.mgmt ∧
    (askHome s c line mask stream waiter).boot = s.boot ∧ (askHome s c line mask stream waiter).larder = s.larder ∧
    (askHome s c line mask stream waiter).reg = s.reg ∧ (askHome s c line mask stream waiter).trans = s.trans ∧
    (askHome s c line mask stream waiter).attic = s.attic ∧ (askHome s c line mask stream waiter).link = s.link ∧
    (askHome s c line mask stream waiter).chord = s.chord ∧ (askHome s c line mask stream waiter).fresh = s.fresh ∧
    (askHome s c line mask stream waiter).pending = s.pending := by
  unfold askHome
  (try dsimp only)
  (repeat' (split <;> try (rename_i hp; first | (obtain ⟨rfl, rfl⟩ := Prod.ext_iff.mp hp) | (obtain ⟨rfl, hq⟩ := Prod.ext_iff.mp hp; obtain ⟨rfl, rfl⟩ := Prod.ext_iff.mp hq) | (obtain ⟨rfl, hq⟩ := Prod.ext_iff.mp hp; obtain ⟨rfl, _⟩ := Prod.ext_iff.mp hq) | (obtain ⟨_, hq⟩ := Prod.ext_iff.mp hp; obtain ⟨rfl, _⟩ := Prod.ext_iff.mp hq) | (obtain ⟨rfl, _⟩ := Prod.ext_iff.mp hp) | (obtain ⟨_, rfl⟩ := Prod.ext_iff.mp hp)))) <;> first | rfl | (simp; done) | (simp_all; done)

@[simp] theorem modFill_frame (s : State) (k i : Nat) (f : Fill → Fill) :
    (modFill s k i f).time = s.time ∧ (modFill s k i f).cp = s.cp ∧ (modFill s k i f).part = s.part ∧
    (modFill s k i f).err = s.err ∧ (modFill s k i f).pwr = s.pwr ∧ (modFill s k i f).mgmt = s.mgmt ∧
    (modFill s k i f).boot = s.boot ∧ (modFill s k i f).mem = s.mem ∧ (modFill s k i f).larder = s.larder ∧
    (modFill s k i f).reg = s.reg ∧ (modFill s k i f).trans = s.trans ∧ (modFill s k i f).attic = s.attic ∧
    (modFill s k i f).link = s.link ∧ (modFill s k i f).chord = s.chord ∧ (modFill s k i f).fresh = s.fresh ∧
    (modFill s k i f).out = s.out ∧ (modFill s k i f).pending = s.pending := by
  unfold modFill
  simp

@[simp] theorem cellarRequest_frame (s : State) (k line mask : Nat) (stream : Bool) (i : Nat) :
    (cellarRequest s k line mask stream i).time = s.time ∧ (cellarRequest s k line mask stream i).cp = s.cp ∧
    (cellarRequest s k line mask stream i).part = s.part ∧ (cellarRequest s k line mask stream i).err = s.err ∧
    (cellarRequest s k line mask stream i).pwr = s.pwr ∧ (cellarRequest s k line mask stream i).mgmt = s.mgmt ∧
    (cellarRequest s k line mask stream i).boot = s.boot ∧ (cellarRequest s k line mask stream i).larder = s.larder ∧
    (cellarRequest s k line mask stream i).reg = s.reg ∧ (cellarRequest s k line mask stream i).trans = s.trans ∧
    (cellarRequest s k line mask stream i).attic = s.attic ∧ (cellarRequest s k line mask stream i).link = s.link ∧
    (cellarRequest s k line mask stream i).chord = s.chord ∧ (cellarRequest s k line mask stream i).fresh = s.fresh ∧
    (cellarRequest s k line mask stream i).pending = s.pending := by
  unfold cellarRequest
  (try dsimp only)
  (repeat' (split <;> try (rename_i hp; first | (obtain ⟨rfl, rfl⟩ := Prod.ext_iff.mp hp) | (obtain ⟨rfl, hq⟩ := Prod.ext_iff.mp hp; obtain ⟨rfl, rfl⟩ := Prod.ext_iff.mp hq) | (obtain ⟨rfl, hq⟩ := Prod.ext_iff.mp hp; obtain ⟨rfl, _⟩ := Prod.ext_iff.mp hq) | (obtain ⟨_, hq⟩ := Prod.ext_iff.mp hp; obtain ⟨rfl, _⟩ := Prod.ext_iff.mp hq) | (obtain ⟨rfl, _⟩ := Prod.ext_iff.mp hp) | (obtain ⟨_, rfl⟩ := Prod.ext_iff.mp hp)))) <;> first | rfl | (simp; done) | (simp_all; done)

@[simp] theorem coreLoad_frame (s : State) (k line mask : Nat) (stream : Bool) :
    (coreLoad s k line mask stream).1.time = s.time ∧ (coreLoad s k line mask stream).1.cp = s.cp ∧
    (coreLoad s k line mask stream).1.part = s.part ∧ (coreLoad s k line mask stream).1.err = s.err ∧
    (coreLoad s k line mask stream).1.pwr = s.pwr ∧ (coreLoad s k line mask stream).1.mgmt = s.mgmt ∧
    (coreLoad s k line mask stream).1.boot = s.boot ∧ (coreLoad s k line mask stream).1.larder = s.larder ∧
    (coreLoad s k line mask stream).1.reg = s.reg ∧ (coreLoad s k line mask stream).1.trans = s.trans ∧
    (coreLoad s k line mask stream).1.attic = s.attic ∧ (coreLoad s k line mask stream).1.link = s.link ∧
    (coreLoad s k line mask stream).1.chord = s.chord ∧ (coreLoad s k line mask stream).1.fresh = s.fresh ∧
    (coreLoad s k line mask stream).1.pending = s.pending := by
  unfold coreLoad
  (try dsimp only)
  (repeat' (split <;> try (rename_i hp; first | (obtain ⟨rfl, rfl⟩ := Prod.ext_iff.mp hp) | (obtain ⟨rfl, hq⟩ := Prod.ext_iff.mp hp; obtain ⟨rfl, rfl⟩ := Prod.ext_iff.mp hq) | (obtain ⟨rfl, hq⟩ := Prod.ext_iff.mp hp; obtain ⟨rfl, _⟩ := Prod.ext_iff.mp hq) | (obtain ⟨_, hq⟩ := Prod.ext_iff.mp hp; obtain ⟨rfl, _⟩ := Prod.ext_iff.mp hq) | (obtain ⟨rfl, _⟩ := Prod.ext_iff.mp hp) | (obtain ⟨_, rfl⟩ := Prod.ext_iff.mp hp)))) <;> first | rfl | (simp; done) | (simp_all; done)

@[simp] theorem cellarCleanAfter_frame (s : State) (c line : Nat) :
    (cellarCleanAfter s c line).time = s.time ∧ (cellarCleanAfter s c line).cp = s.cp ∧
    (cellarCleanAfter s c line).part = s.part ∧ (cellarCleanAfter s c line).err = s.err ∧
    (cellarCleanAfter s c line).pwr = s.pwr ∧ (cellarCleanAfter s c line).mgmt = s.mgmt ∧
    (cellarCleanAfter s c line).boot = s.boot ∧ (cellarCleanAfter s c line).larder = s.larder ∧
    (cellarCleanAfter s c line).reg = s.reg ∧ (cellarCleanAfter s c line).trans = s.trans ∧
    (cellarCleanAfter s c line).attic = s.attic ∧ (cellarCleanAfter s c line).link = s.link ∧
    (cellarCleanAfter s c line).chord = s.chord ∧ (cellarCleanAfter s c line).fresh = s.fresh ∧
    (cellarCleanAfter s c line).pending = s.pending := by
  unfold cellarCleanAfter
  (try dsimp only)
  (repeat' (split <;> try (rename_i hp; first | (obtain ⟨rfl, rfl⟩ := Prod.ext_iff.mp hp) | (obtain ⟨rfl, hq⟩ := Prod.ext_iff.mp hp; obtain ⟨rfl, rfl⟩ := Prod.ext_iff.mp hq) | (obtain ⟨rfl, hq⟩ := Prod.ext_iff.mp hp; obtain ⟨rfl, _⟩ := Prod.ext_iff.mp hq) | (obtain ⟨_, hq⟩ := Prod.ext_iff.mp hp; obtain ⟨rfl, _⟩ := Prod.ext_iff.mp hq) | (obtain ⟨rfl, _⟩ := Prod.ext_iff.mp hp) | (obtain ⟨_, rfl⟩ := Prod.ext_iff.mp hp)))) <;> first | rfl | (simp; done) | (simp_all; done)

@[simp] theorem cellarFillArrives_frame (s : State) (c line : Nat) :
    (cellarFillArrives s c line).time = s.time ∧ (cellarFillArrives s c line).cp = s.cp ∧
    (cellarFillArrives s c line).part = s.part ∧ (cellarFillArrives s c line).err = s.err ∧
    (cellarFillArrives s c line).pwr = s.pwr ∧ (cellarFillArrives s c line).mgmt = s.mgmt ∧
    (cellarFillArrives s c line).boot = s.boot ∧ (cellarFillArrives s c line).larder = s.larder ∧
    (cellarFillArrives s c line).reg = s.reg ∧ (cellarFillArrives s c line).trans = s.trans ∧
    (cellarFillArrives s c line).attic = s.attic ∧ (cellarFillArrives s c line).link = s.link ∧
    (cellarFillArrives s c line).chord = s.chord ∧ (cellarFillArrives s c line).fresh = s.fresh ∧
    (cellarFillArrives s c line).pending = s.pending := by
  unfold cellarFillArrives
  (try dsimp only)
  (repeat' (split <;> try (rename_i hp; first | (obtain ⟨rfl, rfl⟩ := Prod.ext_iff.mp hp) | (obtain ⟨rfl, hq⟩ := Prod.ext_iff.mp hp; obtain ⟨rfl, rfl⟩ := Prod.ext_iff.mp hq) | (obtain ⟨rfl, hq⟩ := Prod.ext_iff.mp hp; obtain ⟨rfl, _⟩ := Prod.ext_iff.mp hq) | (obtain ⟨_, hq⟩ := Prod.ext_iff.mp hp; obtain ⟨rfl, _⟩ := Prod.ext_iff.mp hq) | (obtain ⟨rfl, _⟩ := Prod.ext_iff.mp hp) | (obtain ⟨_, rfl⟩ := Prod.ext_iff.mp hp)))) <;> first | rfl | (simp; done) | (simp_all; done)

@[simp] theorem cleanToHome_frame (s : State) (c line : Nat) (b : Tab Byte) (pz : Nat) (client : Client) :
    (cleanToHome s c line b pz client).time = s.time ∧ (cleanToHome s c line b pz client).cp = s.cp ∧
    (cleanToHome s c line b pz client).part = s.part ∧ (cleanToHome s c line b pz client).err = s.err ∧
    (cleanToHome s c line b pz client).pwr = s.pwr ∧ (cleanToHome s c line b pz client).mgmt = s.mgmt ∧
    (cleanToHome s c line b pz client).boot = s.boot ∧ (cleanToHome s c line b pz client).larder = s.larder ∧
    (cleanToHome s c line b pz client).reg = s.reg ∧ (cleanToHome s c line b pz client).trans = s.trans ∧
    (cleanToHome s c line b pz client).attic = s.attic ∧ (cleanToHome s c line b pz client).link = s.link ∧
    (cleanToHome s c line b pz client).chord = s.chord ∧ (cleanToHome s c line b pz client).fresh = s.fresh ∧
    (cleanToHome s c line b pz client).pending = s.pending := by
  unfold cleanToHome
  (try dsimp only)
  (repeat' (split <;> try (rename_i hp; first | (obtain ⟨rfl, rfl⟩ := Prod.ext_iff.mp hp) | (obtain ⟨rfl, hq⟩ := Prod.ext_iff.mp hp; obtain ⟨rfl, rfl⟩ := Prod.ext_iff.mp hq) | (obtain ⟨rfl, hq⟩ := Prod.ext_iff.mp hp; obtain ⟨rfl, _⟩ := Prod.ext_iff.mp hq) | (obtain ⟨_, hq⟩ := Prod.ext_iff.mp hp; obtain ⟨rfl, _⟩ := Prod.ext_iff.mp hq) | (obtain ⟨rfl, _⟩ := Prod.ext_iff.mp hp) | (obtain ⟨_, rfl⟩ := Prod.ext_iff.mp hp)))) <;> first | rfl | (simp; done) | (simp_all; done)

@[simp] theorem coreCleanAfter_frame (s : State) (k line : Nat) :
    (coreCleanAfter s k line).time = s.time ∧ (coreCleanAfter s k line).cp = s.cp ∧
    (coreCleanAfter s k line).part = s.part ∧ (coreCleanAfter s k line).err = s.err ∧
    (coreCleanAfter s k line).pwr = s.pwr ∧ (coreCleanAfter s k line).mgmt = s.mgmt ∧
    (coreCleanAfter s k line).boot = s.boot ∧ (coreCleanAfter s k line).larder = s.larder ∧
    (coreCleanAfter s k line).reg = s.reg ∧ (coreCleanAfter s k line).trans = s.trans ∧
    (coreCleanAfter s k line).attic = s.attic ∧ (coreCleanAfter s k line).link = s.link ∧
    (coreCleanAfter s k line).chord = s.chord ∧ (coreCleanAfter s k line).fresh = s.fresh ∧
    (coreCleanAfter s k line).pending = s.pending := by
  unfold coreCleanAfter
  (try dsimp only)
  (repeat' (split <;> try (rename_i hp; first | (obtain ⟨rfl, rfl⟩ := Prod.ext_iff.mp hp) | (obtain ⟨rfl, hq⟩ := Prod.ext_iff.mp hp; obtain ⟨rfl, rfl⟩ := Prod.ext_iff.mp hq) | (obtain ⟨rfl, hq⟩ := Prod.ext_iff.mp hp; obtain ⟨rfl, _⟩ := Prod.ext_iff.mp hq) | (obtain ⟨_, hq⟩ := Prod.ext_iff.mp hp; obtain ⟨rfl, _⟩ := Prod.ext_iff.mp hq) | (obtain ⟨rfl, _⟩ := Prod.ext_iff.mp hp) | (obtain ⟨_, rfl⟩ := Prod.ext_iff.mp hp)))) <;> first | rfl | (simp; done) | (simp_all; done)

@[simp] theorem loadTakesFill_time (s : State) (k i : Nat) (f : Fill) (id : Nat) :
    (loadTakesFill s k i f id).time = s.time := by
  unfold loadTakesFill
  split
  · rfl
  · dsimp only
    split
    · rfl
    · split
      · simp
      · generalize hq : coreLoad _ _ _ _ _ = q
        have h : q.1.time = s.time := by rw [← hq]; simp
        obtain ⟨s', b, pz, more⟩ := q
        simpa using h

@[simp] theorem loadTakesFill_cp (s : State) (k i : Nat) (f : Fill) (id : Nat) :
    (loadTakesFill s k i f id).cp = s.cp := by
  unfold loadTakesFill
  split
  · rfl
  · dsimp only
    split
    · rfl
    · split
      · simp
      · generalize hq : coreLoad _ _ _ _ _ = q
        have h : q.1.cp = s.cp := by rw [← hq]; simp
        obtain ⟨s', b, pz, more⟩ := q
        simpa using h

@[simp] theorem loadTakesFill_part (s : State) (k i : Nat) (f : Fill) (id : Nat) :
    (loadTakesFill s k i f id).part = s.part := by
  unfold loadTakesFill
  split
  · rfl
  · dsimp only
    split
    · rfl
    · split
      · simp
      · generalize hq : coreLoad _ _ _ _ _ = q
        have h : q.1.part = s.part := by rw [← hq]; simp
        obtain ⟨s', b, pz, more⟩ := q
        simpa using h

@[simp] theorem loadTakesFill_err (s : State) (k i : Nat) (f : Fill) (id : Nat) :
    (loadTakesFill s k i f id).err = s.err := by
  unfold loadTakesFill
  split
  · rfl
  · dsimp only
    split
    · rfl
    · split
      · simp
      · generalize hq : coreLoad _ _ _ _ _ = q
        have h : q.1.err = s.err := by rw [← hq]; simp
        obtain ⟨s', b, pz, more⟩ := q
        simpa using h

@[simp] theorem loadTakesFill_pwr (s : State) (k i : Nat) (f : Fill) (id : Nat) :
    (loadTakesFill s k i f id).pwr = s.pwr := by
  unfold loadTakesFill
  split
  · rfl
  · dsimp only
    split
    · rfl
    · split
      · simp
      · generalize hq : coreLoad _ _ _ _ _ = q
        have h : q.1.pwr = s.pwr := by rw [← hq]; simp
        obtain ⟨s', b, pz, more⟩ := q
        simpa using h

@[simp] theorem loadTakesFill_mgmt (s : State) (k i : Nat) (f : Fill) (id : Nat) :
    (loadTakesFill s k i f id).mgmt = s.mgmt := by
  unfold loadTakesFill
  split
  · rfl
  · dsimp only
    split
    · rfl
    · split
      · simp
      · generalize hq : coreLoad _ _ _ _ _ = q
        have h : q.1.mgmt = s.mgmt := by rw [← hq]; simp
        obtain ⟨s', b, pz, more⟩ := q
        simpa using h

@[simp] theorem loadTakesFill_boot (s : State) (k i : Nat) (f : Fill) (id : Nat) :
    (loadTakesFill s k i f id).boot = s.boot := by
  unfold loadTakesFill
  split
  · rfl
  · dsimp only
    split
    · rfl
    · split
      · simp
      · generalize hq : coreLoad _ _ _ _ _ = q
        have h : q.1.boot = s.boot := by rw [← hq]; simp
        obtain ⟨s', b, pz, more⟩ := q
        simpa using h

@[simp] theorem loadTakesFill_larder (s : State) (k i : Nat) (f : Fill) (id : Nat) :
    (loadTakesFill s k i f id).larder = s.larder := by
  unfold loadTakesFill
  split
  · rfl
  · dsimp only
    split
    · rfl
    · split
      · simp
      · generalize hq : coreLoad _ _ _ _ _ = q
        have h : q.1.larder = s.larder := by rw [← hq]; simp
        obtain ⟨s', b, pz, more⟩ := q
        simpa using h

@[simp] theorem loadTakesFill_reg (s : State) (k i : Nat) (f : Fill) (id : Nat) :
    (loadTakesFill s k i f id).reg = s.reg := by
  unfold loadTakesFill
  split
  · rfl
  · dsimp only
    split
    · rfl
    · split
      · simp
      · generalize hq : coreLoad _ _ _ _ _ = q
        have h : q.1.reg = s.reg := by rw [← hq]; simp
        obtain ⟨s', b, pz, more⟩ := q
        simpa using h

@[simp] theorem loadTakesFill_trans (s : State) (k i : Nat) (f : Fill) (id : Nat) :
    (loadTakesFill s k i f id).trans = s.trans := by
  unfold loadTakesFill
  split
  · rfl
  · dsimp only
    split
    · rfl
    · split
      · simp
      · generalize hq : coreLoad _ _ _ _ _ = q
        have h : q.1.trans = s.trans := by rw [← hq]; simp
        obtain ⟨s', b, pz, more⟩ := q
        simpa using h

@[simp] theorem loadTakesFill_attic (s : State) (k i : Nat) (f : Fill) (id : Nat) :
    (loadTakesFill s k i f id).attic = s.attic := by
  unfold loadTakesFill
  split
  · rfl
  · dsimp only
    split
    · rfl
    · split
      · simp
      · generalize hq : coreLoad _ _ _ _ _ = q
        have h : q.1.attic = s.attic := by rw [← hq]; simp
        obtain ⟨s', b, pz, more⟩ := q
        simpa using h

@[simp] theorem loadTakesFill_link (s : State) (k i : Nat) (f : Fill) (id : Nat) :
    (loadTakesFill s k i f id).link = s.link := by
  unfold loadTakesFill
  split
  · rfl
  · dsimp only
    split
    · rfl
    · split
      · simp
      · generalize hq : coreLoad _ _ _ _ _ = q
        have h : q.1.link = s.link := by rw [← hq]; simp
        obtain ⟨s', b, pz, more⟩ := q
        simpa using h

@[simp] theorem loadTakesFill_chord (s : State) (k i : Nat) (f : Fill) (id : Nat) :
    (loadTakesFill s k i f id).chord = s.chord := by
  unfold loadTakesFill
  split
  · rfl
  · dsimp only
    split
    · rfl
    · split
      · simp
      · generalize hq : coreLoad _ _ _ _ _ = q
        have h : q.1.chord = s.chord := by rw [← hq]; simp
        obtain ⟨s', b, pz, more⟩ := q
        simpa using h

@[simp] theorem loadTakesFill_fresh (s : State) (k i : Nat) (f : Fill) (id : Nat) :
    (loadTakesFill s k i f id).fresh = s.fresh := by
  unfold loadTakesFill
  split
  · rfl
  · dsimp only
    split
    · rfl
    · split
      · simp
      · generalize hq : coreLoad _ _ _ _ _ = q
        have h : q.1.fresh = s.fresh := by rw [← hq]; simp
        obtain ⟨s', b, pz, more⟩ := q
        simpa using h

@[simp] theorem loadTakesFill_pending (s : State) (k i : Nat) (f : Fill) (id : Nat) :
    (loadTakesFill s k i f id).pending = s.pending := by
  unfold loadTakesFill
  split
  · rfl
  · dsimp only
    split
    · rfl
    · split
      · simp
      · generalize hq : coreLoad _ _ _ _ _ = q
        have h : q.1.pending = s.pending := by rw [← hq]; simp
        obtain ⟨s', b, pz, more⟩ := q
        simpa using h

@[simp] theorem coreFillArrives_time (s : State) (k line : Nat) :
    (coreFillArrives s k line).time = s.time := by
  unfold coreFillArrives
  split
  · rfl
  · dsimp only
    rw [forEach_time _ _ _ (fun _ _ => loadTakesFill_time _ _ _ _ _)]
    (repeat' split) <;> simp

@[simp] theorem coreFillArrives_cp (s : State) (k line : Nat) :
    (coreFillArrives s k line).cp = s.cp := by
  unfold coreFillArrives
  split
  · rfl
  · dsimp only
    rw [forEach_cp _ _ _ (fun _ _ => loadTakesFill_cp _ _ _ _ _)]
    (repeat' split) <;> simp

@[simp] theorem coreFillArrives_part (s : State) (k line : Nat) :
    (coreFillArrives s k line).part = s.part := by
  unfold coreFillArrives
  split
  · rfl
  · dsimp only
    rw [forEach_part _ _ _ (fun _ _ => loadTakesFill_part _ _ _ _ _)]
    (repeat' split) <;> simp

@[simp] theorem coreFillArrives_err (s : State) (k line : Nat) :
    (coreFillArrives s k line).err = s.err := by
  unfold coreFillArrives
  split
  · rfl
  · dsimp only
    rw [forEach_err _ _ _ (fun _ _ => loadTakesFill_err _ _ _ _ _)]
    (repeat' split) <;> simp

@[simp] theorem coreFillArrives_pwr (s : State) (k line : Nat) :
    (coreFillArrives s k line).pwr = s.pwr := by
  unfold coreFillArrives
  split
  · rfl
  · dsimp only
    rw [forEach_pwr _ _ _ (fun _ _ => loadTakesFill_pwr _ _ _ _ _)]
    (repeat' split) <;> simp

@[simp] theorem coreFillArrives_mgmt (s : State) (k line : Nat) :
    (coreFillArrives s k line).mgmt = s.mgmt := by
  unfold coreFillArrives
  split
  · rfl
  · dsimp only
    rw [forEach_mgmt _ _ _ (fun _ _ => loadTakesFill_mgmt _ _ _ _ _)]
    (repeat' split) <;> simp

@[simp] theorem coreFillArrives_boot (s : State) (k line : Nat) :
    (coreFillArrives s k line).boot = s.boot := by
  unfold coreFillArrives
  split
  · rfl
  · dsimp only
    rw [forEach_boot _ _ _ (fun _ _ => loadTakesFill_boot _ _ _ _ _)]
    (repeat' split) <;> simp

@[simp] theorem coreFillArrives_larder (s : State) (k line : Nat) :
    (coreFillArrives s k line).larder = s.larder := by
  unfold coreFillArrives
  split
  · rfl
  · dsimp only
    rw [forEach_larder _ _ _ (fun _ _ => loadTakesFill_larder _ _ _ _ _)]
    (repeat' split) <;> simp

@[simp] theorem coreFillArrives_reg (s : State) (k line : Nat) :
    (coreFillArrives s k line).reg = s.reg := by
  unfold coreFillArrives
  split
  · rfl
  · dsimp only
    rw [forEach_reg _ _ _ (fun _ _ => loadTakesFill_reg _ _ _ _ _)]
    (repeat' split) <;> simp

@[simp] theorem coreFillArrives_trans (s : State) (k line : Nat) :
    (coreFillArrives s k line).trans = s.trans := by
  unfold coreFillArrives
  split
  · rfl
  · dsimp only
    rw [forEach_trans _ _ _ (fun _ _ => loadTakesFill_trans _ _ _ _ _)]
    (repeat' split) <;> simp

@[simp] theorem coreFillArrives_attic (s : State) (k line : Nat) :
    (coreFillArrives s k line).attic = s.attic := by
  unfold coreFillArrives
  split
  · rfl
  · dsimp only
    rw [forEach_attic _ _ _ (fun _ _ => loadTakesFill_attic _ _ _ _ _)]
    (repeat' split) <;> simp

@[simp] theorem coreFillArrives_link (s : State) (k line : Nat) :
    (coreFillArrives s k line).link = s.link := by
  unfold coreFillArrives
  split
  · rfl
  · dsimp only
    rw [forEach_link _ _ _ (fun _ _ => loadTakesFill_link _ _ _ _ _)]
    (repeat' split) <;> simp

@[simp] theorem coreFillArrives_chord (s : State) (k line : Nat) :
    (coreFillArrives s k line).chord = s.chord := by
  unfold coreFillArrives
  split
  · rfl
  · dsimp only
    rw [forEach_chord _ _ _ (fun _ _ => loadTakesFill_chord _ _ _ _ _)]
    (repeat' split) <;> simp

@[simp] theorem coreFillArrives_fresh (s : State) (k line : Nat) :
    (coreFillArrives s k line).fresh = s.fresh := by
  unfold coreFillArrives
  split
  · rfl
  · dsimp only
    rw [forEach_fresh _ _ _ (fun _ _ => loadTakesFill_fresh _ _ _ _ _)]
    (repeat' split) <;> simp

@[simp] theorem coreFillArrives_pending (s : State) (k line : Nat) :
    (coreFillArrives s k line).pending = s.pending := by
  unfold coreFillArrives
  split
  · rfl
  · dsimp only
    rw [forEach_pending _ _ _ (fun _ _ => loadTakesFill_pending _ _ _ _ _)]
    (repeat' split) <;> simp

@[simp] theorem releaseCellar_frame (s : State) (k : Nat) :
    (releaseCellar s k).time = s.time ∧ (releaseCellar s k).cp = s.cp ∧ (releaseCellar s k).part = s.part ∧
    (releaseCellar s k).err = s.err ∧ (releaseCellar s k).pwr = s.pwr ∧ (releaseCellar s k).mgmt = s.mgmt ∧
    (releaseCellar s k).boot = s.boot ∧ (releaseCellar s k).larder = s.larder ∧ (releaseCellar s k).reg = s.reg ∧
    (releaseCellar s k).trans = s.trans ∧ (releaseCellar s k).attic = s.attic ∧ (releaseCellar s k).link = s.link ∧
    (releaseCellar s k).chord = s.chord ∧ (releaseCellar s k).fresh = s.fresh ∧
    (releaseCellar s k).pending = s.pending := by
  unfold releaseCellar
  simp

@[simp] theorem releaseHome_frame (s : State) (k : Nat) (client : Client) :
    (releaseHome s k client).1.time = s.time ∧ (releaseHome s k client).1.cp = s.cp ∧
    (releaseHome s k client).1.part = s.part ∧ (releaseHome s k client).1.err = s.err ∧
    (releaseHome s k client).1.pwr = s.pwr ∧ (releaseHome s k client).1.mgmt = s.mgmt ∧
    (releaseHome s k client).1.boot = s.boot ∧ (releaseHome s k client).1.larder = s.larder ∧
    (releaseHome s k client).1.reg = s.reg ∧ (releaseHome s k client).1.trans = s.trans ∧
    (releaseHome s k client).1.attic = s.attic ∧ (releaseHome s k client).1.link = s.link ∧
    (releaseHome s k client).1.chord = s.chord ∧ (releaseHome s k client).1.fresh = s.fresh ∧
    (releaseHome s k client).1.pending = s.pending := by
  unfold releaseHome
  (try dsimp only)
  (repeat' (split <;> try (rename_i hp; first | (obtain ⟨rfl, rfl⟩ := Prod.ext_iff.mp hp) | (obtain ⟨rfl, hq⟩ := Prod.ext_iff.mp hp; obtain ⟨rfl, rfl⟩ := Prod.ext_iff.mp hq) | (obtain ⟨rfl, hq⟩ := Prod.ext_iff.mp hp; obtain ⟨rfl, _⟩ := Prod.ext_iff.mp hq) | (obtain ⟨_, hq⟩ := Prod.ext_iff.mp hp; obtain ⟨rfl, _⟩ := Prod.ext_iff.mp hq) | (obtain ⟨rfl, _⟩ := Prod.ext_iff.mp hp) | (obtain ⟨_, rfl⟩ := Prod.ext_iff.mp hp)))) <;> (try simp) <;> (repeat' apply And.intro) <;> (first | apply forEach_time | apply foldl_time | apply forEachFst_time | apply foldlFst_time | apply forEach_cp | apply foldl_cp | apply forEachFst_cp | apply foldlFst_cp | apply forEach_part | apply foldl_part | apply forEachFst_part | apply foldlFst_part | apply forEach_err | apply foldl_err | apply forEachFst_err | apply foldlFst_err | apply forEach_pwr | apply foldl_pwr | apply forEachFst_pwr | apply foldlFst_pwr | apply forEach_mgmt | apply foldl_mgmt | apply forEachFst_mgmt | apply foldlFst_mgmt | apply forEach_boot | apply foldl_boot | apply forEachFst_boot | apply foldlFst_boot | apply forEach_larder | apply foldl_larder | apply forEachFst_larder | apply foldlFst_larder | apply forEach_reg | apply foldl_reg | apply forEachFst_reg | apply foldlFst_reg | apply forEach_trans | apply foldl_trans | apply forEachFst_trans | apply foldlFst_trans | apply forEach_attic | apply foldl_attic | apply forEachFst_attic | apply foldlFst_attic | apply forEach_link | apply foldl_link | apply forEachFst_link | apply foldlFst_link | apply forEach_chord | apply foldl_chord | apply forEachFst_chord | apply foldlFst_chord | apply forEach_fresh | apply foldl_fresh | apply forEachFst_fresh | apply foldlFst_fresh | apply forEach_pending | apply foldl_pending | apply forEachFst_pending | apply foldlFst_pending) <;> intro _ _ <;> (try dsimp only) <;> (repeat' (split <;> try (rename_i hp; first | (obtain ⟨rfl, rfl⟩ := Prod.ext_iff.mp hp) | (obtain ⟨rfl, hq⟩ := Prod.ext_iff.mp hp; obtain ⟨rfl, rfl⟩ := Prod.ext_iff.mp hq) | (obtain ⟨rfl, hq⟩ := Prod.ext_iff.mp hp; obtain ⟨rfl, _⟩ := Prod.ext_iff.mp hq) | (obtain ⟨_, hq⟩ := Prod.ext_iff.mp hp; obtain ⟨rfl, _⟩ := Prod.ext_iff.mp hq) | (obtain ⟨rfl, _⟩ := Prod.ext_iff.mp hp) | (obtain ⟨_, rfl⟩ := Prod.ext_iff.mp hp)))) <;> first | rfl | (simp; done) | (simp_all; done)

@[simp] theorem acquire'_frame (s : State) (k : Nat) (sc : Scope) :
    (acquire' s k sc).time = s.time ∧ (acquire' s k sc).cp = s.cp ∧ (acquire' s k sc).part = s.part ∧
    (acquire' s k sc).err = s.err ∧ (acquire' s k sc).pwr = s.pwr ∧ (acquire' s k sc).mgmt = s.mgmt ∧
    (acquire' s k sc).boot = s.boot ∧ (acquire' s k sc).mem = s.mem ∧ (acquire' s k sc).larder = s.larder ∧
    (acquire' s k sc).reg = s.reg ∧ (acquire' s k sc).trans = s.trans ∧ (acquire' s k sc).attic = s.attic ∧
    (acquire' s k sc).link = s.link ∧ (acquire' s k sc).chord = s.chord ∧ (acquire' s k sc).fresh = s.fresh ∧
    (acquire' s k sc).out = s.out ∧ (acquire' s k sc).pending = s.pending := by
  unfold acquire'
  simp

@[simp] theorem flushCellar_frame (s : State) (c : Nat) :
    (flushCellar s c).time = s.time ∧ (flushCellar s c).cp = s.cp ∧ (flushCellar s c).part = s.part ∧
    (flushCellar s c).err = s.err ∧ (flushCellar s c).pwr = s.pwr ∧ (flushCellar s c).mgmt = s.mgmt ∧
    (flushCellar s c).boot = s.boot ∧ (flushCellar s c).larder = s.larder ∧ (flushCellar s c).reg = s.reg ∧
    (flushCellar s c).trans = s.trans ∧ (flushCellar s c).attic = s.attic ∧ (flushCellar s c).link = s.link ∧
    (flushCellar s c).chord = s.chord ∧ (flushCellar s c).fresh = s.fresh ∧
    (flushCellar s c).pending = s.pending := by
  unfold flushCellar
  simp

@[simp] theorem flushCore_frame (s : State) (k : Nat) :
    (flushCore s k).time = s.time ∧ (flushCore s k).cp = s.cp ∧ (flushCore s k).part = s.part ∧
    (flushCore s k).err = s.err ∧ (flushCore s k).pwr = s.pwr ∧ (flushCore s k).mgmt = s.mgmt ∧
    (flushCore s k).boot = s.boot ∧ (flushCore s k).larder = s.larder ∧ (flushCore s k).reg = s.reg ∧
    (flushCore s k).trans = s.trans ∧ (flushCore s k).attic = s.attic ∧ (flushCore s k).link = s.link ∧
    (flushCore s k).chord = s.chord ∧ (flushCore s k).fresh = s.fresh ∧ (flushCore s k).pending = s.pending := by
  unfold flushCore
  simp

end Sys2Proof.Machine
end

