-- ==== Sys2Proof/Laws/FrameChordBase.lean ====
section
/-! SUPPORT. What each operation of Machine/ChordBase.lean leaves as it was, by component of the state. -/
set_option maxRecDepth 4000
set_option exponentiation.threshold 2000
namespace Sys2Proof.Machine

@[simp] theorem modPeer_frame (s : State) (p : Nat) (f : Peer → Peer) :
    (modPeer s p f).time = s.time ∧ (modPeer s p f).cp = s.cp ∧ (modPeer s p f).part = s.part ∧
    (modPeer s p f).err = s.err ∧ (modPeer s p f).pwr = s.pwr ∧ (modPeer s p f).mgmt = s.mgmt ∧
    (modPeer s p f).boot = s.boot ∧ (modPeer s p f).cells = s.cells ∧ (modPeer s p f).mem = s.mem ∧
    (modPeer s p f).larder = s.larder ∧ (modPeer s p f).reg = s.reg ∧ (modPeer s p f).trans = s.trans ∧
    (modPeer s p f).attic = s.attic ∧ (modPeer s p f).link = s.link ∧ (modPeer s p f).fresh = s.fresh ∧
    (modPeer s p f).out = s.out ∧ (modPeer s p f).pending = s.pending := by
  unfold modPeer
  simp

@[simp] theorem peerEntry_frame (s : State) (node part : Nat) (eth : Bool) (ipv6 : Nat) :
    (peerEntry s node part eth ipv6).1.time = s.time ∧ (peerEntry s node part eth ipv6).1.cp = s.cp ∧
    (peerEntry s node part eth ipv6).1.part = s.part ∧ (peerEntry s node part eth ipv6).1.err = s.err ∧
    (peerEntry s node part eth ipv6).1.pwr = s.pwr ∧ (peerEntry s node part eth ipv6).1.mgmt = s.mgmt ∧
    (peerEntry s node part eth ipv6).1.boot = s.boot ∧ (peerEntry s node part eth ipv6).1.cells = s.cells ∧
    (peerEntry s node part eth ipv6).1.mem = s.mem ∧ (peerEntry s node part eth ipv6).1.larder = s.larder ∧
    (peerEntry s node part eth ipv6).1.reg = s.reg ∧ (peerEntry s node part eth ipv6).1.trans = s.trans ∧
    (peerEntry s node part eth ipv6).1.attic = s.attic ∧ (peerEntry s node part eth ipv6).1.link = s.link ∧
    (peerEntry s node part eth ipv6).1.out = s.out ∧ (peerEntry s node part eth ipv6).1.pending = s.pending := by
  unfold peerEntry
  (try dsimp only)
  (repeat' (split <;> try (rename_i hp; first | (obtain ⟨rfl, rfl⟩ := Prod.ext_iff.mp hp) | (obtain ⟨rfl, hq⟩ := Prod.ext_iff.mp hp; obtain ⟨rfl, rfl⟩ := Prod.ext_iff.mp hq) | (obtain ⟨rfl, hq⟩ := Prod.ext_iff.mp hp; obtain ⟨rfl, _⟩ := Prod.ext_iff.mp hq) | (obtain ⟨_, hq⟩ := Prod.ext_iff.mp hp; obtain ⟨rfl, _⟩ := Prod.ext_iff.mp hq) | (obtain ⟨rfl, _⟩ := Prod.ext_iff.mp hp) | (obtain ⟨_, rfl⟩ := Prod.ext_iff.mp hp)))) <;> first | rfl | (simp; done) | (simp_all; done)

@[simp] theorem modEngine_frame (s : State) (e : Nat) (f : Engine → Engine) :
    (modEngine s e f).time = s.time ∧ (modEngine s e f).cp = s.cp ∧ (modEngine s e f).part = s.part ∧
    (modEngine s e f).err = s.err ∧ (modEngine s e f).pwr = s.pwr ∧ (modEngine s e f).mgmt = s.mgmt ∧
    (modEngine s e f).boot = s.boot ∧ (modEngine s e f).cells = s.cells ∧ (modEngine s e f).mem = s.mem ∧
    (modEngine s e f).larder = s.larder ∧ (modEngine s e f).reg = s.reg ∧ (modEngine s e f).trans = s.trans ∧
    (modEngine s e f).attic = s.attic ∧ (modEngine s e f).chord = s.chord ∧ (modEngine s e f).fresh = s.fresh ∧
    (modEngine s e f).out = s.out ∧ (modEngine s e f).pending = s.pending := by
  unfold modEngine
  simp

@[simp] theorem modLl_frame (s : State) (e : Nat) (f : LinkLayer → LinkLayer) :
    (modLl s e f).time = s.time ∧ (modLl s e f).cp = s.cp ∧ (modLl s e f).part = s.part ∧ (modLl s e f).err = s.err ∧
    (modLl s e f).pwr = s.pwr ∧ (modLl s e f).mgmt = s.mgmt ∧ (modLl s e f).boot = s.boot ∧
    (modLl s e f).cells = s.cells ∧ (modLl s e f).mem = s.mem ∧ (modLl s e f).larder = s.larder ∧
    (modLl s e f).reg = s.reg ∧ (modLl s e f).trans = s.trans ∧ (modLl s e f).attic = s.attic ∧
    (modLl s e f).link = s.link ∧ (modLl s e f).fresh = s.fresh ∧ (modLl s e f).out = s.out ∧
    (modLl s e f).pending = s.pending := by
  unfold modLl
  simp

@[simp] theorem startAssoc_frame (s : State) (ipv6 : Nat) :
    (startAssoc s ipv6).time = s.time ∧ (startAssoc s ipv6).cp = s.cp ∧ (startAssoc s ipv6).part = s.part ∧
    (startAssoc s ipv6).err = s.err ∧ (startAssoc s ipv6).pwr = s.pwr ∧ (startAssoc s ipv6).mgmt = s.mgmt ∧
    (startAssoc s ipv6).boot = s.boot ∧ (startAssoc s ipv6).cells = s.cells ∧ (startAssoc s ipv6).mem = s.mem ∧
    (startAssoc s ipv6).larder = s.larder ∧ (startAssoc s ipv6).reg = s.reg ∧ (startAssoc s ipv6).trans = s.trans ∧
    (startAssoc s ipv6).attic = s.attic ∧ (startAssoc s ipv6).link = s.link ∧ (startAssoc s ipv6).fresh = s.fresh ∧
    (startAssoc s ipv6).pending = s.pending := by
  unfold startAssoc
  (try dsimp only)
  (repeat' (split <;> try (rename_i hp; first | (obtain ⟨rfl, rfl⟩ := Prod.ext_iff.mp hp) | (obtain ⟨rfl, hq⟩ := Prod.ext_iff.mp hp; obtain ⟨rfl, rfl⟩ := Prod.ext_iff.mp hq) | (obtain ⟨rfl, hq⟩ := Prod.ext_iff.mp hp; obtain ⟨rfl, _⟩ := Prod.ext_iff.mp hq) | (obtain ⟨_, hq⟩ := Prod.ext_iff.mp hp; obtain ⟨rfl, _⟩ := Prod.ext_iff.mp hq) | (obtain ⟨rfl, _⟩ := Prod.ext_iff.mp hp) | (obtain ⟨_, rfl⟩ := Prod.ext_iff.mp hp)))) <;> first | rfl | (simp; done) | (simp_all; done)

@[simp] theorem sendStream_frame (s : State) (e : Nat) (b : Bytes) :
    (sendStream s e b).time = s.time ∧ (sendStream s e b).cp = s.cp ∧ (sendStream s e b).part = s.part ∧
    (sendStream s e b).err = s.err ∧ (sendStream s e b).pwr = s.pwr ∧ (sendStream s e b).mgmt = s.mgmt ∧
    (sendStream s e b).boot = s.boot ∧ (sendStream s e b).cells = s.cells ∧ (sendStream s e b).mem = s.mem ∧
    (sendStream s e b).larder = s.larder ∧ (sendStream s e b).reg = s.reg ∧ (sendStream s e b).trans = s.trans ∧
    (sendStream s e b).attic = s.attic ∧ (sendStream s e b).link = s.link ∧ (sendStream s e b).fresh = s.fresh ∧
    (sendStream s e b).out = s.out ∧ (sendStream s e b).pending = s.pending := by
  unfold sendStream
  simp

@[simp] theorem chargePacket_frame (s : State) (e : Nat) (k : Packet) :
    (chargePacket s e k).time = s.time ∧ (chargePacket s e k).cp = s.cp ∧ (chargePacket s e k).part = s.part ∧
    (chargePacket s e k).err = s.err ∧ (chargePacket s e k).pwr = s.pwr ∧ (chargePacket s e k).mgmt = s.mgmt ∧
    (chargePacket s e k).boot = s.boot ∧ (chargePacket s e k).cells = s.cells ∧ (chargePacket s e k).mem = s.mem ∧
    (chargePacket s e k).larder = s.larder ∧ (chargePacket s e k).reg = s.reg ∧ (chargePacket s e k).trans = s.trans ∧
    (chargePacket s e k).attic = s.attic ∧ (chargePacket s e k).link = s.link ∧ (chargePacket s e k).fresh = s.fresh ∧
    (chargePacket s e k).out = s.out ∧ (chargePacket s e k).pending = s.pending := by
  unfold chargePacket
  simp

@[simp] theorem sendCtl_frame (s : State) (e kind value : Nat) (payload : Bytes) :
    (sendCtl s e kind value payload).time = s.time ∧ (sendCtl s e kind value payload).cp = s.cp ∧
    (sendCtl s e kind value payload).part = s.part ∧ (sendCtl s e kind value payload).err = s.err ∧
    (sendCtl s e kind value payload).pwr = s.pwr ∧ (sendCtl s e kind value payload).mgmt = s.mgmt ∧
    (sendCtl s e kind value payload).boot = s.boot ∧ (sendCtl s e kind value payload).cells = s.cells ∧
    (sendCtl s e kind value payload).mem = s.mem ∧ (sendCtl s e kind value payload).larder = s.larder ∧
    (sendCtl s e kind value payload).reg = s.reg ∧ (sendCtl s e kind value payload).trans = s.trans ∧
    (sendCtl s e kind value payload).attic = s.attic ∧ (sendCtl s e kind value payload).link = s.link ∧
    (sendCtl s e kind value payload).fresh = s.fresh ∧ (sendCtl s e kind value payload).pending = s.pending := by
  unfold sendCtl
  simp

@[simp] theorem transmit_frame (s : State) (p e : Nat) (k : Packet) :
    (transmit s p e k).time = s.time ∧ (transmit s p e k).cp = s.cp ∧ (transmit s p e k).part = s.part ∧
    (transmit s p e k).err = s.err ∧ (transmit s p e k).pwr = s.pwr ∧ (transmit s p e k).mgmt = s.mgmt ∧
    (transmit s p e k).boot = s.boot ∧ (transmit s p e k).cells = s.cells ∧ (transmit s p e k).mem = s.mem ∧
    (transmit s p e k).larder = s.larder ∧ (transmit s p e k).reg = s.reg ∧ (transmit s p e k).trans = s.trans ∧
    (transmit s p e k).attic = s.attic ∧ (transmit s p e k).link = s.link ∧ (transmit s p e k).fresh = s.fresh ∧
    (transmit s p e k).pending = s.pending := by
  unfold transmit
  (try dsimp only)
  (repeat' (split <;> try (rename_i hp; first | (obtain ⟨rfl, rfl⟩ := Prod.ext_iff.mp hp) | (obtain ⟨rfl, hq⟩ := Prod.ext_iff.mp hp; obtain ⟨rfl, rfl⟩ := Prod.ext_iff.mp hq) | (obtain ⟨rfl, hq⟩ := Prod.ext_iff.mp hp; obtain ⟨rfl, _⟩ := Prod.ext_iff.mp hq) | (obtain ⟨_, hq⟩ := Prod.ext_iff.mp hp; obtain ⟨rfl, _⟩ := Prod.ext_iff.mp hq) | (obtain ⟨rfl, _⟩ := Prod.ext_iff.mp hp) | (obtain ⟨_, rfl⟩ := Prod.ext_iff.mp hp)))) <;> first | rfl | (simp; done) | (simp_all; done)

@[simp] theorem pump_frame (s : State) (p : Nat) :
    (pump s p).time = s.time ∧ (pump s p).cp = s.cp ∧ (pump s p).part = s.part ∧ (pump s p).err = s.err ∧
    (pump s p).pwr = s.pwr ∧ (pump s p).mgmt = s.mgmt ∧ (pump s p).boot = s.boot ∧ (pump s p).cells = s.cells ∧
    (pump s p).mem = s.mem ∧ (pump s p).larder = s.larder ∧ (pump s p).reg = s.reg ∧ (pump s p).trans = s.trans ∧
    (pump s p).attic = s.attic ∧ (pump s p).link = s.link ∧ (pump s p).fresh = s.fresh ∧
    (pump s p).pending = s.pending := by
  unfold pump
  (try dsimp only)
  (repeat' (split <;> try (rename_i hp; first | (obtain ⟨rfl, rfl⟩ := Prod.ext_iff.mp hp) | (obtain ⟨rfl, hq⟩ := Prod.ext_iff.mp hp; obtain ⟨rfl, rfl⟩ := Prod.ext_iff.mp hq) | (obtain ⟨rfl, hq⟩ := Prod.ext_iff.mp hp; obtain ⟨rfl, _⟩ := Prod.ext_iff.mp hq) | (obtain ⟨_, hq⟩ := Prod.ext_iff.mp hp; obtain ⟨rfl, _⟩ := Prod.ext_iff.mp hq) | (obtain ⟨rfl, _⟩ := Prod.ext_iff.mp hp) | (obtain ⟨_, rfl⟩ := Prod.ext_iff.mp hp)))) <;> (try simp) <;> (repeat' apply And.intro) <;> (first | apply forEach_time | apply foldl_time | apply forEachFst_time | apply foldlFst_time | apply forEach_cp | apply foldl_cp | apply forEachFst_cp | apply foldlFst_cp | apply forEach_part | apply foldl_part | apply forEachFst_part | apply foldlFst_part | apply forEach_err | apply foldl_err | apply forEachFst_err | apply foldlFst_err | apply forEach_pwr | apply foldl_pwr | apply forEachFst_pwr | apply foldlFst_pwr | apply forEach_mgmt | apply foldl_mgmt | apply forEachFst_mgmt | apply foldlFst_mgmt | apply forEach_boot | apply foldl_boot | apply forEachFst_boot | apply foldlFst_boot | apply forEach_cells | apply foldl_cells | apply forEachFst_cells | apply foldlFst_cells | apply forEach_mem | apply foldl_mem | apply forEachFst_mem | apply foldlFst_mem | apply forEach_larder | apply foldl_larder | apply forEachFst_larder | apply foldlFst_larder | apply forEach_reg | apply foldl_reg | apply forEachFst_reg | apply foldlFst_reg | apply forEach_trans | apply foldl_trans | apply forEachFst_trans | apply foldlFst_trans | apply forEach_attic | apply foldl_attic | apply forEachFst_attic | apply foldlFst_attic | apply forEach_link | apply foldl_link | apply forEachFst_link | apply foldlFst_link | apply forEach_fresh | apply foldl_fresh | apply forEachFst_fresh | apply foldlFst_fresh | apply forEach_pending | apply foldl_pending | apply forEachFst_pending | apply foldlFst_pending) <;> intro _ _ <;> (try dsimp only) <;> (repeat' (split <;> try (rename_i hp; first | (obtain ⟨rfl, rfl⟩ := Prod.ext_iff.mp hp) | (obtain ⟨rfl, hq⟩ := Prod.ext_iff.mp hp; obtain ⟨rfl, rfl⟩ := Prod.ext_iff.mp hq) | (obtain ⟨rfl, hq⟩ := Prod.ext_iff.mp hp; obtain ⟨rfl, _⟩ := Prod.ext_iff.mp hq) | (obtain ⟨_, hq⟩ := Prod.ext_iff.mp hp; obtain ⟨rfl, _⟩ := Prod.ext_iff.mp hq) | (obtain ⟨rfl, _⟩ := Prod.ext_iff.mp hp) | (obtain ⟨_, rfl⟩ := Prod.ext_iff.mp hp)))) <;> first | rfl | (simp; done) | (simp_all; done)

@[simp] theorem enqueue_frame (s : State) (p : Nat) (l : List Packet) :
    (enqueue s p l).time = s.time ∧ (enqueue s p l).cp = s.cp ∧ (enqueue s p l).part = s.part ∧
    (enqueue s p l).err = s.err ∧ (enqueue s p l).pwr = s.pwr ∧ (enqueue s p l).mgmt = s.mgmt ∧
    (enqueue s p l).boot = s.boot ∧ (enqueue s p l).cells = s.cells ∧ (enqueue s p l).mem = s.mem ∧
    (enqueue s p l).larder = s.larder ∧ (enqueue s p l).reg = s.reg ∧ (enqueue s p l).trans = s.trans ∧
    (enqueue s p l).attic = s.attic ∧ (enqueue s p l).link = s.link ∧ (enqueue s p l).fresh = s.fresh ∧
    (enqueue s p l).pending = s.pending := by
  unfold enqueue
  simp

@[simp] theorem sendMessage_frame (s : State) (p : Nat) (m : Message) (opinfo addr : Nat) (data : Bytes) (pz : Nat → Bool) (zsupp reserved : Bool) :
    (sendMessage s p m opinfo addr data pz zsupp reserved).1.time = s.time ∧
    (sendMessage s p m opinfo addr data pz zsupp reserved).1.cp = s.cp ∧
    (sendMessage s p m opinfo addr data pz zsupp reserved).1.part = s.part ∧
    (sendMessage s p m opinfo addr data pz zsupp reserved).1.err = s.err ∧
    (sendMessage s p m opinfo addr data pz zsupp reserved).1.pwr = s.pwr ∧
    (sendMessage s p m opinfo addr data pz zsupp reserved).1.mgmt = s.mgmt ∧
    (sendMessage s p m opinfo addr data pz zsupp reserved).1.boot = s.boot ∧
    (sendMessage s p m opinfo addr data pz zsupp reserved).1.cells = s.cells ∧
    (sendMessage s p m opinfo addr data pz zsupp reserved).1.mem = s.mem ∧
    (sendMessage s p m opinfo addr data pz zsupp reserved).1.larder = s.larder ∧
    (sendMessage s p m opinfo addr data pz zsupp reserved).1.reg = s.reg ∧
    (sendMessage s p m opinfo addr data pz zsupp reserved).1.trans = s.trans ∧
    (sendMessage s p m opinfo addr data pz zsupp reserved).1.attic = s.attic ∧
    (sendMessage s p m opinfo addr data pz zsupp reserved).1.link = s.link ∧
    (sendMessage s p m opinfo addr data pz zsupp reserved).1.fresh = s.fresh ∧
    (sendMessage s p m opinfo addr data pz zsupp reserved).1.pending = s.pending := by
  unfold sendMessage
  simp

@[simp] theorem sendReply_frame (s : State) (p pt msg opinfo addr : Nat) (data : Bytes) (pz : Nat → Bool) :
    (sendReply s p pt msg opinfo addr data pz).time = s.time ∧ (sendReply s p pt msg opinfo addr data pz).cp = s.cp ∧
    (sendReply s p pt msg opinfo addr data pz).part = s.part ∧
    (sendReply s p pt msg opinfo addr data pz).err = s.err ∧ (sendReply s p pt msg opinfo addr data pz).pwr = s.pwr ∧
    (sendReply s p pt msg opinfo addr data pz).mgmt = s.mgmt ∧
    (sendReply s p pt msg opinfo addr data pz).boot = s.boot ∧
    (sendReply s p pt msg opinfo addr data pz).cells = s.cells ∧
    (sendReply s p pt msg opinfo addr data pz).mem = s.mem ∧
    (sendReply s p pt msg opinfo addr data pz).larder = s.larder ∧
    (sendReply s p pt msg opinfo addr data pz).reg = s.reg ∧
    (sendReply s p pt msg opinfo addr data pz).trans = s.trans ∧
    (sendReply s p pt msg opinfo addr data pz).attic = s.attic ∧
    (sendReply s p pt msg opinfo addr data pz).link = s.link ∧
    (sendReply s p pt msg opinfo addr data pz).fresh = s.fresh ∧
    (sendReply s p pt msg opinfo addr data pz).pending = s.pending := by
  unfold sendReply
  simp

@[simp] theorem windowPeer_frame (s : State) (w : Nat) :
    (windowPeer s w).1.time = s.time ∧ (windowPeer s w).1.cp = s.cp ∧ (windowPeer s w).1.part = s.part ∧
    (windowPeer s w).1.err = s.err ∧ (windowPeer s w).1.pwr = s.pwr ∧ (windowPeer s w).1.mgmt = s.mgmt ∧
    (windowPeer s w).1.boot = s.boot ∧ (windowPeer s w).1.cells = s.cells ∧ (windowPeer s w).1.mem = s.mem ∧
    (windowPeer s w).1.larder = s.larder ∧ (windowPeer s w).1.reg = s.reg ∧ (windowPeer s w).1.trans = s.trans ∧
    (windowPeer s w).1.attic = s.attic ∧ (windowPeer s w).1.link = s.link ∧ (windowPeer s w).1.out = s.out ∧
    (windowPeer s w).1.pending = s.pending := by
  unfold windowPeer
  (try dsimp only)
  (repeat' (split <;> try (rename_i hp; first | (obtain ⟨rfl, rfl⟩ := Prod.ext_iff.mp hp) | (obtain ⟨rfl, hq⟩ := Prod.ext_iff.mp hp; obtain ⟨rfl, rfl⟩ := Prod.ext_iff.mp hq) | (obtain ⟨rfl, hq⟩ := Prod.ext_iff.mp hp; obtain ⟨rfl, _⟩ := Prod.ext_iff.mp hq) | (obtain ⟨_, hq⟩ := Prod.ext_iff.mp hp; obtain ⟨rfl, _⟩ := Prod.ext_iff.mp hq) | (obtain ⟨rfl, _⟩ := Prod.ext_iff.mp hp) | (obtain ⟨_, rfl⟩ := Prod.ext_iff.mp hp)))) <;> first | rfl | (simp; done) | (simp_all; done)

@[simp] theorem countCreateWait_frame (s : State) :
    (countCreateWait s).time = s.time ∧ (countCreateWait s).cp = s.cp ∧ (countCreateWait s).part = s.part ∧
    (countCreateWait s).err = s.err ∧ (countCreateWait s).pwr = s.pwr ∧ (countCreateWait s).mgmt = s.mgmt ∧
    (countCreateWait s).boot = s.boot ∧ (countCreateWait s).cells = s.cells ∧ (countCreateWait s).mem = s.mem ∧
    (countCreateWait s).larder = s.larder ∧ (countCreateWait s).reg = s.reg ∧ (countCreateWait s).trans = s.trans ∧
    (countCreateWait s).attic = s.attic ∧ (countCreateWait s).link = s.link ∧ (countCreateWait s).fresh = s.fresh ∧
    (countCreateWait s).out = s.out ∧ (countCreateWait s).pending = s.pending := by
  unfold countCreateWait
  simp

end Sys2Proof.Machine
end

