-- ==== Sys2Proof/Laws/FrameTrans.lean ====
section
/-! SUPPORT. What each operation of Machine/Trans.lean leaves as it was, by component of the state. -/
set_option maxRecDepth 4000
set_option exponentiation.threshold 2000
namespace Sys2Proof.Machine

@[simp] theorem modTrans_frame (s : State) (f : TransSt → TransSt) :
    (modTrans s f).time = s.time ∧ (modTrans s f).cp = s.cp ∧ (modTrans s f).part = s.part ∧
    (modTrans s f).err = s.err ∧ (modTrans s f).pwr = s.pwr ∧ (modTrans s f).mgmt = s.mgmt ∧
    (modTrans s f).boot = s.boot ∧ (modTrans s f).cells = s.cells ∧ (modTrans s f).mem = s.mem ∧
    (modTrans s f).larder = s.larder ∧ (modTrans s f).reg = s.reg ∧ (modTrans s f).attic = s.attic ∧
    (modTrans s f).link = s.link ∧ (modTrans s f).chord = s.chord ∧ (modTrans s f).fresh = s.fresh ∧
    (modTrans s f).out = s.out ∧ (modTrans s f).pending = s.pending := by
  unfold modTrans
  simp

@[simp] theorem failRequester_frame (s : State) (r : Requester) :
    (failRequester s r).time = s.time ∧ (failRequester s r).part = s.part ∧ (failRequester s r).pwr = s.pwr ∧
    (failRequester s r).boot = s.boot ∧ (failRequester s r).cells = s.cells ∧ (failRequester s r).mem = s.mem ∧
    (failRequester s r).larder = s.larder ∧ (failRequester s r).reg = s.reg ∧ (failRequester s r).attic = s.attic ∧
    (failRequester s r).link = s.link ∧ (failRequester s r).chord = s.chord ∧ (failRequester s r).fresh = s.fresh ∧
    (failRequester s r).pending = s.pending := by
  unfold failRequester
  simp

@[simp] theorem failRequesters_frame (s : State) (l : List Requester) :
    (failRequesters s l).time = s.time ∧ (failRequesters s l).part = s.part ∧ (failRequesters s l).pwr = s.pwr ∧
    (failRequesters s l).boot = s.boot ∧ (failRequesters s l).cells = s.cells ∧ (failRequesters s l).mem = s.mem ∧
    (failRequesters s l).larder = s.larder ∧ (failRequesters s l).reg = s.reg ∧ (failRequesters s l).attic = s.attic ∧
    (failRequesters s l).link = s.link ∧ (failRequesters s l).chord = s.chord ∧ (failRequesters s l).fresh = s.fresh ∧
    (failRequesters s l).pending = s.pending := by
  unfold failRequesters
  simp

@[simp] theorem deliverEventTo_frame (s : State) (q : Nat) (r : Record) :
    (deliverEventTo s q r).time = s.time ∧ (deliverEventTo s q r).part = s.part ∧ (deliverEventTo s q r).err = s.err ∧
    (deliverEventTo s q r).pwr = s.pwr ∧ (deliverEventTo s q r).mgmt = s.mgmt ∧ (deliverEventTo s q r).boot = s.boot ∧
    (deliverEventTo s q r).cells = s.cells ∧ (deliverEventTo s q r).mem = s.mem ∧
    (deliverEventTo s q r).larder = s.larder ∧ (deliverEventTo s q r).reg = s.reg ∧
    (deliverEventTo s q r).trans = s.trans ∧ (deliverEventTo s q r).attic = s.attic ∧
    (deliverEventTo s q r).link = s.link ∧ (deliverEventTo s q r).chord = s.chord ∧
    (deliverEventTo s q r).fresh = s.fresh ∧ (deliverEventTo s q r).out = s.out ∧
    (deliverEventTo s q r).pending = s.pending := by
  unfold deliverEventTo
  simp

@[simp] theorem raiseHostFault_frame (s : State) (i : Nat) (f : FaultEntry) (closed : Bool) :
    (raiseHostFault s i f closed).time = s.time ∧ (raiseHostFault s i f closed).part = s.part ∧
    (raiseHostFault s i f closed).err = s.err ∧ (raiseHostFault s i f closed).pwr = s.pwr ∧
    (raiseHostFault s i f closed).mgmt = s.mgmt ∧ (raiseHostFault s i f closed).boot = s.boot ∧
    (raiseHostFault s i f closed).cells = s.cells ∧ (raiseHostFault s i f closed).mem = s.mem ∧
    (raiseHostFault s i f closed).larder = s.larder ∧ (raiseHostFault s i f closed).reg = s.reg ∧
    (raiseHostFault s i f closed).trans = s.trans ∧ (raiseHostFault s i f closed).attic = s.attic ∧
    (raiseHostFault s i f closed).link = s.link ∧ (raiseHostFault s i f closed).chord = s.chord ∧
    (raiseHostFault s i f closed).fresh = s.fresh ∧ (raiseHostFault s i f closed).out = s.out ∧
    (raiseHostFault s i f closed).pending = s.pending := by
  unfold raiseHostFault
  (try dsimp only)
  (repeat' (split <;> try (rename_i hp; first | (obtain ⟨rfl, rfl⟩ := Prod.ext_iff.mp hp) | (obtain ⟨rfl, hq⟩ := Prod.ext_iff.mp hp; obtain ⟨rfl, rfl⟩ := Prod.ext_iff.mp hq) | (obtain ⟨rfl, hq⟩ := Prod.ext_iff.mp hp; obtain ⟨rfl, _⟩ := Prod.ext_iff.mp hq) | (obtain ⟨_, hq⟩ := Prod.ext_iff.mp hp; obtain ⟨rfl, _⟩ := Prod.ext_iff.mp hq) | (obtain ⟨rfl, _⟩ := Prod.ext_iff.mp hp) | (obtain ⟨_, rfl⟩ := Prod.ext_iff.mp hp)))) <;> first | rfl | (simp; done) | (simp_all; done)

@[simp] theorem freeEntry_frame (s : State) (i : Nat) :
    (freeEntry s i).time = s.time ∧ (freeEntry s i).cp = s.cp ∧ (freeEntry s i).part = s.part ∧
    (freeEntry s i).err = s.err ∧ (freeEntry s i).pwr = s.pwr ∧ (freeEntry s i).mgmt = s.mgmt ∧
    (freeEntry s i).boot = s.boot ∧ (freeEntry s i).cells = s.cells ∧ (freeEntry s i).mem = s.mem ∧
    (freeEntry s i).larder = s.larder ∧ (freeEntry s i).reg = s.reg ∧ (freeEntry s i).attic = s.attic ∧
    (freeEntry s i).link = s.link ∧ (freeEntry s i).chord = s.chord ∧ (freeEntry s i).fresh = s.fresh ∧
    (freeEntry s i).out = s.out ∧ (freeEntry s i).pending = s.pending := by
  unfold freeEntry
  simp

@[simp] theorem closeInvalid_frame (s : State) (i : Nat) (f : FaultEntry) :
    (closeInvalid s i f).time = s.time ∧ (closeInvalid s i f).part = s.part ∧ (closeInvalid s i f).pwr = s.pwr ∧
    (closeInvalid s i f).boot = s.boot ∧ (closeInvalid s i f).cells = s.cells ∧ (closeInvalid s i f).mem = s.mem ∧
    (closeInvalid s i f).larder = s.larder ∧ (closeInvalid s i f).reg = s.reg ∧ (closeInvalid s i f).attic = s.attic ∧
    (closeInvalid s i f).link = s.link ∧ (closeInvalid s i f).chord = s.chord ∧ (closeInvalid s i f).fresh = s.fresh ∧
    (closeInvalid s i f).pending = s.pending := by
  unfold closeInvalid
  simp

@[simp] theorem sendWalkRead_frame (s : State) (n : Nat) (w : Walk) :
    (sendWalkRead s n w).time = s.time ∧ (sendWalkRead s n w).cp = s.cp ∧ (sendWalkRead s n w).part = s.part ∧
    (sendWalkRead s n w).err = s.err ∧ (sendWalkRead s n w).pwr = s.pwr ∧ (sendWalkRead s n w).mgmt = s.mgmt ∧
    (sendWalkRead s n w).boot = s.boot ∧ (sendWalkRead s n w).cells = s.cells ∧ (sendWalkRead s n w).mem = s.mem ∧
    (sendWalkRead s n w).larder = s.larder ∧ (sendWalkRead s n w).reg = s.reg ∧ (sendWalkRead s n w).trans = s.trans ∧
    (sendWalkRead s n w).attic = s.attic ∧ (sendWalkRead s n w).link = s.link ∧ (sendWalkRead s n w).chord = s.chord ∧
    (sendWalkRead s n w).fresh = s.fresh ∧ (sendWalkRead s n w).pending = s.pending := by
  unfold sendWalkRead
  (try dsimp only)
  (repeat' (split <;> try (rename_i hp; first | (obtain ⟨rfl, rfl⟩ := Prod.ext_iff.mp hp) | (obtain ⟨rfl, hq⟩ := Prod.ext_iff.mp hp; obtain ⟨rfl, rfl⟩ := Prod.ext_iff.mp hq) | (obtain ⟨rfl, hq⟩ := Prod.ext_iff.mp hp; obtain ⟨rfl, _⟩ := Prod.ext_iff.mp hq) | (obtain ⟨_, hq⟩ := Prod.ext_iff.mp hp; obtain ⟨rfl, _⟩ := Prod.ext_iff.mp hq) | (obtain ⟨rfl, _⟩ := Prod.ext_iff.mp hp) | (obtain ⟨_, rfl⟩ := Prod.ext_iff.mp hp)))) <;> first | rfl | (simp; done) | (simp_all; done)

@[simp] theorem beginWalk_frame (s : State) (n : Nat) :
    (beginWalk s n).time = s.time ∧ (beginWalk s n).cp = s.cp ∧ (beginWalk s n).part = s.part ∧
    (beginWalk s n).err = s.err ∧ (beginWalk s n).pwr = s.pwr ∧ (beginWalk s n).mgmt = s.mgmt ∧
    (beginWalk s n).boot = s.boot ∧ (beginWalk s n).cells = s.cells ∧ (beginWalk s n).mem = s.mem ∧
    (beginWalk s n).larder = s.larder ∧ (beginWalk s n).reg = s.reg ∧ (beginWalk s n).attic = s.attic ∧
    (beginWalk s n).link = s.link ∧ (beginWalk s n).chord = s.chord ∧ (beginWalk s n).fresh = s.fresh ∧
    (beginWalk s n).pending = s.pending := by
  unfold beginWalk
  (try dsimp only)
  (repeat' (split <;> try (rename_i hp; first | (obtain ⟨rfl, rfl⟩ := Prod.ext_iff.mp hp) | (obtain ⟨rfl, hq⟩ := Prod.ext_iff.mp hp; obtain ⟨rfl, rfl⟩ := Prod.ext_iff.mp hq) | (obtain ⟨rfl, hq⟩ := Prod.ext_iff.mp hp; obtain ⟨rfl, _⟩ := Prod.ext_iff.mp hq) | (obtain ⟨_, hq⟩ := Prod.ext_iff.mp hp; obtain ⟨rfl, _⟩ := Prod.ext_iff.mp hq) | (obtain ⟨rfl, _⟩ := Prod.ext_iff.mp hp) | (obtain ⟨_, rfl⟩ := Prod.ext_iff.mp hp)))) <;> first | rfl | (simp; done) | (simp_all; done)

@[simp] theorem beginWaiting_frame (s : State) :
    (beginWaiting s).time = s.time ∧ (beginWaiting s).cp = s.cp ∧ (beginWaiting s).part = s.part ∧
    (beginWaiting s).err = s.err ∧ (beginWaiting s).pwr = s.pwr ∧ (beginWaiting s).mgmt = s.mgmt ∧
    (beginWaiting s).boot = s.boot ∧ (beginWaiting s).cells = s.cells ∧ (beginWaiting s).mem = s.mem ∧
    (beginWaiting s).larder = s.larder ∧ (beginWaiting s).reg = s.reg ∧ (beginWaiting s).attic = s.attic ∧
    (beginWaiting s).link = s.link ∧ (beginWaiting s).chord = s.chord ∧ (beginWaiting s).fresh = s.fresh ∧
    (beginWaiting s).pending = s.pending := by
  unfold beginWaiting
  simp

@[simp] theorem startWalk_frame (s : State) (pasid addr : Nat) (write : Bool) (rs : List Requester) (entry : Option Nat) :
    (startWalk s pasid addr write rs entry).time = s.time ∧ (startWalk s pasid addr write rs entry).cp = s.cp ∧
    (startWalk s pasid addr write rs entry).part = s.part ∧ (startWalk s pasid addr write rs entry).err = s.err ∧
    (startWalk s pasid addr write rs entry).pwr = s.pwr ∧ (startWalk s pasid addr write rs entry).mgmt = s.mgmt ∧
    (startWalk s pasid addr write rs entry).boot = s.boot ∧ (startWalk s pasid addr write rs entry).cells = s.cells ∧
    (startWalk s pasid addr write rs entry).mem = s.mem ∧ (startWalk s pasid addr write rs entry).larder = s.larder ∧
    (startWalk s pasid addr write rs entry).reg = s.reg ∧ (startWalk s pasid addr write rs entry).attic = s.attic ∧
    (startWalk s pasid addr write rs entry).link = s.link ∧ (startWalk s pasid addr write rs entry).chord = s.chord ∧
    (startWalk s pasid addr write rs entry).fresh = s.fresh ∧
    (startWalk s pasid addr write rs entry).pending = s.pending := by
  unfold startWalk
  (try dsimp only)
  (repeat' (split <;> try (rename_i hp; first | (obtain ⟨rfl, rfl⟩ := Prod.ext_iff.mp hp) | (obtain ⟨rfl, hq⟩ := Prod.ext_iff.mp hp; obtain ⟨rfl, rfl⟩ := Prod.ext_iff.mp hq) | (obtain ⟨rfl, hq⟩ := Prod.ext_iff.mp hp; obtain ⟨rfl, _⟩ := Prod.ext_iff.mp hq) | (obtain ⟨_, hq⟩ := Prod.ext_iff.mp hp; obtain ⟨rfl, _⟩ := Prod.ext_iff.mp hq) | (obtain ⟨rfl, _⟩ := Prod.ext_iff.mp hp) | (obtain ⟨_, rfl⟩ := Prod.ext_iff.mp hp)))) <;> first | rfl | (simp; done) | (simp_all; done)

@[simp] theorem endWalk_frame (s : State) (n : Nat) :
    (endWalk s n).time = s.time ∧ (endWalk s n).cp = s.cp ∧ (endWalk s n).part = s.part ∧ (endWalk s n).err = s.err ∧
    (endWalk s n).pwr = s.pwr ∧ (endWalk s n).mgmt = s.mgmt ∧ (endWalk s n).boot = s.boot ∧
    (endWalk s n).cells = s.cells ∧ (endWalk s n).mem = s.mem ∧ (endWalk s n).larder = s.larder ∧
    (endWalk s n).reg = s.reg ∧ (endWalk s n).attic = s.attic ∧ (endWalk s n).link = s.link ∧
    (endWalk s n).chord = s.chord ∧ (endWalk s n).fresh = s.fresh ∧ (endWalk s n).pending = s.pending := by
  unfold endWalk
  (try dsimp only)
  (repeat' (split <;> try (rename_i hp; first | (obtain ⟨rfl, rfl⟩ := Prod.ext_iff.mp hp) | (obtain ⟨rfl, hq⟩ := Prod.ext_iff.mp hp; obtain ⟨rfl, rfl⟩ := Prod.ext_iff.mp hq) | (obtain ⟨rfl, hq⟩ := Prod.ext_iff.mp hp; obtain ⟨rfl, _⟩ := Prod.ext_iff.mp hq) | (obtain ⟨_, hq⟩ := Prod.ext_iff.mp hp; obtain ⟨rfl, _⟩ := Prod.ext_iff.mp hq) | (obtain ⟨rfl, _⟩ := Prod.ext_iff.mp hp) | (obtain ⟨_, rfl⟩ := Prod.ext_iff.mp hp)))) <;> first | rfl | (simp; done) | (simp_all; done)

@[simp] theorem openFault_frame (s : State) (w : Walk) (reason : Nat) :
    (openFault s w reason).time = s.time ∧ (openFault s w reason).part = s.part ∧ (openFault s w reason).pwr = s.pwr ∧
    (openFault s w reason).boot = s.boot ∧ (openFault s w reason).cells = s.cells ∧
    (openFault s w reason).mem = s.mem ∧ (openFault s w reason).larder = s.larder ∧
    (openFault s w reason).reg = s.reg ∧ (openFault s w reason).attic = s.attic ∧
    (openFault s w reason).link = s.link ∧ (openFault s w reason).chord = s.chord ∧
    (openFault s w reason).fresh = s.fresh ∧ (openFault s w reason).pending = s.pending := by
  unfold openFault
  (try dsimp only)
  (repeat' (split <;> try (rename_i hp; first | (obtain ⟨rfl, rfl⟩ := Prod.ext_iff.mp hp) | (obtain ⟨rfl, hq⟩ := Prod.ext_iff.mp hp; obtain ⟨rfl, rfl⟩ := Prod.ext_iff.mp hq) | (obtain ⟨rfl, hq⟩ := Prod.ext_iff.mp hp; obtain ⟨rfl, _⟩ := Prod.ext_iff.mp hq) | (obtain ⟨_, hq⟩ := Prod.ext_iff.mp hp; obtain ⟨rfl, _⟩ := Prod.ext_iff.mp hq) | (obtain ⟨rfl, _⟩ := Prod.ext_iff.mp hp) | (obtain ⟨_, rfl⟩ := Prod.ext_iff.mp hp)))) <;> first | rfl | (simp; done) | (simp_all; done)

@[simp] theorem cacheLeaf_frame (s : State) (l : Leaf) :
    (cacheLeaf s l).time = s.time ∧ (cacheLeaf s l).cp = s.cp ∧ (cacheLeaf s l).part = s.part ∧
    (cacheLeaf s l).err = s.err ∧ (cacheLeaf s l).pwr = s.pwr ∧ (cacheLeaf s l).mgmt = s.mgmt ∧
    (cacheLeaf s l).boot = s.boot ∧ (cacheLeaf s l).cells = s.cells ∧ (cacheLeaf s l).mem = s.mem ∧
    (cacheLeaf s l).larder = s.larder ∧ (cacheLeaf s l).reg = s.reg ∧ (cacheLeaf s l).attic = s.attic ∧
    (cacheLeaf s l).link = s.link ∧ (cacheLeaf s l).chord = s.chord ∧ (cacheLeaf s l).fresh = s.fresh ∧
    (cacheLeaf s l).out = s.out ∧ (cacheLeaf s l).pending = s.pending := by
  unfold cacheLeaf
  simp

@[simp] theorem cachePs_frame (s : State) (e : PsEntry) :
    (cachePs s e).time = s.time ∧ (cachePs s e).cp = s.cp ∧ (cachePs s e).part = s.part ∧ (cachePs s e).err = s.err ∧
    (cachePs s e).pwr = s.pwr ∧ (cachePs s e).mgmt = s.mgmt ∧ (cachePs s e).boot = s.boot ∧
    (cachePs s e).cells = s.cells ∧ (cachePs s e).mem = s.mem ∧ (cachePs s e).larder = s.larder ∧
    (cachePs s e).reg = s.reg ∧ (cachePs s e).attic = s.attic ∧ (cachePs s e).link = s.link ∧
    (cachePs s e).chord = s.chord ∧ (cachePs s e).fresh = s.fresh ∧ (cachePs s e).out = s.out ∧
    (cachePs s e).pending = s.pending := by
  unfold cachePs
  simp

@[simp] theorem finishWalk_frame (s : State) (n : Nat) (w : Walk) (b : Binding) (x : Nat) :
    (finishWalk s n w b x).time = s.time ∧ (finishWalk s n w b x).part = s.part ∧ (finishWalk s n w b x).pwr = s.pwr ∧
    (finishWalk s n w b x).boot = s.boot ∧ (finishWalk s n w b x).cells = s.cells ∧
    (finishWalk s n w b x).mem = s.mem ∧ (finishWalk s n w b x).larder = s.larder ∧
    (finishWalk s n w b x).reg = s.reg ∧ (finishWalk s n w b x).attic = s.attic ∧
    (finishWalk s n w b x).link = s.link ∧ (finishWalk s n w b x).chord = s.chord ∧
    (finishWalk s n w b x).fresh = s.fresh ∧ (finishWalk s n w b x).pending = s.pending := by
  unfold finishWalk
  simp

@[simp] theorem leafRead_frame (s : State) (n : Nat) (w : Walk) (b : Binding) (x : Nat) :
    (leafRead s n w b x).time = s.time ∧ (leafRead s n w b x).part = s.part ∧ (leafRead s n w b x).pwr = s.pwr ∧
    (leafRead s n w b x).boot = s.boot ∧ (leafRead s n w b x).cells = s.cells ∧ (leafRead s n w b x).mem = s.mem ∧
    (leafRead s n w b x).larder = s.larder ∧ (leafRead s n w b x).reg = s.reg ∧ (leafRead s n w b x).attic = s.attic ∧
    (leafRead s n w b x).link = s.link ∧ (leafRead s n w b x).chord = s.chord ∧ (leafRead s n w b x).fresh = s.fresh ∧
    (leafRead s n w b x).pending = s.pending := by
  unfold leafRead
  simp

@[simp] theorem noteMicro_frame (s : State) (who : Asker) (l : Leaf) :
    (noteMicro s who l).time = s.time ∧ (noteMicro s who l).cp = s.cp ∧ (noteMicro s who l).part = s.part ∧
    (noteMicro s who l).err = s.err ∧ (noteMicro s who l).pwr = s.pwr ∧ (noteMicro s who l).mgmt = s.mgmt ∧
    (noteMicro s who l).boot = s.boot ∧ (noteMicro s who l).cells = s.cells ∧ (noteMicro s who l).mem = s.mem ∧
    (noteMicro s who l).larder = s.larder ∧ (noteMicro s who l).reg = s.reg ∧ (noteMicro s who l).attic = s.attic ∧
    (noteMicro s who l).link = s.link ∧ (noteMicro s who l).chord = s.chord ∧ (noteMicro s who l).fresh = s.fresh ∧
    (noteMicro s who l).out = s.out ∧ (noteMicro s who l).pending = s.pending := by
  unfold noteMicro
  simp

@[simp] theorem translate_frame (s : State) (pasid ctx addr : Nat) (write : Bool) (who : Asker) :
    (translate s pasid ctx addr write who).1.time = s.time ∧ (translate s pasid ctx addr write who).1.part = s.part ∧
    (translate s pasid ctx addr write who).1.pwr = s.pwr ∧ (translate s pasid ctx addr write who).1.boot = s.boot ∧
    (translate s pasid ctx addr write who).1.cells = s.cells ∧ (translate s pasid ctx addr write who).1.mem = s.mem ∧
    (translate s pasid ctx addr write who).1.larder = s.larder ∧
    (translate s pasid ctx addr write who).1.reg = s.reg ∧ (translate s pasid ctx addr write who).1.attic = s.attic ∧
    (translate s pasid ctx addr write who).1.link = s.link ∧
    (translate s pasid ctx addr write who).1.chord = s.chord ∧
    (translate s pasid ctx addr write who).1.fresh = s.fresh ∧
    (translate s pasid ctx addr write who).1.pending = s.pending := by
  unfold translate
  (try dsimp only)
  (repeat' (split <;> try (rename_i hp; first | (obtain ⟨rfl, rfl⟩ := Prod.ext_iff.mp hp) | (obtain ⟨rfl, hq⟩ := Prod.ext_iff.mp hp; obtain ⟨rfl, rfl⟩ := Prod.ext_iff.mp hq) | (obtain ⟨rfl, hq⟩ := Prod.ext_iff.mp hp; obtain ⟨rfl, _⟩ := Prod.ext_iff.mp hq) | (obtain ⟨_, hq⟩ := Prod.ext_iff.mp hp; obtain ⟨rfl, _⟩ := Prod.ext_iff.mp hq) | (obtain ⟨rfl, _⟩ := Prod.ext_iff.mp hp) | (obtain ⟨_, rfl⟩ := Prod.ext_iff.mp hp)))) <;> first | rfl | (simp; done) | (simp_all; done)

@[simp] theorem grantUse_frame (s : State) (who : Asker) (u : Use) :
    (grantUse s who u).1.time = s.time ∧ (grantUse s who u).1.cp = s.cp ∧ (grantUse s who u).1.part = s.part ∧
    (grantUse s who u).1.err = s.err ∧ (grantUse s who u).1.pwr = s.pwr ∧ (grantUse s who u).1.mgmt = s.mgmt ∧
    (grantUse s who u).1.boot = s.boot ∧ (grantUse s who u).1.cells = s.cells ∧ (grantUse s who u).1.mem = s.mem ∧
    (grantUse s who u).1.larder = s.larder ∧ (grantUse s who u).1.reg = s.reg ∧ (grantUse s who u).1.attic = s.attic ∧
    (grantUse s who u).1.link = s.link ∧ (grantUse s who u).1.chord = s.chord ∧ (grantUse s who u).1.fresh = s.fresh ∧
    (grantUse s who u).1.out = s.out ∧ (grantUse s who u).1.pending = s.pending := by
  unfold grantUse
  simp

@[simp] theorem landUse_frame (s : State) (n : Nat) :
    (landUse s n).time = s.time ∧ (landUse s n).cp = s.cp ∧ (landUse s n).part = s.part ∧ (landUse s n).err = s.err ∧
    (landUse s n).pwr = s.pwr ∧ (landUse s n).mgmt = s.mgmt ∧ (landUse s n).boot = s.boot ∧
    (landUse s n).cells = s.cells ∧ (landUse s n).mem = s.mem ∧ (landUse s n).larder = s.larder ∧
    (landUse s n).reg = s.reg ∧ (landUse s n).attic = s.attic ∧ (landUse s n).link = s.link ∧
    (landUse s n).chord = s.chord ∧ (landUse s n).fresh = s.fresh ∧ (landUse s n).out = s.out ∧
    (landUse s n).pending = s.pending := by
  unfold landUse
  simp

@[simp] theorem detach_frame (s : State) (who : Asker) :
    (detach s who).time = s.time ∧ (detach s who).part = s.part ∧ (detach s who).err = s.err ∧
    (detach s who).pwr = s.pwr ∧ (detach s who).mgmt = s.mgmt ∧ (detach s who).boot = s.boot ∧
    (detach s who).cells = s.cells ∧ (detach s who).mem = s.mem ∧ (detach s who).larder = s.larder ∧
    (detach s who).reg = s.reg ∧ (detach s who).attic = s.attic ∧ (detach s who).link = s.link ∧
    (detach s who).chord = s.chord ∧ (detach s who).fresh = s.fresh ∧ (detach s who).out = s.out ∧
    (detach s who).pending = s.pending := by
  unfold detach
  simp

@[simp] theorem retryEntry_frame (s : State) (i : Nat) (f : FaultEntry) :
    (retryEntry s i f).time = s.time ∧ (retryEntry s i f).cp = s.cp ∧ (retryEntry s i f).part = s.part ∧
    (retryEntry s i f).err = s.err ∧ (retryEntry s i f).pwr = s.pwr ∧ (retryEntry s i f).mgmt = s.mgmt ∧
    (retryEntry s i f).boot = s.boot ∧ (retryEntry s i f).cells = s.cells ∧ (retryEntry s i f).mem = s.mem ∧
    (retryEntry s i f).larder = s.larder ∧ (retryEntry s i f).reg = s.reg ∧ (retryEntry s i f).attic = s.attic ∧
    (retryEntry s i f).link = s.link ∧ (retryEntry s i f).chord = s.chord ∧ (retryEntry s i f).fresh = s.fresh ∧
    (retryEntry s i f).pending = s.pending := by
  unfold retryEntry
  simp

@[simp] theorem beginDrain_frame (s : State) (pasid lo n : Nat) :
    (beginDrain s pasid lo n).1.time = s.time ∧ (beginDrain s pasid lo n).1.cp = s.cp ∧
    (beginDrain s pasid lo n).1.part = s.part ∧ (beginDrain s pasid lo n).1.err = s.err ∧
    (beginDrain s pasid lo n).1.pwr = s.pwr ∧ (beginDrain s pasid lo n).1.mgmt = s.mgmt ∧
    (beginDrain s pasid lo n).1.boot = s.boot ∧ (beginDrain s pasid lo n).1.cells = s.cells ∧
    (beginDrain s pasid lo n).1.mem = s.mem ∧ (beginDrain s pasid lo n).1.larder = s.larder ∧
    (beginDrain s pasid lo n).1.reg = s.reg ∧ (beginDrain s pasid lo n).1.attic = s.attic ∧
    (beginDrain s pasid lo n).1.link = s.link ∧ (beginDrain s pasid lo n).1.chord = s.chord ∧
    (beginDrain s pasid lo n).1.fresh = s.fresh ∧ (beginDrain s pasid lo n).1.pending = s.pending := by
  unfold beginDrain
  simp

@[simp] theorem beginUnbind_frame (s : State) (seq pasid : Nat) :
    (beginUnbind s seq pasid).time = s.time ∧ (beginUnbind s seq pasid).part = s.part ∧
    (beginUnbind s seq pasid).pwr = s.pwr ∧ (beginUnbind s seq pasid).boot = s.boot ∧
    (beginUnbind s seq pasid).cells = s.cells ∧ (beginUnbind s seq pasid).mem = s.mem ∧
    (beginUnbind s seq pasid).larder = s.larder ∧ (beginUnbind s seq pasid).reg = s.reg ∧
    (beginUnbind s seq pasid).attic = s.attic ∧ (beginUnbind s seq pasid).link = s.link ∧
    (beginUnbind s seq pasid).chord = s.chord ∧ (beginUnbind s seq pasid).fresh = s.fresh ∧
    (beginUnbind s seq pasid).pending = s.pending := by
  unfold beginUnbind
  simp

end Sys2Proof.Machine
end

