-- ==== Sys2Proof/Laws/FrameStop.lean ====
section
/-! SUPPORT. What each operation of Machine/Stop.lean leaves as it was, by component of the state. -/
set_option maxRecDepth 4000
set_option exponentiation.threshold 2000
namespace Sys2Proof.Machine

@[simp] theorem modStep_frame (s : State) (slot : Nat) (f : Step → Step) :
    (modStep s slot f).time = s.time ∧ (modStep s slot f).cp = s.cp ∧ (modStep s slot f).part = s.part ∧
    (modStep s slot f).err = s.err ∧ (modStep s slot f).pwr = s.pwr ∧ (modStep s slot f).mgmt = s.mgmt ∧
    (modStep s slot f).boot = s.boot ∧ (modStep s slot f).cells = s.cells ∧ (modStep s slot f).mem = s.mem ∧
    (modStep s slot f).reg = s.reg ∧ (modStep s slot f).trans = s.trans ∧ (modStep s slot f).attic = s.attic ∧
    (modStep s slot f).link = s.link ∧ (modStep s slot f).chord = s.chord ∧ (modStep s slot f).fresh = s.fresh ∧
    (modStep s slot f).out = s.out ∧ (modStep s slot f).pending = s.pending := by
  unfold modStep
  simp

@[simp] theorem leavePegs_frame (s : State) (cores : List Nat) :
    (leavePegs s cores).time = s.time ∧ (leavePegs s cores).cp = s.cp ∧ (leavePegs s cores).part = s.part ∧
    (leavePegs s cores).err = s.err ∧ (leavePegs s cores).pwr = s.pwr ∧ (leavePegs s cores).mgmt = s.mgmt ∧
    (leavePegs s cores).boot = s.boot ∧ (leavePegs s cores).mem = s.mem ∧ (leavePegs s cores).larder = s.larder ∧
    (leavePegs s cores).reg = s.reg ∧ (leavePegs s cores).trans = s.trans ∧ (leavePegs s cores).attic = s.attic ∧
    (leavePegs s cores).link = s.link ∧ (leavePegs s cores).chord = s.chord ∧ (leavePegs s cores).fresh = s.fresh ∧
    (leavePegs s cores).out = s.out ∧ (leavePegs s cores).pending = s.pending := by
  unfold leavePegs
  simp

@[simp] theorem stopCores_frame (s : State) (slot : Nat) :
    (stopCores s slot).time = s.time ∧ (stopCores s slot).cp = s.cp ∧ (stopCores s slot).part = s.part ∧
    (stopCores s slot).err = s.err ∧ (stopCores s slot).pwr = s.pwr ∧ (stopCores s slot).mgmt = s.mgmt ∧
    (stopCores s slot).boot = s.boot ∧ (stopCores s slot).mem = s.mem ∧ (stopCores s slot).larder = s.larder ∧
    (stopCores s slot).reg = s.reg ∧ (stopCores s slot).trans = s.trans ∧ (stopCores s slot).attic = s.attic ∧
    (stopCores s slot).link = s.link ∧ (stopCores s slot).chord = s.chord ∧ (stopCores s slot).fresh = s.fresh ∧
    (stopCores s slot).out = s.out ∧ (stopCores s slot).pending = s.pending := by
  unfold stopCores
  simp

@[simp] theorem detachJob_frame (s : State) (c id : Nat) :
    (detachJob s c id).time = s.time ∧ (detachJob s c id).part = s.part ∧ (detachJob s c id).err = s.err ∧
    (detachJob s c id).pwr = s.pwr ∧ (detachJob s c id).mgmt = s.mgmt ∧ (detachJob s c id).boot = s.boot ∧
    (detachJob s c id).cells = s.cells ∧ (detachJob s c id).mem = s.mem ∧ (detachJob s c id).larder = s.larder ∧
    (detachJob s c id).reg = s.reg ∧ (detachJob s c id).attic = s.attic ∧ (detachJob s c id).link = s.link ∧
    (detachJob s c id).chord = s.chord ∧ (detachJob s c id).fresh = s.fresh ∧ (detachJob s c id).out = s.out ∧
    (detachJob s c id).pending = s.pending := by
  unfold detachJob
  simp

@[simp] theorem dropJobs_frame (s : State) (slot : Nat) :
    (dropJobs s slot).time = s.time ∧ (dropJobs s slot).part = s.part ∧ (dropJobs s slot).err = s.err ∧
    (dropJobs s slot).pwr = s.pwr ∧ (dropJobs s slot).mgmt = s.mgmt ∧ (dropJobs s slot).boot = s.boot ∧
    (dropJobs s slot).cells = s.cells ∧ (dropJobs s slot).mem = s.mem ∧ (dropJobs s slot).reg = s.reg ∧
    (dropJobs s slot).attic = s.attic ∧ (dropJobs s slot).link = s.link ∧ (dropJobs s slot).chord = s.chord ∧
    (dropJobs s slot).fresh = s.fresh ∧ (dropJobs s slot).out = s.out ∧ (dropJobs s slot).pending = s.pending := by
  unfold dropJobs
  simp

@[simp] theorem stopAttic_frame (s : State) (slot : Nat) (cancel : Bool) (policy : OverrunPolicy) :
    (stopAttic s slot cancel policy).time = s.time ∧ (stopAttic s slot cancel policy).cp = s.cp ∧
    (stopAttic s slot cancel policy).part = s.part ∧ (stopAttic s slot cancel policy).err = s.err ∧
    (stopAttic s slot cancel policy).pwr = s.pwr ∧ (stopAttic s slot cancel policy).mgmt = s.mgmt ∧
    (stopAttic s slot cancel policy).boot = s.boot ∧ (stopAttic s slot cancel policy).cells = s.cells ∧
    (stopAttic s slot cancel policy).mem = s.mem ∧ (stopAttic s slot cancel policy).larder = s.larder ∧
    (stopAttic s slot cancel policy).reg = s.reg ∧ (stopAttic s slot cancel policy).trans = s.trans ∧
    (stopAttic s slot cancel policy).link = s.link ∧ (stopAttic s slot cancel policy).chord = s.chord ∧
    (stopAttic s slot cancel policy).fresh = s.fresh ∧ (stopAttic s slot cancel policy).pending = s.pending := by
  unfold stopAttic
  simp

@[simp] theorem cancelPeers_frame (s : State) (slot : Nat) :
    (cancelPeers s slot).time = s.time ∧ (cancelPeers s slot).cp = s.cp ∧ (cancelPeers s slot).part = s.part ∧
    (cancelPeers s slot).err = s.err ∧ (cancelPeers s slot).pwr = s.pwr ∧ (cancelPeers s slot).mgmt = s.mgmt ∧
    (cancelPeers s slot).boot = s.boot ∧ (cancelPeers s slot).cells = s.cells ∧ (cancelPeers s slot).mem = s.mem ∧
    (cancelPeers s slot).larder = s.larder ∧ (cancelPeers s slot).reg = s.reg ∧ (cancelPeers s slot).trans = s.trans ∧
    (cancelPeers s slot).attic = s.attic ∧ (cancelPeers s slot).link = s.link ∧ (cancelPeers s slot).fresh = s.fresh ∧
    (cancelPeers s slot).pending = s.pending := by
  unfold cancelPeers
  simp

@[simp] theorem stopStep_frame (s : State) (slot : Nat) (code : Status) (cancel : Bool) :
    (stopStep s slot code cancel).time = s.time ∧ (stopStep s slot code cancel).part = s.part ∧
    (stopStep s slot code cancel).err = s.err ∧ (stopStep s slot code cancel).pwr = s.pwr ∧
    (stopStep s slot code cancel).mgmt = s.mgmt ∧ (stopStep s slot code cancel).boot = s.boot ∧
    (stopStep s slot code cancel).mem = s.mem ∧ (stopStep s slot code cancel).reg = s.reg ∧
    (stopStep s slot code cancel).link = s.link ∧ (stopStep s slot code cancel).fresh = s.fresh ∧
    (stopStep s slot code cancel).pending = s.pending := by
  unfold stopStep
  (try dsimp only)
  (repeat' (split <;> try (rename_i hp; first | (obtain ⟨rfl, rfl⟩ := Prod.ext_iff.mp hp) | (obtain ⟨rfl, hq⟩ := Prod.ext_iff.mp hp; obtain ⟨rfl, rfl⟩ := Prod.ext_iff.mp hq) | (obtain ⟨rfl, hq⟩ := Prod.ext_iff.mp hp; obtain ⟨rfl, _⟩ := Prod.ext_iff.mp hq) | (obtain ⟨_, hq⟩ := Prod.ext_iff.mp hp; obtain ⟨rfl, _⟩ := Prod.ext_iff.mp hq) | (obtain ⟨rfl, _⟩ := Prod.ext_iff.mp hp) | (obtain ⟨_, rfl⟩ := Prod.ext_iff.mp hp)))) <;> first | rfl | (simp; done) | (simp_all; done)

@[simp] theorem setFailure_frame (s : State) (slot : Nat) (code : Status) (ref : Nat) :
    (setFailure s slot code ref).time = s.time ∧ (setFailure s slot code ref).cp = s.cp ∧
    (setFailure s slot code ref).part = s.part ∧ (setFailure s slot code ref).err = s.err ∧
    (setFailure s slot code ref).pwr = s.pwr ∧ (setFailure s slot code ref).mgmt = s.mgmt ∧
    (setFailure s slot code ref).boot = s.boot ∧ (setFailure s slot code ref).cells = s.cells ∧
    (setFailure s slot code ref).mem = s.mem ∧ (setFailure s slot code ref).reg = s.reg ∧
    (setFailure s slot code ref).trans = s.trans ∧ (setFailure s slot code ref).attic = s.attic ∧
    (setFailure s slot code ref).link = s.link ∧ (setFailure s slot code ref).chord = s.chord ∧
    (setFailure s slot code ref).fresh = s.fresh ∧ (setFailure s slot code ref).out = s.out ∧
    (setFailure s slot code ref).pending = s.pending := by
  unfold setFailure
  simp

@[simp] theorem failStep_frame (s : State) (slot : Nat) (code : Status) (ref : Nat) :
    (failStep s slot code ref).time = s.time ∧ (failStep s slot code ref).part = s.part ∧
    (failStep s slot code ref).err = s.err ∧ (failStep s slot code ref).pwr = s.pwr ∧
    (failStep s slot code ref).mgmt = s.mgmt ∧ (failStep s slot code ref).boot = s.boot ∧
    (failStep s slot code ref).mem = s.mem ∧ (failStep s slot code ref).reg = s.reg ∧
    (failStep s slot code ref).link = s.link ∧ (failStep s slot code ref).fresh = s.fresh ∧
    (failStep s slot code ref).pending = s.pending := by
  unfold failStep
  simp

@[simp] theorem coreError_frame (s : State) (k : Nat) (code addr : Nat) :
    (coreError s k code addr).time = s.time ∧ (coreError s k code addr).part = s.part ∧
    (coreError s k code addr).pwr = s.pwr ∧ (coreError s k code addr).boot = s.boot ∧
    (coreError s k code addr).mem = s.mem ∧ (coreError s k code addr).reg = s.reg ∧
    (coreError s k code addr).link = s.link ∧ (coreError s k code addr).fresh = s.fresh ∧
    (coreError s k code addr).pending = s.pending := by
  unfold coreError
  (try dsimp only)
  (repeat' (split <;> try (rename_i hp; first | (obtain ⟨rfl, rfl⟩ := Prod.ext_iff.mp hp) | (obtain ⟨rfl, hq⟩ := Prod.ext_iff.mp hp; obtain ⟨rfl, rfl⟩ := Prod.ext_iff.mp hq) | (obtain ⟨rfl, hq⟩ := Prod.ext_iff.mp hp; obtain ⟨rfl, _⟩ := Prod.ext_iff.mp hq) | (obtain ⟨_, hq⟩ := Prod.ext_iff.mp hp; obtain ⟨rfl, _⟩ := Prod.ext_iff.mp hq) | (obtain ⟨rfl, _⟩ := Prod.ext_iff.mp hp) | (obtain ⟨_, rfl⟩ := Prod.ext_iff.mp hp)))) <;> first | rfl | (simp; done) | (simp_all; done)

@[simp] theorem breakRegion_frame (s : State) (k g : Nat) :
    (breakRegion s k g).time = s.time ∧ (breakRegion s k g).part = s.part ∧ (breakRegion s k g).err = s.err ∧
    (breakRegion s k g).pwr = s.pwr ∧ (breakRegion s k g).mgmt = s.mgmt ∧ (breakRegion s k g).boot = s.boot ∧
    (breakRegion s k g).mem = s.mem ∧ (breakRegion s k g).reg = s.reg ∧ (breakRegion s k g).link = s.link ∧
    (breakRegion s k g).pending = s.pending := by
  unfold breakRegion
  (try dsimp only)
  (repeat' (split <;> try (rename_i hp; first | (obtain ⟨rfl, rfl⟩ := Prod.ext_iff.mp hp) | (obtain ⟨rfl, hq⟩ := Prod.ext_iff.mp hp; obtain ⟨rfl, rfl⟩ := Prod.ext_iff.mp hq) | (obtain ⟨rfl, hq⟩ := Prod.ext_iff.mp hp; obtain ⟨rfl, _⟩ := Prod.ext_iff.mp hq) | (obtain ⟨_, hq⟩ := Prod.ext_iff.mp hp; obtain ⟨rfl, _⟩ := Prod.ext_iff.mp hq) | (obtain ⟨rfl, _⟩ := Prod.ext_iff.mp hp) | (obtain ⟨_, rfl⟩ := Prod.ext_iff.mp hp)))) <;> first | rfl | (simp; done) | (simp_all; done)

end Sys2Proof.Machine
end

