-- ==== Sys2Proof/Laws/FrameThreads.lean ====
section
/-! SUPPORT. What each operation of Machine/Threads.lean leaves as it was, by component of the state. -/
set_option maxRecDepth 4000
set_option exponentiation.threshold 2000
namespace Sys2Proof.Machine

@[simp] theorem modGroup_frame (s : State) (k g : Nat) (f : Group → Group) :
    (modGroup s k g f).time = s.time ∧ (modGroup s k g f).cp = s.cp ∧ (modGroup s k g f).part = s.part ∧
    (modGroup s k g f).err = s.err ∧ (modGroup s k g f).pwr = s.pwr ∧ (modGroup s k g f).mgmt = s.mgmt ∧
    (modGroup s k g f).boot = s.boot ∧ (modGroup s k g f).mem = s.mem ∧ (modGroup s k g f).larder = s.larder ∧
    (modGroup s k g f).reg = s.reg ∧ (modGroup s k g f).trans = s.trans ∧ (modGroup s k g f).attic = s.attic ∧
    (modGroup s k g f).link = s.link ∧ (modGroup s k g f).chord = s.chord ∧ (modGroup s k g f).fresh = s.fresh ∧
    (modGroup s k g f).out = s.out ∧ (modGroup s k g f).pending = s.pending := by
  unfold modGroup
  simp

@[simp] theorem moveThreads_frame (s : State) (k gi : Nat) (ts : List Nat) (pcOf : Nat → Nat) :
    (moveThreads s k gi ts pcOf).time = s.time ∧ (moveThreads s k gi ts pcOf).part = s.part ∧
    (moveThreads s k gi ts pcOf).err = s.err ∧ (moveThreads s k gi ts pcOf).pwr = s.pwr ∧
    (moveThreads s k gi ts pcOf).mgmt = s.mgmt ∧ (moveThreads s k gi ts pcOf).boot = s.boot ∧
    (moveThreads s k gi ts pcOf).mem = s.mem ∧ (moveThreads s k gi ts pcOf).reg = s.reg ∧
    (moveThreads s k gi ts pcOf).link = s.link ∧ (moveThreads s k gi ts pcOf).pending = s.pending := by
  unfold moveThreads
  (try dsimp only)
  (repeat' (split <;> try (rename_i hp; first | (obtain ⟨rfl, rfl⟩ := Prod.ext_iff.mp hp) | (obtain ⟨rfl, hq⟩ := Prod.ext_iff.mp hp; obtain ⟨rfl, rfl⟩ := Prod.ext_iff.mp hq) | (obtain ⟨rfl, hq⟩ := Prod.ext_iff.mp hp; obtain ⟨rfl, _⟩ := Prod.ext_iff.mp hq) | (obtain ⟨_, hq⟩ := Prod.ext_iff.mp hp; obtain ⟨rfl, _⟩ := Prod.ext_iff.mp hq) | (obtain ⟨rfl, _⟩ := Prod.ext_iff.mp hp) | (obtain ⟨_, rfl⟩ := Prod.ext_iff.mp hp)))) <;> first | rfl | (simp; done) | (simp_all; done)

@[simp] theorem advance_frame (s : State) (i : Issue) (ts : List Nat) :
    (advance s i ts).time = s.time ∧ (advance s i ts).part = s.part ∧ (advance s i ts).err = s.err ∧
    (advance s i ts).pwr = s.pwr ∧ (advance s i ts).mgmt = s.mgmt ∧ (advance s i ts).boot = s.boot ∧
    (advance s i ts).mem = s.mem ∧ (advance s i ts).reg = s.reg ∧ (advance s i ts).link = s.link ∧
    (advance s i ts).pending = s.pending := by
  unfold advance
  simp

@[simp] theorem setWaits_frame (s : State) (k gi : Nat) (ts : List Nat) (w : Nat → Wait) :
    (setWaits s k gi ts w).time = s.time ∧ (setWaits s k gi ts w).cp = s.cp ∧ (setWaits s k gi ts w).part = s.part ∧
    (setWaits s k gi ts w).err = s.err ∧ (setWaits s k gi ts w).pwr = s.pwr ∧ (setWaits s k gi ts w).mgmt = s.mgmt ∧
    (setWaits s k gi ts w).boot = s.boot ∧ (setWaits s k gi ts w).mem = s.mem ∧
    (setWaits s k gi ts w).larder = s.larder ∧ (setWaits s k gi ts w).reg = s.reg ∧
    (setWaits s k gi ts w).trans = s.trans ∧ (setWaits s k gi ts w).attic = s.attic ∧
    (setWaits s k gi ts w).link = s.link ∧ (setWaits s k gi ts w).chord = s.chord ∧
    (setWaits s k gi ts w).fresh = s.fresh ∧ (setWaits s k gi ts w).out = s.out ∧
    (setWaits s k gi ts w).pending = s.pending := by
  unfold setWaits
  simp

@[simp] theorem issue_time (s : State) (i : Issue) (regs preds : List Nat) (also : Wait → Bool) (body : State → Group → List Nat → State) (h0 : ∀ a0 a1 a2, (body a0 a1 a2).time = a0.time) :
    (issue s i regs preds also body).time = s.time := by
  unfold issue
  first
  | (simp [h0]; done)
  | ((try dsimp only)
     (repeat' (split <;> try (rename_i hp; first | (obtain ⟨rfl, rfl⟩ := Prod.ext_iff.mp hp) | (obtain ⟨rfl, hq⟩ := Prod.ext_iff.mp hp; obtain ⟨rfl, rfl⟩ := Prod.ext_iff.mp hq) | (obtain ⟨rfl, hq⟩ := Prod.ext_iff.mp hp; obtain ⟨rfl, _⟩ := Prod.ext_iff.mp hq) | (obtain ⟨_, hq⟩ := Prod.ext_iff.mp hp; obtain ⟨rfl, _⟩ := Prod.ext_iff.mp hq) | (obtain ⟨rfl, _⟩ := Prod.ext_iff.mp hp) | (obtain ⟨_, rfl⟩ := Prod.ext_iff.mp hp)))) <;> first | rfl | (simp [h0]; done) | (simp_all; done))

@[simp] theorem issue_part (s : State) (i : Issue) (regs preds : List Nat) (also : Wait → Bool) (body : State → Group → List Nat → State) (h0 : ∀ a0 a1 a2, (body a0 a1 a2).part = a0.part) :
    (issue s i regs preds also body).part = s.part := by
  unfold issue
  first
  | (simp [h0]; done)
  | ((try dsimp only)
     (repeat' (split <;> try (rename_i hp; first | (obtain ⟨rfl, rfl⟩ := Prod.ext_iff.mp hp) | (obtain ⟨rfl, hq⟩ := Prod.ext_iff.mp hp; obtain ⟨rfl, rfl⟩ := Prod.ext_iff.mp hq) | (obtain ⟨rfl, hq⟩ := Prod.ext_iff.mp hp; obtain ⟨rfl, _⟩ := Prod.ext_iff.mp hq) | (obtain ⟨_, hq⟩ := Prod.ext_iff.mp hp; obtain ⟨rfl, _⟩ := Prod.ext_iff.mp hq) | (obtain ⟨rfl, _⟩ := Prod.ext_iff.mp hp) | (obtain ⟨_, rfl⟩ := Prod.ext_iff.mp hp)))) <;> first | rfl | (simp [h0]; done) | (simp_all; done))

@[simp] theorem issue_err (s : State) (i : Issue) (regs preds : List Nat) (also : Wait → Bool) (body : State → Group → List Nat → State) (h0 : ∀ a0 a1 a2, (body a0 a1 a2).err = a0.err) :
    (issue s i regs preds also body).err = s.err := by
  unfold issue
  first
  | (simp [h0]; done)
  | ((try dsimp only)
     (repeat' (split <;> try (rename_i hp; first | (obtain ⟨rfl, rfl⟩ := Prod.ext_iff.mp hp) | (obtain ⟨rfl, hq⟩ := Prod.ext_iff.mp hp; obtain ⟨rfl, rfl⟩ := Prod.ext_iff.mp hq) | (obtain ⟨rfl, hq⟩ := Prod.ext_iff.mp hp; obtain ⟨rfl, _⟩ := Prod.ext_iff.mp hq) | (obtain ⟨_, hq⟩ := Prod.ext_iff.mp hp; obtain ⟨rfl, _⟩ := Prod.ext_iff.mp hq) | (obtain ⟨rfl, _⟩ := Prod.ext_iff.mp hp) | (obtain ⟨_, rfl⟩ := Prod.ext_iff.mp hp)))) <;> first | rfl | (simp [h0]; done) | (simp_all; done))

@[simp] theorem issue_pwr (s : State) (i : Issue) (regs preds : List Nat) (also : Wait → Bool) (body : State → Group → List Nat → State) (h0 : ∀ a0 a1 a2, (body a0 a1 a2).pwr = a0.pwr) :
    (issue s i regs preds also body).pwr = s.pwr := by
  unfold issue
  first
  | (simp [h0]; done)
  | ((try dsimp only)
     (repeat' (split <;> try (rename_i hp; first | (obtain ⟨rfl, rfl⟩ := Prod.ext_iff.mp hp) | (obtain ⟨rfl, hq⟩ := Prod.ext_iff.mp hp; obtain ⟨rfl, rfl⟩ := Prod.ext_iff.mp hq) | (obtain ⟨rfl, hq⟩ := Prod.ext_iff.mp hp; obtain ⟨rfl, _⟩ := Prod.ext_iff.mp hq) | (obtain ⟨_, hq⟩ := Prod.ext_iff.mp hp; obtain ⟨rfl, _⟩ := Prod.ext_iff.mp hq) | (obtain ⟨rfl, _⟩ := Prod.ext_iff.mp hp) | (obtain ⟨_, rfl⟩ := Prod.ext_iff.mp hp)))) <;> first | rfl | (simp [h0]; done) | (simp_all; done))

@[simp] theorem issue_mgmt (s : State) (i : Issue) (regs preds : List Nat) (also : Wait → Bool) (body : State → Group → List Nat → State) (h0 : ∀ a0 a1 a2, (body a0 a1 a2).mgmt = a0.mgmt) :
    (issue s i regs preds also body).mgmt = s.mgmt := by
  unfold issue
  first
  | (simp [h0]; done)
  | ((try dsimp only)
     (repeat' (split <;> try (rename_i hp; first | (obtain ⟨rfl, rfl⟩ := Prod.ext_iff.mp hp) | (obtain ⟨rfl, hq⟩ := Prod.ext_iff.mp hp; obtain ⟨rfl, rfl⟩ := Prod.ext_iff.mp hq) | (obtain ⟨rfl, hq⟩ := Prod.ext_iff.mp hp; obtain ⟨rfl, _⟩ := Prod.ext_iff.mp hq) | (obtain ⟨_, hq⟩ := Prod.ext_iff.mp hp; obtain ⟨rfl, _⟩ := Prod.ext_iff.mp hq) | (obtain ⟨rfl, _⟩ := Prod.ext_iff.mp hp) | (obtain ⟨_, rfl⟩ := Prod.ext_iff.mp hp)))) <;> first | rfl | (simp [h0]; done) | (simp_all; done))

@[simp] theorem issue_boot (s : State) (i : Issue) (regs preds : List Nat) (also : Wait → Bool) (body : State → Group → List Nat → State) (h0 : ∀ a0 a1 a2, (body a0 a1 a2).boot = a0.boot) :
    (issue s i regs preds also body).boot = s.boot := by
  unfold issue
  first
  | (simp [h0]; done)
  | ((try dsimp only)
     (repeat' (split <;> try (rename_i hp; first | (obtain ⟨rfl, rfl⟩ := Prod.ext_iff.mp hp) | (obtain ⟨rfl, hq⟩ := Prod.ext_iff.mp hp; obtain ⟨rfl, rfl⟩ := Prod.ext_iff.mp hq) | (obtain ⟨rfl, hq⟩ := Prod.ext_iff.mp hp; obtain ⟨rfl, _⟩ := Prod.ext_iff.mp hq) | (obtain ⟨_, hq⟩ := Prod.ext_iff.mp hp; obtain ⟨rfl, _⟩ := Prod.ext_iff.mp hq) | (obtain ⟨rfl, _⟩ := Prod.ext_iff.mp hp) | (obtain ⟨_, rfl⟩ := Prod.ext_iff.mp hp)))) <;> first | rfl | (simp [h0]; done) | (simp_all; done))

@[simp] theorem issue_mem (s : State) (i : Issue) (regs preds : List Nat) (also : Wait → Bool) (body : State → Group → List Nat → State) (h0 : ∀ a0 a1 a2, (body a0 a1 a2).mem = a0.mem) :
    (issue s i regs preds also body).mem = s.mem := by
  unfold issue
  first
  | (simp [h0]; done)
  | ((try dsimp only)
     (repeat' (split <;> try (rename_i hp; first | (obtain ⟨rfl, rfl⟩ := Prod.ext_iff.mp hp) | (obtain ⟨rfl, hq⟩ := Prod.ext_iff.mp hp; obtain ⟨rfl, rfl⟩ := Prod.ext_iff.mp hq) | (obtain ⟨rfl, hq⟩ := Prod.ext_iff.mp hp; obtain ⟨rfl, _⟩ := Prod.ext_iff.mp hq) | (obtain ⟨_, hq⟩ := Prod.ext_iff.mp hp; obtain ⟨rfl, _⟩ := Prod.ext_iff.mp hq) | (obtain ⟨rfl, _⟩ := Prod.ext_iff.mp hp) | (obtain ⟨_, rfl⟩ := Prod.ext_iff.mp hp)))) <;> first | rfl | (simp [h0]; done) | (simp_all; done))

@[simp] theorem issue_reg (s : State) (i : Issue) (regs preds : List Nat) (also : Wait → Bool) (body : State → Group → List Nat → State) (h0 : ∀ a0 a1 a2, (body a0 a1 a2).reg = a0.reg) :
    (issue s i regs preds also body).reg = s.reg := by
  unfold issue
  first
  | (simp [h0]; done)
  | ((try dsimp only)
     (repeat' (split <;> try (rename_i hp; first | (obtain ⟨rfl, rfl⟩ := Prod.ext_iff.mp hp) | (obtain ⟨rfl, hq⟩ := Prod.ext_iff.mp hp; obtain ⟨rfl, rfl⟩ := Prod.ext_iff.mp hq) | (obtain ⟨rfl, hq⟩ := Prod.ext_iff.mp hp; obtain ⟨rfl, _⟩ := Prod.ext_iff.mp hq) | (obtain ⟨_, hq⟩ := Prod.ext_iff.mp hp; obtain ⟨rfl, _⟩ := Prod.ext_iff.mp hq) | (obtain ⟨rfl, _⟩ := Prod.ext_iff.mp hp) | (obtain ⟨_, rfl⟩ := Prod.ext_iff.mp hp)))) <;> first | rfl | (simp [h0]; done) | (simp_all; done))

@[simp] theorem issue_link (s : State) (i : Issue) (regs preds : List Nat) (also : Wait → Bool) (body : State → Group → List Nat → State) (h0 : ∀ a0 a1 a2, (body a0 a1 a2).link = a0.link) :
    (issue s i regs preds also body).link = s.link := by
  unfold issue
  first
  | (simp [h0]; done)
  | ((try dsimp only)
     (repeat' (split <;> try (rename_i hp; first | (obtain ⟨rfl, rfl⟩ := Prod.ext_iff.mp hp) | (obtain ⟨rfl, hq⟩ := Prod.ext_iff.mp hp; obtain ⟨rfl, rfl⟩ := Prod.ext_iff.mp hq) | (obtain ⟨rfl, hq⟩ := Prod.ext_iff.mp hp; obtain ⟨rfl, _⟩ := Prod.ext_iff.mp hq) | (obtain ⟨_, hq⟩ := Prod.ext_iff.mp hp; obtain ⟨rfl, _⟩ := Prod.ext_iff.mp hq) | (obtain ⟨rfl, _⟩ := Prod.ext_iff.mp hp) | (obtain ⟨_, rfl⟩ := Prod.ext_iff.mp hp)))) <;> first | rfl | (simp [h0]; done) | (simp_all; done))

@[simp] theorem issue_pending (s : State) (i : Issue) (regs preds : List Nat) (also : Wait → Bool) (body : State → Group → List Nat → State) (h0 : ∀ a0 a1 a2, (body a0 a1 a2).pending = a0.pending) :
    (issue s i regs preds also body).pending = s.pending := by
  unfold issue
  first
  | (simp [h0]; done)
  | ((try dsimp only)
     (repeat' (split <;> try (rename_i hp; first | (obtain ⟨rfl, rfl⟩ := Prod.ext_iff.mp hp) | (obtain ⟨rfl, hq⟩ := Prod.ext_iff.mp hp; obtain ⟨rfl, rfl⟩ := Prod.ext_iff.mp hq) | (obtain ⟨rfl, hq⟩ := Prod.ext_iff.mp hp; obtain ⟨rfl, _⟩ := Prod.ext_iff.mp hq) | (obtain ⟨_, hq⟩ := Prod.ext_iff.mp hp; obtain ⟨rfl, _⟩ := Prod.ext_iff.mp hq) | (obtain ⟨rfl, _⟩ := Prod.ext_iff.mp hp) | (obtain ⟨_, rfl⟩ := Prod.ext_iff.mp hp)))) <;> first | rfl | (simp [h0]; done) | (simp_all; done))

@[simp] theorem plain_frame (s : State) (i : Issue) (regs preds : List Nat) (f : State → Group → Nat → Group) :
    (plain s i regs preds f).time = s.time ∧ (plain s i regs preds f).part = s.part ∧
    (plain s i regs preds f).err = s.err ∧ (plain s i regs preds f).pwr = s.pwr ∧
    (plain s i regs preds f).mgmt = s.mgmt ∧ (plain s i regs preds f).boot = s.boot ∧
    (plain s i regs preds f).mem = s.mem ∧ (plain s i regs preds f).reg = s.reg ∧
    (plain s i regs preds f).link = s.link ∧ (plain s i regs preds f).pending = s.pending := by
  unfold plain
  (try dsimp only)
  (repeat' (split <;> try (rename_i hp; first | (obtain ⟨rfl, rfl⟩ := Prod.ext_iff.mp hp) | (obtain ⟨rfl, hq⟩ := Prod.ext_iff.mp hp; obtain ⟨rfl, rfl⟩ := Prod.ext_iff.mp hq) | (obtain ⟨rfl, hq⟩ := Prod.ext_iff.mp hp; obtain ⟨rfl, _⟩ := Prod.ext_iff.mp hq) | (obtain ⟨_, hq⟩ := Prod.ext_iff.mp hp; obtain ⟨rfl, _⟩ := Prod.ext_iff.mp hq) | (obtain ⟨rfl, _⟩ := Prod.ext_iff.mp hp) | (obtain ⟨_, rfl⟩ := Prod.ext_iff.mp hp)))) <;> (try simp) <;> (repeat' apply And.intro) <;> (first | apply forEach_time | apply foldl_time | apply forEachFst_time | apply foldlFst_time | apply forEach_part | apply foldl_part | apply forEachFst_part | apply foldlFst_part | apply forEach_err | apply foldl_err | apply forEachFst_err | apply foldlFst_err | apply forEach_pwr | apply foldl_pwr | apply forEachFst_pwr | apply foldlFst_pwr | apply forEach_mgmt | apply foldl_mgmt | apply forEachFst_mgmt | apply foldlFst_mgmt | apply forEach_boot | apply foldl_boot | apply forEachFst_boot | apply foldlFst_boot | apply forEach_mem | apply foldl_mem | apply forEachFst_mem | apply foldlFst_mem | apply forEach_reg | apply foldl_reg | apply forEachFst_reg | apply foldlFst_reg | apply forEach_link | apply foldl_link | apply forEachFst_link | apply foldlFst_link | apply forEach_pending | apply foldl_pending | apply forEachFst_pending | apply foldlFst_pending) <;> intro _ _ <;> (try dsimp only) <;> (repeat' (split <;> try (rename_i hp; first | (obtain ⟨rfl, rfl⟩ := Prod.ext_iff.mp hp) | (obtain ⟨rfl, hq⟩ := Prod.ext_iff.mp hp; obtain ⟨rfl, rfl⟩ := Prod.ext_iff.mp hq) | (obtain ⟨rfl, hq⟩ := Prod.ext_iff.mp hp; obtain ⟨rfl, _⟩ := Prod.ext_iff.mp hq) | (obtain ⟨_, hq⟩ := Prod.ext_iff.mp hp; obtain ⟨rfl, _⟩ := Prod.ext_iff.mp hq) | (obtain ⟨rfl, _⟩ := Prod.ext_iff.mp hp) | (obtain ⟨_, rfl⟩ := Prod.ext_iff.mp hp)))) <;> first | rfl | (simp; done) | (simp_all; done)

@[simp] theorem settleJoin_frame (s : State) (k gi slot : Nat) :
    (settleJoin s k gi slot).time = s.time ∧ (settleJoin s k gi slot).part = s.part ∧
    (settleJoin s k gi slot).err = s.err ∧ (settleJoin s k gi slot).pwr = s.pwr ∧
    (settleJoin s k gi slot).mgmt = s.mgmt ∧ (settleJoin s k gi slot).boot = s.boot ∧
    (settleJoin s k gi slot).mem = s.mem ∧ (settleJoin s k gi slot).reg = s.reg ∧
    (settleJoin s k gi slot).link = s.link ∧ (settleJoin s k gi slot).pending = s.pending := by
  unfold settleJoin
  (try dsimp only)
  (repeat' (split <;> try (rename_i hp; first | (obtain ⟨rfl, rfl⟩ := Prod.ext_iff.mp hp) | (obtain ⟨rfl, hq⟩ := Prod.ext_iff.mp hp; obtain ⟨rfl, rfl⟩ := Prod.ext_iff.mp hq) | (obtain ⟨rfl, hq⟩ := Prod.ext_iff.mp hp; obtain ⟨rfl, _⟩ := Prod.ext_iff.mp hq) | (obtain ⟨_, hq⟩ := Prod.ext_iff.mp hp; obtain ⟨rfl, _⟩ := Prod.ext_iff.mp hq) | (obtain ⟨rfl, _⟩ := Prod.ext_iff.mp hp) | (obtain ⟨_, rfl⟩ := Prod.ext_iff.mp hp)))) <;> first | rfl | (simp; done) | (simp_all; done)

@[simp] theorem gatherOp_frame (s : State) (i : Issue) (regs preds : List Nat) (sc : Nat) (f : Group → Group → List Nat → Nat → Group) :
    (gatherOp s i regs preds sc f).time = s.time ∧ (gatherOp s i regs preds sc f).part = s.part ∧
    (gatherOp s i regs preds sc f).err = s.err ∧ (gatherOp s i regs preds sc f).pwr = s.pwr ∧
    (gatherOp s i regs preds sc f).mgmt = s.mgmt ∧ (gatherOp s i regs preds sc f).boot = s.boot ∧
    (gatherOp s i regs preds sc f).mem = s.mem ∧ (gatherOp s i regs preds sc f).reg = s.reg ∧
    (gatherOp s i regs preds sc f).link = s.link ∧ (gatherOp s i regs preds sc f).pending = s.pending := by
  unfold gatherOp
  (try dsimp only)
  (repeat' (split <;> try (rename_i hp; first | (obtain ⟨rfl, rfl⟩ := Prod.ext_iff.mp hp) | (obtain ⟨rfl, hq⟩ := Prod.ext_iff.mp hp; obtain ⟨rfl, rfl⟩ := Prod.ext_iff.mp hq) | (obtain ⟨rfl, hq⟩ := Prod.ext_iff.mp hp; obtain ⟨rfl, _⟩ := Prod.ext_iff.mp hq) | (obtain ⟨_, hq⟩ := Prod.ext_iff.mp hp; obtain ⟨rfl, _⟩ := Prod.ext_iff.mp hq) | (obtain ⟨rfl, _⟩ := Prod.ext_iff.mp hp) | (obtain ⟨_, rfl⟩ := Prod.ext_iff.mp hp)))) <;> (try simp) <;> (repeat' apply And.intro) <;> (first | apply forEach_time | apply foldl_time | apply forEachFst_time | apply foldlFst_time | apply forEach_part | apply foldl_part | apply forEachFst_part | apply foldlFst_part | apply forEach_err | apply foldl_err | apply forEachFst_err | apply foldlFst_err | apply forEach_pwr | apply foldl_pwr | apply forEachFst_pwr | apply foldlFst_pwr | apply forEach_mgmt | apply foldl_mgmt | apply forEachFst_mgmt | apply foldlFst_mgmt | apply forEach_boot | apply foldl_boot | apply forEachFst_boot | apply foldlFst_boot | apply forEach_mem | apply foldl_mem | apply forEachFst_mem | apply foldlFst_mem | apply forEach_reg | apply foldl_reg | apply forEachFst_reg | apply foldlFst_reg | apply forEach_link | apply foldl_link | apply forEachFst_link | apply foldlFst_link | apply forEach_pending | apply foldl_pending | apply forEachFst_pending | apply foldlFst_pending) <;> intro _ _ <;> (try dsimp only) <;> (repeat' (split <;> try (rename_i hp; first | (obtain ⟨rfl, rfl⟩ := Prod.ext_iff.mp hp) | (obtain ⟨rfl, hq⟩ := Prod.ext_iff.mp hp; obtain ⟨rfl, rfl⟩ := Prod.ext_iff.mp hq) | (obtain ⟨rfl, hq⟩ := Prod.ext_iff.mp hp; obtain ⟨rfl, _⟩ := Prod.ext_iff.mp hq) | (obtain ⟨_, hq⟩ := Prod.ext_iff.mp hp; obtain ⟨rfl, _⟩ := Prod.ext_iff.mp hq) | (obtain ⟨rfl, _⟩ := Prod.ext_iff.mp hp) | (obtain ⟨_, rfl⟩ := Prod.ext_iff.mp hp)))) <;> first | rfl | (simp; done) | (simp_all; done)

@[simp] theorem beginRelease_frame (s : State) (k gi : Nat) (act : List Nat) (sc : Scope) :
    (beginRelease s k gi act sc).1.time = s.time ∧ (beginRelease s k gi act sc).1.cp = s.cp ∧
    (beginRelease s k gi act sc).1.part = s.part ∧ (beginRelease s k gi act sc).1.err = s.err ∧
    (beginRelease s k gi act sc).1.pwr = s.pwr ∧ (beginRelease s k gi act sc).1.mgmt = s.mgmt ∧
    (beginRelease s k gi act sc).1.boot = s.boot ∧ (beginRelease s k gi act sc).1.larder = s.larder ∧
    (beginRelease s k gi act sc).1.reg = s.reg ∧ (beginRelease s k gi act sc).1.trans = s.trans ∧
    (beginRelease s k gi act sc).1.attic = s.attic ∧ (beginRelease s k gi act sc).1.link = s.link ∧
    (beginRelease s k gi act sc).1.chord = s.chord ∧ (beginRelease s k gi act sc).1.fresh = s.fresh ∧
    (beginRelease s k gi act sc).1.pending = s.pending := by
  unfold beginRelease
  simp

@[simp] theorem released_time (s : State) (i : Issue) (act : List Nat) (sc : Option Scope) (op : State → List Nat → State) (h : ∀ s act, (op s act).time = s.time) :
    (released s i act sc op).time = s.time := by
  unfold released
  split
  · exact h _ _
  · split
    · dsimp only
      exact (h _ _).trans (by simp)
    · split
      · exact (h _ _).trans (by simp)
      · have hb : (beginRelease s i.core i.group act .device).1.time = s.time := by simp
        generalize beginRelease s i.core i.group act .device = q at hb
        obtain ⟨s', x⟩ := q
        cases x with
        | none => exact (h _ _).trans hb
        | some id => simpa using hb
      · have hb : (beginRelease s i.core i.group act .system).1.time = s.time := by simp
        generalize beginRelease s i.core i.group act .system = q at hb
        obtain ⟨s', x⟩ := q
        cases x with
        | none => exact (h _ _).trans hb
        | some id => simpa using hb
      · exact h _ _

@[simp] theorem released_cp (s : State) (i : Issue) (act : List Nat) (sc : Option Scope) (op : State → List Nat → State) (h : ∀ s act, (op s act).cp = s.cp) :
    (released s i act sc op).cp = s.cp := by
  unfold released
  split
  · exact h _ _
  · split
    · dsimp only
      exact (h _ _).trans (by simp)
    · split
      · exact (h _ _).trans (by simp)
      · have hb : (beginRelease s i.core i.group act .device).1.cp = s.cp := by simp
        generalize beginRelease s i.core i.group act .device = q at hb
        obtain ⟨s', x⟩ := q
        cases x with
        | none => exact (h _ _).trans hb
        | some id => simpa using hb
      · have hb : (beginRelease s i.core i.group act .system).1.cp = s.cp := by simp
        generalize beginRelease s i.core i.group act .system = q at hb
        obtain ⟨s', x⟩ := q
        cases x with
        | none => exact (h _ _).trans hb
        | some id => simpa using hb
      · exact h _ _

@[simp] theorem released_part (s : State) (i : Issue) (act : List Nat) (sc : Option Scope) (op : State → List Nat → State) (h : ∀ s act, (op s act).part = s.part) :
    (released s i act sc op).part = s.part := by
  unfold released
  split
  · exact h _ _
  · split
    · dsimp only
      exact (h _ _).trans (by simp)
    · split
      · exact (h _ _).trans (by simp)
      · have hb : (beginRelease s i.core i.group act .device).1.part = s.part := by simp
        generalize beginRelease s i.core i.group act .device = q at hb
        obtain ⟨s', x⟩ := q
        cases x with
        | none => exact (h _ _).trans hb
        | some id => simpa using hb
      · have hb : (beginRelease s i.core i.group act .system).1.part = s.part := by simp
        generalize beginRelease s i.core i.group act .system = q at hb
        obtain ⟨s', x⟩ := q
        cases x with
        | none => exact (h _ _).trans hb
        | some id => simpa using hb
      · exact h _ _

@[simp] theorem released_err (s : State) (i : Issue) (act : List Nat) (sc : Option Scope) (op : State → List Nat → State) (h : ∀ s act, (op s act).err = s.err) :
    (released s i act sc op).err = s.err := by
  unfold released
  split
  · exact h _ _
  · split
    · dsimp only
      exact (h _ _).trans (by simp)
    · split
      · exact (h _ _).trans (by simp)
      · have hb : (beginRelease s i.core i.group act .device).1.err = s.err := by simp
        generalize beginRelease s i.core i.group act .device = q at hb
        obtain ⟨s', x⟩ := q
        cases x with
        | none => exact (h _ _).trans hb
        | some id => simpa using hb
      · have hb : (beginRelease s i.core i.group act .system).1.err = s.err := by simp
        generalize beginRelease s i.core i.group act .system = q at hb
        obtain ⟨s', x⟩ := q
        cases x with
        | none => exact (h _ _).trans hb
        | some id => simpa using hb
      · exact h _ _

@[simp] theorem released_pwr (s : State) (i : Issue) (act : List Nat) (sc : Option Scope) (op : State → List Nat → State) (h : ∀ s act, (op s act).pwr = s.pwr) :
    (released s i act sc op).pwr = s.pwr := by
  unfold released
  split
  · exact h _ _
  · split
    · dsimp only
      exact (h _ _).trans (by simp)
    · split
      · exact (h _ _).trans (by simp)
      · have hb : (beginRelease s i.core i.group act .device).1.pwr = s.pwr := by simp
        generalize beginRelease s i.core i.group act .device = q at hb
        obtain ⟨s', x⟩ := q
        cases x with
        | none => exact (h _ _).trans hb
        | some id => simpa using hb
      · have hb : (beginRelease s i.core i.group act .system).1.pwr = s.pwr := by simp
        generalize beginRelease s i.core i.group act .system = q at hb
        obtain ⟨s', x⟩ := q
        cases x with
        | none => exact (h _ _).trans hb
        | some id => simpa using hb
      · exact h _ _

@[simp] theorem released_mgmt (s : State) (i : Issue) (act : List Nat) (sc : Option Scope) (op : State → List Nat → State) (h : ∀ s act, (op s act).mgmt = s.mgmt) :
    (released s i act sc op).mgmt = s.mgmt := by
  unfold released
  split
  · exact h _ _
  · split
    · dsimp only
      exact (h _ _).trans (by simp)
    · split
      · exact (h _ _).trans (by simp)
      · have hb : (beginRelease s i.core i.group act .device).1.mgmt = s.mgmt := by simp
        generalize beginRelease s i.core i.group act .device = q at hb
        obtain ⟨s', x⟩ := q
        cases x with
        | none => exact (h _ _).trans hb
        | some id => simpa using hb
      · have hb : (beginRelease s i.core i.group act .system).1.mgmt = s.mgmt := by simp
        generalize beginRelease s i.core i.group act .system = q at hb
        obtain ⟨s', x⟩ := q
        cases x with
        | none => exact (h _ _).trans hb
        | some id => simpa using hb
      · exact h _ _

@[simp] theorem released_boot (s : State) (i : Issue) (act : List Nat) (sc : Option Scope) (op : State → List Nat → State) (h : ∀ s act, (op s act).boot = s.boot) :
    (released s i act sc op).boot = s.boot := by
  unfold released
  split
  · exact h _ _
  · split
    · dsimp only
      exact (h _ _).trans (by simp)
    · split
      · exact (h _ _).trans (by simp)
      · have hb : (beginRelease s i.core i.group act .device).1.boot = s.boot := by simp
        generalize beginRelease s i.core i.group act .device = q at hb
        obtain ⟨s', x⟩ := q
        cases x with
        | none => exact (h _ _).trans hb
        | some id => simpa using hb
      · have hb : (beginRelease s i.core i.group act .system).1.boot = s.boot := by simp
        generalize beginRelease s i.core i.group act .system = q at hb
        obtain ⟨s', x⟩ := q
        cases x with
        | none => exact (h _ _).trans hb
        | some id => simpa using hb
      · exact h _ _

@[simp] theorem released_larder (s : State) (i : Issue) (act : List Nat) (sc : Option Scope) (op : State → List Nat → State) (h : ∀ s act, (op s act).larder = s.larder) :
    (released s i act sc op).larder = s.larder := by
  unfold released
  split
  · exact h _ _
  · split
    · dsimp only
      exact (h _ _).trans (by simp)
    · split
      · exact (h _ _).trans (by simp)
      · have hb : (beginRelease s i.core i.group act .device).1.larder = s.larder := by simp
        generalize beginRelease s i.core i.group act .device = q at hb
        obtain ⟨s', x⟩ := q
        cases x with
        | none => exact (h _ _).trans hb
        | some id => simpa using hb
      · have hb : (beginRelease s i.core i.group act .system).1.larder = s.larder := by simp
        generalize beginRelease s i.core i.group act .system = q at hb
        obtain ⟨s', x⟩ := q
        cases x with
        | none => exact (h _ _).trans hb
        | some id => simpa using hb
      · exact h _ _

@[simp] theorem released_reg (s : State) (i : Issue) (act : List Nat) (sc : Option Scope) (op : State → List Nat → State) (h : ∀ s act, (op s act).reg = s.reg) :
    (released s i act sc op).reg = s.reg := by
  unfold released
  split
  · exact h _ _
  · split
    · dsimp only
      exact (h _ _).trans (by simp)
    · split
      · exact (h _ _).trans (by simp)
      · have hb : (beginRelease s i.core i.group act .device).1.reg = s.reg := by simp
        generalize beginRelease s i.core i.group act .device = q at hb
        obtain ⟨s', x⟩ := q
        cases x with
        | none => exact (h _ _).trans hb
        | some id => simpa using hb
      · have hb : (beginRelease s i.core i.group act .system).1.reg = s.reg := by simp
        generalize beginRelease s i.core i.group act .system = q at hb
        obtain ⟨s', x⟩ := q
        cases x with
        | none => exact (h _ _).trans hb
        | some id => simpa using hb
      · exact h _ _

@[simp] theorem released_trans (s : State) (i : Issue) (act : List Nat) (sc : Option Scope) (op : State → List Nat → State) (h : ∀ s act, (op s act).trans = s.trans) :
    (released s i act sc op).trans = s.trans := by
  unfold released
  split
  · exact h _ _
  · split
    · dsimp only
      exact (h _ _).trans (by simp)
    · split
      · exact (h _ _).trans (by simp)
      · have hb : (beginRelease s i.core i.group act .device).1.trans = s.trans := by simp
        generalize beginRelease s i.core i.group act .device = q at hb
        obtain ⟨s', x⟩ := q
        cases x with
        | none => exact (h _ _).trans hb
        | some id => simpa using hb
      · have hb : (beginRelease s i.core i.group act .system).1.trans = s.trans := by simp
        generalize beginRelease s i.core i.group act .system = q at hb
        obtain ⟨s', x⟩ := q
        cases x with
        | none => exact (h _ _).trans hb
        | some id => simpa using hb
      · exact h _ _

@[simp] theorem released_attic (s : State) (i : Issue) (act : List Nat) (sc : Option Scope) (op : State → List Nat → State) (h : ∀ s act, (op s act).attic = s.attic) :
    (released s i act sc op).attic = s.attic := by
  unfold released
  split
  · exact h _ _
  · split
    · dsimp only
      exact (h _ _).trans (by simp)
    · split
      · exact (h _ _).trans (by simp)
      · have hb : (beginRelease s i.core i.group act .device).1.attic = s.attic := by simp
        generalize beginRelease s i.core i.group act .device = q at hb
        obtain ⟨s', x⟩ := q
        cases x with
        | none => exact (h _ _).trans hb
        | some id => simpa using hb
      · have hb : (beginRelease s i.core i.group act .system).1.attic = s.attic := by simp
        generalize beginRelease s i.core i.group act .system = q at hb
        obtain ⟨s', x⟩ := q
        cases x with
        | none => exact (h _ _).trans hb
        | some id => simpa using hb
      · exact h _ _

@[simp] theorem released_link (s : State) (i : Issue) (act : List Nat) (sc : Option Scope) (op : State → List Nat → State) (h : ∀ s act, (op s act).link = s.link) :
    (released s i act sc op).link = s.link := by
  unfold released
  split
  · exact h _ _
  · split
    · dsimp only
      exact (h _ _).trans (by simp)
    · split
      · exact (h _ _).trans (by simp)
      · have hb : (beginRelease s i.core i.group act .device).1.link = s.link := by simp
        generalize beginRelease s i.core i.group act .device = q at hb
        obtain ⟨s', x⟩ := q
        cases x with
        | none => exact (h _ _).trans hb
        | some id => simpa using hb
      · have hb : (beginRelease s i.core i.group act .system).1.link = s.link := by simp
        generalize beginRelease s i.core i.group act .system = q at hb
        obtain ⟨s', x⟩ := q
        cases x with
        | none => exact (h _ _).trans hb
        | some id => simpa using hb
      · exact h _ _

@[simp] theorem released_chord (s : State) (i : Issue) (act : List Nat) (sc : Option Scope) (op : State → List Nat → State) (h : ∀ s act, (op s act).chord = s.chord) :
    (released s i act sc op).chord = s.chord := by
  unfold released
  split
  · exact h _ _
  · split
    · dsimp only
      exact (h _ _).trans (by simp)
    · split
      · exact (h _ _).trans (by simp)
      · have hb : (beginRelease s i.core i.group act .device).1.chord = s.chord := by simp
        generalize beginRelease s i.core i.group act .device = q at hb
        obtain ⟨s', x⟩ := q
        cases x with
        | none => exact (h _ _).trans hb
        | some id => simpa using hb
      · have hb : (beginRelease s i.core i.group act .system).1.chord = s.chord := by simp
        generalize beginRelease s i.core i.group act .system = q at hb
        obtain ⟨s', x⟩ := q
        cases x with
        | none => exact (h _ _).trans hb
        | some id => simpa using hb
      · exact h _ _

@[simp] theorem released_fresh (s : State) (i : Issue) (act : List Nat) (sc : Option Scope) (op : State → List Nat → State) (h : ∀ s act, (op s act).fresh = s.fresh) :
    (released s i act sc op).fresh = s.fresh := by
  unfold released
  split
  · exact h _ _
  · split
    · dsimp only
      exact (h _ _).trans (by simp)
    · split
      · exact (h _ _).trans (by simp)
      · have hb : (beginRelease s i.core i.group act .device).1.fresh = s.fresh := by simp
        generalize beginRelease s i.core i.group act .device = q at hb
        obtain ⟨s', x⟩ := q
        cases x with
        | none => exact (h _ _).trans hb
        | some id => simpa using hb
      · have hb : (beginRelease s i.core i.group act .system).1.fresh = s.fresh := by simp
        generalize beginRelease s i.core i.group act .system = q at hb
        obtain ⟨s', x⟩ := q
        cases x with
        | none => exact (h _ _).trans hb
        | some id => simpa using hb
      · exact h _ _

@[simp] theorem released_pending (s : State) (i : Issue) (act : List Nat) (sc : Option Scope) (op : State → List Nat → State) (h : ∀ s act, (op s act).pending = s.pending) :
    (released s i act sc op).pending = s.pending := by
  unfold released
  split
  · exact h _ _
  · split
    · dsimp only
      exact (h _ _).trans (by simp)
    · split
      · exact (h _ _).trans (by simp)
      · have hb : (beginRelease s i.core i.group act .device).1.pending = s.pending := by simp
        generalize beginRelease s i.core i.group act .device = q at hb
        obtain ⟨s', x⟩ := q
        cases x with
        | none => exact (h _ _).trans hb
        | some id => simpa using hb
      · have hb : (beginRelease s i.core i.group act .system).1.pending = s.pending := by simp
        generalize beginRelease s i.core i.group act .system = q at hb
        obtain ⟨s', x⟩ := q
        cases x with
        | none => exact (h _ _).trans hb
        | some id => simpa using hb
      · exact h _ _

@[simp] theorem acquireOpt_frame (s : State) (k : Nat) (sc : Option Scope) :
    (acquireOpt s k sc).time = s.time ∧ (acquireOpt s k sc).cp = s.cp ∧ (acquireOpt s k sc).part = s.part ∧
    (acquireOpt s k sc).err = s.err ∧ (acquireOpt s k sc).pwr = s.pwr ∧ (acquireOpt s k sc).mgmt = s.mgmt ∧
    (acquireOpt s k sc).boot = s.boot ∧ (acquireOpt s k sc).mem = s.mem ∧ (acquireOpt s k sc).larder = s.larder ∧
    (acquireOpt s k sc).reg = s.reg ∧ (acquireOpt s k sc).trans = s.trans ∧ (acquireOpt s k sc).attic = s.attic ∧
    (acquireOpt s k sc).link = s.link ∧ (acquireOpt s k sc).chord = s.chord ∧ (acquireOpt s k sc).fresh = s.fresh ∧
    (acquireOpt s k sc).out = s.out ∧ (acquireOpt s k sc).pending = s.pending := by
  unfold acquireOpt
  (try dsimp only)
  (repeat' (split <;> try (rename_i hp; first | (obtain ⟨rfl, rfl⟩ := Prod.ext_iff.mp hp) | (obtain ⟨rfl, hq⟩ := Prod.ext_iff.mp hp; obtain ⟨rfl, rfl⟩ := Prod.ext_iff.mp hq) | (obtain ⟨rfl, hq⟩ := Prod.ext_iff.mp hp; obtain ⟨rfl, _⟩ := Prod.ext_iff.mp hq) | (obtain ⟨_, hq⟩ := Prod.ext_iff.mp hp; obtain ⟨rfl, _⟩ := Prod.ext_iff.mp hq) | (obtain ⟨rfl, _⟩ := Prod.ext_iff.mp hp) | (obtain ⟨_, rfl⟩ := Prod.ext_iff.mp hp)))) <;> first | rfl | (simp; done) | (simp_all; done)

end Sys2Proof.Machine
end

