-- ==== Sys2Proof/Laws/FrameControl.lean ====
section
/-! SUPPORT. What each operation of Machine/Control.lean leaves as it was, by component of the state. -/
set_option maxRecDepth 4000
set_option exponentiation.threshold 2000
namespace Sys2Proof.Machine

@[simp] theorem shuffle_frame (k : Shuffle) (i : Issue) (f : ShflForm) (dst sa sb sc : Nat) (s : State) :
    (shuffle k i f dst sa sb sc s).time = s.time ∧ (shuffle k i f dst sa sb sc s).part = s.part ∧
    (shuffle k i f dst sa sb sc s).err = s.err ∧ (shuffle k i f dst sa sb sc s).pwr = s.pwr ∧
    (shuffle k i f dst sa sb sc s).mgmt = s.mgmt ∧ (shuffle k i f dst sa sb sc s).boot = s.boot ∧
    (shuffle k i f dst sa sb sc s).mem = s.mem ∧ (shuffle k i f dst sa sb sc s).reg = s.reg ∧
    (shuffle k i f dst sa sb sc s).link = s.link ∧ (shuffle k i f dst sa sb sc s).pending = s.pending := by
  unfold shuffle
  (try dsimp only)
  (repeat' (split <;> try (rename_i hp; first | (obtain ⟨rfl, rfl⟩ := Prod.ext_iff.mp hp) | (obtain ⟨rfl, hq⟩ := Prod.ext_iff.mp hp; obtain ⟨rfl, rfl⟩ := Prod.ext_iff.mp hq) | (obtain ⟨rfl, hq⟩ := Prod.ext_iff.mp hp; obtain ⟨rfl, _⟩ := Prod.ext_iff.mp hq) | (obtain ⟨_, hq⟩ := Prod.ext_iff.mp hp; obtain ⟨rfl, _⟩ := Prod.ext_iff.mp hq) | (obtain ⟨rfl, _⟩ := Prod.ext_iff.mp hp) | (obtain ⟨_, rfl⟩ := Prod.ext_iff.mp hp)))) <;> (try simp) <;> (repeat' apply And.intro) <;> (first | apply forEach_time | apply foldl_time | apply forEachFst_time | apply foldlFst_time | apply forEach_part | apply foldl_part | apply forEachFst_part | apply foldlFst_part | apply forEach_err | apply foldl_err | apply forEachFst_err | apply foldlFst_err | apply forEach_pwr | apply foldl_pwr | apply forEachFst_pwr | apply foldlFst_pwr | apply forEach_mgmt | apply foldl_mgmt | apply forEachFst_mgmt | apply foldlFst_mgmt | apply forEach_boot | apply foldl_boot | apply forEachFst_boot | apply foldlFst_boot | apply forEach_mem | apply foldl_mem | apply forEachFst_mem | apply foldlFst_mem | apply forEach_reg | apply foldl_reg | apply forEachFst_reg | apply foldlFst_reg | apply forEach_link | apply foldl_link | apply forEachFst_link | apply foldlFst_link | apply forEach_pending | apply foldl_pending | apply forEachFst_pending | apply foldlFst_pending) <;> intro _ _ <;> (try dsimp only) <;> (repeat' (split <;> try (rename_i hp; first | (obtain ⟨rfl, rfl⟩ := Prod.ext_iff.mp hp) | (obtain ⟨rfl, hq⟩ := Prod.ext_iff.mp hp; obtain ⟨rfl, rfl⟩ := Prod.ext_iff.mp hq) | (obtain ⟨rfl, hq⟩ := Prod.ext_iff.mp hp; obtain ⟨rfl, _⟩ := Prod.ext_iff.mp hq) | (obtain ⟨_, hq⟩ := Prod.ext_iff.mp hp; obtain ⟨rfl, _⟩ := Prod.ext_iff.mp hq) | (obtain ⟨rfl, _⟩ := Prod.ext_iff.mp hp) | (obtain ⟨_, rfl⟩ := Prod.ext_iff.mp hp)))) <;> first | rfl | (simp; done) | (simp_all; done)

@[simp] theorem matchOp_frame (i : Issue) (wide : Bool) (dst sa sc : Nat) (s : State) :
    (matchOp i wide dst sa sc s).time = s.time ∧ (matchOp i wide dst sa sc s).part = s.part ∧
    (matchOp i wide dst sa sc s).err = s.err ∧ (matchOp i wide dst sa sc s).pwr = s.pwr ∧
    (matchOp i wide dst sa sc s).mgmt = s.mgmt ∧ (matchOp i wide dst sa sc s).boot = s.boot ∧
    (matchOp i wide dst sa sc s).mem = s.mem ∧ (matchOp i wide dst sa sc s).reg = s.reg ∧
    (matchOp i wide dst sa sc s).link = s.link ∧ (matchOp i wide dst sa sc s).pending = s.pending := by
  unfold matchOp
  (try dsimp only)
  (repeat' (split <;> try (rename_i hp; first | (obtain ⟨rfl, rfl⟩ := Prod.ext_iff.mp hp) | (obtain ⟨rfl, hq⟩ := Prod.ext_iff.mp hp; obtain ⟨rfl, rfl⟩ := Prod.ext_iff.mp hq) | (obtain ⟨rfl, hq⟩ := Prod.ext_iff.mp hp; obtain ⟨rfl, _⟩ := Prod.ext_iff.mp hq) | (obtain ⟨_, hq⟩ := Prod.ext_iff.mp hp; obtain ⟨rfl, _⟩ := Prod.ext_iff.mp hq) | (obtain ⟨rfl, _⟩ := Prod.ext_iff.mp hp) | (obtain ⟨_, rfl⟩ := Prod.ext_iff.mp hp)))) <;> (try simp) <;> (repeat' apply And.intro) <;> (first | apply forEach_time | apply foldl_time | apply forEachFst_time | apply foldlFst_time | apply forEach_part | apply foldl_part | apply forEachFst_part | apply foldlFst_part | apply forEach_err | apply foldl_err | apply forEachFst_err | apply foldlFst_err | apply forEach_pwr | apply foldl_pwr | apply forEachFst_pwr | apply foldlFst_pwr | apply forEach_mgmt | apply foldl_mgmt | apply forEachFst_mgmt | apply foldlFst_mgmt | apply forEach_boot | apply foldl_boot | apply forEachFst_boot | apply foldlFst_boot | apply forEach_mem | apply foldl_mem | apply forEachFst_mem | apply foldlFst_mem | apply forEach_reg | apply foldl_reg | apply forEachFst_reg | apply foldlFst_reg | apply forEach_link | apply foldl_link | apply forEachFst_link | apply foldlFst_link | apply forEach_pending | apply foldl_pending | apply forEachFst_pending | apply foldlFst_pending) <;> intro _ _ <;> (try dsimp only) <;> (repeat' (split <;> try (rename_i hp; first | (obtain ⟨rfl, rfl⟩ := Prod.ext_iff.mp hp) | (obtain ⟨rfl, hq⟩ := Prod.ext_iff.mp hp; obtain ⟨rfl, rfl⟩ := Prod.ext_iff.mp hq) | (obtain ⟨rfl, hq⟩ := Prod.ext_iff.mp hp; obtain ⟨rfl, _⟩ := Prod.ext_iff.mp hq) | (obtain ⟨_, hq⟩ := Prod.ext_iff.mp hp; obtain ⟨rfl, _⟩ := Prod.ext_iff.mp hq) | (obtain ⟨rfl, _⟩ := Prod.ext_iff.mp hp) | (obtain ⟨_, rfl⟩ := Prod.ext_iff.mp hp)))) <;> first | rfl | (simp; done) | (simp_all; done)

end Sys2Proof.Machine
end

