-- ==== Sys2Proof/Laws/FramePegs.lean ====
section
/-! SUPPORT. What each operation of Machine/Pegs.lean leaves as it was, by component of the state. -/
set_option maxRecDepth 4000
set_option exponentiation.threshold 2000
namespace Sys2Proof.Machine

@[simp] theorem modPeg_frame (s : State) (id : Nat) (f : Peg → Peg) :
    (modPeg s id f).time = s.time ∧ (modPeg s id f).cp = s.cp ∧ (modPeg s id f).part = s.part ∧
    (modPeg s id f).err = s.err ∧ (modPeg s id f).pwr = s.pwr ∧ (modPeg s id f).mgmt = s.mgmt ∧
    (modPeg s id f).boot = s.boot ∧ (modPeg s id f).mem = s.mem ∧ (modPeg s id f).larder = s.larder ∧
    (modPeg s id f).reg = s.reg ∧ (modPeg s id f).trans = s.trans ∧ (modPeg s id f).attic = s.attic ∧
    (modPeg s id f).link = s.link ∧ (modPeg s id f).chord = s.chord ∧ (modPeg s id f).fresh = s.fresh ∧
    (modPeg s id f).out = s.out ∧ (modPeg s id f).pending = s.pending := by
  unfold modPeg
  simp

@[simp] theorem endWait_frame (s : State) (w : Waiter) (met : Bool) :
    (endWait s w met).time = s.time ∧ (endWait s w met).part = s.part ∧ (endWait s w met).err = s.err ∧
    (endWait s w met).pwr = s.pwr ∧ (endWait s w met).mgmt = s.mgmt ∧ (endWait s w met).boot = s.boot ∧
    (endWait s w met).mem = s.mem ∧ (endWait s w met).reg = s.reg ∧ (endWait s w met).link = s.link ∧
    (endWait s w met).pending = s.pending := by
  unfold endWait
  (try dsimp only)
  (repeat' (split <;> try (rename_i hp; first | (obtain ⟨rfl, rfl⟩ := Prod.ext_iff.mp hp) | (obtain ⟨rfl, hq⟩ := Prod.ext_iff.mp hp; obtain ⟨rfl, rfl⟩ := Prod.ext_iff.mp hq) | (obtain ⟨rfl, hq⟩ := Prod.ext_iff.mp hp; obtain ⟨rfl, _⟩ := Prod.ext_iff.mp hq) | (obtain ⟨_, hq⟩ := Prod.ext_iff.mp hp; obtain ⟨rfl, _⟩ := Prod.ext_iff.mp hq) | (obtain ⟨rfl, _⟩ := Prod.ext_iff.mp hp) | (obtain ⟨_, rfl⟩ := Prod.ext_iff.mp hp)))) <;> first | rfl | (simp; done) | (simp_all; done)

@[simp] theorem serveWaiters_frame (s : State) (id : Nat) :
    (serveWaiters s id).time = s.time ∧ (serveWaiters s id).part = s.part ∧ (serveWaiters s id).err = s.err ∧
    (serveWaiters s id).pwr = s.pwr ∧ (serveWaiters s id).mgmt = s.mgmt ∧ (serveWaiters s id).boot = s.boot ∧
    (serveWaiters s id).mem = s.mem ∧ (serveWaiters s id).reg = s.reg ∧ (serveWaiters s id).link = s.link ∧
    (serveWaiters s id).pending = s.pending := by
  unfold serveWaiters
  simp

@[simp] theorem pegSignalOp_frame (s : State) (id n : Nat) :
    (pegSignalOp s id n).time = s.time ∧ (pegSignalOp s id n).part = s.part ∧ (pegSignalOp s id n).err = s.err ∧
    (pegSignalOp s id n).pwr = s.pwr ∧ (pegSignalOp s id n).mgmt = s.mgmt ∧ (pegSignalOp s id n).boot = s.boot ∧
    (pegSignalOp s id n).mem = s.mem ∧ (pegSignalOp s id n).reg = s.reg ∧ (pegSignalOp s id n).link = s.link ∧
    (pegSignalOp s id n).pending = s.pending := by
  unfold pegSignalOp
  simp

@[simp] theorem pegResetOp_frame (s : State) (id : Nat) :
    (pegResetOp s id).time = s.time ∧ (pegResetOp s id).part = s.part ∧ (pegResetOp s id).err = s.err ∧
    (pegResetOp s id).pwr = s.pwr ∧ (pegResetOp s id).mgmt = s.mgmt ∧ (pegResetOp s id).boot = s.boot ∧
    (pegResetOp s id).mem = s.mem ∧ (pegResetOp s id).reg = s.reg ∧ (pegResetOp s id).link = s.link ∧
    (pegResetOp s id).pending = s.pending := by
  unfold pegResetOp
  simp

@[simp] theorem pegNone_frame (s : State) (id : Nat) :
    (pegNone s id).time = s.time ∧ (pegNone s id).part = s.part ∧ (pegNone s id).err = s.err ∧
    (pegNone s id).pwr = s.pwr ∧ (pegNone s id).mgmt = s.mgmt ∧ (pegNone s id).boot = s.boot ∧
    (pegNone s id).mem = s.mem ∧ (pegNone s id).reg = s.reg ∧ (pegNone s id).link = s.link ∧
    (pegNone s id).pending = s.pending := by
  unfold pegNone
  simp

@[simp] theorem pegSetOp_frame (s : State) (id : Nat) (ty : PegType) (target : Nat) :
    (pegSetOp s id ty target).time = s.time ∧ (pegSetOp s id ty target).part = s.part ∧
    (pegSetOp s id ty target).err = s.err ∧ (pegSetOp s id ty target).pwr = s.pwr ∧
    (pegSetOp s id ty target).mgmt = s.mgmt ∧ (pegSetOp s id ty target).boot = s.boot ∧
    (pegSetOp s id ty target).mem = s.mem ∧ (pegSetOp s id ty target).reg = s.reg ∧
    (pegSetOp s id ty target).link = s.link ∧ (pegSetOp s id ty target).pending = s.pending := by
  unfold pegSetOp
  simp

@[simp] theorem pegWaitOp_frame (s : State) (id : Nat) (w : Waiter) :
    (pegWaitOp s id w).time = s.time ∧ (pegWaitOp s id w).part = s.part ∧ (pegWaitOp s id w).err = s.err ∧
    (pegWaitOp s id w).pwr = s.pwr ∧ (pegWaitOp s id w).mgmt = s.mgmt ∧ (pegWaitOp s id w).boot = s.boot ∧
    (pegWaitOp s id w).mem = s.mem ∧ (pegWaitOp s id w).reg = s.reg ∧ (pegWaitOp s id w).link = s.link ∧
    (pegWaitOp s id w).pending = s.pending := by
  unfold pegWaitOp
  simp

@[simp] theorem pegsNone_frame (s : State) (c : Nat) :
    (pegsNone s c).time = s.time ∧ (pegsNone s c).part = s.part ∧ (pegsNone s c).err = s.err ∧
    (pegsNone s c).pwr = s.pwr ∧ (pegsNone s c).mgmt = s.mgmt ∧ (pegsNone s c).boot = s.boot ∧
    (pegsNone s c).mem = s.mem ∧ (pegsNone s c).reg = s.reg ∧ (pegsNone s c).link = s.link ∧
    (pegsNone s c).pending = s.pending := by
  unfold pegsNone
  simp

@[simp] theorem notePeg_frame (s : State) (m id : Nat) :
    (notePeg s m id).time = s.time ∧ (notePeg s m id).cp = s.cp ∧ (notePeg s m id).part = s.part ∧
    (notePeg s m id).err = s.err ∧ (notePeg s m id).pwr = s.pwr ∧ (notePeg s m id).mgmt = s.mgmt ∧
    (notePeg s m id).boot = s.boot ∧ (notePeg s m id).cells = s.cells ∧ (notePeg s m id).mem = s.mem ∧
    (notePeg s m id).larder = s.larder ∧ (notePeg s m id).trans = s.trans ∧ (notePeg s m id).attic = s.attic ∧
    (notePeg s m id).link = s.link ∧ (notePeg s m id).chord = s.chord ∧ (notePeg s m id).fresh = s.fresh ∧
    (notePeg s m id).out = s.out ∧ (notePeg s m id).pending = s.pending := by
  unfold notePeg
  simp

@[simp] theorem pegIssue_time (s : State) (i : Issue) (f : PegForm) (sa : Nat) (regs preds : List Nat) (body : State → List Nat → State) (h0 : ∀ a0 a1, (body a0 a1).time = a0.time) :
    (pegIssue s i f sa regs preds body).time = s.time := by
  unfold pegIssue
  first
  | (simp [h0]; done)
  | ((try dsimp only)
     (repeat' (split <;> try (rename_i hp; first | (obtain ⟨rfl, rfl⟩ := Prod.ext_iff.mp hp) | (obtain ⟨rfl, hq⟩ := Prod.ext_iff.mp hp; obtain ⟨rfl, rfl⟩ := Prod.ext_iff.mp hq) | (obtain ⟨rfl, hq⟩ := Prod.ext_iff.mp hp; obtain ⟨rfl, _⟩ := Prod.ext_iff.mp hq) | (obtain ⟨_, hq⟩ := Prod.ext_iff.mp hp; obtain ⟨rfl, _⟩ := Prod.ext_iff.mp hq) | (obtain ⟨rfl, _⟩ := Prod.ext_iff.mp hp) | (obtain ⟨_, rfl⟩ := Prod.ext_iff.mp hp)))) <;> first | rfl | (simp [h0]; done) | (simp_all; done))

@[simp] theorem pegIssue_part (s : State) (i : Issue) (f : PegForm) (sa : Nat) (regs preds : List Nat) (body : State → List Nat → State) (h0 : ∀ a0 a1, (body a0 a1).part = a0.part) :
    (pegIssue s i f sa regs preds body).part = s.part := by
  unfold pegIssue
  first
  | (simp [h0]; done)
  | ((try dsimp only)
     (repeat' (split <;> try (rename_i hp; first | (obtain ⟨rfl, rfl⟩ := Prod.ext_iff.mp hp) | (obtain ⟨rfl, hq⟩ := Prod.ext_iff.mp hp; obtain ⟨rfl, rfl⟩ := Prod.ext_iff.mp hq) | (obtain ⟨rfl, hq⟩ := Prod.ext_iff.mp hp; obtain ⟨rfl, _⟩ := Prod.ext_iff.mp hq) | (obtain ⟨_, hq⟩ := Prod.ext_iff.mp hp; obtain ⟨rfl, _⟩ := Prod.ext_iff.mp hq) | (obtain ⟨rfl, _⟩ := Prod.ext_iff.mp hp) | (obtain ⟨_, rfl⟩ := Prod.ext_iff.mp hp)))) <;> first | rfl | (simp [h0]; done) | (simp_all; done))

@[simp] theorem pegIssue_err (s : State) (i : Issue) (f : PegForm) (sa : Nat) (regs preds : List Nat) (body : State → List Nat → State) (h0 : ∀ a0 a1, (body a0 a1).err = a0.err) :
    (pegIssue s i f sa regs preds body).err = s.err := by
  unfold pegIssue
  first
  | (simp [h0]; done)
  | ((try dsimp only)
     (repeat' (split <;> try (rename_i hp; first | (obtain ⟨rfl, rfl⟩ := Prod.ext_iff.mp hp) | (obtain ⟨rfl, hq⟩ := Prod.ext_iff.mp hp; obtain ⟨rfl, rfl⟩ := Prod.ext_iff.mp hq) | (obtain ⟨rfl, hq⟩ := Prod.ext_iff.mp hp; obtain ⟨rfl, _⟩ := Prod.ext_iff.mp hq) | (obtain ⟨_, hq⟩ := Prod.ext_iff.mp hp; obtain ⟨rfl, _⟩ := Prod.ext_iff.mp hq) | (obtain ⟨rfl, _⟩ := Prod.ext_iff.mp hp) | (obtain ⟨_, rfl⟩ := Prod.ext_iff.mp hp)))) <;> first | rfl | (simp [h0]; done) | (simp_all; done))

@[simp] theorem pegIssue_pwr (s : State) (i : Issue) (f : PegForm) (sa : Nat) (regs preds : List Nat) (body : State → List Nat → State) (h0 : ∀ a0 a1, (body a0 a1).pwr = a0.pwr) :
    (pegIssue s i f sa regs preds body).pwr = s.pwr := by
  unfold pegIssue
  first
  | (simp [h0]; done)
  | ((try dsimp only)
     (repeat' (split <;> try (rename_i hp; first | (obtain ⟨rfl, rfl⟩ := Prod.ext_iff.mp hp) | (obtain ⟨rfl, hq⟩ := Prod.ext_iff.mp hp; obtain ⟨rfl, rfl⟩ := Prod.ext_iff.mp hq) | (obtain ⟨rfl, hq⟩ := Prod.ext_iff.mp hp; obtain ⟨rfl, _⟩ := Prod.ext_iff.mp hq) | (obtain ⟨_, hq⟩ := Prod.ext_iff.mp hp; obtain ⟨rfl, _⟩ := Prod.ext_iff.mp hq) | (obtain ⟨rfl, _⟩ := Prod.ext_iff.mp hp) | (obtain ⟨_, rfl⟩ := Prod.ext_iff.mp hp)))) <;> first | rfl | (simp [h0]; done) | (simp_all; done))

@[simp] theorem pegIssue_mgmt (s : State) (i : Issue) (f : PegForm) (sa : Nat) (regs preds : List Nat) (body : State → List Nat → State) (h0 : ∀ a0 a1, (body a0 a1).mgmt = a0.mgmt) :
    (pegIssue s i f sa regs preds body).mgmt = s.mgmt := by
  unfold pegIssue
  first
  | (simp [h0]; done)
  | ((try dsimp only)
     (repeat' (split <;> try (rename_i hp; first | (obtain ⟨rfl, rfl⟩ := Prod.ext_iff.mp hp) | (obtain ⟨rfl, hq⟩ := Prod.ext_iff.mp hp; obtain ⟨rfl, rfl⟩ := Prod.ext_iff.mp hq) | (obtain ⟨rfl, hq⟩ := Prod.ext_iff.mp hp; obtain ⟨rfl, _⟩ := Prod.ext_iff.mp hq) | (obtain ⟨_, hq⟩ := Prod.ext_iff.mp hp; obtain ⟨rfl, _⟩ := Prod.ext_iff.mp hq) | (obtain ⟨rfl, _⟩ := Prod.ext_iff.mp hp) | (obtain ⟨_, rfl⟩ := Prod.ext_iff.mp hp)))) <;> first | rfl | (simp [h0]; done) | (simp_all; done))

@[simp] theorem pegIssue_boot (s : State) (i : Issue) (f : PegForm) (sa : Nat) (regs preds : List Nat) (body : State → List Nat → State) (h0 : ∀ a0 a1, (body a0 a1).boot = a0.boot) :
    (pegIssue s i f sa regs preds body).boot = s.boot := by
  unfold pegIssue
  first
  | (simp [h0]; done)
  | ((try dsimp only)
     (repeat' (split <;> try (rename_i hp; first | (obtain ⟨rfl, rfl⟩ := Prod.ext_iff.mp hp) | (obtain ⟨rfl, hq⟩ := Prod.ext_iff.mp hp; obtain ⟨rfl, rfl⟩ := Prod.ext_iff.mp hq) | (obtain ⟨rfl, hq⟩ := Prod.ext_iff.mp hp; obtain ⟨rfl, _⟩ := Prod.ext_iff.mp hq) | (obtain ⟨_, hq⟩ := Prod.ext_iff.mp hp; obtain ⟨rfl, _⟩ := Prod.ext_iff.mp hq) | (obtain ⟨rfl, _⟩ := Prod.ext_iff.mp hp) | (obtain ⟨_, rfl⟩ := Prod.ext_iff.mp hp)))) <;> first | rfl | (simp [h0]; done) | (simp_all; done))

@[simp] theorem pegIssue_mem (s : State) (i : Issue) (f : PegForm) (sa : Nat) (regs preds : List Nat) (body : State → List Nat → State) (h0 : ∀ a0 a1, (body a0 a1).mem = a0.mem) :
    (pegIssue s i f sa regs preds body).mem = s.mem := by
  unfold pegIssue
  first
  | (simp [h0]; done)
  | ((try dsimp only)
     (repeat' (split <;> try (rename_i hp; first | (obtain ⟨rfl, rfl⟩ := Prod.ext_iff.mp hp) | (obtain ⟨rfl, hq⟩ := Prod.ext_iff.mp hp; obtain ⟨rfl, rfl⟩ := Prod.ext_iff.mp hq) | (obtain ⟨rfl, hq⟩ := Prod.ext_iff.mp hp; obtain ⟨rfl, _⟩ := Prod.ext_iff.mp hq) | (obtain ⟨_, hq⟩ := Prod.ext_iff.mp hp; obtain ⟨rfl, _⟩ := Prod.ext_iff.mp hq) | (obtain ⟨rfl, _⟩ := Prod.ext_iff.mp hp) | (obtain ⟨_, rfl⟩ := Prod.ext_iff.mp hp)))) <;> first | rfl | (simp [h0]; done) | (simp_all; done))

@[simp] theorem pegIssue_link (s : State) (i : Issue) (f : PegForm) (sa : Nat) (regs preds : List Nat) (body : State → List Nat → State) (h0 : ∀ a0 a1, (body a0 a1).link = a0.link) :
    (pegIssue s i f sa regs preds body).link = s.link := by
  unfold pegIssue
  first
  | (simp [h0]; done)
  | ((try dsimp only)
     (repeat' (split <;> try (rename_i hp; first | (obtain ⟨rfl, rfl⟩ := Prod.ext_iff.mp hp) | (obtain ⟨rfl, hq⟩ := Prod.ext_iff.mp hp; obtain ⟨rfl, rfl⟩ := Prod.ext_iff.mp hq) | (obtain ⟨rfl, hq⟩ := Prod.ext_iff.mp hp; obtain ⟨rfl, _⟩ := Prod.ext_iff.mp hq) | (obtain ⟨_, hq⟩ := Prod.ext_iff.mp hp; obtain ⟨rfl, _⟩ := Prod.ext_iff.mp hq) | (obtain ⟨rfl, _⟩ := Prod.ext_iff.mp hp) | (obtain ⟨_, rfl⟩ := Prod.ext_iff.mp hp)))) <;> first | rfl | (simp [h0]; done) | (simp_all; done))

@[simp] theorem pegIssue_pending (s : State) (i : Issue) (f : PegForm) (sa : Nat) (regs preds : List Nat) (body : State → List Nat → State) (h0 : ∀ a0 a1, (body a0 a1).pending = a0.pending) :
    (pegIssue s i f sa regs preds body).pending = s.pending := by
  unfold pegIssue
  first
  | (simp [h0]; done)
  | ((try dsimp only)
     (repeat' (split <;> try (rename_i hp; first | (obtain ⟨rfl, rfl⟩ := Prod.ext_iff.mp hp) | (obtain ⟨rfl, hq⟩ := Prod.ext_iff.mp hp; obtain ⟨rfl, rfl⟩ := Prod.ext_iff.mp hq) | (obtain ⟨rfl, hq⟩ := Prod.ext_iff.mp hp; obtain ⟨rfl, _⟩ := Prod.ext_iff.mp hq) | (obtain ⟨_, hq⟩ := Prod.ext_iff.mp hp; obtain ⟨rfl, _⟩ := Prod.ext_iff.mp hq) | (obtain ⟨rfl, _⟩ := Prod.ext_iff.mp hp) | (obtain ⟨_, rfl⟩ := Prod.ext_iff.mp hp)))) <;> first | rfl | (simp [h0]; done) | (simp_all; done))

@[simp] theorem pegAddOne_frame (s : State) (i : Issue) (dst id value : Nat) (dest : List Nat) :
    (pegAddOne s i dst id value dest).time = s.time ∧ (pegAddOne s i dst id value dest).part = s.part ∧
    (pegAddOne s i dst id value dest).err = s.err ∧ (pegAddOne s i dst id value dest).pwr = s.pwr ∧
    (pegAddOne s i dst id value dest).mgmt = s.mgmt ∧ (pegAddOne s i dst id value dest).boot = s.boot ∧
    (pegAddOne s i dst id value dest).mem = s.mem ∧ (pegAddOne s i dst id value dest).reg = s.reg ∧
    (pegAddOne s i dst id value dest).link = s.link ∧ (pegAddOne s i dst id value dest).pending = s.pending := by
  unfold pegAddOne
  simp

@[simp] theorem pegAddThreads_frame (s : State) (i : Issue) (f : PegForm) (dst sa sb : Nat) (act : List Nat) :
    (pegAddThreads s i f dst sa sb act).time = s.time ∧ (pegAddThreads s i f dst sa sb act).part = s.part ∧
    (pegAddThreads s i f dst sa sb act).pwr = s.pwr ∧ (pegAddThreads s i f dst sa sb act).boot = s.boot ∧
    (pegAddThreads s i f dst sa sb act).mem = s.mem ∧ (pegAddThreads s i f dst sa sb act).reg = s.reg ∧
    (pegAddThreads s i f dst sa sb act).link = s.link ∧
    (pegAddThreads s i f dst sa sb act).pending = s.pending := by
  unfold pegAddThreads
  (try dsimp only)
  (repeat' (split <;> try (rename_i hp; first | (obtain ⟨rfl, rfl⟩ := Prod.ext_iff.mp hp) | (obtain ⟨rfl, hq⟩ := Prod.ext_iff.mp hp; obtain ⟨rfl, rfl⟩ := Prod.ext_iff.mp hq) | (obtain ⟨rfl, hq⟩ := Prod.ext_iff.mp hp; obtain ⟨rfl, _⟩ := Prod.ext_iff.mp hq) | (obtain ⟨_, hq⟩ := Prod.ext_iff.mp hp; obtain ⟨rfl, _⟩ := Prod.ext_iff.mp hq) | (obtain ⟨rfl, _⟩ := Prod.ext_iff.mp hp) | (obtain ⟨_, rfl⟩ := Prod.ext_iff.mp hp)))) <;> first | rfl | (simp; done) | (simp_all; done)

@[simp] theorem pegAddInstr_time (i : Issue) (f : PegForm) (dst sa sb : Nat) (s : State) :
    (pegAddInstr i f dst sa sb s).time = s.time := by
  unfold pegAddInstr
  exact pegIssue_time _ _ _ _ _ _ _ (fun s act => released_time _ _ _ _ _ (fun s act => by simp))

@[simp] theorem pegAddInstr_part (i : Issue) (f : PegForm) (dst sa sb : Nat) (s : State) :
    (pegAddInstr i f dst sa sb s).part = s.part := by
  unfold pegAddInstr
  exact pegIssue_part _ _ _ _ _ _ _ (fun s act => released_part _ _ _ _ _ (fun s act => by simp))

@[simp] theorem pegAddInstr_pwr (i : Issue) (f : PegForm) (dst sa sb : Nat) (s : State) :
    (pegAddInstr i f dst sa sb s).pwr = s.pwr := by
  unfold pegAddInstr
  exact pegIssue_pwr _ _ _ _ _ _ _ (fun s act => released_pwr _ _ _ _ _ (fun s act => by simp))

@[simp] theorem pegAddInstr_boot (i : Issue) (f : PegForm) (dst sa sb : Nat) (s : State) :
    (pegAddInstr i f dst sa sb s).boot = s.boot := by
  unfold pegAddInstr
  exact pegIssue_boot _ _ _ _ _ _ _ (fun s act => released_boot _ _ _ _ _ (fun s act => by simp))

@[simp] theorem pegAddInstr_link (i : Issue) (f : PegForm) (dst sa sb : Nat) (s : State) :
    (pegAddInstr i f dst sa sb s).link = s.link := by
  unfold pegAddInstr
  exact pegIssue_link _ _ _ _ _ _ _ (fun s act => released_link _ _ _ _ _ (fun s act => by simp))

@[simp] theorem pegAddInstr_pending (i : Issue) (f : PegForm) (dst sa sb : Nat) (s : State) :
    (pegAddInstr i f dst sa sb s).pending = s.pending := by
  unfold pegAddInstr
  exact pegIssue_pending _ _ _ _ _ _ _ (fun s act => released_pending _ _ _ _ _ (fun s act => by simp))

end Sys2Proof.Machine
end

