-- ==== Sys2Proof/Laws/FrameMover.lean ====
section
/-! SUPPORT. What each operation of Machine/Mover.lean leaves as it was, by component of the state. -/
set_option maxRecDepth 4000
set_option exponentiation.threshold 2000
namespace Sys2Proof.Machine

@[simp] theorem modJob_frame (s : State) (c id : Nat) (f : MoverJob → MoverJob) :
    (modJob s c id f).time = s.time ∧ (modJob s c id f).cp = s.cp ∧ (modJob s c id f).part = s.part ∧
    (modJob s c id f).err = s.err ∧ (modJob s c id f).pwr = s.pwr ∧ (modJob s c id f).mgmt = s.mgmt ∧
    (modJob s c id f).boot = s.boot ∧ (modJob s c id f).cells = s.cells ∧ (modJob s c id f).mem = s.mem ∧
    (modJob s c id f).reg = s.reg ∧ (modJob s c id f).trans = s.trans ∧ (modJob s c id f).attic = s.attic ∧
    (modJob s c id f).link = s.link ∧ (modJob s c id f).chord = s.chord ∧ (modJob s c id f).fresh = s.fresh ∧
    (modJob s c id f).out = s.out ∧ (modJob s c id f).pending = s.pending := by
  unfold modJob
  simp

@[simp] theorem partDone_frame (s : State) (slot part : Nat) :
    (partDone s slot part).time = s.time ∧ (partDone s slot part).cp = s.cp ∧ (partDone s slot part).part = s.part ∧
    (partDone s slot part).err = s.err ∧ (partDone s slot part).pwr = s.pwr ∧ (partDone s slot part).mgmt = s.mgmt ∧
    (partDone s slot part).boot = s.boot ∧ (partDone s slot part).cells = s.cells ∧
    (partDone s slot part).mem = s.mem ∧ (partDone s slot part).reg = s.reg ∧ (partDone s slot part).trans = s.trans ∧
    (partDone s slot part).attic = s.attic ∧ (partDone s slot part).link = s.link ∧
    (partDone s slot part).chord = s.chord ∧ (partDone s slot part).fresh = s.fresh ∧
    (partDone s slot part).out = s.out ∧ (partDone s slot part).pending = s.pending := by
  unfold partDone
  simp

@[simp] theorem runJob_time (s : State) (c id op : Nat) (body : State → MoverJob → Bytes → State) (h0 : ∀ a0 a1 a2, (body a0 a1 a2).time = a0.time) :
    (runJob s c id op body).time = s.time := by
  unfold runJob
  first
  | (simp [h0]; done)
  | ((try dsimp only)
     (repeat' (split <;> try (rename_i hp; first | (obtain ⟨rfl, rfl⟩ := Prod.ext_iff.mp hp) | (obtain ⟨rfl, hq⟩ := Prod.ext_iff.mp hp; obtain ⟨rfl, rfl⟩ := Prod.ext_iff.mp hq) | (obtain ⟨rfl, hq⟩ := Prod.ext_iff.mp hp; obtain ⟨rfl, _⟩ := Prod.ext_iff.mp hq) | (obtain ⟨_, hq⟩ := Prod.ext_iff.mp hp; obtain ⟨rfl, _⟩ := Prod.ext_iff.mp hq) | (obtain ⟨rfl, _⟩ := Prod.ext_iff.mp hp) | (obtain ⟨_, rfl⟩ := Prod.ext_iff.mp hp)))) <;> first | rfl | (simp [h0]; done) | (simp_all; done))

@[simp] theorem runJob_cp (s : State) (c id op : Nat) (body : State → MoverJob → Bytes → State) (h0 : ∀ a0 a1 a2, (body a0 a1 a2).cp = a0.cp) :
    (runJob s c id op body).cp = s.cp := by
  unfold runJob
  first
  | (simp [h0]; done)
  | ((try dsimp only)
     (repeat' (split <;> try (rename_i hp; first | (obtain ⟨rfl, rfl⟩ := Prod.ext_iff.mp hp) | (obtain ⟨rfl, hq⟩ := Prod.ext_iff.mp hp; obtain ⟨rfl, rfl⟩ := Prod.ext_iff.mp hq) | (obtain ⟨rfl, hq⟩ := Prod.ext_iff.mp hp; obtain ⟨rfl, _⟩ := Prod.ext_iff.mp hq) | (obtain ⟨_, hq⟩ := Prod.ext_iff.mp hp; obtain ⟨rfl, _⟩ := Prod.ext_iff.mp hq) | (obtain ⟨rfl, _⟩ := Prod.ext_iff.mp hp) | (obtain ⟨_, rfl⟩ := Prod.ext_iff.mp hp)))) <;> first | rfl | (simp [h0]; done) | (simp_all; done))

@[simp] theorem runJob_part (s : State) (c id op : Nat) (body : State → MoverJob → Bytes → State) (h0 : ∀ a0 a1 a2, (body a0 a1 a2).part = a0.part) :
    (runJob s c id op body).part = s.part := by
  unfold runJob
  first
  | (simp [h0]; done)
  | ((try dsimp only)
     (repeat' (split <;> try (rename_i hp; first | (obtain ⟨rfl, rfl⟩ := Prod.ext_iff.mp hp) | (obtain ⟨rfl, hq⟩ := Prod.ext_iff.mp hp; obtain ⟨rfl, rfl⟩ := Prod.ext_iff.mp hq) | (obtain ⟨rfl, hq⟩ := Prod.ext_iff.mp hp; obtain ⟨rfl, _⟩ := Prod.ext_iff.mp hq) | (obtain ⟨_, hq⟩ := Prod.ext_iff.mp hp; obtain ⟨rfl, _⟩ := Prod.ext_iff.mp hq) | (obtain ⟨rfl, _⟩ := Prod.ext_iff.mp hp) | (obtain ⟨_, rfl⟩ := Prod.ext_iff.mp hp)))) <;> first | rfl | (simp [h0]; done) | (simp_all; done))

@[simp] theorem runJob_err (s : State) (c id op : Nat) (body : State → MoverJob → Bytes → State) (h0 : ∀ a0 a1 a2, (body a0 a1 a2).err = a0.err) :
    (runJob s c id op body).err = s.err := by
  unfold runJob
  first
  | (simp [h0]; done)
  | ((try dsimp only)
     (repeat' (split <;> try (rename_i hp; first | (obtain ⟨rfl, rfl⟩ := Prod.ext_iff.mp hp) | (obtain ⟨rfl, hq⟩ := Prod.ext_iff.mp hp; obtain ⟨rfl, rfl⟩ := Prod.ext_iff.mp hq) | (obtain ⟨rfl, hq⟩ := Prod.ext_iff.mp hp; obtain ⟨rfl, _⟩ := Prod.ext_iff.mp hq) | (obtain ⟨_, hq⟩ := Prod.ext_iff.mp hp; obtain ⟨rfl, _⟩ := Prod.ext_iff.mp hq) | (obtain ⟨rfl, _⟩ := Prod.ext_iff.mp hp) | (obtain ⟨_, rfl⟩ := Prod.ext_iff.mp hp)))) <;> first | rfl | (simp [h0]; done) | (simp_all; done))

@[simp] theorem runJob_pwr (s : State) (c id op : Nat) (body : State → MoverJob → Bytes → State) (h0 : ∀ a0 a1 a2, (body a0 a1 a2).pwr = a0.pwr) :
    (runJob s c id op body).pwr = s.pwr := by
  unfold runJob
  first
  | (simp [h0]; done)
  | ((try dsimp only)
     (repeat' (split <;> try (rename_i hp; first | (obtain ⟨rfl, rfl⟩ := Prod.ext_iff.mp hp) | (obtain ⟨rfl, hq⟩ := Prod.ext_iff.mp hp; obtain ⟨rfl, rfl⟩ := Prod.ext_iff.mp hq) | (obtain ⟨rfl, hq⟩ := Prod.ext_iff.mp hp; obtain ⟨rfl, _⟩ := Prod.ext_iff.mp hq) | (obtain ⟨_, hq⟩ := Prod.ext_iff.mp hp; obtain ⟨rfl, _⟩ := Prod.ext_iff.mp hq) | (obtain ⟨rfl, _⟩ := Prod.ext_iff.mp hp) | (obtain ⟨_, rfl⟩ := Prod.ext_iff.mp hp)))) <;> first | rfl | (simp [h0]; done) | (simp_all; done))

@[simp] theorem runJob_mgmt (s : State) (c id op : Nat) (body : State → MoverJob → Bytes → State) (h0 : ∀ a0 a1 a2, (body a0 a1 a2).mgmt = a0.mgmt) :
    (runJob s c id op body).mgmt = s.mgmt := by
  unfold runJob
  first
  | (simp [h0]; done)
  | ((try dsimp only)
     (repeat' (split <;> try (rename_i hp; first | (obtain ⟨rfl, rfl⟩ := Prod.ext_iff.mp hp) | (obtain ⟨rfl, hq⟩ := Prod.ext_iff.mp hp; obtain ⟨rfl, rfl⟩ := Prod.ext_iff.mp hq) | (obtain ⟨rfl, hq⟩ := Prod.ext_iff.mp hp; obtain ⟨rfl, _⟩ := Prod.ext_iff.mp hq) | (obtain ⟨_, hq⟩ := Prod.ext_iff.mp hp; obtain ⟨rfl, _⟩ := Prod.ext_iff.mp hq) | (obtain ⟨rfl, _⟩ := Prod.ext_iff.mp hp) | (obtain ⟨_, rfl⟩ := Prod.ext_iff.mp hp)))) <;> first | rfl | (simp [h0]; done) | (simp_all; done))

@[simp] theorem runJob_boot (s : State) (c id op : Nat) (body : State → MoverJob → Bytes → State) (h0 : ∀ a0 a1 a2, (body a0 a1 a2).boot = a0.boot) :
    (runJob s c id op body).boot = s.boot := by
  unfold runJob
  first
  | (simp [h0]; done)
  | ((try dsimp only)
     (repeat' (split <;> try (rename_i hp; first | (obtain ⟨rfl, rfl⟩ := Prod.ext_iff.mp hp) | (obtain ⟨rfl, hq⟩ := Prod.ext_iff.mp hp; obtain ⟨rfl, rfl⟩ := Prod.ext_iff.mp hq) | (obtain ⟨rfl, hq⟩ := Prod.ext_iff.mp hp; obtain ⟨rfl, _⟩ := Prod.ext_iff.mp hq) | (obtain ⟨_, hq⟩ := Prod.ext_iff.mp hp; obtain ⟨rfl, _⟩ := Prod.ext_iff.mp hq) | (obtain ⟨rfl, _⟩ := Prod.ext_iff.mp hp) | (obtain ⟨_, rfl⟩ := Prod.ext_iff.mp hp)))) <;> first | rfl | (simp [h0]; done) | (simp_all; done))

@[simp] theorem runJob_cells (s : State) (c id op : Nat) (body : State → MoverJob → Bytes → State) (h0 : ∀ a0 a1 a2, (body a0 a1 a2).cells = a0.cells) :
    (runJob s c id op body).cells = s.cells := by
  unfold runJob
  first
  | (simp [h0]; done)
  | ((try dsimp only)
     (repeat' (split <;> try (rename_i hp; first | (obtain ⟨rfl, rfl⟩ := Prod.ext_iff.mp hp) | (obtain ⟨rfl, hq⟩ := Prod.ext_iff.mp hp; obtain ⟨rfl, rfl⟩ := Prod.ext_iff.mp hq) | (obtain ⟨rfl, hq⟩ := Prod.ext_iff.mp hp; obtain ⟨rfl, _⟩ := Prod.ext_iff.mp hq) | (obtain ⟨_, hq⟩ := Prod.ext_iff.mp hp; obtain ⟨rfl, _⟩ := Prod.ext_iff.mp hq) | (obtain ⟨rfl, _⟩ := Prod.ext_iff.mp hp) | (obtain ⟨_, rfl⟩ := Prod.ext_iff.mp hp)))) <;> first | rfl | (simp [h0]; done) | (simp_all; done))

@[simp] theorem runJob_mem (s : State) (c id op : Nat) (body : State → MoverJob → Bytes → State) (h0 : ∀ a0 a1 a2, (body a0 a1 a2).mem = a0.mem) :
    (runJob s c id op body).mem = s.mem := by
  unfold runJob
  first
  | (simp [h0]; done)
  | ((try dsimp only)
     (repeat' (split <;> try (rename_i hp; first | (obtain ⟨rfl, rfl⟩ := Prod.ext_iff.mp hp) | (obtain ⟨rfl, hq⟩ := Prod.ext_iff.mp hp; obtain ⟨rfl, rfl⟩ := Prod.ext_iff.mp hq) | (obtain ⟨rfl, hq⟩ := Prod.ext_iff.mp hp; obtain ⟨rfl, _⟩ := Prod.ext_iff.mp hq) | (obtain ⟨_, hq⟩ := Prod.ext_iff.mp hp; obtain ⟨rfl, _⟩ := Prod.ext_iff.mp hq) | (obtain ⟨rfl, _⟩ := Prod.ext_iff.mp hp) | (obtain ⟨_, rfl⟩ := Prod.ext_iff.mp hp)))) <;> first | rfl | (simp [h0]; done) | (simp_all; done))

@[simp] theorem runJob_reg (s : State) (c id op : Nat) (body : State → MoverJob → Bytes → State) (h0 : ∀ a0 a1 a2, (body a0 a1 a2).reg = a0.reg) :
    (runJob s c id op body).reg = s.reg := by
  unfold runJob
  first
  | (simp [h0]; done)
  | ((try dsimp only)
     (repeat' (split <;> try (rename_i hp; first | (obtain ⟨rfl, rfl⟩ := Prod.ext_iff.mp hp) | (obtain ⟨rfl, hq⟩ := Prod.ext_iff.mp hp; obtain ⟨rfl, rfl⟩ := Prod.ext_iff.mp hq) | (obtain ⟨rfl, hq⟩ := Prod.ext_iff.mp hp; obtain ⟨rfl, _⟩ := Prod.ext_iff.mp hq) | (obtain ⟨_, hq⟩ := Prod.ext_iff.mp hp; obtain ⟨rfl, _⟩ := Prod.ext_iff.mp hq) | (obtain ⟨rfl, _⟩ := Prod.ext_iff.mp hp) | (obtain ⟨_, rfl⟩ := Prod.ext_iff.mp hp)))) <;> first | rfl | (simp [h0]; done) | (simp_all; done))

@[simp] theorem runJob_trans (s : State) (c id op : Nat) (body : State → MoverJob → Bytes → State) (h0 : ∀ a0 a1 a2, (body a0 a1 a2).trans = a0.trans) :
    (runJob s c id op body).trans = s.trans := by
  unfold runJob
  first
  | (simp [h0]; done)
  | ((try dsimp only)
     (repeat' (split <;> try (rename_i hp; first | (obtain ⟨rfl, rfl⟩ := Prod.ext_iff.mp hp) | (obtain ⟨rfl, hq⟩ := Prod.ext_iff.mp hp; obtain ⟨rfl, rfl⟩ := Prod.ext_iff.mp hq) | (obtain ⟨rfl, hq⟩ := Prod.ext_iff.mp hp; obtain ⟨rfl, _⟩ := Prod.ext_iff.mp hq) | (obtain ⟨_, hq⟩ := Prod.ext_iff.mp hp; obtain ⟨rfl, _⟩ := Prod.ext_iff.mp hq) | (obtain ⟨rfl, _⟩ := Prod.ext_iff.mp hp) | (obtain ⟨_, rfl⟩ := Prod.ext_iff.mp hp)))) <;> first | rfl | (simp [h0]; done) | (simp_all; done))

@[simp] theorem runJob_attic (s : State) (c id op : Nat) (body : State → MoverJob → Bytes → State) (h0 : ∀ a0 a1 a2, (body a0 a1 a2).attic = a0.attic) :
    (runJob s c id op body).attic = s.attic := by
  unfold runJob
  first
  | (simp [h0]; done)
  | ((try dsimp only)
     (repeat' (split <;> try (rename_i hp; first | (obtain ⟨rfl, rfl⟩ := Prod.ext_iff.mp hp) | (obtain ⟨rfl, hq⟩ := Prod.ext_iff.mp hp; obtain ⟨rfl, rfl⟩ := Prod.ext_iff.mp hq) | (obtain ⟨rfl, hq⟩ := Prod.ext_iff.mp hp; obtain ⟨rfl, _⟩ := Prod.ext_iff.mp hq) | (obtain ⟨_, hq⟩ := Prod.ext_iff.mp hp; obtain ⟨rfl, _⟩ := Prod.ext_iff.mp hq) | (obtain ⟨rfl, _⟩ := Prod.ext_iff.mp hp) | (obtain ⟨_, rfl⟩ := Prod.ext_iff.mp hp)))) <;> first | rfl | (simp [h0]; done) | (simp_all; done))

@[simp] theorem runJob_link (s : State) (c id op : Nat) (body : State → MoverJob → Bytes → State) (h0 : ∀ a0 a1 a2, (body a0 a1 a2).link = a0.link) :
    (runJob s c id op body).link = s.link := by
  unfold runJob
  first
  | (simp [h0]; done)
  | ((try dsimp only)
     (repeat' (split <;> try (rename_i hp; first | (obtain ⟨rfl, rfl⟩ := Prod.ext_iff.mp hp) | (obtain ⟨rfl, hq⟩ := Prod.ext_iff.mp hp; obtain ⟨rfl, rfl⟩ := Prod.ext_iff.mp hq) | (obtain ⟨rfl, hq⟩ := Prod.ext_iff.mp hp; obtain ⟨rfl, _⟩ := Prod.ext_iff.mp hq) | (obtain ⟨_, hq⟩ := Prod.ext_iff.mp hp; obtain ⟨rfl, _⟩ := Prod.ext_iff.mp hq) | (obtain ⟨rfl, _⟩ := Prod.ext_iff.mp hp) | (obtain ⟨_, rfl⟩ := Prod.ext_iff.mp hp)))) <;> first | rfl | (simp [h0]; done) | (simp_all; done))

@[simp] theorem runJob_chord (s : State) (c id op : Nat) (body : State → MoverJob → Bytes → State) (h0 : ∀ a0 a1 a2, (body a0 a1 a2).chord = a0.chord) :
    (runJob s c id op body).chord = s.chord := by
  unfold runJob
  first
  | (simp [h0]; done)
  | ((try dsimp only)
     (repeat' (split <;> try (rename_i hp; first | (obtain ⟨rfl, rfl⟩ := Prod.ext_iff.mp hp) | (obtain ⟨rfl, hq⟩ := Prod.ext_iff.mp hp; obtain ⟨rfl, rfl⟩ := Prod.ext_iff.mp hq) | (obtain ⟨rfl, hq⟩ := Prod.ext_iff.mp hp; obtain ⟨rfl, _⟩ := Prod.ext_iff.mp hq) | (obtain ⟨_, hq⟩ := Prod.ext_iff.mp hp; obtain ⟨rfl, _⟩ := Prod.ext_iff.mp hq) | (obtain ⟨rfl, _⟩ := Prod.ext_iff.mp hp) | (obtain ⟨_, rfl⟩ := Prod.ext_iff.mp hp)))) <;> first | rfl | (simp [h0]; done) | (simp_all; done))

@[simp] theorem runJob_fresh (s : State) (c id op : Nat) (body : State → MoverJob → Bytes → State) (h0 : ∀ a0 a1 a2, (body a0 a1 a2).fresh = a0.fresh) :
    (runJob s c id op body).fresh = s.fresh := by
  unfold runJob
  first
  | (simp [h0]; done)
  | ((try dsimp only)
     (repeat' (split <;> try (rename_i hp; first | (obtain ⟨rfl, rfl⟩ := Prod.ext_iff.mp hp) | (obtain ⟨rfl, hq⟩ := Prod.ext_iff.mp hp; obtain ⟨rfl, rfl⟩ := Prod.ext_iff.mp hq) | (obtain ⟨rfl, hq⟩ := Prod.ext_iff.mp hp; obtain ⟨rfl, _⟩ := Prod.ext_iff.mp hq) | (obtain ⟨_, hq⟩ := Prod.ext_iff.mp hp; obtain ⟨rfl, _⟩ := Prod.ext_iff.mp hq) | (obtain ⟨rfl, _⟩ := Prod.ext_iff.mp hp) | (obtain ⟨_, rfl⟩ := Prod.ext_iff.mp hp)))) <;> first | rfl | (simp [h0]; done) | (simp_all; done))

@[simp] theorem runJob_out (s : State) (c id op : Nat) (body : State → MoverJob → Bytes → State) (h0 : ∀ a0 a1 a2, (body a0 a1 a2).out = a0.out) :
    (runJob s c id op body).out = s.out := by
  unfold runJob
  first
  | (simp [h0]; done)
  | ((try dsimp only)
     (repeat' (split <;> try (rename_i hp; first | (obtain ⟨rfl, rfl⟩ := Prod.ext_iff.mp hp) | (obtain ⟨rfl, hq⟩ := Prod.ext_iff.mp hp; obtain ⟨rfl, rfl⟩ := Prod.ext_iff.mp hq) | (obtain ⟨rfl, hq⟩ := Prod.ext_iff.mp hp; obtain ⟨rfl, _⟩ := Prod.ext_iff.mp hq) | (obtain ⟨_, hq⟩ := Prod.ext_iff.mp hp; obtain ⟨rfl, _⟩ := Prod.ext_iff.mp hq) | (obtain ⟨rfl, _⟩ := Prod.ext_iff.mp hp) | (obtain ⟨_, rfl⟩ := Prod.ext_iff.mp hp)))) <;> first | rfl | (simp [h0]; done) | (simp_all; done))

@[simp] theorem runJob_pending (s : State) (c id op : Nat) (body : State → MoverJob → Bytes → State) (h0 : ∀ a0 a1 a2, (body a0 a1 a2).pending = a0.pending) :
    (runJob s c id op body).pending = s.pending := by
  unfold runJob
  first
  | (simp [h0]; done)
  | ((try dsimp only)
     (repeat' (split <;> try (rename_i hp; first | (obtain ⟨rfl, rfl⟩ := Prod.ext_iff.mp hp) | (obtain ⟨rfl, hq⟩ := Prod.ext_iff.mp hp; obtain ⟨rfl, rfl⟩ := Prod.ext_iff.mp hq) | (obtain ⟨rfl, hq⟩ := Prod.ext_iff.mp hp; obtain ⟨rfl, _⟩ := Prod.ext_iff.mp hq) | (obtain ⟨_, hq⟩ := Prod.ext_iff.mp hp; obtain ⟨rfl, _⟩ := Prod.ext_iff.mp hq) | (obtain ⟨rfl, _⟩ := Prod.ext_iff.mp hp) | (obtain ⟨_, rfl⟩ := Prod.ext_iff.mp hp)))) <;> first | rfl | (simp [h0]; done) | (simp_all; done))

@[simp] theorem endJob_frame (s : State) (c id code done a0 a1 : Nat) :
    (endJob s c id code done a0 a1).time = s.time ∧ (endJob s c id code done a0 a1).cp = s.cp ∧
    (endJob s c id code done a0 a1).part = s.part ∧ (endJob s c id code done a0 a1).err = s.err ∧
    (endJob s c id code done a0 a1).pwr = s.pwr ∧ (endJob s c id code done a0 a1).mgmt = s.mgmt ∧
    (endJob s c id code done a0 a1).boot = s.boot ∧ (endJob s c id code done a0 a1).cells = s.cells ∧
    (endJob s c id code done a0 a1).mem = s.mem ∧ (endJob s c id code done a0 a1).reg = s.reg ∧
    (endJob s c id code done a0 a1).trans = s.trans ∧ (endJob s c id code done a0 a1).attic = s.attic ∧
    (endJob s c id code done a0 a1).link = s.link ∧ (endJob s c id code done a0 a1).chord = s.chord ∧
    (endJob s c id code done a0 a1).fresh = s.fresh ∧ (endJob s c id code done a0 a1).out = s.out ∧
    (endJob s c id code done a0 a1).pending = s.pending := by
  unfold endJob
  simp

@[simp] theorem removeJob_frame (s : State) (c id : Nat) :
    (removeJob s c id).time = s.time ∧ (removeJob s c id).part = s.part ∧ (removeJob s c id).err = s.err ∧
    (removeJob s c id).pwr = s.pwr ∧ (removeJob s c id).mgmt = s.mgmt ∧ (removeJob s c id).boot = s.boot ∧
    (removeJob s c id).cells = s.cells ∧ (removeJob s c id).mem = s.mem ∧ (removeJob s c id).reg = s.reg ∧
    (removeJob s c id).attic = s.attic ∧ (removeJob s c id).link = s.link ∧ (removeJob s c id).chord = s.chord ∧
    (removeJob s c id).fresh = s.fresh ∧ (removeJob s c id).out = s.out ∧
    (removeJob s c id).pending = s.pending := by
  unfold removeJob
  (try dsimp only)
  (repeat' (split <;> try (rename_i hp; first | (obtain ⟨rfl, rfl⟩ := Prod.ext_iff.mp hp) | (obtain ⟨rfl, hq⟩ := Prod.ext_iff.mp hp; obtain ⟨rfl, rfl⟩ := Prod.ext_iff.mp hq) | (obtain ⟨rfl, hq⟩ := Prod.ext_iff.mp hp; obtain ⟨rfl, _⟩ := Prod.ext_iff.mp hq) | (obtain ⟨_, hq⟩ := Prod.ext_iff.mp hp; obtain ⟨rfl, _⟩ := Prod.ext_iff.mp hq) | (obtain ⟨rfl, _⟩ := Prod.ext_iff.mp hp) | (obtain ⟨_, rfl⟩ := Prod.ext_iff.mp hp)))) <;> first | rfl | (simp; done) | (simp_all; done)

@[simp] theorem failJob_frame (s : State) (c id ref : Nat) :
    (failJob s c id ref).time = s.time ∧ (failJob s c id ref).part = s.part ∧ (failJob s c id ref).err = s.err ∧
    (failJob s c id ref).pwr = s.pwr ∧ (failJob s c id ref).mgmt = s.mgmt ∧ (failJob s c id ref).boot = s.boot ∧
    (failJob s c id ref).mem = s.mem ∧ (failJob s c id ref).reg = s.reg ∧ (failJob s c id ref).link = s.link ∧
    (failJob s c id ref).fresh = s.fresh ∧ (failJob s c id ref).pending = s.pending := by
  unfold failJob
  (try dsimp only)
  (repeat' (split <;> try (rename_i hp; first | (obtain ⟨rfl, rfl⟩ := Prod.ext_iff.mp hp) | (obtain ⟨rfl, hq⟩ := Prod.ext_iff.mp hp; obtain ⟨rfl, rfl⟩ := Prod.ext_iff.mp hq) | (obtain ⟨rfl, hq⟩ := Prod.ext_iff.mp hp; obtain ⟨rfl, _⟩ := Prod.ext_iff.mp hq) | (obtain ⟨_, hq⟩ := Prod.ext_iff.mp hp; obtain ⟨rfl, _⟩ := Prod.ext_iff.mp hq) | (obtain ⟨rfl, _⟩ := Prod.ext_iff.mp hp) | (obtain ⟨_, rfl⟩ := Prod.ext_iff.mp hp)))) <;> first | rfl | (simp; done) | (simp_all; done)

@[simp] theorem moverError_frame (s : State) (c id code addr : Nat) :
    (moverError s c id code addr).time = s.time ∧ (moverError s c id code addr).part = s.part ∧
    (moverError s c id code addr).pwr = s.pwr ∧ (moverError s c id code addr).boot = s.boot ∧
    (moverError s c id code addr).mem = s.mem ∧ (moverError s c id code addr).reg = s.reg ∧
    (moverError s c id code addr).link = s.link ∧ (moverError s c id code addr).fresh = s.fresh ∧
    (moverError s c id code addr).pending = s.pending := by
  unfold moverError
  (try dsimp only)
  (repeat' (split <;> try (rename_i hp; first | (obtain ⟨rfl, rfl⟩ := Prod.ext_iff.mp hp) | (obtain ⟨rfl, hq⟩ := Prod.ext_iff.mp hp; obtain ⟨rfl, rfl⟩ := Prod.ext_iff.mp hq) | (obtain ⟨rfl, hq⟩ := Prod.ext_iff.mp hp; obtain ⟨rfl, _⟩ := Prod.ext_iff.mp hq) | (obtain ⟨_, hq⟩ := Prod.ext_iff.mp hp; obtain ⟨rfl, _⟩ := Prod.ext_iff.mp hq) | (obtain ⟨rfl, _⟩ := Prod.ext_iff.mp hp) | (obtain ⟨_, rfl⟩ := Prod.ext_iff.mp hp)))) <;> first | rfl | (simp; done) | (simp_all; done)

@[simp] theorem jobTxn_frame (s : State) (c : Nat) (j : MoverJob) (t : Txn) :
    (jobTxn s c j t).time = s.time ∧ (jobTxn s c j t).cp = s.cp ∧ (jobTxn s c j t).part = s.part ∧
    (jobTxn s c j t).err = s.err ∧ (jobTxn s c j t).pwr = s.pwr ∧ (jobTxn s c j t).mgmt = s.mgmt ∧
    (jobTxn s c j t).boot = s.boot ∧ (jobTxn s c j t).larder = s.larder ∧ (jobTxn s c j t).reg = s.reg ∧
    (jobTxn s c j t).trans = s.trans ∧ (jobTxn s c j t).attic = s.attic ∧ (jobTxn s c j t).link = s.link ∧
    (jobTxn s c j t).chord = s.chord ∧ (jobTxn s c j t).fresh = s.fresh ∧ (jobTxn s c j t).out = s.out ∧
    (jobTxn s c j t).pending = s.pending := by
  unfold jobTxn
  simp

@[simp] theorem fetchPiece_frame (s : State) (c : Nat) (j : MoverJob) (kind : TxnKind) (a n : Nat) :
    (fetchPiece s c j kind a n).1.time = s.time ∧ (fetchPiece s c j kind a n).1.cp = s.cp ∧
    (fetchPiece s c j kind a n).1.part = s.part ∧ (fetchPiece s c j kind a n).1.err = s.err ∧
    (fetchPiece s c j kind a n).1.pwr = s.pwr ∧ (fetchPiece s c j kind a n).1.mgmt = s.mgmt ∧
    (fetchPiece s c j kind a n).1.boot = s.boot ∧ (fetchPiece s c j kind a n).1.larder = s.larder ∧
    (fetchPiece s c j kind a n).1.reg = s.reg ∧ (fetchPiece s c j kind a n).1.trans = s.trans ∧
    (fetchPiece s c j kind a n).1.attic = s.attic ∧ (fetchPiece s c j kind a n).1.link = s.link ∧
    (fetchPiece s c j kind a n).1.chord = s.chord ∧ (fetchPiece s c j kind a n).1.fresh = s.fresh ∧
    (fetchPiece s c j kind a n).1.out = s.out ∧ (fetchPiece s c j kind a n).1.pending = s.pending := by
  unfold fetchPiece
  simp

@[simp] theorem ensureRemote_frame (s : State) (c : Nat) (j : MoverJob) (a n : Nat) :
    (ensureRemote s c j a n).1.time = s.time ∧ (ensureRemote s c j a n).1.cp = s.cp ∧
    (ensureRemote s c j a n).1.part = s.part ∧ (ensureRemote s c j a n).1.err = s.err ∧
    (ensureRemote s c j a n).1.pwr = s.pwr ∧ (ensureRemote s c j a n).1.mgmt = s.mgmt ∧
    (ensureRemote s c j a n).1.boot = s.boot ∧ (ensureRemote s c j a n).1.larder = s.larder ∧
    (ensureRemote s c j a n).1.reg = s.reg ∧ (ensureRemote s c j a n).1.trans = s.trans ∧
    (ensureRemote s c j a n).1.attic = s.attic ∧ (ensureRemote s c j a n).1.link = s.link ∧
    (ensureRemote s c j a n).1.chord = s.chord ∧ (ensureRemote s c j a n).1.fresh = s.fresh ∧
    (ensureRemote s c j a n).1.out = s.out ∧ (ensureRemote s c j a n).1.pending = s.pending := by
  unfold ensureRemote
  simp

@[simp] theorem uncache_frame (s : State) (c line : Nat) (m : Nat) :
    (uncache s c line m).time = s.time ∧ (uncache s c line m).cp = s.cp ∧ (uncache s c line m).part = s.part ∧
    (uncache s c line m).err = s.err ∧ (uncache s c line m).pwr = s.pwr ∧ (uncache s c line m).mgmt = s.mgmt ∧
    (uncache s c line m).boot = s.boot ∧ (uncache s c line m).mem = s.mem ∧ (uncache s c line m).larder = s.larder ∧
    (uncache s c line m).reg = s.reg ∧ (uncache s c line m).trans = s.trans ∧ (uncache s c line m).attic = s.attic ∧
    (uncache s c line m).link = s.link ∧ (uncache s c line m).chord = s.chord ∧ (uncache s c line m).fresh = s.fresh ∧
    (uncache s c line m).out = s.out ∧ (uncache s c line m).pending = s.pending := by
  unfold uncache
  (try dsimp only)
  (repeat' (split <;> try (rename_i hp; first | (obtain ⟨rfl, rfl⟩ := Prod.ext_iff.mp hp) | (obtain ⟨rfl, hq⟩ := Prod.ext_iff.mp hp; obtain ⟨rfl, rfl⟩ := Prod.ext_iff.mp hq) | (obtain ⟨rfl, hq⟩ := Prod.ext_iff.mp hp; obtain ⟨rfl, _⟩ := Prod.ext_iff.mp hq) | (obtain ⟨_, hq⟩ := Prod.ext_iff.mp hp; obtain ⟨rfl, _⟩ := Prod.ext_iff.mp hq) | (obtain ⟨rfl, _⟩ := Prod.ext_iff.mp hp) | (obtain ⟨_, rfl⟩ := Prod.ext_iff.mp hp)))) <;> first | rfl | (simp; done) | (simp_all; done)

@[simp] theorem jobWrite_frame (s : State) (c : Nat) (j : MoverJob) (a : Nat) (b : Bytes) (pz : Nat → Bool) :
    (jobWrite s c j a b pz).time = s.time ∧ (jobWrite s c j a b pz).cp = s.cp ∧
    (jobWrite s c j a b pz).part = s.part ∧ (jobWrite s c j a b pz).err = s.err ∧
    (jobWrite s c j a b pz).pwr = s.pwr ∧ (jobWrite s c j a b pz).mgmt = s.mgmt ∧
    (jobWrite s c j a b pz).boot = s.boot ∧ (jobWrite s c j a b pz).larder = s.larder ∧
    (jobWrite s c j a b pz).reg = s.reg ∧ (jobWrite s c j a b pz).trans = s.trans ∧
    (jobWrite s c j a b pz).attic = s.attic ∧ (jobWrite s c j a b pz).link = s.link ∧
    (jobWrite s c j a b pz).chord = s.chord ∧ (jobWrite s c j a b pz).fresh = s.fresh ∧
    (jobWrite s c j a b pz).pending = s.pending := by
  unfold jobWrite
  simp

@[simp] theorem hostPages_time (fuel : Nat) (s : State) (pasid part : Nat) (write : Bool) (who : Asker) (a n : Nat) :
    (hostPages fuel s pasid part write who a n).1.time = s.time := by
  induction fuel generalizing s pasid part write who a n with
  | zero => simp [hostPages]
  | succ fuel ih =>
    unfold hostPages
    (try dsimp only)
    (repeat' (split <;> try (rename_i hp; first | (obtain ⟨rfl, rfl⟩ := Prod.ext_iff.mp hp) | (obtain ⟨rfl, hq⟩ := Prod.ext_iff.mp hp; obtain ⟨rfl, rfl⟩ := Prod.ext_iff.mp hq) | (obtain ⟨rfl, hq⟩ := Prod.ext_iff.mp hp; obtain ⟨rfl, _⟩ := Prod.ext_iff.mp hq) | (obtain ⟨_, hq⟩ := Prod.ext_iff.mp hp; obtain ⟨rfl, _⟩ := Prod.ext_iff.mp hq) | (obtain ⟨rfl, _⟩ := Prod.ext_iff.mp hp) | (obtain ⟨_, rfl⟩ := Prod.ext_iff.mp hp)))) <;> first | rfl | (simp [ih]; done) | (simp_all; done)

@[simp] theorem hostPages_part (fuel : Nat) (s : State) (pasid part : Nat) (write : Bool) (who : Asker) (a n : Nat) :
    (hostPages fuel s pasid part write who a n).1.part = s.part := by
  induction fuel generalizing s pasid part write who a n with
  | zero => simp [hostPages]
  | succ fuel ih =>
    unfold hostPages
    (try dsimp only)
    (repeat' (split <;> try (rename_i hp; first | (obtain ⟨rfl, rfl⟩ := Prod.ext_iff.mp hp) | (obtain ⟨rfl, hq⟩ := Prod.ext_iff.mp hp; obtain ⟨rfl, rfl⟩ := Prod.ext_iff.mp hq) | (obtain ⟨rfl, hq⟩ := Prod.ext_iff.mp hp; obtain ⟨rfl, _⟩ := Prod.ext_iff.mp hq) | (obtain ⟨_, hq⟩ := Prod.ext_iff.mp hp; obtain ⟨rfl, _⟩ := Prod.ext_iff.mp hq) | (obtain ⟨rfl, _⟩ := Prod.ext_iff.mp hp) | (obtain ⟨_, rfl⟩ := Prod.ext_iff.mp hp)))) <;> first | rfl | (simp [ih]; done) | (simp_all; done)

@[simp] theorem hostPages_pwr (fuel : Nat) (s : State) (pasid part : Nat) (write : Bool) (who : Asker) (a n : Nat) :
    (hostPages fuel s pasid part write who a n).1.pwr = s.pwr := by
  induction fuel generalizing s pasid part write who a n with
  | zero => simp [hostPages]
  | succ fuel ih =>
    unfold hostPages
    (try dsimp only)
    (repeat' (split <;> try (rename_i hp; first | (obtain ⟨rfl, rfl⟩ := Prod.ext_iff.mp hp) | (obtain ⟨rfl, hq⟩ := Prod.ext_iff.mp hp; obtain ⟨rfl, rfl⟩ := Prod.ext_iff.mp hq) | (obtain ⟨rfl, hq⟩ := Prod.ext_iff.mp hp; obtain ⟨rfl, _⟩ := Prod.ext_iff.mp hq) | (obtain ⟨_, hq⟩ := Prod.ext_iff.mp hp; obtain ⟨rfl, _⟩ := Prod.ext_iff.mp hq) | (obtain ⟨rfl, _⟩ := Prod.ext_iff.mp hp) | (obtain ⟨_, rfl⟩ := Prod.ext_iff.mp hp)))) <;> first | rfl | (simp [ih]; done) | (simp_all; done)

@[simp] theorem hostPages_boot (fuel : Nat) (s : State) (pasid part : Nat) (write : Bool) (who : Asker) (a n : Nat) :
    (hostPages fuel s pasid part write who a n).1.boot = s.boot := by
  induction fuel generalizing s pasid part write who a n with
  | zero => simp [hostPages]
  | succ fuel ih =>
    unfold hostPages
    (try dsimp only)
    (repeat' (split <;> try (rename_i hp; first | (obtain ⟨rfl, rfl⟩ := Prod.ext_iff.mp hp) | (obtain ⟨rfl, hq⟩ := Prod.ext_iff.mp hp; obtain ⟨rfl, rfl⟩ := Prod.ext_iff.mp hq) | (obtain ⟨rfl, hq⟩ := Prod.ext_iff.mp hp; obtain ⟨rfl, _⟩ := Prod.ext_iff.mp hq) | (obtain ⟨_, hq⟩ := Prod.ext_iff.mp hp; obtain ⟨rfl, _⟩ := Prod.ext_iff.mp hq) | (obtain ⟨rfl, _⟩ := Prod.ext_iff.mp hp) | (obtain ⟨_, rfl⟩ := Prod.ext_iff.mp hp)))) <;> first | rfl | (simp [ih]; done) | (simp_all; done)

@[simp] theorem hostPages_cells (fuel : Nat) (s : State) (pasid part : Nat) (write : Bool) (who : Asker) (a n : Nat) :
    (hostPages fuel s pasid part write who a n).1.cells = s.cells := by
  induction fuel generalizing s pasid part write who a n with
  | zero => simp [hostPages]
  | succ fuel ih =>
    unfold hostPages
    (try dsimp only)
    (repeat' (split <;> try (rename_i hp; first | (obtain ⟨rfl, rfl⟩ := Prod.ext_iff.mp hp) | (obtain ⟨rfl, hq⟩ := Prod.ext_iff.mp hp; obtain ⟨rfl, rfl⟩ := Prod.ext_iff.mp hq) | (obtain ⟨rfl, hq⟩ := Prod.ext_iff.mp hp; obtain ⟨rfl, _⟩ := Prod.ext_iff.mp hq) | (obtain ⟨_, hq⟩ := Prod.ext_iff.mp hp; obtain ⟨rfl, _⟩ := Prod.ext_iff.mp hq) | (obtain ⟨rfl, _⟩ := Prod.ext_iff.mp hp) | (obtain ⟨_, rfl⟩ := Prod.ext_iff.mp hp)))) <;> first | rfl | (simp [ih]; done) | (simp_all; done)

@[simp] theorem hostPages_mem (fuel : Nat) (s : State) (pasid part : Nat) (write : Bool) (who : Asker) (a n : Nat) :
    (hostPages fuel s pasid part write who a n).1.mem = s.mem := by
  induction fuel generalizing s pasid part write who a n with
  | zero => simp [hostPages]
  | succ fuel ih =>
    unfold hostPages
    (try dsimp only)
    (repeat' (split <;> try (rename_i hp; first | (obtain ⟨rfl, rfl⟩ := Prod.ext_iff.mp hp) | (obtain ⟨rfl, hq⟩ := Prod.ext_iff.mp hp; obtain ⟨rfl, rfl⟩ := Prod.ext_iff.mp hq) | (obtain ⟨rfl, hq⟩ := Prod.ext_iff.mp hp; obtain ⟨rfl, _⟩ := Prod.ext_iff.mp hq) | (obtain ⟨_, hq⟩ := Prod.ext_iff.mp hp; obtain ⟨rfl, _⟩ := Prod.ext_iff.mp hq) | (obtain ⟨rfl, _⟩ := Prod.ext_iff.mp hp) | (obtain ⟨_, rfl⟩ := Prod.ext_iff.mp hp)))) <;> first | rfl | (simp [ih]; done) | (simp_all; done)

@[simp] theorem hostPages_larder (fuel : Nat) (s : State) (pasid part : Nat) (write : Bool) (who : Asker) (a n : Nat) :
    (hostPages fuel s pasid part write who a n).1.larder = s.larder := by
  induction fuel generalizing s pasid part write who a n with
  | zero => simp [hostPages]
  | succ fuel ih =>
    unfold hostPages
    (try dsimp only)
    (repeat' (split <;> try (rename_i hp; first | (obtain ⟨rfl, rfl⟩ := Prod.ext_iff.mp hp) | (obtain ⟨rfl, hq⟩ := Prod.ext_iff.mp hp; obtain ⟨rfl, rfl⟩ := Prod.ext_iff.mp hq) | (obtain ⟨rfl, hq⟩ := Prod.ext_iff.mp hp; obtain ⟨rfl, _⟩ := Prod.ext_iff.mp hq) | (obtain ⟨_, hq⟩ := Prod.ext_iff.mp hp; obtain ⟨rfl, _⟩ := Prod.ext_iff.mp hq) | (obtain ⟨rfl, _⟩ := Prod.ext_iff.mp hp) | (obtain ⟨_, rfl⟩ := Prod.ext_iff.mp hp)))) <;> first | rfl | (simp [ih]; done) | (simp_all; done)

@[simp] theorem hostPages_reg (fuel : Nat) (s : State) (pasid part : Nat) (write : Bool) (who : Asker) (a n : Nat) :
    (hostPages fuel s pasid part write who a n).1.reg = s.reg := by
  induction fuel generalizing s pasid part write who a n with
  | zero => simp [hostPages]
  | succ fuel ih =>
    unfold hostPages
    (try dsimp only)
    (repeat' (split <;> try (rename_i hp; first | (obtain ⟨rfl, rfl⟩ := Prod.ext_iff.mp hp) | (obtain ⟨rfl, hq⟩ := Prod.ext_iff.mp hp; obtain ⟨rfl, rfl⟩ := Prod.ext_iff.mp hq) | (obtain ⟨rfl, hq⟩ := Prod.ext_iff.mp hp; obtain ⟨rfl, _⟩ := Prod.ext_iff.mp hq) | (obtain ⟨_, hq⟩ := Prod.ext_iff.mp hp; obtain ⟨rfl, _⟩ := Prod.ext_iff.mp hq) | (obtain ⟨rfl, _⟩ := Prod.ext_iff.mp hp) | (obtain ⟨_, rfl⟩ := Prod.ext_iff.mp hp)))) <;> first | rfl | (simp [ih]; done) | (simp_all; done)

@[simp] theorem hostPages_attic (fuel : Nat) (s : State) (pasid part : Nat) (write : Bool) (who : Asker) (a n : Nat) :
    (hostPages fuel s pasid part write who a n).1.attic = s.attic := by
  induction fuel generalizing s pasid part write who a n with
  | zero => simp [hostPages]
  | succ fuel ih =>
    unfold hostPages
    (try dsimp only)
    (repeat' (split <;> try (rename_i hp; first | (obtain ⟨rfl, rfl⟩ := Prod.ext_iff.mp hp) | (obtain ⟨rfl, hq⟩ := Prod.ext_iff.mp hp; obtain ⟨rfl, rfl⟩ := Prod.ext_iff.mp hq) | (obtain ⟨rfl, hq⟩ := Prod.ext_iff.mp hp; obtain ⟨rfl, _⟩ := Prod.ext_iff.mp hq) | (obtain ⟨_, hq⟩ := Prod.ext_iff.mp hp; obtain ⟨rfl, _⟩ := Prod.ext_iff.mp hq) | (obtain ⟨rfl, _⟩ := Prod.ext_iff.mp hp) | (obtain ⟨_, rfl⟩ := Prod.ext_iff.mp hp)))) <;> first | rfl | (simp [ih]; done) | (simp_all; done)

@[simp] theorem hostPages_link (fuel : Nat) (s : State) (pasid part : Nat) (write : Bool) (who : Asker) (a n : Nat) :
    (hostPages fuel s pasid part write who a n).1.link = s.link := by
  induction fuel generalizing s pasid part write who a n with
  | zero => simp [hostPages]
  | succ fuel ih =>
    unfold hostPages
    (try dsimp only)
    (repeat' (split <;> try (rename_i hp; first | (obtain ⟨rfl, rfl⟩ := Prod.ext_iff.mp hp) | (obtain ⟨rfl, hq⟩ := Prod.ext_iff.mp hp; obtain ⟨rfl, rfl⟩ := Prod.ext_iff.mp hq) | (obtain ⟨rfl, hq⟩ := Prod.ext_iff.mp hp; obtain ⟨rfl, _⟩ := Prod.ext_iff.mp hq) | (obtain ⟨_, hq⟩ := Prod.ext_iff.mp hp; obtain ⟨rfl, _⟩ := Prod.ext_iff.mp hq) | (obtain ⟨rfl, _⟩ := Prod.ext_iff.mp hp) | (obtain ⟨_, rfl⟩ := Prod.ext_iff.mp hp)))) <;> first | rfl | (simp [ih]; done) | (simp_all; done)

@[simp] theorem hostPages_chord (fuel : Nat) (s : State) (pasid part : Nat) (write : Bool) (who : Asker) (a n : Nat) :
    (hostPages fuel s pasid part write who a n).1.chord = s.chord := by
  induction fuel generalizing s pasid part write who a n with
  | zero => simp [hostPages]
  | succ fuel ih =>
    unfold hostPages
    (try dsimp only)
    (repeat' (split <;> try (rename_i hp; first | (obtain ⟨rfl, rfl⟩ := Prod.ext_iff.mp hp) | (obtain ⟨rfl, hq⟩ := Prod.ext_iff.mp hp; obtain ⟨rfl, rfl⟩ := Prod.ext_iff.mp hq) | (obtain ⟨rfl, hq⟩ := Prod.ext_iff.mp hp; obtain ⟨rfl, _⟩ := Prod.ext_iff.mp hq) | (obtain ⟨_, hq⟩ := Prod.ext_iff.mp hp; obtain ⟨rfl, _⟩ := Prod.ext_iff.mp hq) | (obtain ⟨rfl, _⟩ := Prod.ext_iff.mp hp) | (obtain ⟨_, rfl⟩ := Prod.ext_iff.mp hp)))) <;> first | rfl | (simp [ih]; done) | (simp_all; done)

@[simp] theorem hostPages_fresh (fuel : Nat) (s : State) (pasid part : Nat) (write : Bool) (who : Asker) (a n : Nat) :
    (hostPages fuel s pasid part write who a n).1.fresh = s.fresh := by
  induction fuel generalizing s pasid part write who a n with
  | zero => simp [hostPages]
  | succ fuel ih =>
    unfold hostPages
    (try dsimp only)
    (repeat' (split <;> try (rename_i hp; first | (obtain ⟨rfl, rfl⟩ := Prod.ext_iff.mp hp) | (obtain ⟨rfl, hq⟩ := Prod.ext_iff.mp hp; obtain ⟨rfl, rfl⟩ := Prod.ext_iff.mp hq) | (obtain ⟨rfl, hq⟩ := Prod.ext_iff.mp hp; obtain ⟨rfl, _⟩ := Prod.ext_iff.mp hq) | (obtain ⟨_, hq⟩ := Prod.ext_iff.mp hp; obtain ⟨rfl, _⟩ := Prod.ext_iff.mp hq) | (obtain ⟨rfl, _⟩ := Prod.ext_iff.mp hp) | (obtain ⟨_, rfl⟩ := Prod.ext_iff.mp hp)))) <;> first | rfl | (simp [ih]; done) | (simp_all; done)

@[simp] theorem hostPages_pending (fuel : Nat) (s : State) (pasid part : Nat) (write : Bool) (who : Asker) (a n : Nat) :
    (hostPages fuel s pasid part write who a n).1.pending = s.pending := by
  induction fuel generalizing s pasid part write who a n with
  | zero => simp [hostPages]
  | succ fuel ih =>
    unfold hostPages
    (try dsimp only)
    (repeat' (split <;> try (rename_i hp; first | (obtain ⟨rfl, rfl⟩ := Prod.ext_iff.mp hp) | (obtain ⟨rfl, hq⟩ := Prod.ext_iff.mp hp; obtain ⟨rfl, rfl⟩ := Prod.ext_iff.mp hq) | (obtain ⟨rfl, hq⟩ := Prod.ext_iff.mp hp; obtain ⟨rfl, _⟩ := Prod.ext_iff.mp hq) | (obtain ⟨_, hq⟩ := Prod.ext_iff.mp hp; obtain ⟨rfl, _⟩ := Prod.ext_iff.mp hq) | (obtain ⟨rfl, _⟩ := Prod.ext_iff.mp hp) | (obtain ⟨_, rfl⟩ := Prod.ext_iff.mp hp)))) <;> first | rfl | (simp [ih]; done) | (simp_all; done)

@[simp] theorem hostRange_frame (s : State) (c : Nat) (j : MoverJob) (pasid : Nat) (write : Bool) (a n : Nat) :
    (hostRange s c j pasid write a n).1.time = s.time ∧ (hostRange s c j pasid write a n).1.part = s.part ∧
    (hostRange s c j pasid write a n).1.pwr = s.pwr ∧ (hostRange s c j pasid write a n).1.boot = s.boot ∧
    (hostRange s c j pasid write a n).1.cells = s.cells ∧ (hostRange s c j pasid write a n).1.mem = s.mem ∧
    (hostRange s c j pasid write a n).1.larder = s.larder ∧ (hostRange s c j pasid write a n).1.reg = s.reg ∧
    (hostRange s c j pasid write a n).1.attic = s.attic ∧ (hostRange s c j pasid write a n).1.link = s.link ∧
    (hostRange s c j pasid write a n).1.chord = s.chord ∧ (hostRange s c j pasid write a n).1.fresh = s.fresh ∧
    (hostRange s c j pasid write a n).1.pending = s.pending := by
  unfold hostRange
  (try dsimp only)
  (repeat' (split <;> try (rename_i hp; first | (obtain ⟨rfl, rfl⟩ := Prod.ext_iff.mp hp) | (obtain ⟨rfl, hq⟩ := Prod.ext_iff.mp hp; obtain ⟨rfl, rfl⟩ := Prod.ext_iff.mp hq) | (obtain ⟨rfl, hq⟩ := Prod.ext_iff.mp hp; obtain ⟨rfl, _⟩ := Prod.ext_iff.mp hq) | (obtain ⟨_, hq⟩ := Prod.ext_iff.mp hp; obtain ⟨rfl, _⟩ := Prod.ext_iff.mp hq) | (obtain ⟨rfl, _⟩ := Prod.ext_iff.mp hp) | (obtain ⟨_, rfl⟩ := Prod.ext_iff.mp hp)))) <;> (try simp) <;> (repeat' apply And.intro) <;> (first | apply forEach_time | apply foldl_time | apply forEachFst_time | apply foldlFst_time | apply forEach_part | apply foldl_part | apply forEachFst_part | apply foldlFst_part | apply forEach_pwr | apply foldl_pwr | apply forEachFst_pwr | apply foldlFst_pwr | apply forEach_boot | apply foldl_boot | apply forEachFst_boot | apply foldlFst_boot | apply forEach_cells | apply foldl_cells | apply forEachFst_cells | apply foldlFst_cells | apply forEach_mem | apply foldl_mem | apply forEachFst_mem | apply foldlFst_mem | apply forEach_larder | apply foldl_larder | apply forEachFst_larder | apply foldlFst_larder | apply forEach_reg | apply foldl_reg | apply forEachFst_reg | apply foldlFst_reg | apply forEach_attic | apply foldl_attic | apply forEachFst_attic | apply foldlFst_attic | apply forEach_link | apply foldl_link | apply forEachFst_link | apply foldlFst_link | apply forEach_chord | apply foldl_chord | apply forEachFst_chord | apply foldlFst_chord | apply forEach_fresh | apply foldl_fresh | apply forEachFst_fresh | apply foldlFst_fresh | apply forEach_pending | apply foldl_pending | apply forEachFst_pending | apply foldlFst_pending) <;> intro _ _ <;> (try dsimp only) <;> (repeat' (split <;> try (rename_i hp; first | (obtain ⟨rfl, rfl⟩ := Prod.ext_iff.mp hp) | (obtain ⟨rfl, hq⟩ := Prod.ext_iff.mp hp; obtain ⟨rfl, rfl⟩ := Prod.ext_iff.mp hq) | (obtain ⟨rfl, hq⟩ := Prod.ext_iff.mp hp; obtain ⟨rfl, _⟩ := Prod.ext_iff.mp hq) | (obtain ⟨_, hq⟩ := Prod.ext_iff.mp hp; obtain ⟨rfl, _⟩ := Prod.ext_iff.mp hq) | (obtain ⟨rfl, _⟩ := Prod.ext_iff.mp hp) | (obtain ⟨_, rfl⟩ := Prod.ext_iff.mp hp)))) <;> first | rfl | (simp; done) | (simp_all; done)

@[simp] theorem hostPut_frame (s : State) (c : Nat) (j : MoverJob) (pasid : Nat) (l : List (Nat × Nat × Nat)) (b : Bytes) (pz : Nat → Bool) :
    (hostPut s c j pasid l b pz).time = s.time ∧ (hostPut s c j pasid l b pz).cp = s.cp ∧
    (hostPut s c j pasid l b pz).part = s.part ∧ (hostPut s c j pasid l b pz).err = s.err ∧
    (hostPut s c j pasid l b pz).pwr = s.pwr ∧ (hostPut s c j pasid l b pz).mgmt = s.mgmt ∧
    (hostPut s c j pasid l b pz).boot = s.boot ∧ (hostPut s c j pasid l b pz).cells = s.cells ∧
    (hostPut s c j pasid l b pz).mem = s.mem ∧ (hostPut s c j pasid l b pz).reg = s.reg ∧
    (hostPut s c j pasid l b pz).attic = s.attic ∧ (hostPut s c j pasid l b pz).link = s.link ∧
    (hostPut s c j pasid l b pz).chord = s.chord ∧ (hostPut s c j pasid l b pz).fresh = s.fresh ∧
    (hostPut s c j pasid l b pz).pending = s.pending := by
  unfold hostPut
  simp

@[simp] theorem stallJob_frame (s : State) (c id : Nat) :
    (stallJob s c id).time = s.time ∧ (stallJob s c id).cp = s.cp ∧ (stallJob s c id).part = s.part ∧
    (stallJob s c id).err = s.err ∧ (stallJob s c id).pwr = s.pwr ∧ (stallJob s c id).mgmt = s.mgmt ∧
    (stallJob s c id).boot = s.boot ∧ (stallJob s c id).cells = s.cells ∧ (stallJob s c id).mem = s.mem ∧
    (stallJob s c id).reg = s.reg ∧ (stallJob s c id).trans = s.trans ∧ (stallJob s c id).attic = s.attic ∧
    (stallJob s c id).link = s.link ∧ (stallJob s c id).chord = s.chord ∧ (stallJob s c id).fresh = s.fresh ∧
    (stallJob s c id).out = s.out ∧ (stallJob s c id).pending = s.pending := by
  unfold stallJob
  simp

@[simp] theorem putBytes_frame (s : State) (c : Nat) (j : MoverJob) (pasid : Nat) (dst : MoveAddr) (off : Nat) (b : Bytes) (pz : Nat → Bool) :
    (putBytes s c j pasid dst off b pz).1.time = s.time ∧ (putBytes s c j pasid dst off b pz).1.part = s.part ∧
    (putBytes s c j pasid dst off b pz).1.pwr = s.pwr ∧ (putBytes s c j pasid dst off b pz).1.boot = s.boot ∧
    (putBytes s c j pasid dst off b pz).1.reg = s.reg ∧ (putBytes s c j pasid dst off b pz).1.link = s.link ∧
    (putBytes s c j pasid dst off b pz).1.fresh = s.fresh ∧
    (putBytes s c j pasid dst off b pz).1.pending = s.pending := by
  unfold putBytes
  (try dsimp only)
  (repeat' (split <;> try (rename_i hp; first | (obtain ⟨rfl, rfl⟩ := Prod.ext_iff.mp hp) | (obtain ⟨rfl, hq⟩ := Prod.ext_iff.mp hp; obtain ⟨rfl, rfl⟩ := Prod.ext_iff.mp hq) | (obtain ⟨rfl, hq⟩ := Prod.ext_iff.mp hp; obtain ⟨rfl, _⟩ := Prod.ext_iff.mp hq) | (obtain ⟨_, hq⟩ := Prod.ext_iff.mp hp; obtain ⟨rfl, _⟩ := Prod.ext_iff.mp hq) | (obtain ⟨rfl, _⟩ := Prod.ext_iff.mp hp) | (obtain ⟨_, rfl⟩ := Prod.ext_iff.mp hp)))) <;> (try simp) <;> (repeat' apply And.intro) <;> (first | apply forEach_time | apply foldl_time | apply forEachFst_time | apply foldlFst_time | apply forEach_part | apply foldl_part | apply forEachFst_part | apply foldlFst_part | apply forEach_pwr | apply foldl_pwr | apply forEachFst_pwr | apply foldlFst_pwr | apply forEach_boot | apply foldl_boot | apply forEachFst_boot | apply foldlFst_boot | apply forEach_reg | apply foldl_reg | apply forEachFst_reg | apply foldlFst_reg | apply forEach_link | apply foldl_link | apply forEachFst_link | apply foldlFst_link | apply forEach_fresh | apply foldl_fresh | apply forEachFst_fresh | apply foldlFst_fresh | apply forEach_pending | apply foldl_pending | apply forEachFst_pending | apply foldlFst_pending) <;> intro _ _ <;> (try dsimp only) <;> (repeat' (split <;> try (rename_i hp; first | (obtain ⟨rfl, rfl⟩ := Prod.ext_iff.mp hp) | (obtain ⟨rfl, hq⟩ := Prod.ext_iff.mp hp; obtain ⟨rfl, rfl⟩ := Prod.ext_iff.mp hq) | (obtain ⟨rfl, hq⟩ := Prod.ext_iff.mp hp; obtain ⟨rfl, _⟩ := Prod.ext_iff.mp hq) | (obtain ⟨_, hq⟩ := Prod.ext_iff.mp hp; obtain ⟨rfl, _⟩ := Prod.ext_iff.mp hq) | (obtain ⟨rfl, _⟩ := Prod.ext_iff.mp hp) | (obtain ⟨_, rfl⟩ := Prod.ext_iff.mp hp)))) <;> first | rfl | (simp; done) | (simp_all; done)

@[simp] theorem copyFrom_time (fuel : Nat) (s : State) (c : Nat) (j : MoverJob) (pasid : Nat) (src dst : MoveAddr) (len off : Nat) (pz : Bool) (host : Fetch) :
    (copyFrom fuel s c j pasid src dst len off pz host).time = s.time := by
  induction fuel generalizing s c j pasid src dst len off pz host with
  | zero => simp [copyFrom]
  | succ fuel ih =>
    unfold copyFrom
    (try dsimp only)
    (repeat' (split <;> try (rename_i hp; first | (obtain ⟨rfl, rfl⟩ := Prod.ext_iff.mp hp) | (obtain ⟨rfl, hq⟩ := Prod.ext_iff.mp hp; obtain ⟨rfl, rfl⟩ := Prod.ext_iff.mp hq) | (obtain ⟨rfl, hq⟩ := Prod.ext_iff.mp hp; obtain ⟨rfl, _⟩ := Prod.ext_iff.mp hq) | (obtain ⟨_, hq⟩ := Prod.ext_iff.mp hp; obtain ⟨rfl, _⟩ := Prod.ext_iff.mp hq) | (obtain ⟨rfl, _⟩ := Prod.ext_iff.mp hp) | (obtain ⟨_, rfl⟩ := Prod.ext_iff.mp hp)))) <;> first | rfl | (simp [ih]; done) | (simp_all; done)

@[simp] theorem copyFrom_part (fuel : Nat) (s : State) (c : Nat) (j : MoverJob) (pasid : Nat) (src dst : MoveAddr) (len off : Nat) (pz : Bool) (host : Fetch) :
    (copyFrom fuel s c j pasid src dst len off pz host).part = s.part := by
  induction fuel generalizing s c j pasid src dst len off pz host with
  | zero => simp [copyFrom]
  | succ fuel ih =>
    unfold copyFrom
    (try dsimp only)
    (repeat' (split <;> try (rename_i hp; first | (obtain ⟨rfl, rfl⟩ := Prod.ext_iff.mp hp) | (obtain ⟨rfl, hq⟩ := Prod.ext_iff.mp hp; obtain ⟨rfl, rfl⟩ := Prod.ext_iff.mp hq) | (obtain ⟨rfl, hq⟩ := Prod.ext_iff.mp hp; obtain ⟨rfl, _⟩ := Prod.ext_iff.mp hq) | (obtain ⟨_, hq⟩ := Prod.ext_iff.mp hp; obtain ⟨rfl, _⟩ := Prod.ext_iff.mp hq) | (obtain ⟨rfl, _⟩ := Prod.ext_iff.mp hp) | (obtain ⟨_, rfl⟩ := Prod.ext_iff.mp hp)))) <;> first | rfl | (simp [ih]; done) | (simp_all; done)

@[simp] theorem copyFrom_pwr (fuel : Nat) (s : State) (c : Nat) (j : MoverJob) (pasid : Nat) (src dst : MoveAddr) (len off : Nat) (pz : Bool) (host : Fetch) :
    (copyFrom fuel s c j pasid src dst len off pz host).pwr = s.pwr := by
  induction fuel generalizing s c j pasid src dst len off pz host with
  | zero => simp [copyFrom]
  | succ fuel ih =>
    unfold copyFrom
    (try dsimp only)
    (repeat' (split <;> try (rename_i hp; first | (obtain ⟨rfl, rfl⟩ := Prod.ext_iff.mp hp) | (obtain ⟨rfl, hq⟩ := Prod.ext_iff.mp hp; obtain ⟨rfl, rfl⟩ := Prod.ext_iff.mp hq) | (obtain ⟨rfl, hq⟩ := Prod.ext_iff.mp hp; obtain ⟨rfl, _⟩ := Prod.ext_iff.mp hq) | (obtain ⟨_, hq⟩ := Prod.ext_iff.mp hp; obtain ⟨rfl, _⟩ := Prod.ext_iff.mp hq) | (obtain ⟨rfl, _⟩ := Prod.ext_iff.mp hp) | (obtain ⟨_, rfl⟩ := Prod.ext_iff.mp hp)))) <;> first | rfl | (simp [ih]; done) | (simp_all; done)

@[simp] theorem copyFrom_reg (fuel : Nat) (s : State) (c : Nat) (j : MoverJob) (pasid : Nat) (src dst : MoveAddr) (len off : Nat) (pz : Bool) (host : Fetch) :
    (copyFrom fuel s c j pasid src dst len off pz host).reg = s.reg := by
  induction fuel generalizing s c j pasid src dst len off pz host with
  | zero => simp [copyFrom]
  | succ fuel ih =>
    unfold copyFrom
    (try dsimp only)
    (repeat' (split <;> try (rename_i hp; first | (obtain ⟨rfl, rfl⟩ := Prod.ext_iff.mp hp) | (obtain ⟨rfl, hq⟩ := Prod.ext_iff.mp hp; obtain ⟨rfl, rfl⟩ := Prod.ext_iff.mp hq) | (obtain ⟨rfl, hq⟩ := Prod.ext_iff.mp hp; obtain ⟨rfl, _⟩ := Prod.ext_iff.mp hq) | (obtain ⟨_, hq⟩ := Prod.ext_iff.mp hp; obtain ⟨rfl, _⟩ := Prod.ext_iff.mp hq) | (obtain ⟨rfl, _⟩ := Prod.ext_iff.mp hp) | (obtain ⟨_, rfl⟩ := Prod.ext_iff.mp hp)))) <;> first | rfl | (simp [ih]; done) | (simp_all; done)

@[simp] theorem copyFrom_link (fuel : Nat) (s : State) (c : Nat) (j : MoverJob) (pasid : Nat) (src dst : MoveAddr) (len off : Nat) (pz : Bool) (host : Fetch) :
    (copyFrom fuel s c j pasid src dst len off pz host).link = s.link := by
  induction fuel generalizing s c j pasid src dst len off pz host with
  | zero => simp [copyFrom]
  | succ fuel ih =>
    unfold copyFrom
    (try dsimp only)
    (repeat' (split <;> try (rename_i hp; first | (obtain ⟨rfl, rfl⟩ := Prod.ext_iff.mp hp) | (obtain ⟨rfl, hq⟩ := Prod.ext_iff.mp hp; obtain ⟨rfl, rfl⟩ := Prod.ext_iff.mp hq) | (obtain ⟨rfl, hq⟩ := Prod.ext_iff.mp hp; obtain ⟨rfl, _⟩ := Prod.ext_iff.mp hq) | (obtain ⟨_, hq⟩ := Prod.ext_iff.mp hp; obtain ⟨rfl, _⟩ := Prod.ext_iff.mp hq) | (obtain ⟨rfl, _⟩ := Prod.ext_iff.mp hp) | (obtain ⟨_, rfl⟩ := Prod.ext_iff.mp hp)))) <;> first | rfl | (simp [ih]; done) | (simp_all; done)

@[simp] theorem copyFrom_fresh (fuel : Nat) (s : State) (c : Nat) (j : MoverJob) (pasid : Nat) (src dst : MoveAddr) (len off : Nat) (pz : Bool) (host : Fetch) :
    (copyFrom fuel s c j pasid src dst len off pz host).fresh = s.fresh := by
  induction fuel generalizing s c j pasid src dst len off pz host with
  | zero => simp [copyFrom]
  | succ fuel ih =>
    unfold copyFrom
    (try dsimp only)
    (repeat' (split <;> try (rename_i hp; first | (obtain ⟨rfl, rfl⟩ := Prod.ext_iff.mp hp) | (obtain ⟨rfl, hq⟩ := Prod.ext_iff.mp hp; obtain ⟨rfl, rfl⟩ := Prod.ext_iff.mp hq) | (obtain ⟨rfl, hq⟩ := Prod.ext_iff.mp hp; obtain ⟨rfl, _⟩ := Prod.ext_iff.mp hq) | (obtain ⟨_, hq⟩ := Prod.ext_iff.mp hp; obtain ⟨rfl, _⟩ := Prod.ext_iff.mp hq) | (obtain ⟨rfl, _⟩ := Prod.ext_iff.mp hp) | (obtain ⟨_, rfl⟩ := Prod.ext_iff.mp hp)))) <;> first | rfl | (simp [ih]; done) | (simp_all; done)

@[simp] theorem copyFrom_pending (fuel : Nat) (s : State) (c : Nat) (j : MoverJob) (pasid : Nat) (src dst : MoveAddr) (len off : Nat) (pz : Bool) (host : Fetch) :
    (copyFrom fuel s c j pasid src dst len off pz host).pending = s.pending := by
  induction fuel generalizing s c j pasid src dst len off pz host with
  | zero => simp [copyFrom]
  | succ fuel ih =>
    unfold copyFrom
    (try dsimp only)
    (repeat' (split <;> try (rename_i hp; first | (obtain ⟨rfl, rfl⟩ := Prod.ext_iff.mp hp) | (obtain ⟨rfl, hq⟩ := Prod.ext_iff.mp hp; obtain ⟨rfl, rfl⟩ := Prod.ext_iff.mp hq) | (obtain ⟨rfl, hq⟩ := Prod.ext_iff.mp hp; obtain ⟨rfl, _⟩ := Prod.ext_iff.mp hq) | (obtain ⟨_, hq⟩ := Prod.ext_iff.mp hp; obtain ⟨rfl, _⟩ := Prod.ext_iff.mp hq) | (obtain ⟨rfl, _⟩ := Prod.ext_iff.mp hp) | (obtain ⟨_, rfl⟩ := Prod.ext_iff.mp hp)))) <;> first | rfl | (simp [ih]; done) | (simp_all; done)

@[simp] theorem fillFrom_time (fuel : Nat) (s : State) (c : Nat) (j : MoverJob) (pasid p : Nat) (dst : MoveAddr) (len off : Nat) :
    (fillFrom fuel s c j pasid p dst len off).time = s.time := by
  induction fuel generalizing s c j pasid p dst len off with
  | zero => simp [fillFrom]
  | succ fuel ih =>
    unfold fillFrom
    (try dsimp only)
    (repeat' (split <;> try (rename_i hp; first | (obtain ⟨rfl, rfl⟩ := Prod.ext_iff.mp hp) | (obtain ⟨rfl, hq⟩ := Prod.ext_iff.mp hp; obtain ⟨rfl, rfl⟩ := Prod.ext_iff.mp hq) | (obtain ⟨rfl, hq⟩ := Prod.ext_iff.mp hp; obtain ⟨rfl, _⟩ := Prod.ext_iff.mp hq) | (obtain ⟨_, hq⟩ := Prod.ext_iff.mp hp; obtain ⟨rfl, _⟩ := Prod.ext_iff.mp hq) | (obtain ⟨rfl, _⟩ := Prod.ext_iff.mp hp) | (obtain ⟨_, rfl⟩ := Prod.ext_iff.mp hp)))) <;> first | rfl | (simp [ih]; done) | (simp_all; done)

@[simp] theorem fillFrom_part (fuel : Nat) (s : State) (c : Nat) (j : MoverJob) (pasid p : Nat) (dst : MoveAddr) (len off : Nat) :
    (fillFrom fuel s c j pasid p dst len off).part = s.part := by
  induction fuel generalizing s c j pasid p dst len off with
  | zero => simp [fillFrom]
  | succ fuel ih =>
    unfold fillFrom
    (try dsimp only)
    (repeat' (split <;> try (rename_i hp; first | (obtain ⟨rfl, rfl⟩ := Prod.ext_iff.mp hp) | (obtain ⟨rfl, hq⟩ := Prod.ext_iff.mp hp; obtain ⟨rfl, rfl⟩ := Prod.ext_iff.mp hq) | (obtain ⟨rfl, hq⟩ := Prod.ext_iff.mp hp; obtain ⟨rfl, _⟩ := Prod.ext_iff.mp hq) | (obtain ⟨_, hq⟩ := Prod.ext_iff.mp hp; obtain ⟨rfl, _⟩ := Prod.ext_iff.mp hq) | (obtain ⟨rfl, _⟩ := Prod.ext_iff.mp hp) | (obtain ⟨_, rfl⟩ := Prod.ext_iff.mp hp)))) <;> first | rfl | (simp [ih]; done) | (simp_all; done)

@[simp] theorem fillFrom_pwr (fuel : Nat) (s : State) (c : Nat) (j : MoverJob) (pasid p : Nat) (dst : MoveAddr) (len off : Nat) :
    (fillFrom fuel s c j pasid p dst len off).pwr = s.pwr := by
  induction fuel generalizing s c j pasid p dst len off with
  | zero => simp [fillFrom]
  | succ fuel ih =>
    unfold fillFrom
    (try dsimp only)
    (repeat' (split <;> try (rename_i hp; first | (obtain ⟨rfl, rfl⟩ := Prod.ext_iff.mp hp) | (obtain ⟨rfl, hq⟩ := Prod.ext_iff.mp hp; obtain ⟨rfl, rfl⟩ := Prod.ext_iff.mp hq) | (obtain ⟨rfl, hq⟩ := Prod.ext_iff.mp hp; obtain ⟨rfl, _⟩ := Prod.ext_iff.mp hq) | (obtain ⟨_, hq⟩ := Prod.ext_iff.mp hp; obtain ⟨rfl, _⟩ := Prod.ext_iff.mp hq) | (obtain ⟨rfl, _⟩ := Prod.ext_iff.mp hp) | (obtain ⟨_, rfl⟩ := Prod.ext_iff.mp hp)))) <;> first | rfl | (simp [ih]; done) | (simp_all; done)

@[simp] theorem fillFrom_boot (fuel : Nat) (s : State) (c : Nat) (j : MoverJob) (pasid p : Nat) (dst : MoveAddr) (len off : Nat) :
    (fillFrom fuel s c j pasid p dst len off).boot = s.boot := by
  induction fuel generalizing s c j pasid p dst len off with
  | zero => simp [fillFrom]
  | succ fuel ih =>
    unfold fillFrom
    (try dsimp only)
    (repeat' (split <;> try (rename_i hp; first | (obtain ⟨rfl, rfl⟩ := Prod.ext_iff.mp hp) | (obtain ⟨rfl, hq⟩ := Prod.ext_iff.mp hp; obtain ⟨rfl, rfl⟩ := Prod.ext_iff.mp hq) | (obtain ⟨rfl, hq⟩ := Prod.ext_iff.mp hp; obtain ⟨rfl, _⟩ := Prod.ext_iff.mp hq) | (obtain ⟨_, hq⟩ := Prod.ext_iff.mp hp; obtain ⟨rfl, _⟩ := Prod.ext_iff.mp hq) | (obtain ⟨rfl, _⟩ := Prod.ext_iff.mp hp) | (obtain ⟨_, rfl⟩ := Prod.ext_iff.mp hp)))) <;> first | rfl | (simp [ih]; done) | (simp_all; done)

@[simp] theorem fillFrom_reg (fuel : Nat) (s : State) (c : Nat) (j : MoverJob) (pasid p : Nat) (dst : MoveAddr) (len off : Nat) :
    (fillFrom fuel s c j pasid p dst len off).reg = s.reg := by
  induction fuel generalizing s c j pasid p dst len off with
  | zero => simp [fillFrom]
  | succ fuel ih =>
    unfold fillFrom
    (try dsimp only)
    (repeat' (split <;> try (rename_i hp; first | (obtain ⟨rfl, rfl⟩ := Prod.ext_iff.mp hp) | (obtain ⟨rfl, hq⟩ := Prod.ext_iff.mp hp; obtain ⟨rfl, rfl⟩ := Prod.ext_iff.mp hq) | (obtain ⟨rfl, hq⟩ := Prod.ext_iff.mp hp; obtain ⟨rfl, _⟩ := Prod.ext_iff.mp hq) | (obtain ⟨_, hq⟩ := Prod.ext_iff.mp hp; obtain ⟨rfl, _⟩ := Prod.ext_iff.mp hq) | (obtain ⟨rfl, _⟩ := Prod.ext_iff.mp hp) | (obtain ⟨_, rfl⟩ := Prod.ext_iff.mp hp)))) <;> first | rfl | (simp [ih]; done) | (simp_all; done)

@[simp] theorem fillFrom_link (fuel : Nat) (s : State) (c : Nat) (j : MoverJob) (pasid p : Nat) (dst : MoveAddr) (len off : Nat) :
    (fillFrom fuel s c j pasid p dst len off).link = s.link := by
  induction fuel generalizing s c j pasid p dst len off with
  | zero => simp [fillFrom]
  | succ fuel ih =>
    unfold fillFrom
    (try dsimp only)
    (repeat' (split <;> try (rename_i hp; first | (obtain ⟨rfl, rfl⟩ := Prod.ext_iff.mp hp) | (obtain ⟨rfl, hq⟩ := Prod.ext_iff.mp hp; obtain ⟨rfl, rfl⟩ := Prod.ext_iff.mp hq) | (obtain ⟨rfl, hq⟩ := Prod.ext_iff.mp hp; obtain ⟨rfl, _⟩ := Prod.ext_iff.mp hq) | (obtain ⟨_, hq⟩ := Prod.ext_iff.mp hp; obtain ⟨rfl, _⟩ := Prod.ext_iff.mp hq) | (obtain ⟨rfl, _⟩ := Prod.ext_iff.mp hp) | (obtain ⟨_, rfl⟩ := Prod.ext_iff.mp hp)))) <;> first | rfl | (simp [ih]; done) | (simp_all; done)

@[simp] theorem fillFrom_fresh (fuel : Nat) (s : State) (c : Nat) (j : MoverJob) (pasid p : Nat) (dst : MoveAddr) (len off : Nat) :
    (fillFrom fuel s c j pasid p dst len off).fresh = s.fresh := by
  induction fuel generalizing s c j pasid p dst len off with
  | zero => simp [fillFrom]
  | succ fuel ih =>
    unfold fillFrom
    (try dsimp only)
    (repeat' (split <;> try (rename_i hp; first | (obtain ⟨rfl, rfl⟩ := Prod.ext_iff.mp hp) | (obtain ⟨rfl, hq⟩ := Prod.ext_iff.mp hp; obtain ⟨rfl, rfl⟩ := Prod.ext_iff.mp hq) | (obtain ⟨rfl, hq⟩ := Prod.ext_iff.mp hp; obtain ⟨rfl, _⟩ := Prod.ext_iff.mp hq) | (obtain ⟨_, hq⟩ := Prod.ext_iff.mp hp; obtain ⟨rfl, _⟩ := Prod.ext_iff.mp hq) | (obtain ⟨rfl, _⟩ := Prod.ext_iff.mp hp) | (obtain ⟨_, rfl⟩ := Prod.ext_iff.mp hp)))) <;> first | rfl | (simp [ih]; done) | (simp_all; done)

@[simp] theorem fillFrom_pending (fuel : Nat) (s : State) (c : Nat) (j : MoverJob) (pasid p : Nat) (dst : MoveAddr) (len off : Nat) :
    (fillFrom fuel s c j pasid p dst len off).pending = s.pending := by
  induction fuel generalizing s c j pasid p dst len off with
  | zero => simp [fillFrom]
  | succ fuel ih =>
    unfold fillFrom
    (try dsimp only)
    (repeat' (split <;> try (rename_i hp; first | (obtain ⟨rfl, rfl⟩ := Prod.ext_iff.mp hp) | (obtain ⟨rfl, hq⟩ := Prod.ext_iff.mp hp; obtain ⟨rfl, rfl⟩ := Prod.ext_iff.mp hq) | (obtain ⟨rfl, hq⟩ := Prod.ext_iff.mp hp; obtain ⟨rfl, _⟩ := Prod.ext_iff.mp hq) | (obtain ⟨_, hq⟩ := Prod.ext_iff.mp hp; obtain ⟨rfl, _⟩ := Prod.ext_iff.mp hq) | (obtain ⟨rfl, _⟩ := Prod.ext_iff.mp hp) | (obtain ⟨_, rfl⟩ := Prod.ext_iff.mp hp)))) <;> first | rfl | (simp [ih]; done) | (simp_all; done)

@[simp] theorem putSparseHost_frame (s : State) (c : Nat) (j : MoverJob) (pasid a : Nat) (l : List (Nat × Nat × Nat)) (writes : List (Nat × Bytes × Bool)) :
    (putSparseHost s c j pasid a l writes).time = s.time ∧ (putSparseHost s c j pasid a l writes).cp = s.cp ∧
    (putSparseHost s c j pasid a l writes).part = s.part ∧ (putSparseHost s c j pasid a l writes).err = s.err ∧
    (putSparseHost s c j pasid a l writes).pwr = s.pwr ∧ (putSparseHost s c j pasid a l writes).mgmt = s.mgmt ∧
    (putSparseHost s c j pasid a l writes).boot = s.boot ∧ (putSparseHost s c j pasid a l writes).cells = s.cells ∧
    (putSparseHost s c j pasid a l writes).mem = s.mem ∧ (putSparseHost s c j pasid a l writes).reg = s.reg ∧
    (putSparseHost s c j pasid a l writes).attic = s.attic ∧ (putSparseHost s c j pasid a l writes).link = s.link ∧
    (putSparseHost s c j pasid a l writes).chord = s.chord ∧ (putSparseHost s c j pasid a l writes).fresh = s.fresh ∧
    (putSparseHost s c j pasid a l writes).pending = s.pending := by
  unfold putSparseHost
  simp

@[simp] theorem endSparse_frame (s : State) (c : Nat) (j : MoverJob) (zmapAddr : Nat) (o : SparseOut) :
    (endSparse s c j zmapAddr o).time = s.time ∧ (endSparse s c j zmapAddr o).cp = s.cp ∧
    (endSparse s c j zmapAddr o).part = s.part ∧ (endSparse s c j zmapAddr o).err = s.err ∧
    (endSparse s c j zmapAddr o).pwr = s.pwr ∧ (endSparse s c j zmapAddr o).mgmt = s.mgmt ∧
    (endSparse s c j zmapAddr o).boot = s.boot ∧ (endSparse s c j zmapAddr o).reg = s.reg ∧
    (endSparse s c j zmapAddr o).trans = s.trans ∧ (endSparse s c j zmapAddr o).attic = s.attic ∧
    (endSparse s c j zmapAddr o).link = s.link ∧ (endSparse s c j zmapAddr o).chord = s.chord ∧
    (endSparse s c j zmapAddr o).fresh = s.fresh ∧ (endSparse s c j zmapAddr o).pending = s.pending := by
  unfold endSparse
  simp

@[simp] theorem putSparseAt_frame (s : State) (c : Nat) (j : MoverJob) (b : Bytes) (dst : MoveAddr) (zmapAddr n : Nat) (o : SparseOut) :
    (putSparseAt s c j b dst zmapAddr n o).time = s.time ∧ (putSparseAt s c j b dst zmapAddr n o).part = s.part ∧
    (putSparseAt s c j b dst zmapAddr n o).pwr = s.pwr ∧ (putSparseAt s c j b dst zmapAddr n o).boot = s.boot ∧
    (putSparseAt s c j b dst zmapAddr n o).reg = s.reg ∧ (putSparseAt s c j b dst zmapAddr n o).link = s.link ∧
    (putSparseAt s c j b dst zmapAddr n o).fresh = s.fresh ∧
    (putSparseAt s c j b dst zmapAddr n o).pending = s.pending := by
  unfold putSparseAt
  (try dsimp only)
  (repeat' (split <;> try (rename_i hp; first | (obtain ⟨rfl, rfl⟩ := Prod.ext_iff.mp hp) | (obtain ⟨rfl, hq⟩ := Prod.ext_iff.mp hp; obtain ⟨rfl, rfl⟩ := Prod.ext_iff.mp hq) | (obtain ⟨rfl, hq⟩ := Prod.ext_iff.mp hp; obtain ⟨rfl, _⟩ := Prod.ext_iff.mp hq) | (obtain ⟨_, hq⟩ := Prod.ext_iff.mp hp; obtain ⟨rfl, _⟩ := Prod.ext_iff.mp hq) | (obtain ⟨rfl, _⟩ := Prod.ext_iff.mp hp) | (obtain ⟨_, rfl⟩ := Prod.ext_iff.mp hp)))) <;> first | rfl | (simp; done) | (simp_all; done)

@[simp] theorem putSparse_frame (s : State) (c : Nat) (j : MoverJob) (b : Bytes) (dst : MoveAddr) (zmapAddr : Nat) (o : SparseOut) :
    (putSparse s c j b dst zmapAddr o).time = s.time ∧ (putSparse s c j b dst zmapAddr o).part = s.part ∧
    (putSparse s c j b dst zmapAddr o).pwr = s.pwr ∧ (putSparse s c j b dst zmapAddr o).boot = s.boot ∧
    (putSparse s c j b dst zmapAddr o).reg = s.reg ∧ (putSparse s c j b dst zmapAddr o).link = s.link ∧
    (putSparse s c j b dst zmapAddr o).fresh = s.fresh ∧
    (putSparse s c j b dst zmapAddr o).pending = s.pending := by
  unfold putSparse
  (try dsimp only)
  (repeat' (split <;> try (rename_i hp; first | (obtain ⟨rfl, rfl⟩ := Prod.ext_iff.mp hp) | (obtain ⟨rfl, hq⟩ := Prod.ext_iff.mp hp; obtain ⟨rfl, rfl⟩ := Prod.ext_iff.mp hq) | (obtain ⟨rfl, hq⟩ := Prod.ext_iff.mp hp; obtain ⟨rfl, _⟩ := Prod.ext_iff.mp hq) | (obtain ⟨_, hq⟩ := Prod.ext_iff.mp hp; obtain ⟨rfl, _⟩ := Prod.ext_iff.mp hq) | (obtain ⟨rfl, _⟩ := Prod.ext_iff.mp hp) | (obtain ⟨_, rfl⟩ := Prod.ext_iff.mp hp)))) <;> first | rfl | (simp; done) | (simp_all; done)

@[simp] theorem sparseIn_frame (s : State) (c : Nat) (j : MoverJob) (b : Bytes) (src : MoveAddr) (n : Nat) (host : Fetch) :
    (sparseIn s c j b src n host).1.time = s.time ∧ (sparseIn s c j b src n host).1.part = s.part ∧
    (sparseIn s c j b src n host).1.pwr = s.pwr ∧ (sparseIn s c j b src n host).1.reg = s.reg ∧
    (sparseIn s c j b src n host).1.link = s.link ∧ (sparseIn s c j b src n host).1.fresh = s.fresh ∧
    (sparseIn s c j b src n host).1.pending = s.pending := by
  unfold sparseIn
  (try dsimp only)
  (repeat' (split <;> try (rename_i hp; first | (obtain ⟨rfl, rfl⟩ := Prod.ext_iff.mp hp) | (obtain ⟨rfl, hq⟩ := Prod.ext_iff.mp hp; obtain ⟨rfl, rfl⟩ := Prod.ext_iff.mp hq) | (obtain ⟨rfl, hq⟩ := Prod.ext_iff.mp hp; obtain ⟨rfl, _⟩ := Prod.ext_iff.mp hq) | (obtain ⟨_, hq⟩ := Prod.ext_iff.mp hp; obtain ⟨rfl, _⟩ := Prod.ext_iff.mp hq) | (obtain ⟨rfl, _⟩ := Prod.ext_iff.mp hp) | (obtain ⟨_, rfl⟩ := Prod.ext_iff.mp hp)))) <;> (try simp) <;> (repeat' apply And.intro) <;> (first | apply forEach_time | apply foldl_time | apply forEachFst_time | apply foldlFst_time | apply forEach_part | apply foldl_part | apply forEachFst_part | apply foldlFst_part | apply forEach_pwr | apply foldl_pwr | apply forEachFst_pwr | apply foldlFst_pwr | apply forEach_reg | apply foldl_reg | apply forEachFst_reg | apply foldlFst_reg | apply forEach_link | apply foldl_link | apply forEachFst_link | apply foldlFst_link | apply forEach_fresh | apply foldl_fresh | apply forEachFst_fresh | apply foldlFst_fresh | apply forEach_pending | apply foldl_pending | apply forEachFst_pending | apply foldlFst_pending) <;> intro _ _ <;> (try dsimp only) <;> (repeat' (split <;> try (rename_i hp; first | (obtain ⟨rfl, rfl⟩ := Prod.ext_iff.mp hp) | (obtain ⟨rfl, hq⟩ := Prod.ext_iff.mp hp; obtain ⟨rfl, rfl⟩ := Prod.ext_iff.mp hq) | (obtain ⟨rfl, hq⟩ := Prod.ext_iff.mp hp; obtain ⟨rfl, _⟩ := Prod.ext_iff.mp hq) | (obtain ⟨_, hq⟩ := Prod.ext_iff.mp hp; obtain ⟨rfl, _⟩ := Prod.ext_iff.mp hq) | (obtain ⟨rfl, _⟩ := Prod.ext_iff.mp hp) | (obtain ⟨_, rfl⟩ := Prod.ext_iff.mp hp)))) <;> first | rfl | (simp; done) | (simp_all; done)

@[simp] theorem fetchLine_frame (s : State) (c : Nat) (j : MoverJob) (a n l : Nat) :
    (fetchLine s c j a n l).1.time = s.time ∧ (fetchLine s c j a n l).1.cp = s.cp ∧ (fetchLine s c j a n l).1.part = s.part ∧
    (fetchLine s c j a n l).1.err = s.err ∧ (fetchLine s c j a n l).1.pwr = s.pwr ∧ (fetchLine s c j a n l).1.mgmt = s.mgmt ∧
    (fetchLine s c j a n l).1.boot = s.boot ∧ (fetchLine s c j a n l).1.larder = s.larder ∧
    (fetchLine s c j a n l).1.reg = s.reg ∧ (fetchLine s c j a n l).1.trans = s.trans ∧
    (fetchLine s c j a n l).1.attic = s.attic ∧ (fetchLine s c j a n l).1.link = s.link ∧
    (fetchLine s c j a n l).1.chord = s.chord ∧ (fetchLine s c j a n l).1.fresh = s.fresh ∧
    (fetchLine s c j a n l).1.out = s.out ∧ (fetchLine s c j a n l).1.pending = s.pending := by
  unfold fetchLine
  dsimp only
  split
  · split
    · simp
    · (repeat' apply And.intro) <;> (first | apply foldlFst_time | apply foldlFst_cp | apply foldlFst_part | apply foldlFst_err | apply foldlFst_pwr | apply foldlFst_mgmt | apply foldlFst_boot | apply foldlFst_larder | apply foldlFst_reg | apply foldlFst_trans | apply foldlFst_attic | apply foldlFst_link | apply foldlFst_chord | apply foldlFst_fresh | apply foldlFst_out | apply foldlFst_pending) <;> intro _ _ <;> simp
  · simp

@[simp] theorem fetchRow_frame (s : State) (c : Nat) (j : MoverJob) (a n : Nat) :
    (fetchRow s c j a n).1.time = s.time ∧ (fetchRow s c j a n).1.cp = s.cp ∧ (fetchRow s c j a n).1.part = s.part ∧
    (fetchRow s c j a n).1.err = s.err ∧ (fetchRow s c j a n).1.pwr = s.pwr ∧ (fetchRow s c j a n).1.mgmt = s.mgmt ∧
    (fetchRow s c j a n).1.boot = s.boot ∧ (fetchRow s c j a n).1.larder = s.larder ∧
    (fetchRow s c j a n).1.reg = s.reg ∧ (fetchRow s c j a n).1.trans = s.trans ∧
    (fetchRow s c j a n).1.attic = s.attic ∧ (fetchRow s c j a n).1.link = s.link ∧
    (fetchRow s c j a n).1.chord = s.chord ∧ (fetchRow s c j a n).1.fresh = s.fresh ∧
    (fetchRow s c j a n).1.out = s.out ∧ (fetchRow s c j a n).1.pending = s.pending := by
  unfold fetchRow
  (repeat' apply And.intro) <;> (first | apply foldlFst_time | apply foldlFst_cp | apply foldlFst_part | apply foldlFst_err | apply foldlFst_pwr | apply foldlFst_mgmt | apply foldlFst_boot | apply foldlFst_larder | apply foldlFst_reg | apply foldlFst_trans | apply foldlFst_attic | apply foldlFst_link | apply foldlFst_chord | apply foldlFst_fresh | apply foldlFst_out | apply foldlFst_pending) <;> intro _ _ <;> simp

@[simp] theorem gatherReady_frame (s : State) (c : Nat) (j : MoverJob) (b : Bytes) (src : MoveAddr) (row : Nat) (rows : List Nat) :
    (gatherReady s c j b src row rows).1.time = s.time ∧ (gatherReady s c j b src row rows).1.part = s.part ∧
    (gatherReady s c j b src row rows).1.pwr = s.pwr ∧ (gatherReady s c j b src row rows).1.boot = s.boot ∧
    (gatherReady s c j b src row rows).1.reg = s.reg ∧ (gatherReady s c j b src row rows).1.link = s.link ∧
    (gatherReady s c j b src row rows).1.fresh = s.fresh ∧
    (gatherReady s c j b src row rows).1.pending = s.pending := by
  unfold gatherReady
  (try dsimp only)
  (repeat' (split <;> try (rename_i hp; first | (obtain ⟨rfl, rfl⟩ := Prod.ext_iff.mp hp) | (obtain ⟨rfl, hq⟩ := Prod.ext_iff.mp hp; obtain ⟨rfl, rfl⟩ := Prod.ext_iff.mp hq) | (obtain ⟨rfl, hq⟩ := Prod.ext_iff.mp hp; obtain ⟨rfl, _⟩ := Prod.ext_iff.mp hq) | (obtain ⟨_, hq⟩ := Prod.ext_iff.mp hp; obtain ⟨rfl, _⟩ := Prod.ext_iff.mp hq) | (obtain ⟨rfl, _⟩ := Prod.ext_iff.mp hp) | (obtain ⟨_, rfl⟩ := Prod.ext_iff.mp hp)))) <;> (try simp) <;> (repeat' apply And.intro) <;> (first | apply forEach_time | apply foldl_time | apply forEachFst_time | apply foldlFst_time | apply forEach_part | apply foldl_part | apply forEachFst_part | apply foldlFst_part | apply forEach_pwr | apply foldl_pwr | apply forEachFst_pwr | apply foldlFst_pwr | apply forEach_boot | apply foldl_boot | apply forEachFst_boot | apply foldlFst_boot | apply forEach_reg | apply foldl_reg | apply forEachFst_reg | apply foldlFst_reg | apply forEach_link | apply foldl_link | apply forEachFst_link | apply foldlFst_link | apply forEach_fresh | apply foldl_fresh | apply forEachFst_fresh | apply foldlFst_fresh | apply forEach_pending | apply foldl_pending | apply forEachFst_pending | apply foldlFst_pending) <;> intro _ _ <;> (try dsimp only) <;> (repeat' (split <;> try (rename_i hp; first | (obtain ⟨rfl, rfl⟩ := Prod.ext_iff.mp hp) | (obtain ⟨rfl, hq⟩ := Prod.ext_iff.mp hp; obtain ⟨rfl, rfl⟩ := Prod.ext_iff.mp hq) | (obtain ⟨rfl, hq⟩ := Prod.ext_iff.mp hp; obtain ⟨rfl, _⟩ := Prod.ext_iff.mp hq) | (obtain ⟨_, hq⟩ := Prod.ext_iff.mp hp; obtain ⟨rfl, _⟩ := Prod.ext_iff.mp hq) | (obtain ⟨rfl, _⟩ := Prod.ext_iff.mp hp) | (obtain ⟨_, rfl⟩ := Prod.ext_iff.mp hp)))) <;> first | rfl | (simp; done) | (simp_all; done)

theorem iteEq {α : Type} {p : Prop} [Decidable p] {a b : State} {f : State → α} {x : α} (ha : f a = x) (hb : f b = x) :
    f (if p then a else b) = x := by split <;> assumption

@[simp] theorem gatherRuns_time (fuel : Nat) (s : State) (c id : Nat) (b : Bytes) (g : GatherPlan) (host : Fetch) :
    (gatherRuns fuel s c id b g host).time = s.time := by
  induction fuel generalizing s host with
  | zero => simp [gatherRuns]
  | succ fuel ih =>
    unfold gatherRuns
    split
    · rename_i f _ hf _
      cases hf
      refine iteEq (f := State.time) (by simp) ?_
      dsimp only
      generalize hq : gatherReady _ _ _ _ _ _ _ = q
      have h1 : q.1.time = s.time := by rw [← hq]; simp
      obtain ⟨s1, ok⟩ := q
      cases ok with
      | false => exact h1
      | true =>
        dsimp only at h1 ⊢
        generalize gatherRows _ _ _ _ _ _ _ = w
        cases w with
        | none => simpa using h1
        | some d =>
          obtain ⟨d, bad⟩ := d
          dsimp only
          generalize hp : putBytes _ _ _ _ _ _ _ _ = p
          have h2 : p.1.time = s.time := by rw [← hp]; simp; split <;> simpa using h1
          obtain ⟨s2, ok⟩ := p
          cases ok with
          | false => exact h2
          | true => exact (ih _ _).trans (by simpa using h2)
    · rfl

@[simp] theorem gatherRuns_part (fuel : Nat) (s : State) (c id : Nat) (b : Bytes) (g : GatherPlan) (host : Fetch) :
    (gatherRuns fuel s c id b g host).part = s.part := by
  induction fuel generalizing s host with
  | zero => simp [gatherRuns]
  | succ fuel ih =>
    unfold gatherRuns
    split
    · rename_i f _ hf _
      cases hf
      refine iteEq (f := State.part) (by simp) ?_
      dsimp only
      generalize hq : gatherReady _ _ _ _ _ _ _ = q
      have h1 : q.1.part = s.part := by rw [← hq]; simp
      obtain ⟨s1, ok⟩ := q
      cases ok with
      | false => exact h1
      | true =>
        dsimp only at h1 ⊢
        generalize gatherRows _ _ _ _ _ _ _ = w
        cases w with
        | none => simpa using h1
        | some d =>
          obtain ⟨d, bad⟩ := d
          dsimp only
          generalize hp : putBytes _ _ _ _ _ _ _ _ = p
          have h2 : p.1.part = s.part := by rw [← hp]; simp; split <;> simpa using h1
          obtain ⟨s2, ok⟩ := p
          cases ok with
          | false => exact h2
          | true => exact (ih _ _).trans (by simpa using h2)
    · rfl

@[simp] theorem gatherRuns_pwr (fuel : Nat) (s : State) (c id : Nat) (b : Bytes) (g : GatherPlan) (host : Fetch) :
    (gatherRuns fuel s c id b g host).pwr = s.pwr := by
  induction fuel generalizing s host with
  | zero => simp [gatherRuns]
  | succ fuel ih =>
    unfold gatherRuns
    split
    · rename_i f _ hf _
      cases hf
      refine iteEq (f := State.pwr) (by simp) ?_
      dsimp only
      generalize hq : gatherReady _ _ _ _ _ _ _ = q
      have h1 : q.1.pwr = s.pwr := by rw [← hq]; simp
      obtain ⟨s1, ok⟩ := q
      cases ok with
      | false => exact h1
      | true =>
        dsimp only at h1 ⊢
        generalize gatherRows _ _ _ _ _ _ _ = w
        cases w with
        | none => simpa using h1
        | some d =>
          obtain ⟨d, bad⟩ := d
          dsimp only
          generalize hp : putBytes _ _ _ _ _ _ _ _ = p
          have h2 : p.1.pwr = s.pwr := by rw [← hp]; simp; split <;> simpa using h1
          obtain ⟨s2, ok⟩ := p
          cases ok with
          | false => exact h2
          | true => exact (ih _ _).trans (by simpa using h2)
    · rfl

@[simp] theorem gatherRuns_reg (fuel : Nat) (s : State) (c id : Nat) (b : Bytes) (g : GatherPlan) (host : Fetch) :
    (gatherRuns fuel s c id b g host).reg = s.reg := by
  induction fuel generalizing s host with
  | zero => simp [gatherRuns]
  | succ fuel ih =>
    unfold gatherRuns
    split
    · rename_i f _ hf _
      cases hf
      refine iteEq (f := State.reg) (by simp) ?_
      dsimp only
      generalize hq : gatherReady _ _ _ _ _ _ _ = q
      have h1 : q.1.reg = s.reg := by rw [← hq]; simp
      obtain ⟨s1, ok⟩ := q
      cases ok with
      | false => exact h1
      | true =>
        dsimp only at h1 ⊢
        generalize gatherRows _ _ _ _ _ _ _ = w
        cases w with
        | none => simpa using h1
        | some d =>
          obtain ⟨d, bad⟩ := d
          dsimp only
          generalize hp : putBytes _ _ _ _ _ _ _ _ = p
          have h2 : p.1.reg = s.reg := by rw [← hp]; simp; split <;> simpa using h1
          obtain ⟨s2, ok⟩ := p
          cases ok with
          | false => exact h2
          | true => exact (ih _ _).trans (by simpa using h2)
    · rfl

@[simp] theorem gatherRuns_link (fuel : Nat) (s : State) (c id : Nat) (b : Bytes) (g : GatherPlan) (host : Fetch) :
    (gatherRuns fuel s c id b g host).link = s.link := by
  induction fuel generalizing s host with
  | zero => simp [gatherRuns]
  | succ fuel ih =>
    unfold gatherRuns
    split
    · rename_i f _ hf _
      cases hf
      refine iteEq (f := State.link) (by simp) ?_
      dsimp only
      generalize hq : gatherReady _ _ _ _ _ _ _ = q
      have h1 : q.1.link = s.link := by rw [← hq]; simp
      obtain ⟨s1, ok⟩ := q
      cases ok with
      | false => exact h1
      | true =>
        dsimp only at h1 ⊢
        generalize gatherRows _ _ _ _ _ _ _ = w
        cases w with
        | none => simpa using h1
        | some d =>
          obtain ⟨d, bad⟩ := d
          dsimp only
          generalize hp : putBytes _ _ _ _ _ _ _ _ = p
          have h2 : p.1.link = s.link := by rw [← hp]; simp; split <;> simpa using h1
          obtain ⟨s2, ok⟩ := p
          cases ok with
          | false => exact h2
          | true => exact (ih _ _).trans (by simpa using h2)
    · rfl

@[simp] theorem gatherRuns_fresh (fuel : Nat) (s : State) (c id : Nat) (b : Bytes) (g : GatherPlan) (host : Fetch) :
    (gatherRuns fuel s c id b g host).fresh = s.fresh := by
  induction fuel generalizing s host with
  | zero => simp [gatherRuns]
  | succ fuel ih =>
    unfold gatherRuns
    split
    · rename_i f _ hf _
      cases hf
      refine iteEq (f := State.fresh) (by simp) ?_
      dsimp only
      generalize hq : gatherReady _ _ _ _ _ _ _ = q
      have h1 : q.1.fresh = s.fresh := by rw [← hq]; simp
      obtain ⟨s1, ok⟩ := q
      cases ok with
      | false => exact h1
      | true =>
        dsimp only at h1 ⊢
        generalize gatherRows _ _ _ _ _ _ _ = w
        cases w with
        | none => simpa using h1
        | some d =>
          obtain ⟨d, bad⟩ := d
          dsimp only
          generalize hp : putBytes _ _ _ _ _ _ _ _ = p
          have h2 : p.1.fresh = s.fresh := by rw [← hp]; simp; split <;> simpa using h1
          obtain ⟨s2, ok⟩ := p
          cases ok with
          | false => exact h2
          | true => exact (ih _ _).trans (by simpa using h2)
    · rfl

@[simp] theorem gatherRuns_pending (fuel : Nat) (s : State) (c id : Nat) (b : Bytes) (g : GatherPlan) (host : Fetch) :
    (gatherRuns fuel s c id b g host).pending = s.pending := by
  induction fuel generalizing s host with
  | zero => simp [gatherRuns]
  | succ fuel ih =>
    unfold gatherRuns
    split
    · rename_i f _ hf _
      cases hf
      refine iteEq (f := State.pending) (by simp) ?_
      dsimp only
      generalize hq : gatherReady _ _ _ _ _ _ _ = q
      have h1 : q.1.pending = s.pending := by rw [← hq]; simp
      obtain ⟨s1, ok⟩ := q
      cases ok with
      | false => exact h1
      | true =>
        dsimp only at h1 ⊢
        generalize gatherRows _ _ _ _ _ _ _ = w
        cases w with
        | none => simpa using h1
        | some d =>
          obtain ⟨d, bad⟩ := d
          dsimp only
          generalize hp : putBytes _ _ _ _ _ _ _ _ = p
          have h2 : p.1.pending = s.pending := by rw [← hp]; simp; split <;> simpa using h1
          obtain ⟨s2, ok⟩ := p
          cases ok with
          | false => exact h2
          | true => exact (ih _ _).trans (by simpa using h2)
    · rfl

end Sys2Proof.Machine
end

