-- ==== Sys2Proof/Laws/FrameMaintain.lean ====
section
/-! SUPPORT. What each operation of Machine/Maintain.lean leaves as it was, by component of the state. -/
set_option maxRecDepth 4000
set_option exponentiation.threshold 2000
namespace Sys2Proof.Machine

@[simp] theorem maintCellarLine_frame (s : State) (c key : Nat) (client : Client) (write drop : Bool) (n : MaintCount) :
    (maintCellarLine s c key client write drop n).1.time = s.time ∧
    (maintCellarLine s c key client write drop n).1.cp = s.cp ∧
    (maintCellarLine s c key client write drop n).1.part = s.part ∧
    (maintCellarLine s c key client write drop n).1.err = s.err ∧
    (maintCellarLine s c key client write drop n).1.pwr = s.pwr ∧
    (maintCellarLine s c key client write drop n).1.mgmt = s.mgmt ∧
    (maintCellarLine s c key client write drop n).1.boot = s.boot ∧
    (maintCellarLine s c key client write drop n).1.larder = s.larder ∧
    (maintCellarLine s c key client write drop n).1.reg = s.reg ∧
    (maintCellarLine s c key client write drop n).1.trans = s.trans ∧
    (maintCellarLine s c key client write drop n).1.attic = s.attic ∧
    (maintCellarLine s c key client write drop n).1.link = s.link ∧
    (maintCellarLine s c key client write drop n).1.chord = s.chord ∧
    (maintCellarLine s c key client write drop n).1.fresh = s.fresh ∧
    (maintCellarLine s c key client write drop n).1.pending = s.pending := by
  unfold maintCellarLine
  simp

@[simp] theorem maintCoreLine_frame (s : State) (k key : Nat) (client : Client) (write drop : Bool) (n : MaintCount) :
    (maintCoreLine s k key client write drop n).1.time = s.time ∧
    (maintCoreLine s k key client write drop n).1.cp = s.cp ∧
    (maintCoreLine s k key client write drop n).1.part = s.part ∧
    (maintCoreLine s k key client write drop n).1.err = s.err ∧
    (maintCoreLine s k key client write drop n).1.pwr = s.pwr ∧
    (maintCoreLine s k key client write drop n).1.mgmt = s.mgmt ∧
    (maintCoreLine s k key client write drop n).1.boot = s.boot ∧
    (maintCoreLine s k key client write drop n).1.larder = s.larder ∧
    (maintCoreLine s k key client write drop n).1.reg = s.reg ∧
    (maintCoreLine s k key client write drop n).1.trans = s.trans ∧
    (maintCoreLine s k key client write drop n).1.attic = s.attic ∧
    (maintCoreLine s k key client write drop n).1.link = s.link ∧
    (maintCoreLine s k key client write drop n).1.chord = s.chord ∧
    (maintCoreLine s k key client write drop n).1.fresh = s.fresh ∧
    (maintCoreLine s k key client write drop n).1.pending = s.pending := by
  unfold maintCoreLine
  simp

@[simp] theorem maintain_frame (s : State) (c : Nat) (j : MoverJob) (b : Bytes) (write drop : Bool) :
    (maintain s c j b write drop).time = s.time ∧ (maintain s c j b write drop).part = s.part ∧
    (maintain s c j b write drop).pwr = s.pwr ∧ (maintain s c j b write drop).boot = s.boot ∧
    (maintain s c j b write drop).reg = s.reg ∧ (maintain s c j b write drop).link = s.link ∧
    (maintain s c j b write drop).fresh = s.fresh ∧ (maintain s c j b write drop).pending = s.pending := by
  unfold maintain
  (try dsimp only)
  (repeat' (split <;> try (rename_i hp; first | (obtain ⟨rfl, rfl⟩ := Prod.ext_iff.mp hp) | (obtain ⟨rfl, hq⟩ := Prod.ext_iff.mp hp; obtain ⟨rfl, rfl⟩ := Prod.ext_iff.mp hq) | (obtain ⟨rfl, hq⟩ := Prod.ext_iff.mp hp; obtain ⟨rfl, _⟩ := Prod.ext_iff.mp hq) | (obtain ⟨_, hq⟩ := Prod.ext_iff.mp hp; obtain ⟨rfl, _⟩ := Prod.ext_iff.mp hq) | (obtain ⟨rfl, _⟩ := Prod.ext_iff.mp hp) | (obtain ⟨_, rfl⟩ := Prod.ext_iff.mp hp)))) <;> first | rfl | (simp; done) | (simp_all; done)

@[simp] theorem cleanEverywhere_frame (s : State) (a n : Nat) :
    (cleanEverywhere s a n).time = s.time ∧ (cleanEverywhere s a n).cp = s.cp ∧
    (cleanEverywhere s a n).part = s.part ∧ (cleanEverywhere s a n).err = s.err ∧
    (cleanEverywhere s a n).pwr = s.pwr ∧ (cleanEverywhere s a n).mgmt = s.mgmt ∧
    (cleanEverywhere s a n).boot = s.boot ∧ (cleanEverywhere s a n).larder = s.larder ∧
    (cleanEverywhere s a n).reg = s.reg ∧ (cleanEverywhere s a n).trans = s.trans ∧
    (cleanEverywhere s a n).attic = s.attic ∧ (cleanEverywhere s a n).link = s.link ∧
    (cleanEverywhere s a n).chord = s.chord ∧ (cleanEverywhere s a n).fresh = s.fresh ∧
    (cleanEverywhere s a n).pending = s.pending := by
  unfold cleanEverywhere
  simp

@[simp] theorem preloadLine_frame (s : State) (c : Nat) (j : MoverJob) (line : Nat) (n : MaintCount) :
    (preloadLine s c j line n).1.time = s.time ∧ (preloadLine s c j line n).1.cp = s.cp ∧
    (preloadLine s c j line n).1.part = s.part ∧ (preloadLine s c j line n).1.err = s.err ∧
    (preloadLine s c j line n).1.pwr = s.pwr ∧ (preloadLine s c j line n).1.mgmt = s.mgmt ∧
    (preloadLine s c j line n).1.boot = s.boot ∧ (preloadLine s c j line n).1.mem = s.mem ∧
    (preloadLine s c j line n).1.larder = s.larder ∧ (preloadLine s c j line n).1.reg = s.reg ∧
    (preloadLine s c j line n).1.trans = s.trans ∧ (preloadLine s c j line n).1.attic = s.attic ∧
    (preloadLine s c j line n).1.link = s.link ∧ (preloadLine s c j line n).1.chord = s.chord ∧
    (preloadLine s c j line n).1.fresh = s.fresh ∧ (preloadLine s c j line n).1.out = s.out ∧
    (preloadLine s c j line n).1.pending = s.pending := by
  unfold preloadLine
  (try dsimp only)
  (repeat' (split <;> try (rename_i hp; first | (obtain ⟨rfl, rfl⟩ := Prod.ext_iff.mp hp) | (obtain ⟨rfl, hq⟩ := Prod.ext_iff.mp hp; obtain ⟨rfl, rfl⟩ := Prod.ext_iff.mp hq) | (obtain ⟨rfl, hq⟩ := Prod.ext_iff.mp hp; obtain ⟨rfl, _⟩ := Prod.ext_iff.mp hq) | (obtain ⟨_, hq⟩ := Prod.ext_iff.mp hp; obtain ⟨rfl, _⟩ := Prod.ext_iff.mp hq) | (obtain ⟨rfl, _⟩ := Prod.ext_iff.mp hp) | (obtain ⟨_, rfl⟩ := Prod.ext_iff.mp hp)))) <;> first | rfl | (simp; done) | (simp_all; done)

end Sys2Proof.Machine
end

