-- ==== Sys2Proof/Laws/FrameRouting.lean ====
section
/-! SUPPORT. What each operation of Machine/Routing.lean leaves as it was, by component of the state. -/
set_option maxRecDepth 4000
set_option exponentiation.threshold 2000
namespace Sys2Proof.Machine

@[simp] theorem modTable_frame (s : State) (a : Nat) (f : RouteTable → RouteTable) :
    (modTable s a f).time = s.time ∧ (modTable s a f).cp = s.cp ∧ (modTable s a f).part = s.part ∧
    (modTable s a f).err = s.err ∧ (modTable s a f).pwr = s.pwr ∧ (modTable s a f).mgmt = s.mgmt ∧
    (modTable s a f).boot = s.boot ∧ (modTable s a f).cells = s.cells ∧ (modTable s a f).mem = s.mem ∧
    (modTable s a f).reg = s.reg ∧ (modTable s a f).trans = s.trans ∧ (modTable s a f).attic = s.attic ∧
    (modTable s a f).link = s.link ∧ (modTable s a f).chord = s.chord ∧ (modTable s a f).fresh = s.fresh ∧
    (modTable s a f).out = s.out ∧ (modTable s a f).pending = s.pending := by
  unfold modTable
  simp

@[simp] theorem routePeg_frame (s : State) (c id peg : Nat) :
    (routePeg s c id peg).time = s.time ∧ (routePeg s c id peg).part = s.part ∧ (routePeg s c id peg).pwr = s.pwr ∧
    (routePeg s c id peg).boot = s.boot ∧ (routePeg s c id peg).mem = s.mem ∧ (routePeg s c id peg).link = s.link ∧
    (routePeg s c id peg).pending = s.pending := by
  unfold routePeg
  (try dsimp only)
  (repeat' (split <;> try (rename_i hp; first | (obtain ⟨rfl, rfl⟩ := Prod.ext_iff.mp hp) | (obtain ⟨rfl, hq⟩ := Prod.ext_iff.mp hp; obtain ⟨rfl, rfl⟩ := Prod.ext_iff.mp hq) | (obtain ⟨rfl, hq⟩ := Prod.ext_iff.mp hp; obtain ⟨rfl, _⟩ := Prod.ext_iff.mp hq) | (obtain ⟨_, hq⟩ := Prod.ext_iff.mp hp; obtain ⟨rfl, _⟩ := Prod.ext_iff.mp hq) | (obtain ⟨rfl, _⟩ := Prod.ext_iff.mp hp) | (obtain ⟨_, rfl⟩ := Prod.ext_iff.mp hp)))) <;> first | rfl | (simp; done) | (simp_all; done)

@[simp] theorem routeReads_frame (s : State) (c : Nat) (j : MoverJob) (l : List (Nat × Nat)) :
    (routeReads s c j l).1.time = s.time ∧ (routeReads s c j l).1.part = s.part ∧ (routeReads s c j l).1.pwr = s.pwr ∧
    (routeReads s c j l).1.boot = s.boot ∧ (routeReads s c j l).1.reg = s.reg ∧ (routeReads s c j l).1.link = s.link ∧
    (routeReads s c j l).1.fresh = s.fresh ∧ (routeReads s c j l).1.pending = s.pending := by
  unfold routeReads
  (try dsimp only)
  (repeat' (split <;> try (rename_i hp; first | (obtain ⟨rfl, rfl⟩ := Prod.ext_iff.mp hp) | (obtain ⟨rfl, hq⟩ := Prod.ext_iff.mp hp; obtain ⟨rfl, rfl⟩ := Prod.ext_iff.mp hq) | (obtain ⟨rfl, hq⟩ := Prod.ext_iff.mp hp; obtain ⟨rfl, _⟩ := Prod.ext_iff.mp hq) | (obtain ⟨_, hq⟩ := Prod.ext_iff.mp hp; obtain ⟨rfl, _⟩ := Prod.ext_iff.mp hq) | (obtain ⟨rfl, _⟩ := Prod.ext_iff.mp hp) | (obtain ⟨_, rfl⟩ := Prod.ext_iff.mp hp)))) <;> (try simp) <;> (repeat' apply And.intro) <;> (first | apply forEach_time | apply foldl_time | apply forEachFst_time | apply foldlFst_time | apply forEach_part | apply foldl_part | apply forEachFst_part | apply foldlFst_part | apply forEach_pwr | apply foldl_pwr | apply forEachFst_pwr | apply foldlFst_pwr | apply forEach_boot | apply foldl_boot | apply forEachFst_boot | apply foldlFst_boot | apply forEach_reg | apply foldl_reg | apply forEachFst_reg | apply foldlFst_reg | apply forEach_link | apply foldl_link | apply forEachFst_link | apply foldlFst_link | apply forEach_fresh | apply foldl_fresh | apply forEachFst_fresh | apply foldlFst_fresh | apply forEach_pending | apply foldl_pending | apply forEachFst_pending | apply foldlFst_pending) <;> intro _ _ <;> (try dsimp only) <;> (repeat' (split <;> try (rename_i hp; first | (obtain ⟨rfl, rfl⟩ := Prod.ext_iff.mp hp) | (obtain ⟨rfl, hq⟩ := Prod.ext_iff.mp hp; obtain ⟨rfl, rfl⟩ := Prod.ext_iff.mp hq) | (obtain ⟨rfl, hq⟩ := Prod.ext_iff.mp hp; obtain ⟨rfl, _⟩ := Prod.ext_iff.mp hq) | (obtain ⟨_, hq⟩ := Prod.ext_iff.mp hp; obtain ⟨rfl, _⟩ := Prod.ext_iff.mp hq) | (obtain ⟨rfl, _⟩ := Prod.ext_iff.mp hp) | (obtain ⟨_, rfl⟩ := Prod.ext_iff.mp hp)))) <;> first | rfl | (simp; done) | (simp_all; done)

@[simp] theorem routeWrites_frame (s : State) (c : Nat) (j : MoverJob) (l : List (Nat × Nat)) :
    (routeWrites s c j l).1.time = s.time ∧ (routeWrites s c j l).1.part = s.part ∧
    (routeWrites s c j l).1.pwr = s.pwr ∧ (routeWrites s c j l).1.boot = s.boot ∧
    (routeWrites s c j l).1.mem = s.mem ∧ (routeWrites s c j l).1.reg = s.reg ∧
    (routeWrites s c j l).1.link = s.link ∧ (routeWrites s c j l).1.fresh = s.fresh ∧
    (routeWrites s c j l).1.pending = s.pending := by
  unfold routeWrites
  (try dsimp only)
  (repeat' (split <;> try (rename_i hp; first | (obtain ⟨rfl, rfl⟩ := Prod.ext_iff.mp hp) | (obtain ⟨rfl, hq⟩ := Prod.ext_iff.mp hp; obtain ⟨rfl, rfl⟩ := Prod.ext_iff.mp hq) | (obtain ⟨rfl, hq⟩ := Prod.ext_iff.mp hp; obtain ⟨rfl, _⟩ := Prod.ext_iff.mp hq) | (obtain ⟨_, hq⟩ := Prod.ext_iff.mp hp; obtain ⟨rfl, _⟩ := Prod.ext_iff.mp hq) | (obtain ⟨rfl, _⟩ := Prod.ext_iff.mp hp) | (obtain ⟨_, rfl⟩ := Prod.ext_iff.mp hp)))) <;> (try simp) <;> (repeat' apply And.intro) <;> (first | apply forEach_time | apply foldl_time | apply forEachFst_time | apply foldlFst_time | apply forEach_part | apply foldl_part | apply forEachFst_part | apply foldlFst_part | apply forEach_pwr | apply foldl_pwr | apply forEachFst_pwr | apply foldlFst_pwr | apply forEach_boot | apply foldl_boot | apply forEachFst_boot | apply foldlFst_boot | apply forEach_mem | apply foldl_mem | apply forEachFst_mem | apply foldlFst_mem | apply forEach_reg | apply foldl_reg | apply forEachFst_reg | apply foldlFst_reg | apply forEach_link | apply foldl_link | apply forEachFst_link | apply foldlFst_link | apply forEach_fresh | apply foldl_fresh | apply forEachFst_fresh | apply foldlFst_fresh | apply forEach_pending | apply foldl_pending | apply forEachFst_pending | apply foldlFst_pending) <;> intro _ _ <;> (try dsimp only) <;> (repeat' (split <;> try (rename_i hp; first | (obtain ⟨rfl, rfl⟩ := Prod.ext_iff.mp hp) | (obtain ⟨rfl, hq⟩ := Prod.ext_iff.mp hp; obtain ⟨rfl, rfl⟩ := Prod.ext_iff.mp hq) | (obtain ⟨rfl, hq⟩ := Prod.ext_iff.mp hp; obtain ⟨rfl, _⟩ := Prod.ext_iff.mp hq) | (obtain ⟨_, hq⟩ := Prod.ext_iff.mp hp; obtain ⟨rfl, _⟩ := Prod.ext_iff.mp hq) | (obtain ⟨rfl, _⟩ := Prod.ext_iff.mp hp) | (obtain ⟨_, rfl⟩ := Prod.ext_iff.mp hp)))) <;> first | rfl | (simp; done) | (simp_all; done)

@[simp] theorem routeMalformed_frame (s : State) (c : Nat) (j : MoverJob) (result : Nat) :
    (routeMalformed s c j result).time = s.time ∧ (routeMalformed s c j result).part = s.part ∧
    (routeMalformed s c j result).pwr = s.pwr ∧ (routeMalformed s c j result).boot = s.boot ∧
    (routeMalformed s c j result).reg = s.reg ∧ (routeMalformed s c j result).link = s.link ∧
    (routeMalformed s c j result).fresh = s.fresh ∧ (routeMalformed s c j result).pending = s.pending := by
  unfold routeMalformed
  (try dsimp only)
  (repeat' (split <;> try (rename_i hp; first | (obtain ⟨rfl, rfl⟩ := Prod.ext_iff.mp hp) | (obtain ⟨rfl, hq⟩ := Prod.ext_iff.mp hp; obtain ⟨rfl, rfl⟩ := Prod.ext_iff.mp hq) | (obtain ⟨rfl, hq⟩ := Prod.ext_iff.mp hp; obtain ⟨rfl, _⟩ := Prod.ext_iff.mp hq) | (obtain ⟨_, hq⟩ := Prod.ext_iff.mp hp; obtain ⟨rfl, _⟩ := Prod.ext_iff.mp hq) | (obtain ⟨rfl, _⟩ := Prod.ext_iff.mp hp) | (obtain ⟨_, rfl⟩ := Prod.ext_iff.mp hp)))) <;> first | rfl | (simp; done) | (simp_all; done)

@[simp] theorem sendRow_frame (s : State) (c : Nat) (j : MoverJob) (a : Nat) (row : Bytes) (pz : Nat) :
    (sendRow s c j a row pz).time = s.time ∧ (sendRow s c j a row pz).cp = s.cp ∧
    (sendRow s c j a row pz).part = s.part ∧ (sendRow s c j a row pz).err = s.err ∧
    (sendRow s c j a row pz).pwr = s.pwr ∧ (sendRow s c j a row pz).mgmt = s.mgmt ∧
    (sendRow s c j a row pz).boot = s.boot ∧ (sendRow s c j a row pz).larder = s.larder ∧
    (sendRow s c j a row pz).reg = s.reg ∧ (sendRow s c j a row pz).trans = s.trans ∧
    (sendRow s c j a row pz).attic = s.attic ∧ (sendRow s c j a row pz).link = s.link ∧
    (sendRow s c j a row pz).pending = s.pending := by
  unfold sendRow
  (try dsimp only)
  (repeat' (split <;> try (rename_i hp; first | (obtain ⟨rfl, rfl⟩ := Prod.ext_iff.mp hp) | (obtain ⟨rfl, hq⟩ := Prod.ext_iff.mp hp; obtain ⟨rfl, rfl⟩ := Prod.ext_iff.mp hq) | (obtain ⟨rfl, hq⟩ := Prod.ext_iff.mp hp; obtain ⟨rfl, _⟩ := Prod.ext_iff.mp hq) | (obtain ⟨_, hq⟩ := Prod.ext_iff.mp hp; obtain ⟨rfl, _⟩ := Prod.ext_iff.mp hq) | (obtain ⟨rfl, _⟩ := Prod.ext_iff.mp hp) | (obtain ⟨_, rfl⟩ := Prod.ext_iff.mp hp)))) <;> first | rfl | (simp; done) | (simp_all; done)

@[simp] theorem routeWriteLists_frame (s : State) (c : Nat) (j : MoverJob) (d : RouteDesc) (w : RouteWork) (cycles : Nat) :
    (routeWriteLists s c j d w cycles).time = s.time ∧ (routeWriteLists s c j d w cycles).cp = s.cp ∧
    (routeWriteLists s c j d w cycles).part = s.part ∧ (routeWriteLists s c j d w cycles).err = s.err ∧
    (routeWriteLists s c j d w cycles).pwr = s.pwr ∧ (routeWriteLists s c j d w cycles).mgmt = s.mgmt ∧
    (routeWriteLists s c j d w cycles).boot = s.boot ∧ (routeWriteLists s c j d w cycles).larder = s.larder ∧
    (routeWriteLists s c j d w cycles).reg = s.reg ∧ (routeWriteLists s c j d w cycles).trans = s.trans ∧
    (routeWriteLists s c j d w cycles).attic = s.attic ∧ (routeWriteLists s c j d w cycles).link = s.link ∧
    (routeWriteLists s c j d w cycles).chord = s.chord ∧ (routeWriteLists s c j d w cycles).fresh = s.fresh ∧
    (routeWriteLists s c j d w cycles).pending = s.pending := by
  unfold routeWriteLists
  simp

@[simp] theorem routeKeep_frame (s : State) (d : RouteDesc) (b : Bytes) (w : RouteWork) :
    (routeKeep s d b w).time = s.time ∧ (routeKeep s d b w).cp = s.cp ∧ (routeKeep s d b w).part = s.part ∧
    (routeKeep s d b w).err = s.err ∧ (routeKeep s d b w).pwr = s.pwr ∧ (routeKeep s d b w).mgmt = s.mgmt ∧
    (routeKeep s d b w).boot = s.boot ∧ (routeKeep s d b w).cells = s.cells ∧ (routeKeep s d b w).mem = s.mem ∧
    (routeKeep s d b w).reg = s.reg ∧ (routeKeep s d b w).trans = s.trans ∧ (routeKeep s d b w).attic = s.attic ∧
    (routeKeep s d b w).link = s.link ∧ (routeKeep s d b w).chord = s.chord ∧ (routeKeep s d b w).fresh = s.fresh ∧
    (routeKeep s d b w).out = s.out ∧ (routeKeep s d b w).pending = s.pending := by
  unfold routeKeep
  simp

@[simp] theorem routeBegin_frame (s : State) (c : Nat) (j : MoverJob) (table pass area : Nat) :
    (routeBegin s c j table pass area).time = s.time ∧ (routeBegin s c j table pass area).cp = s.cp ∧
    (routeBegin s c j table pass area).part = s.part ∧ (routeBegin s c j table pass area).err = s.err ∧
    (routeBegin s c j table pass area).pwr = s.pwr ∧ (routeBegin s c j table pass area).mgmt = s.mgmt ∧
    (routeBegin s c j table pass area).boot = s.boot ∧ (routeBegin s c j table pass area).cells = s.cells ∧
    (routeBegin s c j table pass area).mem = s.mem ∧ (routeBegin s c j table pass area).reg = s.reg ∧
    (routeBegin s c j table pass area).trans = s.trans ∧ (routeBegin s c j table pass area).attic = s.attic ∧
    (routeBegin s c j table pass area).link = s.link ∧ (routeBegin s c j table pass area).chord = s.chord ∧
    (routeBegin s c j table pass area).fresh = s.fresh ∧ (routeBegin s c j table pass area).out = s.out ∧
    (routeBegin s c j table pass area).pending = s.pending := by
  unfold routeBegin
  simp

@[simp] theorem routeListed_frame (s : State) (c id : Nat) :
    (routeListed s c id).time = s.time ∧ (routeListed s c id).part = s.part ∧ (routeListed s c id).pwr = s.pwr ∧
    (routeListed s c id).boot = s.boot ∧ (routeListed s c id).link = s.link ∧
    (routeListed s c id).pending = s.pending := by
  unfold routeListed
  (try dsimp only)
  (repeat' (split <;> try (rename_i hp; first | (obtain ⟨rfl, rfl⟩ := Prod.ext_iff.mp hp) | (obtain ⟨rfl, hq⟩ := Prod.ext_iff.mp hp; obtain ⟨rfl, rfl⟩ := Prod.ext_iff.mp hq) | (obtain ⟨rfl, hq⟩ := Prod.ext_iff.mp hp; obtain ⟨rfl, _⟩ := Prod.ext_iff.mp hq) | (obtain ⟨_, hq⟩ := Prod.ext_iff.mp hp; obtain ⟨rfl, _⟩ := Prod.ext_iff.mp hq) | (obtain ⟨rfl, _⟩ := Prod.ext_iff.mp hp) | (obtain ⟨_, rfl⟩ := Prod.ext_iff.mp hp)))) <;> first | rfl | (simp; done) | (simp_all; done)

@[simp] theorem routeList_frame (s : State) (c : Nat) (j : MoverJob) (b : Bytes) :
    (routeList s c j b).time = s.time ∧ (routeList s c j b).part = s.part ∧ (routeList s c j b).pwr = s.pwr ∧
    (routeList s c j b).boot = s.boot ∧ (routeList s c j b).link = s.link ∧
    (routeList s c j b).pending = s.pending := by
  unfold routeList
  (try dsimp only)
  (repeat' (split <;> try (rename_i hp; first | (obtain ⟨rfl, rfl⟩ := Prod.ext_iff.mp hp) | (obtain ⟨rfl, hq⟩ := Prod.ext_iff.mp hp; obtain ⟨rfl, rfl⟩ := Prod.ext_iff.mp hq) | (obtain ⟨rfl, hq⟩ := Prod.ext_iff.mp hp; obtain ⟨rfl, _⟩ := Prod.ext_iff.mp hq) | (obtain ⟨_, hq⟩ := Prod.ext_iff.mp hp; obtain ⟨rfl, _⟩ := Prod.ext_iff.mp hq) | (obtain ⟨rfl, _⟩ := Prod.ext_iff.mp hp) | (obtain ⟨_, rfl⟩ := Prod.ext_iff.mp hp)))) <;> first | rfl | (simp; done) | (simp_all; done)

@[simp] theorem routeJobFret_frame (s : State) (q : Nat) (j : MoverJob) :
    (routeJobFret s q j).time = s.time ∧ (routeJobFret s q j).part = s.part ∧ (routeJobFret s q j).pwr = s.pwr ∧
    (routeJobFret s q j).boot = s.boot ∧ (routeJobFret s q j).link = s.link ∧
    (routeJobFret s q j).pending = s.pending := by
  unfold routeJobFret
  (try dsimp only)
  (repeat' (split <;> try (rename_i hp; first | (obtain ⟨rfl, rfl⟩ := Prod.ext_iff.mp hp) | (obtain ⟨rfl, hq⟩ := Prod.ext_iff.mp hp; obtain ⟨rfl, rfl⟩ := Prod.ext_iff.mp hq) | (obtain ⟨rfl, hq⟩ := Prod.ext_iff.mp hp; obtain ⟨rfl, _⟩ := Prod.ext_iff.mp hq) | (obtain ⟨_, hq⟩ := Prod.ext_iff.mp hp; obtain ⟨rfl, _⟩ := Prod.ext_iff.mp hq) | (obtain ⟨rfl, _⟩ := Prod.ext_iff.mp hp) | (obtain ⟨_, rfl⟩ := Prod.ext_iff.mp hp)))) <;> first | rfl | (simp; done) | (simp_all; done)

@[simp] theorem routeFret_frame (s : State) :
    (routeFret s).time = s.time ∧ (routeFret s).part = s.part ∧ (routeFret s).pwr = s.pwr ∧
    (routeFret s).boot = s.boot ∧ (routeFret s).link = s.link ∧ (routeFret s).pending = s.pending := by
  unfold routeFret
  simp

@[simp] theorem combineEnds_frame (s : State) (c : Nat) (j : MoverJob) (code : Nat) :
    (combineEnds s c j code).time = s.time ∧ (combineEnds s c j code).cp = s.cp ∧
    (combineEnds s c j code).part = s.part ∧ (combineEnds s c j code).err = s.err ∧
    (combineEnds s c j code).pwr = s.pwr ∧ (combineEnds s c j code).mgmt = s.mgmt ∧
    (combineEnds s c j code).boot = s.boot ∧ (combineEnds s c j code).cells = s.cells ∧
    (combineEnds s c j code).mem = s.mem ∧ (combineEnds s c j code).reg = s.reg ∧
    (combineEnds s c j code).trans = s.trans ∧ (combineEnds s c j code).attic = s.attic ∧
    (combineEnds s c j code).link = s.link ∧ (combineEnds s c j code).chord = s.chord ∧
    (combineEnds s c j code).fresh = s.fresh ∧ (combineEnds s c j code).out = s.out ∧
    (combineEnds s c j code).pending = s.pending := by
  unfold combineEnds
  simp

@[simp] theorem combineFinish_frame (s : State) (c id : Nat) :
    (combineFinish s c id).time = s.time ∧ (combineFinish s c id).part = s.part ∧ (combineFinish s c id).pwr = s.pwr ∧
    (combineFinish s c id).boot = s.boot ∧ (combineFinish s c id).link = s.link ∧
    (combineFinish s c id).pending = s.pending := by
  unfold combineFinish
  (try dsimp only)
  (repeat' (split <;> try (rename_i hp; first | (obtain ⟨rfl, rfl⟩ := Prod.ext_iff.mp hp) | (obtain ⟨rfl, hq⟩ := Prod.ext_iff.mp hp; obtain ⟨rfl, rfl⟩ := Prod.ext_iff.mp hq) | (obtain ⟨rfl, hq⟩ := Prod.ext_iff.mp hp; obtain ⟨rfl, _⟩ := Prod.ext_iff.mp hq) | (obtain ⟨_, hq⟩ := Prod.ext_iff.mp hp; obtain ⟨rfl, _⟩ := Prod.ext_iff.mp hq) | (obtain ⟨rfl, _⟩ := Prod.ext_iff.mp hp) | (obtain ⟨_, rfl⟩ := Prod.ext_iff.mp hp)))) <;> first | rfl | (simp; done) | (simp_all; done)

@[simp] theorem combinePass_frame (s : State) (c : Nat) (j : MoverJob) (table : Nat) (p : RoutePass) :
    (combinePass s c j table p).time = s.time ∧ (combinePass s c j table p).part = s.part ∧
    (combinePass s c j table p).pwr = s.pwr ∧ (combinePass s c j table p).boot = s.boot ∧
    (combinePass s c j table p).reg = s.reg ∧ (combinePass s c j table p).link = s.link ∧
    (combinePass s c j table p).fresh = s.fresh ∧ (combinePass s c j table p).pending = s.pending := by
  unfold combinePass
  (try dsimp only)
  (repeat' (split <;> try (rename_i hp; first | (obtain ⟨rfl, rfl⟩ := Prod.ext_iff.mp hp) | (obtain ⟨rfl, hq⟩ := Prod.ext_iff.mp hp; obtain ⟨rfl, rfl⟩ := Prod.ext_iff.mp hq) | (obtain ⟨rfl, hq⟩ := Prod.ext_iff.mp hp; obtain ⟨rfl, _⟩ := Prod.ext_iff.mp hq) | (obtain ⟨_, hq⟩ := Prod.ext_iff.mp hp; obtain ⟨rfl, _⟩ := Prod.ext_iff.mp hq) | (obtain ⟨rfl, _⟩ := Prod.ext_iff.mp hp) | (obtain ⟨_, rfl⟩ := Prod.ext_iff.mp hp)))) <;> first | rfl | (simp; done) | (simp_all; done)

end Sys2Proof.Machine
end

