-- ==== Sys2Proof/Laws/FrameLarder.lean ====
section
/-! SUPPORT. What each operation of Machine/Larder.lean leaves as it was, by component of the state. -/
set_option maxRecDepth 4000
set_option exponentiation.threshold 2000
namespace Sys2Proof.Machine

@[simp] theorem modPage_frame (s : State) (p : Nat) (f : Page → Page) :
    (modPage s p f).time = s.time ∧ (modPage s p f).cp = s.cp ∧ (modPage s p f).part = s.part ∧
    (modPage s p f).err = s.err ∧ (modPage s p f).pwr = s.pwr ∧ (modPage s p f).mgmt = s.mgmt ∧
    (modPage s p f).boot = s.boot ∧ (modPage s p f).cells = s.cells ∧ (modPage s p f).mem = s.mem ∧
    (modPage s p f).reg = s.reg ∧ (modPage s p f).trans = s.trans ∧ (modPage s p f).attic = s.attic ∧
    (modPage s p f).link = s.link ∧ (modPage s p f).chord = s.chord ∧ (modPage s p f).fresh = s.fresh ∧
    (modPage s p f).out = s.out ∧ (modPage s p f).pending = s.pending := by
  unfold modPage
  simp

@[simp] theorem setPage_frame (s : State) (p : Nat) (x : Page) :
    (setPage s p x).time = s.time ∧ (setPage s p x).cp = s.cp ∧ (setPage s p x).part = s.part ∧
    (setPage s p x).err = s.err ∧ (setPage s p x).pwr = s.pwr ∧ (setPage s p x).mgmt = s.mgmt ∧
    (setPage s p x).boot = s.boot ∧ (setPage s p x).cells = s.cells ∧ (setPage s p x).mem = s.mem ∧
    (setPage s p x).reg = s.reg ∧ (setPage s p x).trans = s.trans ∧ (setPage s p x).attic = s.attic ∧
    (setPage s p x).link = s.link ∧ (setPage s p x).chord = s.chord ∧ (setPage s p x).fresh = s.fresh ∧
    (setPage s p x).out = s.out ∧ (setPage s p x).pending = s.pending := by
  unfold setPage
  simp

@[simp] theorem freePage_frame (s : State) (p : Nat) :
    (freePage s p).time = s.time ∧ (freePage s p).cp = s.cp ∧ (freePage s p).part = s.part ∧
    (freePage s p).err = s.err ∧ (freePage s p).pwr = s.pwr ∧ (freePage s p).mgmt = s.mgmt ∧
    (freePage s p).boot = s.boot ∧ (freePage s p).cells = s.cells ∧ (freePage s p).mem = s.mem ∧
    (freePage s p).reg = s.reg ∧ (freePage s p).trans = s.trans ∧ (freePage s p).attic = s.attic ∧
    (freePage s p).link = s.link ∧ (freePage s p).chord = s.chord ∧ (freePage s p).fresh = s.fresh ∧
    (freePage s p).out = s.out ∧ (freePage s p).pending = s.pending := by
  unfold freePage
  simp

@[simp] theorem modSeq_frame (s : State) (q : Nat) (f : Sequence → Sequence) :
    (modSeq s q f).time = s.time ∧ (modSeq s q f).cp = s.cp ∧ (modSeq s q f).part = s.part ∧
    (modSeq s q f).err = s.err ∧ (modSeq s q f).pwr = s.pwr ∧ (modSeq s q f).mgmt = s.mgmt ∧
    (modSeq s q f).boot = s.boot ∧ (modSeq s q f).cells = s.cells ∧ (modSeq s q f).mem = s.mem ∧
    (modSeq s q f).reg = s.reg ∧ (modSeq s q f).trans = s.trans ∧ (modSeq s q f).attic = s.attic ∧
    (modSeq s q f).link = s.link ∧ (modSeq s q f).chord = s.chord ∧ (modSeq s q f).fresh = s.fresh ∧
    (modSeq s q f).out = s.out ∧ (modSeq s q f).pending = s.pending := by
  unfold modSeq
  simp

@[simp] theorem addPager_frame (s : State) (page part : Nat) :
    (addPager s page part).time = s.time ∧ (addPager s page part).cp = s.cp ∧ (addPager s page part).part = s.part ∧
    (addPager s page part).err = s.err ∧ (addPager s page part).pwr = s.pwr ∧ (addPager s page part).mgmt = s.mgmt ∧
    (addPager s page part).boot = s.boot ∧ (addPager s page part).cells = s.cells ∧
    (addPager s page part).mem = s.mem ∧ (addPager s page part).reg = s.reg ∧ (addPager s page part).trans = s.trans ∧
    (addPager s page part).attic = s.attic ∧ (addPager s page part).link = s.link ∧
    (addPager s page part).chord = s.chord ∧ (addPager s page part).fresh = s.fresh ∧
    (addPager s page part).out = s.out ∧ (addPager s page part).pending = s.pending := by
  unfold addPager
  simp

@[simp] theorem dropPager_frame (s : State) (page part : Nat) :
    (dropPager s page part).time = s.time ∧ (dropPager s page part).cp = s.cp ∧
    (dropPager s page part).part = s.part ∧ (dropPager s page part).err = s.err ∧
    (dropPager s page part).pwr = s.pwr ∧ (dropPager s page part).mgmt = s.mgmt ∧
    (dropPager s page part).boot = s.boot ∧ (dropPager s page part).cells = s.cells ∧
    (dropPager s page part).mem = s.mem ∧ (dropPager s page part).reg = s.reg ∧
    (dropPager s page part).trans = s.trans ∧ (dropPager s page part).attic = s.attic ∧
    (dropPager s page part).link = s.link ∧ (dropPager s page part).chord = s.chord ∧
    (dropPager s page part).fresh = s.fresh ∧ (dropPager s page part).out = s.out ∧
    (dropPager s page part).pending = s.pending := by
  unfold dropPager
  simp

@[simp] theorem cleanPage_frame (s : State) (page : Nat) :
    (cleanPage s page).time = s.time ∧ (cleanPage s page).cp = s.cp ∧ (cleanPage s page).part = s.part ∧
    (cleanPage s page).err = s.err ∧ (cleanPage s page).pwr = s.pwr ∧ (cleanPage s page).mgmt = s.mgmt ∧
    (cleanPage s page).boot = s.boot ∧ (cleanPage s page).larder = s.larder ∧ (cleanPage s page).reg = s.reg ∧
    (cleanPage s page).trans = s.trans ∧ (cleanPage s page).attic = s.attic ∧ (cleanPage s page).link = s.link ∧
    (cleanPage s page).chord = s.chord ∧ (cleanPage s page).fresh = s.fresh ∧
    (cleanPage s page).pending = s.pending := by
  unfold cleanPage
  simp

@[simp] theorem beginMoves_frame (s : State) :
    (beginMoves s).time = s.time ∧ (beginMoves s).cp = s.cp ∧ (beginMoves s).part = s.part ∧
    (beginMoves s).err = s.err ∧ (beginMoves s).pwr = s.pwr ∧ (beginMoves s).mgmt = s.mgmt ∧
    (beginMoves s).boot = s.boot ∧ (beginMoves s).reg = s.reg ∧ (beginMoves s).trans = s.trans ∧
    (beginMoves s).attic = s.attic ∧ (beginMoves s).link = s.link ∧ (beginMoves s).chord = s.chord ∧
    (beginMoves s).fresh = s.fresh ∧ (beginMoves s).pending = s.pending := by
  unfold beginMoves
  simp

@[simp] theorem queueMove_frame (s : State) (src : Nat) (r : PoolRange) (step : Option Nat) :
    (queueMove s src r step).time = s.time ∧ (queueMove s src r step).cp = s.cp ∧
    (queueMove s src r step).part = s.part ∧ (queueMove s src r step).err = s.err ∧
    (queueMove s src r step).pwr = s.pwr ∧ (queueMove s src r step).mgmt = s.mgmt ∧
    (queueMove s src r step).boot = s.boot ∧ (queueMove s src r step).cells = s.cells ∧
    (queueMove s src r step).mem = s.mem ∧ (queueMove s src r step).reg = s.reg ∧
    (queueMove s src r step).trans = s.trans ∧ (queueMove s src r step).attic = s.attic ∧
    (queueMove s src r step).link = s.link ∧ (queueMove s src r step).chord = s.chord ∧
    (queueMove s src r step).fresh = s.fresh ∧ (queueMove s src r step).out = s.out ∧
    (queueMove s src r step).pending = s.pending := by
  unfold queueMove
  (try dsimp only)
  (repeat' (split <;> try (rename_i hp; first | (obtain ⟨rfl, rfl⟩ := Prod.ext_iff.mp hp) | (obtain ⟨rfl, hq⟩ := Prod.ext_iff.mp hp; obtain ⟨rfl, rfl⟩ := Prod.ext_iff.mp hq) | (obtain ⟨rfl, hq⟩ := Prod.ext_iff.mp hp; obtain ⟨rfl, _⟩ := Prod.ext_iff.mp hq) | (obtain ⟨_, hq⟩ := Prod.ext_iff.mp hp; obtain ⟨rfl, _⟩ := Prod.ext_iff.mp hq) | (obtain ⟨rfl, _⟩ := Prod.ext_iff.mp hp) | (obtain ⟨_, rfl⟩ := Prod.ext_iff.mp hp)))) <;> first | rfl | (simp; done) | (simp_all; done)

@[simp] theorem cancelMove_frame (s : State) (m : Move) :
    (cancelMove s m).time = s.time ∧ (cancelMove s m).cp = s.cp ∧ (cancelMove s m).part = s.part ∧
    (cancelMove s m).err = s.err ∧ (cancelMove s m).pwr = s.pwr ∧ (cancelMove s m).mgmt = s.mgmt ∧
    (cancelMove s m).boot = s.boot ∧ (cancelMove s m).cells = s.cells ∧ (cancelMove s m).mem = s.mem ∧
    (cancelMove s m).reg = s.reg ∧ (cancelMove s m).trans = s.trans ∧ (cancelMove s m).attic = s.attic ∧
    (cancelMove s m).link = s.link ∧ (cancelMove s m).chord = s.chord ∧ (cancelMove s m).fresh = s.fresh ∧
    (cancelMove s m).out = s.out ∧ (cancelMove s m).pending = s.pending := by
  unfold cancelMove
  (try dsimp only)
  (repeat' (split <;> try (rename_i hp; first | (obtain ⟨rfl, rfl⟩ := Prod.ext_iff.mp hp) | (obtain ⟨rfl, hq⟩ := Prod.ext_iff.mp hp; obtain ⟨rfl, rfl⟩ := Prod.ext_iff.mp hq) | (obtain ⟨rfl, hq⟩ := Prod.ext_iff.mp hp; obtain ⟨rfl, _⟩ := Prod.ext_iff.mp hq) | (obtain ⟨_, hq⟩ := Prod.ext_iff.mp hp; obtain ⟨rfl, _⟩ := Prod.ext_iff.mp hq) | (obtain ⟨rfl, _⟩ := Prod.ext_iff.mp hp) | (obtain ⟨_, rfl⟩ := Prod.ext_iff.mp hp)))) <;> first | rfl | (simp; done) | (simp_all; done)

@[simp] theorem demote_frame (s : State) (p t : Nat) (l : List PoolRange) (want : Nat) :
    (demote s p t l want).time = s.time ∧ (demote s p t l want).cp = s.cp ∧ (demote s p t l want).part = s.part ∧
    (demote s p t l want).err = s.err ∧ (demote s p t l want).pwr = s.pwr ∧ (demote s p t l want).mgmt = s.mgmt ∧
    (demote s p t l want).boot = s.boot ∧ (demote s p t l want).cells = s.cells ∧ (demote s p t l want).mem = s.mem ∧
    (demote s p t l want).reg = s.reg ∧ (demote s p t l want).trans = s.trans ∧
    (demote s p t l want).attic = s.attic ∧ (demote s p t l want).link = s.link ∧
    (demote s p t l want).chord = s.chord ∧ (demote s p t l want).fresh = s.fresh ∧
    (demote s p t l want).out = s.out ∧ (demote s p t l want).pending = s.pending := by
  unfold demote
  (try dsimp only)
  (repeat' (split <;> try (rename_i hp; first | (obtain ⟨rfl, rfl⟩ := Prod.ext_iff.mp hp) | (obtain ⟨rfl, hq⟩ := Prod.ext_iff.mp hp; obtain ⟨rfl, rfl⟩ := Prod.ext_iff.mp hq) | (obtain ⟨rfl, hq⟩ := Prod.ext_iff.mp hp; obtain ⟨rfl, _⟩ := Prod.ext_iff.mp hq) | (obtain ⟨_, hq⟩ := Prod.ext_iff.mp hp; obtain ⟨rfl, _⟩ := Prod.ext_iff.mp hq) | (obtain ⟨rfl, _⟩ := Prod.ext_iff.mp hp) | (obtain ⟨_, rfl⟩ := Prod.ext_iff.mp hp)))) <;> (try simp) <;> (repeat' apply And.intro) <;> (first | apply forEach_time | apply foldl_time | apply forEachFst_time | apply foldlFst_time | apply forEach_cp | apply foldl_cp | apply forEachFst_cp | apply foldlFst_cp | apply forEach_part | apply foldl_part | apply forEachFst_part | apply foldlFst_part | apply forEach_err | apply foldl_err | apply forEachFst_err | apply foldlFst_err | apply forEach_pwr | apply foldl_pwr | apply forEachFst_pwr | apply foldlFst_pwr | apply forEach_mgmt | apply foldl_mgmt | apply forEachFst_mgmt | apply foldlFst_mgmt | apply forEach_boot | apply foldl_boot | apply forEachFst_boot | apply foldlFst_boot | apply forEach_cells | apply foldl_cells | apply forEachFst_cells | apply foldlFst_cells | apply forEach_mem | apply foldl_mem | apply forEachFst_mem | apply foldlFst_mem | apply forEach_reg | apply foldl_reg | apply forEachFst_reg | apply foldlFst_reg | apply forEach_trans | apply foldl_trans | apply forEachFst_trans | apply foldlFst_trans | apply forEach_attic | apply foldl_attic | apply forEachFst_attic | apply foldlFst_attic | apply forEach_link | apply foldl_link | apply forEachFst_link | apply foldlFst_link | apply forEach_chord | apply foldl_chord | apply forEachFst_chord | apply foldlFst_chord | apply forEach_fresh | apply foldl_fresh | apply forEachFst_fresh | apply foldlFst_fresh | apply forEach_out | apply foldl_out | apply forEachFst_out | apply foldlFst_out | apply forEach_pending | apply foldl_pending | apply forEachFst_pending | apply foldlFst_pending) <;> intro _ _ <;> (try dsimp only) <;> (repeat' (split <;> try (rename_i hp; first | (obtain ⟨rfl, rfl⟩ := Prod.ext_iff.mp hp) | (obtain ⟨rfl, hq⟩ := Prod.ext_iff.mp hp; obtain ⟨rfl, rfl⟩ := Prod.ext_iff.mp hq) | (obtain ⟨rfl, hq⟩ := Prod.ext_iff.mp hp; obtain ⟨rfl, _⟩ := Prod.ext_iff.mp hq) | (obtain ⟨_, hq⟩ := Prod.ext_iff.mp hp; obtain ⟨rfl, _⟩ := Prod.ext_iff.mp hq) | (obtain ⟨rfl, _⟩ := Prod.ext_iff.mp hp) | (obtain ⟨_, rfl⟩ := Prod.ext_iff.mp hp)))) <;> first | rfl | (simp; done) | (simp_all; done)

@[simp] theorem lowWater_frame (s : State) (p t : Nat) :
    (lowWater s p t).time = s.time ∧ (lowWater s p t).cp = s.cp ∧ (lowWater s p t).part = s.part ∧
    (lowWater s p t).err = s.err ∧ (lowWater s p t).pwr = s.pwr ∧ (lowWater s p t).mgmt = s.mgmt ∧
    (lowWater s p t).boot = s.boot ∧ (lowWater s p t).cells = s.cells ∧ (lowWater s p t).mem = s.mem ∧
    (lowWater s p t).reg = s.reg ∧ (lowWater s p t).trans = s.trans ∧ (lowWater s p t).attic = s.attic ∧
    (lowWater s p t).link = s.link ∧ (lowWater s p t).chord = s.chord ∧ (lowWater s p t).fresh = s.fresh ∧
    (lowWater s p t).out = s.out ∧ (lowWater s p t).pending = s.pending := by
  unfold lowWater
  simp

@[simp] theorem makeRoom_frame (s : State) (p allowed : Nat) (cellar : Bool) (last : Option Nat) :
    (makeRoom s p allowed cellar last).time = s.time ∧ (makeRoom s p allowed cellar last).cp = s.cp ∧
    (makeRoom s p allowed cellar last).part = s.part ∧ (makeRoom s p allowed cellar last).err = s.err ∧
    (makeRoom s p allowed cellar last).pwr = s.pwr ∧ (makeRoom s p allowed cellar last).mgmt = s.mgmt ∧
    (makeRoom s p allowed cellar last).boot = s.boot ∧ (makeRoom s p allowed cellar last).cells = s.cells ∧
    (makeRoom s p allowed cellar last).mem = s.mem ∧ (makeRoom s p allowed cellar last).reg = s.reg ∧
    (makeRoom s p allowed cellar last).trans = s.trans ∧ (makeRoom s p allowed cellar last).attic = s.attic ∧
    (makeRoom s p allowed cellar last).link = s.link ∧ (makeRoom s p allowed cellar last).chord = s.chord ∧
    (makeRoom s p allowed cellar last).fresh = s.fresh ∧ (makeRoom s p allowed cellar last).out = s.out ∧
    (makeRoom s p allowed cellar last).pending = s.pending := by
  unfold makeRoom
  (try dsimp only)
  (repeat' (split <;> try (rename_i hp; first | (obtain ⟨rfl, rfl⟩ := Prod.ext_iff.mp hp) | (obtain ⟨rfl, hq⟩ := Prod.ext_iff.mp hp; obtain ⟨rfl, rfl⟩ := Prod.ext_iff.mp hq) | (obtain ⟨rfl, hq⟩ := Prod.ext_iff.mp hp; obtain ⟨rfl, _⟩ := Prod.ext_iff.mp hq) | (obtain ⟨_, hq⟩ := Prod.ext_iff.mp hp; obtain ⟨rfl, _⟩ := Prod.ext_iff.mp hq) | (obtain ⟨rfl, _⟩ := Prod.ext_iff.mp hp) | (obtain ⟨_, rfl⟩ := Prod.ext_iff.mp hp)))) <;> first | rfl | (simp; done) | (simp_all; done)

@[simp] theorem allocPage_frame (s : State) (slot q page allowed : Nat) (cellar : Bool) :
    (allocPage s slot q page allowed cellar).time = s.time ∧ (allocPage s slot q page allowed cellar).cp = s.cp ∧
    (allocPage s slot q page allowed cellar).part = s.part ∧ (allocPage s slot q page allowed cellar).err = s.err ∧
    (allocPage s slot q page allowed cellar).pwr = s.pwr ∧ (allocPage s slot q page allowed cellar).mgmt = s.mgmt ∧
    (allocPage s slot q page allowed cellar).boot = s.boot ∧
    (allocPage s slot q page allowed cellar).cells = s.cells ∧ (allocPage s slot q page allowed cellar).mem = s.mem ∧
    (allocPage s slot q page allowed cellar).reg = s.reg ∧ (allocPage s slot q page allowed cellar).trans = s.trans ∧
    (allocPage s slot q page allowed cellar).attic = s.attic ∧
    (allocPage s slot q page allowed cellar).link = s.link ∧
    (allocPage s slot q page allowed cellar).chord = s.chord ∧
    (allocPage s slot q page allowed cellar).fresh = s.fresh ∧ (allocPage s slot q page allowed cellar).out = s.out ∧
    (allocPage s slot q page allowed cellar).pending = s.pending := by
  unfold allocPage
  (try dsimp only)
  (repeat' (split <;> try (rename_i hp; first | (obtain ⟨rfl, rfl⟩ := Prod.ext_iff.mp hp) | (obtain ⟨rfl, hq⟩ := Prod.ext_iff.mp hp; obtain ⟨rfl, rfl⟩ := Prod.ext_iff.mp hq) | (obtain ⟨rfl, hq⟩ := Prod.ext_iff.mp hp; obtain ⟨rfl, _⟩ := Prod.ext_iff.mp hq) | (obtain ⟨_, hq⟩ := Prod.ext_iff.mp hp; obtain ⟨rfl, _⟩ := Prod.ext_iff.mp hq) | (obtain ⟨rfl, _⟩ := Prod.ext_iff.mp hp) | (obtain ⟨_, rfl⟩ := Prod.ext_iff.mp hp)))) <;> first | rfl | (simp; done) | (simp_all; done)

@[simp] theorem promotePage_frame (s : State) (slot q hp allowed : Nat) (cellar : Bool) :
    (promotePage s slot q hp allowed cellar).time = s.time ∧ (promotePage s slot q hp allowed cellar).cp = s.cp ∧
    (promotePage s slot q hp allowed cellar).part = s.part ∧ (promotePage s slot q hp allowed cellar).err = s.err ∧
    (promotePage s slot q hp allowed cellar).pwr = s.pwr ∧ (promotePage s slot q hp allowed cellar).mgmt = s.mgmt ∧
    (promotePage s slot q hp allowed cellar).boot = s.boot ∧
    (promotePage s slot q hp allowed cellar).cells = s.cells ∧ (promotePage s slot q hp allowed cellar).mem = s.mem ∧
    (promotePage s slot q hp allowed cellar).reg = s.reg ∧ (promotePage s slot q hp allowed cellar).trans = s.trans ∧
    (promotePage s slot q hp allowed cellar).attic = s.attic ∧
    (promotePage s slot q hp allowed cellar).link = s.link ∧
    (promotePage s slot q hp allowed cellar).chord = s.chord ∧
    (promotePage s slot q hp allowed cellar).fresh = s.fresh ∧ (promotePage s slot q hp allowed cellar).out = s.out ∧
    (promotePage s slot q hp allowed cellar).pending = s.pending := by
  unfold promotePage
  (try dsimp only)
  (repeat' (split <;> try (rename_i hp; first | (obtain ⟨rfl, rfl⟩ := Prod.ext_iff.mp hp) | (obtain ⟨rfl, hq⟩ := Prod.ext_iff.mp hp; obtain ⟨rfl, rfl⟩ := Prod.ext_iff.mp hq) | (obtain ⟨rfl, hq⟩ := Prod.ext_iff.mp hp; obtain ⟨rfl, _⟩ := Prod.ext_iff.mp hq) | (obtain ⟨_, hq⟩ := Prod.ext_iff.mp hp; obtain ⟨rfl, _⟩ := Prod.ext_iff.mp hq) | (obtain ⟨rfl, _⟩ := Prod.ext_iff.mp hp) | (obtain ⟨_, rfl⟩ := Prod.ext_iff.mp hp)))) <;> first | rfl | (simp; done) | (simp_all; done)

@[simp] theorem retirePage_frame (s : State) (page : Nat) :
    (retirePage s page).time = s.time ∧ (retirePage s page).cp = s.cp ∧ (retirePage s page).part = s.part ∧
    (retirePage s page).pwr = s.pwr ∧ (retirePage s page).mgmt = s.mgmt ∧ (retirePage s page).boot = s.boot ∧
    (retirePage s page).cells = s.cells ∧ (retirePage s page).mem = s.mem ∧ (retirePage s page).reg = s.reg ∧
    (retirePage s page).trans = s.trans ∧ (retirePage s page).attic = s.attic ∧ (retirePage s page).link = s.link ∧
    (retirePage s page).chord = s.chord ∧ (retirePage s page).fresh = s.fresh ∧ (retirePage s page).out = s.out ∧
    (retirePage s page).pending = s.pending := by
  unfold retirePage
  simp

@[simp] theorem givePage_frame (s : State) (page : Nat) :
    (givePage s page).time = s.time ∧ (givePage s page).cp = s.cp ∧ (givePage s page).part = s.part ∧
    (givePage s page).pwr = s.pwr ∧ (givePage s page).mgmt = s.mgmt ∧ (givePage s page).boot = s.boot ∧
    (givePage s page).cells = s.cells ∧ (givePage s page).mem = s.mem ∧ (givePage s page).reg = s.reg ∧
    (givePage s page).trans = s.trans ∧ (givePage s page).attic = s.attic ∧ (givePage s page).link = s.link ∧
    (givePage s page).chord = s.chord ∧ (givePage s page).fresh = s.fresh ∧ (givePage s page).out = s.out ∧
    (givePage s page).pending = s.pending := by
  unfold givePage
  simp

@[simp] theorem losePagesOf_frame (s : State) (part : Nat) (r : PoolRange → Nat → Bool) :
    (losePagesOf s part r).time = s.time ∧ (losePagesOf s part r).part = s.part ∧ (losePagesOf s part r).pwr = s.pwr ∧
    (losePagesOf s part r).boot = s.boot ∧ (losePagesOf s part r).cells = s.cells ∧
    (losePagesOf s part r).mem = s.mem ∧ (losePagesOf s part r).reg = s.reg ∧ (losePagesOf s part r).trans = s.trans ∧
    (losePagesOf s part r).attic = s.attic ∧ (losePagesOf s part r).link = s.link ∧
    (losePagesOf s part r).chord = s.chord ∧ (losePagesOf s part r).fresh = s.fresh ∧
    (losePagesOf s part r).pending = s.pending := by
  unfold losePagesOf
  (try dsimp only)
  (repeat' (split <;> try (rename_i hp; first | (obtain ⟨rfl, rfl⟩ := Prod.ext_iff.mp hp) | (obtain ⟨rfl, hq⟩ := Prod.ext_iff.mp hp; obtain ⟨rfl, rfl⟩ := Prod.ext_iff.mp hq) | (obtain ⟨rfl, hq⟩ := Prod.ext_iff.mp hp; obtain ⟨rfl, _⟩ := Prod.ext_iff.mp hq) | (obtain ⟨_, hq⟩ := Prod.ext_iff.mp hp; obtain ⟨rfl, _⟩ := Prod.ext_iff.mp hq) | (obtain ⟨rfl, _⟩ := Prod.ext_iff.mp hp) | (obtain ⟨_, rfl⟩ := Prod.ext_iff.mp hp)))) <;> first | rfl | (simp; done) | (simp_all; done)

@[simp] theorem losePages_frame (s : State) (r : PoolRange → Nat → Bool) :
    (losePages s r).time = s.time ∧ (losePages s r).part = s.part ∧ (losePages s r).pwr = s.pwr ∧
    (losePages s r).boot = s.boot ∧ (losePages s r).cells = s.cells ∧ (losePages s r).mem = s.mem ∧
    (losePages s r).reg = s.reg ∧ (losePages s r).trans = s.trans ∧ (losePages s r).attic = s.attic ∧
    (losePages s r).link = s.link ∧ (losePages s r).chord = s.chord ∧ (losePages s r).fresh = s.fresh ∧
    (losePages s r).pending = s.pending := by
  unfold losePages
  simp

@[simp] theorem retireMove_frame (s : State) (page : Nat) :
    (retireMove s page).time = s.time ∧ (retireMove s page).cp = s.cp ∧ (retireMove s page).part = s.part ∧
    (retireMove s page).err = s.err ∧ (retireMove s page).pwr = s.pwr ∧ (retireMove s page).mgmt = s.mgmt ∧
    (retireMove s page).boot = s.boot ∧ (retireMove s page).reg = s.reg ∧ (retireMove s page).trans = s.trans ∧
    (retireMove s page).attic = s.attic ∧ (retireMove s page).link = s.link ∧ (retireMove s page).chord = s.chord ∧
    (retireMove s page).fresh = s.fresh ∧ (retireMove s page).pending = s.pending := by
  unfold retireMove
  (try dsimp only)
  (repeat' (split <;> try (rename_i hp; first | (obtain ⟨rfl, rfl⟩ := Prod.ext_iff.mp hp) | (obtain ⟨rfl, hq⟩ := Prod.ext_iff.mp hp; obtain ⟨rfl, rfl⟩ := Prod.ext_iff.mp hq) | (obtain ⟨rfl, hq⟩ := Prod.ext_iff.mp hp; obtain ⟨rfl, _⟩ := Prod.ext_iff.mp hq) | (obtain ⟨_, hq⟩ := Prod.ext_iff.mp hp; obtain ⟨rfl, _⟩ := Prod.ext_iff.mp hq) | (obtain ⟨rfl, _⟩ := Prod.ext_iff.mp hp) | (obtain ⟨_, rfl⟩ := Prod.ext_iff.mp hp)))) <;> first | rfl | (simp; done) | (simp_all; done)

@[simp] theorem freeSeq_frame (s : State) (q : Nat) :
    (freeSeq s q).1.time = s.time ∧ (freeSeq s q).1.cp = s.cp ∧ (freeSeq s q).1.part = s.part ∧
    (freeSeq s q).1.pwr = s.pwr ∧ (freeSeq s q).1.mgmt = s.mgmt ∧ (freeSeq s q).1.boot = s.boot ∧
    (freeSeq s q).1.reg = s.reg ∧ (freeSeq s q).1.trans = s.trans ∧ (freeSeq s q).1.attic = s.attic ∧
    (freeSeq s q).1.link = s.link ∧ (freeSeq s q).1.chord = s.chord ∧ (freeSeq s q).1.fresh = s.fresh ∧
    (freeSeq s q).1.pending = s.pending := by
  unfold freeSeq
  simp

@[simp] theorem beginClose_frame (s : State) (q seq : Nat) (cancel : Bool) :
    (beginClose s q seq cancel).time = s.time ∧ (beginClose s q seq cancel).cp = s.cp ∧
    (beginClose s q seq cancel).part = s.part ∧ (beginClose s q seq cancel).err = s.err ∧
    (beginClose s q seq cancel).pwr = s.pwr ∧ (beginClose s q seq cancel).mgmt = s.mgmt ∧
    (beginClose s q seq cancel).boot = s.boot ∧ (beginClose s q seq cancel).cells = s.cells ∧
    (beginClose s q seq cancel).mem = s.mem ∧ (beginClose s q seq cancel).reg = s.reg ∧
    (beginClose s q seq cancel).trans = s.trans ∧ (beginClose s q seq cancel).attic = s.attic ∧
    (beginClose s q seq cancel).link = s.link ∧ (beginClose s q seq cancel).chord = s.chord ∧
    (beginClose s q seq cancel).fresh = s.fresh ∧ (beginClose s q seq cancel).out = s.out ∧
    (beginClose s q seq cancel).pending = s.pending := by
  unfold beginClose
  simp

@[simp] theorem landMove_frame (s : State) (m : Move) :
    (landMove s m).time = s.time ∧ (landMove s m).cp = s.cp ∧ (landMove s m).part = s.part ∧
    (landMove s m).pwr = s.pwr ∧ (landMove s m).mgmt = s.mgmt ∧ (landMove s m).boot = s.boot ∧
    (landMove s m).reg = s.reg ∧ (landMove s m).trans = s.trans ∧ (landMove s m).attic = s.attic ∧
    (landMove s m).link = s.link ∧ (landMove s m).chord = s.chord ∧ (landMove s m).fresh = s.fresh ∧
    (landMove s m).pending = s.pending := by
  unfold landMove
  simp

@[simp] theorem zeroedPage_frame (s : State) (page : Nat) :
    (zeroedPage s page).time = s.time ∧ (zeroedPage s page).cp = s.cp ∧ (zeroedPage s page).part = s.part ∧
    (zeroedPage s page).err = s.err ∧ (zeroedPage s page).pwr = s.pwr ∧ (zeroedPage s page).mgmt = s.mgmt ∧
    (zeroedPage s page).boot = s.boot ∧ (zeroedPage s page).cells = s.cells ∧ (zeroedPage s page).mem = s.mem ∧
    (zeroedPage s page).reg = s.reg ∧ (zeroedPage s page).trans = s.trans ∧ (zeroedPage s page).attic = s.attic ∧
    (zeroedPage s page).link = s.link ∧ (zeroedPage s page).chord = s.chord ∧ (zeroedPage s page).fresh = s.fresh ∧
    (zeroedPage s page).out = s.out ∧ (zeroedPage s page).pending = s.pending := by
  unfold zeroedPage
  simp

end Sys2Proof.Machine
end

