-- ==== Sys2Proof/Laws/FrameWays.lean ====
section
/-! SUPPORT. What each operation of Machine/Ways.lean leaves as it was, by component of the state. -/
set_option maxRecDepth 4000
set_option exponentiation.threshold 2000
namespace Sys2Proof.Machine

@[simp] theorem putDefect_frame (s : State) (d : Defect) :
    (putDefect s d).time = s.time ∧ (putDefect s d).cp = s.cp ∧ (putDefect s d).part = s.part ∧
    (putDefect s d).err = s.err ∧ (putDefect s d).pwr = s.pwr ∧ (putDefect s d).mgmt = s.mgmt ∧
    (putDefect s d).cells = s.cells ∧ (putDefect s d).mem = s.mem ∧ (putDefect s d).larder = s.larder ∧
    (putDefect s d).reg = s.reg ∧ (putDefect s d).trans = s.trans ∧ (putDefect s d).attic = s.attic ∧
    (putDefect s d).link = s.link ∧ (putDefect s d).chord = s.chord ∧ (putDefect s d).fresh = s.fresh ∧
    (putDefect s d).out = s.out ∧ (putDefect s d).pending = s.pending := by
  unfold putDefect
  simp

@[simp] theorem addDefect_frame (s : State) (d : Defect) :
    (addDefect s d).time = s.time ∧ (addDefect s d).cp = s.cp ∧ (addDefect s d).part = s.part ∧
    (addDefect s d).err = s.err ∧ (addDefect s d).pwr = s.pwr ∧ (addDefect s d).mgmt = s.mgmt ∧
    (addDefect s d).cells = s.cells ∧ (addDefect s d).mem = s.mem ∧ (addDefect s d).larder = s.larder ∧
    (addDefect s d).reg = s.reg ∧ (addDefect s d).trans = s.trans ∧ (addDefect s d).attic = s.attic ∧
    (addDefect s d).link = s.link ∧ (addDefect s d).chord = s.chord ∧ (addDefect s d).fresh = s.fresh ∧
    (addDefect s d).out = s.out ∧ (addDefect s d).pending = s.pending := by
  unfold addDefect
  simp

@[simp] theorem dropDefects_frame (s : State) (p : Defect → Bool) :
    (dropDefects s p).time = s.time ∧ (dropDefects s p).cp = s.cp ∧ (dropDefects s p).part = s.part ∧
    (dropDefects s p).err = s.err ∧ (dropDefects s p).pwr = s.pwr ∧ (dropDefects s p).mgmt = s.mgmt ∧
    (dropDefects s p).cells = s.cells ∧ (dropDefects s p).mem = s.mem ∧ (dropDefects s p).larder = s.larder ∧
    (dropDefects s p).reg = s.reg ∧ (dropDefects s p).trans = s.trans ∧ (dropDefects s p).attic = s.attic ∧
    (dropDefects s p).link = s.link ∧ (dropDefects s p).chord = s.chord ∧ (dropDefects s p).fresh = s.fresh ∧
    (dropDefects s p).out = s.out ∧ (dropDefects s p).pending = s.pending := by
  unfold dropDefects
  simp

@[simp] theorem raiseWay_frame (s : State) (c cls : Nat) (det : Nat) :
    (raiseWay s c cls det).time = s.time ∧ (raiseWay s c cls det).part = s.part ∧ (raiseWay s c cls det).err = s.err ∧
    (raiseWay s c cls det).pwr = s.pwr ∧ (raiseWay s c cls det).boot = s.boot ∧
    (raiseWay s c cls det).cells = s.cells ∧ (raiseWay s c cls det).mem = s.mem ∧
    (raiseWay s c cls det).larder = s.larder ∧ (raiseWay s c cls det).reg = s.reg ∧
    (raiseWay s c cls det).trans = s.trans ∧ (raiseWay s c cls det).attic = s.attic ∧
    (raiseWay s c cls det).link = s.link ∧ (raiseWay s c cls det).chord = s.chord ∧
    (raiseWay s c cls det).fresh = s.fresh ∧ (raiseWay s c cls det).pending = s.pending := by
  unfold raiseWay
  simp

@[simp] theorem recordWay_frame (s : State) (c cls idx sub : Nat) :
    (recordWay s c cls idx sub).time = s.time ∧ (recordWay s c cls idx sub).part = s.part ∧
    (recordWay s c cls idx sub).pwr = s.pwr ∧ (recordWay s c cls idx sub).boot = s.boot ∧
    (recordWay s c cls idx sub).cells = s.cells ∧ (recordWay s c cls idx sub).mem = s.mem ∧
    (recordWay s c cls idx sub).larder = s.larder ∧ (recordWay s c cls idx sub).reg = s.reg ∧
    (recordWay s c cls idx sub).trans = s.trans ∧ (recordWay s c cls idx sub).attic = s.attic ∧
    (recordWay s c cls idx sub).link = s.link ∧ (recordWay s c cls idx sub).chord = s.chord ∧
    (recordWay s c cls idx sub).fresh = s.fresh ∧ (recordWay s c cls idx sub).pending = s.pending := by
  unfold recordWay
  simp

@[simp] theorem modBank_frame (s : State) (c b : Nat) (f : Bank → Bank) :
    (modBank s c b f).time = s.time ∧ (modBank s c b f).cp = s.cp ∧ (modBank s c b f).part = s.part ∧
    (modBank s c b f).err = s.err ∧ (modBank s c b f).pwr = s.pwr ∧ (modBank s c b f).mgmt = s.mgmt ∧
    (modBank s c b f).boot = s.boot ∧ (modBank s c b f).mem = s.mem ∧ (modBank s c b f).larder = s.larder ∧
    (modBank s c b f).reg = s.reg ∧ (modBank s c b f).trans = s.trans ∧ (modBank s c b f).attic = s.attic ∧
    (modBank s c b f).link = s.link ∧ (modBank s c b f).chord = s.chord ∧ (modBank s c b f).fresh = s.fresh ∧
    (modBank s c b f).out = s.out ∧ (modBank s c b f).pending = s.pending := by
  unfold modBank
  simp

@[simp] theorem disableCellarWay_frame (s : State) (c b w : Nat) :
    (disableCellarWay s c b w).time = s.time ∧ (disableCellarWay s c b w).part = s.part ∧
    (disableCellarWay s c b w).pwr = s.pwr ∧ (disableCellarWay s c b w).larder = s.larder ∧
    (disableCellarWay s c b w).reg = s.reg ∧ (disableCellarWay s c b w).trans = s.trans ∧
    (disableCellarWay s c b w).attic = s.attic ∧ (disableCellarWay s c b w).link = s.link ∧
    (disableCellarWay s c b w).chord = s.chord ∧ (disableCellarWay s c b w).fresh = s.fresh ∧
    (disableCellarWay s c b w).pending = s.pending := by
  unfold disableCellarWay
  simp

@[simp] theorem disableCoreWay_frame (s : State) (k w : Nat) :
    (disableCoreWay s k w).time = s.time ∧ (disableCoreWay s k w).part = s.part ∧ (disableCoreWay s k w).pwr = s.pwr ∧
    (disableCoreWay s k w).larder = s.larder ∧ (disableCoreWay s k w).reg = s.reg ∧
    (disableCoreWay s k w).trans = s.trans ∧ (disableCoreWay s k w).attic = s.attic ∧
    (disableCoreWay s k w).link = s.link ∧ (disableCoreWay s k w).chord = s.chord ∧
    (disableCoreWay s k w).fresh = s.fresh ∧ (disableCoreWay s k w).pending = s.pending := by
  unfold disableCoreWay
  simp

@[simp] theorem settleCellarWays_frame (s : State) (c : Nat) :
    (settleCellarWays s c).time = s.time ∧ (settleCellarWays s c).part = s.part ∧ (settleCellarWays s c).pwr = s.pwr ∧
    (settleCellarWays s c).larder = s.larder ∧ (settleCellarWays s c).reg = s.reg ∧
    (settleCellarWays s c).trans = s.trans ∧ (settleCellarWays s c).attic = s.attic ∧
    (settleCellarWays s c).link = s.link ∧ (settleCellarWays s c).chord = s.chord ∧
    (settleCellarWays s c).fresh = s.fresh ∧ (settleCellarWays s c).pending = s.pending := by
  unfold settleCellarWays
  simp

@[simp] theorem settleCoreWays_frame (s : State) (k : Nat) :
    (settleCoreWays s k).time = s.time ∧ (settleCoreWays s k).part = s.part ∧ (settleCoreWays s k).pwr = s.pwr ∧
    (settleCoreWays s k).larder = s.larder ∧ (settleCoreWays s k).reg = s.reg ∧ (settleCoreWays s k).trans = s.trans ∧
    (settleCoreWays s k).attic = s.attic ∧ (settleCoreWays s k).link = s.link ∧ (settleCoreWays s k).chord = s.chord ∧
    (settleCoreWays s k).fresh = s.fresh ∧ (settleCoreWays s k).pending = s.pending := by
  unfold settleCoreWays
  simp

@[simp] theorem dropBanks_frame (s : State) (c : Nat) :
    (dropBanks s c).time = s.time ∧ (dropBanks s c).part = s.part ∧ (dropBanks s c).pwr = s.pwr ∧
    (dropBanks s c).boot = s.boot ∧ (dropBanks s c).larder = s.larder ∧ (dropBanks s c).reg = s.reg ∧
    (dropBanks s c).trans = s.trans ∧ (dropBanks s c).attic = s.attic ∧ (dropBanks s c).link = s.link ∧
    (dropBanks s c).chord = s.chord ∧ (dropBanks s c).fresh = s.fresh ∧ (dropBanks s c).pending = s.pending := by
  unfold dropBanks
  simp

@[simp] theorem boundaryBanks_frame (s : State) :
    (boundaryBanks s).time = s.time ∧ (boundaryBanks s).part = s.part ∧ (boundaryBanks s).pwr = s.pwr ∧
    (boundaryBanks s).boot = s.boot ∧ (boundaryBanks s).larder = s.larder ∧ (boundaryBanks s).reg = s.reg ∧
    (boundaryBanks s).trans = s.trans ∧ (boundaryBanks s).attic = s.attic ∧ (boundaryBanks s).link = s.link ∧
    (boundaryBanks s).chord = s.chord ∧ (boundaryBanks s).fresh = s.fresh ∧
    (boundaryBanks s).pending = s.pending := by
  unfold boundaryBanks
  simp

@[simp] theorem retireByState_frame (s : State) (page : Nat) (x : Option Page) (inPool : Bool) :
    (retireByState s page x inPool).time = s.time ∧ (retireByState s page x inPool).cp = s.cp ∧
    (retireByState s page x inPool).part = s.part ∧ (retireByState s page x inPool).pwr = s.pwr ∧
    (retireByState s page x inPool).mgmt = s.mgmt ∧ (retireByState s page x inPool).boot = s.boot ∧
    (retireByState s page x inPool).reg = s.reg ∧ (retireByState s page x inPool).trans = s.trans ∧
    (retireByState s page x inPool).attic = s.attic ∧ (retireByState s page x inPool).link = s.link ∧
    (retireByState s page x inPool).chord = s.chord ∧ (retireByState s page x inPool).fresh = s.fresh ∧
    (retireByState s page x inPool).pending = s.pending := by
  unfold retireByState
  (try dsimp only)
  (repeat' (split <;> try (rename_i hp; first | (obtain ⟨rfl, rfl⟩ := Prod.ext_iff.mp hp) | (obtain ⟨rfl, hq⟩ := Prod.ext_iff.mp hp; obtain ⟨rfl, rfl⟩ := Prod.ext_iff.mp hq) | (obtain ⟨rfl, hq⟩ := Prod.ext_iff.mp hp; obtain ⟨rfl, _⟩ := Prod.ext_iff.mp hq) | (obtain ⟨_, hq⟩ := Prod.ext_iff.mp hp; obtain ⟨rfl, _⟩ := Prod.ext_iff.mp hq) | (obtain ⟨rfl, _⟩ := Prod.ext_iff.mp hp) | (obtain ⟨_, rfl⟩ := Prod.ext_iff.mp hp)))) <;> first | rfl | (simp; done) | (simp_all; done)

@[simp] theorem reportRetired_frame (s : State) (page row p : Nat) :
    (reportRetired s page row p).time = s.time ∧ (reportRetired s page row p).pwr = s.pwr ∧
    (reportRetired s page row p).cells = s.cells ∧ (reportRetired s page row p).mem = s.mem ∧
    (reportRetired s page row p).larder = s.larder ∧ (reportRetired s page row p).reg = s.reg ∧
    (reportRetired s page row p).trans = s.trans ∧ (reportRetired s page row p).attic = s.attic ∧
    (reportRetired s page row p).link = s.link ∧ (reportRetired s page row p).chord = s.chord ∧
    (reportRetired s page row p).pending = s.pending := by
  unfold reportRetired
  simp

@[simp] theorem retireShelfPage_frame (s : State) (page row : Nat) :
    (retireShelfPage s page row).time = s.time ∧ (retireShelfPage s page row).pwr = s.pwr ∧
    (retireShelfPage s page row).reg = s.reg ∧ (retireShelfPage s page row).trans = s.trans ∧
    (retireShelfPage s page row).attic = s.attic ∧ (retireShelfPage s page row).link = s.link ∧
    (retireShelfPage s page row).chord = s.chord ∧ (retireShelfPage s page row).pending = s.pending := by
  unfold retireShelfPage
  simp

@[simp] theorem retireRow_frame (s : State) (n row : Nat) (addr : Option Nat) :
    (retireRow s n row addr).time = s.time ∧ (retireRow s n row addr).pwr = s.pwr ∧
    (retireRow s n row addr).reg = s.reg ∧ (retireRow s n row addr).trans = s.trans ∧
    (retireRow s n row addr).attic = s.attic ∧ (retireRow s n row addr).link = s.link ∧
    (retireRow s n row addr).chord = s.chord ∧ (retireRow s n row addr).pending = s.pending := by
  unfold retireRow
  simp

end Sys2Proof.Machine
end

