-- ==== Sys2Proof/Laws/FrameSteps.lean ====
section
/-! SUPPORT. What each operation of Machine/Steps.lean leaves as it was, by component of the state. -/
set_option maxRecDepth 4000
set_option exponentiation.threshold 2000
namespace Sys2Proof.Machine

@[simp] theorem larderError_frame (s : State) (slot : Nat) (st : Step) (a : Nat) :
    (larderError s slot st a).time = s.time ∧ (larderError s slot st a).part = s.part ∧
    (larderError s slot st a).pwr = s.pwr ∧ (larderError s slot st a).boot = s.boot ∧
    (larderError s slot st a).cells = s.cells ∧ (larderError s slot st a).mem = s.mem ∧
    (larderError s slot st a).reg = s.reg ∧ (larderError s slot st a).trans = s.trans ∧
    (larderError s slot st a).attic = s.attic ∧ (larderError s slot st a).link = s.link ∧
    (larderError s slot st a).chord = s.chord ∧ (larderError s slot st a).fresh = s.fresh ∧
    (larderError s slot st a).pending = s.pending := by
  unfold larderError
  simp

@[simp] theorem larderWrite_frame (s : State) (slot : Nat) (st : Step) (a : Nat) (b : Bytes) :
    (larderWrite s slot st a b).time = s.time ∧ (larderWrite s slot st a b).part = s.part ∧
    (larderWrite s slot st a b).pwr = s.pwr ∧ (larderWrite s slot st a b).boot = s.boot ∧
    (larderWrite s slot st a b).trans = s.trans ∧ (larderWrite s slot st a b).attic = s.attic ∧
    (larderWrite s slot st a b).link = s.link ∧ (larderWrite s slot st a b).chord = s.chord ∧
    (larderWrite s slot st a b).fresh = s.fresh ∧ (larderWrite s slot st a b).pending = s.pending := by
  unfold larderWrite
  simp

@[simp] theorem exitMapReady_frame (s : State) (slot : Nat) (st : Step) :
    (exitMapReady s slot st).1.time = s.time ∧ (exitMapReady s slot st).1.cp = s.cp ∧
    (exitMapReady s slot st).1.part = s.part ∧ (exitMapReady s slot st).1.err = s.err ∧
    (exitMapReady s slot st).1.pwr = s.pwr ∧ (exitMapReady s slot st).1.mgmt = s.mgmt ∧
    (exitMapReady s slot st).1.boot = s.boot ∧ (exitMapReady s slot st).1.reg = s.reg ∧
    (exitMapReady s slot st).1.trans = s.trans ∧ (exitMapReady s slot st).1.attic = s.attic ∧
    (exitMapReady s slot st).1.link = s.link ∧ (exitMapReady s slot st).1.chord = s.chord ∧
    (exitMapReady s slot st).1.fresh = s.fresh ∧ (exitMapReady s slot st).1.out = s.out ∧
    (exitMapReady s slot st).1.pending = s.pending := by
  unfold exitMapReady
  (try dsimp only)
  (repeat' (split <;> try (rename_i hp; first | (obtain ⟨rfl, rfl⟩ := Prod.ext_iff.mp hp) | (obtain ⟨rfl, hq⟩ := Prod.ext_iff.mp hp; obtain ⟨rfl, rfl⟩ := Prod.ext_iff.mp hq) | (obtain ⟨rfl, hq⟩ := Prod.ext_iff.mp hp; obtain ⟨rfl, _⟩ := Prod.ext_iff.mp hq) | (obtain ⟨_, hq⟩ := Prod.ext_iff.mp hp; obtain ⟨rfl, _⟩ := Prod.ext_iff.mp hq) | (obtain ⟨rfl, _⟩ := Prod.ext_iff.mp hp) | (obtain ⟨_, rfl⟩ := Prod.ext_iff.mp hp)))) <;> first | rfl | (simp; done) | (simp_all; done)

@[simp] theorem readExitMap_frame (s : State) (slot : Nat) (st : Step) :
    (readExitMap s slot st).time = s.time ∧ (readExitMap s slot st).cp = s.cp ∧
    (readExitMap s slot st).part = s.part ∧ (readExitMap s slot st).err = s.err ∧
    (readExitMap s slot st).pwr = s.pwr ∧ (readExitMap s slot st).mgmt = s.mgmt ∧
    (readExitMap s slot st).boot = s.boot ∧ (readExitMap s slot st).cells = s.cells ∧
    (readExitMap s slot st).mem = s.mem ∧ (readExitMap s slot st).trans = s.trans ∧
    (readExitMap s slot st).attic = s.attic ∧ (readExitMap s slot st).link = s.link ∧
    (readExitMap s slot st).chord = s.chord ∧ (readExitMap s slot st).fresh = s.fresh ∧
    (readExitMap s slot st).out = s.out ∧ (readExitMap s slot st).pending = s.pending := by
  unfold readExitMap
  simp

@[simp] theorem unpinPage_frame (s : State) (page : Nat) :
    (unpinPage s page).time = s.time ∧ (unpinPage s page).cp = s.cp ∧ (unpinPage s page).part = s.part ∧
    (unpinPage s page).err = s.err ∧ (unpinPage s page).pwr = s.pwr ∧ (unpinPage s page).mgmt = s.mgmt ∧
    (unpinPage s page).boot = s.boot ∧ (unpinPage s page).reg = s.reg ∧ (unpinPage s page).trans = s.trans ∧
    (unpinPage s page).attic = s.attic ∧ (unpinPage s page).link = s.link ∧ (unpinPage s page).chord = s.chord ∧
    (unpinPage s page).fresh = s.fresh ∧ (unpinPage s page).pending = s.pending := by
  unfold unpinPage
  simp

@[simp] theorem freeCores_frame (s : State) (slot : Nat) :
    (freeCores s slot).time = s.time ∧ (freeCores s slot).cp = s.cp ∧ (freeCores s slot).part = s.part ∧
    (freeCores s slot).err = s.err ∧ (freeCores s slot).pwr = s.pwr ∧ (freeCores s slot).mgmt = s.mgmt ∧
    (freeCores s slot).boot = s.boot ∧ (freeCores s slot).mem = s.mem ∧ (freeCores s slot).reg = s.reg ∧
    (freeCores s slot).trans = s.trans ∧ (freeCores s slot).attic = s.attic ∧ (freeCores s slot).link = s.link ∧
    (freeCores s slot).chord = s.chord ∧ (freeCores s slot).fresh = s.fresh ∧ (freeCores s slot).out = s.out ∧
    (freeCores s slot).pending = s.pending := by
  unfold freeCores
  simp

@[simp] theorem deliverStep_frame (s : State) (st : Step) :
    (deliverStep s st).time = s.time ∧ (deliverStep s st).part = s.part ∧ (deliverStep s st).err = s.err ∧
    (deliverStep s st).pwr = s.pwr ∧ (deliverStep s st).boot = s.boot ∧ (deliverStep s st).cells = s.cells ∧
    (deliverStep s st).mem = s.mem ∧ (deliverStep s st).larder = s.larder ∧ (deliverStep s st).reg = s.reg ∧
    (deliverStep s st).trans = s.trans ∧ (deliverStep s st).attic = s.attic ∧ (deliverStep s st).link = s.link ∧
    (deliverStep s st).fresh = s.fresh ∧ (deliverStep s st).pending = s.pending := by
  unfold deliverStep
  (try dsimp only)
  (repeat' (split <;> try (rename_i hp; first | (obtain ⟨rfl, rfl⟩ := Prod.ext_iff.mp hp) | (obtain ⟨rfl, hq⟩ := Prod.ext_iff.mp hp; obtain ⟨rfl, rfl⟩ := Prod.ext_iff.mp hq) | (obtain ⟨rfl, hq⟩ := Prod.ext_iff.mp hp; obtain ⟨rfl, _⟩ := Prod.ext_iff.mp hq) | (obtain ⟨_, hq⟩ := Prod.ext_iff.mp hp; obtain ⟨rfl, _⟩ := Prod.ext_iff.mp hq) | (obtain ⟨rfl, _⟩ := Prod.ext_iff.mp hp) | (obtain ⟨_, rfl⟩ := Prod.ext_iff.mp hp)))) <;> first | rfl | (simp; done) | (simp_all; done)

@[simp] theorem endStep_frame (s : State) (slot : Nat) (ran : Bool) :
    (endStep s slot ran).time = s.time ∧ (endStep s slot ran).part = s.part ∧ (endStep s slot ran).pwr = s.pwr ∧
    (endStep s slot ran).boot = s.boot ∧ (endStep s slot ran).link = s.link ∧
    (endStep s slot ran).pending = s.pending := by
  unfold endStep
  (try dsimp only)
  (repeat' (split <;> try (rename_i hp; first | (obtain ⟨rfl, rfl⟩ := Prod.ext_iff.mp hp) | (obtain ⟨rfl, hq⟩ := Prod.ext_iff.mp hp; obtain ⟨rfl, rfl⟩ := Prod.ext_iff.mp hq) | (obtain ⟨rfl, hq⟩ := Prod.ext_iff.mp hp; obtain ⟨rfl, _⟩ := Prod.ext_iff.mp hq) | (obtain ⟨_, hq⟩ := Prod.ext_iff.mp hp; obtain ⟨rfl, _⟩ := Prod.ext_iff.mp hq) | (obtain ⟨rfl, _⟩ := Prod.ext_iff.mp hp) | (obtain ⟨_, rfl⟩ := Prod.ext_iff.mp hp)))) <;> first | rfl | (simp; done) | (simp_all; done)

@[simp] theorem markUnrun_frame (s : State) (slot : Nat) (code : Option Status) :
    (markUnrun s slot code).time = s.time ∧ (markUnrun s slot code).cp = s.cp ∧
    (markUnrun s slot code).part = s.part ∧ (markUnrun s slot code).err = s.err ∧
    (markUnrun s slot code).pwr = s.pwr ∧ (markUnrun s slot code).mgmt = s.mgmt ∧
    (markUnrun s slot code).boot = s.boot ∧ (markUnrun s slot code).cells = s.cells ∧
    (markUnrun s slot code).mem = s.mem ∧ (markUnrun s slot code).reg = s.reg ∧
    (markUnrun s slot code).trans = s.trans ∧ (markUnrun s slot code).attic = s.attic ∧
    (markUnrun s slot code).link = s.link ∧ (markUnrun s slot code).chord = s.chord ∧
    (markUnrun s slot code).fresh = s.fresh ∧ (markUnrun s slot code).out = s.out ∧
    (markUnrun s slot code).pending = s.pending := by
  unfold markUnrun
  simp

@[simp] theorem settleUnrun_frame (s : State) :
    (settleUnrun s).time = s.time ∧ (settleUnrun s).part = s.part ∧ (settleUnrun s).pwr = s.pwr ∧
    (settleUnrun s).boot = s.boot ∧ (settleUnrun s).link = s.link ∧ (settleUnrun s).pending = s.pending := by
  unfold settleUnrun
  (try dsimp only)
  (repeat' (split <;> try (rename_i hp; first | (obtain ⟨rfl, rfl⟩ := Prod.ext_iff.mp hp) | (obtain ⟨rfl, hq⟩ := Prod.ext_iff.mp hp; obtain ⟨rfl, rfl⟩ := Prod.ext_iff.mp hq) | (obtain ⟨rfl, hq⟩ := Prod.ext_iff.mp hp; obtain ⟨rfl, _⟩ := Prod.ext_iff.mp hq) | (obtain ⟨_, hq⟩ := Prod.ext_iff.mp hp; obtain ⟨rfl, _⟩ := Prod.ext_iff.mp hq) | (obtain ⟨rfl, _⟩ := Prod.ext_iff.mp hp) | (obtain ⟨_, rfl⟩ := Prod.ext_iff.mp hp)))) <;> (try simp) <;> (repeat' apply And.intro) <;> (first | apply forEach_time | apply foldl_time | apply forEachFst_time | apply foldlFst_time | apply forEach_part | apply foldl_part | apply forEachFst_part | apply foldlFst_part | apply forEach_pwr | apply foldl_pwr | apply forEachFst_pwr | apply foldlFst_pwr | apply forEach_boot | apply foldl_boot | apply forEachFst_boot | apply foldlFst_boot | apply forEach_link | apply foldl_link | apply forEachFst_link | apply foldlFst_link | apply forEach_pending | apply foldl_pending | apply forEachFst_pending | apply foldlFst_pending) <;> intro _ _ <;> (try dsimp only) <;> (repeat' (split <;> try (rename_i hp; first | (obtain ⟨rfl, rfl⟩ := Prod.ext_iff.mp hp) | (obtain ⟨rfl, hq⟩ := Prod.ext_iff.mp hp; obtain ⟨rfl, rfl⟩ := Prod.ext_iff.mp hq) | (obtain ⟨rfl, hq⟩ := Prod.ext_iff.mp hp; obtain ⟨rfl, _⟩ := Prod.ext_iff.mp hq) | (obtain ⟨_, hq⟩ := Prod.ext_iff.mp hp; obtain ⟨rfl, _⟩ := Prod.ext_iff.mp hq) | (obtain ⟨rfl, _⟩ := Prod.ext_iff.mp hp) | (obtain ⟨_, rfl⟩ := Prod.ext_iff.mp hp)))) <;> first | rfl | (simp; done) | (simp_all; done)

@[simp] theorem allocTouched_frame (s : State) (slot : Nat) (st : Step) (l : List (Touch × Nat × Nat × Option Nat)) :
    (allocTouched s slot st l).time = s.time ∧ (allocTouched s slot st l).cp = s.cp ∧
    (allocTouched s slot st l).part = s.part ∧ (allocTouched s slot st l).err = s.err ∧
    (allocTouched s slot st l).pwr = s.pwr ∧ (allocTouched s slot st l).mgmt = s.mgmt ∧
    (allocTouched s slot st l).boot = s.boot ∧ (allocTouched s slot st l).cells = s.cells ∧
    (allocTouched s slot st l).mem = s.mem ∧ (allocTouched s slot st l).reg = s.reg ∧
    (allocTouched s slot st l).trans = s.trans ∧ (allocTouched s slot st l).attic = s.attic ∧
    (allocTouched s slot st l).link = s.link ∧ (allocTouched s slot st l).chord = s.chord ∧
    (allocTouched s slot st l).fresh = s.fresh ∧ (allocTouched s slot st l).out = s.out ∧
    (allocTouched s slot st l).pending = s.pending := by
  unfold allocTouched
  simp

@[simp] theorem promoteTouched_frame (s : State) (slot : Nat) (st : Step) (l : List (Touch × Nat × Nat × Option Nat)) :
    (promoteTouched s slot st l).time = s.time ∧ (promoteTouched s slot st l).cp = s.cp ∧
    (promoteTouched s slot st l).part = s.part ∧ (promoteTouched s slot st l).err = s.err ∧
    (promoteTouched s slot st l).pwr = s.pwr ∧ (promoteTouched s slot st l).mgmt = s.mgmt ∧
    (promoteTouched s slot st l).boot = s.boot ∧ (promoteTouched s slot st l).cells = s.cells ∧
    (promoteTouched s slot st l).mem = s.mem ∧ (promoteTouched s slot st l).reg = s.reg ∧
    (promoteTouched s slot st l).trans = s.trans ∧ (promoteTouched s slot st l).attic = s.attic ∧
    (promoteTouched s slot st l).link = s.link ∧ (promoteTouched s slot st l).chord = s.chord ∧
    (promoteTouched s slot st l).fresh = s.fresh ∧ (promoteTouched s slot st l).out = s.out ∧
    (promoteTouched s slot st l).pending = s.pending := by
  unfold promoteTouched
  (try dsimp only)
  (repeat' (split <;> try (rename_i hp; first | (obtain ⟨rfl, rfl⟩ := Prod.ext_iff.mp hp) | (obtain ⟨rfl, hq⟩ := Prod.ext_iff.mp hp; obtain ⟨rfl, rfl⟩ := Prod.ext_iff.mp hq) | (obtain ⟨rfl, hq⟩ := Prod.ext_iff.mp hp; obtain ⟨rfl, _⟩ := Prod.ext_iff.mp hq) | (obtain ⟨_, hq⟩ := Prod.ext_iff.mp hp; obtain ⟨rfl, _⟩ := Prod.ext_iff.mp hq) | (obtain ⟨rfl, _⟩ := Prod.ext_iff.mp hp) | (obtain ⟨_, rfl⟩ := Prod.ext_iff.mp hp)))) <;> (try simp) <;> (repeat' apply And.intro) <;> (first | apply forEach_time | apply foldl_time | apply forEachFst_time | apply foldlFst_time | apply forEach_cp | apply foldl_cp | apply forEachFst_cp | apply foldlFst_cp | apply forEach_part | apply foldl_part | apply forEachFst_part | apply foldlFst_part | apply forEach_err | apply foldl_err | apply forEachFst_err | apply foldlFst_err | apply forEach_pwr | apply foldl_pwr | apply forEachFst_pwr | apply foldlFst_pwr | apply forEach_mgmt | apply foldl_mgmt | apply forEachFst_mgmt | apply foldlFst_mgmt | apply forEach_boot | apply foldl_boot | apply forEachFst_boot | apply foldlFst_boot | apply forEach_cells | apply foldl_cells | apply forEachFst_cells | apply foldlFst_cells | apply forEach_mem | apply foldl_mem | apply forEachFst_mem | apply foldlFst_mem | apply forEach_reg | apply foldl_reg | apply forEachFst_reg | apply foldlFst_reg | apply forEach_trans | apply foldl_trans | apply forEachFst_trans | apply foldlFst_trans | apply forEach_attic | apply foldl_attic | apply forEachFst_attic | apply foldlFst_attic | apply forEach_link | apply foldl_link | apply forEachFst_link | apply foldlFst_link | apply forEach_chord | apply foldl_chord | apply forEachFst_chord | apply foldlFst_chord | apply forEach_fresh | apply foldl_fresh | apply forEachFst_fresh | apply foldlFst_fresh | apply forEach_out | apply foldl_out | apply forEachFst_out | apply foldlFst_out | apply forEach_pending | apply foldl_pending | apply forEachFst_pending | apply foldlFst_pending) <;> intro _ _ <;> (try dsimp only) <;> (repeat' (split <;> try (rename_i hp; first | (obtain ⟨rfl, rfl⟩ := Prod.ext_iff.mp hp) | (obtain ⟨rfl, hq⟩ := Prod.ext_iff.mp hp; obtain ⟨rfl, rfl⟩ := Prod.ext_iff.mp hq) | (obtain ⟨rfl, hq⟩ := Prod.ext_iff.mp hp; obtain ⟨rfl, _⟩ := Prod.ext_iff.mp hq) | (obtain ⟨_, hq⟩ := Prod.ext_iff.mp hp; obtain ⟨rfl, _⟩ := Prod.ext_iff.mp hq) | (obtain ⟨rfl, _⟩ := Prod.ext_iff.mp hp) | (obtain ⟨_, rfl⟩ := Prod.ext_iff.mp hp)))) <;> first | rfl | (simp; done) | (simp_all; done)

@[simp] theorem processStep_frame (s : State) (slot : Nat) :
    (processStep s slot).time = s.time ∧ (processStep s slot).cp = s.cp ∧ (processStep s slot).part = s.part ∧
    (processStep s slot).err = s.err ∧ (processStep s slot).pwr = s.pwr ∧ (processStep s slot).mgmt = s.mgmt ∧
    (processStep s slot).boot = s.boot ∧ (processStep s slot).reg = s.reg ∧ (processStep s slot).trans = s.trans ∧
    (processStep s slot).attic = s.attic ∧ (processStep s slot).link = s.link ∧ (processStep s slot).chord = s.chord ∧
    (processStep s slot).fresh = s.fresh ∧ (processStep s slot).pending = s.pending := by
  unfold processStep
  (try dsimp only)
  (repeat' (split <;> try (rename_i hp; first | (obtain ⟨rfl, rfl⟩ := Prod.ext_iff.mp hp) | (obtain ⟨rfl, hq⟩ := Prod.ext_iff.mp hp; obtain ⟨rfl, rfl⟩ := Prod.ext_iff.mp hq) | (obtain ⟨rfl, hq⟩ := Prod.ext_iff.mp hp; obtain ⟨rfl, _⟩ := Prod.ext_iff.mp hq) | (obtain ⟨_, hq⟩ := Prod.ext_iff.mp hp; obtain ⟨rfl, _⟩ := Prod.ext_iff.mp hq) | (obtain ⟨rfl, _⟩ := Prod.ext_iff.mp hp) | (obtain ⟨_, rfl⟩ := Prod.ext_iff.mp hp)))) <;> first | rfl | (simp; done) | (simp_all; done)

@[simp] theorem reprocessStep_frame (s : State) (slot : Nat) :
    (reprocessStep s slot).time = s.time ∧ (reprocessStep s slot).cp = s.cp ∧ (reprocessStep s slot).part = s.part ∧
    (reprocessStep s slot).err = s.err ∧ (reprocessStep s slot).pwr = s.pwr ∧ (reprocessStep s slot).mgmt = s.mgmt ∧
    (reprocessStep s slot).boot = s.boot ∧ (reprocessStep s slot).reg = s.reg ∧
    (reprocessStep s slot).trans = s.trans ∧ (reprocessStep s slot).attic = s.attic ∧
    (reprocessStep s slot).link = s.link ∧ (reprocessStep s slot).chord = s.chord ∧
    (reprocessStep s slot).fresh = s.fresh ∧ (reprocessStep s slot).pending = s.pending := by
  unfold reprocessStep
  (try dsimp only)
  (repeat' (split <;> try (rename_i hp; first | (obtain ⟨rfl, rfl⟩ := Prod.ext_iff.mp hp) | (obtain ⟨rfl, hq⟩ := Prod.ext_iff.mp hp; obtain ⟨rfl, rfl⟩ := Prod.ext_iff.mp hq) | (obtain ⟨rfl, hq⟩ := Prod.ext_iff.mp hp; obtain ⟨rfl, _⟩ := Prod.ext_iff.mp hq) | (obtain ⟨_, hq⟩ := Prod.ext_iff.mp hp; obtain ⟨rfl, _⟩ := Prod.ext_iff.mp hq) | (obtain ⟨rfl, _⟩ := Prod.ext_iff.mp hp) | (obtain ⟨_, rfl⟩ := Prod.ext_iff.mp hp)))) <;> first | rfl | (simp; done) | (simp_all; done)

@[simp] theorem addStep_frame (s : State) (st : Step) :
    (addStep s st).time = s.time ∧ (addStep s st).part = s.part ∧ (addStep s st).pwr = s.pwr ∧
    (addStep s st).boot = s.boot ∧ (addStep s st).link = s.link ∧ (addStep s st).pending = s.pending := by
  unfold addStep
  (try dsimp only)
  (repeat' (split <;> try (rename_i hp; first | (obtain ⟨rfl, rfl⟩ := Prod.ext_iff.mp hp) | (obtain ⟨rfl, hq⟩ := Prod.ext_iff.mp hp; obtain ⟨rfl, rfl⟩ := Prod.ext_iff.mp hq) | (obtain ⟨rfl, hq⟩ := Prod.ext_iff.mp hp; obtain ⟨rfl, _⟩ := Prod.ext_iff.mp hq) | (obtain ⟨_, hq⟩ := Prod.ext_iff.mp hp; obtain ⟨rfl, _⟩ := Prod.ext_iff.mp hq) | (obtain ⟨rfl, _⟩ := Prod.ext_iff.mp hp) | (obtain ⟨_, rfl⟩ := Prod.ext_iff.mp hp)))) <;> first | rfl | (simp; done) | (simp_all; done)

@[simp] theorem cancelNaming_frame (s : State) (q : Nat) (code : Status) :
    (cancelNaming s q code).time = s.time ∧ (cancelNaming s q code).cp = s.cp ∧
    (cancelNaming s q code).part = s.part ∧ (cancelNaming s q code).err = s.err ∧
    (cancelNaming s q code).pwr = s.pwr ∧ (cancelNaming s q code).mgmt = s.mgmt ∧
    (cancelNaming s q code).boot = s.boot ∧ (cancelNaming s q code).cells = s.cells ∧
    (cancelNaming s q code).mem = s.mem ∧ (cancelNaming s q code).reg = s.reg ∧
    (cancelNaming s q code).trans = s.trans ∧ (cancelNaming s q code).attic = s.attic ∧
    (cancelNaming s q code).link = s.link ∧ (cancelNaming s q code).chord = s.chord ∧
    (cancelNaming s q code).fresh = s.fresh ∧ (cancelNaming s q code).out = s.out ∧
    (cancelNaming s q code).pending = s.pending := by
  unfold cancelNaming
  simp

@[simp] theorem stepVisible_frame (s : State) (slot : Nat) (st : Step) :
    (stepVisible s slot st).1.time = s.time ∧ (stepVisible s slot st).1.cp = s.cp ∧
    (stepVisible s slot st).1.part = s.part ∧ (stepVisible s slot st).1.err = s.err ∧
    (stepVisible s slot st).1.pwr = s.pwr ∧ (stepVisible s slot st).1.mgmt = s.mgmt ∧
    (stepVisible s slot st).1.boot = s.boot ∧ (stepVisible s slot st).1.larder = s.larder ∧
    (stepVisible s slot st).1.reg = s.reg ∧ (stepVisible s slot st).1.trans = s.trans ∧
    (stepVisible s slot st).1.attic = s.attic ∧ (stepVisible s slot st).1.link = s.link ∧
    (stepVisible s slot st).1.chord = s.chord ∧ (stepVisible s slot st).1.fresh = s.fresh ∧
    (stepVisible s slot st).1.pending = s.pending := by
  unfold stepVisible
  simp

end Sys2Proof.Machine
end

