-- ==== Sys2Proof/Laws/FramePlan.lean ====
section
/-! SUPPORT. What each operation of Machine/Plan.lean leaves as it was, by component of the state. -/
set_option maxRecDepth 4000
set_option exponentiation.threshold 2000
namespace Sys2Proof.Machine

@[simp] theorem pinPages_frame (s : State) (slot : Nat) (l : List Nat) :
    (pinPages s slot l).time = s.time ∧ (pinPages s slot l).cp = s.cp ∧ (pinPages s slot l).part = s.part ∧
    (pinPages s slot l).err = s.err ∧ (pinPages s slot l).pwr = s.pwr ∧ (pinPages s slot l).mgmt = s.mgmt ∧
    (pinPages s slot l).boot = s.boot ∧ (pinPages s slot l).cells = s.cells ∧ (pinPages s slot l).mem = s.mem ∧
    (pinPages s slot l).reg = s.reg ∧ (pinPages s slot l).trans = s.trans ∧ (pinPages s slot l).attic = s.attic ∧
    (pinPages s slot l).link = s.link ∧ (pinPages s slot l).chord = s.chord ∧ (pinPages s slot l).fresh = s.fresh ∧
    (pinPages s slot l).out = s.out ∧ (pinPages s slot l).pending = s.pending := by
  unfold pinPages
  (try dsimp only)
  (repeat' (split <;> try (rename_i hp; first | (obtain ⟨rfl, rfl⟩ := Prod.ext_iff.mp hp) | (obtain ⟨rfl, hq⟩ := Prod.ext_iff.mp hp; obtain ⟨rfl, rfl⟩ := Prod.ext_iff.mp hq) | (obtain ⟨rfl, hq⟩ := Prod.ext_iff.mp hp; obtain ⟨rfl, _⟩ := Prod.ext_iff.mp hq) | (obtain ⟨_, hq⟩ := Prod.ext_iff.mp hp; obtain ⟨rfl, _⟩ := Prod.ext_iff.mp hq) | (obtain ⟨rfl, _⟩ := Prod.ext_iff.mp hp) | (obtain ⟨_, rfl⟩ := Prod.ext_iff.mp hp)))) <;> (try simp) <;> (repeat' apply And.intro) <;> (first | apply forEach_time | apply foldl_time | apply forEachFst_time | apply foldlFst_time | apply forEach_cp | apply foldl_cp | apply forEachFst_cp | apply foldlFst_cp | apply forEach_part | apply foldl_part | apply forEachFst_part | apply foldlFst_part | apply forEach_err | apply foldl_err | apply forEachFst_err | apply foldlFst_err | apply forEach_pwr | apply foldl_pwr | apply forEachFst_pwr | apply foldlFst_pwr | apply forEach_mgmt | apply foldl_mgmt | apply forEachFst_mgmt | apply foldlFst_mgmt | apply forEach_boot | apply foldl_boot | apply forEachFst_boot | apply foldlFst_boot | apply forEach_cells | apply foldl_cells | apply forEachFst_cells | apply foldlFst_cells | apply forEach_mem | apply foldl_mem | apply forEachFst_mem | apply foldlFst_mem | apply forEach_reg | apply foldl_reg | apply forEachFst_reg | apply foldlFst_reg | apply forEach_trans | apply foldl_trans | apply forEachFst_trans | apply foldlFst_trans | apply forEach_attic | apply foldl_attic | apply forEachFst_attic | apply foldlFst_attic | apply forEach_link | apply foldl_link | apply forEachFst_link | apply foldlFst_link | apply forEach_chord | apply foldl_chord | apply forEachFst_chord | apply foldlFst_chord | apply forEach_fresh | apply foldl_fresh | apply forEachFst_fresh | apply foldlFst_fresh | apply forEach_out | apply foldl_out | apply forEachFst_out | apply foldlFst_out | apply forEach_pending | apply foldl_pending | apply forEachFst_pending | apply foldlFst_pending) <;> intro _ _ <;> (try dsimp only) <;> (repeat' (split <;> try (rename_i hp; first | (obtain ⟨rfl, rfl⟩ := Prod.ext_iff.mp hp) | (obtain ⟨rfl, hq⟩ := Prod.ext_iff.mp hp; obtain ⟨rfl, rfl⟩ := Prod.ext_iff.mp hq) | (obtain ⟨rfl, hq⟩ := Prod.ext_iff.mp hp; obtain ⟨rfl, _⟩ := Prod.ext_iff.mp hq) | (obtain ⟨_, hq⟩ := Prod.ext_iff.mp hp; obtain ⟨rfl, _⟩ := Prod.ext_iff.mp hq) | (obtain ⟨rfl, _⟩ := Prod.ext_iff.mp hp) | (obtain ⟨_, rfl⟩ := Prod.ext_iff.mp hp)))) <;> first | rfl | (simp; done) | (simp_all; done)

@[simp] theorem writePageList_frame (s : State) (slot : Nat) (st : Step) :
    (writePageList s slot st).time = s.time ∧ (writePageList s slot st).part = s.part ∧
    (writePageList s slot st).pwr = s.pwr ∧ (writePageList s slot st).boot = s.boot ∧
    (writePageList s slot st).trans = s.trans ∧ (writePageList s slot st).attic = s.attic ∧
    (writePageList s slot st).link = s.link ∧ (writePageList s slot st).chord = s.chord ∧
    (writePageList s slot st).fresh = s.fresh ∧ (writePageList s slot st).pending = s.pending := by
  unfold writePageList
  simp

@[simp] theorem planStep_frame (s : State) (slot : Nat) (st : Step) (held : List Nat) (mask : Nat) :
    (planStep s slot st held mask).time = s.time ∧ (planStep s slot st held mask).part = s.part ∧
    (planStep s slot st held mask).pwr = s.pwr ∧ (planStep s slot st held mask).boot = s.boot ∧
    (planStep s slot st held mask).trans = s.trans ∧ (planStep s slot st held mask).attic = s.attic ∧
    (planStep s slot st held mask).link = s.link ∧ (planStep s slot st held mask).chord = s.chord ∧
    (planStep s slot st held mask).fresh = s.fresh ∧ (planStep s slot st held mask).pending = s.pending := by
  unfold planStep
  (try dsimp only)
  (repeat' (split <;> try (rename_i hp; first | (obtain ⟨rfl, rfl⟩ := Prod.ext_iff.mp hp) | (obtain ⟨rfl, hq⟩ := Prod.ext_iff.mp hp; obtain ⟨rfl, rfl⟩ := Prod.ext_iff.mp hq) | (obtain ⟨rfl, hq⟩ := Prod.ext_iff.mp hp; obtain ⟨rfl, _⟩ := Prod.ext_iff.mp hq) | (obtain ⟨_, hq⟩ := Prod.ext_iff.mp hp; obtain ⟨rfl, _⟩ := Prod.ext_iff.mp hq) | (obtain ⟨rfl, _⟩ := Prod.ext_iff.mp hp) | (obtain ⟨_, rfl⟩ := Prod.ext_iff.mp hp)))) <;> first | rfl | (simp; done) | (simp_all; done)

@[simp] theorem tryPlan_frame (s : State) (a : PlanAcc) (slot seqLimit entryLimit : Nat) :
    (tryPlan s a slot seqLimit entryLimit).1.time = s.time ∧ (tryPlan s a slot seqLimit entryLimit).1.part = s.part ∧
    (tryPlan s a slot seqLimit entryLimit).1.pwr = s.pwr ∧ (tryPlan s a slot seqLimit entryLimit).1.boot = s.boot ∧
    (tryPlan s a slot seqLimit entryLimit).1.trans = s.trans ∧
    (tryPlan s a slot seqLimit entryLimit).1.attic = s.attic ∧
    (tryPlan s a slot seqLimit entryLimit).1.link = s.link ∧
    (tryPlan s a slot seqLimit entryLimit).1.chord = s.chord ∧
    (tryPlan s a slot seqLimit entryLimit).1.fresh = s.fresh ∧
    (tryPlan s a slot seqLimit entryLimit).1.pending = s.pending := by
  unfold tryPlan
  (try dsimp only)
  (repeat' (split <;> try (rename_i hp; first | (obtain ⟨rfl, rfl⟩ := Prod.ext_iff.mp hp) | (obtain ⟨rfl, hq⟩ := Prod.ext_iff.mp hp; obtain ⟨rfl, rfl⟩ := Prod.ext_iff.mp hq) | (obtain ⟨rfl, hq⟩ := Prod.ext_iff.mp hp; obtain ⟨rfl, _⟩ := Prod.ext_iff.mp hq) | (obtain ⟨_, hq⟩ := Prod.ext_iff.mp hp; obtain ⟨rfl, _⟩ := Prod.ext_iff.mp hq) | (obtain ⟨rfl, _⟩ := Prod.ext_iff.mp hp) | (obtain ⟨_, rfl⟩ := Prod.ext_iff.mp hp)))) <;> first | rfl | (simp; done) | (simp_all; done)

@[simp] theorem planPart_frame (s : State) (a : PlanAcc) (l : List (Nat × Step)) (seqs entries : Nat) :
    (planPart s a l seqs entries).1.time = s.time ∧ (planPart s a l seqs entries).1.part = s.part ∧
    (planPart s a l seqs entries).1.pwr = s.pwr ∧ (planPart s a l seqs entries).1.boot = s.boot ∧
    (planPart s a l seqs entries).1.trans = s.trans ∧ (planPart s a l seqs entries).1.attic = s.attic ∧
    (planPart s a l seqs entries).1.link = s.link ∧ (planPart s a l seqs entries).1.chord = s.chord ∧
    (planPart s a l seqs entries).1.fresh = s.fresh ∧ (planPart s a l seqs entries).1.pending = s.pending := by
  unfold planPart
  simp

@[simp] theorem choosePlan_frame (s : State) (l : List (Nat × Step)) (entries : Nat) :
    (choosePlan s l entries).1.time = s.time ∧ (choosePlan s l entries).1.part = s.part ∧
    (choosePlan s l entries).1.pwr = s.pwr ∧ (choosePlan s l entries).1.boot = s.boot ∧
    (choosePlan s l entries).1.trans = s.trans ∧ (choosePlan s l entries).1.attic = s.attic ∧
    (choosePlan s l entries).1.link = s.link ∧ (choosePlan s l entries).1.chord = s.chord ∧
    (choosePlan s l entries).1.fresh = s.fresh ∧ (choosePlan s l entries).1.pending = s.pending := by
  unfold choosePlan
  simp

@[simp] theorem applySplit_frame (s : State) (c : Nat) :
    (applySplit s c).time = s.time ∧ (applySplit s c).part = s.part ∧ (applySplit s c).pwr = s.pwr ∧
    (applySplit s c).larder = s.larder ∧ (applySplit s c).reg = s.reg ∧ (applySplit s c).trans = s.trans ∧
    (applySplit s c).attic = s.attic ∧ (applySplit s c).link = s.link ∧ (applySplit s c).chord = s.chord ∧
    (applySplit s c).fresh = s.fresh ∧ (applySplit s c).pending = s.pending := by
  unfold applySplit
  (try dsimp only)
  (repeat' (split <;> try (rename_i hp; first | (obtain ⟨rfl, rfl⟩ := Prod.ext_iff.mp hp) | (obtain ⟨rfl, hq⟩ := Prod.ext_iff.mp hp; obtain ⟨rfl, rfl⟩ := Prod.ext_iff.mp hq) | (obtain ⟨rfl, hq⟩ := Prod.ext_iff.mp hp; obtain ⟨rfl, _⟩ := Prod.ext_iff.mp hq) | (obtain ⟨_, hq⟩ := Prod.ext_iff.mp hp; obtain ⟨rfl, _⟩ := Prod.ext_iff.mp hq) | (obtain ⟨rfl, _⟩ := Prod.ext_iff.mp hp) | (obtain ⟨_, rfl⟩ := Prod.ext_iff.mp hp)))) <;> first | rfl | (simp; done) | (simp_all; done)

@[simp] theorem reservePut_frame (s : State) (slot part : Nat) (b : Bytes) :
    (reservePut s slot part b).time = s.time ∧ (reservePut s slot part b).cp = s.cp ∧
    (reservePut s slot part b).part = s.part ∧ (reservePut s slot part b).err = s.err ∧
    (reservePut s slot part b).pwr = s.pwr ∧ (reservePut s slot part b).mgmt = s.mgmt ∧
    (reservePut s slot part b).boot = s.boot ∧ (reservePut s slot part b).cells = s.cells ∧
    (reservePut s slot part b).mem = s.mem ∧ (reservePut s slot part b).reg = s.reg ∧
    (reservePut s slot part b).trans = s.trans ∧ (reservePut s slot part b).attic = s.attic ∧
    (reservePut s slot part b).link = s.link ∧ (reservePut s slot part b).fresh = s.fresh ∧
    (reservePut s slot part b).out = s.out ∧ (reservePut s slot part b).pending = s.pending := by
  unfold reservePut
  (try dsimp only)
  (repeat' (split <;> try (rename_i hp; first | (obtain ⟨rfl, rfl⟩ := Prod.ext_iff.mp hp) | (obtain ⟨rfl, hq⟩ := Prod.ext_iff.mp hp; obtain ⟨rfl, rfl⟩ := Prod.ext_iff.mp hq) | (obtain ⟨rfl, hq⟩ := Prod.ext_iff.mp hp; obtain ⟨rfl, _⟩ := Prod.ext_iff.mp hq) | (obtain ⟨_, hq⟩ := Prod.ext_iff.mp hp; obtain ⟨rfl, _⟩ := Prod.ext_iff.mp hq) | (obtain ⟨rfl, _⟩ := Prod.ext_iff.mp hp) | (obtain ⟨_, rfl⟩ := Prod.ext_iff.mp hp)))) <;> first | rfl | (simp; done) | (simp_all; done)

@[simp] theorem reserveStep_frame (s : State) (slot : Nat) :
    (reserveStep s slot).time = s.time ∧ (reserveStep s slot).cp = s.cp ∧ (reserveStep s slot).part = s.part ∧
    (reserveStep s slot).err = s.err ∧ (reserveStep s slot).pwr = s.pwr ∧ (reserveStep s slot).mgmt = s.mgmt ∧
    (reserveStep s slot).boot = s.boot ∧ (reserveStep s slot).cells = s.cells ∧ (reserveStep s slot).mem = s.mem ∧
    (reserveStep s slot).reg = s.reg ∧ (reserveStep s slot).trans = s.trans ∧ (reserveStep s slot).attic = s.attic ∧
    (reserveStep s slot).link = s.link ∧ (reserveStep s slot).fresh = s.fresh ∧ (reserveStep s slot).out = s.out ∧
    (reserveStep s slot).pending = s.pending := by
  unfold reserveStep
  (try dsimp only)
  (repeat' (split <;> try (rename_i hp; first | (obtain ⟨rfl, rfl⟩ := Prod.ext_iff.mp hp) | (obtain ⟨rfl, hq⟩ := Prod.ext_iff.mp hp; obtain ⟨rfl, rfl⟩ := Prod.ext_iff.mp hq) | (obtain ⟨rfl, hq⟩ := Prod.ext_iff.mp hp; obtain ⟨rfl, _⟩ := Prod.ext_iff.mp hq) | (obtain ⟨_, hq⟩ := Prod.ext_iff.mp hp; obtain ⟨rfl, _⟩ := Prod.ext_iff.mp hq) | (obtain ⟨rfl, _⟩ := Prod.ext_iff.mp hp) | (obtain ⟨_, rfl⟩ := Prod.ext_iff.mp hp)))) <;> first | rfl | (simp; done) | (simp_all; done)

@[simp] theorem recordPlan_frame (s : State) (l : List (Nat × Step)) (a : PlanAcc) (surplus : Nat) :
    (recordPlan s l a surplus).cp = s.cp ∧ (recordPlan s l a surplus).part = s.part ∧
    (recordPlan s l a surplus).err = s.err ∧ (recordPlan s l a surplus).pwr = s.pwr ∧
    (recordPlan s l a surplus).mgmt = s.mgmt ∧ (recordPlan s l a surplus).boot = s.boot ∧
    (recordPlan s l a surplus).cells = s.cells ∧ (recordPlan s l a surplus).mem = s.mem ∧
    (recordPlan s l a surplus).reg = s.reg ∧ (recordPlan s l a surplus).trans = s.trans ∧
    (recordPlan s l a surplus).attic = s.attic ∧ (recordPlan s l a surplus).link = s.link ∧
    (recordPlan s l a surplus).fresh = s.fresh ∧ (recordPlan s l a surplus).pending = s.pending := by
  unfold recordPlan
  simp

@[simp] theorem buildPlan_frame (s : State) :
    (buildPlan s).part = s.part ∧ (buildPlan s).pwr = s.pwr ∧ (buildPlan s).boot = s.boot ∧
    (buildPlan s).link = s.link ∧ (buildPlan s).pending = s.pending := by
  unfold buildPlan
  simp

@[simp] theorem partPhase_frame (s : State) (slot part : Nat) (ph : PartPhase) :
    (partPhase s slot part ph).time = s.time ∧ (partPhase s slot part ph).cp = s.cp ∧
    (partPhase s slot part ph).part = s.part ∧ (partPhase s slot part ph).err = s.err ∧
    (partPhase s slot part ph).pwr = s.pwr ∧ (partPhase s slot part ph).mgmt = s.mgmt ∧
    (partPhase s slot part ph).boot = s.boot ∧ (partPhase s slot part ph).cells = s.cells ∧
    (partPhase s slot part ph).mem = s.mem ∧ (partPhase s slot part ph).reg = s.reg ∧
    (partPhase s slot part ph).trans = s.trans ∧ (partPhase s slot part ph).attic = s.attic ∧
    (partPhase s slot part ph).link = s.link ∧ (partPhase s slot part ph).chord = s.chord ∧
    (partPhase s slot part ph).fresh = s.fresh ∧ (partPhase s slot part ph).out = s.out ∧
    (partPhase s slot part ph).pending = s.pending := by
  unfold partPhase
  simp

@[simp] theorem startCore_frame (s : State) (slot : Nat) (st : Step) (k : Nat) :
    (startCore s slot st k).time = s.time ∧ (startCore s slot st k).part = s.part ∧
    (startCore s slot st k).pwr = s.pwr ∧ (startCore s slot st k).larder = s.larder ∧
    (startCore s slot st k).reg = s.reg ∧ (startCore s slot st k).trans = s.trans ∧
    (startCore s slot st k).attic = s.attic ∧ (startCore s slot st k).link = s.link ∧
    (startCore s slot st k).chord = s.chord ∧ (startCore s slot st k).pending = s.pending := by
  unfold startCore
  (try dsimp only)
  (repeat' (split <;> try (rename_i hp; first | (obtain ⟨rfl, rfl⟩ := Prod.ext_iff.mp hp) | (obtain ⟨rfl, hq⟩ := Prod.ext_iff.mp hp; obtain ⟨rfl, rfl⟩ := Prod.ext_iff.mp hq) | (obtain ⟨rfl, hq⟩ := Prod.ext_iff.mp hp; obtain ⟨rfl, _⟩ := Prod.ext_iff.mp hq) | (obtain ⟨_, hq⟩ := Prod.ext_iff.mp hp; obtain ⟨rfl, _⟩ := Prod.ext_iff.mp hq) | (obtain ⟨rfl, _⟩ := Prod.ext_iff.mp hp) | (obtain ⟨_, rfl⟩ := Prod.ext_iff.mp hp)))) <;> first | rfl | (simp; done) | (simp_all; done)

@[simp] theorem resumeCore_frame (s : State) (slot : Nat) (st : Step) (k i : Nat) :
    (resumeCore s slot st k i).time = s.time ∧ (resumeCore s slot st k i).part = s.part ∧
    (resumeCore s slot st k i).pwr = s.pwr ∧ (resumeCore s slot st k i).larder = s.larder ∧
    (resumeCore s slot st k i).reg = s.reg ∧ (resumeCore s slot st k i).trans = s.trans ∧
    (resumeCore s slot st k i).attic = s.attic ∧ (resumeCore s slot st k i).link = s.link ∧
    (resumeCore s slot st k i).chord = s.chord ∧ (resumeCore s slot st k i).fresh = s.fresh ∧
    (resumeCore s slot st k i).pending = s.pending := by
  unfold resumeCore
  (try dsimp only)
  (repeat' (split <;> try (rename_i hp; first | (obtain ⟨rfl, rfl⟩ := Prod.ext_iff.mp hp) | (obtain ⟨rfl, hq⟩ := Prod.ext_iff.mp hp; obtain ⟨rfl, rfl⟩ := Prod.ext_iff.mp hq) | (obtain ⟨rfl, hq⟩ := Prod.ext_iff.mp hp; obtain ⟨rfl, _⟩ := Prod.ext_iff.mp hq) | (obtain ⟨_, hq⟩ := Prod.ext_iff.mp hp; obtain ⟨rfl, _⟩ := Prod.ext_iff.mp hq) | (obtain ⟨rfl, _⟩ := Prod.ext_iff.mp hp) | (obtain ⟨_, rfl⟩ := Prod.ext_iff.mp hp)))) <;> first | rfl | (simp; done) | (simp_all; done)

@[simp] theorem startPart_frame (s : State) (slot : Nat) (st : Step) (i : Nat) (p : StepPart) :
    (startPart s slot st i p).time = s.time ∧ (startPart s slot st i p).cp = s.cp ∧
    (startPart s slot st i p).part = s.part ∧ (startPart s slot st i p).err = s.err ∧
    (startPart s slot st i p).pwr = s.pwr ∧ (startPart s slot st i p).mgmt = s.mgmt ∧
    (startPart s slot st i p).boot = s.boot ∧ (startPart s slot st i p).cells = s.cells ∧
    (startPart s slot st i p).mem = s.mem ∧ (startPart s slot st i p).reg = s.reg ∧
    (startPart s slot st i p).trans = s.trans ∧ (startPart s slot st i p).link = s.link ∧
    (startPart s slot st i p).pending = s.pending := by
  unfold startPart
  (try dsimp only)
  (repeat' (split <;> try (rename_i hp; first | (obtain ⟨rfl, rfl⟩ := Prod.ext_iff.mp hp) | (obtain ⟨rfl, hq⟩ := Prod.ext_iff.mp hp; obtain ⟨rfl, rfl⟩ := Prod.ext_iff.mp hq) | (obtain ⟨rfl, hq⟩ := Prod.ext_iff.mp hp; obtain ⟨rfl, _⟩ := Prod.ext_iff.mp hq) | (obtain ⟨_, hq⟩ := Prod.ext_iff.mp hp; obtain ⟨rfl, _⟩ := Prod.ext_iff.mp hq) | (obtain ⟨rfl, _⟩ := Prod.ext_iff.mp hp) | (obtain ⟨_, rfl⟩ := Prod.ext_iff.mp hp)))) <;> first | rfl | (simp; done) | (simp_all; done)

@[simp] theorem startParts_frame (s : State) (slot : Nat) :
    (startParts s slot).time = s.time ∧ (startParts s slot).cp = s.cp ∧ (startParts s slot).part = s.part ∧
    (startParts s slot).err = s.err ∧ (startParts s slot).pwr = s.pwr ∧ (startParts s slot).mgmt = s.mgmt ∧
    (startParts s slot).boot = s.boot ∧ (startParts s slot).cells = s.cells ∧ (startParts s slot).mem = s.mem ∧
    (startParts s slot).reg = s.reg ∧ (startParts s slot).trans = s.trans ∧ (startParts s slot).link = s.link ∧
    (startParts s slot).pending = s.pending := by
  unfold startParts
  (try dsimp only)
  (repeat' (split <;> try (rename_i hp; first | (obtain ⟨rfl, rfl⟩ := Prod.ext_iff.mp hp) | (obtain ⟨rfl, hq⟩ := Prod.ext_iff.mp hp; obtain ⟨rfl, rfl⟩ := Prod.ext_iff.mp hq) | (obtain ⟨rfl, hq⟩ := Prod.ext_iff.mp hp; obtain ⟨rfl, _⟩ := Prod.ext_iff.mp hq) | (obtain ⟨_, hq⟩ := Prod.ext_iff.mp hp; obtain ⟨rfl, _⟩ := Prod.ext_iff.mp hq) | (obtain ⟨rfl, _⟩ := Prod.ext_iff.mp hp) | (obtain ⟨_, rfl⟩ := Prod.ext_iff.mp hp)))) <;> first | rfl | (simp; done) | (simp_all; done)

@[simp] theorem checkFailure_frame (s : State) (slot : Nat) :
    (checkFailure s slot).time = s.time ∧ (checkFailure s slot).part = s.part ∧ (checkFailure s slot).err = s.err ∧
    (checkFailure s slot).pwr = s.pwr ∧ (checkFailure s slot).mgmt = s.mgmt ∧ (checkFailure s slot).boot = s.boot ∧
    (checkFailure s slot).mem = s.mem ∧ (checkFailure s slot).reg = s.reg ∧ (checkFailure s slot).link = s.link ∧
    (checkFailure s slot).fresh = s.fresh ∧ (checkFailure s slot).pending = s.pending := by
  unfold checkFailure
  (try dsimp only)
  (repeat' (split <;> try (rename_i hp; first | (obtain ⟨rfl, rfl⟩ := Prod.ext_iff.mp hp) | (obtain ⟨rfl, hq⟩ := Prod.ext_iff.mp hp; obtain ⟨rfl, rfl⟩ := Prod.ext_iff.mp hq) | (obtain ⟨rfl, hq⟩ := Prod.ext_iff.mp hp; obtain ⟨rfl, _⟩ := Prod.ext_iff.mp hq) | (obtain ⟨_, hq⟩ := Prod.ext_iff.mp hp; obtain ⟨rfl, _⟩ := Prod.ext_iff.mp hq) | (obtain ⟨rfl, _⟩ := Prod.ext_iff.mp hp) | (obtain ⟨_, rfl⟩ := Prod.ext_iff.mp hp)))) <;> first | rfl | (simp; done) | (simp_all; done)

@[simp] theorem dispatchStep_frame (s : State) (slot : Nat) :
    (dispatchStep s slot).time = s.time ∧ (dispatchStep s slot).part = s.part ∧ (dispatchStep s slot).pwr = s.pwr ∧
    (dispatchStep s slot).link = s.link ∧ (dispatchStep s slot).pending = s.pending := by
  unfold dispatchStep
  (try dsimp only)
  (repeat' (split <;> try (rename_i hp; first | (obtain ⟨rfl, rfl⟩ := Prod.ext_iff.mp hp) | (obtain ⟨rfl, hq⟩ := Prod.ext_iff.mp hp; obtain ⟨rfl, rfl⟩ := Prod.ext_iff.mp hq) | (obtain ⟨rfl, hq⟩ := Prod.ext_iff.mp hp; obtain ⟨rfl, _⟩ := Prod.ext_iff.mp hq) | (obtain ⟨_, hq⟩ := Prod.ext_iff.mp hp; obtain ⟨rfl, _⟩ := Prod.ext_iff.mp hq) | (obtain ⟨rfl, _⟩ := Prod.ext_iff.mp hp) | (obtain ⟨_, rfl⟩ := Prod.ext_iff.mp hp)))) <;> first | rfl | (simp; done) | (simp_all; done)

@[simp] theorem planDispatch_frame (s : State) :
    (planDispatch s).time = s.time ∧ (planDispatch s).part = s.part ∧ (planDispatch s).pwr = s.pwr ∧
    (planDispatch s).link = s.link ∧ (planDispatch s).pending = s.pending := by
  unfold planDispatch
  simp

@[simp] theorem preemptStep_frame (s : State) (slot : Nat) :
    (preemptStep s slot).time = s.time ∧ (preemptStep s slot).cp = s.cp ∧ (preemptStep s slot).part = s.part ∧
    (preemptStep s slot).err = s.err ∧ (preemptStep s slot).pwr = s.pwr ∧ (preemptStep s slot).mgmt = s.mgmt ∧
    (preemptStep s slot).boot = s.boot ∧ (preemptStep s slot).reg = s.reg ∧ (preemptStep s slot).trans = s.trans ∧
    (preemptStep s slot).link = s.link ∧ (preemptStep s slot).chord = s.chord ∧ (preemptStep s slot).fresh = s.fresh ∧
    (preemptStep s slot).pending = s.pending := by
  unfold preemptStep
  simp

@[simp] theorem judgeStep_frame (s : State) (slot : Nat) :
    (judgeStep s slot).time = s.time ∧ (judgeStep s slot).part = s.part ∧ (judgeStep s slot).err = s.err ∧
    (judgeStep s slot).pwr = s.pwr ∧ (judgeStep s slot).mgmt = s.mgmt ∧ (judgeStep s slot).boot = s.boot ∧
    (judgeStep s slot).reg = s.reg ∧ (judgeStep s slot).link = s.link ∧ (judgeStep s slot).fresh = s.fresh ∧
    (judgeStep s slot).pending = s.pending := by
  unfold judgeStep
  (try dsimp only)
  (repeat' (split <;> try (rename_i hp; first | (obtain ⟨rfl, rfl⟩ := Prod.ext_iff.mp hp) | (obtain ⟨rfl, hq⟩ := Prod.ext_iff.mp hp; obtain ⟨rfl, rfl⟩ := Prod.ext_iff.mp hq) | (obtain ⟨rfl, hq⟩ := Prod.ext_iff.mp hp; obtain ⟨rfl, _⟩ := Prod.ext_iff.mp hq) | (obtain ⟨_, hq⟩ := Prod.ext_iff.mp hp; obtain ⟨rfl, _⟩ := Prod.ext_iff.mp hq) | (obtain ⟨rfl, _⟩ := Prod.ext_iff.mp hp) | (obtain ⟨_, rfl⟩ := Prod.ext_iff.mp hp)))) <;> first | rfl | (simp; done) | (simp_all; done)

@[simp] theorem settleSaving_frame (s : State) (slot : Nat) :
    (settleSaving s slot).time = s.time ∧ (settleSaving s slot).cp = s.cp ∧ (settleSaving s slot).part = s.part ∧
    (settleSaving s slot).err = s.err ∧ (settleSaving s slot).pwr = s.pwr ∧ (settleSaving s slot).mgmt = s.mgmt ∧
    (settleSaving s slot).boot = s.boot ∧ (settleSaving s slot).cells = s.cells ∧ (settleSaving s slot).mem = s.mem ∧
    (settleSaving s slot).reg = s.reg ∧ (settleSaving s slot).trans = s.trans ∧
    (settleSaving s slot).attic = s.attic ∧ (settleSaving s slot).link = s.link ∧
    (settleSaving s slot).chord = s.chord ∧ (settleSaving s slot).fresh = s.fresh ∧
    (settleSaving s slot).out = s.out ∧ (settleSaving s slot).pending = s.pending := by
  unfold settleSaving
  (try dsimp only)
  (repeat' (split <;> try (rename_i hp; first | (obtain ⟨rfl, rfl⟩ := Prod.ext_iff.mp hp) | (obtain ⟨rfl, hq⟩ := Prod.ext_iff.mp hp; obtain ⟨rfl, rfl⟩ := Prod.ext_iff.mp hq) | (obtain ⟨rfl, hq⟩ := Prod.ext_iff.mp hp; obtain ⟨rfl, _⟩ := Prod.ext_iff.mp hq) | (obtain ⟨_, hq⟩ := Prod.ext_iff.mp hp; obtain ⟨rfl, _⟩ := Prod.ext_iff.mp hq) | (obtain ⟨rfl, _⟩ := Prod.ext_iff.mp hp) | (obtain ⟨_, rfl⟩ := Prod.ext_iff.mp hp)))) <;> first | rfl | (simp; done) | (simp_all; done)

end Sys2Proof.Machine
end

