-- ==== Sys2Proof/Laws/FrameReg.lean ====
section
/-! SUPPORT. What each operation of Machine/Reg.lean leaves as it was, by component of the state. -/
set_option maxRecDepth 4000
set_option exponentiation.threshold 2000
namespace Sys2Proof.Machine

@[simp] theorem raiseReg_frame (s : State) (e : EventCode) (ctx : Nat) (d : RegDetail) :
    (raiseReg s e ctx d).time = s.time ∧ (raiseReg s e ctx d).part = s.part ∧ (raiseReg s e ctx d).err = s.err ∧
    (raiseReg s e ctx d).pwr = s.pwr ∧ (raiseReg s e ctx d).boot = s.boot ∧ (raiseReg s e ctx d).cells = s.cells ∧
    (raiseReg s e ctx d).mem = s.mem ∧ (raiseReg s e ctx d).larder = s.larder ∧ (raiseReg s e ctx d).reg = s.reg ∧
    (raiseReg s e ctx d).trans = s.trans ∧ (raiseReg s e ctx d).attic = s.attic ∧ (raiseReg s e ctx d).link = s.link ∧
    (raiseReg s e ctx d).chord = s.chord ∧ (raiseReg s e ctx d).fresh = s.fresh ∧
    (raiseReg s e ctx d).pending = s.pending := by
  unfold raiseReg
  simp

@[simp] theorem endMasterStrum_frame (s : State) (m : Nat) :
    (endMasterStrum s m).time = s.time ∧ (endMasterStrum s m).part = s.part ∧ (endMasterStrum s m).err = s.err ∧
    (endMasterStrum s m).pwr = s.pwr ∧ (endMasterStrum s m).boot = s.boot ∧ (endMasterStrum s m).cells = s.cells ∧
    (endMasterStrum s m).mem = s.mem ∧ (endMasterStrum s m).larder = s.larder ∧ (endMasterStrum s m).trans = s.trans ∧
    (endMasterStrum s m).attic = s.attic ∧ (endMasterStrum s m).link = s.link ∧ (endMasterStrum s m).chord = s.chord ∧
    (endMasterStrum s m).fresh = s.fresh ∧ (endMasterStrum s m).pending = s.pending := by
  unfold endMasterStrum
  simp

@[simp] theorem endShelfStrum_frame (s : State) (n p : Nat) :
    (endShelfStrum s n p).time = s.time ∧ (endShelfStrum s n p).part = s.part ∧ (endShelfStrum s n p).err = s.err ∧
    (endShelfStrum s n p).pwr = s.pwr ∧ (endShelfStrum s n p).boot = s.boot ∧ (endShelfStrum s n p).cells = s.cells ∧
    (endShelfStrum s n p).mem = s.mem ∧ (endShelfStrum s n p).larder = s.larder ∧
    (endShelfStrum s n p).trans = s.trans ∧ (endShelfStrum s n p).attic = s.attic ∧
    (endShelfStrum s n p).link = s.link ∧ (endShelfStrum s n p).chord = s.chord ∧
    (endShelfStrum s n p).fresh = s.fresh ∧ (endShelfStrum s n p).pending = s.pending := by
  unfold endShelfStrum
  simp

@[simp] theorem reloadPartition_frame (s : State) (p : Nat) :
    (reloadPartition s p).time = s.time ∧ (reloadPartition s p).part = s.part ∧ (reloadPartition s p).err = s.err ∧
    (reloadPartition s p).pwr = s.pwr ∧ (reloadPartition s p).boot = s.boot ∧ (reloadPartition s p).cells = s.cells ∧
    (reloadPartition s p).mem = s.mem ∧ (reloadPartition s p).larder = s.larder ∧
    (reloadPartition s p).trans = s.trans ∧ (reloadPartition s p).attic = s.attic ∧
    (reloadPartition s p).link = s.link ∧ (reloadPartition s p).chord = s.chord ∧
    (reloadPartition s p).fresh = s.fresh ∧ (reloadPartition s p).pending = s.pending := by
  unfold reloadPartition
  simp

@[simp] theorem reloadShelf_frame (s : State) (n : Nat) :
    (reloadShelf s n).time = s.time ∧ (reloadShelf s n).part = s.part ∧ (reloadShelf s n).err = s.err ∧
    (reloadShelf s n).pwr = s.pwr ∧ (reloadShelf s n).boot = s.boot ∧ (reloadShelf s n).cells = s.cells ∧
    (reloadShelf s n).mem = s.mem ∧ (reloadShelf s n).larder = s.larder ∧ (reloadShelf s n).trans = s.trans ∧
    (reloadShelf s n).attic = s.attic ∧ (reloadShelf s n).link = s.link ∧ (reloadShelf s n).chord = s.chord ∧
    (reloadShelf s n).fresh = s.fresh ∧ (reloadShelf s n).pending = s.pending := by
  unfold reloadShelf
  simp

@[simp] theorem reloadMasters_frame (s : State) :
    (reloadMasters s).time = s.time ∧ (reloadMasters s).cp = s.cp ∧ (reloadMasters s).part = s.part ∧
    (reloadMasters s).err = s.err ∧ (reloadMasters s).pwr = s.pwr ∧ (reloadMasters s).mgmt = s.mgmt ∧
    (reloadMasters s).boot = s.boot ∧ (reloadMasters s).cells = s.cells ∧ (reloadMasters s).mem = s.mem ∧
    (reloadMasters s).larder = s.larder ∧ (reloadMasters s).trans = s.trans ∧ (reloadMasters s).attic = s.attic ∧
    (reloadMasters s).link = s.link ∧ (reloadMasters s).chord = s.chord ∧ (reloadMasters s).fresh = s.fresh ∧
    (reloadMasters s).out = s.out ∧ (reloadMasters s).pending = s.pending := by
  unfold reloadMasters
  simp

@[simp] theorem reloadShelfBudgets_frame (s : State) (n : Nat) :
    (reloadShelfBudgets s n).time = s.time ∧ (reloadShelfBudgets s n).cp = s.cp ∧
    (reloadShelfBudgets s n).part = s.part ∧ (reloadShelfBudgets s n).err = s.err ∧
    (reloadShelfBudgets s n).pwr = s.pwr ∧ (reloadShelfBudgets s n).mgmt = s.mgmt ∧
    (reloadShelfBudgets s n).boot = s.boot ∧ (reloadShelfBudgets s n).cells = s.cells ∧
    (reloadShelfBudgets s n).mem = s.mem ∧ (reloadShelfBudgets s n).larder = s.larder ∧
    (reloadShelfBudgets s n).trans = s.trans ∧ (reloadShelfBudgets s n).attic = s.attic ∧
    (reloadShelfBudgets s n).link = s.link ∧ (reloadShelfBudgets s n).chord = s.chord ∧
    (reloadShelfBudgets s n).fresh = s.fresh ∧ (reloadShelfBudgets s n).out = s.out ∧
    (reloadShelfBudgets s n).pending = s.pending := by
  unfold reloadShelfBudgets
  simp

@[simp] theorem regReload_frame (s : State) :
    (regReload s).time = s.time ∧ (regReload s).part = s.part ∧ (regReload s).err = s.err ∧
    (regReload s).pwr = s.pwr ∧ (regReload s).boot = s.boot ∧ (regReload s).cells = s.cells ∧
    (regReload s).mem = s.mem ∧ (regReload s).larder = s.larder ∧ (regReload s).trans = s.trans ∧
    (regReload s).attic = s.attic ∧ (regReload s).link = s.link ∧ (regReload s).chord = s.chord ∧
    (regReload s).fresh = s.fresh ∧ (regReload s).pending = s.pending := by
  unfold regReload
  simp

@[simp] theorem qosApply_frame (s : State) (e : QosEntry) :
    (qosApply s e).time = s.time ∧ (qosApply s e).cp = s.cp ∧ (qosApply s e).part = s.part ∧
    (qosApply s e).err = s.err ∧ (qosApply s e).pwr = s.pwr ∧ (qosApply s e).mgmt = s.mgmt ∧
    (qosApply s e).boot = s.boot ∧ (qosApply s e).cells = s.cells ∧ (qosApply s e).mem = s.mem ∧
    (qosApply s e).larder = s.larder ∧ (qosApply s e).trans = s.trans ∧ (qosApply s e).attic = s.attic ∧
    (qosApply s e).link = s.link ∧ (qosApply s e).chord = s.chord ∧ (qosApply s e).fresh = s.fresh ∧
    (qosApply s e).out = s.out ∧ (qosApply s e).pending = s.pending := by
  unfold qosApply
  (try dsimp only)
  (repeat' (split <;> try (rename_i hp; first | (obtain ⟨rfl, rfl⟩ := Prod.ext_iff.mp hp) | (obtain ⟨rfl, hq⟩ := Prod.ext_iff.mp hp; obtain ⟨rfl, rfl⟩ := Prod.ext_iff.mp hq) | (obtain ⟨rfl, hq⟩ := Prod.ext_iff.mp hp; obtain ⟨rfl, _⟩ := Prod.ext_iff.mp hq) | (obtain ⟨_, hq⟩ := Prod.ext_iff.mp hp; obtain ⟨rfl, _⟩ := Prod.ext_iff.mp hq) | (obtain ⟨rfl, _⟩ := Prod.ext_iff.mp hp) | (obtain ⟨_, rfl⟩ := Prod.ext_iff.mp hp)))) <;> first | rfl | (simp; done) | (simp_all; done)

end Sys2Proof.Machine
end

