-- ==== Sys2Proof/Laws/FramePowerMeter.lean ====
section
/-! SUPPORT. What each operation of Machine/PowerMeter.lean leaves as it was, by component of the state. -/
set_option maxRecDepth 4000
set_option exponentiation.threshold 2000
namespace Sys2Proof.Machine

@[simp] theorem powerLimiting_frame (s : State) (cause site budget measured : Nat) :
    (powerLimiting s cause site budget measured).time = s.time ∧
    (powerLimiting s cause site budget measured).part = s.part ∧
    (powerLimiting s cause site budget measured).err = s.err ∧
    (powerLimiting s cause site budget measured).boot = s.boot ∧
    (powerLimiting s cause site budget measured).cells = s.cells ∧
    (powerLimiting s cause site budget measured).mem = s.mem ∧
    (powerLimiting s cause site budget measured).larder = s.larder ∧
    (powerLimiting s cause site budget measured).reg = s.reg ∧
    (powerLimiting s cause site budget measured).trans = s.trans ∧
    (powerLimiting s cause site budget measured).attic = s.attic ∧
    (powerLimiting s cause site budget measured).link = s.link ∧
    (powerLimiting s cause site budget measured).chord = s.chord ∧
    (powerLimiting s cause site budget measured).fresh = s.fresh ∧
    (powerLimiting s cause site budget measured).pending = s.pending := by
  unfold powerLimiting
  simp

@[simp] theorem modAtticPower_frame (s : State) (t : Nat) (f : AtticPower → AtticPower) :
    (modAtticPower s t f).time = s.time ∧ (modAtticPower s t f).cp = s.cp ∧ (modAtticPower s t f).part = s.part ∧
    (modAtticPower s t f).err = s.err ∧ (modAtticPower s t f).mgmt = s.mgmt ∧ (modAtticPower s t f).boot = s.boot ∧
    (modAtticPower s t f).cells = s.cells ∧ (modAtticPower s t f).mem = s.mem ∧
    (modAtticPower s t f).larder = s.larder ∧ (modAtticPower s t f).reg = s.reg ∧
    (modAtticPower s t f).trans = s.trans ∧ (modAtticPower s t f).attic = s.attic ∧
    (modAtticPower s t f).link = s.link ∧ (modAtticPower s t f).chord = s.chord ∧
    (modAtticPower s t f).fresh = s.fresh ∧ (modAtticPower s t f).out = s.out ∧
    (modAtticPower s t f).pending = s.pending := by
  unfold modAtticPower
  simp

@[simp] theorem cutWindows_frame (s : State) :
    (cutWindows s).time = s.time ∧ (cutWindows s).cp = s.cp ∧ (cutWindows s).part = s.part ∧
    (cutWindows s).err = s.err ∧ (cutWindows s).pwr = s.pwr ∧ (cutWindows s).mgmt = s.mgmt ∧
    (cutWindows s).boot = s.boot ∧ (cutWindows s).cells = s.cells ∧ (cutWindows s).mem = s.mem ∧
    (cutWindows s).larder = s.larder ∧ (cutWindows s).reg = s.reg ∧ (cutWindows s).trans = s.trans ∧
    (cutWindows s).attic = s.attic ∧ (cutWindows s).link = s.link ∧ (cutWindows s).fresh = s.fresh ∧
    (cutWindows s).out = s.out ∧ (cutWindows s).pending = s.pending := by
  unfold cutWindows
  simp

@[simp] theorem meterFret_frame (s : State) :
    (meterFret s).time = s.time ∧ (meterFret s).cp = s.cp ∧ (meterFret s).part = s.part ∧ (meterFret s).err = s.err ∧
    (meterFret s).mgmt = s.mgmt ∧ (meterFret s).boot = s.boot ∧ (meterFret s).cells = s.cells ∧
    (meterFret s).mem = s.mem ∧ (meterFret s).larder = s.larder ∧ (meterFret s).reg = s.reg ∧
    (meterFret s).trans = s.trans ∧ (meterFret s).attic = s.attic ∧ (meterFret s).link = s.link ∧
    (meterFret s).chord = s.chord ∧ (meterFret s).out = s.out ∧ (meterFret s).pending = s.pending := by
  unfold meterFret
  simp

@[simp] theorem cutBudgets_frame (s : State) :
    (cutBudgets s).time = s.time ∧ (cutBudgets s).cp = s.cp ∧ (cutBudgets s).part = s.part ∧
    (cutBudgets s).err = s.err ∧ (cutBudgets s).pwr = s.pwr ∧ (cutBudgets s).mgmt = s.mgmt ∧
    (cutBudgets s).boot = s.boot ∧ (cutBudgets s).cells = s.cells ∧ (cutBudgets s).mem = s.mem ∧
    (cutBudgets s).larder = s.larder ∧ (cutBudgets s).trans = s.trans ∧ (cutBudgets s).attic = s.attic ∧
    (cutBudgets s).link = s.link ∧ (cutBudgets s).chord = s.chord ∧ (cutBudgets s).fresh = s.fresh ∧
    (cutBudgets s).out = s.out ∧ (cutBudgets s).pending = s.pending := by
  unfold cutBudgets
  simp

@[simp] theorem hbmFret_frame (s : State) :
    (hbmFret s).time = s.time ∧ (hbmFret s).part = s.part ∧ (hbmFret s).err = s.err ∧ (hbmFret s).boot = s.boot ∧
    (hbmFret s).cells = s.cells ∧ (hbmFret s).mem = s.mem ∧ (hbmFret s).larder = s.larder ∧ (hbmFret s).reg = s.reg ∧
    (hbmFret s).trans = s.trans ∧ (hbmFret s).attic = s.attic ∧ (hbmFret s).link = s.link ∧
    (hbmFret s).chord = s.chord ∧ (hbmFret s).pending = s.pending := by
  unfold hbmFret
  simp

@[simp] theorem powerFret_frame (s : State) (done : Nat) :
    (powerFret s done).time = s.time ∧ (powerFret s done).part = s.part ∧ (powerFret s done).err = s.err ∧
    (powerFret s done).boot = s.boot ∧ (powerFret s done).cells = s.cells ∧ (powerFret s done).mem = s.mem ∧
    (powerFret s done).larder = s.larder ∧ (powerFret s done).trans = s.trans ∧ (powerFret s done).attic = s.attic ∧
    (powerFret s done).link = s.link ∧ (powerFret s done).pending = s.pending := by
  unfold powerFret
  simp

@[simp] theorem closePower_frame (s : State) :
    (closePower s).time = s.time ∧ (closePower s).cp = s.cp ∧ (closePower s).part = s.part ∧
    (closePower s).err = s.err ∧ (closePower s).mgmt = s.mgmt ∧ (closePower s).boot = s.boot ∧
    (closePower s).cells = s.cells ∧ (closePower s).mem = s.mem ∧ (closePower s).larder = s.larder ∧
    (closePower s).reg = s.reg ∧ (closePower s).trans = s.trans ∧ (closePower s).attic = s.attic ∧
    (closePower s).link = s.link ∧ (closePower s).chord = s.chord ∧ (closePower s).fresh = s.fresh ∧
    (closePower s).out = s.out ∧ (closePower s).pending = s.pending := by
  unfold closePower
  simp

@[simp] theorem hbmLimit_frame (s : State) :
    (hbmLimit s).time = s.time ∧ (hbmLimit s).part = s.part ∧ (hbmLimit s).err = s.err ∧ (hbmLimit s).boot = s.boot ∧
    (hbmLimit s).cells = s.cells ∧ (hbmLimit s).mem = s.mem ∧ (hbmLimit s).larder = s.larder ∧
    (hbmLimit s).reg = s.reg ∧ (hbmLimit s).trans = s.trans ∧ (hbmLimit s).attic = s.attic ∧
    (hbmLimit s).link = s.link ∧ (hbmLimit s).chord = s.chord ∧ (hbmLimit s).fresh = s.fresh ∧
    (hbmLimit s).pending = s.pending := by
  unfold hbmLimit
  simp

@[simp] theorem applyCaps_frame (s : State) :
    (applyCaps s).time = s.time ∧ (applyCaps s).cp = s.cp ∧ (applyCaps s).part = s.part ∧ (applyCaps s).err = s.err ∧
    (applyCaps s).mgmt = s.mgmt ∧ (applyCaps s).boot = s.boot ∧ (applyCaps s).cells = s.cells ∧
    (applyCaps s).mem = s.mem ∧ (applyCaps s).larder = s.larder ∧ (applyCaps s).reg = s.reg ∧
    (applyCaps s).trans = s.trans ∧ (applyCaps s).attic = s.attic ∧ (applyCaps s).link = s.link ∧
    (applyCaps s).chord = s.chord ∧ (applyCaps s).fresh = s.fresh ∧ (applyCaps s).out = s.out ∧
    (applyCaps s).pending = s.pending := by
  unfold applyCaps
  (try dsimp only)
  (repeat' (split <;> try (rename_i hp; first | (obtain ⟨rfl, rfl⟩ := Prod.ext_iff.mp hp) | (obtain ⟨rfl, hq⟩ := Prod.ext_iff.mp hp; obtain ⟨rfl, rfl⟩ := Prod.ext_iff.mp hq) | (obtain ⟨rfl, hq⟩ := Prod.ext_iff.mp hp; obtain ⟨rfl, _⟩ := Prod.ext_iff.mp hq) | (obtain ⟨_, hq⟩ := Prod.ext_iff.mp hp; obtain ⟨rfl, _⟩ := Prod.ext_iff.mp hq) | (obtain ⟨rfl, _⟩ := Prod.ext_iff.mp hp) | (obtain ⟨_, rfl⟩ := Prod.ext_iff.mp hp)))) <;> first | rfl | (simp; done) | (simp_all; done)

@[simp] theorem judgeReports_frame (s : State) :
    (judgeReports s).time = s.time ∧ (judgeReports s).part = s.part ∧ (judgeReports s).err = s.err ∧
    (judgeReports s).boot = s.boot ∧ (judgeReports s).cells = s.cells ∧ (judgeReports s).mem = s.mem ∧
    (judgeReports s).larder = s.larder ∧ (judgeReports s).reg = s.reg ∧ (judgeReports s).trans = s.trans ∧
    (judgeReports s).link = s.link ∧ (judgeReports s).chord = s.chord ∧ (judgeReports s).fresh = s.fresh ∧
    (judgeReports s).pending = s.pending := by
  unfold judgeReports
  simp

@[simp] theorem sendGrants_frame (s : State) :
    (sendGrants s).time = s.time ∧ (sendGrants s).cp = s.cp ∧ (sendGrants s).part = s.part ∧
    (sendGrants s).err = s.err ∧ (sendGrants s).mgmt = s.mgmt ∧ (sendGrants s).boot = s.boot ∧
    (sendGrants s).cells = s.cells ∧ (sendGrants s).mem = s.mem ∧ (sendGrants s).larder = s.larder ∧
    (sendGrants s).reg = s.reg ∧ (sendGrants s).trans = s.trans ∧ (sendGrants s).attic = s.attic ∧
    (sendGrants s).link = s.link ∧ (sendGrants s).chord = s.chord ∧ (sendGrants s).fresh = s.fresh ∧
    (sendGrants s).pending = s.pending := by
  unfold sendGrants
  simp

@[simp] theorem coarsen_frame (s : State) :
    (coarsen s).time = s.time ∧ (coarsen s).cp = s.cp ∧ (coarsen s).part = s.part ∧ (coarsen s).err = s.err ∧
    (coarsen s).mgmt = s.mgmt ∧ (coarsen s).boot = s.boot ∧ (coarsen s).cells = s.cells ∧ (coarsen s).mem = s.mem ∧
    (coarsen s).larder = s.larder ∧ (coarsen s).reg = s.reg ∧ (coarsen s).trans = s.trans ∧
    (coarsen s).attic = s.attic ∧ (coarsen s).link = s.link ∧ (coarsen s).chord = s.chord ∧
    (coarsen s).fresh = s.fresh ∧ (coarsen s).out = s.out ∧ (coarsen s).pending = s.pending := by
  unfold coarsen
  simp

@[simp] theorem powerBoundary_frame (s : State) :
    (powerBoundary s).time = s.time ∧ (powerBoundary s).part = s.part ∧ (powerBoundary s).err = s.err ∧
    (powerBoundary s).boot = s.boot ∧ (powerBoundary s).cells = s.cells ∧ (powerBoundary s).mem = s.mem ∧
    (powerBoundary s).larder = s.larder ∧ (powerBoundary s).reg = s.reg ∧ (powerBoundary s).trans = s.trans ∧
    (powerBoundary s).link = s.link ∧ (powerBoundary s).chord = s.chord ∧ (powerBoundary s).fresh = s.fresh ∧
    (powerBoundary s).pending = s.pending := by
  unfold powerBoundary
  simp

end Sys2Proof.Machine
end

