-- ==== Sys2Proof/Laws/FrameRegView.lean ====
section
/-! SUPPORT. What each operation of Machine/RegView.lean leaves as it was, by component of the state. -/
set_option maxRecDepth 4000
set_option exponentiation.threshold 2000
namespace Sys2Proof.Machine

@[simp] theorem modComparator_frame (s : State) (k : Nat) (f : Comparator → Comparator) :
    (modComparator s k f).time = s.time ∧ (modComparator s k f).cp = s.cp ∧ (modComparator s k f).part = s.part ∧
    (modComparator s k f).err = s.err ∧ (modComparator s k f).mgmt = s.mgmt ∧ (modComparator s k f).boot = s.boot ∧
    (modComparator s k f).cells = s.cells ∧ (modComparator s k f).mem = s.mem ∧
    (modComparator s k f).larder = s.larder ∧ (modComparator s k f).reg = s.reg ∧
    (modComparator s k f).trans = s.trans ∧ (modComparator s k f).attic = s.attic ∧
    (modComparator s k f).link = s.link ∧ (modComparator s k f).chord = s.chord ∧
    (modComparator s k f).fresh = s.fresh ∧ (modComparator s k f).out = s.out ∧
    (modComparator s k f).pending = s.pending := by
  unfold modComparator
  simp

@[simp] theorem latchRegs_frame (s : State) :
    (latchRegs s).time = s.time ∧ (latchRegs s).cp = s.cp ∧ (latchRegs s).err = s.err ∧ (latchRegs s).pwr = s.pwr ∧
    (latchRegs s).mgmt = s.mgmt ∧ (latchRegs s).boot = s.boot ∧ (latchRegs s).cells = s.cells ∧
    (latchRegs s).mem = s.mem ∧ (latchRegs s).larder = s.larder ∧ (latchRegs s).reg = s.reg ∧
    (latchRegs s).trans = s.trans ∧ (latchRegs s).attic = s.attic ∧ (latchRegs s).link = s.link ∧
    (latchRegs s).chord = s.chord ∧ (latchRegs s).fresh = s.fresh ∧ (latchRegs s).out = s.out ∧
    (latchRegs s).pending = s.pending := by
  unfold latchRegs
  simp

end Sys2Proof.Machine
end

