-- ==== Sys2Proof/Laws/FrameKernelMem.lean ====
section
/-! SUPPORT. What each operation of Machine/KernelMem.lean leaves as it was, by component of the state. -/
set_option maxRecDepth 4000
set_option exponentiation.threshold 2000
namespace Sys2Proof.Machine

@[simp] theorem noteRefusal_frame (s : State) (k : Nat) (code : Nat) :
    (noteRefusal s k code).time = s.time ∧ (noteRefusal s k code).cp = s.cp ∧ (noteRefusal s k code).err = s.err ∧
    (noteRefusal s k code).pwr = s.pwr ∧ (noteRefusal s k code).mgmt = s.mgmt ∧ (noteRefusal s k code).boot = s.boot ∧
    (noteRefusal s k code).cells = s.cells ∧ (noteRefusal s k code).mem = s.mem ∧
    (noteRefusal s k code).larder = s.larder ∧ (noteRefusal s k code).reg = s.reg ∧
    (noteRefusal s k code).trans = s.trans ∧ (noteRefusal s k code).attic = s.attic ∧
    (noteRefusal s k code).link = s.link ∧ (noteRefusal s k code).chord = s.chord ∧
    (noteRefusal s k code).fresh = s.fresh ∧ (noteRefusal s k code).out = s.out ∧
    (noteRefusal s k code).pending = s.pending := by
  unfold noteRefusal
  simp

@[simp] theorem registerReads_frame (s : State) (k id : Nat) (r : LoadRec) :
    (registerReads s k id r).time = s.time ∧ (registerReads s k id r).cp = s.cp ∧
    (registerReads s k id r).part = s.part ∧ (registerReads s k id r).err = s.err ∧
    (registerReads s k id r).pwr = s.pwr ∧ (registerReads s k id r).mgmt = s.mgmt ∧
    (registerReads s k id r).boot = s.boot ∧ (registerReads s k id r).larder = s.larder ∧
    (registerReads s k id r).reg = s.reg ∧ (registerReads s k id r).trans = s.trans ∧
    (registerReads s k id r).attic = s.attic ∧ (registerReads s k id r).link = s.link ∧
    (registerReads s k id r).chord = s.chord ∧ (registerReads s k id r).fresh = s.fresh ∧
    (registerReads s k id r).out = s.out ∧ (registerReads s k id r).pending = s.pending := by
  unfold registerReads
  simp

@[simp] theorem startLoad_time (s : State) (k : Nat) (r : LoadRec) :
    (startLoad s k r).time = s.time := by
  unfold startLoad
  dsimp only
  generalize List.foldl _ _ r.threads = w
  obtain ⟨got, pz⟩ := w
  dsimp only
  generalize hq : List.foldl _ _ (cachedLines _ _ _) = q
  have h : q.1.time = s.time := by
    rw [← hq]
    refine (foldlFst_time _ _ _ (fun x l => ?_)).trans rfl
    obtain ⟨s, got, pz, need⟩ := x
    dsimp only
    generalize hp : coreLoad _ _ _ _ _ = p
    have h : p.1.time = s.time := by rw [← hp]; simp
    obtain ⟨s', b, p', more⟩ := p
    exact h
  obtain ⟨s', g', p', need⟩ := q
  simpa using h

@[simp] theorem startLoad_cp (s : State) (k : Nat) (r : LoadRec) :
    (startLoad s k r).cp = s.cp := by
  unfold startLoad
  dsimp only
  generalize List.foldl _ _ r.threads = w
  obtain ⟨got, pz⟩ := w
  dsimp only
  generalize hq : List.foldl _ _ (cachedLines _ _ _) = q
  have h : q.1.cp = s.cp := by
    rw [← hq]
    refine (foldlFst_cp _ _ _ (fun x l => ?_)).trans rfl
    obtain ⟨s, got, pz, need⟩ := x
    dsimp only
    generalize hp : coreLoad _ _ _ _ _ = p
    have h : p.1.cp = s.cp := by rw [← hp]; simp
    obtain ⟨s', b, p', more⟩ := p
    exact h
  obtain ⟨s', g', p', need⟩ := q
  simpa using h

@[simp] theorem startLoad_part (s : State) (k : Nat) (r : LoadRec) :
    (startLoad s k r).part = s.part := by
  unfold startLoad
  dsimp only
  generalize List.foldl _ _ r.threads = w
  obtain ⟨got, pz⟩ := w
  dsimp only
  generalize hq : List.foldl _ _ (cachedLines _ _ _) = q
  have h : q.1.part = s.part := by
    rw [← hq]
    refine (foldlFst_part _ _ _ (fun x l => ?_)).trans rfl
    obtain ⟨s, got, pz, need⟩ := x
    dsimp only
    generalize hp : coreLoad _ _ _ _ _ = p
    have h : p.1.part = s.part := by rw [← hp]; simp
    obtain ⟨s', b, p', more⟩ := p
    exact h
  obtain ⟨s', g', p', need⟩ := q
  simpa using h

@[simp] theorem startLoad_err (s : State) (k : Nat) (r : LoadRec) :
    (startLoad s k r).err = s.err := by
  unfold startLoad
  dsimp only
  generalize List.foldl _ _ r.threads = w
  obtain ⟨got, pz⟩ := w
  dsimp only
  generalize hq : List.foldl _ _ (cachedLines _ _ _) = q
  have h : q.1.err = s.err := by
    rw [← hq]
    refine (foldlFst_err _ _ _ (fun x l => ?_)).trans rfl
    obtain ⟨s, got, pz, need⟩ := x
    dsimp only
    generalize hp : coreLoad _ _ _ _ _ = p
    have h : p.1.err = s.err := by rw [← hp]; simp
    obtain ⟨s', b, p', more⟩ := p
    exact h
  obtain ⟨s', g', p', need⟩ := q
  simpa using h

@[simp] theorem startLoad_pwr (s : State) (k : Nat) (r : LoadRec) :
    (startLoad s k r).pwr = s.pwr := by
  unfold startLoad
  dsimp only
  generalize List.foldl _ _ r.threads = w
  obtain ⟨got, pz⟩ := w
  dsimp only
  generalize hq : List.foldl _ _ (cachedLines _ _ _) = q
  have h : q.1.pwr = s.pwr := by
    rw [← hq]
    refine (foldlFst_pwr _ _ _ (fun x l => ?_)).trans rfl
    obtain ⟨s, got, pz, need⟩ := x
    dsimp only
    generalize hp : coreLoad _ _ _ _ _ = p
    have h : p.1.pwr = s.pwr := by rw [← hp]; simp
    obtain ⟨s', b, p', more⟩ := p
    exact h
  obtain ⟨s', g', p', need⟩ := q
  simpa using h

@[simp] theorem startLoad_mgmt (s : State) (k : Nat) (r : LoadRec) :
    (startLoad s k r).mgmt = s.mgmt := by
  unfold startLoad
  dsimp only
  generalize List.foldl _ _ r.threads = w
  obtain ⟨got, pz⟩ := w
  dsimp only
  generalize hq : List.foldl _ _ (cachedLines _ _ _) = q
  have h : q.1.mgmt = s.mgmt := by
    rw [← hq]
    refine (foldlFst_mgmt _ _ _ (fun x l => ?_)).trans rfl
    obtain ⟨s, got, pz, need⟩ := x
    dsimp only
    generalize hp : coreLoad _ _ _ _ _ = p
    have h : p.1.mgmt = s.mgmt := by rw [← hp]; simp
    obtain ⟨s', b, p', more⟩ := p
    exact h
  obtain ⟨s', g', p', need⟩ := q
  simpa using h

@[simp] theorem startLoad_boot (s : State) (k : Nat) (r : LoadRec) :
    (startLoad s k r).boot = s.boot := by
  unfold startLoad
  dsimp only
  generalize List.foldl _ _ r.threads = w
  obtain ⟨got, pz⟩ := w
  dsimp only
  generalize hq : List.foldl _ _ (cachedLines _ _ _) = q
  have h : q.1.boot = s.boot := by
    rw [← hq]
    refine (foldlFst_boot _ _ _ (fun x l => ?_)).trans rfl
    obtain ⟨s, got, pz, need⟩ := x
    dsimp only
    generalize hp : coreLoad _ _ _ _ _ = p
    have h : p.1.boot = s.boot := by rw [← hp]; simp
    obtain ⟨s', b, p', more⟩ := p
    exact h
  obtain ⟨s', g', p', need⟩ := q
  simpa using h

@[simp] theorem startLoad_larder (s : State) (k : Nat) (r : LoadRec) :
    (startLoad s k r).larder = s.larder := by
  unfold startLoad
  dsimp only
  generalize List.foldl _ _ r.threads = w
  obtain ⟨got, pz⟩ := w
  dsimp only
  generalize hq : List.foldl _ _ (cachedLines _ _ _) = q
  have h : q.1.larder = s.larder := by
    rw [← hq]
    refine (foldlFst_larder _ _ _ (fun x l => ?_)).trans rfl
    obtain ⟨s, got, pz, need⟩ := x
    dsimp only
    generalize hp : coreLoad _ _ _ _ _ = p
    have h : p.1.larder = s.larder := by rw [← hp]; simp
    obtain ⟨s', b, p', more⟩ := p
    exact h
  obtain ⟨s', g', p', need⟩ := q
  simpa using h

@[simp] theorem startLoad_reg (s : State) (k : Nat) (r : LoadRec) :
    (startLoad s k r).reg = s.reg := by
  unfold startLoad
  dsimp only
  generalize List.foldl _ _ r.threads = w
  obtain ⟨got, pz⟩ := w
  dsimp only
  generalize hq : List.foldl _ _ (cachedLines _ _ _) = q
  have h : q.1.reg = s.reg := by
    rw [← hq]
    refine (foldlFst_reg _ _ _ (fun x l => ?_)).trans rfl
    obtain ⟨s, got, pz, need⟩ := x
    dsimp only
    generalize hp : coreLoad _ _ _ _ _ = p
    have h : p.1.reg = s.reg := by rw [← hp]; simp
    obtain ⟨s', b, p', more⟩ := p
    exact h
  obtain ⟨s', g', p', need⟩ := q
  simpa using h

@[simp] theorem startLoad_trans (s : State) (k : Nat) (r : LoadRec) :
    (startLoad s k r).trans = s.trans := by
  unfold startLoad
  dsimp only
  generalize List.foldl _ _ r.threads = w
  obtain ⟨got, pz⟩ := w
  dsimp only
  generalize hq : List.foldl _ _ (cachedLines _ _ _) = q
  have h : q.1.trans = s.trans := by
    rw [← hq]
    refine (foldlFst_trans _ _ _ (fun x l => ?_)).trans rfl
    obtain ⟨s, got, pz, need⟩ := x
    dsimp only
    generalize hp : coreLoad _ _ _ _ _ = p
    have h : p.1.trans = s.trans := by rw [← hp]; simp
    obtain ⟨s', b, p', more⟩ := p
    exact h
  obtain ⟨s', g', p', need⟩ := q
  simpa using h

@[simp] theorem startLoad_attic (s : State) (k : Nat) (r : LoadRec) :
    (startLoad s k r).attic = s.attic := by
  unfold startLoad
  dsimp only
  generalize List.foldl _ _ r.threads = w
  obtain ⟨got, pz⟩ := w
  dsimp only
  generalize hq : List.foldl _ _ (cachedLines _ _ _) = q
  have h : q.1.attic = s.attic := by
    rw [← hq]
    refine (foldlFst_attic _ _ _ (fun x l => ?_)).trans rfl
    obtain ⟨s, got, pz, need⟩ := x
    dsimp only
    generalize hp : coreLoad _ _ _ _ _ = p
    have h : p.1.attic = s.attic := by rw [← hp]; simp
    obtain ⟨s', b, p', more⟩ := p
    exact h
  obtain ⟨s', g', p', need⟩ := q
  simpa using h

@[simp] theorem startLoad_link (s : State) (k : Nat) (r : LoadRec) :
    (startLoad s k r).link = s.link := by
  unfold startLoad
  dsimp only
  generalize List.foldl _ _ r.threads = w
  obtain ⟨got, pz⟩ := w
  dsimp only
  generalize hq : List.foldl _ _ (cachedLines _ _ _) = q
  have h : q.1.link = s.link := by
    rw [← hq]
    refine (foldlFst_link _ _ _ (fun x l => ?_)).trans rfl
    obtain ⟨s, got, pz, need⟩ := x
    dsimp only
    generalize hp : coreLoad _ _ _ _ _ = p
    have h : p.1.link = s.link := by rw [← hp]; simp
    obtain ⟨s', b, p', more⟩ := p
    exact h
  obtain ⟨s', g', p', need⟩ := q
  simpa using h

@[simp] theorem startLoad_chord (s : State) (k : Nat) (r : LoadRec) :
    (startLoad s k r).chord = s.chord := by
  unfold startLoad
  dsimp only
  generalize List.foldl _ _ r.threads = w
  obtain ⟨got, pz⟩ := w
  dsimp only
  generalize hq : List.foldl _ _ (cachedLines _ _ _) = q
  have h : q.1.chord = s.chord := by
    rw [← hq]
    refine (foldlFst_chord _ _ _ (fun x l => ?_)).trans rfl
    obtain ⟨s, got, pz, need⟩ := x
    dsimp only
    generalize hp : coreLoad _ _ _ _ _ = p
    have h : p.1.chord = s.chord := by rw [← hp]; simp
    obtain ⟨s', b, p', more⟩ := p
    exact h
  obtain ⟨s', g', p', need⟩ := q
  simpa using h

@[simp] theorem startLoad_fresh (s : State) (k : Nat) (r : LoadRec) :
    (startLoad s k r).fresh = s.fresh := by
  unfold startLoad
  dsimp only
  generalize List.foldl _ _ r.threads = w
  obtain ⟨got, pz⟩ := w
  dsimp only
  generalize hq : List.foldl _ _ (cachedLines _ _ _) = q
  have h : q.1.fresh = s.fresh := by
    rw [← hq]
    refine (foldlFst_fresh _ _ _ (fun x l => ?_)).trans rfl
    obtain ⟨s, got, pz, need⟩ := x
    dsimp only
    generalize hp : coreLoad _ _ _ _ _ = p
    have h : p.1.fresh = s.fresh := by rw [← hp]; simp
    obtain ⟨s', b, p', more⟩ := p
    exact h
  obtain ⟨s', g', p', need⟩ := q
  simpa using h

@[simp] theorem startLoad_pending (s : State) (k : Nat) (r : LoadRec) :
    (startLoad s k r).pending = s.pending := by
  unfold startLoad
  dsimp only
  generalize List.foldl _ _ r.threads = w
  obtain ⟨got, pz⟩ := w
  dsimp only
  generalize hq : List.foldl _ _ (cachedLines _ _ _) = q
  have h : q.1.pending = s.pending := by
    rw [← hq]
    refine (foldlFst_pending _ _ _ (fun x l => ?_)).trans rfl
    obtain ⟨s, got, pz, need⟩ := x
    dsimp only
    generalize hp : coreLoad _ _ _ _ _ = p
    have h : p.1.pending = s.pending := by rw [← hp]; simp
    obtain ⟨s', b, p', more⟩ := p
    exact h
  obtain ⟨s', g', p', need⟩ := q
  simpa using h

@[simp] theorem storeBytes_frame (s : State) (k : Nat) (b : Tab Byte) (stream : Bool) :
    (storeBytes s k b stream).time = s.time ∧ (storeBytes s k b stream).cp = s.cp ∧
    (storeBytes s k b stream).part = s.part ∧ (storeBytes s k b stream).err = s.err ∧
    (storeBytes s k b stream).pwr = s.pwr ∧ (storeBytes s k b stream).mgmt = s.mgmt ∧
    (storeBytes s k b stream).boot = s.boot ∧ (storeBytes s k b stream).larder = s.larder ∧
    (storeBytes s k b stream).reg = s.reg ∧ (storeBytes s k b stream).trans = s.trans ∧
    (storeBytes s k b stream).attic = s.attic ∧ (storeBytes s k b stream).link = s.link ∧
    (storeBytes s k b stream).chord = s.chord ∧ (storeBytes s k b stream).fresh = s.fresh ∧
    (storeBytes s k b stream).pending = s.pending := by
  unfold storeBytes
  simp

@[simp] theorem pushCore_frame (s : State) (k line : Nat) :
    (pushCore s k line).time = s.time ∧ (pushCore s k line).cp = s.cp ∧ (pushCore s k line).part = s.part ∧
    (pushCore s k line).err = s.err ∧ (pushCore s k line).pwr = s.pwr ∧ (pushCore s k line).mgmt = s.mgmt ∧
    (pushCore s k line).boot = s.boot ∧ (pushCore s k line).larder = s.larder ∧ (pushCore s k line).reg = s.reg ∧
    (pushCore s k line).trans = s.trans ∧ (pushCore s k line).attic = s.attic ∧ (pushCore s k line).link = s.link ∧
    (pushCore s k line).chord = s.chord ∧ (pushCore s k line).fresh = s.fresh ∧
    (pushCore s k line).pending = s.pending := by
  unfold pushCore
  (try dsimp only)
  (repeat' (split <;> try (rename_i hp; first | (obtain ⟨rfl, rfl⟩ := Prod.ext_iff.mp hp) | (obtain ⟨rfl, hq⟩ := Prod.ext_iff.mp hp; obtain ⟨rfl, rfl⟩ := Prod.ext_iff.mp hq) | (obtain ⟨rfl, hq⟩ := Prod.ext_iff.mp hp; obtain ⟨rfl, _⟩ := Prod.ext_iff.mp hq) | (obtain ⟨_, hq⟩ := Prod.ext_iff.mp hp; obtain ⟨rfl, _⟩ := Prod.ext_iff.mp hq) | (obtain ⟨rfl, _⟩ := Prod.ext_iff.mp hp) | (obtain ⟨_, rfl⟩ := Prod.ext_iff.mp hp)))) <;> first | rfl | (simp; done) | (simp_all; done)

@[simp] theorem pushCellar_frame (s : State) (c line : Nat) :
    (pushCellar s c line).time = s.time ∧ (pushCellar s c line).cp = s.cp ∧ (pushCellar s c line).part = s.part ∧
    (pushCellar s c line).err = s.err ∧ (pushCellar s c line).pwr = s.pwr ∧ (pushCellar s c line).mgmt = s.mgmt ∧
    (pushCellar s c line).boot = s.boot ∧ (pushCellar s c line).larder = s.larder ∧
    (pushCellar s c line).reg = s.reg ∧ (pushCellar s c line).trans = s.trans ∧
    (pushCellar s c line).attic = s.attic ∧ (pushCellar s c line).link = s.link ∧
    (pushCellar s c line).chord = s.chord ∧ (pushCellar s c line).fresh = s.fresh ∧
    (pushCellar s c line).pending = s.pending := by
  unfold pushCellar
  (try dsimp only)
  (repeat' (split <;> try (rename_i hp; first | (obtain ⟨rfl, rfl⟩ := Prod.ext_iff.mp hp) | (obtain ⟨rfl, hq⟩ := Prod.ext_iff.mp hp; obtain ⟨rfl, rfl⟩ := Prod.ext_iff.mp hq) | (obtain ⟨rfl, hq⟩ := Prod.ext_iff.mp hp; obtain ⟨rfl, _⟩ := Prod.ext_iff.mp hq) | (obtain ⟨_, hq⟩ := Prod.ext_iff.mp hp; obtain ⟨rfl, _⟩ := Prod.ext_iff.mp hq) | (obtain ⟨rfl, _⟩ := Prod.ext_iff.mp hp) | (obtain ⟨_, rfl⟩ := Prod.ext_iff.mp hp)))) <;> first | rfl | (simp; done) | (simp_all; done)

@[simp] theorem localAtomic_frame (s : State) (op : AtomOp) (ty : AtomType) (lanes : List AtomLane) :
    (localAtomic s op ty lanes).1.time = s.time ∧ (localAtomic s op ty lanes).1.cp = s.cp ∧
    (localAtomic s op ty lanes).1.part = s.part ∧ (localAtomic s op ty lanes).1.err = s.err ∧
    (localAtomic s op ty lanes).1.pwr = s.pwr ∧ (localAtomic s op ty lanes).1.mgmt = s.mgmt ∧
    (localAtomic s op ty lanes).1.boot = s.boot ∧ (localAtomic s op ty lanes).1.larder = s.larder ∧
    (localAtomic s op ty lanes).1.reg = s.reg ∧ (localAtomic s op ty lanes).1.trans = s.trans ∧
    (localAtomic s op ty lanes).1.attic = s.attic ∧ (localAtomic s op ty lanes).1.link = s.link ∧
    (localAtomic s op ty lanes).1.chord = s.chord ∧ (localAtomic s op ty lanes).1.fresh = s.fresh ∧
    (localAtomic s op ty lanes).1.pending = s.pending := by
  unfold localAtomic
  (try dsimp only)
  (repeat' (split <;> try (rename_i hp; first | (obtain ⟨rfl, rfl⟩ := Prod.ext_iff.mp hp) | (obtain ⟨rfl, hq⟩ := Prod.ext_iff.mp hp; obtain ⟨rfl, rfl⟩ := Prod.ext_iff.mp hq) | (obtain ⟨rfl, hq⟩ := Prod.ext_iff.mp hp; obtain ⟨rfl, _⟩ := Prod.ext_iff.mp hq) | (obtain ⟨_, hq⟩ := Prod.ext_iff.mp hp; obtain ⟨rfl, _⟩ := Prod.ext_iff.mp hq) | (obtain ⟨rfl, _⟩ := Prod.ext_iff.mp hp) | (obtain ⟨_, rfl⟩ := Prod.ext_iff.mp hp)))) <;> (try simp) <;> (repeat' apply And.intro) <;> (first | apply forEach_time | apply foldl_time | apply forEachFst_time | apply foldlFst_time | apply forEach_cp | apply foldl_cp | apply forEachFst_cp | apply foldlFst_cp | apply forEach_part | apply foldl_part | apply forEachFst_part | apply foldlFst_part | apply forEach_err | apply foldl_err | apply forEachFst_err | apply foldlFst_err | apply forEach_pwr | apply foldl_pwr | apply forEachFst_pwr | apply foldlFst_pwr | apply forEach_mgmt | apply foldl_mgmt | apply forEachFst_mgmt | apply foldlFst_mgmt | apply forEach_boot | apply foldl_boot | apply forEachFst_boot | apply foldlFst_boot | apply forEach_larder | apply foldl_larder | apply forEachFst_larder | apply foldlFst_larder | apply forEach_reg | apply foldl_reg | apply forEachFst_reg | apply foldlFst_reg | apply forEach_trans | apply foldl_trans | apply forEachFst_trans | apply foldlFst_trans | apply forEach_attic | apply foldl_attic | apply forEachFst_attic | apply foldlFst_attic | apply forEach_link | apply foldl_link | apply forEachFst_link | apply foldlFst_link | apply forEach_chord | apply foldl_chord | apply forEachFst_chord | apply foldlFst_chord | apply forEach_fresh | apply foldl_fresh | apply forEachFst_fresh | apply foldlFst_fresh | apply forEach_pending | apply foldl_pending | apply forEachFst_pending | apply foldlFst_pending) <;> intro _ _ <;> (try dsimp only) <;> (repeat' (split <;> try (rename_i hp; first | (obtain ⟨rfl, rfl⟩ := Prod.ext_iff.mp hp) | (obtain ⟨rfl, hq⟩ := Prod.ext_iff.mp hp; obtain ⟨rfl, rfl⟩ := Prod.ext_iff.mp hq) | (obtain ⟨rfl, hq⟩ := Prod.ext_iff.mp hp; obtain ⟨rfl, _⟩ := Prod.ext_iff.mp hq) | (obtain ⟨_, hq⟩ := Prod.ext_iff.mp hp; obtain ⟨rfl, _⟩ := Prod.ext_iff.mp hq) | (obtain ⟨rfl, _⟩ := Prod.ext_iff.mp hp) | (obtain ⟨_, rfl⟩ := Prod.ext_iff.mp hp)))) <;> first | rfl | (simp; done) | (simp_all; done)

@[simp] theorem coreAtomicAt_time (s : State) (k line : Nat) (op : AtomOp) (ty : AtomType) (lanes : List AtomLane) :
    (coreAtomicAt s k line op ty lanes).1.time = s.time := by
  unfold coreAtomicAt
  dsimp only
  split
  · split
    · simp
    · split
      · rfl
      · simp
  · simp

@[simp] theorem coreAtomicAt_cp (s : State) (k line : Nat) (op : AtomOp) (ty : AtomType) (lanes : List AtomLane) :
    (coreAtomicAt s k line op ty lanes).1.cp = s.cp := by
  unfold coreAtomicAt
  dsimp only
  split
  · split
    · simp
    · split
      · rfl
      · simp
  · simp

@[simp] theorem coreAtomicAt_part (s : State) (k line : Nat) (op : AtomOp) (ty : AtomType) (lanes : List AtomLane) :
    (coreAtomicAt s k line op ty lanes).1.part = s.part := by
  unfold coreAtomicAt
  dsimp only
  split
  · split
    · simp
    · split
      · rfl
      · simp
  · simp

@[simp] theorem coreAtomicAt_err (s : State) (k line : Nat) (op : AtomOp) (ty : AtomType) (lanes : List AtomLane) :
    (coreAtomicAt s k line op ty lanes).1.err = s.err := by
  unfold coreAtomicAt
  dsimp only
  split
  · split
    · simp
    · split
      · rfl
      · simp
  · simp

@[simp] theorem coreAtomicAt_pwr (s : State) (k line : Nat) (op : AtomOp) (ty : AtomType) (lanes : List AtomLane) :
    (coreAtomicAt s k line op ty lanes).1.pwr = s.pwr := by
  unfold coreAtomicAt
  dsimp only
  split
  · split
    · simp
    · split
      · rfl
      · simp
  · simp

@[simp] theorem coreAtomicAt_mgmt (s : State) (k line : Nat) (op : AtomOp) (ty : AtomType) (lanes : List AtomLane) :
    (coreAtomicAt s k line op ty lanes).1.mgmt = s.mgmt := by
  unfold coreAtomicAt
  dsimp only
  split
  · split
    · simp
    · split
      · rfl
      · simp
  · simp

@[simp] theorem coreAtomicAt_boot (s : State) (k line : Nat) (op : AtomOp) (ty : AtomType) (lanes : List AtomLane) :
    (coreAtomicAt s k line op ty lanes).1.boot = s.boot := by
  unfold coreAtomicAt
  dsimp only
  split
  · split
    · simp
    · split
      · rfl
      · simp
  · simp

@[simp] theorem coreAtomicAt_larder (s : State) (k line : Nat) (op : AtomOp) (ty : AtomType) (lanes : List AtomLane) :
    (coreAtomicAt s k line op ty lanes).1.larder = s.larder := by
  unfold coreAtomicAt
  dsimp only
  split
  · split
    · simp
    · split
      · rfl
      · simp
  · simp

@[simp] theorem coreAtomicAt_reg (s : State) (k line : Nat) (op : AtomOp) (ty : AtomType) (lanes : List AtomLane) :
    (coreAtomicAt s k line op ty lanes).1.reg = s.reg := by
  unfold coreAtomicAt
  dsimp only
  split
  · split
    · simp
    · split
      · rfl
      · simp
  · simp

@[simp] theorem coreAtomicAt_trans (s : State) (k line : Nat) (op : AtomOp) (ty : AtomType) (lanes : List AtomLane) :
    (coreAtomicAt s k line op ty lanes).1.trans = s.trans := by
  unfold coreAtomicAt
  dsimp only
  split
  · split
    · simp
    · split
      · rfl
      · simp
  · simp

@[simp] theorem coreAtomicAt_attic (s : State) (k line : Nat) (op : AtomOp) (ty : AtomType) (lanes : List AtomLane) :
    (coreAtomicAt s k line op ty lanes).1.attic = s.attic := by
  unfold coreAtomicAt
  dsimp only
  split
  · split
    · simp
    · split
      · rfl
      · simp
  · simp

@[simp] theorem coreAtomicAt_link (s : State) (k line : Nat) (op : AtomOp) (ty : AtomType) (lanes : List AtomLane) :
    (coreAtomicAt s k line op ty lanes).1.link = s.link := by
  unfold coreAtomicAt
  dsimp only
  split
  · split
    · simp
    · split
      · rfl
      · simp
  · simp

@[simp] theorem coreAtomicAt_chord (s : State) (k line : Nat) (op : AtomOp) (ty : AtomType) (lanes : List AtomLane) :
    (coreAtomicAt s k line op ty lanes).1.chord = s.chord := by
  unfold coreAtomicAt
  dsimp only
  split
  · split
    · simp
    · split
      · rfl
      · simp
  · simp

@[simp] theorem coreAtomicAt_fresh (s : State) (k line : Nat) (op : AtomOp) (ty : AtomType) (lanes : List AtomLane) :
    (coreAtomicAt s k line op ty lanes).1.fresh = s.fresh := by
  unfold coreAtomicAt
  dsimp only
  split
  · split
    · simp
    · split
      · rfl
      · simp
  · simp

@[simp] theorem coreAtomicAt_pending (s : State) (k line : Nat) (op : AtomOp) (ty : AtomType) (lanes : List AtomLane) :
    (coreAtomicAt s k line op ty lanes).1.pending = s.pending := by
  unfold coreAtomicAt
  dsimp only
  split
  · split
    · simp
    · split
      · rfl
      · simp
  · simp

@[simp] theorem cellarAtomicAt_frame (s : State) (k line : Nat) (op : AtomOp) (ty : AtomType) (lanes : List AtomLane) :
    (cellarAtomicAt s k line op ty lanes).1.time = s.time ∧ (cellarAtomicAt s k line op ty lanes).1.cp = s.cp ∧
    (cellarAtomicAt s k line op ty lanes).1.part = s.part ∧ (cellarAtomicAt s k line op ty lanes).1.err = s.err ∧
    (cellarAtomicAt s k line op ty lanes).1.pwr = s.pwr ∧ (cellarAtomicAt s k line op ty lanes).1.mgmt = s.mgmt ∧
    (cellarAtomicAt s k line op ty lanes).1.boot = s.boot ∧
    (cellarAtomicAt s k line op ty lanes).1.larder = s.larder ∧ (cellarAtomicAt s k line op ty lanes).1.reg = s.reg ∧
    (cellarAtomicAt s k line op ty lanes).1.trans = s.trans ∧
    (cellarAtomicAt s k line op ty lanes).1.attic = s.attic ∧ (cellarAtomicAt s k line op ty lanes).1.link = s.link ∧
    (cellarAtomicAt s k line op ty lanes).1.chord = s.chord ∧
    (cellarAtomicAt s k line op ty lanes).1.fresh = s.fresh ∧
    (cellarAtomicAt s k line op ty lanes).1.pending = s.pending := by
  unfold cellarAtomicAt
  (try dsimp only)
  (repeat' (split <;> try (rename_i hp; first | (obtain ⟨rfl, rfl⟩ := Prod.ext_iff.mp hp) | (obtain ⟨rfl, hq⟩ := Prod.ext_iff.mp hp; obtain ⟨rfl, rfl⟩ := Prod.ext_iff.mp hq) | (obtain ⟨rfl, hq⟩ := Prod.ext_iff.mp hp; obtain ⟨rfl, _⟩ := Prod.ext_iff.mp hq) | (obtain ⟨_, hq⟩ := Prod.ext_iff.mp hp; obtain ⟨rfl, _⟩ := Prod.ext_iff.mp hq) | (obtain ⟨rfl, _⟩ := Prod.ext_iff.mp hp) | (obtain ⟨_, rfl⟩ := Prod.ext_iff.mp hp)))) <;> first | rfl | (simp; done) | (simp_all; done)

@[simp] theorem homeAtomicAt_frame (s : State) (k line id : Nat) (op : AtomOp) (ty : AtomType) (lanes : List AtomLane) :
    (homeAtomicAt s k line id op ty lanes).1.time = s.time ∧ (homeAtomicAt s k line id op ty lanes).1.cp = s.cp ∧
    (homeAtomicAt s k line id op ty lanes).1.part = s.part ∧ (homeAtomicAt s k line id op ty lanes).1.err = s.err ∧
    (homeAtomicAt s k line id op ty lanes).1.pwr = s.pwr ∧ (homeAtomicAt s k line id op ty lanes).1.mgmt = s.mgmt ∧
    (homeAtomicAt s k line id op ty lanes).1.boot = s.boot ∧
    (homeAtomicAt s k line id op ty lanes).1.larder = s.larder ∧
    (homeAtomicAt s k line id op ty lanes).1.reg = s.reg ∧ (homeAtomicAt s k line id op ty lanes).1.trans = s.trans ∧
    (homeAtomicAt s k line id op ty lanes).1.attic = s.attic ∧
    (homeAtomicAt s k line id op ty lanes).1.link = s.link ∧
    (homeAtomicAt s k line id op ty lanes).1.chord = s.chord ∧
    (homeAtomicAt s k line id op ty lanes).1.fresh = s.fresh ∧
    (homeAtomicAt s k line id op ty lanes).1.pending = s.pending := by
  unfold homeAtomicAt
  simp

@[simp] theorem atomAt_time (s : State) (k line id : Nat) (sc : Scope) (op : AtomOp) (ty : AtomType) (lanes : List AtomLane) :
    (atomAt s k line id sc op ty lanes).1.time = s.time := by
  unfold atomAt
  dsimp only
  (repeat' split) <;> simp

@[simp] theorem atomAt_cp (s : State) (k line id : Nat) (sc : Scope) (op : AtomOp) (ty : AtomType) (lanes : List AtomLane) :
    (atomAt s k line id sc op ty lanes).1.cp = s.cp := by
  unfold atomAt
  dsimp only
  (repeat' split) <;> simp

@[simp] theorem atomAt_part (s : State) (k line id : Nat) (sc : Scope) (op : AtomOp) (ty : AtomType) (lanes : List AtomLane) :
    (atomAt s k line id sc op ty lanes).1.part = s.part := by
  unfold atomAt
  dsimp only
  (repeat' split) <;> simp

@[simp] theorem atomAt_err (s : State) (k line id : Nat) (sc : Scope) (op : AtomOp) (ty : AtomType) (lanes : List AtomLane) :
    (atomAt s k line id sc op ty lanes).1.err = s.err := by
  unfold atomAt
  dsimp only
  (repeat' split) <;> simp

@[simp] theorem atomAt_pwr (s : State) (k line id : Nat) (sc : Scope) (op : AtomOp) (ty : AtomType) (lanes : List AtomLane) :
    (atomAt s k line id sc op ty lanes).1.pwr = s.pwr := by
  unfold atomAt
  dsimp only
  (repeat' split) <;> simp

@[simp] theorem atomAt_mgmt (s : State) (k line id : Nat) (sc : Scope) (op : AtomOp) (ty : AtomType) (lanes : List AtomLane) :
    (atomAt s k line id sc op ty lanes).1.mgmt = s.mgmt := by
  unfold atomAt
  dsimp only
  (repeat' split) <;> simp

@[simp] theorem atomAt_boot (s : State) (k line id : Nat) (sc : Scope) (op : AtomOp) (ty : AtomType) (lanes : List AtomLane) :
    (atomAt s k line id sc op ty lanes).1.boot = s.boot := by
  unfold atomAt
  dsimp only
  (repeat' split) <;> simp

@[simp] theorem atomAt_larder (s : State) (k line id : Nat) (sc : Scope) (op : AtomOp) (ty : AtomType) (lanes : List AtomLane) :
    (atomAt s k line id sc op ty lanes).1.larder = s.larder := by
  unfold atomAt
  dsimp only
  (repeat' split) <;> simp

@[simp] theorem atomAt_reg (s : State) (k line id : Nat) (sc : Scope) (op : AtomOp) (ty : AtomType) (lanes : List AtomLane) :
    (atomAt s k line id sc op ty lanes).1.reg = s.reg := by
  unfold atomAt
  dsimp only
  (repeat' split) <;> simp

@[simp] theorem atomAt_trans (s : State) (k line id : Nat) (sc : Scope) (op : AtomOp) (ty : AtomType) (lanes : List AtomLane) :
    (atomAt s k line id sc op ty lanes).1.trans = s.trans := by
  unfold atomAt
  dsimp only
  (repeat' split) <;> simp

@[simp] theorem atomAt_attic (s : State) (k line id : Nat) (sc : Scope) (op : AtomOp) (ty : AtomType) (lanes : List AtomLane) :
    (atomAt s k line id sc op ty lanes).1.attic = s.attic := by
  unfold atomAt
  dsimp only
  (repeat' split) <;> simp

@[simp] theorem atomAt_link (s : State) (k line id : Nat) (sc : Scope) (op : AtomOp) (ty : AtomType) (lanes : List AtomLane) :
    (atomAt s k line id sc op ty lanes).1.link = s.link := by
  unfold atomAt
  dsimp only
  (repeat' split) <;> simp

@[simp] theorem atomAt_chord (s : State) (k line id : Nat) (sc : Scope) (op : AtomOp) (ty : AtomType) (lanes : List AtomLane) :
    (atomAt s k line id sc op ty lanes).1.chord = s.chord := by
  unfold atomAt
  dsimp only
  (repeat' split) <;> simp

@[simp] theorem atomAt_fresh (s : State) (k line id : Nat) (sc : Scope) (op : AtomOp) (ty : AtomType) (lanes : List AtomLane) :
    (atomAt s k line id sc op ty lanes).1.fresh = s.fresh := by
  unfold atomAt
  dsimp only
  (repeat' split) <;> simp

@[simp] theorem atomAt_pending (s : State) (k line id : Nat) (sc : Scope) (op : AtomOp) (ty : AtomType) (lanes : List AtomLane) :
    (atomAt s k line id sc op ty lanes).1.pending = s.pending := by
  unfold atomAt
  dsimp only
  (repeat' split) <;> simp

@[simp] theorem atomIssue_time (s : State) (i : Issue) (f : AtomForm) (op : AtomOp) (dst : Nat) (lanes : List AtomLane) :
    (atomIssue s i f op dst lanes).time = s.time := by
  unfold atomIssue
  dsimp only
  generalize hq : List.foldl _ _ _ = q
  have h : q.1.time = s.time := by
    rw [← hq]
    refine (foldlFst_time _ _ _ (fun x l => ?_)).trans (by simp)
    obtain ⟨s, r⟩ := x
    dsimp only
    split <;> (rename_i hp; have h := congrArg (fun x => x.1.time) hp; simpa using h.symm)
  obtain ⟨s', r⟩ := q
  dsimp only
  split
  · exact h
  · simpa using h

@[simp] theorem atomIssue_part (s : State) (i : Issue) (f : AtomForm) (op : AtomOp) (dst : Nat) (lanes : List AtomLane) :
    (atomIssue s i f op dst lanes).part = s.part := by
  unfold atomIssue
  dsimp only
  generalize hq : List.foldl _ _ _ = q
  have h : q.1.part = s.part := by
    rw [← hq]
    refine (foldlFst_part _ _ _ (fun x l => ?_)).trans (by simp)
    obtain ⟨s, r⟩ := x
    dsimp only
    split <;> (rename_i hp; have h := congrArg (fun x => x.1.part) hp; simpa using h.symm)
  obtain ⟨s', r⟩ := q
  dsimp only
  split
  · exact h
  · simpa using h

@[simp] theorem atomIssue_err (s : State) (i : Issue) (f : AtomForm) (op : AtomOp) (dst : Nat) (lanes : List AtomLane) :
    (atomIssue s i f op dst lanes).err = s.err := by
  unfold atomIssue
  dsimp only
  generalize hq : List.foldl _ _ _ = q
  have h : q.1.err = s.err := by
    rw [← hq]
    refine (foldlFst_err _ _ _ (fun x l => ?_)).trans (by simp)
    obtain ⟨s, r⟩ := x
    dsimp only
    split <;> (rename_i hp; have h := congrArg (fun x => x.1.err) hp; simpa using h.symm)
  obtain ⟨s', r⟩ := q
  dsimp only
  split
  · exact h
  · simpa using h

@[simp] theorem atomIssue_pwr (s : State) (i : Issue) (f : AtomForm) (op : AtomOp) (dst : Nat) (lanes : List AtomLane) :
    (atomIssue s i f op dst lanes).pwr = s.pwr := by
  unfold atomIssue
  dsimp only
  generalize hq : List.foldl _ _ _ = q
  have h : q.1.pwr = s.pwr := by
    rw [← hq]
    refine (foldlFst_pwr _ _ _ (fun x l => ?_)).trans (by simp)
    obtain ⟨s, r⟩ := x
    dsimp only
    split <;> (rename_i hp; have h := congrArg (fun x => x.1.pwr) hp; simpa using h.symm)
  obtain ⟨s', r⟩ := q
  dsimp only
  split
  · exact h
  · simpa using h

@[simp] theorem atomIssue_mgmt (s : State) (i : Issue) (f : AtomForm) (op : AtomOp) (dst : Nat) (lanes : List AtomLane) :
    (atomIssue s i f op dst lanes).mgmt = s.mgmt := by
  unfold atomIssue
  dsimp only
  generalize hq : List.foldl _ _ _ = q
  have h : q.1.mgmt = s.mgmt := by
    rw [← hq]
    refine (foldlFst_mgmt _ _ _ (fun x l => ?_)).trans (by simp)
    obtain ⟨s, r⟩ := x
    dsimp only
    split <;> (rename_i hp; have h := congrArg (fun x => x.1.mgmt) hp; simpa using h.symm)
  obtain ⟨s', r⟩ := q
  dsimp only
  split
  · exact h
  · simpa using h

@[simp] theorem atomIssue_boot (s : State) (i : Issue) (f : AtomForm) (op : AtomOp) (dst : Nat) (lanes : List AtomLane) :
    (atomIssue s i f op dst lanes).boot = s.boot := by
  unfold atomIssue
  dsimp only
  generalize hq : List.foldl _ _ _ = q
  have h : q.1.boot = s.boot := by
    rw [← hq]
    refine (foldlFst_boot _ _ _ (fun x l => ?_)).trans (by simp)
    obtain ⟨s, r⟩ := x
    dsimp only
    split <;> (rename_i hp; have h := congrArg (fun x => x.1.boot) hp; simpa using h.symm)
  obtain ⟨s', r⟩ := q
  dsimp only
  split
  · exact h
  · simpa using h

@[simp] theorem atomIssue_reg (s : State) (i : Issue) (f : AtomForm) (op : AtomOp) (dst : Nat) (lanes : List AtomLane) :
    (atomIssue s i f op dst lanes).reg = s.reg := by
  unfold atomIssue
  dsimp only
  generalize hq : List.foldl _ _ _ = q
  have h : q.1.reg = s.reg := by
    rw [← hq]
    refine (foldlFst_reg _ _ _ (fun x l => ?_)).trans (by simp)
    obtain ⟨s, r⟩ := x
    dsimp only
    split <;> (rename_i hp; have h := congrArg (fun x => x.1.reg) hp; simpa using h.symm)
  obtain ⟨s', r⟩ := q
  dsimp only
  split
  · exact h
  · simpa using h

@[simp] theorem atomIssue_link (s : State) (i : Issue) (f : AtomForm) (op : AtomOp) (dst : Nat) (lanes : List AtomLane) :
    (atomIssue s i f op dst lanes).link = s.link := by
  unfold atomIssue
  dsimp only
  generalize hq : List.foldl _ _ _ = q
  have h : q.1.link = s.link := by
    rw [← hq]
    refine (foldlFst_link _ _ _ (fun x l => ?_)).trans (by simp)
    obtain ⟨s, r⟩ := x
    dsimp only
    split <;> (rename_i hp; have h := congrArg (fun x => x.1.link) hp; simpa using h.symm)
  obtain ⟨s', r⟩ := q
  dsimp only
  split
  · exact h
  · simpa using h

@[simp] theorem atomIssue_pending (s : State) (i : Issue) (f : AtomForm) (op : AtomOp) (dst : Nat) (lanes : List AtomLane) :
    (atomIssue s i f op dst lanes).pending = s.pending := by
  unfold atomIssue
  dsimp only
  generalize hq : List.foldl _ _ _ = q
  have h : q.1.pending = s.pending := by
    rw [← hq]
    refine (foldlFst_pending _ _ _ (fun x l => ?_)).trans (by simp)
    obtain ⟨s, r⟩ := x
    dsimp only
    split <;> (rename_i hp; have h := congrArg (fun x => x.1.pending) hp; simpa using h.symm)
  obtain ⟨s', r⟩ := q
  dsimp only
  split
  · exact h
  · simpa using h

end Sys2Proof.Machine
end

