-- ==== Sys2Proof/Laws/FrameKernelMatrix.lean ====
section
/-! SUPPORT. What each operation of Machine/KernelMatrix.lean leaves as it was, by component of the state. -/
set_option maxRecDepth 4000
set_option exponentiation.threshold 2000
namespace Sys2Proof.Machine

@[simp] theorem matrixOp_time (s : State) (i : Issue) (regs : List Nat) (op : State → Group → Nat → State)
    (h : ∀ s g t, (op s g t).time = s.time) : (matrixOp s i regs op).time = s.time := by
  unfold matrixOp
  refine issue_time _ _ _ _ _ _ (fun s g act => ?_)
  dsimp only
  (repeat' split) <;> simp [h]

@[simp] theorem matrixOp_part (s : State) (i : Issue) (regs : List Nat) (op : State → Group → Nat → State)
    (h : ∀ s g t, (op s g t).part = s.part) : (matrixOp s i regs op).part = s.part := by
  unfold matrixOp
  refine issue_part _ _ _ _ _ _ (fun s g act => ?_)
  dsimp only
  (repeat' split) <;> simp [h]

@[simp] theorem matrixOp_err (s : State) (i : Issue) (regs : List Nat) (op : State → Group → Nat → State)
    (h : ∀ s g t, (op s g t).err = s.err) : (matrixOp s i regs op).err = s.err := by
  unfold matrixOp
  refine issue_err _ _ _ _ _ _ (fun s g act => ?_)
  dsimp only
  (repeat' split) <;> simp [h]

@[simp] theorem matrixOp_pwr (s : State) (i : Issue) (regs : List Nat) (op : State → Group → Nat → State)
    (h : ∀ s g t, (op s g t).pwr = s.pwr) : (matrixOp s i regs op).pwr = s.pwr := by
  unfold matrixOp
  refine issue_pwr _ _ _ _ _ _ (fun s g act => ?_)
  dsimp only
  (repeat' split) <;> simp [h]

@[simp] theorem matrixOp_mgmt (s : State) (i : Issue) (regs : List Nat) (op : State → Group → Nat → State)
    (h : ∀ s g t, (op s g t).mgmt = s.mgmt) : (matrixOp s i regs op).mgmt = s.mgmt := by
  unfold matrixOp
  refine issue_mgmt _ _ _ _ _ _ (fun s g act => ?_)
  dsimp only
  (repeat' split) <;> simp [h]

@[simp] theorem matrixOp_boot (s : State) (i : Issue) (regs : List Nat) (op : State → Group → Nat → State)
    (h : ∀ s g t, (op s g t).boot = s.boot) : (matrixOp s i regs op).boot = s.boot := by
  unfold matrixOp
  refine issue_boot _ _ _ _ _ _ (fun s g act => ?_)
  dsimp only
  (repeat' split) <;> simp [h]

@[simp] theorem matrixOp_mem (s : State) (i : Issue) (regs : List Nat) (op : State → Group → Nat → State)
    (h : ∀ s g t, (op s g t).mem = s.mem) : (matrixOp s i regs op).mem = s.mem := by
  unfold matrixOp
  refine issue_mem _ _ _ _ _ _ (fun s g act => ?_)
  dsimp only
  (repeat' split) <;> simp [h]

@[simp] theorem matrixOp_reg (s : State) (i : Issue) (regs : List Nat) (op : State → Group → Nat → State)
    (h : ∀ s g t, (op s g t).reg = s.reg) : (matrixOp s i regs op).reg = s.reg := by
  unfold matrixOp
  refine issue_reg _ _ _ _ _ _ (fun s g act => ?_)
  dsimp only
  (repeat' split) <;> simp [h]

@[simp] theorem matrixOp_link (s : State) (i : Issue) (regs : List Nat) (op : State → Group → Nat → State)
    (h : ∀ s g t, (op s g t).link = s.link) : (matrixOp s i regs op).link = s.link := by
  unfold matrixOp
  refine issue_link _ _ _ _ _ _ (fun s g act => ?_)
  dsimp only
  (repeat' split) <;> simp [h]

@[simp] theorem matrixOp_pending (s : State) (i : Issue) (regs : List Nat) (op : State → Group → Nat → State)
    (h : ∀ s g t, (op s g t).pending = s.pending) : (matrixOp s i regs op).pending = s.pending := by
  unfold matrixOp
  refine issue_pending _ _ _ _ _ _ (fun s g act => ?_)
  dsimp only
  (repeat' split) <;> simp [h]

@[simp] theorem onTile_frame (s : State) (k : Nat) (f : Tile → Tile) :
    (onTile s k f).time = s.time ∧ (onTile s k f).cp = s.cp ∧ (onTile s k f).part = s.part ∧
    (onTile s k f).err = s.err ∧ (onTile s k f).pwr = s.pwr ∧ (onTile s k f).mgmt = s.mgmt ∧
    (onTile s k f).boot = s.boot ∧ (onTile s k f).mem = s.mem ∧ (onTile s k f).larder = s.larder ∧
    (onTile s k f).reg = s.reg ∧ (onTile s k f).trans = s.trans ∧ (onTile s k f).attic = s.attic ∧
    (onTile s k f).link = s.link ∧ (onTile s k f).chord = s.chord ∧ (onTile s k f).fresh = s.fresh ∧
    (onTile s k f).out = s.out ∧ (onTile s k f).pending = s.pending := by
  unfold onTile
  simp

@[simp] theorem exportTo_frame (s : State) (i : Issue) (off : Nat) (b : Bytes) (range : Bool) :
    (exportTo s i off b range).time = s.time ∧ (exportTo s i off b range).part = s.part ∧
    (exportTo s i off b range).err = s.err ∧ (exportTo s i off b range).pwr = s.pwr ∧
    (exportTo s i off b range).mgmt = s.mgmt ∧ (exportTo s i off b range).boot = s.boot ∧
    (exportTo s i off b range).mem = s.mem ∧ (exportTo s i off b range).reg = s.reg ∧
    (exportTo s i off b range).link = s.link ∧ (exportTo s i off b range).pending = s.pending := by
  unfold exportTo
  simp

end Sys2Proof.Machine
end

