-- ==== Sys2Proof/Laws/FrameBoundary.lean ====
section
/-! SUPPORT. What each operation of Machine/Boundary.lean leaves as it was, by component of the state. -/
set_option maxRecDepth 4000
set_option exponentiation.threshold 2000
namespace Sys2Proof.Machine

@[simp] theorem latchCounts_frame (s : State) :
    (latchCounts s).time = s.time ∧ (latchCounts s).cp = s.cp ∧ (latchCounts s).err = s.err ∧
    (latchCounts s).pwr = s.pwr ∧ (latchCounts s).mgmt = s.mgmt ∧ (latchCounts s).boot = s.boot ∧
    (latchCounts s).cells = s.cells ∧ (latchCounts s).mem = s.mem ∧ (latchCounts s).larder = s.larder ∧
    (latchCounts s).reg = s.reg ∧ (latchCounts s).trans = s.trans ∧ (latchCounts s).attic = s.attic ∧
    (latchCounts s).link = s.link ∧ (latchCounts s).chord = s.chord ∧ (latchCounts s).fresh = s.fresh ∧
    (latchCounts s).out = s.out ∧ (latchCounts s).pending = s.pending := by
  unfold latchCounts
  simp

@[simp] theorem runBoundary_frame (s : State) :
    (runBoundary s).boot = s.boot ∧ (runBoundary s).link = s.link ∧ (runBoundary s).pending = s.pending := by
  unfold runBoundary
  simp

@[simp] theorem sendShare_frame (s : State) (e : SchedEntry) :
    (sendShare s e).time = s.time ∧ (sendShare s e).cp = s.cp ∧ (sendShare s e).part = s.part ∧
    (sendShare s e).err = s.err ∧ (sendShare s e).pwr = s.pwr ∧ (sendShare s e).mgmt = s.mgmt ∧
    (sendShare s e).boot = s.boot ∧ (sendShare s e).cells = s.cells ∧ (sendShare s e).mem = s.mem ∧
    (sendShare s e).larder = s.larder ∧ (sendShare s e).reg = s.reg ∧ (sendShare s e).trans = s.trans ∧
    (sendShare s e).attic = s.attic ∧ (sendShare s e).link = s.link ∧ (sendShare s e).fresh = s.fresh ∧
    (sendShare s e).pending = s.pending := by
  unfold sendShare
  (try dsimp only)
  (repeat' (split <;> try (rename_i hp; first | (obtain ⟨rfl, rfl⟩ := Prod.ext_iff.mp hp) | (obtain ⟨rfl, hq⟩ := Prod.ext_iff.mp hp; obtain ⟨rfl, rfl⟩ := Prod.ext_iff.mp hq) | (obtain ⟨rfl, hq⟩ := Prod.ext_iff.mp hp; obtain ⟨rfl, _⟩ := Prod.ext_iff.mp hq) | (obtain ⟨_, hq⟩ := Prod.ext_iff.mp hp; obtain ⟨rfl, _⟩ := Prod.ext_iff.mp hq) | (obtain ⟨rfl, _⟩ := Prod.ext_iff.mp hp) | (obtain ⟨_, rfl⟩ := Prod.ext_iff.mp hp)))) <;> first | rfl | (simp; done) | (simp_all; done)

@[simp] theorem dropReservation_frame (s : State) (slot part : Nat) :
    (dropReservation s slot part).time = s.time ∧ (dropReservation s slot part).cp = s.cp ∧
    (dropReservation s slot part).part = s.part ∧ (dropReservation s slot part).err = s.err ∧
    (dropReservation s slot part).pwr = s.pwr ∧ (dropReservation s slot part).mgmt = s.mgmt ∧
    (dropReservation s slot part).boot = s.boot ∧ (dropReservation s slot part).cells = s.cells ∧
    (dropReservation s slot part).mem = s.mem ∧ (dropReservation s slot part).reg = s.reg ∧
    (dropReservation s slot part).trans = s.trans ∧ (dropReservation s slot part).attic = s.attic ∧
    (dropReservation s slot part).link = s.link ∧ (dropReservation s slot part).chord = s.chord ∧
    (dropReservation s slot part).fresh = s.fresh ∧ (dropReservation s slot part).out = s.out ∧
    (dropReservation s slot part).pending = s.pending := by
  unfold dropReservation
  simp

@[simp] theorem unreserveMessage_frame (s : State) (p id : Nat) :
    (unreserveMessage s p id).time = s.time ∧ (unreserveMessage s p id).cp = s.cp ∧
    (unreserveMessage s p id).part = s.part ∧ (unreserveMessage s p id).err = s.err ∧
    (unreserveMessage s p id).pwr = s.pwr ∧ (unreserveMessage s p id).mgmt = s.mgmt ∧
    (unreserveMessage s p id).boot = s.boot ∧ (unreserveMessage s p id).cells = s.cells ∧
    (unreserveMessage s p id).mem = s.mem ∧ (unreserveMessage s p id).larder = s.larder ∧
    (unreserveMessage s p id).reg = s.reg ∧ (unreserveMessage s p id).trans = s.trans ∧
    (unreserveMessage s p id).attic = s.attic ∧ (unreserveMessage s p id).link = s.link ∧
    (unreserveMessage s p id).fresh = s.fresh ∧ (unreserveMessage s p id).pending = s.pending := by
  unfold unreserveMessage
  simp

@[simp] theorem overrunShare_frame (s : State) (e : SchedEntry) :
    (overrunShare s e).time = s.time ∧ (overrunShare s e).cp = s.cp ∧ (overrunShare s e).part = s.part ∧
    (overrunShare s e).err = s.err ∧ (overrunShare s e).pwr = s.pwr ∧ (overrunShare s e).mgmt = s.mgmt ∧
    (overrunShare s e).boot = s.boot ∧ (overrunShare s e).cells = s.cells ∧ (overrunShare s e).mem = s.mem ∧
    (overrunShare s e).reg = s.reg ∧ (overrunShare s e).trans = s.trans ∧ (overrunShare s e).attic = s.attic ∧
    (overrunShare s e).link = s.link ∧ (overrunShare s e).fresh = s.fresh ∧
    (overrunShare s e).pending = s.pending := by
  unfold overrunShare
  (try dsimp only)
  (repeat' (split <;> try (rename_i hp; first | (obtain ⟨rfl, rfl⟩ := Prod.ext_iff.mp hp) | (obtain ⟨rfl, hq⟩ := Prod.ext_iff.mp hp; obtain ⟨rfl, rfl⟩ := Prod.ext_iff.mp hq) | (obtain ⟨rfl, hq⟩ := Prod.ext_iff.mp hp; obtain ⟨rfl, _⟩ := Prod.ext_iff.mp hq) | (obtain ⟨_, hq⟩ := Prod.ext_iff.mp hp; obtain ⟨rfl, _⟩ := Prod.ext_iff.mp hq) | (obtain ⟨rfl, _⟩ := Prod.ext_iff.mp hp) | (obtain ⟨_, rfl⟩ := Prod.ext_iff.mp hp)))) <;> first | rfl | (simp; done) | (simp_all; done)

@[simp] theorem fretTransfers_frame (s : State) (f : Nat) :
    (fretTransfers s f).time = s.time ∧ (fretTransfers s f).cp = s.cp ∧ (fretTransfers s f).part = s.part ∧
    (fretTransfers s f).err = s.err ∧ (fretTransfers s f).pwr = s.pwr ∧ (fretTransfers s f).mgmt = s.mgmt ∧
    (fretTransfers s f).boot = s.boot ∧ (fretTransfers s f).cells = s.cells ∧ (fretTransfers s f).mem = s.mem ∧
    (fretTransfers s f).reg = s.reg ∧ (fretTransfers s f).trans = s.trans ∧ (fretTransfers s f).attic = s.attic ∧
    (fretTransfers s f).link = s.link ∧ (fretTransfers s f).fresh = s.fresh ∧
    (fretTransfers s f).pending = s.pending := by
  unfold fretTransfers
  simp

@[simp] theorem heldCycles_frame (s : State) :
    (heldCycles s).time = s.time ∧ (heldCycles s).cp = s.cp ∧ (heldCycles s).part = s.part ∧
    (heldCycles s).err = s.err ∧ (heldCycles s).pwr = s.pwr ∧ (heldCycles s).mgmt = s.mgmt ∧
    (heldCycles s).boot = s.boot ∧ (heldCycles s).cells = s.cells ∧ (heldCycles s).mem = s.mem ∧
    (heldCycles s).larder = s.larder ∧ (heldCycles s).trans = s.trans ∧ (heldCycles s).attic = s.attic ∧
    (heldCycles s).link = s.link ∧ (heldCycles s).chord = s.chord ∧ (heldCycles s).out = s.out ∧
    (heldCycles s).pending = s.pending := by
  unfold heldCycles
  simp

@[simp] theorem retryParts_frame (s : State) :
    (retryParts s).time = s.time ∧ (retryParts s).cp = s.cp ∧ (retryParts s).part = s.part ∧
    (retryParts s).err = s.err ∧ (retryParts s).pwr = s.pwr ∧ (retryParts s).mgmt = s.mgmt ∧
    (retryParts s).boot = s.boot ∧ (retryParts s).cells = s.cells ∧ (retryParts s).mem = s.mem ∧
    (retryParts s).reg = s.reg ∧ (retryParts s).trans = s.trans ∧ (retryParts s).link = s.link ∧
    (retryParts s).pending = s.pending := by
  unfold retryParts
  simp

end Sys2Proof.Machine
end

