-- ==== Sys2Proof/Laws/FrameChordMover.lean ====
section
/-! SUPPORT. What each operation of Machine/ChordMover.lean leaves as it was, by component of the state. -/
set_option maxRecDepth 4000
set_option exponentiation.threshold 2000
namespace Sys2Proof.Machine

@[simp] theorem endOp_frame (s : State) (c id bytes : Nat) :
    (endOp s c id bytes).time = s.time ∧ (endOp s c id bytes).cp = s.cp ∧ (endOp s c id bytes).part = s.part ∧
    (endOp s c id bytes).err = s.err ∧ (endOp s c id bytes).pwr = s.pwr ∧ (endOp s c id bytes).mgmt = s.mgmt ∧
    (endOp s c id bytes).boot = s.boot ∧ (endOp s c id bytes).cells = s.cells ∧ (endOp s c id bytes).mem = s.mem ∧
    (endOp s c id bytes).reg = s.reg ∧ (endOp s c id bytes).trans = s.trans ∧ (endOp s c id bytes).attic = s.attic ∧
    (endOp s c id bytes).link = s.link ∧ (endOp s c id bytes).chord = s.chord ∧ (endOp s c id bytes).out = s.out ∧
    (endOp s c id bytes).pending = s.pending := by
  unfold endOp
  (try dsimp only)
  (repeat' (split <;> try (rename_i hp; first | (obtain ⟨rfl, rfl⟩ := Prod.ext_iff.mp hp) | (obtain ⟨rfl, hq⟩ := Prod.ext_iff.mp hp; obtain ⟨rfl, rfl⟩ := Prod.ext_iff.mp hq) | (obtain ⟨rfl, hq⟩ := Prod.ext_iff.mp hp; obtain ⟨rfl, _⟩ := Prod.ext_iff.mp hq) | (obtain ⟨_, hq⟩ := Prod.ext_iff.mp hp; obtain ⟨rfl, _⟩ := Prod.ext_iff.mp hq) | (obtain ⟨rfl, _⟩ := Prod.ext_iff.mp hp) | (obtain ⟨_, rfl⟩ := Prod.ext_iff.mp hp)))) <;> first | rfl | (simp; done) | (simp_all; done)

@[simp] theorem opCode_frame (s : State) (c id code : Nat) :
    (opCode s c id code).time = s.time ∧ (opCode s c id code).cp = s.cp ∧ (opCode s c id code).part = s.part ∧
    (opCode s c id code).err = s.err ∧ (opCode s c id code).pwr = s.pwr ∧ (opCode s c id code).mgmt = s.mgmt ∧
    (opCode s c id code).boot = s.boot ∧ (opCode s c id code).cells = s.cells ∧ (opCode s c id code).mem = s.mem ∧
    (opCode s c id code).reg = s.reg ∧ (opCode s c id code).trans = s.trans ∧ (opCode s c id code).attic = s.attic ∧
    (opCode s c id code).link = s.link ∧ (opCode s c id code).chord = s.chord ∧ (opCode s c id code).fresh = s.fresh ∧
    (opCode s c id code).out = s.out ∧ (opCode s c id code).pending = s.pending := by
  unfold opCode
  simp

@[simp] theorem opPoison_frame (s : State) (c id : Nat) :
    (opPoison s c id).time = s.time ∧ (opPoison s c id).cp = s.cp ∧ (opPoison s c id).part = s.part ∧
    (opPoison s c id).err = s.err ∧ (opPoison s c id).pwr = s.pwr ∧ (opPoison s c id).mgmt = s.mgmt ∧
    (opPoison s c id).boot = s.boot ∧ (opPoison s c id).cells = s.cells ∧ (opPoison s c id).mem = s.mem ∧
    (opPoison s c id).reg = s.reg ∧ (opPoison s c id).trans = s.trans ∧ (opPoison s c id).attic = s.attic ∧
    (opPoison s c id).link = s.link ∧ (opPoison s c id).chord = s.chord ∧ (opPoison s c id).fresh = s.fresh ∧
    (opPoison s c id).out = s.out ∧ (opPoison s c id).pending = s.pending := by
  unfold opPoison
  simp

@[simp] theorem settleOp_frame (s : State) (c id : Nat) :
    (settleOp s c id).time = s.time ∧ (settleOp s c id).cp = s.cp ∧ (settleOp s c id).part = s.part ∧
    (settleOp s c id).err = s.err ∧ (settleOp s c id).pwr = s.pwr ∧ (settleOp s c id).mgmt = s.mgmt ∧
    (settleOp s c id).boot = s.boot ∧ (settleOp s c id).cells = s.cells ∧ (settleOp s c id).mem = s.mem ∧
    (settleOp s c id).reg = s.reg ∧ (settleOp s c id).trans = s.trans ∧ (settleOp s c id).attic = s.attic ∧
    (settleOp s c id).link = s.link ∧ (settleOp s c id).chord = s.chord ∧ (settleOp s c id).out = s.out ∧
    (settleOp s c id).pending = s.pending := by
  unfold settleOp
  (try dsimp only)
  (repeat' (split <;> try (rename_i hp; first | (obtain ⟨rfl, rfl⟩ := Prod.ext_iff.mp hp) | (obtain ⟨rfl, hq⟩ := Prod.ext_iff.mp hp; obtain ⟨rfl, rfl⟩ := Prod.ext_iff.mp hq) | (obtain ⟨rfl, hq⟩ := Prod.ext_iff.mp hp; obtain ⟨rfl, _⟩ := Prod.ext_iff.mp hq) | (obtain ⟨_, hq⟩ := Prod.ext_iff.mp hp; obtain ⟨rfl, _⟩ := Prod.ext_iff.mp hq) | (obtain ⟨rfl, _⟩ := Prod.ext_iff.mp hp) | (obtain ⟨_, rfl⟩ := Prod.ext_iff.mp hp)))) <;> first | rfl | (simp; done) | (simp_all; done)

@[simp] theorem openMessage_frame (s : State) (p : Nat) (m : Message) :
    (openMessage s p m).1.time = s.time ∧ (openMessage s p m).1.cp = s.cp ∧ (openMessage s p m).1.part = s.part ∧
    (openMessage s p m).1.err = s.err ∧ (openMessage s p m).1.pwr = s.pwr ∧ (openMessage s p m).1.mgmt = s.mgmt ∧
    (openMessage s p m).1.boot = s.boot ∧ (openMessage s p m).1.cells = s.cells ∧ (openMessage s p m).1.mem = s.mem ∧
    (openMessage s p m).1.larder = s.larder ∧ (openMessage s p m).1.reg = s.reg ∧
    (openMessage s p m).1.trans = s.trans ∧ (openMessage s p m).1.attic = s.attic ∧
    (openMessage s p m).1.link = s.link ∧ (openMessage s p m).1.fresh = s.fresh ∧ (openMessage s p m).1.out = s.out ∧
    (openMessage s p m).1.pending = s.pending := by
  unfold openMessage
  simp

@[simp] theorem addPackets_frame (s : State) (p id : Nat) (l : List Packet) :
    (addPackets s p id l).time = s.time ∧ (addPackets s p id l).cp = s.cp ∧ (addPackets s p id l).part = s.part ∧
    (addPackets s p id l).err = s.err ∧ (addPackets s p id l).pwr = s.pwr ∧ (addPackets s p id l).mgmt = s.mgmt ∧
    (addPackets s p id l).boot = s.boot ∧ (addPackets s p id l).cells = s.cells ∧ (addPackets s p id l).mem = s.mem ∧
    (addPackets s p id l).larder = s.larder ∧ (addPackets s p id l).reg = s.reg ∧
    (addPackets s p id l).trans = s.trans ∧ (addPackets s p id l).attic = s.attic ∧
    (addPackets s p id l).link = s.link ∧ (addPackets s p id l).fresh = s.fresh ∧
    (addPackets s p id l).pending = s.pending := by
  unfold addPackets
  simp

@[simp] theorem hostReach_time (fuel : Nat) (s : State) (pasid part : Nat) (who : Asker) (a n : Nat) :
    (hostReach fuel s pasid part who a n).1.time = s.time := by
  induction fuel generalizing s pasid part who a n with
  | zero => simp [hostReach]
  | succ fuel ih =>
    unfold hostReach
    (try dsimp only)
    (repeat' (split <;> try (rename_i hp; first | (obtain ⟨rfl, rfl⟩ := Prod.ext_iff.mp hp) | (obtain ⟨rfl, hq⟩ := Prod.ext_iff.mp hp; obtain ⟨rfl, rfl⟩ := Prod.ext_iff.mp hq) | (obtain ⟨rfl, hq⟩ := Prod.ext_iff.mp hp; obtain ⟨rfl, _⟩ := Prod.ext_iff.mp hq) | (obtain ⟨_, hq⟩ := Prod.ext_iff.mp hp; obtain ⟨rfl, _⟩ := Prod.ext_iff.mp hq) | (obtain ⟨rfl, _⟩ := Prod.ext_iff.mp hp) | (obtain ⟨_, rfl⟩ := Prod.ext_iff.mp hp)))) <;> first | rfl | (simp [ih]; done) | (simp_all; done)

@[simp] theorem hostReach_part (fuel : Nat) (s : State) (pasid part : Nat) (who : Asker) (a n : Nat) :
    (hostReach fuel s pasid part who a n).1.part = s.part := by
  induction fuel generalizing s pasid part who a n with
  | zero => simp [hostReach]
  | succ fuel ih =>
    unfold hostReach
    (try dsimp only)
    (repeat' (split <;> try (rename_i hp; first | (obtain ⟨rfl, rfl⟩ := Prod.ext_iff.mp hp) | (obtain ⟨rfl, hq⟩ := Prod.ext_iff.mp hp; obtain ⟨rfl, rfl⟩ := Prod.ext_iff.mp hq) | (obtain ⟨rfl, hq⟩ := Prod.ext_iff.mp hp; obtain ⟨rfl, _⟩ := Prod.ext_iff.mp hq) | (obtain ⟨_, hq⟩ := Prod.ext_iff.mp hp; obtain ⟨rfl, _⟩ := Prod.ext_iff.mp hq) | (obtain ⟨rfl, _⟩ := Prod.ext_iff.mp hp) | (obtain ⟨_, rfl⟩ := Prod.ext_iff.mp hp)))) <;> first | rfl | (simp [ih]; done) | (simp_all; done)

@[simp] theorem hostReach_pwr (fuel : Nat) (s : State) (pasid part : Nat) (who : Asker) (a n : Nat) :
    (hostReach fuel s pasid part who a n).1.pwr = s.pwr := by
  induction fuel generalizing s pasid part who a n with
  | zero => simp [hostReach]
  | succ fuel ih =>
    unfold hostReach
    (try dsimp only)
    (repeat' (split <;> try (rename_i hp; first | (obtain ⟨rfl, rfl⟩ := Prod.ext_iff.mp hp) | (obtain ⟨rfl, hq⟩ := Prod.ext_iff.mp hp; obtain ⟨rfl, rfl⟩ := Prod.ext_iff.mp hq) | (obtain ⟨rfl, hq⟩ := Prod.ext_iff.mp hp; obtain ⟨rfl, _⟩ := Prod.ext_iff.mp hq) | (obtain ⟨_, hq⟩ := Prod.ext_iff.mp hp; obtain ⟨rfl, _⟩ := Prod.ext_iff.mp hq) | (obtain ⟨rfl, _⟩ := Prod.ext_iff.mp hp) | (obtain ⟨_, rfl⟩ := Prod.ext_iff.mp hp)))) <;> first | rfl | (simp [ih]; done) | (simp_all; done)

@[simp] theorem hostReach_boot (fuel : Nat) (s : State) (pasid part : Nat) (who : Asker) (a n : Nat) :
    (hostReach fuel s pasid part who a n).1.boot = s.boot := by
  induction fuel generalizing s pasid part who a n with
  | zero => simp [hostReach]
  | succ fuel ih =>
    unfold hostReach
    (try dsimp only)
    (repeat' (split <;> try (rename_i hp; first | (obtain ⟨rfl, rfl⟩ := Prod.ext_iff.mp hp) | (obtain ⟨rfl, hq⟩ := Prod.ext_iff.mp hp; obtain ⟨rfl, rfl⟩ := Prod.ext_iff.mp hq) | (obtain ⟨rfl, hq⟩ := Prod.ext_iff.mp hp; obtain ⟨rfl, _⟩ := Prod.ext_iff.mp hq) | (obtain ⟨_, hq⟩ := Prod.ext_iff.mp hp; obtain ⟨rfl, _⟩ := Prod.ext_iff.mp hq) | (obtain ⟨rfl, _⟩ := Prod.ext_iff.mp hp) | (obtain ⟨_, rfl⟩ := Prod.ext_iff.mp hp)))) <;> first | rfl | (simp [ih]; done) | (simp_all; done)

@[simp] theorem hostReach_cells (fuel : Nat) (s : State) (pasid part : Nat) (who : Asker) (a n : Nat) :
    (hostReach fuel s pasid part who a n).1.cells = s.cells := by
  induction fuel generalizing s pasid part who a n with
  | zero => simp [hostReach]
  | succ fuel ih =>
    unfold hostReach
    (try dsimp only)
    (repeat' (split <;> try (rename_i hp; first | (obtain ⟨rfl, rfl⟩ := Prod.ext_iff.mp hp) | (obtain ⟨rfl, hq⟩ := Prod.ext_iff.mp hp; obtain ⟨rfl, rfl⟩ := Prod.ext_iff.mp hq) | (obtain ⟨rfl, hq⟩ := Prod.ext_iff.mp hp; obtain ⟨rfl, _⟩ := Prod.ext_iff.mp hq) | (obtain ⟨_, hq⟩ := Prod.ext_iff.mp hp; obtain ⟨rfl, _⟩ := Prod.ext_iff.mp hq) | (obtain ⟨rfl, _⟩ := Prod.ext_iff.mp hp) | (obtain ⟨_, rfl⟩ := Prod.ext_iff.mp hp)))) <;> first | rfl | (simp [ih]; done) | (simp_all; done)

@[simp] theorem hostReach_mem (fuel : Nat) (s : State) (pasid part : Nat) (who : Asker) (a n : Nat) :
    (hostReach fuel s pasid part who a n).1.mem = s.mem := by
  induction fuel generalizing s pasid part who a n with
  | zero => simp [hostReach]
  | succ fuel ih =>
    unfold hostReach
    (try dsimp only)
    (repeat' (split <;> try (rename_i hp; first | (obtain ⟨rfl, rfl⟩ := Prod.ext_iff.mp hp) | (obtain ⟨rfl, hq⟩ := Prod.ext_iff.mp hp; obtain ⟨rfl, rfl⟩ := Prod.ext_iff.mp hq) | (obtain ⟨rfl, hq⟩ := Prod.ext_iff.mp hp; obtain ⟨rfl, _⟩ := Prod.ext_iff.mp hq) | (obtain ⟨_, hq⟩ := Prod.ext_iff.mp hp; obtain ⟨rfl, _⟩ := Prod.ext_iff.mp hq) | (obtain ⟨rfl, _⟩ := Prod.ext_iff.mp hp) | (obtain ⟨_, rfl⟩ := Prod.ext_iff.mp hp)))) <;> first | rfl | (simp [ih]; done) | (simp_all; done)

@[simp] theorem hostReach_larder (fuel : Nat) (s : State) (pasid part : Nat) (who : Asker) (a n : Nat) :
    (hostReach fuel s pasid part who a n).1.larder = s.larder := by
  induction fuel generalizing s pasid part who a n with
  | zero => simp [hostReach]
  | succ fuel ih =>
    unfold hostReach
    (try dsimp only)
    (repeat' (split <;> try (rename_i hp; first | (obtain ⟨rfl, rfl⟩ := Prod.ext_iff.mp hp) | (obtain ⟨rfl, hq⟩ := Prod.ext_iff.mp hp; obtain ⟨rfl, rfl⟩ := Prod.ext_iff.mp hq) | (obtain ⟨rfl, hq⟩ := Prod.ext_iff.mp hp; obtain ⟨rfl, _⟩ := Prod.ext_iff.mp hq) | (obtain ⟨_, hq⟩ := Prod.ext_iff.mp hp; obtain ⟨rfl, _⟩ := Prod.ext_iff.mp hq) | (obtain ⟨rfl, _⟩ := Prod.ext_iff.mp hp) | (obtain ⟨_, rfl⟩ := Prod.ext_iff.mp hp)))) <;> first | rfl | (simp [ih]; done) | (simp_all; done)

@[simp] theorem hostReach_reg (fuel : Nat) (s : State) (pasid part : Nat) (who : Asker) (a n : Nat) :
    (hostReach fuel s pasid part who a n).1.reg = s.reg := by
  induction fuel generalizing s pasid part who a n with
  | zero => simp [hostReach]
  | succ fuel ih =>
    unfold hostReach
    (try dsimp only)
    (repeat' (split <;> try (rename_i hp; first | (obtain ⟨rfl, rfl⟩ := Prod.ext_iff.mp hp) | (obtain ⟨rfl, hq⟩ := Prod.ext_iff.mp hp; obtain ⟨rfl, rfl⟩ := Prod.ext_iff.mp hq) | (obtain ⟨rfl, hq⟩ := Prod.ext_iff.mp hp; obtain ⟨rfl, _⟩ := Prod.ext_iff.mp hq) | (obtain ⟨_, hq⟩ := Prod.ext_iff.mp hp; obtain ⟨rfl, _⟩ := Prod.ext_iff.mp hq) | (obtain ⟨rfl, _⟩ := Prod.ext_iff.mp hp) | (obtain ⟨_, rfl⟩ := Prod.ext_iff.mp hp)))) <;> first | rfl | (simp [ih]; done) | (simp_all; done)

@[simp] theorem hostReach_attic (fuel : Nat) (s : State) (pasid part : Nat) (who : Asker) (a n : Nat) :
    (hostReach fuel s pasid part who a n).1.attic = s.attic := by
  induction fuel generalizing s pasid part who a n with
  | zero => simp [hostReach]
  | succ fuel ih =>
    unfold hostReach
    (try dsimp only)
    (repeat' (split <;> try (rename_i hp; first | (obtain ⟨rfl, rfl⟩ := Prod.ext_iff.mp hp) | (obtain ⟨rfl, hq⟩ := Prod.ext_iff.mp hp; obtain ⟨rfl, rfl⟩ := Prod.ext_iff.mp hq) | (obtain ⟨rfl, hq⟩ := Prod.ext_iff.mp hp; obtain ⟨rfl, _⟩ := Prod.ext_iff.mp hq) | (obtain ⟨_, hq⟩ := Prod.ext_iff.mp hp; obtain ⟨rfl, _⟩ := Prod.ext_iff.mp hq) | (obtain ⟨rfl, _⟩ := Prod.ext_iff.mp hp) | (obtain ⟨_, rfl⟩ := Prod.ext_iff.mp hp)))) <;> first | rfl | (simp [ih]; done) | (simp_all; done)

@[simp] theorem hostReach_link (fuel : Nat) (s : State) (pasid part : Nat) (who : Asker) (a n : Nat) :
    (hostReach fuel s pasid part who a n).1.link = s.link := by
  induction fuel generalizing s pasid part who a n with
  | zero => simp [hostReach]
  | succ fuel ih =>
    unfold hostReach
    (try dsimp only)
    (repeat' (split <;> try (rename_i hp; first | (obtain ⟨rfl, rfl⟩ := Prod.ext_iff.mp hp) | (obtain ⟨rfl, hq⟩ := Prod.ext_iff.mp hp; obtain ⟨rfl, rfl⟩ := Prod.ext_iff.mp hq) | (obtain ⟨rfl, hq⟩ := Prod.ext_iff.mp hp; obtain ⟨rfl, _⟩ := Prod.ext_iff.mp hq) | (obtain ⟨_, hq⟩ := Prod.ext_iff.mp hp; obtain ⟨rfl, _⟩ := Prod.ext_iff.mp hq) | (obtain ⟨rfl, _⟩ := Prod.ext_iff.mp hp) | (obtain ⟨_, rfl⟩ := Prod.ext_iff.mp hp)))) <;> first | rfl | (simp [ih]; done) | (simp_all; done)

@[simp] theorem hostReach_chord (fuel : Nat) (s : State) (pasid part : Nat) (who : Asker) (a n : Nat) :
    (hostReach fuel s pasid part who a n).1.chord = s.chord := by
  induction fuel generalizing s pasid part who a n with
  | zero => simp [hostReach]
  | succ fuel ih =>
    unfold hostReach
    (try dsimp only)
    (repeat' (split <;> try (rename_i hp; first | (obtain ⟨rfl, rfl⟩ := Prod.ext_iff.mp hp) | (obtain ⟨rfl, hq⟩ := Prod.ext_iff.mp hp; obtain ⟨rfl, rfl⟩ := Prod.ext_iff.mp hq) | (obtain ⟨rfl, hq⟩ := Prod.ext_iff.mp hp; obtain ⟨rfl, _⟩ := Prod.ext_iff.mp hq) | (obtain ⟨_, hq⟩ := Prod.ext_iff.mp hp; obtain ⟨rfl, _⟩ := Prod.ext_iff.mp hq) | (obtain ⟨rfl, _⟩ := Prod.ext_iff.mp hp) | (obtain ⟨_, rfl⟩ := Prod.ext_iff.mp hp)))) <;> first | rfl | (simp [ih]; done) | (simp_all; done)

@[simp] theorem hostReach_fresh (fuel : Nat) (s : State) (pasid part : Nat) (who : Asker) (a n : Nat) :
    (hostReach fuel s pasid part who a n).1.fresh = s.fresh := by
  induction fuel generalizing s pasid part who a n with
  | zero => simp [hostReach]
  | succ fuel ih =>
    unfold hostReach
    (try dsimp only)
    (repeat' (split <;> try (rename_i hp; first | (obtain ⟨rfl, rfl⟩ := Prod.ext_iff.mp hp) | (obtain ⟨rfl, hq⟩ := Prod.ext_iff.mp hp; obtain ⟨rfl, rfl⟩ := Prod.ext_iff.mp hq) | (obtain ⟨rfl, hq⟩ := Prod.ext_iff.mp hp; obtain ⟨rfl, _⟩ := Prod.ext_iff.mp hq) | (obtain ⟨_, hq⟩ := Prod.ext_iff.mp hp; obtain ⟨rfl, _⟩ := Prod.ext_iff.mp hq) | (obtain ⟨rfl, _⟩ := Prod.ext_iff.mp hp) | (obtain ⟨_, rfl⟩ := Prod.ext_iff.mp hp)))) <;> first | rfl | (simp [ih]; done) | (simp_all; done)

@[simp] theorem hostReach_pending (fuel : Nat) (s : State) (pasid part : Nat) (who : Asker) (a n : Nat) :
    (hostReach fuel s pasid part who a n).1.pending = s.pending := by
  induction fuel generalizing s pasid part who a n with
  | zero => simp [hostReach]
  | succ fuel ih =>
    unfold hostReach
    (try dsimp only)
    (repeat' (split <;> try (rename_i hp; first | (obtain ⟨rfl, rfl⟩ := Prod.ext_iff.mp hp) | (obtain ⟨rfl, hq⟩ := Prod.ext_iff.mp hp; obtain ⟨rfl, rfl⟩ := Prod.ext_iff.mp hq) | (obtain ⟨rfl, hq⟩ := Prod.ext_iff.mp hp; obtain ⟨rfl, _⟩ := Prod.ext_iff.mp hq) | (obtain ⟨_, hq⟩ := Prod.ext_iff.mp hp; obtain ⟨rfl, _⟩ := Prod.ext_iff.mp hq) | (obtain ⟨rfl, _⟩ := Prod.ext_iff.mp hp) | (obtain ⟨_, rfl⟩ := Prod.ext_iff.mp hp)))) <;> first | rfl | (simp [ih]; done) | (simp_all; done)

@[simp] theorem putSpan_frame (s : State) (c : Nat) (j : MoverJob) (p id : Nat) (b : Bytes) (data : Bytes) (pz : Nat → Bool) :
    (putSpan s c j p id b data pz).time = s.time ∧ (putSpan s c j p id b data pz).cp = s.cp ∧
    (putSpan s c j p id b data pz).part = s.part ∧ (putSpan s c j p id b data pz).err = s.err ∧
    (putSpan s c j p id b data pz).pwr = s.pwr ∧ (putSpan s c j p id b data pz).mgmt = s.mgmt ∧
    (putSpan s c j p id b data pz).boot = s.boot ∧ (putSpan s c j p id b data pz).cells = s.cells ∧
    (putSpan s c j p id b data pz).mem = s.mem ∧ (putSpan s c j p id b data pz).reg = s.reg ∧
    (putSpan s c j p id b data pz).trans = s.trans ∧ (putSpan s c j p id b data pz).attic = s.attic ∧
    (putSpan s c j p id b data pz).link = s.link ∧ (putSpan s c j p id b data pz).fresh = s.fresh ∧
    (putSpan s c j p id b data pz).pending = s.pending := by
  unfold putSpan
  simp

@[simp] theorem putMore_frame (s : State) (c : Nat) (j : MoverJob) (p id : Nat) (b : Bytes) (host : Fetch) :
    (putMore s c j p id b host).time = s.time ∧ (putMore s c j p id b host).part = s.part ∧
    (putMore s c j p id b host).pwr = s.pwr ∧ (putMore s c j p id b host).mem = s.mem ∧
    (putMore s c j p id b host).reg = s.reg ∧ (putMore s c j p id b host).link = s.link ∧
    (putMore s c j p id b host).fresh = s.fresh ∧ (putMore s c j p id b host).pending = s.pending := by
  unfold putMore
  (try dsimp only)
  (repeat' (split <;> try (rename_i hp; first | (obtain ⟨rfl, rfl⟩ := Prod.ext_iff.mp hp) | (obtain ⟨rfl, hq⟩ := Prod.ext_iff.mp hp; obtain ⟨rfl, rfl⟩ := Prod.ext_iff.mp hq) | (obtain ⟨rfl, hq⟩ := Prod.ext_iff.mp hp; obtain ⟨rfl, _⟩ := Prod.ext_iff.mp hq) | (obtain ⟨_, hq⟩ := Prod.ext_iff.mp hp; obtain ⟨rfl, _⟩ := Prod.ext_iff.mp hq) | (obtain ⟨rfl, _⟩ := Prod.ext_iff.mp hp) | (obtain ⟨_, rfl⟩ := Prod.ext_iff.mp hp)))) <;> (try simp) <;> (repeat' apply And.intro) <;> (first | apply forEach_time | apply foldl_time | apply forEachFst_time | apply foldlFst_time | apply forEach_part | apply foldl_part | apply forEachFst_part | apply foldlFst_part | apply forEach_pwr | apply foldl_pwr | apply forEachFst_pwr | apply foldlFst_pwr | apply forEach_mem | apply foldl_mem | apply forEachFst_mem | apply foldlFst_mem | apply forEach_reg | apply foldl_reg | apply forEachFst_reg | apply foldlFst_reg | apply forEach_link | apply foldl_link | apply forEachFst_link | apply foldlFst_link | apply forEach_fresh | apply foldl_fresh | apply forEachFst_fresh | apply foldlFst_fresh | apply forEach_pending | apply foldl_pending | apply forEachFst_pending | apply foldlFst_pending) <;> intro _ _ <;> (try dsimp only) <;> (repeat' (split <;> try (rename_i hp; first | (obtain ⟨rfl, rfl⟩ := Prod.ext_iff.mp hp) | (obtain ⟨rfl, hq⟩ := Prod.ext_iff.mp hp; obtain ⟨rfl, rfl⟩ := Prod.ext_iff.mp hq) | (obtain ⟨rfl, hq⟩ := Prod.ext_iff.mp hp; obtain ⟨rfl, _⟩ := Prod.ext_iff.mp hq) | (obtain ⟨_, hq⟩ := Prod.ext_iff.mp hp; obtain ⟨rfl, _⟩ := Prod.ext_iff.mp hq) | (obtain ⟨rfl, _⟩ := Prod.ext_iff.mp hp) | (obtain ⟨_, rfl⟩ := Prod.ext_iff.mp hp)))) <;> first | rfl | (simp; done) | (simp_all; done)

@[simp] theorem placeGet_frame (s : State) (c : Nat) (j : MoverJob) (engine off : Nat) (data : Bytes) (pz : Nat → Bool) :
    (placeGet s c j engine off data pz).1.time = s.time ∧ (placeGet s c j engine off data pz).1.part = s.part ∧
    (placeGet s c j engine off data pz).1.pwr = s.pwr ∧ (placeGet s c j engine off data pz).1.boot = s.boot ∧
    (placeGet s c j engine off data pz).1.reg = s.reg ∧ (placeGet s c j engine off data pz).1.link = s.link ∧
    (placeGet s c j engine off data pz).1.fresh = s.fresh ∧
    (placeGet s c j engine off data pz).1.pending = s.pending := by
  unfold placeGet
  (try dsimp only)
  (repeat' (split <;> try (rename_i hp; first | (obtain ⟨rfl, rfl⟩ := Prod.ext_iff.mp hp) | (obtain ⟨rfl, hq⟩ := Prod.ext_iff.mp hp; obtain ⟨rfl, rfl⟩ := Prod.ext_iff.mp hq) | (obtain ⟨rfl, hq⟩ := Prod.ext_iff.mp hp; obtain ⟨rfl, _⟩ := Prod.ext_iff.mp hq) | (obtain ⟨_, hq⟩ := Prod.ext_iff.mp hp; obtain ⟨rfl, _⟩ := Prod.ext_iff.mp hq) | (obtain ⟨rfl, _⟩ := Prod.ext_iff.mp hp) | (obtain ⟨_, rfl⟩ := Prod.ext_iff.mp hp)))) <;> (try simp) <;> (repeat' apply And.intro) <;> (first | apply forEach_time | apply foldl_time | apply forEachFst_time | apply foldlFst_time | apply forEach_part | apply foldl_part | apply forEachFst_part | apply foldlFst_part | apply forEach_pwr | apply foldl_pwr | apply forEachFst_pwr | apply foldlFst_pwr | apply forEach_boot | apply foldl_boot | apply forEachFst_boot | apply foldlFst_boot | apply forEach_reg | apply foldl_reg | apply forEachFst_reg | apply foldlFst_reg | apply forEach_link | apply foldl_link | apply forEachFst_link | apply foldlFst_link | apply forEach_fresh | apply foldl_fresh | apply forEachFst_fresh | apply foldlFst_fresh | apply forEach_pending | apply foldl_pending | apply forEachFst_pending | apply foldlFst_pending) <;> intro _ _ <;> (try dsimp only) <;> (repeat' (split <;> try (rename_i hp; first | (obtain ⟨rfl, rfl⟩ := Prod.ext_iff.mp hp) | (obtain ⟨rfl, hq⟩ := Prod.ext_iff.mp hp; obtain ⟨rfl, rfl⟩ := Prod.ext_iff.mp hq) | (obtain ⟨rfl, hq⟩ := Prod.ext_iff.mp hp; obtain ⟨rfl, _⟩ := Prod.ext_iff.mp hq) | (obtain ⟨_, hq⟩ := Prod.ext_iff.mp hp; obtain ⟨rfl, _⟩ := Prod.ext_iff.mp hq) | (obtain ⟨rfl, _⟩ := Prod.ext_iff.mp hp) | (obtain ⟨_, rfl⟩ := Prod.ext_iff.mp hp)))) <;> first | rfl | (simp; done) | (simp_all; done)

@[simp] theorem takeGet_frame (s : State) (c : Nat) (j : MoverJob) (engine off : Nat) (k : Packet) :
    (takeGet s c j engine off k).1.time = s.time ∧ (takeGet s c j engine off k).1.part = s.part ∧
    (takeGet s c j engine off k).1.pwr = s.pwr ∧ (takeGet s c j engine off k).1.boot = s.boot ∧
    (takeGet s c j engine off k).1.reg = s.reg ∧ (takeGet s c j engine off k).1.link = s.link ∧
    (takeGet s c j engine off k).1.fresh = s.fresh ∧ (takeGet s c j engine off k).1.pending = s.pending := by
  unfold takeGet
  (try dsimp only)
  (repeat' (split <;> try (rename_i hp; first | (obtain ⟨rfl, rfl⟩ := Prod.ext_iff.mp hp) | (obtain ⟨rfl, hq⟩ := Prod.ext_iff.mp hp; obtain ⟨rfl, rfl⟩ := Prod.ext_iff.mp hq) | (obtain ⟨rfl, hq⟩ := Prod.ext_iff.mp hp; obtain ⟨rfl, _⟩ := Prod.ext_iff.mp hq) | (obtain ⟨_, hq⟩ := Prod.ext_iff.mp hp; obtain ⟨rfl, _⟩ := Prod.ext_iff.mp hq) | (obtain ⟨rfl, _⟩ := Prod.ext_iff.mp hp) | (obtain ⟨_, rfl⟩ := Prod.ext_iff.mp hp)))) <;> (try simp) <;> (repeat' apply And.intro) <;> (first | apply forEach_time | apply foldl_time | apply forEachFst_time | apply foldlFst_time | apply forEach_part | apply foldl_part | apply forEachFst_part | apply foldlFst_part | apply forEach_pwr | apply foldl_pwr | apply forEachFst_pwr | apply foldlFst_pwr | apply forEach_boot | apply foldl_boot | apply forEachFst_boot | apply foldlFst_boot | apply forEach_reg | apply foldl_reg | apply forEachFst_reg | apply foldlFst_reg | apply forEach_link | apply foldl_link | apply forEachFst_link | apply foldlFst_link | apply forEach_fresh | apply foldl_fresh | apply forEachFst_fresh | apply foldlFst_fresh | apply forEach_pending | apply foldl_pending | apply forEachFst_pending | apply foldlFst_pending) <;> intro _ _ <;> (try dsimp only) <;> (repeat' (split <;> try (rename_i hp; first | (obtain ⟨rfl, rfl⟩ := Prod.ext_iff.mp hp) | (obtain ⟨rfl, hq⟩ := Prod.ext_iff.mp hp; obtain ⟨rfl, rfl⟩ := Prod.ext_iff.mp hq) | (obtain ⟨rfl, hq⟩ := Prod.ext_iff.mp hp; obtain ⟨rfl, _⟩ := Prod.ext_iff.mp hq) | (obtain ⟨_, hq⟩ := Prod.ext_iff.mp hp; obtain ⟨rfl, _⟩ := Prod.ext_iff.mp hq) | (obtain ⟨rfl, _⟩ := Prod.ext_iff.mp hp) | (obtain ⟨_, rfl⟩ := Prod.ext_iff.mp hp)))) <;> first | rfl | (simp; done) | (simp_all; done)

@[simp] theorem gotBytes_frame (s : State) (p id n : Nat) :
    (gotBytes s p id n).time = s.time ∧ (gotBytes s p id n).cp = s.cp ∧ (gotBytes s p id n).part = s.part ∧
    (gotBytes s p id n).err = s.err ∧ (gotBytes s p id n).pwr = s.pwr ∧ (gotBytes s p id n).mgmt = s.mgmt ∧
    (gotBytes s p id n).boot = s.boot ∧ (gotBytes s p id n).cells = s.cells ∧ (gotBytes s p id n).mem = s.mem ∧
    (gotBytes s p id n).reg = s.reg ∧ (gotBytes s p id n).trans = s.trans ∧ (gotBytes s p id n).attic = s.attic ∧
    (gotBytes s p id n).link = s.link ∧ (gotBytes s p id n).out = s.out ∧
    (gotBytes s p id n).pending = s.pending := by
  unfold gotBytes
  (try dsimp only)
  (repeat' (split <;> try (rename_i hp; first | (obtain ⟨rfl, rfl⟩ := Prod.ext_iff.mp hp) | (obtain ⟨rfl, hq⟩ := Prod.ext_iff.mp hp; obtain ⟨rfl, rfl⟩ := Prod.ext_iff.mp hq) | (obtain ⟨rfl, hq⟩ := Prod.ext_iff.mp hp; obtain ⟨rfl, _⟩ := Prod.ext_iff.mp hq) | (obtain ⟨_, hq⟩ := Prod.ext_iff.mp hp; obtain ⟨rfl, _⟩ := Prod.ext_iff.mp hq) | (obtain ⟨rfl, _⟩ := Prod.ext_iff.mp hp) | (obtain ⟨_, rfl⟩ := Prod.ext_iff.mp hp)))) <;> first | rfl | (simp; done) | (simp_all; done)

@[simp] theorem placeOne_frame (s : State) (c : Nat) (j : MoverJob) (p msg off : Nat) (k : Packet) :
    (placeOne s c j p msg off k).time = s.time ∧ (placeOne s c j p msg off k).part = s.part ∧
    (placeOne s c j p msg off k).pwr = s.pwr ∧ (placeOne s c j p msg off k).boot = s.boot ∧
    (placeOne s c j p msg off k).reg = s.reg ∧ (placeOne s c j p msg off k).link = s.link ∧
    (placeOne s c j p msg off k).pending = s.pending := by
  unfold placeOne
  (try dsimp only)
  (repeat' (split <;> try (rename_i hp; first | (obtain ⟨rfl, rfl⟩ := Prod.ext_iff.mp hp) | (obtain ⟨rfl, hq⟩ := Prod.ext_iff.mp hp; obtain ⟨rfl, rfl⟩ := Prod.ext_iff.mp hq) | (obtain ⟨rfl, hq⟩ := Prod.ext_iff.mp hp; obtain ⟨rfl, _⟩ := Prod.ext_iff.mp hq) | (obtain ⟨_, hq⟩ := Prod.ext_iff.mp hp; obtain ⟨rfl, _⟩ := Prod.ext_iff.mp hq) | (obtain ⟨rfl, _⟩ := Prod.ext_iff.mp hp) | (obtain ⟨_, rfl⟩ := Prod.ext_iff.mp hp)))) <;> first | rfl | (simp; done) | (simp_all; done)

@[simp] theorem placeParked_frame (s : State) (c : Nat) (j : MoverJob) :
    (placeParked s c j).time = s.time ∧ (placeParked s c j).part = s.part ∧ (placeParked s c j).pwr = s.pwr ∧
    (placeParked s c j).boot = s.boot ∧ (placeParked s c j).reg = s.reg ∧ (placeParked s c j).link = s.link ∧
    (placeParked s c j).pending = s.pending := by
  unfold placeParked
  (try dsimp only)
  (repeat' (split <;> try (rename_i hp; first | (obtain ⟨rfl, rfl⟩ := Prod.ext_iff.mp hp) | (obtain ⟨rfl, hq⟩ := Prod.ext_iff.mp hp; obtain ⟨rfl, rfl⟩ := Prod.ext_iff.mp hq) | (obtain ⟨rfl, hq⟩ := Prod.ext_iff.mp hp; obtain ⟨rfl, _⟩ := Prod.ext_iff.mp hq) | (obtain ⟨_, hq⟩ := Prod.ext_iff.mp hp; obtain ⟨rfl, _⟩ := Prod.ext_iff.mp hq) | (obtain ⟨rfl, _⟩ := Prod.ext_iff.mp hp) | (obtain ⟨_, rfl⟩ := Prod.ext_iff.mp hp)))) <;> (try simp) <;> (repeat' apply And.intro) <;> (first | apply forEach_time | apply foldl_time | apply forEachFst_time | apply foldlFst_time | apply forEach_part | apply foldl_part | apply forEachFst_part | apply foldlFst_part | apply forEach_pwr | apply foldl_pwr | apply forEachFst_pwr | apply foldlFst_pwr | apply forEach_boot | apply foldl_boot | apply forEachFst_boot | apply foldlFst_boot | apply forEach_reg | apply foldl_reg | apply forEachFst_reg | apply foldlFst_reg | apply forEach_link | apply foldl_link | apply forEachFst_link | apply foldlFst_link | apply forEach_pending | apply foldl_pending | apply forEachFst_pending | apply foldlFst_pending) <;> intro _ _ <;> (try dsimp only) <;> (repeat' (split <;> try (rename_i hp; first | (obtain ⟨rfl, rfl⟩ := Prod.ext_iff.mp hp) | (obtain ⟨rfl, hq⟩ := Prod.ext_iff.mp hp; obtain ⟨rfl, rfl⟩ := Prod.ext_iff.mp hq) | (obtain ⟨rfl, hq⟩ := Prod.ext_iff.mp hp; obtain ⟨rfl, _⟩ := Prod.ext_iff.mp hq) | (obtain ⟨_, hq⟩ := Prod.ext_iff.mp hp; obtain ⟨rfl, _⟩ := Prod.ext_iff.mp hq) | (obtain ⟨rfl, _⟩ := Prod.ext_iff.mp hp) | (obtain ⟨_, rfl⟩ := Prod.ext_iff.mp hp)))) <;> first | rfl | (simp; done) | (simp_all; done)

@[simp] theorem sendPeg_frame (s : State) (p : Nat) (client : MsgClient) (w op peg n : Nat) :
    (sendPeg s p client w op peg n).time = s.time ∧ (sendPeg s p client w op peg n).cp = s.cp ∧
    (sendPeg s p client w op peg n).part = s.part ∧ (sendPeg s p client w op peg n).err = s.err ∧
    (sendPeg s p client w op peg n).pwr = s.pwr ∧ (sendPeg s p client w op peg n).mgmt = s.mgmt ∧
    (sendPeg s p client w op peg n).boot = s.boot ∧ (sendPeg s p client w op peg n).cells = s.cells ∧
    (sendPeg s p client w op peg n).mem = s.mem ∧ (sendPeg s p client w op peg n).larder = s.larder ∧
    (sendPeg s p client w op peg n).reg = s.reg ∧ (sendPeg s p client w op peg n).trans = s.trans ∧
    (sendPeg s p client w op peg n).attic = s.attic ∧ (sendPeg s p client w op peg n).link = s.link ∧
    (sendPeg s p client w op peg n).fresh = s.fresh ∧ (sendPeg s p client w op peg n).pending = s.pending := by
  unfold sendPeg
  simp

@[simp] theorem modColl_frame (s : State) (k : Nat) (f : Collective → Collective) :
    (modColl s k f).time = s.time ∧ (modColl s k f).cp = s.cp ∧ (modColl s k f).part = s.part ∧
    (modColl s k f).err = s.err ∧ (modColl s k f).pwr = s.pwr ∧ (modColl s k f).mgmt = s.mgmt ∧
    (modColl s k f).boot = s.boot ∧ (modColl s k f).cells = s.cells ∧ (modColl s k f).mem = s.mem ∧
    (modColl s k f).larder = s.larder ∧ (modColl s k f).reg = s.reg ∧ (modColl s k f).trans = s.trans ∧
    (modColl s k f).attic = s.attic ∧ (modColl s k f).link = s.link ∧ (modColl s k f).fresh = s.fresh ∧
    (modColl s k f).out = s.out ∧ (modColl s k f).pending = s.pending := by
  unfold modColl
  simp

@[simp] theorem memberPeer_frame (s : State) (part node : Nat) :
    (memberPeer s part node).1.time = s.time ∧ (memberPeer s part node).1.cp = s.cp ∧
    (memberPeer s part node).1.part = s.part ∧ (memberPeer s part node).1.err = s.err ∧
    (memberPeer s part node).1.pwr = s.pwr ∧ (memberPeer s part node).1.mgmt = s.mgmt ∧
    (memberPeer s part node).1.boot = s.boot ∧ (memberPeer s part node).1.cells = s.cells ∧
    (memberPeer s part node).1.mem = s.mem ∧ (memberPeer s part node).1.larder = s.larder ∧
    (memberPeer s part node).1.reg = s.reg ∧ (memberPeer s part node).1.trans = s.trans ∧
    (memberPeer s part node).1.attic = s.attic ∧ (memberPeer s part node).1.link = s.link ∧
    (memberPeer s part node).1.out = s.out ∧ (memberPeer s part node).1.pending = s.pending := by
  unfold memberPeer
  (try dsimp only)
  (repeat' (split <;> try (rename_i hp; first | (obtain ⟨rfl, rfl⟩ := Prod.ext_iff.mp hp) | (obtain ⟨rfl, hq⟩ := Prod.ext_iff.mp hp; obtain ⟨rfl, rfl⟩ := Prod.ext_iff.mp hq) | (obtain ⟨rfl, hq⟩ := Prod.ext_iff.mp hp; obtain ⟨rfl, _⟩ := Prod.ext_iff.mp hq) | (obtain ⟨_, hq⟩ := Prod.ext_iff.mp hp; obtain ⟨rfl, _⟩ := Prod.ext_iff.mp hq) | (obtain ⟨rfl, _⟩ := Prod.ext_iff.mp hp) | (obtain ⟨_, rfl⟩ := Prod.ext_iff.mp hp)))) <;> first | rfl | (simp; done) | (simp_all; done)

@[simp] theorem sendSegment_frame (s : State) (k : Nat) (x : Collective) (target st : Nat) (data : Bytes) (pz : Nat → Bool) (zsupp : Bool) :
    (sendSegment s k x target st data pz zsupp).time = s.time ∧
    (sendSegment s k x target st data pz zsupp).cp = s.cp ∧
    (sendSegment s k x target st data pz zsupp).part = s.part ∧
    (sendSegment s k x target st data pz zsupp).err = s.err ∧
    (sendSegment s k x target st data pz zsupp).pwr = s.pwr ∧
    (sendSegment s k x target st data pz zsupp).mgmt = s.mgmt ∧
    (sendSegment s k x target st data pz zsupp).boot = s.boot ∧
    (sendSegment s k x target st data pz zsupp).cells = s.cells ∧
    (sendSegment s k x target st data pz zsupp).mem = s.mem ∧
    (sendSegment s k x target st data pz zsupp).larder = s.larder ∧
    (sendSegment s k x target st data pz zsupp).reg = s.reg ∧
    (sendSegment s k x target st data pz zsupp).trans = s.trans ∧
    (sendSegment s k x target st data pz zsupp).attic = s.attic ∧
    (sendSegment s k x target st data pz zsupp).link = s.link ∧
    (sendSegment s k x target st data pz zsupp).pending = s.pending := by
  unfold sendSegment
  (try dsimp only)
  (repeat' (split <;> try (rename_i hp; first | (obtain ⟨rfl, rfl⟩ := Prod.ext_iff.mp hp) | (obtain ⟨rfl, hq⟩ := Prod.ext_iff.mp hp; obtain ⟨rfl, rfl⟩ := Prod.ext_iff.mp hq) | (obtain ⟨rfl, hq⟩ := Prod.ext_iff.mp hp; obtain ⟨rfl, _⟩ := Prod.ext_iff.mp hq) | (obtain ⟨_, hq⟩ := Prod.ext_iff.mp hp; obtain ⟨rfl, _⟩ := Prod.ext_iff.mp hq) | (obtain ⟨rfl, _⟩ := Prod.ext_iff.mp hp) | (obtain ⟨_, rfl⟩ := Prod.ext_iff.mp hp)))) <;> first | rfl | (simp; done) | (simp_all; done)

@[simp] theorem dropColl_frame (s : State) (k : Nat) :
    (dropColl s k).time = s.time ∧ (dropColl s k).cp = s.cp ∧ (dropColl s k).part = s.part ∧
    (dropColl s k).err = s.err ∧ (dropColl s k).pwr = s.pwr ∧ (dropColl s k).mgmt = s.mgmt ∧
    (dropColl s k).boot = s.boot ∧ (dropColl s k).cells = s.cells ∧ (dropColl s k).mem = s.mem ∧
    (dropColl s k).larder = s.larder ∧ (dropColl s k).reg = s.reg ∧ (dropColl s k).trans = s.trans ∧
    (dropColl s k).attic = s.attic ∧ (dropColl s k).link = s.link ∧ (dropColl s k).fresh = s.fresh ∧
    (dropColl s k).out = s.out ∧ (dropColl s k).pending = s.pending := by
  unfold dropColl
  (try dsimp only)
  (repeat' (split <;> try (rename_i hp; first | (obtain ⟨rfl, rfl⟩ := Prod.ext_iff.mp hp) | (obtain ⟨rfl, hq⟩ := Prod.ext_iff.mp hp; obtain ⟨rfl, rfl⟩ := Prod.ext_iff.mp hq) | (obtain ⟨rfl, hq⟩ := Prod.ext_iff.mp hp; obtain ⟨rfl, _⟩ := Prod.ext_iff.mp hq) | (obtain ⟨_, hq⟩ := Prod.ext_iff.mp hp; obtain ⟨rfl, _⟩ := Prod.ext_iff.mp hq) | (obtain ⟨rfl, _⟩ := Prod.ext_iff.mp hp) | (obtain ⟨_, rfl⟩ := Prod.ext_iff.mp hp)))) <;> first | rfl | (simp; done) | (simp_all; done)

@[simp] theorem endColl_frame (s : State) (k code : Nat) :
    (endColl s k code).time = s.time ∧ (endColl s k code).cp = s.cp ∧ (endColl s k code).part = s.part ∧
    (endColl s k code).err = s.err ∧ (endColl s k code).pwr = s.pwr ∧ (endColl s k code).mgmt = s.mgmt ∧
    (endColl s k code).boot = s.boot ∧ (endColl s k code).cells = s.cells ∧ (endColl s k code).mem = s.mem ∧
    (endColl s k code).reg = s.reg ∧ (endColl s k code).trans = s.trans ∧ (endColl s k code).attic = s.attic ∧
    (endColl s k code).link = s.link ∧ (endColl s k code).out = s.out ∧ (endColl s k code).pending = s.pending := by
  unfold endColl
  (try dsimp only)
  (repeat' (split <;> try (rename_i hp; first | (obtain ⟨rfl, rfl⟩ := Prod.ext_iff.mp hp) | (obtain ⟨rfl, hq⟩ := Prod.ext_iff.mp hp; obtain ⟨rfl, rfl⟩ := Prod.ext_iff.mp hq) | (obtain ⟨rfl, hq⟩ := Prod.ext_iff.mp hp; obtain ⟨rfl, _⟩ := Prod.ext_iff.mp hq) | (obtain ⟨_, hq⟩ := Prod.ext_iff.mp hp; obtain ⟨rfl, _⟩ := Prod.ext_iff.mp hq) | (obtain ⟨rfl, _⟩ := Prod.ext_iff.mp hp) | (obtain ⟨_, rfl⟩ := Prod.ext_iff.mp hp)))) <;> first | rfl | (simp; done) | (simp_all; done)

@[simp] theorem settleColl_frame (s : State) (k : Nat) :
    (settleColl s k).time = s.time ∧ (settleColl s k).cp = s.cp ∧ (settleColl s k).part = s.part ∧
    (settleColl s k).err = s.err ∧ (settleColl s k).pwr = s.pwr ∧ (settleColl s k).mgmt = s.mgmt ∧
    (settleColl s k).boot = s.boot ∧ (settleColl s k).cells = s.cells ∧ (settleColl s k).mem = s.mem ∧
    (settleColl s k).reg = s.reg ∧ (settleColl s k).trans = s.trans ∧ (settleColl s k).attic = s.attic ∧
    (settleColl s k).link = s.link ∧ (settleColl s k).out = s.out ∧ (settleColl s k).pending = s.pending := by
  unfold settleColl
  (try dsimp only)
  (repeat' (split <;> try (rename_i hp; first | (obtain ⟨rfl, rfl⟩ := Prod.ext_iff.mp hp) | (obtain ⟨rfl, hq⟩ := Prod.ext_iff.mp hp; obtain ⟨rfl, rfl⟩ := Prod.ext_iff.mp hq) | (obtain ⟨rfl, hq⟩ := Prod.ext_iff.mp hp; obtain ⟨rfl, _⟩ := Prod.ext_iff.mp hq) | (obtain ⟨_, hq⟩ := Prod.ext_iff.mp hp; obtain ⟨rfl, _⟩ := Prod.ext_iff.mp hq) | (obtain ⟨rfl, _⟩ := Prod.ext_iff.mp hp) | (obtain ⟨_, rfl⟩ := Prod.ext_iff.mp hp)))) <;> first | rfl | (simp; done) | (simp_all; done)

@[simp] theorem segmentArrives_frame (s : State) (k : Nat) (rank st : Nat) (data : Bytes) (bad : Nat → Bool) :
    (segmentArrives s k rank st data bad).time = s.time ∧ (segmentArrives s k rank st data bad).cp = s.cp ∧
    (segmentArrives s k rank st data bad).part = s.part ∧ (segmentArrives s k rank st data bad).err = s.err ∧
    (segmentArrives s k rank st data bad).pwr = s.pwr ∧ (segmentArrives s k rank st data bad).mgmt = s.mgmt ∧
    (segmentArrives s k rank st data bad).boot = s.boot ∧ (segmentArrives s k rank st data bad).reg = s.reg ∧
    (segmentArrives s k rank st data bad).trans = s.trans ∧ (segmentArrives s k rank st data bad).attic = s.attic ∧
    (segmentArrives s k rank st data bad).link = s.link ∧
    (segmentArrives s k rank st data bad).pending = s.pending := by
  unfold segmentArrives
  (try dsimp only)
  (repeat' (split <;> try (rename_i hp; first | (obtain ⟨rfl, rfl⟩ := Prod.ext_iff.mp hp) | (obtain ⟨rfl, hq⟩ := Prod.ext_iff.mp hp; obtain ⟨rfl, rfl⟩ := Prod.ext_iff.mp hq) | (obtain ⟨rfl, hq⟩ := Prod.ext_iff.mp hp; obtain ⟨rfl, _⟩ := Prod.ext_iff.mp hq) | (obtain ⟨_, hq⟩ := Prod.ext_iff.mp hp; obtain ⟨rfl, _⟩ := Prod.ext_iff.mp hq) | (obtain ⟨rfl, _⟩ := Prod.ext_iff.mp hp) | (obtain ⟨_, rfl⟩ := Prod.ext_iff.mp hp)))) <;> first | rfl | (simp; done) | (simp_all; done)

@[simp] theorem memberPeers_frame (s : State) (part : Nat) (nodes : List Nat) :
    (memberPeers s part nodes).1.time = s.time ∧ (memberPeers s part nodes).1.cp = s.cp ∧
    (memberPeers s part nodes).1.part = s.part ∧ (memberPeers s part nodes).1.err = s.err ∧
    (memberPeers s part nodes).1.pwr = s.pwr ∧ (memberPeers s part nodes).1.mgmt = s.mgmt ∧
    (memberPeers s part nodes).1.boot = s.boot ∧ (memberPeers s part nodes).1.cells = s.cells ∧
    (memberPeers s part nodes).1.mem = s.mem ∧ (memberPeers s part nodes).1.larder = s.larder ∧
    (memberPeers s part nodes).1.reg = s.reg ∧ (memberPeers s part nodes).1.trans = s.trans ∧
    (memberPeers s part nodes).1.attic = s.attic ∧ (memberPeers s part nodes).1.link = s.link ∧
    (memberPeers s part nodes).1.out = s.out ∧ (memberPeers s part nodes).1.pending = s.pending := by
  unfold memberPeers
  simp

@[simp] theorem sendFirst_frame (s : State) (c : Nat) (j : MoverJob) (k : Nat) (x : Collective) :
    (sendFirst s c j k x).time = s.time ∧ (sendFirst s c j k x).cp = s.cp ∧ (sendFirst s c j k x).part = s.part ∧
    (sendFirst s c j k x).err = s.err ∧ (sendFirst s c j k x).pwr = s.pwr ∧ (sendFirst s c j k x).mgmt = s.mgmt ∧
    (sendFirst s c j k x).boot = s.boot ∧ (sendFirst s c j k x).reg = s.reg ∧ (sendFirst s c j k x).trans = s.trans ∧
    (sendFirst s c j k x).attic = s.attic ∧ (sendFirst s c j k x).link = s.link ∧
    (sendFirst s c j k x).pending = s.pending := by
  unfold sendFirst
  simp

@[simp] theorem postReady_frame (s : State) (c : Nat) (j : MoverJob) (b : Bytes) (allreduce : Bool) (nodes : List Nat) (rank total : Nat) :
    (postReady s c j b allreduce nodes rank total).time = s.time ∧
    (postReady s c j b allreduce nodes rank total).part = s.part ∧
    (postReady s c j b allreduce nodes rank total).pwr = s.pwr ∧
    (postReady s c j b allreduce nodes rank total).boot = s.boot ∧
    (postReady s c j b allreduce nodes rank total).reg = s.reg ∧
    (postReady s c j b allreduce nodes rank total).link = s.link ∧
    (postReady s c j b allreduce nodes rank total).pending = s.pending := by
  unfold postReady
  simp

@[simp] theorem postGroup_frame (s : State) (c : Nat) (j : MoverJob) (b : Bytes) (allreduce : Bool) (nodes : List Nat) (rank : Nat) :
    (postGroup s c j b allreduce nodes rank).time = s.time ∧ (postGroup s c j b allreduce nodes rank).part = s.part ∧
    (postGroup s c j b allreduce nodes rank).pwr = s.pwr ∧ (postGroup s c j b allreduce nodes rank).boot = s.boot ∧
    (postGroup s c j b allreduce nodes rank).reg = s.reg ∧ (postGroup s c j b allreduce nodes rank).link = s.link ∧
    (postGroup s c j b allreduce nodes rank).pending = s.pending := by
  unfold postGroup
  (try dsimp only)
  (repeat' (split <;> try (rename_i hp; first | (obtain ⟨rfl, rfl⟩ := Prod.ext_iff.mp hp) | (obtain ⟨rfl, hq⟩ := Prod.ext_iff.mp hp; obtain ⟨rfl, rfl⟩ := Prod.ext_iff.mp hq) | (obtain ⟨rfl, hq⟩ := Prod.ext_iff.mp hp; obtain ⟨rfl, _⟩ := Prod.ext_iff.mp hq) | (obtain ⟨_, hq⟩ := Prod.ext_iff.mp hp; obtain ⟨rfl, _⟩ := Prod.ext_iff.mp hq) | (obtain ⟨rfl, _⟩ := Prod.ext_iff.mp hp) | (obtain ⟨_, rfl⟩ := Prod.ext_iff.mp hp)))) <;> first | rfl | (simp; done) | (simp_all; done)

@[simp] theorem postColl_frame (s : State) (c : Nat) (j : MoverJob) (b : Bytes) (allreduce : Bool) :
    (postColl s c j b allreduce).time = s.time ∧ (postColl s c j b allreduce).part = s.part ∧
    (postColl s c j b allreduce).pwr = s.pwr ∧ (postColl s c j b allreduce).boot = s.boot ∧
    (postColl s c j b allreduce).reg = s.reg ∧ (postColl s c j b allreduce).link = s.link ∧
    (postColl s c j b allreduce).pending = s.pending := by
  unfold postColl
  (try dsimp only)
  (repeat' (split <;> try (rename_i hp; first | (obtain ⟨rfl, rfl⟩ := Prod.ext_iff.mp hp) | (obtain ⟨rfl, hq⟩ := Prod.ext_iff.mp hp; obtain ⟨rfl, rfl⟩ := Prod.ext_iff.mp hq) | (obtain ⟨rfl, hq⟩ := Prod.ext_iff.mp hp; obtain ⟨rfl, _⟩ := Prod.ext_iff.mp hq) | (obtain ⟨_, hq⟩ := Prod.ext_iff.mp hp; obtain ⟨rfl, _⟩ := Prod.ext_iff.mp hq) | (obtain ⟨rfl, _⟩ := Prod.ext_iff.mp hp) | (obtain ⟨_, rfl⟩ := Prod.ext_iff.mp hp)))) <;> first | rfl | (simp; done) | (simp_all; done)

end Sys2Proof.Machine
end

