-- ==== Sys2Proof/Laws/FrameResets.lean ====
section
/-! SUPPORT. What each operation of Machine/Resets.lean leaves as it was, by component of the state. -/
set_option maxRecDepth 4000
set_option exponentiation.threshold 2000
namespace Sys2Proof.Machine

@[simp] theorem dropTxns_frame (s : State) (p : Txn → Bool) :
    (dropTxns s p).time = s.time ∧ (dropTxns s p).cp = s.cp ∧ (dropTxns s p).part = s.part ∧
    (dropTxns s p).err = s.err ∧ (dropTxns s p).pwr = s.pwr ∧ (dropTxns s p).mgmt = s.mgmt ∧
    (dropTxns s p).boot = s.boot ∧ (dropTxns s p).cells = s.cells ∧ (dropTxns s p).larder = s.larder ∧
    (dropTxns s p).reg = s.reg ∧ (dropTxns s p).trans = s.trans ∧ (dropTxns s p).attic = s.attic ∧
    (dropTxns s p).link = s.link ∧ (dropTxns s p).chord = s.chord ∧ (dropTxns s p).fresh = s.fresh ∧
    (dropTxns s p).out = s.out ∧ (dropTxns s p).pending = s.pending := by
  unfold dropTxns
  simp

@[simp] theorem sendChunks_frame (s : State) (i k chunks : Nat) :
    (sendChunks s i k chunks).time = s.time ∧ (sendChunks s i k chunks).cp = s.cp ∧
    (sendChunks s i k chunks).err = s.err ∧ (sendChunks s i k chunks).pwr = s.pwr ∧
    (sendChunks s i k chunks).mgmt = s.mgmt ∧ (sendChunks s i k chunks).boot = s.boot ∧
    (sendChunks s i k chunks).cells = s.cells ∧ (sendChunks s i k chunks).mem = s.mem ∧
    (sendChunks s i k chunks).larder = s.larder ∧ (sendChunks s i k chunks).reg = s.reg ∧
    (sendChunks s i k chunks).trans = s.trans ∧ (sendChunks s i k chunks).attic = s.attic ∧
    (sendChunks s i k chunks).link = s.link ∧ (sendChunks s i k chunks).chord = s.chord ∧
    (sendChunks s i k chunks).fresh = s.fresh ∧ (sendChunks s i k chunks).pending = s.pending := by
  unfold sendChunks
  simp

@[simp] theorem reloadImages_frame (s : State) (k : Nat) :
    (reloadImages s k).time = s.time ∧ (reloadImages s k).cp = s.cp ∧ (reloadImages s k).err = s.err ∧
    (reloadImages s k).pwr = s.pwr ∧ (reloadImages s k).mgmt = s.mgmt ∧ (reloadImages s k).boot = s.boot ∧
    (reloadImages s k).cells = s.cells ∧ (reloadImages s k).mem = s.mem ∧ (reloadImages s k).larder = s.larder ∧
    (reloadImages s k).reg = s.reg ∧ (reloadImages s k).trans = s.trans ∧ (reloadImages s k).attic = s.attic ∧
    (reloadImages s k).link = s.link ∧ (reloadImages s k).chord = s.chord ∧ (reloadImages s k).fresh = s.fresh ∧
    (reloadImages s k).pending = s.pending := by
  unfold reloadImages
  simp

@[simp] theorem dropImages_frame (s : State) (k : Nat) :
    (dropImages s k).time = s.time ∧ (dropImages s k).cp = s.cp ∧ (dropImages s k).err = s.err ∧
    (dropImages s k).pwr = s.pwr ∧ (dropImages s k).mgmt = s.mgmt ∧ (dropImages s k).boot = s.boot ∧
    (dropImages s k).cells = s.cells ∧ (dropImages s k).mem = s.mem ∧ (dropImages s k).larder = s.larder ∧
    (dropImages s k).reg = s.reg ∧ (dropImages s k).trans = s.trans ∧ (dropImages s k).attic = s.attic ∧
    (dropImages s k).link = s.link ∧ (dropImages s k).chord = s.chord ∧ (dropImages s k).fresh = s.fresh ∧
    (dropImages s k).out = s.out ∧ (dropImages s k).pending = s.pending := by
  unfold dropImages
  simp

@[simp] theorem settleImage_frame (s : State) (i : Nat) :
    (settleImage s i).time = s.time ∧ (settleImage s i).err = s.err ∧ (settleImage s i).pwr = s.pwr ∧
    (settleImage s i).boot = s.boot ∧ (settleImage s i).cells = s.cells ∧ (settleImage s i).mem = s.mem ∧
    (settleImage s i).larder = s.larder ∧ (settleImage s i).reg = s.reg ∧ (settleImage s i).trans = s.trans ∧
    (settleImage s i).attic = s.attic ∧ (settleImage s i).link = s.link ∧ (settleImage s i).chord = s.chord ∧
    (settleImage s i).fresh = s.fresh ∧ (settleImage s i).pending = s.pending := by
  unfold settleImage
  (try dsimp only)
  (repeat' (split <;> try (rename_i hp; first | (obtain ⟨rfl, rfl⟩ := Prod.ext_iff.mp hp) | (obtain ⟨rfl, hq⟩ := Prod.ext_iff.mp hp; obtain ⟨rfl, rfl⟩ := Prod.ext_iff.mp hq) | (obtain ⟨rfl, hq⟩ := Prod.ext_iff.mp hp; obtain ⟨rfl, _⟩ := Prod.ext_iff.mp hq) | (obtain ⟨_, hq⟩ := Prod.ext_iff.mp hp; obtain ⟨rfl, _⟩ := Prod.ext_iff.mp hq) | (obtain ⟨rfl, _⟩ := Prod.ext_iff.mp hp) | (obtain ⟨_, rfl⟩ := Prod.ext_iff.mp hp)))) <;> first | rfl | (simp; done) | (simp_all; done)

@[simp] theorem settleImages_frame (s : State) :
    (settleImages s).time = s.time ∧ (settleImages s).err = s.err ∧ (settleImages s).pwr = s.pwr ∧
    (settleImages s).boot = s.boot ∧ (settleImages s).cells = s.cells ∧ (settleImages s).mem = s.mem ∧
    (settleImages s).larder = s.larder ∧ (settleImages s).reg = s.reg ∧ (settleImages s).trans = s.trans ∧
    (settleImages s).attic = s.attic ∧ (settleImages s).link = s.link ∧ (settleImages s).chord = s.chord ∧
    (settleImages s).fresh = s.fresh ∧ (settleImages s).pending = s.pending := by
  unfold settleImages
  simp

@[simp] theorem failSteps_frame (s : State) (slots : List Nat) (rec : Option ErrRecord) :
    (failSteps s slots rec).time = s.time ∧ (failSteps s slots rec).part = s.part ∧
    (failSteps s slots rec).pwr = s.pwr ∧ (failSteps s slots rec).boot = s.boot ∧
    (failSteps s slots rec).mem = s.mem ∧ (failSteps s slots rec).reg = s.reg ∧
    (failSteps s slots rec).link = s.link ∧ (failSteps s slots rec).fresh = s.fresh ∧
    (failSteps s slots rec).pending = s.pending := by
  unfold failSteps
  (try dsimp only)
  (repeat' (split <;> try (rename_i hp; first | (obtain ⟨rfl, rfl⟩ := Prod.ext_iff.mp hp) | (obtain ⟨rfl, hq⟩ := Prod.ext_iff.mp hp; obtain ⟨rfl, rfl⟩ := Prod.ext_iff.mp hq) | (obtain ⟨rfl, hq⟩ := Prod.ext_iff.mp hp; obtain ⟨rfl, _⟩ := Prod.ext_iff.mp hq) | (obtain ⟨_, hq⟩ := Prod.ext_iff.mp hp; obtain ⟨rfl, _⟩ := Prod.ext_iff.mp hq) | (obtain ⟨rfl, _⟩ := Prod.ext_iff.mp hp) | (obtain ⟨_, rfl⟩ := Prod.ext_iff.mp hp)))) <;> (try simp) <;> (repeat' apply And.intro) <;> (first | apply forEach_time | apply foldl_time | apply forEachFst_time | apply foldlFst_time | apply forEach_part | apply foldl_part | apply forEachFst_part | apply foldlFst_part | apply forEach_pwr | apply foldl_pwr | apply forEachFst_pwr | apply foldlFst_pwr | apply forEach_boot | apply foldl_boot | apply forEachFst_boot | apply foldlFst_boot | apply forEach_mem | apply foldl_mem | apply forEachFst_mem | apply foldlFst_mem | apply forEach_reg | apply foldl_reg | apply forEachFst_reg | apply foldlFst_reg | apply forEach_link | apply foldl_link | apply forEachFst_link | apply foldlFst_link | apply forEach_fresh | apply foldl_fresh | apply forEachFst_fresh | apply foldlFst_fresh | apply forEach_pending | apply foldl_pending | apply forEachFst_pending | apply foldlFst_pending) <;> intro _ _ <;> (try dsimp only) <;> (repeat' (split <;> try (rename_i hp; first | (obtain ⟨rfl, rfl⟩ := Prod.ext_iff.mp hp) | (obtain ⟨rfl, hq⟩ := Prod.ext_iff.mp hp; obtain ⟨rfl, rfl⟩ := Prod.ext_iff.mp hq) | (obtain ⟨rfl, hq⟩ := Prod.ext_iff.mp hp; obtain ⟨rfl, _⟩ := Prod.ext_iff.mp hq) | (obtain ⟨_, hq⟩ := Prod.ext_iff.mp hp; obtain ⟨rfl, _⟩ := Prod.ext_iff.mp hq) | (obtain ⟨rfl, _⟩ := Prod.ext_iff.mp hp) | (obtain ⟨_, rfl⟩ := Prod.ext_iff.mp hp)))) <;> first | rfl | (simp; done) | (simp_all; done)

@[simp] theorem clearCore_frame (s : State) (k : Nat) :
    (clearCore s k).time = s.time ∧ (clearCore s k).cp = s.cp ∧ (clearCore s k).err = s.err ∧
    (clearCore s k).pwr = s.pwr ∧ (clearCore s k).mgmt = s.mgmt ∧ (clearCore s k).boot = s.boot ∧
    (clearCore s k).reg = s.reg ∧ (clearCore s k).trans = s.trans ∧ (clearCore s k).attic = s.attic ∧
    (clearCore s k).link = s.link ∧ (clearCore s k).chord = s.chord ∧ (clearCore s k).fresh = s.fresh ∧
    (clearCore s k).pending = s.pending := by
  unfold clearCore
  (try dsimp only)
  (repeat' (split <;> try (rename_i hp; first | (obtain ⟨rfl, rfl⟩ := Prod.ext_iff.mp hp) | (obtain ⟨rfl, hq⟩ := Prod.ext_iff.mp hp; obtain ⟨rfl, rfl⟩ := Prod.ext_iff.mp hq) | (obtain ⟨rfl, hq⟩ := Prod.ext_iff.mp hp; obtain ⟨rfl, _⟩ := Prod.ext_iff.mp hq) | (obtain ⟨_, hq⟩ := Prod.ext_iff.mp hp; obtain ⟨rfl, _⟩ := Prod.ext_iff.mp hq) | (obtain ⟨rfl, _⟩ := Prod.ext_iff.mp hp) | (obtain ⟨_, rfl⟩ := Prod.ext_iff.mp hp)))) <;> first | rfl | (simp; done) | (simp_all; done)

@[simp] theorem coreReset_frame (s : State) (k : Nat) (rec : Option ErrRecord) :
    (coreReset s k rec).time = s.time ∧ (coreReset s k rec).pwr = s.pwr ∧ (coreReset s k rec).boot = s.boot ∧
    (coreReset s k rec).reg = s.reg ∧ (coreReset s k rec).link = s.link ∧ (coreReset s k rec).fresh = s.fresh ∧
    (coreReset s k rec).pending = s.pending := by
  unfold coreReset
  (try dsimp only)
  (repeat' (split <;> try (rename_i hp; first | (obtain ⟨rfl, rfl⟩ := Prod.ext_iff.mp hp) | (obtain ⟨rfl, hq⟩ := Prod.ext_iff.mp hp; obtain ⟨rfl, rfl⟩ := Prod.ext_iff.mp hq) | (obtain ⟨rfl, hq⟩ := Prod.ext_iff.mp hp; obtain ⟨rfl, _⟩ := Prod.ext_iff.mp hq) | (obtain ⟨_, hq⟩ := Prod.ext_iff.mp hp; obtain ⟨rfl, _⟩ := Prod.ext_iff.mp hq) | (obtain ⟨rfl, _⟩ := Prod.ext_iff.mp hp) | (obtain ⟨_, rfl⟩ := Prod.ext_iff.mp hp)))) <;> first | rfl | (simp; done) | (simp_all; done)

@[simp] theorem resetBanks_frame (s : State) (c : Nat) :
    (resetBanks s c).time = s.time ∧ (resetBanks s c).cp = s.cp ∧ (resetBanks s c).part = s.part ∧
    (resetBanks s c).err = s.err ∧ (resetBanks s c).pwr = s.pwr ∧ (resetBanks s c).mgmt = s.mgmt ∧
    (resetBanks s c).boot = s.boot ∧ (resetBanks s c).larder = s.larder ∧ (resetBanks s c).reg = s.reg ∧
    (resetBanks s c).trans = s.trans ∧ (resetBanks s c).attic = s.attic ∧ (resetBanks s c).link = s.link ∧
    (resetBanks s c).chord = s.chord ∧ (resetBanks s c).fresh = s.fresh ∧ (resetBanks s c).out = s.out ∧
    (resetBanks s c).pending = s.pending := by
  unfold resetBanks
  simp

@[simp] theorem cellarReset_frame (s : State) (c : Nat) (rec : Option ErrRecord) :
    (cellarReset s c rec).time = s.time ∧ (cellarReset s c rec).pwr = s.pwr ∧ (cellarReset s c rec).boot = s.boot ∧
    (cellarReset s c rec).reg = s.reg ∧ (cellarReset s c rec).link = s.link ∧ (cellarReset s c rec).fresh = s.fresh ∧
    (cellarReset s c rec).pending = s.pending := by
  unfold cellarReset
  (try dsimp only)
  (repeat' (split <;> try (rename_i hp; first | (obtain ⟨rfl, rfl⟩ := Prod.ext_iff.mp hp) | (obtain ⟨rfl, hq⟩ := Prod.ext_iff.mp hp; obtain ⟨rfl, rfl⟩ := Prod.ext_iff.mp hq) | (obtain ⟨rfl, hq⟩ := Prod.ext_iff.mp hp; obtain ⟨rfl, _⟩ := Prod.ext_iff.mp hq) | (obtain ⟨_, hq⟩ := Prod.ext_iff.mp hp; obtain ⟨rfl, _⟩ := Prod.ext_iff.mp hq) | (obtain ⟨rfl, _⟩ := Prod.ext_iff.mp hp) | (obtain ⟨_, rfl⟩ := Prod.ext_iff.mp hp)))) <;> first | rfl | (simp; done) | (simp_all; done)

@[simp] theorem raiseAbsent_frame (s : State) (c cls : Nat) (det : Nat) :
    (raiseAbsent s c cls det).time = s.time ∧ (raiseAbsent s c cls det).part = s.part ∧
    (raiseAbsent s c cls det).err = s.err ∧ (raiseAbsent s c cls det).pwr = s.pwr ∧
    (raiseAbsent s c cls det).boot = s.boot ∧ (raiseAbsent s c cls det).cells = s.cells ∧
    (raiseAbsent s c cls det).mem = s.mem ∧ (raiseAbsent s c cls det).larder = s.larder ∧
    (raiseAbsent s c cls det).reg = s.reg ∧ (raiseAbsent s c cls det).trans = s.trans ∧
    (raiseAbsent s c cls det).attic = s.attic ∧ (raiseAbsent s c cls det).link = s.link ∧
    (raiseAbsent s c cls det).chord = s.chord ∧ (raiseAbsent s c cls det).fresh = s.fresh ∧
    (raiseAbsent s c cls det).pending = s.pending := by
  unfold raiseAbsent
  simp

@[simp] theorem coreAbsent_frame (s : State) (k cause : Nat) :
    (coreAbsent s k cause).time = s.time ∧ (coreAbsent s k cause).pwr = s.pwr ∧ (coreAbsent s k cause).reg = s.reg ∧
    (coreAbsent s k cause).link = s.link ∧ (coreAbsent s k cause).fresh = s.fresh ∧
    (coreAbsent s k cause).pending = s.pending := by
  unfold coreAbsent
  simp

@[simp] theorem cellarAbsent_frame (s : State) (c cause : Nat) :
    (cellarAbsent s c cause).time = s.time ∧ (cellarAbsent s c cause).pwr = s.pwr ∧
    (cellarAbsent s c cause).mem = s.mem ∧ (cellarAbsent s c cause).reg = s.reg ∧
    (cellarAbsent s c cause).trans = s.trans ∧ (cellarAbsent s c cause).attic = s.attic ∧
    (cellarAbsent s c cause).link = s.link ∧ (cellarAbsent s c cause).chord = s.chord ∧
    (cellarAbsent s c cause).fresh = s.fresh ∧ (cellarAbsent s c cause).pending = s.pending := by
  unfold cellarAbsent
  simp

@[simp] theorem coreRetested_frame (s : State) (k : Nat) (ok : Bool) :
    (coreRetested s k ok).time = s.time ∧ (coreRetested s k ok).pwr = s.pwr ∧ (coreRetested s k ok).reg = s.reg ∧
    (coreRetested s k ok).link = s.link ∧ (coreRetested s k ok).fresh = s.fresh ∧
    (coreRetested s k ok).pending = s.pending := by
  unfold coreRetested
  simp

@[simp] theorem cellarRetested_frame (s : State) (c : Nat) (ok : Bool) :
    (cellarRetested s c ok).time = s.time ∧ (cellarRetested s c ok).pwr = s.pwr ∧
    (cellarRetested s c ok).mem = s.mem ∧ (cellarRetested s c ok).reg = s.reg ∧
    (cellarRetested s c ok).trans = s.trans ∧ (cellarRetested s c ok).attic = s.attic ∧
    (cellarRetested s c ok).link = s.link ∧ (cellarRetested s c ok).chord = s.chord ∧
    (cellarRetested s c ok).fresh = s.fresh ∧ (cellarRetested s c ok).pending = s.pending := by
  unfold cellarRetested
  simp

end Sys2Proof.Machine
end

