-- ==== Sys2Proof/Laws/FrameTransport.lean ====
section
/-! SUPPORT. What each operation of Machine/Transport.lean leaves as it was, by component of the state. -/
set_option maxRecDepth 4000
set_option exponentiation.threshold 2000
namespace Sys2Proof.Machine

@[simp] theorem countAuthFail_frame (s : State) (e : Nat) :
    (countAuthFail s e).time = s.time ∧ (countAuthFail s e).cp = s.cp ∧ (countAuthFail s e).part = s.part ∧
    (countAuthFail s e).err = s.err ∧ (countAuthFail s e).pwr = s.pwr ∧ (countAuthFail s e).mgmt = s.mgmt ∧
    (countAuthFail s e).boot = s.boot ∧ (countAuthFail s e).cells = s.cells ∧ (countAuthFail s e).mem = s.mem ∧
    (countAuthFail s e).larder = s.larder ∧ (countAuthFail s e).reg = s.reg ∧ (countAuthFail s e).trans = s.trans ∧
    (countAuthFail s e).attic = s.attic ∧ (countAuthFail s e).link = s.link ∧ (countAuthFail s e).fresh = s.fresh ∧
    (countAuthFail s e).out = s.out ∧ (countAuthFail s e).pending = s.pending := by
  unfold countAuthFail
  simp

@[simp] theorem countBadVersion_frame (s : State) :
    (countBadVersion s).time = s.time ∧ (countBadVersion s).cp = s.cp ∧ (countBadVersion s).part = s.part ∧
    (countBadVersion s).err = s.err ∧ (countBadVersion s).pwr = s.pwr ∧ (countBadVersion s).mgmt = s.mgmt ∧
    (countBadVersion s).boot = s.boot ∧ (countBadVersion s).cells = s.cells ∧ (countBadVersion s).mem = s.mem ∧
    (countBadVersion s).larder = s.larder ∧ (countBadVersion s).reg = s.reg ∧ (countBadVersion s).trans = s.trans ∧
    (countBadVersion s).attic = s.attic ∧ (countBadVersion s).link = s.link ∧ (countBadVersion s).fresh = s.fresh ∧
    (countBadVersion s).out = s.out ∧ (countBadVersion s).pending = s.pending := by
  unfold countBadVersion
  simp

@[simp] theorem countNoTag_frame (s : State) :
    (countNoTag s).time = s.time ∧ (countNoTag s).cp = s.cp ∧ (countNoTag s).part = s.part ∧
    (countNoTag s).err = s.err ∧ (countNoTag s).pwr = s.pwr ∧ (countNoTag s).mgmt = s.mgmt ∧
    (countNoTag s).boot = s.boot ∧ (countNoTag s).cells = s.cells ∧ (countNoTag s).mem = s.mem ∧
    (countNoTag s).larder = s.larder ∧ (countNoTag s).reg = s.reg ∧ (countNoTag s).trans = s.trans ∧
    (countNoTag s).attic = s.attic ∧ (countNoTag s).link = s.link ∧ (countNoTag s).fresh = s.fresh ∧
    (countNoTag s).out = s.out ∧ (countNoTag s).pending = s.pending := by
  unfold countNoTag
  simp

@[simp] theorem refusedRecord_frame (s : State) (e : Nat) (part : Option Nat) (addr : Nat) :
    (refusedRecord s e part addr).time = s.time ∧ (refusedRecord s e part addr).part = s.part ∧
    (refusedRecord s e part addr).pwr = s.pwr ∧ (refusedRecord s e part addr).boot = s.boot ∧
    (refusedRecord s e part addr).cells = s.cells ∧ (refusedRecord s e part addr).mem = s.mem ∧
    (refusedRecord s e part addr).larder = s.larder ∧ (refusedRecord s e part addr).reg = s.reg ∧
    (refusedRecord s e part addr).trans = s.trans ∧ (refusedRecord s e part addr).attic = s.attic ∧
    (refusedRecord s e part addr).link = s.link ∧ (refusedRecord s e part addr).chord = s.chord ∧
    (refusedRecord s e part addr).fresh = s.fresh ∧ (refusedRecord s e part addr).pending = s.pending := by
  unfold refusedRecord
  simp

@[simp] theorem accepted_frame (s : State) (e : Nat) (k : Packet) (access : Bool) :
    (accepted s e k access).1.time = s.time ∧ (accepted s e k access).1.part = s.part ∧
    (accepted s e k access).1.pwr = s.pwr ∧ (accepted s e k access).1.boot = s.boot ∧
    (accepted s e k access).1.cells = s.cells ∧ (accepted s e k access).1.mem = s.mem ∧
    (accepted s e k access).1.larder = s.larder ∧ (accepted s e k access).1.reg = s.reg ∧
    (accepted s e k access).1.trans = s.trans ∧ (accepted s e k access).1.attic = s.attic ∧
    (accepted s e k access).1.link = s.link ∧ (accepted s e k access).1.pending = s.pending := by
  unfold accepted
  (try dsimp only)
  (repeat' (split <;> try (rename_i hp; first | (obtain ⟨rfl, rfl⟩ := Prod.ext_iff.mp hp) | (obtain ⟨rfl, hq⟩ := Prod.ext_iff.mp hp; obtain ⟨rfl, rfl⟩ := Prod.ext_iff.mp hq) | (obtain ⟨rfl, hq⟩ := Prod.ext_iff.mp hp; obtain ⟨rfl, _⟩ := Prod.ext_iff.mp hq) | (obtain ⟨_, hq⟩ := Prod.ext_iff.mp hp; obtain ⟨rfl, _⟩ := Prod.ext_iff.mp hq) | (obtain ⟨rfl, _⟩ := Prod.ext_iff.mp hp) | (obtain ⟨_, rfl⟩ := Prod.ext_iff.mp hp)))) <;> first | rfl | (simp; done) | (simp_all; done)

@[simp] theorem sendAck_frame (s : State) (p : Nat) :
    (sendAck s p).time = s.time ∧ (sendAck s p).cp = s.cp ∧ (sendAck s p).part = s.part ∧ (sendAck s p).err = s.err ∧
    (sendAck s p).pwr = s.pwr ∧ (sendAck s p).mgmt = s.mgmt ∧ (sendAck s p).boot = s.boot ∧
    (sendAck s p).cells = s.cells ∧ (sendAck s p).mem = s.mem ∧ (sendAck s p).larder = s.larder ∧
    (sendAck s p).reg = s.reg ∧ (sendAck s p).trans = s.trans ∧ (sendAck s p).attic = s.attic ∧
    (sendAck s p).link = s.link ∧ (sendAck s p).fresh = s.fresh ∧ (sendAck s p).pending = s.pending := by
  unfold sendAck
  (try dsimp only)
  (repeat' (split <;> try (rename_i hp; first | (obtain ⟨rfl, rfl⟩ := Prod.ext_iff.mp hp) | (obtain ⟨rfl, hq⟩ := Prod.ext_iff.mp hp; obtain ⟨rfl, rfl⟩ := Prod.ext_iff.mp hq) | (obtain ⟨rfl, hq⟩ := Prod.ext_iff.mp hp; obtain ⟨rfl, _⟩ := Prod.ext_iff.mp hq) | (obtain ⟨_, hq⟩ := Prod.ext_iff.mp hp; obtain ⟨rfl, _⟩ := Prod.ext_iff.mp hq) | (obtain ⟨rfl, _⟩ := Prod.ext_iff.mp hp) | (obtain ⟨_, rfl⟩ := Prod.ext_iff.mp hp)))) <;> first | rfl | (simp; done) | (simp_all; done)

@[simp] theorem markReceived_frame (s : State) (p : Nat) (k : Packet) :
    (markReceived s p k).time = s.time ∧ (markReceived s p k).cp = s.cp ∧ (markReceived s p k).part = s.part ∧
    (markReceived s p k).err = s.err ∧ (markReceived s p k).pwr = s.pwr ∧ (markReceived s p k).mgmt = s.mgmt ∧
    (markReceived s p k).boot = s.boot ∧ (markReceived s p k).cells = s.cells ∧ (markReceived s p k).mem = s.mem ∧
    (markReceived s p k).larder = s.larder ∧ (markReceived s p k).reg = s.reg ∧ (markReceived s p k).trans = s.trans ∧
    (markReceived s p k).attic = s.attic ∧ (markReceived s p k).link = s.link ∧ (markReceived s p k).fresh = s.fresh ∧
    (markReceived s p k).pending = s.pending := by
  unfold markReceived
  simp

@[simp] theorem returnCredits_frame (s : State) (e : Nat) (k : Packet) :
    (returnCredits s e k).time = s.time ∧ (returnCredits s e k).cp = s.cp ∧ (returnCredits s e k).part = s.part ∧
    (returnCredits s e k).err = s.err ∧ (returnCredits s e k).pwr = s.pwr ∧ (returnCredits s e k).mgmt = s.mgmt ∧
    (returnCredits s e k).boot = s.boot ∧ (returnCredits s e k).cells = s.cells ∧ (returnCredits s e k).mem = s.mem ∧
    (returnCredits s e k).larder = s.larder ∧ (returnCredits s e k).reg = s.reg ∧
    (returnCredits s e k).trans = s.trans ∧ (returnCredits s e k).attic = s.attic ∧
    (returnCredits s e k).link = s.link ∧ (returnCredits s e k).fresh = s.fresh ∧ (returnCredits s e k).out = s.out ∧
    (returnCredits s e k).pending = s.pending := by
  unfold returnCredits
  simp

@[simp] theorem holdRx_frame (s : State) (e p : Nat) (k : Packet) (txns : List Nat) :
    (holdRx s e p k txns).time = s.time ∧ (holdRx s e p k txns).cp = s.cp ∧ (holdRx s e p k txns).part = s.part ∧
    (holdRx s e p k txns).err = s.err ∧ (holdRx s e p k txns).pwr = s.pwr ∧ (holdRx s e p k txns).mgmt = s.mgmt ∧
    (holdRx s e p k txns).boot = s.boot ∧ (holdRx s e p k txns).cells = s.cells ∧ (holdRx s e p k txns).mem = s.mem ∧
    (holdRx s e p k txns).larder = s.larder ∧ (holdRx s e p k txns).reg = s.reg ∧
    (holdRx s e p k txns).trans = s.trans ∧ (holdRx s e p k txns).attic = s.attic ∧
    (holdRx s e p k txns).link = s.link ∧ (holdRx s e p k txns).fresh = s.fresh ∧ (holdRx s e p k txns).out = s.out ∧
    (holdRx s e p k txns).pending = s.pending := by
  unfold holdRx
  simp

@[simp] theorem leaveRx_frame (s : State) (e p : Nat) (k : Packet) :
    (leaveRx s e p k).time = s.time ∧ (leaveRx s e p k).cp = s.cp ∧ (leaveRx s e p k).part = s.part ∧
    (leaveRx s e p k).err = s.err ∧ (leaveRx s e p k).pwr = s.pwr ∧ (leaveRx s e p k).mgmt = s.mgmt ∧
    (leaveRx s e p k).boot = s.boot ∧ (leaveRx s e p k).cells = s.cells ∧ (leaveRx s e p k).mem = s.mem ∧
    (leaveRx s e p k).larder = s.larder ∧ (leaveRx s e p k).reg = s.reg ∧ (leaveRx s e p k).trans = s.trans ∧
    (leaveRx s e p k).attic = s.attic ∧ (leaveRx s e p k).link = s.link ∧ (leaveRx s e p k).fresh = s.fresh ∧
    (leaveRx s e p k).out = s.out ∧ (leaveRx s e p k).pending = s.pending := by
  unfold leaveRx
  simp

@[simp] theorem placedRx_frame (s : State) (e n : Nat) :
    (placedRx s e n).time = s.time ∧ (placedRx s e n).cp = s.cp ∧ (placedRx s e n).part = s.part ∧
    (placedRx s e n).err = s.err ∧ (placedRx s e n).pwr = s.pwr ∧ (placedRx s e n).mgmt = s.mgmt ∧
    (placedRx s e n).boot = s.boot ∧ (placedRx s e n).cells = s.cells ∧ (placedRx s e n).mem = s.mem ∧
    (placedRx s e n).larder = s.larder ∧ (placedRx s e n).reg = s.reg ∧ (placedRx s e n).trans = s.trans ∧
    (placedRx s e n).attic = s.attic ∧ (placedRx s e n).link = s.link ∧ (placedRx s e n).fresh = s.fresh ∧
    (placedRx s e n).out = s.out ∧ (placedRx s e n).pending = s.pending := by
  unfold placedRx
  simp

@[simp] theorem receiveDuplicate_frame (s : State) (e p : Nat) (k : Packet) :
    (receiveDuplicate s e p k).time = s.time ∧ (receiveDuplicate s e p k).cp = s.cp ∧
    (receiveDuplicate s e p k).part = s.part ∧ (receiveDuplicate s e p k).err = s.err ∧
    (receiveDuplicate s e p k).pwr = s.pwr ∧ (receiveDuplicate s e p k).mgmt = s.mgmt ∧
    (receiveDuplicate s e p k).boot = s.boot ∧ (receiveDuplicate s e p k).cells = s.cells ∧
    (receiveDuplicate s e p k).mem = s.mem ∧ (receiveDuplicate s e p k).larder = s.larder ∧
    (receiveDuplicate s e p k).reg = s.reg ∧ (receiveDuplicate s e p k).trans = s.trans ∧
    (receiveDuplicate s e p k).attic = s.attic ∧ (receiveDuplicate s e p k).link = s.link ∧
    (receiveDuplicate s e p k).fresh = s.fresh ∧ (receiveDuplicate s e p k).pending = s.pending := by
  unfold receiveDuplicate
  simp

@[simp] theorem receiveNew_time (s : State) (e p : Nat) (k : Packet) (body : State → Nat → State × Bool) (h0 : ∀ a0 a1, (body a0 a1).1.time = a0.time) :
    (receiveNew s e p k body).time = s.time := by
  unfold receiveNew
  first
  | (simp [h0]; done)
  | ((try dsimp only)
     (repeat' (split <;> try (rename_i hp; first | (obtain ⟨rfl, rfl⟩ := Prod.ext_iff.mp hp) | (obtain ⟨rfl, hq⟩ := Prod.ext_iff.mp hp; obtain ⟨rfl, rfl⟩ := Prod.ext_iff.mp hq) | (obtain ⟨rfl, hq⟩ := Prod.ext_iff.mp hp; obtain ⟨rfl, _⟩ := Prod.ext_iff.mp hq) | (obtain ⟨_, hq⟩ := Prod.ext_iff.mp hp; obtain ⟨rfl, _⟩ := Prod.ext_iff.mp hq) | (obtain ⟨rfl, _⟩ := Prod.ext_iff.mp hp) | (obtain ⟨_, rfl⟩ := Prod.ext_iff.mp hp)))) <;> first | rfl | (simp [h0]; done) | (simp_all; done))

@[simp] theorem receiveNew_cp (s : State) (e p : Nat) (k : Packet) (body : State → Nat → State × Bool) (h0 : ∀ a0 a1, (body a0 a1).1.cp = a0.cp) :
    (receiveNew s e p k body).cp = s.cp := by
  unfold receiveNew
  first
  | (simp [h0]; done)
  | ((try dsimp only)
     (repeat' (split <;> try (rename_i hp; first | (obtain ⟨rfl, rfl⟩ := Prod.ext_iff.mp hp) | (obtain ⟨rfl, hq⟩ := Prod.ext_iff.mp hp; obtain ⟨rfl, rfl⟩ := Prod.ext_iff.mp hq) | (obtain ⟨rfl, hq⟩ := Prod.ext_iff.mp hp; obtain ⟨rfl, _⟩ := Prod.ext_iff.mp hq) | (obtain ⟨_, hq⟩ := Prod.ext_iff.mp hp; obtain ⟨rfl, _⟩ := Prod.ext_iff.mp hq) | (obtain ⟨rfl, _⟩ := Prod.ext_iff.mp hp) | (obtain ⟨_, rfl⟩ := Prod.ext_iff.mp hp)))) <;> first | rfl | (simp [h0]; done) | (simp_all; done))

@[simp] theorem receiveNew_part (s : State) (e p : Nat) (k : Packet) (body : State → Nat → State × Bool) (h0 : ∀ a0 a1, (body a0 a1).1.part = a0.part) :
    (receiveNew s e p k body).part = s.part := by
  unfold receiveNew
  first
  | (simp [h0]; done)
  | ((try dsimp only)
     (repeat' (split <;> try (rename_i hp; first | (obtain ⟨rfl, rfl⟩ := Prod.ext_iff.mp hp) | (obtain ⟨rfl, hq⟩ := Prod.ext_iff.mp hp; obtain ⟨rfl, rfl⟩ := Prod.ext_iff.mp hq) | (obtain ⟨rfl, hq⟩ := Prod.ext_iff.mp hp; obtain ⟨rfl, _⟩ := Prod.ext_iff.mp hq) | (obtain ⟨_, hq⟩ := Prod.ext_iff.mp hp; obtain ⟨rfl, _⟩ := Prod.ext_iff.mp hq) | (obtain ⟨rfl, _⟩ := Prod.ext_iff.mp hp) | (obtain ⟨_, rfl⟩ := Prod.ext_iff.mp hp)))) <;> first | rfl | (simp [h0]; done) | (simp_all; done))

@[simp] theorem receiveNew_err (s : State) (e p : Nat) (k : Packet) (body : State → Nat → State × Bool) (h0 : ∀ a0 a1, (body a0 a1).1.err = a0.err) :
    (receiveNew s e p k body).err = s.err := by
  unfold receiveNew
  first
  | (simp [h0]; done)
  | ((try dsimp only)
     (repeat' (split <;> try (rename_i hp; first | (obtain ⟨rfl, rfl⟩ := Prod.ext_iff.mp hp) | (obtain ⟨rfl, hq⟩ := Prod.ext_iff.mp hp; obtain ⟨rfl, rfl⟩ := Prod.ext_iff.mp hq) | (obtain ⟨rfl, hq⟩ := Prod.ext_iff.mp hp; obtain ⟨rfl, _⟩ := Prod.ext_iff.mp hq) | (obtain ⟨_, hq⟩ := Prod.ext_iff.mp hp; obtain ⟨rfl, _⟩ := Prod.ext_iff.mp hq) | (obtain ⟨rfl, _⟩ := Prod.ext_iff.mp hp) | (obtain ⟨_, rfl⟩ := Prod.ext_iff.mp hp)))) <;> first | rfl | (simp [h0]; done) | (simp_all; done))

@[simp] theorem receiveNew_pwr (s : State) (e p : Nat) (k : Packet) (body : State → Nat → State × Bool) (h0 : ∀ a0 a1, (body a0 a1).1.pwr = a0.pwr) :
    (receiveNew s e p k body).pwr = s.pwr := by
  unfold receiveNew
  first
  | (simp [h0]; done)
  | ((try dsimp only)
     (repeat' (split <;> try (rename_i hp; first | (obtain ⟨rfl, rfl⟩ := Prod.ext_iff.mp hp) | (obtain ⟨rfl, hq⟩ := Prod.ext_iff.mp hp; obtain ⟨rfl, rfl⟩ := Prod.ext_iff.mp hq) | (obtain ⟨rfl, hq⟩ := Prod.ext_iff.mp hp; obtain ⟨rfl, _⟩ := Prod.ext_iff.mp hq) | (obtain ⟨_, hq⟩ := Prod.ext_iff.mp hp; obtain ⟨rfl, _⟩ := Prod.ext_iff.mp hq) | (obtain ⟨rfl, _⟩ := Prod.ext_iff.mp hp) | (obtain ⟨_, rfl⟩ := Prod.ext_iff.mp hp)))) <;> first | rfl | (simp [h0]; done) | (simp_all; done))

@[simp] theorem receiveNew_mgmt (s : State) (e p : Nat) (k : Packet) (body : State → Nat → State × Bool) (h0 : ∀ a0 a1, (body a0 a1).1.mgmt = a0.mgmt) :
    (receiveNew s e p k body).mgmt = s.mgmt := by
  unfold receiveNew
  first
  | (simp [h0]; done)
  | ((try dsimp only)
     (repeat' (split <;> try (rename_i hp; first | (obtain ⟨rfl, rfl⟩ := Prod.ext_iff.mp hp) | (obtain ⟨rfl, hq⟩ := Prod.ext_iff.mp hp; obtain ⟨rfl, rfl⟩ := Prod.ext_iff.mp hq) | (obtain ⟨rfl, hq⟩ := Prod.ext_iff.mp hp; obtain ⟨rfl, _⟩ := Prod.ext_iff.mp hq) | (obtain ⟨_, hq⟩ := Prod.ext_iff.mp hp; obtain ⟨rfl, _⟩ := Prod.ext_iff.mp hq) | (obtain ⟨rfl, _⟩ := Prod.ext_iff.mp hp) | (obtain ⟨_, rfl⟩ := Prod.ext_iff.mp hp)))) <;> first | rfl | (simp [h0]; done) | (simp_all; done))

@[simp] theorem receiveNew_boot (s : State) (e p : Nat) (k : Packet) (body : State → Nat → State × Bool) (h0 : ∀ a0 a1, (body a0 a1).1.boot = a0.boot) :
    (receiveNew s e p k body).boot = s.boot := by
  unfold receiveNew
  first
  | (simp [h0]; done)
  | ((try dsimp only)
     (repeat' (split <;> try (rename_i hp; first | (obtain ⟨rfl, rfl⟩ := Prod.ext_iff.mp hp) | (obtain ⟨rfl, hq⟩ := Prod.ext_iff.mp hp; obtain ⟨rfl, rfl⟩ := Prod.ext_iff.mp hq) | (obtain ⟨rfl, hq⟩ := Prod.ext_iff.mp hp; obtain ⟨rfl, _⟩ := Prod.ext_iff.mp hq) | (obtain ⟨_, hq⟩ := Prod.ext_iff.mp hp; obtain ⟨rfl, _⟩ := Prod.ext_iff.mp hq) | (obtain ⟨rfl, _⟩ := Prod.ext_iff.mp hp) | (obtain ⟨_, rfl⟩ := Prod.ext_iff.mp hp)))) <;> first | rfl | (simp [h0]; done) | (simp_all; done))

@[simp] theorem receiveNew_cells (s : State) (e p : Nat) (k : Packet) (body : State → Nat → State × Bool) (h0 : ∀ a0 a1, (body a0 a1).1.cells = a0.cells) :
    (receiveNew s e p k body).cells = s.cells := by
  unfold receiveNew
  first
  | (simp [h0]; done)
  | ((try dsimp only)
     (repeat' (split <;> try (rename_i hp; first | (obtain ⟨rfl, rfl⟩ := Prod.ext_iff.mp hp) | (obtain ⟨rfl, hq⟩ := Prod.ext_iff.mp hp; obtain ⟨rfl, rfl⟩ := Prod.ext_iff.mp hq) | (obtain ⟨rfl, hq⟩ := Prod.ext_iff.mp hp; obtain ⟨rfl, _⟩ := Prod.ext_iff.mp hq) | (obtain ⟨_, hq⟩ := Prod.ext_iff.mp hp; obtain ⟨rfl, _⟩ := Prod.ext_iff.mp hq) | (obtain ⟨rfl, _⟩ := Prod.ext_iff.mp hp) | (obtain ⟨_, rfl⟩ := Prod.ext_iff.mp hp)))) <;> first | rfl | (simp [h0]; done) | (simp_all; done))

@[simp] theorem receiveNew_mem (s : State) (e p : Nat) (k : Packet) (body : State → Nat → State × Bool) (h0 : ∀ a0 a1, (body a0 a1).1.mem = a0.mem) :
    (receiveNew s e p k body).mem = s.mem := by
  unfold receiveNew
  first
  | (simp [h0]; done)
  | ((try dsimp only)
     (repeat' (split <;> try (rename_i hp; first | (obtain ⟨rfl, rfl⟩ := Prod.ext_iff.mp hp) | (obtain ⟨rfl, hq⟩ := Prod.ext_iff.mp hp; obtain ⟨rfl, rfl⟩ := Prod.ext_iff.mp hq) | (obtain ⟨rfl, hq⟩ := Prod.ext_iff.mp hp; obtain ⟨rfl, _⟩ := Prod.ext_iff.mp hq) | (obtain ⟨_, hq⟩ := Prod.ext_iff.mp hp; obtain ⟨rfl, _⟩ := Prod.ext_iff.mp hq) | (obtain ⟨rfl, _⟩ := Prod.ext_iff.mp hp) | (obtain ⟨_, rfl⟩ := Prod.ext_iff.mp hp)))) <;> first | rfl | (simp [h0]; done) | (simp_all; done))

@[simp] theorem receiveNew_larder (s : State) (e p : Nat) (k : Packet) (body : State → Nat → State × Bool) (h0 : ∀ a0 a1, (body a0 a1).1.larder = a0.larder) :
    (receiveNew s e p k body).larder = s.larder := by
  unfold receiveNew
  first
  | (simp [h0]; done)
  | ((try dsimp only)
     (repeat' (split <;> try (rename_i hp; first | (obtain ⟨rfl, rfl⟩ := Prod.ext_iff.mp hp) | (obtain ⟨rfl, hq⟩ := Prod.ext_iff.mp hp; obtain ⟨rfl, rfl⟩ := Prod.ext_iff.mp hq) | (obtain ⟨rfl, hq⟩ := Prod.ext_iff.mp hp; obtain ⟨rfl, _⟩ := Prod.ext_iff.mp hq) | (obtain ⟨_, hq⟩ := Prod.ext_iff.mp hp; obtain ⟨rfl, _⟩ := Prod.ext_iff.mp hq) | (obtain ⟨rfl, _⟩ := Prod.ext_iff.mp hp) | (obtain ⟨_, rfl⟩ := Prod.ext_iff.mp hp)))) <;> first | rfl | (simp [h0]; done) | (simp_all; done))

@[simp] theorem receiveNew_reg (s : State) (e p : Nat) (k : Packet) (body : State → Nat → State × Bool) (h0 : ∀ a0 a1, (body a0 a1).1.reg = a0.reg) :
    (receiveNew s e p k body).reg = s.reg := by
  unfold receiveNew
  first
  | (simp [h0]; done)
  | ((try dsimp only)
     (repeat' (split <;> try (rename_i hp; first | (obtain ⟨rfl, rfl⟩ := Prod.ext_iff.mp hp) | (obtain ⟨rfl, hq⟩ := Prod.ext_iff.mp hp; obtain ⟨rfl, rfl⟩ := Prod.ext_iff.mp hq) | (obtain ⟨rfl, hq⟩ := Prod.ext_iff.mp hp; obtain ⟨rfl, _⟩ := Prod.ext_iff.mp hq) | (obtain ⟨_, hq⟩ := Prod.ext_iff.mp hp; obtain ⟨rfl, _⟩ := Prod.ext_iff.mp hq) | (obtain ⟨rfl, _⟩ := Prod.ext_iff.mp hp) | (obtain ⟨_, rfl⟩ := Prod.ext_iff.mp hp)))) <;> first | rfl | (simp [h0]; done) | (simp_all; done))

@[simp] theorem receiveNew_trans (s : State) (e p : Nat) (k : Packet) (body : State → Nat → State × Bool) (h0 : ∀ a0 a1, (body a0 a1).1.trans = a0.trans) :
    (receiveNew s e p k body).trans = s.trans := by
  unfold receiveNew
  first
  | (simp [h0]; done)
  | ((try dsimp only)
     (repeat' (split <;> try (rename_i hp; first | (obtain ⟨rfl, rfl⟩ := Prod.ext_iff.mp hp) | (obtain ⟨rfl, hq⟩ := Prod.ext_iff.mp hp; obtain ⟨rfl, rfl⟩ := Prod.ext_iff.mp hq) | (obtain ⟨rfl, hq⟩ := Prod.ext_iff.mp hp; obtain ⟨rfl, _⟩ := Prod.ext_iff.mp hq) | (obtain ⟨_, hq⟩ := Prod.ext_iff.mp hp; obtain ⟨rfl, _⟩ := Prod.ext_iff.mp hq) | (obtain ⟨rfl, _⟩ := Prod.ext_iff.mp hp) | (obtain ⟨_, rfl⟩ := Prod.ext_iff.mp hp)))) <;> first | rfl | (simp [h0]; done) | (simp_all; done))

@[simp] theorem receiveNew_attic (s : State) (e p : Nat) (k : Packet) (body : State → Nat → State × Bool) (h0 : ∀ a0 a1, (body a0 a1).1.attic = a0.attic) :
    (receiveNew s e p k body).attic = s.attic := by
  unfold receiveNew
  first
  | (simp [h0]; done)
  | ((try dsimp only)
     (repeat' (split <;> try (rename_i hp; first | (obtain ⟨rfl, rfl⟩ := Prod.ext_iff.mp hp) | (obtain ⟨rfl, hq⟩ := Prod.ext_iff.mp hp; obtain ⟨rfl, rfl⟩ := Prod.ext_iff.mp hq) | (obtain ⟨rfl, hq⟩ := Prod.ext_iff.mp hp; obtain ⟨rfl, _⟩ := Prod.ext_iff.mp hq) | (obtain ⟨_, hq⟩ := Prod.ext_iff.mp hp; obtain ⟨rfl, _⟩ := Prod.ext_iff.mp hq) | (obtain ⟨rfl, _⟩ := Prod.ext_iff.mp hp) | (obtain ⟨_, rfl⟩ := Prod.ext_iff.mp hp)))) <;> first | rfl | (simp [h0]; done) | (simp_all; done))

@[simp] theorem receiveNew_link (s : State) (e p : Nat) (k : Packet) (body : State → Nat → State × Bool) (h0 : ∀ a0 a1, (body a0 a1).1.link = a0.link) :
    (receiveNew s e p k body).link = s.link := by
  unfold receiveNew
  first
  | (simp [h0]; done)
  | ((try dsimp only)
     (repeat' (split <;> try (rename_i hp; first | (obtain ⟨rfl, rfl⟩ := Prod.ext_iff.mp hp) | (obtain ⟨rfl, hq⟩ := Prod.ext_iff.mp hp; obtain ⟨rfl, rfl⟩ := Prod.ext_iff.mp hq) | (obtain ⟨rfl, hq⟩ := Prod.ext_iff.mp hp; obtain ⟨rfl, _⟩ := Prod.ext_iff.mp hq) | (obtain ⟨_, hq⟩ := Prod.ext_iff.mp hp; obtain ⟨rfl, _⟩ := Prod.ext_iff.mp hq) | (obtain ⟨rfl, _⟩ := Prod.ext_iff.mp hp) | (obtain ⟨_, rfl⟩ := Prod.ext_iff.mp hp)))) <;> first | rfl | (simp [h0]; done) | (simp_all; done))

@[simp] theorem receiveNew_fresh (s : State) (e p : Nat) (k : Packet) (body : State → Nat → State × Bool) (h0 : ∀ a0 a1, (body a0 a1).1.fresh = a0.fresh) :
    (receiveNew s e p k body).fresh = s.fresh := by
  unfold receiveNew
  first
  | (simp [h0]; done)
  | ((try dsimp only)
     (repeat' (split <;> try (rename_i hp; first | (obtain ⟨rfl, rfl⟩ := Prod.ext_iff.mp hp) | (obtain ⟨rfl, hq⟩ := Prod.ext_iff.mp hp; obtain ⟨rfl, rfl⟩ := Prod.ext_iff.mp hq) | (obtain ⟨rfl, hq⟩ := Prod.ext_iff.mp hp; obtain ⟨rfl, _⟩ := Prod.ext_iff.mp hq) | (obtain ⟨_, hq⟩ := Prod.ext_iff.mp hp; obtain ⟨rfl, _⟩ := Prod.ext_iff.mp hq) | (obtain ⟨rfl, _⟩ := Prod.ext_iff.mp hp) | (obtain ⟨_, rfl⟩ := Prod.ext_iff.mp hp)))) <;> first | rfl | (simp [h0]; done) | (simp_all; done))

@[simp] theorem receiveNew_pending (s : State) (e p : Nat) (k : Packet) (body : State → Nat → State × Bool) (h0 : ∀ a0 a1, (body a0 a1).1.pending = a0.pending) :
    (receiveNew s e p k body).pending = s.pending := by
  unfold receiveNew
  first
  | (simp [h0]; done)
  | ((try dsimp only)
     (repeat' (split <;> try (rename_i hp; first | (obtain ⟨rfl, rfl⟩ := Prod.ext_iff.mp hp) | (obtain ⟨rfl, hq⟩ := Prod.ext_iff.mp hp; obtain ⟨rfl, rfl⟩ := Prod.ext_iff.mp hq) | (obtain ⟨rfl, hq⟩ := Prod.ext_iff.mp hp; obtain ⟨rfl, _⟩ := Prod.ext_iff.mp hq) | (obtain ⟨_, hq⟩ := Prod.ext_iff.mp hp; obtain ⟨rfl, _⟩ := Prod.ext_iff.mp hq) | (obtain ⟨rfl, _⟩ := Prod.ext_iff.mp hp) | (obtain ⟨_, rfl⟩ := Prod.ext_iff.mp hp)))) <;> first | rfl | (simp [h0]; done) | (simp_all; done))

@[simp] theorem receivePsn_time (s : State) (e p : Nat) (k : Packet) (body : State → Nat → State × Bool) (h0 : ∀ a0 a1, (body a0 a1).1.time = a0.time) :
    (receivePsn s e p k body).time = s.time := by
  unfold receivePsn
  first
  | (simp [h0]; done)
  | ((try dsimp only)
     (repeat' (split <;> try (rename_i hp; first | (obtain ⟨rfl, rfl⟩ := Prod.ext_iff.mp hp) | (obtain ⟨rfl, hq⟩ := Prod.ext_iff.mp hp; obtain ⟨rfl, rfl⟩ := Prod.ext_iff.mp hq) | (obtain ⟨rfl, hq⟩ := Prod.ext_iff.mp hp; obtain ⟨rfl, _⟩ := Prod.ext_iff.mp hq) | (obtain ⟨_, hq⟩ := Prod.ext_iff.mp hp; obtain ⟨rfl, _⟩ := Prod.ext_iff.mp hq) | (obtain ⟨rfl, _⟩ := Prod.ext_iff.mp hp) | (obtain ⟨_, rfl⟩ := Prod.ext_iff.mp hp)))) <;> first | rfl | (simp [h0]; done) | (simp_all; done))

@[simp] theorem receivePsn_cp (s : State) (e p : Nat) (k : Packet) (body : State → Nat → State × Bool) (h0 : ∀ a0 a1, (body a0 a1).1.cp = a0.cp) :
    (receivePsn s e p k body).cp = s.cp := by
  unfold receivePsn
  first
  | (simp [h0]; done)
  | ((try dsimp only)
     (repeat' (split <;> try (rename_i hp; first | (obtain ⟨rfl, rfl⟩ := Prod.ext_iff.mp hp) | (obtain ⟨rfl, hq⟩ := Prod.ext_iff.mp hp; obtain ⟨rfl, rfl⟩ := Prod.ext_iff.mp hq) | (obtain ⟨rfl, hq⟩ := Prod.ext_iff.mp hp; obtain ⟨rfl, _⟩ := Prod.ext_iff.mp hq) | (obtain ⟨_, hq⟩ := Prod.ext_iff.mp hp; obtain ⟨rfl, _⟩ := Prod.ext_iff.mp hq) | (obtain ⟨rfl, _⟩ := Prod.ext_iff.mp hp) | (obtain ⟨_, rfl⟩ := Prod.ext_iff.mp hp)))) <;> first | rfl | (simp [h0]; done) | (simp_all; done))

@[simp] theorem receivePsn_part (s : State) (e p : Nat) (k : Packet) (body : State → Nat → State × Bool) (h0 : ∀ a0 a1, (body a0 a1).1.part = a0.part) :
    (receivePsn s e p k body).part = s.part := by
  unfold receivePsn
  first
  | (simp [h0]; done)
  | ((try dsimp only)
     (repeat' (split <;> try (rename_i hp; first | (obtain ⟨rfl, rfl⟩ := Prod.ext_iff.mp hp) | (obtain ⟨rfl, hq⟩ := Prod.ext_iff.mp hp; obtain ⟨rfl, rfl⟩ := Prod.ext_iff.mp hq) | (obtain ⟨rfl, hq⟩ := Prod.ext_iff.mp hp; obtain ⟨rfl, _⟩ := Prod.ext_iff.mp hq) | (obtain ⟨_, hq⟩ := Prod.ext_iff.mp hp; obtain ⟨rfl, _⟩ := Prod.ext_iff.mp hq) | (obtain ⟨rfl, _⟩ := Prod.ext_iff.mp hp) | (obtain ⟨_, rfl⟩ := Prod.ext_iff.mp hp)))) <;> first | rfl | (simp [h0]; done) | (simp_all; done))

@[simp] theorem receivePsn_err (s : State) (e p : Nat) (k : Packet) (body : State → Nat → State × Bool) (h0 : ∀ a0 a1, (body a0 a1).1.err = a0.err) :
    (receivePsn s e p k body).err = s.err := by
  unfold receivePsn
  first
  | (simp [h0]; done)
  | ((try dsimp only)
     (repeat' (split <;> try (rename_i hp; first | (obtain ⟨rfl, rfl⟩ := Prod.ext_iff.mp hp) | (obtain ⟨rfl, hq⟩ := Prod.ext_iff.mp hp; obtain ⟨rfl, rfl⟩ := Prod.ext_iff.mp hq) | (obtain ⟨rfl, hq⟩ := Prod.ext_iff.mp hp; obtain ⟨rfl, _⟩ := Prod.ext_iff.mp hq) | (obtain ⟨_, hq⟩ := Prod.ext_iff.mp hp; obtain ⟨rfl, _⟩ := Prod.ext_iff.mp hq) | (obtain ⟨rfl, _⟩ := Prod.ext_iff.mp hp) | (obtain ⟨_, rfl⟩ := Prod.ext_iff.mp hp)))) <;> first | rfl | (simp [h0]; done) | (simp_all; done))

@[simp] theorem receivePsn_pwr (s : State) (e p : Nat) (k : Packet) (body : State → Nat → State × Bool) (h0 : ∀ a0 a1, (body a0 a1).1.pwr = a0.pwr) :
    (receivePsn s e p k body).pwr = s.pwr := by
  unfold receivePsn
  first
  | (simp [h0]; done)
  | ((try dsimp only)
     (repeat' (split <;> try (rename_i hp; first | (obtain ⟨rfl, rfl⟩ := Prod.ext_iff.mp hp) | (obtain ⟨rfl, hq⟩ := Prod.ext_iff.mp hp; obtain ⟨rfl, rfl⟩ := Prod.ext_iff.mp hq) | (obtain ⟨rfl, hq⟩ := Prod.ext_iff.mp hp; obtain ⟨rfl, _⟩ := Prod.ext_iff.mp hq) | (obtain ⟨_, hq⟩ := Prod.ext_iff.mp hp; obtain ⟨rfl, _⟩ := Prod.ext_iff.mp hq) | (obtain ⟨rfl, _⟩ := Prod.ext_iff.mp hp) | (obtain ⟨_, rfl⟩ := Prod.ext_iff.mp hp)))) <;> first | rfl | (simp [h0]; done) | (simp_all; done))

@[simp] theorem receivePsn_mgmt (s : State) (e p : Nat) (k : Packet) (body : State → Nat → State × Bool) (h0 : ∀ a0 a1, (body a0 a1).1.mgmt = a0.mgmt) :
    (receivePsn s e p k body).mgmt = s.mgmt := by
  unfold receivePsn
  first
  | (simp [h0]; done)
  | ((try dsimp only)
     (repeat' (split <;> try (rename_i hp; first | (obtain ⟨rfl, rfl⟩ := Prod.ext_iff.mp hp) | (obtain ⟨rfl, hq⟩ := Prod.ext_iff.mp hp; obtain ⟨rfl, rfl⟩ := Prod.ext_iff.mp hq) | (obtain ⟨rfl, hq⟩ := Prod.ext_iff.mp hp; obtain ⟨rfl, _⟩ := Prod.ext_iff.mp hq) | (obtain ⟨_, hq⟩ := Prod.ext_iff.mp hp; obtain ⟨rfl, _⟩ := Prod.ext_iff.mp hq) | (obtain ⟨rfl, _⟩ := Prod.ext_iff.mp hp) | (obtain ⟨_, rfl⟩ := Prod.ext_iff.mp hp)))) <;> first | rfl | (simp [h0]; done) | (simp_all; done))

@[simp] theorem receivePsn_boot (s : State) (e p : Nat) (k : Packet) (body : State → Nat → State × Bool) (h0 : ∀ a0 a1, (body a0 a1).1.boot = a0.boot) :
    (receivePsn s e p k body).boot = s.boot := by
  unfold receivePsn
  first
  | (simp [h0]; done)
  | ((try dsimp only)
     (repeat' (split <;> try (rename_i hp; first | (obtain ⟨rfl, rfl⟩ := Prod.ext_iff.mp hp) | (obtain ⟨rfl, hq⟩ := Prod.ext_iff.mp hp; obtain ⟨rfl, rfl⟩ := Prod.ext_iff.mp hq) | (obtain ⟨rfl, hq⟩ := Prod.ext_iff.mp hp; obtain ⟨rfl, _⟩ := Prod.ext_iff.mp hq) | (obtain ⟨_, hq⟩ := Prod.ext_iff.mp hp; obtain ⟨rfl, _⟩ := Prod.ext_iff.mp hq) | (obtain ⟨rfl, _⟩ := Prod.ext_iff.mp hp) | (obtain ⟨_, rfl⟩ := Prod.ext_iff.mp hp)))) <;> first | rfl | (simp [h0]; done) | (simp_all; done))

@[simp] theorem receivePsn_cells (s : State) (e p : Nat) (k : Packet) (body : State → Nat → State × Bool) (h0 : ∀ a0 a1, (body a0 a1).1.cells = a0.cells) :
    (receivePsn s e p k body).cells = s.cells := by
  unfold receivePsn
  first
  | (simp [h0]; done)
  | ((try dsimp only)
     (repeat' (split <;> try (rename_i hp; first | (obtain ⟨rfl, rfl⟩ := Prod.ext_iff.mp hp) | (obtain ⟨rfl, hq⟩ := Prod.ext_iff.mp hp; obtain ⟨rfl, rfl⟩ := Prod.ext_iff.mp hq) | (obtain ⟨rfl, hq⟩ := Prod.ext_iff.mp hp; obtain ⟨rfl, _⟩ := Prod.ext_iff.mp hq) | (obtain ⟨_, hq⟩ := Prod.ext_iff.mp hp; obtain ⟨rfl, _⟩ := Prod.ext_iff.mp hq) | (obtain ⟨rfl, _⟩ := Prod.ext_iff.mp hp) | (obtain ⟨_, rfl⟩ := Prod.ext_iff.mp hp)))) <;> first | rfl | (simp [h0]; done) | (simp_all; done))

@[simp] theorem receivePsn_mem (s : State) (e p : Nat) (k : Packet) (body : State → Nat → State × Bool) (h0 : ∀ a0 a1, (body a0 a1).1.mem = a0.mem) :
    (receivePsn s e p k body).mem = s.mem := by
  unfold receivePsn
  first
  | (simp [h0]; done)
  | ((try dsimp only)
     (repeat' (split <;> try (rename_i hp; first | (obtain ⟨rfl, rfl⟩ := Prod.ext_iff.mp hp) | (obtain ⟨rfl, hq⟩ := Prod.ext_iff.mp hp; obtain ⟨rfl, rfl⟩ := Prod.ext_iff.mp hq) | (obtain ⟨rfl, hq⟩ := Prod.ext_iff.mp hp; obtain ⟨rfl, _⟩ := Prod.ext_iff.mp hq) | (obtain ⟨_, hq⟩ := Prod.ext_iff.mp hp; obtain ⟨rfl, _⟩ := Prod.ext_iff.mp hq) | (obtain ⟨rfl, _⟩ := Prod.ext_iff.mp hp) | (obtain ⟨_, rfl⟩ := Prod.ext_iff.mp hp)))) <;> first | rfl | (simp [h0]; done) | (simp_all; done))

@[simp] theorem receivePsn_larder (s : State) (e p : Nat) (k : Packet) (body : State → Nat → State × Bool) (h0 : ∀ a0 a1, (body a0 a1).1.larder = a0.larder) :
    (receivePsn s e p k body).larder = s.larder := by
  unfold receivePsn
  first
  | (simp [h0]; done)
  | ((try dsimp only)
     (repeat' (split <;> try (rename_i hp; first | (obtain ⟨rfl, rfl⟩ := Prod.ext_iff.mp hp) | (obtain ⟨rfl, hq⟩ := Prod.ext_iff.mp hp; obtain ⟨rfl, rfl⟩ := Prod.ext_iff.mp hq) | (obtain ⟨rfl, hq⟩ := Prod.ext_iff.mp hp; obtain ⟨rfl, _⟩ := Prod.ext_iff.mp hq) | (obtain ⟨_, hq⟩ := Prod.ext_iff.mp hp; obtain ⟨rfl, _⟩ := Prod.ext_iff.mp hq) | (obtain ⟨rfl, _⟩ := Prod.ext_iff.mp hp) | (obtain ⟨_, rfl⟩ := Prod.ext_iff.mp hp)))) <;> first | rfl | (simp [h0]; done) | (simp_all; done))

@[simp] theorem receivePsn_reg (s : State) (e p : Nat) (k : Packet) (body : State → Nat → State × Bool) (h0 : ∀ a0 a1, (body a0 a1).1.reg = a0.reg) :
    (receivePsn s e p k body).reg = s.reg := by
  unfold receivePsn
  first
  | (simp [h0]; done)
  | ((try dsimp only)
     (repeat' (split <;> try (rename_i hp; first | (obtain ⟨rfl, rfl⟩ := Prod.ext_iff.mp hp) | (obtain ⟨rfl, hq⟩ := Prod.ext_iff.mp hp; obtain ⟨rfl, rfl⟩ := Prod.ext_iff.mp hq) | (obtain ⟨rfl, hq⟩ := Prod.ext_iff.mp hp; obtain ⟨rfl, _⟩ := Prod.ext_iff.mp hq) | (obtain ⟨_, hq⟩ := Prod.ext_iff.mp hp; obtain ⟨rfl, _⟩ := Prod.ext_iff.mp hq) | (obtain ⟨rfl, _⟩ := Prod.ext_iff.mp hp) | (obtain ⟨_, rfl⟩ := Prod.ext_iff.mp hp)))) <;> first | rfl | (simp [h0]; done) | (simp_all; done))

@[simp] theorem receivePsn_trans (s : State) (e p : Nat) (k : Packet) (body : State → Nat → State × Bool) (h0 : ∀ a0 a1, (body a0 a1).1.trans = a0.trans) :
    (receivePsn s e p k body).trans = s.trans := by
  unfold receivePsn
  first
  | (simp [h0]; done)
  | ((try dsimp only)
     (repeat' (split <;> try (rename_i hp; first | (obtain ⟨rfl, rfl⟩ := Prod.ext_iff.mp hp) | (obtain ⟨rfl, hq⟩ := Prod.ext_iff.mp hp; obtain ⟨rfl, rfl⟩ := Prod.ext_iff.mp hq) | (obtain ⟨rfl, hq⟩ := Prod.ext_iff.mp hp; obtain ⟨rfl, _⟩ := Prod.ext_iff.mp hq) | (obtain ⟨_, hq⟩ := Prod.ext_iff.mp hp; obtain ⟨rfl, _⟩ := Prod.ext_iff.mp hq) | (obtain ⟨rfl, _⟩ := Prod.ext_iff.mp hp) | (obtain ⟨_, rfl⟩ := Prod.ext_iff.mp hp)))) <;> first | rfl | (simp [h0]; done) | (simp_all; done))

@[simp] theorem receivePsn_attic (s : State) (e p : Nat) (k : Packet) (body : State → Nat → State × Bool) (h0 : ∀ a0 a1, (body a0 a1).1.attic = a0.attic) :
    (receivePsn s e p k body).attic = s.attic := by
  unfold receivePsn
  first
  | (simp [h0]; done)
  | ((try dsimp only)
     (repeat' (split <;> try (rename_i hp; first | (obtain ⟨rfl, rfl⟩ := Prod.ext_iff.mp hp) | (obtain ⟨rfl, hq⟩ := Prod.ext_iff.mp hp; obtain ⟨rfl, rfl⟩ := Prod.ext_iff.mp hq) | (obtain ⟨rfl, hq⟩ := Prod.ext_iff.mp hp; obtain ⟨rfl, _⟩ := Prod.ext_iff.mp hq) | (obtain ⟨_, hq⟩ := Prod.ext_iff.mp hp; obtain ⟨rfl, _⟩ := Prod.ext_iff.mp hq) | (obtain ⟨rfl, _⟩ := Prod.ext_iff.mp hp) | (obtain ⟨_, rfl⟩ := Prod.ext_iff.mp hp)))) <;> first | rfl | (simp [h0]; done) | (simp_all; done))

@[simp] theorem receivePsn_link (s : State) (e p : Nat) (k : Packet) (body : State → Nat → State × Bool) (h0 : ∀ a0 a1, (body a0 a1).1.link = a0.link) :
    (receivePsn s e p k body).link = s.link := by
  unfold receivePsn
  first
  | (simp [h0]; done)
  | ((try dsimp only)
     (repeat' (split <;> try (rename_i hp; first | (obtain ⟨rfl, rfl⟩ := Prod.ext_iff.mp hp) | (obtain ⟨rfl, hq⟩ := Prod.ext_iff.mp hp; obtain ⟨rfl, rfl⟩ := Prod.ext_iff.mp hq) | (obtain ⟨rfl, hq⟩ := Prod.ext_iff.mp hp; obtain ⟨rfl, _⟩ := Prod.ext_iff.mp hq) | (obtain ⟨_, hq⟩ := Prod.ext_iff.mp hp; obtain ⟨rfl, _⟩ := Prod.ext_iff.mp hq) | (obtain ⟨rfl, _⟩ := Prod.ext_iff.mp hp) | (obtain ⟨_, rfl⟩ := Prod.ext_iff.mp hp)))) <;> first | rfl | (simp [h0]; done) | (simp_all; done))

@[simp] theorem receivePsn_fresh (s : State) (e p : Nat) (k : Packet) (body : State → Nat → State × Bool) (h0 : ∀ a0 a1, (body a0 a1).1.fresh = a0.fresh) :
    (receivePsn s e p k body).fresh = s.fresh := by
  unfold receivePsn
  first
  | (simp [h0]; done)
  | ((try dsimp only)
     (repeat' (split <;> try (rename_i hp; first | (obtain ⟨rfl, rfl⟩ := Prod.ext_iff.mp hp) | (obtain ⟨rfl, hq⟩ := Prod.ext_iff.mp hp; obtain ⟨rfl, rfl⟩ := Prod.ext_iff.mp hq) | (obtain ⟨rfl, hq⟩ := Prod.ext_iff.mp hp; obtain ⟨rfl, _⟩ := Prod.ext_iff.mp hq) | (obtain ⟨_, hq⟩ := Prod.ext_iff.mp hp; obtain ⟨rfl, _⟩ := Prod.ext_iff.mp hq) | (obtain ⟨rfl, _⟩ := Prod.ext_iff.mp hp) | (obtain ⟨_, rfl⟩ := Prod.ext_iff.mp hp)))) <;> first | rfl | (simp [h0]; done) | (simp_all; done))

@[simp] theorem receivePsn_pending (s : State) (e p : Nat) (k : Packet) (body : State → Nat → State × Bool) (h0 : ∀ a0 a1, (body a0 a1).1.pending = a0.pending) :
    (receivePsn s e p k body).pending = s.pending := by
  unfold receivePsn
  first
  | (simp [h0]; done)
  | ((try dsimp only)
     (repeat' (split <;> try (rename_i hp; first | (obtain ⟨rfl, rfl⟩ := Prod.ext_iff.mp hp) | (obtain ⟨rfl, hq⟩ := Prod.ext_iff.mp hp; obtain ⟨rfl, rfl⟩ := Prod.ext_iff.mp hq) | (obtain ⟨rfl, hq⟩ := Prod.ext_iff.mp hp; obtain ⟨rfl, _⟩ := Prod.ext_iff.mp hq) | (obtain ⟨_, hq⟩ := Prod.ext_iff.mp hp; obtain ⟨rfl, _⟩ := Prod.ext_iff.mp hq) | (obtain ⟨rfl, _⟩ := Prod.ext_iff.mp hp) | (obtain ⟨_, rfl⟩ := Prod.ext_iff.mp hp)))) <;> first | rfl | (simp [h0]; done) | (simp_all; done))

@[simp] theorem receive_time (s : State) (e : Nat) (k : Packet) (access : Bool) (body : State → Nat → State × Bool) (h0 : ∀ a0 a1, (body a0 a1).1.time = a0.time) :
    (receive s e k access body).time = s.time := by
  unfold receive
  first
  | (simp [h0]; done)
  | ((try dsimp only)
     (repeat' (split <;> try (rename_i hp; first | (obtain ⟨rfl, rfl⟩ := Prod.ext_iff.mp hp) | (obtain ⟨rfl, hq⟩ := Prod.ext_iff.mp hp; obtain ⟨rfl, rfl⟩ := Prod.ext_iff.mp hq) | (obtain ⟨rfl, hq⟩ := Prod.ext_iff.mp hp; obtain ⟨rfl, _⟩ := Prod.ext_iff.mp hq) | (obtain ⟨_, hq⟩ := Prod.ext_iff.mp hp; obtain ⟨rfl, _⟩ := Prod.ext_iff.mp hq) | (obtain ⟨rfl, _⟩ := Prod.ext_iff.mp hp) | (obtain ⟨_, rfl⟩ := Prod.ext_iff.mp hp)))) <;> first | rfl | (simp [h0]; done) | (simp_all; done))

@[simp] theorem receive_part (s : State) (e : Nat) (k : Packet) (access : Bool) (body : State → Nat → State × Bool) (h0 : ∀ a0 a1, (body a0 a1).1.part = a0.part) :
    (receive s e k access body).part = s.part := by
  unfold receive
  first
  | (simp [h0]; done)
  | ((try dsimp only)
     (repeat' (split <;> try (rename_i hp; first | (obtain ⟨rfl, rfl⟩ := Prod.ext_iff.mp hp) | (obtain ⟨rfl, hq⟩ := Prod.ext_iff.mp hp; obtain ⟨rfl, rfl⟩ := Prod.ext_iff.mp hq) | (obtain ⟨rfl, hq⟩ := Prod.ext_iff.mp hp; obtain ⟨rfl, _⟩ := Prod.ext_iff.mp hq) | (obtain ⟨_, hq⟩ := Prod.ext_iff.mp hp; obtain ⟨rfl, _⟩ := Prod.ext_iff.mp hq) | (obtain ⟨rfl, _⟩ := Prod.ext_iff.mp hp) | (obtain ⟨_, rfl⟩ := Prod.ext_iff.mp hp)))) <;> first | rfl | (simp [h0]; done) | (simp_all; done))

@[simp] theorem receive_pwr (s : State) (e : Nat) (k : Packet) (access : Bool) (body : State → Nat → State × Bool) (h0 : ∀ a0 a1, (body a0 a1).1.pwr = a0.pwr) :
    (receive s e k access body).pwr = s.pwr := by
  unfold receive
  first
  | (simp [h0]; done)
  | ((try dsimp only)
     (repeat' (split <;> try (rename_i hp; first | (obtain ⟨rfl, rfl⟩ := Prod.ext_iff.mp hp) | (obtain ⟨rfl, hq⟩ := Prod.ext_iff.mp hp; obtain ⟨rfl, rfl⟩ := Prod.ext_iff.mp hq) | (obtain ⟨rfl, hq⟩ := Prod.ext_iff.mp hp; obtain ⟨rfl, _⟩ := Prod.ext_iff.mp hq) | (obtain ⟨_, hq⟩ := Prod.ext_iff.mp hp; obtain ⟨rfl, _⟩ := Prod.ext_iff.mp hq) | (obtain ⟨rfl, _⟩ := Prod.ext_iff.mp hp) | (obtain ⟨_, rfl⟩ := Prod.ext_iff.mp hp)))) <;> first | rfl | (simp [h0]; done) | (simp_all; done))

@[simp] theorem receive_boot (s : State) (e : Nat) (k : Packet) (access : Bool) (body : State → Nat → State × Bool) (h0 : ∀ a0 a1, (body a0 a1).1.boot = a0.boot) :
    (receive s e k access body).boot = s.boot := by
  unfold receive
  first
  | (simp [h0]; done)
  | ((try dsimp only)
     (repeat' (split <;> try (rename_i hp; first | (obtain ⟨rfl, rfl⟩ := Prod.ext_iff.mp hp) | (obtain ⟨rfl, hq⟩ := Prod.ext_iff.mp hp; obtain ⟨rfl, rfl⟩ := Prod.ext_iff.mp hq) | (obtain ⟨rfl, hq⟩ := Prod.ext_iff.mp hp; obtain ⟨rfl, _⟩ := Prod.ext_iff.mp hq) | (obtain ⟨_, hq⟩ := Prod.ext_iff.mp hp; obtain ⟨rfl, _⟩ := Prod.ext_iff.mp hq) | (obtain ⟨rfl, _⟩ := Prod.ext_iff.mp hp) | (obtain ⟨_, rfl⟩ := Prod.ext_iff.mp hp)))) <;> first | rfl | (simp [h0]; done) | (simp_all; done))

@[simp] theorem receive_cells (s : State) (e : Nat) (k : Packet) (access : Bool) (body : State → Nat → State × Bool) (h0 : ∀ a0 a1, (body a0 a1).1.cells = a0.cells) :
    (receive s e k access body).cells = s.cells := by
  unfold receive
  first
  | (simp [h0]; done)
  | ((try dsimp only)
     (repeat' (split <;> try (rename_i hp; first | (obtain ⟨rfl, rfl⟩ := Prod.ext_iff.mp hp) | (obtain ⟨rfl, hq⟩ := Prod.ext_iff.mp hp; obtain ⟨rfl, rfl⟩ := Prod.ext_iff.mp hq) | (obtain ⟨rfl, hq⟩ := Prod.ext_iff.mp hp; obtain ⟨rfl, _⟩ := Prod.ext_iff.mp hq) | (obtain ⟨_, hq⟩ := Prod.ext_iff.mp hp; obtain ⟨rfl, _⟩ := Prod.ext_iff.mp hq) | (obtain ⟨rfl, _⟩ := Prod.ext_iff.mp hp) | (obtain ⟨_, rfl⟩ := Prod.ext_iff.mp hp)))) <;> first | rfl | (simp [h0]; done) | (simp_all; done))

@[simp] theorem receive_mem (s : State) (e : Nat) (k : Packet) (access : Bool) (body : State → Nat → State × Bool) (h0 : ∀ a0 a1, (body a0 a1).1.mem = a0.mem) :
    (receive s e k access body).mem = s.mem := by
  unfold receive
  first
  | (simp [h0]; done)
  | ((try dsimp only)
     (repeat' (split <;> try (rename_i hp; first | (obtain ⟨rfl, rfl⟩ := Prod.ext_iff.mp hp) | (obtain ⟨rfl, hq⟩ := Prod.ext_iff.mp hp; obtain ⟨rfl, rfl⟩ := Prod.ext_iff.mp hq) | (obtain ⟨rfl, hq⟩ := Prod.ext_iff.mp hp; obtain ⟨rfl, _⟩ := Prod.ext_iff.mp hq) | (obtain ⟨_, hq⟩ := Prod.ext_iff.mp hp; obtain ⟨rfl, _⟩ := Prod.ext_iff.mp hq) | (obtain ⟨rfl, _⟩ := Prod.ext_iff.mp hp) | (obtain ⟨_, rfl⟩ := Prod.ext_iff.mp hp)))) <;> first | rfl | (simp [h0]; done) | (simp_all; done))

@[simp] theorem receive_larder (s : State) (e : Nat) (k : Packet) (access : Bool) (body : State → Nat → State × Bool) (h0 : ∀ a0 a1, (body a0 a1).1.larder = a0.larder) :
    (receive s e k access body).larder = s.larder := by
  unfold receive
  first
  | (simp [h0]; done)
  | ((try dsimp only)
     (repeat' (split <;> try (rename_i hp; first | (obtain ⟨rfl, rfl⟩ := Prod.ext_iff.mp hp) | (obtain ⟨rfl, hq⟩ := Prod.ext_iff.mp hp; obtain ⟨rfl, rfl⟩ := Prod.ext_iff.mp hq) | (obtain ⟨rfl, hq⟩ := Prod.ext_iff.mp hp; obtain ⟨rfl, _⟩ := Prod.ext_iff.mp hq) | (obtain ⟨_, hq⟩ := Prod.ext_iff.mp hp; obtain ⟨rfl, _⟩ := Prod.ext_iff.mp hq) | (obtain ⟨rfl, _⟩ := Prod.ext_iff.mp hp) | (obtain ⟨_, rfl⟩ := Prod.ext_iff.mp hp)))) <;> first | rfl | (simp [h0]; done) | (simp_all; done))

@[simp] theorem receive_reg (s : State) (e : Nat) (k : Packet) (access : Bool) (body : State → Nat → State × Bool) (h0 : ∀ a0 a1, (body a0 a1).1.reg = a0.reg) :
    (receive s e k access body).reg = s.reg := by
  unfold receive
  first
  | (simp [h0]; done)
  | ((try dsimp only)
     (repeat' (split <;> try (rename_i hp; first | (obtain ⟨rfl, rfl⟩ := Prod.ext_iff.mp hp) | (obtain ⟨rfl, hq⟩ := Prod.ext_iff.mp hp; obtain ⟨rfl, rfl⟩ := Prod.ext_iff.mp hq) | (obtain ⟨rfl, hq⟩ := Prod.ext_iff.mp hp; obtain ⟨rfl, _⟩ := Prod.ext_iff.mp hq) | (obtain ⟨_, hq⟩ := Prod.ext_iff.mp hp; obtain ⟨rfl, _⟩ := Prod.ext_iff.mp hq) | (obtain ⟨rfl, _⟩ := Prod.ext_iff.mp hp) | (obtain ⟨_, rfl⟩ := Prod.ext_iff.mp hp)))) <;> first | rfl | (simp [h0]; done) | (simp_all; done))

@[simp] theorem receive_trans (s : State) (e : Nat) (k : Packet) (access : Bool) (body : State → Nat → State × Bool) (h0 : ∀ a0 a1, (body a0 a1).1.trans = a0.trans) :
    (receive s e k access body).trans = s.trans := by
  unfold receive
  first
  | (simp [h0]; done)
  | ((try dsimp only)
     (repeat' (split <;> try (rename_i hp; first | (obtain ⟨rfl, rfl⟩ := Prod.ext_iff.mp hp) | (obtain ⟨rfl, hq⟩ := Prod.ext_iff.mp hp; obtain ⟨rfl, rfl⟩ := Prod.ext_iff.mp hq) | (obtain ⟨rfl, hq⟩ := Prod.ext_iff.mp hp; obtain ⟨rfl, _⟩ := Prod.ext_iff.mp hq) | (obtain ⟨_, hq⟩ := Prod.ext_iff.mp hp; obtain ⟨rfl, _⟩ := Prod.ext_iff.mp hq) | (obtain ⟨rfl, _⟩ := Prod.ext_iff.mp hp) | (obtain ⟨_, rfl⟩ := Prod.ext_iff.mp hp)))) <;> first | rfl | (simp [h0]; done) | (simp_all; done))

@[simp] theorem receive_attic (s : State) (e : Nat) (k : Packet) (access : Bool) (body : State → Nat → State × Bool) (h0 : ∀ a0 a1, (body a0 a1).1.attic = a0.attic) :
    (receive s e k access body).attic = s.attic := by
  unfold receive
  first
  | (simp [h0]; done)
  | ((try dsimp only)
     (repeat' (split <;> try (rename_i hp; first | (obtain ⟨rfl, rfl⟩ := Prod.ext_iff.mp hp) | (obtain ⟨rfl, hq⟩ := Prod.ext_iff.mp hp; obtain ⟨rfl, rfl⟩ := Prod.ext_iff.mp hq) | (obtain ⟨rfl, hq⟩ := Prod.ext_iff.mp hp; obtain ⟨rfl, _⟩ := Prod.ext_iff.mp hq) | (obtain ⟨_, hq⟩ := Prod.ext_iff.mp hp; obtain ⟨rfl, _⟩ := Prod.ext_iff.mp hq) | (obtain ⟨rfl, _⟩ := Prod.ext_iff.mp hp) | (obtain ⟨_, rfl⟩ := Prod.ext_iff.mp hp)))) <;> first | rfl | (simp [h0]; done) | (simp_all; done))

@[simp] theorem receive_link (s : State) (e : Nat) (k : Packet) (access : Bool) (body : State → Nat → State × Bool) (h0 : ∀ a0 a1, (body a0 a1).1.link = a0.link) :
    (receive s e k access body).link = s.link := by
  unfold receive
  first
  | (simp [h0]; done)
  | ((try dsimp only)
     (repeat' (split <;> try (rename_i hp; first | (obtain ⟨rfl, rfl⟩ := Prod.ext_iff.mp hp) | (obtain ⟨rfl, hq⟩ := Prod.ext_iff.mp hp; obtain ⟨rfl, rfl⟩ := Prod.ext_iff.mp hq) | (obtain ⟨rfl, hq⟩ := Prod.ext_iff.mp hp; obtain ⟨rfl, _⟩ := Prod.ext_iff.mp hq) | (obtain ⟨_, hq⟩ := Prod.ext_iff.mp hp; obtain ⟨rfl, _⟩ := Prod.ext_iff.mp hq) | (obtain ⟨rfl, _⟩ := Prod.ext_iff.mp hp) | (obtain ⟨_, rfl⟩ := Prod.ext_iff.mp hp)))) <;> first | rfl | (simp [h0]; done) | (simp_all; done))

@[simp] theorem receive_pending (s : State) (e : Nat) (k : Packet) (access : Bool) (body : State → Nat → State × Bool) (h0 : ∀ a0 a1, (body a0 a1).1.pending = a0.pending) :
    (receive s e k access body).pending = s.pending := by
  unfold receive
  first
  | (simp [h0]; done)
  | ((try dsimp only)
     (repeat' (split <;> try (rename_i hp; first | (obtain ⟨rfl, rfl⟩ := Prod.ext_iff.mp hp) | (obtain ⟨rfl, hq⟩ := Prod.ext_iff.mp hp; obtain ⟨rfl, rfl⟩ := Prod.ext_iff.mp hq) | (obtain ⟨rfl, hq⟩ := Prod.ext_iff.mp hp; obtain ⟨rfl, _⟩ := Prod.ext_iff.mp hq) | (obtain ⟨_, hq⟩ := Prod.ext_iff.mp hp; obtain ⟨rfl, _⟩ := Prod.ext_iff.mp hq) | (obtain ⟨rfl, _⟩ := Prod.ext_iff.mp hp) | (obtain ⟨_, rfl⟩ := Prod.ext_iff.mp hp)))) <;> first | rfl | (simp [h0]; done) | (simp_all; done))

@[simp] theorem receiveAck_time (s : State) (e : Nat) (k : Packet) (body : State → Nat → State) (h0 : ∀ a0 a1, (body a0 a1).time = a0.time) :
    (receiveAck s e k body).time = s.time := by
  unfold receiveAck
  first
  | (simp [h0]; done)
  | ((try dsimp only)
     (repeat' (split <;> try (rename_i hp; first | (obtain ⟨rfl, rfl⟩ := Prod.ext_iff.mp hp) | (obtain ⟨rfl, hq⟩ := Prod.ext_iff.mp hp; obtain ⟨rfl, rfl⟩ := Prod.ext_iff.mp hq) | (obtain ⟨rfl, hq⟩ := Prod.ext_iff.mp hp; obtain ⟨rfl, _⟩ := Prod.ext_iff.mp hq) | (obtain ⟨_, hq⟩ := Prod.ext_iff.mp hp; obtain ⟨rfl, _⟩ := Prod.ext_iff.mp hq) | (obtain ⟨rfl, _⟩ := Prod.ext_iff.mp hp) | (obtain ⟨_, rfl⟩ := Prod.ext_iff.mp hp)))) <;> first | rfl | (simp [h0]; done) | (simp_all; done))

@[simp] theorem receiveAck_part (s : State) (e : Nat) (k : Packet) (body : State → Nat → State) (h0 : ∀ a0 a1, (body a0 a1).part = a0.part) :
    (receiveAck s e k body).part = s.part := by
  unfold receiveAck
  first
  | (simp [h0]; done)
  | ((try dsimp only)
     (repeat' (split <;> try (rename_i hp; first | (obtain ⟨rfl, rfl⟩ := Prod.ext_iff.mp hp) | (obtain ⟨rfl, hq⟩ := Prod.ext_iff.mp hp; obtain ⟨rfl, rfl⟩ := Prod.ext_iff.mp hq) | (obtain ⟨rfl, hq⟩ := Prod.ext_iff.mp hp; obtain ⟨rfl, _⟩ := Prod.ext_iff.mp hq) | (obtain ⟨_, hq⟩ := Prod.ext_iff.mp hp; obtain ⟨rfl, _⟩ := Prod.ext_iff.mp hq) | (obtain ⟨rfl, _⟩ := Prod.ext_iff.mp hp) | (obtain ⟨_, rfl⟩ := Prod.ext_iff.mp hp)))) <;> first | rfl | (simp [h0]; done) | (simp_all; done))

@[simp] theorem receiveAck_pwr (s : State) (e : Nat) (k : Packet) (body : State → Nat → State) (h0 : ∀ a0 a1, (body a0 a1).pwr = a0.pwr) :
    (receiveAck s e k body).pwr = s.pwr := by
  unfold receiveAck
  first
  | (simp [h0]; done)
  | ((try dsimp only)
     (repeat' (split <;> try (rename_i hp; first | (obtain ⟨rfl, rfl⟩ := Prod.ext_iff.mp hp) | (obtain ⟨rfl, hq⟩ := Prod.ext_iff.mp hp; obtain ⟨rfl, rfl⟩ := Prod.ext_iff.mp hq) | (obtain ⟨rfl, hq⟩ := Prod.ext_iff.mp hp; obtain ⟨rfl, _⟩ := Prod.ext_iff.mp hq) | (obtain ⟨_, hq⟩ := Prod.ext_iff.mp hp; obtain ⟨rfl, _⟩ := Prod.ext_iff.mp hq) | (obtain ⟨rfl, _⟩ := Prod.ext_iff.mp hp) | (obtain ⟨_, rfl⟩ := Prod.ext_iff.mp hp)))) <;> first | rfl | (simp [h0]; done) | (simp_all; done))

@[simp] theorem receiveAck_boot (s : State) (e : Nat) (k : Packet) (body : State → Nat → State) (h0 : ∀ a0 a1, (body a0 a1).boot = a0.boot) :
    (receiveAck s e k body).boot = s.boot := by
  unfold receiveAck
  first
  | (simp [h0]; done)
  | ((try dsimp only)
     (repeat' (split <;> try (rename_i hp; first | (obtain ⟨rfl, rfl⟩ := Prod.ext_iff.mp hp) | (obtain ⟨rfl, hq⟩ := Prod.ext_iff.mp hp; obtain ⟨rfl, rfl⟩ := Prod.ext_iff.mp hq) | (obtain ⟨rfl, hq⟩ := Prod.ext_iff.mp hp; obtain ⟨rfl, _⟩ := Prod.ext_iff.mp hq) | (obtain ⟨_, hq⟩ := Prod.ext_iff.mp hp; obtain ⟨rfl, _⟩ := Prod.ext_iff.mp hq) | (obtain ⟨rfl, _⟩ := Prod.ext_iff.mp hp) | (obtain ⟨_, rfl⟩ := Prod.ext_iff.mp hp)))) <;> first | rfl | (simp [h0]; done) | (simp_all; done))

@[simp] theorem receiveAck_cells (s : State) (e : Nat) (k : Packet) (body : State → Nat → State) (h0 : ∀ a0 a1, (body a0 a1).cells = a0.cells) :
    (receiveAck s e k body).cells = s.cells := by
  unfold receiveAck
  first
  | (simp [h0]; done)
  | ((try dsimp only)
     (repeat' (split <;> try (rename_i hp; first | (obtain ⟨rfl, rfl⟩ := Prod.ext_iff.mp hp) | (obtain ⟨rfl, hq⟩ := Prod.ext_iff.mp hp; obtain ⟨rfl, rfl⟩ := Prod.ext_iff.mp hq) | (obtain ⟨rfl, hq⟩ := Prod.ext_iff.mp hp; obtain ⟨rfl, _⟩ := Prod.ext_iff.mp hq) | (obtain ⟨_, hq⟩ := Prod.ext_iff.mp hp; obtain ⟨rfl, _⟩ := Prod.ext_iff.mp hq) | (obtain ⟨rfl, _⟩ := Prod.ext_iff.mp hp) | (obtain ⟨_, rfl⟩ := Prod.ext_iff.mp hp)))) <;> first | rfl | (simp [h0]; done) | (simp_all; done))

@[simp] theorem receiveAck_mem (s : State) (e : Nat) (k : Packet) (body : State → Nat → State) (h0 : ∀ a0 a1, (body a0 a1).mem = a0.mem) :
    (receiveAck s e k body).mem = s.mem := by
  unfold receiveAck
  first
  | (simp [h0]; done)
  | ((try dsimp only)
     (repeat' (split <;> try (rename_i hp; first | (obtain ⟨rfl, rfl⟩ := Prod.ext_iff.mp hp) | (obtain ⟨rfl, hq⟩ := Prod.ext_iff.mp hp; obtain ⟨rfl, rfl⟩ := Prod.ext_iff.mp hq) | (obtain ⟨rfl, hq⟩ := Prod.ext_iff.mp hp; obtain ⟨rfl, _⟩ := Prod.ext_iff.mp hq) | (obtain ⟨_, hq⟩ := Prod.ext_iff.mp hp; obtain ⟨rfl, _⟩ := Prod.ext_iff.mp hq) | (obtain ⟨rfl, _⟩ := Prod.ext_iff.mp hp) | (obtain ⟨_, rfl⟩ := Prod.ext_iff.mp hp)))) <;> first | rfl | (simp [h0]; done) | (simp_all; done))

@[simp] theorem receiveAck_larder (s : State) (e : Nat) (k : Packet) (body : State → Nat → State) (h0 : ∀ a0 a1, (body a0 a1).larder = a0.larder) :
    (receiveAck s e k body).larder = s.larder := by
  unfold receiveAck
  first
  | (simp [h0]; done)
  | ((try dsimp only)
     (repeat' (split <;> try (rename_i hp; first | (obtain ⟨rfl, rfl⟩ := Prod.ext_iff.mp hp) | (obtain ⟨rfl, hq⟩ := Prod.ext_iff.mp hp; obtain ⟨rfl, rfl⟩ := Prod.ext_iff.mp hq) | (obtain ⟨rfl, hq⟩ := Prod.ext_iff.mp hp; obtain ⟨rfl, _⟩ := Prod.ext_iff.mp hq) | (obtain ⟨_, hq⟩ := Prod.ext_iff.mp hp; obtain ⟨rfl, _⟩ := Prod.ext_iff.mp hq) | (obtain ⟨rfl, _⟩ := Prod.ext_iff.mp hp) | (obtain ⟨_, rfl⟩ := Prod.ext_iff.mp hp)))) <;> first | rfl | (simp [h0]; done) | (simp_all; done))

@[simp] theorem receiveAck_reg (s : State) (e : Nat) (k : Packet) (body : State → Nat → State) (h0 : ∀ a0 a1, (body a0 a1).reg = a0.reg) :
    (receiveAck s e k body).reg = s.reg := by
  unfold receiveAck
  first
  | (simp [h0]; done)
  | ((try dsimp only)
     (repeat' (split <;> try (rename_i hp; first | (obtain ⟨rfl, rfl⟩ := Prod.ext_iff.mp hp) | (obtain ⟨rfl, hq⟩ := Prod.ext_iff.mp hp; obtain ⟨rfl, rfl⟩ := Prod.ext_iff.mp hq) | (obtain ⟨rfl, hq⟩ := Prod.ext_iff.mp hp; obtain ⟨rfl, _⟩ := Prod.ext_iff.mp hq) | (obtain ⟨_, hq⟩ := Prod.ext_iff.mp hp; obtain ⟨rfl, _⟩ := Prod.ext_iff.mp hq) | (obtain ⟨rfl, _⟩ := Prod.ext_iff.mp hp) | (obtain ⟨_, rfl⟩ := Prod.ext_iff.mp hp)))) <;> first | rfl | (simp [h0]; done) | (simp_all; done))

@[simp] theorem receiveAck_trans (s : State) (e : Nat) (k : Packet) (body : State → Nat → State) (h0 : ∀ a0 a1, (body a0 a1).trans = a0.trans) :
    (receiveAck s e k body).trans = s.trans := by
  unfold receiveAck
  first
  | (simp [h0]; done)
  | ((try dsimp only)
     (repeat' (split <;> try (rename_i hp; first | (obtain ⟨rfl, rfl⟩ := Prod.ext_iff.mp hp) | (obtain ⟨rfl, hq⟩ := Prod.ext_iff.mp hp; obtain ⟨rfl, rfl⟩ := Prod.ext_iff.mp hq) | (obtain ⟨rfl, hq⟩ := Prod.ext_iff.mp hp; obtain ⟨rfl, _⟩ := Prod.ext_iff.mp hq) | (obtain ⟨_, hq⟩ := Prod.ext_iff.mp hp; obtain ⟨rfl, _⟩ := Prod.ext_iff.mp hq) | (obtain ⟨rfl, _⟩ := Prod.ext_iff.mp hp) | (obtain ⟨_, rfl⟩ := Prod.ext_iff.mp hp)))) <;> first | rfl | (simp [h0]; done) | (simp_all; done))

@[simp] theorem receiveAck_attic (s : State) (e : Nat) (k : Packet) (body : State → Nat → State) (h0 : ∀ a0 a1, (body a0 a1).attic = a0.attic) :
    (receiveAck s e k body).attic = s.attic := by
  unfold receiveAck
  first
  | (simp [h0]; done)
  | ((try dsimp only)
     (repeat' (split <;> try (rename_i hp; first | (obtain ⟨rfl, rfl⟩ := Prod.ext_iff.mp hp) | (obtain ⟨rfl, hq⟩ := Prod.ext_iff.mp hp; obtain ⟨rfl, rfl⟩ := Prod.ext_iff.mp hq) | (obtain ⟨rfl, hq⟩ := Prod.ext_iff.mp hp; obtain ⟨rfl, _⟩ := Prod.ext_iff.mp hq) | (obtain ⟨_, hq⟩ := Prod.ext_iff.mp hp; obtain ⟨rfl, _⟩ := Prod.ext_iff.mp hq) | (obtain ⟨rfl, _⟩ := Prod.ext_iff.mp hp) | (obtain ⟨_, rfl⟩ := Prod.ext_iff.mp hp)))) <;> first | rfl | (simp [h0]; done) | (simp_all; done))

@[simp] theorem receiveAck_link (s : State) (e : Nat) (k : Packet) (body : State → Nat → State) (h0 : ∀ a0 a1, (body a0 a1).link = a0.link) :
    (receiveAck s e k body).link = s.link := by
  unfold receiveAck
  first
  | (simp [h0]; done)
  | ((try dsimp only)
     (repeat' (split <;> try (rename_i hp; first | (obtain ⟨rfl, rfl⟩ := Prod.ext_iff.mp hp) | (obtain ⟨rfl, hq⟩ := Prod.ext_iff.mp hp; obtain ⟨rfl, rfl⟩ := Prod.ext_iff.mp hq) | (obtain ⟨rfl, hq⟩ := Prod.ext_iff.mp hp; obtain ⟨rfl, _⟩ := Prod.ext_iff.mp hq) | (obtain ⟨_, hq⟩ := Prod.ext_iff.mp hp; obtain ⟨rfl, _⟩ := Prod.ext_iff.mp hq) | (obtain ⟨rfl, _⟩ := Prod.ext_iff.mp hp) | (obtain ⟨_, rfl⟩ := Prod.ext_iff.mp hp)))) <;> first | rfl | (simp [h0]; done) | (simp_all; done))

@[simp] theorem receiveAck_pending (s : State) (e : Nat) (k : Packet) (body : State → Nat → State) (h0 : ∀ a0 a1, (body a0 a1).pending = a0.pending) :
    (receiveAck s e k body).pending = s.pending := by
  unfold receiveAck
  first
  | (simp [h0]; done)
  | ((try dsimp only)
     (repeat' (split <;> try (rename_i hp; first | (obtain ⟨rfl, rfl⟩ := Prod.ext_iff.mp hp) | (obtain ⟨rfl, hq⟩ := Prod.ext_iff.mp hp; obtain ⟨rfl, rfl⟩ := Prod.ext_iff.mp hq) | (obtain ⟨rfl, hq⟩ := Prod.ext_iff.mp hp; obtain ⟨rfl, _⟩ := Prod.ext_iff.mp hq) | (obtain ⟨_, hq⟩ := Prod.ext_iff.mp hp; obtain ⟨rfl, _⟩ := Prod.ext_iff.mp hq) | (obtain ⟨rfl, _⟩ := Prod.ext_iff.mp hp) | (obtain ⟨_, rfl⟩ := Prod.ext_iff.mp hp)))) <;> first | rfl | (simp [h0]; done) | (simp_all; done))

@[simp] theorem refuseRemote_frame (s : State) (e part : Nat) (r : Access) (addr : Nat) :
    (refuseRemote s e part r addr).time = s.time ∧ (refuseRemote s e part r addr).pwr = s.pwr ∧
    (refuseRemote s e part r addr).boot = s.boot ∧ (refuseRemote s e part r addr).cells = s.cells ∧
    (refuseRemote s e part r addr).mem = s.mem ∧ (refuseRemote s e part r addr).larder = s.larder ∧
    (refuseRemote s e part r addr).reg = s.reg ∧ (refuseRemote s e part r addr).trans = s.trans ∧
    (refuseRemote s e part r addr).attic = s.attic ∧ (refuseRemote s e part r addr).link = s.link ∧
    (refuseRemote s e part r addr).chord = s.chord ∧ (refuseRemote s e part r addr).fresh = s.fresh ∧
    (refuseRemote s e part r addr).pending = s.pending := by
  unfold refuseRemote
  simp

@[simp] theorem sendDone_frame (s : State) (p msg st : Nat) :
    (sendDone s p msg st).time = s.time ∧ (sendDone s p msg st).cp = s.cp ∧ (sendDone s p msg st).part = s.part ∧
    (sendDone s p msg st).err = s.err ∧ (sendDone s p msg st).pwr = s.pwr ∧ (sendDone s p msg st).mgmt = s.mgmt ∧
    (sendDone s p msg st).boot = s.boot ∧ (sendDone s p msg st).cells = s.cells ∧ (sendDone s p msg st).mem = s.mem ∧
    (sendDone s p msg st).larder = s.larder ∧ (sendDone s p msg st).reg = s.reg ∧
    (sendDone s p msg st).trans = s.trans ∧ (sendDone s p msg st).attic = s.attic ∧
    (sendDone s p msg st).link = s.link ∧ (sendDone s p msg st).fresh = s.fresh ∧
    (sendDone s p msg st).pending = s.pending := by
  unfold sendDone
  simp

@[simp] theorem sendNack_frame (s : State) (p msg st : Nat) :
    (sendNack s p msg st).time = s.time ∧ (sendNack s p msg st).cp = s.cp ∧ (sendNack s p msg st).part = s.part ∧
    (sendNack s p msg st).err = s.err ∧ (sendNack s p msg st).pwr = s.pwr ∧ (sendNack s p msg st).mgmt = s.mgmt ∧
    (sendNack s p msg st).boot = s.boot ∧ (sendNack s p msg st).cells = s.cells ∧ (sendNack s p msg st).mem = s.mem ∧
    (sendNack s p msg st).larder = s.larder ∧ (sendNack s p msg st).reg = s.reg ∧
    (sendNack s p msg st).trans = s.trans ∧ (sendNack s p msg st).attic = s.attic ∧
    (sendNack s p msg st).link = s.link ∧ (sendNack s p msg st).fresh = s.fresh ∧
    (sendNack s p msg st).pending = s.pending := by
  unfold sendNack
  simp

@[simp] theorem modIncoming_frame (s : State) (p msg : Nat) (f : Incoming → Incoming) :
    (modIncoming s p msg f).time = s.time ∧ (modIncoming s p msg f).cp = s.cp ∧
    (modIncoming s p msg f).part = s.part ∧ (modIncoming s p msg f).err = s.err ∧
    (modIncoming s p msg f).pwr = s.pwr ∧ (modIncoming s p msg f).mgmt = s.mgmt ∧
    (modIncoming s p msg f).boot = s.boot ∧ (modIncoming s p msg f).cells = s.cells ∧
    (modIncoming s p msg f).mem = s.mem ∧ (modIncoming s p msg f).larder = s.larder ∧
    (modIncoming s p msg f).reg = s.reg ∧ (modIncoming s p msg f).trans = s.trans ∧
    (modIncoming s p msg f).attic = s.attic ∧ (modIncoming s p msg f).link = s.link ∧
    (modIncoming s p msg f).fresh = s.fresh ∧ (modIncoming s p msg f).out = s.out ∧
    (modIncoming s p msg f).pending = s.pending := by
  unfold modIncoming
  simp

@[simp] theorem dropIncoming_frame (s : State) (p msg : Nat) :
    (dropIncoming s p msg).time = s.time ∧ (dropIncoming s p msg).cp = s.cp ∧ (dropIncoming s p msg).part = s.part ∧
    (dropIncoming s p msg).err = s.err ∧ (dropIncoming s p msg).pwr = s.pwr ∧ (dropIncoming s p msg).mgmt = s.mgmt ∧
    (dropIncoming s p msg).boot = s.boot ∧ (dropIncoming s p msg).cells = s.cells ∧
    (dropIncoming s p msg).mem = s.mem ∧ (dropIncoming s p msg).larder = s.larder ∧
    (dropIncoming s p msg).reg = s.reg ∧ (dropIncoming s p msg).trans = s.trans ∧
    (dropIncoming s p msg).attic = s.attic ∧ (dropIncoming s p msg).link = s.link ∧
    (dropIncoming s p msg).fresh = s.fresh ∧ (dropIncoming s p msg).out = s.out ∧
    (dropIncoming s p msg).pending = s.pending := by
  unfold dropIncoming
  simp

@[simp] theorem sendReadRsp_frame (s : State) (p msg : Nat) (m : Incoming) :
    (sendReadRsp s p msg m).time = s.time ∧ (sendReadRsp s p msg m).cp = s.cp ∧
    (sendReadRsp s p msg m).part = s.part ∧ (sendReadRsp s p msg m).err = s.err ∧
    (sendReadRsp s p msg m).pwr = s.pwr ∧ (sendReadRsp s p msg m).mgmt = s.mgmt ∧
    (sendReadRsp s p msg m).boot = s.boot ∧ (sendReadRsp s p msg m).cells = s.cells ∧
    (sendReadRsp s p msg m).mem = s.mem ∧ (sendReadRsp s p msg m).larder = s.larder ∧
    (sendReadRsp s p msg m).reg = s.reg ∧ (sendReadRsp s p msg m).trans = s.trans ∧
    (sendReadRsp s p msg m).attic = s.attic ∧ (sendReadRsp s p msg m).link = s.link ∧
    (sendReadRsp s p msg m).fresh = s.fresh ∧ (sendReadRsp s p msg m).pending = s.pending := by
  unfold sendReadRsp
  simp

@[simp] theorem settleIncoming_frame (s : State) (p msg : Nat) :
    (settleIncoming s p msg).time = s.time ∧ (settleIncoming s p msg).cp = s.cp ∧
    (settleIncoming s p msg).part = s.part ∧ (settleIncoming s p msg).err = s.err ∧
    (settleIncoming s p msg).pwr = s.pwr ∧ (settleIncoming s p msg).mgmt = s.mgmt ∧
    (settleIncoming s p msg).boot = s.boot ∧ (settleIncoming s p msg).cells = s.cells ∧
    (settleIncoming s p msg).mem = s.mem ∧ (settleIncoming s p msg).larder = s.larder ∧
    (settleIncoming s p msg).reg = s.reg ∧ (settleIncoming s p msg).trans = s.trans ∧
    (settleIncoming s p msg).attic = s.attic ∧ (settleIncoming s p msg).link = s.link ∧
    (settleIncoming s p msg).fresh = s.fresh ∧ (settleIncoming s p msg).pending = s.pending := by
  unfold settleIncoming
  (try dsimp only)
  (repeat' (split <;> try (rename_i hp; first | (obtain ⟨rfl, rfl⟩ := Prod.ext_iff.mp hp) | (obtain ⟨rfl, hq⟩ := Prod.ext_iff.mp hp; obtain ⟨rfl, rfl⟩ := Prod.ext_iff.mp hq) | (obtain ⟨rfl, hq⟩ := Prod.ext_iff.mp hp; obtain ⟨rfl, _⟩ := Prod.ext_iff.mp hq) | (obtain ⟨_, hq⟩ := Prod.ext_iff.mp hp; obtain ⟨rfl, _⟩ := Prod.ext_iff.mp hq) | (obtain ⟨rfl, _⟩ := Prod.ext_iff.mp hp) | (obtain ⟨_, rfl⟩ := Prod.ext_iff.mp hp)))) <;> first | rfl | (simp; done) | (simp_all; done)

@[simp] theorem chordTxn_frame (s : State) (e p part : Nat) (k : Packet) (t : Txn) :
    (chordTxn s e p part k t).time = s.time ∧ (chordTxn s e p part k t).cp = s.cp ∧
    (chordTxn s e p part k t).part = s.part ∧ (chordTxn s e p part k t).err = s.err ∧
    (chordTxn s e p part k t).pwr = s.pwr ∧ (chordTxn s e p part k t).mgmt = s.mgmt ∧
    (chordTxn s e p part k t).boot = s.boot ∧ (chordTxn s e p part k t).larder = s.larder ∧
    (chordTxn s e p part k t).reg = s.reg ∧ (chordTxn s e p part k t).trans = s.trans ∧
    (chordTxn s e p part k t).attic = s.attic ∧ (chordTxn s e p part k t).link = s.link ∧
    (chordTxn s e p part k t).chord = s.chord ∧ (chordTxn s e p part k t).fresh = s.fresh ∧
    (chordTxn s e p part k t).out = s.out ∧ (chordTxn s e p part k t).pending = s.pending := by
  unfold chordTxn
  simp

@[simp] theorem chordPut_frame (s : State) (e p part a : Nat) (k : Packet) (b : Bytes) (pz : Nat → Bool) :
    (chordPut s e p part a k b pz).time = s.time ∧ (chordPut s e p part a k b pz).cp = s.cp ∧
    (chordPut s e p part a k b pz).part = s.part ∧ (chordPut s e p part a k b pz).err = s.err ∧
    (chordPut s e p part a k b pz).pwr = s.pwr ∧ (chordPut s e p part a k b pz).mgmt = s.mgmt ∧
    (chordPut s e p part a k b pz).boot = s.boot ∧ (chordPut s e p part a k b pz).larder = s.larder ∧
    (chordPut s e p part a k b pz).reg = s.reg ∧ (chordPut s e p part a k b pz).trans = s.trans ∧
    (chordPut s e p part a k b pz).attic = s.attic ∧ (chordPut s e p part a k b pz).link = s.link ∧
    (chordPut s e p part a k b pz).chord = s.chord ∧ (chordPut s e p part a k b pz).fresh = s.fresh ∧
    (chordPut s e p part a k b pz).out = s.out ∧ (chordPut s e p part a k b pz).pending = s.pending := by
  unfold chordPut
  simp

@[simp] theorem txnDone_frame (s : State) (n : Nat) (f : Txn → Txn) :
    (txnDone s n f).time = s.time ∧ (txnDone s n f).cp = s.cp ∧ (txnDone s n f).part = s.part ∧
    (txnDone s n f).err = s.err ∧ (txnDone s n f).pwr = s.pwr ∧ (txnDone s n f).mgmt = s.mgmt ∧
    (txnDone s n f).boot = s.boot ∧ (txnDone s n f).cells = s.cells ∧ (txnDone s n f).larder = s.larder ∧
    (txnDone s n f).reg = s.reg ∧ (txnDone s n f).trans = s.trans ∧ (txnDone s n f).attic = s.attic ∧
    (txnDone s n f).link = s.link ∧ (txnDone s n f).chord = s.chord ∧ (txnDone s n f).fresh = s.fresh ∧
    (txnDone s n f).out = s.out ∧ (txnDone s n f).pending = s.pending := by
  unfold txnDone
  simp

@[simp] theorem txnFails_frame (s : State) (n code : Nat) :
    (txnFails s n code).time = s.time ∧ (txnFails s n code).cp = s.cp ∧ (txnFails s n code).part = s.part ∧
    (txnFails s n code).err = s.err ∧ (txnFails s n code).pwr = s.pwr ∧ (txnFails s n code).mgmt = s.mgmt ∧
    (txnFails s n code).boot = s.boot ∧ (txnFails s n code).cells = s.cells ∧ (txnFails s n code).larder = s.larder ∧
    (txnFails s n code).reg = s.reg ∧ (txnFails s n code).trans = s.trans ∧ (txnFails s n code).attic = s.attic ∧
    (txnFails s n code).link = s.link ∧ (txnFails s n code).chord = s.chord ∧ (txnFails s n code).fresh = s.fresh ∧
    (txnFails s n code).out = s.out ∧ (txnFails s n code).pending = s.pending := by
  unfold txnFails
  (try dsimp only)
  (repeat' (split <;> try (rename_i hp; first | (obtain ⟨rfl, rfl⟩ := Prod.ext_iff.mp hp) | (obtain ⟨rfl, hq⟩ := Prod.ext_iff.mp hp; obtain ⟨rfl, rfl⟩ := Prod.ext_iff.mp hq) | (obtain ⟨rfl, hq⟩ := Prod.ext_iff.mp hp; obtain ⟨rfl, _⟩ := Prod.ext_iff.mp hq) | (obtain ⟨_, hq⟩ := Prod.ext_iff.mp hp; obtain ⟨rfl, _⟩ := Prod.ext_iff.mp hq) | (obtain ⟨rfl, _⟩ := Prod.ext_iff.mp hp) | (obtain ⟨_, rfl⟩ := Prod.ext_iff.mp hp)))) <;> first | rfl | (simp; done) | (simp_all; done)

@[simp] theorem endMessage_frame (s : State) (p id st : Nat) :
    (endMessage s p id st).time = s.time ∧ (endMessage s p id st).part = s.part ∧ (endMessage s p id st).pwr = s.pwr ∧
    (endMessage s p id st).boot = s.boot ∧ (endMessage s p id st).reg = s.reg ∧ (endMessage s p id st).link = s.link ∧
    (endMessage s p id st).pending = s.pending := by
  unfold endMessage
  (try dsimp only)
  (repeat' (split <;> try (rename_i hp; first | (obtain ⟨rfl, rfl⟩ := Prod.ext_iff.mp hp) | (obtain ⟨rfl, hq⟩ := Prod.ext_iff.mp hp; obtain ⟨rfl, rfl⟩ := Prod.ext_iff.mp hq) | (obtain ⟨rfl, hq⟩ := Prod.ext_iff.mp hp; obtain ⟨rfl, _⟩ := Prod.ext_iff.mp hq) | (obtain ⟨_, hq⟩ := Prod.ext_iff.mp hp; obtain ⟨rfl, _⟩ := Prod.ext_iff.mp hq) | (obtain ⟨rfl, _⟩ := Prod.ext_iff.mp hp) | (obtain ⟨_, rfl⟩ := Prod.ext_iff.mp hp)))) <;> first | rfl | (simp; done) | (simp_all; done)

@[simp] theorem gather_frame (s : State) (p : Nat) (k : Packet) (pt : Nat) :
    (gather s p k pt).1.time = s.time ∧ (gather s p k pt).1.cp = s.cp ∧ (gather s p k pt).1.part = s.part ∧
    (gather s p k pt).1.err = s.err ∧ (gather s p k pt).1.pwr = s.pwr ∧ (gather s p k pt).1.mgmt = s.mgmt ∧
    (gather s p k pt).1.boot = s.boot ∧ (gather s p k pt).1.cells = s.cells ∧ (gather s p k pt).1.mem = s.mem ∧
    (gather s p k pt).1.larder = s.larder ∧ (gather s p k pt).1.reg = s.reg ∧ (gather s p k pt).1.trans = s.trans ∧
    (gather s p k pt).1.attic = s.attic ∧ (gather s p k pt).1.link = s.link ∧ (gather s p k pt).1.fresh = s.fresh ∧
    (gather s p k pt).1.out = s.out ∧ (gather s p k pt).1.pending = s.pending := by
  unfold gather
  simp

@[simp] theorem refuseStep_frame (s : State) (p msg : Nat) (st : Status) :
    (refuseStep s p msg st).time = s.time ∧ (refuseStep s p msg st).cp = s.cp ∧
    (refuseStep s p msg st).part = s.part ∧ (refuseStep s p msg st).err = s.err ∧
    (refuseStep s p msg st).pwr = s.pwr ∧ (refuseStep s p msg st).mgmt = s.mgmt ∧
    (refuseStep s p msg st).boot = s.boot ∧ (refuseStep s p msg st).cells = s.cells ∧
    (refuseStep s p msg st).mem = s.mem ∧ (refuseStep s p msg st).larder = s.larder ∧
    (refuseStep s p msg st).reg = s.reg ∧ (refuseStep s p msg st).trans = s.trans ∧
    (refuseStep s p msg st).attic = s.attic ∧ (refuseStep s p msg st).link = s.link ∧
    (refuseStep s p msg st).fresh = s.fresh ∧ (refuseStep s p msg st).pending = s.pending := by
  unfold refuseStep
  simp

@[simp] theorem resend_frame (s : State) (p psn : Nat) :
    (resend s p psn).time = s.time ∧ (resend s p psn).cp = s.cp ∧ (resend s p psn).part = s.part ∧
    (resend s p psn).err = s.err ∧ (resend s p psn).pwr = s.pwr ∧ (resend s p psn).mgmt = s.mgmt ∧
    (resend s p psn).boot = s.boot ∧ (resend s p psn).cells = s.cells ∧ (resend s p psn).mem = s.mem ∧
    (resend s p psn).larder = s.larder ∧ (resend s p psn).reg = s.reg ∧ (resend s p psn).trans = s.trans ∧
    (resend s p psn).attic = s.attic ∧ (resend s p psn).link = s.link ∧ (resend s p psn).fresh = s.fresh ∧
    (resend s p psn).pending = s.pending := by
  unfold resend
  (try dsimp only)
  (repeat' (split <;> try (rename_i hp; first | (obtain ⟨rfl, rfl⟩ := Prod.ext_iff.mp hp) | (obtain ⟨rfl, hq⟩ := Prod.ext_iff.mp hp; obtain ⟨rfl, rfl⟩ := Prod.ext_iff.mp hq) | (obtain ⟨rfl, hq⟩ := Prod.ext_iff.mp hp; obtain ⟨rfl, _⟩ := Prod.ext_iff.mp hq) | (obtain ⟨_, hq⟩ := Prod.ext_iff.mp hp; obtain ⟨rfl, _⟩ := Prod.ext_iff.mp hq) | (obtain ⟨rfl, _⟩ := Prod.ext_iff.mp hp) | (obtain ⟨_, rfl⟩ := Prod.ext_iff.mp hp)))) <;> first | rfl | (simp; done) | (simp_all; done)

@[simp] theorem resendFrom_frame (s : State) (engine acked : Nat) :
    (resendFrom s engine acked).time = s.time ∧ (resendFrom s engine acked).cp = s.cp ∧ (resendFrom s engine acked).part = s.part ∧
    (resendFrom s engine acked).err = s.err ∧ (resendFrom s engine acked).pwr = s.pwr ∧ (resendFrom s engine acked).mgmt = s.mgmt ∧
    (resendFrom s engine acked).boot = s.boot ∧ (resendFrom s engine acked).cells = s.cells ∧ (resendFrom s engine acked).mem = s.mem ∧
    (resendFrom s engine acked).larder = s.larder ∧ (resendFrom s engine acked).reg = s.reg ∧
    (resendFrom s engine acked).trans = s.trans ∧ (resendFrom s engine acked).attic = s.attic ∧
    (resendFrom s engine acked).link = s.link ∧ (resendFrom s engine acked).fresh = s.fresh ∧
    (resendFrom s engine acked).pending = s.pending := by
  unfold resendFrom
  simp

@[simp] theorem losePeerPages_frame (s : State) (x : Peer) :
    (losePeerPages s x).time = s.time ∧ (losePeerPages s x).part = s.part ∧ (losePeerPages s x).pwr = s.pwr ∧
    (losePeerPages s x).boot = s.boot ∧ (losePeerPages s x).cells = s.cells ∧ (losePeerPages s x).mem = s.mem ∧
    (losePeerPages s x).reg = s.reg ∧ (losePeerPages s x).trans = s.trans ∧ (losePeerPages s x).attic = s.attic ∧
    (losePeerPages s x).link = s.link ∧ (losePeerPages s x).chord = s.chord ∧ (losePeerPages s x).fresh = s.fresh ∧
    (losePeerPages s x).pending = s.pending := by
  unfold losePeerPages
  simp

end Sys2Proof.Machine
end

