-- ==== Sys2Proof/Laws/FramePeerCmds.lean ====
section
/-! SUPPORT. What each operation of Machine/PeerCmds.lean leaves as it was, by component of the state. -/
set_option maxRecDepth 4000
set_option exponentiation.threshold 2000
namespace Sys2Proof.Machine

@[simp] theorem clearWindow_frame (s : State) (n w : Nat) :
    (clearWindow s n w).time = s.time ∧ (clearWindow s n w).cp = s.cp ∧ (clearWindow s n w).part = s.part ∧
    (clearWindow s n w).err = s.err ∧ (clearWindow s n w).pwr = s.pwr ∧ (clearWindow s n w).mgmt = s.mgmt ∧
    (clearWindow s n w).boot = s.boot ∧ (clearWindow s n w).cells = s.cells ∧ (clearWindow s n w).mem = s.mem ∧
    (clearWindow s n w).larder = s.larder ∧ (clearWindow s n w).reg = s.reg ∧ (clearWindow s n w).trans = s.trans ∧
    (clearWindow s n w).attic = s.attic ∧ (clearWindow s n w).link = s.link ∧ (clearWindow s n w).fresh = s.fresh ∧
    (clearWindow s n w).out = s.out ∧ (clearWindow s n w).pending = s.pending := by
  unfold clearWindow
  simp

end Sys2Proof.Machine
end

