-- ==== Sys2Proof/Laws/FrameLinks.lean ====
section
/-! SUPPORT. What each operation of Machine/Links.lean leaves as it was, by component of the state. -/
set_option maxRecDepth 4000
set_option exponentiation.threshold 2000
namespace Sys2Proof.Machine

@[simp] theorem raiseLink_frame (s : State) (e : Nat) (ev : EventCode) (reason : Nat) (old : Engine) :
    (raiseLink s e ev reason old).time = s.time ∧ (raiseLink s e ev reason old).part = s.part ∧
    (raiseLink s e ev reason old).err = s.err ∧ (raiseLink s e ev reason old).pwr = s.pwr ∧
    (raiseLink s e ev reason old).boot = s.boot ∧ (raiseLink s e ev reason old).cells = s.cells ∧
    (raiseLink s e ev reason old).mem = s.mem ∧ (raiseLink s e ev reason old).larder = s.larder ∧
    (raiseLink s e ev reason old).reg = s.reg ∧ (raiseLink s e ev reason old).trans = s.trans ∧
    (raiseLink s e ev reason old).attic = s.attic ∧ (raiseLink s e ev reason old).link = s.link ∧
    (raiseLink s e ev reason old).chord = s.chord ∧ (raiseLink s e ev reason old).fresh = s.fresh ∧
    (raiseLink s e ev reason old).pending = s.pending := by
  unfold raiseLink
  simp

@[simp] theorem rebuildRoutes_frame (s : State) :
    (rebuildRoutes s).time = s.time ∧ (rebuildRoutes s).cp = s.cp ∧ (rebuildRoutes s).part = s.part ∧
    (rebuildRoutes s).err = s.err ∧ (rebuildRoutes s).pwr = s.pwr ∧ (rebuildRoutes s).mgmt = s.mgmt ∧
    (rebuildRoutes s).boot = s.boot ∧ (rebuildRoutes s).cells = s.cells ∧ (rebuildRoutes s).mem = s.mem ∧
    (rebuildRoutes s).larder = s.larder ∧ (rebuildRoutes s).reg = s.reg ∧ (rebuildRoutes s).trans = s.trans ∧
    (rebuildRoutes s).attic = s.attic ∧ (rebuildRoutes s).link = s.link ∧ (rebuildRoutes s).fresh = s.fresh ∧
    (rebuildRoutes s).pending = s.pending := by
  unfold rebuildRoutes
  simp

@[simp] theorem modLane_frame (s : State) (e l : Nat) (f : Lane → Lane) :
    (modLane s e l f).time = s.time ∧ (modLane s e l f).cp = s.cp ∧ (modLane s e l f).part = s.part ∧
    (modLane s e l f).err = s.err ∧ (modLane s e l f).pwr = s.pwr ∧ (modLane s e l f).mgmt = s.mgmt ∧
    (modLane s e l f).boot = s.boot ∧ (modLane s e l f).cells = s.cells ∧ (modLane s e l f).mem = s.mem ∧
    (modLane s e l f).larder = s.larder ∧ (modLane s e l f).reg = s.reg ∧ (modLane s e l f).trans = s.trans ∧
    (modLane s e l f).attic = s.attic ∧ (modLane s e l f).chord = s.chord ∧ (modLane s e l f).fresh = s.fresh ∧
    (modLane s e l f).out = s.out ∧ (modLane s e l f).pending = s.pending := by
  unfold modLane
  simp

@[simp] theorem endLinkCmds_frame (s : State) (e : Nat) (p : Nat × Nat → Bool) :
    (endLinkCmds s e p).time = s.time ∧ (endLinkCmds s e p).part = s.part ∧ (endLinkCmds s e p).err = s.err ∧
    (endLinkCmds s e p).pwr = s.pwr ∧ (endLinkCmds s e p).boot = s.boot ∧ (endLinkCmds s e p).cells = s.cells ∧
    (endLinkCmds s e p).mem = s.mem ∧ (endLinkCmds s e p).larder = s.larder ∧ (endLinkCmds s e p).reg = s.reg ∧
    (endLinkCmds s e p).trans = s.trans ∧ (endLinkCmds s e p).attic = s.attic ∧ (endLinkCmds s e p).chord = s.chord ∧
    (endLinkCmds s e p).fresh = s.fresh ∧ (endLinkCmds s e p).pending = s.pending := by
  unfold endLinkCmds
  simp

@[simp] theorem startTraining_frame (s : State) (e : Nat) :
    (startTraining s e).time = s.time ∧ (startTraining s e).part = s.part ∧ (startTraining s e).err = s.err ∧
    (startTraining s e).pwr = s.pwr ∧ (startTraining s e).boot = s.boot ∧ (startTraining s e).cells = s.cells ∧
    (startTraining s e).mem = s.mem ∧ (startTraining s e).larder = s.larder ∧ (startTraining s e).reg = s.reg ∧
    (startTraining s e).trans = s.trans ∧ (startTraining s e).attic = s.attic ∧ (startTraining s e).chord = s.chord ∧
    (startTraining s e).fresh = s.fresh ∧ (startTraining s e).pending = s.pending := by
  unfold startTraining
  simp

@[simp] theorem dropLinkLayer_frame (s : State) (e : Nat) :
    (dropLinkLayer s e).part = s.part ∧ (dropLinkLayer s e).err = s.err ∧ (dropLinkLayer s e).pwr = s.pwr ∧
    (dropLinkLayer s e).boot = s.boot ∧ (dropLinkLayer s e).cells = s.cells ∧ (dropLinkLayer s e).mem = s.mem ∧
    (dropLinkLayer s e).larder = s.larder ∧ (dropLinkLayer s e).reg = s.reg ∧ (dropLinkLayer s e).trans = s.trans ∧
    (dropLinkLayer s e).attic = s.attic ∧ (dropLinkLayer s e).link = s.link ∧ (dropLinkLayer s e).fresh = s.fresh ∧
    (dropLinkLayer s e).pending = s.pending := by
  unfold dropLinkLayer
  simp

@[simp] theorem dropPtp_frame (s : State) (e : Nat) :
    (dropPtp s e).part = s.part ∧ (dropPtp s e).err = s.err ∧ (dropPtp s e).pwr = s.pwr ∧
    (dropPtp s e).boot = s.boot ∧ (dropPtp s e).cells = s.cells ∧ (dropPtp s e).mem = s.mem ∧
    (dropPtp s e).larder = s.larder ∧ (dropPtp s e).reg = s.reg ∧ (dropPtp s e).trans = s.trans ∧
    (dropPtp s e).attic = s.attic ∧ (dropPtp s e).link = s.link ∧ (dropPtp s e).chord = s.chord ∧
    (dropPtp s e).fresh = s.fresh ∧ (dropPtp s e).pending = s.pending := by
  unfold dropPtp
  simp

@[simp] theorem linkDown_frame (s : State) (e reason : Nat) (leaving : Bool) :
    (linkDown s e reason leaving).part = s.part ∧ (linkDown s e reason leaving).err = s.err ∧
    (linkDown s e reason leaving).pwr = s.pwr ∧ (linkDown s e reason leaving).boot = s.boot ∧
    (linkDown s e reason leaving).cells = s.cells ∧ (linkDown s e reason leaving).mem = s.mem ∧
    (linkDown s e reason leaving).larder = s.larder ∧ (linkDown s e reason leaving).reg = s.reg ∧
    (linkDown s e reason leaving).trans = s.trans ∧ (linkDown s e reason leaving).attic = s.attic ∧
    (linkDown s e reason leaving).fresh = s.fresh ∧ (linkDown s e reason leaving).pending = s.pending := by
  unfold linkDown
  simp

@[simp] theorem beginLeaving_frame (s : State) (e reason : Nat) :
    (beginLeaving s e reason).time = s.time ∧ (beginLeaving s e reason).cp = s.cp ∧
    (beginLeaving s e reason).part = s.part ∧ (beginLeaving s e reason).err = s.err ∧
    (beginLeaving s e reason).pwr = s.pwr ∧ (beginLeaving s e reason).mgmt = s.mgmt ∧
    (beginLeaving s e reason).boot = s.boot ∧ (beginLeaving s e reason).cells = s.cells ∧
    (beginLeaving s e reason).mem = s.mem ∧ (beginLeaving s e reason).larder = s.larder ∧
    (beginLeaving s e reason).reg = s.reg ∧ (beginLeaving s e reason).trans = s.trans ∧
    (beginLeaving s e reason).attic = s.attic ∧ (beginLeaving s e reason).chord = s.chord ∧
    (beginLeaving s e reason).fresh = s.fresh ∧ (beginLeaving s e reason).out = s.out ∧
    (beginLeaving s e reason).pending = s.pending := by
  unfold beginLeaving
  simp

@[simp] theorem retrainEngine_frame (s : State) (e : Nat) :
    (retrainEngine s e).part = s.part ∧ (retrainEngine s e).err = s.err ∧ (retrainEngine s e).pwr = s.pwr ∧
    (retrainEngine s e).boot = s.boot ∧ (retrainEngine s e).cells = s.cells ∧ (retrainEngine s e).mem = s.mem ∧
    (retrainEngine s e).larder = s.larder ∧ (retrainEngine s e).reg = s.reg ∧ (retrainEngine s e).trans = s.trans ∧
    (retrainEngine s e).attic = s.attic ∧ (retrainEngine s e).fresh = s.fresh ∧
    (retrainEngine s e).pending = s.pending := by
  unfold retrainEngine
  simp

@[simp] theorem engineLeaves_frame (s : State) (e : Nat) :
    (engineLeaves s e).time = s.time ∧ (engineLeaves s e).cp = s.cp ∧ (engineLeaves s e).part = s.part ∧
    (engineLeaves s e).err = s.err ∧ (engineLeaves s e).pwr = s.pwr ∧ (engineLeaves s e).mgmt = s.mgmt ∧
    (engineLeaves s e).boot = s.boot ∧ (engineLeaves s e).cells = s.cells ∧ (engineLeaves s e).mem = s.mem ∧
    (engineLeaves s e).larder = s.larder ∧ (engineLeaves s e).reg = s.reg ∧ (engineLeaves s e).trans = s.trans ∧
    (engineLeaves s e).attic = s.attic ∧ (engineLeaves s e).chord = s.chord ∧ (engineLeaves s e).fresh = s.fresh ∧
    (engineLeaves s e).out = s.out ∧ (engineLeaves s e).pending = s.pending := by
  unfold engineLeaves
  simp

@[simp] theorem engineOff_frame (s : State) (e : Nat) :
    (engineOff s e).part = s.part ∧ (engineOff s e).err = s.err ∧ (engineOff s e).pwr = s.pwr ∧
    (engineOff s e).boot = s.boot ∧ (engineOff s e).cells = s.cells ∧ (engineOff s e).mem = s.mem ∧
    (engineOff s e).larder = s.larder ∧ (engineOff s e).reg = s.reg ∧ (engineOff s e).trans = s.trans ∧
    (engineOff s e).attic = s.attic ∧ (engineOff s e).fresh = s.fresh ∧ (engineOff s e).pending = s.pending := by
  unfold engineOff
  simp

@[simp] theorem engineOn_frame (s : State) (e : Nat) :
    (engineOn s e).time = s.time ∧ (engineOn s e).part = s.part ∧ (engineOn s e).err = s.err ∧
    (engineOn s e).pwr = s.pwr ∧ (engineOn s e).boot = s.boot ∧ (engineOn s e).cells = s.cells ∧
    (engineOn s e).mem = s.mem ∧ (engineOn s e).larder = s.larder ∧ (engineOn s e).reg = s.reg ∧
    (engineOn s e).trans = s.trans ∧ (engineOn s e).attic = s.attic ∧ (engineOn s e).chord = s.chord ∧
    (engineOn s e).fresh = s.fresh ∧ (engineOn s e).pending = s.pending := by
  unfold engineOn
  simp

@[simp] theorem activateLanes_frame (s : State) (e : Nat) :
    (activateLanes s e).time = s.time ∧ (activateLanes s e).cp = s.cp ∧ (activateLanes s e).part = s.part ∧
    (activateLanes s e).err = s.err ∧ (activateLanes s e).pwr = s.pwr ∧ (activateLanes s e).mgmt = s.mgmt ∧
    (activateLanes s e).boot = s.boot ∧ (activateLanes s e).cells = s.cells ∧ (activateLanes s e).mem = s.mem ∧
    (activateLanes s e).larder = s.larder ∧ (activateLanes s e).reg = s.reg ∧ (activateLanes s e).trans = s.trans ∧
    (activateLanes s e).attic = s.attic ∧ (activateLanes s e).chord = s.chord ∧ (activateLanes s e).fresh = s.fresh ∧
    (activateLanes s e).out = s.out ∧ (activateLanes s e).pending = s.pending := by
  unfold activateLanes
  simp

@[simp] theorem linkUp_frame (s : State) (e : Nat) (old : Engine) :
    (linkUp s e old).time = s.time ∧ (linkUp s e old).part = s.part ∧ (linkUp s e old).err = s.err ∧
    (linkUp s e old).pwr = s.pwr ∧ (linkUp s e old).boot = s.boot ∧ (linkUp s e old).cells = s.cells ∧
    (linkUp s e old).mem = s.mem ∧ (linkUp s e old).larder = s.larder ∧ (linkUp s e old).reg = s.reg ∧
    (linkUp s e old).trans = s.trans ∧ (linkUp s e old).attic = s.attic ∧ (linkUp s e old).fresh = s.fresh ∧
    (linkUp s e old).pending = s.pending := by
  unfold linkUp
  simp

@[simp] theorem maybeUp_frame (s : State) (e : Nat) (before : Engine) :
    (maybeUp s e before).time = s.time ∧ (maybeUp s e before).part = s.part ∧ (maybeUp s e before).err = s.err ∧
    (maybeUp s e before).pwr = s.pwr ∧ (maybeUp s e before).boot = s.boot ∧ (maybeUp s e before).cells = s.cells ∧
    (maybeUp s e before).mem = s.mem ∧ (maybeUp s e before).larder = s.larder ∧ (maybeUp s e before).reg = s.reg ∧
    (maybeUp s e before).trans = s.trans ∧ (maybeUp s e before).attic = s.attic ∧
    (maybeUp s e before).fresh = s.fresh ∧ (maybeUp s e before).pending = s.pending := by
  unfold maybeUp
  simp

@[simp] theorem widthChanged_frame (s : State) (e : Nat) (before : Engine) :
    (widthChanged s e before).time = s.time ∧ (widthChanged s e before).part = s.part ∧
    (widthChanged s e before).err = s.err ∧ (widthChanged s e before).pwr = s.pwr ∧
    (widthChanged s e before).boot = s.boot ∧ (widthChanged s e before).cells = s.cells ∧
    (widthChanged s e before).mem = s.mem ∧ (widthChanged s e before).larder = s.larder ∧
    (widthChanged s e before).reg = s.reg ∧ (widthChanged s e before).trans = s.trans ∧
    (widthChanged s e before).attic = s.attic ∧ (widthChanged s e before).chord = s.chord ∧
    (widthChanged s e before).fresh = s.fresh ∧ (widthChanged s e before).pending = s.pending := by
  unfold widthChanged
  simp

@[simp] theorem settleMasks_frame (s : State) (e : Nat) (before : Engine) :
    (settleMasks s e before).time = s.time ∧ (settleMasks s e before).part = s.part ∧
    (settleMasks s e before).err = s.err ∧ (settleMasks s e before).pwr = s.pwr ∧
    (settleMasks s e before).boot = s.boot ∧ (settleMasks s e before).cells = s.cells ∧
    (settleMasks s e before).mem = s.mem ∧ (settleMasks s e before).larder = s.larder ∧
    (settleMasks s e before).reg = s.reg ∧ (settleMasks s e before).trans = s.trans ∧
    (settleMasks s e before).attic = s.attic ∧ (settleMasks s e before).fresh = s.fresh ∧
    (settleMasks s e before).pending = s.pending := by
  unfold settleMasks
  (try dsimp only)
  (repeat' (split <;> try (rename_i hp; first | (obtain ⟨rfl, rfl⟩ := Prod.ext_iff.mp hp) | (obtain ⟨rfl, hq⟩ := Prod.ext_iff.mp hp; obtain ⟨rfl, rfl⟩ := Prod.ext_iff.mp hq) | (obtain ⟨rfl, hq⟩ := Prod.ext_iff.mp hp; obtain ⟨rfl, _⟩ := Prod.ext_iff.mp hq) | (obtain ⟨_, hq⟩ := Prod.ext_iff.mp hp; obtain ⟨rfl, _⟩ := Prod.ext_iff.mp hq) | (obtain ⟨rfl, _⟩ := Prod.ext_iff.mp hp) | (obtain ⟨_, rfl⟩ := Prod.ext_iff.mp hp)))) <;> first | rfl | (simp; done) | (simp_all; done)

@[simp] theorem laneLeaves_frame (s : State) (e l reason : Nat) :
    (laneLeaves s e l reason).time = s.time ∧ (laneLeaves s e l reason).cp = s.cp ∧
    (laneLeaves s e l reason).part = s.part ∧ (laneLeaves s e l reason).err = s.err ∧
    (laneLeaves s e l reason).pwr = s.pwr ∧ (laneLeaves s e l reason).mgmt = s.mgmt ∧
    (laneLeaves s e l reason).boot = s.boot ∧ (laneLeaves s e l reason).cells = s.cells ∧
    (laneLeaves s e l reason).mem = s.mem ∧ (laneLeaves s e l reason).larder = s.larder ∧
    (laneLeaves s e l reason).reg = s.reg ∧ (laneLeaves s e l reason).trans = s.trans ∧
    (laneLeaves s e l reason).attic = s.attic ∧ (laneLeaves s e l reason).chord = s.chord ∧
    (laneLeaves s e l reason).fresh = s.fresh ∧ (laneLeaves s e l reason).out = s.out ∧
    (laneLeaves s e l reason).pending = s.pending := by
  unfold laneLeaves
  simp

@[simp] theorem settleRx_frame (s : State) (e : Nat) :
    (settleRx s e).part = s.part ∧ (settleRx s e).err = s.err ∧ (settleRx s e).pwr = s.pwr ∧
    (settleRx s e).boot = s.boot ∧ (settleRx s e).cells = s.cells ∧ (settleRx s e).mem = s.mem ∧
    (settleRx s e).larder = s.larder ∧ (settleRx s e).reg = s.reg ∧ (settleRx s e).trans = s.trans ∧
    (settleRx s e).attic = s.attic ∧ (settleRx s e).fresh = s.fresh ∧ (settleRx s e).pending = s.pending := by
  unfold settleRx
  simp

@[simp] theorem joinMask_frame (s : State) (e lane : Nat) :
    (joinMask s e lane).time = s.time ∧ (joinMask s e lane).cp = s.cp ∧ (joinMask s e lane).part = s.part ∧
    (joinMask s e lane).err = s.err ∧ (joinMask s e lane).pwr = s.pwr ∧ (joinMask s e lane).mgmt = s.mgmt ∧
    (joinMask s e lane).boot = s.boot ∧ (joinMask s e lane).cells = s.cells ∧ (joinMask s e lane).mem = s.mem ∧
    (joinMask s e lane).larder = s.larder ∧ (joinMask s e lane).reg = s.reg ∧ (joinMask s e lane).trans = s.trans ∧
    (joinMask s e lane).attic = s.attic ∧ (joinMask s e lane).chord = s.chord ∧ (joinMask s e lane).fresh = s.fresh ∧
    (joinMask s e lane).out = s.out ∧ (joinMask s e lane).pending = s.pending := by
  unfold joinMask
  simp

@[simp] theorem notePartner_frame (s : State) (e : Nat) (m : Marker) :
    (notePartner s e m).time = s.time ∧ (notePartner s e m).cp = s.cp ∧ (notePartner s e m).part = s.part ∧
    (notePartner s e m).err = s.err ∧ (notePartner s e m).pwr = s.pwr ∧ (notePartner s e m).mgmt = s.mgmt ∧
    (notePartner s e m).boot = s.boot ∧ (notePartner s e m).cells = s.cells ∧ (notePartner s e m).mem = s.mem ∧
    (notePartner s e m).larder = s.larder ∧ (notePartner s e m).reg = s.reg ∧ (notePartner s e m).trans = s.trans ∧
    (notePartner s e m).attic = s.attic ∧ (notePartner s e m).chord = s.chord ∧ (notePartner s e m).fresh = s.fresh ∧
    (notePartner s e m).out = s.out ∧ (notePartner s e m).pending = s.pending := by
  unfold notePartner
  simp

@[simp] theorem markerTime_frame (s : State) (e : Nat) (m : Marker) :
    (markerTime s e m).part = s.part ∧ (markerTime s e m).err = s.err ∧ (markerTime s e m).pwr = s.pwr ∧
    (markerTime s e m).boot = s.boot ∧ (markerTime s e m).cells = s.cells ∧ (markerTime s e m).mem = s.mem ∧
    (markerTime s e m).larder = s.larder ∧ (markerTime s e m).reg = s.reg ∧ (markerTime s e m).trans = s.trans ∧
    (markerTime s e m).attic = s.attic ∧ (markerTime s e m).link = s.link ∧ (markerTime s e m).chord = s.chord ∧
    (markerTime s e m).pending = s.pending := by
  unfold markerTime
  (try dsimp only)
  (repeat' (split <;> try (rename_i hp; first | (obtain ⟨rfl, rfl⟩ := Prod.ext_iff.mp hp) | (obtain ⟨rfl, hq⟩ := Prod.ext_iff.mp hp; obtain ⟨rfl, rfl⟩ := Prod.ext_iff.mp hq) | (obtain ⟨rfl, hq⟩ := Prod.ext_iff.mp hp; obtain ⟨rfl, _⟩ := Prod.ext_iff.mp hq) | (obtain ⟨_, hq⟩ := Prod.ext_iff.mp hp; obtain ⟨rfl, _⟩ := Prod.ext_iff.mp hq) | (obtain ⟨rfl, _⟩ := Prod.ext_iff.mp hp) | (obtain ⟨_, rfl⟩ := Prod.ext_iff.mp hp)))) <;> first | rfl | (simp; done) | (simp_all; done)

@[simp] theorem acceptMarker_frame (s : State) (e : Nat) (m : Marker) :
    (acceptMarker s e m).part = s.part ∧ (acceptMarker s e m).err = s.err ∧ (acceptMarker s e m).pwr = s.pwr ∧
    (acceptMarker s e m).boot = s.boot ∧ (acceptMarker s e m).cells = s.cells ∧ (acceptMarker s e m).mem = s.mem ∧
    (acceptMarker s e m).larder = s.larder ∧ (acceptMarker s e m).reg = s.reg ∧ (acceptMarker s e m).trans = s.trans ∧
    (acceptMarker s e m).attic = s.attic ∧ (acceptMarker s e m).pending = s.pending := by
  unfold acceptMarker
  simp

@[simp] theorem ptpMeasured_frame (s : State) (e : Nat) (off delay : Int) :
    (ptpMeasured s e off delay).part = s.part ∧ (ptpMeasured s e off delay).err = s.err ∧
    (ptpMeasured s e off delay).pwr = s.pwr ∧ (ptpMeasured s e off delay).boot = s.boot ∧
    (ptpMeasured s e off delay).cells = s.cells ∧ (ptpMeasured s e off delay).mem = s.mem ∧
    (ptpMeasured s e off delay).larder = s.larder ∧ (ptpMeasured s e off delay).reg = s.reg ∧
    (ptpMeasured s e off delay).trans = s.trans ∧ (ptpMeasured s e off delay).attic = s.attic ∧
    (ptpMeasured s e off delay).link = s.link ∧ (ptpMeasured s e off delay).chord = s.chord ∧
    (ptpMeasured s e off delay).pending = s.pending := by
  unfold ptpMeasured
  simp

@[simp] theorem ptpAskDelay_frame (s : State) (e : Nat) :
    (ptpAskDelay s e).cp = s.cp ∧ (ptpAskDelay s e).part = s.part ∧ (ptpAskDelay s e).err = s.err ∧
    (ptpAskDelay s e).pwr = s.pwr ∧ (ptpAskDelay s e).mgmt = s.mgmt ∧ (ptpAskDelay s e).boot = s.boot ∧
    (ptpAskDelay s e).cells = s.cells ∧ (ptpAskDelay s e).mem = s.mem ∧ (ptpAskDelay s e).larder = s.larder ∧
    (ptpAskDelay s e).reg = s.reg ∧ (ptpAskDelay s e).trans = s.trans ∧ (ptpAskDelay s e).attic = s.attic ∧
    (ptpAskDelay s e).link = s.link ∧ (ptpAskDelay s e).chord = s.chord ∧ (ptpAskDelay s e).fresh = s.fresh ∧
    (ptpAskDelay s e).pending = s.pending := by
  unfold ptpAskDelay
  simp

@[simp] theorem ptpTake_frame (s : State) (e : Nat) (m : PtpIn) :
    (ptpTake s e m).part = s.part ∧ (ptpTake s e m).err = s.err ∧ (ptpTake s e m).pwr = s.pwr ∧
    (ptpTake s e m).boot = s.boot ∧ (ptpTake s e m).cells = s.cells ∧ (ptpTake s e m).mem = s.mem ∧
    (ptpTake s e m).larder = s.larder ∧ (ptpTake s e m).reg = s.reg ∧ (ptpTake s e m).trans = s.trans ∧
    (ptpTake s e m).attic = s.attic ∧ (ptpTake s e m).link = s.link ∧ (ptpTake s e m).chord = s.chord ∧
    (ptpTake s e m).pending = s.pending := by
  unfold ptpTake
  (try dsimp only)
  (repeat' (split <;> try (rename_i hp; first | (obtain ⟨rfl, rfl⟩ := Prod.ext_iff.mp hp) | (obtain ⟨rfl, hq⟩ := Prod.ext_iff.mp hp; obtain ⟨rfl, rfl⟩ := Prod.ext_iff.mp hq) | (obtain ⟨rfl, hq⟩ := Prod.ext_iff.mp hp; obtain ⟨rfl, _⟩ := Prod.ext_iff.mp hq) | (obtain ⟨_, hq⟩ := Prod.ext_iff.mp hp; obtain ⟨rfl, _⟩ := Prod.ext_iff.mp hq) | (obtain ⟨rfl, _⟩ := Prod.ext_iff.mp hp) | (obtain ⟨_, rfl⟩ := Prod.ext_iff.mp hp)))) <;> first | rfl | (simp; done) | (simp_all; done)

@[simp] theorem ptpSyncs_frame (s : State) :
    (ptpSyncs s).cp = s.cp ∧ (ptpSyncs s).part = s.part ∧ (ptpSyncs s).err = s.err ∧ (ptpSyncs s).pwr = s.pwr ∧
    (ptpSyncs s).mgmt = s.mgmt ∧ (ptpSyncs s).boot = s.boot ∧ (ptpSyncs s).cells = s.cells ∧
    (ptpSyncs s).mem = s.mem ∧ (ptpSyncs s).larder = s.larder ∧ (ptpSyncs s).reg = s.reg ∧
    (ptpSyncs s).trans = s.trans ∧ (ptpSyncs s).attic = s.attic ∧ (ptpSyncs s).link = s.link ∧
    (ptpSyncs s).chord = s.chord ∧ (ptpSyncs s).fresh = s.fresh ∧ (ptpSyncs s).pending = s.pending := by
  unfold ptpSyncs
  simp

@[simp] theorem sendRouteAdv_frame (s : State) (e : Nat) :
    (sendRouteAdv s e).time = s.time ∧ (sendRouteAdv s e).cp = s.cp ∧ (sendRouteAdv s e).part = s.part ∧
    (sendRouteAdv s e).err = s.err ∧ (sendRouteAdv s e).pwr = s.pwr ∧ (sendRouteAdv s e).mgmt = s.mgmt ∧
    (sendRouteAdv s e).boot = s.boot ∧ (sendRouteAdv s e).cells = s.cells ∧ (sendRouteAdv s e).mem = s.mem ∧
    (sendRouteAdv s e).larder = s.larder ∧ (sendRouteAdv s e).reg = s.reg ∧ (sendRouteAdv s e).trans = s.trans ∧
    (sendRouteAdv s e).attic = s.attic ∧ (sendRouteAdv s e).link = s.link ∧ (sendRouteAdv s e).fresh = s.fresh ∧
    (sendRouteAdv s e).pending = s.pending := by
  unfold sendRouteAdv
  simp

@[simp] theorem sendMarkers_frame (s : State) (e tx : Nat) :
    (sendMarkers s e tx).part = s.part ∧ (sendMarkers s e tx).err = s.err ∧ (sendMarkers s e tx).pwr = s.pwr ∧
    (sendMarkers s e tx).boot = s.boot ∧ (sendMarkers s e tx).cells = s.cells ∧ (sendMarkers s e tx).mem = s.mem ∧
    (sendMarkers s e tx).larder = s.larder ∧ (sendMarkers s e tx).reg = s.reg ∧ (sendMarkers s e tx).trans = s.trans ∧
    (sendMarkers s e tx).attic = s.attic ∧ (sendMarkers s e tx).pending = s.pending := by
  unfold sendMarkers
  (try dsimp only)
  (repeat' (split <;> try (rename_i hp; first | (obtain ⟨rfl, rfl⟩ := Prod.ext_iff.mp hp) | (obtain ⟨rfl, hq⟩ := Prod.ext_iff.mp hp; obtain ⟨rfl, rfl⟩ := Prod.ext_iff.mp hq) | (obtain ⟨rfl, hq⟩ := Prod.ext_iff.mp hp; obtain ⟨rfl, _⟩ := Prod.ext_iff.mp hq) | (obtain ⟨_, hq⟩ := Prod.ext_iff.mp hp; obtain ⟨rfl, _⟩ := Prod.ext_iff.mp hq) | (obtain ⟨rfl, _⟩ := Prod.ext_iff.mp hp) | (obtain ⟨_, rfl⟩ := Prod.ext_iff.mp hp)))) <;> first | rfl | (simp; done) | (simp_all; done)

@[simp] theorem passLinks_frame (s : State) (upto d : Nat) :
    (passLinks s upto d).part = s.part ∧ (passLinks s upto d).err = s.err ∧ (passLinks s upto d).pwr = s.pwr ∧
    (passLinks s upto d).boot = s.boot ∧ (passLinks s upto d).cells = s.cells ∧ (passLinks s upto d).mem = s.mem ∧
    (passLinks s upto d).larder = s.larder ∧ (passLinks s upto d).reg = s.reg ∧ (passLinks s upto d).trans = s.trans ∧
    (passLinks s upto d).attic = s.attic ∧ (passLinks s upto d).pending = s.pending := by
  unfold passLinks
  simp

@[simp] theorem tick_frame (s : State) :
    (tick s).part = s.part ∧ (tick s).err = s.err ∧ (tick s).pwr = s.pwr ∧ (tick s).boot = s.boot ∧
    (tick s).cells = s.cells ∧ (tick s).mem = s.mem ∧ (tick s).larder = s.larder ∧ (tick s).reg = s.reg ∧
    (tick s).trans = s.trans ∧ (tick s).attic = s.attic ∧ (tick s).pending = s.pending := by
  unfold tick
  simp

@[simp] theorem retrainLanes_frame (s : State) (e mask : Nat) :
    (retrainLanes s e mask).part = s.part ∧ (retrainLanes s e mask).err = s.err ∧
    (retrainLanes s e mask).pwr = s.pwr ∧ (retrainLanes s e mask).boot = s.boot ∧
    (retrainLanes s e mask).cells = s.cells ∧ (retrainLanes s e mask).mem = s.mem ∧
    (retrainLanes s e mask).larder = s.larder ∧ (retrainLanes s e mask).reg = s.reg ∧
    (retrainLanes s e mask).trans = s.trans ∧ (retrainLanes s e mask).attic = s.attic ∧
    (retrainLanes s e mask).fresh = s.fresh ∧ (retrainLanes s e mask).pending = s.pending := by
  unfold retrainLanes
  simp

end Sys2Proof.Machine
end

