-- ==== Sys2Proof/Laws/FrameLinkLayer.lean ====
section
/-! SUPPORT. What each operation of Machine/LinkLayer.lean leaves as it was, by component of the state. -/
set_option maxRecDepth 4000
set_option exponentiation.threshold 2000
namespace Sys2Proof.Machine

@[simp] theorem retryExhausted_frame (s : State) (e : Nat) :
    (retryExhausted s e).part = s.part ∧ (retryExhausted s e).pwr = s.pwr ∧ (retryExhausted s e).boot = s.boot ∧
    (retryExhausted s e).cells = s.cells ∧ (retryExhausted s e).mem = s.mem ∧ (retryExhausted s e).larder = s.larder ∧
    (retryExhausted s e).reg = s.reg ∧ (retryExhausted s e).trans = s.trans ∧ (retryExhausted s e).attic = s.attic ∧
    (retryExhausted s e).fresh = s.fresh ∧ (retryExhausted s e).pending = s.pending := by
  unfold retryExhausted
  simp

@[simp] theorem replay_frame (s : State) (e : Nat) :
    (replay s e).part = s.part ∧ (replay s e).pwr = s.pwr ∧ (replay s e).boot = s.boot ∧
    (replay s e).cells = s.cells ∧ (replay s e).mem = s.mem ∧ (replay s e).larder = s.larder ∧
    (replay s e).reg = s.reg ∧ (replay s e).trans = s.trans ∧ (replay s e).attic = s.attic ∧
    (replay s e).fresh = s.fresh ∧ (replay s e).pending = s.pending := by
  unfold replay
  simp

@[simp] theorem mismatch_frame (s : State) (e : Nat) :
    (mismatch s e).time = s.time ∧ (mismatch s e).part = s.part ∧ (mismatch s e).pwr = s.pwr ∧
    (mismatch s e).boot = s.boot ∧ (mismatch s e).cells = s.cells ∧ (mismatch s e).mem = s.mem ∧
    (mismatch s e).larder = s.larder ∧ (mismatch s e).reg = s.reg ∧ (mismatch s e).trans = s.trans ∧
    (mismatch s e).attic = s.attic ∧ (mismatch s e).link = s.link ∧ (mismatch s e).fresh = s.fresh ∧
    (mismatch s e).pending = s.pending := by
  unfold mismatch
  simp

@[simp] theorem setAssoc_frame (s : State) (i : Nat) (a : Assoc) :
    (setAssoc s i a).time = s.time ∧ (setAssoc s i a).cp = s.cp ∧ (setAssoc s i a).part = s.part ∧
    (setAssoc s i a).err = s.err ∧ (setAssoc s i a).pwr = s.pwr ∧ (setAssoc s i a).mgmt = s.mgmt ∧
    (setAssoc s i a).boot = s.boot ∧ (setAssoc s i a).cells = s.cells ∧ (setAssoc s i a).mem = s.mem ∧
    (setAssoc s i a).larder = s.larder ∧ (setAssoc s i a).reg = s.reg ∧ (setAssoc s i a).trans = s.trans ∧
    (setAssoc s i a).attic = s.attic ∧ (setAssoc s i a).link = s.link ∧ (setAssoc s i a).fresh = s.fresh ∧
    (setAssoc s i a).out = s.out ∧ (setAssoc s i a).pending = s.pending := by
  unfold setAssoc
  simp

@[simp] theorem assocReady_frame (s : State) (i : Nat) (a : Assoc) :
    (assocReady s i a).time = s.time ∧ (assocReady s i a).cp = s.cp ∧ (assocReady s i a).part = s.part ∧
    (assocReady s i a).err = s.err ∧ (assocReady s i a).pwr = s.pwr ∧ (assocReady s i a).mgmt = s.mgmt ∧
    (assocReady s i a).boot = s.boot ∧ (assocReady s i a).cells = s.cells ∧ (assocReady s i a).mem = s.mem ∧
    (assocReady s i a).larder = s.larder ∧ (assocReady s i a).reg = s.reg ∧ (assocReady s i a).trans = s.trans ∧
    (assocReady s i a).attic = s.attic ∧ (assocReady s i a).link = s.link ∧
    (assocReady s i a).pending = s.pending := by
  unfold assocReady
  simp

@[simp] theorem expireAssocs_frame (s : State) :
    (expireAssocs s).time = s.time ∧ (expireAssocs s).cp = s.cp ∧ (expireAssocs s).part = s.part ∧
    (expireAssocs s).err = s.err ∧ (expireAssocs s).pwr = s.pwr ∧ (expireAssocs s).mgmt = s.mgmt ∧
    (expireAssocs s).boot = s.boot ∧ (expireAssocs s).cells = s.cells ∧ (expireAssocs s).mem = s.mem ∧
    (expireAssocs s).larder = s.larder ∧ (expireAssocs s).reg = s.reg ∧ (expireAssocs s).trans = s.trans ∧
    (expireAssocs s).attic = s.attic ∧ (expireAssocs s).link = s.link ∧ (expireAssocs s).fresh = s.fresh ∧
    (expireAssocs s).out = s.out ∧ (expireAssocs s).pending = s.pending := by
  unfold expireAssocs
  simp

end Sys2Proof.Machine
end

