-- ==== Sys2Proof/Laws/FrameRows.lean ====
section
/-! SUPPORT. What each operation of Machine/Rows.lean leaves as it was, by component of the state. -/
set_option maxRecDepth 4000
set_option exponentiation.threshold 2000
namespace Sys2Proof.Machine

@[simp] theorem setBucket_frame (s : State) (b : Bucket) :
    (setBucket s b).time = s.time ∧ (setBucket s b).cp = s.cp ∧ (setBucket s b).part = s.part ∧
    (setBucket s b).pwr = s.pwr ∧ (setBucket s b).mgmt = s.mgmt ∧ (setBucket s b).boot = s.boot ∧
    (setBucket s b).cells = s.cells ∧ (setBucket s b).mem = s.mem ∧ (setBucket s b).larder = s.larder ∧
    (setBucket s b).reg = s.reg ∧ (setBucket s b).trans = s.trans ∧ (setBucket s b).attic = s.attic ∧
    (setBucket s b).link = s.link ∧ (setBucket s b).chord = s.chord ∧ (setBucket s b).fresh = s.fresh ∧
    (setBucket s b).out = s.out ∧ (setBucket s b).pending = s.pending := by
  unfold setBucket
  simp

@[simp] theorem overflowAction_frame (s : State) (k : BucketKind) (unit sub : Nat) :
    (overflowAction s k unit sub).time = s.time ∧ (overflowAction s k unit sub).pwr = s.pwr ∧
    (overflowAction s k unit sub).reg = s.reg ∧ (overflowAction s k unit sub).link = s.link ∧
    (overflowAction s k unit sub).fresh = s.fresh ∧ (overflowAction s k unit sub).pending = s.pending := by
  unfold overflowAction
  (try dsimp only)
  (repeat' (split <;> try (rename_i hp; first | (obtain ⟨rfl, rfl⟩ := Prod.ext_iff.mp hp) | (obtain ⟨rfl, hq⟩ := Prod.ext_iff.mp hp; obtain ⟨rfl, rfl⟩ := Prod.ext_iff.mp hq) | (obtain ⟨rfl, hq⟩ := Prod.ext_iff.mp hp; obtain ⟨rfl, _⟩ := Prod.ext_iff.mp hq) | (obtain ⟨_, hq⟩ := Prod.ext_iff.mp hp; obtain ⟨rfl, _⟩ := Prod.ext_iff.mp hq) | (obtain ⟨rfl, _⟩ := Prod.ext_iff.mp hp) | (obtain ⟨_, rfl⟩ := Prod.ext_iff.mp hp)))) <;> first | rfl | (simp; done) | (simp_all; done)

@[simp] theorem countCorrected_frame (s : State) (k : BucketKind) (unit sub : Nat) :
    (countCorrected s k unit sub).time = s.time ∧ (countCorrected s k unit sub).pwr = s.pwr ∧
    (countCorrected s k unit sub).reg = s.reg ∧ (countCorrected s k unit sub).link = s.link ∧
    (countCorrected s k unit sub).fresh = s.fresh ∧ (countCorrected s k unit sub).pending = s.pending := by
  unfold countCorrected
  simp

@[simp] theorem modSpare_frame (s : State) (n bank : Nat) (f : Spare → Spare) :
    (modSpare s n bank f).time = s.time ∧ (modSpare s n bank f).cp = s.cp ∧ (modSpare s n bank f).part = s.part ∧
    (modSpare s n bank f).err = s.err ∧ (modSpare s n bank f).pwr = s.pwr ∧ (modSpare s n bank f).mgmt = s.mgmt ∧
    (modSpare s n bank f).boot = s.boot ∧ (modSpare s n bank f).cells = s.cells ∧
    (modSpare s n bank f).larder = s.larder ∧ (modSpare s n bank f).reg = s.reg ∧
    (modSpare s n bank f).trans = s.trans ∧ (modSpare s n bank f).attic = s.attic ∧
    (modSpare s n bank f).link = s.link ∧ (modSpare s n bank f).chord = s.chord ∧
    (modSpare s n bank f).fresh = s.fresh ∧ (modSpare s n bank f).out = s.out ∧
    (modSpare s n bank f).pending = s.pending := by
  unfold modSpare
  simp

@[simp] theorem repairEnds_frame (s : State) (n row result : Nat) :
    (repairEnds s n row result).time = s.time ∧ (repairEnds s n row result).cp = s.cp ∧
    (repairEnds s n row result).part = s.part ∧ (repairEnds s n row result).err = s.err ∧
    (repairEnds s n row result).pwr = s.pwr ∧ (repairEnds s n row result).mgmt = s.mgmt ∧
    (repairEnds s n row result).boot = s.boot ∧ (repairEnds s n row result).cells = s.cells ∧
    (repairEnds s n row result).larder = s.larder ∧ (repairEnds s n row result).reg = s.reg ∧
    (repairEnds s n row result).trans = s.trans ∧ (repairEnds s n row result).attic = s.attic ∧
    (repairEnds s n row result).link = s.link ∧ (repairEnds s n row result).chord = s.chord ∧
    (repairEnds s n row result).fresh = s.fresh ∧ (repairEnds s n row result).out = s.out ∧
    (repairEnds s n row result).pending = s.pending := by
  unfold repairEnds
  simp

@[simp] theorem hardRepair_frame (s : State) (n row : Nat) :
    (hardRepair s n row).time = s.time ∧ (hardRepair s n row).cp = s.cp ∧ (hardRepair s n row).part = s.part ∧
    (hardRepair s n row).err = s.err ∧ (hardRepair s n row).pwr = s.pwr ∧ (hardRepair s n row).mgmt = s.mgmt ∧
    (hardRepair s n row).cells = s.cells ∧ (hardRepair s n row).larder = s.larder ∧ (hardRepair s n row).reg = s.reg ∧
    (hardRepair s n row).trans = s.trans ∧ (hardRepair s n row).attic = s.attic ∧ (hardRepair s n row).link = s.link ∧
    (hardRepair s n row).chord = s.chord ∧ (hardRepair s n row).fresh = s.fresh ∧ (hardRepair s n row).out = s.out ∧
    (hardRepair s n row).pending = s.pending := by
  unfold hardRepair
  (try dsimp only)
  (repeat' (split <;> try (rename_i hp; first | (obtain ⟨rfl, rfl⟩ := Prod.ext_iff.mp hp) | (obtain ⟨rfl, hq⟩ := Prod.ext_iff.mp hp; obtain ⟨rfl, rfl⟩ := Prod.ext_iff.mp hq) | (obtain ⟨rfl, hq⟩ := Prod.ext_iff.mp hp; obtain ⟨rfl, _⟩ := Prod.ext_iff.mp hq) | (obtain ⟨_, hq⟩ := Prod.ext_iff.mp hp; obtain ⟨rfl, _⟩ := Prod.ext_iff.mp hq) | (obtain ⟨rfl, _⟩ := Prod.ext_iff.mp hp) | (obtain ⟨_, rfl⟩ := Prod.ext_iff.mp hp)))) <;> first | rfl | (simp; done) | (simp_all; done)

@[simp] theorem softRepair_frame (s : State) (n row : Nat) (byCp : Bool) :
    (softRepair s n row byCp).1.time = s.time ∧ (softRepair s n row byCp).1.cp = s.cp ∧
    (softRepair s n row byCp).1.part = s.part ∧ (softRepair s n row byCp).1.err = s.err ∧
    (softRepair s n row byCp).1.pwr = s.pwr ∧ (softRepair s n row byCp).1.mgmt = s.mgmt ∧
    (softRepair s n row byCp).1.boot = s.boot ∧ (softRepair s n row byCp).1.cells = s.cells ∧
    (softRepair s n row byCp).1.larder = s.larder ∧ (softRepair s n row byCp).1.reg = s.reg ∧
    (softRepair s n row byCp).1.trans = s.trans ∧ (softRepair s n row byCp).1.attic = s.attic ∧
    (softRepair s n row byCp).1.link = s.link ∧ (softRepair s n row byCp).1.chord = s.chord ∧
    (softRepair s n row byCp).1.fresh = s.fresh ∧ (softRepair s n row byCp).1.out = s.out ∧
    (softRepair s n row byCp).1.pending = s.pending := by
  unfold softRepair
  (try dsimp only)
  (repeat' (split <;> try (rename_i hp; first | (obtain ⟨rfl, rfl⟩ := Prod.ext_iff.mp hp) | (obtain ⟨rfl, hq⟩ := Prod.ext_iff.mp hp; obtain ⟨rfl, rfl⟩ := Prod.ext_iff.mp hq) | (obtain ⟨rfl, hq⟩ := Prod.ext_iff.mp hp; obtain ⟨rfl, _⟩ := Prod.ext_iff.mp hq) | (obtain ⟨_, hq⟩ := Prod.ext_iff.mp hp; obtain ⟨rfl, _⟩ := Prod.ext_iff.mp hq) | (obtain ⟨rfl, _⟩ := Prod.ext_iff.mp hp) | (obtain ⟨_, rfl⟩ := Prod.ext_iff.mp hp)))) <;> first | rfl | (simp; done) | (simp_all; done)

@[simp] theorem clearTracker_frame (s : State) (n row : Nat) :
    (clearTracker s n row).time = s.time ∧ (clearTracker s n row).cp = s.cp ∧ (clearTracker s n row).part = s.part ∧
    (clearTracker s n row).pwr = s.pwr ∧ (clearTracker s n row).mgmt = s.mgmt ∧ (clearTracker s n row).boot = s.boot ∧
    (clearTracker s n row).cells = s.cells ∧ (clearTracker s n row).mem = s.mem ∧
    (clearTracker s n row).larder = s.larder ∧ (clearTracker s n row).reg = s.reg ∧
    (clearTracker s n row).trans = s.trans ∧ (clearTracker s n row).attic = s.attic ∧
    (clearTracker s n row).link = s.link ∧ (clearTracker s n row).chord = s.chord ∧
    (clearTracker s n row).fresh = s.fresh ∧ (clearTracker s n row).out = s.out ∧
    (clearTracker s n row).pending = s.pending := by
  unfold clearTracker
  simp

@[simp] theorem handleRow_frame (s : State) (n row : Nat) (addr : Option Nat) :
    (handleRow s n row addr).time = s.time ∧ (handleRow s n row addr).pwr = s.pwr ∧
    (handleRow s n row addr).reg = s.reg ∧ (handleRow s n row addr).trans = s.trans ∧
    (handleRow s n row addr).attic = s.attic ∧ (handleRow s n row addr).link = s.link ∧
    (handleRow s n row addr).chord = s.chord ∧ (handleRow s n row addr).pending = s.pending := by
  unfold handleRow
  simp

@[simp] theorem rowFails_frame (s : State) (n row : Nat) (addr : Option Nat) :
    (rowFails s n row addr).time = s.time ∧ (rowFails s n row addr).pwr = s.pwr ∧
    (rowFails s n row addr).reg = s.reg ∧ (rowFails s n row addr).trans = s.trans ∧
    (rowFails s n row addr).attic = s.attic ∧ (rowFails s n row addr).link = s.link ∧
    (rowFails s n row addr).chord = s.chord ∧ (rowFails s n row addr).pending = s.pending := by
  unfold rowFails
  simp

@[simp] theorem serveRows_frame (s : State) (n : Nat) :
    (serveRows s n).time = s.time ∧ (serveRows s n).pwr = s.pwr ∧ (serveRows s n).reg = s.reg ∧
    (serveRows s n).trans = s.trans ∧ (serveRows s n).attic = s.attic ∧ (serveRows s n).link = s.link ∧
    (serveRows s n).chord = s.chord ∧ (serveRows s n).pending = s.pending := by
  unfold serveRows
  simp

@[simp] theorem rowCorrected_frame (s : State) (n row addr : Nat) :
    (rowCorrected s n row addr).time = s.time ∧ (rowCorrected s n row addr).pwr = s.pwr ∧
    (rowCorrected s n row addr).reg = s.reg ∧ (rowCorrected s n row addr).trans = s.trans ∧
    (rowCorrected s n row addr).attic = s.attic ∧ (rowCorrected s n row addr).link = s.link ∧
    (rowCorrected s n row addr).chord = s.chord ∧ (rowCorrected s n row addr).pending = s.pending := by
  unfold rowCorrected
  simp

@[simp] theorem sectorLost_frame (s : State) (a : Nat) (code : Nat) :
    (sectorLost s a code).time = s.time ∧ (sectorLost s a code).pwr = s.pwr ∧ (sectorLost s a code).reg = s.reg ∧
    (sectorLost s a code).trans = s.trans ∧ (sectorLost s a code).attic = s.attic ∧
    (sectorLost s a code).link = s.link ∧ (sectorLost s a code).chord = s.chord ∧
    (sectorLost s a code).pending = s.pending := by
  unfold sectorLost
  (try dsimp only)
  (repeat' (split <;> try (rename_i hp; first | (obtain ⟨rfl, rfl⟩ := Prod.ext_iff.mp hp) | (obtain ⟨rfl, hq⟩ := Prod.ext_iff.mp hp; obtain ⟨rfl, rfl⟩ := Prod.ext_iff.mp hq) | (obtain ⟨rfl, hq⟩ := Prod.ext_iff.mp hp; obtain ⟨rfl, _⟩ := Prod.ext_iff.mp hq) | (obtain ⟨_, hq⟩ := Prod.ext_iff.mp hp; obtain ⟨rfl, _⟩ := Prod.ext_iff.mp hq) | (obtain ⟨rfl, _⟩ := Prod.ext_iff.mp hp) | (obtain ⟨_, rfl⟩ := Prod.ext_iff.mp hp)))) <;> first | rfl | (simp; done) | (simp_all; done)

@[simp] theorem readSector_frame (s : State) (a : Nat) (e : Ecc) :
    (readSector s a e).time = s.time ∧ (readSector s a e).pwr = s.pwr ∧ (readSector s a e).reg = s.reg ∧
    (readSector s a e).link = s.link ∧ (readSector s a e).pending = s.pending := by
  unfold readSector
  (try dsimp only)
  (repeat' (split <;> try (rename_i hp; first | (obtain ⟨rfl, rfl⟩ := Prod.ext_iff.mp hp) | (obtain ⟨rfl, hq⟩ := Prod.ext_iff.mp hp; obtain ⟨rfl, rfl⟩ := Prod.ext_iff.mp hq) | (obtain ⟨rfl, hq⟩ := Prod.ext_iff.mp hp; obtain ⟨rfl, _⟩ := Prod.ext_iff.mp hq) | (obtain ⟨_, hq⟩ := Prod.ext_iff.mp hp; obtain ⟨rfl, _⟩ := Prod.ext_iff.mp hq) | (obtain ⟨rfl, _⟩ := Prod.ext_iff.mp hp) | (obtain ⟨_, rfl⟩ := Prod.ext_iff.mp hp)))) <;> first | rfl | (simp; done) | (simp_all; done)

@[simp] theorem flushChecked_frame (s : State) (home : Home) (e : WcbEntry) (lo hi : Ecc) :
    (flushChecked s home e lo hi).time = s.time ∧ (flushChecked s home e lo hi).pwr = s.pwr ∧
    (flushChecked s home e lo hi).reg = s.reg ∧ (flushChecked s home e lo hi).link = s.link ∧
    (flushChecked s home e lo hi).pending = s.pending := by
  unfold flushChecked
  simp

@[simp] theorem finishFlushes_frame (s : State) (home : Home) :
    (finishFlushes s home).time = s.time ∧ (finishFlushes s home).pwr = s.pwr ∧ (finishFlushes s home).reg = s.reg ∧
    (finishFlushes s home).link = s.link ∧ (finishFlushes s home).pending = s.pending := by
  unfold finishFlushes
  simp

@[simp] theorem repairCommand_time (s : State) (n : Nat) (f : State → State) (h0 : ∀ a0, (f a0).time = a0.time) :
    (repairCommand s n f).time = s.time := by
  unfold repairCommand
  first
  | (simp [h0]; done)
  | ((try dsimp only)
     (repeat' (split <;> try (rename_i hp; first | (obtain ⟨rfl, rfl⟩ := Prod.ext_iff.mp hp) | (obtain ⟨rfl, hq⟩ := Prod.ext_iff.mp hp; obtain ⟨rfl, rfl⟩ := Prod.ext_iff.mp hq) | (obtain ⟨rfl, hq⟩ := Prod.ext_iff.mp hp; obtain ⟨rfl, _⟩ := Prod.ext_iff.mp hq) | (obtain ⟨_, hq⟩ := Prod.ext_iff.mp hp; obtain ⟨rfl, _⟩ := Prod.ext_iff.mp hq) | (obtain ⟨rfl, _⟩ := Prod.ext_iff.mp hp) | (obtain ⟨_, rfl⟩ := Prod.ext_iff.mp hp)))) <;> first | rfl | (simp [h0]; done) | (simp_all; done))

@[simp] theorem repairCommand_cp (s : State) (n : Nat) (f : State → State) (h0 : ∀ a0, (f a0).cp = a0.cp) :
    (repairCommand s n f).cp = s.cp := by
  unfold repairCommand
  first
  | (simp [h0]; done)
  | ((try dsimp only)
     (repeat' (split <;> try (rename_i hp; first | (obtain ⟨rfl, rfl⟩ := Prod.ext_iff.mp hp) | (obtain ⟨rfl, hq⟩ := Prod.ext_iff.mp hp; obtain ⟨rfl, rfl⟩ := Prod.ext_iff.mp hq) | (obtain ⟨rfl, hq⟩ := Prod.ext_iff.mp hp; obtain ⟨rfl, _⟩ := Prod.ext_iff.mp hq) | (obtain ⟨_, hq⟩ := Prod.ext_iff.mp hp; obtain ⟨rfl, _⟩ := Prod.ext_iff.mp hq) | (obtain ⟨rfl, _⟩ := Prod.ext_iff.mp hp) | (obtain ⟨_, rfl⟩ := Prod.ext_iff.mp hp)))) <;> first | rfl | (simp [h0]; done) | (simp_all; done))

@[simp] theorem repairCommand_part (s : State) (n : Nat) (f : State → State) (h0 : ∀ a0, (f a0).part = a0.part) :
    (repairCommand s n f).part = s.part := by
  unfold repairCommand
  first
  | (simp [h0]; done)
  | ((try dsimp only)
     (repeat' (split <;> try (rename_i hp; first | (obtain ⟨rfl, rfl⟩ := Prod.ext_iff.mp hp) | (obtain ⟨rfl, hq⟩ := Prod.ext_iff.mp hp; obtain ⟨rfl, rfl⟩ := Prod.ext_iff.mp hq) | (obtain ⟨rfl, hq⟩ := Prod.ext_iff.mp hp; obtain ⟨rfl, _⟩ := Prod.ext_iff.mp hq) | (obtain ⟨_, hq⟩ := Prod.ext_iff.mp hp; obtain ⟨rfl, _⟩ := Prod.ext_iff.mp hq) | (obtain ⟨rfl, _⟩ := Prod.ext_iff.mp hp) | (obtain ⟨_, rfl⟩ := Prod.ext_iff.mp hp)))) <;> first | rfl | (simp [h0]; done) | (simp_all; done))

@[simp] theorem repairCommand_err (s : State) (n : Nat) (f : State → State) (h0 : ∀ a0, (f a0).err = a0.err) :
    (repairCommand s n f).err = s.err := by
  unfold repairCommand
  first
  | (simp [h0]; done)
  | ((try dsimp only)
     (repeat' (split <;> try (rename_i hp; first | (obtain ⟨rfl, rfl⟩ := Prod.ext_iff.mp hp) | (obtain ⟨rfl, hq⟩ := Prod.ext_iff.mp hp; obtain ⟨rfl, rfl⟩ := Prod.ext_iff.mp hq) | (obtain ⟨rfl, hq⟩ := Prod.ext_iff.mp hp; obtain ⟨rfl, _⟩ := Prod.ext_iff.mp hq) | (obtain ⟨_, hq⟩ := Prod.ext_iff.mp hp; obtain ⟨rfl, _⟩ := Prod.ext_iff.mp hq) | (obtain ⟨rfl, _⟩ := Prod.ext_iff.mp hp) | (obtain ⟨_, rfl⟩ := Prod.ext_iff.mp hp)))) <;> first | rfl | (simp [h0]; done) | (simp_all; done))

@[simp] theorem repairCommand_pwr (s : State) (n : Nat) (f : State → State) (h0 : ∀ a0, (f a0).pwr = a0.pwr) :
    (repairCommand s n f).pwr = s.pwr := by
  unfold repairCommand
  first
  | (simp [h0]; done)
  | ((try dsimp only)
     (repeat' (split <;> try (rename_i hp; first | (obtain ⟨rfl, rfl⟩ := Prod.ext_iff.mp hp) | (obtain ⟨rfl, hq⟩ := Prod.ext_iff.mp hp; obtain ⟨rfl, rfl⟩ := Prod.ext_iff.mp hq) | (obtain ⟨rfl, hq⟩ := Prod.ext_iff.mp hp; obtain ⟨rfl, _⟩ := Prod.ext_iff.mp hq) | (obtain ⟨_, hq⟩ := Prod.ext_iff.mp hp; obtain ⟨rfl, _⟩ := Prod.ext_iff.mp hq) | (obtain ⟨rfl, _⟩ := Prod.ext_iff.mp hp) | (obtain ⟨_, rfl⟩ := Prod.ext_iff.mp hp)))) <;> first | rfl | (simp [h0]; done) | (simp_all; done))

@[simp] theorem repairCommand_mgmt (s : State) (n : Nat) (f : State → State) (h0 : ∀ a0, (f a0).mgmt = a0.mgmt) :
    (repairCommand s n f).mgmt = s.mgmt := by
  unfold repairCommand
  first
  | (simp [h0]; done)
  | ((try dsimp only)
     (repeat' (split <;> try (rename_i hp; first | (obtain ⟨rfl, rfl⟩ := Prod.ext_iff.mp hp) | (obtain ⟨rfl, hq⟩ := Prod.ext_iff.mp hp; obtain ⟨rfl, rfl⟩ := Prod.ext_iff.mp hq) | (obtain ⟨rfl, hq⟩ := Prod.ext_iff.mp hp; obtain ⟨rfl, _⟩ := Prod.ext_iff.mp hq) | (obtain ⟨_, hq⟩ := Prod.ext_iff.mp hp; obtain ⟨rfl, _⟩ := Prod.ext_iff.mp hq) | (obtain ⟨rfl, _⟩ := Prod.ext_iff.mp hp) | (obtain ⟨_, rfl⟩ := Prod.ext_iff.mp hp)))) <;> first | rfl | (simp [h0]; done) | (simp_all; done))

@[simp] theorem repairCommand_boot (s : State) (n : Nat) (f : State → State) (h0 : ∀ a0, (f a0).boot = a0.boot) :
    (repairCommand s n f).boot = s.boot := by
  unfold repairCommand
  first
  | (simp [h0]; done)
  | ((try dsimp only)
     (repeat' (split <;> try (rename_i hp; first | (obtain ⟨rfl, rfl⟩ := Prod.ext_iff.mp hp) | (obtain ⟨rfl, hq⟩ := Prod.ext_iff.mp hp; obtain ⟨rfl, rfl⟩ := Prod.ext_iff.mp hq) | (obtain ⟨rfl, hq⟩ := Prod.ext_iff.mp hp; obtain ⟨rfl, _⟩ := Prod.ext_iff.mp hq) | (obtain ⟨_, hq⟩ := Prod.ext_iff.mp hp; obtain ⟨rfl, _⟩ := Prod.ext_iff.mp hq) | (obtain ⟨rfl, _⟩ := Prod.ext_iff.mp hp) | (obtain ⟨_, rfl⟩ := Prod.ext_iff.mp hp)))) <;> first | rfl | (simp [h0]; done) | (simp_all; done))

@[simp] theorem repairCommand_cells (s : State) (n : Nat) (f : State → State) (h0 : ∀ a0, (f a0).cells = a0.cells) :
    (repairCommand s n f).cells = s.cells := by
  unfold repairCommand
  first
  | (simp [h0]; done)
  | ((try dsimp only)
     (repeat' (split <;> try (rename_i hp; first | (obtain ⟨rfl, rfl⟩ := Prod.ext_iff.mp hp) | (obtain ⟨rfl, hq⟩ := Prod.ext_iff.mp hp; obtain ⟨rfl, rfl⟩ := Prod.ext_iff.mp hq) | (obtain ⟨rfl, hq⟩ := Prod.ext_iff.mp hp; obtain ⟨rfl, _⟩ := Prod.ext_iff.mp hq) | (obtain ⟨_, hq⟩ := Prod.ext_iff.mp hp; obtain ⟨rfl, _⟩ := Prod.ext_iff.mp hq) | (obtain ⟨rfl, _⟩ := Prod.ext_iff.mp hp) | (obtain ⟨_, rfl⟩ := Prod.ext_iff.mp hp)))) <;> first | rfl | (simp [h0]; done) | (simp_all; done))

@[simp] theorem repairCommand_larder (s : State) (n : Nat) (f : State → State) (h0 : ∀ a0, (f a0).larder = a0.larder) :
    (repairCommand s n f).larder = s.larder := by
  unfold repairCommand
  first
  | (simp [h0]; done)
  | ((try dsimp only)
     (repeat' (split <;> try (rename_i hp; first | (obtain ⟨rfl, rfl⟩ := Prod.ext_iff.mp hp) | (obtain ⟨rfl, hq⟩ := Prod.ext_iff.mp hp; obtain ⟨rfl, rfl⟩ := Prod.ext_iff.mp hq) | (obtain ⟨rfl, hq⟩ := Prod.ext_iff.mp hp; obtain ⟨rfl, _⟩ := Prod.ext_iff.mp hq) | (obtain ⟨_, hq⟩ := Prod.ext_iff.mp hp; obtain ⟨rfl, _⟩ := Prod.ext_iff.mp hq) | (obtain ⟨rfl, _⟩ := Prod.ext_iff.mp hp) | (obtain ⟨_, rfl⟩ := Prod.ext_iff.mp hp)))) <;> first | rfl | (simp [h0]; done) | (simp_all; done))

@[simp] theorem repairCommand_reg (s : State) (n : Nat) (f : State → State) (h0 : ∀ a0, (f a0).reg = a0.reg) :
    (repairCommand s n f).reg = s.reg := by
  unfold repairCommand
  first
  | (simp [h0]; done)
  | ((try dsimp only)
     (repeat' (split <;> try (rename_i hp; first | (obtain ⟨rfl, rfl⟩ := Prod.ext_iff.mp hp) | (obtain ⟨rfl, hq⟩ := Prod.ext_iff.mp hp; obtain ⟨rfl, rfl⟩ := Prod.ext_iff.mp hq) | (obtain ⟨rfl, hq⟩ := Prod.ext_iff.mp hp; obtain ⟨rfl, _⟩ := Prod.ext_iff.mp hq) | (obtain ⟨_, hq⟩ := Prod.ext_iff.mp hp; obtain ⟨rfl, _⟩ := Prod.ext_iff.mp hq) | (obtain ⟨rfl, _⟩ := Prod.ext_iff.mp hp) | (obtain ⟨_, rfl⟩ := Prod.ext_iff.mp hp)))) <;> first | rfl | (simp [h0]; done) | (simp_all; done))

@[simp] theorem repairCommand_trans (s : State) (n : Nat) (f : State → State) (h0 : ∀ a0, (f a0).trans = a0.trans) :
    (repairCommand s n f).trans = s.trans := by
  unfold repairCommand
  first
  | (simp [h0]; done)
  | ((try dsimp only)
     (repeat' (split <;> try (rename_i hp; first | (obtain ⟨rfl, rfl⟩ := Prod.ext_iff.mp hp) | (obtain ⟨rfl, hq⟩ := Prod.ext_iff.mp hp; obtain ⟨rfl, rfl⟩ := Prod.ext_iff.mp hq) | (obtain ⟨rfl, hq⟩ := Prod.ext_iff.mp hp; obtain ⟨rfl, _⟩ := Prod.ext_iff.mp hq) | (obtain ⟨_, hq⟩ := Prod.ext_iff.mp hp; obtain ⟨rfl, _⟩ := Prod.ext_iff.mp hq) | (obtain ⟨rfl, _⟩ := Prod.ext_iff.mp hp) | (obtain ⟨_, rfl⟩ := Prod.ext_iff.mp hp)))) <;> first | rfl | (simp [h0]; done) | (simp_all; done))

@[simp] theorem repairCommand_attic (s : State) (n : Nat) (f : State → State) (h0 : ∀ a0, (f a0).attic = a0.attic) :
    (repairCommand s n f).attic = s.attic := by
  unfold repairCommand
  first
  | (simp [h0]; done)
  | ((try dsimp only)
     (repeat' (split <;> try (rename_i hp; first | (obtain ⟨rfl, rfl⟩ := Prod.ext_iff.mp hp) | (obtain ⟨rfl, hq⟩ := Prod.ext_iff.mp hp; obtain ⟨rfl, rfl⟩ := Prod.ext_iff.mp hq) | (obtain ⟨rfl, hq⟩ := Prod.ext_iff.mp hp; obtain ⟨rfl, _⟩ := Prod.ext_iff.mp hq) | (obtain ⟨_, hq⟩ := Prod.ext_iff.mp hp; obtain ⟨rfl, _⟩ := Prod.ext_iff.mp hq) | (obtain ⟨rfl, _⟩ := Prod.ext_iff.mp hp) | (obtain ⟨_, rfl⟩ := Prod.ext_iff.mp hp)))) <;> first | rfl | (simp [h0]; done) | (simp_all; done))

@[simp] theorem repairCommand_link (s : State) (n : Nat) (f : State → State) (h0 : ∀ a0, (f a0).link = a0.link) :
    (repairCommand s n f).link = s.link := by
  unfold repairCommand
  first
  | (simp [h0]; done)
  | ((try dsimp only)
     (repeat' (split <;> try (rename_i hp; first | (obtain ⟨rfl, rfl⟩ := Prod.ext_iff.mp hp) | (obtain ⟨rfl, hq⟩ := Prod.ext_iff.mp hp; obtain ⟨rfl, rfl⟩ := Prod.ext_iff.mp hq) | (obtain ⟨rfl, hq⟩ := Prod.ext_iff.mp hp; obtain ⟨rfl, _⟩ := Prod.ext_iff.mp hq) | (obtain ⟨_, hq⟩ := Prod.ext_iff.mp hp; obtain ⟨rfl, _⟩ := Prod.ext_iff.mp hq) | (obtain ⟨rfl, _⟩ := Prod.ext_iff.mp hp) | (obtain ⟨_, rfl⟩ := Prod.ext_iff.mp hp)))) <;> first | rfl | (simp [h0]; done) | (simp_all; done))

@[simp] theorem repairCommand_chord (s : State) (n : Nat) (f : State → State) (h0 : ∀ a0, (f a0).chord = a0.chord) :
    (repairCommand s n f).chord = s.chord := by
  unfold repairCommand
  first
  | (simp [h0]; done)
  | ((try dsimp only)
     (repeat' (split <;> try (rename_i hp; first | (obtain ⟨rfl, rfl⟩ := Prod.ext_iff.mp hp) | (obtain ⟨rfl, hq⟩ := Prod.ext_iff.mp hp; obtain ⟨rfl, rfl⟩ := Prod.ext_iff.mp hq) | (obtain ⟨rfl, hq⟩ := Prod.ext_iff.mp hp; obtain ⟨rfl, _⟩ := Prod.ext_iff.mp hq) | (obtain ⟨_, hq⟩ := Prod.ext_iff.mp hp; obtain ⟨rfl, _⟩ := Prod.ext_iff.mp hq) | (obtain ⟨rfl, _⟩ := Prod.ext_iff.mp hp) | (obtain ⟨_, rfl⟩ := Prod.ext_iff.mp hp)))) <;> first | rfl | (simp [h0]; done) | (simp_all; done))

@[simp] theorem repairCommand_fresh (s : State) (n : Nat) (f : State → State) (h0 : ∀ a0, (f a0).fresh = a0.fresh) :
    (repairCommand s n f).fresh = s.fresh := by
  unfold repairCommand
  first
  | (simp [h0]; done)
  | ((try dsimp only)
     (repeat' (split <;> try (rename_i hp; first | (obtain ⟨rfl, rfl⟩ := Prod.ext_iff.mp hp) | (obtain ⟨rfl, hq⟩ := Prod.ext_iff.mp hp; obtain ⟨rfl, rfl⟩ := Prod.ext_iff.mp hq) | (obtain ⟨rfl, hq⟩ := Prod.ext_iff.mp hp; obtain ⟨rfl, _⟩ := Prod.ext_iff.mp hq) | (obtain ⟨_, hq⟩ := Prod.ext_iff.mp hp; obtain ⟨rfl, _⟩ := Prod.ext_iff.mp hq) | (obtain ⟨rfl, _⟩ := Prod.ext_iff.mp hp) | (obtain ⟨_, rfl⟩ := Prod.ext_iff.mp hp)))) <;> first | rfl | (simp [h0]; done) | (simp_all; done))

@[simp] theorem repairCommand_out (s : State) (n : Nat) (f : State → State) (h0 : ∀ a0, (f a0).out = a0.out) :
    (repairCommand s n f).out = s.out := by
  unfold repairCommand
  first
  | (simp [h0]; done)
  | ((try dsimp only)
     (repeat' (split <;> try (rename_i hp; first | (obtain ⟨rfl, rfl⟩ := Prod.ext_iff.mp hp) | (obtain ⟨rfl, hq⟩ := Prod.ext_iff.mp hp; obtain ⟨rfl, rfl⟩ := Prod.ext_iff.mp hq) | (obtain ⟨rfl, hq⟩ := Prod.ext_iff.mp hp; obtain ⟨rfl, _⟩ := Prod.ext_iff.mp hq) | (obtain ⟨_, hq⟩ := Prod.ext_iff.mp hp; obtain ⟨rfl, _⟩ := Prod.ext_iff.mp hq) | (obtain ⟨rfl, _⟩ := Prod.ext_iff.mp hp) | (obtain ⟨_, rfl⟩ := Prod.ext_iff.mp hp)))) <;> first | rfl | (simp [h0]; done) | (simp_all; done))

@[simp] theorem repairCommand_pending (s : State) (n : Nat) (f : State → State) (h0 : ∀ a0, (f a0).pending = a0.pending) :
    (repairCommand s n f).pending = s.pending := by
  unfold repairCommand
  first
  | (simp [h0]; done)
  | ((try dsimp only)
     (repeat' (split <;> try (rename_i hp; first | (obtain ⟨rfl, rfl⟩ := Prod.ext_iff.mp hp) | (obtain ⟨rfl, hq⟩ := Prod.ext_iff.mp hp; obtain ⟨rfl, rfl⟩ := Prod.ext_iff.mp hq) | (obtain ⟨rfl, hq⟩ := Prod.ext_iff.mp hp; obtain ⟨rfl, _⟩ := Prod.ext_iff.mp hq) | (obtain ⟨_, hq⟩ := Prod.ext_iff.mp hp; obtain ⟨rfl, _⟩ := Prod.ext_iff.mp hq) | (obtain ⟨rfl, _⟩ := Prod.ext_iff.mp hp) | (obtain ⟨_, rfl⟩ := Prod.ext_iff.mp hp)))) <;> first | rfl | (simp [h0]; done) | (simp_all; done))

@[simp] theorem cancelHard_frame (s : State) (n row : Nat) :
    (cancelHard s n row).time = s.time ∧ (cancelHard s n row).cp = s.cp ∧ (cancelHard s n row).part = s.part ∧
    (cancelHard s n row).err = s.err ∧ (cancelHard s n row).pwr = s.pwr ∧ (cancelHard s n row).mgmt = s.mgmt ∧
    (cancelHard s n row).cells = s.cells ∧ (cancelHard s n row).larder = s.larder ∧ (cancelHard s n row).reg = s.reg ∧
    (cancelHard s n row).trans = s.trans ∧ (cancelHard s n row).attic = s.attic ∧ (cancelHard s n row).link = s.link ∧
    (cancelHard s n row).chord = s.chord ∧ (cancelHard s n row).out = s.out ∧
    (cancelHard s n row).pending = s.pending := by
  unfold cancelHard
  (try dsimp only)
  (repeat' (split <;> try (rename_i hp; first | (obtain ⟨rfl, rfl⟩ := Prod.ext_iff.mp hp) | (obtain ⟨rfl, hq⟩ := Prod.ext_iff.mp hp; obtain ⟨rfl, rfl⟩ := Prod.ext_iff.mp hq) | (obtain ⟨rfl, hq⟩ := Prod.ext_iff.mp hp; obtain ⟨rfl, _⟩ := Prod.ext_iff.mp hq) | (obtain ⟨_, hq⟩ := Prod.ext_iff.mp hp; obtain ⟨rfl, _⟩ := Prod.ext_iff.mp hq) | (obtain ⟨rfl, _⟩ := Prod.ext_iff.mp hp) | (obtain ⟨_, rfl⟩ := Prod.ext_iff.mp hp)))) <;> first | rfl | (simp; done) | (simp_all; done)

end Sys2Proof.Machine
end

