-- ==== Sys2Proof/Laws/FrameHomes.lean ====
section
/-! SUPPORT. What each operation of Machine/Homes.lean leaves as it was, by component of the state. -/
set_option maxRecDepth 4000
set_option exponentiation.threshold 2000
namespace Sys2Proof.Machine

@[simp] theorem recallFor_frame (s : State) (line : Nat) :
    (recallFor s line).time = s.time ∧ (recallFor s line).cp = s.cp ∧ (recallFor s line).part = s.part ∧
    (recallFor s line).err = s.err ∧ (recallFor s line).pwr = s.pwr ∧ (recallFor s line).mgmt = s.mgmt ∧
    (recallFor s line).boot = s.boot ∧ (recallFor s line).cells = s.cells ∧ (recallFor s line).mem = s.mem ∧
    (recallFor s line).larder = s.larder ∧ (recallFor s line).reg = s.reg ∧ (recallFor s line).trans = s.trans ∧
    (recallFor s line).link = s.link ∧ (recallFor s line).chord = s.chord ∧ (recallFor s line).fresh = s.fresh ∧
    (recallFor s line).pending = s.pending := by
  unfold recallFor
  (try dsimp only)
  (repeat' (split <;> try (rename_i hp; first | (obtain ⟨rfl, rfl⟩ := Prod.ext_iff.mp hp) | (obtain ⟨rfl, hq⟩ := Prod.ext_iff.mp hp; obtain ⟨rfl, rfl⟩ := Prod.ext_iff.mp hq) | (obtain ⟨rfl, hq⟩ := Prod.ext_iff.mp hp; obtain ⟨rfl, _⟩ := Prod.ext_iff.mp hq) | (obtain ⟨_, hq⟩ := Prod.ext_iff.mp hp; obtain ⟨rfl, _⟩ := Prod.ext_iff.mp hq) | (obtain ⟨rfl, _⟩ := Prod.ext_iff.mp hp) | (obtain ⟨_, rfl⟩ := Prod.ext_iff.mp hp)))) <;> first | rfl | (simp; done) | (simp_all; done)

@[simp] theorem dirReady_frame (s : State) (t : Txn) :
    (dirReady s t).1.time = s.time ∧ (dirReady s t).1.cp = s.cp ∧ (dirReady s t).1.part = s.part ∧
    (dirReady s t).1.err = s.err ∧ (dirReady s t).1.pwr = s.pwr ∧ (dirReady s t).1.mgmt = s.mgmt ∧
    (dirReady s t).1.boot = s.boot ∧ (dirReady s t).1.cells = s.cells ∧ (dirReady s t).1.mem = s.mem ∧
    (dirReady s t).1.larder = s.larder ∧ (dirReady s t).1.reg = s.reg ∧ (dirReady s t).1.trans = s.trans ∧
    (dirReady s t).1.link = s.link ∧ (dirReady s t).1.chord = s.chord ∧ (dirReady s t).1.fresh = s.fresh ∧
    (dirReady s t).1.pending = s.pending := by
  unfold dirReady
  simp

@[simp] theorem updateDir_frame (s : State) (t : Txn) :
    (updateDir s t).time = s.time ∧ (updateDir s t).cp = s.cp ∧ (updateDir s t).part = s.part ∧
    (updateDir s t).err = s.err ∧ (updateDir s t).pwr = s.pwr ∧ (updateDir s t).mgmt = s.mgmt ∧
    (updateDir s t).boot = s.boot ∧ (updateDir s t).cells = s.cells ∧ (updateDir s t).mem = s.mem ∧
    (updateDir s t).larder = s.larder ∧ (updateDir s t).reg = s.reg ∧ (updateDir s t).trans = s.trans ∧
    (updateDir s t).link = s.link ∧ (updateDir s t).chord = s.chord ∧ (updateDir s t).fresh = s.fresh ∧
    (updateDir s t).out = s.out ∧ (updateDir s t).pending = s.pending := by
  unfold updateDir
  (try dsimp only)
  (repeat' (split <;> try (rename_i hp; first | (obtain ⟨rfl, rfl⟩ := Prod.ext_iff.mp hp) | (obtain ⟨rfl, hq⟩ := Prod.ext_iff.mp hp; obtain ⟨rfl, rfl⟩ := Prod.ext_iff.mp hq) | (obtain ⟨rfl, hq⟩ := Prod.ext_iff.mp hp; obtain ⟨rfl, _⟩ := Prod.ext_iff.mp hq) | (obtain ⟨_, hq⟩ := Prod.ext_iff.mp hp; obtain ⟨rfl, _⟩ := Prod.ext_iff.mp hq) | (obtain ⟨rfl, _⟩ := Prod.ext_iff.mp hp) | (obtain ⟨_, rfl⟩ := Prod.ext_iff.mp hp)))) <;> first | rfl | (simp; done) | (simp_all; done)

@[simp] theorem dropHeld_frame (s : State) (site hpa : Nat) :
    (dropHeld s site hpa).time = s.time ∧ (dropHeld s site hpa).cp = s.cp ∧ (dropHeld s site hpa).part = s.part ∧
    (dropHeld s site hpa).err = s.err ∧ (dropHeld s site hpa).pwr = s.pwr ∧ (dropHeld s site hpa).mgmt = s.mgmt ∧
    (dropHeld s site hpa).boot = s.boot ∧ (dropHeld s site hpa).cells = s.cells ∧ (dropHeld s site hpa).mem = s.mem ∧
    (dropHeld s site hpa).larder = s.larder ∧ (dropHeld s site hpa).reg = s.reg ∧
    (dropHeld s site hpa).trans = s.trans ∧ (dropHeld s site hpa).link = s.link ∧
    (dropHeld s site hpa).chord = s.chord ∧ (dropHeld s site hpa).fresh = s.fresh ∧
    (dropHeld s site hpa).out = s.out ∧ (dropHeld s site hpa).pending = s.pending := by
  unfold dropHeld
  (try dsimp only)
  (repeat' (split <;> try (rename_i hp; first | (obtain ⟨rfl, rfl⟩ := Prod.ext_iff.mp hp) | (obtain ⟨rfl, hq⟩ := Prod.ext_iff.mp hp; obtain ⟨rfl, rfl⟩ := Prod.ext_iff.mp hq) | (obtain ⟨rfl, hq⟩ := Prod.ext_iff.mp hp; obtain ⟨rfl, _⟩ := Prod.ext_iff.mp hq) | (obtain ⟨_, hq⟩ := Prod.ext_iff.mp hp; obtain ⟨rfl, _⟩ := Prod.ext_iff.mp hq) | (obtain ⟨rfl, _⟩ := Prod.ext_iff.mp hp) | (obtain ⟨_, rfl⟩ := Prod.ext_iff.mp hp)))) <;> first | rfl | (simp; done) | (simp_all; done)

@[simp] theorem landBack_frame (s : State) (site : Nat) (t : Txn) :
    (landBack s site t).time = s.time ∧ (landBack s site t).cp = s.cp ∧ (landBack s site t).part = s.part ∧
    (landBack s site t).err = s.err ∧ (landBack s site t).pwr = s.pwr ∧ (landBack s site t).mgmt = s.mgmt ∧
    (landBack s site t).boot = s.boot ∧ (landBack s site t).larder = s.larder ∧ (landBack s site t).reg = s.reg ∧
    (landBack s site t).trans = s.trans ∧ (landBack s site t).link = s.link ∧ (landBack s site t).chord = s.chord ∧
    (landBack s site t).fresh = s.fresh ∧ (landBack s site t).pending = s.pending := by
  unfold landBack
  simp

@[simp] theorem homeSnoops_frame (s : State) (n : Nat) (t : Txn) :
    (homeSnoops s n t).1.time = s.time ∧ (homeSnoops s n t).1.cp = s.cp ∧ (homeSnoops s n t).1.part = s.part ∧
    (homeSnoops s n t).1.err = s.err ∧ (homeSnoops s n t).1.pwr = s.pwr ∧ (homeSnoops s n t).1.mgmt = s.mgmt ∧
    (homeSnoops s n t).1.boot = s.boot ∧ (homeSnoops s n t).1.cells = s.cells ∧ (homeSnoops s n t).1.mem = s.mem ∧
    (homeSnoops s n t).1.larder = s.larder ∧ (homeSnoops s n t).1.reg = s.reg ∧ (homeSnoops s n t).1.trans = s.trans ∧
    (homeSnoops s n t).1.link = s.link ∧ (homeSnoops s n t).1.chord = s.chord ∧ (homeSnoops s n t).1.fresh = s.fresh ∧
    (homeSnoops s n t).1.pending = s.pending := by
  unfold homeSnoops
  simp

@[simp] theorem refuseTxn_frame (s : State) (n : Nat) (t : Txn) (r : Access) :
    (refuseTxn s n t r).time = s.time ∧ (refuseTxn s n t r).cp = s.cp ∧ (refuseTxn s n t r).err = s.err ∧
    (refuseTxn s n t r).pwr = s.pwr ∧ (refuseTxn s n t r).mgmt = s.mgmt ∧ (refuseTxn s n t r).boot = s.boot ∧
    (refuseTxn s n t r).cells = s.cells ∧ (refuseTxn s n t r).larder = s.larder ∧ (refuseTxn s n t r).reg = s.reg ∧
    (refuseTxn s n t r).trans = s.trans ∧ (refuseTxn s n t r).attic = s.attic ∧ (refuseTxn s n t r).link = s.link ∧
    (refuseTxn s n t r).chord = s.chord ∧ (refuseTxn s n t r).fresh = s.fresh ∧ (refuseTxn s n t r).out = s.out ∧
    (refuseTxn s n t r).pending = s.pending := by
  unfold refuseTxn
  simp

@[simp] theorem absorbTxn_frame (s : State) (n : Nat) :
    (absorbTxn s n).time = s.time ∧ (absorbTxn s n).cp = s.cp ∧ (absorbTxn s n).part = s.part ∧
    (absorbTxn s n).err = s.err ∧ (absorbTxn s n).pwr = s.pwr ∧ (absorbTxn s n).mgmt = s.mgmt ∧
    (absorbTxn s n).boot = s.boot ∧ (absorbTxn s n).cells = s.cells ∧ (absorbTxn s n).larder = s.larder ∧
    (absorbTxn s n).reg = s.reg ∧ (absorbTxn s n).trans = s.trans ∧ (absorbTxn s n).attic = s.attic ∧
    (absorbTxn s n).link = s.link ∧ (absorbTxn s n).chord = s.chord ∧ (absorbTxn s n).fresh = s.fresh ∧
    (absorbTxn s n).out = s.out ∧ (absorbTxn s n).pending = s.pending := by
  unfold absorbTxn
  simp

@[simp] theorem performTxn_frame (s : State) (n : Nat) (t : Txn) :
    (performTxn s n t).time = s.time ∧ (performTxn s n t).cp = s.cp ∧ (performTxn s n t).part = s.part ∧
    (performTxn s n t).err = s.err ∧ (performTxn s n t).pwr = s.pwr ∧ (performTxn s n t).mgmt = s.mgmt ∧
    (performTxn s n t).boot = s.boot ∧ (performTxn s n t).larder = s.larder ∧ (performTxn s n t).reg = s.reg ∧
    (performTxn s n t).trans = s.trans ∧ (performTxn s n t).link = s.link ∧ (performTxn s n t).chord = s.chord ∧
    (performTxn s n t).fresh = s.fresh ∧ (performTxn s n t).pending = s.pending := by
  unfold performTxn
  (try dsimp only)
  (repeat' (split <;> try (rename_i hp; first | (obtain ⟨rfl, rfl⟩ := Prod.ext_iff.mp hp) | (obtain ⟨rfl, hq⟩ := Prod.ext_iff.mp hp; obtain ⟨rfl, rfl⟩ := Prod.ext_iff.mp hq) | (obtain ⟨rfl, hq⟩ := Prod.ext_iff.mp hp; obtain ⟨rfl, _⟩ := Prod.ext_iff.mp hq) | (obtain ⟨_, hq⟩ := Prod.ext_iff.mp hp; obtain ⟨rfl, _⟩ := Prod.ext_iff.mp hq) | (obtain ⟨rfl, _⟩ := Prod.ext_iff.mp hp) | (obtain ⟨_, rfl⟩ := Prod.ext_iff.mp hp)))) <;> (try simp) <;> (repeat' apply And.intro) <;> (first | apply forEach_time | apply foldl_time | apply forEachFst_time | apply foldlFst_time | apply forEach_cp | apply foldl_cp | apply forEachFst_cp | apply foldlFst_cp | apply forEach_part | apply foldl_part | apply forEachFst_part | apply foldlFst_part | apply forEach_err | apply foldl_err | apply forEachFst_err | apply foldlFst_err | apply forEach_pwr | apply foldl_pwr | apply forEachFst_pwr | apply foldlFst_pwr | apply forEach_mgmt | apply foldl_mgmt | apply forEachFst_mgmt | apply foldlFst_mgmt | apply forEach_boot | apply foldl_boot | apply forEachFst_boot | apply foldlFst_boot | apply forEach_larder | apply foldl_larder | apply forEachFst_larder | apply foldlFst_larder | apply forEach_reg | apply foldl_reg | apply forEachFst_reg | apply foldlFst_reg | apply forEach_trans | apply foldl_trans | apply forEachFst_trans | apply foldlFst_trans | apply forEach_link | apply foldl_link | apply forEachFst_link | apply foldlFst_link | apply forEach_chord | apply foldl_chord | apply forEachFst_chord | apply foldlFst_chord | apply forEach_fresh | apply foldl_fresh | apply forEachFst_fresh | apply foldlFst_fresh | apply forEach_pending | apply foldl_pending | apply forEachFst_pending | apply foldlFst_pending) <;> intro _ _ <;> (try dsimp only) <;> (repeat' (split <;> try (rename_i hp; first | (obtain ⟨rfl, rfl⟩ := Prod.ext_iff.mp hp) | (obtain ⟨rfl, hq⟩ := Prod.ext_iff.mp hp; obtain ⟨rfl, rfl⟩ := Prod.ext_iff.mp hq) | (obtain ⟨rfl, hq⟩ := Prod.ext_iff.mp hp; obtain ⟨rfl, _⟩ := Prod.ext_iff.mp hq) | (obtain ⟨_, hq⟩ := Prod.ext_iff.mp hp; obtain ⟨rfl, _⟩ := Prod.ext_iff.mp hq) | (obtain ⟨rfl, _⟩ := Prod.ext_iff.mp hp) | (obtain ⟨_, rfl⟩ := Prod.ext_iff.mp hp)))) <;> first | rfl | (simp; done) | (simp_all; done)

@[simp] theorem readSectors_frame (s : State) (t : Txn) (home : Home) (lo hi : Ecc) :
    (readSectors s t home lo hi).time = s.time ∧ (readSectors s t home lo hi).pwr = s.pwr ∧
    (readSectors s t home lo hi).reg = s.reg ∧ (readSectors s t home lo hi).link = s.link ∧
    (readSectors s t home lo hi).pending = s.pending := by
  unfold readSectors
  simp

@[simp] theorem sendWindow_frame (s : State) (site : Nat) (q : WindowReq) (m : AtpMsg) :
    (sendWindow s site q m).time = s.time ∧ (sendWindow s site q m).cp = s.cp ∧
    (sendWindow s site q m).part = s.part ∧ (sendWindow s site q m).err = s.err ∧
    (sendWindow s site q m).pwr = s.pwr ∧ (sendWindow s site q m).mgmt = s.mgmt ∧
    (sendWindow s site q m).boot = s.boot ∧ (sendWindow s site q m).cells = s.cells ∧
    (sendWindow s site q m).mem = s.mem ∧ (sendWindow s site q m).larder = s.larder ∧
    (sendWindow s site q m).reg = s.reg ∧ (sendWindow s site q m).trans = s.trans ∧
    (sendWindow s site q m).link = s.link ∧ (sendWindow s site q m).chord = s.chord ∧
    (sendWindow s site q m).fresh = s.fresh ∧ (sendWindow s site q m).pending = s.pending := by
  unfold sendWindow
  (try dsimp only)
  (repeat' (split <;> try (rename_i hp; first | (obtain ⟨rfl, rfl⟩ := Prod.ext_iff.mp hp) | (obtain ⟨rfl, hq⟩ := Prod.ext_iff.mp hp; obtain ⟨rfl, rfl⟩ := Prod.ext_iff.mp hq) | (obtain ⟨rfl, hq⟩ := Prod.ext_iff.mp hp; obtain ⟨rfl, _⟩ := Prod.ext_iff.mp hq) | (obtain ⟨_, hq⟩ := Prod.ext_iff.mp hp; obtain ⟨rfl, _⟩ := Prod.ext_iff.mp hq) | (obtain ⟨rfl, _⟩ := Prod.ext_iff.mp hp) | (obtain ⟨_, rfl⟩ := Prod.ext_iff.mp hp)))) <;> first | rfl | (simp; done) | (simp_all; done)

@[simp] theorem writeWindow_frame (s : State) (site n a : Nat) (b : Tab Byte) (pz : Bool) (holds : Bool) :
    (writeWindow s site n a b pz holds).time = s.time ∧ (writeWindow s site n a b pz holds).cp = s.cp ∧
    (writeWindow s site n a b pz holds).part = s.part ∧ (writeWindow s site n a b pz holds).err = s.err ∧
    (writeWindow s site n a b pz holds).pwr = s.pwr ∧ (writeWindow s site n a b pz holds).mgmt = s.mgmt ∧
    (writeWindow s site n a b pz holds).boot = s.boot ∧ (writeWindow s site n a b pz holds).cells = s.cells ∧
    (writeWindow s site n a b pz holds).mem = s.mem ∧ (writeWindow s site n a b pz holds).larder = s.larder ∧
    (writeWindow s site n a b pz holds).reg = s.reg ∧ (writeWindow s site n a b pz holds).trans = s.trans ∧
    (writeWindow s site n a b pz holds).link = s.link ∧ (writeWindow s site n a b pz holds).chord = s.chord ∧
    (writeWindow s site n a b pz holds).fresh = s.fresh ∧
    (writeWindow s site n a b pz holds).pending = s.pending := by
  unfold writeWindow
  simp

@[simp] theorem sendLane_frame (s : State) (site n : Nat) (op : AtomOp) (ty : AtomType) (l : AtomLane) :
    (sendLane s site n op ty l).time = s.time ∧ (sendLane s site n op ty l).cp = s.cp ∧
    (sendLane s site n op ty l).part = s.part ∧ (sendLane s site n op ty l).err = s.err ∧
    (sendLane s site n op ty l).pwr = s.pwr ∧ (sendLane s site n op ty l).mgmt = s.mgmt ∧
    (sendLane s site n op ty l).boot = s.boot ∧ (sendLane s site n op ty l).cells = s.cells ∧
    (sendLane s site n op ty l).mem = s.mem ∧ (sendLane s site n op ty l).larder = s.larder ∧
    (sendLane s site n op ty l).reg = s.reg ∧ (sendLane s site n op ty l).trans = s.trans ∧
    (sendLane s site n op ty l).link = s.link ∧ (sendLane s site n op ty l).chord = s.chord ∧
    (sendLane s site n op ty l).fresh = s.fresh ∧ (sendLane s site n op ty l).pending = s.pending := by
  unfold sendLane
  simp

@[simp] theorem forwardWindow_frame (s : State) (site n : Nat) (t : Txn) :
    (forwardWindow s site n t).time = s.time ∧ (forwardWindow s site n t).part = s.part ∧
    (forwardWindow s site n t).pwr = s.pwr ∧ (forwardWindow s site n t).boot = s.boot ∧
    (forwardWindow s site n t).cells = s.cells ∧ (forwardWindow s site n t).larder = s.larder ∧
    (forwardWindow s site n t).reg = s.reg ∧ (forwardWindow s site n t).trans = s.trans ∧
    (forwardWindow s site n t).link = s.link ∧ (forwardWindow s site n t).chord = s.chord ∧
    (forwardWindow s site n t).fresh = s.fresh ∧ (forwardWindow s site n t).pending = s.pending := by
  unfold forwardWindow
  (try dsimp only)
  (repeat' (split <;> try (rename_i hp; first | (obtain ⟨rfl, rfl⟩ := Prod.ext_iff.mp hp) | (obtain ⟨rfl, hq⟩ := Prod.ext_iff.mp hp; obtain ⟨rfl, rfl⟩ := Prod.ext_iff.mp hq) | (obtain ⟨rfl, hq⟩ := Prod.ext_iff.mp hp; obtain ⟨rfl, _⟩ := Prod.ext_iff.mp hq) | (obtain ⟨_, hq⟩ := Prod.ext_iff.mp hp; obtain ⟨rfl, _⟩ := Prod.ext_iff.mp hq) | (obtain ⟨rfl, _⟩ := Prod.ext_iff.mp hp) | (obtain ⟨_, rfl⟩ := Prod.ext_iff.mp hp)))) <;> first | rfl | (simp; done) | (simp_all; done)

@[simp] theorem pumpSite_frame (s : State) (site : Nat) :
    (pumpSite s site).time = s.time ∧ (pumpSite s site).part = s.part ∧ (pumpSite s site).pwr = s.pwr ∧
    (pumpSite s site).boot = s.boot ∧ (pumpSite s site).cells = s.cells ∧ (pumpSite s site).larder = s.larder ∧
    (pumpSite s site).reg = s.reg ∧ (pumpSite s site).trans = s.trans ∧ (pumpSite s site).link = s.link ∧
    (pumpSite s site).chord = s.chord ∧ (pumpSite s site).fresh = s.fresh ∧
    (pumpSite s site).pending = s.pending := by
  unfold pumpSite
  (try dsimp only)
  (repeat' (split <;> try (rename_i hp; first | (obtain ⟨rfl, rfl⟩ := Prod.ext_iff.mp hp) | (obtain ⟨rfl, hq⟩ := Prod.ext_iff.mp hp; obtain ⟨rfl, rfl⟩ := Prod.ext_iff.mp hq) | (obtain ⟨rfl, hq⟩ := Prod.ext_iff.mp hp; obtain ⟨rfl, _⟩ := Prod.ext_iff.mp hq) | (obtain ⟨_, hq⟩ := Prod.ext_iff.mp hp; obtain ⟨rfl, _⟩ := Prod.ext_iff.mp hq) | (obtain ⟨rfl, _⟩ := Prod.ext_iff.mp hp) | (obtain ⟨_, rfl⟩ := Prod.ext_iff.mp hp)))) <;> (try simp) <;> (repeat' apply And.intro) <;> (first | apply forEach_time | apply foldl_time | apply forEachFst_time | apply foldlFst_time | apply forEach_part | apply foldl_part | apply forEachFst_part | apply foldlFst_part | apply forEach_pwr | apply foldl_pwr | apply forEachFst_pwr | apply foldlFst_pwr | apply forEach_boot | apply foldl_boot | apply forEachFst_boot | apply foldlFst_boot | apply forEach_cells | apply foldl_cells | apply forEachFst_cells | apply foldlFst_cells | apply forEach_larder | apply foldl_larder | apply forEachFst_larder | apply foldlFst_larder | apply forEach_reg | apply foldl_reg | apply forEachFst_reg | apply foldlFst_reg | apply forEach_trans | apply foldl_trans | apply forEachFst_trans | apply foldlFst_trans | apply forEach_link | apply foldl_link | apply forEachFst_link | apply foldlFst_link | apply forEach_chord | apply foldl_chord | apply forEachFst_chord | apply foldlFst_chord | apply forEach_fresh | apply foldl_fresh | apply forEachFst_fresh | apply foldlFst_fresh | apply forEach_pending | apply foldl_pending | apply forEachFst_pending | apply foldlFst_pending) <;> intro _ _ <;> (try dsimp only) <;> (repeat' (split <;> try (rename_i hp; first | (obtain ⟨rfl, rfl⟩ := Prod.ext_iff.mp hp) | (obtain ⟨rfl, hq⟩ := Prod.ext_iff.mp hp; obtain ⟨rfl, rfl⟩ := Prod.ext_iff.mp hq) | (obtain ⟨rfl, hq⟩ := Prod.ext_iff.mp hp; obtain ⟨rfl, _⟩ := Prod.ext_iff.mp hq) | (obtain ⟨_, hq⟩ := Prod.ext_iff.mp hp; obtain ⟨rfl, _⟩ := Prod.ext_iff.mp hq) | (obtain ⟨rfl, _⟩ := Prod.ext_iff.mp hp) | (obtain ⟨_, rfl⟩ := Prod.ext_iff.mp hp)))) <;> first | rfl | (simp; done) | (simp_all; done)

@[simp] theorem windowAnswer_frame (s : State) (site : Nat) (m : AtpMsg) :
    (windowAnswer s site m).time = s.time ∧ (windowAnswer s site m).part = s.part ∧
    (windowAnswer s site m).pwr = s.pwr ∧ (windowAnswer s site m).boot = s.boot ∧
    (windowAnswer s site m).cells = s.cells ∧ (windowAnswer s site m).larder = s.larder ∧
    (windowAnswer s site m).reg = s.reg ∧ (windowAnswer s site m).trans = s.trans ∧
    (windowAnswer s site m).link = s.link ∧ (windowAnswer s site m).chord = s.chord ∧
    (windowAnswer s site m).fresh = s.fresh ∧ (windowAnswer s site m).pending = s.pending := by
  unfold windowAnswer
  (try dsimp only)
  (repeat' (split <;> try (rename_i hp; first | (obtain ⟨rfl, rfl⟩ := Prod.ext_iff.mp hp) | (obtain ⟨rfl, hq⟩ := Prod.ext_iff.mp hp; obtain ⟨rfl, rfl⟩ := Prod.ext_iff.mp hq) | (obtain ⟨rfl, hq⟩ := Prod.ext_iff.mp hp; obtain ⟨rfl, _⟩ := Prod.ext_iff.mp hq) | (obtain ⟨_, hq⟩ := Prod.ext_iff.mp hp; obtain ⟨rfl, _⟩ := Prod.ext_iff.mp hq) | (obtain ⟨rfl, _⟩ := Prod.ext_iff.mp hp) | (obtain ⟨_, rfl⟩ := Prod.ext_iff.mp hp)))) <;> first | rfl | (simp; done) | (simp_all; done)

@[simp] theorem forwardPeer_frame (s : State) (w n : Nat) (t : Txn) :
    (forwardPeer s w n t).1.time = s.time ∧ (forwardPeer s w n t).1.cp = s.cp ∧
    (forwardPeer s w n t).1.part = s.part ∧ (forwardPeer s w n t).1.err = s.err ∧
    (forwardPeer s w n t).1.pwr = s.pwr ∧ (forwardPeer s w n t).1.mgmt = s.mgmt ∧
    (forwardPeer s w n t).1.boot = s.boot ∧ (forwardPeer s w n t).1.cells = s.cells ∧
    (forwardPeer s w n t).1.larder = s.larder ∧ (forwardPeer s w n t).1.reg = s.reg ∧
    (forwardPeer s w n t).1.trans = s.trans ∧ (forwardPeer s w n t).1.attic = s.attic ∧
    (forwardPeer s w n t).1.link = s.link ∧ (forwardPeer s w n t).1.pending = s.pending := by
  unfold forwardPeer
  (try dsimp only)
  (repeat' (split <;> try (rename_i hp; first | (obtain ⟨rfl, rfl⟩ := Prod.ext_iff.mp hp) | (obtain ⟨rfl, hq⟩ := Prod.ext_iff.mp hp; obtain ⟨rfl, rfl⟩ := Prod.ext_iff.mp hq) | (obtain ⟨rfl, hq⟩ := Prod.ext_iff.mp hp; obtain ⟨rfl, _⟩ := Prod.ext_iff.mp hq) | (obtain ⟨_, hq⟩ := Prod.ext_iff.mp hp; obtain ⟨rfl, _⟩ := Prod.ext_iff.mp hq) | (obtain ⟨rfl, _⟩ := Prod.ext_iff.mp hp) | (obtain ⟨_, rfl⟩ := Prod.ext_iff.mp hp)))) <;> first | rfl | (simp; done) | (simp_all; done)

@[simp] theorem enterTxn_frame (s : State) (n : Nat) (t : Txn) :
    (enterTxn s n t).time = s.time ∧ (enterTxn s n t).cp = s.cp ∧ (enterTxn s n t).part = s.part ∧
    (enterTxn s n t).err = s.err ∧ (enterTxn s n t).pwr = s.pwr ∧ (enterTxn s n t).mgmt = s.mgmt ∧
    (enterTxn s n t).boot = s.boot ∧ (enterTxn s n t).cells = s.cells ∧ (enterTxn s n t).larder = s.larder ∧
    (enterTxn s n t).trans = s.trans ∧ (enterTxn s n t).attic = s.attic ∧ (enterTxn s n t).link = s.link ∧
    (enterTxn s n t).chord = s.chord ∧ (enterTxn s n t).fresh = s.fresh ∧ (enterTxn s n t).out = s.out ∧
    (enterTxn s n t).pending = s.pending := by
  unfold enterTxn
  simp

@[simp] theorem arriveTxn_frame (s : State) (n : Nat) (t : Txn) (under : Bool) :
    (arriveTxn s n t under).time = s.time ∧ (arriveTxn s n t under).cp = s.cp ∧
    (arriveTxn s n t under).part = s.part ∧ (arriveTxn s n t under).err = s.err ∧
    (arriveTxn s n t under).pwr = s.pwr ∧ (arriveTxn s n t under).mgmt = s.mgmt ∧
    (arriveTxn s n t under).boot = s.boot ∧ (arriveTxn s n t under).larder = s.larder ∧
    (arriveTxn s n t under).reg = s.reg ∧ (arriveTxn s n t under).trans = s.trans ∧
    (arriveTxn s n t under).attic = s.attic ∧ (arriveTxn s n t under).link = s.link ∧
    (arriveTxn s n t under).chord = s.chord ∧ (arriveTxn s n t under).fresh = s.fresh ∧
    (arriveTxn s n t under).out = s.out ∧ (arriveTxn s n t under).pending = s.pending := by
  unfold arriveTxn
  simp

@[simp] theorem holdTxn_frame (s : State) (n : Nat) :
    (holdTxn s n).time = s.time ∧ (holdTxn s n).cp = s.cp ∧ (holdTxn s n).part = s.part ∧ (holdTxn s n).err = s.err ∧
    (holdTxn s n).pwr = s.pwr ∧ (holdTxn s n).mgmt = s.mgmt ∧ (holdTxn s n).boot = s.boot ∧
    (holdTxn s n).cells = s.cells ∧ (holdTxn s n).larder = s.larder ∧ (holdTxn s n).reg = s.reg ∧
    (holdTxn s n).trans = s.trans ∧ (holdTxn s n).attic = s.attic ∧ (holdTxn s n).link = s.link ∧
    (holdTxn s n).chord = s.chord ∧ (holdTxn s n).fresh = s.fresh ∧ (holdTxn s n).out = s.out ∧
    (holdTxn s n).pending = s.pending := by
  unfold holdTxn
  simp

@[simp] theorem homeAccess_frame (s : State) (home : Home) (n : Nat) (t : Txn) (lo hi : Ecc) :
    (homeAccess s home n t lo hi).time = s.time ∧ (homeAccess s home n t lo hi).pwr = s.pwr ∧
    (homeAccess s home n t lo hi).reg = s.reg ∧ (homeAccess s home n t lo hi).link = s.link ∧
    (homeAccess s home n t lo hi).pending = s.pending := by
  unfold homeAccess
  (try dsimp only)
  (repeat' (split <;> try (rename_i hp; first | (obtain ⟨rfl, rfl⟩ := Prod.ext_iff.mp hp) | (obtain ⟨rfl, hq⟩ := Prod.ext_iff.mp hp; obtain ⟨rfl, rfl⟩ := Prod.ext_iff.mp hq) | (obtain ⟨rfl, hq⟩ := Prod.ext_iff.mp hp; obtain ⟨rfl, _⟩ := Prod.ext_iff.mp hq) | (obtain ⟨_, hq⟩ := Prod.ext_iff.mp hp; obtain ⟨rfl, _⟩ := Prod.ext_iff.mp hq) | (obtain ⟨rfl, _⟩ := Prod.ext_iff.mp hp) | (obtain ⟨_, rfl⟩ := Prod.ext_iff.mp hp)))) <;> first | rfl | (simp; done) | (simp_all; done)

@[simp] theorem countLine_frame (s : State) (k : Nat) :
    (countLine s k).time = s.time ∧ (countLine s k).cp = s.cp ∧ (countLine s k).part = s.part ∧
    (countLine s k).err = s.err ∧ (countLine s k).mgmt = s.mgmt ∧ (countLine s k).boot = s.boot ∧
    (countLine s k).cells = s.cells ∧ (countLine s k).mem = s.mem ∧ (countLine s k).larder = s.larder ∧
    (countLine s k).reg = s.reg ∧ (countLine s k).trans = s.trans ∧ (countLine s k).attic = s.attic ∧
    (countLine s k).link = s.link ∧ (countLine s k).chord = s.chord ∧ (countLine s k).fresh = s.fresh ∧
    (countLine s k).out = s.out ∧ (countLine s k).pending = s.pending := by
  unfold countLine
  simp

@[simp] theorem chargeShelf_frame (s : State) (n k : Nat) (t : Txn) :
    (chargeShelf s n k t).time = s.time ∧ (chargeShelf s n k t).cp = s.cp ∧ (chargeShelf s n k t).part = s.part ∧
    (chargeShelf s n k t).err = s.err ∧ (chargeShelf s n k t).pwr = s.pwr ∧ (chargeShelf s n k t).mgmt = s.mgmt ∧
    (chargeShelf s n k t).boot = s.boot ∧ (chargeShelf s n k t).cells = s.cells ∧
    (chargeShelf s n k t).larder = s.larder ∧ (chargeShelf s n k t).reg = s.reg ∧
    (chargeShelf s n k t).trans = s.trans ∧ (chargeShelf s n k t).attic = s.attic ∧
    (chargeShelf s n k t).link = s.link ∧ (chargeShelf s n k t).chord = s.chord ∧
    (chargeShelf s n k t).fresh = s.fresh ∧ (chargeShelf s n k t).out = s.out ∧
    (chargeShelf s n k t).pending = s.pending := by
  unfold chargeShelf
  simp

@[simp] theorem shelfAccess_frame (s : State) (k n : Nat) (t : Txn) (lo hi : Ecc) :
    (shelfAccess s k n t lo hi).time = s.time ∧ (shelfAccess s k n t lo hi).reg = s.reg ∧
    (shelfAccess s k n t lo hi).link = s.link ∧ (shelfAccess s k n t lo hi).pending = s.pending := by
  unfold shelfAccess
  simp

@[simp] theorem farAccess_frame (s : State) (p d n : Nat) (t : Txn) (lo hi : Ecc) :
    (farAccess s p d n t lo hi).time = s.time ∧ (farAccess s p d n t lo hi).pwr = s.pwr ∧
    (farAccess s p d n t lo hi).reg = s.reg ∧ (farAccess s p d n t lo hi).link = s.link ∧
    (farAccess s p d n t lo hi).pending = s.pending := by
  unfold farAccess
  simp

@[simp] theorem failLoads_frame (s : State) (k i code addr : Nat) :
    (failLoads s k i code addr).time = s.time ∧ (failLoads s k i code addr).cp = s.cp ∧
    (failLoads s k i code addr).part = s.part ∧ (failLoads s k i code addr).err = s.err ∧
    (failLoads s k i code addr).pwr = s.pwr ∧ (failLoads s k i code addr).mgmt = s.mgmt ∧
    (failLoads s k i code addr).boot = s.boot ∧ (failLoads s k i code addr).mem = s.mem ∧
    (failLoads s k i code addr).larder = s.larder ∧ (failLoads s k i code addr).reg = s.reg ∧
    (failLoads s k i code addr).trans = s.trans ∧ (failLoads s k i code addr).attic = s.attic ∧
    (failLoads s k i code addr).link = s.link ∧ (failLoads s k i code addr).chord = s.chord ∧
    (failLoads s k i code addr).fresh = s.fresh ∧ (failLoads s k i code addr).out = s.out ∧
    (failLoads s k i code addr).pending = s.pending := by
  unfold failLoads
  simp

@[simp] theorem dieAnswered_frame (s : State) (site id : Nat) (t : Txn) :
    (dieAnswered s site id t).time = s.time ∧ (dieAnswered s site id t).part = s.part ∧
    (dieAnswered s site id t).pwr = s.pwr ∧ (dieAnswered s site id t).boot = s.boot ∧
    (dieAnswered s site id t).cells = s.cells ∧ (dieAnswered s site id t).mem = s.mem ∧
    (dieAnswered s site id t).larder = s.larder ∧ (dieAnswered s site id t).reg = s.reg ∧
    (dieAnswered s site id t).trans = s.trans ∧ (dieAnswered s site id t).attic = s.attic ∧
    (dieAnswered s site id t).link = s.link ∧ (dieAnswered s site id t).chord = s.chord ∧
    (dieAnswered s site id t).fresh = s.fresh ∧ (dieAnswered s site id t).pending = s.pending := by
  unfold dieAnswered
  (try dsimp only)
  (repeat' (split <;> try (rename_i hp; first | (obtain ⟨rfl, rfl⟩ := Prod.ext_iff.mp hp) | (obtain ⟨rfl, hq⟩ := Prod.ext_iff.mp hp; obtain ⟨rfl, rfl⟩ := Prod.ext_iff.mp hq) | (obtain ⟨rfl, hq⟩ := Prod.ext_iff.mp hp; obtain ⟨rfl, _⟩ := Prod.ext_iff.mp hq) | (obtain ⟨_, hq⟩ := Prod.ext_iff.mp hp; obtain ⟨rfl, _⟩ := Prod.ext_iff.mp hq) | (obtain ⟨rfl, _⟩ := Prod.ext_iff.mp hp) | (obtain ⟨_, rfl⟩ := Prod.ext_iff.mp hp)))) <;> first | rfl | (simp; done) | (simp_all; done)

@[simp] theorem hostRefused_frame (s : State) (write : Bool) (hpa : Nat) (firewall : Bool) :
    (hostRefused s write hpa firewall).time = s.time ∧ (hostRefused s write hpa firewall).part = s.part ∧
    (hostRefused s write hpa firewall).pwr = s.pwr ∧ (hostRefused s write hpa firewall).cells = s.cells ∧
    (hostRefused s write hpa firewall).mem = s.mem ∧ (hostRefused s write hpa firewall).larder = s.larder ∧
    (hostRefused s write hpa firewall).reg = s.reg ∧ (hostRefused s write hpa firewall).trans = s.trans ∧
    (hostRefused s write hpa firewall).attic = s.attic ∧ (hostRefused s write hpa firewall).link = s.link ∧
    (hostRefused s write hpa firewall).chord = s.chord ∧ (hostRefused s write hpa firewall).fresh = s.fresh ∧
    (hostRefused s write hpa firewall).pending = s.pending := by
  unfold hostRefused
  simp

@[simp] theorem hostReadDone_frame (s : State) (i : Nat) :
    (hostReadDone s i).time = s.time ∧ (hostReadDone s i).cp = s.cp ∧ (hostReadDone s i).part = s.part ∧
    (hostReadDone s i).err = s.err ∧ (hostReadDone s i).pwr = s.pwr ∧ (hostReadDone s i).mgmt = s.mgmt ∧
    (hostReadDone s i).boot = s.boot ∧ (hostReadDone s i).cells = s.cells ∧ (hostReadDone s i).larder = s.larder ∧
    (hostReadDone s i).reg = s.reg ∧ (hostReadDone s i).trans = s.trans ∧ (hostReadDone s i).attic = s.attic ∧
    (hostReadDone s i).link = s.link ∧ (hostReadDone s i).chord = s.chord ∧ (hostReadDone s i).fresh = s.fresh ∧
    (hostReadDone s i).pending = s.pending := by
  unfold hostReadDone
  (try dsimp only)
  (repeat' (split <;> try (rename_i hp; first | (obtain ⟨rfl, rfl⟩ := Prod.ext_iff.mp hp) | (obtain ⟨rfl, hq⟩ := Prod.ext_iff.mp hp; obtain ⟨rfl, rfl⟩ := Prod.ext_iff.mp hq) | (obtain ⟨rfl, hq⟩ := Prod.ext_iff.mp hp; obtain ⟨rfl, _⟩ := Prod.ext_iff.mp hq) | (obtain ⟨_, hq⟩ := Prod.ext_iff.mp hp; obtain ⟨rfl, _⟩ := Prod.ext_iff.mp hq) | (obtain ⟨rfl, _⟩ := Prod.ext_iff.mp hp) | (obtain ⟨_, rfl⟩ := Prod.ext_iff.mp hp)))) <;> first | rfl | (simp; done) | (simp_all; done)

@[simp] theorem hostWritten_frame (s : State) (n : Nat) (t : Txn) :
    (hostWritten s n t).time = s.time ∧ (hostWritten s n t).part = s.part ∧ (hostWritten s n t).cells = s.cells ∧
    (hostWritten s n t).larder = s.larder ∧ (hostWritten s n t).reg = s.reg ∧ (hostWritten s n t).trans = s.trans ∧
    (hostWritten s n t).attic = s.attic ∧ (hostWritten s n t).link = s.link ∧ (hostWritten s n t).chord = s.chord ∧
    (hostWritten s n t).fresh = s.fresh ∧ (hostWritten s n t).pending = s.pending := by
  unfold hostWritten
  (try dsimp only)
  (repeat' (split <;> try (rename_i hp; first | (obtain ⟨rfl, rfl⟩ := Prod.ext_iff.mp hp) | (obtain ⟨rfl, hq⟩ := Prod.ext_iff.mp hp; obtain ⟨rfl, rfl⟩ := Prod.ext_iff.mp hq) | (obtain ⟨rfl, hq⟩ := Prod.ext_iff.mp hp; obtain ⟨rfl, _⟩ := Prod.ext_iff.mp hq) | (obtain ⟨_, hq⟩ := Prod.ext_iff.mp hp; obtain ⟨rfl, _⟩ := Prod.ext_iff.mp hq) | (obtain ⟨rfl, _⟩ := Prod.ext_iff.mp hp) | (obtain ⟨_, rfl⟩ := Prod.ext_iff.mp hp)))) <;> first | rfl | (simp; done) | (simp_all; done)

@[simp] theorem hostLineRead_frame (s : State) (i n : Nat) (t : Txn) :
    (hostLineRead s i n t).time = s.time ∧ (hostLineRead s i n t).part = s.part ∧ (hostLineRead s i n t).pwr = s.pwr ∧
    (hostLineRead s i n t).cells = s.cells ∧ (hostLineRead s i n t).larder = s.larder ∧
    (hostLineRead s i n t).reg = s.reg ∧ (hostLineRead s i n t).trans = s.trans ∧
    (hostLineRead s i n t).attic = s.attic ∧ (hostLineRead s i n t).link = s.link ∧
    (hostLineRead s i n t).chord = s.chord ∧ (hostLineRead s i n t).fresh = s.fresh ∧
    (hostLineRead s i n t).pending = s.pending := by
  unfold hostLineRead
  (try dsimp only)
  (repeat' (split <;> try (rename_i hp; first | (obtain ⟨rfl, rfl⟩ := Prod.ext_iff.mp hp) | (obtain ⟨rfl, hq⟩ := Prod.ext_iff.mp hp; obtain ⟨rfl, rfl⟩ := Prod.ext_iff.mp hq) | (obtain ⟨rfl, hq⟩ := Prod.ext_iff.mp hp; obtain ⟨rfl, _⟩ := Prod.ext_iff.mp hq) | (obtain ⟨_, hq⟩ := Prod.ext_iff.mp hp; obtain ⟨rfl, _⟩ := Prod.ext_iff.mp hq) | (obtain ⟨rfl, _⟩ := Prod.ext_iff.mp hp) | (obtain ⟨_, rfl⟩ := Prod.ext_iff.mp hp)))) <;> first | rfl | (simp; done) | (simp_all; done)

@[simp] theorem failReleases_frame (s : State) (n : Nat) (t : Txn) :
    (failReleases s n t).time = s.time ∧ (failReleases s n t).part = s.part ∧ (failReleases s n t).pwr = s.pwr ∧
    (failReleases s n t).boot = s.boot ∧ (failReleases s n t).mem = s.mem ∧ (failReleases s n t).reg = s.reg ∧
    (failReleases s n t).link = s.link ∧ (failReleases s n t).fresh = s.fresh ∧
    (failReleases s n t).pending = s.pending := by
  unfold failReleases
  simp

@[simp] theorem returnTxn_frame (s : State) (n : Nat) (t : Txn) :
    (returnTxn s n t).time = s.time ∧ (returnTxn s n t).part = s.part ∧ (returnTxn s n t).link = s.link ∧
    (returnTxn s n t).pending = s.pending := by
  unfold returnTxn
  (try dsimp only)
  (repeat' (split <;> try (rename_i hp; first | (obtain ⟨rfl, rfl⟩ := Prod.ext_iff.mp hp) | (obtain ⟨rfl, hq⟩ := Prod.ext_iff.mp hp; obtain ⟨rfl, rfl⟩ := Prod.ext_iff.mp hq) | (obtain ⟨rfl, hq⟩ := Prod.ext_iff.mp hp; obtain ⟨rfl, _⟩ := Prod.ext_iff.mp hq) | (obtain ⟨_, hq⟩ := Prod.ext_iff.mp hp; obtain ⟨rfl, _⟩ := Prod.ext_iff.mp hq) | (obtain ⟨rfl, _⟩ := Prod.ext_iff.mp hp) | (obtain ⟨_, rfl⟩ := Prod.ext_iff.mp hp)))) <;> first | rfl | (simp; done) | (simp_all; done)

@[simp] theorem placedTxn_frame (s : State) (n : Nat) (t : Txn) :
    (placedTxn s n t).time = s.time ∧ (placedTxn s n t).cp = s.cp ∧ (placedTxn s n t).part = s.part ∧
    (placedTxn s n t).err = s.err ∧ (placedTxn s n t).pwr = s.pwr ∧ (placedTxn s n t).mgmt = s.mgmt ∧
    (placedTxn s n t).boot = s.boot ∧ (placedTxn s n t).cells = s.cells ∧ (placedTxn s n t).mem = s.mem ∧
    (placedTxn s n t).larder = s.larder ∧ (placedTxn s n t).reg = s.reg ∧ (placedTxn s n t).trans = s.trans ∧
    (placedTxn s n t).attic = s.attic ∧ (placedTxn s n t).link = s.link ∧ (placedTxn s n t).fresh = s.fresh ∧
    (placedTxn s n t).out = s.out ∧ (placedTxn s n t).pending = s.pending := by
  unfold placedTxn
  simp

end Sys2Proof.Machine
end

