-- ==== Sys2Proof/Laws/FrameSram.lean ====
section
/-! SUPPORT. What each operation of Machine/Sram.lean leaves as it was, by component of the state. -/
set_option maxRecDepth 4000
set_option exponentiation.threshold 2000
namespace Sys2Proof.Machine

@[simp] theorem recordSram_frame (s : State) (c cls idx addr : Nat) :
    (recordSram s c cls idx addr).time = s.time ∧ (recordSram s c cls idx addr).part = s.part ∧
    (recordSram s c cls idx addr).pwr = s.pwr ∧ (recordSram s c cls idx addr).boot = s.boot ∧
    (recordSram s c cls idx addr).cells = s.cells ∧ (recordSram s c cls idx addr).mem = s.mem ∧
    (recordSram s c cls idx addr).larder = s.larder ∧ (recordSram s c cls idx addr).reg = s.reg ∧
    (recordSram s c cls idx addr).trans = s.trans ∧ (recordSram s c cls idx addr).attic = s.attic ∧
    (recordSram s c cls idx addr).link = s.link ∧ (recordSram s c cls idx addr).chord = s.chord ∧
    (recordSram s c cls idx addr).fresh = s.fresh ∧ (recordSram s c cls idx addr).pending = s.pending := by
  unfold recordSram
  simp

@[simp] theorem coreLineFails_frame (s : State) (k key sectors : Nat) :
    (coreLineFails s k key sectors).time = s.time ∧ (coreLineFails s k key sectors).pwr = s.pwr ∧
    (coreLineFails s k key sectors).reg = s.reg ∧ (coreLineFails s k key sectors).link = s.link ∧
    (coreLineFails s k key sectors).fresh = s.fresh ∧ (coreLineFails s k key sectors).pending = s.pending := by
  unfold coreLineFails
  (try dsimp only)
  (repeat' (split <;> try (rename_i hp; first | (obtain ⟨rfl, rfl⟩ := Prod.ext_iff.mp hp) | (obtain ⟨rfl, hq⟩ := Prod.ext_iff.mp hp; obtain ⟨rfl, rfl⟩ := Prod.ext_iff.mp hq) | (obtain ⟨rfl, hq⟩ := Prod.ext_iff.mp hp; obtain ⟨rfl, _⟩ := Prod.ext_iff.mp hq) | (obtain ⟨_, hq⟩ := Prod.ext_iff.mp hp; obtain ⟨rfl, _⟩ := Prod.ext_iff.mp hq) | (obtain ⟨rfl, _⟩ := Prod.ext_iff.mp hp) | (obtain ⟨_, rfl⟩ := Prod.ext_iff.mp hp)))) <;> first | rfl | (simp; done) | (simp_all; done)

@[simp] theorem cellarLineFails_frame (s : State) (c key sectors : Nat) :
    (cellarLineFails s c key sectors).time = s.time ∧ (cellarLineFails s c key sectors).pwr = s.pwr ∧
    (cellarLineFails s c key sectors).reg = s.reg ∧ (cellarLineFails s c key sectors).link = s.link ∧
    (cellarLineFails s c key sectors).fresh = s.fresh ∧ (cellarLineFails s c key sectors).pending = s.pending := by
  unfold cellarLineFails
  (try dsimp only)
  (repeat' (split <;> try (rename_i hp; first | (obtain ⟨rfl, rfl⟩ := Prod.ext_iff.mp hp) | (obtain ⟨rfl, hq⟩ := Prod.ext_iff.mp hp; obtain ⟨rfl, rfl⟩ := Prod.ext_iff.mp hq) | (obtain ⟨rfl, hq⟩ := Prod.ext_iff.mp hp; obtain ⟨rfl, _⟩ := Prod.ext_iff.mp hq) | (obtain ⟨_, hq⟩ := Prod.ext_iff.mp hp; obtain ⟨rfl, _⟩ := Prod.ext_iff.mp hq) | (obtain ⟨rfl, _⟩ := Prod.ext_iff.mp hp) | (obtain ⟨_, rfl⟩ := Prod.ext_iff.mp hp)))) <;> first | rfl | (simp; done) | (simp_all; done)

@[simp] theorem tagFails_frame (s : State) (c cls idx : Nat) (l : CacheLine) :
    (tagFails s c cls idx l).time = s.time ∧ (tagFails s c cls idx l).part = s.part ∧
    (tagFails s c cls idx l).pwr = s.pwr ∧ (tagFails s c cls idx l).boot = s.boot ∧
    (tagFails s c cls idx l).larder = s.larder ∧ (tagFails s c cls idx l).reg = s.reg ∧
    (tagFails s c cls idx l).trans = s.trans ∧ (tagFails s c cls idx l).attic = s.attic ∧
    (tagFails s c cls idx l).link = s.link ∧ (tagFails s c cls idx l).chord = s.chord ∧
    (tagFails s c cls idx l).fresh = s.fresh ∧ (tagFails s c cls idx l).pending = s.pending := by
  unfold tagFails
  simp

@[simp] theorem directoryFails_frame (s : State) (q line : Nat) :
    (directoryFails s q line).time = s.time ∧ (directoryFails s q line).cp = s.cp ∧
    (directoryFails s q line).part = s.part ∧ (directoryFails s q line).err = s.err ∧
    (directoryFails s q line).pwr = s.pwr ∧ (directoryFails s q line).mgmt = s.mgmt ∧
    (directoryFails s q line).boot = s.boot ∧ (directoryFails s q line).cells = s.cells ∧
    (directoryFails s q line).mem = s.mem ∧ (directoryFails s q line).larder = s.larder ∧
    (directoryFails s q line).reg = s.reg ∧ (directoryFails s q line).trans = s.trans ∧
    (directoryFails s q line).link = s.link ∧ (directoryFails s q line).chord = s.chord ∧
    (directoryFails s q line).fresh = s.fresh ∧ (directoryFails s q line).pending = s.pending := by
  unfold directoryFails
  (try dsimp only)
  (repeat' (split <;> try (rename_i hp; first | (obtain ⟨rfl, rfl⟩ := Prod.ext_iff.mp hp) | (obtain ⟨rfl, hq⟩ := Prod.ext_iff.mp hp; obtain ⟨rfl, rfl⟩ := Prod.ext_iff.mp hq) | (obtain ⟨rfl, hq⟩ := Prod.ext_iff.mp hp; obtain ⟨rfl, _⟩ := Prod.ext_iff.mp hq) | (obtain ⟨_, hq⟩ := Prod.ext_iff.mp hp; obtain ⟨rfl, _⟩ := Prod.ext_iff.mp hq) | (obtain ⟨rfl, _⟩ := Prod.ext_iff.mp hp) | (obtain ⟨_, rfl⟩ := Prod.ext_iff.mp hp)))) <;> first | rfl | (simp; done) | (simp_all; done)

@[simp] theorem sramFails_frame (s : State) (u : SramUnit) :
    (sramFails s u).time = s.time ∧ (sramFails s u).pwr = s.pwr ∧ (sramFails s u).reg = s.reg ∧
    (sramFails s u).link = s.link ∧ (sramFails s u).fresh = s.fresh ∧ (sramFails s u).pending = s.pending := by
  unfold sramFails
  (try dsimp only)
  (repeat' (split <;> try (rename_i hp; first | (obtain ⟨rfl, rfl⟩ := Prod.ext_iff.mp hp) | (obtain ⟨rfl, hq⟩ := Prod.ext_iff.mp hp; obtain ⟨rfl, rfl⟩ := Prod.ext_iff.mp hq) | (obtain ⟨rfl, hq⟩ := Prod.ext_iff.mp hp; obtain ⟨rfl, _⟩ := Prod.ext_iff.mp hq) | (obtain ⟨_, hq⟩ := Prod.ext_iff.mp hp; obtain ⟨rfl, _⟩ := Prod.ext_iff.mp hq) | (obtain ⟨rfl, _⟩ := Prod.ext_iff.mp hp) | (obtain ⟨_, rfl⟩ := Prod.ext_iff.mp hp)))) <;> first | rfl | (simp; done) | (simp_all; done)

@[simp] theorem sramCorrected_frame (s : State) (u : SramUnit) :
    (sramCorrected s u).time = s.time ∧ (sramCorrected s u).pwr = s.pwr ∧ (sramCorrected s u).reg = s.reg ∧
    (sramCorrected s u).link = s.link ∧ (sramCorrected s u).fresh = s.fresh ∧
    (sramCorrected s u).pending = s.pending := by
  unfold sramCorrected
  (try dsimp only)
  (repeat' (split <;> try (rename_i hp; first | (obtain ⟨rfl, rfl⟩ := Prod.ext_iff.mp hp) | (obtain ⟨rfl, hq⟩ := Prod.ext_iff.mp hp; obtain ⟨rfl, rfl⟩ := Prod.ext_iff.mp hq) | (obtain ⟨rfl, hq⟩ := Prod.ext_iff.mp hp; obtain ⟨rfl, _⟩ := Prod.ext_iff.mp hq) | (obtain ⟨_, hq⟩ := Prod.ext_iff.mp hp; obtain ⟨rfl, _⟩ := Prod.ext_iff.mp hq) | (obtain ⟨rfl, _⟩ := Prod.ext_iff.mp hp) | (obtain ⟨_, rfl⟩ := Prod.ext_iff.mp hp)))) <;> first | rfl | (simp; done) | (simp_all; done)

@[simp] theorem endSegment_frame (s : State) (k : Nat) :
    (endSegment s k).time = s.time ∧ (endSegment s k).cp = s.cp ∧ (endSegment s k).part = s.part ∧
    (endSegment s k).pwr = s.pwr ∧ (endSegment s k).mgmt = s.mgmt ∧ (endSegment s k).boot = s.boot ∧
    (endSegment s k).cells = s.cells ∧ (endSegment s k).mem = s.mem ∧ (endSegment s k).larder = s.larder ∧
    (endSegment s k).reg = s.reg ∧ (endSegment s k).trans = s.trans ∧ (endSegment s k).attic = s.attic ∧
    (endSegment s k).link = s.link ∧ (endSegment s k).chord = s.chord ∧ (endSegment s k).fresh = s.fresh ∧
    (endSegment s k).out = s.out ∧ (endSegment s k).pending = s.pending := by
  unfold endSegment
  simp

@[simp] theorem scrubFinds_frame (s : State) (at_ : ScrubAt) (ecc : Ecc) :
    (scrubFinds s at_ ecc).time = s.time ∧ (scrubFinds s at_ ecc).pwr = s.pwr ∧ (scrubFinds s at_ ecc).reg = s.reg ∧
    (scrubFinds s at_ ecc).link = s.link ∧ (scrubFinds s at_ ecc).pending = s.pending := by
  unfold scrubFinds
  (try dsimp only)
  (repeat' (split <;> try (rename_i hp; first | (obtain ⟨rfl, rfl⟩ := Prod.ext_iff.mp hp) | (obtain ⟨rfl, hq⟩ := Prod.ext_iff.mp hp; obtain ⟨rfl, rfl⟩ := Prod.ext_iff.mp hq) | (obtain ⟨rfl, hq⟩ := Prod.ext_iff.mp hp; obtain ⟨rfl, _⟩ := Prod.ext_iff.mp hq) | (obtain ⟨_, hq⟩ := Prod.ext_iff.mp hp; obtain ⟨rfl, _⟩ := Prod.ext_iff.mp hq) | (obtain ⟨rfl, _⟩ := Prod.ext_iff.mp hp) | (obtain ⟨_, rfl⟩ := Prod.ext_iff.mp hp)))) <;> first | rfl | (simp; done) | (simp_all; done)

end Sys2Proof.Machine
end

