-- ==== Sys2Proof/Laws/FrameAtticPort.lean ====
section
/-! SUPPORT. What each operation of Machine/AtticPort.lean leaves as it was, by component of the state. -/
set_option maxRecDepth 4000
set_option exponentiation.threshold 2000
namespace Sys2Proof.Machine

@[simp] theorem raiseAttic_frame (s : State) (e : EventCode) (site reason poisoned absorbed : Nat) :
    (raiseAttic s e site reason poisoned absorbed).time = s.time ∧
    (raiseAttic s e site reason poisoned absorbed).part = s.part ∧
    (raiseAttic s e site reason poisoned absorbed).err = s.err ∧
    (raiseAttic s e site reason poisoned absorbed).pwr = s.pwr ∧
    (raiseAttic s e site reason poisoned absorbed).boot = s.boot ∧
    (raiseAttic s e site reason poisoned absorbed).cells = s.cells ∧
    (raiseAttic s e site reason poisoned absorbed).mem = s.mem ∧
    (raiseAttic s e site reason poisoned absorbed).larder = s.larder ∧
    (raiseAttic s e site reason poisoned absorbed).reg = s.reg ∧
    (raiseAttic s e site reason poisoned absorbed).trans = s.trans ∧
    (raiseAttic s e site reason poisoned absorbed).attic = s.attic ∧
    (raiseAttic s e site reason poisoned absorbed).link = s.link ∧
    (raiseAttic s e site reason poisoned absorbed).chord = s.chord ∧
    (raiseAttic s e site reason poisoned absorbed).fresh = s.fresh ∧
    (raiseAttic s e site reason poisoned absorbed).pending = s.pending := by
  unfold raiseAttic
  simp

@[simp] theorem recordLanes_frame (s : State) (site : Nat) (found : List Nat) :
    (recordLanes s site found).time = s.time ∧ (recordLanes s site found).cp = s.cp ∧
    (recordLanes s site found).part = s.part ∧ (recordLanes s site found).err = s.err ∧
    (recordLanes s site found).pwr = s.pwr ∧ (recordLanes s site found).mgmt = s.mgmt ∧
    (recordLanes s site found).cells = s.cells ∧ (recordLanes s site found).mem = s.mem ∧
    (recordLanes s site found).larder = s.larder ∧ (recordLanes s site found).reg = s.reg ∧
    (recordLanes s site found).trans = s.trans ∧ (recordLanes s site found).attic = s.attic ∧
    (recordLanes s site found).link = s.link ∧ (recordLanes s site found).chord = s.chord ∧
    (recordLanes s site found).fresh = s.fresh ∧ (recordLanes s site found).out = s.out ∧
    (recordLanes s site found).pending = s.pending := by
  unfold recordLanes
  simp

@[simp] theorem applyLanes_frame (s : State) (site : Nat) (test : LaneTest) :
    (applyLanes s site test).time = s.time ∧ (applyLanes s site test).part = s.part ∧
    (applyLanes s site test).err = s.err ∧ (applyLanes s site test).pwr = s.pwr ∧
    (applyLanes s site test).cells = s.cells ∧ (applyLanes s site test).mem = s.mem ∧
    (applyLanes s site test).larder = s.larder ∧ (applyLanes s site test).reg = s.reg ∧
    (applyLanes s site test).trans = s.trans ∧ (applyLanes s site test).link = s.link ∧
    (applyLanes s site test).chord = s.chord ∧ (applyLanes s site test).fresh = s.fresh ∧
    (applyLanes s site test).pending = s.pending := by
  unfold applyLanes
  simp

@[simp] theorem beginAttempt_frame (s : State) (site : Nat) :
    (beginAttempt s site).time = s.time ∧ (beginAttempt s site).cp = s.cp ∧ (beginAttempt s site).part = s.part ∧
    (beginAttempt s site).err = s.err ∧ (beginAttempt s site).pwr = s.pwr ∧ (beginAttempt s site).mgmt = s.mgmt ∧
    (beginAttempt s site).boot = s.boot ∧ (beginAttempt s site).cells = s.cells ∧ (beginAttempt s site).mem = s.mem ∧
    (beginAttempt s site).larder = s.larder ∧ (beginAttempt s site).reg = s.reg ∧
    (beginAttempt s site).trans = s.trans ∧ (beginAttempt s site).link = s.link ∧
    (beginAttempt s site).chord = s.chord ∧ (beginAttempt s site).fresh = s.fresh ∧
    (beginAttempt s site).pending = s.pending := by
  unfold beginAttempt
  simp

@[simp] theorem beginBringUp_frame (s : State) (site : Nat) (retrain : Bool) :
    (beginBringUp s site retrain).time = s.time ∧ (beginBringUp s site retrain).cp = s.cp ∧
    (beginBringUp s site retrain).part = s.part ∧ (beginBringUp s site retrain).err = s.err ∧
    (beginBringUp s site retrain).pwr = s.pwr ∧ (beginBringUp s site retrain).mgmt = s.mgmt ∧
    (beginBringUp s site retrain).cells = s.cells ∧ (beginBringUp s site retrain).mem = s.mem ∧
    (beginBringUp s site retrain).larder = s.larder ∧ (beginBringUp s site retrain).reg = s.reg ∧
    (beginBringUp s site retrain).trans = s.trans ∧ (beginBringUp s site retrain).link = s.link ∧
    (beginBringUp s site retrain).chord = s.chord ∧ (beginBringUp s site retrain).fresh = s.fresh ∧
    (beginBringUp s site retrain).pending = s.pending := by
  unfold beginBringUp
  simp

@[simp] theorem leaveMask_frame (s : State) (site : Nat) :
    (leaveMask s site).time = s.time ∧ (leaveMask s site).cp = s.cp ∧ (leaveMask s site).err = s.err ∧
    (leaveMask s site).pwr = s.pwr ∧ (leaveMask s site).mgmt = s.mgmt ∧ (leaveMask s site).cells = s.cells ∧
    (leaveMask s site).mem = s.mem ∧ (leaveMask s site).larder = s.larder ∧ (leaveMask s site).reg = s.reg ∧
    (leaveMask s site).trans = s.trans ∧ (leaveMask s site).link = s.link ∧ (leaveMask s site).chord = s.chord ∧
    (leaveMask s site).fresh = s.fresh ∧ (leaveMask s site).out = s.out ∧
    (leaveMask s site).pending = s.pending := by
  unfold leaveMask
  simp

@[simp] theorem absorbWindow_frame (s : State) (site : Nat) (record : Bool) (e : Nat × WindowReq) :
    (absorbWindow s site record e).time = s.time ∧ (absorbWindow s site record e).part = s.part ∧
    (absorbWindow s site record e).pwr = s.pwr ∧ (absorbWindow s site record e).boot = s.boot ∧
    (absorbWindow s site record e).cells = s.cells ∧ (absorbWindow s site record e).larder = s.larder ∧
    (absorbWindow s site record e).reg = s.reg ∧ (absorbWindow s site record e).trans = s.trans ∧
    (absorbWindow s site record e).link = s.link ∧ (absorbWindow s site record e).chord = s.chord ∧
    (absorbWindow s site record e).fresh = s.fresh ∧ (absorbWindow s site record e).pending = s.pending := by
  unfold absorbWindow
  (try dsimp only)
  (repeat' (split <;> try (rename_i hp; first | (obtain ⟨rfl, rfl⟩ := Prod.ext_iff.mp hp) | (obtain ⟨rfl, hq⟩ := Prod.ext_iff.mp hp; obtain ⟨rfl, rfl⟩ := Prod.ext_iff.mp hq) | (obtain ⟨rfl, hq⟩ := Prod.ext_iff.mp hp; obtain ⟨rfl, _⟩ := Prod.ext_iff.mp hq) | (obtain ⟨_, hq⟩ := Prod.ext_iff.mp hp; obtain ⟨rfl, _⟩ := Prod.ext_iff.mp hq) | (obtain ⟨rfl, _⟩ := Prod.ext_iff.mp hp) | (obtain ⟨_, rfl⟩ := Prod.ext_iff.mp hp)))) <;> first | rfl | (simp; done) | (simp_all; done)

@[simp] theorem reclaimEntry_frame (s : State) (site line : Nat) (e : DirEntry) :
    (reclaimEntry s site line e).1.time = s.time ∧ (reclaimEntry s site line e).1.part = s.part ∧
    (reclaimEntry s site line e).1.pwr = s.pwr ∧ (reclaimEntry s site line e).1.boot = s.boot ∧
    (reclaimEntry s site line e).1.larder = s.larder ∧ (reclaimEntry s site line e).1.reg = s.reg ∧
    (reclaimEntry s site line e).1.trans = s.trans ∧ (reclaimEntry s site line e).1.link = s.link ∧
    (reclaimEntry s site line e).1.chord = s.chord ∧ (reclaimEntry s site line e).1.fresh = s.fresh ∧
    (reclaimEntry s site line e).1.pending = s.pending := by
  unfold reclaimEntry
  simp

@[simp] theorem endSnoops_frame (s : State) (site : Nat) :
    (endSnoops s site).time = s.time ∧ (endSnoops s site).cp = s.cp ∧ (endSnoops s site).part = s.part ∧
    (endSnoops s site).err = s.err ∧ (endSnoops s site).pwr = s.pwr ∧ (endSnoops s site).mgmt = s.mgmt ∧
    (endSnoops s site).boot = s.boot ∧ (endSnoops s site).cells = s.cells ∧ (endSnoops s site).mem = s.mem ∧
    (endSnoops s site).larder = s.larder ∧ (endSnoops s site).reg = s.reg ∧ (endSnoops s site).trans = s.trans ∧
    (endSnoops s site).link = s.link ∧ (endSnoops s site).chord = s.chord ∧ (endSnoops s site).fresh = s.fresh ∧
    (endSnoops s site).out = s.out ∧ (endSnoops s site).pending = s.pending := by
  unfold endSnoops
  simp

@[simp] theorem dropDieRequests_frame (s : State) (site : Nat) :
    (dropDieRequests s site).time = s.time ∧ (dropDieRequests s site).part = s.part ∧
    (dropDieRequests s site).err = s.err ∧ (dropDieRequests s site).pwr = s.pwr ∧
    (dropDieRequests s site).mgmt = s.mgmt ∧ (dropDieRequests s site).boot = s.boot ∧
    (dropDieRequests s site).cells = s.cells ∧ (dropDieRequests s site).larder = s.larder ∧
    (dropDieRequests s site).reg = s.reg ∧ (dropDieRequests s site).link = s.link ∧
    (dropDieRequests s site).chord = s.chord ∧ (dropDieRequests s site).fresh = s.fresh ∧
    (dropDieRequests s site).out = s.out ∧ (dropDieRequests s site).pending = s.pending := by
  unfold dropDieRequests
  simp

@[simp] theorem poisonPart_frame (s : State) (site : Nat) (p : AtticPart) :
    (poisonPart s site p).time = s.time ∧ (poisonPart s site p).part = s.part ∧ (poisonPart s site p).err = s.err ∧
    (poisonPart s site p).pwr = s.pwr ∧ (poisonPart s site p).mgmt = s.mgmt ∧ (poisonPart s site p).boot = s.boot ∧
    (poisonPart s site p).mem = s.mem ∧ (poisonPart s site p).reg = s.reg ∧ (poisonPart s site p).link = s.link ∧
    (poisonPart s site p).fresh = s.fresh ∧ (poisonPart s site p).pending = s.pending := by
  unfold poisonPart
  simp

@[simp] theorem dropPegWaits_frame (s : State) (site : Nat) :
    (dropPegWaits s site).time = s.time ∧ (dropPegWaits s site).part = s.part ∧ (dropPegWaits s site).err = s.err ∧
    (dropPegWaits s site).pwr = s.pwr ∧ (dropPegWaits s site).mgmt = s.mgmt ∧ (dropPegWaits s site).boot = s.boot ∧
    (dropPegWaits s site).mem = s.mem ∧ (dropPegWaits s site).reg = s.reg ∧ (dropPegWaits s site).link = s.link ∧
    (dropPegWaits s site).pending = s.pending := by
  unfold dropPegWaits
  simp

@[simp] theorem dieGone_frame (s : State) (site : Nat) :
    (dieGone s site).1.time = s.time ∧ (dieGone s site).1.part = s.part ∧ (dieGone s site).1.pwr = s.pwr ∧
    (dieGone s site).1.boot = s.boot ∧ (dieGone s site).1.reg = s.reg ∧ (dieGone s site).1.link = s.link ∧
    (dieGone s site).1.pending = s.pending := by
  unfold dieGone
  simp

@[simp] theorem countPortReset_frame (s : State) (site : Nat) :
    (countPortReset s site).time = s.time ∧ (countPortReset s site).cp = s.cp ∧
    (countPortReset s site).part = s.part ∧ (countPortReset s site).err = s.err ∧
    (countPortReset s site).pwr = s.pwr ∧ (countPortReset s site).mgmt = s.mgmt ∧
    (countPortReset s site).boot = s.boot ∧ (countPortReset s site).cells = s.cells ∧
    (countPortReset s site).mem = s.mem ∧ (countPortReset s site).larder = s.larder ∧
    (countPortReset s site).reg = s.reg ∧ (countPortReset s site).trans = s.trans ∧
    (countPortReset s site).link = s.link ∧ (countPortReset s site).chord = s.chord ∧
    (countPortReset s site).fresh = s.fresh ∧ (countPortReset s site).out = s.out ∧
    (countPortReset s site).pending = s.pending := by
  unfold countPortReset
  simp

@[simp] theorem dieReset_frame (s : State) (site : Nat) :
    (dieReset s site).time = s.time ∧ (dieReset s site).part = s.part ∧ (dieReset s site).pwr = s.pwr ∧
    (dieReset s site).reg = s.reg ∧ (dieReset s site).link = s.link ∧ (dieReset s site).pending = s.pending := by
  unfold dieReset
  simp

@[simp] theorem dieLost_frame (s : State) (site : Nat) :
    (dieLost s site).time = s.time ∧ (dieLost s site).part = s.part ∧ (dieLost s site).pwr = s.pwr ∧
    (dieLost s site).reg = s.reg ∧ (dieLost s site).link = s.link ∧ (dieLost s site).pending = s.pending := by
  unfold dieLost
  simp

@[simp] theorem retrain_frame (s : State) (site : Nat) :
    (retrain s site).time = s.time ∧ (retrain s site).cp = s.cp ∧ (retrain s site).part = s.part ∧
    (retrain s site).err = s.err ∧ (retrain s site).pwr = s.pwr ∧ (retrain s site).mgmt = s.mgmt ∧
    (retrain s site).cells = s.cells ∧ (retrain s site).mem = s.mem ∧ (retrain s site).larder = s.larder ∧
    (retrain s site).reg = s.reg ∧ (retrain s site).trans = s.trans ∧ (retrain s site).link = s.link ∧
    (retrain s site).chord = s.chord ∧ (retrain s site).fresh = s.fresh ∧ (retrain s site).pending = s.pending := by
  unfold retrain
  simp

@[simp] theorem portDown_frame (s : State) (site reason : Nat) :
    (portDown s site reason).time = s.time ∧ (portDown s site reason).pwr = s.pwr ∧
    (portDown s site reason).reg = s.reg ∧ (portDown s site reason).link = s.link ∧
    (portDown s site reason).pending = s.pending := by
  unfold portDown
  simp

@[simp] theorem failAttempt_frame (s : State) (site reason : Nat) :
    (failAttempt s site reason).time = s.time ∧ (failAttempt s site reason).pwr = s.pwr ∧
    (failAttempt s site reason).reg = s.reg ∧ (failAttempt s site reason).link = s.link ∧
    (failAttempt s site reason).pending = s.pending := by
  unfold failAttempt
  simp

@[simp] theorem portUp_frame (s : State) (site : Nat) (c : DieCap) (rate : Nat) :
    (portUp s site c rate).time = s.time ∧ (portUp s site c rate).part = s.part ∧
    (portUp s site c rate).boot = s.boot ∧ (portUp s site c rate).cells = s.cells ∧
    (portUp s site c rate).larder = s.larder ∧ (portUp s site c rate).reg = s.reg ∧
    (portUp s site c rate).trans = s.trans ∧ (portUp s site c rate).link = s.link ∧
    (portUp s site c rate).chord = s.chord ∧ (portUp s site c rate).fresh = s.fresh ∧
    (portUp s site c rate).pending = s.pending := by
  unfold portUp
  simp

@[simp] theorem dieAnswers_frame (s : State) (site : Nat) (c : DieCap) (test : LaneTest) :
    (dieAnswers s site c test).time = s.time ∧ (dieAnswers s site c test).reg = s.reg ∧
    (dieAnswers s site c test).link = s.link ∧ (dieAnswers s site c test).pending = s.pending := by
  unfold dieAnswers
  (try dsimp only)
  (repeat' (split <;> try (rename_i hp; first | (obtain ⟨rfl, rfl⟩ := Prod.ext_iff.mp hp) | (obtain ⟨rfl, hq⟩ := Prod.ext_iff.mp hp; obtain ⟨rfl, rfl⟩ := Prod.ext_iff.mp hq) | (obtain ⟨rfl, hq⟩ := Prod.ext_iff.mp hp; obtain ⟨rfl, _⟩ := Prod.ext_iff.mp hq) | (obtain ⟨_, hq⟩ := Prod.ext_iff.mp hp; obtain ⟨rfl, _⟩ := Prod.ext_iff.mp hq) | (obtain ⟨rfl, _⟩ := Prod.ext_iff.mp hp) | (obtain ⟨_, rfl⟩ := Prod.ext_iff.mp hp)))) <;> first | rfl | (simp; done) | (simp_all; done)

end Sys2Proof.Machine
end

