-- ==== Sys2Proof/Laws/FrameAttic.lean ====
section
/-! SUPPORT. What each operation of Machine/Attic.lean leaves as it was, by component of the state. -/
set_option maxRecDepth 4000
set_option exponentiation.threshold 2000
namespace Sys2Proof.Machine

@[simp] theorem noteUrgency_frame (s : State) (site : Nat) (m : AtpMsg) :
    (noteUrgency s site m).time = s.time ∧ (noteUrgency s site m).cp = s.cp ∧ (noteUrgency s site m).part = s.part ∧
    (noteUrgency s site m).err = s.err ∧ (noteUrgency s site m).pwr = s.pwr ∧ (noteUrgency s site m).mgmt = s.mgmt ∧
    (noteUrgency s site m).boot = s.boot ∧ (noteUrgency s site m).cells = s.cells ∧
    (noteUrgency s site m).mem = s.mem ∧ (noteUrgency s site m).larder = s.larder ∧
    (noteUrgency s site m).trans = s.trans ∧ (noteUrgency s site m).attic = s.attic ∧
    (noteUrgency s site m).link = s.link ∧ (noteUrgency s site m).chord = s.chord ∧
    (noteUrgency s site m).fresh = s.fresh ∧ (noteUrgency s site m).out = s.out ∧
    (noteUrgency s site m).pending = s.pending := by
  unfold noteUrgency
  simp

@[simp] theorem answerDie_frame (s : State) (site txn status : Nat) (data : Bytes) :
    (answerDie s site txn status data).time = s.time ∧ (answerDie s site txn status data).cp = s.cp ∧
    (answerDie s site txn status data).part = s.part ∧ (answerDie s site txn status data).err = s.err ∧
    (answerDie s site txn status data).pwr = s.pwr ∧ (answerDie s site txn status data).mgmt = s.mgmt ∧
    (answerDie s site txn status data).boot = s.boot ∧ (answerDie s site txn status data).cells = s.cells ∧
    (answerDie s site txn status data).mem = s.mem ∧ (answerDie s site txn status data).larder = s.larder ∧
    (answerDie s site txn status data).reg = s.reg ∧ (answerDie s site txn status data).trans = s.trans ∧
    (answerDie s site txn status data).attic = s.attic ∧ (answerDie s site txn status data).link = s.link ∧
    (answerDie s site txn status data).chord = s.chord ∧ (answerDie s site txn status data).fresh = s.fresh ∧
    (answerDie s site txn status data).pending = s.pending := by
  unfold answerDie
  simp

@[simp] theorem protocolError_frame (s : State) (site : Nat) :
    (protocolError s site).time = s.time ∧ (protocolError s site).cp = s.cp ∧ (protocolError s site).part = s.part ∧
    (protocolError s site).err = s.err ∧ (protocolError s site).pwr = s.pwr ∧ (protocolError s site).mgmt = s.mgmt ∧
    (protocolError s site).boot = s.boot ∧ (protocolError s site).cells = s.cells ∧
    (protocolError s site).mem = s.mem ∧ (protocolError s site).larder = s.larder ∧
    (protocolError s site).reg = s.reg ∧ (protocolError s site).trans = s.trans ∧
    (protocolError s site).link = s.link ∧ (protocolError s site).chord = s.chord ∧
    (protocolError s site).fresh = s.fresh ∧ (protocolError s site).out = s.out ∧
    (protocolError s site).pending = s.pending := by
  unfold protocolError
  simp

@[simp] theorem malformed_frame (s : State) (site : Nat) (m : AtpMsg) :
    (malformed s site m).time = s.time ∧ (malformed s site m).cp = s.cp ∧ (malformed s site m).part = s.part ∧
    (malformed s site m).err = s.err ∧ (malformed s site m).pwr = s.pwr ∧ (malformed s site m).mgmt = s.mgmt ∧
    (malformed s site m).boot = s.boot ∧ (malformed s site m).cells = s.cells ∧ (malformed s site m).mem = s.mem ∧
    (malformed s site m).larder = s.larder ∧ (malformed s site m).reg = s.reg ∧ (malformed s site m).trans = s.trans ∧
    (malformed s site m).link = s.link ∧ (malformed s site m).chord = s.chord ∧ (malformed s site m).fresh = s.fresh ∧
    (malformed s site m).pending = s.pending := by
  unfold malformed
  simp

@[simp] theorem refuseDie_frame (s : State) (site : Nat) (m : AtpMsg) (code addr : Nat) :
    (refuseDie s site m code addr).time = s.time ∧ (refuseDie s site m code addr).part = s.part ∧
    (refuseDie s site m code addr).pwr = s.pwr ∧ (refuseDie s site m code addr).boot = s.boot ∧
    (refuseDie s site m code addr).cells = s.cells ∧ (refuseDie s site m code addr).mem = s.mem ∧
    (refuseDie s site m code addr).larder = s.larder ∧ (refuseDie s site m code addr).reg = s.reg ∧
    (refuseDie s site m code addr).trans = s.trans ∧ (refuseDie s site m code addr).attic = s.attic ∧
    (refuseDie s site m code addr).link = s.link ∧ (refuseDie s site m code addr).chord = s.chord ∧
    (refuseDie s site m code addr).fresh = s.fresh ∧ (refuseDie s site m code addr).pending = s.pending := by
  unfold refuseDie
  simp

@[simp] theorem takeAtp_time (s : State) (site op : Nat) (m : AtpMsg) (host : Fetch) (body : State → AtpMsg → State) (h0 : ∀ a0 a1, (body a0 a1).time = a0.time) :
    (takeAtp s site op m host body).time = s.time := by
  unfold takeAtp
  first
  | (simp [h0]; done)
  | ((try dsimp only)
     (repeat' (split <;> try (rename_i hp; first | (obtain ⟨rfl, rfl⟩ := Prod.ext_iff.mp hp) | (obtain ⟨rfl, hq⟩ := Prod.ext_iff.mp hp; obtain ⟨rfl, rfl⟩ := Prod.ext_iff.mp hq) | (obtain ⟨rfl, hq⟩ := Prod.ext_iff.mp hp; obtain ⟨rfl, _⟩ := Prod.ext_iff.mp hq) | (obtain ⟨_, hq⟩ := Prod.ext_iff.mp hp; obtain ⟨rfl, _⟩ := Prod.ext_iff.mp hq) | (obtain ⟨rfl, _⟩ := Prod.ext_iff.mp hp) | (obtain ⟨_, rfl⟩ := Prod.ext_iff.mp hp)))) <;> first | rfl | (simp [h0]; done) | (simp_all; done))

@[simp] theorem takeAtp_cp (s : State) (site op : Nat) (m : AtpMsg) (host : Fetch) (body : State → AtpMsg → State) (h0 : ∀ a0 a1, (body a0 a1).cp = a0.cp) :
    (takeAtp s site op m host body).cp = s.cp := by
  unfold takeAtp
  first
  | (simp [h0]; done)
  | ((try dsimp only)
     (repeat' (split <;> try (rename_i hp; first | (obtain ⟨rfl, rfl⟩ := Prod.ext_iff.mp hp) | (obtain ⟨rfl, hq⟩ := Prod.ext_iff.mp hp; obtain ⟨rfl, rfl⟩ := Prod.ext_iff.mp hq) | (obtain ⟨rfl, hq⟩ := Prod.ext_iff.mp hp; obtain ⟨rfl, _⟩ := Prod.ext_iff.mp hq) | (obtain ⟨_, hq⟩ := Prod.ext_iff.mp hp; obtain ⟨rfl, _⟩ := Prod.ext_iff.mp hq) | (obtain ⟨rfl, _⟩ := Prod.ext_iff.mp hp) | (obtain ⟨_, rfl⟩ := Prod.ext_iff.mp hp)))) <;> first | rfl | (simp [h0]; done) | (simp_all; done))

@[simp] theorem takeAtp_part (s : State) (site op : Nat) (m : AtpMsg) (host : Fetch) (body : State → AtpMsg → State) (h0 : ∀ a0 a1, (body a0 a1).part = a0.part) :
    (takeAtp s site op m host body).part = s.part := by
  unfold takeAtp
  first
  | (simp [h0]; done)
  | ((try dsimp only)
     (repeat' (split <;> try (rename_i hp; first | (obtain ⟨rfl, rfl⟩ := Prod.ext_iff.mp hp) | (obtain ⟨rfl, hq⟩ := Prod.ext_iff.mp hp; obtain ⟨rfl, rfl⟩ := Prod.ext_iff.mp hq) | (obtain ⟨rfl, hq⟩ := Prod.ext_iff.mp hp; obtain ⟨rfl, _⟩ := Prod.ext_iff.mp hq) | (obtain ⟨_, hq⟩ := Prod.ext_iff.mp hp; obtain ⟨rfl, _⟩ := Prod.ext_iff.mp hq) | (obtain ⟨rfl, _⟩ := Prod.ext_iff.mp hp) | (obtain ⟨_, rfl⟩ := Prod.ext_iff.mp hp)))) <;> first | rfl | (simp [h0]; done) | (simp_all; done))

@[simp] theorem takeAtp_err (s : State) (site op : Nat) (m : AtpMsg) (host : Fetch) (body : State → AtpMsg → State) (h0 : ∀ a0 a1, (body a0 a1).err = a0.err) :
    (takeAtp s site op m host body).err = s.err := by
  unfold takeAtp
  first
  | (simp [h0]; done)
  | ((try dsimp only)
     (repeat' (split <;> try (rename_i hp; first | (obtain ⟨rfl, rfl⟩ := Prod.ext_iff.mp hp) | (obtain ⟨rfl, hq⟩ := Prod.ext_iff.mp hp; obtain ⟨rfl, rfl⟩ := Prod.ext_iff.mp hq) | (obtain ⟨rfl, hq⟩ := Prod.ext_iff.mp hp; obtain ⟨rfl, _⟩ := Prod.ext_iff.mp hq) | (obtain ⟨_, hq⟩ := Prod.ext_iff.mp hp; obtain ⟨rfl, _⟩ := Prod.ext_iff.mp hq) | (obtain ⟨rfl, _⟩ := Prod.ext_iff.mp hp) | (obtain ⟨_, rfl⟩ := Prod.ext_iff.mp hp)))) <;> first | rfl | (simp [h0]; done) | (simp_all; done))

@[simp] theorem takeAtp_pwr (s : State) (site op : Nat) (m : AtpMsg) (host : Fetch) (body : State → AtpMsg → State) (h0 : ∀ a0 a1, (body a0 a1).pwr = a0.pwr) :
    (takeAtp s site op m host body).pwr = s.pwr := by
  unfold takeAtp
  first
  | (simp [h0]; done)
  | ((try dsimp only)
     (repeat' (split <;> try (rename_i hp; first | (obtain ⟨rfl, rfl⟩ := Prod.ext_iff.mp hp) | (obtain ⟨rfl, hq⟩ := Prod.ext_iff.mp hp; obtain ⟨rfl, rfl⟩ := Prod.ext_iff.mp hq) | (obtain ⟨rfl, hq⟩ := Prod.ext_iff.mp hp; obtain ⟨rfl, _⟩ := Prod.ext_iff.mp hq) | (obtain ⟨_, hq⟩ := Prod.ext_iff.mp hp; obtain ⟨rfl, _⟩ := Prod.ext_iff.mp hq) | (obtain ⟨rfl, _⟩ := Prod.ext_iff.mp hp) | (obtain ⟨_, rfl⟩ := Prod.ext_iff.mp hp)))) <;> first | rfl | (simp [h0]; done) | (simp_all; done))

@[simp] theorem takeAtp_mgmt (s : State) (site op : Nat) (m : AtpMsg) (host : Fetch) (body : State → AtpMsg → State) (h0 : ∀ a0 a1, (body a0 a1).mgmt = a0.mgmt) :
    (takeAtp s site op m host body).mgmt = s.mgmt := by
  unfold takeAtp
  first
  | (simp [h0]; done)
  | ((try dsimp only)
     (repeat' (split <;> try (rename_i hp; first | (obtain ⟨rfl, rfl⟩ := Prod.ext_iff.mp hp) | (obtain ⟨rfl, hq⟩ := Prod.ext_iff.mp hp; obtain ⟨rfl, rfl⟩ := Prod.ext_iff.mp hq) | (obtain ⟨rfl, hq⟩ := Prod.ext_iff.mp hp; obtain ⟨rfl, _⟩ := Prod.ext_iff.mp hq) | (obtain ⟨_, hq⟩ := Prod.ext_iff.mp hp; obtain ⟨rfl, _⟩ := Prod.ext_iff.mp hq) | (obtain ⟨rfl, _⟩ := Prod.ext_iff.mp hp) | (obtain ⟨_, rfl⟩ := Prod.ext_iff.mp hp)))) <;> first | rfl | (simp [h0]; done) | (simp_all; done))

@[simp] theorem takeAtp_boot (s : State) (site op : Nat) (m : AtpMsg) (host : Fetch) (body : State → AtpMsg → State) (h0 : ∀ a0 a1, (body a0 a1).boot = a0.boot) :
    (takeAtp s site op m host body).boot = s.boot := by
  unfold takeAtp
  first
  | (simp [h0]; done)
  | ((try dsimp only)
     (repeat' (split <;> try (rename_i hp; first | (obtain ⟨rfl, rfl⟩ := Prod.ext_iff.mp hp) | (obtain ⟨rfl, hq⟩ := Prod.ext_iff.mp hp; obtain ⟨rfl, rfl⟩ := Prod.ext_iff.mp hq) | (obtain ⟨rfl, hq⟩ := Prod.ext_iff.mp hp; obtain ⟨rfl, _⟩ := Prod.ext_iff.mp hq) | (obtain ⟨_, hq⟩ := Prod.ext_iff.mp hp; obtain ⟨rfl, _⟩ := Prod.ext_iff.mp hq) | (obtain ⟨rfl, _⟩ := Prod.ext_iff.mp hp) | (obtain ⟨_, rfl⟩ := Prod.ext_iff.mp hp)))) <;> first | rfl | (simp [h0]; done) | (simp_all; done))

@[simp] theorem takeAtp_cells (s : State) (site op : Nat) (m : AtpMsg) (host : Fetch) (body : State → AtpMsg → State) (h0 : ∀ a0 a1, (body a0 a1).cells = a0.cells) :
    (takeAtp s site op m host body).cells = s.cells := by
  unfold takeAtp
  first
  | (simp [h0]; done)
  | ((try dsimp only)
     (repeat' (split <;> try (rename_i hp; first | (obtain ⟨rfl, rfl⟩ := Prod.ext_iff.mp hp) | (obtain ⟨rfl, hq⟩ := Prod.ext_iff.mp hp; obtain ⟨rfl, rfl⟩ := Prod.ext_iff.mp hq) | (obtain ⟨rfl, hq⟩ := Prod.ext_iff.mp hp; obtain ⟨rfl, _⟩ := Prod.ext_iff.mp hq) | (obtain ⟨_, hq⟩ := Prod.ext_iff.mp hp; obtain ⟨rfl, _⟩ := Prod.ext_iff.mp hq) | (obtain ⟨rfl, _⟩ := Prod.ext_iff.mp hp) | (obtain ⟨_, rfl⟩ := Prod.ext_iff.mp hp)))) <;> first | rfl | (simp [h0]; done) | (simp_all; done))

@[simp] theorem takeAtp_mem (s : State) (site op : Nat) (m : AtpMsg) (host : Fetch) (body : State → AtpMsg → State) (h0 : ∀ a0 a1, (body a0 a1).mem = a0.mem) :
    (takeAtp s site op m host body).mem = s.mem := by
  unfold takeAtp
  first
  | (simp [h0]; done)
  | ((try dsimp only)
     (repeat' (split <;> try (rename_i hp; first | (obtain ⟨rfl, rfl⟩ := Prod.ext_iff.mp hp) | (obtain ⟨rfl, hq⟩ := Prod.ext_iff.mp hp; obtain ⟨rfl, rfl⟩ := Prod.ext_iff.mp hq) | (obtain ⟨rfl, hq⟩ := Prod.ext_iff.mp hp; obtain ⟨rfl, _⟩ := Prod.ext_iff.mp hq) | (obtain ⟨_, hq⟩ := Prod.ext_iff.mp hp; obtain ⟨rfl, _⟩ := Prod.ext_iff.mp hq) | (obtain ⟨rfl, _⟩ := Prod.ext_iff.mp hp) | (obtain ⟨_, rfl⟩ := Prod.ext_iff.mp hp)))) <;> first | rfl | (simp [h0]; done) | (simp_all; done))

@[simp] theorem takeAtp_larder (s : State) (site op : Nat) (m : AtpMsg) (host : Fetch) (body : State → AtpMsg → State) (h0 : ∀ a0 a1, (body a0 a1).larder = a0.larder) :
    (takeAtp s site op m host body).larder = s.larder := by
  unfold takeAtp
  first
  | (simp [h0]; done)
  | ((try dsimp only)
     (repeat' (split <;> try (rename_i hp; first | (obtain ⟨rfl, rfl⟩ := Prod.ext_iff.mp hp) | (obtain ⟨rfl, hq⟩ := Prod.ext_iff.mp hp; obtain ⟨rfl, rfl⟩ := Prod.ext_iff.mp hq) | (obtain ⟨rfl, hq⟩ := Prod.ext_iff.mp hp; obtain ⟨rfl, _⟩ := Prod.ext_iff.mp hq) | (obtain ⟨_, hq⟩ := Prod.ext_iff.mp hp; obtain ⟨rfl, _⟩ := Prod.ext_iff.mp hq) | (obtain ⟨rfl, _⟩ := Prod.ext_iff.mp hp) | (obtain ⟨_, rfl⟩ := Prod.ext_iff.mp hp)))) <;> first | rfl | (simp [h0]; done) | (simp_all; done))

@[simp] theorem takeAtp_trans (s : State) (site op : Nat) (m : AtpMsg) (host : Fetch) (body : State → AtpMsg → State) (h0 : ∀ a0 a1, (body a0 a1).trans = a0.trans) :
    (takeAtp s site op m host body).trans = s.trans := by
  unfold takeAtp
  first
  | (simp [h0]; done)
  | ((try dsimp only)
     (repeat' (split <;> try (rename_i hp; first | (obtain ⟨rfl, rfl⟩ := Prod.ext_iff.mp hp) | (obtain ⟨rfl, hq⟩ := Prod.ext_iff.mp hp; obtain ⟨rfl, rfl⟩ := Prod.ext_iff.mp hq) | (obtain ⟨rfl, hq⟩ := Prod.ext_iff.mp hp; obtain ⟨rfl, _⟩ := Prod.ext_iff.mp hq) | (obtain ⟨_, hq⟩ := Prod.ext_iff.mp hp; obtain ⟨rfl, _⟩ := Prod.ext_iff.mp hq) | (obtain ⟨rfl, _⟩ := Prod.ext_iff.mp hp) | (obtain ⟨_, rfl⟩ := Prod.ext_iff.mp hp)))) <;> first | rfl | (simp [h0]; done) | (simp_all; done))

@[simp] theorem takeAtp_link (s : State) (site op : Nat) (m : AtpMsg) (host : Fetch) (body : State → AtpMsg → State) (h0 : ∀ a0 a1, (body a0 a1).link = a0.link) :
    (takeAtp s site op m host body).link = s.link := by
  unfold takeAtp
  first
  | (simp [h0]; done)
  | ((try dsimp only)
     (repeat' (split <;> try (rename_i hp; first | (obtain ⟨rfl, rfl⟩ := Prod.ext_iff.mp hp) | (obtain ⟨rfl, hq⟩ := Prod.ext_iff.mp hp; obtain ⟨rfl, rfl⟩ := Prod.ext_iff.mp hq) | (obtain ⟨rfl, hq⟩ := Prod.ext_iff.mp hp; obtain ⟨rfl, _⟩ := Prod.ext_iff.mp hq) | (obtain ⟨_, hq⟩ := Prod.ext_iff.mp hp; obtain ⟨rfl, _⟩ := Prod.ext_iff.mp hq) | (obtain ⟨rfl, _⟩ := Prod.ext_iff.mp hp) | (obtain ⟨_, rfl⟩ := Prod.ext_iff.mp hp)))) <;> first | rfl | (simp [h0]; done) | (simp_all; done))

@[simp] theorem takeAtp_chord (s : State) (site op : Nat) (m : AtpMsg) (host : Fetch) (body : State → AtpMsg → State) (h0 : ∀ a0 a1, (body a0 a1).chord = a0.chord) :
    (takeAtp s site op m host body).chord = s.chord := by
  unfold takeAtp
  first
  | (simp [h0]; done)
  | ((try dsimp only)
     (repeat' (split <;> try (rename_i hp; first | (obtain ⟨rfl, rfl⟩ := Prod.ext_iff.mp hp) | (obtain ⟨rfl, hq⟩ := Prod.ext_iff.mp hp; obtain ⟨rfl, rfl⟩ := Prod.ext_iff.mp hq) | (obtain ⟨rfl, hq⟩ := Prod.ext_iff.mp hp; obtain ⟨rfl, _⟩ := Prod.ext_iff.mp hq) | (obtain ⟨_, hq⟩ := Prod.ext_iff.mp hp; obtain ⟨rfl, _⟩ := Prod.ext_iff.mp hq) | (obtain ⟨rfl, _⟩ := Prod.ext_iff.mp hp) | (obtain ⟨_, rfl⟩ := Prod.ext_iff.mp hp)))) <;> first | rfl | (simp [h0]; done) | (simp_all; done))

@[simp] theorem takeAtp_fresh (s : State) (site op : Nat) (m : AtpMsg) (host : Fetch) (body : State → AtpMsg → State) (h0 : ∀ a0 a1, (body a0 a1).fresh = a0.fresh) :
    (takeAtp s site op m host body).fresh = s.fresh := by
  unfold takeAtp
  first
  | (simp [h0]; done)
  | ((try dsimp only)
     (repeat' (split <;> try (rename_i hp; first | (obtain ⟨rfl, rfl⟩ := Prod.ext_iff.mp hp) | (obtain ⟨rfl, hq⟩ := Prod.ext_iff.mp hp; obtain ⟨rfl, rfl⟩ := Prod.ext_iff.mp hq) | (obtain ⟨rfl, hq⟩ := Prod.ext_iff.mp hp; obtain ⟨rfl, _⟩ := Prod.ext_iff.mp hq) | (obtain ⟨_, hq⟩ := Prod.ext_iff.mp hp; obtain ⟨rfl, _⟩ := Prod.ext_iff.mp hq) | (obtain ⟨rfl, _⟩ := Prod.ext_iff.mp hp) | (obtain ⟨_, rfl⟩ := Prod.ext_iff.mp hp)))) <;> first | rfl | (simp [h0]; done) | (simp_all; done))

@[simp] theorem takeAtp_out (s : State) (site op : Nat) (m : AtpMsg) (host : Fetch) (body : State → AtpMsg → State) (h0 : ∀ a0 a1, (body a0 a1).out = a0.out) :
    (takeAtp s site op m host body).out = s.out := by
  unfold takeAtp
  first
  | (simp [h0]; done)
  | ((try dsimp only)
     (repeat' (split <;> try (rename_i hp; first | (obtain ⟨rfl, rfl⟩ := Prod.ext_iff.mp hp) | (obtain ⟨rfl, hq⟩ := Prod.ext_iff.mp hp; obtain ⟨rfl, rfl⟩ := Prod.ext_iff.mp hq) | (obtain ⟨rfl, hq⟩ := Prod.ext_iff.mp hp; obtain ⟨rfl, _⟩ := Prod.ext_iff.mp hq) | (obtain ⟨_, hq⟩ := Prod.ext_iff.mp hp; obtain ⟨rfl, _⟩ := Prod.ext_iff.mp hq) | (obtain ⟨rfl, _⟩ := Prod.ext_iff.mp hp) | (obtain ⟨_, rfl⟩ := Prod.ext_iff.mp hp)))) <;> first | rfl | (simp [h0]; done) | (simp_all; done))

@[simp] theorem takeAtp_pending (s : State) (site op : Nat) (m : AtpMsg) (host : Fetch) (body : State → AtpMsg → State) (h0 : ∀ a0 a1, (body a0 a1).pending = a0.pending) :
    (takeAtp s site op m host body).pending = s.pending := by
  unfold takeAtp
  first
  | (simp [h0]; done)
  | ((try dsimp only)
     (repeat' (split <;> try (rename_i hp; first | (obtain ⟨rfl, rfl⟩ := Prod.ext_iff.mp hp) | (obtain ⟨rfl, hq⟩ := Prod.ext_iff.mp hp; obtain ⟨rfl, rfl⟩ := Prod.ext_iff.mp hq) | (obtain ⟨rfl, hq⟩ := Prod.ext_iff.mp hp; obtain ⟨rfl, _⟩ := Prod.ext_iff.mp hq) | (obtain ⟨_, hq⟩ := Prod.ext_iff.mp hp; obtain ⟨rfl, _⟩ := Prod.ext_iff.mp hq) | (obtain ⟨rfl, _⟩ := Prod.ext_iff.mp hp) | (obtain ⟨_, rfl⟩ := Prod.ext_iff.mp hp)))) <;> first | rfl | (simp [h0]; done) | (simp_all; done))

@[simp] theorem dieTxn_frame (s : State) (site : Nat) (m : AtpMsg) (t : Txn) :
    (dieTxn s site m t).time = s.time ∧ (dieTxn s site m t).cp = s.cp ∧ (dieTxn s site m t).part = s.part ∧
    (dieTxn s site m t).err = s.err ∧ (dieTxn s site m t).pwr = s.pwr ∧ (dieTxn s site m t).mgmt = s.mgmt ∧
    (dieTxn s site m t).boot = s.boot ∧ (dieTxn s site m t).larder = s.larder ∧ (dieTxn s site m t).reg = s.reg ∧
    (dieTxn s site m t).trans = s.trans ∧ (dieTxn s site m t).attic = s.attic ∧ (dieTxn s site m t).link = s.link ∧
    (dieTxn s site m t).chord = s.chord ∧ (dieTxn s site m t).fresh = s.fresh ∧ (dieTxn s site m t).out = s.out ∧
    (dieTxn s site m t).pending = s.pending := by
  unfold dieTxn
  simp

@[simp] theorem cachedRead_frame (s : State) (site : Nat) (m : AtpMsg) (d : DirAct) :
    (cachedRead s site m d).time = s.time ∧ (cachedRead s site m d).part = s.part ∧
    (cachedRead s site m d).pwr = s.pwr ∧ (cachedRead s site m d).boot = s.boot ∧
    (cachedRead s site m d).larder = s.larder ∧ (cachedRead s site m d).reg = s.reg ∧
    (cachedRead s site m d).trans = s.trans ∧ (cachedRead s site m d).link = s.link ∧
    (cachedRead s site m d).chord = s.chord ∧ (cachedRead s site m d).fresh = s.fresh ∧
    (cachedRead s site m d).pending = s.pending := by
  unfold cachedRead
  simp

@[simp] theorem uncachedRead_frame (s : State) (site : Nat) (m : AtpMsg) :
    (uncachedRead s site m).time = s.time ∧ (uncachedRead s site m).part = s.part ∧
    (uncachedRead s site m).pwr = s.pwr ∧ (uncachedRead s site m).boot = s.boot ∧
    (uncachedRead s site m).larder = s.larder ∧ (uncachedRead s site m).reg = s.reg ∧
    (uncachedRead s site m).trans = s.trans ∧ (uncachedRead s site m).link = s.link ∧
    (uncachedRead s site m).chord = s.chord ∧ (uncachedRead s site m).fresh = s.fresh ∧
    (uncachedRead s site m).pending = s.pending := by
  unfold uncachedRead
  simp

@[simp] theorem uncachedWrite_frame (s : State) (site : Nat) (m : AtpMsg) :
    (uncachedWrite s site m).time = s.time ∧ (uncachedWrite s site m).part = s.part ∧
    (uncachedWrite s site m).pwr = s.pwr ∧ (uncachedWrite s site m).boot = s.boot ∧
    (uncachedWrite s site m).larder = s.larder ∧ (uncachedWrite s site m).reg = s.reg ∧
    (uncachedWrite s site m).trans = s.trans ∧ (uncachedWrite s site m).link = s.link ∧
    (uncachedWrite s site m).chord = s.chord ∧ (uncachedWrite s site m).fresh = s.fresh ∧
    (uncachedWrite s site m).pending = s.pending := by
  unfold uncachedWrite
  simp

@[simp] theorem dieAtomic_frame (s : State) (site : Nat) (m : AtpMsg) :
    (dieAtomic s site m).time = s.time ∧ (dieAtomic s site m).part = s.part ∧ (dieAtomic s site m).pwr = s.pwr ∧
    (dieAtomic s site m).boot = s.boot ∧ (dieAtomic s site m).larder = s.larder ∧ (dieAtomic s site m).reg = s.reg ∧
    (dieAtomic s site m).trans = s.trans ∧ (dieAtomic s site m).link = s.link ∧ (dieAtomic s site m).chord = s.chord ∧
    (dieAtomic s site m).fresh = s.fresh ∧ (dieAtomic s site m).pending = s.pending := by
  unfold dieAtomic
  (try dsimp only)
  (repeat' (split <;> try (rename_i hp; first | (obtain ⟨rfl, rfl⟩ := Prod.ext_iff.mp hp) | (obtain ⟨rfl, hq⟩ := Prod.ext_iff.mp hp; obtain ⟨rfl, rfl⟩ := Prod.ext_iff.mp hq) | (obtain ⟨rfl, hq⟩ := Prod.ext_iff.mp hp; obtain ⟨rfl, _⟩ := Prod.ext_iff.mp hq) | (obtain ⟨_, hq⟩ := Prod.ext_iff.mp hp; obtain ⟨rfl, _⟩ := Prod.ext_iff.mp hq) | (obtain ⟨rfl, _⟩ := Prod.ext_iff.mp hp) | (obtain ⟨_, rfl⟩ := Prod.ext_iff.mp hp)))) <;> first | rfl | (simp; done) | (simp_all; done)

@[simp] theorem giveUp_frame (s : State) (site : Nat) (m : AtpMsg) (dirty : Bool) :
    (giveUp s site m dirty).time = s.time ∧ (giveUp s site m dirty).part = s.part ∧
    (giveUp s site m dirty).pwr = s.pwr ∧ (giveUp s site m dirty).boot = s.boot ∧
    (giveUp s site m dirty).larder = s.larder ∧ (giveUp s site m dirty).reg = s.reg ∧
    (giveUp s site m dirty).trans = s.trans ∧ (giveUp s site m dirty).link = s.link ∧
    (giveUp s site m dirty).chord = s.chord ∧ (giveUp s site m dirty).fresh = s.fresh ∧
    (giveUp s site m dirty).pending = s.pending := by
  unfold giveUp
  (try dsimp only)
  (repeat' (split <;> try (rename_i hp; first | (obtain ⟨rfl, rfl⟩ := Prod.ext_iff.mp hp) | (obtain ⟨rfl, hq⟩ := Prod.ext_iff.mp hp; obtain ⟨rfl, rfl⟩ := Prod.ext_iff.mp hq) | (obtain ⟨rfl, hq⟩ := Prod.ext_iff.mp hp; obtain ⟨rfl, _⟩ := Prod.ext_iff.mp hq) | (obtain ⟨_, hq⟩ := Prod.ext_iff.mp hp; obtain ⟨rfl, _⟩ := Prod.ext_iff.mp hq) | (obtain ⟨rfl, _⟩ := Prod.ext_iff.mp hp) | (obtain ⟨_, rfl⟩ := Prod.ext_iff.mp hp)))) <;> first | rfl | (simp; done) | (simp_all; done)

@[simp] theorem dieTranslate_time (s : State) (site : Nat) (m : AtpMsg) (write : Bool) (body : State → Nat → State) (h0 : ∀ a0 a1, (body a0 a1).time = a0.time) :
    (dieTranslate s site m write body).time = s.time := by
  unfold dieTranslate
  first
  | (simp [h0]; done)
  | ((try dsimp only)
     (repeat' (split <;> try (rename_i hp; first | (obtain ⟨rfl, rfl⟩ := Prod.ext_iff.mp hp) | (obtain ⟨rfl, hq⟩ := Prod.ext_iff.mp hp; obtain ⟨rfl, rfl⟩ := Prod.ext_iff.mp hq) | (obtain ⟨rfl, hq⟩ := Prod.ext_iff.mp hp; obtain ⟨rfl, _⟩ := Prod.ext_iff.mp hq) | (obtain ⟨_, hq⟩ := Prod.ext_iff.mp hp; obtain ⟨rfl, _⟩ := Prod.ext_iff.mp hq) | (obtain ⟨rfl, _⟩ := Prod.ext_iff.mp hp) | (obtain ⟨_, rfl⟩ := Prod.ext_iff.mp hp)))) <;> first | rfl | (simp [h0]; done) | (simp_all; done))

@[simp] theorem dieTranslate_part (s : State) (site : Nat) (m : AtpMsg) (write : Bool) (body : State → Nat → State) (h0 : ∀ a0 a1, (body a0 a1).part = a0.part) :
    (dieTranslate s site m write body).part = s.part := by
  unfold dieTranslate
  first
  | (simp [h0]; done)
  | ((try dsimp only)
     (repeat' (split <;> try (rename_i hp; first | (obtain ⟨rfl, rfl⟩ := Prod.ext_iff.mp hp) | (obtain ⟨rfl, hq⟩ := Prod.ext_iff.mp hp; obtain ⟨rfl, rfl⟩ := Prod.ext_iff.mp hq) | (obtain ⟨rfl, hq⟩ := Prod.ext_iff.mp hp; obtain ⟨rfl, _⟩ := Prod.ext_iff.mp hq) | (obtain ⟨_, hq⟩ := Prod.ext_iff.mp hp; obtain ⟨rfl, _⟩ := Prod.ext_iff.mp hq) | (obtain ⟨rfl, _⟩ := Prod.ext_iff.mp hp) | (obtain ⟨_, rfl⟩ := Prod.ext_iff.mp hp)))) <;> first | rfl | (simp [h0]; done) | (simp_all; done))

@[simp] theorem dieTranslate_pwr (s : State) (site : Nat) (m : AtpMsg) (write : Bool) (body : State → Nat → State) (h0 : ∀ a0 a1, (body a0 a1).pwr = a0.pwr) :
    (dieTranslate s site m write body).pwr = s.pwr := by
  unfold dieTranslate
  first
  | (simp [h0]; done)
  | ((try dsimp only)
     (repeat' (split <;> try (rename_i hp; first | (obtain ⟨rfl, rfl⟩ := Prod.ext_iff.mp hp) | (obtain ⟨rfl, hq⟩ := Prod.ext_iff.mp hp; obtain ⟨rfl, rfl⟩ := Prod.ext_iff.mp hq) | (obtain ⟨rfl, hq⟩ := Prod.ext_iff.mp hp; obtain ⟨rfl, _⟩ := Prod.ext_iff.mp hq) | (obtain ⟨_, hq⟩ := Prod.ext_iff.mp hp; obtain ⟨rfl, _⟩ := Prod.ext_iff.mp hq) | (obtain ⟨rfl, _⟩ := Prod.ext_iff.mp hp) | (obtain ⟨_, rfl⟩ := Prod.ext_iff.mp hp)))) <;> first | rfl | (simp [h0]; done) | (simp_all; done))

@[simp] theorem dieTranslate_boot (s : State) (site : Nat) (m : AtpMsg) (write : Bool) (body : State → Nat → State) (h0 : ∀ a0 a1, (body a0 a1).boot = a0.boot) :
    (dieTranslate s site m write body).boot = s.boot := by
  unfold dieTranslate
  first
  | (simp [h0]; done)
  | ((try dsimp only)
     (repeat' (split <;> try (rename_i hp; first | (obtain ⟨rfl, rfl⟩ := Prod.ext_iff.mp hp) | (obtain ⟨rfl, hq⟩ := Prod.ext_iff.mp hp; obtain ⟨rfl, rfl⟩ := Prod.ext_iff.mp hq) | (obtain ⟨rfl, hq⟩ := Prod.ext_iff.mp hp; obtain ⟨rfl, _⟩ := Prod.ext_iff.mp hq) | (obtain ⟨_, hq⟩ := Prod.ext_iff.mp hp; obtain ⟨rfl, _⟩ := Prod.ext_iff.mp hq) | (obtain ⟨rfl, _⟩ := Prod.ext_iff.mp hp) | (obtain ⟨_, rfl⟩ := Prod.ext_iff.mp hp)))) <;> first | rfl | (simp [h0]; done) | (simp_all; done))

@[simp] theorem dieTranslate_cells (s : State) (site : Nat) (m : AtpMsg) (write : Bool) (body : State → Nat → State) (h0 : ∀ a0 a1, (body a0 a1).cells = a0.cells) :
    (dieTranslate s site m write body).cells = s.cells := by
  unfold dieTranslate
  first
  | (simp [h0]; done)
  | ((try dsimp only)
     (repeat' (split <;> try (rename_i hp; first | (obtain ⟨rfl, rfl⟩ := Prod.ext_iff.mp hp) | (obtain ⟨rfl, hq⟩ := Prod.ext_iff.mp hp; obtain ⟨rfl, rfl⟩ := Prod.ext_iff.mp hq) | (obtain ⟨rfl, hq⟩ := Prod.ext_iff.mp hp; obtain ⟨rfl, _⟩ := Prod.ext_iff.mp hq) | (obtain ⟨_, hq⟩ := Prod.ext_iff.mp hp; obtain ⟨rfl, _⟩ := Prod.ext_iff.mp hq) | (obtain ⟨rfl, _⟩ := Prod.ext_iff.mp hp) | (obtain ⟨_, rfl⟩ := Prod.ext_iff.mp hp)))) <;> first | rfl | (simp [h0]; done) | (simp_all; done))

@[simp] theorem dieTranslate_mem (s : State) (site : Nat) (m : AtpMsg) (write : Bool) (body : State → Nat → State) (h0 : ∀ a0 a1, (body a0 a1).mem = a0.mem) :
    (dieTranslate s site m write body).mem = s.mem := by
  unfold dieTranslate
  first
  | (simp [h0]; done)
  | ((try dsimp only)
     (repeat' (split <;> try (rename_i hp; first | (obtain ⟨rfl, rfl⟩ := Prod.ext_iff.mp hp) | (obtain ⟨rfl, hq⟩ := Prod.ext_iff.mp hp; obtain ⟨rfl, rfl⟩ := Prod.ext_iff.mp hq) | (obtain ⟨rfl, hq⟩ := Prod.ext_iff.mp hp; obtain ⟨rfl, _⟩ := Prod.ext_iff.mp hq) | (obtain ⟨_, hq⟩ := Prod.ext_iff.mp hp; obtain ⟨rfl, _⟩ := Prod.ext_iff.mp hq) | (obtain ⟨rfl, _⟩ := Prod.ext_iff.mp hp) | (obtain ⟨_, rfl⟩ := Prod.ext_iff.mp hp)))) <;> first | rfl | (simp [h0]; done) | (simp_all; done))

@[simp] theorem dieTranslate_larder (s : State) (site : Nat) (m : AtpMsg) (write : Bool) (body : State → Nat → State) (h0 : ∀ a0 a1, (body a0 a1).larder = a0.larder) :
    (dieTranslate s site m write body).larder = s.larder := by
  unfold dieTranslate
  first
  | (simp [h0]; done)
  | ((try dsimp only)
     (repeat' (split <;> try (rename_i hp; first | (obtain ⟨rfl, rfl⟩ := Prod.ext_iff.mp hp) | (obtain ⟨rfl, hq⟩ := Prod.ext_iff.mp hp; obtain ⟨rfl, rfl⟩ := Prod.ext_iff.mp hq) | (obtain ⟨rfl, hq⟩ := Prod.ext_iff.mp hp; obtain ⟨rfl, _⟩ := Prod.ext_iff.mp hq) | (obtain ⟨_, hq⟩ := Prod.ext_iff.mp hp; obtain ⟨rfl, _⟩ := Prod.ext_iff.mp hq) | (obtain ⟨rfl, _⟩ := Prod.ext_iff.mp hp) | (obtain ⟨_, rfl⟩ := Prod.ext_iff.mp hp)))) <;> first | rfl | (simp [h0]; done) | (simp_all; done))

@[simp] theorem dieTranslate_reg (s : State) (site : Nat) (m : AtpMsg) (write : Bool) (body : State → Nat → State) (h0 : ∀ a0 a1, (body a0 a1).reg = a0.reg) :
    (dieTranslate s site m write body).reg = s.reg := by
  unfold dieTranslate
  first
  | (simp [h0]; done)
  | ((try dsimp only)
     (repeat' (split <;> try (rename_i hp; first | (obtain ⟨rfl, rfl⟩ := Prod.ext_iff.mp hp) | (obtain ⟨rfl, hq⟩ := Prod.ext_iff.mp hp; obtain ⟨rfl, rfl⟩ := Prod.ext_iff.mp hq) | (obtain ⟨rfl, hq⟩ := Prod.ext_iff.mp hp; obtain ⟨rfl, _⟩ := Prod.ext_iff.mp hq) | (obtain ⟨_, hq⟩ := Prod.ext_iff.mp hp; obtain ⟨rfl, _⟩ := Prod.ext_iff.mp hq) | (obtain ⟨rfl, _⟩ := Prod.ext_iff.mp hp) | (obtain ⟨_, rfl⟩ := Prod.ext_iff.mp hp)))) <;> first | rfl | (simp [h0]; done) | (simp_all; done))

@[simp] theorem dieTranslate_link (s : State) (site : Nat) (m : AtpMsg) (write : Bool) (body : State → Nat → State) (h0 : ∀ a0 a1, (body a0 a1).link = a0.link) :
    (dieTranslate s site m write body).link = s.link := by
  unfold dieTranslate
  first
  | (simp [h0]; done)
  | ((try dsimp only)
     (repeat' (split <;> try (rename_i hp; first | (obtain ⟨rfl, rfl⟩ := Prod.ext_iff.mp hp) | (obtain ⟨rfl, hq⟩ := Prod.ext_iff.mp hp; obtain ⟨rfl, rfl⟩ := Prod.ext_iff.mp hq) | (obtain ⟨rfl, hq⟩ := Prod.ext_iff.mp hp; obtain ⟨rfl, _⟩ := Prod.ext_iff.mp hq) | (obtain ⟨_, hq⟩ := Prod.ext_iff.mp hp; obtain ⟨rfl, _⟩ := Prod.ext_iff.mp hq) | (obtain ⟨rfl, _⟩ := Prod.ext_iff.mp hp) | (obtain ⟨_, rfl⟩ := Prod.ext_iff.mp hp)))) <;> first | rfl | (simp [h0]; done) | (simp_all; done))

@[simp] theorem dieTranslate_chord (s : State) (site : Nat) (m : AtpMsg) (write : Bool) (body : State → Nat → State) (h0 : ∀ a0 a1, (body a0 a1).chord = a0.chord) :
    (dieTranslate s site m write body).chord = s.chord := by
  unfold dieTranslate
  first
  | (simp [h0]; done)
  | ((try dsimp only)
     (repeat' (split <;> try (rename_i hp; first | (obtain ⟨rfl, rfl⟩ := Prod.ext_iff.mp hp) | (obtain ⟨rfl, hq⟩ := Prod.ext_iff.mp hp; obtain ⟨rfl, rfl⟩ := Prod.ext_iff.mp hq) | (obtain ⟨rfl, hq⟩ := Prod.ext_iff.mp hp; obtain ⟨rfl, _⟩ := Prod.ext_iff.mp hq) | (obtain ⟨_, hq⟩ := Prod.ext_iff.mp hp; obtain ⟨rfl, _⟩ := Prod.ext_iff.mp hq) | (obtain ⟨rfl, _⟩ := Prod.ext_iff.mp hp) | (obtain ⟨_, rfl⟩ := Prod.ext_iff.mp hp)))) <;> first | rfl | (simp [h0]; done) | (simp_all; done))

@[simp] theorem dieTranslate_fresh (s : State) (site : Nat) (m : AtpMsg) (write : Bool) (body : State → Nat → State) (h0 : ∀ a0 a1, (body a0 a1).fresh = a0.fresh) :
    (dieTranslate s site m write body).fresh = s.fresh := by
  unfold dieTranslate
  first
  | (simp [h0]; done)
  | ((try dsimp only)
     (repeat' (split <;> try (rename_i hp; first | (obtain ⟨rfl, rfl⟩ := Prod.ext_iff.mp hp) | (obtain ⟨rfl, hq⟩ := Prod.ext_iff.mp hp; obtain ⟨rfl, rfl⟩ := Prod.ext_iff.mp hq) | (obtain ⟨rfl, hq⟩ := Prod.ext_iff.mp hp; obtain ⟨rfl, _⟩ := Prod.ext_iff.mp hq) | (obtain ⟨_, hq⟩ := Prod.ext_iff.mp hp; obtain ⟨rfl, _⟩ := Prod.ext_iff.mp hq) | (obtain ⟨rfl, _⟩ := Prod.ext_iff.mp hp) | (obtain ⟨_, rfl⟩ := Prod.ext_iff.mp hp)))) <;> first | rfl | (simp [h0]; done) | (simp_all; done))

@[simp] theorem dieTranslate_pending (s : State) (site : Nat) (m : AtpMsg) (write : Bool) (body : State → Nat → State) (h0 : ∀ a0 a1, (body a0 a1).pending = a0.pending) :
    (dieTranslate s site m write body).pending = s.pending := by
  unfold dieTranslate
  first
  | (simp [h0]; done)
  | ((try dsimp only)
     (repeat' (split <;> try (rename_i hp; first | (obtain ⟨rfl, rfl⟩ := Prod.ext_iff.mp hp) | (obtain ⟨rfl, hq⟩ := Prod.ext_iff.mp hp; obtain ⟨rfl, rfl⟩ := Prod.ext_iff.mp hq) | (obtain ⟨rfl, hq⟩ := Prod.ext_iff.mp hp; obtain ⟨rfl, _⟩ := Prod.ext_iff.mp hq) | (obtain ⟨_, hq⟩ := Prod.ext_iff.mp hp; obtain ⟨rfl, _⟩ := Prod.ext_iff.mp hq) | (obtain ⟨rfl, _⟩ := Prod.ext_iff.mp hp) | (obtain ⟨_, rfl⟩ := Prod.ext_iff.mp hp)))) <;> first | rfl | (simp [h0]; done) | (simp_all; done))

@[simp] theorem plainRead_frame (s : State) (site : Nat) (m : AtpMsg) (host : Fetch) :
    (plainRead s site m host).time = s.time ∧ (plainRead s site m host).part = s.part ∧
    (plainRead s site m host).pwr = s.pwr ∧ (plainRead s site m host).larder = s.larder ∧
    (plainRead s site m host).reg = s.reg ∧ (plainRead s site m host).link = s.link ∧
    (plainRead s site m host).chord = s.chord ∧ (plainRead s site m host).fresh = s.fresh ∧
    (plainRead s site m host).pending = s.pending := by
  unfold plainRead
  (try dsimp only)
  (repeat' (split <;> try (rename_i hp; first | (obtain ⟨rfl, rfl⟩ := Prod.ext_iff.mp hp) | (obtain ⟨rfl, hq⟩ := Prod.ext_iff.mp hp; obtain ⟨rfl, rfl⟩ := Prod.ext_iff.mp hq) | (obtain ⟨rfl, hq⟩ := Prod.ext_iff.mp hp; obtain ⟨rfl, _⟩ := Prod.ext_iff.mp hq) | (obtain ⟨_, hq⟩ := Prod.ext_iff.mp hp; obtain ⟨rfl, _⟩ := Prod.ext_iff.mp hq) | (obtain ⟨rfl, _⟩ := Prod.ext_iff.mp hp) | (obtain ⟨_, rfl⟩ := Prod.ext_iff.mp hp)))) <;> first | rfl | (simp; done) | (simp_all; done)

@[simp] theorem plainWrite_frame (s : State) (site : Nat) (m : AtpMsg) :
    (plainWrite s site m).time = s.time ∧ (plainWrite s site m).part = s.part ∧ (plainWrite s site m).pwr = s.pwr ∧
    (plainWrite s site m).boot = s.boot ∧ (plainWrite s site m).larder = s.larder ∧
    (plainWrite s site m).reg = s.reg ∧ (plainWrite s site m).link = s.link ∧ (plainWrite s site m).chord = s.chord ∧
    (plainWrite s site m).fresh = s.fresh ∧ (plainWrite s site m).pending = s.pending := by
  unfold plainWrite
  simp

@[simp] theorem diePeg_time (s : State) (site : Nat) (m : AtpMsg) :
    (diePeg s site m).time = s.time := by
  unfold diePeg
  dsimp only
  (repeat' split) <;> first
  | (simp; done)
  | (unfold diePeg.pegDone; (repeat' split) <;> simp)

@[simp] theorem diePeg_part (s : State) (site : Nat) (m : AtpMsg) :
    (diePeg s site m).part = s.part := by
  unfold diePeg
  dsimp only
  (repeat' split) <;> first
  | (simp; done)
  | (unfold diePeg.pegDone; (repeat' split) <;> simp)

@[simp] theorem diePeg_err (s : State) (site : Nat) (m : AtpMsg) :
    (diePeg s site m).err = s.err := by
  unfold diePeg
  dsimp only
  (repeat' split) <;> first
  | (simp; done)
  | (unfold diePeg.pegDone; (repeat' split) <;> simp)

@[simp] theorem diePeg_pwr (s : State) (site : Nat) (m : AtpMsg) :
    (diePeg s site m).pwr = s.pwr := by
  unfold diePeg
  dsimp only
  (repeat' split) <;> first
  | (simp; done)
  | (unfold diePeg.pegDone; (repeat' split) <;> simp)

@[simp] theorem diePeg_mgmt (s : State) (site : Nat) (m : AtpMsg) :
    (diePeg s site m).mgmt = s.mgmt := by
  unfold diePeg
  dsimp only
  (repeat' split) <;> first
  | (simp; done)
  | (unfold diePeg.pegDone; (repeat' split) <;> simp)

@[simp] theorem diePeg_boot (s : State) (site : Nat) (m : AtpMsg) :
    (diePeg s site m).boot = s.boot := by
  unfold diePeg
  dsimp only
  (repeat' split) <;> first
  | (simp; done)
  | (unfold diePeg.pegDone; (repeat' split) <;> simp)

@[simp] theorem diePeg_mem (s : State) (site : Nat) (m : AtpMsg) :
    (diePeg s site m).mem = s.mem := by
  unfold diePeg
  dsimp only
  (repeat' split) <;> first
  | (simp; done)
  | (unfold diePeg.pegDone; (repeat' split) <;> simp)

@[simp] theorem diePeg_link (s : State) (site : Nat) (m : AtpMsg) :
    (diePeg s site m).link = s.link := by
  unfold diePeg
  dsimp only
  (repeat' split) <;> first
  | (simp; done)
  | (unfold diePeg.pegDone; (repeat' split) <;> simp)

@[simp] theorem diePeg_pending (s : State) (site : Nat) (m : AtpMsg) :
    (diePeg s site m).pending = s.pending := by
  unfold diePeg
  dsimp only
  (repeat' split) <;> first
  | (simp; done)
  | (unfold diePeg.pegDone; (repeat' split) <;> simp)

@[simp] theorem releasePart_frame (s : State) (site : Nat) (p : AtticPart) :
    (releasePart s site p).time = s.time ∧ (releasePart s site p).cp = s.cp ∧ (releasePart s site p).part = s.part ∧
    (releasePart s site p).err = s.err ∧ (releasePart s site p).pwr = s.pwr ∧ (releasePart s site p).mgmt = s.mgmt ∧
    (releasePart s site p).boot = s.boot ∧ (releasePart s site p).cells = s.cells ∧
    (releasePart s site p).mem = s.mem ∧ (releasePart s site p).larder = s.larder ∧
    (releasePart s site p).reg = s.reg ∧ (releasePart s site p).trans = s.trans ∧
    (releasePart s site p).link = s.link ∧ (releasePart s site p).chord = s.chord ∧
    (releasePart s site p).fresh = s.fresh ∧ (releasePart s site p).out = s.out ∧
    (releasePart s site p).pending = s.pending := by
  unfold releasePart
  simp

@[simp] theorem endDiePart_frame (s : State) (site slot status : Nat) :
    (endDiePart s site slot status).time = s.time ∧ (endDiePart s site slot status).part = s.part ∧
    (endDiePart s site slot status).err = s.err ∧ (endDiePart s site slot status).pwr = s.pwr ∧
    (endDiePart s site slot status).mgmt = s.mgmt ∧ (endDiePart s site slot status).boot = s.boot ∧
    (endDiePart s site slot status).mem = s.mem ∧ (endDiePart s site slot status).reg = s.reg ∧
    (endDiePart s site slot status).link = s.link ∧ (endDiePart s site slot status).fresh = s.fresh ∧
    (endDiePart s site slot status).pending = s.pending := by
  unfold endDiePart
  (try dsimp only)
  (repeat' (split <;> try (rename_i hp; first | (obtain ⟨rfl, rfl⟩ := Prod.ext_iff.mp hp) | (obtain ⟨rfl, hq⟩ := Prod.ext_iff.mp hp; obtain ⟨rfl, rfl⟩ := Prod.ext_iff.mp hq) | (obtain ⟨rfl, hq⟩ := Prod.ext_iff.mp hp; obtain ⟨rfl, _⟩ := Prod.ext_iff.mp hq) | (obtain ⟨_, hq⟩ := Prod.ext_iff.mp hp; obtain ⟨rfl, _⟩ := Prod.ext_iff.mp hq) | (obtain ⟨rfl, _⟩ := Prod.ext_iff.mp hp) | (obtain ⟨_, rfl⟩ := Prod.ext_iff.mp hp)))) <;> first | rfl | (simp; done) | (simp_all; done)

@[simp] theorem saveDiePart_frame (s : State) (site : Nat) (m : AtpMsg) :
    (saveDiePart s site m).time = s.time ∧ (saveDiePart s site m).cp = s.cp ∧ (saveDiePart s site m).part = s.part ∧
    (saveDiePart s site m).err = s.err ∧ (saveDiePart s site m).pwr = s.pwr ∧ (saveDiePart s site m).mgmt = s.mgmt ∧
    (saveDiePart s site m).boot = s.boot ∧ (saveDiePart s site m).cells = s.cells ∧
    (saveDiePart s site m).mem = s.mem ∧ (saveDiePart s site m).reg = s.reg ∧ (saveDiePart s site m).trans = s.trans ∧
    (saveDiePart s site m).link = s.link ∧ (saveDiePart s site m).chord = s.chord ∧
    (saveDiePart s site m).fresh = s.fresh ∧ (saveDiePart s site m).out = s.out ∧
    (saveDiePart s site m).pending = s.pending := by
  unfold saveDiePart
  (try dsimp only)
  (repeat' (split <;> try (rename_i hp; first | (obtain ⟨rfl, rfl⟩ := Prod.ext_iff.mp hp) | (obtain ⟨rfl, hq⟩ := Prod.ext_iff.mp hp; obtain ⟨rfl, rfl⟩ := Prod.ext_iff.mp hq) | (obtain ⟨rfl, hq⟩ := Prod.ext_iff.mp hp; obtain ⟨rfl, _⟩ := Prod.ext_iff.mp hq) | (obtain ⟨_, hq⟩ := Prod.ext_iff.mp hp; obtain ⟨rfl, _⟩ := Prod.ext_iff.mp hq) | (obtain ⟨rfl, _⟩ := Prod.ext_iff.mp hp) | (obtain ⟨_, rfl⟩ := Prod.ext_iff.mp hp)))) <;> first | rfl | (simp; done) | (simp_all; done)

@[simp] theorem dirAfterSnoop_frame (s : State) (site line : Nat) (x : Snoop) (rest : Bool) :
    (dirAfterSnoop s site line x rest).time = s.time ∧ (dirAfterSnoop s site line x rest).cp = s.cp ∧
    (dirAfterSnoop s site line x rest).part = s.part ∧ (dirAfterSnoop s site line x rest).err = s.err ∧
    (dirAfterSnoop s site line x rest).pwr = s.pwr ∧ (dirAfterSnoop s site line x rest).mgmt = s.mgmt ∧
    (dirAfterSnoop s site line x rest).boot = s.boot ∧ (dirAfterSnoop s site line x rest).cells = s.cells ∧
    (dirAfterSnoop s site line x rest).mem = s.mem ∧ (dirAfterSnoop s site line x rest).larder = s.larder ∧
    (dirAfterSnoop s site line x rest).reg = s.reg ∧ (dirAfterSnoop s site line x rest).trans = s.trans ∧
    (dirAfterSnoop s site line x rest).link = s.link ∧ (dirAfterSnoop s site line x rest).chord = s.chord ∧
    (dirAfterSnoop s site line x rest).fresh = s.fresh ∧ (dirAfterSnoop s site line x rest).out = s.out ∧
    (dirAfterSnoop s site line x rest).pending = s.pending := by
  unfold dirAfterSnoop
  (try dsimp only)
  (repeat' (split <;> try (rename_i hp; first | (obtain ⟨rfl, rfl⟩ := Prod.ext_iff.mp hp) | (obtain ⟨rfl, hq⟩ := Prod.ext_iff.mp hp; obtain ⟨rfl, rfl⟩ := Prod.ext_iff.mp hq) | (obtain ⟨rfl, hq⟩ := Prod.ext_iff.mp hp; obtain ⟨rfl, _⟩ := Prod.ext_iff.mp hq) | (obtain ⟨_, hq⟩ := Prod.ext_iff.mp hp; obtain ⟨rfl, _⟩ := Prod.ext_iff.mp hq) | (obtain ⟨rfl, _⟩ := Prod.ext_iff.mp hp) | (obtain ⟨_, rfl⟩ := Prod.ext_iff.mp hp)))) <;> first | rfl | (simp; done) | (simp_all; done)

@[simp] theorem snoopAnswered_frame (s : State) (line : Nat) (x : Snoop) (left : List Nat) :
    (snoopAnswered s line x left).time = s.time ∧ (snoopAnswered s line x left).cp = s.cp ∧
    (snoopAnswered s line x left).part = s.part ∧ (snoopAnswered s line x left).err = s.err ∧
    (snoopAnswered s line x left).pwr = s.pwr ∧ (snoopAnswered s line x left).mgmt = s.mgmt ∧
    (snoopAnswered s line x left).boot = s.boot ∧ (snoopAnswered s line x left).cells = s.cells ∧
    (snoopAnswered s line x left).mem = s.mem ∧ (snoopAnswered s line x left).larder = s.larder ∧
    (snoopAnswered s line x left).reg = s.reg ∧ (snoopAnswered s line x left).trans = s.trans ∧
    (snoopAnswered s line x left).link = s.link ∧ (snoopAnswered s line x left).chord = s.chord ∧
    (snoopAnswered s line x left).fresh = s.fresh ∧ (snoopAnswered s line x left).out = s.out ∧
    (snoopAnswered s line x left).pending = s.pending := by
  unfold snoopAnswered
  simp

@[simp] theorem snoopAnswer_frame (s : State) (site : Nat) (m : AtpMsg) :
    (snoopAnswer s site m).time = s.time ∧ (snoopAnswer s site m).cp = s.cp ∧ (snoopAnswer s site m).part = s.part ∧
    (snoopAnswer s site m).err = s.err ∧ (snoopAnswer s site m).pwr = s.pwr ∧ (snoopAnswer s site m).mgmt = s.mgmt ∧
    (snoopAnswer s site m).boot = s.boot ∧ (snoopAnswer s site m).larder = s.larder ∧
    (snoopAnswer s site m).reg = s.reg ∧ (snoopAnswer s site m).trans = s.trans ∧
    (snoopAnswer s site m).link = s.link ∧ (snoopAnswer s site m).chord = s.chord ∧
    (snoopAnswer s site m).fresh = s.fresh ∧ (snoopAnswer s site m).pending = s.pending := by
  unfold snoopAnswer
  (try dsimp only)
  (repeat' (split <;> try (rename_i hp; first | (obtain ⟨rfl, rfl⟩ := Prod.ext_iff.mp hp) | (obtain ⟨rfl, hq⟩ := Prod.ext_iff.mp hp; obtain ⟨rfl, rfl⟩ := Prod.ext_iff.mp hq) | (obtain ⟨rfl, hq⟩ := Prod.ext_iff.mp hp; obtain ⟨rfl, _⟩ := Prod.ext_iff.mp hq) | (obtain ⟨_, hq⟩ := Prod.ext_iff.mp hp; obtain ⟨rfl, _⟩ := Prod.ext_iff.mp hq) | (obtain ⟨rfl, _⟩ := Prod.ext_iff.mp hp) | (obtain ⟨_, rfl⟩ := Prod.ext_iff.mp hp)))) <;> first | rfl | (simp; done) | (simp_all; done)

@[simp] theorem windowRsp_frame (s : State) (site : Nat) (m : AtpMsg) :
    (windowRsp s site m).time = s.time ∧ (windowRsp s site m).part = s.part ∧ (windowRsp s site m).pwr = s.pwr ∧
    (windowRsp s site m).boot = s.boot ∧ (windowRsp s site m).cells = s.cells ∧
    (windowRsp s site m).larder = s.larder ∧ (windowRsp s site m).reg = s.reg ∧ (windowRsp s site m).trans = s.trans ∧
    (windowRsp s site m).link = s.link ∧ (windowRsp s site m).chord = s.chord ∧ (windowRsp s site m).fresh = s.fresh ∧
    (windowRsp s site m).pending = s.pending := by
  unfold windowRsp
  simp

@[simp] theorem serveHeld_time (s : State) (site : Nat) (h : AtpMsg × Fetch) :
    (serveHeld s site h).time = s.time := by
  unfold serveHeld
  dsimp only
  split <;> first | rfl | simp

@[simp] theorem serveHeld_part (s : State) (site : Nat) (h : AtpMsg × Fetch) :
    (serveHeld s site h).part = s.part := by
  unfold serveHeld
  dsimp only
  split <;> first | rfl | simp

@[simp] theorem serveHeld_pwr (s : State) (site : Nat) (h : AtpMsg × Fetch) :
    (serveHeld s site h).pwr = s.pwr := by
  unfold serveHeld
  dsimp only
  split <;> first | rfl | simp

@[simp] theorem serveHeld_link (s : State) (site : Nat) (h : AtpMsg × Fetch) :
    (serveHeld s site h).link = s.link := by
  unfold serveHeld
  dsimp only
  split <;> first | rfl | simp

@[simp] theorem serveHeld_pending (s : State) (site : Nat) (h : AtpMsg × Fetch) :
    (serveHeld s site h).pending = s.pending := by
  unfold serveHeld
  dsimp only
  split <;> first | rfl | simp

@[simp] theorem drainHeld_time (s : State) (site : Nat) :
    (drainHeld s site).time = s.time := by
  unfold drainHeld
  split
  · rfl
  · dsimp only
    rw [forEach_time _ _ _ (fun s h => serveHeld_time _ _ _)]
    simp

@[simp] theorem drainHeld_part (s : State) (site : Nat) :
    (drainHeld s site).part = s.part := by
  unfold drainHeld
  split
  · rfl
  · dsimp only
    rw [forEach_part _ _ _ (fun s h => serveHeld_part _ _ _)]
    simp

@[simp] theorem drainHeld_pwr (s : State) (site : Nat) :
    (drainHeld s site).pwr = s.pwr := by
  unfold drainHeld
  split
  · rfl
  · dsimp only
    rw [forEach_pwr _ _ _ (fun s h => serveHeld_pwr _ _ _)]
    simp

@[simp] theorem drainHeld_link (s : State) (site : Nat) :
    (drainHeld s site).link = s.link := by
  unfold drainHeld
  split
  · rfl
  · dsimp only
    rw [forEach_link _ _ _ (fun s h => serveHeld_link _ _ _)]
    simp

@[simp] theorem drainHeld_pending (s : State) (site : Nat) :
    (drainHeld s site).pending = s.pending := by
  unfold drainHeld
  split
  · rfl
  · dsimp only
    rw [forEach_pending _ _ _ (fun s h => serveHeld_pending _ _ _)]
    simp

@[simp] theorem poisonAsker_frame (s : State) (site : Nat) (r : Requester) :
    (poisonAsker s site r).time = s.time ∧ (poisonAsker s site r).part = s.part ∧ (poisonAsker s site r).err = s.err ∧
    (poisonAsker s site r).pwr = s.pwr ∧ (poisonAsker s site r).mgmt = s.mgmt ∧ (poisonAsker s site r).boot = s.boot ∧
    (poisonAsker s site r).cells = s.cells ∧ (poisonAsker s site r).mem = s.mem ∧
    (poisonAsker s site r).larder = s.larder ∧ (poisonAsker s site r).reg = s.reg ∧
    (poisonAsker s site r).attic = s.attic ∧ (poisonAsker s site r).link = s.link ∧
    (poisonAsker s site r).chord = s.chord ∧ (poisonAsker s site r).fresh = s.fresh ∧
    (poisonAsker s site r).pending = s.pending := by
  unfold poisonAsker
  (try dsimp only)
  (repeat' (split <;> try (rename_i hp; first | (obtain ⟨rfl, rfl⟩ := Prod.ext_iff.mp hp) | (obtain ⟨rfl, hq⟩ := Prod.ext_iff.mp hp; obtain ⟨rfl, rfl⟩ := Prod.ext_iff.mp hq) | (obtain ⟨rfl, hq⟩ := Prod.ext_iff.mp hp; obtain ⟨rfl, _⟩ := Prod.ext_iff.mp hq) | (obtain ⟨_, hq⟩ := Prod.ext_iff.mp hp; obtain ⟨rfl, _⟩ := Prod.ext_iff.mp hq) | (obtain ⟨rfl, _⟩ := Prod.ext_iff.mp hp) | (obtain ⟨_, rfl⟩ := Prod.ext_iff.mp hp)))) <;> first | rfl | (simp; done) | (simp_all; done)

@[simp] theorem poisonTxn_frame (s : State) (site : Nat) (t : Txn) :
    (poisonTxn s site t).time = s.time ∧ (poisonTxn s site t).cp = s.cp ∧ (poisonTxn s site t).part = s.part ∧
    (poisonTxn s site t).err = s.err ∧ (poisonTxn s site t).pwr = s.pwr ∧ (poisonTxn s site t).mgmt = s.mgmt ∧
    (poisonTxn s site t).boot = s.boot ∧ (poisonTxn s site t).cells = s.cells ∧ (poisonTxn s site t).mem = s.mem ∧
    (poisonTxn s site t).larder = s.larder ∧ (poisonTxn s site t).reg = s.reg ∧ (poisonTxn s site t).trans = s.trans ∧
    (poisonTxn s site t).attic = s.attic ∧ (poisonTxn s site t).link = s.link ∧ (poisonTxn s site t).chord = s.chord ∧
    (poisonTxn s site t).fresh = s.fresh ∧ (poisonTxn s site t).pending = s.pending := by
  unfold poisonTxn
  (try dsimp only)
  (repeat' (split <;> try (rename_i hp; first | (obtain ⟨rfl, rfl⟩ := Prod.ext_iff.mp hp) | (obtain ⟨rfl, hq⟩ := Prod.ext_iff.mp hp; obtain ⟨rfl, rfl⟩ := Prod.ext_iff.mp hq) | (obtain ⟨rfl, hq⟩ := Prod.ext_iff.mp hp; obtain ⟨rfl, _⟩ := Prod.ext_iff.mp hq) | (obtain ⟨_, hq⟩ := Prod.ext_iff.mp hp; obtain ⟨rfl, _⟩ := Prod.ext_iff.mp hq) | (obtain ⟨rfl, _⟩ := Prod.ext_iff.mp hp) | (obtain ⟨_, rfl⟩ := Prod.ext_iff.mp hp)))) <;> first | rfl | (simp; done) | (simp_all; done)

/-- Dropping lost requests changes only the transactions under way. -/
@[simp] theorem dropLost_frame (s : State) (lost : List (Nat × Txn)) :
    (dropLost s lost).time = s.time ∧
    (dropLost s lost).cp = s.cp ∧
    (dropLost s lost).part = s.part ∧
    (dropLost s lost).err = s.err ∧
    (dropLost s lost).pwr = s.pwr ∧
    (dropLost s lost).mgmt = s.mgmt ∧
    (dropLost s lost).boot = s.boot ∧
    (dropLost s lost).cells = s.cells ∧
    (dropLost s lost).larder = s.larder ∧
    (dropLost s lost).reg = s.reg ∧
    (dropLost s lost).trans = s.trans ∧
    (dropLost s lost).attic = s.attic ∧
    (dropLost s lost).link = s.link ∧
    (dropLost s lost).chord = s.chord ∧
    (dropLost s lost).fresh = s.fresh ∧
    (dropLost s lost).pending = s.pending := by
  unfold dropLost
  simp

@[simp] theorem poisonRequests_frame (s : State) (site : Nat) (linkB : Bool) :
    (poisonRequests s site linkB).time = s.time ∧ (poisonRequests s site linkB).part = s.part ∧
    (poisonRequests s site linkB).err = s.err ∧ (poisonRequests s site linkB).pwr = s.pwr ∧
    (poisonRequests s site linkB).mgmt = s.mgmt ∧ (poisonRequests s site linkB).boot = s.boot ∧
    (poisonRequests s site linkB).reg = s.reg ∧ (poisonRequests s site linkB).link = s.link ∧
    (poisonRequests s site linkB).pending = s.pending := by
  unfold poisonRequests
  simp

end Sys2Proof.Machine
end

