-- ==== Sys2Proof/Laws/FramePartitions.lean ====
section
/-! SUPPORT. What each operation of Machine/Partitions.lean leaves as it was, by component of the state. -/
set_option maxRecDepth 4000
set_option exponentiation.threshold 2000
namespace Sys2Proof.Machine

@[simp] theorem recallRange_frame (s : State) (base len : Nat) :
    (recallRange s base len).1.time = s.time ∧ (recallRange s base len).1.cp = s.cp ∧
    (recallRange s base len).1.part = s.part ∧ (recallRange s base len).1.err = s.err ∧
    (recallRange s base len).1.pwr = s.pwr ∧ (recallRange s base len).1.mgmt = s.mgmt ∧
    (recallRange s base len).1.boot = s.boot ∧ (recallRange s base len).1.cells = s.cells ∧
    (recallRange s base len).1.mem = s.mem ∧ (recallRange s base len).1.larder = s.larder ∧
    (recallRange s base len).1.reg = s.reg ∧ (recallRange s base len).1.trans = s.trans ∧
    (recallRange s base len).1.link = s.link ∧ (recallRange s base len).1.chord = s.chord ∧
    (recallRange s base len).1.fresh = s.fresh ∧ (recallRange s base len).1.pending = s.pending := by
  unfold recallRange
  simp

@[simp] theorem recallRegions_frame (s : State) (p : Nat) :
    (recallRegions s p).1.time = s.time ∧ (recallRegions s p).1.cp = s.cp ∧ (recallRegions s p).1.part = s.part ∧
    (recallRegions s p).1.err = s.err ∧ (recallRegions s p).1.pwr = s.pwr ∧ (recallRegions s p).1.mgmt = s.mgmt ∧
    (recallRegions s p).1.boot = s.boot ∧ (recallRegions s p).1.cells = s.cells ∧ (recallRegions s p).1.mem = s.mem ∧
    (recallRegions s p).1.larder = s.larder ∧ (recallRegions s p).1.reg = s.reg ∧
    (recallRegions s p).1.trans = s.trans ∧ (recallRegions s p).1.link = s.link ∧
    (recallRegions s p).1.chord = s.chord ∧ (recallRegions s p).1.fresh = s.fresh ∧
    (recallRegions s p).1.pending = s.pending := by
  unfold recallRegions
  simp

@[simp] theorem zeroRange_frame (s : State) (base len : Nat) :
    (zeroRange s base len).time = s.time ∧ (zeroRange s base len).cp = s.cp ∧ (zeroRange s base len).part = s.part ∧
    (zeroRange s base len).err = s.err ∧ (zeroRange s base len).pwr = s.pwr ∧ (zeroRange s base len).mgmt = s.mgmt ∧
    (zeroRange s base len).boot = s.boot ∧ (zeroRange s base len).cells = s.cells ∧
    (zeroRange s base len).larder = s.larder ∧ (zeroRange s base len).reg = s.reg ∧
    (zeroRange s base len).trans = s.trans ∧ (zeroRange s base len).attic = s.attic ∧
    (zeroRange s base len).link = s.link ∧ (zeroRange s base len).chord = s.chord ∧
    (zeroRange s base len).fresh = s.fresh ∧ (zeroRange s base len).out = s.out ∧
    (zeroRange s base len).pending = s.pending := by
  unfold zeroRange
  simp

@[simp] theorem zeroRegions_frame (s : State) (p : Nat) :
    (zeroRegions s p).time = s.time ∧ (zeroRegions s p).cp = s.cp ∧ (zeroRegions s p).part = s.part ∧
    (zeroRegions s p).err = s.err ∧ (zeroRegions s p).pwr = s.pwr ∧ (zeroRegions s p).mgmt = s.mgmt ∧
    (zeroRegions s p).boot = s.boot ∧ (zeroRegions s p).cells = s.cells ∧ (zeroRegions s p).larder = s.larder ∧
    (zeroRegions s p).reg = s.reg ∧ (zeroRegions s p).trans = s.trans ∧ (zeroRegions s p).attic = s.attic ∧
    (zeroRegions s p).link = s.link ∧ (zeroRegions s p).chord = s.chord ∧ (zeroRegions s p).fresh = s.fresh ∧
    (zeroRegions s p).out = s.out ∧ (zeroRegions s p).pending = s.pending := by
  unfold zeroRegions
  simp

@[simp] theorem zeroCellar_frame (s : State) (c : Nat) :
    (zeroCellar s c).time = s.time ∧ (zeroCellar s c).part = s.part ∧ (zeroCellar s c).err = s.err ∧
    (zeroCellar s c).pwr = s.pwr ∧ (zeroCellar s c).mgmt = s.mgmt ∧ (zeroCellar s c).boot = s.boot ∧
    (zeroCellar s c).reg = s.reg ∧ (zeroCellar s c).link = s.link ∧ (zeroCellar s c).pending = s.pending := by
  unfold zeroCellar
  simp

@[simp] theorem resetQos_frame (s : State) (p : Nat) :
    (resetQos s p).time = s.time ∧ (resetQos s p).cp = s.cp ∧ (resetQos s p).part = s.part ∧
    (resetQos s p).err = s.err ∧ (resetQos s p).pwr = s.pwr ∧ (resetQos s p).mgmt = s.mgmt ∧
    (resetQos s p).boot = s.boot ∧ (resetQos s p).cells = s.cells ∧ (resetQos s p).mem = s.mem ∧
    (resetQos s p).larder = s.larder ∧ (resetQos s p).trans = s.trans ∧ (resetQos s p).attic = s.attic ∧
    (resetQos s p).link = s.link ∧ (resetQos s p).chord = s.chord ∧ (resetQos s p).fresh = s.fresh ∧
    (resetQos s p).out = s.out ∧ (resetQos s p).pending = s.pending := by
  unfold resetQos
  simp

@[simp] theorem endMailbox_frame (s : State) (m : Nat) (code : Status) :
    (endMailbox s m code).time = s.time ∧ (endMailbox s m code).part = s.part ∧ (endMailbox s m code).err = s.err ∧
    (endMailbox s m code).pwr = s.pwr ∧ (endMailbox s m code).mgmt = s.mgmt ∧ (endMailbox s m code).boot = s.boot ∧
    (endMailbox s m code).cells = s.cells ∧ (endMailbox s m code).mem = s.mem ∧
    (endMailbox s m code).larder = s.larder ∧ (endMailbox s m code).reg = s.reg ∧
    (endMailbox s m code).trans = s.trans ∧ (endMailbox s m code).attic = s.attic ∧
    (endMailbox s m code).link = s.link ∧ (endMailbox s m code).chord = s.chord ∧
    (endMailbox s m code).fresh = s.fresh ∧ (endMailbox s m code).pending = s.pending := by
  unfold endMailbox
  (try dsimp only)
  (repeat' (split <;> try (rename_i hp; first | (obtain ⟨rfl, rfl⟩ := Prod.ext_iff.mp hp) | (obtain ⟨rfl, hq⟩ := Prod.ext_iff.mp hp; obtain ⟨rfl, rfl⟩ := Prod.ext_iff.mp hq) | (obtain ⟨rfl, hq⟩ := Prod.ext_iff.mp hp; obtain ⟨rfl, _⟩ := Prod.ext_iff.mp hq) | (obtain ⟨_, hq⟩ := Prod.ext_iff.mp hp; obtain ⟨rfl, _⟩ := Prod.ext_iff.mp hq) | (obtain ⟨rfl, _⟩ := Prod.ext_iff.mp hp) | (obtain ⟨_, rfl⟩ := Prod.ext_iff.mp hp)))) <;> first | rfl | (simp; done) | (simp_all; done)

@[simp] theorem endMailboxes_frame (s : State) (p : Nat) (code : Status) :
    (endMailboxes s p code).time = s.time ∧ (endMailboxes s p code).part = s.part ∧
    (endMailboxes s p code).err = s.err ∧ (endMailboxes s p code).pwr = s.pwr ∧
    (endMailboxes s p code).mgmt = s.mgmt ∧ (endMailboxes s p code).boot = s.boot ∧
    (endMailboxes s p code).cells = s.cells ∧ (endMailboxes s p code).mem = s.mem ∧
    (endMailboxes s p code).larder = s.larder ∧ (endMailboxes s p code).reg = s.reg ∧
    (endMailboxes s p code).trans = s.trans ∧ (endMailboxes s p code).attic = s.attic ∧
    (endMailboxes s p code).link = s.link ∧ (endMailboxes s p code).chord = s.chord ∧
    (endMailboxes s p code).fresh = s.fresh ∧ (endMailboxes s p code).pending = s.pending := by
  unfold endMailboxes
  simp

@[simp] theorem resetStep_frame (s : State) (slot : Nat) (code : Status) :
    (resetStep s slot code).time = s.time ∧ (resetStep s slot code).part = s.part ∧
    (resetStep s slot code).pwr = s.pwr ∧ (resetStep s slot code).boot = s.boot ∧
    (resetStep s slot code).link = s.link ∧ (resetStep s slot code).pending = s.pending := by
  unfold resetStep
  simp

@[simp] theorem resetSeqs_frame (s : State) (p : Nat) (code : Status) :
    (resetSeqs s p code).time = s.time ∧ (resetSeqs s p code).part = s.part ∧ (resetSeqs s p code).err = s.err ∧
    (resetSeqs s p code).pwr = s.pwr ∧ (resetSeqs s p code).boot = s.boot ∧ (resetSeqs s p code).cells = s.cells ∧
    (resetSeqs s p code).mem = s.mem ∧ (resetSeqs s p code).reg = s.reg ∧ (resetSeqs s p code).trans = s.trans ∧
    (resetSeqs s p code).attic = s.attic ∧ (resetSeqs s p code).link = s.link ∧ (resetSeqs s p code).chord = s.chord ∧
    (resetSeqs s p code).fresh = s.fresh ∧ (resetSeqs s p code).pending = s.pending := by
  unfold resetSeqs
  (try dsimp only)
  (repeat' (split <;> try (rename_i hp; first | (obtain ⟨rfl, rfl⟩ := Prod.ext_iff.mp hp) | (obtain ⟨rfl, hq⟩ := Prod.ext_iff.mp hp; obtain ⟨rfl, rfl⟩ := Prod.ext_iff.mp hq) | (obtain ⟨rfl, hq⟩ := Prod.ext_iff.mp hp; obtain ⟨rfl, _⟩ := Prod.ext_iff.mp hq) | (obtain ⟨_, hq⟩ := Prod.ext_iff.mp hp; obtain ⟨rfl, _⟩ := Prod.ext_iff.mp hq) | (obtain ⟨rfl, _⟩ := Prod.ext_iff.mp hp) | (obtain ⟨_, rfl⟩ := Prod.ext_iff.mp hp)))) <;> (try simp) <;> (repeat' apply And.intro) <;> (first | apply forEach_time | apply foldl_time | apply forEachFst_time | apply foldlFst_time | apply forEach_part | apply foldl_part | apply forEachFst_part | apply foldlFst_part | apply forEach_err | apply foldl_err | apply forEachFst_err | apply foldlFst_err | apply forEach_pwr | apply foldl_pwr | apply forEachFst_pwr | apply foldlFst_pwr | apply forEach_boot | apply foldl_boot | apply forEachFst_boot | apply foldlFst_boot | apply forEach_cells | apply foldl_cells | apply forEachFst_cells | apply foldlFst_cells | apply forEach_mem | apply foldl_mem | apply forEachFst_mem | apply foldlFst_mem | apply forEach_reg | apply foldl_reg | apply forEachFst_reg | apply foldlFst_reg | apply forEach_trans | apply foldl_trans | apply forEachFst_trans | apply foldlFst_trans | apply forEach_attic | apply foldl_attic | apply forEachFst_attic | apply foldlFst_attic | apply forEach_link | apply foldl_link | apply forEachFst_link | apply foldlFst_link | apply forEach_chord | apply foldl_chord | apply forEachFst_chord | apply foldlFst_chord | apply forEach_fresh | apply foldl_fresh | apply forEachFst_fresh | apply foldlFst_fresh | apply forEach_pending | apply foldl_pending | apply forEachFst_pending | apply foldlFst_pending) <;> intro _ _ <;> (try dsimp only) <;> (repeat' (split <;> try (rename_i hp; first | (obtain ⟨rfl, rfl⟩ := Prod.ext_iff.mp hp) | (obtain ⟨rfl, hq⟩ := Prod.ext_iff.mp hp; obtain ⟨rfl, rfl⟩ := Prod.ext_iff.mp hq) | (obtain ⟨rfl, hq⟩ := Prod.ext_iff.mp hp; obtain ⟨rfl, _⟩ := Prod.ext_iff.mp hq) | (obtain ⟨_, hq⟩ := Prod.ext_iff.mp hp; obtain ⟨rfl, _⟩ := Prod.ext_iff.mp hq) | (obtain ⟨rfl, _⟩ := Prod.ext_iff.mp hp) | (obtain ⟨_, rfl⟩ := Prod.ext_iff.mp hp)))) <;> first | rfl | (simp; done) | (simp_all; done)

@[simp] theorem freeImages_frame (s : State) (p : Nat) (code : Status) :
    (freeImages s p code).time = s.time ∧ (freeImages s p code).err = s.err ∧ (freeImages s p code).pwr = s.pwr ∧
    (freeImages s p code).boot = s.boot ∧ (freeImages s p code).cells = s.cells ∧ (freeImages s p code).mem = s.mem ∧
    (freeImages s p code).larder = s.larder ∧ (freeImages s p code).reg = s.reg ∧
    (freeImages s p code).trans = s.trans ∧ (freeImages s p code).attic = s.attic ∧
    (freeImages s p code).link = s.link ∧ (freeImages s p code).chord = s.chord ∧
    (freeImages s p code).fresh = s.fresh ∧ (freeImages s p code).pending = s.pending := by
  unfold freeImages
  (try dsimp only)
  (repeat' (split <;> try (rename_i hp; first | (obtain ⟨rfl, rfl⟩ := Prod.ext_iff.mp hp) | (obtain ⟨rfl, hq⟩ := Prod.ext_iff.mp hp; obtain ⟨rfl, rfl⟩ := Prod.ext_iff.mp hq) | (obtain ⟨rfl, hq⟩ := Prod.ext_iff.mp hp; obtain ⟨rfl, _⟩ := Prod.ext_iff.mp hq) | (obtain ⟨_, hq⟩ := Prod.ext_iff.mp hp; obtain ⟨rfl, _⟩ := Prod.ext_iff.mp hq) | (obtain ⟨rfl, _⟩ := Prod.ext_iff.mp hp) | (obtain ⟨_, rfl⟩ := Prod.ext_iff.mp hp)))) <;> (try simp) <;> (repeat' apply And.intro) <;> (first | apply forEach_time | apply foldl_time | apply forEachFst_time | apply foldlFst_time | apply forEach_err | apply foldl_err | apply forEachFst_err | apply foldlFst_err | apply forEach_pwr | apply foldl_pwr | apply forEachFst_pwr | apply foldlFst_pwr | apply forEach_boot | apply foldl_boot | apply forEachFst_boot | apply foldlFst_boot | apply forEach_cells | apply foldl_cells | apply forEachFst_cells | apply foldlFst_cells | apply forEach_mem | apply foldl_mem | apply forEachFst_mem | apply foldlFst_mem | apply forEach_larder | apply foldl_larder | apply forEachFst_larder | apply foldlFst_larder | apply forEach_reg | apply foldl_reg | apply forEachFst_reg | apply foldlFst_reg | apply forEach_trans | apply foldl_trans | apply forEachFst_trans | apply foldlFst_trans | apply forEach_attic | apply foldl_attic | apply forEachFst_attic | apply foldlFst_attic | apply forEach_link | apply foldl_link | apply forEachFst_link | apply foldlFst_link | apply forEach_chord | apply foldl_chord | apply forEachFst_chord | apply foldlFst_chord | apply forEach_fresh | apply foldl_fresh | apply forEachFst_fresh | apply foldlFst_fresh | apply forEach_pending | apply foldl_pending | apply forEachFst_pending | apply foldlFst_pending) <;> intro _ _ <;> (try dsimp only) <;> (repeat' (split <;> try (rename_i hp; first | (obtain ⟨rfl, rfl⟩ := Prod.ext_iff.mp hp) | (obtain ⟨rfl, hq⟩ := Prod.ext_iff.mp hp; obtain ⟨rfl, rfl⟩ := Prod.ext_iff.mp hq) | (obtain ⟨rfl, hq⟩ := Prod.ext_iff.mp hp; obtain ⟨rfl, _⟩ := Prod.ext_iff.mp hq) | (obtain ⟨_, hq⟩ := Prod.ext_iff.mp hp; obtain ⟨rfl, _⟩ := Prod.ext_iff.mp hq) | (obtain ⟨rfl, _⟩ := Prod.ext_iff.mp hp) | (obtain ⟨_, rfl⟩ := Prod.ext_iff.mp hp)))) <;> first | rfl | (simp; done) | (simp_all; done)

@[simp] theorem resetPeers_frame (s : State) (p : Nat) :
    (resetPeers s p).time = s.time ∧ (resetPeers s p).cp = s.cp ∧ (resetPeers s p).part = s.part ∧
    (resetPeers s p).err = s.err ∧ (resetPeers s p).pwr = s.pwr ∧ (resetPeers s p).mgmt = s.mgmt ∧
    (resetPeers s p).boot = s.boot ∧ (resetPeers s p).cells = s.cells ∧ (resetPeers s p).mem = s.mem ∧
    (resetPeers s p).larder = s.larder ∧ (resetPeers s p).reg = s.reg ∧ (resetPeers s p).trans = s.trans ∧
    (resetPeers s p).attic = s.attic ∧ (resetPeers s p).link = s.link ∧ (resetPeers s p).out = s.out ∧
    (resetPeers s p).pending = s.pending := by
  unfold resetPeers
  simp

@[simp] theorem resetUnits_frame (s : State) (p : Nat) :
    (resetUnits s p).time = s.time ∧ (resetUnits s p).pwr = s.pwr ∧ (resetUnits s p).reg = s.reg ∧
    (resetUnits s p).link = s.link ∧ (resetUnits s p).pending = s.pending := by
  unfold resetUnits
  simp

@[simp] theorem bumpEpoch_frame (s : State) (p : Nat) :
    (bumpEpoch s p).time = s.time ∧ (bumpEpoch s p).cp = s.cp ∧ (bumpEpoch s p).err = s.err ∧
    (bumpEpoch s p).pwr = s.pwr ∧ (bumpEpoch s p).mgmt = s.mgmt ∧ (bumpEpoch s p).boot = s.boot ∧
    (bumpEpoch s p).cells = s.cells ∧ (bumpEpoch s p).mem = s.mem ∧ (bumpEpoch s p).larder = s.larder ∧
    (bumpEpoch s p).reg = s.reg ∧ (bumpEpoch s p).trans = s.trans ∧ (bumpEpoch s p).attic = s.attic ∧
    (bumpEpoch s p).link = s.link ∧ (bumpEpoch s p).chord = s.chord ∧ (bumpEpoch s p).fresh = s.fresh ∧
    (bumpEpoch s p).out = s.out ∧ (bumpEpoch s p).pending = s.pending := by
  unfold bumpEpoch
  simp

@[simp] theorem resetContext_frame (s : State) (p : Nat) :
    (resetContext s p).time = s.time ∧ (resetContext s p).pwr = s.pwr ∧ (resetContext s p).link = s.link ∧
    (resetContext s p).pending = s.pending := by
  unfold resetContext
  simp

@[simp] theorem enterState_frame (s : State) (p : Nat) (st : PartState) (ph : Phase) :
    (enterState s p st ph).time = s.time ∧ (enterState s p st ph).cp = s.cp ∧ (enterState s p st ph).err = s.err ∧
    (enterState s p st ph).pwr = s.pwr ∧ (enterState s p st ph).mgmt = s.mgmt ∧ (enterState s p st ph).boot = s.boot ∧
    (enterState s p st ph).cells = s.cells ∧ (enterState s p st ph).mem = s.mem ∧
    (enterState s p st ph).larder = s.larder ∧ (enterState s p st ph).reg = s.reg ∧
    (enterState s p st ph).trans = s.trans ∧ (enterState s p st ph).attic = s.attic ∧
    (enterState s p st ph).link = s.link ∧ (enterState s p st ph).chord = s.chord ∧
    (enterState s p st ph).fresh = s.fresh ∧ (enterState s p st ph).out = s.out ∧
    (enterState s p st ph).pending = s.pending := by
  unfold enterState
  simp

@[simp] theorem createPartition_frame (s : State) (p : Nat) (b : Bytes) :
    (createPartition s p b).time = s.time ∧ (createPartition s p b).pwr = s.pwr ∧
    (createPartition s p b).link = s.link ∧ (createPartition s p b).pending = s.pending := by
  unfold createPartition
  simp

@[simp] theorem beginDestroy_frame (s : State) (p : Nat) :
    (beginDestroy s p).time = s.time ∧ (beginDestroy s p).pwr = s.pwr ∧ (beginDestroy s p).link = s.link ∧
    (beginDestroy s p).pending = s.pending := by
  unfold beginDestroy
  simp

@[simp] theorem endPhase_frame (s : State) (p : Nat) :
    (endPhase s p).time = s.time ∧ (endPhase s p).pwr = s.pwr ∧ (endPhase s p).link = s.link ∧
    (endPhase s p).pending = s.pending := by
  unfold endPhase
  (try dsimp only)
  (repeat' (split <;> try (rename_i hp; first | (obtain ⟨rfl, rfl⟩ := Prod.ext_iff.mp hp) | (obtain ⟨rfl, hq⟩ := Prod.ext_iff.mp hp; obtain ⟨rfl, rfl⟩ := Prod.ext_iff.mp hq) | (obtain ⟨rfl, hq⟩ := Prod.ext_iff.mp hp; obtain ⟨rfl, _⟩ := Prod.ext_iff.mp hq) | (obtain ⟨_, hq⟩ := Prod.ext_iff.mp hp; obtain ⟨rfl, _⟩ := Prod.ext_iff.mp hq) | (obtain ⟨rfl, _⟩ := Prod.ext_iff.mp hp) | (obtain ⟨_, rfl⟩ := Prod.ext_iff.mp hp)))) <;> first | rfl | (simp; done) | (simp_all; done)

@[simp] theorem dropPages_frame (s : State) (p : Nat) :
    (dropPages s p).time = s.time ∧ (dropPages s p).cp = s.cp ∧ (dropPages s p).part = s.part ∧
    (dropPages s p).pwr = s.pwr ∧ (dropPages s p).mgmt = s.mgmt ∧ (dropPages s p).boot = s.boot ∧
    (dropPages s p).cells = s.cells ∧ (dropPages s p).mem = s.mem ∧ (dropPages s p).reg = s.reg ∧
    (dropPages s p).trans = s.trans ∧ (dropPages s p).attic = s.attic ∧ (dropPages s p).link = s.link ∧
    (dropPages s p).chord = s.chord ∧ (dropPages s p).fresh = s.fresh ∧ (dropPages s p).out = s.out ∧
    (dropPages s p).pending = s.pending := by
  unfold dropPages
  simp

@[simp] theorem endDestroy_frame (s : State) (p n : Nat) :
    (endDestroy s p n).time = s.time ∧ (endDestroy s p n).pwr = s.pwr ∧ (endDestroy s p n).boot = s.boot ∧
    (endDestroy s p n).link = s.link ∧ (endDestroy s p n).pending = s.pending := by
  unfold endDestroy
  simp

end Sys2Proof.Machine
end

