-- ==== Sys2Proof/Laws/FrameImages.lean ====
section
/-! SUPPORT. What each operation of Machine/Images.lean leaves as it was, by component of the state. -/
set_option maxRecDepth 4000
set_option exponentiation.threshold 2000
namespace Sys2Proof.Machine

@[simp] theorem modImageCore_frame (s : State) (i k : Nat) (f : ImageCore → ImageCore) :
    (modImageCore s i k f).time = s.time ∧ (modImageCore s i k f).cp = s.cp ∧ (modImageCore s i k f).err = s.err ∧
    (modImageCore s i k f).pwr = s.pwr ∧ (modImageCore s i k f).mgmt = s.mgmt ∧ (modImageCore s i k f).boot = s.boot ∧
    (modImageCore s i k f).cells = s.cells ∧ (modImageCore s i k f).mem = s.mem ∧
    (modImageCore s i k f).larder = s.larder ∧ (modImageCore s i k f).reg = s.reg ∧
    (modImageCore s i k f).trans = s.trans ∧ (modImageCore s i k f).attic = s.attic ∧
    (modImageCore s i k f).link = s.link ∧ (modImageCore s i k f).chord = s.chord ∧
    (modImageCore s i k f).fresh = s.fresh ∧ (modImageCore s i k f).out = s.out ∧
    (modImageCore s i k f).pending = s.pending := by
  unfold modImageCore
  simp

@[simp] theorem resendChunks_frame (s : State) (i k lacks n : Nat) (y : ImageCore) :
    (resendChunks s i k lacks n y).time = s.time ∧ (resendChunks s i k lacks n y).pwr = s.pwr ∧
    (resendChunks s i k lacks n y).reg = s.reg ∧ (resendChunks s i k lacks n y).link = s.link ∧
    (resendChunks s i k lacks n y).fresh = s.fresh ∧ (resendChunks s i k lacks n y).pending = s.pending := by
  unfold resendChunks
  simp

end Sys2Proof.Machine
end

