-- ==== Sys2Proof/Laws/FrameModels.lean ====
section
/-! SUPPORT. What each operation of Machine/Models.lean leaves as it was, by component of the state. -/
set_option maxRecDepth 4000
set_option exponentiation.threshold 2000
namespace Sys2Proof.Machine

@[simp] theorem recallModel_frame (s : State) (m : Model) :
    (recallModel s m).1.time = s.time ∧ (recallModel s m).1.cp = s.cp ∧ (recallModel s m).1.part = s.part ∧
    (recallModel s m).1.err = s.err ∧ (recallModel s m).1.pwr = s.pwr ∧ (recallModel s m).1.mgmt = s.mgmt ∧
    (recallModel s m).1.boot = s.boot ∧ (recallModel s m).1.cells = s.cells ∧ (recallModel s m).1.mem = s.mem ∧
    (recallModel s m).1.larder = s.larder ∧ (recallModel s m).1.reg = s.reg ∧ (recallModel s m).1.trans = s.trans ∧
    (recallModel s m).1.link = s.link ∧ (recallModel s m).1.chord = s.chord ∧ (recallModel s m).1.fresh = s.fresh ∧
    (recallModel s m).1.pending = s.pending := by
  unfold recallModel
  simp

@[simp] theorem failBind_frame (s : State) (seq h : Nat) (m : Model) (err range chunk : Nat) :
    (failBind s seq h m err range chunk).time = s.time ∧ (failBind s seq h m err range chunk).err = s.err ∧
    (failBind s seq h m err range chunk).pwr = s.pwr ∧ (failBind s seq h m err range chunk).boot = s.boot ∧
    (failBind s seq h m err range chunk).cells = s.cells ∧ (failBind s seq h m err range chunk).larder = s.larder ∧
    (failBind s seq h m err range chunk).reg = s.reg ∧ (failBind s seq h m err range chunk).trans = s.trans ∧
    (failBind s seq h m err range chunk).attic = s.attic ∧ (failBind s seq h m err range chunk).link = s.link ∧
    (failBind s seq h m err range chunk).chord = s.chord ∧ (failBind s seq h m err range chunk).fresh = s.fresh ∧
    (failBind s seq h m err range chunk).pending = s.pending := by
  unfold failBind
  simp

end Sys2Proof.Machine
end

