-- ==== Sys2Proof/Laws/FrameSpdm.lean ====
section
/-! SUPPORT. What each operation of Machine/Spdm.lean leaves as it was, by component of the state. -/
set_option maxRecDepth 4000
set_option exponentiation.threshold 2000
namespace Sys2Proof.Machine

@[simp] theorem modConv_frame (s : State) (t : Nat) (f : SpdmConv → SpdmConv) :
    (modConv s t f).time = s.time ∧ (modConv s t f).cp = s.cp ∧ (modConv s t f).err = s.err ∧
    (modConv s t f).pwr = s.pwr ∧ (modConv s t f).mgmt = s.mgmt ∧ (modConv s t f).boot = s.boot ∧
    (modConv s t f).cells = s.cells ∧ (modConv s t f).mem = s.mem ∧ (modConv s t f).larder = s.larder ∧
    (modConv s t f).reg = s.reg ∧ (modConv s t f).trans = s.trans ∧ (modConv s t f).attic = s.attic ∧
    (modConv s t f).link = s.link ∧ (modConv s t f).chord = s.chord ∧ (modConv s t f).fresh = s.fresh ∧
    (modConv s t f).out = s.out ∧ (modConv s t f).pending = s.pending := by
  unfold modConv
  simp

@[simp] theorem spdmAnswer_frame (s : State) (t code value : Nat) :
    (spdmAnswer s t code value).time = s.time ∧ (spdmAnswer s t code value).cp = s.cp ∧
    (spdmAnswer s t code value).part = s.part ∧ (spdmAnswer s t code value).err = s.err ∧
    (spdmAnswer s t code value).pwr = s.pwr ∧ (spdmAnswer s t code value).mgmt = s.mgmt ∧
    (spdmAnswer s t code value).boot = s.boot ∧ (spdmAnswer s t code value).cells = s.cells ∧
    (spdmAnswer s t code value).mem = s.mem ∧ (spdmAnswer s t code value).larder = s.larder ∧
    (spdmAnswer s t code value).reg = s.reg ∧ (spdmAnswer s t code value).trans = s.trans ∧
    (spdmAnswer s t code value).attic = s.attic ∧ (spdmAnswer s t code value).link = s.link ∧
    (spdmAnswer s t code value).chord = s.chord ∧ (spdmAnswer s t code value).fresh = s.fresh ∧
    (spdmAnswer s t code value).pending = s.pending := by
  unfold spdmAnswer
  simp

@[simp] theorem spdmError_frame (s : State) (t err : Nat) :
    (spdmError s t err).time = s.time ∧ (spdmError s t err).cp = s.cp ∧ (spdmError s t err).part = s.part ∧
    (spdmError s t err).err = s.err ∧ (spdmError s t err).pwr = s.pwr ∧ (spdmError s t err).mgmt = s.mgmt ∧
    (spdmError s t err).boot = s.boot ∧ (spdmError s t err).cells = s.cells ∧ (spdmError s t err).mem = s.mem ∧
    (spdmError s t err).larder = s.larder ∧ (spdmError s t err).reg = s.reg ∧ (spdmError s t err).trans = s.trans ∧
    (spdmError s t err).attic = s.attic ∧ (spdmError s t err).link = s.link ∧ (spdmError s t err).chord = s.chord ∧
    (spdmError s t err).fresh = s.fresh ∧ (spdmError s t err).pending = s.pending := by
  unfold spdmError
  simp

@[simp] theorem spdmOpen_time (s : State) (t code : Nat) (scope : Option Nat) (m : SpdmIn) :
    (spdmOpen s t code scope m).time = s.time := by
  unfold spdmOpen
  dsimp only
  simp
  intros
  split <;> simp

@[simp] theorem spdmOpen_cp (s : State) (t code : Nat) (scope : Option Nat) (m : SpdmIn) :
    (spdmOpen s t code scope m).cp = s.cp := by
  unfold spdmOpen
  dsimp only
  simp
  intros
  split <;> simp

@[simp] theorem spdmOpen_err (s : State) (t code : Nat) (scope : Option Nat) (m : SpdmIn) :
    (spdmOpen s t code scope m).err = s.err := by
  unfold spdmOpen
  dsimp only
  simp
  intros
  split <;> simp

@[simp] theorem spdmOpen_pwr (s : State) (t code : Nat) (scope : Option Nat) (m : SpdmIn) :
    (spdmOpen s t code scope m).pwr = s.pwr := by
  unfold spdmOpen
  dsimp only
  simp
  intros
  split <;> simp

@[simp] theorem spdmOpen_mgmt (s : State) (t code : Nat) (scope : Option Nat) (m : SpdmIn) :
    (spdmOpen s t code scope m).mgmt = s.mgmt := by
  unfold spdmOpen
  dsimp only
  simp
  intros
  split <;> simp

@[simp] theorem spdmOpen_boot (s : State) (t code : Nat) (scope : Option Nat) (m : SpdmIn) :
    (spdmOpen s t code scope m).boot = s.boot := by
  unfold spdmOpen
  dsimp only
  simp
  intros
  split <;> simp

@[simp] theorem spdmOpen_cells (s : State) (t code : Nat) (scope : Option Nat) (m : SpdmIn) :
    (spdmOpen s t code scope m).cells = s.cells := by
  unfold spdmOpen
  dsimp only
  simp
  intros
  split <;> simp

@[simp] theorem spdmOpen_mem (s : State) (t code : Nat) (scope : Option Nat) (m : SpdmIn) :
    (spdmOpen s t code scope m).mem = s.mem := by
  unfold spdmOpen
  dsimp only
  simp
  intros
  split <;> simp

@[simp] theorem spdmOpen_larder (s : State) (t code : Nat) (scope : Option Nat) (m : SpdmIn) :
    (spdmOpen s t code scope m).larder = s.larder := by
  unfold spdmOpen
  dsimp only
  simp
  intros
  split <;> simp

@[simp] theorem spdmOpen_reg (s : State) (t code : Nat) (scope : Option Nat) (m : SpdmIn) :
    (spdmOpen s t code scope m).reg = s.reg := by
  unfold spdmOpen
  dsimp only
  simp
  intros
  split <;> simp

@[simp] theorem spdmOpen_trans (s : State) (t code : Nat) (scope : Option Nat) (m : SpdmIn) :
    (spdmOpen s t code scope m).trans = s.trans := by
  unfold spdmOpen
  dsimp only
  simp
  intros
  split <;> simp

@[simp] theorem spdmOpen_attic (s : State) (t code : Nat) (scope : Option Nat) (m : SpdmIn) :
    (spdmOpen s t code scope m).attic = s.attic := by
  unfold spdmOpen
  dsimp only
  simp
  intros
  split <;> simp

@[simp] theorem spdmOpen_link (s : State) (t code : Nat) (scope : Option Nat) (m : SpdmIn) :
    (spdmOpen s t code scope m).link = s.link := by
  unfold spdmOpen
  dsimp only
  simp
  intros
  split <;> simp

@[simp] theorem spdmOpen_chord (s : State) (t code : Nat) (scope : Option Nat) (m : SpdmIn) :
    (spdmOpen s t code scope m).chord = s.chord := by
  unfold spdmOpen
  dsimp only
  simp
  intros
  split <;> simp

@[simp] theorem spdmOpen_fresh (s : State) (t code : Nat) (scope : Option Nat) (m : SpdmIn) :
    (spdmOpen s t code scope m).fresh = s.fresh := by
  unfold spdmOpen
  dsimp only
  simp
  intros
  split <;> simp

@[simp] theorem spdmOpen_pending (s : State) (t code : Nat) (scope : Option Nat) (m : SpdmIn) :
    (spdmOpen s t code scope m).pending = s.pending := by
  unfold spdmOpen
  dsimp only
  simp
  intros
  split <;> simp

@[simp] theorem sendHeld_frame (s : State) :
    (sendHeld s).time = s.time ∧ (sendHeld s).cp = s.cp ∧ (sendHeld s).part = s.part ∧ (sendHeld s).err = s.err ∧
    (sendHeld s).pwr = s.pwr ∧ (sendHeld s).boot = s.boot ∧ (sendHeld s).cells = s.cells ∧ (sendHeld s).mem = s.mem ∧
    (sendHeld s).larder = s.larder ∧ (sendHeld s).reg = s.reg ∧ (sendHeld s).trans = s.trans ∧
    (sendHeld s).attic = s.attic ∧ (sendHeld s).link = s.link ∧ (sendHeld s).chord = s.chord ∧
    (sendHeld s).fresh = s.fresh ∧ (sendHeld s).pending = s.pending := by
  unfold sendHeld
  simp

@[simp] theorem openMgmt_frame (s : State) :
    (openMgmt s).time = s.time ∧ (openMgmt s).cp = s.cp ∧ (openMgmt s).part = s.part ∧ (openMgmt s).err = s.err ∧
    (openMgmt s).pwr = s.pwr ∧ (openMgmt s).boot = s.boot ∧ (openMgmt s).cells = s.cells ∧ (openMgmt s).mem = s.mem ∧
    (openMgmt s).larder = s.larder ∧ (openMgmt s).reg = s.reg ∧ (openMgmt s).trans = s.trans ∧
    (openMgmt s).attic = s.attic ∧ (openMgmt s).link = s.link ∧ (openMgmt s).chord = s.chord ∧
    (openMgmt s).fresh = s.fresh ∧ (openMgmt s).pending = s.pending := by
  unfold openMgmt
  simp

@[simp] theorem closeMgmt_frame (s : State) :
    (closeMgmt s).time = s.time ∧ (closeMgmt s).part = s.part ∧ (closeMgmt s).err = s.err ∧
    (closeMgmt s).pwr = s.pwr ∧ (closeMgmt s).boot = s.boot ∧ (closeMgmt s).cells = s.cells ∧
    (closeMgmt s).mem = s.mem ∧ (closeMgmt s).larder = s.larder ∧ (closeMgmt s).reg = s.reg ∧
    (closeMgmt s).trans = s.trans ∧ (closeMgmt s).attic = s.attic ∧ (closeMgmt s).link = s.link ∧
    (closeMgmt s).chord = s.chord ∧ (closeMgmt s).fresh = s.fresh ∧ (closeMgmt s).out = s.out ∧
    (closeMgmt s).pending = s.pending := by
  unfold closeMgmt
  simp

@[simp] theorem endSpdm_frame (s : State) (t : Nat) :
    (endSpdm s t).time = s.time ∧ (endSpdm s t).err = s.err ∧ (endSpdm s t).pwr = s.pwr ∧
    (endSpdm s t).boot = s.boot ∧ (endSpdm s t).cells = s.cells ∧ (endSpdm s t).mem = s.mem ∧
    (endSpdm s t).larder = s.larder ∧ (endSpdm s t).reg = s.reg ∧ (endSpdm s t).trans = s.trans ∧
    (endSpdm s t).attic = s.attic ∧ (endSpdm s t).link = s.link ∧ (endSpdm s t).chord = s.chord ∧
    (endSpdm s t).fresh = s.fresh ∧ (endSpdm s t).out = s.out ∧ (endSpdm s t).pending = s.pending := by
  unfold endSpdm
  simp

@[simp] theorem placeResponse_frame (s : State) (t : Taken) (resp : Bytes) (wb : WriteBack) :
    (placeResponse s t resp wb).time = s.time ∧ (placeResponse s t resp wb).cp = s.cp ∧
    (placeResponse s t resp wb).part = s.part ∧ (placeResponse s t resp wb).err = s.err ∧
    (placeResponse s t resp wb).pwr = s.pwr ∧ (placeResponse s t resp wb).mgmt = s.mgmt ∧
    (placeResponse s t resp wb).boot = s.boot ∧ (placeResponse s t resp wb).cells = s.cells ∧
    (placeResponse s t resp wb).mem = s.mem ∧ (placeResponse s t resp wb).larder = s.larder ∧
    (placeResponse s t resp wb).reg = s.reg ∧ (placeResponse s t resp wb).trans = s.trans ∧
    (placeResponse s t resp wb).attic = s.attic ∧ (placeResponse s t resp wb).link = s.link ∧
    (placeResponse s t resp wb).chord = s.chord ∧ (placeResponse s t resp wb).fresh = s.fresh ∧
    (placeResponse s t resp wb).pending = s.pending := by
  unfold placeResponse
  simp

end Sys2Proof.Machine
end

