-- ==== Sys2Proof/Laws/FrameMgmtBase.lean ====
section
/-! SUPPORT. What each operation of Machine/MgmtBase.lean leaves as it was, by component of the state. -/
set_option maxRecDepth 4000
set_option exponentiation.threshold 2000
namespace Sys2Proof.Machine

@[simp] theorem mgmtReply_frame (s : State) (kind status value : Nat) :
    (mgmtReply s kind status value).time = s.time ∧ (mgmtReply s kind status value).cp = s.cp ∧
    (mgmtReply s kind status value).part = s.part ∧ (mgmtReply s kind status value).err = s.err ∧
    (mgmtReply s kind status value).pwr = s.pwr ∧ (mgmtReply s kind status value).mgmt = s.mgmt ∧
    (mgmtReply s kind status value).boot = s.boot ∧ (mgmtReply s kind status value).cells = s.cells ∧
    (mgmtReply s kind status value).mem = s.mem ∧ (mgmtReply s kind status value).larder = s.larder ∧
    (mgmtReply s kind status value).reg = s.reg ∧ (mgmtReply s kind status value).trans = s.trans ∧
    (mgmtReply s kind status value).attic = s.attic ∧ (mgmtReply s kind status value).link = s.link ∧
    (mgmtReply s kind status value).chord = s.chord ∧ (mgmtReply s kind status value).fresh = s.fresh ∧
    (mgmtReply s kind status value).pending = s.pending := by
  unfold mgmtReply
  simp

@[simp] theorem endRequest_frame (s : State) (msg : Bytes) (code : Status) :
    (endRequest s msg code).time = s.time ∧ (endRequest s msg code).cp = s.cp ∧
    (endRequest s msg code).part = s.part ∧ (endRequest s msg code).err = s.err ∧
    (endRequest s msg code).pwr = s.pwr ∧ (endRequest s msg code).mgmt = s.mgmt ∧
    (endRequest s msg code).boot = s.boot ∧ (endRequest s msg code).cells = s.cells ∧
    (endRequest s msg code).mem = s.mem ∧ (endRequest s msg code).larder = s.larder ∧
    (endRequest s msg code).reg = s.reg ∧ (endRequest s msg code).trans = s.trans ∧
    (endRequest s msg code).attic = s.attic ∧ (endRequest s msg code).link = s.link ∧
    (endRequest s msg code).chord = s.chord ∧ (endRequest s msg code).fresh = s.fresh ∧
    (endRequest s msg code).pending = s.pending := by
  unfold endRequest
  simp

@[simp] theorem postMgmt_frame (s : State) (msg : Bytes) :
    (postMgmt s msg).time = s.time ∧ (postMgmt s msg).part = s.part ∧ (postMgmt s msg).err = s.err ∧
    (postMgmt s msg).pwr = s.pwr ∧ (postMgmt s msg).mgmt = s.mgmt ∧ (postMgmt s msg).boot = s.boot ∧
    (postMgmt s msg).cells = s.cells ∧ (postMgmt s msg).mem = s.mem ∧ (postMgmt s msg).larder = s.larder ∧
    (postMgmt s msg).reg = s.reg ∧ (postMgmt s msg).trans = s.trans ∧ (postMgmt s msg).attic = s.attic ∧
    (postMgmt s msg).link = s.link ∧ (postMgmt s msg).chord = s.chord ∧ (postMgmt s msg).fresh = s.fresh ∧
    (postMgmt s msg).pending = s.pending := by
  unfold postMgmt
  (try dsimp only)
  (repeat' (split <;> try (rename_i hp; first | (obtain ⟨rfl, rfl⟩ := Prod.ext_iff.mp hp) | (obtain ⟨rfl, hq⟩ := Prod.ext_iff.mp hp; obtain ⟨rfl, rfl⟩ := Prod.ext_iff.mp hq) | (obtain ⟨rfl, hq⟩ := Prod.ext_iff.mp hp; obtain ⟨rfl, _⟩ := Prod.ext_iff.mp hq) | (obtain ⟨_, hq⟩ := Prod.ext_iff.mp hp; obtain ⟨rfl, _⟩ := Prod.ext_iff.mp hq) | (obtain ⟨rfl, _⟩ := Prod.ext_iff.mp hp) | (obtain ⟨_, rfl⟩ := Prod.ext_iff.mp hp)))) <;> first | rfl | (simp; done) | (simp_all; done)

end Sys2Proof.Machine
end

