-- ==== Sys2Proof/Laws/FrameStart.lean ====
section
/-! SUPPORT. What each operation of Machine/Start.lean leaves as it was, by component of the state. -/
set_option maxRecDepth 4000
set_option exponentiation.threshold 2000
namespace Sys2Proof.Machine

@[simp] theorem writeRecord_frame (s : State) (r : SlotRecord) :
    (writeRecord s r).time = s.time ∧ (writeRecord s r).cp = s.cp ∧ (writeRecord s r).part = s.part ∧
    (writeRecord s r).err = s.err ∧ (writeRecord s r).pwr = s.pwr ∧ (writeRecord s r).mgmt = s.mgmt ∧
    (writeRecord s r).cells = s.cells ∧ (writeRecord s r).mem = s.mem ∧ (writeRecord s r).larder = s.larder ∧
    (writeRecord s r).reg = s.reg ∧ (writeRecord s r).trans = s.trans ∧ (writeRecord s r).attic = s.attic ∧
    (writeRecord s r).link = s.link ∧ (writeRecord s r).chord = s.chord ∧ (writeRecord s r).fresh = s.fresh ∧
    (writeRecord s r).out = s.out ∧ (writeRecord s r).pending = s.pending := by
  unfold writeRecord
  simp

@[simp] theorem startFails_frame (s : State) (reason : Nat) :
    (startFails s reason).time = s.time ∧ (startFails s reason).cp = s.cp ∧ (startFails s reason).part = s.part ∧
    (startFails s reason).err = s.err ∧ (startFails s reason).pwr = s.pwr ∧ (startFails s reason).cells = s.cells ∧
    (startFails s reason).mem = s.mem ∧ (startFails s reason).larder = s.larder ∧ (startFails s reason).reg = s.reg ∧
    (startFails s reason).trans = s.trans ∧ (startFails s reason).attic = s.attic ∧
    (startFails s reason).link = s.link ∧ (startFails s reason).chord = s.chord ∧
    (startFails s reason).fresh = s.fresh ∧ (startFails s reason).pending = s.pending := by
  unfold startFails
  simp

@[simp] theorem readBoard_frame (s : State) (inp : StartInput) :
    (readBoard s inp).time = s.time ∧ (readBoard s inp).cp = s.cp ∧ (readBoard s inp).err = s.err ∧
    (readBoard s inp).mgmt = s.mgmt ∧ (readBoard s inp).cells = s.cells ∧ (readBoard s inp).mem = s.mem ∧
    (readBoard s inp).larder = s.larder ∧ (readBoard s inp).reg = s.reg ∧ (readBoard s inp).trans = s.trans ∧
    (readBoard s inp).attic = s.attic ∧ (readBoard s inp).link = s.link ∧ (readBoard s inp).fresh = s.fresh ∧
    (readBoard s inp).out = s.out ∧ (readBoard s inp).pending = s.pending := by
  unfold readBoard
  simp

@[simp] theorem recordDefects_frame (s : State) (l : List Defect) :
    (recordDefects s l).time = s.time ∧ (recordDefects s l).cp = s.cp ∧ (recordDefects s l).part = s.part ∧
    (recordDefects s l).err = s.err ∧ (recordDefects s l).pwr = s.pwr ∧ (recordDefects s l).mgmt = s.mgmt ∧
    (recordDefects s l).cells = s.cells ∧ (recordDefects s l).mem = s.mem ∧ (recordDefects s l).larder = s.larder ∧
    (recordDefects s l).reg = s.reg ∧ (recordDefects s l).trans = s.trans ∧ (recordDefects s l).attic = s.attic ∧
    (recordDefects s l).link = s.link ∧ (recordDefects s l).chord = s.chord ∧ (recordDefects s l).fresh = s.fresh ∧
    (recordDefects s l).out = s.out ∧ (recordDefects s l).pending = s.pending := by
  unfold recordDefects
  simp

@[simp] theorem numberCellars_frame (s : State) (t : TestInput) (order : List Nat) :
    (numberCellars s t order).time = s.time ∧ (numberCellars s t order).cp = s.cp ∧
    (numberCellars s t order).part = s.part ∧ (numberCellars s t order).err = s.err ∧
    (numberCellars s t order).pwr = s.pwr ∧ (numberCellars s t order).mgmt = s.mgmt ∧
    (numberCellars s t order).mem = s.mem ∧ (numberCellars s t order).larder = s.larder ∧
    (numberCellars s t order).reg = s.reg ∧ (numberCellars s t order).trans = s.trans ∧
    (numberCellars s t order).attic = s.attic ∧ (numberCellars s t order).link = s.link ∧
    (numberCellars s t order).chord = s.chord ∧ (numberCellars s t order).fresh = s.fresh ∧
    (numberCellars s t order).out = s.out ∧ (numberCellars s t order).pending = s.pending := by
  unfold numberCellars
  simp

@[simp] theorem numberQuads_frame (s : State) (t : TestInput) (order : List Nat) :
    (numberQuads s t order).time = s.time ∧ (numberQuads s t order).cp = s.cp ∧
    (numberQuads s t order).part = s.part ∧ (numberQuads s t order).err = s.err ∧
    (numberQuads s t order).pwr = s.pwr ∧ (numberQuads s t order).mgmt = s.mgmt ∧
    (numberQuads s t order).cells = s.cells ∧ (numberQuads s t order).mem = s.mem ∧
    (numberQuads s t order).larder = s.larder ∧ (numberQuads s t order).reg = s.reg ∧
    (numberQuads s t order).trans = s.trans ∧ (numberQuads s t order).attic = s.attic ∧
    (numberQuads s t order).link = s.link ∧ (numberQuads s t order).chord = s.chord ∧
    (numberQuads s t order).fresh = s.fresh ∧ (numberQuads s t order).out = s.out ∧
    (numberQuads s t order).pending = s.pending := by
  unfold numberQuads
  simp

@[simp] theorem wakeDomains_frame (s : State) (l : List Nat) :
    (wakeDomains s l).time = s.time ∧ (wakeDomains s l).cp = s.cp ∧ (wakeDomains s l).part = s.part ∧
    (wakeDomains s l).err = s.err ∧ (wakeDomains s l).mgmt = s.mgmt ∧ (wakeDomains s l).boot = s.boot ∧
    (wakeDomains s l).cells = s.cells ∧ (wakeDomains s l).mem = s.mem ∧ (wakeDomains s l).larder = s.larder ∧
    (wakeDomains s l).reg = s.reg ∧ (wakeDomains s l).trans = s.trans ∧ (wakeDomains s l).attic = s.attic ∧
    (wakeDomains s l).link = s.link ∧ (wakeDomains s l).chord = s.chord ∧ (wakeDomains s l).fresh = s.fresh ∧
    (wakeDomains s l).out = s.out ∧ (wakeDomains s l).pending = s.pending := by
  unfold wakeDomains
  simp

@[simp] theorem setDomains_frame (s : State) :
    (setDomains s).time = s.time ∧ (setDomains s).cp = s.cp ∧ (setDomains s).part = s.part ∧
    (setDomains s).err = s.err ∧ (setDomains s).mgmt = s.mgmt ∧ (setDomains s).boot = s.boot ∧
    (setDomains s).cells = s.cells ∧ (setDomains s).mem = s.mem ∧ (setDomains s).larder = s.larder ∧
    (setDomains s).reg = s.reg ∧ (setDomains s).trans = s.trans ∧ (setDomains s).attic = s.attic ∧
    (setDomains s).link = s.link ∧ (setDomains s).chord = s.chord ∧ (setDomains s).fresh = s.fresh ∧
    (setDomains s).out = s.out ∧ (setDomains s).pending = s.pending := by
  unfold setDomains
  simp

@[simp] theorem siteBudgets_frame (s : State) :
    (siteBudgets s).time = s.time ∧ (siteBudgets s).cp = s.cp ∧ (siteBudgets s).part = s.part ∧
    (siteBudgets s).err = s.err ∧ (siteBudgets s).mgmt = s.mgmt ∧ (siteBudgets s).boot = s.boot ∧
    (siteBudgets s).cells = s.cells ∧ (siteBudgets s).mem = s.mem ∧ (siteBudgets s).larder = s.larder ∧
    (siteBudgets s).reg = s.reg ∧ (siteBudgets s).trans = s.trans ∧ (siteBudgets s).attic = s.attic ∧
    (siteBudgets s).link = s.link ∧ (siteBudgets s).chord = s.chord ∧ (siteBudgets s).fresh = s.fresh ∧
    (siteBudgets s).out = s.out ∧ (siteBudgets s).pending = s.pending := by
  unfold siteBudgets
  simp

@[simp] theorem startHardRow_frame (s : State) (t : TestInput) (n p : Nat) (d : Defect) :
    (startHardRow s t n p d).time = s.time ∧ (startHardRow s t n p d).cp = s.cp ∧
    (startHardRow s t n p d).part = s.part ∧ (startHardRow s t n p d).err = s.err ∧
    (startHardRow s t n p d).pwr = s.pwr ∧ (startHardRow s t n p d).mgmt = s.mgmt ∧
    (startHardRow s t n p d).cells = s.cells ∧ (startHardRow s t n p d).larder = s.larder ∧
    (startHardRow s t n p d).reg = s.reg ∧ (startHardRow s t n p d).trans = s.trans ∧
    (startHardRow s t n p d).attic = s.attic ∧ (startHardRow s t n p d).link = s.link ∧
    (startHardRow s t n p d).chord = s.chord ∧ (startHardRow s t n p d).fresh = s.fresh ∧
    (startHardRow s t n p d).out = s.out ∧ (startHardRow s t n p d).pending = s.pending := by
  unfold startHardRow
  simp

@[simp] theorem startSoftRow_frame (s : State) (n : Nat) (d : Defect) :
    (startSoftRow s n d).time = s.time ∧ (startSoftRow s n d).cp = s.cp ∧ (startSoftRow s n d).part = s.part ∧
    (startSoftRow s n d).pwr = s.pwr ∧ (startSoftRow s n d).mgmt = s.mgmt ∧ (startSoftRow s n d).boot = s.boot ∧
    (startSoftRow s n d).cells = s.cells ∧ (startSoftRow s n d).larder = s.larder ∧ (startSoftRow s n d).reg = s.reg ∧
    (startSoftRow s n d).trans = s.trans ∧ (startSoftRow s n d).attic = s.attic ∧ (startSoftRow s n d).link = s.link ∧
    (startSoftRow s n d).chord = s.chord ∧ (startSoftRow s n d).fresh = s.fresh ∧ (startSoftRow s n d).out = s.out ∧
    (startSoftRow s n d).pending = s.pending := by
  unfold startSoftRow
  simp

@[simp] theorem startShelves_frame (s : State) (t : TestInput) :
    (startShelves s t).time = s.time ∧ (startShelves s t).cp = s.cp ∧ (startShelves s t).part = s.part ∧
    (startShelves s t).pwr = s.pwr ∧ (startShelves s t).mgmt = s.mgmt ∧ (startShelves s t).cells = s.cells ∧
    (startShelves s t).reg = s.reg ∧ (startShelves s t).trans = s.trans ∧ (startShelves s t).attic = s.attic ∧
    (startShelves s t).link = s.link ∧ (startShelves s t).chord = s.chord ∧ (startShelves s t).fresh = s.fresh ∧
    (startShelves s t).out = s.out ∧ (startShelves s t).pending = s.pending := by
  unfold startShelves
  simp

@[simp] theorem startFar_frame (s : State) (t : TestInput) :
    (startFar s t).time = s.time ∧ (startFar s t).cp = s.cp ∧ (startFar s t).part = s.part ∧
    (startFar s t).err = s.err ∧ (startFar s t).pwr = s.pwr ∧ (startFar s t).mgmt = s.mgmt ∧
    (startFar s t).boot = s.boot ∧ (startFar s t).cells = s.cells ∧ (startFar s t).larder = s.larder ∧
    (startFar s t).reg = s.reg ∧ (startFar s t).trans = s.trans ∧ (startFar s t).attic = s.attic ∧
    (startFar s t).link = s.link ∧ (startFar s t).chord = s.chord ∧ (startFar s t).fresh = s.fresh ∧
    (startFar s t).out = s.out ∧ (startFar s t).pending = s.pending := by
  unfold startFar
  simp

@[simp] theorem startEngine_frame (s : State) (e : Nat) :
    (startEngine s e).time = s.time ∧ (startEngine s e).part = s.part ∧ (startEngine s e).err = s.err ∧
    (startEngine s e).pwr = s.pwr ∧ (startEngine s e).boot = s.boot ∧ (startEngine s e).cells = s.cells ∧
    (startEngine s e).mem = s.mem ∧ (startEngine s e).larder = s.larder ∧ (startEngine s e).reg = s.reg ∧
    (startEngine s e).trans = s.trans ∧ (startEngine s e).attic = s.attic ∧ (startEngine s e).chord = s.chord ∧
    (startEngine s e).fresh = s.fresh ∧ (startEngine s e).pending = s.pending := by
  unfold startEngine
  simp

@[simp] theorem startSite_frame (s : State) (t : Nat) :
    (startSite s t).time = s.time ∧ (startSite s t).cp = s.cp ∧ (startSite s t).part = s.part ∧
    (startSite s t).err = s.err ∧ (startSite s t).pwr = s.pwr ∧ (startSite s t).mgmt = s.mgmt ∧
    (startSite s t).cells = s.cells ∧ (startSite s t).mem = s.mem ∧ (startSite s t).larder = s.larder ∧
    (startSite s t).reg = s.reg ∧ (startSite s t).trans = s.trans ∧ (startSite s t).link = s.link ∧
    (startSite s t).chord = s.chord ∧ (startSite s t).fresh = s.fresh ∧ (startSite s t).pending = s.pending := by
  unfold startSite
  simp

@[simp] theorem startReady_frame (s : State) :
    (startReady s).time = s.time ∧ (startReady s).err = s.err ∧ (startReady s).pwr = s.pwr ∧
    (startReady s).mem = s.mem ∧ (startReady s).larder = s.larder ∧ (startReady s).reg = s.reg ∧
    (startReady s).trans = s.trans ∧ (startReady s).attic = s.attic ∧ (startReady s).link = s.link ∧
    (startReady s).chord = s.chord ∧ (startReady s).fresh = s.fresh ∧ (startReady s).pending = s.pending := by
  unfold startReady
  simp

@[simp] theorem startUnits_frame (s : State) (inp : StartInput) :
    (startUnits s inp).time = s.time ∧ (startUnits s inp).reg = s.reg ∧ (startUnits s inp).trans = s.trans ∧
    (startUnits s inp).chord = s.chord ∧ (startUnits s inp).fresh = s.fresh ∧
    (startUnits s inp).pending = s.pending := by
  unfold startUnits
  simp

@[simp] theorem startRuns_frame (s : State) (inp : StartInput) (x : FwImage) (slot : Nat) (fallback : Bool) :
    (startRuns s inp x slot fallback).time = s.time ∧ (startRuns s inp x slot fallback).reg = s.reg ∧
    (startRuns s inp x slot fallback).trans = s.trans ∧ (startRuns s inp x slot fallback).pending = s.pending := by
  unfold startRuns
  simp

@[simp] theorem startFirmware_frame (s : State) (inp : StartInput) :
    (startFirmware s inp).time = s.time ∧ (startFirmware s inp).reg = s.reg ∧ (startFirmware s inp).trans = s.trans ∧
    (startFirmware s inp).pending = s.pending := by
  unfold startFirmware
  (try dsimp only)
  (repeat' (split <;> try (rename_i hp; first | (obtain ⟨rfl, rfl⟩ := Prod.ext_iff.mp hp) | (obtain ⟨rfl, hq⟩ := Prod.ext_iff.mp hp; obtain ⟨rfl, rfl⟩ := Prod.ext_iff.mp hq) | (obtain ⟨rfl, hq⟩ := Prod.ext_iff.mp hp; obtain ⟨rfl, _⟩ := Prod.ext_iff.mp hq) | (obtain ⟨_, hq⟩ := Prod.ext_iff.mp hp; obtain ⟨rfl, _⟩ := Prod.ext_iff.mp hq) | (obtain ⟨rfl, _⟩ := Prod.ext_iff.mp hp) | (obtain ⟨_, rfl⟩ := Prod.ext_iff.mp hp)))) <;> first | rfl | (simp; done) | (simp_all; done)

@[simp] theorem setLimits_frame (s : State) :
    (setLimits s).time = s.time ∧ (setLimits s).cp = s.cp ∧ (setLimits s).part = s.part ∧ (setLimits s).err = s.err ∧
    (setLimits s).mgmt = s.mgmt ∧ (setLimits s).cells = s.cells ∧ (setLimits s).mem = s.mem ∧
    (setLimits s).larder = s.larder ∧ (setLimits s).reg = s.reg ∧ (setLimits s).trans = s.trans ∧
    (setLimits s).attic = s.attic ∧ (setLimits s).link = s.link ∧ (setLimits s).chord = s.chord ∧
    (setLimits s).fresh = s.fresh ∧ (setLimits s).out = s.out ∧ (setLimits s).pending = s.pending := by
  unfold setLimits
  simp

@[simp] theorem logIncomplete_frame (s : State) (c : LcChange) :
    (logIncomplete s c).time = s.time ∧ (logIncomplete s c).cp = s.cp ∧ (logIncomplete s c).part = s.part ∧
    (logIncomplete s c).err = s.err ∧ (logIncomplete s c).pwr = s.pwr ∧ (logIncomplete s c).mgmt = s.mgmt ∧
    (logIncomplete s c).cells = s.cells ∧ (logIncomplete s c).mem = s.mem ∧ (logIncomplete s c).larder = s.larder ∧
    (logIncomplete s c).reg = s.reg ∧ (logIncomplete s c).trans = s.trans ∧ (logIncomplete s c).attic = s.attic ∧
    (logIncomplete s c).link = s.link ∧ (logIncomplete s c).chord = s.chord ∧ (logIncomplete s c).fresh = s.fresh ∧
    (logIncomplete s c).out = s.out ∧ (logIncomplete s c).pending = s.pending := by
  unfold logIncomplete
  simp

@[simp] theorem startFrom_frame (s : State) (inp : StartInput) :
    (startFrom s inp).reg = s.reg ∧ (startFrom s inp).trans = s.trans ∧ (startFrom s inp).pending = s.pending := by
  unfold startFrom
  simp

@[simp] theorem deviceCleared_frame (s : State) (linkStays : Bool) :
    (deviceCleared s linkStays).pending = s.pending := by
  unfold deviceCleared
  (try dsimp only)
  (repeat' (split <;> try (rename_i hp; first | (obtain ⟨rfl, rfl⟩ := Prod.ext_iff.mp hp) | (obtain ⟨rfl, hq⟩ := Prod.ext_iff.mp hp; obtain ⟨rfl, rfl⟩ := Prod.ext_iff.mp hq) | (obtain ⟨rfl, hq⟩ := Prod.ext_iff.mp hp; obtain ⟨rfl, _⟩ := Prod.ext_iff.mp hq) | (obtain ⟨_, hq⟩ := Prod.ext_iff.mp hp; obtain ⟨rfl, _⟩ := Prod.ext_iff.mp hq) | (obtain ⟨rfl, _⟩ := Prod.ext_iff.mp hp) | (obtain ⟨_, rfl⟩ := Prod.ext_iff.mp hp)))) <;> first | rfl | (simp; done) | (simp_all; done)

@[simp] theorem coldCleared_frame (s : State) :
    (coldCleared s).pending = s.pending := by
  unfold coldCleared
  (try dsimp only)
  (repeat' (split <;> try (rename_i hp; first | (obtain ⟨rfl, rfl⟩ := Prod.ext_iff.mp hp) | (obtain ⟨rfl, hq⟩ := Prod.ext_iff.mp hp; obtain ⟨rfl, rfl⟩ := Prod.ext_iff.mp hq) | (obtain ⟨rfl, hq⟩ := Prod.ext_iff.mp hp; obtain ⟨rfl, _⟩ := Prod.ext_iff.mp hq) | (obtain ⟨_, hq⟩ := Prod.ext_iff.mp hp; obtain ⟨rfl, _⟩ := Prod.ext_iff.mp hq) | (obtain ⟨rfl, _⟩ := Prod.ext_iff.mp hp) | (obtain ⟨_, rfl⟩ := Prod.ext_iff.mp hp)))) <;> first | rfl | (simp; done) | (simp_all; done)

@[simp] theorem coldStart_frame (s : State) (inp : StartInput) :
    (coldStart s inp).reg = s.reg ∧ (coldStart s inp).trans = s.trans ∧ (coldStart s inp).pending = s.pending := by
  unfold coldStart
  simp

@[simp] theorem drainQueue_frame (s : State) (q : Nat) :
    (drainQueue s q).time = s.time ∧ (drainQueue s q).part = s.part ∧ (drainQueue s q).err = s.err ∧
    (drainQueue s q).pwr = s.pwr ∧ (drainQueue s q).mgmt = s.mgmt ∧ (drainQueue s q).boot = s.boot ∧
    (drainQueue s q).cells = s.cells ∧ (drainQueue s q).mem = s.mem ∧ (drainQueue s q).larder = s.larder ∧
    (drainQueue s q).reg = s.reg ∧ (drainQueue s q).trans = s.trans ∧ (drainQueue s q).attic = s.attic ∧
    (drainQueue s q).link = s.link ∧ (drainQueue s q).chord = s.chord ∧ (drainQueue s q).fresh = s.fresh ∧
    (drainQueue s q).pending = s.pending := by
  unfold drainQueue
  simp

@[simp] theorem endContext_frame (s : State) (p : Nat) :
    (endContext s p).time = s.time ∧ (endContext s p).pwr = s.pwr ∧ (endContext s p).boot = s.boot ∧
    (endContext s p).link = s.link ∧ (endContext s p).pending = s.pending := by
  unfold endContext
  simp

@[simp] theorem endMgmtCmds_frame (s : State) :
    (endMgmtCmds s).time = s.time ∧ (endMgmtCmds s).part = s.part ∧ (endMgmtCmds s).err = s.err ∧
    (endMgmtCmds s).pwr = s.pwr ∧ (endMgmtCmds s).boot = s.boot ∧ (endMgmtCmds s).cells = s.cells ∧
    (endMgmtCmds s).mem = s.mem ∧ (endMgmtCmds s).larder = s.larder ∧ (endMgmtCmds s).reg = s.reg ∧
    (endMgmtCmds s).trans = s.trans ∧ (endMgmtCmds s).attic = s.attic ∧ (endMgmtCmds s).link = s.link ∧
    (endMgmtCmds s).chord = s.chord ∧ (endMgmtCmds s).fresh = s.fresh ∧ (endMgmtCmds s).pending = s.pending := by
  unfold endMgmtCmds
  simp

@[simp] theorem endContexts_frame (s : State) :
    (endContexts s).time = s.time ∧ (endContexts s).pwr = s.pwr ∧ (endContexts s).boot = s.boot ∧
    (endContexts s).link = s.link ∧ (endContexts s).pending = s.pending := by
  unfold endContexts
  simp

@[simp] theorem restartCp_frame (s : State) :
    (restartCp s).time = s.time ∧ (restartCp s).part = s.part ∧ (restartCp s).err = s.err ∧
    (restartCp s).pwr = s.pwr ∧ (restartCp s).mgmt = s.mgmt ∧ (restartCp s).boot = s.boot ∧
    (restartCp s).cells = s.cells ∧ (restartCp s).mem = s.mem ∧ (restartCp s).larder = s.larder ∧
    (restartCp s).reg = s.reg ∧ (restartCp s).trans = s.trans ∧ (restartCp s).attic = s.attic ∧
    (restartCp s).link = s.link ∧ (restartCp s).chord = s.chord ∧ (restartCp s).fresh = s.fresh ∧
    (restartCp s).pending = s.pending := by
  unfold restartCp
  simp

end Sys2Proof.Machine
end

