-- ==== Sys2Proof/Laws/FrameFirmware.lean ====
section
/-! SUPPORT. What each operation of Machine/Firmware.lean leaves as it was, by component of the state. -/
set_option maxRecDepth 4000
set_option exponentiation.threshold 2000
namespace Sys2Proof.Machine

@[simp] theorem beginStaging_frame (s : State) (n : Nat) (x : FwImage) :
    (beginStaging s n x).time = s.time ∧ (beginStaging s n x).cp = s.cp ∧ (beginStaging s n x).err = s.err ∧
    (beginStaging s n x).pwr = s.pwr ∧ (beginStaging s n x).mgmt = s.mgmt ∧ (beginStaging s n x).cells = s.cells ∧
    (beginStaging s n x).mem = s.mem ∧ (beginStaging s n x).larder = s.larder ∧ (beginStaging s n x).reg = s.reg ∧
    (beginStaging s n x).trans = s.trans ∧ (beginStaging s n x).attic = s.attic ∧ (beginStaging s n x).link = s.link ∧
    (beginStaging s n x).chord = s.chord ∧ (beginStaging s n x).fresh = s.fresh ∧ (beginStaging s n x).out = s.out ∧
    (beginStaging s n x).pending = s.pending := by
  unfold beginStaging
  simp

@[simp] theorem runSupplied_frame (s : State) (x : FwImage) :
    (runSupplied s x).time = s.time ∧ (runSupplied s x).reg = s.reg ∧ (runSupplied s x).trans = s.trans ∧
    (runSupplied s x).pending = s.pending := by
  unfold runSupplied
  (try dsimp only)
  (repeat' (split <;> try (rename_i hp; first | (obtain ⟨rfl, rfl⟩ := Prod.ext_iff.mp hp) | (obtain ⟨rfl, hq⟩ := Prod.ext_iff.mp hp; obtain ⟨rfl, rfl⟩ := Prod.ext_iff.mp hq) | (obtain ⟨rfl, hq⟩ := Prod.ext_iff.mp hp; obtain ⟨rfl, _⟩ := Prod.ext_iff.mp hq) | (obtain ⟨_, hq⟩ := Prod.ext_iff.mp hp; obtain ⟨rfl, _⟩ := Prod.ext_iff.mp hq) | (obtain ⟨rfl, _⟩ := Prod.ext_iff.mp hp) | (obtain ⟨_, rfl⟩ := Prod.ext_iff.mp hp)))) <;> first | rfl | (simp; done) | (simp_all; done)

@[simp] theorem beginActivate_frame (s : State) (n : Nat) :
    (beginActivate s n).time = s.time ∧ (beginActivate s n).part = s.part ∧ (beginActivate s n).err = s.err ∧
    (beginActivate s n).pwr = s.pwr ∧ (beginActivate s n).mgmt = s.mgmt ∧ (beginActivate s n).cells = s.cells ∧
    (beginActivate s n).mem = s.mem ∧ (beginActivate s n).larder = s.larder ∧ (beginActivate s n).reg = s.reg ∧
    (beginActivate s n).trans = s.trans ∧ (beginActivate s n).attic = s.attic ∧ (beginActivate s n).link = s.link ∧
    (beginActivate s n).chord = s.chord ∧ (beginActivate s n).fresh = s.fresh ∧ (beginActivate s n).out = s.out ∧
    (beginActivate s n).pending = s.pending := by
  unfold beginActivate
  simp

end Sys2Proof.Machine
end

