-- ==== Sys2Proof/Laws/FrameLc.lean ====
section
/-! SUPPORT. What each operation of Machine/Lc.lean leaves as it was, by component of the state. -/
set_option maxRecDepth 4000
set_option exponentiation.threshold 2000
namespace Sys2Proof.Machine

@[simp] theorem lcGo_frame (s : State) (sigOk : Bool) :
    (lcGo s sigOk).time = s.time ∧ (lcGo s sigOk).cp = s.cp ∧ (lcGo s sigOk).part = s.part ∧
    (lcGo s sigOk).err = s.err ∧ (lcGo s sigOk).pwr = s.pwr ∧ (lcGo s sigOk).mgmt = s.mgmt ∧
    (lcGo s sigOk).cells = s.cells ∧ (lcGo s sigOk).mem = s.mem ∧ (lcGo s sigOk).larder = s.larder ∧
    (lcGo s sigOk).reg = s.reg ∧ (lcGo s sigOk).trans = s.trans ∧ (lcGo s sigOk).attic = s.attic ∧
    (lcGo s sigOk).link = s.link ∧ (lcGo s sigOk).chord = s.chord ∧ (lcGo s sigOk).fresh = s.fresh ∧
    (lcGo s sigOk).out = s.out ∧ (lcGo s sigOk).pending = s.pending := by
  unfold lcGo
  (try dsimp only)
  (repeat' (split <;> try (rename_i hp; first | (obtain ⟨rfl, rfl⟩ := Prod.ext_iff.mp hp) | (obtain ⟨rfl, hq⟩ := Prod.ext_iff.mp hp; obtain ⟨rfl, rfl⟩ := Prod.ext_iff.mp hq) | (obtain ⟨rfl, hq⟩ := Prod.ext_iff.mp hp; obtain ⟨rfl, _⟩ := Prod.ext_iff.mp hq) | (obtain ⟨_, hq⟩ := Prod.ext_iff.mp hp; obtain ⟨rfl, _⟩ := Prod.ext_iff.mp hq) | (obtain ⟨rfl, _⟩ := Prod.ext_iff.mp hp) | (obtain ⟨_, rfl⟩ := Prod.ext_iff.mp hp)))) <;> first | rfl | (simp; done) | (simp_all; done)

@[simp] theorem lcRow_frame (s : State) (g : Nat) (sigOk : Bool) :
    (lcRow s g sigOk).time = s.time ∧ (lcRow s g sigOk).cp = s.cp ∧ (lcRow s g sigOk).part = s.part ∧
    (lcRow s g sigOk).err = s.err ∧ (lcRow s g sigOk).pwr = s.pwr ∧ (lcRow s g sigOk).mgmt = s.mgmt ∧
    (lcRow s g sigOk).cells = s.cells ∧ (lcRow s g sigOk).mem = s.mem ∧ (lcRow s g sigOk).larder = s.larder ∧
    (lcRow s g sigOk).reg = s.reg ∧ (lcRow s g sigOk).trans = s.trans ∧ (lcRow s g sigOk).attic = s.attic ∧
    (lcRow s g sigOk).link = s.link ∧ (lcRow s g sigOk).chord = s.chord ∧ (lcRow s g sigOk).fresh = s.fresh ∧
    (lcRow s g sigOk).pending = s.pending := by
  unfold lcRow
  simp

end Sys2Proof.Machine
end

