-- ==== Sys2Proof/Laws/FramePower.lean ====
section
/-! SUPPORT. What each operation of Machine/Power.lean leaves as it was, by component of the state. -/
set_option maxRecDepth 4000
set_option exponentiation.threshold 2000
namespace Sys2Proof.Machine

@[simp] theorem evacuate_frame (s : State) (c mask : Nat) :
    (evacuate s c mask).time = s.time ∧ (evacuate s c mask).cp = s.cp ∧ (evacuate s c mask).part = s.part ∧
    (evacuate s c mask).err = s.err ∧ (evacuate s c mask).pwr = s.pwr ∧ (evacuate s c mask).mgmt = s.mgmt ∧
    (evacuate s c mask).boot = s.boot ∧ (evacuate s c mask).reg = s.reg ∧ (evacuate s c mask).trans = s.trans ∧
    (evacuate s c mask).attic = s.attic ∧ (evacuate s c mask).link = s.link ∧ (evacuate s c mask).chord = s.chord ∧
    (evacuate s c mask).fresh = s.fresh ∧ (evacuate s c mask).pending = s.pending := by
  unfold evacuate
  (try dsimp only)
  (repeat' (split <;> try (rename_i hp; first | (obtain ⟨rfl, rfl⟩ := Prod.ext_iff.mp hp) | (obtain ⟨rfl, hq⟩ := Prod.ext_iff.mp hp; obtain ⟨rfl, rfl⟩ := Prod.ext_iff.mp hq) | (obtain ⟨rfl, hq⟩ := Prod.ext_iff.mp hp; obtain ⟨rfl, _⟩ := Prod.ext_iff.mp hq) | (obtain ⟨_, hq⟩ := Prod.ext_iff.mp hp; obtain ⟨rfl, _⟩ := Prod.ext_iff.mp hq) | (obtain ⟨rfl, _⟩ := Prod.ext_iff.mp hp) | (obtain ⟨_, rfl⟩ := Prod.ext_iff.mp hp)))) <;> (try simp) <;> (repeat' apply And.intro) <;> (first | apply forEach_time | apply foldl_time | apply forEachFst_time | apply foldlFst_time | apply forEach_cp | apply foldl_cp | apply forEachFst_cp | apply foldlFst_cp | apply forEach_part | apply foldl_part | apply forEachFst_part | apply foldlFst_part | apply forEach_err | apply foldl_err | apply forEachFst_err | apply foldlFst_err | apply forEach_pwr | apply foldl_pwr | apply forEachFst_pwr | apply foldlFst_pwr | apply forEach_mgmt | apply foldl_mgmt | apply forEachFst_mgmt | apply foldlFst_mgmt | apply forEach_boot | apply foldl_boot | apply forEachFst_boot | apply foldlFst_boot | apply forEach_reg | apply foldl_reg | apply forEachFst_reg | apply foldlFst_reg | apply forEach_trans | apply foldl_trans | apply forEachFst_trans | apply foldlFst_trans | apply forEach_attic | apply foldl_attic | apply forEachFst_attic | apply foldlFst_attic | apply forEach_link | apply foldl_link | apply forEachFst_link | apply foldlFst_link | apply forEach_chord | apply foldl_chord | apply forEachFst_chord | apply foldlFst_chord | apply forEach_fresh | apply foldl_fresh | apply forEachFst_fresh | apply foldlFst_fresh | apply forEach_pending | apply foldl_pending | apply forEachFst_pending | apply foldlFst_pending) <;> intro _ _ <;> (try dsimp only) <;> (repeat' (split <;> try (rename_i hp; first | (obtain ⟨rfl, rfl⟩ := Prod.ext_iff.mp hp) | (obtain ⟨rfl, hq⟩ := Prod.ext_iff.mp hp; obtain ⟨rfl, rfl⟩ := Prod.ext_iff.mp hq) | (obtain ⟨rfl, hq⟩ := Prod.ext_iff.mp hp; obtain ⟨rfl, _⟩ := Prod.ext_iff.mp hq) | (obtain ⟨_, hq⟩ := Prod.ext_iff.mp hp; obtain ⟨rfl, _⟩ := Prod.ext_iff.mp hq) | (obtain ⟨rfl, _⟩ := Prod.ext_iff.mp hp) | (obtain ⟨_, rfl⟩ := Prod.ext_iff.mp hp)))) <;> first | rfl | (simp; done) | (simp_all; done)

@[simp] theorem recallSite_frame (s : State) (t : Nat) :
    (recallSite s t).1.time = s.time ∧ (recallSite s t).1.cp = s.cp ∧ (recallSite s t).1.part = s.part ∧
    (recallSite s t).1.err = s.err ∧ (recallSite s t).1.pwr = s.pwr ∧ (recallSite s t).1.mgmt = s.mgmt ∧
    (recallSite s t).1.boot = s.boot ∧ (recallSite s t).1.cells = s.cells ∧ (recallSite s t).1.mem = s.mem ∧
    (recallSite s t).1.larder = s.larder ∧ (recallSite s t).1.reg = s.reg ∧ (recallSite s t).1.trans = s.trans ∧
    (recallSite s t).1.link = s.link ∧ (recallSite s t).1.chord = s.chord ∧ (recallSite s t).1.fresh = s.fresh ∧
    (recallSite s t).1.pending = s.pending := by
  unfold recallSite
  simp

@[simp] theorem entryReady_frame (s : State) (d : Nat) (x : Domain) :
    (entryReady s d x).1.time = s.time ∧ (entryReady s d x).1.cp = s.cp ∧ (entryReady s d x).1.part = s.part ∧
    (entryReady s d x).1.err = s.err ∧ (entryReady s d x).1.pwr = s.pwr ∧ (entryReady s d x).1.mgmt = s.mgmt ∧
    (entryReady s d x).1.boot = s.boot ∧ (entryReady s d x).1.reg = s.reg ∧ (entryReady s d x).1.trans = s.trans ∧
    (entryReady s d x).1.link = s.link ∧ (entryReady s d x).1.chord = s.chord ∧ (entryReady s d x).1.fresh = s.fresh ∧
    (entryReady s d x).1.pending = s.pending := by
  unfold entryReady
  simp

@[simp] theorem cellarSleeps_frame (s : State) (c : Nat) (x : Domain) :
    (cellarSleeps s c x).time = s.time ∧ (cellarSleeps s c x).err = s.err ∧ (cellarSleeps s c x).pwr = s.pwr ∧
    (cellarSleeps s c x).mgmt = s.mgmt ∧ (cellarSleeps s c x).boot = s.boot ∧ (cellarSleeps s c x).reg = s.reg ∧
    (cellarSleeps s c x).link = s.link ∧ (cellarSleeps s c x).pending = s.pending := by
  unfold cellarSleeps
  simp

@[simp] theorem unitSleeps_frame (s : State) (d : Nat) (x : Domain) :
    (unitSleeps s d x).pwr = s.pwr ∧ (unitSleeps s d x).reg = s.reg ∧ (unitSleeps s d x).pending = s.pending := by
  unfold unitSleeps
  simp

@[simp] theorem startTransition_frame (s : State) (d : Nat) (r : DomainRequest) :
    (startTransition s d r).time = s.time ∧ (startTransition s d r).cp = s.cp ∧
    (startTransition s d r).part = s.part ∧ (startTransition s d r).err = s.err ∧
    (startTransition s d r).mgmt = s.mgmt ∧ (startTransition s d r).boot = s.boot ∧
    (startTransition s d r).reg = s.reg ∧ (startTransition s d r).trans = s.trans ∧
    (startTransition s d r).attic = s.attic ∧ (startTransition s d r).chord = s.chord ∧
    (startTransition s d r).fresh = s.fresh ∧ (startTransition s d r).pending = s.pending := by
  unfold startTransition
  simp

@[simp] theorem settleSets_frame (s : State) :
    (settleSets s).time = s.time ∧ (settleSets s).part = s.part ∧ (settleSets s).err = s.err ∧
    (settleSets s).boot = s.boot ∧ (settleSets s).cells = s.cells ∧ (settleSets s).mem = s.mem ∧
    (settleSets s).larder = s.larder ∧ (settleSets s).reg = s.reg ∧ (settleSets s).trans = s.trans ∧
    (settleSets s).attic = s.attic ∧ (settleSets s).link = s.link ∧ (settleSets s).chord = s.chord ∧
    (settleSets s).fresh = s.fresh ∧ (settleSets s).pending = s.pending := by
  unfold settleSets
  simp

@[simp] theorem tellSets_frame (s : State) (d : Nat) (failed : Bool) :
    (tellSets s d failed).time = s.time ∧ (tellSets s d failed).part = s.part ∧ (tellSets s d failed).err = s.err ∧
    (tellSets s d failed).boot = s.boot ∧ (tellSets s d failed).cells = s.cells ∧ (tellSets s d failed).mem = s.mem ∧
    (tellSets s d failed).larder = s.larder ∧ (tellSets s d failed).reg = s.reg ∧
    (tellSets s d failed).trans = s.trans ∧ (tellSets s d failed).attic = s.attic ∧
    (tellSets s d failed).link = s.link ∧ (tellSets s d failed).chord = s.chord ∧
    (tellSets s d failed).fresh = s.fresh ∧ (tellSets s d failed).pending = s.pending := by
  unfold tellSets
  (try dsimp only)
  (repeat' (split <;> try (rename_i hp; first | (obtain ⟨rfl, rfl⟩ := Prod.ext_iff.mp hp) | (obtain ⟨rfl, hq⟩ := Prod.ext_iff.mp hp; obtain ⟨rfl, rfl⟩ := Prod.ext_iff.mp hq) | (obtain ⟨rfl, hq⟩ := Prod.ext_iff.mp hp; obtain ⟨rfl, _⟩ := Prod.ext_iff.mp hq) | (obtain ⟨_, hq⟩ := Prod.ext_iff.mp hp; obtain ⟨rfl, _⟩ := Prod.ext_iff.mp hq) | (obtain ⟨rfl, _⟩ := Prod.ext_iff.mp hp) | (obtain ⟨_, rfl⟩ := Prod.ext_iff.mp hp)))) <;> first | rfl | (simp; done) | (simp_all; done)

@[simp] theorem nextCause_frame (s : State) (d : Nat) :
    (nextCause s d).time = s.time ∧ (nextCause s d).part = s.part ∧ (nextCause s d).err = s.err ∧
    (nextCause s d).boot = s.boot ∧ (nextCause s d).reg = s.reg ∧ (nextCause s d).trans = s.trans ∧
    (nextCause s d).attic = s.attic ∧ (nextCause s d).chord = s.chord ∧ (nextCause s d).fresh = s.fresh ∧
    (nextCause s d).pending = s.pending := by
  unfold nextCause
  (try dsimp only)
  (repeat' (split <;> try (rename_i hp; first | (obtain ⟨rfl, rfl⟩ := Prod.ext_iff.mp hp) | (obtain ⟨rfl, hq⟩ := Prod.ext_iff.mp hp; obtain ⟨rfl, rfl⟩ := Prod.ext_iff.mp hq) | (obtain ⟨rfl, hq⟩ := Prod.ext_iff.mp hp; obtain ⟨rfl, _⟩ := Prod.ext_iff.mp hq) | (obtain ⟨_, hq⟩ := Prod.ext_iff.mp hp; obtain ⟨rfl, _⟩ := Prod.ext_iff.mp hq) | (obtain ⟨rfl, _⟩ := Prod.ext_iff.mp hp) | (obtain ⟨_, rfl⟩ := Prod.ext_iff.mp hp)))) <;> first | rfl | (simp; done) | (simp_all; done)

@[simp] theorem askDomain_frame (s : State) (n : Nat) (e : DomainEntry) :
    (askDomain s n e).time = s.time ∧ (askDomain s n e).cp = s.cp ∧ (askDomain s n e).part = s.part ∧
    (askDomain s n e).err = s.err ∧ (askDomain s n e).mgmt = s.mgmt ∧ (askDomain s n e).boot = s.boot ∧
    (askDomain s n e).reg = s.reg ∧ (askDomain s n e).trans = s.trans ∧ (askDomain s n e).attic = s.attic ∧
    (askDomain s n e).chord = s.chord ∧ (askDomain s n e).fresh = s.fresh ∧
    (askDomain s n e).pending = s.pending := by
  unfold askDomain
  simp

@[simp] theorem arrive_frame (s : State) (d : Nat) (p : PowerState) :
    (arrive s d p).time = s.time ∧ (arrive s d p).cp = s.cp ∧ (arrive s d p).part = s.part ∧
    (arrive s d p).err = s.err ∧ (arrive s d p).mgmt = s.mgmt ∧ (arrive s d p).boot = s.boot ∧
    (arrive s d p).cells = s.cells ∧ (arrive s d p).mem = s.mem ∧ (arrive s d p).larder = s.larder ∧
    (arrive s d p).reg = s.reg ∧ (arrive s d p).trans = s.trans ∧ (arrive s d p).attic = s.attic ∧
    (arrive s d p).link = s.link ∧ (arrive s d p).chord = s.chord ∧ (arrive s d p).fresh = s.fresh ∧
    (arrive s d p).out = s.out ∧ (arrive s d p).pending = s.pending := by
  unfold arrive
  simp

@[simp] theorem comparatorEvent_frame (s : State) (k : Nat) :
    (comparatorEvent s k).time = s.time ∧ (comparatorEvent s k).cp = s.cp ∧ (comparatorEvent s k).part = s.part ∧
    (comparatorEvent s k).err = s.err ∧ (comparatorEvent s k).boot = s.boot ∧ (comparatorEvent s k).cells = s.cells ∧
    (comparatorEvent s k).mem = s.mem ∧ (comparatorEvent s k).larder = s.larder ∧ (comparatorEvent s k).reg = s.reg ∧
    (comparatorEvent s k).trans = s.trans ∧ (comparatorEvent s k).attic = s.attic ∧
    (comparatorEvent s k).link = s.link ∧ (comparatorEvent s k).chord = s.chord ∧
    (comparatorEvent s k).fresh = s.fresh ∧ (comparatorEvent s k).pending = s.pending := by
  unfold comparatorEvent
  simp

@[simp] theorem replayWakes_frame (s : State) :
    (replayWakes s).time = s.time ∧ (replayWakes s).cp = s.cp ∧ (replayWakes s).part = s.part ∧
    (replayWakes s).err = s.err ∧ (replayWakes s).boot = s.boot ∧ (replayWakes s).cells = s.cells ∧
    (replayWakes s).mem = s.mem ∧ (replayWakes s).larder = s.larder ∧ (replayWakes s).reg = s.reg ∧
    (replayWakes s).trans = s.trans ∧ (replayWakes s).attic = s.attic ∧ (replayWakes s).link = s.link ∧
    (replayWakes s).chord = s.chord ∧ (replayWakes s).fresh = s.fresh ∧ (replayWakes s).pending = s.pending := by
  unfold replayWakes
  simp

@[simp] theorem unitWakes_frame (s : State) (d : Nat) (from_ : PowerState) (ok : Bool) :
    (unitWakes s d from_ ok).time = s.time ∧ (unitWakes s d from_ ok).reg = s.reg ∧
    (unitWakes s d from_ ok).trans = s.trans ∧ (unitWakes s d from_ ok).chord = s.chord ∧
    (unitWakes s d from_ ok).fresh = s.fresh ∧ (unitWakes s d from_ ok).pending = s.pending := by
  unfold unitWakes
  simp

@[simp] theorem setSensor_frame (s : State) (id value : Nat) :
    (setSensor s id value).time = s.time ∧ (setSensor s id value).cp = s.cp ∧ (setSensor s id value).part = s.part ∧
    (setSensor s id value).err = s.err ∧ (setSensor s id value).mgmt = s.mgmt ∧ (setSensor s id value).boot = s.boot ∧
    (setSensor s id value).cells = s.cells ∧ (setSensor s id value).mem = s.mem ∧
    (setSensor s id value).larder = s.larder ∧ (setSensor s id value).reg = s.reg ∧
    (setSensor s id value).trans = s.trans ∧ (setSensor s id value).attic = s.attic ∧
    (setSensor s id value).link = s.link ∧ (setSensor s id value).chord = s.chord ∧
    (setSensor s id value).fresh = s.fresh ∧ (setSensor s id value).out = s.out ∧
    (setSensor s id value).pending = s.pending := by
  unfold setSensor
  simp

end Sys2Proof.Machine
end

