-- ==== Sys2Proof/Laws/FrameRegs.lean ====
section
/-! SUPPORT. What each operation of Machine/Regs.lean leaves as it was, by component of the state. -/
set_option maxRecDepth 4000
set_option exponentiation.threshold 2000
namespace Sys2Proof.Machine

@[simp] theorem comparatorSet_frame (s : State) (k : Nat) (f : Comparator → Comparator) :
    (comparatorSet s k f).time = s.time ∧ (comparatorSet s k f).cp = s.cp ∧ (comparatorSet s k f).part = s.part ∧
    (comparatorSet s k f).err = s.err ∧ (comparatorSet s k f).mgmt = s.mgmt ∧ (comparatorSet s k f).boot = s.boot ∧
    (comparatorSet s k f).cells = s.cells ∧ (comparatorSet s k f).mem = s.mem ∧
    (comparatorSet s k f).larder = s.larder ∧ (comparatorSet s k f).reg = s.reg ∧
    (comparatorSet s k f).trans = s.trans ∧ (comparatorSet s k f).attic = s.attic ∧
    (comparatorSet s k f).link = s.link ∧ (comparatorSet s k f).chord = s.chord ∧
    (comparatorSet s k f).fresh = s.fresh ∧ (comparatorSet s k f).out = s.out ∧
    (comparatorSet s k f).pending = s.pending := by
  unfold comparatorSet
  simp

@[simp] theorem repairWrite_frame (s : State) (shelf value : Nat) :
    (repairWrite s shelf value).time = s.time ∧ (repairWrite s shelf value).cp = s.cp ∧
    (repairWrite s shelf value).part = s.part ∧ (repairWrite s shelf value).err = s.err ∧
    (repairWrite s shelf value).pwr = s.pwr ∧ (repairWrite s shelf value).mgmt = s.mgmt ∧
    (repairWrite s shelf value).cells = s.cells ∧ (repairWrite s shelf value).larder = s.larder ∧
    (repairWrite s shelf value).reg = s.reg ∧ (repairWrite s shelf value).trans = s.trans ∧
    (repairWrite s shelf value).attic = s.attic ∧ (repairWrite s shelf value).link = s.link ∧
    (repairWrite s shelf value).chord = s.chord ∧ (repairWrite s shelf value).out = s.out ∧
    (repairWrite s shelf value).pending = s.pending := by
  unfold repairWrite
  simp

@[simp] theorem mgmtWrite_frame (s : State) (o n value : Nat) :
    (mgmtWrite s o n value).time = s.time ∧ (mgmtWrite s o n value).cp = s.cp ∧
    (mgmtWrite s o n value).part = s.part ∧ (mgmtWrite s o n value).err = s.err ∧
    (mgmtWrite s o n value).mgmt = s.mgmt ∧ (mgmtWrite s o n value).cells = s.cells ∧
    (mgmtWrite s o n value).larder = s.larder ∧ (mgmtWrite s o n value).reg = s.reg ∧
    (mgmtWrite s o n value).trans = s.trans ∧ (mgmtWrite s o n value).attic = s.attic ∧
    (mgmtWrite s o n value).link = s.link ∧ (mgmtWrite s o n value).chord = s.chord ∧
    (mgmtWrite s o n value).out = s.out ∧ (mgmtWrite s o n value).pending = s.pending := by
  unfold mgmtWrite
  (try dsimp only)
  (repeat' (split <;> try (rename_i hp; first | (obtain ⟨rfl, rfl⟩ := Prod.ext_iff.mp hp) | (obtain ⟨rfl, hq⟩ := Prod.ext_iff.mp hp; obtain ⟨rfl, rfl⟩ := Prod.ext_iff.mp hq) | (obtain ⟨rfl, hq⟩ := Prod.ext_iff.mp hp; obtain ⟨rfl, _⟩ := Prod.ext_iff.mp hq) | (obtain ⟨_, hq⟩ := Prod.ext_iff.mp hp; obtain ⟨rfl, _⟩ := Prod.ext_iff.mp hq) | (obtain ⟨rfl, _⟩ := Prod.ext_iff.mp hp) | (obtain ⟨_, rfl⟩ := Prod.ext_iff.mp hp)))) <;> first | rfl | (simp; done) | (simp_all; done)

@[simp] theorem bar2Write_frame (s : State) (a : Nat) (b : Bytes) (poison : Bool) :
    (bar2Write s a b poison).time = s.time ∧ (bar2Write s a b poison).cp = s.cp ∧
    (bar2Write s a b poison).part = s.part ∧ (bar2Write s a b poison).err = s.err ∧
    (bar2Write s a b poison).pwr = s.pwr ∧ (bar2Write s a b poison).mgmt = s.mgmt ∧
    (bar2Write s a b poison).larder = s.larder ∧ (bar2Write s a b poison).reg = s.reg ∧
    (bar2Write s a b poison).trans = s.trans ∧ (bar2Write s a b poison).attic = s.attic ∧
    (bar2Write s a b poison).link = s.link ∧ (bar2Write s a b poison).chord = s.chord ∧
    (bar2Write s a b poison).fresh = s.fresh ∧ (bar2Write s a b poison).out = s.out ∧
    (bar2Write s a b poison).pending = s.pending := by
  unfold bar2Write
  simp

@[simp] theorem bar2Read_frame (s : State) (bus a n : Nat) :
    (bar2Read s bus a n).time = s.time ∧ (bar2Read s bus a n).cp = s.cp ∧ (bar2Read s bus a n).part = s.part ∧
    (bar2Read s bus a n).err = s.err ∧ (bar2Read s bus a n).pwr = s.pwr ∧ (bar2Read s bus a n).mgmt = s.mgmt ∧
    (bar2Read s bus a n).boot = s.boot ∧ (bar2Read s bus a n).larder = s.larder ∧ (bar2Read s bus a n).reg = s.reg ∧
    (bar2Read s bus a n).trans = s.trans ∧ (bar2Read s bus a n).attic = s.attic ∧ (bar2Read s bus a n).link = s.link ∧
    (bar2Read s bus a n).chord = s.chord ∧ (bar2Read s bus a n).fresh = s.fresh ∧ (bar2Read s bus a n).out = s.out ∧
    (bar2Read s bus a n).pending = s.pending := by
  unfold bar2Read
  simp

@[simp] theorem sendPending_frame (s : State) :
    (sendPending s).time = s.time ∧ (sendPending s).part = s.part ∧ (sendPending s).err = s.err ∧
    (sendPending s).pwr = s.pwr ∧ (sendPending s).mgmt = s.mgmt ∧ (sendPending s).boot = s.boot ∧
    (sendPending s).cells = s.cells ∧ (sendPending s).mem = s.mem ∧ (sendPending s).larder = s.larder ∧
    (sendPending s).reg = s.reg ∧ (sendPending s).trans = s.trans ∧ (sendPending s).attic = s.attic ∧
    (sendPending s).link = s.link ∧ (sendPending s).chord = s.chord ∧ (sendPending s).fresh = s.fresh ∧
    (sendPending s).pending = s.pending := by
  unfold sendPending
  simp

end Sys2Proof.Machine
end

