-- ==== Sys2Proof/Laws/State.lean ====
section
/-! SUPPORT. What each named update of the state does to what its accessor reads, and the fields of the plain updates. -/
namespace Sys2Proof.Machine

@[simp] theorem chanOf_modChan_self (s : State) (c : Nat) (f : Mailbox → Mailbox) :
    chanOf (modChan s c f) c = f (chanOf s c) := by simp [chanOf, modChan]

@[simp] theorem chanOf_modChan_other (s : State) (c j : Nat) (f : Mailbox → Mailbox) (h : j ≠ c) :
    chanOf (modChan s c f) j = chanOf s j := by simp [chanOf, modChan, h]

@[simp] theorem partOf_modPart_self (s : State) (p : Nat) (f : Partition → Partition) :
    partOf (modPart s p f) p = f (partOf s p) := by simp [partOf, modPart]

@[simp] theorem partOf_modPart_other (s : State) (p j : Nat) (f : Partition → Partition) (h : j ≠ p) :
    partOf (modPart s p f) j = partOf s j := by simp [partOf, modPart, h]

@[simp] theorem eqOf_modEq_self (s : State) (q : Nat) (f : EventQueue → EventQueue) :
    eqOf (modEq s q f) q = f (eqOf s q) := by simp [eqOf, modEq]

@[simp] theorem eqOf_modEq_other (s : State) (q j : Nat) (f : EventQueue → EventQueue) (h : j ≠ q) :
    eqOf (modEq s q f) j = eqOf s j := by simp [eqOf, modEq, h]

@[simp] theorem domainOf_modDomain_self (s : State) (d : Nat) (f : Domain → Domain) :
    domainOf (modDomain s d f) d = f (domainOf s d) := by simp [domainOf, modDomain]

@[simp] theorem domainOf_modDomain_other (s : State) (d j : Nat) (f : Domain → Domain) (h : j ≠ d) :
    domainOf (modDomain s d f) j = domainOf s j := by simp [domainOf, modDomain, h]

@[simp] theorem coreOf_modCore_self (s : State) (k : Nat) (f : Core → Core) :
    coreOf (modCore s k f) k = f (coreOf s k) := by simp [coreOf, modCore]

@[simp] theorem coreOf_modCore_other (s : State) (k j : Nat) (f : Core → Core) (h : j ≠ k) :
    coreOf (modCore s k f) j = coreOf s j := by simp [coreOf, modCore, h]

@[simp] theorem cellarOf_modCellar_self (s : State) (c : Nat) (f : Cellar → Cellar) :
    cellarOf (modCellar s c f) c = f (cellarOf s c) := by simp [cellarOf, modCellar]

@[simp] theorem cellarOf_modCellar_other (s : State) (c j : Nat) (f : Cellar → Cellar) (h : j ≠ c) :
    cellarOf (modCellar s c f) j = cellarOf s j := by simp [cellarOf, modCellar, h]

@[simp] theorem shelfOf_modShelf_self (s : State) (n : Nat) (f : Shelf → Shelf) :
    shelfOf (modShelf s n f) n = f (shelfOf s n) := by simp [shelfOf, modShelf]

@[simp] theorem shelfOf_modShelf_other (s : State) (n j : Nat) (f : Shelf → Shelf) (h : j ≠ n) :
    shelfOf (modShelf s n f) j = shelfOf s j := by simp [shelfOf, modShelf, h]

@[simp] theorem farOf_modFar_self (s : State) (p : Nat) (f : FarPort → FarPort) :
    farOf (modFar s p f) p = f (farOf s p) := by simp [farOf, modFar]

@[simp] theorem farOf_modFar_other (s : State) (p j : Nat) (f : FarPort → FarPort) (h : j ≠ p) :
    farOf (modFar s p f) j = farOf s j := by simp [farOf, modFar, h]

@[simp] theorem siteOf_modSite_self (s : State) (n : Nat) (f : Site → Site) :
    siteOf (modSite s n f) n = f (siteOf s n) := by simp [siteOf, modSite]

@[simp] theorem siteOf_modSite_other (s : State) (n j : Nat) (f : Site → Site) (h : j ≠ n) :
    siteOf (modSite s n f) j = siteOf s j := by simp [siteOf, modSite, h]

@[simp] theorem engineOf_modEngine_self (s : State) (e : Nat) (f : Engine → Engine) :
    engineOf (modEngine s e f) e = f (engineOf s e) := by simp [engineOf, modEngine]

@[simp] theorem engineOf_modEngine_other (s : State) (e j : Nat) (f : Engine → Engine) (h : j ≠ e) :
    engineOf (modEngine s e f) j = engineOf s j := by simp [engineOf, modEngine, h]

@[simp] theorem llOf_modLl_self (s : State) (e : Nat) (f : LinkLayer → LinkLayer) :
    llOf (modLl s e f) e = f (llOf s e) := by simp [llOf, modLl]

@[simp] theorem llOf_modLl_other (s : State) (e j : Nat) (f : LinkLayer → LinkLayer) (h : j ≠ e) :
    llOf (modLl s e f) j = llOf s j := by simp [llOf, modLl, h]

@[simp] theorem pegOf_modPeg_self (s : State) (id : Nat) (f : Peg → Peg) :
    pegOf (modPeg s id f) id = f (pegOf s id) := by simp [pegOf, modPeg]

@[simp] theorem pegOf_modPeg_other (s : State) (id j : Nat) (f : Peg → Peg) (h : j ≠ id) :
    pegOf (modPeg s id f) j = pegOf s j := by simp [pegOf, modPeg, h]

@[simp] theorem atticPowerOf_modAtticPower_self (s : State) (t : Nat) (f : AtticPower → AtticPower) :
    atticPowerOf (modAtticPower s t f) t = f (atticPowerOf s t) := by simp [atticPowerOf, modAtticPower]

@[simp] theorem atticPowerOf_modAtticPower_other (s : State) (t j : Nat) (f : AtticPower → AtticPower) (h : j ≠ t) :
    atticPowerOf (modAtticPower s t f) j = atticPowerOf s j := by simp [atticPowerOf, modAtticPower, h]

@[simp] theorem masterOf_modMaster_self (s : State) (m : Nat) (f : Master → Master) :
    masterOf (modMaster s m f) m = f (masterOf s m) := by simp [masterOf, modMaster]

@[simp] theorem masterOf_modMaster_other (s : State) (m j : Nat) (f : Master → Master) (h : j ≠ m) :
    masterOf (modMaster s m f) j = masterOf s j := by simp [masterOf, modMaster, h]

@[simp] theorem comparatorOf_modComparator_self (s : State) (k : Nat) (f : Comparator → Comparator) :
    comparatorOf (modComparator s k f) k = f (comparatorOf s k) := by simp [comparatorOf, modComparator]

@[simp] theorem comparatorOf_modComparator_other (s : State) (k j : Nat) (f : Comparator → Comparator) (h : j ≠ k) :
    comparatorOf (modComparator s k f) j = comparatorOf s j := by simp [comparatorOf, modComparator, h]

@[simp] theorem tableOf_modTable_self (s : State) (a : Nat) (f : RouteTable → RouteTable) :
    tableOf (modTable s a f) a = f (tableOf s a) := by simp [tableOf, modTable]

@[simp] theorem tableOf_modTable_other (s : State) (a j : Nat) (f : RouteTable → RouteTable) (h : j ≠ a) :
    tableOf (modTable s a f) j = tableOf s j := by simp [tableOf, modTable, h]

@[simp] theorem convOf_modConv_self (s : State) (t : Nat) (f : SpdmConv → SpdmConv) :
    convOf (modConv s t f) t = f (convOf s t) := by simp [convOf, modConv]

@[simp] theorem convOf_modConv_other (s : State) (t j : Nat) (f : SpdmConv → SpdmConv) (h : j ≠ t) :
    convOf (modConv s t f) j = convOf s j := by simp [convOf, modConv, h]

@[simp] theorem scrubOf_modScrub_self (s : State) (k : Nat) (f : ScrubStatus → ScrubStatus) :
    scrubOf (modScrub s k f) k = f (scrubOf s k) := by simp [scrubOf, modScrub]

@[simp] theorem scrubOf_modScrub_other (s : State) (k j : Nat) (f : ScrubStatus → ScrubStatus) (h : j ≠ k) :
    scrubOf (modScrub s k f) j = scrubOf s j := by simp [scrubOf, modScrub, h]

@[simp] theorem peerOf_modPeer_self (s : State) (k : Nat) (f : Peer → Peer) (h : (tfind s.chord.peers k).isSome) :
    peerOf (modPeer s k f) k = f (peerOf s k) := by
  obtain ⟨v, hv⟩ := Option.isSome_iff_exists.mp h
  simp [peerOf, modPeer, tget, hv]

@[simp] theorem peerOf_modPeer_other (s : State) (k j : Nat) (f : Peer → Peer) (h : j ≠ k) :
    peerOf (modPeer s k f) j = peerOf s j := by simp [peerOf, modPeer, tget, h]

@[simp] theorem seqOf_modSeq_self (s : State) (k : Nat) (f : Sequence → Sequence) (h : (tfind s.larder.seqs k).isSome) :
    seqOf (modSeq s k f) k = f (seqOf s k) := by
  obtain ⟨v, hv⟩ := Option.isSome_iff_exists.mp h
  simp [seqOf, modSeq, tget, hv]

@[simp] theorem seqOf_modSeq_other (s : State) (k j : Nat) (f : Sequence → Sequence) (h : j ≠ k) :
    seqOf (modSeq s k f) j = seqOf s j := by simp [seqOf, modSeq, tget, h]

@[simp] theorem pageOf_modPage_self (s : State) (k : Nat) (f : Page → Page) :
    pageOf (modPage s k f) k = (pageOf s k).map f := by simp [pageOf, modPage]

@[simp] theorem pageOf_modPage_other (s : State) (k j : Nat) (f : Page → Page) (h : j ≠ k) :
    pageOf (modPage s k f) j = pageOf s j := by simp [pageOf, modPage, h]

@[simp] theorem txnOf_modTxn_self (s : State) (k : Nat) (f : Txn → Txn) :
    txnOf (modTxn s k f) k = (txnOf s k).map f := by simp [txnOf, modTxn]

@[simp] theorem txnOf_modTxn_other (s : State) (k j : Nat) (f : Txn → Txn) (h : j ≠ k) :
    txnOf (modTxn s k f) j = txnOf s j := by simp [txnOf, modTxn, h]

@[simp] theorem stepOf_modStep_self (s : State) (k : Nat) (f : Step → Step) :
    stepOf (modStep s k f) k = (stepOf s k).map f := by simp [stepOf, modStep]

@[simp] theorem stepOf_modStep_other (s : State) (k j : Nat) (f : Step → Step) (h : j ≠ k) :
    stepOf (modStep s k f) j = stepOf s j := by simp [stepOf, modStep, h]

@[simp] theorem collOf_modColl_self (s : State) (k : Nat) (f : Collective → Collective) :
    collOf (modColl s k f) k = (collOf s k).map f := by simp [collOf, modColl]

@[simp] theorem collOf_modColl_other (s : State) (k j : Nat) (f : Collective → Collective) (h : j ≠ k) :
    collOf (modColl s k f) j = collOf s j := by simp [collOf, modColl, h]

@[simp] theorem emit_out (s : State) (o : Out) : (emit s o).out = o :: s.out := rfl

@[simp] theorem takeFresh_fresh (s : State) : (takeFresh s).2.fresh = s.fresh + 1 := rfl

@[simp] theorem takeFresh_fst (s : State) : (takeFresh s).1 = s.fresh := rfl

end Sys2Proof.Machine
end

