-- ==== Sys2Proof/Laws/Ops.lean ====
section
/-! SUPPORT. What the operations shared by every command do: the end of a command, its acceptance and its final record. -/
namespace Sys2Proof.Machine

@[simp] theorem deliver_chans (s : State) (q : Nat) (r : Record) : (deliver s q r).cp.chans = s.cp.chans := by
  unfold deliver modEq countUnqueued
  split
  · rfl
  · split
    · rfl
    · split <;> rfl

@[simp] theorem chanOf_deliver (s : State) (q c : Nat) (r : Record) : chanOf (deliver s q r) c = chanOf s c := by
  simp [chanOf]

@[simp] theorem chanOf_emit (s : State) (c : Nat) (o : Out) : chanOf (emit s o) c = chanOf s c := rfl

@[simp] theorem deliver_out (s : State) (q : Nat) (r : Record) : (deliver s q r).out = s.out := by
  unfold deliver modEq countUnqueued
  split
  · rfl
  · split
    · rfl
    · split <;> rfl

@[simp] theorem deliver_asyncs (s : State) (q : Nat) (r : Record) : (deliver s q r).cp.asyncs = s.cp.asyncs := by
  unfold deliver modEq countUnqueued
  split
  · rfl
  · split
    · rfl
    · split <;> rfl

/-- A command whose DONE follows its commit at once, and one that fails, are DONE as they end. -/
theorem complete_finish (s : State) (c : Nat) (code : Status) (seq result : Nat) (resp : Bytes)
    (h : ((chanOf s c).taken.getD {}).lateDone = false ∨ seq = 0) :
    complete s c code seq result resp = finishCmd s c code seq result resp := by
  unfold complete
  rw [if_neg]
  rcases h with h | h <;> simp [h]

/-- Ending a command answers it. -/
theorem finish_answers (s u : State) (c : Nat) (t : Taken) (code : Status) (seq result : Nat) (resp : Bytes)
    (ht : (chanOf u c).taken = some t) (hs : u.mgmt.session = s.mgmt.session) (ho : ∃ mid, u.out = mid ++ s.out) :
    answers s (finishCmd u c code seq result resp) c t code seq result := by
  refine ⟨completionOf u c t code seq result, rfl, rfl, rfl, rfl, rfl, ?_⟩
  unfold finishCmd
  simp only [ht, Option.getD_some]
  by_cases hm : isMgmt c
  · simp only [hm, if_true]
    constructor
    · by_cases h : (modChan u c (fun _ => {})).mgmt.session = true
      · simp only [h, if_true, chanOf_emit, chanOf_modChan_self]
      · simp only [h, Bool.false_eq_true, if_false, chanOf_modChan_self]
    · intro h
      rw [if_pos (by simp [modChan, hs, h])]
      exact ⟨resp, [], u.out, rfl, ho⟩
  · simp only [hm]
    simp only [Bool.false_eq_true, if_false]
    by_cases h : t.hdr.eqCopy ∧ eqActive (modChan u c (fun m => { m with
      state := .done, abortRequested := false, window := some (completionOf u c t code seq result), taken := none
      resp := if t.hdr.respByRef then m.resp else (resp.zipIdx.map (fun p => (p.2, p.1))) })) t.hdr.eqId t.ctx
    · rw [if_pos h, chanOf_deliver, chanOf_modChan_self]; exact ⟨rfl, rfl, rfl⟩
    · rw [if_neg h, chanOf_modChan_self]; exact ⟨rfl, rfl, rfl⟩

/-- A command whose DONE follows its commit at once is answered as it ends; so is one that fails. -/
theorem complete_answers (s u : State) (c : Nat) (t : Taken) (code : Status) (seq result : Nat) (resp : Bytes)
    (ht : (chanOf u c).taken = some t) (hl : t.lateDone = false ∨ seq = 0)
    (hs : u.mgmt.session = s.mgmt.session) (ho : ∃ mid, u.out = mid ++ s.out) :
    answers s (complete u c code seq result resp) c t code seq result := by
  rw [complete_finish _ _ _ _ _ _ (by rw [ht]; exact hl)]
  exact finish_answers s u c t code seq result resp ht hs ho

theorem finish_chan (s : State) (c k : Nat) (code : Status) (seq result : Nat) (resp : Bytes) :
    ∃ f, chanOf (finishCmd s c code seq result resp) k = chanOf (modChan s c f) k ∧
      (finishCmd s c code seq result resp).cp.asyncs = s.cp.asyncs := by
  unfold finishCmd
  by_cases hm : isMgmt c
  · refine ⟨fun _ => {}, ?_⟩
    simp only [hm, if_true]
    by_cases hs : (modChan s c (fun _ => {})).mgmt.session = true
    · simp only [hs, if_true]; exact ⟨rfl, rfl⟩
    · simp only [hs]; exact ⟨rfl, rfl⟩
  · simp only [hm, Bool.false_eq_true, if_false]
    split_ifs
    all_goals
      try rw [chanOf_deliver, deliver_asyncs]
      exact ⟨_, rfl, rfl⟩

theorem complete_chan (s : State) (c k : Nat) (code : Status) (seq result : Nat) (resp : Bytes) :
    ∃ f, chanOf (complete s c code seq result resp) k = chanOf (modChan s c f) k ∧
      (complete s c code seq result resp).cp.asyncs = s.cp.asyncs := by
  unfold complete
  dsimp only
  split
  · exact ⟨_, rfl, rfl⟩
  · exact finish_chan s c k code seq result resp

/-- What the mailbox of a command that has ended holds. -/
theorem complete_mailbox (s : State) (c : Nat) (code : Status) (seq result : Nat) (resp : Bytes) (hm : isMgmt c = false)
    (hl : ((chanOf s c).taken.getD {}).lateDone = false ∨ seq = 0) :
    chanOf (complete s c code seq result resp) c = { chanOf s c with
      state := .done, abortRequested := false, taken := none
      window := some (completionOf s c ((chanOf s c).taken.getD {}) code seq result)
      resp := if ((chanOf s c).taken.getD {}).hdr.respByRef then (chanOf s c).resp
        else (resp.zipIdx.map (fun p => (p.2, p.1))) } := by
  rw [complete_finish _ _ _ _ _ _ hl]
  unfold finishCmd
  simp only [hm, Bool.false_eq_true, if_false]
  split_ifs
  all_goals
    try rw [chanOf_deliver]
    try rw [chanOf_modChan_self]
    try simp_all

/-- The copy under EQ_COPY is all that a command's end does to the queues. -/
theorem complete_eqs (s : State) (c : Nat) (code : Status) (seq result : Nat) (resp : Bytes) (t : Taken)
    (ht : (chanOf s c).taken = some t) (hq : t.hdr.eqCopy = false) :
    (complete s c code seq result resp).cp.eqs = s.cp.eqs ∧ (complete s c code seq result resp).cp.msix = s.cp.msix := by
  unfold complete finishCmd
  simp only [ht, hq, Option.getD_some]
  split_ifs <;> first | exact ⟨rfl, rfl⟩ | simp_all

@[simp] theorem complete_chan_other (s : State) (c k : Nat) (code : Status) (seq result : Nat) (resp : Bytes) (h : k ≠ c) :
    chanOf (complete s c code seq result resp) k = chanOf s k := by
  obtain ⟨f, hf, -⟩ := complete_chan s c k code seq result resp
  rw [hf, chanOf_modChan_other _ _ _ _ h]

@[simp] theorem complete_asyncs (s : State) (c : Nat) (code : Status) (seq result : Nat) (resp : Bytes) :
    (complete s c code seq result resp).cp.asyncs = s.cp.asyncs := by
  obtain ⟨f, -, hf⟩ := complete_chan s c 0 code seq result resp
  exact hf

/-- Where a command has been taken, its channel holds it. -/
theorem takenCmd_spec {s : State} {c op : Nat} {t : Taken} (h : takenCmd s c op = some t) :
    (chanOf s c).state = .taken ∧ (chanOf s c).taken = some t ∧ t.hdr.opcode = op := by
  unfold takenCmd at h
  split at h
  · split at h
    · cases h; exact ⟨by assumption, by assumption, by assumption⟩
    · cases h
  · cases h

/-- A command that runs acts as its body says. -/
theorem runCmd_runs {s : State} {c op : Nat} {t : Taken} (h : runs s c op t) (body : State → Taken → State) :
    runCmd s c op body = body s t := by
  unfold runCmd
  rw [h.1]
  simp [h.2.1, h.2.2.1]

theorem runs_taken {s : State} {c op : Nat} {t : Taken} (h : runs s c op t) : (chanOf s c).taken = some t :=
  (takenCmd_spec h.1).2.1

theorem runs_op {s : State} {c op : Nat} {t : Taken} (h : runs s c op t) : t.hdr.opcode = op :=
  (takenCmd_spec h.1).2.2

theorem runs_now {s : State} {c op : Nat} {t : Taken} (h : runs s c op t) : t.lateDone = false := h.2.2.2

@[simp] theorem chanOf_commit (s : State) (c : Nat) : chanOf (commit s).1 c = chanOf s c := rfl

@[simp] theorem commit_fields (s : State) : (commit s).1.cp.asyncs = s.cp.asyncs ∧ (commit s).1.cp.eqs = s.cp.eqs ∧
    (commit s).1.cp.msix = s.cp.msix ∧ (commit s).1.out = s.out ∧ (commit s).1.cp.chans = s.cp.chans := ⟨rfl, rfl, rfl, rfl, rfl⟩

/-- Accepting a command answers it and leaves its final record due. -/
theorem accept_accepts' (s u : State) (c : Nat) (t t' : Taken) (obj arg : Nat) (resp : Bytes)
    (ht : (chanOf u c).taken = some t) (hl : t.lateDone = false) (hs : u.mgmt.session = s.mgmt.session)
    (ho : ∃ mid, u.out = mid ++ s.out) (hn : u.cp.commitSeq = s.cp.commitSeq)
    (h1 : t'.hdr.opcode = t.hdr.opcode) (h2 : t'.hdr.tag = t.hdr.tag) (h3 : t'.ctx = t.ctx) :
    accepts s (accept u c t' obj arg resp).1 c t := by
  have hc : (commit s).2 = (commit u).2 := by simp [commit, hn]
  unfold accepts
  rw [hc]
  constructor
  · exact complete_answers s _ c t .accepted _ 0 resp ht (.inl hl) hs ho
  · simp [accept, h1, h2, h3]

theorem accept_accepts (s u : State) (c : Nat) (t : Taken) (obj arg : Nat) (resp : Bytes)
    (ht : (chanOf u c).taken = some t) (hl : t.lateDone = false) (hs : u.mgmt.session = s.mgmt.session)
    (ho : ∃ mid, u.out = mid ++ s.out) (hn : u.cp.commitSeq = s.cp.commitSeq) :
    accepts s (accept u c t obj arg resp).1 c t := accept_accepts' s u c t t obj arg resp ht hl hs ho hn rfl rfl rfl

theorem flushFinals_sub (l : List Async) (c : Nat) (s : State) : ∀ a ∈ (flushFinals l c s).1, a ∈ l := by
  induction l generalizing s with
  | nil => simp [flushFinals]
  | cons x r ih =>
    intro a ha
    unfold flushFinals at ha
    split at ha
    · simp only [List.mem_cons] at ha ⊢
      rcases ha with h | h
      · exact .inl h
      · exact .inr (ih _ a h)
    · split at ha
      · exact ha
      · exact List.mem_cons_of_mem _ (ih _ a ha)

/-- After its final record a command is no longer due. -/
theorem finalize_asyncOf (s : State) (n : Nat) (code : Status) (r : Nat) : asyncOf (finalize s n code r) n = none := by
  unfold finalize
  split
  · assumption
  · rename_i a h
    simp only [asyncOf]
    rw [List.find?_eq_none]
    intro x hx
    have := flushFinals_sub _ _ _ x hx
    simp only [List.mem_map] at this
    obtain ⟨b, hb, rfl⟩ := this
    split <;> simp_all

end Sys2Proof.Machine
end

