-- ==== Sys2Proof/Laws/Kernel.lean ====
section
/-! SUPPORT. What an issue of a kernel instruction does: its threads, its group and their PCs. -/
namespace Sys2Proof.Machine

@[simp] theorem groupOf_modGroup_self (s : State) (k gi : Nat) (f : Group → Group) :
    groupOf (modGroup s k gi f) k gi = (groupOf s k gi).map f := by
  simp [groupOf, modGroup]

theorem tfind_foldl_tset {α : Type} (l : List Nat) (m : Tab α) (v : Nat → α) (u : Nat) :
    tfind (l.foldl (fun m t => tset m t (v t)) m) u = if u ∈ l then some (v u) else tfind m u := by
  induction l generalizing m with
  | nil => simp
  | cons a r ih =>
    simp only [List.foldl_cons, ih, List.mem_cons]
    by_cases h1 : u ∈ r
    · simp [h1]
    · by_cases h2 : u = a
      · subst h2; simp [h1]
      · simp [h1, h2]

theorem tfind_filter_not {α : Type} (m : Tab α) (l : List Nat) (u : Nat) :
    tfind (m.filter (fun e => !l.contains e.1)) u = if u ∈ l then none else tfind m u := by
  induction m with
  | nil => simp [tfind]
  | cons e r ih =>
    obtain ⟨j, w⟩ := e
    by_cases hj : j ∈ l
    · simp [List.filter_cons, hj, tfind] at ih ⊢
      rw [ih]
      by_cases hu : u ∈ l
      · simp [hu]
      · have : j ≠ u := fun h => hu (h ▸ hj)
        simp [hu, this]
    · simp [List.filter_cons, hj, tfind] at ih ⊢
      rw [ih]
      by_cases h : j = u
      · subst h; simp [hj]
      · simp [h]

/-- Threads that stay in their region's range simply go on. -/
theorem moveThreads_stays {s : State} {k gi : Nat} {g : Group} {ts : List Nat} {pcOf : Nat → Nat}
    (hg : groupOf s k gi = some g) (h : leavesRegion g ts pcOf = false) :
    moveThreads s k gi ts pcOf = modGroup s k gi (fun g => { g with
      pcs := ts.foldl (fun m t => tset m t (pcOf t)) g.pcs
      waits := g.waits.filter (fun e => !ts.contains e.1) }) := by
  unfold moveThreads
  simp only [hg, h, Bool.false_eq_true, if_false]

theorem regs_key {q u r t : Nat} (hu : u < 64) (ht : t < 64) : q * 64 + u = r * 64 + t ↔ q = r ∧ u = t := by omega

theorem act_lt {c : Core} {gi pc : Nat} {g : Group} {regs preds : List Nat} {also : Wait → Bool} :
    ∀ t ∈ subsetAt c gi g pc regs preds also, t < 64 := by
  intro t ht
  simp [subsetAt, liveThreads] at ht
  exact ht.1

/-- The group after threads have gone on. -/
def wentOn (g : Group) (ts : List Nat) (pcOf : Nat → Nat) : Group :=
  { g with pcs := ts.foldl (fun m t => tset m t (pcOf t)) g.pcs, waits := g.waits.filter (fun e => !ts.contains e.1) }

theorem wentOn_moved (g : Group) (ts : List Nat) (pcOf : Nat → Nat) : moved g (wentOn g ts pcOf) ts pcOf := by
  constructor
  · intro u
    simp only [threadPc, wentOn, tget, tfind_foldl_tset]
    split <;> rfl
  · intro u hu
    simp only [wentOn]
    rw [tfind_filter_not, if_pos hu]

theorem leaves_region {g g' : Group} (h : g'.region = g.region) (ts : List Nat) (p : Nat → Nat) :
    leavesRegion g' ts p = leavesRegion g ts p := by
  unfold leavesRegion; rw [h]

@[simp] theorem coreStep_modGroup (s : State) (k gi j : Nat) (f : Group → Group) : coreStep (modGroup s k gi f) j = coreStep s j := by
  unfold coreStep
  have : (coreOf (modGroup s k gi f) j).step = (coreOf s j).step := by
    unfold modGroup
    by_cases h : j = k
    · subst h; simp
    · simp [h]
  rw [this]; simp [stepOf]

/-- The other subsets of a group are passed over: nothing that an instruction reads of the group changes. -/
theorem passOver_fields (c : Core) (gi pc : Nat) (g : Group) :
    (passOver c gi g pc).region = g.region ∧ (passOver c gi g pc).pcs = g.pcs ∧ (passOver c gi g pc).waits = g.waits ∧
    (passOver c gi g pc).entry = g.entry ∧ (passOver c gi g pc).regs = g.regs ∧ (passOver c gi g pc).preds = g.preds :=
  ⟨rfl, rfl, rfl, rfl, rfl, rfl⟩

/-- What an issue does for an instruction whose threads stay in their region: those with a false guard go on, and the body
acts for the rest. -/
theorem issue_issues {s : State} {i : Issue} {regs preds : List Nat} {also : Wait → Bool} {g : Group} {act off : List Nat}
    (h : issues s i regs preds also g act off) (hs : stays g i act off) (body : State → Group → List Nat → State) :
    ∃ s1 g1, issue s i regs preds also body = body s1 g1 act ∧ s1 = passed s i g off ∧ groupOf s1 i.core i.group = some g1 ∧
      s1.time = s.time ∧ coreStep s1 i.core = coreStep s i.core ∧
      g1 = wentOn (passOver (coreOf s i.core) i.group g i.pc) off (fun _ => i.pc + 1) := by
  obtain ⟨h1, h2, h6, h3, h4, h5⟩ := h
  have hne : (subsetAt (coreOf s i.core) i.group g i.pc regs (i.pred :: preds) also).isEmpty = false := by
    rw [List.isEmpty_eq_false_iff]
    intro h0
    rw [h0] at h4
    exact h3 h4
  have h0 : groupOf (inTurnState s i g) i.core i.group = some (passOver (coreOf s i.core) i.group g i.pc) := by
    simp [inTurnState, h1]
  unfold issue
  simp only [h1, h2, h6, hne, Bool.not_true, Bool.false_eq_true, or_self, if_false, ← h4, ← h5]
  have ha : act.isEmpty = false := by simpa using h3
  by_cases ho : off = []
  · subst ho
    refine ⟨inTurnState s i g, _, ?_, by simp [passed], h0, by simp [inTurnState], by simp [inTurnState], ?_⟩
    · simp only [List.isEmpty_nil, if_true, ha, Bool.false_eq_true, if_false]
      unfold inTurnState at h0
      rw [h0]
      rfl
    · simp [wentOn]
  · have ho' : off.isEmpty = false := by simpa using ho
    have hl : leavesRegion (passOver (coreOf s i.core) i.group g i.pc) off (fun _ => i.pc + 1) = false := by
      rw [leaves_region (g := g) (g' := passOver (coreOf s i.core) i.group g i.pc) rfl]; exact hs.2
    have hm := moveThreads_stays (pcOf := fun _ => i.pc + 1) h0 hl
    refine ⟨passed s i g off, wentOn (passOver (coreOf s i.core) i.group g i.pc) off (fun _ => i.pc + 1), ?_, rfl, ?_, ?_, ?_, rfl⟩
    · have hg : groupOf (advance (inTurnState s i g) i off) i.core i.group =
          some (wentOn (passOver (coreOf s i.core) i.group g i.pc) off (fun _ => i.pc + 1)) := by
        unfold advance
        rw [hm, groupOf_modGroup_self, h0]
        rfl
      simp only [ho', ha, Bool.false_eq_true, if_false, passed]
      unfold inTurnState at hg ⊢
      rw [hg]
    · simp only [passed, ho', Bool.false_eq_true, if_false, advance]
      rw [hm, groupOf_modGroup_self, h0]
      rfl
    · simp only [passed, ho', Bool.false_eq_true, if_false, advance]
      rw [hm]; simp [inTurnState]
    · simp only [passed, ho', Bool.false_eq_true, if_false, advance]
      rw [hm]; simp [inTurnState]

/-- What every instruction does that computes registers or predicates from registers, thread by thread. -/
theorem plain_issues {s : State} {i : Issue} {regs preds : List Nat} {g : Group} {act off : List Nat}
    (h : issues s i regs preds noWait g act off) (hs : stays g i act off) (f : State → Group → Nat → Group)
    (hf : ∀ s g t, (f s g t).region = g.region ∧ (f s g t).pcs = g.pcs ∧ (f s g t).waits = g.waits ∧ (f s g t).entry = g.entry) :
    ∃ s1 g1 g', groupOf (plain s i regs preds f) i.core i.group = some g' ∧ g1.regs = g.regs ∧ g1.preds = g.preds ∧
      s1.time = s.time ∧ coreStep s1 i.core = coreStep s i.core ∧
      g'.regs = (act.foldl (fun g t => f s1 g t) g1).regs ∧ g'.preds = (act.foldl (fun g t => f s1 g t) g1).preds ∧
      moved g g' (act ++ off) (fun _ => i.pc + 1) := by
  unfold plain
  obtain ⟨s1, g1, e, -, hg1, htime, hstep, hg1'⟩ := issue_issues h hs (fun s g act =>
    advance (modGroup s i.core i.group (fun _ => act.foldl (fun g t => f s g t) g)) i act)
  rw [e]
  have hfold : ∀ (l : List Nat) (g : Group), (l.foldl (fun g t => f s1 g t) g).region = g.region ∧
      (l.foldl (fun g t => f s1 g t) g).pcs = g.pcs ∧ (l.foldl (fun g t => f s1 g t) g).waits = g.waits ∧ (l.foldl (fun g t => f s1 g t) g).entry = g.entry := by
    intro l
    induction l with
    | nil => intro g; simp
    | cons a r ih => intro g; simp only [List.foldl_cons]; have := ih (f s1 g a); have h2 := hf s1 g a; simp_all
  have hF : groupOf (modGroup s1 i.core i.group (fun _ => act.foldl (fun g t => f s1 g t) g1)) i.core i.group = some (act.foldl (fun g t => f s1 g t) g1) := by simp [hg1]
  have hl : leavesRegion (act.foldl (fun g t => f s1 g t) g1) act (fun _ => i.pc + 1) = false := by
    rw [leaves_region (g := g)]
    · exact hs.1
    · rw [(hfold _ _).1, hg1']; rfl
  refine ⟨s1, g1, wentOn (act.foldl (fun g t => f s1 g t) g1) act (fun _ => i.pc + 1), ?_, ?_, ?_, ?_, ?_, rfl, rfl, ?_⟩
  · simp only [advance]
    rw [moveThreads_stays hF hl]
    rw [groupOf_modGroup_self, hF]; rfl
  · rw [hg1']; rfl
  · rw [hg1']; rfl
  · exact htime
  · exact hstep
  · have m1 := wentOn_moved (act.foldl (fun g t => f s1 g t) g1) act (fun _ => i.pc + 1)
    have m2 := wentOn_moved (passOver (coreOf s i.core) i.group g i.pc) off (fun _ => i.pc + 1)
    constructor
    · intro u
      rw [m1.1 u]
      have e1 : threadPc (act.foldl (fun g t => f s1 g t) g1) u = threadPc g1 u := by simp [threadPc, (hfold act g1).2.1, (hfold act g1).2.2.2]
      have e3 : threadPc (passOver (coreOf s i.core) i.group g i.pc) u = threadPc g u := rfl
      rw [e1, hg1', m2.1 u, e3]
      simp only [List.mem_append]
      by_cases ha : u ∈ act <;> by_cases hb : u ∈ off <;> simp [ha, hb]
    · intro u hu
      have e2 : (act.foldl (fun g t => f s1 g t) g1).waits = g.waits.filter (fun e => !off.contains e.1) := by rw [(hfold act g1).2.2.1, hg1']; rfl
      simp only [wentOn, tfind_filter_not, e2]
      simp only [List.mem_append] at hu
      by_cases ha : u ∈ act
      · simp [ha]
      · have : u ∈ off := by tauto
        simp [ha, this]

end Sys2Proof.Machine
end

