-- ==== Sys2Proof/Laws/Memory.lean ====
section
/-! SUPPORT. Memory: reads after writes, and the canonical form, which every operation that writes memory keeps. -/
set_option maxRecDepth 4000
set_option exponentiation.threshold 2000
namespace Sys2Proof.Machine

theorem memWf_lower {m : Memory} {lo : Option Nat} {a : Nat} (h : memWf (some a) m = true)
    (hl : ∀ l, lo = some l → l ≤ a) : memWf lo m = true := by
  cases m with
  | nil => rfl
  | cons c r =>
    obtain ⟨x, b⟩ := c
    simp only [memWf, Bool.and_eq_true, decide_eq_true_eq] at h ⊢
    refine ⟨⟨?_, h.1.2⟩, h.2⟩
    cases lo with
    | none => rfl
    | some l => simp only [decide_eq_true_eq]; have := hl l rfl; omega

theorem memWrite_bound {m : Memory} {lo : Option Nat} {x : Nat} {v : Byte} (h : memWf lo m = true)
    (hx : ∀ l, lo = some l → l < x) : memWf lo (memWrite m x v) = true := by
  induction m generalizing lo with
  | nil =>
    unfold memWrite
    split
    · rfl
    · rename_i hv
      cases lo with
      | none => simpa [memWf] using hv
      | some l => simpa [memWf, hx l rfl] using hv
  | cons c r ih =>
    obtain ⟨a, b⟩ := c
    simp only [memWf, Bool.and_eq_true] at h
    unfold memWrite
    split
    · split
      · simp only [memWf, Bool.and_eq_true]; exact h
      · rename_i hlt hv
        simp only [memWf, Bool.and_eq_true, decide_eq_true_eq, bne_iff_ne, ne_eq]
        refine ⟨⟨?_, hv⟩, ⟨hlt, by simpa using h.1.2⟩, h.2⟩
        cases lo with
        | none => rfl
        | some l => simpa using hx l rfl
    · split
      · rename_i heq
        split
        · refine memWf_lower h.2 (fun l hl => ?_)
          have := hx l hl; omega
        · rename_i hv
          simp only [memWf, Bool.and_eq_true, bne_iff_ne, ne_eq]
          refine ⟨⟨?_, hv⟩, by subst heq; exact h.2⟩
          cases lo with
          | none => rfl
          | some l => simpa using hx l rfl
      · simp only [memWf, Bool.and_eq_true]
        refine ⟨⟨h.1.1, h.1.2⟩, ih h.2 (fun l hl => ?_)⟩
        cases hl; omega

/-- Writing a byte keeps the canonical form. -/
@[simp] theorem memWrite_wf {m : Memory} (h : Memory.wf m = true) (x : Nat) (v : Byte) : Memory.wf (memWrite m x v) = true :=
  memWrite_bound h (fun _ hl => nomatch hl)

theorem memWf_filter {m : Memory} {lo : Option Nat} (p : Host.Cell → Bool) (h : memWf lo m = true) :
    memWf lo (m.filter p) = true := by
  induction m generalizing lo with
  | nil => rfl
  | cons c r ih =>
    obtain ⟨a, b⟩ := c
    have h' := h
    simp only [memWf, Bool.and_eq_true] at h
    by_cases hp : p (a, b) = true
    · simp only [List.filter_cons, hp, if_true, memWf, Bool.and_eq_true]
      exact ⟨h.1, ih h.2⟩
    · simp only [List.filter_cons, hp]
      refine ih (memWf_lower h.2 (fun l hl => ?_))
      subst hl
      have := h.1.1
      simp at this
      omega

/-- Writing zeros over a range keeps the canonical form. -/
@[simp] theorem memZero_wf {m : Memory} (h : Memory.wf m = true) (base len : Nat) : Memory.wf (memZero m base len) = true :=
  memWf_filter _ h

/-- Writing a table of bytes keeps the canonical form. -/
@[simp] theorem memFold_wf {m : Memory} (h : Memory.wf m = true) (b : Tab Byte) (base : Nat) :
    Memory.wf (b.foldl (fun m x => memWrite m (base + x.1) x.2) m) = true := by
  induction b generalizing m with
  | nil => exact h
  | cons c r ih => exact ih (memWrite_wf h _ _)

/-- Writing a byte string keeps the canonical form. -/
@[simp] theorem memWriteBytes_wf {m : Memory} (h : Memory.wf m = true) (a : Nat) (b : Bytes) :
    Memory.wf (memWriteBytes m a b) = true := by
  induction b generalizing m a with
  | nil => exact h
  | cons x r ih => exact ih (memWrite_wf h _ _) _

theorem memRead_above {m : Memory} {a x : Nat} (h : memWf (some a) m = true) (hx : x ≤ a) : memRead m x = 0 := by
  induction m generalizing a with
  | nil => rfl
  | cons c r ih =>
    obtain ⟨y, b⟩ := c
    simp only [memWf, Bool.and_eq_true, decide_eq_true_eq] at h
    have : x ≠ y := by omega
    simp only [memRead, this, if_false]
    exact ih h.2 (by omega)

theorem memRead_write_self {m : Memory} {lo : Option Nat} (h : memWf lo m = true) (x : Nat) (v : Byte) :
    memRead (memWrite m x v) x = v := by
  induction m generalizing lo with
  | nil =>
    unfold memWrite
    split
    · rename_i hv; simp [memRead, hv]
    · simp [memRead]
  | cons c r ih =>
    obtain ⟨a, b⟩ := c
    simp only [memWf, Bool.and_eq_true] at h
    unfold memWrite
    split
    · rename_i hlt
      split
      · rename_i hv
        have : x ≠ a := by omega
        simp only [memRead, this, if_false, hv]
        exact memRead_above h.2 (by omega)
      · simp [memRead]
    · split
      · rename_i heq
        split
        · rename_i hv
          rw [hv]
          exact memRead_above h.2 (by omega)
        · simp [memRead]
      · rename_i hne
        simp only [memRead, hne, if_false]
        exact ih h.2

/-- A byte reads as it was written. -/
theorem memRead_memWrite_self {m : Memory} (h : Memory.wf m = true) (x : Nat) (v : Byte) :
    memRead (memWrite m x v) x = v := memRead_write_self h x v

/-- A write leaves every other byte alone. -/
theorem memRead_memWrite_other (m : Memory) {x y : Nat} (v : Byte) (h : y ≠ x) :
    memRead (memWrite m x v) y = memRead m y := by
  induction m with
  | nil => unfold memWrite; split <;> simp [memRead, h]
  | cons c r ih =>
    obtain ⟨a, b⟩ := c
    unfold memWrite
    split
    · split <;> simp [memRead, h]
    · split
      · rename_i heq
        subst heq
        split <;> simp [memRead, h]
      · simp only [memRead, ih]

/-- After writing zeros over a range, its bytes read zero and all others as before. -/
theorem memRead_memZero (m : Memory) (base len x : Nat) :
    memRead (memZero m base len) x = if base ≤ x ∧ x < base + len then 0 else memRead m x := by
  induction m with
  | nil => simp [memZero, memRead]
  | cons c r ih =>
    obtain ⟨a, b⟩ := c
    unfold memZero at ih ⊢
    rw [List.filter_cons]
    split
    · rename_i hk
      simp only [Bool.or_eq_true, decide_eq_true_eq] at hk
      simp only [memRead, ih]
      split
      · subst_vars; rw [if_neg (by omega)]
      · rfl
    · rename_i hk
      simp only [Bool.or_eq_true, decide_eq_true_eq] at hk
      rw [ih]
      simp only [memRead]
      split
      · rfl
      · rw [if_neg (by omega)]

@[simp] theorem forEach_wf {α : Type} (l : List α) (s : State) (f : State → α → State)
    (h : ∀ s x, Memory.wf s.mem.bytes = true → Memory.wf (f s x).mem.bytes = true) (hs : Memory.wf s.mem.bytes = true) :
    Memory.wf (forEach l s f).mem.bytes = true := by
  unfold forEach
  induction l generalizing s with
  | nil => exact hs
  | cons a l ih => exact ih _ (h _ _ hs)

@[simp] theorem foldl_wf {α : Type} (l : List α) (s : State) (f : State → α → State)
    (h : ∀ s x, Memory.wf s.mem.bytes = true → Memory.wf (f s x).mem.bytes = true) (hs : Memory.wf s.mem.bytes = true) :
    Memory.wf (List.foldl f s l).mem.bytes = true := forEach_wf l s f h hs

@[simp] theorem foldlFst_wf {α β : Type} (l : List α) (p : State × β) (f : State × β → α → State × β)
    (h : ∀ p x, Memory.wf p.1.mem.bytes = true → Memory.wf (f p x).1.mem.bytes = true) (hs : Memory.wf p.1.mem.bytes = true) :
    Memory.wf (List.foldl f p l).1.mem.bytes = true := by
  induction l generalizing p with
  | nil => exact hs
  | cons a l ih => exact ih _ (h _ _ hs)

@[simp] theorem forEachFst_wf {α β : Type} (l : List α) (p : State × β) (f : State × β → α → State × β)
    (h : ∀ p x, Memory.wf p.1.mem.bytes = true → Memory.wf (f p x).1.mem.bytes = true) (hs : Memory.wf p.1.mem.bytes = true) :
    Memory.wf (forEach l p f).1.mem.bytes = true := foldlFst_wf l p f h hs

@[simp] theorem forEach_bytes {α : Type} (l : List α) (s : State) (f : State → α → State)
    (h : ∀ s x, (f s x).mem.bytes = s.mem.bytes) : (forEach l s f).mem.bytes = s.mem.bytes := by
  unfold forEach
  induction l generalizing s with
  | nil => rfl
  | cons a l ih => simp [ih, h]

@[simp] theorem foldl_bytes {α : Type} (l : List α) (s : State) (f : State → α → State)
    (h : ∀ s x, (f s x).mem.bytes = s.mem.bytes) : (List.foldl f s l).mem.bytes = s.mem.bytes := forEach_bytes l s f h

@[simp] theorem foldlFst_bytes {α β : Type} (l : List α) (p : State × β) (f : State × β → α → State × β)
    (h : ∀ p x, (f p x).1.mem.bytes = p.1.mem.bytes) : (List.foldl f p l).1.mem.bytes = p.1.mem.bytes := by
  induction l generalizing p with
  | nil => rfl
  | cons a l ih => simp [ih, h]

@[simp] theorem forEachFst_bytes {α β : Type} (l : List α) (p : State × β) (f : State × β → α → State × β)
    (h : ∀ p x, (f p x).1.mem.bytes = p.1.mem.bytes) : (forEach l p f).1.mem.bytes = p.1.mem.bytes := foldlFst_bytes l p f h

@[simp] theorem modBytes_wf (s : State) (f : Memory → Memory) (h : Memory.wf (f s.mem.bytes) = true) :
    Memory.wf (modBytes s f).mem.bytes = true := h

/-- Writing bytes of a line keeps the canonical form. -/
@[simp] theorem putTable_wf {m : Memory} (h : Memory.wf m = true) (base : Nat) (b : Tab Byte) :
    Memory.wf (putTable m base b) = true := memFold_wf h b base

@[simp] theorem putLine_wf (s : State) (line : Nat) (b : Tab Byte) (hw : Memory.wf s.mem.bytes = true) :
    Memory.wf (putLine s line b).mem.bytes = true := by
  unfold putLine
  simp [hw]

@[simp] theorem zeroBytes_wf (s : State) (base len : Nat) (hw : Memory.wf s.mem.bytes = true) :
    Memory.wf (zeroBytes s base len).mem.bytes = true := by
  unfold zeroBytes
  simp [hw]

@[simp] theorem setPoison_bytes (s : State) (u n : Nat) (on : Bool) :
    (setPoison s u n on).mem.bytes = s.mem.bytes := by
  unfold setPoison
  simp

@[simp] theorem modShelf_bytes (s : State) (n : Nat) (f : Shelf → Shelf) :
    (modShelf s n f).mem.bytes = s.mem.bytes := by
  unfold modShelf
  simp

@[simp] theorem modFar_bytes (s : State) (p : Nat) (f : FarPort → FarPort) :
    (modFar s p f).mem.bytes = s.mem.bytes := by
  unfold modFar
  simp

@[simp] theorem modWcb_bytes (s : State) (h : Home) (f : List WcbEntry → List WcbEntry) :
    (modWcb s h f).mem.bytes = s.mem.bytes := by
  unfold modWcb
  split <;> simp

@[simp] theorem flushHalf_wf (s : State) (e : WcbEntry) (h : Nat) (hw : Memory.wf s.mem.bytes = true) :
    Memory.wf (flushHalf s e h).mem.bytes = true := by
  unfold flushHalf
  dsimp only
  (repeat' split) <;> simp [hw]

@[simp] theorem flushEntry_wf (s : State) (home : Home) (e : WcbEntry) (hw : Memory.wf s.mem.bytes = true) :
    Memory.wf (flushEntry s home e).mem.bytes = true := by
  unfold flushEntry
  simp only [modWcb_bytes]
  exact flushHalf_wf _ _ _ (flushHalf_wf _ _ _ (forEach_wf _ _ _ (fun _ _ h => by split <;> simp [h]) hw))

@[simp] theorem beginFlush_bytes (s : State) (home : Home) (e : WcbEntry) :
    (beginFlush s home e).mem.bytes = s.mem.bytes := by simp [beginFlush]

@[simp] theorem flushWcb_bytes (s : State) (home : Home) : (flushWcb s home).mem.bytes = s.mem.bytes := by simp [flushWcb]

@[simp] theorem wcbAllocate_bytes (s : State) (home : Home) (line : Nat) :
    (wcbAllocate s home line).mem.bytes = s.mem.bytes := by
  unfold wcbAllocate
  dsimp only
  (repeat' split) <;> simp

@[simp] theorem wcbMerge_wf (s : State) (home : Home) (line : Nat) (b : Tab Byte) (pz : Nat) (hw : Memory.wf s.mem.bytes = true) :
    Memory.wf (wcbMerge s home line b pz).mem.bytes = true := by
  unfold wcbMerge
  dsimp only
  (repeat' split) <;> simp [hw]

@[simp] theorem halfWrite_wf (s : State) (home : Home) (line h : Nat) (b : Tab Byte) (pz : Bool) (hw : Memory.wf s.mem.bytes = true) :
    Memory.wf (halfWrite s home line h b pz).mem.bytes = true := by
  unfold halfWrite
  (repeat' split) <;> simp [hw]

@[simp] theorem lineWrite_wf (s : State) (home : Home) (line : Nat) (b : Tab Byte) (pz : Nat) (hw : Memory.wf s.mem.bytes = true) :
    Memory.wf (lineWrite s home line b pz).mem.bytes = true := by
  unfold lineWrite
  exact forEach_wf _ _ _ (fun _ _ h => halfWrite_wf _ _ _ _ _ _ h) hw

@[simp] theorem scratchWrite_wf (s : State) (line : Nat) (b : Tab Byte) (pz : Nat) (hw : Memory.wf s.mem.bytes = true) :
    Memory.wf (scratchWrite s line b pz).mem.bytes = true := by
  unfold scratchWrite
  refine forEach_wf _ _ _ (fun s _ h => ?_) (by simp [hw])
  dsimp only
  (repeat' split) <;> simp [h]

@[simp] theorem writeLine_wf (s : State) (line : Nat) (b : Tab Byte) (pz : Nat) (hw : Memory.wf s.mem.bytes = true) :
    Memory.wf (writeLine s line b pz).mem.bytes = true := by
  unfold writeLine
  (repeat' split) <;> simp [hw]

@[simp] theorem writeBytes_wf (s : State) (a : Nat) (b : Bytes) (hw : Memory.wf s.mem.bytes = true) :
    Memory.wf (writeBytes s a b).mem.bytes = true := by
  unfold writeBytes
  exact forEach_wf _ _ _ (fun _ _ h => writeLine_wf _ _ _ _ h) hw

@[simp] theorem writePoisoned_wf (s : State) (a : Nat) (b : Bytes) (pz : Nat → Bool) (hw : Memory.wf s.mem.bytes = true) :
    Memory.wf (writePoisoned s a b pz).mem.bytes = true := by
  unfold writePoisoned
  exact forEach_wf _ _ _ (fun _ _ h => writeLine_wf _ _ _ _ h) hw

@[simp] theorem writePoisonRange_wf (s : State) (a n : Nat) (hw : Memory.wf s.mem.bytes = true) :
    Memory.wf (writePoisonRange s a n).mem.bytes = true := by
  unfold writePoisonRange
  simp [hw]

@[simp] theorem newTxn_bytes (s : State) (t : Txn) :
    (newTxn s t).1.mem.bytes = s.mem.bytes := by
  unfold newTxn
  simp

@[simp] theorem modTxn_bytes (s : State) (n : Nat) (f : Txn → Txn) :
    (modTxn s n f).mem.bytes = s.mem.bytes := by
  unfold modTxn
  simp

/-- An atomic operation at a home keeps the canonical form. -/
theorem homeAtomic_wf (s : State) (op : AtomOp) (ty : AtomType) (lanes : List AtomLane) (hw : Memory.wf s.mem.bytes = true) :
    Memory.wf (homeAtomic s op ty lanes).1.mem.bytes = true := by
  unfold homeAtomic
  refine forEach_wf _ _ _ (fun s _ h => ?_) hw
  split <;> simp [h]

/-- The memory of reset has the canonical form. -/
theorem reset_wf : Memory.wf State.reset.mem.bytes = true := by decide

end Sys2Proof.Machine
end

