-- ==== Sys2Proof/Laws/PerInstr.lean ====
section
/-! SUPPORT. What holds of every command as syntax, one lemma a constructor. -/
namespace Sys2Proof.Laws

open Sys2Proof Sys2Proof.Machine

/-- The list of components that a command may change names each once, and names a whole wherever it names its part: the
memory where it names the bytes, the start where it names the fuses or the flash. -/
def FrameShape.Statement (i : Instr) : Prop :=
  (changes i).Nodup ∧ (.bytes ∈ changes i → .mem ∈ changes i) ∧ (.fuses ∈ changes i → .boot ∈ changes i) ∧
    (.flash ∈ changes i → .boot ∈ changes i)

/-- What the statement asks of a list, as a test. -/
def frameShape (l : List Component) : Bool :=
  decide l.Nodup && (!l.contains .bytes || l.contains .mem) && (!l.contains .fuses || l.contains .boot)
    && (!l.contains .flash || l.contains .boot)

theorem frameShape_list {l : List Component} (h : frameShape l = true) :
    l.Nodup ∧ (.bytes ∈ l → .mem ∈ l) ∧ (.fuses ∈ l → .boot ∈ l) ∧ (.flash ∈ l → .boot ∈ l) := by
  simp only [frameShape, Bool.and_eq_true, decide_eq_true_eq, Bool.or_eq_true, Bool.not_eq_true', List.contains_eq_mem,
    decide_eq_false_iff_not] at h
  exact ⟨h.1.1.1, fun k => h.1.1.2.resolve_left (fun x => x k), fun k => h.1.2.resolve_left (fun x => x k),
    fun k => h.2.resolve_left (fun x => x k)⟩

theorem frameShape_of {i : Instr} (h : frameShape (changes i) = true) : FrameShape.Statement i := frameShape_list h

theorem FrameShape.doorbellPost (m : Nat) : FrameShape.Statement (.doorbellPost m) := frameShape_of rfl
theorem FrameShape.doorbellAbort (m : Nat) : FrameShape.Statement (.doorbellAbort m) := frameShape_of rfl
theorem FrameShape.doorbellRelease (m : Nat) : FrameShape.Statement (.doorbellRelease m) := frameShape_of rfl
theorem FrameShape.doorbellIgnoredAction (m action : Nat) : FrameShape.Statement (.doorbellIgnoredAction m action) := frameShape_of rfl
theorem FrameShape.cpTakeMailbox (inp : TakeInput) : FrameShape.Statement (.cpTakeMailbox inp) := frameShape_of rfl
theorem FrameShape.hello (c : Nat) : FrameShape.Statement (.hello c) := frameShape_of rfl
theorem FrameShape.eqCreate (c : Nat) : FrameShape.Statement (.eqCreate c) := frameShape_of rfl
theorem FrameShape.eqDestroy (c : Nat) : FrameShape.Statement (.eqDestroy c) := frameShape_of rfl
theorem FrameShape.eqDestroyDrained (seq : Nat) : FrameShape.Statement (.eqDestroyDrained seq) := frameShape_of rfl
theorem FrameShape.partitionCreate (c : Nat) : FrameShape.Statement (.partitionCreate c) := frameShape_of rfl
theorem FrameShape.partitionTransitionDone (p : Nat) : FrameShape.Statement (.partitionTransitionDone p) := frameShape_of rfl
theorem FrameShape.partitionDestroy (c : Nat) : FrameShape.Statement (.partitionDestroy c) := frameShape_of rfl
theorem FrameShape.partitionDestroyDone (p : Nat) : FrameShape.Statement (.partitionDestroyDone p) := frameShape_of rfl
theorem FrameShape.partitionReset (c : Nat) : FrameShape.Statement (.partitionReset c) := frameShape_of rfl
theorem FrameShape.partitionQuery (c : Nat) (wb : WriteBack) : FrameShape.Statement (.partitionQuery c wb) := frameShape_of rfl
theorem FrameShape.partitionPolicySet (c : Nat) : FrameShape.Statement (.partitionPolicySet c) := frameShape_of rfl
theorem FrameShape.imageLoad (c : Nat) (inp : ImageInput) : FrameShape.Statement (.imageLoad c inp) := frameShape_of rfl
theorem FrameShape.imageChunkBitmap (image core bitmap : Nat) : FrameShape.Statement (.imageChunkBitmap image core bitmap) := frameShape_of rfl
theorem FrameShape.coreDigestCheckDone (image core : Nat) (ok : Bool) : FrameShape.Statement (.coreDigestCheckDone image core ok) := frameShape_of rfl
theorem FrameShape.modelBind (c : Nat) : FrameShape.Statement (.modelBind c) := frameShape_of rfl
theorem FrameShape.modelBindSeDone (seq : Nat) (r : SeOutcome) : FrameShape.Statement (.modelBindSeDone seq r) := frameShape_of rfl
theorem FrameShape.modelUnbind (c : Nat) : FrameShape.Statement (.modelUnbind c) := frameShape_of rfl
theorem FrameShape.seqOpen (c : Nat) : FrameShape.Statement (.seqOpen c) := frameShape_of rfl
theorem FrameShape.seqClose (c : Nat) : FrameShape.Statement (.seqClose c) := frameShape_of rfl
theorem FrameShape.seqCloseComplete (entry : Nat) : FrameShape.Statement (.seqCloseComplete entry) := frameShape_of rfl
theorem FrameShape.stepSubmit (c : Nat) : FrameShape.Statement (.stepSubmit c) := frameShape_of rfl
theorem FrameShape.mapHost (c : Nat) : FrameShape.Statement (.mapHost c) := frameShape_of rfl
theorem FrameShape.unmapHost (c : Nat) : FrameShape.Statement (.unmapHost c) := frameShape_of rfl
theorem FrameShape.unmapHostDrained (seq : Nat) : FrameShape.Statement (.unmapHostDrained seq) := frameShape_of rfl
theorem FrameShape.faultRespond (c : Nat) : FrameShape.Statement (.faultRespond c) := frameShape_of rfl
theorem FrameShape.peerWindowSet (c : Nat) : FrameShape.Statement (.peerWindowSet c) := frameShape_of rfl
theorem FrameShape.peerWindowClear (c : Nat) : FrameShape.Statement (.peerWindowClear c) := frameShape_of rfl
theorem FrameShape.peerWindowClearDrained (seq : Nat) : FrameShape.Statement (.peerWindowClearDrained seq) := frameShape_of rfl
theorem FrameShape.peerAdmitSet (c : Nat) : FrameShape.Statement (.peerAdmitSet c) := frameShape_of rfl
theorem FrameShape.linkQuery (c : Nat) : FrameShape.Statement (.linkQuery c) := frameShape_of rfl
theorem FrameShape.linkRetrain (c : Nat) : FrameShape.Statement (.linkRetrain c) := frameShape_of rfl
theorem FrameShape.linkModeSet (c : Nat) : FrameShape.Statement (.linkModeSet c) := frameShape_of rfl
theorem FrameShape.qosSet (c : Nat) : FrameShape.Statement (.qosSet c) := frameShape_of rfl
theorem FrameShape.timeQuery (c : Nat) : FrameShape.Statement (.timeQuery c) := frameShape_of rfl
theorem FrameShape.timePeriodSet (c : Nat) : FrameShape.Statement (.timePeriodSet c) := frameShape_of rfl
theorem FrameShape.timeRoleSet (c : Nat) : FrameShape.Statement (.timeRoleSet c) := frameShape_of rfl
theorem FrameShape.timeBackgroundSet (c : Nat) : FrameShape.Statement (.timeBackgroundSet c) := frameShape_of rfl
theorem FrameShape.powerQuery (c : Nat) : FrameShape.Statement (.powerQuery c) := frameShape_of rfl
theorem FrameShape.powerCapSet (c : Nat) : FrameShape.Statement (.powerCapSet c) := frameShape_of rfl
theorem FrameShape.powerDomainSet (c : Nat) : FrameShape.Statement (.powerDomainSet c) := frameShape_of rfl
theorem FrameShape.attest (c : Nat) (ok : Bool) (wb : WriteBack) : FrameShape.Statement (.attest c ok wb) := frameShape_of rfl
theorem FrameShape.fwStage (c : Nat) (image : FwImage) : FrameShape.Statement (.fwStage c image) := frameShape_of rfl
theorem FrameShape.fwActivate (c : Nat) : FrameShape.Statement (.fwActivate c) := frameShape_of rfl
theorem FrameShape.fwActivateSwitch : FrameShape.Statement (.fwActivateSwitch) := frameShape_of rfl
theorem FrameShape.eqConsumerWrite (q index : Nat) (arm : Bool) : FrameShape.Statement (.eqConsumerWrite q index arm) := frameShape_of rfl
theorem FrameShape.msixTableWrite (v word value : Nat) : FrameShape.Statement (.msixTableWrite v word value) := frameShape_of rfl
theorem FrameShape.shelfRepairSoft (shelf row : Nat) : FrameShape.Statement (.shelfRepairSoft shelf row) := frameShape_of rfl
theorem FrameShape.softRepairDone (shelf : Nat) (bad : List Nat) : FrameShape.Statement (.softRepairDone shelf bad) := frameShape_of rfl
theorem FrameShape.shelfRepairHard (shelf row : Nat) : FrameShape.Statement (.shelfRepairHard shelf row) := frameShape_of rfl
theorem FrameShape.shelfRepairCancelHard (shelf row : Nat) : FrameShape.Statement (.shelfRepairCancelHard shelf row) := frameShape_of rfl
theorem FrameShape.lcVariant (sigOk : Bool) : FrameShape.Statement (.lcVariant sigOk) := frameShape_of rfl
theorem FrameShape.lcLifecycle (sigOk : Bool) : FrameShape.Statement (.lcLifecycle sigOk) := frameShape_of rfl
theorem FrameShape.lcAntiRollback (sigOk : Bool) : FrameShape.Statement (.lcAntiRollback sigOk) := frameShape_of rfl
theorem FrameShape.lcAtticRepairMap (sigOk : Bool) : FrameShape.Statement (.lcAtticRepairMap sigOk) := frameShape_of rfl
theorem FrameShape.lcAtticProfile (sigOk : Bool) : FrameShape.Statement (.lcAtticProfile sigOk) := frameShape_of rfl
theorem FrameShape.pwrCmpWrite (k value : Nat) : FrameShape.Statement (.pwrCmpWrite k value) := frameShape_of rfl
theorem FrameShape.registerWrite (addr size value : Nat) : FrameShape.Statement (.registerWrite addr size value) := frameShape_of rfl
theorem FrameShape.bar2Access (kind : TlpKind) (addr : Nat) (data : Bytes) : FrameShape.Statement (.bar2Access kind addr data) := frameShape_of rfl
theorem FrameShape.mbRequest (msg : Bytes) : FrameShape.Statement (.mbRequest msg) := frameShape_of rfl
theorem FrameShape.eventAck (seq : Nat) : FrameShape.Statement (.eventAck seq) := frameShape_of rfl
theorem FrameShape.regRead (addr size : Nat) : FrameShape.Statement (.regRead addr size) := frameShape_of rfl
theorem FrameShape.regWrite (addr size value : Nat) : FrameShape.Statement (.regWrite addr size value) := frameShape_of rfl
theorem FrameShape.deviceReset (inp : StartInput) : FrameShape.Statement (.deviceReset inp) := frameShape_of rfl
theorem FrameShape.getVersion (m : SpdmIn) : FrameShape.Statement (.getVersion m) := frameShape_of rfl
theorem FrameShape.getCapabilities (m : SpdmIn) : FrameShape.Statement (.getCapabilities m) := frameShape_of rfl
theorem FrameShape.negotiateAlgorithms (m : SpdmIn) : FrameShape.Statement (.negotiateAlgorithms m) := frameShape_of rfl
theorem FrameShape.getDigests (m : SpdmIn) : FrameShape.Statement (.getDigests m) := frameShape_of rfl
theorem FrameShape.getCertificate (m : SpdmIn) : FrameShape.Statement (.getCertificate m) := frameShape_of rfl
theorem FrameShape.challenge (m : SpdmIn) : FrameShape.Statement (.challenge m) := frameShape_of rfl
theorem FrameShape.getMeasurements (m : SpdmIn) : FrameShape.Statement (.getMeasurements m) := frameShape_of rfl
theorem FrameShape.keyExchange (m : SpdmIn) : FrameShape.Statement (.keyExchange m) := frameShape_of rfl
theorem FrameShape.finish (m : SpdmIn) : FrameShape.Statement (.finish m) := frameShape_of rfl
theorem FrameShape.spdmKeyUpdate (m : SpdmIn) : FrameShape.Statement (.spdmKeyUpdate m) := frameShape_of rfl
theorem FrameShape.spdmHeartbeat (m : SpdmIn) : FrameShape.Statement (.spdmHeartbeat m) := frameShape_of rfl
theorem FrameShape.endSession (m : SpdmIn) : FrameShape.Statement (.endSession m) := frameShape_of rfl
theorem FrameShape.setEndpointId (eid : Nat) : FrameShape.Statement (.setEndpointId eid) := frameShape_of rfl
theorem FrameShape.pldmSensorRead (id : Nat) : FrameShape.Statement (.pldmSensorRead id) := frameShape_of rfl
theorem FrameShape.updateComponent (image : FwImage) : FrameShape.Statement (.updateComponent image) := frameShape_of rfl
theorem FrameShape.activateFirmware : FrameShape.Statement (.activateFirmware) := frameShape_of rfl
theorem FrameShape.nop (i : Issue) : FrameShape.Statement (.nop i) := frameShape_of rfl
theorem FrameShape.bra (i : Issue) (offset : Int) : FrameShape.Statement (.bra i offset) := frameShape_of rfl
theorem FrameShape.brx (i : Issue) (sa : Nat) (offset : Int) (table : List Int) : FrameShape.Statement (.brx i sa offset table) := frameShape_of rfl
theorem FrameShape.split (i : Issue) (slot : Nat) : FrameShape.Statement (.split i slot) := frameShape_of rfl
theorem FrameShape.join (i : Issue) (slot : Nat) : FrameShape.Statement (.join i slot) := frameShape_of rfl
theorem FrameShape.exit (i : Issue) : FrameShape.Statement (.exit i) := frameShape_of rfl
theorem FrameShape.yield (i : Issue) : FrameShape.Statement (.yield i) := frameShape_of rfl
theorem FrameShape.shflIdx (i : Issue) (f : ShflForm) (dst sa sb sc : Nat) : FrameShape.Statement (.shflIdx i f dst sa sb sc) := frameShape_of rfl
theorem FrameShape.shflUp (i : Issue) (f : ShflForm) (dst sa sb sc : Nat) : FrameShape.Statement (.shflUp i f dst sa sb sc) := frameShape_of rfl
theorem FrameShape.shflDown (i : Issue) (f : ShflForm) (dst sa sb sc : Nat) : FrameShape.Statement (.shflDown i f dst sa sb sc) := frameShape_of rfl
theorem FrameShape.shflXor (i : Issue) (f : ShflForm) (dst sa sb sc : Nat) : FrameShape.Statement (.shflXor i f dst sa sb sc) := frameShape_of rfl
theorem FrameShape.voteAll (i : Issue) (dst pin : Nat) (inv : Bool) (sc : Nat) : FrameShape.Statement (.voteAll i dst pin inv sc) := frameShape_of rfl
theorem FrameShape.voteAny (i : Issue) (dst pin : Nat) (inv : Bool) (sc : Nat) : FrameShape.Statement (.voteAny i dst pin inv sc) := frameShape_of rfl
theorem FrameShape.voteBallot (i : Issue) (dst pin : Nat) (inv : Bool) (sc : Nat) : FrameShape.Statement (.voteBallot i dst pin inv sc) := frameShape_of rfl
theorem FrameShape.match32 (i : Issue) (dst sa sc : Nat) : FrameShape.Statement (.match32 i dst sa sc) := frameShape_of rfl
theorem FrameShape.match64 (i : Issue) (dst sa sc : Nat) : FrameShape.Statement (.match64 i dst sa sc) := frameShape_of rfl
theorem FrameShape.atomAdd (i : Issue) (f : AtomForm) (dst sa sb : Nat) : FrameShape.Statement (.atomAdd i f dst sa sb) := frameShape_of rfl
theorem FrameShape.atomMin (i : Issue) (f : AtomForm) (dst sa sb : Nat) : FrameShape.Statement (.atomMin i f dst sa sb) := frameShape_of rfl
theorem FrameShape.atomMax (i : Issue) (f : AtomForm) (dst sa sb : Nat) : FrameShape.Statement (.atomMax i f dst sa sb) := frameShape_of rfl
theorem FrameShape.atomAnd (i : Issue) (f : AtomForm) (dst sa sb : Nat) : FrameShape.Statement (.atomAnd i f dst sa sb) := frameShape_of rfl
theorem FrameShape.atomOr (i : Issue) (f : AtomForm) (dst sa sb : Nat) : FrameShape.Statement (.atomOr i f dst sa sb) := frameShape_of rfl
theorem FrameShape.atomXor (i : Issue) (f : AtomForm) (dst sa sb : Nat) : FrameShape.Statement (.atomXor i f dst sa sb) := frameShape_of rfl
theorem FrameShape.atomExch (i : Issue) (f : AtomForm) (dst sa sb : Nat) : FrameShape.Statement (.atomExch i f dst sa sb) := frameShape_of rfl
theorem FrameShape.atomCas (i : Issue) (f : AtomForm) (dst sa sb sc : Nat) : FrameShape.Statement (.atomCas i f dst sa sb sc) := frameShape_of rfl
theorem FrameShape.atomInc (i : Issue) (f : AtomForm) (dst sa sb : Nat) : FrameShape.Statement (.atomInc i f dst sa sb) := frameShape_of rfl
theorem FrameShape.pegArrive (i : Issue) (f : PegForm) (dst sa sb : Nat) : FrameShape.Statement (.pegArrive i f dst sa sb) := frameShape_of rfl
theorem FrameShape.pegWait (i : Issue) (f : PegForm) (sa sb : Nat) : FrameShape.Statement (.pegWait i f sa sb) := frameShape_of rfl
theorem FrameShape.pegSignal (i : Issue) (f : PegForm) (dst sa sb : Nat) : FrameShape.Statement (.pegSignal i f dst sa sb) := frameShape_of rfl
theorem FrameShape.pegReset (i : Issue) (f : PegForm) (sa : Nat) : FrameShape.Statement (.pegReset i f sa) := frameShape_of rfl
theorem FrameShape.pegRead (i : Issue) (f : PegForm) (dst sa : Nat) : FrameShape.Statement (.pegRead i f dst sa) := frameShape_of rfl
theorem FrameShape.fence (i : Issue) (scope : Scope) (order : Order) : FrameShape.Statement (.fence i scope order) := frameShape_of rfl
theorem FrameShape.releaseWritebackAcked (core release : Nat) : FrameShape.Statement (.releaseWritebackAcked core release) := frameShape_of rfl
theorem FrameShape.mregionBegin (i : Issue) (sc endOffset : Nat) : FrameShape.Statement (.mregionBegin i sc endOffset) := frameShape_of rfl
theorem FrameShape.mregionEnd (i : Issue) : FrameShape.Statement (.mregionEnd i) := frameShape_of rfl
theorem FrameShape.mzero (i : Issue) : FrameShape.Statement (.mzero i) := frameShape_of rfl
theorem FrameShape.anchor (i : Issue) (sa : Nat) (auto : Bool) : FrameShape.Statement (.anchor i sa auto) := frameShape_of rfl
theorem FrameShape.mma (i : Issue) (f : MmaForm) (sa sb sc : Nat) : FrameShape.Statement (.mma i f sa sb sc) := frameShape_of rfl
theorem FrameShape.mexport (i : Issue) (fmt : Fmt) (stochastic : Bool) (sa : Nat) : FrameShape.Statement (.mexport i fmt stochastic sa) := frameShape_of rfl
theorem FrameShape.mexportWide (i : Issue) (sa : Nat) : FrameShape.Statement (.mexportWide i sa) := frameShape_of rfl
theorem FrameShape.intOp (i : Issue) (f : IntForm) (wide : Bool) (dst sa sb sc : Nat) : FrameShape.Statement (.intOp i f wide dst sa sb sc) := frameShape_of rfl
theorem FrameShape.fpOp (i : Issue) (f : FpForm) (dst sa sb sc : Nat) : FrameShape.Statement (.fpOp i f dst sa sb sc) := frameShape_of rfl
theorem FrameShape.cvt (i : Issue) (src dst : Fmt) (rd ra se de : Nat) : FrameShape.Statement (.cvt i src dst rd ra se de) := frameShape_of rfl
theorem FrameShape.ld (i : Issue) (f : MemForm) (dst sa : Nat) : FrameShape.Statement (.ld i f dst sa) := frameShape_of rfl
theorem FrameShape.st (i : Issue) (f : MemForm) (sa sb : Nat) : FrameShape.Statement (.st i f sa sb) := frameShape_of rfl
theorem FrameShape.mov (i : Issue) (dst : Nat) (src : MovSrc) : FrameShape.Statement (.mov i dst src) := frameShape_of rfl
theorem FrameShape.specialRead (i : Issue) (dst : Nat) (sr : SpecialReg) : FrameShape.Statement (.specialRead i dst sr) := frameShape_of rfl
theorem FrameShape.loadDataReturn (core load : Nat) : FrameShape.Statement (.loadDataReturn core load) := frameShape_of rfl
theorem FrameShape.cacheFillArrival (at_ : FillAt) : FrameShape.Statement (.cacheFillArrival at_) := frameShape_of rfl
theorem FrameShape.trackerIdleTimeout (cellar tracker : Nat) : FrameShape.Statement (.trackerIdleTimeout cellar tracker) := frameShape_of rfl
theorem FrameShape.strumBoundary : FrameShape.Statement (.strumBoundary) := frameShape_of rfl
theorem FrameShape.fretEdge : FrameShape.Statement (.fretEdge) := frameShape_of rfl
theorem FrameShape.preemptSaveDone (core : Nat) : FrameShape.Statement (.preemptSaveDone core) := frameShape_of rfl
theorem FrameShape.stepComplete (slot : Nat) : FrameShape.Statement (.stepComplete slot) := frameShape_of rfl
theorem FrameShape.pageMoveLand (src : Nat) : FrameShape.Statement (.pageMoveLand src) := frameShape_of rfl
theorem FrameShape.pageZeroingDone (page : Nat) : FrameShape.Statement (.pageZeroingDone page) := frameShape_of rfl
theorem FrameShape.copy (cellar job : Nat) (host : Fetch) : FrameShape.Statement (.copy cellar job host) := frameShape_of rfl
theorem FrameShape.fill (cellar job : Nat) : FrameShape.Statement (.fill cellar job) := frameShape_of rfl
theorem FrameShape.compress (cellar job : Nat) (host : Fetch) : FrameShape.Statement (.compress cellar job host) := frameShape_of rfl
theorem FrameShape.decompress (cellar job : Nat) (host : Fetch) : FrameShape.Statement (.decompress cellar job host) := frameShape_of rfl
theorem FrameShape.gather (cellar job : Nat) (host : Fetch) : FrameShape.Statement (.gather cellar job host) := frameShape_of rfl
theorem FrameShape.clean (cellar job : Nat) : FrameShape.Statement (.clean cellar job) := frameShape_of rfl
theorem FrameShape.inval (cellar job : Nat) : FrameShape.Statement (.inval cellar job) := frameShape_of rfl
theorem FrameShape.cleanInval (cellar job : Nat) : FrameShape.Statement (.cleanInval cellar job) := frameShape_of rfl
theorem FrameShape.wayLock (cellar job : Nat) : FrameShape.Statement (.wayLock cellar job) := frameShape_of rfl
theorem FrameShape.wayUnlock (cellar job : Nat) : FrameShape.Statement (.wayUnlock cellar job) := frameShape_of rfl
theorem FrameShape.put (cellar job : Nat) (host : Fetch) : FrameShape.Statement (.put cellar job host) := frameShape_of rfl
theorem FrameShape.get (cellar job : Nat) : FrameShape.Statement (.get cellar job) := frameShape_of rfl
theorem FrameShape.signal (cellar job : Nat) : FrameShape.Statement (.signal cellar job) := frameShape_of rfl
theorem FrameShape.allreduce (cellar job : Nat) : FrameShape.Statement (.allreduce cellar job) := frameShape_of rfl
theorem FrameShape.alltoall (cellar job : Nat) : FrameShape.Statement (.alltoall cellar job) := frameShape_of rfl
theorem FrameShape.moverDescriptorDone (cellar job : Nat) : FrameShape.Statement (.moverDescriptorDone cellar job) := frameShape_of rfl
theorem FrameShape.collectiveTimeout (id : Nat) : FrameShape.Statement (.collectiveTimeout id) := frameShape_of rfl
theorem FrameShape.routeDispatched (slot part : Nat) : FrameShape.Statement (.routeDispatched slot part) := frameShape_of rfl
theorem FrameShape.combine (slot part : Nat) : FrameShape.Statement (.combine slot part) := frameShape_of rfl
theorem FrameShape.shelfAccess (txn : Nat) (lo hi : Ecc) : FrameShape.Statement (.shelfAccess txn lo hi) := frameShape_of rfl
theorem FrameShape.farTierAccess (txn : Nat) (lo hi : Ecc) : FrameShape.Statement (.farTierAccess txn lo hi) := frameShape_of rfl
theorem FrameShape.wcbAgeFlush (home : Home) (line : Nat) (lo hi : Ecc) : FrameShape.Statement (.wcbAgeFlush home line lo hi) := frameShape_of rfl
theorem FrameShape.farDeviceFailed (port device : Nat) : FrameShape.Statement (.farDeviceFailed port device) := frameShape_of rfl
theorem FrameShape.shelfChannelRetrain (shelf channel : Nat) : FrameShape.Statement (.shelfChannelRetrain shelf channel) := frameShape_of rfl
theorem FrameShape.shelfChannelRetrained (shelf channel : Nat) (ok : Bool) : FrameShape.Statement (.shelfChannelRetrained shelf channel ok) := frameShape_of rfl
theorem FrameShape.masterPortIssue (master : Nat) : FrameShape.Statement (.masterPortIssue master) := frameShape_of rfl
theorem FrameShape.transactionCompletionReturn (txn : Nat) : FrameShape.Statement (.transactionCompletionReturn txn) := frameShape_of rfl
theorem FrameShape.guaranteeMiss (txn : Nat) (atShelf : Bool) (cycles : Nat) : FrameShape.Statement (.guaranteeMiss txn atShelf cycles) := frameShape_of rfl
theorem FrameShape.walkEntryRead (walk : Nat) (r : EntryRead) : FrameShape.Statement (.walkEntryRead walk r) := frameShape_of rfl
theorem FrameShape.adUpdateCasReturn (walk : Nat) (ok : Bool) : FrameShape.Statement (.adUpdateCasReturn walk ok) := frameShape_of rfl
theorem FrameShape.faultTimeout (entry : Nat) : FrameShape.Statement (.faultTimeout entry) := frameShape_of rfl
theorem FrameShape.unmapFlushReadDone (use : Nat) : FrameShape.Statement (.unmapFlushReadDone use) := frameShape_of rfl
theorem FrameShape.eqCoalesceTimer (q : Nat) : FrameShape.Statement (.eqCoalesceTimer q) := frameShape_of rfl
theorem FrameShape.eqRecordWrite (q : Nat) (ok : Bool) : FrameShape.Statement (.eqRecordWrite q ok) := frameShape_of rfl
theorem FrameShape.rdShared (site : Nat) (m : AtpMsg) : FrameShape.Statement (.rdShared site m) := frameShape_of rfl
theorem FrameShape.rdOwn (site : Nat) (m : AtpMsg) : FrameShape.Statement (.rdOwn site m) := frameShape_of rfl
theorem FrameShape.rdNc (site : Nat) (m : AtpMsg) (host : Fetch) : FrameShape.Statement (.rdNc site m host) := frameShape_of rfl
theorem FrameShape.wrNc (site : Nat) (m : AtpMsg) : FrameShape.Statement (.wrNc site m) := frameShape_of rfl
theorem FrameShape.wbDirty (site : Nat) (m : AtpMsg) : FrameShape.Statement (.wbDirty site m) := frameShape_of rfl
theorem FrameShape.evictClean (site : Nat) (m : AtpMsg) : FrameShape.Statement (.evictClean site m) := frameShape_of rfl
theorem FrameShape.atpAtomic (site : Nat) (m : AtpMsg) : FrameShape.Statement (.atpAtomic site m) := frameShape_of rfl
theorem FrameShape.pegOp (site : Nat) (m : AtpMsg) : FrameShape.Statement (.pegOp site m) := frameShape_of rfl
theorem FrameShape.atpStepDone (site : Nat) (m : AtpMsg) : FrameShape.Statement (.atpStepDone site m) := frameShape_of rfl
theorem FrameShape.stepSaved (site : Nat) (m : AtpMsg) : FrameShape.Statement (.stepSaved site m) := frameShape_of rfl
theorem FrameShape.powerReport (site value : Nat) : FrameShape.Statement (.powerReport site value) := frameShape_of rfl
theorem FrameShape.urgency (site : Nat) (m : AtpMsg) : FrameShape.Statement (.urgency site m) := frameShape_of rfl
theorem FrameShape.snpRsp (site : Nat) (m : AtpMsg) : FrameShape.Statement (.snpRsp site m) := frameShape_of rfl
theorem FrameShape.atpRsp (site : Nat) (m : AtpMsg) : FrameShape.Statement (.atpRsp site m) := frameShape_of rfl
theorem FrameShape.dieCap (site : Nat) (cap : DieCap) (test : LaneTest) : FrameShape.Statement (.dieCap site cap test) := frameShape_of rfl
theorem FrameShape.laneMap (site : Nat) (m : LaneMapIn) (test : LaneTest) : FrameShape.Statement (.laneMap site m test) := frameShape_of rfl
theorem FrameShape.heartbeat (site epoch : Nat) : FrameShape.Statement (.heartbeat site epoch) := frameShape_of rfl
theorem FrameShape.resetReq (site : Nat) : FrameShape.Statement (.resetReq site) := frameShape_of rfl
theorem FrameShape.atticSidebandTimeout (site : Nat) : FrameShape.Statement (.atticSidebandTimeout site) := frameShape_of rfl
theorem FrameShape.atticLinkDown (site : Nat) (linkB : Bool) : FrameShape.Statement (.atticLinkDown site linkB) := frameShape_of rfl
theorem FrameShape.dieHeartbeatTimeout (site : Nat) : FrameShape.Statement (.dieHeartbeatTimeout site) := frameShape_of rfl
theorem FrameShape.dieCreditTimeout (site : Nat) : FrameShape.Statement (.dieCreditTimeout site) := frameShape_of rfl
theorem FrameShape.dieSnoopTimeout (site : Nat) : FrameShape.Statement (.dieSnoopTimeout site) := frameShape_of rfl
theorem FrameShape.dieStepTimeout (site slot : Nat) : FrameShape.Statement (.dieStepTimeout site slot) := frameShape_of rfl
theorem FrameShape.markerReceived (engine : Nat) (m : Marker) : FrameShape.Statement (.markerReceived engine m) := frameShape_of rfl
theorem FrameShape.laneLoss (engine lane reason : Nat) : FrameShape.Statement (.laneLoss engine lane reason) := frameShape_of rfl
theorem FrameShape.trainingTimeout (engine : Nat) : FrameShape.Statement (.trainingTimeout engine) := frameShape_of rfl
theorem FrameShape.ethPortLaneLoss (engine lane : Nat) : FrameShape.Statement (.ethPortLaneLoss engine lane) := frameShape_of rfl
theorem FrameShape.timeWordTimeout (engine : Nat) : FrameShape.Statement (.timeWordTimeout engine) := frameShape_of rfl
theorem FrameShape.holdoverTimeout : FrameShape.Statement (.holdoverTimeout) := frameShape_of rfl
theorem FrameShape.ptpMessage (engine : Nat) (m : PtpIn) (domain : Nat) : FrameShape.Statement (.ptpMessage engine m domain) := frameShape_of rfl
theorem FrameShape.flit (engine : Nat) (f : FlitIn) : FrameShape.Statement (.flit engine f) := frameShape_of rfl
theorem FrameShape.replayTimeout (engine : Nat) : FrameShape.Statement (.replayTimeout engine) := frameShape_of rfl
theorem FrameShape.flitKeepalive (engine : Nat) : FrameShape.Statement (.flitKeepalive engine) := frameShape_of rfl
theorem FrameShape.llCap (engine : Nat) (c : LlCap) : FrameShape.Statement (.llCap engine c) := frameShape_of rfl
theorem FrameShape.keyHello (engine node : Nat) (v : KeyVerdict) : FrameShape.Statement (.keyHello engine node v) := frameShape_of rfl
theorem FrameShape.keyFinish (engine : Nat) (v : KeyVerdict) : FrameShape.Statement (.keyFinish engine v) := frameShape_of rfl
theorem FrameShape.keyUpdate (engine count : Nat) : FrameShape.Statement (.keyUpdate engine count) := frameShape_of rfl
theorem FrameShape.keyUpdateTrigger (engine : Nat) : FrameShape.Statement (.keyUpdateTrigger engine) := frameShape_of rfl
theorem FrameShape.routeAdv (engine : Nat) (nodes : List (Nat × Nat)) : FrameShape.Statement (.routeAdv engine nodes) := frameShape_of rfl
theorem FrameShape.routeAgeOut (engine node : Nat) : FrameShape.Statement (.routeAgeOut engine node) := frameShape_of rfl
theorem FrameShape.forward (engine : Nat) (p : Packet) : FrameShape.Statement (.forward engine p) := frameShape_of rfl
theorem FrameShape.chordWrite (engine : Nat) (p : Packet) : FrameShape.Statement (.chordWrite engine p) := frameShape_of rfl
theorem FrameShape.readReq (engine : Nat) (p : Packet) : FrameShape.Statement (.readReq engine p) := frameShape_of rfl
theorem FrameShape.readRsp (engine : Nat) (p : Packet) : FrameShape.Statement (.readRsp engine p) := frameShape_of rfl
theorem FrameShape.chordAtomic (engine : Nat) (p : Packet) : FrameShape.Statement (.chordAtomic engine p) := frameShape_of rfl
theorem FrameShape.atomicRsp (engine : Nat) (p : Packet) : FrameShape.Statement (.atomicRsp engine p) := frameShape_of rfl
theorem FrameShape.chordPeg (engine : Nat) (p : Packet) : FrameShape.Statement (.chordPeg engine p) := frameShape_of rfl
theorem FrameShape.done (engine : Nat) (p : Packet) : FrameShape.Statement (.done engine p) := frameShape_of rfl
theorem FrameShape.step (engine : Nat) (p : Packet) : FrameShape.Statement (.step engine p) := frameShape_of rfl
theorem FrameShape.stepCancel (engine : Nat) (p : Packet) : FrameShape.Statement (.stepCancel engine p) := frameShape_of rfl
theorem FrameShape.stepDone (engine : Nat) (p : Packet) : FrameShape.Statement (.stepDone engine p) := frameShape_of rfl
theorem FrameShape.coll (engine : Nat) (p : Packet) : FrameShape.Statement (.coll engine p) := frameShape_of rfl
theorem FrameShape.ack (engine : Nat) (p : Packet) (a : AckIn) : FrameShape.Statement (.ack engine p a) := frameShape_of rfl
theorem FrameShape.nack (engine : Nat) (p : Packet) : FrameShape.Statement (.nack engine p) := frameShape_of rfl
theorem FrameShape.ackTimer (peer : Nat) : FrameShape.Statement (.ackTimer peer) := frameShape_of rfl
theorem FrameShape.retransmissionTimeout (peer psn : Nat) : FrameShape.Statement (.retransmissionTimeout peer psn) := frameShape_of rfl
theorem FrameShape.busyBackoffExpiry (peer msg : Nat) : FrameShape.Statement (.busyBackoffExpiry peer msg) := frameShape_of rfl
theorem FrameShape.peerUnreachable (peer : Nat) : FrameShape.Statement (.peerUnreachable peer) := frameShape_of rfl
theorem FrameShape.unreachableEnd (peer : Nat) : FrameShape.Statement (.unreachableEnd peer) := frameShape_of rfl
theorem FrameShape.init (engine ipv6 remoteId : Nat) (v : KeyVerdict) : FrameShape.Statement (.init engine ipv6 remoteId v) := frameShape_of rfl
theorem FrameShape.resp (engine assoc remoteId : Nat) (v : KeyVerdict) : FrameShape.Statement (.resp engine assoc remoteId v) := frameShape_of rfl
theorem FrameShape.confirm (engine assoc : Nat) (v : KeyVerdict) : FrameShape.Statement (.confirm engine assoc v) := frameShape_of rfl
theorem FrameShape.handshakeRetry (assoc : Nat) : FrameShape.Statement (.handshakeRetry assoc) := frameShape_of rfl
theorem FrameShape.associationRenewal (assoc : Nat) : FrameShape.Statement (.associationRenewal assoc) := frameShape_of rfl
theorem FrameShape.neighbourSolicitation (engine port target : Nat) : FrameShape.Statement (.neighbourSolicitation engine port target) := frameShape_of rfl
theorem FrameShape.echoRequest (engine port target : Nat) : FrameShape.Statement (.echoRequest engine port target) := frameShape_of rfl
theorem FrameShape.coldReset (inp : StartInput) : FrameShape.Statement (.coldReset inp) := frameShape_of rfl
theorem FrameShape.hostLinkTimeout : FrameShape.Statement (.hostLinkTimeout) := frameShape_of rfl
theorem FrameShape.farZeroingDone (port decoder : Nat) : FrameShape.Statement (.farZeroingDone port decoder) := frameShape_of rfl
theorem FrameShape.hostPerst (inp : StartInput) : FrameShape.Statement (.hostPerst inp) := frameShape_of rfl
theorem FrameShape.functionLevelReset (inp : StartInput) : FrameShape.Statement (.functionLevelReset inp) := frameShape_of rfl
theorem FrameShape.cpWatchdog (inp : StartInput) : FrameShape.Statement (.cpWatchdog inp) := frameShape_of rfl
theorem FrameShape.coreHang (core : Nat) : FrameShape.Statement (.coreHang core) := frameShape_of rfl
theorem FrameShape.sramUncorrectable (u : SramUnit) : FrameShape.Statement (.sramUncorrectable u) := frameShape_of rfl
theorem FrameShape.retestDone (cellar : Nat) (core : Option Nat) (ok : Bool) : FrameShape.Statement (.retestDone cellar core ok) := frameShape_of rfl
theorem FrameShape.leakyBucketLeak (kind : Nat) (unit sub : Nat) : FrameShape.Statement (.leakyBucketLeak kind unit sub) := frameShape_of rfl
theorem FrameShape.scrubRead (at_ : ScrubAt) (ecc : Ecc) (endsSegment : Bool) : FrameShape.Statement (.scrubRead at_ ecc endsSegment) := frameShape_of rfl
theorem FrameShape.scrubSegmentDue (structure_ : Nat) : FrameShape.Statement (.scrubSegmentDue structure_) := frameShape_of rfl
theorem FrameShape.powerDomainEntryDone (d : Nat) : FrameShape.Statement (.powerDomainEntryDone d) := frameShape_of rfl
theorem FrameShape.powerDomainOn (d : Nat) (ok : Bool) : FrameShape.Statement (.powerDomainOn d ok) := frameShape_of rfl
theorem FrameShape.shelfZeroingDone (shelf : Nat) : FrameShape.Statement (.shelfZeroingDone shelf) := frameShape_of rfl
theorem FrameShape.cpIdleTimeout : FrameShape.Statement (.cpIdleTimeout) := frameShape_of rfl
theorem FrameShape.smbusAddressMatch : FrameShape.Statement (.smbusAddressMatch) := frameShape_of rfl
theorem FrameShape.i3cAddressMatch : FrameShape.Statement (.i3cAddressMatch) := frameShape_of rfl
theorem FrameShape.comparatorAssert (k value : Nat) : FrameShape.Statement (.comparatorAssert k value) := frameShape_of rfl
theorem FrameShape.railFault (rail : Nat) : FrameShape.Statement (.railFault rail) := frameShape_of rfl
theorem FrameShape.vddAtticFault (site : Nat) : FrameShape.Statement (.vddAtticFault site) := frameShape_of rfl
theorem FrameShape.thermalTrip (sensor value : Nat) : FrameShape.Statement (.thermalTrip sensor value) := frameShape_of rfl
theorem FrameShape.coldResetAssert : FrameShape.Statement (.coldResetAssert) := frameShape_of rfl
theorem FrameShape.sensorsCooled (inp : StartInput) : FrameShape.Statement (.sensorsCooled inp) := frameShape_of rfl
theorem FrameShape.vddAtticGood (site : Nat) : FrameShape.Statement (.vddAtticGood site) := frameShape_of rfl
theorem FrameShape.comparatorDeassert (k value : Nat) : FrameShape.Statement (.comparatorDeassert k value) := frameShape_of rfl
theorem FrameShape.cdrLocked (engine lane : Nat) : FrameShape.Statement (.cdrLocked engine lane) := frameShape_of rfl
theorem FrameShape.hostConfigWrite (w : ConfigWrite) : FrameShape.Statement (.hostConfigWrite w) := frameShape_of rfl
theorem FrameShape.hostLinkUp (l : HostLink) : FrameShape.Statement (.hostLinkUp l) := frameShape_of rfl
theorem FrameShape.nocHeaderFlitTimeout (txn : Nat) : FrameShape.Statement (.nocHeaderFlitTimeout txn) := frameShape_of rfl
theorem FrameShape.fwStageDone (ok : Bool) : FrameShape.Statement (.fwStageDone ok) := frameShape_of rfl
theorem FrameShape.modelUnbindDone (model : Nat) : FrameShape.Statement (.modelUnbindDone model) := frameShape_of rfl
theorem FrameShape.fuseProgrammingDone (ok : Bool) : FrameShape.Statement (.fuseProgrammingDone ok) := frameShape_of rfl
theorem FrameShape.dieCapTimeout (site : Nat) : FrameShape.Statement (.dieCapTimeout site) := frameShape_of rfl
theorem FrameShape.atticLinkUp (site : Nat) (linkB : Bool) : FrameShape.Statement (.atticLinkUp site linkB) := frameShape_of rfl
theorem FrameShape.sgmiiLinkChange (up : Bool) : FrameShape.Statement (.sgmiiLinkChange up) := frameShape_of rfl

end Sys2Proof.Laws
end

