-- ==== Sys2Proof/Tests/Slice0.lean ====
section
/-! SUPPORT. Small tests of one step each, witnesses of the statements' hypotheses, and ill-formed commands that the
checks of WellFormed refuse.  Expected values are worked out from the rules. -/
namespace Sys2Proof.Tests
open Sys2Proof Sys2Proof.Machine
set_option Elab.async false

/-! ### Builders -/

/-- The next state that an outcome gives. -/
def nextOf (o : Host.Outcome State Fault Refusal) : State := match o with | .next t => t | _ => State.reset

/-- The outcome is a next state. -/
def isNext (o : Host.Outcome State Fault Refusal) : Bool := match o with | .next _ => true | _ => false

/-- A READY hub with one cellar, one shelf and one quadrant, its host link up. -/
def rdy : State :=
  { State.reset with boot := { State.reset.boot with
      stage := .ready, coldResetLow := false, hostUp := true,
      presentCellars := 1, presentCores := [(0, 2 ^ 64 - 1)], presentShelves := 1, presentEngines := 1, presentQuadrants := 1,
      quadrantMap := [0], cellarPhys := [(0, 0)], atticResetLow := 0, atticRails := 0xFF } }

/-- A TAKEN command on a device mailbox. -/
def tk (op : Nat) (req : Bytes) : Taken := { hdr := { opcode := op, tag := 7 }, req := req }

/-- `s` with that command in mailbox 0. -/
def withCmd (s : State) (t : Taken) : State :=
  { s with cp := { s.cp with chans := tset s.cp.chans 0 { state := .taken, session := true, taken := some t, owner := t.ctx } } }

/-- The READY hub with a command in mailbox 0. -/
def at0 (op : Nat) (req : Bytes) : State := withCmd rdy (tk op req)

/-- The completion code in the window of mailbox 0. -/
def code0 (o : Host.Outcome State Fault Refusal) : Nat := (((chanOf (nextOf o) 0).window).map (·.code)).getD 0xFFFFFFFF

/-- Two words of 64 bits. -/
def words (a b : Nat) : Bytes := leBytes 8 a ++ leBytes 8 b

/-! ### 02: the time base -/

theorem witness_timeQuery : runs (at0 0x0800 []) 0 0x0800 (tk 0x0800 []) ∧
    runs (withCmd rdy { tk 0x0800 [] with ctx := 1 }) 0 0x0800 { tk 0x0800 [] with ctx := 1 } := by
  (repeat' apply And.intro) <;> decide +kernel

theorem witness_timePeriodSet_shortest : runs (at0 0x0801 (words 4 1024000)) 0 0x0801 (tk 0x0801 (words 4 1024000)) ∧
    periodSetRefused rdy.time 0 4 1024000 0 = none := by
  (repeat' apply And.intro) <;> decide +kernel

theorem witness_timePeriodSet_longest : runs (at0 0x0801 (words 512 16384000)) 0 0x0801 (tk 0x0801 (words 512 16384000)) ∧
    periodSetRefused rdy.time 0 512 16384000 0 = none := by
  (repeat' apply And.intro) <;> decide +kernel

theorem test_timePeriodSet : (nextOf (exec (.timePeriodSet 0) (at0 0x0801 (words 4 1024000)))).time.pendingSteps = 4 ∧
    code0 (exec (.timePeriodSet 0) (at0 0x0801 (words 4 1024000))) = 0 := by decide +kernel

theorem witness_timeRoleSet : runs (at0 0x0802 (words 2 0)) 0 0x0802 (tk 0x0802 (words 2 0)) ∧
    bbits (words 2 0) 0 2 ≠ 3 ∧ bbits (words 2 0) 19 13 = 0 := by (repeat' apply And.intro) <;> decide +kernel

theorem witness_timeBackgroundSet : runs (at0 0x0803 (words 1 0)) 0 0x0803 (tk 0x0803 (words 1 0)) ∧
    bbits (words 1 0) 1 63 = 0 := by (repeat' apply And.intro) <;> decide +kernel

/-- Periods just outside the range, a pending change for another time, and effective times on either side of the window. -/
theorem witness_timePeriodSet_refusals :
    (3 < 4 ∧ bbits (words 3 0) 0 10 = 3) ∧ (512 < 513 ∧ bbits (words 513 0) 0 10 = 513) ∧
    periodSetRefused { rdy.time with changePending := true, changeTime := 2048000 } 0 64 4096000 0 = some .timePendingConflict ∧
    periodSetRefused rdy.time 1 64 (32 * 32000) 0 = some .timeBadEffective ∧
    periodSetRefused rdy.time 0 32 0 0 = some .timeBadEffective ∧
    periodSetRefused rdy.time 0 32 ((2 ^ 32 / 1024000 + 1) * 1024000) 0 = some .timeBadEffective := by decide +kernel

/-- A TIME_ROLE_SET whose DONE comes later: before and after its commit. -/
def lateRole (ended : Bool) : Taken := { tk 0x0802 (words 2 0) with
  lateDone := true, ended := (if ended then some (.ok, 0, []) else none), commitSeq := (if ended then some 3 else none) }

theorem witness_lateDone : takenCmd (withCmd rdy (lateRole false)) 0 0x0802 = some (lateRole false) ∧
    (chanOf (withCmd rdy (lateRole false)) 0).abortRequested = false ∧ (lateRole false).ended = none ∧
    takenCmd (withCmd rdy (lateRole true)) 0 0x0802 = some (lateRole true) ∧
    (lateRole true).ended = some (.ok, 0, []) := by (repeat' apply And.intro) <;> decide +kernel

theorem test_lateDone : (chanOf (nextOf (exec (.timeRoleSet 0) (withCmd rdy (lateRole false)))) 0).state = .taken ∧
    (((chanOf (nextOf (exec (.timeRoleSet 0) (withCmd rdy (lateRole true)))) 0).window).map (·.commitSeq)) = some 3 := by
  decide +kernel

theorem test_timePeriodSet_short : code0 (exec (.timePeriodSet 0) (at0 0x0801 (words 3 1024000))) = statusCode .badField := by
  decide +kernel

theorem test_timeQuery : (((chanOf (nextOf (exec (.timeQuery 0) (at0 0x0800 []))) 0).window).map (fun r => bits r.result 0 64))
    = some 0 := by decide +kernel

theorem test_timeRoleSet : (nextOf (exec (.timeRoleSet 0) (at0 0x0802 (leBytes 8 (2 + 0x55 * 4))))).time.roleSet
    = some ⟨2, 0x55, false, 0, 0⟩ := by decide +kernel

theorem test_timeBackgroundSet : (nextOf (exec (.timeBackgroundSet 0) (at0 0x0803 (leBytes 8 0)))).time.backgroundSet
    = some false := by decide +kernel

/-- A running hub in fret 62 and one past its first boundary. -/
def inFret : State := { rdy with time := { rdy.time with fret := 62, strumCount := 1, boundaryTime := 1024000, now := 1024000 } }

theorem witness_boundary : rdy.boot.stopped = false ∧ rdy.boot.coldResetLow = false ∧ rdy.boot.stage = .ready ∧
    rdy.time.stepPending = none ∧ inFret.boot.stopped = false ∧ inFret.boot.coldResetLow = false ∧
    inFret.boot.stage = .ready ∧ inFret.time.fret < 63 ∧ 0 < inFret.time.strumCount := by decide +kernel

theorem test_strumBoundary : (nextOf (exec .strumBoundary rdy)).time.now = 1024000 ∧
    (nextOf (exec .strumBoundary rdy)).time.strumCount = 1 := by decide +kernel

/-- A follower of the master 9 on engine 0, an Ethernet-mode engine 1, and a device in HOLDOVER. -/
def follower : State := { rdy with
  time := { rdy.time with tstate := .locked, selEngine := 0, gmId := 9, fallback := false,
                          links := [(0, { cand := some { gmId := 9, gmClass := 1, period := 32 } })] } }
def ethEngine : State := { rdy with
  link := { rdy.link with engines := [(1, { estate := .up, mode := 2, ethUp := 1 })] }
  time := { rdy.time with ethPtpEn := true, ptp := { rdy.time.ptp with t1 := some 100, t2 := 130, t3 := some 150, delaySeq := 7 } } }
def delayResp : PtpIn := { kind := .delayResp, seq := 7, time := 160 }
def holding : State := { rdy with time := { rdy.time with tstate := .holdover } }

theorem witness_masterLost : follower.time.selEngine = 0 ∧ follower.time.tstate = .locked ∧
    bestLink (candidateLinks { follower.time with links := tmod follower.time.links 0 {} (fun l => { l with cand := none }) })
      follower.time.gmId = none ∧ follower.time.selEngine ≠ 1 ∧ holding.time.tstate = .holdover ∧
    (engineOf ethEngine 1).estate = .up ∧ isEthernet (engineOf ethEngine 1) = true ∧ ethEngine.time.ethPtpEn = true ∧
    ethEngine.time.role ≠ 2 ∧
    0 = ethEngine.time.ptpDomain ∧ delayResp.seq = ethEngine.time.ptp.delaySeq ∧
    ethEngine.time.ptp.t1 = some 100 ∧ ethEngine.time.ptp.t3 = some 150 := by decide +kernel

/-- The delay request-response mechanism on the Sync of 100 met at 130 and the Delay_Req of 150 met at 160: the offset is
(10 - 30) / 2. -/
theorem test_ptpMessage : (nextOf (exec (.ptpMessage 1 delayResp 0) ethEngine)).time.referenced = true ∧
    (nextOf (exec (.ptpMessage 1 delayResp 0) ethEngine)).time.offset = -10 := by decide +kernel

theorem test_timeWordTimeout : (nextOf (exec (.timeWordTimeout 0) follower)).time.tstate = .holdover ∧
    (nextOf (exec (.timeWordTimeout 0) follower)).time.fallback = true := by decide +kernel

theorem test_holdoverTimeout : (nextOf (exec .holdoverTimeout holding)).time.tstate = .degraded := by decide +kernel

theorem witness_timeLegal : timeLegal rdy ∧ isNext (step { rdy with pending := [.holdoverTimeout] }) = true ∧
    timeLegal { rdy with pending := [.holdoverTimeout] } := by (repeat' apply And.intro) <;> decide +kernel

theorem witness_stepFront : ({ rdy with pending := [.nop {}, .fretEdge] } : State).pending = [.nop {}, .fretEdge] := rfl

theorem witness_emptyQueue : rdy.pending = [] ∧ rdy.boot.coldResetLow = false ∧ rdy.time.now + 1 < nextEdge rdy.time ∧
    (∀ e, e < 12 → (engineOf rdy e).estate ≠ .training ∧ (engineOf rdy e).estate ≠ .up) ∧
    State.reset.pending = [] ∧ State.reset.boot.coldResetLow = true := by decide +kernel

theorem test_tick : (nextOf (step rdy)).time.now = 1 ∧ (nextOf (step State.reset)).time.now = 0 := by decide +kernel

/-! ### 03: mailboxes and event queues -/

/-- Mailbox `m` in a state, with the command `t` when it is TAKEN. -/
def mbIn (m : Nat) (st : MbState) : State :=
  { rdy with cp := { rdy.cp with chans := [(m, { state := st, session := true, taken := some (tk 0x0800 []),
                                                  req := [(0, 0x00#8), (1, 0x08#8)], ignored := 0xFFFF })] } }

/-- A posted write into the BAR2 window is still on its way. -/
def writesOut : State := { mbIn 63 .free with mem := { rdy.mem with txns := [(1, { client := .hostWrite })] } }

theorem witness_hostCaughtUp : hostCaughtUp (mbIn 63 .free) ∧ hostCaughtUp (mbIn 63 .done) ∧ hostCaughtUp (mbIn 63 .posted) ∧
    hostCaughtUp (mbIn 63 .taken) ∧ hostReaches writesOut = true ∧ hostWritesOut writesOut = true := by
  (repeat' apply And.intro) <;> decide +kernel

theorem test_heldDoorbell : (chanOf (nextOf (exec (.doorbellPost 63) writesOut)) 63).state = .free ∧
    (nextOf (exec (.doorbellPost 63) writesOut)).mem.heldDoorbells = [(0x13FF48, 8, 1)] := by decide +kernel

theorem witness_doorbells : hostReaches (mbIn 63 .free) = true ∧ (chanOf (mbIn 63 .free) 63).state = .free ∧
    (chanOf (mbIn 63 .posted) 63).state = .posted ∧ (chanOf (mbIn 63 .taken) 63).state = .taken ∧
    (chanOf (mbIn 63 .done) 63).state = .done ∧ hostReaches (mbIn 63 .posted) = true ∧ hostReaches (mbIn 63 .taken) = true ∧
    hostReaches (mbIn 63 .done) = true := by decide +kernel

theorem test_doorbellPost : (chanOf (nextOf (exec (.doorbellPost 63) (mbIn 63 .free))) 63).state = .posted ∧
    (chanOf (nextOf (exec (.doorbellPost 63) (mbIn 63 .taken))) 63).ignored = 0xFFFF := by decide +kernel

theorem test_doorbellAbort : ((chanOf (nextOf (exec (.doorbellAbort 63) (mbIn 63 .posted))) 63).window).map (·.code) = some 2 ∧
    (chanOf (nextOf (exec (.doorbellAbort 63) (mbIn 63 .taken))) 63).abortRequested = true := by decide +kernel

theorem test_doorbellRelease : (chanOf (nextOf (exec (.doorbellRelease 63) (mbIn 63 .done))) 63).state = .free := by
  decide +kernel

theorem test_doorbellIgnoredAction : (chanOf (nextOf (exec (.doorbellIgnoredAction 0 0xFF) rdy)) 0).ignored = 1 := by
  decide +kernel

theorem witness_take : bootServes (mbIn 0 .posted) = false ∧ isReady (mbIn 0 .posted) = true ∧
    domainOn (mbIn 0 .posted) 101 = true ∧ (mbIn 0 .posted).cp.stopTaking = false ∧ takenCount (mbIn 0 .posted) < 8 ∧
    nextPosted (mbIn 0 .posted) = some 0 ∧
    (hdrOf (areaBytes (chanOf (mbIn 0 .posted) 0).req 0 64)).opcode = 0x0800 ∧
    (hdrOf (areaBytes (chanOf (mbIn 0 .posted) 0).req 0 64)).reqByRef = false ∧
    (hdrOf (areaBytes (chanOf (mbIn 0 .posted) 0).req 0 64)).authRef = 0 ∧
    earlyChecks (mbIn 0 .posted) 0 (hdrOf (areaBytes (chanOf (mbIn 0 .posted) 0).req 0 64)) (some []) = none ∧
    stateChecks (mbIn 0 .posted) 0 { hdr := hdrOf (areaBytes (chanOf (mbIn 0 .posted) 0).req 0 64) } = none ∧
    (chanOf (mbIn 0 .posted) 0).owner = 0 ∧ (mbIn 0 .posted).time.now = 0 ∧
    areaBytes (chanOf (mbIn 0 .posted) 0).req 0x40 (min (hdrOf (areaBytes (chanOf (mbIn 0 .posted) 0).req 0 64)).reqLen 3008) = [] ∧ needsOwner 0x0800 = false := by decide +kernel

/-- The same mailbox without a session. -/
def noSession : State := { mbIn 0 .posted with
  cp := { (mbIn 0 .posted).cp with chans := [(0, { state := .posted, req := [(0, 0x00#8), (1, 0x08#8)] })] } }

theorem witness_takeNoSession : (chanOf noSession 0).session = false ∧ nextPosted noSession = some 0 ∧
    (hdrOf (areaBytes (chanOf noSession 0).req 0 64)).opcode ≠ 1 := by decide +kernel

theorem test_cpTakeMailbox : (chanOf (nextOf (exec (.cpTakeMailbox {}) (mbIn 0 .posted))) 0).state = .taken ∧
    ((chanOf (nextOf (exec (.cpTakeMailbox {}) noSession)) 0).window).map (·.code) = some 3 := by decide +kernel

/-- HELLO offers of 1.0 and of 2.0 alone. -/
def offer1 : Bytes := leBytes 8 (1 + 0x100 * 2 ^ 32) ++ leBytes 8 0
def offer2 : Bytes := leBytes 8 (1 + 0x200 * 2 ^ 32) ++ leBytes 8 0

theorem witness_hello : runs (at0 1 offer1) 0 1 (tk 1 offer1) ∧ helloWellFormed offer1 = true ∧
    (helloPairs offer1).any (fun p => p.1 == 1) = true ∧ runs (at0 1 offer2) 0 1 (tk 1 offer2) ∧
    helloWellFormed offer2 = true ∧ (helloPairs offer2).any (fun p => p.1 == 1) = false := by (repeat' apply And.intro) <;> decide +kernel

theorem test_hello : code0 (exec (.hello 0) (at0 1 offer1)) = 0 ∧
    code0 (exec (.hello 0) (at0 1 offer2)) = statusCode .versionMismatch := by decide +kernel

/-- A hub with PASID 5 bound to the device context, and an EQ_CREATE request of the least and the greatest size. -/
def bound5 : State := { rdy with trans := { rdy.trans with bindings := [(5, { profile := { bits := [9] } })] } }
def eqReq (log2 : Nat) : Bytes := leBytes 16 (0x10000 + 5 * 2 ^ 64 + log2 * 2 ^ 88 + 3 * 2 ^ 96) ++ leBytes 16 0

theorem witness_eqCreate : runs (withCmd bound5 (tk 0x10 (eqReq 6))) 0 0x10 (tk 0x10 (eqReq 6)) ∧
    eqCreateRefused (withCmd bound5 (tk 0x10 (eqReq 6))) (tk 0x10 (eqReq 6)) = none ∧
    eqCreateRefused (withCmd bound5 (tk 0x10 (eqReq 16))) (tk 0x10 (eqReq 16)) = none ∧
    bbits (eqReq 6) 144 1 = 0 := by (repeat' apply And.intro) <;> decide +kernel

theorem test_eqCreate : (eqOf (nextOf (exec (.eqCreate 0) (withCmd bound5 (tk 0x10 (eqReq 6))))) 0).state = .active ∧
    (eqOf (nextOf (exec (.eqCreate 0) (withCmd bound5 (tk 0x10 (eqReq 6))))) 0).vector = 3 ∧
    code0 (exec (.eqCreate 0) (withCmd bound5 (tk 0x10 (eqReq 5)))) = statusCode .badField := by decide +kernel

/-- A hub with queue 511, ACTIVE, of 64 entries with one record waiting, and an accepted EQ_DESTROY. -/
def queued : State := { bound5 with cp := { rdy.cp with
    eqs := [(511, { state := .active, base := 0x10000, pasid := 5, log2Size := 6, waiting := [{ kind := .event }], arm := true, sinceMsg := 1,
                    consumer := 2 ^ 32 - 1, producer := 0 })]
    msix := [(0, { masked := false, addr := 0x100, data := 9 }), (1, { masked := true, pendingBit := true })]
    asyncs := [{ seq := 4, opcode := 0x11 }] } }

theorem witness_eqDestroy : runs (withCmd queued (tk 0x11 (leBytes 8 511))) 0 0x11 (tk 0x11 (leBytes 8 511)) ∧
    bbits (leBytes 8 511) 9 55 = 0 ∧ (eqOf (withCmd queued (tk 0x11 (leBytes 8 511))) 511).state ≠ .none ∧
    (eqOf (withCmd queued (tk 0x11 (leBytes 8 511))) 511).owner = 0 ∧
    eqUsers (withCmd queued (tk 0x11 (leBytes 8 511))) 511 = 0 ∧
    ((asyncOf queued 4).map (·.opcode)) = some 0x11 := by (repeat' apply And.intro) <;> decide +kernel

theorem test_eqDestroy : (eqOf (nextOf (exec (.eqDestroy 0) (withCmd queued (tk 0x11 (leBytes 8 511))))) 511).state = .none ∧
    code0 (exec (.eqDestroy 0) (withCmd queued (tk 0x11 (leBytes 8 511)))) = 1 := by decide +kernel

theorem test_eqDestroyDrained : (asyncOf (nextOf (exec (.eqDestroyDrained 4) queued)) 4).isNone = true := by decide +kernel

/-- The indices wrap: the consumer stands at the last value and the producer at 0, one record after it. -/
theorem witness_consumerWrite : hostReaches queued = true ∧ queued.mem.heldDoorbells = [] ∧
    idxDiff (eqOf queued 511).producer (eqOf queued 511).consumer < idxDiff (1 % 2 ^ 32) (eqOf queued 511).consumer ∧
    idxDiff (0 % 2 ^ 32) (eqOf queued 511).consumer ≤ idxDiff (eqOf queued 511).producer (eqOf queued 511).consumer := by
  decide +kernel

theorem test_eqConsumerWrite : (eqOf (nextOf (exec (.eqConsumerWrite 511 1 false) queued)) 511).consumer = 2 ^ 32 - 1 ∧
    (eqOf (nextOf (exec (.eqConsumerWrite 511 0 false) queued)) 511).consumer = 0 := by decide +kernel

theorem witness_eqTraffic : (eqOf queued 511).state = .active ∧ queued.boot.stopped = false ∧ hostSilent queued = false ∧
    slotReachable queued (eqOf queued 511) = true ∧ (eqOf queued 511).dropped = 0 ∧
    (eqOf queued 511).waiting = [{ kind := .event }] ∧ eqFull (eqOf queued 511) = false ∧
    (eqOf queued 511).arm = true ∧ 0 < (eqOf queued 511).sinceMsg ∧ (tget queued.cp.msix 0 {}).masked = false ∧
    (tget queued.cp.msix 1 {}).pendingBit = true := by decide +kernel

theorem test_eqRecordWrite : (eqOf (nextOf (exec (.eqRecordWrite 511 true) queued)) 511).producer = 1 := by decide +kernel

theorem test_eqCoalesceTimer : (nextOf (exec (.eqCoalesceTimer 511) queued)).out = [.msix 0 0x100 9] := by decide +kernel

theorem test_msixTableWrite : (nextOf (exec (.msixTableWrite 1 3 0) queued)).out = [.msix 1 0 0] ∧
    (tget (nextOf (exec (.msixTableWrite 2047 2 5) queued)).cp.msix 2047 {}).data = 5 := by decide +kernel

/-! ### 04 and 05: kernel instructions -/

/-- The READY hub with step 0 running on core 0 under a kernel of 16 registers and 3 units of scratch, and its group 0. -/
def kst (g : Group) : State := { rdy with
  cells := { rdy.cells with cores := [(0, { groups := [(0, g)], step := some 0, scratchUnits := 3 })] }
  larder := { rdy.larder with steps := [(0, { phase := .running, image := 1, heldCellars := [0], coreMask := 1 })] }
  part := { rdy.part with images := [(1, { part := 0, words := 64, kernels := [(16, 3, 0)], loaded := true })] } }

/-- Threads 0 and 63 live; v2 = 5, v4 = 2^32 - 1 and v6 = 2 in both, v8 = 1 as the low word of a pair in thread 0. -/
def g2 : Group :=
  { exited := 2 ^ 63 - 2
    regs := [(128, 5), (191, 5), (256, 0xFFFFFFFF), (319, 0xFFFFFFFF), (384, 2), (447, 2), (512, 1)] }

/-- Thread 0 alone. -/
def g1 : Group := { exited := 2 ^ 64 - 2, regs := [(128, 5), (256, 0xFFFFFFFF), (384, 2)] }

/-- The value of a register of thread 0 of group 0 of core 0. -/
def reg0 (o : Host.Outcome State Fault Refusal) (r : Nat) : Nat := regRead ((groupOf (nextOf o) 0 0).getD {}) r 0

/-- The PC of thread `t` there. -/
def pc0 (o : Host.Outcome State Fault Refusal) (t : Nat) : Nat := threadPc ((groupOf (nextOf o) 0 0).getD {}) t

theorem witness_issue : (({} : Issue).pred < 8) ∧ stays g2 {} [0, 63] [] ∧
    issues (kst g2) {} [8, 2, 4, 6] [3] noWait g2 [0, 63] [] ∧ issues (kst g2) {} [] [] noWait g2 [0, 63] [] ∧
    regsOk (declaredRegs (kst g2) 0) [15, 255] = true ∧ pairsOk (declaredRegs (kst g2) 0) [14, 255] = true := by
  (repeat' apply And.intro) <;> decide +kernel

/-- Under the guard p0, set in thread 63 alone, thread 0 passes by. -/
theorem witness_issue_guarded : stays { g2 with preds := [(0, 2 ^ 63)] } { pred := 0 } [63] [0] ∧
    issues (kst { g2 with preds := [(0, 2 ^ 63)] }) { pred := 0 } [8, 2] [] noWait { g2 with preds := [(0, 2 ^ 63)] } [63] [0] := by
  (repeat' apply And.intro) <;> decide +kernel

theorem witness_kernelForms : dataOk (declaredRegs (kst g2) 0) 14 8 = true ∧ 3 < perRegister .fp8e4m3 ∧
    (2 ^ 32 - 1 : Nat) < 2 ^ 32 := by decide +kernel

theorem test_intOp : reg0 (exec (.intOp {} (.op .add) false 8 4 6 255) (kst g1)) 8 = 1 ∧
    reg0 (exec (.intOp {} (.op .mulHiS) false 8 4 6 255) (kst g1)) 8 = 0xFFFFFFFF ∧
    reg0 (exec (.intOp {} (.op .mad) false 255 4 6 2) (kst g1)) 255 = 0 := by decide +kernel

/-- 1.0 + 1.0 = 2.0 in binary32. -/
theorem test_fpOp : reg0 (exec (.fpOp {} (.op .add) 8 2 2 255) (kst { g1 with regs := [(128, 0x3F800000)] })) 8
    = 0x40000000 := by decide +kernel

/-- binary32 1.0 is 0x3F80 in BF16, put at element 1. -/
theorem test_cvt : reg0 (exec (.cvt {} .fp32 .bf16 8 2 0 1) (kst { g1 with regs := [(128, 0x3F800000)] })) 8
    = 0x3F800000 := by decide +kernel

theorem test_mov : reg0 (exec (.mov {} 15 (.imm 0xFFFFFFFF)) (kst g1)) 15 = 0xFFFFFFFF ∧
    reg0 (exec (.mov {} 8 (.reg 2)) (kst g1)) 8 = 5 := by decide +kernel

theorem test_specialRead : reg0 (exec (.specialRead {} 8 .thread) (kst g1)) 8 = 0 := by decide +kernel

theorem test_nop : pc0 (exec (.nop {}) (kst g2)) 63 = 1 := by decide +kernel
theorem test_yield : pc0 (exec (.yield {}) (kst g2)) 0 = 1 := by decide +kernel

/-- At word 4 a branch of -4 goes to word 0. -/
theorem witness_bra : ((4 : Nat) : Int) + (-4) = ((0 : Nat) : Int) ∧ leavesRegion { g1 with entry := 4 } [0] (fun _ => 0) = false ∧
    leavesRegion { g1 with entry := 4 } [] (fun _ => 5) = false ∧
    issues (kst { g1 with entry := 4 }) { pc := 4 } [] [] noWait { g1 with entry := 4 } [0] [] := by
  (repeat' apply And.intro) <;> decide +kernel

theorem test_bra : pc0 (exec (.bra { pc := 4 } (-4)) (kst { g1 with entry := 4 })) 0 = 0 ∧
    pc0 (exec (.bra { pc := 4 } 9) (kst { g1 with entry := 4 })) 0 = 13 := by decide +kernel

theorem witness_brx : tableOk (kst g1) {} 2 [0, 5] = true ∧ issues (kst g1) {} [6] [] noWait g1 [0] [] ∧
    nth [0, 5] (if regRead g1 6 0 < 2 then regRead g1 6 0 else 0) (0 : Int) = 0 := by
  (repeat' apply And.intro) <;> decide +kernel

/-- Index 2 of a table of two entries takes entry 0 (04 R97). -/
theorem test_brx : pc0 (exec (.brx {} 6 2 [0, 5]) (kst g1)) 0 = 2 ∧
    pc0 (exec (.brx {} 6 2 [0, 5, 7]) (kst g1)) 0 = 9 := by decide +kernel

/-- Both threads recorded in slot 7, and both there or one of them elsewhere. -/
theorem witness_join : tget g2.joins 7 0 = 0 ∧ tget ({ g2 with joins := [(7, 2 ^ 63 + 1)] } : Group).joins 7 0 ≠ 0 ∧
    joinWaiters { g2 with joins := [(7, 2 ^ 63 + 1)] } 7 = [] ∧
    (∀ u, u < 64 → bitAt (2 ^ 63 + 1) u = true → bitAt g2.exited u = true ∨ u ∈ [0, 63]) ∧
    ¬(∀ u, u < 64 → bitAt (2 ^ 63 + 1) u = true → bitAt g2.exited u = true ∨ u ∈ [0]) ∧
    issues (kst { g2 with joins := [(7, 2 ^ 63 + 1)], pcs := [(63, 9)] }) {} [] [] noWait
      { g2 with joins := [(7, 2 ^ 63 + 1)], pcs := [(63, 9)] } [0] [] := by
  (repeat' apply And.intro) <;> decide +kernel

theorem test_split : tget ((groupOf (nextOf (exec (.split {} 7) (kst g2))) 0 0).getD {}).joins 7 0 = 2 ^ 63 + 1 := by
  decide +kernel

theorem test_join : pc0 (exec (.join {} 7) (kst { g2 with joins := [(7, 2 ^ 63 + 1)] })) 63 = 1 ∧
    pc0 (exec (.join {} 7) (kst { g2 with joins := [(7, 2 ^ 63 + 1)], pcs := [(63, 9)] })) 0 = 0 := by decide +kernel

theorem witness_exit : g2.region = none ∧ (∀ j, j < 8 → tget g2.joins j 0 = 0) := by decide +kernel

theorem test_exit : ((groupOf (nextOf (exec (.exit {}) (kst g2))) 0 0).getD {}).exited = 2 ^ 64 - 1 := by decide +kernel

/-- The mask VZ names all 64 members; with thread 63 elsewhere the members are not all there. -/
theorem witness_crossLane : pairsOk (declaredRegs (kst g2) 0) [255] = true ∧
    (∀ u, u ∈ [0, 63] → gathered g2 (memberMask g2 255 u) [0, 63] = true) ∧ shflOk (kst g2) {} {} 8 2 6 255 = true ∧
    issues (kst g2) {} ([8, 2, 6] ++ pairRegs 255) [] gatherWait g2 [0, 63] [] ∧
    issues (kst g2) {} (pairRegs 255) [0, 7] gatherWait g2 [0, 63] [] ∧
    issues (kst g2) {} (pairRegs 10 ++ pairRegs 12 ++ pairRegs 255) [] gatherWait g2 [0, 63] [] ∧
    (∀ u, u ∈ [0] → gathered { g2 with pcs := [(63, 9)] } (memberMask { g2 with pcs := [(63, 9)] } 255 u) [0] = false) ∧
    issues (kst { g2 with pcs := [(63, 9)] }) {} ([8, 2, 6] ++ pairRegs 255) [] gatherWait { g2 with pcs := [(63, 9)] } [0] [] := by
  (repeat' apply And.intro) <;> decide +kernel

/-- Two threads 0 and 1 that hold 10 and 11 in v2. -/
def lanes2 : Group := { exited := 2 ^ 64 - 4, regs := [(128, 10), (129, 11)], preds := [(0, 1)] }

theorem test_shflIdx : reg0 (exec (.shflIdx {} { imm := some 1 } 8 2 255 255) (kst lanes2)) 8 = 11 := by decide +kernel
theorem test_shflUp : reg0 (exec (.shflUp {} { imm := some 1 } 8 2 255 255) (kst lanes2)) 8 = 10 := by decide +kernel
theorem test_shflDown : reg0 (exec (.shflDown {} { imm := some 1 } 8 2 255 255) (kst lanes2)) 8 = 11 := by decide +kernel
theorem test_shflXor : reg0 (exec (.shflXor {} { imm := some 1, seg := 1 } 8 2 255 255) (kst lanes2)) 8 = 11 := by decide +kernel

/-- The value of predicate `p` of thread 0. -/
def pred0 (o : Host.Outcome State Fault Refusal) (p : Nat) : Bool := predRead ((groupOf (nextOf o) 0 0).getD {}) p 0

theorem test_voteAll : pred0 (exec (.voteAll {} 3 0 false 255) (kst lanes2)) 3 = false := by decide +kernel
theorem test_voteAny : pred0 (exec (.voteAny {} 3 0 false 255) (kst lanes2)) 3 = true := by decide +kernel
theorem test_voteBallot : reg0 (exec (.voteBallot {} 8 0 true 255) (kst lanes2)) 8 = 2 := by decide +kernel
theorem test_match32 : reg0 (exec (.match32 {} 8 2 255) (kst lanes2)) 8 = 1 := by decide +kernel
theorem test_match64 : reg0 (exec (.match64 {} 8 10 255) (kst lanes2)) 8 = 3 := by decide +kernel

/-- Whether a result meets the limit of R126: 1/3 and 2^0.5 and their neighbours, log2 1, sin 314. -/
def meetsAt (op x r : Nat) : Option Bool := match f32 x with | .fin n m e => (exactly op n m e).map (meets op r) | _ => none

theorem test_transcendentalLimits : meetsAt 0 0x40400000 0x3EAAAAAB = some true ∧ meetsAt 0 0x40400000 0x3EAAAAAD = some false ∧
    meetsAt 2 0x3F000000 0x3FB504F3 = some true ∧ meetsAt 2 0x3F000000 0x3FB504F6 = some false ∧ meetsAt 3 0x3F800000 0 = some true ∧
    meetsAt 4 0x439D0000 0xBE22662E = some true ∧ meetsAt 4 0x439D0000 0x3E22662E = some false := by decide +kernel

/-- Threads 0 and 1 with the address 0x40 of shelf 0 in the pair v10 and the operand 3 in v6. -/
def atomG : Group := { exited := 2 ^ 64 - 4, regs := [(384, 3), (385, 3), (640, 0x40), (641, 0x40)] }

theorem witness_atomics : stays atomG {} [0, 1] [] ∧ atomFormOk (kst atomG) .add {} {} 8 10 6 vz = true ∧
    atomFormOk (kst atomG) .cas {} { atype := .u64, ret := true } 8 10 6 4 = true ∧ releaseScope .relaxed .device = none ∧
    (∀ op ∈ [AtomOp.add, .min, .max, .and, .or, .xor, .exch, .inc], atomFormOk (kst atomG) op {} {} 8 10 6 vz = true ∧
      atomRegs op {} 8 10 6 vz = atomRegs .add {} 8 10 6 vz) ∧
    issues (kst atomG) {} (acquireReg :: atomRegs .add {} 8 10 6 vz) [] noWait atomG [0, 1] [] ∧
    issues (kst atomG) {} (acquireReg :: atomRegs .cas { atype := .u64, ret := true } 8 10 6 4) [({} : AtomForm).pdst] noWait atomG [0, 1] [] ∧
    (∀ l, l ∈ atomLanes atomG .add .u32 10 6 vz [0, 1] →
      coreRefusal (passed (kst atomG) {} atomG []) 0 true l.addr (atomBytes .u32) = none) := by
  (repeat' apply And.intro) <;> decide +kernel

/-- Threads go on, and the lanes wait at home in one transaction. -/
theorem test_atoms_issue :
    pc0 (exec (.atomAdd {} { scope := .device } 8 10 6) (kst atomG)) 0 = 1 ∧
    pc0 (exec (.atomMin {} {} 8 10 6) (kst atomG)) 1 = 1 ∧ pc0 (exec (.atomMax {} {} 8 10 6) (kst atomG)) 1 = 1 ∧
    pc0 (exec (.atomAnd {} {} 8 10 6) (kst atomG)) 1 = 1 ∧ pc0 (exec (.atomOr {} {} 8 10 6) (kst atomG)) 1 = 1 ∧
    pc0 (exec (.atomXor {} {} 8 10 6) (kst atomG)) 1 = 1 ∧ pc0 (exec (.atomExch {} {} 8 10 6) (kst atomG)) 1 = 1 ∧
    pc0 (exec (.atomCas {} {} 8 10 6 4) (kst atomG)) 1 = 1 ∧ pc0 (exec (.atomInc {} {} 8 10 6) (kst atomG)) 1 = 1 := by
  decide +kernel

/-- Three CAS threads on a location that holds 5: the second and third compare with 5, and the second wins. -/
theorem test_cas_first_wins : (atomRun .cas .u32 (fun _ => 5)
    [⟨0, 64, 4, 1⟩, ⟨1, 64, 5, 2⟩, ⟨2, 64, 5, 3⟩]).2.2 = [1] := by decide +kernel

/-- INC wraps to 0 at its bound: three threads with bound 1 on a location that holds 0 read 0, 1 and 0. -/
theorem test_inc_wraps : ((atomRun .inc .u32 (fun _ => 0)
    [⟨0, 64, 1, 0⟩, ⟨1, 64, 1, 0⟩, ⟨2, 64, 1, 0⟩]).2.1).map (·.2) = [0, 1, 0] := by decide +kernel

/-- A group of one thread, whose v10 names peg 255 and v2 holds 5, and that peg. -/
def pegG : Group := { exited := 2 ^ 64 - 2, regs := [(128, 5), (640, 255)] }
def pegSt (p : Peg) : State :=
  { kst pegG with cells := { (kst pegG).cells with pegs := [(255, p)] } }

/-- Peg 511 of cellar 1, and a port of cellar 0 with no budget left. -/
def farPegG : Group := { pegG with regs := [(128, 5), (640, 511)] }
def farPegSt : State :=
  { kst farPegG with
      boot := { rdy.boot with presentCellars := 3, cellarPhys := [(0, 0), (1, 1)] }
      reg := { rdy.reg with masters := [(0, { budget := 0 })] }
      cells := { (kst farPegG).cells with pegs := [(511, { ptype := .semaphore })] } }

theorem witness_pegHeld : stays farPegG {} [0] [] ∧ regRead farPegG 10 0 = 511 ∧
    pegAllowed farPegSt (corePartition farPegSt 0) 511 = true ∧ pegPasses farPegSt 0 511 = false ∧
    issues farPegSt {} [acquireReg, 8, 10, 2] [] noWait farPegG [0] [] ∧
    pegPasses (pegSt { ptype := .event }) 0 255 = true := by (repeat' apply And.intro) <;> decide +kernel

theorem test_pegHeld : pc0 (exec (.pegArrive {} {} 8 10 2) farPegSt) 0 = 0 ∧
    (pegOf (nextOf (exec (.pegSignal {} {} 8 10 2) farPegSt)) 511).count = 0 := by decide +kernel

theorem witness_pegs : stays pegG {} [0] [] ∧ ([0] : List Nat).head? = some 0 ∧ regRead pegG 10 0 = 255 ∧
    pegAllowed (pegSt { ptype := .barrier, target := 6 }) (corePartition (pegSt { ptype := .barrier, target := 6 }) 0) 255
      = true ∧ issues (pegSt { ptype := .barrier, target := 6 }) {} [acquireReg, 8, 10, 2] [] noWait pegG [0] [] ∧
    issues (pegSt { ptype := .semaphore, count := 5 }) {} [acquireReg, 10, 2] [7] noWait pegG [0] [] ∧
    pegMeets { ptype := .semaphore, count := 5 } 5 = some { ptype := .semaphore, count := 0 } ∧
    pegMeets { ptype := .semaphore, count := 4 } 5 = none ∧ issues (pegSt { ptype := .event }) {} [acquireReg, 10] [] noWait pegG [0] [] ∧
    issues (pegSt { ptype := .event }) {} (acquireReg :: 10 :: pairRegs 8) [] noWait pegG [0] [] := by
  (repeat' apply And.intro) <;> decide +kernel

/-- A barrier of target 5 turns at the fifth contribution, and one of target 6 does not (04 Table 4-10). -/
theorem test_pegArrive : (pegOf (nextOf (exec (.pegArrive {} {} 8 10 2) (pegSt { ptype := .barrier, target := 5 }))) 255).generation
    = 1 ∧ (pegOf (nextOf (exec (.pegArrive {} {} 8 10 2) (pegSt { ptype := .barrier, target := 6 }))) 255).count = 5 := by
  decide +kernel

theorem test_pegSignal : (pegOf (nextOf (exec (.pegSignal {} {} 8 10 2) (pegSt { ptype := .semaphore, count := 2 ^ 24 - 2 }))) 255).count
    = 2 ^ 24 - 1 ∧ reg0 (exec (.pegSignal {} {} 8 10 2) (pegSt { ptype := .semaphore, count := 9 })) 8 = 9 := by decide +kernel

theorem test_pegWait : (pegOf (nextOf (exec (.pegWait {} {} 10 2) (pegSt { ptype := .semaphore, count := 5 }))) 255).count = 0 ∧
    pc0 (exec (.pegWait {} {} 10 2) (pegSt { ptype := .semaphore, count := 4 })) 0 = 0 := by decide +kernel

theorem test_pegReset : (pegOf (nextOf (exec (.pegReset {} {} 10) (pegSt { ptype := .event, count := 1, generation := 2 ^ 14 - 1 }))) 255)
    = { ptype := .event } := by decide +kernel

theorem test_pegRead : pc0 (exec (.pegRead {} {} 8 10) (pegSt { ptype := .event, count := 1 })) 0 = 1 := by decide +kernel

/-- The boundary cases of the peg unit: one below TARGET, at TARGET, a waiter one unit short and one just served. -/
theorem witness_pegUnit : 4 + max 1 1 < 6 ∧ 6 ≤ 5 + max 1 1 ∧ (∀ w, w ∈ ([{ sb := 3 }] : List Waiter) → w.sb = 3) ∧
    (2 ^ 14 - 1 < 2 ^ 14) ∧ min (4 + max 1 1) (2 ^ 24 - 1) < 6 ∧ 5 ≤ min (4 + max 1 1) (2 ^ 24 - 1) ∧
    (tkeys (pegSt { ptype := .event }).cells.pegs).Pairwise (· < ·) := by decide +kernel

/-! Loads, stores and fences. -/

theorem witness_loads : memFormOk { bytes := 16, offset := -2048 } = true ∧ memFormOk { bytes := 1, offset := 2047 } = true ∧
    dataOk (declaredRegs (kst atomG) 0) 12 16 = true ∧
    issues (kst atomG) {} (acquireReg :: pairRegs 10 ++ dataRegs 8 4) [] noWait atomG [0, 1] [] ∧
    (∀ u, u ∈ [0, 1] → coreRefusal (acquireOpt (passed (kst atomG) {} atomG []) 0 none) 0 false (memAddr atomG {} 10 u) 4 = none) ∧
    coreRefusal (acquireOpt (passed (kst atomG) {} atomG []) 0 none) 0 false (memAddr atomG { offset := 2 ^ 30 } 10 0) 4 = none ∧
    coreRefusal (acquireOpt (passed (kst atomG) {} atomG []) 0 none) 0 false (2 ^ 48 - 3) 4 = some ecAccessError := by
  (repeat' apply And.intro) <;> decide +kernel

/-- A load whose data are there, and one that met an error. -/
def loaded (e : Option Nat) : State := { kst atomG with
  cells := { (kst atomG).cells with cores := [(0, {
    groups := [(0, atomG)], step := some 0,
    loads := [(7, { dst := 8, bytes := 4, threads := [(0, 0x40)], got := [(0x40, 0x2A#8)], error := e })] })] } }

theorem witness_loadReturn : ((tfind (coreOf (loaded none) 0).loads 7).map (·.need)) = some [] ∧
    (groupOf (loaded none) 0 0).isSome = true ∧ ((tfind (coreOf (loaded (some 3)) 0).loads 7).map (·.error)) = some (some 3) := by
  decide +kernel

theorem test_loadDataReturn : reg0 (exec (.loadDataReturn 0 7) (loaded none)) 8 = 0x2A := by decide +kernel

theorem test_ld : pc0 (exec (.ld {} {} 8 10) (kst atomG)) 1 = 1 ∧
    ((tfind (coreOf (nextOf (exec (.ld {} {} 8 10) (kst atomG))) 0).loads 1).map (·.threads)) = some [(0, 0x40), (1, 0x40)] := by
  decide +kernel

theorem test_ld_odd_pair : isNext (exec (.ld {} {} 8 11) (kst atomG)) = false := by decide +kernel

theorem witness_stores : (∀ (u : Nat), u ∈ [0, 1] → coreRefusal (passed (kst atomG) {} atomG []) 0 true (memAddr atomG {} 10 u) 4 = none) ∧
    issues (kst atomG) {} (acquireReg :: pairRegs 10 ++ dataRegs 6 4) [] noWait atomG [0, 1] [] ∧
    dataOk (declaredRegs (kst atomG) 0) 6 4 = true := by
  (repeat' apply And.intro) <;> decide +kernel

theorem test_st : pc0 (exec (.st {} {} 10 6) (kst atomG)) 1 = 1 := by decide +kernel

/-- A core with a release of the group under way whose write-back transaction 5 is done at home. -/
def releasing : State := { kst atomG with
  cells := { (kst atomG).cells with cores := [(0, {
    groups := [(0, { atomG with waits := [(0, .release 3)] })], step := some 0,
    releases := [(3, { threads := 1, txns := [5] })] })] }
  mem := { (kst atomG).mem with txns := [(5, { phase := .done })] } }

theorem witness_fences : doneRelease (coreOf (kst atomG) 0) 0 [0, 1] = none ∧
    issues (kst atomG) {} [acquireReg] [] noWait atomG [0, 1] [] ∧
    (beginRelease (passed (kst atomG) {} atomG []) 0 0 [0, 1] .device).2 = none ∧
    ((tfind (coreOf releasing 0).releases 3).map (·.done)) = some false ∧ (groupOf releasing 0 0).isSome = true ∧
    (∀ m, m ∈ [5] → (txnOf releasing m).map (·.phase) = some .done) := by
  (repeat' apply And.intro) <;> decide +kernel

theorem test_fence : pc0 (exec (.fence {} .device .release) (kst atomG)) 0 = 1 ∧
    pc0 (exec (.fence {} .cellar .acquire) (kst atomG)) 1 = 1 ∧ isNext (exec (.fence {} .device .relaxed) (kst atomG)) = false := by
  decide +kernel

theorem test_releaseWritebackAcked :
    ((tfind (coreOf (nextOf (exec (.releaseWritebackAcked 0 3) releasing)) 0).releases 3).map (·.done)) = some true := by
  decide +kernel

/-! Matrix regions. -/

/-- A region of threads 0 and 1 from word 0 to word 8. -/
def inRegion : Group := { lanes2 with region := some { first := 0, last := 8, entry := 3 } }

theorem witness_matrix : ({} : Issue).pred = 7 ∧ ({} : Issue).pneg = false ∧ pairsOk (declaredRegs (kst lanes2) 0) [255] = true ∧
    lanes2.region = none ∧ issues (kst lanes2) {} (pairRegs 255) [] beginWait lanes2 [0, 1] [] ∧
    (∀ u, u ∈ [0, 1] → memberMask lanes2 255 u = memberMask lanes2 255 (([0, 1] : List Nat).headD 0) ∧
      gathered lanes2 (memberMask lanes2 255 u) [0, 1] = true ∧ u ∈ liveMembers lanes2 255 u) ∧
    (coreOf (kst lanes2) 0).tileOwner = none ∧ (coreOf (kst lanes2) 0).regionQueue = [] := by
  (repeat' apply And.intro) <;> decide +kernel

theorem witness_regionReady : regionReady inRegion [0, 1] ∧ stays inRegion {} [0, 1] [] ∧
    issues (kst inRegion) {} [] [] matrixWait inRegion [0, 1] [] ∧ issues (kst inRegion) {} [2] [] matrixWait inRegion [0, 1] [] :=
  ⟨⟨{ first := 0, last := 8, entry := 3 }, rfl, by decide +kernel, by decide +kernel⟩, And.intro (by decide +kernel) (by decide +kernel),
    by (repeat' apply And.intro) <;> decide +kernel, by (repeat' apply And.intro) <;> decide +kernel⟩

theorem test_mregionBegin : (coreOf (nextOf (exec (.mregionBegin {} 255 (2 ^ 18 - 1)) (kst lanes2))) 0).tileOwner = some 0 := by
  decide +kernel

theorem test_mregionEnd : ((groupOf (nextOf (exec (.mregionEnd {}) (kst inRegion))) 0 0).getD {}).region = none := by
  decide +kernel

theorem test_mzero : pc0 (exec (.mzero {}) (kst inRegion)) 1 = 1 := by decide +kernel
theorem test_anchor : pc0 (exec (.anchor {} 2 true) (kst inRegion)) 1 = 1 := by decide +kernel

theorem witness_mma : mmaDefined {} = true ∧ regsOk (declaredRegs (kst inRegion) 0) [4, 6, 255] = true ∧
    issues (kst inRegion) {} [4, 6, 255] [] matrixWait inRegion [0, 1] [] ∧
    (∀ r, r ∈ mmaRanges {} (operandAt inRegion 4 0) (operandAt inRegion 6 0) (operandAt inRegion 255 0) →
      r.1 + r.2 ≤ scratchBytes (kst inRegion) 0) ∧
    scratchPoisoned (coreOf (kst inRegion) 0) (mmaMeets {} (mmaOperands (fun off => (scratchByte (coreOf (kst inRegion) 0) off).toNat)
      {} 0 0 0) 0 0 0) = false ∧ mmaDefined { zskip := true, hasMeta := true } = true ∧
    (∀ j, j < 248 → scratchByte (coreOf (kst inRegion) 0) (operandAt inRegion 6 0 + 8 + j) = 0) := by
  (repeat' apply And.intro) <;> decide +kernel

theorem witness_refusedForms : (16 : Nat) ≠ vz ∧ declaredRegs (kst g1) 0 ≤ 16 ∧ atomDefined .and .f32 = false ∧
    ({ pred := 0 } : Issue).pred ≠ 7 ∧ 11 % 2 = 1 ∧ (11 : Nat) ≠ vz := by decide +kernel

theorem test_refusedForms : isNext (exec (.mov {} 16 (.reg 2)) (kst g1)) = false ∧
    isNext (exec (.atomAnd {} { atype := .f32 } 8 10 6) (kst g1)) = false ∧ isNext (exec (.mzero { pred := 0 }) (kst g1)) = false ∧
    isNext (exec (.mov {} 16 (.imm 0)) (kst g1)) = false := by decide +kernel

/-! ### 15 and 16: partitions, images, models -/

/-- A request of `n` bytes that begins with `b`. -/
def padded (n : Nat) (b : Bytes) : Bytes := b ++ List.replicate (n - b.length) 0#8

/-- PARTITION_CREATE of cellar 0, mailbox 63 and one MEMORY region of 64 KiB at HPA 0. -/
def createReq : Bytes := padded 128 (leBytes 8 0x110 ++ leBytes 8 1 ++ leBytes 8 (2 ^ 63)) ++ leBytes 8 (2 ^ 32) ++ leBytes 8 0

theorem witness_partitionCreate : runs (at0 0x0100 createReq) 0 0x0100 (tk 0x0100 createReq) ∧
    createBad (at0 0x0100 createReq) createReq = false ∧
    (List.range 16).find? (fun q => q != 0 && (partOf (at0 0x0100 createReq) q).pstate == .none) = some 1 ∧
    createConflict (at0 0x0100 createReq) createReq = none ∧ bitAt (bbits createReq 128 64) 63 = true := by
  (repeat' apply And.intro) <;> decide +kernel

theorem test_partitionCreate : code0 (exec (.partitionCreate 0) (at0 0x0100 createReq)) = 0 ∧
    (chanOf (nextOf (exec (.partitionCreate 0) (at0 0x0100 createReq))) 63).owner = 1 ∧
    ((partOf (nextOf (exec (.partitionCreate 0) (at0 0x0100 createReq))) 1).regions.map (·.length)) = [1] := by decide +kernel

/-- A hub with partition 15, which holds cellar 0 and 1 MiB of shelf 0, and the bytes 5 at HPA 0 and 6 beyond it. -/
def withPart (x : Partition) : State := { rdy with
  part := { rdy.part with parts := [(15, { x with cellarMask := 1, regions := [{ length := 16 }] })] }
  mem := { rdy.mem with bytes := [⟨0, 5#8⟩, ⟨0x100000, 6#8⟩] }
  cp := { rdy.cp with asyncs := [{ seq := 9, opcode := 0x0101, obj := 15 }] } }

/-- A command of partition 15 in mailbox 0. -/
def pt15 (op : Nat) (req : Bytes) : Taken := { tk op req with ctx := 15 }
def at15 (x : Partition) (op : Nat) (req : Bytes) : State := withCmd (withPart x) (pt15 op req)

theorem witness_partitionCommands :
    runs (at15 { pstate := .active } 0x0102 (leBytes 8 15)) 0 0x0102 (pt15 0x0102 (leBytes 8 15)) ∧
    bbits (leBytes 8 15) 4 60 = 0 ∧ bbits (leBytes 8 15) 0 4 = 15 ∧
    (partOf (withPart { pstate := .active }) 15).pstate ≠ .transitioning ∧
    runs (withCmd (withPart { pstate := .active }) (tk 0x0101 (leBytes 8 15))) 0 0x0101 (tk 0x0101 (leBytes 8 15)) ∧
    (15 : Nat) ≠ 0 ∧ (partOf (withPart { pstate := .transitioning }) 15).destroyBy = none ∧
    runs (at15 { pstate := .active } 0x0103 (leBytes 8 15)) 0 0x0103 (pt15 0x0103 (leBytes 8 15)) ∧
    (layoutBlock (withPart { pstate := .active }) 15).length ≤ respCapacity { pt15 0x0103 [] with hdr := { respCap := 768 } } ∧
    runs (at15 { pstate := .active } 0x0104 (leBytes 8 0x40404001)) 0 0x0104 (pt15 0x0104 (leBytes 8 0x40404001)) ∧
    bbits (leBytes 8 0x40404001) 8 7 = 64 ∧ bbits (leBytes 8 0x40404001) 0 2 ≠ 3 := by
  (repeat' apply And.intro) <;> first | decide +kernel | simp [layoutBlock]

theorem test_partitionReset : code0 (exec (.partitionReset 0) (at15 { pstate := .active } 0x0102 (leBytes 8 15))) = 1 ∧
    (partOf (nextOf (exec (.partitionReset 0) (at15 { pstate := .active } 0x0102 (leBytes 8 15)))) 15).phase = .reset := by
  decide +kernel

theorem test_partitionDestroy :
    (partOf (nextOf (exec (.partitionDestroy 0) (withCmd (withPart { pstate := .active }) (tk 0x0101 (leBytes 8 15))))) 15).phase
      = .destroy := by decide +kernel

theorem test_partitionPolicySet :
    (partOf (nextOf (exec (.partitionPolicySet 0) (at15 { pstate := .active } 0x0104 (leBytes 8 0x40404001)))) 15).overrun
      = .preemptAtNext := by decide +kernel

theorem witness_partitionPhases : (partOf (withPart { pstate := .transitioning }) 15).phase = .create ∧
    (recallRegions (withPart { pstate := .transitioning }) 15).2 = false ∧
    (seqsOf (withPart { pstate := .transitioning, phase := .reset }) 15).isEmpty = true ∧
    (partOf (withPart { pstate := .transitioning, phase := .reset, resetBy := some 9 }) 15).phase = .reset ∧
    tornDown (withPart { pstate := .transitioning, phase := .destroy, destroyBy := some 9 }) 15 = true ∧
    (recallRegions (withPart { pstate := .transitioning, phase := .destroy, destroyBy := some 9 }) 15).2 = false := by
  decide +kernel

/-- Creation zeroes the region of 1 MiB and nothing beyond it. -/
theorem test_partitionTransitionDone :
    (nextOf (exec (.partitionTransitionDone 15) (withPart { pstate := .transitioning }))).mem.bytes = [⟨0x100000, 6#8⟩] := by
  decide +kernel

theorem test_partitionDestroyDone : (partOf (nextOf (exec (.partitionDestroyDone 15)
    (withPart { pstate := .transitioning, phase := .destroy, destroyBy := some 9 }))) 15).pstate = .none := by decide +kernel

/-- An image of one kernel and one instruction word, 280 bytes. -/
def imageBytes : Bytes :=
  padded 160 (leBytes 4 0x4D494B4F ++ leBytes 4 0x10010 ++ leBytes 4 8 ++ leBytes 4 184) ++ leBytes 4 0 ++ leBytes 12 16
    ++ padded 104 []

theorem witness_imageLoad : runs (at0 0x0200 imageBytes) 0 0x0200 (tk 0x0200 imageBytes) ∧
    imageRefused (at0 0x0200 imageBytes) 0 imageBytes {} = none := by (repeat' apply And.intro) <;> decide +kernel

theorem test_imageLoad : code0 (exec (.imageLoad 0 {}) (at0 0x0200 imageBytes)) = 1 ∧
    code0 (exec (.imageLoad 0 {}) (at0 0x0200 (imageBytes.set 0 0#8))) = statusCode .badField := by decide +kernel

/-- An image of 3 chunks that loads: core 0 after `r` rounds with the chunks `m`. -/
def loading (m r : Nat) : State := { rdy with
  part := { rdy.part with polls := [(4, 0)], images := [(4, {
    part := 0, chunkCount := 3, loading := some 9, cores := [(0, { chunks := m, rounds := r })] })] }
  cp := { rdy.cp with asyncs := [{ seq := 9, opcode := 0x0200, obj := 4 }] } }

theorem witness_imageCores : polledCore (loading 0 3) = some (4, 0) ∧ polledCore (loading 0 3) ≠ some (5, 1) ∧
    (imageCore (loading 0 3) 4 0).isSome = true ∧ coreUp (loading 0 3) 0 = true ∧
    (∀ i, i < 3 → bitAt 7 i = true) ∧ 5 % 2 ^ 3 ≠ 2 ^ 3 - 1 ∧ 3 < 4 ∧ (imageCore (loading 7 4) 4 0).isSome = true ∧ 4 ≤ 4 := by
  decide +kernel

theorem test_imageChunkBitmap : (nextOf (exec (.imageChunkBitmap 4 0 5) (loading 0 3))).out = [.imageChunks 4 (some 0) 2] ∧
    (nextOf (exec (.imageChunkBitmap 4 0 7) (loading 0 3))).out = [] := by decide +kernel

theorem test_coreDigestCheckDone : ((tfind (nextOf (exec (.coreDigestCheckDone 4 0 true) (loading 7 0))).part.images 4).map (·.loaded))
    = some true ∧ bitAt (tget (nextOf (exec (.coreDigestCheckDone 4 0 false) (loading 7 4))).boot.presentCores 0 0) 0 = false := by
  decide +kernel

/-- MODEL_BIND of one chunk at HPA 0, from 0x30000, tags at 0x40000, wrapped key at 0x20000, in partition 15. -/
def bindReq : Bytes := padded 96 (leBytes 8 0x110 ++ leBytes 8 0x20000 ++ leBytes 8 64)
    ++ (leBytes 8 0x30000 ++ leBytes 8 0 ++ leBytes 8 1 ++ leBytes 8 0x40000)

/-- A model of one chunk at HPA 0 in partition 15. -/
def withModel (m : Model) : State :=
  { withPart { pstate := .active } with
    part := { (withPart { pstate := .active }).part with models := [(3, m)] }
    cp := { rdy.cp with asyncs := [{ seq := 9, opcode := 0x0201, obj := 3, ctx := 15 }] } }
def oneChunk : Model := { part := 15, ranges := [{ dst := 0, chunks := 1 }] }

theorem witness_modelBind : runs (at15 { pstate := .active } 0x0201 bindReq) 0 0x0201 (pt15 0x0201 bindReq) ∧
    modelBad (at15 { pstate := .active } 0x0201 bindReq) 15 bindReq = false ∧
    bindsActive (withPart { pstate := .active }) < 8 ∧ modelsBound (withPart { pstate := .active }) < 1024 := by
  (repeat' apply And.intro) <;> decide +kernel

theorem test_modelBind : code0 (exec (.modelBind 0) (at15 { pstate := .active } 0x0201 bindReq)) = 1 := by decide +kernel

theorem witness_modelEnds : ((asyncOf (withModel oneChunk) 9).map (·.opcode)) = some 0x0201 ∧
    (tfind (withModel oneChunk).part.models 3) = some oneChunk ∧ oneChunk.bound = false ∧
    [List.replicate 65536 1#8].map List.length = oneChunk.ranges.map rangeBytes ∧
    (recallModel (withModel oneChunk) oneChunk).2 = false ∧ 0 < oneChunk.ranges.length ∧ 0 < (nth oneChunk.ranges 0 {}).chunks := by
  exact ⟨by decide +kernel, by decide +kernel, rfl, by rw [List.map_cons, List.map_nil, List.length_replicate]; decide +kernel, by decide +kernel, by decide, by decide⟩

theorem test_modelBindSeDone : (tfind (nextOf (exec (.modelBindSeDone 9 .unwrap) (withModel oneChunk))).part.models 3).isNone
    = true := by decide +kernel

theorem witness_modelUnbind :
    runs (withCmd (withModel { oneChunk with bound := true }) (pt15 0x0202 (leBytes 8 3))) 0 0x0202 (pt15 0x0202 (leBytes 8 3)) ∧
    modelBound (withModel { oneChunk with bound := true }) 15 3 = true ∧
    modelInUse (withModel { oneChunk with bound := true }) 3 = false ∧ bbits (leBytes 8 3) 32 32 = 0 ∧
    (recallModel (withModel { oneChunk with bound := true, unbinding := some 9 })
      { oneChunk with bound := true, unbinding := some 9 }).2 = false := by (repeat' apply And.intro) <;> decide +kernel

theorem test_modelUnbind :
    code0 (exec (.modelUnbind 0) (withCmd (withModel { oneChunk with bound := true }) (pt15 0x0202 (leBytes 8 3)))) = 1 := by
  decide +kernel

theorem test_modelUnbindDone :
    (nextOf (exec (.modelUnbindDone 3) (withModel { oneChunk with bound := true, unbinding := some 9 }))).mem.bytes
      = [⟨0x100000, 6#8⟩] := by decide +kernel

/-! ### 08: homes of memory -/

/-- A transaction on its way to shelf 0, with byte 5 at HPA 0x7F and a buffered byte at 0x80. -/
def atHome (t : Txn) : State := { rdy with
  mem := { rdy.mem with bytes := [⟨0x7F, 5#8⟩], txns := [(2, t)]
                        shelves := [(0, { wcb := [{ line := 1, bytes := [(0, 8#8)] }], held := 2 ^ 31 })] } }
def issuedRead : Txn := { phase := .issued, hpa := 0, shelfCharged := some 0 }
def issuedWrite : Txn := { phase := .issued, kind := .write, hpa := 0, data := [(127, 9#8)], shelfCharged := some 0 }

/-- An older transaction of the same quadrant on its way to the shelf. -/
def behind : State := { atHome issuedRead with
  mem := { (atHome issuedRead).mem with txns := [(1, { issuedRead with hpa := 0x1000 }), (2, issuedRead)] } }

/-- A buffer whose every place is taken by a line of a held channel. -/
def fullBuffer : State := { atHome issuedWrite with
  mem := { (atHome issuedWrite).mem with
    shelves := [(0, { held := 2 ^ 32 - 2, wcb := (List.range 64).map (fun i => { line := i + 4, bytes := [(0, 8#8)] }) })] } }

theorem witness_shelfAccess : txnOf (atHome issuedRead) 2 = some issuedRead ∧
    admitOne (atHome issuedRead) 0 (txnWrites issuedRead) 0 = .ok (.shelf 0) ∧ shelfSleeps (atHome issuedRead) 0 = false ∧
    arbitrated (atHome issuedRead) 2 issuedRead = true ∧ arbitrated behind 2 issuedRead = false ∧
    (∃ t1, txnOf (arriveTxn (atHome issuedRead) 2 issuedRead true) 2 = some t1 ∧
      shelfTakes (arriveTxn (atHome issuedRead) 2 issuedRead true) 2 0 t1 ∧
      lineFree (arriveTxn (atHome issuedRead) 2 issuedRead true) 2 t1 (.shelf 0)) ∧
    shelfHolds (atHome issuedRead) 0 = false ∧ shelfHolds (atHome { issuedRead with hpa := 31 * 512 }) (31 * 512) = true ∧
    Memory.wf (atHome issuedWrite).mem.bytes = true ∧ placeOf (atHome issuedWrite) 127 = .shelf 0 ∧
    wcbPlace (atHome issuedWrite) (.shelf 0) 0 ∧
    (∃ t1, txnOf (arriveTxn (atHome issuedWrite) 2 issuedWrite true) 2 = some t1 ∧
      shelfTakes (arriveTxn (atHome issuedWrite) 2 issuedWrite true) 2 0 t1 ∧
      lineFree (arriveTxn (atHome issuedWrite) 2 issuedWrite true) 2 t1 (.shelf 0)) ∧
    (∃ t1, txnOf (arriveTxn fullBuffer 2 issuedWrite true) 2 = some t1 ∧ shelfTakes (arriveTxn fullBuffer 2 issuedWrite true) 2 0 t1 ∧
      lineFree (arriveTxn fullBuffer 2 issuedWrite true) 2 t1 (.shelf 0) ∧
      wcbWaits (arriveTxn fullBuffer 2 issuedWrite true) (.shelf 0) t1 = true) := by
  refine ⟨by decide +kernel, by decide +kernel, by decide +kernel, by decide +kernel, by decide +kernel,
    ⟨_, rfl, by unfold shelfTakes; decide +kernel, by unfold lineFree; decide +kernel⟩, by decide +kernel, by decide +kernel, by decide +kernel, by decide +kernel,
    by unfold wcbPlace; decide +kernel, ⟨_, rfl, by unfold shelfTakes; decide +kernel, by unfold lineFree; decide +kernel⟩,
    ⟨_, rfl, by unfold shelfTakes; decide +kernel, by unfold lineFree; decide +kernel, by decide +kernel⟩⟩

theorem test_arbitration : (txnOf (nextOf (exec (.shelfAccess 2 .good .good) behind)) 2).map (·.phase) = some .issued := by
  decide +kernel

theorem test_shelfAccess :
    ((txnOf (nextOf (exec (.shelfAccess 2 .good .good) (atHome issuedRead))) 2).map (fun t => tget t.result 127 0#8)) = some 5#8 ∧
    (readByte (nextOf (exec (.shelfAccess 2 .good .good) (atHome issuedWrite))) 127).1 = 9#8 := by decide +kernel

/-- A far-tier port 0 whose decoder 0 maps the first 256 MiB, on device 0, and a read of it. -/
def farHome (failed : Bool) : State := { rdy with
  mem := { rdy.mem with far := [(0, { devicesUp := 3, decoders := [(0, { enable := true, failed := failed, base := 0x8000, size := 1 })] })]
                        txns := [(2, { phase := .issued, hpa := farBase })] } }

theorem witness_farAccess : admitOne (farHome true) 0 false farBase = .ok (.far 0 0) ∧
    admitOne (farHome false) 0 false farBase = .ok (.far 0 0) ∧ farBase ≤ farBase ∧ farBase < 2 * farBase ∧
    arbitrated (farHome true) 2 { phase := .issued, hpa := farBase } = true ∧
    (∃ t1, txnOf (arriveTxn (farHome false) 2 { phase := .issued, hpa := farBase } false) 2 = some t1 ∧
      farTakes (arriveTxn (farHome false) 2 { phase := .issued, hpa := farBase } false) 2 0 0 t1 ∧
      lineFree (arriveTxn (farHome false) 2 { phase := .issued, hpa := farBase } false) 2 t1 (.far 0)) ∧
    (tget (farOf (farHome true) 0).decoders 0 {}).failed = true ∧ bitAt (farOf (farHome false) 0).devicesUp 1 = true := by
  refine ⟨by decide +kernel, by decide +kernel, by decide +kernel, by decide +kernel, by decide +kernel,
    ⟨_, rfl, by unfold farTakes; decide +kernel, by unfold lineFree; decide +kernel⟩, by decide +kernel, by decide +kernel⟩

theorem test_farTierAccess :
    ((txnOf (nextOf (exec (.farTierAccess 2 .good .good) (farHome true))) 2).map (·.resultPoison)) = some 15 ∧
    ((txnOf (nextOf (exec (.farTierAccess 2 .good .good) (farHome false))) 2).map (·.resultPoison)) = some 0 := by
  decide +kernel

theorem test_farDeviceFailed : ((tfind (farOf (nextOf (exec (.farDeviceFailed 0 0) (farHome false))) 0).decoders 0).map (·.failed))
    = some true := by decide +kernel

theorem witness_wcbFlush : (wcbOf (atHome issuedRead) (.shelf 0)).filter (fun x => x.line == 1)
      = [{ line := 1, bytes := [(0, 8#8)] }] ∧ shelfHolds (atHome issuedRead) (1 * 128) = false ∧
    Memory.wf (atHome issuedRead).mem.bytes = true := by decide +kernel

theorem test_wcbAgeFlush : (nextOf (exec (.wcbAgeFlush (.shelf 0) 1 .good .good) (atHome issuedRead))).mem.bytes
    = [⟨0x7F, 5#8⟩, ⟨0x80, 8#8⟩] := by decide +kernel

theorem witness_retrain : bitAt rdy.boot.presentShelves 0 = true ∧ channelDown rdy (31 * 512) = false ∧
    bitAt (shelfOf (atHome issuedRead) 0).held 31 = true := by decide +kernel

theorem test_shelfChannelRetrain : (shelfOf (nextOf (exec (.shelfChannelRetrain 0 31) rdy)) 0).held = 2 ^ 31 := by decide +kernel

theorem test_shelfChannelRetrained : (shelfOf (nextOf (exec (.shelfChannelRetrained 0 31 true) (atHome issuedRead))) 0).held = 0 ∧
    (shelfOf (nextOf (exec (.shelfChannelRetrained 0 31 false) (atHome issuedRead))) 0).chDown = 2 ^ 31 := by decide +kernel

/-- The last row of the last bank of the last stack of channel 31. -/
def row31 : Nat := 3 * 2 ^ 28 + 31 * 2 ^ 23 + 15 * 2 ^ 18 + 0xFFFF

/-- A shelf of 16 row bits, 16 banks and 4 stacks with one spare of each kind in channel 31, and a defect list. -/
def repairing (busy : Bool) (d : List Defect) : State := { rdy with
  mem := { rdy.mem with shelves := [(0, {
    rowBits := 16, banksLog2 := 4, sids := 4, repairBusy := busy, spares := [(rowBank row31, { softFree := 1, hardFree := 1 })]
    job := if busy then some { row := row31 } else none, repairRejected := 0xFFFF })] }
  boot := { rdy.boot with defects := d } }

theorem witness_repairs : row31 < 2 ^ 32 ∧ (shelfOf (repairing true []) 0).repairBusy = true ∧
    (shelfOf (repairing false []) 0).repairBusy = false ∧ repairRefused (repairing false []) 0 row31 = none ∧
    (spareOf (repairing false []) 0 (rowBank row31)).softFree ≠ 0 ∧
    (repairing false []).boot.defects.any (sameDefect (shelfDefect (repairing false []) 0 dkHardQueued row31)) = false ∧
    (spareOf (repairing false []) 0 (rowBank row31)).hardFree ≠ 0 ∧
    (repairing false [shelfDefect (repairing false []) 0 dkHardQueued row31]).boot.defects.any
      (sameDefect (shelfDefect (repairing false []) 0 dkHardQueued row31)) = true ∧
    (shelfOf (repairing true []) 0).job = some { row := row31 } ∧ tget (repairing true []).err.rowQueue 0 [] = [] := by
  decide +kernel

theorem test_shelfRepairSoft : (shelfOf (nextOf (exec (.shelfRepairSoft 0 row31) (repairing true []))) 0).repairRejected = 0xFFFF ∧
    (shelfOf (nextOf (exec (.shelfRepairSoft 0 row31) (repairing false []))) 0).repairBusy = true := by decide +kernel

theorem test_shelfRepairHard : (nextOf (exec (.shelfRepairHard 0 row31) (repairing false []))).boot.defects.length = 1 ∧
    (shelfOf (nextOf (exec (.shelfRepairHard 0 row31) (repairing false []))) 0).repairResult = 1 := by decide +kernel

theorem test_shelfRepairCancelHard : (nextOf (exec (.shelfRepairCancelHard 0 row31)
    (repairing false [shelfDefect (repairing false []) 0 dkHardQueued row31]))).boot.defects = [] := by decide +kernel

theorem test_softRepairDone : (spareOf (nextOf (exec (.softRepairDone 0 []) (repairing true []))) 0 (rowBank row31)).softFree = 0 := by
  decide +kernel

/-! ### 09: sequences, steps, pages -/

/-- A hub whose partition 0 has 16 larder pages on shelf 0, kernel image 1, and the given larder. -/
def pool (l : LarderSt) : State := { kst g1 with
  larder := l
  part := { (kst g1).part with parts := [(0, { pstate := .active, regions := [{ larder := true, length := 16 }] })] }
  cp := { rdy.cp with asyncs := [{ seq := 9, opcode := 0x0301 }], eqs := [(1, { state := .active, log2Size := 6 })] } }

/-- SEQ_OPEN with all 16 pages reserved and the largest MAX_PAGES. -/
def openReq : Bytes := words 0 (16 + 65536 * 2 ^ 32) ++ words 0 0

/-- Entry 65535 open in its last generation, with page 3. -/
def lastSeq (x : SeqState) : LarderSt :=
  { seqs := [(65535, { generation := 0xFFFF, sstate := x, maxPages := 1, pages := [(0, 3)], close := some { seq := 9 } })]
    pages := [(3, { pstate := .resident, seq := 65535 })] }

theorem witness_seqOpen : runs (withCmd (pool {}) (tk 0x0300 openReq)) 0 0x0300 (tk 0x0300 openReq) ∧
    bbits openReq 34 14 = 0 ∧ bbits openReq 128 128 = 0 ∧ bbits openReq 0 32 = 0 ∧ bbits openReq 32 2 ≠ 3 ∧
    bbits openReq 96 32 = 65536 ∧ bbits openReq 64 32 = 16 ∧ unreserved (pool {}) 0 = 16 ∧
    freeSeqEntry (withCmd (pool {}) (tk 0x0300 openReq)) = some 0 := by (repeat' apply And.intro) <;> decide +kernel

theorem test_seqOpen : code0 (exec (.seqOpen 0) (withCmd (pool {}) (tk 0x0300 openReq))) = 0 ∧
    unreserved (nextOf (exec (.seqOpen 0) (withCmd (pool {}) (tk 0x0300 openReq)))) 0 = 0 := by decide +kernel

theorem witness_seqClose :
    runs (withCmd (pool (lastSeq .opened)) (tk 0x0301 (words (2 ^ 32 - 1) 0))) 0 0x0301 (tk 0x0301 (words (2 ^ 32 - 1) 0)) ∧
    bbits (words (2 ^ 32 - 1) 0) 33 95 = 0 ∧ bbits (words (2 ^ 33 - 1) 0) 32 1 = 1 ∧ bbits (words (2 ^ 32 - 1) 0) 32 1 = 0 ∧
    handleRefused (pool (lastSeq .opened)) 0 (2 ^ 32 - 1) = none ∧ seqIdle (pool (lastSeq .closing)) 65535 = true ∧
    ((seqOf (pool (lastSeq .closing)) 65535).close.map (·.seq)) = some 9 := by (repeat' apply And.intro) <;> decide +kernel

theorem test_seqClose : (seqOf (nextOf (exec (.seqClose 0)
    (withCmd (pool (lastSeq .opened)) (tk 0x0301 (words (2 ^ 32 - 1) 0))))) 65535).sstate = .closing := by decide +kernel

/-- Generation 0xFFFF is followed by 1, and the page is zeroed (09 R243, R268). -/
theorem test_seqCloseComplete : (seqOf (nextOf (exec (.seqCloseComplete 65535) (pool (lastSeq .closing)))) 65535).generation = 1 ∧
    ((pageOf (nextOf (exec (.seqCloseComplete 65535) (pool (lastSeq .closing)))) 3).map (·.pstate)) = some .zeroing := by
  decide +kernel

/-- STEP_SUBMIT of one core and one group of image 1 for that sequence, budget 255. -/
def stepReq : Bytes :=
  words (0x10 + 255 * 2 ^ 16 + 1 * 2 ^ 32) ((1 + 1 * 2 ^ 7 + 1 * 2 ^ 14) * 2 ^ 32) ++ words 1 0 ++ words 0 0 ++ words 0 0
    ++ leBytes 8 (2 ^ 32 - 1)

theorem witness_stepSubmit :
    runs (withCmd (pool (lastSeq .opened)) (tk 0x0302 stepReq)) 0 0x0302 (tk 0x0302 stepReq) ∧
    stepRefused (withCmd (pool (lastSeq .opened)) (tk 0x0302 stepReq)) 0 stepReq (readStep stepReq) false = none ∧
    bbits stepReq 144 16 = 0 ∧ bbits stepReq 8 1 = 0 ∧ tfree (pool (lastSeq .opened)).larder.steps 0 65536 = some 0 ∧
    stepOf (pool (lastSeq .opened)) 0 = none := by (repeat' apply And.intro) <;> decide +kernel

theorem test_stepSubmit : code0 (exec (.stepSubmit 0) (withCmd (pool (lastSeq .opened)) (tk 0x0302 stepReq))) = 1 ∧
    ((stepOf (nextOf (exec (.stepSubmit 0) (withCmd (pool (lastSeq .opened)) (tk 0x0302 stepReq)))) 0).map (·.budget)) = some 255 := by
  decide +kernel

/-- A step whose core writes its image, and one whose threads have all exited. -/
def savingSt : State := { kst g1 with
  cells := { (kst g1).cells with cores := [(0, { groups := [(0, g1)], step := some 0, saving := true })] } }
def endedSt : State := { pool { steps := [(0, { phase := .running, eqId := 1, tag := 7, seq := 5, heldCellars := [0], coreMask := 1 })] } with
  cells := { rdy.cells with cores := [(0, { groups := [(0, { exited := 2 ^ 64 - 1 })], step := some 0 })] } }

theorem witness_stepEnds : (coreOf savingSt 0).step = some 0 ∧ (coreOf savingSt 0).saving = true ∧ (coreOf savingSt 0).loads = [] ∧
    (coreOf savingSt 0).releases = [] ∧ unacked savingSt 0 = [] ∧ 
    (stepOf savingSt 0).isSome = true ∧ ((stepOf endedSt 0).map (stepFinished endedSt 0)) = some true ∧
    ((stepOf endedSt 0).map (fun st => (stepVisible endedSt 0 st).2)) = some true ∧
    ((stepOf endedSt 0).map (fun st => (exitMapReady (stepVisible endedSt 0 st).1 0 st).2)) = some true ∧ eqActive endedSt 1 0 = true := by
  decide +kernel

theorem test_preemptSaveDone : (coreOf (nextOf (exec (.preemptSaveDone 0) savingSt)) 0).step = none ∧
    ((stepOf (nextOf (exec (.preemptSaveDone 0) savingSt)) 0).map (fun st => st.saved.length)) = some 1 := by decide +kernel

theorem test_stepComplete : (stepOf (nextOf (exec (.stepComplete 0) endedSt)) 0).isNone = true ∧
    ((eqOf (nextOf (exec (.stepComplete 0) endedSt)) 1).waiting.map (·.tag)) = [7] := by decide +kernel

/-- A move of page 3 to page 4 whose copy has landed, and a page that is being zeroed. -/
def moving : State := pool { lastSeq .opened with
  moves := [{ src := 3, dst := 4, seq := 65535, page := 0, begun := true }]
  pages := [(3, { pstate := .moving, seq := 65535 }), (4, { pstate := .moving, seq := 65535 })]
  movers := [(68, [{ step := 3, part := 1024, result := some [] }])] }
def zeroing : State := pool { pages := [(3, { pstate := .zeroing })], movers := [(68, [{ step := 3, part := 1025 }])] }

theorem witness_pages : (moving.larder.moves.find? (fun x => x.src == 3 && x.begun)).isSome = true ∧
    ((jobFind moving pagerUnit (pagerJob 3 1024)).map (fun j => (j.result.isSome, jobBusy moving pagerUnit j))) = some (true, false) ∧
    (seqOf moving 65535).sstate ≠ .free ∧ moving.err.retireWaiting.contains 3 = false ∧
    ((pageOf zeroing 3).map (·.pstate)) = some .zeroing ∧
    ((jobFind zeroing pagerUnit (pagerJob 3 1025)).map (jobBusy zeroing pagerUnit)) = some false := by decide +kernel

theorem test_pageMoveLand : tfind (seqOf (nextOf (exec (.pageMoveLand 3) moving)) 65535).pages 0 = some 4 := by decide +kernel

theorem test_pageZeroingDone : (pageOf (nextOf (exec (.pageZeroingDone 3) zeroing)) 3).isNone = true := by decide +kernel

/-! ### 10: regulators and ports -/

/-- QOS_SET of one entry, for management where `kind` is not 0. -/
def qosReq (kind g : Nat) : Bytes := words (0x10 + 1 * 2 ^ 16) (kind + g * 2 ^ 24 + 5 * 2 ^ 44)
def qosTk (kind g : Nat) : Taken := { tk 0x0700 (qosReq kind g) with mgmt := true }

theorem witness_qosSet : runs (withCmd rdy (qosTk 0 16)) 0 0x0700 (qosTk 0 16) ∧ (qosEntries (qosReq 0 16)).length = 1 ∧
    (qosEntries (qosReq 0 16)).findSome? (qosRefused (withCmd rdy (qosTk 0 16)) true 0) = none ∧
    (qosEntries (qosReq 1 16)).findSome? (qosRefused (withCmd rdy (qosTk 1 16)) true 0) = none ∧
    (qosEntries (qosReq 2 16)).findSome? (qosRefused (withCmd rdy (qosTk 2 16)) true 0) = none ∧
    (∀ e ∈ qosEntries (qosReq 0 259840), (qosNeed rdy (forEach (qosEntries (qosReq 0 259840)) rdy qosApply) e).1
        ≤ (qosNeed rdy (forEach (qosEntries (qosReq 0 259840)) rdy qosApply) e).2) ∧
    (∃ e ∈ qosEntries (qosReq 0 259841), (qosNeed rdy (forEach (qosEntries (qosReq 0 259841)) rdy qosApply) e).2
        < (qosNeed rdy (forEach (qosEntries (qosReq 0 259841)) rdy qosApply) e).1) := by
  (repeat' apply And.intro) <;> decide +kernel

theorem test_qosSet : code0 (exec (.qosSet 0) (withCmd rdy (qosTk 0 259840))) = 0 ∧
    code0 (exec (.qosSet 0) (withCmd rdy (qosTk 0 259841))) = statusCode .admissionRefused ∧
    (masterOf (nextOf (exec (.qosSet 0) (withCmd rdy (qosTk 0 16)))) 0).guarantee = 16 := by decide +kernel

/-- A transaction at port 0. -/
def atPort (t : Txn) : State := { rdy with
  mem := { rdy.mem with txns := [(2, t)] }
  cells := { rdy.cells with cellars := [(0, { fills := [(0, {})] })] } }

theorem witness_portIssue : waitingAt (atPort { units := 8 }) 0 = [(2, { units := 8 })] ∧
    outUnits (atPort { units := 8 }) 0 + 8 ≤ 2 * (masterOf (atPort { units := 8 }) 0).budget ∧
    poolGrant (atPort { units := 8 }) 0 8 = true ∧ admitOne (atPort { units := 8 }) 0 false 0 = .ok (.shelf 0) ∧
    2 * (masterOf (atPort { units := 9 }) 0).budget < outUnits (atPort { units := 9 }) 0 + 9 := by decide +kernel

/-- A transaction to the shelves of the diagonal quadrant, while the NoC domain on its way changes. -/
def diagonalTxn : Txn := { units := 8, hpa := 9 * shelfSize }
def routeOut : State := { atPort diagonalTxn with
  boot := { rdy.boot with presentShelves := 0x201 }
  pwr := { rdy.pwr with domains := [(97, { transition := true, target := .off })] } }

theorem witness_route : routeHeld (atPort { units := 8 }) { units := 8 } = false ∧ routeHeld routeOut diagonalTxn = true ∧
    waitingAt routeOut 0 = [(2, diagonalTxn)] := by decide +kernel

theorem test_routeHeld : ((txnOf (nextOf (exec (.masterPortIssue 0) routeOut)) 2).map (·.phase)) = some .waiting := by decide +kernel

theorem test_masterPortIssue : ((txnOf (nextOf (exec (.masterPortIssue 0) (atPort { units := 8 }))) 2).map (·.phase)) = some .issued ∧
    ((txnOf (nextOf (exec (.masterPortIssue 0) (atPort { units := 9 }))) 2).map (·.phase)) = some .waiting := by decide +kernel

/-- A read of line 0 for cellar 0 that is done. -/
def filled : Txn := { phase := .done, client := .cellarFill 0 0, result := [(0, 5#8)] }

theorem witness_completion : filled.absorbed = false ∧ filled.master < 72 ∧ txnOf (atPort filled) 2 = some filled ∧ filled.epoch = (cellarOf (atPort filled) 0).epoch ∧
    (tfind (cellarOf (atPort filled) 0).fills 0).isSome = true ∧ (txnOf (atPort { phase := .done }) 2).isSome = true := by
  decide +kernel

theorem test_transactionCompletionReturn :
    ((tfind (cellarOf (nextOf (exec (.transactionCompletionReturn 2) (atPort filled))) 0).fills 0).map (·.data))
      = some [(0, 5#8)] := by decide +kernel

theorem witness_guaranteeMiss : (256 : Nat) < 257 ∧ (atPort { underPort := true }).time.fret ≠ 63 ∧
    ((txnOf (atPort { underPort := true }) 2).map (fun t => (t.phase, t.missed))) = some (.waiting, false) := by decide +kernel

theorem test_guaranteeMiss :
    (masterOf (nextOf (exec (.guaranteeMiss 2 false 257) (atPort { underPort := true }))) 0).missedCycles = 257 := by decide +kernel

/-! ### 11: translation and faults -/

/-- MAP_HOST of PASID 5: one level of 512 entries of 4 KiB pages, root 0x1000, no fault queue. -/
def mapReq : Bytes :=
  words (5 + 1 * 2 ^ 20 + 12 * 2 ^ 24 + 9 * 2 ^ 32 + 1 * 2 ^ 56)
      (1 * 2 ^ 6 + 5 * 2 ^ 13 + 6 * 2 ^ 19 + 7 * 2 ^ 25 + 12 * 2 ^ 32 + 47 * 2 ^ 38 + 2 * 2 ^ 44)
    ++ words 0x1000 (2 ^ 9)

/-- The same profile with `l` levels and an AD_MODE. -/
def prof (l ad : Nat) : Profile :=
  { levels := l, bits := List.replicate l 9, leafLevels := 2 ^ (l - 1), present := 0, write := 1, accessed := 5, dirty := 6
    pageSize := 7, oaLo := 12, oaHi := 47, adMode := ad }

/-- A hub with PASID 5 bound to that profile, a fault entry 511, a use and a walk. -/
def bound (p : Profile) (w : Walk) : State := { rdy with
  trans := { rdy.trans with
    bindings := [(5, { profile := p, root := 0x1000 })], faults := [(511, { generation := 7, pasid := 5, requesters := [{}] })]
    uses := [(1, { pasid := 5, addr := 0x2000, bytes := 64 })], walks := [(0, w)]
    leaves := [{ pasid := 5, addr := 0x2000 }], drains := [(9, { pasid := 5, unbind := true })] }
  cp := { rdy.cp with asyncs := [{ seq := 9, opcode := 0x0401 }] } }
def walk0 : Walk := { pasid := 5, addr := 0x3000, base := 0x1000, requesters := [{}], begun := true }

theorem witness_mapHost : runs (at0 0x0400 mapReq) 0 0x0400 (tk 0x0400 mapReq) ∧
    mapHostRefused (at0 0x0400 mapReq) (tk 0x0400 mapReq) = none ∧ bbits mapReq 201 1 = 1 := by
  (repeat' apply And.intro) <;> decide +kernel

theorem test_mapHost : code0 (exec (.mapHost 0) (at0 0x0400 mapReq)) = 0 ∧
    ((bindingOf (nextOf (exec (.mapHost 0) (at0 0x0400 mapReq))) 5).map (·.root)) = some 0x1000 := by decide +kernel

/-- A range of one page, and UNBIND. -/
def unmapReq (mode : Nat) : Bytes := words (5 + mode * 2 ^ 20) (if mode = 0 then 0x2000 else 0) ++ words (if mode = 0 then 0x1000 else 0) 0

theorem witness_unmapHost :
    runs (withCmd (bound (prof 1 2) walk0) (tk 0x0401 (unmapReq 0))) 0 0x0401 (tk 0x0401 (unmapReq 0)) ∧
    unmapRefused (withCmd (bound (prof 1 2) walk0) (tk 0x0401 (unmapReq 0))) (tk 0x0401 (unmapReq 0)) = none ∧
    unmapRefused (withCmd (bound (prof 1 2) walk0) (tk 0x0401 (unmapReq 2))) (tk 0x0401 (unmapReq 2)) = none ∧
    ((tfind (bound (prof 1 2) walk0).trans.drains 9).map (·.uses)) = some [] := by
  (repeat' apply And.intro) <;> decide +kernel

theorem test_unmapHost :
    (nextOf (exec (.unmapHost 0) (withCmd (bound (prof 1 2) walk0) (tk 0x0401 (unmapReq 0))))).trans.leaves = [] := by decide +kernel

theorem test_unmapHostDrained : (bindingOf (nextOf (exec (.unmapHostDrained 9) (bound (prof 1 2) walk0))) 5).isNone = true := by
  decide +kernel

/-- A response to entry 511 in generation `g` with a CODE. -/
def respReq (g c : Nat) : Bytes := words (511 + g * 2 ^ 16 + c * 2 ^ 32) 0

theorem witness_faultRespond :
    runs (withCmd (bound (prof 1 2) walk0) (tk 0x0402 (respReq 7 0))) 0 0x0402 (tk 0x0402 (respReq 7 0)) ∧
    bbits (respReq 7 0) 0 9 = 511 ∧ bbits (respReq 7 0) 9 7 = 0 ∧ bbits (respReq 7 1) 32 2 = 1 ∧ bbits (respReq 7 0) 34 30 = 0 ∧
    ((tfind (bound (prof 1 2) walk0).trans.faults 511).map (fun f => (f.retrying, f.owner, f.generation))) = some (false, 0, 7) ∧
    (7 : Nat) ≠ bbits (respReq 6 0) 16 16 ∧ 0 ≠ (pt15 0x0402 (respReq 7 0)).ctx ∧
    (∀ f, tfind rdy.trans.faults 511 = some f → f.retrying = true) := by
  refine ⟨⟨?_, ?_⟩, ?_, ?_, ?_, ?_, ?_, ?_, ?_, ?_⟩ <;> first | decide +kernel | (intro f h; cases h)

theorem test_faultRespond :
    (tfind (nextOf (exec (.faultRespond 0) (withCmd (bound (prof 1 2) walk0) (tk 0x0402 (respReq 7 1))))).trans.faults 511).isNone = true ∧
    (((chanOf (nextOf (exec (.faultRespond 0) (withCmd (bound (prof 1 2) walk0) (tk 0x0402 (respReq 6 0))))) 0).window).map (·.result))
      = some 1 := by decide +kernel

theorem test_faultTimeout : (tfind (nextOf (exec (.faultTimeout 511) (bound (prof 1 2) walk0))).trans.faults 511).isNone = true := by
  decide +kernel

theorem test_unmapFlushReadDone : (nextOf (exec (.unmapFlushReadDone 1) (bound (prof 1 2) walk0))).trans.uses = [] := by
  decide +kernel

/-- An absent entry, a table entry, a leaf, and a leaf whose ACCESSED bit is to be set. -/
theorem witness_walks : tfind (bound (prof 1 2) walk0).trans.walks 0 = some walk0 ∧ hostSilent (bound (prof 1 2) walk0) = false ∧
    (bindingOf (bound (prof 1 2) walk0) 5).isSome = true ∧ bitAt (entryValue (prof 1 2) 0) 0 = false ∧
    walk0.requesters ≠ [] ∧ walk0.entry = none ∧ (tfree (bound (prof 1 2) walk0).trans.faults 0 512).isSome = true ∧
    bitAt (entryValue (prof 2 2) 0x4001) 0 = true ∧ walk0.level + 1 ≠ (prof 2 2).levels ∧
    (bitAt (prof 2 2).leafLevels 0 && bitAt 0x4001 7) = false ∧ walk0.level + 1 = (prof 1 2).levels ∧
    insideBars (bound (prof 1 2) walk0) (outputField (prof 1 2) 0x4001 12 + 0x3000 % 2 ^ 12) = true ∧
    insideBars { bound (prof 1 2) walk0 with boot := { rdy.boot with bar2Log2 := 0 } } (outputField (prof 1 2) 0x4001 12) = false ∧
    adUpdate (prof 1 1) false 0x4001 ≠ 0x4001 := by decide +kernel

theorem test_walkEntryRead : (nextOf (exec (.walkEntryRead 0 (.data 0x4001)) (bound (prof 2 2) walk0))).out = [.walkRead 0 0x4018] ∧
    (nextOf (exec (.walkEntryRead 0 (.data 0x4001)) (bound (prof 1 1) walk0))).out = [.walkCas 0 0x1018 0x4001 0x4021] := by
  decide +kernel

theorem test_adUpdateCasReturn : ((tfind (nextOf (exec (.adUpdateCasReturn 0 false) (bound (prof 1 1) { walk0 with leaf := some 0x4001 }))).trans.walks 0).map
    (·.leaf)) = some none := by decide +kernel

/-! ### 14: peer windows and admission -/

/-- A peer window request: window 63, device 9 in native mode, length 64 KiB. -/
def windowReq : Bytes := words (63 + 9 * 2 ^ 32) 0x10000 ++ words 0 0 ++ words 0 0

/-- A hub whose partition 0 holds window 63, with one message through it to peer 2, and a clear that has drained. -/
def windowed : State := { rdy with
  chord := { rdy.chord with windows := [(63, { node := 9 })]
                            peers := [(2, { node := 9, messages := [(1, { window := some 63 }), (3, { window := some 5 })] })]
                            clears := [(9, (62, [(2, 7)], 0))] }
  cp := { rdy.cp with asyncs := [{ seq := 9, opcode := 0x0501 }] } }

theorem witness_peerWindows : runs (at0 0x0500 windowReq) 0 0x0500 (tk 0x0500 windowReq) ∧
    (tfind rdy.chord.windows (bbits windowReq 0 6)).isNone = true ∧ bbits windowReq 112 144 = 0 ∧
    (windowOf windowReq 0).remoteBase % 0x10000 = 0 ∧ (windowOf windowReq 0).node ≠ rdy.chord.node ∧
    (windowOf windowReq 0).eth = false ∧ (windowOf windowReq 0).ipv6 = 0 ∧
    runs (withCmd windowed (tk 0x0501 (words 63 0))) 0 0x0501 (tk 0x0501 (words 63 0)) ∧ bbits (words 63 0) 6 58 = 0 ∧
    ((tfind windowed.chord.windows 63).map (·.part)) = some 0 ∧ (tfind windowed.chord.clears 9).isSome = true ∧
    (∀ m ∈ [((2 : Nat), (7 : Nat))], (tfind (peerOf windowed m.1).messages m.2).isNone = true) := by
  (repeat' apply And.intro) <;> decide +kernel

theorem test_peerWindowSet : code0 (exec (.peerWindowSet 0) (at0 0x0500 windowReq)) = 0 ∧
    ((tfind (nextOf (exec (.peerWindowSet 0) (at0 0x0500 windowReq))).chord.windows 63).map (·.remoteBase)) = some 0x10000 := by
  decide +kernel

theorem test_peerWindowClear : code0 (exec (.peerWindowClear 0) (withCmd windowed (tk 0x0501 (words 63 0)))) = 1 ∧
    (tvals (nextOf (exec (.peerWindowClear 0) (withCmd windowed (tk 0x0501 (words 63 0))))).chord.clears).map (·.2.1)
      = [[(2, 1)], [(2, 7)]] := by decide +kernel

theorem test_peerWindowClearDrained : (nextOf (exec (.peerWindowClearDrained 9) windowed)).chord.clears = [] := by decide +kernel

theorem witness_peerAdmit : runs (at0 0x0502 (words (15 + 3 * 16 + 64) 5)) 0 0x0502 (tk 0x0502 (words (15 + 3 * 16 + 64) 5)) ∧
    bbits (words (15 + 3 * 16 + 64) 5) 8 56 = 0 ∧ bbits (words (15 + 3 * 16 + 64) 5) 7 1 = 0 ∧
    bbits (words (15 + 3 * 16 + 128) 0) 7 1 = 1 ∧ bbits (words (15 + 3 * 16 + 64) 5) 64 64 ≠ 0 ∧
    (∀ e ∈ rdy.chord.tags, e.1 / 4 ≠ 15 → e.2.1 ≠ 5) := by (repeat' apply And.intro) <;> decide +kernel

theorem test_peerAdmitSet : tfind (nextOf (exec (.peerAdmitSet 0) (at0 0x0502 (words (15 + 3 * 16 + 64) 5)))).chord.tags 63
    = some (5, true) := by decide +kernel

/-! ### Movers (09 R255, 06, 07) -/

/-- A hub with one descriptor at cellar 0's mover, and a byte 5 in the first line of its scratch. -/
def mover (body : Bytes) (j : MoverJob) : State := { rdy with
  larder := { rdy.larder with steps := [(0, { phase := .running, parts := [{ kind := 1, body := body }], heldCellars := [0] })]
                              movers := [(0, [j])] }
  mem := { rdy.mem with bytes := [⟨scratchBase + 7, 5#8⟩] } }

/-- A descriptor of four pairs of words. -/
def desc (a b c d e f g : Nat) : Bytes := words a b ++ words c d ++ words e f ++ words g 0

theorem inScratch_of {s : State} {a n : Nat}
    (h : ∀ i, i < n → placeOf s (a + i) = .scratch 0 ∧ (cellarOf s 0).resetting = false) : inScratch s a n :=
  fun i hi => ⟨0, h i hi⟩

/-- COPY and FILL of 64 bytes within the scratch. -/
def copyDesc : Bytes := desc 1 scratchBase (scratchBase + 0x1000) 64 0 0 0
def fillDesc : Bytes := desc 2 0xAB (scratchBase + 0x1000) 64 0 0 0

theorem witness_copy : descRuns (mover copyDesc {}) 0 0 1 {} ∧ bbits copyDesc 48 16 = 0 ∧ bbits copyDesc 224 160 = 0 ∧
    bbits copyDesc 448 64 = 0 ∧ bbits copyDesc 8 4 = 0 ∧ rangeReady (mover copyDesc {}) 0 {} false scratchBase 64 ∧
    rangeReady (mover copyDesc {}) 0 {} true (scratchBase + 0x1000) 64 ∧
    ownRange (mover copyDesc {}) 0 (scratchBase + 0x1000) 64 ∧
    inScratch (mover copyDesc {}) (scratchBase + 0x1000) 64 ∧ Memory.wf (mover copyDesc {}).mem.bytes = true := by
  refine ⟨?_, ?_, ?_, ?_, ?_, ?_, ?_, ?_, inScratch_of (by decide +kernel), ?_⟩ <;>
    first | (unfold ownRange; decide +kernel) | ((repeat' apply And.intro) <;> decide +kernel)

/-- COPY from the last line of a shelf's first page, before and after its line is fetched. -/
def shelfCopy : Bytes := desc 1 0xFF80 (scratchBase + 0x1000) 64 0 0 0
def stagedLine : MoverJob := { started := true, stage := (List.range 128).map (fun i => (0xFF80 + i, 9#8)) }

theorem witness_copyElsewhere : descRuns (mover shelfCopy {}) 0 0 1 {} ∧ jobRefusal (mover shelfCopy {}) {} false 0xFF80 64 = none ∧
    0x1FF ∈ linesOf 0xFF80 64 ∧ lineHere (mover shelfCopy {}) 0 {} 0xFF80 64 0x1FF = false ∧
    descRuns (mover shelfCopy stagedLine) 0 0 1 stagedLine ∧ rangeReady (mover shelfCopy stagedLine) 0 stagedLine false 0xFF80 64 := by
  (repeat' apply And.intro) <;> decide +kernel

theorem test_copyElsewhere :
    ((tvals (nextOf (exec (.copy 0 0 (.data [])) (mover shelfCopy {}))).mem.txns).map (fun t => (t.master, t.hpa, t.bytes))) = [(0, 0xFF80, 128)] ∧
    (readByte (nextOf (exec (.copy 0 0 (.data [])) (mover shelfCopy stagedLine))) (scratchBase + 0x1000)).1 = 9#8 := by decide +kernel

/-- COPY of 64 bytes of host memory under PASID 5, whose page is at hand. -/
def hostCopy : Bytes := desc (1 + 2 ^ 8 + 5 * 2 ^ 12) 0x2FC0 (scratchBase + 0x1000) 64 0 0 0
def hostMover : State := { mover hostCopy {} with
  trans := { rdy.trans with bindings := [(5, { profile := { bits := [9] } })], leaves := [{ pasid := 5, addr := 0x2000, out := 0x9000 }] }
  boot := { rdy.boot with bar2Log2 := 0 } }

theorem witness_copyHost : descRuns hostMover 0 0 1 {} ∧ bbits hostCopy 8 4 = 1 ∧ 64 ≤ 4096 - 0x2FC0 % 4096 ∧
    (translate (startedAt hostMover 0 0 {}) (jobPasid hostCopy) (stepPart hostMover 0) 0x2FC0 false (.mover 0 0)).2 = .ok 0x9FC0 64 := by
  (repeat' apply And.intro) <;> decide +kernel

theorem test_copyHost : (readByte (nextOf (exec (.copy 0 0 (.data (List.replicate 64 3#8))) hostMover)) (scratchBase + 0x103F)).1 = 3#8 := by
  decide +kernel

theorem witness_fill : descRuns (mover fillDesc {}) 0 0 2 {} ∧ bbits fillDesc 192 32 % 8 = 0 ∧
    rangeReady (mover fillDesc {}) 0 {} true (scratchBase + 0x1000) 64 := by (repeat' apply And.intro) <;> decide +kernel

theorem witness_malformed : bbits (desc (1 + 2 ^ 48) 0 0 0 0 0 0) 48 16 ≠ 0 ∧
    descRuns (mover (desc (1 + 2 ^ 48) 0 0 0 0 0 0) {}) 0 0 1 {} ∧ descRuns (mover (desc (2 + 2 ^ 48) 0 0 0 0 0 0) {}) 0 0 2 {} := by
  (repeat' apply And.intro) <;> decide +kernel

theorem test_copy : (readByte (nextOf (exec (.copy 0 0 (.data [])) (mover copyDesc {}))) (scratchBase + 0x1007)).1 = 5#8 := by
  decide +kernel

theorem test_fill : (readByte (nextOf (exec (.fill 0 0) (mover fillDesc {}))) (scratchBase + 0x1008)).1 = 0xAB#8 ∧
    (readByte (nextOf (exec (.fill 0 0) (mover fillDesc {}))) (scratchBase + 0x1007)).1 = 0#8 := by decide +kernel

/-- A COPY that has ended, with its result at the scratch or nowhere. -/
def endedJob : MoverJob := { started := true, result := some (resultBytes 0 1 0 0) }
def shelfResult : Bytes := desc 1 scratchBase (scratchBase + 0x1000) 64 0 0 0x2000
def resultDesc : Bytes := desc 1 scratchBase (scratchBase + 0x1000) 64 0 0 (scratchBase + 0x2000)

theorem witness_descriptorDone : jobFind (mover copyDesc endedJob) 0 0 = some endedJob ∧ bbits copyDesc 46 1 = 0 ∧
    jobBusy (mover copyDesc endedJob) 0 endedJob = false ∧ (partAt (mover copyDesc endedJob) 0 0).isSome = true ∧
    writesResult copyDesc = false ∧ writesResult resultDesc = true ∧ (resultBytes 0 1 0 0).length = 16 ∧
    rangeReady (mover resultDesc endedJob) 0 endedJob true (scratchBase + 0x2000) 16 ∧
    ownRange (mover resultDesc endedJob) 0 (scratchBase + 0x2000) 16 ∧
    jobRefusal (mover shelfResult endedJob) endedJob true 0x2000 16 = none ∧ ownLine (mover shelfResult endedJob) 0 0x40 = false ∧
    inScratch (mover resultDesc endedJob) (scratchBase + 0x2000) 16 := by
  refine ⟨?_, ?_, ?_, ?_, ?_, ?_, ?_, ?_, ?_, ?_, ?_, inScratch_of (by decide +kernel)⟩ <;>
    first | (unfold ownRange; decide +kernel) | ((repeat' apply And.intro) <;> decide +kernel)

theorem test_resultElsewhere : ((tvals (nextOf (exec (.moverDescriptorDone 0 0) (mover shelfResult endedJob))).mem.txns).map
    (fun t => (t.hpa, tget t.data 4 0))) = [(0x2000, 1#8)] ∧
    (jobsOf (nextOf (exec (.moverDescriptorDone 0 0) (mover shelfResult endedJob))) 0).map (·.posted) = [true] := by decide +kernel

theorem test_moverDescriptorDone : (jobsOf (nextOf (exec (.moverDescriptorDone 0 0) (mover resultDesc endedJob))) 0) = [] ∧
    (readByte (nextOf (exec (.moverDescriptorDone 0 0) (mover resultDesc endedJob))) (scratchBase + 0x2004)).1 = 1#8 := by
  decide +kernel

/-- COMPRESS of one row of one INT8 block, of which byte 7 alone is not zero, and a GATHER of one row. -/
def compressDesc : Bytes := desc 0x20 scratchBase (scratchBase + 0x1000) 256 (1 + 1 * 2 ^ 32 + 2 * 2 ^ 48) 0 0
def decompressDesc : Bytes := desc 0x21 (scratchBase + 0x1000) (scratchBase + 0x2000) 64 0 0 0
def gatherDesc (a : Nat) : Bytes := desc 0x22 a (scratchBase + 0x3000) (scratchBase + 0x2000) (1 + 1 * 2 ^ 32) 1 0
def compressed : State := { mover decompressDesc {} with mem := (nextOf (exec (.compress 0 0 (.data [])) (mover compressDesc {}))).mem }

theorem witness_compress : descRuns (mover compressDesc {}) 0 0 0x20 {} ∧ fmtOf (bbits compressDesc 304 4) = some .int8 ∧
    bbits compressDesc 308 76 = 0 ∧ bbits compressDesc 256 32 = 1 ∧ bbits compressDesc 288 16 = 1 ∧
    overlaps scratchBase (1 * denseStride .int8 1) (scratchBase + 0x1000) 256 = false ∧
    overlaps scratchBase (1 * denseStride .int8 1) (scratchBase + 63) 256 = true ∧
    rangeReady (mover compressDesc {}) 0 {} false scratchBase 64 ∧
    rangeReady (mover compressDesc {}) 0 {} true (scratchBase + 0x1000) (writesEnd (compressTensor
      (fun x => (jobByte (mover compressDesc {}) 0 {} x).1.toNat) (fun x k => jobPoison (mover compressDesc {}) 0 {} x k)
      .int8 1 1 scratchBase 256).writes) := by (repeat' apply And.intro) <;> decide +kernel

theorem test_compress : (jobsOf (nextOf (exec (.compress 0 0 (.data [])) (mover compressDesc {}))) 0).map (·.result)
    = [some (resultBytes 0 1 12 0)] := by decide +kernel

/-- Only the ZMAP words of the tensor, and a poisoned header. -/
def zmapOnly : State := { compressed with larder := (mover (desc 0x21 (scratchBase + 0x1000) 0 0 0 (scratchBase + 0x2000) 0) {}).larder }
def poisoned (s : State) (a : Nat) : State := { s with mem := { s.mem with poison := [(a / 32, ())] } }

theorem witness_decompressForms : descRuns zmapOnly 0 0 0x21 {} ∧ bbits (jobBody zmapOnly {}) 128 64 = 0 ∧
    rangeReady zmapOnly 0 {} true 0 (writesEnd (decompressTensor (fun x => (jobByte zmapOnly 0 {} x).1.toNat)
      (fun x k => jobPoison zmapOnly 0 {} x k) (scratchBase + 0x1000) 0 (decide (0 ≠ 0))).writes) ∧
    jobRefusal zmapOnly {} true (scratchBase + 0x2000) 8 = none ∧
    jobPoison (poisoned compressed (scratchBase + 0x1000)) 0 {} (scratchBase + 0x1000) 64 = true ∧
    jobPoison compressed 0 {} (scratchBase + 0x1000) 64 = false := by (repeat' apply And.intro) <;> decide +kernel

theorem test_zmapOnly : (readByte (nextOf (exec (.decompress 0 0 (.data [])) zmapOnly)) (scratchBase + 0x2000)).1 = 1#8 ∧
    (jobsOf (nextOf (exec (.decompress 0 0 (.data [])) (poisoned compressed (scratchBase + 0x1000)))) 0).map (·.result)
      = [some (resultBytes 3 0 0 0)] := by decide +kernel

theorem witness_decompress : descRuns compressed 0 0 0x21 {} ∧ rangeReady compressed 0 {} false (scratchBase + 0x1000) 64 ∧
    headBad (tensorHead (fun x => (jobByte compressed 0 {} x).1.toNat) (scratchBase + 0x1000)) = false ∧
    headBad (tensorHead (fun x => (jobByte (mover decompressDesc {}) 0 {} x).1.toNat) (scratchBase + 0x1000)) = true ∧
    overlaps (scratchBase + 0x1000) 96 (scratchBase + 0x2000) 64 = false ∧
    rangeReady compressed 0 {} true (scratchBase + 0x2000) (writesEnd (decompressTensor
      (fun x => (jobByte compressed 0 {} x).1.toNat) (fun x k => jobPoison compressed 0 {} x k) (scratchBase + 0x1000) 64 true).writes) := by
  (repeat' apply And.intro) <;> decide +kernel

/-- What COMPRESS wrote comes back as it was. -/
theorem test_decompress : (readByte (nextOf (exec (.decompress 0 0 (.data [])) compressed)) (scratchBase + 0x2007)).1 = 5#8 := by
  decide +kernel

theorem witness_gather : descRuns (mover (gatherDesc scratchBase) {}) 0 0 0x22 {} ∧ scratchBase % 32 = 0 ∧ (scratchBase + 8) % 32 ≠ 0 ∧
    rangeReady (mover (gatherDesc scratchBase) {}) 0 {} false (scratchBase + 0x2000) 4 ∧
    jobPoison (mover (gatherDesc scratchBase) {}) 0 {} (scratchBase + 0x2000) 4 = false ∧
    gatherIndices (fun x => (jobByte (mover (gatherDesc scratchBase) {}) 0 {} x).1.toNat) (scratchBase + 0x2000) 4 1 = [0] ∧
    (fetchRow (mover (gatherDesc scratchBase) {}) 0 {} scratchBase 32).2 = true ∧
    overlaps scratchBase 32 (scratchBase + 0x3000) 32 = false ∧
    jobPoison (poisoned (mover (gatherDesc scratchBase) {}) (scratchBase + 0x2000)) 0 {} (scratchBase + 0x2000) 4 = true ∧
    rangeReady (mover (gatherDesc scratchBase) {}) 0 {} true (scratchBase + 0x3000) 32 := by
  (repeat' apply And.intro) <;> decide +kernel

theorem test_gather : (readByte (nextOf (exec (.gather 0 0 (.data [])) (mover (gatherDesc scratchBase) {}))) (scratchBase + 0x3007)).1
    = 5#8 := by decide +kernel

/-! Routing. -/

/-- A routing descriptor of one token, one expert and rows of 64 bytes, its addresses in the scratch, its pegs 255. -/
def routeBody : Bytes :=
  words (0x10 + 9 * 2 ^ 9 + 1 * 2 ^ 13 + 8 * 2 ^ 24) (1 + 1 * 2 ^ 16 + 9 * 2 ^ 32 + 9 * 2 ^ 36) ++ words scratchBase scratchBase
    ++ words (scratchBase + 0x1000) (scratchBase + 0x2000) ++ words (scratchBase + 0x3000) (scratchBase + 0x4000)
    ++ words 0 (scratchBase + 0x5000) ++ words (255 + 255 * 2 ^ 32) 255 ++ words 0 0 ++ words 0 0

/-- A hub with a routing part in step 0 on quadrant 0, its descriptor in the scratch. -/
def routed (p : StepPart) (j : MoverJob) (t : RouteTable) : State := { rdy with
  larder := { rdy.larder with steps := [(0, { phase := .running, parts := [p], heldCellars := [0] })], movers := [(64, [j])]
                              tables := [(scratchBase + 0x1000, t)] }
  cells := { rdy.cells with pegs := [(255, { ptype := .event })] }
  mem := { rdy.mem with bytes := routeBody.zipIdx.foldl (fun m x => memWrite m (scratchBase + x.2) x.1) [] } }
def routePart : StepPart := { kind := 2, body := routeBody }
def combinePart : StepPart := { kind := 3, body := words scratchBase (scratchBase + 0x6000) }
def onePass : RouteTable := { passes := [{ pass := 1, desc := routeBody }] }

theorem witness_routeDispatched : routeJob (routed routePart { listed := true } {}) 0 0 = some (64, { listed := true }) ∧
    jobBusy (routed routePart { listed := true } {}) 64 { listed := true } = false ∧ bbits routeBody 672 32 = 255 ∧
    pegPasses (routed routePart { listed := true } {}) (jobMaster (routed routePart { listed := true } {}) 64 0) 255 = true ∧
    pegAllowed (routed routePart { listed := true } {}) (stepPart (routed routePart { listed := true } {}) 0) 255 = true ∧
    (pegOf (routed routePart { listed := true } {}) 255).ptype = .event := by decide +kernel

theorem test_routeDispatched :
    (pegOf (nextOf (exec (.routeDispatched 0 0) (routed routePart { listed := true } {}))) 255).count = 1 := by decide +kernel

/-- The COMBINE's job with its descriptor fetched. -/
def fetched : MoverJob := { stage := routeBody.zipIdx.map (fun x => (scratchBase + x.2, x.1)) }

theorem witness_combine : routeJob (routed combinePart fetched onePass) 0 0 = some (64, fetched) ∧
    routeReads (modJob (routed combinePart fetched onePass) 64 0 (fun j => { j with started := true })) 64 fetched [(scratchBase, 128)]
      = (modJob (routed combinePart fetched onePass) 64 0 (fun j => { j with started := true }), true) ∧
    (routeDesc (jobRead (routed combinePart fetched onePass) 64 fetched scratchBase 128)).isSome = true ∧
    jobRead (routed combinePart fetched onePass) 64 fetched scratchBase 128 = routeBody ∧
    combineNeeds onePass { pass := 1, desc := routeBody } = [] ∧ combineMoves onePass { pass := 1, desc := routeBody } = [] ∧
    (routeWrites (routed combinePart fetched onePass) 64 fetched ((combineWrites (routed combinePart fetched onePass) 64 fetched onePass
      { pass := 1, desc := routeBody }).map (fun w => (w.1, w.2.1.length)))).2 = true ∧
    (tableOf (routed combinePart fetched {}) (scratchBase + 0x1000)).passes = [] ∧
    jobRefusal (routed combinePart fetched {}) fetched true (scratchBase + 0x6000) 16 = none ∧
    jobBusy (routed combinePart fetched {}) 64 fetched = false := by decide +kernel

theorem test_combine : (tableOf (nextOf (exec (.combine 0 0) (routed combinePart fetched onePass))) (scratchBase + 0x1000)).passes = [] ∧
    ((tvals (nextOf (exec (.combine 0 0) (routed combinePart fetched {}))).mem.txns).map (fun t => (t.hpa, tget t.data 0 0)))
      = [(scratchBase + 0x6000, 5#8)] := by decide +kernel

/-! Caches. -/

/-- Whole fills of line 9 at core 0 and at cellar 0, for a load and a fill of core 1 that wait for them; the line allocated or
not; tracker 3. -/
def line9 : Tab Byte := (List.range 128).map (fun i => (i, 7#8))
def filling (sup alloc : Bool) : State := { rdy with
  cells := { rdy.cells with
    cores := [(0, { fills := [(5, { line := 9, valid := fullMask, data := line9, ready := true, suppress := sup })]
                    lines := if alloc then [(coreKey 11 9, { line := 9, valid := 1, dirty := 1, data := [(0, 6#8)] })] else []
                    loads := [(4, { threads := [(0, 9 * 128)], bytes := 4, need := [8, 5] })] }),
              (1, { fills := [(6, { line := 9 })] })]
    cellars := [(0, { fills := [(2, { line := 9, valid := fullMask, data := line9, ready := true, waiters := [(1, 6)] })]
                      trackers := [(3, { advances := 32 })] })] } }

theorem witness_fills : ((readyFill (coreOf (filling false true) 0).fills 9).map (·.1)) = some 5 ∧
    (∀ b, b < 128 → (tfind line9 b).isSome = true) ∧ coreFind (coreOf (filling false true) 0) 9 = some (coreKey 11 9) ∧
    coreFind (coreOf (filling false false) 0) 9 = none ∧ (readyFill (coreOf (filling true true) 0).fills 9).isSome = true ∧
    ((readyFill (cellarOf (filling false true) 0).fills 9).map (fun e => (e.1, e.2.valid == fullMask))) = some (2, true) ∧
    ((tfind (coreOf (filling false true) 1).fills 6).map (·.ready)) = some false ∧
    ((tfind (cellarOf (filling false true) 0).trackers 3).map (·.advances)) = some 32 := by decide +kernel

theorem test_cacheFillArrival :
    ((tfind (coreOf (nextOf (exec (.cacheFillArrival (.core 0 9)) (filling false true))) 0).loads 4).map (·.need)) = some [8] ∧
    ((tfind (coreOf (nextOf (exec (.cacheFillArrival (.core 0 9)) (filling false true))) 0).lines (coreKey 11 9)).map
      (fun l => (tget l.data 0 0, tget l.data 1 0))) = some (6#8, 7#8) ∧
    ((tfind (coreOf (nextOf (exec (.cacheFillArrival (.core 0 9)) (filling true true))) 0).lines (coreKey 11 9)).map (·.valid)) = some 1 ∧
    ((tfind (coreOf (nextOf (exec (.cacheFillArrival (.cellar 0 9)) (filling false true))) 1).fills 6).map (·.ready)) = some true := by
  decide +kernel

theorem test_trackerIdleTimeout : (cellarOf (nextOf (exec (.trackerIdleTimeout 0 3) (filling false true))) 0).trackers = [] := by
  decide +kernel

/-- Line 0 of the map dirty in way 0 and clean in a locked way 15; 12 cache banks. -/
def kept : State → State := fun s => modCellar s 0 (fun c => { c with
  scratchBanks := 4, lockedWays := 2 ^ 15
  lines := [((4 * 16 + 0) * 256, { line := 0, valid := fullMask, dirty := 1, data := [(0, 3#8)] }),
            ((4 * 16 + 15) * 256, { line := 0, valid := fullMask })] })

/-- Maintenance of the first line of the map. -/
def maintDesc (op : Nat) : Bytes := desc op 0 128 0 0 0 0
def lockDesc (op mask : Nat) : Bytes := desc op 0 0 (mask * 2 ^ 24) 0 0 0

theorem witness_maintenance : descRuns (kept (mover (maintDesc 0x30) {})) 0 0 0x30 {} ∧ descRuns (kept (mover (maintDesc 0x31) {})) 0 0 0x31 {} ∧
    descRuns (kept (mover (maintDesc 0x32) {})) 0 0 0x32 {} ∧ (maintOf (maintDesc 0x31)).coreTarget = false ∧
    (maintOf (maintDesc 0x31)).byWay = false ∧ maintBad (kept (mover (maintDesc 0x31) {})) 0 {} (maintDesc 0x31) false = false ∧
    maintWaits (kept (mover (maintDesc 0x31) {})) 0 (maintOf (maintDesc 0x31)) = false ∧
    jobRefusal (kept (mover (maintDesc 0x31) {})) {} false 0 128 = none ∧ (tkeys (cellarOf (kept (mover (maintDesc 0x31) {})) 0).lines).Nodup ∧
    (maintKeys (cellarOf (kept (mover (maintDesc 0x31) {})) 0).lines (maintOf (maintDesc 0x31)) 0).length = 2 := by
  (repeat' apply And.intro) <;> decide +kernel

theorem test_inval : (cellarOf (nextOf (exec (.inval 0 0) (kept (mover (maintDesc 0x31) {})))) 0).lines.length = 1 := by decide +kernel

theorem test_cleanInval : (cellarOf (nextOf (exec (.cleanInval 0 0) (kept (mover (maintDesc 0x32) {})))) 0).lines.length = 1 := by
  decide +kernel

theorem test_clean : (cellarOf (nextOf (exec (.clean 0 0) (kept (mover (maintDesc 0x30) {})))) 0).lines.map (·.2.dirty) = [0, 0] := by
  decide +kernel

/-- Twelve ways may be locked and thirteen not. -/
theorem witness_wayLock : descRuns (kept (mover (lockDesc 0x33 0x7FF) {})) 0 0 0x33 {} ∧
    maintBad (kept (mover (lockDesc 0x33 0x7FF) {})) 0 {} (lockDesc 0x33 0x7FF) true = false ∧
    lockAllowed (cellarOf (kept (mover (lockDesc 0x33 0x7FF) {})) 0) (Nat.lor (2 ^ 15) 0x7FF) = true ∧
    lockAllowed (cellarOf (kept (mover (lockDesc 0x33 0xFFF) {})) 0) (Nat.lor (2 ^ 15) 0xFFF) = false ∧
    descRuns (kept (mover (lockDesc 0x34 0x8001) {})) 0 0 0x34 {} := by (repeat' apply And.intro) <;> decide +kernel

theorem test_wayLock : (cellarOf (nextOf (exec (.wayLock 0 0) (kept (mover (lockDesc 0x33 0x7FF) {})))) 0).lockedWays = 0x87FF ∧
    (cellarOf (nextOf (exec (.wayLock 0 0) (kept (mover (lockDesc 0x33 0xFFF) {})))) 0).lockedWays = 0x8000 := by decide +kernel

theorem test_wayUnlock : (cellarOf (nextOf (exec (.wayUnlock 0 0) (kept (mover (lockDesc 0x34 0x8001) {})))) 0).lockedWays = 0 := by
  decide +kernel

/-! ### 12: attic ports -/

/-- A hub with a die at site 0, in a state that the function may change, and peg 255 of cellar 0. -/
def dieSite (x : Site) : State := { rdy with
  attic := { rdy.attic with sites := [(0, x)] }
  cells := { rdy.cells with pegs := [(255, { ptype := .semaphore, count := 4 })] }
  larder := { rdy.larder with steps := [(0, { phase := .saving, parts := [{ kind := 4 }] })] }
  mem := { rdy.mem with txns := [(2, { phase := .issued })] }
  pwr := { rdy.pwr with attic := [(0, { lastGrant := 100, measured := 100 })] }
  boot := { rdy.boot with bar2Log2 := 0, fuses := { rdy.boot.fuses with
    sites := [(0, { profile := some (0xE + 38 * 2 ^ 8 + 0xFFFF * 2 ^ 16), dieId := 5 })] } }
  trans := { rdy.trans with bindings := [(5, { profile := { bits := [9] } })], leaves := [{ pasid := 5, addr := 0x2000, out := 0x9000, write := true, dirtyOk := true }] } }

/-- A native die with every offer. -/
def die : Site := {
  astate := .up, present := true, everUp := true, linkA := true, linkB := true, modulesUp := 255, reported := false
  cap := { version := 0x10, caching := true, executor := true, preempt := true, urgency := true, maxOutstanding := 15 }
  parts := [{ stopping := true }], windowReqs := [(7, { opcode := 0x41, txn := some 2 })] }

/-- The die's message as the port has noted it. -/
def noted (op : Nat) (m : AtpMsg) : State := noteUrgency (dieSite die) 0 { m with opcode := op }

/-- A request for line 1, whole. -/
def lineMsg : AtpMsg := { txn := 4095, len := 4, address := 0x80, mask := 2 ^ 128 - 1, data := List.replicate 128 1#8 }

theorem witness_dieReads : dieSends (dieSite die) 0 0x01 lineMsg (noted 0x01 lineMsg) ∧ dieSends (dieSite die) 0 0x02 lineMsg (noted 0x02 lineMsg) ∧
    headerOk lineMsg = true ∧ unitsOk lineMsg = true ∧ (siteOf (noted 0x01 lineMsg) 0).cap.caching = true ∧
    dieMayName (noted 0x01 lineMsg) 0 true 0x80 = true ∧ dieMayName (noted 0x01 lineMsg) 0 true 0xFF0000000000 = false ∧
    headerOk { lineMsg with txn := 4096 } = false ∧ dieSends (dieSite die) 0 0x03 lineMsg (noted 0x03 lineMsg) ∧
    dieSends (dieSite die) 0 0x04 lineMsg (noted 0x04 lineMsg) := by
  (repeat' apply And.intro) <;> first | with_reducible rfl | decide +kernel

/-- How many transactions wait at the site's port. -/
def atSite (o : Host.Outcome State Fault Refusal) : Nat := (waitingAt (nextOf o) 64).length

theorem test_rdShared : atSite (exec (.rdShared 0 lineMsg) (dieSite die)) = 1 := by decide +kernel
theorem test_rdOwn : atSite (exec (.rdOwn 0 lineMsg) (dieSite die)) = 1 := by decide +kernel
theorem test_rdNc : atSite (exec (.rdNc 0 lineMsg (.data [])) (dieSite die)) = 1 := by decide +kernel
theorem test_wrNc : atSite (exec (.wrNc 0 lineMsg) (dieSite die)) = 1 := by decide +kernel

theorem test_rdShared_malformed :
    (siteOf (nextOf (exec (.rdShared 0 { lineMsg with txn := 4096 }) (dieSite die))) 0).protocolErrors = 1 := by decide +kernel

/-- A request for the last unit of a line of host memory under PASID 5. -/
def hostMsg : AtpMsg := { txn := 1, len := 1, host := true, address := 0x2060, pasid := 5, mask := 2 ^ 128 - 1, data := List.replicate 32 2#8 }

theorem witness_dieHost : headerOk hostMsg = true ∧ unitsOk hostMsg = true ∧ (siteOf (noted 0x03 hostMsg) 0).cap.cxl = false ∧
    (translate (noted 0x03 hostMsg) 5 (siteOwner (noted 0x03 hostMsg) 0) 0x2060 false (.attic 0 1)).2 = .ok 0x9060 0xFA0 ∧
    (translate (noted 0x04 hostMsg) 5 (siteOwner (noted 0x04 hostMsg) 0) 0x2060 true (.attic 0 1)).2 = .ok 0x9060 0xFA0 ∧
    (List.replicate 32 3#8 : Bytes).length = 32 * hostMsg.len := by decide +kernel

/-- A compare-and-swap of 64 bits at the end of a unit. -/
def casMsg : AtpMsg := { txn := 1, len := 1, address := 0x98, aop := 7, atype := 2, data := List.replicate 32 0#8 }

theorem witness_dieAtomic : dieSends (dieSite die) 0 0x07 casMsg (noted 0x07 casMsg) ∧ aopOf casMsg.aop = some .cas ∧
    atypeOf casMsg.atype = some .u64 ∧ headerOk casMsg = true ∧ atomDefined .cas .u64 = true ∧
    dieMayName (noted 0x07 casMsg) 0 false 0x98 = true ∧ 0x98 % atomBytes .u64 = 0 := by
  (repeat' apply And.intro) <;> first | with_reducible rfl | decide +kernel

theorem test_atpAtomic : atSite (exec (.atpAtomic 0 casMsg) (dieSite die)) = 1 := by decide +kernel

/-- Line 1 owned by the die, or shared by it and site 1; a snoop of it. -/
def withDir (e : DirEntry) (sn : Option Snoop) : State := { dieSite die with
  attic := { (dieSite die).attic with dir := [(1, e)], snoops := (match sn with | some x => [(1, x)] | none => []) } }

/-- What the die gave back, on its way to the home of line 1. -/
def backTxn (k : TxnKind) : Txn :=
  { phase := .issued, client := .dieBack 0 9, kind := k, hpa := 0x80, master := 64, units := 4, data := [(127, 9#8)] }
def backHome (e : DirEntry) (k : TxnKind) : State :=
  { withDir e none with mem := { rdy.mem with txns := [(2, backTxn k)] } }

theorem witness_writeBacks : dieSends (dieSite die) 0 0x05 lineMsg (noted 0x05 lineMsg) ∧ dieSends (dieSite die) 0 0x06 lineMsg (noted 0x06 lineMsg) ∧
    headerOk lineMsg = true ∧ unitsOk lineMsg = true ∧ dieMayName (noted 0x05 lineMsg) 0 true lineMsg.address = true ∧
    tfind (withDir { owner := some 0 } (some { sites := [0] })).attic.snoops 1 = some { sites := [0] } ∧ lineMsg.len ≤ 4 := by
  (repeat' apply And.intro) <;> first | with_reducible rfl | decide +kernel

theorem witness_backHome : ∀ k ∈ [TxnKind.read, .write], admitOne (backHome { owner := some 0, halves := 3 } k) 0 true 0x80 = .ok (.shelf 0) ∧
    admitOne (backHome { owner := some 0, halves := 3 } k) 0 false 0x80 = .ok (.shelf 0) ∧
    arbitrated (backHome { owner := some 0, halves := 3 } k) 2 (backTxn k) = true ∧
    shelfHolds (backHome { owner := some 0, halves := 3 } k) 0x80 = false ∧
    (∃ t1, txnOf (arriveTxn (backHome { owner := some 0, halves := 3 } k) 2 (backTxn k) true) 2 = some t1 ∧
      shelfTakes (arriveTxn (backHome { owner := some 0, halves := 3 } k) 2 (backTxn k) true) 2 0 t1) ∧
    tfind (backHome { owner := some 0, halves := 3 } k).attic.dir (0x80 / 128) = some { owner := some 0, halves := 3 } ∧
    tfind (backHome { sharers := 3 } k).attic.dir (0x80 / 128) = some { sharers := 3 } ∧
    Memory.wf (backHome { owner := some 0, halves := 3 } k).mem.bytes = true := by
  intro k hk
  simp only [List.mem_cons, List.mem_nil_iff, or_false] at hk
  rcases hk with rfl | rfl <;>
    exact ⟨by decide +kernel, by decide +kernel, by decide +kernel, by decide +kernel, ⟨_, rfl, by unfold shelfTakes; decide +kernel⟩,
      by decide +kernel, by decide +kernel, by decide +kernel⟩

theorem test_wbDirty : atSite (exec (.wbDirty 0 lineMsg) (withDir { owner := some 0, halves := 3 } none)) = 1 ∧
    (nextOf (exec (.shelfAccess 2 .good .good) (backHome { owner := some 0, halves := 3 } .write))).attic.dir = [] ∧
    (readByte (nextOf (exec (.shelfAccess 2 .good .good) (backHome { owner := some 0, halves := 3 } .write))) 0xFF).1 = 9#8 := by decide +kernel

theorem test_evictClean : atSite (exec (.evictClean 0 lineMsg) (withDir { sharers := 3, halves := 15 } none)) = 1 ∧
    (tfind (nextOf (exec (.shelfAccess 2 .good .good) (backHome { sharers := 3, halves := 15 } .read))).attic.dir 1).map (·.sharers)
      = some 2 := by decide +kernel

theorem test_snpRsp : (nextOf (exec (.snpRsp 0 lineMsg) (withDir { owner := some 0, halves := 3 } (some { sites := [0] })))).attic.dir = [] ∧
    (readByte (nextOf (exec (.snpRsp 0 lineMsg) (withDir { owner := some 0, halves := 3 } (some { sites := [0] })))) 0xFF).1 = 1#8 := by
  decide +kernel

/-- A peg operation on peg 255 with operand 5. -/
def pegMsg (aop : Nat) : AtpMsg := { txn := 1, len := 1, address := 255, aop := aop, data := leBytes 32 5 }

theorem witness_diePegs : dieSends (dieSite die) 0 0x08 (pegMsg 1) (noted 0x08 (pegMsg 1)) ∧ headerOk (pegMsg 4) = true ∧
    leAt (pegMsg 1).data 0 8 % 2 ^ 32 = 5 ∧ pegAllowed (noted 0x08 (pegMsg 1)) (siteOwner (noted 0x08 (pegMsg 1)) 0) 255 = true ∧
    (pegOf (noted 0x08 (pegMsg 1)) 255).waiters = [] ∧ pegMeets (pegOf (noted 0x08 (pegMsg 1)) 255) 5 = none ∧
    pegOvertakes (noted 0x08 (pegMsg 1)) 0 = false ∧ pegPasses (noted 0x08 (pegMsg 1)) 64 255 = true ∧
    pegPasses { noted 0x08 (pegMsg 1) with reg := { rdy.reg with masters := [(64, { budget := 0 })] } } 64 255 = false ∧
    pegAllowed (noted 0x08 (pegMsg 1)) 0 254 = false ∧ pegCode (noted 0x08 (pegMsg 1)) 254 = ecAccessError := by
  (repeat' apply And.intro) <;> first | with_reducible rfl | decide +kernel

theorem test_pegOp : (pegOf (nextOf (exec (.pegOp 0 (pegMsg 0)) (dieSite die))) 255).count = 9 ∧
    (pegOf (nextOf (exec (.pegOp 0 (pegMsg 1)) (dieSite die))) 255).waiters.length = 1 := by decide +kernel

/-- The end of a part, its save, and its token. -/
def tokenMsg : AtpMsg := { txn := 0, len := 1, data := List.replicate 32 7#8 }

theorem witness_dieParts : dieSends (dieSite die) 0 0x09 tokenMsg (noted 0x09 tokenMsg) ∧ dieSends (dieSite die) 0 0x0A tokenMsg (noted 0x0A tokenMsg) ∧
    dieParts (noted 0x0A tokenMsg) 0 0 = [{ stopping := true }] ∧ (partAt (noted 0x0A tokenMsg) 0 0).isSome = true ∧
    ((stepOf (noted 0x0A tokenMsg) 0).map (·.phase)) = some .saving ∧ tokenMsg.data.length = 32 ∧
    (siteOf (noted 0x0A tokenMsg) 0).cap.preempt = true := by
  (repeat' apply And.intro) <;> first | with_reducible rfl | decide +kernel

theorem test_atpStepDone : (partAt (nextOf (exec (.atpStepDone 0 tokenMsg) (dieSite die))) 0 0).map (·.phase) = some .done := by
  decide +kernel

theorem test_stepSaved : (partAt (nextOf (exec (.stepSaved 0 tokenMsg) (dieSite die))) 0 0).map (fun p => (p.phase, p.token))
    = some (.saved, List.replicate 32 7#8) := by decide +kernel

/-- 5% over a grant of 100 is 105; the report before the next strum (12 R327). -/
theorem witness_powerReports : hearsDie (dieSite die) 0 = true ∧ (siteOf (dieSite die) 0).reported = false ∧
    (atticPowerOf (dieSite die) 0).lastGrant * 105 < 106 * 100 ∧ 105 * 100 ≤ (atticPowerOf (dieSite die) 0).lastGrant * 105 ∧
    (atticPowerOf (dieSite die) 0).measured * 95 ≤ 95 * 100 ∧ (siteOf (dieSite die) 0).cap.urgency = true := by decide +kernel

theorem test_powerReport : (siteOf (nextOf (exec (.powerReport 0 106) (dieSite die))) 0).powerOver = 1 ∧
    (siteOf (nextOf (exec (.powerReport 0 105) (dieSite die))) 0).powerOver = 0 := by decide +kernel

theorem test_urgency : (tget (nextOf (exec (.urgency 0 { urgency := 3 }) (dieSite die))).reg.masters 64 {}).urgency = 3 := by
  decide +kernel

/-- The data of a read that the die answers. -/
def rspMsg : AtpMsg := { txn := 7, len := 4, status := 0, data := List.replicate 128 9#8 }

theorem witness_atpRsp : dieSends (dieSite die) 0 0x11 rspMsg (noted 0x11 rspMsg) ∧
    tfind (siteOf (noted 0x11 rspMsg) 0).windowReqs 7 = some { opcode := 0x41, txn := some 2 } ∧
    ((txnOf (noted 0x11 rspMsg) 2).map (·.phase)) = some .issued ∧ (tkeys (noted 0x11 rspMsg).mem.txns).Nodup := by
  (repeat' apply And.intro) <;> first | with_reducible rfl | decide +kernel

theorem test_atpRsp : ((txnOf (nextOf (exec (.atpRsp 0 rspMsg) (dieSite die))) 2).map (fun t => (t.phase, tget t.result 127 0#8)))
    = some (.done, 9#8) := by decide +kernel

/-- A site in its first or third attempt, and a capability that fits the profile or offers too few requests. -/
def trying (n : Nat) : Site := { astate := .training, present := true, attempts := n }
def goodCap : DieCap := { version := 0x10, caching := true, executor := true, windowLog2 := 30, maxOutstanding := 15, powerMax := 0xFFFF, dieId := 5 }

theorem witness_bringUp : inAttempt (dieSite (trying 1)) 0 = true ∧ (siteOf (dieSite (trying 1)) 0).afterReset = false ∧
    trained (siteOf (applyLanes (dieSite (trying 1)) 0 {}) 0) ({} : LaneTest).rate = true ∧
    capRefused (applyLanes (dieSite (trying 1)) 0 {}) 0 goodCap = none ∧
    capRefused (applyLanes (dieSite (trying 3)) 0 {}) 0 { goodCap with maxOutstanding := 14 } = some downCapability ∧
    (siteOf (dieSite (trying 1)) 0).everUp = false ∧ (siteOf (dieSite (trying 1)) 0).attempts < 3 ∧
    (siteOf (dieSite { trying 1 with everUp := true }) 0).everUp = true ∧ 3 ≤ (siteOf (dieSite (trying 3)) 0).attempts := by
  decide +kernel

theorem test_dieCap : (siteOf (nextOf (exec (.dieCap 0 goodCap {}) (dieSite (trying 1)))) 0).astate = .up ∧
    (siteOf (nextOf (exec (.dieCap 0 { goodCap with maxOutstanding := 14 } {}) (dieSite (trying 1)))) 0).attempts = 2 := by decide +kernel

theorem test_dieCapTimeout : (siteOf (nextOf (exec (.dieCapTimeout 0) (dieSite (trying 1)))) 0).attempts = 2 := by decide +kernel

theorem test_atticSidebandTimeout : (siteOf (nextOf (exec (.atticSidebandTimeout 0) (dieSite (trying 1)))) 0).unfitted = true := by
  decide +kernel

/-- A bring-up after a reset, with the map of a die without failed lanes, and one of a narrower module. -/
def remapping (n : Nat) : Site := { trying 1 with afterReset := true, everUp := true, disagreements := n }
def sameMap : LaneMapIn := { modules := List.replicate 8 (3, 0) }

theorem witness_laneMaps : inAttempt (dieSite (remapping 0)) 0 = true ∧ (siteOf (dieSite (remapping 0)) 0).lanesAgreed = false ∧
    trained (siteOf (applyLanes (dieSite (remapping 0)) 0 {}) 0) 32 = true ∧
    mapsAgree (siteOf (applyLanes (dieSite (remapping 0)) 0 {}) 0) sameMap = true ∧
    mapsAgree (siteOf (applyLanes (dieSite (remapping 2)) 0 {}) 0) {} = false ∧
    (siteOf (dieSite (remapping 1)) 0).disagreements < 2 ∧ 2 ≤ (siteOf (dieSite (remapping 2)) 0).disagreements := by decide +kernel

theorem test_laneMap : (siteOf (nextOf (exec (.laneMap 0 sameMap {}) (dieSite (remapping 0)))) 0).lanesAgreed = true ∧
    (siteOf (nextOf (exec (.laneMap 0 {} {}) (dieSite (remapping 2)))) 0).astate = .down := by decide +kernel

theorem witness_dieLosses : hearsDie (withDir { owner := some 0, halves := 3 } (some { sites := [0] })) 0 = true ∧
    (tkeys (withDir { owner := some 0, halves := 3 } (some { sites := [0] })).attic.dir).Nodup ∧
    2 ^ 32 % 2 ^ 32 = (siteOf (dieSite die) 0).dieEpoch ∧ 1 % 2 ^ 32 ≠ (siteOf (dieSite die) 0).dieEpoch ∧
    (∃ e ∈ (withDir {} (some { sites := [0] })).attic.snoops, ∃ k ∈ e.2.sites, k % 8 = 0) ∧
    siteHalves { owner := some 0, halves := 3 } 0 = 3 ∧ ({ stopping := true } : AtticPart) ∈ dieParts (dieSite die) 0 0 := by
  (repeat' apply And.intro) <;> decide +kernel

/-- What every loss of a die shows. -/
def gone (o : Host.Outcome State Fault Refusal) : Nat × List AtticPart × Nat :=
  ((nextOf o).attic.dir.length, (siteOf (nextOf o) 0).parts, (siteOf (nextOf o) 0).portResets)
def ownedLine : State := withDir { owner := some 0, halves := 3 } (some { sites := [0] })

theorem test_heartbeat : gone (exec (.heartbeat 0 1) ownedLine) = (0, [], 1) ∧ gone (exec (.heartbeat 0 (2 ^ 32)) ownedLine)
    = (1, [{ stopping := true }], 0) := by decide +kernel
theorem test_dieHeartbeatTimeout : gone (exec (.dieHeartbeatTimeout 0) ownedLine) = (0, [], 1) := by decide +kernel
theorem test_dieCreditTimeout : gone (exec (.dieCreditTimeout 0) ownedLine) = (0, [], 1) := by decide +kernel
theorem test_dieSnoopTimeout : gone (exec (.dieSnoopTimeout 0) ownedLine) = (0, [], 1) := by decide +kernel
theorem test_resetReq : gone (exec (.resetReq 0) ownedLine) = (0, [], 1) := by decide +kernel
theorem test_dieStepTimeout : gone (exec (.dieStepTimeout 0 0) ownedLine) = (0, [], 1) := by decide +kernel

theorem witness_atticLinks : mayTrain (dieSite die) 0 ∧ (siteOf (dieSite die) 0).linkB = true ∧
    (siteOf (dieSite { die with linkB := false }) 0).linkB = false ∧ (siteOf (dieSite die) 0).astate = .up ∧
    onLink (siteOf (dieSite die) 0) true (some 0x100) = true := by (repeat' apply And.intro) <;> decide +kernel

theorem test_atticLinkDown : (siteOf (nextOf (exec (.atticLinkDown 0 true) (dieSite die))) 0).linkB = false := by decide +kernel
theorem test_atticLinkUp : (siteOf (nextOf (exec (.atticLinkUp 0 true) (dieSite { die with linkB := false }))) 0).astate = .retraining := by
  decide +kernel

theorem witness_rails : logicalSite (dieSite {}) 1 = some 1 ∧ isReady (dieSite {}) = true ∧ (siteOf (dieSite {}) 1).astate = .absent ∧
    domainLive (dieSite {}) (domAttic 1) = true ∧ (siteOf (dieSite {}) 1).unfitted = false ∧ (siteOf (dieSite {}) 1).everUp = false := by
  decide +kernel

theorem test_vddAtticGood : (siteOf (nextOf (exec (.vddAtticGood 1) (dieSite {}))) 1).astate = .training := by decide +kernel

/-! ### 13: lanes of an engine -/

/-- Engine 0 native and UP on lanes 0 and 15, lane 1 in training; engine 1 in training; engine 2 Ethernet with ports 0 and 3. -/
def lanesUp : List (Nat × Lane) := [(0, { lstate := .active, cdr := true, markers := 9 }), (1, { lstate := .training, cdr := true, markers := 1 }), (15, { lstate := .active, cdr := true })]
def eng0 : Engine := { estate := .up, mode := 1, rate := 2, rxMask := 0x8001, txMask := 0x8001, minLanes := 1, lanes := lanesUp }
def eng1 : Engine := { eng0 with estate := .training, rxMask := 0, txMask := 0 }
def eng2 : Engine := {
  estate := .up, mode := 2, cfgMode := 2, ethUp := 9
  lanes := (List.range 16).map (fun l => (l, { lstate := .active, cdr := true })) }
def linkS (a : Engine) : State := { rdy with
  link := { engines := [(0, a), (1, eng1), (2, eng2)] }
  boot := { rdy.boot with presentEngines := 7 } }

theorem witness_cdrLocked : laneLive (linkS eng0) 0 15 = true ∧ isEthernet (engineOf (linkS eng0) 0) = false ∧
    laneLive (linkS eng0) 2 15 = true ∧ isEthernet (engineOf (linkS eng0) 2) = true ∧
    ∀ i, i < 4 → i ≠ 15 % 4 → (laneOf (engineOf (linkS eng0) 2) (4 * (15 / 4) + i)).cdr = true := by decide +kernel

theorem test_cdrLocked : (laneOf (engineOf (nextOf (exec (.cdrLocked 1 1) (linkS eng0))) 1) 1).markers = 0 := by decide +kernel

/-- The second good marker of lane 1, at the largest skew that R358 takes, and a bad one. -/
theorem witness_marker : laneLive (linkS eng0) 1 1 = true ∧ isEthernet (engineOf (linkS eng0) 1) = false ∧
    (laneOf (engineOf (linkS eng0) 1) 1).cdr = true ∧ (2 : Nat) = (engineOf (linkS eng0) 1).rate ∧
    (engineOf (linkS eng0) 1).estate = .training ∧ (laneOf (engineOf (linkS eng0) 1) 1).lstate = .training ∧
    1 ≤ (laneOf (engineOf (linkS eng0) 1) 1).markers ∧ (lineMarker { lane := 1, skew := 64 } : Marker) = { lane := 1, skew := 64 } ∧
    (lineMarker { lane := 1, skew := 64 }).laneState ≠ 3 ∧ 64 ≤ ({ lane := 1, skew := 64 } : Marker).codewords := by decide +kernel

theorem test_markerReceived :
    (engineOf (nextOf (exec (.markerReceived 1 { lane := 1, skew := 64 }) (linkS eng0))) 1).rxMask = 2 ∧
    (engineOf (nextOf (exec (.markerReceived 1 { lane := 1, skew := 65 }) (linkS eng0))) 1).rxMask = 0 ∧
    (engineOf (nextOf (exec (.markerReceived 1 { lane := 1, good := false }) (linkS eng0))) 1).rxMask = 0 := by decide +kernel

/-- Losing lane 15 of two leaves one; with MIN_LANES at 2 that is too few. -/
theorem witness_laneLoss : laneLive (linkS eng0) 0 15 = true ∧ (engineOf (linkS eng0) 0).estate = .up ∧
    bitAt (engineOf (linkS eng0) 0).rxMask 15 = true ∧
    (engineOf (linkS eng0) 0).minLanes ≤ popCount (clearBit (engineOf (linkS eng0) 0).rxMask 15) 16 ∧
    popCount (clearBit (engineOf (linkS { eng0 with minLanes := 2 }) 0).rxMask 15) 16 < (engineOf (linkS { eng0 with minLanes := 2 }) 0).minLanes ∧
    (engineOf (linkS eng0) 0).cfgMode ≠ 0 ∧ (engineOf (linkS eng0) 0).eqTableBad = false := by decide +kernel

theorem test_laneLoss : (engineOf (nextOf (exec (.laneLoss 0 15 3) (linkS eng0))) 0).rxMask = 1 ∧
    (engineOf (nextOf (exec (.laneLoss 0 15 3) (linkS { eng0 with minLanes := 2 }))) 0).lastReason = 2 := by decide +kernel

theorem witness_trainingTimeout : (engineOf (linkS eng0) 1).estate = .training ∧ (engineOf (linkS eng0) 1).cfgMode ≠ 0 ∧
    (engineOf (linkS eng0) 1).eqTableBad = false ∧ (engineOf (linkS eng0) 1).downRaised = false ∧
    (engineOf (linkS { eng1 with downRaised := true }) 0).downRaised = true ∧
    (engineOf (linkS { eng1 with downRaised := true }) 0).estate = .training := by decide +kernel

theorem test_trainingTimeout : (engineOf (nextOf (exec (.trainingTimeout 1) (linkS eng0))) 1).downCount = 1 ∧
    (engineOf (nextOf (exec (.trainingTimeout 0) (linkS { eng1 with downRaised := true }))) 0).downCount = 0 := by decide +kernel

theorem witness_ethPortLaneLoss : laneLive (linkS eng0) 2 15 = true ∧ isEthernet (engineOf (linkS eng0) 2) = true ∧
    bitAt (engineOf (linkS eng0) 2).ethUp (15 / 4) = true ∧ clearBit (engineOf (linkS eng0) 2).ethUp (15 / 4) ≠ 0 := by decide +kernel

theorem test_ethPortLaneLoss : (engineOf (nextOf (exec (.ethPortLaneLoss 2 15) (linkS eng0))) 2).ethUp = 1 := by decide +kernel

/-! ### 14: flits, keys and routes -/

/-- The link of engine 0 in a state of its link layer; node 9 lies behind it, node 11 behind nothing. -/
def llS (l : LinkLayer) : State := { linkS eng0 with
  chord := { node := 4, lls := [(0, l)], routes := [(0, { node := 9, engines := 1, hops := 2 })] } }
def llOpen : LinkLayer := {
  llstate := .opened, rxNext := 5, txCount := 70, txAcked := 66, learned := [(9, 1, 0), (8, 1, 3)] }

theorem witness_flit : nativeUp (llS llOpen) 0 = true ∧ (5 : Nat) = (llOf (llS llOpen) 0).rxNext ∧ (4 : Nat) ≠ (llOf (llS llOpen) 0).rxNext ∧
    (llOf (llS llOpen) 0).rxNext < 6 ∧ ({ count := 5 } : FlitIn).nak = false ∧ (∀ q ∈ (llS llOpen).chord.peers, q.2.queue = []) ∧
    (llOf (llS llOpen) 0).switchRx ≠ some 6 := by decide +kernel

theorem test_flit : (llOf (nextOf (exec (.flit 0 { count := 5, cred := [1, 0, 0, 2] }) (llS llOpen))) 0).rxNext = 6 ∧
    (llOf (nextOf (exec (.flit 0 { count := 5, tagOk := false }) (llS llOpen))) 0).authFails = 1 ∧
    (llOf (nextOf (exec (.flit 0 { count := 6 }) (llS llOpen))) 0).nakOwed = true := by decide +kernel

theorem witness_replay : (llOf (llS llOpen) 0).txAcked < (llOf (llS llOpen) 0).txCount ∧ (llOf (llS llOpen) 0).replayed < 16 ∧
    (llOf (llS { llOpen with ackOwed := true, txAcked := 0, txCount := 4095 }) 0).ackOwed = true ∧ 4095 - 0 < 4096 := by decide +kernel

theorem test_replayTimeout : (llOf (nextOf (exec (.replayTimeout 0) (llS llOpen))) 0).replays = 4 := by decide +kernel
theorem test_flitKeepalive :
    (llOf (nextOf (exec (.flitKeepalive 0) (llS { llOpen with ackOwed := true, txAcked := 0, txCount := 4095 }))) 0).txCount = 4096 := by
  decide +kernel

theorem witness_llCap : nativeUp (llS { llstate := .cap }) 0 = true ∧ (llOf (llS { llstate := .cap }) 0).llstate = .cap ∧
    (llS { llstate := .cap }).chord.node = 4 ∧ 0x1F / 16 = 1 ∧ 0x2F / 16 ≠ 1 := by decide +kernel

theorem test_llCap : (nextOf (exec (.llCap 0 { node := 9, ll := 0x1F }) (llS { llstate := .cap }))).out.head? = some (.linkCtl 0 2 4) := by
  decide +kernel
theorem test_llCapOwn : (llOf (nextOf (exec (.llCap 0 { node := 4 }) (llS { llstate := .cap }))) 0).llstate = .mismatch := by decide +kernel

def keyS : LinkLayer := { llstate := .keying, partner := 9, helloIn := true, rxNext := 77 }

theorem witness_keying : nativeUp (llS keyS) 0 = true ∧ (llOf (llS keyS) 0).llstate = .keying ∧ (9 : Nat) = (llOf (llS keyS) 0).partner ∧
    (llOf (llS keyS) 0).helloIn = true := by decide +kernel

theorem test_keyHello : (llOf (nextOf (exec (.keyHello 0 9 {}) (llS { keyS with helloIn := false }))) 0).helloIn = true ∧
    (llOf (nextOf (exec (.keyHello 0 9 { certOk := false }) (llS keyS))) 0).llstate = .mismatch := by decide +kernel
theorem test_keyFinish : (llOf (nextOf (exec (.keyFinish 0 {}) (llS keyS))) 0).rxNext = 0 ∧
    (llOf (nextOf (exec (.keyFinish 0 { sigOk := false }) (llS keyS))) 0).llstate = .mismatch := by decide +kernel

/-- A switch count exactly 2^16 ahead, and a key that has carried 2^47 flits. -/
theorem witness_keyUpdate : (llOf (llS { llOpen with rxNext := 2 ^ 16 }) 0).llstate = .opened ∧
    (llOf (llS { llOpen with rxNext := 2 ^ 16 }) 0).rxNext + 2 ^ 16 ≤ 2 ^ 17 ∧ nativeUp (llS { llOpen with rxNext := 2 ^ 16 }) 0 = true ∧
    nativeUp (llS { llOpen with txCount := 2 ^ 47 }) 0 = true ∧ (llOf (llS { llOpen with txCount := 2 ^ 47 }) 0).switchTx = none ∧
    (llOf (llS { llOpen with txCount := 2 ^ 47 }) 0).txBase + 2 ^ 47 ≤ (llOf (llS { llOpen with txCount := 2 ^ 47 }) 0).txCount ∧
    mayUpdate (llS { llOpen with txCount := 2 ^ 47, txAcked := 2 ^ 47 - 4 }) 0 (roundUp (2 ^ 47 - 0 + 2 ^ 16) (2 ^ 16)) = true ∧
    mayUpdate (llS { llOpen with txCount := 2 ^ 47 }) 0 (roundUp (2 ^ 47 - 0 + 2 ^ 16) (2 ^ 16)) = false := by
  decide +kernel

theorem test_keyUpdate : (llOf (nextOf (exec (.keyUpdate 0 (2 ^ 17)) (llS { llOpen with rxNext := 2 ^ 16 }))) 0).switchRx = some (2 ^ 17) ∧
    (llOf (nextOf (exec (.keyUpdate 0 (2 ^ 17)) (llS { llOpen with rxNext := 2 ^ 16 + 1 }))) 0).switchRx = none := by decide +kernel
theorem test_keyUpdateTrigger :
    (llOf (nextOf (exec (.keyUpdateTrigger 0) (llS { llOpen with txCount := 2 ^ 47, txAcked := 2 ^ 47 - 4 }))) 0).switchTx.isSome = true := by decide +kernel

theorem witness_routes : nativeUp (llS llOpen) 0 = true ∧ (llOf (llS llOpen) 0).llstate = .opened ∧
    (8, 1, 3) ∈ (llOf (llS llOpen) 0).learned ∧ (∀ n ∈ [(7, 3)], n.1 ≠ 8) ∧
    (∃ r ∈ (llOf (llS llOpen) 0).learned, r.1 = 9) := by
  (repeat' apply And.intro) <;> decide +kernel

theorem test_routeAdv : (llOf (nextOf (exec (.routeAdv 0 [(7, 3), (6, 4)]) (llS llOpen))) 0).learned.map (·.1) = [9, 7] ∨
    (llOf (nextOf (exec (.routeAdv 0 [(7, 3), (6, 4)]) (llS llOpen))) 0).learned.map (·.1) = [7, 9] := by decide +kernel
theorem test_routeAgeOut : (llOf (nextOf (exec (.routeAgeOut 0 9) (llS llOpen))) 0).learned = [(8, 1, 3)] := by decide +kernel

theorem witness_forward : (9 : Nat) ≠ (llS llOpen).chord.node ∧ routeEngines (llS llOpen) 11 = [] ∧
    (∃ x ∈ routeEngines (llS llOpen) 9, mayTransmit (llS llOpen) x { dst := 9, hops := 1 } = true) ∧
    portPasses (llS llOpen) (chordMaster 0) (packetUnits { dst := 9, hops := 1 }) = true ∧
    portPasses { llS llOpen with reg := { (llS llOpen).reg with masters := [(72, { budget := 0 })] } } (chordMaster 0) (packetUnits { dst := 9, hops := 1 }) = false := by
  (repeat' apply And.intro) <;> decide +kernel

theorem test_forward : (nextOf (exec (.forward 0 { dst := 9, hops := 1 }) (llS llOpen))).out = [.packet 0 { dst := 9, hops := 0 }] ∧
    (nextOf (exec (.forward 0 { dst := 9, hops := 0 }) (llS llOpen))).chord.hopsExpired = 1 ∧
    (nextOf (exec (.forward 0 { dst := 11, hops := 1 }) (llS llOpen))).chord.noRoute = 1 := by decide +kernel

/-! ### 14: transfers of this hub -/

/-- A hub with one descriptor at cellar 0's mover, window 0 of one 64 KiB unit to node 9, send tag 0x77 and peer entry 3. -/
def peerS (body : Bytes) (j : MoverJob) (p : Peer) : State := { mover body j with
  link := (linkS eng0).link
  chord := { node := 4, lls := [(0, llOpen)], routes := [(0, { node := 9, engines := 1, hops := 2 })], tags := [(0, (0x77, true))]
             windows := [(0, { node := 9, remoteBase := 0x20000 })], peers := [(3, p)] } }
def node9 : Peer := { node := 9, remote := some 1, epoch := 5 }
def putDesc : Bytes := desc 0x40 scratchBase (peerBase + 0xFFC0) 64 0 0 0
def getDesc : Bytes := desc 0x41 (peerBase + 0xFFC0) scratchBase 64 0 0 0
/-- SIGNAL of three to peg 255. -/
def signalDesc : Bytes := desc 0x42 (255 * 2 ^ 16) 3 0 0 0 0

theorem witness_put : descRuns (peerS putDesc {} node9) 0 0 0x40 {} ∧ rangeReady (peerS putDesc {} node9) 0 {} false scratchBase 64 ∧
    jobRefusal (peerS putDesc {} node9) {} true (peerBase + 0xFFC0) 64 = none ∧ peerFind (peerS putDesc {} node9) 9 0 = some 3 ∧
    transferBad (peerS putDesc {} node9) {} putDesc true = false ∧ hasReservation (peerS putDesc {} node9) 0 0 = false ∧
    bbits putDesc 8 4 = 0 ∧ bbits putDesc 192 32 = 64 ∧ (peerBase + 0xFFC0 - peerBase) / peerStride = 0 ∧
    (peerOf (peerS putDesc {} { node9 with unreachable := true }) 3).unreachable = true ∧
    transferBad (peerS (desc 0x40 scratchBase peerBase 0 0 0 0) {} node9) {} (desc 0x40 scratchBase peerBase 0 0 0 0) true = true := by
  (repeat' apply And.intro) <;> decide +kernel

theorem test_put : ((tfind (peerOf (nextOf (exec (.put 0 0 (.data [])) (peerS putDesc {} node9))) 3).messages 0).map
    (fun m => (m.addr, m.bytes, m.packets.map (·.tag)))) = some (0x2FFC0, 64, [0x77]) ∧
    ((jobFind (nextOf (exec (.put 0 0 (.data [])) (peerS putDesc {} { node9 with unreachable := true }))) 0 0).bind (·.result)).isSome = true := by
  decide +kernel

theorem witness_get : descRuns (peerS getDesc {} node9) 0 0 0x41 {} ∧ rangeReady (peerS getDesc {} node9) 0 {} true scratchBase 64 ∧
    jobRefusal (peerS getDesc {} node9) {} false (peerBase + 0xFFC0) 64 = none ∧
    transferBad (peerS getDesc {} node9) {} getDesc false = false ∧ (peerOf (peerS getDesc {} node9) 3).nextMsg < 2 ^ 32 ∧
    bbits getDesc 8 4 = 0 ∧
    transferBad (peerS (desc 0x41 peerBase scratchBase 0 0 0 0) {} node9) {} (desc 0x41 peerBase scratchBase 0 0 0 0) false = true := by
  (repeat' apply And.intro) <;> decide +kernel

theorem test_get : ((tfind (peerOf (nextOf (exec (.get 0 0) (peerS getDesc {} node9))) 3).messages 0).map
    (fun m => (m.ptype, m.addr, m.bytes))) = some (ptReadReq, 0x2FFC0, 64) := by decide +kernel

theorem witness_signal : descRuns (peerS signalDesc {} node9) 0 0 0x42 {} ∧ bbits signalDesc 70 10 = 0 ∧ bbits signalDesc 94 2 = 0 ∧
    bbits signalDesc 99 29 = 0 ∧ bbits signalDesc 152 232 = 0 ∧ bbits signalDesc 448 64 = 0 ∧ bbits signalDesc 48 16 = 0 ∧
    bbits signalDesc 96 3 = 0 ∧ windowPegRefused (peerS signalDesc {} node9) (stepPart (peerS signalDesc {} node9) 0) 0 = none ∧
    3 ≤ spanOf (peerS signalDesc {} node9) node9 := by (repeat' apply And.intro) <;> decide +kernel

theorem test_signal : ((tfind (peerOf (nextOf (exec (.signal 0 0) (peerS signalDesc {} node9))) 3).messages 0).map
    (fun m => m.packets.map (fun k => (k.addr, k.payload)))) = some [(255, [3#8, 0#8, 0#8])] := by decide +kernel

/-- A group block of nodes 4 and 9 at the scratch, and an ALLTOALL or ALLREDUCE of 256 bytes in that group. -/
def collDesc (op timeout : Nat) : Bytes :=
  words op (scratchBase + 0x1000) ++ words (scratchBase + 0x2000) 256 ++ words scratchBase (11 + timeout * 2 ^ 32) ++
    words 0 (if op = 0x43 then scratchBase + 0x3000 else 0)
def collS (op : Nat) : State := { peerS (collDesc op 7) {} node9 with
  mem := { rdy.mem with bytes := [⟨scratchBase, 0x10#8⟩, ⟨scratchBase + 1, 2#8⟩, ⟨scratchBase + 8, 4#8⟩, ⟨scratchBase + 12, 9#8⟩] } }

/-- The states that posting it goes through. -/
def collAt (op : Nat) : State × State × State × State × State :=
  let i : MoverJob := { started := true }
  let s0 := startedAt (collS op) 0 0 {}
  let s1 := (routeReads s0 0 i [(scratchBase, 8)]).1
  let s2 := (routeReads s1 0 i [(scratchBase + 8, 8)]).1
  let s3 := (routeReads s2 0 i [(scratchBase + 0x1000, if op = 0x43 then 256 else 512)]).1
  let s4 := (routeWrites s3 0 i ([(scratchBase + 0x2000, if op = 0x43 then 256 else 512)] ++ (if op = 0x43 then [(scratchBase + 0x3000, 256)] else []))).1
  (s1, s2, s3, s4, (memberPeers s4 0 [4, 9]).1)

/-- What both collectives ask for. -/
def collMay (op : Nat) : Bool :=
  let b := collDesc op 7
  let i : MoverJob := { started := true }
  let (s1, s2, s3, s4, _) := collAt op
  (routeReads (startedAt (collS op) 0 0 {}) 0 i [(scratchBase, 8)]).2
    && 4 * min 64 (bbits (jobRead s1 0 i scratchBase 8) 8 8) == 8 && (routeReads s1 0 i [(scratchBase + 8, 8)]).2
    && !collMalformed s2 i b (op == 0x43) 1 && groupBlock s2 0 i scratchBase == some ([4, 9], 0) && !collMalformed s2 i b (op == 0x43) 2
    && moveBase (srcAddr s2 i b) == scratchBase + 0x1000 && (routeReads s2 0 i [(scratchBase + 0x1000, if op = 0x43 then 256 else 512)]).2
    && moveBase (dstAddr s3 i b) == scratchBase + 0x2000
    && (routeWrites s3 0 i ([(scratchBase + 0x2000, if op = 0x43 then 256 else 512)] ++ (if op = 0x43 then [(scratchBase + 0x3000, 256)] else []))).2
    && (sendTag s4 (stepPart s4 0)).isSome && stepPart s4 0 == 0 && (memberPeers s4 0 [4, 9]).2 == [some 3]

theorem witness_allreduce : descRuns (collS 0x43) 0 0 0x43 {} ∧ collOf (collS 0x43) (collKey (stepPart (collS 0x43) 0) 11) = none ∧
    collMay 0x43 = true ∧ (peerOf (collAt 0x43).2.2.2.2 3).unreachable = false := by (repeat' apply And.intro) <;> decide +kernel
theorem witness_alltoall : descRuns (collS 0x44) 0 0 0x44 {} ∧ collOf (collS 0x44) (collKey (stepPart (collS 0x44) 0) 11) = none ∧
    collMay 0x44 = true ∧ (peerOf (collAt 0x44).2.2.2.2 3).unreachable = false := by (repeat' apply And.intro) <;> decide +kernel

theorem test_allreduce : ((collOf (nextOf (exec (.allreduce 0 0) (collS 0x43))) (collKey 0 11)).map (·.nodes)) = some [4, 9] := by decide +kernel
theorem test_alltoall : ((collOf (nextOf (exec (.alltoall 0 0) (collS 0x44))) (collKey 0 11)).map (·.rank)) = some 0 := by decide +kernel

/-- A posted collective of nodes 9 and 4, of which this is rank 1. -/
def posted : State := { peerS (collDesc 0x44 7) { started := true } node9 with
  chord := { (peerS [] {} node9).chord with colls := [(collKey 0 11, {
    allreduce := false, length := 256, dst := scratchBase + 0x2000, nodes := [9, 4], rank := 1, hash := 3 })] } }

theorem witness_collectiveTimeout : (collOf posted (collKey 0 11)).isSome = true ∧
    ((collOf posted (collKey 0 11)).bind (collJob posted)) = some { started := true } ∧
    bbits (jobBody posted { started := true }) 352 32 ≠ 0 := by decide +kernel
theorem test_collectiveTimeout : (nextOf (exec (.collectiveTimeout (collKey 0 11)) posted)).chord.colls = [] := by decide +kernel

/-! ### 14: what peers send -/

/-- A packet of node 9 to this device, and the state its checks leave. -/
def from9 (msg addr opinfo : Nat) (b : Bytes) : Packet := {
  src := 9, dst := 4, tag := 0x77, epoch := 1, msg := msg, addr := addr, opinfo := opinfo, payload := b }
def heard (s : State) (k : Packet) (access : Bool) : State := (accepted s 0 k access).1

theorem arrives_of {s : State} {e p : Nat} {k : Packet} {access : Bool} (h : (accepted s e k access).2 = some p)
    (h1 : psnSeen (peerOf (accepted s e k access).1 p) k.psn = false)
    (h2 : psnBeyond (peerOf (accepted s e k access).1 p) k.psn = false) :
    arrives s e k access (accepted s e k access).1 p :=
  ⟨Prod.ext rfl h, h1, h2⟩

/-- Peer 3 has a step waiting and one running; cellar 0's peg 255 counts. -/
def rxS : State := { peerS [] {} node9 with
  cells := { rdy.cells with pegs := [(255, { ptype := .semaphore, count := 4 })] }
  larder := { rdy.larder with steps := [(0, { peer := some (3, 40) }), (1, { phase := .running, peer := some (3, 41) })] }
  part := { rdy.part with parts := [(0, { pstate := .active, regions := [{ larder := true, length := 16 }] })] }
  mem := { rdy.mem with bytes := [] } }
/-- What this hub has for peer 3. -/
def owed (o : Host.Outcome State Fault Refusal) : List Nat :=
  ((peerOf (nextOf o) 3).queue ++ (peerOf (nextOf o) 3).sent.map (·.packet)).map (·.ptype)
/-- The transactions waiting: port, address and length. -/
def queued9 (o : Host.Outcome State Fault Refusal) : List (Nat × Nat × Nat) :=
  (nextOf o).mem.txns.map (fun e => (e.2.master, e.2.hpa, e.2.bytes))
def wrote9 : Packet := from9 0 (scratchBase + 0x7FFFC) 0 [1#8, 2#8, 3#8, 4#8]

theorem witness_chordWrite : arrives rxS 0 wrote9 true (heard rxS wrote9 true) 3 ∧ incomingOf (heard rxS wrote9 true) 3 0 = {} ∧
    mustWait (heard rxS wrote9 true) (peerOf (heard rxS wrote9 true) 3) wrote9 (scratchBase + 0x7FFFC) 4 = false ∧
    remoteAdmits (heard rxS wrote9 true) 0 true (scratchBase + 0x7FFFC) 4 = .ok (.scratch 0) ∧
    (snoopRange (heard rxS wrote9 true) (scratchBase + 0x7FFFC) 4 true).2 = false ∧
    chordTxns (snoopRange (heard rxS wrote9 true) (scratchBase + 0x7FFFC) 4 true).1 3 0 = false ∧
    (unpack wrote9).1.length = 4 ∧ remoteAdmits (heard rxS wrote9 true) 0 true (2 ^ 48 - 4) 4 = .unmapped ∧
    psnSeen (peerOf (heard rxS { wrote9 with psn := 2 ^ 32 - 1 } true) 3) (2 ^ 32 - 1) = true ∧
    (accepted rxS 0 { wrote9 with psn := 2 ^ 32 - 1 } true).2 = some 3 := by
  refine ⟨arrives_of ?_ ?_ ?_, ?_⟩ <;> decide +kernel

theorem witness_chordWrite_scratch : inScratch (snoopRange (heard rxS wrote9 true) (scratchBase + 0x7FFFC) 4 true).1
    (scratchBase + 0x7FFFC) 4 := inScratch_of (by decide +kernel)

theorem test_chordWrite : (nextOf (exec (.chordWrite 0 wrote9) rxS)).mem.txns.map (fun e => (e.2.hpa, e.2.data))
      = [(scratchBase + 0x7FF80, [(124, 1#8), (125, 2#8), (126, 3#8), (127, 4#8)])] ∧
    queued9 (exec (.chordWrite 0 { wrote9 with psn := 2 ^ 32 - 1 }) rxS) = [] ∧
    queued9 (exec (.chordWrite 0 { wrote9 with addr := 2 ^ 48 - 4 }) rxS) = [] := by decide +kernel

/-- A line of that write at its home, and the last transaction of each kind of request as it returns. -/
def ofChord (x : Txn) (m : Incoming) : State := { rxS with
  mem := { rdy.mem with txns := [(2, x)] }, chord := { rxS.chord with peers := [(3, { node9 with incoming := [(0, m)] })] } }
def chordLine : Txn := {
  phase := .issued, kind := .write, master := 72, client := .chord 3 0 0, hpa := scratchBase + 0x7FF80, data := [(124, 1#8), (127, 4#8)] }
def chordBack (k : TxnKind) : Txn := {
  phase := .done, kind := k, master := 72, client := .chord 3 0 0, hpa := scratchBase, bytes := 8, atom := some (.add, .u32) }
def askedOf (pt : Nat) : Incoming := { ptype := pt, addr := scratchBase, bytes := 8, total := some 8 }

theorem witness_chordLine : txnOf (ofChord chordLine {}) 2 = some chordLine ∧ dieOvertakes (ofChord chordLine {}) 2 chordLine = false ∧
    overtakes (ofChord chordLine {}) 2 12 chordLine = false ∧ arbitrated (ofChord chordLine {}) 2 chordLine = true ∧
    admitOne (ofChord chordLine {}) 0 true chordLine.hpa = .ok (.scratch 0) ∧ (cellarOf (ofChord chordLine {}) 0).resetting = false ∧
    backPending (ofChord chordLine {}) 2 (chordLine.hpa / 128) (txnSite chordLine) = false ∧
    tfind (ofChord chordLine {}).attic.dir (chordLine.hpa / 128) = none ∧
    tfind (ofChord chordLine {}).attic.snoops (chordLine.hpa / 128) = none ∧ Memory.wf (ofChord chordLine {}).mem.bytes = true ∧
    ∀ d ∈ chordLine.data, d.1 < 128 ∧ placeOf (ofChord chordLine {}) (chordLine.hpa / 128 * 128 + d.1) = .scratch 0 := by
  decide +kernel

theorem witness_chordBack : (∀ x ∈ [(TxnKind.write, ptWrite), (.read, ptReadReq), (.atomic, ptAtomic)],
      txnOf (ofChord (chordBack x.1) (askedOf x.2)) 2 = some (chordBack x.1) ∧
      tfind (peerOf (ofChord (chordBack x.1) (askedOf x.2)) 3).incoming 0 = some (askedOf x.2) ∧
      ∀ e ∈ (ofChord (chordBack x.1) (askedOf x.2)).mem.txns, e.1 = 2) ∧
    (chordBack .write).error = none ∧ (askedOf ptWrite).refused = false := by decide +kernel

theorem test_chordReturns :
    memRead (nextOf (exec (.transactionCompletionReturn 2) (ofChord chordLine {}))).mem.bytes (scratchBase + 0x7FFFF) = 4#8 ∧
    owed (exec (.transactionCompletionReturn 2) (ofChord (chordBack .write) (askedOf ptWrite))) = [ptDone] ∧
    owed (exec (.transactionCompletionReturn 2) (ofChord (chordBack .read) (askedOf ptReadReq))) = [ptReadRsp] := by decide +kernel

def read9 : Packet := from9 0 scratchBase 0 (leBytes 4 4096)

theorem witness_readReq : arrives rxS 0 read9 true (heard rxS read9 true) 3 ∧ min 4096 (leAt read9.payload 0 4) = 4096 ∧
    mustWait (heard rxS read9 true) (peerOf (heard rxS read9 true) 3) read9 scratchBase 4096 = false ∧
    remoteAdmits (heard rxS read9 true) 0 false scratchBase 4096 = .ok (.scratch 0) ∧
    (snoopRange (heard rxS read9 true) scratchBase 4096 false).2 = false ∧
    (∀ l ∈ linesOf scratchBase 4096, placeOf (snoopRange (heard rxS read9 true) scratchBase 4096 false).1 (l * 128) = .scratch 0) ∧
    chordTxns (snoopRange (heard rxS read9 true) scratchBase 4096 false).1 3 0 = false := by
  refine ⟨arrives_of ?_ ?_ ?_, ?_⟩ <;> decide +kernel

theorem test_readReq : queued9 (exec (.readReq 0 { read9 with payload := leBytes 4 8 }) rxS) = [(72, scratchBase, 8)] := by decide +kernel

/-- ATOM_ADD.U32 of one lane. -/
def atom9 : Packet := from9 0 scratchBase 0 (leBytes 16 5)

theorem witness_chordAtomic : arrives rxS 0 atom9 true (heard rxS atom9 true) 3 ∧ aopOf 0 = some .add ∧ atypeOf 0 = some .u32 ∧
    atomDefined .add .u32 = true ∧ scratchBase % atomBytes .u32 = 0 ∧
    mustWaitAll (heard rxS atom9 true) (peerOf (heard rxS atom9 true) 3) atom9 = false ∧
    remoteAdmits (heard rxS atom9 true) 0 true scratchBase 4 = .ok (.scratch 0) ∧
    (snoopRange (heard rxS atom9 true) scratchBase 4 true).2 = false ∧
    readPoison (snoopRange (heard rxS atom9 true) scratchBase 4 true).1 scratchBase 4 = false := by
  refine ⟨arrives_of ?_ ?_ ?_, ?_⟩ <;> decide +kernel

theorem test_chordAtomic : (nextOf (exec (.chordAtomic 0 atom9) rxS)).mem.txns.map (fun e => (e.2.hpa, e.2.atom, e.2.lanes.map (·.sb)))
    = [(scratchBase, some (.add, .u32), [5])] := by decide +kernel

def peg9 (i : Nat) : Packet := from9 0 i 0 [3#8, 0#8, 0#8]

theorem witness_chordPeg : arrives rxS 0 (peg9 255) true (heard rxS (peg9 255) true) 3 ∧
    mustWaitAll (heard rxS (peg9 255) true) (peerOf (heard rxS (peg9 255) true) 3) (peg9 255) = false ∧
    pegAllowed (heard rxS (peg9 255) true) 0 255 = true ∧ (pegOf (heard rxS (peg9 255) true) 255).waiters = [] ∧
    portPasses (heard rxS (peg9 255) true) 72 1 = true ∧
    portPasses (heard { rxS with reg := { rxS.reg with masters := [(72, { budget := 0 })] } } (peg9 255) true) 72 1 = false ∧
    pegAllowed (heard rxS (peg9 256) true) 0 256 = false := by refine ⟨arrives_of ?_ ?_ ?_, ?_⟩ <;> decide +kernel

theorem test_chordPeg : (pegOf (nextOf (exec (.chordPeg 0 (peg9 255)) rxS)) 255).count = 7 ∧
    owed (exec (.chordPeg 0 (peg9 256)) rxS) = [ptNack] := by decide +kernel

/-- A step of one PEG part, with budget 255; and one with budget 0. -/
def peerStep (budget : Nat) : Bytes := words (0x10 + budget * 2 ^ 16) (2 ^ 46) ++ words (2 ^ 32) 0 ++ words 0 0 ++ words 0 0 ++ words (6 + 8 * 2 ^ 16) 255
def step9 (budget : Nat) : Packet := from9 42 0 0 (peerStep budget)

/-- The step's bytes are at hand, as the peer sent them. -/
def stepMay (budget : Nat) : Bool :=
  let s := heard rxS (step9 budget) false
  !mustWaitAll s (peerOf s 3) (step9 budget) &&
    (match gather s 3 (step9 budget) ptStep with
     | (s2, some (b, bad)) => stepLength b == some 80 && !(List.range b.length).any bad && b.length == 80
         && (stepRefused s2 0 (b.take 80) (readStep (b.take 80)) true).isNone == (budget != 0) && bbits (b.take 80) 144 16 == 0
         && bbits (b.take 80) 8 1 == 0 && tfree s2.larder.steps 0 65536 == some 2 && (stepOf s2 2).isNone
     | _ => false)

theorem witness_peerStep : arrives rxS 0 (step9 255) false (heard rxS (step9 255) false) 3 ∧
    arrives rxS 0 (step9 0) false (heard rxS (step9 0) false) 3 ∧ stepMay 255 = true ∧ stepMay 0 = true := by
  refine ⟨arrives_of ?_ ?_ ?_, arrives_of ?_ ?_ ?_, ?_⟩ <;> decide +kernel

theorem test_peerStep : ((stepOf (nextOf (exec (.step 0 (step9 255)) rxS)) 2).map (·.peer)) = some (some (3, 42)) ∧
    owed (exec (.step 0 (step9 0)) rxS) = [ptStepDone] := by decide +kernel

theorem witness_stepCancel : arrives rxS 0 (from9 50 41 0 []) false (heard rxS (from9 50 41 0 []) false) 3 ∧
    ((heard rxS (from9 50 41 0 []) false).larder.steps.find? (fun x => x.2.peer == some (3, 41))).map (·.1) = some 1 ∧
    ((stepOf (heard rxS (from9 50 41 0 []) false) 1).map (·.phase)) = some .running ∧
    ((heard rxS (from9 50 40 0 []) false).larder.steps.find? (fun x => x.2.peer == some (3, 40))).map (·.1) = some 0 ∧
    ((stepOf (heard rxS (from9 50 40 0 []) false) 0).map (·.phase)) = some .waiting := by
  refine ⟨arrives_of ?_ ?_ ?_, ?_⟩ <;> decide +kernel

theorem test_stepCancel : ((stepOf (nextOf (exec (.stepCancel 0 (from9 50 41 0 [])) rxS)) 1).map (·.stopCode)) = some (some .stepBudgetExceeded) ∧
    ((stepOf (nextOf (exec (.stepCancel 0 (from9 50 40 0 [])) rxS)) 0).map (·.phase)) ≠ some .waiting := by decide +kernel

/-- Rank 0's whole segment for COLL_ID 11, with the posted hash. -/
def coll9 (id : Nat) : Packet := from9 0 (id + 3 * 2 ^ 32) 0 (List.replicate 256 1#8)

theorem witness_coll : arrives posted 0 (coll9 11) false (heard posted (coll9 11) false) 3 ∧
    arrives posted 0 (coll9 12) false (heard posted (coll9 12) false) 3 ∧
    collOf (heard posted (coll9 12) false) (collKey 0 12) = none ∧
    ((collOf (heard posted (coll9 11) false) (collKey 0 11)).map (fun x => (segmentSize x 0 0, x.hash, nth x.nodes 0 0, x.received)))
      = some (some 256, 3, 9, []) ∧
    (snoopRange (heard posted (coll9 11) false) (scratchBase + 0x2000) 512 true).2 = false ∧
    ((gather (snoopRange (heard posted (coll9 11) false) (scratchBase + 0x2000) 512 true).1 3 (coll9 11) ptColl).2.map (·.1.length)) = some 256 := by
  refine ⟨arrives_of ?_ ?_ ?_, arrives_of ?_ ?_ ?_, ?_⟩ <;> decide +kernel

theorem test_coll : owed (exec (.coll 0 (coll9 11)) posted) = [ptDone] ∧ owed (exec (.coll 0 (coll9 12)) posted) = [ptNack] := by
  decide +kernel

/-! ### 14: answers -/

/-- A hub with a PUT or SIGNAL whose message 7 went to peer 3, an RPC transaction 2 behind message 8 and a PEER part behind
message 9. -/
def askS (op : Nat) (m : Message) : State :=
  let s := peerS (desc op scratchBase peerBase 64 0 0 0) { started := true, msg := some (3 * 2 ^ 32 + 7), progress := 64 } { node9 with
    messages := [(7, m), (8, { ptype := ptReadReq, client := .txn 2, bytes := 8 }), (9, { ptype := ptStep, client := .stepPart 0 0 })]
    sent := [{ psn := 0, msg := 7, packet := {} }], ackOwed := 1, srtt := 3 * us }
  { s with mem := { s.mem with txns := [(2, { phase := .issued })] } }
def wroteMsg : Message := { ptype := ptWrite, client := .mover 0 0 0, bytes := 64, backoff := 600 * us }
def putAsk : State := askS 0x40 wroteMsg
def pegAsk : State := askS 0x42 { wroteMsg with ptype := ptPeg }
def answer (msg st : Nat) : Packet := from9 0 msg 0 (leBytes 2 st)

theorem witness_onlyMessage : onlyMessage (heard putAsk (answer 7 0) false) 3 7 (.mover 0 0 0) ∧
    onlyMessage (heard putAsk (answer 8 0) false) 3 8 (.txn 2) := by
  (repeat' apply And.intro) <;> decide +kernel

theorem witness_done : arrives putAsk 0 (answer 7 0) false (heard putAsk (answer 7 0) false) 3 ∧
    tfind (peerOf (heard putAsk (answer 7 0) false) 3).messages 7 = some wroteMsg ∧
    ((jobFind (heard putAsk (answer 7 0) false) 0 0).map (fun j => (j.step, j.part, j.result, j.code))) = some (0, 0, none, 0) ∧
    bbits (desc 0x40 scratchBase peerBase 64 0 0 0) 232 1 = 0 ∧
    arrives pegAsk 0 (answer 7 csRemoteAccess) false (heard pegAsk (answer 7 csRemoteAccess) false) 3 ∧
    leAt (answer 7 csBusy).payload 0 2 = csBusy ∧ wroteMsg.waiting = false := by
  refine ⟨arrives_of ?_ ?_ ?_, ?_, ?_, ?_, arrives_of ?_ ?_ ?_, ?_⟩ <;> decide +kernel

/-- The DONE field of the result: 64 bytes are one unit. -/
theorem test_done : ((jobFind (nextOf (exec (.done 0 (answer 7 0)) putAsk)) 0 0).bind (·.result)) = some (resultBytes 0 1 0 0) := by decide +kernel

/-- A backoff of 600 us doubles to the limit of 1 ms; a refusal ends the SIGNAL. -/
theorem test_nack : ((tfind (peerOf (nextOf (exec (.nack 0 (answer 7 csBusy)) putAsk)) 3).messages 7).map (·.backoff)) = some (1000 * us) ∧
    (tfind (peerOf (nextOf (exec (.nack 0 (answer 7 csRemoteAccess)) pegAsk)) 3).messages 7) = none := by decide +kernel

/-- An answer to a message of ours, of 8 bytes. -/
def rsp (msg : Nat) : Packet := from9 msg 0 0 (List.replicate 8 6#8)

/-- A GET of 64 bytes to the scratch whose message 7 still waits for all of them. -/
def gotMsg : Message := { ptype := ptReadReq, client := .mover 0 0 0, bytes := 64 }
def getAsk : State := askS 0x41 gotMsg
def getBody : State := { getAsk with larder := (peerS getDesc { started := true, msg := some (3 * 2 ^ 32 + 7), progress := 64 } node9).larder }

theorem witness_readRsp : arrives getBody 0 (rsp 7) false (heard getBody (rsp 7) false) 3 ∧
    tfind (peerOf (heard getBody (rsp 7) false) 3).messages 7 = some gotMsg ∧
    (match jobFind (heard getBody (rsp 7) false) 0 0 with
     | some j => (match takeGet (heard getBody (rsp 7) false) 0 j 0 0 (rsp 7) with
        | (s2, .done) => decide (tfind (peerOf s2 3).messages 7 = some gotMsg) | _ => false)
     | none => false) = true ∧ 0 + (unpack (rsp 7)).1.length < gotMsg.bytes ∧
    arrives putAsk 0 (rsp 8) false (heard putAsk (rsp 8) false) 3 ∧ (txnOf (heard putAsk (rsp 8) false) 2).isSome = true ∧
    8 ≤ 0 + (unpack (rsp 8)).1.length := by
  refine ⟨arrives_of ?_ ?_ ?_, ?_, ?_, ?_, arrives_of ?_ ?_ ?_, ?_⟩ <;> decide +kernel

theorem test_readRsp : ((tfind (peerOf (nextOf (exec (.readRsp 0 (rsp 7)) getBody)) 3).messages 7).map (·.got)) = some 8 ∧
    memRead (nextOf (exec (.readRsp 0 (rsp 7)) getBody)).mem.bytes scratchBase = 6#8 := by decide +kernel
theorem test_atomicRsp : ((txnOf (nextOf (exec (.atomicRsp 0 (rsp 8)) putAsk)) 2).map (·.phase)) = some .done := by decide +kernel

theorem witness_stepDone : arrives putAsk 0 (answer 9 0) false (heard putAsk (answer 9 0) false) 3 ∧
    (tfind (peerOf (heard putAsk (answer 9 0) false) 3).messages 9).map (·.client) = some (.stepPart 0 0) ∧
    (partAt (heard putAsk (answer 9 0) false) 0 0).isSome = true := by refine ⟨arrives_of ?_ ?_ ?_, ?_⟩ <;> decide +kernel
theorem test_stepDone : ((partAt (nextOf (exec (.stepDone 0 (answer 9 0)) putAsk)) 0 0).map (·.phase)) = some .done := by decide +kernel

theorem witness_ack : (accepted putAsk 0 (answer 0 0) false).2 = some 3 ∧ (peerOf (heard putAsk (answer 0 0) false) 3).queue = [] := by
  decide +kernel
theorem test_ack : (peerOf (nextOf (exec (.ack 0 (answer 0 0) { cum := 0 }) putAsk)) 3).sent = [] := by decide +kernel

theorem witness_peerTimers : (peerOf putAsk 3).ackOwed ≠ 0 ∧
    (nextEngine putAsk (peerOf putAsk 3) { vc := 1, payload := ackPayload (peerOf putAsk 3) }).isSome = true ∧
    (∃ y ∈ (peerOf putAsk 3).sent, y.psn = 0) ∧ (peerOf putAsk 3).unreachable = false ∧ (peerOf putAsk 3).sent ≠ [] ∧
    (askS 0x40 { wroteMsg with waiting := true }).chord.peers.map (fun e => (tfind e.2.messages 7).map (·.waiting)) = [some true] ∧
    (peerOf (peerS putDesc {} { node9 with unreachable := true }) 3).unreachable = true := by
  (repeat' apply And.intro) <;> decide +kernel

theorem test_ackTimer : (peerOf (nextOf (exec (.ackTimer 3) putAsk)) 3).ackOwed = 0 := by decide +kernel
theorem test_retransmissionTimeout : (peerOf (nextOf (exec (.retransmissionTimeout 3 0) putAsk)) 3).cwnd = 8320 := by decide +kernel
theorem test_busyBackoffExpiry :
    ((tfind (peerOf (nextOf (exec (.busyBackoffExpiry 3 7) (askS 0x40 { wroteMsg with waiting := true }))) 3).messages 7).map (·.waiting))
      = some false := by decide +kernel
theorem test_peerUnreachable : (peerOf (nextOf (exec (.peerUnreachable 3) putAsk)) 3).unreachable = true := by decide +kernel
theorem test_unreachableEnd : (nextOf (exec (.unreachableEnd 3) (peerS putDesc {} { node9 with unreachable := true }))).chord.peers = [] := by
  decide +kernel

/-! ### 15: Ethernet associations -/

/-- Engine 2 in Ethernet mode with associations 1 to 4 and 64 INITs in the running millisecond. -/
def etherS : State := { linkS eng0 with
  time := { rdy.time with now := 1000 * us - 1 }
  chord := { node := 4, lls := [(2, { inits := 64 })]
             assocs := [(1, { ipv6 := 6, astate := .initSent, tries := 5 }), (2, { ipv6 := 7, astate := .respSent, remoteId := 8, tries := 6 }),
                        (4, { ipv6 := 9, astate := .up, remoteId := 3 })] } }
def nextMs : State := { etherS with time := { rdy.time with now := 1000 * us } }
def assocOf (o : Host.Outcome State Fault Refusal) (i : Nat) : AssocState × Nat :=
  ((tget (nextOf o).chord.assocs i {}).astate, (tget (nextOf o).chord.assocs i {}).remoteId)

theorem witness_init : etherUp etherS 2 = true ∧ (llOf nextMs 2).initAt + 1000 * us ≤ nextMs.time.now ∧
    etherS.time.now < (llOf etherS 2).initAt + 1000 * us ∧ 64 ≤ (llOf etherS 2).inits ∧
    tfree (expireAssocs nextMs).chord.assocs 1 4097 = some 3 := by decide +kernel

theorem test_init : assocOf (exec (.init 2 5 77 {}) nextMs) 3 = (.respSent, 77) ∧
    (llOf (nextOf (exec (.init 2 5 77 {}) etherS)) 2).authFails = 1 := by decide +kernel

theorem witness_resp : (tfind etherS.chord.assocs 1).map (·.astate) = some .initSent ∧ (tfind etherS.chord.assocs 2).map (·.astate) = some .respSent ∧
    (tget etherS.chord.assocs 1 {}).tries ≤ 5 ∧ 5 < (tget etherS.chord.assocs 2 {}).tries ∧
    (tget etherS.chord.assocs 4 {}).renewing = false ∧ (tget etherS.chord.assocs 4 {}).validTo = none := by decide +kernel

theorem test_resp : assocOf (exec (.resp 2 1 9 {}) etherS) 1 = (.up, 9) := by decide +kernel
theorem test_confirm : assocOf (exec (.confirm 2 2 {}) etherS) 2 = (.up, 8) ∧
    assocOf (exec (.confirm 2 2 { sigOk := false }) etherS) 2 = (.respSent, 8) := by decide +kernel
theorem test_handshakeRetry : (tget (nextOf (exec (.handshakeRetry 1) etherS)).chord.assocs 1 {}).tries = 6 ∧
    tfind (nextOf (exec (.handshakeRetry 2) etherS)).chord.assocs 2 = none := by decide +kernel
theorem test_associationRenewal : assocOf (exec (.associationRenewal 4) etherS) 3 = (.initSent, 0) ∧
    assocOf (exec (.associationRenewal 4) etherS) 4 = (.up, 3) := by decide +kernel

theorem witness_icmp : etherUp etherS 2 = true ∧ bitAt (engineOf etherS 2).ethUp 3 = true ∧ (0 : Nat) = ownAddress etherS ∧
    1 ≠ ownAddress etherS := by decide +kernel
theorem test_neighbourSolicitation : (nextOf (exec (.neighbourSolicitation 2 3 0) etherS)).out = [.icmp 2 3 136] := by decide +kernel
theorem test_echoRequest : (nextOf (exec (.echoRequest 2 3 0) etherS)).out = [.icmp 2 3 129] ∧
    (nextOf (exec (.echoRequest 2 3 1) etherS)).out = [] := by decide +kernel

/-! ### 16: start and resets -/

/-- Inputs of a start whose NoC fails in physical quadrant 1, with cellar 15 alone passing, or with one bad self-test. -/
def oneCellar : StartInput := { straps := { strum := 3 }, tests := { cellarFail := 2 ^ 64 - 1 - 2 ^ 15 } }
def badTest (t : TestInput) : StartInput := { oneCellar with tests := t }
def noCp : StartInput := badTest { cpOk := false }

theorem witness_coldReset : State.reset.boot.coldResetLow = true ∧ State.reset.boot.heldHot = false ∧ 0 = (slotRecord State.reset).activeSlot % 2 ∧
    (tfind State.reset.boot.slots 0).map (fun x => (x.chainOk, x.sigOk, x.digestOk, x.svn)) = some (true, true, true, 0) ∧
    State.reset.boot.fuses.antiRollback ≤ 0 ∧ State.reset.boot.fuses.lifecycle ≠ .scrapped ∧
    usableCellar State.reset oneCellar.tests 15 = true ∧
    (∀ c, c < 64 → usableCellar State.reset { cellarFail := 2 ^ 64 - 1 } c = false) ∧
    bitAt ({ nocFail := 2 } : TestInput).nocFail 1 = true ∧
    ({ State.reset with boot := { State.reset.boot with slots := [] } } : State).boot.slots = [] := by decide +kernel

theorem test_coldReset_cp : (nextOf (exec (.coldReset (badTest { cpOk := false })) State.reset)).boot.failReason = 2 := by decide +kernel
theorem test_coldReset_se : (nextOf (exec (.coldReset (badTest { seOk := false })) State.reset)).boot.failReason = 3 := by decide +kernel
theorem test_coldReset_noc : (nextOf (exec (.coldReset (badTest { nocFail := 2 })) State.reset)).boot.failReason = 5 := by decide +kernel
theorem test_coldReset_none : (nextOf (exec (.coldReset (badTest { cellarFail := 2 ^ 64 - 1 })) State.reset)).boot.failReason = 7 := by decide +kernel
theorem test_coldReset_host : (nextOf (exec (.coldReset { oneCellar with straps := { boot := 1 } }) State.reset)).boot.stage = .fwLoad := by
  decide +kernel
theorem test_coldReset : (nextOf (exec (.coldReset oneCellar) State.reset)).boot.stage = .ready ∧
    (nextOf (exec (.coldReset oneCellar) State.reset)).time.periodSteps = 128 := by decide +kernel

/-- A module that was used, with a trip behind it. -/
def used : State := { rdy with
  boot := { rdy.boot with thermTrip := true }
  mem := { rdy.mem with bytes := [⟨5, 1#8⟩] }
  pwr := { rdy.pwr with sensors := [(1, 50)] }
  mgmt := { rdy.mgmt with session := true } }
def hot (low : Bool) : State := { used with boot := { used.boot with coldResetLow := low, heldHot := true } }

theorem witness_coldResetAssert : used.boot.coldResetLow = false ∧ used.boot.lcChange = none ∧ used.boot.thermTrip = true ∧
    used.pwr.sensors ≠ [] ∧ rdy.pwr.sensors = [] ∧ (hot true).boot.heldHot = true ∧ (hot true).boot.coldResetLow = true ∧
    (hot false).boot.heldHot = true ∧ (hot false).boot.coldResetLow = false := by decide +kernel

theorem test_coldResetAssert : (nextOf (exec .coldResetAssert used)).boot.heldHot = true ∧
    (nextOf (exec .coldResetAssert used)).mem.bytes = [] := by decide +kernel
theorem test_sensorsCooled : (nextOf (exec (.sensorsCooled (badTest { cpOk := false })) (hot true))).boot.thermTrip = false := by decide +kernel

/-- Two watchdog restarts less than 10 s ago, and one of them 10 s ago. -/
def restarted (now : Nat) : State := { used with
  time := { used.time with now := now }
  cp := { (withCmd used (tk 0x0900 [])).cp with restartTimes := [1, 0] } }

theorem witness_deviceResets : resettable used = true ∧ used.boot.lcChange = none ∧ used.boot.hostUp = true ∧ portHears used = true ∧
    inSession used = true ∧ isReady (restarted 0) = true ∧
    2 ≤ ((restarted 639999999999).cp.restartTimes.filter (fun x => (restarted 639999999999).time.now < x + 640000000000)).length ∧
    ((restarted 640000000000).cp.restartTimes.filter (fun x => (restarted 640000000000).time.now < x + 640000000000)).length < 2 ∧
    inSession rdy = false ∧ portHears rdy = true := by decide +kernel

theorem test_hostPerst : (nextOf (exec (.hostPerst noCp) used)).boot.hostUp = false := by decide +kernel
theorem test_functionLevelReset : (nextOf (exec (.functionLevelReset noCp) used)).mem.bytes = [] := by decide +kernel
theorem test_deviceReset : (nextOf (exec (.deviceReset noCp) used)).part.deviceEpoch = 2 ∧
    (nextOf (exec (.deviceReset noCp) rdy)).part.deviceEpoch = 1 := by decide +kernel
theorem test_cpWatchdog : (nextOf (exec (.cpWatchdog noCp) (restarted 640000000000))).cp.restarts = 1 ∧
    (chanOf (nextOf (exec (.cpWatchdog noCp) (restarted 640000000000))) 0).state ≠ .taken ∧
    (nextOf (exec (.cpWatchdog noCp) (restarted 639999999999))).part.deviceEpoch = 2 := by decide +kernel

/-- Waiting for an image over the host link, which is down; a far decoder that zeroes. -/
def noHost : State := { rdy with
  boot := { rdy.boot with stage := .fwLoad, hostUp := false, straps := { boot := 1 } }
  mem := { rdy.mem with far := [(1, { decoders := [(3, { zeroing := true })] })] } }

theorem witness_hostLink : noHost.boot.stage = .fwLoad ∧ noHost.boot.straps.boot = 1 ∧ noHost.boot.hostUp = false ∧
    noHost.boot.stopped = false ∧ noHost.boot.coldResetLow = false ∧ noHost.boot.heldHot = false ∧
    (tfind (farOf noHost 1).decoders 3).map (·.zeroing) = some true := by decide +kernel

theorem test_hostLinkTimeout : (nextOf (exec .hostLinkTimeout noHost)).boot.failReason = 6 := by decide +kernel
theorem test_hostLinkUp : (nextOf (exec (.hostLinkUp ⟨64, 16, true, false⟩) noHost)).boot.hostUp = true := by decide +kernel
theorem test_farZeroingDone : (tget (farOf (nextOf (exec (.farZeroingDone 1 3) noHost)) 1).decoders 3 {}).zeroing = false := by decide +kernel

/-! ### 17: errors, repair and scrub -/

/-- Core 63 runs step 0; the cellar has a clean line, the core a dirty one. -/
def errBase : State := { rdy with
  cells := { rdy.cells with
    cores := [(63, { step := some 0, scratchUnits := 4, lines := [(3 * 128 + 127, { line := 5, valid := fullMask, dirty := 1 })] })]
    cellars := [(0, { scratchBanks := 4, lines := [((63 * 16 + 15) * 256 + 255, { line := 9, valid := fullMask })] })] }
  larder := { rdy.larder with steps := [(0, { phase := .running, heldCellars := [0], coreMask := 2 ^ 63 })] } }

theorem witness_coreErrors : coreUp errBase 63 = true ∧ (coreOf errBase 63).step = some 0 ∧ (stepOf errBase 0).isSome = true ∧
    (coreOf errBase 63).resetting = false ∧ (cellarOf errBase 0).resetting = false ∧ 0 < (coreOf errBase 63).scratchUnits * 0x10000 ∧
    (tfind (coreOf errBase 63).lines (3 * 128 + 127)).map (fun l => failingDirty l 1) = some 1 := by decide +kernel

theorem test_coreHang : (coreOf (nextOf (exec (.coreHang 63) errBase)) 63).resetting = true ∧
    ((stepOf (nextOf (exec (.coreHang 63) errBase)) 0).map (·.code)) = some (some .poisoned) := by decide +kernel
theorem test_sramUncorrectable_core : (coreOf (nextOf (exec (.sramUncorrectable (.coreControl 63)) errBase)) 63).resetting = true ∧
    (coreOf (nextOf (exec (.sramUncorrectable (.coreLine 63 3 127 1)) errBase)) 63).resetting = true := by decide +kernel

theorem witness_cellarErrors : cellarUp errBase 0 = true ∧ (cellarOf errBase 0).resetting = false ∧
    4 * 0x80000 - 1 < (cellarOf errBase 0).scratchBanks * 0x80000 ∧
    (tfind (cellarOf errBase 0).lines ((63 * 16 + 15) * 256 + 255)).map (·.dirty) = some 0 := by decide +kernel

theorem test_sramUncorrectable_cellar : (cellarOf (nextOf (exec (.sramUncorrectable (.cellarControl 0)) errBase)) 0).epoch = 1 ∧
    poisonedUnit (nextOf (exec (.sramUncorrectable (.cellarScratch 0 (4 * 0x80000 - 1))) errBase)) ((scratchBase + 4 * 0x80000 - 1) / 32) = true ∧
    (cellarOf (nextOf (exec (.sramUncorrectable (.cellarTag 0 63 15 255)) errBase)) 0).lines = [] := by decide +kernel

/-- A transaction under way, and one whose header was lost. -/
def nocS (lost : Bool) : State := { rdy with mem := { rdy.mem with txns := [(7, { phase := .issued, kind := .write, lost := lost })] } }

theorem witness_nocErrors : (txnOf (nocS true) 7).map (fun x => (x.phase, x.lost, x.kind)) = some (.issued, true, .write) ∧ 3 < 4 := by
  decide +kernel
theorem test_nocHeaderFlitTimeout : ((txnOf (nextOf (exec (.nocHeaderFlitTimeout 7) (nocS true))) 7).map (·.resultPoison)) = some 15 ∧
    ((txnOf (nextOf (exec (.sramUncorrectable (.nocHeader 7)) (nocS false))) 7).map (·.lost)) = some true := by decide +kernel

/-- Core 63 in reset; or the cellar in reset. -/
def coreDown : State := { rdy with cells := { rdy.cells with cores := [(63, { resetting := true })] } }
def cellarDown : State := { rdy with cells := { rdy.cells with cellars := [(0, { resetting := true })] } }

theorem witness_retest : (coreOf coreDown (0 * 64 + 63)).resetting = true ∧ (cellarOf coreDown 0).resetting = false ∧
    bitAt (tget coreDown.boot.presentCores 0 0) 63 = true ∧ (cellarOf cellarDown 0).resetting = true ∧
    56 ≤ popCount (tget cellarDown.boot.presentCores 0 0) 64 ∧ bitAt cellarDown.boot.presentCellars 0 = true := by decide +kernel
theorem test_retestDone : (coreOf (nextOf (exec (.retestDone 0 (some 63) true) coreDown)) 63).resetting = false ∧
    (nextOf (exec (.retestDone 0 (some 63) false) coreDown)).boot.coresAbsented = 1 ∧
    (cellarOf (nextOf (exec (.retestDone 0 none true) cellarDown)) 0).resetting = false ∧
    (nextOf (exec (.retestDone 0 none false) cellarDown)).boot.presentCellars = 0 := by decide +kernel

/-- A bucket at 1; the ring's slot 0 holds record 4096, which nobody acknowledged; an unwritten and a poisoned sector of shelf 0. -/
def scrubS : State := { rdy with
  err := { rdy.err with buckets := [{ kind := .shelfBank, unit := 11, sub := 31, count := 1 }], nextIndex := 2 ^ 32 - 1
                        ring := [(4095, { index := 4095, code := 7 })], scrub := [(0, { segment := 62 }), (1, { raised := true })] }
  mem := { rdy.mem with poison := [(2, ())] } }

theorem witness_scrub : (scrubS.err.buckets.find? (sameBucket .shelfBank 11 31)).map (·.count) = some 1 ∧
    isReady scrubS = true ∧ scrubWaits scrubS (.memory 64) = false ∧ scrubWaits scrubS (.memory 0) = false ∧
    scrubWaits { scrubS with pwr := { scrubS.pwr with level := 1 } } (.memory 0) = true ∧ poisonedUnit scrubS (64 / 64 * 2) = true ∧
    poisonedUnit scrubS (0 / 64 * 2) = false ∧ storedAt scrubS 0 = some (.shelf 0) ∧
    wcbOf scrubS (.shelf 0) = [] ∧ (scrubOf scrubS 0).segment < 63 ∧ (scrubOf scrubS 1).raised = true := by decide +kernel

theorem test_leakyBucketLeak :
    ((nextOf (exec (.leakyBucketLeak 5 11 31) scrubS)).err.buckets.find? (sameBucket .shelfBank 11 31)).map (·.count) = some 0 := by
  decide +kernel


theorem test_scrubRead : (scrubOf (nextOf (exec (.scrubRead (.memory 0) .good true) scrubS)) 0).segment = 63 := by decide +kernel

theorem test_scrubSegmentDue : (scrubOf (nextOf (exec (.scrubSegmentDue 1) scrubS)) 1).escalated = true := by decide +kernel

/-- INDEX 2^32 − 1 is followed by 1, and the record in its slot is lost. -/
def theError : ErrRecord := { code := 9, severity := .accessError }
theorem witness_logError : (∀ e ∈ scrubS.err.ring, sameCause e.2 { theError with strum := scrubS.time.strumCount, boundary := scrubS.time.boundaryTime } = false) ∧
    (tfind scrubS.err.ring ((2 ^ 32 - 1) % 4096)).map (·.index) = some 4095 ∧ 4095 ∉ scrubS.err.acked ∧
    (scrubS.err.ring.find? (fun y => sameCause y.2 { code := 7 })).map (·.1) = some 4095 := by decide +kernel
theorem test_logError : (logError scrubS theError).2 = 2 ^ 32 - 1 ∧ (logError scrubS theError).1.err.nextIndex = 1 ∧
    (logError scrubS theError).1.err.lost = 1 ∧ (logError scrubS { code := 7 }).1.err.nextIndex = 2 ^ 32 - 1 := by decide +kernel

/-! ### 18: power -/

/-- Package cap 4,000 (1,000 W) with HBM 1,200, one above the board's 4,000, and one that leaves less than HUB_FLOOR. -/
def capReq (package : Nat) : Bytes := words (package + 1200 * 2 ^ 16) 0 ++ words 0 0
def capRuns (package : Nat) : State := at0 0x0901 (capReq package)

theorem witness_power : runs (at0 0x0900 []) 0 0x0900 (tk 0x0900 []) ∧ runs (capRuns 4000) 0 0x0901 (tk 0x0901 (capReq 4000)) ∧
    runs (capRuns 4001) 0 0x0901 (tk 0x0901 (capReq 4001)) ∧ runs (capRuns 3399) 0 0x0901 (tk 0x0901 (capReq 3399)) ∧
    bbits (capReq 4000) 48 16 = 0 ∧ (requestCaps (capReq 4000)).package ≤ rdy.pwr.boardPackage ∧
    rdy.pwr.boardPackage < (requestCaps (capReq 4001)).package ∧ rdy.pwr.hubFloor ≤ hubOf rdy (min 4000 rdy.pwr.packageCap) 1200 0 ∧
    hubOf rdy (min 3399 rdy.pwr.packageCap) 1200 0 < rdy.pwr.hubFloor := by (repeat' apply And.intro) <;> decide +kernel

theorem test_powerQuery : code0 (exec (.powerQuery 0) (at0 0x0900 [])) = 0 := by decide +kernel
theorem test_powerCapSet : code0 (exec (.powerCapSet 0) (capRuns 4000)) = 0 ∧ code0 (exec (.powerCapSet 0) (capRuns 4001)) = statusCode .badField ∧
    code0 (exec (.powerCapSet 0) (capRuns 3399)) = statusCode .admissionRefused := by decide +kernel

/-- POWER_DOMAIN_SET of cellar 0, to RETENTION (1) or ON (0). -/
def domReq (st : Nat) : Bytes := words (0x10 + 1 * 2 ^ 8) (st * 2 ^ 8)
def withDomain (s : State) (d : Nat) (x : Domain) : State := { s with pwr := { s.pwr with domains := [(d, x)] } }
def leaving0 : Domain := { transition := true, target := .retention }

theorem witness_powerDomainSet : runs (at0 0x0902 (domReq 1)) 0 0x0902 (tk 0x0902 (domReq 1)) ∧
    runs (withDomain (at0 0x0902 (domReq 0)) 0 leaving0) 0 0x0902 (tk 0x0902 (domReq 0)) ∧
    domainSetRefused (at0 0x0902 (domReq 1)) (domReq 1) false 0 = none ∧ domainSetRefused (at0 0x0902 (domReq 0)) (domReq 0) false 0 = none ∧
    domainSetRefused (at0 0x0902 (domReq 3)) (domReq 3) false 0 = some .badField ∧ (domainEntries (domReq 1)).map (·.target) = [.retention] ∧
    (domainEntries (domReq 0)).map (·.target) = [.on] ∧ (domainOf rdy 0).dstate = .on ∧ (domainOf rdy 0).transition = false ∧
    (domainOf (withDomain rdy 0 leaving0) 0).transition = true := by (repeat' apply And.intro) <;> decide +kernel

theorem test_powerDomainSet : (domainOf (nextOf (exec (.powerDomainSet 0) (at0 0x0902 (domReq 1)))) 0).transition = true ∧
    ((domainOf (nextOf (exec (.powerDomainSet 0) (withDomain (at0 0x0902 (domReq 0)) 0 leaving0))) 0).latched.map (·.target)) = [.on] := by
  decide +kernel

/-- Domain 0 going to RETENTION, shelf 0 returning from OFF. -/
theorem witness_domainEnds : (domainOf (withDomain rdy 0 leaving0) 0).latched = [] ∧ rdy.boot.stopped = false ∧
    (entryReady (withDomain rdy 0 leaving0) 0 leaving0).2 = true ∧
    (entryReady { withDomain rdy 0 leaving0 with mem := { rdy.mem with txns := [(1, { phase := .issued })] } } 0 leaving0).2 = false ∧
    (domainOf (withDomain rdy 64 { dstate := .off, transition := true }) 64).target = .on ∧ routesReady rdy 64 = true ∧
    routesReady { routeOut with mem := { rdy.mem with txns := [(2, { diagonalTxn with phase := .issued })] } } 97 = false := by decide +kernel

theorem test_powerDomainEntryDone : (domainOf (nextOf (exec (.powerDomainEntryDone 0) (withDomain rdy 0 leaving0))) 0).dstate = .retention := by
  decide +kernel
theorem test_powerDomainOn :
    (shelfOf (nextOf (exec (.powerDomainOn 64 true) (withDomain rdy 64 { dstate := .off, transition := true }))) 0).zeroing = true := by
  decide +kernel

def zeroShelf : State := { rdy with mem := { rdy.mem with shelves := [(0, { zeroing := true })] } }
theorem witness_shelfZeroing : bitAt zeroShelf.boot.presentShelves 0 = true ∧ domainOn zeroShelf 64 = true ∧ (shelfOf zeroShelf 0).zeroing = true := by
  decide +kernel
theorem test_shelfZeroingDone : (shelfOf (nextOf (exec (.shelfZeroingDone 0) zeroShelf)) 0).zeroing = false := by decide +kernel

/-- Every cellar off and CP_IDLE_MS 1; the CP asleep with both agents' buses enabled. -/
def sleepy : State := { rdy with pwr := { rdy.pwr with
  cpIdleMs := 1, domains := (List.range 64).map (fun d => (d, { dstate := .off })) } }
def asleep : State := { withDomain rdy 101 { dstate := .retention } with mgmt := { rdy.mgmt with smbusEn := true, i3cEn := true } }

theorem witness_cpSleep : cpIdle sleepy = true ∧ cpIdle rdy = false ∧ mgmtReaches asleep = true ∧ (domainOf asleep 101).dstate = .retention ∧
    (domainOf asleep 101).transition = false ∧ asleep.mgmt.smbusEn = true ∧ asleep.mgmt.i3cEn = true ∧ domainOn rdy 101 = true ∧
    mgmtReaches rdy = true := by decide +kernel

theorem test_cpIdleTimeout : (domainOf (nextOf (exec .cpIdleTimeout sleepy)) 101).target = .retention := by decide +kernel
theorem test_smbusAddressMatch : (nextOf (exec .smbusAddressMatch asleep)).pwr.sclHeld = true := by decide +kernel
theorem test_i3cAddressMatch : (nextOf (exec .i3cAddressMatch asleep)).pwr.wakeLatch = 2 := by decide +kernel

/-- Comparator 7 above 850 with every action; the CP is asleep. -/
def cmp (asserted : Bool) : Comparator := { enable := true, asserted := asserted, action := 7, source := 1, hysteresis := 2, value := 850 }
def cmpS (asserted : Bool) : State := { asleep with pwr := { asleep.pwr with comparators := [(7, cmp asserted)] } }

theorem witness_comparator : (comparatorOf (cmpS false) 7).enable = true ∧ crossed (cmp false) (watched (cmpS false) (cmp false) 851) = true ∧
    crossed (cmp false) (watched (cmpS false) (cmp false) 850) = false ∧ bitAt (cmp false).action 2 = true ∧ domainOn (cmpS false) 101 = false ∧
    (comparatorOf (cmpS true) 7).source ≠ 0xFF ∧ returned (cmp true) (watched (cmpS true) (cmp true) 834) = true ∧ returned (cmp true) (watched (cmpS true) (cmp true) 835) = false := by
  decide +kernel

theorem test_comparatorAssert : (nextOf (exec (.comparatorAssert 7 851) (cmpS false))).pwr.wakeLatch = 2 ^ 10 ∧
    hubBudget (nextOf (exec (.comparatorAssert 7 851) (cmpS false))) = 2100 := by decide +kernel
theorem test_comparatorDeassert : (comparatorOf (nextOf (exec (.comparatorDeassert 7 834) (cmpS true))) 7).asserted = false ∧
    (comparatorOf (nextOf (exec (.comparatorDeassert 7 835) (cmpS true))) 7).asserted = true := by decide +kernel

theorem witness_trips : trips 1 920 = true ∧ trips 1 919 = false ∧ trips 16 95 = true ∧ trips 28 720 = true ∧ trips 29 0xFFFF = false ∧
    rdy.boot.coldResetLow = false := by decide +kernel
theorem test_thermalTrip : (nextOf (exec (.thermalTrip 1 920) rdy)).boot.stopped = true ∧
    (nextOf (exec (.thermalTrip 1 919) rdy)).boot.stopped = false := by decide +kernel
theorem test_railFault : (nextOf (exec (.railFault 40) rdy)).boot.pwrFault = true ∧ (nextOf (exec (.railFault 55) rdy)).boot.stopped = true := by
  decide +kernel

theorem witness_vddAtticFault : logicalSite (dieSite die) 0 = some 0 ∧ hearsDie (dieSite die) 0 = true ∧ (tkeys (dieSite die).attic.dir).Nodup ∧
    (dieSite die).boot.stopped = false ∧ rdy.boot.straps.mgmtIf < 2 := by (repeat' apply And.intro) <;> decide +kernel
theorem test_vddAtticFault : (siteOf (nextOf (exec (.vddAtticFault 0) ownedLine)) 0).astate = .down := by decide +kernel
theorem test_sgmiiLinkChange : (nextOf (exec (.sgmiiLinkChange true) rdy)).mgmt.sgmiiUp = true := by decide +kernel

/-- Engine 0: its query, a retrain of every lane, and 16 lanes of mode NATIVE at the variant's rate. -/
def retrainReq : Bytes := leBytes 8 (0xFFFF * 2 ^ 16)
def modeReq : Bytes := leBytes 8 (1 * 2 ^ 4 + 2 * 2 ^ 6 + 16 * 2 ^ 8 + 0xFFFF * 2 ^ 16)

theorem witness_links : runs (at0 0x0600 (leBytes 8 0)) 0 0x0600 (tk 0x0600 (leBytes 8 0)) ∧ engineOwner rdy 0 = 0 ∧
    bitAt rdy.boot.presentEngines 0 = true ∧ runs (at0 0x0601 retrainReq) 0 0x0601 (tk 0x0601 retrainReq) ∧ bbits retrainReq 4 12 = 0 ∧
    bbits retrainReq 32 32 = 0 ∧ (engineOf rdy 0).cfgMode ≠ 0 ∧ domainLive rdy (domEngine 0) = true ∧
    runs (at0 0x0602 modeReq) 0 0x0602 (tk 0x0602 modeReq) ∧ bbits modeReq 13 3 = 0 ∧ bbits modeReq 4 2 = 1 ∧ bbits modeReq 6 2 ≤ rateCap rdy ∧
    bbits modeReq 8 5 ≤ popCount (bbits modeReq 16 16) 16 := by (repeat' apply And.intro) <;> decide +kernel

theorem test_linkQuery : code0 (exec (.linkQuery 0) (at0 0x0600 (leBytes 8 0))) = 0 := by decide +kernel
theorem test_linkRetrain : code0 (exec (.linkRetrain 0) (at0 0x0601 retrainReq)) = 1 := by decide +kernel
theorem test_linkModeSet : (engineOf (nextOf (exec (.linkModeSet 0) (at0 0x0602 modeReq))) 0).minLanes = 16 ∧
    code0 (exec (.linkModeSet 0) (at0 0x0602 (leBytes 8 (1 * 2 ^ 4 + 17 * 2 ^ 8 + 0xFFFF * 2 ^ 16)))) = statusCode .badField := by decide +kernel

/-! ### 08, 18: registers, BAR2, the management port -/

theorem witness_registerWrite : hostReaches rdy = true ∧ rdy.mem.heldDoorbells = [] ∧ hostWritesOut rdy = false ∧
    ({ rdy.mem with heldDoorbells := [(0x100F48, 8, 1)] } : MemSt).heldDoorbells ≠ [] ∧ (chanOf rdy 63).state = .free ∧ 0xBF8 < 0xC00 ∧ 0xBF8 % 8 = 0 ∧
    (chanOf (at0 0x0900 []) 0).state ≠ .free ∧ hostReaches { rdy with boot := { rdy.boot with stopped := true } } = false := by decide +kernel

theorem test_registerWrite :
    tget (chanOf (nextOf (exec (.registerWrite (0x100000 + 63 * 0x1000 + 0xBF8) 8 (7 * 2 ^ 56)) rdy)) 63).req 0xBFF 0 = 7#8 ∧
    (chanOf (nextOf (exec (.registerWrite 0x100000 8 7) (at0 0x0900 []))) 0).req = [] ∧
    (nextOf (exec (.registerWrite 0x100000 4 (2 ^ 32 + 7)) { rdy with mem := { rdy.mem with heldDoorbells := [(0x100F48, 8, 1)] } })).mem.heldDoorbells
      = [(0x100F48, 8, 1), (0x100000, 4, 7)] := by decide +kernel

/-- A BAR2 of 1 GiB over the cellar scratch, as the host enables it. -/
def barS : State := { rdy with
  boot := { rdy.boot with bar2Log2 := 30, windowBase := scratchBase, bar2Base := 2 ^ 40 }
  part := { rdy.part with parts := [(0, { pstate := .active, hostBar2 := true })] } }

theorem witness_bar2 : bar2Hpa barS (2 ^ 40 + 0x7FFFE) = some (scratchBase + 0x7FFFE) ∧
    bar2Unmapped barS (scratchBase + 0x7FFFE) 2 = false ∧ bar2Unmapped barS (scratchBase + scratchStride) 2 = true ∧
    bar2Hpa barS (2 ^ 40 + scratchStride) = some (scratchBase + scratchStride) ∧ barS.mem.hostReads.length < 2048 ∧
    2048 ≤ ({ barS.mem with hostReads := (List.range 2048).map (fun i => (i, {})) } : MemSt).hostReads.length := by decide +kernel

/-- Two lines are written; a poisoned write; a read becomes a read of port 84. -/
theorem test_bar2Access :
    (nextOf (exec (.bar2Access (.write true) (2 ^ 40 + 0x7F) [1#8, 2#8]) barS)).mem.txns.map (fun e => (e.2.master, e.2.hpa, e.2.data, e.2.poison))
      = [(84, scratchBase, [(127, 1#8)], 15), (84, scratchBase + 128, [(0, 2#8)], 15)] ∧
    (nextOf (exec (.bar2Access .read (2 ^ 40 + 0x7FFFE) [0#8]) barS)).mem.txns.map (fun e => (e.2.master, e.2.kind)) = [(84, .read)] ∧
    (nextOf (exec (.bar2Access (.write false) (2 ^ 40 + scratchStride) [1#8]) barS)).boot.aerUnsupported = true ∧
    (nextOf (exec (.bar2Access .read (2 ^ 40 + scratchStride) [1#8]) barS)).out = [.unsupported] := by decide +kernel

/-- The last line of a host read that returns, and a host write that the firewall refused. -/
def hostBack (x : Txn) : State := { barS with
  mem := { barS.mem with txns := [(9, x)], hostReads := [(4, { bus := 2 ^ 40, hpa := scratchBase, bytes := 1, lines := [9] })] } }
def hostGot : Txn := { phase := .done, master := 84, tag := 16, hpa := scratchBase, bytes := 1, client := .hostRead 4, result := [(0, 6#8)] }
def hostTurned : Txn := {
  phase := .done, master := 84, tag := 16, hpa := scratchBase, kind := .write, client := .hostWrite, error := some ecFirewall }

theorem witness_hostBack : txnOf (hostBack hostGot) 9 = some hostGot ∧ txnOf (hostBack hostTurned) 9 = some hostTurned ∧
    (tfind (hostBack hostGot).mem.hostReads 4).map (fun r => (r.lines, r.after, r.unsupported, r.bad)) = some ([9], [], false, []) ∧
    hostGot.error = none ∧ hostGot.resultPoison = 0 ∧ (hostBack hostTurned).mem.heldDoorbells = [] := by decide +kernel

theorem test_hostBack : (nextOf (exec (.transactionCompletionReturn 9) (hostBack hostGot))).out = [.readData (2 ^ 40) [6#8] 0] ∧
    (nextOf (exec (.transactionCompletionReturn 9) (hostBack hostTurned))).err.ring.map (fun e => (e.2.code, e.2.address))
      = [(ecFirewall, scratchBase)] := by decide +kernel

/-- A message waits on vector 2047 while the function is in D3hot. -/
def msixS : State := { rdy with
  boot := { rdy.boot with d3hot := true }
  cp := { rdy.cp with msix := [(2047, { addr := 0x40, data := 3, masked := false, pendingBit := true })] } }

theorem witness_hostConfig : hostReaches msixS = true ∧ msixS.boot.busMaster = true ∧ (tget msixS.cp.msix 2047 {}).pendingBit = true ∧
    (tget msixS.cp.msix 2047 {}).masked = false := by decide +kernel
/-- Both errors were reported; the host clears one. -/
def aerS : State := { rdy with boot := { rdy.boot with aerUnsupported := true, aerPoisoned := true } }
theorem test_aerClear : (nextOf (exec (.hostConfigWrite (.aerClear false true)) aerS)).boot.aerUnsupported = true ∧
    (nextOf (exec (.hostConfigWrite (.aerClear false true)) aerS)).boot.aerPoisoned = false := by decide +kernel
theorem test_hostConfigWrite : (nextOf (exec (.hostConfigWrite (.dState false)) msixS)).out = [.msix 2047 0x40 3] ∧
    (nextOf (exec (.hostConfigWrite (.bar2Size 29)) rdy)).boot.bar2Log2 = 44 ∧
    (nextOf (exec (.hostConfigWrite (.bar2Size 30)) rdy)).boot.bar2Log2 = 30 := by decide +kernel

/-- An open session with two sent records and a third not yet sent; the ring holds the second's error record. -/
def mgmtS (dropped : Nat) : State := { rdy with
  mgmt := { rdy.mgmt with session := true, nextSeq := 9, droppedSince := dropped
                          held := [{ seq := 5, sent := true }, { seq := 6, sent := true, err := some { index := 4 } }, { seq := 7 }] }
  err := { rdy.err with ring := [(4, { index := 4 })] } }
def fullMgmt (st : Stage) : State := { used with
  boot := { used.boot with stage := st }
  cp := { used.cp with chans := (List.range 8).map (fun i => (64 + i, { state := .posted, session := true })) } }
def mbReq : Bytes := List.replicate 64 0#8

theorem witness_mgmt : portHears (mgmtS 0) = true ∧ inSession (mgmtS 0) = true ∧ rdy.mgmt.session = false ∧ isReady (mgmtS 0) = true ∧
    0x4010008 % 2 ^ 26 = 0x10008 ∧ 0x400 % 2 ^ 26 ≠ 0x10008 ∧ (chanOf (mgmtS 0) 64).state = .free ∧
    (∀ j, j < 8 → (chanOf (fullMgmt .ready) (64 + j)).state ≠ .free) ∧ inSession (fullMgmt .ready) = true ∧
    inSession { used with boot := { used.boot with stage := .shelves } } = true ∧
    mgmtInFlight { used with boot := { used.boot with stage := .shelves } } < 8 ∧ (fullMgmt .failed).boot.stage = .failed ∧
    (∀ x ∈ (mgmtS 0).mgmt.held, x.seq = 7 → x.sent = false) ∧ ((mgmtS 0).mgmt.held[1]?).map (·.sent) = some true ∧
    (∀ x ∈ (mgmtS 0).mgmt.held.take 1, ¬ (x.seq = 6 ∧ x.sent = true)) ∧ (mgmtS 3).mgmt.droppedSince ≠ 0 ∧
    (∃ e ∈ (mgmtS 0).err.ring, e.2.index = 4) := by (repeat' apply And.intro) <;> decide +kernel

theorem test_mbRequest : (chanOf (nextOf (exec (.mbRequest mbReq) (mgmtS 0))) 64).state = .posted ∧
    (nextOf (exec (.mbRequest mbReq) rdy)).out = [.mgmtResponse vmMbRequest (statusCode .deniedRole) 0] ∧
    (nextOf (exec (.mbRequest mbReq) (fullMgmt .ready))).out.length = 1 := by decide +kernel
theorem test_eventAck : (nextOf (exec (.eventAck 6) (mgmtS 0))).mgmt.held.map (·.seq) = [7] ∧
    (nextOf (exec (.eventAck 6) (mgmtS 0))).err.acked = [4] ∧
    (nextOf (exec (.eventAck 7) (mgmtS 0))).mgmt.held.map (·.seq) = [5, 6, 7] ∧
    (nextOf (exec (.eventAck 6) (mgmtS 3))).mgmt.held.map (·.seq) = [7, 9] := by decide +kernel
theorem test_regRead : (nextOf (exec (.regRead 0x10008 4) rdy)).out.length = 1 := by decide +kernel

theorem witness_regWrite : mgmtReg (0 % 2 ^ 26) = .other ∧ mgmtReg 0x26001F0 = .other ∧ mgmtReg (0x2600200 + 16 * 7) = .comparator 7 ∧
    mgmtReg (0x2400800 + 8 * 31) = .lcRequest 31 := by decide +kernel
theorem test_regWrite : tget (nextOf (exec (.regWrite (0x2400800 + 8 * 31) 8 6) (mgmtS 0))).boot.lcRequest 31 0 = 6 ∧
    (comparatorOf (nextOf (exec (.regWrite (0x2600208 + 16 * 7) 8 6) (mgmtS 0))) 7).value = 6 := by decide +kernel
theorem test_pwrCmpWrite : (comparatorOf (nextOf (exec (.pwrCmpWrite 7 (1 + 2 * 2 ^ 3 + 5 * 2 ^ 8)) (mgmtS 0))) 7).source = 5 := by decide +kernel
theorem test_setEndpointId : (nextOf (exec (.setEndpointId 0xFE) rdy)).mgmt.eid = 0xFE ∧ (nextOf (exec (.setEndpointId 0xFF) rdy)).mgmt.eid = 0 := by
  decide +kernel
theorem test_pldmSensorRead : (nextOf (exec (.pldmSensorRead 64) (mgmtS 0))).out = [.mgmtResponse vmPldm pldmOk 0] := by decide +kernel

/-! ### 15, 16: SPDM, firmware, limited changes -/

/-- A conversation on the management port in some state; the board table names a root for agents. -/
def spdmS (x : SpdmConv) : State := { rdy with part := { rdy.part with mgmtRoot := true, spdm := [(onMctp, x), (onDoe, x)] } }
def mctp (param : Nat) : SpdmIn := { transport := onMctp, mutualAuth := true, param := param }
def talked : SpdmConv := { version := 0x13, capsDone := true, algsDone := true }
def spdmOut (i : Instr) (x : SpdmConv) : List Out := (nextOf (exec i (spdmS x))).out

theorem witness_spdm : spdmReaches (spdmS talked) onMctp = true ∧ spdmReaches (spdmS talked) onDoe = true ∧ spdmReaches State.reset onMctp = false ∧
    convOf (spdmS talked) onMctp = talked ∧ (mctp 0).ok = true ∧ (mctp 0).version = talked.version ∧ talked.session = false ∧
    (spdmS talked).part.mgmtRoot = true ∧ (spdmS talked).mgmt.session = false ∧ talked.capsDone = true ∧ talked.algsDone = true ∧
    rdy.part.mgmtRoot = false ∧ (mgmtS 0).mgmt.session = true ∧ (chanOf (fullMgmt .ready) 64).state = .posted ∧
    (mgmtS 0).mgmt.droppedSince = 0 ∧ ({ transport := onDoe } : SpdmIn).mutualAuth = false := by (repeat' apply And.intro) <;> decide +kernel

theorem test_getVersion : spdmOut (.getVersion (mctp 0)) talked = [.spdm onMctp 0x04 0x1312] := by decide +kernel
theorem test_getCapabilities : spdmOut (.getCapabilities (mctp 0)) {} = [.spdm onMctp 0x61 0x13] ∧
    spdmOut (.getCapabilities { mctp 0 with version := 0x11 }) {} = [.spdm onMctp 0x7F 0x41] := by decide +kernel
theorem test_negotiateAlgorithms : spdmOut (.negotiateAlgorithms (mctp 0)) {} = [.spdm onMctp 0x7F 4] ∧
    spdmOut (.negotiateAlgorithms (mctp 0)) talked = [.spdm onMctp 0x63 0] := by decide +kernel
theorem test_getDigests : spdmOut (.getDigests (mctp 0)) talked = [.spdm onMctp 0x01 1] := by decide +kernel
theorem test_getCertificate : spdmOut (.getCertificate (mctp 1)) talked = [.spdm onMctp 0x7F 1] := by decide +kernel
theorem test_challenge : spdmOut (.challenge (mctp 0)) talked = [.spdm onMctp 0x03 0] := by decide +kernel
theorem test_getMeasurements : spdmOut (.getMeasurements (mctp 0)) talked = [.spdm onMctp 0x60 10] := by decide +kernel
theorem test_keyExchange : spdmOut (.keyExchange (mctp 0)) talked = [.spdm onMctp 0x64 0] ∧
    spdmOut (.keyExchange { mctp 0 with mutualAuth := false }) talked = [.spdm onMctp 0x7F 7] := by decide +kernel
theorem test_finish : (nextOf (exec (.finish (mctp 0)) (spdmS { talked with handshake := true }))).mgmt.session = true := by decide +kernel
theorem test_spdmKeyUpdate : spdmOut (.spdmKeyUpdate (mctp 0)) { talked with session := true } = [.spdm onMctp 0x69 0] ∧
    spdmOut (.spdmKeyUpdate (mctp 0)) talked = [.spdm onMctp 0x7F 4] := by decide +kernel
theorem test_spdmHeartbeat : spdmOut (.spdmHeartbeat (mctp 0)) { talked with session := true } = [.spdm onMctp 0x68 0] := by decide +kernel
theorem test_endSession : (convOf (nextOf (exec (.endSession (mctp 0)) (spdmS { talked with session := true }))) onMctp).session = false := by
  decide +kernel

theorem witness_attest : runs (at0 0x0A00 (words 0 0)) 0 0x0A00 (tk 0x0A00 (words 0 0)) := by (repeat' apply And.intro) <;> decide +kernel

/-- GENERATION 41 of the worked example in 15. -/
def gen (n : Nat) (s : State) : State := { s with part := { s.part with generation := n } }
def image15 : FwImage := { version := 150, digest := 5 }
/-- Slot 1 is staged and its activation waits. -/
def staged (activating : Option Nat) : State := { rdy with
  boot := { rdy.boot with
    slots := [(0, {}), (1, image15)], slotRecords := [some { seq := 1, stagedValid := true }, none], activating := activating }
  part := { rdy.part with generation := 42, updateInProgress := true }
  cp := { rdy.cp with stopTaking := activating.isSome, asyncs := [{ seq := 9, opcode := 0x0B01 }] } }
def staging : State := { rdy with
  boot := { rdy.boot with staging := some ⟨9, image15⟩ }
  cp := { rdy.cp with asyncs := [{ seq := 9, opcode := 0x0B00 }] } }
/-- The boot ROM in RECOVERY waits for an image. -/
def recovery : State := { at0 0x0B00 [] with boot := { rdy.boot with stage := .recovery, waiting := some noCp } }
def stagedCmd (a : Option Nat) : State := withCmd (staged a) (tk 0x0B01 [])

theorem witness_firmware : runs (gen 41 (at0 0x0B00 [])) 0 0x0B00 (tk 0x0B00 []) ∧ bootServes rdy = false ∧ rdy.boot.staging = none ∧
    rdy.boot.activating = none ∧ rdy.boot.slotRecords.length = 2 ∧ staging.boot.staging.isSome = true ∧
    runs recovery 0 0x0B00 (tk 0x0B00 []) ∧ bootServes recovery = true ∧ imageStatus recovery image15 = none ∧
    imageStatus recovery (requestImage [] image15) = none ∧
    imageStatus recovery (requestImage [] { image15 with digestOk := false }) = some .fwSignatureBad ∧ recovery.boot.waiting = some noCp ∧
    staging.boot.stopped = false ∧ imageStatus staging image15 = none ∧ runs (stagedCmd none) 0 0x0B01 (tk 0x0B01 []) ∧
    readyImage (stagedCmd none) = some image15 ∧ readyImage rdy = none ∧ (stagedCmd (some 9)).boot.activating.isSome = true ∧
    takenCount (staged (some 9)) = 0 ∧ takenCount (stagedCmd (some 9)) ≠ 0 ∧ bootTakesPldm used = false ∧ inSession used = true ∧
    bootTakesPldm recovery = true ∧ portHears recovery = true := by (repeat' apply And.intro) <;> decide +kernel

theorem test_fwStage : (nextOf (exec (.fwStage 0 image15) (gen 41 (at0 0x0B00 [])))).part.generation = 42 ∧
    (nextOf (exec (.fwStage 0 image15) (gen 41 (at0 0x0B00 [])))).part.updateInProgress = true := by decide +kernel
theorem test_fwStageDone : tfind (nextOf (exec (.fwStageDone true) staging)).boot.slots 1 = some image15 ∧
    tfind (nextOf (exec (.fwStageDone false) staging)).boot.slots 1 = none := by decide +kernel
theorem test_fwActivate : (nextOf (exec (.fwActivate 0) (stagedCmd none))).cp.stopTaking = true ∧
    code0 (exec (.fwActivate 0) (at0 0x0B01 [])) = statusCode .fwNotStaged := by decide +kernel
theorem test_fwActivateSwitch : (nextOf (exec .fwActivateSwitch (staged (some 9)))).part.generation = 43 ∧
    (nextOf (exec .fwActivateSwitch (staged (some 9)))).boot.fw = image15 ∧
    (nextOf (exec .fwActivateSwitch (stagedCmd (some 9)))).boot.fw = {} := by decide +kernel
theorem test_updateComponent : (nextOf (exec (.updateComponent image15) used)).boot.staging.isSome = true := by decide +kernel
theorem test_activateFirmware : (nextOf (exec .activateFirmware { staged none with mgmt := used.mgmt })).cp.stopTaking = true ∧
    (nextOf (exec .activateFirmware used)).out = [.mgmtResponse vmPldm (statusCode .fwNotStaged) 0] := by decide +kernel

/-- A request of one setting, and fuses that still allow every change. -/
def lcS (w0 w1 : Nat) : State := { used with boot := { used.boot with
  lcRequest := [(0, w0), (1, w1)], fw := { svn := 128 }, fuses := { used.boot.fuses with sites := [(7, { mapWrites := 1, profileWrites := 3 })] } } }
/-- The last change of each kind is used. -/
def lcUsed (w0 w1 : Nat) : State := { lcS w0 w1 with boot := { (lcS w0 w1).boot with fuses := { (lcS w0 w1).boot.fuses with
  downgraded := true, lifecycleSteps := 3, antiRollback := 128, sites := [(7, { mapWrites := 2, profileWrites := 4 })] } } }
def lcProg : State := { lcS 1 2 with boot := { (lcS 1 2).boot with lcBusy := true, lcChange := some { setting := 3, words := [3, 128] } } }

theorem witness_limitedChanges : portHears (lcS 1 2) = true ∧ (lcS 1 2).mgmt.session = true ∧ isReady (lcS 1 2) = true ∧
    bits (lcWord (lcS 1 2) 0) 0 8 = 1 ∧ lcRefused (lcS 1 2) true = none ∧ lcRefused (lcUsed 1 2) true = some 1 ∧
    bits (lcWord (lcS 2 3) 0) 0 8 = 2 ∧ lcRefused (lcS 2 3) false = none ∧ lcRefused (lcS 2 2) true = some 2 ∧
    bits (lcWord (lcS 3 128) 0) 0 8 = 3 ∧ lcRefused (lcS 3 128) true = none ∧ lcRefused (lcUsed 3 128) true = some 2 ∧ antiChanges (lcS 3 128) < 128 ∧
    bits (lcWord (lcS (4 + 256 * 7) 0) 0) 0 8 = 4 ∧ lcRefused (lcS (4 + 256 * 7) 0) true = none ∧ lcRefused (lcUsed (4 + 256 * 7) 0) true = some 1 ∧
    bits (lcWord (lcS (5 + 256 * 7) 15) 0) 0 8 = 5 ∧ lcRefused (lcS (5 + 256 * 7) 15) true = none ∧
    lcRefused (lcUsed (5 + 256 * 7) 15) true = some 1 ∧ lcProg.boot.lcBusy = true ∧ lcProg.boot.stopped = false := by
  (repeat' apply And.intro) <;> decide +kernel

theorem test_lcVariant : (nextOf (exec (.lcVariant true) (lcS 1 2))).boot.fuses.downgraded = true ∧
    (nextOf (exec (.lcVariant true) (lcUsed 1 2))).boot.lcResult = 1 ∧
    (nextOf (exec (.lcVariant true) lcProg)).boot.lcRejected = 1 := by decide +kernel
theorem test_lcLifecycle : (nextOf (exec (.lcLifecycle false) (lcS 2 3))).boot.fuses.lifecycleSteps = 2 := by decide +kernel
theorem test_lcAntiRollback : (nextOf (exec (.lcAntiRollback true) (lcS 3 128))).boot.lcBusy = true := by decide +kernel
theorem test_lcAtticRepairMap : (fuseSite (nextOf (exec (.lcAtticRepairMap true) (lcS (4 + 256 * 7) 0))) 7).mapWrites = 2 := by decide +kernel
theorem test_lcAtticProfile : (fuseSite (nextOf (exec (.lcAtticProfile true) (lcS (5 + 256 * 7) 15))) 7).profileWrites = 4 := by decide +kernel
theorem test_fuseProgrammingDone : (nextOf (exec (.fuseProgrammingDone true) lcProg)).boot.fuses.antiRollback = 128 ∧
    (nextOf (exec (.fuseProgrammingDone false) lcProg)).boot.lcResult = 5 := by decide +kernel

/-! ### The whole machine -/

theorem witness_memoryForm : Memory.wf (mover [] {}).mem.bytes = true ∧ isNext (step { mover [] {} with pending := [.cdrLocked 0 0] }) = true := by
  decide +kernel

theorem witness_everyCommandsFrame : isNext (exec (.setEndpointId 8) rdy) = true := by decide +kernel

/-- Operands at the ends of the clauses: the largest shift, the smallest number and the one next to it. -/
theorem witness_integerResults : (31#32).toNat < 32 ∧ (63#64).toNat < 64 ∧ BitVec.intMin 32 + 1 ≠ BitVec.intMin 32 ∧
    ¬ (0#64 = BitVec.intMin 64) := by decide

theorem witness_atomicsInLaneOrder : ∀ l, l ∈ [({ addr := 8, sb := 1, sc := 2 } : AtomLane), { thread := 1, addr := 8 }] → l.addr = 8 := by
  decide

theorem test_step_takesFront : (nextOf (step { rdy with pending := [.setEndpointId 8, .setEndpointId 9] })).pending = [.setEndpointId 9] ∧
    (nextOf (step { rdy with pending := [.setEndpointId 8, .setEndpointId 9] })).mgmt.eid = 8 := by decide +kernel

theorem test_decodeTableWord : decodeTableWord 32 0 = none ∧ State.reset.withFetchWord 32 0 = State.reset := ⟨rfl, rfl⟩

/-! ### Ill-formed commands -/

/-- For every check a number just inside and one just outside. -/
theorem ill_operands : Operand.ok (.mailbox 63) = true ∧ Operand.ok (.mailbox 64) = false ∧ Operand.ok (.channel 72) = false ∧
    Operand.ok (.queue 512) = false ∧ Operand.ok (.vector 2048) = false ∧ Operand.ok (.vectorWord 4) = false ∧ Operand.ok (.core 4096) = false ∧
    Operand.ok (.cellar 64) = false ∧ Operand.ok (.site 8) = false ∧ Operand.ok (.shelf 12) = false ∧ Operand.ok (.shelfChannel 32) = false ∧
    Operand.ok (.engine 12) = false ∧ Operand.ok (.lane 16) = false ∧ Operand.ok (.farPort 2) = false ∧ Operand.ok (.farDecoder 8) = false ∧
    Operand.ok (.master 89) = false ∧ Operand.ok (.partition 16) = false ∧ Operand.ok (.domain 103) = false ∧ Operand.ok (.comparator 8) = false ∧
    Operand.ok (.group 16) = false ∧ Operand.ok (.word 16384) = false ∧ Operand.ok (.register 256) = false ∧ Operand.ok (.predicate 8) = false ∧
    Operand.ok (.slot 8) = false ∧ Operand.ok (.way 16) = false ∧ Operand.ok (.structure_ 5) = false ∧ Operand.ok (.fits 8 256) = false ∧
    Operand.ok (.size 2) = false ∧ Operand.ok (.payload 1 [0, 0]) = false ∧ Operand.ok (.payload 1 [0]) = true := by decide

theorem ill_commands : Instr.wf (.doorbellPost 64) = false ∧ Instr.wf (.hello 72) = false ∧ Instr.wf (.eqConsumerWrite 512 0 false) = false ∧
    Instr.wf (.msixTableWrite 0 4 0) = false ∧ Instr.wf (.railFault 40) = true ∧ Instr.wf (.coreHang 4096) = false ∧
    Instr.wf (.shelfRepairSoft 12 0) = false ∧ Instr.wf (.regRead 0 2) = false ∧ Instr.wf (.setEndpointId 256) = false ∧
    Instr.wf (.shelfChannelRetrain 0 32) = false ∧ Instr.wf (.masterPortIssue 89) = false ∧ Instr.wf (.comparatorAssert 8 0) = false ∧
    Instr.wf (.signal 64 0) = false ∧ Instr.wf (.split {} 8) = false ∧ Instr.wf (.hostPerst {}) = true := by decide +kernel

end Sys2Proof.Tests
end

section

/-! What a command keeps, as a predicate: the components outside a list, and the queue of waiting commands (00 R10). It holds
of a chain of updates when it holds of each, so that a command is judged update by update. -/

set_option maxRecDepth 4000
set_option exponentiation.threshold 2000

namespace Sys2Proof.Machine

/-- `t` is `s` but for the components of `l`; the queue of waiting commands is the same. -/
def keeps (l : List Component) (s t : State) : Prop := t.pending = s.pending ∧
    ∀ k : Component, k ∉ l → unchanged k s t

theorem keeps_iff (l : List Component) (s t : State) : keeps l s t ↔
    t.pending = s.pending ∧ (.time ∉ l → t.time = s.time) ∧ (.cp ∉ l → t.cp = s.cp) ∧ (.part ∉ l → t.part = s.part) ∧
    (.err ∉ l → t.err = s.err) ∧ (.pwr ∉ l → t.pwr = s.pwr) ∧ (.mgmt ∉ l → t.mgmt = s.mgmt) ∧
    (.boot ∉ l → t.boot = s.boot) ∧ (.fuses ∉ l → t.boot.fuses = s.boot.fuses) ∧
    (.flash ∉ l → t.boot.slots = s.boot.slots ∧ t.boot.slotRecords = s.boot.slotRecords) ∧
    (.cells ∉ l → t.cells = s.cells) ∧ (.mem ∉ l → t.mem = s.mem) ∧ (.bytes ∉ l → t.mem.bytes = s.mem.bytes) ∧
    (.larder ∉ l → t.larder = s.larder) ∧ (.reg ∉ l → t.reg = s.reg) ∧ (.trans ∉ l → t.trans = s.trans) ∧
    (.attic ∉ l → t.attic = s.attic) ∧ (.link ∉ l → t.link = s.link) ∧ (.chord ∉ l → t.chord = s.chord) ∧
    (.fresh ∉ l → t.fresh = s.fresh) ∧ (.out ∉ l → t.out = s.out) := by
  constructor
  · rintro ⟨hp, h⟩
    exact ⟨hp, h _, h _, h _, h _, h _, h _, h _, h _, h _, h _, h _, h _, h _, h _, h _, h _, h _, h _, h _, h _⟩
  · rintro ⟨hp, h1, h2, h3, h4, h5, h6, h7, h8, h9, h10, h11, h12, h13, h14, h15, h16, h17, h18, h19, h20⟩
    refine ⟨hp, fun k => ?_⟩
    cases k <;> assumption

/-- Every next state of an outcome keeps what `l` does not name. -/
def nextKeeps (l : List Component) (s : State) (o : Host.Outcome State Fault Refusal) : Prop :=
  ∀ t, o = .next t → keeps l s t

@[simp] theorem nextKeeps_next (l : List Component) (s t : State) : nextKeeps l s (.next t) ↔ keeps l s t := by
  simp [nextKeeps]

@[simp] theorem nextKeeps_fault (l : List Component) (s : State) (r : Fault) : nextKeeps l s (.fault r) := by
  simp [nextKeeps]

@[simp] theorem nextKeeps_ite (l : List Component) (s : State) (p : Prop) [Decidable p]
    (a b : Host.Outcome State Fault Refusal) :
    nextKeeps l s (if p then a else b) ↔ (p → nextKeeps l s a) ∧ (¬p → nextKeeps l s b) := by
  split <;> simp [*]

@[simp] theorem keeps.refl (l : List Component) (s : State) : keeps l s s := by
  simp [keeps_iff]

theorem keeps.trans {l : List Component} {s t u : State} (h : keeps l s t) (k : keeps l t u) : keeps l s u := by
  refine ⟨k.1.trans h.1, fun c hc => ?_⟩
  have h1 := h.2 c hc
  have h2 := k.2 c hc
  cases c with
  | flash => exact ⟨h2.1.trans h1.1, h2.2.trans h1.2⟩
  | _ => exact Eq.trans h2 h1

theorem keeps.mono {l m : List Component} {s t : State} (h : keeps l s t) (hl : l ⊆ m) : keeps m s t :=
  ⟨h.1, fun c hc => h.2 c (fun h => hc (hl h))⟩

/-- What a pair's state keeps, the name that a match gives to it keeps. -/
theorem keeps_of_eq {β : Type} {l : List Component} {s u : State} {x : State × β} {b : β} (h : x = (u, b))
    (hx : keeps l s x.1) : keeps l s u := by
  subst h; exact hx

/-- The state of a pair keeps what `l` does not name. -/
def fstKeeps {β : Type} (l : List Component) (s : State) (x : State × β) : Prop := keeps l s x.1

@[simp] theorem fstKeeps_mk {β : Type} (l : List Component) (s t : State) (b : β) : fstKeeps l s
    (t, b) ↔ keeps l s t := Iff.rfl

theorem keeps.trans_fst {β : Type} {l : List Component} {s t : State} {x : State × β} (h : keeps l s t)
    (k : fstKeeps l t x) : fstKeeps l s x := keeps.trans h k

@[simp] theorem nextKeeps_kernel (l : List Component) (s t : State) (ok : Bool) :
    nextKeeps l s (kernel ok t) ↔ (ok → keeps l s t) := by
  unfold kernel; split <;> simp [*]

theorem nextKeeps_spdmRow {l : List Component} {m : SpdmIn} {s : State} {f : State → State}
    (h : ∀ s, keeps l s (f s)) :
    nextKeeps l s (spdmRow m s f) := by
  unfold spdmRow
  split <;> simp [h]

theorem nextKeeps.of_keeps {l : List Component} {s t : State} (h : keeps l s t) : nextKeeps l s (.next t) :=
  (nextKeeps_next l s t).mpr h

theorem nextKeeps.of_kernel {l : List Component} {s t : State} {ok : Bool} (h : keeps l s t) : nextKeeps l s
    (kernel ok t) :=
  (nextKeeps_kernel l s t ok).mpr (fun _ => h)

theorem nextKeeps.trans_next {l : List Component} {s t : State} {o : Host.Outcome State Fault Refusal}
    (h : keeps l s t)
    (k : nextKeeps l t o) : nextKeeps l s o := fun u hu => h.trans (k u hu)

theorem keeps.ite {l : List Component} {s t u : State} {p : Prop} [Decidable p] (ht : p → keeps l s t)
    (hu : ¬p → keeps l s u) :
    keeps l s (if p then t else u) := by
  split
  · exact ht ‹_›
  · exact hu ‹_›

theorem forEach_keeps {α : Type} {l : List Component} (xs : List α) (s : State) {f : State → α → State}
    (h : ∀ s x, keeps l s (f s x)) : keeps l s (forEach xs s f) := by
  unfold forEach
  induction xs generalizing s with
  | nil => exact .refl ..
  | cons x xs ih => exact (h s x).trans (ih _)

theorem foldlFst_keeps {α β : Type} {l : List Component} (xs : List α) (p : State × β) {f : State × β → α → State × β}
    (h : ∀ p x, keeps l p.1 (f p x).1) : keeps l p.1 (xs.foldl f p).1 := by
  induction xs generalizing p with
  | nil => exact .refl ..
  | cons x xs ih => exact (h p x).trans (ih _)

end Sys2Proof.Machine

end

section

/-! The helpers that change a memory record and leave every byte of memory as it was. -/

set_option maxRecDepth 4000
set_option exponentiation.threshold 2000

namespace Sys2Proof.Machine

@[simp] theorem ite_bytes (p : Prop) [Decidable p] (a b : MemSt) :
    (if p then a else b).bytes = if p then a.bytes else b.bytes := apply_ite ..

@[simp] theorem postWrite_bytes (s : State) (o n value : Nat) (now : State → State)
    (h : ∀ s, (now s).mem.bytes = s.mem.bytes) :
    (postWrite s o n value now).mem.bytes = s.mem.bytes := by
  simp [h, postWrite]

@[simp] theorem jobTxn_bytes (s : State) (c : Nat) (j : MoverJob) (t : Txn) :
    (jobTxn s c j t).mem.bytes = s.mem.bytes := by
  simp [jobTxn]

@[simp] theorem fetchPiece_bytes (s : State) (c : Nat) (j : MoverJob) (kind : TxnKind) (a n : Nat) :
    (fetchPiece s c j kind a n).1.mem.bytes = s.mem.bytes := by
  simp [fetchPiece]

@[simp] theorem ensureRemote_bytes (s : State) (c : Nat) (j : MoverJob) (a n : Nat) :
    (ensureRemote s c j a n).1.mem.bytes = s.mem.bytes := by
  simp [ensureRemote]

@[simp] theorem modSpare_bytes (s : State) (n bank : Nat) (f : Spare → Spare) :
    (modSpare s n bank f).mem.bytes = s.mem.bytes := by
  simp [modSpare]

@[simp] theorem repairEnds_bytes (s : State) (n row result : Nat) :
    (repairEnds s n row result).mem.bytes = s.mem.bytes := by
  simp [repairEnds]

@[simp] theorem hardRepair_bytes (s : State) (n row : Nat) :
    (hardRepair s n row).mem.bytes = s.mem.bytes := by
  unfold hardRepair
  split <;> simp

@[simp] theorem softRepair_bytes (s : State) (n row : Nat) (byCp : Bool) :
    (softRepair s n row byCp).1.mem.bytes = s.mem.bytes := by
  unfold softRepair
  split <;> simp

@[simp] theorem repairCommand_bytes (s : State) (n : Nat) (f : State → State)
    (h : ∀ s, (f s).mem.bytes = s.mem.bytes) :
    (repairCommand s n f).mem.bytes = s.mem.bytes := by
  simp [h, repairCommand]

@[simp] theorem cancelHard_bytes (s : State) (n row : Nat) :
    (cancelHard s n row).mem.bytes = s.mem.bytes := by
  unfold cancelHard
  split <;> simp

@[simp] theorem receiveNew_bytes (s : State) (e p : Nat) (k : Packet) (body : State → Nat → State × Bool)
    (h : ∀ s p, (body s p).1.mem.bytes = s.mem.bytes) :
    (receiveNew s e p k body).mem.bytes = s.mem.bytes := by
  have hb : (body s p).1.mem.bytes = s.mem.bytes := h s p
  unfold receiveNew
  generalize body s p = x at hb
  obtain ⟨u, _ | _⟩ := x <;> simp_all

@[simp] theorem receivePsn_bytes (s : State) (e p : Nat) (k : Packet) (body : State → Nat → State × Bool)
    (h : ∀ s p, (body s p).1.mem.bytes = s.mem.bytes) :
    (receivePsn s e p k body).mem.bytes = s.mem.bytes := by
  simp [h, receivePsn]

@[simp] theorem receive_bytes (s : State) (e : Nat) (k : Packet) (access : Bool) (body : State → Nat → State × Bool)
    (h : ∀ s p, (body s p).1.mem.bytes = s.mem.bytes) :
    (receive s e k access body).mem.bytes = s.mem.bytes := by
  unfold receive
  have ha : (accepted s e k access).1.mem = s.mem := by simp
  generalize accepted s e k access = x at ha
  obtain ⟨u, _ | p⟩ := x
  · simp_all
  · simp_all

@[simp] theorem chordTxn_bytes (s : State) (e p part : Nat) (k : Packet) (t : Txn) :
    (chordTxn s e p part k t).mem.bytes = s.mem.bytes := by
  simp [chordTxn]

@[simp] theorem chordPut_bytes (s : State) (e p part a : Nat) (k : Packet) (b : Bytes) (pz : Nat → Bool) :
    (chordPut s e p part a k b pz).mem.bytes = s.mem.bytes := by
  simp [chordPut]

@[simp] theorem txnDone_bytes (s : State) (n : Nat) (f : Txn → Txn) :
    (txnDone s n f).mem.bytes = s.mem.bytes := by
  simp [txnDone]

@[simp] theorem txnFails_bytes (s : State) (n code : Nat) :
    (txnFails s n code).mem.bytes = s.mem.bytes := by
  unfold txnFails
  (repeat' split) <;> simp

@[simp] theorem endMessage_bytes (s : State) (p id st : Nat) :
    (endMessage s p id st).mem.bytes = s.mem.bytes := by
  unfold endMessage
  dsimp only
  (repeat' split) <;> simp

@[simp] theorem absorbTxn_bytes (s : State) (n : Nat) :
    (absorbTxn s n).mem.bytes = s.mem.bytes := by
  simp [absorbTxn]

@[simp] theorem forwardWindow_bytes (s : State) (site n : Nat) (t : Txn) :
    (forwardWindow s site n t).mem.bytes = s.mem.bytes := by
  unfold forwardWindow
  dsimp only
  (repeat' split) <;> simp

@[simp] theorem pumpSite_bytes (s : State) (site : Nat) :
    (pumpSite s site).mem.bytes = s.mem.bytes := by
  simp [pumpSite]

@[simp] theorem windowAnswer_bytes (s : State) (site : Nat) (m : AtpMsg) :
    (windowAnswer s site m).mem.bytes = s.mem.bytes := by
  unfold windowAnswer
  dsimp only
  (repeat' split) <;> simp

@[simp] theorem forwardPeer_bytes (s : State) (w n : Nat) (t : Txn) :
    (forwardPeer s w n t).1.mem.bytes = s.mem.bytes := by
  have hw : (windowPeer s w).1.mem = s.mem := by simp
  unfold forwardPeer
  generalize windowPeer s w = x at hw
  obtain ⟨u, _ | p⟩ := x
  · simp_all
  · dsimp only at hw ⊢
    (repeat' split) <;> simp [hw]

@[simp] theorem enterTxn_bytes (s : State) (n : Nat) (t : Txn) :
    (enterTxn s n t).mem.bytes = s.mem.bytes := by
  simp [enterTxn]

@[simp] theorem absorbWindow_bytes (s : State) (site : Nat) (record : Bool) (e : Nat × WindowReq) :
    (absorbWindow s site record e).mem.bytes = s.mem.bytes := by
  unfold absorbWindow
  dsimp only
  (repeat' split) <;> simp

@[simp] theorem takeAtp_bytes (s : State) (site op : Nat) (m : AtpMsg) (host : Fetch) (body : State → AtpMsg → State)
    (h : ∀ s m, (body s m).mem.bytes = s.mem.bytes) :
    (takeAtp s site op m host body).mem.bytes = s.mem.bytes := by
  simp [h, takeAtp]

@[simp] theorem dieTxn_bytes (s : State) (site : Nat) (m : AtpMsg) (t : Txn) :
    (dieTxn s site m t).mem.bytes = s.mem.bytes := by
  simp [dieTxn]

@[simp] theorem cachedRead_bytes (s : State) (site : Nat) (m : AtpMsg) (d : DirAct) :
    (cachedRead s site m d).mem.bytes = s.mem.bytes := by
  simp [cachedRead]

@[simp] theorem uncachedRead_bytes (s : State) (site : Nat) (m : AtpMsg) :
    (uncachedRead s site m).mem.bytes = s.mem.bytes := by
  simp [uncachedRead]

@[simp] theorem uncachedWrite_bytes (s : State) (site : Nat) (m : AtpMsg) :
    (uncachedWrite s site m).mem.bytes = s.mem.bytes := by
  simp [uncachedWrite]

@[simp] theorem dieAtomic_bytes (s : State) (site : Nat) (m : AtpMsg) :
    (dieAtomic s site m).mem.bytes = s.mem.bytes := by
  unfold dieAtomic
  split <;> simp

@[simp] theorem giveUp_bytes (s : State) (site : Nat) (m : AtpMsg) (dirty : Bool) :
    (giveUp s site m dirty).mem.bytes = s.mem.bytes := by
  simp [giveUp]

@[simp] theorem plainRead_bytes (s : State) (site : Nat) (m : AtpMsg) (host : Fetch) :
    (plainRead s site m host).mem.bytes = s.mem.bytes := by
  unfold plainRead
  (repeat' split) <;> simp

@[simp] theorem plainWrite_bytes (s : State) (site : Nat) (m : AtpMsg) :
    (plainWrite s site m).mem.bytes = s.mem.bytes := by
  simp [plainWrite]

@[simp] theorem windowRsp_bytes (s : State) (site : Nat) (m : AtpMsg) :
    (windowRsp s site m).mem.bytes = s.mem.bytes := by
  simp [windowRsp]

@[simp] theorem dropLost_bytes (s : State) (lost : List (Nat × Txn)) :
    (dropLost s lost).mem.bytes = s.mem.bytes := by
  simp [dropLost]

@[simp] theorem poisonRequests_bytes (s : State) (site : Nat) (linkB : Bool) :
    (poisonRequests s site linkB).mem.bytes = s.mem.bytes := by
  simp [poisonRequests]

@[simp] theorem startHardRow_bytes (s : State) (t : TestInput) (n p : Nat) (d : Defect) :
    (startHardRow s t n p d).mem.bytes = s.mem.bytes := by
  simp [startHardRow]

@[simp] theorem startSoftRow_bytes (s : State) (n : Nat) (d : Defect) :
    (startSoftRow s n d).mem.bytes = s.mem.bytes := by
  simp [startSoftRow]

@[simp] theorem startShelves_bytes (s : State) (t : TestInput) :
    (startShelves s t).mem.bytes = s.mem.bytes := by
  simp [startShelves]

@[simp] theorem startFar_bytes (s : State) (t : TestInput) :
    (startFar s t).mem.bytes = s.mem.bytes := by
  simp [startFar]

@[simp] theorem startUnits_bytes (s : State) (inp : StartInput) :
    (startUnits s inp).mem.bytes = s.mem.bytes := by
  simp [startUnits]

@[simp] theorem startRuns_bytes (s : State) (inp : StartInput) (x : FwImage) (slot : Nat) (fallback : Bool) :
    (startRuns s inp x slot fallback).mem.bytes = s.mem.bytes := by
  simp [startRuns]

@[simp] theorem startFirmware_bytes (s : State) (inp : StartInput) :
    (startFirmware s inp).mem.bytes = s.mem.bytes := by
  unfold startFirmware
  dsimp only
  (repeat' split) <;> simp

@[simp] theorem startFrom_bytes (s : State) (inp : StartInput) :
    (startFrom s inp).mem.bytes = s.mem.bytes := by
  simp [startFrom]

@[simp] theorem coldStart_bytes (s : State) (inp : StartInput) :
    (coldStart s inp).mem.bytes = s.mem.bytes := by
  simp [coldStart]

@[simp] theorem runSupplied_bytes (s : State) (x : FwImage) :
    (runSupplied s x).mem.bytes = s.mem.bytes := by
  unfold runSupplied
  split <;> simp

@[simp] theorem repairWrite_bytes (s : State) (shelf value : Nat) :
    (repairWrite s shelf value).mem.bytes = s.mem.bytes := by
  simp [repairWrite]

@[simp] theorem mgmtWrite_bytes (s : State) (o n value : Nat) :
    (mgmtWrite s o n value).mem.bytes = s.mem.bytes := by
  unfold mgmtWrite
  (repeat' split) <;> simp

@[simp] theorem bar2Write_bytes (s : State) (a : Nat) (b : Bytes) (poison : Bool) :
    (bar2Write s a b poison).mem.bytes = s.mem.bytes := by
  simp [bar2Write]

@[simp] theorem bar2Read_bytes (s : State) (bus a n : Nat) :
    (bar2Read s bus a n).mem.bytes = s.mem.bytes := by
  simp [bar2Read]

end Sys2Proof.Machine

end

section

/-! The helpers that change a start record and leave the fuse array and the flash as they were. -/

set_option maxRecDepth 4000
set_option exponentiation.threshold 2000

namespace Sys2Proof.Machine

@[simp] theorem ite_fuses (p : Prop) [Decidable p] (a b : BootSt) :
    (if p then a else b).fuses = if p then a.fuses else b.fuses := apply_ite ..

@[simp] theorem ite_slots (p : Prop) [Decidable p] (a b : BootSt) :
    (if p then a else b).slots = if p then a.slots else b.slots := apply_ite ..

@[simp] theorem ite_slotRecords (p : Prop) [Decidable p] (a b : BootSt) :
    (if p then a else b).slotRecords = if p then a.slotRecords else b.slotRecords := apply_ite ..

@[simp] theorem forEach_fuses {α : Type} (l : List α) (s : State) (f : State → α → State)
    (h : ∀ s x, (f s x).boot.fuses = s.boot.fuses) : (forEach l s f).boot.fuses = s.boot.fuses := by
  unfold forEach
  induction l generalizing s with
  | nil => simp
  | cons a l ih => simp [ih, h]

@[simp] theorem foldl_fuses {α : Type} (l : List α) (s : State) (f : State → α → State)
    (h : ∀ s x, (f s x).boot.fuses = s.boot.fuses) :
    (List.foldl f s l).boot.fuses = s.boot.fuses := forEach_fuses l s f h

@[simp] theorem forEach_flash {α : Type} (l : List α) (s : State) (f : State → α → State)
    (h : ∀ s x, (f s x).boot.slots = s.boot.slots ∧
    (f s x).boot.slotRecords = s.boot.slotRecords) : (forEach l s f).boot.slots = s.boot.slots ∧
    (forEach l s f).boot.slotRecords = s.boot.slotRecords := by
  unfold forEach
  induction l generalizing s with
  | nil => simp
  | cons a l ih => simp [ih, h]

@[simp] theorem foldl_flash {α : Type} (l : List α) (s : State) (f : State → α → State)
    (h : ∀ s x, (f s x).boot.slots = s.boot.slots ∧
    (f s x).boot.slotRecords = s.boot.slotRecords) : (List.foldl f s l).boot.slots = s.boot.slots ∧
    (List.foldl f s l).boot.slotRecords = s.boot.slotRecords := forEach_flash l s f h

@[simp] theorem runCmd_fuses (s : State) (c opcode : Nat) (body : State → Taken → State)
    (h : ∀ s t, (body s t).boot.fuses = s.boot.fuses) :
    (runCmd s c opcode body).boot.fuses = s.boot.fuses := by
  unfold runCmd
  (repeat' split) <;> simp [h]

@[simp] theorem runCmd_flash (s : State) (c opcode : Nat) (body : State → Taken → State)
    (h : ∀ s t, (body s t).boot.slots = s.boot.slots ∧ (body s t).boot.slotRecords = s.boot.slotRecords) :
    (runCmd s c opcode body).boot.slots = s.boot.slots ∧
    (runCmd s c opcode body).boot.slotRecords = s.boot.slotRecords := by
  unfold runCmd
  (repeat' split) <;> simp [h]

@[simp] theorem tlpPoison_stored (s : State) (bad : Bool) :
    (tlpPoison s bad).boot.fuses = s.boot.fuses ∧ (tlpPoison s bad).boot.slots = s.boot.slots ∧
    (tlpPoison s bad).boot.slotRecords = s.boot.slotRecords := by
  simp [tlpPoison]

@[simp] theorem logFetch_stored (s : State) (c : Nat) (addr : Nat) (f : Fetch) :
    (logFetch s c addr f).boot.fuses = s.boot.fuses ∧ (logFetch s c addr f).boot.slots = s.boot.slots ∧
    (logFetch s c addr f).boot.slotRecords = s.boot.slotRecords := by
  simp [logFetch]

@[simp] theorem takeHost_stored (s : State) (c : Nat) (inp : TakeInput) :
    (takeHost s c inp).boot.fuses = s.boot.fuses ∧ (takeHost s c inp).boot.slots = s.boot.slots ∧
    (takeHost s c inp).boot.slotRecords = s.boot.slotRecords := by
  unfold takeHost
  dsimp only
  (repeat' split) <;> simp

@[simp] theorem takeBoot_stored (s : State) (inp : TakeInput) :
    (takeBoot s inp).boot.fuses = s.boot.fuses ∧ (takeBoot s inp).boot.slots = s.boot.slots ∧
    (takeBoot s inp).boot.slotRecords = s.boot.slotRecords := by
  unfold takeBoot
  split <;> simp

@[simp] theorem putDefect_stored (s : State) (d : Defect) :
    (putDefect s d).boot.fuses = s.boot.fuses ∧ (putDefect s d).boot.slots = s.boot.slots ∧
    (putDefect s d).boot.slotRecords = s.boot.slotRecords := by
  simp [putDefect]

@[simp] theorem addDefect_stored (s : State) (d : Defect) :
    (addDefect s d).boot.fuses = s.boot.fuses ∧ (addDefect s d).boot.slots = s.boot.slots ∧
    (addDefect s d).boot.slotRecords = s.boot.slotRecords := by
  simp [addDefect]

@[simp] theorem dropDefects_stored (s : State) (p : Defect → Bool) :
    (dropDefects s p).boot.fuses = s.boot.fuses ∧ (dropDefects s p).boot.slots = s.boot.slots ∧
    (dropDefects s p).boot.slotRecords = s.boot.slotRecords := by
  simp [dropDefects]

@[simp] theorem disableCellarWay_stored (s : State) (c b w : Nat) :
    (disableCellarWay s c b w).boot.fuses = s.boot.fuses ∧ (disableCellarWay s c b w).boot.slots = s.boot.slots ∧
    (disableCellarWay s c b w).boot.slotRecords = s.boot.slotRecords := by
  simp [disableCellarWay]

@[simp] theorem disableCoreWay_stored (s : State) (k w : Nat) :
    (disableCoreWay s k w).boot.fuses = s.boot.fuses ∧ (disableCoreWay s k w).boot.slots = s.boot.slots ∧
    (disableCoreWay s k w).boot.slotRecords = s.boot.slotRecords := by
  simp [disableCoreWay]

@[simp] theorem settleCellarWays_stored (s : State) (c : Nat) :
    (settleCellarWays s c).boot.fuses = s.boot.fuses ∧ (settleCellarWays s c).boot.slots = s.boot.slots ∧
    (settleCellarWays s c).boot.slotRecords = s.boot.slotRecords := by
  simp [settleCellarWays]

@[simp] theorem settleCoreWays_stored (s : State) (k : Nat) :
    (settleCoreWays s k).boot.fuses = s.boot.fuses ∧ (settleCoreWays s k).boot.slots = s.boot.slots ∧
    (settleCoreWays s k).boot.slotRecords = s.boot.slotRecords := by
  simp [settleCoreWays]

@[simp] theorem reportRetired_stored (s : State) (page row p : Nat) :
    (reportRetired s page row p).boot.fuses = s.boot.fuses ∧ (reportRetired s page row p).boot.slots = s.boot.slots ∧
    (reportRetired s page row p).boot.slotRecords = s.boot.slotRecords := by
  simp [reportRetired]

@[simp] theorem retireShelfPage_stored (s : State) (page row : Nat) :
    (retireShelfPage s page row).boot.fuses = s.boot.fuses ∧ (retireShelfPage s page row).boot.slots = s.boot.slots ∧
    (retireShelfPage s page row).boot.slotRecords = s.boot.slotRecords := by
  simp [retireShelfPage]

@[simp] theorem retireRow_stored (s : State) (n row : Nat) (addr : Option Nat) :
    (retireRow s n row addr).boot.fuses = s.boot.fuses ∧ (retireRow s n row addr).boot.slots = s.boot.slots ∧
    (retireRow s n row addr).boot.slotRecords = s.boot.slotRecords := by
  simp [retireRow]

@[simp] theorem applySplit_stored (s : State) (c : Nat) :
    (applySplit s c).boot.fuses = s.boot.fuses ∧ (applySplit s c).boot.slots = s.boot.slots ∧
    (applySplit s c).boot.slotRecords = s.boot.slotRecords := by
  unfold applySplit
  split <;> simp

@[simp] theorem startCore_stored (s : State) (slot : Nat) (st : Step) (k : Nat) :
    (startCore s slot st k).boot.fuses = s.boot.fuses ∧ (startCore s slot st k).boot.slots = s.boot.slots ∧
    (startCore s slot st k).boot.slotRecords = s.boot.slotRecords := by
  unfold startCore
  split <;> simp

@[simp] theorem resumeCore_stored (s : State) (slot : Nat) (st : Step) (k i : Nat) :
    (resumeCore s slot st k i).boot.fuses = s.boot.fuses ∧ (resumeCore s slot st k i).boot.slots = s.boot.slots ∧
    (resumeCore s slot st k i).boot.slotRecords = s.boot.slotRecords := by
  unfold resumeCore
  split <;> simp

@[simp] theorem dispatchStep_stored (s : State) (slot : Nat) :
    (dispatchStep s slot).boot.fuses = s.boot.fuses ∧ (dispatchStep s slot).boot.slots = s.boot.slots ∧
    (dispatchStep s slot).boot.slotRecords = s.boot.slotRecords := by
  unfold dispatchStep
  split <;> simp

@[simp] theorem planDispatch_stored (s : State) :
    (planDispatch s).boot.fuses = s.boot.fuses ∧ (planDispatch s).boot.slots = s.boot.slots ∧
    (planDispatch s).boot.slotRecords = s.boot.slotRecords := by
  simp [planDispatch]

@[simp] theorem putMore_stored (s : State) (c : Nat) (j : MoverJob) (p id : Nat) (b : Bytes) (host : Fetch) :
    (putMore s c j p id b host).boot.fuses = s.boot.fuses ∧ (putMore s c j p id b host).boot.slots = s.boot.slots ∧
    (putMore s c j p id b host).boot.slotRecords = s.boot.slotRecords := by
  unfold putMore
  dsimp only
  (repeat' split) <;> simp

@[simp] theorem coreAbsent_stored (s : State) (k cause : Nat) :
    (coreAbsent s k cause).boot.fuses = s.boot.fuses ∧ (coreAbsent s k cause).boot.slots = s.boot.slots ∧
    (coreAbsent s k cause).boot.slotRecords = s.boot.slotRecords := by
  simp [coreAbsent]

@[simp] theorem cellarAbsent_stored (s : State) (c cause : Nat) :
    (cellarAbsent s c cause).boot.fuses = s.boot.fuses ∧ (cellarAbsent s c cause).boot.slots = s.boot.slots ∧
    (cellarAbsent s c cause).boot.slotRecords = s.boot.slotRecords := by
  simp [cellarAbsent]

@[simp] theorem coreRetested_stored (s : State) (k : Nat) (ok : Bool) :
    (coreRetested s k ok).boot.fuses = s.boot.fuses ∧ (coreRetested s k ok).boot.slots = s.boot.slots ∧
    (coreRetested s k ok).boot.slotRecords = s.boot.slotRecords := by
  simp [coreRetested]

@[simp] theorem cellarRetested_stored (s : State) (c : Nat) (ok : Bool) :
    (cellarRetested s c ok).boot.fuses = s.boot.fuses ∧ (cellarRetested s c ok).boot.slots = s.boot.slots ∧
    (cellarRetested s c ok).boot.slotRecords = s.boot.slotRecords := by
  simp [cellarRetested]

@[simp] theorem overflowAction_stored (s : State) (k : BucketKind) (unit sub : Nat) :
    (overflowAction s k unit sub).boot.fuses = s.boot.fuses ∧
    (overflowAction s k unit sub).boot.slots = s.boot.slots ∧
    (overflowAction s k unit sub).boot.slotRecords = s.boot.slotRecords := by
  unfold overflowAction
  split <;> simp

@[simp] theorem countCorrected_stored (s : State) (k : BucketKind) (unit sub : Nat) :
    (countCorrected s k unit sub).boot.fuses = s.boot.fuses ∧
    (countCorrected s k unit sub).boot.slots = s.boot.slots ∧
    (countCorrected s k unit sub).boot.slotRecords = s.boot.slotRecords := by
  simp [countCorrected]

@[simp] theorem hardRepair_stored (s : State) (n row : Nat) :
    (hardRepair s n row).boot.fuses = s.boot.fuses ∧ (hardRepair s n row).boot.slots = s.boot.slots ∧
    (hardRepair s n row).boot.slotRecords = s.boot.slotRecords := by
  unfold hardRepair
  split <;> simp

@[simp] theorem handleRow_stored (s : State) (n row : Nat) (addr : Option Nat) :
    (handleRow s n row addr).boot.fuses = s.boot.fuses ∧ (handleRow s n row addr).boot.slots = s.boot.slots ∧
    (handleRow s n row addr).boot.slotRecords = s.boot.slotRecords := by
  simp [handleRow]

@[simp] theorem rowFails_stored (s : State) (n row : Nat) (addr : Option Nat) :
    (rowFails s n row addr).boot.fuses = s.boot.fuses ∧ (rowFails s n row addr).boot.slots = s.boot.slots ∧
    (rowFails s n row addr).boot.slotRecords = s.boot.slotRecords := by
  simp [rowFails]

@[simp] theorem serveRows_stored (s : State) (n : Nat) :
    (serveRows s n).boot.fuses = s.boot.fuses ∧ (serveRows s n).boot.slots = s.boot.slots ∧
    (serveRows s n).boot.slotRecords = s.boot.slotRecords := by
  simp [serveRows]

@[simp] theorem rowCorrected_stored (s : State) (n row addr : Nat) :
    (rowCorrected s n row addr).boot.fuses = s.boot.fuses ∧ (rowCorrected s n row addr).boot.slots = s.boot.slots ∧
    (rowCorrected s n row addr).boot.slotRecords = s.boot.slotRecords := by
  simp [rowCorrected]

@[simp] theorem sectorLost_stored (s : State) (a : Nat) (code : Nat) :
    (sectorLost s a code).boot.fuses = s.boot.fuses ∧ (sectorLost s a code).boot.slots = s.boot.slots ∧
    (sectorLost s a code).boot.slotRecords = s.boot.slotRecords := by
  unfold sectorLost
  dsimp only
  (repeat' split) <;> simp

@[simp] theorem readSector_stored (s : State) (a : Nat) (e : Ecc) :
    (readSector s a e).boot.fuses = s.boot.fuses ∧ (readSector s a e).boot.slots = s.boot.slots ∧
    (readSector s a e).boot.slotRecords = s.boot.slotRecords := by
  unfold readSector
  dsimp only
  (repeat' split) <;> simp

@[simp] theorem flushChecked_stored (s : State) (home : Home) (e : WcbEntry) (lo hi : Ecc) :
    (flushChecked s home e lo hi).boot.fuses = s.boot.fuses ∧
    (flushChecked s home e lo hi).boot.slots = s.boot.slots ∧
    (flushChecked s home e lo hi).boot.slotRecords = s.boot.slotRecords := by
  simp [flushChecked]

@[simp] theorem finishFlushes_stored (s : State) (home : Home) :
    (finishFlushes s home).boot.fuses = s.boot.fuses ∧ (finishFlushes s home).boot.slots = s.boot.slots ∧
    (finishFlushes s home).boot.slotRecords = s.boot.slotRecords := by
  simp [finishFlushes]

@[simp] theorem repairCommand_fuses (s : State) (n : Nat) (f : State → State)
    (h : ∀ s, (f s).boot.fuses = s.boot.fuses) :
    (repairCommand s n f).boot.fuses = s.boot.fuses := by
  simp [h, repairCommand]

@[simp] theorem repairCommand_flash (s : State) (n : Nat) (f : State → State)
    (h : ∀ s, (f s).boot.slots = s.boot.slots ∧ (f s).boot.slotRecords = s.boot.slotRecords) :
    (repairCommand s n f).boot.slots = s.boot.slots ∧
    (repairCommand s n f).boot.slotRecords = s.boot.slotRecords := by
  simp [h, repairCommand]

@[simp] theorem cancelHard_stored (s : State) (n row : Nat) :
    (cancelHard s n row).boot.fuses = s.boot.fuses ∧ (cancelHard s n row).boot.slots = s.boot.slots ∧
    (cancelHard s n row).boot.slotRecords = s.boot.slotRecords := by
  unfold cancelHard
  split <;> simp

@[simp] theorem readSectors_stored (s : State) (t : Txn) (home : Home) (lo hi : Ecc) :
    (readSectors s t home lo hi).boot.fuses = s.boot.fuses ∧ (readSectors s t home lo hi).boot.slots = s.boot.slots ∧
    (readSectors s t home lo hi).boot.slotRecords = s.boot.slotRecords := by
  simp [readSectors]

@[simp] theorem homeAccess_stored (s : State) (home : Home) (n : Nat) (t : Txn) (lo hi : Ecc) :
    (homeAccess s home n t lo hi).boot.fuses = s.boot.fuses ∧
    (homeAccess s home n t lo hi).boot.slots = s.boot.slots ∧
    (homeAccess s home n t lo hi).boot.slotRecords = s.boot.slotRecords := by
  have hh : (homeSnoops s n t).1.boot = s.boot := by simp
  unfold homeAccess
  generalize homeSnoops s n t = x at hh
  obtain ⟨u, _ | _⟩ := x
  · have hd : (dirReady u t).1.boot = u.boot := by simp
    simp only
    generalize dirReady u t = y at hd
    obtain ⟨v, _ | _⟩ := y <;> simp_all
  · simp_all

@[simp] theorem shelfAccess_stored (s : State) (k n : Nat) (t : Txn) (lo hi : Ecc) :
    (shelfAccess s k n t lo hi).boot.fuses = s.boot.fuses ∧ (shelfAccess s k n t lo hi).boot.slots = s.boot.slots ∧
    (shelfAccess s k n t lo hi).boot.slotRecords = s.boot.slotRecords := by
  simp [shelfAccess]

@[simp] theorem farAccess_stored (s : State) (p d n : Nat) (t : Txn) (lo hi : Ecc) :
    (farAccess s p d n t lo hi).boot.fuses = s.boot.fuses ∧ (farAccess s p d n t lo hi).boot.slots = s.boot.slots ∧
    (farAccess s p d n t lo hi).boot.slotRecords = s.boot.slotRecords := by
  simp [farAccess]

@[simp] theorem hostRefused_stored (s : State) (write : Bool) (hpa : Nat) (firewall : Bool) :
    (hostRefused s write hpa firewall).boot.fuses = s.boot.fuses ∧
    (hostRefused s write hpa firewall).boot.slots = s.boot.slots ∧
    (hostRefused s write hpa firewall).boot.slotRecords = s.boot.slotRecords := by
  simp [hostRefused]

@[simp] theorem hostWritten_stored (s : State) (n : Nat) (t : Txn) :
    (hostWritten s n t).boot.fuses = s.boot.fuses ∧ (hostWritten s n t).boot.slots = s.boot.slots ∧
    (hostWritten s n t).boot.slotRecords = s.boot.slotRecords := by
  unfold hostWritten
  split <;> simp

@[simp] theorem hostLineRead_stored (s : State) (i n : Nat) (t : Txn) :
    (hostLineRead s i n t).boot.fuses = s.boot.fuses ∧ (hostLineRead s i n t).boot.slots = s.boot.slots ∧
    (hostLineRead s i n t).boot.slotRecords = s.boot.slotRecords := by
  unfold hostLineRead
  split <;> simp

@[simp] theorem returnTxn_stored (s : State) (n : Nat) (t : Txn) :
    (returnTxn s n t).boot.fuses = s.boot.fuses ∧ (returnTxn s n t).boot.slots = s.boot.slots ∧
    (returnTxn s n t).boot.slotRecords = s.boot.slotRecords := by
  unfold returnTxn
  (repeat' split) <;> simp

@[simp] theorem recordLanes_stored (s : State) (site : Nat) (found : List Nat) :
    (recordLanes s site found).boot.fuses = s.boot.fuses ∧ (recordLanes s site found).boot.slots = s.boot.slots ∧
    (recordLanes s site found).boot.slotRecords = s.boot.slotRecords := by
  simp [recordLanes]

@[simp] theorem applyLanes_stored (s : State) (site : Nat) (test : LaneTest) :
    (applyLanes s site test).boot.fuses = s.boot.fuses ∧ (applyLanes s site test).boot.slots = s.boot.slots ∧
    (applyLanes s site test).boot.slotRecords = s.boot.slotRecords := by
  simp [applyLanes]

@[simp] theorem beginBringUp_stored (s : State) (site : Nat) (retrain : Bool) :
    (beginBringUp s site retrain).boot.fuses = s.boot.fuses ∧
    (beginBringUp s site retrain).boot.slots = s.boot.slots ∧
    (beginBringUp s site retrain).boot.slotRecords = s.boot.slotRecords := by
  simp [beginBringUp]

@[simp] theorem leaveMask_stored (s : State) (site : Nat) :
    (leaveMask s site).boot.fuses = s.boot.fuses ∧ (leaveMask s site).boot.slots = s.boot.slots ∧
    (leaveMask s site).boot.slotRecords = s.boot.slotRecords := by
  simp [leaveMask]

@[simp] theorem dieReset_stored (s : State) (site : Nat) :
    (dieReset s site).boot.fuses = s.boot.fuses ∧ (dieReset s site).boot.slots = s.boot.slots ∧
    (dieReset s site).boot.slotRecords = s.boot.slotRecords := by
  simp [dieReset]

@[simp] theorem dieLost_stored (s : State) (site : Nat) :
    (dieLost s site).boot.fuses = s.boot.fuses ∧ (dieLost s site).boot.slots = s.boot.slots ∧
    (dieLost s site).boot.slotRecords = s.boot.slotRecords := by
  simp [dieLost]

@[simp] theorem retrain_stored (s : State) (site : Nat) :
    (retrain s site).boot.fuses = s.boot.fuses ∧ (retrain s site).boot.slots = s.boot.slots ∧
    (retrain s site).boot.slotRecords = s.boot.slotRecords := by
  simp [retrain]

@[simp] theorem portDown_stored (s : State) (site reason : Nat) :
    (portDown s site reason).boot.fuses = s.boot.fuses ∧ (portDown s site reason).boot.slots = s.boot.slots ∧
    (portDown s site reason).boot.slotRecords = s.boot.slotRecords := by
  simp [portDown]

@[simp] theorem failAttempt_stored (s : State) (site reason : Nat) :
    (failAttempt s site reason).boot.fuses = s.boot.fuses ∧ (failAttempt s site reason).boot.slots = s.boot.slots ∧
    (failAttempt s site reason).boot.slotRecords = s.boot.slotRecords := by
  simp [failAttempt]

@[simp] theorem dieAnswers_stored (s : State) (site : Nat) (c : DieCap) (test : LaneTest) :
    (dieAnswers s site c test).boot.fuses = s.boot.fuses ∧ (dieAnswers s site c test).boot.slots = s.boot.slots ∧
    (dieAnswers s site c test).boot.slotRecords = s.boot.slotRecords := by
  unfold dieAnswers
  dsimp only
  (repeat' split) <;> simp

@[simp] theorem takeAtp_fuses (s : State) (site op : Nat) (m : AtpMsg) (host : Fetch) (body : State → AtpMsg → State)
    (h : ∀ s m, (body s m).boot.fuses = s.boot.fuses) :
    (takeAtp s site op m host body).boot.fuses = s.boot.fuses := by
  simp [h, takeAtp]

@[simp] theorem takeAtp_flash (s : State) (site op : Nat) (m : AtpMsg) (host : Fetch) (body : State → AtpMsg → State)
    (h : ∀ s m, (body s m).boot.slots = s.boot.slots ∧ (body s m).boot.slotRecords = s.boot.slotRecords) :
    (takeAtp s site op m host body).boot.slots = s.boot.slots ∧
    (takeAtp s site op m host body).boot.slotRecords = s.boot.slotRecords := by
  simp [h, takeAtp]

@[simp] theorem dieTranslate_fuses (s : State) (site : Nat) (m : AtpMsg) (write : Bool) (body : State → Nat → State)
    (h : ∀ s n, (body s n).boot.fuses = s.boot.fuses) :
    (dieTranslate s site m write body).boot.fuses = s.boot.fuses := by
  unfold dieTranslate
  split
  · simp
  · have ht : (translate s m.pasid (siteOwner s site) m.address write (.attic site m.txn)).1.boot = s.boot := by simp
    generalize translate s m.pasid (siteOwner s site) m.address write (.attic site m.txn) = x at ht
    obtain ⟨u, _ | _ | _⟩ := x <;> simp_all

@[simp] theorem dieTranslate_flash (s : State) (site : Nat) (m : AtpMsg) (write : Bool) (body : State → Nat → State)
    (h : ∀ s n, (body s n).boot.slots = s.boot.slots ∧ (body s n).boot.slotRecords = s.boot.slotRecords) :
    (dieTranslate s site m write body).boot.slots = s.boot.slots ∧
    (dieTranslate s site m write body).boot.slotRecords = s.boot.slotRecords := by
  unfold dieTranslate
  split
  · simp
  · have ht : (translate s m.pasid (siteOwner s site) m.address write (.attic site m.txn)).1.boot = s.boot := by simp
    generalize translate s m.pasid (siteOwner s site) m.address write (.attic site m.txn) = x at ht
    obtain ⟨u, _ | _ | _⟩ := x <;> simp_all

@[simp] theorem plainRead_stored (s : State) (site : Nat) (m : AtpMsg) (host : Fetch) :
    (plainRead s site m host).boot.fuses = s.boot.fuses ∧ (plainRead s site m host).boot.slots = s.boot.slots ∧
    (plainRead s site m host).boot.slotRecords = s.boot.slotRecords := by
  unfold plainRead
  (repeat' split) <;> simp

@[simp] theorem serveHeld_stored (s : State) (site : Nat) (h : AtpMsg × Fetch) :
    (serveHeld s site h).boot.fuses = s.boot.fuses ∧ (serveHeld s site h).boot.slots = s.boot.slots ∧
    (serveHeld s site h).boot.slotRecords = s.boot.slotRecords := by
  unfold serveHeld
  dsimp only
  (repeat' split) <;> simp

@[simp] theorem drainHeld_stored (s : State) (site : Nat) :
    (drainHeld s site).boot.fuses = s.boot.fuses ∧ (drainHeld s site).boot.slots = s.boot.slots ∧
    (drainHeld s site).boot.slotRecords = s.boot.slotRecords := by
  simp [drainHeld]

@[simp] theorem resetUnits_stored (s : State) (p : Nat) :
    (resetUnits s p).boot.fuses = s.boot.fuses ∧ (resetUnits s p).boot.slots = s.boot.slots ∧
    (resetUnits s p).boot.slotRecords = s.boot.slotRecords := by
  simp [resetUnits]

@[simp] theorem resetContext_stored (s : State) (p : Nat) :
    (resetContext s p).boot.fuses = s.boot.fuses ∧ (resetContext s p).boot.slots = s.boot.slots ∧
    (resetContext s p).boot.slotRecords = s.boot.slotRecords := by
  simp [resetContext]

@[simp] theorem createPartition_stored (s : State) (p : Nat) (b : Bytes) :
    (createPartition s p b).boot.fuses = s.boot.fuses ∧ (createPartition s p b).boot.slots = s.boot.slots ∧
    (createPartition s p b).boot.slotRecords = s.boot.slotRecords := by
  simp [createPartition]

@[simp] theorem beginDestroy_stored (s : State) (p : Nat) :
    (beginDestroy s p).boot.fuses = s.boot.fuses ∧ (beginDestroy s p).boot.slots = s.boot.slots ∧
    (beginDestroy s p).boot.slotRecords = s.boot.slotRecords := by
  simp [beginDestroy]

@[simp] theorem endPhase_stored (s : State) (p : Nat) :
    (endPhase s p).boot.fuses = s.boot.fuses ∧ (endPhase s p).boot.slots = s.boot.slots ∧
    (endPhase s p).boot.slotRecords = s.boot.slotRecords := by
  unfold endPhase
  dsimp only
  (repeat' split) <;> simp

@[simp] theorem resendChunks_stored (s : State) (i k lacks n : Nat) (y : ImageCore) :
    (resendChunks s i k lacks n y).boot.fuses = s.boot.fuses ∧
    (resendChunks s i k lacks n y).boot.slots = s.boot.slots ∧
    (resendChunks s i k lacks n y).boot.slotRecords = s.boot.slotRecords := by
  simp [resendChunks]

@[simp] theorem writeRecord_fuses (s : State) (r : SlotRecord) :
    (writeRecord s r).boot.fuses = s.boot.fuses := by
  simp [writeRecord]

@[simp] theorem startFails_stored (s : State) (reason : Nat) :
    (startFails s reason).boot.fuses = s.boot.fuses ∧ (startFails s reason).boot.slots = s.boot.slots ∧
    (startFails s reason).boot.slotRecords = s.boot.slotRecords := by
  simp [startFails]

@[simp] theorem readBoard_stored (s : State) (inp : StartInput) :
    (readBoard s inp).boot.fuses = s.boot.fuses ∧ (readBoard s inp).boot.slots = s.boot.slots ∧
    (readBoard s inp).boot.slotRecords = s.boot.slotRecords := by
  simp [readBoard]

@[simp] theorem recordDefects_stored (s : State) (l : List Defect) :
    (recordDefects s l).boot.fuses = s.boot.fuses ∧ (recordDefects s l).boot.slots = s.boot.slots ∧
    (recordDefects s l).boot.slotRecords = s.boot.slotRecords := by
  simp [recordDefects]

@[simp] theorem numberCellars_stored (s : State) (t : TestInput) (order : List Nat) :
    (numberCellars s t order).boot.fuses = s.boot.fuses ∧ (numberCellars s t order).boot.slots = s.boot.slots ∧
    (numberCellars s t order).boot.slotRecords = s.boot.slotRecords := by
  simp [numberCellars]

@[simp] theorem numberQuads_stored (s : State) (t : TestInput) (order : List Nat) :
    (numberQuads s t order).boot.fuses = s.boot.fuses ∧ (numberQuads s t order).boot.slots = s.boot.slots ∧
    (numberQuads s t order).boot.slotRecords = s.boot.slotRecords := by
  simp [numberQuads]

@[simp] theorem startHardRow_stored (s : State) (t : TestInput) (n p : Nat) (d : Defect) :
    (startHardRow s t n p d).boot.fuses = s.boot.fuses ∧ (startHardRow s t n p d).boot.slots = s.boot.slots ∧
    (startHardRow s t n p d).boot.slotRecords = s.boot.slotRecords := by
  simp [startHardRow]

@[simp] theorem startShelves_stored (s : State) (t : TestInput) :
    (startShelves s t).boot.fuses = s.boot.fuses ∧ (startShelves s t).boot.slots = s.boot.slots ∧
    (startShelves s t).boot.slotRecords = s.boot.slotRecords := by
  simp [startShelves]

@[simp] theorem startSite_stored (s : State) (t : Nat) :
    (startSite s t).boot.fuses = s.boot.fuses ∧ (startSite s t).boot.slots = s.boot.slots ∧
    (startSite s t).boot.slotRecords = s.boot.slotRecords := by
  simp [startSite]

@[simp] theorem startReady_stored (s : State) :
    (startReady s).boot.fuses = s.boot.fuses ∧ (startReady s).boot.slots = s.boot.slots ∧
    (startReady s).boot.slotRecords = s.boot.slotRecords := by
  simp [startReady]

@[simp] theorem startUnits_stored (s : State) (inp : StartInput) :
    (startUnits s inp).boot.fuses = s.boot.fuses ∧ (startUnits s inp).boot.slots = s.boot.slots ∧
    (startUnits s inp).boot.slotRecords = s.boot.slotRecords := by
  simp [startUnits]

@[simp] theorem startRuns_stored (s : State) (inp : StartInput) (x : FwImage) (slot : Nat) (fallback : Bool) :
    (startRuns s inp x slot fallback).boot.fuses = s.boot.fuses ∧
    (startRuns s inp x slot fallback).boot.slots = s.boot.slots ∧
    (startRuns s inp x slot fallback).boot.slotRecords = s.boot.slotRecords := by
  simp [startRuns]

@[simp] theorem startFirmware_stored (s : State) (inp : StartInput) :
    (startFirmware s inp).boot.fuses = s.boot.fuses ∧ (startFirmware s inp).boot.slots = s.boot.slots ∧
    (startFirmware s inp).boot.slotRecords = s.boot.slotRecords := by
  unfold startFirmware
  dsimp only
  (repeat' split) <;> simp

@[simp] theorem setLimits_stored (s : State) :
    (setLimits s).boot.fuses = s.boot.fuses ∧ (setLimits s).boot.slots = s.boot.slots ∧
    (setLimits s).boot.slotRecords = s.boot.slotRecords := by
  simp [setLimits]

@[simp] theorem logIncomplete_flash (s : State) (c : LcChange) :
    (logIncomplete s c).boot.slots = s.boot.slots ∧ (logIncomplete s c).boot.slotRecords = s.boot.slotRecords := by
  simp [logIncomplete]

@[simp] theorem startFrom_stored (s : State) (inp : StartInput) :
    (startFrom s inp).boot.fuses = s.boot.fuses ∧ (startFrom s inp).boot.slots = s.boot.slots ∧
    (startFrom s inp).boot.slotRecords = s.boot.slotRecords := by
  simp [startFrom]

@[simp] theorem deviceCleared_flash (s : State) (linkStays : Bool) :
    (deviceCleared s linkStays).boot.slots = s.boot.slots ∧
    (deviceCleared s linkStays).boot.slotRecords = s.boot.slotRecords := by
  unfold deviceCleared
  split <;> simp

@[simp] theorem coldCleared_flash (s : State) :
    (coldCleared s).boot.slots = s.boot.slots ∧ (coldCleared s).boot.slotRecords = s.boot.slotRecords := by
  unfold coldCleared
  split <;> simp

@[simp] theorem coldStart_stored (s : State) (inp : StartInput) :
    (coldStart s inp).boot.fuses = s.boot.fuses ∧ (coldStart s inp).boot.slots = s.boot.slots ∧
    (coldStart s inp).boot.slotRecords = s.boot.slotRecords := by
  simp [coldStart]

@[simp] theorem beginStaging_fuses (s : State) (n : Nat) (x : FwImage) :
    (beginStaging s n x).boot.fuses = s.boot.fuses := by
  simp [beginStaging]

@[simp] theorem runSupplied_fuses (s : State) (x : FwImage) :
    (runSupplied s x).boot.fuses = s.boot.fuses := by
  unfold runSupplied
  split <;> simp

@[simp] theorem beginActivate_stored (s : State) (n : Nat) :
    (beginActivate s n).boot.fuses = s.boot.fuses ∧ (beginActivate s n).boot.slots = s.boot.slots ∧
    (beginActivate s n).boot.slotRecords = s.boot.slotRecords := by
  simp [beginActivate]

@[simp] theorem lcGo_flash (s : State) (sigOk : Bool) :
    (lcGo s sigOk).boot.slots = s.boot.slots ∧ (lcGo s sigOk).boot.slotRecords = s.boot.slotRecords := by
  unfold lcGo
  (repeat' split) <;> simp

@[simp] theorem lcRow_flash (s : State) (g : Nat) (sigOk : Bool) :
    (lcRow s g sigOk).boot.slots = s.boot.slots ∧ (lcRow s g sigOk).boot.slotRecords = s.boot.slotRecords := by
  simp [lcRow]

@[simp] theorem unitSleeps_stored (s : State) (d : Nat) (x : Domain) :
    (unitSleeps s d x).boot.fuses = s.boot.fuses ∧ (unitSleeps s d x).boot.slots = s.boot.slots ∧
    (unitSleeps s d x).boot.slotRecords = s.boot.slotRecords := by
  simp [unitSleeps]

@[simp] theorem unitWakes_stored (s : State) (d : Nat) (from_ : PowerState) (ok : Bool) :
    (unitWakes s d from_ ok).boot.fuses = s.boot.fuses ∧ (unitWakes s d from_ ok).boot.slots = s.boot.slots ∧
    (unitWakes s d from_ ok).boot.slotRecords = s.boot.slotRecords := by
  simp [unitWakes]

@[simp] theorem repairWrite_flash (s : State) (shelf value : Nat) :
    (repairWrite s shelf value).boot.slots = s.boot.slots ∧
    (repairWrite s shelf value).boot.slotRecords = s.boot.slotRecords := by
  simp [repairWrite]

@[simp] theorem mgmtWrite_flash (s : State) (o n value : Nat) :
    (mgmtWrite s o n value).boot.slots = s.boot.slots ∧
    (mgmtWrite s o n value).boot.slotRecords = s.boot.slotRecords := by
  unfold mgmtWrite
  (repeat' split) <;> simp

@[simp] theorem bar2Write_stored (s : State) (a : Nat) (b : Bytes) (poison : Bool) :
    (bar2Write s a b poison).boot.fuses = s.boot.fuses ∧ (bar2Write s a b poison).boot.slots = s.boot.slots ∧
    (bar2Write s a b poison).boot.slotRecords = s.boot.slotRecords := by
  simp [bar2Write]

@[simp] theorem coreLineFails_stored (s : State) (k key sectors : Nat) :
    (coreLineFails s k key sectors).boot.fuses = s.boot.fuses ∧
    (coreLineFails s k key sectors).boot.slots = s.boot.slots ∧
    (coreLineFails s k key sectors).boot.slotRecords = s.boot.slotRecords := by
  unfold coreLineFails
  split <;> simp

@[simp] theorem cellarLineFails_stored (s : State) (c key sectors : Nat) :
    (cellarLineFails s c key sectors).boot.fuses = s.boot.fuses ∧
    (cellarLineFails s c key sectors).boot.slots = s.boot.slots ∧
    (cellarLineFails s c key sectors).boot.slotRecords = s.boot.slotRecords := by
  unfold cellarLineFails
  split <;> simp

@[simp] theorem sramFails_stored (s : State) (u : SramUnit) :
    (sramFails s u).boot.fuses = s.boot.fuses ∧ (sramFails s u).boot.slots = s.boot.slots ∧
    (sramFails s u).boot.slotRecords = s.boot.slotRecords := by
  unfold sramFails
  dsimp only
  (repeat' split) <;> simp

@[simp] theorem sramCorrected_stored (s : State) (u : SramUnit) :
    (sramCorrected s u).boot.fuses = s.boot.fuses ∧ (sramCorrected s u).boot.slots = s.boot.slots ∧
    (sramCorrected s u).boot.slotRecords = s.boot.slotRecords := by
  unfold sramCorrected
  dsimp only
  (repeat' split) <;> simp

@[simp] theorem scrubFinds_stored (s : State) (at_ : ScrubAt) (ecc : Ecc) :
    (scrubFinds s at_ ecc).boot.fuses = s.boot.fuses ∧ (scrubFinds s at_ ecc).boot.slots = s.boot.slots ∧
    (scrubFinds s at_ ecc).boot.slotRecords = s.boot.slotRecords := by
  unfold scrubFinds
  (repeat' split) <;> simp

end Sys2Proof.Machine

end

section

/-! What the operations that take a body keep: a command of a mailbox, a descriptor of a mover, a message of a peer, an issue
of a group. What such an operation may touch itself lies in the list; the body keeps the rest. -/

set_option maxRecDepth 4000
set_option exponentiation.threshold 2000

namespace Sys2Proof.Machine

theorem runCmd_keeps {l : List Component} {s : State} {c op : Nat} {body : State → Taken → State}
    (hl : [.cp, .out] ⊆ l)
    (h : ∀ s t, keeps l s (body s t)) : keeps l s (runCmd s c op body) := by
  unfold runCmd
  split
  · exact keeps.refl ..
  · split
    · exact keeps.mono (by simp [keeps_iff]) hl
    · split
      · exact keeps.mono (by simp [keeps_iff]) hl
      · exact h _ _

theorem finishSync_keeps {l : List Component} {s : State} {c : Nat} {bad : Option Status} {eff : State → State}
    {result : State → Nat} (hl : [.cp, .out] ⊆ l) (h : ∀ s, keeps l s (eff s)) : keeps l s
    (finishSync s c bad eff result) := by
  unfold finishSync
  split
  · exact keeps.mono (by simp [keeps_iff]) hl
  · have hc : keeps l s (commit s).1 := keeps.mono (l := [.cp, .out]) (by simp [keeps_iff]) hl
    exact (hc.trans (h _)).trans (keeps.mono (by simp [keeps_iff]) hl)

theorem runJob_keeps {l : List Component} {s : State} {c id op : Nat} {body : State → MoverJob → Bytes → State}
    (hl : [.cells, .larder] ⊆ l) (h : ∀ s j b, keeps l s (body s j b)) : keeps l s (runJob s c id op body) := by
  unfold runJob
  split
  · exact keeps.refl ..
  · dsimp only
    split
    · exact keeps.refl ..
    · split
      · exact h _ _ _
      · split
        · exact keeps.refl ..
        · exact keeps.trans (keeps.mono (by simp [keeps_iff]) hl) (h _ _ _)


theorem receiveNew_keeps {l : List Component} {s : State} {e p : Nat} {k : Packet} {body : State → Nat → State × Bool}
    (hl : [.chord, .out] ⊆ l) (h : ∀ s p, fstKeeps l s (body s p)) : keeps l s (receiveNew s e p k body) := by
  unfold receiveNew
  have hb : keeps l s (body s p).1 := h s p
  generalize body s p = x at hb
  obtain ⟨u, _ | _⟩ := x
  · exact hb.trans (keeps.mono (by simp [keeps_iff]) hl)
  · exact hb.trans (keeps.mono (by simp [keeps_iff]) hl)

theorem receive_keeps {l : List Component} {s : State} {e : Nat} {k : Packet} {access : Bool}
    {body : State → Nat → State × Bool} (hl : [.cp, .err, .mgmt, .chord, .fresh, .out] ⊆ l)
    (h : ∀ s p, fstKeeps l s (body s p)) : keeps l s (receive s e k access body) := by
  unfold receive
  have ha : keeps l s (accepted s e k access).1 := keeps.mono (by simp [keeps_iff]) hl
  generalize accepted s e k access = x at ha
  obtain ⟨u, _ | p⟩ := x
  · exact ha.trans (keeps.mono (by simp [keeps_iff]) hl)
  · refine ha.trans ?_
    dsimp only
    unfold receivePsn
    split
    · exact keeps.mono (by simp [keeps_iff]) hl
    · split
      · exact keeps.mono (by simp [keeps_iff]) hl
      · exact receiveNew_keeps (List.Subset.trans (by simp) hl) h

/-- What an issue may touch besides its body: threads that go on may leave their region, and the fault ends the step. -/
def issueTouches : List Component := [.cp, .cells, .larder, .trans, .attic, .chord, .fresh, .out]

theorem advance_keeps (s : State) (i : Issue) (ts : List Nat) : keeps issueTouches s (advance s i ts) := by
  simp [keeps_iff, issueTouches]

theorem breakRegion_keeps (s : State) (k g : Nat) : keeps issueTouches s (breakRegion s k g) := by
  simp [keeps_iff, issueTouches]

theorem issue_keeps {l : List Component} {s : State} {i : Issue} {regs preds : List Nat} {also : Wait → Bool}
    {body : State → Group → List Nat → State} (hl : issueTouches ⊆ l) (h : ∀ s g act, keeps l s (body s g act)) :
    keeps l s (issue s i regs preds also body) := by
  unfold issue
  split
  · exact .refl ..
  · rename_i g _
    dsimp only
    split
    · exact .refl ..
    · generalize (subsetAt _ _ _ _ _ _ _) = all
      generalize (List.filter (guardOn g i) all) = act
      generalize (List.filter (fun t => !guardOn g i t) all) = off
      generalize ht : (if off.isEmpty = true then _ else advance _ i off) = t
      have hs : keeps l s t := .mono (by subst ht; simp [keeps_iff, issueTouches]) hl
      split
      · exact hs
      · split
        · exact hs
        · exact hs.trans (h _ _ _)

theorem released_keeps {l : List Component} {s : State} {i : Issue} {act : List Nat} {sc : Option Scope}
    {op : State → List Nat → State} (hl : [.cells, .mem, .bytes, .out] ⊆ l) (h : ∀ s act, keeps l s (op s act)) :
    keeps l s (released s i act sc op) := by
  unfold released
  split
  · exact h _ _
  · split
    · exact .trans (.mono (by simp [keeps_iff]) hl) (h _ _)
    · split
      · exact .trans (.mono (by simp [keeps_iff]) hl) (h _ _)
      · split <;> rename_i hb
        · exact .trans (keeps_of_eq hb (.mono (by simp [keeps_iff]) hl)) (h _ _)
        · exact .trans (keeps_of_eq hb (.mono (by simp [keeps_iff]) hl)) (.mono (by simp [keeps_iff]) hl)
      · split <;> rename_i hb
        · exact .trans (keeps_of_eq hb (.mono (by simp [keeps_iff]) hl)) (h _ _)
        · exact .trans (keeps_of_eq hb (.mono (by simp [keeps_iff]) hl)) (.mono (by simp [keeps_iff]) hl)
      · exact h _ _

theorem matrixOp_keeps {l : List Component} {s : State} {i : Issue} {regs : List Nat}
    {op : State → Group → Nat → State}
    (hl : issueTouches ⊆ l) (h : ∀ s g t, keeps l s (op s g t)) : keeps l s (matrixOp s i regs op) := by
  refine issue_keeps hl fun s g act => ?_
  split
  · exact .mono (breakRegion_keeps ..) hl
  · split
    · exact .mono (breakRegion_keeps ..) hl
    · dsimp only
      split
      · split
        · exact (h _ _ _).trans (.mono (advance_keeps ..) hl)
        · exact h _ _ _
      · have hw (w : Nat → Wait) : keeps l s (setWaits s i.core i.group act w) :=
          .mono (by simp [keeps_iff, issueTouches]) hl
        split
        · split
          · exact (hw _).trans (.mono (breakRegion_keeps ..) hl)
          · exact hw _
        · exact hw _

theorem pegIssue_keeps {l : List Component} {s : State} {i : Issue} {f : PegForm} {sa : Nat} {regs preds : List Nat}
    {body : State → List Nat → State} (hl : .reg :: issueTouches ⊆ l) (h : ∀ s act, keeps l s (body s act)) :
    keeps l s (pegIssue s i f sa regs preds body) := by
  refine issue_keeps (List.Subset.trans (by simp) hl) fun s g act => ?_
  dsimp only
  split
  · exact .trans (forEach_keeps _ _ fun s id => .mono (by simp [keeps_iff, issueTouches]) hl) (h _ _)
  · exact .refl ..

/-- Every atomic of a kernel. -/
theorem atomInstr_keeps (op : AtomOp) (i : Issue) (f : AtomForm) (dst sa sb sc : Nat) (s : State) :
    nextKeeps [.cp, .part, .cells, .mem, .bytes, .larder, .trans, .attic, .chord, .fresh, .out] s
      (atomInstr op i f dst sa sb sc s) := by
  unfold atomInstr
  refine .of_kernel (issue_keeps (by simp [issueTouches]) fun s g act => released_keeps (by simp) fun s act => ?_)
  split
  · exact .refl ..
  · dsimp only
    split <;> simp [keeps_iff]

/-- The components besides the fuse array and the flash. -/
def notStored : List Component :=
  [.time, .cp, .part, .err, .pwr, .mgmt, .boot, .cells, .mem, .bytes, .larder, .reg, .trans, .attic, .link, .chord,
      .fresh, .out]

theorem keeps_notStored_iff (s t : State) : keeps notStored s t ↔ t.pending = s.pending ∧
    t.boot.fuses = s.boot.fuses ∧
    t.boot.slots = s.boot.slots ∧ t.boot.slotRecords = s.boot.slotRecords := by
  simp [keeps_iff, notStored]

theorem copyFrom_keeps (fuel : Nat) (s : State) (c : Nat) (j : MoverJob) (pasid : Nat) (src dst : MoveAddr)
    (len off : Nat)
    (pz : Bool) (host : Fetch) : keeps notStored s (copyFrom fuel s c j pasid src dst len off pz host) := by
  induction fuel generalizing s off pz host with
  | zero => exact .refl ..
  | succ fuel ih =>
    unfold copyFrom
    dsimp only
    split
    · simp [keeps_notStored_iff]
    · have go (s : State) (b : Bytes) (bad : Nat → Bool) (d : Bool) (o : Nat) (rest : Fetch)
    (f : MoverJob → MoverJob) :
          keeps notStored s (match putBytes s c j pasid dst off b bad with
            | (s, true) => copyFrom fuel (modJob s c (jobId j) f) c j pasid src dst len o d rest
            | (s, false) => s) := by
        split <;> rename_i h
        · exact ((keeps_of_eq h (by simp [keeps_notStored_iff])).trans (by simp [keeps_notStored_iff])).trans (ih ..)
        · exact keeps_of_eq h (by simp [keeps_notStored_iff])
      split
      · exact .refl ..
      · exact go ..
      · split <;> rename_i h
        · exact (keeps_of_eq h (by simp [keeps_notStored_iff])).trans (by simp [keeps_notStored_iff])
        · refine (keeps_of_eq h (by simp [keeps_notStored_iff])).trans ?_
          split <;> simp [keeps_notStored_iff]
        · refine (keeps_of_eq h (by simp [keeps_notStored_iff])).trans ?_
          split
          · simp [keeps_notStored_iff]
          · exact .trans (by simp [keeps_notStored_iff]) (go ..)

theorem gatherRuns_keeps (fuel : Nat) (s : State) (c id : Nat) (b : Bytes) (g : GatherPlan) (host : Fetch) :
    keeps notStored s (gatherRuns fuel s c id b g host) := by
  induction fuel generalizing s host with
  | zero => exact .refl ..
  | succ fuel ih =>
    unfold gatherRuns
    split
    · rename_i j hn _
      obtain rfl := Nat.succ.inj hn
      dsimp only
      split
      · simp [keeps_notStored_iff]
      · split <;> rename_i h
        · exact keeps_of_eq h (by simp [keeps_notStored_iff])
        · refine (keeps_of_eq h (by simp [keeps_notStored_iff])).trans ?_
          split
          · simp [keeps_notStored_iff]
          · split <;> rename_i h
            · exact keeps_of_eq h (by cases g.src <;> simp [keeps_notStored_iff])
            · refine (keeps_of_eq h (by cases g.src <;> simp [keeps_notStored_iff])).trans ?_
              exact .trans (by simp [keeps_notStored_iff]) (ih ..)
    · exact .refl ..

theorem sparseIn_keeps (s : State) (c : Nat) (j : MoverJob) (b : Bytes) (src : MoveAddr) (n : Nat) (host : Fetch) :
    fstKeeps notStored s (sparseIn s c j b src n host) := by
  unfold sparseIn
  dsimp only
  split
  · simp [keeps_notStored_iff]
  · split
    · simp [keeps_notStored_iff]
    · split <;> rename_i h
      · exact (fstKeeps_mk ..).mpr (keeps_of_eq h (by simp [keeps_notStored_iff]))
      · exact (fstKeeps_mk ..).mpr (keeps_of_eq h (by simp [keeps_notStored_iff]))
  · split <;> rename_i h
    · exact (keeps_of_eq h (by simp [keeps_notStored_iff])).trans_fst (by simp [keeps_notStored_iff])
    · exact (keeps_of_eq h (by simp [keeps_notStored_iff])).trans_fst (by simp [keeps_notStored_iff])
    · refine (keeps_of_eq h (by simp [keeps_notStored_iff])).trans_fst ?_
      split <;> simp [keeps_notStored_iff]

@[simp] theorem copyFrom_stored (fuel : Nat) (s : State) (c : Nat) (j : MoverJob) (pasid : Nat) (src dst : MoveAddr)
    (len off : Nat) (pz : Bool) (host : Fetch) :
    (copyFrom fuel s c j pasid src dst len off pz host).boot.fuses = s.boot.fuses ∧
    (copyFrom fuel s c j pasid src dst len off pz host).boot.slots = s.boot.slots ∧
    (copyFrom fuel s c j pasid src dst len off pz host).boot.slotRecords = s.boot.slotRecords :=
  ((keeps_notStored_iff ..).mp (copyFrom_keeps ..)).2

@[simp] theorem gatherRuns_stored (fuel : Nat) (s : State) (c id : Nat) (b : Bytes) (g : GatherPlan) (host : Fetch) :
    (gatherRuns fuel s c id b g host).boot.fuses = s.boot.fuses ∧
    (gatherRuns fuel s c id b g host).boot.slots = s.boot.slots ∧
    (gatherRuns fuel s c id b g host).boot.slotRecords = s.boot.slotRecords :=
  ((keeps_notStored_iff ..).mp (gatherRuns_keeps ..)).2

@[simp] theorem sparseIn_stored (s : State) (c : Nat) (j : MoverJob) (b : Bytes) (src : MoveAddr) (n : Nat)
    (host : Fetch) :
    (sparseIn s c j b src n host).1.boot.fuses = s.boot.fuses ∧
    (sparseIn s c j b src n host).1.boot.slots = s.boot.slots ∧
    (sparseIn s c j b src n host).1.boot.slotRecords = s.boot.slotRecords :=
  ((keeps_notStored_iff ..).mp (sparseIn_keeps ..)).2

end Sys2Proof.Machine

end

section

/-! What the commands of a mailbox keep: partitions, steps, images, models, keys, translation, peers, links and time.
Each proof follows the branches of its command; a branch writes through helpers whose own frames are laws, and a branch
on a helper's answer keeps what the helper keeps (`keeps_of_eq`). -/

set_option maxRecDepth 4000
set_option exponentiation.threshold 2000

namespace Sys2Proof.Machine

theorem execDoorbellPost_keeps (m : Nat) (s : State) :
    nextKeeps [.cp, .pwr, .mem, .out] s (execDoorbellPost m s) := by
  simp [keeps_iff, execDoorbellPost]

theorem execDoorbellAbort_keeps (m : Nat) (s : State) :
    nextKeeps [.cp, .pwr, .mem, .out] s (execDoorbellAbort m s) := by
  simp [keeps_iff, execDoorbellAbort]

theorem execDoorbellRelease_keeps (m : Nat) (s : State) :
    nextKeeps [.cp, .pwr, .mem, .out] s (execDoorbellRelease m s) := by
  simp [keeps_iff, execDoorbellRelease]

theorem execDoorbellIgnoredAction_keeps (m action : Nat) (s : State) :
    nextKeeps [.cp, .pwr, .mem, .out] s (execDoorbellIgnoredAction m action s) := by
  simp [keeps_iff, execDoorbellIgnoredAction]

theorem execCpTakeMailbox_keeps (inp : TakeInput) (s : State) :
    nextKeeps [.cp, .part, .err, .mgmt, .boot, .out] s (execCpTakeMailbox inp s) := by
  unfold execCpTakeMailbox
  (repeat' split) <;> simp [keeps_iff]

theorem execHello_keeps (c : Nat) (s : State) :
    nextKeeps [.cp, .out] s (execHello c s) := by
  simp [keeps_iff, execHello]

theorem execEqCreate_keeps (c : Nat) (s : State) :
    nextKeeps [.cp, .out] s (execEqCreate c s) := by
  unfold execEqCreate
  refine .of_keeps (runCmd_keeps (by simp) fun s t => ?_)
  dsimp only
  (repeat' split) <;> simp [keeps_iff]

theorem execEqDestroy_keeps (c : Nat) (s : State) :
    nextKeeps [.cp, .out] s (execEqDestroy c s) := by
  simp [keeps_iff, execEqDestroy]

theorem execEqDestroyDrained_keeps (seq : Nat) (s : State) :
    nextKeeps [.cp, .mgmt, .out] s (execEqDestroyDrained seq s) := by
  unfold execEqDestroyDrained
  split <;> simp [keeps_iff]

theorem execEqConsumerWrite_keeps (q index : Nat) (arm : Bool) (s : State) :
    nextKeeps [.cp, .mem, .out] s (execEqConsumerWrite q index arm s) := by
  simp [keeps_iff, execEqConsumerWrite]

theorem execMsixTableWrite_keeps (v word value : Nat) (s : State) :
    nextKeeps [.cp, .mem, .out] s (execMsixTableWrite v word value s) := by
  simp [keeps_iff, execMsixTableWrite]

theorem execEqCoalesceTimer_keeps (q : Nat) (s : State) :
    nextKeeps [.cp, .out] s (execEqCoalesceTimer q s) := by
  simp [keeps_iff, execEqCoalesceTimer]

theorem execEqRecordWrite_keeps (q : Nat) (ok : Bool) (s : State) :
    nextKeeps [.cp, .out] s (execEqRecordWrite q ok s) := by
  unfold execEqRecordWrite
  dsimp only
  (repeat' split) <;> simp [keeps_iff]

theorem execPartitionCreate_keeps (c : Nat) (s : State) :
    nextKeeps [.cp, .part, .err, .mgmt, .boot, .cells, .mem, .bytes, .larder, .reg, .trans, .attic, .chord, .fresh,
    .out] s (execPartitionCreate c s) := by
  unfold execPartitionCreate
  refine .of_keeps (runCmd_keeps (by simp) fun s t => ?_)
  dsimp only
  (repeat' split) <;> simp [keeps_iff]

theorem execPartitionTransitionDone_keeps (p : Nat) (s : State) :
    nextKeeps [.cp, .part, .err, .mgmt, .boot, .cells, .mem, .bytes, .larder, .reg, .trans, .attic, .chord, .fresh,
    .out] s (execPartitionTransitionDone p s) := by
  unfold execPartitionTransitionDone
  dsimp only
  split
  · simp
  · split
    · simp
    · split <;> simp [keeps_iff]
    · split <;> rename_i h
      · exact .of_keeps (keeps_of_eq h (by simp [keeps_iff]))
      · exact .of_keeps ((keeps_of_eq h (by simp [keeps_iff])).trans (by simp [keeps_iff]))

theorem execPartitionDestroy_keeps (c : Nat) (s : State) :
    nextKeeps [.cp, .part, .err, .mgmt, .boot, .cells, .mem, .bytes, .larder, .reg, .trans, .attic, .chord, .fresh,
    .out] s (execPartitionDestroy c s) := by
  simp [keeps_iff, execPartitionDestroy]

theorem execPartitionDestroyDone_keeps (p : Nat) (s : State) :
    nextKeeps [.cp, .part, .err, .mgmt, .cells, .mem, .bytes, .larder, .reg, .trans, .attic, .chord, .fresh, .out] s
    (execPartitionDestroyDone p s) := by
  unfold execPartitionDestroyDone
  dsimp only
  split
  · simp
  · split
    · simp
    · split <;> rename_i h
      · exact .of_keeps (keeps_of_eq h (by simp [keeps_iff]))
      · exact .of_keeps ((keeps_of_eq h (by simp [keeps_iff])).trans (by simp [keeps_iff]))

theorem execPartitionReset_keeps (c : Nat) (s : State) :
    nextKeeps [.cp, .part, .err, .mgmt, .boot, .cells, .mem, .bytes, .larder, .reg, .trans, .attic, .chord, .fresh,
    .out] s (execPartitionReset c s) := by
  unfold execPartitionReset
  refine .of_keeps (runCmd_keeps (by simp) fun s t => ?_)
  dsimp only
  (repeat' split) <;> simp [keeps_iff]

theorem execPartitionQuery_keeps (c : Nat) (wb : WriteBack) (s : State) :
    nextKeeps [.cp, .out] s (execPartitionQuery c wb s) := by
  unfold execPartitionQuery
  refine .of_keeps (runCmd_keeps (by simp) fun s t => ?_)
  dsimp only
  (repeat' split) <;> simp [keeps_iff]

theorem execPartitionPolicySet_keeps (c : Nat) (s : State) :
    nextKeeps [.cp, .part, .out] s (execPartitionPolicySet c s) := by
  simp [keeps_iff, execPartitionPolicySet]

theorem execSeqClose_keeps (c : Nat) (s : State) :
    nextKeeps [.cp, .err, .mgmt, .cells, .mem, .bytes, .larder, .reg, .trans, .attic, .chord, .fresh, .out] s
    (execSeqClose c s) := by
  unfold execSeqClose
  refine .of_keeps (runCmd_keeps (by simp) fun s t => ?_)
  dsimp only
  (repeat' split) <;> simp [keeps_iff]

theorem execStepSubmit_keeps (c : Nat) (s : State) :
    nextKeeps [.cp, .err, .mgmt, .cells, .mem, .bytes, .larder, .reg, .trans, .attic, .chord, .fresh, .out] s
    (execStepSubmit c s) := by
  unfold execStepSubmit
  refine .of_keeps (runCmd_keeps (by simp) fun s t => ?_)
  dsimp only
  (repeat' split) <;> simp [keeps_iff]

theorem execStepComplete_keeps (slot : Nat) (s : State) :
    nextKeeps [.cp, .err, .mgmt, .cells, .mem, .bytes, .larder, .reg, .trans, .attic, .chord, .fresh, .out] s
    (execStepComplete slot s) := by
  unfold execStepComplete
  split
  · simp
  · split
    · simp
    · split <;> rename_i h1
      · exact .of_keeps (keeps_of_eq h1 (by simp [keeps_iff]))
      · refine .trans_next (keeps_of_eq h1 (by simp [keeps_iff])) ?_
        split <;> rename_i h2
        · exact .of_keeps (keeps_of_eq h2 (by simp [keeps_iff]))
        · exact .of_keeps ((keeps_of_eq h2 (by simp [keeps_iff])).trans (by simp [keeps_iff]))

theorem execImageLoad_keeps (c : Nat) (inp : ImageInput) (s : State) :
    nextKeeps [.cp, .part, .mgmt, .out] s (execImageLoad c inp s) := by
  unfold execImageLoad
  refine .of_keeps (runCmd_keeps (by simp) fun s t => ?_)
  dsimp only
  (repeat' split) <;> simp [keeps_iff]

theorem execImageChunkBitmap_keeps (image core bitmap : Nat) (s : State) :
    nextKeeps [.cp, .part, .err, .mgmt, .boot, .cells, .mem, .bytes, .larder, .trans, .attic, .chord, .out] s
    (execImageChunkBitmap image core bitmap s) := by
  unfold execImageChunkBitmap
  split <;> simp [keeps_iff]

theorem execCoreDigestCheckDone_keeps (image core : Nat) (ok : Bool) (s : State) :
    nextKeeps [.cp, .part, .err, .mgmt, .boot, .cells, .mem, .bytes, .larder, .trans, .attic, .chord, .out] s
    (execCoreDigestCheckDone image core ok s) := by
  unfold execCoreDigestCheckDone
  split <;> simp [keeps_iff]

theorem execModelBind_keeps (c : Nat) (s : State) :
    nextKeeps [.cp, .part, .out] s (execModelBind c s) := by
  unfold execModelBind
  refine .of_keeps (runCmd_keeps (by simp) fun s t => ?_)
  dsimp only
  (repeat' split) <;> simp [keeps_iff]

theorem execModelBindSeDone_keeps (seq : Nat) (r : SeOutcome) (s : State) :
    nextKeeps [.cp, .part, .mgmt, .cells, .mem, .bytes, .reg, .attic, .out] s (execModelBindSeDone seq r s) := by
  unfold execModelBindSeDone
  split
  · simp
  · split
    · simp
    · split
      · simp
      · split
        · simp [keeps_iff]
        · simp [keeps_iff]
        · simp [keeps_iff]
        · split
          · split <;> rename_i h
            · exact .of_keeps (keeps_of_eq h (by simp [keeps_iff]))
            · exact .of_keeps ((keeps_of_eq h (by simp [keeps_iff])).trans (by simp [keeps_iff]))
          · simp
        · split
          · simp
          · split <;> rename_i h
            · exact .of_keeps (keeps_of_eq h (by simp [keeps_iff]))
            · exact .of_keeps ((keeps_of_eq h (by simp [keeps_iff])).trans (by simp [keeps_iff]))

theorem execModelUnbind_keeps (c : Nat) (s : State) :
    nextKeeps [.cp, .part, .out] s (execModelUnbind c s) := by
  simp [keeps_iff, execModelUnbind]

theorem execModelUnbindDone_keeps (model : Nat) (s : State) :
    nextKeeps [.cp, .part, .mgmt, .mem, .bytes, .attic, .out] s (execModelUnbindDone model s) := by
  unfold execModelUnbindDone
  split
  · simp
  · split
    · simp
    · split <;> rename_i h
      · exact .of_keeps (keeps_of_eq h (by simp [keeps_iff]))
      · exact .of_keeps ((keeps_of_eq h (by simp [keeps_iff])).trans (by simp [keeps_iff]))

theorem execSeqOpen_keeps (c : Nat) (s : State) :
    nextKeeps [.cp, .larder, .out] s (execSeqOpen c s) := by
  unfold execSeqOpen
  refine .of_keeps (runCmd_keeps (by simp) fun s t => ?_)
  refine finishSync_keeps (by simp) fun s => ?_
  split <;> simp [keeps_iff]

theorem execSeqCloseComplete_keeps (entry : Nat) (s : State) :
    nextKeeps [.cp, .err, .mgmt, .cells, .mem, .bytes, .larder, .out] s (execSeqCloseComplete entry s) := by
  unfold execSeqCloseComplete
  split <;> simp [keeps_iff]

theorem execPageMoveLand_keeps (src : Nat) (s : State) :
    nextKeeps [.err, .cells, .mem, .bytes, .larder, .out] s (execPageMoveLand src s) := by
  unfold execPageMoveLand
  split
  · dsimp only
    split
    · split <;> simp [keeps_iff]
    · split
      · simp
      · split <;> rename_i h
        · exact .of_keeps (keeps_of_eq h (by simp [keeps_iff]))
        · refine .trans_next (keeps_of_eq h (by simp [keeps_iff])) ?_
          split <;> simp [keeps_iff]
  · simp

theorem zeroedPage_keeps (s : State) (page : Nat) : keeps [.cells, .mem, .bytes, .larder, .out] s
    (zeroedPage s page) := by
  simp [keeps_iff]

theorem execPageZeroingDone_keeps (page : Nat) (s : State) :
    nextKeeps [.cells, .mem, .bytes, .larder, .out] s (execPageZeroingDone page s) := by
  unfold execPageZeroingDone
  split
  · simp
  · split
    · simp
    · dsimp only
      split
      · split <;> simp [keeps_iff]
      · split
        · simp
        · have hz (z : Bytes) : keeps [.cells, .mem, .bytes, .larder, .out] s
              (jobWrite (addPager s page 1025) pagerUnit { step := page, part := 1025 } (page * 65536) z
              (fun _ => false)) := by
            simp [keeps_iff]
          split
          · exact .of_keeps (hz _)
          · exact .of_keeps ((hz _).trans (zeroedPage_keeps ..))

theorem execMapHost_keeps (c : Nat) (s : State) :
    nextKeeps [.cp, .trans, .out] s (execMapHost c s) := by
  simp [keeps_iff, execMapHost]

theorem execUnmapHost_keeps (c : Nat) (s : State) :
    nextKeeps [.cp, .err, .mgmt, .trans, .out] s (execUnmapHost c s) := by
  unfold execUnmapHost
  refine .of_keeps (runCmd_keeps (by simp) fun s t => ?_)
  dsimp only
  (repeat' split) <;> simp [keeps_iff]

theorem execUnmapHostDrained_keeps (seq : Nat) (s : State) :
    nextKeeps [.cp, .mgmt, .trans, .out] s (execUnmapHostDrained seq s) := by
  unfold execUnmapHostDrained
  split <;> simp [keeps_iff]

theorem execFaultRespond_keeps (c : Nat) (s : State) :
    nextKeeps [.cp, .err, .mgmt, .trans, .out] s (execFaultRespond c s) := by
  unfold execFaultRespond
  refine .of_keeps (runCmd_keeps (by simp) fun s t => ?_)
  dsimp only
  (repeat' split) <;> simp [keeps_iff]

theorem execWalkEntryRead_keeps (walk : Nat) (r : EntryRead) (s : State) :
    nextKeeps [.cp, .err, .mgmt, .trans, .out] s (execWalkEntryRead walk r s) := by
  unfold execWalkEntryRead
  (repeat' split) <;> simp [keeps_iff]

theorem execAdUpdateCasReturn_keeps (walk : Nat) (ok : Bool) (s : State) :
    nextKeeps [.cp, .err, .mgmt, .trans, .out] s (execAdUpdateCasReturn walk ok s) := by
  unfold execAdUpdateCasReturn
  (repeat' split) <;> simp [keeps_iff]

theorem execFaultTimeout_keeps (entry : Nat) (s : State) :
    nextKeeps [.cp, .err, .mgmt, .trans, .out] s (execFaultTimeout entry s) := by
  unfold execFaultTimeout
  split <;> simp [keeps_iff]

theorem execUnmapFlushReadDone_keeps (use : Nat) (s : State) :
    nextKeeps [.trans] s (execUnmapFlushReadDone use s) := by
  unfold execUnmapFlushReadDone
  split <;> simp [keeps_iff]

theorem execPeerWindowSet_keeps (c : Nat) (s : State) :
    nextKeeps [.cp, .part, .chord, .out] s (execPeerWindowSet c s) := by
  simp [keeps_iff, execPeerWindowSet]

theorem execPeerWindowClear_keeps (c : Nat) (s : State) :
    nextKeeps [.cp, .part, .chord, .out] s (execPeerWindowClear c s) := by
  unfold execPeerWindowClear
  refine .of_keeps (runCmd_keeps (by simp) fun s t => ?_)
  dsimp only
  (repeat' split) <;> simp [keeps_iff]

theorem execPeerWindowClearDrained_keeps (seq : Nat) (s : State) :
    nextKeeps [.cp, .mgmt, .chord, .out] s (execPeerWindowClearDrained seq s) := by
  unfold execPeerWindowClearDrained
  split <;> simp [keeps_iff]

theorem execPeerAdmitSet_keeps (c : Nat) (s : State) :
    nextKeeps [.cp, .chord, .out] s (execPeerAdmitSet c s) := by
  simp [keeps_iff, execPeerAdmitSet]

theorem execLinkQuery_keeps (c : Nat) (s : State) :
    nextKeeps [.cp, .out] s (execLinkQuery c s) := by
  unfold execLinkQuery
  refine .of_keeps (runCmd_keeps (by simp) fun s t => ?_)
  dsimp only
  (repeat' split) <;> simp [keeps_iff]

theorem execLinkRetrain_keeps (c : Nat) (s : State) :
    nextKeeps [.time, .cp, .mgmt, .link, .chord, .out] s (execLinkRetrain c s) := by
  simp [keeps_iff, execLinkRetrain]

theorem execLinkModeSet_keeps (c : Nat) (s : State) :
    nextKeeps [.time, .cp, .mgmt, .link, .chord, .out] s (execLinkModeSet c s) := by
  simp [keeps_iff, execLinkModeSet]

theorem judgeLane_keeps (s : State) (e : Nat) (m : Marker) :
    keeps [.time, .cp, .mgmt, .link, .chord, .fresh, .out] s (judgeLane s e m) := by
  unfold judgeLane
  (repeat' split) <;> simp [keeps_iff]

theorem acceptMarker_keeps (s : State) (e : Nat) (m : Marker) :
    keeps [.time, .cp, .mgmt, .link, .chord, .fresh, .out] s (acceptMarker s e m) := by
  simp [keeps_iff]

theorem execMarkerReceived_keeps (engine : Nat) (m : Marker) (s : State) :
    nextKeeps [.time, .cp, .mgmt, .link, .chord, .fresh, .out] s (execMarkerReceived engine m s) := by
  unfold execMarkerReceived takeMarker
  split
  · simp
  · dsimp only
    generalize (!(lineMarker m).good || (lineMarker m).rate != _) = lost
    have hm (f : Lane → Lane) : keeps [.time, .cp, .mgmt, .link, .chord, .fresh, .out] s
        (modLane s engine (lineMarker m).lane f) := by
      simp [keeps_iff]
    split
    · exact .of_keeps ((hm _).trans (judgeLane_keeps ..))
    · split
      · exact .of_keeps (((hm _).trans (acceptMarker_keeps ..)).trans (judgeLane_keeps ..))
      · exact .of_keeps ((hm _).trans (acceptMarker_keeps ..))

theorem execLaneLoss_keeps (engine lane reason : Nat) (s : State) :
    nextKeeps [.time, .cp, .mgmt, .link, .chord, .out] s (execLaneLoss engine lane reason s) := by
  simp [keeps_iff, execLaneLoss]

theorem execTrainingTimeout_keeps (engine : Nat) (s : State) :
    nextKeeps [.time, .cp, .mgmt, .link, .chord, .out] s (execTrainingTimeout engine s) := by
  simp [keeps_iff, execTrainingTimeout]

theorem execEthPortLaneLoss_keeps (engine lane : Nat) (s : State) :
    nextKeeps [.time, .cp, .mgmt, .link, .chord, .out] s (execEthPortLaneLoss engine lane s) := by
  simp [keeps_iff, execEthPortLaneLoss]

theorem execPtpMessage_keeps (engine : Nat) (m : PtpIn) (domain : Nat) (s : State) :
    nextKeeps [.time, .cp, .mgmt, .fresh, .out] s (execPtpMessage engine m domain s) := by
  simp [keeps_iff, execPtpMessage]

theorem execCdrLocked_keeps (engine lane : Nat) (s : State) :
    nextKeeps [.cp, .mgmt, .link, .chord, .out] s (execCdrLocked engine lane s) := by
  simp [keeps_iff, execCdrLocked]

theorem execQosSet_keeps (c : Nat) (s : State) :
    nextKeeps [.cp, .reg, .out] s (execQosSet c s) := by
  unfold execQosSet
  refine .of_keeps (runCmd_keeps (by simp) fun s t => ?_)
  dsimp only
  (repeat' split) <;> simp [keeps_iff]

theorem execTimeQuery_keeps (c : Nat) (s : State) :
    nextKeeps [.cp, .out] s (execTimeQuery c s) := by
  simp [keeps_iff, execTimeQuery]

theorem execTimePeriodSet_keeps (c : Nat) (s : State) :
    nextKeeps [.time, .cp, .out] s (execTimePeriodSet c s) := by
  simp [keeps_iff, execTimePeriodSet]

theorem execTimeRoleSet_keeps (c : Nat) (s : State) :
    nextKeeps [.time, .cp, .out] s (execTimeRoleSet c s) := by
  simp [keeps_iff, execTimeRoleSet]

theorem execTimeBackgroundSet_keeps (c : Nat) (s : State) :
    nextKeeps [.time, .cp, .out] s (execTimeBackgroundSet c s) := by
  simp [keeps_iff, execTimeBackgroundSet]

theorem execTimeWordTimeout_keeps (e : Nat) (s : State) :
    nextKeeps [.time, .cp, .mgmt, .out] s (execTimeWordTimeout e s) := by
  simp [keeps_iff, execTimeWordTimeout]

theorem execHoldoverTimeout_keeps (s : State) :
    nextKeeps [.time, .cp, .mgmt, .out] s (execHoldoverTimeout s) := by
  simp [keeps_iff, execHoldoverTimeout]

end Sys2Proof.Machine

end

section

/-! What the commands of power, the security engine, firmware, the register path, the management port and the start keep. -/

set_option maxRecDepth 4000
set_option exponentiation.threshold 2000

namespace Sys2Proof.Machine

theorem execPowerQuery_keeps (c : Nat) (s : State) :
    nextKeeps [.cp, .out] s (execPowerQuery c s) := by
  simp [keeps_iff, execPowerQuery]

theorem execPowerCapSet_keeps (c : Nat) (s : State) :
    nextKeeps [.cp, .pwr, .out] s (execPowerCapSet c s) := by
  simp [keeps_iff, execPowerCapSet]

theorem execPowerDomainSet_keeps (c : Nat) (s : State) :
    nextKeeps [.cp, .pwr, .mgmt, .cells, .mem, .bytes, .larder, .link, .out] s (execPowerDomainSet c s) := by
  unfold execPowerDomainSet
  refine .of_keeps (runCmd_keeps (by simp) fun s t => ?_)
  dsimp only
  (repeat' split) <;> simp [keeps_iff]

theorem execPowerDomainEntryDone_keeps (d : Nat) (s : State) :
    nextKeeps [.time, .cp, .part, .err, .pwr, .mgmt, .boot, .cells, .mem, .bytes, .larder, .trans, .attic, .link,
    .chord, .fresh, .out] s (execPowerDomainEntryDone d s) := by
  unfold execPowerDomainEntryDone
  dsimp only
  split
  · simp
  · split <;> rename_i h
    · exact .of_keeps (keeps_of_eq h (by simp [keeps_iff]))
    · refine .of_keeps ((keeps_of_eq h (by simp [keeps_iff])).trans ?_)
      split <;> simp [keeps_iff]

theorem execPowerDomainOn_keeps (d : Nat) (ok : Bool) (s : State) :
    nextKeeps [.cp, .part, .err, .pwr, .mgmt, .boot, .cells, .mem, .bytes, .larder, .attic, .link, .out] s
    (execPowerDomainOn d ok s) := by
  simp [keeps_iff, execPowerDomainOn]

theorem execShelfZeroingDone_keeps (shelf : Nat) (s : State) :
    nextKeeps [.mem] s (execShelfZeroingDone shelf s) := by
  simp [keeps_iff, execShelfZeroingDone]

theorem execCpIdleTimeout_keeps (s : State) :
    nextKeeps [.pwr] s (execCpIdleTimeout s) := by
  simp [keeps_iff, execCpIdleTimeout]

theorem execSmbusAddressMatch_keeps (s : State) :
    nextKeeps [.pwr] s (execSmbusAddressMatch s) := by
  simp [keeps_iff, execSmbusAddressMatch]

theorem execI3cAddressMatch_keeps (s : State) :
    nextKeeps [.pwr, .out] s (execI3cAddressMatch s) := by
  simp [keeps_iff, execI3cAddressMatch]

theorem execComparatorAssert_keeps (k value : Nat) (s : State) :
    nextKeeps [.cp, .pwr, .mgmt, .out] s (execComparatorAssert k value s) := by
  simp [keeps_iff, execComparatorAssert]

theorem execComparatorDeassert_keeps (k value : Nat) (s : State) :
    nextKeeps [.pwr] s (execComparatorDeassert k value s) := by
  simp [keeps_iff, execComparatorDeassert]

theorem execAttest_keeps (c : Nat) (ok : Bool) (wb : WriteBack) (s : State) :
    nextKeeps [.cp, .part, .mgmt, .fresh, .out] s (execAttest c ok wb s) := by
  simp [keeps_iff, execAttest]

theorem execGetVersion_keeps (m : SpdmIn) (s : State) :
    nextKeeps [.part, .out] s (execGetVersion m s) := by
  unfold execGetVersion
  refine nextKeeps_spdmRow fun s => ?_
  simp [keeps_iff]

theorem execGetCapabilities_keeps (m : SpdmIn) (s : State) :
    nextKeeps [.part, .out] s (execGetCapabilities m s) := by
  unfold execGetCapabilities
  refine nextKeeps_spdmRow fun s => ?_
  simp [keeps_iff]

theorem execNegotiateAlgorithms_keeps (m : SpdmIn) (s : State) :
    nextKeeps [.part, .out] s (execNegotiateAlgorithms m s) := by
  unfold execNegotiateAlgorithms
  refine nextKeeps_spdmRow fun s => ?_
  simp [keeps_iff]

theorem execGetDigests_keeps (m : SpdmIn) (s : State) :
    nextKeeps [.part, .out] s (execGetDigests m s) := by
  unfold execGetDigests
  refine nextKeeps_spdmRow fun s => ?_
  simp [keeps_iff]

theorem execGetCertificate_keeps (m : SpdmIn) (s : State) :
    nextKeeps [.part, .out] s (execGetCertificate m s) := by
  unfold execGetCertificate
  refine nextKeeps_spdmRow fun s => ?_
  simp [keeps_iff]

theorem execChallenge_keeps (m : SpdmIn) (s : State) :
    nextKeeps [.part, .out] s (execChallenge m s) := by
  unfold execChallenge
  refine nextKeeps_spdmRow fun s => ?_
  simp [keeps_iff]

theorem execGetMeasurements_keeps (m : SpdmIn) (s : State) :
    nextKeeps [.part, .out] s (execGetMeasurements m s) := by
  unfold execGetMeasurements
  refine nextKeeps_spdmRow fun s => ?_
  simp [keeps_iff]

theorem execKeyExchange_keeps (m : SpdmIn) (s : State) :
    nextKeeps [.part, .fresh, .out] s (execKeyExchange m s) := by
  unfold execKeyExchange
  refine nextKeeps_spdmRow fun s => ?_
  simp [keeps_iff]

theorem execFinish_keeps (m : SpdmIn) (s : State) :
    nextKeeps [.part, .mgmt, .out] s (execFinish m s) := by
  unfold execFinish
  refine nextKeeps_spdmRow fun s => ?_
  simp [keeps_iff]

theorem execSpdmKeyUpdate_keeps (m : SpdmIn) (s : State) :
    nextKeeps [.part, .fresh, .out] s (execSpdmKeyUpdate m s) := by
  unfold execSpdmKeyUpdate
  refine nextKeeps_spdmRow fun s => ?_
  simp [keeps_iff]

theorem execSpdmHeartbeat_keeps (m : SpdmIn) (s : State) :
    nextKeeps [.out] s (execSpdmHeartbeat m s) := by
  unfold execSpdmHeartbeat
  refine nextKeeps_spdmRow fun s => ?_
  simp [keeps_iff]

theorem execEndSession_keeps (m : SpdmIn) (s : State) :
    nextKeeps [.cp, .part, .mgmt, .out] s (execEndSession m s) := by
  unfold execEndSession
  refine nextKeeps_spdmRow fun s => ?_
  simp [keeps_iff]

theorem execFwStage_keeps (c : Nat) (image : FwImage) (s : State) :
    nextKeeps [.cp, .part, .err, .pwr, .mgmt, .boot, .flash, .cells, .mem, .larder, .attic, .link, .chord, .fresh,
    .out] s (execFwStage c image s) := by
  unfold execFwStage
  refine .of_keeps (runCmd_keeps (by simp) fun s t => ?_)
  dsimp only
  (repeat' split) <;> simp [keeps_iff]

theorem execFwActivate_keeps (c : Nat) (s : State) :
    nextKeeps [.cp, .boot, .out] s (execFwActivate c s) := by
  unfold execFwActivate
  refine .of_keeps (runCmd_keeps (by simp) fun s t => ?_)
  dsimp only
  (repeat' split) <;> simp [keeps_iff]

theorem execFwActivateSwitch_keeps (s : State) :
    nextKeeps [.cp, .part, .mgmt, .boot, .flash, .out] s (execFwActivateSwitch s) := by
  unfold execFwActivateSwitch
  split <;> simp [keeps_iff]

theorem execUpdateComponent_keeps (image : FwImage) (s : State) :
    nextKeeps [.cp, .part, .err, .pwr, .mgmt, .boot, .flash, .cells, .mem, .larder, .attic, .link, .chord, .fresh,
    .out] s (execUpdateComponent image s) := by
  unfold execUpdateComponent
  dsimp only
  (repeat' split) <;> simp [keeps_iff]

theorem execActivateFirmware_keeps (s : State) :
    nextKeeps [.cp, .boot, .out] s (execActivateFirmware s) := by
  unfold execActivateFirmware
  dsimp only
  (repeat' split) <;> simp [keeps_iff]

theorem execFwStageDone_keeps (ok : Bool) (s : State) :
    nextKeeps [.cp, .part, .mgmt, .boot, .flash, .out] s (execFwStageDone ok s) := by
  unfold execFwStageDone
  dsimp only
  (repeat' split) <;> simp [keeps_iff]

theorem execShelfRepairSoft_keeps (shelf row : Nat) (s : State) :
    nextKeeps [.mem] s (execShelfRepairSoft shelf row s) := by
  simp [keeps_iff, execShelfRepairSoft]

theorem execSoftRepairDone_keeps (shelf : Nat) (bad : List Nat) (s : State) :
    nextKeeps [.cp, .part, .err, .mgmt, .boot, .cells, .mem, .bytes, .larder, .trans, .attic, .chord, .fresh,
    .out] s (execSoftRepairDone shelf bad s) := by
  unfold execSoftRepairDone
  split <;> simp [keeps_iff]

theorem execShelfRepairHard_keeps (shelf row : Nat) (s : State) :
    nextKeeps [.boot, .mem] s (execShelfRepairHard shelf row s) := by
  simp [keeps_iff, execShelfRepairHard]

theorem execShelfRepairCancelHard_keeps (shelf row : Nat) (s : State) :
    nextKeeps [.boot, .mem, .fresh] s (execShelfRepairCancelHard shelf row s) := by
  simp [keeps_iff, execShelfRepairCancelHard]

theorem execLeakyBucketLeak_keeps (kind unit sub : Nat) (s : State) :
    nextKeeps [.err] s (execLeakyBucketLeak kind unit sub s) := by
  unfold execLeakyBucketLeak
  (repeat' split) <;> simp [keeps_iff]

theorem execLcVariant_keeps (sigOk : Bool) (s : State) :
    nextKeeps [.boot, .fuses, .out] s (execLcVariant sigOk s) := by
  simp [keeps_iff, execLcVariant]

theorem execLcLifecycle_keeps (sigOk : Bool) (s : State) :
    nextKeeps [.boot, .fuses, .out] s (execLcLifecycle sigOk s) := by
  simp [keeps_iff, execLcLifecycle]

theorem execLcAntiRollback_keeps (sigOk : Bool) (s : State) :
    nextKeeps [.boot, .fuses, .out] s (execLcAntiRollback sigOk s) := by
  simp [keeps_iff, execLcAntiRollback]

theorem execLcAtticRepairMap_keeps (sigOk : Bool) (s : State) :
    nextKeeps [.boot, .fuses, .out] s (execLcAtticRepairMap sigOk s) := by
  simp [keeps_iff, execLcAtticRepairMap]

theorem execLcAtticProfile_keeps (sigOk : Bool) (s : State) :
    nextKeeps [.boot, .fuses, .out] s (execLcAtticProfile sigOk s) := by
  simp [keeps_iff, execLcAtticProfile]

theorem execFuseProgrammingDone_keeps (ok : Bool) (s : State) :
    nextKeeps [.part, .boot, .fuses] s (execFuseProgrammingDone ok s) := by
  unfold execFuseProgrammingDone
  split <;> simp [keeps_iff]

theorem execPwrCmpWrite_keeps (k value : Nat) (s : State) :
    nextKeeps [.pwr, .out] s (execPwrCmpWrite k value s) := by
  simp [keeps_iff, execPwrCmpWrite]

theorem execRegisterWrite_keeps (addr size value : Nat) (s : State) :
    nextKeeps [.cp, .pwr, .mem, .out] s (execRegisterWrite addr size value s) := by
  simp [keeps_iff, execRegisterWrite]

theorem execBar2Access_keeps (kind : TlpKind) (addr : Nat) (data : Bytes) (s : State) :
    nextKeeps [.cp, .err, .mgmt, .boot, .cells, .mem, .out] s (execBar2Access kind addr data s) := by
  unfold execBar2Access
  (repeat' split) <;> simp [keeps_iff]

theorem execRegRead_keeps (addr size : Nat) (s : State) :
    nextKeeps [.fresh, .out] s (execRegRead addr size s) := by
  simp [keeps_iff, execRegRead]

theorem execRegWrite_keeps (addr size value : Nat) (s : State) :
    nextKeeps [.pwr, .boot, .fuses, .mem, .fresh, .out] s (execRegWrite addr size value s) := by
  simp [keeps_iff, execRegWrite]

@[simp] theorem ideKeys_frame (s : State) (w : ConfigWrite) :
    (ideKeys s w).time = s.time ∧ (ideKeys s w).cp = s.cp ∧ (ideKeys s w).err = s.err ∧
    (ideKeys s w).pwr = s.pwr ∧ (ideKeys s w).mgmt = s.mgmt ∧
    (ideKeys s w).boot = s.boot ∧ (ideKeys s w).cells = s.cells ∧
    (ideKeys s w).mem = s.mem ∧ (ideKeys s w).larder = s.larder ∧
    (ideKeys s w).reg = s.reg ∧ (ideKeys s w).trans = s.trans ∧
    (ideKeys s w).attic = s.attic ∧ (ideKeys s w).link = s.link ∧
    (ideKeys s w).chord = s.chord ∧ (ideKeys s w).out = s.out ∧
    (ideKeys s w).pending = s.pending := by
  cases w <;> simp [ideKeys]

theorem execHostConfigWrite_keeps (w : ConfigWrite) (s : State) :
    nextKeeps [.cp, .part, .boot, .fresh, .out] s (execHostConfigWrite w s) := by
  unfold execHostConfigWrite
  split
  · simp
  · cases w <;> simp [keeps_iff]

theorem execHostLinkUp_keeps (l : HostLink) (s : State) :
    nextKeeps [.boot] s (execHostLinkUp l s) := by
  simp [keeps_iff, execHostLinkUp]

theorem execMbRequest_keeps (msg : Bytes) (s : State) :
    nextKeeps [.cp, .mgmt, .out] s (execMbRequest msg s) := by
  simp [keeps_iff, execMbRequest]

theorem execEventAck_keeps (seq : Nat) (s : State) :
    nextKeeps [.err, .mgmt, .out] s (execEventAck seq s) := by
  simp [keeps_iff, execEventAck]

theorem execSetEndpointId_keeps (eid : Nat) (s : State) :
    nextKeeps [.mgmt, .out] s (execSetEndpointId eid s) := by
  simp [keeps_iff, execSetEndpointId]

theorem execPldmSensorRead_keeps (id : Nat) (s : State) :
    nextKeeps [.fresh, .out] s (execPldmSensorRead id s) := by
  unfold execPldmSensorRead
  (repeat' split) <;> simp [keeps_iff]

theorem execRailFault_keeps (rail : Nat) (s : State) :
    nextKeeps [.boot] s (execRailFault rail s) := by
  simp [keeps_iff, execRailFault]

theorem execVddAtticFault_keeps (site : Nat) (s : State) :
    nextKeeps [.cp, .err, .mgmt, .boot, .cells, .mem, .bytes, .larder, .trans, .attic, .chord, .fresh, .out] s
    (execVddAtticFault site s) := by
  unfold execVddAtticFault
  dsimp only
  (repeat' split) <;> simp [keeps_iff]

theorem execThermalTrip_keeps (sensor value : Nat) (s : State) :
    nextKeeps [.pwr, .boot] s (execThermalTrip sensor value s) := by
  simp [keeps_iff, execThermalTrip]

theorem execVddAtticGood_keeps (site : Nat) (s : State) :
    nextKeeps [.boot, .attic, .out] s (execVddAtticGood site s) := by
  unfold execVddAtticGood
  dsimp only
  (repeat' split) <;> simp [keeps_iff]

theorem execSgmiiLinkChange_keeps (up : Bool) (s : State) :
    nextKeeps [.mgmt] s (execSgmiiLinkChange up s) := by
  simp [keeps_iff, execSgmiiLinkChange]

theorem execDeviceReset_keeps (inp : StartInput) (s : State) :
    nextKeeps [.time, .cp, .part, .err, .pwr, .mgmt, .boot, .fuses, .cells, .mem, .bytes, .larder, .reg, .trans,
    .attic, .link, .chord, .fresh, .out] s (execDeviceReset inp s) := by
  simp [execDeviceReset, keeps_iff, deviceResetRecords]

theorem execColdReset_keeps (inp : StartInput) (s : State) :
    nextKeeps [.time, .cp, .part, .err, .pwr, .mgmt, .boot, .fuses, .cells, .mem, .bytes, .larder, .reg, .trans,
    .attic, .link, .chord, .fresh, .out] s (execColdReset inp s) := by
  simp [keeps_iff, execColdReset]

theorem execHostLinkTimeout_keeps (s : State) :
    nextKeeps [.mgmt, .boot, .out] s (execHostLinkTimeout s) := by
  simp [keeps_iff, execHostLinkTimeout]

theorem execFarZeroingDone_keeps (port decoder : Nat) (s : State) :
    nextKeeps [.mem] s (execFarZeroingDone port decoder s) := by
  unfold execFarZeroingDone
  split <;> simp [keeps_iff]

theorem execHostPerst_keeps (inp : StartInput) (s : State) :
    nextKeeps [.time, .cp, .part, .err, .pwr, .mgmt, .boot, .fuses, .cells, .mem, .bytes, .larder, .reg, .trans,
    .attic, .link, .chord, .fresh, .out] s (execHostPerst inp s) := by
  simp [execHostPerst, keeps_iff, deviceReset]

theorem execFunctionLevelReset_keeps (inp : StartInput) (s : State) :
    nextKeeps [.time, .cp, .part, .err, .pwr, .mgmt, .boot, .fuses, .cells, .mem, .bytes, .larder, .reg, .trans,
    .attic, .link, .chord, .fresh, .out] s (execFunctionLevelReset inp s) := by
  simp [execFunctionLevelReset, keeps_iff, deviceReset]

theorem execCpWatchdog_keeps (inp : StartInput) (s : State) :
    nextKeeps [.time, .cp, .part, .err, .pwr, .mgmt, .boot, .fuses, .cells, .mem, .bytes, .larder, .reg, .trans,
    .attic, .link, .chord, .fresh, .out] s (execCpWatchdog inp s) := by
  simp [execCpWatchdog, keeps_iff, deviceResetRecords]

theorem execRetestDone_keeps (cellar : Nat) (core : Option Nat) (ok : Bool) (s : State) :
    nextKeeps [.cp, .part, .err, .mgmt, .boot, .cells, .mem, .bytes, .larder, .trans, .attic, .chord, .out] s
    (execRetestDone cellar core ok s) := by
  unfold execRetestDone
  split <;> simp [keeps_iff]

theorem execColdResetAssert_keeps (s : State) :
    nextKeeps [.time, .cp, .part, .err, .pwr, .mgmt, .boot, .fuses, .cells, .mem, .bytes, .larder, .reg, .trans,
    .attic, .link, .chord, .fresh, .out] s (execColdResetAssert s) := by
  simp [keeps_iff, execColdResetAssert]

theorem execSensorsCooled_keeps (inp : StartInput) (s : State) :
    nextKeeps [.time, .cp, .part, .err, .pwr, .mgmt, .boot, .cells, .mem, .larder, .attic, .link, .chord, .fresh,
    .out] s (execSensorsCooled inp s) := by
  simp [keeps_iff, execSensorsCooled]

theorem execStrumBoundary_keeps (s : State) :
    nextKeeps [.time, .cp, .part, .err, .pwr, .mgmt, .cells, .mem, .bytes, .larder, .reg, .trans, .attic, .link,
    .chord, .fresh, .out] s (execStrumBoundary s) := by
  unfold execStrumBoundary
  split
  · simp
  · dsimp only
    split <;> rename_i h
    · exact .of_keeps (keeps_of_eq h (by simp [keeps_iff]))
    · exact .of_keeps ((keeps_of_eq h (by simp [keeps_iff])).trans (by simp [keeps_iff]))

theorem execFretEdge_keeps (s : State) :
    nextKeeps [.time, .cp, .err, .pwr, .mgmt, .boot, .cells, .mem, .bytes, .larder, .reg, .trans, .attic, .link,
    .chord, .fresh, .out] s (execFretEdge s) := by
  unfold execFretEdge
  (repeat' split) <;> simp [keeps_iff]

theorem execPreemptSaveDone_keeps (core : Nat) (s : State) :
    nextKeeps [.cells, .larder] s (execPreemptSaveDone core s) := by
  unfold execPreemptSaveDone
  dsimp only
  (repeat' split) <;> simp [keeps_iff]

theorem execCoreHang_keeps (core : Nat) (s : State) :
    nextKeeps [.cp, .part, .err, .mgmt, .cells, .mem, .bytes, .larder, .trans, .attic, .chord, .out] s
    (execCoreHang core s) := by
  simp [keeps_iff, execCoreHang]

theorem execSramUncorrectable_keeps (u : SramUnit) (s : State) :
    nextKeeps [.cp, .part, .err, .mgmt, .boot, .cells, .mem, .bytes, .larder, .trans, .attic, .chord, .out] s
    (execSramUncorrectable u s) := by
  simp [keeps_iff, execSramUncorrectable]

theorem execScrubRead_keeps (at_ : ScrubAt) (ecc : Ecc) (endsSegment : Bool) (s : State) :
    nextKeeps [.cp, .part, .err, .mgmt, .boot, .cells, .mem, .bytes, .larder, .reg, .trans, .attic, .chord, .fresh,
    .out] s (execScrubRead at_ ecc endsSegment s) := by
  simp [keeps_iff, execScrubRead]

theorem execScrubSegmentDue_keeps (structure_ : Nat) (s : State) :
    nextKeeps [.time, .cp, .err, .mgmt, .out] s (execScrubSegmentDue structure_ s) := by
  simp [keeps_iff, execScrubSegmentDue]

end Sys2Proof.Machine

end

section

/-! What the instructions of a kernel keep: each is an issue with a body (`issue_keeps`). -/

set_option maxRecDepth 4000
set_option exponentiation.threshold 2000

namespace Sys2Proof.Machine

theorem execNop_keeps (i : Issue) (s : State) :
    nextKeeps [.cp, .cells, .larder, .trans, .attic, .chord, .fresh, .out] s (execNop i s) := by
  unfold execNop
  refine .of_kernel ?_
  simp [keeps_iff]

theorem execBra_keeps (i : Issue) (offset : Int) (s : State) :
    nextKeeps [.cp, .cells, .larder, .trans, .attic, .chord, .fresh, .out] s (execBra i offset s) := by
  unfold execBra
  refine .of_kernel ?_
  simp [keeps_iff]

theorem execBrx_keeps (i : Issue) (sa : Nat) (offset : Int) (table : List Int) (s : State) :
    nextKeeps [.cp, .cells, .larder, .trans, .attic, .chord, .fresh, .out] s (execBrx i sa offset table s) := by
  unfold execBrx
  refine .of_kernel ?_
  simp [keeps_iff]

theorem execSplit_keeps (i : Issue) (slot : Nat) (s : State) :
    nextKeeps [.cp, .cells, .larder, .trans, .attic, .chord, .fresh, .out] s (execSplit i slot s) := by
  unfold execSplit
  refine .of_kernel ?_
  simp [keeps_iff]

theorem execJoin_keeps (i : Issue) (slot : Nat) (s : State) :
    nextKeeps [.cp, .cells, .larder, .trans, .attic, .chord, .fresh, .out] s (execJoin i slot s) := by
  unfold execJoin
  refine .of_kernel ?_
  simp [keeps_iff]

theorem execExit_keeps (i : Issue) (s : State) :
    nextKeeps [.cp, .cells, .larder, .trans, .attic, .chord, .fresh, .out] s (execExit i s) := by
  unfold execExit
  refine .of_kernel ?_
  simp [keeps_iff]

theorem execYield_keeps (i : Issue) (s : State) :
    nextKeeps [.cp, .cells, .larder, .trans, .attic, .chord, .fresh, .out] s (execYield i s) := by
  unfold execYield
  refine .of_kernel ?_
  simp [keeps_iff]

theorem execShflIdx_keeps (i : Issue) (f : ShflForm) (dst sa sb sc : Nat) (s : State) :
    nextKeeps [.cp, .cells, .larder, .trans, .attic, .chord, .fresh, .out] s (execShflIdx i f dst sa sb sc s) := by
  unfold execShflIdx
  refine .of_kernel ?_
  simp [keeps_iff]

theorem execShflUp_keeps (i : Issue) (f : ShflForm) (dst sa sb sc : Nat) (s : State) :
    nextKeeps [.cp, .cells, .larder, .trans, .attic, .chord, .fresh, .out] s (execShflUp i f dst sa sb sc s) := by
  unfold execShflUp
  refine .of_kernel ?_
  simp [keeps_iff]

theorem execShflDown_keeps (i : Issue) (f : ShflForm) (dst sa sb sc : Nat) (s : State) :
    nextKeeps [.cp, .cells, .larder, .trans, .attic, .chord, .fresh, .out] s (execShflDown i f dst sa sb sc s) := by
  unfold execShflDown
  refine .of_kernel ?_
  simp [keeps_iff]

theorem execShflXor_keeps (i : Issue) (f : ShflForm) (dst sa sb sc : Nat) (s : State) :
    nextKeeps [.cp, .cells, .larder, .trans, .attic, .chord, .fresh, .out] s (execShflXor i f dst sa sb sc s) := by
  unfold execShflXor
  refine .of_kernel ?_
  simp [keeps_iff]

theorem execVoteAll_keeps (i : Issue) (dst pin : Nat) (inv : Bool) (sc : Nat) (s : State) :
    nextKeeps [.cp, .cells, .larder, .trans, .attic, .chord, .fresh, .out] s (execVoteAll i dst pin inv sc s) := by
  unfold execVoteAll
  refine .of_kernel ?_
  simp [keeps_iff]

theorem execVoteAny_keeps (i : Issue) (dst pin : Nat) (inv : Bool) (sc : Nat) (s : State) :
    nextKeeps [.cp, .cells, .larder, .trans, .attic, .chord, .fresh, .out] s (execVoteAny i dst pin inv sc s) := by
  unfold execVoteAny
  refine .of_kernel ?_
  simp [keeps_iff]

theorem execVoteBallot_keeps (i : Issue) (dst pin : Nat) (inv : Bool) (sc : Nat) (s : State) :
    nextKeeps [.cp, .cells, .larder, .trans, .attic, .chord, .fresh, .out] s (execVoteBallot i dst pin inv sc s) := by
  unfold execVoteBallot
  refine .of_kernel ?_
  simp [keeps_iff]

theorem execMatch32_keeps (i : Issue) (dst sa sc : Nat) (s : State) :
    nextKeeps [.cp, .cells, .larder, .trans, .attic, .chord, .fresh, .out] s (execMatch32 i dst sa sc s) := by
  unfold execMatch32
  refine .of_kernel ?_
  simp [keeps_iff]

theorem execMatch64_keeps (i : Issue) (dst sa sc : Nat) (s : State) :
    nextKeeps [.cp, .cells, .larder, .trans, .attic, .chord, .fresh, .out] s (execMatch64 i dst sa sc s) := by
  unfold execMatch64
  refine .of_kernel ?_
  simp [keeps_iff]

theorem execAtomAdd_keeps (i : Issue) (f : AtomForm) (dst sa sb : Nat) (s : State) :
    nextKeeps [.cp, .part, .cells, .mem, .bytes, .larder, .trans, .attic, .chord, .fresh, .out] s
    (execAtomAdd i f dst sa sb s) := by
  exact atomInstr_keeps .add i f dst sa sb vz s

theorem execAtomMin_keeps (i : Issue) (f : AtomForm) (dst sa sb : Nat) (s : State) :
    nextKeeps [.cp, .part, .cells, .mem, .bytes, .larder, .trans, .attic, .chord, .fresh, .out] s
    (execAtomMin i f dst sa sb s) := by
  exact atomInstr_keeps .min i f dst sa sb vz s

theorem execAtomMax_keeps (i : Issue) (f : AtomForm) (dst sa sb : Nat) (s : State) :
    nextKeeps [.cp, .part, .cells, .mem, .bytes, .larder, .trans, .attic, .chord, .fresh, .out] s
    (execAtomMax i f dst sa sb s) := by
  exact atomInstr_keeps .max i f dst sa sb vz s

theorem execAtomAnd_keeps (i : Issue) (f : AtomForm) (dst sa sb : Nat) (s : State) :
    nextKeeps [.cp, .part, .cells, .mem, .bytes, .larder, .trans, .attic, .chord, .fresh, .out] s
    (execAtomAnd i f dst sa sb s) := by
  exact atomInstr_keeps .and i f dst sa sb vz s

theorem execAtomOr_keeps (i : Issue) (f : AtomForm) (dst sa sb : Nat) (s : State) :
    nextKeeps [.cp, .part, .cells, .mem, .bytes, .larder, .trans, .attic, .chord, .fresh, .out] s
    (execAtomOr i f dst sa sb s) := by
  exact atomInstr_keeps .or i f dst sa sb vz s

theorem execAtomXor_keeps (i : Issue) (f : AtomForm) (dst sa sb : Nat) (s : State) :
    nextKeeps [.cp, .part, .cells, .mem, .bytes, .larder, .trans, .attic, .chord, .fresh, .out] s
    (execAtomXor i f dst sa sb s) := by
  exact atomInstr_keeps .xor i f dst sa sb vz s

theorem execAtomExch_keeps (i : Issue) (f : AtomForm) (dst sa sb : Nat) (s : State) :
    nextKeeps [.cp, .part, .cells, .mem, .bytes, .larder, .trans, .attic, .chord, .fresh, .out] s
    (execAtomExch i f dst sa sb s) := by
  exact atomInstr_keeps .exch i f dst sa sb vz s

theorem execAtomCas_keeps (i : Issue) (f : AtomForm) (dst sa sb sc : Nat) (s : State) :
    nextKeeps [.cp, .part, .cells, .mem, .bytes, .larder, .trans, .attic, .chord, .fresh, .out] s
    (execAtomCas i f dst sa sb sc s) := by
  exact atomInstr_keeps .cas i f dst sa sb sc s

theorem execAtomInc_keeps (i : Issue) (f : AtomForm) (dst sa sb : Nat) (s : State) :
    nextKeeps [.cp, .part, .cells, .mem, .bytes, .larder, .trans, .attic, .chord, .fresh, .out] s
    (execAtomInc i f dst sa sb s) := by
  exact atomInstr_keeps .inc i f dst sa sb vz s

theorem execFence_keeps (i : Issue) (scope : Scope) (order : Order) (s : State) :
    nextKeeps [.cp, .cells, .mem, .bytes, .larder, .trans, .attic, .chord, .fresh, .out] s
    (execFence i scope order s) := by
  unfold execFence
  refine .of_kernel ?_
  simp [keeps_iff]

theorem execLd_keeps (i : Issue) (f : MemForm) (dst sa : Nat) (s : State) :
    nextKeeps [.cp, .part, .cells, .mem, .bytes, .larder, .trans, .attic, .chord, .fresh, .out] s
    (execLd i f dst sa s) := by
  unfold execLd
  refine .of_kernel (issue_keeps (by simp [issueTouches]) fun s g act => ?_)
  dsimp only
  split <;> simp [keeps_iff]

theorem execSt_keeps (i : Issue) (f : MemForm) (sa sb : Nat) (s : State) :
    nextKeeps [.cp, .part, .err, .mgmt, .cells, .mem, .bytes, .larder, .trans, .attic, .chord, .fresh, .out] s
    (execSt i f sa sb s) := by
  unfold execSt
  refine .of_kernel (issue_keeps (by simp [issueTouches]) fun s g act => released_keeps (by simp) fun s act => ?_)
  split
  · exact .refl ..
  · dsimp only
    generalize hb : List.foldl _ (s, none) _ = x
    have hx : keeps [.cp, .part, .err, .mgmt, .cells, .mem, .bytes, .larder, .trans, .attic, .chord, .fresh,
    .out] s x.1 := by
      subst hb
      refine foldlFst_keeps _ (s, none) fun x t => ?_
      split <;> simp [keeps_iff]
    refine hx.trans ?_
    split <;> simp [keeps_iff]

theorem execLoadDataReturn_keeps (core load : Nat) (s : State) :
    nextKeeps [.cp, .err, .mgmt, .cells, .larder, .trans, .attic, .chord, .out] s
    (execLoadDataReturn core load s) := by
  unfold execLoadDataReturn
  (repeat' split) <;> simp [keeps_iff]

theorem execCacheFillArrival_keeps (at_ : FillAt) (s : State) :
    nextKeeps [.cells, .mem, .bytes, .out] s (execCacheFillArrival at_ s) := by
  unfold execCacheFillArrival
  split <;> simp [keeps_iff]

theorem execTrackerIdleTimeout_keeps (cellar tracker : Nat) (s : State) :
    nextKeeps [.cells] s (execTrackerIdleTimeout cellar tracker s) := by
  unfold execTrackerIdleTimeout
  split <;> simp [keeps_iff]

theorem execPegArrive_keeps (i : Issue) (f : PegForm) (dst sa sb : Nat) (s : State) :
    nextKeeps [.cp, .err, .mgmt, .cells, .mem, .bytes, .larder, .reg, .trans, .attic, .chord, .fresh, .out] s
    (execPegArrive i f dst sa sb s) := by
  unfold execPegArrive pegAddInstr
  exact .of_kernel (pegIssue_keeps (by simp [issueTouches]) fun s act => released_keeps
      (by simp) fun s act => by simp [keeps_iff])

theorem execPegWait_keeps (i : Issue) (f : PegForm) (sa sb : Nat) (s : State) :
    nextKeeps [.cp, .err, .mgmt, .cells, .mem, .bytes, .larder, .reg, .trans, .attic, .chord, .fresh, .out] s
    (execPegWait i f sa sb s) := by
  unfold execPegWait
  refine .of_kernel (pegIssue_keeps (by simp [issueTouches]) fun s act => released_keeps (by simp) fun s act => ?_)
  split
  · dsimp only
    split <;> simp [keeps_iff]
  · exact .refl ..

theorem execPegSignal_keeps (i : Issue) (f : PegForm) (dst sa sb : Nat) (s : State) :
    nextKeeps [.cp, .err, .mgmt, .cells, .mem, .bytes, .larder, .reg, .trans, .attic, .chord, .fresh, .out] s
    (execPegSignal i f dst sa sb s) := by
  unfold execPegSignal pegAddInstr
  exact .of_kernel (pegIssue_keeps (by simp [issueTouches]) fun s act => released_keeps
      (by simp) fun s act => by simp [keeps_iff])

theorem execPegReset_keeps (i : Issue) (f : PegForm) (sa : Nat) (s : State) :
    nextKeeps [.cp, .err, .mgmt, .cells, .mem, .bytes, .larder, .reg, .trans, .attic, .chord, .fresh, .out] s
    (execPegReset i f sa s) := by
  unfold execPegReset
  refine .of_kernel (pegIssue_keeps (by simp [issueTouches]) fun s act => released_keeps (by simp) fun s act => ?_)
  split
  · dsimp only
    split <;> simp [keeps_iff]
  · exact .refl ..

theorem execPegRead_keeps (i : Issue) (f : PegForm) (dst sa : Nat) (s : State) :
    nextKeeps [.cp, .err, .mgmt, .cells, .mem, .bytes, .larder, .reg, .trans, .attic, .chord, .fresh, .out] s
    (execPegRead i f dst sa s) := by
  unfold execPegRead
  refine .of_kernel (pegIssue_keeps (by simp [issueTouches]) fun s act => released_keeps (by simp) fun s act => ?_)
  split
  · dsimp only
    split <;> simp [keeps_iff]
  · exact .refl ..

theorem execReleaseWritebackAcked_keeps (core release : Nat) (s : State) :
    nextKeeps [.cells] s (execReleaseWritebackAcked core release s) := by
  unfold execReleaseWritebackAcked
  split <;> simp [keeps_iff]

theorem execMregionBegin_keeps (i : Issue) (sc endOffset : Nat) (s : State) :
    nextKeeps [.cp, .cells, .larder, .trans, .attic, .chord, .fresh, .out] s (execMregionBegin i sc endOffset s) := by
  unfold execMregionBegin
  refine .of_kernel (issue_keeps (by simp [issueTouches]) fun s g act => ?_)
  dsimp only
  (repeat' split) <;> simp [keeps_iff]

theorem execMregionEnd_keeps (i : Issue) (s : State) :
    nextKeeps [.cp, .cells, .larder, .trans, .attic, .chord, .fresh, .out] s (execMregionEnd i s) := by
  unfold execMregionEnd
  exact .of_kernel (matrixOp_keeps (by simp [issueTouches]) fun s g t => by simp [keeps_iff])

theorem execMzero_keeps (i : Issue) (s : State) :
    nextKeeps [.cp, .cells, .larder, .trans, .attic, .chord, .fresh, .out] s (execMzero i s) := by
  unfold execMzero
  exact .of_kernel (matrixOp_keeps (by simp [issueTouches]) fun s g t => by simp [keeps_iff])

theorem execAnchor_keeps (i : Issue) (sa : Nat) (auto : Bool) (s : State) :
    nextKeeps [.cp, .cells, .larder, .trans, .attic, .chord, .fresh, .out] s (execAnchor i sa auto s) := by
  unfold execAnchor
  exact .of_kernel (matrixOp_keeps (by simp [issueTouches]) fun s g t => by simp [keeps_iff])

theorem execMma_keeps (i : Issue) (f : MmaForm) (sa sb sc : Nat) (s : State) :
    nextKeeps [.cp, .err, .mgmt, .cells, .larder, .trans, .attic, .chord, .fresh, .out] s
    (execMma i f sa sb sc s) := by
  unfold execMma
  refine .of_kernel (matrixOp_keeps (by simp [issueTouches]) fun s g t => ?_)
  dsimp only
  split
  · simp [keeps_iff]
  · split <;> simp [keeps_iff]

theorem execMexport_keeps (i : Issue) (fmt : Fmt) (stochastic : Bool) (sa : Nat) (s : State) :
    nextKeeps [.cp, .cells, .larder, .trans, .attic, .chord, .fresh, .out] s (execMexport i fmt stochastic sa s) := by
  unfold execMexport
  exact .of_kernel (matrixOp_keeps (by simp [issueTouches]) fun s g t => by simp [keeps_iff])

theorem execMexportWide_keeps (i : Issue) (sa : Nat) (s : State) :
    nextKeeps [.cp, .cells, .larder, .trans, .attic, .chord, .fresh, .out] s (execMexportWide i sa s) := by
  unfold execMexportWide
  exact .of_kernel (matrixOp_keeps (by simp [issueTouches]) fun s g t => by simp [keeps_iff])

theorem execIntOp_keeps (i : Issue) (f : IntForm) (wide : Bool) (dst sa sb sc : Nat) (s : State) :
    nextKeeps [.cp, .cells, .larder, .trans, .attic, .chord, .fresh, .out] s (execIntOp i f wide dst sa sb sc s) := by
  unfold execIntOp
  dsimp only
  split <;> exact .of_kernel (by simp [keeps_iff])

theorem execFpOp_keeps (i : Issue) (f : FpForm) (dst sa sb sc : Nat) (s : State) :
    nextKeeps [.cp, .cells, .larder, .trans, .attic, .chord, .fresh, .out] s (execFpOp i f dst sa sb sc s) := by
  unfold execFpOp
  split <;> exact .of_kernel (by simp [keeps_iff])

theorem execCvt_keeps (i : Issue) (src dst : Fmt) (rd ra se de : Nat) (s : State) :
    nextKeeps [.cp, .cells, .larder, .trans, .attic, .chord, .fresh, .out] s (execCvt i src dst rd ra se de s) := by
  unfold execCvt
  refine .of_kernel ?_
  simp [keeps_iff]

theorem execMov_keeps (i : Issue) (dst : Nat) (src : MovSrc) (s : State) :
    nextKeeps [.cp, .cells, .larder, .trans, .attic, .chord, .fresh, .out] s (execMov i dst src s) := by
  unfold execMov
  split <;> exact .of_kernel (by simp [keeps_iff])

theorem execSpecialRead_keeps (i : Issue) (dst : Nat) (sr : SpecialReg) (s : State) :
    nextKeeps [.cp, .cells, .larder, .trans, .attic, .chord, .fresh, .out] s (execSpecialRead i dst sr s) := by
  unfold execSpecialRead
  refine .of_kernel ?_
  simp [keeps_iff]

end Sys2Proof.Machine

end

section

/-! What the movers, the maintenance of a cellar and the routing keep: each is a body run on a descriptor (`runJob_keeps`). -/

set_option maxRecDepth 4000
set_option exponentiation.threshold 2000

namespace Sys2Proof.Machine

theorem execCopy_keeps (cellar job : Nat) (host : Fetch) (s : State) :
    nextKeeps [.cp, .err, .mgmt, .boot, .cells, .mem, .bytes, .larder, .trans, .attic, .chord, .out] s
    (execCopy cellar job host s) := by
  unfold execCopy
  refine .of_keeps (runJob_keeps (by simp) fun s j b => ?_)
  dsimp only
  split
  · simp [keeps_iff]
  · split
    · simp [keeps_iff]
    · simp [keeps_iff]
    · have hm : keeps [.cp, .err, .mgmt, .boot, .cells, .mem, .bytes, .larder, .trans, .attic, .chord, .out] s
          (match srcAddr s j b with
                | .hpa a _ => ensureRemote s cellar j a (bbits b 192 32)
                | _ => (s, true)).1 := by
        split <;> simp [keeps_iff]
      split <;> rename_i h
      · exact keeps_of_eq h hm
      · refine (keeps_of_eq h hm).trans ?_
        generalize bbits b 192 32 / 2048 + 4 = fuel
        simp [keeps_iff]

theorem execFill_keeps (cellar job : Nat) (s : State) :
    nextKeeps [.cp, .err, .mgmt, .cells, .mem, .bytes, .larder, .trans, .attic, .chord, .out] s
    (execFill cellar job s) := by
  unfold execFill
  refine .of_keeps (runJob_keeps (by simp) fun s j b => ?_)
  dsimp only
  split
  · simp [keeps_iff]
  · split
    · simp [keeps_iff]
    · generalize bbits b 192 32 / 2048 + 4 = fuel
      simp [keeps_iff]

theorem execCompress_keeps (cellar job : Nat) (host : Fetch) (s : State) :
    nextKeeps [.cp, .err, .mgmt, .boot, .cells, .mem, .bytes, .larder, .trans, .attic, .chord, .out] s
    (execCompress cellar job host s) := by
  unfold execCompress
  refine .of_keeps (runJob_keeps (by simp) fun s j b => ?_)
  dsimp only
  split
  · simp [keeps_iff]
  · split
    · simp [keeps_iff]
    · split
      · simp [keeps_iff]
      · split <;> rename_i h
        · exact (keeps_of_eq h (by simp [keeps_iff])).trans (by simp [keeps_iff])
        · exact keeps_of_eq h (by simp [keeps_iff])

theorem execDecompress_keeps (cellar job : Nat) (host : Fetch) (s : State) :
    nextKeeps [.cp, .err, .mgmt, .boot, .cells, .mem, .bytes, .larder, .trans, .attic, .chord, .out] s
    (execDecompress cellar job host s) := by
  unfold execDecompress
  refine .of_keeps (runJob_keeps (by simp) fun s j b => ?_)
  refine .ite (fun _ => by simp [keeps_iff]) fun _ => ?_
  dsimp only
  split <;> rename_i h
  · refine (keeps_of_eq h (by simp [keeps_iff])).trans ?_
    split
    · simp [keeps_iff]
    · split
      · simp [keeps_iff]
      · split
        · simp [keeps_iff]
        · refine .ite (fun _ => by simp [keeps_iff]) fun _ => ?_
          split <;> rename_i h
          · exact (keeps_of_eq h (by simp [keeps_iff])).trans (by simp [keeps_iff])
          · exact keeps_of_eq h (by simp [keeps_iff])
  · exact keeps_of_eq h (by simp [keeps_iff])

theorem execGather_keeps (cellar job : Nat) (host : Fetch) (s : State) :
    nextKeeps [.cp, .err, .mgmt, .boot, .cells, .mem, .bytes, .larder, .trans, .attic, .chord, .out] s
    (execGather cellar job host s) := by
  unfold execGather
  refine .of_keeps (runJob_keeps (by simp) fun s j b => ?_)
  refine .ite (fun _ => by simp [keeps_iff]) fun _ => ?_
  dsimp only
  split <;> rename_i h
  · refine (keeps_of_eq h (by simp [keeps_iff])).trans ?_
    refine .ite (fun _ => by simp [keeps_iff]) fun _ => ?_
    refine .ite (fun _ => by simp [keeps_iff]) fun _ => ?_
    · split
      · simp [keeps_iff]
      · generalize bbits b 256 32 / 32 + 2 = fuel
        simp [keeps_iff]
  · exact keeps_of_eq h (by simp [keeps_iff])

/-- What the end of a mover descriptor may touch. -/
def jobEndTouches : List Component :=
  [.cp, .err, .mgmt, .cells, .mem, .bytes, .larder, .reg, .trans, .attic, .chord, .fresh, .out]

theorem finishJob_keeps (s : State) (c id : Nat) (b : Bytes) :
    keeps jobEndTouches s (execMoverDescriptorDone.finishJob s c id b) := by
  unfold execMoverDescriptorDone.finishJob
  extract_lets peg part
  split
  · simp [keeps_iff, jobEndTouches]
  · split
    · split <;> simp [keeps_iff, jobEndTouches]
    · simp [keeps_iff, jobEndTouches]

theorem settleJob_keeps (cellar job : Nat) (s : State) (j : MoverJob) (b : Bytes) :
    keeps jobEndTouches s (execMoverDescriptorDone.settleJob cellar job s j b) := by
  unfold execMoverDescriptorDone.settleJob
  split
  · exact .refl ..
  · exact finishJob_keeps ..

theorem execMoverDescriptorDone_keeps (cellar job : Nat) (s : State) :
    nextKeeps [.cp, .err, .mgmt, .cells, .mem, .bytes, .larder, .reg, .trans, .attic, .chord, .fresh, .out] s
    (execMoverDescriptorDone cellar job s) := by
  unfold execMoverDescriptorDone
  split
  · simp
  · split
    · simp
    · dsimp only
      split
      · simp
      · split
        · split
          · simp [keeps_iff]
          · exact .of_keeps (.trans (by simp [keeps_iff]) (settleJob_keeps ..))
        · exact .of_keeps (settleJob_keeps ..)

theorem execClean_keeps (cellar job : Nat) (s : State) :
    nextKeeps [.cp, .err, .mgmt, .cells, .mem, .bytes, .larder, .trans, .attic, .chord, .out] s
    (execClean cellar job s) := by
  simp [keeps_iff, execClean]

theorem execInval_keeps (cellar job : Nat) (s : State) :
    nextKeeps [.cp, .err, .mgmt, .cells, .mem, .bytes, .larder, .trans, .attic, .chord, .out] s
    (execInval cellar job s) := by
  simp [keeps_iff, execInval]

theorem execCleanInval_keeps (cellar job : Nat) (s : State) :
    nextKeeps [.cp, .err, .mgmt, .cells, .mem, .bytes, .larder, .trans, .attic, .chord, .out] s
    (execCleanInval cellar job s) := by
  simp [keeps_iff, execCleanInval]

theorem execWayLock_keeps (cellar job : Nat) (s : State) :
    nextKeeps [.cp, .err, .mgmt, .cells, .mem, .larder, .trans, .attic, .chord, .out] s
    (execWayLock cellar job s) := by
  unfold execWayLock
  refine .of_keeps (runJob_keeps (by simp) fun s j b => ?_)
  dsimp only
  split
  · simp [keeps_iff]
  · split
    · simp [keeps_iff]
    · split <;> rename_i h
      · exact keeps_of_eq h (by simp [keeps_iff])
      · exact (keeps_of_eq h (by simp [keeps_iff])).trans (by simp [keeps_iff])

theorem execWayUnlock_keeps (cellar job : Nat) (s : State) :
    nextKeeps [.cells, .larder] s (execWayUnlock cellar job s) := by
  simp [keeps_iff, execWayUnlock]

theorem execPut_keeps (cellar job : Nat) (host : Fetch) (s : State) :
    nextKeeps [.cp, .err, .mgmt, .boot, .cells, .mem, .larder, .trans, .attic, .chord, .fresh, .out] s
    (execPut cellar job host s) := by
  unfold execPut
  refine .of_keeps (runJob_keeps (by simp) fun s j b => ?_)
  dsimp only
  split
  · split <;> simp [keeps_iff]
  · split
    · simp [keeps_iff]
    · split
      · simp [keeps_iff]
      · split
        · simp [keeps_iff]
        · have hm : keeps [.cp, .err, .mgmt, .boot, .cells, .mem, .larder, .trans, .attic, .chord, .fresh, .out] s
              (match srcAddr s j b with
                | .hpa a _ => ensureRemote s cellar j a (bbits b 192 32)
                | _ => (s, true)).1 := by
            split <;> simp [keeps_iff]
          split <;> rename_i h
          · exact keeps_of_eq h hm
          · refine (keeps_of_eq h hm).trans ?_
            split <;> rename_i h
            · refine (keeps_of_eq h (by simp [keeps_iff])).trans ?_
              split <;> simp [keeps_iff]
            · refine (keeps_of_eq h (by simp [keeps_iff])).trans ?_
              split <;> simp [keeps_iff]

theorem execGet_keeps (cellar job : Nat) (s : State) :
    nextKeeps [.cp, .err, .mgmt, .cells, .mem, .bytes, .larder, .trans, .attic, .chord, .fresh, .out] s
    (execGet cellar job s) := by
  unfold execGet
  refine .of_keeps (runJob_keeps (by simp) fun s j b => ?_)
  dsimp only
  split
  · simp [keeps_iff]
  · split
    · simp [keeps_iff]
    · split
      · simp [keeps_iff]
      · split
        · simp [keeps_iff]
        · split <;> rename_i h
          · refine (keeps_of_eq h (by simp [keeps_iff])).trans ?_
            split <;> simp [keeps_iff]
          · refine (keeps_of_eq h (by simp [keeps_iff])).trans ?_
            split <;> simp [keeps_iff]

theorem execSignal_keeps (cellar job : Nat) (s : State) :
    nextKeeps [.cp, .err, .mgmt, .cells, .larder, .trans, .attic, .chord, .fresh, .out] s
    (execSignal cellar job s) := by
  unfold execSignal
  refine .of_keeps (runJob_keeps (by simp) fun s j b => ?_)
  dsimp only
  split
  · simp
  · split
    · simp [keeps_iff]
    · split
      · simp [keeps_iff]
      · split <;> rename_i h
        · refine (keeps_of_eq h (by simp [keeps_iff])).trans ?_
          split <;> simp [keeps_iff]
        · refine (keeps_of_eq h (by simp [keeps_iff])).trans ?_
          split <;> simp [keeps_iff]

theorem execAllreduce_keeps (cellar job : Nat) (s : State) :
    nextKeeps [.cp, .err, .mgmt, .cells, .mem, .bytes, .larder, .trans, .attic, .chord, .fresh, .out] s
    (execAllreduce cellar job s) := by
  simp [keeps_iff, execAllreduce]

theorem execAlltoall_keeps (cellar job : Nat) (s : State) :
    nextKeeps [.cp, .err, .mgmt, .cells, .mem, .bytes, .larder, .trans, .attic, .chord, .fresh, .out] s
    (execAlltoall cellar job s) := by
  simp [keeps_iff, execAlltoall]

theorem execCollectiveTimeout_keeps (id : Nat) (s : State) :
    nextKeeps [.cells, .mem, .bytes, .larder, .chord, .fresh, .out] s (execCollectiveTimeout id s) := by
  unfold execCollectiveTimeout
  dsimp only
  (repeat' split) <;> simp [keeps_iff]

theorem execRouteDispatched_keeps (slot part : Nat) (s : State) :
    nextKeeps [.cp, .err, .mgmt, .cells, .larder, .reg, .trans, .attic, .chord, .fresh, .out] s
    (execRouteDispatched slot part s) := by
  unfold execRouteDispatched
  split <;> simp [keeps_iff]

theorem execCombine_keeps (slot part : Nat) (s : State) :
    nextKeeps [.cp, .err, .mgmt, .cells, .mem, .bytes, .larder, .reg, .trans, .attic, .chord, .fresh, .out] s
    (execCombine slot part s) := by
  unfold execCombine
  split
  · dsimp only
    split
    · simp
    · split
      · simp [keeps_iff]
      · split <;> rename_i h
        · exact .of_keeps (keeps_of_eq h (by simp [keeps_iff]))
        · refine .of_keeps ((keeps_of_eq h (by simp [keeps_iff])).trans ?_)
          (repeat' split) <;> simp [keeps_iff]
  · simp

end Sys2Proof.Machine

end

section

/-! What the homes of memory and the attic sites keep. -/

set_option maxRecDepth 4000
set_option exponentiation.threshold 2000

namespace Sys2Proof.Machine

theorem execShelfAccess_keeps (txn : Nat) (lo hi : Ecc) (s : State) :
    nextKeeps [.cp, .part, .err, .pwr, .mgmt, .boot, .cells, .mem, .bytes, .larder, .trans, .attic, .chord, .fresh,
    .out] s (execShelfAccess txn lo hi s) := by
  unfold execShelfAccess
  dsimp only
  (repeat' split) <;> simp [keeps_iff]

theorem execFarTierAccess_keeps (txn : Nat) (lo hi : Ecc) (s : State) :
    nextKeeps [.cp, .part, .err, .mgmt, .boot, .cells, .mem, .bytes, .larder, .trans, .attic, .chord, .fresh,
    .out] s (execFarTierAccess txn lo hi s) := by
  unfold execFarTierAccess
  dsimp only
  (repeat' split) <;> simp [keeps_iff]

theorem execWcbAgeFlush_keeps (home : Home) (line : Nat) (lo hi : Ecc) (s : State) :
    nextKeeps [.cp, .part, .err, .mgmt, .boot, .cells, .mem, .bytes, .larder, .trans, .attic, .chord, .fresh,
    .out] s (execWcbAgeFlush home line lo hi s) := by
  unfold execWcbAgeFlush
  split <;> simp [keeps_iff]

theorem execFarDeviceFailed_keeps (port device : Nat) (s : State) :
    nextKeeps [.cp, .err, .mgmt, .mem, .larder, .out] s (execFarDeviceFailed port device s) := by
  unfold execFarDeviceFailed
  extract_lets mine u v w
  have hu : keeps [.cp, .err, .mgmt, .mem, .larder, .out] s u := by simp [u, keeps_iff]
  have hv : keeps [.cp, .err, .mgmt, .mem, .larder, .out] u v := by
    refine forEach_keeps _ _ fun s e => ?_
    split
    · split <;> simp [keeps_iff]
    · exact .refl ..
  split
  · simp
  · exact .of_keeps ((hu.trans hv).trans (by simp [w, keeps_iff]))

theorem execShelfChannelRetrain_keeps (shelf channel : Nat) (s : State) :
    nextKeeps [.mem] s (execShelfChannelRetrain shelf channel s) := by
  simp [keeps_iff, execShelfChannelRetrain]

theorem execShelfChannelRetrained_keeps (shelf channel : Nat) (ok : Bool) (s : State) :
    nextKeeps [.cp, .err, .mgmt, .mem, .out] s (execShelfChannelRetrained shelf channel ok s) := by
  simp [keeps_iff, execShelfChannelRetrained]

theorem execMasterPortIssue_keeps (master : Nat) (s : State) :
    nextKeeps [.cp, .err, .mgmt, .mem, .reg, .attic, .chord, .fresh, .out] s (execMasterPortIssue master s) := by
  unfold execMasterPortIssue
  split
  · simp
  · split
    · simp
    · split
      · simp [keeps_iff]
      · split <;> rename_i h
        · exact .of_keeps (keeps_of_eq h (by simp [keeps_iff]))
        · simp [keeps_iff]
      · simp [keeps_iff]

/-- What the completion of a transaction may touch. -/
def completionTouches : List Component :=
  [.cp, .part, .err, .pwr, .mgmt, .boot, .cells, .mem, .bytes, .larder, .reg, .trans, .attic, .chord, .fresh, .out]

theorem execTransactionCompletionReturn_keeps (txn : Nat) (s : State) :
    nextKeeps [.cp, .part, .err, .pwr, .mgmt, .boot, .cells, .mem, .bytes, .larder, .reg, .trans, .attic, .chord,
    .fresh, .out] s (execTransactionCompletionReturn txn s) := by
  unfold execTransactionCompletionReturn
  split
  · simp
  · rename_i t _
    extract_lets finish
    have hfin (s : State) : keeps completionTouches s (finish s) := by
      unfold finish
      dsimp only
      split
      · exact .refl ..
      · split
        · exact .refl ..
        · simp [keeps_iff, completionTouches]
    split
    · exact .of_keeps (hfin s)
    · split
      · simp
      · split
        · split
          · exact .of_keeps (.trans (by simp [keeps_iff]) (hfin _))
          · exact .of_keeps (.trans (by simp [keeps_iff]) (hfin _))
        · split <;> rename_i h
          · exact .of_keeps (keeps_of_eq h (by simp [keeps_iff]))
          · refine .trans_next (keeps_of_eq h (by simp [keeps_iff])) ?_
            split <;> rename_i h
            · exact .of_keeps (keeps_of_eq h (by simp [keeps_iff]))
            · exact .of_keeps (.trans (keeps_of_eq h (by simp [keeps_iff])) (.trans (by simp [keeps_iff]) (hfin _)))
        · exact .of_keeps (.trans (by simp [keeps_iff]) (hfin _))
        · simp
        · exact .of_keeps (.trans (by simp [keeps_iff]) (hfin _))

theorem execGuaranteeMiss_keeps (txn : Nat) (atShelf : Bool) (cycles : Nat) (s : State) :
    nextKeeps [.mem, .reg] s (execGuaranteeMiss txn atShelf cycles s) := by
  unfold execGuaranteeMiss
  (repeat' split) <;> simp [keeps_iff]

theorem execNocHeaderFlitTimeout_keeps (txn : Nat) (s : State) :
    nextKeeps [.mem] s (execNocHeaderFlitTimeout txn s) := by
  unfold execNocHeaderFlitTimeout
  split <;> simp [keeps_iff]

theorem execRdShared_keeps (site : Nat) (m : AtpMsg) (s : State) :
    nextKeeps [.cp, .err, .mgmt, .cells, .mem, .reg, .attic, .out] s (execRdShared site m s) := by
  simp [keeps_iff, execRdShared]

theorem execRdOwn_keeps (site : Nat) (m : AtpMsg) (s : State) :
    nextKeeps [.cp, .err, .mgmt, .cells, .mem, .reg, .attic, .out] s (execRdOwn site m s) := by
  simp [keeps_iff, execRdOwn]

theorem execRdNc_keeps (site : Nat) (m : AtpMsg) (host : Fetch) (s : State) :
    nextKeeps [.cp, .err, .mgmt, .boot, .cells, .mem, .reg, .trans, .attic, .out] s (execRdNc site m host s) := by
  simp [keeps_iff, execRdNc]

theorem execWrNc_keeps (site : Nat) (m : AtpMsg) (s : State) :
    nextKeeps [.cp, .err, .mgmt, .cells, .mem, .reg, .trans, .attic, .out] s (execWrNc site m s) := by
  simp [keeps_iff, execWrNc]

theorem execWbDirty_keeps (site : Nat) (m : AtpMsg) (s : State) :
    nextKeeps [.cp, .err, .mgmt, .cells, .mem, .reg, .attic, .out] s (execWbDirty site m s) := by
  simp [keeps_iff, execWbDirty]

theorem execEvictClean_keeps (site : Nat) (m : AtpMsg) (s : State) :
    nextKeeps [.cp, .err, .mgmt, .cells, .mem, .reg, .attic, .out] s (execEvictClean site m s) := by
  simp [keeps_iff, execEvictClean]

theorem execAtpAtomic_keeps (site : Nat) (m : AtpMsg) (s : State) :
    nextKeeps [.cp, .err, .mgmt, .cells, .mem, .reg, .attic, .out] s (execAtpAtomic site m s) := by
  simp [keeps_iff, execAtpAtomic]

theorem execPegOp_keeps (site : Nat) (m : AtpMsg) (s : State) :
    nextKeeps [.cp, .cells, .larder, .reg, .trans, .attic, .chord, .fresh, .out] s (execPegOp site m s) := by
  simp [keeps_iff, execPegOp]

theorem execAtpStepDone_keeps (site : Nat) (m : AtpMsg) (s : State) :
    nextKeeps [.cp, .cells, .larder, .reg, .trans, .attic, .chord, .out] s (execAtpStepDone site m s) := by
  simp [keeps_iff, execAtpStepDone]

theorem execStepSaved_keeps (site : Nat) (m : AtpMsg) (s : State) :
    nextKeeps [.larder, .reg, .attic] s (execStepSaved site m s) := by
  simp [keeps_iff, execStepSaved]

theorem execPowerReport_keeps (site value : Nat) (s : State) :
    nextKeeps [.pwr, .attic] s (execPowerReport site value s) := by
  simp [keeps_iff, execPowerReport]

theorem execUrgency_keeps (site : Nat) (m : AtpMsg) (s : State) :
    nextKeeps [.reg, .attic] s (execUrgency site m s) := by
  simp [keeps_iff, execUrgency]

theorem execSnpRsp_keeps (site : Nat) (m : AtpMsg) (s : State) :
    nextKeeps [.cells, .mem, .bytes, .reg, .attic, .out] s (execSnpRsp site m s) := by
  simp [keeps_iff, execSnpRsp]

theorem execAtpRsp_keeps (site : Nat) (m : AtpMsg) (s : State) :
    nextKeeps [.cp, .err, .mgmt, .mem, .reg, .attic, .out] s (execAtpRsp site m s) := by
  simp [keeps_iff, execAtpRsp]

theorem execDieCap_keeps (site : Nat) (cap : DieCap) (test : LaneTest) (s : State) :
    nextKeeps [.cp, .part, .err, .pwr, .mgmt, .boot, .cells, .mem, .bytes, .larder, .reg, .trans, .attic, .chord,
    .fresh, .out] s (execDieCap site cap test s) := by
  simp [keeps_iff, execDieCap]

theorem execLaneMap_keeps (site : Nat) (m : LaneMapIn) (test : LaneTest) (s : State) :
    nextKeeps [.cp, .part, .err, .mgmt, .boot, .cells, .mem, .bytes, .larder, .trans, .attic, .chord, .fresh,
    .out] s (execLaneMap site m test s) := by
  simp [keeps_iff, execLaneMap]

theorem execHeartbeat_keeps (site epoch : Nat) (s : State) :
    nextKeeps [.cp, .err, .mgmt, .boot, .cells, .mem, .bytes, .larder, .trans, .attic, .chord, .fresh, .out] s
    (execHeartbeat site epoch s) := by
  simp [keeps_iff, execHeartbeat]

theorem execResetReq_keeps (site : Nat) (s : State) :
    nextKeeps [.cp, .err, .mgmt, .boot, .cells, .mem, .bytes, .larder, .trans, .attic, .chord, .fresh, .out] s
    (execResetReq site s) := by
  simp [keeps_iff, execResetReq]

theorem execAtticSidebandTimeout_keeps (site : Nat) (s : State) :
    nextKeeps [.cp, .part, .err, .mgmt, .boot, .cells, .mem, .bytes, .larder, .trans, .attic, .chord, .fresh,
    .out] s (execAtticSidebandTimeout site s) := by
  simp [keeps_iff, execAtticSidebandTimeout]

theorem execAtticLinkDown_keeps (site : Nat) (linkB : Bool) (s : State) :
    nextKeeps [.cp, .err, .mgmt, .boot, .cells, .mem, .larder, .trans, .attic, .chord, .fresh, .out] s
    (execAtticLinkDown site linkB s) := by
  simp [keeps_iff, execAtticLinkDown]

theorem execDieHeartbeatTimeout_keeps (site : Nat) (s : State) :
    nextKeeps [.cp, .err, .mgmt, .boot, .cells, .mem, .bytes, .larder, .trans, .attic, .chord, .fresh, .out] s
    (execDieHeartbeatTimeout site s) := by
  simp [keeps_iff, execDieHeartbeatTimeout]

theorem execDieCreditTimeout_keeps (site : Nat) (s : State) :
    nextKeeps [.cp, .err, .mgmt, .boot, .cells, .mem, .bytes, .larder, .trans, .attic, .chord, .fresh, .out] s
    (execDieCreditTimeout site s) := by
  simp [keeps_iff, execDieCreditTimeout]

theorem execDieSnoopTimeout_keeps (site : Nat) (s : State) :
    nextKeeps [.cp, .err, .mgmt, .boot, .cells, .mem, .bytes, .larder, .trans, .attic, .chord, .fresh, .out] s
    (execDieSnoopTimeout site s) := by
  simp [keeps_iff, execDieSnoopTimeout]

theorem execDieStepTimeout_keeps (site slot : Nat) (s : State) :
    nextKeeps [.cp, .err, .mgmt, .boot, .cells, .mem, .bytes, .larder, .trans, .attic, .chord, .fresh, .out] s
    (execDieStepTimeout site slot s) := by
  simp [keeps_iff, execDieStepTimeout]

theorem execDieCapTimeout_keeps (site : Nat) (s : State) :
    nextKeeps [.cp, .part, .err, .mgmt, .boot, .cells, .mem, .bytes, .larder, .trans, .attic, .chord, .fresh,
    .out] s (execDieCapTimeout site s) := by
  simp [keeps_iff, execDieCapTimeout]

theorem execAtticLinkUp_keeps (site : Nat) (linkB : Bool) (s : State) :
    nextKeeps [.boot, .attic, .out] s (execAtticLinkUp site linkB s) := by
  simp [keeps_iff, execAtticLinkUp]

end Sys2Proof.Machine

end

section

/-! What the link layer and the transport keep; a message of a peer is a body run once (`receive_keeps`). -/

set_option maxRecDepth 4000
set_option exponentiation.threshold 2000

namespace Sys2Proof.Machine

theorem execFlit_keeps (engine : Nat) (f : FlitIn) (s : State) :
    nextKeeps [.time, .cp, .err, .mgmt, .link, .chord, .out] s (execFlit engine f s) := by
  simp [keeps_iff, execFlit]

theorem execReplayTimeout_keeps (engine : Nat) (s : State) :
    nextKeeps [.time, .cp, .err, .mgmt, .link, .chord, .out] s (execReplayTimeout engine s) := by
  simp [keeps_iff, execReplayTimeout]

theorem execFlitKeepalive_keeps (engine : Nat) (s : State) :
    nextKeeps [.chord, .out] s (execFlitKeepalive engine s) := by
  simp [keeps_iff, execFlitKeepalive]

theorem execLlCap_keeps (engine : Nat) (c : LlCap) (s : State) :
    nextKeeps [.cp, .err, .mgmt, .chord, .fresh, .out] s (execLlCap engine c s) := by
  simp [keeps_iff, execLlCap]

theorem execKeyHello_keeps (engine node : Nat) (v : KeyVerdict) (s : State) :
    nextKeeps [.cp, .err, .mgmt, .chord, .out] s (execKeyHello engine node v s) := by
  simp [keeps_iff, execKeyHello]

theorem execKeyFinish_keeps (engine : Nat) (v : KeyVerdict) (s : State) :
    nextKeeps [.cp, .err, .mgmt, .chord, .out] s (execKeyFinish engine v s) := by
  simp [keeps_iff, execKeyFinish]

theorem execKeyUpdate_keeps (engine count : Nat) (s : State) :
    nextKeeps [.chord] s (execKeyUpdate engine count s) := by
  simp [keeps_iff, execKeyUpdate]

theorem execKeyUpdateTrigger_keeps (engine : Nat) (s : State) :
    nextKeeps [.chord, .out] s (execKeyUpdateTrigger engine s) := by
  simp [keeps_iff, execKeyUpdateTrigger]

theorem execRouteAdv_keeps (engine : Nat) (nodes : List (Nat × Nat)) (s : State) :
    nextKeeps [.chord, .out] s (execRouteAdv engine nodes s) := by
  simp [keeps_iff, execRouteAdv]

theorem execRouteAgeOut_keeps (engine node : Nat) (s : State) :
    nextKeeps [.chord, .out] s (execRouteAgeOut engine node s) := by
  simp [keeps_iff, execRouteAgeOut]

theorem execForward_keeps (engine : Nat) (p : Packet) (s : State) :
    nextKeeps [.reg, .chord, .out] s (execForward engine p s) := by
  unfold execForward
  dsimp only
  (repeat' split) <;> simp [keeps_iff]

theorem execInit_keeps (engine ipv6 remoteId : Nat) (v : KeyVerdict) (s : State) :
    nextKeeps [.chord, .out] s (execInit engine ipv6 remoteId v s) := by
  unfold execInit
  dsimp only
  (repeat' split) <;> simp [keeps_iff]

theorem execResp_keeps (engine assoc remoteId : Nat) (v : KeyVerdict) (s : State) :
    nextKeeps [.chord, .fresh, .out] s (execResp engine assoc remoteId v s) := by
  unfold execResp
  (repeat' split) <;> simp [keeps_iff]

theorem execConfirm_keeps (engine assoc : Nat) (v : KeyVerdict) (s : State) :
    nextKeeps [.chord, .fresh, .out] s (execConfirm engine assoc v s) := by
  unfold execConfirm
  (repeat' split) <;> simp [keeps_iff]

theorem execHandshakeRetry_keeps (assoc : Nat) (s : State) :
    nextKeeps [.chord, .out] s (execHandshakeRetry assoc s) := by
  unfold execHandshakeRetry
  split <;> simp [keeps_iff]

theorem execAssociationRenewal_keeps (assoc : Nat) (s : State) :
    nextKeeps [.chord, .out] s (execAssociationRenewal assoc s) := by
  unfold execAssociationRenewal
  (repeat' split) <;> simp [keeps_iff]

theorem execNeighbourSolicitation_keeps (engine port target : Nat) (s : State) :
    nextKeeps [.out] s (execNeighbourSolicitation engine port target s) := by
  simp [keeps_iff, execNeighbourSolicitation]

theorem execEchoRequest_keeps (engine port target : Nat) (s : State) :
    nextKeeps [.out] s (execEchoRequest engine port target s) := by
  simp [keeps_iff, execEchoRequest]

theorem execChordWrite_keeps (engine : Nat) (p : Packet) (s : State) :
    nextKeeps [.cp, .part, .err, .mgmt, .cells, .mem, .chord, .fresh, .out] s (execChordWrite engine p s) := by
  unfold execChordWrite
  refine .of_keeps (receive_keeps (by simp) fun s e => ?_)
  dsimp only
  (repeat' split) <;> simp [keeps_iff]

theorem execReadReq_keeps (engine : Nat) (p : Packet) (s : State) :
    nextKeeps [.cp, .part, .err, .mgmt, .cells, .mem, .chord, .fresh, .out] s (execReadReq engine p s) := by
  unfold execReadReq
  refine .of_keeps (receive_keeps (by simp) fun s e => ?_)
  dsimp only
  (repeat' split) <;> simp [keeps_iff]

theorem execReadRsp_keeps (engine : Nat) (p : Packet) (s : State) :
    nextKeeps [.cp, .err, .mgmt, .cells, .mem, .bytes, .larder, .trans, .attic, .chord, .fresh, .out] s
    (execReadRsp engine p s) := by
  unfold execReadRsp
  refine .of_keeps (receive_keeps (by simp) fun s e => ?_)
  split
  · simp
  · dsimp only
    split
    · split
      · simp [keeps_iff]
      · split <;> rename_i h
        · refine (keeps_of_eq h (by simp [keeps_iff])).trans_fst ?_
          split <;> simp [keeps_iff]
        · exact (keeps_of_eq h (by simp [keeps_iff])).trans_fst (by simp [keeps_iff])
    · simp [keeps_iff]
    · simp

theorem execChordAtomic_keeps (engine : Nat) (p : Packet) (s : State) :
    nextKeeps [.cp, .part, .err, .mgmt, .cells, .mem, .chord, .fresh, .out] s (execChordAtomic engine p s) := by
  unfold execChordAtomic
  refine .of_keeps (receive_keeps (by simp) fun s e => ?_)
  dsimp only
  (repeat' split) <;> simp [keeps_iff]

theorem execAtomicRsp_keeps (engine : Nat) (p : Packet) (s : State) :
    nextKeeps [.cp, .err, .mgmt, .mem, .chord, .fresh, .out] s (execAtomicRsp engine p s) := by
  unfold execAtomicRsp
  refine .of_keeps (receive_keeps (by simp) fun s e => ?_)
  dsimp only
  (repeat' split) <;> simp [keeps_iff]

theorem execChordPeg_keeps (engine : Nat) (p : Packet) (s : State) :
    nextKeeps [.cp, .part, .err, .mgmt, .cells, .larder, .reg, .trans, .attic, .chord, .fresh, .out] s
    (execChordPeg engine p s) := by
  unfold execChordPeg
  refine .of_keeps (receive_keeps (by simp) fun s e => ?_)
  dsimp only
  (repeat' split) <;> simp [keeps_iff]

theorem execDone_keeps (engine : Nat) (p : Packet) (s : State) :
    nextKeeps [.cp, .err, .mgmt, .cells, .mem, .larder, .trans, .attic, .chord, .fresh, .out] s
    (execDone engine p s) := by
  simp [keeps_iff, execDone]

theorem execStep_keeps (engine : Nat) (p : Packet) (s : State) :
    nextKeeps [.cp, .err, .mgmt, .cells, .mem, .bytes, .larder, .reg, .trans, .attic, .chord, .fresh, .out] s
    (execStep engine p s) := by
  unfold execStep
  refine .of_keeps (receive_keeps (by simp) fun s e => ?_)
  dsimp only
  split
  · simp
  · split <;> rename_i h
    · exact (fstKeeps_mk ..).mpr (keeps_of_eq h (by simp [keeps_iff]))
    · refine (keeps_of_eq h (by simp [keeps_iff])).trans_fst ?_
      (repeat' split) <;> simp [keeps_iff]

theorem execStepCancel_keeps (engine : Nat) (p : Packet) (s : State) :
    nextKeeps [.cp, .err, .mgmt, .cells, .mem, .bytes, .larder, .reg, .trans, .attic, .chord, .fresh, .out] s
    (execStepCancel engine p s) := by
  unfold execStepCancel
  refine .of_keeps (receive_keeps (by simp) fun s e => ?_)
  (repeat' split) <;> simp [keeps_iff]

theorem execStepDone_keeps (engine : Nat) (p : Packet) (s : State) :
    nextKeeps [.cp, .err, .mgmt, .larder, .chord, .fresh, .out] s (execStepDone engine p s) := by
  unfold execStepDone
  refine .of_keeps (receive_keeps (by simp) fun s e => ?_)
  dsimp only
  (repeat' split) <;> simp [keeps_iff]

theorem execColl_keeps (engine : Nat) (p : Packet) (s : State) :
    nextKeeps [.cp, .err, .mgmt, .cells, .mem, .bytes, .larder, .chord, .fresh, .out] s (execColl engine p s) := by
  unfold execColl
  refine .of_keeps (receive_keeps (by simp) fun s e => ?_)
  dsimp only
  split
  · simp [keeps_iff]
  · split
    · simp [keeps_iff]
    · split
      · simp [keeps_iff]
      · split <;> rename_i h
        · exact (fstKeeps_mk ..).mpr (keeps_of_eq h (by simp [keeps_iff]))
        · refine (keeps_of_eq h (by simp [keeps_iff])).trans_fst ?_
          split <;> simp [keeps_iff]

theorem execAck_keeps (engine : Nat) (p : Packet) (a : AckIn) (s : State) :
    nextKeeps [.cp, .err, .mgmt, .chord, .fresh, .out] s (execAck engine p a s) := by
  simp [keeps_iff, execAck]

theorem execNack_keeps (engine : Nat) (p : Packet) (s : State) :
    nextKeeps [.cp, .err, .mgmt, .cells, .mem, .larder, .trans, .attic, .chord, .fresh, .out] s
    (execNack engine p s) := by
  simp [keeps_iff, execNack]

theorem execAckTimer_keeps (peer : Nat) (s : State) :
    nextKeeps [.chord, .out] s (execAckTimer peer s) := by
  simp [keeps_iff, execAckTimer]

theorem execRetransmissionTimeout_keeps (peer psn : Nat) (s : State) :
    nextKeeps [.chord, .out] s (execRetransmissionTimeout peer psn s) := by
  simp [keeps_iff, execRetransmissionTimeout]

theorem execBusyBackoffExpiry_keeps (peer msg : Nat) (s : State) :
    nextKeeps [.chord, .out] s (execBusyBackoffExpiry peer msg s) := by
  unfold execBusyBackoffExpiry
  split <;> simp [keeps_iff]

theorem execPeerUnreachable_keeps (peer : Nat) (s : State) :
    nextKeeps [.cp, .err, .mgmt, .cells, .mem, .larder, .trans, .attic, .chord, .fresh, .out] s
    (execPeerUnreachable peer s) := by
  unfold execPeerUnreachable
  split <;> simp [keeps_iff]

theorem execUnreachableEnd_keeps (peer : Nat) (s : State) :
    nextKeeps [.chord] s (execUnreachableEnd peer s) := by
  simp [keeps_iff, execUnreachableEnd]

end Sys2Proof.Machine

end

section

/-! The frame of every command (00 R10, 01 R21). -/

set_option maxRecDepth 4000
set_option exponentiation.threshold 2000

namespace Sys2Proof.Machine

/-- Every command keeps what its list does not name. -/
theorem exec_keeps (i : Instr) (s : State) : nextKeeps (changes i) s (exec i s) := by
  cases i with
  | doorbellPost m => exact execDoorbellPost_keeps m s
  | doorbellAbort m => exact execDoorbellAbort_keeps m s
  | doorbellRelease m => exact execDoorbellRelease_keeps m s
  | doorbellIgnoredAction m action => exact execDoorbellIgnoredAction_keeps m action s
  | cpTakeMailbox inp => exact execCpTakeMailbox_keeps inp s
  | hello c => exact execHello_keeps c s
  | eqCreate c => exact execEqCreate_keeps c s
  | eqDestroy c => exact execEqDestroy_keeps c s
  | eqDestroyDrained seq => exact execEqDestroyDrained_keeps seq s
  | partitionCreate c => exact execPartitionCreate_keeps c s
  | partitionTransitionDone p => exact execPartitionTransitionDone_keeps p s
  | partitionDestroy c => exact execPartitionDestroy_keeps c s
  | partitionDestroyDone p => exact execPartitionDestroyDone_keeps p s
  | partitionReset c => exact execPartitionReset_keeps c s
  | partitionQuery c wb => exact execPartitionQuery_keeps c wb s
  | partitionPolicySet c => exact execPartitionPolicySet_keeps c s
  | imageLoad c inp => exact execImageLoad_keeps c inp s
  | imageChunkBitmap image core bitmap => exact execImageChunkBitmap_keeps image core bitmap s
  | coreDigestCheckDone image core ok => exact execCoreDigestCheckDone_keeps image core ok s
  | modelBind c => exact execModelBind_keeps c s
  | modelBindSeDone seq r => exact execModelBindSeDone_keeps seq r s
  | modelUnbind c => exact execModelUnbind_keeps c s
  | seqOpen c => exact execSeqOpen_keeps c s
  | seqClose c => exact execSeqClose_keeps c s
  | seqCloseComplete entry => exact execSeqCloseComplete_keeps entry s
  | stepSubmit c => exact execStepSubmit_keeps c s
  | mapHost c => exact execMapHost_keeps c s
  | unmapHost c => exact execUnmapHost_keeps c s
  | unmapHostDrained seq => exact execUnmapHostDrained_keeps seq s
  | faultRespond c => exact execFaultRespond_keeps c s
  | peerWindowSet c => exact execPeerWindowSet_keeps c s
  | peerWindowClear c => exact execPeerWindowClear_keeps c s
  | peerWindowClearDrained seq => exact execPeerWindowClearDrained_keeps seq s
  | peerAdmitSet c => exact execPeerAdmitSet_keeps c s
  | linkQuery c => exact execLinkQuery_keeps c s
  | linkRetrain c => exact execLinkRetrain_keeps c s
  | linkModeSet c => exact execLinkModeSet_keeps c s
  | qosSet c => exact execQosSet_keeps c s
  | timeQuery c => exact execTimeQuery_keeps c s
  | timePeriodSet c => exact execTimePeriodSet_keeps c s
  | timeRoleSet c => exact execTimeRoleSet_keeps c s
  | timeBackgroundSet c => exact execTimeBackgroundSet_keeps c s
  | powerQuery c => exact execPowerQuery_keeps c s
  | powerCapSet c => exact execPowerCapSet_keeps c s
  | powerDomainSet c => exact execPowerDomainSet_keeps c s
  | attest c ok wb => exact execAttest_keeps c ok wb s
  | fwStage c image => exact execFwStage_keeps c image s
  | fwActivate c => exact execFwActivate_keeps c s
  | fwActivateSwitch => exact execFwActivateSwitch_keeps s
  | eqConsumerWrite q index arm => exact execEqConsumerWrite_keeps q index arm s
  | msixTableWrite v word value => exact execMsixTableWrite_keeps v word value s
  | shelfRepairSoft shelf row => exact execShelfRepairSoft_keeps shelf row s
  | softRepairDone shelf bad => exact execSoftRepairDone_keeps shelf bad s
  | shelfRepairHard shelf row => exact execShelfRepairHard_keeps shelf row s
  | shelfRepairCancelHard shelf row => exact execShelfRepairCancelHard_keeps shelf row s
  | lcVariant sigOk => exact execLcVariant_keeps sigOk s
  | lcLifecycle sigOk => exact execLcLifecycle_keeps sigOk s
  | lcAntiRollback sigOk => exact execLcAntiRollback_keeps sigOk s
  | lcAtticRepairMap sigOk => exact execLcAtticRepairMap_keeps sigOk s
  | lcAtticProfile sigOk => exact execLcAtticProfile_keeps sigOk s
  | pwrCmpWrite k value => exact execPwrCmpWrite_keeps k value s
  | registerWrite addr size value => exact execRegisterWrite_keeps addr size value s
  | bar2Access kind addr data => exact execBar2Access_keeps kind addr data s
  | mbRequest msg => exact execMbRequest_keeps msg s
  | eventAck seq => exact execEventAck_keeps seq s
  | regRead addr size => exact execRegRead_keeps addr size s
  | regWrite addr size value => exact execRegWrite_keeps addr size value s
  | deviceReset inp => exact execDeviceReset_keeps inp s
  | getVersion m => exact execGetVersion_keeps m s
  | getCapabilities m => exact execGetCapabilities_keeps m s
  | negotiateAlgorithms m => exact execNegotiateAlgorithms_keeps m s
  | getDigests m => exact execGetDigests_keeps m s
  | getCertificate m => exact execGetCertificate_keeps m s
  | challenge m => exact execChallenge_keeps m s
  | getMeasurements m => exact execGetMeasurements_keeps m s
  | keyExchange m => exact execKeyExchange_keeps m s
  | finish m => exact execFinish_keeps m s
  | spdmKeyUpdate m => exact execSpdmKeyUpdate_keeps m s
  | spdmHeartbeat m => exact execSpdmHeartbeat_keeps m s
  | endSession m => exact execEndSession_keeps m s
  | setEndpointId eid => exact execSetEndpointId_keeps eid s
  | pldmSensorRead id => exact execPldmSensorRead_keeps id s
  | updateComponent image => exact execUpdateComponent_keeps image s
  | activateFirmware => exact execActivateFirmware_keeps s
  | nop insn => exact execNop_keeps insn s
  | bra insn offset => exact execBra_keeps insn offset s
  | brx insn sa offset table => exact execBrx_keeps insn sa offset table s
  | split insn slot => exact execSplit_keeps insn slot s
  | join insn slot => exact execJoin_keeps insn slot s
  | exit insn => exact execExit_keeps insn s
  | yield insn => exact execYield_keeps insn s
  | shflIdx insn f dst sa sb sc => exact execShflIdx_keeps insn f dst sa sb sc s
  | shflUp insn f dst sa sb sc => exact execShflUp_keeps insn f dst sa sb sc s
  | shflDown insn f dst sa sb sc => exact execShflDown_keeps insn f dst sa sb sc s
  | shflXor insn f dst sa sb sc => exact execShflXor_keeps insn f dst sa sb sc s
  | voteAll insn dst pin inv sc => exact execVoteAll_keeps insn dst pin inv sc s
  | voteAny insn dst pin inv sc => exact execVoteAny_keeps insn dst pin inv sc s
  | voteBallot insn dst pin inv sc => exact execVoteBallot_keeps insn dst pin inv sc s
  | match32 insn dst sa sc => exact execMatch32_keeps insn dst sa sc s
  | match64 insn dst sa sc => exact execMatch64_keeps insn dst sa sc s
  | atomAdd insn f dst sa sb => exact execAtomAdd_keeps insn f dst sa sb s
  | atomMin insn f dst sa sb => exact execAtomMin_keeps insn f dst sa sb s
  | atomMax insn f dst sa sb => exact execAtomMax_keeps insn f dst sa sb s
  | atomAnd insn f dst sa sb => exact execAtomAnd_keeps insn f dst sa sb s
  | atomOr insn f dst sa sb => exact execAtomOr_keeps insn f dst sa sb s
  | atomXor insn f dst sa sb => exact execAtomXor_keeps insn f dst sa sb s
  | atomExch insn f dst sa sb => exact execAtomExch_keeps insn f dst sa sb s
  | atomCas insn f dst sa sb sc => exact execAtomCas_keeps insn f dst sa sb sc s
  | atomInc insn f dst sa sb => exact execAtomInc_keeps insn f dst sa sb s
  | pegArrive insn f dst sa sb => exact execPegArrive_keeps insn f dst sa sb s
  | pegWait insn f sa sb => exact execPegWait_keeps insn f sa sb s
  | pegSignal insn f dst sa sb => exact execPegSignal_keeps insn f dst sa sb s
  | pegReset insn f sa => exact execPegReset_keeps insn f sa s
  | pegRead insn f dst sa => exact execPegRead_keeps insn f dst sa s
  | fence insn scope order => exact execFence_keeps insn scope order s
  | releaseWritebackAcked core release => exact execReleaseWritebackAcked_keeps core release s
  | mregionBegin insn sc endOffset => exact execMregionBegin_keeps insn sc endOffset s
  | mregionEnd insn => exact execMregionEnd_keeps insn s
  | mzero insn => exact execMzero_keeps insn s
  | anchor insn sa auto => exact execAnchor_keeps insn sa auto s
  | mma insn f sa sb sc => exact execMma_keeps insn f sa sb sc s
  | mexport insn fmt stochastic sa => exact execMexport_keeps insn fmt stochastic sa s
  | mexportWide insn sa => exact execMexportWide_keeps insn sa s
  | intOp insn f wide dst sa sb sc => exact execIntOp_keeps insn f wide dst sa sb sc s
  | fpOp insn f dst sa sb sc => exact execFpOp_keeps insn f dst sa sb sc s
  | cvt insn src dst rd ra se de => exact execCvt_keeps insn src dst rd ra se de s
  | ld insn f dst sa => exact execLd_keeps insn f dst sa s
  | st insn f sa sb => exact execSt_keeps insn f sa sb s
  | mov insn dst src => exact execMov_keeps insn dst src s
  | specialRead insn dst sr => exact execSpecialRead_keeps insn dst sr s
  | loadDataReturn core load => exact execLoadDataReturn_keeps core load s
  | cacheFillArrival at_ => exact execCacheFillArrival_keeps at_ s
  | trackerIdleTimeout cellar tracker => exact execTrackerIdleTimeout_keeps cellar tracker s
  | strumBoundary => exact execStrumBoundary_keeps s
  | fretEdge => exact execFretEdge_keeps s
  | preemptSaveDone core => exact execPreemptSaveDone_keeps core s
  | stepComplete slot => exact execStepComplete_keeps slot s
  | pageMoveLand src => exact execPageMoveLand_keeps src s
  | pageZeroingDone page => exact execPageZeroingDone_keeps page s
  | copy cellar job host => exact execCopy_keeps cellar job host s
  | fill cellar job => exact execFill_keeps cellar job s
  | compress cellar job host => exact execCompress_keeps cellar job host s
  | decompress cellar job host => exact execDecompress_keeps cellar job host s
  | gather cellar job host => exact execGather_keeps cellar job host s
  | clean cellar job => exact execClean_keeps cellar job s
  | inval cellar job => exact execInval_keeps cellar job s
  | cleanInval cellar job => exact execCleanInval_keeps cellar job s
  | wayLock cellar job => exact execWayLock_keeps cellar job s
  | wayUnlock cellar job => exact execWayUnlock_keeps cellar job s
  | put cellar job host => exact execPut_keeps cellar job host s
  | get cellar job => exact execGet_keeps cellar job s
  | signal cellar job => exact execSignal_keeps cellar job s
  | allreduce cellar job => exact execAllreduce_keeps cellar job s
  | alltoall cellar job => exact execAlltoall_keeps cellar job s
  | moverDescriptorDone cellar job => exact execMoverDescriptorDone_keeps cellar job s
  | collectiveTimeout id => exact execCollectiveTimeout_keeps id s
  | routeDispatched slot part => exact execRouteDispatched_keeps slot part s
  | combine slot part => exact execCombine_keeps slot part s
  | shelfAccess txn lo hi => exact execShelfAccess_keeps txn lo hi s
  | farTierAccess txn lo hi => exact execFarTierAccess_keeps txn lo hi s
  | wcbAgeFlush home line lo hi => exact execWcbAgeFlush_keeps home line lo hi s
  | farDeviceFailed port device => exact execFarDeviceFailed_keeps port device s
  | shelfChannelRetrain shelf channel => exact execShelfChannelRetrain_keeps shelf channel s
  | shelfChannelRetrained shelf channel ok => exact execShelfChannelRetrained_keeps shelf channel ok s
  | masterPortIssue master => exact execMasterPortIssue_keeps master s
  | transactionCompletionReturn txn => exact execTransactionCompletionReturn_keeps txn s
  | guaranteeMiss txn atShelf cycles => exact execGuaranteeMiss_keeps txn atShelf cycles s
  | walkEntryRead walk r => exact execWalkEntryRead_keeps walk r s
  | adUpdateCasReturn walk ok => exact execAdUpdateCasReturn_keeps walk ok s
  | faultTimeout entry => exact execFaultTimeout_keeps entry s
  | unmapFlushReadDone use => exact execUnmapFlushReadDone_keeps use s
  | eqCoalesceTimer q => exact execEqCoalesceTimer_keeps q s
  | eqRecordWrite q ok => exact execEqRecordWrite_keeps q ok s
  | rdShared site m => exact execRdShared_keeps site m s
  | rdOwn site m => exact execRdOwn_keeps site m s
  | rdNc site m host => exact execRdNc_keeps site m host s
  | wrNc site m => exact execWrNc_keeps site m s
  | wbDirty site m => exact execWbDirty_keeps site m s
  | evictClean site m => exact execEvictClean_keeps site m s
  | atpAtomic site m => exact execAtpAtomic_keeps site m s
  | pegOp site m => exact execPegOp_keeps site m s
  | atpStepDone site m => exact execAtpStepDone_keeps site m s
  | stepSaved site m => exact execStepSaved_keeps site m s
  | powerReport site value => exact execPowerReport_keeps site value s
  | urgency site m => exact execUrgency_keeps site m s
  | snpRsp site m => exact execSnpRsp_keeps site m s
  | atpRsp site m => exact execAtpRsp_keeps site m s
  | dieCap site cap test => exact execDieCap_keeps site cap test s
  | laneMap site m test => exact execLaneMap_keeps site m test s
  | heartbeat site epoch => exact execHeartbeat_keeps site epoch s
  | resetReq site => exact execResetReq_keeps site s
  | atticSidebandTimeout site => exact execAtticSidebandTimeout_keeps site s
  | atticLinkDown site linkB => exact execAtticLinkDown_keeps site linkB s
  | dieHeartbeatTimeout site => exact execDieHeartbeatTimeout_keeps site s
  | dieCreditTimeout site => exact execDieCreditTimeout_keeps site s
  | dieSnoopTimeout site => exact execDieSnoopTimeout_keeps site s
  | dieStepTimeout site slot => exact execDieStepTimeout_keeps site slot s
  | markerReceived engine m => exact execMarkerReceived_keeps engine m s
  | laneLoss engine lane reason => exact execLaneLoss_keeps engine lane reason s
  | trainingTimeout engine => exact execTrainingTimeout_keeps engine s
  | ethPortLaneLoss engine lane => exact execEthPortLaneLoss_keeps engine lane s
  | timeWordTimeout engine => exact execTimeWordTimeout_keeps engine s
  | holdoverTimeout => exact execHoldoverTimeout_keeps s
  | ptpMessage engine m domain => exact execPtpMessage_keeps engine m domain s
  | flit engine f => exact execFlit_keeps engine f s
  | replayTimeout engine => exact execReplayTimeout_keeps engine s
  | flitKeepalive engine => exact execFlitKeepalive_keeps engine s
  | llCap engine c => exact execLlCap_keeps engine c s
  | keyHello engine node v => exact execKeyHello_keeps engine node v s
  | keyFinish engine v => exact execKeyFinish_keeps engine v s
  | keyUpdate engine count => exact execKeyUpdate_keeps engine count s
  | keyUpdateTrigger engine => exact execKeyUpdateTrigger_keeps engine s
  | routeAdv engine nodes => exact execRouteAdv_keeps engine nodes s
  | routeAgeOut engine node => exact execRouteAgeOut_keeps engine node s
  | forward engine p => exact execForward_keeps engine p s
  | chordWrite engine p => exact execChordWrite_keeps engine p s
  | readReq engine p => exact execReadReq_keeps engine p s
  | readRsp engine p => exact execReadRsp_keeps engine p s
  | chordAtomic engine p => exact execChordAtomic_keeps engine p s
  | atomicRsp engine p => exact execAtomicRsp_keeps engine p s
  | chordPeg engine p => exact execChordPeg_keeps engine p s
  | done engine p => exact execDone_keeps engine p s
  | step engine p => exact execStep_keeps engine p s
  | stepCancel engine p => exact execStepCancel_keeps engine p s
  | stepDone engine p => exact execStepDone_keeps engine p s
  | coll engine p => exact execColl_keeps engine p s
  | ack engine p a => exact execAck_keeps engine p a s
  | nack engine p => exact execNack_keeps engine p s
  | ackTimer peer => exact execAckTimer_keeps peer s
  | retransmissionTimeout peer psn => exact execRetransmissionTimeout_keeps peer psn s
  | busyBackoffExpiry peer msg => exact execBusyBackoffExpiry_keeps peer msg s
  | peerUnreachable peer => exact execPeerUnreachable_keeps peer s
  | unreachableEnd peer => exact execUnreachableEnd_keeps peer s
  | init engine ipv6 remoteId v => exact execInit_keeps engine ipv6 remoteId v s
  | resp engine assoc remoteId v => exact execResp_keeps engine assoc remoteId v s
  | confirm engine assoc v => exact execConfirm_keeps engine assoc v s
  | handshakeRetry assoc => exact execHandshakeRetry_keeps assoc s
  | associationRenewal assoc => exact execAssociationRenewal_keeps assoc s
  | neighbourSolicitation engine port target => exact execNeighbourSolicitation_keeps engine port target s
  | echoRequest engine port target => exact execEchoRequest_keeps engine port target s
  | coldReset inp => exact execColdReset_keeps inp s
  | hostLinkTimeout => exact execHostLinkTimeout_keeps s
  | farZeroingDone port decoder => exact execFarZeroingDone_keeps port decoder s
  | hostPerst inp => exact execHostPerst_keeps inp s
  | functionLevelReset inp => exact execFunctionLevelReset_keeps inp s
  | cpWatchdog inp => exact execCpWatchdog_keeps inp s
  | coreHang core => exact execCoreHang_keeps core s
  | sramUncorrectable u => exact execSramUncorrectable_keeps u s
  | retestDone cellar core ok => exact execRetestDone_keeps cellar core ok s
  | leakyBucketLeak kind unit sub => exact execLeakyBucketLeak_keeps kind unit sub s
  | scrubRead at_ ecc endsSegment => exact execScrubRead_keeps at_ ecc endsSegment s
  | scrubSegmentDue structure_ => exact execScrubSegmentDue_keeps structure_ s
  | powerDomainEntryDone d => exact execPowerDomainEntryDone_keeps d s
  | powerDomainOn d ok => exact execPowerDomainOn_keeps d ok s
  | shelfZeroingDone shelf => exact execShelfZeroingDone_keeps shelf s
  | cpIdleTimeout => exact execCpIdleTimeout_keeps s
  | smbusAddressMatch => exact execSmbusAddressMatch_keeps s
  | i3cAddressMatch => exact execI3cAddressMatch_keeps s
  | comparatorAssert k value => exact execComparatorAssert_keeps k value s
  | railFault rail => exact execRailFault_keeps rail s
  | vddAtticFault site => exact execVddAtticFault_keeps site s
  | thermalTrip sensor value => exact execThermalTrip_keeps sensor value s
  | coldResetAssert => exact execColdResetAssert_keeps s
  | sensorsCooled inp => exact execSensorsCooled_keeps inp s
  | vddAtticGood site => exact execVddAtticGood_keeps site s
  | comparatorDeassert k value => exact execComparatorDeassert_keeps k value s
  | cdrLocked engine lane => exact execCdrLocked_keeps engine lane s
  | hostConfigWrite w => exact execHostConfigWrite_keeps w s
  | hostLinkUp l => exact execHostLinkUp_keeps l s
  | nocHeaderFlitTimeout txn => exact execNocHeaderFlitTimeout_keeps txn s
  | fwStageDone ok => exact execFwStageDone_keeps ok s
  | modelUnbindDone model => exact execModelUnbindDone_keeps model s
  | fuseProgrammingDone ok => exact execFuseProgrammingDone_keeps ok s
  | dieCapTimeout site => exact execDieCapTimeout_keeps site s
  | atticLinkUp site linkB => exact execAtticLinkUp_keeps site linkB s
  | sgmiiLinkChange up => exact execSgmiiLinkChange_keeps up s

end Sys2Proof.Machine

end

section

/-! O58: whatever its operands, a command leaves what its list does not name as it was. -/

namespace Sys2Proof

/-- Settles O58: the frame of each command, by the case of the command. -/
theorem everyCommandsFrame : Obligations.EveryCommandsFrame :=
  fun i s t h => Machine.exec_keeps i s t h

end Sys2Proof

end

section

/-! A write of the host to the register space: where it goes, and when at once (00 R10, 03 R60). -/

set_option maxRecDepth 4000
set_option exponentiation.threshold 2000

namespace Sys2Proof.Machine

/-! ### Bytes in order -/

@[simp] theorem leBytes_length (n x : Nat) : (leBytes n x).length = n := by
  induction n generalizing x with
  | zero => rfl
  | succ n ih => simp [leBytes, ih]

theorem leBytes_getD (n x i : Nat) (h : i < n) : (leBytes n x).getD i 0 = BitVec.ofNat 8 (x / 2 ^ (8 * i)) := by
  induction n generalizing x i with
  | zero => omega
  | succ n ih =>
    cases i with
    | zero => simp [leBytes]
    | succ i =>
      have hp : 2 ^ (8 * (i + 1)) = 256 * 2 ^ (8 * i) := by rw [Nat.mul_add, Nat.pow_add]; omega
      simpa [leBytes, hp, Nat.div_div_eq_div_mul] using ih (x / 256) i (by omega)

/-- Only the low `n` bytes of a number are among its first `n` bytes. -/
theorem leBytes_mod (n x i : Nat) (h : i < n) :
    (leBytes n (x % 2 ^ (8 * n))).getD i 0 = BitVec.ofNat 8 (x / 2 ^ (8 * i)) := by
  rw [leBytes_getD _ _ _ h]
  apply BitVec.eq_of_toNat_eq
  have hp : 2 ^ (8 * n) = 2 ^ (8 * i) * 2 ^ (8 * (n - i)) := by rw [← Nat.pow_add]; congr 1; omega
  have hd : 256 ∣ 2 ^ (8 * (n - i)) := by
    rw [show n - i = n - i - 1 + 1 by omega, Nat.mul_add, Nat.pow_add]
    exact ⟨_, Nat.mul_comm _ _⟩
  simp only [BitVec.toNat_ofNat]
  rw [hp, Nat.mod_mul_right_div_self]
  exact Nat.mod_mod_of_dvd _ hd

/-- What a mailbox's area holds after bytes were stored from `o + k` on; a zero byte takes no entry. -/
theorem tget_storeArea (bs : Bytes) (t : Tab Byte) (o k x : Nat) :
    tget ((bs.zipIdx k).foldl (fun t (x : Byte × Nat) => if x.1 = 0 then tdel t (o + x.2) else tset t (o + x.2) x.1) t) x 0 =
      if o + k ≤ x ∧ x < o + k + bs.length then bs.getD (x - (o + k)) 0 else tget t x 0 := by
  induction bs generalizing t k with
  | nil => simp
  | cons b bs ih =>
    rw [List.zipIdx_cons, List.foldl_cons, ih]
    have hb : tget (if b = 0 then tdel t (o + k) else tset t (o + k) b) x 0 = if x = o + k then b else tget t x 0 := by
      by_cases h0 : b = 0
      · rw [if_pos h0]
        by_cases hx : x = o + k <;> simp [hx, h0, tget]
      · rw [if_neg h0]
        by_cases hx : x = o + k <;> simp [hx, tget]
    simp only [hb]
    by_cases hx : x = o + k
    · subst hx
      simp
    · by_cases hin : o + (k + 1) ≤ x ∧ x < o + (k + 1) + bs.length
      · have : x - (o + k) = x - (o + (k + 1)) + 1 := by omega
        have h' : o + k ≤ x ∧ x < o + k + (b :: bs).length := by simp; omega
        rw [if_pos hin, if_pos h', this]
        simp
      · have h' : ¬ (o + k ≤ x ∧ x < o + k + (b :: bs).length) := by simp; omega
        rw [if_neg hin, if_neg hx, if_neg h']

/-! ### Where a write goes -/

/-- No write waits, and this one is no doorbell behind a posted write: it takes effect at once. -/
theorem postWrite_at_once {s : State} {o n value : Nat} {now : State → State} (hq : s.mem.heldDoorbells = [])
    (hd : isDoorbell o = false ∨ hostWritesOut s = false) : postWrite s o n value now = now s := by
  have : (isDoorbell o && hostWritesOut s) = false := by obtain h | h := hd <;> simp [h]
  simp [postWrite, hq, this]

theorem isDoorbell_eq_false {o : Nat} (h : o < 0x100000 ∨ 0x140000 ≤ o ∨ o % 0x1000 ≠ 0xF48) : isDoorbell o = false := by
  simp [isDoorbell]
  omega

theorem hostWrite_outside (s : State) {o : Nat} (n value : Nat) (hm : ¬ (0x100000 ≤ o ∧ o < 0x140000))
    (hc : ¬ (0x200000 ≤ o ∧ o < 0x208000)) (hv : ¬ (0x300000 ≤ o ∧ o < 0x308000)) : hostWrite s o n value = s := by
  unfold hostWrite
  dsimp only
  rw [if_neg (by simpa using hm), if_neg (by simpa using hc), if_neg (by simpa using hv)]

theorem hostWrite_mailbox (s : State) {m o : Nat} (n value : Nat) (hm : m < 64) (ho : o < 0xC00) :
    hostWrite s (0x100000 + m * 0x1000 + o) n value = mailboxWrite s m o n value := by
  have h1 : (0x100000 + m * 0x1000 + o - 0x100000) / 0x1000 = m := by omega
  have h2 : (0x100000 + m * 0x1000 + o) % 0x1000 = o := by omega
  unfold hostWrite
  dsimp only
  rw [if_pos (by simp; omega), h1, h2, if_pos ho]

theorem hostWrite_doorbell (s : State) {m : Nat} (value : Nat) (hm : m < 64) :
    hostWrite s (0x100F48 + m * 0x1000) 8 value = doorbell s m (value % 256) := by
  have h1 : (0x100F48 + m * 0x1000 - 0x100000) / 0x1000 = m := by omega
  have h2 : (0x100F48 + m * 0x1000) % 0x1000 = 0xF48 := by omega
  unfold hostWrite
  dsimp only
  rw [if_pos (by simp; omega), h1, h2, if_neg (by omega), if_pos ⟨rfl, rfl⟩]

theorem hostWrite_consumer (s : State) {q : Nat} (value : Nat) (hq : q < 512) :
    hostWrite s (0x200000 + q * 0x40) 8 value = consumerWrite s q (value % 2 ^ 32) (bitAt value 32) := by
  have h1 : (0x200000 + q * 0x40 - 0x200000) / 0x40 = q := by omega
  unfold hostWrite
  dsimp only
  rw [if_neg (by simp; omega), if_pos (by simp; omega), h1, if_pos ⟨by omega, rfl⟩]

theorem hostWrite_msix (s : State) {v w : Nat} (value : Nat) (hv : v < 2048) (hw : w < 4) :
    hostWrite s (0x300000 + v * 16 + w * 4) 4 value = msixWrite s v w (value % 2 ^ 32) := by
  have h1 : (0x300000 + v * 16 + w * 4 - 0x300000) / 16 = v := by omega
  have h2 : (0x300000 + v * 16 + w * 4) % 16 / 4 = w := by omega
  unfold hostWrite
  dsimp only
  rw [if_neg (by simp; omega), if_neg (by simp; omega), if_pos (by simp; omega), h1, h2, if_pos ⟨rfl, by omega⟩]

/-- A vector's word takes the low 32 bits of what is written. -/
@[simp] theorem msixWrite_mod (s : State) (v word value : Nat) : msixWrite s v word (value % 2 ^ 32) = msixWrite s v word value := by
  simp [msixWrite]

theorem exec_registerWrite (addr size value : Nat) (s : State) : exec (.registerWrite addr size value) s =
    .next (if hostReaches s then postWrite s addr size (value % 2 ^ (8 * size))
      (fun s => hostWrite s addr size (value % 2 ^ (8 * size))) else s) := rfl

theorem exec_registerWrite_at_once {addr size value : Nat} {s : State} (hr : hostReaches s = true)
    (hq : s.mem.heldDoorbells = []) (hd : isDoorbell addr = false ∨ hostWritesOut s = false) :
    exec (.registerWrite addr size value) s = .next (hostWrite s addr size (value % 2 ^ (8 * size))) := by
  rw [exec_registerWrite, if_pos hr, postWrite_at_once hq hd]

/-! ### What R10 says of the writes -/

theorem registerWrite_discarded (addr size value : Nat) (s : State) (h : hostReaches s = false ∨
    (¬ (0x100000 ≤ addr ∧ addr < 0x140000) ∧ ¬ (0x200000 ≤ addr ∧ addr < 0x208000) ∧
      ¬ (0x300000 ≤ addr ∧ addr < 0x308000) ∧ s.mem.heldDoorbells = [])) :
    exec (.registerWrite addr size value) s = .next s := by
  obtain hr | ⟨hm, hc, hv, hq⟩ := h
  · simp [exec_registerWrite, hr]
  · have hd : isDoorbell addr = false := isDoorbell_eq_false (by omega)
    simp [exec_registerWrite, postWrite_at_once hq (.inl hd), hostWrite_outside s _ _ hm hc hv]

theorem registerWrite_waits (addr size value : Nat) (s : State) (hr : hostReaches s = true) (hq : s.mem.heldDoorbells ≠ []) :
    exec (.registerWrite addr size value) s = .next { s with mem := { s.mem with
      heldDoorbells := s.mem.heldDoorbells ++ [(addr, size, value % 2 ^ (8 * size))] } } := by
  simp [exec_registerWrite, hr, postWrite, hq]

theorem registerWrite_mailbox (m o size value : Nat) (s : State) (hr : hostReaches s = true) (hq : s.mem.heldDoorbells = [])
    (hm : m < 64) (ho : o < 0xC00) (hn : size = 4 ∨ size = 8) (ha : o % size = 0) :
    ((chanOf s m).state = .free → ∃ t, exec (.registerWrite (0x100000 + m * 0x1000 + o) size value) s = .next t ∧
      (∀ i, i < size → tget (chanOf t m).req (o + i) 0 = BitVec.ofNat 8 (value / 2 ^ (8 * i))) ∧
      (∀ x, x < o ∨ o + size ≤ x → tget (chanOf t m).req x 0 = tget (chanOf s m).req x 0) ∧ (chanOf t m).state = .free ∧
      ∀ c, c ≠ m → chanOf t c = chanOf s c) ∧
    ((chanOf s m).state ≠ .free → exec (.registerWrite (0x100000 + m * 0x1000 + o) size value) s = .next s) := by
  have hd : isDoorbell (0x100000 + m * 0x1000 + o) = false := isDoorbell_eq_false (by omega)
  rw [exec_registerWrite_at_once hr hq (.inl hd), hostWrite_mailbox s _ _ hm ho]
  unfold mailboxWrite
  refine ⟨fun hf => ?_, fun hf => by rw [if_pos (.inr (.inr hf))]⟩
  rw [if_neg (by simp [hf, ha]; omega)]
  refine ⟨_, rfl, fun i hi => ?_, fun x hx => ?_, by simpa using hf, fun c hc => by simp [hc]⟩
  · rw [chanOf_modChan_self, tget_storeArea, if_pos (by simp; omega), Nat.add_zero, Nat.add_sub_cancel_left]
    exact leBytes_mod _ _ _ hi
  · rw [chanOf_modChan_self, tget_storeArea, if_neg (by simp; omega)]

theorem registerWrite_unit (k w v : Nat) (s : State) (hr : hostReaches s = true) (hq : s.mem.heldDoorbells = []) :
    (k < 64 → hostWritesOut s = false →
      exec (.registerWrite (0x100F48 + k * 0x1000) 8 v) s = exec (.doorbellIgnoredAction k (v % 256)) s) ∧
    (k < 512 → exec (.registerWrite (0x200000 + k * 0x40) 8 v) s = exec (.eqConsumerWrite k (v % 2 ^ 32) (bitAt v 32)) s) ∧
    (k < 2048 → w < 4 → exec (.registerWrite (0x300000 + k * 16 + w * 4) 4 v) s = exec (.msixTableWrite k w v) s) := by
  refine ⟨fun hk ho => ?_, fun hk => ?_, fun hk hw => ?_⟩
  · rw [exec_registerWrite_at_once hr hq (.inr ho), hostWrite_doorbell s _ hk]
    change _ = Host.Outcome.next (postWrite s (doorbellOffset k) 8 _ _)
    rw [postWrite_at_once hq (.inr ho)]
    congr 2
    omega
  · have hd : isDoorbell (0x200000 + k * 0x40) = false := isDoorbell_eq_false (by omega)
    rw [exec_registerWrite_at_once hr hq (.inl hd), hostWrite_consumer s _ hk]
    change _ = Host.Outcome.next (postWrite s (0x0200000 + k * 0x40) 8 _ _)
    rw [postWrite_at_once hq (.inl hd)]
    have hb : bitAt (v % 2 ^ (8 * 8)) 32 = bitAt v 32 := by simp only [bitAt]; congr 1; omega
    rw [hb]
    congr 2
    omega
  · have hd : isDoorbell (0x300000 + k * 16 + w * 4) = false := isDoorbell_eq_false (by omega)
    rw [exec_registerWrite_at_once hr hq (.inl hd), hostWrite_msix s _ hk hw]
    change _ = Host.Outcome.next (postWrite s (0x0300000 + k * 16 + w * 4) 4 _ _)
    rw [postWrite_at_once hq (.inl hd), show v % 2 ^ (8 * 4) % 2 ^ 32 = v % 2 ^ 32 by omega, msixWrite_mod]

end Sys2Proof.Machine

end

section

/-! Accesses of the host through BAR2: what enters the host's port, line by line (08 R235–R239). -/

set_option maxRecDepth 4000
set_option exponentiation.threshold 2000

namespace Sys2Proof.Machine

/-! ### Transactions that enter their port -/

/-- `x` is the transaction `t` as it waits at its port, with its units and its guarantee. -/
def entersAs (t x : Txn) : Prop := ∃ u p, x = { t with units := u, phase := .waiting, underPort := p }

@[simp] theorem newTxn_nextId (s : State) (t : Txn) : (newTxn s t).1.cells.nextId = s.cells.nextId + 1 := rfl

@[simp] theorem newTxn_snd (s : State) (t : Txn) : (newTxn s t).2 = s.cells.nextId := rfl

theorem txnOf_newTxn_self (s : State) (t : Txn) : ∃ x, txnOf (newTxn s t).1 s.cells.nextId = some x ∧ entersAs t x :=
  ⟨_, tfind_tset_self .., _, _, rfl⟩

@[simp] theorem txnOf_newTxn_other (s : State) (t : Txn) (j : Nat) (h : j ≠ s.cells.nextId) :
    txnOf (newTxn s t).1 j = txnOf s j := by
  simp [newTxn, txnOf, h]

/-- One transaction for each line, in order. -/
theorem forEach_newTxn (mk : Nat → Txn) (ls : List Nat) (s : State) :
    (∀ j, j < s.cells.nextId → txnOf (forEach ls s fun s l => (newTxn s (mk l)).1) j = txnOf s j) ∧
    ∀ l ∈ ls, ∃ i x, txnOf (forEach ls s fun s l => (newTxn s (mk l)).1) i = some x ∧ entersAs (mk l) x := by
  unfold forEach
  induction ls generalizing s with
  | nil => simp
  | cons l ls ih =>
    obtain ⟨hold, hnew⟩ := ih (newTxn s (mk l)).1
    rw [newTxn_nextId] at hold
    refine ⟨fun j hj => ?_, fun k hk => ?_⟩
    · rw [List.foldl_cons, hold j (by omega), txnOf_newTxn_other _ _ _ (by omega)]
    · obtain rfl | hk := List.mem_cons.mp hk
      · obtain ⟨x, hx, he⟩ := txnOf_newTxn_self s (mk k)
        exact ⟨s.cells.nextId, x, by rw [List.foldl_cons, hold _ (by omega), hx], he⟩
      · exact hnew k hk

/-- A line of a read enters, and its transaction is noted. -/
def enterLine (mk : Nat → Txn) (r : State × List Nat) (l : Nat) : State × List Nat :=
  ((newTxn r.1 (mk l)).1, r.2 ++ [(newTxn r.1 (mk l)).2])

theorem foldl_enterLine (mk : Nat → Txn) (ls : List Nat) (r : State × List Nat) :
    (∀ j, j < r.1.cells.nextId → txnOf (ls.foldl (enterLine mk) r).1 j = txnOf r.1 j) ∧
    (ls.foldl (enterLine mk) r).2.length = r.2.length + ls.length ∧
    ∀ i ∈ (ls.foldl (enterLine mk) r).2, i ∈ r.2 ∨
      ∃ l ∈ ls, ∃ x, txnOf (ls.foldl (enterLine mk) r).1 i = some x ∧ entersAs (mk l) x := by
  induction ls generalizing r with
  | nil => simp
  | cons l ls ih =>
    obtain ⟨hold, hlen, hnew⟩ := ih (enterLine mk r l)
    rw [enterLine, newTxn_nextId] at hold
    refine ⟨fun j hj => ?_, ?_, fun i hi => ?_⟩
    · rw [List.foldl_cons, enterLine, hold j (by omega), txnOf_newTxn_other _ _ _ (by omega)]
    · rw [List.foldl_cons, hlen]
      simp [enterLine]
      omega
    · obtain hi | ⟨k, hk, hx⟩ := hnew i hi
      · obtain hi | hi := List.mem_append.mp hi
        · exact .inl hi
        · obtain rfl : i = r.1.cells.nextId := by simpa using hi
          obtain ⟨x, hx, he⟩ := txnOf_newTxn_self r.1 (mk l)
          exact .inr ⟨l, by simp, x, by rw [List.foldl_cons, enterLine, hold _ (by omega), hx], he⟩
      · exact .inr ⟨k, by simp [hk], hx⟩

/-! ### The access -/

theorem exec_bar2Write {s : State} {addr a : Nat} {data : Bytes} (poison : Bool) (hr : hostReaches s = true)
    (hd : data ≠ []) (ha : bar2Hpa s addr = some a) : exec (.bar2Access (.write poison) addr data) s =
      .next (if bar2Unmapped s a data.length then hostRefused (tlpPoison s poison) true a false else bar2Write s a data poison) := by
  change execBar2Access (.write poison) addr data s = _
  simp [execBar2Access, ha, hr, hd]

theorem exec_bar2Read {s : State} {addr a : Nat} {data : Bytes} (hr : hostReaches s = true)
    (hd : data ≠ []) (ha : bar2Hpa s addr = some a) : exec (.bar2Access .read addr data) s =
      .next (if bar2Unmapped s a data.length then emit s .unsupported
        else if hostReadLimit ≤ s.mem.hostReads.length then s else bar2Read s addr a data.length) := by
  change execBar2Access .read addr data s = _
  simp only [execBar2Access, ha, hr, hd, List.length_eq_zero_iff]
  (repeat' split) <;> simp_all

theorem bar2Write_enters (s : State) (a : Nat) (b : Bytes) (poison : Bool) : ∀ l ∈ linesOf a b.length,
    ∃ i x, txnOf (bar2Write s a b poison) i = some x ∧ x.phase = .waiting ∧ x.master = 84 ∧ x.tag = tagHost ∧
      x.client = .hostWrite ∧ x.kind = .write ∧ x.hpa = l * 128 ∧ x.data = bytesOfLine a b l ∧
      x.poison = (if poison then 15 else 0) := by
  intro l hl
  obtain ⟨i, x, hx, u, p, rfl⟩ := (forEach_newTxn _ _ (tlpPoison s poison)).2 l hl
  exact ⟨i, _, hx, rfl, rfl, rfl, rfl, rfl, rfl, rfl, rfl⟩

/-- The transaction of a line of the read `i`. -/
def readLineTxn (a n i l : Nat) : Txn := { bar2Txn a n l with client := .hostRead i }

theorem bar2Read_enters (s : State) (bus a n : Nat) : ∃ q,
    tfind (bar2Read s bus a n).mem.hostReads s.cells.nextId = some q ∧ q.bus = bus ∧ q.hpa = a ∧ q.bytes = n ∧
      q.lines.length = (linesOf a n).length ∧
      ∀ i ∈ q.lines, ∃ x, txnOf (bar2Read s bus a n) i = some x ∧ x.phase = .waiting ∧ x.master = 84 ∧ x.tag = tagHost ∧
        x.kind = .read ∧ x.client = .hostRead s.cells.nextId := by
  obtain ⟨-, hlen, hnew⟩ := foldl_enterLine (readLineTxn a n s.cells.nextId) (linesOf a n)
    ({ s with cells := { s.cells with nextId := s.cells.nextId + 1 } }, [])
  refine ⟨_, tfind_tset_self .., rfl, rfl, rfl, ?_, fun i hi => ?_⟩
  · exact hlen.trans (Nat.zero_add _)
  · obtain hi | ⟨l, -, x, hx, u, p, rfl⟩ := hnew i hi
    · simp at hi
    · exact ⟨_, hx, rfl, rfl, rfl, rfl, rfl⟩

theorem bar2Access_enters (poison : Bool) (addr a : Nat) (data : Bytes) (s : State) (hr : hostReaches s = true)
    (hd : data ≠ []) (ha : bar2Hpa s addr = some a) :
    (bar2Unmapped s a data.length = true →
      exec (.bar2Access .read addr data) s = .next { s with out := .unsupported :: s.out } ∧
      ∃ t, exec (.bar2Access (.write poison) addr data) s = .next t ∧ t.mem = s.mem ∧ t.out = s.out ∧ t.boot.aerUnsupported = true) ∧
    (bar2Unmapped s a data.length = false →
      (∃ t, exec (.bar2Access (.write poison) addr data) s = .next t ∧ t.mem.bytes = s.mem.bytes ∧ t.out = s.out ∧
        ∀ l ∈ linesOf a data.length, ∃ i x, txnOf t i = some x ∧ x.phase = .waiting ∧ x.master = 84 ∧ x.tag = tagHost ∧
          x.client = .hostWrite ∧ x.kind = .write ∧ x.hpa = l * 128 ∧ x.data = bytesOfLine a data l ∧
          x.poison = (if poison then 15 else 0)) ∧
      (s.mem.hostReads.length < 2048 → ∃ t q, exec (.bar2Access .read addr data) s = .next t ∧
        tfind t.mem.hostReads s.cells.nextId = some q ∧ q.bus = addr ∧ q.hpa = a ∧ q.bytes = data.length ∧
        q.lines.length = (linesOf a data.length).length ∧ t.mem.bytes = s.mem.bytes ∧ t.out = s.out ∧
        ∀ i ∈ q.lines, ∃ x, txnOf t i = some x ∧ x.phase = .waiting ∧ x.master = 84 ∧ x.tag = tagHost ∧ x.kind = .read ∧
          x.client = .hostRead s.cells.nextId) ∧
      (2048 ≤ s.mem.hostReads.length → exec (.bar2Access .read addr data) s = .next s)) := by
  rw [exec_bar2Write poison hr hd ha, exec_bar2Read hr hd ha]
  refine ⟨fun hu => ⟨by simp [hu, emit], _, rfl, ?_⟩, fun hu => ⟨⟨_, rfl, ?_⟩, fun hn => ?_, fun hn => ?_⟩⟩
  · simp [hu, hostRefused]
  · rw [hu, if_neg Bool.false_ne_true]
    exact ⟨by simp, by simp, bar2Write_enters s a data poison⟩
  · obtain ⟨q, hq, hb, hh, hl, hc, hx⟩ := bar2Read_enters s addr a data.length
    rw [hu, if_neg Bool.false_ne_true, if_neg (by simpa [hostReadLimit] using hn)]
    exact ⟨_, q, rfl, hq, hb, hh, hl, hc, by simp, by simp, hx⟩
  · simp [hu, hostReadLimit, hn]

end Sys2Proof.Machine

end

section

/-! Completions that return to the host's port (08 R239, 15 R419). -/

set_option maxRecDepth 4000
set_option exponentiation.threshold 2000

namespace Sys2Proof.Machine

/-! ### What the ring holds of a record that was logged -/

theorem mem_tset_self {α : Type} (t : Tab α) (k : Nat) (v : α) : (k, v) ∈ tset t k v := by
  induction t with
  | nil => simp [tset]
  | cons e r ih =>
    unfold tset
    (repeat' split) <;> simp [ih]

/-- The ring holds the record, or the one of the same cause that counts it. -/
theorem logErr_recorded (s : State) (r : ErrRecord) :
    ∃ e ∈ (logErr s r).err.ring, e.2.code = r.code ∧ e.2.unitClass = r.unitClass ∧ e.2.address = r.address := by
  unfold logErr logError
  extract_lets c r' err i full kept slot overwrites u v idx src w
  split
  · rename_i k old hf
    have hs := List.find?_some hf
    simp only [sameCause, Bool.and_eq_true, beq_iff_eq] at hs
    obtain ⟨⟨⟨⟨⟨⟨hclass, -⟩, hcode⟩, haddr⟩, -⟩, -⟩, -⟩ := hs
    exact ⟨_, mem_tset_self .., hcode, hclass, haddr⟩
  · have hv : v.err.ring = tset s.err.ring slot kept := by simp [v, u, err]
    have hk : (slot, kept) ∈ v.err.ring := hv ▸ mem_tset_self ..
    split
    · exact ⟨_, hk, rfl, rfl, rfl⟩
    · exact ⟨_, by simpa [w] using hk, rfl, rfl, rfl⟩

/-! ### Reads that are complete -/

/-- Only the reads of the host change in the memory records when one of them completes. -/
theorem hostReadDone_mem (s : State) (i : Nat) :
    (hostReadDone s i).mem.txns = s.mem.txns ∧ (hostReadDone s i).mem.heldDoorbells = s.mem.heldDoorbells := by
  unfold hostReadDone
  split
  · exact ⟨rfl, rfl⟩
  · dsimp only
    (repeat' split) <;> exact ⟨rfl, rfl⟩

theorem forEach_hostReadDone_mem (l : List Nat) (s : State) : (forEach l s hostReadDone).mem.txns = s.mem.txns ∧
    (forEach l s hostReadDone).mem.heldDoorbells = s.mem.heldDoorbells := by
  unfold forEach
  induction l generalizing s with
  | nil => exact ⟨rfl, rfl⟩
  | cons i l ih =>
    obtain ⟨htxns, hheld⟩ := ih (hostReadDone s i)
    exact ⟨htxns.trans (hostReadDone_mem s i).1, hheld.trans (hostReadDone_mem s i).2⟩

theorem releaseHeld_txns {s : State} (h : s.mem.heldDoorbells = []) : (releaseHeld s).mem.txns = s.mem.txns := by
  unfold releaseHeld
  split
  · rfl
  · rw [h]
    rfl

/-- A read with nothing left to wait for completes with its bytes. -/
theorem hostReadDone_ready {s : State} {i : Nat} {r : HostRead} (hr : tfind s.mem.hostReads i = some r)
    (ha : r.after = []) (hl : r.lines = []) (hu : r.unsupported = false) : ∃ pz,
    (hostReadDone s i).out = .readData r.bus ((List.range r.bytes).map (fun k => tget r.data (r.hpa + k) 0)) pz :: s.out ∧
      tfind (hostReadDone s i).mem.hostReads i = none ∧ (r.bad = [] → pz = 0) := by
  unfold hostReadDone
  simp only [hr, ha, hl, hu]
  exact ⟨_, rfl, tfind_tdel_self .., fun hb => by simp [hb, maskOf]⟩

/-! ### The completion -/

/-- A completed transaction of the host's port leaves the records and serves its client. -/
theorem exec_hostCompletion {s : State} {n : Nat} {x : Txn} (hx : txnOf s n = some x) (hp : x.phase = .done)
    (hm : x.master = 84) : exec (.transactionCompletionReturn n) s =
      .next (returnTxn { s with mem := { s.mem with txns := tdel s.mem.txns n } } n x) := by
  change execTransactionCompletionReturn n s = _
  simp [execTransactionCompletionReturn, hx, hp, placedTxn, hm]

theorem returnTxn_hostWrite {s : State} {n : Nat} {x : Txn} (hm : x.master = 84) (hc : x.client = .hostWrite) :
    returnTxn s n x = hostWritten s n x := by
  simp [returnTxn, failReleases, hm, hc]

theorem returnTxn_hostRead {s : State} {n i : Nat} {x : Txn} (hm : x.master = 84) (hc : x.client = .hostRead i) :
    returnTxn s n x = hostLineRead s i n x := by
  simp [returnTxn, failReleases, hm, hc]

theorem hostWritten_refused {s : State} {n : Nat} {x : Txn} (he : x.error = some ecFirewall) (hq : s.mem.heldDoorbells = []) :
    (hostWritten s n x).mem.txns = s.mem.txns ∧
      ∃ e ∈ (hostWritten s n x).err.ring, e.2.code = ecFirewall ∧ e.2.unitClass = ucHostPort ∧ e.2.address = x.hpa := by
  unfold hostWritten
  simp only [he, hostRefused, beq_self_eq_true, if_true]
  refine ⟨?_, ?_⟩
  · rw [releaseHeld_txns (by rw [(forEach_hostReadDone_mem _ _).2]; simpa using hq), (forEach_hostReadDone_mem _ _).1]
    simp
  · simpa using logErr_recorded s { severity := .accessError, unitClass := ucHostPort, code := ecFirewall, address := x.hpa }

/-- A read of the host when the line that `x` fetched has come back. -/
def withLine (n : Nat) (x : Txn) (r : HostRead) : HostRead :=
  { r with
    lines := r.lines.filter (· != n), unsupported := r.unsupported || x.error.isSome
    data := x.result.foldl (fun (d : Tab Byte) (b : Nat × Byte) => tset d (x.hpa + b.1) b.2) r.data
    bad := (r.bad ++ ((List.range 4).filter (fun q => bitAt x.resultPoison q)).map (fun q => x.hpa / 32 + q)).eraseDups }

theorem hostLineRead_eq {s : State} {i n : Nat} {x : Txn} (he : x.error = none) : hostLineRead s i n x =
    hostReadDone { s with mem := { s.mem with hostReads := tmodIf s.mem.hostReads i (withLine n x) } } i := by
  cases x
  cases he
  rfl

theorem hostLineRead_last {s : State} {i n : Nat} {x : Txn} {r : HostRead} (hr : tfind s.mem.hostReads i = some r)
    (hl : r.lines = [n]) (ha : r.after = []) (hu : r.unsupported = false) (he : x.error = none) : ∃ pz,
    tfind (hostLineRead s i n x).mem.hostReads i = none ∧
    (hostLineRead s i n x).out = .readData r.bus ((List.range r.bytes).map (fun k =>
      tget (x.result.foldl (fun (d : Tab Byte) (b : Nat × Byte) => tset d (x.hpa + b.1) b.2) r.data) (r.hpa + k) 0)) pz :: s.out ∧
    (r.bad = [] → x.resultPoison = 0 → pz = 0) := by
  rw [hostLineRead_eq he]
  obtain ⟨pz, hout, hdel, hpz⟩ := hostReadDone_ready (i := i) (r := withLine n x r)
    (s := { s with mem := { s.mem with hostReads := tmodIf s.mem.hostReads i (withLine n x) } })
    (by simp [hr]) ha (by simp [withLine, hl]) (by simp [withLine, hu, he])
  exact ⟨pz, hdel, hout, fun hb hz => hpz (by simp [withLine, hb, hz, bitAt])⟩

theorem hostCompletion_returns (n i : Nat) (s : State) (x : Txn) (r : HostRead) (hx : txnOf s n = some x)
    (hp : x.phase = .done) (hm : x.master = 84) :
    (x.client = .hostWrite → x.error = some ecFirewall → s.mem.heldDoorbells = [] → ∃ t,
      exec (.transactionCompletionReturn n) s = .next t ∧ txnOf t n = none ∧
      ∃ e ∈ t.err.ring, e.2.code = ecFirewall ∧ e.2.unitClass = ucHostPort ∧ e.2.address = x.hpa) ∧
    (x.client = .hostRead i → tfind s.mem.hostReads i = some r → r.lines = [n] → r.after = [] → r.unsupported = false →
      x.error = none → ∃ t pz, exec (.transactionCompletionReturn n) s = .next t ∧ tfind t.mem.hostReads i = none ∧
        t.out = .readData r.bus ((List.range r.bytes).map (fun k =>
          tget (x.result.foldl (fun (d : Tab Byte) (b : Nat × Byte) => tset d (x.hpa + b.1) b.2) r.data) (r.hpa + k) 0)) pz :: s.out ∧
        (r.bad = [] → x.resultPoison = 0 → pz = 0)) := by
  rw [exec_hostCompletion hx hp hm]
  refine ⟨fun hc he hq => ?_, fun hc hr hl ha hu he => ?_⟩
  · rw [returnTxn_hostWrite hm hc]
    obtain ⟨htxns, hring⟩ := hostWritten_refused (n := n)
      (s := { s with mem := { s.mem with txns := tdel s.mem.txns n } }) he hq
    exact ⟨_, rfl, by rw [txnOf, htxns]; exact tfind_tdel_self .., hring⟩
  · rw [returnTxn_hostRead hm hc]
    obtain ⟨pz, hdel, hout, hpz⟩ := hostLineRead_last (n := n)
      (s := { s with mem := { s.mem with txns := tdel s.mem.txns n } }) hr hl ha hu he
    exact ⟨_, pz, rfl, hdel, hout, hpz⟩

end Sys2Proof.Machine

end

section

/-! Writes of the host to its configuration space, and the messages that wait for them (08 R235, R237). -/

set_option maxRecDepth 4000
set_option exponentiation.threshold 2000

namespace Sys2Proof.Machine

/-! ### Messages that waited -/

theorem mem_of_tfind {α : Type} {t : Tab α} {k : Nat} {v : α} (h : tfind t k = some v) : (k, v) ∈ t := by
  induction t with
  | nil => simp at h
  | cons e r ih =>
    obtain ⟨j, w⟩ := e
    unfold tfind at h
    split at h
    · simp_all
    · simp [ih h]

/-- The message of a vector goes out, and is pending no longer. -/
def sendWaiting (s : State) (e : Nat × MsixVector) : State :=
  emit { s with cp := { s.cp with msix := tset s.cp.msix e.1 { e.2 with pendingBit := false } } } (.msix e.1 e.2.addr e.2.data)

theorem sendWaiting_pending (s : State) (e : Nat × MsixVector) (v : Nat)
    (h : v = e.1 ∨ (tget s.cp.msix v {}).pendingBit = false) : (tget (sendWaiting s e).cp.msix v {}).pendingBit = false := by
  by_cases hv : v = e.1
  · simp [sendWaiting, emit, hv]
  · simpa [sendWaiting, emit, hv] using h

theorem forEach_sendWaiting (l : List (Nat × MsixVector)) (s : State) :
    (∀ v, v ∈ tkeys l ∨ (tget s.cp.msix v {}).pendingBit = false →
      (tget (forEach l s sendWaiting).cp.msix v {}).pendingBit = false) ∧
    ∀ o, (o ∈ s.out ∨ ∃ e ∈ l, o = .msix e.1 e.2.addr e.2.data) → o ∈ (forEach l s sendWaiting).out := by
  unfold forEach
  induction l generalizing s with
  | nil => simp [tkeys]
  | cons e l ih =>
    obtain ⟨hpend, hout⟩ := ih (sendWaiting s e)
    refine ⟨fun v hv => hpend v ?_, fun o ho => hout o ?_⟩
    · obtain hv | hv := hv
      · obtain rfl | hv := List.mem_cons.mp hv
        · exact .inr (sendWaiting_pending s e _ (.inl rfl))
        · exact .inl hv
      · exact .inr (sendWaiting_pending s e v (.inr hv))
    · obtain ho | ⟨d, hd, rfl⟩ := ho
      · exact .inl (List.mem_cons_of_mem _ ho)
      · obtain rfl | hd := List.mem_cons.mp hd
        · exact .inl List.mem_cons_self
        · exact .inr ⟨d, hd, rfl⟩

theorem sendPending_silent {s : State} (h : hostSilent s = true) : sendPending s = s := by
  simp [sendPending, h]

theorem sendPending_sends {s : State} {v : Nat} (hs : hostSilent s = false) (hp : (tget s.cp.msix v {}).pendingBit = true)
    (hm : (tget s.cp.msix v {}).masked = false) : (tget (sendPending s).cp.msix v {}).pendingBit = false ∧
      Out.msix v (tget s.cp.msix v {}).addr (tget s.cp.msix v {}).data ∈ (sendPending s).out := by
  obtain ⟨x, hx⟩ : ∃ x, tfind s.cp.msix v = some x := by
    refine Option.ne_none_iff_exists'.mp fun hn => ?_
    simp [tget, hn] at hp
  simp only [tget, hx, Option.getD_some] at hp hm ⊢
  have hmem : (v, x) ∈ s.cp.msix.filter (fun e => e.2.pendingBit && !e.2.masked) := by
    simp [mem_of_tfind hx, hp, hm]
  have he : sendPending s = forEach (s.cp.msix.filter (fun e => e.2.pendingBit && !e.2.masked)) s sendWaiting := by
    simp only [sendPending, hs]
    rfl
  obtain ⟨hpend, hout⟩ := forEach_sendWaiting (s.cp.msix.filter (fun e => e.2.pendingBit && !e.2.masked)) s
  rw [he]
  exact ⟨hpend v (.inl (List.mem_map.mpr ⟨_, hmem, rfl⟩)), hout _ (.inr ⟨_, hmem, rfl⟩)⟩

/-! ### The write -/

theorem hostConfigWrite_fields (n v : Nat) (b : Bool) (s : State) (hr : hostReaches s = true) :
    (∃ t, exec (.hostConfigWrite (.bar0 n)) s = .next t ∧ t.boot.bar0Base = n % 2 ^ 64 / 2 ^ 26 * 2 ^ 26) ∧
    (∃ t, exec (.hostConfigWrite (.bar2 n)) s = .next t ∧
      t.boot.bar2Base = n % 2 ^ 64 / 2 ^ s.boot.bar2Log2 * 2 ^ s.boot.bar2Log2) ∧
    (∃ t, exec (.hostConfigWrite (.bar2Size n)) s = .next t ∧
      t.boot.bar2Log2 = if 30 ≤ n ∧ n ≤ 44 then n else s.boot.bar2Log2) ∧
    (∃ t, exec (.hostConfigWrite (.atomicEnable b)) s = .next t ∧ t.boot.atomicEnable = b) ∧
    (∃ t, exec (.hostConfigWrite (.ide b n)) s = .next t ∧ t.boot.ideLink = b ∧ t.boot.ideSelective = min n 4) ∧
    (∃ t, exec (.hostConfigWrite (.aerClear b true)) s = .next t ∧ t.boot.aerUnsupported = (s.boot.aerUnsupported && !b) ∧
      t.boot.aerPoisoned = false) ∧
    (∃ t, exec (.hostConfigWrite (.busMaster b)) s = .next t ∧ t.boot.busMaster = b ∧ (b = false → t.out = s.out)) ∧
    (∃ t, exec (.hostConfigWrite (.dState true)) s = .next t ∧ t.boot.d3hot = true ∧ t.out = s.out ∧ t.cp = s.cp) ∧
    (s.boot.busMaster = true → ∃ t, exec (.hostConfigWrite (.dState false)) s = .next t ∧ t.boot.d3hot = false ∧
      ((tget s.cp.msix v {}).pendingBit = true → (tget s.cp.msix v {}).masked = false →
        (tget t.cp.msix v {}).pendingBit = false ∧
        Out.msix v (tget s.cp.msix v {}).addr (tget s.cp.msix v {}).data ∈ t.out)) := by
  have he (w : ConfigWrite) : exec (.hostConfigWrite w) s = execHostConfigWrite w s := rfl
  simp only [he, execHostConfigWrite, hr]
  refine ⟨⟨_, rfl, by simp⟩, ⟨_, rfl, by simp⟩, ⟨_, rfl, ?_⟩, ⟨_, rfl, by simp⟩, ⟨_, rfl, by simp⟩, ⟨_, rfl, by simp⟩,
    ⟨_, rfl, by simp, fun hb => ?_⟩, ⟨_, rfl, by simp, ?_⟩, fun hbm => ⟨_, rfl, by simp, fun hp hm => ?_⟩⟩
  · simp only [sendPending_frame]
    split <;> simp_all
  · subst hb
    rw [sendPending_silent (by simp [hostSilent])]
    rfl
  · rw [sendPending_silent (by simp [hostSilent])]
    exact ⟨rfl, rfl⟩
  · exact sendPending_sends (by simp [hostSilent, ideKeys, hbm]) hp hm

end Sys2Proof.Machine

end

section

/-! The messages of the management port: requests, acknowledgements, register accesses, sensors (18 R505, R514–R519). -/

set_option maxRecDepth 4000
set_option exponentiation.threshold 2000

namespace Sys2Proof.Machine

/-! ### The session -/

theorem inSession_of_ready {s : State} (hs : s.mgmt.session = true) (hr : isReady s = true) : inSession s = true := by
  simp only [isReady, Bool.and_eq_true] at hr
  simp [inSession, pastBoard, hs, hr.1]

theorem mgmtWrites_of_ready {s : State} (hs : s.mgmt.session = true) (hr : isReady s = true) : mgmtWrites s = true := by
  simp [mgmtWrites, inSession_of_ready hs hr, hr]

theorem port_refuses (msg : Bytes) (n size value : Nat) (s : State) (hp : portHears s = true) (hs : s.mgmt.session = false) :
    exec (.mbRequest msg) s = .next { s with out := .mgmtResponse vmMbRequest (statusCode .deniedRole) 0 :: s.out } ∧
    exec (.eventAck n) s = .next { s with out := .mgmtResponse vmEventAck (statusCode .deniedRole) 0 :: s.out } ∧
    exec (.regWrite n size value) s = .next { s with out := .mgmtResponse vmRegWrite (statusCode .deniedRole) 0 :: s.out } ∧
    (n % 2 ^ 26 ≠ 0x10008 →
      exec (.regRead n size) s = .next { s with out := .mgmtResponse vmRegRead (statusCode .deniedRole) 0 :: s.out }) := by
  have hi : inSession s = false := by simp [inSession, hs]
  refine ⟨?_, ?_, ?_, fun ho => ?_⟩
  · change execMbRequest msg s = _
    simp [execMbRequest, hp, hi, mgmtReply, emit]
  · change execEventAck n s = _
    simp [execEventAck, hp, hi, mgmtReply, emit]
  · change execRegWrite n size value s = _
    simp [execRegWrite, mgmtWrites, hp, hi, mgmtReply, emit]
  · change execRegRead n size s = _
    unfold execRegRead
    rw [if_neg (by simp [hp]), if_pos ⟨by simp [hi], ho⟩]
    rfl

theorem regRead_answers (n size : Nat) (s : State) (hp : portHears s = true) (h : n % 2 ^ 26 = 0x10008 ∨ inSession s = true) :
    exec (.regRead n size) s = .next { s with
      fresh := s.fresh + 1
      out := .mgmtResponse vmRegRead (statusCode .ok) (readReg s .mgmt (n % 2 ^ 26) size) :: s.out } := by
  change execRegRead n size s = _
  unfold execRegRead
  rw [if_neg (by simp [hp]), if_neg]
  · rfl
  · rintro ⟨hs, ho⟩
    obtain h | h := h
    · exact ho h
    · simp [h] at hs

/-! ### MB_REQUEST -/

theorem exec_mbRequest {s : State} (msg : Bytes) (hp : portHears s = true) (hi : inSession s = true) :
    exec (.mbRequest msg) s = .next (if isReady s then postMgmt s msg
      else if s.boot.stage = .failed ∨ 8 ≤ mgmtInFlight s then endRequest s msg .noResource
      else { s with mgmt := { s.mgmt with heldRequests := s.mgmt.heldRequests ++ [msg] } }) := by
  change execMbRequest msg s = _
  unfold execMbRequest
  rw [if_neg (by simp [hp]), if_neg (by simp [hi])]
  (repeat' split) <;> rfl

/-- A place of the management channel that a request has taken. -/
def heldPlace (s : State) (msg : Bytes) (m : Mailbox) : Mailbox :=
  { m with state := .posted, taken := some (requestTaken msg), order := s.cp.mgmtOrder }

/-- The first free place of the management channel takes the request. -/
theorem postMgmt_first {s : State} (msg : Bytes) {i : Nat} (hi : i < 8) (hf : (chanOf s (64 + i)).state = .free)
    (hj : ∀ j, j < i → (chanOf s (64 + j)).state ≠ .free) : postMgmt s msg =
      { modChan s (64 + i) (heldPlace s msg) with
        cp := { (modChan s (64 + i) (heldPlace s msg)).cp with mgmtOrder := s.cp.mgmtOrder + 1 } } := by
  have hfind : (List.range 8).find? (fun i => (chanOf s (64 + i)).state == .free) = some i := by
    rw [List.find?_range_eq_some]
    exact ⟨by simp [hf], by simpa using hi, fun j h => by simpa using hj j h⟩
  simp only [postMgmt, hfind]
  rfl

/-- With no free place the request ends. -/
theorem postMgmt_full {s : State} (msg : Bytes) (hf : ∀ j, j < 8 → (chanOf s (64 + j)).state ≠ .free) :
    postMgmt s msg = endRequest s msg .noResource := by
  have hfind : (List.range 8).find? (fun i => (chanOf s (64 + i)).state == .free) = none := by
    simpa using hf
  simp only [postMgmt, hfind]

theorem endRequest_completes (s : State) (msg : Bytes) (c : Status) : ∃ r,
    endRequest s msg c = { s with out := .mgmtCompletion (requestTaken msg).hdr.tag r [] :: s.out } ∧
      r.code = statusCode c ∧ r.commitSeq = 0 := ⟨_, rfl, rfl, rfl⟩

theorem mbRequest_served (msg : Bytes) (s : State) (hp : portHears s = true) (hi : inSession s = true) :
    (∀ i, i < 8 → isReady s = true → (chanOf s (64 + i)).state = .free → (∀ j, j < i → (chanOf s (64 + j)).state ≠ .free) →
      ∃ t, exec (.mbRequest msg) s = .next t ∧ (chanOf t (64 + i)).state = .posted ∧
        (chanOf t (64 + i)).taken = some (requestTaken msg) ∧ (chanOf t (64 + i)).order = s.cp.mgmtOrder ∧
        t.cp.mgmtOrder = s.cp.mgmtOrder + 1 ∧ ∀ c, c ≠ 64 + i → chanOf t c = chanOf s c) ∧
    ((isReady s = true ∧ ∀ j, j < 8 → (chanOf s (64 + j)).state ≠ .free) ∨ s.boot.stage = .failed →
      ∃ r, exec (.mbRequest msg) s = .next { s with out := .mgmtCompletion (requestTaken msg).hdr.tag r [] :: s.out } ∧
        r.code = statusCode .noResource ∧ r.commitSeq = 0) ∧
    ((s.boot.stage = .test ∨ s.boot.stage = .shelves) → mgmtInFlight s < 8 →
      exec (.mbRequest msg) s = .next { s with mgmt := { s.mgmt with heldRequests := s.mgmt.heldRequests ++ [msg] } }) := by
  rw [exec_mbRequest msg hp hi]
  refine ⟨fun i hlt hr hf hj => ?_, fun h => ?_, fun hst hn => ?_⟩
  · rw [if_pos hr, postMgmt_first msg hlt hf hj]
    have hself := chanOf_modChan_self s (64 + i) (heldPlace s msg)
    exact ⟨_, rfl, congrArg Mailbox.state hself, congrArg Mailbox.taken hself, congrArg Mailbox.order hself, rfl,
      fun c hc => chanOf_modChan_other s (64 + i) c (heldPlace s msg) hc⟩
  · obtain ⟨r, he, hcode, hseq⟩ := endRequest_completes s msg .noResource
    refine ⟨r, ?_, hcode, hseq⟩
    obtain ⟨hr, hf⟩ | hst := h
    · rw [if_pos hr, postMgmt_full msg hf, he]
    · rw [if_neg (by simp [isReady, hst]), if_pos (.inl hst), he]
  · have hr : isReady s = false := by obtain h | h := hst <;> simp [isReady, h]
    have hf : s.boot.stage ≠ .failed := by obtain h | h := hst <;> simp [h]
    rw [if_neg (by simp [hr]), if_neg (by simp [hf]; omega)]

/-! ### EVENT_ACK -/

/-- What an acknowledgement of the first `k` records leaves. -/
def acknowledged (s : State) (k : Nat) : State :=
  { s with
    mgmt := { s.mgmt with held := s.mgmt.held.drop k }
    err := { s.err with acked := s.err.acked ++
      (((s.mgmt.held.take k).filterMap (·.err)).map (·.index)).filter (fun i => s.err.ring.any (fun e => e.2.index == i)) } }

theorem exec_eventAck {s : State} {seq k : Nat} (hp : portHears s = true) (hs : s.mgmt.session = true) (hr : isReady s = true)
    (hk : ackedRecords s seq = s.mgmt.held.take k) (hl : k ≤ s.mgmt.held.length) :
    exec (.eventAck seq) s = .next (mgmtSettle (acknowledged s k)) := by
  change execEventAck seq s = _
  unfold execEventAck
  rw [if_neg (by simp [hp]), if_neg (by simp [inSession_of_ready hs hr]), if_neg (by simp [hr]), hk]
  simp [acknowledged, Nat.min_eq_left hl]

/-- No record that was sent has the number: none is taken. -/
theorem ackedRecords_none {s : State} {seq : Nat} (h : ∀ x ∈ s.mgmt.held, x.seq = seq → x.sent = false) :
    ackedRecords s seq = s.mgmt.held.take 0 := by
  have hf : s.mgmt.held.findIdx? (fun h => h.seq == seq && h.sent) = none := by
    simpa [List.findIdx?_eq_none_iff] using h
  simp [ackedRecords, hf]

/-- The records up to the first that was sent with the number. -/
theorem ackedRecords_first {s : State} {seq i : Nat} {h : HeldRecord} (hi : s.mgmt.held[i]? = some h) (hq : h.seq = seq)
    (hs : h.sent = true) (hb : ∀ x ∈ s.mgmt.held.take i, ¬ (x.seq = seq ∧ x.sent = true)) :
    ackedRecords s seq = s.mgmt.held.take (i + 1) := by
  obtain ⟨hlt, hget⟩ := List.getElem?_eq_some_iff.mp hi
  have hf : s.mgmt.held.findIdx? (fun h => h.seq == seq && h.sent) = some i := by
    rw [List.findIdx?_eq_some_iff_getElem]
    refine ⟨hlt, by simp [hget, hq, hs], fun j hj => ?_⟩
    have := hb _ (List.mem_take_iff_getElem.mpr ⟨j, by omega, rfl⟩)
    simpa using this
  simp [ackedRecords, hf]

theorem mgmtSettle_settled {s : State} (h : s.mgmt.droppedSince = 0) : mgmtSettle s = s := by
  simp [mgmtSettle, h]

theorem holdPush_mgmt (s : State) (h : HeldRecord) : (holdPush s h).mgmt = { s.mgmt with
    held := s.mgmt.held ++ [{ h with seq := s.mgmt.nextSeq, sent := s.mgmt.session }]
    nextSeq := (s.mgmt.nextSeq + 1) % 2 ^ 31 } := by
  unfold holdPush
  dsimp only
  split <;> rfl

/-- Records that were dropped are told of once the hold has room. -/
theorem mgmtSettle_tells {s : State} (h : s.mgmt.droppedSince ≠ 0) (hl : s.mgmt.held.length < 64) : ∃ y,
    (mgmtSettle s).mgmt.held = s.mgmt.held ++ [y] ∧ y.record.code = eventValue .eqOverflow ∧ y.seq = s.mgmt.nextSeq ∧
      y.record.result / 2 ^ 64 = s.mgmt.droppedSince % 2 ^ 16 ∧ (mgmtSettle s).mgmt.droppedSince = 0 := by
  unfold mgmtSettle
  rw [if_neg (by simp [h]; omega)]
  simp only [holdPush_mgmt]
  refine ⟨_, rfl, rfl, rfl, ?_, trivial⟩
  simp only [eventRecord, field]
  omega

theorem eventAck_frees (seq i : Nat) (h : HeldRecord) (s : State) (hp : portHears s = true) (hs : s.mgmt.session = true)
    (hr : isReady s = true) :
    ((∀ x ∈ s.mgmt.held, x.seq = seq → x.sent = false) → s.mgmt.droppedSince = 0 →
      ∃ t, exec (.eventAck seq) s = .next t ∧ t.mgmt = s.mgmt ∧ t.err = s.err) ∧
    (s.mgmt.held[i]? = some h → h.seq = seq → h.sent = true →
      (∀ x ∈ s.mgmt.held.take i, ¬ (x.seq = seq ∧ x.sent = true)) →
      (s.mgmt.droppedSince = 0 → ∃ t, exec (.eventAck seq) s = .next t ∧ t.mgmt = { s.mgmt with held := s.mgmt.held.drop (i + 1) } ∧
        ∀ x ∈ s.mgmt.held.take (i + 1), ∀ r, x.err = some r → (∃ e ∈ s.err.ring, e.2.index = r.index) → r.index ∈ t.err.acked) ∧
      (s.mgmt.droppedSince ≠ 0 → s.mgmt.held.length ≤ 64 → ∃ t y, exec (.eventAck seq) s = .next t ∧
        t.mgmt.held = s.mgmt.held.drop (i + 1) ++ [y] ∧ y.record.code = eventValue .eqOverflow ∧ y.seq = s.mgmt.nextSeq ∧
        y.record.result / 2 ^ 64 = s.mgmt.droppedSince % 2 ^ 16 ∧ t.mgmt.droppedSince = 0)) := by
  refine ⟨fun hn hd => ?_, fun hi hq hsent hb => ?_⟩
  · rw [exec_eventAck hp hs hr (ackedRecords_none hn) (Nat.zero_le _), mgmtSettle_settled (s := acknowledged s 0) hd]
    exact ⟨_, rfl, rfl, by simp [acknowledged]⟩
  · have hlt : i < s.mgmt.held.length := (List.getElem?_eq_some_iff.mp hi).1
    rw [exec_eventAck hp hs hr (ackedRecords_first hi hq hsent hb) hlt]
    refine ⟨fun hd => ?_, fun hd hl => ?_⟩
    · rw [mgmtSettle_settled (s := acknowledged s (i + 1)) hd]
      refine ⟨_, rfl, rfl, fun x hx r he ⟨e, hring, hidx⟩ => List.mem_append_right _ ?_⟩
      exact List.mem_filter.mpr ⟨List.mem_map.mpr ⟨r, List.mem_filterMap.mpr ⟨x, hx, he⟩, rfl⟩,
        List.any_eq_true.mpr ⟨e, hring, by simp [hidx]⟩⟩
    · obtain ⟨y, hheld, hcode, hseq, hres, hdrop⟩ := mgmtSettle_tells (s := acknowledged s (i + 1)) hd
        (by simp only [acknowledged, List.length_drop]; omega)
      exact ⟨_, y, rfl, hheld, hcode, hseq, hres, hdrop⟩

/-! ### REG_WRITE and PWR_CMP_WRITE -/

theorem exec_regWrite {s : State} (addr size value : Nat) (hp : portHears s = true) (hs : s.mgmt.session = true)
    (hr : isReady s = true) : exec (.regWrite addr size value) s =
      .next (mgmtWrite (mgmtReply s vmRegWrite (statusCode .ok) 0) (addr % 2 ^ 26) size value) := by
  change execRegWrite addr size value s = _
  simp [execRegWrite, hp, mgmtWrites_of_ready hs hr]

theorem exec_pwrCmpWrite {s : State} {k : Nat} (value : Nat) (hp : portHears s = true) (hs : s.mgmt.session = true)
    (hr : isReady s = true) (hk : k < 8) : exec (.pwrCmpWrite k value) s =
      .next (comparatorSet (mgmtReply s vmRegWrite (statusCode .ok) 0) k (comparatorFields value)) := by
  change execPwrCmpWrite k value s = _
  simp [execPwrCmpWrite, hp, mgmtWrites_of_ready hs hr, hk]

theorem mgmtReg_comparator {k : Nat} (hk : k < 8) : mgmtReg (0x2600200 + 16 * k) = .comparator k := by
  unfold mgmtReg
  rw [if_neg (by omega), if_neg (by omega), if_neg (by omega), if_neg (by omega), if_pos (by omega), if_pos (by omega)]
  congr 1
  omega

theorem mgmtReg_comparatorValue {k : Nat} (hk : k < 8) : mgmtReg (0x2600208 + 16 * k) = .comparatorValue k := by
  unfold mgmtReg
  rw [if_neg (by omega), if_neg (by omega), if_neg (by omega), if_neg (by omega), if_pos (by omega), if_neg (by omega)]
  congr 1
  omega

theorem mgmtReg_lcRequest {k : Nat} (hk : k < 32) : mgmtReg (0x2400800 + 8 * k) = .lcRequest k := by
  unfold mgmtReg
  rw [if_neg (by omega), if_neg (by omega), if_neg (by omega), if_pos (by omega)]
  congr 1
  omega

theorem comparatorOf_comparatorSet_self (s : State) (k : Nat) (f : Comparator → Comparator) :
    comparatorOf (comparatorSet s k f) k = { f (comparatorOf s k) with
      asserted := (comparatorOf s k).asserted && !((comparatorOf s k).source == sourceTime || (f (comparatorOf s k)).source == sourceTime)
        && (f (comparatorOf s k)).enable } := by
  simp [comparatorSet]

theorem comparatorOf_comparatorSet_other (s : State) (k : Nat) (f : Comparator → Comparator) {j : Nat} (h : j ≠ k) :
    comparatorOf (comparatorSet s k f) j = comparatorOf s j := by
  simp [comparatorSet, h]

theorem regWrite_writes (k v : Nat) (s : State) (hp : portHears s = true) (hs : s.mgmt.session = true) (hr : isReady s = true) :
    (k < 8 → exec (.regWrite (0x2600200 + 16 * k) 8 v) s = exec (.pwrCmpWrite k v) s ∧
      (∃ t, exec (.pwrCmpWrite k v) s = .next t ∧ t.out = .mgmtResponse vmRegWrite (statusCode .ok) 0 :: s.out ∧
        comparatorOf t k = { comparatorOf s k with
          enable := bitAt v 0, below := bitAt v 2, action := bits v 3 3, source := bits v 8 8, hysteresis := bits v 16 4
          asserted := (comparatorOf s k).asserted && (comparatorOf s k).source != 0xFF && bits v 8 8 != 0xFF && bitAt v 0 } ∧
        ∀ j, j ≠ k → comparatorOf t j = comparatorOf s j) ∧
      ∃ t, exec (.regWrite (0x2600208 + 16 * k) 8 v) s = .next t ∧ comparatorOf t k = { comparatorOf s k with
        value := v % 2 ^ 64
        asserted := (comparatorOf s k).asserted && (comparatorOf s k).source != 0xFF && (comparatorOf s k).enable }) ∧
    (k < 32 → ∃ t, exec (.regWrite (0x2400800 + 8 * k) 8 v) s = .next t ∧ tget t.boot.lcRequest k 0 = v % 2 ^ 64 ∧
      ∀ j, j ≠ k → tget t.boot.lcRequest j 0 = tget s.boot.lcRequest j 0) ∧
    (∀ size, mgmtReg (k % 2 ^ 26) = .other ∨ size ≠ 8 →
      exec (.regWrite k size v) s = .next { s with out := .mgmtResponse vmRegWrite (statusCode .ok) 0 :: s.out }) := by
  have hrep (j : Nat) : comparatorOf (mgmtReply s vmRegWrite (statusCode .ok) 0) j = comparatorOf s j := rfl
  refine ⟨fun hk => ⟨?_, ⟨_, exec_pwrCmpWrite v hp hs hr hk, ?_, ?_, fun j hj => ?_⟩, ⟨_, exec_regWrite _ _ _ hp hs hr, ?_⟩⟩,
    fun hk => ⟨_, exec_regWrite _ _ _ hp hs hr, ?_, fun j hj => ?_⟩, fun size h => ?_⟩
  · have ha : (0x2600200 + 16 * k) % 2 ^ 26 = 0x2600200 + 16 * k := by omega
    rw [exec_regWrite _ _ _ hp hs hr, exec_pwrCmpWrite v hp hs hr hk, ha]
    simp only [mgmtWrite, mgmtReg_comparator hk]
    rfl
  · rfl
  · rw [comparatorOf_comparatorSet_self, hrep]
    simp [comparatorFields, sourceTime, bne, Bool.and_assoc]
  · rw [comparatorOf_comparatorSet_other _ _ _ hj, hrep]
  · have ha : (0x2600208 + 16 * k) % 2 ^ 26 = 0x2600208 + 16 * k := by omega
    rw [ha]
    simp only [mgmtWrite, mgmtReg_comparatorValue hk]
    rw [if_neg (by simp), comparatorOf_comparatorSet_self, hrep]
    simp [sourceTime, bne]
  · have ha : (0x2400800 + 8 * k) % 2 ^ 26 = 0x2400800 + 8 * k := by omega
    rw [ha]
    simp [mgmtWrite, mgmtReg_lcRequest hk]
  · have ha : (0x2400800 + 8 * k) % 2 ^ 26 = 0x2400800 + 8 * k := by omega
    rw [ha]
    simp [mgmtWrite, mgmtReg_lcRequest hk, hj, mgmtReply, emit]
  · rw [exec_regWrite _ _ _ hp hs hr]
    have hw : mgmtWrite (mgmtReply s vmRegWrite (statusCode .ok) 0) (k % 2 ^ 26) size v =
        mgmtReply s vmRegWrite (statusCode .ok) 0 := by
      obtain h | h := h
      · simp only [mgmtWrite, h]
        split <;> rfl
      · rw [mgmtWrite, if_pos h]
    rw [hw]
    rfl

/-! ### Endpoint ID and sensors -/

theorem endpoint_and_sensors (n : Nat) (s : State) (hp : portHears s = true) :
    (0 < n → n < 0xFF → ∃ t, exec (.setEndpointId n) s = .next t ∧ t.mgmt = { s.mgmt with eid := n }) ∧
    (n = 0 ∨ 0xFF ≤ n → ∃ t, exec (.setEndpointId n) s = .next t ∧ t.mgmt = s.mgmt) ∧
    (inSession s = true → ∀ v, (n = 29 ∧ v = s.pwr.readHub) ∨ (n = 30 ∧ v = s.pwr.readHbm) ∨ (n = 31 ∧ v = s.pwr.readPackage) ∨
        (32 ≤ n ∧ n ≤ 39 ∧ v = (atticPowerOf s (n - 32)).measured) ∨ (n = 64 ∧ v = s.pwr.level) →
      exec (.pldmSensorRead n) s = .next { s with fresh := s.fresh + 1, out := .mgmtResponse vmPldm pldmOk v :: s.out }) := by
  have he : exec (.setEndpointId n) s = execSetEndpointId n s := rfl
  rw [he]
  unfold execSetEndpointId
  rw [if_neg (by simp [hp])]
  refine ⟨fun h0 h1 => ⟨_, by rw [if_neg (by omega)], rfl⟩, fun h => ⟨mgmtReply s vmMctp mctpInvalidData s.mgmt.eid, by rw [if_pos h], rfl⟩,
    fun hi v hv => ?_⟩
  have hread : sensorReading s n = some v := by
    unfold sensorReading
    rw [if_neg (by omega)]
    obtain ⟨rfl, rfl⟩ | ⟨rfl, rfl⟩ | ⟨rfl, rfl⟩ | ⟨h1, h2, rfl⟩ | ⟨rfl, rfl⟩ := hv
    · rfl
    · rfl
    · rfl
    · simp only [heldReading]
      rw [if_neg (by omega), if_neg (by omega), if_neg (by omega), if_pos ⟨h1, h2⟩]
    · rfl
  change execPldmSensorRead n s = _
  simp only [execPldmSensorRead, hread]
  rw [if_neg (by simp [hp]), if_neg (by simp [hi])]
  rfl

end Sys2Proof.Machine

end

section

/-! O55: register writes, BAR2, configuration writes, and the messages of the management port. -/

namespace Sys2Proof

open Machine in
/-- Settles O55: the writes of the register space, the accesses through BAR2 and their completions, the configuration
space and the management port, each by what its command does. -/
theorem registersAndBar2 : Obligations.RegistersAndBar2 :=
  ⟨registerWrite_discarded, registerWrite_waits, registerWrite_mailbox, registerWrite_unit, bar2Access_enters,
    hostCompletion_returns, hostConfigWrite_fields, port_refuses, regRead_answers, mbRequest_served, eventAck_frees,
    regWrite_writes, endpoint_and_sensors⟩

end Sys2Proof

end

section

/-! What the operations around the time master, the links and the strum leave of the clock: the count, the strum and its
fret, the period and a pending one (02 R22, R24, R55). -/

set_option maxRecDepth 4000
set_option exponentiation.threshold 2000

namespace Sys2Proof.Machine

/-- The time base and the strum, without the choice of the time master: TIME_NOW and its rate, STRUM_STATUS, STRUM_COUNT,
STRUM_BOUNDARY_TIME and PERIOD_CHANGE_TIME (02 R22, R24, R55). -/
structure Clock where
  now : Nat
  rateAdj : Int
  periodSteps : Nat
  fret : Nat
  pendingSteps : Nat
  changePending : Bool
  strumCount : Nat
  boundaryTime : Nat
  changeTime : Nat

/-- The clock of a time block. -/
def clockOf (t : TimeSt) : Clock :=
  { now := t.now, rateAdj := t.rateAdj, periodSteps := t.periodSteps, fret := t.fret, pendingSteps := t.pendingSteps
    changePending := t.changePending, strumCount := t.strumCount, boundaryTime := t.boundaryTime
    changeTime := t.changeTime }

/-- The time block `u` has the clock of `t`, and no acquisition step is due in it that was not (02 R48). -/
structure clockKept (t u : TimeSt) : Prop where
  clock : clockOf u = clockOf t
  noStep : t.stepPending = none → u.stepPending = none

namespace clockKept

variable {t u v : TimeSt}

theorem of_eq (h : u = t) : clockKept t u := by
  subst h
  exact ⟨rfl, id⟩

theorem refl (t : TimeSt) : clockKept t t := of_eq rfl

theorem trans (h : clockKept t u) (k : clockKept u v) : clockKept t v :=
  ⟨k.clock.trans h.clock, k.noStep ∘ h.noStep⟩

theorem trans_eq (h : clockKept t u) (k : v = u) : clockKept t v := h.trans (of_eq k)

theorem eq_trans (h : u = t) (k : clockKept u v) : clockKept t v := (of_eq h).trans k

theorem forEach {α : Type} (l : List α) (s : State) {f : State → α → State}
    (h : ∀ s x, clockKept s.time (f s x).time) : clockKept s.time (forEach l s f).time := by
  unfold Machine.forEach
  induction l generalizing s with
  | nil => exact .refl _
  | cons x xs ih => exact (h s x).trans (ih _)

end clockKept

/-! ### The time master (02 R45, R46, R49, R51) -/

/-- The time block once STATE `st` is entered. -/
def enteredTime (t : TimeSt) (st : TimeState) : TimeSt := { t with
  tstate := st
  fallback := t.fallback || !steady st
  wasHoldover := if steady st then t.wasHoldover else
    if t.fallback then t.wasHoldover || heldOver st else heldOver st
  steadySince := if steady st then (if steady t.tstate then t.steadySince else some t.now) else none
  holdoverSince := if st = .holdover ∧ t.tstate ≠ .holdover then t.now else t.holdoverSince }

/-- Entering a STATE changes the time block alone, but for the events of DEGRADED. -/
@[simp] theorem enterTime_time (s : State) (st : TimeState) : (enterTime s st).time = enteredTime s.time st := by
  unfold enterTime
  dsimp only
  split
  · simp; rfl
  · rfl

theorem enterTime_clock (s : State) (st : TimeState) : clockKept s.time (enterTime s st).time := by
  rw [enterTime_time]
  exact ⟨rfl, id⟩

theorem rankMaster_clock (s : State) : clockKept s.time (rankMaster s).time := by
  unfold rankMaster
  dsimp only
  split
  · split
    · exact .refl _
    · simp only [enterTime_time]
      exact ⟨rfl, id⟩
  · split
    · split
      · exact .refl _
      · simp only [enterTime_time]
        refine ⟨rfl, fun h => ?_⟩
        change (if s.time.tstate = .master then s.time.stepPending else none) = none
        rw [h, ite_self]
    · split
      · exact .refl _
      · split
        · exact ⟨rfl, id⟩
        · simp only [enterTime_time]
          exact ⟨rfl, fun _ => rfl⟩

theorem dropTimeLink_clock (s : State) (e : Nat) : clockKept s.time (dropTimeLink s e).time := by
  unfold dropTimeLink
  dsimp only
  split
  · exact ⟨rfl, id⟩
  · split
    · exact ⟨rfl, id⟩
    · simp only [enterTime_time]; exact ⟨rfl, fun _ => rfl⟩

@[simp] theorem sendTimeWord_time (s : State) (e tx : Nat) : (sendTimeWord s e tx).1.time = { s.time with
    links := tmod s.time.links e {} (fun l => { l with
      seq := ((tget s.time.links e {}).seq + 1) % 256, sent := tset l.sent (tget s.time.links e {}).seq tx }) } := rfl

theorem scrubMissed_clock (s : State) (k : Nat) : clockKept s.time (scrubMissed s k).time := by
  unfold scrubMissed
  dsimp only
  split
  · exact .refl _
  · split <;> exact ⟨rfl, id⟩

theorem scrubDeadlines_clock (s : State) : clockKept s.time (scrubDeadlines s).time := by
  refine .forEach _ _ fun s k => ?_
  split
  · exact scrubMissed_clock s k
  · exact .refl _

/-! ### The boundary (02 R33, R49, R54) -/

/-- What a TIME_ROLE_SET left for the boundary takes effect. -/
def roleApplied (s : State) : State :=
  match s.time.roleSet with
  | none => s
  | some r => rankMaster { s with time := { s.time with
      role := r.role, priority := r.priority, ethPtpEn := r.ethPtpEn, ptpDomain := r.ptpDomain, identity := r.identity
      roleSet := none, referenced := s.time.referenced && r.ethPtpEn } }

theorem roleApplied_clock (s : State) : clockKept s.time (roleApplied s).time := by
  unfold roleApplied
  split
  · exact .refl _
  · refine .trans ?_ (rankMaster_clock _)
    exact ⟨rfl, id⟩

/-- What a TIME_BACKGROUND_SET left for the boundary takes effect. -/
def backgroundApplied (s : State) : State :=
  match s.time.backgroundSet with
  | none => s
  | some b => { s with time := { s.time with backgroundEn := b, backgroundSet := none } }

theorem backgroundApplied_clock (s : State) : clockKept s.time (backgroundApplied s).time := by
  unfold backgroundApplied
  split
  · exact .refl _
  · exact ⟨rfl, id⟩

/-- Fret 63 is claimed again where a scrub pass has missed its end. -/
def backgroundReclaims (s : State) : State :=
  if s.time.reclaim then
    raiseMgmt { s with time := { s.time with backgroundEn := true, reclaim := false } } 0 .backgroundReclaimed
      (source ucTime 0) (fun _ => 0)
  else s

theorem backgroundReclaims_clock (s : State) : clockKept s.time (backgroundReclaims s).time := by
  unfold backgroundReclaims
  split
  · refine .trans_eq (u := { s.time with backgroundEn := true, reclaim := false }) ⟨rfl, id⟩ ?_
    simp
  · exact .refl _

/-- The sets of the strum take effect in this order. -/
theorem applyTimeSets_eq (s : State) :
    applyTimeSets s = backgroundReclaims (backgroundApplied (roleApplied s)) := rfl

theorem applyTimeSets_clock (s : State) : clockKept s.time (applyTimeSets s).time := by
  rw [applyTimeSets_eq]
  exact ((roleApplied_clock s).trans (backgroundApplied_clock _)).trans (backgroundReclaims_clock _)

theorem restoreReserved_clock (s : State) : clockKept s.time (restoreReserved s).time := by
  unfold restoreReserved
  dsimp only
  split
  · exact .refl _
  · split
    · exact .refl _
    · split
      · refine .trans_eq (u := { s.time with fallback := false, wasHoldover := false, restoredOnce := true }) ⟨rfl, id⟩ ?_
        simp
      · exact ⟨rfl, id⟩

/-! ### Links (02 R50, R51; 13 R353, R355) -/

theorem dropLinkLayer_clock (s : State) (e : Nat) : clockKept s.time (dropLinkLayer s e).time := by
  unfold dropLinkLayer
  refine .trans_eq (.eq_trans ?_ (dropTimeLink_clock _ e)) (resendFrom_frame ..).1
  simp

theorem dropPtp_clock (s : State) (e : Nat) : clockKept s.time (dropPtp s e).time := by
  unfold dropPtp
  dsimp only
  split
  · split
    · refine .trans ?_ (rankMaster_clock _)
      exact ⟨rfl, id⟩
    · exact ⟨rfl, id⟩
  · exact .refl _

theorem linkDown_clock (s : State) (e reason : Nat) (leaving : Bool) :
    clockKept s.time (linkDown s e reason leaving).time := by
  unfold linkDown
  refine .trans (.eq_trans ?_ (dropLinkLayer_clock _ e)) (dropPtp_clock _ e)
  simp

theorem retrainEngine_clock (s : State) (e : Nat) : clockKept s.time (retrainEngine s e).time := by
  unfold retrainEngine
  split
  · exact .of_eq (by simp)
  · split
    · exact (linkDown_clock ..).trans_eq (startTraining_frame ..).1
    · exact .of_eq (by simp)

theorem engineOff_clock (s : State) (e : Nat) : clockKept s.time (engineOff s e).time := by
  unfold engineOff
  dsimp only
  split
  · exact (linkDown_clock ..).trans_eq (endLinkCmds_frame ..).1
  · exact .of_eq (by simp)

theorem settleRx_clock (s : State) (e : Nat) : clockKept s.time (settleRx s e).time := by
  unfold settleRx
  dsimp only
  split
  · exact (linkDown_clock ..).trans_eq (startTraining_frame ..).1
  · exact .of_eq (by simp)

theorem retrainLanes_clock (s : State) (e mask : Nat) : clockKept s.time (retrainLanes s e mask).time := by
  unfold retrainLanes
  dsimp only
  split
  · refine .trans_eq ?_ (endLinkCmds_frame ..).1
    split
    · exact .of_eq (by simp)
    · split
      · refine .trans_eq (.eq_trans ?_ (linkDown_clock ..)) (startTraining_frame ..).1
        simp
      · exact .of_eq (by simp)
  · refine .eq_trans ?_ (settleRx_clock _ e)
    simp

theorem judgeLane_clock (s : State) (e : Nat) (m : Marker) : clockKept s.time (judgeLane s e m).time := by
  unfold judgeLane
  split
  · exact .refl _
  · split
    · exact .eq_trans (by simp) (settleRx_clock _ e)
    · split
      · exact .eq_trans (by simp) (settleRx_clock _ e)
      · exact .refl _

theorem sendMarkers_clock (s : State) (e tx : Nat) : clockKept s.time (sendMarkers s e tx).time := by
  unfold sendMarkers
  dsimp only
  split
  · split
    · exact ⟨by simp [clockOf], by simp⟩
    · split
      · refine .trans ?_ (linkDown_clock ..)
        exact ⟨by simp [clockOf], by simp⟩
      · refine .trans_eq (.trans ?_ (linkDown_clock ..)) (startTraining_frame ..).1
        exact ⟨by simp [clockOf], by simp⟩
  · exact ⟨by simp [clockOf], by simp⟩

theorem passLinks_clock (s : State) (upto d : Nat) : clockKept s.time (passLinks s upto d).time := by
  refine .forEach _ _ fun s e => ?_
  dsimp only
  split
  · exact .refl _
  · exact .eq_trans (by simp) (.forEach _ _ fun s k => sendMarkers_clock s e _)

theorem ptpSyncs_clock (s : State) : clockKept s.time (ptpSyncs s).time := by
  unfold ptpSyncs
  split
  · exact .refl _
  · refine .forEach _ _ fun s e => ?_
    dsimp only
    split
    · exact ⟨rfl, id⟩
    · exact .refl _

end Sys2Proof.Machine

end

section

/-! Every command keeps the time base legal: a command whose list of components does not name the time block by its frame
(O58), the others by what they do to the clock (02 R22, R24, R25, R55). -/

set_option maxRecDepth 4000
set_option exponentiation.threshold 2000

namespace Sys2Proof.Machine

/-- The legal range of a clock (02 R22, R24, R25, R55). -/
def Clock.legal (c : Clock) : Prop :=
  -200 ≤ c.rateAdj ∧ c.rateAdj ≤ 200 ∧ c.fret ≤ 63 ∧ 4 ≤ c.periodSteps ∧ c.periodSteps ≤ 512 ∧
    (c.changePending = true → 4 ≤ c.pendingSteps ∧ c.pendingSteps ≤ 512)

theorem timeLegal_iff (s : State) : timeLegal s ↔ (clockOf s.time).legal := Iff.rfl

theorem timeLegal_of_clockOf {s t : State} (h : clockOf t.time = clockOf s.time) (hl : timeLegal s) : timeLegal t := by
  rw [timeLegal_iff, h]
  exact hl

theorem clockKept.legal {s t : State} (h : clockKept s.time t.time) (hl : timeLegal s) : timeLegal t :=
  timeLegal_of_clockOf h.clock hl

/-- From a legal time base, every next state of an outcome has a legal one. -/
def nextLegal (s : State) (o : Host.Outcome State Fault Refusal) : Prop :=
  timeLegal s → ∀ t, o = .next t → timeLegal t

namespace nextLegal

variable {s t : State}

theorem of_legal (h : timeLegal s → timeLegal t) : nextLegal s (.next t) := by
  rintro hl u ⟨⟩
  exact h hl

theorem of_clock (h : clockKept s.time t.time) : nextLegal s (.next t) := of_legal h.legal

theorem same (s : State) : nextLegal s (.next s) := of_legal id

theorem of_keeps {l : List Component} {o : Host.Outcome State Fault Refusal} (h : nextKeeps l s o)
    (ht : .time ∉ l) : nextLegal s o :=
  fun hl t ho => (clockKept.of_eq ((h t ho).2 .time ht)).legal hl

end nextLegal

/-! ### The rate, and the words that steer it (02 R22, R47, R48) -/

theorem clampRate_bounds (r : Int) : -200 ≤ clampRate r ∧ clampRate r ≤ 200 := by
  unfold clampRate
  omega

theorem steer_legal {s : State} (h : timeLegal s) : timeLegal (steer s) := by
  obtain ⟨-, -, h⟩ := h
  obtain ⟨hlo, hhi⟩ := clampRate_bounds (Config.rateSteer s.fresh)
  exact ⟨hlo, hhi, h⟩

theorem acquire_clockOf (s : State) (off : Int) : clockOf (acquire s off).time = clockOf s.time := by
  unfold acquire
  split
  · rfl
  · split
    · rfl
    · generalize (if -1 ≤ off ∧ off ≤ 1 then s.time.lockMarkers + 1 else 0) = k
      dsimp only
      split
      · exact (enterTime_clock _ _).clock
      · rfl

theorem measure_legal {s : State} (e : Nat) (w : TimeWord) (t4 : Nat) (asym : Int) (h : timeLegal s) :
    timeLegal (measure s e w t4 asym) := by
  unfold measure
  split
  · exact h
  · dsimp only
    split
    · refine timeLegal_of_clockOf (acquire_clockOf _ _) (steer_legal ?_)
      exact timeLegal_of_clockOf (s := s) rfl h
    · exact timeLegal_of_clockOf (s := s) rfl h

theorem takeTimeWord_legal {s : State} (e : Nat) (w : TimeWord) (t4 : Nat) (asym : Int) (h : timeLegal s) :
    timeLegal (takeTimeWord s e w t4 asym) := by
  have hw (f : LinkTime → LinkTime) :
      timeLegal { s with time := { s.time with links := tmod s.time.links e {} f } } :=
    timeLegal_of_clockOf (s := s) rfl h
  unfold takeTimeWord
  split
  · exact h
  · split
    · exact hw _
    · dsimp only
      split
      · split
        · exact hw _
        · exact ((enterTime_clock ..).trans_eq (raiseMgmt_frame ..).1).legal (hw _)
      · refine measure_legal e w t4 asym ?_
        split
        · exact (rankMaster_clock _).legal (hw _)
        · exact hw _

theorem markerTime_legal {s : State} (e : Nat) (m : Marker) (h : timeLegal s) : timeLegal (markerTime s e m) := by
  unfold markerTime
  split
  · split
    · exact takeTimeWord_legal _ _ _ _ h
    · exact h
  · exact h

theorem acceptMarker_legal {s : State} (e : Nat) (m : Marker) (h : timeLegal s) : timeLegal (acceptMarker s e m) := by
  unfold acceptMarker
  dsimp only
  have hn : timeLegal (notePartner (joinMask (modLane s e m.lane (laneMarked m)) e m.lane) e m) :=
    (clockKept.of_eq (by simp)).legal h
  split
  · split
    · exact ((linkDown_clock ..).trans_eq (startTraining_frame ..).1).legal hn
    · exact hn
  · exact markerTime_legal e m ((clockKept.of_eq (by simp)).legal hn)

theorem takeMarker_legal (e : Nat) (m : Marker) (s : State) : nextLegal s (takeMarker e m s) := by
  have hm (f : Lane → Lane) (h : timeLegal s) : timeLegal (modLane s e m.lane f) := (clockKept.of_eq (by simp)).legal h
  unfold takeMarker
  split
  · exact .same s
  · dsimp only
    split
    · exact .of_legal fun h => (judgeLane_clock ..).legal (hm _ h)
    · split
      · exact .of_legal fun h => (judgeLane_clock ..).legal (acceptMarker_legal e m (hm _ h))
      · exact .of_legal fun h => acceptMarker_legal e m (hm _ h)

/-! ### IEEE 1588 (02 R50) -/

theorem ptpMeasured_legal {s : State} (e : Nat) (off delay : Int) (h : timeLegal s) :
    timeLegal (ptpMeasured s e off delay) := by
  unfold ptpMeasured
  dsimp only
  generalize hu : steer _ = u
  have hl : timeLegal u := hu ▸ steer_legal (timeLegal_of_clockOf (s := s) rfl h)
  split
  · exact timeLegal_of_clockOf (s := u) (rankMaster_clock u).clock hl
  · exact timeLegal_of_clockOf (s := u) rfl hl

theorem ptpTake_legal {s : State} (e : Nat) (m : PtpIn) (h : timeLegal s) : timeLegal (ptpTake s e m) := by
  unfold ptpTake
  dsimp only
  split
  · split <;> exact timeLegal_of_clockOf (s := s) rfl h
  · split
    · exact h
    · exact timeLegal_of_clockOf (s := s) rfl h
  · split
    · split
      · exact h
      · exact ptpMeasured_legal _ _ _ h
    · exact h
  · split
    · exact h
    · exact timeLegal_of_clockOf (s := s) rfl h

theorem execPtpMessage_legal (e : Nat) (m : PtpIn) (domain : Nat) (s : State) :
    nextLegal s (execPtpMessage e m domain s) := by
  unfold execPtpMessage
  dsimp only
  split
  · exact .same s
  · split
    · exact .of_clock ⟨rfl, id⟩
    · exact .of_legal fun h => ptpTake_legal e m (timeLegal_of_clockOf (s := s) rfl h)

/-! ### The links -/

theorem execLaneLoss_legal (e lane reason : Nat) (s : State) : nextLegal s (execLaneLoss e lane reason s) := by
  unfold execLaneLoss
  split
  · exact .same s
  · exact .of_clock (.eq_trans (by simp) (settleRx_clock _ e))

theorem execEthPortLaneLoss_legal (e lane : Nat) (s : State) : nextLegal s (execEthPortLaneLoss e lane s) := by
  unfold execEthPortLaneLoss
  dsimp only
  split
  · exact .same s
  · split
    · exact .of_clock (.of_eq (by simp))
    · split
      · refine .of_clock (.trans_eq (.eq_trans ?_ (linkDown_clock ..)) (startTraining_frame ..).1)
        simp
      · exact .of_clock (.of_eq (by simp))

theorem execTrainingTimeout_legal (e : Nat) (s : State) : nextLegal s (execTrainingTimeout e s) := by
  unfold execTrainingTimeout
  dsimp only
  split
  · exact .same s
  · refine .of_clock (.trans_eq (.trans_eq ?_ (endLinkCmds_frame ..).1) (startTraining_frame ..).1)
    split
    · exact .refl _
    · exact linkDown_clock ..

theorem replay_clock (s : State) (e : Nat) : clockKept s.time (replay s e).time := by
  unfold replay
  dsimp only
  split
  · exact .refl _
  · split
    · exact .eq_trans (by simp) (retrainEngine_clock _ e)
    · exact .of_eq (by simp)

theorem execFlit_legal (e : Nat) (f : FlitIn) (s : State) : nextLegal s (execFlit e f s) := by
  unfold execFlit
  dsimp only
  split
  · exact .same s
  · split
    · exact .of_clock (.of_eq (by simp))
    · split
      · exact .of_clock (.of_eq (by simp))
      · split
        · exact .of_clock (.of_eq (by simp))
        · refine .of_clock (.trans ?_ (.forEach _ _ fun s p => .of_eq (by simp)))
          split
          · exact .eq_trans (by simp) (replay_clock _ e)
          · exact .of_eq (by simp)

theorem execReplayTimeout_legal (e : Nat) (s : State) : nextLegal s (execReplayTimeout e s) := by
  unfold execReplayTimeout
  refine .of_clock ?_
  split
  · exact replay_clock s e
  · exact .refl _

/-- A command of a mailbox keeps the time base legal when its body does: its end changes nothing of it. -/
theorem runCmd_legal {s : State} {c op : Nat} {body : State → Taken → State}
    (h : ∀ t, timeLegal s → timeLegal (body s t)) : nextLegal s (.next (runCmd s c op body)) := by
  unfold runCmd
  split
  · exact .same s
  · split
    · exact .of_clock (.of_eq (by simp))
    · split
      · exact .of_clock (.of_eq (by simp))
      · exact .of_legal (h _)

theorem execLinkRetrain_legal (c : Nat) (s : State) : nextLegal s (execLinkRetrain c s) := by
  refine runCmd_legal fun t => clockKept.legal ?_
  dsimp only
  split
  · exact .of_eq (by simp)
  · split
    · exact .of_eq (by simp)
    · split
      · exact .eq_trans (by simp) (retrainEngine_clock ..)
      · split
        · exact .of_eq (by simp)
        · exact .eq_trans (by simp) (retrainLanes_clock ..)

theorem execLinkModeSet_legal (c : Nat) (s : State) : nextLegal s (execLinkModeSet c s) := by
  refine runCmd_legal fun t => clockKept.legal ?_
  dsimp only
  split
  · exact .of_eq (by simp)
  · split
    · exact .eq_trans (by simp) (retrainEngine_clock ..)
    · exact .of_eq (by simp)

/-- An engine that sleeps goes down (13 R365); no other unit touches the time block. -/
theorem unitSleeps_clock (s : State) (d : Nat) (x : Domain) : clockKept s.time (unitSleeps s d x).time := by
  unfold unitSleeps
  split
  · exact .of_eq (by simp)
  · split
    · exact .of_eq (by simp)
    · split
      · exact engineOff_clock ..
      · exact .of_eq (by simp)

theorem execPowerDomainEntryDone_legal (d : Nat) (s : State) : nextLegal s (execPowerDomainEntryDone d s) := by
  unfold execPowerDomainEntryDone
  dsimp only
  split
  · exact .same s
  · have he : (entryReady s d (domainOf s d)).1.time = s.time := (entryReady_frame ..).1
    split <;> rename_i h
    · rw [h] at he
      exact .of_clock (.of_eq he)
    · rw [h] at he
      refine .of_clock (.eq_trans he ((unitSleeps_clock _ d (domainOf s d)).trans_eq ?_))
      simp

theorem execScrubSegmentDue_legal (k : Nat) (s : State) : nextLegal s (execScrubSegmentDue k s) := by
  unfold execScrubSegmentDue
  split
  · exact .same s
  · dsimp only
    refine .of_clock ?_
    split
    · split
      · exact .eq_trans (by simp) (scrubMissed_clock ..)
      · exact .of_eq (by simp)
    · split
      · refine .trans_eq (.trans_eq (.eq_trans ?_ (scrubMissed_clock _ k)) (raiseTo_frame ..).1) (raiseMgmt_frame ..).1
        simp
      · exact .of_eq (by simp)

/-! ### The TIME commands (02 R33, R55) -/

/-- The end of a synchronous command keeps the time base legal when its effect does, once its checks have passed. -/
theorem finishSync_legal {s : State} {c : Nat} {bad : Option Status} {eff : State → State} {result : State → Nat}
    (h : bad = none → timeLegal (commit s).1 → timeLegal (eff (commit s).1)) (hl : timeLegal s) :
    timeLegal (finishSync s c bad eff result) := by
  unfold finishSync
  split
  · exact (clockKept.of_eq (by simp)).legal hl
  · refine (clockKept.of_eq (complete_frame ..).1).legal (h rfl ?_)
    exact (clockKept.of_eq (by simp)).legal hl

@[simp] theorem firstFail_cons_eq_none {α : Type} (bad : Bool) (st : α) (l : List (Bool × α)) :
    firstFail ((bad, st) :: l) = none ↔ bad = false ∧ firstFail l = none := by
  cases bad <;> simp [firstFail]

/-- A period that passes the checks is one of 4 to 512 steps. -/
theorem period_of_not_refused {t : TimeSt} {takenAt p e rsvd : Nat} (h : periodSetRefused t takenAt p e rsvd = none) :
    4 ≤ p ∧ p ≤ 512 := by
  simp [periodSetRefused] at h
  obtain ⟨⟨hp, -⟩, -⟩ := h
  exact hp

theorem execTimePeriodSet_legal (c : Nat) (s : State) : nextLegal s (execTimePeriodSet c s) := by
  refine runCmd_legal fun t hl => finishSync_legal (fun hb h => ?_) hl
  obtain ⟨h1, h2, h3, h4, h5, -⟩ := h
  exact ⟨h1, h2, h3, h4, h5, fun _ => period_of_not_refused hb⟩

theorem execTimeRoleSet_legal (c : Nat) (s : State) : nextLegal s (execTimeRoleSet c s) :=
  runCmd_legal fun _ hl => finishSync_legal (fun _ h => timeLegal_of_clockOf (s := (commit s).1) rfl h) hl

theorem execTimeBackgroundSet_legal (c : Nat) (s : State) : nextLegal s (execTimeBackgroundSet c s) :=
  runCmd_legal fun _ hl => finishSync_legal (fun _ h => timeLegal_of_clockOf (s := (commit s).1) rfl h) hl

theorem execHoldoverTimeout_legal (s : State) : nextLegal s (execHoldoverTimeout s) := by
  unfold execHoldoverTimeout
  split
  · exact .of_clock (enterTime_clock s _)
  · exact .same s

/-! ### The strum (02 R24, R27, R48, R55) -/

/-- The next boundary after the count of a clock. -/
def Clock.nextBoundary (c : Clock) : Nat := (c.now / periodUnits c.periodSteps + 1) * periodUnits c.periodSteps

/-- A pending period whose effective time has come at the next boundary (02 R55). -/
def Clock.changes (c : Clock) : Bool := c.changePending && c.changeTime ≤ c.nextBoundary

/-- The clock after a boundary (02 R24, R55). -/
def Clock.atBoundary (c : Clock) : Clock :=
  { now := c.nextBoundary % 2 ^ 64, rateAdj := c.rateAdj, fret := 0
    periodSteps := if c.changes then c.pendingSteps else c.periodSteps
    pendingSteps := if c.changes then 0 else c.pendingSteps
    changePending := c.changePending && !c.changes
    strumCount := (c.strumCount + 1) % 2 ^ 64, boundaryTime := c.nextBoundary % 2 ^ 64
    changeTime := if c.changes then 0 else c.changeTime }

theorem Clock.atBoundary_legal {c : Clock} (h : c.legal) : c.atBoundary.legal := by
  obtain ⟨hlo, hhi, -, hp, hp', hpend⟩ := h
  cases hc : c.changes with
  | false => simpa [legal, atBoundary, hc, hlo, hhi, hp, hp'] using hpend
  | true =>
    have hq : c.changePending = true := by simp_all [changes]
    simp [legal, atBoundary, hc, hlo, hhi, hpend hq]

/-- The first boundary after a start ranks the candidates (02 R543). -/
def firstRanked (s : State) : State :=
  if s.time.ranked then s else rankMaster { s with time := { s.time with ranked := true } }

theorem firstRanked_clock (s : State) : clockKept s.time (firstRanked s).time := by
  unfold firstRanked
  split
  · exact .refl _
  · refine .trans ?_ (rankMaster_clock _)
    exact ⟨rfl, id⟩

/-- With no step due, the time base reaches its boundary. -/
theorem timeBoundary_clock {s : State} (h : s.time.stepPending = none) :
    clockOf (timeBoundary s).1.time = (clockOf s.time).atBoundary ∧ (timeBoundary s).2 = true := by
  unfold timeBoundary
  rw [h]
  dsimp only
  refine ⟨?_, rfl⟩
  have hk : clockOf (firstRanked s).time = clockOf s.time := (firstRanked_clock s).clock
  have hn : nextBoundary s.time = (clockOf (firstRanked s).time).nextBoundary := hk ▸ rfl
  rw [(restoreReserved_clock _).clock, (applyTimeSets_clock _).clock, hn, ← hk]
  rfl

/-- With a step due, the time base steps within its last fret and emits no boundary. -/
theorem timeBoundary_step {s : State} {d : Int} (h : s.time.stepPending = some d) :
    clockOf (timeBoundary s).1.time = { clockOf s.time with
      now := unsignedOf (nextBoundary s.time + d) 64, fret := 63 } ∧ (timeBoundary s).2 = false := by
  unfold timeBoundary
  rw [h]
  simp
  rfl

theorem timeBoundary_legal {s : State} (h : timeLegal s) : timeLegal (timeBoundary s).1 := by
  rw [timeLegal_iff]
  cases hd : s.time.stepPending with
  | none =>
    rw [(timeBoundary_clock hd).1]
    exact Clock.atBoundary_legal h
  | some d =>
    rw [(timeBoundary_step hd).1]
    obtain ⟨hlo, hhi, -, hp⟩ := h
    exact ⟨hlo, hhi, le_refl 63, hp⟩

theorem recordPlan_clock (s : State) (l : List (Nat × Step)) (a : PlanAcc) (n : Nat) :
    clockKept s.time (recordPlan s l a n).time := by
  unfold recordPlan
  exact ⟨by simp [clockOf], by simp⟩

theorem buildPlan_clock (s : State) : clockKept s.time (buildPlan s).time := by
  unfold buildPlan
  dsimp only
  refine .eq_trans ?_ (recordPlan_clock ..)
  simp

theorem runBoundary_clock (s : State) : clockKept s.time (runBoundary s).time := by
  unfold runBoundary
  dsimp only
  refine .trans_eq ?_ (latchCounts_frame ..).1
  split
  · refine .eq_trans ?_ (buildPlan_clock _)
    simp
  · exact .of_eq (by simp)

/-- The meters read the last fret of a strum that runs. -/
def metered (s : State) : State := if 0 < s.time.strumCount then meterFret s else s

@[simp] theorem metered_time (s : State) : (metered s).time = s.time := by
  unfold metered
  split <;> simp

/-- The state in which a strum reaches its boundary: the meters of its last fret are read, the markers that fall due are
sent, and the scrub passes are judged (02 R27, R33; 13 R347). -/
def atStrumEnd (s : State) : State :=
  scrubDeadlines (passLinks (metered s) (nextBoundary (metered s).time)
    (nextBoundary (metered s).time - (metered s).time.now))

theorem atStrumEnd_clock (s : State) : clockKept s.time (atStrumEnd s).time :=
  .trans (.eq_trans (metered_time s) (passLinks_clock ..)) (scrubDeadlines_clock _)

/-- A hub that is READY, with its clocks running, ends its strum. -/
theorem execStrumBoundary_ready {s : State} (h1 : s.boot.stopped = false) (h2 : s.boot.coldResetLow = false)
    (h3 : s.boot.stage = .ready) : execStrumBoundary s = .next (if (timeBoundary (atStrumEnd s)).2
      then ptpSyncs (runBoundary (timeBoundary (atStrumEnd s)).1) else (timeBoundary (atStrumEnd s)).1) := by
  rcases hb : timeBoundary (atStrumEnd s) with ⟨u, b⟩
  unfold atStrumEnd metered at hb
  unfold execStrumBoundary
  rw [if_neg (by simp [h1, h2, h3])]
  dsimp only
  rw [hb]
  cases b <;> simp

/-- Before READY, and while the clocks are stopped, no strum runs. -/
theorem execStrumBoundary_idle {s : State} (h : s.boot.stopped ∨ s.boot.coldResetLow ∨ s.boot.stage ≠ .ready) :
    execStrumBoundary s = .next s := by
  unfold execStrumBoundary
  rw [if_pos h]

theorem execStrumBoundary_legal (s : State) : nextLegal s (execStrumBoundary s) := by
  by_cases h : s.boot.stopped ∨ s.boot.coldResetLow ∨ s.boot.stage ≠ .ready
  · rw [execStrumBoundary_idle h]
    exact .same s
  · simp only [not_or, Bool.not_eq_true, not_not] at h
    obtain ⟨h1, h2, h3⟩ := h
    rw [execStrumBoundary_ready h1 h2 h3]
    refine .of_legal fun hl => ?_
    have hb : timeLegal (timeBoundary (atStrumEnd s)).1 := timeBoundary_legal ((atStrumEnd_clock s).legal hl)
    split
    · exact ((runBoundary_clock _).trans (ptpSyncs_clock _)).legal hb
    · exact hb

/-- The state at the start of fret `f`, at the time `t`. -/
def atFret (s : State) (t f : Nat) : State :=
  passLinks { s with time := { s.time with now := max t s.time.now % 2 ^ 64, fret := f } } (max t s.time.now) (t - s.time.now)

theorem atFret_clock (s : State) (t f : Nat) :
    clockOf (atFret s t f).time = { clockOf s.time with now := max t s.time.now % 2 ^ 64, fret := f } :=
  (passLinks_clock ..).clock

/-- What a fret edge does beside the clock: the power manager, the plan of fret 1, the routing and the reserved transfers. -/
def fretWork (s : State) (f : Nat) : State :=
  let u := heldCycles (powerFret s f)
  retryParts (fretTransfers (if f = 1 then planDispatch u else routeFret u) f)

@[simp] theorem fretWork_time (s : State) (f : Nat) : (fretWork s f).time = s.time := by
  simp [fretWork]

/-- A fret edge of a hub that is READY. -/
theorem execFretEdge_ready {s : State} {t : Nat} (h1 : s.boot.stopped = false) (h2 : s.boot.coldResetLow = false)
    (h3 : s.boot.stage = .ready) (ht : nextFretEdge s.time = some t) :
    execFretEdge s = .next (fretWork (atFret s t (s.time.fret + 1)) (s.time.fret + 1)) := by
  unfold execFretEdge
  rw [if_neg (by simp [h1, h2, h3]), ht]
  rfl

theorem execFretEdge_legal (s : State) : nextLegal s (execFretEdge s) := by
  by_cases h : s.boot.stopped ∨ s.boot.coldResetLow ∨ s.boot.stage ≠ .ready
  · unfold execFretEdge
    rw [if_pos h]
    exact .same s
  · cases ht : nextFretEdge s.time with
    | none =>
      unfold execFretEdge
      rw [if_neg h, ht]
      exact .same s
    | some t =>
      simp only [not_or, Bool.not_eq_true, not_not] at h
      obtain ⟨h1, h2, h3⟩ := h
      rw [execFretEdge_ready h1 h2 h3 ht]
      refine .of_legal fun hl => ?_
      rw [timeLegal_iff, fretWork_time, atFret_clock]
      have hf : s.time.fret + 1 ≤ 63 := by
        unfold nextFretEdge at ht
        split at ht
        · omega
        · cases ht
      obtain ⟨hlo, hhi, -, hp⟩ := hl
      exact ⟨hlo, hhi, hf, hp⟩

theorem tick_clock (s : State) : clockOf (tick s).time = { clockOf s.time with
    now := if s.boot.coldResetLow = false ∧ s.time.now + 1 < nextEdge s.time then (s.time.now + 1) % 2 ^ 64
      else s.time.now } := by
  unfold tick
  split
  · exact (passLinks_clock ..).clock
  · rfl

theorem tick_legal {s : State} (h : timeLegal s) : timeLegal (tick s) := by
  rw [timeLegal_iff, tick_clock]
  exact h

/-! ### Starts and resets of the whole device (16 R440, R466, R470) -/

theorem startFrom_clockOf (s : State) (inp : StartInput) : clockOf (startFrom s inp).time = clockOf s.time := by
  unfold startFrom
  simp [clockOf]

theorem startFrom_legal {s : State} (inp : StartInput) (h : timeLegal s) : timeLegal (startFrom s inp) :=
  timeLegal_of_clockOf (startFrom_clockOf s inp) h

/-- STRAP_STRUM names a legal period (02 Table 2-2). -/
theorem strapPeriod_bounds (n : Nat) : 4 ≤ strapPeriod n ∧ strapPeriod n ≤ 512 := by
  have h1 : 1 ≤ 2 ^ (n % 4) := Nat.one_le_two_pow
  have h2 : 2 ^ (n % 4) ≤ 2 ^ 3 := Nat.pow_le_pow_right (by decide) (by omega)
  unfold strapPeriod
  omega

theorem deviceCleared_legal {s : State} (stays : Bool) (h : timeLegal s) : timeLegal (deviceCleared s stays) := by
  obtain ⟨hlo, hhi, -⟩ := h
  obtain ⟨hp, hp'⟩ := strapPeriod_bounds s.boot.straps.strum
  unfold deviceCleared
  split <;> exact ⟨hlo, hhi, Nat.zero_le _, hp, hp', nofun⟩

/-- A time base that counts from 0 is legal with its period. -/
theorem resetTime_legal {s : State} {p : Nat} (hp : 4 ≤ p) (hp' : p ≤ 512)
    (h : s.time = { periodSteps := p } := by rfl) : timeLegal s := by
  unfold timeLegal
  rw [h]
  exact ⟨by simp, by simp, Nat.zero_le _, hp, hp', nofun⟩

theorem coldCleared_legal (s : State) : timeLegal (coldCleared s) :=
  resetTime_legal (p := 32) (by decide) (by decide)

theorem coldStart_legal (s : State) (inp : StartInput) : timeLegal (coldStart s inp) := by
  obtain ⟨hp, hp'⟩ := strapPeriod_bounds inp.straps.strum
  exact startFrom_legal inp (resetTime_legal hp hp')

theorem deviceResetRecords_legal {s : State} (inp : StartInput) (h : timeLegal s) :
    timeLegal (deviceResetRecords s inp) := by
  have he : timeLegal (endContexts s) := (clockKept.of_eq (endContexts_frame s).1).legal h
  exact startFrom_legal inp ((clockKept.of_eq (raiseTo_frame ..).1).legal (deviceCleared_legal true he))

theorem execColdReset_legal (inp : StartInput) (s : State) : nextLegal s (execColdReset inp s) := by
  unfold execColdReset
  generalize hu : (if s.boot.coldResetLow then s else coldCleared s) = u
  have hl (h : timeLegal s) : timeLegal u := by
    subst hu
    split
    · exact h
    · exact coldCleared_legal s
  dsimp only
  split
  · exact .of_legal fun h => timeLegal_of_clockOf (s := u) rfl (hl h)
  · exact .of_legal fun _ => coldStart_legal _ inp

theorem execColdResetAssert_legal (s : State) : nextLegal s (execColdResetAssert s) := by
  refine .of_legal fun h => ?_
  split
  · exact h
  · exact coldCleared_legal s

theorem execSensorsCooled_legal (inp : StartInput) (s : State) : nextLegal s (execSensorsCooled inp s) := by
  unfold execSensorsCooled
  dsimp only
  split
  · exact .of_clock (.refl _)
  · split
    · exact .of_clock (.refl _)
    · exact .of_legal fun _ => coldStart_legal _ inp

theorem execHostPerst_legal (inp : StartInput) (s : State) : nextLegal s (execHostPerst inp s) := by
  refine .of_legal fun h => ?_
  split
  · exact startFrom_legal inp (deviceCleared_legal false h)
  · exact h

theorem execFunctionLevelReset_legal (inp : StartInput) (s : State) : nextLegal s (execFunctionLevelReset inp s) := by
  refine .of_legal fun h => ?_
  split
  · exact startFrom_legal inp (deviceCleared_legal true h)
  · exact h

theorem execDeviceReset_legal (inp : StartInput) (s : State) : nextLegal s (execDeviceReset inp s) := by
  have hr (kind status value : Nat) : (mgmtReply s kind status value).time = s.time := (mgmtReply_frame ..).1
  unfold execDeviceReset
  split
  · exact .same s
  · split
    · exact .of_clock (.of_eq (hr ..))
    · split
      · exact .of_clock (.of_eq (hr ..))
      · exact .of_legal fun h => deviceResetRecords_legal inp ((clockKept.of_eq (hr ..)).legal h)

theorem execCpWatchdog_legal (inp : StartInput) (s : State) : nextLegal s (execCpWatchdog inp s) := by
  unfold execCpWatchdog
  split
  · exact .same s
  · dsimp only
    split
    · exact .of_legal (deviceResetRecords_legal inp)
    · exact .of_clock (.of_eq (restartCp_frame s).1)

/-! ### Every command -/

/-- A command that may change the time block keeps it legal; the others leave it as it was. -/
theorem exec_legal (i : Instr) (s : State) : nextLegal s (exec i s) := by
  by_cases ht : (changes i).contains .time = true
  · cases i
    case timePeriodSet c => exact execTimePeriodSet_legal c s
    case timeRoleSet c => exact execTimeRoleSet_legal c s
    case timeBackgroundSet c => exact execTimeBackgroundSet_legal c s
    case timeWordTimeout e => exact .of_clock (dropTimeLink_clock s e)
    case holdoverTimeout => exact execHoldoverTimeout_legal s
    case scrubSegmentDue k => exact execScrubSegmentDue_legal k s
    case ptpMessage e m d => exact execPtpMessage_legal e m d s
    case linkRetrain c => exact execLinkRetrain_legal c s
    case linkModeSet c => exact execLinkModeSet_legal c s
    case laneLoss e l r => exact execLaneLoss_legal e l r s
    case trainingTimeout e => exact execTrainingTimeout_legal e s
    case ethPortLaneLoss e l => exact execEthPortLaneLoss_legal e l s
    case flit e f => exact execFlit_legal e f s
    case replayTimeout e => exact execReplayTimeout_legal e s
    case markerReceived e m => exact takeMarker_legal e (lineMarker m) s
    case strumBoundary => exact execStrumBoundary_legal s
    case fretEdge => exact execFretEdge_legal s
    case powerDomainEntryDone d => exact execPowerDomainEntryDone_legal d s
    case deviceReset inp => exact execDeviceReset_legal inp s
    case coldReset inp => exact execColdReset_legal inp s
    case hostPerst inp => exact execHostPerst_legal inp s
    case functionLevelReset inp => exact execFunctionLevelReset_legal inp s
    case cpWatchdog inp => exact execCpWatchdog_legal inp s
    case coldResetAssert => exact execColdResetAssert_legal s
    case sensorsCooled inp => exact execSensorsCooled_legal inp s
    all_goals exact absurd ht Bool.false_ne_true
  · exact .of_keeps (exec_keeps i s) (by simpa using ht)

end Sys2Proof.Machine

end

section

/-! O4: the time base stays within its limits, whatever command is at the front of the queue. -/

namespace Sys2Proof

open Machine in
/-- Settles O4: an idle step and every command keep the time base legal, by the case of the command. -/
theorem timeBaseStaysLegal : Obligations.TimeBaseStaysLegal := by
  intro s s' h hs
  cases hq : s.pending with
  | nil =>
    simp only [step, hq, Host.Outcome.next.injEq] at hs
    exact hs ▸ tick_legal h
  | cons c rest =>
    simp only [step, hq] at hs
    exact exec_legal c { s with pending := rest } h s' hs

end Sys2Proof

end

section

/-! O2: what STRUM_BOUNDARY and FRET_EDGE do to the clock (02 R24, R26, R27, R55). -/

namespace Sys2Proof.Machine

/-- A boundary with no acquisition step due: the hub's work at it leaves the clock of the time base alone. -/
theorem strumBoundary_clock {s : State} (h1 : s.boot.stopped = false) (h2 : s.boot.coldResetLow = false)
    (h3 : s.boot.stage = .ready) (hs : s.time.stepPending = none) :
    ∃ t, exec .strumBoundary s = .next t ∧ clockOf t.time = (clockOf s.time).atBoundary := by
  have hk := atStrumEnd_clock s
  obtain ⟨hc, he⟩ := timeBoundary_clock (hk.noStep hs)
  refine ⟨ptpSyncs (runBoundary (timeBoundary (atStrumEnd s)).1), ?_, ?_⟩
  · exact (execStrumBoundary_ready h1 h2 h3).trans (by rw [if_pos he])
  · rw [(ptpSyncs_clock _).clock, (runBoundary_clock _).clock, hc, hk.clock]

/-- A fret edge of a strum that runs. -/
theorem fretEdge_clock {s : State} (h1 : s.boot.stopped = false) (h2 : s.boot.coldResetLow = false)
    (h3 : s.boot.stage = .ready) (hf : s.time.fret < 63) (hc : 0 < s.time.strumCount) :
    ∃ t, exec .fretEdge s = .next t ∧ clockOf t.time = { clockOf s.time with
      now := max (s.time.boundaryTime + (s.time.fret + 1) * s.time.periodSteps * 500) s.time.now % 2 ^ 64
      fret := s.time.fret + 1 } :=
  ⟨_, execFretEdge_ready h1 h2 h3 (if_pos ⟨hf, hc⟩), by rw [fretWork_time, atFret_clock]⟩

end Sys2Proof.Machine

namespace Sys2Proof

open Machine in
/-- Settles O2: the fields of the clock after a boundary and after a fret edge. -/
theorem boundaryAndFrets : Obligations.BoundaryAndFrets := by
  intro s h1 h2 h3
  refine ⟨fun hs => ?_, fun hf hc => ?_⟩
  · obtain ⟨t, ht, hk⟩ := strumBoundary_clock h1 h2 h3 hs
    refine ⟨t, nextBoundary s.time, ht, rfl, congrArg Clock.now hk, congrArg Clock.boundaryTime hk,
      congrArg Clock.fret hk, congrArg Clock.strumCount hk, (congrArg Clock.periodSteps hk).trans ?_⟩
    change (if (clockOf s.time).changes = true then _ else _) = _
    refine if_congr ?_ rfl rfl
    rw [Clock.changes, Bool.and_eq_true, decide_eq_true_eq]
    rfl
  · obtain ⟨t, ht, hk⟩ := fretEdge_clock h1 h2 h3 hf hc
    exact ⟨t, ht, congrArg Clock.fret hk, congrArg Clock.now hk, congrArg Clock.strumCount hk,
      congrArg Clock.boundaryTime hk⟩

end Sys2Proof

end

section

/-! O6: the step on an empty queue (02 R22; 13 R347). -/

set_option maxRecDepth 4000
set_option exponentiation.threshold 2000

namespace Sys2Proof.Machine

theorem forEach_fixed {α : Type} (l : List α) (s : State) (f : State → α → State) (h : ∀ x ∈ l, f s x = s) :
    forEach l s f = s := by
  unfold forEach
  induction l with
  | nil => rfl
  | cons x xs ih =>
    rw [List.foldl_cons, h x List.mem_cons_self]
    exact ih fun y hy => h y (List.mem_cons_of_mem x hy)

/-- No native engine sends markers: each that trains or is up is in Ethernet mode, or its domain is not live. -/
def noMarkers (s : State) : Prop :=
  ∀ e, e < 12 → (engineOf s e).estate = .training ∨ (engineOf s e).estate = .up →
    isEthernet (engineOf s e) = true ∨ domainLive s (domEngine e) = false

/-- Where no native engine sends markers, nothing passes on the links. -/
theorem passLinks_idle {s : State} (h : noMarkers s) (upto d : Nat) : passLinks s upto d = s := by
  refine forEach_fixed _ _ _ fun e he => if_pos ?_
  by_cases ht : (engineOf s e).estate = .training ∨ (engineOf s e).estate = .up
  · rcases h e (List.mem_range.mp he) ht with hx | hx <;> simp [hx]
  · simp [not_or.mp ht]

theorem tick_keeps (s : State) : keeps [.time, .cp, .mgmt, .link, .chord, .fresh, .out] s (tick s) := by
  simp [keeps_iff]

/-- Where no native engine sends markers, an idle step moves TIME_NOW alone. -/
theorem tick_idle {s : State} (h : noMarkers s) : tick s = { s with time := { s.time with now := (tick s).time.now } } := by
  unfold tick
  split
  · have hu : noMarkers { s with time := { s.time with now := (s.time.now + 1) % 2 ^ 64 } } := h
    rw [passLinks_idle hu]
  · rfl

end Sys2Proof.Machine

namespace Sys2Proof

open Machine in
/-- Settles O6: an idle step is a tick of the time base. -/
theorem emptyQueueTicks : Obligations.EmptyQueueTicks := by
  intro s hq
  have hs : step s = .next (tick s) := by simp only [step, hq]
  have hn := congrArg Clock.now (tick_clock s)
  obtain ⟨hp, hk⟩ := tick_keeps s
  refine ⟨tick s, hs, hp.trans hq, hk, tick_idle, fun hc hd => hn.trans (if_pos ⟨hc, hd⟩), fun hd => hn.trans (if_neg ?_)⟩
  rintro ⟨hc, hlt⟩
  rcases hd with hd | hd
  · exact Bool.false_ne_true (hc.symm.trans hd)
  · exact absurd hlt (Nat.not_lt.mpr hd)

end Sys2Proof

end

section

/-! O3: time words that stop, holdover that lasts, and the messages of IEEE 1588 (02 R49 to R52). -/

set_option maxRecDepth 4000
set_option exponentiation.threshold 2000

namespace Sys2Proof.Machine

/-- The time block once link `e` is dropped as a candidate (02 R51). -/
def linkDropped (t : TimeSt) (e : Nat) : TimeSt :=
  { t with links := tmod t.links e {} (fun l => { l with cand := none }) }

/-- Time words stop on the link that is followed, and no other carries the master (02 R51). -/
theorem dropTimeLink_lost {s : State} {e : Nat} (he : s.time.selEngine = e)
    (hf : s.time.tstate = .acquiring ∨ s.time.tstate = .locked)
    (hb : bestLink (candidateLinks (linkDropped s.time e)) s.time.gmId = none) :
    (dropTimeLink s e).time =
      { reportSelf (enteredTime (linkDropped s.time e) .holdover) 2 with stepPending := none } := by
  unfold linkDropped at hb
  unfold dropTimeLink
  dsimp only
  rw [if_neg (by simp [he, hf]), hb]
  dsimp only
  rw [enterTime_time]
  rfl

/-- Time words stop on a link that is not followed. -/
theorem dropTimeLink_other {s : State} {e : Nat} (he : s.time.selEngine ≠ e) :
    (dropTimeLink s e).time = linkDropped s.time e := by
  unfold dropTimeLink
  dsimp only
  rw [if_pos (.inl he)]
  rfl

theorem rankMaster_ptp (s : State) : (rankMaster s).time.ptpStamp = s.time.ptpStamp ∧
    (rankMaster s).time.referenced = s.time.referenced ∧ (rankMaster s).time.offset = s.time.offset := by
  unfold rankMaster
  dsimp only
  split
  · split
    · exact ⟨rfl, rfl, rfl⟩
    · simp only [enterTime_time]
      exact ⟨rfl, rfl, rfl⟩
  · split
    · split
      · exact ⟨rfl, rfl, rfl⟩
      · simp only [enterTime_time]
        exact ⟨rfl, rfl, rfl⟩
    · split
      · exact ⟨rfl, rfl, rfl⟩
      · split
        · exact ⟨rfl, rfl, rfl⟩
        · simp only [enterTime_time]
          exact ⟨rfl, rfl, rfl⟩

theorem ptpMeasured_time (s : State) (e : Nat) (off delay : Int) :
    (ptpMeasured s e off delay).time.ptpStamp = s.time.ptpStamp ∧
    (ptpMeasured s e off delay).time.referenced = true ∧ (ptpMeasured s e off delay).time.offset = off := by
  unfold ptpMeasured
  dsimp only
  split
  · exact rankMaster_ptp _
  · exact ⟨rfl, rfl, rfl⟩

theorem ptpTake_stamp (s : State) (e : Nat) (m : PtpIn) : (ptpTake s e m).time.ptpStamp = s.time.ptpStamp := by
  unfold ptpTake
  dsimp only
  split
  · split <;> rfl
  · split <;> rfl
  · split
    · split
      · rfl
      · exact (ptpMeasured_time ..).1
    · rfl
  · split <;> rfl

/-- A Delay_Resp that answers the last Delay_Req, with the times of the Sync known (02 R50). -/
theorem ptpTake_delayResp {s : State} {m : PtpIn} {t1 t3 : Nat} (e : Nat) (hm : m.kind = .delayResp)
    (hq : m.seq = s.time.ptp.delaySeq) (h1 : s.time.ptp.t1 = some t1) (h3 : s.time.ptp.t3 = some t3) :
    ∃ delay, ptpTake s e m =
      ptpMeasured s e ((((m.time : Int) - m.correction - t3) - ((s.time.ptp.t2 : Int) - t1)) / 2) delay := by
  unfold ptpTake
  simp only [hm, h1, h3]
  rw [if_neg (not_not.mpr hq)]
  exact ⟨_, rfl⟩

/-- The hub has stamped an IEEE 1588 message. -/
def stamped (s : State) : State := { s with time := { s.time with ptpStamp := s.time.now } }

/-- A message of the configured domain is taken, on an Ethernet-mode engine that is up. -/
theorem execPtpMessage_taken {s : State} {e domain : Nat} (m : PtpIn) (hu : (engineOf s e).estate = .up)
    (he : isEthernet (engineOf s e) = true) (hp : s.time.ethPtpEn = true) (hd : domain = s.time.ptpDomain)
    (hr : s.time.role ≠ 2) : exec (.ptpMessage e m domain) s = .next (ptpTake (stamped s) e m) := by
  change execPtpMessage e m domain s = _
  unfold execPtpMessage
  dsimp only
  rw [if_neg (by simp [hu, he]), if_neg (by simp [hp, hd, hr])]
  rfl

end Sys2Proof.Machine

namespace Sys2Proof

open Machine in
/-- Settles O3: the time block after a link is dropped, after HOLDOVER, and after a message of IEEE 1588. -/
theorem losingTheTimeMaster : Obligations.LosingTheTimeMaster := by
  refine ⟨fun e s he hf hb => ?_, fun e s he => ?_, fun s hs => ?_, fun e domain m s hu he hp hd hr => ?_⟩
  · refine ⟨dropTimeLink s e, rfl, ?_⟩
    rw [dropTimeLink_lost he hf hb]
    exact ⟨rfl, Bool.or_true _, rfl, rfl, rfl⟩
  · refine ⟨dropTimeLink s e, rfl, ?_⟩
    rw [dropTimeLink_other he]
    exact ⟨by simp [linkDropped], rfl⟩
  · refine ⟨enterTime s .degraded, if_pos hs, ?_⟩
    rw [enterTime_time]
    exact ⟨rfl, Bool.or_true _⟩
  · refine ⟨_, execPtpMessage_taken m hu he hp hd hr, ptpTake_stamp .., fun hm hq t1 t3 h1 h3 => ?_⟩
    obtain ⟨delay, ht⟩ := ptpTake_delayResp (s := stamped s) e hm hq h1 h3
    rw [ht]
    exact (ptpMeasured_time ..).2

end Sys2Proof

end

section

/-! O1: the TIME commands of a mailbox, their answers and what they leave for the boundary (02 R33, R45, R55; 03 R71). -/

set_option maxRecDepth 4000
set_option exponentiation.threshold 2000

namespace Sys2Proof.Machine

/-! ### The end of a synchronous command -/

/-- The query of a command that runs is answered at once and changes nothing of the time block. -/
theorem finishQuery_answers {s : State} {c op : Nat} {t : Taken} (h : runs s c op t) (result : Nat) :
    (finishQuery s c result).time = s.time ∧ answers s (finishQuery s c result) c t .ok 0 result :=
  ⟨(complete_frame ..).1, complete_answers s s c t .ok 0 result [] (runs_taken h) (.inr rfl) rfl ⟨[], rfl⟩⟩

/-- A check that fails ends the command with its status, before its commit (03 R71). -/
theorem finishSync_refuses {s : State} {c op : Nat} {t : Taken} (h : runs s c op t) (st : Status)
    (eff : State → State) (result : State → Nat) :
    answers s (finishSync s c (some st) eff result) c t st 0 0 ∧ (finishSync s c (some st) eff result).time = s.time :=
  ⟨complete_answers s s c t st 0 0 [] (runs_taken h) (.inr rfl) rfl ⟨[], rfl⟩, (complete_frame ..).1⟩

/-- The state once a synchronous command has committed and set the time block to `x`. -/
def timeCommitted (s : State) (x : TimeSt) : State := { (commit s).1 with time := x }

/-- A synchronous command whose checks pass ends after its commit and its effect. -/
theorem finishSync_eq {s : State} {eff : State → State} {x : TimeSt} (c : Nat)
    (he : eff (commit s).1 = timeCommitted s x) :
    finishSync s c none eff (fun _ => 0) = complete (timeCommitted s x) c .ok (commit s).2 0 := by
  rw [← he]
  rfl

/-- A command whose checks pass commits, has its effect, and is answered at once (03 R71). -/
theorem finishSync_commits {s : State} {c op : Nat} {t : Taken} (h : runs s c op t) {eff : State → State} {x : TimeSt}
    (he : eff (commit s).1 = timeCommitted s x) :
    answers s (finishSync s c none eff (fun _ => 0)) c t .ok (commit s).2 0 ∧
      (finishSync s c none eff (fun _ => 0)).time = x := by
  rw [finishSync_eq c he]
  exact ⟨complete_answers s _ c t .ok _ 0 [] (runs_taken h) (.inl (runs_now h)) rfl ⟨[], rfl⟩, (complete_frame ..).1⟩

/-- The commit number is never 0, which means "did not commit" (03 R68). -/
theorem commit_ne_zero (s : State) : (commit s).2 ≠ 0 := by
  simp only [commit]
  split
  · decide
  · assumption

/-- A command whose DONE comes later stays TAKEN once it has committed, with its outcome (03 R66). -/
theorem complete_late {s : State} {c : Nat} {t : Taken} (ht : (chanOf s c).taken = some t) (hl : t.lateDone = true)
    (ho : t.hdr.opcode ≠ opPartitionReset) (code : Status) {seq : Nat} (hs : seq ≠ 0) (result : Nat) (resp : Bytes) :
    complete s c code seq result resp =
      modChan s c (fun m => { m with taken := some { t with commitSeq := some seq, ended := some (code, result, resp) } }) := by
  unfold complete
  simp [ht, hl, ho, hs]

/-- A command that has committed ends with its own status, also where an ABORT waits (03 R66). -/
theorem runCmd_ended {s : State} {c op result : Nat} {t : Taken} {code : Status} {resp : Bytes}
    (h : takenCmd s c op = some t) (he : t.ended = some (code, result, resp)) (body : State → Taken → State) :
    runCmd s c op body = finishCmd s c code (t.commitSeq.getD 0) result resp := by
  unfold runCmd
  rw [h]
  dsimp only
  rw [he]

/-- A command that has not ended, with no ABORT waiting, acts as its body says. -/
theorem runCmd_body {s : State} {c op : Nat} {t : Taken} (h : takenCmd s c op = some t)
    (ha : (chanOf s c).abortRequested = false) (he : t.ended = none) (body : State → Taken → State) :
    runCmd s c op body = body s t := by
  unfold runCmd
  rw [h]
  dsimp only
  rw [he, ha]
  rfl

/-! ### TIME_PERIOD_SET and its refusals (02 R55) -/

theorem periodSetRefused_badField {t : TimeSt} {takenAt p e rsvd : Nat} (h : p < 4 ∨ 512 < p ∨ rsvd ≠ 0) :
    periodSetRefused t takenAt p e rsvd = some .badField := by
  have hb : (p < 4 || 512 < p || rsvd != 0 : Bool) = true := by simpa [or_assoc] using h
  simp [periodSetRefused, firstFail, hb]

theorem periodSetRefused_conflict {t : TimeSt} {takenAt p e rsvd : Nat} (h1 : 4 ≤ p) (h2 : p ≤ 512) (h3 : rsvd = 0)
    (hc : t.changePending = true) (hn : t.changeTime ≠ e) :
    periodSetRefused t takenAt p e rsvd = some .timePendingConflict := by
  simp [periodSetRefused, firstFail, Nat.not_lt.mpr h1, Nat.not_lt.mpr h2, h3, hc, hn]

theorem periodSetRefused_effective {t : TimeSt} {takenAt p e rsvd : Nat} (h1 : 4 ≤ p) (h2 : p ≤ 512) (h3 : rsvd = 0)
    (hc : t.changePending = false) (hn : e % periodUnits t.periodSteps ≠ 0 ∨ e % periodUnits p ≠ 0 ∨
      e < takenAt + periodUnits t.periodSteps ∨ takenAt + 2 ^ 32 < e) :
    periodSetRefused t takenAt p e rsvd = some .timeBadEffective := by
  simp [periodSetRefused, firstFail, Nat.not_lt.mpr h1, Nat.not_lt.mpr h2, h3, hc]
  omega

/-! ### What each command does as it runs -/

/-- The values of a TIME_ROLE_SET request (03 Table 3-10). -/
def roleRequest (b : Bytes) : RoleSet := ⟨bbits b 0 2, bbits b 2 8, bbits b 10 1 == 1, bbits b 11 8, bbits b 32 32⟩

section

variable {s : State} {c : Nat} {t : Taken}

theorem exec_timeQuery (h : runs s c 0x0800 t) : exec (.timeQuery c) s = .next (finishQuery s c
    ((if t.ctx ≠ 0 ∧ !t.mgmt then s.time.boundaryTime else s.time.now) + field s.time.boundaryTime 64 64
      + field (timeStatusWord s.time) 128 64 + field (timeOffsetWord s.time) 192 64)) :=
  congrArg Host.Outcome.next (runCmd_runs h _)

theorem exec_timePeriodSet (h : runs s c 0x0801 t) : exec (.timePeriodSet c) s = .next (finishSync s c
    (periodSetRefused s.time t.takenAt (bbits t.req 0 10) (bbits t.req 64 64) (bbits t.req 10 54))
    (fun s => { s with time := { s.time with
      pendingSteps := bbits t.req 0 10, changePending := true, changeTime := bbits t.req 64 64 } }) (fun _ => 0)) :=
  congrArg Host.Outcome.next (runCmd_runs h _)

theorem exec_timeRoleSet (h : takenCmd s c 0x0802 = some t) (ha : (chanOf s c).abortRequested = false)
    (he : t.ended = none) (h3 : bbits t.req 0 2 ≠ 3) (hr : bbits t.req 19 13 = 0) :
    exec (.timeRoleSet c) s = .next (finishSync s c none
      (fun s => { s with time := { s.time with roleSet := some (roleRequest t.req) } }) (fun _ => 0)) := by
  refine (congrArg Host.Outcome.next (runCmd_body h ha he _)).trans ?_
  dsimp only
  rw [if_neg (by simp [h3, hr])]
  rfl

theorem exec_timeBackgroundSet (h : runs s c 0x0803 t) (hr : bbits t.req 1 63 = 0) :
    exec (.timeBackgroundSet c) s = .next (finishSync s c none
      (fun s => { s with time := { s.time with backgroundSet := some (bbits t.req 0 1 == 1) } }) (fun _ => 0)) := by
  refine (congrArg Host.Outcome.next (runCmd_runs h _)).trans ?_
  dsimp only
  rw [if_neg (not_not.mpr hr)]

/-- A TIME_PERIOD_SET that fails a check. -/
theorem timePeriodSet_refused {st : Status} (h : runs s c 0x0801 t)
    (hb : periodSetRefused s.time t.takenAt (bbits t.req 0 10) (bbits t.req 64 64) (bbits t.req 10 54) = some st) :
    ∃ s', exec (.timePeriodSet c) s = .next s' ∧ answers s s' c t st 0 0 ∧ s'.time = s.time := by
  refine ⟨_, exec_timePeriodSet h, ?_⟩
  rw [hb]
  exact finishSync_refuses h ..

/-- A TIME_ROLE_SET whose DONE comes later: its effect is made, and its mailbox stays TAKEN (03 R66). -/
theorem timeRoleSet_late (h : takenCmd s c 0x0802 = some t) (ha : (chanOf s c).abortRequested = false)
    (he : t.ended = none) (hl : t.lateDone = true) (h3 : bbits t.req 0 2 ≠ 3) (hr : bbits t.req 19 13 = 0) :
    exec (.timeRoleSet c) s = .next (modChan (timeCommitted s { s.time with roleSet := some (roleRequest t.req) }) c
      (fun m => { m with taken := some { t with commitSeq := some (commit s).2, ended := some (.ok, 0, []) } })) := by
  obtain ⟨-, ht, ho⟩ := takenCmd_spec h
  have hn : t.hdr.opcode ≠ opPartitionReset := by
    rw [ho]
    decide
  rw [exec_timeRoleSet h ha he h3 hr, finishSync_eq c rfl]
  exact congrArg Host.Outcome.next (complete_late (s := timeCommitted s _) ht hl hn .ok (commit_ne_zero s) 0 [])

end

end Sys2Proof.Machine

namespace Sys2Proof

open Machine in
/-- Settles O1: each command by the end that its checks, its commit and its DONE give it. -/
theorem timeCommandsAnswer : Obligations.TimeCommandsAnswer := by
  intro c s t
  refine ⟨fun h => ?_, fun h hb => ?_, fun h h3 hr => ?_, fun h hr => ?_, fun p e h hp he => ?_,
    fun h ha he hl h3 hr => ?_, fun code result resp h he => ?_⟩
  · refine ⟨_, exec_timeQuery h, ?_⟩
    simpa using finishQuery_answers h _
  · refine ⟨_, exec_timePeriodSet h, ?_⟩
    rw [hb]
    exact finishSync_commits h rfl
  · have hk := h
    obtain ⟨htk, ha, he, -⟩ := hk
    exact ⟨_, exec_timeRoleSet htk ha he h3 hr, finishSync_commits h rfl⟩
  · exact ⟨_, exec_timeBackgroundSet h hr, finishSync_commits h rfl⟩
  · subst hp he
    exact ⟨fun hb => timePeriodSet_refused h (periodSetRefused_badField hb),
      fun h1 h2 h3 hc hn => timePeriodSet_refused h (periodSetRefused_conflict h1 h2 h3 hc hn),
      fun h1 h2 h3 hc hn => timePeriodSet_refused h (periodSetRefused_effective h1 h2 h3 hc hn)⟩
  · refine ⟨_, timeRoleSet_late h ha he hl h3 hr, rfl, ?_⟩
    rw [chanOf_modChan_self]
    exact ⟨(takenCmd_spec h).1, rfl⟩
  · obtain ⟨-, ht, -⟩ := takenCmd_spec h
    exact ⟨_, congrArg Host.Outcome.next (runCmd_ended h he _),
      finish_answers s s c t code _ result resp ht rfl ⟨[], rfl⟩, (finishCmd_frame ..).1⟩

end Sys2Proof

end

section

/-! Rules of the control processor that the statements about mailboxes and event queues share: the doorbell's actions, the
end of a command on a host mailbox, messages of queues and vectors (03 R64–R77). -/

namespace Sys2Proof.Machine

/-- A host mailbox is no place of the management channel. -/
theorem isMgmt_eq_false {m : Nat} (h : m < 64) : isMgmt m = false := by
  simp [isMgmt, h]

@[simp] theorem chanOf_wakeCp (s : State) (src k : Nat) : chanOf (wakeCp s src) k = chanOf s k := by
  simp [chanOf]

/-- A command that fails on a host mailbox is DONE as it fails, with no COMMIT_SEQ (03 R71). -/
theorem failCmd_mailbox {s : State} {c : Nat} (code : Status) (result : Nat) (hm : isMgmt c = false) :
    chanOf (failCmd s c code result) c = { chanOf s c with
      state := .done, abortRequested := false, taken := none
      window := some (completionOf s c ((chanOf s c).taken.getD {}) code 0 result)
      resp := if ((chanOf s c).taken.getD {}).hdr.respByRef then (chanOf s c).resp else [] } :=
  complete_mailbox s c code 0 result [] hm (.inr rfl)

theorem failCmd_chan_other {s : State} {c k : Nat} (code : Status) (result : Nat) (h : k ≠ c) :
    chanOf (failCmd s c code result) k = chanOf s k :=
  complete_chan_other s c k code 0 result [] h

/-! ### Doorbells (03 Table 3-3) -/

/-- Table 3-3 lists the action for a mailbox in the state. -/
def listsAction (st : MbState) (action : Nat) : Prop :=
  (action = 0x01 ∧ st = .free) ∨ (action = 0x02 ∧ (st = .posted ∨ st = .taken)) ∨ (action = 0x03 ∧ st = .done)

/-- The command that an ABORT finds in a POSTED mailbox, not taken yet (03 R66). -/
def postedCommand (s : State) (m : Nat) : Taken :=
  { hdr := hdrOf (areaBytes (chanOf s m).req 0 64), ctx := (chanOf s m).owner }

/-- A write to a doorbell, of which none waits, acts as it arrives (08 R239). -/
theorem postDoorbell_now {s : State} (m action : Nat) (hc : hostCaughtUp s) :
    postWrite s (doorbellOffset m) 8 action (fun s => doorbell s m action) = doorbell s m action :=
  postWrite_at_once hc.1 (.inr hc.2)

section

variable {s : State} {m : Nat} (hm : m < 64) (hr : hostReaches s = true)
include hm hr

/-- The first guard of a doorbell write passes: the mailbox exists and the host reaches it. -/
theorem doorbell_guard : ¬ (64 ≤ m || !hostReaches s) = true := by
  simp [hr, hm]

theorem chanOf_doorbell_post (hf : (chanOf s m).state = .free) (k : Nat) :
    chanOf (doorbell s m 0x01) k = chanOf (modChan s m (fun b => { b with state := .posted })) k := by
  unfold doorbell
  rw [if_neg (doorbell_guard hm hr)]
  simp [hf]

theorem chanOf_doorbell_abort_posted (hf : (chanOf s m).state = .posted) (k : Nat) :
    chanOf (doorbell s m 0x02) k =
      chanOf (failCmd (modChan s m (fun b => { b with taken := some (postedCommand s m) })) m .aborted) k := by
  unfold doorbell
  rw [if_neg (doorbell_guard hm hr)]
  simp [hf, postedCommand]

theorem chanOf_doorbell_abort_taken (hf : (chanOf s m).state = .taken) (k : Nat) :
    chanOf (doorbell s m 0x02) k = chanOf (modChan s m (fun b => { b with abortRequested := true })) k := by
  unfold doorbell
  rw [if_neg (doorbell_guard hm hr)]
  simp [hf]

theorem chanOf_doorbell_release (hf : (chanOf s m).state = .done) (k : Nat) :
    chanOf (doorbell s m 0x03) k =
      chanOf (modChan s m (fun b => { b with state := .free, window := none, resp := [] })) k := by
  unfold doorbell
  rw [if_neg (doorbell_guard hm hr)]
  simp [hf]

theorem chanOf_doorbell_unlisted {action : Nat} (hl : ¬ listsAction (chanOf s m).state action) (k : Nat) :
    chanOf (doorbell s m action) k = chanOf (ignoreDoorbell s m) k := by
  simp only [listsAction, and_or_left, not_or] at hl
  obtain ⟨hpost, ⟨hposted, htaken⟩, hrelease⟩ := hl
  unfold doorbell
  dsimp only
  rw [if_neg (doorbell_guard hm hr), if_neg hpost, if_neg hposted, if_neg htaken, if_neg hrelease]
  split
  · exact chanOf_wakeCp _ _ _
  · rfl

end

end Sys2Proof.Machine

end

section

/-! O7 and O8: the doorbell's actions that Table 3-3 lists, and those that it does not (03 R64–R66). -/

namespace Sys2Proof.Machine

/-- A command that writes the doorbell with an action that Table 3-3 does not list is ignored and counted (03 R65). -/
theorem unlistedAction_counted {i : Instr} {s : State} {m action : Nat} (hm : m < 64) (hr : hostReaches s = true)
    (hc : hostCaughtUp s)
    (hi : exec i s = .next (postWrite s (doorbellOffset m) 8 action (fun s => doorbell s m action)))
    (hl : ¬ listsAction (chanOf s m).state action) :
    ∃ t, exec i s = .next t ∧
      chanOf t m = { chanOf s m with ignored := min ((chanOf s m).ignored + 1) 0xFFFF } ∧
      ∀ k, k ≠ m → chanOf t k = chanOf s k := by
  rw [postDoorbell_now m action hc] at hi
  refine ⟨_, hi, ?_, fun k hk => ?_⟩
  · rw [chanOf_doorbell_unlisted hm hr hl, ignoreDoorbell, chanOf_modChan_self]
    rfl
  · rw [chanOf_doorbell_unlisted hm hr hl, ignoreDoorbell, chanOf_modChan_other _ _ _ _ hk]

/-- A doorbell write behind a posted write into the BAR2 window is kept (08 R239). -/
theorem postDoorbell_kept {s : State} {m : Nat} (action : Nat) (hm : m < 64) (ho : hostWritesOut s = true) :
    postWrite s (doorbellOffset m) 8 action (fun s => doorbell s m action) = { s with mem := { s.mem with
      heldDoorbells := s.mem.heldDoorbells ++ [(doorbellOffset m, 8, action)] } } := by
  have hd : isDoorbell (doorbellOffset m) = true := by
    unfold isDoorbell doorbellOffset
    simp only [Bool.and_eq_true, beq_iff_eq]
    exact ⟨⟨decide_eq_true (by omega), decide_eq_true (by omega)⟩, by omega⟩
  simp [postWrite, hd, ho]

end Sys2Proof.Machine

namespace Sys2Proof

open Machine in
/-- Settles O7: each listed transition by the equation of its action, and a doorbell behind a posted write by the queue
that it joins. -/
theorem doorbellTransitions : Obligations.DoorbellTransitions := by
  intro m s hm hr
  have hg := isMgmt_eq_false hm
  refine ⟨fun ho => congrArg Host.Outcome.next (postDoorbell_kept 0x01 hm ho), fun hc hf => ?_, fun hc hf => ?_,
    fun hc hf => ?_, fun hc hf => ?_⟩
  · refine ⟨_, congrArg Host.Outcome.next (postDoorbell_now m 0x01 hc), ?_⟩
    simp only [chanOf_doorbell_post hm hr hf]
    simp +contextual
  · refine ⟨_, congrArg Host.Outcome.next (postDoorbell_now m 0x02 hc), ?_⟩
    simp only [chanOf_doorbell_abort_posted hm hr hf, failCmd_mailbox _ _ hg]
    refine ⟨trivial, ⟨_, rfl, rfl, rfl⟩, fun k hk => ?_⟩
    rw [failCmd_chan_other _ _ hk, chanOf_modChan_other _ _ _ _ hk]
  · refine ⟨_, congrArg Host.Outcome.next (postDoorbell_now m 0x02 hc), ?_⟩
    simp only [chanOf_doorbell_abort_taken hm hr hf]
    simp +contextual [hf]
  · refine ⟨_, congrArg Host.Outcome.next (postDoorbell_now m 0x03 hc), ?_⟩
    simp only [chanOf_doorbell_release hm hr hf]
    simp +contextual

open Machine in
/-- Settles O8: every action that Table 3-3 does not list goes one way, whichever command carries it. -/
theorem unlistedDoorbellsCounted : Obligations.UnlistedDoorbellsCounted := by
  intro m s hm hr hc
  have counted := fun (i : Instr) (action : Nat) => @unlistedAction_counted i s m action hm hr hc
  refine ⟨fun h => ⟨counted _ 0x01 rfl ?_, counted _ 0x01 rfl ?_⟩,
    fun h => ⟨counted _ 0x02 rfl ?_, counted _ 0x02 rfl ?_⟩,
    fun h => ⟨counted _ 0x03 rfl ?_, counted _ 0x03 rfl ?_⟩, fun action ha h1 h2 h3 => counted _ action ?_ ?_⟩
  · simp [listsAction, h]
  · simp [listsAction, h]
  · rcases h with h | h <;> simp [listsAction, h]
  · rcases h with h | h <;> simp [listsAction, h]
  · simp [listsAction, h]
  · simp [listsAction, h]
  · change Host.Outcome.next (postWrite s _ 8 (action % 256) (fun s => doorbell s m (action % 256))) = _
    rw [Nat.mod_eq_of_lt ha]
  · simp [listsAction, h1, h2, h3]

end Sys2Proof

end

section

/-! O9: the CP takes a command from a mailbox (03 R67, R81, R546). -/

namespace Sys2Proof.Machine

theorem nextPosted_spec {s : State} {c : Nat} (h : nextPosted s = some c) : c < 64 ∧ (chanOf s c).state = .posted := by
  unfold nextPosted at h
  obtain ⟨i, -, rfl⟩ := List.mem_map.mp (List.mem_of_find?_eq_some h)
  exact ⟨Nat.mod_lt _ (by decide), by simpa using List.find?_some h⟩

/-- Of the checks before the fetch, a host mailbox decides nothing but whether it has a session. -/
theorem earlyChecks_mailbox {s u : State} {c : Nat} (h : Hdr) (inline : Option Bytes) (hm : isMgmt c = false)
    (hs : (chanOf u c).session = (chanOf s c).session) : earlyChecks u c h inline = earlyChecks s c h inline := by
  simp [earlyChecks, hm, hs]

/-- Without a session a mailbox takes HELLO alone (03 R81). -/
theorem earlyChecks_noSession {s : State} {c : Nat} {h : Hdr} (inline : Option Bytes) (hm : isMgmt c = false)
    (hs : (chanOf s c).session = false) (ho : h.opcode ≠ opHello) : earlyChecks s c h inline = some .noSession := by
  simp [earlyChecks, firstFail, hm, hs, ho]

/-- The checks after the fetch ask for partitions and queues, which a change of a mailbox leaves. -/
theorem stateChecks_modChan (s : State) (c k : Nat) (f : Mailbox → Mailbox) (t : Taken) :
    stateChecks (modChan s k f) c t = stateChecks s c t := rfl

/-- The command of mailbox `c` as the CP copies it, its request inline (03 R64). -/
def inlineTaken (s : State) (c : Nat) (inp : TakeInput) : Taken :=
  { hdr := hdrOf (areaBytes (chanOf s c).req 0 64)
    req := areaBytes (chanOf s c).req 0x40 (min (hdrOf (areaBytes (chanOf s c).req 0 64)).reqLen 3008)
    ctx := (chanOf s c).owner, takenAt := s.time.now, lateDone := inp.lateDone }

/-- Mailbox `c` has become TAKEN with the command `t`. -/
def tookInto (s : State) (c : Nat) (t : Taken) : State := modChan s c (fun m => { m with state := .taken, taken := some t })

section

variable {s : State} {c : Nat} {inp : TakeInput} (hm : isMgmt c = false) (hi : (inlineTaken s c inp).hdr.reqByRef = false)
include hm hi

/-- A command that fails a check on its header or its inline request ends at once (03 R546). -/
theorem takeHost_failsEarly {st : Status}
    (he : earlyChecks s c (inlineTaken s c inp).hdr (some (inlineTaken s c inp).req) = some st) :
    takeHost s c inp = failCmd (tookInto s c (inlineTaken s c inp)) c st := by
  rw [← earlyChecks_mailbox (u := tookInto s c (inlineTaken s c inp)) _ _ hm (by simp [tookInto])] at he
  unfold takeHost
  simp only [inlineTaken, tookInto] at hi he ⊢
  simp [hi, he]

/-- A command that passes the checks and needs no owner waits for its own row (03 R67). -/
theorem takeHost_passes (he : earlyChecks s c (inlineTaken s c inp).hdr (some (inlineTaken s c inp).req) = none)
    (hs : stateChecks s c (inlineTaken s c inp) = none) (hn : needsOwner (inlineTaken s c inp).hdr.opcode = false) :
    takeHost s c inp =
      modChan (tookInto s c (inlineTaken s c inp)) c (fun m => { m with taken := some (inlineTaken s c inp) }) := by
  rw [← earlyChecks_mailbox (u := tookInto s c (inlineTaken s c inp)) _ _ hm (by simp [tookInto])] at he
  unfold takeHost
  simp only [inlineTaken, tookInto] at hi he hs hn ⊢
  simp [hi, he, hs, hn, stateChecks_modChan]

end

/-- The turn of the mailboxes has come to `c` (03 R67). -/
def turnAt (s : State) (c : Nat) : State := { s with cp := { s.cp with lastTaken := c } }

/-- The CP takes the command of the next POSTED mailbox, of which nothing stands in host memory. -/
theorem exec_cpTakeMailbox {inp : TakeInput} {s : State} {c : Nat} (hb : bootServes s = false) (hr : isReady s = true)
    (hd : domainOn s 101 = true) (ht : s.cp.stopTaking = false) (hk : takenCount s < 8) (hg : inp.mgmt = false)
    (hp : nextPosted s = some c) (hf : fetches s c = false) :
    exec (.cpTakeMailbox inp) s = .next (takeHost (turnAt s c) c inp) := by
  change execCpTakeMailbox inp s = _
  unfold execCpTakeMailbox
  simp [hb, hr, hd, ht, hk, hg, hp, hf, turnAt]

end Sys2Proof.Machine

namespace Sys2Proof

open Machine in
/-- Settles O9: the checks are those of the state before the taking, which changed the mailbox alone. -/
theorem takingACommand : Obligations.TakingACommand := by
  intro inp s c h hb hr hd ht hk hg hp hh href hauth
  subst hh
  have hm := isMgmt_eq_false (nextPosted_spec hp).1
  have hf : fetches s c = false := by simp [fetches, href, hauth]
  have hx := exec_cpTakeMailbox hb hr hd ht hk hg hp hf
  refine ⟨fun b hbytes he hs hn => ?_, fun hs ho => ?_⟩
  · subst hbytes
    rw [takeHost_passes (s := turnAt s c) hm href he hs hn] at hx
    refine ⟨_, hx, rfl, ?_⟩
    simp only [tookInto, chanOf_modChan_self]
    refine ⟨trivial, rfl, fun k hk => ?_⟩
    rw [chanOf_modChan_other _ _ _ _ hk, chanOf_modChan_other _ _ _ _ hk]
    rfl
  · rw [takeHost_failsEarly (s := turnAt s c) hm href (earlyChecks_noSession _ hm hs ho)] at hx
    refine ⟨_, hx, ?_⟩
    rw [failCmd_mailbox _ _ hm, tookInto, chanOf_modChan_self]
    exact ⟨rfl, _, rfl, rfl, rfl, rfl⟩

end Sys2Proof

end

section

/-! O10: HELLO and the session of a mailbox (03 R81, R82). -/

namespace Sys2Proof.Machine

/-- The session that an accepted HELLO opens: version 1.0, IGNORED_ACTIONS cleared; the management channel has none. -/
def sessionOpened (s : State) (c : Nat) : State :=
  if isMgmt c then s
  else modChan s c (fun m => { m with session := true, sessionMajor := 1, sessionMinor := 0, ignored := 0 })

/-- RESULT of an accepted HELLO (03 Table 3-11). -/
def helloResult (s : State) (ctx : Nat) : Nat :=
  field 1 0 4 + field 0 8 8 + field s.boot.fw.version 16 32 + field (ctxField ctx) 48 8
    + field ((List.range 64).filter (fun m => (chanOf s m).owner == ctx)).length 56 8 + field (2 ^ 20) 64 32
    + field (512 - (s.cp.eqs.filter (fun e => e.2.state != .none)).length) 96 10

theorem helloResult_version (s : State) (ctx : Nat) : helloResult s ctx % 2 ^ 16 = 1 := by
  simp only [helloResult, field]
  omega

section

variable {s : State} {c : Nat} {t : Taken} (h : runs s c 0x0001 t) (hw : helloWellFormed t.req = true)
include h hw

theorem exec_hello_offered (ho : ((helloPairs t.req).any (fun p => p.1 == 1)) = true) : exec (.hello c) s =
    .next (complete (sessionOpened (commit s).1 c) c .ok (commit s).2
      (helloResult (sessionOpened (commit s).1 c) t.ctx)) := by
  refine (congrArg Host.Outcome.next (runCmd_runs h _)).trans ?_
  dsimp only
  rw [if_neg (by simp [hw]), if_neg (by simp [ho])]
  rfl

theorem exec_hello_mismatch (ho : ((helloPairs t.req).any (fun p => p.1 == 1)) = false) : exec (.hello c) s =
    .next (failCmd s c .versionMismatch 2) := by
  have hwf : ¬ (!helloWellFormed t.req) = true := by simp only [hw, Bool.not_true, Bool.false_eq_true, not_false_eq_true]
  have hno : (!(helloPairs t.req).any (fun p => p.1 == 1)) = true := by simp only [ho, Bool.not_false]
  refine congrArg Host.Outcome.next ((runCmd_runs h _).trans ?_)
  exact (if_neg hwf).trans (if_pos hno)

end

theorem sessionOpened_taken (s : State) (c : Nat) : (chanOf (sessionOpened s c) c).taken = (chanOf s c).taken := by
  unfold sessionOpened
  split
  · rfl
  · rw [chanOf_modChan_self]

theorem sessionOpened_frame (s : State) (c : Nat) :
    (sessionOpened s c).mgmt = s.mgmt ∧ (sessionOpened s c).out = s.out := by
  unfold sessionOpened
  split <;> exact ⟨rfl, rfl⟩

end Sys2Proof.Machine

namespace Sys2Proof

open Machine in
/-- Settles O10: a HELLO that offers 1.0 opens the session and completes; one that does not fails before any change. -/
theorem helloSetsSession : Obligations.HelloSetsSession := by
  intro c s t h hw
  refine ⟨fun ho => ?_, fun ho => ?_⟩
  · have ht : (chanOf (sessionOpened (commit s).1 c) c).taken = some t := by
      rw [sessionOpened_taken, chanOf_commit, runs_taken h]
    obtain ⟨hmgmt, hout⟩ := sessionOpened_frame (commit s).1 c
    refine ⟨_, _, exec_hello_offered h hw ho, complete_answers s _ c t .ok _ _ [] ht (.inl (runs_now h))
      (congrArg MgmtSt.session hmgmt) ⟨[], hout⟩, helloResult_version .., fun hm => ?_⟩
    rw [complete_mailbox _ _ _ _ _ _ hm (.inl (by rw [ht]; exact runs_now h))]
    simp [sessionOpened, hm]
  · refine ⟨_, exec_hello_mismatch h hw ho,
      complete_answers s s c t .versionMismatch 0 2 [] (runs_taken h) (.inr rfl) rfl ⟨[], rfl⟩, fun hm => ?_⟩
    rw [failCmd_mailbox _ _ hm]
    exact ⟨rfl, rfl, rfl⟩

end Sys2Proof

end

section

/-! O11: EQ_CREATE, EQ_DESTROY and the end of its drain (03 R72, R78, R86). -/

namespace Sys2Proof.Machine

/-- The queue that an EQ_CREATE request describes, for a context (03 Table 3-12). -/
def requestedQueue (b : Bytes) (ctx : Nat) : EventQueue :=
  { state := .active, base := bbits b 0 64, pasid := bbits b 64 20, log2Size := bbits b 88 5, vector := bbits b 96 11
    coalesceCount := bbits b 112 8 + 1, coalesceUs := bbits b 128 10, isDefault := bbits b 144 1 == 1, owner := ctx }

/-- A new default queue takes the place of the context's earlier one (03 R72). -/
def defaultCleared (s : State) (ctx : Nat) : State :=
  { s with cp := { s.cp with eqs := tmap s.cp.eqs (fun _ e => if e.owner = ctx then { e with isDefault := false } else e) } }

/-- Queue `q` has been made by the request of the command `t`. -/
def queueMade (s : State) (q : Nat) (t : Taken) : State :=
  modEq (if bbits t.req 144 1 == 1 then defaultCleared s t.ctx else s) q (fun _ => requestedQueue t.req t.ctx)

theorem queueMade_frame (s : State) (q : Nat) (t : Taken) : (queueMade s q t).cp.chans = s.cp.chans ∧
    (queueMade s q t).mgmt = s.mgmt ∧ (queueMade s q t).out = s.out := by
  unfold queueMade
  split <;> exact ⟨rfl, rfl, rfl⟩

theorem eqOf_queueMade_self (s : State) (q : Nat) (t : Taken) :
    eqOf (queueMade s q t) q = requestedQueue t.req t.ctx := eqOf_modEq_self ..

theorem eqOf_queueMade_other {s : State} {q k : Nat} {t : Taken} (hd : bbits t.req 144 1 = 0) (hk : k ≠ q) :
    eqOf (queueMade s q t) k = eqOf s k := by
  rw [queueMade, eqOf_modEq_other _ _ _ _ hk, if_neg (by simp [hd])]

/-- Where no check fails, a queue number is free (03 R78). -/
theorem eqCreateRefused_free {s : State} {t : Taken} (h : eqCreateRefused s t = none) :
    ∃ q, tfree (s.cp.eqs.filter (fun e => e.2.state != .none)) 0 512 = some q := by
  simp only [eqCreateRefused, firstFail_cons_eq_none] at h
  obtain ⟨-, hq, -⟩ := h
  exact Option.isSome_iff_exists.mp (by simpa using hq)

theorem exec_eqCreate {s : State} {c q : Nat} {t : Taken} (h : runs s c 0x0010 t) (he : eqCreateRefused s t = none)
    (hq : tfree (s.cp.eqs.filter (fun e => e.2.state != .none)) 0 512 = some q) :
    exec (.eqCreate c) s = .next (complete (queueMade (commit s).1 q t) c .ok (commit s).2 q) := by
  refine (congrArg Host.Outcome.next (runCmd_runs h _)).trans ?_
  dsimp only
  rw [he, hq]
  rfl

/-- Without EQ_COPY a command's end leaves every queue (03 R71). -/
theorem eqOf_complete {s : State} {c : Nat} {t : Taken} (ht : (chanOf s c).taken = some t) (hq : t.hdr.eqCopy = false)
    (code : Status) (seq result : Nat) (resp : Bytes) (k : Nat) :
    eqOf (complete s c code seq result resp) k = eqOf s k := by
  rw [eqOf, (complete_eqs s c code seq result resp t ht hq).1, eqOf]

theorem accept_eqs {s : State} {c : Nat} {t : Taken} (ht : (chanOf s c).taken = some t) (hq : t.hdr.eqCopy = false)
    (obj arg : Nat) (resp : Bytes) : (accept s c t obj arg resp).1.cp.eqs = s.cp.eqs := by
  unfold accept
  dsimp only
  rw [(complete_eqs _ c .accepted _ 0 resp t (by exact ht) hq).1]
  rfl

theorem eqOf_accept {s : State} {c : Nat} {t : Taken} (ht : (chanOf s c).taken = some t) (hq : t.hdr.eqCopy = false)
    (obj arg : Nat) (resp : Bytes) (k : Nat) : eqOf (accept s c t obj arg resp).1 k = eqOf s k := by
  rw [eqOf, accept_eqs ht hq, eqOf]

/-- Where the completions that still come for a destroyed queue go: the default queue of its context, where that is
another one; 512 is none (03 R78). -/
def lateQueue (s : State) (q ctx : Nat) : Nat :=
  match defaultQueue s ctx with
  | none => 512
  | some d => if d = q then 512 else d

theorem exec_eqDestroy {s : State} {c : Nat} {t : Taken} (h : runs s c 0x0011 t) (hr : bbits t.req 9 55 = 0)
    (hs : (eqOf s (bbits t.req 0 9)).state ≠ .none) (ho : (eqOf s (bbits t.req 0 9)).owner = t.ctx)
    (hu : eqUsers s (bbits t.req 0 9) = 0) : exec (.eqDestroy c) s = .next (accept
      (modEq s (bbits t.req 0 9) (fun _ => {})) c t (bbits t.req 0 9) (lateQueue s (bbits t.req 0 9) t.ctx)).1 := by
  refine (congrArg Host.Outcome.next (runCmd_runs h _)).trans ?_
  dsimp only
  rw [if_neg (by simp [hr, hs, ho]), if_neg (by simp [hu])]
  rfl

theorem exec_eqDestroyDrained {s : State} {n : Nat} {a : Async} (ha : asyncOf s n = some a) (ho : a.opcode = opEqDestroy) :
    exec (.eqDestroyDrained n) s = .next (finalize s n .ok 0) := by
  change execEqDestroyDrained n s = _
  unfold execEqDestroyDrained
  rw [ha]
  exact if_pos ho

end Sys2Proof.Machine

namespace Sys2Proof

open Machine in
/-- Settles O11: the queue is made or unmade before the command's end, which leaves the queues but for a copy. -/
theorem eventQueueLifecycle : Obligations.EventQueueLifecycle := by
  refine ⟨fun c s t h he => ?_, fun c s t h hr hs ho hu hcopy => ?_, fun s n a ha ho => ?_⟩
  · obtain ⟨q, hq⟩ := eqCreateRefused_free he
    obtain ⟨hchans, hmgmt, hout⟩ := queueMade_frame (commit s).1 q t
    have ht : (chanOf (queueMade (commit s).1 q t) c).taken = some t := by
      rw [chanOf, hchans]
      exact runs_taken h
    refine ⟨_, q, exec_eqCreate h he hq, complete_answers s _ c t .ok _ _ [] ht (.inl (runs_now h))
      (congrArg MgmtSt.session hmgmt) ⟨[], hout⟩, hq, fun hcopy => ?_, fun hcopy hd k hk => ?_⟩
    · rw [eqOf_complete ht hcopy, eqOf_queueMade_self]
      rfl
    · rw [eqOf_complete ht hcopy, eqOf_queueMade_other hd hk]
      rfl
  · have ht : (chanOf (modEq s (bbits t.req 0 9) (fun _ => {})) c).taken = some t := runs_taken h
    refine ⟨_, exec_eqDestroy h hr hs ho hu, accept_accepts s _ c t _ _ [] ht (runs_now h) rfl ⟨[], rfl⟩ rfl, ?_,
      fun k hk => ?_⟩
    · rw [eqOf_accept ht hcopy, eqOf_modEq_self]
    · rw [eqOf_accept ht hcopy, eqOf_modEq_other _ _ _ _ hk]
  · exact ⟨_, exec_eqDestroyDrained ha ho, rfl, finalize_asyncOf ..⟩

end Sys2Proof

end

section

/-! Rules of the event queues: messages of vectors, consumer writes, records written to their slots (03 R69, R73–R77). -/

namespace Sys2Proof.Machine

/-! ### Messages -/

/-- The message of a vector leaves the queues. -/
@[simp] theorem eqOf_sendVector (s : State) (v q : Nat) : eqOf (sendVector s v) q = eqOf s q := by
  unfold sendVector
  dsimp only
  split <;> rfl

@[simp] theorem eqOf_emit (s : State) (o : Out) (q : Nat) : eqOf (emit s o) q = eqOf s q := rfl

theorem sendVector_sends {s : State} {v : Nat} (hm : (tget s.cp.msix v {}).masked = false) (hs : hostSilent s = false) :
    sendVector s v = emit s (.msix v (tget s.cp.msix v {}).addr (tget s.cp.msix v {}).data) := by
  simp [sendVector, hm, hs]

/-- What has gone out stays so. -/
theorem mem_out_sendVector {s : State} {o : Out} (v : Nat) (h : o ∈ s.out) : o ∈ (sendVector s v).out := by
  unfold sendVector
  dsimp only
  split
  · exact h
  · exact List.mem_cons_of_mem _ h

/-- A queue's message clears ARM and starts the count afresh (03 R76). -/
@[simp] theorem eqOf_sendEqVector_self (s : State) (q : Nat) :
    eqOf (sendEqVector s q) q = { eqOf s q with arm := false, sinceMsg := 0 } := by
  simp [sendEqVector]

theorem sendEqVector_sends {s : State} {q : Nat} (hm : (tget s.cp.msix (eqOf s q).vector {}).masked = false)
    (hs : hostSilent s = false) : (sendEqVector s q).out =
      .msix (eqOf s q).vector (tget s.cp.msix (eqOf s q).vector {}).addr (tget s.cp.msix (eqOf s q).vector {}).data
        :: s.out := by
  unfold sendEqVector
  rw [sendVector_sends (by exact hm) (by exact hs)]
  rfl

/-! ### Consumer writes -/

/-- A write of EQ_CONSUMER moves INDEX within the written records (03 R73). -/
def indexMoved (s : State) (q index : Nat) : State :=
  if idxDiff (index % 2 ^ 32) (eqOf s q).consumer ≤ idxDiff (eqOf s q).producer (eqOf s q).consumer then
    modEq s q (fun e => { e with consumer := index % 2 ^ 32 })
  else s

/-- ARM of queue `q` is set. -/
def armSet (s : State) (q : Nat) : State := modEq s q (fun e => { e with arm := true })

/-- The queue is armed: with unread records its message goes at once, else it waits for the next record (03 R76). -/
def armed (s : State) (q : Nat) : State :=
  if (eqOf (armSet s q) q).state ≠ .none ∧ (eqOf (armSet s q) q).producer ≠ (eqOf (armSet s q) q).consumer then
    sendEqVector (armSet s q) q
  else modEq (armSet s q) q (fun e => { e with sinceMsg := 0 })

/-- A write of EQ_CONSUMER that reaches its queue: INDEX, then ARM (03 R73). -/
theorem consumerWrite_eq {q : Nat} {s : State} (index : Nat) (arm : Bool) (hq : q < 512) (hr : hostReaches s = true) :
    consumerWrite s q index arm = if !arm then indexMoved s q index else armed (indexMoved s q index) q := by
  have hg : ¬ (512 ≤ q || !hostReaches s) = true := by simp [hr, hq]
  exact if_neg hg

/-- A write of EQ_CONSUMER, no register write of the host waiting, acts as it arrives (08 R239). -/
theorem exec_eqConsumerWrite {q : Nat} {s : State} (index : Nat) (arm : Bool) (hq : q < 512)
    (hw : s.mem.heldDoorbells = []) : exec (.eqConsumerWrite q index arm) s = .next (consumerWrite s q index arm) := by
  have hd : isDoorbell (0x0200000 + q * 0x40) = false := isDoorbell_eq_false (by omega)
  change Host.Outcome.next (postWrite s (0x0200000 + q * 0x40) 8 _ _) = _
  rw [postWrite_at_once hw (.inl hd)]

theorem eqOf_armed (s : State) (q : Nat) : (eqOf (armed s q) q).consumer = (eqOf s q).consumer ∧
    (eqOf (armed s q) q).producer = (eqOf s q).producer ∧ (eqOf (armed s q) q).arm =
      !((eqOf s q).state != .none && (eqOf s q).producer != (eqOf s q).consumer) := by
  unfold armed armSet
  rw [eqOf_modEq_self]
  split
  · rename_i h
    simp [h]
  · rename_i h
    simpa [imp_iff_not_or] using h

/-! ### Records -/

/-- The slot of the producer index takes the record, under its RECORD_SEQ, and the index advances (03 R69, R74); whether the
queue's message goes too is another matter. -/
theorem writeSlot_spec (s : State) (q : Nat) (r : Record) :
    (eqOf (writeSlot s q r) q).producer = ((eqOf s q).producer + 1) % 2 ^ 32 ∧
    (eqOf (writeSlot s q r) q).waiting = (eqOf s q).waiting ∧
    Out.record q ((eqOf s q).producer % 2 ^ (eqOf s q).log2Size) { r with recordSeq := (eqOf s q).producer % 2 ^ 31 }
      ∈ (writeSlot s q r).out := by
  unfold writeSlot
  dsimp only
  split
  · refine ⟨by simp, by simp, mem_out_sendVector _ List.mem_cons_self⟩
  · exact ⟨by simp, by simp, List.mem_cons_self⟩

/-- The hub writes the oldest waiting record where nothing stands before it (03 R69, R75). -/
theorem exec_eqRecordWrite {q : Nat} {s : State} {r : Record} {rest : List Record} (ha : (eqOf s q).state = .active)
    (hs : s.boot.stopped = false) (hh : hostSilent s = false) (hk : slotReachable s (eqOf s q) = true)
    (hd : (eqOf s q).dropped = 0) (hw : (eqOf s q).waiting = r :: rest) (hf : eqFull (eqOf s q) = false) :
    exec (.eqRecordWrite q true) s = .next (writeSlot (modEq s q (fun e => { e with waiting := rest })) q r) := by
  change execEqRecordWrite q true s = _
  unfold execEqRecordWrite
  simp [ha, hs, hh, hk, hd, hw, hf]

/-- The coalescing time of an armed queue with unsignalled records has passed (03 R76). -/
theorem exec_eqCoalesceTimer {q : Nat} {s : State} (hs : (eqOf s q).state ≠ .none) (ha : (eqOf s q).arm = true)
    (hn : 0 < (eqOf s q).sinceMsg) (hr : s.boot.stopped = false) :
    exec (.eqCoalesceTimer q) s = .next (sendEqVector s q) :=
  if_pos ⟨hs, ha, hn, by simp [hr]⟩

/-! ### The MSI-X table -/

/-- A write of a vector's word, no register write of the host waiting, acts as it arrives (03 R77). -/
theorem exec_msixTableWrite {v word : Nat} {s : State} (value : Nat) (hv : v < 2048) (hw : word < 4)
    (hq : s.mem.heldDoorbells = []) : exec (.msixTableWrite v word value) s = .next (msixWrite s v word value) := by
  have hd : isDoorbell (0x0300000 + v * 16 + word * 4) = false := isDoorbell_eq_false (by omega)
  change Host.Outcome.next (postWrite s (0x0300000 + v * 16 + word * 4) 4 _ _) = _
  rw [postWrite_at_once hq (.inl hd)]

section

variable {s : State} {v : Nat} (hv : v < 2048) (hr : hostReaches s = true)
include hv hr

theorem msixWrite_data (value : Nat) : (tget (msixWrite s v 2 value).cp.msix v {}).data = value % 2 ^ 32 := by
  unfold msixWrite
  rw [if_neg (by simp [hv, hr])]
  simp [emit]

/-- An unmask sends the message that waits (03 R77). -/
theorem msixWrite_unmasks {value : Nat} (hb : value % 2 = 0) (hs : hostSilent s = false)
    (hp : (tget s.cp.msix v {}).pendingBit = true) :
    (tget (msixWrite s v 3 value).cp.msix v {}).masked = false ∧
      (tget (msixWrite s v 3 value).cp.msix v {}).pendingBit = false ∧
      (msixWrite s v 3 value).out = .msix v (tget s.cp.msix v {}).addr (tget s.cp.msix v {}).data :: s.out := by
  have hm : bitAt (value % 4294967296) 0 = false := by
    simp [bitAt]
    omega
  unfold msixWrite
  rw [if_neg (by simp [hv, hr])]
  simp [hm, hs, hp, emit]

end

end Sys2Proof.Machine

end

section

/-! O12 and O13: consumer writes, and the traffic of the queues and of the MSI-X table (03 R69, R73, R76, R77). -/

namespace Sys2Proof

open Machine in
/-- Settles O12: the index stays, and the arming acts on the queue as it was. -/
theorem consumerWriteRules : Obligations.ConsumerWriteRules := by
  intro q index arm s hq hr hw hpast
  have hstay : indexMoved s q index = s := if_neg (Nat.not_le.mpr hpast)
  refine ⟨_, exec_eqConsumerWrite index arm hq hw, ?_⟩
  rw [consumerWrite_eq index arm hq hr, hstay]
  cases arm with
  | false => exact ⟨rfl, rfl, rfl⟩
  | true => exact eqOf_armed s q

open Machine in
/-- Settles O13: each by the equation of its command. -/
theorem eventQueueTraffic : Obligations.EventQueueTraffic := by
  refine ⟨fun q s r rest ha hs hh hk hd hw hf => ?_, fun q index s hq hr hw hin => ?_,
    fun q s ha harm hn hr hm hh => ?_, fun v value s hv hr hw => ⟨?_, fun hb hs hp => ?_⟩⟩
  · obtain ⟨hproducer, hwaiting, hout⟩ := writeSlot_spec (modEq s q (fun e => { e with waiting := rest })) q r
    rw [eqOf_modEq_self] at hproducer hwaiting hout
    exact ⟨_, exec_eqRecordWrite ha hs hh hk hd hw hf, hproducer, hwaiting, hout⟩
  · have hmove : indexMoved s q index = modEq s q (fun e => { e with consumer := index % 2 ^ 32 }) := if_pos hin
    refine ⟨_, exec_eqConsumerWrite index false hq hw, ?_⟩
    rw [consumerWrite_eq index false hq hr, Bool.not_false, if_pos rfl, hmove, eqOf_modEq_self]
    exact ⟨rfl, rfl, rfl⟩
  · refine ⟨_, exec_eqCoalesceTimer (by simp [ha]) harm hn hr, ?_⟩
    rw [eqOf_sendEqVector_self]
    exact ⟨rfl, rfl, sendEqVector_sends hm hh⟩
  · exact ⟨_, exec_msixTableWrite value hv (by decide) hw, msixWrite_data hv hr value⟩
  · exact ⟨_, exec_msixTableWrite value hv (by decide) hw, msixWrite_unmasks hv hr hb hs hp⟩

end Sys2Proof

end

section

/-! The threads and the group of one issue of a kernel instruction, whatever the instruction: the group that its body finds,
the threads that go on, and what a write of registers or predicates leaves (04 R92–R98, R118). -/

namespace Sys2Proof.Machine

/-! ### Bits of a mask -/

/-- A bit that is not set is set by adding it, and no other bit changes. -/
theorem bitAt_add_two_pow {m i : Nat} (h : bitAt m i = false) (j : Nat) :
    bitAt (m + 2 ^ i) j = (bitAt m j || decide (j = i)) := by
  simp only [bitAt, beq_eq_false_iff_ne] at h ⊢
  rcases Nat.lt_trichotomy j i with hj | rfl | hj
  · obtain ⟨d, rfl⟩ : ∃ d, i = j + d + 1 := ⟨i - j - 1, by omega⟩
    have hdiv : (m + 2 ^ (j + d + 1)) / 2 ^ j = m / 2 ^ j + 2 * 2 ^ d := by
      rw [show 2 ^ (j + d + 1) = 2 ^ j * (2 * 2 ^ d) by ring, Nat.add_mul_div_left _ _ (Nat.two_pow_pos j)]
    rw [hdiv, Nat.add_mul_mod_self_left]
    simp [show j ≠ j + d + 1 by omega]
  · have hdiv : (m + 2 ^ j) / 2 ^ j = m / 2 ^ j + 1 := Nat.add_div_right m (Nat.two_pow_pos j)
    rw [hdiv]
    simp
    omega
  · obtain ⟨d, rfl⟩ : ∃ d, j = i + 1 + d := ⟨j - i - 1, by omega⟩
    have hdiv : (m + 2 ^ i) / 2 ^ (i + 1) = m / 2 ^ (i + 1) := by
      rw [pow_succ, ← Nat.div_div_eq_div_mul, ← Nat.div_div_eq_div_mul, Nat.add_div_right m (Nat.two_pow_pos i)]
      omega
    rw [pow_add, ← Nat.div_div_eq_div_mul, ← Nat.div_div_eq_div_mul, hdiv]
    simp [show i + 1 + d ≠ i by omega]

theorem bitAt_setBit (m i j : Nat) : bitAt (setBit m i) j = (bitAt m j || decide (j = i)) := by
  unfold setBit
  split
  · rename_i hi
    by_cases hj : j = i <;> simp [hj, hi]
  · rename_i hi
    exact bitAt_add_two_pow (by simpa using hi) j

theorem bitAt_clearBit (m i j : Nat) : bitAt (clearBit m i) j = (bitAt m j && !decide (j = i)) := by
  unfold clearBit
  split
  · rename_i hi
    have hodd : m / 2 ^ i % 2 = 1 := by simpa [bitAt] using hi
    have hle : 2 ^ i ≤ m := by
      by_contra hlt
      rw [Nat.div_eq_of_lt (by omega)] at hodd
      omega
    have hdiv : m / 2 ^ i = (m - 2 ^ i) / 2 ^ i + 1 := by
      conv_lhs => rw [← Nat.sub_add_cancel hle, Nat.add_div_right _ (Nat.two_pow_pos i)]
    have hclear : bitAt (m - 2 ^ i) i = false := by
      simp only [bitAt, beq_eq_false_iff_ne]
      omega
    have hadd := bitAt_add_two_pow hclear j
    rw [Nat.sub_add_cancel hle] at hadd
    by_cases hj : j = i
    · simp [hj, hclear]
    · simp [hadd, hj]
  · rename_i hi
    by_cases hj : j = i <;> simp_all

theorem bitAt_foldl_setBit (l : List Nat) (m j : Nat) : bitAt (l.foldl setBit m) j = (bitAt m j || decide (j ∈ l)) := by
  induction l generalizing m with
  | nil => simp
  | cons a l ih => rw [List.foldl_cons, ih, bitAt_setBit, Bool.or_assoc]; simp

theorem mem_maskBits (m w i : Nat) : i ∈ maskBits m w ↔ i < w ∧ bitAt m i = true := by simp [maskBits]

/-! ### Registers and predicates -/

/-- Every field of the group but the registers is as it was. -/
def onlyRegs (g g' : Group) : Prop := g' = { g with regs := g'.regs }

/-- Every field of the group but the predicates is as it was. -/
def onlyPreds (g g' : Group) : Prop := g' = { g with preds := g'.preds }

theorem onlyRegs.refl (g : Group) : onlyRegs g g := rfl

theorem onlyRegs.trans {a b c : Group} (h : onlyRegs a b) (k : onlyRegs b c) : onlyRegs a c := by
  unfold onlyRegs at *
  rw [k, h]

theorem onlyPreds.refl (g : Group) : onlyPreds g g := rfl

theorem onlyPreds.trans {a b c : Group} (h : onlyPreds a b) (k : onlyPreds b c) : onlyPreds a c := by
  unfold onlyPreds at *
  rw [k, h]

theorem onlyRegs.foldl {α : Type} {f : Group → α → Group} (hf : ∀ g x, onlyRegs g (f g x)) (l : List α) (g : Group) :
    onlyRegs g (l.foldl f g) :=
  List.foldlRecOn (motive := onlyRegs g) l f (.refl g) (fun _ h x _ => h.trans (hf _ x))

theorem onlyPreds.foldl {α : Type} {f : Group → α → Group} (hf : ∀ g x, onlyPreds g (f g x)) (l : List α) (g : Group) :
    onlyPreds g (l.foldl f g) :=
  List.foldlRecOn (motive := onlyPreds g) l f (.refl g) (fun _ h x _ => h.trans (hf _ x))

theorem regWrite_onlyRegs (g : Group) (r t v : Nat) : onlyRegs g (regWrite g r t v) := by
  unfold regWrite
  split <;> rfl

theorem wideWrite_onlyRegs (g : Group) (wide : Bool) (r t v : Nat) : onlyRegs g (wideWrite g wide r t v) := by
  unfold wideWrite pairWrite
  split
  · split
    · exact .refl g
    · exact (regWrite_onlyRegs ..).trans (regWrite_onlyRegs ..)
  · exact regWrite_onlyRegs ..

theorem predWrite_onlyPreds (g : Group) (p t : Nat) (v : Bool) : onlyPreds g (predWrite g p t v) := by
  unfold predWrite
  split <;> rfl

@[simp] theorem regRead_vz (g : Group) (t : Nat) : regRead g vz t = 0 := if_pos rfl

theorem regRead_congr {g g' : Group} (h : g'.regs = g.regs) (r t : Nat) : regRead g' r t = regRead g r t := by
  simp only [regRead, h]

theorem wideRead_congr {g g' : Group} (h : g'.regs = g.regs) (wide : Bool) (r t : Nat) :
    wideRead g' wide r t = wideRead g wide r t := by
  simp only [wideRead, pairRead, regRead_congr h]

theorem wideRead_true (g : Group) (r t : Nat) : wideRead g true r t = pairRead g r t := if_pos rfl

theorem regRead_regWrite {u t : Nat} (hu : u < 64) (ht : t < 64) (g : Group) (r v q : Nat) :
    regRead (regWrite g r t v) q u = if u = t ∧ r ≠ vz ∧ q = r then v % 2 ^ 32 else regRead g q u := by
  by_cases hr : r = vz
  · simp [regWrite, hr]
  · by_cases hq : q = r ∧ u = t
    · obtain ⟨rfl, rfl⟩ := hq
      simp [regRead, regWrite, hr]
    · have hkey : q * 64 + u ≠ r * 64 + t := fun h => hq ((regs_key hu ht).mp h)
      have hcond : ¬ (u = t ∧ r ≠ vz ∧ q = r) := fun ⟨hut, _, hqr⟩ => hq ⟨hqr, hut⟩
      rw [if_neg hcond]
      simp [regRead, regWrite, hr, hkey]

/-- One thread's write of a register or a pair. -/
theorem wroteReg_wideWrite {t : Nat} (ht : t < 64) (g : Group) (wide : Bool) (r v : Nat) :
    wroteReg g (wideWrite g wide r t v) wide r [t] (fun _ => v) := by
  intro q u hu
  by_cases hq : q = vz
  · simp [hq]
  rw [if_neg hq]
  cases wide with
  | false => simp [wideWrite, regRead_regWrite hu ht]
  | true =>
    by_cases hr : r = vz
    · simp [wideWrite, pairWrite, hr]
    · simp only [wideWrite, pairWrite, if_neg hr, if_true, regRead_regWrite hu ht, List.mem_singleton]
      by_cases hut : u = t
      · by_cases hqr : q = r
        · subst hqr; simp [hut, hr]
        · by_cases hq1 : q = r + 1
          · subst hq1; simp [hut, hr, hq]
          · simp [hqr, hq1]
      · simp [hut]

theorem wroteReg.append {g g₁ g₂ : Group} {wide : Bool} {r t : Nat} {l : List Nat} {val : Nat → Nat}
    (h : wroteReg g g₁ wide r l val) (k : wroteReg g₁ g₂ wide r [t] val) (ht : t ∉ l) :
    wroteReg g g₂ wide r (l ++ [t]) val := by
  intro q u hu
  rw [k q u hu, h q u hu]
  by_cases hq : q = vz
  · simp [hq]
  by_cases hut : u = t
  · subst hut; simp [ht, hq]
  · simp [hut, hq]

/-- Threads that each write their own destination from their own registers write it together, whatever their order. -/
theorem wroteReg_foldl {g : Group} {wide : Bool} {r : Nat} {f : Group → Nat → Group} {val : Nat → Nat} (l : List Nat)
    (hl : l.Nodup) (hlt : ∀ t ∈ l, t < 64)
    (hf : ∀ g' t, t ∈ l → (∀ q, regRead g' q t = regRead g q t) → wroteReg g' (f g' t) wide r [t] val) :
    wroteReg g (l.foldl f g) wide r l val := by
  induction l using List.reverseRecOn with
  | nil =>
    intro q u _
    by_cases hq : q = vz <;> simp [hq]
  | append_singleton l t ih =>
    have hnot : t ∉ l := fun h => (List.nodup_append.mp hl).2.2 t h t (by simp) rfl
    have hdone : wroteReg g (l.foldl f g) wide r l val :=
      ih (List.nodup_append.mp hl).1 (fun t h => hlt t (by simp [h])) (fun g' t h => hf g' t (by simp [h]))
    rw [List.foldl_append]
    refine hdone.append (hf _ t (by simp) fun q => ?_) hnot
    rw [hdone q t (hlt t (by simp))]
    by_cases hq : q = vz <;> simp [hq, hnot]

theorem wroteReg.congr {g g' : Group} {wide : Bool} {r : Nat} {l : List Nat} {v w : Nat → Nat}
    (h : wroteReg g g' wide r l v) (hvw : ∀ u ∈ l, v u = w u) : wroteReg g g' wide r l w := by
  intro q u hu
  rw [h q u hu]
  by_cases hul : u ∈ l
  · rw [hvw u hul]
  · simp [hul]

theorem predRead_predWrite (g : Group) (p t : Nat) (v : Bool) (q u : Nat) :
    predRead (predWrite g p t v) q u = if u = t ∧ p ≠ pt ∧ q = p then v else predRead g q u := by
  by_cases hp : p = pt
  · simp [predWrite, hp]
  by_cases hq : q = p
  · subst hq
    cases v <;> by_cases hut : u = t <;> simp [predRead, predWrite, hp, hut, bitAt_setBit, bitAt_clearBit]
  · simp [predRead, predWrite, hp, hq]

/-- Threads that each write a predicate, computed from the registers, write it together. -/
theorem wrotePred_foldl {p : Nat} {v : Group → Nat → Bool} {g : Group} (hv : ∀ g', g'.regs = g.regs → v g' = v g)
    (l : List Nat) : wrotePred g (l.foldl (fun g t => predWrite g p t (v g t)) g) p l (v g) := by
  induction l using List.reverseRecOn with
  | nil => intro q u _; simp
  | append_singleton l t ih =>
    have honly := onlyPreds.foldl (fun g t => predWrite_onlyPreds g p t (v g t)) l g
    intro q u hu
    rw [List.foldl_append, List.foldl_cons, List.foldl_nil, predRead_predWrite, ih q u hu, hv _ (by rw [honly])]
    by_cases hut : u = t
    · subst hut; by_cases hp : p = pt <;> by_cases hq : q = p <;> simp [hp, hq]
    · simp [hut]

/-! ### Threads that go on -/

@[simp] theorem wentOn_fields (g : Group) (ts : List Nat) (p : Nat → Nat) :
    (wentOn g ts p).regs = g.regs ∧ (wentOn g ts p).preds = g.preds ∧ (wentOn g ts p).exited = g.exited ∧
    (wentOn g ts p).joins = g.joins ∧ (wentOn g ts p).region = g.region ∧ (wentOn g ts p).entry = g.entry :=
  ⟨rfl, rfl, rfl, rfl, rfl, rfl⟩

@[simp] theorem wentOn_nil (g : Group) (p : Nat → Nat) : wentOn g [] p = g := by
  simp [wentOn]

theorem threadPc_wentOn (g : Group) (ts : List Nat) (p : Nat → Nat) (u : Nat) :
    threadPc (wentOn g ts p) u = if u ∈ ts then p u else threadPc g u := (wentOn_moved g ts p).1 u

theorem tfind_waits_wentOn (g : Group) (ts : List Nat) (p : Nat → Nat) (u : Nat) :
    tfind (wentOn g ts p).waits u = if u ∈ ts then none else tfind g.waits u := tfind_filter_not ..

/-- The threads stand where they stood, and those outside `ts` wait for what they waited for. -/
structure standsAs (g g' : Group) (ts : List Nat) : Prop where
  pc : ∀ u, threadPc g' u = threadPc g u
  waits : ∀ u, u ∉ ts → tfind g'.waits u = tfind g.waits u

theorem standsAs.of_fields {g g' : Group} {ts : List Nat} (hp : g'.pcs = g.pcs) (he : g'.entry = g.entry)
    (hw : g'.waits = g.waits) : standsAs g g' ts :=
  ⟨fun u => by simp [threadPc, hp, he], fun u _ => by rw [hw]⟩

theorem onlyRegs.standsAs {g g' : Group} (h : onlyRegs g g') (ts : List Nat) : standsAs g g' ts :=
  .of_fields (by rw [h]) (by rw [h]) (by rw [h])

theorem onlyPreds.standsAs {g g' : Group} (h : onlyPreds g g') (ts : List Nat) : standsAs g g' ts :=
  .of_fields (by rw [h]) (by rw [h]) (by rw [h])

theorem moved.congr {g g' : Group} {ts us : List Nat} {p q : Nat → Nat} (h : moved g g' ts p) (hmem : ∀ u, u ∈ ts ↔ u ∈ us)
    (hp : ∀ u, u ∈ us → p u = q u) : moved g g' us q := by
  obtain ⟨hpc, hwait⟩ := h
  refine ⟨fun u => ?_, fun u hu => hwait u ((hmem u).mpr hu)⟩
  rw [hpc u]
  by_cases hu : u ∈ us
  · simp [hu, (hmem u).mpr hu, hp u hu]
  · simp [hu, mt (hmem u).mp hu]

/-- Threads that go on after others have gone on. -/
theorem moved.wentOn {g g₁ g₂ : Group} {ts us : List Nat} {p q : Nat → Nat} (h : moved g g₁ us q)
    (hs : standsAs g₁ g₂ ts) : moved g (wentOn g₂ ts p) (ts ++ us) (fun u => if u ∈ ts then p u else q u) := by
  obtain ⟨hpc, hwait⟩ := h
  refine ⟨fun u => ?_, fun u hu => ?_⟩
  · rw [threadPc_wentOn, hs.pc, hpc]
    by_cases h1 : u ∈ ts <;> by_cases h2 : u ∈ us <;> simp [h1, h2]
  · rw [tfind_waits_wentOn]
    by_cases h1 : u ∈ ts
    · rw [if_pos h1]
    · rw [if_neg h1, hs.waits u h1]
      exact hwait u ((List.mem_append.mp hu).resolve_left h1)

/-! ### Groups of a state -/

theorem tset_tset {α : Type} (t : Tab α) (k : Nat) (v w : α) : tset (tset t k v) k w = tset t k w := by
  induction t with
  | nil => simp [tset]
  | cons e r ih =>
    obtain ⟨j, x⟩ := e
    by_cases h1 : k < j
    · simp [tset, h1]
    · by_cases h2 : k = j
      · simp [tset, h2]
      · simp [tset, h1, h2, ih]

theorem tmodIf_tmodIf {α : Type} (t : Tab α) (k : Nat) (f h : α → α) :
    tmodIf (tmodIf t k f) k h = tmodIf t k (fun x => h (f x)) := by
  cases hk : tfind t k with
  | none => simp [tmodIf, hk]
  | some v => simp [tmodIf, hk, tset_tset]

theorem modCore_modCore (s : State) (k : Nat) (f h : Core → Core) :
    modCore (modCore s k f) k h = modCore s k (fun c => h (f c)) := by
  simp [modCore, tmod, tset_tset]

theorem modGroup_modGroup (s : State) (k gi : Nat) (f h : Group → Group) :
    modGroup (modGroup s k gi f) k gi h = modGroup s k gi (fun g => h (f g)) := by
  simp [modGroup, modCore_modCore, tmodIf_tmodIf]

/-- A change of a core that leaves its groups. -/
theorem groupOf_modCore {k : Nat} {f : Core → Core} (hf : ∀ c, (f c).groups = c.groups) (s : State) (j gi : Nat) :
    groupOf (modCore s k f) j gi = groupOf s j gi := by
  by_cases hj : j = k
  · subst hj; simp [groupOf, hf]
  · simp [groupOf, hj]

/-- A change of a group leaves the rest of its core. -/
theorem coreOf_modGroup (s : State) (k gi : Nat) (f : Group → Group) (j : Nat) :
    coreOf (modGroup s k gi f) j = { coreOf s j with groups := (coreOf (modGroup s k gi f) j).groups } := by
  unfold modGroup
  by_cases hj : j = k
  · subst hj; simp
  · simp [hj]

@[simp] theorem coreOf_modGroup_fields (s : State) (k gi : Nat) (f : Group → Group) (j : Nat) :
    (coreOf (modGroup s k gi f) j).tile = (coreOf s j).tile ∧
    (coreOf (modGroup s k gi f) j).tileOwner = (coreOf s j).tileOwner ∧
    (coreOf (modGroup s k gi f) j).regionQueue = (coreOf s j).regionQueue ∧
    (coreOf (modGroup s k gi f) j).flags = (coreOf s j).flags ∧
    (coreOf (modGroup s k gi f) j).scratch = (coreOf s j).scratch ∧
    (coreOf (modGroup s k gi f) j).scratchUnits = (coreOf s j).scratchUnits ∧
    (coreOf (modGroup s k gi f) j).loads = (coreOf s j).loads ∧
    (coreOf (modGroup s k gi f) j).releases = (coreOf s j).releases ∧
    (coreOf (modGroup s k gi f) j).stopped = (coreOf s j).stopped ∧
    (coreOf (modGroup s k gi f) j).saving = (coreOf s j).saving ∧
    (coreOf (modGroup s k gi f) j).resetting = (coreOf s j).resetting := by
  rw [coreOf_modGroup]
  simp

@[simp] theorem cells_modGroup (s : State) (k gi : Nat) (f : Group → Group) :
    (modGroup s k gi f).cells.pegs = s.cells.pegs ∧ (modGroup s k gi f).cells.cellars = s.cells.cellars ∧
    (modGroup s k gi f).cells.nextId = s.cells.nextId := ⟨rfl, rfl, rfl⟩

/-- Threads that keep to their region go on. -/
theorem moveThreads_eq {s : State} {k gi : Nat} {g : Group} {ts : List Nat} {p : Nat → Nat} (hg : groupOf s k gi = some g)
    (h : leavesRegion g ts p = false) : moveThreads s k gi ts p = modGroup s k gi (fun g => wentOn g ts p) :=
  moveThreads_stays hg h

theorem groupOf_moveThreads {s : State} {k gi : Nat} {g : Group} {ts : List Nat} {p : Nat → Nat}
    (hg : groupOf s k gi = some g) (h : leavesRegion g ts p = false) :
    groupOf (moveThreads s k gi ts p) k gi = some (wentOn g ts p) := by
  rw [moveThreads_eq hg h, groupOf_modGroup_self, hg, Option.map_some]

theorem leavesRegion_congr {g : Group} {ts us : List Nat} {p q : Nat → Nat} (hmem : ∀ u, u ∈ ts ↔ u ∈ us)
    (hp : ∀ u, u ∈ us → p u = q u) : leavesRegion g ts p = leavesRegion g us q := by
  unfold leavesRegion
  split
  · rfl
  · rw [Bool.eq_iff_iff, List.any_eq_true, List.any_eq_true]
    constructor
    · rintro ⟨u, hu, h⟩
      exact ⟨u, (hmem u).mp hu, by rwa [← hp u ((hmem u).mp hu)]⟩
    · rintro ⟨u, hu, h⟩
      exact ⟨u, (hmem u).mpr hu, by rwa [hp u hu]⟩

/-! ### What the body of an issue finds -/

/-- The group that the body of an issue acts on: its other subsets passed over, the threads with a false guard gone on. -/
def atIssue (s : State) (i : Issue) (g : Group) (off : List Nat) : Group :=
  wentOn (passOver (coreOf s i.core) i.group g i.pc) off (fun _ => i.pc + 1)

@[simp] theorem atIssue_fields (s : State) (i : Issue) (g : Group) (off : List Nat) :
    (atIssue s i g off).regs = g.regs ∧ (atIssue s i g off).preds = g.preds ∧ (atIssue s i g off).exited = g.exited ∧
    (atIssue s i g off).joins = g.joins ∧ (atIssue s i g off).region = g.region ∧ (atIssue s i g off).entry = g.entry :=
  ⟨rfl, rfl, rfl, rfl, rfl, rfl⟩

theorem atIssue_moved (s : State) (i : Issue) (g : Group) (off : List Nat) :
    moved g (atIssue s i g off) off (fun _ => i.pc + 1) := by
  have h := wentOn_moved (passOver (coreOf s i.core) i.group g i.pc) off (fun _ => i.pc + 1)
  exact h

section

variable {s : State} {i : Issue} {g : Group} {act off : List Nat}

/-- The threads that executed have gone on from where the issue found them. -/
theorem moved_on {g₂ : Group} (hs : standsAs (atIssue s i g off) g₂ act) (p : Nat → Nat) :
    moved g (wentOn g₂ act p) (act ++ off) (fun u => if u ∈ act then p u else i.pc + 1) :=
  (atIssue_moved s i g off).wentOn hs

theorem moved_next {g₂ : Group} (hs : standsAs (atIssue s i g off) g₂ act) :
    moved g (wentOn g₂ act (fun _ => i.pc + 1)) (act ++ off) (fun _ => i.pc + 1) :=
  (moved_on hs _).congr (fun _ => Iff.rfl) (fun u _ => by simp)

/-- The state that the body of an issue acts on differs in the group alone. -/
theorem passed_eq (hg : groupOf s i.core i.group = some g) (hoff : leavesRegion g off (fun _ => i.pc + 1) = false) :
    passed s i g off = modGroup s i.core i.group (fun _ => atIssue s i g off) := by
  unfold passed
  split
  · rename_i hnil
    rw [List.isEmpty_iff.mp hnil, atIssue, wentOn_nil, inTurnState]
  · have hturn : groupOf (inTurnState s i g) i.core i.group = some (passOver (coreOf s i.core) i.group g i.pc) := by
      simp [inTurnState, hg]
    have hstay : leavesRegion (passOver (coreOf s i.core) i.group g i.pc) off (fun _ => i.pc + 1) = false := hoff
    rw [advance, moveThreads_eq hturn hstay, inTurnState, modGroup_modGroup, atIssue]

theorem groupOf_passed (hg : groupOf s i.core i.group = some g) (hoff : leavesRegion g off (fun _ => i.pc + 1) = false) :
    groupOf (passed s i g off) i.core i.group = some (atIssue s i g off) := by
  rw [passed_eq hg hoff, groupOf_modGroup_self, hg, Option.map_some]

theorem groupOf_modGroup_passed (hg : groupOf s i.core i.group = some g)
    (hoff : leavesRegion g off (fun _ => i.pc + 1) = false) (f : Group → Group) :
    groupOf (modGroup (passed s i g off) i.core i.group f) i.core i.group = some (f (atIssue s i g off)) := by
  rw [groupOf_modGroup_self, groupOf_passed hg hoff, Option.map_some]

/-- An issue whose threads with a false guard keep to their region runs its body for the others. -/
theorem issue_eq {regs preds : List Nat} {also : Wait → Bool} (h : issues s i regs preds also g act off)
    (hoff : leavesRegion g off (fun _ => i.pc + 1) = false) (body : State → Group → List Nat → State) :
    issue s i regs preds also body = body (passed s i g off) (atIssue s i g off) act := by
  obtain ⟨hg, hcore, hturn, hact, hactEq, hoffEq⟩ := h
  have hall : (subsetAt (coreOf s i.core) i.group g i.pc regs (i.pred :: preds) also).isEmpty = false := by
    rw [List.isEmpty_eq_false_iff]
    intro hnil
    rw [hnil] at hactEq
    exact hact hactEq
  have hactNe : act.isEmpty = false := List.isEmpty_eq_false_iff.mpr hact
  have hgroup := groupOf_passed hg hoff
  unfold issue
  simp only [hg, hcore, hturn, hall, Bool.not_true, Bool.false_eq_true, or_self, if_false, ← hactEq, ← hoffEq, hactNe]
  unfold passed inTurnState at hgroup ⊢
  rw [hgroup]

/-- The threads of an issue are among the 64 of the group, each once, at the instruction. -/
theorem issues_act {regs preds : List Nat} {also : Wait → Bool} (h : issues s i regs preds also g act off) :
    act.Nodup ∧ (∀ u ∈ act, u < 64) ∧ (∀ u ∈ act, threadPc g u = i.pc) ∧ ∀ u ∈ act, bitAt g.exited u = false := by
  obtain ⟨-, -, -, -, rfl, -⟩ := h
  have hmem : ∀ u ∈ (subsetAt (coreOf s i.core) i.group g i.pc regs (i.pred :: preds) also).filter (guardOn g i),
      u < 64 ∧ bitAt g.exited u = false ∧ threadPc g u = i.pc := by
    intro u hu
    simp only [subsetAt, liveThreads, List.mem_filter, List.mem_range, Bool.and_eq_true, Bool.not_eq_true',
      beq_iff_eq] at hu
    obtain ⟨⟨⟨hlt, hlive⟩, ⟨hpc, -⟩, -⟩, -⟩ := hu
    exact ⟨hlt, hlive, hpc⟩
  exact ⟨((List.nodup_range.filter _).filter _).filter _, fun u hu => (hmem u hu).1, fun u hu => (hmem u hu).2.2,
    fun u hu => (hmem u hu).2.1⟩

/-- No thread both executes and passes by. -/
theorem issues_disjoint {regs preds : List Nat} {also : Wait → Bool} (h : issues s i regs preds also g act off) :
    ∀ u ∈ act, u ∉ off := by
  obtain ⟨-, -, -, -, rfl, rfl⟩ := h
  intro u hu hoff
  simp only [List.mem_filter, Bool.not_eq_true'] at hu hoff
  rw [hu.2] at hoff
  exact absurd hoff.2 (by simp)

end

end Sys2Proof.Machine

end

section

/-! O14: instructions that compute a register or a predicate of each thread from the registers of that thread (04 R92, R93,
R95, R99). -/

namespace Sys2Proof.Machine

/-- The registers of thread `t` are the same in both groups. -/
def sameLane (g g' : Group) (t : Nat) : Prop := ∀ q, regRead g' q t = regRead g q t

theorem sameLane.wideRead {g g' : Group} {t : Nat} (h : sameLane g g' t) (wide : Bool) (r : Nat) :
    wideRead g' wide r t = wideRead g wide r t := by
  simp [Machine.wideRead, pairRead, h r, h (r + 1)]

/-- Threads that each write a function of their own registers hold its value on the registers as they were. -/
theorem wroteReg_foldl_wideWrite {wide : Bool} {r : Nat} {v : Group → Nat → Nat} {l : List Nat} {g : Group}
    (hl : l.Nodup) (hlt : ∀ t ∈ l, t < 64) (hv : ∀ g' t, sameLane g g' t → v g' t = v g t) :
    wroteReg g (l.foldl (fun g t => wideWrite g wide r t (v g t)) g) wide r l (v g) :=
  wroteReg_foldl l hl hlt (fun g' t ht hsame =>
    (wroteReg_wideWrite (hlt t ht) g' wide r (v g' t)).congr (fun u hu => by
      rw [List.mem_singleton.mp hu]; exact hv g' t hsame))

section

variable {s : State} {i : Issue} {g : Group} {act off : List Nat} {regs preds : List Nat}

/-- A plain instruction whose threads write `v` of their own registers. -/
theorem plain_ranReg (h : issues s i regs preds noWait g act off) (hs : stays g i act off) {wide : Bool} {r : Nat}
    {v : State → Group → Nat → Nat} (hv : ∀ s g g' t, sameLane g g' t → v s g' t = v s g t) {val : Nat → Nat}
    (hval : ∀ s' g', s'.time = s.time → coreStep s' i.core = coreStep s i.core → g'.regs = g.regs →
      ∀ t ∈ act, v s' g' t = val t) :
    ranReg (plain s i regs preds (fun s g t => wideWrite g wide r t (v s g t))) i g act off wide r val := by
  have honly : ∀ s g t, onlyRegs g (wideWrite g wide r t (v s g t)) := fun s g t => wideWrite_onlyRegs ..
  obtain ⟨s₁, g₁, g', hg', hregs, hpreds, htime, hstep, hregs', hpreds', hmoved⟩ :=
    plain_issues h hs (fun s g t => wideWrite g wide r t (v s g t)) (fun s g t => by
      rw [honly s g t]; exact ⟨rfl, rfl, rfl, rfl⟩)
  obtain ⟨hnodup, hlt, -, -⟩ := issues_act h
  refine ⟨g', hg', fun q u hu => ?_, ?_, hmoved⟩
  · have hw := (wroteReg_foldl_wideWrite (wide := wide) (r := r) (v := v s₁) (g := g₁) hnodup hlt (hv s₁ g₁)).congr
      (hval s₁ g₁ htime hstep hregs)
    have hq := hw q u hu
    simp only [regRead, hregs', hregs] at hq ⊢
    exact hq
  · rw [hpreds', onlyRegs.foldl (honly s₁) act g₁, hpreds]

/-- A plain instruction whose threads write a predicate computed from the registers. -/
theorem plain_ranPred (h : issues s i regs preds noWait g act off) (hs : stays g i act off) {p : Nat}
    {v : Group → Nat → Bool} (hv : ∀ g g' : Group, g'.regs = g.regs → v g' = v g) :
    ranPred (plain s i regs preds (fun _ g t => predWrite g p t (v g t))) i g act off p (v g) := by
  have honly : ∀ g t, onlyPreds g (predWrite g p t (v g t)) := fun g t => predWrite_onlyPreds ..
  obtain ⟨s₁, g₁, g', hg', hregs, hpreds, -, -, hregs', hpreds', hmoved⟩ :=
    plain_issues h hs (fun _ g t => predWrite g p t (v g t)) (fun _ g t => by
      rw [honly g t]; exact ⟨rfl, rfl, rfl, rfl⟩)
  have hvg : v g₁ = v g := hv g g₁ hregs
  have hw := wrotePred_foldl (p := p) (v := v) (g := g₁) (fun g' hg' => hv g₁ g' hg') act
  refine ⟨g', hg', fun q u hu => ?_, ?_, hmoved⟩
  · have hq := hw q u hu
    rw [hvg] at hq
    simp only [predRead, hpreds', hpreds] at hq ⊢
    exact hq
  · rw [hregs', onlyPreds.foldl honly act g₁, hregs]

/-- A special register reads the clock and the step that the core holds (04 Table 4-13). -/
theorem specialValue_congr {s' : State} (htime : s'.time = s.time) (hstep : coreStep s' i.core = coreStep s i.core)
    (sr : SpecialReg) (t : Nat) : specialValue s' i sr t = specialValue s i sr t := by
  cases sr <;> simp only [specialValue, htime, hstep]

/-- A form that IMAGE_LOAD admits completes. -/
theorem kernel_admitted {ok : Bool} (h : ok = true) (t : State) : kernel ok t = .next t := if_pos h

end

end Sys2Proof.Machine

end

section

/-! O14, settled. -/

namespace Sys2Proof

open Machine in
/-- Settles O14: each instruction is a plain issue of one write. -/
theorem kernelRegisterOps : Obligations.KernelRegisterOps := by
  intro i s g act off hpred hstay
  have hguard : guardOk i = true := by simpa [guardOk] using hpred
  refine ⟨fun o wide dst sa sb sc l hl hok h => ?_, fun k sgn wide dst sa sb sc hdst hok h => ?_,
    fun o dst sa sb sc hok h => ?_, fun k dst sa sb sc hdst hok h => ?_, fun src dstf rd ra se de hok hse hde h => ?_,
    fun dst sa hok h => ?_, fun dst x hok hx h => ?_, fun dst sr hok h => ?_⟩
  · subst hl
    refine ⟨_, kernel_admitted (by rw [hguard, Bool.true_and]; exact hok) _, plain_ranReg h hstay
      (v := fun _ g t => intOp o _ (wideRead g wide sa t) (wideRead g wide sb t) (wideRead g wide sc t))
      (fun _ g g' t hsame => by simp only [hsame.wideRead]) (fun s' g' _ _ hregs u _ => ?_)⟩
    simp only [wideRead_congr hregs]
  · exact ⟨_, kernel_admitted (by simp only [hguard, hdst, decide_true, Bool.true_and]; exact hok) _, plain_ranPred h hstay
      (v := fun g t => intCmp k sgn _ (wideRead g wide sa t) (wideRead g wide sb t))
      (fun g g' hregs => by simp only [wideRead_congr hregs])⟩
  · exact ⟨_, kernel_admitted (by rw [hguard, Bool.true_and]; exact hok) _, plain_ranReg h hstay (wide := false)
      (v := fun _ g t => fpOp o (regRead g sa t) (regRead g sb t) (regRead g sc t))
      (fun _ g g' t hsame => by simp only [hsame sa, hsame sb, hsame sc])
      (fun s' g' _ _ hregs u _ => by simp only [regRead_congr hregs])⟩
  · exact ⟨_, kernel_admitted (by simp only [hguard, hdst, decide_true, Bool.true_and]; exact hok) _, plain_ranPred h hstay
      (v := fun g t => fpCmp k (regRead g sa t) (regRead g sb t)) (fun g g' hregs => by simp only [regRead_congr hregs])⟩
  · exact ⟨_, kernel_admitted (by simp [hguard, hok, hse, hde]) _, plain_ranReg h hstay (wide := false)
      (v := fun _ g t => putElement (regRead g rd t) dstf de
        (convert src dstf (bits (regRead g ra t) (se * fmtWidth src) (fmtWidth src))))
      (fun _ g g' t hsame => by simp only [hsame rd, hsame ra])
      (fun s' g' _ _ hregs u _ => by simp only [regRead_congr hregs])⟩
  · exact ⟨_, kernel_admitted (by rw [hguard, Bool.true_and]; exact hok) _, plain_ranReg h hstay (wide := false)
      (v := fun _ g t => regRead g sa t) (fun _ g g' t hsame => hsame sa)
      (fun s' g' _ _ hregs u _ => regRead_congr hregs sa u)⟩
  · exact ⟨_, kernel_admitted (by simp only [hguard, hok, hx, decide_true, Bool.and_self]) _, plain_ranReg h hstay (wide := false)
      (v := fun _ _ _ => x) (fun _ _ _ _ _ => rfl) (fun _ _ _ _ _ _ _ => rfl)⟩
  · exact ⟨_, kernel_admitted (by rw [hguard, Bool.true_and]; exact hok) _, plain_ranReg h hstay
      (v := fun s _ t => specialValue s i sr t) (fun _ _ _ _ _ => rfl)
      (fun s' g' htime hstep _ u _ => specialValue_congr htime hstep sr u)⟩

end Sys2Proof

end

section

/-! O16: the control instructions, which move threads and record them in join slots (04 R97, R99, R100, R118). -/

namespace Sys2Proof.Machine

section

variable {s : State} {i : Issue} {g : Group} {act off : List Nat} {regs preds : List Nat}

/-- The threads that an issue goes on with at the next word. -/
theorem groupOf_advance {t : State} {g₂ : Group} (ht : groupOf t i.core i.group = some g₂) (hregion : g₂.region = g.region)
    (hs : stays g i act off) : groupOf (advance t i act) i.core i.group = some (wentOn g₂ act (fun _ => i.pc + 1)) :=
  groupOf_moveThreads ht (by rw [leaves_region hregion]; exact hs.1)

/-- A branch to a word of the code (04 Table 4-5). -/
theorem branchTo_eq {n base dest : Nat} {o : Int} (h : (base : Int) + o = dest) : branchTo n base o = dest := by
  simp [branchTo, h]

/-- The threads of an issue branch. -/
theorem groupOf_branch (h : issues s i regs preds noWait g act off) (hoff : leavesRegion g off (fun _ => i.pc + 1) = false)
    {p dest : Nat → Nat} (hp : ∀ u ∈ act, p u = dest u) (hact : leavesRegion g act dest = false) :
    groupOf (moveThreads (takeFresh (passed s i g off)).2 i.core i.group act p) i.core i.group =
        some (wentOn (atIssue s i g off) act p) ∧
      moved g (wentOn (atIssue s i g off) act p) (act ++ off) (fun u => if u ∈ act then dest u else i.pc + 1) := by
  have hstay : leavesRegion (atIssue s i g off) act p = false := by
    rw [leaves_region (g := g) (g' := atIssue s i g off) rfl, leavesRegion_congr (fun _ => Iff.rfl) hp, hact]
  have hg : groupOf (takeFresh (passed s i g off)).2 i.core i.group = some (atIssue s i g off) :=
    groupOf_passed h.1 hoff
  refine ⟨groupOf_moveThreads hg hstay, (moved_on (.of_fields rfl rfl rfl) p).congr (fun _ => Iff.rfl) fun u _ => ?_⟩
  by_cases hu : u ∈ act
  · simp [hu, hp u hu]
  · simp [hu]

end

/-! ### Joins -/

theorem mem_tset_other {α : Type} {t : Tab α} {k j : Nat} {v w : α} (h : (j, w) ∈ t) (hj : j ≠ k) : (j, w) ∈ tset t k v := by
  induction t with
  | nil => simp at h
  | cons e r ih =>
    obtain ⟨a, x⟩ := e
    unfold tset
    split_ifs with h1 h2
    · exact List.mem_cons_of_mem _ h
    · subst h2
      rcases List.mem_cons.mp h with heq | h
      · exact absurd (congrArg Prod.fst heq) hj
      · exact List.mem_cons_of_mem _ h
    · rcases List.mem_cons.mp h with heq | h
      · exact heq ▸ List.mem_cons_self
      · exact List.mem_cons_of_mem _ (ih h)

theorem mem_of_mem_tset {α : Type} {t : Tab α} {k j : Nat} {v w : α} (h : (j, w) ∈ tset t k v) :
    (j, w) = (k, v) ∨ (j, w) ∈ t := by
  induction t with
  | nil => simpa [tset] using h
  | cons e r ih =>
    obtain ⟨a, x⟩ := e
    unfold tset at h
    split_ifs at h with h1 h2
    · exact List.mem_cons.mp h
    · exact (List.mem_cons.mp h).imp_right (List.mem_cons_of_mem _)
    · rcases List.mem_cons.mp h with heq | h
      · exact .inr (heq ▸ List.mem_cons_self)
      · exact (ih h).imp_right (List.mem_cons_of_mem _)

/-- The threads that a group lists as waiting for `w`. -/
theorem mem_foldl_tset_waits {w : Wait} (l : List Nat) (m : Tab Wait) (u : Nat) :
    (u, w) ∈ l.foldl (fun m t => tset m t w) m ↔ u ∈ l ∨ (u, w) ∈ m := by
  induction l generalizing m with
  | nil => simp
  | cons a l ih =>
    rw [List.foldl_cons, ih, List.mem_cons]
    constructor
    · rintro (h | h)
      · exact .inl (.inr h)
      · rcases mem_of_mem_tset h with heq | h
        · exact .inl (.inl (congrArg Prod.fst heq))
        · exact .inr h
    · rintro ((rfl | h) | h)
      · exact .inr (mem_tset_self ..)
      · exact .inl h
      · by_cases hu : u = a
        · exact .inr (hu ▸ mem_tset_self ..)
        · exact .inr (mem_tset_other h hu)

theorem mem_joinWaiters (g : Group) (slot u : Nat) : u ∈ joinWaiters g slot ↔ (u, Wait.join slot) ∈ g.waits := by
  simp [joinWaiters]

/-- The group once threads wait at JOIN of a slot. -/
def atJoin (g : Group) (act : List Nat) (slot : Nat) : Group :=
  { g with waits := act.foldl (fun m t => tset m t (.join slot)) g.waits }

theorem mem_joinWaiters_atJoin {g : Group} {slot : Nat} (h : joinWaiters g slot = []) (act : List Nat) (u : Nat) :
    u ∈ joinWaiters (atJoin g act slot) slot ↔ u ∈ act := by
  have hnone : (u, Wait.join slot) ∉ g.waits := by
    rw [← mem_joinWaiters, h]
    exact List.not_mem_nil
  rw [mem_joinWaiters, atJoin, mem_foldl_tset_waits]
  simp [hnone]

theorem atJoin_standsAs (g : Group) (act : List Nat) (slot : Nat) : standsAs g (atJoin g act slot) act :=
  ⟨fun _ => rfl, fun u hu => by simp [atJoin, tfind_foldl_tset, hu]⟩

/-- A slot whose recorded threads have not all come keeps the threads that wait. -/
theorem settleJoin_waits {s : State} {k gi slot : Nat} {g : Group} (hg : groupOf s k gi = some g)
    (h : ¬ ∀ u, u < 64 → bitAt (tget g.joins slot 0) u = true → bitAt g.exited u = true ∨ u ∈ joinWaiters g slot) :
    settleJoin s k gi slot = s := by
  unfold settleJoin
  simp only [hg]
  refine if_neg fun ⟨_, hall⟩ => h fun u hlt hbit => ?_
  simpa using List.all_eq_true.mp hall u ((mem_maskBits ..).mpr ⟨hlt, hbit⟩)

theorem settleJoin_empty {s : State} {k gi slot : Nat} {g : Group} (hg : groupOf s k gi = some g)
    (h : tget g.joins slot 0 = 0) : settleJoin s k gi slot = s := by
  unfold settleJoin
  simp [hg, h]

/-- A slot whose recorded threads have all come or exited empties, and the threads that wait go on. -/
theorem settleJoin_goes {s : State} {k gi slot : Nat} {g : Group} (hg : groupOf s k gi = some g)
    (hrec : tget g.joins slot 0 ≠ 0)
    (h : ∀ u, u < 64 → bitAt (tget g.joins slot 0) u = true → bitAt g.exited u = true ∨ u ∈ joinWaiters g slot) :
    settleJoin s k gi slot = moveThreads (modGroup s k gi (fun g => { g with joins := tdel g.joins slot })) k gi
      (joinWaiters g slot) (fun t => threadPc g t + 1) := by
  unfold settleJoin
  simp only [hg]
  refine if_pos ⟨hrec, List.all_eq_true.mpr fun u hu => ?_⟩
  obtain ⟨hlt, hbit⟩ := (mem_maskBits ..).mp hu
  simpa using h u hlt hbit

section

variable {s : State} {i : Issue} {g : Group} {act off : List Nat} {slot : Nat}

theorem groupOf_setWaits {t : State} {k gi : Nat} {g₁ : Group} (hg : groupOf t k gi = some g₁) (ts : List Nat)
    (w : Nat → Wait) : groupOf (setWaits t k gi ts w) k gi =
      some { g₁ with waits := ts.foldl (fun m t => tset m t (w t)) g₁.waits } := by
  rw [setWaits, groupOf_modGroup_self, hg, Option.map_some]

theorem joinWaiters_atIssue (h : joinWaiters g slot = []) : joinWaiters (atIssue s i g off) slot = [] := by
  rw [List.eq_nil_iff_forall_not_mem] at h ⊢
  intro u hu
  rw [mem_joinWaiters] at hu
  exact h u ((mem_joinWaiters ..).mpr (List.mem_of_mem_filter hu))

/-- The group once SPLIT has recorded the threads of an issue. -/
def splitAt (s : State) (i : Issue) (g : Group) (act off : List Nat) (slot : Nat) : Group :=
  { atIssue s i g off with joins := tset g.joins slot (maskOf act) }

/-- The group once the threads of an issue have ended. -/
def exitAt (s : State) (i : Issue) (g : Group) (act off : List Nat) : Group :=
  { atIssue s i g off with exited := act.foldl setBit g.exited }

/-- What a JOIN of an issue settles: the group with the threads of the issue waiting there. -/
theorem groupOf_atJoin {regs preds : List Nat} (h : issues s i regs preds noWait g act off)
    (hoff : leavesRegion g off (fun _ => i.pc + 1) = false) :
    groupOf (setWaits (passed s i g off) i.core i.group act (fun _ => .join slot)) i.core i.group =
      some (atJoin (atIssue s i g off) act slot) := groupOf_setWaits (groupOf_passed h.1 hoff) ..

/-- The group after a JOIN that the whole recorded set has reached: the slot is empty, and all go on. -/
def joined (s : State) (i : Issue) (g : Group) (act off : List Nat) (slot : Nat) : Group :=
  wentOn { atJoin (atIssue s i g off) act slot with joins := tdel g.joins slot }
    (joinWaiters (atJoin (atIssue s i g off) act slot) slot) (fun t => threadPc (atJoin (atIssue s i g off) act slot) t + 1)

theorem groupOf_joined {regs preds : List Nat} (h : issues s i regs preds noWait g act off) (hs : stays g i act off)
    (hrec : tget g.joins slot 0 ≠ 0) (hnone : joinWaiters g slot = [])
    (hall : ∀ u, u < 64 → bitAt (tget g.joins slot 0) u = true → bitAt g.exited u = true ∨ u ∈ act) :
    groupOf (settleJoin (setWaits (passed s i g off) i.core i.group act (fun _ => .join slot)) i.core i.group slot)
        i.core i.group = some (joined s i g act off slot) ∧
      moved g (joined s i g act off slot) (act ++ off) (fun _ => i.pc + 1) := by
  have hset := groupOf_atJoin (slot := slot) h hs.2
  have hmem := mem_joinWaiters_atJoin (joinWaiters_atIssue (s := s) (i := i) (off := off) hnone) act
  have hpc : ∀ u, u ∈ act → threadPc (atJoin (atIssue s i g off) act slot) u + 1 = i.pc + 1 := by
    intro u hu
    obtain ⟨-, -, hat, -⟩ := issues_act h
    rw [(atJoin_standsAs _ act slot).pc, (atIssue_moved s i g off).1, if_neg (issues_disjoint h u hu), hat u hu]
  rw [settleJoin_goes hset hrec (fun u hlt hbit => (hall u hlt hbit).imp_right (hmem u).mpr)]
  refine ⟨groupOf_moveThreads ?_ ?_, ?_⟩
  · rw [groupOf_modGroup_self, hset]
    rfl
  · rw [leaves_region (g := g) (g' := { atJoin (atIssue s i g off) act slot with joins := tdel g.joins slot }) rfl,
      leavesRegion_congr hmem hpc]
    exact hs.1
  · refine ((atIssue_moved s i g off).wentOn ⟨(atJoin_standsAs _ act slot).pc, fun u hu => ?_⟩).congr (fun u => ?_)
      (fun u _ => ?_)
    · exact (atJoin_standsAs _ act slot).waits u (by rwa [hmem] at hu)
    · simp [hmem]
    · by_cases hu : u ∈ act
      · simp [hmem, hu, hpc u hu]
      · simp [hmem, hu]

/-- With no slot in use, no JOIN has anything to settle. -/
theorem settleJoins_empty {t : State} {g₁ : Group} (hg : groupOf t i.core i.group = some g₁)
    (h : ∀ j, j < 8 → tget g₁.joins j 0 = 0) :
    forEach (List.range 8) t (fun s j => settleJoin s i.core i.group j) = t :=
  List.foldlRecOn (motive := fun u => u = t) _ _ rfl fun u hu j hj => by
    subst hu
    exact settleJoin_empty hg (h j (List.mem_range.mp hj))

end

end Sys2Proof.Machine

end

section

/-! O16, settled. -/

namespace Sys2Proof

open Machine in
/-- Settles O16: each instruction by its body on the group that the issue finds. -/
theorem kernelControl : Obligations.KernelControl := by
  intro i s g act off hpred h
  have hguard : guardOk i = true := by simpa [guardOk] using hpred
  have hguardSlot : ∀ slot, slot < 8 → (guardOk i && decide (slot < 8)) = true := fun slot hslot => by simp [hguard, hslot]
  have hnext : ∀ hs : stays g i act off, ∃ t g', kernel (guardOk i) (issue s i [] [] noWait (fun s _ act => advance s i act)) = .next t ∧
      groupOf t i.core i.group = some g' ∧ g'.regs = g.regs ∧ g'.preds = g.preds ∧ g'.joins = g.joins ∧
      moved g g' (act ++ off) (fun _ => i.pc + 1) := by
    intro hs
    rw [issue_eq h hs.2]
    exact ⟨_, wentOn (atIssue s i g off) act _, kernel_admitted hguard _,
      groupOf_advance (groupOf_passed h.1 hs.2) rfl hs, rfl, rfl, rfl, moved_next (.of_fields rfl rfl rfl)⟩
  refine ⟨hnext, hnext, fun o dest hdest hoff hact => ?_, fun sa o table dest hreg htable h hoff hdest hact => ?_,
    fun hs slot hslot => ?_, fun hs slot hslot hempty => ?_, fun hs slot hslot hrec hnone hmissing => ?_,
    fun hs slot hslot hrec hnone hall => ?_, fun hregion hjoins => ?_⟩
  · obtain ⟨hgo, hmoved⟩ := groupOf_branch h hoff (p := fun _ => branchTo (passed s i g off).fresh i.pc o)
      (fun u _ => branchTo_eq hdest) hact
    refine ⟨_, wentOn (atIssue s i g off) act _, kernel_admitted hguard _, ?_, rfl, rfl, hmoved⟩
    rw [issue_eq h hoff]
    exact hgo
  · obtain ⟨hgo, hmoved⟩ := groupOf_branch h hoff (p := fun u => branchTo (passed s i g off).fresh i.pc
      (o + nth table (if regRead g sa u < table.length then regRead g sa u else 0) 0))
      (fun u hu => branchTo_eq (hdest u hu)) hact
    refine ⟨_, wentOn (atIssue s i g off) act _, kernel_admitted (by simp [hguard, hreg, htable]) _, ?_, rfl, rfl, hmoved⟩
    rw [issue_eq h hoff]
    exact hgo
  · have hg := groupOf_modGroup_passed h.1 hs.2 (fun g => { g with joins := tset g.joins slot (maskOf act) })
    refine ⟨_, wentOn (splitAt s i g act off slot) act _, kernel_admitted (hguardSlot slot hslot) _, ?_, rfl, rfl,
      tget_tset_self .., fun j hj => tget_tset_other _ _ _ _ _ hj,
      moved_next (s := s) (g₂ := splitAt s i g act off slot) (.of_fields rfl rfl rfl)⟩
    rw [issue_eq h hs.2]
    exact groupOf_advance hg rfl hs
  · refine ⟨_, wentOn (atIssue s i g off) act _, kernel_admitted (hguardSlot slot hslot) _, ?_, rfl, rfl, rfl,
      moved_next (.of_fields rfl rfl rfl)⟩
    rw [issue_eq h hs.2, if_pos (show tget (atIssue s i g off).joins slot 0 = 0 from hempty)]
    exact groupOf_advance (groupOf_passed h.1 hs.2) rfl hs
  · have hset := groupOf_atJoin (slot := slot) h hs.2
    refine ⟨_, atJoin (atIssue s i g off) act slot, kernel_admitted (hguardSlot slot hslot) _, ?_, rfl, fun u hu => ?_, ?_⟩
    · rw [issue_eq h hs.2, if_neg (show ¬ tget (atIssue s i g off).joins slot 0 = 0 from hrec), settleJoin_waits hset]
      · exact hset
      · intro hall
        exact hmissing fun u hlt hbit =>
          (hall u hlt hbit).imp_right (mem_joinWaiters_atJoin (joinWaiters_atIssue hnone) act u).mp
    · simp [atJoin, tfind_foldl_tset, hu]
    · exact ⟨(atIssue_moved s i g off).1, fun u _ => rfl⟩
  · obtain ⟨hgo, hmoved⟩ := groupOf_joined h hs hrec hnone hall
    refine ⟨_, joined s i g act off slot, kernel_admitted (hguardSlot slot hslot) _, ?_, rfl, rfl, rfl, hmoved⟩
    rw [issue_eq h hs.2, if_neg (show ¬ tget (atIssue s i g off).joins slot 0 = 0 from hrec)]
    exact hgo
  · have hoff : leavesRegion g off (fun _ => i.pc + 1) = false := by simp [leavesRegion, hregion]
    have hg := groupOf_modGroup_passed h.1 hoff (fun g => { g with exited := act.foldl setBit g.exited })
    have hregion' : (atIssue s i g off).region = none := hregion
    refine ⟨_, exitAt s i g act off, kernel_admitted hguard _, ?_, rfl, rfl,
      fun u _ => bitAt_foldl_setBit ..⟩
    rw [issue_eq h hoff]
    simp only [hregion', Bool.false_eq_true, if_false]
    rw [settleJoins_empty hg hjoins]
    exact hg

end Sys2Proof

end

section

/-! O17: shuffles, votes and matches, for members that have gathered and for members that wait (04 R101–R103). -/

namespace Sys2Proof.Machine

section

variable {s : State} {i : Issue} {g : Group} {act off : List Nat} {regs preds : List Nat} {sc : Nat}

/-- Members gather on the registers and the threads of the group as it stood. -/
theorem gathered_atIssue (u : Nat) : gathered (atIssue s i g off) (memberMask (atIssue s i g off) sc u) act =
    gathered g (memberMask g sc u) act := rfl

/-- Where every member has come, the threads execute together and go on. -/
theorem groupOf_gatherOp (h : issues s i regs preds gatherWait g act off) (hs : stays g i act off)
    (hall : ∀ u, u ∈ act → gathered g (memberMask g sc u) act = true) {f : Group → Group → List Nat → Nat → Group}
    (hregion : (act.foldl (fun g₁ t => f (atIssue s i g off) g₁ (liveMembers g sc t) t) (atIssue s i g off)).region = g.region) :
    groupOf (gatherOp s i regs preds sc f) i.core i.group =
      some (wentOn (act.foldl (fun g₁ t => f (atIssue s i g off) g₁ (liveMembers g sc t) t) (atIssue s i g off)) act
        (fun _ => i.pc + 1)) := by
  have hgo : act.filter (fun t => gathered (atIssue s i g off) (memberMask (atIssue s i g off) sc t) act) = act :=
    List.filter_eq_self.mpr hall
  have hstay : act.filter (fun t => !gathered (atIssue s i g off) (memberMask (atIssue s i g off) sc t) act) = [] :=
    List.filter_eq_nil_iff.mpr (fun u hu => by simp [gathered_atIssue, hall u hu])
  have hset : groupOf (setWaits (passed s i g off) i.core i.group [] (fun t => .gather (memberMask (atIssue s i g off) sc t)))
      i.core i.group = some (atIssue s i g off) := groupOf_setWaits (groupOf_passed h.1 hs.2) ..
  rw [gatherOp, issue_eq h hs.2]
  simp only [hgo, hstay]
  refine groupOf_advance ?_ hregion hs
  rw [groupOf_modGroup_self, hset]
  rfl

/-- Where members are missing, the threads wait for them. -/
theorem groupOf_gatherOp_waits (h : issues s i regs preds gatherWait g act off) (hs : stays g i act off)
    (hnone : ∀ u, u ∈ act → gathered g (memberMask g sc u) act = false) (f : Group → Group → List Nat → Nat → Group) :
    groupOf (gatherOp s i regs preds sc f) i.core i.group = some { atIssue s i g off with
      waits := act.foldl (fun m t => tset m t (.gather (memberMask g sc t))) (atIssue s i g off).waits } := by
  have hgo : act.filter (fun t => gathered (atIssue s i g off) (memberMask (atIssue s i g off) sc t) act) = [] :=
    List.filter_eq_nil_iff.mpr (fun u hu => by simp [gathered_atIssue, hnone u hu])
  have hstay : act.filter (fun t => !gathered (atIssue s i g off) (memberMask (atIssue s i g off) sc t) act) = act :=
    List.filter_eq_self.mpr (fun u hu => by simp [gathered_atIssue, hnone u hu])
  have hset := groupOf_setWaits (groupOf_passed h.1 hs.2) act (fun t => .gather (memberMask (atIssue s i g off) sc t))
  rw [gatherOp, issue_eq h hs.2]
  simp only [hgo, hstay]
  rw [advance, groupOf_moveThreads (g := { atIssue s i g off with
      waits := act.foldl (fun m t => tset m t (.gather (memberMask g sc t))) (atIssue s i g off).waits }) ?_ ?_, wentOn_nil]
  · rw [groupOf_modGroup_self, hset]
    rfl
  · unfold leavesRegion
    split <;> rfl

/-- A gathered operation whose threads each write a register or a pair. -/
theorem gatherOp_ranReg (h : issues s i regs preds gatherWait g act off) (hs : stays g i act off)
    (hall : ∀ u, u ∈ act → gathered g (memberMask g sc u) act = true) {wide : Bool} {r : Nat}
    {v : Group → List Nat → Nat → Nat} (hv : v (atIssue s i g off) = v g) :
    ranReg (gatherOp s i regs preds sc (fun g₀ g₁ members t => wideWrite g₁ wide r t (v g₀ members t))) i g act off wide r
      (fun u => v g (liveMembers g sc u) u) := by
  have honly : onlyRegs (atIssue s i g off) (act.foldl (fun g₁ t => wideWrite g₁ wide r t
      (v (atIssue s i g off) (liveMembers g sc t) t)) (atIssue s i g off)) :=
    .foldl (fun _ _ => wideWrite_onlyRegs ..) ..
  have hregion := groupOf_gatherOp (f := fun g₀ g₁ members t => wideWrite g₁ wide r t (v g₀ members t)) h hs hall
    (by rw [honly]; rfl)
  obtain ⟨hnodup, hlt, -, -⟩ := issues_act h
  refine ⟨_, hregion, ?_, ?_, moved_next (honly.standsAs _)⟩
  · rw [← hv]
    exact wroteReg_foldl_wideWrite (g := atIssue s i g off)
      (v := fun _ t => v (atIssue s i g off) (liveMembers g sc t) t) hnodup hlt (fun _ _ _ => rfl)
  · rw [(wentOn_fields ..).2.1, honly]
    rfl

/-- A gathered operation whose threads each write a predicate. -/
theorem gatherOp_ranPred (h : issues s i regs preds gatherWait g act off) (hs : stays g i act off)
    (hall : ∀ u, u ∈ act → gathered g (memberMask g sc u) act = true) {p : Nat}
    {v : Group → List Nat → Nat → Bool} (hv : v (atIssue s i g off) = v g) :
    ranPred (gatherOp s i regs preds sc (fun g₀ g₁ members t => predWrite g₁ p t (v g₀ members t))) i g act off p
      (fun u => v g (liveMembers g sc u) u) := by
  have honly : onlyPreds (atIssue s i g off) (act.foldl (fun g₁ t => predWrite g₁ p t
      (v (atIssue s i g off) (liveMembers g sc t) t)) (atIssue s i g off)) :=
    .foldl (fun _ _ => predWrite_onlyPreds ..) ..
  have hregion := groupOf_gatherOp (f := fun g₀ g₁ members t => predWrite g₁ p t (v g₀ members t)) h hs hall
    (by rw [honly]; rfl)
  refine ⟨_, hregion, ?_, ?_, moved_next (honly.standsAs _)⟩
  · rw [← hv]
    exact wrotePred_foldl (g := atIssue s i g off)
      (v := fun _ t => v (atIssue s i g off) (liveMembers g sc t) t) (fun _ _ => rfl) act
  · rw [(wentOn_fields ..).1, honly]
    rfl

/-- The value that a shuffle gives a thread (04 R102). -/
def shuffleValue (k : Shuffle) (f : ShflForm) (sa sb : Nat) (g : Group) (members : List Nat) (t : Nat) : Nat :=
  regRead g sa (((shuffleSource k f.seg (f.imm.getD (regRead g sb t)) t).filter (fun v => members.contains v)).getD t)

/-- A shuffle reads the SA of its source, or its own where there is no such member. -/
theorem shuffle_eq (k : Shuffle) (i : Issue) (f : ShflForm) (dst sa sb sc : Nat) (s : State) :
    shuffle k i f dst sa sb sc s = gatherOp s i ([dst, sa, sb] ++ pairRegs sc) [] sc
      (fun g₀ g₁ members t => wideWrite g₁ false dst t (shuffleValue k f sa sb g₀ members t)) := by
  unfold shuffle shuffleValue
  congr 1
  funext g₀ g₁ members t
  obtain ⟨imm, seg⟩ := f
  cases imm <;> dsimp only [Option.getD]
  all_goals
    split
    · rename_i u hu
      by_cases hmem : u ∈ members <;> simp [hu, hmem, Option.filter, wideWrite]
    · rename_i hu
      simp [hu, wideWrite]

theorem shuffle_ranReg {f : ShflForm} {dst sa sb : Nat} (k : Shuffle)
    (h : issues s i ([dst, sa, sb] ++ pairRegs sc) [] gatherWait g act off) (hs : stays g i act off)
    (hall : ∀ u, u ∈ act → gathered g (memberMask g sc u) act = true) :
    ranReg (shuffle k i f dst sa sb sc s) i g act off false dst (fun u => shuffleValue k f sa sb g (liveMembers g sc u) u) := by
  rw [shuffle_eq]
  exact gatherOp_ranReg h hs hall rfl

/-- A match gives the mask of the members that hold the thread's value (04 R103). -/
theorem matchOp_ranReg {dst sa : Nat} {wide : Bool}
    (h : issues s i (pairRegs dst ++ wideRegs wide sa ++ pairRegs sc) [] gatherWait g act off) (hs : stays g i act off)
    (hall : ∀ u, u ∈ act → gathered g (memberMask g sc u) act = true) :
    ranReg (matchOp i wide dst sa sc s) i g act off true dst (fun u => maskOf ((liveMembers g sc u).filter
      (fun v => wideRead g wide sa v == wideRead g wide sa u))) := by
  refine gatherOp_ranReg (wide := true)
    (v := fun g members t => maskOf (members.filter (fun u => wideRead g wide sa u == wideRead g wide sa t))) h hs hall ?_
  simp only [wideRead_congr (g := g) (g' := atIssue s i g off) rfl]

end

end Sys2Proof.Machine

end

section

/-! O17, settled. -/

namespace Sys2Proof

open Machine in
/-- Settles O17: each instruction gathers its members and writes one destination. -/
theorem crossLaneAndVotes : Obligations.CrossLaneAndVotes := by
  intro i s g act off sc hpred hs hsc
  have hguard : guardOk i = true := by simpa [guardOk] using hpred
  refine ⟨fun hall => ⟨fun f dst sa sb hok h => ?_, fun dst pin inv hdst hpin h => ?_, fun dst pin inv hpairs hpin h => ?_,
    fun dst sa hsa hpairs h => ?_, fun dst sa hpairs h => ?_⟩, fun hnone f dst sa sb hok h => ?_⟩
  · exact ⟨⟨_, kernel_admitted hok _, shuffle_ranReg .idx h hs hall⟩, ⟨_, kernel_admitted hok _, shuffle_ranReg .up h hs hall⟩,
      ⟨_, kernel_admitted hok _, shuffle_ranReg .down h hs hall⟩, ⟨_, kernel_admitted hok _, shuffle_ranReg .xor h hs hall⟩⟩
  · have hok : voteOk s i dst pin sc = true := by simp [voteOk, hguard, hdst, hpin, hsc]
    exact ⟨⟨_, kernel_admitted hok _, gatherOp_ranPred (v := fun g members _ => members.all (voteIn g pin inv)) h hs hall rfl⟩,
      ⟨_, kernel_admitted hok _, gatherOp_ranPred (v := fun g members _ => members.any (voteIn g pin inv)) h hs hall rfl⟩⟩
  · exact ⟨_, kernel_admitted (by simp [hguard, hpin, hpairs]) _, gatherOp_ranReg (wide := true)
      (v := fun g members _ => maskOf (members.filter (voteIn g pin inv))) h hs hall rfl⟩
  · exact ⟨_, kernel_admitted (by simp [hguard, hsa, hpairs]) _, matchOp_ranReg (wide := false) h hs hall⟩
  · have hmatch := matchOp_ranReg (wide := true) h hs hall
    simp only [wideRead_true] at hmatch
    exact ⟨_, kernel_admitted (by simp [hguard, hpairs]) _, hmatch⟩
  · refine ⟨_, _, kernel_admitted hok _, groupOf_gatherOp_waits h hs hnone _, rfl, fun u hu => ⟨?_, ?_⟩⟩
    · simp [tfind_foldl_tset, hu]
    · exact ((atIssue_moved s i g off).1 u).trans (if_neg (issues_disjoint h u hu))

end Sys2Proof

end

section

/-! O19: the lanes of an atomic act one after another on their locations (04 R105, R106). -/

namespace Sys2Proof.Machine

/-- The cell of a location as a run has left it. -/
def cellAfter (op : AtomOp) (ty : AtomType) (init : Nat → Nat) (lanes : List AtomLane) (a : Nat) : AtomCell :=
  tget (atomRun op ty init lanes).1 a { prior := init a, now := init a }

section

variable {op : AtomOp} {ty : AtomType} (init : Nat → Nat) (lanes : List AtomLane) (l : AtomLane)

/-- One more lane, of an operation other than CAS. -/
theorem atomRun_snoc (hop : op ≠ .cas) : atomRun op ty init (lanes ++ [l]) =
    (tset (atomRun op ty init lanes).1 l.addr { cellAfter op ty init lanes l.addr with
        now := atomValue op ty (cellAfter op ty init lanes l.addr).now l.sb },
      (atomRun op ty init lanes).2.1 ++ [(l.thread, (cellAfter op ty init lanes l.addr).now)],
      (atomRun op ty init lanes).2.2) := by
  conv_lhs => rw [atomRun, List.foldl_append]
  exact if_neg hop

/-- A CAS wins where none has won before it on its location and its compare value is the prior value (04 R106). -/
def casWins (ty : AtomType) (init : Nat → Nat) (lanes : List AtomLane) (l : AtomLane) : Bool :=
  !(cellAfter .cas ty init lanes l.addr).won && decide (l.sb % 2 ^ (8 * atomBytes ty) = (cellAfter .cas ty init lanes l.addr).prior)

/-- One more lane of a CAS. -/
theorem atomRun_cas_snoc : atomRun .cas ty init (lanes ++ [l]) =
    (tset (atomRun .cas ty init lanes).1 l.addr (if casWins ty init lanes l then
        { cellAfter .cas ty init lanes l.addr with now := l.sc % 2 ^ (8 * atomBytes ty), won := true }
        else cellAfter .cas ty init lanes l.addr),
      (atomRun .cas ty init lanes).2.1 ++ [(l.thread, (cellAfter .cas ty init lanes l.addr).now)],
      if casWins ty init lanes l then (atomRun .cas ty init lanes).2.2 ++ [l.thread] else (atomRun .cas ty init lanes).2.2) := by
  conv_lhs => rw [atomRun, List.foldl_append]
  rfl

end

/-- A location ends with the values of its lanes, in order. -/
theorem cellAfter_now {op : AtomOp} (hop : op ≠ .cas) (ty : AtomType) (init : Nat → Nat) (lanes : List AtomLane) (a : Nat) :
    (cellAfter op ty init lanes a).now =
      (lanes.filter (fun l => l.addr == a)).foldl (fun v l => atomValue op ty v l.sb) (init a) := by
  induction lanes using List.reverseRecOn with
  | nil => rfl
  | append_singleton lanes l ih =>
    rw [cellAfter, atomRun_snoc init lanes l hop]
    by_cases ha : l.addr = a
    · subst ha
      simp [ih]
    · rw [tget_tset_other _ _ _ _ _ (Ne.symm ha), ← cellAfter, ih]
      simp [ha]

/-- Lane after lane, each thread receives what the lanes before it left. -/
theorem atomRun_olds {op : AtomOp} (hop : op ≠ .cas) (ty : AtomType) (init : Nat → Nat) (lanes : List AtomLane) :
    (atomRun op ty init lanes).2.1.length = lanes.length ∧ ∀ (pre post : List AtomLane) (l : AtomLane), lanes = pre ++ l :: post →
      (atomRun op ty init lanes).2.1[pre.length]? = some (l.thread, (cellAfter op ty init pre l.addr).now) := by
  induction lanes using List.reverseRecOn with
  | nil => exact ⟨rfl, fun pre post l h => by simp at h⟩
  | append_singleton lanes m ih =>
    obtain ⟨hlen, hval⟩ := ih
    rw [atomRun_snoc init lanes m hop]
    refine ⟨by simp [hlen], fun pre post l h => ?_⟩
    rcases List.eq_nil_or_concat post with rfl | ⟨post, n, rfl⟩
    · obtain ⟨rfl, heq⟩ := List.append_inj' h rfl
      cases heq
      simp [← hlen]
    · have hsplit : lanes ++ [m] = (pre ++ l :: post) ++ [n] := by simpa using h
      obtain ⟨rfl, -⟩ := List.append_inj' hsplit rfl
      have hlt : pre.length < (atomRun op ty init (pre ++ l :: post)).2.1.length := by simp [hlen]
      rw [List.getElem?_append_left hlt]
      exact hval pre post l rfl

/-- The first CAS of a location that compares with its prior value. -/
def casWinner (ty : AtomType) (init : Nat → Nat) (a : Nat) (lanes : List AtomLane) : Option AtomLane :=
  lanes.find? (fun l => l.sb % 2 ^ (8 * atomBytes ty) == init a)

/-- The CAS lanes of one location: the first that compares with the prior value wins, and no other does. -/
theorem atomRun_cas {ty : AtomType} {init : Nat → Nat} {a : Nat} (lanes : List AtomLane) (h : ∀ l, l ∈ lanes → l.addr = a) :
    (atomRun .cas ty init lanes).2.2 = ((casWinner ty init a lanes).map (fun l => l.thread)).toList ∧
    cellAfter .cas ty init lanes a = { prior := init a, won := (casWinner ty init a lanes).isSome
                                       now := ((casWinner ty init a lanes).map (fun l => l.sc % 2 ^ (8 * atomBytes ty))).getD (init a) } := by
  induction lanes using List.reverseRecOn with
  | nil => exact ⟨rfl, rfl⟩
  | append_singleton lanes l ih =>
    obtain ⟨hwins, hcell⟩ := ih (fun m hm => h m (by simp [hm]))
    obtain rfl : l.addr = a := h l (by simp)
    have hfind : casWinner ty init l.addr (lanes ++ [l]) = (casWinner ty init l.addr lanes).or
        (if l.sb % 2 ^ (8 * atomBytes ty) == init l.addr then some l else none) := by
      rw [casWinner, List.find?_append, ← casWinner, List.find?_singleton]
    rw [cellAfter, atomRun_cas_snoc, tget_tset_self, hfind, casWins, hcell, hwins]
    cases casWinner ty init l.addr lanes with
    | none => by_cases heq : l.sb % 2 ^ (8 * atomBytes ty) = init l.addr <;> simp [heq]
    | some m => simp

end Sys2Proof.Machine

end

section

/-! O19, settled. -/

namespace Sys2Proof

open Machine in
/-- Settles O19: by induction over the lanes, the last one apart. -/
theorem atomicsInLaneOrder : Obligations.AtomicsInLaneOrder := by
  refine ⟨fun op ty init lanes a hop => ⟨cellAfter_now hop ty init lanes a, fun pre post l h => ?_⟩,
    fun ty init lanes a h => ?_⟩
  · rw [(atomRun_olds hop ty init lanes).2 pre post l h, cellAfter_now hop]
  · obtain ⟨hwins, hcell⟩ := atomRun_cas lanes h
    exact ⟨hwins, congrArg AtomCell.now hcell⟩

end Sys2Proof

end

section

/-! O26: kernel forms that IMAGE_LOAD refuses stop with the fault of an undefined operation (04 R95). -/

namespace Sys2Proof.Machine

theorem kernel_refused {ok : Bool} (h : ok = false) (t : State) : kernel ok t = .fault .undefinedOperation := by
  subst h
  rfl

theorem regsOk_out_of_range {n r : Nat} (hr : r ≠ vz) (hn : n ≤ r) (l : List Nat) : regsOk n (r :: l) = false := by
  simp [regsOk, hr, hn]

theorem pairsOk_odd {n r : Nat} (hr : r ≠ vz) (hodd : r % 2 = 1) (l : List Nat) : pairsOk n (r :: l) = false := by
  simp [pairsOk, hr, hodd]

theorem matrixGuard_predicated {i : Issue} (h : i.pred ≠ 7) : matrixGuard i = false := by
  simp [matrixGuard, pt, h]

/-- An atomic that Table 4-7 does not define. -/
theorem atomInstr_undefined {op : AtomOp} {f : AtomForm} (h : atomDefined op f.atype = false) (i : Issue)
    (dst sa sb sc : Nat) (s : State) : atomInstr op i f dst sa sb sc s = .fault .undefinedOperation :=
  kernel_refused (by simp [h]) _

end Sys2Proof.Machine

end

section

/-! O26, settled. -/

namespace Sys2Proof

open Machine in
/-- Settles O26: the form of each instruction is checked before its issue. -/
theorem refusedFormsFault : Obligations.RefusedFormsFault := by
  intro i s
  refine ⟨fun dst sa hdst hn => kernel_refused ?_ _, fun op f dst sa sb sc h => ?_, fun scope => kernel_refused ?_ _,
    fun hpred => ?_, fun f dst sa hodd hsa => kernel_refused ?_ _⟩
  · rw [regsOk_out_of_range hdst hn, Bool.and_false]
  · cases op <;> exact atomInstr_undefined h ..
  · simp
  · exact ⟨kernel_refused (matrixGuard_predicated hpred) _, kernel_refused (matrixGuard_predicated hpred) _⟩
  · simp [pairsOk_odd hsa hodd]

end Sys2Proof

end

section

/-! O23: fences, and releases that home acknowledges (04 R111, R112; 07 R200, R201). -/

namespace Sys2Proof.Machine

section

variable {s : State} {i : Issue} {g : Group} {act off : List Nat}

/-- A FENCE acts for the threads of its issue, behind the release that its ORDER asks for. -/
theorem execFence_eq {scope : Scope} {order : Order} (hpred : i.pred < 8) (horder : order ≠ .relaxed)
    (h : issues s i [acquireReg] [] noWait g act off) (hs : stays g i act off) :
    execFence i scope order s = .next (released (passed s i g off) i act (releaseScope order scope)
      (fun s act => advance (acquireOpt s i.core (acquireScope order scope)) i act)) := by
  unfold execFence
  rw [issue_eq h hs.2]
  exact kernel_admitted (by simp [guardOk, hpred, horder]) _

theorem doneRelease_passed (h : groupOf s i.core i.group = some g) (hoff : leavesRegion g off (fun _ => i.pc + 1) = false)
    (gi : Nat) (ts : List Nat) :
    doneRelease (coreOf (passed s i g off) i.core) gi ts = doneRelease (coreOf s i.core) gi ts := by
  unfold doneRelease
  simp [passed_eq h hoff]

variable {op : State → List Nat → State}

/-- A release at a scope of the core or narrower has nothing to make visible (04 R112). -/
theorem released_narrow {scope : Scope} (h : doneRelease (coreOf s i.core) i.group act = none)
    (hscope : scope = .thread ∨ scope = .group ∨ scope = .core) : released s i act (some scope) op = op s act := by
  unfold released
  rcases hscope with rfl | rfl | rfl <;> simp only [h]

theorem released_cellar (h : doneRelease (coreOf s i.core) i.group act = none) :
    released s i act (some .cellar) op = op (releaseCellar s i.core) act := by
  unfold released
  simp only [h]

/-- A release at a wide scope begins a walk (07 R200); home owes no acknowledgement. -/
theorem released_wide_now {scope : Scope} (h : doneRelease (coreOf s i.core) i.group act = none)
    (hscope : scope = .device ∨ scope = .system) (hnow : (beginRelease s i.core i.group act scope).2 = none) :
    released s i act (some scope) op = op (beginRelease s i.core i.group act scope).1 act := by
  unfold released
  rcases hscope with rfl | rfl <;> simp only [h]
  all_goals
    generalize beginRelease s i.core i.group act _ = b at hnow ⊢
    obtain ⟨t, o⟩ := b
    obtain rfl : o = none := hnow
    rfl

/-- Home owes acknowledgements, and the threads wait for them. -/
theorem released_wide_waits {scope : Scope} {n : Nat} (h : doneRelease (coreOf s i.core) i.group act = none)
    (hscope : scope = .device ∨ scope = .system) (hid : (beginRelease s i.core i.group act scope).2 = some n) :
    released s i act (some scope) op =
      setWaits (beginRelease s i.core i.group act scope).1 i.core i.group act (fun _ => .release n) := by
  unfold released
  rcases hscope with rfl | rfl <;> simp only [h]
  all_goals
    generalize beginRelease s i.core i.group act _ = b at hid ⊢
    obtain ⟨t, o⟩ := b
    obtain rfl : o = some n := hid
    rfl

end

/-! ### Acknowledged releases -/

/-- Home has acknowledged every write-back of a release. -/
theorem execReleaseWritebackAcked_acked {core n : Nat} {s : State} {r : Release}
    (hr : tfind (coreOf s core).releases n = some r) (hdone : r.done = false)
    (hacked : ∀ m x, m ∈ r.txns → txnOf s m = some x → x.phase = .done) :
    execReleaseWritebackAcked core n s = .next (modGroup
      (modCore s core (fun c => { c with releases := tset c.releases n { r with done := true } })) core r.group
      (fun g => { g with waits := g.waits.filter (fun e => e.2 != .release n) })) := by
  unfold execReleaseWritebackAcked
  simp only [hr]
  refine if_neg ?_
  rintro (hd | hany)
  · simp [hdone] at hd
  · obtain ⟨m, hm, hopen⟩ := List.any_eq_true.mp hany
    split at hopen
    · rename_i x hx
      simp [hacked m x hm hx] at hopen
    · simp at hopen

/-- Nobody waits any longer for what a filter took out. -/
theorem tfind_filter_ne {w : Wait} (t : Tab Wait) (u : Nat) : tfind (t.filter (fun e => e.2 != w)) u ≠ some w := by
  induction t with
  | nil => simp
  | cons e r ih =>
    obtain ⟨j, x⟩ := e
    by_cases hx : x = w
    · simpa [hx] using ih
    · by_cases hj : j = u
      · simp [hx, tfind, hj]
      · simpa [hx, tfind, hj] using ih

end Sys2Proof.Machine

end

section

/-! O23, settled. -/

namespace Sys2Proof

open Machine in
/-- Settles O23: a fence by its release and its acquire, the acknowledgement by the release that it ends. -/
theorem fencesAndReleases : Obligations.FencesAndReleases := by
  refine ⟨fun i scope s g act off hpred hs h hdone => ?_, fun core n s r g hr hdone hg hacked => ?_⟩
  · have hfence := fun (order : Order) (ho : order ≠ .relaxed) => execFence_eq (scope := scope) hpred ho h hs
    have hnone : doneRelease (coreOf (passed s i g off) i.core) i.group act = none := by
      rw [doneRelease_passed h.1 hs.2, hdone]
    have hrelease := hfence .release (by simp)
    refine ⟨⟨_, hfence .acquire (by simp), rfl⟩, fun hscope => ⟨_, hrelease, ?_⟩, fun hscope => ⟨_, hrelease, ?_⟩,
      fun hscope => ⟨_, hrelease, fun hnow => ?_, fun id hid => ?_⟩⟩
    · exact released_narrow hnone hscope
    · subst hscope
      exact released_cellar hnone
    · exact released_wide_now hnone hscope hnow
    · exact released_wide_waits hnone hscope hid
  · have hg' : groupOf (modCore s core (fun c => { c with releases := tset c.releases n { r with done := true } })) core r.group
        = some g := by
      rw [groupOf_modCore]
      exacts [hg, fun _ => rfl]
    refine ⟨_, { g with waits := g.waits.filter (fun e => e.2 != .release n) },
      execReleaseWritebackAcked_acked hr hdone hacked, ?_, ?_, rfl, tfind_filter_ne g.waits⟩
    · simp
    · rw [groupOf_modGroup_self, hg', Option.map_some]

end Sys2Proof

end

section

/-! O24 and O25: matrix regions, and the instructions that a region's threads execute once together (04 R116–R118; 05 R128,
R139–R145). -/

namespace Sys2Proof.Machine

/-! ### Changes of a core that its threads do not see -/

/-- The change leaves the core's groups, its step, and whether it issues. -/
structure keepsThreads (f : Core → Core) : Prop where
  groups : ∀ c, (f c).groups = c.groups
  step : ∀ c, (f c).step = c.step
  stopped : ∀ c, (f c).stopped = c.stopped
  saving : ∀ c, (f c).saving = c.saving
  resetting : ∀ c, (f c).resetting = c.resetting

/-- A core that issues goes on issuing where its step and its stops are as they were. -/
theorem coreIssues_modCore {f : Core → Core} (hf : ∀ c, (f c).step = c.step ∧ (f c).stopped = c.stopped ∧
    (f c).saving = c.saving ∧ (f c).resetting = c.resetting) (s : State) (k j : Nat) :
    coreIssues (modCore s k f) j = coreIssues s j := by
  have hcore : (coreOf (modCore s k f) j).step = (coreOf s j).step ∧ (coreOf (modCore s k f) j).stopped = (coreOf s j).stopped ∧
      (coreOf (modCore s k f) j).saving = (coreOf s j).saving ∧ (coreOf (modCore s k f) j).resetting = (coreOf s j).resetting := by
    by_cases hj : j = k
    · subst hj; simp [hf]
    · simp [hj]
  obtain ⟨hstep, hstopped, hsaving, hresetting⟩ := hcore
  have hcoreStep : coreStep (modCore s k f) j = coreStep s j := by
    simp only [coreStep, hstep]
    rfl
  simp only [coreIssues, hstopped, hsaving, hresetting, hcoreStep]
  rfl

theorem keepsThreads.coreIssues {f : Core → Core} (h : keepsThreads f) (s : State) (k j : Nat) :
    coreIssues (modCore s k f) j = coreIssues s j :=
  coreIssues_modCore (fun c => ⟨h.step c, h.stopped c, h.saving c, h.resetting c⟩) s k j

theorem coreIssues_modGroup (s : State) (k gi : Nat) (f : Group → Group) (j : Nat) :
    coreIssues (modGroup s k gi f) j = coreIssues s j :=
  coreIssues_modCore (f := fun c => { c with groups := tmodIf c.groups gi f }) (fun _ => ⟨rfl, rfl, rfl, rfl⟩) s k j

/-! ### Instructions of the whole entry mask -/

section

variable {s : State} {i : Issue} {g : Group} {act : List Nat} {regs : List Nat}

/-- Nobody passes by an instruction under PT. -/
theorem leavesRegion_nil (g : Group) (p : Nat → Nat) : leavesRegion g [] p = false := by
  unfold leavesRegion
  split <;> rfl

/-- The threads of an issue are the bits of the mask that has just them. -/
theorem issues_act_eq {preds : List Nat} {also : Wait → Bool} {off : List Nat} {m : Nat}
    (h : issues s i regs preds also g act off) (hm : ∀ u, u < 64 → (u ∈ act ↔ bitAt m u = true)) : maskBits m 64 = act := by
  obtain ⟨-, -, -, -, rfl, -⟩ := h
  simp only [subsetAt, liveThreads, List.filter_filter, maskBits] at hm ⊢
  refine List.filter_congr fun u hu => ?_
  rw [Bool.eq_iff_iff, ← hm u (List.mem_range.mp hu), List.mem_filter]
  simp [List.mem_range.mp hu]

/-- With the whole entry mask there, a matrix instruction acts once, with its lowest thread, and the threads go on. -/
theorem matrixOp_eq (h : issues s i regs [] matrixWait g act []) (hr : regionReady g act) (op : State → Group → Nat → State)
    (hgo : coreIssues (op (passed s i g []) (atIssue s i g []) (act.headD 0)) i.core = true) :
    matrixOp s i regs op = advance (op (passed s i g []) (atIssue s i g []) (act.headD 0)) i act := by
  obtain ⟨r, hregion, -, hmask⟩ := hr
  have hbits := issues_act_eq h hmask
  obtain ⟨-, hlt, -, -⟩ := issues_act h
  have hregion' : (atIssue s i g []).region = some r := hregion
  have hin : act.any (fun t => !bitAt r.entry t) = false := by
    rw [List.any_eq_false]
    exact fun u hu => by simp [(hmask u (hlt u hu)).mp hu]
  have hall : act.all (fun t => act.contains t) = true := by simp
  rw [matrixOp, issue_eq h (leavesRegion_nil ..)]
  simp only [hregion', hin, hbits, hall, hgo, Bool.false_eq_true, if_false, if_true]

theorem coreIssues_passed (h : issues s i regs [] matrixWait g act []) : coreIssues (passed s i g []) i.core = true := by
  rw [passed_eq h.1 (leavesRegion_nil ..), coreIssues_modGroup]
  exact h.2.1

theorem moved_all {g₂ : Group} (hs : standsAs (atIssue s i g []) g₂ act) :
    moved g (wentOn g₂ act (fun _ => i.pc + 1)) act (fun _ => i.pc + 1) := by
  have h := moved_next hs
  rwa [List.append_nil] at h

/-- The core as the body of an issue finds it. -/
theorem coreOf_passed {off : List Nat} (h : groupOf s i.core i.group = some g)
    (hoff : leavesRegion g off (fun _ => i.pc + 1) = false) : coreOf (passed s i g off) i.core =
      { coreOf s i.core with groups := (coreOf (passed s i g off) i.core).groups } := by
  rw [passed_eq h hoff]
  exact coreOf_modGroup ..

theorem coreOf_advance {t : State} {g₂ : Group} {ts : List Nat} (ht : groupOf t i.core i.group = some g₂)
    (hstay : leavesRegion g₂ ts (fun _ => i.pc + 1) = false) : coreOf (advance t i ts) i.core =
      { coreOf t i.core with groups := (coreOf (advance t i ts) i.core).groups } := by
  rw [advance, moveThreads_eq ht hstay]
  exact coreOf_modGroup ..

/-- A matrix instruction that changes its core and no thread: the threads go on, and the core has changed. -/
theorem matrixOp_modCore {f : Core → Core} (hf : keepsThreads f) (h : issues s i regs [] matrixWait g act [])
    (hr : regionReady g act) (hs : stays g i act []) {op : State → Group → Nat → State}
    (hop : op (passed s i g []) (atIssue s i g []) (act.headD 0) = modCore (passed s i g []) i.core f) :
    groupOf (matrixOp s i regs op) i.core i.group = some (wentOn (atIssue s i g []) act (fun _ => i.pc + 1)) ∧
      moved g (wentOn (atIssue s i g []) act (fun _ => i.pc + 1)) act (fun _ => i.pc + 1) ∧
      coreOf (matrixOp s i regs op) i.core = { f (coreOf (passed s i g []) i.core) with
        groups := (coreOf (matrixOp s i regs op) i.core).groups } := by
  have hg : groupOf (modCore (passed s i g []) i.core f) i.core i.group = some (atIssue s i g []) := by
    rw [groupOf_modCore hf.groups, groupOf_passed h.1 hs.2]
  have heq : matrixOp s i regs op = advance (modCore (passed s i g []) i.core f) i act := by
    rw [matrixOp_eq h hr, hop]
    rw [hop, hf.coreIssues, coreIssues_passed h]
  rw [heq]
  refine ⟨groupOf_advance hg rfl hs, moved_all (.of_fields rfl rfl rfl), ?_⟩
  rw [← coreOf_modCore_self (f := f)]
  exact coreOf_advance hg hs.1

end

/-! ### Entering a region -/

/-- A core whose accumulator store a group takes (04 R116). -/
def claimed (gi : Nat) (c : Core) : Core :=
  { c with tileOwner := some gi, regionQueue := c.regionQueue.filter (· != gi) }

/-- A core at which a group waits its turn for the accumulator store. -/
def queued (gi : Nat) (c : Core) : Core :=
  { c with regionQueue := if c.regionQueue.contains gi then c.regionQueue else c.regionQueue ++ [gi] }

/-- The region that MREGION.BEGIN begins for its members. -/
def regionFrom (i : Issue) (endOffset : Nat) (members : List Nat) : MRegion :=
  { first := i.pc, last := i.pc + endOffset, entry := maskOf members }

section

variable {s : State} {i : Issue} {g : Group} {act : List Nat} {sc off : Nat}

theorem memberMask_atIssue {off : List Nat} : memberMask (atIssue s i g off) sc = memberMask g sc := rfl

/-- The members that have gathered are the threads of the issue. -/
theorem mem_liveMembers_iff (hall : ∀ u, u ∈ act → memberMask g sc u = memberMask g sc (act.headD 0) ∧
      gathered g (memberMask g sc u) act = true ∧ u ∈ liveMembers g sc u) (hne : act ≠ []) (u : Nat) :
    u ∈ liveMembers g sc (act.headD 0) ↔ u ∈ act := by
  have hhead : act.headD 0 ∈ act := by
    cases act with
    | nil => exact absurd rfl hne
    | cons a l => exact List.mem_cons_self
  constructor
  · intro hu
    obtain ⟨hbit, hlive⟩ := List.mem_filter.mp hu
    have hcome := List.all_eq_true.mp (hall _ hhead).2.1 u hbit
    simpa [show bitAt g.exited u = false by simpa using hlive] using hcome
  · intro hu
    obtain ⟨hmask, -, hmem⟩ := hall u hu
    rwa [liveMembers, hmask] at hmem

theorem find_gathered (hall : ∀ u, u ∈ act → memberMask g sc u = memberMask g sc (act.headD 0) ∧
      gathered g (memberMask g sc u) act = true ∧ u ∈ liveMembers g sc u) (hne : act ≠ []) :
    act.find? (fun t => gathered (atIssue s i g []) (memberMask (atIssue s i g []) sc t) act) = some (act.headD 0) := by
  cases act with
  | nil => exact absurd rfl hne
  | cons a l => exact List.find?_cons_of_pos (hall a List.mem_cons_self).2.1

variable (hguard : matrixGuard i = true) (hsc : pairsOk (declaredRegs s i.core) [sc] = true) (hoff : 1 ≤ off)
  (hoff' : off < 2 ^ 18) (hregion : g.region = none) (h : issues s i (pairRegs sc) [] beginWait g act [])
  (hall : ∀ u, u ∈ act → memberMask g sc u = memberMask g sc (act.headD 0) ∧
    gathered g (memberMask g sc u) act = true ∧ u ∈ liveMembers g sc u)
  (hqueue : (coreOf s i.core).regionQueue = [])
include hguard hsc hoff hoff' hregion h hall hqueue

/-- The members have gathered and the accumulator store is free: the group takes it, and its region begins (04 R116). -/
theorem execMregionBegin_free (hfree : (coreOf s i.core).tileOwner = none) :
    execMregionBegin i sc off s = .next (advance (setWaits (modGroup (modCore (passed s i g []) i.core (claimed i.group))
      i.core i.group (fun x => { x with region := some (regionFrom i off (liveMembers g sc (act.headD 0))) }))
      i.core i.group [] (fun t => .regionBegin (memberMask g sc t))) i (liveMembers g sc (act.headD 0))) := by
  obtain ⟨-, -, -, hne, -⟩ := id h
  have hregion' : (atIssue s i g []).region = none := hregion
  have hmembers : (maskBits (memberMask (atIssue s i g []) sc (act.headD 0)) 64).filter
      (fun u => !bitAt (atIssue s i g []).exited u) = liveMembers g sc (act.headD 0) := rfl
  have hcore : (coreOf (passed s i g []) i.core).tileOwner = none ∧ (coreOf (passed s i g []) i.core).regionQueue = [] := by
    rw [coreOf_passed h.1 (leavesRegion_nil ..)]
    exact ⟨hfree, hqueue⟩
  have hrest : act.filter (fun t => !(liveMembers g sc (act.headD 0)).contains t) = [] :=
    List.filter_eq_nil_iff.mpr (fun u hu => by simpa using (mem_liveMembers_iff hall hne u).mpr hu)
  unfold execMregionBegin
  rw [issue_eq h (leavesRegion_nil ..)]
  simp only [hregion', find_gathered hall hne, hmembers, hcore, hrest, Bool.false_eq_true, if_false, Option.isNone_none,
    Bool.and_true, if_true]
  rw [kernel_admitted (by simp only [hguard, hsc, hoff, hoff', decide_true, Bool.and_true]), memberMask_atIssue]
  rfl

/-- Another group holds the accumulator store: the group queues, and its threads wait (04 R116). -/
theorem execMregionBegin_held {o : Nat} (hheld : (coreOf s i.core).tileOwner = some o) :
    execMregionBegin i sc off s = .next (setWaits (modCore (passed s i g []) i.core (queued i.group)) i.core i.group act
      (fun t => .regionBegin (memberMask g sc t))) := by
  obtain ⟨-, -, -, hne, -⟩ := id h
  have hregion' : (atIssue s i g []).region = none := hregion
  have hcore : (coreOf (passed s i g []) i.core).tileOwner = some o ∧ (coreOf (passed s i g []) i.core).regionQueue = [] := by
    rw [coreOf_passed h.1 (leavesRegion_nil ..)]
    exact ⟨hheld, hqueue⟩
  unfold execMregionBegin
  rw [issue_eq h (leavesRegion_nil ..)]
  simp only [hregion', find_gathered hall hne, hcore, Bool.false_eq_true, if_false, Option.isNone_some, Bool.false_and]
  rw [kernel_admitted (by simp only [hguard, hsc, hoff, hoff', decide_true, Bool.and_true]), memberMask_atIssue]
  rfl

/-- A region begins for the threads of the issue, which go on (04 R116). -/
theorem mregionBegin_begins (hfree : (coreOf s i.core).tileOwner = none) :
    ∃ t g', execMregionBegin i sc off s = .next t ∧ (coreOf t i.core).tileOwner = some i.group ∧
      groupOf t i.core i.group = some g' ∧ g'.regs = g.regs ∧
      g'.region = some (regionFrom i off (liveMembers g sc (act.headD 0))) ∧ moved g g' act (fun _ => i.pc + 1) := by
  obtain ⟨-, -, -, hne, -⟩ := id h
  have hbegin := execMregionBegin_free hguard hsc hoff hoff' hregion h hall hqueue hfree
  generalize hregionEq : regionFrom i off (liveMembers g sc (act.headD 0)) = r at hbegin ⊢
  have hclaim : groupOf (modCore (passed s i g []) i.core (claimed i.group)) i.core i.group = some (atIssue s i g []) := by
    rw [groupOf_modCore (f := claimed i.group) (fun _ => rfl), groupOf_passed h.1 (leavesRegion_nil ..)]
  have hwait := groupOf_setWaits (t := modGroup (modCore (passed s i g []) i.core (claimed i.group)) i.core i.group
    (fun g => { g with region := some r })) (g₁ := { atIssue s i g [] with region := some r })
    (by rw [groupOf_modGroup_self, hclaim]; rfl) [] (fun t => .regionBegin (memberMask g sc t))
  have hstay : leavesRegion { atIssue s i g [] with region := some r } (liveMembers g sc (act.headD 0)) (fun _ => i.pc + 1) = false := by
    subst hregionEq
    simp only [leavesRegion, regionFrom, List.any_eq_false]
    intro u _
    simp
    omega
  have hmem := mem_liveMembers_iff hall hne
  refine ⟨_, _, hbegin, ?_, groupOf_moveThreads hwait hstay, rfl, rfl, ?_⟩
  · rw [coreOf_advance hwait hstay, setWaits]
    simp [claimed]
  · refine ((atIssue_moved s i g []).wentOn (g₂ := { atIssue s i g [] with region := some r }) (.of_fields rfl rfl rfl)).congr
      (fun u => ?_) (fun u hu => ?_)
    · rw [List.append_nil, hmem]
    · rw [if_pos ((hmem u).mpr hu)]

/-- A group that finds the accumulator store held queues, and its threads wait (04 R116). -/
theorem mregionBegin_queues {o : Nat} (hheld : (coreOf s i.core).tileOwner = some o) :
    ∃ t g', execMregionBegin i sc off s = .next t ∧ (coreOf t i.core).regionQueue = [i.group] ∧
      (coreOf t i.core).tileOwner = some o ∧ groupOf t i.core i.group = some g' ∧ g'.region = none ∧
      ∀ u, u ∈ act → tfind g'.waits u = some (.regionBegin (memberMask g sc u)) ∧ threadPc g' u = threadPc g u := by
  have hqueues := execMregionBegin_held hguard hsc hoff hoff' hregion h hall hqueue hheld
  have hgroup : groupOf (modCore (passed s i g []) i.core (queued i.group)) i.core i.group = some (atIssue s i g []) := by
    rw [groupOf_modCore (f := queued i.group) (fun _ => rfl), groupOf_passed h.1 (leavesRegion_nil ..)]
  have hcore : (coreOf (passed s i g []) i.core).regionQueue = [] ∧ (coreOf (passed s i g []) i.core).tileOwner = some o := by
    rw [coreOf_passed h.1 (leavesRegion_nil ..)]
    exact ⟨hqueue, hheld⟩
  refine ⟨_, _, hqueues, ?_, ?_, groupOf_setWaits hgroup .., hregion, fun u hu => ⟨?_, (atIssue_moved s i g []).1 u⟩⟩
  · simp [setWaits, queued, hcore]
  · simp [setWaits, queued, hcore]
  · simp [tfind_foldl_tset, hu]

end

end Sys2Proof.Machine

end

section

/-! O24, settled. -/

namespace Sys2Proof.Machine

section

variable {s : State} {i : Issue} {g : Group} {act : List Nat}

/-- A change of the accumulator store alone. -/
theorem keepsThreads_tile (f : Core → Tile) : keepsThreads (fun c => { c with tile := f c }) :=
  ⟨fun _ => rfl, fun _ => rfl, fun _ => rfl, fun _ => rfl, fun _ => rfl⟩

/-- A core whose accumulator store no group holds. -/
def unclaimed (c : Core) : Core := { c with tileOwner := none }

/-- The whole entry mask leaves its region, and the accumulator store is free (04 R117). -/
theorem mregionEnd_ends (hguard : matrixGuard i = true) (hr : regionReady g act) (hs : stays g i act [])
    (h : issues s i [] [] matrixWait g act []) :
    ∃ t g', execMregionEnd i s = .next t ∧ (coreOf t i.core).tileOwner = none ∧ groupOf t i.core i.group = some g' ∧
      g'.region = none ∧ g'.regs = g.regs ∧ moved g g' act (fun _ => i.pc + 1) := by
  have hfree : groupOf (modCore (passed s i g []) i.core unclaimed) i.core i.group = some (atIssue s i g []) := by
    rw [groupOf_modCore (f := unclaimed) (fun _ => rfl), groupOf_passed h.1 hs.2]
  have hleft : groupOf (modGroup (modCore (passed s i g []) i.core unclaimed) i.core i.group
      (fun g => { g with region := none })) i.core i.group = some { atIssue s i g [] with region := none } := by
    rw [groupOf_modGroup_self, hfree, Option.map_some]
  have hgo : coreIssues (modGroup (modCore (passed s i g []) i.core unclaimed) i.core i.group
      (fun g => { g with region := none })) i.core = true := by
    rw [coreIssues_modGroup, coreIssues_modCore (f := unclaimed) (fun _ => ⟨rfl, rfl, rfl, rfl⟩), coreIssues_passed h]
  have hend := matrixOp_eq (op := fun s _ _ => modGroup (modCore s i.core unclaimed) i.core i.group
    (fun g => { g with region := none })) h hr hgo
  refine ⟨_, wentOn { atIssue s i g [] with region := none } act (fun _ => i.pc + 1), kernel_admitted hguard _, ?_, ?_, rfl,
    rfl, moved_all (.of_fields rfl rfl rfl)⟩
  · refine (congrArg (fun t => (coreOf t i.core).tileOwner) hend).trans ?_
    rw [coreOf_advance hleft rfl]
    simp [unclaimed]
  · exact (congrArg (fun t => groupOf t i.core i.group) hend).trans (groupOf_moveThreads hleft rfl)

end

end Sys2Proof.Machine

namespace Sys2Proof

open Machine in
/-- Settles O24: a region begins or its group queues, and its instructions change the core once. -/
theorem matrixRegions : Obligations.MatrixRegions := by
  intro i s g act hpred hneg
  have hguard : matrixGuard i = true := by simp [matrixGuard, pt, hpred, hneg]
  refine ⟨fun sc off hsc hoff hoff' hregion h hall => ⟨fun hfree hqueue => ?_, fun o hheld hqueue => ?_⟩, fun hr hs =>
    ⟨fun h => ⟨mregionEnd_ends hguard hr hs h, ?_⟩, fun sa auto hsa h => ?_⟩⟩
  · exact mregionBegin_begins hguard hsc hoff hoff' hregion h hall hqueue hfree
  · exact mregionBegin_queues hguard hsc hoff hoff' hregion h hall hqueue hheld
  · obtain ⟨hgroup, hmoved, hcore⟩ := matrixOp_modCore (op := fun s _ _ => modCore s i.core (fun c => { c with tile := mzero c.tile }))
      (keepsThreads_tile (fun c => mzero c.tile)) h hr hs rfl
    refine ⟨_, _, kernel_admitted hguard _, ?_, hgroup, rfl, hmoved⟩
    rw [hcore, coreOf_passed h.1 hs.2]
  · obtain ⟨hgroup, hmoved, hcore⟩ := matrixOp_modCore
      (op := fun s g t => modCore s i.core (fun c => { c with tile := anchorTile c.tile auto (regRead g sa t) }))
      (keepsThreads_tile (fun c => anchorTile c.tile auto (regRead g sa (act.headD 0)))) h hr hs rfl
    refine ⟨_, _, kernel_admitted (by simp [hguard, hsa]) _, ?_, hgroup, rfl, hmoved⟩
    rw [hcore, coreOf_passed h.1 hs.2]

end Sys2Proof

end

section

/-! O25: matrix arithmetic and exports on operands in the core's scratch (04 R117; 05 R128, R142, R145, R147). -/

namespace Sys2Proof.Machine

/-- A core after a tile operation: the flags that it sets join the summary (05 R147). -/
def tileRan (f : Tile → Tile) (c : Core) : Core :=
  let t' := f { c.tile with inexact := false, overflow := false, invalid := false, t2Bad := false, mixed := false }
  { c with
    flags := Nat.lor c.flags (tileFlags t')
    tile := { t' with inexact := t'.inexact || c.tile.inexact, overflow := t'.overflow || c.tile.overflow
                      invalid := t'.invalid || c.tile.invalid, t2Bad := t'.t2Bad || c.tile.t2Bad
                      mixed := t'.mixed || c.tile.mixed } }

theorem onTile_eq (s : State) (k : Nat) (f : Tile → Tile) : onTile s k f = modCore s k (tileRan f) := rfl

theorem tileRan_keepsThreads (f : Tile → Tile) : keepsThreads (tileRan f) :=
  ⟨fun _ => rfl, fun _ => rfl, fun _ => rfl, fun _ => rfl, fun _ => rfl⟩

section

variable {s : State} {i : Issue} {g : Group} {act : List Nat} {regs : List Nat} {u : Nat}

theorem headD_of_head? (h : act.head? = some u) : act.headD 0 = u := by
  rw [List.headD_eq_head?_getD, h, Option.getD_some]

/-- A core that has the scratch of another reads the same bytes. -/
theorem scratchByte_congr {c c' : Core} (h : c'.scratch = c.scratch) (hs : c'.stamp = c.stamp) : scratchByte c' = scratchByte c := by
  funext off
  simp only [scratchByte, h, hs]

/-- What an MMA does where its operands lie in the scratch, the reserved area is zero and it meets no poison. -/
def mmaReady (s : State) (k : Nat) (f : MmaForm) (pa pb md : Nat) : Prop :=
  (∀ r, r ∈ mmaRanges f pa pb md → r.1 + r.2 ≤ scratchBytes s k) ∧
  (f.zskip = true → ∀ j, j < 248 → scratchByte (coreOf s k) (md + 8 + j) = 0) ∧
  scratchPoisoned (coreOf s k) (mmaMeets f (mmaOperands (fun off => (scratchByte (coreOf s k) off).toNat) f pa pb md) pa pb md)
    = false

theorem mmaReady_checks {k : Nat} {f : MmaForm} {pa pb md : Nat} (h : mmaReady s k f pa pb md) :
    ¬ ((mmaRanges f pa pb md).any (fun r => scratchBytes s k < r.1 + r.2) = true ∨
      (f.zskip && (List.range 248).any (fun j => (scratchByte (coreOf s k) (md + 8 + j)).toNat != 0)) = true) := by
  obtain ⟨hranges, hzero, -⟩ := h
  rintro (hany | hany)
  · obtain ⟨r, hr, hlt⟩ := List.any_eq_true.mp hany
    exact absurd (hranges r hr) (by simpa using hlt)
  · obtain ⟨hskip, hany⟩ := Bool.and_eq_true_iff.mp hany
    obtain ⟨j, hj, hne⟩ := List.any_eq_true.mp hany
    simp [hzero hskip j (List.mem_range.mp hj)] at hne

theorem mmaReady_passed (hg : groupOf s i.core i.group = some g) {f : MmaForm} {pa pb md : Nat} (h : mmaReady s i.core f pa pb md) :
    mmaReady (passed s i g []) i.core f pa pb md := by
  unfold mmaReady scratchBytes at h ⊢
  rw [coreOf_passed hg (leavesRegion_nil ..)]
  exact h

theorem scratchByte_passed (hg : groupOf s i.core i.group = some g) :
    scratchByte (coreOf (passed s i g []) i.core) = scratchByte (coreOf s i.core) := by
  rw [coreOf_passed hg (leavesRegion_nil ..)]
  exact scratchByte_congr rfl rfl

theorem scratchBytes_passed (hg : groupOf s i.core i.group = some g) :
    scratchBytes (passed s i g []) i.core = scratchBytes s i.core := by
  rw [scratchBytes, coreOf_passed hg (leavesRegion_nil ..), scratchBytes]

theorem roundSeedOf_passed (hg : groupOf s i.core i.group = some g) :
    roundSeedOf (passed s i g []) i.core = roundSeedOf s i.core := by
  unfold roundSeedOf
  rw [passed_eq hg (leavesRegion_nil ..), coreStep_modGroup]

/-- A core after a store into its scratch (07 R192). -/
def scratchStored (base : Nat) (b : Tab Byte) (c : Core) : Core :=
  { c with
    scratch := b.foldl (fun t (x : Nat × Byte) => tset t (base + x.1) x.2) c.scratch
    scratchPoison := c.scratchPoison.filter (fun u =>
      !(decide (base ≤ u * 32) && (List.range 32).all (fun j => (tfind b (u * 32 + j - base)).isSome))) }

theorem scratchStore_eq (s : State) (k base : Nat) (b : Tab Byte) : scratchStore s k base b = modCore s k (scratchStored base b) := rfl

/-- A core after an export: its scratch holds the bytes, and an export out of range is noted (05 R144, R147). -/
def exported (off : Nat) (b : Bytes) (range : Bool) (c : Core) : Core :=
  let c := scratchStored off (b.zipIdx.map (fun e => (e.2, e.1))) c
  { c with flags := if range then setBit c.flags 5 else c.flags }

theorem exported_tile (off : Nat) (b : Bytes) (range : Bool) (c : Core) : (exported off b range c).tile = c.tile := rfl

theorem exported_scratch (off : Nat) (b : Bytes) (range : Bool) (c : Core) :
    (exported off b range c).scratch = (scratchStored off (b.zipIdx.map (fun e => (e.2, e.1))) c).scratch := rfl

theorem scratchStored_congr {c c' : Core} (h : c'.scratch = c.scratch) (base : Nat) (b : Tab Byte) :
    (scratchStored base b c').scratch = (scratchStored base b c).scratch := by
  simp only [scratchStored, h]

theorem exported_keepsThreads (off : Nat) (b : Bytes) (range : Bool) : keepsThreads (exported off b range) :=
  ⟨fun _ => rfl, fun _ => rfl, fun _ => rfl, fun _ => rfl, fun _ => rfl⟩

theorem exportTo_eq {off : Nat} {b : Bytes} (h : off + b.length ≤ scratchBytes s i.core) (range : Bool) :
    exportTo s i off b range = modCore s i.core (exported off b range) := by
  unfold exportTo
  rw [if_neg (Nat.not_lt.mpr h), scratchStore_eq]
  cases range with
  | false => rfl
  | true => exact modCore_modCore ..

/-- A matrix instruction that changes its core as `f` does, and no thread. -/
theorem matrix_runs {o : Host.Outcome State Fault Refusal} {ok : Bool} {op : State → Group → Nat → State}
    (ho : o = kernel ok (matrixOp s i regs op)) (hok : ok = true) {f : Core → Core} (hf : keepsThreads f)
    (h : issues s i regs [] matrixWait g act []) (hr : regionReady g act) (hs : stays g i act []) (hu : act.head? = some u)
    (hop : op (passed s i g []) (atIssue s i g []) u = modCore (passed s i g []) i.core f) :
    ∃ t g', o = .next t ∧ coreOf t i.core = { f (coreOf (passed s i g []) i.core) with groups := (coreOf t i.core).groups } ∧
      groupOf t i.core i.group = some g' ∧ g'.regs = g.regs ∧ moved g g' act (fun _ => i.pc + 1) := by
  obtain ⟨hgroup, hmoved, hcore⟩ := matrixOp_modCore hf h hr hs (by rw [headD_of_head? hu]; exact hop)
  exact ⟨_, _, ho.trans (kernel_admitted hok _), hcore, hgroup, rfl, hmoved⟩

end

end Sys2Proof.Machine

namespace Sys2Proof

open Machine in
/-- Settles O25: each instruction is one change of the core, by the operands of the lowest thread. -/
theorem matrixArithmetic : Obligations.MatrixArithmetic := by
  intro i s g act u hpred hneg hr hs hu
  have hguard : matrixGuard i = true := by simp [matrixGuard, pt, hpred, hneg]
  refine ⟨fun f sa sb sc hdef hmeta hregs h hin hzero hpoison => ?_, fun fmt st sa b range hfmt hsa h hb hfits => ?_,
    fun sa hsa h hfits => ?_⟩
  · have hready : mmaReady (passed s i g []) i.core f (operandAt g sa u) (operandAt g sb u) (operandAt g sc u) :=
      mmaReady_passed h.1 ⟨hin, hzero, hpoison⟩
    obtain ⟨t, g', hexec, hcore, hgroup, hregs', hmoved⟩ := matrix_runs (o := exec (.mma i f sa sb sc) s) rfl
      (by simp [hguard, hdef, hmeta, hregs]) (tileRan_keepsThreads (fun tl => mma tl f (mmaOperands
          (fun off => (scratchByte (coreOf s i.core) off).toNat) f (operandAt g sa u) (operandAt g sb u) (operandAt g sc u))))
      h hr hs hu ((if_neg (mmaReady_checks hready)).trans ((if_neg (ne_true_of_eq_false hready.2.2)).trans
        (congrArg (fun rd : Nat → Byte => modCore _ _ (tileRan (fun tl => mma tl f (mmaOperands (fun off => (rd off).toNat) f
          (operandAt g sa u) (operandAt g sb u) (operandAt g sc u))))) (scratchByte_passed h.1))))
    refine ⟨t, g', hexec, ⟨_, rfl, ?_, ?_⟩, ?_, hgroup, hregs', hmoved⟩
    · rw [hcore, coreOf_passed h.1 hs.2, onTile_eq, coreOf_modCore_self]
      rfl
    · rw [hcore, coreOf_passed h.1 hs.2, onTile_eq, coreOf_modCore_self]
      rfl
    · rw [hcore, coreOf_passed h.1 hs.2]
      rfl
  · have hexport : exportTile (coreOf (passed s i g []) i.core).tile fmt ((fpLayout fmt).getD fp32) st
        (roundSeedOf (passed s i g []) i.core) = (b, range) := by
      rw [coreOf_passed h.1 hs.2, roundSeedOf_passed h.1, hb]
    have hformat : (fmt == .fp32 || fmt == .bf16 || fmt == .fp8e4m3 || fmt == .fp8e5m2) = true := by
      rcases hfmt with rfl | rfl | rfl | rfl <;> rfl
    obtain ⟨t, g', hexec, hcore, hgroup, hregs', hmoved⟩ := matrix_runs (o := exec (.mexport i fmt st sa) s) rfl
      (by simp [hguard, hformat, hsa]) (exported_keepsThreads (operandAt g sa u) b range) h hr hs hu
      (by simp only [hexport]; exact exportTo_eq (by rwa [scratchBytes_passed h.1]) range)
    refine ⟨t, g', hexec, ?_, ?_, hgroup, hregs', hmoved⟩
    · rw [hcore, exported_tile, coreOf_passed h.1 hs.2]
    · rw [hcore, exported_scratch, scratchStore_eq, coreOf_modCore_self]
      exact scratchStored_congr (by rw [coreOf_passed h.1 hs.2]) ..
  · have htile : (coreOf (passed s i g []) i.core).tile = (coreOf s i.core).tile := by rw [coreOf_passed h.1 hs.2]
    obtain ⟨t, g', hexec, hcore, hgroup, hregs', hmoved⟩ := matrix_runs (o := exec (.mexportWide i sa) s) rfl
      (by simp [hguard, hsa]) (exported_keepsThreads (operandAt g sa u) (exportWide (coreOf s i.core).tile) false) h hr hs hu
      (by simp only [htile]; exact exportTo_eq (by rwa [scratchBytes_passed h.1]) false)
    refine ⟨t, g', hexec, ?_, ?_, hgroup, hregs', hmoved⟩
    · rw [hcore, exported_tile, coreOf_passed h.1 hs.2]
    · rw [hcore, exported_scratch, scratchStore_eq, coreOf_modCore_self]
      exact scratchStored_congr (by rw [coreOf_passed h.1 hs.2]) ..

end Sys2Proof

end

section

/-! O21: the peg unit, one operation at a time (04 R107, R108, R549, Table 4-10). -/

namespace Sys2Proof.Machine

/-! ### Pegs that nobody waits on -/

/-- Every peg that nobody waits on is as it was. -/
structure keepsIdlePegs (s t : State) : Prop where
  peg : ∀ id, (pegOf s id).waiters = [] → pegOf t id = pegOf s id

theorem keepsIdlePegs.of_pegs {s t : State} (h : t.cells.pegs = s.cells.pegs) : keepsIdlePegs s t :=
  ⟨fun id _ => by rw [pegOf, pegOf, h]⟩

theorem keepsIdlePegs.refl (s : State) : keepsIdlePegs s s := .of_pegs rfl

theorem keepsIdlePegs.trans {s t u : State} (h : keepsIdlePegs s t) (k : keepsIdlePegs t u) : keepsIdlePegs s u :=
  ⟨fun id hid => by rw [k.peg id (by rw [h.peg id hid, hid]), h.peg id hid]⟩

/-- What comes after a change that leaves the pegs. -/
theorem keepsIdlePegs.before {s t u : State} (k : keepsIdlePegs t u) (h : t.cells.pegs = s.cells.pegs) : keepsIdlePegs s u :=
  (of_pegs h).trans k

theorem keepsIdlePegs.forEach {α : Type} {f : State → α → State} (hf : ∀ s x, keepsIdlePegs s (f s x)) (l : List α) (s : State) :
    keepsIdlePegs s (forEach l s f) :=
  List.foldlRecOn (motive := keepsIdlePegs s) l f (.refl s) (fun _ h x _ => h.trans (hf _ x))

/-- A core leaves the pegs on which its threads wait, and others are as they were. -/
theorem leavePegs_keepsIdlePegs (s : State) (cores : List Nat) : keepsIdlePegs s (leavePegs s cores) := by
  refine ⟨fun id hid => ?_⟩
  unfold pegOf leavePegs at *
  simp only [tget, tfind_tmap] at hid ⊢
  cases hp : tfind s.cells.pegs id with
  | none => rfl
  | some p =>
    obtain ⟨ptype, count, target, generation, waiters⟩ := p
    simp only [hp, Option.getD_some, Option.map_some] at hid ⊢
    simp [hid]

theorem stopCores_keepsIdlePegs (s : State) (slot : Nat) : keepsIdlePegs s (stopCores s slot) :=
  (leavePegs_keepsIdlePegs s _).trans (.forEach (f := fun s k => modCore s k (fun c => { c with stopped := true, loads := [] }))
    (fun _ _ => .of_pegs rfl) _ _)

theorem failStep_keepsIdlePegs (s : State) (slot : Nat) (code : Status) (ref : Nat) :
    keepsIdlePegs s (failStep s slot code ref) := by
  have hfail : keepsIdlePegs s (setFailure s slot code ref) := .of_pegs (by simp)
  refine hfail.trans ?_
  change keepsIdlePegs _ (stopStep (setFailure s slot code ref) slot code false)
  unfold stopStep
  split
  · exact .refl _
  · split
    · exact .refl _
    · refine (stopCores_keepsIdlePegs _ slot).trans (.of_pegs ?_)
      simp

theorem breakRegion_keepsIdlePegs (s : State) (k g : Nat) : keepsIdlePegs s (breakRegion s k g) := by
  unfold breakRegion
  split
  · exact .refl _
  · exact (failStep_keepsIdlePegs ..).before rfl

theorem moveThreads_keepsIdlePegs (s : State) (k gi : Nat) (ts : List Nat) (p : Nat → Nat) :
    keepsIdlePegs s (moveThreads s k gi ts p) := by
  unfold moveThreads
  dsimp only
  split
  · exact .refl _
  · split
    · exact (breakRegion_keepsIdlePegs ..).before rfl
    · exact .of_pegs rfl

theorem acquire_pegs (s : State) (k : Nat) (sc : Scope) : (acquire' s k sc).cells.pegs = s.cells.pegs := by
  unfold acquire'
  dsimp only
  split <;> split <;> rfl

theorem acquireOpt_pegs (s : State) (k : Nat) (sc : Option Scope) : (acquireOpt s k sc).cells.pegs = s.cells.pegs := by
  cases sc with
  | none => rfl
  | some sc => exact acquire_pegs ..

/-- The end of a WAIT leaves the pegs that nobody waits on. -/
theorem endWait_keepsIdlePegs (s : State) (w : Waiter) (met : Bool) : keepsIdlePegs s (endWait s w met) := by
  unfold endWait
  dsimp only
  split
  · exact .of_pegs (by simp)
  · split
    · exact .refl _
    · refine keepsIdlePegs.trans ((moveThreads_keepsIdlePegs ..).before ?_) (.of_pegs (acquireOpt_pegs ..))
      rfl

/-- A peg that nobody waits on stays so while WAITs end. -/
theorem pegOf_endWaits {s : State} {id : Nat} (h : (pegOf s id).waiters = []) (l : List Waiter) (met : Bool) :
    pegOf (forEach l s (fun s w => endWait s w met)) id = pegOf s id :=
  (keepsIdlePegs.forEach (fun s w => endWait_keepsIdlePegs s w met) l s).peg id h

/-! ### Waiters in order of arrival -/

/-- The peg after its waiters have been served in order, those that end, those that stay, and whether one blocks. -/
def served (p : Peg) (l : List Waiter) : Peg × List Waiter × List Waiter × Bool :=
  l.foldl (fun (r : Peg × List Waiter × List Waiter × Bool) w =>
    let (p, ended, kept, blocked) := r
    if blocked then (p, ended, kept ++ [w], true)
    else match pegMeets p w.sb with
      | some p' => (p', ended ++ [w], kept, false)
      | none => (p, ended, kept ++ [w], p.ptype == .semaphore)) (p, [], [], false)

theorem serveWaiters_eq (s : State) (id : Nat) : serveWaiters s id =
    forEach (served (pegOf s id) (pegOf s id).waiters).2.1
      (modPeg s id (fun _ => { (served (pegOf s id) (pegOf s id).waiters).1 with
        waiters := (served (pegOf s id) (pegOf s id).waiters).2.2.1 })) (fun s w => endWait s w true) := rfl

/-- Waiters that each find their condition met, on a peg that a WAIT leaves as it is, all end. -/
theorem served_all {p : Peg} {l : List Waiter} (h : ∀ w, w ∈ l → pegMeets p w.sb = some p) : served p l = (p, l, [], false) := by
  unfold served
  induction l using List.reverseRecOn with
  | nil => rfl
  | append_singleton l w ih =>
    rw [List.foldl_append, ih (fun v hv => h v (by simp [hv])), List.foldl_cons, List.foldl_nil]
    simp [h w (by simp)]

/-- On a semaphore a waiter that cannot be served blocks those behind it. -/
theorem served_blocked {p : Peg} (hp : p.ptype = .semaphore) {w : Waiter} (h : pegMeets p w.sb = none) (rest : List Waiter) :
    served p (w :: rest) = (p, [], w :: rest, true) := by
  unfold served
  induction rest using List.reverseRecOn with
  | nil => simp [h, hp]
  | append_singleton rest v ih => rw [← List.cons_append, List.foldl_append, ih]; rfl

theorem served_one {p p' : Peg} {w : Waiter} (h : pegMeets p w.sb = some p') : served p [w] = (p', [w], [], false) := by
  simp [served, h]

/-- A peg whose waiters have all been served. -/
theorem pegOf_serveWaiters {s : State} {id : Nat} {p' : Peg} {ended : List Waiter} {b : Bool}
    (h : served (pegOf s id) (pegOf s id).waiters = (p', ended, [], b)) :
    pegOf (serveWaiters s id) id = { p' with waiters := [] } := by
  rw [serveWaiters_eq, h, pegOf_endWaits] <;> rw [pegOf_modPeg_self]

/-- A peg none of whose waiters has been served. -/
theorem pegOf_serveWaiters_kept {s : State} {id : Nat} {p' : Peg} {kept : List Waiter} {b : Bool}
    (h : served (pegOf s id) (pegOf s id).waiters = (p', [], kept, b)) :
    pegOf (serveWaiters s id) id = { p' with waiters := kept } := by
  rw [serveWaiters_eq, h]
  exact pegOf_modPeg_self ..

/-! ### One contribution -/

theorem pegCount_eq (n : Nat) : pegCount n = max n 1 := by
  unfold pegCount
  split <;> omega

section

variable {p : Peg} {n : Nat}

@[simp] theorem pegAdd_waiters (p : Peg) (n : Nat) : (pegAdd p n).waiters = p.waiters := by
  unfold pegAdd
  split
  · split <;> rfl
  all_goals rfl

theorem pegAdd_barrier_below (hp : p.ptype = .barrier) (h : p.count + max n 1 < p.target) :
    pegAdd p n = { p with count := p.count + max n 1 } := by
  simp only [pegAdd, hp, pegCount_eq, if_neg (Nat.not_le.mpr h)]

theorem pegAdd_barrier_turns (hp : p.ptype = .barrier) (h : p.target ≤ p.count + max n 1) : pegAdd p n = pegTurn p := by
  simp only [pegAdd, hp, pegCount_eq, if_pos h]

theorem pegAdd_semaphore (hp : p.ptype = .semaphore) (n : Nat) :
    pegAdd p n = { p with count := min (p.count + max n 1) (2 ^ 24 - 1) } := by
  simp only [pegAdd, hp, pegCount_eq]

theorem pegMeets_semaphore (hp : p.ptype = .semaphore) (sb : Nat) :
    pegMeets p sb = if sb ≤ p.count then some { p with count := p.count - sb } else none := by
  simp only [pegMeets, hp]

theorem pegAdd_event (hp : p.ptype = .event) (n : Nat) : pegAdd p n = { p with count := 1 } := by
  simp only [pegAdd, hp]

end

section

variable {s : State} {id n : Nat}

/-- What is served after one ARRIVE or SIGNAL is the peg after the contribution. -/
theorem pegOf_added (s : State) (id n : Nat) : pegOf (modPeg s id (fun p => pegAdd p n)) id = pegAdd (pegOf s id) n :=
  pegOf_modPeg_self ..

theorem pegOf_pegSignalOp {p' : Peg} {ended : List Waiter} {b : Bool}
    (h : served (pegAdd (pegOf s id) n) (pegOf s id).waiters = (p', ended, [], b)) :
    pegOf (pegSignalOp s id n) id = { p' with waiters := [] } := by
  refine pegOf_serveWaiters (ended := ended) (b := b) ?_
  rw [pegOf_added, pegAdd_waiters, h]

theorem pegOf_pegSignalOp_kept {p' : Peg} {kept : List Waiter} {b : Bool}
    (h : served (pegAdd (pegOf s id) n) (pegOf s id).waiters = (p', [], kept, b)) :
    pegOf (pegSignalOp s id n) id = { p' with waiters := kept } := by
  refine pegOf_serveWaiters_kept (b := b) ?_
  rw [pegOf_added, pegAdd_waiters, h]

end

end Sys2Proof.Machine

end

section

/-! O21, settled. -/

namespace Sys2Proof

open Machine in
/-- Settles O21: the contribution by type, then the waiters in order of arrival. -/
theorem pegUnitRules : Obligations.PegUnitRules := by
  intro s id n p hp
  subst hp
  refine ⟨fun htype hnone hbelow => ?_, fun htype hturn hwait hgen => ?_, fun htype w rest hw hshort => ?_,
    fun htype w hw hmet => ?_, fun htype => ?_, ?_, fun _ => ?_⟩
  · rw [pegOf_pegSignalOp (p' := pegAdd (pegOf s id) n) (ended := []) (b := false) (by rw [hnone]; rfl),
      pegAdd_barrier_below htype hbelow, hnone]
  · have hmeets : ∀ w, w ∈ (pegOf s id).waiters → pegMeets (pegTurn (pegOf s id)) w.sb = some (pegTurn (pegOf s id)) := by
      intro w hw
      have hnext : (pegTurn (pegOf s id)).generation ≠ w.sb := by
        rw [hwait w hw]
        simp only [pegTurn]
        omega
      simp [pegMeets, show (pegTurn (pegOf s id)).ptype = .barrier from htype, hnext]
    rw [pegOf_pegSignalOp (by rw [pegAdd_barrier_turns htype hturn]; exact served_all hmeets)]
    rfl
  · have hblocked : served (pegAdd (pegOf s id) n) (pegOf s id).waiters = (pegAdd (pegOf s id) n, [], w :: rest, true) := by
      rw [hw, pegAdd_semaphore htype]
      refine served_blocked (p := { pegOf s id with count := min ((pegOf s id).count + max n 1) (2 ^ 24 - 1) }) htype ?_ rest
      exact (pegMeets_semaphore (p := { pegOf s id with count := min ((pegOf s id).count + max n 1) (2 ^ 24 - 1) }) htype w.sb).trans
        (if_neg (Nat.not_le.mpr hshort))
    rw [pegOf_pegSignalOp_kept hblocked, pegAdd_semaphore htype, ← hw]
  · have hone : served (pegAdd (pegOf s id) n) (pegOf s id).waiters = ({ pegOf s id with
        count := min ((pegOf s id).count + max n 1) (2 ^ 24 - 1) - w.sb }, [w], [], false) := by
      rw [hw, pegAdd_semaphore htype]
      exact served_one ((pegMeets_semaphore (p := { pegOf s id with
        count := min ((pegOf s id).count + max n 1) (2 ^ 24 - 1) }) htype w.sb).trans (if_pos hmet))
    rw [pegOf_pegSignalOp hone]
  · have hall : served (pegAdd (pegOf s id) n) (pegOf s id).waiters = ({ pegOf s id with count := 1 }, (pegOf s id).waiters, [], false) := by
      rw [pegAdd_event htype]
      exact served_all (fun w _ => by simp [pegMeets, htype])
    rw [pegOf_pegSignalOp hall]
  · rw [pegResetOp, pegOf_endWaits (by rw [pegOf_modPeg_self]), pegOf_modPeg_self]
    rfl
  · have hgone : pegOf { s with cells := { s.cells with pegs := tdel s.cells.pegs id } } id = {} := by
      simp [pegOf, tget]
    change pegOf (pegNone s id) id = {}
    rw [pegNone, pegOf_endWaits (by rw [hgone]), hgone]

end Sys2Proof

end

section

/-! O20 fails: a PEG.READ with ONCE whose destination is its own SA register. -/

namespace Sys2Proof.Machine

/-- Threads 0 and 1, whose v10 names peg 255. -/
def onceGroup : Group := { exited := 2 ^ 64 - 4, regs := [(640, 255), (641, 255)] }

/-- Core 0 of cellar 0, a step running there, the two threads on it, and peg 255 an EVENT that has been signalled. -/
def onceState : State :=
  { State.reset with
      boot := { State.reset.boot with stage := .ready, presentCellars := 1, presentCores := [(0, 1)], cellarPhys := [(0, 0)] }
      cells := { State.reset.cells with
        cores := [(0, { groups := [(0, onceGroup)], step := some 0, scratchUnits := 3 })]
        pegs := [(255, { ptype := .event, count := 1 })] }
      larder := { State.reset.larder with steps := [(0, { phase := .running, image := 1, heldCellars := [0], coreMask := 1 })] }
      part := { State.reset.part with images := [(1, { part := 0, words := 64, kernels := [(16, 3, 0)], loaded := true })] } }

/-- The issue of the READ into the pair v10 finds both threads. -/
theorem onceState_issues : issues onceState {} (acquireReg :: 10 :: pairRegs 10) [] noWait onceGroup [0, 1] [] := by
  (repeat' apply And.intro) <;> decide +kernel

/-- Thread 1 holds 0: the model reads the identifier from v10 of thread 0 again, which by then holds the low word of the
peg's state, 7, and peg 7 is in its zero state. -/
theorem onceState_read : (match exec (.pegRead {} { once := true } 10 10) onceState with
    | .next t => (groupOf t 0 0).map (fun g => regRead g 10 1)
    | _ => none) = some 0 := by decide +kernel

end Sys2Proof.Machine

namespace Sys2Proof

open Machine in
/-- Refutes O20: with ONCE, a PEG.READ into the pair that holds its own identifier gives only the first thread the state
of the peg. -/
theorem not_pegInstructions : ¬ Obligations.PegInstructions := by
  intro h
  obtain ⟨-, hpasses⟩ := h {} { once := true } onceState onceGroup [0, 1] [] 0 255 10 (by decide) (by decide) rfl
    ⟨rfl, rfl⟩ rfl (.inl rfl) (by decide) (by decide +kernel) (by decide +kernel)
  obtain ⟨-, -, -, hread⟩ := hpasses (by decide +kernel)
  obtain ⟨t, hexec, -, g', hgroup, hwrote, -⟩ := hread 10 (by decide +kernel) (by decide +kernel) onceState_issues
  have hstate : regRead g' 10 1 = 7 := (hwrote 10 1 (by decide)).trans (by decide +kernel)
  have hzero : (groupOf t 0 0).map (fun g => regRead g 10 1) = some 0 := by
    have hread := onceState_read
    rwa [hexec] at hread
  rw [show groupOf t 0 0 = some g' from hgroup, Option.map_some, hstate] at hzero
  exact absurd (Option.some.inj hzero) (by decide)

end Sys2Proof

end

section

/-! What loads and stores leave of the groups: the caches, the trackers and the ports change, and no thread of any core does
(07 R195–R201). -/

namespace Sys2Proof.Machine

/-- Every group of every core is as it was. -/
structure keepsGroups (s t : State) : Prop where
  group : ∀ k gi, groupOf t k gi = groupOf s k gi

theorem keepsGroups.of_cores {s t : State} (h : t.cells.cores = s.cells.cores) : keepsGroups s t :=
  ⟨fun k gi => by rw [groupOf, groupOf, coreOf, coreOf, h]⟩

theorem keepsGroups.refl (s : State) : keepsGroups s s := ⟨fun _ _ => rfl⟩

theorem keepsGroups.trans {s t u : State} (h : keepsGroups s t) (k : keepsGroups t u) : keepsGroups s u :=
  ⟨fun c gi => by rw [k.group, h.group]⟩

/-- A further change of a core that leaves its groups. -/
theorem keepsGroups.modCore {s t : State} (h : keepsGroups s t) {k : Nat} {f : Core → Core} (hf : ∀ c, (f c).groups = c.groups) :
    keepsGroups s (modCore t k f) := h.trans ⟨fun j gi => groupOf_modCore hf t j gi⟩

/-- A further change of a cellar. -/
theorem keepsGroups.modCellar {s t : State} (h : keepsGroups s t) (c : Nat) (f : Cellar → Cellar) :
    keepsGroups s (modCellar t c f) := h.trans (.of_cores rfl)

theorem keepsGroups.newTxn {s t : State} (h : keepsGroups s t) (x : Txn) : keepsGroups s (newTxn t x).1 := h.trans (.of_cores rfl)

/-- The next number is taken. -/
theorem keepsGroups.nextId {s t : State} (h : keepsGroups s t) (n : Nat) :
    keepsGroups s { t with cells := { t.cells with nextId := n } } := h.trans (.of_cores rfl)

theorem keepsGroups.forEach {α : Type} {f : State → α → State} (hf : ∀ s x, keepsGroups s (f s x)) (l : List α) (s : State) :
    keepsGroups s (forEach l s f) :=
  List.foldlRecOn (motive := keepsGroups s) l f (.refl s) (fun _ h x _ => h.trans (hf _ x))

theorem keepsGroups.ite {s a b : State} {p : Prop} [Decidable p] (ha : keepsGroups s a) (hb : keepsGroups s b) :
    keepsGroups s (if p then a else b) := by
  split
  · exact ha
  · exact hb

theorem keepsGroups.ite_fst {α : Type} {s : State} {a b : State × α} {p : Prop} [Decidable p] (ha : keepsGroups s a.1)
    (hb : keepsGroups s b.1) : keepsGroups s (if p then a else b).1 := by
  split
  · exact ha
  · exact hb

section

variable (s : State)

theorem setCellarLine_keepsGroups (c key : Nat) (l : CacheLine) : keepsGroups s (setCellarLine s c key l) :=
  (keepsGroups.refl s).modCellar ..

theorem setCoreLine_keepsGroups (k key : Nat) (l : CacheLine) : keepsGroups s (setCoreLine s k key l) :=
  (keepsGroups.refl s).modCore (fun _ => rfl)

theorem modFill_keepsGroups (k i : Nat) (f : Fill → Fill) : keepsGroups s (modFill s k i f) :=
  (keepsGroups.refl s).modCore (fun _ => rfl)

theorem trackEnd_keepsGroups (c x : Nat) (load : Bool) : keepsGroups s (trackEnd s c x load) :=
  (keepsGroups.refl s).modCellar ..

theorem trackStore_keepsGroups (c x : Nat) : keepsGroups s (trackStore s c x).1 := by
  unfold trackStore
  dsimp only
  split <;> exact (keepsGroups.refl s).modCellar ..

theorem trackVictim_keepsGroups (c x : Nat) : keepsGroups s (trackVictim s c x).1 := by
  unfold trackVictim
  split
  · exact trackStore_keepsGroups ..
  · exact .refl s

/-! ### Home -/

theorem writeLine_keepsGroups (line : Nat) (b : Tab Byte) (pz : Nat) : keepsGroups s (writeLine s line b pz) := by
  unfold writeLine
  dsimp only
  split
  · exact .refl s
  · split
    · exact .ite (.refl s) (.of_cores (by simp))
    · exact .ite (.refl s) (.of_cores (by simp))
    · exact .ite (.refl s) (.of_cores (by simp))
    · exact .ite (.refl s) ((keepsGroups.refl s).modCore (fun _ => rfl))
    · exact .refl s

theorem writeHome_keepsGroups (c line : Nat) (b : Tab Byte) (pz : Nat) (client : Client) :
    keepsGroups s (writeHome s c line b pz client).1 := by
  unfold writeHome
  exact .ite_fst (.refl s) (.ite_fst (.refl s) (.ite_fst (writeLine_keepsGroups ..) ((keepsGroups.refl s).newTxn _)))

theorem cellarPasses_keepsGroups (c line : Nat) (b : Tab Byte) (pz : Nat) : keepsGroups s (cellarPasses s c line b pz) :=
  ((keepsGroups.refl s).modCellar ..).trans (writeHome_keepsGroups ..)

/-! ### The cellar buffer -/

theorem cellarAllocate_keepsGroups (c line : Nat) : keepsGroups s (cellarAllocate s c line).1 := by
  unfold cellarAllocate
  dsimp only
  split
  · exact .refl s
  · split
    · exact .refl s
    · split
      · exact (keepsGroups.refl s).modCellar ..
      · exact (((keepsGroups.refl s).modCellar ..).modCellar ..).trans (writeHome_keepsGroups ..)

/-- A way of the buffer is taken, and the line set there, or nothing can be taken. -/
theorem cellarAllocate_then {c line : Nat} {miss : State → State} {hit : State → Nat → State}
    (hmiss : ∀ s, keepsGroups s (miss s)) (hhit : ∀ s key, keepsGroups s (hit s key)) :
    keepsGroups s (match cellarAllocate s c line with | (s, none) => miss s | (s, some key) => hit s key) := by
  have h := cellarAllocate_keepsGroups s c line
  rcases hc : cellarAllocate s c line with ⟨t, _ | key⟩
  · rw [hc] at h
    exact h.trans (hmiss t)
  · rw [hc] at h
    exact h.trans (hhit t key)

theorem cellarStore_keepsGroups (c line : Nat) (b : Tab Byte) (pz : Nat) (stream victim : Bool) :
    keepsGroups s (cellarStore s c line b pz stream victim) := by
  unfold cellarStore
  dsimp only
  split
  · exact .refl s
  · split
    · exact cellarPasses_keepsGroups ..
    · split
      · exact setCellarLine_keepsGroups ..
      · have htrack : keepsGroups s (if victim then trackVictim s c line else (s, false)).1 := by
          exact .ite_fst (trackVictim_keepsGroups ..) (.refl s)
        generalize (if victim then trackVictim s c line else (s, false)) = r at htrack ⊢
        exact htrack.trans (.ite (cellarPasses_keepsGroups ..) (cellarAllocate_then _ 
          (fun s => cellarPasses_keepsGroups s ..) (fun s key => setCellarLine_keepsGroups s ..)))

theorem offerVictim_keepsGroups (c : Nat) (l : CacheLine) : keepsGroups s (offerVictim s c l) := by
  unfold offerVictim
  dsimp only
  split
  · exact cellarStore_keepsGroups ..
  · split
    · exact .refl s
    · split
      · exact (keepsGroups.refl s).modCellar ..
      · split
        · exact .refl s
        · split
          · exact ((keepsGroups.refl s).modCellar ..).trans
              (cellarAllocate_then _ .refl (fun s key => setCellarLine_keepsGroups s ..))
          · exact (keepsGroups.refl s).modCellar ..

theorem askHome_keepsGroups (c line mask : Nat) (stream : Bool) (waiter : List (Nat × Nat)) :
    keepsGroups s (askHome s c line mask stream waiter) := by
  unfold askHome takeId
  split
  · exact (keepsGroups.refl s).modCellar ..
  · by_cases habsent : (cellarFind (cellarOf s c) line).isNone = true
    · have halloc := cellarAllocate_keepsGroups s c line
      simp only [habsent, Bool.not_true, Bool.false_eq_true, if_false]
      rcases hc : cellarAllocate s c line with ⟨t, _ | key⟩
      · rw [hc] at halloc
        exact ((halloc.nextId _).modCellar ..).newTxn _
      · rw [hc] at halloc
        exact (((halloc.trans (setCellarLine_keepsGroups ..)).nextId _).modCellar ..).newTxn _
    · simp only [habsent, Bool.not_false, if_true]
      exact (((keepsGroups.refl s).nextId _).modCellar ..).newTxn _

end

end Sys2Proof.Machine

end

section

/-! O22: loads in flight, the return of their data, and stores (04 R93, R110, R119; 07 R196). -/

namespace Sys2Proof.Machine

/-! ### Loads leave the groups -/

section

variable (s : State)

theorem coreAllocate_keepsGroups (k line : Nat) : keepsGroups s (coreAllocate s k line).1 := by
  unfold coreAllocate
  dsimp only
  split
  · exact .refl s
  · split
    · exact (keepsGroups.refl s).modCore (fun _ => rfl)
    · refine keepsGroups.trans ?_ (offerVictim_keepsGroups _ _ _)
      refine keepsGroups.modCore (keepsGroups.modCore (.refl s) ?_) ?_ <;> exact fun _ => rfl

theorem cellarRequest_keepsGroups (k line mask : Nat) (stream : Bool) (i : Nat) :
    keepsGroups s (cellarRequest s k line mask stream i) := by
  unfold cellarRequest
  refine .ite (modFill_keepsGroups ..) (.ite ((keepsGroups.refl s).newTxn _)
    ((trackEnd_keepsGroups s (k / 64) line true).trans ?_))
  dsimp only
  generalize trackEnd s (k / 64) line true = t
  split
  · exact askHome_keepsGroups ..
  · exact .ite (keepsGroups.trans (setCellarLine_keepsGroups ..) (modFill_keepsGroups ..))
      (keepsGroups.trans (modFill_keepsGroups ..) (askHome_keepsGroups ..))

theorem coreLoad_keepsGroups (k line mask : Nat) (stream : Bool) : keepsGroups s (coreLoad s k line mask stream).1 := by
  have hmiss : ∀ t, keepsGroups s t → ∀ i f, keepsGroups s (cellarRequest (modCore { t with cells := { t.cells with
      nextId := t.cells.nextId + 1 } } k (fun c => { c with fills := tset c.fills i f })) k line mask stream i) := by
    intro t ht i f
    refine keepsGroups.trans (keepsGroups.modCore (ht.nextId _) ?_) (cellarRequest_keepsGroups _ k line mask stream i)
    exact fun _ => rfl
  unfold coreLoad takeId
  refine .ite_fst ?_ ?_
  · have htrack : keepsGroups s (if cellarCaches (placeOf s (line * 128)) then trackEnd s (k / 64) line true else s) :=
      .ite (trackEnd_keepsGroups ..) (.refl s)
    refine htrack.trans ?_
    dsimp only
    generalize (if cellarCaches (placeOf s (line * 128)) then trackEnd s (k / 64) line true else s) = t
    split
    · exact setCoreLine_keepsGroups ..
    · exact .refl _
  · split
    · exact .refl s
    · by_cases hheld : (coreFind (coreOf s k) line).isSome = true
      · simp only [hheld, if_true]
        exact hmiss s (.refl s) _ _
      · have halloc := coreAllocate_keepsGroups s k line
        simp only [hheld]
        rcases hc : coreAllocate s k line with ⟨t, _ | key⟩
        · rw [hc] at halloc
          exact hmiss t halloc _ _
        · rw [hc] at halloc
          exact hmiss _ (halloc.trans (setCoreLine_keepsGroups t k key _)) _ _

theorem registerReads_keepsGroups (k id : Nat) (r : LoadRec) : keepsGroups s (registerReads s k id r) :=
  .forEach (fun s _ => (keepsGroups.refl s).newTxn _) _ s

theorem keepsGroups.foldl_fst {α β : Type} {f : State × α → β → State × α} (hf : ∀ x b, keepsGroups x.1 (f x b).1)
    (l : List β) (x : State × α) : keepsGroups x.1 (l.foldl f x).1 :=
  List.foldlRecOn (motive := fun y => keepsGroups x.1 y.1) l f (.refl x.1) (fun _ h b _ => h.trans (hf _ b))

/-- A load record stands under a number. -/
def putLoad (t : State) (k id : Nat) (r : LoadRec) : State := modCore t k (fun c => { c with loads := tset c.loads id r })

theorem tfind_putLoad (t : State) (k id : Nat) (r : LoadRec) : tfind (coreOf (putLoad t k id r) k).loads id = some r := by
  rw [putLoad, coreOf_modCore_self]
  exact tfind_tset_self ..

theorem putLoad_keepsGroups (t : State) (k id : Nat) (r : LoadRec) : keepsGroups t (putLoad t k id r) :=
  (keepsGroups.refl t).modCore (fun _ => rfl)

/-- A load that begins leaves every group, and its record stands under the next number. -/
theorem startLoad_eq (k : Nat) (r : LoadRec) : ∃ t need got pz, keepsGroups s t ∧
    startLoad s k r = putLoad t k s.cells.nextId { r with need := need, got := got, poison := pz } := by
  unfold startLoad
  dsimp only
  refine ⟨_, _, _, _, ?_, rfl⟩
  refine keepsGroups.trans ?_ (registerReads_keepsGroups _ k s.cells.nextId r)
  refine ((keepsGroups.refl s).nextId (s.cells.nextId + 1)).trans (keepsGroups.foldl_fst ?_ _ (_, _))
  exact fun x l => coreLoad_keepsGroups x.1 k l.1 l.2 r.streaming

end

/-! ### LD -/

theorem acquire_keepsGroups (s : State) (k : Nat) (sc : Scope) : keepsGroups s (acquire' s k sc) := by
  unfold acquire'
  refine .ite ?_ (keepsGroups.modCellar ?_ _ _)
  all_goals
    refine .ite (.refl s) (keepsGroups.modCore (.refl s) ?_)
    exact fun _ => rfl

theorem acquireOpt_keepsGroups (s : State) (k : Nat) (sc : Option Scope) : keepsGroups s (acquireOpt s k sc) := by
  cases sc with
  | none => exact .refl s
  | some sc => exact acquire_keepsGroups ..

theorem acquireOpt_nextId (s : State) (k : Nat) (sc : Option Scope) : (acquireOpt s k sc).cells.nextId = s.cells.nextId := by
  cases sc with
  | none => rfl
  | some sc =>
    unfold acquireOpt acquire'
    dsimp only
    split <;> split <;> rfl

theorem noteRefusal_cells (s : State) (k code : Nat) : (noteRefusal s k code).cells = s.cells := by
  unfold noteRefusal
  split <;> simp

/-- The record of an LD as its threads put it in flight. -/
def ldRecord (i : Issue) (f : MemForm) (dst sa : Nat) (g : Group) (act : List Nat) : LoadRec :=
  { group := i.group, dst := dst, bytes := f.bytes, threads := act.map (fun u => (u, memAddr g f sa u))
    streaming := f.streaming, acquire := f.ordered, ret := dst != vz }

/-- The refused threads of an LD in lane order, each with its code and address. -/
def ldRefused (t : State) (k : Nat) (f : MemForm) (sa : Nat) (g : Group) (act : List Nat) : List (Nat × Nat) :=
  (act.map (fun u => (u, memAddr g f sa u))).filterMap (fun e => (coreRefusal t k false e.2 f.bytes).map (fun c => (c, e.2)))

section

variable {s t : State} {i : Issue} {f : MemForm} {dst sa : Nat} {g : Group} {act off : List Nat}

theorem ldRefused_nil (h : ∀ u, u ∈ act → coreRefusal t i.core false (memAddr g f sa u) f.bytes = none) :
    ldRefused t i.core f sa g act = [] := by
  simp only [ldRefused, List.filterMap_eq_nil_iff, List.mem_map, Option.map_eq_none_iff]
  rintro e ⟨u, hu, rfl⟩
  exact h u hu

theorem ldRefused_first {u c : Nat} {rest : List Nat} (hact : act = u :: rest)
    (h : coreRefusal t i.core false (memAddr g f sa u) f.bytes = some c) :
    ldRefused t i.core f sa g act = (c, memAddr g f sa u) :: ldRefused t i.core f sa g rest := by
  simp [ldRefused, hact, h]

/-- An LD puts its record under the next number: with the code of the first refused thread, or with what its lines need. -/
theorem ld_puts (h : issues s i (acquireReg :: pairRegs sa ++ dataRegs dst f.bytes) [] noWait g act off)
    (hoff : leavesRegion g off (fun _ => i.pc + 1) = false)
    (hok : (guardOk i && memFormOk f && pairsOk (declaredRegs s i.core) [sa] && dataOk (declaredRegs s i.core) dst f.bytes) = true) :
    ∃ t need got pz err at_, keepsGroups (passed s i g off) t ∧
      err = (ldRefused (acquireOpt (passed s i g off) i.core f.ordered) i.core f sa g act).head?.map (·.1) ∧
      execLd i f dst sa s = .next (advance (putLoad t i.core s.cells.nextId
        { ldRecord i f dst sa g act with need := need, got := got, poison := pz, error := err, errAddr := at_ }) i act) := by
  have hkept := acquireOpt_keepsGroups (passed s i g off) i.core f.ordered
  have hid : (acquireOpt (passed s i g off) i.core f.ordered).cells.nextId = s.cells.nextId := by
    rw [acquireOpt_nextId, passed_eq h.1 hoff]
    rfl
  unfold execLd
  rw [kernel_admitted hok, issue_eq h hoff]
  change ∃ t need got pz err at_, _ ∧ _ ∧ Host.Outcome.next (advance
    (match ldRefused (acquireOpt (passed s i g off) i.core f.ordered) i.core f sa g act with
      | (c, a) :: _ => _
      | [] => startLoad _ _ (ldRecord i f dst sa g act)) i act) = _
  rcases ldRefused (acquireOpt (passed s i g off) i.core f.ordered) i.core f sa g act with _ | ⟨⟨c, a⟩, rest⟩
  · obtain ⟨t, need, got, pz, ht, hstart⟩ := startLoad_eq (acquireOpt (passed s i g off) i.core f.ordered) i.core
      (ldRecord i f dst sa g act)
    refine ⟨t, need, got, pz, none, 0, hkept.trans ht, rfl, ?_⟩
    dsimp only
    rw [hstart, hid]
    rfl
  · refine ⟨noteRefusal { acquireOpt (passed s i g off) i.core f.ordered with cells :=
      { (acquireOpt (passed s i g off) i.core f.ordered).cells with
        nextId := (acquireOpt (passed s i g off) i.core f.ordered).cells.nextId + 1 } } i.core c,
      [], [], false, some c, a, hkept.trans (.of_cores (by rw [noteRefusal_cells])), rfl, ?_⟩
    dsimp only
    rw [hid]
    rfl

end

end Sys2Proof.Machine

end

section

/-! O22, settled: what an LD, the return of its data and an ST do (04 R93, R110, R119; 07 R196). -/

namespace Sys2Proof.Machine

section

variable {s : State} {i : Issue} {f : MemForm} {dst sa sb : Nat} {g : Group} {act off : List Nat}

/-- An LD leaves a record in flight, and its threads go on with their registers as they were. -/
theorem ld_flies (h : issues s i (acquireReg :: pairRegs sa ++ dataRegs dst f.bytes) [] noWait g act off) (hs : stays g i act off)
    (hok : (guardOk i && memFormOk f && pairsOk (declaredRegs s i.core) [sa] && dataOk (declaredRegs s i.core) dst f.bytes) = true) :
    ∃ t r g', execLd i f dst sa s = .next t ∧ tfind (coreOf t i.core).loads s.cells.nextId = some r ∧
      r.group = i.group ∧ r.dst = dst ∧ r.bytes = f.bytes ∧ r.threads = act.map (fun u => (u, memAddr g f sa u)) ∧
      groupOf t i.core i.group = some g' ∧ g'.regs = g.regs ∧ moved g g' (act ++ off) (fun _ => i.pc + 1) ∧
      r.error = (ldRefused (acquireOpt (passed s i g off) i.core f.ordered) i.core f sa g act).head?.map (·.1) := by
  obtain ⟨t, need, got, pz, err, at_, hkept, herr, heq⟩ := ld_puts h hs.2 hok
  have hgroup : ∀ r, groupOf (putLoad t i.core s.cells.nextId r) i.core i.group = some (atIssue s i g off) := fun r => by
    rw [(putLoad_keepsGroups ..).group, hkept.group, groupOf_passed h.1 hs.2]
  refine ⟨_, { ldRecord i f dst sa g act with need := need, got := got, poison := pz, error := err, errAddr := at_ },
    wentOn (atIssue s i g off) act (fun _ => i.pc + 1), heq, ?_, rfl, rfl, rfl, rfl,
    groupOf_moveThreads (hgroup _) hs.1, rfl, moved_next (.of_fields rfl rfl rfl), herr⟩
  rw [advance, moveThreads_eq (hgroup _) hs.1]
  simp only [coreOf_modGroup_fields, tfind_putLoad]

/-- An ST without order whose addresses are all admitted stores the bytes of its threads. -/
theorem st_stores (h : issues s i (acquireReg :: pairRegs sa ++ dataRegs sb f.bytes) [] noWait g act off)
    (hs : stays g i act off) (horder : f.ordered = none)
    (hok : (guardOk i && memFormOk f && pairsOk (declaredRegs s i.core) [sa] && dataOk (declaredRegs s i.core) sb f.bytes) = true)
    (hadmitted : ∀ u, u ∈ act → coreRefusal (passed s i g off) i.core true (memAddr g f sa u) f.bytes = none) :
    execSt i f sa sb s = .next (advance (storeBytes (passed s i g off) i.core
      (storedBytes (act.map (fun u => (memAddr g f sa u, dataRead g sb f.bytes u)))) f.streaming) i act) := by
  have hall : ∀ e ∈ act.map (fun u => (u, memAddr (atIssue s i g off) f sa u)),
      coreRefusal (passed s i g off) i.core true e.2 f.bytes = none := by
    simp only [List.mem_map]
    rintro e ⟨u, hu, rfl⟩
    exact hadmitted u hu
  unfold execSt
  rw [kernel_admitted hok, issue_eq h hs.2, horder]
  unfold released
  simp only [groupOf_passed h.1 hs.2]
  rw [List.foldlRecOn (motive := fun x => x = (passed s i g off, none)) _ _ rfl (fun x hx e he => by
    rw [hx]
    simp only [hall e he])]
  rw [List.filter_eq_self.mpr (fun e he => by simp only [hall e he, Option.isNone_none]), List.map_map]
  rfl

end

/-! ### The return of a load's data -/

section

variable {s : State} {core n : Nat} {r : LoadRec}

/-- A load without error ends, and its data reach the registers. -/
theorem execLoadDataReturn_data (h : tfind (coreOf s core).loads n = some r) (hneed : r.need = []) (herr : r.error = none)
    (hpoison : r.poison = false) (hacquire : r.acquire = none) : execLoadDataReturn core n s =
      .next (modGroup (modCore s core (fun c => { c with loads := tdel c.loads n })) core r.group (writeLoad r)) := by
  unfold execLoadDataReturn
  simp [h, hneed, herr, hpoison, hacquire, acquireOpt]

theorem execLoadDataReturn_error {c : Nat} (h : tfind (coreOf s core).loads n = some r) (hneed : r.need = [])
    (herr : r.error = some c) : execLoadDataReturn core n s =
      .next (coreError (modCore s core (fun x => { x with loads := tdel x.loads n })) core c r.errAddr) := by
  unfold execLoadDataReturn
  simp [h, hneed, herr]

end

/-! ### Stored bytes -/

/-- A thread's bytes lie over those of the threads before it. -/
theorem tfind_storeRun (m : Tab Byte) (a : Nat) (b : Bytes) (x : Nat) :
    tfind (b.zipIdx.foldl (fun t (e : Byte × Nat) => tset t (a + e.2) e.1) m) x =
      if a ≤ x ∧ x < a + b.length then some (nth b (x - a) 0) else tfind m x := by
  induction b using List.reverseRecOn with
  | nil => simp
  | append_singleton b c ih =>
    rw [List.zipIdx_append, List.foldl_append]
    simp only [List.zipIdx_cons, List.zipIdx_nil, List.foldl_cons, List.foldl_nil, List.length_append, List.length_singleton,
      Nat.zero_add]
    by_cases hlast : x = a + b.length
    · subst hlast
      simp [nth]
    · rw [tfind_tset_other _ _ _ _ hlast, ih]
      by_cases hin : a ≤ x ∧ x < a + b.length
      · have hlt : x - a < b.length := by omega
        rw [if_pos hin, if_pos (by omega)]
        simp [nth, List.getElem?_append_left hlt]
      · rw [if_neg hin, if_neg (by omega)]

theorem tfind_storedBytes_append (l : List (Nat × Bytes)) (a : Nat) (b : Bytes) (x : Nat) :
    tfind (storedBytes (l ++ [(a, b)])) x =
      if a ≤ x ∧ x < a + b.length then some (nth b (x - a) 0) else tfind (storedBytes l) x := by
  rw [storedBytes, List.foldl_append]
  exact tfind_storeRun ..

end Sys2Proof.Machine

namespace Sys2Proof

open Machine in
/-- Settles O22: an LD in flight, its return, an ST, and the order of the bytes that an ST stores. -/
theorem loadsAndStores : Obligations.LoadsAndStores := by
  refine ⟨fun i f dst sa s g act off hpred hform hsa hdst hs h => ?_, fun core n s r g hr hneed hg => ⟨fun herr hpoison hacq => ?_,
    fun c herr => ?_⟩, fun i f sa sb s g act off hpred hform hsa hsb horder hs h hadmitted => ?_, tfind_storedBytes_append⟩
  · obtain ⟨t, r, g', heq, hload, hgroup, hdst', hbytes, hthreads, hg', hregs, hmoved, herr⟩ :=
      ld_flies h hs (by simp [guardOk, hpred, hform, hsa, hdst])
    refine ⟨t, r, g', heq, hload, hgroup, hdst', hbytes, hthreads, hg', hregs, hmoved, fun hnone => ?_,
      fun u rest c hact hc => ?_⟩
    · rw [herr, ldRefused_nil hnone]
      rfl
    · rw [herr, ldRefused_first hact hc]
      rfl
  · refine ⟨_, execLoadDataReturn_data hr hneed herr hpoison hacq, ?_, ?_⟩
    · rw [groupOf_modGroup_self, groupOf_modCore (f := fun c => { c with loads := tdel c.loads n }) (fun _ => rfl), hg,
        Option.map_some]
    · simp
  · exact ⟨_, execLoadDataReturn_error hr hneed herr, rfl⟩
  · exact ⟨_, st_stores h hs horder (by simp [guardOk, hpred, hform, hsa, hsb]) hadmitted, rfl⟩

end Sys2Proof

end

section

/-! Views of the state that a loop leaves, or changes entry by entry; masks of a line; and what a write home leaves of the
caches (07 R196). -/

namespace Sys2Proof.Machine

/-! ### Loops over a list -/

/-- What no pass changes, the loop leaves. -/
theorem forEach_leaves {α β : Type} {v : State → β} {f : State → α → State} (hf : ∀ s a, v (f s a) = v s) (l : List α)
    (s : State) : v (forEach l s f) = v s :=
  List.foldlRecOn (motive := fun t => v t = v s) l f rfl (fun _ h a _ => (hf _ a).trans h)

/-- A loop whose pass for `a` changes the entry at `a` alone, by a change that makes no difference the second time, changes the
entries that it lists. -/
theorem forEach_changes {α β : Type} [DecidableEq α] {v : State → α → Option β} {f : State → α → State} {h : β → β}
    (hf : ∀ s a x, v (f s a) x = if x = a then (v s x).map h else v s x) (hh : ∀ b, h (h b) = h b) (l : List α) (s : State)
    (x : α) : v (forEach l s f) x = if x ∈ l then (v s x).map h else v s x := by
  unfold forEach
  induction l generalizing s with
  | nil => simp
  | cons a l ih =>
    rw [List.foldl_cons, ih, hf]
    by_cases hx : x = a <;> by_cases hl : x ∈ l <;> simp [hx, hl, Function.comp_def, hh]

/-! ### Keys of a table -/

theorem mem_tkeys_of_tfind {α : Type} {t : Tab α} {k : Nat} {v : α} (h : tfind t k = some v) : k ∈ tkeys t :=
  List.mem_map.mpr ⟨(k, v), mem_of_tfind h, rfl⟩

theorem isSome_tfind_of_mem_tkeys {α : Type} {t : Tab α} {k : Nat} (h : k ∈ tkeys t) : (tfind t k).isSome = true := by
  induction t with
  | nil => simp [tkeys] at h
  | cons e r ih =>
    obtain ⟨j, v⟩ := e
    by_cases hj : j = k
    · simp [tfind, hj]
    · rw [tfind, if_neg hj]
      exact ih (by simpa [tkeys, Ne.symm hj] using h)

/-! ### Masks of a line -/

theorem bitAt_eq_testBit (x i : Nat) : bitAt x i = x.testBit i := by
  rw [bitAt, Nat.testBit_eq_decide_div_mod_eq]
  simp [beq_eq_decide]

theorem bitAt_zero (i : Nat) : bitAt 0 i = false := by simp [bitAt]

theorem bitAt_land (x y i : Nat) : bitAt (Nat.land x y) i = (bitAt x i && bitAt y i) := by
  simp only [bitAt_eq_testBit]
  exact Nat.testBit_and x y i

theorem bitAt_xor (x y i : Nat) : bitAt (Nat.xor x y) i = (bitAt x i != bitAt y i) := by
  simp only [bitAt_eq_testBit]
  exact Nat.testBit_xor x y i

theorem bitAt_lor (x y i : Nat) : bitAt (Nat.lor x y) i = (bitAt x i || bitAt y i) := by
  simp only [bitAt_eq_testBit]
  exact Nat.testBit_or x y i

theorem bitAt_maskOf (l : List Nat) (i : Nat) : bitAt (maskOf l) i = decide (i ∈ l) := by
  rw [show maskOf l = l.foldl setBit 0 from rfl, bitAt_foldl_setBit, bitAt_zero, Bool.false_or]

theorem bitAt_fullMask (i : Nat) : bitAt fullMask i = decide (i < 128) := by
  rw [bitAt_eq_testBit, fullMask, Nat.testBit_two_pow_sub_one]

theorem bitAt_notMask (m i : Nat) : bitAt (notMask m) i = (decide (i < 128) && !bitAt m i) := by
  have hlt : m % 2 ^ 128 < 2 ^ 128 := Nat.mod_lt _ (Nat.two_pow_pos _)
  rw [bitAt_eq_testBit, bitAt_eq_testBit, notMask, Nat.sub_sub, Nat.add_comm 1, Nat.testBit_two_pow_sub_succ hlt,
    Nat.testBit_mod_two_pow]
  by_cases hi : i < 128 <;> simp [hi]

/-- Nothing is left out of a mask with all 128 bits. -/
theorem notMask_eq_zero {m : Nat} (h : ∀ i, i < 128 → bitAt m i = true) : notMask m = 0 := by
  refine Nat.eq_of_testBit_eq fun i => ?_
  rw [← bitAt_eq_testBit, bitAt_notMask, Nat.zero_testBit]
  by_cases hi : i < 128 <;> simp [hi, h]

/-- A whole line under what is valid makes every byte valid. -/
theorem notMask_lor_full (m : Nat) : notMask (Nat.lor m (Nat.land fullMask (notMask m))) = 0 :=
  notMask_eq_zero fun i hi => by
    rw [bitAt_lor, bitAt_land, bitAt_fullMask, bitAt_notMask]
    simp [hi]

/-! ### A write home -/

@[simp] theorem cellarOf_modCore (s : State) (k : Nat) (f : Core → Core) (c : Nat) : cellarOf (modCore s k f) c = cellarOf s c := rfl

@[simp] theorem coreOf_modCellar (s : State) (c : Nat) (f : Cellar → Cellar) (k : Nat) : coreOf (modCellar s c f) k = coreOf s k := rfl

/-- Every cellar, and the fills of every core, are as they were. -/
structure keepsCellars (s t : State) : Prop where
  cellar : ∀ c, cellarOf t c = cellarOf s c
  fills : ∀ k, (coreOf t k).fills = (coreOf s k).fills

theorem keepsCellars.refl (s : State) : keepsCellars s s := ⟨fun _ => rfl, fun _ => rfl⟩

theorem keepsCellars.of_cells {s t : State} (hcellars : t.cells.cellars = s.cells.cellars) (hcores : t.cells.cores = s.cells.cores) :
    keepsCellars s t := ⟨fun c => by rw [cellarOf, cellarOf, hcellars], fun k => by rw [coreOf, coreOf, hcores]⟩

theorem keepsCellars.ite {s a b : State} {p : Prop} [Decidable p] (ha : keepsCellars s a) (hb : keepsCellars s b) :
    keepsCellars s (if p then a else b) := by
  split
  · exact ha
  · exact hb

theorem coreScratchWrite_keepsCellars (s : State) (k line : Nat) (b : Tab Byte) (pz : Nat) :
    keepsCellars s (coreScratchWrite s k line b pz) := by
  refine ⟨fun _ => rfl, fun j => ?_⟩
  by_cases hj : j = k
  · subst hj; simp [coreScratchWrite]
  · simp [coreScratchWrite, hj]

theorem writeLine_keepsCellars (s : State) (line : Nat) (b : Tab Byte) (pz : Nat) : keepsCellars s (writeLine s line b pz) := by
  unfold writeLine
  dsimp only
  split
  · exact .refl s
  · split
    · exact .ite (.refl s) (.of_cells (by simp) (by simp))
    · exact .ite (.refl s) (.of_cells (by simp) (by simp))
    · exact .ite (.refl s) (.of_cells (by simp) (by simp))
    · exact .ite (.refl s) (coreScratchWrite_keepsCellars ..)
    · exact .refl s

theorem writeHome_keepsCellars (s : State) (c line : Nat) (b : Tab Byte) (pz : Nat) (client : Client) :
    keepsCellars s (writeHome s c line b pz client).1 := by
  unfold writeHome
  simp only [apply_ite Prod.fst]
  exact .ite (.refl s) (.ite (.refl s) (.ite (writeLine_keepsCellars ..) (.of_cells rfl rfl)))

@[simp] theorem cellarOf_writeHome (s : State) (c line : Nat) (b : Tab Byte) (pz : Nat) (client : Client) (i : Nat) :
    cellarOf (writeHome s c line b pz client).1 i = cellarOf s i := (writeHome_keepsCellars s c line b pz client).cellar i

end Sys2Proof.Machine

end

section

/-! O42: a fill arrives at a core store or at a cellar buffer, and a tracker returns to idle (07 R195, R198, R201, R207). -/

namespace Sys2Proof.Machine

/-- A fill that brings every byte of its line. -/
def bringsAll (f : Fill) : Prop := f.valid = fullMask ∧ ∀ b, b < 128 → (tfind f.data b).isSome = true

theorem readyFill_line {t : Tab Fill} {line i : Nat} {f : Fill} (h : readyFill t line = some (i, f)) : f.line = line := by
  have hp := List.find?_some h
  simp only [Bool.and_eq_true, beq_iff_eq] at hp
  exact hp.1

/-! ### The line in the core store -/

/-- The line as the fill leaves it: merged under what it holds, unless the fill is only delivered. -/
def filledLine (f : Fill) (l : CacheLine) : CacheLine := if f.suppress then l else mergeUnder l f.data f.valid f.poison

/-- The lines of a core in which a fill is installed for `line`. -/
def filledLines (c : Core) (line : Nat) (f : Fill) : Tab CacheLine :=
  match coreFind c line with
  | none => c.lines
  | some key =>
    let l := filledLine f (tget c.lines key {})
    if settled c.fills l then tset c.lines key l else tdel c.lines key

/-- A fill is installed in a core store. -/
def coreInstall (s : State) (k line : Nat) (f : Fill) : State :=
  match coreFind (coreOf s k) line with
  | none => s
  | some key =>
    let l := filledLine f (tget (coreOf s k).lines key {})
    if settled (coreOf s k).fills l then setCoreLine s k key l
    else modCore s k (fun c => { c with lines := tdel c.lines key })

theorem coreOf_coreInstall (s : State) (k line : Nat) (f : Fill) :
    coreOf (coreInstall s k line f) k = { coreOf s k with lines := filledLines (coreOf s k) line f } := by
  unfold coreInstall filledLines
  split
  · rfl
  · dsimp only
    split <;> simp [setCoreLine]

/-- The core once fill `i` has gone. -/
def lessFill (c : Core) (i : Nat) : Core := { c with fills := tdel c.fills i }

/-- A fill that no CLEAN met goes, is installed, and serves the loads. -/
theorem coreFillArrives_eq {s : State} {k line i : Nat} {f : Fill} (h : readyFill (coreOf s k).fills line = some (i, f))
    (hclean : f.cleanAfter = false) : ∃ t, coreFillArrives s k line =
      forEach (tkeys (coreOf t k).loads) t (fun s id => loadTakesFill s k i f id) ∧
      coreOf t k = { lessFill (coreOf s k) i with lines := filledLines (lessFill (coreOf s k) i) line f } := by
  refine ⟨coreInstall (modCore s k (lessFill · i)) k line f, ?_, ?_⟩
  · unfold coreFillArrives
    rw [h]
    simp only [hclean, Bool.false_eq_true, if_false]
    rfl
  · rw [coreOf_coreInstall, coreOf_modCore_self]

/-- Where the fill is only delivered, a line that holds a byte is found as it was. -/
theorem filledLines_suppressed {c : Core} {line key : Nat} {f : Fill} {l : CacheLine} (hsup : f.suppress = true)
    (hl : tfind c.lines key = some l) (hvalid : l.valid ≠ 0) : tfind (filledLines c line f) key = some l := by
  unfold filledLines
  split
  · exact hl
  · rename_i key' _
    by_cases hk : key = key'
    · subst hk
      simp [filledLine, hsup, tget, hl, settled, hvalid]
    · dsimp only
      split <;> simp [hk, hl]

theorem filledLine_line (f : Fill) (l : CacheLine) : (filledLine f l).line = l.line := by
  unfold filledLine
  split <;> rfl

theorem filledLine_dirty (f : Fill) (l : CacheLine) : (filledLine f l).dirty = l.dirty := by
  unfold filledLine
  split <;> rfl

theorem notMask_filledLine {f : Fill} (hf : bringsAll f) (hsup : f.suppress = false) (l : CacheLine) :
    notMask (filledLine f l).valid = 0 := by
  rw [filledLine, hsup, hf.1]
  exact notMask_lor_full _

theorem coreFind_line {c : Core} {line key : Nat} {l : CacheLine} (h : coreFind c line = some key)
    (hl : tfind c.lines key = some l) : l.line = line := by
  have hp := List.find?_some h
  simpa [hl] using hp

/-- The line that was allocated for the fill is found filled. -/
theorem filledLines_found {c : Core} {line key : Nat} {f : Fill} {l : CacheLine} (hf : bringsAll f) (hsup : f.suppress = false)
    (hkey : coreFind c line = some key) (hl : tfind c.lines key = some l) :
    tfind (filledLines c line f) key = some (filledLine f l) := by
  have hvalid : (filledLine f l).valid ≠ 0 := fun h0 => by
    have hmask := notMask_filledLine hf hsup l
    rw [h0] at hmask
    exact absurd hmask (by decide)
  simp [filledLines, hkey, tget, hl, settled, hvalid]

/-! ### The loads that wait -/

/-- A load wants no byte beyond the line. -/
theorem lt_of_bitAt_wantedMask (r : LoadRec) (line b : Nat) (h : bitAt (wantedMask r line) b = true) : b < 128 := by
  refine List.foldlRecOn (motive := fun m => ∀ b, bitAt m b = true → b < 128) r.threads _ (fun b h => by simp [bitAt_zero] at h)
    (fun m hm t _ => List.foldlRecOn (motive := fun m => ∀ b, bitAt m b = true → b < 128) (List.range r.bytes) _ hm
      (fun m hm i _ b hb => ?_)) b h
  split at hb
  · rw [bitAt_setBit, Bool.or_eq_true, decide_eq_true_eq] at hb
    rcases hb with hb | rfl
    · exact hm b hb
    · exact Nat.mod_lt _ (by decide)
  · exact hm b hb

theorem bitAt_missingMask (r : LoadRec) (line b : Nat) :
    bitAt (missingMask r line) b = true ↔ bitAt (wantedMask r line) b = true ∧ (tfind r.got (line * 128 + b)).isNone = true := by
  rw [missingMask, bitAt_maskOf, decide_eq_true_eq, List.mem_filter, mem_maskBits, and_assoc]
  exact ⟨fun h => h.2, fun h => ⟨lt_of_bitAt_wantedMask r line b h.1, h⟩⟩

/-- Bytes laid over others are there, with those that were. -/
theorem isSome_takeBytes (a : Nat) (b m : Tab Byte) (x : Nat)
    (h : (tfind m (a + x)).isSome = true ∨ x ∈ tkeys b) :
    (tfind (b.foldl (fun t (e : Nat × Byte) => tset t (a + e.1) e.2) m) (a + x)).isSome = true := by
  induction b generalizing m with
  | nil => simpa [tkeys] using h
  | cons e b ih =>
    refine ih _ ?_
    by_cases hx : x = e.1
    · subst hx; simp
    · rw [tfind_tset_other _ _ _ _ (by omega)]
      simpa [tkeys, hx] using h

/-- A load record that the fill served: it has the bytes, and waits for the fill no more. -/
def tookFill (i : Nat) (f : Fill) (r : LoadRec) : LoadRec :=
  let m := Nat.land (missingMask r f.line) f.valid
  takeBytes { r with need := r.need.filter (· != i) } f.line (keepBytes f.data m) (Nat.land f.poison (sectorsOf m) != 0)

/-- The record after the arrival of fill `i`, whether it waited for it or not. -/
def servedLoad (i : Nat) (f : Fill) (r : LoadRec) : LoadRec := if i ∈ r.need then tookFill i f r else r

theorem servedLoad_servedLoad (i : Nat) (f : Fill) (r : LoadRec) : servedLoad i f (servedLoad i f r) = servedLoad i f r := by
  by_cases h : i ∈ r.need
  · have hgone : i ∉ (tookFill i f r).need := by simp [tookFill, takeBytes]
    simp [servedLoad, h, hgone]
  · simp [servedLoad, h]

/-- Of a whole fill a load has every byte that it wants. -/
theorem isSome_tookFill {f : Fill} (hf : bringsAll f) (i : Nat) (r : LoadRec) {b : Nat}
    (hb : bitAt (wantedMask r f.line) b = true) : (tfind (tookFill i f r).got (f.line * 128 + b)).isSome = true := by
  have hlt := lt_of_bitAt_wantedMask r f.line b hb
  refine isSome_takeBytes (f.line * 128) _ r.got b ?_
  by_cases hgot : (tfind r.got (f.line * 128 + b)).isSome = true
  · exact .inl hgot
  · obtain ⟨v, hv⟩ := Option.isSome_iff_exists.mp (hf.2 b hlt)
    have hmissing : bitAt (missingMask r f.line) b = true := (bitAt_missingMask r f.line b).mpr ⟨hb, by simpa using hgot⟩
    refine .inr (List.mem_map.mpr ⟨(b, v), List.mem_filter.mpr ⟨mem_of_tfind hv, ?_⟩, rfl⟩)
    rw [bitAt_land, hmissing, hf.1, bitAt_fullMask]
    simpa using hlt

/-- After a whole fill nothing of the line is missing. -/
theorem missingMask_tookFill {f : Fill} (hf : bringsAll f) (i : Nat) (r : LoadRec) : missingMask (tookFill i f r) f.line = 0 := by
  have hnone : (maskBits (wantedMask (tookFill i f r) f.line) 128).filter
      (fun b => (tfind (tookFill i f r).got (f.line * 128 + b)).isNone) = [] := by
    refine List.filter_eq_nil_iff.mpr fun b hb => ?_
    have hsome := isSome_tookFill hf i r ((mem_maskBits _ _ _).mp hb).2
    simpa [Option.isSome_iff_ne_none] using hsome
  rw [missingMask, hnone]
  rfl

/-- A load takes a whole fill in one step, and asks for nothing more. -/
theorem loadTakesFill_eq {f : Fill} (hf : bringsAll f) (s : State) (k i id : Nat) : loadTakesFill s k i f id =
    match tfind (coreOf s k).loads id with
    | none => s
    | some r => if i ∈ r.need then putLoad s k id (tookFill i f r) else s := by
  unfold loadTakesFill
  cases tfind (coreOf s k).loads id with
  | none => rfl
  | some r =>
    dsimp only
    by_cases hi : i ∈ r.need
    · rw [if_neg (by simp [hi]), if_pos hi]
      exact if_pos (missingMask_tookFill hf i r)
    · rw [if_pos (by simp [hi]), if_neg hi]

theorem loads_loadTakesFill {f : Fill} (hf : bringsAll f) (k i : Nat) (s : State) (id n : Nat) :
    tfind (coreOf (loadTakesFill s k i f id) k).loads n =
      if n = id then (tfind (coreOf s k).loads n).map (servedLoad i f) else tfind (coreOf s k).loads n := by
  rw [loadTakesFill_eq hf]
  by_cases hn : n = id
  · subst hn
    cases hr : tfind (coreOf s k).loads n with
    | none => simp [hr]
    | some r => by_cases hi : i ∈ r.need <;> simp [hi, hr, servedLoad, tfind_putLoad]
  · rw [if_neg hn]
    split
    · rfl
    · split
      · simp [putLoad, hn]
      · rfl

/-- A load that takes a whole fill leaves the lines and the fills of its core. -/
theorem loadTakesFill_leaves {f : Fill} (hf : bringsAll f) (k i : Nat) (s : State) (id : Nat) :
    ((coreOf (loadTakesFill s k i f id) k).lines, (coreOf (loadTakesFill s k i f id) k).fills) =
      ((coreOf s k).lines, (coreOf s k).fills) := by
  rw [loadTakesFill_eq hf]
  split
  · rfl
  · split
    · simp [putLoad]
    · rfl

/-- What a whole fill leaves of its core. -/
theorem coreFillArrives_whole {s : State} {k line i : Nat} {f : Fill} (h : readyFill (coreOf s k).fills line = some (i, f))
    (hf : bringsAll f) (hclean : f.cleanAfter = false) :
    (coreOf (coreFillArrives s k line) k).lines = filledLines (lessFill (coreOf s k) i) line f ∧
    (coreOf (coreFillArrives s k line) k).fills = tdel (coreOf s k).fills i ∧
    ∀ n r, tfind (coreOf s k).loads n = some r → tfind (coreOf (coreFillArrives s k line) k).loads n = some (servedLoad i f r) := by
  obtain ⟨t, heq, ht⟩ := coreFillArrives_eq h hclean
  have hkept := forEach_leaves (v := fun t => ((coreOf t k).lines, (coreOf t k).fills)) (loadTakesFill_leaves hf k i)
    (tkeys (coreOf t k).loads) t
  obtain ⟨hlines, hfills⟩ := Prod.mk.inj hkept
  rw [heq]
  refine ⟨by rw [hlines, ht], by rw [hfills, ht]; rfl, fun n r hr => ?_⟩
  have hload : tfind (coreOf t k).loads n = some r := by rw [ht]; exact hr
  rw [forEach_changes (v := fun t n => tfind (coreOf t k).loads n) (loads_loadTakesFill hf k i) (servedLoad_servedLoad i f),
    if_pos (mem_tkeys_of_tfind hload), hload, Option.map_some]

/-! ### The cellar buffer -/

/-- A core's fill that waited for a cellar's: ready, with the bytes of the cellar's line under its own. -/
def servedFill (f g : Fill) : Fill := if g.ready then g else fillComes g f.data f.valid f.poison

theorem servedFill_servedFill (f g : Fill) : servedFill f (servedFill f g) = servedFill f g := by
  by_cases h : g.ready = true
  · simp [servedFill, h]
  · simp [servedFill, h, fillComes]

theorem fills_modFill (f : Fill) (s : State) (w x : Nat × Nat) :
    tfind (coreOf (modFill s w.1 w.2 (servedFill f)) x.1).fills x.2 =
      if x = w then (tfind (coreOf s x.1).fills x.2).map (servedFill f) else tfind (coreOf s x.1).fills x.2 := by
  obtain ⟨k, n⟩ := x
  obtain ⟨j, m⟩ := w
  by_cases hk : k = j
  · subst hk
    by_cases hn : n = m <;> simp [modFill, hn]
  · simp [modFill, hk]

/-- The cleaning after the install leaves the fills. -/
theorem cellarCleanAfter_fills (s : State) (c line : Nat) :
    (cellarOf (cellarCleanAfter s c line) c).fills = (cellarOf s c).fills ∧
    ∀ k, (coreOf (cellarCleanAfter s c line) k).fills = (coreOf s k).fills := by
  unfold cellarCleanAfter
  split
  · exact ⟨rfl, fun _ => rfl⟩
  · dsimp only
    refine ⟨?_, fun k => ((writeHome_keepsCellars ..).fills k).trans rfl⟩
    rw [cellarOf_writeHome, setCellarLine, cellarOf_modCellar_self]

/-- A fill is installed in a cellar buffer, and its line cleaned where a CLEAN met it. -/
def cellarInstall (s : State) (c line : Nat) (f : Fill) : State :=
  let s := match cellarFind (cellarOf s c) line with
    | none => s
    | some key =>
      let l := filledLine f (tget (cellarOf s c).lines key {})
      if settled (cellarOf s c).fills l then setCellarLine s c key l
      else modCellar s c (fun cl => { cl with lines := tdel cl.lines key })
  if f.cleanAfter then cellarCleanAfter s c line else s

theorem cellarInstall_fills (s : State) (c line : Nat) (f : Fill) :
    (cellarOf (cellarInstall s c line f) c).fills = (cellarOf s c).fills ∧
    ∀ k, (coreOf (cellarInstall s c line f) k).fills = (coreOf s k).fills := by
  have hclean : ∀ t : State, (cellarOf t c).fills = (cellarOf s c).fills → (∀ k, coreOf t k = coreOf s k) →
      (cellarOf (if f.cleanAfter then cellarCleanAfter t c line else t) c).fills = (cellarOf s c).fills ∧
      ∀ k, (coreOf (if f.cleanAfter then cellarCleanAfter t c line else t) k).fills = (coreOf s k).fills := fun t ht hcores => by
    obtain ⟨hcellar, hfills⟩ := cellarCleanAfter_fills t c line
    split
    · exact ⟨hcellar.trans ht, fun k => by rw [hfills, hcores]⟩
    · exact ⟨ht, fun k => by rw [hcores]⟩
  refine hclean _ ?_ fun k => ?_
  · split
    · rfl
    · dsimp only
      split <;> simp [setCellarLine]
  · split
    · rfl
    · dsimp only
      split <;> rfl

/-- A fill at a cellar's buffer goes, and the core fills that wait for it are served. -/
theorem cellarFillArrives_fills {s : State} {c line i : Nat} {f : Fill} (h : readyFill (cellarOf s c).fills line = some (i, f)) :
    (cellarOf (cellarFillArrives s c line) c).fills = tdel (cellarOf s c).fills i ∧
    ∀ w ∈ f.waiters, tfind (coreOf (cellarFillArrives s c line) w.1).fills w.2 = (tfind (coreOf s w.1).fills w.2).map (servedFill f) := by
  have hloop : cellarFillArrives s c line = forEach f.waiters
      (cellarInstall (modCellar s c (fun cl => { cl with fills := tdel cl.fills i })) c line f)
      (fun s w => modFill s w.1 w.2 (servedFill f)) := by
    unfold cellarFillArrives
    rw [h]
    rfl
  obtain ⟨hgone, hcores⟩ := cellarInstall_fills (modCellar s c (fun cl => { cl with fills := tdel cl.fills i })) c line f
  rw [hloop]
  refine ⟨?_, fun w hw => ?_⟩
  · refine Eq.trans (forEach_leaves (v := fun t => (cellarOf t c).fills) (f := fun s w => modFill s w.1 w.2 (servedFill f))
      (fun _ _ => rfl) f.waiters _) (hgone.trans ?_)
    rw [cellarOf_modCellar_self]
  · rw [forEach_changes (v := fun t (w : Nat × Nat) => tfind (coreOf t w.1).fills w.2) (fills_modFill f) (servedFill_servedFill f),
      if_pos hw, hcores, coreOf_modCellar]

end Sys2Proof.Machine

namespace Sys2Proof

open Machine in
/-- Settles O42: the fill leaves, its line is filled, and what waits for it is served. -/
theorem cachesFillAndRelease : Obligations.CachesFillAndRelease := by
  refine ⟨fun k line i s f hready hvalid hdata hclean => ?_, fun c line i s f hready hvalid => ?_, fun c i s x hx h32 => ?_⟩
  · have hline := readyFill_line hready
    have hf : bringsAll f := ⟨hvalid, hdata⟩
    obtain ⟨hlines, hfills, hloads⟩ := coreFillArrives_whole hready hf hclean
    refine ⟨_, rfl, by rw [hfills]; exact tfind_tdel_self .., fun n r hr hneed => ?_, fun hsup key l hl hv => ?_, fun hnone => ?_,
      fun hsup key l hkey hl => ⟨filledLine f l, ?_, ?_, filledLine_dirty f l, notMask_filledLine hf hsup l⟩⟩
    · refine ⟨tookFill i f r, ?_, rfl, rfl, rfl, fun b hb => ?_⟩
      · rw [hloads n r hr, servedLoad, if_pos hneed]
      · subst hline
        exact isSome_tookFill hf i r hb
    · rw [hlines]
      exact filledLines_suppressed hsup hl hv
    · rw [hlines, filledLines, show coreFind (lessFill (coreOf s k) i) line = none from hnone]
      rfl
    · rw [hlines]
      exact filledLines_found hf hsup hkey hl
    · rw [filledLine_line, coreFind_line hkey hl]
  · obtain ⟨hgone, hserved⟩ := cellarFillArrives_fills hready
    refine ⟨_, rfl, by rw [hgone]; exact tfind_tdel_self .., fun k n g hw hg hwaits => ⟨servedFill f g, ?_, ?_⟩⟩
    · rw [hserved (k, n) hw, hg, Option.map_some]
    · rw [servedFill, if_neg (by simp [hwaits])]
      refine ⟨rfl, ?_, rfl, rfl⟩
      rw [hvalid]
      exact notMask_lor_full _
  · refine ⟨modCellar s c (fun cl => { cl with trackers := tdel cl.trackers i }), ?_, ?_, ?_, rfl, fun k hk => ?_⟩
    · show execTrackerIdleTimeout c i s = _
      simp [execTrackerIdleTimeout, hx, noalloc, h32]
    · simp
    · simp
    · exact cellarOf_modCellar_other s c k _ hk

end Sys2Proof

end

section

/-! A mover descriptor that runs: its state as its body finds it, and its end (09 R255). -/

namespace Sys2Proof.Machine

theorem jobId_of_jobFind {s : State} {c id : Nat} {j : MoverJob} (h : jobFind s c id = some j) : jobId j = id := by
  simpa using List.find?_some h

/-- A change of a descriptor at its place is found there. -/
theorem jobFind_modJob {s : State} {c id : Nat} {j : MoverJob} (h : jobFind s c id = some j) {f : MoverJob → MoverJob}
    (hf : ∀ k, jobId (f k) = jobId k) : jobFind (modJob s c id f) c id = some (f j) := by
  have hjobs : jobsOf (modJob s c id f) c = (jobsOf s c).map (fun k => if jobId k = id then f k else k) := by
    unfold jobsOf modJob tget
    rw [tfind_tmodIf_self]
    cases tfind s.larder.movers c <;> rfl
  have hid : ∀ k, (jobId (if jobId k = id then f k else k) == id) = (jobId k == id) := fun k => by
    by_cases hk : jobId k = id <;> simp [hk, hf]
  rw [jobFind, hjobs, List.find?_map, show ((fun k => jobId k == id) ∘ fun k => if jobId k = id then f k else k) =
    fun k => jobId k == id from funext hid, show (jobsOf s c).find? (fun k => jobId k == id) = some j from h]
  simp [jobId_of_jobFind h]

/-- The larder alone holds the descriptors. -/
theorem jobFind_congr {s t : State} (h : t.larder = s.larder) (c id : Nat) : jobFind t c id = jobFind s c id := by
  rw [jobFind, jobFind, jobsOf, jobsOf, h]

theorem descEnded_endJob {s : State} {c id : Nat} {j : MoverJob} (h : jobFind s c id = some j) (code done a0 a1 : Nat) :
    descEnded (endJob s c id code done a0 a1) c id code done a0 a1 := ⟨_, jobFind_modJob h (fun _ => rfl), rfl⟩

@[simp] theorem cellarOf_endJob (s : State) (c id code done a0 a1 i : Nat) :
    cellarOf (endJob s c id code done a0 a1) i = cellarOf s i := rfl

/-- A descriptor that runs is its body, on the state with the descriptor started. -/
theorem runJob_of_descRuns {s : State} {c id op : Nat} {j : MoverJob} (h : descRuns s c id op j)
    (body : State → MoverJob → Bytes → State) :
    runJob s c id op body = body (startedAt s c id j) { j with started := true } (jobBody s j) := by
  obtain ⟨hfind, hop, hresult, hstart⟩ := h
  have hrun : ¬ (bbits (jobBody s j) 0 8 ≠ op ∨ j.result.isSome = true) := by simp [hop, hresult]
  unfold runJob startedAt
  simp only [hfind, if_neg hrun]
  by_cases hs : j.started = true
  · simp only [hs, if_true]
    rw [show ({ j with started := true } : MoverJob) = j from by rw [← hs]]
  · rw [if_neg hs, if_neg hs, if_neg (by simpa [hs] using hstart)]

theorem jobFind_startedAt {s : State} {c id op : Nat} {j : MoverJob} (h : descRuns s c id op j) :
    jobFind (startedAt s c id j) c id = some { j with started := true } := by
  obtain ⟨hfind, -, -, -⟩ := h
  unfold startedAt
  split
  · rename_i hs
    rw [hfind, ← hs]
  · exact jobFind_modJob hfind (fun _ => rfl)

@[simp] theorem startedAt_frame (s : State) (c id : Nat) (j : MoverJob) :
    (startedAt s c id j).cells = s.cells ∧ (startedAt s c id j).mem = s.mem := by
  unfold startedAt
  split <;> simp

@[simp] theorem cellarOf_startedAt (s : State) (c id : Nat) (j : MoverJob) (i : Nat) : cellarOf (startedAt s c id j) i = cellarOf s i := by
  rw [cellarOf, (startedAt_frame s c id j).1, cellarOf]

@[simp] theorem coreOf_startedAt (s : State) (c id : Nat) (j : MoverJob) (k : Nat) : coreOf (startedAt s c id j) k = coreOf s k := by
  rw [coreOf, (startedAt_frame s c id j).1, coreOf]

/-- The start of a descriptor does not change what it may access. -/
theorem jobRefusal_startedAt (s : State) (c id : Nat) (j : MoverJob) (write : Bool) (a n : Nat) :
    jobRefusal (startedAt s c id j) { j with started := true } write a n = jobRefusal s j write a n := by
  unfold startedAt
  split <;> rfl

end Sys2Proof.Machine

end

section

/-! O43: INVAL, CLEAN and CLEAN_INVAL of a cellar buffer, and the locks of its ways (07 R203–R205, R208). -/

namespace Sys2Proof.Machine

/-! ### The checks of a descriptor see the state as it was -/

theorem maintBad_startedAt (s : State) (c id : Nat) (j : MoverJob) (b : Bytes) (lock : Bool) :
    maintBad (startedAt s c id j) c { j with started := true } b lock = maintBad s c j b lock := by
  simp [maintBad]

theorem maintWayKey_startedAt (s : State) (c id : Nat) (j : MoverJob) (m : Maint) :
    maintWayKey (startedAt s c id j) c m = maintWayKey s c m := by
  simp [maintWayKey]

theorem maintWaits_startedAt (s : State) (c id : Nat) (j : MoverJob) (m : Maint) :
    maintWaits (startedAt s c id j) c m = maintWaits s c m := by
  simp [maintWaits, maintWayKey_startedAt]

/-! ### One line, and the selected lines in turn -/

/-- What maintenance leaves of a line, which lies in a locked way or not (R208). -/
def keptLine (write drop locked : Bool) (l : CacheLine) : Option CacheLine :=
  if drop && !locked then none else if drop && !write then some l else some { l with dirty := 0 }

/-- A locked line is skipped by what drops lines. -/
def skipsKey (cl : Cellar) (drop : Bool) (key : Nat) : Bool := drop && bitAt cl.lockedWays (keyWay key)

/-- The lines at some keys of a cellar count so many. -/
def countKeys (cl : Cellar) (keys : List Nat) : Nat := sum (keys.map (fun k => lineCounts (tget cl.lines k {})))

/-- The lines at the keys have been maintained; nothing else of the lines, of the locks and of any other cellar has changed;
and what only discards has written no memory. -/
structure maintained (s t : State) (c : Nat) (keys : List Nat) (write drop : Bool) : Prop where
  lines : ∀ k, tfind (cellarOf t c).lines k = if k ∈ keys then
      (tfind (cellarOf s c).lines k).bind (keptLine write drop (bitAt (cellarOf s c).lockedWays (keyWay k)))
    else tfind (cellarOf s c).lines k
  locked : (cellarOf t c).lockedWays = (cellarOf s c).lockedWays
  others : ∀ i, i ≠ c → cellarOf t i = cellarOf s i
  mem : write = false → t.mem = s.mem

section

variable {s : State} {c : Nat} {write drop : Bool}

theorem maintained.nil (s : State) (c : Nat) (write drop : Bool) : maintained s s c [] write drop :=
  ⟨fun _ => rfl, rfl, fun _ _ => rfl, fun _ => rfl⟩

/-- One key, then others. -/
theorem maintained.cons {t u : State} {key : Nat} {keys : List Nat} (h : maintained s t c [key] write drop)
    (ht : maintained t u c keys write drop) (hkey : key ∉ keys) : maintained s u c (key :: keys) write drop := by
  refine ⟨fun k => ?_, ht.locked.trans h.locked, fun i hi => (ht.others i hi).trans (h.others i hi),
    fun hw => (ht.mem hw).trans (h.mem hw)⟩
  rw [ht.lines, h.lines, h.locked]
  by_cases hk : k = key
  · subst hk; simp [hkey]
  · simp [hk]

/-- The states before and after may differ from those of the maintenance outside the lines, the locks and the memory. -/
theorem maintained.congr {s' t t' : State} {keys : List Nat} (h : maintained s' t' c keys write drop)
    (hlines : (cellarOf s' c).lines = (cellarOf s c).lines) (hlocked : (cellarOf s' c).lockedWays = (cellarOf s c).lockedWays)
    (hothers : ∀ i, i ≠ c → cellarOf s' i = cellarOf s i) (hmem : s'.mem = s.mem) (hcells : ∀ i, cellarOf t i = cellarOf t' i)
    (htmem : write = false → t.mem = t'.mem) : maintained s t c keys write drop := by
  refine ⟨fun k => ?_, ?_, fun i hi => ?_, fun hw => ?_⟩
  · rw [hcells, h.lines, hlines, hlocked]
  · rw [hcells, h.locked, hlocked]
  · rw [hcells, h.others i hi, hothers i hi]
  · rw [htmem hw, h.mem hw, hmem]

variable {key : Nat} {l : CacheLine} (hl : tfind (cellarOf s c).lines key = some l)
include hl

theorem maintained.skip (hkept : keptLine write drop (bitAt (cellarOf s c).lockedWays (keyWay key)) l = some l) :
    maintained s s c [key] write drop := by
  refine ⟨fun k => ?_, rfl, fun _ _ => rfl, fun _ => rfl⟩
  by_cases hk : k = key
  · subst hk; simp [hl, hkept]
  · simp [hk]

theorem maintained.set {l' : CacheLine}
    (hkept : keptLine write drop (bitAt (cellarOf s c).lockedWays (keyWay key)) l = some l') :
    maintained s (setCellarLine s c key l') c [key] write drop := by
  refine ⟨fun k => ?_, by simp [setCellarLine], fun i hi => by simp [setCellarLine, hi], fun _ => rfl⟩
  by_cases hk : k = key
  · subst hk; simp [setCellarLine, hl, hkept]
  · simp [setCellarLine, hk]

theorem maintained.del (hkept : keptLine write drop (bitAt (cellarOf s c).lockedWays (keyWay key)) l = none) :
    maintained s (modCellar s c (fun cl => { cl with lines := tdel cl.lines key })) c [key] write drop := by
  refine ⟨fun k => ?_, by simp, fun i hi => by simp [hi], fun _ => rfl⟩
  by_cases hk : k = key
  · subst hk; simp [hl, hkept]
  · simp [hk]

end

/-- Dirty bytes go home where they are written. -/
theorem maintained.writeHome {s t : State} {c : Nat} {keys : List Nat} {drop : Bool} (h : maintained s t c keys true drop)
    (line : Nat) (b : Tab Byte) (pz : Nat) (client : Client) :
    maintained s (writeHome t c line b pz client).1 c keys true drop :=
  h.congr rfl rfl (fun _ _ => rfl) rfl (fun _ => cellarOf_writeHome ..) (fun hw => by cases hw)

/-- What is done with one selected line. -/
theorem maintCellarLine_maintained {s : State} {c key : Nat} {l : CacheLine} (hl : tfind (cellarOf s c).lines key = some l)
    (client : Client) (write drop : Bool) (n : MaintCount) :
    maintained s (maintCellarLine s c key client write drop n).1 c [key] write drop := by
  have hget : tget (cellarOf s c).lines key {} = l := by rw [tget, hl, Option.getD_some]
  unfold maintCellarLine
  simp only [hget]
  by_cases hskip : drop = true ∧ bitAt (cellarOf s c).lockedWays (keyWay key) = true
  · obtain ⟨rfl, hlocked⟩ := hskip
    rw [if_pos ⟨rfl, hlocked⟩]
    by_cases hput : write = true ∧ l.dirty ≠ 0
    · rw [if_pos hput]
      obtain ⟨rfl, -⟩ := hput
      exact (maintained.set hl (by simp [keptLine, hlocked])).writeHome ..
    · rw [if_neg hput]
      refine maintained.skip hl ?_
      cases write with
      | false => simp [keptLine, hlocked]
      | true =>
        have hclean : l.dirty = 0 := by simpa using hput
        simp [keptLine, hlocked, ← hclean]
  · rw [if_neg hskip]
    have hline : maintained s (if drop = true then modCellar s c (fun cl => { cl with lines := tdel cl.lines key })
        else setCellarLine s c key { l with dirty := 0 }) c [key] write drop := by
      cases drop with
      | true =>
        have hunlocked : bitAt (cellarOf s c).lockedWays (keyWay key) = false := by simpa using hskip
        exact maintained.del hl (by simp [keptLine, hunlocked])
      | false => exact maintained.set hl (by simp [keptLine])
    dsimp only
    split
    · rename_i hput
      obtain ⟨rfl, -⟩ := hput
      exact hline.writeHome ..
    · exact hline

/-- How one selected line counts. -/
theorem maintCellarLine_counts (s : State) (c key : Nat) (client : Client) (write drop : Bool) (n : MaintCount) :
    (maintCellarLine s c key client write drop n).2.lines =
      n.lines + (if skipsKey (cellarOf s c) drop key then 0 else lineCounts (tget (cellarOf s c).lines key {})) ∧
    (maintCellarLine s c key client write drop n).2.skipped =
      n.skipped + (if skipsKey (cellarOf s c) drop key then lineCounts (tget (cellarOf s c).lines key {}) else 0) := by
  unfold maintCellarLine skipsKey
  dsimp only
  by_cases hskip : drop = true ∧ bitAt (cellarOf s c).lockedWays (keyWay key) = true
  · rw [if_pos hskip]
    split <;> simp [hskip]
  · rw [if_neg hskip]
    simp [hskip]

/-- The selected lines, one after the other. -/
def sweep (c : Nat) (client : Client) (write drop : Bool) (keys : List Nat) (r : State × MaintCount) : State × MaintCount :=
  keys.foldl (fun r key => maintCellarLine r.1 c key client write drop r.2) r

theorem countKeys_cons (cl : Cellar) (key : Nat) (keys : List Nat) :
    countKeys cl (key :: keys) = lineCounts (tget cl.lines key {}) + countKeys cl keys := by
  simp only [countKeys, sum, List.map_cons, ← List.sum_eq_foldl, List.sum_cons]

/-- The lines of a cellar that agree at the keys count the same. -/
theorem countKeys_congr {cl cl' : Cellar} {keys : List Nat} (h : ∀ k ∈ keys, tfind cl'.lines k = tfind cl.lines k) :
    countKeys cl' keys = countKeys cl keys := by
  unfold countKeys
  congr 1
  exact List.map_congr_left fun k hk => by rw [tget, tget, h k hk]

/-- The sweep maintains the lines that it is given, and counts them as they were. -/
theorem sweep_maintained {c : Nat} {client : Client} {write drop : Bool} {keys : List Nat} (hnodup : keys.Nodup) (s : State)
    (n : MaintCount) (hlisted : ∀ k ∈ keys, (tfind (cellarOf s c).lines k).isSome = true) :
    maintained s (sweep c client write drop keys (s, n)).1 c keys write drop ∧
    (sweep c client write drop keys (s, n)).2.lines =
      n.lines + countKeys (cellarOf s c) (keys.filter (fun k => !skipsKey (cellarOf s c) drop k)) ∧
    (sweep c client write drop keys (s, n)).2.skipped =
      n.skipped + countKeys (cellarOf s c) (keys.filter (skipsKey (cellarOf s c) drop)) := by
  induction keys generalizing s n with
  | nil => exact ⟨.nil .., rfl, rfl⟩
  | cons key keys ih =>
    obtain ⟨hkey, hnodup⟩ := List.nodup_cons.mp hnodup
    obtain ⟨l, hl⟩ := Option.isSome_iff_exists.mp (hlisted key List.mem_cons_self)
    have hone := maintCellarLine_maintained hl client write drop n
    obtain ⟨hlines1, hskipped1⟩ := maintCellarLine_counts s c key client write drop n
    rw [sweep, List.foldl_cons, ← sweep]
    generalize maintCellarLine s c key client write drop n = r at *
    obtain ⟨t, n'⟩ := r
    have hsame : ∀ k ∈ keys, tfind (cellarOf t c).lines k = tfind (cellarOf s c).lines k := fun k hk => by
      rw [hone.lines, if_neg]
      rintro h
      exact hkey (List.mem_singleton.mp h ▸ hk)
    have hskips : skipsKey (cellarOf t c) drop = skipsKey (cellarOf s c) drop := by
      funext k
      rw [skipsKey, skipsKey, hone.locked]
    have hcount : ∀ p, countKeys (cellarOf t c) (keys.filter p) = countKeys (cellarOf s c) (keys.filter p) := fun p =>
      countKeys_congr fun k hk => hsame k (List.mem_of_mem_filter hk)
    obtain ⟨hrest, hlines, hskipped⟩ := ih hnodup t n' fun k hk => by
      rw [hsame k hk]
      exact hlisted k (List.mem_cons_of_mem key hk)
    rw [hskips, hcount] at hlines hskipped
    refine ⟨hone.cons hrest hkey, hlines.trans ?_, hskipped.trans ?_⟩
    · rw [hlines1, List.filter_cons]
      by_cases hs : skipsKey (cellarOf s c) drop key = true <;> simp [hs, countKeys_cons, Nat.add_assoc]
    · rw [hskipped1, List.filter_cons]
      by_cases hs : skipsKey (cellarOf s c) drop key = true <;> simp [hs, countKeys_cons, Nat.add_assoc]

/-! ### The descriptor -/

/-- A descriptor selects keys of the table, each once where the table lists each once. -/
theorem maintKeys_sublist (t : Tab CacheLine) (m : Maint) (wayKey : Nat) : (maintKeys t m wayKey).Sublist (tkeys t) := by
  unfold maintKeys
  split <;> exact List.filter_sublist.map _

/-- The cellar with the fills that a range operation meets marked (07 Table 7-5). -/
def marked (s : State) (c : Nat) (m : Maint) (clean : Bool) : State :=
  modCellar s c (fun x => { x with fills := markFills x.fills m clean })

/-- A cellar's descriptor that passes its checks marks the fills, sweeps the lines that it selects, and ends with the
counts. -/
theorem maintain_eq {s : State} {c : Nat} {j : MoverJob} {b : Bytes} (hcellar : (maintOf b).coreTarget = false)
    (hbad : maintBad s c j b false = false) (hwaits : maintWaits s c (maintOf b) = false)
    (hrange : (maintOf b).byWay = false → jobRefusal s j false (maintOf b).addr (maintOf b).length = none) (write drop : Bool) :
    ∃ r, r = sweep c (.moverWrite c j.step j.part) write drop (maintKeys (cellarOf s c).lines (maintOf b) (maintWayKey s c (maintOf b)))
        (marked s c (maintOf b) (!drop), {}) ∧
      maintain s c j b write drop = endJob r.1 c (jobId j) 0 r.2.lines r.2.skipped r.2.aux := by
  have hadmitted : (if (maintOf b).byWay then none else jobRefusal s j false (maintOf b).addr (maintOf b).length) = none := by
    cases hway : (maintOf b).byWay with
    | false => simpa using hrange hway
    | true => rfl
  refine ⟨_, rfl, ?_⟩
  unfold maintain
  simp only [hbad, hwaits, hadmitted, hcellar, Bool.false_eq_true, if_false]
  rfl

/-- The fills that are marked are no part of the lines, the locks and the memory. -/
theorem maintained.of_marked {s t : State} {c : Nat} {m : Maint} {clean write drop : Bool} {keys : List Nat}
    (h : maintained (marked s c m clean) t c keys write drop) : maintained s t c keys write drop :=
  h.congr (by simp [marked]) (by simp [marked]) (fun i hi => by simp [marked, hi]) rfl (fun _ => rfl) (fun _ => rfl)

/-- What a sweep of selected lines leaves and counts, the fills marked first. -/
theorem sweep_marked {s : State} {c : Nat} {client : Client} {m : Maint} {clean write drop : Bool} {keys : List Nat}
    (hsub : keys.Sublist (tkeys (cellarOf s c).lines)) (hnodup : (tkeys (cellarOf s c).lines).Nodup) {r : State × MaintCount}
    (hr : r = sweep c client write drop keys (marked s c m clean, {})) :
    maintained s r.1 c keys write drop ∧ r.1.larder = s.larder ∧
    r.2.lines = countKeys (cellarOf s c) (keys.filter (fun k => !skipsKey (cellarOf s c) drop k)) ∧
    r.2.skipped = countKeys (cellarOf s c) (keys.filter (skipsKey (cellarOf s c) drop)) := by
  have hcellar : cellarOf (marked s c m clean) c = { cellarOf s c with fills := markFills (cellarOf s c).fills m clean } :=
    cellarOf_modCellar_self ..
  obtain ⟨hswept, hcount, hskipped⟩ := sweep_maintained (client := client) (write := write) (drop := drop)
    (hnodup.sublist hsub) (marked s c m clean) {} fun k hk => by
      rw [hcellar]
      exact isSome_tfind_of_mem_tkeys (hsub.subset hk)
  rw [hcellar, ← hr, Nat.zero_add] at hcount hskipped
  rw [← hr] at hswept
  refine ⟨hswept.of_marked, ?_, hcount, hskipped⟩
  rw [hr]
  simp [sweep, marked]

/-- A cellar's descriptor that runs and passes its checks ends with the counts, and leaves its lines maintained. -/
theorem runMaintain_maintained {s : State} {c id op : Nat} {j : MoverJob} {m : Maint} {sel : List Nat} (h : descRuns s c id op j)
    (hm : m = maintOf (jobBody s j)) (hcellar : m.coreTarget = false) (hbad : maintBad s c j (jobBody s j) false = false)
    (hwaits : maintWaits s c m = false) (hrange : m.byWay = false → jobRefusal s j false m.addr m.length = none)
    (hsel : sel = maintKeys (cellarOf s c).lines m (maintWayKey s c m)) (hnodup : (tkeys (cellarOf s c).lines).Nodup)
    (write drop : Bool) :
    ∃ t aux, runJob s c id op (fun s j b => maintain s c j b write drop) = t ∧
      descEnded t c id 0 (countKeys (cellarOf s c) (sel.filter (fun k => !skipsKey (cellarOf s c) drop k)))
        (countKeys (cellarOf s c) (sel.filter (skipsKey (cellarOf s c) drop))) aux ∧
      maintained s t c sel write drop := by
  subst hm
  obtain ⟨r, hr, heq⟩ := maintain_eq (s := startedAt s c id j) (j := { j with started := true }) (b := jobBody s j) hcellar
    (by rwa [maintBad_startedAt]) (by rwa [maintWaits_startedAt]) (by rwa [jobRefusal_startedAt]) write drop
  rw [maintWayKey_startedAt, cellarOf_startedAt, ← hsel] at hr
  have hsub : sel.Sublist (tkeys (cellarOf s c).lines) := hsel ▸ maintKeys_sublist ..
  obtain ⟨hkept, hlarder, hlines, hskipped⟩ := sweep_marked (by rwa [cellarOf_startedAt]) (by rwa [cellarOf_startedAt]) hr
  rw [cellarOf_startedAt] at hlines hskipped
  have hfind := jobFind_startedAt h
  rw [jobId_of_jobFind hfind, hlines, hskipped] at heq
  refine ⟨_, r.2.aux, (runJob_of_descRuns h _).trans heq, descEnded_endJob ((jobFind_congr hlarder c id).trans hfind) .., ?_⟩
  exact hkept.congr (by rw [cellarOf_startedAt]) (by rw [cellarOf_startedAt]) (fun i _ => cellarOf_startedAt s c id j i)
    (startedAt_frame s c id j).2 (fun _ => rfl) (fun _ => rfl)

/-- What drops no line skips none. -/
theorem filter_skipsKey_keep (cl : Cellar) (keys : List Nat) :
    keys.filter (fun k => !skipsKey cl false k) = keys ∧ keys.filter (skipsKey cl false) = [] :=
  ⟨List.filter_eq_self.mpr fun _ _ => rfl, List.filter_eq_nil_iff.mpr fun _ _ => Bool.false_ne_true⟩

/-! ### Way locks -/

/-- The bits that a mask shares with the locks are taken from them. -/
theorem bitAt_xor_land (x y i : Nat) : bitAt (Nat.xor x (Nat.land x y)) i = (bitAt x i && !bitAt y i) := by
  rw [bitAt_xor, bitAt_land]
  cases bitAt x i <;> cases bitAt y i <;> rfl

/-- The locked ways of a cellar change, and nothing else. -/
def setLocks (s : State) (c mask : Nat) : State := modCellar s c (fun x => { x with lockedWays := mask })

section

variable {s : State} {c id : Nat} {j : MoverJob}

/-- A lock of more ways without a preload (R205). -/
theorem execWayLock_locks {mask : Nat} (h : descRuns s c id 0x33 j)
    (hmask : mask = Nat.lor (cellarOf s c).lockedWays (maintOf (jobBody s j)).wayMask)
    (hbad : maintBad s c j (jobBody s j) true = false) (hallowed : lockAllowed (cellarOf s c) mask = true)
    (hlength : (maintOf (jobBody s j)).length = 0) :
    exec (.wayLock c id) s = .next (endJob (setLocks (startedAt s c id j) c mask) c id 0 (linesInWays (cellarOf s c)
      (Nat.land (maintOf (jobBody s j)).wayMask (2 ^ 16 - 1 - (cellarOf s c).lockedWays))) 0 0) := by
  subst hmask
  refine congrArg Host.Outcome.next ?_
  rw [runJob_of_descRuns h]
  simp only [maintBad_startedAt, cellarOf_startedAt, hbad, hallowed, hlength]
  rfl

/-- A lock that the descriptor's form or the limits forbid. -/
theorem execWayLock_malformed (h : descRuns s c id 0x33 j) (hrefused : maintBad s c j (jobBody s j) true = true ∨
      lockAllowed (cellarOf s c) (Nat.lor (cellarOf s c).lockedWays (maintOf (jobBody s j)).wayMask) = false) :
    exec (.wayLock c id) s = .next (endJob (startedAt s c id j) c id 2 0 0 0) := by
  refine congrArg Host.Outcome.next ?_
  rw [runJob_of_descRuns h]
  refine if_pos ?_
  rw [maintBad_startedAt, cellarOf_startedAt]
  rcases hrefused with hbad | hrefused
  · rw [hbad]; rfl
  · rw [hrefused]; simp

/-- An unlock of the ways of a mask (R205). -/
theorem execWayUnlock_unlocks (h : descRuns s c id 0x34 j) (hbad : maintBad s c j (jobBody s j) true = false) :
    exec (.wayUnlock c id) s = .next (endJob (setLocks (startedAt s c id j) c (Nat.xor (cellarOf s c).lockedWays
        (Nat.land (cellarOf s c).lockedWays (maintOf (jobBody s j)).wayMask))) c id 0
      (linesInWays (cellarOf s c) (Nat.land (cellarOf s c).lockedWays (maintOf (jobBody s j)).wayMask)) 0 0) := by
  refine congrArg Host.Outcome.next ?_
  rw [runJob_of_descRuns h]
  simp only [maintBad_startedAt, cellarOf_startedAt, hbad]
  rfl

/-- After a change of the locks and the end of its descriptor. -/
theorem endJob_setLocks {op : Nat} (h : descRuns s c id op j) (mask code done a0 a1 : Nat) :
    descEnded (endJob (setLocks (startedAt s c id j) c mask) c id code done a0 a1) c id code done a0 a1 ∧
    cellarOf (endJob (setLocks (startedAt s c id j) c mask) c id code done a0 a1) c = { cellarOf s c with lockedWays := mask } ∧
    (endJob (setLocks (startedAt s c id j) c mask) c id code done a0 a1).mem = s.mem := by
  refine ⟨descEnded_endJob (j := { j with started := true }) ?_ .., ?_, ?_⟩
  · rw [← jobFind_startedAt h]
    exact jobFind_congr rfl c id
  · rw [cellarOf_endJob, setLocks, cellarOf_modCellar_self, cellarOf_startedAt]
  · rw [(endJob_frame ..).2.2.2.2.2.2.2.2.1]
    exact (startedAt_frame s c id j).2

end

end Sys2Proof.Machine

namespace Sys2Proof

open Machine in
/-- Settles O43: the selected lines one after the other, and the locks as one change of the mask. -/
theorem maintenanceOfLines : Obligations.MaintenanceOfLines := by
  refine ⟨fun c id s j m sel hm hcellar hbad hwaits hrange hsel hnodup => ?_, fun c id s j m mask h hm hmask => ?_,
    fun c id s j h hbad => ?_⟩
  · have hrun := fun op (h : descRuns s c id op j) =>
      runMaintain_maintained h hm hcellar hbad hwaits hrange hsel hnodup
    refine ⟨fun h => ?_, fun h => ?_, fun h => ?_⟩
    · obtain ⟨t, aux, rfl, hended, hkept⟩ := hrun _ h false true
      refine ⟨_, aux, rfl, hended, fun k hk hlocked => ?_, fun k hk => ?_, hkept.mem rfl, hkept.others⟩
      · rw [hkept.lines, if_pos hk, hlocked]
        cases tfind (cellarOf s c).lines k <;> rfl
      · rw [hkept.lines]
        split
        · rw [hk.resolve_left (not_not_intro ‹_›)]
          cases tfind (cellarOf s c).lines k <;> rfl
        · rfl
    · obtain ⟨t, aux, rfl, hended, hkept⟩ := hrun _ h true true
      refine ⟨_, aux, rfl, hended, fun k hk hlocked => ?_, fun k l hlocked hl => ?_, hkept.others⟩
      · rw [hkept.lines, if_pos hk, hlocked]
        cases tfind (cellarOf s c).lines k <;> rfl
      · rw [hkept.lines, hl, hlocked]
        split <;> rfl
    · obtain ⟨t, aux, rfl, hended, hkept⟩ := hrun _ h true false
      obtain ⟨hall, hnone⟩ := filter_skipsKey_keep (cellarOf s c) sel
      rw [hall, hnone] at hended
      refine ⟨_, aux, rfl, hended, fun k l hl => ?_, hkept.others⟩
      rw [hkept.lines, hl]
      split <;> simp [keptLine]
  · subst hm hmask
    refine ⟨fun hbad hallowed hlength => ?_, fun hrefused => ⟨_, execWayLock_malformed h hrefused,
      descEnded_endJob (jobFind_startedAt h) .., (startedAt_frame s c id j).1, (startedAt_frame s c id j).2⟩⟩
    obtain ⟨hended, hcellar, hmem⟩ := endJob_setLocks h
      (Nat.lor (cellarOf s c).lockedWays (maintOf (jobBody s j)).wayMask) 0 _ 0 0
    exact ⟨_, _, execWayLock_locks h rfl hbad hallowed hlength, hended, by rw [hcellar], by rw [hcellar], hmem⟩
  · obtain ⟨hended, hcellar, hmem⟩ := endJob_setLocks h (Nat.xor (cellarOf s c).lockedWays
      (Nat.land (cellarOf s c).lockedWays (maintOf (jobBody s j)).wayMask)) 0
      (linesInWays (cellarOf s c) (Nat.land (cellarOf s c).lockedWays (maintOf (jobBody s j)).wayMask)) 0 0
    refine ⟨_, execWayUnlock_unlocks h hbad, hended, fun w => ?_, by rw [hcellar], hmem⟩
    rw [hcellar]
    exact bitAt_xor_land ..

end Sys2Proof

end

section

/-! O33 fails: a SEQ_CLOSE cancels moves that have not begun, and the steps that they were made for count them no longer (09
R268). -/

namespace Sys2Proof.Machine

/-- SEQ_CLOSE of entry 1 in its first generation, without CANCEL_PENDING. -/
def plainClose : Taken := { hdr := { opcode := 0x0301 }, req := leBytes 16 65537 }

/-- Sequence 1 is open, step 0 names it and waits, and the move of its page 3 for that step has not begun. -/
def promotingState : State :=
  { State.reset with
      cp := { State.reset.cp with chans := [(0, { state := .taken, taken := some plainClose })] }
      larder := { State.reset.larder with
        seqs := [(1, { sstate := .opened, maxPages := 1, pages := [(0, 3)] })]
        pages := [(3, { pstate := .resident, seq := 1 }), (4, { pstate := .moving, seq := 1 })]
        moves := [{ src := 3, dst := 4, seq := 1, step := some 0 }]
        steps := [(0, { batch := [65537], touches := [{ seq := 65537, count := 1 }], pagesMoved := 1 })] } }

theorem promotingState_runs : runs promotingState 0 0x0301 plainClose := ⟨rfl, rfl, rfl, rfl⟩

/-- PAGES_MOVED of the waiting step falls to 0 with its cancelled move. -/
theorem promotingState_close : (match exec (.seqClose 0) promotingState with
    | .next t => (stepOf t 0).map (·.pagesMoved)
    | _ => none) = some 0 := by decide +kernel

end Sys2Proof.Machine

namespace Sys2Proof

open Machine in
/-- Refutes O33: a SEQ_CLOSE with CANCEL_PENDING 0 cancels a move that has not begun, and the waiting step that the move was
made for counts one page less. -/
theorem not_sequencesOpenAndClose : ¬ Obligations.SequencesOpenAndClose := by
  rintro ⟨-, hclose, -⟩
  obtain ⟨hplain, -⟩ := hclose 0 promotingState plainClose 65537 promotingState_runs (by decide +kernel) (by decide +kernel)
    (by decide +kernel)
  obtain ⟨t, hexec, -, -, hsteps⟩ := hplain (by decide +kernel)
  have hmoved := promotingState_close
  rw [hexec] at hmoved
  have hkept : (stepOf t 0).map (·.pagesMoved) = some 1 := by rw [stepOf, hsteps]; rfl
  exact absurd (hmoved.symm.trans hkept) (by decide)

end Sys2Proof

end

section

/-! O34 fails: in a state where a core names a free slot of the step table, the step that a STEP_SUBMIT puts there can be
stopped before the command ends (04 R118, 09 R258, R266). -/

namespace Sys2Proof.Machine

/-- STEP_SUBMIT of one core of one cellar, one group of kernel 0 of image 1, for sequence 1, budget 1. -/
def oneCoreStep : Taken :=
  { hdr := { opcode := 0x0302 }
    req := leBytes 16 (0x10 + 2 ^ 16 + 2 ^ 32 + (1 + 2 ^ 7 + 2 ^ 14) * 2 ^ 96) ++ leBytes 48 1 ++ leBytes 16 65537 }

/-- Thread 0 of a group waits on peg 0 at the last word of a matrix region. -/
def regionGroup : Group :=
  { exited := 2 ^ 64 - 2, waits := [(0, .peg 0)], region := some { entry := 1 } }

/-- Core 0 names slot 0, which no step holds, and its thread waits on peg 0; the step in slot 1 ended without running, and its
DONE_PEG is peg 0. -/
def strayCoreState : State :=
  { State.reset with
      boot := { State.reset.boot with presentCellars := 1, presentCores := [(0, 1)], presentShelves := 1 }
      cp := { State.reset.cp with chans := [(0, { state := .taken, taken := some oneCoreStep })] }
      cells := { State.reset.cells with
        cores := [(0, { groups := [(0, regionGroup)], step := some 0 })]
        pegs := [(0, { ptype := .event, waiters := [{ threads := [0] }] })] }
      larder := { State.reset.larder with
        seqs := [(1, { sstate := .opened, maxPages := 1 })]
        steps := [(1, { phase := .unrun, donePeg := some 0 })] }
      part := { State.reset.part with
        parts := [(0, { pstate := .active, regions := [{ larder := true, length := 16 }] })]
        images := [(1, { part := 0, words := 64, kernels := [(16, 3, 0)], loaded := true })] } }

theorem strayCoreState_runs : runs strayCoreState 0 0x0302 oneCoreStep := ⟨rfl, rfl, rfl, rfl⟩

/-- The new step's admission settles the record of slot 1, whose DONE_PEG ends the wait of the thread on core 0; the thread
leaves its region, and the step that core 0 names stops: the new one. -/
theorem strayCoreState_submit : (match exec (.stepSubmit 0) strayCoreState with
    | .next t => (stepOf t 0).map Step.phase
    | _ => none) = some .ending := by decide +kernel

end Sys2Proof.Machine

namespace Sys2Proof

open Machine in
/-- Refutes O34: an accepted step without a touch list need not be waiting when its STEP_SUBMIT ends, where a core already
names the slot that it is given; the statement asks nothing of the cores. -/
theorem not_stepsBeginAndEnd : ¬ Obligations.StepsBeginAndEnd := by
  rintro ⟨hsubmit, -⟩
  obtain ⟨t, hexec, -, hadded⟩ := hsubmit 0 strayCoreState oneCoreStep strayCoreState_runs (by decide +kernel)
  obtain ⟨st, hst, hphase, -⟩ := hadded (by decide +kernel) (by decide +kernel) 0 (by decide) rfl
  have hending := strayCoreState_submit
  rw [hexec] at hending
  have hwaiting : (stepOf t 0).map Step.phase = some .waiting := by rw [hst, Option.map_some, hphase]
  exact absurd (hending.symm.trans hwaiting) (by decide)

end Sys2Proof

end

section

/-! A range of bytes cut into the lines that it touches, and the bytes that fall in each (07 R194). -/

namespace Sys2Proof.Machine

theorem mem_linesOf {a n l : Nat} : l ∈ linesOf a n ↔ 0 < n ∧ a / 128 ≤ l ∧ l ≤ (a + n - 1) / 128 := by
  unfold linesOf
  split
  · next h => simp [h]
  · next h =>
    simp only [List.mem_map, List.mem_range]
    constructor
    · rintro ⟨i, hi, rfl⟩
      omega
    · rintro ⟨-, hlo, hhi⟩
      exact ⟨l - a / 128, by omega, by omega⟩

theorem linesOf_nodup (a n : Nat) : (linesOf a n).Nodup := by
  unfold linesOf
  split
  · exact List.nodup_nil
  · exact List.nodup_range.map (fun _ _ h => Nat.add_left_cancel h)

/-- The line of a byte of the range is among its lines. -/
theorem mem_linesOf_of_byte {a n x : Nat} (hlo : a ≤ x) (hhi : x < a + n) : x / 128 ∈ linesOf a n :=
  mem_linesOf.mpr ⟨by omega, Nat.div_le_div_right hlo, Nat.div_le_div_right (by omega)⟩

/-- The offsets of a byte string laid into a line from `o` on. -/
def laidFrom (o : Nat) (b : Bytes) : Tab Byte := b.zipIdx.map (fun p => (o + p.2, p.1))

/-- Bytes laid over memory read back, and every other byte reads as it did. -/
theorem memRead_putTable_laidFrom {m : Memory} (hm : Memory.wf m = true) (base o : Nat) (b : Bytes) (x : Nat) :
    memRead (putTable m base (laidFrom o b)) x =
      if base + o ≤ x ∧ x < base + o + b.length then nth b (x - (base + o)) 0 else memRead m x := by
  induction b using List.reverseRecOn with
  | nil => simp [laidFrom, putTable]
  | append_singleton b v ih =>
    have hput : putTable m base (laidFrom o (b ++ [v])) = memWrite (putTable m base (laidFrom o b)) (base + (o + b.length)) v := by
      simp [laidFrom, putTable, List.zipIdx_append]
    rw [hput]
    by_cases hlast : x = base + (o + b.length)
    · subst hlast
      rw [memRead_memWrite_self (putTable_wf hm ..), if_pos (by simp; omega)]
      simp [nth, show base + (o + b.length) - (base + o) = b.length by omega]
    · rw [memRead_memWrite_other _ _ hlast, ih, List.length_append, List.length_singleton]
      by_cases hin : base + o ≤ x ∧ x < base + o + b.length
      · rw [if_pos hin, if_pos (by omega)]
        simp [nth, List.getElem?_append_left (show x - (base + o) < b.length by omega)]
      · rw [if_neg hin, if_neg (by omega)]

/-- The offset in a line at which a range that begins at `a` enters it. -/
def lineStart (a l : Nat) : Nat := if l * 128 < a then a - l * 128 else 0

theorem bytesOfLine_eq (a : Nat) (b : Bytes) (l : Nat) : bytesOfLine a b l =
    laidFrom (lineStart a l) ((b.drop (l * 128 + lineStart a l - a)).take (128 - lineStart a l)) := rfl

/-- The bytes of a line, laid over memory: those of the string that fall in the line. -/
theorem memRead_putTable_bytesOfLine {m : Memory} (hm : Memory.wf m = true) (a : Nat) (b : Bytes) (l x : Nat) :
    memRead (putTable m (l * 128) (bytesOfLine a b l)) x =
      if x / 128 = l ∧ a ≤ x ∧ x < a + b.length then nth b (x - a) 0 else memRead m x := by
  rw [bytesOfLine_eq, memRead_putTable_laidFrom hm]
  by_cases hin : x / 128 = l ∧ a ≤ x ∧ x < a + b.length
  · have hlen : l * 128 + lineStart a l ≤ x ∧ x < l * 128 + lineStart a l +
        ((b.drop (l * 128 + lineStart a l - a)).take (128 - lineStart a l)).length := by
      simp only [lineStart, List.length_take, List.length_drop]
      split <;> omega
    rw [if_pos hin, if_pos hlen]
    have hat : x - (l * 128 + lineStart a l) < 128 - lineStart a l := by
      simp only [lineStart]
      split <;> omega
    have hsum : l * 128 + lineStart a l - a + (x - (l * 128 + lineStart a l)) = x - a := by
      simp only [lineStart] at hlen ⊢
      split <;> omega
    simp [nth, List.getElem?_take_of_lt hat, hsum]
  · rw [if_neg hin, if_neg]
    simp only [lineStart, List.length_take, List.length_drop]
    split <;> omega

/-- Where a line of the range begins to hold its bytes: at the range's first byte in it. -/
theorem bytesOfLine_head {a l : Nat} {b : Bytes} (hl : l ∈ linesOf a b.length) :
    ∃ v rest, bytesOfLine a b l = (lineStart a l, v) :: rest := by
  rw [bytesOfLine_eq]
  obtain ⟨hpos, hlo, hhi⟩ := mem_linesOf.mp hl
  have hlen : 0 < ((b.drop (l * 128 + lineStart a l - a)).take (128 - lineStart a l)).length := by
    simp only [lineStart, List.length_take, List.length_drop]
    split <;> omega
  obtain ⟨v, rest, hb⟩ := List.exists_cons_of_length_pos hlen
  exact ⟨v, _, by rw [hb, laidFrom, List.zipIdx_cons, List.map_cons]; rfl⟩

theorem lineStart_in {a n l : Nat} (hl : l ∈ linesOf a n) :
    lineStart a l < 128 ∧ a ≤ l * 128 + lineStart a l ∧ l * 128 + lineStart a l < a + n := by
  obtain ⟨hpos, hlo, hhi⟩ := mem_linesOf.mp hl
  unfold lineStart
  split <;> omega

end Sys2Proof.Machine

end

section

/-! What the writes of a mover leave of the map of memory: where every address lies, and which cellars a reset holds (08 R212,
09 R255). -/

namespace Sys2Proof.Machine

/-- All that the map of memory rests on is as it was, and so are the resets of the cellars. -/
structure samePlaces (s t : State) : Prop where
  boot : t.boot = s.boot
  pwr : t.pwr = s.pwr
  attic : t.attic = s.attic
  chord : t.chord = s.chord
  shelves : t.mem.shelves = s.mem.shelves
  far : t.mem.far = s.mem.far
  banks : ∀ c, (cellarOf t c).scratchBanks = (cellarOf s c).scratchBanks
  resetting : ∀ c, (cellarOf t c).resetting = (cellarOf s c).resetting
  units : ∀ k, (coreOf t k).scratchUnits = (coreOf s k).scratchUnits

theorem samePlaces.refl (s : State) : samePlaces s s := ⟨rfl, rfl, rfl, rfl, rfl, rfl, fun _ => rfl, fun _ => rfl, fun _ => rfl⟩

theorem samePlaces.trans {s t u : State} (h : samePlaces s t) (k : samePlaces t u) : samePlaces s u :=
  ⟨k.boot.trans h.boot, k.pwr.trans h.pwr, k.attic.trans h.attic, k.chord.trans h.chord, k.shelves.trans h.shelves,
    k.far.trans h.far, fun c => (k.banks c).trans (h.banks c), fun c => (k.resetting c).trans (h.resetting c),
    fun i => (k.units i).trans (h.units i)⟩

/-- What changes neither cells nor memory, and leaves the rest that the map rests on. -/
theorem samePlaces.of_frame {s t : State} (hboot : t.boot = s.boot) (hpwr : t.pwr = s.pwr) (hattic : t.attic = s.attic)
    (hchord : t.chord = s.chord) (hcells : t.cells = s.cells) (hmem : t.mem = s.mem) : samePlaces s t :=
  ⟨hboot, hpwr, hattic, hchord, by rw [hmem], by rw [hmem], fun c => by rw [cellarOf, hcells, cellarOf],
    fun c => by rw [cellarOf, hcells, cellarOf], fun k => by rw [coreOf, hcells, coreOf]⟩

theorem samePlaces.placeOf {s t : State} (h : samePlaces s t) (a : Nat) : placeOf t a = placeOf s a := by
  have hshelf : ∀ n, shelfOf t n = shelfOf s n := fun n => by rw [shelfOf, h.shelves, shelfOf]
  have hfar : ∀ p, farOf t p = farOf s p := fun p => by rw [farOf, h.far, farOf]
  have hlive : ∀ d, domainLive t d = domainLive s d := fun d => by rw [domainLive, domainOf, h.pwr, domainLive, domainOf]
  have hdom : ∀ d, domainOf t d = domainOf s d := fun d => by rw [domainOf, h.pwr, domainOf]
  have hsite : ∀ n, siteOf t n = siteOf s n := fun n => by rw [siteOf, h.attic, siteOf]
  have hdecoder : farDecoder t a = farDecoder s a := by simp only [farDecoder, hfar]
  have hcellar : ∀ c, cellarUp t c = cellarUp s c := fun c => by rw [cellarUp, h.boot, hlive, cellarUp]
  have hcore : ∀ k, coreUp t k = coreUp s k := fun k => by rw [coreUp, h.boot, hcellar, coreUp]
  have hmapped : ∀ n, shelfMapped t n = shelfMapped s n := fun n => by rw [shelfMapped, h.boot, hshelf, hdom, shelfMapped]
  have husable : ∀ n, shelfUsable t n = shelfUsable s n := fun n => by rw [shelfUsable, hshelf, shelfUsable]
  unfold Machine.placeOf
  simp only [hdecoder, hcellar, hcore, hmapped, husable, hlive, hsite, h.chord, h.banks, h.units]

theorem samePlaces.ownLine {s t : State} (h : samePlaces s t) (c l : Nat) : ownLine t c l = ownLine s c l := by
  simp only [Machine.ownLine, tracked, h.attic, h.placeOf]

theorem samePlaces.ownRange {s t : State} (h : samePlaces s t) {c a n : Nat} : ownRange t c a n ↔ ownRange s c a n := by
  simp only [Machine.ownRange, h.ownLine]

theorem samePlaces.inScratch {s t : State} (h : samePlaces s t) {a n : Nat} : inScratch t a n ↔ inScratch s a n := by
  simp only [Machine.inScratch, h.placeOf, h.resetting]

/-- A byte of a scratch that no reset holds reads as memory holds it. -/
theorem readByte_inScratch {s : State} {a n i : Nat} (h : inScratch s a n) (hi : i < n) :
    (readByte s (a + i)).1 = memRead s.mem.bytes (a + i) := by
  obtain ⟨c, hplace, hreset⟩ := h i hi
  simp [readByte, hplace, hreset]

/-! ### A line lies in one place of its cellar -/

/-- An address of the scratch windows. -/
def inScratchWindow (x : Nat) : Prop := scratchBase ≤ x ∧ x < scratchBase + 64 * scratchStride

/-- An address of the core-store windows. -/
def inCoreWindow (x : Nat) : Prop := coreBase ≤ x ∧ x < coreBase + 4096 * coreStride

theorem placeOf_scratchWindow (s : State) {x : Nat} (h : inScratchWindow x) : placeOf s x =
    if cellarUp s ((x - scratchBase) / scratchStride) &&
      decide ((x - scratchBase) % scratchStride < (cellarOf s ((x - scratchBase) / scratchStride)).scratchBanks * 0x80000)
    then .scratch ((x - scratchBase) / scratchStride) else .unmapped := by
  obtain ⟨hlo, hhi⟩ := h
  have hshelf : ¬ x < 12 * shelfSize := by simp only [scratchBase, shelfSize] at hlo ⊢; omega
  unfold placeOf
  rw [if_neg hshelf, if_neg (by omega), if_pos hhi]

theorem placeOf_coreWindow (s : State) {x : Nat} (h : inCoreWindow x) : placeOf s x =
    if coreUp s ((x - coreBase) / coreStride) &&
      decide ((x - coreBase) % coreStride < (coreOf s ((x - coreBase) / coreStride)).scratchUnits * 0x10000)
    then .coreStore ((x - coreBase) / coreStride) else .unmapped := by
  obtain ⟨hlo, hhi⟩ := h
  have hshelf : ¬ x < 12 * shelfSize := by simp only [coreBase, shelfSize] at hlo ⊢; omega
  have hscratch : ¬ x < scratchBase + 64 * scratchStride := by
    simp only [coreBase, scratchBase, scratchStride] at hlo ⊢; omega
  unfold placeOf
  rw [if_neg hshelf, if_neg (by omega), if_neg hscratch, if_pos ⟨hlo, hhi⟩]

theorem inScratchWindow_of_placeOf {s : State} {x k : Nat} (h : placeOf s x = .scratch k) : inScratchWindow x := by
  unfold placeOf at h
  unfold inScratchWindow
  dsimp only at h
  split at h
  · split at h <;> cases h
  · split at h
    · cases h
    · split at h
      · omega
      · (repeat' split at h) <;> cases h

theorem inCoreWindow_of_placeOf {s : State} {x k : Nat} (h : placeOf s x = .coreStore k) : inCoreWindow x := by
  unfold placeOf at h
  dsimp only at h
  split at h
  · split at h <;> cases h
  · split at h
    · cases h
    · split at h
      · split at h <;> cases h
      · split at h
        · assumption
        · (repeat' split at h) <;> cases h

/-- The bytes of a line of a scratch lie where the line does. -/
theorem placeOf_scratch_line {s : State} {l o k : Nat} (h : placeOf s (l * 128) = .scratch k) (ho : o < 128) :
    placeOf s (l * 128 + o) = .scratch k := by
  have hwin := inScratchWindow_of_placeOf h
  have hwin' : inScratchWindow (l * 128 + o) := by
    simp only [inScratchWindow, scratchBase, scratchStride] at hwin ⊢; omega
  have hcellar : (l * 128 + o - scratchBase) / scratchStride = (l * 128 - scratchBase) / scratchStride := by
    simp only [inScratchWindow, scratchBase, scratchStride] at hwin ⊢; omega
  have hoff : ∀ n, (l * 128 + o - scratchBase) % scratchStride < n * 0x80000 ↔ (l * 128 - scratchBase) % scratchStride < n * 0x80000 := by
    simp only [inScratchWindow, scratchBase, scratchStride] at hwin ⊢; omega
  rw [placeOf_scratchWindow s hwin']
  rw [placeOf_scratchWindow s hwin] at h
  simp only [hcellar, hoff, h]

/-- The bytes of a line of a core's scratch lie where the line does. -/
theorem placeOf_coreStore_line {s : State} {l o k : Nat} (h : placeOf s (l * 128) = .coreStore k) (ho : o < 128) :
    placeOf s (l * 128 + o) = .coreStore k := by
  have hwin := inCoreWindow_of_placeOf h
  have hwin' : inCoreWindow (l * 128 + o) := by
    simp only [inCoreWindow, coreBase, coreStride] at hwin ⊢; omega
  have hcore : (l * 128 + o - coreBase) / coreStride = (l * 128 - coreBase) / coreStride := by
    simp only [inCoreWindow, coreBase, coreStride] at hwin ⊢; omega
  have hoff : ∀ n, (l * 128 + o - coreBase) % coreStride < n * 0x10000 ↔ (l * 128 - coreBase) % coreStride < n * 0x10000 := by
    simp only [inCoreWindow, coreBase, coreStride] at hwin ⊢; omega
  rw [placeOf_coreWindow s hwin']
  rw [placeOf_coreWindow s hwin] at h
  simp only [hcore, hoff, h]

/-- A line of the cellar's own lies in a scratch or in a core's store, with all its bytes. -/
theorem ownLine_place {s : State} {c l o : Nat} (h : ownLine s c l = true) (ho : o < 128) :
    (∃ k, placeOf s (l * 128 + o) = .scratch k) ∨ ∃ k, placeOf s (l * 128 + o) = .coreStore k := by
  simp only [ownLine, Bool.and_eq_true] at h
  obtain ⟨-, h⟩ := h
  split at h
  · next hp => exact .inl ⟨_, placeOf_scratch_line hp ho⟩
  · next hp => exact .inr ⟨_, placeOf_coreStore_line hp ho⟩
  · cases h

end Sys2Proof.Machine

end

section

/-! The writes of a mover's descriptor: inside its cellar at once, elsewhere by transactions of its port (09 R255). -/

namespace Sys2Proof.Machine

/-! ### Changes inside a cellar -/

theorem samePlaces.modCellar (s : State) (c : Nat) {f : Cellar → Cellar} (hbanks : ∀ x, (f x).scratchBanks = x.scratchBanks)
    (hreset : ∀ x, (f x).resetting = x.resetting) : samePlaces s (modCellar s c f) := by
  refine ⟨rfl, rfl, rfl, rfl, rfl, rfl, fun i => ?_, fun i => ?_, fun _ => rfl⟩ <;>
    · by_cases hi : i = c
      · subst hi; simp [hbanks, hreset]
      · simp [hi]

theorem samePlaces.modCore (s : State) (k : Nat) {f : Core → Core} (hunits : ∀ x, (f x).scratchUnits = x.scratchUnits) :
    samePlaces s (modCore s k f) := by
  refine ⟨rfl, rfl, rfl, rfl, rfl, rfl, fun _ => rfl, fun _ => rfl, fun i => ?_⟩
  by_cases hi : i = k
  · subst hi; simp [hunits]
  · simp [hi]

/-- The map of memory, the transactions and their count are as they were. -/
structure writesInside (s t : State) : Prop extends samePlaces s t where
  txns : t.mem.txns = s.mem.txns
  nextId : t.cells.nextId = s.cells.nextId

theorem writesInside.refl (s : State) : writesInside s s := ⟨.refl s, rfl, rfl⟩

theorem writesInside.trans {s t u : State} (h : writesInside s t) (k : writesInside t u) : writesInside s u :=
  ⟨h.tosamePlaces.trans k.tosamePlaces, k.txns.trans h.txns, k.nextId.trans h.nextId⟩

theorem uncache_writesInside (s : State) (c l m : Nat) : writesInside s (uncache s c l m) := by
  unfold uncache
  split
  · exact .refl s
  · exact ⟨.modCellar s c (fun _ => rfl) (fun _ => rfl), rfl, rfl⟩

theorem uncache_mem (s : State) (c l m : Nat) : (uncache s c l m).mem = s.mem := by simp

/-- A scratch takes bytes: memory holds them, and nothing else of it changes but poison. -/
theorem scratchWrite_mem (s : State) (l : Nat) (b : Tab Byte) (pz : Nat) :
    ∃ p, (scratchWrite s l b pz).mem = { s.mem with bytes := putTable s.mem.bytes (l * 128) b, poison := p } := by
  unfold scratchWrite forEach
  refine List.foldlRecOn (motive := fun (t : State) => ∃ p, t.mem = { s.mem with bytes := putTable s.mem.bytes (l * 128) b, poison := p })
    _ _ ⟨s.mem.poison, rfl⟩ ?_
  rintro t ⟨p, ht⟩ q -
  dsimp only
  split
  · exact ⟨_, by rw [setPoison, ht]⟩
  · split
    · exact ⟨_, by rw [setPoison, ht]⟩
    · exact ⟨p, ht⟩

theorem scratchWrite_writesInside (s : State) (l : Nat) (b : Tab Byte) (pz : Nat) : writesInside s (scratchWrite s l b pz) := by
  obtain ⟨p, hmem⟩ := scratchWrite_mem s l b pz
  have hcells : (scratchWrite s l b pz).cells = s.cells := by simp
  exact ⟨⟨by simp, by simp, by simp, by simp, by rw [hmem], by rw [hmem], fun _ => by rw [cellarOf, hcells, cellarOf],
    fun _ => by rw [cellarOf, hcells, cellarOf], fun _ => by rw [coreOf, hcells, coreOf]⟩, by rw [hmem], by rw [hcells]⟩

theorem coreScratchWrite_writesInside (s : State) (k l : Nat) (b : Tab Byte) (pz : Nat) :
    writesInside s (coreScratchWrite s k l b pz) :=
  ⟨.modCore s k (fun _ => rfl), rfl, rfl⟩

/-- A line of the cellar's own is written inside it. -/
theorem writeLine_writesInside {s : State} {c l : Nat} (h : ownLine s c l = true) {a : Nat} {b : Bytes}
    (hl : l ∈ linesOf a b.length) (pz : Nat) : writesInside s (writeLine s l (bytesOfLine a b l) pz) := by
  obtain ⟨v, rest, hb⟩ := bytesOfLine_head hl
  rw [hb]
  unfold writeLine
  obtain ⟨k, hp⟩ | ⟨k, hp⟩ := ownLine_place h (lineStart_in hl).1
  · simp only [hp]
    split
    · exact .refl s
    · exact scratchWrite_writesInside ..
  · simp only [hp]
    split
    · exact .refl s
    · exact coreScratchWrite_writesInside ..

/-- A line of a scratch that no reset holds takes its bytes. -/
theorem writeLine_inScratch {s : State} {a l : Nat} {b : Bytes} (h : inScratch s a b.length) (hl : l ∈ linesOf a b.length)
    (pz : Nat) : writeLine s l (bytesOfLine a b l) pz = scratchWrite s l (bytesOfLine a b l) pz := by
  obtain ⟨v, rest, hb⟩ := bytesOfLine_head hl
  obtain ⟨-, hlo, hhi⟩ := lineStart_in hl
  obtain ⟨k, hp, hreset⟩ := h (l * 128 + lineStart a l - a) (by omega)
  rw [show a + (l * 128 + lineStart a l - a) = l * 128 + lineStart a l by omega] at hp
  rw [hb]
  simp [writeLine, hp, hreset]

/-! ### One line, and the lines of a range in turn -/

/-- The poisoned sectors of what a line takes. -/
def pieceMask (a : Nat) (b : Bytes) (pz : Nat → Bool) (l : Nat) : Nat :=
  maskOf ((List.range 4).filter (fun q => (bytesOfLine a b l).any (fun e => e.1 / 32 == q && pz (l * 128 + e.1 - a))))

/-- One line of a write. -/
def writePiece (c : Nat) (j : MoverJob) (a : Nat) (b : Bytes) (pz : Nat → Bool) (s : State) (l : Nat) : State :=
  let s := uncache s c l (maskOfBytes (bytesOfLine a b l))
  if ownLine s c l then writeLine s l (bytesOfLine a b l) (pieceMask a b pz l)
  else jobTxn s c j { kind := .write, hpa := l * 128, bytes := (bytesOfLine a b l).length, data := bytesOfLine a b l
                      poison := pieceMask a b pz l, client := .moverWrite c j.step j.part }

theorem jobWrite_eq (s : State) (c : Nat) (j : MoverJob) (a : Nat) (b : Bytes) (pz : Nat → Bool) :
    jobWrite s c j a b pz = forEach (linesOf a b.length) s (writePiece c j a b pz) := rfl

/-- A write of these bytes of a line waits at a port, for this descriptor. -/
def writeWaits (c : Nat) (j : MoverJob) (a : Nat) (b : Bytes) (l : Nat) (x : Txn) : Prop :=
  x.phase = .waiting ∧ x.kind = .write ∧ x.client = .moverWrite c j.step j.part ∧ x.hpa = l * 128 ∧ x.data = bytesOfLine a b l

theorem jobTxn_samePlaces (s : State) (c : Nat) (j : MoverJob) (t : Txn) : samePlaces s (jobTxn s c j t) :=
  ⟨by simp, by simp, by simp, by simp, rfl, rfl, fun _ => rfl, fun _ => rfl, fun _ => rfl⟩

section

variable {s : State} {c : Nat} {j : MoverJob} {a : Nat} {b : Bytes} {pz : Nat → Bool} {l : Nat}

/-- A line of the cellar's own is written inside the cellar. -/
theorem writePiece_own (h : ownLine s c l = true) : writePiece c j a b pz s l =
    writeLine (uncache s c l (maskOfBytes (bytesOfLine a b l))) l (bytesOfLine a b l) (pieceMask a b pz l) := by
  have hown := (uncache_writesInside s c l (maskOfBytes (bytesOfLine a b l))).ownLine c l
  rw [writePiece, if_pos (hown.trans h)]

theorem writePiece_writesInside (h : ownLine s c l = true) (hl : l ∈ linesOf a b.length) :
    writesInside s (writePiece c j a b pz s l) := by
  have huncache := uncache_writesInside s c l (maskOfBytes (bytesOfLine a b l))
  rw [writePiece_own h]
  exact huncache.trans (writeLine_writesInside ((huncache.ownLine c l).trans h) hl _)

/-- Any other line leaves as a transaction of the port, behind those before it. -/
theorem writePiece_port (h : ownLine s c l = false) : samePlaces s (writePiece c j a b pz s l) ∧
    (writePiece c j a b pz s l).cells.nextId = s.cells.nextId + 1 ∧
    (∀ i, i ≠ s.cells.nextId → txnOf (writePiece c j a b pz s l) i = txnOf s i) ∧
    ∃ x, txnOf (writePiece c j a b pz s l) s.cells.nextId = some x ∧ writeWaits c j a b l x := by
  have huncache := uncache_writesInside s c l (maskOfBytes (bytesOfLine a b l))
  have hown := (huncache.ownLine c l).trans h
  rw [writePiece, if_neg (by rw [hown]; exact Bool.false_ne_true)]
  refine ⟨huncache.tosamePlaces.trans (jobTxn_samePlaces ..), ?_, fun i hi => ?_, ?_⟩
  · rw [jobTxn, newTxn_nextId, huncache.nextId]
  · rw [jobTxn, txnOf_newTxn_other _ _ _ (by rwa [huncache.nextId]), txnOf, huncache.txns, txnOf]
  · rw [jobTxn, ← huncache.nextId]
    obtain ⟨x, hx, u, p, rfl⟩ := txnOf_newTxn_self (uncache s c l (maskOfBytes (bytesOfLine a b l))) _
    exact ⟨_, hx, rfl, rfl, rfl, rfl, rfl⟩

/-- What is written of some lines of a range, in turn. -/
theorem forEach_writePiece {ls : List Nat} (hls : ∀ l ∈ ls, l ∈ linesOf a b.length) (s : State) :
    samePlaces s (forEach ls s (writePiece c j a b pz)) ∧
    (∀ i, i < s.cells.nextId → txnOf (forEach ls s (writePiece c j a b pz)) i = txnOf s i) ∧
    ∀ l ∈ ls, ownLine s c l = false → ∃ i x, txnOf (forEach ls s (writePiece c j a b pz)) i = some x ∧ writeWaits c j a b l x := by
  unfold forEach
  induction ls generalizing s with
  | nil => exact ⟨.refl s, fun _ _ => rfl, fun _ h => absurd h List.not_mem_nil⟩
  | cons l ls ih =>
    obtain ⟨hplaces, hold, hnew⟩ := ih (fun k hk => hls k (List.mem_cons_of_mem _ hk)) (writePiece c j a b pz s l)
    rw [List.foldl_cons]
    cases hown : ownLine s c l
    case true =>
      have hin := writePiece_writesInside (j := j) (pz := pz) hown (hls l List.mem_cons_self)
      refine ⟨hin.tosamePlaces.trans hplaces, fun i hi => ?_, fun k hk hkown => ?_⟩
      · rw [hold i (by rwa [hin.nextId]), txnOf, hin.txns, txnOf]
      · obtain rfl | hk := List.mem_cons.mp hk
        · rw [hown] at hkown; cases hkown
        · exact hnew k hk (by rwa [hin.ownLine])
    case false =>
      obtain ⟨hpiece, hid, hothers, x, hx, hwaits⟩ := writePiece_port (j := j) (a := a) (b := b) (pz := pz) hown
      refine ⟨hpiece.trans hplaces, fun i hi => ?_, fun k hk hkown => ?_⟩
      · rw [hold i (by omega), hothers i (by omega)]
      · obtain rfl | hk := List.mem_cons.mp hk
        · exact ⟨s.cells.nextId, x, by rw [hold _ (by omega), hx], hwaits⟩
        · exact hnew k hk (by rwa [hpiece.ownLine])

/-- Lines of the cellar's own, in turn: every change stays inside the cellar. -/
theorem forEach_writePiece_own {ls : List Nat} (hls : ∀ l ∈ ls, l ∈ linesOf a b.length) (s : State)
    (hown : ∀ l ∈ ls, ownLine s c l = true) : writesInside s (forEach ls s (writePiece c j a b pz)) := by
  unfold forEach
  induction ls generalizing s with
  | nil => exact .refl s
  | cons l ls ih =>
    have hin := writePiece_writesInside (j := j) (pz := pz) (hown l List.mem_cons_self) (hls l List.mem_cons_self)
    exact hin.trans (ih (fun k hk => hls k (List.mem_cons_of_mem _ hk)) _
      (fun k hk => by rw [hin.ownLine]; exact hown k (List.mem_cons_of_mem _ hk)))

/-- Lines of a scratch of the cellar's own, in turn: each holds its bytes of the range. -/
theorem forEach_writePiece_bytes {ls : List Nat} (hls : ∀ l ∈ ls, l ∈ linesOf a b.length) (s : State)
    (hown : ∀ l ∈ ls, ownLine s c l = true) (hscratch : inScratch s a b.length) (hwf : Memory.wf s.mem.bytes = true) (x : Nat) :
    memRead (forEach ls s (writePiece c j a b pz)).mem.bytes x =
      if x / 128 ∈ ls ∧ a ≤ x ∧ x < a + b.length then nth b (x - a) 0 else memRead s.mem.bytes x := by
  unfold forEach
  induction ls generalizing s with
  | nil => simp
  | cons l ls ih =>
    have hl := hls l List.mem_cons_self
    have hin := writePiece_writesInside (j := j) (pz := pz) (hown l List.mem_cons_self) hl
    have huncache := uncache_writesInside s c l (maskOfBytes (bytesOfLine a b l))
    have hbytes : (writePiece c j a b pz s l).mem.bytes = putTable s.mem.bytes (l * 128) (bytesOfLine a b l) := by
      rw [writePiece_own (hown l List.mem_cons_self), writeLine_inScratch (huncache.inScratch.mpr hscratch) hl]
      obtain ⟨p, hp⟩ := scratchWrite_mem (uncache s c l (maskOfBytes (bytesOfLine a b l))) l (bytesOfLine a b l) (pieceMask a b pz l)
      rw [hp, uncache_mem]
    rw [List.foldl_cons, ih (fun k hk => hls k (List.mem_cons_of_mem _ hk)) _
      (fun k hk => by rw [hin.ownLine]; exact hown k (List.mem_cons_of_mem _ hk)) (hin.inScratch.mpr hscratch)
      (by rw [hbytes]; exact putTable_wf hwf ..), hbytes, memRead_putTable_bytesOfLine hwf]
    by_cases hx : a ≤ x ∧ x < a + b.length
    · by_cases hhead : x / 128 = l <;> by_cases htail : x / 128 ∈ ls <;> simp [hx, hhead, htail]
    · simp [hx]

/-! ### The write of a range -/

theorem jobWrite_samePlaces (s : State) (c : Nat) (j : MoverJob) (a : Nat) (b : Bytes) (pz : Nat → Bool) :
    samePlaces s (jobWrite s c j a b pz) := (forEach_writePiece (fun _ h => h) s).1

/-- Every line that the cellar does not hold itself goes out through the port. -/
theorem jobWrites_jobWrite (s : State) (c : Nat) (j : MoverJob) (a : Nat) (b : Bytes) (pz : Nat → Bool) :
    jobWrites s (jobWrite s c j a b pz) c j a b := (forEach_writePiece (fun _ h => h) s).2.2

theorem jobWrite_writesInside (h : ownRange s c a b.length) : writesInside s (jobWrite s c j a b pz) :=
  forEach_writePiece_own (fun _ h => h) s h

/-- A write into scratches of the cellar's own changes the bytes of the range, and no others. -/
theorem wroteBytes_jobWrite (hown : ownRange s c a b.length) (hscratch : inScratch s a b.length)
    (hwf : Memory.wf s.mem.bytes = true) : wroteBytes s (jobWrite s c j a b pz) a b := by
  have hread := forEach_writePiece_bytes (j := j) (pz := pz) (fun _ h => h) s hown hscratch hwf
  refine ⟨fun i hi => ?_, fun x hx => ?_⟩
  · rw [readByte_inScratch ((jobWrite_samePlaces ..).inScratch.mpr hscratch) hi, jobWrite_eq, hread,
      if_pos ⟨mem_linesOf_of_byte (by omega) (by omega), by omega, by omega⟩, Nat.add_sub_cancel_left]
  · rw [jobWrite_eq, hread, if_neg (by omega)]

end

end Sys2Proof.Machine

end

section

/-! The reads of a mover's descriptor: a line that is not at hand is fetched through the port (09 R255). -/

namespace Sys2Proof.Machine

/-- Only the queue of transactions and the count of numbers have changed. -/
def onlyTxns (s t : State) : Prop :=
  t = { s with cells := { s.cells with nextId := t.cells.nextId }, mem := { s.mem with txns := t.mem.txns } }

theorem onlyTxns.refl (s : State) : onlyTxns s s := rfl

theorem onlyTxns.jobTxn {s t : State} (h : onlyTxns s t) (c : Nat) (j : MoverJob) (x : Txn) : onlyTxns s (jobTxn t c j x) := by
  unfold onlyTxns at h
  rw [h]
  rfl

section

variable {s t : State} {c : Nat} {j : MoverJob} {a n : Nat}

theorem onlyTxns.ownLine (h : onlyTxns s t) (c l : Nat) : ownLine t c l = ownLine s c l := by
  unfold onlyTxns at h
  rw [h]
  rfl

theorem onlyTxns.bufferHolds (h : onlyTxns s t) (c a n l : Nat) : bufferHolds t c a n l = bufferHolds s c a n l := by
  unfold onlyTxns at h
  rw [h]
  rfl

theorem onlyTxns.jobMaster (h : onlyTxns s t) (c slot : Nat) : jobMaster t c slot = jobMaster s c slot := by
  unfold onlyTxns at h
  rw [h]
  rfl

/-- The descriptor's fetch from an address is on its way. -/
def fetching (s : State) (c : Nat) (j : MoverJob) (x : Nat) : Bool :=
  s.mem.txns.any (fun e => e.2.client == .moverRead c j.step j.part && e.2.hpa == x)

/-- One line of a range that is read. -/
def fetchStep (s : State) (c : Nat) (j : MoverJob) (a n : Nat) (r : State × Bool) (l : Nat) : State × Bool :=
  let q := if ownLine s c l || bufferHolds s c a n l then (r.1, true)
    else fetchPiece r.1 c j .read (pieceOf s a n l).1 (pieceOf s a n l).2
  (q.1, r.2 && q.2)

theorem ensureRemote_eq (s : State) (c : Nat) (j : MoverJob) (a n : Nat) :
    ensureRemote s c j a n = (linesOf a n).foldl (fetchStep s c j a n) (s, true) := rfl

/-! ### Pieces of a line -/

/-- A piece that is fetched begins in its line and holds what the range has there. -/
theorem pieceOf_line {l : Nat} (hl : l ∈ linesOf a n) : (pieceOf s a n l).1 / 128 = l := by
  obtain ⟨hpos, hlo, hhi⟩ := mem_linesOf.mp hl
  unfold pieceOf
  split
  · dsimp only; omega
  · exact Nat.mul_div_cancel l (by decide)

theorem pieceOf_covers {l x : Nat} (hl : x / 128 = l) (hlo : a ≤ x) (hhi : x < a + n) :
    (pieceOf s a n l).1 ≤ x ∧ x < (pieceOf s a n l).1 + (pieceOf s a n l).2 := by
  unfold pieceOf
  split <;> dsimp only <;> omega

/-- A buffer that lacks a byte of the range lacks one of the piece. -/
theorem bufferHolds_piece {l : Nat} (h : bufferHolds s c a n l = false) :
    bufferHolds s c (pieceOf s a n l).1 (pieceOf s a n l).2 l = false := by
  unfold bufferHolds at h ⊢
  split
  · next key hkey =>
    simp only [hkey, List.all_eq_false, List.mem_range] at h ⊢
    obtain ⟨i, hi, hbit⟩ := h
    refine ⟨i, hi, ?_⟩
    simp only [Bool.or_eq_true, Bool.not_eq_true', Bool.and_eq_false_iff, decide_eq_false_iff_not, not_or, Bool.not_eq_true,
      not_not] at hbit ⊢
    obtain ⟨⟨hlo, hhi⟩, hvalid⟩ := hbit
    exact ⟨pieceOf_covers (by omega) hlo hhi, hvalid⟩
  · rfl

/-! ### One line -/

/-- A line at hand is left. -/
theorem fetchStep_here {l : Nat} (h : lineHere s c j a n l = true) (r : State × Bool) : fetchStep s c j a n r l = r := by
  unfold fetchStep
  split
  · simp
  · next hown =>
    have hstage : (tfind j.stage (pieceOf s a n l).1).isSome = true := by
      simp only [lineHere, Bool.or_eq_true] at h hown
      tauto
    simp [fetchPiece, hstage]

/-- A line that is not at hand is asked for, unless it is on its way. -/
theorem fetchStep_away {l : Nat} (h : lineHere s c j a n l = false) (hl : l ∈ linesOf a n) {r : State × Bool}
    (hr : onlyTxns s r.1) : fetchStep s c j a n r l = (if fetching r.1 c j (pieceOf s a n l).1 then r.1 else
      jobTxn r.1 c j { kind := .read, hpa := (pieceOf s a n l).1, bytes := (pieceOf s a n l).2
                       client := .moverRead c j.step j.part }, false) := by
  simp only [lineHere, Bool.or_eq_false_iff] at h
  obtain ⟨⟨hown, hbuffer⟩, hstage⟩ := h
  have hline := pieceOf_line (s := s) hl
  unfold fetchStep fetchPiece fetching
  simp only [hown, hbuffer, hline, hr.ownLine, hr.bufferHolds, bufferHolds_piece hbuffer, hstage, Bool.or_self,
    Bool.false_eq_true, if_false]
  split <;> simp

theorem onlyTxns.fetchStep {l : Nat} (hl : l ∈ linesOf a n) {r : State × Bool} (hr : onlyTxns s r.1) :
    onlyTxns s (fetchStep s c j a n r l).1 ∧ r.1.cells.nextId ≤ (fetchStep s c j a n r l).1.cells.nextId ∧
    (∀ i, i < r.1.cells.nextId → txnOf (fetchStep s c j a n r l).1 i = txnOf r.1 i) ∧
    (r.2 = false → (fetchStep s c j a n r l).2 = false) := by
  cases hhere : lineHere s c j a n l
  case true =>
    rw [fetchStep_here hhere]
    exact ⟨hr, Nat.le_refl _, fun _ _ => rfl, fun h => h⟩
  case false =>
    rw [fetchStep_away hhere hl hr]
    refine ⟨?_, ?_, fun i hi => ?_, fun _ => rfl⟩ <;> dsimp only <;> split
    · exact hr
    · exact hr.jobTxn ..
    · exact Nat.le_refl _
    · rw [Machine.jobTxn, newTxn_nextId]
      exact Nat.le_succ _
    · rfl
    · rw [Machine.jobTxn, txnOf_newTxn_other _ _ _ (by omega)]

/-- The fetch of another line does not ask for this one. -/
theorem fetching_fetchStep {l k : Nat} (hl : l ∈ linesOf a n) (hk : k ∈ linesOf a n) (hkl : k ≠ l) {r : State × Bool}
    (hr : onlyTxns s r.1) (h : fetching r.1 c j (pieceOf s a n l).1 = false) :
    fetching (fetchStep s c j a n r k).1 c j (pieceOf s a n l).1 = false := by
  cases hhere : lineHere s c j a n k
  case true => rwa [fetchStep_here hhere]
  case false =>
    rw [fetchStep_away hhere hk hr]
    dsimp only
    split
    · exact h
    · have hpiece : (pieceOf s a n k).1 ≠ (pieceOf s a n l).1 := fun heq => hkl (by
        rw [← pieceOf_line (s := s) hk, ← pieceOf_line (s := s) hl, heq])
      unfold fetching at h ⊢
      rw [List.any_eq_false] at h ⊢
      rintro ⟨i, x⟩ hx
      obtain heq | hx := mem_of_mem_tset hx
      · obtain ⟨rfl, rfl⟩ := Prod.mk.inj heq
        simp [hpiece]
      · exact h _ hx

/-! ### The lines of a range -/

/-- Lines that are all at hand are left. -/
theorem foldl_fetchStep_here {ls : List Nat} (h : ∀ l ∈ ls, lineHere s c j a n l = true) (r : State × Bool) :
    ls.foldl (fetchStep s c j a n) r = r := by
  induction ls with
  | nil => rfl
  | cons l ls ih =>
    rw [List.foldl_cons, fetchStep_here (h l List.mem_cons_self)]
    exact ih (fun k hk => h k (List.mem_cons_of_mem _ hk))

theorem foldl_fetchStep_keeps {ls : List Nat} (hls : ∀ l ∈ ls, l ∈ linesOf a n) {r : State × Bool} (hr : onlyTxns s r.1) :
    onlyTxns s (ls.foldl (fetchStep s c j a n) r).1 ∧
    (∀ i, i < r.1.cells.nextId → txnOf (ls.foldl (fetchStep s c j a n) r).1 i = txnOf r.1 i) ∧
    (r.2 = false → (ls.foldl (fetchStep s c j a n) r).2 = false) := by
  induction ls generalizing r with
  | nil => exact ⟨hr, fun _ _ => rfl, fun h => h⟩
  | cons l ls ih =>
    obtain ⟨hstep, hid, htxns, hwaits⟩ := hr.fetchStep (c := c) (j := j) (hls l List.mem_cons_self)
    obtain ⟨hall, hrest, hend⟩ := ih (fun k hk => hls k (List.mem_cons_of_mem _ hk)) hstep
    exact ⟨hall, fun i hi => (hrest i (by omega)).trans (htxns i hi), fun h => hend (hwaits h)⟩

/-- A read of these bytes waits at a port, for this descriptor. -/
def readWaits (s : State) (c : Nat) (j : MoverJob) (p : Nat × Nat) (x : Txn) : Prop :=
  x.phase = .waiting ∧ x.kind = .read ∧ x.client = .moverRead c j.step j.part ∧ x.master = jobMaster s c j.step ∧
    x.hpa = p.1 ∧ x.bytes = p.2

/-- Of the lines in turn, one that is neither at hand nor on its way is asked for, and the range is not ready. -/
theorem foldl_fetchStep_asks {ls : List Nat} (hls : ∀ l ∈ ls, l ∈ linesOf a n) (hnodup : ls.Nodup) {l : Nat} (hl : l ∈ ls)
    (haway : lineHere s c j a n l = false) {r : State × Bool} (hr : onlyTxns s r.1)
    (hasked : fetching r.1 c j (pieceOf s a n l).1 = false) :
    (ls.foldl (fetchStep s c j a n) r).2 = false ∧
    ∃ i x, txnOf (ls.foldl (fetchStep s c j a n) r).1 i = some x ∧ readWaits s c j (pieceOf s a n l) x := by
  induction ls generalizing r with
  | nil => exact absurd hl List.not_mem_nil
  | cons k ls ih =>
    have hk := hls k List.mem_cons_self
    have hrest := fun m hm => hls m (List.mem_cons_of_mem k hm)
    obtain ⟨hkls, hnodup⟩ := List.nodup_cons.mp hnodup
    obtain ⟨hstep, -⟩ := hr.fetchStep (c := c) (j := j) hk
    rw [List.foldl_cons]
    obtain rfl | hl := List.mem_cons.mp hl
    · rw [fetchStep_away haway hk hr, hasked]
      simp only [Bool.false_eq_true, if_false]
      obtain ⟨x, hx, u, p, rfl⟩ := txnOf_newTxn_self r.1
        { kind := .read, hpa := (pieceOf s a n l).1, bytes := (pieceOf s a n l).2, client := .moverRead c j.step j.part
          master := jobMaster r.1 c j.step, tag := jobTag r.1 c j.step, epoch := (cellarOf r.1 (jobMaster r.1 c j.step)).epoch }
      obtain ⟨-, htxns, hend⟩ := foldl_fetchStep_keeps (c := c) (j := j) hrest (r := (jobTxn r.1 c j
        { kind := .read, hpa := (pieceOf s a n l).1, bytes := (pieceOf s a n l).2, client := .moverRead c j.step j.part }, false))
        (hr.jobTxn ..)
      refine ⟨hend rfl, r.1.cells.nextId, _, (htxns _ (Nat.lt_succ_self _)).trans hx, rfl, rfl, rfl, hr.jobMaster .., rfl, rfl⟩
    · exact ih hrest hnodup hl hstep (fetching_fetchStep (hls l (List.mem_cons_of_mem _ hl)) hk (fun h => hkls (h ▸ hl)) hr hasked)

theorem ensureRemote_ready (h : ∀ l ∈ linesOf a n, lineHere s c j a n l = true) : ensureRemote s c j a n = (s, true) :=
  foldl_fetchStep_here h (s, true)

theorem ensureRemote_asks {l : Nat} (hl : l ∈ linesOf a n) (haway : lineHere s c j a n l = false)
    (hasked : fetching s c j (pieceOf s a n l).1 = false) :
    (ensureRemote s c j a n).2 = false ∧ (ensureRemote s c j a n).1.mem.bytes = s.mem.bytes ∧
    ∃ i x, txnOf (ensureRemote s c j a n).1 i = some x ∧ readWaits s c j (pieceOf s a n l) x := by
  obtain ⟨hwaits, htxn⟩ := foldl_fetchStep_asks (fun _ h => h) (linesOf_nodup a n) hl haway (r := (s, true)) (.refl s) hasked
  exact ⟨hwaits, by simp, htxn⟩

end

end Sys2Proof.Machine

end

section

/-! COPY and FILL of one piece: the destination of a descriptor, what its end leaves, and the whole of either (09 Table 9-9). -/

namespace Sys2Proof.Machine

section

variable {s t : State} {c id : Nat} {j : MoverJob} {b p : Bytes} {a d len : Nat}

/-! ### The start of a descriptor does not change what it finds -/

theorem jobRead_startedAt (s : State) (c id : Nat) (j : MoverJob) (a n : Nat) :
    jobRead (startedAt s c id j) c { j with started := true } a n = jobRead s c j a n := by
  unfold startedAt
  split <;> rfl

theorem jobPoison_startedAt (s : State) (c id : Nat) (j : MoverJob) (a n : Nat) :
    jobPoison (startedAt s c id j) c { j with started := true } a n = jobPoison s c j a n := by
  unfold startedAt
  split <;> rfl

theorem lineHere_startedAt (s : State) (c id : Nat) (j : MoverJob) (a n l : Nat) :
    lineHere (startedAt s c id j) c { j with started := true } a n l = lineHere s c j a n l := by
  unfold startedAt
  split <;> rfl

theorem readWaits_startedAt {q : Nat} {x : Txn} : readWaits (startedAt s c id j) c { j with started := true }
    (pieceOf (startedAt s c id j) a len q) x ↔ readWaits s c j (pieceOf s a len q) x := by
  unfold startedAt
  split <;> rfl

theorem fetching_startedAt {q : Nat} : fetching (startedAt s c id j) c { j with started := true }
    (pieceOf (startedAt s c id j) a len q).1 = fetching s c j (pieceOf s a len q).1 := by
  unfold startedAt
  split <;> rfl

theorem stepPart_startedAt (s : State) (c id : Nat) (j : MoverJob) (slot : Nat) :
    stepPart (startedAt s c id j) slot = stepPart s slot := by
  unfold startedAt
  split <;> rfl

/-! ### Addresses -/

/-- The four marks of the addresses, one by one. -/
theorem mark_of_marks {v i : Nat} (h : bbits b 8 4 = v) (hi : i < 4) : bbits b (8 + i) 1 = v / 2 ^ i % 2 := by
  subst h
  interval_cases i <;> simp [bbits, bits] <;> omega

/-- With no mark set, both addresses are local. -/
theorem addrs_local (s : State) (j : MoverJob) (h : bbits b 8 4 = 0) : srcAddr s j b = .hpa (bbits b 64 64) none ∧
    dstAddr s j b = .hpa (bbits b 128 64) none := by
  have h8 : bbits b 8 1 = 0 := mark_of_marks h (i := 0) (by decide)
  have h9 : bbits b 9 1 = 0 := mark_of_marks h (i := 1) (by decide)
  have h10 : bbits b 10 1 = 0 := mark_of_marks h (i := 2) (by decide)
  have h11 : bbits b 11 1 = 0 := mark_of_marks h (i := 3) (by decide)
  simp [srcAddr, dstAddr, fieldAddr, h8, h9, h10, h11]

/-- With the first mark set alone, the source is in host memory and the destination local. -/
theorem addrs_fromHost (s : State) (j : MoverJob) (h : bbits b 8 4 = 1) : srcAddr s j b = .host (bbits b 64 64) ∧
    dstAddr s j b = .hpa (bbits b 128 64) none := by
  have h8 : bbits b 8 1 = 1 := mark_of_marks h (i := 0) (by decide)
  have h9 : bbits b 9 1 = 0 := mark_of_marks h (i := 1) (by decide)
  have h10 : bbits b 10 1 = 0 := mark_of_marks h (i := 2) (by decide)
  have h11 : bbits b 11 1 = 0 := mark_of_marks h (i := 3) (by decide)
  simp [srcAddr, dstAddr, fieldAddr, h8, h9, h10, h11]

/-! ### What a finished transfer leaves -/

/-- The descriptor has moved `b` to `d` and ended with `code`: the bytes of its cellar's scratch are written, and the rest goes
out through its port. -/
def movedBytes (s t : State) (c id : Nat) (j : MoverJob) (d : Nat) (b : Bytes) (code : Nat) : Prop :=
  descEnded t c id code (b.length / 64) 0 0 ∧ jobWrites s t c j d b ∧
    (ownRange s c d b.length → inScratch s d b.length → Memory.wf s.mem.bytes = true → wroteBytes s t d b)

theorem movedBytes_startedAt {code : Nat} : movedBytes (startedAt s c id j) t c id { j with started := true } d b code ↔
    movedBytes s t c id j d b code := by
  unfold startedAt
  split <;> rfl

/-- The end of a descriptor that has written its bytes, and noted how far it came. -/
theorem movedBytes_endJob {k : MoverJob} (h : jobFind s c id = some k) (d : Nat) (b : Bytes) (pz : Nat → Bool)
    {f : MoverJob → MoverJob} (hf : ∀ k, jobId (f k) = jobId k) (code : Nat) :
    movedBytes s (endJob (modJob (jobWrite s c j d b pz) c id f) c id code (b.length / 64) 0 0) c id j d b code := by
  have hwrite : jobFind (jobWrite s c j d b pz) c id = some k := (jobFind_congr (by simp) c id).trans h
  exact ⟨descEnded_endJob (jobFind_modJob hwrite hf) .., jobWrites_jobWrite s c j d b pz,
    fun hown hscratch hwf => wroteBytes_jobWrite hown hscratch hwf⟩

/-- The end of a descriptor that had nothing to move. -/
theorem movedBytes_nil {k : MoverJob} (h : jobFind s c id = some k) (d code : Nat) :
    movedBytes s (endJob s c id code 0 0 0) c id j d [] code :=
  ⟨descEnded_endJob h .., fun _ hl => absurd hl List.not_mem_nil, fun _ _ _ => ⟨fun _ hi => absurd hi (Nat.not_lt_zero _), fun _ _ => rfl⟩⟩

/-! ### COPY -/

/-- A COPY between local ranges that its partition may access brings its source to hand first. -/
theorem execCopy_local {off : Nat} {pz : Bool} (h : descRuns s c id 0x01 j) (hb : b = jobBody s j) (ha : bbits b 64 64 = a)
    (hd : bbits b 128 64 = d) (hlen : bbits b 192 32 = len) (hmarks : bbits b 8 4 = 0) (h48 : bbits b 48 16 = 0)
    (h224 : bbits b 224 160 = 0) (h448 : bbits b 448 64 = 0) (hoff : j.progress = off) (hpz : j.srcPoison = pz)
    (hsrc : jobRefusal s j false a len = none) (hdst : jobRefusal s j true d len = none) (host : Fetch) {r : State × Bool}
    (hr : ensureRemote (startedAt s c id j) c { j with started := true } a len = r) :
    exec (.copy c id host) s = .next (if r.2 then copyFrom (len / 2048 + 4) r.1 c { j with started := true } (jobPasid b)
      (.hpa a none) (.hpa d none) len off pz host else r.1) := by
  subst hb ha hd hlen hoff hpz
  change execCopy c id host s = _
  obtain ⟨hsrcAddr, hdstAddr⟩ := addrs_local (startedAt s c id j) { j with started := true } hmarks
  unfold execCopy
  rw [runJob_of_descRuns h]
  dsimp only
  rw [hsrcAddr, hdstAddr]
  simp only [h48, h224, h448, crosses, rangeRefusal, jobRefusal_startedAt, hsrc, hdst, hr, ne_eq, not_true_eq_false, or_self,
    Bool.false_eq_true, if_false]
  obtain ⟨t, _ | _⟩ := r <;> rfl

/-- The bytes of a local source, in one piece. -/
theorem copyFrom_local (fuel : Nat) (s : State) (c : Nat) (j : MoverJob) (pasid a d : Nat) (hlen : len ≠ 0) (host : Fetch) :
    copyFrom (fuel + 2) s c j pasid (.hpa a none) (.hpa d none) len 0 false host =
      endJob (modJob (jobWrite s c j d (jobRead s c j a len) (fun i => (jobByte s c j (a + i)).2)) c (jobId j)
        (fun k => { k with progress := len, stalled := false, srcPoison := jobPoison s c j a len })) c (jobId j)
        (if jobPoison s c j a len then 3 else 0) (len / 64) 0 0 := by
  have hsize : pieceSize (.hpa a none) (.hpa d none) 0 len = len := by simp [pieceSize]
  have hpoison : (List.range len).any (fun i => (jobByte s c j (a + i)).2) = jobPoison s c j a len := rfl
  simp [copyFrom, hlen, hsize, putBytes, hpoison]

theorem length_jobRead (s : State) (c : Nat) (j : MoverJob) (a n : Nat) : (jobRead s c j a n).length = n := by simp [jobRead]

theorem copy_moves (h : descRuns s c id 0x01 j) (hb : b = jobBody s j) (ha : bbits b 64 64 = a) (hd : bbits b 128 64 = d)
    (hlen : bbits b 192 32 = len) (hmarks : bbits b 8 4 = 0) (h48 : bbits b 48 16 = 0) (h224 : bbits b 224 160 = 0)
    (h448 : bbits b 448 64 = 0) (hprogress : j.progress = 0) (hclean : j.srcPoison = false)
    (hsrc : rangeReady s c j false a len) (hdst : rangeReady s c j true d len) (host : Fetch) :
    ∃ t, exec (.copy c id host) s = .next t ∧
      movedBytes s t c id j d (jobRead s c j a len) (if jobPoison s c j a len then 3 else 0) := by
  obtain ⟨hmay, hhere⟩ := hsrc
  have hstart := jobFind_startedAt h
  have hid : jobId { j with started := true } = id := jobId_of_jobFind hstart
  have hready := ensureRemote_ready fun l hl => (lineHere_startedAt s c id j a len l).trans (hhere rfl l hl)
  refine ⟨_, execCopy_local h hb ha hd hlen hmarks h48 h224 h448 hprogress hclean hmay hdst.1 host hready, ?_⟩
  rw [if_pos rfl]
  by_cases hzero : len = 0
  · subst hzero
    simp only [copyFrom, Nat.le_refl, if_true, hid]
    exact movedBytes_startedAt.mp (movedBytes_nil hstart d 0)
  · rw [copyFrom_local _ _ _ _ _ _ _ hzero, hid, jobRead_startedAt, jobPoison_startedAt, ← movedBytes_startedAt (id := id)]
    have hend := movedBytes_endJob (j := { j with started := true }) hstart d (jobRead s c j a len)
      (fun i => (jobByte (startedAt s c id j) c { j with started := true } (a + i)).2)
      (f := fun k => { k with progress := len, stalled := false, srcPoison := jobPoison s c j a len }) (fun _ => rfl)
      (if jobPoison s c j a len then 3 else 0)
    rwa [length_jobRead] at hend

theorem copy_fetches (h : descRuns s c id 0x01 j) (hb : b = jobBody s j) (ha : bbits b 64 64 = a) (hd : bbits b 128 64 = d)
    (hlen : bbits b 192 32 = len) (hmarks : bbits b 8 4 = 0) (h48 : bbits b 48 16 = 0) (h224 : bbits b 224 160 = 0)
    (h448 : bbits b 448 64 = 0) (hsrc : jobRefusal s j false a len = none) (hdst : jobRefusal s j true d len = none) (host : Fetch)
    {l : Nat} (hl : l ∈ linesOf a len) (haway : lineHere s c j a len l = false)
    (hasked : fetching s c j (pieceOf s a len l).1 = false) :
    ∃ t, exec (.copy c id host) s = .next t ∧ jobFind t c id = some { j with started := true } ∧
      t.mem.bytes = s.mem.bytes ∧ ∃ i x, txnOf t i = some x ∧ readWaits s c j (pieceOf s a len l) x := by
  obtain ⟨hwaits, hbytes, i, x, hx, hread⟩ := ensureRemote_asks (s := startedAt s c id j) (c := c) (j := { j with started := true }) hl
    ((lineHere_startedAt ..).trans haway) (fetching_startedAt.trans hasked)
  refine ⟨_, execCopy_local h hb ha hd hlen hmarks h48 h224 h448 rfl rfl hsrc hdst host rfl, ?_⟩
  rw [if_neg (by rw [hwaits]; exact Bool.false_ne_true)]
  exact ⟨(jobFind_congr (by simp) c id).trans (jobFind_startedAt h), by rw [hbytes, (startedAt_frame s c id j).2], i, x, hx,
    readWaits_startedAt.mp hread⟩

end

end Sys2Proof.Machine

end

section

/-! A COPY of one page of host memory, FILL, and the reserved bits of either (09 Table 9-9). -/

namespace Sys2Proof.Machine

section

variable {s s1 : State} {c id : Nat} {j : MoverJob} {b p : Bytes} {a d len : Nat}

/-! ### COPY from a page of host memory -/

/-- A range that ends in the page at its start is one translation. -/
theorem hostPages_onePage {pasid part n out left : Nat} {write : Bool} {who : Asker} (hn : 0 < n) (hleft : n ≤ left)
    (htranslate : translate s pasid part a write who = (s1, .ok out left)) (fuel : Nat) :
    hostPages (fuel + 2) s pasid part write who a n = (s1, .ok [(a, out, n)]) := by
  simp [hostPages, htranslate, Nat.min_eq_right hleft, Nat.ne_of_gt hn]

theorem translate_larder (s : State) (pasid ctx addr : Nat) (write : Bool) (who : Asker) :
    (translate s pasid ctx addr write who).1.larder = s.larder := by simp

theorem hostData_whole (p : Bytes) : hostData (.data p) p.length = some (p, fun _ => false) := by simp [hostData]

theorem badIn_none (off n : Nat) : badIn (fun _ => false) off n = false := by simp [badIn]

/-- The bytes of one host page, written in one piece. -/
theorem copyFrom_hostPage (fuel : Nat) {pasid out left : Nat} (hpos : 0 < p.length) (hleft : p.length ≤ left)
    (hpage : p.length ≤ 4096 - a % 4096)
    (htranslate : translate s pasid (stepPart s j.step) a false (.mover c (jobId j)) = (s1, .ok out left)) :
    copyFrom (fuel + 2) s c j pasid (.host a) (.hpa d none) p.length 0 false (.data p) =
      endJob (modJob (jobWrite s1 c j d p (fun _ => false)) c (jobId j)
        (fun k => { k with progress := p.length, stalled := false, srcPoison := false })) c (jobId j) 0 (p.length / 64) 0 0 := by
  have hsize : pieceSize (.host a) (.hpa d none) 0 p.length = p.length := by
    simp [pieceSize, pageRest, hpage]
  have hrange : hostRange s c j pasid false a p.length = (s1, .ok [(a, out, p.length)]) :=
    hostPages_onePage hpos hleft htranslate _
  have hclean : (List.range p.length).any (fun _ => false) = false := by simp
  simp [copyFrom, Nat.ne_of_gt hpos, hsize, hrange, hostData_whole, badIn_none, tlpPoison, putBytes, hclean]

/-- A COPY of host memory into a local range that its partition may access goes over its bytes from the start. -/
theorem execCopy_fromHost {off : Nat} {pz : Bool} (h : descRuns s c id 0x01 j) (hb : b = jobBody s j) (ha : bbits b 64 64 = a)
    (hd : bbits b 128 64 = d) (hlen : bbits b 192 32 = len) (hmarks : bbits b 8 4 = 1) (h48 : bbits b 48 16 = 0)
    (h224 : bbits b 224 160 = 0) (h448 : bbits b 448 64 = 0) (hoff : j.progress = off) (hpz : j.srcPoison = pz)
    (hdst : jobRefusal s j true d len = none) (host : Fetch) :
    exec (.copy c id host) s = .next (copyFrom (len / 2048 + 4) (startedAt s c id j) c { j with started := true } (jobPasid b)
      (.host a) (.hpa d none) len off pz host) := by
  subst hb ha hd hlen hoff hpz
  change execCopy c id host s = _
  obtain ⟨hsrcAddr, hdstAddr⟩ := addrs_fromHost (startedAt s c id j) { j with started := true } hmarks
  unfold execCopy
  rw [runJob_of_descRuns h]
  dsimp only
  rw [hsrcAddr, hdstAddr]
  simp only [h48, h224, h448, crosses, rangeRefusal, jobRefusal_startedAt, hdst, ne_eq, not_true_eq_false, or_self,
    Bool.false_eq_true, if_false]

theorem copy_fromHost (h : descRuns s c id 0x01 j) (hb : b = jobBody s j) (ha : bbits b 64 64 = a) (hd : bbits b 128 64 = d)
    (hlen : bbits b 192 32 = p.length) (hmarks : bbits b 8 4 = 1) (h48 : bbits b 48 16 = 0) (h224 : bbits b 224 160 = 0)
    (h448 : bbits b 448 64 = 0) (hprogress : j.progress = 0) (hclean : j.srcPoison = false) (hpos : 0 < p.length)
    {out left : Nat} (hleft : p.length ≤ left) (hpage : p.length ≤ 4096 - a % 4096) (hdst : jobRefusal s j true d p.length = none)
    (htranslate : translate (startedAt s c id j) (jobPasid b) (stepPart s j.step) a false (.mover c id) = (s1, .ok out left)) :
    ∃ t, exec (.copy c id (.data p)) s = .next t ∧ movedBytes s1 t c id j d p 0 := by
  have hid : jobId { j with started := true } = id := jobId_of_jobFind (jobFind_startedAt h)
  have hlarder : s1.larder = (startedAt s c id j).larder := by
    simpa [htranslate] using translate_larder (startedAt s c id j) (jobPasid b) (stepPart s j.step) a false (.mover c id)
  have hfind := (jobFind_congr hlarder c id).trans (jobFind_startedAt h)
  refine ⟨_, execCopy_fromHost h hb ha hd hlen hmarks h48 h224 h448 hprogress hclean hdst _, ?_⟩
  rw [copyFrom_hostPage _ hpos hleft hpage (by rwa [stepPart_startedAt, hid]), hid]
  exact movedBytes_endJob (j := { j with started := true }) hfind d p (fun _ => false)
    (f := fun k => { k with progress := p.length, stalled := false, srcPoison := false }) (fun _ => rfl) 0

/-! ### FILL -/

/-- A FILL of a local range that its partition may access goes over its bytes from the start. -/
theorem execFill_local {off : Nat} (h : descRuns s c id 0x02 j) (hb : b = jobBody s j) (hd : bbits b 128 64 = d)
    (hlen : bbits b 192 32 = len) (hwords : len % 8 = 0) (hmarks : bbits b 8 4 = 0) (h48 : bbits b 48 16 = 0)
    (h224 : bbits b 224 160 = 0) (h448 : bbits b 448 64 = 0) (hoff : j.progress = off)
    (hdst : jobRefusal s j true d len = none) :
    exec (.fill c id) s = .next (fillFrom (len / 2048 + 4) (startedAt s c id j) c { j with started := true } (jobPasid b)
      (bbits b 64 64) (.hpa d none) len off) := by
  subst hb hd hlen hoff
  change execFill c id s = _
  obtain ⟨-, hdstAddr⟩ := addrs_local (startedAt s c id j) { j with started := true } hmarks
  have h8 : bbits (jobBody s j) 8 1 = 0 := mark_of_marks hmarks (i := 0) (by decide)
  have h10 : bbits (jobBody s j) 10 1 = 0 := mark_of_marks hmarks (i := 2) (by decide)
  unfold execFill
  rw [runJob_of_descRuns h]
  dsimp only
  rw [hdstAddr]
  simp only [h48, h224, h448, h8, h10, hwords, crosses, rangeRefusal, jobRefusal_startedAt, hdst, ne_eq, not_true_eq_false, or_self,
    Bool.false_eq_true, if_false]

theorem length_patternBytes (v n : Nat) : (patternBytes v n).length = n := by simp [patternBytes]

/-- The pattern over a local range, in one piece. -/
theorem fillFrom_local (fuel : Nat) (s : State) (c : Nat) (j : MoverJob) (pasid v d : Nat) (hlen : len ≠ 0) :
    fillFrom (fuel + 2) s c j pasid v (.hpa d none) len 0 =
      endJob (modJob (jobWrite s c j d (patternBytes v len) (fun _ => false)) c (jobId j)
        (fun k => { k with progress := len, stalled := false })) c (jobId j) 0 (len / 64) 0 0 := by
  have hsize : pieceSize (.hpa d none) (.hpa d none) 0 len = len := by simp [pieceSize]
  have hwhole : (patternBytes v len).take len = patternBytes v len := List.take_of_length_le (length_patternBytes v len).le
  simp [fillFrom, hlen, hsize, putBytes, hwhole]

theorem fill_writes (h : descRuns s c id 0x02 j) (hb : b = jobBody s j) (hd : bbits b 128 64 = d)
    (hlen : bbits b 192 32 = len) (hwords : len % 8 = 0) (hmarks : bbits b 8 4 = 0) (h48 : bbits b 48 16 = 0)
    (h224 : bbits b 224 160 = 0) (h448 : bbits b 448 64 = 0) (hprogress : j.progress = 0) (hdst : rangeReady s c j true d len) :
    ∃ t, exec (.fill c id) s = .next t ∧ movedBytes s t c id j d (patternBytes (bbits b 64 64) len) 0 := by
  have hstart := jobFind_startedAt h
  have hid : jobId { j with started := true } = id := jobId_of_jobFind hstart
  refine ⟨_, execFill_local h hb hd hlen hwords hmarks h48 h224 h448 hprogress hdst.1, movedBytes_startedAt.mp ?_⟩
  by_cases hzero : len = 0
  · subst hzero
    simp only [fillFrom, Nat.le_refl, if_true, hid]
    exact movedBytes_nil hstart d 0
  · rw [fillFrom_local _ _ _ _ _ _ _ hzero, hid]
    have hend := movedBytes_endJob (j := { j with started := true }) hstart d (patternBytes (bbits b 64 64) len) (fun _ => false)
      (f := fun k => { k with progress := len, stalled := false }) (fun _ => rfl) 0
    rwa [length_patternBytes] at hend

/-! ### Reserved bits -/

/-- A descriptor that ends at once has changed nothing in memory. -/
theorem endsMalformed {op : Nat} (h : descRuns s c id op j) : descEnded (endJob (startedAt s c id j) c id 2 0 0 0) c id 2 0 0 0 ∧
    (endJob (startedAt s c id j) c id 2 0 0 0).mem = s.mem :=
  ⟨descEnded_endJob (jobFind_startedAt h) .., (startedAt_frame s c id j).2⟩

theorem copy_reserved (h : descRuns s c id 0x01 j) (h48 : bbits (jobBody s j) 48 16 ≠ 0) (host : Fetch) :
    exec (.copy c id host) s = .next (endJob (startedAt s c id j) c id 2 0 0 0) := by
  change execCopy c id host s = _
  unfold execCopy
  rw [runJob_of_descRuns h]
  dsimp only
  rw [if_pos (.inl h48)]

theorem fill_reserved (h : descRuns s c id 0x02 j) (h48 : bbits (jobBody s j) 48 16 ≠ 0) :
    exec (.fill c id) s = .next (endJob (startedAt s c id j) c id 2 0 0 0) := by
  change execFill c id s = _
  unfold execFill
  rw [runJob_of_descRuns h]
  dsimp only
  rw [if_pos (.inl h48)]

end

end Sys2Proof.Machine

end

section

/-! The end of a descriptor: its result is written, and once nothing of it is under way its part is done (06 R162, 09 Table 9-8). -/

namespace Sys2Proof.Machine

section

variable {s t u : State} {c id : Nat} {j : MoverJob} {b res : Bytes} {a : Nat} {p : StepPart}

/-! ### A descriptor leaves its mover -/

theorem partAt_partDone (h : partAt s j.step j.part = some p) :
    partAt (partDone s j.step j.part) j.step j.part = some { p with phase := .done } := by
  unfold partAt at h ⊢
  obtain ⟨st, hst, hp⟩ := Option.bind_eq_some_iff.mp h
  rw [partDone, stepOf_modStep_self, hst]
  simp [hp]

theorem removeJob_samePlaces (s : State) (c id : Nat) : samePlaces s (removeJob s c id) :=
  .of_frame (by simp) (by simp) (by simp) (by simp) (by simp) (by simp)

/-- The descriptor with no use under way leaves its mover, and its part is done. -/
theorem removeJob_ends (hfind : jobFind s c id = some j) (huses : j.uses = []) (hpart : partAt s j.step j.part = some p) :
    jobFind (removeJob s c id) c id = none ∧ partAt (removeJob s c id) j.step j.part = some { p with phase := .done } := by
  have hlarder : (detachJob s c id).larder = s.larder := by simp
  have hremove : removeJob s c id = partDone { detachJob s c id with larder := { (detachJob s c id).larder with
      movers := tmodIf (detachJob s c id).larder.movers c (fun l => l.filter (fun k => jobId k != id)) } } j.step j.part := by
    simp only [removeJob, hfind, huses, forEach, List.foldl_nil]
  rw [hremove]
  constructor
  · have hjobs : ∀ l : List MoverJob, (l.filter (fun k => jobId k != id)).find? (fun k => jobId k == id) = none := fun l => by
      rw [List.find?_eq_none]
      intro k hk
      simpa using (List.mem_filter.mp hk).2
    rw [jobFind, jobsOf, partDone, modStep, tget]
    dsimp only
    rw [tfind_tmodIf_self]
    cases tfind (detachJob s c id).larder.movers c with
    | none => rfl
    | some l => exact hjobs l
  · refine partAt_partDone ?_
    rw [← hpart, partAt, partAt, stepOf, stepOf]
    dsimp only
    rw [hlarder]

/-! ### What is under way -/

theorem jobBusy_congr (htxns : t.mem.txns = s.mem.txns) (hchord : t.chord = s.chord) (c : Nat) (j : MoverJob) :
    jobBusy t c j = jobBusy s c j := by
  rw [jobBusy, htxns, hchord, jobBusy]

/-- A write that waits at a port keeps its descriptor busy. -/
theorem jobBusy_of_writeWaits {i l : Nat} {x : Txn} (hx : txnOf s i = some x) (hwaits : writeWaits c j a b l x) :
    jobBusy s c j = true := by
  obtain ⟨-, -, hclient, -, -⟩ := hwaits
  rw [jobBusy, Bool.or_eq_true, List.any_eq_true]
  exact .inl ⟨(i, x), mem_of_tfind hx, by simp [hclient]⟩

/-! ### The result -/

/-- Bytes written into a scratch stay written while the map and memory stay. -/
theorem wroteBytes.of_frame (h : wroteBytes s t a b) (hscratch : inScratch t a b.length) (hplaces : samePlaces t u)
    (hbytes : u.mem.bytes = t.mem.bytes) : wroteBytes s u a b := by
  obtain ⟨hin, hout⟩ := h
  refine ⟨fun i hi => ?_, fun x hx => by rw [hbytes, hout x hx]⟩
  rw [readByte_inScratch (hplaces.inScratch.mpr hscratch) hi, hbytes, ← readByte_inScratch hscratch hi, hin i hi]

theorem settleJob_ends (hbusy : jobBusy s c j = false) (hpeg : bbits b 46 1 = 0) :
    execMoverDescriptorDone.settleJob c id s j b = removeJob s c id := by
  simp [execMoverDescriptorDone.settleJob, execMoverDescriptorDone.finishJob, hbusy, hpeg]

theorem settleJob_waits (hbusy : jobBusy s c j = true) : execMoverDescriptorDone.settleJob c id s j b = s := by
  simp [execMoverDescriptorDone.settleJob, hbusy]

/-- Without a result to write, the descriptor may leave. -/
theorem exec_descriptorDone_settles (hfind : jobFind s c id = some j) (hresult : j.result = some res) (hb : b = jobBody s j)
    (hbusy : jobBusy s c j = false) (hwritten : writesResult b = false ∨ j.posted = true) :
    exec (.moverDescriptorDone c id) s = .next (execMoverDescriptorDone.settleJob c id s j b) := by
  subst hb
  change execMoverDescriptorDone c id s = _
  have hno : ¬ ((!j.posted) = true ∧ writesResult (jobBody s j) = true) := by
    rcases hwritten with h | h <;> simp [h]
  unfold execMoverDescriptorDone
  simp only [hfind, hresult, hbusy, Bool.false_eq_true, if_false]
  exact if_neg (by simpa using hno)

/-- The state once the result is written. -/
def resultPosted (s : State) (c id : Nat) (j : MoverJob) (a : Nat) (res : Bytes) : State :=
  modJob (jobWrite s c j a res (fun _ => false)) c id (fun j => { j with posted := true })

/-- A result to write at an address that its partition may access is written first. -/
theorem exec_descriptorDone_posts (hfind : jobFind s c id = some j) (hresult : j.result = some res) (hb : b = jobBody s j)
    (ha : bbits b 384 64 = a) (hbusy : jobBusy s c j = false) (hwrites : writesResult b = true) (hposted : j.posted = false)
    (hmay : jobRefusal s j true a 16 = none) :
    exec (.moverDescriptorDone c id) s = .next (execMoverDescriptorDone.settleJob c id (resultPosted s c id j a res) j b) := by
  subst hb ha
  change execMoverDescriptorDone c id s = _
  unfold execMoverDescriptorDone
  simp [hfind, hresult, hbusy, hwrites, hposted, hmay, resultPosted]

theorem jobFind_resultPosted (hfind : jobFind s c id = some j) (a : Nat) (res : Bytes) :
    jobFind (resultPosted s c id j a res) c id = some { j with posted := true } :=
  jobFind_modJob ((jobFind_congr (by simp) c id).trans hfind) (fun _ => rfl)

theorem partAt_resultPosted (s : State) (c id : Nat) (j : MoverJob) (a : Nat) (res : Bytes) (slot part : Nat) :
    partAt (resultPosted s c id j a res) slot part = partAt s slot part := by
  have hlarder : (jobWrite s c j a res (fun _ => false)).larder = s.larder := by simp
  rw [partAt, stepOf, resultPosted, modJob, hlarder, partAt, stepOf]

theorem jobWrite_resultPosted (s : State) (c id : Nat) (j : MoverJob) (a : Nat) (res : Bytes) :
    writesInside (jobWrite s c j a res (fun _ => false)) (resultPosted s c id j a res) :=
  ⟨.of_frame (by simp [resultPosted]) (by simp [resultPosted]) (by simp [resultPosted]) (by simp [resultPosted])
    (by simp [resultPosted]) (by simp [resultPosted]), by simp [resultPosted], by simp [resultPosted]⟩

theorem resultPosted_writesInside (h : ownRange s c a res.length) : writesInside s (resultPosted s c id j a res) :=
  (jobWrite_writesInside h).trans (jobWrite_resultPosted ..)

theorem wroteBytes_resultPosted (hown : ownRange s c a res.length) (hscratch : inScratch s a res.length)
    (hwf : Memory.wf s.mem.bytes = true) : wroteBytes s (resultPosted s c id j a res) a res :=
  (wroteBytes_jobWrite hown hscratch hwf).of_frame ((jobWrite_samePlaces ..).inScratch.mpr hscratch)
    (jobWrite_resultPosted ..).tosamePlaces (by simp [resultPosted])

/-- With its result written, or none to write, the descriptor leaves. -/
theorem descriptorDone_leaves (hfind : jobFind s c id = some j) (hresult : j.result = some res) (hb : b = jobBody s j)
    (hpeg : bbits b 46 1 = 0) (hbusy : jobBusy s c j = false) (huses : j.uses = []) (hpart : partAt s j.step j.part = some p)
    (hwritten : writesResult b = false ∨ j.posted = true) :
    ∃ t, exec (.moverDescriptorDone c id) s = .next t ∧ jobFind t c id = none ∧
      partAt t j.step j.part = some { p with phase := .done } ∧ t.mem.bytes = s.mem.bytes := by
  obtain ⟨hgone, hdone⟩ := removeJob_ends hfind huses hpart
  refine ⟨_, exec_descriptorDone_settles hfind hresult hb hbusy hwritten, ?_⟩
  rw [settleJob_ends hbusy hpeg]
  exact ⟨hgone, hdone, by simp⟩

/-- A result outside the cellar goes out through its port, and the descriptor waits for it. -/
theorem descriptorDone_writesOut (hfind : jobFind s c id = some j) (hresult : j.result = some res) (hb : b = jobBody s j)
    (ha : bbits b 384 64 = a) (hbusy : jobBusy s c j = false) (hwrites : writesResult b = true) (hposted : j.posted = false)
    (hlen : res.length = 16) (hmay : jobRefusal s j true a 16 = none) (hout : ¬ ownRange s c a 16) :
    ∃ t, exec (.moverDescriptorDone c id) s = .next t ∧ jobFind t c id = some { j with posted := true } ∧
      jobWrites s t c j a res := by
  have hwaits : jobWrites s (resultPosted s c id j a res) c j a res := jobWrites_jobWrite s c j a res (fun _ => false)
  have hbusy' : jobBusy (resultPosted s c id j a res) c j = true := by
    unfold ownRange at hout
    push Not at hout
    obtain ⟨l, hl, hown⟩ := hout
    obtain ⟨i, x, hx, hwait⟩ := hwaits l (hlen ▸ hl) (Bool.eq_false_iff.mpr hown)
    exact jobBusy_of_writeWaits hx hwait
  refine ⟨_, exec_descriptorDone_posts hfind hresult hb ha hbusy hwrites hposted hmay, ?_⟩
  rw [settleJob_waits hbusy']
  exact ⟨jobFind_resultPosted hfind a res, hwaits⟩

/-- A result in a scratch of the cellar's own is written at once, and the descriptor leaves. -/
theorem descriptorDone_writesInside (hfind : jobFind s c id = some j) (hresult : j.result = some res) (hb : b = jobBody s j)
    (ha : bbits b 384 64 = a) (hpeg : bbits b 46 1 = 0) (hbusy : jobBusy s c j = false) (huses : j.uses = [])
    (hpart : partAt s j.step j.part = some p) (hwrites : writesResult b = true) (hposted : j.posted = false)
    (hlen : res.length = 16) (hmay : rangeReady s c j true a 16) (hown : ownRange s c a 16) (hscratch : inScratch s a 16)
    (hwf : Memory.wf s.mem.bytes = true) :
    ∃ t, exec (.moverDescriptorDone c id) s = .next t ∧ jobFind t c id = none ∧
      partAt t j.step j.part = some { p with phase := .done } ∧ wroteBytes s t a res := by
  rw [← hlen] at hown hscratch
  have hinside : writesInside s (resultPosted s c id j a res) := resultPosted_writesInside hown
  have hbusy' : jobBusy (resultPosted s c id j a res) c j = false := (jobBusy_congr hinside.txns hinside.chord c j).trans hbusy
  obtain ⟨hgone, hdone⟩ := removeJob_ends (j := { j with posted := true }) (jobFind_resultPosted hfind a res) huses
    ((partAt_resultPosted ..).trans hpart)
  refine ⟨_, exec_descriptorDone_posts hfind hresult hb ha hbusy hwrites hposted hmay.1, ?_⟩
  rw [settleJob_ends hbusy' hpeg]
  exact ⟨hgone, hdone, (wroteBytes_resultPosted hown hscratch hwf).of_frame (hinside.inScratch.mpr hscratch)
    (removeJob_samePlaces ..) (by simp)⟩

end

end Sys2Proof.Machine

namespace Sys2Proof

open Machine in
/-- Settles O39: a piece is one step of the copy or the fill, whose write puts every line of the cellar's own scratch into
memory and makes a waiting write of the port of every other line. -/
theorem copiesAndFills : Obligations.CopiesAndFills := by
  refine ⟨?copy, ?fetch, ?host, ?fill, ?reserved, ?done⟩
  case copy =>
    intro c id h s j b a d len hruns hb ha hd hlen hmarks h48 h224 h448 hprogress hclean hsrc hdst
    simpa only [movedBytes, length_jobRead] using
      copy_moves hruns hb ha hd hlen hmarks h48 h224 h448 hprogress hclean hsrc hdst h
  case fetch =>
    intro c id h s j b a d len l hruns hb ha hd hlen hmarks h48 h224 h448 hsrc hdst hl haway hasked
    obtain ⟨t, hexec, hfind, hbytes, i, x, hx, hphase, hkind, hclient, hmaster, hhpa, hsize⟩ :=
      copy_fetches hruns hb ha hd hlen hmarks h48 h224 h448 hsrc hdst h hl haway hasked
    exact ⟨t, i, x, hexec, hfind, hx, hphase, hkind, hclient, hmaster, hhpa, hsize, hbytes⟩
  case host =>
    intro c id s s1 j b p a d out left hruns hb ha hd hlen hmarks h48 h224 h448 hprogress hclean hpos hleft hpage hdst htranslate
    exact copy_fromHost hruns hb ha hd hlen hmarks h48 h224 h448 hprogress hclean hpos hleft hpage hdst htranslate
  case fill =>
    intro c id s j b d len hruns hb hd hlen hwords hmarks h48 h224 h448 hprogress hdst
    obtain ⟨t, hexec, hmoved⟩ := fill_writes hruns hb hd hlen hwords hmarks h48 h224 h448 hprogress hdst
    rw [movedBytes, length_patternBytes] at hmoved
    exact ⟨t, hexec, hmoved⟩
  case reserved =>
    intro c id h s j h48
    exact ⟨fun hruns => ⟨_, copy_reserved hruns h48 h, endsMalformed hruns⟩,
      fun hruns => ⟨_, fill_reserved hruns h48, endsMalformed hruns⟩⟩
  case done =>
    intro c id s j res b a p hfind hresult hb ha hpeg hbusy huses hpart
    exact ⟨descriptorDone_leaves hfind hresult hb hpeg hbusy huses hpart,
      fun hwrites hposted hlen hmay hout =>
        descriptorDone_writesOut hfind hresult hb ha hbusy hwrites hposted hlen hmay hout,
      fun hwrites hposted hlen hmay hown hscratch hwf =>
        descriptorDone_writesInside hfind hresult hb ha hpeg hbusy huses hpart hwrites hposted hlen hmay hown hscratch hwf⟩

end Sys2Proof

end
